-- ==== Sys2Proof/Word.lean ====
section
/-! DEFINITION. Words, bytes and their plainest arithmetic: little-endian byte lists (R3), two's complement
readings and saturation. -/

namespace Sys2Proof

/-- A byte of memory or of a frame. -/
abbrev Byte := BitVec 8

/-- A 32-bit register or memory word (R3). -/
abbrev Word := BitVec 32

/-- The four roles of Table 0.1. -/
inductive Role where
  | cell
  | loop
  | crossing
  | chapter
  deriving DecidableEq, Repr

/-- The two cores (R255). -/
inductive CoreId where
  | decani
  | cantoris
  deriving DecidableEq, Repr

/-- The two worlds: Nave is normal, Sacristy is secure. -/
inductive World where
  | nave
  | sacristy
  deriving DecidableEq, Repr

/-- 0 for Nave and 1 for the Sacristy: the index of what is kept per world. -/
def World.ix : World → Nat
  | .nave => 0
  | .sacristy => 1

/-- The low `n` bytes of a number, least significant first. -/
def leBytes : Nat → Nat → List Byte
  | 0, _ => []
  | n + 1, v => BitVec.ofNat 8 v :: leBytes n (v / 256)

/-- The number a little-endian byte list spells. -/
def leNat : List Byte → Nat
  | [] => 0
  | b :: bs => b.toNat + 256 * leNat bs

/-- The number a big-endian byte list spells. -/
def beNat (bs : List Byte) : Nat := leNat bs.reverse

/-- The low `n` bytes of a number, most significant first. -/
def beBytes (n v : Nat) : List Byte := (leBytes n v).reverse

/-- Bits `[lo + w - 1 : lo]` of a number. -/
def bitsOf (v lo w : Nat) : Nat := (v >>> lo) % 2 ^ w

/-- Bit `n` of a number. -/
def bitAt (v n : Nat) : Bool := v.testBit n

/-- The signed reading of the low `w` bits of a number. -/
def signed (w v : Nat) : Int :=
  if v % 2 ^ w < 2 ^ (w - 1) then (v % 2 ^ w : Nat) else ((v % 2 ^ w : Nat) : Int) - (2 ^ w : Nat)

/-- The low `w` bits of an integer as a number. -/
def wrapInt (w : Nat) (i : Int) : Nat := (i % ((2 ^ w : Nat) : Int)).toNat

/-- An integer held between two bounds. -/
def clampInt (lo hi i : Int) : Int := if i < lo then lo else if hi < i then hi else i

/-- `b` as the number 0 or 1. -/
def b2n (b : Bool) : Nat := if b then 1 else 0

/-- A number that counts up and stops at `cap`. -/
def satAdd (cap v k : Nat) : Nat := if v + k < cap then v + k else cap

/-- Replace element `n` of a list (unchanged when the list is shorter). -/
def putAt {α : Type} (xs : List α) (n : Nat) (x : α) : List α := xs.set n x

end Sys2Proof
end

