-- ==== Sys2Proof/Syntax.lean ====
section
/-! DEFINITION. The commands of the block and their operands: one constructor of `Instr` per row of the
opcode table. Where the table gives a row no operand bits, an operand is what the outside supplies with the
event: a level, a sample, a frame, a descriptor, the fields of an instruction. -/

namespace Sys2Proof

/-- The number of a general register, w0 to w15 (Table 12.1). -/
abbrev Reg := Fin 16

/-- How one Vudun instruction is issued: on which core, in its compact form or not (R284), and how many cycles
it stalled before it issued (interlocks of R285, misses of R286). -/
structure Issue where
  core : CoreId
  compact : Bool
  stall : Nat
  deriving DecidableEq, Repr

/-- The path a descriptor came by, and its completion goes back on (R202, R244). -/
inductive Path where
  | walk
  | lectern
  | lane (k : Nat)
  deriving DecidableEq, Repr

/-- A descriptor in hand (Table 11.3): its path, the ring it belongs to (the RING field on the line, the ring
number in the Chapter), its line SEQ (0 for a Local one), its slot, and its 64 bytes. -/
structure Desc where
  path : Path
  ring : Nat
  seq : Nat
  slot : Nat
  bytes : List Byte
  deriving DecidableEq, Repr

/-- A frame of the Thrum line or the Lectern jack (R182, Table 9.1): its 8 header bytes read as one little-endian
number, and its payload. The sync word and the CRC are those of R182 and R184. -/
structure Frame where
  hdr : Nat
  payload : List Byte
  deriving DecidableEq, Repr

/-- The port a frame is on: the walk a driver drives, the walk a node is attached to, or the Lectern jack. -/
inductive Port where
  | driven
  | attached
  | jack
  deriving DecidableEq, Repr

/-- What the downlink receiver finds with a frame (R164): the rate, encoded as WDCTL.RATE, and the step in units of 50 mV. -/
structure LineRx where
  rate : Fin 4
  swing : BitVec 8
  deriving DecidableEq, Repr

/-- A RANGE step (R195): a node hears the frame, or the driver has measured the round trip of a sweep index in root cycles. -/
inductive RangeIn where
  | heard (f : Frame) (rx : LineRx)
  | measured (index rt : Nat)
  deriving DecidableEq, Repr

/-- What is measured on the walk at a beacon: the standing current and WVS as WDMON shows them, and whether babble was seen in
the superframe that ended (R176, R178). -/
structure WalkMon where
  iwalk : BitVec 10
  vwalk : BitVec 10
  babble : Bool
  deriving DecidableEq, Repr

/-- A configuration request (R214 to R216): a read of a DWORD of the standard header, a read of a DWORD of the serial number or of a
capability, and the writes that act: the Command register, a BAR, MSI-X control, power management control (D3hot, PME_En, a write
of 1 to PME_Status), clock power management, or any other word. -/
inductive CfgReq where
  | read (dword : Nat)
  | serial (upper : Bool)
  | command (mem bme : Bool)
  | bar (n : Fin 4) (v : BitVec 32)
  | msix (enable mask : Bool)
  | power (d3 pmeEn clear : Bool)
  | link (clkPm : Bool)
  | other (dword : Nat) (v : BitVec 32)
  deriving DecidableEq, Repr

/-- What BOOKS_QUERY names (R158): a walk, or a ring kind of a Cell address. -/
inductive BookTarget where
  | walk (n : Nat)
  | ring (addr kind : Nat)
  deriving DecidableEq, Repr

/-- What the converter and its inputs report with one output: the rounded ratio at the range in use before the offset
is taken off (R401), whether the modulator overloaded, whether the reference was below 0.5 V, and whether the charge
amplifier was beyond ±0.75 V. -/
structure SfeSample where
  raw : Int
  modOver : Bool
  refLow : Bool
  cqSat : Bool
  deriving DecidableEq, Repr

/-- What FONT_TUNE's shots measure (R451): the sum of peaks at each PER from PMIN on, the greatest peak at 60 dB, the gain
that brings the peak between 1,024 and 1,800 codes, the PWR of each of the 16 pairs, whether any of them was invalid,
the echo of each direction from TPLPRE samples before n_thr, and the port capacitances in 2 pF units with whether a
port is resistive. -/
structure TuneIn where
  sums : List Nat
  peak60 : Nat
  gain : Nat
  pwrs : List Nat
  invalid : Bool
  echoUp : List Int
  echoDn : List Int
  capU : Nat
  capD : Nat
  resistive : Bool
  deriving DecidableEq, Repr

/-- What the sensors report at a strobe (R463 to R465): each axis after the decimator and after the high-pass and
low-pass of R464, whether a transfer failed its parity, and whether the die is above +85 °C. -/
structure StrobeIn where
  acc : Int × Int × Int
  accF : Int × Int × Int
  gyr : Int × Int × Int
  gyrF : Int × Int × Int
  accBad : Bool
  gyrBad : Bool
  hot : Bool
  deriving DecidableEq, Repr

/-- Who called a service (R126, R377): the core its registers are on, and the world and privilege it called from. -/
structure Caller where
  core : CoreId
  world : World
  sup : Bool
  deriving DecidableEq, Repr

/-- What a debug access asks (Table 17.7): to halt, resume or step a core, or a word of memory in a world. -/
inductive DebugOp where
  | halt
  | resume
  | step
  | read (w : World) (a : Nat)
  | write (w : World) (a : Nat) (v : BitVec 32)
  deriving DecidableEq, Repr

/-- The commands of the block: one constructor per row of the opcode table. -/
inductive Instr where
  /-- POWER_ON_RESET (R118): The VAO supervisor releases power-on reset: everything is reset, OTP is loaded and checked, and the straps start to be sampled. -/
  | powerOnReset (testEn : Bool)
  /-- ROLE_LATCH (R11): After 8 consecutive agreeing strap samples the role latches and ROLESTAT and ROLECAP are set. -/
  | roleLatch (r : Role)
  /-- STRAP_TIMEOUT (R11): No 8 samples agreed within 256 LF RC cycles, so the part latches Cell role and sets ROLESTAT.UNSTABLE. -/
  | strapTimeout (strapNow : BitVec 2)
  /-- BROWN_OUT_RESET (R71): The VMAIN or VCORE supervisor asserts a brown-out-scope reset and BODCNT counts it. -/
  | brownOutReset
  /-- PIN_RESET (R118): RST_N held low past its filter causes a reset of brown-out scope. -/
  | pinReset
  /-- WATCHDOG_EXPIRY (R135): The watchdog count runs out and the part resets with the watchdog kind. -/
  | watchdogExpiry
  /-- WDT_WARN (R135): With WARN set, the watchdog reaches half its period and raises the WDT interrupt source. -/
  | wdtWarn
  /-- LAST_RESORT_EXPIRY (R135): The last-resort watchdog runs out and the part resets with brown-out scope. -/
  | lastResortExpiry
  /-- CLOCK_FAIL_TIMER_EXPIRY (R113): The clock-fail timer expires before release, so the part resets with watchdog scope and the clock-failure kind. -/
  | clockFailTimerExpiry
  /-- RESET_VECTOR_ENTRY (R124): After a reset's internal hold Decani executes its first instruction at 0x0000_0000 on the HF RC and Rhoco boots through B5 to B9. -/
  | resetVectorEntry (regions : List (Nat × BitVec 32))
  /-- BOOT_GOOD (R134): 60 s after B9 without a reset Rhoco sets BOOTSTAT.GOOD, clears FAILS and raises version counters. -/
  | bootGood
  /-- RECOVER (R137): A RECOVER frame on the Lectern jack within 500 ms of B7 puts Rhoco into recovery. -/
  | recover
  /-- RECOVERY_TIMEOUT (R137): 120 s pass with no frame from the handheld, ending recovery with a software reset. -/
  | recoveryTimeout
  /-- SET_WALK (R21): The Chapter assigns a Crossing its walk number by ASSIGN and completes by the first applicable status. -/
  | setWalk (d : Desc) (uid n : Nat)
  /-- SET_WALK_TIMEOUT (R21): The Crossing has not confirmed within 8 superframes, so SET_WALK completes CELL_ABSENT. -/
  | setWalkTimeout
  /-- IDENTIFY (R238): Returns LINEADDR as RESULT and optionally ROLESTAT, ROLECAP, LINEADDR, UID and SYSID. -/
  | identify (d : Desc)
  /-- NOP (R246): Completes OK with RESULT 0. -/
  | nop (d : Desc)
  /-- CONTEST_TEST_END (R171): The up-to-1 ms contest test on WVS ends and drive either starts ramping or is refused as contested. -/
  | contestTestEnd (contested : Bool)
  /-- WALK_DRIVE_ON (R174): WVS reaches V_HIGH minus 1.0 V, STARTING clears and WDSTAT.ON sets. -/
  | walkDriveOn
  /-- WALK_STARTFAIL (R174): WVS has not reached its level within 100 ms of start-up, so drive turns off without retry. -/
  | walkStartfail
  /-- WALK_SHORT (R174): WVS stays below 10 V for 10 ms while limiting, so drive turns off and SHORT sets. -/
  | walkShort
  /-- HARDTRIP (R174): The sense voltage exceeds 1.0 V for 2 µs, so drive turns off and HARDTRIP sets. -/
  | hardtrip
  /-- WALK_RETRY (R174): 1 s after a turn-off with RETRY set the driver starts again, up to 3 times in 60 s. -/
  | walkRetry
  /-- WSUP_QUALIFIED (R167): WSUP holds at 23 V or more for 10 ms and becomes qualified. -/
  | wsupQualified
  /-- WSUP_LOST (R167): WSUP stays below 22 V for 100 µs, so drive goes off and WSUPLOW sets. -/
  | wsupLost
  /-- WSUP_OVERVOLTAGE (R167): WSUP above 44 V for 50 µs turns drive off and sets WSUPOV. -/
  | wsupOvervoltage
  /-- JABBER_CUT (R177): The attachment cuts a modulator enabled too long or a pulse held too long and may lock the transmitter out. -/
  | jabberCut (stuck : Bool)
  /-- POLCHG (R173): Line polarity changes after qualification; POLCHG sets and the line is lost and re-qualified. -/
  | polchg
  /-- RATE_CHANGE_APPLY (R171): A WDCTL.RATE change takes effect at the next idle bit boundary. -/
  | rateChangeApply
  /-- LECTERN_DETECT (R169): LJA below 0.3 V for 10 ms detects a handheld, sets PLUG and raises the LECTERN wake. -/
  | lecternDetect
  /-- LECTERN_REMOVE (R169): LJA above 0.9 V for 10 ms detects removal and ends any session or recovery. -/
  | lecternRemove
  /-- LJB_OVERVOLTAGE (R179): LJB above 8 V for 50 µs puts the jack receiver in high impedance and ends the session. -/
  | ljbOvervoltage
  /-- LJB_OV_CLEAR (R179): LJB below 6 V for 10 ms clears LJSTAT.OV. -/
  | ljbOvClear
  /-- WALK_POWER (R180): Writes EN, ILIM, RETRY and BABCUT for the named walk, forwarding to a Crossing if needed. -/
  | walkPower (d : Desc) (walk : Nat) (en : Bool) (ilim : Nat) (retry babcut : Bool)
  /-- WALK_QUERY (R180): Returns the walk drive registers. -/
  | walkQuery (d : Desc) (walk : Nat)
  /-- LINE_QUERY (R180): Returns LASTAT, LAFLAG, LACNT and PWRMON.VBRV. -/
  | lineQuery (d : Desc)
  /-- GPCFG_WRITE (R42): A write to GPCFGn configures a GP pad, stored under HOLD and applied when HOLD clears. -/
  | gpcfgWrite (w : World) (n : Fin 16) (v : Word)
  /-- VDDIO_LOW (R44): The VDDIO watch reports low: VIOLOW sets, D outputs and pulls turn off and PAD is raised. -/
  | vddioLow
  /-- VDDIO_GOOD (R44): The VDDIO watch reports good: VIOLOW clears, VIO18 updates and pads are restored. -/
  | vddioGood (below : Bool)
  /-- GP_OVERVOLTAGE (R45): A GP pad above VDDIO plus 0.5 V for 1 µs sets PADSTAT.OV and optionally raises PAD. -/
  | gpOvervoltage (n : Fin 16)
  /-- LINE_QUALIFIED (R66): VBR holds at 11 V or more for 10 ms and the line becomes a qualified source. -/
  | lineQualified
  /-- LINE_LOST (R67): VBR below 5 V for 200 µs loses the line; LINELOSS sets and GRANT becomes 0. -/
  | lineLost
  /-- LINE_OVERVOLTAGE (R66): VBR above 44 V for 50 µs stops the charger, draws 0 and sets OVLINE. -/
  | lineOvervoltage
  /-- LINE_OV_RECOVER (R66): VBR below 43 V for 10 ms after over-voltage restores the draw. -/
  | lineOvRecover
  /-- LOOP_QUALIFIED (R66): The loop terminal holds at 9.5 V or more for 10 ms and qualifies. -/
  | loopQualified
  /-- LOOP_LOST (R66): The loop node stays below 5 V for 200 µs and the loop is lost. -/
  | loopLost
  /-- CRES_QUALIFIED (R66): CRES holds at 6.0 V or more for 1 ms and qualifies. -/
  | cresQualified
  /-- CRES_LOST (R66): CRES falls below 4.5 V for 20 µs and is lost. -/
  | cresLost
  /-- CRESFAIL (R70): CRES has not qualified within 60 s of the line qualifying, so CRESFAIL sets. -/
  | cresfail
  /-- VAUX_QUALIFIED (R53): VAUX holds at 1.95 V or more for 1 ms and qualifies. -/
  | vauxQualified
  /-- VAUX_LOST (R66): VAUX stays below 1.85 V for 5 µs and is lost. -/
  | vauxLost
  /-- VBAK_QUALIFIED (R66): VBAK holds at 1.75 V or more for 1 ms and qualifies. -/
  | vbakQualified
  /-- VBAK_LOST (R66): VBAK stays below 1.70 V for 100 µs and is lost. -/
  | vbakLost
  /-- BAKLOW (R66): A qualified VBAK stays below 2.0 V for 1 s and BAKLOW sets. -/
  | baklow
  /-- SOURCE_SWITCH (R67): A higher-priority source qualifies and, no sooner than 1 ms after the last switch, VMAIN switches to it. -/
  | sourceSwitch
  /-- GRANT_APPLY (R68): A new GRANT is applied and the draw ramps over 100 µs, at the end of the own uplink frame if one is on the line. -/
  | grantApply
  /-- SHED_STEP (R69): CRES stays below 6 V for 1 ms while the line is selected, so one shed step is taken each further 1 ms. -/
  | shedStep
  /-- VMAIN_WARNING (R65): VMAIN falls below 2.80 V for 5 µs and PWRFLAG.BOW sets. -/
  | vmainWarning
  /-- VDDA_LOW (R65): VDDA falls below 1.70 V for 10 µs and VDDALOW sets. -/
  | vddaLow
  /-- PWRMON_REFRESH (R72): PWRMON is refreshed every 10 ms in RUN and DOZE. -/
  | pwrmonRefresh (cres vbak vbr : BitVec 8) (vcoreOk vddaOk : Bool)
  /-- PWR_QUERY (R73): Returns the power entry registers. -/
  | pwrQuery (d : Desc)
  /-- PWR_BACKUP (R73): Writes BAKALLOW and BAKCHG after checking the arguments. -/
  | pwrBackup (d : Desc)
  /-- WAIT (R82): Decani's WAIT retires and the part aborts, enters DOZE, refuses, defers or enters the target sleep state. -/
  | wait (i : Issue)
  /-- DEFERRED_ENTRY_START (R82): No claimed block is active any longer, so a deferred sleep entry starts its sequence. -/
  | deferredEntryStart
  /-- ALARM_ARM (R80): A write to WAKEALMnH with ARM arms alarm n, setting LATE if the time is past. -/
  | alarmArm (w : World) (n : Fin 3) (hi : BitVec 16)
  /-- ALARM_FIRE (R80): An armed alarm's time is no longer future at an RTC tick; WAKESRC.ALMn sets and ARM clears. -/
  | alarmFire (n : Fin 3)
  /-- GP_WAKE_EDGE (R79): A filtered edge on GP0 to GP3 selected by WAKECFG sets its GPW wake source. -/
  | gpWakeEdge (n : Fin 4) (rising : Bool)
  /-- SLEEP (R83): Sets the target state, MWATCH and an optional ALM0 offset; Rhoco sleeps once idle. -/
  | sleep (d : Desc) (target : BitVec 3) (mwatch : Bool) (offset : Option Nat)
  /-- SLEEP_POLICY (R83): Sets and stores the deepest idle state and WAKEEN. -/
  | sleepPolicy (d : Desc) (deepest : BitVec 3) (wakeen : Word)
  /-- WAKE_QUERY (R83): Returns the sleep and wake registers and alarms. -/
  | wakeQuery (d : Desc)
  /-- CRYSTAL_READY (R98): The crystal start counter completes, XTALOK sets and line time leaves holdover. -/
  | crystalReady
  /-- CRYSTAL_START_TIMEOUT (R98): The crystal is not ready within 2 s of power-on; XTALF sets and the safe state is forced. -/
  | crystalStartTimeout
  /-- HFRC_READY (R97): The HF RC completes 32 cycles and is judged ready. -/
  | hfrcReady
  /-- PLL_LOCK (R99): The Spire PLL completes 64 crystal cycles after PLLEN and PLLLOCK sets, releasing a held Spire selection. -/
  | pllLock
  /-- PLL_ENABLE (R99): Setting CLKCTL.PLLEN starts the Spire PLL, or is refused while the crystal is not ready. -/
  | pllEnable (w : World)
  /-- PLL_DISABLE (R104): Clearing PLLEN stops the PLL unless the Spire is in use or selected. -/
  | pllDisable (w : World)
  /-- HFRC_ENABLE (R104): Setting CLKCTL.HFEN starts the HF RC. -/
  | hfrcEnable (w : World)
  /-- HFRC_DISABLE (R104): Clearing HFEN stops the HF RC unless it is in use or selected. -/
  | hfrcDisable (w : World)
  /-- CLKSEL_WRITE (R104): A CLKSEL write changes the root group source or core divider by stop, switch and restart, or is refused or held. -/
  | clkselWrite (w : World) (v : Word)
  /-- CLKSEL_HELD_APPLY (R110): A held CLKSEL write is applied when the root group restarts after a switch, fallback or slice. -/
  | clkselHeldApply
  /-- CALIBRATION_WINDOW_END (R106): A window of 65,536 LF RC cycles completes with the crystal ready and CLKRCCAL is updated. -/
  | calibrationWindowEnd (count : BitVec 18) (whole : Bool)
  /-- CRYSTAL_FAIL (R111): The crystal monitor judges the crystal failed; XTALF sets, holdover starts and the safe state is forced. -/
  | crystalFail (missed : Nat)
  /-- PLL_FAIL (R109): The Spire monitor judges the PLL failed; the root group falls back and the safe state is forced if in use. -/
  | pllFail
  /-- HFRC_FAIL (R111): The HF RC monitor judges the HF RC failed; HFF sets and the safe state is forced if it is the root. -/
  | hfrcFail
  /-- LFRC_FAIL (R111): The LF RC is judged failed and LFRCF sets. -/
  | lfrcFail
  /-- CLKSAFE_RELEASE (R113): A write of CLKSAFE.RELEASE with a monitored root source lifts the safe state and stops the timer. -/
  | clksafeRelease (w : World)
  /-- RTC_SET_GO (R107): A Sacristy write of RTCSETH.GO makes a set of the line-time count pending, or is refused while TRACK is 1. -/
  | rtcSetGo (w : World) (hi : BitVec 16)
  /-- RTC_SET_APPLY (R107): At the next tick a pending set loads the count, or is refused if TRACK is then 1. -/
  | rtcSetApply
  /-- CLK_QUERY (R116): Returns CLKSTAT, CLKFLAG and CLKRCCAL. -/
  | clkQuery (d : Desc)
  /-- SYSRST_GO (R139): A SYSRST write with GO and the key resets the part with the software or line-command kind. -/
  | sysrstGo (w : World) (linecmd : Bool)
  /-- WDTCFG_WRITE (R135): A write changing WDTCFG.PERIOD reloads the watchdog count, or stops it at 0, unless locked. -/
  | wdtcfgWrite (w : World) (v : Word)
  /-- WDTKICK (R135): 0x0000_C0DE reloads the watchdog; any other value resets the part at once. -/
  | wdtkick (w : World) (v : Word)
  /-- LRWDKICK (R135): A Sacristy write of 0x0000_5A5A reloads the last-resort watchdog. -/
  | lrwdkick (w : World) (v : Word)
  /-- RHO_INFO (R126): Rhoco service returning its version and SYSID. -/
  | rhoInfo (c : Caller)
  /-- MRAM_WRITE (R126): Rhoco service writing bytes to MRAM where the caller may write. -/
  | mramWrite (c : Caller)
  /-- LOG_APPEND (R126): Rhoco service appending a record to a log and returning its sequence number. -/
  | logAppend (c : Caller)
  /-- TIME_NOW (R126): Rhoco service returning line time and fraction. -/
  | timeNow (c : Caller)
  /-- ALARM_AT (R126): Rhoco service arming ALM0 and returning LATE. -/
  | alarmAt (c : Caller)
  /-- SLEEP_SERVICE (R126): Rhoco service that sleeps with the given PWRCTL value and returns after the wake. -/
  | sleepService (c : Caller)
  /-- TOKENS (R126): Rhoco service requesting tokens from the walk and returning GRANT. -/
  | tokens (c : Caller)
  /-- EVENT_POST (R126): Rhoco service sending an office-built 16-byte event record. -/
  | eventPost (c : Caller)
  /-- OFFICE_CTL_START (R276): OFFICE_CTL action 0 starts the office in a slot. -/
  | officeCtlStart (c : Caller) (regions : List (Nat × Word))
  /-- OFFICE_CTL_STOP (R276): OFFICE_CTL action 1 stops the running office. -/
  | officeCtlStop (c : Caller)
  /-- OFFICE_CTL_QUERY (R276): OFFICE_CTL action 2 returns OFFSTAT, CANTSTAT and CANTFAULT.PC. -/
  | officeCtlQuery (c : Caller)
  /-- OFFICE_CTL_DONE (R275): OFFICE_CTL action 3 sends the office's completion entry for the pending office descriptor. -/
  | officeCtlDone (c : Caller)
  /-- RESET_SERVICE (R126): Rhoco service 0x09 resets the part with the software kind. -/
  | resetService (c : Caller)
  /-- RESET (R131): Completes earlier descriptors, sends its completion, then resets with the line-command kind. -/
  | reset (d : Desc)
  /-- BOOT_QUERY (R131): Returns RSTCAUSE, BOOTSTAT, BODCNT, SYSID and the active VERSION. -/
  | bootQuery (d : Desc)
  /-- IMAGE_LOAD (R571): Writes a chunk of 1 to 32 bytes into a named image slot. -/
  | imageLoad (d : Desc)
  /-- IMAGE_COMMIT (R129): Runs the image checks on a slot and marks it for the next boot on success. -/
  | imageCommit (d : Desc)
  /-- CFG_WRITE (R132): Writes a chunk into the staging copy of the configuration record, starting staging if needed. -/
  | cfgWrite (d : Desc)
  /-- CFG_COMMIT (R132): With ARGS[0] 0, digests and commits the staging copy, or completes DENIED for a claimed block. -/
  | cfgCommit (d : Desc)
  /-- CFG_ABANDON (R132): CFG_COMMIT with ARGS[0] 1 abandons the staging copy. -/
  | cfgAbandon (d : Desc)
  /-- CFG_STAGING_TIMEOUT (R132): A staging copy idle for 60 s is abandoned. -/
  | cfgStagingTimeout
  /-- RHOCO_CFG_UPDATE (R132): A configuration change of Rhoco's own, held while staging ran, is written as a fresh update once staging ends. -/
  | rhocoCfgUpdate
  /-- QUARANTINE_END (R148): Two whole superframes after an absence, quarantined tokens become FREE or pay off DEFICIT. -/
  | quarantineEnd
  /-- BOOKS_QUERY (R158): Returns a walk's token book or a ring's credit book, with TAGSTAT and BOOKFLAG. -/
  | booksQuery (d : Desc) (q : BookTarget)
  /-- PARSTAT_CLR (R157): Writing PARSTAT.CLR sets CNT to 0 and re-arms PARADDR. -/
  | parstatClr
  /-- SUPERFRAME_START (R186): At each whole second of line time the driver sends its beacon and then downlink frames oldest first. -/
  | superframeStart (m : WalkMon)
  /-- ATTENTION_SWEEP (R187): The sweep elements are read, answers owed are checked and the GRANT frame is built. -/
  | attentionSweep (pulses : List (Nat × Bool))
  /-- UPLINK_SLOT (R188): A sender granted a slot sends one frame starting at the slot boundary. -/
  | uplinkSlot (p : Port) (index : Nat) (valid : Bool)
  /-- BEACON (R194): A received beacon corrects line time, updates SYNC and schedule and applies steps and rate changes. -/
  | beacon (f : Frame) (rx : LineRx) (phase rate : BitVec 16)
  /-- GRANT (R188): A received GRANT frame lays out the uplink slots. -/
  | grant (f : Frame) (rx : LineRx)
  /-- DESC (R189): A DESC frame is accepted in SEQ order, acknowledged and run, or relayed by a Crossing. -/
  | desc (f : Frame) (rx : LineRx) (poison : Bool)
  /-- ACKF (R189): An ACKF frame acknowledges frames and carries window and token fields. -/
  | ackf (p : Port) (f : Frame) (rx : LineRx)
  /-- COMPL (R236): A COMPL frame's completion is written to the host, the tag released and the credit settled. -/
  | compl (f : Frame)
  /-- EVENT_FRAME (R239): An EVENT frame's record is written to the target's Event ring or held unacknowledged. -/
  | eventFrame (f : Frame)
  /-- STREAM_FRAME (R240): A STREAM frame's bytes fill the oldest incomplete stream or result buffer. -/
  | streamFrame (f : Frame)
  /-- PROBE (R192): A PROBE frame makes matching newcomers pulse their next nibble in the answer window. -/
  | probe (f : Frame) (rx : LineRx)
  /-- PROBE_WINDOW_END (R192): The probe answer window closes and the driver continues its depth-first search or assigns. -/
  | probeWindowEnd (answers xing : BitVec 16)
  /-- ASSIGN (R193): An ASSIGN frame gives a newcomer its address, rejoins a Cell, clears a position or assigns a Crossing's walk. -/
  | assign (f : Frame) (rx : LineRx)
  /-- JOIN (R193): A JOIN accepted by the driver enrols the sender, which is then acknowledged and ranged. -/
  | join (f : Frame)
  /-- RANGE (R195): A RANGE frame is answered by a pulse 64 bit times after its epoch edge and the driver measures the round trip. -/
  | range (q : RangeIn)
  /-- TIME_FRAME (R195): A TIME frame delivers PROP, which the sender stores in LPPROP and MRAM. -/
  | timeFrame (f : Frame) (rx : LineRx)
  /-- REPORT (R572): A REPORT frame's records are posted, declare absences or complete BOOKS_QUERY. -/
  | report (f : Frame)
  /-- RESEND_TIMEOUT (R189): A frame unacknowledged for 4 or 6 superframes is resent. -/
  | resendTimeout (p : Port)
  /-- ROLL_CALL (R192): Starts roll call on a named walk. -/
  | rollCall (d : Desc) (walk : Nat)
  /-- ADDR_ASSIGN (R193): Binds a unique ID to a position for the next assignment. -/
  | addrAssign (d : Desc) (uid addr : Nat)
  /-- ADDR_RELEASE (R213): Sends CLEAR to the Cell and removes its table entry. -/
  | addrRelease (d : Desc) (addr : Nat)
  /-- LINE_SETUP (R199): Sets the rate, SWOFS and SYSTEM for a walk, announcing a rate change over 4 beacons. -/
  | lineSetup (d : Desc) (walk rate sw system : Nat)
  /-- LINE_RANGE (R195): Re-ranges a named Cell. -/
  | lineRange (d : Desc) (addr : Nat)
  /-- TIME_SET (R197): Names a future superframe start at which line time steps, or sets the RTC over a Lectern session. -/
  | timeSet (d : Desc) (told tnew : Nat)
  /-- TIME_QUERY (R213): Returns line time, LPSTAT, LPPROP and LPTERR. -/
  | timeQuery (d : Desc)
  /-- BEACON_MISS (R204): No valid beacon for 3 superframes sets GRANT to 0 and BMISS. -/
  | beaconMiss
  /-- LECTERN_FRAME (R202): A frame from the handheld is answered in a window 64 bit times after its CRC. -/
  | lecternFrame (f : Frame)
  /-- CONFIG_REQUEST (R216): A configuration request completes, or gets Retry Status while CFGRDY is 0. -/
  | configRequest (q : CfgReq)
  /-- BAR0_ACCESS (R217): A host read or write of BAR0 acts on the host link block, Scriptorium setup or MSI-X structures. -/
  | bar0Access (off len : Nat) (data : Option (List Byte))
  /-- DOORBELL (R241): A 16-byte slot write in BAR2 is checked and its OP carried out, or discarded. -/
  | doorbell (off : Nat) (data : List Byte) (ctx : Option (List Byte))
  /-- DESCRIPTOR_FETCH (R244): A lane's fetch read returns and the descriptor is bound to a tag and sent or handed to Rhoco. -/
  | descriptorFetch (n : Nat) (bytes : Option (List Byte))
  /-- STREAM_BUF (R240): Posts a stream buffer to a Stream ring. -/
  | streamBuf (d : Desc)
  /-- STREAM_FLUSH (R240): FLUSH superframes pass with a partly filled buffer and no byte added, so it completes. -/
  | streamFlush (n : Nat)
  /-- LANE_FENCE (R251): A lane is fenced; descriptors are replayed or completed LANE_LOST and rings are rebound. -/
  | laneFence (k : Fin 8) (selfTest : Bool)
  /-- MSIX_RELEASE (R219): A vector with its pending bit set becomes deliverable and one message is sent. -/
  | msixRelease (v : Fin 64)
  /-- PERST (R222): PERST_N low past its filter is a host-link reset. -/
  | perst
  /-- HOT_RESET (R222): A hot reset is a host-link reset. -/
  | hotReset
  /-- FUNCTION_LEVEL_RESET (R222): A Function Level Reset is a host-link reset. -/
  | functionLevelReset
  /-- DL_DOWN (R222): The link leaves DL_Active; a host-link reset discards held work and marks sent descriptors stale. -/
  | dlDown
  /-- REFCLK_LOSS (R227): PHY PLL lock lost for 2 µs sets REFLOST and takes the link down. -/
  | refclkLoss
  /-- VPHY_LOST (R228): VPHY below 0.90 V for 5 µs holds the PHY in reset and takes the link down. -/
  | vphyLost
  /-- LINK_UP (R229): Link training reaches L0 and LINKUP sets. -/
  | linkUp (gen2 : Bool)
  /-- TRAINFAIL (R229): The link has not reached L0 within 1 s with REFCLK locked, so TRAINFAIL sets. -/
  | trainfail
  /-- D3HOT_ENTRY (R220): The function enters D3hot and the Scriptorium stops fetching and writing. -/
  | d3hotEntry
  /-- PME_TURN_OFF (R220): PME_Turn_Off takes the link to L2/L3 Ready and PWAKE_N signals PME. -/
  | pmeTurnOff
  /-- WINDOW_READ_DONE (R221): A core read through the host window completes with data or fails with a bus error and WINERR. -/
  | windowReadDone (data : Option (List Byte))
  /-- INTERRUPT_ENTRY (R265): An enabled source able to pre-empt is taken at an instruction boundary with a trap frame. -/
  | interruptEntry (c : CoreId) (fill : Option Nat)
  /-- INTSET (R263): Writing INTSET sets the software latch of sources. -/
  | intset (c : CoreId) (w : World) (k : Nat) (v : Word)
  /-- INTCLR (R263): Writing INTCLR clears the software latch of sources. -/
  | intclr (c : CoreId) (w : World) (k : Nat) (v : Word)
  /-- INTROUTE_APPLY (R278): A held INTROUTE change acts once the source is neither active nor pending. -/
  | introuteApply (n : Nat)
  /-- GBITS_WRITE (R278): A change of GBITS or a level recomputes the running group at once. -/
  | gbitsWrite (c : CoreId) (w : World) (pri : Option Nat) (v : Word)
  /-- CANTORIS_POWER_ON (R271): Setting CANTCTL.PWR powers Cantoris into POWERING. -/
  | cantorisPowerOn (w : World)
  /-- CANTORIS_POWERED (R271): POWERING ends after about 20 µs and Cantoris is STOPPED. -/
  | cantorisPowered
  /-- CANTORIS_RUN (R272): Setting CANTCTL.RUN is a start costing 3 tokens and starts or resumes Cantoris. -/
  | cantorisRun (w : World)
  /-- CANTORIS_STOP (R271): Clearing RUN stops Cantoris at its next instruction boundary. -/
  | cantorisStop (w : World)
  /-- CANTORIS_POWER_OFF (R271): Clearing PWR stops Cantoris, cleans its data cache and removes power. -/
  | cantorisPowerOff (w : World)
  /-- CANTXCTL_DONE (R274): Writing DONE returns results to Cantoris, which continues after its SVC. -/
  | cantxctlDone (w : World)
  /-- OFFTMO_EXPIRY (R275): The office does not answer within OFFTMO, so the descriptor completes BUSY and TIMEOUT sets. -/
  | offtmoExpiry
  /-- OFFICE_START (R273): Checks, copies and starts an office on Cantoris. -/
  | officeStart (d : Desc) (regions : List (Nat × Word))
  /-- OFFICE_STOP (R273): Stops the running office and returns its tokens. -/
  | officeStop (d : Desc)
  /-- OFFICE_QUERY (R277): Returns OFFSTAT and optionally CANTSTAT and CANTFAULT.PC. -/
  | officeQuery (d : Desc)
  /-- CORE_QUERY (R277): Returns FEAT0 to FEAT3. -/
  | coreQuery (d : Desc)
  /-- ADD (R285): wd = ws + wt. -/
  | add (i : Issue) (wd ws wt : Reg)
  /-- SUB (R285): wd = ws − wt. -/
  | sub (i : Issue) (wd ws wt : Reg)
  /-- AND (R285): wd = ws AND wt. -/
  | and (i : Issue) (wd ws wt : Reg)
  /-- OR (R285): wd = ws OR wt. -/
  | or (i : Issue) (wd ws wt : Reg)
  /-- XOR (R285): wd = ws XOR wt. -/
  | xor (i : Issue) (wd ws wt : Reg)
  /-- SLL (R285): Shift left by wt[4:0]. -/
  | sll (i : Issue) (wd ws wt : Reg)
  /-- SRL (R285): Logical shift right by wt[4:0]. -/
  | srl (i : Issue) (wd ws wt : Reg)
  /-- SRA (R285): Arithmetic shift right by wt[4:0]. -/
  | sra (i : Issue) (wd ws wt : Reg)
  /-- SLLI (R285): Shift left by SH. -/
  | slli (i : Issue) (wd ws : Reg) (sh : Fin 32)
  /-- SRLI (R285): Logical shift right by SH. -/
  | srli (i : Issue) (wd ws : Reg) (sh : Fin 32)
  /-- SRAI (R285): Arithmetic shift right by SH. -/
  | srai (i : Issue) (wd ws : Reg) (sh : Fin 32)
  /-- RORI (R285): Rotate right by SH. -/
  | rori (i : Issue) (wd ws : Reg) (sh : Fin 32)
  /-- CMPLT (R285): Signed less-than compare into wd. -/
  | cmplt (i : Issue) (wd ws wt : Reg)
  /-- CMPLTU (R285): Unsigned less-than compare into wd. -/
  | cmpltu (i : Issue) (wd ws wt : Reg)
  /-- MIN (R285): Signed minimum. -/
  | min (i : Issue) (wd ws wt : Reg)
  /-- MAX (R285): Signed maximum. -/
  | max (i : Issue) (wd ws wt : Reg)
  /-- MINU (R285): Unsigned minimum. -/
  | minu (i : Issue) (wd ws wt : Reg)
  /-- MAXU (R285): Unsigned maximum. -/
  | maxu (i : Issue) (wd ws wt : Reg)
  /-- ABS (R285): Absolute value, saturating and setting SAT. -/
  | abs (i : Issue) (wd ws : Reg)
  /-- CLZ (R285): Count leading zeros. -/
  | clz (i : Issue) (wd ws : Reg)
  /-- REV (R285): Reverse the bytes of ws. -/
  | rev (i : Issue) (wd ws : Reg)
  /-- ADDS (R285): Signed saturating add, setting SAT. -/
  | adds (i : Issue) (wd ws wt : Reg)
  /-- SUBS (R285): Signed saturating subtract, setting SAT. -/
  | subs (i : Issue) (wd ws wt : Reg)
  /-- ADDI (R285): Add a sign-extended immediate. -/
  | addi (i : Issue) (wd ws : Reg) (imm : BitVec 18)
  /-- ANDI (R285): AND with a sign-extended immediate. -/
  | andi (i : Issue) (wd ws : Reg) (imm : BitVec 18)
  /-- ORI (R285): OR with a sign-extended immediate. -/
  | ori (i : Issue) (wd ws : Reg) (imm : BitVec 18)
  /-- XORI (R285): XOR with a sign-extended immediate. -/
  | xori (i : Issue) (wd ws : Reg) (imm : BitVec 18)
  /-- CMPLTI (R285): Signed compare with an immediate. -/
  | cmplti (i : Issue) (wd ws : Reg) (imm : BitVec 18)
  /-- CMPLTIU (R285): Unsigned compare with an immediate. -/
  | cmpltiu (i : Issue) (wd ws : Reg) (imm : BitVec 18)
  /-- LDHI (R285): Load imm21 shifted left by 11. -/
  | ldhi (i : Issue) (wd : Reg) (imm : BitVec 21)
  /-- LDI (R285): Load a sign-extended imm21. -/
  | ldi (i : Issue) (wd : Reg) (imm : BitVec 21)
  /-- LAPC (R285): wd = PC plus imm21 shifted left by 11. -/
  | lapc (i : Issue) (wd : Reg) (imm : BitVec 21)
  /-- MUL (R287): Signed 64-bit product into MHI:MLO, landing after 3 cycles. -/
  | mul (i : Issue) (ws wt : Reg)
  /-- MULU (R287): Unsigned 64-bit product into MHI:MLO. -/
  | mulu (i : Issue) (ws wt : Reg)
  /-- MACS (R288): Accumulate a 16-bit product into ACCn. -/
  | macs (i : Issue) (n : Fin 2) (ws wt : Reg)
  /-- MACD (R288): Accumulate two 16-bit products into ACCn. -/
  | macd (i : Issue) (n : Fin 2) (ws wt : Reg)
  /-- MSUBS (R288): Subtract a 16-bit product from ACCn. -/
  | msubs (i : Issue) (n : Fin 2) (ws wt : Reg)
  /-- MSUBD (R288): Subtract two 16-bit products from ACCn. -/
  | msubd (i : Issue) (n : Fin 2) (ws wt : Reg)
  /-- ACCCLR (R285): Clear ACCn. -/
  | accclr (i : Issue) (n : Fin 2)
  /-- WRACC (R285): Write ACCn from ws sign-extended. -/
  | wracc (i : Issue) (n : Fin 2) (ws : Reg)
  /-- RDACC (R287): Read ACCn rounded, shifted and saturated into wd. -/
  | rdacc (i : Issue) (wd : Reg) (n : Fin 2) (sh : Fin 32)
  /-- DIVS (R291): Signed divide in 16 cycles, never trapping. -/
  | divs (i : Issue) (wd ws wt : Reg)
  /-- DIVU (R291): Unsigned divide. -/
  | divu (i : Issue) (wd ws wt : Reg)
  /-- REMS (R291): Signed remainder. -/
  | rems (i : Issue) (wd ws wt : Reg)
  /-- REMU (R291): Unsigned remainder. -/
  | remu (i : Issue) (wd ws wt : Reg)
  /-- LDB (R285): Load a sign-extended byte. -/
  | ldb (i : Issue) (wd ws : Reg) (imm : BitVec 18)
  /-- LDBU (R285): Load a zero-extended byte. -/
  | ldbu (i : Issue) (wd ws : Reg) (imm : BitVec 18)
  /-- LDH (R285): Load a sign-extended halfword. -/
  | ldh (i : Issue) (wd ws : Reg) (imm : BitVec 18)
  /-- LDHU (R285): Load a zero-extended halfword. -/
  | ldhu (i : Issue) (wd ws : Reg) (imm : BitVec 18)
  /-- LDW (R285): Load a word. -/
  | ldw (i : Issue) (wd ws : Reg) (imm : BitVec 18)
  /-- STB (R358): Store a byte, buffered or unbuffered by memory type. -/
  | stb (i : Issue) (wt ws : Reg) (imm : BitVec 18)
  /-- STH (R358): Store a halfword. -/
  | sth (i : Issue) (wt ws : Reg) (imm : BitVec 18)
  /-- STW (R358): Store a word. -/
  | stw (i : Issue) (wt ws : Reg) (imm : BitVec 18)
  /-- LDWP (R285): Load a word and post-increment the base. -/
  | ldwp (i : Issue) (wd ws : Reg) (imm : BitVec 18)
  /-- STWP (R285): Store a word and post-increment the base. -/
  | stwp (i : Issue) (wt ws : Reg) (imm : BitVec 18)
  /-- LDX (R301): Load a word and reserve its line. -/
  | ldx (i : Issue) (wd ws : Reg)
  /-- STX (R361): Store if the reservation holds and report success. -/
  | stx (i : Issue) (wd wt ws : Reg)
  /-- PUSHM (R285): Store the masked registers below w14 and lower w14. -/
  | pushm (i : Issue) (mask : BitVec 16)
  /-- POPM (R285): Load the masked registers from w14 and raise w14. -/
  | popm (i : Issue) (mask : BitVec 16)
  /-- BEQ (R285): Branch if equal. -/
  | beq (i : Issue) (ws wt : Reg) (off : BitVec 15)
  /-- BNE (R285): Branch if not equal. -/
  | bne (i : Issue) (ws wt : Reg) (off : BitVec 15)
  /-- BLT (R285): Branch if signed less. -/
  | blt (i : Issue) (ws wt : Reg) (off : BitVec 15)
  /-- BGE (R285): Branch if signed greater or equal. -/
  | bge (i : Issue) (ws wt : Reg) (off : BitVec 15)
  /-- BLTU (R285): Branch if unsigned less. -/
  | bltu (i : Issue) (ws wt : Reg) (off : BitVec 15)
  /-- BGEU (R285): Branch if unsigned greater or equal. -/
  | bgeu (i : Issue) (ws wt : Reg) (off : BitVec 15)
  /-- BEQZ (R285): Branch if ws is zero. -/
  | beqz (i : Issue) (ws : Reg) (off : BitVec 15)
  /-- BNEZ (R285): Branch if ws is not zero. -/
  | bnez (i : Issue) (ws : Reg) (off : BitVec 15)
  /-- CALL (R285): PC-relative call with link. -/
  | call (i : Issue) (wd : Reg) (off : BitVec 21)
  /-- JMP (R285): PC-relative jump. -/
  | jmp (i : Issue) (off : BitVec 21)
  /-- CALLR (R285): Register call with link. -/
  | callr (i : Issue) (wd ws : Reg) (imm : BitVec 17)
  /-- JMPR (R285): Register jump. -/
  | jmpr (i : Issue) (ws : Reg) (imm : BitVec 17)
  /-- LOOP (R294): Set up a hardware loop level with a register count. -/
  | loop (i : Issue) (n : Fin 3) (ws : Reg) (end9 : BitVec 9)
  /-- LOOPI (R294): Set up a hardware loop level with an immediate count. -/
  | loopi (i : Issue) (n : Fin 3) (cnt : BitVec 8) (end9 : BitVec 9)
  /-- SVC (R126): Service call trap to Rhoco with the number in the immediate. -/
  | svc (i : Issue) (imm : BitVec 8)
  /-- BREAK (R280): Breakpoint: halts for an admitted debugger or takes the BREAK trap. -/
  | brk (i : Issue) (imm : BitVec 8)
  /-- WCALL (R377): World call into the Sacristy with a service number. -/
  | wcall (i : Issue) (imm : BitVec 8)
  /-- RETT (R262): Return from trap, restoring the frame and deactivating the source. -/
  | rett (i : Issue)
  /-- MFS (R292): Read a special register. -/
  | mfs (i : Issue) (wd : Reg) (n : BitVec 8)
  /-- MTS (R292): Write a special register. -/
  | mts (i : Issue) (n : BitVec 8) (ws : Reg)
  /-- LCLR (R285): Clear hardware loop levels. -/
  | lclr (i : Issue) (mask : BitVec 8)
  /-- FENCE (R360): Hold later accesses until earlier stores are visible and loads complete. -/
  | fence (i : Issue)
  /-- ISYNC (R300): Invalidate the instruction cache and refetch. -/
  | isync (i : Issue)
  /-- ICINV (R300): Invalidate one instruction-cache line. -/
  | icinv (i : Issue) (ws : Reg)
  /-- DCCLEAN (R360): Write back a data-cache line if dirty. -/
  | dcclean (i : Issue) (ws : Reg)
  /-- DCCINV (R360): Write back and invalidate a data-cache line. -/
  | dccinv (i : Issue) (ws : Reg)
  /-- EMULATE (R303): A reserved encoding raises the EMULATE trap without acting. -/
  | emulate (i : Issue) (word : Word)
  /-- STORE_DRAIN (R358): A buffered store drains in order, taking line ownership and being checked by the guard. -/
  | storeDrain (c : CoreId)
  /-- TLD (R311): Load a tile from memory. -/
  | tld (i : Issue) (t : Fin 8) (ws wt : Reg) (pack : Bool) (r c : Fin 16) (fmt : Fin 3) (pi : Bool)
  /-- TST (R311): Store a tile to memory. -/
  | tst (i : Issue) (t : Fin 8) (ws wt : Reg) (pack : Bool) (r c : Fin 16) (fmt : Fin 3) (pi : Bool)
  /-- TSAVE (R317): Save the header and live tiles. -/
  | tsave (i : Issue) (ws : Reg) (pi : Bool)
  /-- TRESTORE (R317): Restore tiles from a save area. -/
  | trestore (i : Issue) (ws : Reg) (pi : Bool)
  /-- TZERO (R312): Zero a tile. -/
  | tzero (i : Issue) (td : Fin 8) (r c : Fin 16) (fmt : Fin 3)
  /-- TMOV (R312): Copy a tile. -/
  | tmov (i : Issue) (td ta : Fin 8) (r c : Fin 16) (fmt : Fin 3)
  /-- TADD (R313): Elementwise saturating add. -/
  | tadd (i : Issue) (td ta tb : Fin 8) (r c : Fin 16) (fmt : Fin 3)
  /-- TSUB (R313): Elementwise saturating subtract. -/
  | tsub (i : Issue) (td ta tb : Fin 8) (r c : Fin 16) (fmt : Fin 3)
  /-- TMUL (R313): Elementwise saturating multiply. -/
  | tmul (i : Issue) (td ta tb : Fin 8) (r c : Fin 16) (fmt : Fin 3)
  /-- TMIN (R312): Elementwise minimum. -/
  | tmin (i : Issue) (td ta tb : Fin 8) (r c : Fin 16) (fmt : Fin 3)
  /-- TMAX (R312): Elementwise maximum. -/
  | tmax (i : Issue) (td ta tb : Fin 8) (r c : Fin 16) (fmt : Fin 3)
  /-- TABS (R312): Elementwise saturating absolute value. -/
  | tabs (i : Issue) (td ta : Fin 8) (r c : Fin 16) (fmt : Fin 3)
  /-- TSRA (R312): Elementwise rounding shift right. -/
  | tsra (i : Issue) (td ta tb : Fin 8) (r c : Fin 16) (fmt : Fin 3)
  /-- TTRN (R312): Transpose a tile. -/
  | ttrn (i : Issue) (td ta : Fin 8) (r c : Fin 16) (fmt : Fin 3)
  /-- TXC (R314): Correlate a template with data into 32-bit results. -/
  | txc (i : Issue) (td : Fin 8) (tp : Fin 4) (tb : Fin 8) (ws : Reg) (r c : Fin 16)
  /-- TFIR (R314): Correlate into 16-bit filter results. -/
  | tfir (i : Issue) (td : Fin 8) (tp : Fin 4) (tb : Fin 8) (ws : Reg) (r c : Fin 16)
  /-- TREL (R316): Release tiles, making them dead. -/
  | trel (i : Issue) (mask : BitVec 8)
  /-- READ_SHARED (R354): Home node serves a load miss, snooping other holders. -/
  | readShared (c : CoreId) (a : Nat)
  /-- READ_UNIQUE (R354): Home node serves a store miss, invalidating other holders. -/
  | readUnique (c : CoreId) (a : Nat)
  /-- UPGRADE (R356): Home node grants ownership of a shared line, or converts to ReadUnique. -/
  | upgrade (c : CoreId) (a : Nat)
  /-- MAKE_UNIQUE (R354): Home node grants a full-line write without data. -/
  | makeUnique (line : Fin 512) (data : List Byte)
  /-- READ_ONCE (R354): Home node serves an instruction fill or agent-3 read. -/
  | readOnce (by_ : Option CoreId) (a : Nat)
  /-- WRITE_UNIQUE (R354): Home node performs an MRAM store or agent-3 write, invalidating others. -/
  | writeUnique (by_ : Option CoreId) (a : Nat) (v : Word)
  /-- WRITE_BACK (R354): A dirty line is written back to its home. -/
  | writeBack (agent : Fin 3) (a : Nat)
  /-- GUARD_WRITE (R367): A guard register write drains earlier stores and then governs later accesses. -/
  | guardWrite (c : CoreId) (w : World) (cantPage : Bool) (o : Nat) (v : Word)
  /-- MRAM_WRITE_DONE (R330): An MRAM word write cycle ends, freeing its half for the next store or read. -/
  | mramWriteDone (h : Fin 2)
  /-- MRAM_POWER_DOWN (R330): A half idle for 256 bus cycles powers its macro down. -/
  | mramPowerDown (h : Fin 2)
  /-- MRSEG_WRITE (R353): A write to MRSEGSAC or MRSEGNRO invalidates every cached MRAM line. -/
  | mrsegWrite (w : World) (nro : Bool) (v : Word)
  /-- MRERRADDR_CLEAR (R349): A write to MRERRADDR clears and re-arms it. -/
  | mrerraddrClear (w : World)
  /-- WINDOW_ENABLE (R347): Setting SBWnCFG.EN empties and enables a window, or sets CFGERR. -/
  | windowEnable (w : World) (n : Fin 3)
  /-- WINDOW_DISABLE (R343): Clearing EN disables a window after any capture ends. -/
  | windowDisable (w : World) (n : Fin 3)
  /-- SBW_RP_WRITE (R343): A write of SBWnRP frees bytes of a window, or sets RPBAD. -/
  | sbwRpWrite (w : World) (n : Fin 3) (v : Word)
  /-- SAC_INFO (R377): Sacristy service returning SACSTAT, SACDBG and SACCLAIM. -/
  | sacInfo (c : Caller)
  /-- RNG_GET (R377): Sacristy service returning 96 random bits. -/
  | rngGet (c : Caller)
  /-- SHA256 (R377): Sacristy service hashing a buffer. -/
  | sha256 (c : Caller)
  /-- VERIFY (R377): Sacristy service verifying a signature under a key slot. -/
  | verify (c : Caller)
  /-- SEAL_STATUS (R377): Sacristy service returning SEQ, ACKSEQ and MISSED. -/
  | sealStatus (c : Caller)
  /-- SACCLAIM_WRITE (R378): A Sacristy write claims or releases blocks; releases let held cuts act. -/
  | sacclaimWrite (w : World) (v : Word)
  /-- SAC_QUERY (R397): Returns SACSTAT and optionally claims, deferrals and debug level. -/
  | sacQuery (d : Desc)
  /-- SAC_CHALLENGE (R382): Issues a 16-byte challenge. -/
  | sacChallenge (d : Desc)
  /-- CHALLENGE_LAPSE (R382): A challenge lapses 60 s after issue. -/
  | challengeLapse
  /-- SAC_STAGE (R382): Writes 16 bytes into the signed-operation staging buffer. -/
  | sacStage (d : Desc)
  /-- KEY_INSTALL (R385): Signed operation programming a key slot in OTP. -/
  | keyInstall (d : Desc) (readback : Bool)
  /-- KEY_REVOKE (R385): Signed operation revoking a key slot. -/
  | keyRevoke (d : Desc)
  /-- CLAIM_SET (R381): Signed operation changing the claim list. -/
  | claimSet (d : Desc)
  /-- DEBUG_UNLOCK (R394): Signed operation raising the debug level. -/
  | debugUnlock (d : Desc)
  /-- SEAL_READ (R392): Copies seal entries in SEQ order to the host. -/
  | sealRead (d : Desc)
  /-- SEAL_ACK (R391): Raises ACKSEQ. -/
  | sealAck (d : Desc)
  /-- SEAL_ATTEST (R392): Verifies a range's chain and signs its digest with d_DEV. -/
  | sealAttest (d : Desc) (first last : Nat)
  /-- DEVKEY_QUERY (R386): Returns the public key Q_DEV. -/
  | devkeyQuery (d : Desc)
  /-- VLOG_READ (R396): Copies the newest violation log entries to the host. -/
  | vlogRead (d : Desc)
  /-- VLOG_POP (R396): A read of SACVLOG3 removes the head entry, which Rhoco moves to the MRAM ring. -/
  | vlogPop
  /-- ENGINE_SHA256 (R387): Engine command 1: SHA-256 over Sacristy SRAM. -/
  | engineSha256 (w : World)
  /-- ENGINE_AES_GCM (R387): Engine command 2: AES-256-GCM. -/
  | engineAesGcm (w : World) (key : BitVec 4)
  /-- ENGINE_VERIFY (R387): Engine command 3: ECDSA P-256 verify. -/
  | engineVerify (w : World) (key : BitVec 4)
  /-- ENGINE_SIGN (R387): Engine command 4: ECDSA P-256 sign with d_DEV. -/
  | engineSign (w : World)
  /-- ENGINE_RANDOM (R387): Engine command 5: 32 random bits. -/
  | engineRandom (w : World)
  /-- ENGINE_DONE (R387): An engine command completes and DONE or ENGERR sets. -/
  | engineDone (err : Bool)
  /-- RNGFAIL (R388): Two successive health-test failures stop the random generator. -/
  | rngfail
  /-- OTP_PROGRAM (R400): A SACOTP write with PROG programs bits of an unlocked OTP byte for 100 µs. -/
  | otpProgram (w : World) (addr : BitVec 10) (data : Byte)
  /-- SFE_SETUP (R416): Writes SFE configuration and slots. -/
  | sfeSetup (d : Desc)
  /-- SFE_START (R416): Starts conversions now or arms a start time. -/
  | sfeStart (d : Desc)
  /-- SFE_STOP (R416): Clears SFECTL.EN. -/
  | sfeStop (d : Desc)
  /-- SFE_EXC (R416): Sets excitation and its window, completing after settling. -/
  | sfeExc (d : Desc)
  /-- SFE_READ (R416): Returns the last settled slot words. -/
  | sfeRead (d : Desc)
  /-- SFE_CAL (R416): Calibrates range offsets against the shorted input. -/
  | sfeCal (d : Desc) (avg : List Int)
  /-- SFE_QUERY (R416): Returns SFE status, flags, monitor and lateness. -/
  | sfeQuery (d : Desc)
  /-- SFEGO (R409): A write of SFEGO.GO starts a scan or continuous conversion. -/
  | sfego (w : World) (v : Word)
  /-- SFE_ARM (R410): A write to SFETH with ARM arms a timed start, testing for a past time. -/
  | sfeArm (w : World) (v : Word)
  /-- SFE_START_DUE (R409): An armed or periodic start falls due and begins on the next modulator edge, or runs late, drops or overruns. -/
  | sfeStartDue
  /-- SFE_OUTPUT (R405): A conversion output is produced, auto-ranged, written to window 1 and SFELAST, advancing the scan. -/
  | sfeOutput (x : SfeSample)
  /-- EXC_SETTLED (R403): The 1 ms settling interval after VEX turns on ends and EXCON sets. -/
  | excSettled (ok : Bool)
  /-- EXC_MONITOR (R403): The excitation monitor takes its 1 ms reading and checks the window and VEXS. -/
  | excMonitor (iexc vexs : Nat)
  /-- EXC_CURRENT_LIMIT (R418): VEX in current limit for 50 µs is turned off and EXCOFF sets. -/
  | excCurrentLimit
  /-- CONVTMO (R419): No converter output within twice its expected time restarts the filter. -/
  | convtmo
  /-- LOOP_SET (R432): Writes the loop set point. -/
  | loopSet (d : Desc)
  /-- LOOP_MODE (R432): Writes EN, FAULT, FDIR, MMFAULT and LOOPTMO. -/
  | loopMode (d : Desc)
  /-- LOOP_MAP (R426): Sets the measurement source and range mapped onto the loop. -/
  | loopMap (d : Desc)
  /-- LOOP_CAL_LOW (R431): LOOP_CAL step 0 holds code 10,240. -/
  | loopCalLow (d : Desc)
  /-- LOOP_CAL_HIGH (R431): LOOP_CAL step 1 holds code 51,200. -/
  | loopCalHigh (d : Desc)
  /-- LOOP_CAL_COMPUTE (R431): LOOP_CAL step 2 computes and stores gain and offset. -/
  | loopCalCompute (d : Desc)
  /-- LOOP_CAL_HOLD_EXPIRY (R431): A calibration hold ends 600 s after the last LOOP_CAL. -/
  | loopCalHoldExpiry
  /-- LOOP_QUERY (R432): Returns LOOPNOW and optionally measurement, status and flags. -/
  | loopQuery (d : Desc)
  /-- LOOP_UPDATE_TIMEOUT (R427): No LOOPSET write within LOOPTMO × 10 ms drives the loop to FAULT. -/
  | loopUpdateTimeout
  /-- LOOP_READBACK (R434): The 1 ms readback compares LOOPMEAS with the set current and manages MISMATCH. -/
  | loopReadback (meas : Nat)
  /-- FONT_SETUP (R461): Writes Font configuration registers. -/
  | fontSetup (d : Desc)
  /-- FONT_GEOMETRY (R461): Writes pipe geometry and zero constants. -/
  | fontGeometry (d : Desc)
  /-- FONT_START (R447): Starts the cadence at an armed time or next period multiple. -/
  | fontStart (d : Desc)
  /-- FONT_STOP (R456): Stops the cadence after the pair in progress. -/
  | fontStop (d : Desc)
  /-- FONT_TUNE (R451): Sweeps PER, sets gain and records templates and PWRREF. -/
  | fontTune (d : Desc) (m : TuneIn)
  /-- FONT_ZERO (R452): Runs 64 pairs at zero flow to set Δt0 and t0. -/
  | fontZero (d : Desc) (pairs : List (Int × Int)) (empty : Bool)
  /-- FONT_READ (R461): Returns FLOW and optionally the reading field. -/
  | fontRead (d : Desc)
  /-- FONT_QUERY (R461): Returns Font status, flags and counters. -/
  | fontQuery (d : Desc)
  /-- FONT_TPL_READ (R461): Returns a direction's template. -/
  | fontTplRead (d : Desc)
  /-- FONT_TPL_WRITE (R461): Writes a template chunk, storing it with the 32nd chunk. -/
  | fontTplWrite (d : Desc)
  /-- FONT_ARM (R447): A write to FONTTH with ARM arms a tick time, testing for a past time. -/
  | fontArm (w : World) (v : Word)
  /-- FONT_TICK (R440): A tick falls due: the impedance check runs and VBST charges, or the tick is missed. -/
  | fontTick (capU capD : Nat) (resU resD : Bool)
  /-- VBST_READY (R440): VBST reaches 95 % of its level and the first shot of the tick is fired. -/
  | vbstReady
  /-- VBSTLOW (R457): VBST is not ready within 5 ms and the tick is missed. -/
  | vbstlow
  /-- FONT_SHOT (R439): A shot is fired at its due time and its capture is reserved and recorded. -/
  | fontShot
  /-- FONT_CAPTURE_END (R438): A shot's capture ends, storing samples and FONTSHOT, and after the downstream shot the pair is ready. -/
  | fontCaptureEnd (x : List Int) (dst : Nat)
  /-- FONT_OFFLOAD_DONE (R443): The office pends SOFT30 with the correlation and Rhoco completes the pair. -/
  | fontOffloadDone
  /-- FONT_OFFLOAD_TIMEOUT (R443): No offload answer by the next pair's start makes the pair invalid. -/
  | fontOffloadTimeout
  /-- FONT_RESULT (R449): After the last pair Rhoco computes flow and writes FONTRES, volume and cadence changes. -/
  | fontResult
  /-- FONT_SEAL (R450): At each multiple of the seal period the Font reading is sealed, preceded by a GAP. -/
  | fontSeal
  /-- MOTION_SETUP (R474): Writes MOTCTL. -/
  | motionSetup (d : Desc)
  /-- MOTION_START (R474): Starts the accelerometer and or gyroscope stream. -/
  | motionStart (d : Desc)
  /-- MOTION_STOP (R474): Stops the sensors. -/
  | motionStop (d : Desc)
  /-- MOTION_CAPTURE (R468): Arms a capture of N grid instants at line time t. -/
  | motionCapture (d : Desc)
  /-- MOTION_INCL (R471): Runs a long inclinometer average. -/
  | motionIncl (d : Desc)
  /-- MOTION_SELFTEST (R478): Actuates the proof masses and checks each axis. -/
  | motionSelftest (d : Desc)
  /-- MOTION_READ (R474): Returns the last sample records. -/
  | motionRead (d : Desc)
  /-- MOTION_QUERY (R474): Returns motion status, flags, lateness and misses. -/
  | motionQuery (d : Desc)
  /-- MOTGO (R468): A write of MOTGO.GO starts a stream. -/
  | motgo (w : World) (v : Word)
  /-- MOTION_ARM (R469): A write to MOTTH with ARM arms a capture, testing for a past time. -/
  | motionArm (w : World) (v : Word)
  /-- MOTION_STROBE (R463): At a grid instant the sensors convert and the records are written. -/
  | motionStrobe (x : StrobeIn)
  /-- CAPTURE_END (R468): At t + N × P the capture ends, clearing AEN and GEN and setting CAPDONE. -/
  | captureEnd
  /-- SENSOR_SETTLED (R479): A sensor's start-up interval ends and it begins recording. -/
  | sensorSettled (gyro : Bool)
  /-- MOTION_DATA_TIMEOUT (R477): Data ready does not arrive within 2 × P plus 50 µs, so the instant is missed. -/
  | motionDataTimeout (gyro : Bool)
  /-- INCL_DONE (R471): The inclinometer average completes and INCLDONE sets. -/
  | inclDone (sx sy sz temp : Int) (bad : Bool)
  /-- MOTION_SELFTEST_DONE (R478): The proof-mass actuation completes and MOTSTRES and STDONE are set. -/
  | motionSelftestDone (apass gpass : Nat) (disturbed : Bool)
  /-- RING_SETUP (R496): Writes RGCTL and the recogniser configuration. -/
  | ringSetup (d : Desc)
  /-- RING_LOAD (R492): Writes words into a stopped engine's program store. -/
  | ringLoad (d : Desc)
  /-- RING_START (R488): Starts Ringer engines at PC 0. -/
  | ringStart (d : Desc)
  /-- RING_STOP (R497): Stops Ringer engines. -/
  | ringStop (d : Desc)
  /-- RING_TIMER (R491): Arms an engine's timer at time t. -/
  | ringTimer (d : Desc)
  /-- KNOCK_SETUP (R485): Writes the knock recogniser configuration. -/
  | knockSetup (d : Desc)
  /-- TILT_REF (R496): Latches the tilt averages into TILTREF. -/
  | tiltRef (d : Desc)
  /-- TOUCH_SETUP (R496): Writes touch configuration. -/
  | touchSetup (d : Desc)
  /-- TOUCH_START (R493): Starts touch on the named electrodes with calibration. -/
  | touchStart (d : Desc)
  /-- TOUCH_STOP (R496): Stops touch. -/
  | touchStop (d : Desc)
  /-- TOUCH_CAL (R494): Recalibrates the named electrodes' baselines. -/
  | touchCal (d : Desc)
  /-- RING_QUERY (R496): Returns Ringer status, flags and counts. -/
  | ringQuery (d : Desc)
  /-- TOUCH_QUERY (R496): Returns touch status, flags, counts and baselines. -/
  | touchQuery (d : Desc)
  /-- SHOCK_SAMPLE (R482): A shock-channel sample is taken and fed to the tap and knock recognisers. -/
  | shockSample (x y z : Nat)
  /-- RINGER_TRIGGER (R489): A trigger in a waiting engine's mask resumes it until WAIT or HALT. -/
  | ringerTrigger (n t : Nat)
  /-- RINGER_TIMER_EXPIRY (R491): An engine's timer expires and trigger 2 occurs. -/
  | ringerTimerExpiry (n : Nat)
  /-- RINGER_HALT (R490): Ringer HALT stops the engine. -/
  | ringerHalt (n : Nat)
  /-- RINGER_WAIT (R489): Ringer WAIT yields until a masked trigger. -/
  | ringerWait (n : Nat)
  /-- RINGER_TEST (R490): Ringer TEST sets F from a comparison. -/
  | ringerTest (n : Nat)
  /-- RINGER_BR (R490): Ringer branch on F. -/
  | ringerBr (n : Nat)
  /-- RINGER_SETC (R490): Ringer set counter. -/
  | ringerSetc (n : Nat)
  /-- RINGER_ADDC (R490): Ringer add to counter, clamped. -/
  | ringerAddc (n : Nat)
  /-- RINGER_TREL (R491): Ringer arms its timer relative to now. -/
  | ringerTrel (n : Nat)
  /-- RINGER_TABS (R491): Ringer arms its timer at an absolute time. -/
  | ringerTabs (n : Nat)
  /-- RINGER_TOFF (R490): Ringer disarms its timer. -/
  | ringerToff (n : Nat)
  /-- RINGER_EMIT (R490): Ringer writes an event FIFO entry. -/
  | ringerEmit (n : Nat)
  /-- RINGER_WAKE (R490): Ringer raises the KNOCK wake source. -/
  | ringerWake (n : Nat)
  /-- RINGER_SIGNAL (R490): Ringer sends trigger 5 to other engines. -/
  | ringerSignal (n : Nat)
  /-- TOUCH_MEASUREMENT (R494): At each PERIOD the enabled electrodes are measured and touch state updated. -/
  | touchMeasurement (c : List (Option Nat))
  /-- TOUCH_RETRY (R498): A faulted electrode is retried every 10 s. -/
  | touchRetry (e : Nat) (c : Option Nat)
  /-- EVF2_READ (R486): A read of EVF2 removes the head event FIFO entry. -/
  | evf2Read (byRhoco : Bool)
  /-- CHOR_SETUP (R516): Writes an engine's divider, configuration, shift and pin settings. -/
  | chorSetup (d : Desc)
  /-- CHOR_LOAD (R511): Writes a stopped engine's program store. -/
  | chorLoad (d : Desc)
  /-- CHOR_START (R510): Starts engines now or arms a start time. -/
  | chorStart (d : Desc)
  /-- CHOR_STOP (R516): Stops engines. -/
  | chorStop (d : Desc)
  /-- CHOR_PUT (R516): Writes words into an engine's TX queue. -/
  | chorPut (d : Desc)
  /-- CHOR_GET (R516): Reads words from an engine's RX queue. -/
  | chorGet (d : Desc)
  /-- CHOR_INJECT (R512): Injects one instruction into an engine. -/
  | chorInject (d : Desc)
  /-- CHOR_AT (R509): Sets an engine's action time. -/
  | chorAt (d : Desc)
  /-- CHOR_PADS (R504): Sets pad ownership and software outputs. -/
  | chorPads (d : Desc)
  /-- CHOR_QUERY (R516): Returns Chorister status. -/
  | chorQuery (d : Desc)
  /-- CHCTL_EN (R510): A write of CHCTL.EN bits starts or stops engines on one edge. -/
  | chctlEn (w : World) (v : Word)
  /-- CHCTL_RESTART (R514): CHCTL.RESTART resets an engine's PC and shift state. -/
  | chctlRestart (w : World) (mask : Nat)
  /-- CHCTL_CLKSYNC (R510): CHCTL.CLKSYNC restarts dividers of named engines on one edge. -/
  | chctlClksync (w : World) (mask : Nat)
  /-- CHSTART_ARM (R510): A write to CHSTARTH with ARM arms a start of masked engines. -/
  | chstartArm (w : World) (v : Word)
  /-- ARMED_START (R510): ACTCNT reaches the armed start time and the masked engines start, or the start runs late or drops. -/
  | armedStart (edges : Nat)
  /-- CHTX_WRITE (R508): A bus write to CHnTX enters the TX queue or is discarded with OVERRUN. -/
  | chtxWrite (w : World) (n : Nat) (v : Word)
  /-- CHRX_READ (R508): A bus read of CHnRX removes a word or sets UNDERRUN. -/
  | chrxRead (n : Nat)
  /-- CHINJ_WRITE (R512): A write to CHnINJ places an instruction for injection. -/
  | chinjWrite (w : World) (n : Nat) (v : Word)
  /-- CHPADOWN_WRITE (R504): A write of pad ownership, refused per pad while an owner engine runs. -/
  | chpadownWrite (w : World) (k : Nat) (v : Word)
  /-- CHOR_STEP (R505): An engine step executes or resumes one instruction, possibly after a stall. -/
  | chorStep (n edges gp : Nat) (tcmp : Bool)
  /-- CHOR_STALL_TIMEOUT (R519): A stall lasts STALLTMO ms and CHOR_STALL is posted. -/
  | chorStallTimeout (n : Nat)
  /-- FIELD_SETUP (R537): Writes field input and output settings. -/
  | fieldSetup (d : Desc)
  /-- FIELD_OUT (R537): Sets output levels and arms outputs. -/
  | fieldOut (d : Desc)
  /-- FIELD_READ (R537): Returns FISTAT and counters. -/
  | fieldRead (d : Desc)
  /-- FIELD_COUNT (R537): Returns and zeroes the named counters. -/
  | fieldCount (d : Desc)
  /-- FIELD_QUERY (R537): Returns field status, flags and monitors. -/
  | fieldQuery (d : Desc)
  /-- FIELD_INPUT_EDGE (R525): A filtered input change updates state, counter and event FIFO. -/
  | fieldInputEdge (x : Nat)
  /-- FOCTL_WRITE (R527): A FOCTL write reaches the output latch for armed outputs and stores SAFE settings. -/
  | foctlWrite (w : World) (v : Word)
  /-- FOKICK (R529): A write of 0x0000_F1E1 to FOKICK enables software keepalives. -/
  | fokick (w : World) (v : Word)
  /-- KEEPALIVE (R529): Every 10 ms the always-on logic sends the Buttress die a keepalive. -/
  | keepalive
  /-- LOGIC_SILENT (R530): No keepalive for 200 ms makes outputs with SAFE switch to SAFELVL. -/
  | logicSilent
  /-- KEEPALIVE_RETURN (R530): Keepalives return after silence and SILENT and SAFED flags set. -/
  | keepaliveReturn
  /-- OUT_SHORT (R533): An output in current limit for 3 ms turns off and SHORT sets. -/
  | outShort (n ma : Nat)
  /-- OUT_RETRY (R533): 1 s after a short turn-off with RETRY set the output turns on again. -/
  | outRetry (n : Nat)
  /-- OUT_THERM (R532): An output over 165 °C turns off, returning below 150 °C. -/
  | outTherm (n : Nat) (hot : Bool) (ma : Nat)
  /-- OUT_OPEN (R532): An output below 5 mA, or off above 6 V, for 50 ms sets OPEN. -/
  | outOpen (n ma : Nat)
  /-- VFLD_QUALIFIED (R532): VFLD at 18 V or more for 10 ms qualifies, and the latch clears if VFLD was absent. -/
  | vfldQualified (absent : Bool) (v : Nat)
  /-- VFLD_LOST (R532): VFLD below 16 V for 100 µs turns outputs off keeping the latch. -/
  | vfldLost (v : Nat)
  /-- VFLD_OVERVOLTAGE (R532): VFLD above 33 V for 50 µs turns outputs off. -/
  | vfldOvervoltage (v : Nat)
  /-- IN_BREAK (R532): An input with BRKEN below 0.2 mA for the filter time reports a break. -/
  | inBreak (n : Nat)
  /-- IN_STUCK (R532): An input without an edge for its timeout reports STUCK. -/
  | inStuck (n : Nat)
  /-- IN_OVERVOLTAGE (R532): An input above 33 V or below −5 V for 50 µs sets OV or REV. -/
  | inOvervoltage (n : Nat) (ov rev : Bool)
  /-- STCTL_GO (R549): A write of STCTL.GO runs the named slice with retries. -/
  | stctlGo (w : World) (slice : Fin 64)
  /-- SLICE_START (R539): A waiting slice's conditions hold, preconditions pass and it quiesces, saves and applies patterns. -/
  | sliceStart
  /-- SLICE_COMPARE (R544): The slice's signature is compared and the region restored; a mismatch retries or confirms. -/
  | sliceCompare (sig : Word) (badStore : Bool)
  /-- SLICE_ABANDON (R542): A precondition fails during a slice, so patterns stop and the region is restored. -/
  | sliceAbandon (badStore : Bool)
  /-- SLICE_WAIT_TIMEOUT (R541): A slice waits 1 s and is skipped with cause BUSY. -/
  | sliceWaitTimeout
  /-- ST_COUNT_COPY (R546): Every 3,600 s Rhoco copies the slice counts to MRAM. -/
  | stCountCopy
  /-- ST_QUERY (R550): Returns STRESP, STSTAT and the cursor. -/
  | stQuery (d : Desc)
  /-- ST_PACE (R550): Stores the self-test pace. -/
  | stPace (d : Desc)
  /-- ST_RUN (R550): Runs a slice or every applicable slice. -/
  | stRun (d : Desc)
  /-- ST_RESULTS (R550): Returns the per-slice counts. -/
  | stResults (d : Desc)
  /-- ST_CLEAR (R550): Sets every count to 0. -/
  | stClear (d : Desc)
  /-- EXTEST (R560): TAP instruction giving the boundary register control of the covered pads. -/
  | extest (obs : BitVec 6) (scan : List Bool)
  /-- SAMPLE_PRELOAD (R560): TAP instruction sampling and preloading the boundary register. -/
  | samplePreload (obs : BitVec 6) (scan : List Bool)
  /-- BYPASS (R560): TAP instruction selecting the bypass register. -/
  | bypass (scan : List Bool)
  /-- DEBUG_ACCESS (R393): Debug-access TAP instructions acting as the debug level admits, logged otherwise. -/
  | debugAccess (c : CoreId) (op : DebugOp)
  /-- TRST (R561): TRST_N held low resets the test access port. -/
  | trst
  /-- REGISTER_WRITE (R4): A write to a register with no row of its own acts by its access codes, SRW checks and reserved-bit rules. -/
  | registerWrite (c : CoreId) (w : World) (a : Nat) (v : Word)
  /-- VAO_LOSS (R65): VAO falls below 0.95 V for 2 µs and the part is held in power-on reset while it stays low. -/
  | vaoLoss
  /-- LINE_TIME_TICK (R502): At each line-time tick the count advances, or advances at the holdover rate, and ACTCNT is compared with line time × 750 and corrected. -/
  | lineTimeTick
  /-- FRAME_DISCARDED (R184): A received frame fails its CRC, type, length or zero-bit checks, or is a RECOVER frame on a walk, and is discarded and counted in CRCERR. -/
  | frameDiscarded (p : Port) (index : Option Nat) (rx : LineRx)
  /-- PERST_RISE (R228): PERST_N rises, which ends the host-link reset, starts link training and releases PWAKE_N. -/
  | perstRise
  /-- REFCLK_LOCK (R227): The PHY PLL lock on REFCLK has held for 100 µs after a loss, and link training starts again. -/
  | refclkLock
  /-- VPHY_GOOD (R228): VPHY has held at or above 0.95 V for 100 µs, so the PHY leaves reset and training may start. -/
  | vphyGood
  /-- LINK_ERROR (R230): An error detected on the link is logged in Advanced Error Reporting and sets HLFLAG.AERCOR or AERUNC. -/
  | linkError (uncorrectable : Bool) (header : Nat)
  /-- LINK_RETRAIN (R229): The LTSSM performs a recovery from L0 and HLCNT.RETRAIN counts it. -/
  | linkRetrain
  /-- LINK_L1 (R220): The link enters or leaves L0s or L1, which changes HLSTAT.LPM and releases or asserts CLKREQ_N. -/
  | linkL1 (lpm : Fin 3)
  /-- WSUP_OV_RECOVER (R167): WSUP has been below 43 V for 10 ms after an over-voltage, and the drive may resume. -/
  | wsupOvRecover
  /-- VFLD_OV_RECOVER (R532): VFLD has been below 32 V for 10 ms after an over-voltage, and the outputs resume their latched levels. -/
  | vfldOvRecover (v : Nat)
  /-- IN_BREAK_CLEAR (R532): The input current has been at least 0.2 mA for the filter time after a break, so the BREAK state clears. -/
  | inBreakClear (n : Nat)
  /-- EXC_PULSE_ON (R402): With PULSE set, VEX is driven 1.000 ms before each scheduled scan start. -/
  | excPulseOn
  deriving DecidableEq, Repr

end Sys2Proof
end

