-- ==== Sys2Proof/Config.lean ====
section
/-! DEFINITION. What the spec leaves open: constants with no body, so that nothing can evaluate them and every
statement holds whatever they are. The assumption log names each. -/

namespace Sys2Proof.Config

/-- What a byte of memory reads as while nothing has written it since its contents were last lost. The first
argument is the number of such losses, the second the address (R87, R122, R346). Log 2. -/
opaque initByte : Nat → Nat → Byte

/-- What a byte of the OTP holds when the part is delivered (Table 15.7). Log 2. -/
opaque otpByte : Nat → Byte

/-- Whether a byte never written since its contents were lost reads with a parity mismatch (R87, R346). Log 2. -/
opaque initParityBad : Nat → Nat → Bool

/-- Where Decani starts on exit from CRYPT: Rhoco's CRYPT wake entry, whose address the spec does not give (R86).
Log 7. -/
opaque cryptEntry : Word

/-- Whether the CRC-32 that protects Rhoco's reservation of the keep checks: where it stands in the 2 KB is Rhoco's own
(R127). The argument is the reservation's bytes. Log 8. -/
opaque keepOk : List Byte → Bool

/-- A fresh free number: the n-th value the spec leaves open (random bits, undefined results). Log 3. -/
opaque free : Nat → Nat

/-- The way of a full cache set that is evicted: pseudo-LRU, whose tree the spec does not lay out (Table 16.1).
The argument is the counter of free values. Log 4. -/
opaque victimWay : Nat → Nat

/-- What the body of a configuration record copy sets: its layout is Rhoco's own (R132). The arguments are the
body's bytes and the address of a register; the answer is the value the record holds for it. Log 5. -/
opaque recordReg : List (Nat × Byte) → Nat → Option Word

/-- The other settings a configuration record body holds, by number (Log 5). -/
opaque recordItem : List (Nat × Byte) → Nat → Nat

/-- The bytes of the body that one setting of Rhoco's changes: body, number of the setting, its value (Log 5). -/
opaque recordPut : List (Nat × Byte) → Nat → Nat → List (Nat × Byte)

/-- Bit k is set when a chunk of the body at an offset with a length overlaps the settings of block k (Log 5). -/
opaque recordBlocks : Nat → Nat → Nat

/-- The OTP trims of the loop DAC: gain and offset at their places in the trim region, whose layout the spec does not
give (Table 15.7, R430). Log 2. -/
opaque loopGain : BitVec 16
opaque loopOfs : BitVec 16

/-- The interpolation of R441 step 4, delta = atan((c - a) / (2b sin w)) / w in units of 2^-20 sample, from the three values
around the peak and PER: the spec gives the real function and no precision. Log 9. -/
opaque fontDelta : Int → Int → Int → Nat → Int

/-- The first-order filter of TILT, a real function whose arithmetic the spec does not give: an average, the sample, the
rate exponent k and TAU; the answer is the next average in units of 1/256 LSB at ±2 g (R484). Log 10. -/
opaque tiltStep : Int → Int → Nat → Nat → Int

/-- Whether an inexact quotient is rounded up, where the spec says that a mean or a fraction is taken and not how it is
rounded. Log 11. -/
opaque roundUp : Int → Nat → Bool

/-- The touch program, which Rhoco loads from ROM: word n (R493). Log 12. -/
opaque touchWord : Nat → Nat

/-- The sequence number LOG_APPEND returns for the first record of a log (R126). Log 5. -/
opaque logFirst : Nat → Nat

/-- The depth of a line command path, per ring: 2^2 to 2^4 entries (Table 7.2, R190). The window G a Cell or Crossing announces. Log 25. -/
opaque windowExp : Nat → Nat

/-- T_RX, the receiver latency trimmed in OTP, in root cycles (R194). Log 2. -/
opaque rxLatency : Nat

/-- Rhoco's version number (Table 6.5). Log 6. -/
opaque rhocoVersion : Word

end Sys2Proof.Config
end

