-- ==== Sys2Proof/Machine/Regs.lean ====
section
/-! DEFINITION. The register map: the address of every register, every field as a (register, low bit,
width) triple, and the access table of the field maps (R4, R6, Tables 1.4 to 25.3). -/

namespace Sys2Proof.Machine

/-- A field of a register: the register's address, the field's lowest bit and its width. -/
structure Fld where
  addr : Nat
  lo : Nat
  w : Nat
  deriving DecidableEq, Repr

/-- One row of the access table: `count` registers `stride` bytes apart from `base`, and the bits
of each access code of Table 0.5. Bits in no mask are RO or reserved. -/
structure RegSpec where
  base : Nat
  count : Nat
  stride : Nat
  rw : Nat
  w1c : Nat
  w1s : Nat
  wo : Nat
  srw : Nat
  srwW1c : Nat
  srwWo : Nat
  deriving DecidableEq, Repr

/-- A field that is one whole register. -/
def wholeReg (a : Nat) : Fld := ⟨a, 0, 32⟩

-- Block 0: System control (R28-R30, R139)

def rROLESTAT : Nat := 0x40000000
def fROLESTAT_ROLE : Fld := ⟨0x40000000, 0, 2⟩
def fROLESTAT_UNSTABLE : Fld := ⟨0x40000000, 2, 1⟩
def fROLESTAT_CONTESTED : Fld := ⟨0x40000000, 3, 1⟩
def fROLESTAT_STRAPNOW : Fld := ⟨0x40000000, 8, 2⟩
def fROLESTAT_DIFFER : Fld := ⟨0x40000000, 10, 1⟩
def rROLECAP : Nat := 0x40000004
def fROLECAP_CAP : Fld := ⟨0x40000004, 0, 32⟩
def rLINEADDR : Nat := 0x40000008
def fLINEADDR_CELLADDR : Fld := ⟨0x40000008, 0, 12⟩
def fLINEADDR_ROLEADDR : Fld := ⟨0x40000008, 12, 4⟩
def fLINEADDR_VALID : Fld := ⟨0x40000008, 16, 1⟩
def rRSTCAUSE : Nat := 0x40000010
def fRSTCAUSE_HIST : Fld := ⟨0x40000010, 0, 10⟩
def fRSTCAUSE_LAST : Fld := ⟨0x40000010, 16, 4⟩
def rBOOTSTAT : Nat := 0x40000014
def fBOOTSTAT_GOOD : Fld := ⟨0x40000014, 0, 1⟩
def fBOOTSTAT_SAFE : Fld := ⟨0x40000014, 1, 1⟩
def fBOOTSTAT_CFGDEF : Fld := ⟨0x40000014, 2, 1⟩
def fBOOTSTAT_IMGFAIL : Fld := ⟨0x40000014, 3, 1⟩
def fBOOTSTAT_KEEPBAD : Fld := ⟨0x40000014, 4, 1⟩
def fBOOTSTAT_RECOV : Fld := ⟨0x40000014, 5, 1⟩
def fBOOTSTAT_OTPBAD : Fld := ⟨0x40000014, 6, 1⟩
def fBOOTSTAT_FAILS : Fld := ⟨0x40000014, 8, 4⟩
def rSYSID : Nat := 0x40000020
def fSYSID_STEPLTR : Fld := ⟨0x40000020, 0, 8⟩
def fSYSID_STEPNUM : Fld := ⟨0x40000020, 8, 4⟩
def fSYSID_PARTNUM : Fld := ⟨0x40000020, 16, 16⟩
def rUIDL : Nat := 0x40000024
def fUIDL_UID : Fld := ⟨0x40000024, 0, 32⟩
def rUIDH : Nat := 0x40000028
def fUIDH_UID : Fld := ⟨0x40000028, 0, 32⟩
def rSYSRST : Nat := 0x40000030
def fSYSRST_GO : Fld := ⟨0x40000030, 0, 1⟩
def fSYSRST_LINECMD : Fld := ⟨0x40000030, 1, 1⟩
def fSYSRST_KEY : Fld := ⟨0x40000030, 16, 16⟩
def rWDTCFG : Nat := 0x40000040
def fWDTCFG_PERIOD : Fld := ⟨0x40000040, 0, 8⟩
def fWDTCFG_LOCK : Fld := ⟨0x40000040, 8, 1⟩
def fWDTCFG_WARN : Fld := ⟨0x40000040, 9, 1⟩
def rWDTKICK : Nat := 0x40000044
def fWDTKICK_KICK : Fld := ⟨0x40000044, 0, 32⟩
def rWDTCNT : Nat := 0x40000048
def fWDTCNT_REMAIN : Fld := ⟨0x40000048, 0, 18⟩
def rLRWDKICK : Nat := 0x4000004C
def fLRWDKICK_KICK : Fld := ⟨0x4000004C, 0, 32⟩
-- Block 1: RTC (R117)

def rRTCTIMEL : Nat := 0x40001000
def fRTCTIMEL_TIME : Fld := ⟨0x40001000, 0, 32⟩
def rRTCTIMEH : Nat := 0x40001004
def fRTCTIMEH_TIME : Fld := ⟨0x40001004, 0, 16⟩
def fRTCTIMEH_FRAC : Fld := ⟨0x40001004, 16, 13⟩
def rRTCSTAT : Nat := 0x40001008
def fRTCSTAT_VALID : Fld := ⟨0x40001008, 0, 1⟩
def fRTCSTAT_HOLDOVER : Fld := ⟨0x40001008, 1, 1⟩
def fRTCSTAT_TRACK : Fld := ⟨0x40001008, 2, 1⟩
def fRTCSTAT_SETPEND : Fld := ⟨0x40001008, 3, 1⟩
def rRTCSETL : Nat := 0x4000100C
def fRTCSETL_TIME : Fld := ⟨0x4000100C, 0, 32⟩
def rRTCSETH : Nat := 0x40001010
def fRTCSETH_TIME : Fld := ⟨0x40001010, 0, 16⟩
def fRTCSETH_GO : Fld := ⟨0x40001010, 31, 1⟩
def rRTCFLAG : Nat := 0x40001014
def fRTCFLAG_SET : Fld := ⟨0x40001014, 0, 1⟩
def fRTCFLAG_STEP : Fld := ⟨0x40001014, 1, 1⟩
def fRTCFLAG_SETREF : Fld := ⟨0x40001014, 2, 1⟩
-- Block 2: Pads (R50, R51)

def rGPCFG (n : Nat) : Nat := 0x40002000 + 4 * n
def fGPCFG_DRIVE (n : Nat) : Fld := ⟨rGPCFG n, 0, 2⟩
def fGPCFG_SLEW (n : Nat) : Fld := ⟨rGPCFG n, 2, 1⟩
def fGPCFG_PULL (n : Nat) : Fld := ⟨rGPCFG n, 3, 2⟩
def fGPCFG_FILT (n : Nat) : Fld := ⟨rGPCFG n, 5, 2⟩
def fGPCFG_IE (n : Nat) : Fld := ⟨rGPCFG n, 7, 1⟩
def fGPCFG_HOLD (n : Nat) : Fld := ⟨rGPCFG n, 8, 1⟩
def fGPCFG_ODN (n : Nat) : Fld := ⟨rGPCFG n, 9, 1⟩
def fGPCFG_OVIE (n : Nat) : Fld := ⟨rGPCFG n, 10, 1⟩
def rPADSTAT : Nat := 0x40002040
def fPADSTAT_OV : Fld := ⟨0x40002040, 0, 16⟩
def fPADSTAT_VIOLOW : Fld := ⟨0x40002040, 16, 1⟩
def fPADSTAT_VIO18 : Fld := ⟨0x40002040, 17, 1⟩
def rPADCTL : Nat := 0x40002044
def fPADCTL_VIOREGEN : Fld := ⟨0x40002044, 0, 1⟩
-- Block 3: Power (R72)

def rPWRSRC : Nat := 0x40003000
def fPWRSRC_SRC : Fld := ⟨0x40003000, 0, 2⟩
def fPWRSRC_LINEOK : Fld := ⟨0x40003000, 2, 1⟩
def fPWRSRC_CRESOK : Fld := ⟨0x40003000, 3, 1⟩
def fPWRSRC_AUXOK : Fld := ⟨0x40003000, 4, 1⟩
def fPWRSRC_BAKOK : Fld := ⟨0x40003000, 5, 1⟩
def fPWRSRC_VCOREOK : Fld := ⟨0x40003000, 6, 1⟩
def fPWRSRC_VDDAOK : Fld := ⟨0x40003000, 7, 1⟩
def rPWRCFG : Nat := 0x40003004
def fPWRCFG_BAKALLOW : Fld := ⟨0x40003004, 0, 5⟩
def fPWRCFG_BAKCHG : Fld := ⟨0x40003004, 5, 1⟩
def fPWRCFG_EXC : Fld := ⟨0x40003004, 8, 4⟩
def rPWRTOK : Nat := 0x40003008
def fPWRTOK_GRANT : Fld := ⟨0x40003008, 0, 5⟩
def fPWRTOK_ALLOW : Fld := ⟨0x40003008, 8, 5⟩
def fPWRTOK_NEED : Fld := ⟨0x40003008, 16, 5⟩
def fPWRTOK_SHORT : Fld := ⟨0x40003008, 24, 1⟩
def rPWRFLAG : Nat := 0x4000300C
def fPWRFLAG_BOW : Fld := ⟨0x4000300C, 0, 1⟩
def fPWRFLAG_LINELOSS : Fld := ⟨0x4000300C, 1, 1⟩
def fPWRFLAG_LINERET : Fld := ⟨0x4000300C, 2, 1⟩
def fPWRFLAG_SWITCH : Fld := ⟨0x4000300C, 3, 1⟩
def fPWRFLAG_SHED : Fld := ⟨0x4000300C, 4, 1⟩
def fPWRFLAG_REFUSED : Fld := ⟨0x4000300C, 5, 1⟩
def fPWRFLAG_VDDALOW : Fld := ⟨0x4000300C, 6, 1⟩
def fPWRFLAG_BAKLOW : Fld := ⟨0x4000300C, 7, 1⟩
def fPWRFLAG_CRESFAIL : Fld := ⟨0x4000300C, 8, 1⟩
def fPWRFLAG_OVLINE : Fld := ⟨0x4000300C, 9, 1⟩
def fPWRFLAG_SHORT : Fld := ⟨0x4000300C, 10, 1⟩
def rPWRIE : Nat := 0x40003010
def fPWRIE_IE : Fld := ⟨0x40003010, 0, 11⟩
def rPWRMON : Nat := 0x40003014
def fPWRMON_CRESV : Fld := ⟨0x40003014, 0, 8⟩
def fPWRMON_VBAKV : Fld := ⟨0x40003014, 8, 8⟩
def fPWRMON_VBRV : Fld := ⟨0x40003014, 16, 8⟩
def rPWRSHED : Nat := 0x40003018
def fPWRSHED_SHEDMAP : Fld := ⟨0x40003018, 0, 5⟩
def rBODCNT : Nat := 0x4000301C
def fBODCNT_COUNT : Fld := ⟨0x4000301C, 0, 8⟩
-- Block 4: Power states and wake (R94)

def rPWRCTL : Nat := 0x40004000
def fPWRCTL_STATE : Fld := ⟨0x40004000, 0, 3⟩
def fPWRCTL_MWATCH : Fld := ⟨0x40004000, 4, 1⟩
def fPWRCTL_SBKEEP : Fld := ⟨0x40004000, 5, 1⟩
def rSLPRET : Nat := 0x40004004
def fSLPRET_RETAIN : Fld := ⟨0x40004004, 0, 16⟩
def rSLPHOLD : Nat := 0x40004008
def fSLPHOLD_HOLDMAP : Fld := ⟨0x40004008, 0, 16⟩
def rWAKEEN : Nat := 0x4000400C
def fWAKEEN_ALL : Fld := ⟨0x4000400C, 0, 14⟩
def fWAKEEN_LO : Fld := ⟨0x4000400C, 0, 5⟩
def fWAKEEN_LECTERN : Fld := ⟨0x4000400C, 5, 1⟩
def fWAKEEN_PWREV : Fld := ⟨0x4000400C, 6, 1⟩
def fWAKEEN_MID : Fld := ⟨0x4000400C, 7, 4⟩
def fWAKEEN_INT : Fld := ⟨0x4000400C, 11, 1⟩
def fWAKEEN_TOUCH : Fld := ⟨0x4000400C, 12, 1⟩
def fWAKEEN_CLKFAIL : Fld := ⟨0x4000400C, 13, 1⟩
def rWAKECFG : Nat := 0x40004010
def fWAKECFG_GPEDGE : Fld := ⟨0x40004010, 0, 8⟩
def rWAKESRC : Nat := 0x40004014
def fWAKESRC_SRC : Fld := ⟨0x40004014, 0, 14⟩
def rSLPSTAT : Nat := 0x40004018
def fSLPSTAT_LAST : Fld := ⟨0x40004018, 0, 3⟩
def fSLPSTAT_REFUSED : Fld := ⟨0x40004018, 3, 1⟩
def fSLPSTAT_ABORTED : Fld := ⟨0x40004018, 4, 1⟩
def fSLPSTAT_DEFERRED : Fld := ⟨0x40004018, 5, 1⟩
def fSLPSTAT_NOTROLE : Fld := ⟨0x40004018, 6, 1⟩
def fSLPSTAT_BUSY : Fld := ⟨0x40004018, 8, 8⟩
def rBANKLOST : Nat := 0x4000401C
def fBANKLOST_LOST : Fld := ⟨0x4000401C, 0, 16⟩
def rWAKECNT : Nat := 0x40004020
def fWAKECNT_COUNT : Fld := ⟨0x40004020, 0, 32⟩
def rWAKEALML (n : Nat) : Nat := 0x40004024 + 8 * n
def fWAKEALML_TIME (n : Nat) : Fld := ⟨rWAKEALML n, 0, 32⟩
def rWAKEALMH (n : Nat) : Nat := 0x40004028 + 8 * n
def fWAKEALMH_TIME (n : Nat) : Fld := ⟨rWAKEALMH n, 0, 16⟩
def fWAKEALMH_ARM (n : Nat) : Fld := ⟨rWAKEALMH n, 16, 1⟩
def fWAKEALMH_LATE (n : Nat) : Fld := ⟨rWAKEALMH n, 17, 1⟩
-- Block 5: Clocks (R108)

def rCLKCTL : Nat := 0x40005000
def fCLKCTL_HFEN : Fld := ⟨0x40005000, 0, 1⟩
def fCLKCTL_PLLEN : Fld := ⟨0x40005000, 1, 1⟩
def fCLKCTL_AGOFF : Fld := ⟨0x40005000, 2, 1⟩
def rCLKSEL : Nat := 0x40005004
def fCLKSEL_ROOT : Fld := ⟨0x40005004, 0, 1⟩
def fCLKSEL_CDIV : Fld := ⟨0x40005004, 1, 1⟩
def rCLKSTAT : Nat := 0x40005008
def fCLKSTAT_XTALOK : Fld := ⟨0x40005008, 0, 1⟩
def fCLKSTAT_HFOK : Fld := ⟨0x40005008, 1, 1⟩
def fCLKSTAT_PLLLOCK : Fld := ⟨0x40005008, 2, 1⟩
def fCLKSTAT_ROOTNOW : Fld := ⟨0x40005008, 3, 1⟩
def fCLKSTAT_CDIVNOW : Fld := ⟨0x40005008, 4, 1⟩
def fCLKSTAT_SWBUSY : Fld := ⟨0x40005008, 5, 1⟩
def fCLKSTAT_SWPEND : Fld := ⟨0x40005008, 6, 1⟩
def fCLKSTAT_HOLDOVER : Fld := ⟨0x40005008, 7, 1⟩
def fCLKSTAT_FORCED : Fld := ⟨0x40005008, 8, 1⟩
def rCLKFLAG : Nat := 0x4000500C
def fCLKFLAG_XTALF : Fld := ⟨0x4000500C, 0, 1⟩
def fCLKFLAG_PLLF : Fld := ⟨0x4000500C, 1, 1⟩
def fCLKFLAG_HFF : Fld := ⟨0x4000500C, 2, 1⟩
def fCLKFLAG_LFRCF : Fld := ⟨0x4000500C, 3, 1⟩
def fCLKFLAG_REFUSED : Fld := ⟨0x4000500C, 4, 1⟩
def fCLKFLAG_FALLBACK : Fld := ⟨0x4000500C, 5, 1⟩
def rCLKIE : Nat := 0x40005010
def fCLKIE_IE : Fld := ⟨0x40005010, 0, 6⟩
def rCLKSAFE : Nat := 0x40005014
def fCLKSAFE_RELEASE : Fld := ⟨0x40005014, 0, 1⟩
def fCLKSAFE_REMAIN : Fld := ⟨0x40005014, 8, 8⟩
def rCLKRCCAL : Nat := 0x40005018
def fCLKRCCAL_COUNT : Fld := ⟨0x40005018, 0, 18⟩
def fCLKRCCAL_VALID : Fld := ⟨0x40005018, 31, 1⟩
-- Block 6: Books (R157)

def rPARSTAT : Nat := 0x40006000
def fPARSTAT_SRAM : Fld := ⟨0x40006000, 0, 1⟩
def fPARSTAT_SSRAM : Fld := ⟨0x40006000, 1, 1⟩
def fPARSTAT_SBUF : Fld := ⟨0x40006000, 2, 1⟩
def fPARSTAT_QUEUE : Fld := ⟨0x40006000, 3, 1⟩
def fPARSTAT_CLR : Fld := ⟨0x40006000, 7, 1⟩
def fPARSTAT_CNT : Fld := ⟨0x40006000, 8, 16⟩
def rPARADDR : Nat := 0x40006004
def fPARADDR_ADDR : Fld := ⟨0x40006004, 0, 32⟩
def rBOOKFLAG : Nat := 0x40006008
def fBOOKFLAG_BREACH : Fld := ⟨0x40006008, 0, 1⟩
def fBOOKFLAG_KIND : Fld := ⟨0x40006008, 1, 4⟩
def fBOOKFLAG_DEFICIT : Fld := ⟨0x40006008, 5, 1⟩
def rTAGSTAT : Nat := 0x4000600C
def fTAGSTAT_FREE : Fld := ⟨0x4000600C, 0, 11⟩
def fTAGSTAT_RELEASING : Fld := ⟨0x4000600C, 16, 11⟩
-- Block 7: Cantoris control (R278)

def rCANTCTL : Nat := 0x40007000
def fCANTCTL_PWR : Fld := ⟨0x40007000, 0, 1⟩
def fCANTCTL_RUN : Fld := ⟨0x40007000, 1, 1⟩
def rCANTSTAT : Nat := 0x40007004
def fCANTSTAT_STATE : Fld := ⟨0x40007004, 0, 3⟩
def rCANTENTRY : Nat := 0x40007008
def fCANTENTRY_PC : Fld := ⟨0x40007008, 1, 31⟩
def fCANTENTRY_ALL : Fld := ⟨0x40007008, 0, 32⟩
def rCANTVBASE : Nat := 0x4000700C
def fCANTVBASE_BASE : Fld := ⟨0x4000700C, 5, 27⟩
def fCANTVBASE_ALL : Fld := ⟨0x4000700C, 0, 32⟩
def rCANTXCTL : Nat := 0x40007010
def fCANTXCTL_SVC : Fld := ⟨0x40007010, 0, 8⟩
def fCANTXCTL_DONE : Fld := ⟨0x40007010, 8, 1⟩
def rCANTXARG (n : Nat) : Nat := 0x40007014 + 4 * n
def fCANTXARG_ARG (n : Nat) : Fld := ⟨rCANTXARG n, 0, 32⟩
def rCANTXRES (n : Nat) : Nat := 0x40007024 + 4 * n
def fCANTXRES_RES (n : Nat) : Fld := ⟨rCANTXRES n, 0, 32⟩
def rOFFSTAT : Nat := 0x40007034
def fOFFSTAT_SLOT : Fld := ⟨0x40007034, 0, 4⟩
def fOFFSTAT_RUNNING : Fld := ⟨0x40007034, 4, 1⟩
def fOFFSTAT_PENDING : Fld := ⟨0x40007034, 5, 1⟩
def fOFFSTAT_TIMEOUT : Fld := ⟨0x40007034, 6, 1⟩
def fOFFSTAT_FAULT : Fld := ⟨0x40007034, 7, 1⟩
def rCANTFAULT : Nat := 0x40007038
def fCANTFAULT_CAUSE : Fld := ⟨0x40007038, 0, 32⟩
def rCANTFAULTPC : Nat := 0x4000703C
def fCANTFAULTPC_PC : Fld := ⟨0x4000703C, 0, 32⟩
-- Block 8: Walk drive (R181)

def rWDCTL : Nat := 0x40008000
def fWDCTL_EN : Fld := ⟨0x40008000, 0, 1⟩
def fWDCTL_RATE : Fld := ⟨0x40008000, 1, 2⟩
def fWDCTL_BABCUT : Fld := ⟨0x40008000, 3, 1⟩
def fWDCTL_RETRY : Fld := ⟨0x40008000, 4, 1⟩
def fWDCTL_ILIM : Fld := ⟨0x40008000, 8, 6⟩
def rWDSTAT : Nat := 0x40008004
def fWDSTAT_ON : Fld := ⟨0x40008004, 0, 1⟩
def fWDSTAT_LIMIT : Fld := ⟨0x40008004, 1, 1⟩
def fWDSTAT_WSUPOK : Fld := ⟨0x40008004, 2, 1⟩
def fWDSTAT_STARTING : Fld := ⟨0x40008004, 3, 1⟩
def fWDSTAT_RATENOW : Fld := ⟨0x40008004, 4, 2⟩
def rWDFLAG : Nat := 0x40008008
def fWDFLAG_SHORT : Fld := ⟨0x40008008, 0, 1⟩
def fWDFLAG_HARDTRIP : Fld := ⟨0x40008008, 1, 1⟩
def fWDFLAG_STARTFAIL : Fld := ⟨0x40008008, 2, 1⟩
def fWDFLAG_WSUPLOW : Fld := ⟨0x40008008, 3, 1⟩
def fWDFLAG_WSUPOV : Fld := ⟨0x40008008, 4, 1⟩
def fWDFLAG_STRAY : Fld := ⟨0x40008008, 5, 1⟩
def fWDFLAG_BABBLE : Fld := ⟨0x40008008, 6, 1⟩
def fWDFLAG_CONTEST : Fld := ⟨0x40008008, 7, 1⟩
def fWDFLAG_REFUSED : Fld := ⟨0x40008008, 8, 1⟩
def rWDIE : Nat := 0x4000800C
def fWDIE_IE : Fld := ⟨0x4000800C, 0, 9⟩
def rWDMON : Nat := 0x40008010
def fWDMON_VWALK : Fld := ⟨0x40008010, 0, 10⟩
def fWDMON_IWALK : Fld := ⟨0x40008010, 16, 10⟩
def rWDCNT : Nat := 0x40008014
def fWDCNT_SHORTS : Fld := ⟨0x40008014, 0, 8⟩
def fWDCNT_BABBLE : Fld := ⟨0x40008014, 8, 8⟩
-- Block 9: Walk attachment (R181)

def rLASTAT : Nat := 0x40009000
def fLASTAT_POL : Fld := ⟨0x40009000, 0, 1⟩
def fLASTAT_RATE : Fld := ⟨0x40009000, 1, 2⟩
def fLASTAT_LOCK : Fld := ⟨0x40009000, 3, 1⟩
def fLASTAT_TXLOCKOUT : Fld := ⟨0x40009000, 4, 1⟩
def fLASTAT_SWING : Fld := ⟨0x40009000, 8, 8⟩
def rLAFLAG : Nat := 0x40009004
def fLAFLAG_JABBER : Fld := ⟨0x40009004, 0, 1⟩
def fLAFLAG_STUCK : Fld := ⟨0x40009004, 1, 1⟩
def fLAFLAG_SWINGLOW : Fld := ⟨0x40009004, 2, 1⟩
def fLAFLAG_POLCHG : Fld := ⟨0x40009004, 3, 1⟩
def fLAFLAG_RATECHG : Fld := ⟨0x40009004, 4, 1⟩
def rLAIE : Nat := 0x40009008
def fLAIE_IE : Fld := ⟨0x40009008, 0, 5⟩
def rLACNT : Nat := 0x4000900C
def fLACNT_JABCNT : Fld := ⟨0x4000900C, 0, 8⟩
-- Block 10: Lectern jack (R181)

def rLJSTAT : Nat := 0x4000A000
def fLJSTAT_PRESENT : Fld := ⟨0x4000A000, 0, 1⟩
def fLJSTAT_OV : Fld := ⟨0x4000A000, 1, 1⟩
def fLJSTAT_PLUG : Fld := ⟨0x4000A000, 8, 1⟩
def fLJSTAT_UNPLUG : Fld := ⟨0x4000A000, 9, 1⟩
def fLJSTAT_OVF : Fld := ⟨0x4000A000, 10, 1⟩
def fLJSTAT_PLUGIE : Fld := ⟨0x4000A000, 16, 1⟩
def fLJSTAT_UNPLUGIE : Fld := ⟨0x4000A000, 17, 1⟩
def fLJSTAT_OVIE : Fld := ⟨0x4000A000, 18, 1⟩
-- Block 11: Line protocol (R211)

def rLPCTL : Nat := 0x4000B000
def fLPCTL_AUTOROLL : Fld := ⟨0x4000B000, 0, 1⟩
def fLPCTL_MUSTER : Fld := ⟨0x4000B000, 1, 1⟩
def fLPCTL_SWOFS : Fld := ⟨0x4000B000, 8, 5⟩
def rLPSTAT : Nat := 0x4000B004
def fLPSTAT_TRACK : Fld := ⟨0x4000B004, 0, 1⟩
def fLPSTAT_SYNC : Fld := ⟨0x4000B004, 1, 1⟩
def fLPSTAT_HOLD : Fld := ⟨0x4000B004, 2, 1⟩
def fLPSTAT_OWE : Fld := ⟨0x4000B004, 3, 1⟩
def fLPSTAT_ROLLING : Fld := ⟨0x4000B004, 4, 1⟩
def rLPFLAG : Nat := 0x4000B008
def fLPFLAG_BMISS : Fld := ⟨0x4000B008, 0, 1⟩
def fLPFLAG_SYNCLOST : Fld := ⟨0x4000B008, 1, 1⟩
def fLPFLAG_REVOKED : Fld := ⟨0x4000B008, 2, 1⟩
def fLPFLAG_ADDRCLR : Fld := ⟨0x4000B008, 3, 1⟩
def fLPFLAG_NEWCOMER : Fld := ⟨0x4000B008, 4, 1⟩
def fLPFLAG_ABSENT : Fld := ⟨0x4000B008, 5, 1⟩
def fLPFLAG_CONFLICT : Fld := ⟨0x4000B008, 6, 1⟩
def fLPFLAG_RATEREV : Fld := ⟨0x4000B008, 7, 1⟩
def rLPIE : Nat := 0x4000B00C
def fLPIE_IE : Fld := ⟨0x4000B00C, 0, 8⟩
def rLPTIMEL : Nat := 0x4000B010
def fLPTIMEL_TIME : Fld := ⟨0x4000B010, 0, 32⟩
def rLPTIMEH : Nat := 0x4000B014
def fLPTIMEH_TIME : Fld := ⟨0x4000B014, 0, 16⟩
def fLPTIMEH_FRAC : Fld := ⟨0x4000B014, 16, 13⟩
def rLPPROP : Nat := 0x4000B018
def fLPPROP_PROP : Fld := ⟨0x4000B018, 0, 16⟩
def fLPPROP_VALID : Fld := ⟨0x4000B018, 16, 1⟩
def rLPTERR : Nat := 0x4000B01C
def fLPTERR_PHASE : Fld := ⟨0x4000B01C, 0, 16⟩
def fLPTERR_RATE : Fld := ⟨0x4000B01C, 16, 16⟩
def rLPSYSID : Nat := 0x4000B020
def fLPSYSID_SYSTEM : Fld := ⟨0x4000B020, 0, 32⟩
def rLPCNT : Nat := 0x4000B024
def fLPCNT_CRCERR : Fld := ⟨0x4000B024, 0, 8⟩
def fLPCNT_BMISS : Fld := ⟨0x4000B024, 8, 8⟩
def fLPCNT_RESEND : Fld := ⟨0x4000B024, 16, 8⟩
-- Block 12: Host link (R231)

def rHLCTL : Nat := 0x4000C000
def fHLCTL_CFGRDY : Fld := ⟨0x4000C000, 0, 1⟩
def fHLCTL_WINEN : Fld := ⟨0x4000C000, 1, 1⟩
def rHLSTAT : Nat := 0x4000C004
def fHLSTAT_LINKUP : Fld := ⟨0x4000C004, 0, 1⟩
def fHLSTAT_GEN2 : Fld := ⟨0x4000C004, 1, 1⟩
def fHLSTAT_LPM : Fld := ⟨0x4000C004, 2, 2⟩
def fHLSTAT_D3 : Fld := ⟨0x4000C004, 4, 1⟩
def fHLSTAT_REFOK : Fld := ⟨0x4000C004, 5, 1⟩
def fHLSTAT_SCRRDY : Fld := ⟨0x4000C004, 6, 1⟩
def rHLFLAG : Nat := 0x4000C008
def fHLFLAG_PERST : Fld := ⟨0x4000C008, 0, 1⟩
def fHLFLAG_HOTRST : Fld := ⟨0x4000C008, 1, 1⟩
def fHLFLAG_FLR : Fld := ⟨0x4000C008, 2, 1⟩
def fHLFLAG_LINKDOWN : Fld := ⟨0x4000C008, 3, 1⟩
def fHLFLAG_REFLOST : Fld := ⟨0x4000C008, 4, 1⟩
def fHLFLAG_TRAINFAIL : Fld := ⟨0x4000C008, 5, 1⟩
def fHLFLAG_WINERR : Fld := ⟨0x4000C008, 6, 1⟩
def fHLFLAG_DBFMT : Fld := ⟨0x4000C008, 7, 1⟩
def fHLFLAG_AERCOR : Fld := ⟨0x4000C008, 8, 1⟩
def fHLFLAG_AERUNC : Fld := ⟨0x4000C008, 9, 1⟩
def rHLIE : Nat := 0x4000C00C
def fHLIE_IE : Fld := ⟨0x4000C00C, 0, 10⟩
def rHLWBASEL : Nat := 0x4000C010
def fHLWBASEL_BASE : Fld := ⟨0x4000C010, 28, 4⟩
def rHLWBASEH : Nat := 0x4000C014
def fHLWBASEH_BASE : Fld := ⟨0x4000C014, 0, 32⟩
def rHLWERR : Nat := 0x4000C018
def fHLWERR_OFFSET : Fld := ⟨0x4000C018, 0, 28⟩
def fHLWERR_WRITE : Fld := ⟨0x4000C018, 31, 1⟩
def rHLCNT : Nat := 0x4000C01C
def fHLCNT_LINKDN : Fld := ⟨0x4000C01C, 0, 8⟩
def fHLCNT_RETRAIN : Fld := ⟨0x4000C01C, 8, 8⟩
def rHLSSID : Nat := 0x4000C020
def fHLSSID_SSVID : Fld := ⟨0x4000C020, 0, 16⟩
def fHLSSID_SSID : Fld := ⟨0x4000C020, 16, 16⟩
-- Block 13: Scriptorium (R254)

def rSCRTBASEL : Nat := 0x4000D000
def fSCRTBASEL_BASE : Fld := ⟨0x4000D000, 12, 20⟩
def rSCRTBASEH : Nat := 0x4000D004
def fSCRTBASEH_BASE : Fld := ⟨0x4000D004, 0, 32⟩
def rSCSTAT : Nat := 0x4000D008
def fSCSTAT_ENABLED : Fld := ⟨0x4000D008, 0, 14⟩
def fSCSTAT_FAILED : Fld := ⟨0x4000D008, 16, 1⟩
def rSCFLAG : Nat := 0x4000D00C
def fSCFLAG_DBBAD : Fld := ⟨0x4000D00C, 0, 1⟩
def fSCFLAG_DBOFF : Fld := ⟨0x4000D00C, 1, 1⟩
def fSCFLAG_HALT : Fld := ⟨0x4000D00C, 2, 1⟩
def fSCFLAG_LANERET : Fld := ⟨0x4000D00C, 3, 1⟩
def fSCFLAG_SCRFAIL : Fld := ⟨0x4000D00C, 4, 1⟩
def rSCLANE : Nat := 0x4000D010
def fSCLANE_FENCED : Fld := ⟨0x4000D010, 0, 8⟩
def fSCLANE_CAUSE : Fld := ⟨0x4000D010, 8, 8⟩
def rSCTAG : Nat := 0x4000D014
def fSCTAG_FREE : Fld := ⟨0x4000D014, 0, 11⟩
def fSCTAG_RELEASING : Fld := ⟨0x4000D014, 16, 11⟩
def rSCCNT : Nat := 0x4000D018
def fSCCNT_REPLAYED : Fld := ⟨0x4000D018, 0, 16⟩
def fSCCNT_LOST : Fld := ⟨0x4000D018, 16, 16⟩
def rSCIE : Nat := 0x4000D01C
def fSCIE_IE : Fld := ⟨0x4000D01C, 0, 5⟩
-- Block 14: Memory control (R349, R375)

def rMRSTAT : Nat := 0x4000E000
def fMRSTAT_BUSY0 : Fld := ⟨0x4000E000, 0, 1⟩
def fMRSTAT_BUSY1 : Fld := ⟨0x4000E000, 1, 1⟩
def fMRSTAT_UP0 : Fld := ⟨0x4000E000, 2, 1⟩
def fMRSTAT_UP1 : Fld := ⟨0x4000E000, 3, 1⟩
def rMRFLAG : Nat := 0x4000E004
def fMRFLAG_CORR : Fld := ⟨0x4000E004, 0, 1⟩
def fMRFLAG_UNCORR : Fld := ⟨0x4000E004, 1, 1⟩
def fMRFLAG_PROT : Fld := ⟨0x4000E004, 2, 1⟩
def rMRIE : Nat := 0x4000E008
def fMRIE_IE : Fld := ⟨0x4000E008, 0, 3⟩
def rMRERRADDR : Nat := 0x4000E00C
def fMRERRADDR_ADDR : Fld := ⟨0x4000E00C, 0, 32⟩
def rMRCNT : Nat := 0x4000E010
def fMRCNT_CORR : Fld := ⟨0x4000E010, 0, 16⟩
def fMRCNT_UNCORR : Fld := ⟨0x4000E010, 16, 16⟩
def rMRSEGSAC : Nat := 0x4000E014
def fMRSEGSAC_SAC : Fld := ⟨0x4000E014, 0, 32⟩
def rMRSEGNRO : Nat := 0x4000E018
def fMRSEGNRO_NRO : Fld := ⟨0x4000E018, 0, 32⟩
def rCOHPTR : Nat := 0x4000E020
def fCOHPTR_SRAMPTR : Fld := ⟨0x4000E020, 0, 2⟩
def fCOHPTR_SSRAMPTR : Fld := ⟨0x4000E020, 2, 2⟩
def fCOHPTR_MRAMPTR : Fld := ⟨0x4000E020, 4, 2⟩
def fCOHPTR_ROMPTR : Fld := ⟨0x4000E020, 6, 2⟩
def rCOHFLAG : Nat := 0x4000E024
def fCOHFLAG_DIRTYPAR : Fld := ⟨0x4000E024, 0, 1⟩
def fCOHFLAG_DIRTYLOST : Fld := ⟨0x4000E024, 1, 1⟩
def fCOHFLAG_SETWAY : Fld := ⟨0x4000E024, 8, 5⟩
def rCOHIE : Nat := 0x4000E028
def fCOHIE_IE : Fld := ⟨0x4000E028, 0, 2⟩
def rCOHCNT : Nat := 0x4000E02C
def fCOHCNT_CLEAN0 : Fld := ⟨0x4000E02C, 0, 8⟩
def fCOHCNT_CLEAN1 : Fld := ⟨0x4000E02C, 8, 8⟩
def fCOHCNT_CLEAN2 : Fld := ⟨0x4000E02C, 16, 8⟩
-- Block 15: Sample buffer windows (R350)

def rSBWCFG (n : Nat) : Nat := 0x4000F000 + 32 * n
def fSBWCFG_EN (n : Nat) : Fld := ⟨rSBWCFG n, 0, 1⟩
def fSBWCFG_BASE (n : Nat) : Fld := ⟨rSBWCFG n, 5, 11⟩
def fSBWCFG_THRESH (n : Nat) : Fld := ⟨rSBWCFG n, 17, 12⟩
def rSBWSIZE (n : Nat) : Nat := 0x4000F004 + 32 * n
def fSBWSIZE_SIZE (n : Nat) : Fld := ⟨rSBWSIZE n, 5, 12⟩
def rSBWWP (n : Nat) : Nat := 0x4000F008 + 32 * n
def fSBWWP_WP (n : Nat) : Fld := ⟨rSBWWP n, 0, 18⟩
def rSBWRP (n : Nat) : Nat := 0x4000F00C + 32 * n
def fSBWRP_RP (n : Nat) : Fld := ⟨rSBWRP n, 0, 18⟩
def rSBWFILL (n : Nat) : Nat := 0x4000F010 + 32 * n
def fSBWFILL_FILLED (n : Nat) : Fld := ⟨rSBWFILL n, 0, 17⟩
def rSBWRES (n : Nat) : Nat := 0x4000F014 + 32 * n
def fSBWRES_RESERVED (n : Nat) : Fld := ⟨rSBWRES n, 0, 17⟩
def rSBWDROP (n : Nat) : Nat := 0x4000F018 + 32 * n
def fSBWDROP_DROPPED (n : Nat) : Fld := ⟨rSBWDROP n, 0, 16⟩
def rSBFLAG : Nat := 0x4000F080
def fSBFLAG_FILL : Fld := ⟨0x4000F080, 0, 3⟩
def fSBFLAG_DROP : Fld := ⟨0x4000F080, 3, 3⟩
def fSBFLAG_WRPROT : Fld := ⟨0x4000F080, 6, 1⟩
def fSBFLAG_RPBAD : Fld := ⟨0x4000F080, 7, 1⟩
def fSBFLAG_CFGBUSY : Fld := ⟨0x4000F080, 8, 1⟩
def fSBFLAG_CFGERR : Fld := ⟨0x4000F080, 9, 1⟩
def fSBFLAG_LOST : Fld := ⟨0x4000F080, 10, 1⟩
def rSBIE : Nat := 0x4000F084
def fSBIE_IE : Fld := ⟨0x4000F084, 0, 11⟩
-- Block 16: Sacristy (R400)

def rSACSTAT : Nat := 0x40010000
def fSACSTAT_HELD : Fld := ⟨0x40010000, 0, 1⟩
def fSACSTAT_SEALDEAD : Fld := ⟨0x40010000, 1, 1⟩
def fSACSTAT_LIFECYCLE : Fld := ⟨0x40010000, 8, 2⟩
def fSACSTAT_MISSED : Fld := ⟨0x40010000, 16, 16⟩
def rSACCLAIM : Nat := 0x40010004
def fSACCLAIM_CLAIM : Fld := ⟨0x40010004, 0, 32⟩
def rSACDEFER : Nat := 0x40010008
def fSACDEFER_DEFER : Fld := ⟨0x40010008, 0, 31⟩
def fSACDEFER_RST : Fld := ⟨0x40010008, 31, 1⟩
def rSACFLAG : Nat := 0x4001000C
def fSACFLAG_CLAIMREF : Fld := ⟨0x4001000C, 0, 1⟩
def fSACFLAG_ENGBUSY : Fld := ⟨0x4001000C, 1, 1⟩
def fSACFLAG_DONE : Fld := ⟨0x4001000C, 2, 1⟩
def fSACFLAG_ENGERR : Fld := ⟨0x4001000C, 3, 1⟩
def fSACFLAG_RNGFAIL : Fld := ⟨0x4001000C, 4, 1⟩
def fSACFLAG_VLDROP : Fld := ⟨0x4001000C, 5, 1⟩
def rSACIE : Nat := 0x40010010
def fSACIE_IE : Fld := ⟨0x40010010, 0, 6⟩
def rSACVLOG (n : Nat) : Nat := 0x40010014 + 4 * n
def fSACVLOG_ENTRY (n : Nat) : Fld := ⟨rSACVLOG n, 0, 32⟩
def rSACDBG : Nat := 0x40010024
def fSACDBG_LEVEL : Fld := ⟨0x40010024, 0, 2⟩
def rSACENG : Nat := 0x40010040
def fSACENG_CMD : Fld := ⟨0x40010040, 0, 3⟩
def fSACENG_GO : Fld := ⟨0x40010040, 3, 1⟩
def fSACENG_BUSY : Fld := ⟨0x40010040, 4, 1⟩
def fSACENG_KEYSEL : Fld := ⟨0x40010040, 8, 4⟩
def rSACSRC : Nat := 0x40010044
def fSACSRC_OFFSET : Fld := ⟨0x40010044, 0, 15⟩
def rSACDST : Nat := 0x40010048
def fSACDST_OFFSET : Fld := ⟨0x40010048, 0, 15⟩
def rSACLEN : Nat := 0x4001004C
def fSACLEN_LEN : Fld := ⟨0x4001004C, 0, 16⟩
def rSACOTP : Nat := 0x40010050
def fSACOTP_ADDR : Fld := ⟨0x40010050, 0, 10⟩
def fSACOTP_DATA : Fld := ⟨0x40010050, 16, 8⟩
def fSACOTP_PROG : Fld := ⟨0x40010050, 31, 1⟩
-- Block 17: Sensor front end (R421)

def rSFECTL : Nat := 0x40011000
def fSFECTL_EN : Fld := ⟨0x40011000, 0, 1⟩
def fSFECTL_MODE : Fld := ⟨0x40011000, 1, 1⟩
def fSFECTL_TRIG : Fld := ⟨0x40011000, 2, 2⟩
def fSFECTL_LATEDROP : Fld := ⟨0x40011000, 4, 1⟩
def fSFECTL_NSLOT : Fld := ⟨0x40011000, 5, 3⟩
def fSFECTL_REJ : Fld := ⟨0x40011000, 8, 1⟩
def fSFECTL_SEALDIV : Fld := ⟨0x40011000, 16, 8⟩
def rSFERATE : Nat := 0x40011004
def fSFERATE_N : Fld := ⟨0x40011004, 0, 14⟩
def fSFERATE_REJRATE : Fld := ⟨0x40011004, 16, 2⟩
def rSFEPER : Nat := 0x40011008
def fSFEPER_PER : Fld := ⟨0x40011008, 0, 32⟩
def rSFETL : Nat := 0x4001100C
def fSFETL_TIME : Fld := ⟨0x4001100C, 0, 32⟩
def rSFETH : Nat := 0x40011010
def fSFETH_TIME : Fld := ⟨0x40011010, 0, 16⟩
def fSFETH_ARM : Fld := ⟨0x40011010, 16, 1⟩
def fSFETH_LATE : Fld := ⟨0x40011010, 17, 1⟩
def rSFEGO : Nat := 0x40011014
def fSFEGO_GO : Fld := ⟨0x40011014, 0, 1⟩
def rSFESTAT : Nat := 0x40011018
def fSFESTAT_RUN : Fld := ⟨0x40011018, 0, 1⟩
def fSFESTAT_SCANBUSY : Fld := ⟨0x40011018, 1, 1⟩
def fSFESTAT_HELD : Fld := ⟨0x40011018, 2, 1⟩
def fSFESTAT_EXCON : Fld := ⟨0x40011018, 3, 1⟩
def fSFESTAT_RANGE : Fld := ⟨0x40011018, 4, 3⟩
def rSFEFLAG : Nat := 0x4001101C
def fSFEFLAG_OPEN : Fld := ⟨0x4001101C, 0, 1⟩
def fSFEFLAG_EXCLO : Fld := ⟨0x4001101C, 1, 1⟩
def fSFEFLAG_EXCHI : Fld := ⟨0x4001101C, 2, 1⟩
def fSFEFLAG_EXCOFF : Fld := ⟨0x4001101C, 3, 1⟩
def fSFEFLAG_VEXSBAD : Fld := ⟨0x4001101C, 4, 1⟩
def fSFEFLAG_REFLOW : Fld := ⟨0x4001101C, 5, 1⟩
def fSFEFLAG_VDDA : Fld := ⟨0x4001101C, 6, 1⟩
def fSFEFLAG_OVERRUN : Fld := ⟨0x4001101C, 7, 1⟩
def fSFEFLAG_LATE : Fld := ⟨0x4001101C, 8, 1⟩
def fSFEFLAG_CONVTMO : Fld := ⟨0x4001101C, 9, 1⟩
def fSFEFLAG_HELD : Fld := ⟨0x4001101C, 10, 1⟩
def fSFEFLAG_CQSAT : Fld := ⟨0x4001101C, 11, 1⟩
def fSFEFLAG_CALDONE : Fld := ⟨0x4001101C, 12, 1⟩
def fSFEFLAG_CFGBUSY : Fld := ⟨0x4001101C, 13, 1⟩
def rSFEIE : Nat := 0x40011020
def fSFEIE_IE : Fld := ⟨0x40011020, 0, 14⟩
def rSFEEXC : Nat := 0x40011024
def fSFEEXC_EN : Fld := ⟨0x40011024, 0, 1⟩
def fSFEEXC_LEVEL : Fld := ⟨0x40011024, 1, 1⟩
def fSFEEXC_PULSE : Fld := ⟨0x40011024, 2, 1⟩
def fSFEEXC_WINLO : Fld := ⟨0x40011024, 4, 10⟩
def fSFEEXC_WINHI : Fld := ⟨0x40011024, 16, 10⟩
def rSFEMON : Nat := 0x40011028
def fSFEMON_IEXC : Fld := ⟨0x40011028, 0, 10⟩
def fSFEMON_VEXS : Fld := ⟨0x40011028, 16, 12⟩
def rSFELATE : Nat := 0x4001102C
def fSFELATE_LATE : Fld := ⟨0x4001102C, 0, 32⟩
def rSFECQ : Nat := 0x40011030
def fSFECQ_EN : Fld := ⟨0x40011030, 0, 1⟩
def fSFECQ_CF : Fld := ⟨0x40011030, 1, 2⟩
def fSFECQ_BLEED : Fld := ⟨0x40011030, 3, 1⟩
def fSFECQ_RST : Fld := ⟨0x40011030, 4, 1⟩
def fSFECQ_AUTORST : Fld := ⟨0x40011030, 5, 1⟩
def rSFESCANCNT : Nat := 0x40011034
def fSFESCANCNT_COUNT : Fld := ⟨0x40011034, 0, 32⟩
def rSFESLOT (n : Nat) : Nat := 0x40011040 + 4 * n
def fSFESLOT_INP (n : Nat) : Fld := ⟨rSFESLOT n, 0, 3⟩
def fSFESLOT_REF (n : Nat) : Fld := ⟨rSFESLOT n, 4, 2⟩
def fSFESLOT_GAIN (n : Nat) : Fld := ⟨rSFESLOT n, 8, 3⟩
def fSFESLOT_AUTO (n : Nat) : Fld := ⟨rSFESLOT n, 11, 1⟩
def fSFESLOT_BURN (n : Nat) : Fld := ⟨rSFESLOT n, 12, 2⟩
def fSFESLOT_SEAL (n : Nat) : Fld := ⟨rSFESLOT n, 14, 1⟩
def rSFELAST (n : Nat) : Nat := 0x40011060 + 4 * n
def fSFELAST_WORD (n : Nat) : Fld := ⟨rSFELAST n, 0, 32⟩
def rSFEOFS (n : Nat) : Nat := 0x40011080 + 4 * n
def fSFEOFS_OFS (n : Nat) : Fld := ⟨rSFEOFS n, 0, 24⟩
-- Block 18: Loop output (R435)

def rLOOPCTL : Nat := 0x40012000
def fLOOPCTL_EN : Fld := ⟨0x40012000, 0, 1⟩
def fLOOPCTL_FAULT : Fld := ⟨0x40012000, 1, 1⟩
def fLOOPCTL_FDIR : Fld := ⟨0x40012000, 2, 1⟩
def fLOOPCTL_MMFAULT : Fld := ⟨0x40012000, 3, 1⟩
def rLOOPSET : Nat := 0x40012004
def fLOOPSET_CODE : Fld := ⟨0x40012004, 0, 16⟩
def rLOOPTMO : Nat := 0x40012008
def fLOOPTMO_TMO : Fld := ⟨0x40012008, 0, 12⟩
def rLOOPNOW : Nat := 0x4001200C
def fLOOPNOW_CODE : Fld := ⟨0x4001200C, 0, 16⟩
def fLOOPNOW_MODE : Fld := ⟨0x4001200C, 16, 2⟩
def rLOOPMEAS : Nat := 0x40012010
def fLOOPMEAS_MEAS : Fld := ⟨0x40012010, 0, 16⟩
def rLOOPSTAT : Nat := 0x40012014
def fLOOPSTAT_LOOPOK : Fld := ⟨0x40012014, 0, 1⟩
def fLOOPSTAT_FORCED : Fld := ⟨0x40012014, 1, 1⟩
def fLOOPSTAT_MISMATCH : Fld := ⟨0x40012014, 2, 1⟩
def rLOOPFLAG : Nat := 0x40012018
def fLOOPFLAG_SATLO : Fld := ⟨0x40012018, 0, 1⟩
def fLOOPFLAG_SATHI : Fld := ⟨0x40012018, 1, 1⟩
def fLOOPFLAG_TMO : Fld := ⟨0x40012018, 2, 1⟩
def fLOOPFLAG_MISMATCH : Fld := ⟨0x40012018, 3, 1⟩
def fLOOPFLAG_SRCFLT : Fld := ⟨0x40012018, 4, 1⟩
def fLOOPFLAG_FORCED : Fld := ⟨0x40012018, 5, 1⟩
def fLOOPFLAG_CALDONE : Fld := ⟨0x40012018, 6, 1⟩
def rLOOPIE : Nat := 0x4001201C
def fLOOPIE_IE : Fld := ⟨0x4001201C, 0, 7⟩
def rLOOPCALG : Nat := 0x40012020
def fLOOPCALG_GAIN : Fld := ⟨0x40012020, 0, 16⟩
def rLOOPCALO : Nat := 0x40012024
def fLOOPCALO_OFS : Fld := ⟨0x40012024, 0, 16⟩
-- Block 19: Font (R460)

def rFONTCTL : Nat := 0x40013000
def fFONTCTL_EN : Fld := ⟨0x40013000, 0, 1⟩
def fFONTCTL_ADAPT : Fld := ⟨0x40013000, 1, 1⟩
def fFONTCTL_FORCE : Fld := ⟨0x40013000, 2, 1⟩
def fFONTCTL_LEVEL : Fld := ⟨0x40013000, 3, 1⟩
def fFONTCTL_LATEDROP : Fld := ⟨0x40013000, 4, 1⟩
def fFONTCTL_OFFLOAD : Fld := ⟨0x40013000, 5, 1⟩
def fFONTCTL_MED : Fld := ⟨0x40013000, 6, 3⟩
def fFONTCTL_PAIRS : Fld := ⟨0x40013000, 12, 4⟩
def rFONTBURST : Nat := 0x40013004
def fFONTBURST_PER : Fld := ⟨0x40013004, 0, 9⟩
def fFONTBURST_NPULSE : Fld := ⟨0x40013004, 16, 6⟩
def fFONTBURST_GAIN : Fld := ⟨0x40013004, 24, 5⟩
def rFONTCAP : Nat := 0x40013008
def fFONTCAP_DELAY : Fld := ⟨0x40013008, 0, 12⟩
def fFONTCAP_LEN : Fld := ⟨0x40013008, 20, 8⟩
def fFONTCAP_LENR : Fld := ⟨0x40013008, 16, 12⟩
def fFONTCAP_GAP : Fld := ⟨0x40013008, 28, 4⟩
def rFONTDET : Nat := 0x4001300C
def fFONTDET_THR : Fld := ⟨0x4001300C, 0, 11⟩
def fFONTDET_TPLPRE : Fld := ⟨0x4001300C, 12, 8⟩
def fFONTDET_SRCHPRE : Fld := ⟨0x4001300C, 20, 9⟩
def rFONTPER : Nat := 0x40013010
def fFONTPER_FLOW : Fld := ⟨0x40013010, 0, 16⟩
def fFONTPER_IDLE : Fld := ⟨0x40013010, 16, 16⟩
def rFONTTHR : Nat := 0x40013014
def fFONTTHR_FLOWON : Fld := ⟨0x40013014, 0, 16⟩
def fFONTTHR_FLOWOFF : Fld := ⟨0x40013014, 16, 16⟩
def rFONTGUARD : Nat := 0x40013018
def fFONTGUARD_PWRTOL : Fld := ⟨0x40013018, 0, 8⟩
def fFONTGUARD_AMBIG : Fld := ⟨0x40013018, 8, 8⟩
def fFONTGUARD_EMPTYN : Fld := ⟨0x40013018, 16, 8⟩
def fFONTGUARD_SKIPN : Fld := ⟨0x40013018, 24, 8⟩
def rFONTTUNE : Nat := 0x4001301C
def fFONTTUNE_PWRREF : Fld := ⟨0x4001301C, 0, 16⟩
def fFONTTUNE_HOLD : Fld := ⟨0x4001301C, 16, 8⟩
def fFONTTUNE_TUNED : Fld := ⟨0x4001301C, 31, 1⟩
def rFONTTPL : Nat := 0x40013020
def fFONTTPL_BASE : Fld := ⟨0x40013020, 5, 11⟩
def fFONTTPL_ROWS : Fld := ⟨0x40013020, 16, 4⟩
def rFONTGEOL : Nat := 0x40013024
def fFONTGEOL_L : Fld := ⟨0x40013024, 0, 32⟩
def rFONTGEOX : Nat := 0x40013028
def fFONTGEOX_X : Fld := ⟨0x40013028, 0, 32⟩
def rFONTGEOD : Nat := 0x4001302C
def fFONTGEOD_D : Fld := ⟨0x4001302C, 0, 32⟩
def rFONTKF : Nat := 0x40013030
def fFONTKF_KF : Fld := ⟨0x40013030, 0, 32⟩
def rFONTT0 : Nat := 0x40013034
def fFONTT0_T0 : Fld := ⟨0x40013034, 0, 32⟩
def rFONTDT0 : Nat := 0x40013038
def fFONTDT0_DT0 : Fld := ⟨0x40013038, 0, 32⟩
def rFONTCAPW : Nat := 0x4001303C
def fFONTCAPW_CMIN : Fld := ⟨0x4001303C, 0, 12⟩
def fFONTCAPW_CMAX : Fld := ⟨0x4001303C, 16, 12⟩
def rFONTTL : Nat := 0x40013040
def fFONTTL_TIME : Fld := ⟨0x40013040, 0, 32⟩
def rFONTTH : Nat := 0x40013044
def fFONTTH_TIME : Fld := ⟨0x40013044, 0, 16⟩
def fFONTTH_ARM : Fld := ⟨0x40013044, 16, 1⟩
def fFONTTH_LATE : Fld := ⟨0x40013044, 17, 1⟩
def rFONTSTAT : Nat := 0x40013048
def fFONTSTAT_RUN : Fld := ⟨0x40013048, 0, 1⟩
def fFONTSTAT_FLOWCAD : Fld := ⟨0x40013048, 1, 1⟩
def fFONTSTAT_EMPTY : Fld := ⟨0x40013048, 2, 1⟩
def fFONTSTAT_ABSENT : Fld := ⟨0x40013048, 3, 1⟩
def fFONTSTAT_SHORT : Fld := ⟨0x40013048, 4, 1⟩
def fFONTSTAT_HELD : Fld := ⟨0x40013048, 5, 1⟩
def fFONTSTAT_SHOT : Fld := ⟨0x40013048, 6, 1⟩
def rFONTFLAG : Nat := 0x4001304C
def fFONTFLAG_ABSENT : Fld := ⟨0x4001304C, 0, 1⟩
def fFONTFLAG_SHORT : Fld := ⟨0x4001304C, 1, 1⟩
def fFONTFLAG_VBSTLOW : Fld := ⟨0x4001304C, 2, 1⟩
def fFONTFLAG_NOECHO : Fld := ⟨0x4001304C, 3, 1⟩
def fFONTFLAG_SAT : Fld := ⟨0x4001304C, 4, 1⟩
def fFONTFLAG_SKIP : Fld := ⟨0x4001304C, 5, 1⟩
def fFONTFLAG_EMPTY : Fld := ⟨0x4001304C, 6, 1⟩
def fFONTFLAG_LATE : Fld := ⟨0x4001304C, 7, 1⟩
def fFONTFLAG_OVERRUN : Fld := ⟨0x4001304C, 8, 1⟩
def fFONTFLAG_HELD : Fld := ⟨0x4001304C, 9, 1⟩
def fFONTFLAG_TOKSHORT : Fld := ⟨0x4001304C, 10, 1⟩
def fFONTFLAG_OFFTMO : Fld := ⟨0x4001304C, 11, 1⟩
def fFONTFLAG_CFGBUSY : Fld := ⟨0x4001304C, 12, 1⟩
def fFONTFLAG_TUNEDONE : Fld := ⟨0x4001304C, 13, 1⟩
def fFONTFLAG_FULL : Fld := ⟨0x4001304C, 14, 1⟩
def fFONTFLAG_EDGE : Fld := ⟨0x4001304C, 15, 1⟩
def rFONTIE : Nat := 0x40013050
def fFONTIE_IE : Fld := ⟨0x40013050, 0, 16⟩
def rFONTIMP : Nat := 0x40013054
def fFONTIMP_CAPU : Fld := ⟨0x40013054, 0, 12⟩
def fFONTIMP_CAPD : Fld := ⟨0x40013054, 16, 12⟩
def rFONTLATE : Nat := 0x40013058
def fFONTLATE_LATE : Fld := ⟨0x40013058, 0, 32⟩
def rFONTSHOT : Nat := 0x4001305C
def fFONTSHOT_NTHR : Fld := ⟨0x4001305C, 0, 12⟩
def fFONTSHOT_PWR : Fld := ⟨0x4001305C, 16, 12⟩
def rFONTSHOT2 : Nat := 0x40013060
def fFONTSHOT2_PEAK : Fld := ⟨0x40013060, 0, 12⟩
def fFONTSHOT2_SAT : Fld := ⟨0x40013060, 16, 1⟩
def rFONTRESFLOW : Nat := 0x40013070
def fFONTRESFLOW_FLOW : Fld := ⟨0x40013070, 0, 32⟩
def rFONTRESDT : Nat := 0x40013074
def fFONTRESDT_DT : Fld := ⟨0x40013074, 0, 32⟩
def rFONTRESTMEAN : Nat := 0x40013078
def fFONTRESTMEAN_TMEAN : Fld := ⟨0x40013078, 0, 32⟩
def rFONTRESVOLL : Nat := 0x4001307C
def fFONTRESVOLL_VOLL : Fld := ⟨0x4001307C, 0, 32⟩
def rFONTRESVOLH : Nat := 0x40013080
def fFONTRESVOLH_VOLH : Fld := ⟨0x40013080, 0, 32⟩
def rFONTRESSOUND : Nat := 0x40013084
def fFONTRESSOUND_SOUND : Fld := ⟨0x40013084, 0, 32⟩
def rFONTRESGAPMS : Nat := 0x40013088
def fFONTRESGAPMS_GAPMS : Fld := ⟨0x40013088, 0, 32⟩
def rFONTRESCOUNT : Nat := 0x4001308C
def fFONTRESCOUNT_COUNT : Fld := ⟨0x4001308C, 0, 32⟩
def rFONTRESSTAT : Nat := 0x40013090
def fFONTRESSTAT_VALID : Fld := ⟨0x40013090, 0, 1⟩
def fFONTRESSTAT_EMPTY : Fld := ⟨0x40013090, 1, 1⟩
def fFONTRESSTAT_WEAK : Fld := ⟨0x40013090, 2, 1⟩
def fFONTRESSTAT_NVALID : Fld := ⟨0x40013090, 4, 5⟩
def rFONTSEAL : Nat := 0x40013094
def fFONTSEAL_PERIOD : Fld := ⟨0x40013094, 0, 12⟩
def fFONTSEAL_SLOTA : Fld := ⟨0x40013094, 16, 3⟩
def fFONTSEAL_AEN : Fld := ⟨0x40013094, 19, 1⟩
def fFONTSEAL_SLOTB : Fld := ⟨0x40013094, 20, 3⟩
def fFONTSEAL_BEN : Fld := ⟨0x40013094, 23, 1⟩
def rFONTCNT : Nat := 0x40013098
def fFONTCNT_SKIP : Fld := ⟨0x40013098, 0, 8⟩
def fFONTCNT_SKIPFIX : Fld := ⟨0x40013098, 8, 8⟩
def fFONTCNT_INVALID : Fld := ⟨0x40013098, 16, 8⟩
def fFONTCNT_OFFTMO : Fld := ⟨0x40013098, 24, 8⟩
-- Block 20: Motion (R480)

def rMOTCTL : Nat := 0x40014000
def fMOTCTL_AEN : Fld := ⟨0x40014000, 0, 1⟩
def fMOTCTL_GEN : Fld := ⟨0x40014000, 1, 1⟩
def fMOTCTL_ALP : Fld := ⟨0x40014000, 2, 1⟩
def fMOTCTL_ODR : Fld := ⟨0x40014000, 3, 4⟩
def fMOTCTL_AFS : Fld := ⟨0x40014000, 8, 2⟩
def fMOTCTL_GFS : Fld := ⟨0x40014000, 10, 3⟩
def fMOTCTL_LATEDROP : Fld := ⟨0x40014000, 13, 1⟩
def fMOTCTL_HPK : Fld := ⟨0x40014000, 16, 3⟩
def fMOTCTL_LPK : Fld := ⟨0x40014000, 20, 3⟩
def fMOTCTL_INCLK : Fld := ⟨0x40014000, 24, 4⟩
def rMOTCAP : Nat := 0x40014004
def fMOTCAP_NCAP : Fld := ⟨0x40014004, 0, 24⟩
def rMOTTL : Nat := 0x40014008
def fMOTTL_TIME : Fld := ⟨0x40014008, 0, 32⟩
def rMOTTH : Nat := 0x4001400C
def fMOTTH_TIME : Fld := ⟨0x4001400C, 0, 16⟩
def fMOTTH_ARM : Fld := ⟨0x4001400C, 16, 1⟩
def fMOTTH_LATE : Fld := ⟨0x4001400C, 17, 1⟩
def rMOTGO : Nat := 0x40014010
def fMOTGO_GO : Fld := ⟨0x40014010, 0, 1⟩
def rMOTSTAT : Nat := 0x40014014
def fMOTSTAT_ARUN : Fld := ⟨0x40014014, 0, 1⟩
def fMOTSTAT_GRUN : Fld := ⟨0x40014014, 1, 1⟩
def fMOTSTAT_ARMED : Fld := ⟨0x40014014, 2, 1⟩
def fMOTSTAT_CAPRUN : Fld := ⟨0x40014014, 3, 1⟩
def fMOTSTAT_SPIRE : Fld := ⟨0x40014014, 4, 1⟩
def fMOTSTAT_WATCH : Fld := ⟨0x40014014, 5, 1⟩
def fMOTSTAT_INCLBAD : Fld := ⟨0x40014014, 6, 1⟩
def fMOTSTAT_SHED : Fld := ⟨0x40014014, 7, 1⟩
def rMOTFLAG : Nat := 0x40014018
def fMOTFLAG_SAT : Fld := ⟨0x40014018, 0, 1⟩
def fMOTFLAG_TMO : Fld := ⟨0x40014018, 1, 1⟩
def fMOTFLAG_STUCK : Fld := ⟨0x40014018, 2, 1⟩
def fMOTFLAG_LINK : Fld := ⟨0x40014018, 3, 1⟩
def fMOTFLAG_LATE : Fld := ⟨0x40014018, 4, 1⟩
def fMOTFLAG_NOTREADY : Fld := ⟨0x40014018, 5, 1⟩
def fMOTFLAG_CAPDONE : Fld := ⟨0x40014018, 6, 1⟩
def fMOTFLAG_INCLDONE : Fld := ⟨0x40014018, 7, 1⟩
def fMOTFLAG_STDONE : Fld := ⟨0x40014018, 8, 1⟩
def fMOTFLAG_STFAIL : Fld := ⟨0x40014018, 9, 1⟩
def fMOTFLAG_CFGBUSY : Fld := ⟨0x40014018, 10, 1⟩
def fMOTFLAG_HOT : Fld := ⟨0x40014018, 11, 1⟩
def fMOTFLAG_TIMING : Fld := ⟨0x40014018, 12, 1⟩
def rMOTIE : Nat := 0x4001401C
def fMOTIE_IE : Fld := ⟨0x4001401C, 0, 13⟩
def rMOTLATE : Nat := 0x40014020
def fMOTLATE_LATE : Fld := ⟨0x40014020, 0, 32⟩
def rMOTMISS : Nat := 0x40014024
def fMOTMISS_MISSED : Fld := ⟨0x40014024, 0, 16⟩
def rMOTINC (n : Nat) : Nat := 0x40014028 + 4 * n
def fMOTINC_MEAN (n : Nat) : Fld := ⟨rMOTINC n, 0, 32⟩
def rMOTTEMP : Nat := 0x40014034
def fMOTTEMP_TEMP : Fld := ⟨0x40014034, 0, 16⟩
def rMOTLASTA (n : Nat) : Nat := 0x40014038 + 4 * n
def fMOTLASTA_WORD (n : Nat) : Fld := ⟨rMOTLASTA n, 0, 32⟩
def rMOTLASTG (n : Nat) : Nat := 0x40014040 + 4 * n
def fMOTLASTG_WORD (n : Nat) : Fld := ⟨rMOTLASTG n, 0, 32⟩
def rMOTSTRES : Nat := 0x40014048
def fMOTSTRES_APASS : Fld := ⟨0x40014048, 0, 3⟩
def fMOTSTRES_GPASS : Fld := ⟨0x40014048, 3, 3⟩
-- Block 21: Ringers, recognisers, touch (R499)

def rRGCTL : Nat := 0x40015000
def fRGCTL_RUN : Fld := ⟨0x40015000, 0, 8⟩
def fRGCTL_LATEDROP : Fld := ⟨0x40015000, 8, 8⟩
def fRGCTL_REN : Fld := ⟨0x40015000, 16, 6⟩
def fRGCTL_EVMASK : Fld := ⟨0x40015000, 24, 4⟩
def rRGSTAT : Nat := 0x40015004
def fRGSTAT_RUNNING : Fld := ⟨0x40015004, 0, 8⟩
def fRGSTAT_WAITING : Fld := ⟨0x40015004, 8, 8⟩
def fRGSTAT_RATELOW : Fld := ⟨0x40015004, 16, 6⟩
def rRGFLAG : Nat := 0x40015008
def fRGFLAG_STOREBUSY : Fld := ⟨0x40015008, 0, 1⟩
def fRGFLAG_RUNAWAY : Fld := ⟨0x40015008, 1, 1⟩
def fRGFLAG_BADOP : Fld := ⟨0x40015008, 2, 1⟩
def fRGFLAG_LATE : Fld := ⟨0x40015008, 3, 1⟩
def fRGFLAG_TRIGMISS : Fld := ⟨0x40015008, 4, 1⟩
def fRGFLAG_RATE : Fld := ⟨0x40015008, 5, 1⟩
def fRGFLAG_EVDROP : Fld := ⟨0x40015008, 6, 1⟩
def fRGFLAG_WAKE : Fld := ⟨0x40015008, 7, 1⟩
def fRGFLAG_KNOCK : Fld := ⟨0x40015008, 8, 1⟩
def fRGFLAG_KNREJ : Fld := ⟨0x40015008, 9, 1⟩
def rRGIE : Nat := 0x4001500C
def fRGIE_IE : Fld := ⟨0x4001500C, 0, 10⟩
def rRGSHOCK : Nat := 0x40015010
def fRGSHOCK_X : Fld := ⟨0x40015010, 0, 8⟩
def fRGSHOCK_Y : Fld := ⟨0x40015010, 8, 8⟩
def fRGSHOCK_Z : Fld := ⟨0x40015010, 16, 8⟩
def rTAPCFG : Nat := 0x40015020
def fTAPCFG_THR : Fld := ⟨0x40015020, 0, 8⟩
def fTAPCFG_DUR : Fld := ⟨0x40015020, 8, 8⟩
def fTAPCFG_QUIET : Fld := ⟨0x40015020, 16, 8⟩
def fTAPCFG_AXIS : Fld := ⟨0x40015020, 24, 2⟩
def rDTAPCFG : Nat := 0x40015024
def fDTAPCFG_GAPMIN : Fld := ⟨0x40015024, 0, 12⟩
def fDTAPCFG_GAPMAX : Fld := ⟨0x40015024, 16, 12⟩
def rSTEPCFG : Nat := 0x40015028
def fSTEPCFG_STHR : Fld := ⟨0x40015028, 0, 8⟩
def fSTEPCFG_EVERY : Fld := ⟨0x40015028, 8, 8⟩
def rFFCFG : Nat := 0x4001502C
def fFFCFG_FFTHR : Fld := ⟨0x4001502C, 0, 8⟩
def fFFCFG_FFDUR : Fld := ⟨0x4001502C, 8, 8⟩
def rSETCFG : Nat := 0x40015030
def fSETCFG_SETHR : Fld := ⟨0x40015030, 0, 8⟩
def fSETCFG_SEDUR : Fld := ⟨0x40015030, 8, 8⟩
def rTILTCFG : Nat := 0x40015034
def fTILTCFG_TTHR : Fld := ⟨0x40015034, 0, 8⟩
def fTILTCFG_TDUR : Fld := ⟨0x40015034, 8, 8⟩
def fTILTCFG_TAU : Fld := ⟨0x40015034, 16, 4⟩
def rTILTREF (n : Nat) : Nat := 0x40015038 + 4 * n
def fTILTREF_REF (n : Nat) : Fld := ⟨rTILTREF n, 0, 32⟩
def rSTEPCNT : Nat := 0x40015044
def fSTEPCNT_COUNT : Fld := ⟨0x40015044, 0, 32⟩
def rKNCFG : Nat := 0x40015050
def fKNCFG_EN : Fld := ⟨0x40015050, 0, 1⟩
def fKNCFG_AXIS : Fld := ⟨0x40015050, 1, 2⟩
def fKNCFG_THREE : Fld := ⟨0x40015050, 3, 1⟩
def fKNCFG_THR : Fld := ⟨0x40015050, 8, 8⟩
def fKNCFG_DUR : Fld := ⟨0x40015050, 16, 8⟩
def fKNCFG_QUIET : Fld := ⟨0x40015050, 24, 8⟩
def rKNGAP : Nat := 0x40015054
def fKNGAP_GAPMIN : Fld := ⟨0x40015054, 0, 12⟩
def fKNGAP_GAPMAX : Fld := ⟨0x40015054, 16, 12⟩
def rKNHOLD : Nat := 0x40015058
def fKNHOLD_HOLD : Fld := ⟨0x40015058, 0, 8⟩
def fKNHOLD_GUARD : Fld := ⟨0x40015058, 8, 12⟩
def rKNCNT : Nat := 0x4001505C
def fKNCNT_KNOCKS : Fld := ⟨0x4001505C, 0, 16⟩
def fKNCNT_REJECTS : Fld := ⟨0x4001505C, 16, 16⟩
def rKNLASTL : Nat := 0x40015060
def fKNLASTL_TIME : Fld := ⟨0x40015060, 0, 32⟩
def rKNLASTH : Nat := 0x40015064
def fKNLASTH_TIME : Fld := ⟨0x40015064, 0, 16⟩
def rRGPC (n : Nat) : Nat := 0x40015080 + 32 * n
def fRGPC_PC (n : Nat) : Fld := ⟨rRGPC n, 0, 5⟩
def fRGPC_F (n : Nat) : Fld := ⟨rRGPC n, 8, 1⟩
def rRGC (n : Nat) : Nat := 0x40015084 + 32 * n
def fRGC_C0 (n : Nat) : Fld := ⟨rRGC n, 0, 16⟩
def fRGC_C1 (n : Nat) : Fld := ⟨rRGC n, 16, 16⟩
def rRGTL (n : Nat) : Nat := 0x40015088 + 32 * n
def fRGTL_TIME (n : Nat) : Fld := ⟨rRGTL n, 0, 32⟩
def rRGTH (n : Nat) : Nat := 0x4001508C + 32 * n
def fRGTH_TIME (n : Nat) : Fld := ⟨rRGTH n, 0, 16⟩
def fRGTH_ARM (n : Nat) : Fld := ⟨rRGTH n, 16, 1⟩
def fRGTH_LATE (n : Nat) : Fld := ⟨rRGTH n, 17, 1⟩
def rRGLATE (n : Nat) : Nat := 0x40015090 + 32 * n
def fRGLATE_LATE (n : Nat) : Fld := ⟨rRGLATE n, 0, 32⟩
def rRGMISS (n : Nat) : Nat := 0x40015094 + 32 * n
def fRGMISS_MISS (n : Nat) : Fld := ⟨rRGMISS n, 0, 16⟩
def rRGEMIT (n : Nat) : Nat := 0x40015098 + 32 * n
def fRGEMIT_IMM (n : Nat) : Fld := ⟨rRGEMIT n, 0, 8⟩
def rEVF (n : Nat) : Nat := 0x40015180 + 4 * n
def fEVF_WORD (n : Nat) : Fld := ⟨rEVF n, 0, 32⟩
def rEVFSTAT : Nat := 0x4001518C
def fEVFSTAT_COUNT : Fld := ⟨0x4001518C, 0, 7⟩
def fEVFSTAT_DROPPED : Fld := ⟨0x4001518C, 16, 16⟩
def rTCHCTL : Nat := 0x400151C0
def fTCHCTL_EN : Fld := ⟨0x400151C0, 0, 4⟩
def fTCHCTL_ENG : Fld := ⟨0x400151C0, 4, 3⟩
def fTCHCTL_SHIELD : Fld := ⟨0x400151C0, 7, 1⟩
def fTCHCTL_CINT : Fld := ⟨0x400151C0, 8, 2⟩
def fTCHCTL_ACC : Fld := ⟨0x400151C0, 10, 6⟩
def fTCHCTL_PERIOD : Fld := ⟨0x400151C0, 16, 10⟩
def rTCHCFG : Nat := 0x400151C4
def fTCHCFG_THR : Fld := ⟨0x400151C4, 0, 8⟩
def fTCHCFG_HYST : Fld := ⟨0x400151C4, 8, 8⟩
def fTCHCFG_DEB : Fld := ⟨0x400151C4, 16, 4⟩
def fTCHCFG_DRIFT : Fld := ⟨0x400151C4, 20, 4⟩
def fTCHCFG_MAXDUR : Fld := ⟨0x400151C4, 24, 8⟩
def rTCHLIM : Nat := 0x400151C8
def fTCHLIM_MIN : Fld := ⟨0x400151C8, 0, 16⟩
def fTCHLIM_MAX : Fld := ⟨0x400151C8, 16, 16⟩
def rTCHSTAT : Nat := 0x400151CC
def fTCHSTAT_TOUCHED : Fld := ⟨0x400151CC, 0, 4⟩
def fTCHSTAT_FAULT : Fld := ⟨0x400151CC, 4, 4⟩
def fTCHSTAT_CALIB : Fld := ⟨0x400151CC, 8, 4⟩
def rTCHFLAG : Nat := 0x400151D0
def fTCHFLAG_DOWN : Fld := ⟨0x400151D0, 0, 1⟩
def fTCHFLAG_UP : Fld := ⟨0x400151D0, 1, 1⟩
def fTCHFLAG_SHORT : Fld := ⟨0x400151D0, 2, 1⟩
def fTCHFLAG_TMO : Fld := ⟨0x400151D0, 3, 1⟩
def fTCHFLAG_RECAL : Fld := ⟨0x400151D0, 4, 1⟩
def fTCHFLAG_ENGBUSY : Fld := ⟨0x400151D0, 5, 1⟩
def rTCHIE : Nat := 0x400151D4
def fTCHIE_IE : Fld := ⟨0x400151D4, 0, 6⟩
def rTCHRAW (n : Nat) : Nat := 0x400151E0 + 4 * n
def fTCHRAW_COUNT (n : Nat) : Fld := ⟨rTCHRAW n, 0, 16⟩
def rTCHBASE (n : Nat) : Nat := 0x400151F0 + 4 * n
def fTCHBASE_BASE (n : Nat) : Fld := ⟨rTCHBASE n, 0, 16⟩
def rRGPROG (n : Nat) : Nat := 0x40015400 + 4 * n
def fRGPROG_WORD (n : Nat) : Fld := ⟨rRGPROG n, 0, 32⟩
-- Block 22: Choristers (R522)

def rCHCTL : Nat := 0x40016000
def fCHCTL_EN : Fld := ⟨0x40016000, 0, 8⟩
def fCHCTL_LATEDROP : Fld := ⟨0x40016000, 8, 8⟩
def fCHCTL_RESTART : Fld := ⟨0x40016000, 16, 8⟩
def fCHCTL_CLKSYNC : Fld := ⟨0x40016000, 24, 8⟩
def rCHSTAT : Nat := 0x40016004
def fCHSTAT_RUNNING : Fld := ⟨0x40016004, 0, 8⟩
def fCHSTAT_STALLED : Fld := ⟨0x40016004, 8, 8⟩
def fCHSTAT_SUSPENDED : Fld := ⟨0x40016004, 16, 8⟩
def fCHSTAT_INJPEND : Fld := ⟨0x40016004, 24, 8⟩
def rCHIRQ : Nat := 0x40016008
def fCHIRQ_FLAG : Fld := ⟨0x40016008, 0, 8⟩
def rCHIRQSET : Nat := 0x4001600C
def fCHIRQSET_FLAG : Fld := ⟨0x4001600C, 0, 8⟩
def rCHIRQEN : Nat := 0x40016010
def fCHIRQEN_EN : Fld := ⟨0x40016010, 0, 8⟩
def rCHSTARTL : Nat := 0x40016014
def fCHSTARTL_TIME : Fld := ⟨0x40016014, 0, 32⟩
def rCHSTARTH : Nat := 0x40016018
def fCHSTARTH_TIME : Fld := ⟨0x40016018, 0, 16⟩
def fCHSTARTH_ARM : Fld := ⟨0x40016018, 16, 1⟩
def fCHSTARTH_LATE : Fld := ⟨0x40016018, 17, 1⟩
def fCHSTARTH_LATEDROP : Fld := ⟨0x40016018, 18, 1⟩
def fCHSTARTH_MASK : Fld := ⟨0x40016018, 24, 8⟩
def rCHSTARTLATE : Nat := 0x4001601C
def fCHSTARTLATE_LATE : Fld := ⟨0x4001601C, 0, 32⟩
def rACTCNTL : Nat := 0x40016020
def fACTCNTL_COUNT : Fld := ⟨0x40016020, 0, 32⟩
def rACTCNTH : Nat := 0x40016024
def fACTCNTH_COUNT : Fld := ⟨0x40016024, 0, 16⟩
def fACTCNTH_SPIRE : Fld := ⟨0x40016024, 16, 1⟩
def rCHPADOWN (n : Nat) : Nat := 0x40016028 + 4 * n
def fCHPADOWN_OWN (n : Nat) : Fld := ⟨rCHPADOWN n, 0, 32⟩
def rCHSWOUT : Nat := 0x40016030
def fCHSWOUT_LEVEL : Fld := ⟨0x40016030, 0, 16⟩
def rCHSWOE : Nat := 0x40016034
def fCHSWOE_OE : Fld := ⟨0x40016034, 0, 16⟩
def rCHDIV (n : Nat) : Nat := 0x40016100 + 64 * n
def fCHDIV_FRAC (n : Nat) : Fld := ⟨rCHDIV n, 0, 8⟩
def fCHDIV_INT (n : Nat) : Fld := ⟨rCHDIV n, 8, 16⟩
def rCHCFG (n : Nat) : Nat := 0x40016104 + 64 * n
def fCHCFG_WRAPBOT (n : Nat) : Fld := ⟨rCHCFG n, 0, 5⟩
def fCHCFG_WRAPTOP (n : Nat) : Fld := ⟨rCHCFG n, 8, 5⟩
def fCHCFG_JOIN (n : Nat) : Fld := ⟨rCHCFG n, 16, 2⟩
def fCHCFG_STATN (n : Nat) : Fld := ⟨rCHCFG n, 20, 4⟩
def fCHCFG_JPIN (n : Nat) : Fld := ⟨rCHCFG n, 24, 5⟩
def rCHSHIFT (n : Nat) : Nat := 0x40016108 + 64 * n
def fCHSHIFT_OUTDIR (n : Nat) : Fld := ⟨rCHSHIFT n, 0, 1⟩
def fCHSHIFT_INDIR (n : Nat) : Fld := ⟨rCHSHIFT n, 1, 1⟩
def fCHSHIFT_AUTOPULL (n : Nat) : Fld := ⟨rCHSHIFT n, 2, 1⟩
def fCHSHIFT_AUTOPUSH (n : Nat) : Fld := ⟨rCHSHIFT n, 3, 1⟩
def fCHSHIFT_PULLTHR (n : Nat) : Fld := ⟨rCHSHIFT n, 8, 5⟩
def fCHSHIFT_PUSHTHR (n : Nat) : Fld := ⟨rCHSHIFT n, 16, 5⟩
def rCHPIN (n : Nat) : Nat := 0x4001610C + 64 * n
def fCHPIN_OUTBASE (n : Nat) : Fld := ⟨rCHPIN n, 0, 4⟩
def fCHPIN_OUTCNT (n : Nat) : Fld := ⟨rCHPIN n, 4, 5⟩
def fCHPIN_SETBASE (n : Nat) : Fld := ⟨rCHPIN n, 10, 5⟩
def fCHPIN_SETCNT (n : Nat) : Fld := ⟨rCHPIN n, 15, 3⟩
def fCHPIN_INBASE (n : Nat) : Fld := ⟨rCHPIN n, 18, 5⟩
def rCHTX (n : Nat) : Nat := 0x40016110 + 64 * n
def fCHTX_WORD (n : Nat) : Fld := ⟨rCHTX n, 0, 32⟩
def rCHRX (n : Nat) : Nat := 0x40016114 + 64 * n
def fCHRX_WORD (n : Nat) : Fld := ⟨rCHRX n, 0, 32⟩
def rCHLEVEL (n : Nat) : Nat := 0x40016118 + 64 * n
def fCHLEVEL_TXN (n : Nat) : Fld := ⟨rCHLEVEL n, 0, 4⟩
def fCHLEVEL_RXN (n : Nat) : Fld := ⟨rCHLEVEL n, 8, 4⟩
def rCHINJ (n : Nat) : Nat := 0x4001611C + 64 * n
def fCHINJ_INSTR (n : Nat) : Fld := ⟨rCHINJ n, 0, 16⟩
def rCHATL (n : Nat) : Nat := 0x40016120 + 64 * n
def fCHATL_AT (n : Nat) : Fld := ⟨rCHATL n, 0, 32⟩
def rCHATH (n : Nat) : Nat := 0x40016124 + 64 * n
def fCHATH_AT (n : Nat) : Fld := ⟨rCHATH n, 0, 16⟩
def fCHATH_LATE (n : Nat) : Fld := ⟨rCHATH n, 17, 1⟩
def rCHLATE (n : Nat) : Nat := 0x40016128 + 64 * n
def fCHLATE_LATE (n : Nat) : Fld := ⟨rCHLATE n, 0, 32⟩
def rCHSTALL (n : Nat) : Nat := 0x4001612C + 64 * n
def fCHSTALL_PC (n : Nat) : Fld := ⟨rCHSTALL n, 0, 5⟩
def fCHSTALL_OCNT (n : Nat) : Fld := ⟨rCHSTALL n, 8, 6⟩
def fCHSTALL_PART (n : Nat) : Fld := ⟨rCHSTALL n, 16, 5⟩
def fCHSTALL_KIND (n : Nat) : Fld := ⟨rCHSTALL n, 21, 3⟩
def fCHSTALL_SUSP (n : Nat) : Fld := ⟨rCHSTALL n, 24, 1⟩
def rCHFLAG (n : Nat) : Nat := 0x40016130 + 64 * n
def fCHFLAG_STOREBUSY (n : Nat) : Fld := ⟨rCHFLAG n, 0, 1⟩
def fCHFLAG_OVERRUN (n : Nat) : Fld := ⟨rCHFLAG n, 1, 1⟩
def fCHFLAG_UNDERRUN (n : Nat) : Fld := ⟨rCHFLAG n, 2, 1⟩
def fCHFLAG_LATE (n : Nat) : Fld := ⟨rCHFLAG n, 3, 1⟩
def fCHFLAG_INJBUSY (n : Nat) : Fld := ⟨rCHFLAG n, 4, 1⟩
def fCHFLAG_CFGBUSY (n : Nat) : Fld := ⟨rCHFLAG n, 5, 1⟩
def fCHFLAG_BADOP (n : Nat) : Fld := ⟨rCHFLAG n, 6, 1⟩
def fCHFLAG_PADBUSY (n : Nat) : Fld := ⟨rCHFLAG n, 7, 1⟩
def fCHFLAG_STALLTMO (n : Nat) : Fld := ⟨rCHFLAG n, 8, 1⟩
def rCHIE (n : Nat) : Nat := 0x40016134 + 64 * n
def fCHIE_IE (n : Nat) : Fld := ⟨rCHIE n, 0, 9⟩
def rCHCNT (n : Nat) : Nat := 0x40016138 + 64 * n
def fCHCNT_DROPPED (n : Nat) : Fld := ⟨rCHCNT n, 0, 16⟩
def fCHCNT_STALLTMO (n : Nat) : Fld := ⟨rCHCNT n, 16, 16⟩
def rCHXY (n : Nat) : Nat := 0x4001613C + 64 * n
def fCHXY_X (n : Nat) : Fld := ⟨rCHXY n, 0, 16⟩
def fCHXY_Y (n : Nat) : Fld := ⟨rCHXY n, 16, 16⟩
def rCHPROG (n : Nat) : Nat := 0x40016800 + 4 * n
def fCHPROG_INSTR (n : Nat) : Fld := ⟨rCHPROG n, 0, 16⟩
-- Block 23: Field I/O (R536)

def rFICTL : Nat := 0x40017000
def fFICTL_EN : Fld := ⟨0x40017000, 0, 4⟩
def fFICTL_TYPE : Fld := ⟨0x40017000, 4, 4⟩
def fFICTL_BRKEN : Fld := ⟨0x40017000, 8, 4⟩
def fFICTL_EDGE : Fld := ⟨0x40017000, 12, 8⟩
def fFICTL_FILT : Fld := ⟨0x40017000, 20, 8⟩
def rFISTAT : Nat := 0x40017004
def fFISTAT_STATE : Fld := ⟨0x40017004, 0, 4⟩
def fFISTAT_BREAK : Fld := ⟨0x40017004, 4, 4⟩
def fFISTAT_OV : Fld := ⟨0x40017004, 8, 4⟩
def fFISTAT_REV : Fld := ⟨0x40017004, 12, 4⟩
def rFIFLAG : Nat := 0x40017008
def fFIFLAG_CHG : Fld := ⟨0x40017008, 0, 4⟩
def fFIFLAG_BRK : Fld := ⟨0x40017008, 4, 4⟩
def fFIFLAG_OV : Fld := ⟨0x40017008, 8, 4⟩
def fFIFLAG_STUCK : Fld := ⟨0x40017008, 12, 4⟩
def fFIFLAG_REV : Fld := ⟨0x40017008, 16, 4⟩
def rFIIE : Nat := 0x4001700C
def fFIIE_IE : Fld := ⟨0x4001700C, 0, 20⟩
def rFISTUCK : Nat := 0x40017010
def fFISTUCK_TMO : Fld := ⟨0x40017010, 0, 32⟩
def rFICNT (n : Nat) : Nat := 0x40017020 + 4 * n
def fFICNT_COUNT (n : Nat) : Fld := ⟨rFICNT n, 0, 32⟩
def rFOCTL : Nat := 0x40017040
def fFOCTL_LEVEL : Fld := ⟨0x40017040, 0, 2⟩
def fFOCTL_ARM : Fld := ⟨0x40017040, 4, 2⟩
def fFOCTL_SAFE : Fld := ⟨0x40017040, 8, 2⟩
def fFOCTL_SAFELVL : Fld := ⟨0x40017040, 12, 2⟩
def fFOCTL_RETRY : Fld := ⟨0x40017040, 16, 2⟩
def fFOCTL_OLOFF : Fld := ⟨0x40017040, 20, 2⟩
def fFOCTL_SWKA : Fld := ⟨0x40017040, 24, 1⟩
def rFOSTAT : Nat := 0x40017044
def fFOSTAT_LATCH : Fld := ⟨0x40017044, 0, 2⟩
def fFOSTAT_ON : Fld := ⟨0x40017044, 4, 2⟩
def fFOSTAT_HELD : Fld := ⟨0x40017044, 8, 2⟩
def fFOSTAT_SAFED : Fld := ⟨0x40017044, 12, 2⟩
def fFOSTAT_LIMIT : Fld := ⟨0x40017044, 16, 2⟩
def fFOSTAT_VFLDOK : Fld := ⟨0x40017044, 20, 1⟩
def rFOFLAG : Nat := 0x40017048
def fFOFLAG_SHORT : Fld := ⟨0x40017048, 0, 2⟩
def fFOFLAG_THERM : Fld := ⟨0x40017048, 2, 2⟩
def fFOFLAG_OPEN : Fld := ⟨0x40017048, 4, 2⟩
def fFOFLAG_SILENT : Fld := ⟨0x40017048, 6, 1⟩
def fFOFLAG_VFLDLOW : Fld := ⟨0x40017048, 7, 1⟩
def fFOFLAG_SAFED : Fld := ⟨0x40017048, 8, 1⟩
def fFOFLAG_VFLDOV : Fld := ⟨0x40017048, 9, 1⟩
def rFOIE : Nat := 0x4001704C
def fFOIE_IE : Fld := ⟨0x4001704C, 0, 10⟩
def rFOKICK : Nat := 0x40017050
def fFOKICK_KICK : Fld := ⟨0x40017050, 0, 32⟩
def rFOMON : Nat := 0x40017054
def fFOMON_I0 : Fld := ⟨0x40017054, 0, 10⟩
def fFOMON_I1 : Fld := ⟨0x40017054, 16, 10⟩
def rFVMON : Nat := 0x40017058
def fFVMON_VFLD : Fld := ⟨0x40017058, 0, 10⟩
-- Block 24: Self-test (R549)

def rSTCTL : Nat := 0x40018000
def fSTCTL_GO : Fld := ⟨0x40018000, 0, 1⟩
def fSTCTL_SLICE : Fld := ⟨0x40018000, 8, 6⟩
def rSTSTAT : Nat := 0x40018004
def fSTSTAT_BUSY : Fld := ⟨0x40018004, 0, 1⟩
def fSTSTAT_PHASE : Fld := ⟨0x40018004, 1, 3⟩
def fSTSTAT_RETRIES : Fld := ⟨0x40018004, 16, 2⟩
def fSTSTAT_LAST : Fld := ⟨0x40018004, 20, 2⟩
def fSTSTAT_SKIPWHY : Fld := ⟨0x40018004, 24, 3⟩
def rSTSIG : Nat := 0x40018008
def fSTSIG_SIG : Fld := ⟨0x40018008, 0, 32⟩
def rSTEXP : Nat := 0x4001800C
def fSTEXP_EXP : Fld := ⟨0x4001800C, 0, 32⟩
def rSTFLAG : Nat := 0x40018010
def fSTFLAG_PASS : Fld := ⟨0x40018010, 0, 1⟩
def fSTFLAG_CONFIRMED : Fld := ⟨0x40018010, 1, 1⟩
def fSTFLAG_TRANSIENT : Fld := ⟨0x40018010, 2, 1⟩
def fSTFLAG_SKIP : Fld := ⟨0x40018010, 3, 1⟩
def fSTFLAG_ABANDON : Fld := ⟨0x40018010, 4, 1⟩
def fSTFLAG_RESTOREBAD : Fld := ⟨0x40018010, 5, 1⟩
def rSTIE : Nat := 0x40018014
def fSTIE_IE : Fld := ⟨0x40018014, 0, 6⟩
def rSTRESP : Nat := 0x40018018
def fSTRESP_METROBAD : Fld := ⟨0x40018018, 0, 1⟩
def fSTRESP_LOOPBAD : Fld := ⟨0x40018018, 1, 1⟩
def fSTRESP_SACBAD : Fld := ⟨0x40018018, 2, 1⟩
def fSTRESP_CTRLBAD : Fld := ⟨0x40018018, 3, 1⟩
-- Block P: Interrupt controller, per core (R278)

def rINTPEND (n : Nat) : Nat := 0xE0000000 + 4 * n
def fINTPEND_PEND (n : Nat) : Fld := ⟨rINTPEND n, 0, 32⟩
def rINTEN (n : Nat) : Nat := 0xE0000010 + 4 * n
def fINTEN_EN (n : Nat) : Fld := ⟨rINTEN n, 0, 32⟩
def rINTSET (n : Nat) : Nat := 0xE0000020 + 4 * n
def fINTSET_SET (n : Nat) : Fld := ⟨rINTSET n, 0, 32⟩
def rINTCLR (n : Nat) : Nat := 0xE0000030 + 4 * n
def fINTCLR_CLR (n : Nat) : Fld := ⟨rINTCLR n, 0, 32⟩
def rINTACT (n : Nat) : Nat := 0xE0000040 + 4 * n
def fINTACT_ACT (n : Nat) : Fld := ⟨rINTACT n, 0, 32⟩
def rINTPRI (n : Nat) : Nat := 0xE0000080 + 4 * n
def fINTPRI_LEVEL (n : Nat) : Fld := ⟨rINTPRI n, 0, 32⟩
def rINTCTL : Nat := 0xE0000100
def fINTCTL_GBITS : Fld := ⟨0xE0000100, 0, 3⟩
def rINTSTAT : Nat := 0xE0000104
def fINTSTAT_RUNGRP : Fld := ⟨0xE0000104, 0, 5⟩
def fINTSTAT_NEST : Fld := ⟨0xE0000104, 8, 5⟩
def fINTSTAT_TOPCODE : Fld := ⟨0xE0000104, 16, 8⟩
def rINTROUTE (n : Nat) : Nat := 0xE0000110 + 4 * n
def fINTROUTE_ROUTE (n : Nat) : Fld := ⟨rINTROUTE n, 0, 32⟩
def rINTWORLD (n : Nat) : Nat := 0xE0000120 + 4 * n
def fINTWORLD_WORLD (n : Nat) : Fld := ⟨rINTWORLD n, 0, 32⟩
-- Block G: Access guard, per core (R373)

def rGBASE (n : Nat) : Nat := 0xE0001000 + 16 * n
def fGBASE_BASE (n : Nat) : Fld := ⟨rGBASE n, 2, 30⟩
def fGBASE_ALL (n : Nat) : Fld := ⟨rGBASE n, 0, 32⟩
def rGLIM (n : Nat) : Nat := 0xE0001004 + 16 * n
def fGLIM_LIM (n : Nat) : Fld := ⟨rGLIM n, 2, 30⟩
def fGLIM_ALL (n : Nat) : Fld := ⟨rGLIM n, 0, 32⟩
def rGPERM (n : Nat) : Nat := 0xE0001008 + 16 * n
def fGPERM_UR (n : Nat) : Fld := ⟨rGPERM n, 0, 1⟩
def fGPERM_UW (n : Nat) : Fld := ⟨rGPERM n, 1, 1⟩
def fGPERM_UX (n : Nat) : Fld := ⟨rGPERM n, 2, 1⟩
def fGPERM_SR (n : Nat) : Fld := ⟨rGPERM n, 3, 1⟩
def fGPERM_SW (n : Nat) : Fld := ⟨rGPERM n, 4, 1⟩
def fGPERM_SX (n : Nat) : Fld := ⟨rGPERM n, 5, 1⟩
def fGPERM_EN (n : Nat) : Fld := ⟨rGPERM n, 8, 1⟩
def rSGBASE (n : Nat) : Nat := 0xE0001100 + 16 * n
def fSGBASE_BASE (n : Nat) : Fld := ⟨rSGBASE n, 2, 30⟩
def fSGBASE_ALL (n : Nat) : Fld := ⟨rSGBASE n, 0, 32⟩
def rSGLIM (n : Nat) : Nat := 0xE0001104 + 16 * n
def fSGLIM_LIM (n : Nat) : Fld := ⟨rSGLIM n, 2, 30⟩
def fSGLIM_ALL (n : Nat) : Fld := ⟨rSGLIM n, 0, 32⟩
def rSGPERM (n : Nat) : Nat := 0xE0001108 + 16 * n
def fSGPERM_UR (n : Nat) : Fld := ⟨rSGPERM n, 0, 1⟩
def fSGPERM_UW (n : Nat) : Fld := ⟨rSGPERM n, 1, 1⟩
def fSGPERM_UX (n : Nat) : Fld := ⟨rSGPERM n, 2, 1⟩
def fSGPERM_SR (n : Nat) : Fld := ⟨rSGPERM n, 3, 1⟩
def fSGPERM_SW (n : Nat) : Fld := ⟨rSGPERM n, 4, 1⟩
def fSGPERM_SX (n : Nat) : Fld := ⟨rSGPERM n, 5, 1⟩
def fSGPERM_EN (n : Nat) : Fld := ⟨rSGPERM n, 8, 1⟩
def rGCTL : Nat := 0xE0001200
def fGCTL_NEN : Fld := ⟨0xE0001200, 0, 1⟩
def fGCTL_SEN : Fld := ⟨0xE0001200, 1, 1⟩
def fGCTL_NDEF : Fld := ⟨0xE0001200, 4, 3⟩
def fGCTL_SDEF : Fld := ⟨0xE0001200, 8, 3⟩
def rGSTAT : Nat := 0xE0001204
def fGSTAT_REGION : Fld := ⟨0xE0001204, 0, 5⟩
def fGSTAT_WRITE : Fld := ⟨0xE0001204, 8, 1⟩
def fGSTAT_IMPRECISE : Fld := ⟨0xE0001204, 9, 1⟩
def fGSTAT_MULTI : Fld := ⟨0xE0001204, 10, 1⟩
def rGCNT : Nat := 0xE0001208
def fGCNT_COUNT : Fld := ⟨0xE0001208, 0, 16⟩

/-- Access table of block 0. System control (R28-R30, R139) -/
def regsBlock0 : List RegSpec :=
  [⟨0x40000000, 1, 0, 0x0, 0x0, 0x0, 0x0, 0x0, 0x0, 0x0⟩,
   ⟨0x40000004, 1, 0, 0x0, 0x0, 0x0, 0x0, 0x0, 0x0, 0x0⟩,
   ⟨0x40000008, 1, 0, 0x0, 0x0, 0x0, 0x0, 0x0, 0x0, 0x0⟩,
   ⟨0x40000010, 1, 0, 0x0, 0x3FF, 0x0, 0x0, 0x0, 0x0, 0x0⟩,
   ⟨0x40000014, 1, 0, 0x1, 0x10, 0x0, 0x0, 0x0, 0x0, 0x0⟩,
   ⟨0x40000020, 1, 0, 0x0, 0x0, 0x0, 0x0, 0x0, 0x0, 0x0⟩,
   ⟨0x40000024, 1, 0, 0x0, 0x0, 0x0, 0x0, 0x0, 0x0, 0x0⟩,
   ⟨0x40000028, 1, 0, 0x0, 0x0, 0x0, 0x0, 0x0, 0x0, 0x0⟩,
   ⟨0x40000030, 1, 0, 0x0, 0x0, 0x0, 0xFFFF0001, 0x2, 0x0, 0x0⟩,
   ⟨0x40000040, 1, 0, 0x2FF, 0x0, 0x100, 0x0, 0x0, 0x0, 0x0⟩,
   ⟨0x40000044, 1, 0, 0x0, 0x0, 0x0, 0xFFFFFFFF, 0x0, 0x0, 0x0⟩,
   ⟨0x40000048, 1, 0, 0x0, 0x0, 0x0, 0x0, 0x0, 0x0, 0x0⟩,
   ⟨0x4000004C, 1, 0, 0x0, 0x0, 0x0, 0x0, 0x0, 0x0, 0xFFFFFFFF⟩]

/-- Access table of block 1. RTC (R117) -/
def regsBlock1 : List RegSpec :=
  [⟨0x40001000, 1, 0, 0x0, 0x0, 0x0, 0x0, 0x0, 0x0, 0x0⟩,
   ⟨0x40001004, 1, 0, 0x0, 0x0, 0x0, 0x0, 0x0, 0x0, 0x0⟩,
   ⟨0x40001008, 1, 0, 0x0, 0x0, 0x0, 0x0, 0x0, 0x0, 0x0⟩,
   ⟨0x4000100C, 1, 0, 0x0, 0x0, 0x0, 0x0, 0xFFFFFFFF, 0x0, 0x0⟩,
   ⟨0x40001010, 1, 0, 0x0, 0x0, 0x0, 0x0, 0xFFFF, 0x0, 0x80000000⟩,
   ⟨0x40001014, 1, 0, 0x0, 0x7, 0x0, 0x0, 0x0, 0x0, 0x0⟩]

/-- Access table of block 2. Pads (R50, R51) -/
def regsBlock2 : List RegSpec :=
  [⟨0x40002000, 16, 4, 0x7FF, 0x0, 0x0, 0x0, 0x0, 0x0, 0x0⟩,
   ⟨0x40002040, 1, 0, 0x0, 0xFFFF, 0x0, 0x0, 0x0, 0x0, 0x0⟩,
   ⟨0x40002044, 1, 0, 0x1, 0x0, 0x0, 0x0, 0x0, 0x0, 0x0⟩]

/-- Access table of block 3. Power (R72) -/
def regsBlock3 : List RegSpec :=
  [⟨0x40003000, 1, 0, 0x0, 0x0, 0x0, 0x0, 0x0, 0x0, 0x0⟩,
   ⟨0x40003004, 1, 0, 0xF3F, 0x0, 0x0, 0x0, 0x0, 0x0, 0x0⟩,
   ⟨0x40003008, 1, 0, 0x0, 0x0, 0x0, 0x0, 0x0, 0x0, 0x0⟩,
   ⟨0x4000300C, 1, 0, 0x0, 0x6FF, 0x0, 0x0, 0x0, 0x0, 0x0⟩,
   ⟨0x40003010, 1, 0, 0x7FF, 0x0, 0x0, 0x0, 0x0, 0x0, 0x0⟩,
   ⟨0x40003014, 1, 0, 0x0, 0x0, 0x0, 0x0, 0x0, 0x0, 0x0⟩,
   ⟨0x40003018, 1, 0, 0x0, 0x1F, 0x0, 0x0, 0x0, 0x0, 0x0⟩,
   ⟨0x4000301C, 1, 0, 0x0, 0x0, 0x0, 0x0, 0x0, 0x0, 0x0⟩]

/-- Access table of block 4. Power states and wake (R94) -/
def regsBlock4 : List RegSpec :=
  [⟨0x40004000, 1, 0, 0x37, 0x0, 0x0, 0x0, 0x0, 0x0, 0x0⟩,
   ⟨0x40004004, 1, 0, 0xFFFF, 0x0, 0x0, 0x0, 0x0, 0x0, 0x0⟩,
   ⟨0x40004008, 1, 0, 0xFFFF, 0x0, 0x0, 0x0, 0x0, 0x0, 0x0⟩,
   ⟨0x4000400C, 1, 0, 0x179F, 0x0, 0x0, 0x0, 0x0, 0x0, 0x0⟩,
   ⟨0x40004010, 1, 0, 0xFF, 0x0, 0x0, 0x0, 0x0, 0x0, 0x0⟩,
   ⟨0x40004014, 1, 0, 0x0, 0x3FFF, 0x0, 0x0, 0x0, 0x0, 0x0⟩,
   ⟨0x40004018, 1, 0, 0x0, 0x58, 0x0, 0x0, 0x0, 0x0, 0x0⟩,
   ⟨0x4000401C, 1, 0, 0x0, 0xFFFF, 0x0, 0x0, 0x0, 0x0, 0x0⟩,
   ⟨0x40004020, 1, 0, 0x0, 0x0, 0x0, 0x0, 0x0, 0x0, 0x0⟩,
   ⟨0x40004024, 3, 8, 0xFFFFFFFF, 0x0, 0x0, 0x0, 0x0, 0x0, 0x0⟩,
   ⟨0x40004028, 3, 8, 0x1FFFF, 0x0, 0x0, 0x0, 0x0, 0x0, 0x0⟩]

/-- Access table of block 5. Clocks (R108) -/
def regsBlock5 : List RegSpec :=
  [⟨0x40005000, 1, 0, 0x7, 0x0, 0x0, 0x0, 0x0, 0x0, 0x0⟩,
   ⟨0x40005004, 1, 0, 0x3, 0x0, 0x0, 0x0, 0x0, 0x0, 0x0⟩,
   ⟨0x40005008, 1, 0, 0x0, 0x0, 0x0, 0x0, 0x0, 0x0, 0x0⟩,
   ⟨0x4000500C, 1, 0, 0x0, 0x3F, 0x0, 0x0, 0x0, 0x0, 0x0⟩,
   ⟨0x40005010, 1, 0, 0x3F, 0x0, 0x0, 0x0, 0x0, 0x0, 0x0⟩,
   ⟨0x40005014, 1, 0, 0x0, 0x0, 0x0, 0x1, 0x0, 0x0, 0x0⟩,
   ⟨0x40005018, 1, 0, 0x0, 0x0, 0x0, 0x0, 0x0, 0x0, 0x0⟩]

/-- Access table of block 6. Books (R157) -/
def regsBlock6 : List RegSpec :=
  [⟨0x40006000, 1, 0, 0x0, 0xD, 0x0, 0x80, 0x0, 0x2, 0x0⟩,
   ⟨0x40006004, 1, 0, 0x0, 0x0, 0x0, 0x0, 0x0, 0x0, 0x0⟩,
   ⟨0x40006008, 1, 0, 0x0, 0x1, 0x0, 0x0, 0x0, 0x0, 0x0⟩,
   ⟨0x4000600C, 1, 0, 0x0, 0x0, 0x0, 0x0, 0x0, 0x0, 0x0⟩]

/-- Access table of block 7. Cantoris control (R278) -/
def regsBlock7 : List RegSpec :=
  [⟨0x40007000, 1, 0, 0x3, 0x0, 0x0, 0x0, 0x0, 0x0, 0x0⟩,
   ⟨0x40007004, 1, 0, 0x0, 0x0, 0x0, 0x0, 0x0, 0x0, 0x0⟩,
   ⟨0x40007008, 1, 0, 0xFFFFFFFE, 0x0, 0x0, 0x0, 0x0, 0x0, 0x0⟩,
   ⟨0x4000700C, 1, 0, 0xFFFFFFE0, 0x0, 0x0, 0x0, 0x0, 0x0, 0x0⟩,
   ⟨0x40007010, 1, 0, 0x0, 0x0, 0x0, 0x100, 0x0, 0x0, 0x0⟩,
   ⟨0x40007014, 4, 4, 0x0, 0x0, 0x0, 0x0, 0x0, 0x0, 0x0⟩,
   ⟨0x40007024, 4, 4, 0xFFFFFFFF, 0x0, 0x0, 0x0, 0x0, 0x0, 0x0⟩,
   ⟨0x40007034, 1, 0, 0x0, 0xC0, 0x0, 0x0, 0x0, 0x0, 0x0⟩,
   ⟨0x40007038, 1, 0, 0x0, 0x0, 0x0, 0x0, 0x0, 0x0, 0x0⟩,
   ⟨0x4000703C, 1, 0, 0x0, 0x0, 0x0, 0x0, 0x0, 0x0, 0x0⟩]

/-- Access table of block 8. Walk drive (R181) -/
def regsBlock8 : List RegSpec :=
  [⟨0x40008000, 1, 0, 0x3F1F, 0x0, 0x0, 0x0, 0x0, 0x0, 0x0⟩,
   ⟨0x40008004, 1, 0, 0x0, 0x0, 0x0, 0x0, 0x0, 0x0, 0x0⟩,
   ⟨0x40008008, 1, 0, 0x0, 0x1FF, 0x0, 0x0, 0x0, 0x0, 0x0⟩,
   ⟨0x4000800C, 1, 0, 0x1FF, 0x0, 0x0, 0x0, 0x0, 0x0, 0x0⟩,
   ⟨0x40008010, 1, 0, 0x0, 0x0, 0x0, 0x0, 0x0, 0x0, 0x0⟩,
   ⟨0x40008014, 1, 0, 0x0, 0x0, 0x0, 0x0, 0x0, 0x0, 0x0⟩]

/-- Access table of block 9. Walk attachment (R181) -/
def regsBlock9 : List RegSpec :=
  [⟨0x40009000, 1, 0, 0x0, 0x0, 0x0, 0x0, 0x0, 0x0, 0x0⟩,
   ⟨0x40009004, 1, 0, 0x0, 0x1F, 0x0, 0x0, 0x0, 0x0, 0x0⟩,
   ⟨0x40009008, 1, 0, 0x1F, 0x0, 0x0, 0x0, 0x0, 0x0, 0x0⟩,
   ⟨0x4000900C, 1, 0, 0x0, 0x0, 0x0, 0x0, 0x0, 0x0, 0x0⟩]

/-- Access table of block 10. Lectern jack (R181) -/
def regsBlock10 : List RegSpec :=
  [⟨0x4000A000, 1, 0, 0x70000, 0x700, 0x0, 0x0, 0x0, 0x0, 0x0⟩]

/-- Access table of block 11. Line protocol (R211) -/
def regsBlock11 : List RegSpec :=
  [⟨0x4000B000, 1, 0, 0x1F03, 0x0, 0x0, 0x0, 0x0, 0x0, 0x0⟩,
   ⟨0x4000B004, 1, 0, 0x0, 0x0, 0x0, 0x0, 0x0, 0x0, 0x0⟩,
   ⟨0x4000B008, 1, 0, 0x0, 0xFF, 0x0, 0x0, 0x0, 0x0, 0x0⟩,
   ⟨0x4000B00C, 1, 0, 0xFF, 0x0, 0x0, 0x0, 0x0, 0x0, 0x0⟩,
   ⟨0x4000B010, 1, 0, 0x0, 0x0, 0x0, 0x0, 0x0, 0x0, 0x0⟩,
   ⟨0x4000B014, 1, 0, 0x0, 0x0, 0x0, 0x0, 0x0, 0x0, 0x0⟩,
   ⟨0x4000B018, 1, 0, 0x0, 0x0, 0x0, 0x0, 0x0, 0x0, 0x0⟩,
   ⟨0x4000B01C, 1, 0, 0x0, 0x0, 0x0, 0x0, 0x0, 0x0, 0x0⟩,
   ⟨0x4000B020, 1, 0, 0x0, 0x0, 0x0, 0x0, 0x0, 0x0, 0x0⟩,
   ⟨0x4000B024, 1, 0, 0x0, 0x0, 0x0, 0x0, 0x0, 0x0, 0x0⟩]

/-- Access table of block 12. Host link (R231) -/
def regsBlock12 : List RegSpec :=
  [⟨0x4000C000, 1, 0, 0x3, 0x0, 0x0, 0x0, 0x0, 0x0, 0x0⟩,
   ⟨0x4000C004, 1, 0, 0x40, 0x0, 0x0, 0x0, 0x0, 0x0, 0x0⟩,
   ⟨0x4000C008, 1, 0, 0x0, 0x3FF, 0x0, 0x0, 0x0, 0x0, 0x0⟩,
   ⟨0x4000C00C, 1, 0, 0x3FF, 0x0, 0x0, 0x0, 0x0, 0x0, 0x0⟩,
   ⟨0x4000C010, 1, 0, 0xF0000000, 0x0, 0x0, 0x0, 0x0, 0x0, 0x0⟩,
   ⟨0x4000C014, 1, 0, 0xFFFFFFFF, 0x0, 0x0, 0x0, 0x0, 0x0, 0x0⟩,
   ⟨0x4000C018, 1, 0, 0x0, 0x0, 0x0, 0x0, 0x0, 0x0, 0x0⟩,
   ⟨0x4000C01C, 1, 0, 0x0, 0x0, 0x0, 0x0, 0x0, 0x0, 0x0⟩,
   ⟨0x4000C020, 1, 0, 0xFFFFFFFF, 0x0, 0x0, 0x0, 0x0, 0x0, 0x0⟩]

/-- Access table of block 13. Scriptorium (R254) -/
def regsBlock13 : List RegSpec :=
  [⟨0x4000D000, 1, 0, 0xFFFFF000, 0x0, 0x0, 0x0, 0x0, 0x0, 0x0⟩,
   ⟨0x4000D004, 1, 0, 0xFFFFFFFF, 0x0, 0x0, 0x0, 0x0, 0x0, 0x0⟩,
   ⟨0x4000D008, 1, 0, 0x0, 0x0, 0x0, 0x0, 0x0, 0x0, 0x0⟩,
   ⟨0x4000D00C, 1, 0, 0x0, 0x1F, 0x0, 0x0, 0x0, 0x0, 0x0⟩,
   ⟨0x4000D010, 1, 0, 0x0, 0x0, 0x0, 0x0, 0x0, 0x0, 0x0⟩,
   ⟨0x4000D014, 1, 0, 0x0, 0x0, 0x0, 0x0, 0x0, 0x0, 0x0⟩,
   ⟨0x4000D018, 1, 0, 0x0, 0x0, 0x0, 0x0, 0x0, 0x0, 0x0⟩,
   ⟨0x4000D01C, 1, 0, 0x1F, 0x0, 0x0, 0x0, 0x0, 0x0, 0x0⟩]

/-- Access table of block 14. Memory control (R349, R375) -/
def regsBlock14 : List RegSpec :=
  [⟨0x4000E000, 1, 0, 0x0, 0x0, 0x0, 0x0, 0x0, 0x0, 0x0⟩,
   ⟨0x4000E004, 1, 0, 0x0, 0x7, 0x0, 0x0, 0x0, 0x0, 0x0⟩,
   ⟨0x4000E008, 1, 0, 0x7, 0x0, 0x0, 0x0, 0x0, 0x0, 0x0⟩,
   ⟨0x4000E00C, 1, 0, 0x0, 0x0, 0x0, 0x0, 0x0, 0x0, 0x0⟩,
   ⟨0x4000E010, 1, 0, 0x0, 0x0, 0x0, 0x0, 0x0, 0x0, 0x0⟩,
   ⟨0x4000E014, 1, 0, 0x0, 0x0, 0x0, 0x0, 0xFFFFFFFF, 0x0, 0x0⟩,
   ⟨0x4000E018, 1, 0, 0x0, 0x0, 0x0, 0x0, 0xFFFFFFFF, 0x0, 0x0⟩,
   ⟨0x4000E020, 1, 0, 0x0, 0x0, 0x0, 0x0, 0x0, 0x0, 0x0⟩,
   ⟨0x4000E024, 1, 0, 0x0, 0x3, 0x0, 0x0, 0x0, 0x0, 0x0⟩,
   ⟨0x4000E028, 1, 0, 0x3, 0x0, 0x0, 0x0, 0x0, 0x0, 0x0⟩,
   ⟨0x4000E02C, 1, 0, 0x0, 0x0, 0x0, 0x0, 0x0, 0x0, 0x0⟩]

/-- Access table of block 15. Sample buffer windows (R350) -/
def regsBlock15 : List RegSpec :=
  [⟨0x4000F000, 3, 32, 0x1FFEFFE1, 0x0, 0x0, 0x0, 0x0, 0x0, 0x0⟩,
   ⟨0x4000F004, 3, 32, 0x1FFE0, 0x0, 0x0, 0x0, 0x0, 0x0, 0x0⟩,
   ⟨0x4000F008, 3, 32, 0x0, 0x0, 0x0, 0x0, 0x0, 0x0, 0x0⟩,
   ⟨0x4000F00C, 3, 32, 0x3FFFF, 0x0, 0x0, 0x0, 0x0, 0x0, 0x0⟩,
   ⟨0x4000F010, 3, 32, 0x0, 0x0, 0x0, 0x0, 0x0, 0x0, 0x0⟩,
   ⟨0x4000F014, 3, 32, 0x0, 0x0, 0x0, 0x0, 0x0, 0x0, 0x0⟩,
   ⟨0x4000F018, 3, 32, 0x0, 0x0, 0x0, 0x0, 0x0, 0x0, 0x0⟩,
   ⟨0x4000F080, 1, 0, 0x0, 0x7F8, 0x0, 0x0, 0x0, 0x0, 0x0⟩,
   ⟨0x4000F084, 1, 0, 0x7FF, 0x0, 0x0, 0x0, 0x0, 0x0, 0x0⟩]

/-- Access table of block 16. Sacristy (R400) -/
def regsBlock16 : List RegSpec :=
  [⟨0x40010000, 1, 0, 0x0, 0x0, 0x0, 0x0, 0x0, 0x0, 0x0⟩,
   ⟨0x40010004, 1, 0, 0x0, 0x0, 0x0, 0x0, 0xFFFFFFFF, 0x0, 0x0⟩,
   ⟨0x40010008, 1, 0, 0x0, 0x0, 0x0, 0x0, 0x0, 0x0, 0x0⟩,
   ⟨0x4001000C, 1, 0, 0x0, 0x0, 0x0, 0x0, 0x0, 0x3F, 0x0⟩,
   ⟨0x40010010, 1, 0, 0x0, 0x0, 0x0, 0x0, 0x3F, 0x0, 0x0⟩,
   ⟨0x40010014, 4, 4, 0x0, 0x0, 0x0, 0x0, 0x0, 0x0, 0x0⟩,
   ⟨0x40010024, 1, 0, 0x0, 0x0, 0x0, 0x0, 0x0, 0x0, 0x0⟩,
   ⟨0x40010040, 1, 0, 0x0, 0x0, 0x0, 0x0, 0xF07, 0x0, 0x8⟩,
   ⟨0x40010044, 1, 0, 0x0, 0x0, 0x0, 0x0, 0x7FFF, 0x0, 0x0⟩,
   ⟨0x40010048, 1, 0, 0x0, 0x0, 0x0, 0x0, 0x7FFF, 0x0, 0x0⟩,
   ⟨0x4001004C, 1, 0, 0x0, 0x0, 0x0, 0x0, 0xFFFF, 0x0, 0x0⟩,
   ⟨0x40010050, 1, 0, 0x0, 0x0, 0x0, 0x0, 0xFF03FF, 0x0, 0x80000000⟩]

/-- Access table of block 17. Sensor front end (R421) -/
def regsBlock17 : List RegSpec :=
  [⟨0x40011000, 1, 0, 0xFF01FF, 0x0, 0x0, 0x0, 0x0, 0x0, 0x0⟩,
   ⟨0x40011004, 1, 0, 0x33FFF, 0x0, 0x0, 0x0, 0x0, 0x0, 0x0⟩,
   ⟨0x40011008, 1, 0, 0xFFFFFFFF, 0x0, 0x0, 0x0, 0x0, 0x0, 0x0⟩,
   ⟨0x4001100C, 1, 0, 0xFFFFFFFF, 0x0, 0x0, 0x0, 0x0, 0x0, 0x0⟩,
   ⟨0x40011010, 1, 0, 0x1FFFF, 0x0, 0x0, 0x0, 0x0, 0x0, 0x0⟩,
   ⟨0x40011014, 1, 0, 0x0, 0x0, 0x0, 0x1, 0x0, 0x0, 0x0⟩,
   ⟨0x40011018, 1, 0, 0x0, 0x0, 0x0, 0x0, 0x0, 0x0, 0x0⟩,
   ⟨0x4001101C, 1, 0, 0x0, 0x3FFF, 0x0, 0x0, 0x0, 0x0, 0x0⟩,
   ⟨0x40011020, 1, 0, 0x3FFF, 0x0, 0x0, 0x0, 0x0, 0x0, 0x0⟩,
   ⟨0x40011024, 1, 0, 0x3FF3FF7, 0x0, 0x0, 0x0, 0x0, 0x0, 0x0⟩,
   ⟨0x40011028, 1, 0, 0x0, 0x0, 0x0, 0x0, 0x0, 0x0, 0x0⟩,
   ⟨0x4001102C, 1, 0, 0x0, 0x0, 0x0, 0x0, 0x0, 0x0, 0x0⟩,
   ⟨0x40011030, 1, 0, 0x3F, 0x0, 0x0, 0x0, 0x0, 0x0, 0x0⟩,
   ⟨0x40011034, 1, 0, 0x0, 0x0, 0x0, 0x0, 0x0, 0x0, 0x0⟩,
   ⟨0x40011040, 7, 4, 0x7F37, 0x0, 0x0, 0x0, 0x0, 0x0, 0x0⟩,
   ⟨0x40011060, 7, 4, 0x0, 0x0, 0x0, 0x0, 0x0, 0x0, 0x0⟩,
   ⟨0x40011080, 8, 4, 0xFFFFFF, 0x0, 0x0, 0x0, 0x0, 0x0, 0x0⟩]

/-- Access table of block 18. Loop output (R435) -/
def regsBlock18 : List RegSpec :=
  [⟨0x40012000, 1, 0, 0xF, 0x0, 0x0, 0x0, 0x0, 0x0, 0x0⟩,
   ⟨0x40012004, 1, 0, 0xFFFF, 0x0, 0x0, 0x0, 0x0, 0x0, 0x0⟩,
   ⟨0x40012008, 1, 0, 0xFFF, 0x0, 0x0, 0x0, 0x0, 0x0, 0x0⟩,
   ⟨0x4001200C, 1, 0, 0x0, 0x0, 0x0, 0x0, 0x0, 0x0, 0x0⟩,
   ⟨0x40012010, 1, 0, 0x0, 0x0, 0x0, 0x0, 0x0, 0x0, 0x0⟩,
   ⟨0x40012014, 1, 0, 0x0, 0x0, 0x0, 0x0, 0x0, 0x0, 0x0⟩,
   ⟨0x40012018, 1, 0, 0x0, 0x7F, 0x0, 0x0, 0x0, 0x0, 0x0⟩,
   ⟨0x4001201C, 1, 0, 0x7F, 0x0, 0x0, 0x0, 0x0, 0x0, 0x0⟩,
   ⟨0x40012020, 1, 0, 0xFFFF, 0x0, 0x0, 0x0, 0x0, 0x0, 0x0⟩,
   ⟨0x40012024, 1, 0, 0xFFFF, 0x0, 0x0, 0x0, 0x0, 0x0, 0x0⟩]

/-- Access table of block 19. Font (R460) -/
def regsBlock19 : List RegSpec :=
  [⟨0x40013000, 1, 0, 0xF1FF, 0x0, 0x0, 0x0, 0x0, 0x0, 0x0⟩,
   ⟨0x40013004, 1, 0, 0x1F3F01FF, 0x0, 0x0, 0x0, 0x0, 0x0, 0x0⟩,
   ⟨0x40013008, 1, 0, 0xFFF00FFF, 0x0, 0x0, 0x0, 0x0, 0x0, 0x0⟩,
   ⟨0x4001300C, 1, 0, 0x1FFFF7FF, 0x0, 0x0, 0x0, 0x0, 0x0, 0x0⟩,
   ⟨0x40013010, 1, 0, 0xFFFFFFFF, 0x0, 0x0, 0x0, 0x0, 0x0, 0x0⟩,
   ⟨0x40013014, 1, 0, 0xFFFFFFFF, 0x0, 0x0, 0x0, 0x0, 0x0, 0x0⟩,
   ⟨0x40013018, 1, 0, 0xFFFFFFFF, 0x0, 0x0, 0x0, 0x0, 0x0, 0x0⟩,
   ⟨0x4001301C, 1, 0, 0xFFFFFF, 0x0, 0x0, 0x0, 0x0, 0x0, 0x0⟩,
   ⟨0x40013020, 1, 0, 0xFFFE0, 0x0, 0x0, 0x0, 0x0, 0x0, 0x0⟩,
   ⟨0x40013024, 1, 0, 0xFFFFFFFF, 0x0, 0x0, 0x0, 0x0, 0x0, 0x0⟩,
   ⟨0x40013028, 1, 0, 0xFFFFFFFF, 0x0, 0x0, 0x0, 0x0, 0x0, 0x0⟩,
   ⟨0x4001302C, 1, 0, 0xFFFFFFFF, 0x0, 0x0, 0x0, 0x0, 0x0, 0x0⟩,
   ⟨0x40013030, 1, 0, 0xFFFFFFFF, 0x0, 0x0, 0x0, 0x0, 0x0, 0x0⟩,
   ⟨0x40013034, 1, 0, 0xFFFFFFFF, 0x0, 0x0, 0x0, 0x0, 0x0, 0x0⟩,
   ⟨0x40013038, 1, 0, 0xFFFFFFFF, 0x0, 0x0, 0x0, 0x0, 0x0, 0x0⟩,
   ⟨0x4001303C, 1, 0, 0xFFF0FFF, 0x0, 0x0, 0x0, 0x0, 0x0, 0x0⟩,
   ⟨0x40013040, 1, 0, 0xFFFFFFFF, 0x0, 0x0, 0x0, 0x0, 0x0, 0x0⟩,
   ⟨0x40013044, 1, 0, 0x1FFFF, 0x0, 0x0, 0x0, 0x0, 0x0, 0x0⟩,
   ⟨0x40013048, 1, 0, 0x0, 0x0, 0x0, 0x0, 0x0, 0x0, 0x0⟩,
   ⟨0x4001304C, 1, 0, 0x0, 0xFFFF, 0x0, 0x0, 0x0, 0x0, 0x0⟩,
   ⟨0x40013050, 1, 0, 0xFFFF, 0x0, 0x0, 0x0, 0x0, 0x0, 0x0⟩,
   ⟨0x40013054, 1, 0, 0x0, 0x0, 0x0, 0x0, 0x0, 0x0, 0x0⟩,
   ⟨0x40013058, 1, 0, 0x0, 0x0, 0x0, 0x0, 0x0, 0x0, 0x0⟩,
   ⟨0x4001305C, 1, 0, 0x0, 0x0, 0x0, 0x0, 0x0, 0x0, 0x0⟩,
   ⟨0x40013060, 1, 0, 0x0, 0x0, 0x0, 0x0, 0x0, 0x0, 0x0⟩,
   ⟨0x40013070, 1, 0, 0xFFFFFFFF, 0x0, 0x0, 0x0, 0x0, 0x0, 0x0⟩,
   ⟨0x40013074, 1, 0, 0xFFFFFFFF, 0x0, 0x0, 0x0, 0x0, 0x0, 0x0⟩,
   ⟨0x40013078, 1, 0, 0xFFFFFFFF, 0x0, 0x0, 0x0, 0x0, 0x0, 0x0⟩,
   ⟨0x4001307C, 1, 0, 0xFFFFFFFF, 0x0, 0x0, 0x0, 0x0, 0x0, 0x0⟩,
   ⟨0x40013080, 1, 0, 0xFFFFFFFF, 0x0, 0x0, 0x0, 0x0, 0x0, 0x0⟩,
   ⟨0x40013084, 1, 0, 0xFFFFFFFF, 0x0, 0x0, 0x0, 0x0, 0x0, 0x0⟩,
   ⟨0x40013088, 1, 0, 0xFFFFFFFF, 0x0, 0x0, 0x0, 0x0, 0x0, 0x0⟩,
   ⟨0x4001308C, 1, 0, 0xFFFFFFFF, 0x0, 0x0, 0x0, 0x0, 0x0, 0x0⟩,
   ⟨0x40013090, 1, 0, 0x1F7, 0x0, 0x0, 0x0, 0x0, 0x0, 0x0⟩,
   ⟨0x40013094, 1, 0, 0xFF0FFF, 0x0, 0x0, 0x0, 0x0, 0x0, 0x0⟩,
   ⟨0x40013098, 1, 0, 0x0, 0x0, 0x0, 0x0, 0x0, 0x0, 0x0⟩]

/-- Access table of block 20. Motion (R480) -/
def regsBlock20 : List RegSpec :=
  [⟨0x40014000, 1, 0, 0xF773F7F, 0x0, 0x0, 0x0, 0x0, 0x0, 0x0⟩,
   ⟨0x40014004, 1, 0, 0xFFFFFF, 0x0, 0x0, 0x0, 0x0, 0x0, 0x0⟩,
   ⟨0x40014008, 1, 0, 0xFFFFFFFF, 0x0, 0x0, 0x0, 0x0, 0x0, 0x0⟩,
   ⟨0x4001400C, 1, 0, 0x1FFFF, 0x0, 0x0, 0x0, 0x0, 0x0, 0x0⟩,
   ⟨0x40014010, 1, 0, 0x0, 0x0, 0x0, 0x1, 0x0, 0x0, 0x0⟩,
   ⟨0x40014014, 1, 0, 0x0, 0x0, 0x0, 0x0, 0x0, 0x0, 0x0⟩,
   ⟨0x40014018, 1, 0, 0x0, 0x1FFF, 0x0, 0x0, 0x0, 0x0, 0x0⟩,
   ⟨0x4001401C, 1, 0, 0x1FFF, 0x0, 0x0, 0x0, 0x0, 0x0, 0x0⟩,
   ⟨0x40014020, 1, 0, 0x0, 0x0, 0x0, 0x0, 0x0, 0x0, 0x0⟩,
   ⟨0x40014024, 1, 0, 0x0, 0x0, 0x0, 0x0, 0x0, 0x0, 0x0⟩,
   ⟨0x40014028, 3, 4, 0x0, 0x0, 0x0, 0x0, 0x0, 0x0, 0x0⟩,
   ⟨0x40014034, 1, 0, 0x0, 0x0, 0x0, 0x0, 0x0, 0x0, 0x0⟩,
   ⟨0x40014038, 2, 4, 0x0, 0x0, 0x0, 0x0, 0x0, 0x0, 0x0⟩,
   ⟨0x40014040, 2, 4, 0x0, 0x0, 0x0, 0x0, 0x0, 0x0, 0x0⟩,
   ⟨0x40014048, 1, 0, 0x0, 0x0, 0x0, 0x0, 0x0, 0x0, 0x0⟩]

/-- Access table of block 21. Ringers, recognisers, touch (R499) -/
def regsBlock21 : List RegSpec :=
  [⟨0x40015000, 1, 0, 0xF3FFFFF, 0x0, 0x0, 0x0, 0x0, 0x0, 0x0⟩,
   ⟨0x40015004, 1, 0, 0x0, 0x0, 0x0, 0x0, 0x0, 0x0, 0x0⟩,
   ⟨0x40015008, 1, 0, 0x0, 0x3FF, 0x0, 0x0, 0x0, 0x0, 0x0⟩,
   ⟨0x4001500C, 1, 0, 0x3FF, 0x0, 0x0, 0x0, 0x0, 0x0, 0x0⟩,
   ⟨0x40015010, 1, 0, 0x0, 0x0, 0x0, 0x0, 0x0, 0x0, 0x0⟩,
   ⟨0x40015020, 1, 0, 0x3FFFFFF, 0x0, 0x0, 0x0, 0x0, 0x0, 0x0⟩,
   ⟨0x40015024, 1, 0, 0xFFF0FFF, 0x0, 0x0, 0x0, 0x0, 0x0, 0x0⟩,
   ⟨0x40015028, 1, 0, 0xFFFF, 0x0, 0x0, 0x0, 0x0, 0x0, 0x0⟩,
   ⟨0x4001502C, 1, 0, 0xFFFF, 0x0, 0x0, 0x0, 0x0, 0x0, 0x0⟩,
   ⟨0x40015030, 1, 0, 0xFFFF, 0x0, 0x0, 0x0, 0x0, 0x0, 0x0⟩,
   ⟨0x40015034, 1, 0, 0xFFFFF, 0x0, 0x0, 0x0, 0x0, 0x0, 0x0⟩,
   ⟨0x40015038, 3, 4, 0xFFFFFFFF, 0x0, 0x0, 0x0, 0x0, 0x0, 0x0⟩,
   ⟨0x40015044, 1, 0, 0x0, 0x0, 0x0, 0x0, 0x0, 0x0, 0x0⟩,
   ⟨0x40015050, 1, 0, 0xFFFFFF0F, 0x0, 0x0, 0x0, 0x0, 0x0, 0x0⟩,
   ⟨0x40015054, 1, 0, 0xFFF0FFF, 0x0, 0x0, 0x0, 0x0, 0x0, 0x0⟩,
   ⟨0x40015058, 1, 0, 0xFFFFF, 0x0, 0x0, 0x0, 0x0, 0x0, 0x0⟩,
   ⟨0x4001505C, 1, 0, 0x0, 0x0, 0x0, 0x0, 0x0, 0x0, 0x0⟩,
   ⟨0x40015060, 1, 0, 0x0, 0x0, 0x0, 0x0, 0x0, 0x0, 0x0⟩,
   ⟨0x40015064, 1, 0, 0x0, 0x0, 0x0, 0x0, 0x0, 0x0, 0x0⟩,
   ⟨0x40015080, 8, 32, 0x0, 0x0, 0x0, 0x0, 0x0, 0x0, 0x0⟩,
   ⟨0x40015084, 8, 32, 0x0, 0x0, 0x0, 0x0, 0x0, 0x0, 0x0⟩,
   ⟨0x40015088, 8, 32, 0xFFFFFFFF, 0x0, 0x0, 0x0, 0x0, 0x0, 0x0⟩,
   ⟨0x4001508C, 8, 32, 0x1FFFF, 0x0, 0x0, 0x0, 0x0, 0x0, 0x0⟩,
   ⟨0x40015090, 8, 32, 0x0, 0x0, 0x0, 0x0, 0x0, 0x0, 0x0⟩,
   ⟨0x40015094, 8, 32, 0x0, 0x0, 0x0, 0x0, 0x0, 0x0, 0x0⟩,
   ⟨0x40015098, 8, 32, 0x0, 0x0, 0x0, 0x0, 0x0, 0x0, 0x0⟩,
   ⟨0x40015180, 3, 4, 0x0, 0x0, 0x0, 0x0, 0x0, 0x0, 0x0⟩,
   ⟨0x4001518C, 1, 0, 0x0, 0x0, 0x0, 0x0, 0x0, 0x0, 0x0⟩,
   ⟨0x400151C0, 1, 0, 0x3FFFFFF, 0x0, 0x0, 0x0, 0x0, 0x0, 0x0⟩,
   ⟨0x400151C4, 1, 0, 0xFFFFFFFF, 0x0, 0x0, 0x0, 0x0, 0x0, 0x0⟩,
   ⟨0x400151C8, 1, 0, 0xFFFFFFFF, 0x0, 0x0, 0x0, 0x0, 0x0, 0x0⟩,
   ⟨0x400151CC, 1, 0, 0x0, 0x0, 0x0, 0x0, 0x0, 0x0, 0x0⟩,
   ⟨0x400151D0, 1, 0, 0x0, 0x3F, 0x0, 0x0, 0x0, 0x0, 0x0⟩,
   ⟨0x400151D4, 1, 0, 0x3F, 0x0, 0x0, 0x0, 0x0, 0x0, 0x0⟩,
   ⟨0x400151E0, 4, 4, 0x0, 0x0, 0x0, 0x0, 0x0, 0x0, 0x0⟩,
   ⟨0x400151F0, 4, 4, 0xFFFF, 0x0, 0x0, 0x0, 0x0, 0x0, 0x0⟩,
   ⟨0x40015400, 256, 4, 0xFFFFFFFF, 0x0, 0x0, 0x0, 0x0, 0x0, 0x0⟩]

/-- Access table of block 22. Choristers (R522) -/
def regsBlock22 : List RegSpec :=
  [⟨0x40016000, 1, 0, 0xFFFF, 0x0, 0x0, 0xFFFF0000, 0x0, 0x0, 0x0⟩,
   ⟨0x40016004, 1, 0, 0x0, 0x0, 0x0, 0x0, 0x0, 0x0, 0x0⟩,
   ⟨0x40016008, 1, 0, 0x0, 0xFF, 0x0, 0x0, 0x0, 0x0, 0x0⟩,
   ⟨0x4001600C, 1, 0, 0x0, 0x0, 0xFF, 0x0, 0x0, 0x0, 0x0⟩,
   ⟨0x40016010, 1, 0, 0xFF, 0x0, 0x0, 0x0, 0x0, 0x0, 0x0⟩,
   ⟨0x40016014, 1, 0, 0xFFFFFFFF, 0x0, 0x0, 0x0, 0x0, 0x0, 0x0⟩,
   ⟨0x40016018, 1, 0, 0xFF05FFFF, 0x0, 0x0, 0x0, 0x0, 0x0, 0x0⟩,
   ⟨0x4001601C, 1, 0, 0x0, 0x0, 0x0, 0x0, 0x0, 0x0, 0x0⟩,
   ⟨0x40016020, 1, 0, 0x0, 0x0, 0x0, 0x0, 0x0, 0x0, 0x0⟩,
   ⟨0x40016024, 1, 0, 0x0, 0x0, 0x0, 0x0, 0x0, 0x0, 0x0⟩,
   ⟨0x40016028, 2, 4, 0xFFFFFFFF, 0x0, 0x0, 0x0, 0x0, 0x0, 0x0⟩,
   ⟨0x40016030, 1, 0, 0xFFFF, 0x0, 0x0, 0x0, 0x0, 0x0, 0x0⟩,
   ⟨0x40016034, 1, 0, 0xFFFF, 0x0, 0x0, 0x0, 0x0, 0x0, 0x0⟩,
   ⟨0x40016100, 8, 64, 0xFFFFFF, 0x0, 0x0, 0x0, 0x0, 0x0, 0x0⟩,
   ⟨0x40016104, 8, 64, 0x1FF31F1F, 0x0, 0x0, 0x0, 0x0, 0x0, 0x0⟩,
   ⟨0x40016108, 8, 64, 0x1F1F0F, 0x0, 0x0, 0x0, 0x0, 0x0, 0x0⟩,
   ⟨0x4001610C, 8, 64, 0x7FFDFF, 0x0, 0x0, 0x0, 0x0, 0x0, 0x0⟩,
   ⟨0x40016110, 8, 64, 0x0, 0x0, 0x0, 0xFFFFFFFF, 0x0, 0x0, 0x0⟩,
   ⟨0x40016114, 8, 64, 0x0, 0x0, 0x0, 0x0, 0x0, 0x0, 0x0⟩,
   ⟨0x40016118, 8, 64, 0x0, 0x0, 0x0, 0x0, 0x0, 0x0, 0x0⟩,
   ⟨0x4001611C, 8, 64, 0x0, 0x0, 0x0, 0xFFFF, 0x0, 0x0, 0x0⟩,
   ⟨0x40016120, 8, 64, 0xFFFFFFFF, 0x0, 0x0, 0x0, 0x0, 0x0, 0x0⟩,
   ⟨0x40016124, 8, 64, 0xFFFF, 0x0, 0x0, 0x0, 0x0, 0x0, 0x0⟩,
   ⟨0x40016128, 8, 64, 0x0, 0x0, 0x0, 0x0, 0x0, 0x0, 0x0⟩,
   ⟨0x4001612C, 8, 64, 0x0, 0x0, 0x0, 0x0, 0x0, 0x0, 0x0⟩,
   ⟨0x40016130, 8, 64, 0x0, 0x1FF, 0x0, 0x0, 0x0, 0x0, 0x0⟩,
   ⟨0x40016134, 8, 64, 0x1FF, 0x0, 0x0, 0x0, 0x0, 0x0, 0x0⟩,
   ⟨0x40016138, 8, 64, 0xFFFF0000, 0x0, 0x0, 0x0, 0x0, 0x0, 0x0⟩,
   ⟨0x4001613C, 8, 64, 0x0, 0x0, 0x0, 0x0, 0x0, 0x0, 0x0⟩,
   ⟨0x40016800, 256, 4, 0xFFFF, 0x0, 0x0, 0x0, 0x0, 0x0, 0x0⟩]

/-- Access table of block 23. Field I/O (R536) -/
def regsBlock23 : List RegSpec :=
  [⟨0x40017000, 1, 0, 0xFFFFFFF, 0x0, 0x0, 0x0, 0x0, 0x0, 0x0⟩,
   ⟨0x40017004, 1, 0, 0x0, 0x0, 0x0, 0x0, 0x0, 0x0, 0x0⟩,
   ⟨0x40017008, 1, 0, 0x0, 0xFFFFF, 0x0, 0x0, 0x0, 0x0, 0x0⟩,
   ⟨0x4001700C, 1, 0, 0xFFFFF, 0x0, 0x0, 0x0, 0x0, 0x0, 0x0⟩,
   ⟨0x40017010, 1, 0, 0xFFFFFFFF, 0x0, 0x0, 0x0, 0x0, 0x0, 0x0⟩,
   ⟨0x40017020, 4, 4, 0xFFFFFFFF, 0x0, 0x0, 0x0, 0x0, 0x0, 0x0⟩,
   ⟨0x40017040, 1, 0, 0x1333333, 0x0, 0x0, 0x0, 0x0, 0x0, 0x0⟩,
   ⟨0x40017044, 1, 0, 0x0, 0x0, 0x0, 0x0, 0x0, 0x0, 0x0⟩,
   ⟨0x40017048, 1, 0, 0x0, 0x3FF, 0x0, 0x0, 0x0, 0x0, 0x0⟩,
   ⟨0x4001704C, 1, 0, 0x3FF, 0x0, 0x0, 0x0, 0x0, 0x0, 0x0⟩,
   ⟨0x40017050, 1, 0, 0x0, 0x0, 0x0, 0xFFFFFFFF, 0x0, 0x0, 0x0⟩,
   ⟨0x40017054, 1, 0, 0x0, 0x0, 0x0, 0x0, 0x0, 0x0, 0x0⟩,
   ⟨0x40017058, 1, 0, 0x0, 0x0, 0x0, 0x0, 0x0, 0x0, 0x0⟩]

/-- Access table of block 24. Self-test (R549) -/
def regsBlock24 : List RegSpec :=
  [⟨0x40018000, 1, 0, 0x3F00, 0x0, 0x0, 0x1, 0x0, 0x0, 0x0⟩,
   ⟨0x40018004, 1, 0, 0x0, 0x0, 0x0, 0x0, 0x0, 0x0, 0x0⟩,
   ⟨0x40018008, 1, 0, 0x0, 0x0, 0x0, 0x0, 0x0, 0x0, 0x0⟩,
   ⟨0x4001800C, 1, 0, 0x0, 0x0, 0x0, 0x0, 0x0, 0x0, 0x0⟩,
   ⟨0x40018010, 1, 0, 0x0, 0x3F, 0x0, 0x0, 0x0, 0x0, 0x0⟩,
   ⟨0x40018014, 1, 0, 0x3F, 0x0, 0x0, 0x0, 0x0, 0x0, 0x0⟩,
   ⟨0x40018018, 1, 0, 0x0, 0x0, 0x0, 0x0, 0x0, 0x0, 0x0⟩]

/-- Access table of block P. Interrupt controller, per core (R278) -/
def regsIntCtl : List RegSpec :=
  [⟨0xE0000000, 4, 4, 0x0, 0x0, 0x0, 0x0, 0x0, 0x0, 0x0⟩,
   ⟨0xE0000010, 4, 4, 0xFFFFFFFF, 0x0, 0x0, 0x0, 0x0, 0x0, 0x0⟩,
   ⟨0xE0000020, 4, 4, 0x0, 0x0, 0xFFFFFFFF, 0x0, 0x0, 0x0, 0x0⟩,
   ⟨0xE0000030, 4, 4, 0x0, 0x0, 0x0, 0xFFFFFFFF, 0x0, 0x0, 0x0⟩,
   ⟨0xE0000040, 4, 4, 0x0, 0x0, 0x0, 0x0, 0x0, 0x0, 0x0⟩,
   ⟨0xE0000080, 32, 4, 0xFFFFFFFF, 0x0, 0x0, 0x0, 0x0, 0x0, 0x0⟩,
   ⟨0xE0000100, 1, 0, 0x7, 0x0, 0x0, 0x0, 0x0, 0x0, 0x0⟩,
   ⟨0xE0000104, 1, 0, 0x0, 0x0, 0x0, 0x0, 0x0, 0x0, 0x0⟩,
   ⟨0xE0000110, 4, 4, 0xFFFFFFFF, 0x0, 0x0, 0x0, 0x0, 0x0, 0x0⟩,
   ⟨0xE0000120, 4, 4, 0x0, 0x0, 0x0, 0x0, 0xFFFFFFFF, 0x0, 0x0⟩]

/-- Access table of block G. Access guard, per core (R373) -/
def regsGuard : List RegSpec :=
  [⟨0xE0001000, 16, 16, 0xFFFFFFFC, 0x0, 0x0, 0x0, 0x0, 0x0, 0x0⟩,
   ⟨0xE0001004, 16, 16, 0xFFFFFFFC, 0x0, 0x0, 0x0, 0x0, 0x0, 0x0⟩,
   ⟨0xE0001008, 16, 16, 0x13F, 0x0, 0x0, 0x0, 0x0, 0x0, 0x0⟩,
   ⟨0xE0001100, 16, 16, 0x0, 0x0, 0x0, 0x0, 0xFFFFFFFC, 0x0, 0x0⟩,
   ⟨0xE0001104, 16, 16, 0x0, 0x0, 0x0, 0x0, 0xFFFFFFFC, 0x0, 0x0⟩,
   ⟨0xE0001108, 16, 16, 0x0, 0x0, 0x0, 0x0, 0x13F, 0x0, 0x0⟩,
   ⟨0xE0001200, 1, 0, 0x71, 0x0, 0x0, 0x0, 0x702, 0x0, 0x0⟩,
   ⟨0xE0001204, 1, 0, 0x0, 0x400, 0x0, 0x0, 0x0, 0x0, 0x0⟩,
   ⟨0xE0001208, 1, 0, 0x0, 0x0, 0x0, 0x0, 0x0, 0x0, 0x0⟩]

/-- The access table of the peripheral blocks 0 to 24. -/
def regTable : List RegSpec :=
  regsBlock0 ++ regsBlock1 ++ regsBlock2 ++ regsBlock3 ++ regsBlock4 ++ regsBlock5 ++ regsBlock6 ++ regsBlock7 ++ regsBlock8 ++ regsBlock9 ++ regsBlock10 ++ regsBlock11 ++ regsBlock12 ++ regsBlock13 ++ regsBlock14 ++ regsBlock15 ++ regsBlock16 ++ regsBlock17 ++ regsBlock18 ++ regsBlock19 ++ regsBlock20 ++ regsBlock21 ++ regsBlock22 ++ regsBlock23 ++ regsBlock24

/-- The access table of the core-private registers (interrupt controller and access guard). -/
def privTable : List RegSpec := regsIntCtl ++ regsGuard

/-- The registers of block 0 that reset to something other than zero. -/
def resetBlock0 : List (Nat × Word) :=
  [(0x40000010, 0x1), (0x40000020, 0x74200000)]

/-- The registers of block 1 that reset to something other than zero. -/
def resetBlock1 : List (Nat × Word) :=
  []

/-- The registers of block 2 that reset to something other than zero. -/
def resetBlock2 : List (Nat × Word) :=
  [(0x40002000, 0x8), (0x40002004, 0x8), (0x40002008, 0x8), (0x4000200C, 0x8), (0x40002010, 0x8), (0x40002014, 0x8), (0x40002018, 0x8), (0x4000201C, 0x8), (0x40002020, 0x8), (0x40002024, 0x8), (0x40002028, 0x8), (0x4000202C, 0x8), (0x40002030, 0x8), (0x40002034, 0x8), (0x40002038, 0x8), (0x4000203C, 0x8)]

/-- The registers of block 3 that reset to something other than zero. -/
def resetBlock3 : List (Nat × Word) :=
  [(0x40003004, 0x4)]

/-- The registers of block 4 that reset to something other than zero. -/
def resetBlock4 : List (Nat × Word) :=
  [(0x40004000, 0x1), (0x40004004, 0xFFFF), (0x4000400C, 0x2840)]

/-- The registers of block 5 that reset to something other than zero. -/
def resetBlock5 : List (Nat × Word) :=
  [(0x40005000, 0x1), (0x40005008, 0x80)]

/-- The registers of block 6 that reset to something other than zero. -/
def resetBlock6 : List (Nat × Word) :=
  []

/-- The registers of block 7 that reset to something other than zero. -/
def resetBlock7 : List (Nat × Word) :=
  []

/-- The registers of block 8 that reset to something other than zero. -/
def resetBlock8 : List (Nat × Word) :=
  [(0x40008000, 0x2012), (0x40008004, 0x10)]

/-- The registers of block 9 that reset to something other than zero. -/
def resetBlock9 : List (Nat × Word) :=
  [(0x40009000, 0x2)]

/-- The registers of block 10 that reset to something other than zero. -/
def resetBlock10 : List (Nat × Word) :=
  []

/-- The registers of block 11 that reset to something other than zero. -/
def resetBlock11 : List (Nat × Word) :=
  [(0x4000B000, 0x803)]

/-- The registers of block 12 that reset to something other than zero. -/
def resetBlock12 : List (Nat × Word) :=
  [(0x4000C020, 0x74201F5C)]

/-- The registers of block 13 that reset to something other than zero. -/
def resetBlock13 : List (Nat × Word) :=
  [(0x4000D014, 0x400)]

/-- The registers of block 14 that reset to something other than zero. -/
def resetBlock14 : List (Nat × Word) :=
  [(0x4000E014, 0x2)]

/-- The registers of block 15 that reset to something other than zero. -/
def resetBlock15 : List (Nat × Word) :=
  []

/-- The registers of block 16 that reset to something other than zero. -/
def resetBlock16 : List (Nat × Word) :=
  []

/-- The registers of block 17 that reset to something other than zero. -/
def resetBlock17 : List (Nat × Word) :=
  [(0x40011004, 0x12580), (0x40011030, 0x10)]

/-- The registers of block 18 that reset to something other than zero. -/
def resetBlock18 : List (Nat × Word) :=
  [(0x40012000, 0x8), (0x40012004, 0x2800), (0x40012008, 0x1F4), (0x4001200C, 0x2300), (0x40012014, 0x2), (0x40012020, Config.loopGain.setWidth 32), (0x40012024, Config.loopOfs.setWidth 32)]

/-- The registers of block 19 that reset to something other than zero. -/
def resetBlock19 : List (Nat × Word) :=
  [(0x40013000, 0x7002), (0x40013004, 0xF0800C5), (0x40013008, 0x48000000), (0x4001300C, 0x100400C8), (0x40013010, 0x8000080), (0x40013014, 0xA0014), (0x40013018, 0x804F326), (0x4001301C, 0x500000), (0x40013020, 0xFF000), (0x40013030, 0x10000), (0x4001303C, 0x13880032)]

/-- The registers of block 20 that reset to something other than zero. -/
def resetBlock20 : List (Nat × Word) :=
  [(0x40014000, 0x6000018)]

/-- The registers of block 21 that reset to something other than zero. -/
def resetBlock21 : List (Nat × Word) :=
  [(0x40015020, 0x3522006), (0x40015024, 0x51F00A4), (0x40015028, 0x100D), (0x4001502C, 0x1926), (0x40015030, 0x320A), (0x40015034, 0x63C04), (0x40015050, 0x52200604), (0x40015054, 0x51F00A4), (0x40015058, 0x14), (0x400151C0, 0x647EF0), (0x400151C4, 0x1E62040C), (0x400151C8, 0x1B5800C8)]

/-- The registers of block 22 that reset to something other than zero. -/
def resetBlock22 : List (Nat × Word) :=
  [(0x40016028, 0xFFFFFFFF), (0x4001602C, 0xFFFFFFFF), (0x40016100, 0x100), (0x40016104, 0x1F00), (0x4001612C, 0x2000), (0x40016140, 0x100), (0x40016144, 0x1F00), (0x4001616C, 0x2000), (0x40016180, 0x100), (0x40016184, 0x1F00), (0x400161AC, 0x2000), (0x400161C0, 0x100), (0x400161C4, 0x1F00), (0x400161EC, 0x2000), (0x40016200, 0x100), (0x40016204, 0x1F00), (0x4001622C, 0x2000), (0x40016240, 0x100), (0x40016244, 0x1F00), (0x4001626C, 0x2000), (0x40016280, 0x100), (0x40016284, 0x1F00), (0x400162AC, 0x2000), (0x400162C0, 0x100), (0x400162C4, 0x1F00), (0x400162EC, 0x2000)]

/-- The registers of block 23 that reset to something other than zero. -/
def resetBlock23 : List (Nat × Word) :=
  []

/-- The registers of block 24 that reset to something other than zero. -/
def resetBlock24 : List (Nat × Word) :=
  []

/-- The registers of block P that reset to something other than zero. -/
def resetIntCtl : List (Nat × Word) :=
  [(0xE0000080, 0xFFFFFFFF), (0xE0000084, 0xFFFFFFFF), (0xE0000088, 0xFFFFFFFF), (0xE000008C, 0xFFFFFFFF), (0xE0000090, 0xFFFFFFFF), (0xE0000094, 0xFFFFFFFF), (0xE0000098, 0xFFFFFFFF), (0xE000009C, 0xFFFFFFFF), (0xE00000A0, 0xFFFFFFFF), (0xE00000A4, 0xFFFFFFFF), (0xE00000A8, 0xFFFFFFFF), (0xE00000AC, 0xFFFFFFFF), (0xE00000B0, 0xFFFFFFFF), (0xE00000B4, 0xFFFFFFFF), (0xE00000B8, 0xFFFFFFFF), (0xE00000BC, 0xFFFFFFFF), (0xE00000C0, 0xFFFFFFFF), (0xE00000C4, 0xFFFFFFFF), (0xE00000C8, 0xFFFFFFFF), (0xE00000CC, 0xFFFFFFFF), (0xE00000D0, 0xFFFFFFFF), (0xE00000D4, 0xFFFFFFFF), (0xE00000D8, 0xFFFFFFFF), (0xE00000DC, 0xFFFFFFFF), (0xE00000E0, 0xFFFFFFFF), (0xE00000E4, 0xFFFFFFFF), (0xE00000E8, 0xFFFFFFFF), (0xE00000EC, 0xFFFFFFFF), (0xE00000F0, 0xFFFFFFFF), (0xE00000F4, 0xFFFFFFFF), (0xE00000F8, 0xFFFFFFFF), (0xE00000FC, 0xFFFFFFFF), (0xE0000100, 0x4), (0xE0000104, 0x10), (0xE0000120, 0x300)]

/-- The registers of block G that reset to something other than zero. -/
def resetGuard : List (Nat × Word) :=
  [(0xE0001200, 0x770), (0xE0001204, 0x10)]

/-- The registers that power-on reset leaves other than zero, addresses rising. -/
def resetRegs : List (Nat × Word) :=
  resetBlock0 ++ resetBlock1 ++ resetBlock2 ++ resetBlock3 ++ resetBlock4 ++ resetBlock5 ++ resetBlock6 ++ resetBlock7 ++ resetBlock8 ++ resetBlock9 ++ resetBlock10 ++ resetBlock11 ++ resetBlock12 ++ resetBlock13 ++ resetBlock14 ++ resetBlock15 ++ resetBlock16 ++ resetBlock17 ++ resetBlock18 ++ resetBlock19 ++ resetBlock20 ++ resetBlock21 ++ resetBlock22 ++ resetBlock23 ++ resetBlock24

/-- The same of the core-private registers. -/
def resetPriv : List (Nat × Word) := resetIntCtl ++ resetGuard

end Sys2Proof.Machine
end

