-- ==== Sys2Proof/Machine/State.lean ====
section
/-! DEFINITION. The state of one part, as plain data: its role, its registers, its two cores, its memory, the
state of every block, what it has sent out, and the queue of commands that wait. -/

namespace Sys2Proof.Machine

/-- Why a command stops with a fault. -/
inductive Fault where
  /-- Nothing in this model raises it: every effect the spec describes ends in a next state. Safe. -/
  | none
  deriving DecidableEq, Repr

/-- Why a command is refused. -/
inductive Refusal where
  /-- Raised by `exec` for a command that has no meaning yet. Safe. -/
  | notModelled (mnemonic : String)
  deriving DecidableEq, Repr

/-- The register file: the registers that differ from zero, addresses strictly rising. -/
abbrev RegFile := List (Nat × Word)

/-! ### Memory -/

/-- Memory: the bytes that have been written, addresses strictly rising; the words whose stored parity is wrong;
the MRAM words with one or two wrong bits; the tags of sample-buffer words; the ranges
(first address, size) whose contents were lost; the OTP bytes programmed here;
the MRAM writes in progress, one per half; and the line time of the first discard of each sample-buffer window. -/
structure Mem where
  cells : List (Nat × Byte) := []
  badPar : List Nat := []
  ecc1 : List Nat := []
  ecc2 : List Nat := []
  tags : List (Nat × Nat) := []
  lost : List (Nat × Nat) := []
  otp : List (Nat × Byte) := []
  writing : List (Nat × Nat × Nat) := []
  gapFirst : List Nat := [0, 0, 0]
  deriving DecidableEq, Repr

/-- The state of a line in a data cache or the descriptor cache, other than I (R354). -/
inductive LineSt where
  | shared
  | exclusive
  | modified
  deriving DecidableEq, Repr

/-- A cached line: its base address, state, the world of its home (R353), its 32 bytes, the bytes whose parity
is wrong and whether the tag's parity is wrong (R370). -/
structure CLine where
  base : Nat
  st : LineSt
  world : World
  data : List Byte
  bad : List Nat
  tagBad : Bool
  deriving DecidableEq, Repr

/-! ### A core -/

/-- A tile register (R306): live or dead, rows, columns, format and elements in row-major order. -/
structure Tile where
  use : Bool
  rows : Nat
  cols : Nat
  fmt : Nat
  el : List Nat
  deriving DecidableEq, Repr

/-- A dead tile (R321). -/
def Tile.dead : Tile := ⟨false, 0, 0, 0, []⟩

/-- A multiplier or accumulator register whose writes land late (R287). -/
inductive LateReg where
  | mlo
  | mhi
  | acc0
  | acc1
  deriving DecidableEq, Repr

/-- A write on its way to such a register: the value and the core cycle in which it lands. -/
structure Landing where
  reg : LateReg
  val : Nat
  cycle : Nat
  deriving DecidableEq, Repr

/-- A loop register or LA bit whose new value does not govern loop-back yet (R297, R304): 0 LS, 1 LE, 2 LC, 3 LA;
the level; the value; how many more instructions use the old one. -/
structure LoopPend where
  kind : Nat
  lvl : Nat
  val : Nat
  wait : Nat
  deriving DecidableEq, Repr

/-- An entry of a store buffer (R358): the world and privilege of the store, the checked address, whether the guard
has been passed already, and the bytes from the store's address. -/
structure SBuf where
  world : World
  priv : Bool
  check : Nat
  checked : Bool
  addr : Nat
  data : List Byte
  deriving DecidableEq, Repr

/-- One Vudun core (Table 12.1, Tables 13.8 and 14.6), its caches, its store buffer, its interrupt controller and
its access guard. `gpr` holds w0 to w15 except w14, which is `sp`, banked by world and privilege. The second copies
`dls`, `dle`, `dlc` and `dla` of the loop registers are those that govern loop-back (R297). `heldRoute` holds the
INTROUTE changes that wait (R278): the source and whether it goes to Cantoris. `fresh` marks a Cantoris that has not run since
it was powered (R271). `dbgStep` lets a halted core run one instruction for the debugger (R393). -/
structure Core where
  gpr : List Word := List.replicate 16 0
  sp : List Word := List.replicate 4 0
  pc : Word := 0
  psr : Word := 0
  mlo : Nat := 0
  mhi : Nat := 0
  acc0 : Nat := 0
  acc1 : Nat := 0
  land : List Landing := []
  cyc : Nat := 0
  ls : List Word := [0, 0, 0]
  le : List Word := [0, 0, 0]
  lc : List Word := [0, 0, 0]
  dls : List Word := [0, 0, 0]
  dle : List Word := [0, 0, 0]
  dlc : List Word := [0, 0, 0]
  dla : Nat := 0
  lpend : List LoopPend := []
  vbase : List Word := [0, 0]
  trapaddr : List Word := [0, 0]
  trapinst : List Word := [0, 0]
  tiles : List Tile := List.replicate 8 Tile.dead
  tcause : Word := 0
  resv : Option Nat := none
  sbuf : List SBuf := []
  dc : List CLine := []
  ic : List (Nat × List Byte) := []
  priv : RegFile := resetPriv
  latch : Nat := 0
  active : List Nat := []
  notice : Option (World × Nat) := none
  lockup : Bool := false
  waiting : Bool := false
  dbgHalt : Bool := false
  dbgStep : Bool := false
  heldRoute : List (Nat × Bool) := []
  fresh : Bool := false
  deriving DecidableEq, Repr

/-! ### Pads, power, sleep, clocks, reset and boot -/

/-- What a pad drives: level, output enable, pull setting (R42). -/
structure PadDrive where
  level : Bool
  oe : Bool
  pull : Nat
  deriving DecidableEq, Repr

/-- The GP pads: the levels outside parts put on them, what HOLD froze on each held pad, whether E4 of a sleep entry
put the pads that are not held to their reset state, and the level of PWAKE_N. -/
structure Pads where
  level : Nat := 0
  held : List (Nat × PadDrive) := []
  asleep : Bool := false
  pwakeLow : Bool := false
  deriving DecidableEq, Repr

/-- Power entry beside its registers: whether VMAIN is fed by the selected source, whether the line was lost, VBAK has
qualified since the last brown-out scope (Table 3.4), the line over-voltage holds,
a grant that waits to be applied, whether a shed of Cantoris waits for the end of an SVC (R278), and the line draw in
units of 0.25 mA (R54). -/
structure Pwr where
  fed : Bool := false
  lineLost : Bool := false
  bakSeen : Bool := false
  ovLine : Bool := false
  grantPend : Option Nat := none
  shedXcall : Bool := false
  draw : Nat := 0
  deriving DecidableEq, Repr

/-- The five power states (Table 4.1). -/
inductive PState where
  | run
  | doze
  | cloister
  | crypt
  | off
  deriving DecidableEq, Repr

/-- Sleep beside its registers: the state; an entry between E5 and E6 with what a wake before E6 restores (PLLEN,
CLKSEL, the pads whose HOLD it set); a target deferred for a claim or a self-test slice; and the deepest state Rhoco
may choose on its own (R83). -/
structure Slp where
  st : PState := .run
  entering : Option PState := none
  savedPllen : Nat := 0
  savedSel : Nat := 0
  savedHold : List Nat := []
  deferred : Option PState := none
  policy : Nat := 1
  deriving DecidableEq, Repr

/-- Clocks and line time beside the registers: the 48-bit count and its fraction, what RTCTIMEH and LPTIMEH latched,
a CLKSEL write that is held and whether it is the one R90 restores (R104, R110), whether the root group is stopped
after a fallback, whether the Spire-only domains are held stopped (R109), whether the clock-fail timer runs, and the
accumulator of holdover ticks in units of 1/8,192,000 tick (R106), and whether the PLL has been started. -/
structure Clk where
  line : Nat := 0
  frac : Nat := 0
  latchH : Nat := 0
  hacc : Nat := 0
  heldSel : Option Nat := none
  heldRestored : Bool := false
  stopped : Bool := false
  spireHeld : Bool := false
  failTimer : Bool := false
  pllRun : Bool := false
  deriving DecidableEq, Repr

/-- One copy of the configuration record (R128): sequence number, digest valid, body bytes. -/
structure CfgCopy where
  seq : Nat := 0
  valid : Bool := false
  body : List (Nat × Byte) := []
  deriving DecidableEq, Repr

/-- Reset, boot and the configuration record. `hold` is a reset whose internal hold has not ended; `booted` says B9
has passed; `stopped` is Decani stopped under R136. `lrwd` is the last-resort watchdog's count at its last reload and `wdtWarn`
half of the watchdog's period (R135). `b7Window` is the 500 ms in which RECOVER acts (R137). The copies,
the logs (log number and record, newest first) and Rhoco's held changes stand for what Rhoco keeps in MRAM (R126, R128, R130,
R132). `waitDesc` holds descriptors whose change waits, with the status and RESULT they will complete with. `stageBlocks` are the
blocks whose settings staged chunks overlap (R132). `stopping` is an office stop whose write of RUN is held (R379), `offDesc` the
descriptor the office has in hand (R275), `tokWait` a TOKENS call that waits for the walk and `resetDue` a RESET that has completed (R131), `autostart` an office that waits for its tokens, with its guard regions (R138). `restoreDue` says that Rhoco has still to restore the blocks
that a CRYPT exit cleared (chapters 22 and 23). `marked` and `before` are the slot
the last IMAGE_COMMIT marked and the one active before (R130), `runVer` the KIND and VERSION of the images that run (R384). -/
structure Rst where
  hold : Bool := true
  booted : Bool := false
  stopped : Bool := false
  lrwd : Nat := 0
  wdtWarn : Bool := false
  copyA : CfgCopy := {}
  copyB : CfgCopy := {}
  useB : Bool := false
  staging : Bool := false
  stageBlocks : Nat := 0
  pendingCfg : List (Nat × Nat) := []
  waitDesc : List (Desc × Nat × Nat) := []
  stopping : Bool := false
  autostart : Option (Nat × List (Nat × Word)) := none
  restoreDue : Bool := false
  marked : Option Nat := none
  before : Option Nat := none
  offDesc : Option Desc := none
  tokWait : Option (Caller × Nat) := none
  resetDue : Bool := false
  b7Window : Bool := false
  logs : List (Nat × List Byte) := []
  runVer : List (Nat × Nat) := []
  deriving DecidableEq, Repr

/-! ### The line: node side, driver side -/

/-- An uplink frame that waits to be sent, or was sent and is not acknowledged (R189): superframes since it was
sent (none: to be sent) and the number of times it was sent. -/
structure Tx where
  f : Frame
  sent : Option Nat
  tries : Nat
  deriving DecidableEq, Repr

/-- The node side of the line (Cell, Crossing on walk 0, or a Lectern session). `stAddr` (a Cell address, or a Crossing's walk),
`stWalk` and `stSystem` stand for what MRAM keeps of address, walk and SYSTEM (R193). A JOIN is owed, has been sent, has been
answered (`joinOwed`, `joinSent`, `joined`). `beaconAge` counts superframes since the last beacon; `slots` the granted slots left
in this superframe; `attn` that ATTN was pulsed in this superframe's sweep. Per ring: the last SEQ sent and accepted; rings that
owe an ACK, or a WIN announcement (R224). `up` holds the uplink frames; `inbox` the descriptors received and not completed. The tokens
wanted, and whether TOK is due (R191); the superframes of the last transmitter cuts, and whether the modulator is cut until the
next beacon (R177). The Lectern session, its address and the last SEQ accepted from it per ring. For a Crossing: frames to relay
up, frames forwarded since RELCRED last told, and records for REPORT frames (R198, R572); whether it gives up its walk and owes
the ACKF that confirms it (R21). The last beacon's walk, SYSTEM, SYNC and MUSTER. -/
structure Node where
  stAddr : Option Nat := none
  stWalk : Option Nat := none
  stSystem : Nat := 0
  joinOwed : Bool := false
  joinSent : Bool := false
  joined : Bool := false
  beaconAge : Option Nat := none
  slots : Nat := 0
  attn : Bool := false
  seqTx : List Nat := [0, 0, 0, 0]
  seqRx : List Nat := [0, 0, 0, 0]
  ackDue : List Nat := []
  winDue : List Nat := []
  up : List Tx := []
  inbox : List Desc := []
  wanted : Nat := 0
  tokDue : Bool := false
  cuts : List Nat := []
  modCut : Bool := false
  session : Bool := false
  sessAddr : Option Nat := none
  sessRx : List Nat := [0, 0, 0, 0]
  relayUp : List Frame := []
  relCred : Nat := 0
  reports : List (List Byte) := []
  leaving : Bool := false
  bWalk : Nat := 0
  bSys : Nat := 0
  bSync : Bool := false
  bMuster : Bool := false
  deriving DecidableEq, Repr

/-- An entry of a driver's enrolment table (R193) with what the driver tracks of that Cell: whether it was declared absent; whether an ASSIGN, RANGE or TIME frame is unanswered; descriptors sent and not completed; consecutive
silent sweeps, bad slots and silent musters; tokens held and wanted; whether its last frame carried MORE; RANGE measurements
still to make and the sum so far. -/
structure Enr where
  pos : Nat
  uid : Nat
  absent : Bool
  asked : Bool
  descs : Nat
  silent : Nat
  badSlots : Nat
  missed : Nat
  held : Nat
  wanted : Option Nat
  more : Bool
  ranges : Nat
  rsum : Int
  deriving DecidableEq, Repr

/-- A Crossing on walk 0 as the Chapter tracks it: its walk, its unique ID, silent sweeps, bad slots, whether it is absent, MORE, the
relay credits left (R198), and RANGE measurements still to make with the sum so far. -/
structure Xing where
  n : Nat
  uid : Nat
  silent : Nat
  badSlots : Nat
  absent : Bool
  more : Bool
  relay : Nat
  ranges : Nat
  rsum : Int
  deriving DecidableEq, Repr

/-- A roll call in progress (R192): the stack of prefixes and depths, the probe whose window is open, and the parts assigned. -/
structure Roll where
  stack : List (Nat × Nat)
  probing : Option (Nat × Nat)
  found : Nat
  deriving DecidableEq, Repr

/-- A SET_WALK that waits for its Crossing (R21): its unique ID, the walk, the descriptor, and the superframes passed. -/
structure SetWalkPend where
  uid : Nat
  n : Nat
  d : Desc
  age : Nat
  deriving DecidableEq, Repr

/-- A downlink frame that waits or was sent (R189): whether it is relayed unchanged, superframes since it was sent (none: to
be sent) and how often it was sent. A DESC of this driver stays until it is acknowledged. -/
structure Dn where
  f : Frame
  relay : Bool
  age : Option Nat
  tries : Nat
  deriving DecidableEq, Repr

/-- A Local descriptor forwarded to a Crossing (R180): its walk, the SEQ it went down under (none while it waits for a credit),
and the result bytes written. -/
structure Fwd where
  n : Nat
  seq : Option Nat
  d : Desc
  rlen : Nat
  deriving DecidableEq, Repr

/-- The driver side of the walk this part drives (Chapter: walk 0; Crossing: its walk). A contest test under way and the
WALK_POWER that waits for it; the start-up ramp; over-voltage of WSUP; turn-offs of the last 60 s and the last of all; a restart that is due.
The enrolment table, the Crossings, bound IDs and positions, Crossings found; the roll call. The token book (R146, R148, R149):
tokens granted, those in quarantine with the superframes left and the position, and those returned in this superframe; requests in order.
Flags of conditions already reported. Stray and babble counts (R176, R178). The muster's beacon count and
the sweep of a muster. The round-robin positions of R188; positions and slots of this superframe. The downlink: frames, whether
its period is open, bits left and probes sent in it; SEQ per peer and ring each way; ACKs and token answers due. A rate
change, its watch, what is held; a time step to announce (R197); a SET_WALK that waits; SYSTEM; whether HOLD is sent; slots that
failed where a JOIN is expected (R201); Cells of other walks declared absent; descriptors forwarded. -/
structure Drv where
  testing : Bool := false
  powerDesc : Option Desc := none
  ovWsup : Bool := false
  offTimes : List Nat := []
  lastOff : Option Nat := none
  retryDue : Bool := false
  enr : List Enr := []
  xings : List Xing := []
  binds : List (Nat × Nat) := []
  found : List Nat := []
  roll : Option Roll := none
  granted : Nat := 0
  quar : List (Nat × Nat × Nat) := []
  freed : Nat := 0
  reqs : List Nat := []
  deficitSeen : Bool := false
  overloadSeen : Bool := false
  stray : Nat := 0
  strayOk : Nat := 0
  noGrant : Bool := false
  babble : Nat := 0
  beacons : Nat := 0
  muster : Bool := false
  rr1 : Nat := 0
  rr3 : Nat := 0
  quietLast : Bool := false
  slotsFor : List (Nat × Nat) := []
  dn : List Dn := []
  dnOpen : Bool := false
  dnRoom : Nat := 0
  probes : Nat := 0
  seqTx : List (Nat × Nat) := []
  seqRx : List (Nat × Nat) := []
  ackDue : List Nat := []
  tokDue : List Nat := []
  rateChg : Option (Nat × Nat) := none
  prevRate : Nat := 0
  rateWatch : Option (Nat × Nat × Nat) := none
  timeStep : Option (Nat × Nat) := none
  pendWalk : Option SetWalkPend := none
  system : Option Nat := none
  syncOut : Bool := false
  conflicts : List (Nat × Nat) := []
  gone : List Nat := []
  fwd : List Fwd := []
  deriving DecidableEq, Repr

/-! ### The host link and the Scriptorium -/

/-- One MSI-X table entry (R219). -/
structure Vec where
  addr : Nat
  data : Nat
  mask : Bool
  deriving DecidableEq, Repr

/-- The host link beside its registers (R214 to R230): configuration space words the host wrote, the MSI-X
structures, the device power state, and what the PHY reports. `winAsk` is a core's read of the host window that waits for its answer,
`winAns` the answer it takes (R221). -/
structure Hl where
  cfg : RegFile := []
  bme : Bool := false
  msixEn : Bool := false
  msixMask : Bool := false
  vecs : List Vec := []
  pba : List Nat := []
  pmeEn : Bool := false
  pmeStatus : Bool := false
  perstLow : Bool := false
  vphyGood : Bool := false
  refLock : Bool := false
  half : Option (Nat × List Byte) := none
  winAns : Option (CoreId × Nat × Option (List Byte)) := none
  winAsk : Option (CoreId × Nat) := none
  aer : List Nat := []
  clkPm : Bool := false
  readyL23 : Bool := false
  deriving DecidableEq, Repr

/-- An enabled ring as the part keeps it (Tables 11.2 and 11.4). `fetch` is the next slot to fetch, `done` the
slots completed ahead of DHEAD, `fill` the bytes in the current stream buffer, its first frame's time and the
superframes since a byte was added. -/
structure Ring where
  n : Nat
  dbase : Nat
  cbase : Nat
  kind : Nat
  log2n : Nat
  vector : Nat
  signal : Bool
  p : Nat
  ch : Nat
  dhead : Nat
  ctail : Nat
  st : Nat
  err : Nat
  lane : Nat
  fetch : Nat
  done : List Nat
  fill : Nat
  fillTime : Nat
  fillAge : Nat
  deriving DecidableEq, Repr

/-- A descriptor the Scriptorium holds: its tag, ring, slot and lane, whether it went down the line and under which
SEQ, and the result bytes written so far. Phase 0 waits in its lane, 1 is with Rhoco, 2 is on the line, 3 has a
completion that waits for room, 4 is a stream descriptor not yet posted and 5 a posted stream buffer. -/
structure Held where
  tag : Nat
  ring : Nat
  slot : Nat
  lane : Nat
  d : Desc
  phase : Nat
  seq : Nat
  rlen : Nat
  entry : List Byte
  deriving DecidableEq, Repr

/-- The credit book of one ring (Table 7.4): G, C, whether the window is known, and the stale count D (R224). -/
structure Credit where
  ring : Nat
  g : Nat
  c : Nat
  known : Bool
  asked : Bool
  stale : Nat
  staleSeq : List Nat
  deriving DecidableEq, Repr

/-- The Scriptorium (Chapter role): rings, descriptors held (newest first), credit books, descriptors that completed LANE_LOST whose own
completion is still to come (peer and ring, SEQ), the record queue of R225, doorbells that arrived before SCRRDY (with the
ring context ENABLE reads), fences whose LANE_LOST completions are not all written, and whether R252 stopped it. -/
structure Scr where
  rings : List Ring := []
  held : List Held := []
  credits : List Credit := []
  lost : List (Nat × Nat) := []
  recq : List (List Byte) := []
  recDropped : Nat := 0
  recFirst : Nat := 0
  bells : List (Nat × List Byte × Option (List Byte)) := []
  fences : List (Nat × List Byte × List Nat) := []
  failed : Bool := false
  deriving DecidableEq, Repr

/-! ### The Sacristy -/

/-- A cut that waits for the release of the blocks it cuts (R379, R380): the field, the value held for it, and the
set of block numbers it cuts. -/
structure Cut where
  f : Fld
  val : Nat
  blocks : Nat
  deriving DecidableEq, Repr

/-- An engine command in progress (R387): the command, its source, destination, length and key. -/
structure Eng where
  cmd : Nat
  src : Nat
  dst : Nat
  len : Nat
  key : Nat
  deriving DecidableEq, Repr

/-- The Sacristy beside its registers: held cuts in the order they were held, the violation queue, the challenge,
the staging buffer, the seal header and which copy holds it, and the engines. -/
structure Sac where
  cuts : List Cut := []
  sysrst : Option Word := none
  vq : List (List Byte) := []
  vDropped : Nat := 0
  vFirst : Nat := 0
  vlogN : Nat := 0
  chal : Option (List Byte) := none
  stage : List Byte := []
  seq : Nat := 0
  ack : Nat := 0
  missed : Nat := 0
  cutCount : Nat := 0
  restarts : Nat := 0
  claims : Nat := 0
  epoch : Nat := 0
  lastTag : List Byte := []
  copyB : Bool := false
  valid : Bool := false
  eng : Option Eng := none
  rngFail : Bool := false
  deriving DecidableEq, Repr


/-! ### The measuring, output and test blocks -/

/-- The sensor front end beside its registers: whether VEX is driven, in its settling interval, and there because its level
changed; the slot being converted and its configuration; the range each slot last used; whether the slot converts
again after a range change; unsettled outputs to come; CONT's calls for a higher range (count and lowest range); a time
word owed and words since the last; a start that is held; the due time of an armed start; the condition bits of
Table 18.9 that hold now and whether one applied during the conversion; monitor run lengths; positive overloads per
slot; starts missed and their causes since the last GAP; scans since the last seal; the scan's time word; and a
descriptor that waits for the settling interval. -/
structure Sfe where
  vex : Bool := false
  settling : Bool := false
  relevel : Bool := false
  slot : Nat := 0
  cfg : Nat := 0
  range : List (Option Nat) := List.replicate 7 none
  again : Bool := false
  unset : Nat := 0
  upCount : Nat := 0
  upMin : Nat := 7
  timeOwed : Bool := false
  sinceTime : Nat := 0
  held : Bool := false
  due : Nat := 0
  cond : Nat := 0
  susp : Bool := false
  loRun : Nat := 0
  hiRun : Nat := 0
  opens : List Nat := List.replicate 7 0
  missed : Nat := 0
  causes : Nat := 0
  scans : Nat := 0
  scanTime : Nat := 0
  desc : Option Desc := none
  deriving DecidableEq, Repr

/-- The loop output beside its registers: whether the forcing of R120 or of a failed self-test slice is in effect, the
update timeout and the source fault that hold FAULT, consecutive readback readings that disagree and agree, the
map (source number, 0xFF for none, with LRV and URV), and the code a calibration step holds. -/
structure LoopOut where
  forced120 : Bool := true
  forcedTest : Bool := false
  late : Bool := false
  srcBad : Bool := false
  badRun : Nat := 0
  okRun : Nat := 0
  mapSrc : Nat := 0xFF
  lrv : Int := 0
  urv : Int := 0
  calHold : Option Nat := none
  deriving DecidableEq, Repr

/-- What Font keeps of one shot: whether it is valid and else why (1 NOSPACE, 2 NOECHO, 3 SAT, 4 EDGE, 5 SKIP, 6 OFFLOAD),
n_thr, PWR and the peak, the time T in fs, and for an offloaded correlation the search start, the destination of y
and whether its answer is still awaited. -/
structure FShot where
  ok : Bool := false
  cause : Nat := 0
  nthr : Nat := 0
  pwr : Nat := 0
  peak : Nat := 0
  t : Int := 0
  s0 : Nat := 0
  dst : Nat := 0
  awaits : Bool := false
  deriving DecidableEq, Repr

/-- Font beside its registers. `phase` is 0 between ticks, 1 while VBST charges, 2 and 4 while the upstream and the
downstream shot are captured, 3 between them, 5 while a pair waits for its processing, 6 between pairs, 7 when
the result is due. The other fields: the due time of the next tick and of the last; the pair number, the pairs and the
median length of this tick; the two shots; the history of valid pair times; sums over the tick; the gain; runs of
empty pairs, of SKIP pairs and of results below FLOWOFF; per port the run of bad and good checks and the fault (1 absent,
2 short); the causes of uncovered time; the last result's time, and whether it was valid; the fractions of VOL and GAPMS. -/
structure Font where
  phase : Nat := 0
  due : Option Nat := none
  lastDue : Nat := 0
  stopping : Bool := false
  pair : Nat := 0
  pairs : Nat := 0
  med : Nat := 1
  up : FShot := {}
  dn : FShot := {}
  hist : List Int := []
  nvalid : Nat := 0
  sumDt2 : Int := 0
  sumT2 : Int := 0
  weak : Bool := false
  gain : Nat := 15
  emptyRun : Nat := 0
  skipRun : Nat := 0
  lowRun : Nat := 0
  badRun : List Nat := [0, 0]
  goodRun : List Nat := [0, 0]
  fault : List Nat := [0, 0]
  causes : Nat := 0
  lastAt : Option Nat := none
  lastOk : Bool := false
  volFrac : Int := 0
  gapFrac : Nat := 0
  deriving DecidableEq, Repr

/-- Motion beside its registers. `mode` is 0 when nothing runs, 1 a stream, 2 an armed capture whose time has not come,
3 a capture, 4 INCL, 5 the self-test. The other fields: the anchor a0 in line time and root cycles; the next grid instant; whether each
sensor is settled; whether a time record is owed; the accelerometer's last values with the run of identical ones per axis;
the run of data-ready timeouts per sensor; the timing of the last strobe; the die is too
hot; the instants recorded; the records that wait while Font holds port A; the upload and the RP acknowledged; the
descriptor that waits for INCL or the self-test, and how often the self-test was disturbed. -/
structure Motion where
  mode : Nat := 0
  t : Nat := 0
  tFrac : Nat := 0
  n : Nat := 0
  setA : Bool := false
  setG : Bool := false
  timeOwed : Bool := false
  lastA : List Int := []
  runA : List Nat := [0, 0, 0]
  tmoA : Nat := 0
  tmoG : Nat := 0
  spire : Bool := false
  hot : Bool := false
  recorded : Nat := 0
  fifo : List (Nat × Nat) := []
  upload : Bool := false
  upPtr : Nat := 0
  upSent : List (Nat × Nat) := []
  desc : Option Desc := none
  tries : Nat := 0
  deriving DecidableEq, Repr

/-- An entry of the event FIFO (R486): its three words, whether it is a gap marker, and what of a TILT entry's six DATA
bytes its 32-bit word 2 does not hold. -/
structure Evf where
  w0 : Nat
  w1 : Nat
  w2 : Nat
  gap : Bool
  more : Nat
  deriving DecidableEq, Repr

/-- A shock detector (R483): whether a shock, or the QUIET interval after one, is under way; whether it has ended; the quiet
samples so far; its length, peak, first sample and first sample below THR; and whether it is rejected already. -/
structure Shock where
  active : Bool := false
  ended : Bool := false
  quiet : Nat := 0
  len : Nat := 0
  peak : Nat := 0
  start : Nat := 0
  stop : Nat := 0
  bad : Bool := false
  deriving DecidableEq, Repr

/-- The knock recogniser (R485), which CRYPT keeps: the number of shock samples taken, its detector, the accepted shocks of
the pattern with the last one's start and end, the greatest peak and the last gap, the sample at which a complete
pattern is recognised when GUARD is later, and the samples left of the hold-off. -/
structure Knock where
  n : Nat := 0
  det : Shock := {}
  count : Nat := 0
  last : Nat := 0
  stop : Nat := 0
  peak : Nat := 0
  gap : Nat := 0
  due : Option Nat := none
  hold : Nat := 0
  deriving DecidableEq, Repr

/-- A Ringer engine beside its registers (R488, R489): at WAIT and with which mask, the triggers pending, TRIG[5:0], the
instructions run since its last trigger, and the time its timer is armed for. -/
structure Engine where
  waiting : Bool := false
  mask : Nat := 0
  pend : Nat := 0
  trig : Nat := 0
  icount : Nat := 0
  due : Option Nat := none
  deriving DecidableEq, Repr

/-- The recognisers and Ringers beside their registers: the event FIFO and the time of its first drop; the knock recogniser;
the TAP detector and an accepted shock that may be half of a double tap (start, peak); the last accelerometer sample;
the code of the last recogniser or touch event; the engines; the rate and full scale the recognisers run at; their
samples, newest first; STEP's last two values of S, the samples since the last step, the steps in a row and those since
the last event; FREEFALL's and SETTLE's runs; and TILT's averages, runs and whether its event is raised. -/
structure Ringers where
  evf : List Evf := []
  evFirst : Nat := 0
  kn : Knock := {}
  tap : Shock := {}
  tapPend : Option (Nat × Nat) := none
  ax : Int := 0
  ay : Int := 0
  az : Int := 0
  lastCode : Nat := 0
  eng : List Engine := List.replicate 8 {}
  rate : Option (Nat × Nat) := none
  win : List (Int × Int × Int) := []
  s1 : Option Int := none
  s2 : Option Int := none
  sinceStep : Option Nat := none
  row : Nat := 0
  sinceEv : Nat := 0
  ffRun : Nat := 0
  ffDone : Bool := false
  seOn : Bool := false
  seRun : Nat := 0
  tilt : Option (Int × Int × Int) := none
  tiltRun : Nat × Nat × Nat := (0, 0, 0)
  tiltDone : Bool := false
  deriving DecidableEq, Repr

/-- One touch electrode beside its registers (R494, R498): measurements still to average into BASE and their sum so far, the
runs that make DOWN, UP and a rebase, the line time of the touch, consecutive bad measurements, and good ones since a
fault. -/
structure Electrode where
  cal : Nat := 0
  sum : Nat := 0
  down : Nat := 0
  up : Nat := 0
  low : Nat := 0
  since : Nat := 0
  bad : Nat := 0
  good : Nat := 0
  deriving DecidableEq, Repr

/-- Touch beside its registers: whether its Chorister runs the touch program for it, and the electrodes. -/
structure Touch where
  on : Bool := false
  el : List Electrode := List.replicate 4 {}
  deriving DecidableEq, Repr

/-- An instruction that stalls or is suspended (R513): its word, its PC, whether it was injected, the bits it has taken,
what it has taken for its destination, for IN its sampled source, and the stall's kind (Table 23.4). -/
structure ChStall where
  word : Nat
  pc : Nat
  inj : Bool
  part : Nat
  acc : Nat
  src : Nat
  kind : Nat
  deriving DecidableEq, Repr

/-- A Chorister engine beside its registers (R500): PC, X and Y; OSR and ISR with their counts; steps of delay left; its
chain queues; the injection that waits; the instruction that stalls, and the one that is suspended; whether CHOR_STALL was
posted for this stall; the pin registers and enables; and its divider's
accumulator. -/
structure ChEng where
  pc : Nat := 0
  x : Nat := 0
  y : Nat := 0
  osr : Nat := 0
  ocnt : Nat := 32
  isr : Nat := 0
  icnt : Nat := 0
  delay : Nat := 0
  tx : List Nat := []
  rx : List Nat := []
  inj : Option Nat := none
  stall : Option ChStall := none
  susp : Option ChStall := none
  posted : Bool := false
  out : Nat := 0
  oe : Nat := 0
  acc : Nat := 0
  deriving DecidableEq, Repr

/-- The Choristers beside their registers: the engines, the action counter and the edges it stands still for (R502), what ACTCNTL's read latched, writes held during a root switch, the engine that runs the touch
program, the touch strobes, and the touch comparator. -/
structure Chor where
  eng : List ChEng := List.replicate 8 {}
  act : Nat := 0
  still : Nat := 0
  latchH : Nat := 0
  heldWr : List (Nat × Nat) := []
  touchEng : Option Nat := none
  strobes : Nat := 0
  tcmp : Bool := false
  deriving DecidableEq, Repr

/-- The Buttress latch and what the field checks keep (R526 to R533), one bit per output: latched levels, safe settings,
outputs that went to their safe level, outputs off for a short or an over-temperature, retries due, and the times of
their turn-offs; VFLD qualified and over-voltage; whether the logic is silent; the last FOKICK and the last keepalive. -/
structure Field where
  latch : Nat := 0
  safe : Nat := 0
  safeLvl : Nat := 0
  safed : Nat := 0
  short : Nat := 0
  therm : Nat := 0
  retry : Nat := 0
  times : List (List Nat) := [[], []]
  vok : Bool := false
  ov : Bool := false
  silent : Bool := false
  kick : Option Nat := none
  ka : Option Nat := none
  deriving DecidableEq, Repr

/-- Self-test beside its registers (chapter 25): Rhoco's cursor and pace; the five counts of each slice (index 5 × slice +
count; only those not 0) and their last copy in MRAM; consecutive skips at the cursor; the slice that waits or runs, whether
it runs, and whether the pace asked for it; the descriptor that asked, the slices it still has to run, its confirmed
failures and the status it will complete with; and the writes held until the restore completes (R110, R547). -/
structure SelfTest where
  cursor : Nat := 0
  pace : Nat := 10
  counts : List (Nat × Nat) := []
  copied : List (Nat × Nat) := []
  skips : Nat := 0
  cur : Option Nat := none
  running : Bool := false
  byPace : Bool := false
  req : Option Desc := none
  todo : List Nat := []
  fails : Nat := 0
  worst : Nat := 0
  heldWr : List (World × Nat × Word) := []
  deriving DecidableEq, Repr

/-- The test access port (R560, R561): the instruction it holds (0 BYPASS, 1 SAMPLE/PRELOAD, 2 EXTEST, 3 debug access),
and the 60 cells of the boundary register as last updated, cell 0 first. -/
structure Tap where
  ir : Nat := 0
  latch : List Bool := []
  deriving DecidableEq, Repr

/-! ### What the part sends out -/

/-- What the part has sent out or shown outside, in `State.out`, the newest first. -/
inductive Out where
  /-- A frame sent on a port. -/
  | frame (p : Port) (f : Frame)
  /-- An attention pulse: the part's sweep index and whether it is the BUSY pulse. -/
  | pulse (p : Port) (index : Nat) (busy : Bool)
  /-- A pulse of a newcomer in an element of a probe's answer window, and the pulse that answers a RANGE frame. -/
  | probePulse (v : Nat)
  | rangePulse
  /-- Bytes written to host memory. -/
  | hostWrite (addr : Nat) (data : List Byte)
  /-- A read request to host memory. -/
  | hostRead (addr len : Nat)
  /-- What a read of the part answers: the address read and the bytes. -/
  | reply (addr : Nat) (data : List Byte)
  /-- An MSI-X message: its address and data. -/
  | msix (addr data : Nat)
  /-- A configuration request's answer, or its Retry Status; an access completed as Unsupported Request. -/
  | cfgReply (value : Nat)
  | cfgRetry
  | unsupported
  /-- A PME message of the host link. -/
  | pme
  /-- The state of the boundary register or the data register shifted out at the debug port. -/
  | tdo (bits : List Bool)
  deriving DecidableEq, Repr

/-! ### The part -/

/-- One DR-7420: everything the spec gives it, what it has sent out, the counter of free values (the model's own),
and the commands that wait, first in, first out. -/
structure State where
  role : Role
  latched : Bool
  regs : RegFile
  dec : Core
  cant : Core
  mem : Mem
  pads : Pads
  pwr : Pwr
  slp : Slp
  clk : Clk
  rst : Rst
  node : Node
  drv : Drv
  hl : Hl
  scr : Scr
  sac : Sac
  descCache : List CLine
  sfe : Sfe
  loop : LoopOut
  font : Font
  mot : Motion
  ring : Ringers
  touch : Touch
  chor : Chor
  fio : Field
  st : SelfTest
  tap : Tap
  out : List Out
  free : Nat
  pending : List Instr
  deriving DecidableEq, Repr

/-- Decani as a reset leaves it: Sacristy supervisor with IE = 0 at PC 0 (R258, R305). -/
def Core.decaniReset : Core := { psr := 3 }

/-- Cantoris while its domain is unpowered (R271). -/
def Core.off : Core := {}

/-- The part when the VAO supervisor releases power-on reset (R118, R138 edge B1): every register at its Reset
column, the role not latched, no source qualified, memory with nothing listed, nothing sent and nothing waiting. -/
def State.reset : State :=
  { role := .cell, latched := false, regs := resetRegs, dec := Core.decaniReset, cant := Core.off,
    mem := {}, pads := {}, pwr := {}, slp := {}, clk := {}, rst := {}, node := {}, drv := {}, hl := {}, scr := {},
    sac := {}, descCache := [], sfe := {}, loop := {}, font := {}, mot := {}, ring := {}, touch := {}, chor := {},
    fio := {}, st := {}, tap := {}, out := [], free := 0, pending := [] }

end Sys2Proof.Machine
end

