-- ==== Sys2Proof/Machine/Ops.lean ====
section
/-! DEFINITION. The named operations over registers, free values, outputs, cores and memory bytes, and the queue
primitive with drop handling. -/

namespace Sys2Proof.Machine

open Sys2Proof

/-! ### The register file -/

/-- The value of a register; a register the file does not list is zero. -/
def rget : RegFile → Nat → Word
  | [], _ => 0
  | (k, w) :: r, a => if k = a then w else rget r a

/-- Insert or replace a non-zero value, keeping the addresses rising. -/
def rins : RegFile → Nat → Word → RegFile
  | [], a, v => [(a, v)]
  | (k, w) :: r, a, v =>
    if k < a then (k, w) :: rins r a v
    else if k = a then (a, v) :: r
    else (a, v) :: (k, w) :: r

/-- Write a register; a register that becomes zero is no longer listed. -/
def rput (r : RegFile) (a : Nat) (v : Word) : RegFile :=
  if v = 0 then r.filter (fun p => p.1 != a) else rins r a v

/-- The field `f` of a register's value. -/
def fldOf (w : Word) (f : Fld) : Nat := (w.extractLsb' f.lo f.w).toNat

/-- The mask of a field. -/
def Fld.mask (f : Fld) : Word := (BitVec.allOnes f.w).setWidth 32 <<< f.lo

/-- A register's value with the field `f` set to the low bits of `v`. -/
def putFld (w : Word) (f : Fld) (v : Nat) : Word :=
  (w &&& ~~~f.mask) ||| ((BitVec.ofNat 32 v <<< f.lo) &&& f.mask)

/-- A register of the part. -/
def State.reg (s : State) (a : Nat) : Word := rget s.regs a

/-- Set a whole register. -/
def State.setReg (s : State) (a : Nat) (v : Word) : State := { s with regs := rput s.regs a v }

/-- A field of the part's registers, as a number. -/
def State.fld (s : State) (f : Fld) : Nat := fldOf (s.reg f.addr) f

/-- A field read as a bit. -/
def State.on (s : State) (f : Fld) : Bool := s.fld f != 0

/-- Set one field. -/
def State.setFld (s : State) (f : Fld) (v : Nat) : State := s.setReg f.addr (putFld (s.reg f.addr) f v)

/-- Set several fields, in order. -/
def State.sets (s : State) (l : List (Fld × Nat)) : State := l.foldl (fun t p => t.setFld p.1 p.2) s

/-- Set flag bits to 1. -/
def State.raise (s : State) (l : List Fld) : State := l.foldl (fun t f => t.setFld f 1) s

/-- Count one more in a saturating counter field. -/
def State.count (s : State) (f : Fld) : State := s.setFld f (satAdd (2 ^ f.w - 1) (s.fld f) 1)

/-- Count `n` more in a saturating counter field. -/
def State.countBy (s : State) (f : Fld) (n : Nat) : State := s.setFld f (satAdd (2 ^ f.w - 1) (s.fld f) n)

/-- Set every register of one address range back to the values of a reset list. -/
def rreset (r : RegFile) (lo hi : Nat) (vals : List (Nat × Word)) : RegFile :=
  r.filter (fun p => p.1 < lo) ++ vals.filter (fun p => lo ≤ p.1 && p.1 < hi) ++ r.filter (fun p => hi ≤ p.1)

/-- The page of peripheral block `k` (R326). -/
def blockBase (k : Nat) : Nat := 0x40000000 + 0x1000 * k

/-- Peripheral block `k` back at its Reset column. -/
def State.resetBlock (s : State) (k : Nat) : State :=
  { s with regs := rreset s.regs (blockBase k) (blockBase (k + 1)) resetRegs }

/-- The number with bit `n` set to a value. -/
def bitTo (v n : Nat) (b : Bool) : Nat := v - (if v.testBit n then 2 ^ n else 0) + (if b then 2 ^ n else 0)

/-! ### Free values and outputs -/

/-- The next free value (Log 3). -/
def State.free? (s : State) : Nat := Config.free s.free

/-- Advance the counter of free values by `n`. -/
def State.used (s : State) (n : Nat) : State := { s with free := s.free + n }

/-- `n` free bytes, from the counter on. -/
def freeBytes (base n : Nat) : List Byte := (List.range n).map (fun i => BitVec.ofNat 8 (Config.free (base + i)))

/-- Send something out of the part. -/
def State.emit (s : State) (o : Out) : State := { s with out := o :: s.out }

/-- Line time as 48 bits (R107). -/
def State.now (s : State) : Nat := s.clk.line % 2 ^ 48

/-- Line time as the six bytes a record carries. -/
def State.timeBytes (s : State) : List Byte := leBytes 6 s.now

/-- The one-line test of whether a scheduled time has passed: `((t - now) mod 2^48) >= 2^47` (chapter 0). -/
def past (t now : Nat) : Bool := decide (2 ^ 47 ≤ (t + 2 ^ 48 - now % 2 ^ 48) % 2 ^ 48)

/-- A quotient whose rounding the spec leaves open (Log 11): exact where it is whole, else one of the two neighbours. -/
def openQuot (a : Int) (b : Nat) : Int :=
  if a % b = 0 then a / b else a / b + (if Config.roundUp a b then 1 else 0)

/-- Whether a scheduled time has come: it is now or past. -/
def reached (t now : Nat) : Bool := t % 2 ^ 48 = now % 2 ^ 48 || past t now

/-- How late a past time is, saturating (R410, R469, R491, R509). -/
def lateness (t now : Nat) : Nat := min (2 ^ 32 - 1) ((now + 2 ^ 48 - t % 2 ^ 48) % 2 ^ 48)

/-! ### Cores -/

/-- One of the two cores. -/
def State.core (s : State) : CoreId → Core
  | .decani => s.dec
  | .cantoris => s.cant

/-- Replace a core. -/
def State.setCore (s : State) : CoreId → Core → State
  | .decani, k => { s with dec := k }
  | .cantoris, k => { s with cant := k }

/-- The world a PSR names (Table 12.2). -/
def psrWorld (p : Word) : World := if p.getLsbD 1 then .sacristy else .nave

/-- The world a core is in. -/
def Core.world (k : Core) : World := psrWorld k.psr

/-- Whether a core is in supervisor privilege. -/
def Core.sup (k : Core) : Bool := k.psr.getLsbD 0

/-- The index of the copy of w14 of a world and privilege (Table 12.1). -/
def spIx (w : World) (sup : Bool) : Nat := 2 * w.ix + b2n sup

/-- A general register as the running context sees it: w14 is banked by world and privilege (Table 12.1). -/
def Core.w (k : Core) (r : Reg) : Word :=
  if r = 14 then k.sp.getD (spIx k.world k.sup) 0 else k.gpr.getD r.val 0

/-- Set a copy of w14: its bits [1:0] stay 0 (Table 12.1). -/
def Core.setSp (k : Core) (i : Nat) (v : Word) : Core := { k with sp := k.sp.set i (v &&& 0xFFFFFFFC) }

/-- Write a general register as the running context sees it. -/
def Core.setW (k : Core) (r : Reg) (v : Word) : Core :=
  if r = 14 then k.setSp (spIx k.world k.sup) v else { k with gpr := k.gpr.set r.val v }

/-- A field of a core-private register. -/
def Core.pfld (k : Core) (f : Fld) : Nat := fldOf (rget k.priv f.addr) f

/-- Set a field of a core-private register. -/
def Core.setPfld (k : Core) (f : Fld) (v : Nat) : Core :=
  { k with priv := rput k.priv f.addr (putFld (rget k.priv f.addr) f v) }

/-- Bit `n` of a bank of core-private words from field function `f` (word n / 32, bit n % 32). -/
def Core.pbit (k : Core) (f : Nat → Fld) (n : Nat) : Bool := (k.pfld (f (n / 32))).testBit (n % 32)

/-- Whether a self-test slice in the range given runs now (R540): its region waits until the restore. -/
def State.inSlice (s : State) (lo hi : Nat) : Bool := s.st.running && s.st.cur.any (fun n => lo ≤ n && n ≤ hi)

/-- Whether Decani holds the whole part (it always runs) or Cantoris is in RUN (R271); a core in lockup, waiting or
halted by the debugger, or under a self-test slice (R540), issues nothing. -/
def State.running (s : State) (c : CoreId) : Bool :=
  let k := s.core c
  !k.lockup && !k.waiting && (!k.dbgHalt || k.dbgStep) &&
    (match c with
     | .decani => !s.rst.hold && !s.rst.stopped && !s.inSlice 0 7
     | .cantoris => s.fld fCANTSTAT_STATE = 3 && !s.inSlice 8 13)

/-! ### Memory bytes -/

/-- The byte stored at an address, if one has been written. -/
def mget : List (Nat × Byte) → Nat → Option Byte
  | [], _ => none
  | (k, b) :: r, a => if k = a then some b else mget r a

/-- Store a byte, keeping the addresses rising. -/
def mput : List (Nat × Byte) → Nat → Byte → List (Nat × Byte)
  | [], a, v => [(a, v)]
  | (k, b) :: r, a, v =>
    if k < a then (k, b) :: mput r a v
    else if k = a then (a, v) :: r
    else (a, v) :: (k, b) :: r

/-- How often the contents at an address have been lost (R87, R119, R346). -/
def Mem.epoch (m : Mem) (a : Nat) : Nat := (m.lost.filter (fun p => p.1 ≤ a && a < p.1 + p.2)).length

/-- The byte at an address of the part's memories: what was written, or a free value where nothing has been written
since the contents were last lost (Log 2). -/
def Mem.byte (m : Mem) (a : Nat) : Byte :=
  match mget m.cells a with
  | some b => b
  | none => Config.initByte (m.epoch a) a

/-- Whether the memory at an address keeps a parity bit per byte (R145): SRAM, the Sacristy SRAM and the sample
buffer. -/
def parityKept (a : Nat) : Bool :=
  (0x20000000 ≤ a && a < 0x20080000) || (0x21000000 ≤ a && a < 0x21010000) || (0x30000000 ≤ a && a < 0x30008000)

/-- Whether a byte's stored parity is wrong. -/
def Mem.bad (m : Mem) (a : Nat) : Bool :=
  parityKept a && (m.badPar.contains a || ((mget m.cells a).isNone && Config.initParityBad (m.epoch a) a))

/-- Store one byte with good parity (R145). -/
def Mem.putByte (m : Mem) (a : Nat) (b : Byte) : Mem :=
  { m with cells := mput m.cells a b, badPar := m.badPar.filter (· != a) }

/-- Store bytes from an address upwards. -/
def Mem.putBytes (m : Mem) : Nat → List Byte → Mem
  | _, [] => m
  | a, b :: bs => Mem.putBytes (m.putByte a b) (a + 1) bs

/-- Mark bytes, by offset from an address, as having wrong parity. -/
def Mem.markBad (m : Mem) (a : Nat) (offs : List Nat) : Mem := { m with badPar := offs.map (a + ·) ++ m.badPar }

/-- `n` bytes from an address upwards. -/
def Mem.bytes (m : Mem) (a n : Nat) : List Byte := (List.range n).map (fun i => m.byte (a + i))

/-- The aligned 32-bit word at an address. -/
def Mem.word (m : Mem) (a : Nat) : Nat := leNat (m.bytes a 4)

/-- Lose the contents of a range: what it reads as afterwards is a new free value. -/
def Mem.lose (m : Mem) (lo size : Nat) : Mem :=
  { m with
    cells := m.cells.filter (fun p => p.1 < lo || lo + size ≤ p.1)
    badPar := m.badPar.filter (fun a => a < lo || lo + size ≤ a)
    tags := m.tags.filter (fun p => p.1 < lo || lo + size ≤ p.1)
    lost := (lo, size) :: m.lost }

/-- Whether a list of address and byte pairs is in the canonical form: addresses strictly rising. -/
def risingFrom : Nat → List (Nat × Byte) → Bool
  | _, [] => true
  | lo, (a, _) :: r => decide (lo ≤ a) && risingFrom (a + 1) r

/-- The canonical form of memory: the written bytes and the OTP bytes with addresses strictly rising. -/
def Memory.wf (m : Mem) : Bool := risingFrom 0 m.cells && risingFrom 0 m.otp

/-! ### OTP -/

/-- A byte of the OTP (Table 15.7). What a part is delivered with is the part's own: a free value until a program
command changes it. -/
def Mem.otpByte (m : Mem) (o : Nat) : Byte :=
  match mget m.otp o with
  | some b => b
  | none => Config.otpByte o

/-- Bytes of the OTP from an offset. -/
def Mem.otpBytes (m : Mem) (o n : Nat) : List Byte := (List.range n).map (fun i => m.otpByte (o + i))

/-- The number of 1 bits of a byte list: the value of an OTP counter (R383). -/
def popBytes (bs : List Byte) : Nat := (bs.map (fun b => ((List.range 8).filter (fun i => b.getLsbD i)).length)).sum

/-! ### The queue primitive with drop handling (R143) -/

/-- A write to a queue with drop handling: the queue, the words dropped and not yet marked, and the line time of the
first of them. `mk` builds the gap marker of Table 7.3. -/
def dropPush {α : Type} (cap : Nat) (mk : Nat → Nat → α) (now : Nat) (q : List α) (dropped first : Nat) (x : α) :
    List α × Nat × Nat :=
  if cap ≤ q.length then
    (q, satAdd 0xFFFF dropped 1, if dropped = 0 then now % 2 ^ 16 else first)
  else if dropped = 0 then (q ++ [x], 0, 0)
  else if q.length + 1 = cap then (q ++ [mk (satAdd 0xFFFF dropped 1) first], 0, 0)
  else (q ++ [mk dropped first, x], 0, 0)

/-! ### The violation log's hardware queue (R395) -/

/-- One violation entry of 16 bytes. -/
def vEntry (time : List Byte) (kind block addr data : Nat) : List Byte :=
  time ++ leBytes 1 kind ++ leBytes 1 block ++ leBytes 4 addr ++ leBytes 4 data

/-- Record a violation (R395). -/
def State.violate (s : State) (kind block addr data : Nat) : State :=
  let r := dropPush 16 (fun d f => vEntry s.timeBytes 10 0 0 (d + f * 2 ^ 16)) s.now s.sac.vq s.sac.vDropped
    s.sac.vFirst (vEntry s.timeBytes kind block addr data)
  let t := { s with sac := { s.sac with vq := r.1, vDropped := r.2.1, vFirst := r.2.2 } }
  if 16 ≤ s.sac.vq.length then t.raise [fSACFLAG_VLDROP] else t

end Sys2Proof.Machine
end

