-- ==== Sys2Proof/Machine/Bus.lean ====
section
/-! DEFINITION. The address map, what an access to each region does at its home (R324 to R347), parity and error
correction on reads, and the coherence transactions over the caches (R351 to R361). -/

namespace Sys2Proof.Machine

open Sys2Proof

/-! ### Roles and blocks -/

/-- The ROLECAP value of a role (Table 1.6). -/
def roleCap : Role → Nat
  | .chapter => 0x280F
  | .crossing => 0x2819
  | .cell => 0x7FB1
  | .loop => 0xDDE0

/-- Whether the row of Table 1.1 with this ROLECAP bit is On or Idle in the latched role. -/
def State.has (s : State) (bit : Nat) : Bool := (roleCap s.role).testBit bit

/-- The ROLECAP bit of a peripheral block's row of Table 1.1, where the block has one. -/
def blockCap : Nat → Option Nat
  | 7 => some 0
  | 8 => some 3
  | 9 => some 4
  | 10 => some 14
  | 12 => some 2
  | 13 => some 1
  | 17 => some 5
  | 18 => some 6
  | 19 => some 7
  | 20 => some 8
  | 21 => some 10
  | 22 => some 11
  | 23 => some 13
  | _ => none

/-- Whether a peripheral block is On or Idle in the latched role (R13, R14). -/
def State.blockOn (s : State) (k : Nat) : Bool :=
  decide (k < 25) && (match blockCap k with
    | some b => s.has b
    | none => true)

/-! ### Regions -/

/-- The regions of Table 15.1. -/
inductive Region where
  | rom
  | mram
  | sram
  | sbuf
  | tags
  | ssram
  | periph
  | hostwin
  | corePrivate
  | unlisted
  deriving DecidableEq, Repr

/-- The region an address lies in. -/
def region (a : Nat) : Region :=
  if a < 0x40000 then .rom
  else if 0x10000000 ≤ a ∧ a < 0x10200000 then .mram
  else if 0x20000000 ≤ a ∧ a < 0x20080000 then .sram
  else if 0x21000000 ≤ a ∧ a < 0x21010000 then .sbuf
  else if 0x21010000 ≤ a ∧ a < 0x21020000 then .tags
  else if 0x30000000 ≤ a ∧ a < 0x30008000 then .ssram
  else if 0x40000000 ≤ a ∧ a < 0x40019000 then .periph
  else if 0x60000000 ≤ a ∧ a < 0x70000000 then .hostwin
  else if 0xE0000000 ≤ a ∧ a < 0xE0003000 then .corePrivate
  else .unlisted

/-- The memory types of Table 16.2. -/
inductive MemType where
  | normal
  | mram
  | uncached
  | device
  deriving DecidableEq, Repr

/-- The memory type of a region. -/
def Region.type : Region → MemType
  | .rom | .sram | .ssram => .normal
  | .mram => .mram
  | .sbuf | .tags => .uncached
  | .periph | .hostwin | .corePrivate | .unlisted => .device

/-- Who makes a bus access: a core, the debug port, or a Sacristy engine. -/
inductive Agent where
  | core (c : CoreId)
  | debug
  | engine
  deriving DecidableEq, Repr

/-- The MRAM segment of an address (R333). -/
def mramSeg (a : Nat) : Nat := (a - 0x10000000) / 0x10000

/-- Whether an MRAM segment is Sacristy-only (R333). -/
def State.segSac (s : State) (a : Nat) : Bool := (s.fld fMRSEGSAC_SAC).testBit (mramSeg a)

/-- The world of a line's home (R353). -/
def State.homeWorld (s : State) (a : Nat) : World :=
  match region a with
  | .ssram => .sacristy
  | .mram => if s.segSac a then .sacristy else .nave
  | _ => .nave

/-- Record a failing MRAM address, if none is recorded (R333, R344). -/
def State.mramErr (s : State) (a : Nat) : State :=
  if s.fld fMRERRADDR_ADDR = 0 then s.setFld fMRERRADDR_ADDR a else s

/-- The MRAM half of an address (R329). -/
def mramHalf (a : Nat) : Nat := if a < 0x10100000 then 0 else 1

/-- The flags that say the macro of a half is powered, and that it is being written. -/
def fUP (h : Nat) : Fld := if h = 0 then fMRSTAT_UP0 else fMRSTAT_UP1
def fBUSY (h : Nat) : Fld := if h = 0 then fMRSTAT_BUSY0 else fMRSTAT_BUSY1

/-- Whether an agent in a world may reach a memory region at an address, with what a refusal records (R325, R327,
R333, R339, R399). Peripherals, the host window and core-private space are decided by their own operations. -/
def State.busCheck (s : State) (ag : Agent) (w : World) (write : Bool) (a data : Nat) : Bool × State :=
  match region a with
  | .rom => (!write, s)
  | .tags => (!write, s)
  | .sram => (true, s)
  | .ssram =>
    if s.on fSACSTAT_HELD then (false, s)
    else if w = .sacristy && (ag != .core .cantoris) then (true, s)
    else (false, s.violate 3 0 a (if write then data else 0))
  | .mram =>
    if w = .nave && (s.segSac a || (write && (s.fld fMRSEGNRO_NRO).testBit (mramSeg a))) then
      (false, ((s.mramErr a).raise [fMRFLAG_PROT]).violate 4 14 a (if write then data else 0))
    else (true, s)
  | .sbuf =>
    if write && (List.range 3).any (fun n => s.on (fSBWCFG_EN n) &&
        decide (s.fld (fSBWCFG_BASE n) * 32 ≤ a - 0x21000000) &&
        decide (a - 0x21000000 < s.fld (fSBWCFG_BASE n) * 32 + s.fld (fSBWSIZE_SIZE n) * 32))
    then (false, s.raise [fSBFLAG_WRPROT]) else (true, s)
  | _ => (false, s)

/-! ### Reads at home -/

/-- The PARSTAT bit of a memory with parity (R145). -/
def parFlag (a : Nat) : Fld :=
  match region a with
  | .ssram => fPARSTAT_SSRAM
  | .sbuf => fPARSTAT_SBUF
  | _ => fPARSTAT_SRAM

/-- Record a parity mismatch at a bus address (R145). -/
def State.parityError (s : State) (a : Nat) : State :=
  let t := if s.fld fPARSTAT_CNT = 0 then s.setFld fPARADDR_ADDR (a / 4 * 4) else s
  (t.raise [parFlag a]).count fPARSTAT_CNT

/-- Record a parity mismatch in queue storage (R145): the address of a queue is 0. -/
def State.queueParity (s : State) : State :=
  let t := if s.fld fPARSTAT_CNT = 0 then s.setFld fPARADDR_ADDR 0 else s
  (t.raise [fPARSTAT_QUEUE]).count fPARSTAT_CNT

/-- The first byte of a range whose parity is wrong. -/
def Mem.firstBad (m : Mem) (a n : Nat) : Option Nat := ((List.range n).map (a + ·)).find? m.bad

/-- The words of a range, by address. -/
def wordsOf (a n : Nat) : List Nat :=
  (List.range ((a % 4 + n + 3) / 4)).map (fun i => a / 4 * 4 + 4 * i)

/-- Read `n` bytes at the home of an address: the bytes and whether the access completes without a bus error.
SRAM and the sample buffer check parity (R145), MRAM its check bits (R344); an MRAM read powers its macro (R330). -/
def State.homeRead (s : State) (a n : Nat) : Bool × List Byte × State :=
  match region a with
  | .mram =>
    let t := s.setFld (fUP (mramHalf a)) 1
    let ws := wordsOf a n
    match ws.find? (fun w => s.mem.ecc2.contains w) with
    | some w => (false, List.replicate n 0, (t.mramErr w).raise [fMRFLAG_UNCORR] |>.count fMRCNT_UNCORR)
    | none =>
      let k := (ws.filter (fun w => s.mem.ecc1.contains w)).length
      let u := if k = 0 then t else (t.raise [fMRFLAG_CORR]).countBy fMRCNT_CORR k
      (true, s.mem.bytes a n, u)
  | .tags =>
    let wa := 0x21000000 + (a - 0x21010000) / 4 * 4
    let tag := ((s.mem.tags.find? (fun p => p.1 = wa)).map (·.2)).getD 0
    (true, ((leBytes 4 tag).drop (a % 4)).take n, s)
  | _ =>
    match s.mem.firstBad a n with
    | some b => (false, List.replicate n 0, s.parityError b)
    | none => (true, s.mem.bytes a n, s)

/-- End the MRAM write in progress in a half (R330). -/
def State.mramDone (s : State) (h : Nat) : State :=
  { s.setFld (fBUSY h) 0 with
    mem := { s.mem with writing := s.mem.writing.filter (fun p => p.1 != h) } }

/-- Write bytes of one MRAM word: the controller takes the store once the half is idle and rewrites the whole word
with its check bits (R329, R330). The write in progress remembers the word's old contents (R345). -/
def State.mramWrite (s : State) (a : Nat) (bs : List Byte) : State :=
  let h := mramHalf a
  let t := s.mramDone h
  let wa := a / 4 * 4
  { t.sets [(fUP h, 1), (fBUSY h, 1)] with
    mem := { (t.mem.putBytes a bs) with
      ecc1 := t.mem.ecc1.filter (· != wa), ecc2 := t.mem.ecc2.filter (· != wa),
      writing := (h, wa, t.mem.word wa) :: t.mem.writing } }

/-! ### Caches -/

/-- The caching agents of Table 16.1. -/
inductive CacheId where
  | dec
  | cant
  | desc
  deriving DecidableEq, Repr

/-- The agent number of a cache. -/
def CacheId.num : CacheId → Nat
  | .dec => 0
  | .cant => 1
  | .desc => 2

/-- A core's data cache. -/
def cacheOf : CoreId → CacheId
  | .decani => .dec
  | .cantoris => .cant

/-- The lines a cache holds. -/
def State.lines (s : State) : CacheId → List CLine
  | .dec => s.dec.dc
  | .cant => s.cant.dc
  | .desc => s.descCache

/-- Replace the lines a cache holds. -/
def State.setLines (s : State) : CacheId → List CLine → State
  | .dec, l => { s with dec := { s.dec with dc := l } }
  | .cant, l => { s with cant := { s.cant with dc := l } }
  | .desc, l => { s with descCache := l }

/-- The base of the 32-byte line that holds an address. -/
def lineOf (a : Nat) : Nat := a / 32 * 32

/-- A line in a list of lines. -/
def findLine (l : List CLine) (base : Nat) : Option CLine := l.find? (fun x => x.base = base)

/-- A list of lines with one line replaced or added. -/
def putLine (l : List CLine) (x : CLine) : List CLine := x :: l.filter (fun y => y.base != x.base)

/-- A list of lines with one line gone. -/
def dropLine (l : List CLine) (base : Nat) : List CLine := l.filter (fun y => y.base != base)

/-- The reservation of a core is lost when it names the line (R301, R361). -/
def Core.unreserve (k : Core) (base : Nat) : Core := if k.resv = some base then { k with resv := none } else k

/-- Every other core loses its reservation of a line (R361). -/
def State.unreserveOthers (s : State) (me : Option CacheId) (base : Nat) : State :=
  { s with
    dec := if me = some .dec then s.dec else s.dec.unreserve base
    cant := if me = some .cant then s.cant else s.cant.unreserve base }

/-- The core that holds a cache loses its reservation of a line that leaves it (R361). -/
def State.unreserveOwn (s : State) (c : CacheId) (base : Nat) : State :=
  match c with
  | .dec => { s with dec := s.dec.unreserve base }
  | .cant => { s with cant := s.cant.unreserve base }
  | .desc => s

/-- The home node's priority pointer of an address. -/
def homePtr (a : Nat) : Fld :=
  match region a with
  | .ssram => fCOHPTR_SSRAMPTR
  | .mram => fCOHPTR_MRAMPTR
  | .rom => fCOHPTR_ROMPTR
  | _ => fCOHPTR_SRAMPTR

/-- When a request starts, the home's pointer moves to the agent after its requester (R356). -/
def State.homeStart (s : State) (agent a : Nat) : State := s.setFld (homePtr a) ((agent + 1) % 4)

/-- Write a whole line to memory; bytes with wrong parity keep it (R370). -/
def State.lineToMemory (s : State) (x : CLine) : State :=
  { s with mem := (s.mem.putBytes x.base x.data).markBad x.base x.bad }

/-- The other caches. -/
def othersOf (me : Option CacheId) : List CacheId := [CacheId.dec, .cant, .desc].filter (fun c => some c != me)

/-- The other holder of a line in M, if there is one. -/
def State.dirtyElsewhere (s : State) (me : Option CacheId) (base : Nat) : Option CLine :=
  (othersOf me).findSome? (fun c => (findLine (s.lines c) base).filter (fun x => x.st = .modified))

/-- Whether any other agent holds a line. -/
def State.heldElsewhere (s : State) (me : Option CacheId) (base : Nat) : Bool :=
  (othersOf me).any (fun c => (findLine (s.lines c) base).isSome)

/-- Every other holder goes to S (ReadShared, Table 16.3). -/
def State.shareOthers (s : State) (me : Option CacheId) (base : Nat) : State :=
  (othersOf me).foldl (fun t c =>
    match findLine (t.lines c) base with
    | some x => t.setLines c (putLine (t.lines c) { x with st := .shared })
    | none => t) s

/-- Every other holder goes to I, losing its reservation (ReadUnique, Upgrade, MakeUnique, WriteUnique). -/
def State.invalidateOthers (s : State) (me : Option CacheId) (base : Nat) : State :=
  ((othersOf me).foldl (fun t c => t.setLines c (dropLine (t.lines c) base)) s).unreserveOthers me base

/-- A transaction of Table 16.3 that ends with the line gone from a cache: a dirty line is written back first. -/
def State.writeBackOut (s : State) (c : CacheId) (base : Nat) : State :=
  match findLine (s.lines c) base with
  | some x =>
    let t := s.setLines c (dropLine (s.lines c) base)
    let u := t.unreserveOwn c base
    if x.st = .modified then (u.homeStart c.num base).lineToMemory x else u
  | none => s

/-- A WriteBack that leaves the line in E (DCCLEAN). -/
def State.cleanLine (s : State) (c : CacheId) (base : Nat) : State :=
  match findLine (s.lines c) base with
  | some x =>
    if x.st = .modified then
      ((s.homeStart c.num base).lineToMemory x).setLines c (putLine (s.lines c) { x with st := .exclusive })
    else s
  | none => s

/-- Make room for a line in a core's cache: of a full set, the way that pseudo-LRU names is evicted (Table 16.1,
Log 4). -/
def State.makeRoom (s : State) (c : CacheId) (base : Nat) : State :=
  let set := (s.lines c).filter (fun x => x.base / 32 % 32 = base / 32 % 32)
  if c = .desc || set.length < 4 then s
  else
    match set[Config.victimWay s.free % set.length]? with
    | some v => (s.used 1).writeBackOut c v.base
    | none => s

/-- The whole line at its home, for a requester: from the agent that holds it dirty, else from memory. A parity
mismatch of a memory byte is a bus error for a reader (R145); for a store it comes along with the byte. -/
def State.lineData (s : State) (me : Option CacheId) (base : Nat) (forStore : Bool) :
    Bool × List Byte × List Nat × State :=
  match s.dirtyElsewhere me base with
  | some x => (true, x.data, x.bad, s)
  | none =>
    if forStore && parityKept base then
      (true, s.mem.bytes base 32, (List.range 32).filter (fun i => s.mem.bad (base + i)), s)
    else
      let r := s.homeRead base 32
      (r.1, r.2.1, [], r.2.2)

/-- ReadShared (Table 16.3): false when the fill fails with a bus error. -/
def State.readShared (s : State) (c : CacheId) (base : Nat) : Bool × State :=
  let s := (s.makeRoom c base).homeStart c.num base
  let d := s.lineData (some c) base false
  if d.1 then
    let t := d.2.2.2
    let t := match t.dirtyElsewhere (some c) base with
      | some x => t.lineToMemory x
      | none => t
    let st := if t.heldElsewhere (some c) base then LineSt.shared else .exclusive
    let t := t.shareOthers (some c) base
    (true, t.setLines c (putLine (t.lines c) ⟨base, st, t.homeWorld base, d.2.1, d.2.2.1, false⟩))
  else (false, d.2.2.2)

/-- ReadUnique (Table 16.3). -/
def State.readUnique (s : State) (c : CacheId) (base : Nat) : State :=
  let s := (s.makeRoom c base).homeStart c.num base
  let d := s.lineData (some c) base true
  let dirty := (s.dirtyElsewhere (some c) base).isSome
  let t := d.2.2.2.invalidateOthers (some c) base
  t.setLines c (putLine (t.lines c)
    ⟨base, if dirty then .modified else .exclusive, t.homeWorld base, d.2.1, d.2.2.1, false⟩)

/-- Upgrade (Table 16.3): the copy becomes E. An Upgrade whose copy is gone becomes a ReadUnique (R356). -/
def State.upgrade (s : State) (c : CacheId) (base : Nat) : State :=
  match findLine (s.lines c) base with
  | some x =>
    let t := (s.homeStart c.num base).invalidateOthers (some c) base
    t.setLines c (putLine (t.lines c) { x with st := .exclusive })
  | none => s.readUnique c base

/-- MakeUnique (Table 16.3): the line is M with the data given, and every other copy is discarded. -/
def State.makeUnique (s : State) (c : CacheId) (base : Nat) (data : List Byte) : State :=
  let t := ((s.makeRoom c base).homeStart c.num base).invalidateOthers (some c) base
  t.setLines c (putLine (t.lines c) ⟨base, .modified, t.homeWorld base, data, [], false⟩)

/-- ReadOnce (Table 16.3): the bytes asked for, with no change of any cache. -/
def State.readOnce (s : State) (agent a n : Nat) : Bool × List Byte × State :=
  let s := s.homeStart agent a
  match s.dirtyElsewhere none (lineOf a) with
  | some x => (true, (x.data.drop (a - x.base)).take n, s)
  | none => s.homeRead a n

/-- Replace bytes within a list from an offset. -/
def spliceBytes (d : List Byte) (off : Nat) (bs : List Byte) : List Byte :=
  d.take off ++ bs ++ d.drop (off + bs.length)

/-- WriteUnique (Table 16.3): dirty data elsewhere is merged first, the other copies go to I, the storing core's own
copy takes the bytes, and the bytes go to the home. The bytes lie within one line. -/
def State.writeUnique (s : State) (me : Option CacheId) (agent a : Nat) (bs : List Byte) : State :=
  let base := lineOf a
  let s := s.homeStart agent a
  let s := match s.dirtyElsewhere me base with
    | some x => s.lineToMemory x
    | none => s
  let s := s.invalidateOthers me base
  let s := match me with
    | some c =>
      match findLine (s.lines c) base with
      | some x => s.setLines c (putLine (s.lines c) { x with data := spliceBytes x.data (a - base) bs })
      | none => s
    | none => s
  match region a with
  | .mram => s.mramWrite a bs
  | _ => { s with mem := s.mem.putBytes a bs }

/-- Own a line before a store to it drains (R358): a miss is a ReadUnique, a shared copy an Upgrade. -/
def State.own (s : State) (c : CacheId) (base : Nat) : State :=
  match findLine (s.lines c) base with
  | some x => if x.st = .shared then s.upgrade c base else s
  | none => s.readUnique c base

/-- Store bytes into an owned line: it becomes M, and the bytes written have good parity. -/
def State.storeLine (s : State) (c : CacheId) (a : Nat) (bs : List Byte) : State :=
  let base := lineOf a
  match findLine (s.lines c) base with
  | some x =>
    s.setLines c (putLine (s.lines c)
      { x with
        st := .modified
        data := spliceBytes x.data (a - base) bs
        bad := x.bad.filter (fun i => i < a - base || a - base + bs.length ≤ i) })
  | none => s

/-- Write back every dirty line of a cache and drop them all, in the order held (R84 step E3, R271). -/
def State.flushCache (s : State) (c : CacheId) : State :=
  (s.lines c).foldl (fun t x => t.writeBackOut c x.base) s

/-- What a reader sees at an address, through whichever cache holds it dirty: the coherent byte. -/
def State.coherentByte (s : State) (a : Nat) : Byte :=
  match s.dirtyElsewhere none (lineOf a) with
  | some x => x.data.getD (a - x.base) 0
  | none => s.mem.byte a

/-- The coherent bytes from an address. -/
def State.coherentBytes (s : State) (a n : Nat) : List Byte := (List.range n).map (fun i => s.coherentByte (a + i))

/-- Write bytes as a requester with no cache does (Rhoco's copies, the engines): byte by byte through WriteUnique. -/
def State.agentWrite (s : State) : Nat → List Byte → State
  | _, [] => s
  | a, b :: bs => State.agentWrite (s.writeUnique none 3 a [b]) (a + 1) bs

end Sys2Proof.Machine
end

