-- ==== Sys2Proof/Machine/Post.lean ====
section
/-! DEFINITION. What leaves the part by way of its queues: frame headers (Table 9.1), event records (Table 11.6),
ring writes and MSI-X triggers (R219, R234, R242), and completions (R236, R237). -/

namespace Sys2Proof.Machine

open Sys2Proof

/-! ### Frame headers -/

/-- A frame header from its fields (Table 9.1). `b6` and `b7` are its last two bytes. -/
def mkHdr (type ra wake more addr ring len seq ack b6 b7 : Nat) : Nat :=
  type + 2 ^ 4 * ra + 2 ^ 5 * wake + 2 ^ 6 * more + 2 ^ 8 * addr + 2 ^ 20 * ring + 2 ^ 24 * len + 2 ^ 32 * seq
    + 2 ^ 40 * ack + 2 ^ 48 * b6 + 2 ^ 56 * b7

/-- The fields of a frame header (Table 9.1). -/
def frType (f : Frame) : Nat := bitsOf f.hdr 0 4
def frRA (f : Frame) : Bool := bitAt f.hdr 4
def frWake (f : Frame) : Bool := bitAt f.hdr 5
def frMore (f : Frame) : Bool := bitAt f.hdr 6
def frAddr (f : Frame) : Nat := bitsOf f.hdr 8 12
def frRing (f : Frame) : Nat := bitsOf f.hdr 20 2
def frLen (f : Frame) : Nat := bitsOf f.hdr 24 8
def frSeq (f : Frame) : Nat := bitsOf f.hdr 32 8
def frAck (f : Frame) : Nat := bitsOf f.hdr 40 8
def frWin (f : Frame) : Option Nat := if bitAt f.hdr 53 then some (bitsOf f.hdr 48 5) else none
def frTok (f : Frame) : Option Nat := if bitAt f.hdr 61 then some (bitsOf f.hdr 56 5) else none
def frRelcred (f : Frame) : Nat := bitsOf f.hdr 48 9

/-- Bytes of a payload as a number. -/
def payNat (f : Frame) (off n : Nat) : Nat := leNat ((f.payload.drop off).take n)

/-! ### Descriptors -/

/-- A byte, and a little-endian number, of a descriptor (Table 11.3). -/
def dsByte (d : Desc) (i : Nat) : Nat := (d.bytes.getD i 0).toNat
def dsNat (d : Desc) (off n : Nat) : Nat := leNat ((d.bytes.drop off).take n)

/-- A byte, and a number, of a descriptor's ARGS. -/
def dsArg (d : Desc) (i : Nat) : Nat := dsByte d (0x20 + i)
def dsArgs (d : Desc) (off n : Nat) : Nat := dsNat d (0x20 + off) n

/-- The named fields of a descriptor. -/
def dsOpcode (d : Desc) : Nat := dsByte d 0
def dsIdem (d : Desc) : Bool := bitAt (dsByte d 1) 0
def dsResbuf (d : Desc) : Bool := bitAt (dsByte d 1) 1
def dsCookie (d : Desc) : Nat := dsNat d 8 8
def dsResaddr (d : Desc) : Nat := dsNat d 0x10 8
def dsReslen (d : Desc) : Nat := dsNat d 0x18 4

/-- Whether the fields R235 fixes hold: reserved bytes and FLAGS[7:2] zero and, where RESBUF is set, RESADDR
4-byte aligned and RESLEN at most 65,535. -/
def dsFormOk (d : Desc) : Bool :=
  dsNat d 2 6 = 0 && dsNat d 0x1C 4 = 0 && dsByte d 1 < 4 &&
    (!dsResbuf d || (dsResaddr d % 4 = 0 && dsReslen d ≤ 65535))

/-- Whether the bytes of ARGS from `i` on are all zero. -/
def argsZeroFrom (d : Desc) (i : Nat) : Bool := dsArgs d i (32 - i) = 0

/-! ### Status codes (Table 11.9) -/

def stOK : Nat := 0x00
def stINVALID : Nat := 0x01
def stUNKNOWN : Nat := 0x02
def stNOTROLE : Nat := 0x03
def stBUSY : Nat := 0x04
def stTOKENS : Nat := 0x05
def stCLOCK : Nat := 0x06
def stDEFERRED : Nat := 0x07
def stDENIED : Nat := 0x08
def stTRUNC : Nat := 0x09
def stPOISONED : Nat := 0x0A
def stABSENT : Nat := 0x10
def stLANELOST : Nat := 0x11
def stDISCARDED : Nat := 0x12
def stNOTENROLLED : Nat := 0x13
def stWALKDOWN : Nat := 0x14
def stROLLBUSY : Nat := 0x15
def stADDRINUSE : Nat := 0x16
def stWALKINUSE : Nat := 0x17
def stCONTESTED : Nat := 0x18
def stSUPPLYLOW : Nat := 0x19
def stIMAGEBAD : Nat := 0x20
def stAUTHFAILED : Nat := 0x21
def stROLLBACK : Nat := 0x22

/-! ### MSI-X (R219) -/

/-- Whether a vector's message can be sent now: MSI-X Enable, Bus Master Enable, no mask, D0, an aligned entry. -/
def State.vecReady (s : State) (v : Nat) : Bool :=
  s.hl.msixEn && s.hl.bme && !s.hl.msixMask && !s.on fHLSTAT_D3 &&
    (match s.hl.vecs[v]? with
     | some e => !e.mask && e.addr % 4 = 0
     | none => false)

/-- Send a vector's message. -/
def State.msixSend (s : State) (v : Nat) : State :=
  match s.hl.vecs[v]? with
  | some e => s.emit (.msix e.addr e.data)
  | none => s

/-- Trigger a vector (R219, R220): send its message, or set its pending bit; in D3hot the first trigger with PME_En
sets PME_Status and sends PM_PME, or in L2/L3 Ready pulls PWAKE_N low. -/
def State.msixTrigger (s : State) (v : Nat) : State :=
  if s.vecReady v then s.msixSend v
  else
    let t := { s with hl := { s.hl with pba := if s.hl.pba.contains v then s.hl.pba else v :: s.hl.pba } }
    if s.on fHLSTAT_D3 && s.hl.pmeEn && !s.hl.pmeStatus then
      let u := { t with hl := { t.hl with pmeStatus := true } }
      if s.fld fHLSTAT_LPM = 3 then { u with pads := { u.pads with pwakeLow := true } } else u.emit .pme
    else t

/-! ### Rings -/

/-- An enabled ring, by number. -/
def State.ring? (s : State) (n : Nat) : Option Ring := s.scr.rings.find? (fun r => r.n = n)

/-- Replace or add a ring's state. -/
def State.setRing (s : State) (r : Ring) : State :=
  { s with scr := { s.scr with rings := r :: s.scr.rings.filter (fun x => x.n != r.n) } }

/-- The number of entries of a ring, and an index one further on, counted modulo 2N. -/
def Ring.size (r : Ring) : Nat := 2 ^ r.log2n
def Ring.next (r : Ring) (i : Nat) : Nat := (i + 1) % (2 * r.size)

/-- The distance from one index to another, modulo 2N. -/
def Ring.dist (r : Ring) (a b : Nat) : Nat := (b + 2 * r.size - a) % (2 * r.size)

/-- Whether the Scriptorium may write host memory: link up, Bus Master Enable, D0 (R219, R220). -/
def State.hostReady (s : State) : Bool := s.on fHLSTAT_LINKUP && s.hl.bme && !s.on fHLSTAT_D3

/-- The ring table's address (R233). -/
def State.tableBase (s : State) : Nat :=
  s.fld fSCRTBASEH_BASE * 2 ^ 32 + s.fld fSCRTBASEL_BASE * 2 ^ 12

/-- Write the part fields of a ring's context as one 8-byte write (R233). -/
def State.writeCtx (s : State) (r : Ring) : State :=
  s.emit (.hostWrite (s.tableBase + 32 * r.n + 0x18)
    (leBytes 2 r.dhead ++ leBytes 2 r.ctail ++ leBytes 1 r.st ++ leBytes 1 r.err ++ [0, 0]))

/-- Signal a ring's vector when its SIGNAL bit is set (R242). -/
def State.signal (s : State) (r : Ring) : State := if r.signal then s.msixTrigger r.vector else s

/-- Write a record into an Event ring, when it is enabled and has room (R239). -/
def State.ringRecord (s : State) (n : Nat) (rec : List Byte) : Option State :=
  match s.ring? n with
  | some r =>
    if r.st = 1 && r.kind = 1 && s.hostReady && decide (r.dist r.p r.dhead < r.size) then
      let r' := { r with dhead := r.next r.dhead }
      let t := (s.emit (.hostWrite (r.dbase + 16 * (r.dhead % r.size)) rec)).setRing r'
      some ((t.writeCtx r').signal r')
    else none
  | none => none

/-! ### Records (Table 11.6) -/

/-- The SRC field of this part. -/
def State.srcField (s : State) : Nat :=
  match s.role with
  | .chapter => 2 * 2 ^ 12
  | .crossing => 2 ^ 12 + s.fld fLINEADDR_ROLEADDR
  | _ => s.fld fLINEADDR_CELLADDR

/-- A byte list cut or padded with zeros to a length. -/
def padTo (n : Nat) (bs : List Byte) : List Byte := bs.take n ++ List.replicate (n - bs.length) 0

/-- A 16-byte event record. -/
def State.mkRecord (s : State) (code src : Nat) (data : List Byte) : List Byte :=
  leBytes 2 code ++ leBytes 2 src ++ s.timeBytes ++ padTo 6 data

/-- The GAP record that the Chapter's record queue writes for dropped records (R239, R225). -/
def State.gapRecord (s : State) (dropped first : Nat) : List Byte :=
  s.mkRecord 0x0004 (2 * 2 ^ 12) (leBytes 2 dropped ++ leBytes 2 first)

/-- Post records from the 64-entry queue to ring 7 while it takes them (R225). -/
def State.drainRecords : Nat → State → State
  | 0, s => s
  | n + 1, s =>
    match s.scr.recq with
    | [] => s
    | r :: rest =>
      match ({ s with scr := { s.scr with recq := rest } }).ringRecord 7 r with
      | some t => State.drainRecords n t
      | none => s

/-- The Chapter posts a record to its Local event ring, or holds it (R225, R239). -/
def State.postRecord (s : State) (rec : List Byte) : State :=
  match if s.scr.recq.isEmpty && s.scr.recDropped = 0 then s.ringRecord 7 rec else none with
  | some t => t
  | none =>
    let q := dropPush 64 s.gapRecord s.now s.scr.recq s.scr.recDropped s.scr.recFirst rec
    let t := { s with scr := { s.scr with recq := q.1, recDropped := q.2.1, recFirst := q.2.2 } }
    t.drainRecords (t.scr.recq.length)

/-! ### The uplink of a node -/

/-- Queue an uplink frame with a SEQ on a line ring (R189): the frame is built when it is queued, and its ACK, WIN
and TOK are brought up to date when it is sent. -/
def State.queueUp (s : State) (type ring : Nat) (payload : List Byte) : State :=
  let seq := ((s.node.seqTx.getD ring 0) + 1) % 256
  let ra := if s.role = .crossing then 1 else 0
  let addr := if s.role = .crossing then s.fld fLINEADDR_ROLEADDR else s.fld fLINEADDR_CELLADDR
  let f : Frame := ⟨mkHdr type ra 0 0 addr ring payload.length seq 0 0 0, payload⟩
  { s with node := { s.node with up := s.node.up ++ [⟨f, none, 0⟩], seqTx := s.node.seqTx.set ring seq } }

/-- A block of this part posts an event record: the Chapter to ring 7, a node in an EVENT frame on its Event ring
(R239). -/
def State.event (s : State) (code : Nat) (data : List Byte) : State :=
  let rec_ := s.mkRecord code s.srcField data
  if s.role = .chapter then s.postRecord rec_ else s.queueUp 0x5 1 rec_

/-- A driver posts an event of its walk: the Chapter to ring 7, a Crossing in a REPORT frame (R248, R572). `src`
names the source when it is a Cell of the walk. -/
def State.driverEvent (s : State) (code : Nat) (src : Option Nat) (data : List Byte) : State :=
  let rec_ := s.mkRecord code (src.getD s.srcField) data
  if s.role = .chapter then s.postRecord rec_
  else { s with node := { s.node with reports := s.node.reports ++ [rec_] } }

/-! ### Completions (R236, R237) -/

/-- The 16-byte completion entry. -/
def mkEntry (d : Desc) (status result rlen : Nat) : List Byte :=
  leBytes 8 (dsCookie d) ++ leBytes 4 result ++ leBytes 1 status ++
    leBytes 1 (match d.path with
      | .lane _ => 0
      | _ => d.seq) ++ leBytes 2 rlen

/-- Advance DHEAD past every slot whose completion is written (R234). -/
def Ring.advance : Nat → Ring → Ring
  | 0, r => r
  | n + 1, r =>
    if r.done.contains r.dhead then
      Ring.advance n { r with dhead := r.next r.dhead, done := r.done.filter (· != r.dhead) }
    else r

/-- Give one tag back: FREE rises by one, in TAGSTAT and its mirror (R147, R157). -/
def State.freeTag (s : State) : State :=
  let n := s.fld fTAGSTAT_FREE + 1
  s.sets [(fTAGSTAT_FREE, n), (fSCTAG_FREE, n)]

/-- A ring that drains reaches STATE 0 once nothing it fetched is left (R242). -/
def State.endDrain (s : State) (n : Nat) : State :=
  match s.ring? n with
  | some r =>
    if r.st = 2 && !(s.scr.held.any (fun h => h.ring = n)) then
      let r' := { r with st := 0, err := 0 }
      let t := ({ s with scr := { s.scr with rings := s.scr.rings.filter (fun x => x.n != n) } }).writeCtx r'
      t.setFld fSCSTAT_ENABLED (s.fld fSCSTAT_ENABLED - 1)
    else s
  | none => s

/-- Write one completion entry for a slot of a ring: the entry, then the context, then the vector; then the tag is
released (R234, R244 step 5, R245). False when the completion array has no room or host memory cannot be written. -/
def State.writeEntry (s : State) (n slot : Nat) (entry : List Byte) : Bool × State :=
  match s.ring? n with
  | some r =>
    if s.hostReady && decide (r.dist r.ch r.ctail < r.size) then
      let r' := Ring.advance (r.done.length + 2) { r with ctail := r.next r.ctail, done := slot :: r.done }
      let t := (s.emit (.hostWrite (r.cbase + 16 * (r.ctail % r.size)) entry)).setRing r'
      (true, ((t.writeCtx r').signal r').freeTag)
    else (false, s)
  | none => (false, s)

/-- Complete a descriptor the Scriptorium holds, with its entry; without room it waits in its lane (R249). -/
def State.finishHeld (s : State) (h : Held) (entry : List Byte) : State :=
  let t := { s with scr := { s.scr with held := s.scr.held.filter (fun x => x.tag != h.tag) } }
  let r := t.writeEntry h.ring h.slot entry
  if r.1 then r.2.endDrain h.ring
  else { s with scr := { s.scr with held := s.scr.held.map (fun x =>
          if x.tag = h.tag then { x with phase := 3, entry := entry } else x) } }

/-- Write the completions that wait, in order, as far as there is room (R249). -/
def State.retryHeld (s : State) : State :=
  (s.scr.held.filter (fun h => h.phase = 3)).reverse.foldl (fun t h => t.finishHeld h h.entry) s

/-- Cut a byte list into pieces of 64. -/
def chunks64 : Nat → List Byte → List (List Byte)
  | 0, _ => []
  | n + 1, bs => if bs.isEmpty then [] else bs.take 64 :: chunks64 n (bs.drop 64)

/-- Send a completion entry on the path a descriptor came by, after its result bytes: a Local one at its ring, one from the walk
in a COMPL frame after STREAM frames, one from the jack in frames on the jack (R202, R237). -/
def State.sendEntry (s : State) (d : Desc) (sent entry : List Byte) : State :=
  match d.path with
  | .lane _ =>
    let t := if sent.isEmpty then s else s.emit (.hostWrite (dsResaddr d) sent)
    match t.scr.held.find? (fun h => h.ring = d.ring && h.slot = d.slot) with
    | some h => t.finishHeld h entry
    | none => t
  | .walk =>
    let t := (chunks64 (sent.length + 1) sent).foldl (fun t c => t.queueUp 0x6 d.ring c) s
    let u := t.queueUp 0x4 d.ring entry
    { u with node := { u.node with inbox := u.node.inbox.filter (fun x => x != d) } }
  | .lectern =>
    let mk := fun (type : Nat) (p : List Byte) =>
      Out.frame .jack ⟨mkHdr type 0 0 0 (s.fld fLINEADDR_CELLADDR) d.ring p.length d.seq d.seq 0 0, p⟩
    let t := (chunks64 (sent.length + 1) sent).foldl (fun t c => t.emit (mk 0x6 c)) s
    let u := t.emit (mk 0x4 entry)
    { u with node := { u.node with inbox := u.node.inbox.filter (fun x => x != d) } }

/-- Complete a descriptor with a status, an inline result and result bytes (R236, R237). -/
def State.complete (s : State) (d : Desc) (status result : Nat) (res : List Byte) : State :=
  let keep := if dsResbuf d then dsReslen d else 0
  let sent := res.take keep
  let status := if dsResbuf d && status = stOK && decide (keep < res.length) then stTRUNC else status
  s.sendEntry d sent (mkEntry d status result sent.length)

/-! ### Running a descriptor (R246) -/

/-- Whether Decani runs Rhoco: out of its reset hold, not stopped, not locked up, not halted, awake. -/
def State.rhocoUp (s : State) : Bool :=
  !s.rst.hold && !s.rst.stopped && !s.dec.lockup && !s.dec.dbgHalt && (s.slp.st = .run || s.slp.st = .doze)

/-- Whether an earlier descriptor of the same path and ring still waits (R245: descriptors of one ring run in the
order received). -/
def State.aheadOf (s : State) (d : Desc) : Bool :=
  match d.path with
  | .lane _ =>
    match (s.scr.held.filter (fun h => h.phase = 1 && h.ring = d.ring)).reverse.head? with
    | some h => h.slot != d.slot
    | none => false
  | _ =>
    match s.node.inbox.find? (fun x => x.path = d.path && x.ring = d.ring) with
    | some x => x != d
    | none => false

/-- The opcodes Rhoco runs while it is in recovery (R137). -/
def recoveryOpcode (op : Nat) : Bool := op = 0x0A || op = 0x0B || op = 0x0C || op = 0x0D || op = 0x0E || op = 0x0F

/-- Whether Rhoco runs this descriptor now; during a slice of Decani it waits (R540). -/
def State.canRun (s : State) (d : Desc) : Bool :=
  s.rhocoUp && !s.inSlice 0 7 && !s.aheadOf d &&
    (!s.on fBOOTSTAT_RECOV || (d.path = .lectern && recoveryOpcode (dsOpcode d)))

/-! ### Opcodes no row names: unassigned ones, and those of the office (R246, R275) -/

/-- The assigned opcodes below 0xF0 (Table 11.8 and the opcode tables of its chapters). -/
def opAssigned (op : Nat) : Bool :=
  [(0x00, 0x19), (0x1F, 0x1F), (0x20, 0x2B), (0x30, 0x36), (0x40, 0x44), (0x48, 0x51), (0x58, 0x5F), (0x68, 0x74),
    (0x78, 0x81), (0x88, 0x8C), (0x90, 0x94), (0x98, 0x9B)].any (fun p => decide (p.1 ≤ op) && decide (op ≤ p.2))

/-- Whether an opcode goes to the running office. -/
def opOffice (op : Nat) : Bool := decide (0xF0 ≤ op)

/-- Put a descriptor into the office's mailbox and pend OFFDESC (R275). -/
def State.toOffice (s : State) (d : Desc) : State :=
  let t := s.writeUnique (some .dec) 0 0x20000800 (d.bytes.take 32)
  let t := t.writeUnique (some .dec) 0 0x20000820 (d.bytes.drop 32)
  { t.setFld fOFFSTAT_PENDING 1 with rst := { t.rst with offDesc := some d } }

/-- What Rhoco does with a descriptor whose opcode is not assigned or goes to the office: UNKNOWN_OPCODE; NOT_IN_ROLE in Loop
role; UNKNOWN_OPCODE with no office running; else it goes to the mailbox, once the office has answered the one before. -/
def State.takeOther (s : State) (d : Desc) : State :=
  if !opOffice (dsOpcode d) then s.complete d stUNKNOWN 0 []
  else if s.role = .loop then s.complete d stNOTROLE 0 []
  else if !dsFormOk d then s.complete d stINVALID 0 []
  else if !s.on fOFFSTAT_RUNNING then s.complete d stUNKNOWN 0 []
  else s.toOffice d

/-- Whether such a descriptor is next on its ring and can be taken now. -/
def State.otherReady (s : State) (d : Desc) : Bool :=
  !opAssigned (dsOpcode d) && s.canRun d && s.rst.offDesc != some d &&
    !(opOffice (dsOpcode d) && s.role != .loop && s.on fOFFSTAT_RUNNING && s.on fOFFSTAT_PENDING)

/-- Every descriptor that waits for Rhoco, oldest first per path. -/
def State.waitingDescs (s : State) : List Desc :=
  ((s.scr.held.filter (fun h => h.phase = 1)).reverse.map (·.d)) ++ s.node.inbox

/-- Take such descriptors as they come to the front of their rings. -/
def State.takeOthers : Nat → State → State
  | 0, s => s
  | n + 1, s =>
    match s.waitingDescs.find? (fun d => s.otherReady d) with
    | some d => State.takeOthers n (s.takeOther d)
    | none => s

/-- Take every such descriptor that is ready. -/
def State.pump (s : State) : State := s.takeOthers (s.waitingDescs.length)

/-- What a descriptor's action answers: the state, the status, the inline result, the result bytes, and whether the
completion waits (the action has then kept the descriptor where its end finds it). -/
structure DescRes where
  st : State
  status : Nat
  result : Nat
  bytes : List Byte
  waits : Bool

/-- An action that completes OK with nothing to return. -/
def State.ok (s : State) : DescRes := ⟨s, stOK, 0, [], false⟩

/-- An action that completes with a status and changes nothing more. -/
def State.fail (s : State) (status : Nat) : DescRes := ⟨s, status, 0, [], false⟩

/-- Run a descriptor under the order of R246: a role the opcode does not list completes NOT_IN_ROLE, a field R235
forbids INVALID_FIELD, and else the action decides. Its completion goes back on its path. -/
def State.runDesc (s : State) (d : Desc) (inRole : Bool) (act : State → DescRes) : State :=
  let s := s.pump
  if s.canRun d then
    let r := if !inRole then s.fail stNOTROLE
      else if !dsFormOk d then s.fail stINVALID
      else act s
    if r.waits then r.st else r.st.complete d r.status r.result r.bytes
  else s

/-- Run an opcode that acts only at the Chapter (R246 step 2). -/
def State.runLocal (s : State) (d : Desc) (act : State → DescRes) : State :=
  s.runDesc d (s.role = .chapter && (match d.path with
    | .lane _ => d.ring = 3
    | _ => false)) act

end Sys2Proof.Machine
end

