-- ==== Sys2Proof/Machine/Power.lean ====
section
/-! DEFINITION. Tokens, allowance and power flags (chapter 3), and what a wake source does (chapter 4): the operations
every block's meanings share. -/

namespace Sys2Proof.Machine

open Sys2Proof

/-! ### Tokens (R58 to R60) -/

/-- Whether Cantoris counts as running (R271): RUN, WAIT or XCALL. -/
def State.cantRuns (s : State) : Bool := decide (3 ≤ s.fld fCANTSTAT_STATE) && decide (s.fld fCANTSTAT_STATE ≤ 5)

/-- Whether an SFE output rate is above 1,000 S/s: REJ = 0 and 96,000 / N above 1,000 (Table 3.2). -/
def sfeFast (rej n : Nat) : Bool := rej = 0 && decide (n < 96)

/-- The tokens Font costs (Table 3.2): in Loop role 1; at flow cadence 2, and 1 more with the 12 V drive. -/
def fontCost (role : Role) (run flow level : Bool) : Nat :=
  if !run then 0
  else if role = .loop then 1
  else if flow then 2 + b2n level else 0

/-- NEED: the sum of the costs of everything active (R58, Table 3.2). -/
def State.needNow (s : State) : Nat :=
  2 * s.fld fMOTSTAT_GRUN
  + fontCost s.role (s.on fFONTSTAT_RUN) (s.on fFONTSTAT_FLOWCAD) (s.on fFONTCTL_LEVEL)
  + 3 * b2n s.cantRuns
  + (if s.on fSFEEXC_EN then s.fld fPWRCFG_EXC else 0)
  + b2n (s.on fSFECTL_EN && sfeFast (s.fld fSFECTL_REJ) (s.fld fSFERATE_N))
  + b2n (s.on fMOTSTAT_ARUN && decide (6 ≤ s.fld fMOTCTL_ODR))

/-- ALLOW under R60. -/
def State.allowNow (s : State) : Nat :=
  match s.fld fPWRSRC_SRC with
  | 0 => if s.role = .loop then 5 else s.fld fPWRTOK_GRANT
  | 1 => 24
  | _ => min 24 (s.fld fPWRCFG_BAKALLOW)

/-- LPSTAT.SYNC (R196): the Spire is locked, PROP is valid, and a beacon of the last 2 superframes carried SYNC = 1. -/
def State.syncNow (s : State) : State :=
  s.setFld fLPSTAT_SYNC (b2n (s.on fCLKSTAT_PLLLOCK && s.on fLPPROP_VALID && s.on fLPSTAT_TRACK && s.node.bSync))

/-- The core takes no part in sleep any more: Decani continues after its WAIT. -/
def State.resumeDecani (s : State) : State :=
  { s with slp := { s.slp with st := .run }, dec := { s.dec with waiting := false } }

/-! ### Wakes -/

/-- Whether a wake source acts in a state (Table 4.3), beside its enable. An OFF entry before E6 takes the CRYPT
column (R84). -/
def State.wakesIn (s : State) (bit : Nat) (st : PState) : Bool :=
  match bit with
  | 3 => s.role = .cell
  | 4 => match st with
    | .doze => s.on fMOTSTAT_ARUN || s.on fPWRCTL_MWATCH
    | _ => s.on fPWRCTL_MWATCH
  | 5 => s.role = .cell || s.role = .loop
  | 11 | 12 => st = .doze
  | _ => true

/-- Restart a core after its special registers were lost (R305, R372): reset values, with the general registers other
than w14 undefined (free values, Log 3). -/
def State.coreAfterReset (s : State) (base : Core) : Core :=
  { base with gpr := (List.range 16).map (fun i => BitVec.ofNat 32 (Config.free (s.free + i))) }

/-- The registers that CRYPT keeps: the always-on blocks 0 to 4, the monitor's fields of block 5, the KN registers of
block 21 and STRESP (R76, chapters 5 and 25, R485). -/
def cryptRegs (r : RegFile) : RegFile :=
  let base := rreset (rreset r (blockBase 5) (blockBase 21 + 0x50) resetRegs) (blockBase 21 + 0x68) (blockBase 25) resetRegs
  let keep : List Fld := [fCLKSTAT_XTALOK, fCLKSTAT_HOLDOVER, fCLKSTAT_FORCED, fCLKFLAG_XTALF, fCLKFLAG_PLLF, fCLKFLAG_HFF,
    fCLKFLAG_LFRCF, fCLKRCCAL_COUNT, fCLKRCCAL_VALID]
  rput (keep.foldl (fun q f => rput q f.addr (putFld (rget q f.addr) f (fldOf (rget r f.addr) f))) base) rSTRESP
    (rget r rSTRESP)

/-- The watchdog starts over from its full period (R135): WDTCNT holds the count at the last reload. -/
def State.wdtReload (s : State) : State :=
  { s.setFld fWDTCNT_REMAIN (1024 * s.fld fWDTCFG_PERIOD) with rst := { s.rst with wdtWarn := false } }

/-- The period of the last-resort watchdog (R135). -/
def lrPeriod : Nat := 1048576

/-- What exit from CLOISTER and CRYPT both do (R86, R135): count the wake, remember the state left, restart the watchdogs. -/
def State.exitCount (s : State) (code : Nat) : State :=
  let t := (s.sets [(fWAKECNT_COUNT, s.fld fWAKECNT_COUNT + 1), (fSLPSTAT_LAST, code)]).wdtReload
  { t with rst := { t.rst with lrwd := lrPeriod } }

/-- Empty every enabled sample-buffer window and flag the loss (R346). -/
def State.sbufLost (s : State) : State :=
  let t := (List.range 3).foldl (fun t n =>
    if t.on (fSBWCFG_EN n) then t.sets [(fSBWRP_RP n, t.fld (fSBWWP_WP n)), (fSBWFILL_FILLED n, 0)] else t) s
  { (t.raise [fSBFLAG_LOST]) with mem := t.mem.lose 0x21000000 0x10000 }

/-- The SRAM banks that SLPRET does not retain, with bank 0 outside the keep (R75, R86). -/
def State.lostBanks (s : State) : List Nat := (List.range 16).filter (fun b => !(s.fld fSLPRET_RETAIN).testBit b)

/-- Lose a bank's contents; bank 0 only outside the keep (R75). -/
def loseBank (m : Mem) (b : Nat) : Mem :=
  if b = 0 then m.lose 0x20002000 0x6000 else m.lose (0x20000000 + 0x8000 * b) 0x8000

/-! ### The output latch (R526 to R528) -/

/-- The outputs that are on: latched on, VFLD qualified and in range, not too hot. -/
def Field.on (f : Field) : Nat := if f.vok && !f.ov then f.latch - (f.latch &&& f.therm) else 0

/-- Bring FOSTAT up to date with the latch. -/
def State.foSync (s : State) : State :=
  s.sets [(fFOSTAT_LATCH, s.fio.latch), (fFOSTAT_ON, s.fio.on), (fFOSTAT_HELD, 3 - s.fld fFOCTL_ARM),
    (fFOSTAT_SAFED, s.fio.safed), (fFOSTAT_VFLDOK, b2n s.fio.vok)]

/-- The output latch after a reset: SAFE and SAFELVL show the latch, ARM is 0 (R528). -/
def State.foReset (s : State) : State :=
  (s.sets [(fFOCTL_SAFE, s.fio.safe), (fFOCTL_SAFELVL, s.fio.safeLvl), (fFOCTL_ARM, 0)]).foSync

/-! ### Leaving CLOISTER and CRYPT -/

/-- Exit from CLOISTER (R85, R86, R110, R346). -/
def State.exitCloister (s : State) : State :=
  let lost := s.lostBanks
  let t := (s.exitCount 2).sets
    ([(fCLKCTL_HFEN, 1), (fCLKSTAT_HFOK, 1), (fPWRSRC_VCOREOK, 1), (fBANKLOST_LOST, s.fld fBANKLOST_LOST ||| (lost.map (2 ^ ·)).sum)]
      ++ s.slp.savedHold.map (fun n => (fGPCFG_HOLD n, 0)))
  let t := { t with
    mem := lost.foldl loseBank t.mem
    pads := { t.pads with held := t.pads.held.filter (fun p => !s.slp.savedHold.contains p.1), asleep := false } }
  let t := if s.on fPWRCTL_SBKEEP then t else t.sbufLost
  t.resumeDecani

/-- Exit from CRYPT (R76, R85, R86, R127): Decani starts at Rhoco's wake entry, which checks the keep. -/
def State.exitCrypt (s : State) : State :=
  let t := s.exitCount 3
  let t := { t with regs := cryptRegs t.regs }
  let t := t.sets [(fBANKLOST_LOST, 0xFFFF), (fCLKCTL_HFEN, 1), (fCLKSTAT_HFOK, 1), (fPWRSRC_VCOREOK, 1)]
  let m := (List.range 16).foldl loseBank t.mem
  let m := (m.lose 0x30002000 0x6000).lose 0x21000000 0x10000
  let t := { t with
    mem := m
    dec := { s.coreAfterReset Core.decaniReset with pc := Config.cryptEntry }
    cant := Core.off
    pads := { t.pads with asleep := false }
    descCache := []
    sfe := {}, font := {}, mot := {}, ring := { kn := s.ring.kn }, touch := {}, chor := {}
    clk := { t.clk with heldSel := none, heldRestored := false, stopped := false, spireHeld := false, pllRun := false } }
  let t := ((t.used 16).setFld fMOTSTAT_WATCH (t.fld fPWRCTL_MWATCH)).foReset
  let t := if Config.keepOk (m.bytes 0x20000000 0x800) then t else t.raise [fBOOTSTAT_KEEPBAD]
  -- Rhoco's CRYPT wake entry sets the MRAM segment rules again (R334).
  let t := t.sets [(fMRSEGSAC_SAC, 2), (fMRSEGNRO_NRO, 0xFFFD)]
  { t with slp := { t.slp with st := .run }, rst := { t.rst with restoreDue := true } }

/-- A wake before E6 abandons the entry (R90): the HF RC runs again, the pads and the clock selections are restored,
a selection of the Spire is held until lock, and Decani continues after WAIT. -/
def State.abandonEntry (s : State) : State :=
  let spire := s.slp.savedSel % 2 = 1
  let t := s.sets
    ([(fCLKCTL_PLLEN, s.slp.savedPllen), (fCLKSTAT_HFOK, 1), (fSLPSTAT_ABORTED, 1),
      (fCLKSTAT_SWPEND, b2n spire), (fCLKSEL_ROOT, s.slp.savedSel % 2), (fCLKSEL_CDIV, s.slp.savedSel / 2 % 2)]
      ++ s.slp.savedHold.map (fun n => (fGPCFG_HOLD n, 0)))
  { t with
    pads := { t.pads with held := t.pads.held.filter (fun p => !s.slp.savedHold.contains p.1), asleep := false }
    clk := { t.clk with
      heldSel := if spire then some s.slp.savedSel else none, heldRestored := spire, pllRun := s.slp.savedPllen = 1 }
    slp := { t.slp with entering := none, st := .run }
    dec := { t.dec with waiting := false } }

/-- An enabled wake acts: it abandons an entry before E6, ends DOZE (cancelling a deferred entry) or starts the exit
from CLOISTER or CRYPT (R85, R86, R90). In OFF no such source acts (R81, R84). -/
def State.wakeNow (s : State) : State :=
  match s.slp.entering with
  | some _ => s.abandonEntry
  | none =>
    match s.slp.st with
    | .run | .off => s
    | .doze =>
      { (s.setFld fSLPSTAT_DEFERRED 0).resumeDecani with
        slp := { s.slp with st := .run, deferred := none } }
    | .cloister => s.exitCloister
    | .crypt => s.exitCrypt

/-- The state whose column of Table 4.3 decides a wake now. -/
def State.wakeState (s : State) : PState :=
  match s.slp.entering with
  | some .off => .crypt
  | some p => p
  | none => s.slp.st

/-- A wake source fires (R79, R90, R94): WAKESRC latches it, and an enabled one wakes the part where Table 4.3 marks
it. In OFF it is lost (R84). -/
def State.wake (s : State) (bit : Nat) : State :=
  if s.slp.st = .off then s
  else
    let t := s.setFld fWAKESRC_SRC (s.fld fWAKESRC_SRC ||| 2 ^ bit)
    if (s.fld fWAKEEN_ALL).testBit bit && s.wakesIn bit s.wakeState then t.wakeNow else t

/-- Set PWRFLAG bits. A bit that rises while its PWRIE bit is 1 fires PWREV (R94). -/
def State.pwrFlag (s : State) (f : Fld) : State :=
  if s.on f then s
  else
    let t := s.setFld f 1
    if (s.fld fPWRIE_IE).testBit f.lo then t.wake 6 else t

/-- Recompute ALLOW, NEED and SHORT; PWRFLAG.SHORT sets when SHORT rises (R58, R60, Table 3.8). -/
def State.retoken (s : State) : State :=
  let n := s.needNow
  let a := s.allowNow
  let short := decide (a < n)
  let t := s.sets [(fPWRTOK_NEED, n), (fPWRTOK_ALLOW, a), (fPWRTOK_SHORT, b2n short)]
  if short && !s.on fPWRTOK_SHORT then t.pwrFlag fPWRFLAG_SHORT else t

/-- Whether R60 refuses a change from the present state to one whose NEED would be `after`. -/
def State.tokensRefuse (s : State) (after : Nat) : Bool :=
  decide (s.needNow < after) && decide (s.allowNow < after)

/-- Ask the walk's driver for a total of tokens, or return some by naming a lower total (R191): the total goes in TOK of an
uplink frame. -/
def State.wantTokens (s : State) (n : Nat) : State := { s with node := { s.node with wanted := n, tokDue := true } }

/-- A start that R60 refuses sets PWRFLAG.REFUSED. -/
def State.tokenRefused (s : State) : State := s.pwrFlag fPWRFLAG_REFUSED

/-- A start that R102 refuses sets CLKFLAG.REFUSED. -/
def State.spireRefused (s : State) : State := s.raise [fCLKFLAG_REFUSED]

/-- Whether R102 refuses a start of a block with no HF RC source. -/
def State.spireRefuses (s : State) : Bool := !s.on fCLKSTAT_PLLLOCK

end Sys2Proof.Machine
end

