-- ==== Sys2Proof/Machine/Access.lean ====
section
/-! DEFINITION. What a register write is allowed to do before its register's own rules act: access codes (R4, R6,
R568), SRW fields that a claim adds (R341, R412), and cuts (R379, R380). -/

namespace Sys2Proof.Machine

open Sys2Proof

/-- The access row of a peripheral or core-private register. -/
def specOf (a : Nat) : Option RegSpec :=
  (if a < 0xE0000000 then regTable else privTable).find? (fun r => decide (r.base ≤ a) &&
    (if r.count = 1 then r.base = a else (a - r.base) % r.stride = 0 && decide ((a - r.base) / r.stride < r.count)))

/-- The peripheral block of an address. -/
def blockOf (a : Nat) : Nat := (a - 0x40000000) / 0x1000

/-- Whether the Sacristy claims a block (R378). -/
def State.claimed (s : State) (k : Nat) : Bool := (s.fld fSACCLAIM_CLAIM).testBit k

/-- The writable bits of a register that a claim makes SRW now (R341, R412, R433, and the claim rules of chapters 20
to 24). -/
def State.claimSrw (s : State) (a : Nat) : Nat :=
  let all := 0xFFFFFFFF
  let k := blockOf a
  if k = 15 then
    if (s.claimed 17 && a / 0x20 = rSBWCFG 1 / 0x20) || (s.claimed 19 && a / 0x20 = rSBWCFG 2 / 0x20) then all else 0
  else if !s.claimed k then 0
  else match k with
    | 17 =>
      if a = rSFECTL ∨ a = rSFEEXC then 0xFFFFFFFE
      else if a = rSFERATE ∨ a = rSFEPER ∨ (rSFEOFS 0 ≤ a ∧ a ≤ rSFEOFS 7) then all
      else if rSFESLOT 0 ≤ a ∧ a ≤ rSFESLOT 6 ∧ (s.reg a).getLsbD 14 then all
      else 0
    | 18 =>
      if a = rLOOPCTL then 0xFFFFFFFE
      else if a = rLOOPSET ∨ a = rLOOPTMO ∨ a = rLOOPCALG ∨ a = rLOOPCALO then all
      else 0
    | 19 => if a = rFONTCTL then 0xFFFFFFF6 else all
    | 20 => if a = rMOTCTL then 0xFFFFFFFC else all
    | 21 => if a = rRGCTL then 0xFFFFFF00 else if a = rTCHCTL then 0xFFFFFFF0 else all
    | 22 => if a = rCHCTL then 0xFFFFFF00 else all
    | 23 => if a = rFICTL then 0xFFFFFFF0 else all
    | _ => 0

/-- The cut fields (R379, Table 17.2, and the blocks' own chapters): the field, the blocks a change cuts, and whether
any change is a cut or only a bit that goes to 0. -/
def cutFields : List (Fld × Nat × Bool) :=
  [(fCLKCTL_PLLEN, 2 ^ 13 + 2 ^ 17 + 2 ^ 19, false), (fCLKSEL_ROOT, 2 ^ 7 + 2 ^ 22, true),
   (fCLKSEL_CDIV, 2 ^ 7 + 2 ^ 22, true), (fCANTCTL_PWR, 2 ^ 7, false), (fCANTCTL_RUN, 2 ^ 7, false),
   (fSFECTL_EN, 2 ^ 17, false), (fSFEEXC_EN, 2 ^ 17, false), (fLOOPCTL_EN, 2 ^ 18, false),
   (fFONTCTL_EN, 2 ^ 19, false), (fFONTCTL_LEVEL, 2 ^ 19, true), (fMOTCTL_AEN, 2 ^ 20, false),
   (fMOTCTL_GEN, 2 ^ 20, false), (fRGCTL_RUN, 2 ^ 21, false), (fTCHCTL_EN, 2 ^ 21, false), (fCHCTL_EN, 2 ^ 22, false),
   (fFICTL_EN, 2 ^ 23, false)]

/-- SACDEFER from the cuts that are held: the claimed blocks they cut, and RST (R379). -/
def State.deferSync (s : State) : State :=
  let d := s.sac.cuts.foldl (fun m c => m ||| (c.blocks &&& s.fld fSACCLAIM_CLAIM)) 0
  s.sets [(fSACDEFER_DEFER, d), (fSACDEFER_RST, b2n s.sac.sysrst.isSome)]

/-- What a write came to: the state, the value its register's own rules take (bits that may not act hold the current
value in RW-kind fields and 0 elsewhere), and whether a field was refused as SRW or held as a cut. -/
structure Write where
  st : State
  v : Word
  denied : Bool
  held : Bool

/-- The lowest set bit of a number, as a block number. -/
def lowBit (m : Nat) : Nat := ((List.range 32).find? (fun i => m.testBit i)).getD 0

/-- Apply R379 and R380 to a Nave write: each cut field that the write would change is held and keeps its value; a
write of the current value cancels its hold. -/
def State.holdCuts (s : State) (a : Nat) (v : Word) : State × Word × Bool :=
  let claim := s.fld fSACCLAIM_CLAIM
  let r := cutFields.foldl (fun (q : List Cut × Word × Nat) c =>
    let f := c.1
    if f.addr = a ∧ (c.2.1 &&& claim) ≠ 0 then
      let cur := s.fld f
      let new := fldOf v f
      if new = cur then (q.1.filter (fun x => x.f != f), q.2.1, q.2.2)
      else if c.2.2 || (cur &&& new) != cur then
        let cut : Cut := ⟨f, new, c.2.1⟩
        let l := if q.1.any (fun x => x.f = f) then q.1.map (fun x => if x.f = f then cut else x) else q.1 ++ [cut]
        (l, putFld q.2.1 f cur, q.2.2 ||| (c.2.1 &&& claim))
      else (q.1.filter (fun x => x.f != f), q.2.1, q.2.2)
    else q) (s.sac.cuts, v, 0)
  let t := { s with sac := { s.sac with cuts := r.1 } }
  if r.2.2 = 0 then (t.deferSync, r.2.1, false)
  else ((t.violate 6 (lowBit r.2.2) a v.toNat).deferSync, r.2.1, true)

/-- What the access codes let a write in a world do (R4, R6, R568, R379). -/
def State.vet (s : State) (w : World) (a : Nat) (v : Word) : Write :=
  match specOf a with
  | none => ⟨s, s.reg a, false, false⟩
  | some r =>
    let cur := (s.reg a).toNat
    let n := v.toNat
    if w = .sacristy then ⟨s, v, false, false⟩
    else
      let dyn := s.claimSrw a
      let secRw := r.srw ||| (r.rw &&& dyn)
      let secW1 := r.srwW1c ||| r.srwWo ||| ((r.w1c ||| r.w1s ||| r.wo) &&& dyn)
      let bad := ((n ^^^ cur) &&& secRw) != 0 || (n &&& secW1) != 0
      let t := if bad then s.violate 1 (blockOf a) a n else s
      let keep := BitVec.ofNat 32 secRw
      let v1 := ((v &&& ~~~keep) ||| (s.reg a &&& keep)) &&& ~~~(BitVec.ofNat 32 secW1)
      let h := t.holdCuts a v1
      ⟨h.1, h.2.1, bad, h.2.2⟩

/-- The plain effect of an admitted write: RW-kind bits take the value, W1C bits clear, W1S bits set (R4). -/
def State.plainWrite (s : State) (a : Nat) (v : Word) : State :=
  match specOf a with
  | none => s
  | some r =>
    let rw := BitVec.ofNat 32 (r.rw ||| r.srw)
    let c := v &&& BitVec.ofNat 32 (r.w1c ||| r.srwW1c)
    let e := v &&& BitVec.ofNat 32 r.w1s
    s.setReg a ((((s.reg a &&& ~~~rw) ||| (v &&& rw)) &&& ~~~c) ||| e)

/-- Several Nave writes in order, each by the operation of its block; whether any was refused as SRW or held. -/
def State.naveWrites (s : State) (wr : State → Nat → Word → State) : List (Nat × Nat) → State × Bool × Bool
  | [] => (s, false, false)
  | p :: ps =>
    let w := s.vet .nave p.1 (BitVec.ofNat 32 p.2)
    let r := State.naveWrites (wr w.st p.1 w.v) wr ps
    (r.1, w.denied || r.2.1, w.held || r.2.2)

/-- The status of a descriptor that made such writes: DENIED for a refusal under SRW, DEFERRED for a held cut. -/
def writeStatus (denied held : Bool) : Nat := if denied then stDENIED else if held then stDEFERRED else stOK

/-- The result of a descriptor whose action is a series of Nave register writes. -/
def State.setup (s : State) (wr : State → Nat → Word → State) (l : List (Nat × Nat)) : DescRes :=
  let r := s.naveWrites wr l
  ⟨r.1, writeStatus r.2.1 r.2.2, 0, [], false⟩

/-- The RESULT and result bytes of a descriptor that reads registers: RESULT is the first, RESBUF gets all. -/
def State.query (s : State) (l : List Nat) : DescRes :=
  ⟨s, stOK, (s.reg (l.headD 0)).toNat, (l.map (fun a => leBytes 4 (s.reg a).toNat)).flatten, false⟩

/-- A flag that Rhoco posts: the flag sets, Rhoco posts its event and clears it; with Rhoco stopped it stays set
(R419, R434, R457, R477, R498, R519, R532). -/
def State.flagEvent (s : State) (f : Fld) (code : Nat) (data : List Byte) : State :=
  if s.rhocoUp then s.event code data else s.setFld f 1

end Sys2Proof.Machine
end

