-- ==== Sys2Proof/Machine/Stores.lean ====
section
/-! DEFINITION. The access guard (R362 to R367) and the store buffer (R358, R366) of a core. -/

namespace Sys2Proof.Machine

open Sys2Proof

/-! ### The access guard -/

/-- What an access asks of the guard (Table 16.5). -/
inductive Perm where
  | r
  | w
  | x
  deriving DecidableEq, Repr

/-- The position of a permission in GPERM and in the defaults of GCTL. -/
def Perm.ix : Perm → Nat
  | .r => 0
  | .w => 1
  | .x => 2

/-- A guard region of a world's bank: its first byte, last word and permissions (Table 16.7). -/
def Core.region (k : Core) (w : World) (n : Nat) : Nat × Nat × Word :=
  match w with
  | .nave => (k.pfld (fGBASE_ALL n), k.pfld (fGLIM_ALL n), rget k.priv (rGPERM n))
  | .sacristy => (k.pfld (fSGBASE_ALL n), k.pfld (fSGLIM_ALL n), rget k.priv (rSGPERM n))

/-- The lowest-numbered enabled region of the 16 of a world's bank that contains an address (R362). -/
def Core.regionOf (k : Core) (w : World) (a : Nat) : Option Nat :=
  (List.range 16).find? (fun n =>
    let r := k.region w n
    r.2.2.getLsbD 8 && decide (r.1 ≤ a) && decide (a < r.2.1 + 4))

/-- Whether the guard permits an access (R362), and the region that decided (16 outside every region). -/
def Core.guard (k : Core) (w : World) (sup : Bool) (p : Perm) (a : Nat) : Bool × Nat :=
  let en := match w with
    | .nave => k.pfld fGCTL_NEN
    | .sacristy => k.pfld fGCTL_SEN
  if en = 0 then (true, 16)
  else
    match k.regionOf w a with
    | some n => ((k.region w n).2.2.getLsbD (if sup then 3 + p.ix else p.ix), n)
    | none =>
      let d := match w with
        | .nave => k.pfld fGCTL_NDEF
        | .sacristy => k.pfld fGCTL_SDEF
      (sup && d.testBit p.ix, 16)

/-- Record a refusal in GSTAT and GCNT (R366, Table 16.8). -/
def Core.refused (k : Core) (region : Nat) (write imprecise : Bool) : Core :=
  (((k.setPfld fGSTAT_REGION region).setPfld fGSTAT_WRITE (b2n write)).setPfld fGSTAT_IMPRECISE (b2n imprecise)).setPfld
    fGCNT_COUNT (satAdd 0xFFFF (k.pfld fGCNT_COUNT) 1)

/-- Raise NOTICE for a buffered store refused or answered with a bus error (R366): the first keeps its address, any
further one before it is taken sets MULTI. -/
def Core.raiseNotice (k : Core) (w : World) (a : Nat) : Core :=
  match k.notice with
  | none => { k with notice := some (w, a) }
  | some _ => k.setPfld fGSTAT_MULTI 1

/-! ### The store buffer -/

/-- Cut bytes at line boundaries: the parts of one store, each within one line. -/
def lineParts : Nat → Nat → List Byte → List (Nat × List Byte)
  | 0, _, _ => []
  | n + 1, a, bs =>
    if bs.isEmpty then []
    else
      let room := 32 - a % 32
      (a, bs.take room) :: lineParts n (a + room) (bs.drop room)

/-- Cut bytes at word boundaries. -/
def wordParts : Nat → Nat → List Byte → List (Nat × List Byte)
  | 0, _, _ => []
  | n + 1, a, bs =>
    if bs.isEmpty then []
    else
      let room := 4 - a % 4
      (a, bs.take room) :: wordParts n (a + room) (bs.drop room)

/-- Write bytes of one line by way of a core's cache or past it, as the memory type asks (R353, R358). False is a bus
error. -/
def State.putPart (s : State) (c : CoreId) (w : World) (a : Nat) (bs : List Byte) : Bool × State :=
  let chk := s.busCheck (.core c) w true a (leNat (bs.take 4))
  if chk.1 then
    let t := chk.2
    match (region a).type with
    | .normal =>
      let own := t.own (cacheOf c) (lineOf a)
      let own := if c = .decani then { own with dec := own.dec.unreserve (lineOf a) }
        else { own with cant := own.cant.unreserve (lineOf a) }
      (true, own.storeLine (cacheOf c) a bs)
    | .mram =>
      let own := if c = .decani then { t with dec := t.dec.unreserve (lineOf a) }
        else { t with cant := t.cant.unreserve (lineOf a) }
      (true, own.writeUnique (some (cacheOf c)) (cacheOf c).num a bs)
    | .uncached => (true, { t with mem := t.mem.putBytes a bs })
    | .device => (false, t)
  else (false, chk.2)

/-- Write the parts of one store in order; false when any of them met a bus error. -/
def State.putParts (s : State) (c : CoreId) (w : World) : List (Nat × List Byte) → Bool × State
  | [] => (true, s)
  | p :: ps =>
    let r := s.putPart c w p.1 p.2
    let q := State.putParts r.2 c w ps
    (r.1 && q.1, q.2)

/-- The lines a buffered store covers: the entries it takes. -/
def SBuf.cost (e : SBuf) : Nat := (e.addr % 32 + e.data.length + 31) / 32

/-- Drain one buffered store: it is checked by the guard as it drains; refused, it does not act in any byte (R366). -/
def State.drainEntry (s : State) (c : CoreId) (e : SBuf) : State :=
  let k := s.core c
  let g := k.guard e.world e.priv .w e.check
  if e.checked || g.1 then
    let r := s.putParts c e.world (lineParts 4 e.addr e.data)
    if r.1 then r.2
    else
      let k := r.2.core c
      r.2.setCore c ((k.raiseNotice e.world e.check).setPfld fGCNT_COUNT (satAdd 0xFFFF (k.pfld fGCNT_COUNT) 1))
  else s.setCore c ((k.refused g.2 true true).raiseNotice e.world e.check)

/-- Drain the oldest buffered store of a core, if there is one (R358). -/
def State.drainOne (s : State) (c : CoreId) : State :=
  match (s.core c).sbuf with
  | [] => s
  | e :: rest => (s.setCore c { s.core c with sbuf := rest }).drainEntry c e

/-- Drain a core's store buffer empty (R358, R360, R366). -/
def State.drainAll (s : State) (c : CoreId) : State :=
  (s.core c).sbuf.foldl (fun t _ => t.drainOne c) s

/-- A store enters the buffer of 4 entries; a store that finds no room waits for the oldest to drain (R358). -/
def State.bufferStore (s : State) (c : CoreId) (e : SBuf) : State :=
  let room := fun (t : State) => decide (((t.core c).sbuf.map SBuf.cost).sum + e.cost ≤ 4)
  let t := (List.range 4).foldl (fun t _ => if room t then t else t.drainOne c) s
  t.setCore c { t.core c with sbuf := (t.core c).sbuf ++ [e] }

end Sys2Proof.Machine
end

