-- ==== Sys2Proof/Machine/CoreCtl.lean ====
section
/-! DEFINITION. The core control block, block 7 (R271 to R274), and stopping an office (R273, R275, R279). -/

namespace Sys2Proof.Machine

open Sys2Proof

/-- Cantoris loses power (R271, R369): its buffered stores drain, its data cache is written back, and its state is gone, with any read of the
host window that waited. -/
def State.cantOff (s : State) : State :=
  { ((s.drainAll .cantoris).flushCache .cant).setFld fCANTSTAT_STATE 0 with
    cant := Core.off
    hl := { s.hl with
      winAsk := s.hl.winAsk.filter (fun p => p.1 = .decani)
      winAns := s.hl.winAns.filter (fun p => p.1 = .decani) } }

/-- Cantoris runs (R271): the first time after POWERING it starts in Nave supervisor with IE = 0 at CANTENTRY with VBASEN =
CANTVBASE; later it continues where it stopped. -/
def State.cantGo (s : State) : State :=
  let k := s.cant
  let k := if k.fresh then
      { k with
        fresh := false, psr := 1, pc := s.reg rCANTENTRY &&& 0xFFFFFFFE
        vbase := k.vbase.set 0 (s.reg rCANTVBASE &&& 0xFFFFFFE0) }
    else k
  ({ s with cant := k }).setFld fCANTSTAT_STATE (if k.waiting then 4 else 3)

/-- Whether a request to run Cantoris is refused under R60 (R272). -/
def State.cantRefused (s : State) : Bool := s.tokensRefuse (s.needNow + 3)

/-- A write of CANTCTL (R271, R272). A start with too few tokens does not act. In XCALL the next instruction boundary is after
DONE, so RUN = 0 acts there. -/
def State.cantWriteCtl (s : State) (v : Word) : State :=
  let st := s.fld fCANTSTAT_STATE
  let pwr := fldOf v fCANTCTL_PWR = 1
  let run := fldOf v fCANTCTL_RUN = 1
  let ready := decide (st = 2) || decide (st = 6)
  if run && pwr && (ready || (decide (st < 2) && !s.on fCANTCTL_RUN)) && s.cantRefused then s.tokenRefused
  else
    let t := s.plainWrite rCANTCTL v
    let t := if !pwr && st != 0 then t.cantOff
      else if pwr && st = 0 then { t.setFld fCANTSTAT_STATE 1 with cant := Core.off }
      else if run && ready then t.cantGo
      else if !run && (st = 3 || st = 4 || st = 6) then t.setFld fCANTSTAT_STATE 2
      else t
    t.retoken

/-- DONE (R274, R278): Cantoris loads w0 to w3 from CANTXRES0 to 3 and continues after its SVC; a shed that waited, or a RUN that
was cleared, acts now. -/
def State.cantDone (s : State) : State :=
  if s.fld fCANTSTAT_STATE = 5 then
    let k := (List.range 4).foldl (fun (k : Core) n => { k with gpr := k.gpr.set n (s.reg (rCANTXRES n)) }) s.cant
    let t := { s with cant := k }
    if s.on fCANTCTL_RUN then t.setFld fCANTSTAT_STATE 3 else (t.setFld fCANTSTAT_STATE 2).retoken
  else s

/-- A shed of Cantoris (R69, R271): its clock is stopped with its state kept. -/
def State.cantShed (s : State) : State :=
  let t := (s.setFld fCANTSTAT_STATE 6).setFld fPWRSHED_SHEDMAP (s.fld fPWRSHED_SHEDMAP ||| 4)
  let t := t.pwrFlag fPWRFLAG_SHED
  (if s.claimed 7 then t.violate 7 7 0 0 else t).retoken

/-- A write of a register of block 7 other than Cantoris's guard page. -/
def State.ccWrite (s : State) (a : Nat) (v : Word) : State :=
  if a = rCANTCTL then s.cantWriteCtl v
  else if a = rCANTXCTL then
    if fldOf v fCANTXCTL_DONE = 1 then
      let t := s.cantDone
      if s.pwr.shedXcall && s.fld fCANTSTAT_STATE = 5 then
        ({ t with pwr := { t.pwr with shedXcall := false } }).cantShed
      else t
    else s
  else s.plainWrite a v

/-- A write of a register of block 7 from a world. -/
def State.ccBus (s : State) (w : World) (a : Nat) (v : Word) : State :=
  let r := s.vet w a v
  r.st.ccWrite a r.v

/-- CANTORIS_POWER_ON (R271): CANTCTL is written with PWR = 1. -/
def execCantorisPowerOn (w : World) (s : State) : Host.Outcome State Fault Refusal :=
  .next (s.ccBus w rCANTCTL (putFld (s.reg rCANTCTL) fCANTCTL_PWR 1))

/-- CANTORIS_RUN (R271, R272): CANTCTL is written with RUN = 1. -/
def execCantorisRun (w : World) (s : State) : Host.Outcome State Fault Refusal :=
  .next (s.ccBus w rCANTCTL (putFld (s.reg rCANTCTL) fCANTCTL_RUN 1))

/-- CANTORIS_STOP (R271, R379): CANTCTL is written with RUN = 0. -/
def execCantorisStop (w : World) (s : State) : Host.Outcome State Fault Refusal :=
  .next (s.ccBus w rCANTCTL (putFld (s.reg rCANTCTL) fCANTCTL_RUN 0))

/-- CANTORIS_POWER_OFF (R271, R379): CANTCTL is written with PWR = 0. -/
def execCantorisPowerOff (w : World) (s : State) : Host.Outcome State Fault Refusal :=
  .next (s.ccBus w rCANTCTL (putFld (s.reg rCANTCTL) fCANTCTL_PWR 0))

/-- The end of POWERING (R271, R305): STOPPED, with the general registers and w14 undefined (free values, Log 3); with RUN set
already it runs if R60 still lets it. -/
def State.cantPowered (s : State) : State :=
  let k := { s.coreAfterReset Core.off with
    fresh := true
    sp := (List.range 4).map (fun i => BitVec.ofNat 32 (Config.free (s.free + 16 + i)) &&& 0xFFFFFFFC) }
  let t := ({ s with cant := k }.used 20).setFld fCANTSTAT_STATE 2
  if !s.on fCANTCTL_RUN then t
  else if t.cantRefused then t.tokenRefused else (t.cantGo).retoken

/-- CANTORIS_POWERED (R271). -/
def execCantorisPowered (s : State) : Host.Outcome State Fault Refusal :=
  .next (if s.fld fCANTSTAT_STATE = 1 then s.cantPowered else s)

/-- CANTXCTL_DONE (R274): CANTXCTL is written with DONE = 1. -/
def execCantxctlDone (w : World) (s : State) : Host.Outcome State Fault Refusal := .next (s.ccBus w rCANTXCTL 0x100)

/-! ### Stopping an office (R273) -/

/-- What Rhoco does once Cantoris is off: no office runs, an outstanding office descriptor completes UNKNOWN_OPCODE (R275), and a
Cell returns the three tokens (R191). -/
def State.officeEnd (s : State) : State :=
  let t := s.sets [(fOFFSTAT_RUNNING, 0), (fOFFSTAT_PENDING, 0)]
  let t := match s.rst.offDesc with
    | some d => t.complete d stUNKNOWN 0 []
    | none => t
  let t := { t with rst := { t.rst with offDesc := none, stopping := false } }
  if t.role = .cell && 3 ≤ t.fld fPWRTOK_GRANT then t.wantTokens (t.fld fPWRTOK_GRANT - 3) else t

/-- Clear PWR and end the office. -/
def State.officeOff (s : State) : State := (s.ccBus .nave rCANTCTL (putFld (s.reg rCANTCTL) fCANTCTL_PWR 0)).officeEnd

/-- Rhoco stops the running office: it clears RUN and then PWR. While the Sacristy claims Cantoris the first write is a cut, and
the rest waits for it (R379). The answer says whether it was held. -/
def State.officeStop (s : State) : State × Bool :=
  if !s.on fOFFSTAT_RUNNING then (s, false)
  else
    let r := s.vet .nave rCANTCTL (putFld (s.reg rCANTCTL) fCANTCTL_RUN 0)
    let t := r.st.ccWrite rCANTCTL r.v
    if r.held then ({ t with rst := { t.rst with stopping := true } }, true)
    else (t.officeOff, false)

/-- Cantoris is in FAULT: Rhoco stops the office and sets OFFSTAT.FAULT (R279). -/
def State.officeFault (s : State) : State :=
  if s.rhocoUp && s.on fOFFSTAT_RUNNING then s.officeStop.1.setFld fOFFSTAT_FAULT 1 else s

end Sys2Proof.Machine
end

