-- ==== Sys2Proof/Machine/Ints.lean ====
section
/-! DEFINITION. The interrupt controllers (R263 to R270): the level of every source from the state, routing, worlds,
levels and groups, and which source a core takes next. -/

namespace Sys2Proof.Machine

open Sys2Proof

/-- Whether any flag of a register is set whose enable is 1 in another register, over the low `w` bits. -/
def State.anyEnabled (s : State) (flags enables w : Nat) : Bool :=
  ((s.reg flags &&& s.reg enables).toNat % 2 ^ w) != 0

/-- A block's source: only a block that is not Off in the role raises it (R270). -/
def State.blockSource (s : State) (k flags enables w : Nat) : Bool := s.blockOn k && s.anyEnabled flags enables w

/-- Whether a descriptor waits for Rhoco (Table 12.6, DESCIN). -/
def State.descWaits (s : State) : Bool := s.scr.held.any (fun h => h.phase = 1) || !s.node.inbox.isEmpty

/-- Whether the input level of a source is asserted (Table 12.6). -/
def State.srcLevel (s : State) (n : Nat) : Bool :=
  match n with
  | 0 => s.on fPADSTAT_VIOLOW ||
      (List.range 16).any (fun i => (s.fld fPADSTAT_OV).testBit i && s.on (fGPCFG_OVIE i))
  | 1 => s.anyEnabled rPWRFLAG rPWRIE 11
  | 2 => (s.fld fWAKESRC_SRC &&& s.fld fWAKEEN_ALL) != 0
  | 3 => s.anyEnabled rCLKFLAG rCLKIE 6
  | 4 => s.rst.wdtWarn && s.on fWDTCFG_WARN
  | 5 => s.on fPARSTAT_SRAM || s.on fPARSTAT_SBUF || s.on fPARSTAT_QUEUE
  | 6 => s.anyEnabled rMRFLAG rMRIE 3 || s.anyEnabled rCOHFLAG rCOHIE 2
  | 7 => s.anyEnabled rSTFLAG rSTIE 6
  | 8 => !s.sac.vq.isEmpty
  | 9 => ((s.reg rSACFLAG &&& s.reg rSACIE).toNat &&& 0xC) != 0 || s.on fPARSTAT_SSRAM
  | 10 => s.reg rSACDEFER != 0
  | 16 => s.blockSource 8 rWDFLAG rWDIE 9
  | 17 => s.blockSource 9 rLAFLAG rLAIE 5
  | 18 => s.blockOn 10 && ((s.on fLJSTAT_PLUG && s.on fLJSTAT_PLUGIE) || (s.on fLJSTAT_UNPLUG && s.on fLJSTAT_UNPLUGIE) ||
      (s.on fLJSTAT_OVF && s.on fLJSTAT_OVIE))
  | 19 => s.anyEnabled rLPFLAG rLPIE 8
  | 20 => s.blockSource 12 rHLFLAG rHLIE 10
  | 21 => s.blockSource 13 rSCFLAG rSCIE 5
  | 22 => s.descWaits
  | 32 => s.blockSource 17 rSFEFLAG rSFEIE 14
  | 33 => s.blockSource 18 rLOOPFLAG rLOOPIE 7
  | 34 => s.blockSource 19 rFONTFLAG rFONTIE 16
  | 35 => s.blockSource 20 rMOTFLAG rMOTIE 13
  | 36 => s.blockSource 21 rRGFLAG rRGIE 10
  | 37 => s.blockSource 21 rTCHFLAG rTCHIE 6
  | 38 => s.blockSource 23 rFIFLAG rFIIE 20 || s.blockSource 23 rFOFLAG rFOIE 10
  | 39 => s.anyEnabled rSBFLAG rSBIE 11
  | 64 => s.fld fCANTSTAT_STATE = 7
  | 65 => s.fld fCANTSTAT_STATE = 5
  | 66 => s.on fOFFSTAT_PENDING
  | n =>
    if 40 ≤ n ∧ n ≤ 47 then
      s.blockSource 22 (rCHFLAG (n - 40)) (rCHIE (n - 40)) 9 ||
        (s.blockOn 22 && (s.fld fCHIRQ_FLAG &&& s.fld fCHIRQEN_EN).testBit (n - 40))
    else false

/-- The core a source is routed to (R263, R270): 8, 9, 64 and 65 are fixed to Decani and 66 to Cantoris. -/
def State.routeOf (s : State) (n : Nat) : CoreId :=
  if n = 8 ∨ n = 9 ∨ n = 64 ∨ n = 65 then .decani
  else if n = 66 then .cantoris
  else if s.dec.pbit fINTROUTE_ROUTE n then .cantoris else .decani

/-- The world a source belongs to (R266, R270, R258): on Cantoris always Nave. -/
def State.worldOf (s : State) (c : CoreId) (n : Nat) : World :=
  match c with
  | .cantoris => .nave
  | .decani => if n = 8 ∨ n = 9 ∨ s.dec.pbit fINTWORLD_WORLD n then .sacristy else .nave

/-- Whether a source is pending at a core (R263). -/
def State.intPending (s : State) (c : CoreId) (n : Nat) : Bool :=
  s.routeOf n = c && (s.srcLevel n || (s.core c).latch.testBit n)

/-- Whether a source is enabled at a core (R263). -/
def State.intEnabled (s : State) (c : CoreId) (n : Nat) : Bool := (s.core c).pbit fINTEN_EN n

/-- The level of a source (R263, R281): 0 is most urgent. -/
def Core.intLevel (k : Core) (n : Nat) : Nat := bitsOf (k.pfld (fINTPRI_LEVEL (n / 8))) (4 * (n % 8)) 4

/-- The number of group bits (R264). -/
def Core.gbits (k : Core) : Nat := min 4 (k.pfld fINTCTL_GBITS)

/-- The group of a source (R264). -/
def Core.groupOf (k : Core) (n : Nat) : Nat := k.intLevel n / 2 ^ (4 - k.gbits)

/-- The running group: that of the top of the active stack, 16 when it is empty (R264, R278). -/
def Core.runGroup (k : Core) : Nat :=
  match k.active with
  | [] => 16
  | n :: _ => k.groupOf n

/-- Whether PSR and the world let a core take a source (R266). -/
def State.worldTakes (s : State) (c : CoreId) (n : Nat) : Bool :=
  let k := s.core c
  match k.world, s.worldOf c n with
  | .nave, .nave => k.psr.getLsbD 2
  | .nave, .sacristy => true
  | .sacristy, .sacristy => k.psr.getLsbD 2
  | .sacristy, .nave => false

/-- Whether a core can take a source now (R263, R264, R266). -/
def State.canTake (s : State) (c : CoreId) (n : Nat) : Bool :=
  s.intEnabled c n && s.intPending c n && !((s.core c).active.contains n) &&
    decide ((s.core c).groupOf n < (s.core c).runGroup) && s.worldTakes c n

/-- The source a core takes next: the lowest level, at equal level the lowest number (R264). -/
def State.nextInt (s : State) (c : CoreId) : Option Nat :=
  (List.range 128).foldl (fun best n =>
    if s.canTake c n then
      match best with
      | none => some n
      | some b => if (s.core c).intLevel n < (s.core c).intLevel b then some n else best
    else best) none

/-- Whether any interrupt enabled to a core is pending (R79 bit 11, R82, R271). -/
def State.anyPending (s : State) (c : CoreId) : Bool :=
  (List.range 128).any (fun n => s.intEnabled c n && s.intPending c n)

/-- An interrupt enabled to a waiting core ends its wait: Decani leaves DOZE through the INT wake, Cantoris its WAIT
state (R79, R271). -/
def State.wakeOnInt (s : State) (c : CoreId) : State :=
  if s.anyPending c then
    match c with
    | .decani => if s.slp.st = .doze then s.wake 11 else s
    | .cantoris =>
      if s.fld fCANTSTAT_STATE = 4 then
        { (s.setFld fCANTSTAT_STATE 3) with cant := { s.cant with waiting := false } }
      else s
  else s

/-- A word of one of the controller's per-source views: bit i is source 32k + i. -/
def intWord (f : Nat → Bool) (k : Nat) : Nat := ((List.range 32).map (fun i => if f (32 * k + i) then 2 ^ i else 0)).sum

end Sys2Proof.Machine
end

