-- ==== Sys2Proof/Machine/Traps.lean ====
section
/-! DEFINITION. Late registers (R287 to R289), and taking a trap (R259 to R262, R278, R289, R298), as operations every
instruction shares. -/

namespace Sys2Proof.Machine

open Sys2Proof

/-! ### Late registers (R287 to R289) -/

/-- Write a multiplier or accumulator register. -/
def Core.putLate (k : Core) (r : LateReg) (v : Nat) : Core :=
  match r with
  | .mlo => { k with mlo := v % 2 ^ 32 }
  | .mhi => { k with mhi := v % 2 ^ 32 }
  | .acc0 => { k with acc0 := v % 2 ^ 48 }
  | .acc1 => { k with acc1 := v % 2 ^ 48 }

/-- Land every write due by the present cycle, in issue order (R287, R289). -/
def Core.landDue (k : Core) : Core :=
  let due := k.land.filter (fun l => l.cycle ≤ k.cyc)
  { due.foldl (fun q l => q.putLate l.reg l.val) k with land := k.land.filter (fun l => k.cyc < l.cycle) }

/-- Put a write on its way: writes are kept in the order in which they land, and at one cycle in issue order (R289). -/
def Core.pushLand (k : Core) (l : Landing) : Core :=
  { k with land := k.land.filter (fun x => x.cycle ≤ l.cycle) ++ [l] ++ k.land.filter (fun x => l.cycle < x.cycle) }

/-- Trap entry waits until every write already issued has landed (R289). -/
def Core.landAll (k : Core) : Core :=
  let last := k.land.foldl (fun m l => max m l.cycle) k.cyc
  { k with cyc := last }.landDue

/-! ### Taking a trap -/

/-- What a trap brings: its code, the world it is taken in, the return PC, INFO, and TRAPADDR and TRAPINST where Table
12.3 gives them values. -/
structure TrapIn where
  code : Nat
  world : World
  retPc : Word
  info : Nat
  addr : Option Word
  inst : Option Word
  irq : Bool
  imprecise : Bool
  deriving DecidableEq, Repr

/-- The CAUSE word of a frame (Table 12.4). -/
def causeWord (t : TrapIn) (pad : Bool) : Word :=
  BitVec.ofNat 32 (t.code % 256 + 256 * b2n t.irq + 512 * b2n t.imprecise + 1024 * b2n pad + 65536 * (t.info % 65536))

/-- The bytes of a word in memory order. -/
def wordBytes (w : Word) : List Byte := leBytes 4 w.toNat

/-- The 32-byte trap frame (Table 12.4). -/
def frameBytes (k : Core) (t : TrapIn) (pad : Bool) : List Byte :=
  ([k.gpr.getD 0 0, k.gpr.getD 1 0, k.gpr.getD 2 0, k.gpr.getD 3 0, k.gpr.getD 15 0, t.retPc, k.psr,
    causeWord t pad].map wordBytes).flatten

/-- A core locks up: the frame could not be stored (R279). Cantoris enters FAULT with what could not be framed, and Rhoco stops
its office. -/
def State.lockUp (s : State) (c : CoreId) (t : TrapIn) (pad : Bool) : State :=
  let u := s.setCore c { s.core c with lockup := true }
  match c with
  | .decani => u
  | .cantoris =>
    (u.sets [(fCANTSTAT_STATE, 7), (fCANTFAULT_CAUSE, (causeWord t pad).toNat), (fCANTFAULTPC_PC, t.retPc.toNat)]).officeFault

/-- Store a trap frame: buffered memory takes it through the store buffer, already checked; MRAM directly once the
buffer is empty. False when the guard or the bus refuses it (R279, R363). -/
def State.storeFrame (s : State) (c : CoreId) (w : World) (a : Nat) (bs : List Byte) : Bool × State :=
  let g := (s.core c).guard w true .w a
  if !g.1 then (false, s.setCore c ((s.core c).refused g.2 true false))
  else
    let parts := lineParts 3 a bs
    let chk := parts.foldl (fun (q : Bool × State) p =>
      let r := q.2.busCheck (.core c) w true p.1 (leNat (p.2.take 4))
      (q.1 && r.1, r.2)) (true, s)
    if !chk.1 then (false, chk.2)
    else
      match (region a).type with
      | .normal | .uncached => (true, chk.2.bufferStore c ⟨w, true, a, true, a, bs⟩)
      | _ => (chk.2.drainAll c).putParts c w (wordParts 9 a bs)

/-- Take a trap (R261): wait for late writes, drain the buffer on a change of world, store the frame at the target
world's supervisor w14, write TRAPADDR and TRAPINST, set the mode, clear LA (R298) and go to the vector (R260). -/
def State.trap (s : State) (c : CoreId) (t : TrapIn) : State :=
  let s := s.setCore c ((s.core c).landAll)
  let s := if (s.core c).world = t.world then s else s.drainAll c
  let k := s.core c
  let i := spIx t.world true
  let sp := (k.sp.getD i 0).toNat
  let pad := bitAt sp 2
  let a := (BitVec.ofNat 32 (sp + 2 ^ 32 - (if pad then 36 else 32)) : Word).toNat
  let r := s.storeFrame c t.world a (frameBytes k t pad)
  if r.1 then
    let k := r.2.core c
    let w := t.world.ix
    let k := { k.setSp i (BitVec.ofNat 32 a) with
      psr := (k.psr &&& 0xFFFFE3FC) ||| (if t.world = .sacristy then 3 else 1)
      pc := k.vbase.getD w 0 + BitVec.ofNat 32 (16 * t.code)
      trapaddr := match t.addr with
        | some v => k.trapaddr.set w v
        | none => k.trapaddr
      trapinst := match t.inst with
        | some v => k.trapinst.set w v
        | none => k.trapinst
      resv := none
      dls := k.ls
      dle := k.le
      dlc := k.lc
      dla := 0
      lpend := []
      waiting := false }
    r.2.setCore c k
  else r.2.lockUp c t pad

/-- Take the NOTICE that waits, in the world of the store (R278, R366). -/
def State.takeNotice (s : State) (c : CoreId) : State :=
  match (s.core c).notice with
  | none => s
  | some (w, a) =>
    (s.setCore c { s.core c with notice := none }).trap c
      ⟨0x09, w, (s.core c).pc, 0, some (BitVec.ofNat 32 a), none, false, true⟩

/-- Take an interrupt source: its latch clears, it becomes active, and the trap is entered in its world (R260, R263,
R266). -/
def State.takeInt (s : State) (c : CoreId) (n : Nat) : State :=
  let k := s.core c
  let w := s.worldOf c n
  let latch := if k.latch.testBit n then k.latch - 2 ^ n else k.latch
  (s.setCore c { k with latch := latch, active := n :: k.active }).trap c
    ⟨0x20 + n, w, k.pc, 0, none, none, true, false⟩

/-- Whether loop-back state survives a trap: LA of the frame's PSR governs again (R298). -/
def psrLA (p : Word) : Nat := fldOf p ⟨0, 10, 3⟩

end Sys2Proof.Machine
end

