-- ==== Sys2Proof/Machine/Priv.lean ====
section
/-! DEFINITION. Core-private space (R326): the registers of a core's interrupt controller (Table 12.9), of its access
guard (Tables 16.7 and 16.8), and the read-only mirror of the loop and feature registers; and Decani's view of Cantoris's
guard (R374). -/

namespace Sys2Proof.Machine

open Sys2Proof

/-- FEAT0 to FEAT3 (R302). -/
def featWord (c : CoreId) (n : Nat) : Word :=
  match n with
  | 0 => if c = .decani then 0x003F0002 else 0x003F0102
  | 1 => 0x00001EF8
  | 2 => 0x00001523
  | 3 => 0x10430233
  | _ => 0

/-- The 32 sources a controller word covers, as a mask of those that satisfy a predicate. -/
def srcMask (f : Nat → Bool) (k : Nat) : Word := BitVec.ofNat 32 (intWord f k)

/-- The sources whose bits a write to a controller word would set or change, from Nave only those of Nave (R266): the
mask the write acts on, and the state with the refusal logged. A change is a difference from `cur`; `cur` is 0 where a 1
acts. -/
def State.srcWrite (s : State) (c : CoreId) (w : World) (k : Nat) (cur v : Word) (a : Nat) : Word × State :=
  let sac := srcMask (fun n => s.worldOf c n = .sacristy) k
  if w = .nave then
    (~~~sac, if (v ^^^ cur) &&& sac = 0 then s else s.violate 5 0 a v.toNat)
  else (BitVec.allOnes 32, s)

/-- Set or clear a source's software latch, which the controller of the core it is routed to sees (R263): either core
rings a SOFT source, whichever core it is routed to (Table 12.6, Log 15). -/
def State.latchBit (s : State) (n : Nat) (b : Bool) : State :=
  let k := s.core (s.routeOf n)
  s.setCore (s.routeOf n) { k with latch := bitTo k.latch n b }

/-- The sources of one word that `m` names, each with its latch set or cleared. -/
def State.latchWord (s : State) (k : Nat) (m : Word) (b : Bool) : State :=
  (List.range 32).foldl (fun t i => if m.getLsbD i then t.latchBit (32 * k + i) b else t) s

/-- INTSET (R263): the software latches of the sources written 1. -/
def State.intSet (s : State) (c : CoreId) (w : World) (k : Nat) (v : Word) : State :=
  let r := s.srcWrite c w k 0 v (rINTSET k)
  ((r.2.latchWord k (v &&& r.1) true).wakeOnInt .decani).wakeOnInt .cantoris

/-- INTCLR (R263). -/
def State.intClr (s : State) (c : CoreId) (w : World) (k : Nat) (v : Word) : State :=
  let r := s.srcWrite c w k 0 v (rINTCLR k)
  r.2.latchWord k (v &&& r.1) false

/-- A word of core-private storage with the bits of a mask replaced. -/
def Core.privBits (k : Core) (a : Nat) (m v : Word) : Core :=
  { k with priv := rput k.priv a ((rget k.priv a &&& ~~~m) ||| (v &&& m)) }

/-- INTEN (R263, R266). -/
def State.intEn (s : State) (c : CoreId) (w : World) (k : Nat) (v : Word) : State :=
  let a := rINTEN k
  let r := s.srcWrite c w k (rget (s.core c).priv a) v a
  (r.2.setCore c ((r.2.core c).privBits a r.1 v)).wakeOnInt c

/-- The bits of an INTPRI word that belong to Sacristy sources. -/
def State.priSac (s : State) (c : CoreId) (k : Nat) : Word :=
  BitVec.ofNat 32 (((List.range 8).map (fun j =>
    if s.worldOf c (8 * k + j) = .sacristy then 15 * 16 ^ j else 0)).sum)

/-- INTPRI (R263, R266, R281). -/
def State.intPri (s : State) (c : CoreId) (w : World) (k : Nat) (v : Word) : State :=
  let a := rINTPRI k
  let m := if w = .nave then s.priSac c k else 0
  let t := if (v ^^^ rget (s.core c).priv a) &&& m = 0 then s else s.violate 5 0 a v.toNat
  t.setCore c ((t.core c).privBits a (~~~m) v)

/-- A source's route written (R263, R270, R278): fixed routes ignore it; a change waits while the source is active or
pending at its old core. -/
def State.routeBit (s : State) (n : Nat) (toCant : Bool) : State :=
  if n = 8 ∨ n = 9 ∨ n = 64 ∨ n = 65 ∨ n = 66 then s
  else
    let old := s.routeOf n
    let rest := s.dec.heldRoute.filter (fun p => p.1 != n)
    if (old = .cantoris) = (toCant = true) then { s with dec := { s.dec with heldRoute := rest } }
    else if (s.core old).active.contains n || s.intPending old n then
      { s with dec := { s.dec with heldRoute := rest ++ [(n, toCant)] } }
    else
      { s with
        dec := { (s.dec.setPfld (fINTROUTE_ROUTE (n / 32))
          (bitTo (s.dec.pfld (fINTROUTE_ROUTE (n / 32))) (n % 32) toCant)) with heldRoute := rest } }

/-- INTROUTE of Decani's view; Cantoris's view ignores writes (Table 12.9). -/
def State.intRoute (s : State) (c : CoreId) (k : Nat) (v : Word) : State :=
  match c with
  | .cantoris => s
  | .decani => (List.range 32).foldl (fun t i => t.routeBit (32 * k + i) (v.getLsbD i)) s

/-- INTWORLD (R266, R270): SRW; the bits of sources 8 and 9 are fixed. -/
def State.intWorld (s : State) (c : CoreId) (w : World) (k : Nat) (v : Word) : State :=
  let a := rINTWORLD k
  let cur := rget (s.core c).priv a
  if w = .nave then (if v = cur then s else s.violate 1 0 a v.toNat)
  else s.setCore c ((s.core c).privBits a (if k = 0 then 0xFFFFFCFF else 0xFFFFFFFF) v)

/-- A write to a core's guard page (R367, R373) by the world given. -/
def State.guardWrite (s : State) (c : CoreId) (w : World) (a : Nat) (v : Word) : State :=
  let o := a - 0xE0001000
  match specOf a with
  | none => s
  | some r =>
    if c = .cantoris ∧ 0x100 ≤ o ∧ o < 0x200 then s
    else
      let cur := rget (s.core c).priv a
      let srw := BitVec.ofNat 32 r.srw
      let bad := w = .nave && (v ^^^ cur) &&& srw != 0
      let t := if bad then s.violate 1 0 a v.toNat else s
      let m := BitVec.ofNat 32 r.rw ||| (if w = .sacristy then srw else 0)
      let k := (t.core c).privBits a m v
      let clr := v &&& BitVec.ofNat 32 r.w1c
      t.setCore c (k.privBits a clr 0)

/-- Decani's write to Cantoris's guard page through block 7 (R374): the buffered stores of Cantoris drain first, under the
old settings (R367). -/
def State.cantGuardWrite (s : State) (w : World) (o : Nat) (v : Word) : State :=
  (s.drainAll .cantoris).guardWrite .cantoris w (0xE0001000 + o) v

/-- A core-private register as a supervisor access in a world reads it (R4, R266, R281, R326): the value and whether the
access completes without a bus error. -/
def State.privRead (s : State) (c : CoreId) (w : World) (a : Nat) : Word :=
  let k := s.core c
  let o := a - 0xE0000000
  if o < 0x10 then srcMask (s.intPending c) (o / 4)
  else if 0x20 ≤ o ∧ o < 0x30 then
    srcMask (fun n => (s.core (s.routeOf n)).latch.testBit n) ((o - 0x20) / 4)
  else if 0x30 ≤ o ∧ o < 0x40 then 0
  else if 0x40 ≤ o ∧ o < 0x50 then srcMask (fun n => k.active.contains n) ((o - 0x40) / 4)
  else if o = 0x104 then
    BitVec.ofNat 32 (k.runGroup + 256 * k.active.length +
      65536 * (match k.active with
        | [] => 0
        | n :: _ => 0x20 + n))
  else if 0x110 ≤ o ∧ o < 0x120 ∧ c = .cantoris then 0
  else if 0x120 ≤ o ∧ o < 0x130 ∧ w = .nave then 0
  else if 0x1000 ≤ o ∧ o < 0x2000 then
    if c = .cantoris ∧ 0x1100 ≤ o ∧ o < 0x1200 then 0
    else
      match specOf a with
      | none => 0
      | some r => if w = .nave then rget k.priv a &&& ~~~(BitVec.ofNat 32 r.srw) else rget k.priv a
  else if 0x2000 ≤ o then
    let i := (o - 0x2000) / 4
    if i < 3 then k.ls.getD i 0
    else if i < 6 then k.le.getD (i - 3) 0
    else if i < 9 then k.lc.getD (i - 6) 0
    else if 12 ≤ i ∧ i < 16 then featWord c (i - 12)
    else 0
  else
    match specOf a with
    | none => 0
    | some _ => rget k.priv a

/-- A write to a core-private register by a supervisor access in a world (R326, R373, R374). -/
def State.privWrite (s : State) (c : CoreId) (w : World) (a : Nat) (v : Word) : State :=
  let o := a - 0xE0000000
  if 0x10 ≤ o ∧ o < 0x20 then s.intEn c w ((o - 0x10) / 4) v
  else if 0x20 ≤ o ∧ o < 0x30 then s.intSet c w ((o - 0x20) / 4) v
  else if 0x30 ≤ o ∧ o < 0x40 then s.intClr c w ((o - 0x30) / 4) v
  else if 0x80 ≤ o ∧ o < 0x100 then s.intPri c w ((o - 0x80) / 4) v
  else if o = 0x100 then s.setCore c ((s.core c).privBits a 7 v)
  else if 0x110 ≤ o ∧ o < 0x120 then s.intRoute c ((o - 0x110) / 4) v
  else if 0x120 ≤ o ∧ o < 0x130 then s.intWorld c w ((o - 0x120) / 4) v
  else if 0x1000 ≤ o ∧ o < 0x2000 ∧ c = .decani then s.guardWrite c w a v
  else s

/-- INTSET (R263): writing a 1 sets a source's software latch; the latch set in the cycle the source is taken stays set
(R5, R278). -/
def execIntset (c : CoreId) (w : World) (k : Nat) (v : Word) (s : State) : Host.Outcome State Fault Refusal :=
  .next (if k < 4 then s.intSet c w k v else s)

/-- INTCLR (R263): writing a 1 clears a source's software latch. -/
def execIntclr (c : CoreId) (w : World) (k : Nat) (v : Word) (s : State) : Host.Outcome State Fault Refusal :=
  .next (if k < 4 then s.intClr c w k v else s)

/-- INTROUTE_APPLY (R278): a held INTROUTE change acts once its source is neither active nor pending at the old core. -/
def execIntrouteApply (n : Nat) (s : State) : Host.Outcome State Fault Refusal :=
  .next (match s.dec.heldRoute.find? (fun p => p.1 = n) with
    | some p => s.routeBit n p.2
    | none => s)

/-- What a GBITS_WRITE changes: INTCTL, or an INTPRI word (R278). The running group is computed from the active stack
wherever it is used, so it follows at once. -/
def execGbitsWrite (c : CoreId) (w : World) (pri : Option Nat) (v : Word) (s : State) :
    Host.Outcome State Fault Refusal :=
  .next (match pri with
    | none => s.privWrite c w rINTCTL v
    | some k => if k < 32 then s.intPri c w k v else s)

/-- GUARD_WRITE (R367): a write to a guard register drains every earlier buffered store under the old settings; Decani
also reaches Cantoris's page, through block 7 (R374). -/
def execGuardWrite (c : CoreId) (w : World) (cantPage : Bool) (o : Nat) (v : Word) (s : State) :
    Host.Outcome State Fault Refusal :=
  .next (if 0x20C ≤ o then s
    else
      let t := s.drainAll c
      match c, cantPage with
      | .decani, true => t.cantGuardWrite w o v
      | .decani, false => t.guardWrite .decani w (0xE0001000 + o) v
      | .cantoris, _ => t)

end Sys2Proof.Machine
end

