-- ==== Sys2Proof/Machine/Isa.lean ====
section
/-! DEFINITION. How one Vudun instruction runs: the boundary before it (R278), its fetch (R282, R325, R363), its retirement
with the hardware loops (R294 to R298), and the cycles it takes (R285, R287). -/

namespace Sys2Proof.Machine

open Sys2Proof

/-! ### Instruction words (R283, Table 13.1) -/

/-- A 32-bit instruction word: bit 31, MAJOR in [30:26] and the fields below. -/
def insWord (major low : Nat) : Word := BitVec.ofNat 32 (2 ^ 31 + major * 2 ^ 26 + low)

/-- Format RR. -/
def wordRR (major : Nat) (wd ws wt : Reg) (func sh : Nat) : Word :=
  insWord major (wd.val * 2 ^ 22 + ws.val * 2 ^ 18 + wt.val * 2 ^ 14 + func * 2 ^ 6 + sh * 2)

/-- Formats RI and RS: [25:22], [21:18] and an 18-bit immediate. -/
def wordRI (major : Nat) (wd ws : Reg) (imm : BitVec 18) : Word :=
  insWord major (wd.val * 2 ^ 22 + ws.val * 2 ^ 18 + imm.toNat)

/-- Format RY. -/
def wordRY (wd ws : Reg) (func imm : Nat) : Word :=
  insWord 0x1F (wd.val * 2 ^ 22 + ws.val * 2 ^ 18 + func * 2 ^ 14 + imm * 2 ^ 6)

/-- Format RL. -/
def wordRL (n : Nat) (imm : Bool) (ws : Reg) (end9 cnt8 : Nat) : Word :=
  insWord 0x1B (n * 2 ^ 24 + b2n imm * 2 ^ 23 + ws.val * 2 ^ 18 + end9 * 2 ^ 9 + cnt8 * 2)

/-- A compact halfword (R284): the group and the fields a, b, c. -/
def wordC (g a b c : Nat) : Word := BitVec.ofNat 32 (g * 2 ^ 12 + a * 2 ^ 8 + b * 2 ^ 4 + c)

/-! ### What an instruction comes to -/

/-- How an instruction ends: it retires and goes on in sequence; it is a taken branch or jump; it is a LOOP with count 0,
which goes on at its LE unless an enclosing loop-back takes place (R294, R296); the debugger halts it before it acts (`stay`, R393); it raises a precise trap in the current
world, with INFO, TRAPADDR and TRAPINST, and does not retire; or it retires into a trap of its own (SVC, BREAK, WCALL). -/
inductive After where
  | seq
  | jump (t : Word)
  | skip (t : Word)
  | stay
  | trap (code info : Nat) (addr inst : Option Word)
  | call (code : Nat) (w : World) (info : Nat) (inst : Word)
  deriving DecidableEq, Repr

/-- EMULATE, the trap of a reserved encoding (R303). -/
def emulate (w : Word) : After := .trap 0x01 0 none (some w)

/-- PRIV, the trap of a privilege violation (R257, R258). -/
def privTrap (w : Word) : After := .trap 0x02 0 none (some w)

/-! ### Hardware loops -/

/-- The level's loop-back values as they govern now, and the level's change that waits, gone (R294, LOOP and LCLR). -/
def Core.setLoop (k : Core) (n : Nat) (ls le lc : Word) (on : Bool) : Core :=
  { k with
    ls := k.ls.set n ls, le := k.le.set n le, lc := k.lc.set n lc
    dls := k.dls.set n ls, dle := k.dle.set n le, dlc := k.dlc.set n lc
    dla := bitTo k.dla n on
    psr := BitVec.ofNat 32 (bitTo k.psr.toNat (10 + n) on)
    lpend := k.lpend.filter (fun p => p.lvl != n) }

/-- A write by MTS that governs loop-back from the third instruction on (R297, R304). -/
def Core.pendLoop (k : Core) (kind n v : Nat) : Core :=
  { k with lpend := k.lpend.filter (fun p => !(p.kind = kind && p.lvl = n)) ++ [⟨kind, n, v, 3⟩] }

/-- A waiting loop write takes over. -/
def Core.applyPend (k : Core) (p : LoopPend) : Core :=
  match p.kind with
  | 0 => { k with dls := k.dls.set p.lvl (BitVec.ofNat 32 p.val) }
  | 1 => { k with dle := k.dle.set p.lvl (BitVec.ofNat 32 p.val) }
  | 2 => { k with dlc := k.dlc.set p.lvl (BitVec.ofNat 32 p.val) }
  | _ => { k with dla := bitTo k.dla p.lvl (p.val = 1) }

/-- One instruction has passed: the loop writes whose third instruction this is take over. -/
def Core.tickLoops (k : Core) : Core :=
  let l := k.lpend.map (fun p => { p with wait := p.wait - 1 })
  (l.filter (fun p => p.wait = 0)).foldl Core.applyPend { k with lpend := l.filter (fun p => p.wait != 0) }

/-- Whether a write of a kind waits for a level: it is what the register holds, so the loop-back leaves the register
alone. -/
def Core.pends (k : Core) (kind n : Nat) : Bool := k.lpend.any (fun p => p.kind = kind && p.lvl = n)

/-- Set the count that governs a level, and LC with it unless a write to LC waits. -/
def Core.countTo (k : Core) (n : Nat) (v : Word) : Core :=
  { k with dlc := k.dlc.set n v, lc := if k.pends 2 n then k.lc else k.lc.set n v }

/-- A level ends: LC is 0 and LA clears (R295). -/
def Core.endLoop (k : Core) (n : Nat) : Core :=
  let k := k.countTo n 0
  { k with
    dla := bitTo k.dla n false
    psr := if k.pends 3 n then k.psr else BitVec.ofNat 32 (bitTo k.psr.toNat (10 + n) false) }

/-- The loop-back check of one retirement over the levels of a list, lowest first (R295): the next PC when some level
shares the address, and whether any did. -/
def Core.loopLevels : List Nat → Core → Word → Core × Word × Bool
  | [], k, seq => (k, seq, false)
  | n :: ns, k, seq =>
    if k.dla.testBit n && k.dle.getD n 0 = seq then
      if 1 < (k.dlc.getD n 0).toNat then (k.countTo n (k.dlc.getD n 0 - 1), k.dls.getD n 0, true)
      else
        let r := Core.loopLevels ns (k.endLoop n) seq
        (r.1, r.2.1, true)
    else Core.loopLevels ns k seq

/-- The loop-back check at the sequential address (R295). -/
def Core.loopBack (k : Core) (seq : Word) : Core × Word × Bool := Core.loopLevels [0, 1, 2] k seq

/-! ### The boundary, the fetch and the retirement -/

/-- Length of an issued instruction in bytes (R282). -/
def issueLen (i : Issue) : Word := if i.compact then 2 else 4

/-- Fill one instruction-cache line by ReadOnce (R351): false is a bus error. The cache keeps the lines fetched since they
were invalidated (R300); which of them a full cache replaces is open (Log 16). -/
def State.fetchLine (s : State) (c : CoreId) (base : Nat) : Bool × State :=
  if ((s.core c).ic.any (fun p => p.1 = base)) then (true, s)
  else
    let chk := s.busCheck (.core c) (s.core c).world false base 0
    if !chk.1 then (false, chk.2)
    else
      let r := match s.dirtyElsewhere none base with
        | some x => (true, x.data, chk.2)
        | none => chk.2.homeRead base 32
      if r.1 then
        let k := r.2.2.core c
        (true, r.2.2.setCore c { k with ic := ((base, r.2.1) :: k.ic).take 256 })
      else (false, r.2.2)

/-- The fetch of an instruction at the PC: IALIGN, IGUARD and IBUS in that order (R278, R282, R325, R363). The instruction
itself is the command; the bytes fetched are not looked at (Log 17). -/
def State.fetch (s : State) (c : CoreId) (i : Issue) : Option (Nat × Word) × State :=
  let k := s.core c
  let a := k.pc.toNat
  if k.pc.getLsbD 0 then (some (0x03, k.pc), s)
  else
    let g := k.guard k.world k.sup .x a
    if !g.1 then (some (0x04, k.pc), s.setCore c (k.refused g.2 false false))
    else
      match region a with
      | .rom | .mram | .sram | .ssram =>
        let last := (k.pc + (issueLen i) - 1).toNat
        let r := s.fetchLine c (lineOf a)
        if !r.1 then (some (0x05, k.pc), r.2)
        else if lineOf last = lineOf a then (none, r.2)
        else
          let q := r.2.fetchLine c (lineOf last)
          (if q.1 then none else some (0x05, k.pc), q.2)
      | _ => (some (0x05, k.pc), s)

/-- Retire an instruction: waiting loop writes count it, and the loop-back is applied unless it was a taken branch or jump
(R295, R297). The state with its PC at the next instruction. -/
def State.retire (s : State) (c : CoreId) (i : Issue) (old : Word) (target : Option Word) (skip : Bool) : State :=
  let k := (s.core c).tickLoops
  let seq := old + (issueLen i)
  match target, skip with
  | some t, false => s.setCore c { k with pc := t }
  | some t, true =>
    let r := k.loopBack seq
    s.setCore c { r.1 with pc := if r.2.2 then r.2.1 else t }
  | none, _ =>
    let r := k.loopBack seq
    s.setCore c { r.1 with pc := r.2.1 }

/-- An instruction ends (R261, R285, R298). -/
def State.finish (s : State) (c : CoreId) (i : Issue) (old : Word) (a : After) : State :=
  match a with
  | .seq => s.retire c i old none false
  | .jump t => s.retire c i old (some t) false
  | .skip t => s.retire c i old (some t) true
  | .stay => s
  | .trap code info addr inst => s.trap c ⟨code, (s.core c).world, old, info, addr, inst, false, false⟩
  | .call code w info inst =>
    let t := s.retire c i old none false
    t.trap c ⟨code, w, (t.core c).pc, info, none, some inst, false, false⟩

/-- The boundary before an instruction: it issues after its stall, and what has landed by then is seen (R287). -/
def State.atIssue (s : State) (c : CoreId) (i : Issue) : State :=
  let k := s.core c
  s.setCore c { k with cyc := k.cyc + i.stall }.landDue

/-- Whether a core's load waits on the host window or takes its answer next: it is not abandoned (R299). -/
def State.winHeld (s : State) (c : CoreId) : Bool :=
  s.hl.winAsk.any (fun p => p.1 = c) || s.hl.winAns.any (fun p => p.1 = c)

/-- Run one instruction on its core. At its boundary a NOTICE comes first, then an interrupt able to pre-empt, then the
instruction's own fetch and action (R265, R278); only the first is taken. A core that does not run issues nothing. -/
def State.instr (s : State) (i : Issue) (cycles : Core → Nat) (body : State → State × After) : State :=
  let c := i.core
  if !s.running c then s
  else
    let t := (s.setCore c { s.core c with dbgStep := false }).atIssue c i
    if (t.core c).notice.isSome && !s.winHeld c then t.takeNotice c
    else
      match if s.winHeld c then none else t.nextInt c with
      | some n => t.takeInt c n
      | none =>
        let f := t.fetch c i
        let old := (t.core c).pc
        match f.1 with
        | some (code, a) => f.2.trap c ⟨code, (f.2.core c).world, old, 0, some a, none, false, false⟩
        | none =>
          let r := body f.2
          let k := r.1.core c
          (r.1.setCore c { k with cyc := k.cyc + cycles (f.2.core c) }).finish c i old r.2

/-- Run an instruction that touches only its own core. -/
def State.instrCore (s : State) (i : Issue) (cycles : Core → Nat) (body : Core → Core × After) : State :=
  s.instr i cycles (fun t =>
    let r := body (t.core i.core)
    (t.setCore i.core r.1, r.2))

/-- Run an instruction whose whole effect is a new value of one general register. -/
def State.instrReg (s : State) (i : Issue) (wd : Reg) (v : Core → Word) : State :=
  s.instrCore i (fun _ => 1) (fun k => (k.setW wd (v k), .seq))

/-- Set SAT when a saturation happened (R293). -/
def Core.sat (k : Core) (b : Bool) : Core := if b then { k with psr := k.psr ||| 0x100 } else k

/-- Set AOV when an accumulator wrapped (R290). -/
def Core.aov (k : Core) (b : Bool) : Core := if b then { k with psr := k.psr ||| 0x200 } else k

/-- INTERRUPT_ENTRY (R265, R299): at an instruction boundary of a core that runs or waits, a NOTICE that waits is taken
first, else the source the controller chooses (R264, R278). An instruction abandoned for it has no effect; a line fill it
had already requested (`fill`) completes into the data cache. -/
def execInterruptEntry (c : CoreId) (fill : Option Nat) (s : State) : Host.Outcome State Fault Refusal :=
  let s := s.wakeOnInt c
  let t := match fill with
    | some a =>
      if (region a).type = MemType.normal ∨ (region a).type = MemType.mram then
        (if (findLine (s.lines (cacheOf c)) (lineOf a)).isNone ∧ (s.busCheck (.core c) (s.core c).world false a 0).1
         then (s.readShared (cacheOf c) (lineOf a)).2 else s)
      else s
    | none => s
  .next (if !s.running c || s.winHeld c then s
    else if (s.core c).notice.isSome then t.takeNotice c
    else
      match t.nextInt c with
      | some n => t.takeInt c n
      | none => s)

end Sys2Proof.Machine
end

