-- ==== Sys2Proof/Machine/Alu.lean ====
section
/-! DEFINITION. The ALU and immediate instructions (Table 13.4), the multiply, accumulate and divide instructions (Table
13.5, R287 to R291). -/

namespace Sys2Proof.Machine

open Sys2Proof

/-! ### Word functions -/

/-- Leading zeros of a word. -/
def clz (w : Word) : Nat := ((List.range 32).find? (fun i => w.getLsbD (31 - i))).getD 32

/-- A word with its bytes reversed. -/
def revBytes (w : Word) : Word := BitVec.ofNat 32 (leNat (leBytes 4 w.toNat).reverse)

/-- A signed value clamped to 32 bits, and whether it was. -/
def sat32 (i : Int) : Word × Bool :=
  let c := clampInt (-(2 ^ 31 : Nat)) ((2 ^ 31 : Nat) - 1) i
  (BitVec.ofInt 32 c, decide (c ≠ i))

/-- |ws| (Table 13.4): the most negative word saturates. -/
def absWord (w : Word) : Word × Bool := sat32 w.toInt.natAbs

/-- Sign extension of an 18-bit immediate. -/
def imm18 (v : BitVec 18) : Word := v.signExtend 32

/-- 1 or 0 in a register. -/
def boolWord (b : Bool) : Word := if b then 1 else 0

/-- Divide (R291): never traps; the divisor 0 and the most negative dividend over −1 have the results of the table. -/
def divS (a b : Word) : Word :=
  if b = 0 then 0xFFFFFFFF else BitVec.ofInt 32 (Int.tdiv a.toInt b.toInt)

/-- Unsigned divide (R291). -/
def divU (a b : Word) : Word := if b = 0 then 0xFFFFFFFF else BitVec.ofNat 32 (a.toNat / b.toNat)

/-- Signed remainder (R291): it has the sign of the dividend. -/
def remS (a b : Word) : Word := if b = 0 then a else BitVec.ofInt 32 (Int.tmod a.toInt b.toInt)

/-- Unsigned remainder (R291). -/
def remU (a b : Word) : Word := if b = 0 then a else BitVec.ofNat 32 (a.toNat % b.toNat)

/-! ### ALU and immediate instructions -/

/-- ADD (Table 13.4). -/
def execAdd (i : Issue) (wd ws wt : Reg) (s : State) : Host.Outcome State Fault Refusal :=
  .next (s.instrReg i wd (fun k => k.w ws + k.w wt))

/-- SUB (Table 13.4). -/
def execSub (i : Issue) (wd ws wt : Reg) (s : State) : Host.Outcome State Fault Refusal :=
  .next (s.instrReg i wd (fun k => k.w ws - k.w wt))

/-- AND (Table 13.4). -/
def execAnd (i : Issue) (wd ws wt : Reg) (s : State) : Host.Outcome State Fault Refusal :=
  .next (s.instrReg i wd (fun k => k.w ws &&& k.w wt))

/-- OR (Table 13.4). -/
def execOr (i : Issue) (wd ws wt : Reg) (s : State) : Host.Outcome State Fault Refusal :=
  .next (s.instrReg i wd (fun k => k.w ws ||| k.w wt))

/-- XOR (Table 13.4). -/
def execXor (i : Issue) (wd ws wt : Reg) (s : State) : Host.Outcome State Fault Refusal :=
  .next (s.instrReg i wd (fun k => k.w ws ^^^ k.w wt))

/-- SLL (Table 13.4): by wt[4:0]. -/
def execSll (i : Issue) (wd ws wt : Reg) (s : State) : Host.Outcome State Fault Refusal :=
  .next (s.instrReg i wd (fun k => k.w ws <<< ((k.w wt).toNat % 32)))

/-- SRL (Table 13.4): logical, by wt[4:0]. -/
def execSrl (i : Issue) (wd ws wt : Reg) (s : State) : Host.Outcome State Fault Refusal :=
  .next (s.instrReg i wd (fun k => k.w ws >>> ((k.w wt).toNat % 32)))

/-- SRA (Table 13.4): arithmetic, by wt[4:0]. -/
def execSra (i : Issue) (wd ws wt : Reg) (s : State) : Host.Outcome State Fault Refusal :=
  .next (s.instrReg i wd (fun k => (k.w ws).sshiftRight ((k.w wt).toNat % 32)))

/-- SLLI (Table 13.4). -/
def execSlli (i : Issue) (wd ws : Reg) (sh : Fin 32) (s : State) : Host.Outcome State Fault Refusal :=
  .next (s.instrReg i wd (fun k => k.w ws <<< sh.val))

/-- SRLI (Table 13.4). -/
def execSrli (i : Issue) (wd ws : Reg) (sh : Fin 32) (s : State) : Host.Outcome State Fault Refusal :=
  .next (s.instrReg i wd (fun k => k.w ws >>> sh.val))

/-- SRAI (Table 13.4). -/
def execSrai (i : Issue) (wd ws : Reg) (sh : Fin 32) (s : State) : Host.Outcome State Fault Refusal :=
  .next (s.instrReg i wd (fun k => (k.w ws).sshiftRight sh.val))

/-- RORI (Table 13.4). -/
def execRori (i : Issue) (wd ws : Reg) (sh : Fin 32) (s : State) : Host.Outcome State Fault Refusal :=
  .next (s.instrReg i wd (fun k => (k.w ws).rotateRight sh.val))

/-- CMPLT (Table 13.4): signed. -/
def execCmplt (i : Issue) (wd ws wt : Reg) (s : State) : Host.Outcome State Fault Refusal :=
  .next (s.instrReg i wd (fun k => boolWord ((k.w ws).slt (k.w wt))))

/-- CMPLTU (Table 13.4): unsigned. -/
def execCmpltu (i : Issue) (wd ws wt : Reg) (s : State) : Host.Outcome State Fault Refusal :=
  .next (s.instrReg i wd (fun k => boolWord ((k.w ws).ult (k.w wt))))

/-- MIN (Table 13.4): signed. -/
def execMin (i : Issue) (wd ws wt : Reg) (s : State) : Host.Outcome State Fault Refusal :=
  .next (s.instrReg i wd (fun k => if (k.w ws).slt (k.w wt) then k.w ws else k.w wt))

/-- MAX (Table 13.4): signed. -/
def execMax (i : Issue) (wd ws wt : Reg) (s : State) : Host.Outcome State Fault Refusal :=
  .next (s.instrReg i wd (fun k => if (k.w ws).slt (k.w wt) then k.w wt else k.w ws))

/-- MINU (Table 13.4): unsigned. -/
def execMinu (i : Issue) (wd ws wt : Reg) (s : State) : Host.Outcome State Fault Refusal :=
  .next (s.instrReg i wd (fun k => if (k.w ws).ult (k.w wt) then k.w ws else k.w wt))

/-- MAXU (Table 13.4): unsigned. -/
def execMaxu (i : Issue) (wd ws wt : Reg) (s : State) : Host.Outcome State Fault Refusal :=
  .next (s.instrReg i wd (fun k => if (k.w ws).ult (k.w wt) then k.w wt else k.w ws))

/-- ABS (Table 13.4, R293): a saturation sets SAT. -/
def execAbs (i : Issue) (wd ws : Reg) (s : State) : Host.Outcome State Fault Refusal :=
  .next (s.instrCore i (fun _ => 1) (fun k =>
    let r := absWord (k.w ws)
    ((k.setW wd r.1).sat r.2, .seq)))

/-- CLZ (Table 13.4). -/
def execClz (i : Issue) (wd ws : Reg) (s : State) : Host.Outcome State Fault Refusal :=
  .next (s.instrReg i wd (fun k => BitVec.ofNat 32 (clz (k.w ws))))

/-- REV (Table 13.4). -/
def execRev (i : Issue) (wd ws : Reg) (s : State) : Host.Outcome State Fault Refusal :=
  .next (s.instrReg i wd (fun k => revBytes (k.w ws)))

/-- ADDS (Table 13.4, R293): signed saturating add. -/
def execAdds (i : Issue) (wd ws wt : Reg) (s : State) : Host.Outcome State Fault Refusal :=
  .next (s.instrCore i (fun _ => 1) (fun k =>
    let r := sat32 ((k.w ws).toInt + (k.w wt).toInt)
    ((k.setW wd r.1).sat r.2, .seq)))

/-- SUBS (Table 13.4, R293): signed saturating subtract. -/
def execSubs (i : Issue) (wd ws wt : Reg) (s : State) : Host.Outcome State Fault Refusal :=
  .next (s.instrCore i (fun _ => 1) (fun k =>
    let r := sat32 ((k.w ws).toInt - (k.w wt).toInt)
    ((k.setW wd r.1).sat r.2, .seq)))

/-- ADDI (Table 13.4). -/
def execAddi (i : Issue) (wd ws : Reg) (imm : BitVec 18) (s : State) : Host.Outcome State Fault Refusal :=
  .next (s.instrReg i wd (fun k => k.w ws + imm18 imm))

/-- ANDI (Table 13.4). -/
def execAndi (i : Issue) (wd ws : Reg) (imm : BitVec 18) (s : State) : Host.Outcome State Fault Refusal :=
  .next (s.instrReg i wd (fun k => k.w ws &&& imm18 imm))

/-- ORI (Table 13.4). -/
def execOri (i : Issue) (wd ws : Reg) (imm : BitVec 18) (s : State) : Host.Outcome State Fault Refusal :=
  .next (s.instrReg i wd (fun k => k.w ws ||| imm18 imm))

/-- XORI (Table 13.4). -/
def execXori (i : Issue) (wd ws : Reg) (imm : BitVec 18) (s : State) : Host.Outcome State Fault Refusal :=
  .next (s.instrReg i wd (fun k => k.w ws ^^^ imm18 imm))

/-- CMPLTI (Table 13.4): signed. -/
def execCmplti (i : Issue) (wd ws : Reg) (imm : BitVec 18) (s : State) : Host.Outcome State Fault Refusal :=
  .next (s.instrReg i wd (fun k => boolWord ((k.w ws).slt (imm18 imm))))

/-- CMPLTIU (Table 13.4): unsigned. -/
def execCmpltiu (i : Issue) (wd ws : Reg) (imm : BitVec 18) (s : State) : Host.Outcome State Fault Refusal :=
  .next (s.instrReg i wd (fun k => boolWord ((k.w ws).ult (imm18 imm))))

/-- LDHI (Table 13.4): imm21 shifted left by 11. -/
def execLdhi (i : Issue) (wd : Reg) (imm : BitVec 21) (s : State) : Host.Outcome State Fault Refusal :=
  .next (s.instrReg i wd (fun _ => (imm.setWidth 32) <<< 11))

/-- LDI (Table 13.4). -/
def execLdi (i : Issue) (wd : Reg) (imm : BitVec 21) (s : State) : Host.Outcome State Fault Refusal :=
  .next (s.instrReg i wd (fun _ => imm.signExtend 32))

/-- LAPC (Table 13.4): PC plus imm21 shifted left by 11. -/
def execLapc (i : Issue) (wd : Reg) (imm : BitVec 21) (s : State) : Host.Outcome State Fault Refusal :=
  .next (s.instrReg i wd (fun k => k.pc + ((imm.setWidth 32) <<< 11)))

/-! ### Multiply and accumulate -/

/-- The 64-bit product on its way to MHI:MLO, landing 3 cycles after issue (R287). -/
def Core.mulLand (k : Core) (p : Nat) : Core :=
  (k.pushLand ⟨.mlo, p % 2 ^ 32, k.cyc + 3⟩).pushLand ⟨.mhi, p / 2 ^ 32 % 2 ^ 32, k.cyc + 3⟩

/-- MUL (R287): signed. -/
def execMul (i : Issue) (ws wt : Reg) (s : State) : Host.Outcome State Fault Refusal :=
  .next (s.instrCore i (fun _ => 1) (fun k =>
    (k.mulLand (wrapInt 64 ((k.w ws).toInt * (k.w wt).toInt)), .seq)))

/-- MULU (R287): unsigned. -/
def execMulu (i : Issue) (ws wt : Reg) (s : State) : Host.Outcome State Fault Refusal :=
  .next (s.instrCore i (fun _ => 1) (fun k => (k.mulLand ((k.w ws).toNat * (k.w wt).toNat), .seq)))

/-- The register of accumulator `n`. -/
def accReg (n : Fin 2) : LateReg := if n = 0 then .acc0 else .acc1

/-- The value of an accumulator that has landed. -/
def Core.accLanded (k : Core) (n : Fin 2) : Nat := if n = 0 then k.acc0 else k.acc1

/-- The value an accumulate operates on: the result of the latest write issued to it (R288). -/
def Core.accChain (k : Core) (n : Fin 2) : Nat :=
  match (k.land.filter (fun l => l.reg = accReg n)).getLast? with
  | some l => l.val
  | none => k.accLanded n

/-- Put a value on its way to an accumulator. -/
def Core.accLand (k : Core) (n : Fin 2) (v : Nat) (latency : Nat) : Core :=
  k.pushLand ⟨accReg n, v % 2 ^ 48, k.cyc + latency⟩

/-- Accumulate (R288, R290): 48 bits, wrapping and then setting AOV. -/
def Core.accumulate (k : Core) (n : Fin 2) (x : Int) : Core :=
  let r := signed 48 (k.accChain n) + x
  (k.accLand n (wrapInt 48 r) 2).aov (decide (r ≠ signed 48 (wrapInt 48 r)))

/-- The product of the low halves of two registers. -/
def mulLow (a b : Word) : Int := signed 16 a.toNat * signed 16 b.toNat

/-- The product of the high halves of two registers. -/
def mulHigh (a b : Word) : Int := signed 16 (a.toNat / 65536) * signed 16 (b.toNat / 65536)

/-- MACS (R288, R290). -/
def execMacs (i : Issue) (n : Fin 2) (ws wt : Reg) (s : State) : Host.Outcome State Fault Refusal :=
  .next (s.instrCore i (fun _ => 1) (fun k => (k.accumulate n (mulLow (k.w ws) (k.w wt)), .seq)))

/-- MACD (R288, R290). -/
def execMacd (i : Issue) (n : Fin 2) (ws wt : Reg) (s : State) : Host.Outcome State Fault Refusal :=
  .next (s.instrCore i (fun _ => 1) (fun k =>
    (k.accumulate n (mulLow (k.w ws) (k.w wt) + mulHigh (k.w ws) (k.w wt)), .seq)))

/-- MSUBS (R288, R290). -/
def execMsubs (i : Issue) (n : Fin 2) (ws wt : Reg) (s : State) : Host.Outcome State Fault Refusal :=
  .next (s.instrCore i (fun _ => 1) (fun k => (k.accumulate n (-mulLow (k.w ws) (k.w wt)), .seq)))

/-- MSUBD (R288, R290). -/
def execMsubd (i : Issue) (n : Fin 2) (ws wt : Reg) (s : State) : Host.Outcome State Fault Refusal :=
  .next (s.instrCore i (fun _ => 1) (fun k =>
    (k.accumulate n (-(mulLow (k.w ws) (k.w wt) + mulHigh (k.w ws) (k.w wt))), .seq)))

/-- ACCCLR (Table 13.5). -/
def execAccclr (i : Issue) (n : Fin 2) (s : State) : Host.Outcome State Fault Refusal :=
  .next (s.instrCore i (fun _ => 1) (fun k => (k.accLand n 0 2, .seq)))

/-- WRACC (Table 13.5). -/
def execWracc (i : Issue) (n : Fin 2) (ws : Reg) (s : State) : Host.Outcome State Fault Refusal :=
  .next (s.instrCore i (fun _ => 1) (fun k => (k.accLand n (wrapInt 48 (k.w ws).toInt) 2, .seq)))

/-- ACCn rounded, shifted and saturated (Table 13.5). -/
def rdaccValue (acc : Nat) (sh : Nat) : Word × Bool :=
  let r : Int := if sh = 0 then 0 else 2 ^ (sh - 1)
  sat32 ((signed 48 acc + r) / 2 ^ sh)

/-- RDACC (R287): it reads what has landed. -/
def execRdacc (i : Issue) (wd : Reg) (n : Fin 2) (sh : Fin 32) (s : State) : Host.Outcome State Fault Refusal :=
  .next (s.instrCore i (fun _ => 1) (fun k =>
    let r := rdaccValue (k.accLanded n) sh.val
    ((k.setW wd r.1).sat r.2, .seq)))

/-! ### Divide -/

/-- Run a divide: 16 cycles (Table 13.5). -/
def State.instrDiv (s : State) (i : Issue) (wd : Reg) (v : Core → Word) : State :=
  s.instrCore i (fun _ => 16) (fun k => (k.setW wd (v k), .seq))

/-- DIVS (R291). -/
def execDivs (i : Issue) (wd ws wt : Reg) (s : State) : Host.Outcome State Fault Refusal :=
  .next (s.instrDiv i wd (fun k => divS (k.w ws) (k.w wt)))

/-- DIVU (R291). -/
def execDivu (i : Issue) (wd ws wt : Reg) (s : State) : Host.Outcome State Fault Refusal :=
  .next (s.instrDiv i wd (fun k => divU (k.w ws) (k.w wt)))

/-- REMS (R291). -/
def execRems (i : Issue) (wd ws wt : Reg) (s : State) : Host.Outcome State Fault Refusal :=
  .next (s.instrDiv i wd (fun k => remS (k.w ws) (k.w wt)))

/-- REMU (R291). -/
def execRemu (i : Issue) (wd ws wt : Reg) (s : State) : Host.Outcome State Fault Refusal :=
  .next (s.instrDiv i wd (fun k => remU (k.w ws) (k.w wt)))

end Sys2Proof.Machine
end

