-- ==== Sys2Proof/Machine/Crypto.lean ====
section
/-! DEFINITION. The algorithms of the Sacristy's engines (R387): SHA-256, AES-256 with GCM and GMAC, and ECDSA on
P-256, over bytes and numbers. -/

namespace Sys2Proof.Machine

open Sys2Proof

/-! ### SHA-256 -/

/-- The 64 round constants of SHA-256. -/
def shaK : List Word :=
  [0x428a2f98, 0x71374491, 0xb5c0fbcf, 0xe9b5dba5, 0x3956c25b, 0x59f111f1, 0x923f82a4, 0xab1c5ed5,
   0xd807aa98, 0x12835b01, 0x243185be, 0x550c7dc3, 0x72be5d74, 0x80deb1fe, 0x9bdc06a7, 0xc19bf174,
   0xe49b69c1, 0xefbe4786, 0x0fc19dc6, 0x240ca1cc, 0x2de92c6f, 0x4a7484aa, 0x5cb0a9dc, 0x76f988da,
   0x983e5152, 0xa831c66d, 0xb00327c8, 0xbf597fc7, 0xc6e00bf3, 0xd5a79147, 0x06ca6351, 0x14292967] ++
  [0x27b70a85, 0x2e1b2138, 0x4d2c6dfc, 0x53380d13, 0x650a7354, 0x766a0abb, 0x81c2c92e, 0x92722c85,
   0xa2bfe8a1, 0xa81a664b, 0xc24b8b70, 0xc76c51a3, 0xd192e819, 0xd6990624, 0xf40e3585, 0x106aa070,
   0x19a4c116, 0x1e376c08, 0x2748774c, 0x34b0bcb5, 0x391c0cb3, 0x4ed8aa4a, 0x5b9cca4f, 0x682e6ff3,
   0x748f82ee, 0x78a5636f, 0x84c87814, 0x8cc70208, 0x90befffa, 0xa4506ceb, 0xbef9a3f7, 0xc67178f2]

/-- The eight initial hash words of SHA-256. -/
def shaH0 : List Word :=
  [0x6a09e667, 0xbb67ae85, 0x3c6ef372, 0xa54ff53a, 0x510e527f, 0x9b05688c, 0x1f83d9ab, 0x5be0cd19]

/-- One more word of the message schedule, newest first. -/
def shaExtend (w : List Word) : List Word :=
  let a := w.getD 14 0
  let b := w.getD 1 0
  let s0 := a.rotateRight 7 ^^^ a.rotateRight 18 ^^^ (a >>> 3)
  let s1 := b.rotateRight 17 ^^^ b.rotateRight 19 ^^^ (b >>> 10)
  (w.getD 15 0 + s0 + w.getD 6 0 + s1) :: w

/-- The 64 words of the schedule of one block of 16 words. -/
def shaSchedule (block : List Word) : List Word :=
  ((List.range 48).foldl (fun w _ => shaExtend w) block.reverse).reverse

/-- One round: the working words, then the constant and the schedule word. -/
def shaRound (v : List Word) (kw : Word × Word) : List Word :=
  let a := v.getD 0 0
  let b := v.getD 1 0
  let c := v.getD 2 0
  let e := v.getD 4 0
  let s1 := e.rotateRight 6 ^^^ e.rotateRight 11 ^^^ e.rotateRight 25
  let ch := (e &&& v.getD 5 0) ^^^ (~~~e &&& v.getD 6 0)
  let t1 := v.getD 7 0 + s1 + ch + kw.1 + kw.2
  let s0 := a.rotateRight 2 ^^^ a.rotateRight 13 ^^^ a.rotateRight 22
  let maj := (a &&& b) ^^^ (a &&& c) ^^^ (b &&& c)
  [t1 + (s0 + maj), a, b, c, v.getD 3 0 + t1, e, v.getD 5 0, v.getD 6 0]

/-- The hash words after one block. -/
def shaBlock (h block : List Word) : List Word :=
  List.zipWith (· + ·) h ((shaK.zip (shaSchedule block)).foldl shaRound h)

/-- Pad a message to whole blocks of 64 bytes. -/
def shaPad (m : List Byte) : List Byte :=
  m ++ [0x80] ++ List.replicate ((119 - m.length % 64) % 64) 0 ++ beBytes 8 (8 * m.length)

/-- The big-endian words of a byte list. -/
def beWords : Nat → List Byte → List Word
  | 0, _ => []
  | n + 1, bs => BitVec.ofNat 32 (beNat (bs.take 4)) :: beWords n (bs.drop 4)

/-- The blocks of a padded message, hashed in order. -/
def shaBlocks : Nat → List Word → List Byte → List Word
  | 0, h, _ => h
  | n + 1, h, bs => shaBlocks n (shaBlock h (beWords 16 bs)) (bs.drop 64)

/-- SHA-256 of a byte list: 32 bytes. -/
def sha256 (m : List Byte) : List Byte :=
  let p := shaPad m
  ((shaBlocks (p.length / 64) shaH0 p).map (fun w => beBytes 4 w.toNat)).flatten

/-! ### AES-256 -/

/-- Multiply by x in the field of AES. -/
def xtime (b : Byte) : Byte := (b <<< 1) ^^^ (if b.getLsbD 7 then 0x1B else 0)

/-- Multiply in the field of AES. -/
def gmul8 (a b : Byte) : Byte :=
  ((List.range 8).foldl (fun (p : Byte × Byte) i => (if b.getLsbD i then p.1 ^^^ p.2 else p.1, xtime p.2)) (0, a)).1

/-- Square in the field of AES. -/
def gsq8 (a : Byte) : Byte := gmul8 a a

/-- The inverse in the field of AES, with 0 for 0: the 254th power. -/
def ginv8 (a : Byte) : Byte :=
  let a2 := gsq8 a
  let a3 := gmul8 a2 a
  let a12 := gsq8 (gsq8 a3)
  let a15 := gmul8 a12 a3
  let a240 := gsq8 (gsq8 (gsq8 (gsq8 a15)))
  gmul8 (gmul8 a240 a12) a2

/-- The S-box of AES. -/
def sbox (b : Byte) : Byte :=
  let i := ginv8 b
  i ^^^ i.rotateLeft 1 ^^^ i.rotateLeft 2 ^^^ i.rotateLeft 3 ^^^ i.rotateLeft 4 ^^^ 0x63

/-- Exclusive or of two byte lists. -/
def xorBytes (a b : List Byte) : List Byte := List.zipWith (· ^^^ ·) a b

/-- The next word of the AES-256 key schedule: `i` its index, `ws` the words so far, newest first. -/
def keyNext (ws : List (List Byte)) (i : Nat) : List (List Byte) :=
  let t := ws.getD 0 []
  let u :=
    if i % 8 = 0 then
      xorBytes ((t.rotateLeft 1).map sbox) [(List.range (i / 8 - 1)).foldl (fun b _ => xtime b) 1, 0, 0, 0]
    else if i % 8 = 4 then t.map sbox
    else t
  xorBytes (ws.getD 7 []) u :: ws

/-- Cut a byte list into pieces of `k`. -/
def chunksOf (k : Nat) : Nat → List Byte → List (List Byte)
  | 0, _ => []
  | n + 1, bs => bs.take k :: chunksOf k n (bs.drop k)

/-- The 15 round keys of AES-256. -/
def roundKeys (key : List Byte) : List (List Byte) :=
  let ws := ((List.range 52).foldl (fun w i => keyNext w (i + 8)) (chunksOf 4 8 key).reverse).reverse
  chunksOf 16 15 ws.flatten

/-- ShiftRows on a column-major state. -/
def shiftRows (s : List Byte) : List Byte := (List.range 16).map (fun i => s.getD ((i + 4 * (i % 4)) % 16) 0)

/-- MixColumns on a column-major state. -/
def mixColumns (s : List Byte) : List Byte :=
  (List.range 16).map (fun i =>
    let c := 4 * (i / 4)
    let g := fun k => s.getD (c + (i + k) % 4) 0
    gmul8 2 (g 0) ^^^ gmul8 3 (g 1) ^^^ g 2 ^^^ g 3)

/-- AES-256 of one block. -/
def aes256 (key block : List Byte) : List Byte :=
  match roundKeys key with
  | [] => block
  | k0 :: ks =>
    let mid := (ks.take 13).foldl (fun s k => xorBytes (mixColumns (shiftRows (s.map sbox))) k) (xorBytes block k0)
    xorBytes (shiftRows (mid.map sbox)) (ks.getD 13 [])

/-! ### GCM -/

/-- Multiply in the field of GHASH: 128-bit blocks as numbers, bit 0 of the standard at the top. -/
def gmul128 (x y : Nat) : Nat :=
  ((List.range 128).foldl (fun (p : Nat × Nat) i =>
    (if x.testBit (127 - i) then p.1 ^^^ p.2 else p.1,
     if p.2.testBit 0 then (p.2 >>> 1) ^^^ (0xE1 <<< 120) else p.2 >>> 1)) (0, y)).1

/-- Pad to whole blocks of 16 bytes with zeros. -/
def pad16 (bs : List Byte) : List Byte := bs ++ List.replicate ((16 - bs.length % 16) % 16) 0

/-- GHASH of whole blocks under a hash key. -/
def ghash (h : Nat) (bs : List Byte) : Nat :=
  (chunksOf 16 (bs.length / 16) bs).foldl (fun y b => gmul128 (y ^^^ beNat b) h) 0

/-- The tag of GCM (16 bytes) over additional data and ciphertext, with a 12-byte nonce. -/
def gcmTag (key nonce aad ct : List Byte) : List Byte :=
  let h := beNat (aes256 key (List.replicate 16 0))
  let s := ghash h (pad16 aad ++ pad16 ct ++ beBytes 8 (8 * aad.length) ++ beBytes 8 (8 * ct.length))
  xorBytes (aes256 key (nonce ++ [0, 0, 0, 1])) (beBytes 16 s)

/-- GCM's counter-mode encryption, which is also its decryption. -/
def gcmCrypt (key nonce pt : List Byte) : List Byte :=
  let n := (pt.length + 15) / 16
  xorBytes pt (((List.range n).map (fun i => aes256 key (nonce ++ beBytes 4 (i + 2)))).flatten)

/-- GMAC: the tag of GCM over additional data alone. -/
def gmac (key nonce data : List Byte) : List Byte := gcmTag key nonce data []

/-! ### ECDSA on P-256 -/

/-- The prime, the order, the coefficient b and the base point of P-256. -/
def ecP : Nat := 0xffffffff00000001000000000000000000000000ffffffffffffffffffffffff
def ecN : Nat := 0xffffffff00000000ffffffffffffffffbce6faada7179e84f3b9cac2fc632551
def ecB : Nat := 0x5ac635d8aa3a93e7b3ebbd55769886bc651d06b0cc53b0f63bce3c3e27d2604b
def ecGx : Nat := 0x6b17d1f2e12c4247f8bce6e563a440f277037d812deb33a0f4a13945d898c296
def ecGy : Nat := 0x4fe342e2fe1a7f9b8ee7eb4a7c0f9e162bce33576b315ececbb6406837bf51f5

/-- A power modulo `m`, over the low `n` bits of the exponent. -/
def powMod (m b e : Nat) : Nat → Nat
  | 0 => 1 % m
  | n + 1 =>
    let r := powMod m b (e / 2) n
    if e % 2 = 1 then r * r % m * b % m else r * r % m

/-- The inverse modulo a 256-bit prime. -/
def invMod (m a : Nat) : Nat := powMod m (a % m) (m - 2) 256

/-- Subtraction modulo `m`. -/
def subMod (m a b : Nat) : Nat := (a + m - b % m) % m

/-- A point of the curve; `none` is the point at infinity. -/
abbrev EcPoint := Option (Nat × Nat)

/-- Add two points. -/
def ecAdd : EcPoint → EcPoint → EcPoint
  | none, q => q
  | p, none => p
  | some (x1, y1), some (x2, y2) =>
    if x1 = x2 ∧ (y1 + y2) % ecP = 0 then none
    else
      let l := if x1 = x2 then (3 * x1 * x1 + ecP - 3) % ecP * invMod ecP (2 * y1) % ecP
        else subMod ecP y2 y1 * invMod ecP (subMod ecP x2 x1) % ecP
      let x3 := subMod ecP (l * l) (x1 + x2)
      some (x3, subMod ecP (l * subMod ecP x1 x3) y1)

/-- `k` times a point, over the low `n` bits of `k`. -/
def ecMul (k : Nat) (p : EcPoint) : Nat → EcPoint
  | 0 => none
  | n + 1 =>
    let h := ecMul (k / 2) p n
    let d := ecAdd h h
    if k % 2 = 1 then ecAdd d p else d

/-- Whether a pair of coordinates is a point of P-256. -/
def ecOnCurve (x y : Nat) : Bool :=
  decide (x < ecP) && decide (y < ecP) && y * y % ecP = (x * x * x + ecB + (ecP - 3) * x) % ecP

/-- ECDSA verification: the 32-byte digest, the key (X and Y, 64 bytes big-endian), the signature (R and S). -/
def ecdsaVerify (digest key sig : List Byte) : Bool :=
  let x := beNat (key.take 32)
  let y := beNat (key.drop 32)
  let r := beNat (sig.take 32)
  let s := beNat (sig.drop 32)
  if decide (sig.length = 64) && decide (key.length = 64) && decide (0 < r) && decide (r < ecN) && decide (0 < s) &&
      decide (s < ecN) && ecOnCurve x y then
    let w := invMod ecN s
    match ecAdd (ecMul (beNat digest * w % ecN) (some (ecGx, ecGy)) 256) (ecMul (r * w % ecN) (some (x, y)) 256) with
    | some (px, _) => px % ecN = r
    | none => false
  else false

/-- ECDSA signing with private key `d` and per-signature number `k`. -/
def ecdsaSign (d k : Nat) (digest : List Byte) : List Byte :=
  match ecMul k (some (ecGx, ecGy)) 256 with
  | some (px, _) =>
    let r := px % ecN
    beBytes 32 r ++ beBytes 32 (invMod ecN k * (beNat digest + r * d) % ecN)
  | none => List.replicate 64 0

/-- The public key of a private key: X and Y. -/
def ecPublic (d : Nat) : List Byte :=
  match ecMul (d % ecN) (some (ecGx, ecGy)) 256 with
  | some (x, y) => beBytes 32 x ++ beBytes 32 y
  | none => List.replicate 64 0

end Sys2Proof.Machine
end

