-- ==== Sys2Proof/Machine/Seal.lean ====
section
/-! DEFINITION. The sealed metrology record (R386, R389 to R391): keys from ROOT, the append of an entry, and claim
changes. -/

namespace Sys2Proof.Machine

open Sys2Proof

/-- A bus write word by word, as Rhoco's own code on Decani writes MRAM and memory. -/
def State.wordsWrite : Nat → State → Nat → List Byte → State
  | 0, s, _, _ => s
  | n + 1, s, a, bs =>
    if bs.isEmpty then s
    else
      let k := 4 - a % 4
      State.wordsWrite n (s.writeUnique (some .dec) 0 a (bs.take k)) (a + k) (bs.drop k)

/-- Rhoco writes bytes to memory. -/
def State.rhocoWrite (s : State) (a : Nat) (bs : List Byte) : State := s.wordsWrite (bs.length + 1) a bs

/-- The value of EPOCH in the OTP (Table 17.3). -/
def State.otpEpoch (s : State) : Nat := popBytes (s.mem.otpBytes 0x304 12)

/-- The seal key K_SEAL (R386). -/
def State.kSeal (s : State) : List Byte :=
  sha256 (s.mem.otpBytes 0x340 32 ++ [0x53, 0x45, 0x41, 0x4C] ++ leBytes 1 s.otpEpoch)

/-- The device signing key d_DEV (R386). -/
def State.dDev (s : State) : Nat :=
  let d := beNat (sha256 (s.mem.otpBytes 0x340 32 ++ [0x44, 0x45, 0x56])) % ecN
  if d = 0 then 1 else d

/-- The address of the seal entry with a SEQ (R389). -/
def sealSlot (seq : Nat) : Nat := 0x10012000 + 64 * (seq % 896)

/-- The GMAC nonce of an entry (Table 17.6). -/
def sealNonce (seq : Nat) : List Byte := leBytes 4 seq ++ List.replicate 8 0

/-- The 64 bytes of a seal entry (Table 17.6). -/
def State.sealEntry (s : State) (seq ch kind : Nat) (rd : List Byte) : List Byte :=
  let body := leBytes 4 seq ++ s.timeBytes ++ leBytes 1 ch ++ leBytes 1 kind ++ padTo 36 rd
  body ++ gmac s.kSeal (sealNonce seq) (body ++ padTo 16 s.sac.lastTag)

/-- Write one entry and then the other header copy (R390), whose layout the spec does not give (Log 5). SEAL_NEAR_FULL is posted when 768 entries are not yet
acknowledged (Table 17.10). -/
def State.sealPut (s : State) (ch kind : Nat) (rd : List Byte) : State :=
  let seq := s.sac.seq
  let e := s.sealEntry seq ch kind rd
  let t := s.rhocoWrite (sealSlot seq) e
  let t := { t with
    mem := t.mem.lose (if t.sac.copyB then 0x10010000 else 0x10010100) 0x100
    sac := { t.sac with
      seq := (seq + 1) % 2 ^ 32, lastTag := e.drop 48, copyB := !t.sac.copyB, valid := true } }
  if (seq + 1 + 2 ^ 32 - s.sac.ack) % 2 ^ 32 = 768 then t.event 0x0100 (leBytes 4 (seq + 1)) else t

/-- Whether the ring holds 896 entries not yet acknowledged (R391). -/
def State.sealFull (s : State) : Bool := decide (896 ≤ (s.sac.seq + 2 ^ 32 - s.sac.ack) % 2 ^ 32)

/-- An append that finds the ring full is counted in MISSED; the first such posts SEAL_MISSED (R391). -/
def State.sealMiss (s : State) : State :=
  let t := { s with sac := { s.sac with missed := s.sac.missed + 1 } }
  if s.sac.missed = 0 then t.event 0x0101 (leBytes 4 s.sac.seq) else t

/-- Append an entry to the sealed record (R389 to R391, R399): in Cell and Loop roles only; while the Sacristy is
held it counts in SACSTAT.MISSED; with SEALDEAD appends have stopped; after missed readings a GAP entry that carries
MISSED comes first. -/
def State.sealAppend (s : State) (ch kind : Nat) (rd : List Byte) : State :=
  if s.role != .cell && s.role != .loop then s
  else if s.on fSACSTAT_HELD then s.count fSACSTAT_MISSED
  else if s.on fSACSTAT_SEALDEAD then s
  else if s.sealFull then s.sealMiss
  else if s.sac.missed = 0 then s.sealPut ch kind rd
  else
    let t := s.sealPut ch 2 (leBytes 4 s.sac.missed)
    let t := { t with sac := { t.sac with missed := 0 } }
    if t.sealFull then t.sealMiss else t.sealPut ch kind rd

end Sys2Proof.Machine
end

