-- ==== Sys2Proof/Machine/CfgRec.lean ====
section
/-! DEFINITION. The MRAM configuration record as Rhoco's operations use it (R128, R132), and Rhoco's logs (R126). -/

namespace Sys2Proof.Machine

open Sys2Proof

/-- The copy in use. -/
def State.cfgCopy (s : State) : CfgCopy := if s.rst.useB then s.rst.copyB else s.rst.copyA

/-- Whether either copy is valid. -/
def State.cfgValid (s : State) : Bool := s.rst.copyA.valid || s.rst.copyB.valid

/-- Rhoco rewrites records of its own whose layout in MRAM the spec does not give: what the range reads as is a new free value
(Log 5). -/
def State.rewrote (s : State) (lo size : Nat) : State := { s with mem := s.mem.lose lo size }

/-- The MRAM range of the copy not in use (Table 15.6). -/
def State.spareCopy (s : State) : Nat := if s.rst.useB then 0x10000000 else 0x10004000

/-- The copy not in use, replaced. -/
def State.putSpare (s : State) (c : CfgCopy) : State :=
  let t := s.rewrote s.spareCopy 0x4000
  { t with rst := if s.rst.useB then { t.rst with copyA := c } else { t.rst with copyB := c } }

/-- The copy not in use. -/
def State.spare (s : State) : CfgCopy := if s.rst.useB then s.rst.copyA else s.rst.copyB

/-- The copy in use one step on: the next sequence number and a body, written to the other copy, which becomes the copy
in use (R128). -/
def State.cfgSwitch (s : State) (body : List (Nat × Byte)) : State :=
  let t := s.putSpare ⟨(s.cfgCopy.seq + 1) % 2 ^ 32, true, body⟩
  { t with rst := { t.rst with useB := !t.rst.useB } }

/-- The number of the marked office slot (the slot + 1) and of a marked patch slot among the record's settings (Log 5). -/
def itemOffice : Nat := 22
def itemPatch : Nat := 23

/-- The office slot marked for the next boot: what the last IMAGE_COMMIT marked, else what the record in use says (R130). -/
def State.markedSlot (s : State) : Option Nat :=
  match s.rst.marked with
  | some k => some k
  | none =>
    if !s.cfgValid then none
    else match Config.recordItem s.cfgCopy.body itemOffice with
      | 0 => none
      | k + 1 => some (k % 8)

/-- One setting written as an update of the record (R128). -/
def State.cfgWriteNow (s : State) (item v : Nat) : State :=
  let was := s.markedSlot
  let t := s.cfgSwitch (Config.recordPut s.cfgCopy.body item v)
  if item = itemOffice then { t with rst := { t.rst with marked := some (v - 1), before := was } } else t

/-- Whether Rhoco's own changes of the record wait: a staging copy is under way, or earlier changes still wait (R132). -/
def State.cfgBusy (s : State) : Bool := s.rst.staging || !s.rst.pendingCfg.isEmpty

/-- Rhoco stores a setting in the record: at once, or, while a staging copy is under way, held until it ends (R132). -/
def State.cfgStore (s : State) (item v : Nat) : State :=
  if s.cfgBusy then { s with rst := { s.rst with pendingCfg := s.rst.pendingCfg ++ [(item, v)] } }
  else s.cfgWriteNow item v

/-- A descriptor that stored settings: while the change waits, so does its completion (R132). -/
def State.cfgDone (s : State) (d : Desc) (status result : Nat) : DescRes :=
  if s.cfgBusy then
    ⟨{ s with rst := { s.rst with waitDesc := s.rst.waitDesc ++ [(d, status, result)] } }, status, result, [], true⟩
  else ⟨s, status, result, [], false⟩

/-- The changes that wait are written in order as fresh updates, and the descriptors that wait for them complete (R132). -/
def State.cfgRelease (s : State) : State :=
  let w := s.rst.waitDesc
  let p := s.rst.pendingCfg
  let t := { s with rst := { s.rst with pendingCfg := [], waitDesc := [] } }
  w.foldl (fun u q => u.complete q.1 q.2.1 q.2.2 []) (p.foldl (fun u q => u.cfgWriteNow q.1 q.2) t)

/-- Append a record to one of Rhoco's logs: the new state and the record's sequence number in that log (R126). -/
def State.logAppend (s : State) (n : Nat) (rec : List Byte) : State × Nat :=
  let t := s.rewrote 0x100C0000 0x40000
  ({ t with rst := { t.rst with logs := (n, rec) :: t.rst.logs } },
    Config.logFirst n + (s.rst.logs.filter (fun p => p.1 = n)).length)

end Sys2Proof.Machine
end

