-- ==== Sys2Proof/Machine/Loop.lean ====
section
/-! DEFINITION. The 4-20 mA loop output (chapter 19): modes, the map, calibration, readback and the descriptors. -/

namespace Sys2Proof.Machine

open Sys2Proof

/-! ### Modes -/

/-- Whether the fixed source is forced (R424 rule 1): R112, R120 or a failed self-test slice. -/
def State.loopForced (s : State) : Bool := s.on fCLKSTAT_FORCED || s.loop.forced120 || s.loop.forcedTest

/-- Whether FAULT holds (R424 rule 3). -/
def State.loopFaulted (s : State) : Bool :=
  s.on fLOOPCTL_FAULT || s.loop.late || s.loop.srcBad || (s.on fLOOPSTAT_MISMATCH && s.on fLOOPCTL_MMFAULT)

/-- LOOPNOW's mode and code (R424). A calibration step holds its own code in NORMAL mode (R431). -/
def State.loopNow (s : State) : Nat × Nat :=
  if s.loopForced then (3, 8960)
  else if !s.on fLOOPCTL_EN then (0, 8960)
  else
    match s.loop.calHold with
    | some c => (1, c)
    | none =>
      if s.loopFaulted then (2, if s.on fLOOPCTL_FDIR then 55040 else 8960)
      else (1, max 9728 (min 52480 (s.fld fLOOPSET_CODE)))

/-- Rhoco logs a loop event and, while a Lectern session is open, sends it too (R432). -/
def State.loopEvent (s : State) (code : Nat) (data : List Byte) : State :=
  let t := (s.logAppend 0 (s.mkRecord code s.srcField data)).1
  if s.node.session then t.event code data else t

/-- Bring LOOPNOW and LOOPSTAT up to date with R424: the clamp flags set in NORMAL mode, FORCED sets its flag, and a
return to NORMAL posts LOOP_RESTORED. `cause` is the LOOPFLAG bit that brought a fault, for LOOP_FAULT. -/
def State.loopSync (s : State) (cause : Option Nat) : State :=
  if s.role != .loop then s
  else
    let was := s.fld fLOOPNOW_MODE
    let n := s.loopNow
    let t := s.sets [(fLOOPNOW_MODE, n.1), (fLOOPNOW_CODE, n.2), (fLOOPSTAT_FORCED, b2n s.loopForced)]
    let c := s.fld fLOOPSET_CODE
    let t := if n.1 = 1 && s.loop.calHold.isNone && decide (c < 9728) then t.raise [fLOOPFLAG_SATLO] else t
    let t := if n.1 = 1 && s.loop.calHold.isNone && decide (52480 < c) then t.raise [fLOOPFLAG_SATHI] else t
    let t := if n.1 = 3 && was != 3 then t.raise [fLOOPFLAG_FORCED] else t
    let cause := if n.1 = 3 && was != 3 then some 5 else cause
    match cause with
    | some b => if (n.1 = 2 || n.1 = 3) && was != n.1 then t.loopEvent 0x0300 (leBytes 1 b ++ leBytes 2 n.2) else t
    | none => if n.1 = 1 && (was = 2 || was = 3) then t.loopEvent 0x0301 (leBytes 2 n.2) else t

/-- A write of a register of block 18 (Table 19.8): EN = 1 ends the forcing of R120 (R434), a LOOPSET write restarts the
update timer (R427). -/
def State.loopWrite (s : State) (a : Nat) (v : Word) : State :=
  let t := s.plainWrite a v
  let t :=
    if a = rLOOPCTL ∧ fldOf v fLOOPCTL_EN = 1 then { t with loop := { t.loop with forced120 := false } }
    else if a = rLOOPSET then { t with loop := { t.loop with late := false } }
    else t
  t.loopSync none

/-! ### The map (R426) -/

/-- A quotient rounded to the nearest integer, a half away from zero. -/
def roundDiv (a b : Int) : Int :=
  let n := if b < 0 then -a else a
  let d := if b < 0 then -b else b
  if 0 ≤ n then (2 * n + d) / (2 * d) else -((2 * (-n) + d) / (2 * d))

/-- A source fault of the map: SRCFLT and FAULT until the next good result (R426). -/
def State.loopSrcFault (s : State) : State :=
  let t := { (s.raise [fLOOPFLAG_SRCFLT]) with loop := { s.loop with srcBad := true } }
  t.loopSync (some 4)

/-- Apply a new result of a mapped source (R426): `bad` is a result that carries SUSP or is invalid. While a calibration
step holds the code the map is suspended (R431). -/
def State.loopMapResult (s : State) (src : Nat) (x : Int) (bad : Bool) : State :=
  if s.role != .loop || s.loop.mapSrc != src || s.loop.calHold.isSome then s
  else if bad then s.loopSrcFault
  else
    let code := (clampInt 0 65535 (10240 + roundDiv (40960 * (x - s.loop.lrv)) (s.loop.urv - s.loop.lrv))).toNat
    let t := { s with loop := { s.loop with srcBad := false } }
    let w := t.vet .nave rLOOPSET (BitVec.ofNat 32 code)
    w.st.loopWrite rLOOPSET w.v

/-- The end of every calibration hold (R431). -/
def State.loopHoldEnd (s : State) : State := { s with loop := { s.loop with calHold := none } }

/-- The signed reading of 4 ARGS bytes. -/
def dsInt32 (d : Desc) (off : Nat) : Int := signed 32 (dsArgs d off 4)

/-! ### Meanings -/

/-- LOOP_SET (R432): write the set point; forced, the write is stored and acts later. -/
def execLoopSet (d : Desc) (s : State) : Host.Outcome State Fault Refusal :=
  .next (s.runDesc d (s.role = .loop) (fun s =>
    let r := s.setup State.loopWrite [(rLOOPSET, dsArgs d 0 2)]
    if r.status = stOK && r.st.fld fLOOPNOW_MODE = 3 then { r with status := 0x50 } else r))

/-- LOOP_MODE (R432): EN, FAULT, FDIR, MMFAULT and LOOPTMO; bits above them and a timeout past its field are invalid. -/
def execLoopMode (d : Desc) (s : State) : Host.Outcome State Fault Refusal :=
  .next (s.runDesc d (s.role = .loop) (fun s =>
    if 16 ≤ dsArg d 0 ∨ 4096 ≤ dsArgs d 2 2 then s.fail stINVALID
    else s.setup State.loopWrite [(rLOOPTMO, dsArgs d 2 2), (rLOOPCTL, dsArg d 0)]))

/-- LOOP_MAP (R426, R431, R432): check and store the map, and end a calibration hold. -/
def execLoopMap (d : Desc) (s : State) : Host.Outcome State Fault Refusal :=
  .next (s.runDesc d (s.role = .loop) (fun s =>
    let src := dsArg d 0
    let lrv := dsInt32 d 4
    let urv := dsInt32 d 8
    if !(decide (src ≤ 6) || src = 8 || src = 0xFF) || (src != 0xFF && lrv = urv) ||
        (decide (src ≤ 6) && s.on (fSFESLOT_AUTO src)) then s.fail stINVALID
    else if s.claimed 18 then s.fail stDENIED
    else
      let t := { s with loop := { s.loop with mapSrc := src, lrv := lrv, urv := urv, srcBad := false } }
      let t := t.loopHoldEnd.loopSync none
      let t := ((t.cfgStore 1 src).cfgStore 2 (dsArgs d 4 4)).cfgStore 3 (dsArgs d 8 4)
      t.cfgDone d stOK 0))

/-- One of the two calibration holds (R431 steps 1 and 2). -/
def State.loopCalStep (s : State) (d : Desc) (code : Nat) : State :=
  s.runDesc d (s.role = .loop) (fun s =>
    let t := ({ s with loop := { s.loop with calHold := some code } }).loopSync none
    if t.fld fLOOPNOW_MODE = 3 then t.fail 0x50 else t.ok)

/-- LOOP_CAL step 0 (R431): hold code 10,240. -/
def execLoopCalLow (d : Desc) (s : State) : Host.Outcome State Fault Refusal := .next (s.loopCalStep d 10240)

/-- LOOP_CAL step 1 (R431): hold code 51,200. -/
def execLoopCalHigh (d : Desc) (s : State) : Host.Outcome State Fault Refusal := .next (s.loopCalStep d 51200)

/-- DACIN of a code under R430, in units of 2^-21 codes and before rounding. -/
def dacIn21 (code gain : Nat) (ofs : Int) : Int :=
  (code : Int) * (2 ^ 21 + (gain : Int) - 32768) + ofs * 2 ^ 21

/-- LOOP_CAL step 2 (R431): gain and offset that make the two codes give 4.000 and 20.000 mA, from the currents
measured in nA, by R430 and R423. The currents measured give the true slope and offset of the current against DACIN;
the new gain factor and offset are rounded to the registers' units. CAL_RANGE beyond ±1.5 % or ±2,048 codes. -/
def State.loopCalc (s : State) (ilo ihi : Int) : Option (Nat × Nat) :=
  if ihi ≤ ilo then none
  else
    let g0 := s.fld fLOOPCALG_GAIN
    let o0 := signed 16 (s.fld fLOOPCALO_OFS)
    -- With factor F = 2^21 + g - 32768 and offset o, DACIN(c) = c·F/2^21 + o, and the current is a·DACIN + b.
    -- The wanted DACIN at a code solves a·DACIN + b = 390.625 nA · code.
    let d1 := dacIn21 10240 g0 o0
    let d2 := dacIn21 51200 g0 o0
    let f := roundDiv ((d2 - d1) * 16000000) ((ihi - ilo) * 40960)
    let want1 := d1 * (ihi - ilo) + (4000000 - ilo) * (d2 - d1)
    let o := roundDiv (want1 - 10240 * f * (ihi - ilo)) ((ihi - ilo) * 2 ^ 21)
    let g := f - 2 ^ 21 + 32768
    if g < 0 ∨ 65535 < g ∨ o < -2048 ∨ 2048 < o ∨ 2 ^ 21 * 15 < (g - 32768).natAbs * 1000 then none
    else some (g.toNat, wrapInt 16 o)

/-- LOOP_CAL step 2 (R431). -/
def execLoopCalCompute (d : Desc) (s : State) : Host.Outcome State Fault Refusal :=
  .next (s.runDesc d (s.role = .loop) (fun s =>
    match s.loopCalc (dsInt32 d 4) (dsInt32 d 8) with
    | none => s.fail 0x51
    | some (g, o) =>
      let r := s.setup State.loopWrite [(rLOOPCALG, g), (rLOOPCALO, o)]
      if r.status != stOK then r
      else
        let t := (r.st.raise [fLOOPFLAG_CALDONE]).loopHoldEnd.loopSync none
        let t := (t.cfgStore 4 g).cfgStore 5 o
        t.cfgDone d (if t.fld fLOOPNOW_MODE = 3 then 0x50 else stOK) 0))

/-- LOOP_CAL_HOLD_EXPIRY (R431): 600 s after the last LOOP_CAL a hold ends. -/
def execLoopCalHoldExpiry (s : State) : Host.Outcome State Fault Refusal :=
  .next (if s.loop.calHold.isSome then s.loopHoldEnd.loopSync none else s)

/-- LOOP_QUERY (R432). -/
def execLoopQuery (d : Desc) (s : State) : Host.Outcome State Fault Refusal :=
  .next (s.runDesc d (s.role = .loop) (fun s => s.query [rLOOPNOW, rLOOPMEAS, rLOOPSTAT, rLOOPFLAG]))

/-- LOOP_UPDATE_TIMEOUT (R427, R426): no LOOPSET write within LOOPTMO; the timer does not run during a calibration
hold or a slice of the loop output (Table 25.2). A mapped source that gave no result in that time is in fault too. -/
def execLoopUpdateTimeout (s : State) : Host.Outcome State Fault Refusal :=
  .next (if s.role != .loop || s.loop.calHold.isSome || s.inSlice 48 49 then s
    else
      let t := { (s.raise [fLOOPFLAG_TMO]) with loop := { s.loop with late := true } }
      let t := t.loopSync (some 2)
      if s.loop.mapSrc = 0xFF then t else t.loopSrcFault)

/-- LOOP_READBACK (R434, Table 19.7): refresh LOOPMEAS and judge it against the set current: 10 consecutive readings
outside make a mismatch, 100 consecutive readings inside end it. During a slice of the loop output it pauses. -/
def execLoopReadback (meas : Nat) (s : State) : Host.Outcome State Fault Refusal :=
  .next (if s.role != .loop || s.inSlice 48 49 then s
    else
      let t := s.setFld fLOOPMEAS_MEAS meas
      let set := t.fld fLOOPNOW_CODE
      let m := t.fld fLOOPMEAS_MEAS
      let good := decide ((if m < set then set - m else m - set) * 100 ≤ set + 12800)
      if good then
        let n := min 100 (t.loop.okRun + 1)
        let t := { t with loop := { t.loop with okRun := n, badRun := 0 } }
        if n = 100 && t.on fLOOPSTAT_MISMATCH then (t.setFld fLOOPSTAT_MISMATCH 0).loopSync none else t
      else
        let n := min 10 (t.loop.badRun + 1)
        let t := { t with loop := { t.loop with badRun := n, okRun := 0 } }
        if n = 10 && !t.on fLOOPSTAT_MISMATCH then
          ((t.setFld fLOOPSTAT_MISMATCH 1).raise [fLOOPFLAG_MISMATCH]).loopSync (some 3)
        else t)

end Sys2Proof.Machine
end

