-- ==== Sys2Proof/Machine/Windows.lean ====
section
/-! DEFINITION. The windows of the sample buffer (R336 to R347) and the event FIFO (R486), which the measuring blocks
write. -/

namespace Sys2Proof.Machine

open Sys2Proof

/-! ### Sample-buffer windows -/

/-- The size of a window in bytes, and the byte offset of its base. -/
def State.winSize (s : State) (n : Nat) : Nat := s.fld (fSBWSIZE_SIZE n) * 32
def State.winBase (s : State) (n : Nat) : Nat := s.fld (fSBWCFG_BASE n) * 32

/-- FILLED of a window from its pointers (R337). -/
def State.winFilled (s : State) (n : Nat) : Nat :=
  (s.fld (fSBWWP_WP n) + 2 * s.winSize n - s.fld (fSBWRP_RP n)) % (2 * s.winSize n)

/-- FREE of a window (R337). -/
def State.winFree (s : State) (n : Nat) : Nat := s.winSize n - s.winFilled n - s.fld (fSBWRES_RESERVED n)

/-- Whether a window is active: enabled, or ending a capture (R343). -/
def State.winActive (s : State) (n : Nat) : Bool := s.on (fSBWCFG_EN n) || s.on (fSBWRES_RESERVED n)

/-- The threshold flag of a window. -/
def fFILL (n : Nat) : Fld := ⟨rSBFLAG, n, 1⟩

/-- The discard flag of a window. -/
def fDROP (n : Nat) : Fld := ⟨rSBFLAG, 3 + n, 1⟩

/-- Bring SBWnFILL and SBFLAG.FILLn up to date with the pointers (Table 15.9). -/
def State.winSync (s : State) (n : Nat) : State :=
  let f := s.winFilled n
  let th := s.fld (fSBWCFG_THRESH n) * 32
  s.sets [(fSBWFILL_FILLED n, f), (fFILL n, b2n (decide (0 < th) && decide (th ≤ f) && s.winActive n))]

/-- Discard `k` words of a window (R143): count them and keep the line time of the first. -/
def State.winDrop (s : State) (n k : Nat) : State :=
  let t := if s.fld (fSBWDROP_DROPPED n) = 0 then
    { s with mem := { s.mem with gapFirst := s.mem.gapFirst.set n (s.now % 2 ^ 16) } } else s
  if k = 0 then s else (t.countBy (fSBWDROP_DROPPED n) k).setFld (fDROP n) 1

/-- Store one word at a window's write pointer with its tag (bit 0 GAP, bit 1 POISON) and advance WP by 4. -/
def State.winStore (s : State) (n w tag : Nat) : State :=
  let wp := s.fld (fSBWWP_WP n)
  let a := 0x21000000 + s.winBase n + wp % s.winSize n
  let m := s.mem.putBytes a (leBytes 4 w)
  let tags := m.tags.filter (fun p => p.1 != a)
  ({ s with mem := { m with tags := if tag = 0 then tags else (a, tag) :: tags } }).setFld (fSBWWP_WP n)
    ((wp + 4) % (2 * s.winSize n))

/-- Store the gap marker a window owes (R143, Table 7.3), with `k` more words counted into it; SBWnDROP clears. -/
def State.winMarker (s : State) (n k : Nat) : State :=
  let d := satAdd 0xFFFF (s.fld (fSBWDROP_DROPPED n)) k
  (s.winStore n (d + (s.mem.gapFirst.getD n 0) * 2 ^ 16) 1).setFld (fSBWDROP_DROPPED n) 0

/-- A continuous writer stores a word under the drop handling of R143 (R337, R343). -/
def State.winPut (s : State) (n w tag : Nat) : State :=
  if !s.on (fSBWCFG_EN n) then s.winDrop n 1
  else if s.winFree n < 4 then s.winDrop n 1
  else if s.fld (fSBWDROP_DROPPED n) = 0 then (s.winStore n w tag).winSync n
  else if s.winFree n < 8 then ((s.winMarker n 1).setFld (fDROP n) 1).winSync n
  else ((s.winMarker n 0).winStore n w tag).winSync n

/-- Store several words in order. -/
def State.winPuts (s : State) (n : Nat) (ws : List Nat) : State := ws.foldl (fun t w => t.winPut n w 0) s

/-- Reserve a capture of `len` bytes (R338): the marker that is owed is stored first; a capture refused for want of
space counts its words as dropped. -/
def State.winReserve (s : State) (n len : Nat) : Bool × State :=
  let owed := s.fld (fSBWDROP_DROPPED n) != 0
  if s.on (fSBWCFG_EN n) && decide (len + (if owed then 4 else 0) ≤ s.winFree n) then
    let t := if owed then s.winMarker n 0 else s
    (true, (t.setFld (fSBWRES_RESERVED n) len).winSync n)
  else (false, s.winDrop n (len / 4))

/-- End a capture: its words are stored, WP advances by them, and RESERVED returns to 0 (R338). -/
def State.winEnd (s : State) (n : Nat) (ws : List Nat) : State :=
  ((ws.foldl (fun t w => t.winStore n w 0) s).setFld (fSBWRES_RESERVED n) 0).winSync n

/-! ### The event FIFO -/

/-- Bring EVFSTAT up to date (R486). -/
def State.evfSync (s : State) : State := s.setFld fEVFSTAT_COUNT s.ring.evf.length

/-- Make an entry of the event FIFO (R486) under drop handling, with DATA of up to six bytes; a drop sets
RGFLAG.EVDROP. -/
def State.evPush (s : State) (src unit code data : Nat) : State :=
  let mk := fun (w1 w2 : Nat) (g : Bool) (x : Nat) =>
    (⟨s.now % 2 ^ 32, s.now / 2 ^ 32 + w1 * 2 ^ 16, w2 % 2 ^ 32, g, x⟩ : Evf)
  let r := dropPush 64 (fun d f => mk 0 (d + f * 2 ^ 16) true 0) s.now s.ring.evf (s.fld fEVFSTAT_DROPPED) s.ring.evFirst
    (mk (src + 16 * unit + 256 * (code % 256)) data false (data / 2 ^ 32))
  let t := { s with ring := { s.ring with evf := r.1, evFirst := r.2.2 } }
  let t := (t.setFld fEVFSTAT_DROPPED r.2.1).evfSync
  if decide (64 ≤ s.ring.evf.length) ||
      (s.fld fEVFSTAT_DROPPED != 0 && s.ring.evf.length = 63) then t.raise [fRGFLAG_EVDROP] else t

end Sys2Proof.Machine
end

