-- ==== Sys2Proof/Machine/Sfe.lean ====
section
/-! DEFINITION. The sensor front end (chapter 18): excitation, starts and the past-time rule, outputs with ranging,
sample and time words, sealing, and the descriptors. -/

namespace Sys2Proof.Machine

open Sys2Proof

/-- Update the front end's own state. -/
def State.sfeSet (s : State) (f : Sfe → Sfe) : State := { s with sfe := f s.sfe }

/-! ### Flags and events (Table 18.13) -/

/-- The SFEFLAG bit with a number. -/
def fSFE (b : Nat) : Fld := ⟨rSFEFLAG, b, 1⟩

/-- OPEN, REFLOW or CQSAT: SFE_SENSOR names the slot and the flag bit. -/
def State.sfeSensor (s : State) (slot b : Nat) : State := s.flagEvent (fSFE b) 0x0200 (leBytes 1 slot ++ leBytes 1 b)

/-- EXCLO, EXCHI, EXCOFF or VEXSBAD: SFE_EXC names the flag bit and the current. -/
def State.sfeExc (s : State) (b : Nat) : State :=
  s.flagEvent (fSFE b) 0x0201 (leBytes 1 b ++ leBytes 2 (s.fld fSFEMON_IEXC))

/-- Starts that do not complete a scan (R413): `cause` is an SFEFLAG bit 7 to 10, or none for a shed. -/
def State.sfeMiss (s : State) (n : Nat) (cause : Option Nat) : State :=
  if n = 0 then s
  else
    let c := match cause with
      | some b => 2 ^ (b - 7)
      | none => 0
    let t := s.sfeSet (fun x => { x with missed := x.missed + n, causes := x.causes ||| c })
    match cause with
    | some b => t.flagEvent (fSFE b) 0x0202 (leBytes 1 b ++ leBytes 4 n)
    | none => t

/-- A past start (R410): SFETH.LATE, SFEFLAG.LATE and SFELATE. -/
def State.sfeLate (s : State) (t : Nat) : State :=
  let d := min (2 ^ 32 - 1) ((s.now + 2 ^ 48 - t) % 2 ^ 48)
  (s.sets [(fSFETH_LATE, 1), (fSFELATE_LATE, d)]).flagEvent (fSFE 8) 0x0203 (leBytes 4 d)

/-! ### Filter restarts and VEX -/

/-- The settled output after a filter restart is the 4th with REJ = 0; with REJ = 1 it is the next (R404, R405). -/
def State.sfeRestart (s : State) : State :=
  s.sfeSet (fun x => { x with unset := if s.on fSFECTL_REJ then 0 else 3, upCount := 0, upMin := 7 })

/-- Drive VEX: a settling interval begins (R403). -/
def State.vexOn (s : State) : State :=
  s.sfeSet (fun x => { x with vex := true, settling := true, relevel := false, loRun := 0, hiRun := 0 })

/-- VEX to AGND: nothing is checked any more. -/
def State.vexOff (s : State) : State :=
  (s.sfeSet (fun x => { x with
    vex := false, settling := false, relevel := false, loRun := 0, hiRun := 0, cond := x.cond &&& 0x20 })).setFld fSFESTAT_EXCON 0

/-! ### Starts (R409, R417, R420) -/

/-- The configuration of a slot as its register holds it. -/
def State.slotCfg (s : State) (n : Nat) : Nat := (s.reg (rSFESLOT n)).toNat

/-- A field of a slot configuration. -/
def cfgFld (c : Nat) (f : Fld) : Nat := bitsOf c f.lo f.w

/-- The range a slot converts at (R406): the one it last used, else GAIN. -/
def State.slotRange (s : State) (n cfg : Nat) : Nat :=
  if cfgFld cfg (fSFESLOT_AUTO 0) = 1 then ((s.sfe.range.getD n none).getD (cfgFld cfg (fSFESLOT_GAIN 0)))
  else cfgFld cfg (fSFESLOT_GAIN 0)

/-- The last slot scanned: NSLOT, where 7 acts as 6. -/
def State.lastSlot (s : State) : Nat := min 6 (s.fld fSFECTL_NSLOT)

/-- Whether the trigger is a write of GO (TRIG = 0 or 3), periodic, or one armed start. A period of 0 acts as TRIG = 2. -/
def State.trigGo (s : State) : Bool := s.fld fSFECTL_TRIG = 0 || s.fld fSFECTL_TRIG = 3
def State.trigPeriodic (s : State) : Bool := s.fld fSFECTL_TRIG = 1 && s.fld fSFEPER_PER != 0

/-- Begin converting: a scan, or CONT. -/
def State.sfeBegin (s : State) : State :=
  let scan := s.on fSFECTL_MODE
  let c := s.slotCfg 0
  let t := (s.sets [(fSFESTAT_RUN, 1), (fSFESTAT_SCANBUSY, b2n scan), (fSFESTAT_HELD, 0)]).sfeRestart
  let t := t.sfeSet (fun x => { x with
    slot := 0, cfg := c, again := false, timeOwed := true, sinceTime := 0, susp := false, held := false })
  t.setFld fSFESTAT_RANGE (t.slotRange 0 c)

/-- A start that acts now (R409, R417, R420): while a scan runs or VEX settles one start is held and a further one is
an overrun; with PULSE a GO first drives VEX; without the Spire it does not act (R102, R419). -/
def State.sfeStart (s : State) : State :=
  if !s.on fSFECTL_EN then s
  else if s.spireRefuses || s.clk.spireHeld then s.spireRefused.sfeMiss 1 (some 10)
  else
    let pulse := s.on fSFEEXC_EN && s.on fSFEEXC_PULSE && !s.sfe.vex
    if s.on fSFESTAT_SCANBUSY || (s.sfe.vex && s.sfe.settling) || pulse then
      if s.sfe.held then s.sfeMiss 1 (some 7)
      else
        let t := s.sfeSet (fun x => { x with held := true })
        if pulse && !s.on fSFESTAT_SCANBUSY then t.vexOn else t
    else s.sfeBegin

/-- The number of due times from `t` on, `per` apart, that are past (R410). -/
def passedStarts (t now per : Nat) : Nat := ((now + 2 ^ 48 - t) % 2 ^ 48 + per - 1) / per

/-- An armed start whose time is past (R410): run it late or drop it, and pass over what else is past. -/
def State.sfePast (s : State) : State :=
  let t0 := s.sfe.due
  let s := s.sfeLate t0
  let run := !s.on fSFECTL_LATEDROP
  if s.trigPeriodic then
    let per := s.fld fSFEPER_PER
    let j := passedStarts t0 s.now per
    let s := s.sfeSet (fun x => { x with due := (t0 + j * per) % 2 ^ 48 })
    let s := s.sfeMiss (if run then j - 1 else j) (some 8)
    if run then s.sfeStart else s
  else
    let s := s.setFld fSFETH_ARM 0
    if run then s.sfeStart else s.sfeMiss 1 (some 8)

/-- Whether a start is armed and can act. -/
def State.sfeArmed (s : State) : Bool := s.on fSFETH_ARM && s.on fSFECTL_EN && !s.trigGo

/-- Test an armed start for a past time, on arming or after a step of line time (R410). -/
def State.sfeRetest (s : State) : State := if s.sfeArmed && past s.sfe.due s.now then s.sfePast else s

/-- Stop converting and abandon any scan: what a stop, a shed and a hold share. -/
def State.sfeHalt (s : State) : State :=
  let t := s.sets [(fSFESTAT_RUN, 0), (fSFESTAT_SCANBUSY, 0)]
  let t := t.sfeSet (fun x => { x with held := false, again := false })
  if t.on fSFEEXC_PULSE then t.vexOff else t

/-! ### Register writes (Table 18.11, R402, R410, R415, R417) -/

/-- A write of SFECTL: MODE, TRIG, NSLOT and REJ do not change while EN = 1 (CFGBUSY); setting EN is a start under R60
and R102; clearing it stops the converter. Leaving TRIG = 1 clears ARM. -/
def State.sfeWriteCtl (s : State) (v : Word) : State :=
  let cur := s.reg rSFECTL
  let en := s.on fSFECTL_EN
  let cfg : Word := 0x1EE
  let busy := en && ((cur ^^^ v) &&& cfg) != 0
  let v := if en then (v &&& ~~~cfg) ||| (cur &&& cfg) else v
  let s := if busy then s.raise [fSFEFLAG_CFGBUSY] else s
  let want := fldOf v fSFECTL_EN
  let t := s.plainWrite rSFECTL v
  let t := if fldOf cur fSFECTL_TRIG = 1 && t.fld fSFECTL_TRIG != 1 then t.setFld fSFETH_ARM 0 else t
  if en then (if want = 0 then t.sfeHalt.retoken else t)
  else if want = 0 then t
  else if s.spireRefuses then (t.setFld fSFECTL_EN 0).spireRefused
  else if (t.setFld fSFECTL_EN 0).tokensRefuse t.needNow then (t.setFld fSFECTL_EN 0).tokenRefused
  else (t.sfeSet (fun x => { x with range := List.replicate 7 none, opens := List.replicate 7 0, held := false })).retoken

/-- A write of SFEEXC: setting EN is a start under R60 (R402); a change of LEVEL while VEX is driven begins a new
settling interval (R417). -/
def State.sfeWriteExc (s : State) (v : Word) : State :=
  let en := s.on fSFEEXC_EN
  let level := s.fld fSFEEXC_LEVEL
  let t := s.plainWrite rSFEEXC v
  let want := t.on fSFEEXC_EN
  if !en && want then
    let off := t.setFld fSFEEXC_EN 0
    if off.tokensRefuse t.needNow then off.tokenRefused
    else (if t.on fSFEEXC_PULSE then t else t.vexOn).retoken
  else if en && !want then t.vexOff.retoken
  else if en && t.fld fSFEEXC_LEVEL != level && t.sfe.vex then
    ((t.vexOn.sfeSet (fun x => { x with relevel := true })).setFld fSFESTAT_EXCON 0).sfeRestart
  else t

/-- A write of a register of block 17. -/
def State.sfeWrite (s : State) (a : Nat) (v : Word) : State :=
  if a = rSFECTL then s.sfeWriteCtl v
  else if a = rSFEEXC then s.sfeWriteExc v
  else if a = rSFERATE then
    if s.on fSFECTL_EN then (if s.reg rSFERATE = v then s else s.raise [fSFEFLAG_CFGBUSY]) else s.plainWrite a v
  else if a = rSFEGO then (if fldOf v fSFEGO_GO = 1 && s.trigGo then s.sfeStart else s)
  else if a = rSFETH then
    let t := s.plainWrite a v
    if t.on fSFETH_ARM then
      let t := (t.setFld fSFETH_LATE 0).sfeSet (fun x => { x with
        due := t.fld fSFETL_TIME + t.fld fSFETH_TIME * 2 ^ 32 })
      t.sfeRetest
    else t
  else if rSFESLOT 0 ≤ a ∧ a ≤ rSFESLOT 6 then
    (s.plainWrite a v).sfeSet (fun x => { x with range := x.range.set ((a - rSFESLOT 0) / 4) none })
  else if a = rSFECQ then
    let rst := s.on fSFECQ_RST
    let t := s.plainWrite a v
    if !rst && t.on fSFECQ_RST then t.sfeRestart else t
  else s.plainWrite a v

/-! ### Outputs (R401, R404 to R408, R413) -/

/-- Full scale: 2^23. -/
def sfeF : Int := 8388608

/-- The range a settled result calls for (R406); none when it calls for no change. -/
def callRange (k : Nat) (code : Int) (ovl : Bool) : Option Nat :=
  let m := code.natAbs
  if ovl then (if k = 0 then none else some 0)
  else if 9 * 8388608 ≤ 10 * m then
    ((List.range k).reverse).find? (fun r => 10 * m < 8 * 8388608 * 2 ^ (k - r))
  else if 10 * m < 4 * 8388608 then
    ((List.range (7 - k)).reverse.map (· + k + 1)).find? (fun r => 10 * m * 2 ^ (r - k) < 8 * 8388608)
  else none

/-- A sample word (Table 18.3). -/
def sfeWord (code : Int) (range ch : Nat) (unset susp : Bool) : Nat :=
  wrapInt 24 code + range * 2 ^ 24 + ch * 2 ^ 27 + b2n unset * 2 ^ 30 + b2n susp * 2 ^ 31

/-- A time word (Table 18.3, R408). -/
def State.sfeTimeWord (s : State) : Nat := s.now % 2 ^ 24 + 7 * 2 ^ 27 + s.fld fLPSTAT_SYNC * 2 ^ 30

/-- Write a word to window 1 while it is enabled (R407); a time word comes before it where R408 asks for one. -/
def State.sfeStore (s : State) (w : Nat) : State :=
  let owed := s.sfe.timeOwed || (!s.on fSFECTL_MODE && decide (4096 ≤ s.sfe.sinceTime)) ||
    (!s.on fSFECTL_MODE && s.fld (fSBWDROP_DROPPED 1) != 0)
  let tw := s.sfeTimeWord
  let t := if owed then
      let u := s.sfeSet (fun x => { x with
        timeOwed := false, sinceTime := 0, scanTime := if s.on fSFECTL_MODE then tw else x.scanTime })
      if u.on (fSBWCFG_EN 1) then u.winPut 1 tw 0 else u
    else s
  let t := t.sfeSet (fun x => { x with sinceTime := x.sinceTime + 1 })
  if t.on (fSBWCFG_EN 1) then t.winPut 1 w 0 else t

/-- The reading field of a completed scan (Table 18.4). -/
def State.sfeReading (s : State) : List Byte :=
  ((List.range 7).map (fun n =>
    if s.on (fSFESLOT_SEAL n) && decide (n ≤ s.lastSlot) then leBytes 4 (s.fld (fSFELAST_WORD n)) else leBytes 4 0)).flatten
  ++ leBytes 4 (s.fld fSFESCANCNT_COUNT) ++ leBytes 4 s.sfe.scanTime

/-- A scan has completed (R405, R413): count it, seal it when its turn comes, and let a held start act. -/
def State.sfeScanDone (s : State) : State :=
  let t := s.sets [(fSFESCANCNT_COUNT, s.fld fSFESCANCNT_COUNT + 1), (fSFESTAT_RUN, 0), (fSFESTAT_SCANBUSY, 0)]
  let t := if t.on fSFEEXC_PULSE then t.vexOff else t
  let d := t.fld fSFECTL_SEALDIV
  let t := if d = 0 || !t.claimed 17 then t
    else
      let n := t.sfe.scans + 1
      if n < d then t.sfeSet (fun x => { x with scans := n })
      else
        let u := t.sfeSet (fun x => { x with scans := 0 })
        let u := if u.sfe.missed = 0 then u
          else (u.sealAppend 17 2 (leBytes 4 u.sfe.missed ++ leBytes 1 u.sfe.causes)).sfeSet
            (fun x => { x with missed := 0, causes := 0 })
        u.sealAppend 17 1 u.sfeReading
  if t.sfe.held then (t.sfeSet (fun x => { x with held := false })).sfeStart else t

/-- Go on to another slot of a scan. -/
def State.sfeSlot (s : State) (n : Nat) : State :=
  (s.sfeRestart).sfeSet (fun x => { x with slot := n, cfg := s.slotCfg n, again := false, susp := false })

/-- The condition bits of Table 18.9 that hold at a conversion: EXCLO, EXCHI and VEXSBAD from the monitor (bits 0 to 2),
REFLOW and CQSAT of this conversion, VDDA low, and a settling interval after a change of level. -/
def State.sfeSusp (s : State) (refLow cqSat : Bool) : Bool :=
  s.sfe.susp || s.sfe.cond != 0 || refLow || cqSat || !s.on fPWRSRC_VDDAOK || (s.sfe.settling && s.sfe.relevel)

/-- SFE_OUTPUT (R401, R405 to R408, R411, R413, R417, R418): one converter output. -/
def execSfeOutput (x : SfeSample) (s : State) : Host.Outcome State Fault Refusal :=
  .next (if !s.on fSFECTL_EN || !s.on fSFESTAT_RUN || s.on fSFESTAT_HELD then s
    else
      let scan := s.on fSFECTL_MODE
      let n := s.sfe.slot
      -- CONT: a slot written since the last output acts now, with a filter restart (R417).
      let s := if !scan && s.sfe.cfg != s.slotCfg 0 then
          (s.sfeSet (fun y => { y with cfg := s.slotCfg 0 })).sfeRestart else s
      let cfg := s.sfe.cfg
      let k := s.slotRange n cfg
      let cq := cfgFld cfg (fSFESLOT_INP 0) = 4
      let cqSat := x.cqSat && cq
      let code := clampInt (-sfeF) (sfeF - 1) (x.raw - signed 24 (s.fld (fSFEOFS_OFS k)))
      let ovl := x.modOver || code = sfeF - 1 || code = -sfeF
      let settled := scan || s.sfe.unset = 0
      let susp := s.sfeSusp x.refLow cqSat
      let s := if x.refLow then s.sfeSensor n 5 else s
      let s := if cqSat then s.sfeSensor n 11 else s
      let cqReset := cqSat && s.on fSFECQ_AUTORST
      -- OPEN: a positive overload at range 0 in two consecutive settled results with a burnout current (Table 18.9).
      let pos := ovl && decide (0 < x.raw) && k = 0 && cfgFld cfg (fSFESLOT_BURN 0) != 0
      let run := if pos then s.sfe.opens.getD n 0 + 1 else 0
      let s := if settled then s.sfeSet (fun y => { y with opens := y.opens.set n (min 2 run) }) else s
      let openNow := settled && decide (2 ≤ run)
      let s := if openNow && run = 2 then s.sfeSensor n 0 else s
      let susp := susp || openNow
      let s := if s.on fPWRSRC_VDDAOK then s else s.raise [fSFEFLAG_VDDA]
      let call := if settled && cfgFld cfg (fSFESLOT_AUTO 0) = 1 && !cqReset then callRange k code ovl else none
      let w := sfeWord code k (if scan then n else 0) (!settled) susp
      if scan then
        if cqReset then s.sfeSlot n
        else if call.isSome && !s.sfe.again then
          let t := (s.sfeRestart).sfeSet (fun y => { y with again := true, range := y.range.set n call, susp := false })
          if n = 0 then t.setFld fSFESTAT_RANGE (call.getD 0) else t
        else
          let t := s.sfeSet (fun y => { y with range := y.range.set n (some k) })
          let t := (t.sfeStore w).setFld (fSFELAST_WORD n) w
          let t := t.loopMapResult n code susp
          if n < t.lastSlot then t.sfeSlot (n + 1) else t.sfeScanDone
      else
        let t := s.sfeStore w
        let t := if settled then (t.setFld (fSFELAST_WORD 0) w).loopMapResult 0 code susp else t
        let t := t.sfeSet (fun y => { y with unset := y.unset - 1, susp := false })
        if cqReset then t.sfeRestart
        else match call with
          | none => t.sfeSet (fun y => { y with upCount := 0, upMin := 7 })
          | some r =>
            if r < k then
              ((t.sfeSet (fun y => { y with range := y.range.set 0 (some r) })).sfeRestart).setFld fSFESTAT_RANGE r
            else
              let c := t.sfe.upCount + 1
              let m := min t.sfe.upMin r
              if c < 8 then t.sfeSet (fun y => { y with upCount := c, upMin := m })
              else
                ((t.sfeSet (fun y => { y with range := y.range.set 0 (some m) })).sfeRestart).setFld fSFESTAT_RANGE m)

/-! ### Events -/

/-- SFEGO (R405, R409): a write of the GO register. -/
def execSfego (w : World) (v : Word) (s : State) : Host.Outcome State Fault Refusal :=
  .next (let r := s.vet w rSFEGO v
    r.st.sfeWrite rSFEGO r.v)

/-- SFE_ARM (R410): a write of SFETH that sets ARM. -/
def execSfeArm (w : World) (v : Word) (s : State) : Host.Outcome State Fault Refusal :=
  .next (let r := s.vet w rSFETH v
    r.st.sfeWrite rSFETH r.v)

/-- SFE_START_DUE (R409, R410): the due time of an armed start has come. -/
def execSfeStartDue (s : State) : Host.Outcome State Fault Refusal :=
  .next (if !s.sfeArmed then s
    else if s.sfe.due = s.now then
      let t := if s.trigPeriodic then
          s.sfeSet (fun x => { x with due := (x.due + s.fld fSFEPER_PER) % 2 ^ 48 })
        else s.setFld fSFETH_ARM 0
      t.sfeStart
    else if past s.sfe.due s.now then s.sfePast
    else s)

/-- EXC_SETTLED (R403, R418, R420): the settling interval ends; `ok` is VEXS within ±1 % by then. -/
def execExcSettled (ok : Bool) (s : State) : Host.Outcome State Fault Refusal :=
  .next (if !s.sfe.vex || !s.sfe.settling then s
    else
      let t := (s.setFld fSFESTAT_EXCON 1).sfeSet (fun x => { x with
        settling := false, relevel := false, cond := if ok then x.cond else x.cond ||| 4 })
      let t := if ok then t else t.sfeExc 4
      let t := match t.sfe.desc with
        | some d => (t.sfeSet (fun x => { x with desc := none })).complete d (if ok then stOK else 0x49) 0 []
        | none => t
      if t.sfe.held && !t.on fSFESTAT_SCANBUSY then (t.sfeSet (fun x => { x with held := false })).sfeStart else t)

/-- EXC_MONITOR (R403, R418): the 1 ms reading of the VEX current (20 µA units) and of VEXS (mV). -/
def execExcMonitor (iexc vexs : Nat) (s : State) : Host.Outcome State Fault Refusal :=
  .next (if !s.sfe.vex then s
    else
      let t := s.sets [(fSFEMON_IEXC, iexc), (fSFEMON_VEXS, vexs)]
      if t.sfe.settling then t
      else
        let i := t.fld fSFEMON_IEXC
        let on := t.fld fSFEEXC_WINHI != 0
        let lo := if on && decide (i < t.fld fSFEEXC_WINLO) then min 8 (t.sfe.loRun + 1) else 0
        let hi := if on && decide (t.fld fSFEEXC_WINHI < i) then min 8 (t.sfe.hiRun + 1) else 0
        let level := if t.on fSFEEXC_LEVEL then 2500 else 1250
        let v := t.fld fSFEMON_VEXS
        let bad := decide (level < (if v < level then level - v else v - level) * 50)
        let was := t.sfe.cond
        let cond := b2n (lo = 8) + 2 * b2n (hi = 8) + 4 * b2n bad
        let t := t.sfeSet (fun x => { x with loRun := lo, hiRun := hi, cond := cond, susp := x.susp || cond != 0 })
        let t := if lo = 8 && !was.testBit 0 then t.sfeExc 1 else t
        let t := if hi = 8 && !was.testBit 1 then t.sfeExc 2 else t
        if bad && !was.testBit 2 then t.sfeExc 4 else t)

/-- EXC_CURRENT_LIMIT (R418): VEX in current limit for 50 µs is turned off. -/
def execExcCurrentLimit (s : State) : Host.Outcome State Fault Refusal :=
  .next (if !s.sfe.vex then s
    else
      let t := ((s.setFld fSFEEXC_EN 0).vexOff.sfeSet (fun x => { x with susp := true })).retoken
      let t := t.sfeExc 3
      match t.sfe.desc with
      | some d => (t.sfeSet (fun x => { x with desc := none })).complete d 0x49 0 []
      | none => t)

/-- EXC_PULSE_ON (R402): with PULSE, VEX is driven 1.000 ms before a scheduled start. -/
def execExcPulseOn (s : State) : Host.Outcome State Fault Refusal :=
  .next (if s.on fSFEEXC_EN && s.on fSFEEXC_PULSE && !s.sfe.vex && s.sfeArmed then s.vexOn else s)

/-- CONVTMO (R419): the filter restarts, a time word is owed, and a scan in progress is abandoned. -/
def execConvtmo (s : State) : Host.Outcome State Fault Refusal :=
  .next (if !s.on fSFESTAT_RUN then s
    else
      let t := s.sfeRestart.sfeSet (fun x => { x with timeOwed := true })
      if t.on fSFESTAT_SCANBUSY then
        let held := t.sfe.held
        let t := t.sfeHalt.sfeMiss 1 (some 9)
        if held then t.sfeStart else t
      else t.flagEvent fSFEFLAG_CONVTMO 0x0202 (leBytes 1 9 ++ leBytes 4 0))

/-! ### Hooks for the Spire and for shedding -/

/-- The modulator domain is held stopped (R109, R419): a scan is abandoned and missed. -/
def State.sfeSpireLost (s : State) : State :=
  if !s.on fSFESTAT_RUN then s
  else
    let t := s.setFld fSFESTAT_HELD 1
    if t.on fSFESTAT_SCANBUSY then
      (t.sets [(fSFESTAT_RUN, 0), (fSFESTAT_SCANBUSY, 0)]).sfeMiss 1 (some 10)
    else t.flagEvent fSFEFLAG_HELD 0x0202 (leBytes 1 10 ++ leBytes 4 0)

/-- PLLLOCK returns: CONT resumes with a filter restart and a time word, SCAN waits for its next start (R419). -/
def State.sfeSpireBack (s : State) : State :=
  if s.on fSFESTAT_HELD then (s.setFld fSFESTAT_HELD 0).sfeRestart.sfeSet (fun x => { x with timeOwed := true }) else s

/-- A shed of step 4 (R417): both EN bits clear, VEX goes to AGND, a scan is abandoned and missed. -/
def State.sfeShed (s : State) : State :=
  let busy := s.on fSFESTAT_SCANBUSY
  let t := ((s.sets [(fSFECTL_EN, 0), (fSFEEXC_EN, 0)]).sfeHalt).vexOff
  (if busy then t.sfeMiss 1 none else t).retoken

/-! ### Descriptors (R416, Table 18.8) -/

/-- The roles the SFE opcodes act in. -/
def State.sfeRole (s : State) : Bool := s.role = .cell || s.role = .loop

/-- SFE_SETUP: the configuration with the EN bits as they are. -/
def execSfeSetup (d : Desc) (s : State) : Host.Outcome State Fault Refusal :=
  .next (s.runDesc d s.sfeRole (fun s =>
    if s.on fSFECTL_EN then s.fail stBUSY
    else s.setup State.sfeWrite
      ([(rSFECTL, dsArgs d 0 4 / 2 * 2), (rSFERATE, dsArgs d 4 4), (rSFEPER, dsArgs d 8 4),
        (rSFEEXC, dsArgs d 12 4 / 2 * 2 + s.fld fSFEEXC_EN)]
        ++ (List.range 7).map (fun n => (rSFESLOT n, dsArgs d (16 + 2 * n) 2)))))

/-- SFE_START: EN is set (R60, R102), then the start is given now or armed. -/
def execSfeStart (d : Desc) (s : State) : Host.Outcome State Fault Refusal :=
  .next (s.runDesc d s.sfeRole (fun s =>
    let at_ := bitAt (dsArg d 6) 0
    if s.sfe.held || s.on fSFETH_ARM then s.fail stBUSY
    else if s.spireRefuses then s.spireRefused.fail stCLOCK
    else
      let ctl := (s.reg rSFECTL).toNat
      let ctl := ctl - (ctl &&& 0x11) + 1 + (if bitAt (dsArg d 6) 1 then 16 else 0)
      let r := s.setup State.sfeWrite [(rSFECTL, ctl)]
      if r.status != stOK then r
      else if !r.st.on fSFECTL_EN then { r with status := stTOKENS }
      else if at_ then
        let r := r.st.setup State.sfeWrite [(rSFETL, dsArgs d 0 4), (rSFETH, dsArgs d 4 2 + 0x10000)]
        if r.status = stOK && r.st.on fSFETH_LATE && r.st.on fSFECTL_LATEDROP then { r with status := 0x4A } else r
      else r.st.setup State.sfeWrite [(rSFEGO, 1)]))

/-- SFE_STOP: clear SFECTL.EN. -/
def execSfeStop (d : Desc) (s : State) : Host.Outcome State Fault Refusal :=
  .next (s.runDesc d s.sfeRole (fun s =>
    s.setup State.sfeWrite [(rSFECTL, (s.reg rSFECTL).toNat / 2 * 2)]))

/-- SFE_EXC: excitation and its window; turning it on completes after the settling interval. -/
def execSfeExc (d : Desc) (s : State) : Host.Outcome State Fault Refusal :=
  .next (s.runDesc d s.sfeRole (fun s =>
    if 8 ≤ dsArg d 0 ∨ 1024 ≤ dsArgs d 1 2 ∨ 1024 ≤ dsArgs d 3 2 then s.fail stINVALID
    else
      let r := s.setup State.sfeWrite
        [(rSFEEXC, dsArg d 0 + dsArgs d 1 2 * 2 ^ 4 + dsArgs d 3 2 * 2 ^ 16)]
      let on := bitAt (dsArg d 0) 0
      if r.status != stOK then r
      else if on && !r.st.on fSFEEXC_EN then { r with status := stTOKENS }
      else if on && r.st.sfe.vex && r.st.sfe.settling then
        ⟨r.st.sfeSet (fun x => { x with desc := some d }), stOK, 0, [], true⟩
      else r))

/-- SFE_READ: the last settled words. -/
def execSfeRead (d : Desc) (s : State) : Host.Outcome State Fault Refusal :=
  .next (s.runDesc d s.sfeRole (fun s =>
    let r := s.query ((List.range 7).map rSFELAST ++ [rSFESCANCNT])
    let n := if dsResbuf d then 7 else 1
    { r with
      bytes := padTo 36 r.bytes
      status := if (List.range n).any (fun i => (s.reg (rSFELAST i)).getLsbD 31) then 0x48 else stOK }))

/-- SFE_CAL: for each range of the mask, the average of 4 settled results of ZERO becomes SFEOFSk unless it stands for
more than 50 µV at the input. `avg` is that average for each range, in codes, without an offset taken off. -/
def execSfeCal (d : Desc) (avg : List Int) (s : State) : Host.Outcome State Fault Refusal :=
  .next (s.runDesc d s.sfeRole (fun s =>
    if s.on fSFECTL_EN then s.fail stBUSY
    else if s.spireRefuses then s.spireRefused.fail stCLOCK
    else
      let asked := (List.range 8).filter (fun k => bitAt (dsArg d 0) k)
      let good := asked.filter (fun k => (avg.getD k 0).natAbs * 25000 ≤ 2 ^ (23 + k))
      let r := s.setup State.sfeWrite (good.map (fun k => (rSFEOFS k, wrapInt 24 (avg.getD k 0))))
      if r.status != stOK then r
      else ⟨r.st.raise [fSFEFLAG_CALDONE], if good.length = asked.length then stOK else 0x4B,
        (good.map (2 ^ ·)).sum, [], false⟩))

/-- SFE_QUERY. -/
def execSfeQuery (d : Desc) (s : State) : Host.Outcome State Fault Refusal :=
  .next (s.runDesc d s.sfeRole (fun s => s.query [rSFESTAT, rSFEFLAG, rSFEMON, rSFELATE]))

end Sys2Proof.Machine
end

