-- ==== Sys2Proof/Machine/Font.lean ====
section
/-! DEFINITION. Font, ultrasonic transit time (chapter 20): ticks, shots and captures, correlation and the cycle-skip
guard, flow, volume and sealing, cadence, and the descriptors. -/

namespace Sys2Proof.Machine

open Sys2Proof

/-- Update Font's own state. -/
def State.fontSet (s : State) (f : Font → Font) : State := { s with font := f s.font }

/-! ### Settings -/

/-- The pulse period in root cycles, 49 to 393 (R437). -/
def State.fontPer (s : State) : Nat := max 49 (min 393 (s.fld fFONTBURST_PER))

/-- The capture length in samples: 16 to 2,048 in steps of 16 (R438). -/
def State.fontLen (s : State) : Nat := max 16 (min 2048 (s.fld fFONTCAP_LEN / 16 * 16))

/-- The cadence period in force, in line-time units (R447). -/
def State.fontPeriod (s : State) (flow : Bool) : Nat :=
  if s.role = .loop then 32768
  else max 1 (if flow then s.fld fFONTPER_FLOW else s.fld fFONTPER_IDLE) * 32

/-- Whether Font runs at flow cadence. -/
def State.fontFlow (s : State) : Bool := s.on fFONTSTAT_FLOWCAD

/-- The address of a direction's template in the sample buffer (R441): 0 upstream, 1 downstream. -/
def State.tplAddr (s : State) (dir : Nat) : Nat := 0x21000000 + s.fld fFONTTPL_BASE * 32 + 0x200 * dir

/-- The length M of a template in samples. -/
def State.tplLen (s : State) : Nat := 16 * (s.fld fFONTTPL_ROWS + 1)

/-- Write bytes of the sample buffer outside every window; inside an enabled one they do not act (R339). -/
def State.bufWrite (s : State) (a : Nat) (bs : List Byte) : State :=
  let r := s.busCheck (.core .decani) .nave true a 0
  if r.1 then { r.2 with mem := r.2.mem.putBytes a bs } else r.2

/-- The template samples of a direction. -/
def State.template (s : State) (dir : Nat) : List Int :=
  (List.range s.tplLen).map (fun i => signed 16 (leNat (s.mem.bytes (s.tplAddr dir + 2 * i) 2)))

/-! ### Measuring a capture (R439) -/

/-- The zero or level crossing between two samples, in units of 1/16 sample from the first. -/
def cross16 (level a b : Int) : Int := roundDiv (16 * (level - a)) (b - a)

/-- n_thr: the first sample at or above THR. -/
def nThr (x : List Int) (thr : Int) : Option Nat := x.findIdx? (fun v => thr ≤ v)

/-- The position, in 1/16 sample, at which the lobe with sample `n` last rose through a level, looking back. -/
def riseAt (x : List Int) (level : Int) : Nat → Int
  | 0 => 0
  | n + 1 =>
    if x.getD n 0 ≤ level ∧ level < x.getD (n + 1) 0 then 16 * n + cross16 level (x.getD n 0) (x.getD (n + 1) 0)
    else if x.getD n 0 < level ∧ level ≤ x.getD (n + 1) 0 then 16 * n + cross16 level (x.getD n 0) (x.getD (n + 1) 0)
    else riseAt x level n

/-- The position, in 1/16 sample, at which the lobe first falls through a level, looking on from sample `n`. -/
def fallAt (x : List Int) (level : Int) : Nat → Nat → Int
  | 0, n => 16 * n
  | k + 1, n =>
    if level ≤ x.getD n 0 ∧ x.getD (n + 1) 0 < level ∧ n + 1 < x.length then
      16 * n + cross16 level (x.getD n 0) (x.getD (n + 1) 0)
    else if x.length ≤ n + 1 then 16 * n
    else fallAt x level k (n + 1)

/-- PWR of the lobe that holds n_thr: WT / W0 in units of 1/65,536 (R439). -/
def pwrOf (x : List Int) (thr : Int) (n : Nat) : Nat :=
  let w0 := fallAt x 0 x.length n - riseAt x 0 n
  let wt := fallAt x thr x.length n - riseAt x thr n
  if w0 ≤ 0 then 65535 else (clampInt 0 65535 (wt * 65536 / w0)).toNat

/-- The largest absolute sample value. -/
def peakOf (x : List Int) : Nat := x.foldl (fun m v => max m v.natAbs) 0

/-! ### Correlation (R441) and the cycle-skip guard (R444) -/

/-- One correlation sum of TXC at lag `j` (R314). -/
def txcSum (h x : List Int) (j : Nat) : Int := (List.zipWith (· * ·) h (x.drop j)).sum

/-- A 32-bit result of TXC with SH = 3: rounded, shifted and saturated. -/
def txc3 (h x : List Int) (j : Nat) : Int := clampInt (-2147483648) 2147483647 ((txcSum h x j + 4) / 8)

/-- The peak: the greatest value, at its lowest index. -/
def peakIx (y : List Int) : Nat :=
  ((List.range y.length).foldl (fun (b : Nat × Int) i => if b.2 < y.getD i 0 then (i, y.getD i 0) else b)
    (0, y.getD 0 0)).1

/-- The greatest y within ±2 samples of j + off/8. -/
def nearMax (y : List Int) (j : Nat) (off : Int) : Option Int :=
  (List.range y.length).foldl (fun (b : Option Int) (i : Nat) =>
    if (8 * (i : Int) - 8 * j - off).natAbs ≤ 16 then some (max (b.getD (y.getD i 0)) (y.getD i 0)) else b) none

/-- The local maximum of y nearest a position given in eighths of a sample. -/
def localMax (y : List Int) (p8 : Int) (dflt : Nat) : Nat :=
  (((List.range y.length).filter (fun i => 0 < i ∧ i + 1 < y.length ∧ y.getD (i - 1) 0 ≤ y.getD i 0 ∧
      y.getD (i + 1) 0 ≤ y.getD i 0)).foldl
    (fun (b : Option Nat) i => match b with
      | none => some i
      | some k => if (8 * (i : Int) - p8).natAbs < (8 * (k : Int) - p8).natAbs then some i else b) none).getD dflt

/-- What the guard decides of a shot: the peak accepted and whether SKIPFIX counts, or none for SKIP (Table 20.2). -/
def skipGuard (y : List Int) (j per pwr pwrRef pwrTol ambig : Nat) (jPred : Int) : Option (Nat × Bool) :=
  let b := y.getD j 0
  let n1 := nearMax y j (-(per : Int))
  let n2 := nearMax y j per
  let amb := fun (n : Option Int) => match n with
    | some v => decide (b * ambig ≤ v * 256)
    | none => false
  if !(amb n1 || amb n2) then some (j, false)
  else if (if pwr < pwrRef then pwrRef - pwr else pwr - pwrRef) ≤ pwrTol * 256 then
    let cands : List Int := [8 * j - per, 8 * j, 8 * j + per]
    let best := cands.foldl (fun (m : Int) c => if (c - 8 * jPred).natAbs < (m - 8 * jPred).natAbs then c else m)
      (8 * (j : Int) - per)
    some (localMax y best j, true)
  else none

/-- The shot's time T in fs from the peak and its neighbours (R441 steps 4 and 5), delta held to ±0.5. -/
def State.shotTime (s : State) (y : List Int) (j s0 : Nat) : Int :=
  let d := clampInt (-524288) 524288
    (Config.fontDelta (y.getD (j - 1) 0) (y.getD j 0) (y.getD (j + 1) 0) s.fontPer)
  roundDiv ((((s.fld fFONTCAP_DELAY + s0 + j : Nat) : Int) * 1048576 + d) * 10 ^ 15) (24576000 * 1048576)

/-- Judge a shot from its correlation y (R441 step 3, R444). -/
def State.judgeShot (s : State) (x : FShot) (y : List Int) : FShot × State :=
  let j := peakIx y
  if j = 0 ∨ j = 511 then ({ x with ok := false, cause := 4, awaits := false }, s.raise [fFONTFLAG_EDGE])
  else
    match skipGuard y j s.fontPer x.pwr (s.fld fFONTTUNE_PWRREF) (s.fld fFONTGUARD_PWRTOL) (s.fld fFONTGUARD_AMBIG)
      ((s.fld fFONTDET_SRCHPRE : Int) - s.fld fFONTDET_TPLPRE) with
    | none => ({ x with ok := false, cause := 5, awaits := false }, s.raise [fFONTFLAG_SKIP])
    | some (k, fix) =>
      ({ x with ok := true, cause := 0, t := s.shotTime y k x.s0, awaits := false },
        if fix then s.count fFONTCNT_SKIPFIX else s)

/-! ### Events and missed ticks -/

/-- Ticks missed (R450): the cause bit of R450 is kept for the next GAP, FONT_MISSED is posted, and Rhoco clears the flag that
brought it. -/
def State.fontMiss (s : State) (n cause : Nat) (f : Option Fld) : State :=
  if n = 0 then s
  else
    let t := (s.fontSet (fun x => { x with causes := x.causes ||| 2 ^ cause })).event 0x0404
      (leBytes 1 (2 ^ cause) ++ leBytes 2 n)
    match f with
    | some f => if t.rhocoUp then t.setFld f 0 else t
    | none => t

/-- A past tick (R447): FONTFLAG.LATE, FONTTH.LATE and FONTLATE. -/
def State.fontLate (s : State) (t : Nat) : State :=
  let d := min (2 ^ 32 - 1) ((s.now + 2 ^ 48 - t) % 2 ^ 48)
  (s.sets [(fFONTLATE_LATE, d), (fFONTTH_LATE, 1)]).raise [fFONTFLAG_LATE]

/-- Font leaves its tick with no result. -/
def State.fontIdle (s : State) : State :=
  (s.setFld fFONTSTAT_SHOT 0).fontSet (fun x => { x with phase := 0 })

/-- A stop has finished: the cadence is off and the tokens are free. -/
def State.fontOff (s : State) : State :=
  ((s.sets [(fFONTSTAT_RUN, 0), (fFONTSTAT_FLOWCAD, 0), (fFONTTH_ARM, 0)]).fontSet (fun x => { x with
    due := none, stopping := false, causes := x.causes ||| 1 })).retoken

/-- A capture in progress returns its reservation and stores nothing (R338). -/
def State.fontAbandon (s : State) : State :=
  let t := if s.font.phase = 2 || s.font.phase = 4 then (s.setFld (fSBWRES_RESERVED 2) 0).winSync 2 else s
  t.fontIdle

/-! ### Shots (R438, R440) -/

/-- Go on after the last shot of a pair was refused or captured: the pair waits for its processing. -/
def State.fontPhase (s : State) (p : Nat) : State := s.fontSet (fun x => { x with phase := p })

/-- Fire the next shot of the tick: the upstream one in phases 1 and 6, the downstream one in phase 3. Its capture is
reserved in window 2; refused, the shot is invalid with cause NOSPACE. -/
def State.fireShot (s : State) : State :=
  let dn := s.font.phase = 3
  let r := s.winReserve 2 (2 * s.fontLen)
  if r.1 then
    (r.2.setFld fFONTSTAT_SHOT 1).fontSet (fun x =>
      if dn then { x with phase := 4, dn := {} } else { x with phase := 2, up := {}, dn := {} })
  else
    let bad : FShot := { cause := 1 }
    r.2.fontSet (fun x => if dn then { x with phase := 5, dn := bad } else { x with phase := 3, up := bad, dn := {} })

/-! ### A pair (R445, R453, R458) -/

/-- The median of a list of times. -/
def medianOf (l : List Int) : Int := (l.mergeSort (· ≤ ·)).getD (l.length / 2) 0

/-- The gain of the next pair (R453). -/
def State.fontGain (s : State) (valid : Bool) : State :=
  s.fontSet (fun x =>
    let g :=
      if x.up.cause = 3 ∨ x.dn.cause = 3 then x.gain - 3
      else if !valid then x.gain
      else if 1800 < x.up.peak ∨ 1800 < x.dn.peak then x.gain - 1
      else if x.up.peak < 900 ∧ x.dn.peak < 900 then x.gain + 1
      else x.gain
    { x with gain := min 30 g })

/-- EMPTYN empty pairs in succession put Font into EMPTY and back to idle cadence (R458). -/
def State.fontEmpty (s : State) : State :=
  let n := s.font.emptyRun + 1
  let t := s.fontSet (fun x => { x with emptyRun := n })
  if !t.on fFONTSTAT_EMPTY && decide (max 1 (t.fld fFONTGUARD_EMPTYN) ≤ n) then
    let flow := t.fontFlow
    let u := ((t.sets [(fFONTSTAT_EMPTY, 1), (fFONTSTAT_FLOWCAD, 0)]).flagEvent fFONTFLAG_EMPTY 0x0400 []).retoken
    if flow then
      ((u.wantTokens u.needNow).event 0x0405 [0, 0]).fontSet (fun x => { x with
        due := some ((x.lastDue + u.fontPeriod false) % 2 ^ 48), lowRun := 0 })
    else u
  else t

/-- The pair is processed (R441 to R445): it is valid, invalid or empty; Rhoco frees window 2; the next pair or the result
follows. -/
def State.fontPairDone (s : State) : State :=
  let u := s.font.up
  let d := s.font.dn
  let noEcho := u.cause = 2 && d.cause = 2
  let s := if (u.ok && d.ok) || noEcho then s else s.count fFONTCNT_INVALID
  let s := if noEcho then s.fontEmpty else s.fontSet (fun x => { x with emptyRun := 0 })
  let s := if u.cause != 2 && d.cause != 2 && u.cause != 1 && d.cause != 1 && s.on fFONTSTAT_EMPTY then
      (s.setFld fFONTSTAT_EMPTY 0).flagEvent fFONTFLAG_FULL 0x0401 [] else s
  let dt := u.t - d.t
  let apart := decide ((s.fontPer : Int) * 10 ^ 15 ≤ dt.natAbs * 16 * 24576000)
  let skip := u.cause = 5 || d.cause = 5 || (u.ok && d.ok && apart)
  let valid := u.ok && d.ok && !apart
  let s := if u.ok && d.ok && apart then (s.raise [fFONTFLAG_SKIP]).count fFONTCNT_INVALID else s
  let s := if skip then
      let n := s.font.skipRun + 1
      let t := (s.count fFONTCNT_SKIP).fontSet (fun x => { x with skipRun := n })
      if n = max 1 (t.fld fFONTGUARD_SKIPN) then t.event 0x0403 (leBytes 2 (t.fld fFONTCNT_SKIP)) else t
    else s.fontSet (fun x => { x with skipRun := 0 })
  let s := if valid then
      let h := (dt :: s.font.hist).take s.font.med
      let c := if h.length < s.font.med then dt else medianOf h
      s.fontSet (fun x => { x with
        hist := h, nvalid := x.nvalid + 1, sumDt2 := x.sumDt2 + 2 * c, sumT2 := x.sumT2 + (u.t + d.t) })
    else if noEcho && s.on fFONTSTAT_EMPTY then s
    else s.fontSet (fun x => { x with causes := x.causes ||| 8 })
  let thr2 := 2 * s.fld fFONTDET_THR
  let weak := (u.cause != 1 && decide (u.peak < thr2)) || (d.cause != 1 && decide (d.peak < thr2))
  let s := (s.fontSet (fun x => { x with weak := x.weak || weak })).fontGain valid
  -- F7: Rhoco has processed the pair and written SBW2RP.
  let s := (s.setFld (fSBWRP_RP 2) (s.fld (fSBWWP_WP 2))).winSync 2
  s.fontSet (fun x => { x with
    phase := if x.stopping || decide (x.pairs ≤ x.pair + 1) then 7 else 6, pair := x.pair + 1 })

/-- A pair whose two shots are known is processed, if Rhoco runs and no offloaded answer is awaited. -/
def State.fontPairTry (s : State) : State :=
  if s.font.phase = 5 && s.rhocoUp && !s.font.up.awaits && !s.font.dn.awaits then s.fontPairDone else s

/-- Put an offload job to the office (R443): the 16-byte job at 0x2000_0840, and SOFT31. -/
def State.fontJob (s : State) (x : FShot) (wordOfs : Nat) : State :=
  let t := s.rhocoWrite 0x20000840
    (leBytes 4 wordOfs ++ leBytes 4 x.s0 ++ leBytes 4 s.tplLen ++ leBytes 4 x.dst)
  let c := t.routeOf 127
  (t.setCore c { t.core c with latch := (t.core c).latch ||| 2 ^ 127 }).wakeOnInt c

/-- Measure and judge a captured shot (R439, R441, R443). `dst` is the place Rhoco gives an offloaded correlation. -/
def State.fontMeasure (s : State) (dn : Bool) (x : List Int) (dst wordOfs : Nat) : FShot × State :=
  let pk := peakOf x
  let sat := x.any (fun v => v ≤ -2048 || 2047 ≤ v)
  let n := nThr x (s.fld fFONTDET_THR)
  let pw := match n with
    | some k => pwrOf x (s.fld fFONTDET_THR) k
    | none => 0
  let s := s.sets [(fFONTSHOT_NTHR, n.getD 0), (fFONTSHOT_PWR, pw / 16), (fFONTSHOT2_PEAK, pk), (fFONTSHOT2_SAT, b2n sat)]
  let base : FShot := { nthr := n.getD 0, pwr := pw, peak := pk }
  let s := if sat then s.raise [fFONTFLAG_SAT] else s
  match n with
  | none => ({ base with cause := 2 }, s.raise [fFONTFLAG_NOECHO])
  | some k =>
    if sat then ({ base with cause := 3 }, s)
    else
      let s0 := min (k - s.fld fFONTDET_SRCHPRE) (x.length - 768)
      let base := { base with s0 := s0 }
      if s.on fFONTCTL_OFFLOAD then
        if s.cantRuns then
          let b := { base with dst := dst, awaits := true }
          (b, s.fontJob b wordOfs)
        else ({ base with cause := 6 }, (s.raise [fFONTFLAG_OFFTMO]).count fFONTCNT_OFFTMO)
      else
        -- Samples past the capture's end are open (R441 names s + 767 whatever LEN is): free values.
        let data := (List.range 768).map (fun i => x.getD (s0 + i) (signed 16 (Config.free (s.free + i))))
        let s := s.used 768
        let h := s.template (if dn then 1 else 0)
        s.judgeShot base ((List.range 512).map (txc3 h data))

/-! ### Flow (R446) -/

/-- An integer as a 32-bit field, or a free value where it does not fit (the spec states no result there). -/
def State.fit32 (s : State) (i : Int) : Nat :=
  if -(2 ^ 31 : Int) ≤ i ∧ i < 2 ^ 31 then wrapInt 32 i else Config.free s.free % 2 ^ 32

/-- dt, FLOW, TMEAN and SOUND of R446 from twice the tick's mean Δt and T, in fs. Zero divisors leave FLOW and SOUND open. -/
def State.fontFlowOf (s : State) (dtm2 tm2 : Int) : Int × Int × Int × Int :=
  let dt := roundDiv dtm2 2 - signed 32 (s.fld fFONTDT0_DT0)
  let t2 := tm2 - 2 * (s.fld fFONTT0_T0 : Int) * 1000
  let tu := t2 + dt
  let td := t2 - dt
  let l : Int := s.fld fFONTGEOL_L
  let x : Int := s.fld fFONTGEOX_X
  let d : Int := s.fld fFONTGEOD_D
  let kf : Int := s.fld fFONTKF_KF
  let open_ : Int := signed 32 (Config.free s.free)
  let piN : Int := 314159265358979323846
  let piD : Int := 100000000000000000000
  let den := 65536 * piD * 2 * x * tu * td
  let flow := if den = 0 then open_ else roundDiv (kf * piN * d * d * l * l * dt * 3600000) den
  let sound := if tu * td = 0 then open_ else roundDiv (l * (2 * t2) * 10 ^ 12) (tu * td)
  (dt, flow, roundDiv t2 2000, sound)

/-- The contents of Table 20.3. -/
def State.fontReading (s : State) : List Byte :=
  let sfe := fun (en slot : Fld) => if s.on en then leBytes 4 (s.fld (fSFELAST_WORD (min 6 (s.fld slot)))) else leBytes 4 0
  ([rFONTRESFLOW, rFONTRESDT, rFONTRESTMEAN, rFONTRESVOLL, rFONTRESVOLH].map (fun a => leBytes 4 (s.reg a).toNat)).flatten
    ++ sfe fFONTSEAL_AEN fFONTSEAL_SLOTA ++ sfe fFONTSEAL_BEN fFONTSEAL_SLOTB
    ++ leBytes 4 (s.reg rFONTRESSTAT).toNat ++ leBytes 4 (s.reg rFONTRESCOUNT).toNat

/-- Add an uncovered interval to GAPMS (R449). -/
def State.fontGap (s : State) (ticks : Nat) : State :=
  let t := s.font.gapFrac + 1000 * ticks
  (s.setFld fFONTRESGAPMS_GAPMS (s.fld fFONTRESGAPMS_GAPMS + t / 32768)).fontSet (fun x => { x with gapFrac := t % 32768 })

/-- Advance VOL by FLOW over an interval (R449): 1 mL/h over one line-time unit is 1000 / (3600 * 32768) µL. -/
def State.fontVolume (s : State) (flow : Int) (ticks : Nat) : State :=
  let den : Int := 3600 * 32768
  let t := s.font.volFrac + flow * 1000 * ticks
  let v := wrapInt 64 ((s.fld fFONTRESVOLL_VOLL + s.fld fFONTRESVOLH_VOLH * 2 ^ 32 : Nat) + t / den)
  (s.sets [(fFONTRESVOLL_VOLL, v % 2 ^ 32), (fFONTRESVOLH_VOLH, v / 2 ^ 32)]).fontSet (fun x => { x with volFrac := t % den })

/-! ### Cadence (R448) -/

/-- Change of cadence: the flag, the due time of the next tick, and FONT_CADENCE. -/
def State.fontCadence (s : State) (flow : Bool) : State :=
  let t := (s.setFld fFONTSTAT_FLOWCAD (b2n flow)).retoken
  let t := t.fontSet (fun x => { x with due := x.due.map (fun _ => (x.lastDue + t.fontPeriod flow) % 2 ^ 48), lowRun := 0 })
  t.event 0x0405 [if flow then 1 else 0, 0]

/-- The change of cadence a result asks for with ADAPT = 1 in Cell role (R448). -/
def State.fontAdapt (s : State) (flow : Int) : State :=
  if s.role != .cell || !s.on fFONTCTL_ADAPT || !s.on fFONTCTL_EN then s
  else if !s.fontFlow then
    if s.fld fFONTTHR_FLOWON * 100 ≤ flow.natAbs then
      if s.tokensRefuse (s.needNow + 2 + s.fld fFONTCTL_LEVEL) then
        s.tokenRefused.flagEvent fFONTFLAG_TOKSHORT 0x0405 [0, 1]
      else s.fontCadence true
    else s
  else if flow.natAbs < s.fld fFONTTHR_FLOWOFF * 100 then
    let n := s.font.lowRun + 1
    if n < max 1 (s.fld fFONTTUNE_HOLD) then s.fontSet (fun x => { x with lowRun := n })
    else
      let t := s.fontCadence false
      t.wantTokens t.needNow
  else s.fontSet (fun x => { x with lowRun := 0 })

/-! ### Starts and register writes (R447, R456, Table 20.7) -/

/-- Whether clearing or setting EN changes NEED: the tokens Font would cost running at a cadence. -/
def State.fontStartCost (s : State) (flow : Bool) : Nat := fontCost s.role true flow (s.on fFONTCTL_LEVEL)

/-- Begin the cadence with its first tick at `t`; a past start runs late or is dropped (R447). -/
def State.fontArm (s : State) (t : Nat) : State :=
  let s := s.setFld fFONTTH_LATE 0
  if past t s.now then
    let u := s.fontLate t
    let per := u.fontPeriod u.fontFlow
    let j := passedStarts t u.now per
    let next := (t + j * per) % 2 ^ 48
    if u.on fFONTCTL_LATEDROP then
      (u.fontSet (fun x => { x with due := some next })).fontMiss j 4 (some fFONTFLAG_LATE)
    else (u.fontSet (fun x => { x with due := some u.now })).fontMiss (j - 1) 4 (some fFONTFLAG_LATE)
  else s.fontSet (fun x => { x with due := some t })

/-- The next line time that is a whole multiple of the period (R447). -/
def State.fontNextMultiple (s : State) : Nat :=
  let per := s.fontPeriod s.fontFlow
  (s.now / per + 1) * per % 2 ^ 48

/-- A write of FONTCTL: EN is a start under R102, R60 and TUNED; FORCE with ADAPT = 0 selects the cadence, and LEVEL = 1 at
flow cadence costs a token (R448, R456). In Loop role LEVEL stays 0 (R436). -/
def State.fontWriteCtl (s : State) (v : Word) : State :=
  let en := s.on fFONTCTL_EN
  let v := if s.role = .loop then putFld v fFONTCTL_LEVEL 0 else v
  let want := fldOf v fFONTCTL_EN
  let before := s
  let t := s.plainWrite rFONTCTL (putFld v fFONTCTL_EN (b2n en))
  -- A mode that would raise NEED above ALLOW does not act: LEVEL and FORCE keep their values.
  let forced := decide (t.role = .cell) && !t.on fFONTCTL_ADAPT && t.on fFONTCTL_FORCE
  let t := if en && t.fontFlow && t.on fFONTCTL_LEVEL && !before.on fFONTCTL_LEVEL && before.tokensRefuse t.needNow then
      (t.setFld fFONTCTL_LEVEL 0).tokenRefused else t
  let t :=
    if !en || t.role != .cell || t.on fFONTCTL_ADAPT then t
    else if forced && !t.fontFlow then
      if t.tokensRefuse (t.needNow + 2 + t.fld fFONTCTL_LEVEL) then
        (t.setFld fFONTCTL_FORCE 0).tokenRefused.flagEvent fFONTFLAG_TOKSHORT 0x0405 [0, 1]
      else t.fontCadence true
    else if !forced && t.fontFlow then t.fontCadence false
    else t
  if en = (want = 1) then t.retoken
  else if want = 1 then
    if !t.on fFONTTUNE_TUNED then t
    else if t.spireRefuses then t.spireRefused
    else if t.tokensRefuse (t.needNow + t.fontStartCost forced) then t.tokenRefused
    else
      let u := ((t.sets [(fFONTCTL_EN, 1), (fFONTSTAT_RUN, 1), (fFONTSTAT_FLOWCAD, b2n forced)]).fontSet (fun x => { x with
        gain := min 30 (t.fld fFONTBURST_GAIN), hist := [], stopping := false, lastOk := false })).retoken
      if u.on fFONTTH_ARM then u.fontArm (u.fld fFONTTL_TIME + u.fld fFONTTH_TIME * 2 ^ 32) else u
  else
    let u := t.setFld fFONTCTL_EN 0
    -- Clearing EN finishes the pair in progress and then ends the tick (R456).
    if u.font.phase = 0 || u.font.phase = 1 then u.fontIdle.fontOff
    else if u.font.phase = 6 then (u.fontSet (fun x => { x with phase := 7, stopping := true }))
    else u.fontSet (fun x => { x with stopping := true })

/-- The registers of block 19 that do not take a write while EN = 1 (R456). -/
def fontFixed (a : Nat) : Bool :=
  a = rFONTBURST || a = rFONTCAP || a = rFONTDET || a = rFONTTPL || a = rFONTGEOL || a = rFONTGEOX || a = rFONTGEOD ||
    a = rFONTKF || a = rFONTT0 || a = rFONTDT0

/-- A write of a register of block 19. -/
def State.fontWrite (s : State) (a : Nat) (v : Word) : State :=
  if a = rFONTCTL then s.fontWriteCtl v
  else if fontFixed a && s.on fFONTCTL_EN then s.raise [fFONTFLAG_CFGBUSY]
  else if a = rFONTCAP then s.plainWrite a (v &&& 0xFFF0FFFF)
  else if a = rFONTTH then
    let t := s.plainWrite a v
    if t.on fFONTTH_ARM && t.on fFONTCTL_EN then t.fontArm (t.fld fFONTTL_TIME + t.fld fFONTTH_TIME * 2 ^ 32)
    else if t.on fFONTTH_ARM then t.setFld fFONTTH_LATE 0
    else t
  else s.plainWrite a v

/-! ### Tick events -/

/-- FONT_ARM (R447): a write of FONTTH with ARM. -/
def execFontArm (w : World) (v : Word) (s : State) : Host.Outcome State Fault Refusal :=
  .next (let r := s.vet w rFONTTH v
    r.st.fontWrite rFONTTH r.v)

/-- One port's impedance check (Table 20.6): its runs and its fault after the check. -/
def portCheck (bad good fault kind : Nat) : Nat × Nat × Nat :=
  if kind = 0 then (0, min 2 (good + 1), if fault != 0 && good + 1 < 2 then fault else 0)
  else (min 2 (bad + 1), 0, if 2 ≤ bad + 1 then kind else fault)

/-- Apply the impedance check of F1 to both ports; a new fault sets its flag and posts FONT_TRANSDUCER. -/
def State.fontPorts (s : State) (capU capD : Nat) (resU resD : Bool) : State :=
  let s := s.sets [(fFONTIMP_CAPU, capU), (fFONTIMP_CAPD, capD)]
  let kind := fun (c : Nat) (r : Bool) =>
    if r || decide (s.fld fFONTCAPW_CMAX < c) then 2 else if c < s.fld fFONTCAPW_CMIN then 1 else 0
  let one := fun (t : State) (p c : Nat) (r : Bool) =>
    let q := portCheck (t.font.badRun.getD p 0) (t.font.goodRun.getD p 0) (t.font.fault.getD p 0) (kind c r)
    let was := t.font.fault.getD p 0
    let t := t.fontSet (fun x => { x with
      badRun := x.badRun.set p q.1, goodRun := x.goodRun.set p q.2.1, fault := x.fault.set p q.2.2 })
    if q.2.2 != 0 && was = 0 then
      t.flagEvent (if q.2.2 = 1 then fFONTFLAG_ABSENT else fFONTFLAG_SHORT) 0x0402
        (leBytes 1 p ++ leBytes 1 (q.2.2 - 1) ++ leBytes 2 c)
    else t
  let t := one (one s 0 capU resU) 1 capD resD
  t.sets [(fFONTSTAT_ABSENT, b2n (t.font.fault.contains 1)), (fFONTSTAT_SHORT, b2n (t.font.fault.contains 2))]

/-- FONT_TICK (R440 F1, R447, R457): a tick falls due. The operands are the port capacitances in 2 pF units and whether a
port is resistive. -/
def execFontTick (capU capD : Nat) (resU resD : Bool) (s : State) : Host.Outcome State Fault Refusal :=
  .next (match s.font.due with
    | none => s
    | some t0 =>
      if !(s.on fFONTSTAT_RUN) || !(t0 = s.now || past t0 s.now) then s
      else
        let late := past t0 s.now
        let per := s.fontPeriod s.fontFlow
        let j := if late then passedStarts t0 s.now per else 1
        let drop := late && s.on fFONTCTL_LATEDROP
        let s := if late then s.fontLate t0 else s
        let s := s.fontSet (fun x => { x with due := some ((t0 + j * per) % 2 ^ 48), lastDue := (t0 + (j - 1) * per) % 2 ^ 48 })
        let s := s.fontMiss (if drop then j else j - 1) 4 (some fFONTFLAG_LATE)
        if drop then s
        else if s.font.phase != 0 then (s.raise [fFONTFLAG_OVERRUN]).fontMiss 1 4 (some fFONTFLAG_OVERRUN)
        else if s.spireRefuses || s.clk.spireHeld then (s.raise [fFONTFLAG_HELD]).fontMiss 1 1 (some fFONTFLAG_HELD)
        else
          let s := s.fontPorts capU capD resU resD
          if s.font.fault.any (· != 0) then s.fontMiss 1 2 none
          else
            let m := 2 * min 4 (s.fld fFONTCTL_MED) + 1
            let p := s.fld fFONTCTL_PAIRS + 1
            s.fontSet (fun x => { x with
              phase := 1, pair := 0, pairs := if s.role = .loop then min 4 p else p, med := m, hist := x.hist.take m,
              nvalid := 0, sumDt2 := 0, sumT2 := 0, weak := false }))

/-- VBST_READY (R440 F2, F3): the first shot of the tick is fired. -/
def execVbstReady (s : State) : Host.Outcome State Fault Refusal :=
  .next (if s.font.phase = 1 then s.fireShot else s)

/-- VBSTLOW (R457): VBST is not ready in 5 ms, and the tick is missed with cause 4. -/
def execVbstlow (s : State) : Host.Outcome State Fault Refusal :=
  .next (if s.font.phase = 1 then ((s.raise [fFONTFLAG_VBSTLOW]).fontMiss 1 4 (some fFONTFLAG_VBSTLOW)).fontIdle else s)

/-- FONT_SHOT (R438 to R440): the next shot of the tick at its due time: the downstream shot of a pair, or the upstream
one of the next pair. A pair whose processing has not ended meets a full window. -/
def execFontShot (s : State) : Host.Outcome State Fault Refusal :=
  .next (if s.font.phase = 3 then (s.fireShot).fontPairTry
    else if s.font.phase = 6 then s.fireShot
    else if s.font.phase = 5 then
      s.winDrop 2 (s.fontLen / 2)
    else s)

/-- The words a capture stores: two samples to a word, the earlier one low (R438). -/
def sampleWords : Nat → List Int → List Nat
  | 0, _ => []
  | n + 1, x => if x.isEmpty then [] else (wrapInt 16 (x.getD 0 0) + 65536 * wrapInt 16 (x.getD 1 0)) :: sampleWords n (x.drop 2)

/-- FONT_CAPTURE_END (R338, R438, R439, R441, R443): a capture ends; `x` is its LEN samples. After the downstream shot the
pair is processed. -/
def execFontCaptureEnd (x : List Int) (dst : Nat) (s : State) : Host.Outcome State Fault Refusal :=
  .next (if s.font.phase != 2 && s.font.phase != 4 then s
    else
      let dn := s.font.phase = 4
      let x := (x.map (clampInt (-2048) 2047)).take s.fontLen
      let ofs := s.fld (fSBWWP_WP 2) % s.winSize 2 / 4
      let s := (s.winEnd 2 (sampleWords (x.length + 1) x)).setFld fFONTSTAT_SHOT 0
      let r := s.fontMeasure dn x dst ofs
      let t := r.2.fontSet (fun f => if dn then { f with dn := r.1, phase := 5 } else { f with up := r.1, phase := 3 })
      t.fontPairTry)

/-- Read an offloaded correlation from where the office wrote it (R443). -/
def State.offloadY (s : State) (dst : Nat) : List Int :=
  (List.range 512).map (fun i => signed 32 (leNat (s.mem.bytes (0x21000000 + dst + 4 * i) 4)))

/-- FONT_OFFLOAD_DONE (R443): the office has pended SOFT30; Rhoco judges the shot whose answer it is. -/
def execFontOffloadDone (s : State) : Host.Outcome State Fault Refusal :=
  .next (if s.font.up.awaits then
      let r := s.judgeShot s.font.up (s.offloadY s.font.up.dst)
      (r.2.fontSet (fun x => { x with up := r.1 })).fontPairTry
    else if s.font.dn.awaits then
      let r := s.judgeShot s.font.dn (s.offloadY s.font.dn.dst)
      (r.2.fontSet (fun x => { x with dn := r.1 })).fontPairTry
    else s)

/-- FONT_OFFLOAD_TIMEOUT (R443): no answer by the next pair's start makes the pair invalid with cause OFFLOAD. -/
def execFontOffloadTimeout (s : State) : Host.Outcome State Fault Refusal :=
  .next (if s.font.phase = 5 && (s.font.up.awaits || s.font.dn.awaits) then
      let f := fun (x : FShot) => if x.awaits then { x with ok := false, cause := 6, awaits := false } else x
      (((s.raise [fFONTFLAG_OFFTMO]).count fFONTCNT_OFFTMO).fontSet (fun x => { x with up := f x.up, dn := f x.dn })).fontPairTry
    else s)

/-- FONT_RESULT (R445, R446, R448, R449): the result of a tick. -/
def execFontResult (s : State) : Host.Outcome State Fault Refusal :=
  .next (if s.font.phase != 7 then s
    else
      let n := s.font.nvalid
      let bad := s.on fSTRESP_METROBAD
      let empty := s.on fFONTSTAT_EMPTY
      let valid := decide (0 < n) && !bad && !empty
      let r := if n = 0 then (0, 0, 0, 0) else s.fontFlowOf (roundDiv s.font.sumDt2 n) (roundDiv s.font.sumT2 n)
      let flowN := if empty then 0 else if n = 0 then s.fld fFONTRESFLOW_FLOW else s.fit32 r.2.1
      let flow := signed 32 flowN
      let s := if n = 0 then s.setFld fFONTRESFLOW_FLOW flowN
        else (s.sets [(fFONTRESFLOW_FLOW, flowN), (fFONTRESDT_DT, s.fit32 r.1), (fFONTRESTMEAN_TMEAN, s.fit32 r.2.2.1),
          (fFONTRESSOUND_SOUND, s.fit32 r.2.2.2)]).used 1
      let s := s.sets [(fFONTRESSTAT_VALID, b2n valid), (fFONTRESSTAT_EMPTY, b2n empty),
        (fFONTRESSTAT_WEAK, b2n s.font.weak), (fFONTRESSTAT_NVALID, n), (fFONTRESCOUNT_COUNT, s.fld fFONTRESCOUNT_COUNT + 1)]
      let now := s.now
      let s := match s.font.lastAt with
        | none => s
        | some p =>
          let iv := (now + 2 ^ 48 - p) % 2 ^ 48
          if empty then s
          else if valid && s.font.lastOk && decide (iv ≤ 2 * s.fontPeriod s.fontFlow) then s.fontVolume flow iv
          else (s.fontGap iv).fontSet (fun x => { x with hist := [] })
      let s := s.fontSet (fun x => { x with phase := 0, lastAt := some now, lastOk := valid })
      let s := s.loopMapResult 8 flow (!valid)
      let s := if valid then s.fontAdapt flow else s.fontSet (fun x => { x with lowRun := 0 })
      if s.font.stopping then s.fontOff else s)

/-- FONT_SEAL (R450): at a whole multiple of the seal period the Sacristy seals claimed Font's reading, with a GAP entry
before it when GAPMS is not 0. -/
def execFontSeal (s : State) : Host.Outcome State Fault Refusal :=
  .next (let p := min 3600 (s.fld fFONTSEAL_PERIOD)
    if p = 0 || !s.claimed 19 || s.now % (p * 32768) != 0 then s
    else
      let gap := s.fld fFONTRESGAPMS_GAPMS
      let s := if gap = 0 then s
        else ((s.sealAppend 19 2 (leBytes 4 gap ++ leBytes 1 s.font.causes)).setFld fFONTRESGAPMS_GAPMS 0).fontSet
          (fun x => { x with causes := 0 })
      s.sealAppend 19 1 s.fontReading)

/-! ### Hooks -/

/-- A shed of step 2 (R456): EN clears at once, the shot is abandoned, its reservation returned. -/
def State.fontShed (s : State) : State := ((s.setFld fFONTCTL_EN 0).fontAbandon).fontOff

/-- The Spire is lost or the safe state forced (R112, R459): the shot and the tick are abandoned. -/
def State.fontSpireLost (s : State) : State :=
  if !s.on fFONTSTAT_RUN then s
  else
    let t := (s.fontAbandon).sets [(fFONTSTAT_HELD, 1), (fFONTFLAG_HELD, 1)]
    t.fontSet (fun x => { x with causes := x.causes ||| 2 })

/-- PLLLOCK returns: the next tick begins a new history (R459). -/
def State.fontSpireBack (s : State) : State :=
  if s.on fFONTSTAT_HELD then (s.setFld fFONTSTAT_HELD 0).fontSet (fun x => { x with hist := [] }) else s

/-- Test the next tick for a past time after a step of line time (R447): a past one is handled when it falls due, which is
now. -/
def State.fontRetest (s : State) : State :=
  match s.font.due with
  | some t =>
    if s.on fFONTSTAT_RUN && past t s.now then
      let u := s.fontLate t
      let per := u.fontPeriod u.fontFlow
      let j := passedStarts t u.now per
      if u.on fFONTCTL_LATEDROP then (u.fontSet (fun x => { x with due := some ((t + j * per) % 2 ^ 48) })).fontMiss j 4 (some fFONTFLAG_LATE)
      else (u.fontSet (fun x => { x with due := some u.now })).fontMiss (j - 1) 4 (some fFONTFLAG_LATE)
    else s
  | none => s

/-! ### Descriptors (R461, Table 20.8) -/

/-- The roles Font's opcodes act in. -/
def State.fontRole (s : State) : Bool := s.role = .cell || s.role = .loop

/-- FONT_SETUP: the configuration, with FONTCTL.EN as it is. -/
def execFontSetup (d : Desc) (s : State) : Host.Outcome State Fault Refusal :=
  .next (s.runDesc d s.fontRole (fun s =>
    if s.on fFONTCTL_EN then s.fail stBUSY
    else s.setup State.fontWrite
      [(rFONTCTL, dsArgs d 0 4 / 2 * 2), (rFONTBURST, dsArgs d 4 4), (rFONTCAP, dsArgs d 8 4), (rFONTDET, dsArgs d 12 4),
       (rFONTPER, dsArgs d 16 4), (rFONTTHR, dsArgs d 20 4), (rFONTGUARD, dsArgs d 24 4), (rFONTSEAL, dsArgs d 28 4)]))

/-- FONT_GEOMETRY: L, X, D, KF, T0 and DT0; X = 0 or D = 0 is invalid. -/
def execFontGeometry (d : Desc) (s : State) : Host.Outcome State Fault Refusal :=
  .next (s.runDesc d s.fontRole (fun s =>
    if dsArgs d 4 4 = 0 ∨ dsArgs d 8 4 = 0 then s.fail stINVALID
    else if s.on fFONTCTL_EN then s.fail stBUSY
    else s.setup State.fontWrite
      [(rFONTGEOL, dsArgs d 0 4), (rFONTGEOX, dsArgs d 4 4), (rFONTGEOD, dsArgs d 8 4), (rFONTKF, dsArgs d 12 4),
       (rFONTT0, dsArgs d 16 4), (rFONTDT0, dsArgs d 20 4)]))

/-- FONT_START (R447): EN is set, and the first tick falls due at t or at the next multiple of the period. -/
def execFontStart (d : Desc) (s : State) : Host.Outcome State Fault Refusal :=
  .next (s.runDesc d s.fontRole (fun s =>
    if !s.on fFONTTUNE_TUNED then s.fail 0x58
    else if s.spireRefuses then s.spireRefused.fail stCLOCK
    else
      let ctl := (s.reg rFONTCTL).toNat
      let ctl := ctl - (ctl &&& 0x11) + 1 + (if bitAt (dsArg d 6) 1 then 16 else 0)
      let r := s.setup State.fontWrite [(rFONTCTL, ctl)]
      if r.status != stOK then r
      else if !r.st.on fFONTCTL_EN then { r with status := stTOKENS }
      else if bitAt (dsArg d 6) 0 then
        let r := r.st.setup State.fontWrite [(rFONTTL, dsArgs d 0 4), (rFONTTH, dsArgs d 4 2 + 0x10000)]
        if r.status = stOK && r.st.on fFONTTH_LATE && r.st.on fFONTCTL_LATEDROP then { r with status := 0x4A } else r
      else (r.st.fontSet (fun x => { x with due := some r.st.fontNextMultiple })).ok))

/-- FONT_STOP: clear EN. -/
def execFontStop (d : Desc) (s : State) : Host.Outcome State Fault Refusal :=
  .next (s.runDesc d s.fontRole (fun s => s.setup State.fontWrite [(rFONTCTL, (s.reg rFONTCTL).toNat / 2 * 2)]))

/-- A template in Q15 with its largest sample at ±24,576 (R442). -/
def scaleTpl (x : List Int) : List Int :=
  let m := peakOf x
  if m = 0 then x else x.map (fun v => roundDiv (v * 24576) m)

/-- The bytes of 16-bit samples. -/
def sampleBytes (x : List Int) : List Byte := (x.map (fun v => leBytes 2 (wrapInt 16 v))).flatten

/-- FONT_TUNE (R442, R451): choose PER and the gain, record the templates, PWRREF and the capacitance window, and store
them in the configuration record. -/
def execFontTune (d : Desc) (m : TuneIn) (s : State) : Host.Outcome State Fault Refusal :=
  .next (s.runDesc d s.fontRole (fun s =>
    if s.on fFONTCTL_EN then s.fail stBUSY
    else if s.spireRefuses then s.spireRefused.fail stCLOCK
    else if m.resistive || decide (m.capU < 50) || decide (m.capD < 50) || decide (5000 < m.capU) || decide (5000 < m.capD)
    then s.fail 0x59
    else
      let lo := m.pwrs.foldl min 65535
      let hi := m.pwrs.foldl max 0
      if m.peak60 < 256 || decide (s.fld fFONTGUARD_PWRTOL * 256 < hi - lo) || m.invalid || m.sums.isEmpty ||
          m.pwrs.isEmpty then s.fail 0x5B
      else
        let per := dsArgs d 0 2 + peakIx (m.sums.map (fun n => (n : Int)))
        let cmin := min m.capU m.capD * 7 / 10
        let cmax := max m.capU m.capD * 13 / 10
        let t := s.sets [(fFONTBURST_PER, per), (fFONTBURST_GAIN, min 30 m.gain), (fFONTTUNE_PWRREF, m.pwrs.sum / m.pwrs.length),
          (fFONTTUNE_TUNED, 1), (fFONTCAPW_CMIN, cmin), (fFONTCAPW_CMAX, min 4095 cmax)]
        let t := (t.bufWrite (t.tplAddr 0) (sampleBytes (scaleTpl (m.echoUp.take t.tplLen)))).bufWrite (t.tplAddr 1)
          (sampleBytes (scaleTpl (m.echoDn.take t.tplLen)))
        let t := ((t.raise [fFONTFLAG_TUNEDONE]).cfgStore 6 per).cfgStore 7 (t.fld fFONTTUNE_PWRREF)
        t.cfgDone d stOK per))

/-- The mean of a list of integers. -/
def meanInt (l : List Int) : Int := if l.isEmpty then 0 else roundDiv l.sum l.length

/-- FONT_ZERO (R452): from the 64 pairs' times (upstream, downstream, in fs), Δt0 and t0; `empty` is a pipe with no echo. -/
def execFontZero (d : Desc) (pairs : List (Int × Int)) (empty : Bool) (s : State) : Host.Outcome State Fault Refusal :=
  .next (s.runDesc d s.fontRole (fun s =>
    if s.on fFONTCTL_EN then s.fail stBUSY
    else if s.spireRefuses then s.spireRefused.fail stCLOCK
    else if empty || pairs.isEmpty then s.fail 0x5A
    else
      let dts := pairs.map (fun p => p.1 - p.2)
      let mean := meanInt dts
      let var := (dts.map (fun x => (x - mean) * (x - mean))).sum
      if 200000 * 200000 * (pairs.length : Int) < var then s.fail 0x5C
      else
        let c : Int := dsArgs d 0 4
        let tm := meanInt (pairs.map (fun p => roundDiv (p.1 + p.2) 2))
        -- A sound speed of 0 leaves t0 open: a free value.
        let t0 := if c = 0 then Config.free s.free % 2 ^ 32
          else s.fit32 (roundDiv (tm * c - (s.fld fFONTGEOL_L : Int) * 10 ^ 12) (1000 * c))
        let dt0 := s.fit32 mean
        let t := (s.sets [(fFONTT0_T0, t0), (fFONTDT0_DT0, dt0)]).used 1
        let t := (t.cfgStore 8 t0).cfgStore 9 dt0
        t.cfgDone d stOK dt0))

/-- FONT_READ: RESULT FLOW, and the reading field of Table 20.3. -/
def execFontRead (d : Desc) (s : State) : Host.Outcome State Fault Refusal :=
  .next (s.runDesc d s.fontRole (fun s => ⟨s, stOK, s.fld fFONTRESFLOW_FLOW, s.fontReading, false⟩))

/-- FONT_QUERY. -/
def execFontQuery (d : Desc) (s : State) : Host.Outcome State Fault Refusal :=
  .next (s.runDesc d s.fontRole (fun s =>
    s.query [rFONTSTAT, rFONTFLAG, rFONTIMP, rFONTSHOT, rFONTCNT, rFONTLATE]))

/-- FONT_TPL_READ: the template of a direction. -/
def execFontTplRead (d : Desc) (s : State) : Host.Outcome State Fault Refusal :=
  .next (s.runDesc d s.fontRole (fun s =>
    if 1 < dsArg d 0 then s.fail stINVALID
    else ⟨s, stOK, 0, s.mem.bytes (s.tplAddr (dsArg d 0)) (2 * s.tplLen), false⟩))

/-- FONT_TPL_WRITE: 16 bytes of a template; the 32nd chunk stores it in the configuration record. -/
def execFontTplWrite (d : Desc) (s : State) : Host.Outcome State Fault Refusal :=
  .next (s.runDesc d s.fontRole (fun s =>
    if 1 < dsArg d 0 ∨ 31 < dsArg d 1 then s.fail stINVALID
    else if s.on fFONTCTL_EN then s.fail stBUSY
    else if s.claimed 19 then s.fail stDENIED
    else
      let t := s.bufWrite (s.tplAddr (dsArg d 0) + 16 * dsArg d 1) ((d.bytes.drop 0x30).take 16)
      if dsArg d 1 = 31 then (t.cfgStore (10 + dsArg d 0) (leNat (t.mem.bytes (t.tplAddr (dsArg d 0)) 512))).cfgDone d stOK 0
      else t.ok))

end Sys2Proof.Machine
end

