-- ==== Sys2Proof/Machine/Recog.lean ====
section
/-! DEFINITION. Shocks, taps and knocks (R482, R483, R485), the fixed recognisers (R484), and the triggers of the
Ringer engines (R489). -/

namespace Sys2Proof.Machine

open Sys2Proof

/-- Update the state of block 21 beside its registers. -/
def State.rgSet (s : State) (f : Ringers → Ringers) : State := { s with ring := f s.ring }

/-! ### Triggers (R489, R497) -/

/-- One engine of block 21. -/
def State.eng (s : State) (n : Nat) : Engine := s.ring.eng.getD n {}

/-- Replace an engine. -/
def State.setEng (s : State) (n : Nat) (e : Engine) : State := s.rgSet (fun r => { r with eng := r.eng.set n e })

/-- The number of bits of a 6-bit mask. -/
def bits6 (m : Nat) : Nat := ((List.range 6).filter (fun i => m.testBit i)).length

/-- Triggers occur for an engine: they become pending, one already pending counts as missed, and an engine that waits
for any of them resumes with all of those shown in TRIG (R489, R497). -/
def State.ringTrig (s : State) (n trigs : Nat) : State :=
  if !(s.fld fRGSTAT_RUNNING).testBit n then s
  else
    let e := s.eng n
    let lost := bits6 (trigs &&& e.pend)
    let t := if lost = 0 then s else (s.countBy (fRGMISS_MISS n) lost).raise [fRGFLAG_TRIGMISS]
    let pend := e.pend ||| trigs
    let hit := pend &&& e.mask
    if e.waiting && hit != 0 then
      (t.setFld fRGSTAT_WAITING (bitTo (t.fld fRGSTAT_WAITING) n false)).setEng n
        { e with waiting := false, pend := pend ^^^ hit, trig := hit, icount := 0 }
    else t.setEng n { e with pend := pend }

/-- Triggers occur for every engine. -/
def State.ringTrigAll (s : State) (trigs : Nat) : State :=
  if trigs = 0 then s else (List.range 8).foldl (fun t n => t.ringTrig n trigs) s

/-! ### The shock detector (R483) -/

/-- What one shock sample did to a detector: rejections, and whether a shock started or was accepted. -/
structure ShockStep where
  det : Shock
  rejected : Nat
  started : Bool
  accepted : Bool

/-- A shock starts at sample `n`. -/
def shockStart (dur n v : Nat) : ShockStep :=
  let bad := decide (255 ≤ v) || decide (dur < 1)
  ⟨{ active := true, len := 1, peak := v, start := n, bad := bad }, b2n bad, true, false⟩

/-- One sample of a shock detector: the start at or above THR, the end below it, the length and peak limits, and the QUIET
interval, which counts from the ending sample. -/
def shockStep (thr dur quiet n v : Nat) (d : Shock) : ShockStep :=
  if !d.active then if thr ≤ v then shockStart dur n v else ⟨d, 0, false, false⟩
  else if !d.ended then
    if thr ≤ v then
      let bad := decide (255 ≤ v) || decide (dur < d.len + 1)
      ⟨{ d with len := d.len + 1, peak := max d.peak v, bad := d.bad || bad }, b2n (bad && !d.bad), false, false⟩
    else if d.bad then ⟨{}, 0, false, false⟩
    else if quiet ≤ 1 then ⟨{ d with active := false, stop := n }, 0, false, true⟩
    else ⟨{ d with ended := true, quiet := 1, stop := n }, 0, false, false⟩
  else if thr ≤ v then
    let r := shockStart dur n v
    ⟨r.det, r.rejected + 1, true, false⟩
  else if quiet ≤ d.quiet + 1 then ⟨{ d with active := false, ended := false }, 0, false, true⟩
  else ⟨{ d with quiet := d.quiet + 1 }, 0, false, false⟩

/-- The value of the selected axis: 3 takes the greatest (R483). -/
def shockAxis (axis x y z : Nat) : Nat :=
  match axis with
  | 0 => x
  | 1 => y
  | 2 => z
  | _ => max x (max y z)

/-! ### Events of the recognisers -/

/-- A recogniser raises its event: a FIFO entry, and the code that TRIG shows. -/
def State.recogEvent (s : State) (k data : Nat) : State :=
  (s.evPush 0 k k data).rgSet (fun r => { r with lastCode := k })

/-- Whether recogniser `k` is enabled. -/
def State.recogOn (s : State) (k : Nat) : Bool := (s.fld fRGCTL_REN).testBit k

/-- Report a TAP of the given peak, if TAP is enabled. -/
def State.tapReport (s : State) (peak : Nat) : State × Bool :=
  if s.recogOn 0 then (s.recogEvent 0 (s.fld fTAPCFG_AXIS + 256 * peak), true) else (s, false)

/-- The end of a pattern that holds one accepted shock: a TAP. -/
def State.tapFlush (s : State) : State × Bool :=
  match s.ring.tapPend with
  | none => (s, false)
  | some p => (s.rgSet (fun r => { r with tapPend := none })).tapReport p.2

/-- An accepted TAP shock: half of a double tap, or a TAP. With DOUBLE TAP enabled a shock is held until no double tap
can come of it. -/
def State.tapAccept (s : State) (start peak : Nat) : State × Bool :=
  if !s.recogOn 1 then s.tapReport peak
  else
    match s.ring.tapPend with
    | some p =>
      let gap := start - p.1
      if s.fld fDTAPCFG_GAPMIN ≤ gap ∧ gap ≤ s.fld fDTAPCFG_GAPMAX then
        ((s.rgSet (fun r => { r with tapPend := none })).recogEvent 1 (p.2 + 256 * peak + 65536 * gap), true)
      else
        let r := s.tapFlush
        (r.1.rgSet (fun x => { x with tapPend := some (start, peak) }), r.2)
    | none => (s.rgSet (fun r => { r with tapPend := some (start, peak) }), false)

/-- One shock sample of TAP and DOUBLE TAP; whether an event was raised. -/
def State.tapSample (s : State) (v : Nat) : State × Bool :=
  if !s.recogOn 0 && !s.recogOn 1 then (s, false)
  else
    let n := s.ring.kn.n
    let e := shockStep (s.fld fTAPCFG_THR) (s.fld fTAPCFG_DUR) (s.fld fTAPCFG_QUIET) n v s.ring.tap
    let s := s.rgSet (fun r => { r with tap := e.det })
    let a := if 0 < e.rejected then s.tapFlush else (s, false)
    let b := if e.accepted then a.1.tapAccept e.det.start e.det.peak else (a.1, false)
    let c := match b.1.ring.tapPend with
      | some p =>
        let late := decide (p.1 + s.fld fDTAPCFG_GAPMAX ≤ n)
        let coming := e.det.active && !e.det.bad && decide (e.det.start ≤ p.1 + s.fld fDTAPCFG_GAPMAX)
        if late && !coming then b.1.tapFlush else (b.1, false)
      | none => (b.1, false)
    (c.1, a.2 || b.2 || c.2)

/-! ### The knock recogniser (R485) -/

/-- Update the knock recogniser. -/
def State.knSet (s : State) (f : Knock → Knock) : State := s.rgSet (fun r => { r with kn := f r.kn })

/-- A rejected pattern ends and counts, except during a hold-off (R485, R497). -/
def State.knReject (s : State) (n : Nat) : State :=
  let t := s.knSet (fun k => { k with count := 0, due := none })
  if n = 0 ∨ 0 < s.ring.kn.hold then t else (t.countBy fKNCNT_REJECTS n).raise [fRGFLAG_KNREJ]

/-- The DATA of a KNOCK. -/
def Knock.data (k : Knock) : Nat := k.count + 256 * k.peak + 65536 * (min 65535 k.gap)

/-- The FIFO entry of a knock. -/
def State.knEntry (s : State) (data : Nat) : State := (s.evPush 4 0 6 data).rgSet (fun r => { r with lastCode := 6 })

/-- A knock is recognised: KNLAST, KNOCKS, the KNOCK wake, and a FIFO entry in RUN and DOZE. After a CRYPT wake by KNOCK
Rhoco writes the entry itself. During a hold-off nothing happens. -/
def State.knRecognise (s : State) : State × Bool :=
  let k := s.ring.kn
  let t := s.knSet (fun q => { q with count := 0, due := none })
  if 0 < k.hold then (t, false)
  else
    let t := t.knSet (fun q => { q with hold := (s.fld fKNHOLD_HOLD * 16384 + 99) / 100 })
    let t := (t.sets [(fKNLASTL_TIME, s.now % 2 ^ 32), (fKNLASTH_TIME, s.now / 2 ^ 32)]).count fKNCNT_KNOCKS
    match s.slp.st with
    | .run | .doze => ((((t.raise [fRGFLAG_KNOCK]).knEntry k.data).wake 4), true)
    | .crypt =>
      let u := t.wake 4
      if u.slp.st = .run then (u.knEntry k.data, true) else (u, false)
    | _ => ((t.raise [fRGFLAG_KNOCK]).wake 4, true)

/-- A shock of a knock pattern is accepted. -/
def State.knAccept (s : State) (d : Shock) : State × Bool :=
  let k := s.ring.kn
  let need := 2 + s.fld fKNCFG_THREE
  let first := fun (t : State) => t.knSet (fun q =>
    { q with count := 1, last := d.start, stop := d.stop, peak := d.peak, gap := 0, due := none })
  if k.count = 0 then (first s, false)
  else
    let gap := d.start - k.last
    if s.fld fKNGAP_GAPMIN ≤ gap ∧ gap ≤ s.fld fKNGAP_GAPMAX then
      let t := s.knSet (fun q => { q with
        count := q.count + 1, last := d.start, stop := d.stop, peak := max q.peak d.peak, gap := gap })
      if k.count + 1 < need then (t, false)
      else if d.stop + s.fld fKNHOLD_GUARD ≤ k.n then t.knRecognise
      else (t.knSet (fun q => { q with due := some (d.stop + s.fld fKNHOLD_GUARD) }), false)
    else (first (s.knReject 1), false)

/-- One shock sample of the knock recogniser; whether a knock was recognised. -/
def State.knSample (s : State) (v : Nat) : State × Bool :=
  if !s.on fKNCFG_EN then (s.knSet (fun k => { n := k.n }), false)
  else
    let n := s.ring.kn.n
    let e := shockStep (s.fld fKNCFG_THR) (s.fld fKNCFG_DUR) (s.fld fKNCFG_QUIET) n v s.ring.kn.det
    let s := s.knSet (fun k => { k with det := e.det, hold := k.hold - 1 })
    let s := if 0 < e.rejected then s.knReject e.rejected else s
    -- No shock may start within GUARD of the last accepted shock.
    let k := s.ring.kn
    let s := if e.started && decide (0 < k.count) && decide (n ≤ k.stop + s.fld fKNHOLD_GUARD) && s.on fKNHOLD_GUARD then
      s.knReject 1 else s
    let r := if e.accepted then s.knAccept e.det else (s, false)
    let k := r.1.ring.kn
    match k.due with
    | some t => if t ≤ n then (r.1.knRecognise.1, true) else r
    | none =>
      let coming := k.det.active && !k.det.bad && decide (k.det.start ≤ k.last + s.fld fKNGAP_GAPMAX)
      if decide (0 < k.count) && decide (k.last + s.fld fKNGAP_GAPMAX < n) && !coming then (r.1.knReject 1, r.2) else r

/-! ### The rate of the recognisers (R484, R497) -/

/-- The rate exponent and full scale the accelerometer feeds the recognisers with: the stream's or capture's, or the watch's
12.5 Hz and ±2 g. -/
def State.recogRate (s : State) : Option (Nat × Nat) :=
  if s.on fMOTSTAT_ARUN then some (min 9 (s.fld fMOTCTL_ODR), s.fld fMOTCTL_AFS)
  else if s.on fMOTSTAT_WATCH then some (0, 0)
  else none

/-- The recognisers restart their windows and means; patterns in progress end without an event. -/
def State.recogRestart (s : State) : State :=
  s.rgSet (fun r => { r with
    tap := {}, tapPend := none, kn := { n := r.kn.n, hold := r.kn.hold }, win := [], s1 := none, s2 := none,
    sinceStep := none, row := 0, ffRun := 0, ffDone := false, seOn := false, seRun := 0, tilt := none,
    tiltRun := (0, 0, 0) })

/-- Whether recogniser `k` idles at a rate: STEP and FREEFALL need 25 Hz, the others any rate. -/
def rateLow (k : Nat) : Option (Nat × Nat) → Bool
  | none => true
  | some r => (k = 2 || k = 3) && r.1 = 0

/-- Bring the rate and RATELOW up to date after a change of the accelerometer or of REN. -/
def State.recogSync (s : State) : State :=
  let r := s.recogRate
  let s := if r = s.ring.rate then s else s.recogRestart.rgSet (fun x => { x with rate := r })
  let low := ((List.range 6).map (fun k => if s.recogOn k && rateLow k r then 2 ^ k else 0)).sum
  let new := low &&& (low ^^^ s.fld fRGSTAT_RATELOW)
  let t := s.setFld fRGSTAT_RATELOW low
  if new = 0 then t else t.raise [fRGFLAG_RATE]

/-- Whether recogniser `k` runs. -/
def State.recogRuns (s : State) (k : Nat) : Bool := s.recogOn k && !rateLow k s.ring.rate

/-! ### STEP, FREEFALL, SETTLE and TILT (Table 22.1) -/

/-- STEP on one sample: a peak of S above STHR that follows the last by 0.25 s to 2.0 s, counted from the fourth in a row
on. S is kept 64 times over, so that the mean over 64 samples stays whole. -/
def State.stepSample (s : State) (k afs : Nat) : State × Bool :=
  if !s.recogRuns 2 then (s, false)
  else
    let a := (s.ring.win.take 64).map (fun p => (p.1.natAbs + p.2.1.natAbs + p.2.2.natAbs : Nat))
    if a.length < 64 then (s, false)
    else
      let v : Int := 64 * (a.headD 0 : Int) - (a.sum : Int)
      let r := s.ring
      let peak := match r.s1, r.s2 with
        | some p, some q => decide (q < p) && decide (v ≤ p) &&
            decide ((64 * s.fld fSTEPCFG_STHR * 128 : Nat) < p * (2 ^ afs : Nat))
        | _, _ => false
      let c := r.sinceStep.map (· + 1)
      let s := s.rgSet (fun x => { x with s2 := r.s1, s1 := some v, sinceStep := c })
      let early := match c with
        | some n => decide (8 * n < 25 * 2 ^ k)
        | none => false
      if !peak || early then (s, false)
      else
        let inRow := match c with
          | some n => decide (n ≤ 25 * 2 ^ k)
          | none => false
        let row := if inRow then r.row + 1 else 1
        let add := if row < 4 then 0 else if row = 4 then 4 else 1
        let s := s.rgSet (fun x => { x with sinceStep := some 0, row := row, sinceEv := x.sinceEv + add })
        let s := s.setFld fSTEPCNT_COUNT (s.fld fSTEPCNT_COUNT + add)
        let every := s.fld fSTEPCFG_EVERY
        if 0 < every ∧ every ≤ s.ring.sinceEv then
          ((s.rgSet (fun x => { x with sinceEv := x.sinceEv % every })).recogEvent 2 (s.fld fSTEPCNT_COUNT), true)
        else (s, false)

/-- FREEFALL on one sample. -/
def State.fallSample (s : State) (k afs : Nat) (x y z : Int) : State × Bool :=
  if !s.recogRuns 3 then (s, false)
  else
    let low := decide ((max x.natAbs (max y.natAbs z.natAbs)) * 2 ^ afs < s.fld fFFCFG_FFTHR * 128)
    if !low then (s.rgSet (fun r => { r with ffRun := 0, ffDone := false }), false)
    else
      let run := s.ring.ffRun + 1
      let need := max 1 ((s.fld fFFCFG_FFDUR * 2 ^ k + 19) / 20)
      let t := s.rgSet (fun r => { r with ffRun := run })
      if decide (need ≤ run) && !s.ring.ffDone then
        ((t.rgSet (fun r => { r with ffDone := true })).recogEvent 3 (min 65535 (openQuot (run * 80) (2 ^ k)).toNat), true)
      else (t, false)

/-- Whether a sample differs from the mean of `l` by more than SETHR mg. -/
def offMean (sethr afs : Nat) (l : List Int) (v : Int) : Bool :=
  decide (sethr * 32768 * l.length < (v * l.length - l.sum).natAbs * 2000 * 2 ^ afs)

/-- SETTLE on one sample. -/
def State.settleSample (s : State) (k afs : Nat) (x y z : Int) : State × Bool :=
  if !s.recogRuns 4 then (s, false)
  else
    let n := (25 * 2 ^ k + 1) / 2
    let w := s.ring.win.take n
    if w.length < n then (s, false)
    else
      let h := s.fld fSETCFG_SETHR
      let off := offMean h afs (w.map (·.1)) x || offMean h afs (w.map (·.2.1)) y || offMean h afs (w.map (·.2.2)) z
      if off then (s.rgSet (fun r => { r with seOn := true, seRun := 0 }), false)
      else if !s.ring.seOn then (s, false)
      else
        let run := s.ring.seRun + 1
        if (s.fld fSETCFG_SEDUR * 5 * 2 ^ k + 3) / 4 ≤ run then
          ((s.rgSet (fun r => { r with seOn := false, seRun := 0 })).recogEvent 4 0, true)
        else (s.rgSet (fun r => { r with seRun := run }), false)

/-- The deviation of a TILT average from its reference, in 1/256 LSB at ±2 g. -/
def State.tiltDev (s : State) (i : Nat) (a : Int) : Int := a - signed 32 (s.fld (fTILTREF_REF i))

/-- A deviation in units of 0.5 mg (2,097.152 of those units) as 16 bits. -/
def tiltMg (d : Int) : Nat := wrapInt 16 (clampInt (-32768) 32767 (openQuot (d * 1000) 2097152))

/-- TILT on one sample. -/
def State.tiltSample (s : State) (k afs : Nat) (x y z : Int) : State × Bool :=
  if !s.recogRuns 5 then (s, false)
  else
    let sc : Int := 256 * (2 ^ afs : Nat)
    let tau := s.fld fTILTCFG_TAU
    let a := match s.ring.tilt with
      | none => (x * sc, y * sc, z * sc)
      | some p => (Config.tiltStep p.1 (x * sc) k tau, Config.tiltStep p.2.1 (y * sc) k tau, Config.tiltStep p.2.2 (z * sc) k tau)
    let dx := s.tiltDev 0 a.1
    let dy := s.tiltDev 1 a.2.1
    let dz := s.tiltDev 2 a.2.2
    let far := fun (d : Int) => decide (s.fld fTILTCFG_TTHR * 2097152 < d.natAbs * 1000)
    let run := fun (d : Int) (n : Nat) => if far d then n + 1 else 0
    let q := s.ring.tiltRun
    let q := (run dx q.1, run dy q.2.1, run dz q.2.2)
    let back := !far dx && !far dy && !far dz
    let s := s.rgSet (fun r => { r with tilt := some a, tiltRun := q, tiltDone := r.tiltDone && !back })
    let need := max 1 ((s.fld fTILTCFG_TDUR * 25 * 2 ^ k + 1) / 2)
    if !s.ring.tiltDone && decide (need ≤ max q.1 (max q.2.1 q.2.2)) then
      ((s.rgSet (fun r => { r with tiltDone := true })).recogEvent 5 (tiltMg dx + 2 ^ 16 * tiltMg dy + 2 ^ 32 * tiltMg dz), true)
    else (s, false)

/-- An accelerometer sample, stream or watch, for the recognisers and engines: a suspect one is not used and restarts the
windows (R484, R489, Table 22.5). -/
def State.accSample (s : State) (x y z : Int) (bad : Bool) : State :=
  if bad then s.recogRestart
  else
    match s.ring.rate with
    | none => s
    | some (k, afs) =>
      let s := s.rgSet (fun r => { r with
        ax := x, ay := y, az := z, win := (x, y, z) :: r.win.take (max 63 ((25 * 2 ^ k + 1) / 2)) })
      let a := s.stepSample k afs
      let b := a.1.fallSample k afs x y z
      let c := b.1.settleSample k afs x y z
      let d := c.1.tiltSample k afs x y z
      d.1.ringTrigAll (1 + 8 * b2n (a.2 || b.2 || c.2 || d.2))

/-- SHOCK_SAMPLE (R482, R483, R485): the held peaks of the three axes, in units of 7.8125 mg up to 255. In CRYPT only the
knock recogniser runs; in OFF nothing does. -/
def execShockSample (x y z : Nat) (s : State) : Host.Outcome State Fault Refusal :=
  .next (
    if (s.recogRate.isNone && !(s.slp.st = .crypt && s.on fPWRCTL_MWATCH)) || s.slp.st = .off || !s.blockOn 21 then s
    else
      let x := min 255 x
      let y := min 255 y
      let z := min 255 z
      let s := s.knSet (fun k => { k with n := k.n + 1 })
      let kv := shockAxis (s.fld fKNCFG_AXIS) x y z
      if s.slp.st = .crypt then (s.knSample kv).1
      else
        let s := s.sets [(fRGSHOCK_X, x), (fRGSHOCK_Y, y), (fRGSHOCK_Z, z)]
        let tv := shockAxis (s.fld fTAPCFG_AXIS) x y z
        let a := s.tapSample tv
        let b := a.1.knSample kv
        b.1.ringTrigAll (2 * b2n (decide (s.fld fTAPCFG_THR ≤ tv)) + 8 * b2n (a.2 || b.2)))

end Sys2Proof.Machine
end

