-- ==== Sys2Proof/Machine/Motion.lean ====
section
/-! DEFINITION. Motion sensing (chapter 21): the strobe grid, records, streams and captures, the inclinometer, the
self-test of the sensors, and the descriptors. -/

namespace Sys2Proof.Machine

open Sys2Proof

/-- Update motion's own state. -/
def State.motSet (s : State) (f : Motion → Motion) : State := { s with mot := f s.mot }

/-- The rate exponent k in force, and the grid period in root cycles (R462, R463). -/
def State.motK (s : State) : Nat := min 9 (s.fld fMOTCTL_ODR)
def State.motP (s : State) : Nat := 15728640 / 2 ^ s.motK

/-- Whether the accelerometer runs low-noise: ALP acts only up to 400 Hz (R462). -/
def State.motLN (s : State) : Bool := !s.on fMOTCTL_ALP || decide (5 < s.motK)

/-- The instant of grid index `n` as line time and root cycles; under LF timing the first crystal edge at or after it
(R463). -/
def State.motInstant (s : State) (n : Nat) : Nat × Nat :=
  let c := s.mot.tFrac + n * s.motP
  if s.on fCLKSTAT_PLLLOCK then ((s.mot.t + c / 6000) % 2 ^ 48, c % 6000)
  else ((s.mot.t + (c + 5999) / 6000) % 2 ^ 48, 0)

/-- The first grid index whose instant is not past (R469). -/
def State.motFirst (s : State) : Nat :=
  if past s.mot.t s.now then
    let e := ((s.now + 2 ^ 48 - s.mot.t) % 2 ^ 48) * 6000
    (e - s.mot.tFrac + s.motP - 1) / s.motP
  else 0

/-- Instants that are not recorded. -/
def State.motMiss (s : State) (n : Nat) : State := if n = 0 then s else s.countBy fMOTMISS_MISSED n

/-! ### Flags and events (Table 21.5) -/

/-- A MOTFLAG bit sets; Rhoco posts the event when it rises (R477). -/
def State.motFlag (s : State) (f : Fld) (code : Nat) (data : List Byte) : State :=
  if s.on f then s
  else
    let t := s.setFld f 1
    if s.rhocoUp then t.event code data else t

/-- MOTION_FAULT names its flag bit. -/
def State.motFault (s : State) (f : Fld) : State := s.motFlag f 0x0500 (leBytes 1 f.lo)

/-! ### Records (R465 to R467) -/

/-- Store one whole record in window 0, or drop it whole: its two words count. After a gap marker a time record is
owed (R466, R467). -/
def State.motStore (s : State) (r : Nat × Nat) : State :=
  let owed := s.fld (fSBWDROP_DROPPED 0) != 0
  if !s.on (fSBWCFG_EN 0) || decide (s.winFree 0 < 8 + 4 * b2n owed) then
    (s.winDrop 0 2).motSet (fun m => { m with timeOwed := true })
  else
    let t := if owed then s.winMarker 0 0 else s
    ((t.winStore 0 r.1 0).winStore 0 r.2 0).winSync 0

/-- The records that waited while Font held port A go to the window (R467). -/
def State.motDrain (s : State) : State :=
  if s.on fFONTSTAT_SHOT then s
  else
    let q := s.mot.fifo
    q.foldl (fun t r => t.motStore r) (s.motSet (fun m => { m with fifo := [] }))

/-- Write one record by way of the motion FIFO of 512 words (R467). -/
def State.motPut (s : State) (r : Nat × Nat) : State :=
  let s := s.motDrain
  if s.on fFONTSTAT_SHOT then
    if s.mot.fifo.length < 256 then s.motSet (fun m => { m with fifo := m.fifo ++ [r] })
    else (s.winDrop 0 2).motSet (fun m => { m with timeOwed := true })
  else s.motStore r

/-- A time record (Table 21.2) of an instant. -/
def State.timeRecord (s : State) (i : Nat × Nat) : Nat × Nat :=
  (i.1 % 2 ^ 32, i.1 / 2 ^ 32 + i.2 % 2 ^ 13 * 2 ^ 16 + (3 + s.fld fLPSTAT_SYNC) * 2 ^ 29)

/-- A sample record (Table 21.2). -/
def sampleRecord (kind n : Nat) (v : Int × Int × Int) (sat susp : Bool) : Nat × Nat :=
  let h := fun (i : Int) => wrapInt 16 (clampInt (-32768) 32767 i)
  (h v.1 + h v.2.1 * 2 ^ 16, h v.2.2 + n % 2048 * 2 ^ 16 + b2n sat * 2 ^ 27 + b2n susp * 2 ^ 28 + kind * 2 ^ 29)

/-- Whether an axis value is outside −32,767 to +32,766 (Table 21.6). -/
def axisSat (v : Int × Int × Int) : Bool :=
  [v.1, v.2.1, v.2.2].any (fun i => decide (i < -32767) || decide (32766 < i))

/-- Rhoco sends what has filled of window 0 in STREAM frames of 64 bytes on RING 2; `all` also sends a last short frame
(R474). -/
def State.motUpload : Nat → Bool → State → State
  | 0, _, s => s
  | n + 1, all, s =>
    let size := s.winSize 0
    let have_ := (s.fld (fSBWWP_WP 0) + 2 * size - s.mot.upPtr) % (2 * size)
    let k := min 64 have_
    if !s.mot.upload || have_ = 0 || (!all && decide (have_ < 64)) then s
    else
      let bytes := (List.range k).map (fun i => s.mem.byte (0x21000000 + s.winBase 0 + (s.mot.upPtr + i) % size))
      let t := s.queueUp 0x6 2 bytes
      let p := (s.mot.upPtr + k) % (2 * size)
      State.motUpload n all (t.motSet (fun m => { m with upPtr := p, upSent := m.upSent ++ [(t.node.seqTx.getD 2 0, p)] }))

/-- Send what can be sent now. -/
def State.motSend (s : State) (all : Bool) : State := State.motUpload (s.winSize 0 / 64 + 2) all s

/-- The frames of RING 2 up to SEQ `q` are acknowledged: Rhoco frees what they carried of the window (R474). -/
def State.motAcked (s : State) (q : Nat) : State :=
  let done := s.mot.upSent.filter (fun p => decide ((q + 256 - p.1) % 256 < 128))
  match done.getLast? with
  | none => s
  | some p =>
    ((s.setFld (fSBWRP_RP 0) p.2).motSet (fun m => { m with
      upSent := m.upSent.filter (fun x => decide (128 ≤ (q + 256 - x.1) % 256)) })).winSync 0

/-! ### Starting and stopping -/

/-- The watch runs while MWATCH = 1 and AEN = 0 (R472). -/
def State.motWatch (s : State) : State :=
  (s.setFld fMOTSTAT_WATCH (b2n (s.on fPWRCTL_MWATCH && !s.on fMOTCTL_AEN))).recogSync

/-- End a stream or capture: nothing more is recorded. -/
def State.motEnd (s : State) : State :=
  (s.sets [(fMOTSTAT_ARMED, 0), (fMOTSTAT_CAPRUN, 0), (fMOTTH_ARM, 0)]).motSet (fun m => { m with mode := 0 })

/-- Switch the sensors on or off as AEN and GEN ask. A start that R60 refuses leaves the bit 0 (R462). -/
def State.motEnable (s : State) (aen gen : Bool) : State :=
  let gen := gen && s.role != .loop
  let hadA := s.on fMOTCTL_AEN
  let hadG := s.on fMOTCTL_GEN
  let costA := b2n (decide (5 < s.motK))
  let s := if aen && !hadA then
      if s.tokensRefuse (s.needNow + costA) then s.tokenRefused
      else (s.sets [(fMOTCTL_AEN, 1), (fMOTSTAT_ARUN, 1)]).motSet (fun m => { m with
        setA := false, lastA := [], runA := [0, 0, 0], tmoA := 0 })
    else if !aen && hadA then
      let t := (s.sets [(fMOTCTL_AEN, 0), (fMOTSTAT_ARUN, 0)]).motSet (fun m => { m with setA := false })
      if 1 ≤ t.mot.mode ∧ t.mot.mode ≤ 3 then t.motEnd else t
    else s
  let s := if gen && !hadG then
      if s.tokensRefuse (s.needNow + 2) then s.tokenRefused
      else (s.sets [(fMOTCTL_GEN, 1), (fMOTSTAT_GRUN, 1)]).motSet (fun m => { m with setG := false, tmoG := 0 })
    else if !gen && hadG then
      let t := (s.sets [(fMOTCTL_GEN, 0), (fMOTSTAT_GRUN, 0)]).motSet (fun m => { m with setG := false })
      if !t.on fMOTCTL_AEN && 1 ≤ t.mot.mode && t.mot.mode ≤ 3 then t.motEnd else t
    else s
  s.motWatch.retoken

/-- What every start shares: MOTMISS clears, a time record is owed, and the grid is anchored at a time. -/
def State.motAnchor (s : State) (mode t frac n : Nat) : State :=
  (s.sets [(fMOTMISS_MISSED, 0), (fMOTSTAT_SHED, 0), (fMOTSTAT_SPIRE, s.fld fCLKSTAT_PLLLOCK)]).motSet (fun m => { m with
    mode := mode, t := t, tFrac := frac, n := n, timeOwed := true, recorded := 0, spire := s.on fCLKSTAT_PLLLOCK,
    upload := false, upPtr := s.fld (fSBWWP_WP 0), upSent := [] })

/-- GO: a stream starts with NCAP = 0, at the line time and fraction of now (R463, R468). -/
def State.motGo (s : State) : State :=
  if s.mot.mode != 0 || s.fld fMOTCAP_NCAP != 0 || !(s.on fMOTCTL_AEN || s.on fMOTCTL_GEN) then s
  else s.motAnchor 1 s.now s.clk.frac 0

/-- A capture whose time is past (R469): LATE, and under LATE_RUN the grid goes on from the first instant not past. -/
def State.motLate (s : State) : State :=
  let d := lateness s.mot.t s.now
  let s := (s.sets [(fMOTTH_LATE, 1), (fMOTLATE_LATE, d)]).motFlag fMOTFLAG_LATE 0x0502 (leBytes 4 d)
  if s.on fMOTCTL_LATEDROP then s.motEnd.motEnable false false
  else
    let n := min s.motFirst (s.fld fMOTCAP_NCAP)
    (s.motMiss (n - s.mot.n)).motSet (fun m => { m with n := max m.n n })

/-- Arm a capture at a time (R468, R469): the sensors that do not run start at once, the gyroscope with GEN. -/
def State.motArm (s : State) (t : Nat) (gen : Bool) : State :=
  let s := s.setFld fMOTTH_LATE 0
  let s := s.motEnable true (gen || s.on fMOTCTL_GEN)
  if !s.on fMOTCTL_AEN then s.setFld fMOTTH_ARM 0
  else
    let s := (s.motAnchor 2 (t % 2 ^ 48) 0 0).sets [(fMOTSTAT_ARMED, 1), (fMOTTH_ARM, 1)]
    if past s.mot.t s.now then s.motLate else s

/-- After a step of line time: an armed capture is tested, a stream owes a time record and takes up the grid at the first
instant not past (R463, R466, R469, R476). -/
def State.motRetest (s : State) : State :=
  if s.mot.mode = 2 then if past s.mot.t s.now then s.motLate else s
  else if s.mot.mode = 1 ∨ s.mot.mode = 3 then
    let n := s.motFirst
    let n := if s.mot.mode = 3 then min n (s.fld fMOTCAP_NCAP) else n
    (s.motMiss (n - s.mot.n)).motSet (fun m => { m with timeOwed := true, n := max m.n n })
  else s

/-! ### Register writes -/

/-- The fields that do not take a write while AEN = 1 (R476). -/
def motFixed : List Fld :=
  [fMOTCTL_ODR, fMOTCTL_AFS, fMOTCTL_GFS, fMOTCTL_ALP, fMOTCTL_HPK, fMOTCTL_LPK, fMOTCTL_INCLK]

/-- A write of MOTCTL. In Loop role every gyroscope field reads 0 (R472). -/
def State.motWriteCtl (s : State) (v : Word) : State :=
  let old := s.reg rMOTCTL
  let v := if s.role = .loop then putFld (putFld v fMOTCTL_GEN 0) fMOTCTL_GFS 0 else v
  let busy := s.on fMOTCTL_AEN && motFixed.any (fun f => fldOf v f != fldOf old f)
  let w := if s.on fMOTCTL_AEN then motFixed.foldl (fun x f => putFld x f (fldOf old f)) v else v
  let w := putFld (putFld w fMOTCTL_AEN (fldOf old fMOTCTL_AEN)) fMOTCTL_GEN (fldOf old fMOTCTL_GEN)
  let t := s.plainWrite rMOTCTL w
  let t := if busy then t.raise [fMOTFLAG_CFGBUSY] else t
  t.motEnable (fldOf v fMOTCTL_AEN = 1) (fldOf v fMOTCTL_GEN = 1)

/-- A write of a register of block 20. -/
def State.motWrite (s : State) (a : Nat) (v : Word) : State :=
  if a = rMOTCTL then s.motWriteCtl v
  else if a = rMOTGO then if fldOf v fMOTGO_GO = 1 then s.motGo else s
  else if a = rMOTTH then
    let was := s.fld fMOTTH_ARM
    let t := s.plainWrite a v
    if fldOf v fMOTTH_ARM = 0 then
      if t.mot.mode = 2 then t.motEnd else t
    else if t.mot.mode != 0 then t.setFld fMOTTH_ARM was
    else if t.fld fMOTCAP_NCAP = 0 then t
    else t.motArm (t.fld fMOTTL_TIME + t.fld fMOTTH_TIME * 2 ^ 32) false
  else s.plainWrite a v

/-- MOTGO (R468): a write of MOTGO. -/
def execMotgo (w : World) (v : Word) (s : State) : Host.Outcome State Fault Refusal :=
  .next (let r := s.vet w rMOTGO v
    r.st.motWrite rMOTGO r.v)

/-- MOTION_ARM (R469): a write of MOTTH. -/
def execMotionArm (w : World) (v : Word) (s : State) : Host.Outcome State Fault Refusal :=
  .next (let r := s.vet w rMOTTH v
    r.st.motWrite rMOTTH r.v)

/-! ### The strobe -/

/-- The runs of identical values per axis (Table 21.6). -/
def stuckRuns (last : List Int) (runs : List Nat) (now : List Int) : List Nat :=
  (List.range 3).map (fun i => if last.getD i 0 = now.getD i 0 ∧ last.length = 3 then runs.getD i 0 + 1 else 1)

/-- The accelerometer's record of grid instant `n`; whether the sample is suspect or saturated. -/
def State.motAccel (s : State) (n : Nat) (x : StrobeIn) : State × Bool :=
  let v := [x.acc.1, x.acc.2.1, x.acc.2.2]
  let runs := stuckRuns s.mot.lastA s.mot.runA v
  let stuck := s.motLN && decide (3 ≤ s.motK) && runs.any (fun r => decide (1024 ≤ r))
  let s := s.motSet (fun m => { m with lastA := v, runA := runs })
  let out := if s.fld fMOTCTL_HPK = 0 ∧ s.fld fMOTCTL_LPK = 0 then x.acc else x.accF
  let sat := axisSat out
  let s := if stuck then s.motFault fMOTFLAG_STUCK else s
  let s := if sat then s.raise [fMOTFLAG_SAT] else s
  let r := sampleRecord 1 n out sat stuck
  ((s.sets [(fMOTLASTA_WORD 0, r.1), (fMOTLASTA_WORD 1, r.2)]).motPut r, sat || stuck)

/-- The gyroscope's record of grid instant `n`. -/
def State.motGyro (s : State) (n : Nat) (x : StrobeIn) : State :=
  let out := if s.fld fMOTCTL_HPK = 0 ∧ s.fld fMOTCTL_LPK = 0 then x.gyr else x.gyrF
  let sat := axisSat out
  let s := if sat then s.raise [fMOTFLAG_SAT] else s
  let r := sampleRecord 2 n out sat s.mot.hot
  (s.sets [(fMOTLASTG_WORD 0, r.1), (fMOTLASTG_WORD 1, r.2)]).motPut r

/-- The time record an instant owes (R466). -/
def State.motTime (s : State) (n : Nat) : State :=
  if s.mot.timeOwed || n % 2048 = 0 || s.fld (fSBWDROP_DROPPED 0) != 0 then
    (s.motSet (fun m => { m with timeOwed := false })).motPut (s.timeRecord (s.motInstant n))
  else s

/-- One grid instant of a stream or a running capture (R463 to R468). -/
def State.motInstantRun (s : State) (x : StrobeIn) : State :=
  let n := s.mot.n
  let spire := s.on fCLKSTAT_PLLLOCK
  let s := if s.mot.spire = spire then s
    else (s.sets [(fMOTFLAG_TIMING, 1), (fMOTSTAT_SPIRE, b2n spire)]).motSet (fun m => { m with
      spire := spire, timeOwed := true })
  let s := if n % 1024 = 0 then s.motSet (fun m => { m with hot := x.hot }) else s
  let s := if s.mot.hot && s.on fMOTCTL_GEN then s.raise [fMOTFLAG_HOT] else s
  let a := s.on fMOTCTL_AEN
  let g := s.on fMOTCTL_GEN
  let early := (a && !s.mot.setA) || (g && !s.mot.setG)
  let link := (a && s.mot.setA && x.accBad) || (g && s.mot.setG && x.gyrBad)
  let s := if early then s.raise [fMOTFLAG_NOTREADY] else s
  let s := if link then s.motFault fMOTFLAG_LINK else s
  let s := if early || link then s.motMiss 1 else s
  let doA := a && s.mot.setA && !x.accBad
  let doG := g && s.mot.setG && !x.gyrBad
  let s := if doA || doG then s.motTime n else s
  let s := if link || !(doA || doG) then s.motSet (fun m => { m with timeOwed := true }) else s
  let r := if doA then s.motAccel n x else (s, true)
  let s := if doG then r.1.motGyro n x else r.1
  let s := s.motSet (fun m => { m with
    n := n + 1, recorded := m.recorded + b2n (doA || doG), tmoA := if doA then 0 else m.tmoA
    tmoG := if doG then 0 else m.tmoG })
  let s := s.motSend false
  if a && s.mot.setA then s.accSample x.acc.1 x.acc.2.1 x.acc.2.2 r.2 else s

/-- MOTION_STROBE (R463): the strobe of the next grid instant, which acts when its time has come; the watch's strobe only
feeds the recognisers (R472), and in CRYPT those do not run. An instant that falls in a slice of the block is missed (Table 25.2). -/
def execMotionStrobe (x : StrobeIn) (s : State) : Host.Outcome State Fault Refusal :=
  .next (
    if s.slp.st = .off || s.slp.st = .crypt || !s.blockOn 20 then s
    else if s.mot.mode = 1 ∨ s.mot.mode = 2 ∨ s.mot.mode = 3 then
      if !reached (s.motInstant s.mot.n).1 s.now then s
      else if s.mot.mode != 1 && decide (s.fld fMOTCAP_NCAP ≤ s.mot.n) then s
      else if s.inSlice 50 53 then (s.motMiss 1).motSet (fun m => { m with timeOwed := true, n := m.n + 1 })
      else
        let s := if s.mot.mode = 2 then
            (s.sets [(fMOTSTAT_ARMED, 0), (fMOTSTAT_CAPRUN, 1), (fMOTTH_ARM, 0)]).motSet (fun m => { m with mode := 3 })
          else s
        s.motInstantRun x
    else if s.on fMOTSTAT_WATCH && s.mot.mode = 0 then
      s.accSample x.acc.1 x.acc.2.1 x.acc.2.2 (x.accBad || axisSat x.acc)
    else s)

/-- A capture has ended: AEN and GEN clear, CAPDONE sets and MOTION_CAPTURED is posted (R468, Table 21.5). -/
def State.motCaptured (s : State) : State :=
  let data := leBytes 2 (min 65535 s.mot.recorded) ++ leBytes 2 (s.fld fMOTMISS_MISSED)
  let t := s.motDrain.motSend true
  let t := (t.motEnd.motEnable false false).setFld fMOTFLAG_CAPDONE 1
  if t.rhocoUp then t.event 0x0501 data else t

/-- CAPTURE_END (R468): at t + N × P. -/
def execCaptureEnd (s : State) : Host.Outcome State Fault Refusal :=
  .next (
    if (s.mot.mode = 2 ∨ s.mot.mode = 3) ∧ reached (s.motInstant (s.fld fMOTCAP_NCAP)).1 s.now then
      -- Instants that no strobe recorded were not recorded.
      (s.motMiss (s.fld fMOTCAP_NCAP - s.mot.n)).motCaptured
    else s)

/-- SENSOR_SETTLED (R479): a sensor's start-up interval ends. -/
def execSensorSettled (gyro : Bool) (s : State) : Host.Outcome State Fault Refusal :=
  .next (
    if gyro then if s.on fMOTSTAT_GRUN then s.motSet (fun m => { m with setG := true }) else s
    else if s.on fMOTSTAT_ARUN then s.motSet (fun m => { m with setA := true })
    else s)

/-- MOTION_DATA_TIMEOUT (R477): the instant is missed; after 8 in a row the sensor starts up again. The recognisers
restart their windows (Table 22.5). -/
def execMotionDataTimeout (gyro : Bool) (s : State) : Host.Outcome State Fault Refusal :=
  .next (
    if gyro then
      if s.on fMOTSTAT_GRUN && s.mot.setG && (s.mot.mode = 1 || s.mot.mode = 3) then
        let s := ((s.motFault fMOTFLAG_TMO).motMiss 1).motSet (fun m => { m with
          n := m.n + 1, timeOwed := true, tmoG := m.tmoG + 1 })
        if 8 ≤ s.mot.tmoG then s.motSet (fun m => { m with setG := false, tmoG := 0 }) else s
      else s
    else if s.on fMOTSTAT_ARUN && s.mot.setA && (s.mot.mode = 1 || s.mot.mode = 3) then
      let s := (((s.motFault fMOTFLAG_TMO).motMiss 1).recogRestart).motSet (fun m => { m with
        n := m.n + 1, timeOwed := true, tmoA := m.tmoA + 1 })
      if 8 ≤ s.mot.tmoA then s.motSet (fun m => { m with setA := false, tmoA := 0 }) else s
    else if s.on fMOTSTAT_WATCH then (s.motFault fMOTFLAG_TMO).recogRestart
    else s)

/-! ### Shedding (R476) -/

/-- Shed step 1: the gyroscope stops; a capture goes on without it. -/
def State.motShed1 (s : State) : State := s.motEnable (s.on fMOTCTL_AEN) false

/-- Whether shed step 5 finds the accelerometer beyond the watch. -/
def State.motBeyond (s : State) : Bool := s.on fMOTSTAT_ARUN || s.mot.mode = 4

/-- Shed step 5: the accelerometer drops to low power at 12.5 Hz; a stream goes on after a time record on a grid anchored
at its next instant, and a capture ends at once. -/
def State.motShed5 (s : State) : State :=
  let cap := s.mot.mode = 2 || s.mot.mode = 3
  let i := s.motInstant s.mot.n
  let s := if cap then s.motCaptured.setFld fMOTSTAT_SHED 1 else s
  let s := s.sets [(fMOTCTL_ODR, 0), (fMOTCTL_ALP, 1)]
  let s := s.motSet (fun m => if m.mode = 1 then { m with timeOwed := true, t := i.1, tFrac := i.2, n := 0 } else m)
  s.recogSync.retoken

/-! ### Descriptors (Table 21.4) -/

/-- The roles of the motion opcodes. -/
def State.motRole (s : State) : Bool := s.role = .cell || s.role = .loop

/-- Whether window 0 is larger than 49,152 bytes (R467). -/
def State.motTooBig (s : State) : Bool := decide (49152 < s.winSize 0)

/-- MOTION_SETUP: writes MOTCTL with AEN and GEN as they are. -/
def execMotionSetup (d : Desc) (s : State) : Host.Outcome State Fault Refusal :=
  .next (s.runDesc d s.motRole (fun s =>
    let v := dsArgs d 0 4
    if s.on fMOTCTL_AEN then (s.raise [fMOTFLAG_CFGBUSY]).fail stBUSY
    else s.setup State.motWrite [(rMOTCTL, v / 4 * 4 + (s.reg rMOTCTL).toNat % 4)]))

/-- Clear or set the enables by a Nave write; the status of what was refused or held. -/
def State.motEnWrite (s : State) (aen gen : Bool) : DescRes :=
  s.setup State.motWrite
    [(rMOTCTL, (putFld (putFld (s.reg rMOTCTL) fMOTCTL_AEN (b2n aen)) fMOTCTL_GEN (b2n gen)).toNat)]

/-- MOTION_START: starts the accelerometer, the gyroscope or both, and their stream. -/
def execMotionStart (d : Desc) (s : State) : Host.Outcome State Fault Refusal :=
  .next (s.runDesc d s.motRole (fun s =>
    let b := dsArg d 0
    let aen := bitAt b 0
    let gen := bitAt b 1
    if 4 ≤ b then s.fail stINVALID
    else if s.role = .loop && gen then s.fail stNOTROLE
    else if s.motTooBig then s.fail stINVALID
    else if 2 ≤ s.mot.mode then s.fail stBUSY
    else if s.tokensRefuse (s.needNow + (if aen && !s.on fMOTCTL_AEN && decide (5 < s.motK) then 1 else 0)
        + (if gen && !s.on fMOTCTL_GEN then 2 else 0)) then s.tokenRefused.fail stTOKENS
    else
      let r := s.motEnWrite (aen || s.on fMOTCTL_AEN) (gen || s.on fMOTCTL_GEN)
      let t := r.st.naveWrites State.motWrite [(rMOTCAP, 0), (rMOTGO, 1)]
      { r with st := t.1, status := if t.2.1 then stDENIED else r.status }))

/-- MOTION_STOP: stops the sensors. -/
def execMotionStop (d : Desc) (s : State) : Host.Outcome State Fault Refusal :=
  .next (s.runDesc d s.motRole (fun s => s.motEnWrite false false))

/-- MOTION_CAPTURE: arms a capture of N grid instants at t. -/
def execMotionCapture (d : Desc) (s : State) : Host.Outcome State Fault Refusal :=
  .next (s.runDesc d s.motRole (fun s =>
    let t := dsArgs d 0 6
    let b := dsArg d 6
    let n := dsArgs d 8 4
    let gen := bitAt b 0
    if 8 ≤ b ∨ n = 0 ∨ 2 ^ 24 ≤ n then s.fail stINVALID
    else if s.role = .loop && gen then s.fail stNOTROLE
    else if s.motTooBig then s.fail stINVALID
    else if s.mot.mode != 0 then s.fail stBUSY
    else if s.tokensRefuse (s.needNow + (if !s.on fMOTCTL_AEN && decide (5 < s.motK) then 1 else 0)
        + (if gen && !s.on fMOTCTL_GEN then 2 else 0)) then s.tokenRefused.fail stTOKENS
    else
      let ctl := putFld (s.reg rMOTCTL) fMOTCTL_LATEDROP (b2n (bitAt b 1))
      let ctl := if gen then putFld ctl fMOTCTL_GEN 1 else ctl
      let r := s.naveWrites State.motWrite
        [(rMOTCAP, n), (rMOTCTL, ctl.toNat), (rMOTTL, t % 2 ^ 32), (rMOTTH, t / 2 ^ 32 + 2 ^ 16)]
      let u := r.1.motSet (fun m => { m with upload := bitAt b 2 && r.1.mot.mode != 0 })
      if r.2.1 then u.fail stDENIED
      else if u.mot.mode = 0 && u.on fMOTTH_LATE then u.fail 0x4A
      else u.ok))

/-- MOTION_INCL (R471): runs the inclinometer; its completion comes with the end of the run. -/
def execMotionIncl (d : Desc) (s : State) : Host.Outcome State Fault Refusal :=
  .next (s.runDesc d s.motRole (fun s =>
    if s.mot.mode != 0 || s.on fMOTCTL_AEN || s.on fMOTCTL_GEN then s.fail stBUSY
    else
      let r := s.naveWrites State.motWrite [(rMOTCTL, (putFld (s.reg rMOTCTL) fMOTCTL_INCLK (min 12 (dsArg d 0))).toNat)]
      if r.2.1 then r.1.fail stDENIED
      else ⟨(r.1.setFld fMOTSTAT_INCLBAD 0).motSet (fun m => { m with mode := 4, desc := some d }), stOK, 0, [], true⟩))

/-- INCL_DONE (R471): the sums of 2^(INCLK + 4) samples and the die temperature, or a sample that was saturated or
suspect. -/
def execInclDone (sx sy sz temp : Int) (bad : Bool) (s : State) : Host.Outcome State Fault Refusal :=
  .next (
    if s.mot.mode != 4 then s
    else
      let n := 2 ^ (min 12 (s.fld fMOTCTL_INCLK) + 4)
      let mean := fun (x : Int) => wrapInt 32 (openQuot (x * 256) n)
      let t := s.motSet (fun m => { m with mode := 0, desc := none })
      let t := if bad then t.setFld fMOTSTAT_INCLBAD 1
        else t.sets [(fMOTINC_MEAN 0, mean sx), (fMOTINC_MEAN 1, mean sy), (fMOTINC_MEAN 2, mean sz),
          (fMOTTEMP_TEMP, wrapInt 16 temp)]
      let t := t.raise [fMOTFLAG_INCLDONE]
      match s.mot.desc with
      | none => t
      | some d => t.complete d stOK (t.fld fMOTTEMP_TEMP)
          ((List.range 3).map (fun i => leBytes 4 (t.fld (fMOTINC_MEAN i)))).flatten)

/-- MOTION_SELFTEST (R478): actuates the proof masses; its completion comes with the end of the test. -/
def execMotionSelftest (d : Desc) (s : State) : Host.Outcome State Fault Refusal :=
  .next (s.runDesc d s.motRole (fun s =>
    if 2 ≤ dsArg d 0 then s.fail stINVALID
    else if s.role = .loop && dsArg d 0 = 1 then s.fail stNOTROLE
    else if s.mot.mode != 0 || s.on fMOTCTL_AEN || s.on fMOTCTL_GEN then s.fail stBUSY
    else ⟨s.motSet (fun m => { m with mode := 5, desc := some d, tries := 0 }), stOK, 0, [], true⟩))

/-- MOTION_SELFTEST_DONE (R478): the axes that passed, or rest readings that differ: the test is repeated up to 3
times, and then MOTSTRES stays as it is. -/
def execMotionSelftestDone (apass gpass : Nat) (disturbed : Bool) (s : State) : Host.Outcome State Fault Refusal :=
  .next (
    if s.mot.mode != 5 then s
    else if disturbed && decide (s.mot.tries < 3) then s.motSet (fun m => { m with tries := m.tries + 1 })
    else
      let gyro := match s.mot.desc with
        | some d => dsArg d 0 = 1
        | none => false
      let bad := !disturbed && (apass % 8 != 7 || (gyro && gpass % 8 != 7))
      let t := (s.motSet (fun m => { m with mode := 0, desc := none })).raise [fMOTFLAG_STDONE]
      let t := if disturbed then t
        else t.sets [(fMOTSTRES_APASS, apass % 8), (fMOTSTRES_GPASS, if gyro then gpass % 8 else 0)]
      let t := if bad then t.raise [fMOTFLAG_STFAIL] else t
      let t := if t.rhocoUp then t.event 0x0503 (leBytes 1 (t.reg rMOTSTRES).toNat) else t
      match s.mot.desc with
      | none => t
      | some d => t.complete d (if disturbed then 0x61 else if bad then 0x60 else stOK) 0 [])

/-- MOTION_READ: the last sample records. -/
def execMotionRead (d : Desc) (s : State) : Host.Outcome State Fault Refusal :=
  .next (s.runDesc d s.motRole (fun s =>
    { s.query [rMOTLASTA 0, rMOTLASTA 1, rMOTLASTG 0, rMOTLASTG 1] with result := 0 }))

/-- MOTION_QUERY: status, flags, lateness and misses. -/
def execMotionQuery (d : Desc) (s : State) : Host.Outcome State Fault Refusal :=
  .next (s.runDesc d s.motRole (fun s =>
    { s.query [rMOTSTAT, rMOTFLAG, rMOTLATE, rMOTMISS] with result := 0 }))

end Sys2Proof.Machine
end

