-- ==== Sys2Proof/Machine/Chor.lean ====
section
/-! DEFINITION. The Choristers (chapter 23): engines, the action counter, instructions with stalls and injection,
queues, timed actions, register writes and the descriptors. -/

namespace Sys2Proof.Machine

open Sys2Proof

/-- Update the Choristers' own state. -/
def State.chSet (s : State) (f : Chor → Chor) : State := { s with chor := f s.chor }

/-- One engine. -/
def State.che (s : State) (n : Nat) : ChEng := s.chor.eng.getD n {}

/-- Whether an engine runs (R500). -/
def State.chRuns (s : State) (n : Nat) : Bool := (s.fld fCHSTAT_RUNNING).testBit n

/-- Replace an engine, and bring the registers that show it up to date (Table 23.5). -/
def State.setChe (s : State) (n : Nat) (e : ChEng) : State :=
  let t := s.chSet (fun c => { c with eng := c.eng.set n e })
  let part := match e.stall, e.susp with
    | some x, _ => x.part
    | none, some x => x.part
    | none, none => 0
  let kind := match e.stall with
    | some x => x.kind
    | none => 0
  t.sets [(fCHSTAT_STALLED, bitTo (t.fld fCHSTAT_STALLED) n e.stall.isSome),
    (fCHSTAT_SUSPENDED, bitTo (t.fld fCHSTAT_SUSPENDED) n e.susp.isSome),
    (fCHSTAT_INJPEND, bitTo (t.fld fCHSTAT_INJPEND) n e.inj.isSome),
    (fCHSTALL_PC n, e.pc), (fCHSTALL_OCNT n, e.ocnt), (fCHSTALL_PART n, part), (fCHSTALL_KIND n, kind),
    (fCHSTALL_SUSP n, b2n e.susp.isSome), (fCHXY_X n, e.x), (fCHXY_Y n, e.y),
    (fCHLEVEL_TXN n, e.tx.length), (fCHLEVEL_RXN n, e.rx.length)]

/-- Update an engine. -/
def State.cheSet (s : State) (n : Nat) (f : ChEng → ChEng) : State := s.setChe n (f (s.che n))

/-! ### Configuration -/

/-- The action time AT of an engine (R509), and its writing. -/
def State.chAt (s : State) (n : Nat) : Nat := s.fld (fCHATL_AT n) + s.fld (fCHATH_AT n) * 2 ^ 32
def State.setChAt (s : State) (n t : Nat) : State := s.sets [(fCHATL_AT n, t % 2 ^ 32), (fCHATH_AT n, t / 2 ^ 32)]

/-- The divider in 1/256 edges (R501): INT of 0 acts as 1. -/
def State.chDiv (s : State) (n : Nat) : Nat := 256 * max 1 (s.fld (fCHDIV_INT n)) + s.fld (fCHDIV_FRAC n)

/-- The capacities of TX and RX under JOIN (R508). -/
def State.txCap (s : State) (n : Nat) : Nat :=
  match s.fld (fCHCFG_JOIN n) with
  | 1 => 8
  | 2 => 0
  | _ => 4
def State.rxCap (s : State) (n : Nat) : Nat :=
  match s.fld (fCHCFG_JOIN n) with
  | 1 => 0
  | 2 => 8
  | _ => 4

/-- A shift threshold: 0 means 32 (R506). -/
def thr32 (v : Nat) : Nat := if v = 0 then 32 else v

/-! ### Pins (R503, R504) -/

/-- An input index. -/
def State.chIn (s : State) (i : Nat) : Bool :=
  if i < 16 then s.on (fGPCFG_IE i) && !s.on fPADSTAT_VIOLOW && s.pads.level.testBit i
  else if i < 20 then s.role != .loop && (s.fld fFISTAT_STATE).testBit (i - 16)
  else i = 20 && s.chor.tcmp

/-- PINS as a source: bit i is input index (INBASE + i) mod 32. -/
def State.chPins (s : State) (n : Nat) : Nat :=
  ((List.range 32).map (fun i => if s.chIn ((s.fld (fCHPIN_INBASE n) + i) % 32) then 2 ^ i else 0)).sum

/-- OUT and MOV to PINS or PINDIRS: bit i, for i below OUTCNT, goes to pad (OUTBASE + i) mod 16. -/
def State.outPins (s : State) (n reg v : Nat) : Nat :=
  (List.range (min 16 (s.fld (fCHPIN_OUTCNT n)))).foldl (fun r i =>
    bitTo r ((s.fld (fCHPIN_OUTBASE n) + i) % 16) (v.testBit i)) reg

/-- SET PINS or PINDIRS: bit i, for i below SETCNT, goes to index SETBASE + i, modulo 16 from a base below 16. -/
def State.setPins (s : State) (n reg v : Nat) : Nat :=
  let b := s.fld (fCHPIN_SETBASE n)
  if 16 ≤ b then reg
  else (List.range (min 5 (s.fld (fCHPIN_SETCNT n)))).foldl (fun r i => bitTo r ((b + i) % 16) (v.testBit i)) reg

/-- The touch strobes of SET PINS: indices 16 to 18, from the engine touch runs on. -/
def State.setStrobes (s : State) (n v : Nat) : State :=
  let b := s.fld (fCHPIN_SETBASE n)
  if b < 16 ∨ s.chor.touchEng ≠ some n ∨ !s.touch.on then s
  else s.chSet (fun c => { c with strobes :=
    (List.range (min 5 (s.fld (fCHPIN_SETCNT n)))).foldl (fun r i =>
      if b + i ≤ 18 then bitTo r (b + i - 16) (v.testBit i) else r) c.strobes })

/-- The owner of a pad (R504). -/
def State.padOwner (s : State) (k : Nat) : Nat := bitsOf (s.fld (fCHPADOWN_OWN (k / 8))) (4 * (k % 8)) 4

/-- The level and enable a pad's owner drives. -/
def State.padFunc (s : State) (k : Nat) : Bool × Bool :=
  let o := s.padOwner k
  if o < 8 then ((s.che o).out.testBit k, (s.che o).oe.testBit k)
  else if o = 14 then ((s.fld fCHSWOUT_LEVEL).testBit k, (s.fld fCHSWOE_OE).testBit k)
  else (false, false)

/-! ### Events -/

/-- CHOR_FAULT: cause 1 BADOP (R507). -/
def State.chFault (s : State) (n : Nat) : State :=
  s.flagEvent (fCHFLAG_BADOP n) 0x0700 (leBytes 1 n ++ leBytes 1 1 ++ leBytes 1 (s.che n).pc)

/-- Touch loses its engine (R497). -/
def State.touchLost (s : State) (n : Nat) : State :=
  if s.chor.touchEng = some n then
    let t := s.chSet (fun c => { c with touchEng := none, strobes := 0 })
    if s.touch.on then { t.raise [fTCHFLAG_ENGBUSY] with touch := { t.touch with on := false } } else t
  else s

/-- Stop an engine (R500, R514): its PC stays, and what a stalled instruction had taken is discarded. -/
def State.chStop (s : State) (n : Nat) : State :=
  if !s.chRuns n then s.setFld fCHCTL_EN (bitTo (s.fld fCHCTL_EN) n false)
  else
    let t := s.cheSet n (fun e => { e with stall := none, susp := none, delay := 0, posted := false })
    (t.sets [(fCHCTL_EN, bitTo (t.fld fCHCTL_EN) n false), (fCHSTAT_RUNNING, bitTo (t.fld fCHSTAT_RUNNING) n false)]).touchLost n

/-- Start an engine with its divider restarted: its first instruction executes on the next edge, or on this one
(R510). -/
def State.chStart (s : State) (n : Nat) (now : Bool) : State :=
  if s.chRuns n then s
  else
    let t := s.cheSet n (fun e => { e with acc := if now then s.chDiv n else s.chDiv n - 256, delay := 0, posted := false })
    t.sets [(fCHCTL_EN, bitTo (t.fld fCHCTL_EN) n true), (fCHSTAT_RUNNING, bitTo (t.fld fCHSTAT_RUNNING) n true)]

/-! ### Encodings (R505, R507) -/

/-- Fields of an instruction word. -/
def chOp (w : Nat) : Nat := bitsOf w 13 3
def chDly (w : Nat) : Nat := bitsOf w 8 5
def chHi (w : Nat) : Nat := bitsOf w 5 3
def chLo (w : Nat) : Nat := bitsOf w 0 5

/-- Whether a word is a reserved encoding. -/
def chReserved (w : Nat) : Bool :=
  match chOp w with
  | 1 =>
    let src := bitsOf w 5 2
    src = 3 || (src = 1 && bitsOf w 3 2 != 0) || (src = 2 && (bitAt w 7 || chLo w != 0))
  | 2 => decide (5 ≤ chHi w)
  | 4 => bitsOf w 0 6 != 0
  | 5 => chHi w = 3 || bitsOf w 3 2 = 3
  | 6 => bitAt w 7 || bitsOf w 3 2 != 0
  | 7 => chHi w = 3 || decide (5 ≤ chHi w)
  | _ => false

/-! ### Shifts -/

/-- Shift `k` bits of a 32-bit register out: the bits and what is left, to the right or to the left. -/
def shiftOut (left : Bool) (r k : Nat) : Nat × Nat :=
  if left then (r / 2 ^ (32 - k), r * 2 ^ k % 2 ^ 32) else (r % 2 ^ k, r / 2 ^ k)

/-- Shift `k` bits into a 32-bit register, to the right or to the left. -/
def shiftIn (left : Bool) (r k v : Nat) : Nat :=
  if left then (r * 2 ^ k + v % 2 ^ k) % 2 ^ 32 else r / 2 ^ k + v % 2 ^ k * 2 ^ (32 - k)

/-- The bits of an n-bit value that a shift takes first, and the rest. -/
def firstBits (left : Bool) (v n k : Nat) : Nat × Nat :=
  if left then (v % 2 ^ n / 2 ^ (n - k), v % 2 ^ (n - k)) else (v % 2 ^ k, v % 2 ^ n / 2 ^ k)

/-- Join the bits taken first with the rest. -/
def joinBits (left : Bool) (a k b m : Nat) : Nat := if left then a * 2 ^ m + b else a + b * 2 ^ k

/-- The bits of a 32-bit value in reverse order. -/
def rev32 (v : Nat) : Nat := ((List.range 32).map (fun i => if v.testBit i then 2 ^ (31 - i) else 0)).sum

/-! ### Executing one instruction -/

/-- What executing an instruction came to: the state; the stall it is in; whether it wrote the PC; and for a WAIT TIME
whether it was met on this edge (1), or was late and runs (2) or drops (3) what follows. -/
structure ChRun where
  st : State
  stall : Option ChStall := none
  wrotePc : Bool := false
  time : Nat := 0

/-- A stall of the instruction with what it has done so far. -/
def ChStall.at (c : ChStall) (kind part acc : Nat) : Option ChStall := some { c with kind := kind, part := part, acc := acc }

/-- JMP (Table 23.1). -/
def State.chJmp (s : State) (n w : Nat) : ChRun :=
  let e := s.che n
  let cond := match chHi w with
    | 0 => true
    | 1 => e.x = 0
    | 2 => e.x != 0
    | 3 => e.y = 0
    | 4 => e.y != 0
    | 5 => e.x != e.y
    | 6 => s.chIn (s.fld (fCHCFG_JPIN n))
    | _ => decide (e.ocnt < thr32 (s.fld (fCHSHIFT_PULLTHR n)))
  let e := if chHi w = 2 then { e with x := (e.x + 2 ^ 32 - 1) % 2 ^ 32 }
    else if chHi w = 4 then { e with y := (e.y + 2 ^ 32 - 1) % 2 ^ 32 }
    else e
  if cond then { st := s.setChe n { e with pc := chLo w }, wrotePc := true } else { st := s.setChe n e }

/-- A late WAIT TIME (R509): LATE, CHnLATE and CHOR_LATE; 2 runs what follows, 3 drops it and counts. -/
def State.chLate (s : State) (n : Nat) : State × Nat :=
  let d := lateness (s.chAt n) s.chor.act
  let drop := (s.fld fCHCTL_LATEDROP).testBit n
  let t := s.sets [(fCHATH_LATE n, 1), (fCHLATE_LATE n, d)]
  let t := if drop then t.count (fCHCNT_DROPPED n) else t
  (t.flagEvent (fCHFLAG_LATE n) 0x0701 (leBytes 1 n ++ leBytes 1 (1 + b2n drop) ++ leBytes 4 d), if drop then 3 else 2)

/-- WAIT. A wait for an IRQ flag that is met for 1 clears the flag and releases every engine that waits for it. -/
def State.chWait (s : State) (n w : Nat) (c : ChStall) : ChRun :=
  let pol := bitAt w 7
  match bitsOf w 5 2 with
  | 0 => if s.chIn (chLo w) = pol then { st := s } else { st := s, stall := c.at 3 0 0 }
  | 1 =>
    let f := chLo w % 8
    if c.kind = 4 ∧ c.acc = 1 then { st := s }
    else if (s.fld fCHIRQ_FLAG).testBit f = pol then
      if pol then
        let t := s.setFld fCHIRQ_FLAG (bitTo (s.fld fCHIRQ_FLAG) f false)
        let free := fun (e : ChEng) => match e.stall with
          | some x => if x.kind = 4 ∧ chOp x.word = 1 ∧ bitAt x.word 7 ∧ chLo x.word % 8 = f then
              { e with stall := some { x with acc := 1 } } else e
          | none => e
        { st := t.chSet (fun q => { q with eng := q.eng.map free }) }
      else { st := s }
    else { st := s, stall := c.at 4 0 0 }
  | _ =>
    if s.chAt n = s.chor.act then { st := s, time := 1 }
    else if past (s.chAt n) s.chor.act then
      let r := s.chLate n
      { st := r.1, time := r.2 }
    else { st := s, stall := c.at 5 0 0 }

/-- The source of an IN. -/
def State.inSrc (s : State) (n src : Nat) : Nat :=
  match src with
  | 0 => s.chPins n
  | 1 => (s.che n).x
  | 2 => (s.che n).y
  | 3 => 0
  | _ => s.chor.act % 2 ^ 32

/-- IN (R506): SRC is sampled once; with AUTOPUSH a full ISR is pushed between the bits, stalling while RX is full. -/
def State.chInOp (s : State) (n w : Nat) (c : ChStall) : ChRun :=
  let e := s.che n
  let cnt := thr32 (chLo w)
  let left := s.on (fCHSHIFT_INDIR n)
  let resumed := c.kind = 2
  let src := if resumed then c.src else s.inSrc n (chHi w)
  let thr := thr32 (s.fld (fCHSHIFT_PUSHTHR n))
  if !s.on (fCHSHIFT_AUTOPUSH n) && !resumed then
    { st := s.setChe n { e with isr := shiftIn left e.isr cnt src, icnt := min 32 (e.icnt + cnt) } }
  else
    let k := if resumed then c.part else min cnt (thr - e.icnt)
    let b := firstBits left src cnt k
    let e := if resumed then e else { e with isr := shiftIn left e.isr k b.1, icnt := e.icnt + k }
    let rest := fun (t : State) (g : ChEng) =>
      ({ st := t.setChe n { g with isr := shiftIn left g.isr (cnt - k) b.2, icnt := min 32 (g.icnt + (cnt - k)) } } : ChRun)
    if e.icnt = thr then
      if e.rx.length < s.rxCap n then rest s { e with rx := e.rx ++ [e.isr], isr := 0, icnt := 0 }
      else { st := s.setChe n e, stall := ChStall.at { c with src := src } 2 k 0 }
    else rest s e

/-- What an OUT does with its value (Table 23.1). -/
def State.outTo (s : State) (n dst v : Nat) : State × Bool :=
  let e := s.che n
  match dst with
  | 0 => (s.setChe n { e with out := s.outPins n e.out v }, false)
  | 1 => (s.setChe n { e with x := v }, false)
  | 2 => (s.setChe n { e with y := v }, false)
  | 3 => (s, false)
  | 4 => (s.setChe n { e with oe := s.outPins n e.oe v }, false)
  | 5 => (s.setChe n { e with pc := v % 32 }, true)
  | 6 => (s.setChe n { e with isr := v }, false)
  | _ => (s.setChAt n ((s.chAt n + v) % 2 ^ 48), false)

/-- OUT (R506): with AUTOPULL an empty OSR is refilled between the bits, stalling while TX is empty, and after the last
bit where TX holds a word. -/
def State.chOutOp (s : State) (n w : Nat) (c : ChStall) : ChRun :=
  let e := s.che n
  let cnt := thr32 (chLo w)
  let left := s.on (fCHSHIFT_OUTDIR n)
  let thr := thr32 (s.fld (fCHSHIFT_PULLTHR n))
  let auto := s.on (fCHSHIFT_AUTOPULL n)
  let take := fun (g : ChEng) (k : Nat) => (shiftOut left g.osr k)
  let done := fun (t : State) (g : ChEng) (v : Nat) =>
    let g := if auto && g.ocnt = thr then
        match g.tx with
        | x :: r => { g with osr := x, tx := r, ocnt := 0 }
        | [] => g
      else g
    let r := (t.setChe n g).outTo n (chHi w) v
    ({ st := r.1, wrotePc := r.2 } : ChRun)
  let resumed := c.kind = 1
  if !auto && !resumed then
    let a := take e cnt
    done s { e with osr := a.2, ocnt := min 32 (e.ocnt + cnt) } a.1
  else
    let k := if resumed then c.part else min cnt (thr - e.ocnt)
    let a := if resumed then (c.acc, e.osr) else take e k
    let e := if resumed then e else { e with osr := a.2, ocnt := min 32 (e.ocnt + k) }
    let m := cnt - k
    if m = 0 then done s e a.1
    else if resumed && decide (e.ocnt + m ≤ thr) then
      -- An injected instruction has refilled OSR: the rest comes from it as it now stands (R513).
      let b := take e m
      done s { e with osr := b.2, ocnt := min 32 (e.ocnt + m) } (joinBits left a.1 k b.1 m)
    else
      match e.tx with
      | x :: r =>
        let b := shiftOut left x m
        done s { e with osr := b.2, tx := r, ocnt := m } (joinBits left a.1 k b.1 m)
      | [] => { st := s.setChe n e, stall := c.at 1 k a.1 }

/-- PUSH and PULL. -/
def State.chPushPull (s : State) (n w : Nat) (c : ChStall) : ChRun :=
  let e := s.che n
  let ifs := bitAt w 6
  if bitAt w 7 then
    if ifs && decide (e.ocnt < thr32 (s.fld (fCHSHIFT_PULLTHR n))) then { st := s }
    else
      match e.tx with
      | x :: r => { st := s.setChe n { e with osr := x, ocnt := 0, tx := r } }
      | [] => { st := s, stall := c.at 1 0 0 }
  else if ifs && decide (e.icnt < thr32 (s.fld (fCHSHIFT_PUSHTHR n))) then { st := s }
  else if e.rx.length < s.rxCap n then { st := s.setChe n { e with rx := e.rx ++ [e.isr], isr := 0, icnt := 0 } }
  else { st := s, stall := c.at 2 0 0 }

/-- The source of a MOV (Table 23.1, R513 for CNT). -/
def State.movSrc (s : State) (n src : Nat) : Nat :=
  let e := s.che n
  match src with
  | 0 => s.chPins n
  | 1 => e.x
  | 2 => e.y
  | 3 => 0
  | 4 => if e.tx.length < s.fld (fCHCFG_STATN n) then 2 ^ 32 - 1 else 0
  | 5 => e.isr
  | 6 => e.osr
  | _ => e.ocnt + e.icnt * 2 ^ 8 + (match e.susp with
    | some x => x.part * 2 ^ 16 + 2 ^ 24
    | none => 0)

/-- MOV. -/
def State.chMov (s : State) (n w : Nat) : ChRun :=
  let e := s.che n
  let v := s.movSrc n (bitsOf w 0 3)
  let v := match bitsOf w 3 2 with
    | 1 => 2 ^ 32 - 1 - v
    | 2 => rev32 v
    | _ => v
  match chHi w with
  | 0 => { st := s.setChe n { e with out := s.outPins n e.out v } }
  | 1 => { st := s.setChe n { e with x := v } }
  | 2 => { st := s.setChe n { e with y := v } }
  | 4 => { st := s.setChe n { e with oe := s.outPins n e.oe v } }
  | 5 => { st := s.setChe n { e with pc := v % 32 }, wrotePc := true }
  | 6 => { st := s.setChe n { e with isr := v, icnt := 0 } }
  | _ => { st := s.setChe n { e with osr := v, ocnt := 0 } }

/-- IRQ: set or clear a shared flag; with WAIT it then stalls until the flag is clear. -/
def State.chIrq (s : State) (w : Nat) (c : ChStall) : ChRun :=
  let f := bitsOf w 0 3
  let t := if c.kind = 4 then s else s.setFld fCHIRQ_FLAG (bitTo (s.fld fCHIRQ_FLAG) f (!bitAt w 6))
  if bitAt w 5 && (t.fld fCHIRQ_FLAG).testBit f then { st := t, stall := c.at 4 0 0 } else { st := t }

/-- SET. -/
def State.chSetOp (s : State) (n w : Nat) : ChRun :=
  let e := s.che n
  match chHi w with
  | 0 => { st := (s.setChe n { e with out := s.setPins n e.out (chLo w) }).setStrobes n (chLo w) }
  | 1 => { st := s.setChe n { e with x := chLo w } }
  | 2 => { st := s.setChe n { e with y := chLo w } }
  | _ => { st := s.setChe n { e with oe := s.setPins n e.oe (chLo w) } }

/-- Execute or retry the instruction that `c` describes. -/
def State.chExec (s : State) (n : Nat) (c : ChStall) : ChRun :=
  let w := c.word
  match chOp w with
  | 0 => s.chJmp n w
  | 1 => s.chWait n w c
  | 2 => s.chInOp n w c
  | 3 => s.chOutOp n w c
  | 4 => s.chPushPull n w c
  | 5 => s.chMov n w
  | 6 => s.chIrq w c
  | _ => s.chSetOp n w

/-- The PC that follows a PC (R500). -/
def State.chNext (s : State) (n pc : Nat) : Nat :=
  if pc = s.fld (fCHCFG_WRAPTOP n) then s.fld (fCHCFG_WRAPBOT n) else (pc + 1) % 32

/-- An instruction has completed: the PC goes on, its delay begins, an injected one gives way to what it suspended, and a
WAIT TIME restarts the divider so that what follows executes on this edge or on the next (R505, R509, R513). -/
def State.chDone (s : State) (n : Nat) (c : ChStall) (r : ChRun) : State :=
  let e := r.st.che n
  let e := { e with stall := none, delay := chDly c.word, posted := false }
  let e := if c.inj then { e with inj := none, susp := if r.wrotePc then none else e.susp }
    else if r.wrotePc then e
    else { e with pc := s.chNext n e.pc }
  let e := if r.time = 3 then { e with pc := s.chNext n e.pc } else e
  let d := s.chDiv n
  let e := match r.time with
    | 0 => e
    | 1 => { e with acc := if chDly c.word = 0 then d else 0 }
    | _ => { e with acc := if chDly c.word = 0 then d - 256 else 0 }
  r.st.setChe n e

/-- Execute an instruction and complete it, or leave it stalled. -/
def State.chRunOne (s : State) (n : Nat) (c : ChStall) : State :=
  let r := s.chExec n c
  match r.stall with
  | some x => r.st.cheSet n (fun e => { e with stall := some x })
  | none => s.chDone n c r

/-- The program word at a PC (R511, R523). -/
def State.chWord (s : State) (n pc : Nat) : Nat := s.fld (fCHPROG_INSTR (32 * n + pc))

/-- The pending injection executes; a stalled instruction is suspended (R512, R513). A reserved encoding is not executed
and does not stop the engine. -/
def State.chInject (s : State) (n w : Nat) : State :=
  if chReserved w then (s.cheSet n (fun e => { e with inj := none })).chFault n
  else
    let e := s.che n
    let e := match e.stall with
      | some x => { e with susp := some x, stall := none }
      | none => e
    (s.setChe n e).chRunOne n ⟨w, e.pc, true, 0, 0, 0, 0⟩

/-- One step of a running engine (R500, R505, R512, R513). -/
def State.chStepRun (s : State) (n : Nat) : State :=
  let e := s.che n
  if 0 < e.delay then s.setChe n { e with delay := e.delay - 1 }
  else
    match e.inj, e.stall with
    | some w, none => s.chInject n w
    | some w, some x => if x.inj then s.chRunOne n x else s.chInject n w
    | none, some x => s.chRunOne n x
    | none, none =>
      match e.susp with
      | some x => (s.setChe n { e with susp := none }).chRunOne n x
      | none =>
        let w := s.chWord n e.pc
        if chReserved w then (s.chFault n).chStop n else s.chRunOne n ⟨w, e.pc, false, 0, 0, 0, 0⟩

/-! ### Time (R501, R502, R509) -/

/-- Test a WAIT TIME that is pending against ACTCNT: met on this edge, late, or neither (R509). -/
def State.chTimeTest (s : State) (n : Nat) : State :=
  match (s.che n).stall with
  | some x =>
    if x.kind = 5 then
      if s.chAt n = s.chor.act then s.chDone n x { st := s, time := 1 }
      else if past (s.chAt n) s.chor.act then
        let r := s.chLate n
        s.chDone n x { st := r.1, time := r.2 }
      else s
    else s
  | none => s

/-- Test every pending WAIT TIME. -/
def State.chTimeTests (s : State) : State := (List.range 8).foldl (fun t n => t.chTimeTest n) s

/-- A group of waiting times that ACTCNT passes when it advances by `k` edges is met on its own edge: the engine's divider
restarts there. -/
def State.chPassed (s : State) (k n : Nat) : State :=
  match (s.che n).stall with
  | some x =>
    let d := (s.chAt n + 2 ^ 48 - s.chor.act) % 2 ^ 48
    if x.kind = 5 ∧ d ≤ k then
      (s.chDone n x { st := s, time := 1 }).cheSet n (fun e => { e with acc := e.acc + 256 * (k - d) })
    else s.cheSet n (fun e => { e with acc := e.acc + 256 * k })
  | none => s.cheSet n (fun e => { e with acc := e.acc + 256 * k })

/-- `k` action-clock edges pass (R501, R502): ACTCNT advances, but for the edges it stands still, and so do the running
engines' dividers. -/
def State.actEdges (s : State) (k : Nat) : State :=
  let still := min k s.chor.still
  let adv := k - still
  let t := (List.range 8).foldl (fun t n => if t.chRuns n then t.chPassed adv n else t) s
  let t := if still = 0 then t else (List.range 8).foldl (fun t n =>
    if t.chRuns n then t.cheSet n (fun e => { e with acc := e.acc + 256 * still }) else t) t
  t.chSet (fun c => { c with act := (c.act + adv) % 2 ^ 48, still := c.still - still })

/-- Whether the root group is stopped in a switch or after a fallback (R103, R518). -/
def State.rootStopped (s : State) : Bool := s.clk.stopped || s.on fCLKSTAT_SWBUSY

/-- CHOR_STEP (R505): `edges` action-clock edges after the last Chorister event, with the pad levels after filter and
synchroniser and the touch comparator, engine `n` steps if its divider is due. A stopped engine executes a pending
injection once (R512). No engine gets edges while the root group stands still (R520). -/
def execChorStep (n edges gp : Nat) (tcmp : Bool) (s : State) : Host.Outcome State Fault Refusal :=
  .next (
    if 8 ≤ n || s.rootStopped then s
    else
      let s := { s with pads := { s.pads with level := gp % 2 ^ 16 } }
      let s := (s.chSet (fun c => { c with tcmp := tcmp })).actEdges edges
      let e := s.che n
      if s.chRuns n then
        if e.acc < s.chDiv n then s
        else (s.setChe n { e with acc := e.acc - s.chDiv n }).chStepRun n
      else
        let t := match e.inj, e.stall with
          | some _, some x => s.chRunOne n x
          | some w, none => s.chInject n w
          | none, _ => s
        t.cheSet n (fun e => { e with delay := 0 }))

/-- ACTCNT at a line-time tick (R502): behind line time × 750 it is set to it, ahead it stands still for as many edges. -/
def State.actTick (s : State) : State :=
  let a := s.now * 750 % 2 ^ 48
  let d := (a + 2 ^ 48 - s.chor.act) % 2 ^ 48
  if d = 0 then s.chSet (fun c => { c with still := 0 })
  else if d < 2 ^ 47 then (s.chSet (fun c => { c with act := a, still := 0 })).chTimeTests
  else s.chSet (fun c => { c with still := 2 ^ 48 - d })

/-- An armed start whose time has come or is past (R510). -/
def State.chArmedStart (s : State) (onTime : Bool) : State :=
  let m := s.fld fCHSTARTH_MASK
  let t := s.setFld fCHSTARTH_ARM 0
  if onTime then (List.range 8).foldl (fun u n => if m.testBit n then u.chStart n true else u) t
  else
    let d := lateness (s.fld fCHSTARTL_TIME + s.fld fCHSTARTH_TIME * 2 ^ 32) s.chor.act
    let drop := s.on fCHSTARTH_LATEDROP
    let t := t.sets [(fCHSTARTH_LATE, 1), (fCHSTARTLATE_LATE, d)]
    let t := if t.rhocoUp then t.event 0x0701 (leBytes 1 8 ++ leBytes 1 (1 + b2n drop) ++ leBytes 4 d) else t
    if drop then t else (List.range 8).foldl (fun u n => if m.testBit n then u.chStart n false else u) t

/-- Test an armed start: a past one follows R509. -/
def State.chStartTest (s : State) : State :=
  if s.on fCHSTARTH_ARM && past (s.fld fCHSTARTL_TIME + s.fld fCHSTARTH_TIME * 2 ^ 32) s.chor.act then
    s.chArmedStart false
  else s

/-- A step of line time (R502, R509): ACTCNT is set whatever its value, and every pending time is tested afresh. -/
def State.actStep (s : State) : State :=
  ((s.chSet (fun c => { c with act := s.now * 750 % 2 ^ 48, still := 0 })).chTimeTests).chStartTest

/-- ARMED_START (R510): `edges` later ACTCNT has reached the armed start time, or has moved past it. -/
def execArmedStart (edges : Nat) (s : State) : Host.Outcome State Fault Refusal :=
  .next (
    let t := s.fld fCHSTARTL_TIME + s.fld fCHSTARTH_TIME * 2 ^ 32
    if !s.on fCHSTARTH_ARM then s
    else
      let d := (t + 2 ^ 48 - s.chor.act) % 2 ^ 48
      let u := s.actEdges edges
      if u.chor.act = t then u.chArmedStart true
      else if past t u.chor.act then u.chArmedStart (decide (d ≤ edges) && u.chor.still = 0)
      else u)

/-! ### Register writes -/

/-- RESTART of an engine (R514): OSR and ISR are emptied and PC = 0; X, Y, AT and the queues stay. -/
def State.chRestart (s : State) (n : Nat) : State :=
  s.cheSet n (fun e => { e with
    osr := 0, ocnt := 32, isr := 0, icnt := 0, stall := none, susp := none, delay := 0, pc := 0, posted := false })

/-- A write of CHCTL (R500, R510, R514, R518): RESTART acts first, then CLKSYNC and EN. -/
def State.chWriteCtl (s : State) (v : Word) : State :=
  let each := fun (f : Fld) (g : State → Nat → State) (t : State) =>
    (List.range 8).foldl (fun u n => if (fldOf v f).testBit n then g u n else u) t
  let t := each fCHCTL_RESTART State.chRestart s
  let t := t.setFld fCHCTL_LATEDROP (fldOf v fCHCTL_LATEDROP)
  let t := each fCHCTL_CLKSYNC (fun u n => u.cheSet n (fun e => { e with acc := u.chDiv n - 256 })) t
  (List.range 8).foldl (fun u n =>
    if (fldOf v fCHCTL_EN).testBit n then
      let u := if u.on fCHSTARTH_ARM && !u.chRuns n then
        u.setFld fCHSTARTH_MASK (bitTo (u.fld fCHSTARTH_MASK) n false) else u
      u.chStart n false
    else u.chStop n) t

/-- A write of CHPADOWN (R504): pads whose old or new owner runs keep their owner, and set PADBUSY. -/
def State.chWriteOwn (s : State) (k : Nat) (v : Word) : State :=
  (List.range 8).foldl (fun t j =>
    let old := bitsOf (t.fld (fCHPADOWN_OWN k)) (4 * j) 4
    let new := bitsOf v.toNat (4 * j) 4
    if old = new then t
    else
      let busy := [old, new].filter (fun o => o < 8 && t.chRuns o)
      if busy.isEmpty then t.setFld ⟨rCHPADOWN k, 4 * j, 4⟩ new
      else busy.foldl (fun u o => u.raise [fCHFLAG_PADBUSY o]) t) s

/-- Which engine and which register of it an address names. -/
def chReg (a : Nat) : Nat × Nat := ((a - rCHDIV 0) / 0x40, (a - rCHDIV 0) % 0x40)

/-- A bus write into TX (R508): without a free stage it is discarded. -/
def State.chPutTx (s : State) (n : Nat) (v : Word) : State :=
  if (s.che n).tx.length < s.txCap n then s.cheSet n (fun e => { e with tx := e.tx ++ [v.toNat] })
  else s.raise [fCHFLAG_OVERRUN n]

/-- A write of CHnINJ (R512). -/
def State.chPutInj (s : State) (n : Nat) (v : Word) : State :=
  if (s.che n).inj.isSome then s.raise [fCHFLAG_INJBUSY n]
  else s.cheSet n (fun e => { e with inj := some (v.toNat % 2 ^ 16) })

/-- A write of a register of one engine. -/
def State.chWriteEng (s : State) (a : Nat) (v : Word) : State :=
  let n := (chReg a).1
  match (chReg a).2 with
  | 0x00 => if s.chRuns n then s.raise [fCHFLAG_CFGBUSY n] else s.plainWrite a v
  | 0x04 =>
    if s.chRuns n then s.raise [fCHFLAG_CFGBUSY n]
    else
      let old := s.fld (fCHCFG_JOIN n) % 3
      let t := s.plainWrite a v
      if t.fld (fCHCFG_JOIN n) % 3 = old then t else t.cheSet n (fun e => { e with tx := [], rx := [] })
  | 0x08 => if s.chRuns n then s.raise [fCHFLAG_CFGBUSY n] else s.plainWrite a v
  | 0x0C => if s.chRuns n then s.raise [fCHFLAG_CFGBUSY n] else s.plainWrite a v
  | 0x10 => s.chPutTx n v
  | 0x1C => s.chPutInj n v
  | 0x20 => (s.plainWrite a v).chTimeTest n
  | 0x24 => (s.plainWrite a v).chTimeTest n
  | _ => s.plainWrite a v

/-- A write of a register of block 22. -/
def State.chWrite (s : State) (a : Nat) (v : Word) : State :=
  if (a = rCHCTL ∨ a = rCHSTARTH) ∧ s.rootStopped then
    s.chSet (fun c => { c with heldWr := c.heldWr ++ [(a, v.toNat)] })
  else if a = rCHCTL then s.chWriteCtl v
  else if a = rCHSTARTH then
    let t := (s.plainWrite a v).setFld fCHSTARTH_LATE 0
    if t.on fCHSTARTH_ARM then t.chStartTest else t
  else if a = rCHIRQ then
    s.setFld fCHIRQ_FLAG (s.fld fCHIRQ_FLAG - (s.fld fCHIRQ_FLAG &&& (v.toNat % 256)))
  else if a = rCHIRQSET then s.setFld fCHIRQ_FLAG (s.fld fCHIRQ_FLAG ||| (v.toNat % 256))
  else if a = rCHPADOWN 0 then s.chWriteOwn 0 v
  else if a = rCHPADOWN 1 then s.chWriteOwn 1 v
  else if rCHDIV 0 ≤ a ∧ a < rCHDIV 8 then s.chWriteEng a v
  else if rCHPROG 0 ≤ a ∧ a < rCHPROG 256 then
    if s.chRuns ((a - rCHPROG 0) / 0x80) then s.raise [fCHFLAG_STOREBUSY ((a - rCHPROG 0) / 0x80)] else s.plainWrite a v
  else s.plainWrite a v

/-- The root group restarts: held writes of CHCTL and CHSTARTH act (R518), and times that fell in the gap are past. -/
def State.chRelease (s : State) : State :=
  (s.chor.heldWr.foldl (fun t p => t.chWrite p.1 (BitVec.ofNat 32 p.2)) (s.chSet (fun c => { c with heldWr := [] }))).chStartTest

/-- A write of a register of block 22 from a world. -/
def State.chBus (s : State) (w : World) (a : Nat) (v : Word) : State :=
  let r := s.vet w a v
  r.st.chWrite a r.v

/-- CHCTL_EN (R510): a write of CHCTL that starts or stops engines. -/
def execChctlEn (w : World) (v : Word) (s : State) : Host.Outcome State Fault Refusal := .next (s.chBus w rCHCTL v)

/-- CHCTL_RESTART (R514): a write of CHCTL that restarts the engines of a mask and leaves EN and LATEDROP. -/
def execChctlRestart (w : World) (mask : Nat) (s : State) : Host.Outcome State Fault Refusal :=
  .next (s.chBus w rCHCTL (putFld (s.reg rCHCTL) fCHCTL_RESTART mask))

/-- CHCTL_CLKSYNC (R510): a write of CHCTL that restarts the dividers of a mask. -/
def execChctlClksync (w : World) (mask : Nat) (s : State) : Host.Outcome State Fault Refusal :=
  .next (s.chBus w rCHCTL (putFld (s.reg rCHCTL) fCHCTL_CLKSYNC mask))

/-- CHSTART_ARM (R510): a write of CHSTARTH. -/
def execChstartArm (w : World) (v : Word) (s : State) : Host.Outcome State Fault Refusal := .next (s.chBus w rCHSTARTH v)

/-- CHTX_WRITE (R508). -/
def execChtxWrite (w : World) (n : Nat) (v : Word) (s : State) : Host.Outcome State Fault Refusal :=
  .next (if n < 8 then s.chBus w (rCHTX n) v else s)

/-- CHINJ_WRITE (R512). -/
def execChinjWrite (w : World) (n : Nat) (v : Word) (s : State) : Host.Outcome State Fault Refusal :=
  .next (if n < 8 then s.chBus w (rCHINJ n) v else s)

/-- CHPADOWN_WRITE (R504): the owners of pads 8k to 8k + 7. -/
def execChpadownWrite (w : World) (k : Nat) (v : Word) (s : State) : Host.Outcome State Fault Refusal :=
  .next (if k < 2 then s.chBus w (rCHPADOWN k) v else s)

/-- Read a word from RX (R508): from an empty one, 0 and UNDERRUN. -/
def State.chGetRx (s : State) (n : Nat) : Nat × State :=
  match (s.che n).rx with
  | x :: r => (x, s.cheSet n (fun e => { e with rx := r }))
  | [] => (0, s.raise [fCHFLAG_UNDERRUN n])

/-- CHRX_READ (R508). -/
def execChrxRead (n : Nat) (s : State) : Host.Outcome State Fault Refusal :=
  .next (if n < 8 then
      let r := s.chGetRx n
      r.2.emit (.reply (rCHRX n) (leBytes 4 r.1))
    else s)

/-- CHOR_STALL_TIMEOUT (R519): a stall has lasted STALLTMO ms; once per stall. -/
def execChorStallTimeout (n : Nat) (s : State) : Host.Outcome State Fault Refusal :=
  .next (
    match (s.che n).stall with
    | some x =>
      if s.chRuns n && s.on (fCHCNT_STALLTMO n) && !(s.che n).posted then
        (s.cheSet n (fun e => { e with posted := true })).flagEvent (fCHFLAG_STALLTMO n) 0x0702
          (leBytes 1 n ++ leBytes 1 (s.che n).pc ++ leBytes 1 x.kind)
      else s
    | none => s)

/-! ### Descriptors (Table 23.2): every role -/

/-- Run an action on the engine ARGS[0] names. -/
def State.chDesc (s : State) (d : Desc) (act : State → Nat → DescRes) : State :=
  s.runDesc d true (fun t => if 8 ≤ dsArg d 0 then t.fail stINVALID else act t (dsArg d 0))

/-- CHOR_SETUP. -/
def execChorSetup (d : Desc) (s : State) : Host.Outcome State Fault Refusal :=
  .next (s.chDesc d (fun s n =>
    if s.chRuns n then (s.raise [fCHFLAG_CFGBUSY n]).fail stBUSY
    else s.setup State.chWrite [(rCHDIV n, dsArgs d 4 4), (rCHCFG n, dsArgs d 8 4), (rCHSHIFT n, dsArgs d 12 4),
      (rCHPIN n, dsArgs d 16 4)]))

/-- CHOR_LOAD: up to 12 words of 16 bits. -/
def execChorLoad (d : Desc) (s : State) : Host.Outcome State Fault Refusal :=
  .next (s.chDesc d (fun s n =>
    let first := dsArg d 1
    let count := dsArg d 2
    if 32 < first + count ∨ count = 0 ∨ 12 < count then s.fail stINVALID
    else if s.chRuns n then (s.raise [fCHFLAG_STOREBUSY n]).fail 0x68
    else s.setup State.chWrite ((List.range count).map (fun i =>
      (rCHPROG (32 * n + first + i), dsArgs d (8 + 2 * i) 2)))))

/-- CHOR_START: starts the engines of a mask, or arms their start. -/
def execChorStart (d : Desc) (s : State) : Host.Outcome State Fault Refusal :=
  .next (s.runDesc d true (fun s =>
    let m := dsArg d 0
    if bitAt (dsArg d 1) 0 then
      if s.on fCHSTARTH_ARM then s.fail stBUSY
      else
        let r := s.setup State.chWrite [(rCHSTARTL, dsArgs d 8 4),
          (rCHSTARTH, dsArgs d 12 2 + 2 ^ 16 + b2n (bitAt (dsArg d 1) 1) * 2 ^ 18 + m * 2 ^ 24)]
        if r.status = stOK && r.st.on fCHSTARTH_LATE && r.st.on fCHSTARTH_LATEDROP then { r with status := 0x4A } else r
    else s.setup State.chWrite [(rCHCTL, (putFld (s.reg rCHCTL) fCHCTL_EN (s.fld fCHCTL_EN ||| m)).toNat)]))

/-- CHOR_STOP: stops the engines of a mask. -/
def execChorStop (d : Desc) (s : State) : Host.Outcome State Fault Refusal :=
  .next (s.runDesc d true (fun s =>
    let en := s.fld fCHCTL_EN
    s.setup State.chWrite [(rCHCTL, (putFld (s.reg rCHCTL) fCHCTL_EN (en - (en &&& dsArg d 0))).toNat)]))

/-- CHOR_PUT: the words that fit into TX. -/
def execChorPut (d : Desc) (s : State) : Host.Outcome State Fault Refusal :=
  .next (s.chDesc d (fun s n =>
    let count := dsArg d 1
    if count = 0 ∨ 6 < count then s.fail stINVALID
    else
      let k := min count (s.txCap n - (s.che n).tx.length)
      let r := s.setup State.chWrite ((List.range k).map (fun i => (rCHTX n, dsArgs d (8 + 4 * i) 4)))
      { r with status := if r.status != stOK then r.status else if k < count then 0x70 else stOK, result := k }))

/-- Read up to `k` words from RX. -/
def State.chGets : Nat → Nat → State → List Nat × State
  | 0, _, s => ([], s)
  | k + 1, n, s =>
    match (s.che n).rx with
    | [] => ([], s)
    | _ :: _ =>
      let r := s.chGetRx n
      let q := State.chGets k n r.2
      (r.1 :: q.1, q.2)

/-- CHOR_GET: the words RX holds, up to a maximum. -/
def execChorGet (d : Desc) (s : State) : Host.Outcome State Fault Refusal :=
  .next (s.chDesc d (fun s n =>
    if dsArg d 1 = 0 ∨ 8 < dsArg d 1 then s.fail stINVALID
    else
      let r := State.chGets (dsArg d 1) n s
      ⟨r.2, stOK, r.1.length, (r.1.map (leBytes 4)).flatten, false⟩))

/-- CHOR_INJECT. -/
def execChorInject (d : Desc) (s : State) : Host.Outcome State Fault Refusal :=
  .next (s.chDesc d (fun s n =>
    let w := dsArgs d 2 2
    if chReserved w then s.fail stINVALID
    else if (s.che n).inj.isSome then (s.raise [fCHFLAG_INJBUSY n]).fail 0x71
    else s.setup State.chWrite [(rCHINJ n, w)]))

/-- CHOR_AT. -/
def execChorAt (d : Desc) (s : State) : Host.Outcome State Fault Refusal :=
  .next (s.chDesc d (fun s n => s.setup State.chWrite [(rCHATL n, dsArgs d 2 4), (rCHATH n, dsArgs d 6 2)]))

/-- CHOR_PADS: PAD_OWNED when a pad was refused; the others are applied. -/
def execChorPads (d : Desc) (s : State) : Host.Outcome State Fault Refusal :=
  .next (s.runDesc d true (fun s =>
    let o0 := dsArgs d 0 4
    let o1 := dsArgs d 4 4
    let r := s.setup State.chWrite [(rCHPADOWN 0, o0), (rCHPADOWN 1, o1), (rCHSWOUT, dsArgs d 8 4), (rCHSWOE, dsArgs d 12 4)]
    if r.status = stOK ∧ (r.st.fld (fCHPADOWN_OWN 0) ≠ o0 ∨ r.st.fld (fCHPADOWN_OWN 1) ≠ o1) then
      { r with status := 0x72 }
    else r))

/-- CHOR_QUERY. A read of ACTCNTL latches ACTCNTH. -/
def execChorQuery (d : Desc) (s : State) : Host.Outcome State Fault Refusal :=
  .next (s.chDesc d (fun s n =>
    let h := s.chor.act / 2 ^ 32
    let t := s.chSet (fun c => { c with latchH := h })
    let hi := h + b2n (s.on fCLKSEL_ROOT && s.on fCLKSTAT_PLLLOCK) * 2 ^ 16
    ⟨t, stOK, 0, leBytes 4 (s.reg rCHSTAT).toNat ++ leBytes 4 (s.reg rCHIRQ).toNat ++ leBytes 4 s.chor.act ++ leBytes 4 hi ++
      ([rCHSTALL n, rCHFLAG n, rCHLEVEL n, rCHLATE n].map (fun a => leBytes 4 (s.reg a).toNat)).flatten, false⟩))

end Sys2Proof.Machine
end

