-- ==== Sys2Proof/Machine/Ringer.lean ====
section
/-! DEFINITION. The programmable Ringers (R488 to R492), touch (R493, R494), the register writes of block 21 and its
descriptors. -/

namespace Sys2Proof.Machine

open Sys2Proof

/-! ### Engines (R488) -/

/-- Stop an engine: RUN, RUNNING and WAITING clear. -/
def State.ringStop (s : State) (n : Nat) : State :=
  (s.sets [(fRGCTL_RUN, bitTo (s.fld fRGCTL_RUN) n false), (fRGSTAT_RUNNING, bitTo (s.fld fRGSTAT_RUNNING) n false),
    (fRGSTAT_WAITING, bitTo (s.fld fRGSTAT_WAITING) n false)]).setEng n { s.eng n with waiting := false }

/-- Start an engine at PC 0 with F = 0, C0 = C1 = 0, the timer off and nothing pending. -/
def State.ringStart (s : State) (n : Nat) : State :=
  if (s.fld fRGSTAT_RUNNING).testBit n then s
  else
    (s.sets [(fRGCTL_RUN, bitTo (s.fld fRGCTL_RUN) n true), (fRGSTAT_RUNNING, bitTo (s.fld fRGSTAT_RUNNING) n true),
      (fRGPC_PC n, 0), (fRGPC_F n, 0), (fRGC_C0 n, 0), (fRGC_C1 n, 0), (fRGTH_ARM n, 0)]).setEng n {}

/-- RINGER_FAULT: cause 1 RUNAWAY, 2 BADOP; either stop clears RUN. -/
def State.ringFault (s : State) (n cause : Nat) : State :=
  let pc := s.fld (fRGPC_PC n)
  let t := (s.ringStop n).raise [if cause = 1 then fRGFLAG_RUNAWAY else fRGFLAG_BADOP]
  t.evPush 1 n 0x18 (n + 256 * cause + 65536 * pc)

/-- An engine goes on after an instruction: 32 without WAIT or HALT stop it (R488). -/
def State.ringGo (s : State) (n pc : Nat) : State :=
  let e := s.eng n
  let t := (s.setFld (fRGPC_PC n) (pc % 32)).setEng n { e with icount := e.icount + 1 }
  if 32 ≤ e.icount + 1 then t.ringFault n 1 else t

/-- The PC after the present one. -/
def State.ringNext (s : State) (n : Nat) : State := s.ringGo n (s.fld (fRGPC_PC n) + 1)

/-- Fields of a Ringer instruction (R490). -/
def rgOp (w : Nat) : Nat := bitsOf w 27 5
def rgSrc (w : Nat) : Nat := bitsOf w 24 3
def rgCmp (w : Nat) : Nat := bitsOf w 21 3
def rgAddr (w : Nat) : Nat := bitsOf w 16 5
def rgImm (w : Nat) : Nat := bitsOf w 0 16

/-- The word an engine is at. -/
def State.ringWord (s : State) (n : Nat) : Nat := s.fld (fRGPROG_WORD (32 * n + s.fld (fRGPC_PC n)))

/-- Whether a word is an instruction: a defined OP, CMP in range, and every field it does not use 0 (R490). -/
def rgValid (w : Nat) : Bool :=
  let z := fun (b : Nat) => b = 0
  let imm := rgImm w
  match rgOp w with
  | 0x00 => bitsOf w 0 27 = 0
  | 0x01 => z (rgSrc w) && z (rgCmp w) && z (rgAddr w) && decide (imm < 64)
  | 0x02 => decide (rgCmp w < 5) && z (rgAddr w)
  | 0x03 => decide (rgCmp w < 3) && z (rgSrc w) && z imm
  | 0x04 => decide (rgCmp w < 2) && z (rgSrc w) && z (rgAddr w)
  | 0x05 => decide (rgCmp w < 2) && z (rgSrc w) && z (rgAddr w)
  | 0x06 => z (rgCmp w) && z (rgAddr w)
  | 0x07 => bitsOf w 0 27 = 0
  | 0x08 => bitsOf w 0 27 = 0
  | 0x09 => z (rgCmp w) && z (rgAddr w) && decide (imm < 256)
  | 0x0A => bitsOf w 0 27 = 0
  | 0x0B => z (rgSrc w) && z (rgCmp w) && z (rgAddr w) && decide (imm < 256)
  | _ => false

/-- A value an engine tests or emits (R489, R490). -/
def State.ringVal (s : State) (n src : Nat) : Int :=
  let r := s.ring
  match src with
  | 0 => r.ax
  | 1 => r.ay
  | 2 => r.az
  | 3 => (max r.ax.natAbs (max r.ay.natAbs r.az.natAbs) : Nat)
  | 4 => (max (s.fld fRGSHOCK_X) (max (s.fld fRGSHOCK_Y) (s.fld fRGSHOCK_Z)) : Nat)
  | 5 => signed 16 (s.fld (fRGC_C0 n))
  | 6 => signed 16 (s.fld (fRGC_C1 n))
  | _ => signed 16 ((s.eng n).trig + 256 * r.lastCode)

/-- HALT. -/
def State.rgHalt (s : State) (n : Nat) : State := s.ringStop n

/-- WAIT: the engine goes on at once when a trigger of its mask is pending, else it waits (R489). -/
def State.rgWait (s : State) (n w : Nat) : State :=
  let e := s.eng n
  let mask := rgImm w
  let hit := e.pend &&& mask
  let t := s.setFld (fRGPC_PC n) ((s.fld (fRGPC_PC n) + 1) % 32)
  if hit = 0 then
    (t.setFld fRGSTAT_WAITING (bitTo (t.fld fRGSTAT_WAITING) n true)).setEng n { e with waiting := true, mask := mask, icount := 0 }
  else t.setEng n { e with mask := mask, pend := e.pend ^^^ hit, trig := hit, icount := 0 }

/-- TEST. -/
def State.rgTest (s : State) (n w : Nat) : State :=
  let v := s.ringVal n (rgSrc w)
  let i := signed 16 (rgImm w)
  let f := match rgCmp w with
    | 0 => decide (i < v)
    | 1 => decide (v < i)
    | 2 => decide (i ≤ (v.natAbs : Int))
    | 3 => v = i
    | _ => (wrapInt 16 v &&& rgImm w) != 0
  (s.setFld (fRGPC_F n) (b2n f)).ringNext n

/-- BR. -/
def State.rgBr (s : State) (n w : Nat) : State :=
  let f := s.fld (fRGPC_F n)
  if rgCmp w = 2 ∨ rgCmp w = f then s.ringGo n (rgAddr w) else s.ringNext n

/-- The counter CMP[0] names. -/
def rgCounter (n w : Nat) : Fld := if rgCmp w = 0 then fRGC_C0 n else fRGC_C1 n

/-- SETC and ADDC. -/
def State.rgSetc (s : State) (n w : Nat) : State := (s.setFld (rgCounter n w) (rgImm w)).ringNext n
def State.rgAddc (s : State) (n w : Nat) : State :=
  let v := (clampInt 0 65535 (s.fld (rgCounter n w) + signed 16 (rgImm w))).toNat
  let t := s.setFld (rgCounter n w) v
  (if v = 0 then t.setFld (fRGPC_F n) 1 else t.setFld (fRGPC_F n) 0).ringNext n

/-- Arm an engine's timer (R491): a past time is late; under LATE_DROP it is disarmed. True when it was dropped. -/
def State.ringArm (s : State) (n t : Nat) : Bool × State :=
  if past t s.now then
    let d := lateness t s.now
    let drop := (s.fld fRGCTL_LATEDROP).testBit n
    let u := (s.sets [(fRGTH_LATE n, 1), (fRGLATE_LATE n, d), (fRGTH_ARM n, b2n (!drop))]).raise [fRGFLAG_LATE]
    (drop, u.setEng n { u.eng n with due := if drop then none else some t })
  else
    let u := s.sets [(fRGTH_LATE n, 0), (fRGTH_ARM n, 1)]
    (false, u.setEng n { u.eng n with due := some t })

/-- TREL, TABS and TOFF. -/
def State.rgTrel (s : State) (n w : Nat) : State := (s.ringArm n ((s.now + rgImm w * 2 ^ rgSrc w) % 2 ^ 48)).2.ringNext n
def State.rgTabs (s : State) (n : Nat) : State :=
  (s.ringArm n (s.fld (fRGTL_TIME n) + s.fld (fRGTH_TIME n) * 2 ^ 32)).2.ringNext n
def State.ringDisarm (s : State) (n : Nat) : State := (s.setFld (fRGTH_ARM n) 0).setEng n { s.eng n with due := none }
def State.rgToff (s : State) (n : Nat) : State := (s.ringDisarm n).ringNext n

/-- EMIT: DATA for SRC 4 to 7, which the spec does not list, is free (Log 13). -/
def State.rgEmit (s : State) (n w : Nat) : State :=
  let h := fun (k : Nat) => wrapInt 16 (s.ringVal n k)
  let data := match rgSrc w with
    | 0 => s.fld (fRGC_C1 n) * 2 ^ 16 + s.fld (fRGC_C0 n)
    | 1 => h 1 * 2 ^ 16 + h 0
    | 2 => h 2 * 2 ^ 16 + h 4
    | 3 => h 7
    | _ => s.free? % 2 ^ 32
  let t := if 4 ≤ rgSrc w then s.used 1 else s
  ((t.evPush 1 n (0x10 + n) data).setFld (fRGEMIT_IMM n) (rgImm w % 256)).ringNext n

/-- WAKE and SIGNAL. -/
def State.rgWake (s : State) (n : Nat) : State := ((s.ringNext n).raise [fRGFLAG_WAKE]).wake 4
def State.rgSignal (s : State) (n w : Nat) : State :=
  (List.range 8).foldl (fun t k => if (rgImm w).testBit k then t.ringTrig k 0x20 else t) (s.ringNext n)

/-- One instruction of an engine. -/
def State.ringInstr (s : State) (n : Nat) : State :=
  let w := s.ringWord n
  if !rgValid w then s.ringFault n 2
  else match rgOp w with
    | 0x00 => s.rgHalt n
    | 0x01 => s.rgWait n w
    | 0x02 => s.rgTest n w
    | 0x03 => s.rgBr n w
    | 0x04 => s.rgSetc n w
    | 0x05 => s.rgAddc n w
    | 0x06 => s.rgTrel n w
    | 0x07 => s.rgTabs n
    | 0x08 => s.rgToff n
    | 0x09 => s.rgEmit n w
    | 0x0A => s.rgWake n
    | _ => s.rgSignal n w

/-- Whether an engine runs instructions now. -/
def State.ringRuns (s : State) (n : Nat) : Bool :=
  n < 8 && (s.fld fRGSTAT_RUNNING).testBit n && !(s.eng n).waiting &&
    (match s.slp.st with
      | .crypt | .off => false
      | _ => true)

/-- Run an engine until WAIT or HALT, at most `k` instructions. -/
def State.ringRun : Nat → State → Nat → State
  | 0, s, _ => s
  | k + 1, s, n => if s.ringRuns n then State.ringRun k (s.ringInstr n) n else s

/-- RINGER_TRIGGER (R489): a trigger occurs for an engine, which runs until WAIT or HALT. -/
def execRingerTrigger (n t : Nat) (s : State) : Host.Outcome State Fault Refusal :=
  .next (if n < 8 ∧ t < 6 then State.ringRun 33 (s.ringTrig n (2 ^ t)) n else s)

/-- RINGER_TIMER_EXPIRY (R489, R491): an armed timer's time has come. -/
def execRingerTimerExpiry (n : Nat) (s : State) : Host.Outcome State Fault Refusal :=
  .next (
    match (s.eng n).due with
    | some t => if n < 8 ∧ reached t s.now then (s.ringDisarm n).ringTrig n 4 else s
    | none => s)

/-- After a step of line time every armed timer is tested (R491). -/
def State.ringRetest (s : State) : State :=
  (List.range 8).foldl (fun t n =>
    match (t.eng n).due with
    | some x => if past x t.now then (t.ringArm n x).2 else t
    | none => t) s

/-- One instruction of an engine, when its word is a valid one with this OP. -/
def State.ringOp (s : State) (op n : Nat) (act : State → Nat → State) : State :=
  let w := s.ringWord n
  if s.ringRuns n && rgValid w && rgOp w = op then act s w else s

/-- RINGER_HALT. -/
def execRingerHalt (n : Nat) (s : State) : Host.Outcome State Fault Refusal :=
  .next (s.ringOp 0x00 n (fun t _ => t.rgHalt n))
/-- RINGER_WAIT. -/
def execRingerWait (n : Nat) (s : State) : Host.Outcome State Fault Refusal := .next (s.ringOp 0x01 n (·.rgWait n ·))
/-- RINGER_TEST. -/
def execRingerTest (n : Nat) (s : State) : Host.Outcome State Fault Refusal := .next (s.ringOp 0x02 n (·.rgTest n ·))
/-- RINGER_BR. -/
def execRingerBr (n : Nat) (s : State) : Host.Outcome State Fault Refusal := .next (s.ringOp 0x03 n (·.rgBr n ·))
/-- RINGER_SETC. -/
def execRingerSetc (n : Nat) (s : State) : Host.Outcome State Fault Refusal := .next (s.ringOp 0x04 n (·.rgSetc n ·))
/-- RINGER_ADDC. -/
def execRingerAddc (n : Nat) (s : State) : Host.Outcome State Fault Refusal := .next (s.ringOp 0x05 n (·.rgAddc n ·))
/-- RINGER_TREL. -/
def execRingerTrel (n : Nat) (s : State) : Host.Outcome State Fault Refusal := .next (s.ringOp 0x06 n (·.rgTrel n ·))
/-- RINGER_TABS. -/
def execRingerTabs (n : Nat) (s : State) : Host.Outcome State Fault Refusal :=
  .next (s.ringOp 0x07 n (fun t _ => t.rgTabs n))
/-- RINGER_TOFF. -/
def execRingerToff (n : Nat) (s : State) : Host.Outcome State Fault Refusal :=
  .next (s.ringOp 0x08 n (fun t _ => t.rgToff n))
/-- RINGER_EMIT. -/
def execRingerEmit (n : Nat) (s : State) : Host.Outcome State Fault Refusal := .next (s.ringOp 0x09 n (·.rgEmit n ·))
/-- RINGER_WAKE. -/
def execRingerWake (n : Nat) (s : State) : Host.Outcome State Fault Refusal :=
  .next (s.ringOp 0x0A n (fun t _ => t.rgWake n))
/-- RINGER_SIGNAL. -/
def execRingerSignal (n : Nat) (s : State) : Host.Outcome State Fault Refusal := .next (s.ringOp 0x0B n (·.rgSignal n ·))

/-! ### Touch (R493, R494) -/

/-- Update touch's own state; one electrode of it. -/
def State.tchEl (s : State) (e : Nat) : Electrode := s.touch.el.getD e {}
def State.setTchEl (s : State) (e : Nat) (x : Electrode) : State :=
  { s with touch := { s.touch with el := s.touch.el.set e x } }

/-- Begin the calibration of an electrode: its next 8 measurements are averaged. -/
def State.tchCal (s : State) (e : Nat) : State :=
  (s.setFld fTCHSTAT_CALIB (bitTo (s.fld fTCHSTAT_CALIB) e true)).setTchEl e { (s.tchEl e) with cal := 8, sum := 0 }

/-- A touch event: a FIFO entry, the TOUCH wake, trigger 4 and TRIG's code; `k` is 0 DOWN, 1 UP, 2 FAULT, 3 RECAL. -/
def State.tchEvent (s : State) (k e v : Nat) : State :=
  let t := (s.evPush 2 e (0x20 + k) (e + 256 * (v % 65536))).rgSet (fun r => { r with lastCode := 0x20 + k })
  (t.ringTrigAll 0x10).wake 12

/-- An electrode goes into fault: it is skipped until it has measured well again (Table 22.5). -/
def State.tchFault (s : State) (e cause : Nat) : State :=
  let t := s.sets [(fTCHSTAT_FAULT, bitTo (s.fld fTCHSTAT_FAULT) e true), (fTCHSTAT_CALIB, bitTo (s.fld fTCHSTAT_CALIB) e false)]
  let t := t.setTchEl e {}
  let t := match cause with
    | 0 => t.raise [fTCHFLAG_TMO]
    | 1 => t.raise [fTCHFLAG_SHORT]
    | _ => t
  t.tchEvent 2 e cause

/-- Whether a measurement is good, else its cause: 0 timeout, 1 short, 2 low count (Table 22.5). -/
def State.tchCause (s : State) (c : Option Nat) : Option Nat :=
  match c with
  | none => some 0
  | some v => if v < s.fld fTCHLIM_MIN then some 1 else if s.fld fTCHLIM_MAX < v then some 2 else none

/-- BASE = COUNT, and TOUCH_RECAL. -/
def State.tchRebase (s : State) (e count : Nat) : State :=
  ((s.setFld (fTCHBASE_BASE e) count).raise [fTCHFLAG_RECAL]).tchEvent 3 e count

/-- One good measurement of an electrode (R494). -/
def State.tchGood (s : State) (e count : Nat) : State :=
  let x := { s.tchEl e with bad := 0 }
  if 0 < x.cal then
    let sum := x.sum + count
    if x.cal = 1 then
      (s.sets [(fTCHBASE_BASE e, (openQuot sum 8).toNat), (fTCHSTAT_CALIB, bitTo (s.fld fTCHSTAT_CALIB) e false)]).setTchEl e {}
    else s.setTchEl e { x with cal := x.cal - 1, sum := sum }
  else
    let base := s.fld (fTCHBASE_BASE e)
    let thr : Int := s.fld fTCHCFG_THR
    let delta : Int := (base : Int) - count
    let deb := max 1 (s.fld fTCHCFG_DEB)
    let touched := (s.fld fTCHSTAT_TOUCHED).testBit e
    let x := { x with
      down := if thr ≤ delta then x.down + 1 else 0
      up := if delta < thr - (s.fld fTCHCFG_HYST : Int) then x.up + 1 else 0
      low := if delta ≤ -thr then x.low + 1 else 0 }
    if !touched && decide (deb ≤ x.down) then
      (((s.setTchEl e { x with up := 0, since := s.now }).setFld fTCHSTAT_TOUCHED (bitTo (s.fld fTCHSTAT_TOUCHED) e true)).raise
        [fTCHFLAG_DOWN]).tchEvent 0 e (wrapInt 16 delta)
    else if touched && decide (deb ≤ x.up) then
      let dur := (s.now + 2 ^ 48 - x.since) % 2 ^ 48
      (((s.setTchEl e { x with down := 0 }).setFld fTCHSTAT_TOUCHED (bitTo (s.fld fTCHSTAT_TOUCHED) e false)).raise
        [fTCHFLAG_UP]).tchEvent 1 e (min 65535 (dur * 10 / 32768))
    else if touched && s.on fTCHCFG_MAXDUR &&
        decide (s.fld fTCHCFG_MAXDUR * 32768 ≤ (s.now + 2 ^ 48 - x.since) % 2 ^ 48) then
      ((s.setTchEl e {}).setFld fTCHSTAT_TOUCHED (bitTo (s.fld fTCHSTAT_TOUCHED) e false)).tchRebase e count
    else if 4 ≤ x.low then (s.setTchEl e { x with low := 0 }).tchRebase e count
    else
      let t := s.setTchEl e x
      if !touched && decide (2 * delta.natAbs < s.fld fTCHCFG_THR) then
        t.setFld (fTCHBASE_BASE e) (openQuot ((base : Int) * 2 ^ s.fld fTCHCFG_DRIFT - delta) (2 ^ s.fld fTCHCFG_DRIFT)).toNat
      else t

/-- One measurement of an enabled electrode: three bad ones in a row are a fault. -/
def State.tchMeasure (s : State) (e : Nat) (c : Option Nat) : State :=
  let t := match c with
    | some v => s.setFld (fTCHRAW_COUNT e) (min 65535 v)
    | none => s
  match s.tchCause c with
  | none => t.tchGood e (c.getD 0)
  | some k =>
    let x := t.tchEl e
    if 3 ≤ x.bad + 1 then t.tchFault e k else t.setTchEl e { x with bad := x.bad + 1, down := 0, up := 0, low := 0 }

/-- TOUCH_MEASUREMENT (R493, R494): at the start of a PERIOD, the count of each of TE0 to TE3, none for a timeout. -/
def execTouchMeasurement (c : List (Option Nat)) (s : State) : Host.Outcome State Fault Refusal :=
  .next (
    if !s.touch.on || !(s.slp.st = .run || s.slp.st = .doze) then s
    else (List.range 4).foldl (fun t e =>
      if (t.fld fTCHCTL_EN).testBit e && !(t.fld fTCHSTAT_FAULT).testBit e then t.tchMeasure e (c.getD e none) else t) s)

/-- TOUCH_RETRY (R498): a faulted electrode is measured again every 10 s; 3 good measurements clear the fault, and a
calibration follows. -/
def execTouchRetry (e : Nat) (c : Option Nat) (s : State) : Host.Outcome State Fault Refusal :=
  .next (
    if !s.touch.on || 4 ≤ e || !(s.fld fTCHSTAT_FAULT).testBit e || !(s.fld fTCHCTL_EN).testBit e then s
    else
      let t := match c with
        | some v => s.setFld (fTCHRAW_COUNT e) (min 65535 v)
        | none => s
      let x := t.tchEl e
      match s.tchCause c with
      | some _ => t.setTchEl e { x with good := 0 }
      | none =>
        if 3 ≤ x.good + 1 then
          ((t.setFld fTCHSTAT_FAULT (bitTo (t.fld fTCHSTAT_FAULT) e false)).setTchEl e {}).tchCal e
        else t.setTchEl e { x with good := x.good + 1 })

/-- Stop touch: its Chorister stops. -/
def State.tchStop (s : State) : State :=
  let t := { s with touch := { s.touch with on := false } }
  match s.chor.touchEng with
  | some n => t.chStop n
  | none => t

/-! ### Register writes of block 21 -/

/-- A write of RGCTL (R488, R497): RUN bits start and stop engines. -/
def State.rgWriteCtl (s : State) (v : Word) : State :=
  let t := s.plainWrite rRGCTL (putFld v fRGCTL_RUN (s.fld fRGCTL_RUN))
  ((List.range 8).foldl (fun u n => if (fldOf v fRGCTL_RUN).testBit n then u.ringStart n else
    if (u.fld fRGSTAT_RUNNING).testBit n then u.ringStop n else u) t).recogSync

/-- A write of TCHCTL: EN to 0 for every electrode stops touch. -/
def State.tchWriteCtl (s : State) (v : Word) : State :=
  let t := s.plainWrite rTCHCTL v
  if t.fld fTCHCTL_EN = 0 && s.touch.on then t.tchStop else t

/-- A write of a register of block 21. -/
def State.rgWrite (s : State) (a : Nat) (v : Word) : State :=
  if a = rRGCTL then s.rgWriteCtl v
  else if a = rTCHCTL then s.tchWriteCtl v
  else if a = rTILTREF 0 ∨ a = rTILTREF 1 ∨ a = rTILTREF 2 then
    (s.plainWrite a v).rgSet (fun r => { r with tiltDone := false })
  else if rRGPC 0 ≤ a ∧ a < rRGPC 8 then
    let n := (a - rRGPC 0) / 0x20
    if (s.fld fRGSTAT_RUNNING).testBit n then s.raise [fRGFLAG_STOREBUSY] else s.plainWrite a v
  else if rRGPROG 0 ≤ a ∧ a < rRGPROG 256 then
    if (s.fld fRGSTAT_RUNNING).testBit ((a - rRGPROG 0) / 0x80) then s.raise [fRGFLAG_STOREBUSY] else s.plainWrite a v
  else s.plainWrite a v

/-! ### Descriptors (Table 22.4) -/

/-- The roles of the opcodes of block 21. -/
def State.rgRole (s : State) : Bool := s.role = .cell || s.role = .loop

/-- RING_SETUP: RGCTL with RUN as it is, and the recognisers' configuration. -/
def execRingSetup (d : Desc) (s : State) : Host.Outcome State Fault Refusal :=
  .next (s.runDesc d s.rgRole (fun s =>
    s.setup State.rgWrite ((rRGCTL, dsArgs d 0 4 / 256 * 256 + s.fld fRGCTL_RUN) ::
      [rTAPCFG, rDTAPCFG, rSTEPCFG, rFFCFG, rSETCFG, rTILTCFG].zipIdx.map (fun p => (p.1, dsArgs d (4 + 4 * p.2) 4)))))

/-- RING_LOAD: up to six words into a stopped engine's store. -/
def execRingLoad (d : Desc) (s : State) : Host.Outcome State Fault Refusal :=
  .next (s.runDesc d s.rgRole (fun s =>
    let n := dsArg d 0
    let first := dsArg d 1
    let count := dsArg d 2
    if 8 ≤ n ∨ count = 0 ∨ 6 < count ∨ 32 < first + count then s.fail stINVALID
    else if (s.fld fRGSTAT_RUNNING).testBit n then (s.raise [fRGFLAG_STOREBUSY]).fail 0x68
    else s.setup State.rgWrite ((List.range count).map (fun i =>
      (rRGPROG (32 * n + first + i), dsArgs d (8 + 4 * i) 4)))))

/-- RING_START: the engines of a mask start at PC 0, with the LATEDROP bits given for them. -/
def execRingStart (d : Desc) (s : State) : Host.Outcome State Fault Refusal :=
  .next (s.runDesc d s.rgRole (fun s =>
    let m := dsArg d 0
    let late := s.fld fRGCTL_LATEDROP
    let late := late - (late &&& m) + (dsArg d 1 &&& m)
    s.setup State.rgWrite
      [(rRGCTL, (putFld (putFld (s.reg rRGCTL) fRGCTL_LATEDROP late) fRGCTL_RUN (s.fld fRGCTL_RUN ||| m)).toNat)]))

/-- RING_STOP. -/
def execRingStop (d : Desc) (s : State) : Host.Outcome State Fault Refusal :=
  .next (s.runDesc d s.rgRole (fun s =>
    let run := s.fld fRGCTL_RUN
    s.setup State.rgWrite [(rRGCTL, (putFld (s.reg rRGCTL) fRGCTL_RUN (run - (run &&& dsArg d 0))).toNat)]))

/-- RING_TIMER: arms the timer of an engine, running or not (R491, R492). -/
def execRingTimer (d : Desc) (s : State) : Host.Outcome State Fault Refusal :=
  .next (s.runDesc d s.rgRole (fun s =>
    let n := dsArg d 0
    let t := dsArgs d 2 6
    if 8 ≤ n then s.fail stINVALID
    else
      let lo := s.vet .nave (rRGTL n) (BitVec.ofNat 32 (t % 2 ^ 32))
      let hi := lo.st.vet .nave (rRGTH n) (BitVec.ofNat 32 (t / 2 ^ 32 + 2 ^ 16))
      if lo.denied || hi.denied then hi.st.fail stDENIED
      else
        let r := ((hi.st.plainWrite (rRGTL n) lo.v).plainWrite (rRGTH n) hi.v).ringArm n t
        if r.1 then r.2.fail 0x4A else r.2.ok))

/-- KNOCK_SETUP. -/
def execKnockSetup (d : Desc) (s : State) : Host.Outcome State Fault Refusal :=
  .next (s.runDesc d s.rgRole (fun s =>
    s.setup State.rgWrite [(rKNCFG, dsArgs d 0 4), (rKNGAP, dsArgs d 4 4), (rKNHOLD, dsArgs d 8 4)]))

/-- TILT_REF: latches the TILT averages; where none has been taken yet what it latches is free (Log 14). -/
def execTiltRef (d : Desc) (s : State) : Host.Outcome State Fault Refusal :=
  .next (s.runDesc d s.rgRole (fun s =>
    if s.recogRate.isNone then s.fail 0x69
    else
      let a := match s.ring.tilt with
        | some p => (wrapInt 32 p.1, wrapInt 32 p.2.1, wrapInt 32 p.2.2)
        | none => (Config.free s.free, Config.free (s.free + 1), Config.free (s.free + 2))
      (if s.ring.tilt.isSome then s else s.used 3).setup State.rgWrite
        [(rTILTREF 0, a.1), (rTILTREF 1, a.2.1), (rTILTREF 2, a.2.2)]))

/-- TOUCH_SETUP: TCHCTL with EN as it is, TCHCFG and TCHLIM. -/
def execTouchSetup (d : Desc) (s : State) : Host.Outcome State Fault Refusal :=
  .next (s.runDesc d s.rgRole (fun s =>
    let v := dsArgs d 0 4
    let p := bitsOf v 16 10
    if p < 10 ∨ 1000 < p then s.fail stINVALID
    else if s.touch.on then s.fail stBUSY
    else s.setup State.rgWrite [(rTCHCTL, v / 16 * 16 + s.fld fTCHCTL_EN), (rTCHCFG, dsArgs d 4 4), (rTCHLIM, dsArgs d 8 4)]))

/-- Load and start the touch program on a stopped engine (R493, R511). -/
def State.tchLoad (s : State) (n : Nat) : State :=
  let t := (List.range 32).foldl (fun u i => u.setFld (fCHPROG_INSTR (32 * n + i)) (Config.touchWord i)) s
  ((t.chRestart n).chStart n false).chSet (fun c => { c with touchEng := some n })

/-- TOUCH_START: the touch program on the engine ENG names, and the electrodes of a mask with calibration. -/
def execTouchStart (d : Desc) (s : State) : Host.Outcome State Fault Refusal :=
  .next (s.runDesc d s.rgRole (fun s =>
    let m := dsArg d 0
    let n := s.fld fTCHCTL_ENG
    if 16 ≤ m then s.fail stINVALID
    else if s.chRuns n && s.chor.touchEng != some n then s.fail 0x6A
    else if (m &&& s.fld fTCHSTAT_FAULT) != 0 then s.fail 0x6B
    else
      let r := s.setup State.rgWrite [(rTCHCTL, (putFld (s.reg rTCHCTL) fTCHCTL_EN (s.fld fTCHCTL_EN ||| m)).toNat)]
      if r.status != stOK then r
      else
        let t := if r.st.chor.touchEng = some n && r.st.chRuns n then r.st else r.st.tchLoad n
        let t := { t with touch := { t.touch with on := true } }
        { r with st := (List.range 4).foldl (fun u e => if m.testBit e then u.tchCal e else u) t }))

/-- TOUCH_STOP. -/
def execTouchStop (d : Desc) (s : State) : Host.Outcome State Fault Refusal :=
  .next (s.runDesc d s.rgRole (fun s =>
    s.setup State.rgWrite [(rTCHCTL, (putFld (s.reg rTCHCTL) fTCHCTL_EN 0).toNat)]))

/-- TOUCH_CAL: the named electrodes calibrate again. -/
def execTouchCal (d : Desc) (s : State) : Host.Outcome State Fault Refusal :=
  .next (s.runDesc d s.rgRole (fun s =>
    ((List.range 4).foldl (fun u e => if (dsArg d 0).testBit e then u.tchCal e else u) s).ok))

/-- RING_QUERY. -/
def execRingQuery (d : Desc) (s : State) : Host.Outcome State Fault Refusal :=
  .next (s.runDesc d s.rgRole (fun s =>
    { s.query [rRGSTAT, rRGFLAG, rSTEPCNT, rKNCNT, rEVFSTAT, rRGSHOCK] with result := 0 }))

/-- TOUCH_QUERY. -/
def execTouchQuery (d : Desc) (s : State) : Host.Outcome State Fault Refusal :=
  .next (s.runDesc d s.rgRole (fun s =>
    { s.query ([rTCHSTAT, rTCHFLAG] ++ (List.range 4).map rTCHRAW ++ (List.range 4).map rTCHBASE) with result := 0 }))

end Sys2Proof.Machine
end

