-- ==== Sys2Proof/Machine/Field.lean ====
section
/-! DEFINITION. Field inputs and outputs (chapter 24), and the draining of the event FIFO (R486, R487). -/

namespace Sys2Proof.Machine

open Sys2Proof

/-- Update field I/O's own state. -/
def State.fioSet (s : State) (f : Field → Field) : State := { s with fio := f s.fio }

/-! ### The event FIFO (R486, R487) -/

/-- Post a record that is already built, by the part's own path (R239). -/
def State.postBuilt (s : State) (rec_ : List Byte) : State :=
  if s.role = .chapter then s.postRecord rec_ else s.queueUp 0x5 1 rec_

/-- The event code and DATA of a FIFO entry (R487, Tables 22.4 and 24.4). -/
def State.evfRecord (s : State) (e : Evf) : Nat × List Byte :=
  let src := bitsOf e.w1 16 4
  let unit := bitsOf e.w1 20 4
  let code := bitsOf e.w1 24 8
  if e.gap then (0x0630, leBytes 4 e.w2)
  else if src = 3 then (0x0800 + code, leBytes 1 unit ++ leBytes 4 e.w2)
  else if src = 1 ∧ code < 0x18 then (0x0600 + code, leBytes 1 (s.fld (fRGEMIT_IMM unit)) ++ leBytes 4 e.w2)
  else (0x0600 + code, leBytes 4 e.w2 ++ leBytes 2 e.more)

/-- Whether RGCTL.EVMASK masks an entry's source class. -/
def State.evfMasked (s : State) (e : Evf) : Bool :=
  let m := s.fld fRGCTL_EVMASK
  !e.gap && (match bitsOf e.w1 16 4 with
    | 0 => m.testBit 0
    | 1 => m.testBit 1
    | 2 => m.testBit 2
    | 4 => m.testBit 3
    | _ => false)

/-- EVF2_READ (R486, R487): a read of EVF2 removes the head entry. When Rhoco drains the FIFO it posts the entry's record
and clears the field input's flag (R534); another reader gets the word. -/
def execEvf2Read (byRhoco : Bool) (s : State) : Host.Outcome State Fault Refusal :=
  .next (
    match s.ring.evf with
    | [] => if byRhoco then s else s.emit (.reply (rEVF 2) (leBytes 4 0))
    | e :: rest =>
      let t := ({ s with ring := { s.ring with evf := rest } }).evfSync
      if !byRhoco then t.emit (.reply (rEVF 2) (leBytes 4 e.w2))
      else if !t.rhocoUp then s
      else
        let r := t.evfRecord e
        let src := bitsOf e.w1 16 4
        let n := bitsOf e.w1 20 4
        let t := if src = 3 ∧ !e.gap ∧ n < 4 then
            match bitsOf e.w1 24 8 with
            | 2 => t.setFld ⟨rFIFLAG, 4 + n, 1⟩ 0
            | 3 => t.setFld ⟨rFIFLAG, 12 + n, 1⟩ 0
            | _ => t.setFld ⟨rFIFLAG, n, 1⟩ 0
          else t
        if t.evfMasked e then t
        else t.postBuilt (leBytes 2 r.1 ++ leBytes 2 t.srcField ++ leBytes 4 e.w0 ++ leBytes 2 e.w1 ++ padTo 6 r.2))

/-! ### Inputs (R524, R525, R532) -/

/-- The flag bits of input `n`. -/
def fFI (lo n : Nat) : Fld := ⟨rFIFLAG, lo + n, 1⟩

/-- One filtered change of an enabled input. -/
def State.fieldEdge (s : State) (n : Nat) (up : Bool) : State :=
  let t := s.setFld fFISTAT_STATE (bitTo (s.fld fFISTAT_STATE) n up)
  let t := if up then t.setFld (fFICNT_COUNT n) (t.fld (fFICNT_COUNT n) + 1) else t
  let t := t.raise [fFI 0 n]
  let sel := bitsOf (t.fld fFICTL_EDGE) (2 * n) 2
  if (up && sel.testBit 0) || (!up && sel.testBit 1) then t.evPush 3 n (b2n (!up)) (t.fld (fFICNT_COUNT n)) else t

/-- FIELD_INPUT_EDGE (R525): the filtered comparator states of the four inputs; changes are taken in ascending order. An
input whose sink is off, in break or reversed reads 0. -/
def execFieldInputEdge (x : Nat) (s : State) : Host.Outcome State Fault Refusal :=
  .next (
    if !s.blockOn 23 then s
    else (List.range 4).foldl (fun t n =>
      let on := (t.fld fFICTL_EN).testBit n && !(t.fld fFISTAT_BREAK).testBit n && !(t.fld fFISTAT_REV).testBit n
      let old := (t.fld fFISTAT_STATE).testBit n
      if on && old != x.testBit n then t.fieldEdge n (x.testBit n) else t) s)

/-- IN_BREAK (R532): the state reads 0 and IN_BREAK is stored. -/
def execInBreak (n : Nat) (s : State) : Host.Outcome State Fault Refusal :=
  .next (
    if 4 ≤ n || !s.blockOn 23 || !(s.fld fFICTL_EN).testBit n || !(s.fld fFICTL_BRKEN).testBit n
        || (s.fld fFISTAT_BREAK).testBit n then s
    else
      let t := s.sets [(fFISTAT_BREAK, bitTo (s.fld fFISTAT_BREAK) n true),
        (fFISTAT_STATE, bitTo (s.fld fFISTAT_STATE) n false)]
      (t.raise [fFI 4 n]).evPush 3 n 2 (t.fld (fFICNT_COUNT n)))

/-- IN_BREAK_CLEAR (R532). -/
def execInBreakClear (n : Nat) (s : State) : Host.Outcome State Fault Refusal :=
  .next (if n < 4 then s.setFld fFISTAT_BREAK (bitTo (s.fld fFISTAT_BREAK) n false) else s)

/-- IN_STUCK (R532): no filtered edge for TMO × 10 s. -/
def execInStuck (n : Nat) (s : State) : Host.Outcome State Fault Refusal :=
  .next (
    if 4 ≤ n || !s.blockOn 23 || !(s.fld fFICTL_EN).testBit n || bitsOf (s.fld fFISTUCK_TMO) (8 * n) 8 = 0 then s
    else (s.raise [fFI 12 n]).evPush 3 n 3 (s.fld (fFICNT_COUNT n)))

/-- IN_OVERVOLTAGE (R532): input `n` is above 33 V, below −5 V, or back in range. A reversed input reads 0. -/
def execInOvervoltage (n : Nat) (ov rev : Bool) (s : State) : Host.Outcome State Fault Refusal :=
  .next (
    if 4 ≤ n || !s.blockOn 23 then s
    else
      let t := s.sets [(fFISTAT_OV, bitTo (s.fld fFISTAT_OV) n ov), (fFISTAT_REV, bitTo (s.fld fFISTAT_REV) n rev)]
      let t := if ov then t.raise [fFI 8 n] else t
      if rev then (t.raise [fFI 16 n]).setFld fFISTAT_STATE (bitTo (t.fld fFISTAT_STATE) n false) else t)

/-! ### Outputs (R526 to R531) -/

/-- Pass FOCTL to the latch (R527, R528): SAFE and SAFELVL always, LEVEL for the outputs that are armed. LEVEL 1 restarts an
output that is off for a short (R533); LEVEL 0 gives up its retry. -/
def State.foApply (s : State) : State :=
  let arm := s.fld fFOCTL_ARM
  let lvl := s.fld fFOCTL_LEVEL
  let keep := fun (m : Nat) => m - (m &&& arm)
  (s.fioSet (fun f => { f with
    safe := s.fld fFOCTL_SAFE, safeLvl := s.fld fFOCTL_SAFELVL
    latch := keep f.latch + (lvl &&& arm), safed := keep f.safed
    short := f.short - (f.short &&& (lvl &&& arm)), retry := keep f.retry })).foSync

/-- A write of FOCTL: while the safe state is forced it is stored and does not reach the latch (R531). -/
def State.foWriteCtl (s : State) (v : Word) : State :=
  let t := s.plainWrite rFOCTL v
  if t.on fCLKSTAT_FORCED then t.foSync else t.foApply

/-- The forcing has lifted: the value last written acts (R531). -/
def State.foRelease (s : State) : State := if s.blockOn 23 then s.foApply else s

/-- A write of a register of block 23. -/
def State.fiWrite (s : State) (a : Nat) (v : Word) : State :=
  if a = rFOCTL then s.foWriteCtl v
  else if a = rFOKICK then if v = 0xF1E1 then s.fioSet (fun f => { f with kick := some s.now }) else s
  else if a = rFICTL then
    let t := s.plainWrite a v
    let on := fun (f : Fld) => t.fld f &&& t.fld fFICTL_EN
    t.sets [(fFISTAT_STATE, on fFISTAT_STATE), (fFISTAT_BREAK, on fFISTAT_BREAK)]
  else s.plainWrite a v

/-- FOCTL_WRITE (R527). -/
def execFoctlWrite (w : World) (v : Word) (s : State) : Host.Outcome State Fault Refusal :=
  .next (let r := s.vet w rFOCTL v
    r.st.fiWrite rFOCTL r.v)

/-- FOKICK (R529). -/
def execFokick (w : World) (v : Word) (s : State) : Host.Outcome State Fault Refusal :=
  .next (let r := s.vet w rFOKICK v
    r.st.fiWrite rFOKICK r.v)

/-- Whether the always-on logic sends a keepalive now (R529): not in OFF, no reset of brown-out scope held, and with SWKA a
FOKICK in the last 100 ms. -/
def State.kaSends (s : State) : Bool :=
  s.slp.st != .off && !s.rst.hold &&
    (!s.on fFOCTL_SWKA || (match s.fio.kick with
      | some t => decide ((s.now + 2 ^ 48 - t) % 2 ^ 48 * 10 ≤ 32768)
      | none => false))

/-- KEEPALIVE (R529): every 10 ms; the Buttress die notes when it came. -/
def execKeepalive (s : State) : Host.Outcome State Fault Refusal :=
  .next (if s.blockOn 23 && s.kaSends && !s.fio.silent then s.fioSet (fun f => { f with ka := some s.now }) else s)

/-- LOGIC_SILENT (R530): no keepalive for 200 ms (180 ms at the least). An output with SAFE switches to SAFELVL, which the
latch takes. -/
def execLogicSilent (s : State) : Host.Outcome State Fault Refusal :=
  .next (
    let soon := match s.fio.ka with
      | some t => decide ((s.now + 2 ^ 48 - t) % 2 ^ 48 < 5898)
      | none => false
    if s.fio.silent || soon then s
    else
      (s.fioSet (fun f => { f with
        silent := true, safed := f.safed ||| f.safe
        latch := f.latch - (f.latch &&& f.safe) + (f.safeLvl &&& f.safe) })).foSync)

/-- Post an output event: [0] output, [2:1] current or voltage. -/
def State.foEvent (s : State) (f : Fld) (code out v : Nat) : State := s.flagEvent f code (leBytes 1 out ++ leBytes 2 v)

/-- The flag bits and the current monitor of output `n`. -/
def fFO (lo n : Nat) : Fld := ⟨rFOFLAG, lo + n, 1⟩
def fFOI (n : Nat) : Fld := if n = 0 then fFOMON_I0 else fFOMON_I1

/-- KEEPALIVE_RETURN (R530): the outputs stay as they are with ARM = 0; SILENT sets, and SAFED if any output went to its
safe level, for which Rhoco posts OUT_SAFE. -/
def execKeepaliveReturn (s : State) : Host.Outcome State Fault Refusal :=
  .next (
    if !s.fio.silent || !s.kaSends then s
    else
      let t := (s.fioSet (fun f => { f with silent := false, ka := some s.now })).setFld fFOCTL_ARM 0
      let t := (t.raise [fFOFLAG_SILENT]).foSync
      (List.range 2).foldl (fun u n =>
        if u.fio.safed.testBit n then u.foEvent fFOFLAG_SAFED 0x0813 n (u.fld (fFOI n)) else u) t)

/-- OUT_SHORT (R533): 3 ms in current limit at `ma`. The latch holds 0; with RETRY a retry is due, but for the fourth
turn-off within 60 s. -/
def execOutShort (n ma : Nat) (s : State) : Host.Outcome State Fault Refusal :=
  .next (
    if 2 ≤ n || !s.fio.on.testBit n then s
    else
      let times := s.now :: (s.fio.times.getD n []).filter (fun t => decide ((s.now + 2 ^ 48 - t) % 2 ^ 48 < 60 * 32768))
      let again := (s.fld fFOCTL_RETRY).testBit n && decide (times.length < 4)
      let t := (s.setFld (fFOI n) ma).fioSet (fun f => { f with
        latch := bitTo f.latch n false, short := bitTo f.short n true, retry := bitTo f.retry n again
        times := f.times.set n times })
      t.foSync.foEvent (fFO 0 n) 0x0810 n ma)

/-- OUT_RETRY (R533): 1 s after the turn-off. -/
def execOutRetry (n : Nat) (s : State) : Host.Outcome State Fault Refusal :=
  .next (
    if 2 ≤ n || !s.fio.retry.testBit n then s
    else (s.fioSet (fun f => { f with
      latch := bitTo f.latch n true, short := bitTo f.short n false, retry := bitTo f.retry n false })).foSync)

/-- OUT_THERM (R532): the junction is over 165 °C, or below 150 °C again. -/
def execOutTherm (n : Nat) (hot : Bool) (ma : Nat) (s : State) : Host.Outcome State Fault Refusal :=
  .next (
    if 2 ≤ n || s.fio.therm.testBit n = hot then s
    else
      let t := ((s.setFld (fFOI n) ma).fioSet (fun f => { f with therm := bitTo f.therm n hot })).foSync
      if hot then t.foEvent (fFO 2 n) 0x0811 n ma else t)

/-- OUT_OPEN (R532): on and below 5 mA for 50 ms, or off with OLOFF and above 6 V. -/
def execOutOpen (n ma : Nat) (s : State) : Host.Outcome State Fault Refusal :=
  .next (
    if 2 ≤ n || !(s.fio.on.testBit n || (s.fld fFOCTL_OLOFF).testBit n) then s
    else (s.setFld (fFOI n) ma).foEvent (fFO 4 n) 0x0812 n ma)

/-- VFLD_QUALIFIED (R526, R532): the latch is cleared when VFLD was absent before. `v` is VFLD in 50 mV. -/
def execVfldQualified (absent : Bool) (v : Nat) (s : State) : Host.Outcome State Fault Refusal :=
  .next (
    let t := s.setFld fFVMON_VFLD v
    (t.fioSet (fun f =>
      if absent then { f with latch := 0, safe := 0, safeLvl := 0, safed := 0, short := 0, therm := 0, retry := 0, vok := true }
      else { f with vok := true })).foSync)

/-- VFLD_LOST (R532): outputs off, the latch kept. -/
def execVfldLost (v : Nat) (s : State) : Host.Outcome State Fault Refusal :=
  .next (
    if !s.fio.vok then s
    else ((s.setFld fFVMON_VFLD v).fioSet (fun f => { f with vok := false })).foSync.foEvent fFOFLAG_VFLDLOW 0x0814 0xFF v)

/-- VFLD_OVERVOLTAGE (R532). -/
def execVfldOvervoltage (v : Nat) (s : State) : Host.Outcome State Fault Refusal :=
  .next (
    if s.fio.ov then s
    else ((s.setFld fFVMON_VFLD v).fioSet (fun f => { f with ov := true })).foSync.foEvent fFOFLAG_VFLDOV 0x0814 0xFF v)

/-- VFLD_OV_RECOVER (R532): the outputs resume their latched levels. -/
def execVfldOvRecover (v : Nat) (s : State) : Host.Outcome State Fault Refusal :=
  .next (((s.setFld fFVMON_VFLD v).fioSet (fun f => { f with ov := false })).foSync)

/-! ### Descriptors (Table 24.4) -/

/-- The roles of the field opcodes. -/
def State.fioRole (s : State) : Bool := s.role != .loop

/-- FIELD_SETUP. -/
def execFieldSetup (d : Desc) (s : State) : Host.Outcome State Fault Refusal :=
  .next (s.runDesc d s.fioRole (fun s =>
    s.setup State.fiWrite [(rFICTL, dsArgs d 0 4), (rFISTUCK, dsArgs d 4 4),
      (rFOCTL, dsArgs d 8 4 / 256 * 256 + (s.reg rFOCTL).toNat % 256)]))

/-- FIELD_OUT: the levels, and the outputs that are armed. -/
def execFieldOut (d : Desc) (s : State) : Host.Outcome State Fault Refusal :=
  .next (s.runDesc d s.fioRole (fun s =>
    let arm := dsArg d 1 % 4
    let r := s.setup State.fiWrite
      [(rFOCTL, (putFld (putFld (s.reg rFOCTL) fFOCTL_LEVEL (dsArg d 0 % 4)) fFOCTL_ARM arm).toNat)]
    if r.status != stOK then r
    else if !r.st.fio.vok then { r with status := 0x79 }
    else if (arm &&& (r.st.fio.short ||| r.st.fio.therm)) != 0 then { r with status := 0x78 }
    else r))

/-- The four counters. -/
def State.ficnts (s : State) : List Byte := ((List.range 4).map (fun n => leBytes 4 (s.fld (fFICNT_COUNT n)))).flatten

/-- FIELD_READ. -/
def execFieldRead (d : Desc) (s : State) : Host.Outcome State Fault Refusal :=
  .next (s.runDesc d s.fioRole (fun s => ⟨s, stOK, (s.reg rFISTAT).toNat, s.ficnts, false⟩))

/-- FIELD_COUNT: the named counters are returned and then set to 0. -/
def execFieldCount (d : Desc) (s : State) : Host.Outcome State Fault Refusal :=
  .next (s.runDesc d s.fioRole (fun s =>
    let r := s.setup State.fiWrite (((List.range 4).filter (fun n => (dsArg d 0).testBit n)).map (fun n => (rFICNT n, 0)))
    { r with result := (s.reg rFISTAT).toNat, bytes := s.ficnts }))

/-- FIELD_QUERY. -/
def execFieldQuery (d : Desc) (s : State) : Host.Outcome State Fault Refusal :=
  .next (s.runDesc d s.fioRole (fun s =>
    { s.query [rFISTAT, rFIFLAG, rFOSTAT, rFOFLAG, rFOMON, rFVMON] with result := 0 }))

end Sys2Proof.Machine
end

