-- ==== Sys2Proof/Machine/Resets.lean ====
section
/-! DEFINITION. The reset kinds and scopes (R118 to R123, R133, R134): what each scope clears and keeps, the role's register
values, and leaving OFF (R81, R122). -/

namespace Sys2Proof.Machine

open Sys2Proof

/-! ### OTP (R335, R136) -/

/-- One bit step of CRC-32 (reflected, polynomial 0x04C11DB7, the usual CRC-32: Log 19). -/
def crc32Bit (c : Nat) : Nat := if c % 2 = 1 then (c / 2) ^^^ 0xEDB88320 else c / 2

/-- One byte of CRC-32. -/
def crc32Byte (c : Nat) (b : Byte) : Nat := (List.range 8).foldl (fun q _ => crc32Bit q) (c ^^^ b.toNat)

/-- CRC-32 of a byte string. -/
def crc32 (bs : List Byte) : Nat := (bs.foldl crc32Byte 0xFFFFFFFF) ^^^ 0xFFFFFFFF

/-- Whether every checked region of the OTP passes its CRC-32 (Table 15.7). -/
def Mem.otpGood (m : Mem) : Bool :=
  crc32 (m.otpBytes 0x000 12) = leNat (m.otpBytes 0x00C 4) &&
  crc32 (m.otpBytes 0x010 236) = leNat (m.otpBytes 0x0FC 4) &&
  crc32 (m.otpBytes 0x340 32) = leNat (m.otpBytes 0x360 4)

/-- LIFECYCLE of the OTP (Table 17.3). -/
def Mem.lifecycle (m : Mem) : Nat := (m.otpByte 0x302).toNat

/-- The debug level after a reset (Table 17.7): a factory part is FULL, or FACTORY with TEST_EN at power-on; any other is
CLOSED. With OTPBAD only FACTORY or CLOSED remain (R394). -/
def debugLevel (lifecycle : Nat) (testEn otpBad : Bool) : Nat :=
  if lifecycle = 0 then (if testEn then 3 else if otpBad then 0 else 2) else 0

/-! ### The role's values -/

/-- The ROLE code of a role (Table 1.5). -/
def roleCode : Role → Nat
  | .cell => 0
  | .loop => 1
  | .crossing => 2
  | .chapter => 3

/-- The fields whose value after a reset the role or the OTP sets (Tables 1.5 to 1.7, 2.9, 3.8, 4.11, 7.9, 19.8). -/
def roleFields (r : Role) : List (Fld × Nat) :=
  let small := b2n (r = .cell || r = .loop)
  [(fROLESTAT_ROLE, roleCode r), (fROLECAP_CAP, roleCap r), (fLINEADDR_VALID, b2n (r = .chapter)),
    (fPADCTL_VIOREGEN, small), (fWAKEEN_LECTERN, small), (fTAGSTAT_FREE, if r = .chapter then 1024 else 0),
    (fLOOPCALG_GAIN, if r = .loop then Config.loopGain.toNat else 0),
    (fLOOPCALO_OFS, if r = .loop then Config.loopOfs.toNat else 0)]

/-! ### Scopes -/

/-- The scope of a reset kind (Table 6.1): 3 power-on, 2 brown-out, 1 watchdog, 0 narrower. -/
def kindScope (k : Nat) : Nat :=
  match k with
  | 0 => 3
  | 1 | 2 | 4 => 2
  | 3 | 5 | 6 | 7 => 1
  | _ => 0

/-- RSTCAUSE after a reset of kind `k` (R123): a reset that meets one whose hold has not ended acts together with it
(R133). A part stopped for a failed OTP check is past its hold (R136). -/
def State.causeSet (s : State) (k : Nat) : State :=
  let t := s.setFld fRSTCAUSE_HIST (s.fld fRSTCAUSE_HIST ||| 2 ^ k)
  if kindScope k = 0 then t
  else
    let last := s.fld fRSTCAUSE_LAST
    if s.rst.hold && !s.rst.stopped && (kindScope k < kindScope last || (kindScope k = kindScope last && last ≤ k)) then t
    else t.setFld fRSTCAUSE_LAST k

/-- A field list copied from the registers of one state. -/
def copyFlds (r : RegFile) (fs : List Fld) : List (Fld × Nat) := fs.map (fun f => (f, fldOf (rget r f.addr) f))

/-- The fields of the VAO set (R119). -/
def vaoSet : List Fld :=
  [fROLESTAT_ROLE, fROLESTAT_UNSTABLE, fRSTCAUSE_HIST, fRSTCAUSE_LAST, fBODCNT_COUNT, fPWRFLAG_CRESFAIL, fBOOTSTAT_FAILS]

/-- The fields that show the live state of a supply, a pad or a level whatever the reset (R122): Supply and Pads columns,
the jack's presence, and what MRAM holds (LPPROP, LPSYSID). -/
def liveSet : List Fld :=
  [fROLESTAT_STRAPNOW, fROLESTAT_DIFFER, fPADSTAT_VIOLOW, fPADSTAT_VIO18, fPWRSRC_SRC, fPWRSRC_LINEOK, fPWRSRC_CRESOK,
    fPWRSRC_AUXOK, fPWRSRC_BAKOK, fPWRSRC_VCOREOK, fPWRSRC_VDDAOK, fWDSTAT_WSUPOK, fLASTAT_POL,
    fLJSTAT_PRESENT, fLPPROP_PROP, fLPPROP_VALID, fLPSYSID_SYSTEM, fHLSTAT_REFOK]

/-- The fields of Table 6.3 that a reset of watchdog scope keeps beyond the VAO set. -/
def watchdogKept : List Fld :=
  [fPWRTOK_GRANT, fCLKFLAG_XTALF, fCLKFLAG_PLLF, fCLKFLAG_HFF, fCLKFLAG_LFRCF, fCLKSTAT_XTALOK, fCLKSTAT_HFOK,
    fCLKSTAT_HOLDOVER, fCLKSTAT_FORCED, fCLKRCCAL_COUNT, fCLKRCCAL_VALID, fWAKECNT_COUNT, fSLPSTAT_LAST,
    fRTCSTAT_VALID]

/-- The registers of every block back at their Reset column, with the fields given copied over. -/
def State.regsReset (s : State) (keep : List Fld) : State :=
  { s with regs := resetRegs }.sets (roleFields s.role ++ copyFlds s.regs keep)

/-- What an enrolment entry is after a driver's reset: what MRAM keeps of it (R212). -/
def Enr.stored (e : Enr) : Enr := ⟨e.pos, e.uid, false, false, 0, 0, 0, 0, 0, none, false, 0, 0⟩

/-- What the Chapter keeps of a Crossing: its role address (R21, R212). -/
def Xing.stored (x : Xing) : Xing := ⟨x.n, x.uid, 0, 0, false, false, 256, 0, 0⟩

/-- What a driver keeps in MRAM: its enrolment table, the Crossings' role addresses and SYSTEM (R212, Table 15.6). -/
def Drv.stored (d : Drv) : Drv :=
  { enr := d.enr.map Enr.stored, xings := d.xings.map Xing.stored, system := d.system }

/-- What the node side keeps in MRAM: address, walk and SYSTEM (Table 15.6). -/
def Node.stored (n : Node) : Node := { stAddr := n.stAddr, stWalk := n.stWalk, stSystem := n.stSystem }

/-- What the Sacristy keeps in MRAM: the seal header and the violation log's count (Table 17.5). -/
def Sac.stored (x : Sac) : Sac :=
  { vlogN := x.vlogN, seq := x.seq, ack := x.ack, missed := x.missed, cutCount := x.cutCount, restarts := x.restarts,
    claims := x.claims, epoch := x.epoch, lastTag := x.lastTag, copyB := x.copyB, valid := x.valid }

/-- What reset and boot keep in MRAM: the record's copies and the logs. -/
def Rst.stored (r : Rst) : Rst :=
  { copyA := r.copyA, copyB := r.copyB, useB := r.useB, logs := r.logs, marked := r.marked, before := r.before }

/-- Count one more of a slice's five counts (R546): 0 runs, 1 confirmed failures, 2 transients, 3 skips, 4 abandons. -/
def SelfTest.tally (x : SelfTest) (slice k : Nat) : SelfTest :=
  let i := 5 * slice + k
  let v := ((x.counts.find? (fun p => p.1 = i)).map (·.2)).getD 0
  { x with counts := (i, satAdd 0xFFFF v 1) :: x.counts.filter (fun p => p.1 != i) }

/-- What Rhoco keeps of self-test in the keep over a reset of watchdog scope: the cursor, the pace and the counts, with a slice
that was under way counted as abandoned (R547). -/
def SelfTest.kept (x : SelfTest) : SelfTest :=
  let y : SelfTest := { cursor := x.cursor, pace := x.pace, counts := x.counts, copied := x.copied, skips := x.skips }
  match x.running, x.cur with
  | true, some n => y.tally n 4
  | _, _ => y

/-- What is left after a loss of the keep: the copy of the counts in MRAM (R546). -/
def SelfTest.copy (x : SelfTest) : SelfTest := { pace := x.pace, counts := x.copied, copied := x.copied }

/-- Everything of the Choir, MEMS and Buttress logic that a reset of watchdog scope or wider clears beside the registers
(R119, R305, R321, R348, R372). Decani's stop after a failed OTP check stays (R136). General registers other than w14 are undefined: free values (Log 3). -/
def State.logicReset (s : State) : State :=
  { s.used 16 with
    dec := s.coreAfterReset Core.decaniReset
    cant := Core.off
    mem := { s.mem with writing := [], gapFirst := [0, 0, 0] }
    pads := { s.pads with held := [], asleep := false }
    pwr := { s.pwr with grantPend := none, shedXcall := false }
    slp := {}
    clk := { line := s.clk.line, frac := 0, hacc := s.clk.hacc, failTimer := s.on fCLKSTAT_FORCED }
    rst := { s.rst.stored with stopped := s.rst.stopped }
    node := s.node.stored
    drv := s.drv.stored
    hl := { perstLow := s.hl.perstLow, vphyGood := s.hl.vphyGood, refLock := s.hl.refLock }
    scr := {}
    sac := s.sac.stored
    descCache := []
    sfe := {}, loop := {}, font := {}, mot := {}, ring := {}, touch := {}, chor := {}
    st := s.st.kept }

/-- After the registers are back: NEED, ALLOW, the loop's forcing, the output latch, the debug level and the restarted
clock-fail timer (R60, R113, R120, R393). -/
def State.afterReset (s : State) : State :=
  let t := if s.clk.failTimer then s.setFld fCLKSAFE_REMAIN 128 else s
  ((t.setFld fSACDBG_LEVEL (debugLevel t.mem.lifecycle false t.rst.stopped)).foReset.loopSync none).retoken

/-- A reset of watchdog scope acts (R119, R122). -/
def State.resetWatchdog (s : State) : State :=
  ((s.regsReset (vaoSet ++ liveSet ++ watchdogKept)).logicReset).afterReset

/-- A reset of brown-out scope acts (R119, R122): every SRAM word, the keep, the Sacristy SRAM and the sample buffer become
undefined, line time is 0, and the draw falls to one unit load. -/
def State.resetBrownOut (s : State) : State :=
  let t := (s.regsReset (vaoSet ++ liveSet)).logicReset
  let m := ((t.mem.lose 0x20000000 0x80000).lose 0x21000000 0x10000).lose 0x30000000 0x8000
  ({ t with
    mem := m, clk := {}, st := s.st.copy, pwr := { t.pwr with draw := 3, bakSeen := false }
    hl := { t.hl with vphyGood := false } }).afterReset

/-- The boot-loop guard (R134): a watchdog, last-resort or clock-failure reset before GOOD in this boot counts. -/
def State.countFail (s : State) (k : Nat) : State :=
  if (k = 3 || k = 4 || k = 5) && !s.on fBOOTSTAT_GOOD then
    s.setFld fBOOTSTAT_FAILS (satAdd 15 (s.fld fBOOTSTAT_FAILS) 1)
  else s

/-- A reset of watchdog or brown-out scope of kind `k` (R118 to R123, R133, R134). An MRAM word write in progress ends
first (R121). While the part is in OFF no such trigger other than those of R81 exists. -/
def State.resetAct (s : State) (k : Nat) : State :=
  let t := (s.countFail k).causeSet k
  let t := if k = 1 then t.setFld fBODCNT_COUNT (satAdd 255 (t.fld fBODCNT_COUNT) 1) else t
  if kindScope k = 2 then t.resetBrownOut else t.resetWatchdog

/-- Leaving OFF (R81, R122): a reset of brown-out scope with the VAO set at its power-on values; an exit by RST_N is of the
pin kind, any other is recorded as power-on. -/
def State.exitOff (s : State) (pin : Bool) : State :=
  let t := s.sets [(fROLESTAT_UNSTABLE, 0), (fRSTCAUSE_HIST, if pin then 5 else 1), (fRSTCAUSE_LAST, if pin then 2 else 0),
    (fBODCNT_COUNT, 0), (fPWRFLAG_CRESFAIL, 0), (fBOOTSTAT_FAILS, 0)]
  t.resetBrownOut.setFld fSLPSTAT_LAST 4

/-- An MRAM word write cut by a power-on reset reads afterwards as its old value, its new value, or as uncorrectable
(R345): which is a free value (Log 3). -/
def Mem.cutWrites (m : Mem) (free : Nat) : Mem :=
  m.writing.foldl (fun q p =>
    match Config.free (free + p.1) % 3 with
    | 0 => q
    | 1 => q.putBytes p.2.1 (leBytes 4 p.2.2)
    | _ => { q with ecc2 := p.2.1 :: q.ecc2 }) m

/-- A power-on reset (R118, R119, R125, R335): everything but MRAM and the OTP. The straps are sampled again, so the role is
not latched. TEST_EN is sampled once (R39): a 1 that the debug policy does not vet is treated as 0 and logged. A failed
OTP check stops Decani (R136). -/
def State.resetPowerOn (s : State) (testEn : Bool) : State :=
  let m := ((((s.mem.cutWrites s.free).lose 0x20000000 0x80000).lose 0x21000000 0x10000).lose 0x30000000 0x8000)
  let bad := !m.otpGood
  let t := { State.reset with
    role := s.role, mem := { m with writing := [], gapFirst := [0, 0, 0] }
    pads := { level := s.pads.level, pwakeLow := false }
    pwr := { lineLost := false, ovLine := s.pwr.ovLine, draw := 3 }
    rst := { s.rst.stored with stopped := bad }
    node := s.node.stored, drv := s.drv.stored, sac := s.sac.stored, st := s.st.copy
    hl := { perstLow := s.hl.perstLow }
    out := s.out, free := s.free + 2, pending := s.pending }
  let t := t.sets (copyFlds s.regs [fLPPROP_PROP, fLPPROP_VALID, fLPSYSID_SYSTEM, fPWRSRC_LINEOK, fPWRSRC_CRESOK,
    fPWRSRC_AUXOK, fPWRSRC_BAKOK, fPADSTAT_VIOLOW, fPADSTAT_VIO18])
  let t := t.sets [(fBOOTSTAT_OTPBAD, b2n bad), (fSACDBG_LEVEL, debugLevel m.lifecycle testEn bad)]
  if testEn && m.lifecycle != 0 then t.violate 8 0 0 0 else t

end Sys2Proof.Machine
end

