-- ==== Sys2Proof/Machine/Clocks.lean ====
section
/-! DEFINITION. Clocks and line time (chapter 5): the oscillators, the root group, the monitors, the safe state, line-time
ticks and the RTC's set. -/

namespace Sys2Proof.Machine

open Sys2Proof

/-! ### Line time (R106, R107) -/

/-- One line-time tick: the count advances by one and ACTCNT is compared (R502). -/
def State.tick1 (s : State) : State := ({ s with clk := { s.clk with line := (s.clk.line + 1) % 2 ^ 48 } }).actTick

/-- `n` line-time ticks. -/
def State.ticks (s : State) (n : Nat) : State := n.repeat State.tick1 s

/-- Set the count other than by counting. A change of more than ±1 tick is a step (R107): it sets RTCFLAG.STEP, ACTCNT follows
it (R502), and every scheduled time is tested again (R410, R447, R469, R491). -/
def State.setLine (s : State) (t : Nat) : State :=
  let d := (t + 2 ^ 48 - s.now) % 2 ^ 48
  let u := { s with clk := { s.clk with line := t % 2 ^ 48 } }
  if d = 0 then s
  else if d = 1 ∨ d = 2 ^ 48 - 1 then u.actTick
  else ((((u.raise [fRTCFLAG_STEP]).actStep).sfeRetest).fontRetest).motRetest.ringRetest

/-- A pending GO set meets its tick (R107): TRACK is judged here. -/
def State.rtcApply (s : State) : State :=
  let t := s.setFld fRTCSTAT_SETPEND 0
  if s.on fLPSTAT_TRACK then t.raise [fRTCFLAG_SETREF]
  else ((t.sets [(fRTCSTAT_VALID, 1), (fRTCFLAG_SET, 1)]).setLine (s.fld fRTCSETL_TIME + 2 ^ 32 * s.fld fRTCSETH_TIME))

/-- One holdover step, which is one LF RC cycle: COUNT / 65,536 ticks with VALID = 1 and 1.024 without, through a fractional
accumulator (R106). -/
def State.holdTick (s : State) : State :=
  let step := if s.on fCLKRCCAL_VALID then s.fld fCLKRCCAL_COUNT * 125 else 8388608
  let acc := s.clk.hacc + step
  ({ s with clk := { s.clk with hacc := acc % 8192000 } }).ticks (acc / 8192000)

/-- LINE_TIME_TICK (R106): one crystal edge while the crystal is ready, one LF RC cycle in holdover. A pending set takes the
tick (R107). In OFF nothing counts. -/
def execLineTimeTick (s : State) : Host.Outcome State Fault Refusal :=
  .next (
    if s.slp.st = .off then s
    else if s.on fRTCSTAT_SETPEND then s.rtcApply
    else if s.on fCLKSTAT_XTALOK then s.tick1 else s.holdTick)

/-- A write of a register of block 1: a GO write makes a set pending, or is refused with SETREF while TRACK = 1 (R107). -/
def State.rtcWrite (s : State) (a : Nat) (v : Word) : State :=
  if a = rRTCSETH ∧ fldOf v fRTCSETH_GO = 1 then
    if s.on fLPSTAT_TRACK then s.raise [fRTCFLAG_SETREF]
    else (s.plainWrite a v).setFld fRTCSTAT_SETPEND 1
  else s.plainWrite a v

/-- RTC_SET_GO (R107): a write of RTCSETH with GO = 1 and a count's bits 47:32. -/
def execRtcSetGo (w : World) (hi : BitVec 16) (s : State) : Host.Outcome State Fault Refusal :=
  .next (
    let r := s.vet w rRTCSETH (hi.setWidth 32 ||| 0x80000000)
    r.st.rtcWrite rRTCSETH r.v)

/-- RTC_SET_APPLY (R107): the next tick meets a pending set. -/
def execRtcSetApply (s : State) : Host.Outcome State Fault Refusal :=
  .next (if s.on fRTCSTAT_SETPEND && s.slp.st != .off then s.rtcApply else s)

/-! ### The safe state (R112, R113) -/

/-- Force the safe state (R112): FORCED, the clock-fail timer from 128,000 LF RC cycles, the loop at 3.5 mA, Font's driver off and
its shot abandoned; the outputs hold, and the line sends nothing while FORCED = 1. -/
def State.safeForce (s : State) : State :=
  let t := s.sets [(fCLKSTAT_FORCED, 1), (fCLKSAFE_REMAIN, 128)]
  let t := { t with clk := { t.clk with failTimer := true } }
  (if t.on fFONTSTAT_RUN then t.fontAbandon else t).loopSync none

/-- Whether the current root source passes its monitor (R113). -/
def State.rootGood (s : State) : Bool := if s.on fCLKSTAT_ROOTNOW then s.on fCLKSTAT_PLLLOCK else s.on fCLKSTAT_HFOK

/-- Lift the safe state (R113). -/
def State.safeLift (s : State) : State :=
  let t := s.sets [(fCLKSTAT_FORCED, 0), (fCLKSAFE_REMAIN, 0)]
  (({ t with clk := { t.clk with failTimer := false } }).foRelease).loopSync none

/-- Whether a domain with no HF RC source runs (Table 5.2): the SFE, Font or the Scriptorium. -/
def State.spireOnly (s : State) : Bool :=
  s.on fSFESTAT_RUN || s.on fFONTSTAT_RUN || (s.role = .chapter && (s.on fSCSTAT_ENABLED || !s.scr.held.isEmpty))

/-- The Spire is lost (R109). In use, the root group, if it runs on the Spire, moves to the HF RC at once or stops until that is
ready; the Spire-only domains are held, and the safe state is forced. -/
def State.spireLost (s : State) : State :=
  let inUse := s.on fCLKSEL_ROOT || s.on fCLKSTAT_ROOTNOW || s.spireOnly
  let t := (s.setFld fCLKSTAT_PLLLOCK 0).syncNow
  if !inUse then t
  else
    let moves := s.on fCLKSEL_ROOT || s.on fCLKSTAT_ROOTNOW
    let t := if moves then
        let u := t.sets [(fCLKFLAG_FALLBACK, 1), (fCLKSEL_ROOT, 0), (fCLKSEL_CDIV, 0), (fCLKSTAT_ROOTNOW, 0),
          (fCLKSTAT_CDIVNOW, 0), (fCLKSTAT_SWPEND, 0)]
        { u with clk := { u.clk with heldSel := none, heldRestored := false, stopped := !s.on fCLKSTAT_HFOK } }
      else t
    let t := { t with clk := { t.clk with spireHeld := true } }
    ((t.sfeSpireLost).fontSpireLost).safeForce

/-! ### Events of the oscillators -/

/-- CRYSTAL_START_TIMEOUT (R98): 2 s after power-on reset the crystal is not ready, which is a crystal failure (R112). -/
def execCrystalStartTimeout (s : State) : Host.Outcome State Fault Refusal :=
  .next (if s.on fCLKSTAT_XTALOK then s else ((s.raise [fCLKFLAG_XTALF]).safeForce).wake 13)

/-- HFRC_READY (R97, R109): 32 cycles of the HF RC; a root group stopped by a fallback restarts. -/
def execHfrcReady (s : State) : Host.Outcome State Fault Refusal :=
  .next (
    if s.on fCLKCTL_HFEN || s.clk.stopped then
      let t := s.setFld fCLKSTAT_HFOK 1
      if s.clk.stopped then ({ t with clk := { t.clk with stopped := false } }).chRelease else t
    else s)

/-- The source and divider of the root group change (R103, R104): stop, switch and restart as one step, after which ROOTNOW and
CDIVNOW show the selection. -/
def State.switchTo (s : State) (sel : Nat) : State :=
  let moved := s.fld fCLKSTAT_ROOTNOW != sel % 2
  let t := s.sets [(fCLKSEL_ROOT, sel), (fCLKSEL_CDIV, sel / 2), (fCLKSTAT_ROOTNOW, sel), (fCLKSTAT_CDIVNOW, sel / 2),
    (fCLKSTAT_SWPEND, 0)]
  let t := { t with clk := { t.clk with heldSel := none, heldRestored := false } }
  if moved then t.chRelease else t

/-- CALIBRATION_WINDOW_END (R106): 65,536 LF RC cycles have passed; `whole` says XTALOK was 1 throughout. -/
def execCalibrationWindowEnd (count : BitVec 18) (whole : Bool) (s : State) : Host.Outcome State Fault Refusal :=
  .next (if whole && s.on fCLKSTAT_XTALOK then s.sets [(fCLKRCCAL_COUNT, count.toNat), (fCLKRCCAL_VALID, 1)] else s)

/-- CRYSTAL_FAIL (R111, R106, R109, R112): holdover begins with the `missed` ticks since the last crystal edge added; a running
PLL is lost with it and PLLEN clears; the safe state is forced, and CLKFAIL fires. -/
def execCrystalFail (missed : Nat) (s : State) : Host.Outcome State Fault Refusal :=
  .next (
    if !s.on fCLKSTAT_XTALOK then s
    else
      let t := ((s.raise [fCLKFLAG_XTALF]).sets [(fCLKSTAT_XTALOK, 0), (fCLKSTAT_HOLDOVER, 1)]).ticks missed
      let t := if s.on fCLKCTL_PLLEN then t.spireLost.setFld fCLKCTL_PLLEN 0 else t
      (t.safeForce).wake 13)

/-- PLL_FAIL (R109, R111). -/
def execPllFail (s : State) : Host.Outcome State Fault Refusal :=
  .next (if s.on fCLKSTAT_PLLLOCK then ((s.raise [fCLKFLAG_PLLF]).spireLost).wake 13 else s)

/-- HFRC_FAIL (R111, R112): HFOK clears; with the root group on the HF RC the safe state is forced. -/
def execHfrcFail (s : State) : Host.Outcome State Fault Refusal :=
  .next (
    if !s.on fCLKSTAT_HFOK then s
    else
      let t := (s.raise [fCLKFLAG_HFF]).setFld fCLKSTAT_HFOK 0
      (if s.on fCLKSEL_ROOT then t else t.safeForce).wake 13)

/-- LFRC_FAIL (R111). -/
def execLfrcFail (s : State) : Host.Outcome State Fault Refusal := .next ((s.raise [fCLKFLAG_LFRCF]).wake 13)

/-! ### Register writes of block 5 -/

/-- Whether a write of CLKCTL is refused under R104: it clears PLLEN or HFEN while the source is in use, selected or held. -/
def State.ctlRefused (s : State) (v : Word) : Bool :=
  let heldRoot := fun (b : Nat) => match s.clk.heldSel with
    | some h => h % 2 = b
    | none => false
  let stopP := s.on fCLKCTL_PLLEN && fldOf v fCLKCTL_PLLEN = 0
  let stopH := s.on fCLKCTL_HFEN && fldOf v fCLKCTL_HFEN = 0
  (stopP && (s.on fCLKSEL_ROOT || s.on fCLKSTAT_ROOTNOW || heldRoot 1 || s.spireOnly)) ||
    (stopH && (!s.on fCLKSEL_ROOT || !s.on fCLKSTAT_ROOTNOW || heldRoot 0))

/-- A write of CLKCTL (R99, R104). -/
def State.clkWriteCtl (s : State) (v : Word) : State :=
  if s.ctlRefused v then s.spireRefused
  else
    let startP := !s.on fCLKCTL_PLLEN && fldOf v fCLKCTL_PLLEN = 1
    let t := s.plainWrite rCLKCTL v
    let t := if startP && !s.on fCLKSTAT_XTALOK then (t.setFld fCLKCTL_PLLEN 0).spireRefused else t
    let t := if t.on fCLKCTL_PLLEN then t else (t.setFld fCLKSTAT_PLLLOCK 0).syncNow
    let t := if t.on fCLKCTL_HFEN then t else t.setFld fCLKSTAT_HFOK 0
    { t with clk := { t.clk with pllRun := t.on fCLKCTL_PLLEN } }

/-- Whether R104 refuses a selection. -/
def State.selRefused (s : State) (sel : Nat) : Bool := (sel % 2 = 1 && !s.on fCLKSTAT_PLLLOCK) || (sel % 2 = 0 && bitAt sel 1)

/-- A write of CLKSEL (R103, R104, R110): held while the root group is stopped after a fallback
or a self-test slice runs. -/
def State.clkWriteSel (s : State) (v : Word) : State :=
  let sel := v.toNat % 4
  if s.clk.stopped || s.st.running then
    { s.setFld fCLKSTAT_SWPEND 1 with clk := { s.clk with heldSel := some sel, heldRestored := false } }
  else if s.selRefused sel then s.spireRefused
  else s.switchTo sel

/-- A write of a register of block 5. -/
def State.clkWrite (s : State) (a : Nat) (v : Word) : State :=
  if a = rCLKCTL then s.clkWriteCtl v
  else if a = rCLKSEL then s.clkWriteSel v
  else if a = rCLKSAFE then
    if fldOf v fCLKSAFE_RELEASE = 1 && s.on fCLKSTAT_FORCED && s.rootGood then s.safeLift else s
  else s.plainWrite a v

/-- Whether R110 holds a write of block 5 until a running self-test slice is restored: one that clears PLLEN. -/
def State.sliceHolds (s : State) (a : Nat) (v : Word) : Bool :=
  s.st.running && a = rCLKCTL && s.on fCLKCTL_PLLEN && fldOf v fCLKCTL_PLLEN = 0

/-- Hold a write until the slice's restore completes (R110). -/
def State.sliceHold (s : State) (w : World) (a : Nat) (v : Word) : State :=
  { s with st := { s.st with heldWr := s.st.heldWr ++ [(w, a, v)] } }

/-- A write of a register of block 5 from a world. -/
def State.clkBus (s : State) (w : World) (a : Nat) (v : Word) : State :=
  if s.sliceHolds a v then s.sliceHold w a v
  else
    let r := s.vet w a v
    r.st.clkWrite a r.v

/-- PLL_ENABLE (R99): CLKCTL is written with PLLEN = 1. -/
def execPllEnable (w : World) (s : State) : Host.Outcome State Fault Refusal :=
  .next (s.clkBus w rCLKCTL (putFld (s.reg rCLKCTL) fCLKCTL_PLLEN 1))

/-- PLL_DISABLE (R104): CLKCTL is written with PLLEN = 0. -/
def execPllDisable (w : World) (s : State) : Host.Outcome State Fault Refusal :=
  .next (s.clkBus w rCLKCTL (putFld (s.reg rCLKCTL) fCLKCTL_PLLEN 0))

/-- HFRC_ENABLE (R104): CLKCTL is written with HFEN = 1. -/
def execHfrcEnable (w : World) (s : State) : Host.Outcome State Fault Refusal :=
  .next (s.clkBus w rCLKCTL (putFld (s.reg rCLKCTL) fCLKCTL_HFEN 1))

/-- HFRC_DISABLE (R104): CLKCTL is written with HFEN = 0. -/
def execHfrcDisable (w : World) (s : State) : Host.Outcome State Fault Refusal :=
  .next (s.clkBus w rCLKCTL (putFld (s.reg rCLKCTL) fCLKCTL_HFEN 0))

/-- CLKSEL_WRITE (R103, R104, R110). -/
def execClkselWrite (w : World) (v : Word) (s : State) : Host.Outcome State Fault Refusal := .next (s.clkBus w rCLKSEL v)

/-- CLKSEL_HELD_APPLY (R110): a held write is applied once the root group runs, under R104 as it then stands. -/
def execClkselHeldApply (s : State) : Host.Outcome State Fault Refusal :=
  .next (
    match s.clk.heldSel with
    | some sel =>
      if s.clk.stopped || s.st.running || (s.clk.heldRestored && !s.on fCLKSTAT_PLLLOCK) then s
      else
        let t := s.setFld fCLKSTAT_SWPEND 0
        let t := { t with clk := { t.clk with heldSel := none, heldRestored := false } }
        t.clkWriteSel (BitVec.ofNat 32 sel)
    | none => s)

/-- CLKSAFE_RELEASE (R113): CLKSAFE is written with RELEASE = 1. -/
def execClksafeRelease (w : World) (s : State) : Host.Outcome State Fault Refusal := .next (s.clkBus w rCLKSAFE 1)

/-- CLOCK_FAIL_TIMER_EXPIRY (R113): a reset of the clock-failure kind. -/
def execClockFailTimerExpiry (s : State) : Host.Outcome State Fault Refusal :=
  .next (if s.clk.failTimer then s.resetAct 5 else s)

/-- CLK_QUERY (R116). -/
def execClkQuery (d : Desc) (s : State) : Host.Outcome State Fault Refusal :=
  .next (s.runDesc d true (fun t => t.query [rCLKSTAT, rCLKFLAG, rCLKRCCAL]))

end Sys2Proof.Machine
end

