-- ==== Sys2Proof/Machine/Pads.lean ====
section
/-! DEFINITION. The general-purpose pads (R42 to R45) and block 2. -/

namespace Sys2Proof.Machine

open Sys2Proof

/-- What a pad's function and GPCFGn make it drive: level, output enable (an open-drain pad drives low only) and pull. -/
def State.padDrives (s : State) (k : Nat) : PadDrive :=
  let f := s.padFunc k
  ⟨f.1, f.2 && !(s.on (fGPCFG_ODN k) && f.1), s.fld (fGPCFG_PULL k)⟩

/-- Whether the test access port's instructions other than BYPASS and the debug accesses act (R393, R560). -/
def State.scanActs (s : State) : Bool := decide (2 ≤ s.fld fSACDBG_LEVEL) && (s.slp.st = .run || s.slp.st = .doze)

/-- Whether the boundary register drives the covered pads (R43). -/
def State.scanDrives (s : State) : Bool := s.tap.ir = 2 && s.scanActs

/-- What a pad drives now: nothing while VDDIO is low (R44), its cells of the boundary register under EXTEST (R43), what HOLD froze
(R42), the reset state of Table 2.4 in a sleep that does not hold it (R84), else its function. -/
def State.padNow (s : State) (k : Nat) : PadDrive :=
  if s.on fPADSTAT_VIOLOW then ⟨false, false, 0⟩
  else if s.scanDrives then
    ⟨s.tap.latch.getD (3 * k + 1) false, s.tap.latch.getD (3 * k + 2) false, s.fld (fGPCFG_PULL k)⟩
  else if s.pads.asleep && !(s.fld fSLPHOLD_HOLDMAP).testBit k then ⟨false, false, 1⟩
  else match s.pads.held.find? (fun p => p.1 = k) with
    | some p => p.2
    | none => s.padDrives k

/-- Freeze a pad that is not frozen yet (R42). -/
def State.padHold (s : State) (k : Nat) : State :=
  if s.pads.held.any (fun p => p.1 = k) then s
  else { s with pads := { s.pads with held := (k, s.padDrives k) :: s.pads.held } }

/-- A pad follows GPCFGn again. -/
def State.padFree (s : State) (k : Nat) : State :=
  { s with pads := { s.pads with held := s.pads.held.filter (fun p => p.1 != k) } }

/-- A write of a register of block 2. Setting HOLD freezes the pad as it is before the write; clearing it applies every field at
once (R42). -/
def State.padWrite (s : State) (a : Nat) (v : Word) : State :=
  let k := (a - rGPCFG 0) / 4
  if 16 ≤ k then s.plainWrite a v
  else
    let t := if fldOf v (fGPCFG_HOLD k) = 1 then s.padHold k else s.padFree k
    t.plainWrite a v

/-- GPCFG_WRITE (R42, R50). -/
def execGpcfgWrite (w : World) (n : Fin 16) (v : Word) (s : State) : Host.Outcome State Fault Refusal :=
  .next (
    let r := s.vet w (rGPCFG n.val) v
    r.st.padWrite (rGPCFG n.val) r.v)

/-- VDDIO_LOW (R44): the D-type drivers and pulls are off and inputs read 0 while VIOLOW = 1. -/
def execVddioLow (s : State) : Host.Outcome State Fault Refusal := .next (s.setFld fPADSTAT_VIOLOW 1)

/-- VDDIO_GOOD (R40, R44): VIOLOW clears, and VIO18 tells whether VDDIO is then below 2.4 V. -/
def execVddioGood (below : Bool) (s : State) : Host.Outcome State Fault Refusal :=
  .next (s.sets [(fPADSTAT_VIOLOW, 0), (fPADSTAT_VIO18, b2n below)])

/-- GP_OVERVOLTAGE (R45). -/
def execGpOvervoltage (n : Fin 16) (s : State) : Host.Outcome State Fault Refusal :=
  .next (s.setFld fPADSTAT_OV (s.fld fPADSTAT_OV ||| 2 ^ n.val))

end Sys2Proof.Machine
end

