-- ==== Sys2Proof/Machine/SysCtl.lean ====
section
/-! DEFINITION. The system control block, block 0: the software reset and the two watchdogs (R135, R139). -/

namespace Sys2Proof.Machine

open Sys2Proof

/-- Whether the watchdogs count (R135): Decani has started and is not stopped or halted by the debug port, in RUN or DOZE. -/
def State.wdtCounts (s : State) : Bool :=
  !s.rst.hold && !s.rst.stopped && !s.dec.dbgHalt && s.slp.entering.isNone && (s.slp.st = .run || s.slp.st = .doze)

/-- A write of SYSRST (R139): GO acts only with the key. From Nave it is a cut of every claimed block (Table 17.2). -/
def State.sysrstWrite (s : State) (w : World) (v : Word) : State :=
  if fldOf v fSYSRST_KEY != 0xD00D then s
  else if fldOf v fSYSRST_GO = 0 then s.plainWrite rSYSRST v
  else
    let c := s.fld fSACCLAIM_CLAIM
    if w = .nave && c != 0 then
      let t := { s with sac := { s.sac with sysrst := some v } }
      (t.violate 6 (lowBit c) rSYSRST v.toNat).deferSync
    else s.resetAct (if fldOf v fSYSRST_LINECMD = 1 then 7 else 6)

/-- A write of WDTCFG (R135, R139): PERIOD is fixed once LOCK is set; a write that changes it reloads the count. -/
def State.wdtcfgWrite (s : State) (v : Word) : State :=
  let v := if s.on fWDTCFG_LOCK then putFld v fWDTCFG_PERIOD (s.fld fWDTCFG_PERIOD) else v
  let t := s.plainWrite rWDTCFG v
  if t.fld fWDTCFG_PERIOD != s.fld fWDTCFG_PERIOD then t.wdtReload else t

/-- A write of WDTKICK (R135): any value but 0xC0DE resets the part. -/
def State.wdtKick (s : State) (v : Word) : State := if v = 0xC0DE then s.wdtReload else s.resetAct 3

/-- A write of a register of block 0. -/
def State.sysWrite (s : State) (w : World) (a : Nat) (v : Word) : State :=
  if a = rSYSRST then s.sysrstWrite w v
  else if a = rWDTCFG then s.wdtcfgWrite v
  else if a = rWDTKICK then s.wdtKick v
  else if a = rLRWDKICK then
    if w = .sacristy && v = 0x5A5A then { s with rst := { s.rst with lrwd := lrPeriod } } else s
  else s.plainWrite a v

/-- A write of a register of block 0 from a world. -/
def State.sysBus (s : State) (w : World) (a : Nat) (v : Word) : State :=
  let r := s.vet w a v
  r.st.sysWrite w a r.v

/-- SYSRST_GO (R139): SYSRST is written with the key, GO and LINECMD. -/
def execSysrstGo (w : World) (linecmd : Bool) (s : State) : Host.Outcome State Fault Refusal :=
  .next (s.sysBus w rSYSRST (BitVec.ofNat 32 (0xD00D0001 + 2 * b2n linecmd)))

/-- WDTCFG_WRITE (R135). -/
def execWdtcfgWrite (w : World) (v : Word) (s : State) : Host.Outcome State Fault Refusal := .next (s.sysBus w rWDTCFG v)

/-- WDTKICK (R135). -/
def execWdtkick (w : World) (v : Word) (s : State) : Host.Outcome State Fault Refusal := .next (s.sysBus w rWDTKICK v)

/-- LRWDKICK (R135): only a Sacristy write of 0x5A5A reloads. -/
def execLrwdkick (w : World) (v : Word) (s : State) : Host.Outcome State Fault Refusal := .next (s.sysBus w rLRWDKICK v)

/-- WATCHDOG_EXPIRY (R135). -/
def execWatchdogExpiry (s : State) : Host.Outcome State Fault Refusal :=
  .next (if s.wdtCounts && s.on fWDTCFG_PERIOD then s.resetAct 3 else s)

/-- WDT_WARN (R135): half of the period has passed; with WARN set the WDT source is raised until a reload. -/
def execWdtWarn (s : State) : Host.Outcome State Fault Refusal :=
  .next (
    if s.wdtCounts && s.on fWDTCFG_PERIOD then
      ({ s with rst := { s.rst with wdtWarn := true } })
    else s)

/-- LAST_RESORT_EXPIRY (R135). -/
def execLastResortExpiry (s : State) : Host.Outcome State Fault Refusal :=
  .next (if s.wdtCounts then s.resetAct 4 else s)

end Sys2Proof.Machine
end

