-- ==== Sys2Proof/Machine/Cuts.lean ====
section
/-! DEFINITION. Held cuts act when their blocks are released (R380, R398), and the write of a claim (R378). -/

namespace Sys2Proof.Machine

open Sys2Proof

/-- A write to a register of the blocks whose fields can be held as cuts, by its block's own rules. -/
def State.cutWrite (s : State) (a : Nat) (v : Word) : State :=
  match blockOf a with
  | 5 => s.clkWrite a v
  | 7 => s.ccWrite a v
  | 17 => s.sfeWrite a v
  | 18 => s.loopWrite a v
  | 19 => s.fontWrite a v
  | 20 => s.motWrite a v
  | 21 => s.rgWrite a v
  | 22 => s.chWrite a v
  | 23 => s.fiWrite a v
  | _ => s

/-- A register's value as a write of one field sends it: the field new, RW bits as they are and every other bit 0. -/
def State.fieldWrite (s : State) (f : Fld) (v : Nat) : Word :=
  match specOf f.addr with
  | some r => putFld (s.reg f.addr &&& BitVec.ofNat 32 (r.rw ||| r.srw)) f v
  | none => 0

/-- Held cuts whose blocks are all released act, in the order in which they were first held (R380); then a held SYSRST.GO, when no
block is claimed, and Rhoco goes on with an office stop that waited (R379). -/
def State.cutsAct (s : State) : State :=
  let claim := s.fld fSACCLAIM_CLAIM
  let go := s.sac.cuts.filter (fun c => c.blocks &&& claim = 0)
  let t := { s with sac := { s.sac with cuts := s.sac.cuts.filter (fun c => c.blocks &&& claim != 0) } }
  let t := (go.foldl (fun u c => u.cutWrite c.f.addr (u.fieldWrite c.f c.val)) t).deferSync
  let t := if t.rst.stopping && !t.on fCANTCTL_RUN && !t.claimed 7 then t.officeOff else t
  if claim = 0 && t.sac.sysrst.isSome then
    ({ t with sac := { t.sac with sysrst := none } }).resetAct 6
  else t

/-- The blocks that can be claimed (R378). -/
def claimable : List Nat := [7, 15, 17, 18, 19, 20, 21, 22, 23]

/-- Whether R378 refuses to claim a block: it is not claimable, or Off in the role, or the Sacristy is held. -/
def State.claimRefused (s : State) (k : Nat) : Bool :=
  !claimable.contains k || !s.blockOn k || (s.on fSACSTAT_HELD && !s.claimed k)

/-- Set the claims (R378): a bit that is refused reads 0, and sets CLAIMREF. Released blocks let their held cuts act. -/
def State.claimTo (s : State) (v : Nat) : State :=
  let bad := (List.range 32).any (fun k => v.testBit k && s.claimRefused k)
  let new := ((List.range 32).map (fun k => if v.testBit k && !s.claimRefused k then 2 ^ k else 0)).sum
  let t := s.setFld fSACCLAIM_CLAIM new
  ((if bad then t.raise [fSACFLAG_CLAIMREF] else t).deferSync).cutsAct

end Sys2Proof.Machine
end

