-- ==== Sys2Proof/Machine/Svc.lean ====
section
/-! DEFINITION. Service calls (R126, R274, R377): the caller's arguments, the answer, and a TOKENS call that waits for the
walk. -/

namespace Sys2Proof.Machine

open Sys2Proof

/-! ### Services (R126, R377) -/

/-- A service's answer: the state, w0, and w1 to w3, where the service gives them. -/
structure SvcRes where
  st : State
  status : Nat
  res : List (Option Nat)

/-- The statuses of Table 6.6. -/
def svOK : Nat := 0
def svBADARG : Nat := 1
def svDENIED : Nat := 2
def svBUSY : Nat := 3
def svSHORT : Nat := 4
def svUNKNOWN : Nat := 5

/-- A service that returns a status alone. -/
def State.sv (s : State) (st : Nat) : SvcRes := ⟨s, st, []⟩

/-- An argument of a call: w0 to w3 of the calling core, which an SVC on Cantoris left in CANTXARG0 to 3 (R274). -/
def State.svArg (s : State) (c : Caller) (n : Nat) : Nat :=
  match c.core with
  | .decani => (s.dec.gpr.getD n 0).toNat
  | .cantoris => s.fld (fCANTXARG_ARG n)

/-- Give the results back: into w0 to w3 of Decani, or into CANTXRES0 to 3. A result register the service does not fill is free
(Log 3). -/
def State.svReturn (s : State) (c : Caller) (r : SvcRes) : State :=
  let vals := (r.status :: (List.range 3).map (fun i => ((r.res.getD i none).getD (Config.free (r.st.free + i)))))
  let t := r.st.used 3
  match c.core with
  | .decani =>
    let g := (List.range 4).foldl (fun (g : List Word) n => g.set n (BitVec.ofNat 32 (vals.getD n 0))) t.dec.gpr
    { t with dec := { t.dec with gpr := g } }
  | .cantoris => t.sets ((List.range 4).map (fun n => (fCANTXRES_RES n, vals.getD n 0)))

/-- Run a service for a caller: Rhoco must run, and a call from Cantoris must be the one in hand (R274). -/
def State.svcall (s : State) (c : Caller) (num : Nat) (act : State → SvcRes) : State :=
  let mine := match c.core with
    | .decani => true
    | .cantoris => s.fld fCANTSTAT_STATE = 5 && s.fld fCANTXCTL_SVC = num
  if s.rhocoUp && !s.on fBOOTSTAT_RECOV && mine then s.svReturn c (act s) else s

/-! ### A TOKENS call that waits (R126, R191) -/

/-- The answer of TOKENS: GRANT, and SHORT when it is below what was asked for. -/
def State.tokAnswer (s : State) (n : Nat) : SvcRes :=
  ⟨s, if s.fld fPWRTOK_GRANT < n then svSHORT else svOK, [some (s.fld fPWRTOK_GRANT)]⟩

/-- GRANT has changed: a TOKENS call that waits returns. -/
def State.tokFinish (s : State) : State :=
  match s.rst.tokWait with
  | some (c, n) =>
    let t := { s with rst := { s.rst with tokWait := none } }
    t.svReturn c (t.tokAnswer n)
  | none => s

end Sys2Proof.Machine
end

