-- ==== Sys2Proof/Machine/Sacristy.lean ====
section
/-! DEFINITION. The Sacristy (chapter 17): block 16, the engines, claims, the signed operations, the sealed record's
descriptors, the violation log and the WCALL services. -/

namespace Sys2Proof.Machine

open Sys2Proof

/-! ### The OTP -/

/-- Set bits of an OTP byte: bits go from 0 to 1 only (R383). -/
def Mem.otpSet (m : Mem) (o : Nat) (b : Byte) : Mem := { m with otp := mput m.otp o (m.otpByte o ||| b) }

/-- Set bits of consecutive OTP bytes. -/
def Mem.otpSets (m : Mem) : Nat → List Byte → Mem
  | _, [] => m
  | o, b :: bs => Mem.otpSets (m.otpSet o b) (o + 1) bs

/-- The unique ID as its 8 bytes, UIDL then UIDH (Table 15.7). -/
def State.uidBytes (s : State) : List Byte := s.mem.otpBytes 0 8

/-- The unique ID. -/
def State.uid (s : State) : Nat := leNat s.uidBytes

/-- SYSID (R125): the part number, with the stepping from the OTP (Table 15.7). -/
def State.sysid (s : State) : Nat :=
  (s.mem.otpByte 8).toNat + 256 * ((s.mem.otpByte 9).toNat % 16) + 0x74200000

/-- SACSTAT with LIFECYCLE[1:0] from the OTP (Table 17.11). -/
def State.sacStat (s : State) : Nat := (putFld (s.reg rSACSTAT) fSACSTAT_LIFECYCLE s.mem.lifecycle).toNat

/-- Whether a key slot is present and not revoked (R384). -/
def State.keyUsable (s : State) (k : Nat) : Bool :=
  decide (k < 8) && (s.mem.otpByte 0x300).getLsbD k && !(s.mem.otpByte 0x301).getLsbD k

/-- The public key of a slot. -/
def State.keyOf (s : State) (k : Nat) : List Byte := s.mem.otpBytes (0x100 + 64 * k) 64

/-- Whether an OTP byte lies in a region locked at the factory (R383). -/
def otpLocked (a : Nat) : Bool := decide (a < 0x100) || (decide (0x340 ≤ a) && decide (a < 0x380))

/-! ### Engines (R387) -/

/-- The address of an offset in Sacristy SRAM. -/
def ssAddr (off : Nat) : Nat := 0x30000000 + off % 0x8000

/-- A write of SACENG: GO starts a command while none runs, else sets ENGBUSY. -/
def State.engWrite (s : State) (v : Word) : State :=
  if fldOf v fSACENG_GO = 0 then s.plainWrite rSACENG v
  else if s.on fSACENG_BUSY then s.raise [fSACFLAG_ENGBUSY]
  else
    let t := (s.plainWrite rSACENG v).setFld fSACENG_BUSY 1
    { t with sac := { t.sac with eng := some ⟨fldOf v fSACENG_CMD, s.fld fSACSRC_OFFSET, s.fld fSACDST_OFFSET,
        s.fld fSACLEN_LEN, fldOf v fSACENG_KEYSEL⟩ } }

/-- What a command writes at its destination. The data layout of AES-GCM and verify is not in the spec, so what they write is
free (Log 21). -/
def State.engResult (s : State) (e : Eng) : List Byte :=
  let src := s.mem.bytes (ssAddr e.src) e.len
  match e.cmd with
  | 1 => sha256 src
  | 2 => freeBytes s.free e.len
  | 3 => freeBytes s.free 4
  | 4 => ecdsaSign s.dDev s.free? (s.mem.bytes (ssAddr e.src) 32)
  | 5 => freeBytes s.free 4
  | _ => []

/-- A command ends: its result is in place and DONE sets; an engine fault, or a random command while the generator has failed,
returns no result and sets ENGERR (R388, R399). -/
def State.engDone (s : State) (err : Bool) : State :=
  match s.sac.eng with
  | none => s
  | some e =>
    let t := { s.setFld fSACENG_BUSY 0 with sac := { s.sac with eng := none } }
    if err || (e.cmd = 5 && s.sac.rngFail) then t.raise [fSACFLAG_ENGERR]
    else
      let r := s.engResult e
      ({ t with mem := t.mem.putBytes (ssAddr e.dst) r }.used (e.len + 4)).raise [fSACFLAG_DONE]

/-- ENGINE_DONE (R387, R399). -/
def execEngineDone (err : Bool) (s : State) : Host.Outcome State Fault Refusal := .next (s.engDone err)

/-! ### Register writes of block 16 -/

/-- A claim change appends an entry (R391); what its 36 reading bytes hold the spec does not say (free, Log 22). -/
def State.claimEntry (s : State) : State := (s.sealAppend 16 3 (freeBytes s.free 36)).used 36

/-- A write of SACCLAIM (R378, R391). -/
def State.claimWrite (s : State) (v : Nat) : State :=
  let t := s.claimTo v
  if t.fld fSACCLAIM_CLAIM = s.fld fSACCLAIM_CLAIM then t else t.claimEntry

/-- A write of SACOTP: PROG programs bits of a byte that is not locked (R383, R400). -/
def State.otpWrite (s : State) (v : Word) : State :=
  let t := s.plainWrite rSACOTP v
  let a := fldOf v fSACOTP_ADDR
  if fldOf v fSACOTP_PROG = 1 && !otpLocked a then
    { t with mem := t.mem.otpSet a (BitVec.ofNat 8 (fldOf v fSACOTP_DATA)) }
  else t

/-- A write of a register of block 16 that its access codes let through. -/
def State.sacWrite (s : State) (w : World) (a : Nat) (v : Word) : State :=
  if w = .nave then s
  else if a = rSACCLAIM then s.claimWrite v.toNat
  else if a = rSACENG then s.engWrite v
  else if a = rSACOTP then s.otpWrite v
  else s.plainWrite a v

/-- A write of a register of block 16 from a world. -/
def State.sacBus (s : State) (w : World) (a : Nat) (v : Word) : State :=
  let r := s.vet w a v
  r.st.sacWrite w a r.v

/-- SACENG with a command, a key and GO. -/
def engWord (cmd : Nat) (key : BitVec 4) : Word := BitVec.ofNat 32 (cmd + 8 + 256 * key.toNat)

/-- ENGINE_SHA256 (R387): SACENG is written with CMD 1. -/
def execEngineSha256 (w : World) (s : State) : Host.Outcome State Fault Refusal := .next (s.sacBus w rSACENG (engWord 1 0))

/-- ENGINE_AES_GCM (R387): SACENG is written with CMD 2. -/
def execEngineAesGcm (w : World) (key : BitVec 4) (s : State) : Host.Outcome State Fault Refusal :=
  .next (s.sacBus w rSACENG (engWord 2 key))

/-- ENGINE_VERIFY (R387): SACENG is written with CMD 3. -/
def execEngineVerify (w : World) (key : BitVec 4) (s : State) : Host.Outcome State Fault Refusal :=
  .next (s.sacBus w rSACENG (engWord 3 key))

/-- ENGINE_SIGN (R387): SACENG is written with CMD 4. -/
def execEngineSign (w : World) (s : State) : Host.Outcome State Fault Refusal := .next (s.sacBus w rSACENG (engWord 4 9))

/-- ENGINE_RANDOM (R387): SACENG is written with CMD 5. -/
def execEngineRandom (w : World) (s : State) : Host.Outcome State Fault Refusal := .next (s.sacBus w rSACENG (engWord 5 0))

/-- RNGFAIL (R388): the generator gives no output until a reset of watchdog scope or wider. -/
def execRngfail (s : State) : Host.Outcome State Fault Refusal :=
  .next ({ s.raise [fSACFLAG_RNGFAIL] with sac := { s.sac with rngFail := true } })

/-- OTP_PROGRAM (R400): SACOTP is written with PROG. -/
def execOtpProgram (w : World) (addr : BitVec 10) (data : Byte) (s : State) : Host.Outcome State Fault Refusal :=
  .next (s.sacBus w rSACOTP (BitVec.ofNat 32 (addr.toNat + 65536 * data.toNat + 2 ^ 31)))

/-- SACCLAIM_WRITE (R378, R380, R398). -/
def execSacclaimWrite (w : World) (v : Word) (s : State) : Host.Outcome State Fault Refusal := .next (s.sacBus w rSACCLAIM v)

/-! ### The violation log (R395, R396) -/

/-- The words SACVLOG0 to 3 of the head entry, 0 when the queue is empty. -/
def State.vlogWord (s : State) (k : Nat) : Nat :=
  match s.sac.vq with
  | e :: _ => leNat ((e.drop (4 * k)).take 4)
  | [] => 0

/-- Remove the head entry of the hardware queue, as a read of SACVLOG3 does. -/
def State.vlogPop (s : State) : State := { s with sac := { s.sac with vq := s.sac.vq.drop 1 } }

/-- VLOG_POP (R396): Rhoco takes the head entry and writes it into the MRAM ring; KIND 6 and 7 count in CUTS. -/
def execVlogPop (s : State) : Host.Outcome State Fault Refusal :=
  .next (
    match s.sac.vq with
    | [] => s
    | e :: _ =>
      let t := s.vlogPop
      let t := t.rhocoWrite (0x10011000 + 16 * (s.sac.vlogN % 256)) e
      let kind := (e.getD 6 0).toNat
      { t with sac := { t.sac with
        vlogN := t.sac.vlogN + 1, cutCount := t.sac.cutCount + b2n (kind = 6 || kind = 7) } })

/-! ### Descriptors (R397) -/

/-- An opcode of the Sacristy: while the Sacristy is held it completes SACRISTY_HELD. -/
def State.sacDesc (s : State) (d : Desc) (inRole : Bool) (act : State → DescRes) : State :=
  s.runDesc d inRole (fun t => if t.on fSACSTAT_HELD then t.fail 0x44 else act t)

/-- SAC_QUERY (Table 17.8). -/
def execSacQuery (d : Desc) (s : State) : Host.Outcome State Fault Refusal :=
  .next (s.runDesc d true (fun t =>
    ⟨t, stOK, t.sacStat, leBytes 4 t.sacStat ++ ([rSACCLAIM, rSACDEFER, rSACDBG].map
      (fun a => leBytes 4 (t.reg a).toNat)).flatten, false⟩))

/-- SAC_CHALLENGE (R382): 16 random bytes, which replace an outstanding challenge; with the generator failed there is none
(R388). -/
def execSacChallenge (d : Desc) (s : State) : Host.Outcome State Fault Refusal :=
  .next (s.sacDesc d true (fun t =>
    if t.sac.rngFail then t.fail 0x43
    else
      let c := freeBytes t.free 16
      ⟨{ t with sac := { t.sac with chal := some c } }.used 16, stOK, 0, c, false⟩))

/-- CHALLENGE_LAPSE (R382): 60 s after it was issued. -/
def execChallengeLapse (s : State) : Host.Outcome State Fault Refusal :=
  .next { s with sac := { s.sac with chal := none } }

/-- SAC_STAGE (R382): 16 bytes into an entry of the staging buffer. -/
def execSacStage (d : Desc) (s : State) : Host.Outcome State Fault Refusal :=
  .next (s.sacDesc d true (fun t =>
    let k := dsArg d 0
    if 8 ≤ k then t.fail stINVALID
    else
      let b := padTo 128 t.sac.stage
      let data := (d.bytes.drop 0x30).take 16
      ({ t with sac := { t.sac with stage := b.take (16 * k) ++ padTo 16 data ++ b.drop (16 * k + 16) } }).ok))

/-- The digest a signed operation's signature is over (R382). -/
def State.signedDigest (s : State) (d : Desc) (chal payload : List Byte) : List Byte :=
  sha256 (leBytes 1 (dsOpcode d) ++ s.uidBytes ++ chal ++ (d.bytes.drop 0x20).take 16 ++ payload)

/-- A signed operation (R382): it consumes the challenge and clears the staging buffer; without a challenge it completes
NO_CHALLENGE, with a signature that does not verify AUTH_FAILED, else as the operation says. -/
def State.signed (s : State) (d : Desc) (payload : List Byte) (act : State → DescRes) : DescRes :=
  let sig := (padTo 128 s.sac.stage).drop 64
  let t := { s with sac := { s.sac with chal := none, stage := [] } }
  match s.sac.chal with
  | none => t.fail 0x43
  | some c =>
    let k := dsArg d 1
    if s.keyUsable k && ecdsaVerify (s.signedDigest d c payload) (s.keyOf k) sig then act t
    else t.fail stAUTHFAILED

/-- KEY_INSTALL (R385): `readback` says the OTP bytes read back as written; if not, what they hold is free. -/
def execKeyInstall (d : Desc) (readback : Bool) (s : State) : Host.Outcome State Fault Refusal :=
  .next (s.sacDesc d true (fun t =>
    let key := (padTo 128 t.sac.stage).take 64
    t.signed d key (fun t =>
      let k := dsArg d 2
      if k ≤ dsArg d 1 || 8 ≤ k then t.fail stINVALID
      else if (t.keyOf k).any (· != 0) then t.fail 0x40
      else if !ecOnCurve (beNat (key.take 32)) (beNat (key.drop 32)) then t.fail stINVALID
      else if !readback then
        (({ t with mem := t.mem.otpSets (0x100 + 64 * k) (freeBytes t.free 64) }).used 64).fail 0x47
      else
        let m := (t.mem.otpSets (0x100 + 64 * k) key).otpSet 0x300 (BitVec.ofNat 8 (2 ^ k))
        (({ t with mem := m }).event 0x0103 (leBytes 1 k ++ leBytes 1 1)).ok)))

/-- KEY_REVOKE (R385). -/
def execKeyRevoke (d : Desc) (s : State) : Host.Outcome State Fault Refusal :=
  .next (s.sacDesc d true (fun t => t.signed d [] (fun t =>
    let k := dsArg d 2
    if k = dsArg d 1 then t.fail stINVALID
    else if 8 ≤ k || !(t.mem.otpByte 0x300).getLsbD k then t.fail 0x41
    else
      let u := { t with mem := t.mem.otpSet 0x301 (BitVec.ofNat 8 (2 ^ k)) }
      if !u.keyUsable 0 && !u.keyUsable 1 then t.fail 0x42
      else (u.event 0x0103 (leBytes 1 k ++ leBytes 1 2)).ok)))

/-- CLAIM_SET (R381): the new list is claimed and kept in the seal header. -/
def execClaimSet (d : Desc) (s : State) : Host.Outcome State Fault Refusal :=
  .next (s.sacDesc d true (fun t => t.signed d [] (fun t =>
    let l := dsArgs d 4 4
    if (List.range 32).any (fun k => l.testBit k && t.claimRefused k) then t.fail 0x46
    else (({ t with sac := { t.sac with claims := l } }).claimWrite l).ok)))

/-- The highest level DBGCEIL allows (Table 17.3); a value the table does not list allows none. -/
def debugCeil (b : Nat) : Nat :=
  match b with
  | 0 => 2
  | 1 => 1
  | _ => 0

/-- DEBUG_UNLOCK (R394). -/
def execDebugUnlock (d : Desc) (s : State) : Host.Outcome State Fault Refusal :=
  .next (s.sacDesc d true (fun t => t.signed d [] (fun t =>
    let l := dsArg d 2
    if t.mem.lifecycle = 3 then t.fail stDENIED
    else if 3 ≤ l || debugCeil (t.mem.otpByte 0x303).toNat < l then t.fail stINVALID
    else ((t.setFld fSACDBG_LEVEL l).event 0x0104 (leBytes 1 l)).ok)))

/-- The roles that keep a sealed record (R389). -/
def State.sealRole (s : State) : Bool := s.role = .cell || s.role = .loop

/-- The bytes of a seal entry as they stand in MRAM. -/
def State.sealBytes (s : State) (seq : Nat) : List Byte := s.coherentBytes (sealSlot seq) 64

/-- Whether the ring still holds the entry with a SEQ. -/
def State.sealHeld (s : State) (q : Nat) : Bool := decide (q < s.sac.seq) && decide (s.sac.seq ≤ q + 896)

/-- SEAL_READ (R392): entries in SEQ order from ARGS bytes 0 to 3 up to the capacity of RESLEN. -/
def execSealRead (d : Desc) (s : State) : Host.Outcome State Fault Refusal :=
  .next (s.sacDesc d s.sealRole (fun t =>
    let from' := dsArgs d 0 4
    let n := min (dsReslen d / 64) (t.sac.seq - from')
    let seqs := ((List.range n).map (from' + ·)).filter (fun q => t.sealHeld q)
    ⟨t, stOK, 0, (seqs.map t.sealBytes).flatten, false⟩))

/-- SEAL_ACK (R391). -/
def execSealAck (d : Desc) (s : State) : Host.Outcome State Fault Refusal :=
  .next (s.sacDesc d s.sealRole (fun t =>
    let a := dsArgs d 0 4
    if t.sac.seq < a || a < t.sac.ack then t.fail stINVALID
    else ({ t with sac := { t.sac with ack := a } }).ok))

/-- Whether the entry with a SEQ can be read and its TAG verifies over its body and the previous entry's TAG (Table 17.6). -/
def State.sealGood (s : State) (q : Nat) : Bool :=
  let e := s.sealBytes q
  let prev := if q = 0 then [] else (s.sealBytes (q - 1)).drop 48
  !(s.mem.ecc2.any (fun a => decide (sealSlot q ≤ a) && decide (a < sealSlot q + 64))) &&
    e.drop 48 = gmac s.kSeal (sealNonce q) (e.take 48 ++ padTo 16 prev)

/-- The entries of a range that verify from its first on. -/
def State.sealRun (s : State) : Nat → Nat → List Nat
  | 0, _ => []
  | n + 1, q => if s.sealHeld q && s.sealGood q then q :: State.sealRun s n (q + 1) else []

/-- SEAL_ATTEST (R392): the range is that of the descriptor, whose ARGS layout the spec does not give (Log 20). The signature's
per-signature number is free. -/
def execSealAttest (d : Desc) (first last : Nat) (s : State) : Host.Outcome State Fault Refusal :=
  .next (s.sacDesc d s.sealRole (fun t =>
    let want := last + 1 - first
    let run := t.sealRun (min want 896) first
    let lastOk := first + run.length - 1
    let dig := sha256 ((run.map t.sealBytes).flatten)
    let e := sha256 (t.uidBytes ++ leBytes 4 first ++ leBytes 4 lastOk ++ dig)
    ⟨t.used 1, if run.length = want then stOK else 0x45, lastOk, dig ++ ecdsaSign t.dDev t.free? e, false⟩))

/-- DEVKEY_QUERY (R386). -/
def execDevkeyQuery (d : Desc) (s : State) : Host.Outcome State Fault Refusal :=
  .next (s.sacDesc d true (fun t => ⟨t, stOK, 0, ecPublic t.dDev, false⟩))

/-- VLOG_READ (R396): the newest entries of the MRAM ring, newest first, up to RESLEN. -/
def execVlogRead (d : Desc) (s : State) : Host.Outcome State Fault Refusal :=
  .next (s.runDesc d true (fun t =>
    let n := min (dsReslen d / 16) (min 256 t.sac.vlogN)
    ⟨t, stOK, 0, ((List.range n).map (fun i =>
      t.coherentBytes (0x10011000 + 16 * ((t.sac.vlogN - 1 - i) % 256)) 16)).flatten, false⟩))

/-! ### Services (R377) -/

/-- Whether the caller may read or write a range of memory: memory that exists, open to its world (R325 to R333), within its
access-guard regions at its privilege (R274, R377). -/
def State.svMay (s : State) (c : Caller) (p : Perm) (a n : Nat) : Bool :=
  (if n = 0 then [] else wordsOf a n).all (fun x =>
    (s.busCheck (.core c.core) c.world (p = .w) x 0).1 && ((s.core c.core).guard c.world c.sup p x).1)

/-- SAC_INFO (Table 17.1). -/
def execSacInfo (c : Caller) (s : State) : Host.Outcome State Fault Refusal :=
  .next (if c.core = .cantoris then s else s.svcall c 0 (fun t =>
    ⟨t, svOK, [some t.sacStat, some (t.reg rSACDBG).toNat, some (t.reg rSACCLAIM).toNat]⟩))

/-- RNG_GET (Table 17.1, R388). -/
def execRngGet (c : Caller) (s : State) : Host.Outcome State Fault Refusal :=
  .next (if c.core = .cantoris then s else s.svcall c 1 (fun t =>
    if t.on fSACSTAT_HELD || t.sac.rngFail then t.sv svDENIED
    else ⟨t.used 3, svOK, (List.range 3).map (fun i => some (Config.free (t.free + i)))⟩))

/-- SHA256 (Table 17.1). -/
def execSha256 (c : Caller) (s : State) : Host.Outcome State Fault Refusal :=
  .next (if c.core = .cantoris then s else s.svcall c 2 (fun t =>
    let src := t.svArg c 0
    let n := t.svArg c 1
    let dst := t.svArg c 2
    if t.on fSACSTAT_HELD || !t.svMay c .r src n || !t.svMay c .w dst 32 then t.sv svDENIED
    else (t.rhocoWrite dst (sha256 (t.coherentBytes src n))).sv svOK))

/-- VERIFY (Table 17.1): a slot that is not present, or is revoked, verifies nothing. -/
def execVerify (c : Caller) (s : State) : Host.Outcome State Fault Refusal :=
  .next (if c.core = .cantoris then s else s.svcall c 3 (fun t =>
    let dig := t.svArg c 0
    let sig := t.svArg c 1
    let k := t.svArg c 2
    if 8 ≤ k then t.sv svBADARG
    else if t.on fSACSTAT_HELD || !t.svMay c .r dig 32 || !t.svMay c .r sig 64 then t.sv svDENIED
    else
      let good := t.keyUsable k && ecdsaVerify (t.coherentBytes dig 32) (t.keyOf k) (t.coherentBytes sig 64)
      ⟨t, svOK, [some (b2n (!good))]⟩))

/-- SEAL_STATUS (Table 17.1). -/
def execSealStatus (c : Caller) (s : State) : Host.Outcome State Fault Refusal :=
  .next (if c.core = .cantoris then s else s.svcall c 4 (fun t =>
    ⟨t, svOK, [some t.sac.seq, some t.sac.ack, some t.sac.missed]⟩))

end Sys2Proof.Machine
end

