-- ==== Sys2Proof/Machine/PowerEntry.lean ====
section
/-! DEFINITION. Power entry (chapter 3): sources and their selection, the line draw, grants, shedding, the rail
supervisors, and block 3. -/

namespace Sys2Proof.Machine

open Sys2Proof

/-! ### Sources (R52, R67) -/

/-- The qualified sources of the role, highest priority first, as codes of PWRSRC.SRC (Table 3.1). -/
def State.sources (s : State) : List Nat :=
  let pick := fun (f : Fld) (c : Nat) => if s.on f then [c] else []
  match s.role with
  | .cell => pick fPWRSRC_AUXOK 1 ++ pick fPWRSRC_CRESOK 0 ++ pick fPWRSRC_BAKOK 2
  | .loop => pick fPWRSRC_LINEOK 0 ++ pick fPWRSRC_BAKOK 2
  | .crossing | .chapter => pick fPWRSRC_AUXOK 1

/-- VMAIN is fed by a source: PWRSRC.SRC, and ALLOW under R60. -/
def State.feed (s : State) (src : Nat) : State :=
  (({ s with pwr := { s.pwr with fed := true } }).setFld fPWRSRC_SRC src).retoken

/-- While nothing feeds VMAIN, the first qualified source of a latched role starts it; in OFF nothing does. -/
def State.firstSource (s : State) : State :=
  if s.pwr.fed || !s.latched || s.slp.st = .off then s
  else match s.sources with
    | k :: _ => s.feed k
    | [] => s

/-- A switch to another source (R67): PWRFLAG.SWITCH, PWRSRC.SRC and ALLOW. A switch ends shedding (R69). -/
def State.switchSource (s : State) (src : Nat) : State :=
  (({ s with pwr := { s.pwr with shedXcall := false } }).feed src).pwrFlag fPWRFLAG_SWITCH

/-- The selected source was lost (R67): the part switches to the best that is left, or VMAIN is fed no more (R71). -/
def State.sourceLost (s : State) : State :=
  if !s.pwr.fed then s
  else match s.sources with
    | k :: _ => s.switchSource k
    | [] => { s with pwr := { s.pwr with fed := false } }

/-- The draw from the walk in units of 0.25 mA (R54): 0 during an over-voltage of VBR (Table 3.4). -/
def State.drawNow (s : State) : Nat := if s.pwr.ovLine then 0 else 3 + 2 * s.fld fPWRTOK_GRANT

/-- Bring the draw to what R54 gives. -/
def State.redraw (s : State) : State := { s with pwr := { s.pwr with draw := s.drawNow } }

/-- GRANT changes (R68): at most 24 (R62), the draw and ALLOW with it; a TOKENS call that waits returns. -/
def State.setGrant (s : State) (n : Nat) : State := (((s.setFld fPWRTOK_GRANT (min 24 n)).redraw).retoken).tokFinish

/-- Whether a line attachment of the part senses VBR (Table 2.4). -/
def State.onWalk (s : State) : Bool := s.role = .cell || s.role = .crossing

/-- A supply that R81 lists qualifies while the part is in OFF: the part leaves OFF (R81, R122). -/
def State.wakeOff (s : State) : State := if s.slp.st = .off then s.exitOff false else s

/-- The line or loop qualifies (R66, R67): LINERET after a loss. -/
def State.lineUp (s : State) : State :=
  let t := s.wakeOff
  let t := if t.pwr.lineLost then
      ({ t with pwr := { t.pwr with lineLost := false } }).pwrFlag fPWRFLAG_LINERET else t
  ((t.setFld fPWRSRC_LINEOK 1).redraw).firstSource

/-- LINE_QUALIFIED (R66, R67, R81). -/
def execLineQualified (s : State) : Host.Outcome State Fault Refusal :=
  .next (if s.onWalk && !s.on fPWRSRC_LINEOK then s.lineUp else s)

/-- The line or loop is lost (R67): LINELOSS, and GRANT becomes 0. -/
def State.lineDown (s : State) : State :=
  let t := { s.setFld fPWRSRC_LINEOK 0 with pwr := { s.pwr with lineLost := true, grantPend := none } }
  (t.setGrant 0).pwrFlag fPWRFLAG_LINELOSS

/-- LINE_LOST (R67): in Cell role CRES stays the source until it is lost. -/
def execLineLost (s : State) : Host.Outcome State Fault Refusal :=
  .next (if s.onWalk && s.on fPWRSRC_LINEOK then s.lineDown else s)

/-- LINE_OVERVOLTAGE (Table 3.4): the draw goes to 0 and OVLINE sets. -/
def execLineOvervoltage (s : State) : Host.Outcome State Fault Refusal :=
  .next (
    if s.role = .chapter then s
    else (({ s with pwr := { s.pwr with ovLine := true } }).redraw).pwrFlag fPWRFLAG_OVLINE)

/-- LINE_OV_RECOVER (Table 3.4): the draw returns. -/
def execLineOvRecover (s : State) : Host.Outcome State Fault Refusal :=
  .next (if s.pwr.ovLine then ({ s with pwr := { s.pwr with ovLine := false } }).redraw else s)

/-- LOOP_QUALIFIED (R66). -/
def execLoopQualified (s : State) : Host.Outcome State Fault Refusal :=
  .next (if s.role = .loop && !s.on fPWRSRC_LINEOK then s.lineUp else s)

/-- LOOP_LOST (R66, R67): a switch to VBAK, or brown-out follows. -/
def execLoopLost (s : State) : Host.Outcome State Fault Refusal :=
  .next (
    if s.role = .loop && s.on fPWRSRC_LINEOK then
      let t := s.lineDown
      if s.fld fPWRSRC_SRC = 0 then t.sourceLost else t
    else s)

/-- CRES_QUALIFIED (R66): CRES at 6.0 V ends shedding (R69). -/
def execCresQualified (s : State) : Host.Outcome State Fault Refusal :=
  .next (
    if s.role = .cell then
      (({ s with pwr := { s.pwr with shedXcall := false } }).setFld fPWRSRC_CRESOK 1).firstSource
    else s)

/-- CRES_LOST (R66, R67). -/
def execCresLost (s : State) : Host.Outcome State Fault Refusal :=
  .next (
    if s.role = .cell && s.on fPWRSRC_CRESOK then
      let t := s.setFld fPWRSRC_CRESOK 0
      if s.fld fPWRSRC_SRC = 0 then t.sourceLost else t
    else s)

/-- CRESFAIL (R70): 60 s after the line qualified CRES has not. -/
def execCresfail (s : State) : Host.Outcome State Fault Refusal :=
  .next (
    if s.role = .cell && s.on fPWRSRC_LINEOK && !s.on fPWRSRC_CRESOK then s.pwrFlag fPWRFLAG_CRESFAIL else s)

/-- VAUX_QUALIFIED (R53, R66, R81). -/
def execVauxQualified (s : State) : Host.Outcome State Fault Refusal :=
  .next (if s.on fPWRSRC_AUXOK then s else ((s.wakeOff).setFld fPWRSRC_AUXOK 1).firstSource)

/-- VAUX_LOST (R66, R67, R71). -/
def execVauxLost (s : State) : Host.Outcome State Fault Refusal :=
  .next (
    if s.on fPWRSRC_AUXOK then
      let t := s.setFld fPWRSRC_AUXOK 0
      if s.fld fPWRSRC_SRC = 1 then t.sourceLost else t
    else s)

/-- VBAK_QUALIFIED (R66): BAKLOW is timed from now on. -/
def execVbakQualified (s : State) : Host.Outcome State Fault Refusal :=
  .next (({ s.setFld fPWRSRC_BAKOK 1 with pwr := { s.pwr with bakSeen := true } }).firstSource)

/-- VBAK_LOST (R66, R67). -/
def execVbakLost (s : State) : Host.Outcome State Fault Refusal :=
  .next (
    if s.on fPWRSRC_BAKOK then
      let t := s.setFld fPWRSRC_BAKOK 0
      if s.fld fPWRSRC_SRC = 2 then t.sourceLost else t
    else s)

/-- BAKLOW (Table 3.4): a VBAK that has qualified since the last reset of brown-out scope or wider is below 2.0 V for 1 s. -/
def execBaklow (s : State) : Host.Outcome State Fault Refusal :=
  .next (if s.pwr.bakSeen then s.pwrFlag fPWRFLAG_BAKLOW else s)

/-- SOURCE_SWITCH (R67): a qualified source of higher priority takes over. -/
def execSourceSwitch (s : State) : Host.Outcome State Fault Refusal :=
  .next (
    match s.sources with
    | k :: _ => if s.pwr.fed && k != s.fld fPWRSRC_SRC then s.switchSource k else s
    | [] => s)

/-! ### Shedding (R69) -/

/-- Whether shed step `k` finds its row of Table 3.2 active, and the block whose claim orders it. -/
def State.shedActive (s : State) (k : Nat) : Bool :=
  match k with
  | 1 => s.on fMOTSTAT_GRUN
  | 2 => fontCost s.role (s.on fFONTSTAT_RUN) (s.on fFONTSTAT_FLOWCAD) (s.on fFONTCTL_LEVEL) != 0
  | 3 => s.cantRuns
  | 4 => s.on fSFEEXC_EN || (s.on fSFECTL_EN && sfeFast (s.fld fSFECTL_REJ) (s.fld fSFERATE_N))
  | 5 => s.on fMOTSTAT_ARUN && decide (6 ≤ s.fld fMOTCTL_ODR)
  | _ => false

/-- The block of a shed step. -/
def shedBlock (k : Nat) : Nat :=
  match k with
  | 2 => 19
  | 3 => 7
  | 4 => 17
  | _ => 20

/-- The next step: unclaimed blocks in step order, then claimed ones. -/
def State.shedNext (s : State) : Option Nat :=
  let act := [1, 2, 3, 4, 5].filter (fun k => s.shedActive k)
  (act.filter (fun k => !s.claimed (shedBlock k)) ++ act.filter (fun k => s.claimed (shedBlock k))).head?

/-- Record a shed: PWRSHED, PWRFLAG.SHED, and the violation log for a claimed block. -/
def State.shedMark (s : State) (k : Nat) : State :=
  let t := s.setFld fPWRSHED_SHEDMAP (s.fld fPWRSHED_SHEDMAP ||| 2 ^ (k - 1))
  let t := t.pwrFlag fPWRFLAG_SHED
  if s.claimed (shedBlock k) then t.violate 7 (shedBlock k) 0 0 else t

/-- Take one shed step. A shed of Cantoris in XCALL waits until DONE (R278). -/
def State.shed (s : State) (k : Nat) : State :=
  match k with
  | 1 => (s.motShed1.shedMark 1).retoken
  | 2 => (s.fontShed.shedMark 2).retoken
  | 3 =>
    if s.fld fCANTSTAT_STATE = 5 then { s with pwr := { s.pwr with shedXcall := true } } else s.cantShed
  | 4 => (s.sfeShed.shedMark 4).retoken
  | _ => (s.motShed5.shedMark 5).retoken

/-- SHED_STEP (R69): CRES below 6.0 V for another 1 ms while the line, through CRES, is the selected source. -/
def execShedStep (s : State) : Host.Outcome State Fault Refusal :=
  .next (
    if s.role = .cell && s.pwr.fed && s.fld fPWRSRC_SRC = 0 then
      match s.shedNext with
      | some k => s.shed k
      | none => s
    else s)

/-! ### Rails (R65) and resets -/

/-- VMAIN_WARNING (R65, R71). -/
def execVmainWarning (s : State) : Host.Outcome State Fault Refusal := .next (s.pwrFlag fPWRFLAG_BOW)

/-- VDDA_LOW (R65, R418): VDDAOK reads 0, and the sensor front end sets its flag. -/
def execVddaLow (s : State) : Host.Outcome State Fault Refusal :=
  .next (
    let t := (s.setFld fPWRSRC_VDDAOK 0).pwrFlag fPWRFLAG_VDDALOW
    if t.blockOn 17 then t.raise [fSFEFLAG_VDDA] else t)

/-- PWRMON_REFRESH (R72): every 10 ms in RUN and DOZE. PWRSRC's VCOREOK and VDDAOK show the live rails. -/
def execPwrmonRefresh (cres vbak vbr : BitVec 8) (vcoreOk vddaOk : Bool) (s : State) : Host.Outcome State Fault Refusal :=
  .next (
    if s.slp.st = .run ∨ s.slp.st = .doze then
      s.sets [(fPWRMON_CRESV, cres.toNat), (fPWRMON_VBAKV, vbak.toNat), (fPWRMON_VBRV, vbr.toNat),
        (fPWRSRC_VCOREOK, b2n vcoreOk), (fPWRSRC_VDDAOK, b2n vddaOk)]
    else s)

/-- BROWN_OUT_RESET (R71, R118): the VMAIN or VCORE supervisor resets the part. In OFF no rail is watched (R81). -/
def execBrownOutReset (s : State) : Host.Outcome State Fault Refusal :=
  .next (if s.latched && s.slp.st != .off then s.resetAct 1 else s)

/-- PIN_RESET (R118, R81): RST_N low resets with brown-out scope, and leaves OFF. -/
def execPinReset (s : State) : Host.Outcome State Fault Refusal :=
  .next (
    if !s.latched then s
    else if s.slp.st = .off then (s.exitOff true).firstSource
    else s.resetAct 2)

/-- VAO_LOSS (R65): VAO below 0.95 V holds the part in power-on reset. -/
def execVaoLoss (s : State) : Host.Outcome State Fault Refusal := .next (s.resetPowerOn false)

/-- POWER_ON_RESET (R118, R39, R136): the supervisor releases, and TEST_EN is sampled. -/
def execPowerOnReset (testEn : Bool) (s : State) : Host.Outcome State Fault Refusal := .next (s.resetPowerOn testEn)

/-! ### The role (R10, R11) -/

/-- Latch a role: its registers take the role's values (Tables 1.5 to 1.7), and a source that has qualified feeds VMAIN. -/
def State.latchRole (s : State) (r : Role) (unstable : Bool) (strapNow : Nat) : State :=
  let t := { s with role := r, latched := true }
  let t := t.sets (roleFields r ++ [(fROLESTAT_UNSTABLE, b2n unstable), (fROLESTAT_STRAPNOW, strapNow),
    (fROLESTAT_DIFFER, b2n (strapNow % 4 != roleCode r))])
  ((t.foReset.loopSync none).retoken).firstSource

/-- ROLE_LATCH (R11): eight agreeing samples. -/
def execRoleLatch (r : Role) (s : State) : Host.Outcome State Fault Refusal :=
  .next (if s.latched then s else s.latchRole r false (roleCode r))

/-- STRAP_TIMEOUT (R11): no agreement within 256 cycles, so the part is a Cell. -/
def execStrapTimeout (strapNow : BitVec 2) (s : State) : Host.Outcome State Fault Refusal :=
  .next (if s.latched then s else s.latchRole .cell true strapNow.toNat)

/-! ### Block 3 -/

/-- A write of a register of block 3: setting a PWRIE bit for a PWRFLAG bit that is already 1 fires PWREV (Table 4.3). -/
def State.pwrWrite (s : State) (a : Nat) (v : Word) : State :=
  let t := s.plainWrite a v
  if a = rPWRIE then
    let new := t.fld fPWRIE_IE ^^^ (t.fld fPWRIE_IE &&& s.fld fPWRIE_IE)
    if new &&& (t.reg rPWRFLAG).toNat != 0 then t.wake 6 else t
  else t.retoken

/-- PWR_QUERY (R73). -/
def execPwrQuery (d : Desc) (s : State) : Host.Outcome State Fault Refusal :=
  .next (s.runDesc d true (fun t => t.query [rPWRSRC, rPWRTOK, rPWRFLAG, rPWRMON, rPWRSHED, rBODCNT]))

/-- PWR_BACKUP (R73). -/
def execPwrBackup (d : Desc) (s : State) : Host.Outcome State Fault Refusal :=
  .next (s.runDesc d true (fun t =>
    let chg := bitAt (dsArg d 1) 0
    if 24 < dsArg d 0 || 1 < dsArg d 1 || !argsZeroFrom d 2 || (chg && (t.role = .chapter || t.role = .crossing)) then
      t.fail stINVALID
    else t.setup State.pwrWrite
      [(rPWRCFG, (putFld (putFld (t.reg rPWRCFG) fPWRCFG_BAKALLOW (dsArg d 0)) fPWRCFG_BAKCHG (b2n chg)).toNat)]))

end Sys2Proof.Machine
end

