-- ==== Sys2Proof/Machine/Down.lean ====
section
/-! DEFINITION. The downlink of a walk's driver: the schedule (R186), the queue of frames, SEQ per peer and ring, and what is
sent in the downlink period (R188, R189, R198, R200). -/

namespace Sys2Proof.Machine

open Sys2Proof

/-! ### The schedule (R186) -/

/-- The bit rate of a RATE code. -/
def bitRate (r : Nat) : Nat := 19200 * 2 ^ r

/-- The sweep element E in bit times. -/
def sweepE (r : Nat) : Nat := if r < 2 then 1 else 2 ^ (r - 1)

/-- SWOFS as it acts: a value outside 4 to 24 acts as 8 (Table 9.8). -/
def swofs (v : Nat) : Nat := if 4 ≤ v ∧ v ≤ 24 then v else 8

/-- The downlink period in bits: from 232 to S. -/
def downBits (rate sw : Nat) : Nat := bitRate rate * swofs sw / 32 - 232

/-- The full slots of the uplink region: from S + 272 E + 624 to N − 48, 616 bits each. -/
def upSlots (rate sw : Nat) : Nat :=
  (bitRate rate - 48 - (bitRate rate * swofs sw / 32 + 272 * sweepE rate + 624)) / 616

/-- The bits a frame takes, with its gap. -/
def frameBits (f : Frame) : Nat := 104 + 8 * f.payload.length

/-- The bits of a probe window: the PROBE, 8 bits, 16 elements and 8 bits. -/
def probeBits (rate : Nat) : Nat := 184 + 16 * sweepE rate

/-- The rate of the driven walk, and its SWOFS. -/
def State.drvRate (s : State) : Nat := s.fld fWDSTAT_RATENOW
def State.drvSwofs (s : State) : Nat := s.fld fLPCTL_SWOFS

/-- The walk this part drives: walk 0, or the Crossing's (R16). -/
def State.drvWalk (s : State) : Nat := if s.role = .chapter then 0 else s.fld fLINEADDR_ROLEADDR

/-- Whether the part drives its walk now. -/
def State.drives (s : State) : Bool := s.on fWDSTAT_ON

/-! ### Peers, rings and SEQ (R189) -/

/-- The number of a peer's line ring: 4A + RING for a Cell, and after all of those 4n + RING for a Crossing. -/
def lineKey (ra : Bool) (addr ring : Nat) : Nat := if ra then 16384 + 4 * (addr % 16) + ring else 4 * addr + ring

/-- The line ring of a frame. -/
def frKey (f : Frame) : Nat := lineKey (frRA f) (frAddr f) (frRing f)

/-- An entry of a map from numbers to numbers, 0 where it has none; the map with an entry put. -/
def mapAt (l : List (Nat × Nat)) (k : Nat) : Nat := ((l.find? (fun p => p.1 = k)).map (·.2)).getD 0
def mapPut (l : List (Nat × Nat)) (k v : Nat) : List (Nat × Nat) := (k, v) :: l.filter (fun p => p.1 != k)

/-- Whether a frame type carries a SEQ. -/
def carriesSeq (type : Nat) : Bool := type = 2 || type = 4 || type = 5 || type = 6 || type = 0xC

/-- What a receiver does with a SEQ, given the last one it accepted (R189): accept it, acknowledge a repeat again, or discard it. -/
inductive SeqCase where
  | accept
  | again
  | ahead
  deriving DecidableEq, Repr

def seqCase (last seq : Nat) : SeqCase :=
  let d := (seq + 256 - last) % 256
  if d = 1 then .accept else if d = 0 ∨ 129 ≤ d then .again else .ahead

/-- Whether an ACK covers a SEQ: it is the SEQ or up to 127 ahead of it. -/
def acked (ack seq : Nat) : Bool := (ack + 256 - seq) % 256 < 128

/-- Forget the SEQ counters of a peer, as JOIN does. -/
def State.seqRestart (s : State) (ra : Bool) (addr : Nat) : State :=
  let out := fun (l : List (Nat × Nat)) =>
    l.filter (fun p => p.1 < lineKey ra addr 0 || lineKey ra addr 3 < p.1)
  { s with drv := { s.drv with seqTx := out s.drv.seqTx, seqRx := out s.drv.seqRx } }

/-! ### The enrolment table -/

/-- A Cell of the driven walk by position. -/
def State.enr? (s : State) (pos : Nat) : Option Enr := s.drv.enr.find? (fun e => e.pos = pos)

/-- Replace a Cell's entry. -/
def State.setEnr (s : State) (e : Enr) : State :=
  { s with drv := { s.drv with enr := s.drv.enr.map (fun x => if x.pos = e.pos then e else x) } }

/-- Change the entry at a position, where there is one. -/
def State.onEnr (s : State) (pos : Nat) (g : Enr → Enr) : State :=
  { s with drv := { s.drv with enr := s.drv.enr.map (fun x => if x.pos = pos then g x else x) } }

/-- A Crossing of walk 0, and a change of its entry. -/
def State.xing? (s : State) (n : Nat) : Option Xing := s.drv.xings.find? (fun x => x.n = n)
def State.onXing (s : State) (n : Nat) (g : Xing → Xing) : State :=
  { s with drv := { s.drv with xings := s.drv.xings.map (fun x => if x.n = n then g x else x) } }

/-- The walk of a Cell address (R19). -/
def cellWalk (a : Nat) : Nat := a / 256

/-! ### The downlink queue -/

/-- The walk a downlink frame of the Chapter is relayed to, when it is. -/
def State.relayWalk (s : State) (f : Frame) : Option Nat :=
  if s.role = .chapter && !frRA f && cellWalk (frAddr f) != 0 then some (cellWalk (frAddr f)) else none

/-- Whether a frame's relay credit is there (R198). -/
def State.relayOk (s : State) (f : Frame) : Bool :=
  match s.relayWalk f with
  | none => true
  | some n => (s.xing? n).any (fun x => decide (1 ≤ x.relay))

/-- The frame as it is sent: a frame of this driver takes its ACK now. At a Crossing the two
SEQ maps hold, for the Cells it relays to, the last DESC relayed and the last ACK relayed. -/
def State.withAck (s : State) (x : Dn) : Frame :=
  if x.relay || (frType x.f != 2 && frType x.f != 3) then x.f
  else { x.f with hdr := x.f.hdr + 2 ^ 40 * mapAt s.drv.seqRx (frKey x.f) }

/-- The bits kept for probe windows while roll call runs: 8 in each superframe (R200). -/
def State.probeReserve (s : State) : Nat :=
  if s.on fLPSTAT_ROLLING then (8 - s.drv.probes) * probeBits s.drvRate else 0

/-- Send one frame of the queue. A DESC of this driver stays until it is acknowledged; any other leaves the queue. -/
def State.dnSend (s : State) (x : Dn) : State :=
  let keep := frType x.f = 2 && !x.relay
  let f := s.withAck x
  let q := if keep then s.drv.dn.map (fun y => if y = x then { y with age := some 0, tries := y.tries + 1 } else y)
    else s.drv.dn.erase x
  let t := { s with drv := { s.drv with
    dn := q, dnRoom := s.drv.dnRoom - frameBits f, ackDue := s.drv.ackDue.filter (· != frKey f) } }
  let t := match s.relayWalk f with
    | some n => t.onXing n (fun c => { c with relay := c.relay - 1 })
    | none => t
  let mine := !frRA f && cellWalk (frAddr f) = s.drvWalk
  let seq := bitsOf f.hdr 32 8
  let fresh := if x.relay then seqCase (mapAt s.drv.seqTx (frKey f)) seq != .again else x.tries = 0
  let t := if frType f = 2 && mine && fresh then
      t.onEnr (frAddr f % 256) (fun e => { e with descs := e.descs + 1 }) else t
  let t := if x.relay then
      { t with
        drv := { t.drv with
          seqRx := mapPut t.drv.seqRx (frKey f) (frAck f),
          seqTx := if frType f = 2 && fresh then mapPut t.drv.seqTx (frKey f) seq else t.drv.seqTx }
        node := { t.node with relCred := t.node.relCred + 1 } } else t
  t.emit (.frame .driven f)

/-- An ACKF to a peer and ring (R189). -/
def ackFrame (key b6 b7 : Nat) : Frame :=
  if key < 16384 then ⟨mkHdr 3 0 0 0 (key / 4) (key % 4) 0 0 0 b6 b7, []⟩
  else ⟨mkHdr 3 1 0 0 ((key - 16384) / 4) (key % 4) 0 0 0 b6 b7, []⟩

/-- Queue a frame of this driver. -/
def State.dnPut (s : State) (f : Frame) : State :=
  { s with drv := { s.drv with dn := s.drv.dn ++ [⟨f, false, none, 0⟩] } }

/-- Owed acknowledgements with no DESC waiting on their ring, and owed token answers, become ACKF frames. -/
def State.dnOwed (s : State) : State :=
  let keys := s.drv.ackDue.filter (fun k => !s.drv.dn.any (fun x => x.age.isNone && frKey x.f = k && frType x.f < 4))
  let t := { s with drv := { s.drv with ackDue := [], tokDue := [] } }
  let t := keys.reverse.foldl (fun u k => u.dnPut (ackFrame k 0 0)) t
  s.drv.tokDue.reverse.foldl (fun u pos =>
    match s.enr? pos with
    | some e => u.dnPut (ackFrame (4 * (256 * s.drvWalk + pos)) 0 (32 + e.held))
    | none => u) t

/-- Send what waits, oldest first, as far as the period allows. -/
def State.dnDrain : Nat → State → State
  | 0, s => s
  | n + 1, s =>
    match s.drv.dn.find? (fun x => x.age.isNone && s.relayOk x.f) with
    | some x => if frameBits x.f + s.probeReserve ≤ s.drv.dnRoom then State.dnDrain n (s.dnSend x) else s
    | none => s

/-- The downlink period goes on: everything that waits is sent as far as there is room. The line sends nothing while the safe
state is forced (R112). -/
def State.dnFlush (s : State) : State :=
  if s.drv.dnOpen && s.drives && !s.on fCLKSTAT_FORCED then
    let t := s.dnOwed
    t.dnDrain (t.drv.dn.length)
  else s

/-- Queue a frame and send it if the period is open. -/
def State.down (s : State) (f : Frame) : State := (s.dnPut f).dnFlush

/-- Owe a peer an acknowledgement. -/
def State.oweAck (s : State) (key : Nat) : State :=
  ({ s with drv := { s.drv with ackDue := if s.drv.ackDue.contains key then s.drv.ackDue else key :: s.drv.ackDue } }).dnFlush

/-- Owe a Cell of the driven walk its token total. -/
def State.oweTok (s : State) (pos : Nat) : State :=
  ({ s with drv := { s.drv with tokDue := if s.drv.tokDue.contains pos then s.drv.tokDue else pos :: s.drv.tokDue } }).dnFlush

/-- Queue a DESC to a peer under the next SEQ of its Command ring: the SEQ, and the state. -/
def State.dnDesc (s : State) (ra : Bool) (addr : Nat) (bytes : List Byte) : Nat × State :=
  let key := lineKey ra addr 0
  let seq := (mapAt s.drv.seqTx key + 1) % 256
  let t := { s with drv := { s.drv with seqTx := mapPut s.drv.seqTx key seq } }
  (seq, t.down ⟨mkHdr 2 (b2n ra) 0 0 addr 0 64 seq 0 0 0, bytes⟩)

/-- Take acknowledged DESC frames out of the queue. -/
def State.dnAcked (s : State) (key ack : Nat) : State :=
  { s with drv := { s.drv with dn := s.drv.dn.filter (fun x =>
      !(frType x.f = 2 && !x.relay && x.age.isSome && frKey x.f = key && acked ack (bitsOf x.f.hdr 32 8))) } }

end Sys2Proof.Machine
end

