-- ==== Sys2Proof/Machine/Script.lean ====
section
/-! DEFINITION. The Scriptorium (chapter 11): ring numbers, doorbells, fetches, tags and credits, completions from the line,
stream buffers, lane fences; and what an absent Cell settles (R152). -/

namespace Sys2Proof.Machine

open Sys2Proof

/-! ### Ring numbers (Table 11.1) -/

/-- The kind of a ring: 0 Command, 1 Event, 2 Stream, 3 Local. -/
def ringKind (n : Nat) : Option Nat :=
  if 16384 ≤ n then none
  else match n % 4 with
    | 0 => some 0
    | 1 => some 1
    | 2 => some 2
    | _ =>
      let m := n / 4
      if m = 0 then some 3
      else if m = 1 then some 1
      else if 0x11 ≤ m ∧ m ≤ 0x1F then some 0
      else if 0x21 ≤ m ∧ m ≤ 0x2F then some 1
      else none

/-- The line ring of a ring's target. -/
def ringKey (n : Nat) : Nat :=
  if n % 4 != 3 then n
  else if n / 4 < 0x20 then lineKey true (n / 4 - 0x10) 0 else lineKey true (n / 4 - 0x20) 1

/-- The ring that belongs to a line ring of a peer. -/
def keyRing (k : Nat) : Nat :=
  if k < 16384 then k
  else
    let n := (k - 16384) / 4
    if k % 4 = 0 then 4 * (0x10 + n) + 3 else 4 * (0x20 + n) + 3

/-! ### Lanes (R244) -/

/-- Whether a lane is fenced or being fenced. -/
def State.laneFenced (s : State) (k : Nat) : Bool :=
  (s.fld fSCLANE_FENCED).testBit k || s.scr.fences.any (fun p => p.1 = k)

/-- The unfenced lanes in ascending order. -/
def State.liveLanes (s : State) : List Nat := (List.range 8).filter (fun k => !s.laneFenced k)

/-- The lane of a ring (R244). -/
def State.laneOf (s : State) (n : Nat) : Nat :=
  if !s.laneFenced (n % 8) then n % 8
  else
    let l := s.liveLanes
    l.getD (n / 8 % l.length) 0

/-! ### Halts and fetching -/

/-- Halt a ring (R250): STATE 3 and ERR, RING_HALTED on ring 7, SCFLAG.HALT. A ring that is not kept is only reported. -/
def State.haltRing (s : State) (r : Ring) (err : Nat) : State :=
  let r' := { r with st := 3, err := err }
  let t := (s.setRing r').writeCtx r'
  let t := if r.st = 1 ∨ r.st = 2 then t.setFld fSCSTAT_ENABLED (s.fld fSCSTAT_ENABLED - 1) else t
  (t.raise [fSCFLAG_HALT]).event 0x0003 (leBytes 2 r.n ++ leBytes 1 err)

/-- A ring that is not enabled, as a failed ENABLE leaves it. -/
def blankRing (n : Nat) : Ring := ⟨n, 0, 0, 0, 4, 0, false, 0, 0, 0, 0, 0, 0, 0, 0, [], 0, 0, 0⟩

/-- Ask host memory for the slot at a ring's fetch index. -/
def State.askFetch (s : State) (n : Nat) : State :=
  match s.ring? n with
  | some r =>
    if r.st = 1 && r.fetch != r.p && s.hostReady && !s.scr.failed then
      s.emit (.hostRead (r.dbase + 64 * (r.fetch % r.size)) 64)
    else s
  | none => s

/-! ### Credits (R146, R190, R224) -/

/-- The credit book of a Command ring's key. -/
def State.credit (s : State) (k : Nat) : Credit :=
  (s.scr.credits.find? (fun c => c.ring = k)).getD ⟨k, 0, 0, false, false, 0, []⟩

/-- Replace a book. -/
def State.setCredit (s : State) (c : Credit) : State :=
  { s with scr := { s.scr with credits := c :: s.scr.credits.filter (fun x => x.ring != c.ring) } }

/-- O, which may be negative (Table 7.4). -/
def Credit.o (c : Credit) : Int := (c.g : Int) - c.c

/-- The peer of a Command ring's key. -/
def keyRA (k : Nat) : Bool := decide (16384 ≤ k)
def keyAddr (k : Nat) : Nat := if k < 16384 then k / 4 else (k - 16384) / 4

/-- The oldest descriptor that waits in its lane for a ring. -/
def State.waitingHeld (s : State) (ring : Nat) : Option Held :=
  (s.scr.held.filter (fun h => h.phase = 0 && h.ring = ring)).getLast?

/-- Replace a held descriptor. -/
def State.setHeld (s : State) (h : Held) : State :=
  { s with scr := { s.scr with held := s.scr.held.map (fun x => if x.tag = h.tag then h else x) } }

/-- The oldest forwarded descriptor that waits for a credit of a Crossing's Command ring. -/
def State.waitingFwd (s : State) (k : Nat) : Option Fwd :=
  s.drv.fwd.find? (fun f => f.seq.isNone && lineKey true f.n 0 = k)

/-- Give a forwarded descriptor its SEQ. -/
def State.fwdSent (s : State) (f : Fwd) (seq : Nat) : State :=
  { s with drv := { s.drv with fwd := s.drv.fwd.map (fun (x : Fwd) => if x = f then { x with seq := some seq } else x) } }

/-- Send the descriptors that wait on a ring, and then those forwarded to it, while credit lasts; a ring whose window is unknown
asks for it once (R224, R244). -/
def State.sendWaiting : Nat → State → Nat → State
  | 0, s, _ => s
  | n + 1, s, ring =>
    let k := ringKey ring
    let c := s.credit k
    match s.waitingHeld ring, s.waitingFwd k with
    | none, none => s
    | held, fwd =>
      if !c.known then
        if c.asked then s
        else (s.setCredit { c with asked := true }).down (ackFrame k 0x20 0)
      else if 1 ≤ c.o then
        let t := s.setCredit { c with c := c.c + 1 }
        match held, fwd with
        | some h, _ =>
          let r := t.dnDesc (keyRA k) (keyAddr k) h.d.bytes
          State.sendWaiting n (r.2.setHeld { h with phase := 2, seq := r.1 }) ring
        | none, some f =>
          let r := t.dnDesc (keyRA k) (keyAddr k) f.d.bytes
          State.sendWaiting n (r.2.fwdSent f r.1) ring
        | none, none => s
      else s

/-- Send what a ring's credit allows. -/
def State.trySend (s : State) (ring : Nat) : State := s.sendWaiting (s.scr.held.length + s.drv.fwd.length) ring

/-- Forward a Local descriptor to the Crossing that drives a walk from 1 to 15 (R180, R198): it completes with what the Crossing
completes it with. A Crossing that is absent or not known makes it WALK_DOWN. -/
def State.forward (s : State) (n : Nat) (d : Desc) : DescRes :=
  match s.xing? n with
  | none => s.fail stWALKDOWN
  | some x =>
    if x.absent then s.fail stWALKDOWN
    else
      let t := { s with drv := { s.drv with fwd := s.drv.fwd ++ [(⟨n, none, d, 0⟩ : Fwd)] } }
      ⟨t.trySend (keyRing (lineKey true n 0)), stOK, 0, [], true⟩

/-- A credit is settled (R146): C falls by one. -/
def State.settle (s : State) (k : Nat) : State :=
  let c := s.credit k
  (s.setCredit { c with c := c.c - 1 }).trySend (keyRing k)

/-- The Chapter takes a window (R190, R224): after a request, C is the stale count D. -/
def State.takeWindow (s : State) (k g : Nat) : State :=
  let c := s.credit k
  let c' := if c.known then { c with g := g } else { c with g := g, c := c.stale, known := true, asked := false }
  (s.setCredit c').trySend (keyRing k)

/-! ### Completions the Chapter gives itself -/

/-- The entry of a completion the Chapter gives itself (R236). -/
def ownEntry (h : Held) (status result rlen : Nat) : List Byte :=
  leBytes 8 (dsCookie h.d) ++ leBytes 4 result ++ leBytes 1 status ++ leBytes 1 h.seq ++ leBytes 2 rlen

/-- Complete a held descriptor with a status of the Chapter's own. -/
def State.closeHeld (s : State) (h : Held) (status : Nat) : State := s.finishHeld h (ownEntry h status 0 0)

/-- Take a descriptor's frame out of the downlink, so that it is not sent again. -/
def State.unsend (s : State) (k seq : Nat) : State :=
  { s with drv := { s.drv with dn := s.drv.dn.filter (fun x =>
      !(frType x.f = 2 && !x.relay && frKey x.f = k && bitsOf x.f.hdr 32 8 = seq)) } }

/-- Whether a Cell's key lies among the four rings of a peer. -/
def ofPeer (ra : Bool) (addr k : Nat) : Bool := decide (lineKey ra addr 0 ≤ k) && decide (k ≤ lineKey ra addr 3)

/-- What R152 settles for a peer declared absent: every descriptor outstanding to it completes CELL_ABSENT, C = 0 and O = G on its
rings, and nothing more is sent to it. -/
def State.settleAbsent (s : State) (ra : Bool) (addr : Nat) : State :=
  let mine := fun (h : Held) => (h.phase = 0 || h.phase = 2) && ofPeer ra addr (ringKey h.ring) && h.ring != 3
  let t := (s.scr.held.filter mine).reverse.foldl (fun t h => t.closeHeld h stABSENT) s
  let books := t.scr.credits.map (fun c => if ofPeer ra addr c.ring then { c with c := 0, stale := 0, staleSeq := [] } else c)
  let dead := t.drv.fwd.filter (fun (f : Fwd) => ra && f.n = addr)
  let t := { t with
    scr := { t.scr with credits := books, lost := t.scr.lost.filter (fun p => !ofPeer ra addr p.1) }
    drv := { t.drv with
      dn := t.drv.dn.filter (fun x => x.relay || !(frType x.f = 2 && frRA x.f = ra && frAddr x.f = addr)),
      fwd := t.drv.fwd.filter (fun (f : Fwd) => !(ra && f.n = addr)) } }
  dead.foldl (fun u f => u.complete f.d stWALKDOWN 0 []) t

/-! ### Fetched descriptors (R244) -/

/-- The lowest free tag (R150). -/
def State.lowTag (s : State) : Nat :=
  ((List.range 1024).find? (fun k => !s.scr.held.any (fun h => h.tag = k))).getD 0

/-- Opcodes that act only at the Chapter (R246 step 2). -/
def chapterOnly (op : Nat) : Bool := op = 0x02 || op = 0x03 || (decide (0x13 ≤ op) && decide (op ≤ 0x17))

/-- The status the Chapter itself gives a descriptor at once: on a Stream ring UNKNOWN_OPCODE or INVALID_FIELD for what is no
STREAM_BUF, NOT_IN_ROLE for an opcode of the Chapter on another ring, NOT_ENROLLED or CELL_ABSENT for a target that cannot
be reached. -/
def State.refuseAtOnce (s : State) (kind ring op : Nat) : Option Nat :=
  let k := ringKey ring
  if kind = 2 then
    if !opAssigned op && !opOffice op then some stUNKNOWN else if op != 0x1F then some stINVALID else none
  else if kind = 0 then
    if chapterOnly op then some stNOTROLE
    else if keyRA k then
      match s.xing? (keyAddr k) with
      | none => some stNOTENROLLED
      | some x => if x.absent then some stABSENT else none
    else if cellWalk (keyAddr k) = 0 then
      match s.enr? (keyAddr k) with
      | none => some stNOTENROLLED
      | some e => if e.absent then some stABSENT else none
    else
      match s.xing? (cellWalk (keyAddr k)) with
      | none => some stNOTENROLLED
      | some x => if x.absent || s.drv.gone.contains (keyAddr k) then some stABSENT else none
  else none

/-- The phase a descriptor starts in: with Rhoco, waiting in its lane, or a stream descriptor. -/
def startPhase (kind : Nat) : Nat := if kind = 3 then 1 else if kind = 2 then 4 else 0

/-- A fetch returned a slot's 64 bytes (R244 steps 1 to 3). -/
def State.fetched (s : State) (r : Ring) (bytes : List Byte) : State :=
  let tag := s.lowTag
  let d : Desc := ⟨.lane r.lane, r.n, 0, r.fetch, bytes⟩
  let h : Held := ⟨tag, r.n, r.fetch, r.lane, d, startPhase r.kind, 0, 0, []⟩
  let n := s.fld fTAGSTAT_FREE - 1
  let t := s.sets [(fTAGSTAT_FREE, n), (fSCTAG_FREE, n)]
  let t := { t.setRing { r with fetch := r.next r.fetch } with scr := { (t.setRing { r with fetch := r.next r.fetch }).scr with
    held := h :: t.scr.held } }
  let t := match s.refuseAtOnce r.kind r.n (dsOpcode d) with
    | some st => t.closeHeld h st
    | none => if r.kind = 0 then t.trySend r.n else if r.kind = 3 then t.pump else t
  t.askFetch r.n

/-- DESCRIPTOR_FETCH (R244): what the read of the ring's next slot answered, none for a failed one (R230, R250). It acts while
the ring fetches, a hand-off entry of its lane and a tag are free. -/
def execDescriptorFetch (n : Nat) (bytes : Option (List Byte)) (s : State) : Host.Outcome State Fault Refusal :=
  .next (
    match s.ring? n with
    | none => s
    | some r =>
      if r.st != 1 || r.kind = 1 || r.fetch = r.p || !s.hostReady || s.scr.failed then s
      else
        match bytes with
        | none => s.haltRing r 1
        | some b =>
          if decide ((s.scr.held.filter (fun h => h.lane = r.lane && h.phase = 0)).length < 32) && s.on fTAGSTAT_FREE then
            s.fetched r b
          else s)

/-- STREAM_BUF (R240): on a Stream ring it posts a buffer, or completes INVALID_FIELD; anywhere else it completes
INVALID_FIELD. -/
def execStreamBuf (d : Desc) (s : State) : Host.Outcome State Fault Refusal :=
  .next (
    match s.scr.held.find? (fun h => h.d = d && h.phase = 4) with
    | some h =>
      if dsResbuf d && dsFormOk d && dsReslen d % 64 = 0 && decide (64 ≤ dsReslen d) && decide (dsReslen d ≤ 32768) then
        s.setHeld { h with phase := 5 }
      else s.closeHeld h stINVALID
    | none => s.runDesc d true (fun t => t.fail stINVALID))

/-! ### Doorbells (R241, R242) -/

/-- A context's fields (Table 11.2) as a ring with its indices at the doorbell's. -/
def ctxRing (n lane idx cidx : Nat) (ctx : List Byte) : Ring :=
  let b := fun (i : Nat) => (ctx.getD i 0).toNat
  let l2 := b 0x11
  let m := 2 * 2 ^ l2
  ⟨n, leNat (ctx.take 8), leNat ((ctx.drop 8).take 8), b 0x10, l2, b 0x12 % 64, (b 0x12).testBit 6,
    idx % m, cidx % m, idx % m, cidx % m, 1, 0, lane, idx % m, [], 0, 0, 0⟩

/-- The checks of ENABLE on a context (R242). -/
def ctxOk (n : Nat) (ctx : List Byte) : Bool :=
  let b := fun (i : Nat) => (ctx.getD i 0).toNat
  let dbase := leNat (ctx.take 8)
  let cbase := leNat ((ctx.drop 8).take 8)
  let kind := b 0x10
  ringKind n = some kind && decide (4 ≤ b 0x11) && decide (b 0x11 ≤ 12) &&
    (if kind = 1 then dbase % 16 = 0 && cbase = 0 else dbase % 64 = 0 && cbase % 16 = 0)

/-- ENABLE (R242, R244, R250, R253). -/
def State.ringEnable (s : State) (n idx cidx : Nat) (ctx : Option (List Byte)) : State :=
  match s.ring? n with
  | some r =>
    if r.st = 1 ∨ r.st = 2 then s.raise [fSCFLAG_DBBAD]
    else if r.st = 3 then s.raise [fSCFLAG_DBBAD]
    else s
  | none =>
    if (ringKind n).isNone then s.haltRing (blankRing n) 4
    else
      match if s.tableBase = 0 then none else ctx with
      | some c =>
        if ctxOk n c then
          let r := ctxRing n (s.laneOf n) idx cidx c
          let t := ((s.setRing r).writeCtx r).setFld fSCSTAT_ENABLED (s.fld fSCSTAT_ENABLED + 1)
          if n = 7 then t.drainRecords (t.scr.recq.length) else t
        else s.haltRing (blankRing n) 3
      | none => s.haltRing (blankRing n) 3

/-- UPDATE (R242, R249). While a ring drains or is halted only the completion index is taken. -/
def State.ringUpdate (s : State) (n idx cidx : Nat) : State :=
  match s.ring? n with
  | none => s.raise [fSCFLAG_DBOFF]
  | some r =>
    let m := 2 * r.size
    if r.kind = 1 then
      let t := s.setRing { r with p := idx % m }
      if n = 7 then t.drainRecords (t.scr.recq.length) else t
    else if r.st != 1 then (s.setRing { r with ch := cidx % m }).retryHeld
    else if m ≤ idx || r.size < r.dist r.dhead idx || r.dist r.dhead idx < r.dist r.dhead r.p then
      s.haltRing { r with ch := cidx % m } 2
    else
      let t := (s.setRing { r with p := idx, ch := cidx % m }).retryHeld
      if r.fetch = r.p then t.askFetch n else t

/-- DISABLE (R242): the ring drains, and is disabled once nothing it fetched is left; an Event ring at once. A halted ring is
disabled too, so that it can be enabled again (R250). -/
def State.ringDisable (s : State) (n : Nat) : State :=
  match s.ring? n with
  | none => s.raise [fSCFLAG_DBOFF]
  | some r =>
    let t := if r.st = 3 then s.setFld fSCSTAT_ENABLED (s.fld fSCSTAT_ENABLED + 1) else s
    let r' := { r with st := 2, err := 0 }
    ((t.setRing r').writeCtx r').endDrain n

/-- A slot write acts (R241): `data` is its 16 bytes, `ctx` what a read of the ring's context answers. -/
def State.bell (s : State) (slot : Nat) (data : List Byte) (ctx : Option (List Byte)) : State :=
  let idx := leNat (data.take 2)
  let cidx := leNat ((data.drop 2).take 2)
  let op := (data.getD 4 0).toNat
  if leNat ((data.drop 6).take 2) != slot || data.getD 5 0 != 0 || leNat (data.drop 8) != 0 || op = 0 || 3 < op then
    s.raise [fSCFLAG_DBBAD]
  else if op = 1 then s.ringUpdate slot idx cidx
  else if op = 2 then
    (if s.tableBase = 0 then s else s.emit (.hostRead (s.tableBase + 32 * slot) 24)).ringEnable slot idx cidx ctx
  else s.ringDisable slot

/-- A whole slot write, held until the Scriptorium runs (R253). -/
def State.bellIn (s : State) (slot : Nat) (data : List Byte) (ctx : Option (List Byte)) : State :=
  if s.on fHLSTAT_SCRRDY then s.bell slot data ctx
  else { s with scr := { s.scr with bells := s.scr.bells ++ [(slot, data, ctx)] } }

/-- DOORBELL (R218, R241): a write in BAR2, as one 16-byte TLP or the two 8-byte halves of a slot in address order. -/
def execDoorbell (off : Nat) (data : List Byte) (ctx : Option (List Byte)) (s : State) :
    Host.Outcome State Fault Refusal :=
  .next (
    if s.role != .chapter || 0x40000 ≤ off then s
    else
      let t := { s with hl := { s.hl with half := none } }
      if off % 16 = 0 && data.length = 16 then t.bellIn (off / 16) data ctx
      else if off % 16 = 0 && data.length = 8 then { s with hl := { s.hl with half := some (off, data) } }
      else
        match s.hl.half with
        | some h =>
          if off = h.1 + 8 && data.length = 8 then t.bellIn (h.1 / 16) (h.2 ++ data) ctx else t.raise [fHLFLAG_DBFMT]
        | none => t.raise [fHLFLAG_DBFMT])

/-- Rhoco starts the Scriptorium and sets SCRRDY; the doorbells held act in order (R253, chapter 10 From cold). -/
def State.scrStart (s : State) : State :=
  if s.role = .chapter && !s.on fHLSTAT_SCRRDY then
    let t := { s.setFld fHLSTAT_SCRRDY 1 with scr := { s.scr with bells := [] } }
    s.scr.bells.foldl (fun u b => u.bell b.1 b.2.1 b.2.2) t
  else s

/-! ### Completions, events and streams from the line -/

/-- Write result bytes for a descriptor at RESADDR, after those already written (R237). -/
def State.resultBytes (s : State) (d : Desc) (rlen : Nat) (bs : List Byte) : State :=
  let room := (if dsResbuf d then dsReslen d else 0) - rlen
  if (bs.take room).isEmpty then s else s.emit (.hostWrite (dsResaddr d + rlen) (bs.take room))

/-- The oldest descriptor on a ring that the target has not completed: the one sent longest ago. -/
def State.oldestSent (s : State) (k : Nat) : Option Held :=
  (s.scr.held.filter (fun h => h.phase = 2 && ringKey h.ring = k)).getLast?

/-- Every later descriptor to a Cell that accepted RESET completes DISCARDED_BY_RESET (R153): `last` is the last SEQ the Cell
accepted on its Command ring. Its windows are unknown until it announces them. -/
def State.discardLater (s : State) (k last : Nat) : State :=
  let later := fun (h : Held) =>
    h.phase = 2 && ringKey h.ring = k && decide (1 ≤ (h.seq + 256 - last) % 256) && decide ((h.seq + 256 - last) % 256 < 128)
  let t := (s.scr.held.filter later).reverse.foldl (fun t h => (t.closeHeld h stDISCARDED).unsend k h.seq) s
  t.setCredit { (t.credit k) with g := 0, c := 0, known := false, asked := false, stale := 0, staleSeq := [] }

/-- Whether an entry can be written for a ring now (R249). -/
def State.entryRoom (s : State) (n : Nat) : Bool :=
  match s.ring? n with
  | some r => s.hostReady && decide (r.dist r.ch r.ctail < r.size)
  | none => false

/-- A completion of a peer's descriptor (R236, R237, R151, R224): whether the frame is taken, and the state. One for a stale
descriptor, or for one that completed LANE_LOST, is discarded and settles its credit; one whose entry has no room is not
taken; one that answers nothing is discarded. -/
def State.takeCompl (s : State) (k : Nat) (entry : List Byte) : Bool × State :=
  let seq := (entry.getD 13 0).toNat
  let c := s.credit k
  if c.staleSeq.contains seq then
    let t := s.setCredit { c with stale := c.stale - 1, staleSeq := c.staleSeq.erase seq }
    (true, if c.known then t.settle k else t)
  else if s.scr.lost.contains (k, seq) then
    (true, ({ s with scr := { s.scr with lost := s.scr.lost.erase (k, seq) } }).settle k)
  else
    match s.scr.held.find? (fun h => h.phase = 2 && ringKey h.ring = k && h.seq = seq) with
    | some h =>
      if s.entryRoom h.ring then
        let t := (s.finishHeld h entry).unsend k seq
        let t := t.settle k
        (true, if dsOpcode h.d = 0x0A && (entry.getD 12 0) = 0 && k < 16384 + 64 then
          t.discardLater k (entry.getD 8 0).toNat else t)
      else (false, s)
    | none =>
      match s.drv.fwd.find? (fun f => lineKey true f.n 0 = k && f.seq = some seq) with
      | some f =>
        -- BOOKS_QUERY completes from its BOOKS_FIG record (R572): 256 marks that only that is awaited.
        if dsOpcode f.d = 0x03 && entry.getD 12 0 = 0 then (true, ((s.fwdSent f 256).unsend k seq).settle k) else
        let t := { s with drv := { s.drv with fwd := s.drv.fwd.filter (fun x => x != f) } }
        let t := t.sendEntry f.d [] (mkEntry f.d (entry.getD 12 0).toNat (leNat ((entry.drop 8).take 4)) (leNat (entry.drop 14)))
        (true, (t.unsend k seq).settle k)
      | none => (true, s)

/-- A BOOKS_FIG record of Crossing `n` completes the oldest BOOKS_QUERY forwarded to it (R572), with RESULT and result bytes. The
Crossing's own completion, if it is still to come, is discarded and settles its credit. -/
def State.booksTaken (s : State) (n result : Nat) (bytes : List Byte) : State :=
  match s.drv.fwd.find? (fun f => f.n = n && dsOpcode f.d = 0x03 && f.seq.isSome) with
  | some f =>
    let t := { s with drv := { s.drv with fwd := s.drv.fwd.filter (fun x => x != f) } }
    let q := f.seq.getD 256
    let t := if q = 256 then t else { t with scr := { t.scr with lost := (lineKey true n 0, q) :: t.scr.lost } }
    t.complete f.d stOK result bytes
  | none => s

/-- Stream bytes for the buffers of a Stream ring (R240): whether they are taken, and the state. A frame that does not fit in the
current buffer is split; without a buffer it is not taken. -/
def State.streamIn : Nat → State → Nat → List Byte → Bool × State
  | 0, s, _, _ => (false, s)
  | fuel + 1, s, n, bs =>
    match s.ring? n, (s.scr.held.filter (fun h => h.phase = 5 && h.ring = n)).getLast? with
    | some r, some h =>
      if r.st != 1 ∨ !s.hostReady then (false, s)
      else
        let room := dsReslen h.d - r.fill
        let now := bs.take room
        let t := s.emit (.hostWrite (dsResaddr h.d + r.fill) now)
        let t := t.setRing { r with
          fill := r.fill + now.length, fillAge := 0, fillTime := if r.fill = 0 then s.now % 2 ^ 32 else r.fillTime }
        if r.fill + now.length < dsReslen h.d then (true, t)
        else if !s.entryRoom n then (false, s)
        else
          let ft := if r.fill = 0 then s.now % 2 ^ 32 else r.fillTime
          let u := t.setRing { r with fill := 0, fillAge := 0, fillTime := 0 }
          let u := u.finishHeld h (ownEntry h stOK ft (dsReslen h.d))
          if (bs.drop room).isEmpty then (true, u) else
            let q := State.streamIn fuel u n (bs.drop room)
            if q.1 then q else (false, s)
    | _, _ => (false, s)

/-- STREAM_FLUSH (R240): FLUSH superframes have passed with the buffer partly filled and no byte added. -/
def execStreamFlush (n : Nat) (s : State) : Host.Outcome State Fault Refusal :=
  .next (
    match s.ring? n, (s.scr.held.filter (fun h => h.phase = 5 && h.ring = n)).getLast? with
    | some r, some h =>
      if dsArg h.d 0 != 0 && r.fill != 0 && dsArg h.d 0 ≤ r.fillAge then
        (s.setRing { r with fill := 0, fillAge := 0, fillTime := 0 }).finishHeld h (ownEntry h stOK r.fillTime r.fill)
      else s
    | _, _ => s)

/-- A superframe passes for the stream buffers. -/
def State.streamAge (s : State) : State :=
  { s with scr := { s.scr with rings := s.scr.rings.map (fun r =>
      if r.fill = 0 then r else { r with fillAge := r.fillAge + 1 }) } }

/-! ### Lane fences (R251, R252) -/

/-- Post LANE_RETIRED for each fence whose LANE_LOST completions are all written (R251). -/
def State.fencesDone (s : State) : State :=
  let done := fun (p : Nat × List Byte × List Nat) => p.2.2.all (fun t => !s.scr.held.any (fun h => h.tag = t && h.phase = 3))
  let ready := s.scr.fences.filter done
  let t := { s with scr := { s.scr with fences := s.scr.fences.filter (fun p => !done p) } }
  ready.foldl (fun u p =>
    let u := u.sets [(fSCLANE_FENCED, u.fld fSCLANE_FENCED ||| 2 ^ p.1),
      (fSCLANE_CAUSE, if (p.2.1.getD 1 0) = 2 then u.fld fSCLANE_CAUSE ||| 2 ^ p.1 else u.fld fSCLANE_CAUSE)]
    (u.raise [fSCFLAG_LANERET]).event 0x0001 p.2.1) t

/-- One descriptor of a fenced lane: replayed in its ring's new lane, or completed LANE_LOST (R151, R251). -/
def State.fenceOne (s : State) (h : Held) : State :=
  if dsIdem h.d || h.phase = 3 then
    let t := s.setHeld { h with lane := s.laneOf h.ring }
    let t := if h.phase = 3 then t else t.count fSCCNT_REPLAYED
    if h.phase = 2 then
      { t with drv := { t.drv with dn := t.drv.dn.map (fun x =>
          if frType x.f = 2 && !x.relay && frKey x.f = ringKey h.ring && bitsOf x.f.hdr 32 8 = h.seq then { x with age := none }
          else x) } }
    else t
  else
    let t := if h.phase = 2 then
        { s with scr := { s.scr with lost := (ringKey h.ring, h.seq) :: s.scr.lost } } else s
    (t.closeHeld h stLANELOST).count fSCCNT_LOST

/-- A lane is fenced (R251): cause 1 parity, 2 self-test. -/
def State.fenceLane (s : State) (k cause : Nat) : State :=
  let mine := (s.scr.held.filter (fun h => h.lane = k)).reverse
  let rep := (mine.filter (fun h => dsIdem h.d && h.phase != 3)).length
  let gone := mine.filter (fun h => !dsIdem h.d && h.phase != 3)
  let data := leBytes 1 k ++ leBytes 1 cause ++ leBytes 2 rep ++ leBytes 2 gone.length
  let t : State := { s with scr := { s.scr with fences := s.scr.fences ++ [(k, data, gone.map (fun (h : Held) => h.tag))] } }
  let t := { t with scr := { t.scr with rings := t.scr.rings.map (fun (r : Ring) => if r.lane = k then { r with lane := t.laneOf r.n } else r) } }
  ((mine.foldl State.fenceOne t).dnFlush).fencesDone

/-- The last live lane would be fenced (R252): everything held completes LANE_LOST, and fetching stops. -/
def State.scrFail (s : State) (cause : Nat) : State :=
  let t := (s.scr.held.filter (fun h => h.phase != 3)).reverse.foldl (fun t h =>
    let u := if h.phase = 2 then { t with scr := { t.scr with lost := (ringKey h.ring, h.seq) :: t.scr.lost } } else t
    (u.closeHeld h stLANELOST).count fSCCNT_LOST) s
  let t := { t with scr := { t.scr with failed := true } }
  ((t.setFld fSCSTAT_FAILED 1).raise [fSCFLAG_SCRFAIL]).event 0x0002 (leBytes 1 cause)

/-- A fault of a lane: it is fenced, unless it is the last live one. -/
def State.laneFault (s : State) (k cause : Nat) : State :=
  if s.role != .chapter || s.laneFenced k then s
  else if s.liveLanes.length = 1 then s.scrFail cause
  else s.fenceLane k cause

/-- LANE_FENCE (R155, R251, R252): a parity mismatch in a lane's own queues, or a failed self-test slice. -/
def execLaneFence (k : Fin 8) (selfTest : Bool) (s : State) : Host.Outcome State Fault Refusal :=
  .next (
    let t := if selfTest then s else s.queueParity
    if s.role != .chapter then s else t.laneFault k.val (if selfTest then 2 else 1))

end Sys2Proof.Machine
end

