-- ==== Sys2Proof/Machine/WalkDrive.lean ====
section
/-! DEFINITION. The driven walk (chapter 8) and its token book (R61, R146 to R149, R154, R176): drive on and off, supply and
short checks, WALK_POWER and the queries; the walk attachment; and the electrical side of the Lectern jack. -/

namespace Sys2Proof.Machine

open Sys2Proof

/-! ### The token book (R61, R146) -/

/-- Replace the driver state. -/
def State.setDrv (s : State) (g : Drv → Drv) : State := { s with drv := g s.drv }

/-- I_WALK in mA (R61, R181). -/
def State.iWalk (s : State) : Nat :=
  let i := s.fld fWDCTL_ILIM
  10 * (if i < 4 then 4 else if 32 < i then 32 else i)

/-- U: the Cells enrolled, and on walk 0 the Crossings (R61). -/
def State.enrolled (s : State) : Nat := s.drv.enr.length + (if s.role = .chapter then s.drv.xings.length else 0)

/-- B (R61): the floor of (I_WALK − 0.75 U − 19) / 0.5, which may be negative. -/
def State.budget (s : State) : Int := 2 * (s.iWalk : Int) - 38 - ((3 * s.enrolled + 1) / 2 : Nat)

/-- DEFICIT and FREE (R146, R149). -/
def State.deficit (s : State) : Nat := ((s.drv.granted : Int) + (s.drv.quar.map (·.1)).sum - s.budget).toNat
def State.freeTokens (s : State) : Nat := (s.budget - s.drv.granted - (s.drv.quar.map (·.1)).sum).toNat

/-- A walk event's data: the walk, and a number of two bytes (R248). -/
def State.walkData (s : State) (n : Nat) : List Byte := leBytes 1 s.drvWalk ++ leBytes 2 n

/-- A driver event of the walk that carries WDMON.IWALK. -/
def State.walkEvent (s : State) (code : Nat) : State := s.driverEvent code none (s.walkData (s.fld fWDMON_IWALK))

/-- Answer the requests in the order they arrived (R191): each Cell holds the lesser of what it wants and what it holds with
what is FREE. A request that is met in part stays open. Nothing is granted during a deficit (R149), a stray load (R176) or
with B below zero. -/
def State.serveList (s : State) : List Nat → State
  | [] => s
  | pos :: rest =>
    match s.enr? pos with
    | none => s.serveList rest
    | some e =>
      match e.wanted with
      | none => s.serveList rest
      | some w =>
        let free := if s.drv.noGrant then 0 else s.freeTokens
        let new := min w (e.held + free)
        let done := new = w
        let t := s.setEnr { e with held := new, wanted := if done then none else some w }
        let t := t.setDrv (fun d => { d with
          granted := d.granted + (new - e.held),
          reqs := if done then d.reqs.filter (· != pos) else d.reqs })
        (if new = e.held then t else t.oweTok pos).serveList rest

def State.serve (s : State) : State := s.serveList s.drv.reqs

/-- A change of U, I_WALK or the book: WALK_OVERLOAD once B falls below zero, WALK_DEFICIT once a deficit arises, and BOOKFLAG's
DEFICIT (R61, R149). -/
def State.bookSync (s : State) : State :=
  let ovl := decide (s.budget < 0)
  let t := if ovl && !s.drv.overloadSeen then s.driverEvent 0x0007 none (s.walkData s.enrolled) else s
  let short := decide (0 < s.deficit)
  let t := if short && !s.drv.deficitSeen then t.driverEvent 0x0006 none (s.walkData s.deficit) else t
  let t := t.setDrv (fun d => { d with overloadSeen := ovl, deficitSeen := short })
  (t.setFld fBOOKFLAG_DEFICIT (b2n short)).serve

/-- A request of a Cell (R191): the whole number it wants. A lower total returns tokens, which are freed at the end of the
superframe (R148). A request equal to what it holds is answered with the same total. -/
def State.tokenAsk (s : State) (pos want : Nat) : State :=
  match s.enr? pos with
  | none => s
  | some e =>
    if want ≤ e.held then
      let t := s.setEnr { e with held := want, wanted := none }
      (t.setDrv (fun d => { d with freed := d.freed + (e.held - want), reqs := d.reqs.filter (· != pos) })).oweTok pos
    else
      let t := s.setEnr { e with wanted := some want }
      let t := t.setDrv (fun d => { d with reqs := d.reqs.filter (· != pos) ++ [pos] })
      let t := if e.held = 0 && t.freeTokens = 0 then t.oweTok pos else t
      t.serve

/-- Tokens of an absent Cell go to quarantine for two whole superframes (R148, R152): `3` starts end the one under way and the
two whole ones. -/
def State.quarantine (s : State) (pos : Nat) : State :=
  match s.enr? pos with
  | none => s
  | some e =>
    let t := s.setEnr { e with held := 0, wanted := none }
    t.setDrv (fun d => { d with
      granted := d.granted - e.held,
      quar := d.quar ++ [(e.held, 3, pos)],
      reqs := d.reqs.filter (· != pos) })

/-- Quarantined tokens whose superframes have passed become FREE or pay off the deficit (R148, R149). -/
def State.quarEnd (s : State) : State :=
  (s.setDrv (fun d => { d with quar := d.quar.filter (fun p => p.2.1 != 0) })).bookSync

/-- QUARANTINE_END (R148): acts on the tokens whose two whole superframes have passed. -/
def execQuarantineEnd (s : State) : Host.Outcome State Fault Refusal :=
  .next (if s.drv.quar.any (fun p => p.2.1 = 0) then s.quarEnd else s)

/-- A breach of a book (R154): BREACH and KIND, and BOOKS_BREACH. -/
def State.breach (s : State) (kind walk cell ring : Nat) : State :=
  let t := s.sets [(fBOOKFLAG_BREACH, 1), (fBOOKFLAG_KIND, s.fld fBOOKFLAG_KIND ||| 2 ^ kind)]
  t.driverEvent 0x0005 none (leBytes 1 kind ++ leBytes 1 walk ++ leBytes 2 cell ++ leBytes 1 ring)

/-- The tokens the Cells hold, with those returned in this superframe. -/
def State.tokenSum (s : State) : Nat := (s.drv.enr.map (·.held)).sum + s.drv.freed

/-- The driver's audit at each beacon (R154): the tokens granted against what the Cells hold, and at the Chapter the tags. A
recount replaces the book. -/
def State.audit (s : State) : State :=
  let t := if s.drv.granted = s.tokenSum then s
    else ((s.breach 2 s.drvWalk 0 0).setDrv (fun d => { d with granted := s.tokenSum })).bookSync
  if t.role = .chapter && t.fld fTAGSTAT_FREE + t.scr.held.length != 1024 then
    (t.breach 1 0 0 0).sets [(fTAGSTAT_FREE, 1024 - t.scr.held.length), (fSCTAG_FREE, 1024 - t.scr.held.length)]
  else t

/-! ### Drive on and off (R171, R174, R175) -/

/-- Times of the last 60 s. -/
def lastMinute (now : Nat) (l : List Nat) : List Nat := l.filter (fun t => (now + 2 ^ 48 - t) % 2 ^ 48 < 60 * 32768)

/-- Roll call stops. -/
def State.rollStop (s : State) : State := (s.setDrv (fun d => { d with roll := none })).setFld fLPSTAT_ROLLING 0

/-- WGATE goes to WSUP: the walk is not driven any more. -/
def State.driveOff (s : State) : State :=
  let t := (s.sets [(fWDSTAT_ON, 0), (fWDSTAT_STARTING, 0), (fWDSTAT_LIMIT, 0)]).rollStop
  t.setDrv (fun d => { d with testing := false, lastOff := some s.now, dnOpen := false, babble := 0, stray := 0, slotsFor := [] })

/-- The WALK_POWER that waits for the contest test completes. -/
def State.powerDone (s : State) (status : Nat) : State :=
  match s.drv.powerDesc with
  | some d => (s.setDrv (fun x => { x with powerDesc := none })).complete d status 0 []
  | none => s

/-- Whether the walk may be driven now: 1 s has passed since the last turn-off (R175). -/
def State.offLongEnough (s : State) : Bool :=
  match s.drv.lastOff with
  | none => true
  | some t => decide (32768 ≤ (s.now + 2 ^ 48 - t) % 2 ^ 48)

/-- Whether the part is on, starting or testing. -/
def State.driveBusy (s : State) : Bool := s.on fWDSTAT_ON || s.on fWDSTAT_STARTING || s.drv.testing

/-- A request to drive (R171): without WSUP it sets REFUSED and does not act. A Crossing without a walk does not drive (R20). Else
EN is set and the contest test runs, at once or 1 s after the last turn-off. The answer says whether the test is to come. -/
def State.driveReq (s : State) : Bool × State :=
  if !s.on fWDSTAT_WSUPOK || s.drv.ovWsup then (false, s.raise [fWDFLAG_REFUSED])
  else if s.role = .crossing && s.drvWalk = 0 then (false, s)
  else
    let t := s.setFld fWDCTL_EN 1
    if s.driveBusy then (s.drv.testing, t)
    else if s.offLongEnough then (true, t.setDrv (fun d => { d with testing := true, retryDue := false }))
    else (true, t.setDrv (fun d => { d with retryDue := true }))

/-- EN goes to 0: drive is off for at least 1 s (R175). -/
def State.driveStop (s : State) : State :=
  let t := (s.setFld fWDCTL_EN 0).setDrv (fun d => { d with retryDue := false })
  (if s.driveBusy then t.driveOff else t).powerDone stOK

/-- CONTEST_TEST_END (R23, R171): `contested` says that WVS stayed above 8.0 V for 1 ms. -/
def execContestTestEnd (contested : Bool) (s : State) : Host.Outcome State Fault Refusal :=
  .next (
    if !s.drv.testing then s
    else
      let t := s.setDrv (fun d => { d with testing := false })
      if contested then
        let t := (t.setFld fROLESTAT_CONTESTED 1).raise [fWDFLAG_CONTEST]
        (t.walkEvent 0x0014).powerDone stCONTESTED
      else (t.setFld fWDSTAT_STARTING 1).powerDone stOK)

/-- The book of a walk whose drive comes on (R156, R175): nothing granted, nothing in quarantine. -/
def State.bookFresh (s : State) : State :=
  (s.setDrv (fun d => { d with
    granted := 0, quar := [], freed := 0, reqs := [], tokDue := []
    noGrant := false, stray := 0, strayOk := 0
    enr := d.enr.map (fun (e : Enr) => { e with held := 0, wanted := none, silent := 0, badSlots := 0, missed := 0 })
    xings := d.xings.map (fun (x : Xing) => { x with silent := 0, badSlots := 0 }) })).bookSync

/-- WALK_DRIVE_ON (R174, R23, R175, R212): WVS has reached V_HIGH − 1.0 V. -/
def execWalkDriveOn (s : State) : Host.Outcome State Fault Refusal :=
  .next (
    if s.on fWDSTAT_STARTING then
      (s.sets [(fWDSTAT_STARTING, 0), (fWDSTAT_ON, 1), (fROLESTAT_CONTESTED, 0)]).bookFresh
    else s)

/-- WALK_STARTFAIL (R174): drive turns off and is not tried again. -/
def execWalkStartfail (s : State) : Host.Outcome State Fault Refusal :=
  .next (
    if s.on fWDSTAT_STARTING then
      (((s.driveOff).raise [fWDFLAG_STARTFAIL]).count fWDCNT_SHORTS).walkEvent 0x0011
    else s)

/-- A turn-off for a short (R174): the flag, the count and the report; with RETRY a restart 1 s later, up to 3 times in 60 s; a fourth
turn-off clears EN. -/
def State.shortOff (s : State) (f : Fld) : State :=
  let times := s.now :: lastMinute s.now s.drv.offTimes
  let t := ((s.driveOff).raise [f]).count fWDCNT_SHORTS
  let again := s.on fWDCTL_RETRY && decide (times.length < 4)
  let t := t.setDrv (fun d => { d with offTimes := times, retryDue := again })
  (if times.length < 4 then t else t.setFld fWDCTL_EN 0).walkEvent 0x0010

/-- WALK_SHORT (R174): WVS below 10 V for 10 ms while the driver limits. -/
def execWalkShort (s : State) : Host.Outcome State Fault Refusal :=
  .next (if s.on fWDSTAT_ON || s.on fWDSTAT_STARTING then s.shortOff fWDFLAG_SHORT else s)

/-- HARDTRIP (R174): 1.0 A for 2 µs. -/
def execHardtrip (s : State) : Host.Outcome State Fault Refusal :=
  .next (if s.on fWDSTAT_ON || s.on fWDSTAT_STARTING then s.shortOff fWDFLAG_HARDTRIP else s)

/-- WALK_RETRY (R174, R175, R178): a restart that is due begins with the contest test. -/
def execWalkRetry (s : State) : Host.Outcome State Fault Refusal :=
  .next (
    if s.drv.retryDue && s.on fWDCTL_EN && s.on fWDSTAT_WSUPOK && !s.drv.ovWsup && s.offLongEnough then
      s.setDrv (fun d => { d with retryDue := false, testing := true })
    else s)

/-- Whether the part has a walk drive block (Table 1.1). -/
def State.hasDrive (s : State) : Bool := s.role = .chapter || s.role = .crossing

/-- WSUP_QUALIFIED (R167). -/
def execWsupQualified (s : State) : Host.Outcome State Fault Refusal :=
  .next (if s.hasDrive then s.setFld fWDSTAT_WSUPOK 1 else s)

/-- WSUP_LOST (R167): drive off and WSUPLOW. -/
def execWsupLost (s : State) : Host.Outcome State Fault Refusal :=
  .next (
    if s.hasDrive && s.on fWDSTAT_WSUPOK then
      let t := (s.setFld fWDSTAT_WSUPOK 0).raise [fWDFLAG_WSUPLOW]
      (if s.driveBusy then t.driveOff else t).powerDone stSUPPLYLOW
    else s)

/-- WSUP_OVERVOLTAGE (R167): drive off and WSUPOV. -/
def execWsupOvervoltage (s : State) : Host.Outcome State Fault Refusal :=
  .next (
    if s.hasDrive then
      let t := (s.raise [fWDFLAG_WSUPOV]).setDrv (fun d => { d with ovWsup := true })
      (if s.driveBusy then t.driveOff else t).powerDone stSUPPLYLOW
    else s)

/-- WSUP_OV_RECOVER (R167): with EN still set the drive resumes. -/
def execWsupOvRecover (s : State) : Host.Outcome State Fault Refusal :=
  .next (
    if s.drv.ovWsup then
      let t := s.setDrv (fun d => { d with ovWsup := false })
      if s.on fWDCTL_EN && s.on fWDSTAT_WSUPOK then t.driveReq.2 else t
    else s)

/-- RATE_CHANGE_APPLY (R171): the rate that WDCTL selects acts at an idle bit boundary. -/
def execRateChangeApply (s : State) : Host.Outcome State Fault Refusal :=
  .next (if s.hasDrive then s.setFld fWDSTAT_RATENOW (s.fld fWDCTL_RATE) else s)

/-- A write of a register of block 8: EN = 1 is a request to drive, EN = 0 turns drive off, and ILIM changes the budget. -/
def State.wdWrite (s : State) (a : Nat) (v : Word) : State :=
  let t := s.plainWrite a v
  if a = rWDCTL then
    let u := t.setFld fWDCTL_EN (s.fld fWDCTL_EN)
    let u := if t.on fWDCTL_EN then u.driveReq.2 else if s.on fWDCTL_EN then u.driveStop else u
    u.bookSync
  else t

/-- A write of a register of block 6: PARSTAT's CLR and BOOKFLAG's BREACH have effects beyond their bit (R157). -/
def State.bookWrite (s : State) (a : Nat) (v : Word) : State :=
  let t := s.plainWrite a v
  if a = rPARSTAT && v.getLsbD 7 then t.sets [(fPARSTAT_CNT, 0), (fPARADDR_ADDR, 0)]
  else if a = rBOOKFLAG && v.getLsbD 0 then t.setFld fBOOKFLAG_KIND 0
  else t

/-- PARSTAT_CLR (R157): CNT is 0 and PARADDR takes the next mismatch. -/
def execParstatClr (s : State) : Host.Outcome State Fault Refusal :=
  .next (s.bookWrite rPARSTAT 0x80)

/-! ### Descriptors (R180, R158) -/

/-- WALK_POWER at the driver of the walk. -/
def State.walkPower (s : State) (d : Desc) (en : Bool) (ilim : Nat) (retry babcut : Bool) : DescRes :=
  if ilim < 4 || 32 < ilim then s.fail stINVALID
  else if en && (!s.on fWDSTAT_WSUPOK || s.drv.ovWsup) then (s.raise [fWDFLAG_REFUSED]).fail stSUPPLYLOW
  else
    let t := (s.sets [(fWDCTL_ILIM, ilim), (fWDCTL_RETRY, b2n retry), (fWDCTL_BABCUT, b2n babcut)]).bookSync
    if !en then (if t.on fWDCTL_EN then t.driveStop else t).ok
    else
      let r := t.driveReq
      if r.1 then ⟨r.2.setDrv (fun x => { x with powerDesc := some d }), stOK, 0, [], true⟩ else r.2.ok

/-- Whether a descriptor came from the Chapter's Local ring, or reached a Crossing by the walk. -/
def State.driverRing (s : State) (d : Desc) : Bool :=
  match s.role, d.path with
  | .chapter, .lane _ => d.ring = 3
  | .crossing, .walk => true
  | _, _ => false

/-- Run a descriptor of a walk's driver: the Chapter acts on walk 0 and forwards the rest (R180). A Crossing acts on its walk. -/
def State.runDriver (s : State) (d : Desc) (walk : Nat) (act : State → DescRes) : State :=
  s.runDesc d (s.driverRing d) (fun t =>
    if 15 < walk then t.fail stINVALID
    else if walk = t.drvWalk then act t
    else if t.role = .chapter then t.forward walk d
    else t.fail stWALKDOWN)

/-- WALK_POWER (R180). Where ARGS holds its fields the spec does not give: they are operands (Log 20). -/
def execWalkPower (d : Desc) (walk : Nat) (en : Bool) (ilim : Nat) (retry babcut : Bool) (s : State) :
    Host.Outcome State Fault Refusal :=
  .next (
    if s.role = .chapter && s.driverRing d && (ilim < 4 || 32 < ilim) then s.runDesc d true (fun t => t.fail stINVALID)
    else s.runDriver d walk (fun t => t.walkPower d en ilim retry babcut))

/-- WALK_QUERY (R180). -/
def execWalkQuery (d : Desc) (walk : Nat) (s : State) : Host.Outcome State Fault Refusal :=
  .next (s.runDriver d walk (fun t => t.query [rWDCTL, rWDSTAT, rWDFLAG, rWDMON, rWDCNT]))

/-- LINE_QUERY (R180). -/
def execLineQuery (d : Desc) (s : State) : Host.Outcome State Fault Refusal :=
  .next (s.runDesc d s.onWalk (fun t =>
    ⟨t, stOK, (t.reg rLASTAT).toNat,
      ([rLASTAT, rLAFLAG, rLACNT].map (fun a => leBytes 4 (t.reg a).toNat)).flatten ++ leBytes 4 (t.fld fPWRMON_VBRV), false⟩))

/-- The figures of a walk's book as BOOKS_QUERY returns them: B, GRANTED, QUAR, FREE, DEFICIT, TAGSTAT and BOOKFLAG, each in four
bytes; RESULT holds B (Log 20). -/
def State.walkFigures (s : State) (b g q : Int) : Nat × List Byte :=
  let w := fun (i : Int) => leBytes 4 (wrapInt 32 i)
  (wrapInt 32 b,
    w b ++ w g ++ w q ++ w (max 0 (b - g - q)) ++ w (max 0 (g + q - b)) ++ leBytes 4 (s.reg rTAGSTAT).toNat
      ++ leBytes 4 (s.reg rBOOKFLAG).toNat)

/-- The figures of a ring's book: G, C, O as a signed 16-bit value, TAGSTAT and BOOKFLAG; RESULT holds G (Log 20). -/
def State.ringFigures (s : State) (k : Nat) : Nat × List Byte :=
  let c := s.credit k
  (c.g,
    leBytes 4 c.g ++ leBytes 4 c.c ++ leBytes 4 (wrapInt 16 c.o) ++ leBytes 4 (s.reg rTAGSTAT).toNat
      ++ leBytes 4 (s.reg rBOOKFLAG).toNat)

/-- The BOOKS_FIG record of a Crossing (R572). -/
def State.booksFig (s : State) : State :=
  let q := (s.drv.quar.map (·.1)).sum
  { s with node := { s.node with reports := s.node.reports ++
    [s.mkRecord 0x00F0 s.srcField (leBytes 2 (wrapInt 16 s.budget) ++ leBytes 2 s.drv.granted ++ leBytes 2 q)] } }

/-- BOOKS_QUERY (R158): of a walk, or of a ring of a Cell. For a walk that a Crossing drives the Chapter forwards it, and the
Crossing's BOOKS_FIG completes it (R572). -/
def execBooksQuery (d : Desc) (q : BookTarget) (s : State) : Host.Outcome State Fault Refusal :=
  .next (
    if s.role = .crossing then s.runDesc d (s.driverRing d) (fun t => t.booksFig.ok)
    else s.runLocal d (fun t =>
      match q with
      | .ring addr kind =>
        if 4095 < addr || 3 < kind then t.fail stINVALID
        else
          let f := t.ringFigures (lineKey false addr kind)
          ⟨t, stOK, f.1, f.2, false⟩
      | .walk n =>
        if 15 < n then t.fail stINVALID
        else if n = 0 then
          let f := t.walkFigures t.budget t.drv.granted (t.drv.quar.map (·.1)).sum
          ⟨t, stOK, f.1, f.2, false⟩
        else t.forward n d))

/-! ### The walk attachment (R173, R177) -/

/-- The number of a superframe (R186). -/
def State.superframe (s : State) : Nat := s.now / 32768

/-- JABBER_CUT (R177): the attachment cuts the modulator, and a third cut within 16 superframes locks the transmitter off. -/
def execJabberCut (stuck : Bool) (s : State) : Host.Outcome State Fault Refusal :=
  .next (
    if !s.onWalk then s
    else
      let now := s.superframe
      let cuts := now :: s.node.cuts.filter (fun c => decide (now < c + 16))
      let t := (s.raise [if stuck then fLAFLAG_STUCK else fLAFLAG_JABBER]).count fLACNT_JABCNT
      let t := { t with node := { t.node with cuts := cuts, modCut := true } }
      if 3 ≤ cuts.length then t.setFld fLASTAT_TXLOCKOUT 1 else t)

/-- POLCHG (R173): the polarity changes after the line qualified, and the line is lost and qualifies again. -/
def execPolchg (s : State) : Host.Outcome State Fault Refusal :=
  .next (
    if s.onWalk && s.on fPWRSRC_LINEOK then
      ((s.setFld fLASTAT_POL (1 - s.fld fLASTAT_POL)).raise [fLAFLAG_POLCHG]).lineDown
    else s)

/-! ### The Lectern jack (R169, R179) -/

/-- Whether the part has a Lectern jack (Table 1.1). -/
def State.hasJack (s : State) : Bool := s.role = .cell || s.role = .loop

/-- A Lectern session ends: descriptors of the jack are dropped, and in Loop role the session's address (R202). -/
def State.sessionEnd (s : State) : State :=
  let t := { s with node := { s.node with
    session := false, sessAddr := none, sessRx := [0, 0, 0, 0]
    inbox := s.node.inbox.filter (fun d => d.path != .lectern) } }
  if s.role = .loop then t.sets [(fLINEADDR_CELLADDR, 0), (fLINEADDR_VALID, 0)] else t

/-- LECTERN_DETECT (R169, R79, R81): in OFF it leaves OFF; in any state it sets PLUG and fires the LECTERN wake. -/
def execLecternDetect (s : State) : Host.Outcome State Fault Refusal :=
  .next (
    if s.hasJack && !s.on fLJSTAT_PRESENT then
      ((s.wakeOff).sets [(fLJSTAT_PRESENT, 1), (fLJSTAT_PLUG, 1)]).wake 5
    else s)

/-- LECTERN_REMOVE (R169, R137): ends a session, and a recovery by a software reset. -/
def execLecternRemove (s : State) : Host.Outcome State Fault Refusal :=
  .next (
    if s.hasJack && s.on fLJSTAT_PRESENT then
      let t := (s.sets [(fLJSTAT_PRESENT, 0), (fLJSTAT_UNPLUG, 1)]).sessionEnd
      if s.on fBOOTSTAT_RECOV then t.resetAct 6 else t
    else s)

/-- LJB_OVERVOLTAGE (R179): the jack is cut off, and a session ends. -/
def execLjbOvervoltage (s : State) : Host.Outcome State Fault Refusal :=
  .next (if s.hasJack then (s.sets [(fLJSTAT_OV, 1), (fLJSTAT_OVF, 1)]).sessionEnd else s)

/-- LJB_OV_CLEAR (R179). -/
def execLjbOvClear (s : State) : Host.Outcome State Fault Refusal :=
  .next (s.setFld fLJSTAT_OV 0)

end Sys2Proof.Machine
end

