-- ==== Sys2Proof/Machine/Line.lean ====
section
/-! DEFINITION. The driver's side of the line (chapter 9): frame checks, enrolment, roll call, absences, the superframe, the sweep
and the frames that come up. -/

namespace Sys2Proof.Machine

open Sys2Proof

/-! ### Frame checks (R183 to R185) -/

/-- Whether LEN is one Table 9.2 gives for a TYPE. -/
def lenOk (type n : Nat) : Bool :=
  match type with
  | 0x0 => n = 16
  | 0x1 => decide (n ≤ 64) && n % 2 = 0
  | 0x2 => n = 64
  | 0x3 | 0xA | 0xD => n = 0
  | 0x4 | 0x5 | 0x9 => n = 16
  | 0x6 => decide (1 ≤ n) && decide (n ≤ 64)
  | 0x7 => n = 9
  | 0x8 => n = 11
  | 0xB => n = 2
  | 0xC => decide (16 ≤ n) && decide (n ≤ 64) && n % 16 = 0
  | _ => false

/-- The types that go down, and the types that go up. -/
def typeDown (type : Nat) : Bool := [0, 1, 2, 3, 7, 8, 0xA, 0xB, 0xD].contains type
def typeUp (type : Nat) : Bool := [3, 4, 5, 6, 9, 0xC].contains type

/-- The header bits that Table 9.1 shows as 0, for a frame a Crossing sends with RA = 1 (RELCRED) and for any other. -/
def zeroOk (up : Bool) (f : Frame) : Bool :=
  !bitAt f.hdr 7 && bitsOf f.hdr 22 2 = 0 &&
    (if up && frRA f then bitsOf f.hdr 57 7 = 0 else bitsOf f.hdr 54 2 = 0 && bitsOf f.hdr 62 2 = 0) &&
    (if frRA f then frAddr f = 0xFFF || decide (frAddr f < 16) else true)

/-- Whether a frame passes the checks of R184 in its direction. RECOVER passes on the jack only. -/
def frameOk (up jack : Bool) (f : Frame) : Bool :=
  (if up then typeUp (frType f) else typeDown (frType f)) && (frType f != 0xD || jack) &&
    frLen f = f.payload.length && lenOk (frType f) (frLen f) && zeroOk up f

/-- A discarded frame is counted (R184). -/
def State.badFrame (s : State) : State := s.count fLPCNT_CRCERR

/-! ### Frames the driver builds -/

/-- A broadcast frame. -/
def bcast (type wake : Nat) (payload : List Byte) : Frame := ⟨mkHdr type 1 wake 0 0xFFF 0 payload.length 0 0 0 0, payload⟩

/-- ASSIGN (Table 9.6): the unique ID, ACT, position or walk, and ROLE. -/
def assignFrame (uid act pos role : Nat) : Frame := bcast 8 0 (leBytes 8 uid ++ leBytes 1 act ++ leBytes 1 pos ++ leBytes 1 role)

/-- The address of a position of the driven walk. -/
def State.addrOf (s : State) (pos : Nat) : Nat := 256 * s.drvWalk + pos

/-- The beacon of this superframe (Table 9.5). -/
def State.beaconFrame (s : State) (ltime : Nat) (step : Bool) : Frame :=
  let sync := if s.role = .chapter then s.on fCLKSTAT_XTALOK else s.on fLPSTAT_SYNC
  let hold := s.on fCLKSTAT_HOLDOVER || !s.on fCLKSTAT_PLLLOCK
  let r := s.drv.rateChg
  let sys := s.drv.system.getD (if s.role = .chapter then s.uid % 2 ^ 32 else s.fld fLPSYSID_SYSTEM)
  bcast 0 (b2n s.drv.muster)
    (leBytes 6 ltime ++ leBytes 1 (s.drvWalk + 16 * s.drvRate + 64 * b2n s.drv.muster) ++ leBytes 1 (swofs s.drvSwofs)
      ++ leBytes 4 sys ++ leBytes 1 (b2n (sync && !hold) + 2 * b2n hold + 4 * b2n step + 8 * b2n r.isSome)
      ++ leBytes 1 ((r.map (·.1)).getD 0) ++ leBytes 1 ((r.map (·.2)).getD 0) ++ [0])

/-! ### Absences (R152, R205 to R207) -/

/-- The Cells of a walk that the Chapter keeps books for. -/
def State.knownCells (s : State) (walk : Nat) : List Nat :=
  ((s.scr.credits.filter (fun c => c.ring < 16384 && cellWalk (c.ring / 4) = walk)).map (fun c => c.ring / 4)).dedup

/-- A Cell of the driven walk is declared absent (R205, R206): its tokens go to quarantine, CELL_ABSENT is posted or sent, and the
Chapter settles its books. -/
def State.cellAbsent (s : State) (pos reason : Nat) : State :=
  match s.enr? pos with
  | none => s
  | some e =>
    if e.absent then s
    else
      let t := s.setEnr { e with absent := true, descs := 0, asked := false, silent := 0, badSlots := 0, ranges := 0, more := false }
      let t := (t.quarantine pos).raise [fLPFLAG_ABSENT]
      let t := t.driverEvent 0x0020 (some (s.addrOf pos)) (leBytes 1 reason)
      (if t.role = .chapter then t.settleAbsent false (s.addrOf pos) else t).bookSync

/-- A Cell of another walk is absent for the Chapter (R152, R572). -/
def State.farAbsent (s : State) (addr : Nat) : State :=
  let t := s.setDrv (fun d => { d with gone := addr :: d.gone.filter (· != addr) })
  t.settleAbsent false addr

/-- A SET_WALK that waits completes. -/
def State.walkDone (s : State) (status : Nat) : State :=
  match s.drv.pendWalk with
  | some p => (s.setDrv (fun x => { x with pendWalk := none })).complete p.d status 0 []
  | none => s

/-- A Crossing is declared absent (R207): CROSSING_ABSENT, and every Cell of its walk with reason CROSSING. -/
def State.crossingAbsent (s : State) (n : Nat) : State :=
  match s.xing? n with
  | none => s
  | some x =>
    if x.absent then s
    else
      let t := s.onXing n (fun c => { c with absent := true, silent := 0, badSlots := 0, more := false, ranges := 0 })
      let t := (t.raise [fLPFLAG_ABSENT]).driverEvent 0x0025 (some (2 ^ 12 + n)) (leBytes 1 n)
      let t := t.settleAbsent true n
      let t := (t.knownCells n).foldl (fun u a =>
        if u.drv.gone.contains a then u
        else (u.driverEvent 0x0020 (some a) (leBytes 1 3)).farAbsent a) t
      match t.drv.pendWalk with
      | some p => if p.uid = x.uid then t.walkDone stABSENT else t
      | none => t

/-! ### Roll call (R192, R193, R200) -/

/-- Send the next probe, when the downlink period has room and no window is open. -/
def State.probeNext (s : State) : State :=
  match s.drv.roll with
  | none => s
  | some r =>
    match r.probing, r.stack with
    | none, (p, d) :: rest =>
      if s.drv.dnOpen && s.drives && !s.on fCLKSTAT_FORCED && decide (probeBits s.drvRate ≤ s.drv.dnRoom) then
        let t := s.setDrv (fun x => { x with
          roll := some { r with stack := rest, probing := some (p, d) }
          dnRoom := x.dnRoom - probeBits s.drvRate
          probes := x.probes + 1 })
        t.emit (.frame .driven (bcast 7 1 (leBytes 8 p ++ leBytes 1 d)))
      else s
    | _, _ => s

/-- Roll call starts (R192). -/
def State.rollStart (s : State) : State :=
  ((s.setDrv (fun d => { d with roll := some ⟨[(0, 0)], none, 0⟩ })).setFld fLPSTAT_ROLLING 1).probeNext

/-- At the end of a pass: with index 271 quiet in the last sweep roll call ends and ROLL_DONE is posted; else another pass follows. -/
def State.rollEnd (s : State) : State :=
  match s.drv.roll with
  | none => s
  | some r =>
    if r.probing.isSome || !r.stack.isEmpty then s
    else if s.drv.quietLast then (s.rollStop).driverEvent 0x0027 none (s.walkData r.found)
    else (s.setDrv (fun d => { d with roll := some { r with stack := [(0, 0)] } })).probeNext

/-- The lowest position that the table and the bindings leave free. -/
def State.freePos (s : State) : Nat :=
  ((List.range 256).find? (fun p => !s.drv.enr.any (fun e => e.pos = p) && !s.drv.binds.any (fun b => b.2 = p))).getD 0

/-- The position a unique ID is bound to, or holds in the table. -/
def State.boundPos (s : State) (uid : Nat) : Option Nat :=
  match s.drv.binds.find? (fun b => b.1 = uid) with
  | some b => some b.2
  | none => (s.drv.enr.find? (fun e => e.uid = uid)).map (·.pos)

/-- assign(q) (R193): a Crossing found on walk 0 gets no position and is reported; a Cell gets its bound position, or the lowest free. -/
def State.assign (s : State) (uid : Nat) (crossing : Bool) : State :=
  if crossing then
    let t := s.setDrv (fun d => { d with found := if d.found.contains uid then d.found else uid :: d.found })
    let t := t.down (assignFrame uid 0 0 0)
    if s.drv.found.contains uid then t else t.driverEvent 0x0024 none (leBytes 6 uid)
  else
    let pos := (s.boundPos uid).getD s.freePos
    let t := s.setDrv (fun d => { d with
      binds := (uid, pos) :: d.binds.filter (fun b => b.1 != uid)
      roll := d.roll.map (fun (r : Roll) => { r with found := r.found + 1 }) })
    t.down (assignFrame uid 0 pos 0)

/-- The prefix with nibble 15 − d set to v. -/
def nibble (p d v : Nat) : Nat := p + v * 16 ^ (15 - d)

/-- PROBE_WINDOW_END (R192): the answers of the open window. `xing` says which of those at depth 15 are Crossings: how the driver
tells them apart the spec does not say (Log 26). -/
def execProbeWindowEnd (answers xing : BitVec 16) (s : State) : Host.Outcome State Fault Refusal :=
  .next (
    match s.drv.roll with
    | none => s
    | some r =>
      match r.probing with
      | none => s
      | some (p, d) =>
        let t := s.setDrv (fun x => { x with roll := some { r with probing := none } })
        let vs := (List.range 16).reverse.filter (fun v => answers.getLsbD v)
        let t := if d = 15 then
            vs.foldl (fun u v => u.assign (nibble p d v) (xing.getLsbD v && u.role = .chapter)) t
          else
            t.setDrv (fun x => { x with roll := x.roll.map (fun (q : Roll) =>
              { q with stack := (vs.map (fun v => (nibble p d v, d + 1))).reverse ++ q.stack }) })
        (t.probeNext).rollEnd)

/-- ROLL_CALL (R192, R200, R213). The walk is an operand (Log 20). -/
def execRollCall (d : Desc) (walk : Nat) (s : State) : Host.Outcome State Fault Refusal :=
  .next (s.runDriver d walk (fun t =>
    if !t.drives then t.fail stWALKDOWN
    else if t.on fLPSTAT_ROLLING then t.fail stROLLBUSY
    else t.rollStart.ok))

/-! ### Bindings, release, set-up, ranging and time (R193, R195, R197, R199, R213) -/

/-- ADDR_ASSIGN (R193): bind a unique ID to a position. -/
def State.addrAssign (s : State) (uid addr : Nat) : DescRes :=
  let pos := addr % 256
  if s.drv.binds.any (fun b => b.2 = pos && b.1 != uid) || s.drv.enr.any (fun e => e.pos = pos && e.uid != uid) then
    s.fail stADDRINUSE
  else (s.setDrv (fun d => { d with binds := (uid, pos) :: d.binds.filter (fun b => b.1 != uid) })).ok

/-- ADDR_ASSIGN: the unique ID and the address are operands (Log 20); a walk from 1 to 15 is forwarded. -/
def execAddrAssign (d : Desc) (uid addr : Nat) (s : State) : Host.Outcome State Fault Refusal :=
  .next (s.runDriver d (addr / 256) (fun t => t.addrAssign (uid % 2 ^ 64) addr))

/-- ADDR_RELEASE (R213): CLEAR to the Cell, and the entry is removed; its tokens pass through quarantine (Log 27). -/
def State.addrRelease (s : State) (addr : Nat) : DescRes :=
  match s.enr? (addr % 256) with
  | none => s.fail stNOTENROLLED
  | some e =>
    let t := (s.quarantine e.pos).down (assignFrame e.uid 2 e.pos 0)
    let t := t.setDrv (fun d => { d with
      enr := d.enr.filter (fun x => x.pos != e.pos)
      binds := d.binds.filter (fun b => b.2 != e.pos) })
    t.bookSync.ok

/-- ADDR_RELEASE: the address is an operand (Log 20). -/
def execAddrRelease (d : Desc) (addr : Nat) (s : State) : Host.Outcome State Fault Refusal :=
  .next (s.runDriver d (addr / 256) (fun t => t.addrRelease addr))

/-- LINE_SETUP (R199, R213): rate, SWOFS and SYSTEM of a walk, which are operands (Log 20). -/
def execLineSetup (d : Desc) (walk rate sw system : Nat) (s : State) : Host.Outcome State Fault Refusal :=
  .next (s.runDriver d walk (fun t =>
    if 3 < rate || sw < 4 || 24 < sw then t.fail stINVALID
    else if !t.drives then t.fail stWALKDOWN
    else
      let u := (t.setFld fLPCTL_SWOFS sw).setDrv (fun x => { x with system := some (system % 2 ^ 32) })
      (if rate = t.drvRate then u
        else u.setDrv (fun x => { x with rateChg := some (rate, 4), rateWatch := none })).ok))

/-- LINE_RANGE (R195, R213): the address is an operand (Log 20). -/
def execLineRange (d : Desc) (addr : Nat) (s : State) : Host.Outcome State Fault Refusal :=
  .next (s.runDriver d (addr / 256) (fun t =>
    match t.enr? (addr % 256) with
    | none => t.fail stNOTENROLLED
    | some e => if e.absent then t.fail stABSENT else (t.setEnr { e with ranges := 8, rsum := 0 }).ok))

/-- TIME_SET (R197, R107, R213): at the Chapter a step at a future superframe start; over a Lectern session with TRACK = 0 the RTC
takes T_new. Both times are operands (Log 20). -/
def execTimeSet (d : Desc) (told tnew : Nat) (s : State) : Host.Outcome State Fault Refusal :=
  .next (
    let grid := told % 32768 = 0 && tnew % 32768 = 0
    if s.role = .chapter then
      s.runLocal d (fun t =>
        if !grid || reached told t.now then t.fail stINVALID
        else (t.setDrv (fun x => { x with timeStep := some (told % 2 ^ 48, tnew % 2 ^ 48) })).ok)
    else s.runDesc d (d.path = .lectern) (fun t =>
      if !grid then t.fail stINVALID
      else if t.on fLPSTAT_TRACK then t.fail stBUSY
      else (t.sets [(fRTCSETL_TIME, tnew % 2 ^ 32), (fRTCSETH_TIME, tnew / 2 ^ 32 % 2 ^ 16), (fRTCSTAT_SETPEND, 1)]).ok))

/-- TIME_QUERY (R213). -/
def execTimeQuery (d : Desc) (s : State) : Host.Outcome State Fault Refusal :=
  .next (s.runDesc d true (fun t =>
    ⟨t, stOK, t.now % 2 ^ 32,
      leBytes 8 t.now ++ ([rLPSTAT, rLPPROP, rLPTERR].map (fun a => leBytes 4 (t.reg a).toNat)).flatten, false⟩))

/-! ### SET_WALK (R21, R24) -/

/-- Whether a Crossing has been found: by a CROSSING_FOUND, or with a role address in the table. -/
def State.foundXing (s : State) (uid : Nat) : Bool := s.drv.found.contains uid || s.drv.xings.any (fun x => x.uid = uid)

/-- SET_WALK (R21): the unique ID and the walk are operands (Log 20). The ASSIGN goes down in every superframe until it is
confirmed. -/
def execSetWalk (d : Desc) (uid n : Nat) (s : State) : Host.Outcome State Fault Refusal :=
  .next (s.runLocal d (fun t =>
    let uid := uid % 2 ^ 64
    if 15 < n then t.fail stINVALID
    else if !t.foundXing uid then t.fail stNOTENROLLED
    else if n != 0 && t.drv.xings.any (fun x => x.n = n && x.uid != uid) then t.fail stWALKINUSE
    else if t.drv.xings.any (fun x => x.uid = uid && x.absent) then t.fail stABSENT
    else
      let u := t.setDrv (fun x => { x with pendWalk := some ⟨uid, n, d, 0⟩ })
      ⟨u.down (assignFrame uid 0 n 1), stOK, 0, [], true⟩))

/-- SET_WALK_TIMEOUT (R21): 8 superframes have passed since the first ASSIGN. -/
def execSetWalkTimeout (s : State) : Host.Outcome State Fault Refusal :=
  .next (
    match s.drv.pendWalk with
    | some p => if 8 ≤ p.age then s.walkDone stABSENT else s
    | none => s)

/-! ### The superframe at the driver (R186, R194) -/

/-- The stray check (R176): the standing current against 0.75 mA × U + 0.5 mA × GRANTED, by more than 8 mA. -/
def State.strayCheck (s : State) : State :=
  let excess := decide (3 * s.enrolled + 2 * s.drv.granted + 32 < 2 * s.fld fWDMON_IWALK)
  if excess then
    let n := min 3 (s.drv.stray + 1)
    let t := s.setDrv (fun d => { d with stray := n, strayOk := 0 })
    if n = 3 && !s.drv.noGrant then
      ((t.raise [fWDFLAG_STRAY]).setDrv (fun d => { d with noGrant := true })).walkEvent 0x0012
    else t
  else
    let n := min 3 (s.drv.strayOk + 1)
    let t := s.setDrv (fun d => { d with stray := 0, strayOk := n })
    if n = 3 && s.drv.noGrant then (t.setDrv (fun d => { d with noGrant := false })).serve else t

/-- The babble count (R178): after 8 consecutive superframes BABBLE and WALK_BABBLE, and with BABCUT a cut for 1 s. -/
def State.babbleCheck (s : State) (seen : Bool) : State :=
  if !seen then s.setDrv (fun d => { d with babble := 0 })
  else
    let n := s.drv.babble + 1
    let t := (s.count fWDCNT_BABBLE).setDrv (fun d => { d with babble := n })
    if n = 8 then
      let u := (t.raise [fWDFLAG_BABBLE]).walkEvent 0x0013
      if s.on fWDCTL_BABCUT then (u.driveOff).setDrv (fun d => { d with retryDue := true }) else u
    else t

/-- The rate change counts down (R199), and the watch of the first 8 superframes at a new rate (R209). -/
def State.rateTurn (s : State) : State :=
  let t := match s.drv.rateChg with
    | some (r, 0) =>
      let back := s.drv.rateWatch = some (0, 0, 0)
      let u := s.sets [(fWDCTL_RATE, r), (fWDSTAT_RATENOW, r)]
      let u := u.setDrv (fun d => { d with
        rateChg := none, prevRate := s.drvRate, rateWatch := if back then none else some (8, 0, 0) })
      if back then u else u.driverEvent 0x0028 none (leBytes 1 s.drvWalk ++ leBytes 1 r)
    | _ => s
  match t.drv.rateWatch with
  | some (n, g, f) =>
    if s.drv.rateChg.isSome then t
    else if n = 1 then
      if g < 2 * f then
        let u := (t.raise [fLPFLAG_RATEREV]).setDrv (fun d => { d with rateChg := some (d.prevRate, 1), rateWatch := some (0, 0, 0) })
        u.driverEvent 0x0029 none (leBytes 1 t.drvWalk ++ leBytes 1 t.drv.prevRate)
      else t.setDrv (fun d => { d with rateWatch := none })
    else t.setDrv (fun d => { d with rateWatch := some (n - 1, g, f) })
  | none => t

/-- The tokens returned in the superframe that ended become FREE, and quarantine goes on (R148). -/
def State.tokenTurn (s : State) : State :=
  (s.setDrv (fun d => { d with
    granted := d.granted - d.freed, freed := 0
    quar := d.quar.map (fun (p : Nat × Nat × Nat) => (p.1, p.2.1 - 1, p.2.2)) })).bookSync

/-- SYNC_LOST when HOLD begins (R208). -/
def State.holdTurn (s : State) : State :=
  let hold := s.on fCLKSTAT_HOLDOVER || !s.on fCLKSTAT_PLLLOCK
  let t := s.setDrv (fun d => { d with syncOut := hold })
  if hold && !s.drv.syncOut then t.driverEvent 0x002A none (leBytes 1 s.drvWalk) else t

/-- The RANGE frames of this superframe: one to each sender still being ranged (R195). -/
def State.rangeFrames (s : State) : State :=
  let t := (s.drv.enr.filter (fun e => e.ranges != 0 && !e.absent)).foldl (fun u e =>
    (u.setEnr { e with asked := true }).dnPut ⟨mkHdr 0xA 0 0 0 (u.addrOf e.pos) 0 0 0 0 0 0, []⟩) s
  (t.drv.xings.filter (fun x => x.ranges != 0 && !x.absent)).foldl (fun u x =>
    u.dnPut ⟨mkHdr 0xA 1 0 0 x.n 0 0 0 0 0 0, []⟩) t

/-- What this superframe owes by itself: the ACKF with TOK = 0 to a Cell in quarantine (R206), and the ASSIGN of a SET_WALK. -/
def State.owedFrames (s : State) : State :=
  let t := (s.drv.quar.filter (fun p => p.2.1 = 1 || p.2.1 = 2)).foldl (fun u p =>
    u.dnPut (ackFrame (4 * u.addrOf p.2.2) 0 0x20)) s
  match t.drv.pendWalk with
  | some p => (t.setDrv (fun d => { d with pendWalk := some { p with age := p.age + 1 } })).dnPut (assignFrame p.uid 0 p.n 1)
  | none => t

/-- The driver's superframe begins (R186): the books and checks of the beacon, the beacon, and the downlink period. -/
def State.driverStart (s : State) (m : WalkMon) : State :=
  let t := s.sets [(fWDMON_IWALK, m.iwalk.toNat), (fWDMON_VWALK, m.vwalk.toNat)]
  let t := (t.tokenTurn).babbleCheck m.babble
  if !t.drives then t
  else
    let t := ((t.rateTurn).strayCheck).audit
    let t := t.holdTurn
    let n := t.drv.beacons + 1
    let base := t.now / 32768 * 32768
    let step := match t.drv.timeStep with
      | some (told, tnew) => if told = base then some tnew else none
      | none => none
    let t := t.setDrv (fun d => { d with
      beacons := n, muster := t.on fLPCTL_MUSTER && n % 64 = 0
      dnOpen := true, dnRoom := downBits t.drvRate t.drvSwofs, probes := 0, slotsFor := []
      dn := d.dn.map (fun (x : Dn) => { x with age := x.age.map (· + 1) }) })
    let t := if t.on fCLKSTAT_FORCED then t else t.emit (.frame .driven (t.beaconFrame (step.getD base) step.isSome))
    let t := t.setDrv (fun d => { d with rateChg := d.rateChg.map (fun p => (p.1, p.2 - 1)) })
    let t : State := match step with
      | some tnew =>
        let u : State := t.setDrv (fun d => { d with timeStep := none })
        if u.role = .chapter then (u.setFld fRTCSTAT_VALID 1).setLine (tnew + t.now % 32768) else u
      | none => t
    let t := ((t.owedFrames).rangeFrames).dnFlush
    (t.streamAge).probeNext

/-! ### The sweep at the driver (R187, R188, R205, R210) -/

/-- Whether a Cell owes the line an answer, as far as the driver knows (R187). At a Crossing an uplink frame is unanswered while
the last SEQ relayed up and the last ACK relayed down differ. -/
def State.cellOwes (s : State) (e : Enr) : Bool :=
  let keys := (List.range 3).map (fun r => lineKey false (s.addrOf e.pos) r)
  e.held != 0 || e.descs != 0 || e.asked ||
    (if s.role = .chapter then keys.any (fun k => s.drv.ackDue.contains k)
     else keys.any (fun k => mapAt s.drv.seqRx (65536 + k) != mapAt s.drv.seqRx k))

/-- What the sweep tells of one Cell: present again (R206), silent while it owes (R205), silent at a muster (R210). -/
def State.sweepCell (s : State) (pulsed : Bool) (e : Enr) : State :=
  if e.absent then (if pulsed then s.dnPut (assignFrame e.uid 1 e.pos 0) else s)
  else
    let silent := if pulsed || !s.cellOwes e then 0 else e.silent + 1
    let missed := if pulsed then 0 else if s.drv.muster then min 4 (e.missed + 1) else e.missed
    let t := s.setEnr { e with silent := silent, missed := missed }
    let t := if missed = 3 && e.missed = 2 then t.driverEvent 0x0023 (some (s.addrOf e.pos)) [] else t
    if 3 ≤ silent then t.cellAbsent e.pos 0 else t

/-- What the sweep tells of one Crossing (R207). -/
def State.sweepXing (s : State) (pulsed : Bool) (x : Xing) : State :=
  if x.absent then (if pulsed then s.dnPut (assignFrame x.uid 1 x.n 1) else s)
  else
    let silent := if pulsed then 0 else x.silent + 1
    let t := s.onXing x.n (fun c => { c with silent := silent })
    if 3 ≤ silent then t.crossingAbsent x.n else t

/-- Indices in round-robin order: those above the last one served come first. -/
def rrOrder (last : Nat) (l : List Nat) : List Nat := l.filter (fun i => decide (last < i)) ++ l.filter (fun i => decide (i ≤ last))

/-- Lay out slots for a list of (index, slots), as far as slots and the 32 entries allow; a single slot is not split. -/
def layOut : List (Nat × Nat) → Nat → Nat → List (Nat × Nat)
  | [], _, _ => []
  | (i, n) :: rest, slots, entries =>
    if entries = 0 || slots = 0 then [] else (i, min n slots) :: layOut rest (slots - min n slots) (entries - 1)

/-- The grant entries of this superframe (R188). At a Crossing the relay queue's room bounds the slots. -/
def State.grantList (s : State) (attn : List Nat) : List (Nat × Nat) :=
  let room := if s.role = .crossing then 256 - s.node.relayUp.length else 1000
  let slots := min room (upSlots s.drvRate s.drvSwofs)
  let xs := (s.drv.xings.filter (fun x => !x.absent && attn.contains (255 + x.n))).map (fun x => (255 + x.n, if x.more then 8 else 1))
  let gone := fun (i : Nat) => s.drv.enr.any (fun e => e.pos = i && e.absent)
  let cells := rrOrder s.drv.rr1 ((List.range 256).filter (fun i => attn.contains i && !gone i))
  let more := rrOrder s.drv.rr3 ((List.range 256).filter (fun i => s.drv.enr.any (fun e => e.pos = i && e.more && !e.absent)))
  let pass := more.map (fun i => (i, 1))
  layOut (xs ++ cells.map (fun i => (i, 1)) ++ ((List.range 32).map (fun _ => pass)).flatten) slots 32

/-- The sweep's end at the driver: absences, newcomers, and the GRANT frame. `pulses` are the indices that pulsed, with whether
ATTN. -/
def State.driverSweep (s : State) (pulses : List (Nat × Bool)) : State :=
  let t := s.setDrv (fun d => { d with dnOpen := false })
  let on := fun (i : Nat) => pulses.any (fun p => p.1 = i)
  let t : State := t.drv.enr.foldl (fun (u : State) e => u.sweepCell (on e.pos) e) t
  let t := if s.role = .chapter then t.drv.xings.foldl (fun (u : State) x => u.sweepXing (on (255 + x.n)) x) t else t
  let new := on 271
  let t := (if new then t.raise [fLPFLAG_NEWCOMER] else t).setDrv (fun d => { d with quietLast := !new, muster := false })
  let t := if new && t.on fLPCTL_AUTOROLL && !t.on fLPSTAT_ROLLING then t.rollStart else t.rollEnd
  let g := t.grantList ((pulses.filter (·.2)).map (·.1))
  let cells := (g.filter (fun p => decide (p.1 < 256))).map (·.1)
  let t := t.setDrv (fun d => { d with
    slotsFor := g, rr1 := cells.getLast?.getD d.rr1, rr3 := cells.getLast?.getD d.rr3 })
  if t.on fCLKSTAT_FORCED then t
  else t.emit (.frame .driven (bcast 1 0 ((g.map (fun p => leBytes 2 (p.1 + 512 * (p.2 - 1)))).flatten)))

/-- A slot granted to an index has passed (R188, R205): 8 consecutive ones without a valid frame make the sender absent. -/
def State.driverSlot (s : State) (i : Nat) (valid : Bool) : State :=
  match s.drv.slotsFor.find? (fun p => p.1 = i && p.2 != 0) with
  | none => s
  | some p =>
    let t := s.setDrv (fun d => { d with
      slotsFor := (d.slotsFor.erase p) ++ (if p.2 = 1 then [] else [(i, p.2 - 1)])
      rateWatch := d.rateWatch.map (fun w => if w.1 = 0 then w else (w.1, w.2.1 + 1, w.2.2 + b2n (!valid))) })
    if i < 256 then
      match t.enr? i with
      | none => t
      | some e =>
        let bad := if valid then 0 else e.badSlots + 1
        let u := t.setEnr { e with badSlots := bad }
        if 8 ≤ bad then u.cellAbsent i 1 else u
    else
      match t.xing? (i - 255) with
      | none => t
      | some x =>
        let bad := if valid then 0 else x.badSlots + 1
        let u := t.onXing x.n (fun c => { c with badSlots := bad })
        if 8 ≤ bad then u.crossingAbsent x.n else u

/-- FRAME_DISCARDED at the driver (R184, R201): two in a row at an index where a JOIN is expected clear that position. -/
def State.driverBad (s : State) (i : Nat) : State :=
  if s.drv.binds.any (fun b => b.2 = i) && !s.drv.enr.any (fun e => e.pos = i) then
    let n := mapAt s.drv.conflicts i + 1
    if 2 ≤ n then
      ((s.setDrv (fun d => { d with conflicts := d.conflicts.filter (fun p => p.1 != i) })).raise [fLPFLAG_CONFLICT]).dnPut
        (assignFrame (2 ^ 64 - 1) 2 i 0)
    else s.setDrv (fun d => { d with conflicts := mapPut d.conflicts i n })
  else s

/-! ### Frames that come up (R189 to R191, R193) -/

/-- What the header of any uplink frame tells the driver: MORE, tokens (R191), at the Chapter the ACK and the window (R190). -/
def State.upHeader (s : State) (f : Frame) : State :=
  let mine := !frRA f && cellWalk (frAddr f) = s.drvWalk
  let pos := frAddr f % 256
  let t := if mine then s.onEnr pos (fun e => { e with more := frMore f, asked := e.ranges != 0 && e.asked })
    else if frRA f then s.onXing (frAddr f) (fun x => { x with more := frMore f, relay := min 256 (x.relay + frRelcred f) })
    else s
  let t := if mine then
      match frTok f with
      | some w => t.tokenAsk pos w
      | none => t
    else t
  if t.role = .chapter then
    let t := t.dnAcked (frKey f) (frAck f)
    let t := if frRA f then t.dnFlush else
      match frWin f with
      | some g => t.takeWindow (frKey f) g
      | none => t
    t
  else t

/-- A Crossing relays an uplink frame unchanged (R198), while its relay queue of 256 has room. -/
def State.relayFrame (s : State) (f : Frame) : State :=
  if s.node.relayUp.length < 256 then { s with node := { s.node with relayUp := s.node.relayUp ++ [f] } } else s

/-- A frame with a SEQ comes up from a sender (R189): what the header tells; then at a Crossing it is relayed, and a completion counts once;
at the Chapter `act` decides whether it is taken, and only then it is acknowledged. -/
def State.upFrame (s : State) (f : Frame) (act : State → Bool × State) : State :=
  let t := s.upHeader f
  let k := frKey f
  let seq := bitsOf f.hdr 32 8
  if t.role != .chapter then
    let fresh := seqCase (mapAt t.drv.seqRx (65536 + k)) seq != .again
    let u := t.setDrv (fun d => { d with seqRx := if fresh then mapPut d.seqRx (65536 + k) seq else d.seqRx })
    let u := if fresh && frType f = 4 then u.onEnr (frAddr f % 256) (fun e => { e with descs := e.descs - 1 }) else u
    u.relayFrame f
  else
    match seqCase (mapAt t.drv.seqRx k) seq with
    | .ahead => t
    | .again => t.oweAck k
    | .accept =>
      let r := act t
      if r.1 then
        let u := r.2.setDrv (fun d => { d with seqRx := mapPut d.seqRx k seq })
        let u := if frType f = 4 && !frRA f && cellWalk (frAddr f) = 0 then
            u.onEnr (frAddr f % 256) (fun e => { e with descs := e.descs - 1 }) else u
        u.oweAck k
      else t

/-- Whether a sender is known and not absent: what an absent one sends is discarded (R152). -/
def State.upKnown (s : State) (f : Frame) : Bool :=
  if frRA f then s.role = .chapter && (s.xing? (frAddr f)).any (fun x => !x.absent)
  else if cellWalk (frAddr f) = s.drvWalk then (s.enr? (frAddr f % 256)).any (fun e => !e.absent)
  else s.role = .chapter && (s.xing? (cellWalk (frAddr f))).any (fun x => !x.absent) && !s.drv.gone.contains (frAddr f)

/-- A valid uplink frame of a type at a driver; anything else is discarded and counted (R184). -/
def State.fromWalk (s : State) (type : Nat) (f : Frame) (act : State → State) : State :=
  if !s.drives then s
  else if !frameOk true false f || frType f != type then s.badFrame
  else act s

/-- COMPL (R236, R237): the completion goes to the host; an OK of RESET discards what was sent after it (R153). -/
def execCompl (f : Frame) (s : State) : Host.Outcome State Fault Refusal :=
  .next (s.fromWalk 4 f (fun t => if t.upKnown f then t.upFrame f (fun u => u.takeCompl (frKey f) f.payload) else t))

/-- EVENT_FRAME (R239): the record goes to the sender's Event ring, or is held unacknowledged. -/
def execEventFrame (f : Frame) (s : State) : Host.Outcome State Fault Refusal :=
  .next (s.fromWalk 5 f (fun t =>
    if t.upKnown f then
      t.upFrame f (fun u =>
        match u.ringRecord (keyRing (frKey f)) f.payload with
        | some v => (true, v)
        | none => (false, u))
    else t))

/-- The SEQ of the oldest descriptor of a Command ring that the target has not completed (R237). -/
def State.oldestSeq (s : State) (k : Nat) : Option Nat :=
  let seqs := (s.scr.held.filter (fun h => h.phase = 2 && ringKey h.ring = k)).map (·.seq)
    ++ (s.scr.lost.filter (fun p => p.1 = k)).map (·.2) ++ (s.credit k).staleSeq
    ++ (s.drv.fwd.filter (fun x => lineKey true x.n 0 = k)).filterMap (·.seq)
  seqs.foldl (fun best q =>
    match best with
    | none => some q
    | some b => if (b + 256 - q) % 256 < 128 then some q else best) none

/-- Result bytes on a Command ring go to the oldest descriptor; those of a stale one are discarded (R237). -/
def State.resultIn (s : State) (k : Nat) (bs : List Byte) : State :=
  match s.oldestSeq k with
  | none => s
  | some q =>
    match s.scr.held.find? (fun h => h.phase = 2 && ringKey h.ring = k && h.seq = q) with
    | some h => (s.resultBytes h.d h.rlen bs).setHeld { h with rlen := h.rlen + bs.length }
    | none =>
      match s.drv.fwd.find? (fun x => lineKey true x.n 0 = k && x.seq = some q) with
      | some x =>
        (s.resultBytes x.d x.rlen bs).setDrv (fun d => { d with fwd := d.fwd.map (fun (y : Fwd) =>
          if y = x then { y with rlen := y.rlen + bs.length } else y) })
      | none => s

/-- STREAM_FRAME (R237, R240). -/
def execStreamFrame (f : Frame) (s : State) : Host.Outcome State Fault Refusal :=
  .next (s.fromWalk 6 f (fun t =>
    if t.upKnown f then
      t.upFrame f (fun u =>
        if frRing f = 2 then u.streamIn (u.scr.held.length + 1) (keyRing (frKey f)) f.payload
        else (true, u.resultIn (frKey f) f.payload))
    else t))

/-- One record of a REPORT frame (R572). -/
def State.takeRecord (s : State) (n : Nat) (rec : List Byte) : State :=
  let code := leNat (rec.take 2)
  let src := leNat ((rec.drop 2).take 2)
  let w := fun (i : Nat) => leNat ((rec.drop (10 + 2 * i)).take 2)
  if code = 0x00F0 then
    let q := s.walkFigures (Sys2Proof.signed 16 (w 0)) (w 1) (w 2)
    s.booksTaken n q.1 q.2
  else if code = 0x0020 then (s.farAbsent (src % 4096)).postRecord rec
  else if code = 0x0021 ∨ code = 0x0022 then
    (s.setDrv (fun d => { d with gone := d.gone.filter (· != src % 4096) })).postRecord rec
  else if code = 0x0014 then
    let t := match s.drv.pendWalk with
      | some p => if p.n = n then s.walkDone stCONTESTED else s
      | none => s
    t.postRecord rec
  else s.postRecord rec

/-- The 16-byte records of a payload. -/
def records : Nat → List Byte → List (List Byte)
  | 0, _ => []
  | n + 1, bs => if bs.isEmpty then [] else bs.take 16 :: records n (bs.drop 16)

/-- Whether a frame comes from the Crossing that a SET_WALK waits for: it may not be known under its walk yet. -/
def State.fromPending (s : State) (f : Frame) : Bool := frRA f && s.drv.pendWalk.any (fun p => p.n = frAddr f)

/-- REPORT (R572): the Chapter takes the records of a Crossing and always acknowledges. -/
def execReport (f : Frame) (s : State) : Host.Outcome State Fault Refusal :=
  .next (s.fromWalk 0xC f (fun t =>
    if t.role = .chapter && frRA f && (t.upKnown f || t.fromPending f) then
      t.upFrame f (fun u => (true, (records 4 f.payload).foldl (fun v r => v.takeRecord (frAddr f) r) u))
    else t))

/-- The window of the Command ring that a JOIN announces (R190): the Chapter sends on no other ring. -/
def State.joinWindows (s : State) (f : Frame) : State := s.takeWindow (lineKey (frRA f) (frAddr f) 0) (payNat f 8 1)

/-- A Cell's JOIN at its driver (R193, R201, R206): a conflict of positions sends CLEAR to the joiner; else it is enrolled,
acknowledged and ranged, and its tokens are answered. -/
def State.joinCell (s : State) (f : Frame) : State :=
  let pos := frAddr f % 256
  let uid := payNat f 0 8
  match s.enr? pos with
  | some e =>
    if e.uid = uid then
      let t := s.setEnr { e with
        absent := false, asked := true, descs := 0, silent := 0, badSlots := 0, missed := 0, more := frMore f, ranges := 8, rsum := 0 }
      let t := ((t.seqRestart false (frAddr f)).dnPut (ackFrame (lineKey false (frAddr f) 0) 0 0)).dnFlush
      let t := t.driverEvent (if e.absent then 0x0022 else 0x0021) (some (frAddr f)) (leBytes 6 uid)
      t.tokenAsk pos (payNat f 12 1)
    else
      let t := (s.raise [fLPFLAG_CONFLICT]).down (assignFrame uid 2 pos 0)
      t.driverEvent 0x0026 (some (frAddr f)) (leBytes 6 uid)
  | none =>
    let e : Enr := ⟨pos, uid, false, true, 0, 0, 0, 0, 0, none, frMore f, 8, 0⟩
    let t := s.setDrv (fun d => { d with
      enr := d.enr.filter (fun x => x.uid != uid) ++ [e]
      binds := d.binds.filter (fun b => b.1 != uid)
      conflicts := d.conflicts.filter (fun p => p.1 != pos) })
    let t := ((t.seqRestart false (frAddr f)).dnPut (ackFrame (lineKey false (frAddr f) 0) 0 0)).dnFlush
    let t := (t.driverEvent 0x0021 (some (frAddr f)) (leBytes 6 uid)).bookSync
    t.tokenAsk pos (payNat f 12 1)

/-- A Crossing's JOIN at the Chapter (R21, R193): it holds the walk of its address, and a SET_WALK that waits for it completes. -/
def State.joinXing (s : State) (f : Frame) : State :=
  let n := frAddr f
  let uid := payNat f 0 8
  if s.drv.xings.any (fun x => x.n = n && x.uid != uid) then s.down (assignFrame uid 2 n 1)
  else
    let t := s.setDrv (fun d => { d with
      xings := d.xings.filter (fun x => x.uid != uid) ++ [⟨n, uid, 0, 0, false, frMore f, 256, 8, 0⟩] })
    let t := ((t.seqRestart true n).dnPut (ackFrame (lineKey true n 0) 0 0)).dnFlush
    let t := (t.joinWindows f).bookSync
    match t.drv.pendWalk with
    | some p => if p.uid = uid && p.n = n then t.walkDone stOK else t
    | none => t

/-- JOIN (R193). A Cell of another walk is enrolled by its Crossing; the Chapter takes its windows from the relayed frame. -/
def execJoin (f : Frame) (s : State) : Host.Outcome State Fault Refusal :=
  .next (s.fromWalk 9 f (fun t =>
    if frRA f then (if t.role = .chapter && 1 ≤ frAddr f && frAddr f ≤ 15 then t.joinXing f else t)
    else if cellWalk (frAddr f) = t.drvWalk then
      let clash := (t.enr? (frAddr f % 256)).any (fun e => e.uid != payNat f 0 8)
      let u := t.joinCell f
      if clash then u else if u.role = .chapter then u.joinWindows f else u.relayFrame f
    else if t.role = .chapter then
      let u := t.setDrv (fun d => { d with gone := d.gone.filter (· != frAddr f) })
      (u.seqRestart false (frAddr f)).joinWindows f
    else t))

/-- An ACKF that comes up (R189 to R191, R21): header only. From a Crossing that gives up its walk it completes SET_WALK. -/
def State.ackfUp (s : State) (f : Frame) : State :=
  let t := if s.upKnown f then s.upHeader f else s
  let t := if t.role != .chapter && t.upKnown f then t.relayFrame f else t
  match t.drv.pendWalk with
  | some p =>
    if p.n = 0 && frRA f && t.drv.xings.any (fun x => x.n = frAddr f && x.uid = p.uid) then
      ((t.setDrv (fun d => { d with
        xings := d.xings.filter (fun x => x.uid != p.uid)
        found := if d.found.contains p.uid then d.found else p.uid :: d.found })).bookSync).walkDone stOK
    else t
  | none => t

/-! ### Ranging at the driver (R195) -/

/-- Twice the propagation delay, in root cycles, from a measured round trip (R195). -/
def rangeTwoP (rate rt : Nat) : Int :=
  let bit := 10240 / 2 ^ rate
  (rt : Int) - 64 * bit - bit / 16 - Config.rxLatency - bit / 64 - bit / 16

/-- The PROP of 8 measurements: half the mean of the sum, not below 0. -/
def propOf (sum : Int) : Nat := (openQuot sum 16).toNat

/-- A measured answer to RANGE: after the eighth the mean goes down in a TIME frame. -/
def State.ranged (s : State) (index rt : Nat) : State :=
  let two := rangeTwoP s.drvRate rt
  if index < 256 then
    match s.enr? index with
    | none => s
    | some e =>
      if e.ranges = 0 then s
      else
        let t := s.setEnr { e with ranges := e.ranges - 1, rsum := e.rsum + two }
        if e.ranges = 1 then
          t.down ⟨mkHdr 0xB 0 0 0 (s.addrOf index) 0 2 0 0 0 0, leBytes 2 (propOf (e.rsum + two))⟩
        else t
  else
    match s.xing? (index - 255) with
    | none => s
    | some x =>
      if x.ranges = 0 then s
      else
        let t := s.onXing x.n (fun c => { c with ranges := c.ranges - 1, rsum := c.rsum + two })
        if x.ranges = 1 then t.down ⟨mkHdr 0xB 1 0 0 x.n 0 2 0 0 0 0, leBytes 2 (propOf (x.rsum + two))⟩ else t

/-! ### Resending at the driver (R189, R205) -/

/-- The superframes after which a DESC is resent: 4 on walk 0, 6 on walks 1 to 15. -/
def resendAfter (ra : Bool) (addr : Nat) : Nat := if ra || cellWalk addr = 0 then 4 else 6

/-- A DESC of the Chapter that is due: sent four times, its target is absent; else it is sent again. -/
def State.resendDn (s : State) (x : Dn) : State :=
  if 4 ≤ x.tries then
    if frRA x.f then s.crossingAbsent (frAddr x.f)
    else if cellWalk (frAddr x.f) = 0 then s.cellAbsent (frAddr x.f % 256) 2
    else if s.drv.gone.contains (frAddr x.f) then s
    else (s.driverEvent 0x0020 (some (frAddr x.f)) (leBytes 1 2)).farAbsent (frAddr x.f)
  else
    (s.setDrv (fun d => { d with dn := d.dn.map (fun (y : Dn) => if y = x then { y with age := none } else y) })).count fLPCNT_RESEND

/-- Every DESC of the Chapter that is due, oldest first. -/
def State.resendDriver (s : State) : State :=
  let due := s.drv.dn.filter (fun x => frType x.f = 2 && !x.relay &&
    x.age.any (fun a => decide (resendAfter (frRA x.f) (frAddr x.f) ≤ a)))
  (due.foldl State.resendDn s).dnFlush

end Sys2Proof.Machine
end

