-- ==== Sys2Proof/Machine/Node.lean ====
section
/-! DEFINITION. The node's side of the line (chapter 9): beacons and line time, the sweep, slots and what a node sends,
frames that come down, joining, relay by a Crossing, and the Lectern session. -/

namespace Sys2Proof.Machine

open Sys2Proof

/-- Change the node state. -/
def State.setNode (s : State) (g : Node → Node) : State := { s with node := g s.node }

/-- The window G of a ring (R190, Log 25): 4, 8 or 16 entries. -/
def windowOf (ring : Nat) : Nat := 2 ^ (2 + Config.windowExp ring % 3)

/-! ### Addresses and what is owed (R187) -/

/-- Whether a JOIN waits to be sent or acknowledged. -/
def State.joining (s : State) : Bool := s.node.up.any (fun x => frType x.f = 9)

/-- The part's sweep index: a Cell's position, 255 + n for Crossing n, and 271 for a newcomer (R187, R192). -/
def State.sweepIndex (s : State) : Nat :=
  match s.role with
  | .crossing => if s.fld fLINEADDR_ROLEADDR = 0 then 271 else 255 + s.fld fLINEADDR_ROLEADDR
  | _ => if s.on fLINEADDR_VALID || s.joining then s.fld fLINEADDR_CELLADDR % 256 else 271

/-- Whether the part has something to send in a slot. -/
def State.wantsSlot (s : State) : Bool :=
  let n := s.node
  n.up.any (fun x => x.sent.isNone) || !n.ackDue.isEmpty || !n.winDue.isEmpty || n.tokDue || !n.relayUp.isEmpty ||
    !n.reports.isEmpty || n.relCred != 0 || n.leaving

/-- Whether the part owes the line an answer (R187): it holds tokens, a descriptor not completed, a frame not acknowledged, or an
ASSIGN, RANGE or TIME frame not answered. A Crossing on walk 0 always owes. -/
def State.owes (s : State) : Bool :=
  s.role = .crossing || s.on fPWRTOK_GRANT || s.node.inbox.any (fun d => d.path = .walk) || !s.node.up.isEmpty ||
    !s.node.ackDue.isEmpty

/-- LPSTAT.OWE. -/
def State.oweSync (s : State) : State := s.setFld fLPSTAT_OWE (b2n (s.onWalk && s.owes))

/-- Whether the transmitter may send (R112, R137, R177, R203, chapter 8 From cold): Rhoco is up and past B9, not in recovery, a
beacon came in the last 2 superframes, no lock, cut or safe state. -/
def State.canSend (s : State) : Bool :=
  s.onWalk && s.rhocoUp && s.rst.booted && !s.on fBOOTSTAT_RECOV && !s.on fLASTAT_TXLOCKOUT && !s.node.modCut &&
    !s.on fCLKSTAT_FORCED && s.node.beaconAge.any (fun a => decide (a ≤ 2))

/-! ### Joining (R193, R206) -/

/-- Give the frames that stay queued their SEQ anew, from 1 on each ring. -/
def renumber : List Tx → List Nat → List Tx × List Nat
  | [], q => ([], q)
  | x :: xs, q =>
    let r := frRing x.f
    let seq := q.getD r 0 + 1
    let h := x.f.hdr - 2 ^ 32 * bitsOf x.f.hdr 32 8 + 2 ^ 32 * (seq % 256)
    let rest := renumber xs (q.set r seq)
    (⟨⟨h, x.f.payload⟩, none, x.tries⟩ :: rest.1, rest.2)

/-- The JOIN frame (Table 9.6). -/
def State.joinFrame (s : State) : Frame :=
  let x := s.role = .crossing
  let addr := if x then s.fld fLINEADDR_ROLEADDR else s.fld fLINEADDR_CELLADDR
  let stored := if x then 0xFFFF else s.node.stAddr.getD 0xFFFF
  ⟨mkHdr 9 (b2n x) 0 0 addr 0 16 0 0 0 0,
    leBytes 8 s.uid ++ (List.range 4).map (fun r => BitVec.ofNat 8 (windowOf r)) ++ leBytes 1 (if x then 0 else s.node.wanted)
      ++ leBytes 1 (roleCode s.role) ++ leBytes 2 stored⟩

/-- The part owes a JOIN (R193): its SEQ counters restart, completions not sent are discarded (R206), and the JOIN goes first. -/
def State.joinOwe (s : State) : State :=
  if s.joining then s
  else
    let stay := renumber (s.node.up.filter (fun x => frRing x.f != 0)) [0, 0, 0, 0]
    s.setNode (fun n => { n with
      up := ⟨s.joinFrame, none, 0⟩ :: stay.1
      seqTx := stay.2.map (· % 256), seqRx := [0, 0, 0, 0]
      ackDue := [], winDue := [], tokDue := false, joinOwed := true, joinSent := false, joined := false })

/-- The acknowledgement of a JOIN: VALID sets (R193). -/
def State.joinDone (s : State) : State :=
  (s.setNode (fun n => { n with
    up := n.up.filter (fun x => frType x.f != 9), joined := true, joinOwed := false, joinSent := false })).setFld fLINEADDR_VALID 1

/-! ### What a node sends (R188, R189, R191, R198) -/

/-- The bytes 6 and 7 of an uplink frame on a ring: RELCRED of a Crossing, and WIN and TOK of a Cell. -/
def State.upTail (s : State) (ring : Nat) : Nat × Nat :=
  if s.role = .crossing then (s.node.relCred % 256, s.node.relCred / 256)
  else (if s.node.winDue.contains ring then 32 + windowOf ring else 0, if s.node.tokDue then 32 + s.node.wanted % 32 else 0)

/-- Send an own uplink frame: ACK, WIN, TOK or RELCRED and MORE are those of this moment. A lower total of tokens acts at the
frame's end (R191). -/
def State.sendUp (s : State) (f : Frame) : State :=
  let r := frRing f
  let tail := s.upTail r
  let x := s.role = .crossing
  let addr := if x then s.fld fLINEADDR_ROLEADDR else s.fld fLINEADDR_CELLADDR
  let tok := s.node.tokDue
  let t := s.setNode (fun n => { n with
    ackDue := n.ackDue.filter (· != r), winDue := n.winDue.filter (· != r)
    tokDue := false, relCred := if x then 0 else n.relCred })
  let g : Frame := ⟨mkHdr (frType f) (b2n x) 0 (b2n t.wantsSlot) addr r (frLen f) (bitsOf f.hdr 32 8)
    (if frType f = 9 then 0 else s.node.seqRx.getD r 0) (if frType f = 9 then 0 else tail.1) (if frType f = 9 then 0 else tail.2),
    f.payload⟩
  let t := t.emit (.frame .attached g)
  if tok && !x && decide (s.node.wanted < s.fld fPWRTOK_GRANT) then t.setGrant s.node.wanted else t

/-- Whether a RESET's completion has just left: it is a COMPL frame and none waits any more (R131, R153). -/
def State.resetNow (s : State) : State :=
  if s.rst.resetDue && !s.node.up.any (fun x => frType x.f = 4 && x.sent.isNone) then s.resetAct (if s.on fBOOTSTAT_RECOV then 6 else 7)
  else s

/-- Send the first frame that waits in `up`. -/
def State.sendTx (s : State) (x : Tx) : State :=
  let t := s.setNode (fun n => { n with
    up := n.up.map (fun (y : Tx) => if y = x then { y with sent := some 0, tries := y.tries + 1 } else y)
    joinSent := n.joinSent || frType x.f = 9, joinOwed := n.joinOwed && frType x.f != 9 })
  let t := t.sendUp x.f
  if frType x.f = 4 then t.resetNow else t

/-- A Crossing fills a REPORT frame with as many waiting records as fit, oldest first (R572). -/
def State.sendReport (s : State) : State :=
  let recs := s.node.reports.take 4
  let seq := (s.node.seqTx.getD 1 0 + 1) % 256
  let f : Frame := ⟨mkHdr 0xC 1 0 0 0 1 (16 * recs.length) seq 0 0 0, recs.flatten⟩
  let t := s.setNode (fun n => { n with
    reports := n.reports.drop 4, seqTx := n.seqTx.set 1 seq, up := n.up ++ [⟨f, some 0, 1⟩] })
  t.sendUp f

/-- A Crossing that gives up its walk confirms with an ACKF, and has no role address from then on (R21). -/
def State.leave (s : State) : State :=
  let t := s.sendUp ⟨mkHdr 3 1 0 0 0 0 0 0 0 0 0, []⟩
  (t.setNode (fun n => { n with leaving := false, stAddr := none, joined := false })).sets
    [(fLINEADDR_ROLEADDR, 0), (fLINEADDR_VALID, 0)]

/-- Send one frame in a slot: own frames first, then relayed ones, then an ACKF for what is owed. A WALK_CONTESTED record goes
before the JOIN that would confirm the walk (R23). -/
def State.sendOne (s : State) : State :=
  let n := s.node
  let contested := s.joining && n.reports.any (fun r => leNat (r.take 2) = 0x0014)
  if n.leaving then s.leave
  else if contested then s.sendReport
  else
    match n.up.find? (fun x => x.sent.isNone) with
    | some x => s.sendTx x
    | none =>
      if !n.reports.isEmpty then s.sendReport
      else
        match n.relayUp with
        | f :: rest => (s.setNode (fun q => { q with relayUp := rest })).emit (.frame .attached f)
        | [] =>
          if s.wantsSlot then
            let r := (n.ackDue ++ n.winDue).headD 0
            s.sendUp ⟨mkHdr 3 0 0 0 0 r 0 0 0 0 0, []⟩
          else s

/-- The node's part in the sweep (R187, R192, R210): a pulse at its index, ATTN when it wants a slot, BUSY when it only owes. -/
def State.nodeSweep (s : State) : State :=
  if !s.canSend then s
  else
    let i := s.sweepIndex
    let want := i = 271 || s.wantsSlot
    let t := s.setNode (fun n => { n with attn := want && i != 271 })
    if want || s.owes || s.node.bMuster then t.emit (.pulse .attached i (!want)) else t

/-- ATTENTION_SWEEP: `pulses` are the indices that pulse on the driven walk, with whether ATTN. -/
def execAttentionSweep (pulses : List (Nat × Bool)) (s : State) : Host.Outcome State Fault Refusal :=
  .next (
    let t := if s.onWalk then s.nodeSweep else s
    (if t.drives then t.driverSweep pulses else t).oweSync)

/-- UPLINK_SLOT (R188): on the attached walk the part sends one frame in a slot granted to it; on the driven walk a slot granted
to an index has passed, with a valid frame or without. -/
def execUplinkSlot (p : Port) (index : Nat) (valid : Bool) (s : State) : Host.Outcome State Fault Refusal :=
  .next (
    match p with
    | .attached =>
      if s.canSend && s.node.slots != 0 then
        ((s.setNode (fun n => { n with slots := n.slots - 1 })).sendOne).oweSync
      else s
    | .driven => if s.drives then s.driverSlot index valid else s
    | .jack => s)

/-- SUPERFRAME_START (R186): a driver begins its superframe at a whole second of line time; a node counts the superframes since
its last beacon and since what it sent. -/
def execSuperframeStart (m : WalkMon) (s : State) : Host.Outcome State Fault Refusal :=
  .next (
    let t := if s.onWalk then
        let u := s.setNode (fun n => { n with
          beaconAge := n.beaconAge.map (fun a => a + 1), slots := 0, attn := false, bMuster := false
          up := n.up.map (fun (x : Tx) => { x with sent := x.sent.map (fun a => a + 1) }) })
        (u.setFld fLPSTAT_TRACK (b2n (u.node.beaconAge.any (fun a => decide (a ≤ 2))))).syncNow
      else s
    (if t.hasDrive && t.now % 32768 = 0 then t.driverStart m else t).oweSync)

/-! ### Frames that come down -/

/-- What the receiver tells with every frame (R164): rate, lock and swing. -/
def State.rxNote (s : State) (rx : LineRx) : State :=
  let t := s.sets [(fLASTAT_RATE, rx.rate.val), (fLASTAT_LOCK, 1), (fLASTAT_SWING, rx.swing.toNat)]
  let t := if s.fld fLASTAT_RATE != rx.rate.val then t.raise [fLAFLAG_RATECHG] else t
  if rx.swing.toNat < 90 then t.raise [fLAFLAG_SWINGLOW] else t

/-- A frame of a type comes down the walk: the receiver notes it, and one that fails the checks of R184 is counted and dropped. -/
def State.fromHead (s : State) (type : Nat) (f : Frame) (rx : LineRx) (act : State → State) : State :=
  if !s.onWalk || s.slp.st = .off then s
  else
    let t := s.rxNote rx
    if !frameOk false false f || frType f != type then t.badFrame
    else (act (if frWake f && frAddr f = 0xFFF then t.wake 3 else t)).oweSync

/-- Whether a unicast frame is for this part: its Cell address, or a Crossing's role address. -/
def State.forMe (s : State) (f : Frame) : Bool :=
  match s.role with
  | .crossing => frRA f && frAddr f = s.fld fLINEADDR_ROLEADDR && s.on fLINEADDR_ROLEADDR
  | _ => !frRA f && frAddr f = s.fld fLINEADDR_CELLADDR && (s.on fLINEADDR_VALID || s.joining)

/-- Whether a Crossing relays a frame to its walk (R198). -/
def State.forRelay (s : State) (f : Frame) : Bool :=
  s.role = .crossing && !frRA f && s.on fLINEADDR_ROLEADDR && cellWalk (frAddr f) = s.fld fLINEADDR_ROLEADDR

/-- Queue a frame for the Crossing's own downlink, unchanged (R198). Its relay queue holds 256; beyond them a frame came without
a credit and is discarded (R144). -/
def State.relayDown (s : State) (f : Frame) : State :=
  if (s.drv.dn.filter (fun x => x.relay)).length < 256 then
    (s.setDrv (fun d => { d with dn := d.dn ++ [⟨f, true, none, 0⟩] })).dnFlush
  else s

/-- What the header of a downlink frame to this part tells (R189 to R191, R206, R224): the ACK, a window request, and a total of
tokens, which GRANT_APPLY applies. -/
def State.downHeader (s : State) (f : Frame) : State :=
  let r := frRing f
  let t := s.setNode (fun n => { n with up := n.up.filter (fun x =>
    !(x.sent.isSome && frType x.f != 9 && frRing x.f = r && acked (frAck f) (bitsOf x.f.hdr 32 8))) })
  let t := if bitAt f.hdr 53 then
      t.setNode (fun n => { n with winDue := if n.winDue.contains r then n.winDue else n.winDue ++ [r] }) else t
  match frTok f with
  | some g =>
    if t.role = .cell then
      let u := { t with pwr := { t.pwr with grantPend := some g } }
      if g < t.fld fPWRTOK_GRANT && t.fld fPWRTOK_GRANT ≤ t.node.wanted then u.raise [fLPFLAG_REVOKED] else u
    else t
  | none => t

/-- Accept a DESC in SEQ order (R189, R190, R155, R246). -/
def State.descIn (s : State) (f : Frame) (poison : Bool) : State :=
  let r := frRing f
  let seq := bitsOf f.hdr 32 8
  let t := s.downHeader f
  let owe := fun (u : State) => u.setNode (fun n => { n with ackDue := if n.ackDue.contains r then n.ackDue else n.ackDue ++ [r] })
  if !t.rst.booted || t.on fBOOTSTAT_RECOV || t.rst.resetDue then t
  else
    match seqCase (t.node.seqRx.getD r 0) seq with
    | .ahead => t
    | .again => owe t
    | .accept =>
      if windowOf r ≤ (t.node.inbox.filter (fun d => d.path = .walk && d.ring = r)).length then t
      else
        let d : Desc := ⟨.walk, r, seq, 0, f.payload⟩
        let u := owe (t.setNode (fun n => { n with seqRx := n.seqRx.set r seq, inbox := n.inbox ++ [d] }))
        if poison then (u.queueParity).complete d stPOISONED 0 [] else u.pump

/-- DESC (R189, R198, R235): accepted and acknowledged by its target, after it has woken it (LINEFRM), or relayed by a Crossing. `poison` is a parity
mismatch in the line command path (R155). -/
def execDesc (f : Frame) (rx : LineRx) (poison : Bool) (s : State) : Host.Outcome State Fault Refusal :=
  .next (s.fromHead 2 f rx (fun t =>
    if t.forRelay f then t.relayDown f
    else if t.forMe f then ((if t.role = .cell then t.wake 3 else t).descIn f poison)
    else t))

/-- ACKF (R189): down to a node, relayed by a Crossing, or up to a driver. -/
def execAckf (p : Port) (f : Frame) (rx : LineRx) (s : State) : Host.Outcome State Fault Refusal :=
  .next (
    match p with
    | .attached => s.fromHead 3 f rx (fun t =>
        if t.forRelay f then t.relayDown f
        else if t.forMe f then
          let u := if t.node.joinSent then t.joinDone else t
          (if u.role = .cell then u.wake 3 else u).downHeader f
        else t)
    | .driven => s.fromWalk 3 f (fun t => t.ackfUp f)
    | .jack => s)

/-- GRANT (R188, R203): the slots of this part, when it raised ATTN in this sweep. -/
def execGrant (f : Frame) (rx : LineRx) (s : State) : Host.Outcome State Fault Refusal :=
  .next (s.fromHead 1 f rx (fun t =>
    if t.node.attn then
      let mine := (List.range (f.payload.length / 2)).map (fun i =>
        let e := payNat f (2 * i) 2
        if e % 512 = t.sweepIndex && e / 4096 = 0 then e / 512 % 8 + 1 else 0)
      t.setNode (fun n => { n with slots := mine.sum, attn := false })
    else t))

/-- BEACON_MISS (R204): three superframes without a valid beacon. -/
def execBeaconMiss (s : State) : Host.Outcome State Fault Refusal :=
  .next (
    if s.onWalk && s.node.beaconAge.all (fun a => decide (3 ≤ a)) then
      let t := ((s.raise [fLPFLAG_BMISS]).count fLPCNT_BMISS).setGrant 0
      let t := { t with pwr := { t.pwr with grantPend := none } }
      (t.setNode (fun n => { n with tokDue := n.tokDue || n.wanted != 0 })).oweSync
    else s)

/-! ### The beacon (R194, R196, R197, R199, R208, R212) -/

/-- The detection instant of a beacon in root cycles after its superframe's start (R194). -/
def State.detection (s : State) (rate : Nat) : Nat :=
  let bit := 10240 / 2 ^ rate
  31 * bit / 2 + bit / 16 + (if s.on fLPPROP_VALID then s.fld fLPPROP_PROP else 0) + Config.rxLatency

/-- Membership at a beacon after boot (R212): with the stored walk and SYSTEM the part owes a JOIN; else it is a newcomer. -/
def State.belong (s : State) (walk system : Nat) : State :=
  if !s.rst.booted || s.node.joined || s.joining then s
  else if s.role = .crossing then
    if s.on fLINEADDR_ROLEADDR && s.node.stSystem = system && walk = 0 then s.joinOwe else s.setFld fLINEADDR_VALID 0
  else if s.on fLINEADDR_VALID && s.node.stWalk = some walk && s.node.stSystem = system then s.joinOwe
  else s.setFld fLINEADDR_VALID 0

/-- A beacon is taken: line time reads what R194 gives at the detection; `phase` and `rate` are the corrections it measured (LPTERR). -/
def State.beaconIn (s : State) (f : Frame) (rx : LineRx) (phase rate : BitVec 16) : State :=
  let ltime := payNat f 0 6
  let b6 := payNat f 6 1
  let system := payNat f 8 4
  let flags := payNat f 12 1
  let at_ := ltime * 6000 + s.detection rx.rate.val
  let hold := bitAt flags 1
  let step := bitAt flags 2
  let t := s.setNode (fun n => { n with
    beaconAge := some 0, slots := 0, attn := false, modCut := false
    bWalk := b6 % 16, bSys := system, bSync := bitAt flags 0 && !hold, bMuster := bitAt b6 6 })
  let t := t.sets [(fLPSTAT_TRACK, 1), (fLPSTAT_HOLD, b2n hold), (fLPTERR_PHASE, phase.toNat), (fLPTERR_RATE, rate.toNat),
    (fRTCSTAT_VALID, 1)]
  let t := (if hold then t.raise [fLPFLAG_SYNCLOST] else t).setLine (at_ / 6000)
  let t := { t with clk := { t.clk with frac := if t.on fCLKSTAT_PLLLOCK then at_ % 6000 else 0 } }
  let t := t.syncNow
  let t := if step then (t.sealAppend 16 5 (freeBytes t.free 36)).used 36 else t
  let t := if step && t.role = .crossing then t.setDrv (fun d => { d with timeStep := some (ltime, ltime) }) else t
  t.belong (b6 % 16) system

/-- BEACON (R194). -/
def execBeacon (f : Frame) (rx : LineRx) (phase rate : BitVec 16) (s : State) : Host.Outcome State Fault Refusal :=
  .next (s.fromHead 0 f rx (fun t => t.beaconIn f rx phase rate))

/-! ### Roll call and assignment at a node (R192, R193, R201, R206) -/

/-- PROBE (R192): a newcomer whose unique ID matches the prefix pulses in the element of its next nibble. -/
def execProbe (f : Frame) (rx : LineRx) (s : State) : Host.Outcome State Fault Refusal :=
  .next (s.fromHead 7 f rx (fun t =>
    let d := payNat f 8 1
    if t.canSend && t.sweepIndex = 271 && d < 16 && t.uid / 16 ^ (16 - d) = payNat f 0 8 / 16 ^ (16 - d) then
      t.emit (.probePulse (t.uid / 16 ^ (15 - d) % 16))
    else t))

/-- The part gives up its address and is a newcomer (R201). -/
def State.addrClear (s : State) : State :=
  let t := (s.setNode (fun n => { n with
    stAddr := none, stWalk := none, joined := false, joinOwed := false, joinSent := false
    up := n.up.filter (fun x => frType x.f != 9) })).raise [fLPFLAG_ADDRCLR]
  t.setFld fLINEADDR_VALID 0

/-- A Crossing releases the walk it drives (R21, R24). -/
def State.walkRelease (s : State) : State :=
  (if s.on fWDCTL_EN || s.driveBusy then s.driveStop else s).setDrv (fun d => { d with
    enr := [], binds := [], granted := 0, quar := [], freed := 0, reqs := [], dn := [], seqTx := [], seqRx := [], conflicts := [] })

/-- ASSIGN ACT = NEW with ROLE = 1 at a Crossing (R21, R24, R193): a walk, or 0 to give its walk up. -/
def State.walkAssign (s : State) (n : Nat) : State :=
  let cur := s.fld fLINEADDR_ROLEADDR
  if n = 0 then
    if cur = 0 then s
    else (s.walkRelease).setNode (fun q => { q with leaving := true, stAddr := none })
  else
    let t := if cur = n then s else s.walkRelease
    let t := t.sets [(fLINEADDR_ROLEADDR, n), (fLINEADDR_VALID, 0), (fLPSYSID_SYSTEM, t.node.bSys)]
    let t := t.setNode (fun q => { q with stAddr := some n, stWalk := some 0, stSystem := t.node.bSys, leaving := false })
    let t := if cur = n then t else t.driveReq.2
    t.joinOwe

/-- ASSIGN ACT = NEW at a Cell (R193): the address, walk, SYSTEM are stored; VALID waits for the acknowledgement of the JOIN. -/
def State.cellAssign (s : State) (pos : Nat) : State :=
  let addr := 256 * s.node.bWalk + pos
  let t := s.sets [(fLINEADDR_CELLADDR, addr), (fLINEADDR_VALID, 0), (fLPSYSID_SYSTEM, s.node.bSys)]
  (t.setNode (fun q => { q with stAddr := some addr, stWalk := some s.node.bWalk, stSystem := s.node.bSys })).joinOwe

/-- ASSIGN ACT = REJOIN (R206): GRANT = 0, completions not sent are discarded, and a JOIN is owed. -/
def State.rejoin (s : State) : State :=
  let t := { s.setGrant 0 with pwr := { (s.setGrant 0).pwr with grantPend := none } }
  t.joinOwe

/-- ASSIGN (R193, R201, R206). CLEAR with all ones for the unique ID is for every Cell that holds the position. -/
def execAssign (f : Frame) (rx : LineRx) (s : State) : Host.Outcome State Fault Refusal :=
  .next (s.fromHead 8 f rx (fun t =>
    let uid := payNat f 0 8
    let act := payNat f 8 1
    let pos := payNat f 9 1
    let role := bitAt (payNat f 10 1) 0
    let x := t.role = .crossing
    if !t.rst.booted then t
    else if act = 2 then
      if uid = t.uid || (uid = 2 ^ 64 - 1 && !x && t.sweepIndex = pos) then
        if x then (if t.on fLINEADDR_ROLEADDR then (t.walkRelease.addrClear).setFld fLINEADDR_ROLEADDR 0 else t) else t.addrClear
      else t
    else if uid != t.uid then t
    else if act = 1 then t.rejoin
    else if act = 0 then
      if x then (if role then t.walkAssign (pos % 16) else t) else if role then t else t.cellAssign pos
    else t))

/-- RANGE (R195): a node answers with a pulse; the driver takes the measured round trip. -/
def execRange (q : RangeIn) (s : State) : Host.Outcome State Fault Refusal :=
  .next (
    match q with
    | .heard f rx => s.fromHead 0xA f rx (fun t => if t.forMe f && t.canSend then t.emit .rangePulse else t)
    | .measured index rt => if s.drives then s.ranged index rt else s)

/-- TIME_FRAME (R195): PROP is stored in LPPROP and MRAM; an acknowledgement is owed. -/
def execTimeFrame (f : Frame) (rx : LineRx) (s : State) : Host.Outcome State Fault Refusal :=
  .next (s.fromHead 0xB f rx (fun t =>
    if t.forMe f then
      let u := (t.sets [(fLPPROP_PROP, payNat f 0 2), (fLPPROP_VALID, 1)]).syncNow
      u.setNode (fun n => { n with ackDue := if n.ackDue.contains 0 then n.ackDue else n.ackDue ++ [0] })
    else t))

/-- RESEND_TIMEOUT (R189): frames not acknowledged for 4 superframes, or 6 on walks 1 to 15, are sent again. -/
def execResendTimeout (p : Port) (s : State) : Host.Outcome State Fault Refusal :=
  .next (
    match p with
    | .driven => if s.role = .chapter then s.resendDriver else s
    | .attached =>
      let lim := if s.role = .cell then resendAfter false (s.fld fLINEADDR_CELLADDR) else 4
      let due := fun (x : Tx) => x.sent.any (fun a => decide (lim ≤ a))
      let n := (s.node.up.filter due).length
      if s.onWalk && n != 0 then
        ((s.setNode (fun q => { q with up := q.up.map (fun (x : Tx) => if due x then { x with sent := none } else x) })).countBy
          fLPCNT_RESEND n).oweSync
      else s
    | .jack => s)

/-- FRAME_DISCARDED (R184, R201): counted; at a driver in a slot of an index, conflicts of positions show here. -/
def execFrameDiscarded (p : Port) (index : Option Nat) (rx : LineRx) (s : State) : Host.Outcome State Fault Refusal :=
  .next (
    match p with
    | .attached => if s.onWalk && s.slp.st != .off then (s.rxNote rx).badFrame else s
    | .driven =>
      if s.drives then
        let t := s.badFrame
        match index with
        | some i => t.driverBad i
        | none => t
      else s
    | .jack => if s.hasJack then s.badFrame else s)

/-! ### The Lectern session (R202) -/

/-- A frame on the jack. -/
def State.jackSend (s : State) (type ring seq : Nat) (payload : List Byte) : State :=
  s.emit (.frame .jack ⟨mkHdr type 0 0 0 (s.fld fLINEADDR_CELLADDR) ring payload.length seq (s.node.sessRx.getD ring 0) 0 0, payload⟩)

/-- In Loop role what is queued goes up in the session's windows. -/
def State.jackAnswer (s : State) : State :=
  match if s.role = .loop then s.node.up.find? (fun x => x.sent.isNone) else none with
  | some x =>
    let t := s.setNode (fun n => { n with up := n.up.map (fun (y : Tx) =>
      if y = x then { y with sent := some 0, tries := y.tries + 1 } else y) })
    t.jackSend (frType x.f) (frRing x.f) (bitsOf x.f.hdr 32 8) x.f.payload
  | none => s

/-- A DESC from the handheld: accepted in SEQ order and acknowledged. -/
def State.jackDesc (s : State) (f : Frame) : State :=
  let r := frRing f
  let seq := bitsOf f.hdr 32 8
  if !s.rst.booted && !s.on fBOOTSTAT_RECOV || s.rst.resetDue then s
  else
    match seqCase (s.node.sessRx.getD r 0) seq with
    | .ahead => s
    | .again => s.jackSend 3 r 0 []
    | .accept =>
      let t := s.setNode (fun n => { n with
        sessRx := n.sessRx.set r seq, inbox := n.inbox ++ [⟨.lectern, r, seq, 0, f.payload⟩] })
      (t.jackSend 3 r 0 []).pump

/-- RECOVER from the handheld within 500 ms of B7 (R137): Rhoco is in recovery from then on. -/
def State.recoverIn (s : State) : State :=
  if s.hasJack && s.on fLJSTAT_PRESENT && s.rhocoUp && s.rst.booted && s.rst.b7Window then
    { s.setFld fBOOTSTAT_RECOV 1 with rst := { s.rst with b7Window := false, autostart := none } }
  else s

/-- LECTERN_FRAME (R202): a frame from the handheld, addressed with RA = 1 and 0xFFF. In Loop role ASSIGN sets LINEADDR for the
session. -/
def execLecternFrame (f : Frame) (s : State) : Host.Outcome State Fault Refusal :=
  .next (
    if !s.hasJack || !s.on fLJSTAT_PRESENT || s.on fLJSTAT_OV || s.slp.st = .off then s
    else if !frameOk false true f then s.badFrame
    else if !(frRA f && frAddr f = 0xFFF) then s
    else
      let r := frRing f
      let t : State := s.setNode (fun n => { n with session := true })
      let t : State := if s.role = .loop && frType f = 3 then
          t.setNode (fun n => { n with up := n.up.filter (fun x =>
            !(x.sent.isSome && frRing x.f = r && acked (frAck f) (bitsOf x.f.hdr 32 8))) })
        else t
      let t : State := match frType f with
        | 2 => t.jackDesc f
        | 8 =>
          if s.role = .loop && payNat f 0 8 = s.uid && payNat f 8 1 = 0 then
            (t.setNode (fun n => { n with sessAddr := some (payNat f 9 1) })).sets
              [(fLINEADDR_CELLADDR, payNat f 9 1), (fLINEADDR_VALID, 1)]
          else t
        | 0xD => t.recoverIn
        | _ => t
      t.jackAnswer)

end Sys2Proof.Machine
end

