-- ==== Sys2Proof/Machine/HostLink.lean ====
section
/-! DEFINITION. The host link (chapter 10): configuration space, BAR0, MSI-X release, host-link resets, the link's own events and
device power states. -/

namespace Sys2Proof.Machine

open Sys2Proof

/-- Change the host link's state. -/
def State.setHl (s : State) (g : Hl → Hl) : State := { s with hl := g s.hl }

/-! ### What goes on when host memory can be reached again -/

/-- The Scriptorium goes on: completions that wait, records, fences and fetches (R220, R225, R249). -/
def State.hostResume (s : State) : State :=
  if s.hostReady then
    let t := s.retryHeld
    let t := (t.drainRecords (t.scr.recq.length)).fencesDone
    (t.scr.rings.map (·.n)).foldl (fun u n => u.askFetch n) t
  else s

/-! ### Host-link reset (R156, R222 to R226, R231, R253) -/

/-- What was sent down a ring and has no completion becomes stale (R224). -/
def State.staleOf (s : State) (k : Nat) : List Nat :=
  (s.credit k).staleSeq
    ++ ((s.scr.held.filter (fun h => h.phase = 2 && ringKey h.ring = k)).map (·.seq)).reverse
    ++ ((s.scr.lost.filter (fun p => p.1 = k)).map (·.2)).reverse
    ++ (s.drv.fwd.filter (fun f => lineKey true f.n 0 = k)).filterMap (·.seq)

/-- The keys of the Command rings that have a book or something sent. -/
def State.bookKeys (s : State) : List Nat :=
  ((s.scr.credits.map (·.ring)) ++ ((s.scr.held.filter (fun h => h.phase = 2)).map (fun h => ringKey h.ring))
    ++ (s.scr.lost.map (·.1)) ++ (s.drv.fwd.map (fun f => lineKey true f.n 0))).dedup

/-- The Scriptorium after a host-link reset: empty, with the stale counts; a fenced lane stays fenced (R249, R252). -/
def State.scrReset (s : State) : Scr :=
  { credits := s.bookKeys.map (fun k =>
      let l := s.staleOf k
      (⟨k, 0, 0, false, false, l.length, l⟩ : Credit)) }

/-- A host-link reset (R223): flags `fs` set afterwards; `down` when the link leaves DL_Active. Rhoco starts the Scriptorium again
at once (Log 28). -/
def State.hlReset (s : State) (fs : List Fld) (down : Bool) : State :=
  let was := s.on fHLSTAT_LINKUP
  let rdy := s.on fHLSTAT_SCRRDY
  let kept := copyFlds s.regs [fSCLANE_FENCED, fSCLANE_CAUSE]
  let gen := s.fld fHLSTAT_GEN2
  let t := { s with
    scr := s.scrReset
    drv := { s.drv with fwd := [], pendWalk := none, powerDesc := none }
    descCache := []
    hl := { perstLow := s.hl.perstLow, vphyGood := s.hl.vphyGood, refLock := s.hl.refLock, winAns := s.hl.winAns } }
  let t := (t.resetBlock 13).sets kept
  let t := t.sets [(fTAGSTAT_FREE, 1024), (fTAGSTAT_RELEASING, 0), (fSCTAG_FREE, 1024)]
  let t := (t.setReg rHLSTAT 0).setReg rHLFLAG 0
  let t := (t.setReg rHLWERR 0).sets [(fHLSTAT_REFOK, b2n s.hl.refLock), (fHLSTAT_SCRRDY, b2n rdy)]
  let t := if was && down then (t.raise [fHLFLAG_LINKDOWN]).count fHLCNT_LINKDN
    else t.sets [(fHLSTAT_LINKUP, b2n was), (fHLSTAT_GEN2, gen)]
  let t := (t.raise fs).causeSet 9
  -- A core's read that was on the link ends as a failed access (R226).
  match s.hl.winAsk with
  | some (c, a) =>
    (t.sets [(fHLFLAG_WINERR, 1), (fHLWERR_OFFSET, a % 0x10000000), (fHLWERR_WRITE, 0)]).setHl
      (fun h => { h with winAns := some (c, a, none) })
  | none => t

/-- PERST (R222, R228): PERST_N low. -/
def execPerst (s : State) : Host.Outcome State Fault Refusal :=
  .next (if s.role = .chapter then (s.setHl (fun h => { h with perstLow := true })).hlReset [fHLFLAG_PERST] true else s)

/-- HOT_RESET (R222). -/
def execHotReset (s : State) : Host.Outcome State Fault Refusal :=
  .next (if s.role = .chapter && s.on fHLSTAT_LINKUP then s.hlReset [fHLFLAG_HOTRST] true else s)

/-- FUNCTION_LEVEL_RESET (R222): the link stays up. -/
def execFunctionLevelReset (s : State) : Host.Outcome State Fault Refusal :=
  .next (if s.role = .chapter && s.on fHLSTAT_LINKUP then s.hlReset [fHLFLAG_FLR] false else s)

/-- DL_DOWN (R222, R229): the link leaves DL_Active. -/
def execDlDown (s : State) : Host.Outcome State Fault Refusal :=
  .next (if s.role = .chapter && s.on fHLSTAT_LINKUP then s.hlReset [fHLFLAG_LINKDOWN] true else s)

/-- REFCLK_LOSS (R227): REFLOST, and the link goes down. -/
def execRefclkLoss (s : State) : Host.Outcome State Fault Refusal :=
  .next (
    if s.role != .chapter then s
    else
      let t := s.setHl (fun h => { h with refLock := false })
      if s.on fHLSTAT_LINKUP then t.hlReset [fHLFLAG_REFLOST] true else (t.setFld fHLSTAT_REFOK 0).raise [fHLFLAG_REFLOST])

/-- VPHY_LOST (R228): the PHY is held in reset, and a link that was up goes down. -/
def execVphyLost (s : State) : Host.Outcome State Fault Refusal :=
  .next (
    if s.role != .chapter then s
    else
      let t := s.setHl (fun h => { h with vphyGood := false })
      if s.on fHLSTAT_LINKUP then t.hlReset [fHLFLAG_LINKDOWN] true else t)

/-! ### The link's own events (R220, R227 to R230) -/

/-- PERST_RISE (R228, R220): PWAKE_N is released, and training may start. -/
def execPerstRise (s : State) : Host.Outcome State Fault Refusal :=
  .next (
    if s.role = .chapter then
      { s.setHl (fun h => { h with perstLow := false }) with pads := { s.pads with pwakeLow := false } }
    else s)

/-- REFCLK_LOCK (R227): the PHY PLL has locked. -/
def execRefclkLock (s : State) : Host.Outcome State Fault Refusal :=
  .next (if s.role = .chapter then (s.setHl (fun h => { h with refLock := true })).setFld fHLSTAT_REFOK 1 else s)

/-- VPHY_GOOD (R228). -/
def execVphyGood (s : State) : Host.Outcome State Fault Refusal :=
  .next (if s.role = .chapter then s.setHl (fun h => { h with vphyGood := true }) else s)

/-- Whether the link can train (R228, R229). -/
def State.canTrain (s : State) : Bool := s.role = .chapter && !s.hl.perstLow && s.hl.vphyGood && s.hl.refLock

/-- LINK_UP (R229): training has reached L0. -/
def execLinkUp (gen2 : Bool) (s : State) : Host.Outcome State Fault Refusal :=
  .next (
    if s.canTrain && !s.on fHLSTAT_LINKUP then
      (s.sets [(fHLSTAT_LINKUP, 1), (fHLSTAT_GEN2, b2n gen2), (fHLSTAT_LPM, 0)]).hostResume
    else s)

/-- TRAINFAIL (R229): 1 s of training with REFCLK locked. -/
def execTrainfail (s : State) : Host.Outcome State Fault Refusal :=
  .next (
    if s.role = .chapter && !s.hl.perstLow && s.hl.refLock && !s.on fHLSTAT_LINKUP then s.raise [fHLFLAG_TRAINFAIL] else s)

/-- LINK_RETRAIN (R229): a recovery from L0. -/
def execLinkRetrain (s : State) : Host.Outcome State Fault Refusal :=
  .next (if s.role = .chapter && s.on fHLSTAT_LINKUP then s.count fHLCNT_RETRAIN else s)

/-- LINK_L1 (R220): the link enters or leaves L0s or L1. -/
def execLinkL1 (lpm : Fin 3) (s : State) : Host.Outcome State Fault Refusal :=
  .next (if s.role = .chapter && s.on fHLSTAT_LINKUP then s.setFld fHLSTAT_LPM lpm.val else s)

/-- Whether CLKREQ_N is pulled low (R220): released only in L1 with Enable Clock Power Management. -/
def State.clkreqLow (s : State) : Bool := !(s.fld fHLSTAT_LPM = 2 && s.hl.clkPm)

/-- LINK_ERROR (R230): logged in Advanced Error Reporting, whose header log keeps the first error. -/
def execLinkError (uncorrectable : Bool) (header : Nat) (s : State) : Host.Outcome State Fault Refusal :=
  .next (
    if s.role = .chapter then
      let t := s.setHl (fun h => { h with aer := if h.aer.isEmpty then [header] else h.aer })
      t.raise [if uncorrectable then fHLFLAG_AERUNC else fHLFLAG_AERCOR]
    else s)

/-! ### Device power states (R220) -/

/-- The function enters D3hot: the Scriptorium stops fetching and writing. -/
def State.d3Enter (s : State) : State := s.setFld fHLSTAT_D3 1

/-- D3HOT_ENTRY (R220). -/
def execD3hotEntry (s : State) : Host.Outcome State Fault Refusal :=
  .next (if s.role = .chapter && s.on fHLSTAT_LINKUP then s.d3Enter else s)

/-- PME_TURN_OFF (R220): the link goes to L2/L3 Ready; a PME that stands is signalled by PWAKE_N. -/
def execPmeTurnOff (s : State) : Host.Outcome State Fault Refusal :=
  .next (
    if s.role = .chapter && s.on fHLSTAT_LINKUP then
      let t := (s.setFld fHLSTAT_LPM 3).setHl (fun h => { h with readyL23 := true })
      if s.hl.pmeEn && s.hl.pmeStatus then { t with pads := { t.pads with pwakeLow := true } } else t
    else s)

/-! ### Configuration space (R214 to R216) -/

/-- A DWORD of the standard header (Table 10.2; the places are those of the PCI header, Log 29). What the spec does not give, the
capability pointer, reads as a free value. -/
def State.cfgRead (s : State) (k : Nat) : Nat :=
  let rev := ((s.sysid % 256 + 256 - 0x43 + 0xC) % 16) * 16 + s.sysid / 256 % 16
  let bar := fun (n : Nat) => (rget s.hl.cfg (4 + n)).toNat
  match k with
  | 0 => 0x7420 * 2 ^ 16 + 0x1F5C
  | 1 => b2n (bitAt (rget s.hl.cfg 1).toNat 1) * 2 + b2n s.hl.bme * 4 + 2 ^ 20
  | 2 => rev + 0x118000 * 2 ^ 8
  | 4 => bar 0 / 0x10000 * 0x10000 + 4
  | 5 => bar 1
  | 6 => bar 2 / 0x40000 * 0x40000 + 4
  | 7 => bar 3
  | 11 => (s.reg rHLSSID).toNat
  | 13 => s.free? % 256
  | k => if k < 16 then 0 else s.free? % 2 ^ 32

/-- A configuration request acts. -/
def State.cfgAct (s : State) (q : CfgReq) : State :=
  match q with
  | .read k => (s.emit (.cfgReply (s.cfgRead k))).used 1
  | .serial up => s.emit (.cfgReply (if up then s.uid / 2 ^ 32 else s.uid % 2 ^ 32))
  | .command mem bme =>
    (s.setHl (fun h => { h with cfg := rput h.cfg 1 (if mem then 2 else 0), bme := bme })).hostResume
  | .bar n v => s.setHl (fun h => { h with cfg := rput h.cfg (4 + n.val) v })
  | .msix en mask => s.setHl (fun h => { h with msixEn := en, msixMask := mask })
  | .power d3 pmeEn clear =>
    let t := s.setHl (fun h => { h with pmeEn := pmeEn, pmeStatus := h.pmeStatus && !clear })
    if d3 then t.d3Enter else (t.setFld fHLSTAT_D3 0).hostResume
  | .link pm => s.setHl (fun h => { h with clkPm := pm })
  | .other k v => s.setHl (fun h => { h with cfg := rput h.cfg (256 + k) v })

/-- CONFIG_REQUEST (R216): Retry Status while CFGRDY = 0. -/
def execConfigRequest (q : CfgReq) (s : State) : Host.Outcome State Fault Refusal :=
  .next (
    if s.role = .chapter && s.on fHLSTAT_LINKUP then
      if s.on fHLCTL_CFGRDY then s.cfgAct q else s.emit .cfgRetry
    else s)

/-! ### BAR0 (R217, R219, R254) -/

/-- An entry of the MSI-X table; a vector never written is masked. -/
def State.vecAt (s : State) (n : Nat) : Vec := s.hl.vecs.getD n ⟨0, 0, true⟩

/-- The 64 entries with one replaced. -/
def State.vecPut (s : State) (n : Nat) (e : Vec) : State :=
  s.setHl (fun h => { h with vecs := ((List.range 64).map (fun i => h.vecs.getD i ⟨0, 0, true⟩)).set n e })

/-- A DWORD of BAR0 as the host reads it. -/
def State.bar0Read (s : State) (o : Nat) : Nat :=
  if o < 0x1000 then (s.reg (0x4000C000 + o)).toNat
  else if o < 0x2000 then (s.reg (0x4000D000 + (o - 0x1000))).toNat
  else if 0xE000 ≤ o ∧ o < 0xE400 then
    let e := s.vecAt ((o - 0xE000) / 16)
    match o % 16 with
    | 0 => e.addr % 2 ^ 32
    | 4 => e.addr / 2 ^ 32
    | 8 => e.data
    | _ => b2n e.mask
  else if o = 0xF000 then ((List.range 32).map (fun i => if s.hl.pba.contains i then 2 ^ i else 0)).sum
  else if o = 0xF004 then ((List.range 32).map (fun i => if s.hl.pba.contains (32 + i) then 2 ^ i else 0)).sum
  else 0

/-- A DWORD write of the host in BAR0: the host link block ignores it; the Scriptorium registers take it by their access codes, with
SCRTBASE writable from the host alone (R254). -/
def State.bar0Write (s : State) (o v : Nat) : State :=
  if 0x1000 ≤ o ∧ o < 0x2000 then
    let a := 0x4000D000 + (o - 0x1000)
    if a = rSCRTBASEL then s.setFld fSCRTBASEL_BASE (v / 2 ^ 12)
    else if a = rSCRTBASEH then s.setFld fSCRTBASEH_BASE v
    else s.plainWrite a (BitVec.ofNat 32 v)
  else if 0xE000 ≤ o ∧ o < 0xE400 then
    let n := (o - 0xE000) / 16
    let e := s.vecAt n
    s.vecPut n (match o % 16 with
      | 0 => { e with addr := e.addr / 2 ^ 32 * 2 ^ 32 + v % 2 ^ 32 }
      | 4 => { e with addr := e.addr % 2 ^ 32 + v % 2 ^ 32 * 2 ^ 32 }
      | 8 => { e with data := v % 2 ^ 32 }
      | _ => { e with mask := bitAt v 0 })
  else s

/-- BAR0_ACCESS (R217): a read of `len` bytes, or a write of the bytes given, of 4 or 8 bytes, DWORD-aligned; anything else is an
Unsupported Request. -/
def execBar0Access (off len : Nat) (data : Option (List Byte)) (s : State) : Host.Outcome State Fault Refusal :=
  .next (
    let n := match data with
      | some bs => bs.length
      | none => len
    if s.role != .chapter || !s.on fHLSTAT_LINKUP then s
    else if off % 4 != 0 || !(n = 4 || n = 8) || 0x10000 < off + n then s.emit .unsupported
    else
      match data with
      | none => s.emit (.reply off (((List.range (n / 4)).map (fun i => leBytes 4 (s.bar0Read (off + 4 * i)))).flatten))
      | some bs =>
        (List.range (n / 4)).foldl (fun t i => t.bar0Write (off + 4 * i) (leNat ((bs.drop (4 * i)).take 4))) s)

/-- MSIX_RELEASE (R219): a pending vector that has become deliverable sends one message. -/
def execMsixRelease (v : Fin 64) (s : State) : Host.Outcome State Fault Refusal :=
  .next (
    if s.hl.pba.contains v.val && s.vecReady v.val then
      (s.setHl (fun h => { h with pba := h.pba.filter (· != v.val) })).msixSend v.val
    else s)

/-! ### The host window (R221, R226) -/

/-- Whether window accesses work: WINEN, Bus Master Enable, the link in L0, L0s or L1. -/
def State.winReady (s : State) : Bool :=
  s.on fHLCTL_WINEN && s.hl.bme && s.on fHLSTAT_LINKUP && s.fld fHLSTAT_LPM != 3

/-- A failed access through the window (R221). -/
def State.winFail (s : State) (a : Nat) (write : Bool) : State :=
  s.sets [(fHLFLAG_WINERR, 1), (fHLWERR_OFFSET, a % 0x10000000), (fHLWERR_WRITE, b2n write)]

/-- The host address of a window address. -/
def State.winAddr (s : State) (a : Nat) : Nat :=
  s.fld fHLWBASEH_BASE * 2 ^ 32 + s.fld fHLWBASEL_BASE * 2 ^ 28 + (a - 0x60000000)

/-- A store through the window: a posted write, or discarded with WINERR. -/
def State.winWrite (s : State) (a : Nat) (bs : List Byte) : State :=
  if s.winReady then s.emit (.hostWrite (s.winAddr a) bs) else s.winFail a true

/-- WINDOW_READ_DONE (R221): the read that a core waits for completes with its bytes, or fails. The load takes the answer when it
is issued again; an answer it has kept, the header of a TRESTORE, stays in front. -/
def execWindowReadDone (data : Option (List Byte)) (s : State) : Host.Outcome State Fault Refusal :=
  .next (
    match s.hl.winAsk with
    | some (c, a) =>
      let kept := match s.hl.winAns with
        | some (_, _, some bs) => bs
        | _ => []
      let t := s.setHl (fun h => { h with winAsk := none, winAns := some (c, a, data.map (fun bs => kept ++ bs)) })
      if data.isNone then t.winFail a false else t
    | none => s)

end Sys2Proof.Machine
end

