-- ==== Sys2Proof/Machine/MemCtl.lean ====
section
/-! DEFINITION. Memory control, block 14, and the sample-buffer windows, block 15 (R330, R333, R337, R343, R347, R349,
R353), and the home nodes' transactions as they are requested (R351 to R357). -/

namespace Sys2Proof.Machine

open Sys2Proof

/-! ### Block 14 -/

/-- Every MRAM line leaves every data cache (R353); such lines are clean. -/
def State.dropMram (s : State) : State :=
  let isM := fun (x : CLine) => decide (region x.base = .mram)
  let t := [CacheId.dec, .cant].foldl (fun t c =>
    ((t.lines c).filter isM).foldl (fun u x => u.unreserveOwn c x.base) t) s
  (t.setLines .dec ((t.lines .dec).filter (fun x => !isM x))).setLines .cant ((t.lines .cant).filter (fun x => !isM x))

/-- A write of a register of block 14: any write of MRERRADDR clears it (R349); one of MRSEGSAC or MRSEGNRO invalidates the cached
MRAM lines (R353). -/
def State.memWrite (s : State) (a : Nat) (v : Word) : State :=
  if a = rMRERRADDR then s.setFld fMRERRADDR_ADDR 0
  else if a = rMRSEGSAC ∨ a = rMRSEGNRO then (s.plainWrite a v).dropMram
  else s.plainWrite a v

/-- A write of a register of block 14 from a world. A Nave write of MRSEGSAC or MRSEGNRO does not act. -/
def State.memBus (s : State) (w : World) (a : Nat) (v : Word) : State :=
  let r := s.vet w a v
  if w = .nave ∧ (a = rMRSEGSAC ∨ a = rMRSEGNRO) then r.st else r.st.memWrite a r.v

/-- MRSEG_WRITE (R353): a write of MRSEGSAC or of MRSEGNRO. -/
def execMrsegWrite (w : World) (nro : Bool) (v : Word) (s : State) : Host.Outcome State Fault Refusal :=
  .next (s.memBus w (if nro then rMRSEGNRO else rMRSEGSAC) v)

/-- MRERRADDR_CLEAR (R349). -/
def execMrerraddrClear (w : World) (s : State) : Host.Outcome State Fault Refusal := .next (s.memBus w rMRERRADDR 0)

/-- MRAM_WRITE_DONE (R330): the word write of a half ends. -/
def execMramWriteDone (h : Fin 2) (s : State) : Host.Outcome State Fault Refusal := .next (s.mramDone h.val)

/-- MRAM_POWER_DOWN (R330): a half has had no access for 256 bus cycles; not while it is being written. -/
def execMramPowerDown (h : Fin 2) (s : State) : Host.Outcome State Fault Refusal :=
  .next (if s.on (fBUSY h.val) then s else s.setFld (fUP h.val) 0)

/-! ### Block 15 -/

/-- Whether a window may be enabled (R347), and its SIZE lies in the range of R337. -/
def State.winFits (s : State) (n : Nat) : Bool :=
  decide (0 < s.winSize n) && decide (s.winBase n + s.winSize n ≤ 65536) &&
    (List.range 3).all (fun m => m = n || !s.on (fSBWCFG_EN m) ||
      decide (s.winBase n + s.winSize n ≤ s.winBase m) || decide (s.winBase m + s.winSize m ≤ s.winBase n))

/-- A write of SBWnCFG (R343, R347): BASE is fixed while EN = 1; setting EN empties the window and keeps SBWnDROP. -/
def State.winCfg (s : State) (n : Nat) (v : Word) : State :=
  let was := s.on (fSBWCFG_EN n)
  let base := s.fld (fSBWCFG_BASE n)
  let busy := was && fldOf v (fSBWCFG_BASE n) != base
  let t := s.plainWrite (rSBWCFG n) (if was then putFld v (fSBWCFG_BASE n) base else v)
  let t := if busy then t.raise [fSBFLAG_CFGBUSY] else t
  if t.on (fSBWCFG_EN n) && !was then
    if t.winFits n then (t.sets [(fSBWWP_WP n, 0), (fSBWRP_RP n, 0)]).winSync n
    else (t.setFld (fSBWCFG_EN n) 0).raise [fSBFLAG_CFGERR]
  else t.winSync n

/-- A write of SBWnRP (R343): a value that is not between RP and WP, modulo 2 × SIZE, is ignored with RPBAD. -/
def State.winRp (s : State) (n : Nat) (v : Word) : State :=
  let m := 2 * s.winSize n
  let p := fldOf v (fSBWRP_RP n)
  let rp := s.fld (fSBWRP_RP n)
  if (p < m || p = rp) && decide ((p + m - rp) % m ≤ s.winFilled n) then (s.setFld (fSBWRP_RP n) p).winSync n
  else s.raise [fSBFLAG_RPBAD]

/-- A write of a register of block 15. -/
def State.sbWrite (s : State) (a : Nat) (v : Word) : State :=
  let n := (a - rSBWCFG 0) / 0x20
  if 3 ≤ n then s.plainWrite a v
  else if a = rSBWCFG n then s.winCfg n v
  else if a = rSBWSIZE n then
    if s.on (fSBWCFG_EN n) then
      if fldOf v (fSBWSIZE_SIZE n) = s.fld (fSBWSIZE_SIZE n) then s else s.raise [fSBFLAG_CFGBUSY]
    else s.plainWrite a v
  else if a = rSBWRP n then s.winRp n v
  else s.plainWrite a v

/-- A write of a register of block 15 from a world. -/
def State.sbBus (s : State) (w : World) (a : Nat) (v : Word) : State :=
  let r := s.vet w a v
  r.st.sbWrite a r.v

/-- WINDOW_ENABLE (R343, R347): SBWnCFG is written with EN = 1. -/
def execWindowEnable (w : World) (n : Fin 3) (s : State) : Host.Outcome State Fault Refusal :=
  .next (s.sbBus w (rSBWCFG n.val) (putFld (s.reg (rSBWCFG n.val)) (fSBWCFG_EN n.val) 1))

/-- WINDOW_DISABLE (R343): SBWnCFG is written with EN = 0. A capture in progress keeps the window active until it ends. -/
def execWindowDisable (w : World) (n : Fin 3) (s : State) : Host.Outcome State Fault Refusal :=
  .next (s.sbBus w (rSBWCFG n.val) (putFld (s.reg (rSBWCFG n.val)) (fSBWCFG_EN n.val) 0))

/-- SBW_RP_WRITE (R343). -/
def execSbwRpWrite (w : World) (n : Fin 3) (v : Word) (s : State) : Host.Outcome State Fault Refusal :=
  .next (s.sbBus w (rSBWRP n.val) v)

/-! ### Transactions (R351 to R357) -/

/-- Whether a core's cache takes part: Cantoris only while it is not OFF (R369), and neither while its cache or the home nodes are
under a self-test slice (R371). -/
def State.cacheUp (s : State) (c : CoreId) : Bool :=
  !s.inSlice 14 15 && (match c with
    | .decani => !s.inSlice 0 7
    | .cantoris => s.fld fCANTSTAT_STATE != 0 && !s.inSlice 8 13)

/-- READ_SHARED (R354): a load miss of a core asks for the line of an address. An access its world may not make is answered with a
bus error, and no line moves. -/
def execReadShared (c : CoreId) (a : Nat) (s : State) : Host.Outcome State Fault Refusal :=
  .next (
    if !s.cacheUp c then s
    else if (region a).type = MemType.normal ∨ (region a).type = MemType.mram then
      let chk := s.busCheck (.core c) (s.core c).world false a 0
      if chk.1 && (findLine (s.lines (cacheOf c)) (lineOf a)).isNone then (chk.2.readShared (cacheOf c) (lineOf a)).2 else chk.2
    else s)

/-- READ_UNIQUE (R354): a store miss of a core to Normal memory asks for the line. -/
def execReadUnique (c : CoreId) (a : Nat) (s : State) : Host.Outcome State Fault Refusal :=
  .next (
    if !s.cacheUp c then s
    else if (region a).type = MemType.normal then
      let chk := s.busCheck (.core c) (s.core c).world true a 0
      if chk.1 && (findLine (s.lines (cacheOf c)) (lineOf a)).isNone then chk.2.readUnique (cacheOf c) (lineOf a) else chk.2
    else s)

/-- UPGRADE (R354, R356): a store to a line held in S asks for ownership; a copy that is gone meanwhile makes it a ReadUnique. -/
def execUpgrade (c : CoreId) (a : Nat) (s : State) : Host.Outcome State Fault Refusal :=
  .next (
    if !s.cacheUp c then s
    else if (region a).type = MemType.normal then
      let chk := s.busCheck (.core c) (s.core c).world true a 0
      if !chk.1 then chk.2
      else
        match findLine (s.lines (cacheOf c)) (lineOf a) with
        | some x => if x.st = .shared then chk.2.upgrade (cacheOf c) (lineOf a) else chk.2
        | none => chk.2.readUnique (cacheOf c) (lineOf a)
    else s)

/-- MAKE_UNIQUE (R352, R354): the Scriptorium writes a whole line of a hand-off entry. -/
def execMakeUnique (line : Fin 512) (data : List Byte) (s : State) : Host.Outcome State Fault Refusal :=
  .next (
    if s.role != .chapter || s.inSlice 14 25 then s
    else s.makeUnique .desc (0x2007C000 + 32 * line.val) (padTo 32 data))

/-- READ_ONCE (R354): an instruction fill of a core, or a word that a requester without a cache reads as Sacristy (an engine) or
as the debug port does in Nave; no cache line changes. -/
def execReadOnce (by_ : Option CoreId) (a : Nat) (s : State) : Host.Outcome State Fault Refusal :=
  .next (
    if s.inSlice 14 15 then s
    else
      match by_ with
      | some c =>
        if s.cacheUp c && ((region a).type = MemType.normal || (region a).type = MemType.mram) then (s.fetchLine c (lineOf a)).2
        else s
      | none =>
        let b := a / 4 * 4
        if (region a).type = MemType.normal ∨ (region a).type = MemType.mram then
          let chk := s.busCheck .debug .nave false b 0
          if !chk.1 then chk.2
          else
            let r := chk.2.readOnce 3 b 4
            if r.1 then r.2.2.emit (.reply b r.2.1) else r.2.2
        else s)

/-- WRITE_UNIQUE (R354): a core's word store to MRAM, or a word that a requester without a cache writes in Nave to Normal memory or
MRAM. -/
def execWriteUnique (by_ : Option CoreId) (a : Nat) (v : Word) (s : State) : Host.Outcome State Fault Refusal :=
  .next (
    let b := a / 4 * 4
    let bs := leBytes 4 v.toNat
    if s.inSlice 14 15 then s
    else
      match by_ with
      | some c =>
        if s.cacheUp c && (region a).type = MemType.mram then (s.putPart c (s.core c).world b bs).2 else s
      | none =>
        if (region a).type = MemType.normal ∨ (region a).type = MemType.mram then
          let chk := s.busCheck .debug .nave true b v.toNat
          if chk.1 then chk.2.writeUnique none 3 b bs else chk.2
        else s)

/-- The cache of an agent number. -/
def agentCache (n : Fin 3) : CacheId :=
  match n with
  | 0 => .dec
  | 1 => .cant
  | 2 => .desc

/-- WRITE_BACK (R354): a dirty line leaves its cache for its home. -/
def execWriteBack (agent : Fin 3) (a : Nat) (s : State) : Host.Outcome State Fault Refusal :=
  .next (
    if s.inSlice 14 15 then s
    else
      match findLine (s.lines (agentCache agent)) (lineOf a) with
      | some x => if x.st = .modified then s.writeBackOut (agentCache agent) (lineOf a) else s
      | none => s)

end Sys2Proof.Machine
end

