-- ==== Sys2Proof/Machine/SlicePace.lean ====
section
/-! DEFINITION. Which self-test slice may run, and how one comes to wait for its start (R538, R543, R549). -/

namespace Sys2Proof.Machine

open Sys2Proof

/-- Change self-test's own state. -/
def State.stSet (s : State) (f : SelfTest → SelfTest) : State := { s with st := f s.st }

/-- Whether a slice is applicable (Table 25.1): its role, its region powered and not retired. -/
def State.sliceApplies (s : State) (n : Nat) : Bool :=
  let small := s.role = .cell || s.role = .loop
  if n < 8 then true
  else if n < 14 then s.role != .loop && s.fld fCANTSTAT_STATE != 0
  else if n < 16 then true
  else if n < 24 then s.role = .chapter && !s.laneFenced (n - 16)
  else if n < 26 then s.role = .chapter
  else if n < 32 then true
  else if n < 36 then !s.on fSACSTAT_HELD
  else if n < 48 then small
  else if n < 50 then s.role = .loop
  else if n < 58 then small
  else if n < 62 then true
  else if n = 62 then s.role != .loop
  else n = 63

/-- A slice waits for its start: BUSY with PHASE 0 and no retry yet. -/
def State.sliceWait (s : State) (n : Nat) (byPace : Bool) : State :=
  (s.sets [(fSTSTAT_BUSY, 1), (fSTSTAT_PHASE, 0), (fSTSTAT_RETRIES, 0)]).stSet (fun x => { x with
    cur := some n
    running := false
    byPace := byPace })

/-- The slice at the cursor, those that are not applicable passed over (R543). -/
def State.cursorSlice (s : State) : Nat :=
  (((List.range 64).map (fun i => (s.st.cursor + i) % 64)).find? s.sliceApplies).getD 63

/-- The pace's time has come: Rhoco starts the slice at the cursor; while a slice is under way the pace starts none, since only
one runs at a time (R543, R547). -/
def State.paceNow (s : State) : State :=
  if s.rhocoUp && s.rst.booted && s.st.cur.isNone then
    let n := s.cursorSlice
    (s.stSet (fun x => { x with cursor := n })).sliceWait n true
  else s

end Sys2Proof.Machine
end

