-- ==== Sys2Proof/Machine/Sleep.lean ====
section
/-! DEFINITION. Sleeping and waking (chapter 4): WAIT, the entry to each state, alarms, GP wakes, and block 4. -/

namespace Sys2Proof.Machine

open Sys2Proof

/-! ### What blocks an entry (R82, Table 4.4) -/

/-- Whether the block of a bit of Table 4.4 is active. Bit 8 asks for CRYPT and OFF whether Cantoris is powered. -/
def State.busyBit (s : State) (deep : Bool) (b : Nat) : Bool :=
  match b with
  | 8 => if deep then s.on fCANTSTAT_STATE else s.cantRuns
  | 9 => s.on fSFESTAT_RUN || s.on fSFEEXC_EN
  | 10 => s.on fFONTSTAT_RUN
  | 11 => (List.range 8).any (fun n => s.chRuns n)
  | 12 => s.on fMOTSTAT_GRUN
  | 13 => s.motBeyond
  | 14 => s.on fRGCTL_RUN
  | 15 => s.on fFICTL_EN
  | _ => false

/-- SLPSTAT.BUSY for a target: the bits of Table 4.4 that block it. -/
def State.busyMask (s : State) (p : PState) : Nat :=
  let deep := decide (p = .crypt ∨ p = .off)
  ((List.range 8).map (fun i => if s.busyBit deep (8 + i) && (deep || i != 6) then 2 ^ i else 0)).sum

/-- The block of a bit of Table 4.4. -/
def busyBlock (b : Nat) : Nat :=
  match b with
  | 8 => 7
  | 9 => 17
  | 10 => 19
  | 11 => 22
  | 12 | 13 => 20
  | 14 => 21
  | _ => 23

/-- Whether a block the Sacristy has claimed is active (R82 step 4). -/
def State.claimActive (s : State) : Bool :=
  (List.range 8).any (fun i => s.claimed (busyBlock (8 + i)) && s.busyBit false (8 + i))

/-- The target of PWRCTL.STATE (Table 4.10): none for DOZE and the values that act as DOZE. -/
def targetOf (v : Nat) : Option PState :=
  match v with
  | 2 => some .cloister
  | 3 => some .crypt
  | 4 => some .off
  | _ => none

/-- The states a role may use (Table 4.2). -/
def stateInRole (r : Role) (p : PState) : Bool :=
  match p with
  | .run | .doze => true
  | .cloister => r = .cell || r = .loop
  | .crypt | .off => r = .cell

/-! ### Entry (R84) -/

/-- E3: the store buffers drain, every dirty line is written back and the caches are invalidated. -/
def State.cleanAll (s : State) : State :=
  let t := (s.drainAll .decani).drainAll .cantoris
  let t := ((t.flushCache .dec).flushCache .cant).flushCache .desc
  { t with dec := { t.dec with ic := [] }, cant := { t.cant with ic := [] } }

/-- E4: the pads of SLPHOLD are held, every other pad goes to its reset state. -/
def State.padsSleep (s : State) : State :=
  let new := (List.range 16).filter (fun n => (s.fld fSLPHOLD_HOLDMAP).testBit n && !s.on (fGPCFG_HOLD n))
  let t := new.foldl (fun t n => (t.padHold n).setFld (fGPCFG_HOLD n) 1) s
  { t with pads := { t.pads with asleep := true }, slp := { t.slp with savedHold := new } }

/-- E5: the PLL and the HF RC stop; CLKSEL and PLLEN become 0 (R110). -/
def State.clocksSleep (s : State) : State :=
  let t := { s with slp := { s.slp with savedPllen := s.fld fCLKCTL_PLLEN, savedSel := (s.reg rCLKSEL).toNat % 4 } }
  let t := t.sets [(fCLKCTL_PLLEN, 0), (fCLKSEL_ROOT, 0), (fCLKSEL_CDIV, 0), (fCLKSTAT_ROOTNOW, 0), (fCLKSTAT_CDIVNOW, 0),
    (fCLKSTAT_PLLLOCK, 0), (fCLKSTAT_HFOK, 0), (fCLKSTAT_SWPEND, 0)]
  let t := t.syncNow
  { t with clk := { t.clk with heldSel := none, heldRestored := false, pllRun := false } }

/-- Entry to a state below DOZE, up to E5. An MRAM write in progress ends first (R82). Until E6 a wake abandons it (R90). -/
def State.enter (s : State) (p : PState) : State :=
  let t := ((((s.mramDone 0).mramDone 1).cleanAll).padsSleep).clocksSleep
  let t := { t with slp := { t.slp with st := .doze, entering := some p, deferred := none }, dec := { t.dec with waiting := true } }
  t.setFld fSLPSTAT_DEFERRED 0

/-- E6 and E7: the point of no return (R84). OFF loses everything but MRAM and the latched role (Table 4.1): what it leaves is
reset again on exit. -/
def State.passE6 (s : State) : State :=
  match s.slp.entering with
  | none => s
  | some .off =>
    let t := s.resetBrownOut
    { t with
      slp := { st := .off }
      pwr := { t.pwr with fed := false }
      pads := { t.pads with held := [], asleep := false } }
  | some p =>
    let t := s.setFld fPWRSRC_VCOREOK 0
    { t with slp := { t.slp with st := p, entering := none } }

/-- DOZE: Decani halts. -/
def State.doze (s : State) : State :=
  { s with slp := { s.slp with st := .doze }, dec := { s.dec with waiting := true } }

/-- The checks of R82 when Decani's WAIT retires, in order. While a self-test slice runs the entry waits at E2 (R547). -/
def State.waitDecani (s : State) : State :=
  if (s.fld fWAKESRC_SRC &&& s.fld fWAKEEN_ALL) != 0 || s.anyPending .decani then s.setFld fSLPSTAT_ABORTED 1
  else
    match targetOf (s.fld fPWRCTL_STATE) with
    | none => s.doze
    | some p =>
      if !stateInRole s.role p then (s.sets [(fSLPSTAT_REFUSED, 1), (fSLPSTAT_NOTROLE, 1), (fSLPSTAT_BUSY, 0)]).doze
      else
        let m := s.busyMask p
        if m != 0 then (s.sets [(fSLPSTAT_REFUSED, 1), (fSLPSTAT_BUSY, m)]).doze
        else if s.claimActive then
          let t := (s.setFld fSLPSTAT_DEFERRED 1).doze
          { t with slp := { t.slp with deferred := some p } }
        else if s.st.running then
          let t := s.doze
          { t with slp := { t.slp with deferred := some p } }
        else s.enter p

/-- WAIT (R82, R257, R271): user code takes PRIV. On Cantoris only Cantoris halts, until one of its enabled sources pends. -/
def execWait (i : Issue) (s : State) : Host.Outcome State Fault Refusal :=
  .next (s.instr i (fun _ => 1) (fun t =>
    if !(t.core i.core).sup then (t, privTrap (wordRY 0 0 4 0))
    else match i.core with
      | .decani => (t.waitDecani, .seq)
      | .cantoris =>
        if t.anyPending .cantoris then (t, .seq)
        else ({ t.setFld fCANTSTAT_STATE 4 with cant := { t.cant with waiting := true } }, .seq)))

/-- DEFERRED_ENTRY_START (R82): no claimed block is active any longer, and no wake has come. -/
def execDeferredEntryStart (s : State) : Host.Outcome State Fault Refusal :=
  .next (
    match s.slp.deferred with
    | some p => if s.slp.st = .doze && !s.claimActive && !s.st.running then s.enter p else s
    | none => s)

/-! ### Wakes -/

/-- ALARM_FIRE (R80): an armed alarm's time is no longer in the future at a tick. ALM2 is the self-test pace of Rhoco (R543). -/
def execAlarmFire (n : Fin 3) (s : State) : Host.Outcome State Fault Refusal :=
  .next (
    let t := s.fld (fWAKEALML_TIME n.val) + 2 ^ 32 * s.fld (fWAKEALMH_TIME n.val)
    if s.on (fWAKEALMH_ARM n.val) && reached t s.now && s.slp.st != .off then
      let t := (s.setFld (fWAKEALMH_ARM n.val) 0).wake n.val
      if n = 2 then t.paceNow else t
    else s)

/-- GP_WAKE_EDGE (R79, R93): a filtered edge on GP0 to GP3 that WAKECFG selects. Inputs read 0 while VDDIO is low (R44). -/
def execGpWakeEdge (n : Fin 4) (rising : Bool) (s : State) : Host.Outcome State Fault Refusal :=
  .next (
    let sel := bitsOf (s.fld fWAKECFG_GPEDGE) (2 * n.val) 2
    let t := { s with pads := { s.pads with level := bitTo s.pads.level n.val rising } }
    if s.on fPADSTAT_VIOLOW then s
    else if bitAt sel (if rising then 0 else 1) then t.wake (7 + n.val) else t)

/-! ### Block 4 -/

/-- A write of WAKEALMnH (R80): ARM = 1 arms the alarm; LATE tells whether its time was past then. -/
def State.alarmWrite (s : State) (n : Nat) (v : Word) : State :=
  let t := s.plainWrite (rWAKEALMH n) v
  if fldOf v (fWAKEALMH_ARM n) = 1 then
    t.setFld (fWAKEALMH_LATE n) (b2n (past (t.fld (fWAKEALML_TIME n) + 2 ^ 32 * t.fld (fWAKEALMH_TIME n)) t.now))
  else t

/-- A write of a register of block 4: MWATCH starts or stops the motion watch (R472). -/
def State.slpWrite (s : State) (a : Nat) (v : Word) : State :=
  if a = rPWRCTL then (s.plainWrite a v).motWatch
  else if a = rWAKEALMH 0 then s.alarmWrite 0 v
  else if a = rWAKEALMH 1 then s.alarmWrite 1 v
  else if a = rWAKEALMH 2 then s.alarmWrite 2 v
  else s.plainWrite a v

/-- ALARM_ARM (R80): WAKEALMnH is written with ARM = 1 and bits 47:32 of the time. -/
def execAlarmArm (w : World) (n : Fin 3) (hi : BitVec 16) (s : State) : Host.Outcome State Fault Refusal :=
  .next (
    let r := s.vet w (rWAKEALMH n.val) (hi.setWidth 32 ||| 0x10000)
    r.st.slpWrite (rWAKEALMH n.val) r.v)

/-! ### Descriptors (R83) -/

/-- The number of WAKEEN and of the sleep policy among the record's settings (Log 5). -/
def itemPolicy : Nat := 20
def itemWakeen : Nat := 21

/-- Arm alarm `n` at a time, as Rhoco does it. -/
def State.armAt (s : State) (n t : Nat) : State :=
  (s.setFld (fWAKEALML_TIME n) (t % 2 ^ 32)).alarmWrite n (BitVec.ofNat 32 (t / 2 ^ 32 % 2 ^ 16 + 2 ^ 16))

/-- SLEEP (R83): the target state, MWATCH and an optional ALM0 offset, which the descriptor's ARGS carry in a layout the spec
does not give (Log 20). -/
def execSleep (d : Desc) (target : BitVec 3) (mwatch : Bool) (offset : Option Nat) (s : State) :
    Host.Outcome State Fault Refusal :=
  .next (s.runDesc d true (fun t =>
    if target = 0 || target.toNat > 4 || decide (2 ^ 32 < offset.getD 0) then t.fail stINVALID
    else if !((targetOf target.toNat).all (stateInRole t.role)) then t.fail stNOTROLE
    else
      let u := t.slpWrite rPWRCTL (putFld (putFld (t.reg rPWRCTL) fPWRCTL_STATE target.toNat) fPWRCTL_MWATCH (b2n mwatch))
      (match offset with
        | some k => u.armAt 0 ((u.now + k) % 2 ^ 48)
        | none => u).ok))

/-- SLEEP_POLICY (R83): the deepest state Rhoco chooses when idle, and WAKEEN; both are stored in the configuration record
(R132). ARGS has a layout the spec does not give (Log 20). -/
def execSleepPolicy (d : Desc) (deepest : BitVec 3) (wakeen : Word) (s : State) : Host.Outcome State Fault Refusal :=
  .next (s.runDesc d true (fun t =>
    if deepest = 0 || deepest.toNat > 4 then t.fail stINVALID
    else if !((targetOf deepest.toNat).all (stateInRole t.role)) then t.fail stNOTROLE
    else
      let u := t.slpWrite rWAKEEN wakeen
      let u := { u with slp := { u.slp with policy := deepest.toNat } }
      ((u.cfgStore itemPolicy deepest.toNat).cfgStore itemWakeen wakeen.toNat).cfgDone d stOK 0))

/-- WAKE_QUERY (R83). -/
def execWakeQuery (d : Desc) (s : State) : Host.Outcome State Fault Refusal :=
  .next (s.runDesc d true (fun t => t.query [rSLPSTAT, rWAKESRC, rBANKLOST, rWAKECNT, rWAKEALML 0, rWAKEALMH 0,
    rWAKEALML 1, rWAKEALMH 1, rWAKEALML 2, rWAKEALMH 2]))

end Sys2Proof.Machine
end

