-- ==== Sys2Proof/Machine/SelfTest.lean ====
section
/-! DEFINITION. Self-test in the field (chapter 25): the slices of block 24, and its opcodes. -/

namespace Sys2Proof.Machine

open Sys2Proof

/-! ### Counts, ends and completions -/

/-- Count one more of a slice's counts (R546). -/
def State.stTally (s : State) (n k : Nat) : State := s.stSet (fun x => x.tally n k)

/-- Rhoco posts an event of self-test. -/
def State.stEvent (s : State) (code : Nat) (data : List Byte) : State := if s.rhocoUp then s.event code data else s

/-- The counts are copied to MRAM segment 0 (R546); where they stand in it the spec does not say, so what the rest of the
segment reads as is a new free value (Log 30). -/
def State.stCopy (s : State) : State := (s.rewrote 0x1000C000 0x4000).stSet (fun x => { x with copied := x.counts })

/-- Of the statuses of ST_RUN: a confirmed failure first, then ST_PRECOND, then ST_WAITED (Log 31). -/
def stWorst (a b : Nat) : Nat :=
  if a = 0x7D ∨ b = 0x7D then 0x7D
  else if a = 0x7C ∨ b = 0x7C then 0x7C
  else if a = 0x7E ∨ b = 0x7E then 0x7E else 0

/-- The end of a slice with its retries: `status` is what it means for ST_RUN. The pace's alarm is armed again (R543), and ST_RUN
goes on with its next slice or completes (R550). -/
def State.sliceEnd (s : State) (status : Nat) (fail : Bool) : State :=
  let t := (s.sets [(fSTSTAT_BUSY, 0), (fSTSTAT_PHASE, 0)]).stSet (fun x => { x with
    cur := none
    running := false
    fails := x.fails + b2n (fail && x.req.isSome)
    worst := stWorst x.worst status })
  let t := if t.rst.booted && !t.on (fWAKEALMH_ARM 2) then t.armAt 2 ((t.now + 32768 * t.st.pace) % 2 ^ 48) else t
  match t.st.req with
  | none => t
  | some d =>
    match t.st.todo.find? t.sliceApplies with
    | some n => ((t.stSet (fun x => { x with todo := (x.todo.dropWhile (· != n)).drop 1 })).sliceWait n false)
    | none =>
      (t.stSet (fun x => { x with req := none, todo := [], fails := 0, worst := 0 })).complete d t.st.worst t.st.fails []

/-- The cursor goes one on after a slice of the pace (R543). -/
def State.cursorOn (s : State) : State :=
  if s.st.byPace then s.stSet (fun x => { x with cursor := (x.cursor + 1) % 64, skips := 0 }) else s

/-- A slice that started from a wait is skipped (R541 to R544). As a retry it is counted as abandoned. -/
def State.sliceSkip (s : State) (n cause : Nat) : State :=
  let again := s.on fSTSTAT_RETRIES
  let t := s.sets [(fSTSTAT_LAST, 3), (fSTSTAT_SKIPWHY, cause), (fSTFLAG_SKIP, 1)]
  let t := t.stTally n (if again then 4 else 3)
  let t :=
    if again then t.stSet (fun x => { x with skips := 0 })
    else if t.st.byPace then
      if t.st.skips = 2 then t.cursorOn.stEvent 0x0902 (leBytes 1 n ++ leBytes 1 cause)
      else t.stSet (fun x => { x with skips := x.skips + 1 })
    else t
  t.sliceEnd (if cause = 3 ∨ cause = 4 then 0x7E else 0x7C) false

/-! ### Starting -/

/-- Whether a slice still waits under R540 and Table 25.2. -/
def State.sliceWaits (s : State) (n : Nat) : Bool :=
  if 36 ≤ n && n ≤ 41 then s.on fSFESTAT_SCANBUSY
  else if 42 ≤ n && n ≤ 47 then
    s.font.phase != 0 || (match s.font.due with
      | some t => reached t (s.now + 41)
      | none => false)
  else if 50 ≤ n && n ≤ 53 then decide (3 ≤ s.mot.mode)
  else if 58 ≤ n && n ≤ 61 then s.chRuns (2 * (n - 58)) || s.chRuns (2 * (n - 58) + 1)
  else false

/-- The code of the rate of the part's walk. -/
def State.walkRate (s : State) : Nat := if s.role = .chapter then s.fld fWDSTAT_RATENOW else s.fld fLASTAT_RATE

/-- Why a slice that need not wait any longer does not start (R540, R542): VCORE 1, PLL 2, BUSY 3, RATE 4, DEBUG 5. -/
def State.sliceRefused (s : State) (n : Nat) : Option Nat :=
  if !s.on fPWRSRC_VCOREOK then some 1
  else if !s.on fCLKSTAT_PLLLOCK then some 2
  else if (n < 8 && s.dec.dbgHalt) || (8 ≤ n && n < 14 && s.cant.dbgHalt) then some 5
  else if 26 ≤ n && n ≤ 28 then
    if s.role = .loop then (if s.node.session then some 3 else none)
    else if 2 ≤ s.walkRate then some 4 else none
  else none

/-- Quiesce: method CL cleans and invalidates the data cache (R371, R540). -/
def State.sliceQuiesce (s : State) (n : Nat) : State :=
  if n = 6 ∨ n = 7 then s.flushCache .dec
  else if n = 12 ∨ n = 13 then s.flushCache .cant
  else s

/-- SLICE_START (R539, R540, R542): a slice that waits starts once its conditions hold; a precondition that fails skips it. It
stands in the pattern phase until its signature is compared. A slice that is no longer applicable is not run. -/
def execSliceStart (s : State) : Host.Outcome State Fault Refusal :=
  .next (
    match s.st.running, s.st.cur with
    | false, some n =>
      if !s.sliceApplies n then s.sliceEnd 0 false
      else if s.sliceWaits n then s
      else
        match s.sliceRefused n with
        | some c => s.sliceSkip n c
        | none =>
          let t := if s.on fSTSTAT_RETRIES then s else s.stTally n 0
          ((t.sliceQuiesce n).setFld fSTSTAT_PHASE 3).stSet (fun x => { x with running := true })
    | _, _ => s)

/-- SLICE_WAIT_TIMEOUT (R541): a slice has waited 1 s. -/
def execSliceWaitTimeout (s : State) : Host.Outcome State Fault Refusal :=
  .next (
    match s.st.running, s.st.cur with
    | false, some n => s.sliceSkip n 3
    | _, _ => s)

/-! ### Restoring -/

/-- The region of a slice at the Reset values of its registers (R548). -/
def State.regionReset (s : State) (n : Nat) : State :=
  if n < 8 then
    { s.used 16 with
      dec := { s.coreAfterReset Core.decaniReset with lockup := true } }
  else if n < 14 then
    (({ s.used 16 with cant := { s.coreAfterReset Core.off with lockup := true } }).setFld fCANTSTAT_STATE 7).officeFault
  else if n < 16 then s.setReg rCOHPTR 0
  else if n < 24 then s.laneFault (n - 16) 1
  else if n < 26 then s.sets [(fTAGSTAT_FREE, 1024), (fTAGSTAT_RELEASING, 0), (fSCTAG_FREE, 1024), (fSCTAG_RELEASING, 0)]
  else if n < 28 then s.resetBlock 11
  else if n = 28 then ((s.resetBlock 8).resetBlock 9).resetBlock 10
  else if n = 29 then (s.resetBlock 6).resetBlock 14
  else if n = 30 then
    let k := fun (c : Core) => { c with priv := rreset c.priv 0xE0000000 0xE0001000 resetPriv, latch := 0, active := [] }
    { s.resetBlock 15 with dec := k s.dec, cant := k s.cant }
  else if n = 31 then
    let k := fun (c : Core) => { c with priv := rreset c.priv 0xE0001000 0xE0002000 resetPriv }
    { s with dec := k s.dec, cant := k s.cant }
  else if n < 36 then
    { (s.resetBlock 16).setFld fSACDBG_LEVEL (s.fld fSACDBG_LEVEL) with sac := { s.sac with eng := none } }
  else if n < 42 then { s.resetBlock 17 with sfe := {} }
  else if n < 48 then { s.resetBlock 19 with font := {} }
  else if n < 50 then s.resetBlock 18
  else if n < 54 then { s.resetBlock 20 with mot := {} }
  else if n < 58 then
    let b := blockBase 21
    { s with regs := rreset (rreset s.regs b (b + 0x20) resetRegs) (b + 0x80) (b + 0x1C0) resetRegs }
  else if n < 62 then
    let j := n - 58
    { s with
      regs := rreset s.regs (rCHDIV (2 * j)) (rCHDIV (2 * j + 2)) resetRegs
      chor := { s.chor with eng := (s.chor.eng.set (2 * j) ({} : ChEng)).set (2 * j + 1) ({} : ChEng) } }
  else if n = 62 then s.resetBlock 23
  else s

/-- Restore (R539, R540, R548): the region resumes; a parity mismatch of the save store resets it. A continuous SFE stream starts its
filter again with a time word owed (Table 25.2). Writes held for the slice act (R110). Slice 63 has no restore. -/
def State.sliceRestore (s : State) (n : Nat) (bad : Bool) : State :=
  let t := s.stSet (fun x => { x with running := false })
  let t :=
    if bad && n != 63 then
      ((t.regionReset n).setFld fSTFLAG_RESTOREBAD 1).stEvent 0x0903 (leBytes 1 n)
    else if 36 ≤ n && n ≤ 41 && t.on fSFESTAT_RUN then t.sfeRestart.sfeSet (fun x => { x with timeOwed := true })
    else t
  (s.st.heldWr.foldl (fun u p => u.clkBus p.1 p.2.1 p.2.2) (t.stSet (fun x => { x with heldWr := [] })))

/-! ### Results -/

/-- The class of a slice (Table 25.1): F 0, R 1, M 2, L 3, S 4, C 5. -/
def sliceClass (n : Nat) : Nat :=
  if 16 ≤ n && n ≤ 23 then 1
  else if 32 ≤ n && n ≤ 35 then 4
  else if 36 ≤ n && n ≤ 47 then 2
  else if n = 48 || n = 49 then 3
  else if n = 63 then 5 else 0

/-- The loop is forced until the next reset of watchdog scope (R424, R545); in Loop role alone. -/
def State.loopForce (s : State) : State :=
  if s.role = .loop then ({ s with loop := { s.loop with forcedTest := true } }).loopSync none else s

/-- A reset of Sacristy scope (R119, R399): the Sacristy's logic and engines start over and stay held, its SRAM is cleared to zero,
every claim is released and the held cuts act (R398). -/
def State.sacHold (s : State) : State :=
  let t := s.causeSet 8
  let level := t.fld fSACDBG_LEVEL
  let m := { t.mem with
    cells := t.mem.cells.filter (fun p => p.1 < 0x30000000) ++ (List.range 0x8000).map (fun i => (0x30000000 + i, 0))
      ++ t.mem.cells.filter (fun p => 0x30008000 ≤ p.1)
    badPar := t.mem.badPar.filter (fun a => a < 0x30000000 || 0x30008000 ≤ a) }
  let t : State := { t.resetBlock 16 with
    mem := m
    sac := { t.sac with vq := [], vDropped := 0, vFirst := 0, chal := none, stage := [], eng := none, rngFail := false } }
  let t := (t.sets [(fSACSTAT_HELD, 1), (fSACDBG_LEVEL, level)]).deferSync.cutsAct
  if t.role = Role.chapter then t.stEvent 0x0102 [] else t

/-- The response to a confirmed failure (R545). -/
def State.sliceRespond (s : State) (n : Nat) : State :=
  match sliceClass n with
  | 1 => s.laneFault (n - 16) 2
  | 2 => (s.setFld fSTRESP_METROBAD 1).loopForce
  | 3 => (s.setFld fSTRESP_LOOPBAD 1).loopForce
  | 4 => ((s.setFld fSTRESP_SACBAD 1).sacHold).loopForce
  | 5 => s.setFld fSTRESP_CTRLBAD 1
  | _ => s

/-- SLICE_COMPARE (R539, R544, R545, R548): the signature found, the expected one read from ROM, and whether the save store failed
its parity. A mismatch is tried again up to three times. -/
def execSliceCompare (sig : Word) (badStore : Bool) (s : State) : Host.Outcome State Fault Refusal :=
  .next (
    match s.st.running, s.st.cur with
    | true, some n =>
      let expect := s.mem.word (0x3FF00 + 4 * n)
      let tries := s.fld fSTSTAT_RETRIES
      let t := s.sets [(fSTSIG_SIG, sig.toNat), (fSTEXP_EXP, expect)]
      let t := t.sliceRestore n badStore
      if sig.toNat = expect then
        let t := t.sets [(fSTSTAT_LAST, 1), (fSTFLAG_PASS, 1)]
        let t := if tries = 0 then t
          else ((t.setFld fSTFLAG_TRANSIENT 1).stTally n 2).stEvent 0x0901 (leBytes 1 n ++ leBytes 1 tries)
        t.cursorOn.sliceEnd 0 false
      else if tries < 3 then t.sets [(fSTSTAT_RETRIES, tries + 1), (fSTSTAT_PHASE, 0)]
      else
        let t := (t.sets [(fSTSTAT_LAST, 2), (fSTFLAG_CONFIRMED, 1)]).stTally n 1
        let t := t.stCopy.sliceRespond n
        let t := t.stEvent 0x0900 (leBytes 1 n ++ leBytes 1 (sliceClass n) ++ leBytes 4 sig.toNat)
        t.cursorOn.sliceEnd 0x7D true
    | _, _ => s)

/-- SLICE_ABANDON (R542, R544, R547): a precondition fails during a slice, or its lane is fenced; patterns stop and the restore
runs. -/
def execSliceAbandon (badStore : Bool) (s : State) : Host.Outcome State Fault Refusal :=
  .next (
    match s.st.running, s.st.cur with
    | true, some n =>
      if s.on fPWRSRC_VCOREOK && s.on fCLKSTAT_PLLLOCK && s.sliceApplies n then s
      else
        let t := (s.sliceRestore n badStore).sets [(fSTSTAT_LAST, 3), (fSTFLAG_ABANDON, 1)]
        ((t.stTally n 4).stSet (fun x => { x with skips := 0 })).sliceEnd 0x7C false
    | _, _ => s)

/-! ### Register writes and opcodes -/

/-- A write of a register of block 24: GO is ignored while BUSY = 1 (R549); a slice that is not applicable does not run (R538). -/
def State.stWrite (s : State) (a : Nat) (v : Word) : State :=
  let t := s.plainWrite a v
  if a = rSTCTL && fldOf v fSTCTL_GO = 1 && !s.on fSTSTAT_BUSY && s.sliceApplies (fldOf v fSTCTL_SLICE) then
    t.sliceWait (fldOf v fSTCTL_SLICE) false
  else t

/-- STCTL_GO (R549): STCTL is written with GO = 1 and the slice. -/
def execStctlGo (w : World) (slice : Fin 64) (s : State) : Host.Outcome State Fault Refusal :=
  .next (
    let r := s.vet w rSTCTL (BitVec.ofNat 32 (1 + 256 * slice.val))
    r.st.stWrite rSTCTL r.v)

/-- ST_COUNT_COPY (R546). -/
def execStCountCopy (s : State) : Host.Outcome State Fault Refusal := .next (if s.rhocoUp && s.rst.booted then s.stCopy else s)

/-- ST_QUERY (R550). -/
def execStQuery (d : Desc) (s : State) : Host.Outcome State Fault Refusal :=
  .next (s.runDesc d true (fun t =>
    ⟨t, stOK, (t.reg rSTRESP).toNat, leBytes 4 (t.reg rSTSTAT).toNat ++ leBytes 4 (t.reg rSTRESP).toNat ++ leBytes 4 t.st.cursor,
      false⟩))

/-- The number of the self-test pace among the record's settings (Log 5). -/
def itemPace : Nat := 25

/-- ST_PACE (R550). -/
def execStPace (d : Desc) (s : State) : Host.Outcome State Fault Refusal :=
  .next (s.runDesc d true (fun t =>
    let p := dsArgs d 0 2
    if p = 0 || 3600 < p then t.fail stINVALID
    else ((t.stSet (fun x => { x with pace := p })).cfgStore itemPace p).cfgDone d stOK 0))

/-- ST_RUN (R547, R550): a slice, or every applicable one; it completes when done. -/
def execStRun (d : Desc) (s : State) : Host.Outcome State Fault Refusal :=
  .next (s.runDesc d true (fun t =>
    let n := dsArg d 0
    if t.st.cur.isSome then t.fail stBUSY
    else
      let l := if n = 0xFF then (List.range 64).filter t.sliceApplies else if n < 64 && t.sliceApplies n then [n] else []
      match l with
      | [] => t.fail stNOTROLE
      | k :: ks =>
        ⟨(t.stSet (fun x => { x with req := some d, todo := ks, fails := 0, worst := 0 })).sliceWait k false, stOK, 0, [], true⟩))

/-- The five counts of a slice as ten bytes (R546). -/
def SelfTest.countBytes (x : SelfTest) (n : Nat) : List Byte :=
  ((List.range 5).map (fun k => leBytes 2 (((x.counts.find? (fun p => p.1 = 5 * n + k)).map (·.2)).getD 0))).flatten

/-- ST_RESULTS (R550). -/
def execStResults (d : Desc) (s : State) : Host.Outcome State Fault Refusal :=
  .next (s.runDesc d true (fun t => ⟨t, stOK, 0, ((List.range 64).map t.st.countBytes).flatten, false⟩))

/-- ST_CLEAR (R550). -/
def execStClear (d : Desc) (s : State) : Host.Outcome State Fault Refusal :=
  .next (s.runDesc d true (fun t => (t.stSet (fun x => { x with counts := [] })).ok))

end Sys2Proof.Machine
end

