-- ==== Sys2Proof/Machine/RegBus.lean ====
section
/-! DEFINITION. The peripheral bus: what a read and a write of a register does, block by block (R3 to R6, R14, R271, R325,
R326, R374), and the writes that have no row of their own. -/

namespace Sys2Proof.Machine

open Sys2Proof

/-! ### Reads -/

/-- The fraction of a line-time tick that a latching read takes: 0 without the Spire, else a value of 0 to 5,999 (R106), which no
command measures (free, Log 3). -/
def State.fracNow (s : State) : Nat := if s.on fCLKSTAT_PLLLOCK then s.free? % 6000 else 0

/-- A read of RTCTIMEL or of LPTIMEL: line time [31:0], which latches the rest (R108). -/
def State.readTime (s : State) : Word × State :=
  (BitVec.ofNat 32 s.now,
    { s.used 1 with clk := { s.clk with latchH := s.now / 2 ^ 32 + 2 ^ 16 * s.fracNow } })

/-- SPIRE of ACTCNTH (Table 23.5): the Spire clocks the root group. -/
def State.spireBit (s : State) : Nat := b2n (s.on fCLKSEL_ROOT && s.on fCLKSTAT_PLLLOCK) * 2 ^ 16

/-- A word of the head entry of the event FIFO; reading the last removes the entry (R486). -/
def State.readEvf (s : State) (k : Nat) : Word × State :=
  match s.ring.evf with
  | [] => (0, s)
  | e :: rest =>
    if k = 0 then (BitVec.ofNat 32 e.w0, s)
    else if k = 1 then (BitVec.ofNat 32 e.w1, s)
    else (BitVec.ofNat 32 e.w2, ({ s with ring := { s.ring with evf := rest } }).evfSync)

/-- The bits of a register that read as zero from Nave: its SRW fields (R4) but SACCLAIM, which Nave reads (Table 17.11), and the
fields a claim makes SRW now. -/
def State.naveHides (s : State) (a : Nat) (r : RegSpec) : Word :=
  if a = rSACCLAIM then 0 else BitVec.ofNat 32 (r.srw ||| r.srwW1c ||| (r.rw &&& s.claimSrw a))

/-- A register that Rhoco or a core reads in a world, with what reading it does. -/
def State.regRead (s : State) (w : World) (a : Nat) : Word × State :=
  if a = rSYSID then (BitVec.ofNat 32 s.sysid, s)
  else if a = rUIDL then (BitVec.ofNat 32 s.uid, s)
  else if a = rUIDH then (BitVec.ofNat 32 (s.uid / 2 ^ 32), s)
  else if a = rWDTCNT then
    -- The count falls with the LF RC, which no command counts: some value up to the last reload (Log 32).
    (BitVec.ofNat 32 (s.free? % (s.fld fWDTCNT_REMAIN + 1)), s.used 1)
  else if a = rRTCTIMEL ∨ a = rLPTIMEL then s.readTime
  else if a = rRTCTIMEH ∨ a = rLPTIMEH then (BitVec.ofNat 32 s.clk.latchH, s)
  else if a = rRTCSTAT then
    (putFld (putFld (s.reg a) fRTCSTAT_TRACK (s.fld fLPSTAT_TRACK)) fRTCSTAT_HOLDOVER (s.fld fCLKSTAT_HOLDOVER), s)
  else if a = rCLKSAFE then
    (putFld (s.reg a) fCLKSAFE_REMAIN (s.free? % (s.fld fCLKSAFE_REMAIN + 1)), s.used 1)
  else if a = rSACSTAT then (BitVec.ofNat 32 s.sacStat, s)
  else if rSACVLOG 0 ≤ a ∧ a ≤ rSACVLOG 3 then
    if w = .nave then (0, s)
    else
      let k := (a - rSACVLOG 0) / 4
      (BitVec.ofNat 32 (s.vlogWord k), if k = 3 then s.vlogPop else s)
  else if a = rACTCNTL then
    (BitVec.ofNat 32 s.chor.act, s.chSet (fun c => { c with latchH := c.act / 2 ^ 32 }))
  else if a = rACTCNTH then (BitVec.ofNat 32 (s.chor.latchH % 2 ^ 16 + s.spireBit), s)
  else if rEVF 0 ≤ a ∧ a ≤ rEVF 2 then s.readEvf ((a - rEVF 0) / 4)
  else
    match specOf a with
    | none => (0, s)
    | some r =>
      if r.base = rCHRX 0 then
        let q := s.chGetRx ((a - rCHRX 0) / 0x40)
        (BitVec.ofNat 32 q.1, q.2)
      else (if w = .nave then s.reg a &&& ~~~(s.naveHides a r) else s.reg a, s)

/-! ### Writes -/

/-- A write of a register of block 12 (R231): HLSSID is fixed once CFGRDY is set; SCRRDY rising starts the Scriptorium (R253). -/
def State.hlWrite (s : State) (a : Nat) (v : Word) : State :=
  if a = rHLSSID && s.on fHLCTL_CFGRDY then s
  else if a = rHLSTAT && fldOf v fHLSTAT_SCRRDY = 1 then s.scrStart
  else s.plainWrite a v

/-- A write of a register of block 13 by a core: SCRTBASE is the host's (R254). -/
def State.scWrite (s : State) (a : Nat) (v : Word) : State :=
  if a = rSCRTBASEL ∨ a = rSCRTBASEH then s else s.plainWrite a v

/-- A write of a peripheral register by the rules of its block, from a world. -/
def State.regWrite (s : State) (w : World) (a : Nat) (v : Word) : State :=
  let by_ := fun (f : State → Nat → Word → State) =>
    let r := s.vet w a v
    f r.st a r.v
  match blockOf a with
  | 0 => s.sysBus w a v
  | 1 => by_ State.rtcWrite
  | 2 => by_ State.padWrite
  | 3 => by_ State.pwrWrite
  | 4 => by_ State.slpWrite
  | 5 => s.clkBus w a v
  | 6 => by_ State.bookWrite
  | 7 => s.ccBus w a v
  | 8 => by_ State.wdWrite
  | 12 => by_ State.hlWrite
  | 13 => by_ State.scWrite
  | 14 => s.memBus w a v
  | 15 => s.sbBus w a v
  | 16 => s.sacBus w a v
  | 17 => by_ State.sfeWrite
  | 18 => by_ State.loopWrite
  | 19 => by_ State.fontWrite
  | 20 => by_ State.motWrite
  | 21 => by_ State.rgWrite
  | 22 => s.chBus w a v
  | 23 => by_ State.fiWrite
  | 24 => by_ State.stWrite
  | _ => by_ State.plainWrite

/-! ### Accesses -/

/-- Whether an agent reaches a register page: blocks On or Idle in the role (R14), block 7 from Decani alone (R271), and its guard
page from Nave supervisor or the Sacristy alone (R374). -/
def State.pageOk (s : State) (ag : Agent) (w : World) (sup : Bool) (a : Nat) : Bool :=
  s.blockOn (blockOf a) &&
    (if blockOf a = 7 then
      (ag = .core .decani || ag = .debug) && (a % 0x1000 < 0x400 || sup || w = .sacristy)
    else true)

/-- Whether an access waits for a self-test slice of the region it reaches (R540, R547). -/
def State.accessWaits (s : State) (a : Nat) : Bool :=
  let in_ := fun (lo hi : Nat) => s.inSlice lo hi
  in_ 14 15 ||
  (match region a with
    | .periph =>
      (match blockOf a with
        | 6 | 14 => in_ 29 29
        | 8 | 9 | 10 => in_ 28 28
        | 11 => in_ 26 27
        | 13 => in_ 16 25
        | 15 => in_ 30 30
        | 16 => in_ 32 35
        | 17 => in_ 36 41
        | 18 => in_ 48 49
        | 19 => in_ 42 47
        | 20 => in_ 50 53
        | 21 => in_ 54 57
        | 22 => in_ 58 61
        | 23 => in_ 62 62
        | _ => false)
    | .mram => in_ 29 29
    | .sbuf | .tags => in_ 30 30
    | .ssram => in_ 32 35
    | .corePrivate => if a < 0xE0001000 then in_ 30 30 else if a < 0xE0002000 then in_ 31 31 else false
    | _ => false)

/-- Read `n` bytes of a peripheral page: false is a bus error. Registers are read as whole words; what a narrower read returns the
spec does not say (R3): a free value (Log 33). -/
def State.pageRead (s : State) (ag : Agent) (w : World) (sup : Bool) (a n : Nat) : Bool × List Byte × State :=
  if !s.pageOk ag w sup a then (false, List.replicate n 0, s)
  else if n = 4 then
    if blockOf a = 7 && 0x400 ≤ a % 0x1000 then
      let o := a % 0x1000 - 0x400
      let v := if 0x100 ≤ o && o < 0x200 && w = .nave then 0 else s.privRead .cantoris .nave (0xE0001000 + o)
      (true, leBytes 4 v.toNat, s)
    else
      let r := s.regRead w a
      (true, leBytes 4 r.1.toNat, r.2)
  else
    let r := s.regRead w (a / 4 * 4)
    (true, freeBytes r.2.free n, r.2.used n)

/-- The word a write sends: a narrower write's other bytes are open (R3): free values (Log 33). -/
def State.writeWord (s : State) (a : Nat) (bs : List Byte) : Word × State :=
  if bs.length = 4 then (BitVec.ofNat 32 (leNat bs), s)
  else (BitVec.ofNat 32 (leNat (spliceBytes (freeBytes s.free 4) (a % 4) bs)), s.used 4)

/-- Write bytes to a peripheral page: false is a bus error. -/
def State.pageWrite (s : State) (ag : Agent) (w : World) (sup : Bool) (a : Nat) (bs : List Byte) : Bool × State :=
  if !s.pageOk ag w sup a then (false, s)
  else
    let v := s.writeWord a bs
    let b := a / 4 * 4
    if blockOf a = 7 && 0x400 ≤ a % 0x1000 then
      (true, if a % 0x1000 < 0x60C then v.2.cantGuardWrite w (b % 0x1000 - 0x400) v.1 else v.2)
    else (true, v.2.regWrite w b v.1)

/-- REGISTER_WRITE (R4, R6, R568): a supervisor word write of a core, in a world, to a peripheral or core-private register. -/
def execRegisterWrite (c : CoreId) (w : World) (a : Nat) (v : Word) (s : State) : Host.Outcome State Fault Refusal :=
  .next (
    let b := a / 4 * 4
    if s.accessWaits b then s
    else
      match region b with
      | .periph => (s.pageWrite (.core c) w true b (leBytes 4 v.toNat)).2
      | .corePrivate => s.privWrite c w b v
      | _ => s)

end Sys2Proof.Machine
end

