-- ==== Sys2Proof/Machine/Images.lean ====
section
/-! DEFINITION. Images and their checks (R129, R130, R571), the configuration record's descriptors (R132), and offices: start,
stop, queries, and the descriptors that go to the running office (R273 to R277). -/

namespace Sys2Proof.Machine

open Sys2Proof

/-! ### Images (Tables 6.8 and 6.9) -/

/-- The first byte of image slot `k`: 0 to 7 office slots, 8 and 9 patch slots (Table 15.6). -/
def slotBase (k : Nat) : Nat := 0x10020000 + 0x10000 * k

/-- A field of the header in a slot. -/
def State.imgField (s : State) (k off n : Nat) : Nat := leNat (s.coherentBytes (slotBase k + off) n)

/-- Header fields by name. -/
def State.imgLength (s : State) (k : Nat) : Nat := s.imgField k 0x08 4
def State.imgLoad (s : State) (k : Nat) : Nat := s.imgField k 0x0C 4
def State.imgEntry (s : State) (k : Nat) : Nat := s.imgField k 0x10 4
def State.imgVersion (s : State) (k : Nat) : Nat := s.imgField k 0x14 4
def State.imgKey (s : State) (k : Nat) : Nat := s.imgField k 0x18 1
def State.imgKind (s : State) (k : Nat) : Nat := s.imgField k 0x19 1

/-- The body of the image in a slot. -/
def State.imgBody (s : State) (k : Nat) : List Byte := s.coherentBytes (slotBase k + 0x80) (s.imgLength k)

/-- The kind of image a slot takes. -/
def slotKind (k : Nat) : Nat := if k < 8 then 1 else 2

/-- The Sacristy's version counter for a kind of image (R384). -/
def State.verCount (s : State) (kind : Nat) : Nat :=
  popBytes (if kind = 1 then s.mem.otpBytes 0x310 32 else s.mem.otpBytes 0x330 16)

/-- Step 1 of Table 6.9. -/
def State.imgForm (s : State) (k : Nat) : Bool :=
  s.imgField k 0 4 = 0x4D495244 && s.imgField k 4 2 = 1 && decide (s.imgField k 6 2 < 2) && s.imgKind k = slotKind k
    && s.imgField k 0x1A 6 = 0

/-- Step 2 of Table 6.9. -/
def State.imgPlace (s : State) (k : Nat) : Bool :=
  let len := s.imgLength k
  let lo := s.imgLoad k
  len % 32 = 0 && lo % 32 = 0 && decide (len + 128 ≤ 0x10000) && decide (0x20002000 ≤ lo) && decide (lo + len ≤ 0x20080000)
    && decide (lo ≤ s.imgEntry k) && decide (s.imgEntry k < lo + len)

/-- Step 3 of Table 6.9 (R384): a patch passes only with key 0 or 1. While the Sacristy is held no image passes (R399). -/
def State.imgKeyOk (s : State) (k : Nat) : Bool :=
  !s.on fSACSTAT_HELD && s.keyUsable (s.imgKey k) && (slotKind k = 1 || decide (s.imgKey k < 2))

/-- The checks of Table 6.9 on a slot, in order: the status of the first that fails, or OK. -/
def State.imgCheck (s : State) (k : Nat) : Nat :=
  if !s.imgForm k || !s.imgPlace k then stIMAGEBAD
  else if !s.imgKeyOk k then stAUTHFAILED
  else if s.imgVersion k < s.verCount (slotKind k) then stROLLBACK
  else if sha256 (s.imgBody k) != s.coherentBytes (slotBase k + 0x20) 32 then stAUTHFAILED
  else if ecdsaVerify (sha256 (s.coherentBytes (slotBase k) 0x40)) (s.keyOf (s.imgKey k))
      (s.coherentBytes (slotBase k + 0x40) 64) then stOK
  else stAUTHFAILED

/-- Whether a descriptor of IMAGE_LOAD has the fields R571 asks for. -/
def imgLoadOk (d : Desc) : Bool :=
  let len := dsByte d 0x15
  decide (dsByte d 0x14 ≤ 9) && decide (1 ≤ len) && decide (len ≤ 32) && decide (dsNat d 0x10 4 + len ≤ 65536)
    && !dsResbuf d && dsNat d 0x16 2 = 0 && dsNat d 0x18 4 = 0 && argsZeroFrom d len

/-- IMAGE_LOAD (R571). -/
def execImageLoad (d : Desc) (s : State) : Host.Outcome State Fault Refusal :=
  .next (s.runDesc d (s.role != .chapter) (fun t =>
    let k := dsByte d 0x14
    if !imgLoadOk d then t.fail stINVALID
    else if t.on fOFFSTAT_RUNNING && t.fld fOFFSTAT_SLOT = k then t.fail stBUSY
    else (t.rhocoWrite (slotBase k + dsNat d 0x10 4) ((d.bytes.drop 0x20).take (dsByte d 0x15))).ok))

/-- IMAGE_COMMIT (R129 to R132): the slot is checked and, when it passes, marked in the configuration record. -/
def execImageCommit (d : Desc) (s : State) : Host.Outcome State Fault Refusal :=
  .next (s.runDesc d (s.role != .chapter) (fun t =>
    let k := dsArg d 0
    if 9 < k || !argsZeroFrom d 1 then t.fail stINVALID
    else
      let st := t.imgCheck k
      if st != stOK then t.fail st
      else if k < 8 then (t.cfgStore itemOffice (k + 1)).cfgDone d stOK 0
      else (t.cfgStore (itemPatch + (k - 8)) 1).cfgDone d stOK 0))

/-! ### The configuration record (R132) -/

/-- The body a staging copy starts from: the copy in use, or the factory defaults. -/
def State.stageBody (s : State) : List (Nat × Byte) :=
  if s.rst.staging then s.spare.body else if s.cfgValid then s.cfgCopy.body else []

/-- Write bytes into a body. -/
def bodyPut : List (Nat × Byte) → Nat → List Byte → List (Nat × Byte)
  | l, _, [] => l
  | l, o, b :: bs => bodyPut (mput l o b) (o + 1) bs

/-- The descriptors of the record act in every role, in Chapter role on a Local ring. -/
def State.cfgRole (s : State) (d : Desc) : Bool := s.role != .chapter || d.ring = 3

/-- CFG_WRITE (R132). -/
def execCfgWrite (d : Desc) (s : State) : Host.Outcome State Fault Refusal :=
  .next (s.runDesc d (s.cfgRole d) (fun t =>
    let off := dsArgs d 0 4
    let len := dsArg d 4
    let blocks := Config.recordBlocks off len
    if len = 0 || 24 < len || 16320 < off + len then t.fail stINVALID
    else if blocks &&& t.fld fSACCLAIM_CLAIM != 0 then t.fail stDENIED
    else
      let body := bodyPut t.stageBody off ((d.bytes.drop 0x28).take len)
      let u := t.putSpare ⟨t.spare.seq, false, body⟩
      ({ u with rst := { u.rst with staging := true, stageBlocks := u.rst.stageBlocks ||| blocks } }).ok))

/-- The staging copy is abandoned; the copy in use stays. -/
def State.stageDrop (s : State) : State := { s with rst := { s.rst with staging := false, stageBlocks := 0 } }

/-- The staging copy becomes the copy in use: its digest, then its sequence number (R128, R132). -/
def State.stageCommit (s : State) : State :=
  let t := s.cfgSwitch s.spare.body
  ({ t with rst := { t.rst with marked := none, before := none } }).stageDrop

/-- CFG_COMMIT's action: ARGS[0] 0 commits and 1 abandons (R132). -/
def State.cfgCommit (s : State) (d : Desc) : DescRes :=
  let k := dsArg d 0
  if 1 < k || !s.rst.staging then s.fail stINVALID
  else if k = 1 then s.stageDrop.ok
  else if s.rst.stageBlocks &&& s.fld fSACCLAIM_CLAIM != 0 then s.fail stDENIED
  else s.stageCommit.ok

/-- CFG_COMMIT with ARGS[0] = 0 (R132). -/
def execCfgCommit (d : Desc) (s : State) : Host.Outcome State Fault Refusal :=
  .next (s.runDesc d (s.cfgRole d) (fun t => t.cfgCommit d))

/-- CFG_COMMIT with ARGS[0] = 1 (R132). -/
def execCfgAbandon (d : Desc) (s : State) : Host.Outcome State Fault Refusal :=
  .next (s.runDesc d (s.cfgRole d) (fun t => t.cfgCommit d))

/-- CFG_STAGING_TIMEOUT (R132): 60 s without a CFG_WRITE or CFG_COMMIT. -/
def execCfgStagingTimeout (s : State) : Host.Outcome State Fault Refusal :=
  .next (if s.rst.staging then s.stageDrop else s)

/-- RHOCO_CFG_UPDATE (R132): once staging has ended, Rhoco's own changes that waited are written. -/
def execRhocoCfgUpdate (s : State) : Host.Outcome State Fault Refusal :=
  .next (if s.rst.staging then s else s.cfgRelease)

/-! ### Offices (R273) -/

/-- Copy an image's body to LOADADDR. -/
def State.imgCopy (s : State) (k : Nat) : State := s.rhocoWrite (s.imgLoad k) (s.imgBody k)

/-- Steps 2 to 6 of R273. POWERING ends before RUN is set. The guard regions are Rhoco's choice: the writes to Cantoris's guard
page, by offset (Log 23). They follow POWERING, whose end disables every region (R372). -/
def State.officeGo (s : State) (k : Nat) (regions : List (Nat × Word)) : State :=
  let t := s.imgCopy k
  let t := t.sets [(fCANTENTRY_ALL, s.imgEntry k), (fCANTVBASE_ALL, s.imgLoad k)]
  let t := t.ccWrite rCANTCTL (putFld (t.reg rCANTCTL) fCANTCTL_PWR 1)
  let t := if t.fld fCANTSTAT_STATE = 1 then t.cantPowered else t
  let t := regions.foldl (fun u p => u.cantGuardWrite .nave p.1 p.2) t
  let t := t.ccWrite rCANTCTL (putFld (t.reg rCANTCTL) fCANTCTL_RUN 1)
  let t := t.sets [(fOFFSTAT_SLOT, k), (fOFFSTAT_RUNNING, 1)]
  { t with rst := { t.rst with runVer := (1, s.imgVersion k) :: t.rst.runVer.filter (fun p => p.1 != 1) } }

/-- Rhoco starts the office in a slot: the status, and the state (R60, R273). -/
def State.officeStart (s : State) (k : Nat) (regions : List (Nat × Word)) : Nat × State :=
  if s.on fOFFSTAT_RUNNING then (stBUSY, s)
  else if 7 < k then (stINVALID, s)
  else
    let st := s.imgCheck k
    if st != stOK then (st, s)
    else if s.cantRefused then (stTOKENS, s.tokenRefused)
    else (stOK, s.officeGo k regions)

/-- The roles whose part has Cantoris. -/
def State.officeRole (s : State) : Bool := s.role != .loop

/-- OFFICE_START (Table 12.7). -/
def execOfficeStart (d : Desc) (regions : List (Nat × Word)) (s : State) : Host.Outcome State Fault Refusal :=
  .next (s.runDesc d s.officeRole (fun t =>
    let r := t.officeStart (dsArg d 0) regions
    ⟨r.2, r.1, 0, [], false⟩))

/-- OFFICE_STOP (Table 12.7): the stop that a claim holds goes on when the claim is released. -/
def execOfficeStop (d : Desc) (s : State) : Host.Outcome State Fault Refusal :=
  .next (s.runDesc d s.officeRole (fun t => t.officeStop.1.ok))

/-- OFFICE_QUERY (Table 12.7). -/
def execOfficeQuery (d : Desc) (s : State) : Host.Outcome State Fault Refusal :=
  .next (s.runDesc d s.officeRole (fun t => t.query [rOFFSTAT, rCANTSTAT, rCANTFAULTPC]))

/-- CORE_QUERY (Table 12.7): FEAT0 to FEAT3 of Decani, which runs it. -/
def execCoreQuery (d : Desc) (s : State) : Host.Outcome State Fault Refusal :=
  .next (s.runDesc d true (fun t =>
    ⟨t, stOK, (featWord .decani 0).toNat, ((List.range 4).map (fun n => leBytes 4 (featWord .decani n).toNat)).flatten, false⟩))

/-- OFFTMO_EXPIRY (R275, R278): the descriptor completes BUSY, and the office keeps running. -/
def execOfftmoExpiry (s : State) : Host.Outcome State Fault Refusal :=
  .next (
    match s.rst.offDesc with
    | some d =>
      let t := { s with rst := { s.rst with offDesc := none } }
      ((t.sets [(fOFFSTAT_PENDING, 0), (fOFFSTAT_TIMEOUT, 1)]).complete d stBUSY 0 []).pump
    | none => s)

/-! ### OFFICE_CTL (R276) -/

/-- The service status of a start: a slot that fails its checks is not one an office can be started from (Log 24). -/
def startStatus (st : Nat) : Nat :=
  if st = stOK then svOK
  else if st = stBUSY then svBUSY
  else if st = stTOKENS then svSHORT
  else svBADARG

/-- DONE (R275): the entry at w1, with the descriptor's own COOKIE, is sent. -/
def State.officeDone (s : State) (c : Caller) : SvcRes :=
  match s.rst.offDesc with
  | none => s.sv svBADARG
  | some d =>
    let a := s.svArg c 1
    if !s.svMay c .r a 16 then s.sv svDENIED
    else
      let e := leBytes 8 (dsCookie d) ++ (s.coherentBytes a 16).drop 8
      let t := { s.setFld fOFFSTAT_PENDING 0 with rst := { s.rst with offDesc := none } }
      ((t.sendEntry d [] e).pump).sv svOK

/-- OFFICE_CTL (R276): w0 is the action and w1 the slot. From Cantoris only DONE is permitted. -/
def State.officeCtl (s : State) (c : Caller) (regions : List (Nat × Word)) : SvcRes :=
  let act := s.svArg c 0
  if 3 < act then s.sv svBADARG
  else if act = 3 then s.officeDone c
  else if c.core = .cantoris then s.sv svDENIED
  else if act = 0 then
    let r := s.officeStart (s.svArg c 1) regions
    r.2.sv (startStatus r.1)
  else if act = 1 then s.officeStop.1.sv svOK
  else ⟨s, svOK, [some (s.reg rOFFSTAT).toNat, some (s.reg rCANTSTAT).toNat, some (s.reg rCANTFAULTPC).toNat]⟩

/-- OFFICE_CTL with w0 = 0, START (R276). -/
def execOfficeCtlStart (c : Caller) (regions : List (Nat × Word)) (s : State) : Host.Outcome State Fault Refusal :=
  .next (s.svcall c 8 (fun t => t.officeCtl c regions))

/-- OFFICE_CTL with w0 = 1, STOP (R276). -/
def execOfficeCtlStop (c : Caller) (s : State) : Host.Outcome State Fault Refusal :=
  .next (s.svcall c 8 (fun t => t.officeCtl c []))

/-- OFFICE_CTL with w0 = 2, QUERY (R276). -/
def execOfficeCtlQuery (c : Caller) (s : State) : Host.Outcome State Fault Refusal :=
  .next (s.svcall c 8 (fun t => t.officeCtl c []))

/-- OFFICE_CTL with w0 = 3, DONE (R275, R276). -/
def execOfficeCtlDone (c : Caller) (s : State) : Host.Outcome State Fault Refusal :=
  .next (s.svcall c 8 (fun t => t.officeCtl c []))

end Sys2Proof.Machine
end

