-- ==== Sys2Proof/Machine/Services.lean ====
section
/-! DEFINITION. Rhoco's services (Table 6.5) but OFFICE_CTL. -/

namespace Sys2Proof.Machine

open Sys2Proof

/-- RHO_INFO (Table 6.5). -/
def execRhoInfo (c : Caller) (s : State) : Host.Outcome State Fault Refusal :=
  .next (s.svcall c 0 (fun t => ⟨t, svOK, [some Config.rhocoVersion.toNat, some t.sysid]⟩))

/-- Whether a range lies in MRAM. -/
def inMram (a n : Nat) : Bool := decide (0x10000000 ≤ a) && decide (a + n ≤ 0x10200000)

/-- Whether a range meets the slot of the running office. -/
def State.inRunningSlot (s : State) (a n : Nat) : Bool :=
  let b := slotBase (s.fld fOFFSTAT_SLOT)
  s.on fOFFSTAT_RUNNING && decide (a < b + 0x10000) && decide (b < a + n)

/-- MRAM_WRITE (R126, R334). -/
def execMramWrite (c : Caller) (s : State) : Host.Outcome State Fault Refusal :=
  .next (s.svcall c 1 (fun t =>
    let a := t.svArg c 0
    let src := t.svArg c 1
    let n := t.svArg c 2
    if !inMram a n || !t.svMay c .w a n || !t.svMay c .r src n then t.sv svDENIED
    else if t.inRunningSlot a n then t.sv svBUSY
    else (t.rhocoWrite a (t.coherentBytes src n)).sv svOK))

/-- LOG_APPEND (R126). -/
def execLogAppend (c : Caller) (s : State) : Host.Outcome State Fault Refusal :=
  .next (s.svcall c 2 (fun t =>
    let src := t.svArg c 1
    let n := t.svArg c 2
    if n = 0 || 64 < n then t.sv svBADARG
    else if !t.svMay c .r src n then t.sv svDENIED
    else
      let r := t.logAppend (t.svArg c 0) (t.coherentBytes src n)
      ⟨r.1, svOK, [some r.2]⟩))

/-- The fraction of line time (R106, Table 5.5): 0 while the Spire is not locked, else a free value below 6,000 (Log 3). -/
def State.fraction (s : State) : Nat := if s.on fCLKSTAT_PLLLOCK then s.free? % 6000 else 0

/-- TIME_NOW (R126). -/
def execTimeNow (c : Caller) (s : State) : Host.Outcome State Fault Refusal :=
  .next (s.svcall c 3 (fun t => ⟨t.used 1, svOK, [some (t.now % 2 ^ 32), some (t.now / 2 ^ 32), some t.fraction]⟩))

/-- ALARM_AT (R80, R126). -/
def execAlarmAt (c : Caller) (s : State) : Host.Outcome State Fault Refusal :=
  .next (s.svcall c 4 (fun t =>
    if 2 ^ 16 ≤ t.svArg c 1 then t.sv svBADARG
    else
      let u := t.armAt 0 (t.svArg c 0 + 2 ^ 32 * t.svArg c 1)
      ⟨u, svOK, [some (u.fld (fWAKEALMH_LATE 0))]⟩))

/-- SLEEP (R126): Rhoco writes PWRCTL and executes WAIT. The answer is in place when the wake comes. -/
def execSleepService (c : Caller) (s : State) : Host.Outcome State Fault Refusal :=
  .next (
    let t := s.svcall c 5 (fun t => (t.slpWrite rPWRCTL (BitVec.ofNat 32 (t.svArg c 0))).sv svOK)
    if s.rhocoUp && !s.on fBOOTSTAT_RECOV &&
        (c.core = .decani || (s.fld fCANTSTAT_STATE = 5 && s.fld fCANTXCTL_SVC = 5)) then t.waitDecani else t)

/-- TOKENS (R126, R191): a Cell asks its walk and the call returns when GRANT changes; a part that takes no tokens from a walk,
or asks for what it holds, has its answer at once. -/
def execTokens (c : Caller) (s : State) : Host.Outcome State Fault Refusal :=
  .next (
    let n := s.svArg c 0
    if s.role = .cell && s.node.joined && decide (n ≤ 24) && n != s.fld fPWRTOK_GRANT && s.rst.tokWait.isNone then
      if s.rhocoUp && !s.on fBOOTSTAT_RECOV &&
          (c.core = .decani || (s.fld fCANTSTAT_STATE = 5 && s.fld fCANTXCTL_SVC = 6)) then
        let t := s.wantTokens n
        { t with rst := { t.rst with tokWait := some (c, n) } }
      else s
    else s.svcall c 6 (fun t => if 24 < n then t.sv svBADARG else t.tokAnswer n))

/-- EVENT_POST (R126, R239): the 16-byte record the office has built. -/
def execEventPost (c : Caller) (s : State) : Host.Outcome State Fault Refusal :=
  .next (s.svcall c 7 (fun t =>
    let a := t.svArg c 0
    if !t.svMay c .r a 16 then t.sv svDENIED
    else
      let rec_ := t.coherentBytes a 16
      (if t.role = .chapter then t.postRecord rec_ else t.queueUp 0x5 1 rec_).sv svOK))

/-- RESET (R126): Rhoco writes SYSRST.GO in the world that called; it does not return. -/
def execResetService (c : Caller) (s : State) : Host.Outcome State Fault Refusal :=
  .next (
    if s.rhocoUp && (c.core = .decani || (s.fld fCANTSTAT_STATE = 5 && s.fld fCANTXCTL_SVC = 9)) then
      s.sysBus c.world rSYSRST 0xD00D0001
    else s)

end Sys2Proof.Machine
end

