-- ==== Sys2Proof/Machine/Boot.lean ====
section
/-! DEFINITION. Boot (R124, R128 to R130, R134, R137, R138), what a role does after B9, and the descriptors that reach no block of their
own: NOP, IDENTIFY, RESET and BOOT_QUERY (R131, R238). -/

namespace Sys2Proof.Machine

open Sys2Proof

/-! ### The configuration record at boot (R128, R570) -/

/-- What the record in use holds for a register; with no valid copy the factory defaults leave the Reset value (R128, Table 6.14). -/
def State.recorded (s : State) (a : Nat) : Option Word :=
  if s.cfgValid then Config.recordReg s.cfgCopy.body a else none

/-- Rhoco writes a register with what the record holds for it, if anything. -/
def State.restoreReg (s : State) (a : Nat) : State :=
  match s.recorded a with
  | some v => s.regWrite .sacristy a v
  | none => s

/-- Rhoco writes registers from the record, in order. -/
def State.restoreRegs (s : State) (l : List Nat) : State := l.foldl State.restoreReg s

/-- Choose the copy (R128): the valid one with the higher sequence number, copy A where both are equal; with none CFGDEF sets. -/
def State.cfgChoose (s : State) : State :=
  let a := s.rst.copyA
  let b := s.rst.copyB
  let useB := b.valid && (!a.valid || decide (a.seq < b.seq))
  ({ s with rst := { s.rst with useB := useB } }).setFld fBOOTSTAT_CFGDEF (b2n (!(a.valid || b.valid)))

/-! ### B6: the Sacristy (chapter 17 From cold) -/

/-- The highest SEQ in the ring of seal entries, plus 1 (R390). -/
def State.sealNext (s : State) : Nat :=
  (((List.range 896).map (fun i => leNat (s.mem.bytes (0x10012000 + 64 * i) 4))).foldl max 0 + 1) % 2 ^ 32

/-- With no valid seal header (R390): an EPOCH bit is burnt, a new chain starts, a RESTART entry is appended and RESTARTS counts. At
EPOCH 96 no restart is possible. What the RESTART entry's reading and the tag before it hold is open (Log 22). -/
def State.sealRestart (s : State) : State :=
  let e := s.otpEpoch
  if 96 ≤ e then s.setFld fSACSTAT_SEALDEAD 1
  else
    let seq := s.sealNext
    let t := { s with
      mem := s.mem.otpSet (0x304 + e / 8) (BitVec.ofNat 8 (2 ^ (e % 8)))
      sac := { s.sac with
        seq := seq, ack := seq, missed := 0, lastTag := freeBytes s.free 16, restarts := s.sac.restarts + 1, epoch := e + 1 } }
    ((t.used 16).sealAppend 16 4 (freeBytes (s.free + 16) 36)).used 36

/-- The Sacristy at B6: the MRAM segment rules (R334) and, in Cell and Loop roles, the seal header (R390). -/
def State.bootSacristy (s : State) : State :=
  let t := s.sets [(fMRSEGSAC_SAC, 2), (fMRSEGNRO_NRO, 0xFFFD)]
  if t.role != .cell && t.role != .loop then t
  else if t.sac.valid then { t with sac := { t.sac with epoch := t.otpEpoch } }
  else
    let u := t.sealRestart
    if u.on fSACSTAT_SEALDEAD then u else u.event 0x0105 (leBytes 4 u.otpEpoch)

/-! ### B7 -/

/-- B7: the record is chosen and its watchdog settings are written (R128, R138). With the jack present, SAFE or CFGDEF leads to recovery
(R137); SAFE is decided by FAILS, which B8 looks at (R134). -/
def State.bootRecord (s : State) : State :=
  let t := s.cfgChoose
  let t := match t.recorded rWDTCFG with
    | some v => t.wdtcfgWrite v
    | none => t
  let safe := decide (3 ≤ t.fld fBOOTSTAT_FAILS)
  let t := t.setFld fBOOTSTAT_SAFE (b2n safe)
  let jack := t.hasJack && t.on fLJSTAT_PRESENT
  let t := if jack && (safe || t.on fBOOTSTAT_CFGDEF) then t.setFld fBOOTSTAT_RECOV 1 else t
  { t with rst := { t.rst with b7Window := jack || t.hasJack } }

/-! ### B8: images (R129, R130) -/

/-- A marked patch slot that passes its checks is copied and runs. -/
def State.bootPatch (s : State) (k : Nat) : State :=
  if s.cfgValid && Config.recordItem s.cfgCopy.body (itemPatch + (k - 8)) != 0 && s.imgCheck k = stOK then
    let t := s.imgCopy k
    { t with rst := { t.rst with runVer := (2, s.imgVersion k) :: t.rst.runVer } }
  else s

/-- Whether an image starts by itself (Table 6.8). -/
def State.imgAuto (s : State) (k : Nat) : Bool := s.imgField k 6 2 % 2 = 1

/-- The slot that passes at boot (R130): the marked one, else, with IMGFAIL set, the one that was active before. -/
def State.bootSlot (s : State) : Option Nat × State :=
  match s.markedSlot with
  | none => (none, s)
  | some k =>
    if s.imgCheck k = stOK then (some k, s)
    else
      let t := s.setFld fBOOTSTAT_IMGFAIL 1
      match s.rst.before with
      | some j => (if s.imgCheck j = stOK then some j else none, t)
      | none => (none, t)

/-- B8. In safe boot and in recovery no office is started (R134, R137). An AUTOSTART office waits for what it needs (R138). -/
def State.bootImages (s : State) (regions : List (Nat × Word)) : State :=
  let t := (s.bootPatch 8).bootPatch 9
  if !t.officeRole || t.on fBOOTSTAT_SAFE || t.on fBOOTSTAT_RECOV then t
  else
    let r := t.bootSlot
    match r.1 with
    | some k => if r.2.imgAuto k then { r.2 with rst := { r.2.rst with autostart := some (k, regions) } } else r.2
    | none => r.2

/-- An AUTOSTART office starts when the tokens cover its need (R60, R138). -/
def State.autoTry (s : State) : State :=
  match s.rst.autostart with
  | none => s
  | some (k, regions) =>
    if s.cantRefused then s
    else
      let t := { s with rst := { s.rst with autostart := none } }
      (t.officeStart k regions).2

/-! ### B9 -/

/-- The registers of a block from `lo` to `hi` in steps of 4. -/
def regRun (lo hi : Nat) : List Nat := (List.range ((hi - lo) / 4 + 1)).map (fun i => lo + 4 * i)

/-- The pad configuration and the sleep policy's registers. -/
def padSleepRegs : List Nat := regRun (rGPCFG 0) (rGPCFG 15) ++ [rPADCTL, rSLPRET, rSLPHOLD, rWAKECFG, rWAKEEN]

/-- Font's settings (chapter 20 From cold); FONTCTL and the armed start are not settings. -/
def fontRegs : List Nat := regRun rFONTBURST rFONTCAPW ++ [rFONTIE, rFONTSEAL]

/-- Block 21: programs and settings, then RGCTL and TCHCTL, which start what the record marks as running (chapter 22 From cold). -/
def ringerRegs : List Nat :=
  regRun (rRGPROG 0) (rRGPROG 255) ++ regRun rTAPCFG rTILTCFG ++ [rKNCFG, rKNGAP, rKNHOLD, rRGIE, rTCHCFG, rTCHLIM, rTCHIE, rRGCTL, rTCHCTL]

/-- Block 22: setup, program, pad ownership, then start (R521). -/
def choirRegs : List Nat :=
  ((List.range 8).map (fun n => [rCHDIV n, rCHCFG n, rCHSHIFT n, rCHPIN n, rCHIE n, rCHCNT n])).flatten ++
    regRun (rCHPROG 0) (rCHPROG 255) ++ [rCHPADOWN 0, rCHPADOWN 1, rCHSWOUT, rCHSWOE, rCHIRQEN, rCHCTL]

/-- The blocks that Rhoco restores at B9 and after every CRYPT exit. -/
def State.restoreChoir (s : State) : State :=
  let t := if s.blockOn 21 then s.restoreRegs ringerRegs else s
  if t.blockOn 22 then t.restoreRegs choirRegs else t

/-- Field I/O (chapter 24 From cold): the input settings and counters; FOCTL with its level from the latch, or from the record where it
marks the level as commanded (setting 26); then ARM. -/
def State.restoreField (s : State) : State :=
  if !s.blockOn 23 then s
  else
    let t := s.restoreRegs ([rFICTL, rFISTUCK, rFIIE, rFOIE] ++ regRun (rFICNT 0) (rFICNT 3))
    let v := (t.recorded rFOCTL).getD 0
    let commanded := t.cfgValid && Config.recordItem t.cfgCopy.body 26 != 0
    let level := if commanded then fldOf v fFOCTL_LEVEL else t.fld fFOSTAT_LATCH
    let w := putFld v fFOCTL_LEVEL level
    match t.recorded rFOCTL with
    | some _ => (t.regWrite .sacristy rFOCTL (putFld w fFOCTL_ARM 0)).regWrite .sacristy rFOCTL w
    | none => t.regWrite .sacristy rFOCTL (putFld (t.reg rFOCTL) fFOCTL_LEVEL level)

/-- The loop output (chapter 19 From cold): trims, timeout, FDIR and MMFAULT, and the map (settings 1 to 3). -/
def State.restoreLoop (s : State) : State :=
  if s.role != .loop || !s.cfgValid then s
  else
    let t := s.restoreRegs [rLOOPCALG, rLOOPCALO, rLOOPTMO]
    let t := match t.recorded rLOOPCTL with
      | some v => t.regWrite .sacristy rLOOPCTL (v &&& 0xC)
      | none => t
    let item := fun k => Config.recordItem t.cfgCopy.body k
    { t with loop := { t.loop with
      mapSrc := item 1 % 256
      lrv := Sys2Proof.signed 32 (item 2)
      urv := Sys2Proof.signed 32 (item 3) } }

/-- The templates of Font that the record holds (settings 10 and 11). -/
def State.restoreTemplates (s : State) : State :=
  if !s.cfgValid then s
  else
    (List.range 2).foldl (fun (t : State) k =>
      match Config.recordItem t.cfgCopy.body (10 + k) with
      | 0 => t
      | v + 1 => { t with mem := t.mem.putBytes (t.tplAddr k) (leBytes 512 (v + 1)) }) s

/-- The interrupt controller of Decani from the record: worlds, levels and GBITS, then the vector bases, which are Rhoco's own (free, Log 6;
chapter 12 From cold). -/
def State.restoreInts (s : State) : State :=
  let t := (regRun (rINTWORLD 0) (rINTWORLD 3) ++ regRun (rINTPRI 0) (rINTPRI 31) ++ [rINTCTL]).foldl (fun (t : State) a =>
    match t.recorded a with
    | some v => t.privWrite .decani .sacristy a v
    | none => t) s
  let base := fun i => BitVec.ofNat 32 (Config.free (t.free + i)) &&& 0xFFFFFFE0
  { t.used 2 with dec := { t.dec with vbase := [base 0, base 1] } }

/-- LINEADDR (chapter 1 From cold): the address that MRAM keeps; without a valid record copy VALID stays 0 (R128). The Chapter's is fixed. -/
def State.loadAddr (s : State) : State :=
  if s.on fBOOTSTAT_CFGDEF then s
  else
    match s.role, s.node.stAddr with
    | .cell, some a => s.sets [(fLINEADDR_CELLADDR, a), (fLINEADDR_VALID, 1)]
    | .crossing, some n => s.sets [(fLINEADDR_ROLEADDR, n), (fLINEADDR_VALID, 1)]
    | _, _ => s

/-- Drive at boot: a Crossing with a stored walk attempts it (R23), a Chapter where the record says EN. -/
def State.bootDrive (s : State) : State :=
  match s.role with
  | .crossing => if s.on fLINEADDR_ROLEADDR then (s.restoreReg rLPCTL).driveReq.2 else s
  | .chapter => (s.restoreReg rLPCTL).restoreReg rWDCTL
  | _ => s

/-- Host link at B9 (R216, R231): subsystem identifiers, CFGRDY, and the Spire once the crystal is ready (R138). -/
def State.bootHost (s : State) : State :=
  if s.role != .chapter then s
  else
    let t := (s.restoreReg rHLSSID).setFld fHLCTL_CFGRDY 1
    if t.on fCLKSTAT_XTALOK then t.clkBus .sacristy rCLKCTL (putFld (t.reg rCLKCTL) fCLKCTL_PLLEN 1) else t

/-- The claim list (R381): the listed blocks that the role has are claimed. -/
def State.bootClaims (s : State) : State :=
  let has := (List.range 25).filter (fun k => s.sac.claims.testBit k && s.blockOn k)
  s.setFld fSACCLAIM_CLAIM ((has.map (2 ^ ·)).sum)

/-- The self-test pace from the record, 10 s by default (Table 6.14), and ALM2 armed for it (chapter 25 From cold). -/
def State.bootPace (s : State) : State :=
  let p := if s.cfgValid then Config.recordItem s.cfgCopy.body itemPace else 10
  let t := s.stSet (fun x => { x with pace := p })
  t.armAt 2 ((t.now + 32768 * p) % 2 ^ 48)

/-- B9 (R138): pads, sleep policy, address, blocks, claims, and the role's line duties. -/
def State.bootReady (s : State) : State :=
  let t := (s.restoreRegs padSleepRegs).loadAddr
  let t := (t.restoreInts).restoreLoop
  let t := if t.blockOn 19 then (t.restoreRegs fontRegs).restoreTemplates else t
  let t := ((t.restoreChoir).restoreField).bootClaims
  let t : State := { t with rst := { t.rst with booted := true } }
  let t := ((t.bootPace).bootDrive).bootHost
  let t := t.retoken.autoTry
  match t.rst.autostart with
  | some _ => if t.role = .cell then t.wantTokens (min 24 (t.needNow + 3)) else t
  | none => t

/-- RESET_VECTOR_ENTRY (R124, R138): the hold of a reset ends, with the role latched and VMAIN fed, and Rhoco boots from B5 to B9. A part
stopped for OTPBAD goes no further than the vector (R136). `regions` are the guard regions Rhoco gives an AUTOSTART office (Log 23). -/
def execResetVectorEntry (regions : List (Nat × Word)) (s : State) : Host.Outcome State Fault Refusal :=
  .next (
    if !s.rst.hold || s.rst.stopped || !s.latched || !s.pwr.fed || s.slp.st != .run then s
    else
      let t := { s with rst := { s.rst with hold := false, lrwd := lrPeriod } }
      let t := t.sets [(fCLKSTAT_HFOK, 1), (fPWRSRC_VCOREOK, 1), (fPWRSRC_VDDAOK, 1), (fWDTCFG_PERIOD, 64)]
      let t := t.wdtReload.bootSacristy
      (t.bootRecord.bootImages regions).bootReady)

/-- The blocks that a CRYPT exit cleared are restored from the record (chapters 22 and 23 From cold). -/
def State.restoreAfterCrypt (s : State) : State :=
  if s.rst.restoreDue && s.rhocoUp then
    ({ s with rst := { s.rst with restoreDue := false } }).restoreChoir
  else s

/-- What the block does of itself with no command waiting: a sleep entry passes E6, Rhoco restores what a CRYPT exit cleared, and takes
the descriptors that no row names (Log 1). -/
def State.idle (s : State) : State := (s.passE6.restoreAfterCrypt).pump

/-! ### After boot -/

/-- Raise a count of set bits to a number by programming the lowest clear bits. -/
def Mem.otpCount (m : Mem) (o bytes n : Nat) : Mem :=
  (List.range (8 * bytes)).foldl (fun (q : Mem) i =>
    if popBytes (q.otpBytes o bytes) < n && !(q.otpByte (o + i / 8)).getLsbD (i % 8) then
      q.otpSet (o + i / 8) (BitVec.ofNat 8 (2 ^ (i % 8)))
    else q) m

/-- BOOT_GOOD (R134, R384): GOOD sets, FAILS clears, and the version counters rise to the images that run. -/
def execBootGood (s : State) : Host.Outcome State Fault Refusal :=
  .next (
    if s.rst.booted && s.rhocoUp && !s.on fBOOTSTAT_GOOD then
      let m := s.rst.runVer.foldl (fun (m : Mem) p =>
        if p.1 = 1 then m.otpCount 0x310 32 p.2 else m.otpCount 0x330 16 p.2) s.mem
      let t := s.sets [(fBOOTSTAT_GOOD, 1), (fBOOTSTAT_FAILS, 0)]
      { t with mem := m, rst := { t.rst with b7Window := false } }
    else s)

/-- RECOVER (R137): the handheld's frame within 500 ms of B7. -/
def execRecover (s : State) : Host.Outcome State Fault Refusal := .next s.recoverIn

/-- RECOVERY_TIMEOUT (R137): 120 s with no frame from the handheld end recovery in a software reset. -/
def execRecoveryTimeout (s : State) : Host.Outcome State Fault Refusal :=
  .next (if s.on fBOOTSTAT_RECOV then s.resetAct 6 else s)

/-- GRANT_APPLY (R68, R138, R191): the new total is applied, and the draw ramps to it; an AUTOSTART office that waited starts. -/
def execGrantApply (s : State) : Host.Outcome State Fault Refusal :=
  .next (
    match s.pwr.grantPend with
    | some g =>
      let t := ({ s with pwr := { s.pwr with grantPend := none } }).setGrant g
      if t.rhocoUp then t.autoTry else t
    | none => s)

/-- CRYSTAL_READY (R98, R106, R138): XTALOK sets, and line time returns to crystal ticks without stepping. In Chapter role Rhoco then
starts the Spire. -/
def execCrystalReady (s : State) : Host.Outcome State Fault Refusal :=
  .next (
    if s.on fCLKSTAT_XTALOK then s
    else
      let t := s.sets [(fCLKSTAT_XTALOK, 1), (fCLKSTAT_HOLDOVER, 0)]
      let t := { t with clk := { t.clk with hacc := 0 } }
      if t.role = .chapter && t.rst.booted && t.rhocoUp then
        t.clkBus .sacristy rCLKCTL (putFld (t.reg rCLKCTL) fCLKCTL_PLLEN 1)
      else t)

/-- PLL_LOCK (R99, R138): 64 crystal cycles after PLLEN was set. The selection that R90 restored is switched to; Font and the SFE go on
(R419, R459); in Chapter role Rhoco starts the Scriptorium. -/
def execPllLock (s : State) : Host.Outcome State Fault Refusal :=
  .next (
    if s.on fCLKCTL_PLLEN && s.on fCLKSTAT_XTALOK && !s.on fCLKSTAT_PLLLOCK then
      let t := (s.setFld fCLKSTAT_PLLLOCK 1).syncNow
      let t := { t with clk := { t.clk with spireHeld := false } }
      let t := match t.clk.heldSel with
        | some sel => if t.clk.heldRestored then t.switchTo sel else t
        | none => t
      let t := (t.sfeSpireBack).fontSpireBack
      if t.rst.booted && t.rhocoUp then t.scrStart else t
    else s)

/-! ### Descriptors -/

/-- NOP (Table 11.8): completes OK with RESULT 0. -/
def execNop (d : Desc) (s : State) : Host.Outcome State Fault Refusal := .next (s.runDesc d true State.ok)

/-- IDENTIFY (R22, R238). -/
def execIdentify (d : Desc) (s : State) : Host.Outcome State Fault Refusal :=
  .next (s.runDesc d true (fun t =>
    let w := fun a => leBytes 4 (t.reg a).toNat
    ⟨t, stOK, (t.reg rLINEADDR).toNat,
      if 24 ≤ dsReslen d then w rROLESTAT ++ w rROLECAP ++ w rLINEADDR ++ t.uidBytes ++ leBytes 4 t.sysid else [], false⟩))

/-- The VERSION of the slot marked for boot; with none marked the spec names no value (free, Log 3). -/
def State.activeVersion (s : State) : Nat :=
  match s.markedSlot with
  | some k => s.imgVersion k
  | none => s.free? % 2 ^ 32

/-- BOOT_QUERY (R131). -/
def execBootQuery (d : Desc) (s : State) : Host.Outcome State Fault Refusal :=
  .next (s.runDesc d true (fun t =>
    let w := fun a => leBytes 4 (t.reg a).toNat
    ⟨t.used 1, stOK, (t.reg rRSTCAUSE).toNat,
      w rRSTCAUSE ++ w rBOOTSTAT ++ w rBODCNT ++ leBytes 4 t.sysid ++ leBytes 4 t.activeVersion, false⟩))

/-- Whether a descriptor received earlier still waits (R131). -/
def State.earlierWaits (s : State) (d : Desc) : Bool :=
  match s.node.inbox with
  | [] => false
  | x :: _ => x != d

/-- The line SEQs that RESET's completion carries (R153): the last accepted on each ring, Command in the low byte. -/
def State.lastSeqs (s : State) (d : Desc) : Nat :=
  leNat (((if d.path = .lectern then s.node.sessRx else s.node.seqRx).map (fun n => leBytes 1 n)).flatten)

/-- RESET (R131, R137, R153): once every earlier descriptor has completed it completes OK, and the part resets as a line command when the
completion has left; in recovery the kind is software. -/
def execReset (d : Desc) (s : State) : Host.Outcome State Fault Refusal :=
  .next (
    if s.pump.earlierWaits d || s.rst.resetDue then s
    else
      let t := s.runDesc d (s.role != .chapter) (fun t =>
        ⟨{ t with rst := { t.rst with resetDue := true } }, stOK, t.lastSeqs d, [], false⟩)
      if d.path = .lectern then t.resetNow else t)

end Sys2Proof.Machine
end

