-- ==== Sys2Proof/Machine/Control.lean ====
section
/-! DEFINITION. The control and system instructions that reach no memory (Table 13.7): branches, calls and jumps, hardware
loops, SVC, BREAK, WCALL, MFS, MTS, LCLR, and the reserved encodings (R303). -/

namespace Sys2Proof.Machine

open Sys2Proof

/-! ### Branches, calls and jumps -/

/-- The target of a conditional branch: PC + imm15 × 2. -/
def branchTarget (k : Core) (off : BitVec 15) : Word := k.pc + (off.signExtend 32 <<< 1)

/-- Run a conditional branch: 3 cycles taken, 1 not taken (Table 13.7). -/
def State.instrBranch (s : State) (i : Issue) (off : BitVec 15) (cond : Core → Bool) : State :=
  s.instrCore i (fun k => if cond k then 3 else 1) (fun k =>
    (k, if cond k then .jump (branchTarget k off) else .seq))

/-- BEQ (Table 13.7). -/
def execBeq (i : Issue) (ws wt : Reg) (off : BitVec 15) (s : State) : Host.Outcome State Fault Refusal :=
  .next (s.instrBranch i off (fun k => k.w ws = k.w wt))

/-- BNE (Table 13.7). -/
def execBne (i : Issue) (ws wt : Reg) (off : BitVec 15) (s : State) : Host.Outcome State Fault Refusal :=
  .next (s.instrBranch i off (fun k => k.w ws != k.w wt))

/-- BLT (Table 13.7): signed. -/
def execBlt (i : Issue) (ws wt : Reg) (off : BitVec 15) (s : State) : Host.Outcome State Fault Refusal :=
  .next (s.instrBranch i off (fun k => (k.w ws).slt (k.w wt)))

/-- BGE (Table 13.7): signed. -/
def execBge (i : Issue) (ws wt : Reg) (off : BitVec 15) (s : State) : Host.Outcome State Fault Refusal :=
  .next (s.instrBranch i off (fun k => !(k.w ws).slt (k.w wt)))

/-- BLTU (Table 13.7): unsigned. -/
def execBltu (i : Issue) (ws wt : Reg) (off : BitVec 15) (s : State) : Host.Outcome State Fault Refusal :=
  .next (s.instrBranch i off (fun k => (k.w ws).ult (k.w wt)))

/-- BGEU (Table 13.7): unsigned. -/
def execBgeu (i : Issue) (ws wt : Reg) (off : BitVec 15) (s : State) : Host.Outcome State Fault Refusal :=
  .next (s.instrBranch i off (fun k => !(k.w ws).ult (k.w wt)))

/-- BEQZ (Table 13.7). -/
def execBeqz (i : Issue) (ws : Reg) (off : BitVec 15) (s : State) : Host.Outcome State Fault Refusal :=
  .next (s.instrBranch i off (fun k => k.w ws = 0))

/-- BNEZ (Table 13.7). -/
def execBnez (i : Issue) (ws : Reg) (off : BitVec 15) (s : State) : Host.Outcome State Fault Refusal :=
  .next (s.instrBranch i off (fun k => k.w ws != 0))

/-- CALL (Table 13.7): the link, then PC + imm21 × 2. -/
def execCall (i : Issue) (wd : Reg) (off : BitVec 21) (s : State) : Host.Outcome State Fault Refusal :=
  .next (s.instrCore i (fun _ => 2) (fun k =>
    (k.setW wd (k.pc + issueLen i), .jump (k.pc + (off.signExtend 32 <<< 1)))))

/-- JMP (Table 13.7): PC + imm21 × 2, no link. -/
def execJmp (i : Issue) (off : BitVec 21) (s : State) : Host.Outcome State Fault Refusal :=
  .next (s.instrCore i (fun _ => 2) (fun k => (k, .jump (k.pc + (off.signExtend 32 <<< 1)))))

/-- How a register jump ends: an odd target raises IALIGN with TRAPADDR at the target (Table 13.7). -/
def regJump (t : Word) : After := if t.getLsbD 0 then .trap 0x03 0 (some t) none else .jump t

/-- CALLR (Table 13.7, R282): the link is PC + 4, in compact form PC + 2 (R284). -/
def execCallr (i : Issue) (wd ws : Reg) (imm : BitVec 17) (s : State) : Host.Outcome State Fault Refusal :=
  .next (s.instrCore i (fun _ => 3) (fun k =>
    let t := k.w ws + imm.signExtend 32
    (if t.getLsbD 0 then k else k.setW wd (k.pc + issueLen i), regJump t)))

/-- JMPR (Table 13.7, R282). -/
def execJmpr (i : Issue) (ws : Reg) (imm : BitVec 17) (s : State) : Host.Outcome State Fault Refusal :=
  .next (s.instrCore i (fun _ => 3) (fun k => (k, regJump (k.w ws + imm.signExtend 32))))

/-! ### Hardware loops -/

/-- Set up level `n` (R294): with a count of 0 the level is cleared and the next PC is LE. -/
def Core.loopSetup (k : Core) (n : Nat) (end9 : Nat) (count : Word) : Core × After :=
  let le := k.pc + BitVec.ofNat 32 (2 * end9)
  let on := count != 0
  (k.setLoop n (k.pc + 4) le count on, if on then .seq else .skip le)

/-- LOOP (R294): the count is ws. END9 below 3 is reserved. -/
def execLoop (i : Issue) (n : Fin 3) (ws : Reg) (end9 : BitVec 9) (s : State) : Host.Outcome State Fault Refusal :=
  .next (s.instrCore i (fun _ => 2) (fun k =>
    if end9.toNat < 3 then (k, emulate (wordRL n.val false ws end9.toNat 0))
    else k.loopSetup n.val end9.toNat (k.w ws)))

/-- LOOPI (R294): the count is CNT8. -/
def execLoopi (i : Issue) (n : Fin 3) (cnt : BitVec 8) (end9 : BitVec 9) (s : State) :
    Host.Outcome State Fault Refusal :=
  .next (s.instrCore i (fun _ => 2) (fun k =>
    if end9.toNat < 3 then (k, emulate (wordRL n.val true 0 end9.toNat cnt.toNat))
    else k.loopSetup n.val end9.toNat (cnt.setWidth 32)))

/-- Clear one level by LCLR (Table 13.7): LA and LC. -/
def Core.loopClear (k : Core) (n : Nat) : Core :=
  k.setLoop n (k.ls.getD n 0) (k.le.getD n 0) 0 false

/-- LCLR (Table 13.7): IMM8[7:3] must be 0. -/
def execLclr (i : Issue) (mask : BitVec 8) (s : State) : Host.Outcome State Fault Refusal :=
  .next (s.instrCore i (fun _ => 1) (fun k =>
    if 8 ≤ mask.toNat then (k, emulate (wordRY 0 0 7 mask.toNat))
    else ((List.range 3).foldl (fun q n => if mask.getLsbD n then q.loopClear n else q) k, .seq)))

/-! ### SVC, BREAK and WCALL -/

/-- Cantoris enters XCALL (R274): the service number and w0 to w3 go to the core control block, and XCALL is asserted at
Decani. -/
def State.xcall (s : State) (svc : Nat) : State :=
  let k := s.cant
  (s.sets ([(fCANTSTAT_STATE, 5), (fCANTXCTL_SVC, svc)]
    ++ (List.range 4).map (fun n => (fCANTXARG_ARG n, (k.gpr.getD n 0).toNat)))).wakeOnInt .decani

/-- SVC (R126, R261, R274): on Decani the trap 0x0A in the current world with the immediate in INFO; on Cantoris it does not
trap but stalls the core in XCALL. -/
def execSvc (i : Issue) (imm : BitVec 8) (s : State) : Host.Outcome State Fault Refusal :=
  .next (s.instr i (fun _ => 0) (fun t =>
    match i.core with
    | .decani => (t, .call 0x0A (t.core .decani).world imm.toNat (wordRY 0 0 0 imm.toNat))
    | .cantoris => (t.xcall imm.toNat, .seq)))

/-- Whether the debug level admits a core in its current world (Table 17.7). -/
def State.debugAdmits (s : State) (c : CoreId) : Bool :=
  match (s.core c).world with
  | .nave => decide (1 ≤ s.fld fSACDBG_LEVEL)
  | .sacristy => decide (2 ≤ s.fld fSACDBG_LEVEL)

/-- BREAK (R280, R393): it halts the core for a debugger the level admits, else it takes trap 0x0B. -/
def execBreak (i : Issue) (imm : BitVec 8) (s : State) : Host.Outcome State Fault Refusal :=
  .next (s.instr i (fun _ => 0) (fun t =>
    let k := t.core i.core
    if t.debugAdmits i.core then (t.setCore i.core { k with dbgHalt := true }, .stay)
    else (t, .call 0x0B k.world 0 (wordRY 0 0 1 imm.toNat))))

/-- WCALL (R258, R260, R377): the trap 0x0D in the Sacristy with the immediate in INFO; PRIV on Cantoris. -/
def execWcall (i : Issue) (imm : BitVec 8) (s : State) : Host.Outcome State Fault Refusal :=
  .next (s.instr i (fun _ => 0) (fun t =>
    match i.core with
    | .decani => (t, .call 0x0D .sacristy imm.toNat (wordRY 0 0 2 imm.toNat))
    | .cantoris => (t, privTrap (wordRY 0 0 2 imm.toNat))))

/-! ### Special registers (R292, Tables 13.8 and 14.6) -/

/-- Whether a special-register number is listed. -/
def sregListed (n : Nat) : Bool :=
  decide (n ≤ 0x07) || (decide (0x10 ≤ n) && decide (n ≤ 0x12)) || (decide (0x14 ≤ n) && decide (n ≤ 0x16)) ||
    (decide (0x18 ≤ n) && decide (n ≤ 0x1A)) || (decide (0x20 ≤ n) && decide (n ≤ 0x23)) ||
    (decide (0x30 ≤ n) && decide (n ≤ 0x33)) || (decide (0x40 ≤ n) && decide (n ≤ 0x49))

/-- Whether a special register is marked Sup. -/
def sregSup (n : Nat) : Bool := decide (0x30 ≤ n) && decide (n ≤ 0x33)

/-- TSHAPE of a tile (Table 14.6): the fields of a dead tile other than USE read 0. -/
def tshape (t : Tile) : Nat := if t.use then (t.rows - 1) + 16 * (t.cols - 1) + 256 * t.fmt + 32768 else 0

/-- TUSE (Table 14.6). -/
def tuse (k : Core) : Nat := ((List.range 8).map (fun n => b2n (k.tiles.getD n Tile.dead).use * 2 ^ n)).sum

/-- A special register as MFS reads it where it may (Table 13.8). -/
def Core.sreg (k : Core) (c : CoreId) (n : Nat) : Word :=
  if n = 0x00 then k.psr
  else if n = 0x01 then BitVec.ofNat 32 k.mlo
  else if n = 0x02 then BitVec.ofNat 32 k.mhi
  else if n = 0x03 then (k.psr >>> 8) &&& 3
  else if n = 0x04 then BitVec.ofNat 32 k.acc0
  else if n = 0x05 then BitVec.ofInt 32 (signed 16 (k.acc0 / 2 ^ 32))
  else if n = 0x06 then BitVec.ofNat 32 k.acc1
  else if n = 0x07 then BitVec.ofInt 32 (signed 16 (k.acc1 / 2 ^ 32))
  else if n ≤ 0x12 then k.ls.getD (n - 0x10) 0
  else if n ≤ 0x16 then k.le.getD (n - 0x14) 0
  else if n ≤ 0x1A then k.lc.getD (n - 0x18) 0
  else if n ≤ 0x23 then featWord c (n - 0x20)
  else if n ≤ 0x31 then k.vbase.getD (n - 0x30) 0
  else if n = 0x32 then k.trapaddr.getD k.world.ix 0
  else if n = 0x33 then k.trapinst.getD k.world.ix 0
  else if n ≤ 0x47 then BitVec.ofNat 32 (tshape (k.tiles.getD (n - 0x40) Tile.dead))
  else if n = 0x48 then BitVec.ofNat 32 (tuse k)
  else k.tcause

/-- MTS to PSR (R293, R304): WORLD and the reserved bits stay, and the LA bits govern loop-back from the third instruction
on. -/
def Core.setPsr (k : Core) (v : Word) : Core :=
  let p := (k.psr &&& 0xFFFFE0FA) ||| (v &&& 0x00001F05)
  (List.range 3).foldl (fun q n => q.pendLoop 3 n (b2n (p.getLsbD (10 + n)))) { k with psr := p }

/-- A special register as MTS writes it where it may (Table 13.8): RO registers ignore it. -/
def Core.setSreg (k : Core) (n : Nat) (v : Word) : Core :=
  if n = 0x00 then k.setPsr v
  else if n = 0x01 then k.pushLand ⟨.mlo, v.toNat, k.cyc + 1⟩
  else if n = 0x02 then k.pushLand ⟨.mhi, v.toNat, k.cyc + 1⟩
  else if n = 0x03 then { k with psr := (k.psr &&& 0xFFFFFCFF) ||| ((v &&& 3) <<< 8) }
  else if n = 0x04 then k.accLand 0 (k.accChain 0 / 2 ^ 32 * 2 ^ 32 + v.toNat) 1
  else if n = 0x05 then k.accLand 0 (k.accChain 0 % 2 ^ 32 + v.toNat % 2 ^ 16 * 2 ^ 32) 1
  else if n = 0x06 then k.accLand 1 (k.accChain 1 / 2 ^ 32 * 2 ^ 32 + v.toNat) 1
  else if n = 0x07 then k.accLand 1 (k.accChain 1 % 2 ^ 32 + v.toNat % 2 ^ 16 * 2 ^ 32) 1
  else if n ≤ 0x12 then
    let v := v &&& 0xFFFFFFFE
    { k with ls := k.ls.set (n - 0x10) v }.pendLoop 0 (n - 0x10) v.toNat
  else if n ≤ 0x16 then
    let v := v &&& 0xFFFFFFFE
    { k with le := k.le.set (n - 0x14) v }.pendLoop 1 (n - 0x14) v.toNat
  else if n ≤ 0x1A then { k with lc := k.lc.set (n - 0x18) v }.pendLoop 2 (n - 0x18) v.toNat
  else if n = 0x30 ∨ n = 0x31 then { k with vbase := k.vbase.set (n - 0x30) (v &&& 0xFFFFFFE0) }
  else if n = 0x32 then { k with trapaddr := k.trapaddr.set k.world.ix v }
  else if n = 0x33 then { k with trapinst := k.trapinst.set k.world.ix v }
  else k

/-- MFS (R292): an unlisted number raises EMULATE, a Sup register read by user PRIV; VBASES read from Nave is zero and is
logged (R257). -/
def execMfs (i : Issue) (wd : Reg) (n : BitVec 8) (s : State) : Host.Outcome State Fault Refusal :=
  .next (s.instr i (fun _ => 1) (fun t =>
    let k := t.core i.core
    let word := wordRY wd 0 5 n.toNat
    if !sregListed n.toNat then (t, emulate word)
    else if sregSup n.toNat && !k.sup then (t, privTrap word)
    else if n = 0x31 ∧ k.world = .nave then
      let u := t.violate 2 0 n.toNat 0
      (u.setCore i.core ((u.core i.core).setW wd 0), .seq)
    else (t.setCore i.core (k.setW wd (k.sreg i.core n.toNat)), .seq)))

/-- MTS (R292): an unlisted number raises EMULATE; writing PSR or a Sup register as user raises PRIV; VBASES written from
Nave is not acted on and is logged (R257); a write to an RO register is ignored. -/
def execMts (i : Issue) (n : BitVec 8) (ws : Reg) (s : State) : Host.Outcome State Fault Refusal :=
  .next (s.instr i (fun _ => 1) (fun t =>
    let k := t.core i.core
    let word := wordRY 0 ws 6 n.toNat
    if !sregListed n.toNat then (t, emulate word)
    else if (sregSup n.toNat || n = 0) && !k.sup then (t, privTrap word)
    else if n = 0x31 ∧ k.world = .nave then (t.violate 2 0 n.toNat (k.w ws).toNat, .seq)
    else (t.setCore i.core (k.setSreg n.toNat (k.w ws)), .seq)))

/-- EMULATE (R303): a reserved encoding raises the trap with its word and reads and writes nothing. -/
def execEmulate (i : Issue) (word : Word) (s : State) : Host.Outcome State Fault Refusal :=
  .next (s.instr i (fun _ => 0) (fun t => (t, emulate word)))

end Sys2Proof.Machine
end

