-- ==== Sys2Proof/Machine/LoadStore.lean ====
section
/-! DEFINITION. The memory instructions (Table 13.6), RETT (R262), the fences and the cache instructions (R300, R360), and the
drain of a store buffer (R358). -/

namespace Sys2Proof.Machine

open Sys2Proof

/-! ### Loads -/

/-- What an access comes to: bytes, a wait for a self-test slice or for the host window, a privilege violation, a refusal of the guard, a bus
error. -/
inductive Got where
  | ok (bs : List Byte)
  | wait
  | priv
  | guard
  | bus
  deriving DecidableEq, Repr

/-- The newest buffered byte for an address (R358). -/
def Core.forward (k : Core) (a : Nat) : Option Byte :=
  k.sbuf.reverse.findSome? (fun e =>
    if e.addr ≤ a && a < e.addr + e.data.length then e.data[a - e.addr]? else none)

/-- The way of a line goes, and its core's reservation of it with it (R361, R370). -/
def State.dropWay (s : State) (c : CacheId) (base : Nat) : State :=
  (s.setLines c (dropLine (s.lines c) base)).unreserveOwn c base

/-- The count of clean parity refetches of a cache (Table 16.9). -/
def fCLEAN (c : CacheId) : Fld :=
  match c with
  | .dec => fCOHCNT_CLEAN0
  | .cant => fCOHCNT_CLEAN1
  | .desc => fCOHCNT_CLEAN2

/-- A load miss: ReadShared, then the bytes; a byte whose parity is wrong is a bus error. -/
def State.missRead (s : State) (c : CacheId) (a n : Nat) : Bool × List Byte × State :=
  let base := lineOf a
  let r := s.readShared c base
  match r.1, findLine (r.2.lines c) base with
  | true, some x =>
    ((List.range n).all (fun i => !x.bad.contains (a - base + i)), (x.data.drop (a - base)).take n, r.2)
  | _, _ => (false, List.replicate n 0, r.2)

/-- Bytes of one line through a data cache (R353, R370). Which way held a lost line is open (Log 4). -/
def State.cachedRead (s : State) (c : CacheId) (a n : Nat) : Bool × List Byte × State :=
  let base := lineOf a
  match findLine (s.lines c) base with
  | none => s.missRead c a n
  | some x =>
    let clean := x.st != .modified
    let badRead := (List.range n).any (fun i => x.bad.contains (a - base + i))
    if x.tagBad && !clean then
      (((s.dropWay c base).raise [fCOHFLAG_DIRTYLOST]).setFld fCOHFLAG_SETWAY s.free? |>.used 1).missRead c a n
    else if x.tagBad || (badRead && clean) then ((s.dropWay c base).count (fCLEAN c)).missRead c a n
    else if badRead then (false, List.replicate n 0, s.raise [fCOHFLAG_DIRTYPAR])
    else (true, (x.data.drop (a - base)).take n, s)

/-- Read a run of bytes of one line from memory that is not device memory, with the newest buffered bytes over it (R358). -/
def State.memRun (s : State) (c : CoreId) (w : World) (a n : Nat) : Bool × List Byte × State :=
  let chk := s.busCheck (.core c) w false a 0
  let fw := (List.range n).map (fun i => (s.core c).forward (a + i))
  if !chk.1 then (false, List.replicate n 0, chk.2)
  else if fw.all Option.isSome then (true, fw.map (fun b => b.getD 0), chk.2)
  else
    let r := match (region a).type with
      | .uncached => chk.2.homeRead a n
      | _ => chk.2.cachedRead (cacheOf c) a n
    (r.1, (List.zip fw r.2.1).map (fun p => p.1.getD p.2), r.2.2)

/-- The sizes of the device accesses that a run is made of: words where it is aligned, else halfwords, else bytes (Log 35). -/
def devParts : Nat → Nat → Nat → List (Nat × Nat)
  | 0, _, _ => []
  | f + 1, a, n =>
    if n = 0 then []
    else
      let k := if a % 4 = 0 ∧ 4 ≤ n then 4 else if a % 2 = 0 ∧ 2 ≤ n then 2 else 1
      (a, k) :: devParts f (a + k) (n - k)

/-- Read one device access: a register page or core-private space; every other address is a bus error (R325). -/
def State.devRead (s : State) (c : CoreId) (w : World) (sup : Bool) (a n : Nat) : Bool × List Byte × State :=
  match region a with
  | .periph => s.pageRead (.core c) w sup a n
  | .corePrivate =>
    if n = 4 then (true, leBytes 4 (s.privRead c w a).toNat, s) else (true, freeBytes s.free n, s.used n)
  | _ => (false, List.replicate n 0, s)

/-- Read device accesses in order; the first bus error ends them. -/
def State.devReads (s : State) (c : CoreId) (w : World) (sup : Bool) : List (Nat × Nat) → Bool × List Byte × State
  | [] => (true, [], s)
  | p :: ps =>
    let r := s.devRead c w sup p.1 p.2
    if r.1 then
      let q := State.devReads r.2.2 c w sup ps
      (q.1, r.2.1 ++ q.2.1, q.2.2)
    else r

/-- Read runs of memory in order; the first bus error ends them, and its address is told. -/
def State.memRuns (s : State) (c : CoreId) (w : World) : List (Nat × Nat) → Option Nat × List Byte × State
  | [] => (none, [], s)
  | p :: ps =>
    let r := s.memRun c w p.1 p.2
    if r.1 then
      let q := State.memRuns r.2.2 c w ps
      (q.1, r.2.1 ++ q.2.1, q.2.2)
    else (some p.1, r.2.1, r.2.2)

/-- Cut `n` bytes from an address at line boundaries. -/
def lineRuns (f a n : Nat) : List (Nat × Nat) :=
  (lineParts f a (List.replicate n 0)).map (fun p => (p.1, p.2.length))

/-- Ask the host for the accesses of a load through the window, or take the answer that has come (R221). -/
def State.winLoad (s : State) (c : CoreId) (a : Nat) (parts : List (Nat × Nat)) : Got × State :=
  let n := (parts.map (·.2)).sum
  match s.hl.winAns with
  | some (c', a', ans) =>
    if c' = c ∧ a' = a then
      let t := s.setHl (fun h => { h with winAns := none })
      match ans with
      | some bs => (.ok (padTo n bs), t)
      | none => (.bus, t)
    else (.wait, s)
  | none =>
    if s.hl.winAsk.isSome then (.wait, s)
    else if !s.winReady then (.bus, s.winFail a false)
    else
      let t := parts.foldl (fun t p => t.emit (.hostRead (t.winAddr p.1) p.2)) s
      (.wait, t.setHl (fun h => { h with winAsk := some (c, a) }))

/-- Whether an address lies in the range that only supervisor code may load and store (R257). -/
def privSpace (a : Nat) : Bool := decide (0xE0000000 ≤ a) && decide (a < 0xF0000000)

/-- Whether the host window is there: only the Chapter has it (Table 15.1). -/
def State.hasWindow (s : State) : Bool := s.role = .chapter

/-- A load of `n` bytes checked by the guard at `a` (R363, R364): privilege, guard and bus, in that order (R278). -/
def State.loadAt (s : State) (c : CoreId) (w : World) (sup : Bool) (a n : Nat) : Got × State :=
  let g := (s.core c).guard w sup .r a
  if privSpace a && !sup then (.priv, s)
  else if !g.1 then (.guard, s.setCore c ((s.core c).refused g.2 false false))
  else if s.accessWaits a then (.wait, s)
  else
    match (region a).type with
    | .device =>
      let t := s.drainAll c
      if region a = .hostwin ∧ s.hasWindow then t.winLoad c a (devParts n a n)
      else
        let r := t.devReads c w sup (devParts n a n)
        (if r.1 then .ok r.2.1 else .bus, r.2.2)
    | _ =>
      let r := s.memRuns c w (lineRuns (n + 1) a n)
      (if r.1.isSome then .bus else .ok r.2.1, r.2.2)

/-- How an access that gave no bytes ends its instruction: it waits, or traps with the data address and the instruction
word; INFO is 1 for a store. -/
def Got.after (g : Got) (store : Bool) (a : Word) (word : Word) : After :=
  match g with
  | .ok _ => .seq
  | .wait => .stay
  | .priv => privTrap word
  | .guard => .trap 0x07 (b2n store) (some a) (some word)
  | .bus => .trap 0x08 (b2n store) (some a) (some word)

/-- DALIGN at an address. -/
def dalign (a : Word) (word : Word) : After := .trap 0x06 0 (some a) (some word)

/-- Run a load of 1, 2 or 4 bytes from an address of the core. -/
def State.instrLoad (s : State) (i : Issue) (word : Word) (n : Nat) (addr : Core → Word) (fin : Core → Nat → Core) : State :=
  s.instr i (fun _ => 1) (fun t =>
    let k := t.core i.core
    let a := addr k
    if privSpace a.toNat && !k.sup then (t, privTrap word)
    else if a.toNat % n != 0 then (t, dalign a word)
    else
      let r := t.loadAt i.core k.world k.sup a.toNat n
      match r.1 with
      | .ok bs => (r.2.setCore i.core (fin (r.2.core i.core) (leNat bs)), .seq)
      | g => (r.2, g.after false a word))

/-- The address of base and offset. -/
def memAddr (ws : Reg) (imm : BitVec 18) (k : Core) : Word := k.w ws + imm.signExtend 32

/-- LDB (Table 13.6): sign-extended. -/
def execLdb (i : Issue) (wd ws : Reg) (imm : BitVec 18) (s : State) : Host.Outcome State Fault Refusal :=
  .next (s.instrLoad i (wordRI 0x0B wd ws imm) 1 (memAddr ws imm) (fun k v => k.setW wd (BitVec.ofInt 32 (signed 8 v))))

/-- LDBU (Table 13.6). -/
def execLdbu (i : Issue) (wd ws : Reg) (imm : BitVec 18) (s : State) : Host.Outcome State Fault Refusal :=
  .next (s.instrLoad i (wordRI 0x0C wd ws imm) 1 (memAddr ws imm) (fun k v => k.setW wd (BitVec.ofNat 32 v)))

/-- LDH (Table 13.6): sign-extended. -/
def execLdh (i : Issue) (wd ws : Reg) (imm : BitVec 18) (s : State) : Host.Outcome State Fault Refusal :=
  .next (s.instrLoad i (wordRI 0x0D wd ws imm) 2 (memAddr ws imm) (fun k v => k.setW wd (BitVec.ofInt 32 (signed 16 v))))

/-- LDHU (Table 13.6). -/
def execLdhu (i : Issue) (wd ws : Reg) (imm : BitVec 18) (s : State) : Host.Outcome State Fault Refusal :=
  .next (s.instrLoad i (wordRI 0x0E wd ws imm) 2 (memAddr ws imm) (fun k v => k.setW wd (BitVec.ofNat 32 v)))

/-- The word of LDW or STW: in compact form the halfword of C.LDWSP or C.STWSP (R284). -/
def wordLS (i : Issue) (compact major : Nat) (wd ws : Reg) (imm : BitVec 18) : Word :=
  if i.compact then wordC compact (imm.toNat / 64 % 16) wd.val (imm.toNat / 4 % 16) else wordRI major wd ws imm

/-- LDW (Table 13.6); its compact form is C.LDWSP. -/
def execLdw (i : Issue) (wd ws : Reg) (imm : BitVec 18) (s : State) : Host.Outcome State Fault Refusal :=
  .next (s.instrLoad i (wordLS i 3 0x0F wd ws imm) 4 (memAddr ws imm) (fun k v => k.setW wd (BitVec.ofNat 32 v)))

/-- LDWP (Table 13.6): the word at ws, then ws += imm; wd = ws is reserved. -/
def execLdwp (i : Issue) (wd ws : Reg) (imm : BitVec 18) (s : State) : Host.Outcome State Fault Refusal :=
  .next (
    let word := wordRI 0x13 wd ws imm
    if wd = ws then s.instr i (fun _ => 0) (fun t => (t, emulate word))
    else s.instrLoad i word 4 (fun k => k.w ws) (fun k v =>
      (k.setW wd (BitVec.ofNat 32 v)).setW ws (k.w ws + imm.signExtend 32)))

/-- LDX (Table 13.6, R301, R361): the word, and a reservation of its line in Normal memory or MRAM. The buffer drains first, so that no
earlier store of this core ends the reservation (Log 36). -/
def execLdx (i : Issue) (wd ws : Reg) (s : State) : Host.Outcome State Fault Refusal :=
  .next (
    let word := wordRR 0x15 wd ws 0 0 0
    s.instr i (fun _ => 1) (fun t =>
      let k := t.core i.core
      let a := k.w ws
      if privSpace a.toNat && !k.sup then (t, privTrap word)
      else if a.toNat % 4 != 0 then (t, dalign a word)
      else
        let r := (t.drainAll i.core).loadAt i.core k.world k.sup a.toNat 4
        match r.1 with
        | .ok bs =>
          let ty := (region a.toNat).type
          let q := (r.2.core i.core).setW wd (BitVec.ofNat 32 (leNat bs))
          (r.2.setCore i.core { q with
            resv := if ty = .normal ∨ ty = .mram then some (lineOf a.toNat) else none }, .seq)
        | g => (r.2, g.after false a word)))

/-! ### Stores -/

/-- Write device accesses in order; the first bus error ends them. -/
def State.devWrites (s : State) (c : CoreId) (w : World) (sup : Bool) : List (Nat × List Byte) → Bool × State
  | [] => (true, s)
  | p :: ps =>
    let r : Bool × State := match region p.1 with
      | .periph => s.pageWrite (.core c) w sup p.1 p.2
      | .corePrivate =>
        let v := s.writeWord p.1 p.2
        (true, v.2.privWrite c w (p.1 / 4 * 4) v.1)
      | .hostwin => if s.hasWindow then (true, s.winWrite p.1 p.2) else (false, s)
      | _ => (false, s)
    if r.1 then State.devWrites r.2 c w sup ps else r

/-- Cut bytes into device accesses. -/
def devPieces (a : Nat) (bs : List Byte) : List (Nat × List Byte) :=
  (devParts (bs.length + 1) a bs.length).map (fun p => (p.1, (bs.drop (p.1 - a)).take p.2))

/-- Write MRAM words in order; the first bus error ends them. -/
def State.mramWords (s : State) (c : CoreId) (w : World) : List (Nat × List Byte) → Bool × State
  | [] => (true, s)
  | p :: ps =>
    let r := s.putPart c w p.1 p.2
    if r.1 then State.mramWords r.2 c w ps else r

/-- A store of bytes checked by the guard at `a` (R353, R358, R363, R366): buffered to Normal and Uncached memory, else performed at once
after the buffer is empty. -/
def State.storeAt (s : State) (c : CoreId) (w : World) (sup : Bool) (a : Nat) (bs : List Byte) : Got × State :=
  if privSpace a && !sup then (.priv, s)
  else
    match (region a).type with
    | .normal | .uncached =>
      if s.accessWaits a then (.wait, s) else (.ok [], s.bufferStore c ⟨w, sup, a, false, a, bs⟩)
    | ty =>
      let g := (s.core c).guard w sup .w a
      if !g.1 then (.guard, s.setCore c ((s.core c).refused g.2 true false))
      else if s.accessWaits a then (.wait, s)
      else
        let t := s.drainAll c
        let r := if ty = .mram then t.mramWords c w (wordParts (bs.length + 1) a bs) else t.devWrites c w sup (devPieces a bs)
        (if r.1 then .ok [] else .bus, r.2)

/-- Run a store of 1, 2 or 4 bytes. -/
def State.instrStore (s : State) (i : Issue) (word : Word) (n : Nat) (addr : Core → Word) (wt : Reg) (fin : Core → Core) : State :=
  s.instr i (fun _ => 1) (fun t =>
    let k := t.core i.core
    let a := addr k
    if privSpace a.toNat && !k.sup then (t, privTrap word)
    else if a.toNat % n != 0 then (t, dalign a word)
    else
      let r := t.storeAt i.core k.world k.sup a.toNat (leBytes n (k.w wt).toNat)
      match r.1 with
      | .ok _ => (r.2.setCore i.core (fin (r.2.core i.core)), .seq)
      | g => (r.2, g.after true a word))

/-- STB (Table 13.6). -/
def execStb (i : Issue) (wt ws : Reg) (imm : BitVec 18) (s : State) : Host.Outcome State Fault Refusal :=
  .next (s.instrStore i (wordRI 0x10 wt ws imm) 1 (memAddr ws imm) wt id)

/-- STH (Table 13.6). -/
def execSth (i : Issue) (wt ws : Reg) (imm : BitVec 18) (s : State) : Host.Outcome State Fault Refusal :=
  .next (s.instrStore i (wordRI 0x11 wt ws imm) 2 (memAddr ws imm) wt id)

/-- STW (Table 13.6); its compact form is C.STWSP. -/
def execStw (i : Issue) (wt ws : Reg) (imm : BitVec 18) (s : State) : Host.Outcome State Fault Refusal :=
  .next (s.instrStore i (wordLS i 4 0x12 wt ws imm) 4 (memAddr ws imm) wt id)

/-- STWP (Table 13.6): store at ws, then ws += imm. -/
def execStwp (i : Issue) (wt ws : Reg) (imm : BitVec 18) (s : State) : Host.Outcome State Fault Refusal :=
  .next (s.instrStore i (wordRI 0x14 wt ws imm) 4 (fun k => k.w ws) wt (fun k =>
    k.setW ws (k.w ws + imm.signExtend 32)))

/-- STX to a line that is reserved (R301, R361): false is a bus error. -/
def State.putReserved (s : State) (c : CoreId) (w : World) (a : Nat) (bs : List Byte) : Bool × State := s.putPart c w a bs

/-- STX (Table 13.6, R301, R358, R361): with the reservation of the line held, the word is stored and wd = 0; else nothing is stored and
wd = 1. The reservation is gone either way. -/
def execStx (i : Issue) (wd wt ws : Reg) (s : State) : Host.Outcome State Fault Refusal :=
  .next (
    let word := wordRR 0x15 wd ws wt 1 0
    s.instr i (fun _ => 2) (fun t =>
      let k := t.core i.core
      let a := k.w ws
      let ty := (region a.toNat).type
      let g := k.guard k.world k.sup .w a.toNat
      if privSpace a.toNat && !k.sup then (t, privTrap word)
      else if a.toNat % 4 != 0 then (t, dalign a word)
      else if !g.1 then (t.setCore i.core (k.refused g.2 true false), Got.guard.after true a word)
      else if t.accessWaits a.toNat then (t, .stay)
      else
        let t := t.drainAll i.core
        let held := (t.core i.core).resv = some (lineOf a.toNat) && (ty = .normal || ty = .mram)
        let end_ := fun (u : State) (v : Word) =>
          u.setCore i.core ({ u.core i.core with resv := none }.setW wd v)
        if held then
          let r := t.putReserved i.core k.world a.toNat (leBytes 4 (k.w wt).toNat)
          if r.1 then (end_ r.2 0, .seq)
          else (r.2.setCore i.core { r.2.core i.core with resv := none }, Got.bus.after true a word)
        else (end_ t 1, .seq)))

/-! ### PUSHM and POPM -/

/-- The registers of a mask, lowest-numbered first. -/
def maskRegs (m : BitVec 16) : List Reg := (List.finRange 16).filter (fun r => m.getLsbD r.val)

/-- Whether a mask is reserved (Table 13.6). -/
def maskBad (m : BitVec 16) : Bool := m = 0 || m.getLsbD 14

/-- The cycles of PUSHM and POPM. -/
def maskCycles (m : BitVec 16) : Nat := 1 + ((maskRegs m).length + 1) / 2

/-- PUSHM (Table 13.6, R363): the registers below w14, then w14 goes down; checked at the lowest address. -/
def execPushm (i : Issue) (mask : BitVec 16) (s : State) : Host.Outcome State Fault Refusal :=
  .next (
    let word := insWord 0x16 mask.toNat
    s.instr i (fun _ => if maskBad mask then 0 else maskCycles mask) (fun t =>
      let k := t.core i.core
      let rs := maskRegs mask
      let a := k.w 14 - BitVec.ofNat 32 (4 * rs.length)
      if maskBad mask then (t, emulate word)
      else
        let r := t.storeAt i.core k.world k.sup a.toNat ((rs.map (fun x => wordBytes (k.w x))).flatten)
        match r.1 with
        | .ok _ => (r.2.setCore i.core ((r.2.core i.core).setW 14 a), .seq)
        | g => (r.2, g.after true a word)))

/-- Load registers from bytes in order. -/
def Core.setWords (k : Core) : List Reg → List Byte → Core
  | [], _ => k
  | r :: rs, bs => Core.setWords (k.setW r (BitVec.ofNat 32 (leNat (bs.take 4)))) rs (bs.drop 4)

/-- POPM (Table 13.6, R363): the registers from w14 upwards, then w14 goes up; checked at the lowest address. -/
def execPopm (i : Issue) (mask : BitVec 16) (s : State) : Host.Outcome State Fault Refusal :=
  .next (
    let word := insWord 0x17 mask.toNat
    s.instr i (fun _ => if maskBad mask then 0 else maskCycles mask) (fun t =>
      let k := t.core i.core
      let rs := maskRegs mask
      let a := k.w 14
      if maskBad mask then (t, emulate word)
      else
        let r := t.loadAt i.core k.world k.sup a.toNat (4 * rs.length)
        match r.1 with
        | .ok bs =>
          (r.2.setCore i.core (((r.2.core i.core).setWords rs bs).setW 14 (a + BitVec.ofNat 32 (4 * rs.length))), .seq)
        | g => (r.2, g.after false a word)))

/-! ### RETT (R262) -/

/-- A word of a frame. -/
def frameWord (bs : List Byte) (n : Nat) : Word := BitVec.ofNat 32 (leNat ((bs.drop (4 * n)).take 4))

/-- The core with a frame restored (R262, R298, R301): `i` is the copy of w14 the frame lies at. -/
def Core.restore (k : Core) (i : Nat) (bs : List Byte) : Core :=
  let cause := frameWord bs 7
  let psr := frameWord bs 6 &&& 0x1F07
  let sp := k.sp.getD i 0 + (if cause.getLsbD 10 then 36 else 32)
  { k.setSp i sp with
    gpr := ((((k.gpr.set 0 (frameWord bs 0)).set 1 (frameWord bs 1)).set 2 (frameWord bs 2)).set 3 (frameWord bs 3)).set 15
      (frameWord bs 4)
    psr := psr
    dla := psrLA psr
    lpend := k.lpend.filter (fun p => p.kind != 3)
    resv := none
    active := if cause.getLsbD 8 then k.active.drop 1 else k.active }

/-- RETT (R257, R262): user code, or a frame that names the Sacristy popped in Nave, takes PRIV. A change of world drains the store
buffer (R366). -/
def execRett (i : Issue) (s : State) : Host.Outcome State Fault Refusal :=
  .next (
    let word := wordRY 0 0 3 0
    s.instr i (fun _ => 6) (fun t =>
      let k := t.core i.core
      let n := spIx k.world true
      let a := k.sp.getD n 0
      if !k.sup then (t, privTrap word)
      else
        let r := t.loadAt i.core k.world true a.toNat 32
        match r.1 with
        | .ok bs =>
          let tgt := psrWorld (frameWord bs 6)
          if k.world = .nave ∧ tgt = .sacristy then (r.2, privTrap word)
          else
            let u := if tgt = k.world then r.2 else r.2.drainAll i.core
            (u.setCore i.core ((u.core i.core).restore n bs), .jump (frameWord bs 5))
        | g => (r.2, g.after false a word)))

/-! ### Fences and caches (R300, R360) -/

/-- FENCE (R360): every earlier store is visible; in this model every earlier load has its data. -/
def execFence (i : Issue) (s : State) : Host.Outcome State Fault Refusal :=
  .next (s.instr i (fun k => 1 + k.sbuf.length) (fun t => (t.drainAll i.core, .seq)))

/-- ISYNC (R300): the instruction cache is invalid. -/
def execIsync (i : Issue) (s : State) : Host.Outcome State Fault Refusal :=
  .next (s.instrCore i (fun _ => 4) (fun k => ({ k with ic := [] }, .seq)))

/-- ICINV (R300): the instruction-cache line holding ws is invalid. -/
def execIcinv (i : Issue) (ws : Reg) (s : State) : Host.Outcome State Fault Refusal :=
  .next (s.instrCore i (fun _ => 2) (fun k =>
    ({ k with ic := k.ic.filter (fun p => p.1 != lineOf (k.w ws).toNat) }, .seq)))

/-- Drain a core's buffered stores to a line (R360): the buffer drains in order, so up to the last of them. -/
def State.drainLine (s : State) (c : CoreId) (base : Nat) : State :=
  let hits := fun (t : State) => (t.core c).sbuf.any (fun e => e.addr < base + 32 && base < e.addr + e.data.length)
  (s.core c).sbuf.foldl (fun t _ => if hits t then t.drainOne c else t) s

/-- DCCLEAN (R360, R363): not checked by the guard. -/
def execDcclean (i : Issue) (ws : Reg) (s : State) : Host.Outcome State Fault Refusal :=
  .next (s.instr i (fun _ => 2) (fun t =>
    let base := lineOf ((t.core i.core).w ws).toNat
    ((t.drainLine i.core base).cleanLine (cacheOf i.core) base, .seq)))

/-- DCCINV (R360, R363): checked for W at the line's first byte. -/
def execDccinv (i : Issue) (ws : Reg) (s : State) : Host.Outcome State Fault Refusal :=
  .next (s.instr i (fun _ => 2) (fun t =>
    let k := t.core i.core
    let base := lineOf (k.w ws).toNat
    let g := k.guard k.world k.sup .w base
    if !g.1 then
      (t.setCore i.core (k.refused g.2 true false), Got.guard.after true (BitVec.ofNat 32 base) (wordRY 0 ws 12 0))
    else ((t.drainLine i.core base).writeBackOut (cacheOf i.core) base, .seq)))

/-- STORE_DRAIN (R358, R366): the oldest buffered store of a core drains. -/
def execStoreDrain (c : CoreId) (s : State) : Host.Outcome State Fault Refusal :=
  .next (if s.cacheUp c then s.drainOne c else s)

end Sys2Proof.Machine
end

