-- ==== Sys2Proof/Machine/Tap.lean ====
section
/-! DEFINITION. The test access port: boundary scan (R43, R560, R561) and debug accesses (R393). -/

namespace Sys2Proof.Machine

open Sys2Proof

/-! ### Boundary scan -/

/-- The input, output and enable cells of a pad the part drives. -/
def padCells (input : Bool) (d : PadDrive) : List Bool := [input, d.level, d.oe]

/-- The boundary register as it captures (R560), cell 0 first. `obs` is what stands on PERST_N, CLKREQ_N, PWAKE_N, ROLE0, ROLE1 and
RST_N, in that order from bit 0; D-type inputs read 0 while VDDIO is low (R44). The part never drives PERST_N, and drives CLKREQ_N and
PWAKE_N only low. -/
def State.boundary (s : State) (obs : BitVec 6) : List Bool :=
  let vio := !s.on fPADSTAT_VIOLOW
  let clkreq := s.role = .chapter && !(s.fld fHLSTAT_LPM = 2 && s.hl.clkPm)
  ((List.range 16).map (fun k => padCells (vio && s.pads.level.testBit k) (s.padNow k))).flatten ++
    padCells (vio && obs.getLsbD 0) ⟨false, false, 0⟩ ++
    padCells (vio && obs.getLsbD 1) ⟨false, clkreq, 0⟩ ++
    padCells (vio && obs.getLsbD 2) ⟨false, s.pads.pwakeLow, 0⟩ ++
    [obs.getLsbD 3, obs.getLsbD 4, obs.getLsbD 5]

/-- A scan through the bypass register, which captures 0: the bits at TDO. -/
def bypassOut (scan : List Bool) : List Bool := (false :: scan).take scan.length

/-- The port takes BYPASS with a data scan. -/
def State.tapBypass (s : State) (scan : List Bool) : State :=
  { s with tap := { s.tap with ir := 0 } }.emit (.tdo (bypassOut scan))

/-- The port takes an instruction that selects the boundary register; a data scan of one bit or more captures, shifts towards TDO and
updates it. An instruction that may not act is BYPASS. -/
def State.tapScan (s : State) (ir : Nat) (obs : BitVec 6) (scan : List Bool) : State :=
  if !s.scanActs then s.tapBypass scan
  else
    let held : State := { s with tap := { s.tap with ir := ir } }
    if scan.isEmpty then held
    else
      let reg := held.boundary obs ++ scan
      { held with tap := { held.tap with latch := reg.drop scan.length } }.emit (.tdo (reg.take scan.length))

/-- EXTEST (R43, R560): the boundary register drives the covered pads. -/
def execExtest (obs : BitVec 6) (scan : List Bool) (s : State) : Host.Outcome State Fault Refusal :=
  .next (s.tapScan 2 obs scan)

/-- SAMPLE/PRELOAD (R560): the pads are observed and the boundary register is loaded. -/
def execSamplePreload (obs : BitVec 6) (scan : List Bool) (s : State) : Host.Outcome State Fault Refusal :=
  .next (s.tapScan 1 obs scan)

/-- BYPASS (R560), and every code that acts as it. -/
def execBypass (scan : List Bool) (s : State) : Host.Outcome State Fault Refusal := .next (s.tapBypass scan)

/-- TRST (R560, R561): the port is reset, and its instruction register holds BYPASS. -/
def execTrst (s : State) : Host.Outcome State Fault Refusal := .next { s with tap := { s.tap with ir := 0 } }

/-! ### Debug accesses -/

/-- Whether the debug level admits memory of a world (Table 17.7). -/
def State.debugWorld (s : State) (w : World) : Bool :=
  match w with
  | .nave => decide (1 ≤ s.fld fSACDBG_LEVEL)
  | .sacristy => decide (2 ≤ s.fld fSACDBG_LEVEL)

/-- A word read by the port in a world: false is a bus error. Core-private space is that of the core named. -/
def State.debugRead (s : State) (c : CoreId) (w : World) (a : Nat) : Bool × List Byte × State :=
  match region a with
  | .periph => s.pageRead .debug w true a 4
  | .corePrivate => (true, leBytes 4 (s.privRead c w a).toNat, s)
  | _ =>
    let chk := s.busCheck .debug w false a 0
    if !chk.1 then (false, [], chk.2)
    else
      match (region a).type with
      | .normal => chk.2.readOnce 3 a 4
      | .mram => chk.2.readOnce 3 a 4
      | _ => chk.2.homeRead a 4

/-- A word written by the port in a world. -/
def State.debugWrite (s : State) (c : CoreId) (w : World) (a : Nat) (v : Word) : State :=
  let bs := leBytes 4 v.toNat
  match region a with
  | .periph => (s.pageWrite .debug w true a bs).2
  | .corePrivate => s.privWrite c w a v
  | _ =>
    let chk := s.busCheck .debug w true a v.toNat
    if !chk.1 then chk.2
    else
      match (region a).type with
      | .uncached => { chk.2 with mem := chk.2.mem.putBytes a bs }
      | .device => chk.2
      | _ => chk.2.writeUnique none 3 a bs

/-- A debug access that the level does not vet is logged (R393, R395). -/
def State.debugRefused (s : State) (a data : Nat) : State := s.violate 9 0 a data

/-- DEBUG_ACCESS (R136, R280, R393): halt, resume or step a core whose world the level admits, or read or write an aligned word in a
world it admits; anything else is not acted on and is logged. Decani resumed after a failed OTP check leaves its stop. -/
def execDebugAccess (c : CoreId) (op : DebugOp) (s : State) : Host.Outcome State Fault Refusal :=
  .next (
    if !(s.slp.st = .run || s.slp.st = .doze) then s
    else
      let t : State := { s with tap := { s.tap with ir := 3 } }
      let k := t.core c
      match op with
      | .halt => if t.debugAdmits c then t.setCore c { k with dbgHalt := true } else t.debugRefused 0 0
      | .resume =>
        if t.debugAdmits c then
          let u := t.setCore c { k with dbgHalt := false, dbgStep := false }
          if c = .decani then { u with rst := { u.rst with stopped := false } } else u
        else t.debugRefused 0 0
      | .step =>
        if t.debugAdmits c then t.setCore c { k with dbgStep := k.dbgHalt } else t.debugRefused 0 0
      | .read w a =>
        let b := a / 4 * 4
        if !t.debugWorld w then t.debugRefused b 0
        else if t.accessWaits b then t
        else
          let r := t.debugRead c w b
          if r.1 then r.2.2.emit (.reply b r.2.1) else r.2.2
      | .write w a v =>
        let b := a / 4 * 4
        if !t.debugWorld w then t.debugRefused b v.toNat
        else if t.accessWaits b then t
        else t.debugWrite c w b v)

end Sys2Proof.Machine
end

