-- ==== Sys2Proof/Machine/Tiles.lean ====
section
/-! DEFINITION. The tile instructions that reach no memory (chapter 14): source checks and the TILE trap (R308, R309), the
elementwise functions (R312, R313), correlation and filter (R314, R315), and release (R316). -/

namespace Sys2Proof.Machine

open Sys2Proof

/-- Tile `n` of a core. -/
def Core.tile (k : Core) (n : Nat) : Tile := k.tiles.getD n Tile.dead

/-- Replace a tile. -/
def Core.setTile (k : Core) (n : Nat) (t : Tile) : Core := { k with tiles := k.tiles.set n t }

/-- The value of an element under a format (Table 14.1): 1 is U16, S16 and Q15 are signed. -/
def elVal (fmt v : Nat) : Int := if fmt = 1 then (v % 65536 : Nat) else signed 16 v

/-- A value saturated to the range of a format, as an element, and whether it was clamped (R313). -/
def elSat (fmt : Nat) (x : Int) : Nat × Bool :=
  let c := if fmt = 1 then clampInt 0 65535 x else clampInt (-32768) 32767 x
  (wrapInt 16 c, decide (c ≠ x))

/-! ### Checks -/

/-- A failed check: the cause of Table 14.2 and the tile concerned, where one is. -/
abbrev TileFail := Option (Nat × Option Nat)

/-- The source checks of R308 over tiles in ascending order: the lowest cause, and within it the lowest tile (R309). -/
def Core.checkSources (k : Core) (ts : List Nat) (rows cols fmt : Nat) : TileFail :=
  let ts := (List.range 8).filter (fun n => ts.contains n)
  match ts.find? (fun n => !(k.tile n).use) with
  | some n => some (1, some n)
  | none =>
    match ts.find? (fun n => (k.tile n).rows != rows || (k.tile n).cols != cols) with
    | some n => some (2, some n)
    | none =>
      match ts.find? (fun n => (k.tile n).fmt != fmt) with
      | some n => some (3, some n)
      | none => none

/-- Raise TILE: TCAUSE takes the cause and the tile (R309); where no tile is concerned the spec names none, and the field is
a free value (Log 3). -/
def State.tileTrap (s : State) (c : CoreId) (word : Word) (f : Nat × Option Nat) : State × After :=
  let n := match f.2 with
    | some n => n
    | none => s.free? % 8
  let t := if f.2.isSome then s else s.used 1
  (t.setCore c { t.core c with tcause := BitVec.ofNat 32 (f.1 + 16 * n) }, .trap 0x0C 0 none (some word))

/-- Run a tile instruction: its checks, then its effect on the core. -/
def State.instrTile (s : State) (i : Issue) (cycles : Nat) (word : Word) (chk : Core → TileFail)
    (eff : Core → Core) : State :=
  s.instr i (fun _ => cycles) (fun t =>
    match chk (t.core i.core) with
    | some f => t.tileTrap i.core word f
    | none => (t.setCore i.core (eff (t.core i.core)), .seq))

/-! ### Elementwise functions -/

/-- A tile instruction word: the worked words of chapter 14 hold MAJOR in [6:2] and 0b11 in [1:0] (Log 18). -/
def wordTile (major fields : Nat) : Word := BitVec.ofNat 32 (major * 4 + 3 + fields)

/-- Format TA (R312). -/
def wordTA (td ta tb : Nat) (r c : Fin 16) (fmt func : Nat) : Word :=
  wordTile 0x1D (td * 2 ^ 7 + ta * 2 ^ 10 + tb * 2 ^ 13 + r.val * 2 ^ 16 + c.val * 2 ^ 20 + fmt * 2 ^ 24 + func * 2 ^ 26)

/-- Format TC (R314). -/
def wordTC (td tp tb ws : Nat) (r c : Fin 16) (func : Nat) : Word :=
  wordTile 0x1E (td * 2 ^ 7 + tp * 2 ^ 10 + tb * 2 ^ 12 + ws * 2 ^ 15 + r.val * 2 ^ 19 + c.val * 2 ^ 23 + func * 2 ^ 27)

/-- Format TM (Table 14.3). -/
def wordTM (t ws wt : Nat) (pack : Bool) (r c : Nat) (fmt op : Nat) (pi : Bool) : Word :=
  wordTile 0x1C (t * 2 ^ 7 + ws * 2 ^ 10 + wt * 2 ^ 14 + b2n pack * 2 ^ 18 + r * 2 ^ 19 + c * 2 ^ 23 + fmt * 2 ^ 27 +
    op * 2 ^ 29 + b2n pi * 2 ^ 31)

/-- The cycles of an elementwise function (Table 14.5). -/
def taCycles (rows cols : Nat) : Nat := max 1 ((rows * cols + 15) / 16)

/-- Run an elementwise function of the sources `srcs`: `f` gives the value of element e before saturation, from the element
values of the sources (R312, R313). -/
def State.instrTA (s : State) (i : Issue) (word : Word) (td : Nat) (srcs : List Nat) (r c : Fin 16) (fmt : Nat)
    (f : Core → Nat → Int) : State :=
  let rows := r.val + 1
  let cols := c.val + 1
  s.instrTile i (taCycles rows cols) word (fun k => k.checkSources srcs rows cols fmt) (fun k =>
    let l := (List.range (rows * cols)).map (fun e => elSat fmt (f k e))
    (k.setTile td ⟨true, rows, cols, fmt, l.map (·.1)⟩).sat (l.any (·.2)))

/-- The value of element `e` of tile `n`. -/
def Core.el (k : Core) (n e : Nat) : Int := elVal (k.tile n).fmt ((k.tile n).el.getD e 0)

/-- TZERO (Table 14.4). -/
def execTzero (i : Issue) (td : Fin 8) (r c : Fin 16) (fmt : Fin 3) (s : State) : Host.Outcome State Fault Refusal :=
  .next (s.instrTA i (wordTA td 0 0 r c fmt 0) td [] r c fmt (fun _ _ => 0))

/-- TMOV (Table 14.4). -/
def execTmov (i : Issue) (td ta : Fin 8) (r c : Fin 16) (fmt : Fin 3) (s : State) : Host.Outcome State Fault Refusal :=
  .next (s.instrTA i (wordTA td ta 0 r c fmt 1) td [ta.val] r c fmt (fun k e => k.el ta e))

/-- TADD (Table 14.4, R313). -/
def execTadd (i : Issue) (td ta tb : Fin 8) (r c : Fin 16) (fmt : Fin 3) (s : State) :
    Host.Outcome State Fault Refusal :=
  .next (s.instrTA i (wordTA td ta tb r c fmt 2) td [ta.val, tb.val] r c fmt (fun k e => k.el ta e + k.el tb e))

/-- TSUB (Table 14.4, R313). -/
def execTsub (i : Issue) (td ta tb : Fin 8) (r c : Fin 16) (fmt : Fin 3) (s : State) :
    Host.Outcome State Fault Refusal :=
  .next (s.instrTA i (wordTA td ta tb r c fmt 3) td [ta.val, tb.val] r c fmt (fun k e => k.el ta e - k.el tb e))

/-- The product of two elements under a format (Table 14.1): 2 is Q15. -/
def elMul (fmt : Nat) (a b : Int) : Int := if fmt = 2 then (a * b + 2 ^ 14) / 2 ^ 15 else a * b

/-- TMUL (Table 14.4, R307). -/
def execTmul (i : Issue) (td ta tb : Fin 8) (r c : Fin 16) (fmt : Fin 3) (s : State) :
    Host.Outcome State Fault Refusal :=
  .next (s.instrTA i (wordTA td ta tb r c fmt 4) td [ta.val, tb.val] r c fmt (fun k e =>
    elMul fmt (k.el ta e) (k.el tb e)))

/-- TMIN (Table 14.4). -/
def execTmin (i : Issue) (td ta tb : Fin 8) (r c : Fin 16) (fmt : Fin 3) (s : State) :
    Host.Outcome State Fault Refusal :=
  .next (s.instrTA i (wordTA td ta tb r c fmt 5) td [ta.val, tb.val] r c fmt (fun k e => min (k.el ta e) (k.el tb e)))

/-- TMAX (Table 14.4). -/
def execTmax (i : Issue) (td ta tb : Fin 8) (r c : Fin 16) (fmt : Fin 3) (s : State) :
    Host.Outcome State Fault Refusal :=
  .next (s.instrTA i (wordTA td ta tb r c fmt 6) td [ta.val, tb.val] r c fmt (fun k e => max (k.el ta e) (k.el tb e)))

/-- TABS (Table 14.4). -/
def execTabs (i : Issue) (td ta : Fin 8) (r c : Fin 16) (fmt : Fin 3) (s : State) : Host.Outcome State Fault Refusal :=
  .next (s.instrTA i (wordTA td ta 0 r c fmt 7) td [ta.val] r c fmt (fun k e => ((k.el ta e).natAbs : Int)))

/-- TSRA (Table 14.4): a rounding shift by tb + 1. -/
def execTsra (i : Issue) (td ta tb : Fin 8) (r c : Fin 16) (fmt : Fin 3) (s : State) :
    Host.Outcome State Fault Refusal :=
  .next (s.instrTA i (wordTA td ta tb r c fmt 8) td [ta.val] r c fmt (fun k e =>
    (k.el ta e + 2 ^ tb.val) / 2 ^ (tb.val + 1)))

/-- TTRN (Table 14.4): ta holds R × C and td becomes C × R. -/
def execTtrn (i : Issue) (td ta : Fin 8) (r c : Fin 16) (fmt : Fin 3) (s : State) : Host.Outcome State Fault Refusal :=
  let rows := r.val + 1
  let cols := c.val + 1
  .next (s.instrTile i (max rows cols) (wordTA td ta 0 r c fmt 9)
    (fun k => k.checkSources [ta.val] rows cols fmt)
    (fun k => k.setTile td ⟨true, cols, rows, fmt,
      (List.range (cols * rows)).map (fun e => (k.tile ta).el.getD (e % rows * cols + e / rows) 0)⟩))

/-! ### Correlation and filter -/

/-- What ws supplies to TXC and TFIR (R314): the offset, the shift, the result row, and whether the other bits are 0. -/
structure CorrArg where
  off : Nat
  sh : Nat
  q : Nat
  clean : Bool
  deriving DecidableEq, Repr

/-- The fields of ws (R314). -/
def corrArg (w : Word) : CorrArg :=
  ⟨w.toNat % 512, bitsOf w.toNat 16 4, bitsOf w.toNat 24 3, (w &&& 0xF8F0FE00) = 0⟩

/-- The checks of R315 in order: the data pair, the template, the range, the destination. `need` is the number of rows the
destination holds. -/
def Core.checkCorr (k : Core) (td tp tb : Nat) (rows cols : Nat) (a : CorrArg) (need : Nat) : TileFail :=
  let d0 := 2 * tp
  let d1 := 2 * tp + 1
  let pair := [d0, d1]
  match pair.find? (fun n => !(k.tile n).use) with
  | some n => some (1, some n)
  | none =>
    match pair.find? (fun n => (k.tile n).rows != 16 || (k.tile n).cols != 16) with
    | some n => some (2, some n)
    | none =>
      if (k.tile d0).fmt ≠ (k.tile d1).fmt then some (3, some d0)
      else if !(k.tile tb).use then some (1, some tb)
      else if (k.tile tb).rows ≠ rows ∨ (k.tile tb).cols ≠ cols then some (2, some tb)
      else if (k.tile tb).fmt = 1 then some (3, some tb)
      else if !a.clean ∨ 511 < a.off + rows * cols + 14 then some (4, none)
      else if (k.tile td).use ∧ ((k.tile td).cols ≠ 16 ∨ (k.tile td).rows < need) then some (2, some td)
      else if (k.tile td).use ∧ (k.tile td).fmt ≠ 0 then some (3, some td)
      else none

/-- Sample `n` of the data sequence x (R314, R315): unsigned only under U16. -/
def Core.corrX (k : Core) (tp n : Nat) : Int :=
  if n < 256 then k.el (2 * tp) n else k.el (2 * tp + 1) (n - 256)

/-- S[j] (R314). -/
def Core.corrSum (k : Core) (tp tb off m j : Nat) : Int :=
  ((List.range m).map (fun i => signed 16 ((k.tile tb).el.getD i 0) * k.corrX tp (off + j + i))).sum

/-- S[j] rounded and shifted (R314). -/
def corrShift (x : Int) (sh : Nat) : Int := (x + (if sh = 0 then 0 else 2 ^ (sh - 1))) / 2 ^ sh

/-- The destination with elements from `at_` on replaced; a dead one becomes S16 with 16 columns and `need` rows of zeros
(R315). -/
def corrDest (t : Tile) (need at_ : Nat) (vs : List Nat) : Tile :=
  let base := if t.use then t else ⟨true, need, 16, 0, List.replicate (16 * need) 0⟩
  { base with el := (base.el.take at_) ++ vs ++ (base.el.drop (at_ + vs.length)) }

/-- Run TXC (`wide`) or TFIR (R314, R315, R318). -/
def State.instrCorr (s : State) (i : Issue) (wide : Bool) (td tp tb : Nat) (ws : Reg) (r c : Fin 16) : State :=
  let m := (r.val + 1) * (c.val + 1)
  let word := wordTC td tp tb ws r c (if wide then 0 else 1)
  if td = 2 * tp ∨ td = 2 * tp + 1 ∨ td = tb then s.instr i (fun _ => 0) (fun t => (t, emulate word))
  else
    let need := fun (a : CorrArg) => if wide then 2 * a.q + 2 else a.q + 1
    s.instrTile i (1 + (m + 3) / 4) word
      (fun k =>
        let a := corrArg (k.w ws)
        k.checkCorr td tp tb (r.val + 1) (c.val + 1) a (need a))
      (fun k =>
        let a := corrArg (k.w ws)
        let ys := (List.range 16).map (fun j => corrShift (k.corrSum tp tb a.off m j) a.sh)
        if wide then
          let v := ys.map (fun y => sat32 y)
          (k.setTile td (corrDest (k.tile td) (need a) (32 * a.q)
            (v.map (fun p => [p.1.toNat % 65536, p.1.toNat / 65536])).flatten)).sat (v.any (·.2))
        else
          let v := ys.map (fun y => elSat 0 y)
          (k.setTile td (corrDest (k.tile td) (need a) (16 * a.q) (v.map (·.1)))).sat (v.any (·.2)))

/-- TXC (R314, R315): 16 results of 32 bits into rows 2q and 2q + 1. -/
def execTxc (i : Issue) (td : Fin 8) (tp : Fin 4) (tb : Fin 8) (ws : Reg) (r c : Fin 16) (s : State) :
    Host.Outcome State Fault Refusal :=
  .next (s.instrCorr i true td tp tb ws r c)

/-- TFIR (R314, R315): 16 results of 16 bits into row q. -/
def execTfir (i : Issue) (td : Fin 8) (tp : Fin 4) (tb : Fin 8) (ws : Reg) (r c : Fin 16) (s : State) :
    Host.Outcome State Fault Refusal :=
  .next (s.instrCorr i false td tp tb ws r c)

/-- TREL (R316): every tile of the mask becomes dead; a mask of 0 is reserved. -/
def execTrel (i : Issue) (mask : BitVec 8) (s : State) : Host.Outcome State Fault Refusal :=
  .next (s.instrCore i (fun _ => 1) (fun k =>
    if mask = 0 then (k, emulate (wordTile 0x1E (2 * 2 ^ 27)))
    else ((List.range 8).foldl (fun q n => if mask.getLsbD n then q.setTile n Tile.dead else q) k, .seq)))

end Sys2Proof.Machine
end

