-- ==== Sys2Proof/Machine/TileMem.lean ====
section
/-! DEFINITION. The tile instructions that reach memory: TLD and TST (R310, R311), TSAVE and TRESTORE (R317). -/

namespace Sys2Proof.Machine

open Sys2Proof

/-! ### The accesses of a tile instruction -/

/-- The row parts of a tile access: one for each part of a row within one 32-byte line (R311). -/
def rowParts (base stride rows bytes : Nat) : List (Nat × Nat) :=
  ((List.range rows).map (fun k =>
    (lineRuns 3 ((base + k * stride) % 2 ^ 32) bytes).map (fun p => (p.1 % 2 ^ 32, p.2)))).flatten

/-- The line parts of an area that is one run of bytes (R317). -/
def areaParts (base bytes : Nat) : List (Nat × Nat) :=
  (lineRuns 131 (base % 2 ^ 32) bytes).map (fun p => (p.1 % 2 ^ 32, p.2))

/-- Whether a part is read through the host window, where the core waits for the host's answer (R221). -/
def State.inWindow (s : State) (p : Nat × Nat) : Bool := region p.1 = .hostwin && s.hasWindow

/-- Load parts in order; `given` is what the host answered for those in its window. The first access that fails ends them, with its
address. -/
def State.tileSeq (s : State) (c : CoreId) (w : World) (sup : Bool) :
    List (Nat × Nat) → List Byte → (Got × Nat) × State
  | [], _ => ((.ok [], 0), s)
  | p :: ps, given =>
    let r : Got × List Byte × State :=
      if s.inWindow p then (.ok (padTo p.2 (given.take p.2)), given.drop p.2, s)
      else
        let q := s.loadAt c w sup p.1 p.2
        (q.1, given, q.2)
    match r.1 with
    | .ok bs =>
      let q := State.tileSeq r.2.2 c w sup ps r.2.1
      match q.1.1 with
      | .ok more => ((.ok (bs ++ more), 0), q.2)
      | _ => q
    | g => ((g, p.1), r.2.2)

/-- The first part the guard refuses (R363). -/
def State.refusedPart (s : State) (c : CoreId) (w : World) (sup : Bool) (ps : List (Nat × Nat)) : Option (Nat × Nat) :=
  ps.find? (fun p => !((s.core c).guard w sup .r p.1).1)

/-- Load parts (R311). Those in the host window are asked for together, once the guard permits them all, and the instruction goes on
with the answer. -/
def State.tileLoads (s : State) (c : CoreId) (w : World) (sup : Bool) (base : Nat) (ps : List (Nat × Nat)) :
    (Got × Nat) × State :=
  match ps.filter s.inWindow with
  | [] => s.tileSeq c w sup ps []
  | p0 :: rest =>
    match s.refusedPart c w sup ps with
    | some p =>
      let q := s.loadAt c w sup p.1 p.2
      ((q.1, p.1), q.2)
    | none =>
      let q := (s.drainAll c).winLoad c base ((p0 :: rest).map (fun p => devParts p.2 p.1 p.2)).flatten
      match q.1 with
      | .ok bs => q.2.tileSeq c w sup ps bs
      | g => ((g, p0.1), q.2)

/-- Store parts in order (R311, R358): what comes before the first access that fails is stored. -/
def State.tileStores (s : State) (c : CoreId) (w : World) (sup : Bool) :
    List (Nat × Nat) → List Byte → (Got × Nat) × State
  | [], _ => ((.ok [], 0), s)
  | p :: ps, bs =>
    let r := s.storeAt c w sup p.1 (bs.take p.2)
    match r.1 with
    | .ok _ => State.tileStores r.2 c w sup ps (bs.drop p.2)
    | g => ((g, p.1), r.2)

/-- Elements from bytes, little-endian. -/
def elements : List Byte → List Nat
  | a :: b :: rest => (a.toNat + 256 * b.toNat) :: elements rest
  | _ => []

/-- Elements as bytes, little-endian. -/
def elBytes (l : List Nat) : List Byte := (l.map (fun v => leBytes 2 v)).flatten

/-! ### TLD and TST -/

/-- The stride of a TM instruction in bytes (Table 14.3). -/
def tmStride (k : Core) (wt : Reg) (pack : Bool) (cols : Nat) : Nat := if pack then 2 * cols else (k.w wt).toNat

/-- The misalignment of a TLD or TST (R311): whether DALIGN is raised, and the address of the first misaligned element; an odd stride
that no second row uses misaligns no element, and the address is then a free value (Log 3). -/
def State.tmAlign (s : State) (base : Word) (stride rows : Nat) : Option (Word × State) :=
  if base.getLsbD 0 then some (base, s)
  else if stride % 2 = 0 then none
  else if 1 < rows then some (base + BitVec.ofNat 32 stride, s)
  else some (BitVec.ofNat 32 s.free?, s.used 1)

/-- ws after a post-increment (R311, R317). -/
def Core.postInc (k : Core) (ws : Reg) (pi : Bool) (bytes : Nat) : Core :=
  if pi then k.setW ws (k.w ws + BitVec.ofNat 32 bytes) else k

/-- TLD (R310, R311): load a tile, which takes the instruction's shape and format when the instruction retires. -/
def execTld (i : Issue) (t : Fin 8) (ws wt : Reg) (pack : Bool) (r c : Fin 16) (fmt : Fin 3) (pi : Bool) (s : State) :
    Host.Outcome State Fault Refusal :=
  .next (
    let rows := r.val + 1
    let cols := c.val + 1
    let word := wordTM t ws wt pack r c fmt 0 pi
    let parts := fun (k : Core) => rowParts (k.w ws).toNat (tmStride k wt pack cols) rows (2 * cols)
    s.instr i (fun k => 1 + (parts k).length) (fun u =>
      let k := u.core i.core
      let stride := tmStride k wt pack cols
      if privSpace (k.w ws).toNat && !k.sup then (u, privTrap word)
      else
        match u.tmAlign (k.w ws) stride rows with
        | some m => (m.2, dalign m.1 word)
        | none =>
          let q := u.tileLoads i.core k.world k.sup (k.w ws).toNat (parts k)
          match q.1.1 with
          | .ok bs =>
            let k' := (q.2.core i.core).setTile t ⟨true, rows, cols, fmt, elements bs⟩
            (q.2.setCore i.core (k'.postInc ws pi (rows * stride)), .seq)
          | g => (q.2, g.after false (BitVec.ofNat 32 q.1.2) word)))

/-- TST (R310, R311): store a tile that holds the instruction's shape and format. -/
def execTst (i : Issue) (t : Fin 8) (ws wt : Reg) (pack : Bool) (r c : Fin 16) (fmt : Fin 3) (pi : Bool) (s : State) :
    Host.Outcome State Fault Refusal :=
  .next (
    let rows := r.val + 1
    let cols := c.val + 1
    let word := wordTM t ws wt pack r c fmt 1 pi
    let parts := fun (k : Core) => rowParts (k.w ws).toNat (tmStride k wt pack cols) rows (2 * cols)
    s.instr i (fun k => 1 + (parts k).length) (fun u =>
      let k := u.core i.core
      let stride := tmStride k wt pack cols
      if privSpace (k.w ws).toNat && !k.sup then (u, privTrap word)
      else
        match k.checkSources [t.val] rows cols fmt with
        | some f => u.tileTrap i.core word f
        | none =>
          match u.tmAlign (k.w ws) stride rows with
          | some m => (m.2, dalign m.1 word)
          | none =>
            let q := u.tileStores i.core k.world k.sup (parts k) (elBytes (k.tile t).el)
            match q.1.1 with
            | .ok _ => (q.2.setCore i.core ((q.2.core i.core).postInc ws pi (rows * stride)), .seq)
            | g => (q.2, g.after true (BitVec.ofNat 32 q.1.2) word)))

/-! ### TSAVE and TRESTORE -/

/-- The bytes a tile of a number of elements takes in a save area (R317). -/
def areaBytes (els : Nat) : Nat := (els * 2 + 3) / 4 * 4

/-- The save area of a core (R317): the header and the live tiles; the bytes that round a tile up are free values (Log 3). -/
def State.saveArea (s : State) (k : Core) : List Byte :=
  ((List.range 8).map (fun n => leBytes 4 (tshape (k.tile n)))).flatten ++
    ((List.range 8).map (fun n =>
      let t := k.tile n
      if t.use then (elBytes t.el ++ freeBytes (s.free + 2 * n) 2).take (areaBytes t.el.length) else [])).flatten

/-- The accesses of a save area: the header and then the tiles, each cut at lines. -/
def saveParts (base len : Nat) : List (Nat × Nat) := areaParts base 32 ++ areaParts (base + 32) (len - 32)

/-- The 32-byte lines that an area touches (Table 14.5). -/
def linesTouched (base len : Nat) : Nat := (areaParts base len).length

/-- TSAVE (R317): the header and the live tiles. -/
def execTsave (i : Issue) (ws : Reg) (pi : Bool) (s : State) : Host.Outcome State Fault Refusal :=
  .next (
    let word := wordTM 0 ws 0 false 0 0 0 2 pi
    s.instr i (fun k => 1 + linesTouched (k.w ws).toNat (s.saveArea k).length) (fun u =>
      let k := u.core i.core
      let bs := u.saveArea k
      if privSpace (k.w ws).toNat && !k.sup then (u, privTrap word)
      else if (k.w ws).toNat % 4 != 0 then (u, dalign (k.w ws) word)
      else
        let q := (u.used 16).tileStores i.core k.world k.sup (saveParts (k.w ws).toNat bs.length) bs
        match q.1.1 with
        | .ok _ => (q.2.setCore i.core ((q.2.core i.core).postInc ws pi bs.length), .seq)
        | g => (q.2, g.after true (BitVec.ofNat 32 q.1.2) word)))

/-- A header word (R317, Table 14.6). -/
def headWord (hdr : List Byte) (n : Nat) : Nat := leNat ((hdr.drop (4 * n)).take 4)

/-- Whether a header word is invalid (R317): a reserved bit is not 0, or a live tile has the reserved format. -/
def headBad (v : Nat) : Bool := v / 1024 % 32 != 0 || v / 65536 != 0 || (v.testBit 15 && v / 256 % 4 = 3)

/-- The tile a valid header word describes, with the elements still to come. -/
def headTile (v : Nat) : Tile :=
  if v.testBit 15 then ⟨true, v % 16 + 1, v / 16 % 16 + 1, v / 256 % 4, []⟩ else Tile.dead

/-- The tiles of a header. -/
def headTiles (hdr : List Byte) : List Tile := (List.range 8).map (fun n => headTile (headWord hdr n))

/-- The bytes of data that tiles have in a save area. -/
def tilesLen (ts : List Tile) : Nat := (ts.map (fun t => if t.use then areaBytes (t.rows * t.cols) else 0)).sum

/-- Fill the tiles of a header from the data in ascending order. -/
def fillTiles : List Tile → List Byte → List Tile
  | [], _ => []
  | t :: ts, bs =>
    if t.use then
      let n := t.rows * t.cols
      { t with el := elements (bs.take (2 * n)) } :: fillTiles ts (bs.drop (areaBytes n))
    else Tile.dead :: fillTiles ts bs

/-- TRESTORE retires (R317): every tile is as the header says. -/
def State.restoreTiles (s : State) (c : CoreId) (ws : Reg) (pi : Bool) (base : Nat) (hdr data : List Byte) : State :=
  let ts := headTiles hdr
  let k := s.core c
  let len := 32 + tilesLen ts
  s.setCore c (({ k with tiles := fillTiles ts data, cyc := k.cyc + 1 + linesTouched base len }).postInc ws pi len)

/-- What follows the header of a TRESTORE: its check, then `load` of the data. -/
def State.restoreRest (s : State) (c : CoreId) (ws : Reg) (pi : Bool) (base : Nat) (word : Word) (hdr : List Byte)
    (load : List (Nat × Nat) → (Got × Nat) × State) : State × After :=
  match (List.range 8).find? (fun n => headBad (headWord hdr n)) with
  | some n => s.tileTrap c word (5, some n)
  | none =>
    let q := load (areaParts (base + 32) (tilesLen (headTiles hdr)))
    match q.1.1 with
    | .ok bs => (q.2.restoreTiles c ws pi base hdr bs, .seq)
    | g => (q.2, g.after false (BitVec.ofNat 32 q.1.2) word)

/-- The data of a TRESTORE whose header came through the host window: asked for while the header is kept, then taken. -/
def State.restoreAsk (s : State) (c : CoreId) (w : World) (sup : Bool) (base : Nat) (got : List Byte)
    (ps : List (Nat × Nat)) : (Got × Nat) × State :=
  let clear := s.setHl (fun h => { h with winAns := none })
  let win := ps.filter s.inWindow
  if win.isEmpty || decide (32 < got.length) then clear.tileSeq c w sup ps (got.drop 32)
  else
    match s.refusedPart c w sup ps with
    | some p =>
      let q := clear.loadAt c w sup p.1 p.2
      ((q.1, p.1), q.2)
    | none =>
      if !s.winReady then ((.bus, base + 32), clear.winFail (base + 32) false)
      else
        let t := (win.map (fun p => devParts p.2 p.1 p.2)).flatten.foldl
          (fun (t : State) p => t.emit (.hostRead (t.winAddr p.1) p.2)) s
        ((.wait, base), t.setHl (fun h => { h with winAsk := some (c, base), winAns := some (c, base, some (padTo 32 got)) }))

/-- TRESTORE (R317): read the header, then the data of the live tiles; the tiles change only when it retires. -/
def execTrestore (i : Issue) (ws : Reg) (pi : Bool) (s : State) : Host.Outcome State Fault Refusal :=
  .next (
    let word := wordTM 0 ws 0 false 0 0 0 3 pi
    s.instr i (fun _ => 0) (fun u =>
      let k := u.core i.core
      let base := (k.w ws).toNat
      if privSpace base && !k.sup then (u, privTrap word)
      else if base % 4 != 0 then (u, dalign (k.w ws) word)
      else if u.hl.winAsk.any (fun p => p.1 = i.core) then (u, .stay)
      else
        let viaWindow := (areaParts base 32).any u.inWindow
        match u.hl.winAns with
        | some (c', _, some got) =>
          if c' = i.core ∧ viaWindow then
            (u.setHl (fun h => { h with winAns := none })).restoreRest i.core ws pi base word (padTo 32 (got.take 32))
              (fun ps => u.restoreAsk i.core k.world k.sup base got ps)
          else (u, .stay)
        | some (c', _, none) =>
          if c' = i.core then
            (u.setHl (fun h => { h with winAns := none }), Got.bus.after false (k.w ws) word)
          else (u, .stay)
        | none =>
          let q := u.tileLoads i.core k.world k.sup base (areaParts base 32)
          match q.1.1 with
          | .ok hdr =>
            q.2.restoreRest i.core ws pi base word hdr
              (fun ps => q.2.tileLoads i.core k.world k.sup (base + 32) ps)
          | g => (q.2, g.after false (BitVec.ofNat 32 q.1.2) word)))

end Sys2Proof.Machine
end

