-- ==== Sys2Proof/Machine/Dispatch.lean ====
section
/-! DEFINITION. The dispatch of commands to their meanings: one arm per constructor of `Instr`. -/

namespace Sys2Proof.Machine

open Sys2Proof

def exec (i : Instr) (s : State) : Host.Outcome State Fault Refusal :=
  match i with
  | .powerOnReset testEn => Sys2Proof.Machine.execPowerOnReset testEn s
  | .roleLatch r => Sys2Proof.Machine.execRoleLatch r s
  | .strapTimeout strapNow => Sys2Proof.Machine.execStrapTimeout strapNow s
  | .brownOutReset => Sys2Proof.Machine.execBrownOutReset s
  | .pinReset => Sys2Proof.Machine.execPinReset s
  | .watchdogExpiry => Sys2Proof.Machine.execWatchdogExpiry s
  | .wdtWarn => Sys2Proof.Machine.execWdtWarn s
  | .lastResortExpiry => Sys2Proof.Machine.execLastResortExpiry s
  | .clockFailTimerExpiry => Sys2Proof.Machine.execClockFailTimerExpiry s
  | .resetVectorEntry regions => Sys2Proof.Machine.execResetVectorEntry regions s
  | .bootGood => Sys2Proof.Machine.execBootGood s
  | .recover => Sys2Proof.Machine.execRecover s
  | .recoveryTimeout => Sys2Proof.Machine.execRecoveryTimeout s
  | .setWalk d uid n => Sys2Proof.Machine.execSetWalk d uid n s
  | .setWalkTimeout => Sys2Proof.Machine.execSetWalkTimeout s
  | .identify d => Sys2Proof.Machine.execIdentify d s
  | .nop d => Sys2Proof.Machine.execNop d s
  | .contestTestEnd contested => Sys2Proof.Machine.execContestTestEnd contested s
  | .walkDriveOn => Sys2Proof.Machine.execWalkDriveOn s
  | .walkStartfail => Sys2Proof.Machine.execWalkStartfail s
  | .walkShort => Sys2Proof.Machine.execWalkShort s
  | .hardtrip => Sys2Proof.Machine.execHardtrip s
  | .walkRetry => Sys2Proof.Machine.execWalkRetry s
  | .wsupQualified => Sys2Proof.Machine.execWsupQualified s
  | .wsupLost => Sys2Proof.Machine.execWsupLost s
  | .wsupOvervoltage => Sys2Proof.Machine.execWsupOvervoltage s
  | .jabberCut stuck => Sys2Proof.Machine.execJabberCut stuck s
  | .polchg => Sys2Proof.Machine.execPolchg s
  | .rateChangeApply => Sys2Proof.Machine.execRateChangeApply s
  | .lecternDetect => Sys2Proof.Machine.execLecternDetect s
  | .lecternRemove => Sys2Proof.Machine.execLecternRemove s
  | .ljbOvervoltage => Sys2Proof.Machine.execLjbOvervoltage s
  | .ljbOvClear => Sys2Proof.Machine.execLjbOvClear s
  | .walkPower d walk en ilim retry babcut => Sys2Proof.Machine.execWalkPower d walk en ilim retry babcut s
  | .walkQuery d walk => Sys2Proof.Machine.execWalkQuery d walk s
  | .lineQuery d => Sys2Proof.Machine.execLineQuery d s
  | .gpcfgWrite w n v => Sys2Proof.Machine.execGpcfgWrite w n v s
  | .vddioLow => Sys2Proof.Machine.execVddioLow s
  | .vddioGood below => Sys2Proof.Machine.execVddioGood below s
  | .gpOvervoltage n => Sys2Proof.Machine.execGpOvervoltage n s
  | .lineQualified => Sys2Proof.Machine.execLineQualified s
  | .lineLost => Sys2Proof.Machine.execLineLost s
  | .lineOvervoltage => Sys2Proof.Machine.execLineOvervoltage s
  | .lineOvRecover => Sys2Proof.Machine.execLineOvRecover s
  | .loopQualified => Sys2Proof.Machine.execLoopQualified s
  | .loopLost => Sys2Proof.Machine.execLoopLost s
  | .cresQualified => Sys2Proof.Machine.execCresQualified s
  | .cresLost => Sys2Proof.Machine.execCresLost s
  | .cresfail => Sys2Proof.Machine.execCresfail s
  | .vauxQualified => Sys2Proof.Machine.execVauxQualified s
  | .vauxLost => Sys2Proof.Machine.execVauxLost s
  | .vbakQualified => Sys2Proof.Machine.execVbakQualified s
  | .vbakLost => Sys2Proof.Machine.execVbakLost s
  | .baklow => Sys2Proof.Machine.execBaklow s
  | .sourceSwitch => Sys2Proof.Machine.execSourceSwitch s
  | .grantApply => Sys2Proof.Machine.execGrantApply s
  | .shedStep => Sys2Proof.Machine.execShedStep s
  | .vmainWarning => Sys2Proof.Machine.execVmainWarning s
  | .vddaLow => Sys2Proof.Machine.execVddaLow s
  | .pwrmonRefresh cres vbak vbr vcoreOk vddaOk => Sys2Proof.Machine.execPwrmonRefresh cres vbak vbr vcoreOk vddaOk s
  | .pwrQuery d => Sys2Proof.Machine.execPwrQuery d s
  | .pwrBackup d => Sys2Proof.Machine.execPwrBackup d s
  | .wait q => Sys2Proof.Machine.execWait q s
  | .deferredEntryStart => Sys2Proof.Machine.execDeferredEntryStart s
  | .alarmArm w n hi => Sys2Proof.Machine.execAlarmArm w n hi s
  | .alarmFire n => Sys2Proof.Machine.execAlarmFire n s
  | .gpWakeEdge n rising => Sys2Proof.Machine.execGpWakeEdge n rising s
  | .sleep d target mwatch offset => Sys2Proof.Machine.execSleep d target mwatch offset s
  | .sleepPolicy d deepest wakeen => Sys2Proof.Machine.execSleepPolicy d deepest wakeen s
  | .wakeQuery d => Sys2Proof.Machine.execWakeQuery d s
  | .crystalReady => Sys2Proof.Machine.execCrystalReady s
  | .crystalStartTimeout => Sys2Proof.Machine.execCrystalStartTimeout s
  | .hfrcReady => Sys2Proof.Machine.execHfrcReady s
  | .pllLock => Sys2Proof.Machine.execPllLock s
  | .pllEnable w => Sys2Proof.Machine.execPllEnable w s
  | .pllDisable w => Sys2Proof.Machine.execPllDisable w s
  | .hfrcEnable w => Sys2Proof.Machine.execHfrcEnable w s
  | .hfrcDisable w => Sys2Proof.Machine.execHfrcDisable w s
  | .clkselWrite w v => Sys2Proof.Machine.execClkselWrite w v s
  | .clkselHeldApply => Sys2Proof.Machine.execClkselHeldApply s
  | .calibrationWindowEnd count whole => Sys2Proof.Machine.execCalibrationWindowEnd count whole s
  | .crystalFail missed => Sys2Proof.Machine.execCrystalFail missed s
  | .pllFail => Sys2Proof.Machine.execPllFail s
  | .hfrcFail => Sys2Proof.Machine.execHfrcFail s
  | .lfrcFail => Sys2Proof.Machine.execLfrcFail s
  | .clksafeRelease w => Sys2Proof.Machine.execClksafeRelease w s
  | .rtcSetGo w hi => Sys2Proof.Machine.execRtcSetGo w hi s
  | .rtcSetApply => Sys2Proof.Machine.execRtcSetApply s
  | .clkQuery d => Sys2Proof.Machine.execClkQuery d s
  | .sysrstGo w linecmd => Sys2Proof.Machine.execSysrstGo w linecmd s
  | .wdtcfgWrite w v => Sys2Proof.Machine.execWdtcfgWrite w v s
  | .wdtkick w v => Sys2Proof.Machine.execWdtkick w v s
  | .lrwdkick w v => Sys2Proof.Machine.execLrwdkick w v s
  | .rhoInfo c => Sys2Proof.Machine.execRhoInfo c s
  | .mramWrite c => Sys2Proof.Machine.execMramWrite c s
  | .logAppend c => Sys2Proof.Machine.execLogAppend c s
  | .timeNow c => Sys2Proof.Machine.execTimeNow c s
  | .alarmAt c => Sys2Proof.Machine.execAlarmAt c s
  | .sleepService c => Sys2Proof.Machine.execSleepService c s
  | .tokens c => Sys2Proof.Machine.execTokens c s
  | .eventPost c => Sys2Proof.Machine.execEventPost c s
  | .officeCtlStart c regions => Sys2Proof.Machine.execOfficeCtlStart c regions s
  | .officeCtlStop c => Sys2Proof.Machine.execOfficeCtlStop c s
  | .officeCtlQuery c => Sys2Proof.Machine.execOfficeCtlQuery c s
  | .officeCtlDone c => Sys2Proof.Machine.execOfficeCtlDone c s
  | .resetService c => Sys2Proof.Machine.execResetService c s
  | .reset d => Sys2Proof.Machine.execReset d s
  | .bootQuery d => Sys2Proof.Machine.execBootQuery d s
  | .imageLoad d => Sys2Proof.Machine.execImageLoad d s
  | .imageCommit d => Sys2Proof.Machine.execImageCommit d s
  | .cfgWrite d => Sys2Proof.Machine.execCfgWrite d s
  | .cfgCommit d => Sys2Proof.Machine.execCfgCommit d s
  | .cfgAbandon d => Sys2Proof.Machine.execCfgAbandon d s
  | .cfgStagingTimeout => Sys2Proof.Machine.execCfgStagingTimeout s
  | .rhocoCfgUpdate => Sys2Proof.Machine.execRhocoCfgUpdate s
  | .quarantineEnd => Sys2Proof.Machine.execQuarantineEnd s
  | .booksQuery d q => Sys2Proof.Machine.execBooksQuery d q s
  | .parstatClr => Sys2Proof.Machine.execParstatClr s
  | .superframeStart m => Sys2Proof.Machine.execSuperframeStart m s
  | .attentionSweep pulses => Sys2Proof.Machine.execAttentionSweep pulses s
  | .uplinkSlot p index valid => Sys2Proof.Machine.execUplinkSlot p index valid s
  | .beacon f rx phase rate => Sys2Proof.Machine.execBeacon f rx phase rate s
  | .grant f rx => Sys2Proof.Machine.execGrant f rx s
  | .desc f rx poison => Sys2Proof.Machine.execDesc f rx poison s
  | .ackf p f rx => Sys2Proof.Machine.execAckf p f rx s
  | .compl f => Sys2Proof.Machine.execCompl f s
  | .eventFrame f => Sys2Proof.Machine.execEventFrame f s
  | .streamFrame f => Sys2Proof.Machine.execStreamFrame f s
  | .probe f rx => Sys2Proof.Machine.execProbe f rx s
  | .probeWindowEnd answers xing => Sys2Proof.Machine.execProbeWindowEnd answers xing s
  | .assign f rx => Sys2Proof.Machine.execAssign f rx s
  | .join f => Sys2Proof.Machine.execJoin f s
  | .range q => Sys2Proof.Machine.execRange q s
  | .timeFrame f rx => Sys2Proof.Machine.execTimeFrame f rx s
  | .report f => Sys2Proof.Machine.execReport f s
  | .resendTimeout p => Sys2Proof.Machine.execResendTimeout p s
  | .rollCall d walk => Sys2Proof.Machine.execRollCall d walk s
  | .addrAssign d uid addr => Sys2Proof.Machine.execAddrAssign d uid addr s
  | .addrRelease d addr => Sys2Proof.Machine.execAddrRelease d addr s
  | .lineSetup d walk rate sw system => Sys2Proof.Machine.execLineSetup d walk rate sw system s
  | .lineRange d addr => Sys2Proof.Machine.execLineRange d addr s
  | .timeSet d told tnew => Sys2Proof.Machine.execTimeSet d told tnew s
  | .timeQuery d => Sys2Proof.Machine.execTimeQuery d s
  | .beaconMiss => Sys2Proof.Machine.execBeaconMiss s
  | .lecternFrame f => Sys2Proof.Machine.execLecternFrame f s
  | .configRequest q => Sys2Proof.Machine.execConfigRequest q s
  | .bar0Access off len data => Sys2Proof.Machine.execBar0Access off len data s
  | .doorbell off data ctx => Sys2Proof.Machine.execDoorbell off data ctx s
  | .descriptorFetch n bytes => Sys2Proof.Machine.execDescriptorFetch n bytes s
  | .streamBuf d => Sys2Proof.Machine.execStreamBuf d s
  | .streamFlush n => Sys2Proof.Machine.execStreamFlush n s
  | .laneFence k selfTest => Sys2Proof.Machine.execLaneFence k selfTest s
  | .msixRelease v => Sys2Proof.Machine.execMsixRelease v s
  | .perst => Sys2Proof.Machine.execPerst s
  | .hotReset => Sys2Proof.Machine.execHotReset s
  | .functionLevelReset => Sys2Proof.Machine.execFunctionLevelReset s
  | .dlDown => Sys2Proof.Machine.execDlDown s
  | .refclkLoss => Sys2Proof.Machine.execRefclkLoss s
  | .vphyLost => Sys2Proof.Machine.execVphyLost s
  | .linkUp gen2 => Sys2Proof.Machine.execLinkUp gen2 s
  | .trainfail => Sys2Proof.Machine.execTrainfail s
  | .d3hotEntry => Sys2Proof.Machine.execD3hotEntry s
  | .pmeTurnOff => Sys2Proof.Machine.execPmeTurnOff s
  | .windowReadDone data => Sys2Proof.Machine.execWindowReadDone data s
  | .interruptEntry c fill => Sys2Proof.Machine.execInterruptEntry c fill s
  | .intset c w k v => Sys2Proof.Machine.execIntset c w k v s
  | .intclr c w k v => Sys2Proof.Machine.execIntclr c w k v s
  | .introuteApply n => Sys2Proof.Machine.execIntrouteApply n s
  | .gbitsWrite c w pri v => Sys2Proof.Machine.execGbitsWrite c w pri v s
  | .cantorisPowerOn w => Sys2Proof.Machine.execCantorisPowerOn w s
  | .cantorisPowered => Sys2Proof.Machine.execCantorisPowered s
  | .cantorisRun w => Sys2Proof.Machine.execCantorisRun w s
  | .cantorisStop w => Sys2Proof.Machine.execCantorisStop w s
  | .cantorisPowerOff w => Sys2Proof.Machine.execCantorisPowerOff w s
  | .cantxctlDone w => Sys2Proof.Machine.execCantxctlDone w s
  | .offtmoExpiry => Sys2Proof.Machine.execOfftmoExpiry s
  | .officeStart d regions => Sys2Proof.Machine.execOfficeStart d regions s
  | .officeStop d => Sys2Proof.Machine.execOfficeStop d s
  | .officeQuery d => Sys2Proof.Machine.execOfficeQuery d s
  | .coreQuery d => Sys2Proof.Machine.execCoreQuery d s
  | .add q wd ws wt => Sys2Proof.Machine.execAdd q wd ws wt s
  | .sub q wd ws wt => Sys2Proof.Machine.execSub q wd ws wt s
  | .and q wd ws wt => Sys2Proof.Machine.execAnd q wd ws wt s
  | .or q wd ws wt => Sys2Proof.Machine.execOr q wd ws wt s
  | .xor q wd ws wt => Sys2Proof.Machine.execXor q wd ws wt s
  | .sll q wd ws wt => Sys2Proof.Machine.execSll q wd ws wt s
  | .srl q wd ws wt => Sys2Proof.Machine.execSrl q wd ws wt s
  | .sra q wd ws wt => Sys2Proof.Machine.execSra q wd ws wt s
  | .slli q wd ws sh => Sys2Proof.Machine.execSlli q wd ws sh s
  | .srli q wd ws sh => Sys2Proof.Machine.execSrli q wd ws sh s
  | .srai q wd ws sh => Sys2Proof.Machine.execSrai q wd ws sh s
  | .rori q wd ws sh => Sys2Proof.Machine.execRori q wd ws sh s
  | .cmplt q wd ws wt => Sys2Proof.Machine.execCmplt q wd ws wt s
  | .cmpltu q wd ws wt => Sys2Proof.Machine.execCmpltu q wd ws wt s
  | .min q wd ws wt => Sys2Proof.Machine.execMin q wd ws wt s
  | .max q wd ws wt => Sys2Proof.Machine.execMax q wd ws wt s
  | .minu q wd ws wt => Sys2Proof.Machine.execMinu q wd ws wt s
  | .maxu q wd ws wt => Sys2Proof.Machine.execMaxu q wd ws wt s
  | .abs q wd ws => Sys2Proof.Machine.execAbs q wd ws s
  | .clz q wd ws => Sys2Proof.Machine.execClz q wd ws s
  | .rev q wd ws => Sys2Proof.Machine.execRev q wd ws s
  | .adds q wd ws wt => Sys2Proof.Machine.execAdds q wd ws wt s
  | .subs q wd ws wt => Sys2Proof.Machine.execSubs q wd ws wt s
  | .addi q wd ws imm => Sys2Proof.Machine.execAddi q wd ws imm s
  | .andi q wd ws imm => Sys2Proof.Machine.execAndi q wd ws imm s
  | .ori q wd ws imm => Sys2Proof.Machine.execOri q wd ws imm s
  | .xori q wd ws imm => Sys2Proof.Machine.execXori q wd ws imm s
  | .cmplti q wd ws imm => Sys2Proof.Machine.execCmplti q wd ws imm s
  | .cmpltiu q wd ws imm => Sys2Proof.Machine.execCmpltiu q wd ws imm s
  | .ldhi q wd imm => Sys2Proof.Machine.execLdhi q wd imm s
  | .ldi q wd imm => Sys2Proof.Machine.execLdi q wd imm s
  | .lapc q wd imm => Sys2Proof.Machine.execLapc q wd imm s
  | .mul q ws wt => Sys2Proof.Machine.execMul q ws wt s
  | .mulu q ws wt => Sys2Proof.Machine.execMulu q ws wt s
  | .macs q n ws wt => Sys2Proof.Machine.execMacs q n ws wt s
  | .macd q n ws wt => Sys2Proof.Machine.execMacd q n ws wt s
  | .msubs q n ws wt => Sys2Proof.Machine.execMsubs q n ws wt s
  | .msubd q n ws wt => Sys2Proof.Machine.execMsubd q n ws wt s
  | .accclr q n => Sys2Proof.Machine.execAccclr q n s
  | .wracc q n ws => Sys2Proof.Machine.execWracc q n ws s
  | .rdacc q wd n sh => Sys2Proof.Machine.execRdacc q wd n sh s
  | .divs q wd ws wt => Sys2Proof.Machine.execDivs q wd ws wt s
  | .divu q wd ws wt => Sys2Proof.Machine.execDivu q wd ws wt s
  | .rems q wd ws wt => Sys2Proof.Machine.execRems q wd ws wt s
  | .remu q wd ws wt => Sys2Proof.Machine.execRemu q wd ws wt s
  | .ldb q wd ws imm => Sys2Proof.Machine.execLdb q wd ws imm s
  | .ldbu q wd ws imm => Sys2Proof.Machine.execLdbu q wd ws imm s
  | .ldh q wd ws imm => Sys2Proof.Machine.execLdh q wd ws imm s
  | .ldhu q wd ws imm => Sys2Proof.Machine.execLdhu q wd ws imm s
  | .ldw q wd ws imm => Sys2Proof.Machine.execLdw q wd ws imm s
  | .stb q wt ws imm => Sys2Proof.Machine.execStb q wt ws imm s
  | .sth q wt ws imm => Sys2Proof.Machine.execSth q wt ws imm s
  | .stw q wt ws imm => Sys2Proof.Machine.execStw q wt ws imm s
  | .ldwp q wd ws imm => Sys2Proof.Machine.execLdwp q wd ws imm s
  | .stwp q wt ws imm => Sys2Proof.Machine.execStwp q wt ws imm s
  | .ldx q wd ws => Sys2Proof.Machine.execLdx q wd ws s
  | .stx q wd wt ws => Sys2Proof.Machine.execStx q wd wt ws s
  | .pushm q mask => Sys2Proof.Machine.execPushm q mask s
  | .popm q mask => Sys2Proof.Machine.execPopm q mask s
  | .beq q ws wt off => Sys2Proof.Machine.execBeq q ws wt off s
  | .bne q ws wt off => Sys2Proof.Machine.execBne q ws wt off s
  | .blt q ws wt off => Sys2Proof.Machine.execBlt q ws wt off s
  | .bge q ws wt off => Sys2Proof.Machine.execBge q ws wt off s
  | .bltu q ws wt off => Sys2Proof.Machine.execBltu q ws wt off s
  | .bgeu q ws wt off => Sys2Proof.Machine.execBgeu q ws wt off s
  | .beqz q ws off => Sys2Proof.Machine.execBeqz q ws off s
  | .bnez q ws off => Sys2Proof.Machine.execBnez q ws off s
  | .call q wd off => Sys2Proof.Machine.execCall q wd off s
  | .jmp q off => Sys2Proof.Machine.execJmp q off s
  | .callr q wd ws imm => Sys2Proof.Machine.execCallr q wd ws imm s
  | .jmpr q ws imm => Sys2Proof.Machine.execJmpr q ws imm s
  | .loop q n ws end9 => Sys2Proof.Machine.execLoop q n ws end9 s
  | .loopi q n cnt end9 => Sys2Proof.Machine.execLoopi q n cnt end9 s
  | .svc q imm => Sys2Proof.Machine.execSvc q imm s
  | .brk q imm => Sys2Proof.Machine.execBreak q imm s
  | .wcall q imm => Sys2Proof.Machine.execWcall q imm s
  | .rett q => Sys2Proof.Machine.execRett q s
  | .mfs q wd n => Sys2Proof.Machine.execMfs q wd n s
  | .mts q n ws => Sys2Proof.Machine.execMts q n ws s
  | .lclr q mask => Sys2Proof.Machine.execLclr q mask s
  | .fence q => Sys2Proof.Machine.execFence q s
  | .isync q => Sys2Proof.Machine.execIsync q s
  | .icinv q ws => Sys2Proof.Machine.execIcinv q ws s
  | .dcclean q ws => Sys2Proof.Machine.execDcclean q ws s
  | .dccinv q ws => Sys2Proof.Machine.execDccinv q ws s
  | .emulate q word => Sys2Proof.Machine.execEmulate q word s
  | .storeDrain c => Sys2Proof.Machine.execStoreDrain c s
  | .tld q t ws wt pack r c fmt pi => Sys2Proof.Machine.execTld q t ws wt pack r c fmt pi s
  | .tst q t ws wt pack r c fmt pi => Sys2Proof.Machine.execTst q t ws wt pack r c fmt pi s
  | .tsave q ws pi => Sys2Proof.Machine.execTsave q ws pi s
  | .trestore q ws pi => Sys2Proof.Machine.execTrestore q ws pi s
  | .tzero q td r c fmt => Sys2Proof.Machine.execTzero q td r c fmt s
  | .tmov q td ta r c fmt => Sys2Proof.Machine.execTmov q td ta r c fmt s
  | .tadd q td ta tb r c fmt => Sys2Proof.Machine.execTadd q td ta tb r c fmt s
  | .tsub q td ta tb r c fmt => Sys2Proof.Machine.execTsub q td ta tb r c fmt s
  | .tmul q td ta tb r c fmt => Sys2Proof.Machine.execTmul q td ta tb r c fmt s
  | .tmin q td ta tb r c fmt => Sys2Proof.Machine.execTmin q td ta tb r c fmt s
  | .tmax q td ta tb r c fmt => Sys2Proof.Machine.execTmax q td ta tb r c fmt s
  | .tabs q td ta r c fmt => Sys2Proof.Machine.execTabs q td ta r c fmt s
  | .tsra q td ta tb r c fmt => Sys2Proof.Machine.execTsra q td ta tb r c fmt s
  | .ttrn q td ta r c fmt => Sys2Proof.Machine.execTtrn q td ta r c fmt s
  | .txc q td tp tb ws r c => Sys2Proof.Machine.execTxc q td tp tb ws r c s
  | .tfir q td tp tb ws r c => Sys2Proof.Machine.execTfir q td tp tb ws r c s
  | .trel q mask => Sys2Proof.Machine.execTrel q mask s
  | .readShared c a => Sys2Proof.Machine.execReadShared c a s
  | .readUnique c a => Sys2Proof.Machine.execReadUnique c a s
  | .upgrade c a => Sys2Proof.Machine.execUpgrade c a s
  | .makeUnique line data => Sys2Proof.Machine.execMakeUnique line data s
  | .readOnce by_ a => Sys2Proof.Machine.execReadOnce by_ a s
  | .writeUnique by_ a v => Sys2Proof.Machine.execWriteUnique by_ a v s
  | .writeBack agent a => Sys2Proof.Machine.execWriteBack agent a s
  | .guardWrite c w cantPage o v => Sys2Proof.Machine.execGuardWrite c w cantPage o v s
  | .mramWriteDone h => Sys2Proof.Machine.execMramWriteDone h s
  | .mramPowerDown h => Sys2Proof.Machine.execMramPowerDown h s
  | .mrsegWrite w nro v => Sys2Proof.Machine.execMrsegWrite w nro v s
  | .mrerraddrClear w => Sys2Proof.Machine.execMrerraddrClear w s
  | .windowEnable w n => Sys2Proof.Machine.execWindowEnable w n s
  | .windowDisable w n => Sys2Proof.Machine.execWindowDisable w n s
  | .sbwRpWrite w n v => Sys2Proof.Machine.execSbwRpWrite w n v s
  | .sacInfo c => Sys2Proof.Machine.execSacInfo c s
  | .rngGet c => Sys2Proof.Machine.execRngGet c s
  | .sha256 c => Sys2Proof.Machine.execSha256 c s
  | .verify c => Sys2Proof.Machine.execVerify c s
  | .sealStatus c => Sys2Proof.Machine.execSealStatus c s
  | .sacclaimWrite w v => Sys2Proof.Machine.execSacclaimWrite w v s
  | .sacQuery d => Sys2Proof.Machine.execSacQuery d s
  | .sacChallenge d => Sys2Proof.Machine.execSacChallenge d s
  | .challengeLapse => Sys2Proof.Machine.execChallengeLapse s
  | .sacStage d => Sys2Proof.Machine.execSacStage d s
  | .keyInstall d readback => Sys2Proof.Machine.execKeyInstall d readback s
  | .keyRevoke d => Sys2Proof.Machine.execKeyRevoke d s
  | .claimSet d => Sys2Proof.Machine.execClaimSet d s
  | .debugUnlock d => Sys2Proof.Machine.execDebugUnlock d s
  | .sealRead d => Sys2Proof.Machine.execSealRead d s
  | .sealAck d => Sys2Proof.Machine.execSealAck d s
  | .sealAttest d first last => Sys2Proof.Machine.execSealAttest d first last s
  | .devkeyQuery d => Sys2Proof.Machine.execDevkeyQuery d s
  | .vlogRead d => Sys2Proof.Machine.execVlogRead d s
  | .vlogPop => Sys2Proof.Machine.execVlogPop s
  | .engineSha256 w => Sys2Proof.Machine.execEngineSha256 w s
  | .engineAesGcm w key => Sys2Proof.Machine.execEngineAesGcm w key s
  | .engineVerify w key => Sys2Proof.Machine.execEngineVerify w key s
  | .engineSign w => Sys2Proof.Machine.execEngineSign w s
  | .engineRandom w => Sys2Proof.Machine.execEngineRandom w s
  | .engineDone err => Sys2Proof.Machine.execEngineDone err s
  | .rngfail => Sys2Proof.Machine.execRngfail s
  | .otpProgram w addr data => Sys2Proof.Machine.execOtpProgram w addr data s
  | .sfeSetup d => Sys2Proof.Machine.execSfeSetup d s
  | .sfeStart d => Sys2Proof.Machine.execSfeStart d s
  | .sfeStop d => Sys2Proof.Machine.execSfeStop d s
  | .sfeExc d => Sys2Proof.Machine.execSfeExc d s
  | .sfeRead d => Sys2Proof.Machine.execSfeRead d s
  | .sfeCal d avg => Sys2Proof.Machine.execSfeCal d avg s
  | .sfeQuery d => Sys2Proof.Machine.execSfeQuery d s
  | .sfego w v => Sys2Proof.Machine.execSfego w v s
  | .sfeArm w v => Sys2Proof.Machine.execSfeArm w v s
  | .sfeStartDue => Sys2Proof.Machine.execSfeStartDue s
  | .sfeOutput x => Sys2Proof.Machine.execSfeOutput x s
  | .excSettled ok => Sys2Proof.Machine.execExcSettled ok s
  | .excMonitor iexc vexs => Sys2Proof.Machine.execExcMonitor iexc vexs s
  | .excCurrentLimit => Sys2Proof.Machine.execExcCurrentLimit s
  | .convtmo => Sys2Proof.Machine.execConvtmo s
  | .loopSet d => Sys2Proof.Machine.execLoopSet d s
  | .loopMode d => Sys2Proof.Machine.execLoopMode d s
  | .loopMap d => Sys2Proof.Machine.execLoopMap d s
  | .loopCalLow d => Sys2Proof.Machine.execLoopCalLow d s
  | .loopCalHigh d => Sys2Proof.Machine.execLoopCalHigh d s
  | .loopCalCompute d => Sys2Proof.Machine.execLoopCalCompute d s
  | .loopCalHoldExpiry => Sys2Proof.Machine.execLoopCalHoldExpiry s
  | .loopQuery d => Sys2Proof.Machine.execLoopQuery d s
  | .loopUpdateTimeout => Sys2Proof.Machine.execLoopUpdateTimeout s
  | .loopReadback meas => Sys2Proof.Machine.execLoopReadback meas s
  | .fontSetup d => Sys2Proof.Machine.execFontSetup d s
  | .fontGeometry d => Sys2Proof.Machine.execFontGeometry d s
  | .fontStart d => Sys2Proof.Machine.execFontStart d s
  | .fontStop d => Sys2Proof.Machine.execFontStop d s
  | .fontTune d m => Sys2Proof.Machine.execFontTune d m s
  | .fontZero d pairs empty => Sys2Proof.Machine.execFontZero d pairs empty s
  | .fontRead d => Sys2Proof.Machine.execFontRead d s
  | .fontQuery d => Sys2Proof.Machine.execFontQuery d s
  | .fontTplRead d => Sys2Proof.Machine.execFontTplRead d s
  | .fontTplWrite d => Sys2Proof.Machine.execFontTplWrite d s
  | .fontArm w v => Sys2Proof.Machine.execFontArm w v s
  | .fontTick capU capD resU resD => Sys2Proof.Machine.execFontTick capU capD resU resD s
  | .vbstReady => Sys2Proof.Machine.execVbstReady s
  | .vbstlow => Sys2Proof.Machine.execVbstlow s
  | .fontShot => Sys2Proof.Machine.execFontShot s
  | .fontCaptureEnd x dst => Sys2Proof.Machine.execFontCaptureEnd x dst s
  | .fontOffloadDone => Sys2Proof.Machine.execFontOffloadDone s
  | .fontOffloadTimeout => Sys2Proof.Machine.execFontOffloadTimeout s
  | .fontResult => Sys2Proof.Machine.execFontResult s
  | .fontSeal => Sys2Proof.Machine.execFontSeal s
  | .motionSetup d => Sys2Proof.Machine.execMotionSetup d s
  | .motionStart d => Sys2Proof.Machine.execMotionStart d s
  | .motionStop d => Sys2Proof.Machine.execMotionStop d s
  | .motionCapture d => Sys2Proof.Machine.execMotionCapture d s
  | .motionIncl d => Sys2Proof.Machine.execMotionIncl d s
  | .motionSelftest d => Sys2Proof.Machine.execMotionSelftest d s
  | .motionRead d => Sys2Proof.Machine.execMotionRead d s
  | .motionQuery d => Sys2Proof.Machine.execMotionQuery d s
  | .motgo w v => Sys2Proof.Machine.execMotgo w v s
  | .motionArm w v => Sys2Proof.Machine.execMotionArm w v s
  | .motionStrobe x => Sys2Proof.Machine.execMotionStrobe x s
  | .captureEnd => Sys2Proof.Machine.execCaptureEnd s
  | .sensorSettled gyro => Sys2Proof.Machine.execSensorSettled gyro s
  | .motionDataTimeout gyro => Sys2Proof.Machine.execMotionDataTimeout gyro s
  | .inclDone sx sy sz temp bad => Sys2Proof.Machine.execInclDone sx sy sz temp bad s
  | .motionSelftestDone apass gpass disturbed => Sys2Proof.Machine.execMotionSelftestDone apass gpass disturbed s
  | .ringSetup d => Sys2Proof.Machine.execRingSetup d s
  | .ringLoad d => Sys2Proof.Machine.execRingLoad d s
  | .ringStart d => Sys2Proof.Machine.execRingStart d s
  | .ringStop d => Sys2Proof.Machine.execRingStop d s
  | .ringTimer d => Sys2Proof.Machine.execRingTimer d s
  | .knockSetup d => Sys2Proof.Machine.execKnockSetup d s
  | .tiltRef d => Sys2Proof.Machine.execTiltRef d s
  | .touchSetup d => Sys2Proof.Machine.execTouchSetup d s
  | .touchStart d => Sys2Proof.Machine.execTouchStart d s
  | .touchStop d => Sys2Proof.Machine.execTouchStop d s
  | .touchCal d => Sys2Proof.Machine.execTouchCal d s
  | .ringQuery d => Sys2Proof.Machine.execRingQuery d s
  | .touchQuery d => Sys2Proof.Machine.execTouchQuery d s
  | .shockSample x y z => Sys2Proof.Machine.execShockSample x y z s
  | .ringerTrigger n t => Sys2Proof.Machine.execRingerTrigger n t s
  | .ringerTimerExpiry n => Sys2Proof.Machine.execRingerTimerExpiry n s
  | .ringerHalt n => Sys2Proof.Machine.execRingerHalt n s
  | .ringerWait n => Sys2Proof.Machine.execRingerWait n s
  | .ringerTest n => Sys2Proof.Machine.execRingerTest n s
  | .ringerBr n => Sys2Proof.Machine.execRingerBr n s
  | .ringerSetc n => Sys2Proof.Machine.execRingerSetc n s
  | .ringerAddc n => Sys2Proof.Machine.execRingerAddc n s
  | .ringerTrel n => Sys2Proof.Machine.execRingerTrel n s
  | .ringerTabs n => Sys2Proof.Machine.execRingerTabs n s
  | .ringerToff n => Sys2Proof.Machine.execRingerToff n s
  | .ringerEmit n => Sys2Proof.Machine.execRingerEmit n s
  | .ringerWake n => Sys2Proof.Machine.execRingerWake n s
  | .ringerSignal n => Sys2Proof.Machine.execRingerSignal n s
  | .touchMeasurement c => Sys2Proof.Machine.execTouchMeasurement c s
  | .touchRetry e c => Sys2Proof.Machine.execTouchRetry e c s
  | .evf2Read byRhoco => Sys2Proof.Machine.execEvf2Read byRhoco s
  | .chorSetup d => Sys2Proof.Machine.execChorSetup d s
  | .chorLoad d => Sys2Proof.Machine.execChorLoad d s
  | .chorStart d => Sys2Proof.Machine.execChorStart d s
  | .chorStop d => Sys2Proof.Machine.execChorStop d s
  | .chorPut d => Sys2Proof.Machine.execChorPut d s
  | .chorGet d => Sys2Proof.Machine.execChorGet d s
  | .chorInject d => Sys2Proof.Machine.execChorInject d s
  | .chorAt d => Sys2Proof.Machine.execChorAt d s
  | .chorPads d => Sys2Proof.Machine.execChorPads d s
  | .chorQuery d => Sys2Proof.Machine.execChorQuery d s
  | .chctlEn w v => Sys2Proof.Machine.execChctlEn w v s
  | .chctlRestart w mask => Sys2Proof.Machine.execChctlRestart w mask s
  | .chctlClksync w mask => Sys2Proof.Machine.execChctlClksync w mask s
  | .chstartArm w v => Sys2Proof.Machine.execChstartArm w v s
  | .armedStart edges => Sys2Proof.Machine.execArmedStart edges s
  | .chtxWrite w n v => Sys2Proof.Machine.execChtxWrite w n v s
  | .chrxRead n => Sys2Proof.Machine.execChrxRead n s
  | .chinjWrite w n v => Sys2Proof.Machine.execChinjWrite w n v s
  | .chpadownWrite w k v => Sys2Proof.Machine.execChpadownWrite w k v s
  | .chorStep n edges gp tcmp => Sys2Proof.Machine.execChorStep n edges gp tcmp s
  | .chorStallTimeout n => Sys2Proof.Machine.execChorStallTimeout n s
  | .fieldSetup d => Sys2Proof.Machine.execFieldSetup d s
  | .fieldOut d => Sys2Proof.Machine.execFieldOut d s
  | .fieldRead d => Sys2Proof.Machine.execFieldRead d s
  | .fieldCount d => Sys2Proof.Machine.execFieldCount d s
  | .fieldQuery d => Sys2Proof.Machine.execFieldQuery d s
  | .fieldInputEdge x => Sys2Proof.Machine.execFieldInputEdge x s
  | .foctlWrite w v => Sys2Proof.Machine.execFoctlWrite w v s
  | .fokick w v => Sys2Proof.Machine.execFokick w v s
  | .keepalive => Sys2Proof.Machine.execKeepalive s
  | .logicSilent => Sys2Proof.Machine.execLogicSilent s
  | .keepaliveReturn => Sys2Proof.Machine.execKeepaliveReturn s
  | .outShort n ma => Sys2Proof.Machine.execOutShort n ma s
  | .outRetry n => Sys2Proof.Machine.execOutRetry n s
  | .outTherm n hot ma => Sys2Proof.Machine.execOutTherm n hot ma s
  | .outOpen n ma => Sys2Proof.Machine.execOutOpen n ma s
  | .vfldQualified absent v => Sys2Proof.Machine.execVfldQualified absent v s
  | .vfldLost v => Sys2Proof.Machine.execVfldLost v s
  | .vfldOvervoltage v => Sys2Proof.Machine.execVfldOvervoltage v s
  | .inBreak n => Sys2Proof.Machine.execInBreak n s
  | .inStuck n => Sys2Proof.Machine.execInStuck n s
  | .inOvervoltage n ov rev => Sys2Proof.Machine.execInOvervoltage n ov rev s
  | .stctlGo w slice => Sys2Proof.Machine.execStctlGo w slice s
  | .sliceStart => Sys2Proof.Machine.execSliceStart s
  | .sliceCompare sig badStore => Sys2Proof.Machine.execSliceCompare sig badStore s
  | .sliceAbandon badStore => Sys2Proof.Machine.execSliceAbandon badStore s
  | .sliceWaitTimeout => Sys2Proof.Machine.execSliceWaitTimeout s
  | .stCountCopy => Sys2Proof.Machine.execStCountCopy s
  | .stQuery d => Sys2Proof.Machine.execStQuery d s
  | .stPace d => Sys2Proof.Machine.execStPace d s
  | .stRun d => Sys2Proof.Machine.execStRun d s
  | .stResults d => Sys2Proof.Machine.execStResults d s
  | .stClear d => Sys2Proof.Machine.execStClear d s
  | .extest obs scan => Sys2Proof.Machine.execExtest obs scan s
  | .samplePreload obs scan => Sys2Proof.Machine.execSamplePreload obs scan s
  | .bypass scan => Sys2Proof.Machine.execBypass scan s
  | .debugAccess c op => Sys2Proof.Machine.execDebugAccess c op s
  | .trst => Sys2Proof.Machine.execTrst s
  | .registerWrite c w a v => Sys2Proof.Machine.execRegisterWrite c w a v s
  | .vaoLoss => Sys2Proof.Machine.execVaoLoss s
  | .lineTimeTick => Sys2Proof.Machine.execLineTimeTick s
  | .frameDiscarded p index rx => Sys2Proof.Machine.execFrameDiscarded p index rx s
  | .perstRise => Sys2Proof.Machine.execPerstRise s
  | .refclkLock => Sys2Proof.Machine.execRefclkLock s
  | .vphyGood => Sys2Proof.Machine.execVphyGood s
  | .linkError uncorrectable header => Sys2Proof.Machine.execLinkError uncorrectable header s
  | .linkRetrain => Sys2Proof.Machine.execLinkRetrain s
  | .linkL1 lpm => Sys2Proof.Machine.execLinkL1 lpm s
  | .wsupOvRecover => Sys2Proof.Machine.execWsupOvRecover s
  | .vfldOvRecover v => Sys2Proof.Machine.execVfldOvRecover v s
  | .inBreakClear n => Sys2Proof.Machine.execInBreakClear n s
  | .excPulseOn => Sys2Proof.Machine.execExcPulseOn s

end Sys2Proof.Machine
end

