-- ==== Sys2Proof/WellFormed.lean ====
section
/-! DEFINITION. Which commands are well formed: a descriptor of 64 bytes whose OPCODE byte is the row's (Table 11.8 and the tables of its
chapters), a frame whose LEN and type agree with it (Table 9.1), a compact form only where Table 13.3 has one, and numbers within
the range of what they number. -/

namespace Sys2Proof

/-- A descriptor of a row: 64 bytes, the opcode first (Table 11.3). -/
def descOk (op : Nat) (d : Desc) : Bool := decide (d.bytes.length = 64) && decide ((d.bytes.getD 0 0).toNat = op)

/-- A descriptor whose ARGS[0] selects the row (R132, R431). -/
def descStep (op step : Nat) (d : Desc) : Bool := descOk op d && decide ((d.bytes.getD 0x20 0).toNat = step)

/-- A frame: 8 header bytes, and LEN payload bytes (Table 9.1). -/
def frameWf (f : Frame) : Bool := decide (f.hdr < 2 ^ 64) && decide (f.hdr / 2 ^ 24 % 256 = f.payload.length)

/-- A frame of a type (Table 9.2). -/
def frameType (t : Nat) (f : Frame) : Bool := frameWf f && decide (f.hdr % 16 = t)

/-- A RANGE step. -/
def rangeOk : RangeIn → Bool
  | .heard f _ => frameWf f
  | .measured _ _ => true

/-- A debug access within the 4 GB of the address space. -/
def debugOk : DebugOp → Bool
  | .read _ a => decide (a < 2 ^ 32)
  | .write _ a _ => decide (a < 2 ^ 32)
  | _ => true

/-- Whether a field's signed value fits in `n` bits. -/
def fits {w : Nat} (n : Nat) (x : BitVec w) : Bool := decide (-(2 ^ (n - 1)) ≤ x.toInt) && decide (x.toInt < 2 ^ (n - 1))

/-- Whether a command is well formed. -/
def Instr.wf : Instr → Bool
  | .loopSet d => descOk 0x40 d
  | .loopMode d => descOk 0x41 d
  | .loopMap d => descOk 0x42 d
  | .loopCalLow d => descStep 0x43 0 d
  | .loopCalHigh d => descStep 0x43 1 d
  | .loopCalCompute d => descStep 0x43 2 d
  | .loopCalHoldExpiry => true
  | .loopQuery d => descOk 0x44 d
  | .loopUpdateTimeout => true
  | .loopReadback _ => true
  | .sfeSetup d => descOk 0x30 d
  | .sfeStart d => descOk 0x31 d
  | .sfeStop d => descOk 0x32 d
  | .sfeExc d => descOk 0x33 d
  | .sfeRead d => descOk 0x34 d
  | .sfeCal d _ => descOk 0x35 d
  | .sfeQuery d => descOk 0x36 d
  | .sfego _ _ => true
  | .sfeArm _ _ => true
  | .sfeStartDue => true
  | .sfeOutput _ => true
  | .excSettled _ => true
  | .excMonitor _ _ => true
  | .excCurrentLimit => true
  | .excPulseOn => true
  | .convtmo => true
  | .fontSetup d => descOk 0x48 d
  | .fontGeometry d => descOk 0x49 d
  | .fontStart d => descOk 0x4A d
  | .fontStop d => descOk 0x4B d
  | .fontTune d _ => descOk 0x4C d
  | .fontZero d _ _ => descOk 0x4D d
  | .fontRead d => descOk 0x4E d
  | .fontQuery d => descOk 0x4F d
  | .fontTplRead d => descOk 0x50 d
  | .fontTplWrite d => descOk 0x51 d
  | .fontArm _ _ => true
  | .fontTick _ _ _ _ => true
  | .vbstReady => true
  | .vbstlow => true
  | .fontShot => true
  | .fontCaptureEnd _ _ => true
  | .fontOffloadDone => true
  | .fontOffloadTimeout => true
  | .fontResult => true
  | .fontSeal => true
  | .shockSample _ _ _ => true
  | .motionSetup d => descOk 0x58 d
  | .motionStart d => descOk 0x59 d
  | .motionStop d => descOk 0x5A d
  | .motionCapture d => descOk 0x5B d
  | .motionIncl d => descOk 0x5C d
  | .motionSelftest d => descOk 0x5D d
  | .motionRead d => descOk 0x5E d
  | .motionQuery d => descOk 0x5F d
  | .motgo _ _ => true
  | .motionArm _ _ => true
  | .motionStrobe _ => true
  | .captureEnd => true
  | .sensorSettled _ => true
  | .motionDataTimeout _ => true
  | .inclDone _ _ _ _ _ => true
  | .motionSelftestDone _ _ _ => true
  | .chorSetup d => descOk 0x78 d
  | .chorLoad d => descOk 0x79 d
  | .chorStart d => descOk 0x7A d
  | .chorStop d => descOk 0x7B d
  | .chorPut d => descOk 0x7C d
  | .chorGet d => descOk 0x7D d
  | .chorInject d => descOk 0x7E d
  | .chorAt d => descOk 0x7F d
  | .chorPads d => descOk 0x80 d
  | .chorQuery d => descOk 0x81 d
  | .chctlEn _ _ => true
  | .chctlRestart _ _ => true
  | .chctlClksync _ _ => true
  | .chstartArm _ _ => true
  | .armedStart _ => true
  | .chtxWrite _ n _ => decide (n < 8)
  | .chrxRead n => decide (n < 8)
  | .chinjWrite _ n _ => decide (n < 8)
  | .chpadownWrite _ k _ => decide (k < 2)
  | .chorStep n _ _ _ => decide (n < 8)
  | .chorStallTimeout n => decide (n < 8)
  | .ringSetup d => descOk 0x68 d
  | .ringLoad d => descOk 0x69 d
  | .ringStart d => descOk 0x6A d
  | .ringStop d => descOk 0x6B d
  | .ringTimer d => descOk 0x6C d
  | .knockSetup d => descOk 0x6D d
  | .tiltRef d => descOk 0x6E d
  | .touchSetup d => descOk 0x6F d
  | .touchStart d => descOk 0x70 d
  | .touchStop d => descOk 0x71 d
  | .touchCal d => descOk 0x72 d
  | .ringQuery d => descOk 0x73 d
  | .touchQuery d => descOk 0x74 d
  | .ringerTrigger n _ => decide (n < 8)
  | .ringerTimerExpiry n => decide (n < 8)
  | .ringerHalt n => decide (n < 8)
  | .ringerWait n => decide (n < 8)
  | .ringerTest n => decide (n < 8)
  | .ringerBr n => decide (n < 8)
  | .ringerSetc n => decide (n < 8)
  | .ringerAddc n => decide (n < 8)
  | .ringerTrel n => decide (n < 8)
  | .ringerTabs n => decide (n < 8)
  | .ringerToff n => decide (n < 8)
  | .ringerEmit n => decide (n < 8)
  | .ringerWake n => decide (n < 8)
  | .ringerSignal n => decide (n < 8)
  | .touchMeasurement _ => true
  | .touchRetry e _ => decide (e < 4)
  | .evf2Read _ => true
  | .fieldSetup d => descOk 0x88 d
  | .fieldOut d => descOk 0x89 d
  | .fieldRead d => descOk 0x8A d
  | .fieldCount d => descOk 0x8B d
  | .fieldQuery d => descOk 0x8C d
  | .fieldInputEdge _ => true
  | .foctlWrite _ _ => true
  | .fokick _ _ => true
  | .keepalive => true
  | .logicSilent => true
  | .keepaliveReturn => true
  | .outShort n _ => decide (n < 2)
  | .outRetry n => decide (n < 2)
  | .outTherm n _ _ => decide (n < 2)
  | .outOpen n _ => decide (n < 2)
  | .vfldQualified _ _ => true
  | .vfldLost _ => true
  | .vfldOvervoltage _ => true
  | .vfldOvRecover _ => true
  | .inBreak n => decide (n < 4)
  | .inBreakClear n => decide (n < 4)
  | .inStuck n => decide (n < 4)
  | .inOvervoltage n _ _ => decide (n < 4)
  | .interruptEntry _ _ => true
  | .intset _ _ k _ => decide (k < 4)
  | .intclr _ _ k _ => decide (k < 4)
  | .introuteApply n => decide (n < 128)
  | .gbitsWrite _ _ _ _ => true
  | .guardWrite _ _ _ _ _ => true
  | .add i wd ws _ => (!i.compact || (wd = ws))
  | .sub i wd ws _ => (!i.compact || (wd = ws))
  | .and i wd ws _ => (!i.compact || (wd = ws))
  | .or i wd ws wt => (!i.compact || (wd = ws || ws = wt))
  | .xor i wd ws _ => (!i.compact || (wd = ws))
  | .sll i _ _ _ => !i.compact
  | .srl i _ _ _ => !i.compact
  | .sra i _ _ _ => !i.compact
  | .cmplt i _ _ _ => !i.compact
  | .cmpltu i _ _ _ => !i.compact
  | .min i _ _ _ => !i.compact
  | .max i _ _ _ => !i.compact
  | .minu i _ _ _ => !i.compact
  | .maxu i _ _ _ => !i.compact
  | .adds i _ _ _ => !i.compact
  | .subs i _ _ _ => !i.compact
  | .divs i _ _ _ => !i.compact
  | .divu i _ _ _ => !i.compact
  | .rems i _ _ _ => !i.compact
  | .remu i _ _ _ => !i.compact
  | .slli i wd ws sh => (!i.compact || (wd = ws && sh != 0))
  | .srli i wd ws sh => (!i.compact || (wd = ws && sh != 0))
  | .srai i wd ws sh => (!i.compact || (wd = ws && sh != 0))
  | .rori i _ _ _ => !i.compact
  | .abs i _ _ => !i.compact
  | .clz i _ _ => !i.compact
  | .rev i _ _ => !i.compact
  | .addi i wd ws imm => (!i.compact || (wd = ws && fits 8 imm))
  | .andi i _ _ _ => !i.compact
  | .ori i _ _ _ => !i.compact
  | .xori i _ _ _ => !i.compact
  | .cmplti i _ _ _ => !i.compact
  | .cmpltiu i _ _ _ => !i.compact
  | .ldhi i _ _ => !i.compact
  | .ldi i _ imm => (!i.compact || (fits 8 imm))
  | .lapc i _ _ => !i.compact
  | .mul i _ _ => !i.compact
  | .mulu i _ _ => !i.compact
  | .macs i _ _ _ => !i.compact
  | .macd i _ _ _ => !i.compact
  | .msubs i _ _ _ => !i.compact
  | .msubd i _ _ _ => !i.compact
  | .accclr i _ => !i.compact
  | .wracc i _ _ => !i.compact
  | .rdacc i _ _ _ => !i.compact
  | .beq i _ _ _ => !i.compact
  | .bne i _ _ _ => !i.compact
  | .blt i _ _ _ => !i.compact
  | .bge i _ _ _ => !i.compact
  | .bltu i _ _ _ => !i.compact
  | .bgeu i _ _ _ => !i.compact
  | .beqz i _ off => (!i.compact || (fits 7 off))
  | .bnez i _ off => (!i.compact || (fits 7 off))
  | .call i _ _ => !i.compact
  | .jmp i off => (!i.compact || (fits 12 off))
  | .callr i wd _ imm => (!i.compact || (wd = 15 && imm = 0))
  | .jmpr i _ imm => (!i.compact || (imm = 0))
  | .loop i _ _ _ => !i.compact
  | .loopi i _ _ _ => !i.compact
  | .lclr i _ => !i.compact
  | .svc i _ => !i.compact
  | .brk i _ => !i.compact
  | .wcall i _ => !i.compact
  | .mfs i _ _ => !i.compact
  | .mts i _ _ => !i.compact
  | .emulate i word => (!i.compact || decide (word.toNat < 65536))
  | .tzero i _ _ _ _ => !i.compact
  | .txc i _ _ _ _ _ _ => !i.compact
  | .tfir i _ _ _ _ _ _ => !i.compact
  | .trel i _ => !i.compact
  | .tmov i _ _ _ _ _ => !i.compact
  | .tabs i _ _ _ _ _ => !i.compact
  | .ttrn i _ _ _ _ _ => !i.compact
  | .tadd i _ _ _ _ _ _ => !i.compact
  | .tsub i _ _ _ _ _ _ => !i.compact
  | .tmul i _ _ _ _ _ _ => !i.compact
  | .tmin i _ _ _ _ _ _ => !i.compact
  | .tmax i _ _ _ _ _ _ => !i.compact
  | .tsra i _ _ _ _ _ _ => !i.compact
  | .lineTimeTick => true
  | .rtcSetGo _ _ => true
  | .rtcSetApply => true
  | .crystalReady => true
  | .crystalStartTimeout => true
  | .hfrcReady => true
  | .pllLock => true
  | .calibrationWindowEnd _ _ => true
  | .crystalFail _ => true
  | .pllFail => true
  | .hfrcFail => true
  | .lfrcFail => true
  | .pllEnable _ => true
  | .pllDisable _ => true
  | .hfrcEnable _ => true
  | .hfrcDisable _ => true
  | .clkselWrite _ _ => true
  | .clkselHeldApply => true
  | .clksafeRelease _ => true
  | .clockFailTimerExpiry => true
  | .clkQuery d => descOk 0x09 d
  | .lineQualified => true
  | .lineLost => true
  | .lineOvervoltage => true
  | .lineOvRecover => true
  | .loopQualified => true
  | .loopLost => true
  | .cresQualified => true
  | .cresLost => true
  | .cresfail => true
  | .vauxQualified => true
  | .vauxLost => true
  | .vbakQualified => true
  | .vbakLost => true
  | .baklow => true
  | .sourceSwitch => true
  | .grantApply => true
  | .shedStep => true
  | .vmainWarning => true
  | .vddaLow => true
  | .pwrmonRefresh _ _ _ _ _ => true
  | .brownOutReset => true
  | .pinReset => true
  | .vaoLoss => true
  | .powerOnReset _ => true
  | .roleLatch _ => true
  | .strapTimeout _ => true
  | .pwrQuery d => descOk 0x04 d
  | .pwrBackup d => descOk 0x05 d
  | .gpcfgWrite _ _ _ => true
  | .vddioLow => true
  | .vddioGood _ => true
  | .gpOvervoltage _ => true
  | .wait i => !i.compact
  | .deferredEntryStart => true
  | .alarmFire _ => true
  | .gpWakeEdge _ _ => true
  | .alarmArm _ _ _ => true
  | .sleep d _ _ _ => descOk 0x06 d
  | .sleepPolicy d _ _ => descOk 0x07 d
  | .wakeQuery d => descOk 0x08 d
  | .cantorisPowerOn _ => true
  | .cantorisRun _ => true
  | .cantorisStop _ => true
  | .cantorisPowerOff _ => true
  | .cantorisPowered => true
  | .cantxctlDone _ => true
  | .sysrstGo _ _ => true
  | .wdtcfgWrite _ _ => true
  | .wdtkick _ _ => true
  | .lrwdkick _ _ => true
  | .watchdogExpiry => true
  | .wdtWarn => true
  | .lastResortExpiry => true
  | .engineDone _ => true
  | .engineSha256 _ => true
  | .engineAesGcm _ _ => true
  | .engineVerify _ _ => true
  | .engineSign _ => true
  | .engineRandom _ => true
  | .rngfail => true
  | .otpProgram _ _ _ => true
  | .sacclaimWrite _ _ => true
  | .vlogPop => true
  | .sacQuery d => descOk 0x20 d
  | .sacChallenge d => descOk 0x21 d
  | .challengeLapse => true
  | .sacStage d => descOk 0x22 d
  | .keyInstall d _ => descOk 0x23 d
  | .keyRevoke d => descOk 0x24 d
  | .claimSet d => descOk 0x25 d
  | .debugUnlock d => descOk 0x26 d
  | .sealRead d => descOk 0x27 d
  | .sealAck d => descOk 0x28 d
  | .sealAttest d _ _ => descOk 0x29 d
  | .devkeyQuery d => descOk 0x2A d
  | .vlogRead d => descOk 0x2B d
  | .sacInfo _ => true
  | .rngGet _ => true
  | .sha256 _ => true
  | .verify _ => true
  | .sealStatus _ => true
  | .imageLoad d => descOk 0x0C d
  | .imageCommit d => descOk 0x0D d
  | .cfgWrite d => descOk 0x0E d
  | .cfgCommit d => descStep 0x0F 0 d
  | .cfgAbandon d => descStep 0x0F 1 d
  | .cfgStagingTimeout => true
  | .rhocoCfgUpdate => true
  | .offtmoExpiry => true
  | .officeStart d _ => descOk 0x98 d
  | .officeStop d => descOk 0x99 d
  | .officeQuery d => descOk 0x9A d
  | .coreQuery d => descOk 0x9B d
  | .officeCtlStart _ _ => true
  | .officeCtlStop _ => true
  | .officeCtlQuery _ => true
  | .officeCtlDone _ => true
  | .rhoInfo _ => true
  | .mramWrite _ => true
  | .logAppend _ => true
  | .timeNow _ => true
  | .alarmAt _ => true
  | .sleepService _ => true
  | .tokens _ => true
  | .eventPost _ => true
  | .resetService _ => true
  | .descriptorFetch n _ => decide (n < 16384)
  | .streamBuf d => descOk 0x1F d
  | .doorbell _ data _ => decide (data.length ≤ 16)
  | .streamFlush n => decide (n < 16384)
  | .laneFence _ _ => true
  | .contestTestEnd _ => true
  | .walkDriveOn => true
  | .walkStartfail => true
  | .walkShort => true
  | .hardtrip => true
  | .walkRetry => true
  | .wsupQualified => true
  | .wsupLost => true
  | .wsupOvervoltage => true
  | .wsupOvRecover => true
  | .rateChangeApply => true
  | .quarantineEnd => true
  | .parstatClr => true
  | .walkPower d _ _ _ _ _ => descOk 0x10 d
  | .walkQuery d _ => descOk 0x11 d
  | .lineQuery d => descOk 0x12 d
  | .booksQuery d _ => descOk 0x03 d
  | .jabberCut _ => true
  | .polchg => true
  | .lecternDetect => true
  | .lecternRemove => true
  | .ljbOvervoltage => true
  | .ljbOvClear => true
  | .probeWindowEnd _ _ => true
  | .rollCall d _ => descOk 0x13 d
  | .addrAssign d _ _ => descOk 0x14 d
  | .addrRelease d _ => descOk 0x15 d
  | .lineSetup d _ _ _ _ => descOk 0x16 d
  | .lineRange d _ => descOk 0x17 d
  | .timeSet d _ _ => descOk 0x18 d
  | .timeQuery d => descOk 0x19 d
  | .setWalk d _ _ => descOk 0x02 d
  | .setWalkTimeout => true
  | .compl f => frameType 4 f
  | .eventFrame f => frameType 5 f
  | .streamFrame f => frameType 6 f
  | .report f => frameWf f
  | .join f => frameType 9 f
  | .attentionSweep _ => true
  | .uplinkSlot _ _ _ => true
  | .superframeStart _ => true
  | .desc f _ _ => frameType 2 f
  | .ackf _ f _ => frameType 3 f
  | .grant f _ => frameType 1 f
  | .beaconMiss => true
  | .beacon f _ _ _ => frameType 0 f
  | .probe f _ => frameType 7 f
  | .assign f _ => frameType 8 f
  | .range q => rangeOk q
  | .timeFrame f _ => frameWf f
  | .resendTimeout _ => true
  | .frameDiscarded _ _ _ => true
  | .lecternFrame f => frameWf f
  | .configRequest _ => true
  | .bar0Access _ _ _ => true
  | .msixRelease _ => true
  | .perst => true
  | .hotReset => true
  | .functionLevelReset => true
  | .dlDown => true
  | .refclkLoss => true
  | .refclkLock => true
  | .vphyLost => true
  | .vphyGood => true
  | .perstRise => true
  | .linkUp _ => true
  | .trainfail => true
  | .linkRetrain => true
  | .linkL1 _ => true
  | .linkError _ _ => true
  | .d3hotEntry => true
  | .pmeTurnOff => true
  | .windowReadDone _ => true
  | .stctlGo _ _ => true
  | .sliceStart => true
  | .sliceCompare _ _ => true
  | .sliceAbandon _ => true
  | .sliceWaitTimeout => true
  | .stCountCopy => true
  | .stQuery d => descOk 0x90 d
  | .stPace d => descOk 0x91 d
  | .stRun d => descOk 0x92 d
  | .stResults d => descOk 0x93 d
  | .stClear d => descOk 0x94 d
  | .mramWriteDone _ => true
  | .mramPowerDown _ => true
  | .mrsegWrite _ _ _ => true
  | .mrerraddrClear _ => true
  | .windowEnable _ _ => true
  | .windowDisable _ _ => true
  | .sbwRpWrite _ _ _ => true
  | .readShared _ a => decide (a < 2 ^ 32)
  | .readUnique _ a => decide (a < 2 ^ 32)
  | .upgrade _ a => decide (a < 2 ^ 32)
  | .makeUnique _ data => decide (data.length = 32)
  | .readOnce _ a => decide (a < 2 ^ 32)
  | .writeUnique _ a _ => decide (a < 2 ^ 32)
  | .writeBack _ a => decide (a < 2 ^ 32)
  | .registerWrite _ _ a _ => decide (a < 2 ^ 32)
  | .ldb i _ _ _ => !i.compact
  | .ldbu i _ _ _ => !i.compact
  | .ldh i _ _ _ => !i.compact
  | .ldhu i _ _ _ => !i.compact
  | .ldw i _ ws imm => (!i.compact || (ws = 14 && imm.toNat % 4 = 0 && decide (imm.toNat < 1024)))
  | .ldwp i _ _ _ => !i.compact
  | .stb i _ _ _ => !i.compact
  | .sth i _ _ _ => !i.compact
  | .stw i _ ws imm => (!i.compact || (ws = 14 && imm.toNat % 4 = 0 && decide (imm.toNat < 1024)))
  | .stwp i _ _ _ => !i.compact
  | .ldx i _ _ => !i.compact
  | .stx i _ _ _ => !i.compact
  | .pushm i _ => !i.compact
  | .popm i _ => !i.compact
  | .rett i => !i.compact
  | .fence i => !i.compact
  | .isync i => !i.compact
  | .icinv i _ => !i.compact
  | .dcclean i _ => !i.compact
  | .dccinv i _ => !i.compact
  | .storeDrain _ => true
  | .tld i _ _ _ _ _ _ _ _ => !i.compact
  | .tst i _ _ _ _ _ _ _ _ => !i.compact
  | .tsave i _ _ => !i.compact
  | .trestore i _ _ => !i.compact
  | .extest _ _ => true
  | .samplePreload _ _ => true
  | .bypass _ => true
  | .trst => true
  | .debugAccess _ op => debugOk op
  | .resetVectorEntry _ => true
  | .bootGood => true
  | .recover => true
  | .recoveryTimeout => true
  | .identify d => descOk 0x01 d
  | .nop d => descOk 0x00 d
  | .reset d => descOk 0x0A d
  | .bootQuery d => descOk 0x0B d

end Sys2Proof
end

