-- ==== Sys2Proof/Safety.lean ====
section
/-! DEFINITION. What the claims speak of: a run of the block, the conditions under which Rhoco runs a descriptor or a core issues an
instruction with nothing in its way, and the invariant of the coherence transactions. -/

namespace Sys2Proof.Machine

open Sys2Proof

/-! ### Runs -/

/-- A run of `n` steps that meets no fault and no refusal. -/
def State.runs : Nat → State → State → Prop
  | 0, s, t => s = t
  | n + 1, s, t => ∃ u, step s = .next u ∧ State.runs n u t

/-- A command with the queue's rest behind it: what a step leaves of the queue is what waited behind the command. -/
def State.front (s : State) (c : Instr) : State := { s with pending := c :: s.pending }

/-! ### Descriptors -/

/-- No descriptor waits whose opcode no row of the table names: Rhoco has none to take before the next command (Log 1). -/
def State.quiet (s : State) : Bool := s.waitingDescs.all (fun d => opAssigned (dsOpcode d))

/-- Rhoco runs this descriptor now and finds its form as R235 asks. -/
def State.ready (s : State) (d : Desc) : Bool := s.quiet && s.canRun d && dsFormOk d

/-- Rhoco runs this descriptor now and finds its form otherwise. -/
def State.readyBad (s : State) (d : Desc) : Bool := s.quiet && s.canRun d && !dsFormOk d

/-- A descriptor that reads registers completes OK: RESULT is the first of them, and all of them, in the order given, are what goes to
RESBUF (R236). -/
def State.answers (s : State) (d : Desc) (regs : List Nat) : State :=
  s.complete d stOK (s.reg (regs.headD 0)).toNat ((regs.map (fun a => leBytes 4 (s.reg a).toNat)).flatten)

/-- What a block does for itself leaves alone: the role, the cores, the test port, the descriptor cache and the queue of commands. -/
def State.besides (s t : State) : Prop :=
  t.role = s.role ∧ t.dec = s.dec ∧ t.cant = s.cant ∧ t.tap = s.tap ∧ t.descCache = s.descCache ∧ t.pending = s.pending

/-- The same, with memory, the host link, the line and what the part sends out. -/
def State.besidesAll (s t : State) : Prop :=
  s.besides t ∧ t.mem = s.mem ∧ t.hl = s.hl ∧ t.out = s.out ∧ t.node = s.node ∧ t.drv = s.drv ∧ t.scr = s.scr

/-- No block waits for a time: no start is armed, no tick of Font or Ringer engine or wait of a Chorister is due. -/
def State.untimed (s : State) : Bool :=
  !s.sfeArmed && s.font.due.isNone && decide (s.mot.mode = 0) && !s.on fCHSTARTH_ARM &&
    (List.range 8).all (fun n => (s.eng n).due.isNone && (s.che n).stall.isNone)

/-- No source is enabled at the core (R263). -/
def Core.deaf (k : Core) : Bool := (List.range 4).all (fun j => decide (k.pfld (fINTEN_EN j) = 0))

/-- The part is in RUN with no sleep entry under way. -/
def State.awake (s : State) : Bool := s.slp.st = .run && s.slp.entering.isNone

/-! ### Instructions -/

/-- The instruction cache holds the line or the two lines of an instruction. -/
def Core.fetched (k : Core) (i : Issue) : Bool :=
  k.ic.any (fun p => p.1 = lineOf k.pc.toNat) && k.ic.any (fun p => p.1 = lineOf (k.pc + issueLen i - 1).toNat)

/-- The core as its instruction finds it: after the stall. -/
def State.issued (s : State) (i : Issue) : State :=
  s.setCore i.core { s.core i.core with dbgStep := false, cyc := (s.core i.core).cyc + i.stall }

/-- Whether instructions can lie at an address. -/
def codeSpace (a : Nat) : Bool :=
  match region a with
  | .rom | .mram | .sram | .ssram => true
  | _ => false

/-- A core issues its next instruction with nothing in its way: it runs; no NOTICE, interrupt, late write, loop write or answer of the host
window waits; its PC is even, in memory, permitted by the guard and in the instruction cache. -/
def State.issues (s : State) (i : Issue) : Bool :=
  let t := s.issued i
  let k := t.core i.core
  s.running i.core && k.notice.isNone && k.land.isEmpty && k.lpend.isEmpty && !s.winHeld i.core && (t.nextInt i.core).isNone &&
    !k.pc.getLsbD 0 && (k.guard k.world k.sup .x k.pc.toNat).1 && k.fetched i && codeSpace k.pc.toNat

/-- No hardware loop ends at the next address. -/
def Core.straight (k : Core) (i : Issue) : Bool :=
  (List.range 3).all (fun n => !(k.dla.testBit n && k.dle.getD n 0 = k.pc + issueLen i))

/-- A core issues its next instruction, and no hardware loop ends behind it. -/
def State.issuesOn (s : State) (i : Issue) : Bool := s.issues i && (s.core i.core).straight i

/-- The core has taken `n` cycles more, gone on in sequence and otherwise changed as `f` says. -/
def State.retired (s : State) (i : Issue) (n : Nat) (f : Core → Core) : State :=
  let k := (s.issued i).core i.core
  let r := f k
  s.setCore i.core { r with cyc := r.cyc + n, pc := k.pc + issueLen i }

/-- The core has taken `n` cycles more, changed as `f` says and goes on at an address. -/
def State.jumped (s : State) (i : Issue) (n : Nat) (t : Word) (f : Core → Core) : State :=
  let r := f ((s.issued i).core i.core)
  s.setCore i.core { r with cyc := r.cyc + n, pc := t }

/-- The core has taken `n` cycles more and its instruction raises a trap, without retiring. -/
def State.trapped (s : State) (i : Issue) (n : Nat) (t : TrapIn) : State :=
  let k := (s.issued i).core i.core
  (s.setCore i.core { k with cyc := k.cyc + n }).trap i.core t

/-- A trap of an instruction in the running world, with the PC of the instruction, its TRAPADDR and its word. -/
def State.trapIn (s : State) (i : Issue) (code info : Nat) (addr inst : Option Word) : TrapIn :=
  let k := s.core i.core
  ⟨code, k.world, k.pc, info, addr, inst, false, false⟩

/-! ### Accesses to cached SRAM -/

/-- Every one of `n` bytes from an address lies in SRAM. -/
def inSram (a n : Nat) : Bool := decide (0x20000000 ≤ a) && decide (a + n ≤ 0x20080000)

/-- The core's data cache holds a byte's line, all of it good. -/
def State.cached (s : State) (c : CoreId) (a : Nat) : Bool :=
  match findLine (s.lines (cacheOf c)) (lineOf a) with
  | some x => !x.tagBad && x.bad.isEmpty && decide (x.data.length = 32)
  | none => false

/-- The byte a core's data cache holds for an address. -/
def State.cacheByte (s : State) (c : CoreId) (a : Nat) : Byte :=
  match findLine (s.lines (cacheOf c)) (lineOf a) with
  | some x => x.data.getD (a - lineOf a) 0
  | none => 0

/-- The bytes a core's data cache holds from an address. -/
def State.cacheBytes (s : State) (c : CoreId) (a n : Nat) : List Byte := (List.range n).map (fun j => s.cacheByte c (a + j))

/-- A core reads `n` bytes from an address out of its data cache: SRAM, permitted, not under a self-test slice, its store buffer empty. -/
def State.hits (s : State) (c : CoreId) (a n : Nat) : Bool :=
  let k := s.core c
  inSram a n && (k.guard k.world k.sup .r a).1 && !s.accessWaits a && k.sbuf.isEmpty &&
    (List.range n).all (fun j => s.cached c (a + j))

/-- A core's store of `n` bytes to SRAM enters its store buffer at once. -/
def State.takesStore (s : State) (c : CoreId) (a n : Nat) : Bool :=
  inSram a n && !s.accessWaits a && (s.core c).sbuf.isEmpty

/-- A store waits in the buffer, as the running context made it. -/
def Core.stored (k : Core) (a : Nat) (bs : List Byte) : Core := { k with sbuf := [⟨k.world, k.sup, a, false, a, bs⟩] }

/-! ### The caches -/

/-- One writer (R354): a line that two caches hold is shared in both. -/
def State.coherent (s : State) : Prop :=
  ∀ c d base x y, c ≠ d → findLine (s.lines c) base = some x → findLine (s.lines d) base = some y →
    x.st = .shared ∧ y.st = .shared

/-- The commands that are transactions of the caches and their homes. -/
def busCommand : Instr → Bool
  | .readShared _ _ | .readUnique _ _ | .upgrade _ _ | .makeUnique _ _ | .readOnce _ _ | .writeUnique _ _ _ | .writeBack _ _
  | .storeDrain _ | .mramWriteDone _ | .mramPowerDown _ => true
  | _ => false

/-- A core has its 16 general registers, its four copies of w14, three hardware loops and eight tiles. -/
def Core.shaped (k : Core) : Bool :=
  k.gpr.length = 16 && k.sp.length = 4 && k.ls.length = 3 && k.le.length = 3 && k.lc.length = 3 && k.tiles.length = 8

/-- The part while only transactions of the caches wait: Rhoco has nothing to do of itself, the caches have one writer per line, memory is in
its canonical form, and the cores are whole. -/
def State.busInv (s : State) : Prop :=
  (∀ c ∈ s.pending, busCommand c = true) ∧ s.slp.entering = none ∧ s.rst.restoreDue = false ∧ s.waitingDescs = [] ∧
    s.coherent ∧ Memory.wf s.mem = true ∧ s.dec.shaped = true ∧ s.cant.shaped = true

end Sys2Proof.Machine
end

