-- ==== Sys2Proof/Certificates/Slice0/Obligations.lean ====
section
/-! DEFINITION. The statements about the model, for the provers. -/

open Sys2Proof Sys2Proof.Machine

/-- The three-register instructions of Table 13.4 that cannot saturate: where the core issues them with nothing in its way each
takes one cycle, writes its destination, goes on in sequence and changes nothing else of the part.
The immediate instructions of Table 13.4.
The saturating instructions of Table 13.4 and RDACC (R293): the exact result, held to 32 bits signed, and SAT set when that
changed it; SAT is not cleared otherwise. -/
def Obligations.ArithmeticInstructions : Prop :=
  (∀ (s : State) (i : Issue) (wd ws wt : Reg) (sh : Fin 32), s.issuesOn i = true →
    exec (.add i wd ws wt) s = .next (s.retired i 1 (fun k => k.setW wd (k.w ws + k.w wt))) ∧
    exec (.sub i wd ws wt) s = .next (s.retired i 1 (fun k => k.setW wd (k.w ws - k.w wt))) ∧
    exec (.and i wd ws wt) s = .next (s.retired i 1 (fun k => k.setW wd (k.w ws &&& k.w wt))) ∧
    exec (.or i wd ws wt) s = .next (s.retired i 1 (fun k => k.setW wd (k.w ws ||| k.w wt))) ∧
    exec (.xor i wd ws wt) s = .next (s.retired i 1 (fun k => k.setW wd (k.w ws ^^^ k.w wt))) ∧
    exec (.sll i wd ws wt) s = .next (s.retired i 1 (fun k => k.setW wd (k.w ws <<< ((k.w wt).extractLsb' 0 5).toNat))) ∧
    exec (.srl i wd ws wt) s = .next (s.retired i 1 (fun k => k.setW wd (k.w ws >>> ((k.w wt).extractLsb' 0 5).toNat))) ∧
    exec (.sra i wd ws wt) s = .next (s.retired i 1 (fun k =>
      k.setW wd ((k.w ws).sshiftRight ((k.w wt).extractLsb' 0 5).toNat))) ∧
    exec (.slli i wd ws sh) s = .next (s.retired i 1 (fun k => k.setW wd (k.w ws <<< sh.val))) ∧
    exec (.srli i wd ws sh) s = .next (s.retired i 1 (fun k => k.setW wd (k.w ws >>> sh.val))) ∧
    exec (.srai i wd ws sh) s = .next (s.retired i 1 (fun k => k.setW wd ((k.w ws).sshiftRight sh.val))) ∧
    exec (.rori i wd ws sh) s = .next (s.retired i 1 (fun k => k.setW wd ((k.w ws).rotateRight sh.val))) ∧
    exec (.cmplt i wd ws wt) s = .next (s.retired i 1 (fun k =>
      k.setW wd (if (k.w ws).toInt < (k.w wt).toInt then 1 else 0))) ∧
    exec (.cmpltu i wd ws wt) s = .next (s.retired i 1 (fun k =>
      k.setW wd (if (k.w ws).toNat < (k.w wt).toNat then 1 else 0))) ∧
    exec (.min i wd ws wt) s = .next (s.retired i 1 (fun k =>
      k.setW wd (BitVec.ofInt 32 (Min.min (k.w ws).toInt (k.w wt).toInt)))) ∧
    exec (.max i wd ws wt) s = .next (s.retired i 1 (fun k =>
      k.setW wd (BitVec.ofInt 32 (Max.max (k.w ws).toInt (k.w wt).toInt)))) ∧
    exec (.minu i wd ws wt) s = .next (s.retired i 1 (fun k =>
      k.setW wd (BitVec.ofNat 32 (Min.min (k.w ws).toNat (k.w wt).toNat)))) ∧
    exec (.maxu i wd ws wt) s = .next (s.retired i 1 (fun k =>
      k.setW wd (BitVec.ofNat 32 (Max.max (k.w ws).toNat (k.w wt).toNat)))) ∧
    exec (.rev i wd ws) s = .next (s.retired i 1 (fun k =>
      k.setW wd ((k.w ws).extractLsb' 0 8 ++ (k.w ws).extractLsb' 8 8 ++ (k.w ws).extractLsb' 16 8 ++
        (k.w ws).extractLsb' 24 8))) ∧
    (∀ n : Nat, ((s.issued i).core i.core).w ws ≠ 0 →
      n < 32 → (((s.issued i).core i.core).w ws).getLsbD (31 - n) = true →
      (∀ m < n, (((s.issued i).core i.core).w ws).getLsbD (31 - m) = false) →
      exec (.clz i wd ws) s = .next (s.retired i 1 (fun k => k.setW wd (BitVec.ofNat 32 n)))) ∧
    (((s.issued i).core i.core).w ws = 0 →
      exec (.clz i wd ws) s = .next (s.retired i 1 (fun k => k.setW wd 32)))) ∧
  (∀ (s : State) (i : Issue) (wd ws : Reg) (m : BitVec 18) (v : BitVec 21), s.issuesOn i = true →
    exec (.addi i wd ws m) s = .next (s.retired i 1 (fun k => k.setW wd (k.w ws + m.signExtend 32))) ∧
    exec (.andi i wd ws m) s = .next (s.retired i 1 (fun k => k.setW wd (k.w ws &&& m.signExtend 32))) ∧
    exec (.ori i wd ws m) s = .next (s.retired i 1 (fun k => k.setW wd (k.w ws ||| m.signExtend 32))) ∧
    exec (.xori i wd ws m) s = .next (s.retired i 1 (fun k => k.setW wd (k.w ws ^^^ m.signExtend 32))) ∧
    exec (.cmplti i wd ws m) s = .next (s.retired i 1 (fun k =>
      k.setW wd (if (k.w ws).toInt < m.toInt then 1 else 0))) ∧
    exec (.cmpltiu i wd ws m) s = .next (s.retired i 1 (fun k =>
      k.setW wd (if (k.w ws).toNat < (m.signExtend 32).toNat then 1 else 0))) ∧
    exec (.ldhi i wd v) s = .next (s.retired i 1 (fun k => k.setW wd (v ++ (0 : BitVec 11)))) ∧
    exec (.ldi i wd v) s = .next (s.retired i 1 (fun k => k.setW wd (v.signExtend 32))) ∧
    exec (.lapc i wd v) s = .next (s.retired i 1 (fun k => k.setW wd (k.pc + (v ++ (0 : BitVec 11)))))) ∧
  (∀ (s : State) (i : Issue) (wd ws wt : Reg) (n : Fin 2) (sh : Fin 32), s.issuesOn i = true →
    let sat := fun (k : Core) (x : Int) =>
      if x < -2147483648 then (let q := k.setW wd 0x80000000; { q with psr := q.psr ||| 0x100 })
      else if 2147483647 < x then (let q := k.setW wd 0x7FFFFFFF; { q with psr := q.psr ||| 0x100 })
      else k.setW wd (BitVec.ofInt 32 x)
    exec (.adds i wd ws wt) s = .next (s.retired i 1 (fun k => sat k ((k.w ws).toInt + (k.w wt).toInt))) ∧
    exec (.subs i wd ws wt) s = .next (s.retired i 1 (fun k => sat k ((k.w ws).toInt - (k.w wt).toInt))) ∧
    exec (.abs i wd ws) s = .next (s.retired i 1 (fun k => sat k |(k.w ws).toInt|)) ∧
    exec (.rdacc i wd n sh) s = .next (s.retired i 1 (fun k =>
      sat k ((signed 48 (if n = 0 then k.acc0 else k.acc1) + (if sh.val = 0 then 0 else 2 ^ (sh.val - 1))) / 2 ^ sh.val))))

/-- The multiplies and accumulates (R287, R288, R290): a product lands in MLO and MHI three cycles after issue; an accumulate lands two
cycles after issue, works on the value written last though it has not landed, keeps 48 bits and sets AOV when that changed it. Nothing is in
flight before, so the value written last is the accumulator. -/
def Obligations.MultiplyAndAccumulate : Prop :=
  ∀ (s : State) (i : Issue) (n : Fin 2) (wd ws wt : Reg), s.issuesOn i = true →
    let k := (s.issued i).core i.core
    let half : BitVec 8 := if n = 0 then 0x05 else 0x07
    let acc := if n = 0 then k.acc0 else k.acc1
    let reg := if n = 0 then LateReg.acc0 else LateReg.acc1
    let lands := fun (x : Int) (c : Core) =>
      { c with land := [⟨reg, wrapInt 48 x, c.cyc + 2⟩]
               psr := if -(2 : Int) ^ 47 ≤ x ∧ x < 2 ^ 47 then c.psr else c.psr ||| 0x200 }
    let low := fun (r : Reg) => ((k.w r).extractLsb' 0 16).toInt
    let high := fun (r : Reg) => ((k.w r).extractLsb' 16 16).toInt
    exec (.macs i n ws wt) s = .next (s.retired i 1 (lands (signed 48 acc + low ws * low wt))) ∧
    exec (.macd i n ws wt) s = .next (s.retired i 1 (lands (signed 48 acc + (low ws * low wt + high ws * high wt)))) ∧
    exec (.msubs i n ws wt) s = .next (s.retired i 1 (lands (signed 48 acc - low ws * low wt))) ∧
    exec (.msubd i n ws wt) s = .next (s.retired i 1 (lands (signed 48 acc - (low ws * low wt + high ws * high wt)))) ∧
    exec (.accclr i n) s = .next (s.retired i 1 (fun c => { c with land := [⟨reg, 0, c.cyc + 2⟩] })) ∧
    exec (.wracc i n ws) s = .next (s.retired i 1 (fun c =>
      { c with land := [⟨reg, ((k.w ws).signExtend 48).toNat, c.cyc + 2⟩] })) ∧
    exec (.mfs i wd half) s = .next (s.retired i 1 (fun c => c.setW wd (((BitVec.ofNat 48 acc).extractLsb' 32 16).signExtend 32))) ∧
    exec (.mts i half ws) s = .next (s.retired i 1 (fun c =>
      { c with land := [⟨reg, ((c.w ws).extractLsb' 0 16 ++ (BitVec.ofNat 48 acc).extractLsb' 0 32).toNat, c.cyc + 1⟩] })) ∧
    exec (.mul i ws wt) s = .next (s.retired i 1 (fun c =>
      { c with land := [⟨.mlo, (((k.w ws).signExtend 64 * (k.w wt).signExtend 64).extractLsb' 0 32).toNat, c.cyc + 3⟩,
        ⟨.mhi, (((k.w ws).signExtend 64 * (k.w wt).signExtend 64).extractLsb' 32 32).toNat, c.cyc + 3⟩] })) ∧
    exec (.mulu i ws wt) s = .next (s.retired i 1 (fun c =>
      { c with land := [⟨.mlo, (((k.w ws).setWidth 64 * (k.w wt).setWidth 64).extractLsb' 0 32).toNat, c.cyc + 3⟩,
        ⟨.mhi, (((k.w ws).setWidth 64 * (k.w wt).setWidth 64).extractLsb' 32 32).toNat, c.cyc + 3⟩] }))

/-- Division (R291): 16 cycles, and it never traps: by 0 the quotient is all ones and the remainder the dividend, and the most negative
dividend over −1 gives itself and 0. -/
def Obligations.Division : Prop :=
  ∀ (s : State) (i : Issue) (wd ws wt : Reg), s.issuesOn i = true →
    exec (.divs i wd ws wt) s = .next (s.retired i 16 (fun k => k.setW wd (
      if k.w wt = 0 then 0xFFFFFFFF
      else if k.w ws = 0x80000000 ∧ k.w wt = 0xFFFFFFFF then 0x80000000
      else (k.w ws).sdiv (k.w wt)))) ∧
    exec (.divu i wd ws wt) s = .next (s.retired i 16 (fun k => k.setW wd (
      if k.w wt = 0 then 0xFFFFFFFF else k.w ws / k.w wt))) ∧
    exec (.rems i wd ws wt) s = .next (s.retired i 16 (fun k => k.setW wd (
      if k.w wt = 0 then k.w ws
      else if k.w ws = 0x80000000 ∧ k.w wt = 0xFFFFFFFF then 0
      else (k.w ws).srem (k.w wt)))) ∧
    exec (.remu i wd ws wt) s = .next (s.retired i 16 (fun k => k.setW wd (
      if k.w wt = 0 then k.w ws else k.w ws % k.w wt)))

/-- The register file (Table 12.1): a write is seen in the register written, in w14 with bits [1:0] zero, and in no other register of
the running context; it changes neither mode nor PC, and of w14 only the copy of the running world and privilege. -/
def Obligations.GeneralRegisters : Prop :=
  ∀ (k : Core) (r q : Reg) (v : Word), k.gpr.length = 16 → k.sp.length = 4 →
    (k.setW r v).w q = (if q = r then (if r = 14 then v &&& 0xFFFFFFFC else v) else k.w q) ∧
    (k.setW r v).psr = k.psr ∧ (k.setW r v).pc = k.pc ∧ (k.setW r v).acc0 = k.acc0 ∧ (k.setW r v).acc1 = k.acc1 ∧
    (k.setW r v).gpr.length = 16 ∧ (k.setW r v).sp.length = 4 ∧
    (∀ j, j ≠ spIx k.world k.sup → (k.setW r v).sp[j]? = k.sp[j]?)

/-- Conditional branches (Table 13.7): taken, three cycles and the PC at PC + imm15 × 2; not taken, one cycle and in sequence.
Calls and jumps (Table 13.7, R284): the link is the address of the next instruction, PC + 2 behind a compact form; an odd target of
CALLR or JMPR raises IALIGN with TRAPADDR at the target, and no link is written. -/
def Obligations.BranchesCallsAndJumps : Prop :=
  (∀ (s : State) (i : Issue) (ws wt : Reg) (off : BitVec 15), s.issuesOn i = true →
    let k := (s.issued i).core i.core
    let to_ := fun (c : Prop) [Decidable c] =>
      if c then s.jumped i 3 (k.pc + (off.signExtend 32 <<< 1)) id else s.retired i 1 id
    exec (.beq i ws wt off) s = .next (to_ (k.w ws = k.w wt)) ∧
    exec (.bne i ws wt off) s = .next (to_ (k.w ws ≠ k.w wt)) ∧
    exec (.blt i ws wt off) s = .next (to_ ((k.w ws).toInt < (k.w wt).toInt)) ∧
    exec (.bge i ws wt off) s = .next (to_ ((k.w wt).toInt ≤ (k.w ws).toInt)) ∧
    exec (.bltu i ws wt off) s = .next (to_ ((k.w ws).toNat < (k.w wt).toNat)) ∧
    exec (.bgeu i ws wt off) s = .next (to_ ((k.w wt).toNat ≤ (k.w ws).toNat)) ∧
    exec (.beqz i ws off) s = .next (to_ (k.w ws = 0)) ∧
    exec (.bnez i ws off) s = .next (to_ (k.w ws ≠ 0))) ∧
  (∀ (s : State) (i : Issue) (wd ws : Reg) (off : BitVec 21) (m : BitVec 17), s.issuesOn i = true →
    let k := (s.issued i).core i.core
    let link := k.pc + (if i.compact then 2 else 4)
    let t := k.w ws + m.signExtend 32
    exec (.call i wd off) s = .next (s.jumped i 2 (k.pc + (off.signExtend 32 <<< 1)) (fun k => k.setW wd link)) ∧
    exec (.jmp i off) s = .next (s.jumped i 2 (k.pc + (off.signExtend 32 <<< 1)) id) ∧
    (t.getLsbD 0 = false →
      exec (.callr i wd ws m) s = .next (s.jumped i 3 t (fun k => k.setW wd link)) ∧
      exec (.jmpr i ws m) s = .next (s.jumped i 3 t id)) ∧
    (t.getLsbD 0 = true →
      exec (.callr i wd ws m) s = .next (s.trapped i 3 (s.trapIn i 0x03 0 (some t) none)) ∧
      exec (.jmpr i ws m) s = .next (s.trapped i 3 (s.trapIn i 0x03 0 (some t) none))))

/-- Hardware loops are set up by LOOP and LOOPI and cleared by LCLR (R294): LS is the next address, LE is PC + 2 × END9, LC the count and
LA bit n is set; with a count of 0 LA bit n is clear and execution goes on at LE. An END9 below 3 and a mask above 7 are reserved.
Loop-back (R295), said for an ADD at the end of the innermost body whose level ends here: while the count governing it is above 1 it counts
down and goes on at LS; at the last pass LC is 0, LA bit n clears and execution goes on in sequence. No loop write by MTS waits. -/
def Obligations.HardwareLoopsAndBack : Prop :=
  (∀ (s : State) (i : Issue) (n : Fin 3) (ws : Reg) (e : BitVec 9) (cnt m : BitVec 8), s.issuesOn i = true → i.compact = false →
    let k := (s.issued i).core i.core
    let le := k.pc + (e.setWidth 32 <<< 1)
    let level := fun (n : Nat) (ls le lc : Word) (on : Bool) (k : Core) =>
      { k with ls := k.ls.set n ls, le := k.le.set n le, lc := k.lc.set n lc
               dls := k.dls.set n ls, dle := k.dle.set n le, dlc := k.dlc.set n lc
               dla := bitTo k.dla n on, psr := BitVec.ofNat 32 (bitTo k.psr.toNat (10 + n) on) }
    let setUp := fun (v : Word) =>
      if v = 0 then s.jumped i 2 le (level n (k.pc + 4) le 0 false) else s.retired i 2 (level n (k.pc + 4) le v true)
    let clear := fun (n : Nat) (k : Core) => if m.getLsbD n then level n (k.ls.getD n 0) (k.le.getD n 0) 0 false k else k
    (3 ≤ e.toNat →
      exec (.loop i n ws e) s = .next (setUp (k.w ws)) ∧
      exec (.loopi i n cnt e) s = .next (setUp (cnt.setWidth 32))) ∧
    (e.toNat < 3 →
      (∃ word, exec (.loop i n ws e) s = .next (s.trapped i 2 (s.trapIn i 0x01 0 none (some word)))) ∧
      (∃ word, exec (.loopi i n cnt e) s = .next (s.trapped i 2 (s.trapIn i 0x01 0 none (some word))))) ∧
    (m.toNat < 8 → exec (.lclr i m) s = .next (s.retired i 1 (fun k => clear 2 (clear 1 (clear 0 k))))) ∧
    (8 ≤ m.toNat → ∃ word, exec (.lclr i m) s = .next (s.trapped i 1 (s.trapIn i 0x01 0 none (some word))))) ∧
  (∀ (s : State) (i : Issue) (wd ws wt : Reg) (n : Nat), s.issues i = true → n < 3 →
    let k := (s.issued i).core i.core
    let next := k.pc + (if i.compact then 2 else 4)
    let c := k.dlc.getD n 0
    let sum := fun (k : Core) => k.setW wd (k.w ws + k.w wt)
    k.dla.testBit n = true → k.dle.getD n 0 = next →
    (∀ j < n, ¬ (k.dla.testBit j = true ∧ k.dle.getD j 0 = next)) →
    (1 < c.toNat → exec (.add i wd ws wt) s =
      .next (s.jumped i 1 (k.dls.getD n 0) (fun k => let r := sum k
        { r with dlc := r.dlc.set n (c - 1), lc := r.lc.set n (c - 1) }))) ∧
    (c.toNat ≤ 1 → (∀ j < 3, n < j → ¬ (k.dla.testBit j = true ∧ k.dle.getD j 0 = next)) → exec (.add i wd ws wt) s =
      .next (s.jumped i 1 next (fun k => let r := sum k
        { r with dlc := r.dlc.set n 0, lc := r.lc.set n 0
                 dla := bitTo r.dla n false, psr := BitVec.ofNat 32 (bitTo r.psr.toNat (10 + n) false) }))))

/-- SVC, BREAK, WCALL and the reserved encodings (R258, R274, R280, R303): on Decani SVC and WCALL retire into their traps, WCALL's in the
Sacristy, with the immediate in INFO and the next address as return PC; on Cantoris SVC stalls it in XCALL with the number and w0 to w3
shown to Decani, and WCALL takes PRIV. BREAK halts a core whose debug level admits it, at the BREAK, and traps otherwise.
RETT (R262, R298, R301) with a frame in the core's cache: w0 to w3, w15, the PSR and the PC come from the frame, w14 goes up past it, LA
governs again, the reservation is lost, and where the frame is an interrupt's its source is active no more. User code, and a Nave frame that
names the Sacristy, take PRIV. -/
def Obligations.SystemCallsAndReturn : Prop :=
  (∀ (s : State) (i : Issue) (m : BitVec 8) (word : Word), s.issuesOn i = true →
    let k := (s.issued i).core i.core
    let next := k.pc + (if i.compact then 2 else 4)
    let u := s.retired i 0 id
    let admits := match k.world with
      | .nave => decide (1 ≤ s.fld fSACDBG_LEVEL)
      | .sacristy => decide (2 ≤ s.fld fSACDBG_LEVEL)
    (i.core = .decani →
      (∃ x, exec (.svc i m) s = .next (u.trap .decani ⟨0x0A, k.world, next, m.toNat, none, some x, false, false⟩)) ∧
      (∃ x, exec (.wcall i m) s = .next (u.trap .decani ⟨0x0D, .sacristy, next, m.toNat, none, some x, false, false⟩))) ∧
    (i.core = .cantoris →
      (s.slp.st = .run → exec (.svc i m) s = .next ((s.sets [(fCANTSTAT_STATE, 5), (fCANTXCTL_SVC, m.toNat),
        (fCANTXARG_ARG 0, (k.gpr.getD 0 0).toNat), (fCANTXARG_ARG 1, (k.gpr.getD 1 0).toNat),
        (fCANTXARG_ARG 2, (k.gpr.getD 2 0).toNat), (fCANTXARG_ARG 3, (k.gpr.getD 3 0).toNat)]).retired i 0 id)) ∧
      (∃ x, exec (.wcall i m) s = .next (s.trapped i 0 (s.trapIn i 0x02 0 none (some x))))) ∧
    (admits = true → exec (.brk i m) s = .next (s.setCore i.core { k with dbgHalt := true })) ∧
    (admits = false → ∃ x, exec (.brk i m) s = .next (u.trap i.core ⟨0x0B, k.world, next, 0, none, some x, false, false⟩)) ∧
    exec (.emulate i word) s = .next (s.trapped i 0 (s.trapIn i 0x01 0 none (some word)))) ∧
  (∀ (s : State) (i : Issue), s.issues i = true →
    let k := (s.issued i).core i.core
    let n := spIx k.world true
    let a := (k.sp.getD n 0).toNat
    let f := fun (j : Nat) => BitVec.ofNat 32 (leNat (s.cacheBytes i.core (a + 4 * j) 4))
    let psr := f 6 &&& 0x1F07
    (k.sup = false → ∃ x, exec (.rett i) s = .next (s.trapped i 6 (s.trapIn i 0x02 0 none (some x)))) ∧
    (k.sup = true → s.hits i.core a 32 = true → k.world = .nave → (f 6).getLsbD 1 = true →
      ∃ x, exec (.rett i) s = .next (s.trapped i 6 (s.trapIn i 0x02 0 none (some x)))) ∧
    (k.sup = true → s.hits i.core a 32 = true → ((f 6).getLsbD 1 = true → k.world = .sacristy) →
      exec (.rett i) s = .next (s.jumped i 6 (f 5) (fun k =>
        { k with
          sp := k.sp.set n ((k.sp.getD n 0 + (if (f 7).getLsbD 10 then 36 else 32)) &&& 0xFFFFFFFC)
          gpr := ((((k.gpr.set 0 (f 0)).set 1 (f 1)).set 2 (f 2)).set 3 (f 3)).set 15 (f 4)
          psr := psr, dla := (psr.extractLsb' 10 3).toNat, lpend := [], resv := none
          active := if (f 7).getLsbD 8 then k.active.drop 1 else k.active }))))

/-- Special registers (R292, R293): MFS puts the register's value in the destination; MTS to PSR leaves WORLD and the reserved bits
alone, to FLAGS changes SAT and AOV only, to VBASEN clears bits [4:0]; an unlisted number raises EMULATE. -/
def Obligations.SpecialRegisters : Prop :=
  ∀ (s : State) (i : Issue) (wd ws : Reg), s.issuesOn i = true →
    let k := (s.issued i).core i.core
    exec (.mfs i wd 0x00) s = .next (s.retired i 1 (fun c => c.setW wd c.psr)) ∧
    exec (.mfs i wd 0x01) s = .next (s.retired i 1 (fun c => c.setW wd (BitVec.ofNat 32 c.mlo))) ∧
    exec (.mfs i wd 0x02) s = .next (s.retired i 1 (fun c => c.setW wd (BitVec.ofNat 32 c.mhi))) ∧
    exec (.mfs i wd 0x04) s = .next (s.retired i 1 (fun c => c.setW wd (BitVec.ofNat 32 c.acc0))) ∧
    exec (.mfs i wd 0x18) s = .next (s.retired i 1 (fun c => c.setW wd (c.lc.getD 0 0))) ∧
    exec (.mfs i wd 0x49) s = .next (s.retired i 1 (fun c => c.setW wd c.tcause)) ∧
    (k.sup = true →
      exec (.mfs i wd 0x30) s = .next (s.retired i 1 (fun c => c.setW wd (c.vbase.getD 0 0))) ∧
      exec (.mts i 0x30 ws) s = .next (s.retired i 1 (fun c =>
        { c with vbase := c.vbase.set 0 (c.w ws &&& 0xFFFFFFE0) })) ∧
      exec (.mts i 0x32 ws) s = .next (s.retired i 1 (fun c =>
        { c with trapaddr := c.trapaddr.set c.world.ix (c.w ws) })) ∧
      (∃ t, exec (.mts i 0x00 ws) s = .next t ∧
        (t.core i.core).psr = (k.psr &&& 0xFFFFE0FA) ||| (k.w ws &&& 0x00001F05) ∧
        (t.core i.core).gpr = k.gpr ∧ (t.core i.core).sp = k.sp ∧ t.mem = s.mem ∧ t.regs = s.regs)) ∧
    (k.sup = false →
      (∃ x, exec (.mfs i wd 0x30) s = .next (s.trapped i 1 (s.trapIn i 0x02 0 none (some x)))) ∧
      (∃ x, exec (.mts i 0x00 ws) s = .next (s.trapped i 1 (s.trapIn i 0x02 0 none (some x))))) ∧
    exec (.mts i 0x03 ws) s = .next (s.retired i 1 (fun c =>
      { c with psr := (c.psr &&& 0xFFFFFCFF) ||| ((c.w ws &&& 3) <<< 8) })) ∧
    (∃ x, exec (.mfs i wd 0x08) s = .next (s.trapped i 1 (s.trapIn i 0x01 0 none (some x)))) ∧
    (∃ x, exec (.mts i 0x08 ws) s = .next (s.trapped i 1 (s.trapIn i 0x01 0 none (some x))))

/-- Trap entry (R260, R261, R298) where the frame enters the store buffer: after the late writes have landed, the frame of 32 bytes lies below
the target world's supervisor w14, 4 bytes lower where that was not a multiple of 8; the mode is that world's supervisor with IE = 0, the vector
is VBASE + 16 × code, TRAPADDR and TRAPINST of that world take their values where the trap gives one, and the reservation is lost.
A frame that the guard refuses locks the core up (R279): it issues nothing more, and neither its mode nor its PC changes. -/
def Obligations.TrapsAndLockUp : Prop :=
  (∀ (s : State) (c : CoreId) (t : TrapIn),
    let k := (s.core c).landAll
    let sp := k.sp.getD (spIx t.world true) 0
    let a := sp - (if sp.getLsbD 2 then 36 else 32)
    k.world = t.world → k.sbuf = [] → inSram a.toNat 32 = true → (k.guard t.world true .w a.toNat).1 = true →
    sp.extractLsb' 0 2 = 0 →
    s.trap c t = s.setCore c
      { k with
        sp := k.sp.set (spIx t.world true) a
        sbuf := [⟨t.world, true, a.toNat, true, a.toNat, frameBytes k t (sp.getLsbD 2)⟩]
        psr := (k.psr &&& 0xFFFFE3FC) ||| (if t.world = .sacristy then 3 else 1)
        pc := k.vbase.getD t.world.ix 0 + BitVec.ofNat 32 (16 * t.code)
        trapaddr := (match t.addr with
          | some v => k.trapaddr.set t.world.ix v
          | none => k.trapaddr)
        trapinst := (match t.inst with
          | some v => k.trapinst.set t.world.ix v
          | none => k.trapinst)
        resv := none, dls := k.ls, dle := k.le, dlc := k.lc, dla := 0, lpend := [], waiting := false }) ∧
  (∀ (s : State) (t : TrapIn),
    let k := s.dec.landAll
    let sp := k.sp.getD (spIx t.world true) 0
    let a := sp - (if sp.getLsbD 2 then 36 else 32)
    k.world = t.world → (k.guard t.world true .w a.toNat).1 = false →
    (s.trap .decani t).dec.lockup = true ∧ (s.trap .decani t).dec.psr = k.psr ∧ (s.trap .decani t).dec.pc = k.pc ∧
    (s.trap .decani t).running .decani = false ∧ (s.trap .decani t).mem = s.mem)

/-- What a core takes at an instruction boundary (R264, R266, R278): where a NOTICE waits it comes first; else the interrupt the controller
chooses, whose latch clears and which becomes the top of the active stack; with neither nothing happens. Decani is in RUN. -/
def Obligations.InterruptEntry : Prop :=
  ∀ (s : State) (n : Nat), s.slp.st = .run → s.running .decani = true → s.winHeld .decani = false →
    (s.dec.notice = none → s.nextInt .decani = some n →
      exec (.interruptEntry .decani none) s = .next
        ((s.setCore .decani { s.dec with latch := if s.dec.latch.testBit n then s.dec.latch - 2 ^ n else s.dec.latch
                                         active := n :: s.dec.active }).trap .decani
          ⟨0x20 + n, s.worldOf .decani n, s.dec.pc, 0, none, none, true, false⟩)) ∧
    (∀ w a, s.dec.notice = some (w, a) →
      exec (.interruptEntry .decani none) s = .next
        ((s.setCore .decani { s.dec with notice := none }).trap .decani
          ⟨0x09, w, s.dec.pc, 0, some (BitVec.ofNat 32 a), none, false, true⟩)) ∧
    (s.dec.notice = none → s.nextInt .decani = none → exec (.interruptEntry .decani none) s = .next s)

/-- Loads that their core's data cache serves (Table 13.6): an aligned access puts the bytes of its address, little-endian and extended as
the instruction says, into the destination; LDWP moves its base on; nothing else of the part changes, memory least.
Stores to SRAM enter the store buffer (R353, R358): the bytes of the register, at the address, as the running context made them; every
byte of memory reads as before, since the store drains later. -/
def Obligations.LoadsAndStores : Prop :=
  (∀ (s : State) (i : Issue) (wd ws : Reg) (m : BitVec 18), s.issuesOn i = true →
    let k := (s.issued i).core i.core
    let a := k.w ws + m.signExtend 32
    let num := fun (a : Word) (n : Nat) => leNat (s.cacheBytes i.core a.toNat n)
    (s.hits i.core a.toNat 1 = true →
      exec (.ldb i wd ws m) s = .next (s.retired i 1 (fun k => k.setW wd ((BitVec.ofNat 8 (num a 1)).signExtend 32))) ∧
      exec (.ldbu i wd ws m) s = .next (s.retired i 1 (fun k => k.setW wd (BitVec.ofNat 32 (num a 1))))) ∧
    (s.hits i.core a.toNat 2 = true → a.toNat % 2 = 0 →
      exec (.ldh i wd ws m) s = .next (s.retired i 1 (fun k => k.setW wd ((BitVec.ofNat 16 (num a 2)).signExtend 32))) ∧
      exec (.ldhu i wd ws m) s = .next (s.retired i 1 (fun k => k.setW wd (BitVec.ofNat 32 (num a 2))))) ∧
    (s.hits i.core a.toNat 4 = true → a.toNat % 4 = 0 →
      exec (.ldw i wd ws m) s = .next (s.retired i 1 (fun k => k.setW wd (BitVec.ofNat 32 (num a 4))))) ∧
    (s.hits i.core (k.w ws).toNat 4 = true → (k.w ws).toNat % 4 = 0 → wd ≠ ws →
      exec (.ldwp i wd ws m) s = .next (s.retired i 1 (fun k =>
        (k.setW wd (BitVec.ofNat 32 (num (k.w ws) 4))).setW ws (k.w ws + m.signExtend 32)))) ∧
    (s.hits i.core (k.w ws).toNat 4 = true → (k.w ws).toNat % 4 = 0 →
      exec (.ldx i wd ws) s = .next (s.retired i 1 (fun k =>
        { k.setW wd (BitVec.ofNat 32 (num (k.w ws) 4)) with resv := some (lineOf (k.w ws).toNat) })))) ∧
  (∀ (s : State) (i : Issue) (wt ws : Reg) (m : BitVec 18), s.issuesOn i = true →
    let k := (s.issued i).core i.core
    let a := (k.w ws + m.signExtend 32).toNat
    let b := (k.w ws).toNat
    (s.takesStore i.core a 1 = true →
      exec (.stb i wt ws m) s = .next (s.retired i 1 (fun k => k.stored a (leBytes 1 (k.w wt).toNat)))) ∧
    (s.takesStore i.core a 2 = true → a % 2 = 0 →
      exec (.sth i wt ws m) s = .next (s.retired i 1 (fun k => k.stored a (leBytes 2 (k.w wt).toNat)))) ∧
    (s.takesStore i.core a 4 = true → a % 4 = 0 →
      exec (.stw i wt ws m) s = .next (s.retired i 1 (fun k => k.stored a (leBytes 4 (k.w wt).toNat)))) ∧
    (s.takesStore i.core b 4 = true → b % 4 = 0 →
      exec (.stwp i wt ws m) s = .next (s.retired i 1 (fun k =>
        (k.stored b (leBytes 4 (k.w wt).toNat)).setW ws (k.w ws + m.signExtend 32)))))

/-- PUSHM and POPM (Table 13.6): the registers of the mask, the lowest-numbered lowest, lie below w14 and w14 goes down by 4 for each; POPM
reads them from w14 up and raises it. A mask of 0 or with bit 14 is reserved. -/
def Obligations.PushAndPop : Prop :=
  ∀ (s : State) (i : Issue) (m : BitVec 16), s.issuesOn i = true →
    let k := (s.issued i).core i.core
    let rs := (List.finRange 16).filter (fun r => m.getLsbD r.val)
    let n := rs.length
    let low := k.w 14 - BitVec.ofNat 32 (4 * n)
    (m ≠ 0 → m.getLsbD 14 = false → s.takesStore i.core low.toNat (4 * n) = true →
      exec (.pushm i m) s = .next (s.retired i (1 + (n + 1) / 2) (fun k =>
        (k.stored low.toNat ((rs.map (fun r => leBytes 4 (k.w r).toNat)).flatten)).setW 14 low))) ∧
    (m ≠ 0 → m.getLsbD 14 = false → s.hits i.core (k.w 14).toNat (4 * n) = true → k.gpr.length = 16 → k.sp.length = 4 →
      ∃ t : State, exec (.popm i m) s = .next t ∧
        (∀ j, (h : j < n) → rs[j] ≠ 14 →
          (t.core i.core).w rs[j] = BitVec.ofNat 32 (leNat (s.cacheBytes i.core ((k.w 14).toNat + 4 * j) 4))) ∧
        (t.core i.core).w 14 = (k.w 14 + BitVec.ofNat 32 (4 * n)) &&& 0xFFFFFFFC ∧
        (∀ r : Reg, r ∉ rs → r ≠ 14 → (t.core i.core).w r = k.w r) ∧
        (t.core i.core).pc = k.pc + (if i.compact then 2 else 4) ∧ (t.core i.core).psr = k.psr ∧
        t.mem = s.mem ∧ t.regs = s.regs ∧ (t.core i.core).sbuf = k.sbuf ∧ (t.core i.core).dc = k.dc) ∧
    ((m = 0 ∨ m.getLsbD 14 = true) →
      (∃ x, exec (.pushm i m) s = .next (s.trapped i 0 (s.trapIn i 0x01 0 none (some x)))) ∧
      (∃ x, exec (.popm i m) s = .next (s.trapped i 0 (s.trapIn i 0x01 0 none (some x)))))

/-- STX (R301, R361): with the reservation of its line held, and the line in the core's cache, the word is stored there and wd is 0; with
none, nothing is stored and wd is 1. The reservation is gone either way.
STORE_DRAIN (R358, R366): the oldest buffered store leaves the buffer; permitted, to a line its core owns, its bytes are in that line, which is
modified, and memory is as before; refused by the guard, no byte of it is stored, and NOTICE waits with its address. -/
def Obligations.StoreConditionalAndDrain : Prop :=
  (∀ (s : State) (i : Issue) (wd wt ws : Reg), s.issuesOn i = true →
    let k := (s.issued i).core i.core
    let a := (k.w ws).toNat
    s.takesStore i.core a 4 = true → (k.guard k.world k.sup .w a).1 = true → a % 4 = 0 →
    (k.resv ≠ some (lineOf a) →
      exec (.stx i wd wt ws) s = .next (s.retired i 2 (fun k => { k with resv := none }.setW wd 1))) ∧
    (∀ x, k.resv = some (lineOf a) → findLine k.dc (lineOf a) = some x → x.st ≠ .shared →
      exec (.stx i wd wt ws) s = .next (s.retired i 2 (fun k =>
        { k with
          resv := none
          dc := putLine k.dc { x with
            st := .modified
            data := spliceBytes x.data (a - lineOf a) (leBytes 4 (k.w wt).toNat)
            bad := x.bad.filter (fun j => decide (j < a - lineOf a) || decide (a - lineOf a + 4 ≤ j)) } }.setW wd 0)))) ∧
  (∀ (s : State) (c : CoreId) (e : SBuf) (rest : List SBuf),
    let k := s.core c
    s.cacheUp c = true → k.sbuf = e :: rest →
    (∀ x, (k.guard e.world e.priv .w e.check).1 = true → inSram e.addr e.data.length = true → e.data ≠ [] →
      lineOf (e.addr + e.data.length - 1) = lineOf e.addr → findLine k.dc (lineOf e.addr) = some x → x.st ≠ .shared →
      exec (.storeDrain c) s = .next (s.setCore c { k with
        sbuf := rest
        resv := if k.resv = some (lineOf e.addr) then none else k.resv
        dc := putLine k.dc { x with
          st := .modified
          data := spliceBytes x.data (e.addr - lineOf e.addr) e.data
          bad := x.bad.filter (fun j =>
            decide (j < e.addr - lineOf e.addr) || decide (e.addr - lineOf e.addr + e.data.length ≤ j)) } })) ∧
    ((k.guard e.world e.priv .w e.check).1 = false → e.checked = false → k.notice = none →
      ∃ t : State, exec (.storeDrain c) s = .next t ∧ (t.core c).sbuf = rest ∧ (t.core c).notice = some (e.world, e.check) ∧
        (t.core c).dc = k.dc ∧ (t.core c).gpr = k.gpr ∧ (t.core c).pc = k.pc ∧ t.mem = s.mem ∧ t.regs = s.regs))

/-- What a load or a store takes that may not be made (R278, Table 12.3): user code from 0xE0000000 up to 0xEFFFFFFF takes PRIV before
anything else; a misaligned address below takes DALIGN with TRAPADDR; a load that the guard refuses, which GSTAT and GCNT record, takes DGUARD
with TRAPADDR. -/
def Obligations.DataTraps : Prop :=
  ∀ (s : State) (i : Issue) (wd ws : Reg) (m : BitVec 18), s.issuesOn i = true →
    let k := (s.issued i).core i.core
    let a := k.w ws + m.signExtend 32
    let g := k.guard k.world k.sup .r a.toNat
    (0xE0000000 ≤ a.toNat → a.toNat < 0xF0000000 → k.sup = false →
      (∃ x, exec (.ldw i wd ws m) s = .next (s.trapped i 1 (s.trapIn i 0x02 0 none (some x)))) ∧
      (∃ x, exec (.stw i wd ws m) s = .next (s.trapped i 1 (s.trapIn i 0x02 0 none (some x))))) ∧
    (a.toNat < 0xE0000000 → a.toNat % 4 ≠ 0 →
      (∃ x, exec (.ldw i wd ws m) s = .next (s.trapped i 1 (s.trapIn i 0x06 0 (some a) (some x)))) ∧
      (∃ x, exec (.stw i wd ws m) s = .next (s.trapped i 1 (s.trapIn i 0x06 0 (some a) (some x))))) ∧
    (a.toNat < 0xE0000000 → a.toNat % 4 = 0 → g.1 = false →
      ∃ x, exec (.ldw i wd ws m) s = .next
        ((s.setCore i.core { k.refused g.2 false false with cyc := k.cyc + 1 }).trap i.core
          ⟨0x07, k.world, k.pc, 0, some a, some x, false, false⟩))

/-- Fences and cache instructions (R300, R360): with the store buffer empty FENCE only passes; ISYNC leaves the instruction cache empty and
ICINV leaves out one line of it; DCCLEAN writes a modified line to memory and keeps it exclusive; DCCINV, permitted, leaves the cache without the
line, a modified one written to memory and the reservation of it lost. -/
def Obligations.FencesAndCaches : Prop :=
  ∀ (s : State) (i : Issue) (ws : Reg), s.issuesOn i = true → (s.core i.core).sbuf = [] →
    let k := (s.issued i).core i.core
    let base := lineOf (k.w ws).toNat
    let home := fun (x : CLine) => { s with
      regs := (s.setFld (homePtr base) (((cacheOf i.core).num + 1) % 4)).regs
      mem := (s.mem.putBytes x.base x.data).markBad x.base x.bad }
    exec (.fence i) s = .next (s.retired i 1 id) ∧
    exec (.isync i) s = .next (s.retired i 4 (fun k => { k with ic := [] })) ∧
    exec (.icinv i ws) s = .next (s.retired i 2 (fun k => { k with ic := k.ic.filter (fun p => p.1 != base) })) ∧
    (∀ x, findLine k.dc base = some x → x.st = .modified →
      exec (.dcclean i ws) s = .next ((home x).retired i 2 (fun k =>
        { k with dc := putLine k.dc { x with st := .exclusive } }))) ∧
    ((∀ x, findLine k.dc base = some x → x.st ≠ .modified) → exec (.dcclean i ws) s = .next (s.retired i 2 id)) ∧
    ((k.guard k.world k.sup .w base).1 = true →
      (∀ x, findLine k.dc base = some x → x.st = .modified →
        exec (.dccinv i ws) s = .next ((home x).retired i 2 (fun k =>
          { k with dc := dropLine k.dc base, resv := if k.resv = some base then none else k.resv }))) ∧
      (∀ x, findLine k.dc base = some x → x.st ≠ .modified →
        exec (.dccinv i ws) s = .next (s.retired i 2 (fun k =>
          { k with dc := dropLine k.dc base, resv := if k.resv = some base then none else k.resv }))) ∧
      (findLine k.dc base = none → exec (.dccinv i ws) s = .next (s.retired i 2 id)))

/-- The elementwise tile instructions (R312, R313, Table 14.4): with live sources of the instruction's shape and format, the destination is a
live tile of that shape and format, each element the exact result of its elements saturated to the format, and SAT set when one was; TTRN
transposes. U16 is unsigned, S16 and Q15 signed, and a Q15 product is rounded back to 15 fraction bits.
A dead source raises TILE with cause 1 and the tile in TCAUSE, and no tile changes; TREL makes the tiles of its mask dead, and a mask of 0
is reserved (R308, R309, R316). -/
def Obligations.TileInstructions : Prop :=
  (∀ (s : State) (i : Issue) (td ta tb : Fin 8) (r c : Fin 16) (fmt : Fin 3), s.issuesOn i = true →
    let k := (s.issued i).core i.core
    let R := r.val + 1
    let C := c.val + 1
    let good := fun (j : Fin 8) => (k.tile j).use = true ∧ (k.tile j).rows = R ∧ (k.tile j).cols = C ∧ (k.tile j).fmt = fmt.val
    let v := fun (j : Fin 8) (e : Nat) =>
      let x := (k.tile j).el.getD e 0
      if fmt.val = 1 then (x % 65536 : Int) else (BitVec.ofNat 16 x).toInt
    let lo : Int := if fmt.val = 1 then 0 else -32768
    let hi : Int := if fmt.val = 1 then 65535 else 32767
    let out := fun (f : Nat → Int) =>
      s.retired i (Max.max 1 ((R * C + 15) / 16)) (fun k =>
        let q := k.setTile td ⟨true, R, C, fmt.val,
          (List.range (R * C)).map (fun e => (BitVec.ofInt 16 (Max.max lo (Min.min hi (f e)))).toNat)⟩
        if (List.range (R * C)).any (fun e => decide (f e < lo ∨ hi < f e)) then { q with psr := q.psr ||| 0x100 } else q)
    exec (.tzero i td r c fmt) s = .next (out (fun _ => 0)) ∧
    (good ta →
      exec (.tmov i td ta r c fmt) s = .next (out (fun e => v ta e)) ∧
      exec (.tabs i td ta r c fmt) s = .next (out (fun e => |v ta e|)) ∧
      exec (.tsra i td ta tb r c fmt) s = .next (out (fun e => (v ta e + 2 ^ tb.val) / 2 ^ (tb.val + 1))) ∧
      exec (.ttrn i td ta r c fmt) s = .next (s.retired i (Max.max R C) (fun k =>
        k.setTile td ⟨true, C, R, fmt.val,
          (List.range (C * R)).map (fun e => (k.tile ta).el.getD (e % R * C + e / R) 0)⟩))) ∧
    (good ta → good tb →
      exec (.tadd i td ta tb r c fmt) s = .next (out (fun e => v ta e + v tb e)) ∧
      exec (.tsub i td ta tb r c fmt) s = .next (out (fun e => v ta e - v tb e)) ∧
      exec (.tmul i td ta tb r c fmt) s = .next (out (fun e =>
        if fmt.val = 2 then (v ta e * v tb e + 16384) / 32768 else v ta e * v tb e)) ∧
      exec (.tmin i td ta tb r c fmt) s = .next (out (fun e => Min.min (v ta e) (v tb e))) ∧
      exec (.tmax i td ta tb r c fmt) s = .next (out (fun e => Max.max (v ta e) (v tb e))))) ∧
  (∀ (s : State) (i : Issue) (td ta : Fin 8) (r c : Fin 16) (fmt : Fin 3) (m : BitVec 8), s.issuesOn i = true →
    let k := (s.issued i).core i.core
    ((k.tile ta).use = false →
      ∃ x n, exec (.tmov i td ta r c fmt) s = .next
        ((s.setCore i.core { k with tcause := BitVec.ofNat 32 (1 + 16 * ta.val), cyc := k.cyc + n }).trap i.core
          ⟨0x0C, k.world, k.pc, 0, none, some x, false, false⟩)) ∧
    (m ≠ 0 → exec (.trel i m) s = .next (s.retired i 1 (fun k =>
      { k with tiles := k.tiles.mapIdx (fun n t => if m.getLsbD n then Tile.dead else t) }))) ∧
    (m = 0 → ∃ x, exec (.trel i m) s = .next (s.trapped i 1 (s.trapIn i 0x01 0 none (some x)))))

/-- TXC and TFIR (R314, R315): with live 16 × 16 data tiles of one format, a live signed template of the instruction's shape, an offset that
keeps in range and a destination that is another tile, dead or with room, result j of 16 is the sum over the template of template times data from
offset + j on, rounded and shifted; TXC puts it as a saturated 32-bit word into rows 2q and 2q + 1, TFIR as a saturated 16-bit one into row q. -/
def Obligations.Correlation : Prop :=
  ∀ (s : State) (i : Issue) (td : Fin 8) (tp : Fin 4) (tb : Fin 8) (ws : Reg) (r c : Fin 16), s.issuesOn i = true →
    let k := (s.issued i).core i.core
    let w := (k.w ws).toNat
    let off := w % 512
    let sh := w / 65536 % 16
    let q := w / 16777216 % 8
    let m := (r.val + 1) * (c.val + 1)
    let d0 := k.tile (2 * tp.val)
    let d1 := k.tile (2 * tp.val + 1)
    let full := fun (t : Tile) => t.use = true ∧ t.rows = 16 ∧ t.cols = 16
    let x := fun (n : Nat) =>
      let v := if n < 256 then d0.el.getD n 0 else d1.el.getD (n - 256) 0
      if d0.fmt = 1 then (v % 65536 : Int) else (BitVec.ofNat 16 v).toInt
    let y := fun (j : Nat) =>
      (((List.range m).map (fun e => (BitVec.ofNat 16 ((k.tile tb).el.getD e 0)).toInt * x (off + j + e))).sum
        + (if sh = 0 then 0 else 2 ^ (sh - 1))) / 2 ^ sh
    let fits := fun (rows : Nat) => (k.tile td).use = true → (k.tile td).cols = 16 ∧ rows ≤ (k.tile td).rows ∧ (k.tile td).fmt = 0
    let clamp := fun (n : Nat) (z : Int) => Max.max (-(2 ^ (n - 1) : Int)) (Min.min (2 ^ (n - 1) - 1) z)
    let flag := fun (n : Nat) (k : Core) =>
      if (List.range 16).any (fun j => decide (y j ≠ clamp n (y j))) then { k with psr := k.psr ||| 0x100 } else k
    td.val ≠ 2 * tp.val → td.val ≠ 2 * tp.val + 1 → td ≠ tb → full d0 → full d1 → d0.fmt = d1.fmt →
    (k.tile tb).use = true → (k.tile tb).rows = r.val + 1 → (k.tile tb).cols = c.val + 1 → (k.tile tb).fmt ≠ 1 →
    (k.w ws) &&& 0xF8F0FE00 = 0 → off + m + 14 ≤ 511 →
    (fits (2 * q + 2) →
      exec (.txc i td tp tb ws r c) s = .next (s.retired i (1 + (m + 3) / 4) (fun k =>
        flag 32 (k.setTile td (corrDest (k.tile td) (2 * q + 2) (32 * q) (((List.range 16).map (fun j =>
          [(BitVec.ofInt 32 (clamp 32 (y j))).toNat % 65536, (BitVec.ofInt 32 (clamp 32 (y j))).toNat / 65536])).flatten)))))) ∧
    (fits (q + 1) →
      exec (.tfir i td tp tb ws r c) s = .next (s.retired i (1 + (m + 3) / 4) (fun k =>
        flag 16 (k.setTile td (corrDest (k.tile td) (q + 1) (16 * q) ((List.range 16).map (fun j =>
          (BitVec.ofInt 16 (clamp 16 (y j))).toNat)))))))

/-- TLD and TRESTORE out of the core's data cache (R310, R311, R317): the tile takes the instruction's shape and format and the elements at
base + row × stride + 2 × column, and ws moves on by rows × stride with post-increment; a restored header with no live tile leaves every tile
dead.
TST and TSAVE to SRAM (R310, R311, R317): where the lines fit the empty store buffer, the buffer holds the tile's elements, or a header
and the live tiles, line by line; tiles and memory are as before. A TST of more lines completes too, at the next address with tiles and status as
before. -/
def Obligations.TileMemory : Prop :=
  (∀ (s : State) (i : Issue) (t : Fin 8) (ws wt : Reg) (pack : Bool) (r c : Fin 16) (fmt : Fin 3) (inc : Bool), s.issuesOn i = true →
    let k := (s.issued i).core i.core
    let R := r.val + 1
    let C := c.val + 1
    let a := (k.w ws).toNat
    let stride := if pack then 2 * C else (k.w wt).toNat
    (a % 2 = 0 → stride % 2 = 0 → a + R * stride + 32 ≤ 2 ^ 32 →
      (∀ p ∈ rowParts a stride R (2 * C), s.hits i.core p.1 p.2 = true) →
      exec (.tld i t ws wt pack r c fmt inc) s = .next (s.retired i (1 + (rowParts a stride R (2 * C)).length) (fun k =>
        let q := k.setTile t ⟨true, R, C, fmt.val, (List.range (R * C)).map (fun e =>
          leNat (s.cacheBytes i.core (a + e / C * stride + 2 * (e % C)) 2))⟩
        if inc then q.setW ws (k.w ws + BitVec.ofNat 32 (R * stride)) else q))) ∧
    (a % 4 = 0 → (∀ p ∈ areaParts a 32, s.hits i.core p.1 p.2 = true) → s.cacheBytes i.core a 32 = List.replicate 32 0 → s.hl.winAsk = none → s.hl.winAns = none →
      exec (.trestore i ws inc) s = .next (s.retired i (1 + (areaParts a 32).length) (fun k =>
        let q := { k with tiles := List.replicate 8 Tile.dead }
        if inc then q.setW ws (k.w ws + 32) else q)))) ∧
  (∀ (s : State) (i : Issue) (t : Fin 8) (ws wt : Reg) (pack : Bool) (r c : Fin 16) (fmt : Fin 3) (inc : Bool), s.issuesOn i = true →
    let k := (s.issued i).core i.core
    let R := r.val + 1
    let C := c.val + 1
    let a := (k.w ws).toNat
    let stride := if pack then 2 * C else (k.w wt).toNat
    let bytes := ((k.tile t).el.map (fun v => leBytes 2 v)).flatten
    let good := (k.tile t).use = true ∧ (k.tile t).rows = R ∧ (k.tile t).cols = C ∧ (k.tile t).fmt = fmt.val ∧ (k.tile t).el.length = R * C
    let parts := rowParts a stride R (2 * C)
    let move := fun (n : Nat) (k : Core) => if inc then k.setW ws (k.w ws + BitVec.ofNat 32 n) else k
    (good → a % 2 = 0 → stride % 2 = 0 → (∀ j < R, s.takesStore i.core (a + j * stride) (2 * C) = true) → R = 1 →
      lineOf (a + 2 * C - 1) = lineOf a →
      exec (.tst i t ws wt pack r c fmt inc) s = .next (s.retired i 2 (fun k => move (R * stride) (k.stored a bytes)))) ∧
    (good → a % 2 = 0 → stride % 2 = 0 → (∀ j < R, inSram (a + j * stride) (2 * C) = true) → s.st.running = false →
      ∃ u, exec (.tst i t ws wt pack r c fmt inc) s = .next u ∧
        (u.core i.core).pc = k.pc + (if i.compact then 2 else 4) ∧ (u.core i.core).tiles = k.tiles ∧ (u.core i.core).psr = k.psr ∧
        (u.core i.core).cyc = k.cyc + 1 + parts.length ∧
        (inc = false → (u.core i.core).gpr = k.gpr ∧ (u.core i.core).sp = k.sp)) ∧
    (a % 32 = 0 → s.takesStore i.core a 32 = true → (∀ j < 8, (k.tile j).use = false) →
      exec (.tsave i ws inc) s = .next ((s.used 16).retired i 2 (fun k => move 32 (k.stored a (List.replicate 32 0))))))

/-- At reset the invariant of the caches holds: no line is held, memory lists nothing, nothing waits. -/
def Obligations.BusInvariantAtReset : Prop := State.reset.busInv

/-- Every step keeps the invariant of the caches (R354): while only cache transactions wait, a step leaves no line with two holders of which
one may write it, and memory in its canonical form. -/
def Obligations.BusInvariantKept : Prop := ∀ s t : State, s.busInv → step s = .next t → t.busInv

/-- ReadShared, ReadUnique, Upgrade and MakeUnique (R354, Table 16.3), on lines of SRAM: afterwards the requester holds the line, and where it
asked to own it no other cache does; the data is the modified holder's, else memory's; a modified copy that is shared goes to memory.
ReadOnce, WriteUnique and WriteBack (R354): a read without a cache answers the word and moves no line; a write without a cache is in
memory and no cache keeps the line; a write-back puts a modified line into memory and the cache is without it. -/
def Obligations.CacheTransactions : Prop :=
  (∀ (s : State) (c : CoreId) (a : Nat), s.cacheUp c = true → 0x20000000 ≤ a → a < 0x20080000 →
    let own := cacheOf c
    let base := lineOf a
    let others := fun (t : State) => ∀ d, d ≠ own → findLine (t.lines d) base = none
    (findLine (s.lines own) base = none → others s → (s.mem.firstBad base 32 = none) →
      ((s.lines own).filter (fun x => x.base / 32 % 32 = base / 32 % 32)).length < 4 →
      exec (.readShared c a) s = .next (((s.setFld fCOHPTR_SRAMPTR ((own.num + 1) % 4)).setLines own
        (putLine (s.lines own) ⟨base, .exclusive, .nave, s.mem.bytes base 32, [], false⟩)))) ∧
    (∀ d x, findLine (s.lines own) base = none → d ≠ own → findLine (s.lines d) base = some x → x.st = .modified → s.coherent →
      ((s.lines own).filter (fun x => x.base / 32 % 32 = base / 32 % 32)).length < 4 →
      ∃ t : State, exec (.readShared c a) s = .next t ∧
        findLine (t.lines own) base = some ⟨base, .shared, .nave, x.data, x.bad, false⟩ ∧
        findLine (t.lines d) base = some { x with st := .shared } ∧ t.mem = (s.mem.putBytes base x.data).markBad base x.bad) ∧
    (findLine (s.lines own) base = none → ∃ t x, exec (.readUnique c a) s = .next t ∧
      findLine (t.lines own) base = some x ∧ x.st ≠ .shared ∧ others t ∧
      (((s.lines own).filter (fun x => x.base / 32 % 32 = base / 32 % 32)).length < 4 →
        x.data = (match s.dirtyElsewhere (some own) base with
          | some y => y.data
          | none => s.mem.bytes base 32))) ∧
    (∀ x, findLine (s.lines own) base = some x → x.st = .shared →
      ∃ t : State, exec (.upgrade c a) s = .next t ∧ findLine (t.lines own) base = some { x with st := .exclusive } ∧ others t ∧ t.mem = s.mem) ∧
    (∀ (j : Fin 512) (data : List Byte), s.role = .chapter → s.st.running = false →
      ∃ t : State, exec (.makeUnique j data) s = .next t ∧ t.mem = s.mem ∧
        findLine t.descCache (0x2007C000 + 32 * j.val) = some ⟨0x2007C000 + 32 * j.val, .modified, .nave, padTo 32 data, [], false⟩ ∧
        findLine t.dec.dc (0x2007C000 + 32 * j.val) = none ∧ findLine t.cant.dc (0x2007C000 + 32 * j.val) = none)) ∧
  (∀ (s : State) (a : Nat) (v : Word) (n : Fin 3) (c : CoreId), s.st.running = false → 0x20000000 ≤ a → a < 0x20080000 →
    let base := lineOf a
    let w := a / 4 * 4
    let clean := ∀ d, findLine (s.lines d) base = none
    (clean → s.mem.firstBad w 4 = none →
      exec (.readOnce none a) s = .next ((s.setFld fCOHPTR_SRAMPTR 0).emit (.reply w (s.mem.bytes w 4)))) ∧
    (clean → s.mem.firstBad base 32 = none → s.cacheUp c = true → (s.core c).ic.any (fun p => p.1 = base) = false →
      exec (.readOnce (some c) a) s = .next (s.setCore c { s.core c with
        ic := ((base, s.mem.bytes base 32) :: (s.core c).ic).take 256 })) ∧
    (∃ t : State, exec (.writeUnique none a v) s = .next t ∧ (∀ d, findLine (t.lines d) base = none) ∧
      (∀ j < 4, t.mem.byte (w + j) = v.extractLsb' (8 * j) 8) ∧
      (clean → ∀ b, (b < w ∨ w + 4 ≤ b) → t.mem.byte b = s.mem.byte b)) ∧
    (∀ x, findLine (s.lines (agentCache n)) base = some x → x.st = .modified → x.data.length = 32 →
      ∃ t : State, exec (.writeBack n a) s = .next t ∧ findLine (t.lines (agentCache n)) base = none ∧
        (∀ j < 32, t.mem.byte (base + j) = x.data.getD j 0) ∧ (∀ b, (b < base ∨ base + 32 ≤ b) → t.mem.byte b = s.mem.byte b)))

/-- Memory keeps what was last written to each byte and its canonical form: a written byte reads back, every other byte reads as before.
A field of a register holds what was last written to it, and no other field that does not overlap it changes (R3, R4). -/
def Obligations.StorageCells : Prop :=
  (∀ (m : Mem) (a : Nat) (bs : List Byte), Memory.wf m = true →
    Memory.wf (m.putBytes a bs) = true ∧
    (∀ j, (h : j < bs.length) → (m.putBytes a bs).byte (a + j) = bs[j]) ∧
    (∀ b, (b < a ∨ a + bs.length ≤ b) → (m.putBytes a bs).byte b = m.byte b)) ∧
  (∀ (s : State) (f g : Fld) (v : Nat), f.lo + f.w ≤ 32 → g.lo + g.w ≤ 32 →
    (s.setFld f v).fld f = v % 2 ^ f.w ∧
    (f.addr ≠ g.addr ∨ f.lo + f.w ≤ g.lo ∨ g.lo + g.w ≤ f.lo → (s.setFld f v).fld g = s.fld g) ∧
    (∀ a, a ≠ f.addr → (s.setFld f v).reg a = s.reg a) ∧
    (s.setFld f v).mem = s.mem ∧ (s.setFld f v).dec = s.dec ∧ (s.setFld f v).cant = s.cant ∧ (s.setFld f v).out = s.out)

/-- The commands of memory control and the sample-buffer windows (R330, R333, R343, R347, R349, R353).
The interrupt controller and the guard (R263, R266, R278, R367): INTSET and INTCLR set and clear the latch of the source at the core it is
routed to, of a Sacristy source only from the Sacristy; a held route acts once its source is neither active nor pending; a change of GBITS
governs the running group at once; a write to the guard lets earlier stores drain first. -/
def Obligations.MemoryAndInterruptControl : Prop :=
  (∀ (s : State) (h : Fin 2) (n : Fin 3) (w : World) (v : Word),
    (exec (.mramWriteDone h) s = .next { s.setFld (fBUSY h.val) 0 with
      mem := { s.mem with writing := s.mem.writing.filter (fun p => p.1 != h.val) } }) ∧
    (s.on (fBUSY h.val) = false → exec (.mramPowerDown h) s = .next (s.setFld (fUP h.val) 0)) ∧
    (s.on (fBUSY h.val) = true → exec (.mramPowerDown h) s = .next s) ∧
    (∃ t : State, exec (.mrsegWrite .sacristy false v) s = .next t ∧ t.fld fMRSEGSAC_SAC = v.toNat ∧
      (∀ x ∈ t.dec.dc, region x.base ≠ .mram) ∧ (∀ x ∈ t.cant.dc, region x.base ≠ .mram)) ∧
    (∃ t : State, exec (.mrsegWrite .nave false v) s = .next t ∧ t.fld fMRSEGSAC_SAC = s.fld fMRSEGSAC_SAC ∧ t.dec = s.dec ∧ t.mem = s.mem) ∧
    (∃ t : State, exec (.mrerraddrClear w) s = .next t ∧ t.fld fMRERRADDR_ADDR = 0 ∧ t.mem = s.mem ∧ t.dec = s.dec ∧ t.cant = s.cant) ∧
    (s.on (fSBWCFG_EN n.val) = false → s.winFits n.val = true →
      ∃ t : State, exec (.windowEnable .sacristy n) s = .next t ∧ t.on (fSBWCFG_EN n.val) = true ∧ t.fld (fSBWWP_WP n.val) = 0 ∧
        t.fld (fSBWRP_RP n.val) = 0 ∧ t.fld (fSBWDROP_DROPPED n.val) = s.fld (fSBWDROP_DROPPED n.val) ∧ t.mem = s.mem) ∧
    (s.on (fSBWCFG_EN n.val) = false → s.winFits n.val = false →
      ∃ t : State, exec (.windowEnable .sacristy n) s = .next t ∧ t.on (fSBWCFG_EN n.val) = false ∧ t.on fSBFLAG_CFGERR = true ∧ t.mem = s.mem) ∧
    (∃ t : State, exec (.windowDisable .sacristy n) s = .next t ∧ t.on (fSBWCFG_EN n.val) = false ∧ t.mem = s.mem) ∧
    (let p := fldOf v (fSBWRP_RP n.val)
     let rp := s.fld (fSBWRP_RP n.val)
     let m := 2 * s.winSize n.val
     (p < m → (p + m - rp) % m ≤ s.winFilled n.val →
       ∃ t : State, exec (.sbwRpWrite .sacristy n v) s = .next t ∧ t.fld (fSBWRP_RP n.val) = p ∧ t.mem = s.mem) ∧
     (p < m → s.winFilled n.val < (p + m - rp) % m →
       exec (.sbwRpWrite .sacristy n v) s = .next (s.setFld fSBFLAG_RPBAD 1)))) ∧
  (∀ (s : State) (k : Fin 4) (i : Fin 32) (v : Word),
    let n := 32 * k.val + i.val
    (s.worldOf .decani n = .nave → s.routeOf n = .decani → s.slp.st = .run → s.fld fCANTSTAT_STATE ≠ 4 → v = 1 <<< i.val →
      exec (.intset .decani .nave k.val v) s = .next { s with dec := { s.dec with latch := bitTo s.dec.latch n true } } ∧
      exec (.intclr .decani .nave k.val v) s = .next { s with dec := { s.dec with latch := bitTo s.dec.latch n false } }) ∧
    (s.worldOf .decani n = .sacristy → v = 1 <<< i.val → s.slp.st = .run → s.fld fCANTSTAT_STATE ≠ 4 →
      ∃ t : State, exec (.intset .decani .nave k.val v) s = .next t ∧ t.dec = s.dec ∧ t.cant = s.cant ∧
        t.sac.vq = (s.violate 5 0 (rINTSET k.val) v.toNat).sac.vq) ∧
    (∀ m b, s.dec.heldRoute.find? (fun p => p.1 = m) = some (m, b) → m ≠ 8 → m ≠ 9 → m < 64 → s.routeOf m = .decani → b = true →
      s.dec.active.contains m = false → s.intPending .decani m = false →
      ∃ t : State, exec (.introuteApply m) s = .next t ∧ t.routeOf m = .cantoris ∧ (∀ p ∈ t.dec.heldRoute, p.1 ≠ m) ∧
        t.dec.latch = s.dec.latch ∧ t.mem = s.mem) ∧
    (∃ t : State, exec (.gbitsWrite .decani .nave none v) s = .next t ∧ t.dec.pfld fINTCTL_GBITS = v.toNat % 8 ∧
      t.dec.gbits = Min.min 4 (v.toNat % 8) ∧ t.dec.active = s.dec.active ∧ t.regs = s.regs) ∧
    (s.dec.sbuf = [] → ∃ t : State, exec (.guardWrite .decani .nave false 0 v) s = .next t ∧
      t.dec.pfld (fGBASE_BASE 0) = v.toNat / 4 ∧
      t.dec.gpr = s.dec.gpr ∧ t.dec.pc = s.dec.pc ∧ t.mem = s.mem ∧ t.cant = s.cant))

/-- Register writes (R4, R568): from the Sacristy a plain register takes the bits its access codes let be written; from Nave an SRW field keeps
its value, and the attempt to change it is in the violation log with kind 1. -/
def Obligations.RegisterWrites : Prop :=
  ∀ (s : State) (v : Word), s.st.running = false →
    (∃ t : State, exec (.registerWrite .decani .sacristy rWAKEEN v) s = .next t ∧ t.fld fWAKEEN_LO = v.toNat % 32 ∧ t.mem = s.mem) ∧
    (v.toNat ≠ (s.reg rMRSEGSAC).toNat → s.sac.vq.length < 15 → s.sac.vDropped = 0 →
      ∃ t : State, exec (.registerWrite .decani .nave rMRSEGSAC v) s = .next t ∧ t.reg rMRSEGSAC = s.reg rMRSEGSAC ∧
        t.sac.vq = s.sac.vq ++ [vEntry s.timeBytes 1 14 rMRSEGSAC v.toNat] ∧ t.mem = s.mem)

/-- The loop descriptors (R424, R426, R430 to R432), in Loop role with the block not claimed: a set point is stored and, in NORMAL mode, LOOPNOW
follows it within 9,728 to 52,480; forced, it is stored and completes FORCED. LOOP_MODE writes EN, FAULT, FDIR and MMFAULT; LOOP_MAP keeps the
source and its range; LOOP_CAL holds 10,240 and then 51,200, leaves a right calibration as it is, and refuses currents out of order.
The loop's own events (R424, R427, R431, R434): with no set point in time the output goes to its fault current; the end of a calibration hold
gives LOOPNOW back to the set point; the tenth reading in a row outside its limits is a mismatch. -/
def Obligations.CurrentLoop : Prop :=
  (∀ (s : State) (d : Desc), s.ready d = true → s.role = .loop → s.fld fSACCLAIM_CLAIM = 0 →
    let v := dsArgs d 0 2
    let calm := s.on fLOOPCTL_EN = true ∧ s.on fLOOPCTL_FAULT = false ∧ s.loop.srcBad = false ∧ s.on fLOOPSTAT_MISMATCH = false ∧
      s.loopForced = false
    (calm → s.loop.calHold = none → ∃ t : State, exec (.loopSet d) s = .next (t.complete d stOK 0 []) ∧ t.fld fLOOPSET_CODE = v ∧
      t.fld fLOOPNOW_MODE = 1 ∧ t.fld fLOOPNOW_CODE = Max.max 9728 (Min.min 52480 v) ∧ s.besides t) ∧
    (s.loopForced = true → ∃ t : State, exec (.loopSet d) s = .next (t.complete d 0x50 0 []) ∧ t.fld fLOOPSET_CODE = v ∧
      t.fld fLOOPNOW_MODE = 3 ∧ t.fld fLOOPNOW_CODE = 8960 ∧ s.besides t) ∧
    (dsArg d 0 < 16 → dsArgs d 2 2 < 4096 → ∃ t : State, exec (.loopMode d) s = .next (t.complete d stOK 0 []) ∧
      (t.reg rLOOPCTL).toNat % 16 = dsArg d 0 ∧ t.fld fLOOPTMO_TMO = dsArgs d 2 2 ∧ t.fld fLOOPSET_CODE = s.fld fLOOPSET_CODE ∧
      s.besides t) ∧
    (16 ≤ dsArg d 0 → exec (.loopMode d) s = .next (s.complete d stINVALID 0 [])) ∧
    (dsArg d 0 = 8 → signed 32 (dsArgs d 4 4) ≠ signed 32 (dsArgs d 8 4) → s.cfgBusy = false →
      ∃ t : State, exec (.loopMap d) s = .next (t.complete d stOK 0 []) ∧ t.loop.mapSrc = 8 ∧ t.loop.lrv = signed 32 (dsArgs d 4 4) ∧
        t.loop.urv = signed 32 (dsArgs d 8 4) ∧ t.loop.calHold = none ∧ s.besides t) ∧
    (dsArg d 0 = 7 → exec (.loopMap d) s = .next (s.complete d stINVALID 0 [])) ∧
    (calm → ∃ t : State, exec (.loopCalLow d) s = .next (t.complete d stOK 0 []) ∧ t.loop.calHold = some 10240 ∧
      t.fld fLOOPNOW_CODE = 10240 ∧ s.besides t) ∧
    (calm → ∃ t : State, exec (.loopCalHigh d) s = .next (t.complete d stOK 0 []) ∧ t.loop.calHold = some 51200 ∧
      t.fld fLOOPNOW_CODE = 51200 ∧ s.besides t) ∧
    (calm → s.fld fLOOPCALG_GAIN = 32768 → s.fld fLOOPCALO_OFS = 0 → dsArgs d 4 4 = 4000000 → dsArgs d 8 4 = 20000000 →
      s.cfgBusy = false → ∃ t : State, exec (.loopCalCompute d) s = .next (t.complete d stOK 0 []) ∧ t.fld fLOOPCALG_GAIN = 32768 ∧
        t.fld fLOOPCALO_OFS = 0 ∧ t.on fLOOPFLAG_CALDONE = true ∧ t.loop.calHold = none ∧ s.besides t) ∧
    (signed 32 (dsArgs d 8 4) ≤ signed 32 (dsArgs d 4 4) → exec (.loopCalCompute d) s = .next (s.complete d 0x51 0 [])) ∧
    exec (.loopQuery d) s = .next (s.answers d [rLOOPNOW, rLOOPMEAS, rLOOPSTAT, rLOOPFLAG])) ∧
  (∀ (s : State) (m : Nat), s.role = .loop → s.inSlice 48 49 = false → s.loopForced = false → s.on fLOOPCTL_EN = true →
    (s.loop.calHold = none → s.loop.mapSrc = 0xFF → ∃ t : State, exec .loopUpdateTimeout s = .next t ∧ t.on fLOOPFLAG_TMO = true ∧
      t.loop.late = true ∧ t.fld fLOOPNOW_MODE = 2 ∧ t.fld fLOOPNOW_CODE = (if s.on fLOOPCTL_FDIR then 55040 else 8960) ∧ s.besides t) ∧
    (∀ c, s.loop.calHold = some c → s.loopFaulted = false → ∃ t : State, exec .loopCalHoldExpiry s = .next t ∧ t.loop.calHold = none ∧
      t.fld fLOOPNOW_CODE = Max.max 9728 (Min.min 52480 (s.fld fLOOPSET_CODE)) ∧ s.besides t) ∧
    (m < 65536 → (m : Int) - s.fld fLOOPNOW_CODE = 0 → s.loop.okRun < 99 →
      ∃ t : State, exec (.loopReadback m) s = .next t ∧ t.fld fLOOPMEAS_MEAS = m ∧ t.loop.badRun = 0 ∧ t.loop.okRun = s.loop.okRun + 1 ∧
        s.besidesAll t) ∧
    (m < 65536 → s.fld fLOOPNOW_CODE + 12800 < (s.fld fLOOPNOW_CODE - m) * 100 → s.loop.badRun = 9 → s.on fLOOPSTAT_MISMATCH = false →
      ∃ t : State, exec (.loopReadback m) s = .next t ∧ t.on fLOOPSTAT_MISMATCH = true ∧ t.on fLOOPFLAG_MISMATCH = true ∧ s.besides t))

/-- The front end's descriptors (R405, R409, R416), with no block claimed and the front end not armed: a set-up is refused while it converts and
else stored; a start with GO as the trigger sets EN and RUN; a stop clears both; excitation turned on completes when it has settled; reads give
the last words, with SUSPECT where one carries SUSP; offsets are taken where they stand for at most 50 µV.
The front end's events (R402 to R410, R417 to R419): GO starts it and an armed start waits for its time; a start whose time is past and is to
be dropped sets LATE; a settled output of CONT becomes the last word, the three before it do not; VEX settles, is read each millisecond, is turned
off in current limit; without an output the filter starts over. -/
def Obligations.FrontEnd : Prop :=
  (∀ (s : State) (d : Desc) (avg : List Int), s.ready d = true → (s.role = .cell ∨ s.role = .loop) → s.fld fSACCLAIM_CLAIM = 0 →
    s.awake = true → s.sfe.held = false → s.on fSFETH_ARM = false →
    (s.on fSFECTL_EN = true → exec (.sfeSetup d) s = .next (s.complete d stBUSY 0 [])) ∧
    (s.on fSFECTL_EN = false → s.on fSFEEXC_EN = false → ∃ t : State, exec (.sfeSetup d) s = .next (t.complete d stOK 0 []) ∧
      t.fld fSFEPER_PER = dsArgs d 8 4 ∧ t.fld fSFERATE_N = dsArgs d 4 4 % 16384 ∧ t.on fSFECTL_EN = false ∧
      t.fld fSFECTL_NSLOT = dsArgs d 0 4 / 32 % 8 ∧ t.fld (fSFESLOT_INP 2) = dsArgs d 20 2 % 2 ^ (fSFESLOT_INP 2).w ∧ s.besidesAll t) ∧
    (s.on fCLKSTAT_PLLLOCK = false → ∃ t : State, exec (.sfeStart d) s = .next (t.complete d stCLOCK 0 []) ∧ t.on fCLKFLAG_REFUSED = true ∧
      t.sfe = s.sfe ∧ s.besidesAll t) ∧
    (s.on fCLKSTAT_PLLLOCK = true → s.clk.spireHeld = false → s.on fSFECTL_EN = false → s.fld fSFECTL_TRIG = 0 → 96 ≤ s.fld fSFERATE_N →
      s.on fSFEEXC_EN = false → s.sfe.vex = false → s.on fSFESTAT_SCANBUSY = false → dsArg d 6 = 0 →
      ∃ t : State, exec (.sfeStart d) s = .next (t.complete d stOK 0 []) ∧ t.on fSFECTL_EN = true ∧ t.on fSFESTAT_RUN = true ∧ t.sfe.slot = 0 ∧
        t.sfe.timeOwed = true ∧ t.sfe.cfg = (s.reg (rSFESLOT 0)).toNat ∧ s.besides t) ∧
    (s.on fSFECTL_EN = true → ∃ t : State, exec (.sfeStop d) s = .next (t.complete d stOK 0 []) ∧ t.on fSFECTL_EN = false ∧
      t.on fSFESTAT_RUN = false ∧ t.on fSFESTAT_SCANBUSY = false ∧ s.besides t) ∧
    (dsArg d 0 = 1 → dsArgs d 1 2 < 1024 → dsArgs d 3 2 < 1024 → s.on fSFEEXC_EN = false → s.fld fPWRCFG_EXC = 0 →
      ∃ t : State, exec (.sfeExc d) s = .next t ∧ t.sfe.vex = true ∧ t.sfe.settling = true ∧ t.sfe.desc = some d ∧ t.on fSFEEXC_EN = true ∧
        t.fld fSFEEXC_WINLO = dsArgs d 1 2 ∧ t.fld fSFEEXC_WINHI = dsArgs d 3 2 ∧ t.node = s.node ∧ s.besides t) ∧
    (8 ≤ dsArg d 0 → exec (.sfeExc d) s = .next (s.complete d stINVALID 0 [])) ∧
    ((∀ j < 7, (s.reg (rSFELAST j)).getLsbD 31 = false) → exec (.sfeRead d) s = .next (s.complete d stOK (s.reg (rSFELAST 0)).toNat
      (((List.range 7).map (fun j => leBytes 4 (s.reg (rSFELAST j)).toNat)).flatten ++ leBytes 4 (s.reg rSFESCANCNT).toNat
        ++ List.replicate 4 0))) ∧
    (s.on fCLKSTAT_PLLLOCK = true → s.on fSFECTL_EN = false → dsArg d 0 = 1 → avg = [5] →
      ∃ t : State, exec (.sfeCal d avg) s = .next (t.complete d stOK 1 []) ∧ t.fld (fSFEOFS_OFS 0) = 5 ∧ t.on fSFEFLAG_CALDONE = true ∧
        s.besidesAll t) ∧
    exec (.sfeQuery d) s = .next (s.answers d [rSFESTAT, rSFEFLAG, rSFEMON, rSFELATE])) ∧
  (∀ (s : State) (v : Word) (x : SfeSample) (i e : Nat), s.awake = true → s.clk.spireHeld = false →
    s.on fCLKSTAT_PLLLOCK = true →
    let idle := s.on fSFECTL_EN = true ∧ s.sfe.held = false ∧ s.sfe.vex = false ∧ s.on fSFEEXC_EN = false ∧ s.on fSFESTAT_SCANBUSY = false
    (idle → s.fld fSFECTL_TRIG = 0 → ∃ t : State, exec (.sfego .sacristy 1) s = .next t ∧ t.on fSFESTAT_RUN = true ∧ t.sfe.slot = 0 ∧
      t.sfe.timeOwed = true ∧ s.besidesAll t) ∧
    (idle → s.fld fSFECTL_TRIG = 2 → v.toNat / 65536 = 1 →
      let due := s.fld fSFETL_TIME + v.toNat % 65536 * 2 ^ 32
      (past due s.now = false → ∃ t : State, exec (.sfeArm .sacristy v) s = .next t ∧ t.on fSFETH_ARM = true ∧ t.on fSFETH_LATE = false ∧
        t.sfe.due = due ∧ s.besidesAll t) ∧
      (past due s.now = true → s.on fSFECTL_LATEDROP = true → ∃ t : State, exec (.sfeArm .sacristy v) s = .next t ∧ t.on fSFETH_ARM = false ∧
        t.on fSFETH_LATE = true ∧ t.fld fSFELATE_LATE = lateness due s.now ∧ t.on fSFESTAT_RUN = s.on fSFESTAT_RUN ∧ t.sfe.missed = s.sfe.missed + 1 ∧
        s.besides t)) ∧
    (idle → s.fld fSFECTL_TRIG = 2 → s.on fSFETH_ARM = true → s.sfe.due = s.now → ∃ t : State, exec .sfeStartDue s = .next t ∧
      t.on fSFETH_ARM = false ∧ t.on fSFESTAT_RUN = true ∧ s.besidesAll t) ∧
    (s.on fSFECTL_EN = true → s.on fSFESTAT_RUN = true → s.on fSFESTAT_HELD = false → s.on fSFECTL_MODE = false → s.role ≠ .loop →
      s.sfe.cfg = (s.reg (rSFESLOT 0)).toNat → s.on (fSBWCFG_EN 1) = false → s.sfe.susp = false → s.sfe.cond = 0 → s.sfe.settling = false →
      s.on fPWRSRC_VDDAOK = true → x = ⟨1000, false, false, false⟩ → s.fld (fSFEOFS_OFS 0) = 0 → s.sfe.cfg = 0 →
      (s.sfe.unset = 0 → ∃ t : State, exec (.sfeOutput x) s = .next t ∧ t.fld (fSFELAST_WORD 0) = 1000 ∧ s.besidesAll t) ∧
      (0 < s.sfe.unset → ∃ t : State, exec (.sfeOutput x) s = .next t ∧ t.fld (fSFELAST_WORD 0) = s.fld (fSFELAST_WORD 0) ∧
        t.sfe.unset = s.sfe.unset - 1 ∧ s.besidesAll t)) ∧
    (s.sfe.vex = true → s.sfe.settling = true → s.sfe.held = false →
      (s.sfe.desc = none → ∃ t : State, exec (.excSettled true) s = .next t ∧ t.on fSFESTAT_EXCON = true ∧ t.sfe.settling = false ∧ s.besidesAll t) ∧
      (∀ d, s.sfe.desc = some d → ∃ t : State, exec (.excSettled true) s = .next (t.complete d stOK 0 []) ∧ t.on fSFESTAT_EXCON = true ∧
        t.sfe.settling = false ∧ t.sfe.desc = none) ∧
      (i < 1024 → e < 4096 → exec (.excMonitor i e) s = .next (s.sets [(fSFEMON_IEXC, i), (fSFEMON_VEXS, e)]))) ∧
    (s.sfe.vex = true → s.sfe.desc = none → ∃ t : State, exec .excCurrentLimit s = .next t ∧ t.on fSFEEXC_EN = false ∧ t.sfe.vex = false ∧
      t.on fSFESTAT_EXCON = false ∧ s.besides t) ∧
    (s.on fSFEEXC_EN = true → s.on fSFEEXC_PULSE = true → s.sfe.vex = false → s.on fSFECTL_EN = true → s.on fSFETH_ARM = true →
      s.fld fSFECTL_TRIG = 2 → exec .excPulseOn s = .next { s with sfe := { s.sfe with
        vex := true, settling := true, relevel := false, loRun := 0, hiRun := 0 } }) ∧
    (s.on fSFESTAT_RUN = true → s.on fSFESTAT_SCANBUSY = false → ∃ t : State, exec .convtmo s = .next t ∧ t.sfe.timeOwed = true ∧
      t.sfe.unset = (if s.on fSFECTL_REJ then 0 else 3) ∧ t.on fSFESTAT_RUN = true ∧ s.besides t))

/-- Boot (R124, R128, R138): with the role latched and VMAIN fed, the end of a reset's hold takes Rhoco through boot; with no valid copy of the
record the factory defaults are in use. A part stopped for OTPBAD does not leave the vector (R136). The kernel's good mark sets GOOD and clears
FAILS, and leaves written memory as it was (R134); the handheld's frame in its window puts the part in recovery, whose end is a software reset
(R137, R118); a grant that waits is applied (R68, R60).
The descriptors that reach no block (R22, R131, R153, R238): NOP completes OK with RESULT 0; IDENTIFY with LINEADDR, and its 28 bytes where
RESBUF has room for 24; BOOT_QUERY with RSTCAUSE; RESET, behind every earlier descriptor, OK with the last line SEQs (their order in RESULT is the
model's, Log 20), and not in Chapter role. -/
def Obligations.Boot : Prop :=
  (∀ (s : State) (regions : List (Nat × Word)),
    (s.rst.hold = true → s.rst.stopped = false → s.latched = true → s.pwr.fed = true → s.slp.st = .run → s.rst.copyA.valid = false →
      s.rst.copyB.valid = false → ∃ t : State, exec (.resetVectorEntry regions) s = .next t ∧ t.rst.hold = false ∧ t.rst.booted = true ∧
        t.on fBOOTSTAT_CFGDEF = true) ∧
    (s.rst.stopped = true → exec (.resetVectorEntry regions) s = .next s) ∧
    (s.rst.booted = true → s.rhocoUp = true → s.on fBOOTSTAT_GOOD = false → ∃ t : State, exec .bootGood s = .next t ∧
      t.on fBOOTSTAT_GOOD = true ∧ t.fld fBOOTSTAT_FAILS = 0 ∧ t.rst.b7Window = false ∧ t.mem.cells = s.mem.cells ∧ s.besides t) ∧
    ((s.role = .cell ∨ s.role = .loop) → s.on fLJSTAT_PRESENT = true → s.rhocoUp = true → s.rst.booted = true → s.rst.b7Window = true →
      ∃ t : State, exec .recover s = .next t ∧ t.on fBOOTSTAT_RECOV = true ∧ t.rst.b7Window = false ∧ t.rst.autostart = none ∧
        s.besidesAll t) ∧
    (s.on fBOOTSTAT_RECOV = true → s.rst.hold = false → ∃ t : State, exec .recoveryTimeout s = .next t ∧ t.fld fRSTCAUSE_LAST = 6 ∧
      (t.fld fRSTCAUSE_HIST).testBit 6 = true ∧ t.rst.hold = true ∧ t.rst.booted = false ∧ t.role = s.role ∧ t.pending = s.pending) ∧
    (s.on fBOOTSTAT_RECOV = false → exec .recoveryTimeout s = .next s) ∧
    (∀ g, s.pwr.grantPend = some g → s.awake = true → s.rhocoUp = false → s.rst.tokWait = none → ∃ t : State, exec .grantApply s = .next t ∧
      t.fld fPWRTOK_GRANT = Min.min 24 g ∧ t.pwr.grantPend = none ∧ s.besidesAll t) ∧
    (∀ g, s.pwr.grantPend = some g → s.awake = true → s.rst.autostart = none → s.rst.tokWait = none → ∃ t : State,
      exec .grantApply s = .next t ∧ t.fld fPWRTOK_GRANT = Min.min 24 g ∧ t.fld fPWRTOK_ALLOW = t.allowNow ∧ t.fld fPWRTOK_NEED = t.needNow ∧
        s.besidesAll t)) ∧
  (∀ (s : State) (d : Desc), s.ready d = true →
    let w := fun a => leBytes 4 (s.reg a).toNat
    exec (.nop d) s = .next (s.complete d stOK 0 []) ∧
    exec (.identify d) s = .next (s.complete d stOK (s.reg rLINEADDR).toNat
      (if 24 ≤ dsReslen d then w rROLESTAT ++ w rROLECAP ++ w rLINEADDR ++ s.uidBytes ++ leBytes 4 s.sysid else [])) ∧
    (∀ k, s.markedSlot = some k → exec (.bootQuery d) s = .next ((s.used 1).complete d stOK (s.reg rRSTCAUSE).toNat
      (w rRSTCAUSE ++ w rBOOTSTAT ++ w rBODCNT ++ leBytes 4 s.sysid ++ leBytes 4 (s.imgVersion k)))) ∧
    (d.path = .walk → s.role ≠ .chapter → s.earlierWaits d = false → s.rst.resetDue = false →
      exec (.reset d) s = .next (({ s with rst := { s.rst with resetDue := true } }).complete d stOK (s.lastSeqs d) [])) ∧
    (s.role = .chapter → d.path ≠ .lectern → s.earlierWaits d = false → s.rst.resetDue = false →
      exec (.reset d) s = .next (s.complete d stNOTROLE 0 [])) ∧
    (s.earlierWaits d = true → exec (.reset d) s = .next s))

/-- Line time (R106, R107, R98): an edge of the ready crystal is one tick; a cycle of the LF RC in holdover adds COUNT / 65,536 of one; a set is
refused while TRACK = 1, is pending otherwise, and takes the next tick. The crystal that becomes ready ends holdover; one that never does is a
crystal failure. -/
def Obligations.LineTime : Prop :=
  ∀ (s : State) (h : BitVec 16), s.awake = true → s.clk.line < 2 ^ 48 → s.untimed = true →
    let calm := s.on fRTCSTAT_SETPEND = false
    (calm → s.on fCLKSTAT_XTALOK = true → ∃ t : State, exec .lineTimeTick s = .next t ∧ t.clk.line = (s.clk.line + 1) % 2 ^ 48 ∧ s.besidesAll t) ∧
    (calm → s.on fCLKSTAT_XTALOK = false → s.on fCLKRCCAL_VALID = true → s.fld fCLKRCCAL_COUNT = 65536 → s.clk.hacc = 0 →
      ∃ t : State, exec .lineTimeTick s = .next t ∧ t.clk.line = (s.clk.line + 1) % 2 ^ 48 ∧ t.clk.hacc = 0 ∧ s.besidesAll t) ∧
    (calm → s.on fCLKSTAT_XTALOK = false → s.on fCLKRCCAL_VALID = false → s.clk.hacc = 0 →
      ∃ t : State, exec .lineTimeTick s = .next t ∧ t.clk.line = (s.clk.line + 1) % 2 ^ 48 ∧ t.clk.hacc = 196608 ∧ s.besidesAll t) ∧
    (s.on fLPSTAT_TRACK = true → exec (.rtcSetGo .sacristy h) s = .next (s.raise [fRTCFLAG_SETREF])) ∧
    (s.on fLPSTAT_TRACK = false → ∃ t : State, exec (.rtcSetGo .sacristy h) s = .next t ∧ t.on fRTCSTAT_SETPEND = true ∧
      t.fld fRTCSETH_TIME = h.toNat ∧ t.fld fRTCSETL_TIME = s.fld fRTCSETL_TIME ∧ t.clk = s.clk ∧ s.besidesAll t) ∧
    (s.on fRTCSTAT_SETPEND = true → s.on fLPSTAT_TRACK = false → ∃ t : State, exec .rtcSetApply s = .next t ∧
      t.clk.line % 2 ^ 48 = s.fld fRTCSETL_TIME + 2 ^ 32 * s.fld fRTCSETH_TIME ∧ t.on fRTCSTAT_SETPEND = false ∧ t.on fRTCSTAT_VALID = true ∧
      t.on fRTCFLAG_SET = true ∧ s.besidesAll t) ∧
    (s.on fRTCSTAT_SETPEND = true → s.on fLPSTAT_TRACK = true → exec .rtcSetApply s =
      .next ((s.setFld fRTCSTAT_SETPEND 0).raise [fRTCFLAG_SETREF])) ∧
    (s.on fCLKSTAT_XTALOK = false → s.role ≠ .chapter → exec .crystalReady s = .next { s.sets [(fCLKSTAT_XTALOK, 1), (fCLKSTAT_HOLDOVER, 0)] with
      clk := { s.clk with hacc := 0 } }) ∧
    (s.on fCLKSTAT_XTALOK = false → s.role = .chapter → s.rst.booted = true → s.rhocoUp = true → s.st.running = false → ∃ t : State,
      exec .crystalReady s = .next t ∧ t.on fCLKSTAT_XTALOK = true ∧ t.on fCLKSTAT_HOLDOVER = false ∧ t.on fCLKCTL_PLLEN = true ∧
        s.besidesAll t) ∧
    (s.on fCLKSTAT_XTALOK = true → exec .crystalReady s = .next s ∧ exec .crystalStartTimeout s = .next s) ∧
    (s.on fCLKSTAT_XTALOK = false → ∃ t : State, exec .crystalStartTimeout s = .next t ∧ t.on fCLKFLAG_XTALF = true ∧ t.on fCLKSTAT_FORCED = true ∧
      t.fld fCLKSAFE_REMAIN = 128 ∧ t.clk.failTimer = true ∧ (t.fld fWAKESRC_SRC).testBit 13 = true)

/-- The sources (R97, R99, R103, R104, R110): PLLEN starts the PLL, which locks; without the crystal the start is refused; a source in use cannot be
stopped; CLKSEL switches at once to a source that passes, is refused for one that does not, and is held while the root group is stopped.
The monitors and the safe state (R109, R111 to R113, R116), in RUN: a failure sets its flag and fires CLKFAIL; the crystal's is followed by
holdover; the HF RC's and the Spire's force the safe state when they are in use; a release with the root source good lifts it; the clock-fail timer
ends in a reset of kind 5. -/
def Obligations.Clocks : Prop :=
  (∀ (s : State) (v : Word) (n : BitVec 18), s.st.running = false →
    (s.on fCLKCTL_HFEN = true → s.clk.stopped = false → exec .hfrcReady s = .next (s.setFld fCLKSTAT_HFOK 1)) ∧
    (s.on fCLKSTAT_XTALOK = true → exec (.calibrationWindowEnd n true) s = .next (s.sets [(fCLKRCCAL_COUNT, n.toNat), (fCLKRCCAL_VALID, 1)])) ∧
    exec (.calibrationWindowEnd n false) s = .next s ∧
    (s.on fCLKCTL_PLLEN = false → s.on fCLKCTL_HFEN = true → s.on fCLKSTAT_XTALOK = true → ∃ t : State, exec (.pllEnable .sacristy) s = .next t ∧
      t.on fCLKCTL_PLLEN = true ∧ t.clk.pllRun = true ∧ t.on fCLKCTL_HFEN = true ∧ s.besidesAll t) ∧
    (s.on fCLKCTL_PLLEN = false → s.on fCLKCTL_HFEN = true → s.on fCLKSTAT_XTALOK = false → ∃ t : State,
      exec (.pllEnable .sacristy) s = .next t ∧ t.on fCLKCTL_PLLEN = false ∧ t.on fCLKFLAG_REFUSED = true ∧ s.besidesAll t) ∧
    (s.on fCLKCTL_PLLEN = true → s.on fCLKSTAT_XTALOK = true → s.on fCLKSTAT_PLLLOCK = false → s.clk.heldSel = none →
      s.on fSFESTAT_HELD = false → s.on fFONTSTAT_HELD = false → s.role ≠ .chapter → ∃ t : State, exec .pllLock s = .next t ∧
        t.on fCLKSTAT_PLLLOCK = true ∧ t.clk.spireHeld = false ∧ t.on fCLKSEL_ROOT = s.on fCLKSEL_ROOT ∧ s.besidesAll t) ∧
    (s.on fCLKCTL_PLLEN = true → s.on fCLKSTAT_XTALOK = true → s.on fCLKSTAT_PLLLOCK = false → s.clk.heldSel = none →
      s.on fSFESTAT_HELD = false → s.on fFONTSTAT_HELD = false → s.role = .chapter → s.rst.booted = true → s.rhocoUp = true →
      s.scr.bells = [] → ∃ t : State, exec .pllLock s = .next t ∧ t.on fCLKSTAT_PLLLOCK = true ∧ t.on fHLSTAT_SCRRDY = true ∧ s.besidesAll t) ∧
    (s.on fCLKCTL_PLLEN = true → s.on fCLKCTL_HFEN = true → s.on fCLKSEL_ROOT = false → s.on fCLKSTAT_ROOTNOW = false → s.clk.heldSel = none →
      s.spireOnly = false → ∃ t : State, exec (.pllDisable .sacristy) s = .next t ∧ t.on fCLKCTL_PLLEN = false ∧ t.on fCLKSTAT_PLLLOCK = false ∧
        t.clk.pllRun = false ∧ t.on fCLKCTL_HFEN = true ∧ s.besidesAll t) ∧
    (s.on fCLKCTL_PLLEN = true → s.on fCLKSEL_ROOT = true → exec (.pllDisable .sacristy) s = .next (s.raise [fCLKFLAG_REFUSED])) ∧
    (s.on fCLKSEL_ROOT = true → s.on fCLKSTAT_ROOTNOW = true → s.clk.heldSel = none → s.on fCLKCTL_HFEN = true → s.on fCLKCTL_PLLEN = true →
      ∃ t : State, exec (.hfrcDisable .sacristy) s = .next t ∧ t.on fCLKCTL_HFEN = false ∧ t.on fCLKSTAT_HFOK = false ∧
        t.on fCLKCTL_PLLEN = true ∧ s.besidesAll t) ∧
    (s.on fCLKSEL_ROOT = false → s.on fCLKCTL_HFEN = true → exec (.hfrcDisable .sacristy) s = .next (s.raise [fCLKFLAG_REFUSED])) ∧
    (s.on fCLKCTL_PLLEN = true → ∃ t : State, exec (.hfrcEnable .sacristy) s = .next t ∧ t.on fCLKCTL_HFEN = true ∧ t.on fCLKCTL_PLLEN = true ∧
      s.besidesAll t) ∧
    (v.toNat % 4 = 1 → s.clk.stopped = false → s.on fCLKSTAT_PLLLOCK = true → s.chor.heldWr = [] → s.on fCHSTARTH_ARM = false →
      ∃ t : State, exec (.clkselWrite .sacristy v) s = .next t ∧ t.on fCLKSEL_ROOT = true ∧ t.on fCLKSTAT_ROOTNOW = true ∧
        t.on fCLKSTAT_CDIVNOW = false ∧ t.on fCLKSTAT_SWPEND = false ∧ s.besidesAll t) ∧
    (v.toNat % 4 = 1 → s.clk.stopped = false → s.on fCLKSTAT_PLLLOCK = false →
      exec (.clkselWrite .sacristy v) s = .next (s.raise [fCLKFLAG_REFUSED])) ∧
    (v.toNat % 4 = 2 → s.clk.stopped = false → exec (.clkselWrite .sacristy v) s = .next (s.raise [fCLKFLAG_REFUSED])) ∧
    (s.clk.stopped = true → exec (.clkselWrite .sacristy v) s = .next { s.setFld fCLKSTAT_SWPEND 1 with
      clk := { s.clk with heldSel := some (v.toNat % 4), heldRestored := false } }) ∧
    (s.clk.heldSel = some 1 → s.clk.stopped = false → s.on fCLKSTAT_PLLLOCK = true → s.fld fCLKSTAT_ROOTNOW = 1 → ∃ t : State,
      exec .clkselHeldApply s = .next t ∧ t.clk.heldSel = none ∧ t.on fCLKSEL_ROOT = true ∧ t.on fCLKSTAT_ROOTNOW = true ∧
        t.on fCLKSTAT_SWPEND = false ∧ s.besidesAll t) ∧
    (s.clk.heldSel = none → exec .clkselHeldApply s = .next s)) ∧
  (∀ (s : State) (d : Desc), s.awake = true → s.st.running = false →
    let told := fun (t : State) => (t.fld fWAKESRC_SRC).testBit 13 = true
    (s.on fCLKSTAT_XTALOK = true → s.on fCLKCTL_PLLEN = false → ∃ t : State, exec (.crystalFail 0) s = .next t ∧ t.on fCLKFLAG_XTALF = true ∧
      t.on fCLKSTAT_XTALOK = false ∧ t.on fCLKSTAT_HOLDOVER = true ∧ t.on fCLKSTAT_FORCED = true ∧ told t) ∧
    (s.on fCLKSTAT_PLLLOCK = true → s.on fCLKSEL_ROOT = true → s.on fCLKSTAT_HFOK = true → s.on fSFESTAT_RUN = false →
      s.on fFONTSTAT_RUN = false → ∃ t : State, exec .pllFail s = .next t ∧
      t.on fCLKFLAG_PLLF = true ∧ t.on fCLKSTAT_PLLLOCK = false ∧ t.on fCLKFLAG_FALLBACK = true ∧ t.on fCLKSEL_ROOT = false ∧
      t.on fCLKSTAT_ROOTNOW = false ∧ t.clk.stopped = false ∧ t.clk.spireHeld = true ∧ t.on fCLKSTAT_FORCED = true ∧ told t) ∧
    (s.on fCLKSTAT_HFOK = true → s.on fCLKSEL_ROOT = true → ∃ t : State, exec .hfrcFail s = .next t ∧ t.on fCLKFLAG_HFF = true ∧
      t.on fCLKSTAT_HFOK = false ∧ t.on fCLKSTAT_FORCED = s.on fCLKSTAT_FORCED ∧ told t ∧ s.besidesAll t) ∧
    (s.on fCLKSTAT_HFOK = true → s.on fCLKSEL_ROOT = false → ∃ t : State, exec .hfrcFail s = .next t ∧ t.on fCLKFLAG_HFF = true ∧
      t.on fCLKSTAT_HFOK = false ∧ t.on fCLKSTAT_FORCED = true ∧ t.fld fCLKSAFE_REMAIN = 128 ∧ t.clk.failTimer = true ∧ told t) ∧
    (∃ t : State, exec .lfrcFail s = .next t ∧ t.on fCLKFLAG_LFRCF = true ∧ told t ∧ s.besidesAll t) ∧
    (s.on fCLKSTAT_FORCED = true → s.on fCLKSTAT_ROOTNOW = false → s.on fCLKSTAT_HFOK = true → ∃ t : State,
      exec (.clksafeRelease .sacristy) s = .next t ∧ t.on fCLKSTAT_FORCED = false ∧ t.clk.failTimer = false) ∧
    (s.on fCLKSTAT_FORCED = true → s.on fCLKSTAT_ROOTNOW = false → s.on fCLKSTAT_HFOK = false →
      exec (.clksafeRelease .sacristy) s = .next s) ∧
    (s.clk.failTimer = true → s.rst.hold = false → ∃ t : State, exec .clockFailTimerExpiry s = .next t ∧ t.fld fRSTCAUSE_LAST = 5 ∧
      (t.fld fRSTCAUSE_HIST).testBit 5 = true ∧ t.rst.hold = true ∧ t.role = s.role ∧ t.pending = s.pending) ∧
    (s.clk.failTimer = false → exec .clockFailTimerExpiry s = .next s) ∧
    (s.ready d = true → exec (.clkQuery d) s = .next (s.answers d [rCLKSTAT, rCLKFLAG, rCLKRCCAL])))

/-- The field inputs and the event FIFO (R486, R487, R524, R525, R532): a rise of an enabled input sets its state and counts; a broken wire reads 0;
a full FIFO drops, else an entry is made with the input, the event and its count; overvoltage and reversal are flagged, and a reversed input reads
0; a read of EVF2 takes the head entry.
The field descriptors (Table 24.4, R534), outside Loop role with the block not claimed and the safe state not forced: levels are stored and
reach the armed outputs; with VFLD low they complete 0x79, with a short 0x78; reads give the state with the counters, FIELD_COUNT clears the
counters it names. -/
def Obligations.FieldInputsAndDescriptors : Prop :=
  (∀ (s : State) (n x : Nat), s.blockOn 23 = true → n < 4 → s.fld fEVFSTAT_DROPPED = 0 → s.ring.evf.length < 64 →
    let entry := fun (code v : Nat) =>
      s.ring.evf ++ [(⟨s.now % 2 ^ 32, s.now / 2 ^ 32 + (3 + 16 * n + 256 * code) * 2 ^ 16, v, false, 0⟩ : Evf)]
    (s.fld fFISTAT_STATE = 0 → s.fld fFICTL_EN = 15 → s.fld fFISTAT_BREAK = 0 → s.fld fFISTAT_REV = 0 → s.fld fFICTL_EDGE = 0xFF →
      s.fld (fFICNT_COUNT n) < 2 ^ 32 - 1 → ∃ t : State, exec (.fieldInputEdge (2 ^ n)) s = .next t ∧ t.fld fFISTAT_STATE = 2 ^ n ∧
        t.fld (fFICNT_COUNT n) = s.fld (fFICNT_COUNT n) + 1 ∧ t.on (fFI 0 n) = true ∧ t.ring.evf = entry 0 (s.fld (fFICNT_COUNT n) + 1) ∧
        t.fld fEVFSTAT_COUNT = s.ring.evf.length + 1 ∧ s.besidesAll t) ∧
    (s.fld fFICTL_EN = 0 → exec (.fieldInputEdge x) s = .next s) ∧
    ((s.fld fFICTL_EN).testBit n = true → (s.fld fFICTL_BRKEN).testBit n = true → (s.fld fFISTAT_BREAK).testBit n = false → ∃ t : State,
      exec (.inBreak n) s = .next t ∧ (t.fld fFISTAT_BREAK).testBit n = true ∧ (t.fld fFISTAT_STATE).testBit n = false ∧
        t.on (fFI 4 n) = true ∧ t.ring.evf = entry 2 (s.fld (fFICNT_COUNT n)) ∧ s.besidesAll t) ∧
    (∃ t : State, exec (.inBreakClear n) s = .next t ∧ (t.fld fFISTAT_BREAK).testBit n = false ∧ t.ring = s.ring ∧ s.besidesAll t) ∧
    ((s.fld fFICTL_EN).testBit n = true → bitsOf (s.fld fFISTUCK_TMO) (8 * n) 8 ≠ 0 → ∃ t : State, exec (.inStuck n) s = .next t ∧
      t.on (fFI 12 n) = true ∧ t.ring.evf = entry 3 (s.fld (fFICNT_COUNT n)) ∧ t.fld fFISTAT_STATE = s.fld fFISTAT_STATE ∧ s.besidesAll t) ∧
    (∃ t : State, exec (.inOvervoltage n true true) s = .next t ∧ (t.fld fFISTAT_OV).testBit n = true ∧ (t.fld fFISTAT_REV).testBit n = true ∧
      t.on (fFI 8 n) = true ∧ t.on (fFI 16 n) = true ∧ (t.fld fFISTAT_STATE).testBit n = false ∧ s.besidesAll t) ∧
    (∃ t : State, exec (.inOvervoltage n false false) s = .next t ∧ (t.fld fFISTAT_OV).testBit n = false ∧
      (t.fld fFISTAT_REV).testBit n = false ∧ t.reg rFIFLAG = s.reg rFIFLAG ∧ s.besidesAll t) ∧
    (∀ e rest, s.ring.evf = e :: rest → ∃ t : State, exec (.evf2Read false) s = .next t ∧ t.ring.evf = rest ∧
      t.fld fEVFSTAT_COUNT = rest.length ∧ t.out = .reply (rEVF 2) (leBytes 4 e.w2) :: s.out ∧ t.mem = s.mem ∧ s.besides t)) ∧
  (∀ (s : State) (d : Desc), s.ready d = true → s.role ≠ .loop → s.fld fSACCLAIM_CLAIM = 0 → s.on fCLKSTAT_FORCED = false →
    (∃ t : State, exec (.fieldSetup d) s = .next (t.complete d stOK 0 []) ∧ t.fld fFICTL_EN = dsArgs d 0 4 % 16 ∧
      t.fld fFISTUCK_TMO = dsArgs d 4 4 ∧ t.fld fFOCTL_LEVEL = s.fld fFOCTL_LEVEL ∧ t.fld fFOCTL_ARM = s.fld fFOCTL_ARM ∧ s.besidesAll t) ∧
    (dsArg d 1 % 4 = 3 → ∃ t : State, exec (.fieldOut d) s = .next (t.complete d (if !s.fio.vok then 0x79
        else if (3 &&& (s.fio.short - (s.fio.short &&& dsArg d 0 % 4) ||| s.fio.therm)) = 0 then stOK else 0x78) 0 []) ∧
      t.fld fFOCTL_LEVEL = dsArg d 0 % 4 ∧ (s.fio.latch < 4 → t.fio.latch = dsArg d 0 % 4) ∧ s.besidesAll t) ∧
    exec (.fieldRead d) s = .next (s.complete d stOK (s.reg rFISTAT).toNat
      (((List.range 4).map (fun n => leBytes 4 (s.reg (rFICNT n)).toNat)).flatten)) ∧
    (dsArg d 0 % 16 = 15 → ∃ t : State, exec (.fieldCount d) s = .next (t.complete d stOK (s.reg rFISTAT).toNat
      (((List.range 4).map (fun n => leBytes 4 (s.reg (rFICNT n)).toNat)).flatten)) ∧ (∀ n < 4, t.reg (rFICNT n) = 0) ∧ s.besidesAll t) ∧
    exec (.fieldQuery d) s = .next (s.complete d stOK 0
      (([rFISTAT, rFIFLAG, rFOSTAT, rFOFLAG, rFOMON, rFVMON].map (fun a => leBytes 4 (s.reg a).toNat)).flatten)))

/-- The output latch (R526 to R533): FOCTL passes the levels of the armed outputs to it, unless the safe state is forced; keepalives that stop
send the outputs with SAFE to their safe levels; when they return nothing is armed; a short turns the output off, and its retry on again; heat,
an open load and the supply are told. -/
def Obligations.FieldOutputs : Prop :=
  ∀ (s : State) (v : Word) (n u : Nat), s.blockOn 23 = true → s.fio.latch < 4 → n < 2 → u < 256 →
    (fldOf v fFOCTL_LEVEL = 2 ^ n → fldOf v fFOCTL_ARM = 2 ^ n → s.on fCLKSTAT_FORCED = false → s.fio.latch = 0 → ∃ t : State,
      exec (.foctlWrite .sacristy v) s = .next t ∧ t.fio.latch = 2 ^ n ∧ t.fld fFOSTAT_LATCH = 2 ^ n ∧ t.fld fFOCTL_ARM = 2 ^ n ∧
        t.fio.safe = fldOf v fFOCTL_SAFE ∧ s.besidesAll t) ∧
    (fldOf v fFOCTL_ARM = 0 → s.on fCLKSTAT_FORCED = false → ∃ t : State, exec (.foctlWrite .sacristy v) s = .next t ∧
      t.fio.latch = s.fio.latch ∧ t.fld fFOCTL_LEVEL = fldOf v fFOCTL_LEVEL ∧ s.besidesAll t) ∧
    (s.on fCLKSTAT_FORCED = true → ∃ t : State, exec (.foctlWrite .sacristy v) s = .next t ∧ t.fio = s.fio ∧
      t.fld fFOCTL_LEVEL = fldOf v fFOCTL_LEVEL ∧ s.besidesAll t) ∧
    (∃ t : State, exec (.fokick .sacristy 0xF1E1) s = .next t ∧ t.fio.kick = some s.now ∧ t.fio.latch = s.fio.latch ∧ t.regs = s.regs ∧
      s.besidesAll t) ∧
    (v ≠ 0xF1E1 → exec (.fokick .sacristy v) s = .next s) ∧
    (s.kaSends = true → s.fio.silent = false → exec .keepalive s = .next { s with fio := { s.fio with ka := some s.now } }) ∧
    (s.kaSends = false → exec .keepalive s = .next s) ∧
    (s.fio.silent = false → s.fio.ka = none → s.fio.safe = 3 → s.fio.safeLvl < 4 → ∃ t : State, exec .logicSilent s = .next t ∧
      t.fio.latch = s.fio.safeLvl ∧ t.fio.silent = true ∧ t.fld fFOSTAT_LATCH = s.fio.safeLvl ∧ s.besidesAll t) ∧
    (s.fio.silent = false → s.fio.ka = none → s.fio.safe = 0 → ∃ t : State, exec .logicSilent s = .next t ∧ t.fio.latch = s.fio.latch ∧
      t.fio.silent = true ∧ s.besidesAll t) ∧
    (s.fio.silent = true → s.kaSends = true → s.fio.safed = 0 → ∃ t : State, exec .keepaliveReturn s = .next t ∧ t.fio.silent = false ∧
      t.fio.latch = s.fio.latch ∧ t.fld fFOCTL_ARM = 0 ∧ t.on fFOFLAG_SILENT = true ∧ s.besidesAll t) ∧
    (s.fio.on.testBit n = true → (s.fld fFOCTL_RETRY).testBit n = true → s.fio.times = [[], []] → ∃ t : State, exec (.outShort n u) s = .next t ∧
      t.fio.latch.testBit n = false ∧ t.fio.short.testBit n = true ∧ t.fio.retry.testBit n = true ∧ t.fld (fFOI n) = u ∧ s.besides t) ∧
    (s.fio.on.testBit n = true → (s.fld fFOCTL_RETRY).testBit n = false → ∃ t : State, exec (.outShort n u) s = .next t ∧
      t.fio.latch.testBit n = false ∧ t.fio.retry.testBit n = false ∧ s.besides t) ∧
    (s.fio.retry.testBit n = true → ∃ t : State, exec (.outRetry n) s = .next t ∧ t.fio.latch.testBit n = true ∧
      t.fio.short.testBit n = false ∧ t.fio.retry.testBit n = false ∧ s.besidesAll t) ∧
    (s.fio.therm.testBit n = false → ∃ t : State, exec (.outTherm n true u) s = .next t ∧ t.fio.therm.testBit n = true ∧
      t.fio.on.testBit n = false ∧ t.fio.latch = s.fio.latch ∧ t.fld (fFOI n) = u ∧ s.besides t) ∧
    (s.fio.therm.testBit n = true → ∃ t : State, exec (.outTherm n false u) s = .next t ∧ t.fio.therm.testBit n = false ∧
      t.fio.latch = s.fio.latch ∧ s.besidesAll t) ∧
    (s.fio.on.testBit n = true → s.rhocoUp = false → ∃ t : State, exec (.outOpen n u) s = .next t ∧ t.on (fFO 4 n) = true ∧ t.fio = s.fio ∧
      t.fld (fFOI n) = u ∧ s.besidesAll t) ∧
    (∃ t : State, exec (.vfldQualified true u) s = .next t ∧ t.fio.latch = 0 ∧ t.fio.vok = true ∧ t.fld fFVMON_VFLD = u ∧
      t.on fFOSTAT_VFLDOK = true ∧ s.besidesAll t) ∧
    (∃ t : State, exec (.vfldQualified false u) s = .next t ∧ t.fio.latch = s.fio.latch ∧ t.fio.vok = true ∧ s.besidesAll t) ∧
    (s.fio.vok = true → ∃ t : State, exec (.vfldLost u) s = .next t ∧ t.fio.vok = false ∧ t.fio.on = 0 ∧ t.fio.latch = s.fio.latch ∧
      t.fld fFVMON_VFLD = u ∧ s.besides t) ∧
    (s.fio.ov = false → ∃ t : State, exec (.vfldOvervoltage u) s = .next t ∧ t.fio.ov = true ∧ t.fio.on = 0 ∧ t.fio.latch = s.fio.latch ∧
      t.fld fFVMON_VFLD = u ∧ s.besides t) ∧
    (∃ t : State, exec (.vfldOvRecover u) s = .next t ∧ t.fio.ov = false ∧ t.fio.latch = s.fio.latch ∧ t.fld fFVMON_VFLD = u ∧ s.besidesAll t)

/-- Font's descriptors (R447, R451, R452, R456, R461, Table 20.8), in Cell role with nothing claimed, in RUN: set-up and geometry are stored while EN
is 0 and refused as BUSY else; a start without TUNED, without the Spire or at the next whole multiple of its period; a stop between ticks; a tune
that finds a port bad; a zero in an empty pipe and one whose pairs show no difference; readings and templates. -/
def Obligations.FontDescriptors : Prop :=
  ∀ (s : State) (d : Desc) (m : TuneIn) (x : Int), s.ready d = true → s.role = .cell → s.fld fSACCLAIM_CLAIM = 0 → s.awake = true →
    s.cfgBusy = false →
    let off := s.on fFONTCTL_EN = false
    (s.on fFONTCTL_EN = true → exec (.fontSetup d) s = .next (s.complete d stBUSY 0 []) ∧
      exec (.fontTune d m) s = .next (s.complete d stBUSY 0 []) ∧ exec (.fontZero d [] true) s = .next (s.complete d stBUSY 0 [])) ∧
    (off → s.fontFlow = false → ∃ t : State, exec (.fontSetup d) s = .next (t.complete d stOK 0 []) ∧ t.on fFONTCTL_EN = false ∧
      t.fld fFONTCTL_MED = dsArgs d 0 4 / 64 % 8 ∧ t.fld fFONTBURST_PER = dsArgs d 4 4 % 512 ∧ t.fld fFONTDET_THR = dsArgs d 12 4 % 2048 ∧
      t.fld fFONTPER_FLOW = dsArgs d 16 2 ∧ t.fld fFONTPER_IDLE = dsArgs d 18 2 ∧ t.fld fFONTTHR_FLOWON = dsArgs d 20 2 ∧ s.besidesAll t) ∧
    (off → dsArgs d 4 4 ≠ 0 → dsArgs d 8 4 ≠ 0 → ∃ t : State, exec (.fontGeometry d) s = .next (t.complete d stOK 0 []) ∧
      t.fld fFONTGEOL_L = dsArgs d 0 4 ∧ t.fld fFONTGEOX_X = dsArgs d 4 4 ∧ t.fld fFONTGEOD_D = dsArgs d 8 4 ∧
      t.fld fFONTKF_KF = dsArgs d 12 4 ∧ t.fld fFONTT0_T0 = dsArgs d 16 4 ∧ t.fld fFONTDT0_DT0 = dsArgs d 20 4 ∧ s.besidesAll t) ∧
    (dsArgs d 4 4 = 0 → exec (.fontGeometry d) s = .next (s.complete d stINVALID 0 [])) ∧
    (s.on fFONTTUNE_TUNED = false → exec (.fontStart d) s = .next (s.complete d 0x58 0 [])) ∧
    (s.on fFONTTUNE_TUNED = true → s.on fCLKSTAT_PLLLOCK = false →
      exec (.fontStart d) s = .next ((s.raise [fCLKFLAG_REFUSED]).complete d stCLOCK 0 [])) ∧
    (off → s.on fFONTTUNE_TUNED = true → s.on fCLKSTAT_PLLLOCK = true → s.on fFONTCTL_FORCE = false → s.on fFONTTH_ARM = false →
      s.fld fFONTPER_IDLE = 1024 → bitAt (dsArg d 6) 0 = false → ∃ t : State, exec (.fontStart d) s = .next (t.complete d stOK 0 []) ∧
        t.on fFONTCTL_EN = true ∧ t.on fFONTSTAT_RUN = true ∧ t.on fFONTSTAT_FLOWCAD = false ∧
        t.font.due = some ((s.now / 32768 + 1) * 32768 % 2 ^ 48) ∧ s.besidesAll t) ∧
    (s.on fFONTCTL_EN = true → s.font.phase = 0 → s.fontFlow = false → s.on fFONTCTL_FORCE = false → ∃ t : State,
      exec (.fontStop d) s = .next (t.complete d stOK 0 []) ∧ t.on fFONTCTL_EN = false ∧ t.on fFONTSTAT_RUN = false ∧ t.font.due = none ∧
        s.besidesAll t) ∧
    (off → s.on fCLKSTAT_PLLLOCK = true → m.capU < 50 → exec (.fontTune d m) s = .next (s.complete d 0x59 0 [])) ∧
    (off → s.on fCLKSTAT_PLLLOCK = true → m.resistive = false → 50 ≤ m.capU → m.capU ≤ 3000 → m.capD = m.capU → m.sums = [1] → m.pwrs = [7] →
      256 ≤ m.peak60 → m.invalid = false → dsArgs d 0 2 < 512 → ∃ t : State, exec (.fontTune d m) s = .next (t.complete d stOK (dsArgs d 0 2) []) ∧
        t.on fFONTTUNE_TUNED = true ∧ t.fld fFONTBURST_PER = dsArgs d 0 2 ∧ t.fld fFONTTUNE_PWRREF = 7 ∧
        t.fld fFONTCAPW_CMIN = m.capU * 7 / 10 ∧ t.fld fFONTCAPW_CMAX = m.capU * 13 / 10 ∧ t.on fFONTFLAG_TUNEDONE = true) ∧
    (off → s.on fCLKSTAT_PLLLOCK = true → exec (.fontZero d [] true) s = .next (s.complete d 0x5A 0 [])) ∧
    (off → s.on fCLKSTAT_PLLLOCK = true → ∃ t : State, exec (.fontZero d [(x, x)] false) s = .next (t.complete d stOK 0 []) ∧
      t.fld fFONTDT0_DT0 = 0) ∧
    exec (.fontRead d) s = .next (s.complete d stOK (s.fld fFONTRESFLOW_FLOW) s.fontReading) ∧
    exec (.fontQuery d) s = .next (s.answers d [rFONTSTAT, rFONTFLAG, rFONTIMP, rFONTSHOT, rFONTCNT, rFONTLATE]) ∧
    (dsArg d 0 < 2 → exec (.fontTplRead d) s =
      .next (s.complete d stOK 0 (s.mem.bytes (s.tplAddr (dsArg d 0)) (32 * (s.fld fFONTTPL_ROWS + 1))))) ∧
    (2 ≤ dsArg d 0 → exec (.fontTplRead d) s = .next (s.complete d stINVALID 0 []) ∧
      exec (.fontTplWrite d) s = .next (s.complete d stINVALID 0 [])) ∧
    (off → dsArg d 0 < 2 → dsArg d 1 < 31 → s.fld fFONTTPL_BASE ≤ 2000 → (∀ n < 3, s.winActive n = false) → ∃ t : State,
      exec (.fontTplWrite d) s = .next (t.complete d stOK 0 []) ∧
        t.mem = s.mem.putBytes (s.tplAddr (dsArg d 0) + 16 * dsArg d 1) ((d.bytes.drop 0x30).take 16) ∧ t.regs = s.regs ∧ s.besides t)

/-- Font's events (R438 to R450), in Cell role: an armed start waits for its time; a tick due now checks the ports and charges VBST, one that finds
the last still under way is an overrun; the shots are fired where the window has room, and dropped else; a capture with no echo ends its shot;
an offloaded answer that comes, and one that does not; a result with no valid pair is not valid and keeps the flow, one whose times agree is a flow
of 0; a seal is appended at a whole multiple of its period. -/
def Obligations.FontEvents : Prop :=
  ∀ (s : State) (v : Word) (cu cd : Nat), s.role = .cell → s.awake = true →
    let room := s.on (fSBWCFG_EN 2) = true ∧ s.fld (fSBWDROP_DROPPED 2) = 0 ∧ 2 * s.fontLen ≤ s.winFree 2
    let none_ := s.on (fSBWCFG_EN 2) = false ∧ 0 < s.fld (fSBWDROP_DROPPED 2)
    (s.on fFONTCTL_EN = false → v.toNat / 65536 % 2 = 1 → ∃ t : State, exec (.fontArm .sacristy v) s = .next t ∧ t.on fFONTTH_ARM = true ∧
      t.fld fFONTTH_TIME = v.toNat % 65536 ∧ t.on fFONTTH_LATE = false ∧ t.font = s.font ∧ s.besidesAll t) ∧
    (s.on fFONTCTL_EN = true → v.toNat / 65536 % 2 = 1 →
      past (s.fld fFONTTL_TIME + v.toNat % 65536 * 2 ^ 32) s.now = false → ∃ t : State, exec (.fontArm .sacristy v) s = .next t ∧
        t.font.due = some (s.fld fFONTTL_TIME + v.toNat % 65536 * 2 ^ 32) ∧ t.on fFONTTH_LATE = false ∧ s.besidesAll t) ∧
    (s.font.due = none → exec (.fontTick cu cd false false) s = .next s) ∧
    (s.font.due = some s.now → s.on fFONTSTAT_RUN = true → s.font.phase = 0 → s.on fCLKSTAT_PLLLOCK = true → s.clk.spireHeld = false →
      s.font.fault = [0, 0] → s.font.badRun = [0, 0] → s.font.goodRun = [2, 2] → s.fld fFONTCAPW_CMIN ≤ cu → cu ≤ s.fld fFONTCAPW_CMAX →
      cd = cu → ∃ t : State, exec (.fontTick cu cd false false) s = .next t ∧ t.font.phase = 1 ∧ t.font.pair = 0 ∧
        t.font.due = some ((s.now + s.fontPeriod s.fontFlow) % 2 ^ 48) ∧ t.font.pairs = s.fld fFONTCTL_PAIRS + 1 ∧
        t.fld fFONTIMP_CAPU = cu ∧ t.on fFONTSTAT_ABSENT = false ∧ t.on fFONTSTAT_SHORT = false ∧ s.besidesAll t) ∧
    (s.font.due = some s.now → s.on fFONTSTAT_RUN = true → s.font.phase = 2 → s.rhocoUp = false → ∃ t : State,
      exec (.fontTick cu cd false false) s = .next t ∧ t.on fFONTFLAG_OVERRUN = true ∧ t.font.phase = 2 ∧ s.besides t) ∧
    (s.font.phase = 1 → room → ∃ t : State, exec .vbstReady s = .next t ∧ t.font.phase = 2 ∧ t.on fFONTSTAT_SHOT = true ∧
      t.fld (fSBWRES_RESERVED 2) = 2 * s.fontLen ∧ s.besidesAll t) ∧
    (s.font.phase = 1 → none_ → ∃ t : State, exec .vbstReady s = .next t ∧ t.font.phase = 3 ∧ t.font.up.cause = 1 ∧ t.font.up.ok = false ∧
      t.on (fDROP 2) = true ∧ s.besidesAll t) ∧
    (s.font.phase = 1 → s.rhocoUp = false → ∃ t : State, exec .vbstlow s = .next t ∧ t.font.phase = 0 ∧ t.on fFONTFLAG_VBSTLOW = true ∧
      t.on fFONTSTAT_SHOT = false ∧ s.besides t) ∧
    (s.font.phase = 3 → room → ∃ t : State, exec .fontShot s = .next t ∧ t.font.phase = 4 ∧ t.on fFONTSTAT_SHOT = true ∧
      t.fld (fSBWRES_RESERVED 2) = 2 * s.fontLen ∧ t.font.up = s.font.up ∧ s.besidesAll t) ∧
    (s.font.phase = 6 → room → ∃ t : State, exec .fontShot s = .next t ∧ t.font.phase = 2 ∧ s.besidesAll t) ∧
    (s.font.phase = 0 → exec .fontShot s = .next s ∧ exec (.fontCaptureEnd [] 0) s = .next s) ∧
    (s.font.phase = 2 → 0 < s.fld fFONTDET_THR → ∃ t : State, exec (.fontCaptureEnd (List.replicate s.fontLen 0) 0) s = .next t ∧
      t.font.phase = 3 ∧ t.font.up.cause = 2 ∧ t.font.up.ok = false ∧ t.on fFONTFLAG_NOECHO = true ∧ t.fld (fSBWRES_RESERVED 2) = 0 ∧
      t.on fFONTSTAT_SHOT = false ∧ s.besides t) ∧
    (s.font.up.awaits = true → s.font.phase = 3 → ∃ t : State, exec .fontOffloadDone s = .next t ∧ t.font.up.awaits = false ∧
      t.font.phase = 3 ∧ s.besidesAll t) ∧
    (s.font.up.awaits = true → s.font.phase = 5 → s.rhocoUp = false → ∃ t : State, exec .fontOffloadTimeout s = .next t ∧
      t.font.up.awaits = false ∧ t.font.up.ok = false ∧ t.font.up.cause = 6 ∧ t.on fFONTFLAG_OFFTMO = true ∧ s.besidesAll t) ∧
    (s.font.phase = 7 → s.font.nvalid = 0 → s.font.stopping = false → s.font.lastAt = none → s.on fFONTSTAT_EMPTY = false → ∃ t : State,
      exec .fontResult s = .next t ∧ t.font.phase = 0 ∧ t.on fFONTRESSTAT_VALID = false ∧ t.fld fFONTRESFLOW_FLOW = s.fld fFONTRESFLOW_FLOW ∧
        t.fld fFONTRESCOUNT_COUNT = (s.fld fFONTRESCOUNT_COUNT + 1) % 2 ^ 32 ∧ t.font.lastAt = some s.now ∧ s.besidesAll t) ∧
    (s.font.phase = 7 → s.font.nvalid = 1 → s.font.stopping = false → s.font.lastAt = none → s.on fFONTSTAT_EMPTY = false →
      s.on fSTRESP_METROBAD = false → s.font.sumDt2 = 0 → s.font.sumT2 = 200000000000 → s.fld fFONTDT0_DT0 = 0 → s.fld fFONTT0_T0 = 0 →
      s.fld fFONTGEOX_X ≠ 0 → s.on fFONTCTL_ADAPT = false → ∃ t : State, exec .fontResult s = .next t ∧ t.on fFONTRESSTAT_VALID = true ∧
        t.fld fFONTRESFLOW_FLOW = 0 ∧ t.fld fFONTRESDT_DT = 0 ∧ t.fld fFONTRESTMEAN_TMEAN = 100000000 ∧ t.font.lastOk = true ∧ s.besidesAll t) ∧
    (s.claimed 19 = true → s.fld fFONTSEAL_PERIOD = 1 → s.now % 32768 = 0 → s.fld fFONTRESGAPMS_GAPMS = 0 → s.on fSACSTAT_HELD = false →
      s.on fSACSTAT_SEALDEAD = false → s.sac.missed = 0 → s.sac.seq = 5 → s.sac.ack = 5 → ∃ t : State, exec .fontSeal s = .next t ∧
        t.sac.seq = 6 ∧ t.sac.ack = 5 ∧ t.sac.lastTag = (s.sealEntry 5 19 1 s.fontReading).drop 48 ∧ t.sac.valid = true) ∧
    (s.fld fFONTSEAL_PERIOD = 0 → exec .fontSeal s = .next s)

/-- The Choristers' registers (R500, R504, R508, R510, R512, R514): EN starts and stops engines, RESTART empties one, CLKSYNC restarts its divider; a
start is armed until its time; TX and RX carry words in order, a full TX overruns and an empty RX underruns; an injection waits, a second is
refused; a pad takes its new owner unless an engine that runs is concerned.
The Choristers' descriptors (Table 23.2), with nothing claimed and no engine running: an engine that does not exist is INVALID_FIELD; set-up,
program, start, stop, words, an injection, an action time and pads are stored, and CHOR_QUERY tells the engine's registers. -/
def Obligations.ChoristerRegistersAndDescriptors : Prop :=
  (∀ (s : State) (v : Word) (n : Nat), n < 8 → s.chor.eng.length = 8 → s.rootStopped = false →
    let e := s.che n
    (s.fld fCHSTAT_RUNNING = 0 → s.on fCHSTARTH_ARM = false → v.toNat = 2 ^ n → ∃ t : State, exec (.chctlEn .sacristy v) s = .next t ∧
      t.fld fCHSTAT_RUNNING = 2 ^ n ∧ t.fld fCHCTL_EN = 2 ^ n ∧ (t.che n).pc = e.pc ∧ (t.che n).acc = s.chDiv n - 256 ∧ s.besidesAll t) ∧
    (s.fld fCHSTAT_RUNNING = 2 ^ n → s.chor.touchEng = none → ∃ t : State, exec (.chctlEn .sacristy 0) s = .next t ∧
      t.fld fCHSTAT_RUNNING = 0 ∧ t.fld fCHCTL_EN = 0 ∧ (t.che n).pc = e.pc ∧ (t.che n).stall = none ∧ s.besidesAll t) ∧
    (s.fld fCHSTAT_RUNNING = 0 → s.fld fCHCTL_EN = 0 → ∃ t : State, exec (.chctlRestart .sacristy (2 ^ n)) s = .next t ∧ (t.che n).pc = 0 ∧
      (t.che n).osr = 0 ∧ (t.che n).isr = 0 ∧ (t.che n).ocnt = 32 ∧ (t.che n).icnt = 0 ∧ (t.che n).x = e.x ∧ (t.che n).y = e.y ∧
      (t.che n).tx = e.tx ∧ (t.che n).rx = e.rx ∧ t.fld fCHSTAT_RUNNING = 0 ∧ s.besidesAll t) ∧
    (s.fld fCHSTAT_RUNNING = 0 → s.fld fCHCTL_EN = 0 → ∃ t : State, exec (.chctlClksync .sacristy (2 ^ n)) s = .next t ∧
      (t.che n).acc = s.chDiv n - 256 ∧ (t.che n).pc = e.pc ∧ (t.che n).x = e.x ∧ s.besidesAll t) ∧
    (v.toNat / 2 ^ 16 % 2 = 1 → past (s.fld fCHSTARTL_TIME + v.toNat % 2 ^ 16 * 2 ^ 32) s.chor.act = false → ∃ t : State,
      exec (.chstartArm .sacristy v) s = .next t ∧ t.on fCHSTARTH_ARM = true ∧ t.on fCHSTARTH_LATE = false ∧
        t.fld fCHSTARTH_MASK = v.toNat / 2 ^ 24 ∧ t.fld fCHSTAT_RUNNING = s.fld fCHSTAT_RUNNING ∧ s.besidesAll t) ∧
    (e.tx.length < s.txCap n → ∃ t : State, exec (.chtxWrite .sacristy n v) s = .next t ∧ (t.che n).tx = e.tx ++ [v.toNat] ∧
      (t.che n).rx = e.rx ∧ t.fld (fCHLEVEL_TXN n) = (e.tx.length + 1) % 16 ∧ s.besidesAll t) ∧
    (s.txCap n ≤ e.tx.length → exec (.chtxWrite .sacristy n v) s = .next (s.raise [fCHFLAG_OVERRUN n])) ∧
    (∀ x r, e.rx = x :: r → ∃ t : State, exec (.chrxRead n) s = .next t ∧ (t.che n).rx = r ∧ (t.che n).tx = e.tx ∧
      t.out = .reply (rCHRX n) (leBytes 4 x) :: s.out ∧ s.besides t) ∧
    (e.rx = [] → exec (.chrxRead n) s = .next ((s.raise [fCHFLAG_UNDERRUN n]).emit (.reply (rCHRX n) (leBytes 4 0)))) ∧
    (e.inj = none → ∃ t : State, exec (.chinjWrite .sacristy n v) s = .next t ∧ (t.che n).inj = some (v.toNat % 2 ^ 16) ∧
      (t.che n).pc = e.pc ∧ (t.fld fCHSTAT_INJPEND).testBit n = true ∧ s.besidesAll t) ∧
    (e.inj.isSome = true → exec (.chinjWrite .sacristy n v) s = .next (s.raise [fCHFLAG_INJBUSY n])) ∧
    (s.fld fCHSTAT_RUNNING = 0 → ∃ t : State, exec (.chpadownWrite .sacristy (n / 4) v) s = .next t ∧
      t.fld (fCHPADOWN_OWN (n / 4)) = v.toNat ∧ s.besidesAll t) ∧
    (s.fld fCHSTAT_RUNNING = 2 ^ n → s.fld (fCHPADOWN_OWN 0) = 0xFFFFFFFF → v.toNat = 0xFFFFFFF0 + n → ∃ t : State,
      exec (.chpadownWrite .sacristy 0 v) s = .next t ∧ t.fld (fCHPADOWN_OWN 0) = 0xFFFFFFFF ∧ t.on (fCHFLAG_PADBUSY n) = true ∧
        s.besidesAll t)) ∧
  (∀ (s : State) (d : Desc), s.ready d = true → s.fld fSACCLAIM_CLAIM = 0 → s.chor.eng.length = 8 → s.rootStopped = false →
    s.fld fCHSTAT_RUNNING = 0 → s.on fCHSTARTH_ARM = false → dsArg d 0 < 8 →
    let n := dsArg d 0
    let e := s.che n
    let k := dsArg d 1
    (∃ t : State, exec (.chorSetup d) s = .next (t.complete d stOK 0 []) ∧ t.fld (fCHDIV_INT n) = dsArgs d 4 4 / 256 % 65536 ∧
      t.fld (fCHCFG_WRAPTOP n) = dsArgs d 8 4 / 256 % 32 ∧ t.fld (fCHSHIFT_PULLTHR n) = dsArgs d 12 4 / 256 % 32 ∧
      t.fld (fCHPIN_OUTBASE n) = dsArgs d 16 4 % 16 ∧ s.besidesAll t) ∧
    (k < 32 → dsArg d 2 = 1 → ∃ t : State, exec (.chorLoad d) s = .next (t.complete d stOK 0 []) ∧ t.chWord n k = dsArgs d 8 2 ∧
      s.besidesAll t) ∧
    (32 < k + dsArg d 2 → exec (.chorLoad d) s = .next (s.complete d stINVALID 0 [])) ∧
    (k = 0 → ∃ t : State, exec (.chorStart d) s = .next (t.complete d stOK 0 []) ∧
      t.fld fCHSTAT_RUNNING = s.fld fCHCTL_EN ||| n ∧ s.besidesAll t) ∧
    (s.fld fCHCTL_EN = 0 → ∃ t : State, exec (.chorStop d) s = .next (t.complete d stOK 0 []) ∧ t.fld fCHCTL_EN = 0 ∧
      t.fld fCHSTAT_RUNNING = 0 ∧ s.besidesAll t) ∧
    (k = 1 → e.tx = [] → s.fld (fCHCFG_JOIN n) = 0 → ∃ t : State, exec (.chorPut d) s = .next (t.complete d stOK 1 []) ∧
      (t.che n).tx = [dsArgs d 8 4] ∧ s.besidesAll t) ∧
    (k = 1 → e.tx.length = 4 → s.fld (fCHCFG_JOIN n) = 0 → ∃ t : State, exec (.chorPut d) s = .next (t.complete d 0x70 0 []) ∧
      (t.che n).tx = e.tx ∧ s.besidesAll t) ∧
    (k = 0 → exec (.chorPut d) s = .next (s.complete d stINVALID 0 []) ∧ exec (.chorGet d) s = .next (s.complete d stINVALID 0 [])) ∧
    (∀ x, k = 1 → e.rx = [x] → ∃ t : State, exec (.chorGet d) s = .next (t.complete d stOK 1 (leBytes 4 x)) ∧ (t.che n).rx = [] ∧
      s.besidesAll t) ∧
    (chReserved (dsArgs d 2 2) = true → exec (.chorInject d) s = .next (s.complete d stINVALID 0 [])) ∧
    (chReserved (dsArgs d 2 2) = false → e.inj = none → ∃ t : State, exec (.chorInject d) s = .next (t.complete d stOK 0 []) ∧
      (t.che n).inj = some (dsArgs d 2 2) ∧ s.besidesAll t) ∧
    (e.stall = none → ∃ t : State, exec (.chorAt d) s = .next (t.complete d stOK 0 []) ∧
      t.chAt n = dsArgs d 2 4 + 2 ^ 32 * dsArgs d 6 2 ∧ s.besidesAll t) ∧
    (∃ t : State, exec (.chorPads d) s = .next (t.complete d stOK 0 []) ∧ t.fld (fCHPADOWN_OWN 0) = dsArgs d 0 4 ∧
      t.fld (fCHPADOWN_OWN 1) = dsArgs d 4 4 ∧ t.fld fCHSWOUT_LEVEL = dsArgs d 8 2 ∧ t.fld fCHSWOE_OE = dsArgs d 12 2 ∧ s.besidesAll t) ∧
    (∃ t : State, exec (.chorQuery d) s = .next (t.complete d stOK 0 (leBytes 4 (s.reg rCHSTAT).toNat ++ leBytes 4 (s.reg rCHIRQ).toNat ++
      leBytes 4 s.chor.act ++ leBytes 4 (s.chor.act / 2 ^ 32 + b2n (s.on fCLKSEL_ROOT && s.on fCLKSTAT_PLLLOCK) * 2 ^ 16) ++
      ([rCHSTALL n, rCHFLAG n, rCHLEVEL n, rCHLATE n].map (fun a => leBytes 4 (s.reg a).toNat)).flatten)) ∧ t.regs = s.regs ∧ s.besidesAll t))

/-- An engine that alone runs and is due executes the instruction at its PC (R500, R505 to R507, R509, R510, R519): SET X, JMP, a PULL of a word, a
PUSH of ISR, an IRQ flag, a WAIT TIME that stalls; a reserved encoding stops it; an armed start comes due; a stall that lasts is told once. -/
def Obligations.ChoristerSteps : Prop :=
  ∀ (s : State) (n g : Nat) (w : Nat), n < 8 → s.chor.eng.length = 8 → s.rootStopped = false → g < 2 ^ 16 →
    let e := s.che n
    let due := s.fld fCHSTAT_RUNNING = 2 ^ n ∧ s.chDiv n ≤ e.acc + 256 ∧ e.delay = 0 ∧ e.inj = none ∧ e.stall = none ∧ e.susp = none ∧
      s.chor.still = 0 ∧ e.pc < 31 ∧ e.pc ≠ s.fld (fCHCFG_WRAPTOP n) ∧ s.chWord n e.pc = w
    let on_ := fun (t : State) => t.chor.act = (s.chor.act + 1) % 2 ^ 48 ∧ t.pads.level = g ∧ t.fld fCHSTAT_RUNNING = 2 ^ n ∧ s.besidesAll t
    let ran := fun (t : State) => on_ t ∧ (t.che n).pc = e.pc + 1 ∧ (t.che n).stall = none
    (due → 0xE020 ≤ w → w ≤ 0xE03F → ∃ t : State, exec (.chorStep n 1 g false) s = .next t ∧ ran t ∧ (t.che n).x = w % 32 ∧
      (t.che n).y = e.y ∧ (t.che n).tx = e.tx ∧ (t.che n).rx = e.rx) ∧
    (due → w < 32 → ∃ t : State, exec (.chorStep n 1 g false) s = .next t ∧ on_ t ∧ (t.che n).pc = w ∧ (t.che n).x = e.x) ∧
    (due → w = 0x8080 → ∀ x r, e.tx = x :: r → ∃ t : State, exec (.chorStep n 1 g false) s = .next t ∧ ran t ∧ (t.che n).osr = x ∧
      (t.che n).ocnt = 0 ∧ (t.che n).tx = r) ∧
    (due → w = 0x8080 → e.tx = [] → ∃ t : State, exec (.chorStep n 1 g false) s = .next t ∧ on_ t ∧ (t.che n).pc = e.pc ∧
      ((t.che n).stall.map (fun c => c.kind)) = some 1 ∧ (t.fld fCHSTAT_STALLED).testBit n = true) ∧
    (due → w = 0x8000 → e.rx.length < s.rxCap n → ∃ t : State, exec (.chorStep n 1 g false) s = .next t ∧ ran t ∧
      (t.che n).rx = e.rx ++ [e.isr] ∧ (t.che n).isr = 0 ∧ (t.che n).icnt = 0) ∧
    (due → w = 0xC003 → ∃ t : State, exec (.chorStep n 1 g false) s = .next t ∧ ran t ∧ (t.fld fCHIRQ_FLAG).testBit 3 = true) ∧
    (due → w = 0xFFFF → s.chor.touchEng = none → s.rhocoUp = false → ∃ t : State, exec (.chorStep n 1 g false) s = .next t ∧
      t.on (fCHFLAG_BADOP n) = true ∧ t.fld fCHSTAT_RUNNING = 0 ∧ (t.che n).pc = e.pc ∧ s.besidesAll t) ∧
    (s.fld fCHSTAT_RUNNING = 0 → s.chor.still = 0 → s.on fCHSTARTH_ARM = true → s.fld fCHSTARTH_MASK = 2 ^ n → s.chor.act < 2 ^ 48 - 1 →
      s.fld fCHSTARTL_TIME + s.fld fCHSTARTH_TIME * 2 ^ 32 = s.chor.act + 1 → ∃ t : State, exec (.armedStart 1) s = .next t ∧
        t.fld fCHSTAT_RUNNING = 2 ^ n ∧ t.on fCHSTARTH_ARM = false ∧ t.chor.act = s.chor.act + 1 ∧ (t.che n).acc = s.chDiv n ∧ s.besidesAll t) ∧
    (s.on fCHSTARTH_ARM = false → exec (.armedStart 1) s = .next s) ∧
    (e.stall.isSome = true → s.chRuns n = true → s.on (fCHCNT_STALLTMO n) = true → e.posted = false → s.rhocoUp = false → ∃ t : State,
      exec (.chorStallTimeout n) s = .next t ∧ t.on (fCHFLAG_STALLTMO n) = true ∧ (t.che n).posted = true ∧ (t.che n).pc = e.pc ∧ s.besidesAll t) ∧
    (e.stall = none → exec (.chorStallTimeout n) s = .next s)

/-- Cantoris (R271, R272, R274), in RUN: power brings it to POWERING and then STOPPED, its state gone; RUN starts it at CANTENTRY in Nave supervisor,
unless the tokens refuse; RUN = 0 stops it with its state kept; no power is OFF; DONE hands CANTXRES0 to 3 to it. -/
def Obligations.CantorisPower : Prop :=
  ∀ s : State, s.awake = true →
    let st := s.fld fCANTSTAT_STATE
    let same := fun (t : State) => t.role = s.role ∧ t.dec = s.dec ∧ t.mem = s.mem ∧ t.pending = s.pending
    (st = 0 → s.on fCANTCTL_RUN = false → ∃ t : State, exec (.cantorisPowerOn .sacristy) s = .next t ∧ t.fld fCANTSTAT_STATE = 1 ∧
      t.on fCANTCTL_PWR = true ∧ t.cant = Core.off ∧ same t) ∧
    (st = 1 → s.on fCANTCTL_RUN = false → ∃ t : State, exec .cantorisPowered s = .next t ∧ t.fld fCANTSTAT_STATE = 2 ∧ t.cant.fresh = true ∧
      t.cant.dc = [] ∧ t.cant.ic = [] ∧ t.cant.tiles = List.replicate 8 Tile.dead ∧ same t) ∧
    (st ≠ 1 → exec .cantorisPowered s = .next s) ∧
    (st = 2 → s.on fCANTCTL_PWR = true → s.cant.fresh = true → s.cant.waiting = false → s.tokensRefuse (s.needNow + 3) = false → ∃ t : State,
      exec (.cantorisRun .sacristy) s = .next t ∧ t.fld fCANTSTAT_STATE = 3 ∧ t.cant.pc = s.reg rCANTENTRY &&& 0xFFFFFFFE ∧ t.cant.psr = 1 ∧
        t.cant.vbase = s.cant.vbase.set 0 (s.reg rCANTVBASE &&& 0xFFFFFFE0) ∧ t.cant.fresh = false ∧ same t) ∧
    (st = 2 → s.on fCANTCTL_PWR = true → s.cant.fresh = false → s.cant.waiting = false → s.tokensRefuse (s.needNow + 3) = false → ∃ t : State,
      exec (.cantorisRun .sacristy) s = .next t ∧ t.fld fCANTSTAT_STATE = 3 ∧ t.cant = s.cant ∧ same t) ∧
    (st = 2 → s.on fCANTCTL_PWR = true → s.tokensRefuse (s.needNow + 3) = true → ∃ t : State, exec (.cantorisRun .sacristy) s = .next t ∧
      t.on fPWRFLAG_REFUSED = true ∧ t.fld fCANTSTAT_STATE = 2 ∧ t.cant = s.cant ∧ same t) ∧
    (st = 3 → s.on fCANTCTL_PWR = true → ∃ t : State, exec (.cantorisStop .sacristy) s = .next t ∧ t.fld fCANTSTAT_STATE = 2 ∧
      t.on fCANTCTL_RUN = false ∧ t.cant = s.cant ∧ same t) ∧
    (st ≠ 0 → s.on fCANTCTL_RUN = false → s.cant.sbuf = [] → s.cant.dc = [] → ∃ t : State, exec (.cantorisPowerOff .sacristy) s = .next t ∧
      t.fld fCANTSTAT_STATE = 0 ∧ t.on fCANTCTL_PWR = false ∧ t.cant = Core.off ∧ same t) ∧
    (st = 5 → s.on fCANTCTL_RUN = true → s.pwr.shedXcall = false → s.cant.gpr.length = 16 → ∃ t : State,
      exec (.cantxctlDone .sacristy) s = .next t ∧ t.fld fCANTSTAT_STATE = 3 ∧
        (∀ n < 4, t.cant.gpr.getD n 0 = s.reg (rCANTXRES n)) ∧ (∀ n < 16, 4 ≤ n → t.cant.gpr.getD n 0 = s.cant.gpr.getD n 0) ∧
        t.cant.pc = s.cant.pc ∧ same t) ∧
    (st = 3 → exec (.cantxctlDone .sacristy) s = .next s)

/-- A self-test slice (R538 to R549), with the pace's alarm armed and no descriptor waiting for it: GO makes it wait; its start, skipped where VCORE
or the Spire fails; its signature right, a retry, or a confirmed failure and its response; abandoned for a failed precondition; skipped after 1 s
of waiting; its counts copied.
The descriptors of self-test (R546, R547, R550): ST_RUN of a slice waits for its end, is BUSY while one is under way and NOT_IN_ROLE for one that
does not apply; the pace is stored; the cursor, the results and their clearing. -/
def Obligations.SelfTest : Prop :=
  (∀ (s : State) (n : Fin 64) (g : Word), s.on (fWAKEALMH_ARM 2) = true → s.st.req = none → s.st.heldWr = [] →
    let plain := n.val = 14 ∨ n.val = 29 ∨ n.val = 63
    let good := s.on fPWRSRC_VCOREOK = true ∧ s.on fCLKSTAT_PLLLOCK = true
    let waits := s.st.running = false ∧ s.st.cur = some n.val
    let runs := s.st.running = true ∧ s.st.cur = some n.val
    let idle := fun (t : State) => t.on fSTSTAT_BUSY = false ∧ t.st.cur = none ∧ t.st.running = false
    (s.on fSTSTAT_BUSY = false → s.sliceApplies n.val = true → ∃ t : State, exec (.stctlGo .sacristy n) s = .next t ∧
      t.on fSTSTAT_BUSY = true ∧ t.fld fSTSTAT_PHASE = 0 ∧ t.st.cur = some n.val ∧ t.st.running = false ∧ s.besidesAll t) ∧
    (s.on fSTSTAT_BUSY = true → ∃ t : State, exec (.stctlGo .sacristy n) s = .next t ∧ t.st = s.st ∧ s.besidesAll t) ∧
    (waits → plain → good → ∃ t : State, exec .sliceStart s = .next t ∧ t.st.running = true ∧ t.fld fSTSTAT_PHASE = 3 ∧
      t.st.cur = some n.val ∧ s.besidesAll t) ∧
    (waits → plain → s.on fPWRSRC_VCOREOK = false → s.st.skips = 0 → ∃ t : State, exec .sliceStart s = .next t ∧ t.fld fSTSTAT_LAST = 3 ∧
      t.fld fSTSTAT_SKIPWHY = 1 ∧ t.on fSTFLAG_SKIP = true ∧ idle t ∧ s.besidesAll t) ∧
    (s.st.cur = none → exec .sliceStart s = .next s ∧ exec .sliceWaitTimeout s = .next s ∧ exec (.sliceCompare g false) s = .next s ∧
      exec (.sliceAbandon false) s = .next s) ∧
    (runs → plain → s.fld fSTSTAT_RETRIES = 0 → g.toNat = s.mem.word (0x3FF00 + 4 * n.val) → ∃ t : State,
      exec (.sliceCompare g false) s = .next t ∧ t.fld fSTSTAT_LAST = 1 ∧ t.on fSTFLAG_PASS = true ∧ t.fld fSTSIG_SIG = g.toNat ∧ idle t ∧
        s.besidesAll t) ∧
    (runs → plain → s.fld fSTSTAT_RETRIES < 3 → g.toNat ≠ s.mem.word (0x3FF00 + 4 * n.val) → ∃ t : State,
      exec (.sliceCompare g false) s = .next t ∧ t.fld fSTSTAT_RETRIES = s.fld fSTSTAT_RETRIES + 1 ∧ t.fld fSTSTAT_PHASE = 0 ∧
        t.st.cur = some n.val ∧ t.st.running = false ∧ s.besidesAll t) ∧
    (runs → n.val = 63 → s.fld fSTSTAT_RETRIES = 3 → g.toNat ≠ s.mem.word (0x3FF00 + 4 * 63) → s.rhocoUp = false → ∃ t : State,
      exec (.sliceCompare g false) s = .next t ∧ t.fld fSTSTAT_LAST = 2 ∧ t.on fSTFLAG_CONFIRMED = true ∧ t.on fSTRESP_CTRLBAD = true ∧
        idle t ∧ s.besides t) ∧
    (runs → plain → good → exec (.sliceAbandon false) s = .next s) ∧
    (runs → plain → s.on fCLKSTAT_PLLLOCK = false → ∃ t : State, exec (.sliceAbandon false) s = .next t ∧ t.fld fSTSTAT_LAST = 3 ∧
      t.on fSTFLAG_ABANDON = true ∧ t.st.skips = 0 ∧ idle t ∧ s.besidesAll t) ∧
    (waits → s.st.skips = 0 → ∃ t : State, exec .sliceWaitTimeout s = .next t ∧ t.fld fSTSTAT_LAST = 3 ∧ t.fld fSTSTAT_SKIPWHY = 3 ∧
      idle t ∧ s.besidesAll t) ∧
    (s.rhocoUp = true → s.rst.booted = true → ∃ t : State, exec .stCountCopy s = .next t ∧ t.st.copied = s.st.counts ∧
      t.st.counts = s.st.counts ∧ t.regs = s.regs ∧ s.besides t)) ∧
  (∀ (s : State) (d : Desc), s.ready d = true →
    exec (.stQuery d) s = .next (s.complete d stOK (s.reg rSTRESP).toNat
      (leBytes 4 (s.reg rSTSTAT).toNat ++ leBytes 4 (s.reg rSTRESP).toNat ++ leBytes 4 s.st.cursor)) ∧
    (0 < dsArgs d 0 2 → dsArgs d 0 2 ≤ 3600 → s.cfgBusy = false → ∃ t : State, exec (.stPace d) s = .next (t.complete d stOK 0 []) ∧
      t.st.pace = dsArgs d 0 2 ∧ t.regs = s.regs ∧ s.besides t) ∧
    (dsArgs d 0 2 = 0 → exec (.stPace d) s = .next (s.complete d stINVALID 0 [])) ∧
    (s.st.cur = none → dsArg d 0 < 64 → s.sliceApplies (dsArg d 0) = true → ∃ t : State, exec (.stRun d) s = .next t ∧
      t.st.req = some d ∧ t.st.cur = some (dsArg d 0) ∧ t.on fSTSTAT_BUSY = true ∧ t.st.todo = [] ∧ s.besidesAll t) ∧
    (s.st.cur = none → dsArg d 0 = 0xFF → ∃ t : State, exec (.stRun d) s = .next t ∧ t.st.req = some d ∧ t.st.cur = some 0 ∧ s.besidesAll t) ∧
    (s.st.cur = none → dsArg d 0 < 64 → s.sliceApplies (dsArg d 0) = false → exec (.stRun d) s = .next (s.complete d stNOTROLE 0 [])) ∧
    (s.st.cur.isSome = true → exec (.stRun d) s = .next (s.complete d stBUSY 0 [])) ∧
    exec (.stResults d) s = .next (s.complete d stOK 0 (((List.range 64).map s.st.countBytes).flatten)) ∧
    exec (.stClear d) s = .next (({ s with st := { s.st with counts := [] } }).complete d stOK 0 []))

/-- Host-link resets (R118, R156, R222 to R224, R227 to R229): PERST, a hot reset, DL_Down, the loss of REFCLK or of VPHY while the link is up leave
it down, its rings and descriptors gone, every tag free, its configuration registers at reset values, kind 9 in HIST, and host memory untouched; a
function-level reset leaves the link up.
The link and what the host does over it (R214 to R221, R227 to R230, R254), in Chapter role with no ring enabled: training, L1, errors and power
states; configuration requests are retried until CFGRDY; the MSI-X table and the ring table's address are written through BAR0 and read back; a
pending vector is sent once it can be; a core's read of the window gets its answer. -/
def Obligations.HostLink : Prop :=
  (∀ s : State, s.role = .chapter → s.on fHLSTAT_LINKUP = true → s.hl.winAsk = none →
    let reset := fun (t : State) => t.scr.rings = [] ∧ t.scr.held = [] ∧ t.hl.bme = false ∧ t.hl.msixEn = false ∧ t.hl.vecs = [] ∧
      t.fld fTAGSTAT_FREE = 1024 ∧ t.on fHLSTAT_D3 = false ∧ t.on fHLCTL_CFGRDY = s.on fHLCTL_CFGRDY ∧ (t.fld fRSTCAUSE_HIST).testBit 9 = true ∧
      t.role = s.role ∧ t.dec = s.dec ∧ t.cant = s.cant ∧ t.mem = s.mem ∧ t.node = s.node ∧ t.out = s.out ∧ t.pending = s.pending
    (∃ t : State, exec .perst s = .next t ∧ reset t ∧ t.on fHLSTAT_LINKUP = false ∧ t.on fHLFLAG_PERST = true ∧ t.hl.perstLow = true) ∧
    (∃ t : State, exec .hotReset s = .next t ∧ reset t ∧ t.on fHLSTAT_LINKUP = false ∧ t.on fHLFLAG_HOTRST = true) ∧
    (∃ t : State, exec .functionLevelReset s = .next t ∧ reset t ∧ t.on fHLSTAT_LINKUP = true ∧ t.on fHLFLAG_FLR = true) ∧
    (∃ t : State, exec .dlDown s = .next t ∧ reset t ∧ t.on fHLSTAT_LINKUP = false ∧ t.on fHLFLAG_LINKDOWN = true) ∧
    (∃ t : State, exec .refclkLoss s = .next t ∧ reset t ∧ t.on fHLSTAT_LINKUP = false ∧ t.on fHLFLAG_REFLOST = true ∧
      t.on fHLSTAT_REFOK = false ∧ t.hl.refLock = false) ∧
    (∃ t : State, exec .vphyLost s = .next t ∧ reset t ∧ t.on fHLSTAT_LINKUP = false ∧ t.hl.vphyGood = false)) ∧
  (∀ (s : State) (v : Fin 64) (w l : Nat) (bs : List Byte), s.role = .chapter → s.scr.rings = [] → s.scr.held = [] → s.scr.recq = [] →
    s.scr.fences = [] → w < 2 ^ 32 → s.hl.vecs.length = 64 →
    let up := s.on fHLSTAT_LINKUP = true
    let down := s.on fHLSTAT_LINKUP = false
    exec .perstRise s = .next { s with hl := { s.hl with perstLow := false }, pads := { s.pads with pwakeLow := false } } ∧
    (∃ t : State, exec .refclkLock s = .next t ∧ t.on fHLSTAT_REFOK = true ∧ t.hl.refLock = true ∧ s.besides t) ∧
    exec .vphyGood s = .next { s with hl := { s.hl with vphyGood := true } } ∧
    (down → s.hl.perstLow = false → s.hl.vphyGood = true → s.hl.refLock = true → ∃ t : State, exec (.linkUp true) s = .next t ∧
      t.on fHLSTAT_LINKUP = true ∧ t.on fHLSTAT_GEN2 = true ∧ t.fld fHLSTAT_LPM = 0 ∧ t.hl = s.hl ∧ s.besides t) ∧
    (s.hl.vphyGood = false → exec (.linkUp true) s = .next s) ∧
    (down → s.hl.perstLow = false → s.hl.refLock = true → exec .trainfail s = .next (s.raise [fHLFLAG_TRAINFAIL])) ∧
    (up → exec .linkRetrain s = .next (s.count fHLCNT_RETRAIN)) ∧
    (up → exec (.linkL1 2) s = .next (s.setFld fHLSTAT_LPM 2)) ∧
    (∃ t : State, exec (.linkError true l) s = .next t ∧ t.on fHLFLAG_AERUNC = true ∧ (s.hl.aer = [] → t.hl.aer = [l]) ∧
      (s.hl.aer ≠ [] → t.hl.aer = s.hl.aer) ∧ s.besides t) ∧
    (up → exec .d3hotEntry s = .next (s.setFld fHLSTAT_D3 1)) ∧
    (up → s.hl.pmeEn = true → s.hl.pmeStatus = true → ∃ t : State, exec .pmeTurnOff s = .next t ∧ t.fld fHLSTAT_LPM = 3 ∧
      t.pads.pwakeLow = true ∧ t.hl.readyL23 = true ∧ s.besides t) ∧
    (up → s.on fHLCTL_CFGRDY = false → exec (.configRequest (.read 0)) s = .next (s.emit .cfgRetry)) ∧
    (up → s.on fHLCTL_CFGRDY = true → ∃ t : State, exec (.configRequest (.read 0)) s = .next t ∧
      t.out = .cfgReply 0x74201F5C :: s.out ∧ t.hl = s.hl ∧ t.regs = s.regs ∧ s.besides t) ∧
    (up → s.on fHLCTL_CFGRDY = true → ∃ t : State, exec (.configRequest (.command true true)) s = .next t ∧ t.hl.bme = true ∧ t.regs = s.regs ∧
      t.out = s.out ∧ s.besides t) ∧
    (up → exec (.bar0Access 2 4 none) s = .next (s.emit .unsupported) ∧ exec (.bar0Access 0 16 none) s = .next (s.emit .unsupported)) ∧
    (up → exec (.bar0Access 0x1000 4 none) s = .next (s.emit (.reply 0x1000 (leBytes 4 (s.reg 0x4000D000).toNat)))) ∧
    (up → ∃ t : State, exec (.bar0Access (0xE000 + 16 * v.val) 4 (some (leBytes 4 w))) s = .next t ∧
      (t.vecAt v.val).addr % 2 ^ 32 = w ∧ (t.vecAt v.val).data = (s.vecAt v.val).data ∧ (t.vecAt v.val).mask = (s.vecAt v.val).mask ∧
      t.regs = s.regs ∧ t.out = s.out ∧ s.besides t) ∧
    (up → ∃ t : State, exec (.bar0Access (0x1000 + (rSCRTBASEL - 0x4000D000)) 4 (some (leBytes 4 w))) s = .next t ∧
      t.fld fSCRTBASEL_BASE = w / 2 ^ 12 ∧ t.hl = s.hl ∧ t.out = s.out ∧ s.besides t) ∧
    (s.hl.pba = [v.val] → s.vecReady v.val = true → ∃ t : State, exec (.msixRelease v) s = .next t ∧ t.hl.pba = [] ∧
      t.out = .msix (s.vecAt v.val).addr (s.vecAt v.val).data :: s.out ∧ t.regs = s.regs ∧ s.besides t) ∧
    (s.hl.pba = [] → exec (.msixRelease v) s = .next s) ∧
    (s.hl.winAsk = some (.decani, l) → s.hl.winAns = none → exec (.windowReadDone (some bs)) s =
      .next { s with hl := { s.hl with winAsk := none, winAns := some (.decani, l, some bs) } }) ∧
    (s.hl.winAsk = some (.decani, l) → ∃ t : State, exec (.windowReadDone none) s = .next t ∧ t.hl.winAns = some (.decani, l, none) ∧
      t.on fHLFLAG_WINERR = true ∧ t.fld fHLWERR_OFFSET = l % 0x10000000 ∧ t.on fHLWERR_WRITE = false ∧ s.besides t) ∧
    (s.hl.winAsk = none → exec (.windowReadDone none) s = .next s))

/-- The services of Table 6.5 called on Decani (R126, R276): the status comes back in w0 and the figures in w1 to w3, w4 to w15 and the PC stay.
A descriptor the office does not answer in its time completes BUSY (R275). -/
def Obligations.RhocoServices : Prop :=
  ∀ (s : State) (c : Caller) (regions : List (Nat × Word)), c.core = .decani → s.rhocoUp = true → s.on fBOOTSTAT_RECOV = false →
    s.dec.gpr.length = 16 → s.awake = true →
    let g := fun n => (s.dec.gpr.getD n 0).toNat
    let kept := fun (t : State) => (∀ n < 16, 4 ≤ n → t.dec.gpr.getD n 0 = s.dec.gpr.getD n 0) ∧ t.dec.pc = s.dec.pc ∧ t.cant = s.cant ∧
      t.pending = s.pending ∧ t.role = s.role
    let gives := fun (t : State) (st : Nat) => t.dec.gpr.getD 0 0 = BitVec.ofNat 32 st ∧ kept t
    let fig := fun (t : State) (n v : Nat) => t.dec.gpr.getD n 0 = BitVec.ofNat 32 v
    (∃ t : State, exec (.rhoInfo c) s = .next t ∧ gives t 0 ∧ fig t 1 Config.rhocoVersion.toNat ∧ fig t 2 s.sysid ∧ t.regs = s.regs ∧
      t.mem = s.mem) ∧
    (inMram (g 0) (g 2) = false → ∃ t : State, exec (.mramWrite c) s = .next t ∧ gives t 2 ∧ t.mem = s.mem) ∧
    (inMram (g 0) 4 = true → g 0 % 4 = 0 → g 2 = 4 → s.svMay c .w (g 0) 4 = true → s.svMay c .r (g 1) 4 = true →
      s.inRunningSlot (g 0) 4 = false → s.dec.dc = [] → s.cant.dc = [] → s.descCache = [] → ∃ t : State, exec (.mramWrite c) s = .next t ∧
        gives t 0 ∧ t.mem.bytes (g 0) 4 = s.mem.bytes (g 1) 4) ∧
    (g 2 = 0 → ∃ t : State, exec (.logAppend c) s = .next t ∧ gives t 1 ∧ t.rst = s.rst) ∧
    (0 < g 2 → g 2 ≤ 64 → s.svMay c .r (g 1) (g 2) = true → ∃ t : State, exec (.logAppend c) s = .next t ∧ gives t 0 ∧
      t.rst.logs = (g 0, s.coherentBytes (g 1) (g 2)) :: s.rst.logs) ∧
    (s.on fCLKSTAT_PLLLOCK = false → ∃ t : State, exec (.timeNow c) s = .next t ∧ gives t 0 ∧ fig t 1 (s.now % 2 ^ 32) ∧
      fig t 2 (s.now / 2 ^ 32) ∧ fig t 3 0 ∧ t.regs = s.regs ∧ t.mem = s.mem) ∧
    (2 ^ 16 ≤ g 1 → ∃ t : State, exec (.alarmAt c) s = .next t ∧ gives t 1 ∧ t.regs = s.regs) ∧
    (g 1 < 2 ^ 16 → ∃ t : State, exec (.alarmAt c) s = .next t ∧ gives t 0 ∧ t.on (fWAKEALMH_ARM 0) = true ∧
      t.fld (fWAKEALML_TIME 0) = g 0 ∧ t.fld (fWAKEALMH_TIME 0) = g 1 ∧
      fig t 1 (b2n (past (g 0 + 2 ^ 32 * g 1) s.now)) ∧ t.mem = s.mem) ∧
    (g 0 = 1 → s.fld fWAKESRC_SRC = 0 → s.dec.deaf = true → ∃ t : State, exec (.sleepService c) s = .next t ∧ gives t 0 ∧
      t.fld fPWRCTL_STATE = 1 ∧ t.slp.st = .doze ∧ t.dec.waiting = true ∧ t.mem = s.mem) ∧
    (s.role = .crossing → g 0 ≤ 24 → ∃ t : State, exec (.tokens c) s = .next t ∧
      gives t (if s.fld fPWRTOK_GRANT < g 0 then 4 else 0) ∧ fig t 1 (s.fld fPWRTOK_GRANT) ∧ t.node = s.node) ∧
    (s.role = .cell → s.node.joined = true → g 0 ≤ 24 → g 0 ≠ s.fld fPWRTOK_GRANT → s.rst.tokWait = none → ∃ t : State,
      exec (.tokens c) s = .next t ∧ t.rst.tokWait = some (c, g 0) ∧ t.node.wanted = g 0 ∧ t.node.tokDue = true ∧ t.dec = s.dec ∧
        t.regs = s.regs) ∧
    (s.svMay c .r (g 0) 16 = false → ∃ t : State, exec (.eventPost c) s = .next t ∧ gives t 2 ∧ t.node = s.node ∧ t.scr = s.scr) ∧
    (s.role ≠ .chapter → s.svMay c .r (g 0) 16 = true → ∃ t : State, exec (.eventPost c) s = .next t ∧ gives t 0 ∧
      (t.node.up.map (fun x => x.f.payload)) = (s.node.up.map (fun x => x.f.payload)) ++ [s.coherentBytes (g 0) 16]) ∧
    (s.fld fSACCLAIM_CLAIM = 0 → ∃ t : State, exec (.resetService c) s = .next t ∧ t.fld fRSTCAUSE_LAST = 6 ∧ t.rst.hold = true ∧
      t.role = s.role ∧ t.pending = s.pending) ∧
    (g 0 = 0 → s.on fOFFSTAT_RUNNING = true → ∃ t : State, exec (.officeCtlStart c regions) s = .next t ∧ gives t 3 ∧ t.regs = s.regs) ∧
    (g 0 = 0 → s.on fOFFSTAT_RUNNING = false → 8 ≤ g 1 → ∃ t : State, exec (.officeCtlStart c regions) s = .next t ∧ gives t 1 ∧
      t.regs = s.regs) ∧
    (g 0 = 0 → s.on fOFFSTAT_RUNNING = false → g 1 < 8 → s.imgCheck (g 1) = stOK → s.cantRefused = false → ∃ t : State,
      exec (.officeCtlStart c regions) s = .next t ∧ t.dec.gpr.getD 0 0 = 0 ∧ t.on fOFFSTAT_RUNNING = true ∧ t.fld fOFFSTAT_SLOT = g 1) ∧
    (g 0 = 1 → s.on fOFFSTAT_RUNNING = true → s.fld fSACCLAIM_CLAIM = 0 → s.fld fCANTSTAT_STATE = 3 → s.cant.sbuf = [] → s.cant.dc = [] →
      s.rst.offDesc = none → ∃ t : State, exec (.officeCtlStop c) s = .next t ∧ t.dec.gpr.getD 0 0 = 0 ∧ t.on fOFFSTAT_RUNNING = false ∧
        t.fld fCANTSTAT_STATE = 0 ∧ t.on fCANTCTL_RUN = false ∧ t.on fCANTCTL_PWR = false) ∧
    (g 0 = 1 → s.on fOFFSTAT_RUNNING = false → ∃ t : State, exec (.officeCtlStop c) s = .next t ∧ gives t 0 ∧ t.regs = s.regs) ∧
    (g 0 = 2 → ∃ t : State, exec (.officeCtlQuery c) s = .next t ∧ gives t 0 ∧ fig t 1 (s.reg rOFFSTAT).toNat ∧
      fig t 2 (s.reg rCANTSTAT).toNat ∧ fig t 3 (s.reg rCANTFAULTPC).toNat ∧ t.regs = s.regs) ∧
    (g 0 = 3 → s.rst.offDesc = none → ∃ t : State, exec (.officeCtlDone c) s = .next t ∧ gives t 1 ∧ t.regs = s.regs) ∧
    (∀ d, g 0 = 3 → s.rst.offDesc = some d → s.role = .cell → d.path = .walk → s.node.inbox = [d] → s.scr.held = [] →
      s.svMay c .r (g 1) 16 = true → ∃ t : State, exec (.officeCtlDone c) s = .next t ∧ gives t 0 ∧ t.rst.offDesc = none ∧
        t.on fOFFSTAT_PENDING = false ∧ t.node.inbox = [] ∧
        (t.node.up.map (fun x => x.f.payload)) = (s.node.up.map (fun x => x.f.payload)) ++
          [leBytes 8 (dsCookie d) ++ (s.coherentBytes (g 1) 16).drop 8]) ∧
    (s.rst.offDesc = none → exec .offtmoExpiry s = .next s) ∧
    (∀ d : Desc, s.rst.offDesc = some d → s.role = .cell → d.path = .walk → s.node.inbox = [d] → s.scr.held = [] → ∃ t : State,
      exec .offtmoExpiry s = .next (t.complete d stBUSY 0 []) ∧ t.rst.offDesc = none ∧ t.on fOFFSTAT_PENDING = false ∧
        t.on fOFFSTAT_TIMEOUT = true ∧ t.fld fCANTSTAT_STATE = s.fld fCANTSTAT_STATE ∧ s.besidesAll t)

/-- The descriptors of images, offices and the record (R128 to R132, R273 to R279, R571): bytes are written into a slot; a slot that fails its checks
is told by its status, one that passes is marked; chunks are staged, and committed or abandoned; an office runs, is stopped
and is told. -/
def Obligations.ImagesAndOffices : Prop :=
  ∀ (s : State) (d : Desc) (regions : List (Nat × Word)), s.ready d = true →
    let k := dsByte d 0x14
    let n := dsArg d 0
    let off := dsArgs d 0 4
    let len := dsArg d 4
    let loose := s.rst.pendingCfg = [] ∧ s.rst.waitDesc = []
    (s.role ≠ .chapter → imgLoadOk d = false → exec (.imageLoad d) s = .next (s.complete d stINVALID 0 [])) ∧
    (s.role ≠ .chapter → imgLoadOk d = true → s.on fOFFSTAT_RUNNING = true → s.fld fOFFSTAT_SLOT = k →
      exec (.imageLoad d) s = .next (s.complete d stBUSY 0 [])) ∧
    (s.role ≠ .chapter → imgLoadOk d = true → s.on fOFFSTAT_RUNNING = false → dsByte d 0x15 = 4 → dsNat d 0x10 4 % 4 = 0 → s.dec.dc = [] →
      s.cant.dc = [] → s.descCache = [] → ∃ t : State, exec (.imageLoad d) s = .next (t.complete d stOK 0 []) ∧
        t.mem.bytes (slotBase k + dsNat d 0x10 4) 4 = (d.bytes.drop 0x20).take 4 ∧ s.besides t) ∧
    (s.role = .chapter → exec (.imageLoad d) s = .next (s.complete d stNOTROLE 0 []) ∧
      exec (.imageCommit d) s = .next (s.complete d stNOTROLE 0 [])) ∧
    (s.role ≠ .chapter → n ≤ 9 → argsZeroFrom d 1 = true → s.imgCheck n ≠ stOK →
      exec (.imageCommit d) s = .next (s.complete d (s.imgCheck n) 0 [])) ∧
    (s.role ≠ .chapter → n < 8 → argsZeroFrom d 1 = true → s.imgCheck n = stOK → s.cfgBusy = false → ∃ t : State,
      exec (.imageCommit d) s = .next (t.complete d stOK 0 []) ∧ t.markedSlot = some n ∧ t.rst.before = s.markedSlot ∧ t.regs = s.regs ∧
        s.besides t) ∧
    (s.role ≠ .chapter → 9 < n → exec (.imageCommit d) s = .next (s.complete d stINVALID 0 [])) ∧
    (s.cfgRole d = true → len = 0 → exec (.cfgWrite d) s = .next (s.complete d stINVALID 0 [])) ∧
    (s.cfgRole d = true → 0 < len → len ≤ 24 → off + len ≤ 16320 → s.fld fSACCLAIM_CLAIM = 0 → ∃ t : State,
      exec (.cfgWrite d) s = .next (t.complete d stOK 0 []) ∧ t.rst.staging = true ∧
        t.spare.body = bodyPut s.stageBody off ((d.bytes.drop 0x28).take len) ∧ t.spare.valid = false ∧ t.cfgCopy = s.cfgCopy ∧
        t.regs = s.regs ∧ s.besides t) ∧
    (s.cfgRole d = true → n = 0 → s.rst.staging = true → s.fld fSACCLAIM_CLAIM = 0 → ∃ t : State,
      exec (.cfgCommit d) s = .next (t.complete d stOK 0 []) ∧ t.rst.staging = false ∧ t.cfgCopy.body = s.spare.body ∧
        t.cfgCopy.valid = true ∧ t.cfgCopy.seq = (s.cfgCopy.seq + 1) % 2 ^ 32 ∧ t.regs = s.regs ∧ s.besides t) ∧
    (s.cfgRole d = true → n = 0 → s.rst.staging = false → exec (.cfgCommit d) s = .next (s.complete d stINVALID 0 [])) ∧
    (s.cfgRole d = true → n = 1 → s.rst.staging = true → ∃ t : State, exec (.cfgAbandon d) s = .next (t.complete d stOK 0 []) ∧
      t.rst.staging = false ∧ t.cfgCopy = s.cfgCopy ∧ t.regs = s.regs ∧ t.mem = s.mem ∧ s.besides t) ∧
    (s.rst.staging = true → ∃ t : State, exec .cfgStagingTimeout s = .next t ∧ t.rst.staging = false ∧ t.cfgCopy = s.cfgCopy ∧
      t.regs = s.regs ∧ s.besidesAll t) ∧
    (s.rst.staging = true → exec .rhocoCfgUpdate s = .next s) ∧
    (∀ v, s.rst.staging = false → s.rst.pendingCfg = [(20, v)] → s.rst.waitDesc = [(d, stOK, 0)] → ∃ t : State,
      exec .rhocoCfgUpdate s = .next (t.complete d stOK 0 []) ∧ t.rst.pendingCfg = [] ∧ t.rst.waitDesc = [] ∧
        t.cfgCopy.body = Config.recordPut s.cfgCopy.body 20 v ∧ t.cfgCopy.seq = (s.cfgCopy.seq + 1) % 2 ^ 32 ∧ s.besides t) ∧
    (s.rst.staging = false → loose → ∃ t : State, exec .rhocoCfgUpdate s = .next t ∧ t.rst = s.rst ∧ t.regs = s.regs ∧ s.besidesAll t) ∧
    (s.role ≠ .loop → s.on fOFFSTAT_RUNNING = true → exec (.officeStart d regions) s = .next (s.complete d stBUSY 0 [])) ∧
    (s.role ≠ .loop → s.on fOFFSTAT_RUNNING = false → 8 ≤ n → exec (.officeStart d regions) s = .next (s.complete d stINVALID 0 [])) ∧
    (s.role = .loop → exec (.officeStart d regions) s = .next (s.complete d stNOTROLE 0 []) ∧
      exec (.officeStop d) s = .next (s.complete d stNOTROLE 0 []) ∧ exec (.officeQuery d) s = .next (s.complete d stNOTROLE 0 [])) ∧
    (s.role ≠ .loop → s.on fOFFSTAT_RUNNING = false → n < 8 → s.imgCheck n = stOK → s.cantRefused = false → ∃ t : State,
      exec (.officeStart d regions) s = .next (t.complete d stOK 0 []) ∧ t.on fOFFSTAT_RUNNING = true ∧ t.fld fOFFSTAT_SLOT = n) ∧
    (s.role ≠ .loop → s.on fOFFSTAT_RUNNING = true → s.fld fSACCLAIM_CLAIM = 0 → s.fld fCANTSTAT_STATE = 3 → s.cant.sbuf = [] → s.cant.dc = [] →
      s.rst.offDesc = none → ∃ t : State, exec (.officeStop d) s = .next (t.complete d stOK 0 []) ∧ t.on fOFFSTAT_RUNNING = false ∧
        t.fld fCANTSTAT_STATE = 0 ∧ t.on fCANTCTL_PWR = false ∧ t.cant = Core.off) ∧
    (s.role ≠ .loop → s.on fOFFSTAT_RUNNING = false → exec (.officeStop d) s = .next (s.complete d stOK 0 [])) ∧
    (s.role ≠ .loop → exec (.officeQuery d) s = .next (s.answers d [rOFFSTAT, rCANTSTAT, rCANTFAULTPC])) ∧
    exec (.coreQuery d) s = .next (s.complete d stOK (featWord .decani 0).toNat
      (((List.range 4).map (fun j => leBytes 4 (featWord .decani j).toNat)).flatten))

/-- The Scriptorium (R218, R240 to R244, R249 to R252): a doorbell in one TLP or two halves enables, updates and disables rings, and a malformed one
is told; a slot that is read goes to its lane with a tag, and a failed read halts the ring; a stream buffer is posted, and flushed when no byte
has come for its time; a fault fences its lane, and the last lane's stops everything. -/
def Obligations.Scriptorium : Prop :=
  ∀ (s : State) (d : Desc) (r : Ring) (h : Held) (k : Fin 8) (data : List Byte), s.role = .chapter → s.on fHLSTAT_SCRRDY = true →
    let bell := fun (slot op idx cidx : Nat) => leBytes 2 idx ++ leBytes 2 cidx ++ leBytes 1 op ++ [0] ++ leBytes 2 slot ++ leBytes 8 0
    let host := s.on fHLSTAT_LINKUP = true ∧ s.hl.bme = true ∧ s.on fHLSTAT_D3 = false
    let empty := s.scr.held = [] ∧ s.scr.recq = [] ∧ s.scr.recDropped = 0
    let quiet := fun (t : State) => t.role = s.role ∧ t.dec = s.dec ∧ t.cant = s.cant ∧ t.mem = s.mem ∧ t.node = s.node ∧ t.drv = s.drv ∧
      t.pending = s.pending
    (exec (.doorbell 3 [] none) s = .next { s.raise [fHLFLAG_DBFMT] with hl := { s.hl with half := none } }) ∧
    (data.length = 8 → exec (.doorbell 48 data none) s = .next { s with hl := { s.hl with half := some (48, data) } }) ∧
    (s.scr.rings = [] → exec (.doorbell 48 (bell 3 1 5 0) none) s =
      .next { s.raise [fSCFLAG_DBOFF] with hl := { s.hl with half := none } }) ∧
    (exec (.doorbell 48 (bell 4 1 5 0) none) s = .next { s.raise [fSCFLAG_DBBAD] with hl := { s.hl with half := none } }) ∧
    (s.scr.rings = [] → s.tableBase = 0x10000 → s.hl.half = none → s.fld fSCSTAT_ENABLED = 0 → s.fld fSCLANE_FENCED = 0 → s.scr.fences = [] →
      ∃ t : State, exec (.doorbell 48 (bell 3 2 5 7)
        (some (leBytes 8 0x40000 ++ leBytes 8 0x80000 ++ [3, 4, 0, 0] ++ leBytes 4 0))) s = .next t ∧
        t.scr.rings = [⟨3, 0x40000, 0x80000, 3, 4, 0, false, 5, 7, 5, 7, 1, 0, 3, 5, [], 0, 0, 0⟩] ∧ t.fld fSCSTAT_ENABLED = 1 ∧
        t.out = .hostWrite 0x10078 (leBytes 2 5 ++ leBytes 2 7 ++ [1, 0, 0, 0]) :: .hostRead 0x10060 24 :: s.out ∧ quiet t) ∧
    (s.scr.rings = [r] → r.n = 3 → r.kind = 3 → r.log2n = 4 → r.st = 1 → r.p = 5 → r.dhead = 5 → r.fetch = 5 → empty → s.hl.half = none → host →
      s.scr.failed = false → ∃ t : State, exec (.doorbell 48 (bell 3 1 7 2) none) s = .next t ∧
        t.scr.rings = [{ r with p := 7, ch := 2 }] ∧ t.out = .hostRead (r.dbase + 64 * 5) 64 :: s.out ∧ quiet t) ∧
    (s.scr.rings = [r] → r.n = 3 → r.st = 1 → empty → s.hl.half = none → s.fld fSCSTAT_ENABLED = 1 → ∃ t : State,
      exec (.doorbell 48 (bell 3 3 0 0) none) s = .next t ∧ t.scr.rings = [] ∧ t.fld fSCSTAT_ENABLED = 0 ∧ quiet t) ∧
    (exec (.descriptorFetch 3 none) { s with scr := { s.scr with rings := [] } } = .next { s with scr := { s.scr with rings := [] } }) ∧
    (s.scr.rings = [r] → r.n = 3 → r.kind = 3 → r.log2n = 4 → r.st = 1 → r.p = 6 → r.fetch = 5 → empty → host → s.scr.failed = false →
      s.fld fTAGSTAT_FREE = 1024 → data.length = 64 → opAssigned (data.getD 0 0).toNat = true → s.node.inbox = [] → ∃ t : State,
        exec (.descriptorFetch 3 (some data)) s = .next t ∧ t.scr.rings = [{ r with fetch := 6 }] ∧ t.fld fTAGSTAT_FREE = 1023 ∧
          t.fld fSCTAG_FREE = 1023 ∧ t.scr.held = [⟨0, 3, 5, r.lane, ⟨.lane r.lane, 3, 0, 5, data⟩, 1, 0, 0, []⟩] ∧ quiet t) ∧
    (s.scr.rings = [r] → r.n = 3 → r.kind = 3 → r.st = 1 → r.p = 6 → r.fetch = 5 → host → s.scr.failed = false → s.fld fSCSTAT_ENABLED = 1 →
      s.scr.recq = [] → s.scr.recDropped = 0 → ∃ t : State, exec (.descriptorFetch 3 none) s = .next t ∧
        t.scr.rings = [{ r with st := 3, err := 1 }] ∧ t.on fSCFLAG_HALT = true ∧ t.fld fSCSTAT_ENABLED = 0 ∧ quiet t) ∧
    (s.scr.held = [h] → h.d = d → h.phase = 4 → dsResbuf d = true → dsFormOk d = true → dsReslen d = 128 →
      exec (.streamBuf d) s = .next { s with scr := { s.scr with held := [{ h with phase := 5 }] } }) ∧
    (s.scr.held = [] → s.ready d = true → exec (.streamBuf d) s = .next (s.complete d stINVALID 0 [])) ∧
    (s.scr.rings = [r] → r.n = 14 → r.st = 1 → s.scr.held = [h] → h.phase = 5 → h.ring = 14 → r.fill = 64 → dsArg h.d 0 = 3 → r.fillAge = 2 →
      exec (.streamFlush 14) s = .next s) ∧
    (s.scr.rings = [r] → r.n = 14 → r.st = 1 → r.log2n = 4 → r.ctail = 0 → r.ch = 0 → s.scr.held = [h] → h.phase = 5 → h.ring = 14 →
      h.slot = r.dhead → r.done = [] → r.fill = 64 → r.fillTime = 9 → dsArg h.d 0 = 3 → r.fillAge = 3 → host → r.signal = false → ∃ t : State,
        exec (.streamFlush 14) s = .next t ∧ t.scr.held = [] ∧
          (t.scr.rings.map (fun q => (q.fill, q.ctail, q.dhead))) = [(0, 1, (r.dhead + 1) % 32)] ∧
          (.hostWrite r.cbase (leBytes 8 (dsCookie h.d) ++ leBytes 4 9 ++ [0] ++ leBytes 1 h.seq ++ leBytes 2 64)) ∈ t.out ∧ quiet t) ∧
    (s.fld fSCLANE_FENCED = 0 → s.scr.fences = [] → s.scr.rings = [] → empty → s.drv.dn = [] → ∃ t : State,
      exec (.laneFence k true) s = .next t ∧ t.fld fSCLANE_FENCED = 2 ^ k.val ∧ t.fld fSCLANE_CAUSE = s.fld fSCLANE_CAUSE ||| 2 ^ k.val ∧
        t.on fSCFLAG_LANERET = true ∧ t.scr.fences = []) ∧
    (s.fld fSCLANE_FENCED = 255 - 2 ^ k.val → s.scr.fences = [] → s.scr.rings = [] → empty → ∃ t : State,
      exec (.laneFence k true) s = .next t ∧ t.scr.failed = true ∧ t.on fSCSTAT_FAILED = true ∧ t.on fSCFLAG_SCRFAIL = true ∧ quiet t)

/-- The driver's events (R23, R61, R148, R157, R167, R171, R174, R175): the contest test starts the drive or reports the walk; the drive comes on
with a fresh book; a short, a hard trip, a failed start or a lost supply turns it off; a turn-off with RETRY is followed by a restart, but not the
fourth in 60 s.
The descriptors of the driven walk (R158, R180): WALK_POWER asks for the drive, or is refused for its limit or its supply; the queries return the
registers; the books of walk 0 and of a ring; a walk of a Crossing that is not known is WALK_DOWN; in other roles they are not run. -/
def Obligations.DrivenWalk : Prop :=
  (∀ (s : State) (d : Desc), s.hasDrive = true →
    let same := fun (t : State) (l : List Fld) => l.all (fun f => t.fld f = s.fld f) = true
    let off := fun (t : State) => t.on fWDSTAT_ON = false ∧ t.on fWDSTAT_STARTING = false ∧ t.drv.testing = false ∧ t.drv.roll = none ∧
      t.on fLPSTAT_ROLLING = false ∧ t.drv.lastOff = some s.now ∧ s.besides t
    let busy := s.driveBusy = true
    let counted := fun (t : State) (f : Fld) => t.fld f = satAdd (2 ^ f.w - 1) (s.fld f) 1
    (s.drv.testing = false → ∀ b, exec (.contestTestEnd b) s = .next s) ∧
    (s.drv.testing = true → s.drv.powerDesc = none → exec (.contestTestEnd false) s =
      .next ({ s with drv := { s.drv with testing := false } }.setFld fWDSTAT_STARTING 1)) ∧
    (s.drv.testing = true → s.drv.powerDesc = none → ∃ t : State, exec (.contestTestEnd true) s = .next t ∧ t.on fROLESTAT_CONTESTED = true ∧
      t.on fWDFLAG_CONTEST = true ∧ t.drv.testing = false ∧ same t [fWDSTAT_STARTING, fWDSTAT_ON] ∧ s.besides t) ∧
    (s.drv.testing = true → s.drv.powerDesc = some d → ∃ t : State, exec (.contestTestEnd true) s = .next (t.complete d stCONTESTED 0 []) ∧
      t.drv.powerDesc = none ∧ t.drv.testing = false ∧ t.on fROLESTAT_CONTESTED = true ∧ s.besides t) ∧
    (s.on fWDSTAT_STARTING = true → ∃ t : State, exec .walkDriveOn s = .next t ∧ t.on fWDSTAT_ON = true ∧ t.on fWDSTAT_STARTING = false ∧
      t.on fROLESTAT_CONTESTED = false ∧ t.drv.granted = 0 ∧ t.drv.quar = [] ∧ t.drv.enr.all (fun e => e.held = 0) = true ∧
      t.drv.enr.map (fun e => e.uid) = s.drv.enr.map (fun e => e.uid) ∧ s.besides t) ∧
    (s.on fWDSTAT_STARTING = false → exec .walkDriveOn s = .next s ∧ exec .walkStartfail s = .next s) ∧
    (s.on fWDSTAT_STARTING = true → ∃ t : State, exec .walkStartfail s = .next t ∧ off t ∧ t.on fWDFLAG_STARTFAIL = true ∧
      counted t fWDCNT_SHORTS ∧ t.drv.retryDue = s.drv.retryDue) ∧
    (s.on fWDSTAT_ON = true → s.drv.offTimes = [] → s.on fWDCTL_RETRY = true → ∃ t : State, exec .walkShort s = .next t ∧ off t ∧
      t.on fWDFLAG_SHORT = true ∧ counted t fWDCNT_SHORTS ∧ t.drv.retryDue = true ∧ same t [fWDCTL_EN]) ∧
    (s.on fWDSTAT_ON = true → s.drv.offTimes = [] → s.on fWDCTL_RETRY = false → ∃ t : State, exec .walkShort s = .next t ∧ off t ∧
      t.on fWDFLAG_SHORT = true ∧ t.drv.retryDue = false) ∧
    (s.on fWDSTAT_ON = true → s.drv.offTimes = [s.now, s.now, s.now] → s.now < 2 ^ 48 → ∃ t : State, exec .hardtrip s = .next t ∧ off t ∧
      t.on fWDFLAG_HARDTRIP = true ∧ counted t fWDCNT_SHORTS ∧ t.drv.retryDue = false ∧ t.on fWDCTL_EN = false) ∧
    (s.on fWDSTAT_ON = false → s.on fWDSTAT_STARTING = false → exec .walkShort s = .next s ∧ exec .hardtrip s = .next s) ∧
    (s.drv.retryDue = true → s.on fWDCTL_EN = true → s.on fWDSTAT_WSUPOK = true → s.drv.ovWsup = false → s.offLongEnough = true →
      exec .walkRetry s = .next { s with drv := { s.drv with retryDue := false, testing := true } }) ∧
    (s.offLongEnough = false → exec .walkRetry s = .next s) ∧
    exec .wsupQualified s = .next (s.setFld fWDSTAT_WSUPOK 1) ∧
    (s.on fWDSTAT_WSUPOK = true → busy → s.drv.powerDesc = none → ∃ t : State, exec .wsupLost s = .next t ∧ off t ∧
      t.on fWDSTAT_WSUPOK = false ∧ t.on fWDFLAG_WSUPLOW = true ∧ same t [fWDCTL_EN]) ∧
    (s.on fWDSTAT_WSUPOK = false → exec .wsupLost s = .next s) ∧
    (busy → s.drv.powerDesc = none → ∃ t : State, exec .wsupOvervoltage s = .next t ∧ off t ∧ t.on fWDFLAG_WSUPOV = true ∧ t.drv.ovWsup = true ∧
      same t [fWDCTL_EN, fWDSTAT_WSUPOK]) ∧
    (s.drv.ovWsup = true → s.on fWDCTL_EN = true → s.on fWDSTAT_WSUPOK = true → s.driveBusy = false → s.offLongEnough = true →
      (s.role = .chapter ∨ s.drvWalk ≠ 0) → ∃ t : State, exec .wsupOvRecover s = .next t ∧ t.drv.ovWsup = false ∧ t.drv.testing = true ∧
        s.besidesAll { t with drv := s.drv }) ∧
    (s.drv.ovWsup = false → exec .wsupOvRecover s = .next s) ∧
    exec .rateChangeApply s = .next (s.setFld fWDSTAT_RATENOW (s.fld fWDCTL_RATE)) ∧
    (∃ t : State, exec .parstatClr s = .next t ∧ t.fld fPARSTAT_CNT = 0 ∧ t.fld fPARADDR_ADDR = 0 ∧ s.besidesAll t) ∧
    (∀ n p, s.drv.quar = [(n, 0, p)] → s.drv.reqs = [] → ∃ t : State, exec .quarantineEnd s = .next t ∧ t.drv.quar = [] ∧
      t.drv.granted = s.drv.granted ∧ t.drv.enr = s.drv.enr ∧ s.besides t) ∧
    (∀ n k p, s.drv.quar = [(n, k + 1, p)] → exec .quarantineEnd s = .next s)) ∧
  (∀ (s : State) (d : Desc) (walk ilim addr kind : Nat) (en retry babcut : Bool), s.ready d = true →
    let here := s.driverRing d = true ∧ walk = s.drvWalk ∧ walk < 16
    let good := 4 ≤ ilim ∧ ilim ≤ 32
    let local_ := s.role = .chapter ∧ s.driverRing d = true
    (s.driverRing d = false → exec (.walkPower d walk en ilim retry babcut) s = .next (s.complete d stNOTROLE 0 []) ∧
      exec (.walkQuery d walk) s = .next (s.complete d stNOTROLE 0 [])) ∧
    (here → ilim < 4 ∨ 32 < ilim → exec (.walkPower d walk en ilim retry babcut) s = .next (s.complete d stINVALID 0 [])) ∧
    (here → good → s.on fWDSTAT_WSUPOK = false → exec (.walkPower d walk true ilim retry babcut) s =
      .next ((s.raise [fWDFLAG_REFUSED]).complete d stSUPPLYLOW 0 [])) ∧
    (here → good → s.on fWDSTAT_WSUPOK = true → s.drv.ovWsup = false → s.driveBusy = false → s.offLongEnough = true →
      (s.role = .chapter ∨ s.drvWalk ≠ 0) → ∃ t : State, exec (.walkPower d walk true ilim retry babcut) s = .next t ∧
        t.drv.testing = true ∧ t.drv.powerDesc = some d ∧ t.on fWDCTL_EN = true ∧ t.fld fWDCTL_ILIM = ilim ∧ t.on fWDCTL_RETRY = retry ∧
        t.on fWDCTL_BABCUT = babcut ∧ s.besides t) ∧
    (here → good → s.on fWDCTL_EN = true → s.drv.powerDesc = none → ∃ t : State, exec (.walkPower d walk false ilim retry babcut) s =
      .next (t.complete d stOK 0 []) ∧ t.on fWDCTL_EN = false ∧ t.on fWDSTAT_ON = false ∧ t.on fWDSTAT_STARTING = false ∧
        t.drv.testing = false ∧ s.besides t) ∧
    (local_ → 0 < walk → walk < 16 → good → s.xing? walk = none →
      exec (.walkPower d walk en ilim retry babcut) s = .next (s.complete d stWALKDOWN 0 []) ∧
      exec (.walkQuery d walk) s = .next (s.complete d stWALKDOWN 0 []) ∧ exec (.booksQuery d (.walk walk)) s = .next (s.complete d stWALKDOWN 0 [])) ∧
    (here → exec (.walkQuery d walk) s = .next (s.answers d [rWDCTL, rWDSTAT, rWDFLAG, rWDMON, rWDCNT])) ∧
    (s.driverRing d = true → 15 < walk → exec (.walkQuery d walk) s = .next (s.complete d stINVALID 0 [])) ∧
    (s.onWalk = true → exec (.lineQuery d) s = .next (s.complete d stOK (s.reg rLASTAT).toNat
      (((([rLASTAT, rLAFLAG, rLACNT]).map (fun a => leBytes 4 (s.reg a).toNat)).flatten) ++ leBytes 4 (s.fld fPWRMON_VBRV)))) ∧
    (s.onWalk = false → exec (.lineQuery d) s = .next (s.complete d stNOTROLE 0 [])) ∧
    (local_ → addr < 4096 → kind < 4 → exec (.booksQuery d (.ring addr kind)) s = .next
      (s.complete d stOK (s.credit (4 * addr + kind)).g (s.ringFigures (4 * addr + kind)).2)) ∧
    (local_ → exec (.booksQuery d (.walk 0)) s = .next (s.complete d stOK (wrapInt 32 s.budget)
      (s.walkFigures s.budget s.drv.granted (s.drv.quar.map (·.1)).sum).2)) ∧
    (local_ → 4095 < addr → exec (.booksQuery d (.ring addr kind)) s = .next (s.complete d stINVALID 0 [])) ∧
    (s.role = .crossing → d.path = .walk → exec (.booksQuery d (.walk walk)) s = .next (s.booksFig.complete d stOK 0 [])))

/-- The walk attachment and the Lectern jack (R79, R169, R173, R177, R179, R202): a transmitter that does not stop is cut, and the third cut in 16
superframes locks it off; a changed polarity loses the line; the jack shows what is plugged in, and a session ends with it. -/
def Obligations.Attachments : Prop :=
  ∀ (s : State) (stuck : Bool), s.awake = true →
    (s.onWalk = true → s.node.cuts = [] → ∃ t : State, exec (.jabberCut stuck) s = .next t ∧ t.node.modCut = true ∧ t.node.cuts = [s.now / 32768] ∧
      t.on fLAFLAG_JABBER = (!stuck || s.on fLAFLAG_JABBER) ∧ t.on fLAFLAG_STUCK = (stuck || s.on fLAFLAG_STUCK) ∧
      t.fld fLACNT_JABCNT = satAdd (2 ^ fLACNT_JABCNT.w - 1) (s.fld fLACNT_JABCNT) 1 ∧ t.on fLASTAT_TXLOCKOUT = s.on fLASTAT_TXLOCKOUT ∧
      s.besidesAll { t with node := s.node }) ∧
    (s.onWalk = true → s.node.cuts = [s.now / 32768, s.now / 32768] → ∃ t : State, exec (.jabberCut stuck) s = .next t ∧
      t.on fLASTAT_TXLOCKOUT = true ∧ s.besidesAll { t with node := s.node }) ∧
    (s.onWalk = false → exec (.jabberCut stuck) s = .next s ∧ exec .polchg s = .next s) ∧
    (s.onWalk = true → s.on fPWRSRC_LINEOK = true → s.rst.tokWait = none → ∃ t : State, exec .polchg s = .next t ∧
      t.fld fLASTAT_POL = 1 - s.fld fLASTAT_POL ∧ t.on fLAFLAG_POLCHG = true ∧ t.on fPWRSRC_LINEOK = false ∧ t.fld fPWRTOK_GRANT = 0 ∧
      t.on fPWRFLAG_LINELOSS = true ∧ t.pwr.lineLost = true ∧ s.besidesAll t) ∧
    (s.hasJack = true → s.on fLJSTAT_PRESENT = false → ∃ t : State, exec .lecternDetect s = .next t ∧ t.on fLJSTAT_PRESENT = true ∧
      t.on fLJSTAT_PLUG = true ∧ t.fld fWAKESRC_SRC = s.fld fWAKESRC_SRC ||| 32 ∧ s.besidesAll t) ∧
    (s.hasJack = true → s.on fLJSTAT_PRESENT = true → s.on fBOOTSTAT_RECOV = false → ∃ t : State, exec .lecternRemove s = .next t ∧
      t.on fLJSTAT_PRESENT = false ∧ t.on fLJSTAT_UNPLUG = true ∧ t.node.session = false ∧
      t.node.inbox = s.node.inbox.filter (fun d => d.path != .lectern) ∧ s.besidesAll { t with node := s.node } ∧
      (s.role = .loop → t.on fLINEADDR_VALID = false)) ∧
    (s.hasJack = true → ∃ t : State, exec .ljbOvervoltage s = .next t ∧ t.on fLJSTAT_OV = true ∧ t.on fLJSTAT_OVF = true ∧
      t.node.session = false ∧ s.besidesAll { t with node := s.node }) ∧
    (s.hasJack = false → exec .lecternDetect s = .next s ∧ exec .lecternRemove s = .next s ∧ exec .ljbOvervoltage s = .next s) ∧
    exec .ljbOvClear s = .next (s.setFld fLJSTAT_OV 0)

/-- Sources and their selection (R53, R54, R65 to R72, Table 3.4): a supply that qualifies shows in PWRSRC; a lost line gives up its tokens; a lost
source is left for the best that remains, or nothing feeds the part; an over-voltage stops the draw; a shed step drops what runs and says so.
Power-on, brown-out and pin resets, the latched role (R10, R11, R39, R65, R71, R118, R119, R122, R123), and the descriptors of block 3 (R73). -/
def Obligations.PowerSourcesAndResets : Prop :=
  (∀ (s : State) (a b c : BitVec 8) (v w : Bool), s.awake = true → s.rst.tokWait = none →
    let fed := s.pwr.fed = true
    let src := s.fld fPWRSRC_SRC
    let line := s.on fPWRSRC_LINEOK
    let lost := fun (t : State) => t.on fPWRSRC_LINEOK = false ∧ t.fld fPWRTOK_GRANT = 0 ∧ t.on fPWRFLAG_LINELOSS = true ∧ t.pwr.lineLost = true ∧
      t.pwr.grantPend = none ∧ s.besidesAll t
    let up := fun (t : State) => t.on fPWRSRC_LINEOK = true ∧ t.pwr.lineLost = false ∧
      t.on fPWRFLAG_LINERET = (s.pwr.lineLost || s.on fPWRFLAG_LINERET) ∧ s.besidesAll t
    let switched := fun (t : State) (k : Nat) => t.fld fPWRSRC_SRC = k ∧ t.on fPWRFLAG_SWITCH = true ∧ t.pwr.fed = true ∧
      t.pwr.shedXcall = false ∧ s.besidesAll t
    (s.onWalk = true → line = false → ∃ t : State, exec .lineQualified s = .next t ∧ up t) ∧
    (s.onWalk = false ∨ line = true → exec .lineQualified s = .next s) ∧
    (s.onWalk = true → line = true → ∃ t : State, exec .lineLost s = .next t ∧ lost t ∧ t.fld fPWRSRC_SRC = src) ∧
    (s.onWalk = false ∨ line = false → exec .lineLost s = .next s) ∧
    (s.role = .loop → line = false → ∃ t : State, exec .loopQualified s = .next t ∧ up t) ∧
    (s.role = .loop → line = true → fed → src = 0 → s.on fPWRSRC_BAKOK = true → ∃ t : State, exec .loopLost s = .next t ∧ lost t ∧ switched t 2) ∧
    (s.role = .loop → line = true → fed → src = 0 → s.on fPWRSRC_BAKOK = false → ∃ t : State, exec .loopLost s = .next t ∧ lost t ∧
      t.pwr.fed = false) ∧
    (s.role ≠ .loop → exec .loopQualified s = .next s ∧ exec .loopLost s = .next s) ∧
    (s.role ≠ .chapter → ∃ t : State, exec .lineOvervoltage s = .next t ∧ t.pwr.draw = 0 ∧ t.on fPWRFLAG_OVLINE = true ∧ s.besidesAll t) ∧
    (s.role = .chapter → exec .lineOvervoltage s = .next s) ∧
    (s.pwr.ovLine = true → ∃ t : State, exec .lineOvRecover s = .next t ∧ t.pwr.draw = 3 + 2 * s.fld fPWRTOK_GRANT ∧ t.pwr.ovLine = false ∧
      t.regs = s.regs ∧ s.besidesAll t) ∧
    (s.role = .cell → fed → exec .cresQualified s =
      .next ({ s with pwr := { s.pwr with shedXcall := false } }.setFld fPWRSRC_CRESOK 1)) ∧
    (s.role = .cell → s.on fPWRSRC_CRESOK = true → fed → src = 0 → s.on fPWRSRC_AUXOK = false → s.on fPWRSRC_BAKOK = true → ∃ t : State,
      exec .cresLost s = .next t ∧ t.on fPWRSRC_CRESOK = false ∧ switched t 2) ∧
    (s.role = .cell → s.on fPWRSRC_CRESOK = true → fed → src = 0 → s.on fPWRSRC_AUXOK = false → s.on fPWRSRC_BAKOK = false →
      exec .cresLost s = .next { s.setFld fPWRSRC_CRESOK 0 with pwr := { s.pwr with fed := false } }) ∧
    (s.role = .cell → line = true → s.on fPWRSRC_CRESOK = false → ∃ t : State, exec .cresfail s = .next t ∧ t.on fPWRFLAG_CRESFAIL = true ∧
      s.besidesAll t) ∧
    (s.on fPWRSRC_CRESOK = true → exec .cresfail s = .next s) ∧
    (s.on fPWRSRC_AUXOK = false → fed → exec .vauxQualified s = .next (s.setFld fPWRSRC_AUXOK 1)) ∧
    (s.on fPWRSRC_AUXOK = false → s.pwr.fed = false → s.latched = true → s.role ≠ .loop → ∃ t : State, exec .vauxQualified s = .next t ∧
      t.on fPWRSRC_AUXOK = true ∧ t.fld fPWRSRC_SRC = 1 ∧ t.pwr.fed = true ∧ s.besidesAll t) ∧
    (s.on fPWRSRC_AUXOK = true → fed → src = 1 → s.role = .chapter → ∃ t : State, exec .vauxLost s = .next t ∧ t.on fPWRSRC_AUXOK = false ∧
      t.pwr.fed = false ∧ s.besidesAll t) ∧
    (s.on fPWRSRC_AUXOK = true → fed → src = 1 → s.role = .cell → s.on fPWRSRC_CRESOK = true → ∃ t : State, exec .vauxLost s = .next t ∧
      t.on fPWRSRC_AUXOK = false ∧ switched t 0) ∧
    (fed → exec .vbakQualified s = .next { s.setFld fPWRSRC_BAKOK 1 with pwr := { s.pwr with bakSeen := true } }) ∧
    (s.on fPWRSRC_BAKOK = true → src ≠ 2 → exec .vbakLost s = .next (s.setFld fPWRSRC_BAKOK 0)) ∧
    (s.pwr.bakSeen = true → ∃ t : State, exec .baklow s = .next t ∧ t.on fPWRFLAG_BAKLOW = true ∧ s.besidesAll t) ∧
    (s.pwr.bakSeen = false → exec .baklow s = .next s) ∧
    (s.role = .cell → fed → src = 0 → s.on fPWRSRC_AUXOK = true → ∃ t : State, exec .sourceSwitch s = .next t ∧ switched t 1) ∧
    (s.pwr.fed = false → exec .sourceSwitch s = .next s) ∧
    (s.role = .cell → fed → src = 0 → s.shedActive 2 = true → s.shedActive 1 = false → s.fld fSACCLAIM_CLAIM = 0 → ∃ t : State,
      exec .shedStep s = .next t ∧ (t.fld fPWRSHED_SHEDMAP).testBit 1 = true ∧ t.on fPWRFLAG_SHED = true ∧ t.on fFONTSTAT_RUN = false) ∧
    ((∀ k < 6, s.shedActive k = false) → exec .shedStep s = .next s) ∧
    (∃ t : State, exec .vmainWarning s = .next t ∧ t.on fPWRFLAG_BOW = true ∧ s.besidesAll t) ∧
    (∃ t : State, exec .vddaLow s = .next t ∧ t.on fPWRSRC_VDDAOK = false ∧ t.on fPWRFLAG_VDDALOW = true ∧
      t.on fSFEFLAG_VDDA = (s.blockOn 17 || s.on fSFEFLAG_VDDA) ∧ s.besidesAll t) ∧
    exec (.pwrmonRefresh a b c v w) s = .next (s.sets [(fPWRMON_CRESV, a.toNat), (fPWRMON_VBAKV, b.toNat), (fPWRMON_VBRV, c.toNat),
      (fPWRSRC_VCOREOK, b2n v), (fPWRSRC_VDDAOK, b2n w)])) ∧
  (∀ (s : State) (r : Role) (d : Desc),
    let kept := fun (t : State) => t.role = s.role ∧ t.tap = s.tap ∧ t.out = s.out ∧ t.pending = s.pending ∧ t.mem.otp = s.mem.otp
    let brown := fun (t : State) (k : Nat) => t.fld fRSTCAUSE_LAST = k ∧ (t.fld fRSTCAUSE_HIST).testBit k = true ∧ t.rst.hold = true ∧ t.clk.line = 0 ∧
      t.pwr.draw = 3 ∧ t.fld fPWRTOK_GRANT = 0 ∧ t.slp.st = .run ∧ t.latched = s.latched ∧ kept t
    (s.latched = true → s.slp.st ≠ .off → s.rst.hold = false → ∃ t : State, exec .brownOutReset s = .next t ∧ brown t 1 ∧
      t.fld fBODCNT_COUNT = satAdd 255 (s.fld fBODCNT_COUNT) 1) ∧
    (s.latched = true → s.slp.st ≠ .off → s.rst.hold = false → ∃ t : State, exec .pinReset s = .next t ∧ brown t 2 ∧
      t.fld fBODCNT_COUNT = s.fld fBODCNT_COUNT) ∧
    (s.latched = true → s.slp.st = .off → s.pwr.fed = true → ∃ t : State, exec .pinReset s = .next t ∧ brown t 2 ∧ t.fld fRSTCAUSE_HIST = 5 ∧
      t.fld fBODCNT_COUNT = 0 ∧ t.fld fSLPSTAT_LAST = 4) ∧
    (s.latched = false → exec .brownOutReset s = .next s ∧ exec .pinReset s = .next s) ∧
    (s.slp.st = .off → exec .brownOutReset s = .next s) ∧
    (∃ t : State, exec (.powerOnReset false) s = .next t ∧ t.latched = false ∧ t.fld fRSTCAUSE_LAST = 0 ∧ t.fld fRSTCAUSE_HIST = 1 ∧
      t.rst.hold = true ∧ t.clk.line = 0 ∧ t.rst.stopped = t.on fBOOTSTAT_OTPBAD ∧ t.out = s.out ∧ t.pending = s.pending ∧ t.mem.otp = s.mem.otp ∧
      exec .vaoLoss s = .next t) ∧
    (s.latched = false → s.pwr.fed = true → ∃ t : State, exec (.roleLatch r) s = .next t ∧ t.role = r ∧ t.latched = true ∧
      t.fld fROLESTAT_ROLE = roleCode r ∧ t.fld fROLESTAT_STRAPNOW = roleCode r ∧ t.on fROLESTAT_UNSTABLE = false ∧
      t.on fROLESTAT_DIFFER = false ∧ t.mem = s.mem ∧ t.pending = s.pending) ∧
    (s.latched = false → s.pwr.fed = true → ∃ t : State, exec (.strapTimeout 2#2) s = .next t ∧ t.role = .cell ∧ t.latched = true ∧
      t.fld fROLESTAT_ROLE = 0 ∧ t.fld fROLESTAT_STRAPNOW = 2 ∧ t.on fROLESTAT_UNSTABLE = true ∧ t.on fROLESTAT_DIFFER = true ∧ t.mem = s.mem) ∧
    (s.latched = true → exec (.roleLatch r) s = .next s ∧ exec (.strapTimeout 2#2) s = .next s) ∧
    (s.ready d = true → exec (.pwrQuery d) s = .next (s.answers d [rPWRSRC, rPWRTOK, rPWRFLAG, rPWRMON, rPWRSHED, rBODCNT])) ∧
    (s.ready d = true → 24 < dsArg d 0 → exec (.pwrBackup d) s = .next (s.complete d stINVALID 0 [])) ∧
    (s.ready d = true → (s.role = .chapter ∨ s.role = .crossing) → dsArg d 0 = 3 → dsArg d 1 = 1 → exec (.pwrBackup d) s =
      .next (s.complete d stINVALID 0 [])) ∧
    (s.ready d = true → s.role = .cell → dsArg d 0 ≤ 24 → dsArg d 1 = 1 → argsZeroFrom d 2 = true → s.fld fSACCLAIM_CLAIM = 0 →
      s.awake = true → ∃ t : State, exec (.pwrBackup d) s = .next (t.complete d stOK 0 []) ∧ t.fld fPWRCFG_BAKALLOW = dsArg d 0 ∧
        t.on fPWRCFG_BAKCHG = true ∧ t.fld fPWRCFG_EXC = s.fld fPWRCFG_EXC ∧ s.besides t))

/-- The descriptors of motion (R462, R468, R469, R471, R472, R476, R478, Table 21.4), with nothing claimed, in RUN: set-up is refused while AEN is 1; a
start enables its sensors and anchors the stream's grid at now, and is refused for tokens or while something else runs; a capture is armed at its
time; the inclinometer and the self-test keep their descriptor until they end.
Motion's events (R463, R468 to R472, R477 to R479, R482): GO starts a stream and an arm a capture; a strobe whose time has come records its instant
and goes on to the next; a capture ends; a sensor settles, or its data do not come; the inclinometer and the self-test end, and tell the host; a
shock sample shows its axes. -/
def Obligations.Motion : Prop :=
  (∀ (s : State) (d : Desc), s.ready d = true → s.fld fSACCLAIM_CLAIM = 0 → s.awake = true →
    let mems := s.role = .cell ∨ s.role = .loop
    let still := s.on fMOTCTL_AEN = false ∧ s.on fMOTCTL_GEN = false
    let v := dsArgs d 0 4
    let calm := s.tokensRefuse s.needNow = false ∧ s.fld fMOTCTL_ODR < 6 ∧ s.motTooBig = false
    let when_ := dsArgs d 0 6
    (s.role = .crossing ∨ s.role = .chapter → exec (.motionSetup d) s = .next (s.complete d stNOTROLE 0 []) ∧
      exec (.motionStart d) s = .next (s.complete d stNOTROLE 0 []) ∧ exec (.motionRead d) s = .next (s.complete d stNOTROLE 0 [])) ∧
    (mems → s.on fMOTCTL_AEN = true → exec (.motionSetup d) s = .next ((s.raise [fMOTFLAG_CFGBUSY]).complete d stBUSY 0 [])) ∧
    (mems → still → ∃ t : State, exec (.motionSetup d) s = .next (t.complete d stOK 0 []) ∧ t.fld fMOTCTL_ODR = v / 8 % 16 ∧
      t.fld fMOTCTL_AFS = v / 256 % 4 ∧ t.fld fMOTCTL_HPK = v / 2 ^ 16 % 8 ∧ t.fld fMOTCTL_INCLK = v / 2 ^ 24 % 16 ∧ t.on fMOTCTL_AEN = false ∧
      t.on fMOTCTL_GEN = false ∧ (s.role = .cell → t.fld fMOTCTL_GFS = v / 1024 % 8) ∧ (s.role = .loop → t.fld fMOTCTL_GFS = 0) ∧ s.besidesAll t) ∧
    (mems → 4 ≤ dsArg d 0 → exec (.motionStart d) s = .next (s.complete d stINVALID 0 [])) ∧
    (mems → dsArg d 0 = 1 → s.motTooBig = false → 2 ≤ s.mot.mode → exec (.motionStart d) s = .next (s.complete d stBUSY 0 [])) ∧
    (s.role = .loop → dsArg d 0 = 2 → exec (.motionStart d) s = .next (s.complete d stNOTROLE 0 [])) ∧
    (s.role = .cell → dsArg d 0 = 2 → s.on fMOTCTL_GEN = false → s.motTooBig = false → s.mot.mode = 0 → s.tokensRefuse (s.needNow + 2) = true →
      exec (.motionStart d) s = .next (s.tokenRefused.complete d stTOKENS 0 [])) ∧
    (mems → dsArg d 0 = 1 → still → calm → s.mot.mode = 0 → ∃ t : State, exec (.motionStart d) s = .next (t.complete d stOK 0 []) ∧
      t.on fMOTCTL_AEN = true ∧ t.on fMOTSTAT_ARUN = true ∧ t.on fMOTCTL_GEN = false ∧ t.fld fMOTCAP_NCAP = 0 ∧ t.fld fMOTMISS_MISSED = 0 ∧
      t.mot.mode = 1 ∧ t.mot.t = s.now ∧ t.mot.tFrac = s.clk.frac ∧ t.mot.n = 0 ∧ s.besidesAll t) ∧
    (mems → s.on fMOTCTL_AEN = true → s.on fMOTCTL_GEN = false → s.mot.mode = 1 → ∃ t : State,
      exec (.motionStop d) s = .next (t.complete d stOK 0 []) ∧ t.on fMOTCTL_AEN = false ∧ t.on fMOTSTAT_ARUN = false ∧ t.mot.mode = 0 ∧
        s.besidesAll t) ∧
    (mems → dsArgs d 8 4 = 0 → exec (.motionCapture d) s = .next (s.complete d stINVALID 0 [])) ∧
    (mems → dsArg d 6 = 0 → 0 < dsArgs d 8 4 → dsArgs d 8 4 < 2 ^ 24 → s.motTooBig = false → s.mot.mode = 1 →
      exec (.motionCapture d) s = .next (s.complete d stBUSY 0 [])) ∧
    (mems → dsArg d 6 = 0 → 0 < dsArgs d 8 4 → dsArgs d 8 4 < 2 ^ 24 → still → calm → s.mot.mode = 0 → past when_ s.now = false → ∃ t : State,
      exec (.motionCapture d) s = .next (t.complete d stOK 0 []) ∧ t.mot.mode = 2 ∧ t.mot.t = when_ ∧ t.mot.n = 0 ∧
        t.fld fMOTCAP_NCAP = dsArgs d 8 4 ∧ t.on fMOTSTAT_ARMED = true ∧ t.on fMOTCTL_AEN = true ∧ t.on fMOTTH_LATE = false ∧ s.besidesAll t) ∧
    (mems → dsArg d 6 = 2 → 0 < dsArgs d 8 4 → dsArgs d 8 4 < 2 ^ 24 → still → calm → s.mot.mode = 0 → past when_ s.now = true → ∃ t : State,
      exec (.motionCapture d) s = .next (t.complete d 0x4A 0 []) ∧ t.mot.mode = 0 ∧ t.on fMOTTH_LATE = true ∧ t.on fMOTFLAG_LATE = true ∧
        t.on fMOTCTL_AEN = false) ∧
    (mems → s.mot.mode ≠ 0 → exec (.motionIncl d) s = .next (s.complete d stBUSY 0 [])) ∧
    (mems → still → s.mot.mode = 0 → ∃ t : State, exec (.motionIncl d) s = .next t ∧ t.mot.mode = 4 ∧ t.mot.desc = some d ∧
      t.fld fMOTCTL_INCLK = min 12 (dsArg d 0) ∧ t.on fMOTSTAT_INCLBAD = false ∧ s.besidesAll t) ∧
    (mems → 2 ≤ dsArg d 0 → exec (.motionSelftest d) s = .next (s.complete d stINVALID 0 [])) ∧
    (mems → dsArg d 0 = 0 → still → s.mot.mode = 0 → exec (.motionSelftest d) s =
      .next { s with mot := { s.mot with mode := 5, desc := some d, tries := 0 } }) ∧
    (mems → exec (.motionRead d) s = .next (s.complete d stOK 0
      (((([rMOTLASTA 0, rMOTLASTA 1, rMOTLASTG 0, rMOTLASTG 1]).map (fun a => leBytes 4 (s.reg a).toNat)).flatten)))) ∧
    (mems → exec (.motionQuery d) s = .next (s.complete d stOK 0
      (((([rMOTSTAT, rMOTFLAG, rMOTLATE, rMOTMISS]).map (fun a => leBytes 4 (s.reg a).toNat)).flatten))))) ∧
  (∀ (s : State) (v : Word) (x : StrobeIn) (a b c e : Int) (i j k : Nat) (d : Desc), s.role = .cell → s.awake = true →
    let on_ := s.on fMOTCTL_AEN = true ∧ s.on fMOTCTL_GEN = false
    let ready := fun (t : Nat) => reached t s.now = true
    (on_ → s.mot.mode = 0 → s.fld fMOTCAP_NCAP = 0 → v.toNat % 2 = 1 → ∃ t : State, exec (.motgo .sacristy v) s = .next t ∧ t.mot.mode = 1 ∧
      t.mot.t = s.now ∧ t.mot.n = 0 ∧ t.fld fMOTMISS_MISSED = 0 ∧ s.besidesAll t) ∧
    (v.toNat % 2 = 0 → exec (.motgo .sacristy v) s = .next s) ∧
    (on_ → s.mot.mode = 0 → 0 < s.fld fMOTCAP_NCAP → v.toNat / 2 ^ 16 % 2 = 1 →
      past (s.fld fMOTTL_TIME + v.toNat % 2 ^ 16 * 2 ^ 32) s.now = false → ∃ t : State, exec (.motionArm .sacristy v) s = .next t ∧
        t.mot.mode = 2 ∧ t.mot.t = s.fld fMOTTL_TIME + v.toNat % 2 ^ 16 * 2 ^ 32 ∧ t.on fMOTSTAT_ARMED = true ∧ t.on fMOTTH_ARM = true ∧
        s.besidesAll t) ∧
    (on_ → s.mot.mode = 2 → v.toNat / 2 ^ 16 % 2 = 0 → ∃ t : State, exec (.motionArm .sacristy v) s = .next t ∧ t.mot.mode = 0 ∧
      t.on fMOTSTAT_ARMED = false ∧ s.besidesAll t) ∧
    (s.mot.mode = 1 → s.blockOn 20 = true → reached (s.motInstant s.mot.n).1 s.now = false → exec (.motionStrobe x) s = .next s) ∧
    (s.mot.mode = 1 → on_ → s.mot.setA = true → x.accBad = false → axisSat x.acc = false → s.fld fMOTCTL_HPK = 0 → s.fld fMOTCTL_LPK = 0 →
      s.mot.lastA = [] → ready (s.motInstant s.mot.n).1 → s.inSlice 50 53 = false → ∃ t : State, exec (.motionStrobe x) s = .next t ∧
        t.mot.n = s.mot.n + 1 ∧ t.fld (fMOTLASTA_WORD 0) = (sampleRecord 1 s.mot.n x.acc false false).1 ∧
        t.fld (fMOTLASTA_WORD 1) = (sampleRecord 1 s.mot.n x.acc false false).2 ∧ t.mot.recorded = s.mot.recorded + 1 ∧
        t.fld fMOTMISS_MISSED = s.fld fMOTMISS_MISSED ∧ s.besides t) ∧
    (s.mot.mode = 1 → s.blockOn 20 = true → ready (s.motInstant s.mot.n).1 → s.inSlice 50 53 = true → ∃ t : State,
      exec (.motionStrobe x) s = .next t ∧ t.mot.n = s.mot.n + 1 ∧ t.mot.timeOwed = true ∧
        t.fld fMOTMISS_MISSED = satAdd 0xFFFF (s.fld fMOTMISS_MISSED) 1 ∧ s.besidesAll t) ∧
    (s.mot.mode = 3 → s.mot.n = s.fld fMOTCAP_NCAP → ready (s.motInstant s.mot.n).1 → s.mot.fifo = [] → s.mot.upload = false →
      ∃ t : State, exec .captureEnd s = .next t ∧ t.mot.mode = 0 ∧ t.on fMOTCTL_AEN = false ∧ t.on fMOTCTL_GEN = false ∧ t.on fMOTFLAG_CAPDONE = true ∧
        s.besides t) ∧
    (s.mot.mode = 0 → exec .captureEnd s = .next s) ∧
    (s.on fMOTSTAT_ARUN = true → exec (.sensorSettled false) s = .next { s with mot := { s.mot with setA := true } }) ∧
    (s.on fMOTSTAT_GRUN = true → exec (.sensorSettled true) s = .next { s with mot := { s.mot with setG := true } }) ∧
    (s.on fMOTSTAT_GRUN = false → exec (.sensorSettled true) s = .next s ∧ exec (.motionDataTimeout true) s = .next s) ∧
    (s.on fMOTSTAT_ARUN = true → s.mot.setA = true → s.mot.mode = 1 → s.mot.tmoA < 7 → ∃ t : State, exec (.motionDataTimeout false) s = .next t ∧
      t.on fMOTFLAG_TMO = true ∧ t.mot.n = s.mot.n + 1 ∧ t.mot.tmoA = s.mot.tmoA + 1 ∧ t.mot.setA = true ∧
      t.fld fMOTMISS_MISSED = satAdd 0xFFFF (s.fld fMOTMISS_MISSED) 1 ∧ s.besides t) ∧
    (s.on fMOTSTAT_ARUN = true → s.mot.setA = true → s.mot.mode = 1 → s.mot.tmoA = 7 → ∃ t : State, exec (.motionDataTimeout false) s = .next t ∧
      t.mot.setA = false ∧ t.mot.tmoA = 0 ∧ s.besides t) ∧
    (s.mot.mode = 4 → s.mot.desc = none → s.fld fMOTCTL_INCLK = 0 → ∃ t : State,
      exec (.inclDone (16 * a) (16 * b) (16 * c) e false) s = .next t ∧ t.fld (fMOTINC_MEAN 0) = wrapInt 32 (256 * a) ∧
        t.fld (fMOTINC_MEAN 1) = wrapInt 32 (256 * b) ∧ t.fld (fMOTINC_MEAN 2) = wrapInt 32 (256 * c) ∧ t.fld fMOTTEMP_TEMP = wrapInt 16 e ∧
        t.on fMOTFLAG_INCLDONE = true ∧ t.mot.mode = 0 ∧ s.besidesAll t) ∧
    (s.mot.mode = 4 → s.mot.desc = some d → ∃ t : State, exec (.inclDone a b c e true) s = .next (t.complete d stOK (t.fld fMOTTEMP_TEMP)
      (((List.range 3).map (fun n => leBytes 4 (t.fld (fMOTINC_MEAN n)))).flatten)) ∧ t.on fMOTSTAT_INCLBAD = true ∧ t.mot.mode = 0 ∧ t.mot.desc = none ∧
        (∀ n < 3, t.fld (fMOTINC_MEAN n) = s.fld (fMOTINC_MEAN n)) ∧ s.besidesAll t) ∧
    (s.mot.mode ≠ 4 → exec (.inclDone a b c e true) s = .next s) ∧
    (s.mot.mode ≠ 5 → exec (.motionSelftestDone i j true) s = .next s) ∧
    (s.mot.mode = 5 → s.mot.tries < 3 → exec (.motionSelftestDone i j true) s =
      .next { s with mot := { s.mot with tries := s.mot.tries + 1 } }) ∧
    (s.mot.mode = 5 → s.mot.desc = some d → dsArg d 0 = 0 → ∃ t : State, exec (.motionSelftestDone 7 j false) s = .next (t.complete d stOK 0 []) ∧
      t.fld fMOTSTRES_APASS = 7 ∧ t.fld fMOTSTRES_GPASS = 0 ∧ t.on fMOTFLAG_STDONE = true ∧ t.mot.mode = 0 ∧ t.mot.desc = none ∧ s.besides t) ∧
    (s.mot.mode = 5 → s.mot.desc = some d → i < 7 → ∃ t : State, exec (.motionSelftestDone i j false) s = .next (t.complete d 0x60 0 []) ∧
      t.fld fMOTSTRES_APASS = i ∧ t.on fMOTFLAG_STDONE = true ∧ t.on fMOTFLAG_STFAIL = true ∧ t.mot.mode = 0 ∧ s.besides t) ∧
    (s.blockOn 21 = true → s.on fMOTSTAT_ARUN = true → s.fld fRGCTL_REN = 0 → s.on fKNCFG_EN = false → ∃ t : State,
      exec (.shockSample i j k) s = .next t ∧ t.fld fRGSHOCK_X = min 255 i ∧ t.fld fRGSHOCK_Y = min 255 j ∧ t.fld fRGSHOCK_Z = min 255 k ∧
        t.mot = s.mot ∧ s.besidesAll t) ∧
    (s.on fMOTSTAT_ARUN = false → s.on fMOTSTAT_WATCH = false → exec (.shockSample i j k) s = .next s))

/-- Frames that come down (R164, R184, R188 to R198, R201, R203, R206): a frame that fails the checks is counted and dropped; a beacon sets line time
and tells its walk; a grant gives the slots asked for; a descriptor in order is taken and acknowledged, a repeat acknowledged again, and at a
Crossing one for its walk relayed; ACKF ends a JOIN and carries tokens; a probe that matches and a RANGE frame are answered with a pulse; ASSIGN gives
an address, takes it away, or asks for a JOIN; a TIME frame stores the propagation delay. -/
def Obligations.NodeFrames : Prop :=
  ∀ (s : State) (f : Frame) (rx : LineRx) (p q : BitVec 16) (g : Nat), s.awake = true → s.node.seqRx.length = 4 →
    s.rst.tokWait = none →
    let cell := s.role = .cell
    let comes := fun (n : Nat) => frameOk false false f = true ∧ frType f = n ∧ frWake f = false
    let heard := fun (t : State) => t.on fLASTAT_LOCK = true ∧ t.fld fLASTAT_RATE = rx.rate.val ∧ t.fld fLASTAT_SWING = rx.swing.toNat
    let node := fun (t : State) => heard t ∧ s.besidesAll { t with node := s.node }
    let seq := bitsOf f.hdr 32 8
    let last := s.node.seqRx.getD (frRing f) 0
    let takes := s.rst.booted = true ∧ s.on fBOOTSTAT_RECOV = false ∧ s.rst.resetDue = false
    let plain := bitAt f.hdr 53 = false ∧ frTok f = none
    let mine := payNat f 0 8 = s.uid
    (s.onWalk = true → frameOk false false f = false → exec (.beacon f rx p q) s = .next ((s.rxNote rx).badFrame) ∧
      exec (.grant f rx) s = .next ((s.rxNote rx).badFrame) ∧ exec (.desc f rx false) s = .next ((s.rxNote rx).badFrame) ∧
      exec (.ackf .attached f rx) s = .next ((s.rxNote rx).badFrame) ∧ exec (.probe f rx) s = .next ((s.rxNote rx).badFrame) ∧
      exec (.assign f rx) s = .next ((s.rxNote rx).badFrame) ∧ exec (.range (.heard f rx)) s = .next ((s.rxNote rx).badFrame) ∧
      exec (.timeFrame f rx) s = .next ((s.rxNote rx).badFrame)) ∧
    (s.onWalk = false → exec (.beacon f rx p q) s = .next s ∧ exec (.desc f rx false) s = .next s) ∧
    (s.onWalk = true → exec (.frameDiscarded .attached none rx) s = .next ((s.rxNote rx).badFrame)) ∧
    (s.onWalk = true → ∃ t : State, .next t = exec (.frameDiscarded .attached none rx) s ∧ heard t ∧
      t.fld fLPCNT_CRCERR = satAdd (2 ^ fLPCNT_CRCERR.w - 1) (s.fld fLPCNT_CRCERR) 1 ∧ s.besidesAll t) ∧
    (cell → comes 0 → payNat f 12 1 = 1 → s.node.joined = true → s.untimed = true → ∃ t : State, exec (.beacon f rx p q) s = .next t ∧
      t.clk.line % 2 ^ 48 = (payNat f 0 6 + s.detection rx.rate.val / 6000) % 2 ^ 48 ∧ t.node.beaconAge = some 0 ∧ t.node.modCut = false ∧
      t.node.bWalk = payNat f 6 1 % 16 ∧ t.node.bSys = payNat f 8 4 ∧ t.on fLPSTAT_TRACK = true ∧ t.on fLPSTAT_HOLD = false ∧
      t.on fRTCSTAT_VALID = true ∧ t.fld fLPTERR_PHASE = p.toNat ∧ t.fld fLPTERR_RATE = q.toNat ∧ node t) ∧
    (cell → comes 1 → s.node.attn = true → f.payload.length = 2 → payNat f 0 2 = s.sweepIndex + 512 * 3 → ∃ t : State,
      exec (.grant f rx) s = .next t ∧ t.node.slots = 4 ∧ t.node.attn = false ∧ node t) ∧
    (cell → comes 1 → s.node.attn = false → ∃ t : State, exec (.grant f rx) s = .next t ∧ t.node = s.node ∧ node t) ∧
    (cell → comes 2 → s.forMe f = true → takes → plain → s.node.inbox = [] → s.node.up = [] → last < 256 → seq = (last + 1) % 256 →
      opAssigned (f.payload.getD 0 0).toNat = true → s.scr.held = [] → ∃ t : State, exec (.desc f rx false) s = .next t ∧
        t.node.inbox = [⟨.walk, frRing f, seq, 0, f.payload⟩] ∧ t.node.seqRx.getD (frRing f) 0 = seq ∧ frRing f ∈ t.node.ackDue ∧
        (t.fld fWAKESRC_SRC).testBit 3 = true ∧ node t) ∧
    (cell → comes 2 → s.forMe f = true → takes → plain → s.node.up = [] → seq = last → last < 256 → ∃ t : State,
      exec (.desc f rx false) s = .next t ∧ t.node.inbox = s.node.inbox ∧ t.node.seqRx = s.node.seqRx ∧ frRing f ∈ t.node.ackDue ∧ node t) ∧
    (cell → comes 2 → s.forMe f = false → ∃ t : State, exec (.desc f rx false) s = .next t ∧ t.node = s.node ∧ node t) ∧
    (s.role = .crossing → comes 2 → s.forRelay f = true → s.drv.dnOpen = false → s.drv.dn = [] → ∃ t : State,
      exec (.desc f rx false) s = .next t ∧ t.drv.dn = [⟨f, true, none, 0⟩] ∧ t.node = s.node ∧ s.besidesAll { t with drv := s.drv }) ∧
    (cell → comes 3 → s.forMe f = true → s.node.joinSent = true → plain → ∃ t : State, exec (.ackf .attached f rx) s = .next t ∧
      t.on fLINEADDR_VALID = true ∧ t.node.joined = true ∧ t.node.joinSent = false ∧ t.node.joinOwed = false ∧ node t) ∧
    (cell → comes 3 → s.forMe f = true → s.node.joinSent = false → frTok f = some g → ∃ t : State, exec (.ackf .attached f rx) s = .next t ∧
      t.pwr.grantPend = some g ∧ t.fld fPWRTOK_GRANT = s.fld fPWRTOK_GRANT ∧ node t) ∧
    (exec (.ackf .jack f rx) s = .next s) ∧
    (cell → comes 7 → s.canSend = true → s.sweepIndex = 271 → payNat f 8 1 < 16 →
      s.uid / 16 ^ (16 - payNat f 8 1) = payNat f 0 8 / 16 ^ (16 - payNat f 8 1) → ∃ t : State, exec (.probe f rx) s = .next t ∧
        t.out = .probePulse (s.uid / 16 ^ (15 - payNat f 8 1) % 16) :: s.out ∧ t.node = s.node ∧ heard t ∧ s.besides t) ∧
    (cell → comes 7 → s.sweepIndex ≠ 271 → ∃ t : State, exec (.probe f rx) s = .next t ∧ t.node = s.node ∧ node t) ∧
    (cell → comes 8 → mine → payNat f 8 1 = 0 → payNat f 10 1 = 0 → s.rst.booted = true → s.joining = false → ∃ t : State,
      exec (.assign f rx) s = .next t ∧ t.fld fLINEADDR_CELLADDR = (256 * s.node.bWalk + payNat f 9 1) % 4096 ∧ t.on fLINEADDR_VALID = false ∧
        t.node.stAddr = some (256 * s.node.bWalk + payNat f 9 1) ∧ t.node.stWalk = some s.node.bWalk ∧ t.node.joinOwed = true ∧
        t.node.joined = false ∧ t.node.seqRx = [0, 0, 0, 0] ∧ t.joining = true ∧ node t) ∧
    (cell → comes 8 → mine → payNat f 8 1 = 2 → s.rst.booted = true → ∃ t : State, exec (.assign f rx) s = .next t ∧
      t.on fLINEADDR_VALID = false ∧ t.node.stAddr = none ∧ t.node.joined = false ∧ t.on fLPFLAG_ADDRCLR = true ∧ node t) ∧
    (cell → comes 8 → mine → payNat f 8 1 = 1 → s.rst.booted = true → s.joining = false → ∃ t : State, exec (.assign f rx) s = .next t ∧
      t.fld fPWRTOK_GRANT = 0 ∧ t.node.joinOwed = true ∧ t.joining = true ∧ node t) ∧
    (cell → comes 8 → ¬ mine → payNat f 8 1 < 2 → ∃ t : State, exec (.assign f rx) s = .next t ∧ t.node = s.node ∧ node t) ∧
    (cell → comes 10 → s.forMe f = true → s.canSend = true → ∃ t : State, exec (.range (.heard f rx)) s = .next t ∧
      t.out = .rangePulse :: s.out ∧ t.node = s.node ∧ heard t ∧ s.besides t) ∧
    (cell → comes 11 → s.forMe f = true → ∃ t : State, exec (.timeFrame f rx) s = .next t ∧ t.fld fLPPROP_PROP = payNat f 0 2 ∧
      t.on fLPPROP_VALID = true ∧ 0 ∈ t.node.ackDue ∧ node t)

/-- What a node does at the line's times, and the Lectern session (R137, R186 to R189, R202, R204): a superframe ages the last beacon; the sweep is
answered with a pulse where the part wants a slot; a slot carries its frame; what is not acknowledged is sent again; without beacons the tokens are
gone; a frame on the jack opens a session, brings a descriptor, or starts recovery. -/
def Obligations.NodeTimes : Prop :=
  ∀ (s : State) (f : Frame) (rx : LineRx) (m : WalkMon) (x : Tx) (a k : Nat) (i : Nat) (valid : Bool), s.awake = true →
    s.rst.tokWait = none →
    let cell := s.role = .cell
    let node := fun (t : State) => s.besidesAll { t with node := s.node }
    let jack := s.hasJack = true ∧ s.on fLJSTAT_PRESENT = true ∧ s.on fLJSTAT_OV = false
    let sent := fun (n : Nat) => frameOk false true f = true ∧ frType f = n ∧ frRA f = true ∧ frAddr f = 0xFFF
    let want := s.wantsSlot = true
    (cell → s.node.beaconAge = some a → ∃ t : State, exec (.superframeStart m) s = .next t ∧ t.node.beaconAge = some (a + 1) ∧
      t.node.slots = 0 ∧ t.node.attn = false ∧ t.on fLPSTAT_TRACK = decide (a + 1 ≤ 2) ∧ node t) ∧
    (cell → s.drives = false → s.canSend = true → s.sweepIndex < 271 → want → ∃ t : State, exec (.attentionSweep []) s = .next t ∧
      t.out = .pulse .attached s.sweepIndex false :: s.out ∧ t.node.attn = true ∧ s.besides t) ∧
    (cell → s.drives = false → s.canSend = true → s.sweepIndex < 271 → s.wantsSlot = false → s.owes = true → ∃ t : State,
      exec (.attentionSweep []) s = .next t ∧ t.out = .pulse .attached s.sweepIndex true :: s.out ∧ t.node.attn = false ∧ s.besides t) ∧
    (cell → s.drives = false → s.canSend = false → ∃ t : State, exec (.attentionSweep []) s = .next t ∧ t.node = s.node ∧ s.besidesAll t) ∧
    (cell → s.canSend = true → s.node.slots = 1 → s.node.leaving = false → s.joining = false → s.node.up = [x] → x.sent = none →
      frType x.f = 5 → s.node.tokDue = false → ∃ (t : State) (g : Frame), exec (.uplinkSlot .attached i valid) s = .next t ∧
        t.out = .frame .attached g :: s.out ∧ g.payload = x.f.payload ∧ t.node.up = [{ x with sent := some 0, tries := x.tries + 1 }] ∧
        t.node.slots = 0 ∧ s.besides t) ∧
    (s.node.slots = 0 → exec (.uplinkSlot .attached i valid) s = .next s) ∧
    (s.drives = false → exec (.uplinkSlot .driven i valid) s = .next s) ∧
    exec (.uplinkSlot .jack i valid) s = .next s ∧
    (cell → s.node.up = [x] → x.sent = some a → 6 ≤ a → ∃ t : State, exec (.resendTimeout .attached) s = .next t ∧
      t.node.up = [{ x with sent := none }] ∧ t.fld fLPCNT_RESEND = satAdd (2 ^ fLPCNT_RESEND.w - 1) (s.fld fLPCNT_RESEND) 1 ∧ node t) ∧
    (s.node.up = [] → exec (.resendTimeout .attached) s = .next s) ∧
    (cell → s.node.beaconAge = some (k + 3) → ∃ t : State, exec .beaconMiss s = .next t ∧ t.on fLPFLAG_BMISS = true ∧
      t.fld fLPCNT_BMISS = satAdd (2 ^ fLPCNT_BMISS.w - 1) (s.fld fLPCNT_BMISS) 1 ∧ t.fld fPWRTOK_GRANT = 0 ∧ t.pwr.grantPend = none ∧ node t) ∧
    (s.node.beaconAge = some 2 → exec .beaconMiss s = .next s) ∧
    (s.hasJack = false → exec (.lecternFrame f) s = .next s ∧ exec (.frameDiscarded .jack none rx) s = .next s) ∧
    (s.hasJack = true → exec (.frameDiscarded .jack none rx) s = .next s.badFrame) ∧
    (jack → frameOk false true f = false → exec (.lecternFrame f) s = .next s.badFrame) ∧
    (jack → cell → sent 2 → s.rst.booted = true → s.rst.resetDue = false → s.node.inbox = [] → s.scr.held = [] →
      s.node.sessRx = [0, 0, 0, 0] → frRing f = 0 → bitsOf f.hdr 32 8 = 1 → opAssigned (f.payload.getD 0 0).toNat = true → ∃ (t : State) (g : Frame),
        exec (.lecternFrame f) s = .next t ∧ t.node.session = true ∧ t.node.inbox = [⟨.lectern, 0, 1, 0, f.payload⟩] ∧
        t.node.sessRx = [1, 0, 0, 0] ∧ t.out = .frame .jack g :: s.out ∧ frType g = 3 ∧ frAck g = 1 ∧ s.besides t) ∧
    (jack → cell → sent 13 → s.rhocoUp = true → s.rst.booted = true → s.rst.b7Window = true → ∃ t : State, exec (.lecternFrame f) s = .next t ∧
      t.on fBOOTSTAT_RECOV = true ∧ t.rst.autostart = none ∧ t.node.session = true ∧ node t) ∧
    (jack → s.role = .loop → sent 8 → payNat f 0 8 = s.uid → payNat f 8 1 = 0 → s.node.up = [] → ∃ t : State,
      exec (.lecternFrame f) s = .next t ∧ t.fld fLINEADDR_CELLADDR = payNat f 9 1 ∧ t.on fLINEADDR_VALID = true ∧
        t.node.sessAddr = some (payNat f 9 1) ∧ node t)

/-- Enrolment and the walk's descriptors (R21, R192, R193, R195, R197, R199, R200, R213), at the driver of the walk with no downlink period open: roll
call starts with the empty prefix and narrows to the nibbles that answered; a full prefix is assigned its bound position, or the lowest free;
positions are bound and released; the rate changes after its notice; ranging starts; time is stepped at a superframe that is to come; SET_WALK
sends its ASSIGN and waits for its Crossing. -/
def Obligations.LineDescriptors : Prop :=
  ∀ (s : State) (d : Desc) (uid pos n told tnew : Nat) (e : Enr), s.ready d = true → s.drv.dnOpen = false →
    let here := s.driverRing d = true ∧ s.drvWalk < 16
    let adr := 256 * s.drvWalk + pos
    let chapter := s.role = .chapter ∧ s.driverRing d = true
    let on_ := s.drives = true
    let grid := told % 32768 = 0 ∧ tnew % 32768 = 0 ∧ tnew < 2 ^ 48
    (s.driverRing d = false → exec (.rollCall d 0) s = .next (s.complete d stNOTROLE 0 []) ∧
      exec (.addrAssign d uid adr) s = .next (s.complete d stNOTROLE 0 []) ∧ exec (.lineRange d adr) s = .next (s.complete d stNOTROLE 0 [])) ∧
    (here → s.drives = false → exec (.rollCall d s.drvWalk) s = .next (s.complete d stWALKDOWN 0 [])) ∧
    (here → on_ → s.on fLPSTAT_ROLLING = true → exec (.rollCall d s.drvWalk) s = .next (s.complete d stROLLBUSY 0 [])) ∧
    (here → on_ → s.on fLPSTAT_ROLLING = false → ∃ t : State, exec (.rollCall d s.drvWalk) s = .next (t.complete d stOK 0 []) ∧
      t.drv.roll = some ⟨[(0, 0)], none, 0⟩ ∧ t.on fLPSTAT_ROLLING = true ∧ s.besidesAll { t with drv := s.drv }) ∧
    (here → uid < 2 ^ 64 → pos < 256 → s.drv.binds = [] → s.drv.enr = [] → exec (.addrAssign d uid adr) s =
      .next ({ s with drv := { s.drv with binds := [(uid, pos)] } }.complete d stOK 0 [])) ∧
    (here → uid < 2 ^ 64 → pos < 256 → s.drv.binds = [(uid + 1, pos)] → exec (.addrAssign d uid adr) s =
      .next (s.complete d stADDRINUSE 0 [])) ∧
    (here → pos < 256 → s.drv.enr = [] → exec (.addrRelease d adr) s = .next (s.complete d stNOTENROLLED 0 []) ∧
      exec (.lineRange d adr) s = .next (s.complete d stNOTENROLLED 0 [])) ∧
    (here → pos < 256 → s.drv.enr = [e] → e.pos = pos → s.drv.binds = [(e.uid, pos)] → ∃ t : State,
      exec (.addrRelease d adr) s = .next (t.complete d stOK 0 []) ∧ t.drv.enr = [] ∧ t.drv.binds = [] ∧
        t.drv.quar = s.drv.quar ++ [(e.held, 3, pos)] ∧ t.drv.granted = s.drv.granted - e.held ∧ s.besides t) ∧
    (here → n < 4 → exec (.lineSetup d s.drvWalk n 3 0) s = .next (s.complete d stINVALID 0 [])) ∧
    (here → on_ → n < 4 → n ≠ s.drvRate → ∃ t : State, exec (.lineSetup d s.drvWalk n 9 uid) s = .next (t.complete d stOK 0 []) ∧
      t.fld fLPCTL_SWOFS = 9 ∧ t.drv.system = some (uid % 2 ^ 32) ∧ t.drv.rateChg = some (n, 4) ∧ t.drvRate = s.drvRate ∧
      s.besidesAll { t with drv := s.drv }) ∧
    (here → pos < 256 → s.drv.enr = [e] → e.pos = pos → e.absent = true → exec (.lineRange d adr) s = .next (s.complete d stABSENT 0 [])) ∧
    (here → pos < 256 → s.drv.enr = [e] → e.pos = pos → e.absent = false → exec (.lineRange d adr) s =
      .next ({ s with drv := { s.drv with enr := [{ e with ranges := 8, rsum := 0 }] } }.complete d stOK 0 [])) ∧
    (chapter → grid → told < 2 ^ 48 → reached told s.now = false → exec (.timeSet d told tnew) s =
      .next ({ s with drv := { s.drv with timeStep := some (told, tnew) } }.complete d stOK 0 [])) ∧
    (chapter → grid → reached told s.now = true → exec (.timeSet d told tnew) s = .next (s.complete d stINVALID 0 [])) ∧
    (s.role = .cell → d.path = .lectern → grid → s.on fLPSTAT_TRACK = false → ∃ t : State, exec (.timeSet d told tnew) s =
      .next (t.complete d stOK 0 []) ∧ t.on fRTCSTAT_SETPEND = true ∧ t.fld fRTCSETL_TIME + 2 ^ 32 * t.fld fRTCSETH_TIME = tnew ∧
        s.besidesAll t) ∧
    (s.role = .cell → d.path = .lectern → grid → s.on fLPSTAT_TRACK = true → exec (.timeSet d told tnew) s =
      .next (s.complete d stBUSY 0 [])) ∧
    (exec (.timeQuery d) s = .next (s.complete d stOK (s.now % 2 ^ 32)
      (leBytes 8 s.now ++ ([rLPSTAT, rLPPROP, rLPTERR].map (fun a => leBytes 4 (s.reg a).toNat)).flatten))) ∧
    (chapter → 15 < n → exec (.setWalk d uid n) s = .next (s.complete d stINVALID 0 [])) ∧
    (chapter → n < 16 → s.drv.found = [] → s.drv.xings = [] → exec (.setWalk d uid n) s = .next (s.complete d stNOTENROLLED 0 [])) ∧
    (chapter → 0 < n → n < 16 → uid < 2 ^ 64 → s.drv.found = [uid] → s.drv.xings = [⟨n, uid + 1, 0, 0, false, false, 256, 0, 0⟩] →
      exec (.setWalk d uid n) s = .next (s.complete d stWALKINUSE 0 [])) ∧
    (chapter → n < 16 → uid < 2 ^ 64 → s.drv.found = [uid] → s.drv.xings = [] → s.drv.dn = [] → ∃ t : State,
      exec (.setWalk d uid n) s = .next t ∧ t.drv.pendWalk = some ⟨uid, n, d, 0⟩ ∧ t.drv.dn = [⟨assignFrame uid 0 n 1, false, none, 0⟩] ∧
        s.besidesAll { t with drv := s.drv })

/-- What happens on a driven walk (R21, R184 to R196, R205 to R207, R236, R239, R240, R572), with no downlink period open: a window's answers extend
the prefixes, or are assigned; at a full second the driver sends its beacon; the sweep shows who is silent and who asks, and a grant answers; slots
without a frame add up; a JOIN enrols; a completion, a record, stream bytes and a report reach the host's rings; what fails the checks is counted;
a SET_WALK that is not confirmed in 8 superframes ends; ranging sends its mean; a DESC is sent again. -/
def Obligations.LineEvents : Prop :=
  ∀ (s : State) (d : Desc) (f : Frame) (rx : LineRx) (m : WalkMon) (e : Enr) (h : Held) (r : Ring) (c : Credit) (k : Nat),
    s.drives = true → s.drv.dnOpen = false →
    let comes := fun (n : Nat) => frameOk true false f = true ∧ frType f = n
    let seq := bitsOf f.hdr 32 8
    let chapter := s.role = .chapter
    let rest := fun (t : State) => t.role = s.role ∧ t.dec = s.dec ∧ t.cant = s.cant ∧ t.mem = s.mem ∧ t.pending = s.pending
    let mute := s.on fCLKSTAT_FORCED = false
    let host := s.hostReady = true ∧ s.scr.failed = false
    let known := frRA f = false ∧ cellWalk (frAddr f) = 0 ∧ s.drv.enr = [e] ∧ e.pos = frAddr f ∧ e.absent = false ∧ e.ranges = 0
    let plain := frTok f = none ∧ frWin f = none
    let next := seq = (mapAt s.drv.seqRx (frKey f) + 1) % 256 ∧ mapAt s.drv.seqRx (frKey f) < 256
    (s.drv.roll = none → exec (.probeWindowEnd 1#16 0#16) s = .next s) ∧
    (s.drv.roll = some ⟨[], some (0, 0), 0⟩ → ∃ t : State, exec (.probeWindowEnd 0x8001#16 0#16) s = .next t ∧
      t.drv.roll = some ⟨[(0, 1), (15 * 16 ^ 15, 1)], none, 0⟩ ∧ s.besidesAll { t with drv := s.drv }) ∧
    (s.drv.roll = some ⟨[(7, 3)], some (k * 16, 15), 0⟩ → s.drv.binds = [] → s.drv.enr = [] → s.drv.dn = [] → ∃ t : State,
      exec (.probeWindowEnd 4#16 0#16) s = .next t ∧ t.drv.roll = some ⟨[(7, 3)], none, 1⟩ ∧ t.drv.binds = [(k * 16 + 2, 0)] ∧
        t.drv.dn = [⟨assignFrame (k * 16 + 2) 0 0 0, false, none, 0⟩] ∧ s.besidesAll { t with drv := s.drv }) ∧
    (frameOk true false f = false → exec (.compl f) s = .next s.badFrame ∧ exec (.eventFrame f) s = .next s.badFrame ∧
      exec (.streamFrame f) s = .next s.badFrame ∧ exec (.report f) s = .next s.badFrame ∧ exec (.join f) s = .next s.badFrame ∧
      exec (.ackf .driven f rx) s = .next s.badFrame) ∧
    (s.drv.conflicts = [] → s.drv.binds = [(5, 3)] → s.drv.enr = [] → ∃ t : State, exec (.frameDiscarded .driven (some 3) rx) s = .next t ∧
      t.drv.conflicts = [(3, 1)] ∧ t.fld fLPCNT_CRCERR = satAdd (2 ^ fLPCNT_CRCERR.w - 1) (s.fld fLPCNT_CRCERR) 1 ∧
        s.besidesAll { t with drv := s.drv }) ∧
    (chapter → s.now % 32768 = 0 → m.babble = false → mute → s.drv.granted = 0 → s.drv.freed = 0 → s.drv.enr = [] → s.drv.xings = [] →
      s.drv.quar = [] → s.drv.reqs = [] → s.drv.dn = [] → s.drv.ackDue = [] → s.drv.tokDue = [] → s.drv.rateChg = none → s.drv.rateWatch = none →
      s.drv.timeStep = none → s.drv.pendWalk = none → s.drv.roll = none → s.fld fTAGSTAT_FREE = 1024 → s.scr.held = [] →
      s.drv.syncOut = true → s.on fCLKSTAT_HOLDOVER = true → s.on fLPCTL_MUSTER = false → m.iwalk.toNat < 16 → ∃ t : State,
        exec (.superframeStart m) s = .next t ∧ t.fld fWDMON_IWALK = m.iwalk.toNat ∧ t.fld fWDMON_VWALK = m.vwalk.toNat ∧
        t.drv.beacons = s.drv.beacons + 1 ∧ t.drv.dnOpen = true ∧ t.drv.dnRoom = downBits s.drvRate s.drvSwofs ∧
        t.out = .frame .driven (t.beaconFrame s.now false) :: s.out ∧ rest t) ∧
    (chapter → mute → s.drv.roll = none → s.drv.enr = [e] → s.drv.xings = [] → e.absent = false → e.more = false → e.pos = 3 → s.drv.muster = false →
      1 ≤ upSlots s.drvRate s.drvSwofs → ∃ t : State, exec (.attentionSweep [(3, true)]) s = .next t ∧ t.drv.slotsFor = [(3, 1)] ∧
        t.drv.dnOpen = false ∧ t.drv.quietLast = true ∧ t.drv.enr = [{ e with silent := 0, missed := 0 }] ∧
        t.out = .frame .driven (bcast 1 0 [3, 0]) :: s.out ∧ rest t) ∧
    (chapter → s.drv.slotsFor = [(3, 1)] → s.drv.enr = [e] → e.pos = 3 → e.badSlots < 7 → s.drv.rateWatch = none → ∃ t : State,
      exec (.uplinkSlot .driven 3 false) s = .next t ∧ t.drv.slotsFor = [] ∧ t.drv.enr = [{ e with badSlots := e.badSlots + 1 }] ∧ rest t) ∧
    (s.drv.slotsFor = [(3, 1)] → s.drv.enr = [e] → e.pos = 3 → e.badSlots = 7 → e.absent = false → ∃ t : State,
      exec (.uplinkSlot .driven 3 false) s = .next t ∧ t.drv.enr.all (fun x => x.absent) = true ∧ t.on fLPFLAG_ABSENT = true ∧
        t.drv.quar = s.drv.quar ++ [(e.held, 3, 3)]) ∧
    (chapter → comes 9 → frRA f = false → cellWalk (frAddr f) = 0 → s.drv.enr = [] → payNat f 12 1 = 0 → ∃ t : State,
      exec (.join f) s = .next t ∧ (t.drv.enr.map (fun x => (x.pos, x.uid, x.absent, x.held, x.ranges))) =
        [(frAddr f, payNat f 0 8, false, 0, 8)] ∧ (t.credit (4 * frAddr f)).g = payNat f 8 1 ∧ rest t) ∧
    (chapter → comes 4 → known → plain → next → host → s.scr.held = [h] → h.phase = 2 → ringKey h.ring = frKey f → h.seq = (f.payload.getD 13 0).toNat →
      s.scr.rings = [r] → r.n = h.ring → r.st = 1 → r.kind = 0 → r.log2n = 4 → r.ctail = 0 → r.ch = 0 → r.done = [] → r.dhead = h.slot →
      r.signal = false → (s.credit (frKey f)).staleSeq = [] → s.scr.lost = [] → dsOpcode h.d = 1 → ∃ t : State, exec (.compl f) s = .next t ∧
        t.scr.held = [] ∧ mapAt t.drv.seqRx (frKey f) = seq ∧ (t.scr.rings.map (fun q => q.ctail)) = [1] ∧
        .hostWrite r.cbase f.payload ∈ t.out ∧ rest t) ∧
    (chapter → comes 5 → known → plain → next → host → s.scr.rings = [r] → r.n = keyRing (frKey f) → r.st = 1 → r.kind = 1 → r.log2n = 4 →
      r.p = 0 → r.dhead = 0 → r.signal = false → ∃ t : State, exec (.eventFrame f) s = .next t ∧
        (t.scr.rings.map (fun q => q.dhead)) = [1] ∧ .hostWrite r.dbase f.payload ∈ t.out ∧ mapAt t.drv.seqRx (frKey f) = seq ∧ rest t) ∧
    (chapter → comes 6 → frRing f = 0 → known → plain → next → s.scr.held = [h] → h.phase = 2 → ringKey h.ring = frKey f → h.rlen = 0 →
      s.scr.lost = [] → s.scr.credits = [] → s.drv.fwd = [] → dsResbuf h.d = true → 64 ≤ dsReslen h.d → ∃ t : State,
        exec (.streamFrame f) s = .next t ∧ t.out = .hostWrite (dsResaddr h.d) f.payload :: s.out ∧
        (t.scr.held.map (fun x => x.rlen)) = [f.payload.length] ∧ rest t) ∧
    (chapter → comes 12 → frRA f = true → s.drv.xings = [⟨frAddr f, k, 0, 0, false, false, 256, 0, 0⟩] → next → f.payload.length = 16 →
      leNat (f.payload.take 2) = 0x0006 → s.drv.dn = [] → ∃ t : State, exec (.report f) s = .next t ∧ mapAt t.drv.seqRx (frKey f) = seq ∧
        frKey f ∈ t.drv.ackDue ∧ rest t) ∧
    (chapter → comes 3 → known → frTok f = none → frWin f = some k → s.scr.credits = [c] → c.ring = frKey f → c.known = true → s.scr.held = [] →
      s.drv.fwd = [] → s.drv.pendWalk = none → ∃ t : State, exec (.ackf .driven f rx) s = .next t ∧ (t.credit (frKey f)).g = k ∧
        (t.credit (frKey f)).c = c.c ∧ rest t) ∧
    (∀ a, s.drv.pendWalk = some ⟨k, 2, d, a⟩ → 8 ≤ a → exec .setWalkTimeout s =
      .next ({ s with drv := { s.drv with pendWalk := none } }.complete d stABSENT 0 [])) ∧
    (s.drv.pendWalk = none → exec .setWalkTimeout s = .next s) ∧
    (s.drv.enr = [e] → e.pos = 3 → e.ranges = 1 → s.drv.dn = [] → ∃ t : State, exec (.range (.measured 3 k)) s = .next t ∧
      t.drv.enr = [{ e with ranges := 0, rsum := e.rsum + rangeTwoP s.drvRate k }] ∧
      t.drv.dn = [⟨⟨mkHdr 0xB 0 0 0 (s.addrOf 3) 0 2 0 0 0 0, leBytes 2 (propOf (e.rsum + rangeTwoP s.drvRate k))⟩, false, none, 0⟩] ∧
      s.besidesAll { t with drv := s.drv }) ∧
    (s.drv.enr = [e] → e.pos = 3 → e.ranges = 2 → exec (.range (.measured 3 k)) s =
      .next { s with drv := { s.drv with enr := [{ e with ranges := 1, rsum := e.rsum + rangeTwoP s.drvRate k }] } }) ∧
    (chapter → s.drv.dn = [⟨f, false, some 6, 1⟩] → frType f = 2 → ∃ t : State, exec (.resendTimeout .driven) s = .next t ∧
      t.drv.dn = [⟨f, false, none, 1⟩] ∧ t.fld fLPCNT_RESEND = satAdd (2 ^ fLPCNT_RESEND.w - 1) (s.fld fLPCNT_RESEND) 1 ∧
      s.besidesAll { t with drv := s.drv }) ∧
    (chapter → s.drv.dn = [] → exec (.resendTimeout .driven) s = .next s) ∧
    exec (.resendTimeout .jack) s = .next s

/-- WAIT, alarms and GP wakes, and the descriptors of block 4 (R79, R80, R82, R83, R84, R93, R257, R271, Table 4.2): WAIT in supervisor state dozes, is
given up for a wake that is there, is refused where the role has no such state or a block is active, and takes a part with nothing active to
CLOISTER; in user state it traps; Cantoris alone waits. An alarm is armed and fires once; an edge that WAKECFG selects is latched. -/
def Obligations.Sleep : Prop :=
  ∀ (s : State) (i : Issue) (d : Desc) (n : Fin 3) (hi : BitVec 16) (g : Fin 4) (target : BitVec 3) (mw up : Bool) (off : Nat) (v : Word),
    let dec := s.issuesOn i = true ∧ i.core = .decani ∧ s.dec.sup = true ∧ s.dec.deaf = true
    let dozes := { s.retired i 1 (fun k => { k with waiting := true }) with slp := { s.slp with st := .doze } }
    let none_ := s.fld fWAKESRC_SRC = 0
    let quiet_ := s.fld fSACCLAIM_CLAIM = 0 ∧ s.st.running = false
    let when_ := s.fld (fWAKEALML_TIME n.val) + hi.toNat * 2 ^ 32
    let armed := s.fld (fWAKEALML_TIME n.val) + 2 ^ 32 * s.fld (fWAKEALMH_TIME n.val)
    (s.issuesOn i = true → (s.core i.core).sup = false → ∃ x, exec (.wait i) s = .next (s.trapped i 1 (s.trapIn i 0x02 0 none (some x)))) ∧
    (dec → none_ → s.fld fPWRCTL_STATE ≤ 1 → exec (.wait i) s = .next dozes) ∧
    (dec → s.fld fWAKESRC_SRC = 8 → (s.fld fWAKEEN_ALL).testBit 3 = true → exec (.wait i) s =
      .next ((s.retired i 1 (fun k => k)).setFld fSLPSTAT_ABORTED 1)) ∧
    (dec → none_ → s.fld fPWRCTL_STATE = 3 → s.role = .loop → exec (.wait i) s =
      .next (dozes.sets [(fSLPSTAT_REFUSED, 1), (fSLPSTAT_NOTROLE, 1), (fSLPSTAT_BUSY, 0)])) ∧
    (dec → none_ → s.fld fPWRCTL_STATE = 2 → s.role = .cell → s.busyMask .cloister ≠ 0 → exec (.wait i) s =
      .next (dozes.sets [(fSLPSTAT_REFUSED, 1), (fSLPSTAT_BUSY, s.busyMask .cloister)])) ∧
    (dec → none_ → s.fld fPWRCTL_STATE = 2 → s.role = .cell → s.busyMask .cloister = 0 → quiet_ → s.dec.dc = [] → s.cant.dc = [] →
      s.descCache = [] → s.cant.sbuf = [] → s.dec.sbuf = [] → s.mem.writing = [] → ∃ t : State, exec (.wait i) s = .next t ∧
        t.slp.entering = some .cloister ∧ t.slp.st = .doze ∧ t.dec.waiting = true ∧ t.dec.ic = [] ∧ t.on fCLKCTL_PLLEN = false ∧
        t.on fCLKSTAT_HFOK = false ∧ t.slp.savedPllen = s.fld fCLKCTL_PLLEN ∧ t.pads.asleep = true ∧ t.role = s.role ∧ t.pending = s.pending) ∧
    (s.issuesOn i = true → i.core = .cantoris → s.cant.sup = true → s.anyPending .cantoris = false → ∃ t : State, exec (.wait i) s = .next t ∧
      t.cant.waiting = true ∧ t.fld fCANTSTAT_STATE = 4 ∧ t.slp = s.slp ∧ t.dec = s.dec ∧ t.mem = s.mem) ∧
    (s.slp.deferred = some .cloister → s.slp.st = .doze → quiet_ → s.mem.writing = [] → s.dec.sbuf = [] → s.cant.sbuf = [] → ∃ t : State,
      exec .deferredEntryStart s = .next t ∧ t.slp.entering = some .cloister ∧ t.slp.deferred = none ∧ t.on fSLPSTAT_DEFERRED = false ∧
        t.dec.waiting = true ∧ t.role = s.role ∧ t.pending = s.pending) ∧
    (s.slp.deferred = none → exec .deferredEntryStart s = .next s) ∧
    (s.slp.deferred = some .cloister → s.st.running = true → exec .deferredEntryStart s = .next s) ∧
    (∃ t : State, exec (.alarmArm .sacristy n hi) s = .next t ∧ t.on (fWAKEALMH_ARM n.val) = true ∧ t.fld (fWAKEALMH_TIME n.val) = hi.toNat ∧
      t.on (fWAKEALMH_LATE n.val) = past when_ s.now ∧ t.fld (fWAKEALML_TIME n.val) = s.fld (fWAKEALML_TIME n.val) ∧ s.besidesAll t) ∧
    (n.val < 2 → s.awake = true → s.on (fWAKEALMH_ARM n.val) = true → reached armed s.now = true → exec (.alarmFire n) s = .next
      ((s.setFld (fWAKEALMH_ARM n.val) 0).setFld fWAKESRC_SRC (s.fld fWAKESRC_SRC ||| 2 ^ n.val))) ∧
    (reached armed s.now = false → exec (.alarmFire n) s = .next s) ∧
    (s.on (fWAKEALMH_ARM n.val) = false → exec (.alarmFire n) s = .next s) ∧
    (s.awake = true → s.on fPADSTAT_VIOLOW = false → s.fld fWAKECFG_GPEDGE = 0xFF → ∃ t : State, exec (.gpWakeEdge g up) s = .next t ∧
      t.fld fWAKESRC_SRC = s.fld fWAKESRC_SRC ||| 2 ^ (7 + g.val) ∧ t.pads.level = bitTo s.pads.level g.val up ∧ s.besidesAll t) ∧
    (s.on fPADSTAT_VIOLOW = false → s.fld fWAKECFG_GPEDGE = 0 → exec (.gpWakeEdge g up) s =
      .next { s with pads := { s.pads with level := bitTo s.pads.level g.val up } }) ∧
    (s.on fPADSTAT_VIOLOW = true → exec (.gpWakeEdge g up) s = .next s) ∧
    (s.ready d = true → (target = 0 ∨ 4 < target.toNat) → exec (.sleep d target mw none) s = .next (s.complete d stINVALID 0 []) ∧
      exec (.sleepPolicy d target v) s = .next (s.complete d stINVALID 0 [])) ∧
    (s.ready d = true → s.role = .crossing → 1 < target.toNat → target.toNat ≤ 4 → exec (.sleep d target mw none) s =
      .next (s.complete d stNOTROLE 0 []) ∧ exec (.sleepPolicy d target v) s = .next (s.complete d stNOTROLE 0 [])) ∧
    (s.ready d = true → s.role = .cell → 0 < target.toNat → target.toNat ≤ 4 → off < 2 ^ 32 → ∃ t : State,
      exec (.sleep d target mw (some off)) s = .next (t.complete d stOK 0 []) ∧ t.fld fPWRCTL_STATE = target.toNat ∧ t.on fPWRCTL_MWATCH = mw ∧
        t.on (fWAKEALMH_ARM 0) = true ∧ t.fld (fWAKEALML_TIME 0) + 2 ^ 32 * t.fld (fWAKEALMH_TIME 0) = (s.now + off) % 2 ^ 48 ∧ s.besidesAll t) ∧
    (s.ready d = true → s.role = .cell → 0 < target.toNat → target.toNat ≤ 4 → s.cfgBusy = false → ∃ t : State,
      exec (.sleepPolicy d target v) s = .next (t.complete d stOK 0 []) ∧ t.slp.policy = target.toNat ∧
        t.fld fWAKEEN_ALL % 32 = v.toNat % 32 ∧ t.on fWAKEEN_PWREV = v.getLsbD 6 ∧
        t.cfgCopy.body = Config.recordPut (Config.recordPut s.cfgCopy.body 20 target.toNat) 21 v.toNat ∧ s.besides t) ∧
    (s.ready d = true → exec (.wakeQuery d) s = .next (s.answers d [rSLPSTAT, rWAKESRC, rBANKLOST, rWAKECNT, rWAKEALML 0, rWAKEALMH 0,
      rWAKEALML 1, rWAKEALMH 1, rWAKEALML 2, rWAKEALMH 2]))

/-- The software reset, the watchdogs and the pads (R40, R42, R44, R45, R119, R123, R133, R135, R139): GO with the key resets; a wrong kick resets and
the right one reloads; a locked period stays; an expiry while the watchdogs count resets. HOLD freezes a pad as it is.
The test port (R43, R136, R280, R393, R560, R561, Table 17.7): BYPASS shifts by one bit; below the level no other instruction acts; EXTEST and
SAMPLE capture the pads and load the register; a debug access halts, steps and resumes a core, or reaches memory, where the level admits it, and is
logged where it does not. -/
def Obligations.SystemPadsAndTestPort : Prop :=
  (∀ (s : State) (v : Word) (line below : Bool) (n : Fin 16),
    let reset := fun (t : State) (k : Nat) => t.fld fRSTCAUSE_LAST = k ∧ (t.fld fRSTCAUSE_HIST).testBit k = true ∧ t.rst.hold = true ∧
      t.role = s.role ∧ t.latched = s.latched ∧ t.out = s.out ∧ t.pending = s.pending ∧ t.mem.otp = s.mem.otp ∧ t.tap = s.tap
    let up := s.rst.hold = false
    let pad : PadDrive := ⟨(s.padFunc n.val).1, (s.padFunc n.val).2 && !(s.on (fGPCFG_ODN n.val) && (s.padFunc n.val).1), s.fld (fGPCFG_PULL n.val)⟩
    (up → ∃ t : State, exec (.sysrstGo .sacristy line) s = .next t ∧ reset t (if line then 7 else 6)) ∧
    (up → s.fld fSACCLAIM_CLAIM = 0 → ∃ t : State, exec (.sysrstGo .nave false) s = .next t ∧ reset t 6) ∧
    (s.on fWDTCFG_LOCK = true → ∃ t : State, exec (.wdtcfgWrite .sacristy v) s = .next t ∧
      t.fld fWDTCFG_PERIOD = s.fld fWDTCFG_PERIOD ∧ t.rst = s.rst ∧ s.besidesAll t) ∧
    (s.on fWDTCFG_LOCK = false → v.toNat % 256 ≠ s.fld fWDTCFG_PERIOD → ∃ t : State, exec (.wdtcfgWrite .sacristy v) s = .next t ∧
      t.fld fWDTCFG_PERIOD = v.toNat % 256 ∧ t.fld fWDTCNT_REMAIN = 1024 * (v.toNat % 256) ∧
        t.rst.wdtWarn = false ∧ s.besidesAll t) ∧
    (exec (.wdtkick .sacristy 0xC0DE) s = .next { s.setFld fWDTCNT_REMAIN (1024 * s.fld fWDTCFG_PERIOD) with
      rst := { s.rst with wdtWarn := false } }) ∧
    (up → v ≠ 0xC0DE → ∃ t : State, exec (.wdtkick .sacristy v) s = .next t ∧ reset t 3) ∧
    (exec (.lrwdkick .sacristy 0x5A5A) s = .next { s with rst := { s.rst with lrwd := 1048576 } }) ∧
    (v ≠ 0x5A5A → exec (.lrwdkick .sacristy v) s = .next s) ∧
    (up → s.wdtCounts = true → s.on fWDTCFG_PERIOD = true → ∃ t : State, exec .watchdogExpiry s = .next t ∧ reset t 3) ∧
    (s.on fWDTCFG_PERIOD = false → exec .watchdogExpiry s = .next s ∧ exec .wdtWarn s = .next s) ∧
    (s.wdtCounts = true → s.on fWDTCFG_PERIOD = true → exec .wdtWarn s = .next { s with rst := { s.rst with wdtWarn := true } }) ∧
    (up → s.wdtCounts = true → s.on fBOOTSTAT_GOOD = false → ∃ t : State, exec .lastResortExpiry s = .next t ∧ reset t 4 ∧
      t.fld fBOOTSTAT_FAILS = satAdd 15 (s.fld fBOOTSTAT_FAILS) 1) ∧
    (s.wdtCounts = false → exec .watchdogExpiry s = .next s ∧ exec .lastResortExpiry s = .next s) ∧
    (fldOf v (fGPCFG_HOLD n.val) = 0 → s.pads.held = [] → ∃ t : State, exec (.gpcfgWrite .sacristy n v) s = .next t ∧
      t.fld (fGPCFG_PULL n.val) = fldOf v (fGPCFG_PULL n.val) ∧ t.on (fGPCFG_ODN n.val) = (fldOf v (fGPCFG_ODN n.val) != 0) ∧ t.pads = s.pads ∧
        s.besidesAll t) ∧
    (fldOf v (fGPCFG_HOLD n.val) = 1 → s.pads.held = [] → ∃ t : State, exec (.gpcfgWrite .sacristy n v) s = .next t ∧
      t.pads.held = [(n.val, pad)] ∧ t.on (fGPCFG_HOLD n.val) = true ∧ s.besidesAll t) ∧
    exec .vddioLow s = .next (s.setFld fPADSTAT_VIOLOW 1) ∧
    exec (.vddioGood below) s = .next (s.sets [(fPADSTAT_VIOLOW, 0), (fPADSTAT_VIO18, b2n below)]) ∧
    (∃ t : State, exec (.gpOvervoltage n) s = .next t ∧ t.fld fPADSTAT_OV = s.fld fPADSTAT_OV ||| 2 ^ n.val ∧ s.besidesAll t)) ∧
  (∀ (s : State) (obs : BitVec 6) (scan : List Bool) (a : Nat) (v : Word) (c : CoreId),
    let run := s.slp.st = .run
    let port := fun (t : State) => t.role = s.role ∧ t.node = s.node ∧ t.drv = s.drv ∧ t.hl = s.hl ∧ t.scr = s.scr ∧ t.pending = s.pending ∧
      t.slp = s.slp
    let full := 2 ≤ s.fld fSACDBG_LEVEL
    (exec (.bypass scan) s = .next { s with tap := { s.tap with ir := 0 }, out := .tdo ((false :: scan).take scan.length) :: s.out }) ∧
    exec .trst s = .next { s with tap := { s.tap with ir := 0 } } ∧
    (s.fld fSACDBG_LEVEL < 2 → exec (.extest obs scan) s = exec (.bypass scan) s ∧ exec (.samplePreload obs scan) s = exec (.bypass scan) s) ∧
    (run → full → scan ≠ [] → ∃ t : State, exec (.samplePreload obs scan) s = .next t ∧ t.tap.ir = 1 ∧
      t.tap.latch = (({ s with tap := { s.tap with ir := 1 } }.boundary obs) ++ scan).drop scan.length ∧ t.out.length = s.out.length + 1 ∧
      t.regs = s.regs ∧ t.pads = s.pads ∧ port t) ∧
    (run → full → scan ≠ [] → ∃ t : State, exec (.extest obs scan) s = .next t ∧ t.tap.ir = 2 ∧ t.scanDrives = true ∧
      t.tap.latch = (({ s with tap := { s.tap with ir := 2 } }.boundary obs) ++ scan).drop scan.length ∧ t.regs = s.regs ∧ port t) ∧
    (run → 2 ≤ s.fld fSACDBG_LEVEL → s.debugAdmits c = true → exec (.debugAccess c .halt) s =
      .next ({ s with tap := { s.tap with ir := 3 } }.setCore c { s.core c with dbgHalt := true })) ∧
    (run → s.debugAdmits .cantoris = true → exec (.debugAccess .cantoris .resume) s =
      .next ({ s with tap := { s.tap with ir := 3 } }.setCore .cantoris { s.cant with dbgHalt := false, dbgStep := false })) ∧
    (run → s.debugAdmits .decani = true → ∃ t : State, exec (.debugAccess .decani .resume) s = .next t ∧ t.dec.dbgHalt = false ∧
      t.rst.stopped = false ∧ t.regs = s.regs ∧ t.mem = s.mem ∧ port t) ∧
    (run → s.debugAdmits c = true → (s.core c).dbgHalt = true → ∃ t : State, exec (.debugAccess c .step) s = .next t ∧
      (t.core c).dbgStep = true ∧ (t.core c).pc = (s.core c).pc ∧ t.regs = s.regs ∧ t.mem = s.mem ∧ port t) ∧
    (run → s.fld fSACDBG_LEVEL = 0 → ∃ t : State, exec (.debugAccess c (.read .nave a)) s = .next t ∧ t.out = s.out ∧ t.tap.ir = 3 ∧
      t.sac.vlogN = s.sac.vlogN + 1 ∧ port t) ∧
    (run → full → s.on fSACSTAT_HELD = false → s.st.running = false → 0x30000000 ≤ a → a + 4 ≤ 0x30002000 → a % 4 = 0 →
      s.mem.badPar = [] → s.dec.dc = [] → s.cant.dc = [] → s.descCache = [] → ∃ t : State, exec (.debugAccess c (.read .sacristy a)) s = .next t ∧
        t.out = .reply a (s.mem.bytes a 4) :: s.out ∧ t.mem = s.mem ∧ port t) ∧
    (run → full → s.on fSACSTAT_HELD = false → s.st.running = false → 0x30000000 ≤ a → a + 4 ≤ 0x30002000 → a % 4 = 0 → s.dec.dc = [] → s.cant.dc = [] → s.descCache = [] →
      ∃ t : State, exec (.debugAccess c (.write .sacristy a v)) s = .next t ∧ t.mem.bytes a 4 = leBytes 4 v.toNat ∧
        t.out = s.out ∧ port t) ∧
    (s.slp.st = .off → exec (.debugAccess c .halt) s = .next s))

/-- The descriptors of block 21 (R488, R491 to R494, R497, Table 22.4), with nothing claimed: set-up writes its registers and leaves RUN; a program goes
into an engine's store unless it runs; engines start at PC 0 and stop; a timer is armed, or dropped when it is late; a tilt reference needs samples;
touch needs its engine and a period in range, starts with a calibration, and is set up only while it is off; queries return their registers. -/
def Obligations.RingerDescriptors : Prop :=
  ∀ (s : State) (d : Desc) (i : Nat), s.ready d = true → s.fld fSACCLAIM_CLAIM = 0 → s.ring.eng.length = 8 → s.touch.el.length = 4 →
    s.chor.eng.length = 8 → s.rootStopped = false →
    let mems := s.role = .cell ∨ s.role = .loop
    let n := dsArg d 0
    let off (e : Nat) : Prop := (s.fld fRGSTAT_RUNNING).testBit e = false
    let when_ := dsArgs d 2 6
    let rows := fun (l : List Nat) => (l.map (fun a => leBytes 4 (s.reg a).toNat)).flatten
    (s.role = .chapter → exec (.ringSetup d) s = .next (s.complete d stNOTROLE 0 []) ∧ exec (.touchStart d) s = .next (s.complete d stNOTROLE 0 []) ∧
      exec (.ringQuery d) s = .next (s.complete d stNOTROLE 0 [])) ∧
    (mems → s.fld fRGCTL_RUN = 0 → s.fld fRGSTAT_RUNNING = 0 → ∃ t : State, exec (.ringSetup d) s = .next (t.complete d stOK 0 []) ∧
      t.fld fRGCTL_RUN = 0 ∧ t.fld fRGCTL_LATEDROP = dsArg d 1 ∧ t.fld fRGCTL_REN = dsArg d 2 % 64 ∧ t.fld fRGCTL_EVMASK = dsArg d 3 % 16 ∧
      t.reg rSTEPCFG = BitVec.ofNat 32 (dsArgs d 12 2) ∧ t.fld fFFCFG_FFTHR = dsArg d 16 ∧ t.fld fTILTCFG_TTHR = dsArg d 24 ∧ s.besidesAll t) ∧
    (mems → (8 ≤ n ∨ dsArg d 2 = 0 ∨ 6 < dsArg d 2) → exec (.ringLoad d) s = .next (s.complete d stINVALID 0 [])) ∧
    (mems → n < 8 → dsArg d 1 < 31 → dsArg d 2 = 2 → off n → ∃ t : State, exec (.ringLoad d) s = .next (t.complete d stOK 0 []) ∧
      t.fld (fRGPROG_WORD (32 * n + dsArg d 1)) = dsArgs d 8 4 ∧ t.fld (fRGPROG_WORD (32 * n + dsArg d 1 + 1)) = dsArgs d 12 4 ∧ s.besidesAll t) ∧
    (mems → n < 8 → dsArg d 1 < 31 → dsArg d 2 = 2 → ¬ off n → exec (.ringLoad d) s =
      .next ((s.raise [fRGFLAG_STOREBUSY]).complete d 0x68 0 [])) ∧
    (mems → i < 8 → n = 2 ^ i → s.fld fRGCTL_RUN = 0 → s.fld fRGSTAT_RUNNING = 0 → ∃ t : State, exec (.ringStart d) s = .next (t.complete d stOK 0 []) ∧
      t.fld fRGCTL_RUN = n ∧ t.fld fRGSTAT_RUNNING = n ∧ t.fld (fRGPC_PC i) = 0 ∧ t.fld (fRGC_C0 i) = 0 ∧ t.eng i = {} ∧ s.besidesAll t) ∧
    (mems → i < 8 → n = 2 ^ i → s.fld fRGCTL_RUN = n → s.fld fRGSTAT_RUNNING = n → ∃ t : State, exec (.ringStop d) s = .next (t.complete d stOK 0 []) ∧
      t.fld fRGCTL_RUN = 0 ∧ t.fld fRGSTAT_RUNNING = 0 ∧ (t.eng i).waiting = false ∧ t.fld (fRGPC_PC i) = s.fld (fRGPC_PC i) ∧ s.besidesAll t) ∧
    (mems → 8 ≤ n → exec (.ringTimer d) s = .next (s.complete d stINVALID 0 [])) ∧
    (mems → n < 8 → past when_ s.now = false → ∃ t : State, exec (.ringTimer d) s = .next (t.complete d stOK 0 []) ∧ (t.eng n).due = some when_ ∧
      t.on (fRGTH_ARM n) = true ∧ t.on (fRGTH_LATE n) = false ∧ s.besidesAll t) ∧
    (mems → n < 8 → past when_ s.now = true → (s.fld fRGCTL_LATEDROP).testBit n = true → ∃ t : State,
      exec (.ringTimer d) s = .next (t.complete d 0x4A 0 []) ∧ (t.eng n).due = none ∧ t.on (fRGTH_ARM n) = false ∧ t.on (fRGTH_LATE n) = true ∧
        t.on fRGFLAG_LATE = true ∧ s.besidesAll t) ∧
    (mems → ∃ t : State, exec (.knockSetup d) s = .next (t.complete d stOK 0 []) ∧ t.fld fKNCFG_THR = dsArg d 1 ∧ t.on fKNCFG_EN = bitAt (dsArg d 0) 0 ∧
      t.fld fKNGAP_GAPMIN = dsArgs d 4 2 % 4096 ∧ t.fld fKNHOLD_HOLD = dsArg d 8 ∧ s.besidesAll t) ∧
    (mems → s.recogRate = none → exec (.tiltRef d) s = .next (s.complete d 0x69 0 [])) ∧
    (∀ x y z : Nat, mems → s.recogRate.isSome = true → s.ring.tilt = some ((x : Int), (y : Int), (z : Int)) → x < 2 ^ 31 → y < 2 ^ 31 → z < 2 ^ 31 →
      ∃ t : State, exec (.tiltRef d) s = .next (t.complete d stOK 0 []) ∧ t.reg (rTILTREF 0) = BitVec.ofNat 32 x ∧
        t.reg (rTILTREF 1) = BitVec.ofNat 32 y ∧ t.reg (rTILTREF 2) = BitVec.ofNat 32 z ∧ s.besidesAll t) ∧
    (mems → dsArgs d 2 2 % 1024 < 10 → exec (.touchSetup d) s = .next (s.complete d stINVALID 0 [])) ∧
    (mems → dsArgs d 2 2 % 1024 = 100 → s.touch.on = true → exec (.touchSetup d) s = .next (s.complete d stBUSY 0 [])) ∧
    (mems → dsArgs d 2 2 % 1024 = 100 → s.touch.on = false → ∃ t : State, exec (.touchSetup d) s = .next (t.complete d stOK 0 []) ∧
      t.fld fTCHCTL_PERIOD = 100 ∧ t.fld fTCHCTL_EN = s.fld fTCHCTL_EN ∧ t.fld fTCHCTL_ENG = n / 16 % 8 ∧ t.fld fTCHCFG_THR = dsArg d 4 ∧
      t.fld fTCHLIM_MIN = dsArgs d 8 2 ∧ s.besidesAll t) ∧
    (mems → 16 ≤ n → exec (.touchStart d) s = .next (s.complete d stINVALID 0 [])) ∧
    (mems → n = 1 → s.chRuns (s.fld fTCHCTL_ENG) = true → s.chor.touchEng = none → exec (.touchStart d) s = .next (s.complete d 0x6A 0 [])) ∧
    (mems → n = 1 → s.fld fCHSTAT_RUNNING = 0 → s.fld fTCHSTAT_FAULT % 2 = 1 → exec (.touchStart d) s = .next (s.complete d 0x6B 0 [])) ∧
    (mems → n = 1 → s.fld fCHSTAT_RUNNING = 0 → s.fld fCHCTL_EN = 0 → s.on fCHSTARTH_ARM = false → s.fld fTCHSTAT_FAULT = 0 → s.fld fTCHCTL_EN = 0 → ∃ t : State,
      exec (.touchStart d) s = .next (t.complete d stOK 0 []) ∧ t.touch.on = true ∧ t.fld fTCHCTL_EN = 1 ∧
        t.chor.touchEng = some (s.fld fTCHCTL_ENG) ∧ t.fld fCHSTAT_RUNNING = 2 ^ s.fld fTCHCTL_ENG ∧ (t.fld fTCHSTAT_CALIB).testBit 0 = true ∧
        (t.tchEl 0).cal = 8 ∧ s.besidesAll t) ∧
    (mems → s.touch.on = true → s.chor.touchEng = none → ∃ t : State, exec (.touchStop d) s = .next (t.complete d stOK 0 []) ∧ t.touch.on = false ∧
      t.fld fTCHCTL_EN = 0 ∧ s.besidesAll t) ∧
    (mems → n = 2 → ∃ t : State, exec (.touchCal d) s = .next (t.complete d stOK 0 []) ∧ (t.fld fTCHSTAT_CALIB).testBit 1 = true ∧
      (t.tchEl 1).cal = 8 ∧ (t.tchEl 1).sum = 0 ∧ t.tchEl 0 = s.tchEl 0 ∧ s.besidesAll t) ∧
    (mems → exec (.ringQuery d) s = .next (s.complete d stOK 0 (rows [rRGSTAT, rRGFLAG, rSTEPCNT, rKNCNT, rEVFSTAT, rRGSHOCK]))) ∧
    (mems → exec (.touchQuery d) s = .next (s.complete d stOK 0
      (rows ([rTCHSTAT, rTCHFLAG] ++ (List.range 4).map rTCHRAW ++ (List.range 4).map rTCHBASE))))

/-- A Ringer engine and touch (R488 to R491, R493, R494, R498): each instruction does what it says and the engine goes on; a trigger pends, a timer
that expires is one; touch counts until it is sure, and a faulted electrode comes back after three good counts. -/
def Obligations.RingerEngines : Prop :=
  ∀ (s : State) (n k imm c a : Nat), n < 8 → s.ring.eng.length = 8 → s.touch.el.length = 4 → s.slp.st = .run → imm < 2 ^ 16 →
    let e := s.eng n
    let pc := s.fld (fRGPC_PC n)
    let fl := s.fld (fRGPC_F n)
    let atWord := fun (w : Nat) => s.ringRuns n = true ∧ s.ringWord n = w ∧ e.icount < 31
    let goes := fun (t : State) (p : Nat) => t.fld (fRGPC_PC n) = p % 32 ∧ (t.eng n).icount = e.icount + 1 ∧
      t.fld fRGSTAT_RUNNING = s.fld fRGSTAT_RUNNING ∧ s.besidesAll t
    let v := s.ringVal n k
    let holds := [decide (Sys2Proof.signed 16 imm < v), decide (v < Sys2Proof.signed 16 imm), decide (Sys2Proof.signed 16 imm ≤ (v.natAbs : Int)),
      decide (v = Sys2Proof.signed 16 imm), (wrapInt 16 v &&& imm) != 0]
    let counter := if c = 0 then fRGC_C0 n else fRGC_C1 n
    let sum := (clampInt 0 65535 (s.fld counter + Sys2Proof.signed 16 imm)).toNat
    let due := (s.now + imm * 2 ^ k) % 2 ^ 48
    let time := s.fld (fRGTL_TIME n) + s.fld (fRGTH_TIME n) * 2 ^ 32
    (s.ringRuns n = false → exec (.ringerHalt n) s = .next s ∧ exec (.ringerTest n) s = .next s ∧ exec (.ringerEmit n) s = .next s) ∧
    (rgOp (s.ringWord n) ≠ 0 → exec (.ringerHalt n) s = .next s) ∧
    (atWord 0 → ∃ t : State, exec (.ringerHalt n) s = .next t ∧ (t.fld fRGSTAT_RUNNING).testBit n = false ∧ (t.fld fRGCTL_RUN).testBit n = false ∧
      t.fld (fRGPC_PC n) = pc ∧ s.besidesAll t) ∧
    (k < 64 → atWord (2 ^ 27 + k) → e.pend &&& k = 0 → ∃ t : State, exec (.ringerWait n) s = .next t ∧
      t.eng n = { e with waiting := true, mask := k, icount := 0 } ∧ (t.fld fRGSTAT_WAITING).testBit n = true ∧
        t.fld (fRGPC_PC n) = (pc + 1) % 32 ∧ s.besidesAll t) ∧
    (k < 64 → atWord (2 ^ 27 + k) → e.pend &&& k ≠ 0 → ∃ t : State, exec (.ringerWait n) s = .next t ∧
      t.eng n = { e with mask := k, pend := e.pend ^^^ (e.pend &&& k), trig := e.pend &&& k, icount := 0 } ∧
        t.fld (fRGPC_PC n) = (pc + 1) % 32 ∧ s.besidesAll t) ∧
    (k < 8 → c < 5 → atWord (2 * 2 ^ 27 + k * 2 ^ 24 + c * 2 ^ 21 + imm) → ∃ t : State, exec (.ringerTest n) s = .next t ∧
      t.fld (fRGPC_F n) = b2n (holds.getD c false) ∧ goes t (pc + 1)) ∧
    (c < 3 → a < 32 → atWord (3 * 2 ^ 27 + c * 2 ^ 21 + a * 2 ^ 16) → ∃ t : State, exec (.ringerBr n) s = .next t ∧
      goes t (if c = 2 ∨ c = fl then a else pc + 1) ∧ t.fld (fRGPC_F n) = fl) ∧
    (c < 2 → atWord (4 * 2 ^ 27 + c * 2 ^ 21 + imm) → ∃ t : State, exec (.ringerSetc n) s = .next t ∧ t.fld counter = imm ∧
      t.fld (fRGPC_F n) = fl ∧ goes t (pc + 1)) ∧
    (c < 2 → atWord (5 * 2 ^ 27 + c * 2 ^ 21 + imm) → ∃ t : State, exec (.ringerAddc n) s = .next t ∧ t.fld counter = sum ∧
      t.fld (fRGPC_F n) = b2n (decide (sum = 0)) ∧ goes t (pc + 1)) ∧
    (k < 8 → atWord (6 * 2 ^ 27 + k * 2 ^ 24 + imm) → ∃ t : State, exec (.ringerTrel n) s = .next t ∧ (t.eng n).due = some due ∧
      t.on (fRGTH_ARM n) = true ∧ t.on (fRGTH_LATE n) = false ∧ goes t (pc + 1)) ∧
    (atWord (7 * 2 ^ 27) → past time s.now = false → ∃ t : State, exec (.ringerTabs n) s = .next t ∧ (t.eng n).due = some time ∧
      t.on (fRGTH_ARM n) = true ∧ t.on (fRGTH_LATE n) = false ∧ goes t (pc + 1)) ∧
    (atWord (8 * 2 ^ 27) → ∃ t : State, exec (.ringerToff n) s = .next t ∧ (t.eng n).due = none ∧ t.on (fRGTH_ARM n) = false ∧ goes t (pc + 1)) ∧
    (k < 256 → s.ring.evf = [] → s.fld fEVFSTAT_DROPPED = 0 → atWord (9 * 2 ^ 27 + k) → ∃ t : State, exec (.ringerEmit n) s = .next t ∧
      (t.ring.evf.map (fun x => (x.w0, x.w1 % 2 ^ 16, x.w2))) = [(s.now % 2 ^ 32, s.now / 2 ^ 32, s.fld (fRGC_C1 n) * 2 ^ 16 + s.fld (fRGC_C0 n))] ∧
        t.fld fEVFSTAT_COUNT = 1 ∧ t.fld (fRGEMIT_IMM n) = k ∧ goes t (pc + 1)) ∧
    (s.awake = true → atWord (10 * 2 ^ 27) → ∃ t : State, exec (.ringerWake n) s = .next t ∧ t.on fRGFLAG_WAKE = true ∧
      (t.fld fWAKESRC_SRC).testBit 4 = true ∧ goes t (pc + 1)) ∧
    (k < 8 → k ≠ n → (s.fld fRGSTAT_RUNNING).testBit k = true → (s.eng k).waiting = false → (s.eng k).pend = 0 → atWord (11 * 2 ^ 27 + 2 ^ k) →
      ∃ t : State, exec (.ringerSignal n) s = .next t ∧ t.eng k = { s.eng k with pend := 32 } ∧ goes t (pc + 1)) ∧
    (s.ringRuns n = true → 32 ≤ e.icount + 1 → s.ringWord n = 8 * 2 ^ 27 → ∃ t : State, exec (.ringerToff n) s = .next t ∧
      (t.fld fRGSTAT_RUNNING).testBit n = false ∧ t.on fRGFLAG_RUNAWAY = true) ∧
    (k < 6 → (s.fld fRGSTAT_RUNNING).testBit n = true → e.waiting = true → e.mask = 0 → e.pend = 0 → exec (.ringerTrigger n k) s =
      .next { s with ring := { s.ring with eng := s.ring.eng.set n { e with pend := 2 ^ k } } }) ∧
    ((s.fld fRGSTAT_RUNNING).testBit n = false → exec (.ringerTrigger n k) s = .next s) ∧
    (e.due = some a → reached a s.now = true → (s.fld fRGSTAT_RUNNING).testBit n = true → e.waiting = false → e.pend = 0 → ∃ t : State,
      exec (.ringerTimerExpiry n) s = .next t ∧ t.eng n = { e with due := none, pend := 4 } ∧ t.on (fRGTH_ARM n) = false ∧ s.besidesAll t) ∧
    (e.due = none → exec (.ringerTimerExpiry n) s = .next s) ∧
    (s.touch.on = false → exec (.touchMeasurement []) s = .next s ∧ exec (.touchRetry 0 none) s = .next s) ∧
    (s.touch.on = true → s.fld fTCHCTL_EN = 1 → s.fld fTCHSTAT_FAULT = 0 → (s.tchEl 0).cal = 1 → (s.tchEl 0).sum = 7 * imm →
      s.fld fTCHLIM_MIN ≤ imm → imm ≤ s.fld fTCHLIM_MAX → ∃ t : State, exec (.touchMeasurement [some imm]) s = .next t ∧
        t.fld (fTCHBASE_BASE 0) = imm ∧ t.fld (fTCHRAW_COUNT 0) = imm ∧ (t.fld fTCHSTAT_CALIB).testBit 0 = false ∧ (t.tchEl 0).cal = 0 ∧
          s.besidesAll t) ∧
    (s.awake = true → s.touch.on = true → s.fld fTCHCTL_EN = 1 → s.fld fTCHSTAT_FAULT = 0 → (s.tchEl 0).cal = 0 → s.fld fTCHCFG_DEB = 1 →
      s.fld fTCHSTAT_TOUCHED = 0 → s.fld fTCHLIM_MIN ≤ imm → imm ≤ s.fld fTCHLIM_MAX → imm + s.fld fTCHCFG_THR ≤ s.fld (fTCHBASE_BASE 0) → ∃ t : State,
        exec (.touchMeasurement [some imm]) s = .next t ∧ t.fld fTCHSTAT_TOUCHED = 1 ∧ t.on fTCHFLAG_DOWN = true ∧
          t.fld (fTCHBASE_BASE 0) = s.fld (fTCHBASE_BASE 0) ∧ (t.fld fWAKESRC_SRC).testBit 12 = true ∧ s.besidesAll t) ∧
    (s.touch.on = true → s.fld fTCHCTL_EN = 1 → s.fld fTCHSTAT_FAULT = 1 → (s.tchEl 0).good = 2 → s.fld fTCHLIM_MIN ≤ imm →
      imm ≤ s.fld fTCHLIM_MAX → ∃ t : State, exec (.touchRetry 0 (some imm)) s = .next t ∧ t.fld fTCHSTAT_FAULT = 0 ∧
        (t.fld fTCHSTAT_CALIB).testBit 0 = true ∧ (t.tchEl 0).cal = 8 ∧ s.besidesAll t)

/-- The engines, the OTP, claims and the log queue as the Sacristy world's own writes move them (R378, R383, R387, R388, R396, R399, R400): a
command written while one runs only sets ENGBUSY; one written otherwise runs with the operands of its registers; its end clears BUSY and sets DONE
with the result in place, or ENGERR with none; OTP bits only set, and not in a locked region; a claim that is refused sets CLAIMREF. -/
def Obligations.EnginesAndClaims : Prop :=
  ∀ (s : State) (key : BitVec 4),
    let starts := fun (c : Instr) (cmd k : Nat) => s.on fSACENG_BUSY = false → ∃ t : State, exec c s = .next t ∧ t.on fSACENG_BUSY = true ∧
      t.fld fSACENG_CMD = cmd ∧ t.sac.eng = some ⟨cmd, s.fld fSACSRC_OFFSET, s.fld fSACDST_OFFSET, s.fld fSACLEN_LEN, k⟩ ∧ s.besidesAll t
    let busy := fun (c : Instr) => s.on fSACENG_BUSY = true → exec c s = .next (s.raise [fSACFLAG_ENGBUSY])
    (starts (.engineSha256 .sacristy) 1 0 ∧ busy (.engineSha256 .sacristy)) ∧
    (starts (.engineAesGcm .sacristy key) 2 (key.toNat) ∧ busy (.engineAesGcm .sacristy key)) ∧
    (starts (.engineVerify .sacristy key) 3 (key.toNat) ∧ busy (.engineVerify .sacristy key)) ∧
    (starts (.engineSign .sacristy) 4 9 ∧ busy (.engineSign .sacristy)) ∧
    (starts (.engineRandom .sacristy) 5 0 ∧ busy (.engineRandom .sacristy)) ∧
    (∀ src dst len k, s.sac.eng = some ⟨1, src, dst, len, k⟩ → ∃ t : State, exec (.engineDone false) s = .next t ∧ t.on fSACENG_BUSY = false ∧
      t.on fSACFLAG_DONE = true ∧ t.sac.eng = none ∧ t.mem.bytes (ssAddr dst) 32 = sha256 (s.mem.bytes (ssAddr src) len) ∧ s.besides t) ∧
    (∀ e, s.sac.eng = some e → ∃ t : State, exec (.engineDone true) s = .next t ∧ t.on fSACENG_BUSY = false ∧ t.on fSACFLAG_ENGERR = true ∧
      t.fld fSACFLAG_DONE = s.fld fSACFLAG_DONE ∧ t.sac.eng = none ∧ s.besidesAll t) ∧
    (∀ err, s.sac.eng = none → exec (.engineDone err) s = .next s) ∧
    (∃ t : State, exec .rngfail s = .next t ∧ t.on fSACFLAG_RNGFAIL = true ∧ t.sac.rngFail = true ∧ s.besidesAll t) ∧
    (∀ (a : BitVec 10) (b : Byte), otpLocked a.toNat = true → ∃ t : State, exec (.otpProgram .sacristy a b) s = .next t ∧ t.mem = s.mem ∧
      s.besidesAll t) ∧
    (∀ (a : BitVec 10) (b : Byte), otpLocked a.toNat = false → ∃ t : State, exec (.otpProgram .sacristy a b) s = .next t ∧
      t.mem.otpByte a.toNat = (s.mem.otpByte a.toNat ||| b) ∧ (∀ x, x ≠ a.toNat → t.mem.otpByte x = s.mem.otpByte x) ∧ s.besides t) ∧
    (∀ v : Word, (∀ k < 32, v.toNat.testBit k = false) → s.role = .chapter → s.sac.cuts = [] → s.sac.sysrst = none →
      s.slp.entering = none → ∃ t : State, exec (.sacclaimWrite .sacristy v) s = .next t ∧ t.fld fSACCLAIM_CLAIM = 0 ∧
        t.fld fSACFLAG_CLAIMREF = s.fld fSACFLAG_CLAIMREF ∧ s.besidesAll t) ∧
    (∀ (v : Word) (k : Nat), k < 32 → v.toNat.testBit k = true → claimable.contains k = false → s.role = .chapter → s.sac.cuts = [] →
      s.sac.sysrst = none → s.slp.entering = none → ∃ t : State, exec (.sacclaimWrite .sacristy v) s = .next t ∧
        t.on fSACFLAG_CLAIMREF = true ∧ (t.fld fSACCLAIM_CLAIM).testBit k = false ∧ s.besidesAll t) ∧
    (s.sac.vq = [] → exec .vlogPop s = .next s) ∧
    (∀ e q, s.sac.vq = e :: q → e.length = 16 → s.dec.dc = [] → s.cant.dc = [] → s.descCache = [] → ∃ t : State, exec .vlogPop s = .next t ∧
      t.sac.vq = q ∧ t.sac.vlogN = s.sac.vlogN + 1 ∧ t.mem.bytes (0x10011000 + 16 * (s.sac.vlogN % 256)) 16 = e ∧
        t.sac.cutCount = s.sac.cutCount + b2n (e.getD 6 0 = 6 || e.getD 6 0 = 7) ∧ s.besides t)

/-- The signed operations and the descriptors of the sealed record (R382, R384 to R386, R389 to R392, R396): a challenge, the staging buffer,
and the first status that applies of NO_CHALLENGE, AUTH_FAILED and the operation's own. -/
def Obligations.SignedOperations : Prop :=
  ∀ (s : State) (d : Desc), s.ready d = true →
    let op := fun (c : Instr) (st : Nat) => ∃ t : State, exec c s = .next (t.complete d st 0 []) ∧ t.sac.chal = none ∧ t.sac.stage = [] ∧
      t.mem = s.mem ∧ t.regs = s.regs ∧ s.besidesAll t
    let all := fun (p : Instr → Prop) => p (.keyInstall d true) ∧ p (.keyRevoke d) ∧ p (.claimSet d) ∧ p (.debugUnlock d)
    let key := (padTo 128 s.sac.stage).take 64
    let k := dsArg d 2
    let free := s.on fSACSTAT_HELD = false
    let goodSig := fun (payload : List Byte) (c : List Byte) => s.keyUsable (dsArg d 1) = true ∧
      ecdsaVerify (sha256 (leBytes 1 (dsOpcode d) ++ s.uidBytes ++ c ++ (d.bytes.drop 0x20).take 16 ++ payload)) (s.keyOf (dsArg d 1))
        ((padTo 128 s.sac.stage).drop 64) = true
    (free → s.sac.chal = none → all (fun c => op c 0x43)) ∧
    (free → s.sac.chal ≠ none → s.keyUsable (dsArg d 1) = false → all (fun c => op c stAUTHFAILED)) ∧
    (∀ c, free → s.sac.chal = some c → goodSig key c → k ≤ dsArg d 1 → op (.keyInstall d true) stINVALID) ∧
    (∀ c, free → s.sac.chal = some c → goodSig key c → dsArg d 1 < k → k < 8 → (s.keyOf k).any (· != 0) = true → op (.keyInstall d true) 0x40) ∧
    (∀ c, free → s.sac.chal = some c → goodSig key c → dsArg d 1 < k → k < 8 → (s.keyOf k).any (· != 0) = false →
      ecOnCurve (beNat (key.take 32)) (beNat (key.drop 32)) = false → op (.keyInstall d true) stINVALID) ∧
    (∀ c, free → s.sac.chal = some c → goodSig key c → dsArg d 1 < k → k < 8 → (s.keyOf k).any (· != 0) = false →
      ecOnCurve (beNat (key.take 32)) (beNat (key.drop 32)) = true →
      (∃ t : State, exec (.keyInstall d false) s = .next (t.complete d 0x47 0 []) ∧ t.mem.otpByte 0x300 = s.mem.otpByte 0x300 ∧ s.besides t) ∧
      ∃ t : State, exec (.keyInstall d true) s = .next (t.complete d stOK 0 []) ∧ t.keyOf k = key ∧
        t.mem.otpByte 0x300 = (s.mem.otpByte 0x300 ||| BitVec.ofNat 8 (2 ^ k)) ∧ t.sac.chal = none ∧ t.sac.stage = [] ∧ s.besides t) ∧
    (∀ c, free → s.sac.chal = some c → goodSig [] c → k = dsArg d 1 → op (.keyRevoke d) stINVALID) ∧
    (∀ c, free → s.sac.chal = some c → goodSig [] c → k ≠ dsArg d 1 → (8 ≤ k ∨ (s.mem.otpByte 0x300).getLsbD k = false) →
      op (.keyRevoke d) 0x41) ∧
    (∀ c, free → s.sac.chal = some c → goodSig [] c → k ≠ dsArg d 1 → k < 8 → (s.mem.otpByte 0x300).getLsbD k = true →
      (∀ j < 2, j ≠ k → s.keyUsable j = false) → op (.keyRevoke d) 0x42) ∧
    (∀ c j, free → s.sac.chal = some c → goodSig [] c → k ≠ dsArg d 1 → k < 8 → (s.mem.otpByte 0x300).getLsbD k = true →
      j < 2 → j ≠ k → s.keyUsable j = true → ∃ t : State, exec (.keyRevoke d) s = .next (t.complete d stOK 0 []) ∧
        t.mem.otpByte 0x301 = (s.mem.otpByte 0x301 ||| BitVec.ofNat 8 (2 ^ k)) ∧ t.mem.otpByte 0x300 = s.mem.otpByte 0x300 ∧
        t.sac.chal = none ∧ t.sac.stage = [] ∧ s.besides t) ∧
    (∀ c j, free → s.sac.chal = some c → goodSig [] c → j < 32 → (dsArgs d 4 4).testBit j = true → claimable.contains j = false →
      op (.claimSet d) 0x46) ∧
    (∀ c, free → s.sac.chal = some c → goodSig [] c → (∀ j < 32, (dsArgs d 4 4).testBit j = true → s.claimRefused j = false) → s.sac.cuts = [] →
      s.sac.sysrst = none → s.slp.entering = none → ∃ t : State, exec (.claimSet d) s = .next (t.complete d stOK 0 []) ∧
        t.sac.claims = dsArgs d 4 4 ∧ t.fld fSACCLAIM_CLAIM = dsArgs d 4 4 ∧ t.sac.chal = none ∧ t.sac.stage = [] ∧ s.besides t) ∧
    (∀ c, free → s.sac.chal = some c → goodSig [] c → s.mem.lifecycle = 3 → op (.debugUnlock d) stDENIED) ∧
    (∀ c, free → s.sac.chal = some c → goodSig [] c → s.mem.lifecycle ≠ 3 → (k = 3 ∨ (s.mem.otpByte 0x303 = 1 ∧ k = 2)) →
      op (.debugUnlock d) stINVALID) ∧
    (∀ c, free → s.sac.chal = some c → goodSig [] c → s.mem.lifecycle ≠ 3 → k ≤ 2 → s.mem.otpByte 0x303 = 0 → ∃ t : State,
      exec (.debugUnlock d) s = .next (t.complete d stOK 0 []) ∧ t.fld fSACDBG_LEVEL = k ∧ t.sac.chal = none ∧ t.sac.stage = [] ∧ t.mem = s.mem ∧
        s.besides t) ∧
    (free → s.sac.rngFail = true → exec (.sacChallenge d) s = .next (s.complete d 0x43 0 [])) ∧
    (free → s.sac.rngFail = false → ∃ (t : State) (c : List Byte), exec (.sacChallenge d) s = .next (t.complete d stOK 0 c) ∧
      t.sac.chal = some c ∧ c.length = 16 ∧ t.regs = s.regs ∧ s.besidesAll t) ∧
    (∃ t : State, exec .challengeLapse s = .next t ∧ t.sac.chal = none ∧ t.regs = s.regs ∧ s.besidesAll t) ∧
    (free → 8 ≤ dsArg d 0 → exec (.sacStage d) s = .next (s.complete d stINVALID 0 [])) ∧
    (free → dsArg d 0 < 8 → s.sac.stage.length = 128 → d.bytes.length = 64 → ∃ t : State, exec (.sacStage d) s = .next (t.complete d stOK 0 []) ∧
      (t.sac.stage.drop (16 * dsArg d 0)).take 16 = (d.bytes.drop 0x30).take 16 ∧
      (∀ j, (j < 16 * dsArg d 0 ∨ 16 * dsArg d 0 + 16 ≤ j) → t.sac.stage[j]? = s.sac.stage[j]?) ∧ t.regs = s.regs ∧ s.besidesAll t) ∧
    (exec (.sacQuery d) s = .next (s.complete d stOK s.sacStat
      (leBytes 4 s.sacStat ++ leBytes 4 (s.reg rSACCLAIM).toNat ++ leBytes 4 (s.reg rSACDEFER).toNat ++ leBytes 4 (s.reg rSACDBG).toNat))) ∧
    (free → exec (.devkeyQuery d) s = .next (s.complete d stOK 0 (ecPublic s.dDev))) ∧
    ((s.role = .cell ∨ s.role = .loop) → free → s.sac.seq ≤ 896 → s.sac.seq ≤ dsArgs d 0 4 →
      exec (.sealRead d) s = .next (s.complete d stOK 0 [])) ∧
    ((s.role = .cell ∨ s.role = .loop) → free → s.sac.seq ≤ 896 → dsArgs d 0 4 < s.sac.seq → dsReslen d = 64 →
      exec (.sealRead d) s = .next (s.complete d stOK 0 (s.coherentBytes (0x10012000 + 64 * (dsArgs d 0 4 % 896)) 64))) ∧
    ((s.role = .cell ∨ s.role = .loop) → free → (s.sac.seq < dsArgs d 0 4 ∨ dsArgs d 0 4 < s.sac.ack) →
      exec (.sealAck d) s = .next (s.complete d stINVALID 0 [])) ∧
    ((s.role = .cell ∨ s.role = .loop) → free → dsArgs d 0 4 ≤ s.sac.seq → s.sac.ack ≤ dsArgs d 0 4 → ∃ t : State,
      exec (.sealAck d) s = .next (t.complete d stOK 0 []) ∧ t.sac.ack = dsArgs d 0 4 ∧ t.sac.seq = s.sac.seq ∧ t.regs = s.regs ∧ s.besidesAll t) ∧
    (∀ n, (s.role = .cell ∨ s.role = .loop) → free → s.sac.seq ≤ n → n < 2 ^ 32 → ∃ (t : State) (r : Nat) (bs : List Byte),
      exec (.sealAttest d n n) s = .next (t.complete d 0x45 r bs) ∧ t.sac = s.sac ∧ t.regs = s.regs ∧ s.besidesAll t) ∧
    (∀ n, (s.role = .cell ∨ s.role = .loop) → free → s.sealHeld n = true → s.sealGood n = true → ∃ (t : State) (sig : List Byte),
      exec (.sealAttest d n n) s = .next (t.complete d stOK n (sha256 (s.sealBytes n) ++ sig)) ∧ t.sac = s.sac ∧ t.regs = s.regs ∧
        s.besidesAll t) ∧
    (s.sac.vlogN = 0 → exec (.vlogRead d) s = .next (s.complete d stOK 0 [])) ∧
    (0 < s.sac.vlogN → dsReslen d = 16 →
      exec (.vlogRead d) s = .next (s.complete d stOK 0 (s.coherentBytes (0x10011000 + 16 * ((s.sac.vlogN - 1) % 256)) 16)))

/-- R397: in Chapter and Crossing roles the seal opcodes complete NOT_IN_ROLE; while the Sacristy is held every opcode of Table 17.8 but SAC_QUERY and
VLOG_READ completes SACRISTY_HELD; a descriptor with one of the unassigned opcodes 0x2C to 0x2F is taken by Rhoco with no command waiting and completes
UNKNOWN_OPCODE. -/
def Obligations.SacristyOpcodes : Prop :=
  (∀ (s : State) (d : Desc) (first last : Nat) (readback : Bool), s.ready d = true →
    let gives := fun (c : Instr) (st : Nat) => exec c s = .next (s.complete d st 0 [])
    ((s.role = .chapter ∨ s.role = .crossing) →
      gives (.sealRead d) stNOTROLE ∧ gives (.sealAck d) stNOTROLE ∧ gives (.sealAttest d first last) stNOTROLE) ∧
    (s.on fSACSTAT_HELD = true →
      gives (.sacChallenge d) 0x44 ∧ gives (.sacStage d) 0x44 ∧ gives (.keyInstall d readback) 0x44 ∧ gives (.keyRevoke d) 0x44 ∧
      gives (.claimSet d) 0x44 ∧ gives (.debugUnlock d) 0x44 ∧ gives (.devkeyQuery d) 0x44) ∧
    (s.on fSACSTAT_HELD = true → (s.role = .cell ∨ s.role = .loop) →
      gives (.sealRead d) 0x44 ∧ gives (.sealAck d) 0x44 ∧ gives (.sealAttest d first last) 0x44) ∧
    (s.on fSACSTAT_HELD = true → (∃ (r : Nat) (bs : List Byte), exec (.sacQuery d) s = .next (s.complete d stOK r bs)) ∧
      ∃ bs : List Byte, exec (.vlogRead d) s = .next (s.complete d stOK 0 bs))) ∧
  (∀ (s : State) (d : Desc), 0x2C ≤ dsOpcode d → dsOpcode d ≤ 0x2F → s.canRun d = true → s.waitingDescs = [d] → s.rst.offDesc = none →
    s.pending = [] → s.slp.entering = none → s.rst.restoreDue = false → step s = .next (s.complete d stUNKNOWN 0 []))

/-- The services of Table 17.1 called on Decani (R377): the status in w0 and the figures in w1 to w3; SHA-256 over a range, a signature checked, and
DENIED for the services that need the engines while the Sacristy is held or for a range the caller may not use. -/
def Obligations.SacristyServices : Prop :=
  ∀ (s : State) (c : Caller), c.core = .decani → s.rhocoUp = true → s.on fBOOTSTAT_RECOV = false → s.dec.gpr.length = 16 →
    let g := fun n => (s.dec.gpr.getD n 0).toNat
    let gives := fun (t : State) (st : Nat) => t.dec.gpr.getD 0 0 = BitVec.ofNat 32 st ∧ (∀ n < 16, 4 ≤ n → t.dec.gpr.getD n 0 = s.dec.gpr.getD n 0) ∧
      t.dec.pc = s.dec.pc ∧ t.cant = s.cant ∧ t.pending = s.pending ∧ t.role = s.role
    let same := fun (t : State) => t.regs = s.regs ∧ t.mem = s.mem
    let fig := fun (t : State) (n v : Nat) => t.dec.gpr.getD n 0 = BitVec.ofNat 32 v
    let off := s.on fSACSTAT_HELD = true
    let up := s.on fSACSTAT_HELD = false
    (∃ t : State, exec (.sacInfo c) s = .next t ∧ gives t 0 ∧ fig t 1 s.sacStat ∧ fig t 2 (s.reg rSACDBG).toNat ∧
      fig t 3 (s.reg rSACCLAIM).toNat ∧ same t) ∧
    (off ∨ s.sac.rngFail = true → ∃ t : State, exec (.rngGet c) s = .next t ∧ gives t 2 ∧ same t) ∧
    (up → s.sac.rngFail = false → ∃ t : State, exec (.rngGet c) s = .next t ∧ gives t 0 ∧ same t) ∧
    (off ∨ s.svMay c .r (g 0) (g 1) = false ∨ s.svMay c .w (g 2) 32 = false → ∃ t : State, exec (.sha256 c) s = .next t ∧ gives t 2 ∧ same t) ∧
    (up → s.svMay c .r (g 0) (g 1) = true → s.svMay c .w (g 2) 32 = true → inSram (g 2) 32 = true → g 2 % 4 = 0 → s.dec.dc = [] →
      s.cant.dc = [] → s.descCache = [] → ∃ t : State, exec (.sha256 c) s = .next t ∧ gives t 0 ∧
        t.mem.bytes (g 2) 32 = Sys2Proof.Machine.sha256 (s.coherentBytes (g 0) (g 1))) ∧
    (8 ≤ g 2 → ∃ t : State, exec (.verify c) s = .next t ∧ gives t 1 ∧ same t) ∧
    (g 2 < 8 → (off ∨ s.svMay c .r (g 0) 32 = false ∨ s.svMay c .r (g 1) 64 = false) → ∃ t : State, exec (.verify c) s = .next t ∧ gives t 2 ∧
      same t) ∧
    (g 2 < 8 → up → s.svMay c .r (g 0) 32 = true → s.svMay c .r (g 1) 64 = true → ∃ t : State, exec (.verify c) s = .next t ∧ gives t 0 ∧
      fig t 1 (b2n (!(s.keyUsable (g 2) && ecdsaVerify (s.coherentBytes (g 0) 32) (s.keyOf (g 2)) (s.coherentBytes (g 1) 64)))) ∧ same t) ∧
    (∃ t : State, exec (.sealStatus c) s = .next t ∧ gives t 0 ∧ fig t 1 s.sac.seq ∧ fig t 2 s.sac.ack ∧ fig t 3 s.sac.missed ∧ same t)

/-- A step runs the command at the front of the queue on the state with the queue's rest; with none waiting, no sleep entry under way, nothing to
restore and no descriptor for Rhoco to take, it idles. -/
def Obligations.StepRunsTheCommand : Prop :=
  (∀ (s : State) (c : Instr), step (s.front c) = exec c s) ∧
  (∀ (s : State) (c : Instr) (rest : List Instr), s.pending = c :: rest → step s = exec c { s with pending := rest }) ∧
  (∀ s : State, s.pending = [] → s.slp.entering = none → s.rst.restoreDue = false → s.quiet = true → step s = .next s)

/-- What power-on reset leaves, by R258 and the Reset columns of R281, R400 and of chapters 4, 5 and 6: Decani in Sacristy supervisor with IE clear at PC 0
and both vector bases 0, every source of its controller at the lowest level, Cantoris off, the clocks at their Reset values, nothing claimed. That no
command waits and nothing has been sent is the model's own (Log 1). -/
def Obligations.ResetValues : Prop :=
  let s := State.reset
  (s.dec.pc = 0 ∧ s.dec.psr = 3 ∧ s.dec.world = .sacristy ∧ s.dec.sup = true ∧ s.dec.vbase.all (· = 0) = true) ∧
  (∀ k < 32, rget s.dec.priv (rINTPRI k) = 0xFFFFFFFF) ∧
  (rget s.dec.priv (rINTWORLD 0) = 0x300 ∧ s.dec.pfld fINTCTL_GBITS = 4 ∧ s.dec.pfld fINTSTAT_RUNGRP = 16) ∧
  (s.fld fRSTCAUSE_HIST = 1 ∧ s.fld fRSTCAUSE_LAST = 0) ∧
  (s.fld fCLKSEL_ROOT = 0 ∧ s.fld fCLKSEL_CDIV = 0 ∧ s.fld fCLKCTL_PLLEN = 0) ∧
  (s.fld fSACCLAIM_CLAIM = 0 ∧ s.reg rSACDEFER = 0 ∧ s.reg rSACIE = 0 ∧ s.fld fSACENG_BUSY = 0) ∧
  (s.fld fCANTCTL_RUN = 0 ∧ s.fld fCANTCTL_PWR = 0 ∧ s.fld fCANTSTAT_STATE = 0) ∧
  (s.reg rWAKESRC = 0 ∧ s.fld fPWRCTL_STATE = 1) ∧
  s.pending = [] ∧ s.out = []

/-- The order of R246 and the answers of R236, R237 and R202: outside the roles of its opcode a descriptor completes NOT_IN_ROLE even with a field that
R235 forbids, and in them INVALID_FIELD; one that Rhoco cannot run yet waits. A completion carries the cookie, RESULT, the status, the descriptor's SEQ and the number of bytes sent; with RESBUF the result
bytes precede it, cut at RESLEN, and an OK with more of them becomes TRUNCATED. -/
def Obligations.Completions : Prop :=
  ∀ (s : State) (d : Desc),
    (s.readyBad d = true → exec (.sacQuery d) s = .next (s.complete d stINVALID 0 []) ∧
      (s.role = .cell → exec (.sealAck d) s = .next (s.complete d stINVALID 0 []))) ∧
    (s.quiet = true → s.canRun d = true → s.role = .chapter → exec (.sealAck d) s = .next (s.complete d stNOTROLE 0 [])) ∧
    (s.quiet = true → s.canRun d = false → exec (.sacQuery d) s = .next s ∧ exec (.sealAck d) s = .next s) ∧
    (∀ (st r : Nat) (res : List Byte), d.path = .lectern → st < 256 → r < 2 ^ 32 →
      let frame := fun (type : Nat) (p : List Byte) =>
        Out.frame .jack ⟨mkHdr type 0 0 0 (s.fld fLINEADDR_CELLADDR) d.ring p.length d.seq d.seq 0 0, p⟩
      let entry := fun (code n : Nat) => (d.bytes.drop 8).take 8 ++ leBytes 4 r ++ [BitVec.ofNat 8 code, BitVec.ofNat 8 d.seq] ++ leBytes 2 n
      let t := fun (l : List Out) => { s with
        out := l ++ s.out, node := { s.node with inbox := s.node.inbox.filter (fun x => x != d) } }
      d.bytes.length = 64 → d.seq < 256 →
      (dsResbuf d = false → s.complete d st r res = t [frame 4 (entry st 0)]) ∧
      (dsResbuf d = true → res ≠ [] → res.length ≤ 64 → res.length ≤ dsReslen d → s.complete d st r res =
        t [frame 4 (entry st res.length), frame 6 res]) ∧
      (dsResbuf d = true → 0 < dsReslen d → dsReslen d ≤ 64 → dsReslen d < res.length → s.complete d stOK r res =
        t [frame 4 (entry stTRUNC (dsReslen d)), frame 6 (res.take (dsReslen d))]))
end

