-- ==== Sys2Proof/Laws/Isa.lean ====
section
/-! SUPPORT. What an instruction does that a core issues with nothing in its way. -/

namespace Sys2Proof.Machine

open Sys2Proof

@[simp] theorem State.core_setCore (s : State) (c : CoreId) (k : Core) : (s.setCore c k).core c = k := by
  cases c <;> rfl

@[simp] theorem State.setCore_setCore (s : State) (c : CoreId) (k q : Core) : (s.setCore c k).setCore c q = s.setCore c q := by
  cases c <;> rfl

@[simp] theorem State.setCore_core (s : State) (c : CoreId) : s.setCore c (s.core c) = s := by
  cases c <;> rfl

theorem State.core_issued (s : State) (i : Issue) :
    (s.issued i).core i.core = { s.core i.core with dbgStep := false, cyc := (s.core i.core).cyc + i.stall } := by
  simp [State.issued]

@[simp] theorem State.issued_setCore (s : State) (i : Issue) (k : Core) : (s.issued i).setCore i.core k = s.setCore i.core k := by
  simp [State.issued]

theorem Core.landDue_nil (k : Core) (h : k.land = []) : k.landDue = k := by
  cases k; simp_all [Core.landDue]

theorem Core.tickLoops_nil (k : Core) (h : k.lpend = []) : k.tickLoops = k := by
  cases k; simp_all [Core.tickLoops]

/-- Nothing to loop back to. -/
theorem Core.loopBack_straight (k : Core) (a : Word)
    (h : ∀ n, n < 3 → (k.dla.testBit n && k.dle.getD n 0 = a) = false) : k.loopBack a = (k, a, false) := by
  have h0 := h 0 (by omega)
  have h1 := h 1 (by omega)
  have h2 := h 2 (by omega)
  simp only [Core.loopBack, Core.loopLevels, h0, h1, h2, Bool.false_eq_true, if_false]

theorem Core.straight_at {k : Core} {i : Issue} (h : k.straight i = true) :
    ∀ n, n < 3 → (k.dla.testBit n && k.dle.getD n 0 = k.pc + issueLen i) = false := by
  intro n hn
  have := List.all_eq_true.mp h n (List.mem_range.mpr hn)
  exact Bool.not_eq_true' _ |>.mp this

/-- Retirement in sequence where no loop write waits and no loop ends. -/
theorem State.retire_straight (s : State) (c : CoreId) (i : Issue) (old : Word) (hl : (s.core c).lpend = [])
    (h : ∀ n, n < 3 → ((s.core c).dla.testBit n && (s.core c).dle.getD n 0 = old + issueLen i) = false) :
    s.retire c i old none false = s.setCore c { s.core c with pc := old + issueLen i } := by
  simp only [State.retire, Core.tickLoops_nil _ hl, Core.loopBack_straight _ _ h]

theorem State.fetch_hit (s : State) (i : Issue) (h1 : (s.core i.core).pc.getLsbD 0 = false)
    (h2 : ((s.core i.core).guard (s.core i.core).world (s.core i.core).sup .x (s.core i.core).pc.toNat).1 = true)
    (h3 : (s.core i.core).fetched i = true) (h4 : codeSpace (s.core i.core).pc.toNat = true) :
    s.fetch i.core i = (none, s) := by
  simp only [Core.fetched, Bool.and_eq_true] at h3
  unfold State.fetch
  simp only [h1, h2, Bool.not_true, Bool.false_eq_true, if_false]
  unfold codeSpace at h4
  split at h4 <;> rename_i hr <;> try (exact absurd h4 (by decide))
  all_goals
    simp only [hr, State.fetchLine, h3.1, h3.2, if_true, Bool.not_true, Bool.false_eq_true, if_false, ite_self]

/-- An instruction issued with nothing in its way is its body, its cycles and its end. -/
theorem State.instr_issues {s : State} {i : Issue} (h : s.issues i = true) (cycles : Core → Nat) (body : State → State × After) :
    s.instr i cycles body =
      (let t := s.issued i
       let r := body t
       (r.1.setCore i.core { r.1.core i.core with cyc := (r.1.core i.core).cyc + cycles (t.core i.core) }).finish i.core i
         (t.core i.core).pc r.2) := by
  simp only [State.issues, Bool.and_eq_true, Bool.not_eq_true', List.isEmpty_iff, Option.isNone_iff_eq_none] at h
  obtain ⟨⟨⟨⟨⟨⟨⟨⟨⟨hr, hn⟩, hl⟩, hp⟩, hw⟩, hi⟩, h1⟩, h2⟩, h3⟩, h4⟩ := h
  have e : (s.setCore i.core { s.core i.core with dbgStep := false }).atIssue i.core i = s.issued i := by
    simp only [State.core_issued] at hl
    simp only [State.atIssue, State.core_setCore, State.setCore_setCore, State.issued]
    rw [Core.landDue_nil _ (by simpa using hl)]
  unfold State.instr
  simp only [hr, Bool.not_true, Bool.false_eq_true, if_false, e, hn, hw, hi, Option.isSome_none, Bool.false_and,
    State.fetch_hit _ _ h1 h2 h3 h4]

theorem State.issuesOn_issues {s : State} {i : Issue} (h : s.issuesOn i = true) : s.issues i = true := by
  simp only [State.issuesOn, Bool.and_eq_true] at h; exact h.1

theorem State.issues_lpend {s : State} {i : Issue} (h : s.issues i = true) : (s.core i.core).lpend = [] := by
  simp only [State.issues, Bool.and_eq_true, List.isEmpty_iff, State.core_issued] at h
  exact h.1.1.1.1.1.1.2

theorem State.issuesOn_straight {s : State} {i : Issue} (h : s.issuesOn i = true) : (s.core i.core).straight i = true := by
  simp only [State.issuesOn, Bool.and_eq_true] at h; exact h.2

/-- An instruction that only changes its own core and goes on in sequence, with its loops left alone. -/
theorem State.instrCore_issuesOn {s : State} {i : Issue} (h : s.issuesOn i = true) (cycles : Core → Nat)
    (body : Core → Core × After) (f : Core → Core)
    (hb : ∀ k, k = (s.issued i).core i.core → body k = (f k, .seq))
    (hf : ∀ k, (f k).lpend = k.lpend ∧ (f k).dla = k.dla ∧ (f k).dle = k.dle) :
    s.instrCore i cycles body = s.retired i (cycles ((s.issued i).core i.core)) f := by
  have hl := State.issues_lpend (State.issuesOn_issues h)
  have hs := Core.straight_at (State.issuesOn_straight h)
  unfold State.instrCore
  rw [State.instr_issues (State.issuesOn_issues h)]
  simp only [hb _ rfl, State.core_setCore, State.setCore_setCore, State.finish]
  rw [State.retire_straight]
  · simp only [State.retired, State.core_setCore, State.setCore_setCore, State.issued_setCore]
  · simp [State.core_issued, (hf _).1, hl]
  · intro n hn
    have := hs n hn
    simp only [State.core_setCore, (hf _).2.1, (hf _).2.2]
    simpa [State.core_issued] using this

theorem Core.setW_loops (k : Core) (r : Reg) (v : Word) :
    (k.setW r v).lpend = k.lpend ∧ (k.setW r v).dla = k.dla ∧ (k.setW r v).dle = k.dle := by
  unfold Core.setW Core.setSp; split <;> exact ⟨rfl, rfl, rfl⟩

/-- An instruction whose whole effect is one general register. -/
theorem State.instrReg_issuesOn {s : State} {i : Issue} (h : s.issuesOn i = true) (wd : Reg) (v : Core → Word) :
    s.instrReg i wd v = s.retired i 1 (fun k => k.setW wd (v k)) := by
  unfold State.instrReg
  rw [State.instrCore_issuesOn h _ _ (fun k => k.setW wd (v k)) (fun _ _ => rfl) (fun k => Core.setW_loops k wd (v k))]

/-- A taken jump. -/
theorem State.instrCore_jump {s : State} {i : Issue} (h : s.issues i = true) (cycles : Core → Nat)
    (body : Core → Core × After) (f : Core → Core) (t : Word)
    (hb : body ((s.issued i).core i.core) = (f ((s.issued i).core i.core), .jump t))
    (hf : (f ((s.issued i).core i.core)).lpend = []) :
    s.instrCore i cycles body = s.jumped i (cycles ((s.issued i).core i.core)) t f := by
  unfold State.instrCore
  rw [State.instr_issues h]
  simp only [hb, State.core_setCore, State.setCore_setCore, State.finish, State.retire, State.jumped]
  rw [Core.tickLoops_nil _ (by simpa using hf)]
  simp only [State.core_setCore, State.setCore_setCore, State.issued_setCore]

end Sys2Proof.Machine
end

