-- ==== Sys2Proof/Laws/Access.lean ====
section
/-! SUPPORT. Accesses of a core to SRAM: the region, the bus, the store buffer and the data cache. -/

namespace Sys2Proof.Machine

open Sys2Proof

theorem region_sram {a : Nat} (h : 0x20000000 ≤ a) (h' : a < 0x20080000) : region a = .sram := by
  unfold region
  rw [if_neg (by omega), if_neg (by omega), if_pos (by omega)]

/-- The bus lets every access to SRAM pass. -/
theorem State.busCheck_sram (s : State) (ag : Agent) (w : World) (wr : Bool) (a d : Nat) (h : 0x20000000 ≤ a)
    (h' : a < 0x20080000) : s.busCheck ag w wr a d = (true, s) := by
  unfold State.busCheck; rw [region_sram h h']

/-- A store of at most four lines enters an empty buffer. -/
theorem State.bufferStore_empty (s : State) (c : CoreId) (e : SBuf) (h : (s.core c).sbuf = []) (hc : e.cost ≤ 4) :
    s.bufferStore c e = s.setCore c { s.core c with sbuf := [e] } := by
  have hr : ∀ n : Nat, (List.range n).foldl (fun t _ =>
      if decide (((t.core c).sbuf.map SBuf.cost).sum + e.cost ≤ 4) then t else t.drainOne c) s = s := by
    intro n
    generalize List.range n = l
    induction l with
    | nil => rfl
    | cons x xs ih => simp only [List.foldl_cons, h, List.map_nil, List.sum_nil, Nat.zero_add, hc, decide_true, if_true, ih]
  unfold State.bufferStore
  simp only [hr, h, List.nil_append]

/-- Every part of a cut run lies in the run. -/
theorem lineParts_within (f a : Nat) (bs : List Byte) :
    ∀ p ∈ lineParts f a bs, a ≤ p.1 ∧ p.1 < a + bs.length ∧ p.1 + p.2.length ≤ a + bs.length := by
  induction f generalizing a bs with
  | zero => simp [lineParts]
  | succ f ih =>
    intro p hp
    unfold lineParts at hp
    split at hp
    · simp at hp
    · rename_i hne
      have hl : 0 < bs.length := by
        rcases bs with _ | ⟨b, bs⟩
        · simp at hne
        · simp
      rcases List.mem_cons.mp hp with h | h
      · subst h; simp only [List.length_take]; omega
      · have := ih _ _ p h
        simp only [List.length_drop] at this
        omega

/-- An empty buffer has nothing to drain. -/
theorem State.drainAll_nil (s : State) (c : CoreId) (h : (s.core c).sbuf = []) : s.drainAll c = s := by
  unfold State.drainAll; rw [h]; rfl

end Sys2Proof.Machine
end

