-- ==== Sys2Proof/Laws/Desc.lean ====
section
/-! SUPPORT. Running a descriptor that is ready. -/

namespace Sys2Proof.Machine

open Sys2Proof

theorem State.takeOthers_none (n : Nat) (s : State) (h : s.waitingDescs.find? (fun d => s.otherReady d) = none) :
    s.takeOthers n = s := by
  cases n with
  | zero => rfl
  | succ n => simp only [State.takeOthers, h]

/-- With no descriptor of an unassigned or an office opcode waiting, Rhoco has none to take of itself. -/
theorem State.pump_quiet (s : State) (h : s.quiet = true) : s.pump = s := by
  unfold State.pump
  apply State.takeOthers_none
  rw [List.find?_eq_none]
  intro d hd
  have := List.all_eq_true.mp h d hd
  simp [State.otherReady, this]

/-- A descriptor that is ready, in a role its opcode acts in, is its action and its completion (R246). -/
theorem State.runDesc_ready {s : State} {d : Desc} (h : s.ready d = true) (act : State → DescRes) :
    s.runDesc d true act =
      (let r := act s; if r.waits then r.st else r.st.complete d r.status r.result r.bytes) := by
  simp only [State.ready, Bool.and_eq_true] at h
  obtain ⟨⟨hq, hc⟩, hf⟩ := h
  simp only [State.runDesc, State.pump_quiet s hq, hc, hf, if_true, Bool.not_true, Bool.false_eq_true, if_false]

/-- In a role its opcode does not act in it completes NOT_IN_ROLE. -/
theorem State.runDesc_role {s : State} {d : Desc} (h : s.ready d = true) (act : State → DescRes) :
    s.runDesc d false act = s.complete d stNOTROLE 0 [] := by
  simp only [State.ready, Bool.and_eq_true] at h
  obtain ⟨⟨hq, hc⟩, hf⟩ := h
  simp only [State.runDesc, State.pump_quiet s hq, hc, if_true, Bool.not_false, State.fail, Bool.false_eq_true, if_false]

/-- With a field that R235 forbids it completes INVALID_FIELD. -/
theorem State.runDesc_bad {s : State} {d : Desc} (h : s.readyBad d = true) (act : State → DescRes) :
    s.runDesc d true act = s.complete d stINVALID 0 [] := by
  simp only [State.readyBad, Bool.and_eq_true, Bool.not_eq_true'] at h
  obtain ⟨⟨hq, hc⟩, hf⟩ := h
  simp only [State.runDesc, State.pump_quiet s hq, hc, hf, if_true, Bool.not_true, Bool.not_false, Bool.false_eq_true, if_false,
    State.fail]

end Sys2Proof.Machine
end

