-- ==== Sys2Proof/Laws/Memory.lean ====
section
/-! SUPPORT. Memory: a byte reads what was last written to it and every other one what it read before, and every memory operation keeps the
canonical form. -/

namespace Sys2Proof.Machine

open Sys2Proof

/-! ### Reads after writes -/

theorem mget_mput (l : List (Nat × Byte)) (a b : Nat) (v : Byte) : mget (mput l a v) b = if a = b then some v else mget l b := by
  induction l with
  | nil => simp [mput, mget]
  | cons p l ih =>
    obtain ⟨k, w⟩ := p
    unfold mput
    by_cases h1 : k < a
    · simp only [h1, if_true, mget, ih]
      by_cases hb : k = b
      · subst hb; simp [Nat.ne_of_gt h1]
      · simp [hb]
    · by_cases h2 : k = a
      · subst h2; simp only [Nat.lt_irrefl, if_false, if_true, mget]; split <;> rfl
      · simp only [h1, h2, if_false, mget]

@[simp] theorem Mem.epoch_putByte (m : Mem) (a b : Nat) (v : Byte) : (m.putByte a v).epoch b = m.epoch b := rfl

/-- A byte written is what its address then reads, and no other byte changes. -/
theorem Mem.byte_putByte (m : Mem) (a b : Nat) (v : Byte) : (m.putByte a v).byte b = if a = b then v else m.byte b := by
  unfold Mem.byte
  rw [show (m.putByte a v).cells = mput m.cells a v from rfl, mget_mput, Mem.epoch_putByte]
  by_cases h : a = b <;> simp [h]

/-- Bytes written leave every address outside them alone. -/
theorem Mem.byte_putBytes_outside (m : Mem) (a b : Nat) (bs : List Byte) (h : b < a ∨ a + bs.length ≤ b) :
    (m.putBytes a bs).byte b = m.byte b := by
  induction bs generalizing m a with
  | nil => rfl
  | cons x xs ih =>
    simp only [List.length_cons] at h
    rw [Mem.putBytes, ih _ _ (by omega), Mem.byte_putByte, if_neg (by omega)]

/-- Bytes written are what their addresses then read. -/
theorem Mem.byte_putBytes (m : Mem) (a j : Nat) (bs : List Byte) (h : j < bs.length) : (m.putBytes a bs).byte (a + j) = bs[j] := by
  induction bs generalizing m a j with
  | nil => simp at h
  | cons x xs ih =>
    rw [Mem.putBytes]
    cases j with
    | zero => rw [Mem.byte_putBytes_outside _ _ _ _ (by omega), Mem.byte_putByte, if_pos (by omega)]; rfl
    | succ j =>
      rw [show a + (j + 1) = a + 1 + j by omega, ih _ _ _ (by simpa using h)]; rfl

/-- A run of bytes written reads back. -/
theorem Mem.bytes_putBytes (m : Mem) (a : Nat) (bs : List Byte) : (m.putBytes a bs).bytes a bs.length = bs := by
  apply List.ext_getElem
  · simp [Mem.bytes]
  · intro j h1 h2
    simp only [Mem.bytes, List.getElem_map, List.getElem_range]
    exact Mem.byte_putBytes m a j bs h2

/-- A run outside the bytes written reads as before. -/
theorem Mem.bytes_putBytes_outside (m : Mem) (a b n : Nat) (bs : List Byte) (h : b + n ≤ a ∨ a + bs.length ≤ b) :
    (m.putBytes a bs).bytes b n = m.bytes b n := by
  apply List.map_congr_left
  intro j hj
  exact Mem.byte_putBytes_outside m a (b + j) bs (by have := List.mem_range.mp hj; omega)

@[simp] theorem Mem.bytes_markBad (m : Mem) (a b n : Nat) (l : List Nat) : (m.markBad a l).bytes b n = m.bytes b n := rfl

/-! ### OTP -/

theorem Mem.otpByte_otpSet (m : Mem) (o x : Nat) (b : Byte) :
    (m.otpSet o b).otpByte x = if o = x then m.otpByte o ||| b else m.otpByte x := by
  unfold Mem.otpByte
  rw [show (m.otpSet o b).otp = mput m.otp o (m.otpByte o ||| b) from rfl, mget_mput]
  by_cases h : o = x
  · subst h; rw [if_pos rfl, if_pos rfl]; rfl
  · rw [if_neg h, if_neg h]

@[simp] theorem Mem.otpByte_putByte (m : Mem) (a x : Nat) (b : Byte) : (m.putByte a b).otpByte x = m.otpByte x := rfl

/-! ### The canonical form -/

theorem risingFrom_mono (l : List (Nat × Byte)) (lo hi : Nat) (h : lo ≤ hi) (r : risingFrom hi l = true) : risingFrom lo l = true := by
  cases l with
  | nil => rfl
  | cons p l =>
    simp only [risingFrom, Bool.and_eq_true, decide_eq_true_eq] at r ⊢
    exact ⟨by omega, r.2⟩

theorem risingFrom_mput (l : List (Nat × Byte)) (lo a : Nat) (v : Byte) (ha : lo ≤ a) (r : risingFrom lo l = true) :
    risingFrom lo (mput l a v) = true := by
  induction l generalizing lo with
  | nil => simp [mput, risingFrom, ha]
  | cons p l ih =>
    obtain ⟨k, w⟩ := p
    simp only [risingFrom, Bool.and_eq_true, decide_eq_true_eq] at r
    unfold mput
    by_cases h1 : k < a
    · simp only [h1, if_true, risingFrom, Bool.and_eq_true, decide_eq_true_eq]
      exact ⟨r.1, ih _ (by omega) r.2⟩
    · by_cases h2 : k = a
      · subst h2; simp only [Nat.lt_irrefl, if_false, if_true, risingFrom, Bool.and_eq_true, decide_eq_true_eq]; exact r
      · simp only [h1, h2, if_false, risingFrom, Bool.and_eq_true, decide_eq_true_eq]
        exact ⟨ha, by omega, r.2⟩

theorem risingFrom_filter (l : List (Nat × Byte)) (lo : Nat) (p : Nat × Byte → Bool) (r : risingFrom lo l = true) :
    risingFrom lo (l.filter p) = true := by
  induction l generalizing lo with
  | nil => rfl
  | cons x l ih =>
    obtain ⟨k, w⟩ := x
    simp only [risingFrom, Bool.and_eq_true, decide_eq_true_eq] at r
    by_cases hp : p (k, w) = true
    · simp only [List.filter_cons, hp, if_true, risingFrom, Bool.and_eq_true, decide_eq_true_eq]
      exact ⟨r.1, ih _ r.2⟩
    · simp only [List.filter_cons, hp, if_false, Bool.false_eq_true]
      exact risingFrom_mono _ _ _ (by omega) (ih _ r.2)

/-- The memory of reset has the canonical form. -/
theorem Memory.wf_reset : Memory.wf State.reset.mem = true := rfl

theorem Memory.wf_putByte (m : Mem) (a : Nat) (b : Byte) (h : Memory.wf m = true) : Memory.wf (m.putByte a b) = true := by
  simp only [Memory.wf, Bool.and_eq_true] at h ⊢
  exact ⟨risingFrom_mput _ _ _ _ (Nat.zero_le _) h.1, h.2⟩

theorem Memory.wf_putBytes (m : Mem) (a : Nat) (bs : List Byte) (h : Memory.wf m = true) : Memory.wf (m.putBytes a bs) = true := by
  induction bs generalizing m a with
  | nil => exact h
  | cons b bs ih => exact ih _ _ (Memory.wf_putByte m a b h)

theorem Memory.wf_markBad (m : Mem) (a : Nat) (l : List Nat) (h : Memory.wf m = true) : Memory.wf (m.markBad a l) = true := h

theorem Memory.wf_lose (m : Mem) (lo n : Nat) (h : Memory.wf m = true) : Memory.wf (m.lose lo n) = true := by
  simp only [Memory.wf, Bool.and_eq_true] at h ⊢
  exact ⟨risingFrom_filter _ _ _ h.1, h.2⟩

theorem Memory.wf_otpSet (m : Mem) (o : Nat) (b : Byte) (h : Memory.wf m = true) : Memory.wf (m.otpSet o b) = true := by
  simp only [Memory.wf, Bool.and_eq_true] at h ⊢
  exact ⟨h.1, risingFrom_mput _ _ _ _ (Nat.zero_le _) h.2⟩

theorem Memory.wf_otpSets (m : Mem) (o : Nat) (bs : List Byte) (h : Memory.wf m = true) : Memory.wf (m.otpSets o bs) = true := by
  induction bs generalizing m o with
  | nil => exact h
  | cons b bs ih => exact ih _ _ (Memory.wf_otpSet m o b h)

end Sys2Proof.Machine
end

