-- ==== Sys2Proof/Laws/Regs.lean ====
section
/-! SUPPORT. The register file: a register reads what was last written to it, a field what was last set in it, and every other one what it
read before. -/

namespace Sys2Proof.Machine

open Sys2Proof

/-! ### Registers -/

theorem rget_filter (r : RegFile) (a b : Nat) :
    rget (r.filter (fun p => p.1 != a)) b = if a = b then 0 else rget r b := by
  induction r with
  | nil => simp [rget]
  | cons p r ih =>
    obtain ⟨k, w⟩ := p
    by_cases hk : k = a
    · subst hk; simp only [List.filter_cons, bne_self_eq_false, Bool.false_eq_true, if_false, ih, rget]
      split <;> rfl
    · simp only [List.filter_cons, bne_iff_ne, ne_eq, hk, not_false_eq_true, if_true, rget, ih]
      by_cases hb : k = b
      · subst hb; simp [Ne.symm hk]
      · simp [hb]

theorem rget_rins (r : RegFile) (a b : Nat) (v : Word) : rget (rins r a v) b = if a = b then v else rget r b := by
  induction r with
  | nil => simp [rins, rget]
  | cons p r ih =>
    obtain ⟨k, w⟩ := p
    unfold rins
    by_cases h1 : k < a
    · simp only [h1, if_true, rget, ih]
      by_cases hb : k = b
      · subst hb; simp [Nat.ne_of_gt h1]
      · simp [hb]
    · by_cases h2 : k = a
      · subst h2; simp only [Nat.lt_irrefl, if_false, if_true, rget]; split <;> rfl
      · simp only [h1, h2, if_false, rget]

/-- A write of a register is what it then reads, and no other register changes. -/
theorem rget_rput (r : RegFile) (a b : Nat) (v : Word) : rget (rput r a v) b = if a = b then v else rget r b := by
  unfold rput
  by_cases h : v = 0
  · subst h; simpa using rget_filter r a b
  · simp only [h, if_false]; exact rget_rins r a b v

theorem State.reg_setReg (s : State) (a b : Nat) (v : Word) : (s.setReg a v).reg b = if a = b then v else s.reg b :=
  rget_rput s.regs a b v

@[simp] theorem State.reg_setReg_same (s : State) (a : Nat) (v : Word) : (s.setReg a v).reg a = v := by
  rw [State.reg_setReg, if_pos rfl]

/-! ### Fields -/

theorem fldOf_lt (w : Word) (f : Fld) : fldOf w f < 2 ^ f.w := (w.extractLsb' f.lo f.w).isLt

theorem fldOf_bit (w : Word) (f : Fld) (j : Nat) : (fldOf w f).testBit j = (decide (j < f.w) && w.getLsbD (f.lo + j)) := by
  unfold fldOf
  rw [BitVec.testBit_toNat, BitVec.getLsbD_extractLsb']

theorem Fld.mask_bit (f : Fld) (j : Nat) : f.mask.getLsbD j = (decide (j < 32) && decide (f.lo ≤ j) && decide (j < f.lo + f.w)) := by
  unfold Fld.mask
  simp only [BitVec.getLsbD_shiftLeft, BitVec.getLsbD_setWidth, BitVec.getLsbD_allOnes]
  by_cases h1 : j < 32 <;> by_cases h2 : f.lo ≤ j <;> by_cases h3 : j < f.lo + f.w
  all_goals simp only [h1, h2, h3, decide_true, decide_false, Bool.and_true, Bool.and_false, Bool.true_and, Bool.false_and]
  · have a : ¬ j < f.lo := by omega
    have b : j - f.lo < f.w := by omega
    have c : j - f.lo < 32 := by omega
    simp [a, b, c]
  · have b : ¬ j - f.lo < f.w := by omega
    simp [b]
  · have a : j < f.lo := by omega
    simp [a]
  · have a : j < f.lo := by omega
    simp [a]

theorem putFld_bit (w : Word) (f : Fld) (v j : Nat) : (putFld w f v).getLsbD j =
    if f.lo ≤ j ∧ j < f.lo + f.w then decide (j < 32) && v.testBit (j - f.lo) else w.getLsbD j := by
  unfold putFld
  simp only [BitVec.getLsbD_or, BitVec.getLsbD_and, BitVec.getLsbD_not, Fld.mask_bit, BitVec.getLsbD_shiftLeft, BitVec.getLsbD_ofNat]
  by_cases h1 : j < 32
  · by_cases h2 : f.lo ≤ j ∧ j < f.lo + f.w
    · have a : ¬ j < f.lo := by omega
      have c : j - f.lo < 32 := by omega
      simp [h1, h2, a, c]
    · rcases not_and_or.mp h2 with h | h <;> simp [h1, h2, h]
  · simp [h1, BitVec.getLsbD_of_ge _ _ (Nat.le_of_not_lt h1)]

/-- A field reads the low bits of what was put there. -/
theorem fldOf_putFld (w : Word) (f : Fld) (v : Nat) (h : f.lo + f.w ≤ 32) : fldOf (putFld w f v) f = v % 2 ^ f.w := by
  apply Nat.eq_of_testBit_eq
  intro j
  rw [fldOf_bit, putFld_bit, Nat.testBit_mod_two_pow]
  by_cases hj : j < f.w
  · rw [if_pos (by omega)]; simp [hj]; intro; omega
  · simp [hj]

/-- Two fields of one register have no bit in common. -/
def Fld.apart (f g : Fld) : Bool := decide (f.lo + f.w ≤ g.lo) || decide (g.lo + g.w ≤ f.lo)

/-- Putting one field leaves a field apart from it alone. -/
theorem fldOf_putFld_apart (w : Word) (f g : Fld) (v : Nat) (h : f.apart g = true) : fldOf (putFld w f v) g = fldOf w g := by
  apply Nat.eq_of_testBit_eq
  intro j
  simp only [Fld.apart, Bool.or_eq_true, decide_eq_true_eq] at h
  rw [fldOf_bit, fldOf_bit, putFld_bit]
  by_cases hj : j < g.w
  · rw [if_neg (by omega)]
  · simp [hj]

/-- A field reads the low bits of what it was set to. -/
theorem State.fld_setFld (s : State) (f : Fld) (v : Nat) (h : f.lo + f.w ≤ 32) : (s.setFld f v).fld f = v % 2 ^ f.w := by
  unfold State.fld State.setFld
  rw [State.reg_setReg_same]; exact fldOf_putFld _ _ _ h

/-- Setting a field leaves a field of another register alone. -/
theorem State.fld_setFld_ne (s : State) (f g : Fld) (v : Nat) (h : f.addr ≠ g.addr) : (s.setFld f v).fld g = s.fld g := by
  unfold State.fld State.setFld
  rw [State.reg_setReg, if_neg h]

/-- Setting a field leaves a field of the same register apart from it alone. -/
theorem State.fld_setFld_apart (s : State) (f g : Fld) (v : Nat) (h : f.apart g = true) : (s.setFld f v).fld g = s.fld g := by
  by_cases ha : f.addr = g.addr
  · unfold State.fld State.setFld
    rw [ha, State.reg_setReg_same]; exact fldOf_putFld_apart _ _ _ _ h
  · exact State.fld_setFld_ne s f g v ha

/-- Whether setting one field cannot change another. -/
def Fld.other (f g : Fld) : Bool := decide (f.addr ≠ g.addr) || f.apart g

theorem State.fld_setFld_other (s : State) (f g : Fld) (v : Nat) (h : f.other g = true) : (s.setFld f v).fld g = s.fld g := by
  simp only [Fld.other, Bool.or_eq_true, decide_eq_true_eq] at h
  exact h.elim (State.fld_setFld_ne s f g v) (State.fld_setFld_apart s f g v)

/-! ### Several fields -/

theorem State.sets_nil (s : State) : s.sets [] = s := rfl

theorem State.sets_cons (s : State) (p : Fld × Nat) (l : List (Fld × Nat)) : s.sets (p :: l) = (s.setFld p.1 p.2).sets l := rfl

theorem State.raise_nil (s : State) : s.raise [] = s := rfl

theorem State.raise_cons (s : State) (f : Fld) (l : List Fld) : s.raise (f :: l) = (s.setFld f 1).raise l := rfl

/-- Setting fields changes registers and nothing else. -/
theorem State.sets_eq (s : State) (l : List (Fld × Nat)) : s.sets l = { s with regs := (s.sets l).regs } := by
  induction l generalizing s with
  | nil => rfl
  | cons p l ih => rw [State.sets_cons, ih]; rfl

/-- Setting flags changes registers and nothing else. -/
theorem State.raise_eq (s : State) (l : List Fld) : s.raise l = { s with regs := (s.raise l).regs } := by
  induction l generalizing s with
  | nil => rfl
  | cons p l ih => rw [State.raise_cons, ih]; rfl

/-- A field that none of the set ones can change keeps its value. -/
theorem State.fld_sets_other (s : State) (l : List (Fld × Nat)) (g : Fld) (h : l.all (fun p => p.1.other g) = true) :
    (s.sets l).fld g = s.fld g := by
  induction l generalizing s with
  | nil => rfl
  | cons p l ih =>
    simp only [List.all_cons, Bool.and_eq_true] at h
    rw [State.sets_cons, ih _ h.2, State.fld_setFld_other _ _ _ _ h.1]

/-- A field that none of the raised flags overlaps keeps its value. -/
theorem State.fld_raise_other (s : State) (l : List Fld) (g : Fld) (h : l.all (fun f => f.other g) = true) :
    (s.raise l).fld g = s.fld g := by
  induction l generalizing s with
  | nil => rfl
  | cons p l ih =>
    simp only [List.all_cons, Bool.and_eq_true] at h
    rw [State.raise_cons, ih _ h.2, State.fld_setFld_other _ _ _ _ h.1]

end Sys2Proof.Machine
end

