-- ==== Sys2Proof/Laws/State.lean ====
section
/-! SUPPORT. What the simple updates of State leave alone: one lemma per field per update, and the registers of a state whose update leaves
them alone. -/

namespace Sys2Proof.Machine

open Sys2Proof

/-! ### setReg -/

@[simp] theorem State.setReg_role (s : State) (a : Nat) (v : Word) : (s.setReg a v).role = s.role := rfl
@[simp] theorem State.setReg_latched (s : State) (a : Nat) (v : Word) : (s.setReg a v).latched = s.latched := rfl
@[simp] theorem State.setReg_dec (s : State) (a : Nat) (v : Word) : (s.setReg a v).dec = s.dec := rfl
@[simp] theorem State.setReg_cant (s : State) (a : Nat) (v : Word) : (s.setReg a v).cant = s.cant := rfl
@[simp] theorem State.setReg_mem (s : State) (a : Nat) (v : Word) : (s.setReg a v).mem = s.mem := rfl
@[simp] theorem State.setReg_pads (s : State) (a : Nat) (v : Word) : (s.setReg a v).pads = s.pads := rfl
@[simp] theorem State.setReg_pwr (s : State) (a : Nat) (v : Word) : (s.setReg a v).pwr = s.pwr := rfl
@[simp] theorem State.setReg_slp (s : State) (a : Nat) (v : Word) : (s.setReg a v).slp = s.slp := rfl
@[simp] theorem State.setReg_clk (s : State) (a : Nat) (v : Word) : (s.setReg a v).clk = s.clk := rfl
@[simp] theorem State.setReg_rst (s : State) (a : Nat) (v : Word) : (s.setReg a v).rst = s.rst := rfl
@[simp] theorem State.setReg_node (s : State) (a : Nat) (v : Word) : (s.setReg a v).node = s.node := rfl
@[simp] theorem State.setReg_drv (s : State) (a : Nat) (v : Word) : (s.setReg a v).drv = s.drv := rfl
@[simp] theorem State.setReg_hl (s : State) (a : Nat) (v : Word) : (s.setReg a v).hl = s.hl := rfl
@[simp] theorem State.setReg_scr (s : State) (a : Nat) (v : Word) : (s.setReg a v).scr = s.scr := rfl
@[simp] theorem State.setReg_sac (s : State) (a : Nat) (v : Word) : (s.setReg a v).sac = s.sac := rfl
@[simp] theorem State.setReg_descCache (s : State) (a : Nat) (v : Word) : (s.setReg a v).descCache = s.descCache := rfl
@[simp] theorem State.setReg_sfe (s : State) (a : Nat) (v : Word) : (s.setReg a v).sfe = s.sfe := rfl
@[simp] theorem State.setReg_loop (s : State) (a : Nat) (v : Word) : (s.setReg a v).loop = s.loop := rfl
@[simp] theorem State.setReg_font (s : State) (a : Nat) (v : Word) : (s.setReg a v).font = s.font := rfl
@[simp] theorem State.setReg_mot (s : State) (a : Nat) (v : Word) : (s.setReg a v).mot = s.mot := rfl
@[simp] theorem State.setReg_ring (s : State) (a : Nat) (v : Word) : (s.setReg a v).ring = s.ring := rfl
@[simp] theorem State.setReg_touch (s : State) (a : Nat) (v : Word) : (s.setReg a v).touch = s.touch := rfl
@[simp] theorem State.setReg_chor (s : State) (a : Nat) (v : Word) : (s.setReg a v).chor = s.chor := rfl
@[simp] theorem State.setReg_fio (s : State) (a : Nat) (v : Word) : (s.setReg a v).fio = s.fio := rfl
@[simp] theorem State.setReg_st (s : State) (a : Nat) (v : Word) : (s.setReg a v).st = s.st := rfl
@[simp] theorem State.setReg_tap (s : State) (a : Nat) (v : Word) : (s.setReg a v).tap = s.tap := rfl
@[simp] theorem State.setReg_out (s : State) (a : Nat) (v : Word) : (s.setReg a v).out = s.out := rfl
@[simp] theorem State.setReg_free (s : State) (a : Nat) (v : Word) : (s.setReg a v).free = s.free := rfl
@[simp] theorem State.setReg_pending (s : State) (a : Nat) (v : Word) : (s.setReg a v).pending = s.pending := rfl

/-! ### setFld -/

@[simp] theorem State.setFld_role (s : State) (f : Fld) (v : Nat) : (s.setFld f v).role = s.role := rfl
@[simp] theorem State.setFld_latched (s : State) (f : Fld) (v : Nat) : (s.setFld f v).latched = s.latched := rfl
@[simp] theorem State.setFld_dec (s : State) (f : Fld) (v : Nat) : (s.setFld f v).dec = s.dec := rfl
@[simp] theorem State.setFld_cant (s : State) (f : Fld) (v : Nat) : (s.setFld f v).cant = s.cant := rfl
@[simp] theorem State.setFld_mem (s : State) (f : Fld) (v : Nat) : (s.setFld f v).mem = s.mem := rfl
@[simp] theorem State.setFld_pads (s : State) (f : Fld) (v : Nat) : (s.setFld f v).pads = s.pads := rfl
@[simp] theorem State.setFld_pwr (s : State) (f : Fld) (v : Nat) : (s.setFld f v).pwr = s.pwr := rfl
@[simp] theorem State.setFld_slp (s : State) (f : Fld) (v : Nat) : (s.setFld f v).slp = s.slp := rfl
@[simp] theorem State.setFld_clk (s : State) (f : Fld) (v : Nat) : (s.setFld f v).clk = s.clk := rfl
@[simp] theorem State.setFld_rst (s : State) (f : Fld) (v : Nat) : (s.setFld f v).rst = s.rst := rfl
@[simp] theorem State.setFld_node (s : State) (f : Fld) (v : Nat) : (s.setFld f v).node = s.node := rfl
@[simp] theorem State.setFld_drv (s : State) (f : Fld) (v : Nat) : (s.setFld f v).drv = s.drv := rfl
@[simp] theorem State.setFld_hl (s : State) (f : Fld) (v : Nat) : (s.setFld f v).hl = s.hl := rfl
@[simp] theorem State.setFld_scr (s : State) (f : Fld) (v : Nat) : (s.setFld f v).scr = s.scr := rfl
@[simp] theorem State.setFld_sac (s : State) (f : Fld) (v : Nat) : (s.setFld f v).sac = s.sac := rfl
@[simp] theorem State.setFld_descCache (s : State) (f : Fld) (v : Nat) : (s.setFld f v).descCache = s.descCache := rfl
@[simp] theorem State.setFld_sfe (s : State) (f : Fld) (v : Nat) : (s.setFld f v).sfe = s.sfe := rfl
@[simp] theorem State.setFld_loop (s : State) (f : Fld) (v : Nat) : (s.setFld f v).loop = s.loop := rfl
@[simp] theorem State.setFld_font (s : State) (f : Fld) (v : Nat) : (s.setFld f v).font = s.font := rfl
@[simp] theorem State.setFld_mot (s : State) (f : Fld) (v : Nat) : (s.setFld f v).mot = s.mot := rfl
@[simp] theorem State.setFld_ring (s : State) (f : Fld) (v : Nat) : (s.setFld f v).ring = s.ring := rfl
@[simp] theorem State.setFld_touch (s : State) (f : Fld) (v : Nat) : (s.setFld f v).touch = s.touch := rfl
@[simp] theorem State.setFld_chor (s : State) (f : Fld) (v : Nat) : (s.setFld f v).chor = s.chor := rfl
@[simp] theorem State.setFld_fio (s : State) (f : Fld) (v : Nat) : (s.setFld f v).fio = s.fio := rfl
@[simp] theorem State.setFld_st (s : State) (f : Fld) (v : Nat) : (s.setFld f v).st = s.st := rfl
@[simp] theorem State.setFld_tap (s : State) (f : Fld) (v : Nat) : (s.setFld f v).tap = s.tap := rfl
@[simp] theorem State.setFld_out (s : State) (f : Fld) (v : Nat) : (s.setFld f v).out = s.out := rfl
@[simp] theorem State.setFld_free (s : State) (f : Fld) (v : Nat) : (s.setFld f v).free = s.free := rfl
@[simp] theorem State.setFld_pending (s : State) (f : Fld) (v : Nat) : (s.setFld f v).pending = s.pending := rfl

/-! ### count -/

@[simp] theorem State.count_role (s : State) (f : Fld) : (s.count f).role = s.role := rfl
@[simp] theorem State.count_latched (s : State) (f : Fld) : (s.count f).latched = s.latched := rfl
@[simp] theorem State.count_dec (s : State) (f : Fld) : (s.count f).dec = s.dec := rfl
@[simp] theorem State.count_cant (s : State) (f : Fld) : (s.count f).cant = s.cant := rfl
@[simp] theorem State.count_mem (s : State) (f : Fld) : (s.count f).mem = s.mem := rfl
@[simp] theorem State.count_pads (s : State) (f : Fld) : (s.count f).pads = s.pads := rfl
@[simp] theorem State.count_pwr (s : State) (f : Fld) : (s.count f).pwr = s.pwr := rfl
@[simp] theorem State.count_slp (s : State) (f : Fld) : (s.count f).slp = s.slp := rfl
@[simp] theorem State.count_clk (s : State) (f : Fld) : (s.count f).clk = s.clk := rfl
@[simp] theorem State.count_rst (s : State) (f : Fld) : (s.count f).rst = s.rst := rfl
@[simp] theorem State.count_node (s : State) (f : Fld) : (s.count f).node = s.node := rfl
@[simp] theorem State.count_drv (s : State) (f : Fld) : (s.count f).drv = s.drv := rfl
@[simp] theorem State.count_hl (s : State) (f : Fld) : (s.count f).hl = s.hl := rfl
@[simp] theorem State.count_scr (s : State) (f : Fld) : (s.count f).scr = s.scr := rfl
@[simp] theorem State.count_sac (s : State) (f : Fld) : (s.count f).sac = s.sac := rfl
@[simp] theorem State.count_descCache (s : State) (f : Fld) : (s.count f).descCache = s.descCache := rfl
@[simp] theorem State.count_sfe (s : State) (f : Fld) : (s.count f).sfe = s.sfe := rfl
@[simp] theorem State.count_loop (s : State) (f : Fld) : (s.count f).loop = s.loop := rfl
@[simp] theorem State.count_font (s : State) (f : Fld) : (s.count f).font = s.font := rfl
@[simp] theorem State.count_mot (s : State) (f : Fld) : (s.count f).mot = s.mot := rfl
@[simp] theorem State.count_ring (s : State) (f : Fld) : (s.count f).ring = s.ring := rfl
@[simp] theorem State.count_touch (s : State) (f : Fld) : (s.count f).touch = s.touch := rfl
@[simp] theorem State.count_chor (s : State) (f : Fld) : (s.count f).chor = s.chor := rfl
@[simp] theorem State.count_fio (s : State) (f : Fld) : (s.count f).fio = s.fio := rfl
@[simp] theorem State.count_st (s : State) (f : Fld) : (s.count f).st = s.st := rfl
@[simp] theorem State.count_tap (s : State) (f : Fld) : (s.count f).tap = s.tap := rfl
@[simp] theorem State.count_out (s : State) (f : Fld) : (s.count f).out = s.out := rfl
@[simp] theorem State.count_free (s : State) (f : Fld) : (s.count f).free = s.free := rfl
@[simp] theorem State.count_pending (s : State) (f : Fld) : (s.count f).pending = s.pending := rfl

/-! ### countBy -/

@[simp] theorem State.countBy_role (s : State) (f : Fld) (n : Nat) : (s.countBy f n).role = s.role := rfl
@[simp] theorem State.countBy_latched (s : State) (f : Fld) (n : Nat) : (s.countBy f n).latched = s.latched := rfl
@[simp] theorem State.countBy_dec (s : State) (f : Fld) (n : Nat) : (s.countBy f n).dec = s.dec := rfl
@[simp] theorem State.countBy_cant (s : State) (f : Fld) (n : Nat) : (s.countBy f n).cant = s.cant := rfl
@[simp] theorem State.countBy_mem (s : State) (f : Fld) (n : Nat) : (s.countBy f n).mem = s.mem := rfl
@[simp] theorem State.countBy_pads (s : State) (f : Fld) (n : Nat) : (s.countBy f n).pads = s.pads := rfl
@[simp] theorem State.countBy_pwr (s : State) (f : Fld) (n : Nat) : (s.countBy f n).pwr = s.pwr := rfl
@[simp] theorem State.countBy_slp (s : State) (f : Fld) (n : Nat) : (s.countBy f n).slp = s.slp := rfl
@[simp] theorem State.countBy_clk (s : State) (f : Fld) (n : Nat) : (s.countBy f n).clk = s.clk := rfl
@[simp] theorem State.countBy_rst (s : State) (f : Fld) (n : Nat) : (s.countBy f n).rst = s.rst := rfl
@[simp] theorem State.countBy_node (s : State) (f : Fld) (n : Nat) : (s.countBy f n).node = s.node := rfl
@[simp] theorem State.countBy_drv (s : State) (f : Fld) (n : Nat) : (s.countBy f n).drv = s.drv := rfl
@[simp] theorem State.countBy_hl (s : State) (f : Fld) (n : Nat) : (s.countBy f n).hl = s.hl := rfl
@[simp] theorem State.countBy_scr (s : State) (f : Fld) (n : Nat) : (s.countBy f n).scr = s.scr := rfl
@[simp] theorem State.countBy_sac (s : State) (f : Fld) (n : Nat) : (s.countBy f n).sac = s.sac := rfl
@[simp] theorem State.countBy_descCache (s : State) (f : Fld) (n : Nat) : (s.countBy f n).descCache = s.descCache := rfl
@[simp] theorem State.countBy_sfe (s : State) (f : Fld) (n : Nat) : (s.countBy f n).sfe = s.sfe := rfl
@[simp] theorem State.countBy_loop (s : State) (f : Fld) (n : Nat) : (s.countBy f n).loop = s.loop := rfl
@[simp] theorem State.countBy_font (s : State) (f : Fld) (n : Nat) : (s.countBy f n).font = s.font := rfl
@[simp] theorem State.countBy_mot (s : State) (f : Fld) (n : Nat) : (s.countBy f n).mot = s.mot := rfl
@[simp] theorem State.countBy_ring (s : State) (f : Fld) (n : Nat) : (s.countBy f n).ring = s.ring := rfl
@[simp] theorem State.countBy_touch (s : State) (f : Fld) (n : Nat) : (s.countBy f n).touch = s.touch := rfl
@[simp] theorem State.countBy_chor (s : State) (f : Fld) (n : Nat) : (s.countBy f n).chor = s.chor := rfl
@[simp] theorem State.countBy_fio (s : State) (f : Fld) (n : Nat) : (s.countBy f n).fio = s.fio := rfl
@[simp] theorem State.countBy_st (s : State) (f : Fld) (n : Nat) : (s.countBy f n).st = s.st := rfl
@[simp] theorem State.countBy_tap (s : State) (f : Fld) (n : Nat) : (s.countBy f n).tap = s.tap := rfl
@[simp] theorem State.countBy_out (s : State) (f : Fld) (n : Nat) : (s.countBy f n).out = s.out := rfl
@[simp] theorem State.countBy_free (s : State) (f : Fld) (n : Nat) : (s.countBy f n).free = s.free := rfl
@[simp] theorem State.countBy_pending (s : State) (f : Fld) (n : Nat) : (s.countBy f n).pending = s.pending := rfl

/-! ### resetBlock -/

@[simp] theorem State.resetBlock_role (s : State) (k : Nat) : (s.resetBlock k).role = s.role := rfl
@[simp] theorem State.resetBlock_latched (s : State) (k : Nat) : (s.resetBlock k).latched = s.latched := rfl
@[simp] theorem State.resetBlock_dec (s : State) (k : Nat) : (s.resetBlock k).dec = s.dec := rfl
@[simp] theorem State.resetBlock_cant (s : State) (k : Nat) : (s.resetBlock k).cant = s.cant := rfl
@[simp] theorem State.resetBlock_mem (s : State) (k : Nat) : (s.resetBlock k).mem = s.mem := rfl
@[simp] theorem State.resetBlock_pads (s : State) (k : Nat) : (s.resetBlock k).pads = s.pads := rfl
@[simp] theorem State.resetBlock_pwr (s : State) (k : Nat) : (s.resetBlock k).pwr = s.pwr := rfl
@[simp] theorem State.resetBlock_slp (s : State) (k : Nat) : (s.resetBlock k).slp = s.slp := rfl
@[simp] theorem State.resetBlock_clk (s : State) (k : Nat) : (s.resetBlock k).clk = s.clk := rfl
@[simp] theorem State.resetBlock_rst (s : State) (k : Nat) : (s.resetBlock k).rst = s.rst := rfl
@[simp] theorem State.resetBlock_node (s : State) (k : Nat) : (s.resetBlock k).node = s.node := rfl
@[simp] theorem State.resetBlock_drv (s : State) (k : Nat) : (s.resetBlock k).drv = s.drv := rfl
@[simp] theorem State.resetBlock_hl (s : State) (k : Nat) : (s.resetBlock k).hl = s.hl := rfl
@[simp] theorem State.resetBlock_scr (s : State) (k : Nat) : (s.resetBlock k).scr = s.scr := rfl
@[simp] theorem State.resetBlock_sac (s : State) (k : Nat) : (s.resetBlock k).sac = s.sac := rfl
@[simp] theorem State.resetBlock_descCache (s : State) (k : Nat) : (s.resetBlock k).descCache = s.descCache := rfl
@[simp] theorem State.resetBlock_sfe (s : State) (k : Nat) : (s.resetBlock k).sfe = s.sfe := rfl
@[simp] theorem State.resetBlock_loop (s : State) (k : Nat) : (s.resetBlock k).loop = s.loop := rfl
@[simp] theorem State.resetBlock_font (s : State) (k : Nat) : (s.resetBlock k).font = s.font := rfl
@[simp] theorem State.resetBlock_mot (s : State) (k : Nat) : (s.resetBlock k).mot = s.mot := rfl
@[simp] theorem State.resetBlock_ring (s : State) (k : Nat) : (s.resetBlock k).ring = s.ring := rfl
@[simp] theorem State.resetBlock_touch (s : State) (k : Nat) : (s.resetBlock k).touch = s.touch := rfl
@[simp] theorem State.resetBlock_chor (s : State) (k : Nat) : (s.resetBlock k).chor = s.chor := rfl
@[simp] theorem State.resetBlock_fio (s : State) (k : Nat) : (s.resetBlock k).fio = s.fio := rfl
@[simp] theorem State.resetBlock_st (s : State) (k : Nat) : (s.resetBlock k).st = s.st := rfl
@[simp] theorem State.resetBlock_tap (s : State) (k : Nat) : (s.resetBlock k).tap = s.tap := rfl
@[simp] theorem State.resetBlock_out (s : State) (k : Nat) : (s.resetBlock k).out = s.out := rfl
@[simp] theorem State.resetBlock_free (s : State) (k : Nat) : (s.resetBlock k).free = s.free := rfl
@[simp] theorem State.resetBlock_pending (s : State) (k : Nat) : (s.resetBlock k).pending = s.pending := rfl

/-! ### emit -/

@[simp] theorem State.emit_role (s : State) (o : Out) : (s.emit o).role = s.role := rfl
@[simp] theorem State.emit_latched (s : State) (o : Out) : (s.emit o).latched = s.latched := rfl
@[simp] theorem State.emit_regs (s : State) (o : Out) : (s.emit o).regs = s.regs := rfl
@[simp] theorem State.emit_dec (s : State) (o : Out) : (s.emit o).dec = s.dec := rfl
@[simp] theorem State.emit_cant (s : State) (o : Out) : (s.emit o).cant = s.cant := rfl
@[simp] theorem State.emit_mem (s : State) (o : Out) : (s.emit o).mem = s.mem := rfl
@[simp] theorem State.emit_pads (s : State) (o : Out) : (s.emit o).pads = s.pads := rfl
@[simp] theorem State.emit_pwr (s : State) (o : Out) : (s.emit o).pwr = s.pwr := rfl
@[simp] theorem State.emit_slp (s : State) (o : Out) : (s.emit o).slp = s.slp := rfl
@[simp] theorem State.emit_clk (s : State) (o : Out) : (s.emit o).clk = s.clk := rfl
@[simp] theorem State.emit_rst (s : State) (o : Out) : (s.emit o).rst = s.rst := rfl
@[simp] theorem State.emit_node (s : State) (o : Out) : (s.emit o).node = s.node := rfl
@[simp] theorem State.emit_drv (s : State) (o : Out) : (s.emit o).drv = s.drv := rfl
@[simp] theorem State.emit_hl (s : State) (o : Out) : (s.emit o).hl = s.hl := rfl
@[simp] theorem State.emit_scr (s : State) (o : Out) : (s.emit o).scr = s.scr := rfl
@[simp] theorem State.emit_sac (s : State) (o : Out) : (s.emit o).sac = s.sac := rfl
@[simp] theorem State.emit_descCache (s : State) (o : Out) : (s.emit o).descCache = s.descCache := rfl
@[simp] theorem State.emit_sfe (s : State) (o : Out) : (s.emit o).sfe = s.sfe := rfl
@[simp] theorem State.emit_loop (s : State) (o : Out) : (s.emit o).loop = s.loop := rfl
@[simp] theorem State.emit_font (s : State) (o : Out) : (s.emit o).font = s.font := rfl
@[simp] theorem State.emit_mot (s : State) (o : Out) : (s.emit o).mot = s.mot := rfl
@[simp] theorem State.emit_ring (s : State) (o : Out) : (s.emit o).ring = s.ring := rfl
@[simp] theorem State.emit_touch (s : State) (o : Out) : (s.emit o).touch = s.touch := rfl
@[simp] theorem State.emit_chor (s : State) (o : Out) : (s.emit o).chor = s.chor := rfl
@[simp] theorem State.emit_fio (s : State) (o : Out) : (s.emit o).fio = s.fio := rfl
@[simp] theorem State.emit_st (s : State) (o : Out) : (s.emit o).st = s.st := rfl
@[simp] theorem State.emit_tap (s : State) (o : Out) : (s.emit o).tap = s.tap := rfl
@[simp] theorem State.emit_free (s : State) (o : Out) : (s.emit o).free = s.free := rfl
@[simp] theorem State.emit_pending (s : State) (o : Out) : (s.emit o).pending = s.pending := rfl
@[simp] theorem State.emit_reg (s : State) (o : Out) (x : Nat) : (s.emit o).reg x = s.reg x := rfl
@[simp] theorem State.emit_fld (s : State) (o : Out) (x : Fld) : (s.emit o).fld x = s.fld x := rfl
@[simp] theorem State.emit_on (s : State) (o : Out) (x : Fld) : (s.emit o).on x = s.on x := rfl
@[simp] theorem State.emit_out (s : State) (o : Out) : (s.emit o).out = o :: s.out := rfl

/-! ### used -/

@[simp] theorem State.used_role (s : State) (n : Nat) : (s.used n).role = s.role := rfl
@[simp] theorem State.used_latched (s : State) (n : Nat) : (s.used n).latched = s.latched := rfl
@[simp] theorem State.used_regs (s : State) (n : Nat) : (s.used n).regs = s.regs := rfl
@[simp] theorem State.used_dec (s : State) (n : Nat) : (s.used n).dec = s.dec := rfl
@[simp] theorem State.used_cant (s : State) (n : Nat) : (s.used n).cant = s.cant := rfl
@[simp] theorem State.used_mem (s : State) (n : Nat) : (s.used n).mem = s.mem := rfl
@[simp] theorem State.used_pads (s : State) (n : Nat) : (s.used n).pads = s.pads := rfl
@[simp] theorem State.used_pwr (s : State) (n : Nat) : (s.used n).pwr = s.pwr := rfl
@[simp] theorem State.used_slp (s : State) (n : Nat) : (s.used n).slp = s.slp := rfl
@[simp] theorem State.used_clk (s : State) (n : Nat) : (s.used n).clk = s.clk := rfl
@[simp] theorem State.used_rst (s : State) (n : Nat) : (s.used n).rst = s.rst := rfl
@[simp] theorem State.used_node (s : State) (n : Nat) : (s.used n).node = s.node := rfl
@[simp] theorem State.used_drv (s : State) (n : Nat) : (s.used n).drv = s.drv := rfl
@[simp] theorem State.used_hl (s : State) (n : Nat) : (s.used n).hl = s.hl := rfl
@[simp] theorem State.used_scr (s : State) (n : Nat) : (s.used n).scr = s.scr := rfl
@[simp] theorem State.used_sac (s : State) (n : Nat) : (s.used n).sac = s.sac := rfl
@[simp] theorem State.used_descCache (s : State) (n : Nat) : (s.used n).descCache = s.descCache := rfl
@[simp] theorem State.used_sfe (s : State) (n : Nat) : (s.used n).sfe = s.sfe := rfl
@[simp] theorem State.used_loop (s : State) (n : Nat) : (s.used n).loop = s.loop := rfl
@[simp] theorem State.used_font (s : State) (n : Nat) : (s.used n).font = s.font := rfl
@[simp] theorem State.used_mot (s : State) (n : Nat) : (s.used n).mot = s.mot := rfl
@[simp] theorem State.used_ring (s : State) (n : Nat) : (s.used n).ring = s.ring := rfl
@[simp] theorem State.used_touch (s : State) (n : Nat) : (s.used n).touch = s.touch := rfl
@[simp] theorem State.used_chor (s : State) (n : Nat) : (s.used n).chor = s.chor := rfl
@[simp] theorem State.used_fio (s : State) (n : Nat) : (s.used n).fio = s.fio := rfl
@[simp] theorem State.used_st (s : State) (n : Nat) : (s.used n).st = s.st := rfl
@[simp] theorem State.used_tap (s : State) (n : Nat) : (s.used n).tap = s.tap := rfl
@[simp] theorem State.used_out (s : State) (n : Nat) : (s.used n).out = s.out := rfl
@[simp] theorem State.used_pending (s : State) (n : Nat) : (s.used n).pending = s.pending := rfl
@[simp] theorem State.used_reg (s : State) (n : Nat) (x : Nat) : (s.used n).reg x = s.reg x := rfl
@[simp] theorem State.used_fld (s : State) (n : Nat) (x : Fld) : (s.used n).fld x = s.fld x := rfl
@[simp] theorem State.used_on (s : State) (n : Nat) (x : Fld) : (s.used n).on x = s.on x := rfl
@[simp] theorem State.used_free (s : State) (n : Nat) : (s.used n).free = s.free + n := rfl

/-! ### setNode -/

@[simp] theorem State.setNode_role (s : State) (g : Node → Node) : (s.setNode g).role = s.role := rfl
@[simp] theorem State.setNode_latched (s : State) (g : Node → Node) : (s.setNode g).latched = s.latched := rfl
@[simp] theorem State.setNode_regs (s : State) (g : Node → Node) : (s.setNode g).regs = s.regs := rfl
@[simp] theorem State.setNode_dec (s : State) (g : Node → Node) : (s.setNode g).dec = s.dec := rfl
@[simp] theorem State.setNode_cant (s : State) (g : Node → Node) : (s.setNode g).cant = s.cant := rfl
@[simp] theorem State.setNode_mem (s : State) (g : Node → Node) : (s.setNode g).mem = s.mem := rfl
@[simp] theorem State.setNode_pads (s : State) (g : Node → Node) : (s.setNode g).pads = s.pads := rfl
@[simp] theorem State.setNode_pwr (s : State) (g : Node → Node) : (s.setNode g).pwr = s.pwr := rfl
@[simp] theorem State.setNode_slp (s : State) (g : Node → Node) : (s.setNode g).slp = s.slp := rfl
@[simp] theorem State.setNode_clk (s : State) (g : Node → Node) : (s.setNode g).clk = s.clk := rfl
@[simp] theorem State.setNode_rst (s : State) (g : Node → Node) : (s.setNode g).rst = s.rst := rfl
@[simp] theorem State.setNode_drv (s : State) (g : Node → Node) : (s.setNode g).drv = s.drv := rfl
@[simp] theorem State.setNode_hl (s : State) (g : Node → Node) : (s.setNode g).hl = s.hl := rfl
@[simp] theorem State.setNode_scr (s : State) (g : Node → Node) : (s.setNode g).scr = s.scr := rfl
@[simp] theorem State.setNode_sac (s : State) (g : Node → Node) : (s.setNode g).sac = s.sac := rfl
@[simp] theorem State.setNode_descCache (s : State) (g : Node → Node) : (s.setNode g).descCache = s.descCache := rfl
@[simp] theorem State.setNode_sfe (s : State) (g : Node → Node) : (s.setNode g).sfe = s.sfe := rfl
@[simp] theorem State.setNode_loop (s : State) (g : Node → Node) : (s.setNode g).loop = s.loop := rfl
@[simp] theorem State.setNode_font (s : State) (g : Node → Node) : (s.setNode g).font = s.font := rfl
@[simp] theorem State.setNode_mot (s : State) (g : Node → Node) : (s.setNode g).mot = s.mot := rfl
@[simp] theorem State.setNode_ring (s : State) (g : Node → Node) : (s.setNode g).ring = s.ring := rfl
@[simp] theorem State.setNode_touch (s : State) (g : Node → Node) : (s.setNode g).touch = s.touch := rfl
@[simp] theorem State.setNode_chor (s : State) (g : Node → Node) : (s.setNode g).chor = s.chor := rfl
@[simp] theorem State.setNode_fio (s : State) (g : Node → Node) : (s.setNode g).fio = s.fio := rfl
@[simp] theorem State.setNode_st (s : State) (g : Node → Node) : (s.setNode g).st = s.st := rfl
@[simp] theorem State.setNode_tap (s : State) (g : Node → Node) : (s.setNode g).tap = s.tap := rfl
@[simp] theorem State.setNode_out (s : State) (g : Node → Node) : (s.setNode g).out = s.out := rfl
@[simp] theorem State.setNode_free (s : State) (g : Node → Node) : (s.setNode g).free = s.free := rfl
@[simp] theorem State.setNode_pending (s : State) (g : Node → Node) : (s.setNode g).pending = s.pending := rfl
@[simp] theorem State.setNode_reg (s : State) (g : Node → Node) (x : Nat) : (s.setNode g).reg x = s.reg x := rfl
@[simp] theorem State.setNode_fld (s : State) (g : Node → Node) (x : Fld) : (s.setNode g).fld x = s.fld x := rfl
@[simp] theorem State.setNode_on (s : State) (g : Node → Node) (x : Fld) : (s.setNode g).on x = s.on x := rfl
@[simp] theorem State.setNode_node (s : State) (g : Node → Node) : (s.setNode g).node = g s.node := rfl

/-! ### setDrv -/

@[simp] theorem State.setDrv_role (s : State) (g : Drv → Drv) : (s.setDrv g).role = s.role := rfl
@[simp] theorem State.setDrv_latched (s : State) (g : Drv → Drv) : (s.setDrv g).latched = s.latched := rfl
@[simp] theorem State.setDrv_regs (s : State) (g : Drv → Drv) : (s.setDrv g).regs = s.regs := rfl
@[simp] theorem State.setDrv_dec (s : State) (g : Drv → Drv) : (s.setDrv g).dec = s.dec := rfl
@[simp] theorem State.setDrv_cant (s : State) (g : Drv → Drv) : (s.setDrv g).cant = s.cant := rfl
@[simp] theorem State.setDrv_mem (s : State) (g : Drv → Drv) : (s.setDrv g).mem = s.mem := rfl
@[simp] theorem State.setDrv_pads (s : State) (g : Drv → Drv) : (s.setDrv g).pads = s.pads := rfl
@[simp] theorem State.setDrv_pwr (s : State) (g : Drv → Drv) : (s.setDrv g).pwr = s.pwr := rfl
@[simp] theorem State.setDrv_slp (s : State) (g : Drv → Drv) : (s.setDrv g).slp = s.slp := rfl
@[simp] theorem State.setDrv_clk (s : State) (g : Drv → Drv) : (s.setDrv g).clk = s.clk := rfl
@[simp] theorem State.setDrv_rst (s : State) (g : Drv → Drv) : (s.setDrv g).rst = s.rst := rfl
@[simp] theorem State.setDrv_node (s : State) (g : Drv → Drv) : (s.setDrv g).node = s.node := rfl
@[simp] theorem State.setDrv_hl (s : State) (g : Drv → Drv) : (s.setDrv g).hl = s.hl := rfl
@[simp] theorem State.setDrv_scr (s : State) (g : Drv → Drv) : (s.setDrv g).scr = s.scr := rfl
@[simp] theorem State.setDrv_sac (s : State) (g : Drv → Drv) : (s.setDrv g).sac = s.sac := rfl
@[simp] theorem State.setDrv_descCache (s : State) (g : Drv → Drv) : (s.setDrv g).descCache = s.descCache := rfl
@[simp] theorem State.setDrv_sfe (s : State) (g : Drv → Drv) : (s.setDrv g).sfe = s.sfe := rfl
@[simp] theorem State.setDrv_loop (s : State) (g : Drv → Drv) : (s.setDrv g).loop = s.loop := rfl
@[simp] theorem State.setDrv_font (s : State) (g : Drv → Drv) : (s.setDrv g).font = s.font := rfl
@[simp] theorem State.setDrv_mot (s : State) (g : Drv → Drv) : (s.setDrv g).mot = s.mot := rfl
@[simp] theorem State.setDrv_ring (s : State) (g : Drv → Drv) : (s.setDrv g).ring = s.ring := rfl
@[simp] theorem State.setDrv_touch (s : State) (g : Drv → Drv) : (s.setDrv g).touch = s.touch := rfl
@[simp] theorem State.setDrv_chor (s : State) (g : Drv → Drv) : (s.setDrv g).chor = s.chor := rfl
@[simp] theorem State.setDrv_fio (s : State) (g : Drv → Drv) : (s.setDrv g).fio = s.fio := rfl
@[simp] theorem State.setDrv_st (s : State) (g : Drv → Drv) : (s.setDrv g).st = s.st := rfl
@[simp] theorem State.setDrv_tap (s : State) (g : Drv → Drv) : (s.setDrv g).tap = s.tap := rfl
@[simp] theorem State.setDrv_out (s : State) (g : Drv → Drv) : (s.setDrv g).out = s.out := rfl
@[simp] theorem State.setDrv_free (s : State) (g : Drv → Drv) : (s.setDrv g).free = s.free := rfl
@[simp] theorem State.setDrv_pending (s : State) (g : Drv → Drv) : (s.setDrv g).pending = s.pending := rfl
@[simp] theorem State.setDrv_reg (s : State) (g : Drv → Drv) (x : Nat) : (s.setDrv g).reg x = s.reg x := rfl
@[simp] theorem State.setDrv_fld (s : State) (g : Drv → Drv) (x : Fld) : (s.setDrv g).fld x = s.fld x := rfl
@[simp] theorem State.setDrv_on (s : State) (g : Drv → Drv) (x : Fld) : (s.setDrv g).on x = s.on x := rfl
@[simp] theorem State.setDrv_drv (s : State) (g : Drv → Drv) : (s.setDrv g).drv = g s.drv := rfl

/-! ### setHl -/

@[simp] theorem State.setHl_role (s : State) (g : Hl → Hl) : (s.setHl g).role = s.role := rfl
@[simp] theorem State.setHl_latched (s : State) (g : Hl → Hl) : (s.setHl g).latched = s.latched := rfl
@[simp] theorem State.setHl_regs (s : State) (g : Hl → Hl) : (s.setHl g).regs = s.regs := rfl
@[simp] theorem State.setHl_dec (s : State) (g : Hl → Hl) : (s.setHl g).dec = s.dec := rfl
@[simp] theorem State.setHl_cant (s : State) (g : Hl → Hl) : (s.setHl g).cant = s.cant := rfl
@[simp] theorem State.setHl_mem (s : State) (g : Hl → Hl) : (s.setHl g).mem = s.mem := rfl
@[simp] theorem State.setHl_pads (s : State) (g : Hl → Hl) : (s.setHl g).pads = s.pads := rfl
@[simp] theorem State.setHl_pwr (s : State) (g : Hl → Hl) : (s.setHl g).pwr = s.pwr := rfl
@[simp] theorem State.setHl_slp (s : State) (g : Hl → Hl) : (s.setHl g).slp = s.slp := rfl
@[simp] theorem State.setHl_clk (s : State) (g : Hl → Hl) : (s.setHl g).clk = s.clk := rfl
@[simp] theorem State.setHl_rst (s : State) (g : Hl → Hl) : (s.setHl g).rst = s.rst := rfl
@[simp] theorem State.setHl_node (s : State) (g : Hl → Hl) : (s.setHl g).node = s.node := rfl
@[simp] theorem State.setHl_drv (s : State) (g : Hl → Hl) : (s.setHl g).drv = s.drv := rfl
@[simp] theorem State.setHl_scr (s : State) (g : Hl → Hl) : (s.setHl g).scr = s.scr := rfl
@[simp] theorem State.setHl_sac (s : State) (g : Hl → Hl) : (s.setHl g).sac = s.sac := rfl
@[simp] theorem State.setHl_descCache (s : State) (g : Hl → Hl) : (s.setHl g).descCache = s.descCache := rfl
@[simp] theorem State.setHl_sfe (s : State) (g : Hl → Hl) : (s.setHl g).sfe = s.sfe := rfl
@[simp] theorem State.setHl_loop (s : State) (g : Hl → Hl) : (s.setHl g).loop = s.loop := rfl
@[simp] theorem State.setHl_font (s : State) (g : Hl → Hl) : (s.setHl g).font = s.font := rfl
@[simp] theorem State.setHl_mot (s : State) (g : Hl → Hl) : (s.setHl g).mot = s.mot := rfl
@[simp] theorem State.setHl_ring (s : State) (g : Hl → Hl) : (s.setHl g).ring = s.ring := rfl
@[simp] theorem State.setHl_touch (s : State) (g : Hl → Hl) : (s.setHl g).touch = s.touch := rfl
@[simp] theorem State.setHl_chor (s : State) (g : Hl → Hl) : (s.setHl g).chor = s.chor := rfl
@[simp] theorem State.setHl_fio (s : State) (g : Hl → Hl) : (s.setHl g).fio = s.fio := rfl
@[simp] theorem State.setHl_st (s : State) (g : Hl → Hl) : (s.setHl g).st = s.st := rfl
@[simp] theorem State.setHl_tap (s : State) (g : Hl → Hl) : (s.setHl g).tap = s.tap := rfl
@[simp] theorem State.setHl_out (s : State) (g : Hl → Hl) : (s.setHl g).out = s.out := rfl
@[simp] theorem State.setHl_free (s : State) (g : Hl → Hl) : (s.setHl g).free = s.free := rfl
@[simp] theorem State.setHl_pending (s : State) (g : Hl → Hl) : (s.setHl g).pending = s.pending := rfl
@[simp] theorem State.setHl_reg (s : State) (g : Hl → Hl) (x : Nat) : (s.setHl g).reg x = s.reg x := rfl
@[simp] theorem State.setHl_fld (s : State) (g : Hl → Hl) (x : Fld) : (s.setHl g).fld x = s.fld x := rfl
@[simp] theorem State.setHl_on (s : State) (g : Hl → Hl) (x : Fld) : (s.setHl g).on x = s.on x := rfl
@[simp] theorem State.setHl_hl (s : State) (g : Hl → Hl) : (s.setHl g).hl = g s.hl := rfl

/-! ### chSet -/

@[simp] theorem State.chSet_role (s : State) (g : Chor → Chor) : (s.chSet g).role = s.role := rfl
@[simp] theorem State.chSet_latched (s : State) (g : Chor → Chor) : (s.chSet g).latched = s.latched := rfl
@[simp] theorem State.chSet_regs (s : State) (g : Chor → Chor) : (s.chSet g).regs = s.regs := rfl
@[simp] theorem State.chSet_dec (s : State) (g : Chor → Chor) : (s.chSet g).dec = s.dec := rfl
@[simp] theorem State.chSet_cant (s : State) (g : Chor → Chor) : (s.chSet g).cant = s.cant := rfl
@[simp] theorem State.chSet_mem (s : State) (g : Chor → Chor) : (s.chSet g).mem = s.mem := rfl
@[simp] theorem State.chSet_pads (s : State) (g : Chor → Chor) : (s.chSet g).pads = s.pads := rfl
@[simp] theorem State.chSet_pwr (s : State) (g : Chor → Chor) : (s.chSet g).pwr = s.pwr := rfl
@[simp] theorem State.chSet_slp (s : State) (g : Chor → Chor) : (s.chSet g).slp = s.slp := rfl
@[simp] theorem State.chSet_clk (s : State) (g : Chor → Chor) : (s.chSet g).clk = s.clk := rfl
@[simp] theorem State.chSet_rst (s : State) (g : Chor → Chor) : (s.chSet g).rst = s.rst := rfl
@[simp] theorem State.chSet_node (s : State) (g : Chor → Chor) : (s.chSet g).node = s.node := rfl
@[simp] theorem State.chSet_drv (s : State) (g : Chor → Chor) : (s.chSet g).drv = s.drv := rfl
@[simp] theorem State.chSet_hl (s : State) (g : Chor → Chor) : (s.chSet g).hl = s.hl := rfl
@[simp] theorem State.chSet_scr (s : State) (g : Chor → Chor) : (s.chSet g).scr = s.scr := rfl
@[simp] theorem State.chSet_sac (s : State) (g : Chor → Chor) : (s.chSet g).sac = s.sac := rfl
@[simp] theorem State.chSet_descCache (s : State) (g : Chor → Chor) : (s.chSet g).descCache = s.descCache := rfl
@[simp] theorem State.chSet_sfe (s : State) (g : Chor → Chor) : (s.chSet g).sfe = s.sfe := rfl
@[simp] theorem State.chSet_loop (s : State) (g : Chor → Chor) : (s.chSet g).loop = s.loop := rfl
@[simp] theorem State.chSet_font (s : State) (g : Chor → Chor) : (s.chSet g).font = s.font := rfl
@[simp] theorem State.chSet_mot (s : State) (g : Chor → Chor) : (s.chSet g).mot = s.mot := rfl
@[simp] theorem State.chSet_ring (s : State) (g : Chor → Chor) : (s.chSet g).ring = s.ring := rfl
@[simp] theorem State.chSet_touch (s : State) (g : Chor → Chor) : (s.chSet g).touch = s.touch := rfl
@[simp] theorem State.chSet_fio (s : State) (g : Chor → Chor) : (s.chSet g).fio = s.fio := rfl
@[simp] theorem State.chSet_st (s : State) (g : Chor → Chor) : (s.chSet g).st = s.st := rfl
@[simp] theorem State.chSet_tap (s : State) (g : Chor → Chor) : (s.chSet g).tap = s.tap := rfl
@[simp] theorem State.chSet_out (s : State) (g : Chor → Chor) : (s.chSet g).out = s.out := rfl
@[simp] theorem State.chSet_free (s : State) (g : Chor → Chor) : (s.chSet g).free = s.free := rfl
@[simp] theorem State.chSet_pending (s : State) (g : Chor → Chor) : (s.chSet g).pending = s.pending := rfl
@[simp] theorem State.chSet_reg (s : State) (g : Chor → Chor) (x : Nat) : (s.chSet g).reg x = s.reg x := rfl
@[simp] theorem State.chSet_fld (s : State) (g : Chor → Chor) (x : Fld) : (s.chSet g).fld x = s.fld x := rfl
@[simp] theorem State.chSet_on (s : State) (g : Chor → Chor) (x : Fld) : (s.chSet g).on x = s.on x := rfl
@[simp] theorem State.chSet_chor (s : State) (g : Chor → Chor) : (s.chSet g).chor = g s.chor := rfl

/-! ### sfeSet -/

@[simp] theorem State.sfeSet_role (s : State) (g : Sfe → Sfe) : (s.sfeSet g).role = s.role := rfl
@[simp] theorem State.sfeSet_latched (s : State) (g : Sfe → Sfe) : (s.sfeSet g).latched = s.latched := rfl
@[simp] theorem State.sfeSet_regs (s : State) (g : Sfe → Sfe) : (s.sfeSet g).regs = s.regs := rfl
@[simp] theorem State.sfeSet_dec (s : State) (g : Sfe → Sfe) : (s.sfeSet g).dec = s.dec := rfl
@[simp] theorem State.sfeSet_cant (s : State) (g : Sfe → Sfe) : (s.sfeSet g).cant = s.cant := rfl
@[simp] theorem State.sfeSet_mem (s : State) (g : Sfe → Sfe) : (s.sfeSet g).mem = s.mem := rfl
@[simp] theorem State.sfeSet_pads (s : State) (g : Sfe → Sfe) : (s.sfeSet g).pads = s.pads := rfl
@[simp] theorem State.sfeSet_pwr (s : State) (g : Sfe → Sfe) : (s.sfeSet g).pwr = s.pwr := rfl
@[simp] theorem State.sfeSet_slp (s : State) (g : Sfe → Sfe) : (s.sfeSet g).slp = s.slp := rfl
@[simp] theorem State.sfeSet_clk (s : State) (g : Sfe → Sfe) : (s.sfeSet g).clk = s.clk := rfl
@[simp] theorem State.sfeSet_rst (s : State) (g : Sfe → Sfe) : (s.sfeSet g).rst = s.rst := rfl
@[simp] theorem State.sfeSet_node (s : State) (g : Sfe → Sfe) : (s.sfeSet g).node = s.node := rfl
@[simp] theorem State.sfeSet_drv (s : State) (g : Sfe → Sfe) : (s.sfeSet g).drv = s.drv := rfl
@[simp] theorem State.sfeSet_hl (s : State) (g : Sfe → Sfe) : (s.sfeSet g).hl = s.hl := rfl
@[simp] theorem State.sfeSet_scr (s : State) (g : Sfe → Sfe) : (s.sfeSet g).scr = s.scr := rfl
@[simp] theorem State.sfeSet_sac (s : State) (g : Sfe → Sfe) : (s.sfeSet g).sac = s.sac := rfl
@[simp] theorem State.sfeSet_descCache (s : State) (g : Sfe → Sfe) : (s.sfeSet g).descCache = s.descCache := rfl
@[simp] theorem State.sfeSet_loop (s : State) (g : Sfe → Sfe) : (s.sfeSet g).loop = s.loop := rfl
@[simp] theorem State.sfeSet_font (s : State) (g : Sfe → Sfe) : (s.sfeSet g).font = s.font := rfl
@[simp] theorem State.sfeSet_mot (s : State) (g : Sfe → Sfe) : (s.sfeSet g).mot = s.mot := rfl
@[simp] theorem State.sfeSet_ring (s : State) (g : Sfe → Sfe) : (s.sfeSet g).ring = s.ring := rfl
@[simp] theorem State.sfeSet_touch (s : State) (g : Sfe → Sfe) : (s.sfeSet g).touch = s.touch := rfl
@[simp] theorem State.sfeSet_chor (s : State) (g : Sfe → Sfe) : (s.sfeSet g).chor = s.chor := rfl
@[simp] theorem State.sfeSet_fio (s : State) (g : Sfe → Sfe) : (s.sfeSet g).fio = s.fio := rfl
@[simp] theorem State.sfeSet_st (s : State) (g : Sfe → Sfe) : (s.sfeSet g).st = s.st := rfl
@[simp] theorem State.sfeSet_tap (s : State) (g : Sfe → Sfe) : (s.sfeSet g).tap = s.tap := rfl
@[simp] theorem State.sfeSet_out (s : State) (g : Sfe → Sfe) : (s.sfeSet g).out = s.out := rfl
@[simp] theorem State.sfeSet_free (s : State) (g : Sfe → Sfe) : (s.sfeSet g).free = s.free := rfl
@[simp] theorem State.sfeSet_pending (s : State) (g : Sfe → Sfe) : (s.sfeSet g).pending = s.pending := rfl
@[simp] theorem State.sfeSet_reg (s : State) (g : Sfe → Sfe) (x : Nat) : (s.sfeSet g).reg x = s.reg x := rfl
@[simp] theorem State.sfeSet_fld (s : State) (g : Sfe → Sfe) (x : Fld) : (s.sfeSet g).fld x = s.fld x := rfl
@[simp] theorem State.sfeSet_on (s : State) (g : Sfe → Sfe) (x : Fld) : (s.sfeSet g).on x = s.on x := rfl
@[simp] theorem State.sfeSet_sfe (s : State) (g : Sfe → Sfe) : (s.sfeSet g).sfe = g s.sfe := rfl

/-! ### fontSet -/

@[simp] theorem State.fontSet_role (s : State) (g : Font → Font) : (s.fontSet g).role = s.role := rfl
@[simp] theorem State.fontSet_latched (s : State) (g : Font → Font) : (s.fontSet g).latched = s.latched := rfl
@[simp] theorem State.fontSet_regs (s : State) (g : Font → Font) : (s.fontSet g).regs = s.regs := rfl
@[simp] theorem State.fontSet_dec (s : State) (g : Font → Font) : (s.fontSet g).dec = s.dec := rfl
@[simp] theorem State.fontSet_cant (s : State) (g : Font → Font) : (s.fontSet g).cant = s.cant := rfl
@[simp] theorem State.fontSet_mem (s : State) (g : Font → Font) : (s.fontSet g).mem = s.mem := rfl
@[simp] theorem State.fontSet_pads (s : State) (g : Font → Font) : (s.fontSet g).pads = s.pads := rfl
@[simp] theorem State.fontSet_pwr (s : State) (g : Font → Font) : (s.fontSet g).pwr = s.pwr := rfl
@[simp] theorem State.fontSet_slp (s : State) (g : Font → Font) : (s.fontSet g).slp = s.slp := rfl
@[simp] theorem State.fontSet_clk (s : State) (g : Font → Font) : (s.fontSet g).clk = s.clk := rfl
@[simp] theorem State.fontSet_rst (s : State) (g : Font → Font) : (s.fontSet g).rst = s.rst := rfl
@[simp] theorem State.fontSet_node (s : State) (g : Font → Font) : (s.fontSet g).node = s.node := rfl
@[simp] theorem State.fontSet_drv (s : State) (g : Font → Font) : (s.fontSet g).drv = s.drv := rfl
@[simp] theorem State.fontSet_hl (s : State) (g : Font → Font) : (s.fontSet g).hl = s.hl := rfl
@[simp] theorem State.fontSet_scr (s : State) (g : Font → Font) : (s.fontSet g).scr = s.scr := rfl
@[simp] theorem State.fontSet_sac (s : State) (g : Font → Font) : (s.fontSet g).sac = s.sac := rfl
@[simp] theorem State.fontSet_descCache (s : State) (g : Font → Font) : (s.fontSet g).descCache = s.descCache := rfl
@[simp] theorem State.fontSet_sfe (s : State) (g : Font → Font) : (s.fontSet g).sfe = s.sfe := rfl
@[simp] theorem State.fontSet_loop (s : State) (g : Font → Font) : (s.fontSet g).loop = s.loop := rfl
@[simp] theorem State.fontSet_mot (s : State) (g : Font → Font) : (s.fontSet g).mot = s.mot := rfl
@[simp] theorem State.fontSet_ring (s : State) (g : Font → Font) : (s.fontSet g).ring = s.ring := rfl
@[simp] theorem State.fontSet_touch (s : State) (g : Font → Font) : (s.fontSet g).touch = s.touch := rfl
@[simp] theorem State.fontSet_chor (s : State) (g : Font → Font) : (s.fontSet g).chor = s.chor := rfl
@[simp] theorem State.fontSet_fio (s : State) (g : Font → Font) : (s.fontSet g).fio = s.fio := rfl
@[simp] theorem State.fontSet_st (s : State) (g : Font → Font) : (s.fontSet g).st = s.st := rfl
@[simp] theorem State.fontSet_tap (s : State) (g : Font → Font) : (s.fontSet g).tap = s.tap := rfl
@[simp] theorem State.fontSet_out (s : State) (g : Font → Font) : (s.fontSet g).out = s.out := rfl
@[simp] theorem State.fontSet_free (s : State) (g : Font → Font) : (s.fontSet g).free = s.free := rfl
@[simp] theorem State.fontSet_pending (s : State) (g : Font → Font) : (s.fontSet g).pending = s.pending := rfl
@[simp] theorem State.fontSet_reg (s : State) (g : Font → Font) (x : Nat) : (s.fontSet g).reg x = s.reg x := rfl
@[simp] theorem State.fontSet_fld (s : State) (g : Font → Font) (x : Fld) : (s.fontSet g).fld x = s.fld x := rfl
@[simp] theorem State.fontSet_on (s : State) (g : Font → Font) (x : Fld) : (s.fontSet g).on x = s.on x := rfl
@[simp] theorem State.fontSet_font (s : State) (g : Font → Font) : (s.fontSet g).font = g s.font := rfl

/-! ### stSet -/

@[simp] theorem State.stSet_role (s : State) (g : SelfTest → SelfTest) : (s.stSet g).role = s.role := rfl
@[simp] theorem State.stSet_latched (s : State) (g : SelfTest → SelfTest) : (s.stSet g).latched = s.latched := rfl
@[simp] theorem State.stSet_regs (s : State) (g : SelfTest → SelfTest) : (s.stSet g).regs = s.regs := rfl
@[simp] theorem State.stSet_dec (s : State) (g : SelfTest → SelfTest) : (s.stSet g).dec = s.dec := rfl
@[simp] theorem State.stSet_cant (s : State) (g : SelfTest → SelfTest) : (s.stSet g).cant = s.cant := rfl
@[simp] theorem State.stSet_mem (s : State) (g : SelfTest → SelfTest) : (s.stSet g).mem = s.mem := rfl
@[simp] theorem State.stSet_pads (s : State) (g : SelfTest → SelfTest) : (s.stSet g).pads = s.pads := rfl
@[simp] theorem State.stSet_pwr (s : State) (g : SelfTest → SelfTest) : (s.stSet g).pwr = s.pwr := rfl
@[simp] theorem State.stSet_slp (s : State) (g : SelfTest → SelfTest) : (s.stSet g).slp = s.slp := rfl
@[simp] theorem State.stSet_clk (s : State) (g : SelfTest → SelfTest) : (s.stSet g).clk = s.clk := rfl
@[simp] theorem State.stSet_rst (s : State) (g : SelfTest → SelfTest) : (s.stSet g).rst = s.rst := rfl
@[simp] theorem State.stSet_node (s : State) (g : SelfTest → SelfTest) : (s.stSet g).node = s.node := rfl
@[simp] theorem State.stSet_drv (s : State) (g : SelfTest → SelfTest) : (s.stSet g).drv = s.drv := rfl
@[simp] theorem State.stSet_hl (s : State) (g : SelfTest → SelfTest) : (s.stSet g).hl = s.hl := rfl
@[simp] theorem State.stSet_scr (s : State) (g : SelfTest → SelfTest) : (s.stSet g).scr = s.scr := rfl
@[simp] theorem State.stSet_sac (s : State) (g : SelfTest → SelfTest) : (s.stSet g).sac = s.sac := rfl
@[simp] theorem State.stSet_descCache (s : State) (g : SelfTest → SelfTest) : (s.stSet g).descCache = s.descCache := rfl
@[simp] theorem State.stSet_sfe (s : State) (g : SelfTest → SelfTest) : (s.stSet g).sfe = s.sfe := rfl
@[simp] theorem State.stSet_loop (s : State) (g : SelfTest → SelfTest) : (s.stSet g).loop = s.loop := rfl
@[simp] theorem State.stSet_font (s : State) (g : SelfTest → SelfTest) : (s.stSet g).font = s.font := rfl
@[simp] theorem State.stSet_mot (s : State) (g : SelfTest → SelfTest) : (s.stSet g).mot = s.mot := rfl
@[simp] theorem State.stSet_ring (s : State) (g : SelfTest → SelfTest) : (s.stSet g).ring = s.ring := rfl
@[simp] theorem State.stSet_touch (s : State) (g : SelfTest → SelfTest) : (s.stSet g).touch = s.touch := rfl
@[simp] theorem State.stSet_chor (s : State) (g : SelfTest → SelfTest) : (s.stSet g).chor = s.chor := rfl
@[simp] theorem State.stSet_fio (s : State) (g : SelfTest → SelfTest) : (s.stSet g).fio = s.fio := rfl
@[simp] theorem State.stSet_tap (s : State) (g : SelfTest → SelfTest) : (s.stSet g).tap = s.tap := rfl
@[simp] theorem State.stSet_out (s : State) (g : SelfTest → SelfTest) : (s.stSet g).out = s.out := rfl
@[simp] theorem State.stSet_free (s : State) (g : SelfTest → SelfTest) : (s.stSet g).free = s.free := rfl
@[simp] theorem State.stSet_pending (s : State) (g : SelfTest → SelfTest) : (s.stSet g).pending = s.pending := rfl
@[simp] theorem State.stSet_reg (s : State) (g : SelfTest → SelfTest) (x : Nat) : (s.stSet g).reg x = s.reg x := rfl
@[simp] theorem State.stSet_fld (s : State) (g : SelfTest → SelfTest) (x : Fld) : (s.stSet g).fld x = s.fld x := rfl
@[simp] theorem State.stSet_on (s : State) (g : SelfTest → SelfTest) (x : Fld) : (s.stSet g).on x = s.on x := rfl
@[simp] theorem State.stSet_st (s : State) (g : SelfTest → SelfTest) : (s.stSet g).st = g s.st := rfl

/-! ### motSet -/

@[simp] theorem State.motSet_role (s : State) (g : Motion → Motion) : (s.motSet g).role = s.role := rfl
@[simp] theorem State.motSet_latched (s : State) (g : Motion → Motion) : (s.motSet g).latched = s.latched := rfl
@[simp] theorem State.motSet_regs (s : State) (g : Motion → Motion) : (s.motSet g).regs = s.regs := rfl
@[simp] theorem State.motSet_dec (s : State) (g : Motion → Motion) : (s.motSet g).dec = s.dec := rfl
@[simp] theorem State.motSet_cant (s : State) (g : Motion → Motion) : (s.motSet g).cant = s.cant := rfl
@[simp] theorem State.motSet_mem (s : State) (g : Motion → Motion) : (s.motSet g).mem = s.mem := rfl
@[simp] theorem State.motSet_pads (s : State) (g : Motion → Motion) : (s.motSet g).pads = s.pads := rfl
@[simp] theorem State.motSet_pwr (s : State) (g : Motion → Motion) : (s.motSet g).pwr = s.pwr := rfl
@[simp] theorem State.motSet_slp (s : State) (g : Motion → Motion) : (s.motSet g).slp = s.slp := rfl
@[simp] theorem State.motSet_clk (s : State) (g : Motion → Motion) : (s.motSet g).clk = s.clk := rfl
@[simp] theorem State.motSet_rst (s : State) (g : Motion → Motion) : (s.motSet g).rst = s.rst := rfl
@[simp] theorem State.motSet_node (s : State) (g : Motion → Motion) : (s.motSet g).node = s.node := rfl
@[simp] theorem State.motSet_drv (s : State) (g : Motion → Motion) : (s.motSet g).drv = s.drv := rfl
@[simp] theorem State.motSet_hl (s : State) (g : Motion → Motion) : (s.motSet g).hl = s.hl := rfl
@[simp] theorem State.motSet_scr (s : State) (g : Motion → Motion) : (s.motSet g).scr = s.scr := rfl
@[simp] theorem State.motSet_sac (s : State) (g : Motion → Motion) : (s.motSet g).sac = s.sac := rfl
@[simp] theorem State.motSet_descCache (s : State) (g : Motion → Motion) : (s.motSet g).descCache = s.descCache := rfl
@[simp] theorem State.motSet_sfe (s : State) (g : Motion → Motion) : (s.motSet g).sfe = s.sfe := rfl
@[simp] theorem State.motSet_loop (s : State) (g : Motion → Motion) : (s.motSet g).loop = s.loop := rfl
@[simp] theorem State.motSet_font (s : State) (g : Motion → Motion) : (s.motSet g).font = s.font := rfl
@[simp] theorem State.motSet_ring (s : State) (g : Motion → Motion) : (s.motSet g).ring = s.ring := rfl
@[simp] theorem State.motSet_touch (s : State) (g : Motion → Motion) : (s.motSet g).touch = s.touch := rfl
@[simp] theorem State.motSet_chor (s : State) (g : Motion → Motion) : (s.motSet g).chor = s.chor := rfl
@[simp] theorem State.motSet_fio (s : State) (g : Motion → Motion) : (s.motSet g).fio = s.fio := rfl
@[simp] theorem State.motSet_st (s : State) (g : Motion → Motion) : (s.motSet g).st = s.st := rfl
@[simp] theorem State.motSet_tap (s : State) (g : Motion → Motion) : (s.motSet g).tap = s.tap := rfl
@[simp] theorem State.motSet_out (s : State) (g : Motion → Motion) : (s.motSet g).out = s.out := rfl
@[simp] theorem State.motSet_free (s : State) (g : Motion → Motion) : (s.motSet g).free = s.free := rfl
@[simp] theorem State.motSet_pending (s : State) (g : Motion → Motion) : (s.motSet g).pending = s.pending := rfl
@[simp] theorem State.motSet_reg (s : State) (g : Motion → Motion) (x : Nat) : (s.motSet g).reg x = s.reg x := rfl
@[simp] theorem State.motSet_fld (s : State) (g : Motion → Motion) (x : Fld) : (s.motSet g).fld x = s.fld x := rfl
@[simp] theorem State.motSet_on (s : State) (g : Motion → Motion) (x : Fld) : (s.motSet g).on x = s.on x := rfl
@[simp] theorem State.motSet_mot (s : State) (g : Motion → Motion) : (s.motSet g).mot = g s.mot := rfl

/-! ### rgSet -/

@[simp] theorem State.rgSet_role (s : State) (g : Ringers → Ringers) : (s.rgSet g).role = s.role := rfl
@[simp] theorem State.rgSet_latched (s : State) (g : Ringers → Ringers) : (s.rgSet g).latched = s.latched := rfl
@[simp] theorem State.rgSet_regs (s : State) (g : Ringers → Ringers) : (s.rgSet g).regs = s.regs := rfl
@[simp] theorem State.rgSet_dec (s : State) (g : Ringers → Ringers) : (s.rgSet g).dec = s.dec := rfl
@[simp] theorem State.rgSet_cant (s : State) (g : Ringers → Ringers) : (s.rgSet g).cant = s.cant := rfl
@[simp] theorem State.rgSet_mem (s : State) (g : Ringers → Ringers) : (s.rgSet g).mem = s.mem := rfl
@[simp] theorem State.rgSet_pads (s : State) (g : Ringers → Ringers) : (s.rgSet g).pads = s.pads := rfl
@[simp] theorem State.rgSet_pwr (s : State) (g : Ringers → Ringers) : (s.rgSet g).pwr = s.pwr := rfl
@[simp] theorem State.rgSet_slp (s : State) (g : Ringers → Ringers) : (s.rgSet g).slp = s.slp := rfl
@[simp] theorem State.rgSet_clk (s : State) (g : Ringers → Ringers) : (s.rgSet g).clk = s.clk := rfl
@[simp] theorem State.rgSet_rst (s : State) (g : Ringers → Ringers) : (s.rgSet g).rst = s.rst := rfl
@[simp] theorem State.rgSet_node (s : State) (g : Ringers → Ringers) : (s.rgSet g).node = s.node := rfl
@[simp] theorem State.rgSet_drv (s : State) (g : Ringers → Ringers) : (s.rgSet g).drv = s.drv := rfl
@[simp] theorem State.rgSet_hl (s : State) (g : Ringers → Ringers) : (s.rgSet g).hl = s.hl := rfl
@[simp] theorem State.rgSet_scr (s : State) (g : Ringers → Ringers) : (s.rgSet g).scr = s.scr := rfl
@[simp] theorem State.rgSet_sac (s : State) (g : Ringers → Ringers) : (s.rgSet g).sac = s.sac := rfl
@[simp] theorem State.rgSet_descCache (s : State) (g : Ringers → Ringers) : (s.rgSet g).descCache = s.descCache := rfl
@[simp] theorem State.rgSet_sfe (s : State) (g : Ringers → Ringers) : (s.rgSet g).sfe = s.sfe := rfl
@[simp] theorem State.rgSet_loop (s : State) (g : Ringers → Ringers) : (s.rgSet g).loop = s.loop := rfl
@[simp] theorem State.rgSet_font (s : State) (g : Ringers → Ringers) : (s.rgSet g).font = s.font := rfl
@[simp] theorem State.rgSet_mot (s : State) (g : Ringers → Ringers) : (s.rgSet g).mot = s.mot := rfl
@[simp] theorem State.rgSet_touch (s : State) (g : Ringers → Ringers) : (s.rgSet g).touch = s.touch := rfl
@[simp] theorem State.rgSet_chor (s : State) (g : Ringers → Ringers) : (s.rgSet g).chor = s.chor := rfl
@[simp] theorem State.rgSet_fio (s : State) (g : Ringers → Ringers) : (s.rgSet g).fio = s.fio := rfl
@[simp] theorem State.rgSet_st (s : State) (g : Ringers → Ringers) : (s.rgSet g).st = s.st := rfl
@[simp] theorem State.rgSet_tap (s : State) (g : Ringers → Ringers) : (s.rgSet g).tap = s.tap := rfl
@[simp] theorem State.rgSet_out (s : State) (g : Ringers → Ringers) : (s.rgSet g).out = s.out := rfl
@[simp] theorem State.rgSet_free (s : State) (g : Ringers → Ringers) : (s.rgSet g).free = s.free := rfl
@[simp] theorem State.rgSet_pending (s : State) (g : Ringers → Ringers) : (s.rgSet g).pending = s.pending := rfl
@[simp] theorem State.rgSet_reg (s : State) (g : Ringers → Ringers) (x : Nat) : (s.rgSet g).reg x = s.reg x := rfl
@[simp] theorem State.rgSet_fld (s : State) (g : Ringers → Ringers) (x : Fld) : (s.rgSet g).fld x = s.fld x := rfl
@[simp] theorem State.rgSet_on (s : State) (g : Ringers → Ringers) (x : Fld) : (s.rgSet g).on x = s.on x := rfl
@[simp] theorem State.rgSet_ring (s : State) (g : Ringers → Ringers) : (s.rgSet g).ring = g s.ring := rfl

/-! ### fioSet -/

@[simp] theorem State.fioSet_role (s : State) (g : Field → Field) : (s.fioSet g).role = s.role := rfl
@[simp] theorem State.fioSet_latched (s : State) (g : Field → Field) : (s.fioSet g).latched = s.latched := rfl
@[simp] theorem State.fioSet_regs (s : State) (g : Field → Field) : (s.fioSet g).regs = s.regs := rfl
@[simp] theorem State.fioSet_dec (s : State) (g : Field → Field) : (s.fioSet g).dec = s.dec := rfl
@[simp] theorem State.fioSet_cant (s : State) (g : Field → Field) : (s.fioSet g).cant = s.cant := rfl
@[simp] theorem State.fioSet_mem (s : State) (g : Field → Field) : (s.fioSet g).mem = s.mem := rfl
@[simp] theorem State.fioSet_pads (s : State) (g : Field → Field) : (s.fioSet g).pads = s.pads := rfl
@[simp] theorem State.fioSet_pwr (s : State) (g : Field → Field) : (s.fioSet g).pwr = s.pwr := rfl
@[simp] theorem State.fioSet_slp (s : State) (g : Field → Field) : (s.fioSet g).slp = s.slp := rfl
@[simp] theorem State.fioSet_clk (s : State) (g : Field → Field) : (s.fioSet g).clk = s.clk := rfl
@[simp] theorem State.fioSet_rst (s : State) (g : Field → Field) : (s.fioSet g).rst = s.rst := rfl
@[simp] theorem State.fioSet_node (s : State) (g : Field → Field) : (s.fioSet g).node = s.node := rfl
@[simp] theorem State.fioSet_drv (s : State) (g : Field → Field) : (s.fioSet g).drv = s.drv := rfl
@[simp] theorem State.fioSet_hl (s : State) (g : Field → Field) : (s.fioSet g).hl = s.hl := rfl
@[simp] theorem State.fioSet_scr (s : State) (g : Field → Field) : (s.fioSet g).scr = s.scr := rfl
@[simp] theorem State.fioSet_sac (s : State) (g : Field → Field) : (s.fioSet g).sac = s.sac := rfl
@[simp] theorem State.fioSet_descCache (s : State) (g : Field → Field) : (s.fioSet g).descCache = s.descCache := rfl
@[simp] theorem State.fioSet_sfe (s : State) (g : Field → Field) : (s.fioSet g).sfe = s.sfe := rfl
@[simp] theorem State.fioSet_loop (s : State) (g : Field → Field) : (s.fioSet g).loop = s.loop := rfl
@[simp] theorem State.fioSet_font (s : State) (g : Field → Field) : (s.fioSet g).font = s.font := rfl
@[simp] theorem State.fioSet_mot (s : State) (g : Field → Field) : (s.fioSet g).mot = s.mot := rfl
@[simp] theorem State.fioSet_ring (s : State) (g : Field → Field) : (s.fioSet g).ring = s.ring := rfl
@[simp] theorem State.fioSet_touch (s : State) (g : Field → Field) : (s.fioSet g).touch = s.touch := rfl
@[simp] theorem State.fioSet_chor (s : State) (g : Field → Field) : (s.fioSet g).chor = s.chor := rfl
@[simp] theorem State.fioSet_st (s : State) (g : Field → Field) : (s.fioSet g).st = s.st := rfl
@[simp] theorem State.fioSet_tap (s : State) (g : Field → Field) : (s.fioSet g).tap = s.tap := rfl
@[simp] theorem State.fioSet_out (s : State) (g : Field → Field) : (s.fioSet g).out = s.out := rfl
@[simp] theorem State.fioSet_free (s : State) (g : Field → Field) : (s.fioSet g).free = s.free := rfl
@[simp] theorem State.fioSet_pending (s : State) (g : Field → Field) : (s.fioSet g).pending = s.pending := rfl
@[simp] theorem State.fioSet_reg (s : State) (g : Field → Field) (x : Nat) : (s.fioSet g).reg x = s.reg x := rfl
@[simp] theorem State.fioSet_fld (s : State) (g : Field → Field) (x : Fld) : (s.fioSet g).fld x = s.fld x := rfl
@[simp] theorem State.fioSet_on (s : State) (g : Field → Field) (x : Fld) : (s.fioSet g).on x = s.on x := rfl
@[simp] theorem State.fioSet_fio (s : State) (g : Field → Field) : (s.fioSet g).fio = g s.fio := rfl

/-! ### sets -/

@[simp] theorem State.sets_role (s : State) (l : List (Fld × Nat)) : (s.sets l).role = s.role := by rw [State.sets_eq]
@[simp] theorem State.sets_latched (s : State) (l : List (Fld × Nat)) : (s.sets l).latched = s.latched := by rw [State.sets_eq]
@[simp] theorem State.sets_dec (s : State) (l : List (Fld × Nat)) : (s.sets l).dec = s.dec := by rw [State.sets_eq]
@[simp] theorem State.sets_cant (s : State) (l : List (Fld × Nat)) : (s.sets l).cant = s.cant := by rw [State.sets_eq]
@[simp] theorem State.sets_mem (s : State) (l : List (Fld × Nat)) : (s.sets l).mem = s.mem := by rw [State.sets_eq]
@[simp] theorem State.sets_pads (s : State) (l : List (Fld × Nat)) : (s.sets l).pads = s.pads := by rw [State.sets_eq]
@[simp] theorem State.sets_pwr (s : State) (l : List (Fld × Nat)) : (s.sets l).pwr = s.pwr := by rw [State.sets_eq]
@[simp] theorem State.sets_slp (s : State) (l : List (Fld × Nat)) : (s.sets l).slp = s.slp := by rw [State.sets_eq]
@[simp] theorem State.sets_clk (s : State) (l : List (Fld × Nat)) : (s.sets l).clk = s.clk := by rw [State.sets_eq]
@[simp] theorem State.sets_rst (s : State) (l : List (Fld × Nat)) : (s.sets l).rst = s.rst := by rw [State.sets_eq]
@[simp] theorem State.sets_node (s : State) (l : List (Fld × Nat)) : (s.sets l).node = s.node := by rw [State.sets_eq]
@[simp] theorem State.sets_drv (s : State) (l : List (Fld × Nat)) : (s.sets l).drv = s.drv := by rw [State.sets_eq]
@[simp] theorem State.sets_hl (s : State) (l : List (Fld × Nat)) : (s.sets l).hl = s.hl := by rw [State.sets_eq]
@[simp] theorem State.sets_scr (s : State) (l : List (Fld × Nat)) : (s.sets l).scr = s.scr := by rw [State.sets_eq]
@[simp] theorem State.sets_sac (s : State) (l : List (Fld × Nat)) : (s.sets l).sac = s.sac := by rw [State.sets_eq]
@[simp] theorem State.sets_descCache (s : State) (l : List (Fld × Nat)) : (s.sets l).descCache = s.descCache := by rw [State.sets_eq]
@[simp] theorem State.sets_sfe (s : State) (l : List (Fld × Nat)) : (s.sets l).sfe = s.sfe := by rw [State.sets_eq]
@[simp] theorem State.sets_loop (s : State) (l : List (Fld × Nat)) : (s.sets l).loop = s.loop := by rw [State.sets_eq]
@[simp] theorem State.sets_font (s : State) (l : List (Fld × Nat)) : (s.sets l).font = s.font := by rw [State.sets_eq]
@[simp] theorem State.sets_mot (s : State) (l : List (Fld × Nat)) : (s.sets l).mot = s.mot := by rw [State.sets_eq]
@[simp] theorem State.sets_ring (s : State) (l : List (Fld × Nat)) : (s.sets l).ring = s.ring := by rw [State.sets_eq]
@[simp] theorem State.sets_touch (s : State) (l : List (Fld × Nat)) : (s.sets l).touch = s.touch := by rw [State.sets_eq]
@[simp] theorem State.sets_chor (s : State) (l : List (Fld × Nat)) : (s.sets l).chor = s.chor := by rw [State.sets_eq]
@[simp] theorem State.sets_fio (s : State) (l : List (Fld × Nat)) : (s.sets l).fio = s.fio := by rw [State.sets_eq]
@[simp] theorem State.sets_st (s : State) (l : List (Fld × Nat)) : (s.sets l).st = s.st := by rw [State.sets_eq]
@[simp] theorem State.sets_tap (s : State) (l : List (Fld × Nat)) : (s.sets l).tap = s.tap := by rw [State.sets_eq]
@[simp] theorem State.sets_out (s : State) (l : List (Fld × Nat)) : (s.sets l).out = s.out := by rw [State.sets_eq]
@[simp] theorem State.sets_free (s : State) (l : List (Fld × Nat)) : (s.sets l).free = s.free := by rw [State.sets_eq]
@[simp] theorem State.sets_pending (s : State) (l : List (Fld × Nat)) : (s.sets l).pending = s.pending := by rw [State.sets_eq]

/-! ### raise -/

@[simp] theorem State.raise_role (s : State) (l : List Fld) : (s.raise l).role = s.role := by rw [State.raise_eq]
@[simp] theorem State.raise_latched (s : State) (l : List Fld) : (s.raise l).latched = s.latched := by rw [State.raise_eq]
@[simp] theorem State.raise_dec (s : State) (l : List Fld) : (s.raise l).dec = s.dec := by rw [State.raise_eq]
@[simp] theorem State.raise_cant (s : State) (l : List Fld) : (s.raise l).cant = s.cant := by rw [State.raise_eq]
@[simp] theorem State.raise_mem (s : State) (l : List Fld) : (s.raise l).mem = s.mem := by rw [State.raise_eq]
@[simp] theorem State.raise_pads (s : State) (l : List Fld) : (s.raise l).pads = s.pads := by rw [State.raise_eq]
@[simp] theorem State.raise_pwr (s : State) (l : List Fld) : (s.raise l).pwr = s.pwr := by rw [State.raise_eq]
@[simp] theorem State.raise_slp (s : State) (l : List Fld) : (s.raise l).slp = s.slp := by rw [State.raise_eq]
@[simp] theorem State.raise_clk (s : State) (l : List Fld) : (s.raise l).clk = s.clk := by rw [State.raise_eq]
@[simp] theorem State.raise_rst (s : State) (l : List Fld) : (s.raise l).rst = s.rst := by rw [State.raise_eq]
@[simp] theorem State.raise_node (s : State) (l : List Fld) : (s.raise l).node = s.node := by rw [State.raise_eq]
@[simp] theorem State.raise_drv (s : State) (l : List Fld) : (s.raise l).drv = s.drv := by rw [State.raise_eq]
@[simp] theorem State.raise_hl (s : State) (l : List Fld) : (s.raise l).hl = s.hl := by rw [State.raise_eq]
@[simp] theorem State.raise_scr (s : State) (l : List Fld) : (s.raise l).scr = s.scr := by rw [State.raise_eq]
@[simp] theorem State.raise_sac (s : State) (l : List Fld) : (s.raise l).sac = s.sac := by rw [State.raise_eq]
@[simp] theorem State.raise_descCache (s : State) (l : List Fld) : (s.raise l).descCache = s.descCache := by rw [State.raise_eq]
@[simp] theorem State.raise_sfe (s : State) (l : List Fld) : (s.raise l).sfe = s.sfe := by rw [State.raise_eq]
@[simp] theorem State.raise_loop (s : State) (l : List Fld) : (s.raise l).loop = s.loop := by rw [State.raise_eq]
@[simp] theorem State.raise_font (s : State) (l : List Fld) : (s.raise l).font = s.font := by rw [State.raise_eq]
@[simp] theorem State.raise_mot (s : State) (l : List Fld) : (s.raise l).mot = s.mot := by rw [State.raise_eq]
@[simp] theorem State.raise_ring (s : State) (l : List Fld) : (s.raise l).ring = s.ring := by rw [State.raise_eq]
@[simp] theorem State.raise_touch (s : State) (l : List Fld) : (s.raise l).touch = s.touch := by rw [State.raise_eq]
@[simp] theorem State.raise_chor (s : State) (l : List Fld) : (s.raise l).chor = s.chor := by rw [State.raise_eq]
@[simp] theorem State.raise_fio (s : State) (l : List Fld) : (s.raise l).fio = s.fio := by rw [State.raise_eq]
@[simp] theorem State.raise_st (s : State) (l : List Fld) : (s.raise l).st = s.st := by rw [State.raise_eq]
@[simp] theorem State.raise_tap (s : State) (l : List Fld) : (s.raise l).tap = s.tap := by rw [State.raise_eq]
@[simp] theorem State.raise_out (s : State) (l : List Fld) : (s.raise l).out = s.out := by rw [State.raise_eq]
@[simp] theorem State.raise_free (s : State) (l : List Fld) : (s.raise l).free = s.free := by rw [State.raise_eq]
@[simp] theorem State.raise_pending (s : State) (l : List Fld) : (s.raise l).pending = s.pending := by rw [State.raise_eq]

/-! ### setCore -/

@[simp] theorem State.setCore_role (s : State) (c : CoreId) (k : Core) : (s.setCore c k).role = s.role := by cases c <;> rfl
@[simp] theorem State.setCore_latched (s : State) (c : CoreId) (k : Core) : (s.setCore c k).latched = s.latched := by cases c <;> rfl
@[simp] theorem State.setCore_regs (s : State) (c : CoreId) (k : Core) : (s.setCore c k).regs = s.regs := by cases c <;> rfl
@[simp] theorem State.setCore_mem (s : State) (c : CoreId) (k : Core) : (s.setCore c k).mem = s.mem := by cases c <;> rfl
@[simp] theorem State.setCore_pads (s : State) (c : CoreId) (k : Core) : (s.setCore c k).pads = s.pads := by cases c <;> rfl
@[simp] theorem State.setCore_pwr (s : State) (c : CoreId) (k : Core) : (s.setCore c k).pwr = s.pwr := by cases c <;> rfl
@[simp] theorem State.setCore_slp (s : State) (c : CoreId) (k : Core) : (s.setCore c k).slp = s.slp := by cases c <;> rfl
@[simp] theorem State.setCore_clk (s : State) (c : CoreId) (k : Core) : (s.setCore c k).clk = s.clk := by cases c <;> rfl
@[simp] theorem State.setCore_rst (s : State) (c : CoreId) (k : Core) : (s.setCore c k).rst = s.rst := by cases c <;> rfl
@[simp] theorem State.setCore_node (s : State) (c : CoreId) (k : Core) : (s.setCore c k).node = s.node := by cases c <;> rfl
@[simp] theorem State.setCore_drv (s : State) (c : CoreId) (k : Core) : (s.setCore c k).drv = s.drv := by cases c <;> rfl
@[simp] theorem State.setCore_hl (s : State) (c : CoreId) (k : Core) : (s.setCore c k).hl = s.hl := by cases c <;> rfl
@[simp] theorem State.setCore_scr (s : State) (c : CoreId) (k : Core) : (s.setCore c k).scr = s.scr := by cases c <;> rfl
@[simp] theorem State.setCore_sac (s : State) (c : CoreId) (k : Core) : (s.setCore c k).sac = s.sac := by cases c <;> rfl
@[simp] theorem State.setCore_descCache (s : State) (c : CoreId) (k : Core) : (s.setCore c k).descCache = s.descCache := by cases c <;> rfl
@[simp] theorem State.setCore_sfe (s : State) (c : CoreId) (k : Core) : (s.setCore c k).sfe = s.sfe := by cases c <;> rfl
@[simp] theorem State.setCore_loop (s : State) (c : CoreId) (k : Core) : (s.setCore c k).loop = s.loop := by cases c <;> rfl
@[simp] theorem State.setCore_font (s : State) (c : CoreId) (k : Core) : (s.setCore c k).font = s.font := by cases c <;> rfl
@[simp] theorem State.setCore_mot (s : State) (c : CoreId) (k : Core) : (s.setCore c k).mot = s.mot := by cases c <;> rfl
@[simp] theorem State.setCore_ring (s : State) (c : CoreId) (k : Core) : (s.setCore c k).ring = s.ring := by cases c <;> rfl
@[simp] theorem State.setCore_touch (s : State) (c : CoreId) (k : Core) : (s.setCore c k).touch = s.touch := by cases c <;> rfl
@[simp] theorem State.setCore_chor (s : State) (c : CoreId) (k : Core) : (s.setCore c k).chor = s.chor := by cases c <;> rfl
@[simp] theorem State.setCore_fio (s : State) (c : CoreId) (k : Core) : (s.setCore c k).fio = s.fio := by cases c <;> rfl
@[simp] theorem State.setCore_st (s : State) (c : CoreId) (k : Core) : (s.setCore c k).st = s.st := by cases c <;> rfl
@[simp] theorem State.setCore_tap (s : State) (c : CoreId) (k : Core) : (s.setCore c k).tap = s.tap := by cases c <;> rfl
@[simp] theorem State.setCore_out (s : State) (c : CoreId) (k : Core) : (s.setCore c k).out = s.out := by cases c <;> rfl
@[simp] theorem State.setCore_free (s : State) (c : CoreId) (k : Core) : (s.setCore c k).free = s.free := by cases c <;> rfl
@[simp] theorem State.setCore_pending (s : State) (c : CoreId) (k : Core) : (s.setCore c k).pending = s.pending := by cases c <;> rfl
@[simp] theorem State.setCore_reg (s : State) (c : CoreId) (k : Core) (x : Nat) : (s.setCore c k).reg x = s.reg x := by cases c <;> rfl
@[simp] theorem State.setCore_fld (s : State) (c : CoreId) (k : Core) (x : Fld) : (s.setCore c k).fld x = s.fld x := by cases c <;> rfl
@[simp] theorem State.setCore_on (s : State) (c : CoreId) (k : Core) (x : Fld) : (s.setCore c k).on x = s.on x := by cases c <;> rfl

end Sys2Proof.Machine
end

