-- ==== Sys2Proof/Laws/Post.lean ====
section
/-! SUPPORT. What events, log entries, wakes and completions leave alone. -/

namespace Sys2Proof.Machine

open Sys2Proof

/-! ### The frame predicates -/

theorem State.besides_refl (s : State) : s.besides s := ⟨rfl, rfl, rfl, rfl, rfl, rfl⟩

theorem State.besides_trans {s t u : State} (h : s.besides t) (k : t.besides u) : s.besides u := by
  obtain ⟨a, b, c, d, e, f⟩ := h
  obtain ⟨a', b', c', d', e', f'⟩ := k
  exact ⟨a'.trans a, b'.trans b, c'.trans c, d'.trans d, e'.trans e, f'.trans f⟩

theorem State.besidesAll_refl (s : State) : s.besidesAll s := ⟨s.besides_refl, rfl, rfl, rfl, rfl, rfl, rfl⟩

theorem State.besidesAll_trans {s t u : State} (h : s.besidesAll t) (k : t.besidesAll u) : s.besidesAll u := by
  obtain ⟨h0, a, b, c, d, e, f⟩ := h
  obtain ⟨k0, a', b', c', d', e', f'⟩ := k
  exact ⟨State.besides_trans h0 k0, a'.trans a, b'.trans b, c'.trans c, d'.trans d, e'.trans e, f'.trans f⟩

/-- Registers may change under both predicates. -/
theorem State.besidesAll_regs (s : State) (r : RegFile) : s.besidesAll { s with regs := r } :=
  ⟨⟨rfl, rfl, rfl, rfl, rfl, rfl⟩, rfl, rfl, rfl, rfl, rfl, rfl⟩

theorem State.besidesAll_setReg (s : State) (a : Nat) (v : Word) : s.besidesAll (s.setReg a v) := s.besidesAll_regs _

theorem State.besidesAll_setFld (s : State) (f : Fld) (v : Nat) : s.besidesAll (s.setFld f v) := s.besidesAll_regs _

theorem State.besidesAll_count (s : State) (f : Fld) : s.besidesAll (s.count f) := s.besidesAll_regs _

theorem State.besidesAll_sets (s : State) (l : List (Fld × Nat)) : s.besidesAll (s.sets l) := by
  rw [State.sets_eq]; exact s.besidesAll_regs _

theorem State.besidesAll_raise (s : State) (l : List Fld) : s.besidesAll (s.raise l) := by
  rw [State.raise_eq]; exact s.besidesAll_regs _

theorem State.besidesAll_used (s : State) (n : Nat) : s.besidesAll (s.used n) :=
  ⟨⟨rfl, rfl, rfl, rfl, rfl, rfl⟩, rfl, rfl, rfl, rfl, rfl, rfl⟩

/-! ### The log queue -/

/-- A violation goes into the log queue, and when that was full VLDROP sets; nothing else. -/
theorem State.violate_besidesAll (s : State) (k b a d : Nat) : s.besidesAll (s.violate k b a d) := by
  unfold State.violate
  split
  · exact State.besidesAll_trans (t := { s with sac := _ }) ⟨⟨rfl, rfl, rfl, rfl, rfl, rfl⟩, rfl, rfl, rfl, rfl, rfl, rfl⟩
      (State.besidesAll_raise _ _)
  · exact ⟨⟨rfl, rfl, rfl, rfl, rfl, rfl⟩, rfl, rfl, rfl, rfl, rfl, rfl⟩

/-! ### Wakes -/

/-- A wake source that fires while the part is in RUN only latches in WAKESRC. -/
theorem State.wake_awake (s : State) (bit : Nat) (h : s.awake = true) :
    s.wake bit = s.setFld fWAKESRC_SRC (s.fld fWAKESRC_SRC ||| 2 ^ bit) := by
  simp only [State.awake, Bool.and_eq_true, Option.isNone_iff_eq_none, beq_iff_eq, decide_eq_true_eq] at h
  unfold State.wake
  rw [if_neg (by rw [h.1]; decide)]
  split
  · simp [State.wakeNow, h.1, h.2]
  · rfl

/-! ### Events -/

/-- Outside the Chapter an event is one frame queued on the uplink. -/
theorem State.event_node (s : State) (code : Nat) (data : List Byte) (h : s.role ≠ .chapter) :
    s.event code data = s.queueUp 0x5 1 (s.mkRecord code s.srcField data) := by
  simp [State.event, h]

theorem State.queueUp_besides (s : State) (type ring : Nat) (p : List Byte) : s.besides (s.queueUp type ring p) :=
  ⟨rfl, rfl, rfl, rfl, rfl, rfl⟩

@[simp] theorem State.queueUp_regs (s : State) (type ring : Nat) (p : List Byte) : (s.queueUp type ring p).regs = s.regs := rfl

@[simp] theorem State.queueUp_mem (s : State) (type ring : Nat) (p : List Byte) : (s.queueUp type ring p).mem = s.mem := rfl

/-- Outside the Chapter an event leaves registers and memory alone. -/
theorem State.event_regs (s : State) (code : Nat) (data : List Byte) (h : s.role ≠ .chapter) : (s.event code data).regs = s.regs := by
  rw [State.event_node s code data h]; rfl

theorem State.event_mem (s : State) (code : Nat) (data : List Byte) (h : s.role ≠ .chapter) : (s.event code data).mem = s.mem := by
  rw [State.event_node s code data h]; rfl

theorem State.event_besides (s : State) (code : Nat) (data : List Byte) (h : s.role ≠ .chapter) : s.besides (s.event code data) := by
  rw [State.event_node s code data h]; exact State.queueUp_besides _ _ _ _

/-- A flag that Rhoco posts: in a node it leaves all but the uplink and, with Rhoco stopped, the flag alone. -/
theorem State.flagEvent_besides (s : State) (f : Fld) (code : Nat) (data : List Byte) (h : s.role ≠ .chapter) :
    s.besides (s.flagEvent f code data) := by
  unfold State.flagEvent
  split
  · exact State.event_besides s code data h
  · exact (State.besidesAll_setFld s f 1).1

/-! ### Completions -/

/-- A descriptor from the walk or the jack completes with what it sends and the inbox alone. -/
theorem State.complete_besides_node (s : State) (d : Desc) (st r : Nat) (bs : List Byte) (h : d.path = .walk) :
    (s.complete d st r bs).regs = s.regs ∧ (s.complete d st r bs).mem = s.mem ∧ (s.complete d st r bs).sac = s.sac := by
  have q : ∀ (l : List (List Byte)) (t : State), (l.foldl (fun t c => t.queueUp 0x6 d.ring c) t).regs = t.regs ∧
      (l.foldl (fun t c => t.queueUp 0x6 d.ring c) t).mem = t.mem ∧ (l.foldl (fun t c => t.queueUp 0x6 d.ring c) t).sac = t.sac := by
    intro l
    induction l with
    | nil => intro t; exact ⟨rfl, rfl, rfl⟩
    | cons c l ih => intro t; exact ih (t.queueUp 0x6 d.ring c)
  unfold State.complete State.sendEntry
  simp only [h]
  exact q _ _

end Sys2Proof.Machine
end

