-- ==== Sys2Proof/Tests/Slice0.lean ====
section
/-! SUPPORT. Tests: terms that WellFormed refuses, single steps on small states, and for every statement with hypotheses the states and
operands that meet them, one for each of its clauses. -/

namespace Sys2Proof.Tests

set_option Elab.async false

open Sys2Proof Sys2Proof.Machine

/-- A part of a role that has booted: Rhoco runs and nothing waits. -/
def up (r : Role) : State :=
  { State.reset with
    role := r
    latched := true
    rst := { State.reset.rst with hold := false, booted := true } }

/-- A descriptor of an opcode from the jack, with its arguments. -/
def ds (op : Nat) (args : List Byte) : Desc :=
  ⟨.lectern, 0, 0, 0, [BitVec.ofNat 8 op] ++ List.replicate 31 0 ++ padTo 32 args⟩

/-- Argument bytes: each value little-endian at its offset with its length. -/
def args (l : List (Nat × Nat × Nat)) : List Byte :=
  l.foldl (fun b p => b.take p.1 ++ leBytes p.2.1 p.2.2 ++ b.drop (p.1 + p.2.1)) (List.replicate 32 0)

/-- A core in Sacristy supervisor that issues its next instruction at 0x20000100, its registers w1 to w15 as given. -/
def coreAt (g : List Word) : Core :=
  { Core.decaniReset with
    pc := 0x20000100
    gpr := (0 :: g) ++ List.replicate (15 - g.length) 0
    ic := [(0x20000100, List.replicate 32 0)] }

/-- A booted Cell whose Decani issues. -/
def go (g : List Word) : State := { up .cell with dec := coreAt g }

/-- The issue of a 32-bit instruction on Decani. -/
def iw : Issue := ⟨.decani, false, 0⟩

/-- The issue of a compact instruction on Decani. -/
def ic : Issue := ⟨.decani, true, 3⟩

/-- A modified line of zeros. -/
def line (base : Nat) : CLine := ⟨base, .modified, .sacristy, List.replicate 32 0, [], false⟩

/-- The tile of R rows and C columns of zeros. -/
def tile (r c f : Nat) : Tile := ⟨true, r, c, f, List.replicate (r * c) 0⟩

/-- The same with every engine of the Choristers as given. -/
def eng (e : ChEng) (s : State) : State := { s with chor := { s.chor with eng := List.replicate 8 e } }

/-- An office image with a body of 32 zeros, version 2, signed under the key `imageKey` (Table 6.8). -/
def image : List Byte :=
  [0x44, 0x52, 0x49, 0x4d, 0x01, 0x00, 0x00, 0x00, 0x20, 0x00, 0x00, 0x00, 0x00, 0x00, 0x01, 0x20] ++
  [0x00, 0x00, 0x01, 0x20, 0x02, 0x00, 0x00, 0x00, 0x00, 0x01, 0x00, 0x00, 0x00, 0x00, 0x00, 0x00] ++
  [0x66, 0x68, 0x7a, 0xad, 0xf8, 0x62, 0xbd, 0x77, 0x6c, 0x8f, 0xc1, 0x8b, 0x8e, 0x9f, 0x8e, 0x20] ++
  [0x08, 0x97, 0x14, 0x85, 0x6e, 0xe2, 0x33, 0xb3, 0x90, 0x2a, 0x59, 0x1d, 0x0d, 0x5f, 0x29, 0x25] ++
  [0x9a, 0x7b, 0x75, 0x4c, 0x46, 0xbb, 0x8a, 0x29, 0x6f, 0xda, 0x6e, 0x8c, 0xe1, 0x7d, 0xfb, 0xf4] ++
  [0x6f, 0xee, 0x0d, 0xd2, 0x1d, 0x66, 0x14, 0x4c, 0x64, 0xda, 0x8e, 0x6b, 0x31, 0x3f, 0xe8, 0x5c] ++
  [0x9a, 0x7b, 0x75, 0x4c, 0x46, 0xbb, 0x8a, 0x29, 0x6f, 0xda, 0x6e, 0x8c, 0xe1, 0x7d, 0xfb, 0xf4] ++
  [0x6f, 0xee, 0x0d, 0xd2, 0x1d, 0x66, 0x14, 0x4c, 0x64, 0xda, 0x8e, 0x6b, 0x31, 0x3f, 0xe8, 0x5c] ++
  List.replicate 32 0

/-- The key the image is signed under. -/
def imageKey : List Byte :=
  [0x66, 0x58, 0x8f, 0x7a, 0x8d, 0x9a, 0x18, 0xf0, 0xa7, 0x12, 0xd0, 0x0c, 0x03, 0xaf, 0x96, 0x80] ++
  [0x6d, 0x82, 0x95, 0x61, 0xdc, 0xff, 0x0e, 0xa7, 0x94, 0xc1, 0x62, 0xb0, 0x76, 0x2d, 0x2c, 0x59] ++
  [0xe9, 0x95, 0xbf, 0xfb, 0x66, 0xc0, 0x3a, 0x22, 0x81, 0xf6, 0x4d, 0xea, 0x1c, 0xfb, 0xc7, 0xd1] ++
  [0x01, 0x3a, 0x24, 0x0c, 0x44, 0x6b, 0x3c, 0xd7, 0xae, 0x1d, 0x16, 0xbe, 0x34, 0xf7, 0x50, 0xa9]

/-- Bytes at an address, as memory and the OTP array list them. -/
def runAt (a : Nat) (l : List Byte) : List (Nat × Byte) := (l.zip (List.range l.length)).map (fun p => (a + p.2, p.1))

/-- The image in slot 7, its key in signing slot 0, no version burned. -/
def withImage (s : State) : State :=
  { s with
    mem := { s.mem with
      cells := runAt (slotBase 7) image,
      otp := runAt 0x100 imageKey ++ runAt 0x300 [1, 0] ++ runAt 0x310 (List.replicate 32 0) } }


/-- A frame: TYPE with RA in bit 4, ADDR, RING, SEQ and payload. -/
def fr (ty addr ring seq : Nat) (p : List Byte) : Frame :=
  ⟨ty + 2 ^ 8 * addr + 2 ^ 20 * ring + 2 ^ 24 * p.length + 2 ^ 32 * seq, p⟩

/-- A memory whose first seal entry verifies. -/
def sealed : Mem :=
  let m : Mem := { State.reset.mem with otp := runAt 0x300 ([2, 0, 1, 0] ++ List.replicate 12 0) ++ runAt 0x340 (List.replicate 32 0) }
  { m with cells := runAt (sealSlot 0) (List.replicate 48 0 ++ [96, 163, 17, 60, 29, 52, 82, 66, 179, 0, 147, 192, 115, 210, 174, 233]) }

/-! ### The checks of WellFormed refuse -/

theorem test_wf_refuses_a_short_descriptor : (Instr.loopSet ⟨.lectern, 0, 0, 0, [0x40]⟩).wf = false := by decide +kernel
theorem test_wf_refuses_another_opcode : (Instr.loopSet (ds 0x41 [])).wf = false := by decide +kernel
theorem test_wf_refuses_another_step : (Instr.loopCalHigh (ds 0x43 [0])).wf = false := by decide +kernel
theorem test_wf_refuses_a_long_header : (Instr.compl ⟨2 ^ 64, []⟩).wf = false := by decide +kernel
theorem test_wf_refuses_a_wrong_len : (Instr.compl ⟨4 + 2 ^ 24 * 16, [1]⟩).wf = false := by decide +kernel
theorem test_wf_refuses_another_type : (Instr.compl (fr 5 0 0 0 (List.replicate 16 0))).wf = false := by decide +kernel
theorem test_wf_refuses_a_bad_range_frame : (Instr.range (.heard ⟨11 + 2 ^ 24, []⟩ ⟨0, 0⟩)).wf = false := by decide +kernel
theorem test_wf_refuses_a_debug_read_past_the_space : (Instr.debugAccess .decani (.read .nave (2 ^ 32))).wf = false := by decide +kernel
theorem test_wf_refuses_a_debug_write_past_the_space : (Instr.debugAccess .decani (.write .nave (2 ^ 32) 0)).wf = false := by
  decide +kernel
theorem test_wf_refuses_an_address_past_the_space : (Instr.readShared .decani (2 ^ 32)).wf = false := by decide +kernel
theorem test_wf_refuses_engine_eight : (Instr.ringerHalt 8).wf = false := by decide +kernel
theorem test_wf_refuses_output_two : (Instr.outRetry 2).wf = false := by decide +kernel
theorem test_wf_refuses_input_four : (Instr.inBreak 4).wf = false := by decide +kernel
theorem test_wf_refuses_electrode_four : (Instr.touchRetry 4 none).wf = false := by decide +kernel
theorem test_wf_refuses_ring_16384 : (Instr.descriptorFetch 16384 none).wf = false := by decide +kernel
theorem test_wf_refuses_a_doorbell_of_17_bytes : (Instr.doorbell 0 (List.replicate 17 0) none).wf = false := by decide +kernel
theorem test_wf_refuses_a_short_line : (Instr.makeUnique 0 []).wf = false := by decide +kernel
theorem test_wf_refuses_compact_without_form : (Instr.fence ⟨.decani, true, 3⟩).wf = false := by decide +kernel
theorem test_wf_refuses_compact_add_of_three : (Instr.add ic 1 2 3).wf = false := by decide +kernel
theorem test_wf_refuses_compact_or_of_three : (Instr.or ic 1 2 3).wf = false := by decide +kernel
theorem test_wf_refuses_compact_shift_by_zero : (Instr.slli ic 1 1 0).wf = false := by decide +kernel
theorem test_wf_refuses_compact_addi_128 : (Instr.addi ic 1 1 128).wf = false := by decide +kernel
theorem test_wf_refuses_compact_ldi_128 : (Instr.ldi ic 1 128).wf = false := by decide +kernel
theorem test_wf_refuses_compact_branch_64 : (Instr.beqz ic 1 64).wf = false := by decide +kernel
theorem test_wf_refuses_compact_jmp_2048 : (Instr.jmp ic 2048).wf = false := by decide +kernel
theorem test_wf_refuses_compact_callr_to_w1 : (Instr.callr ic 1 2 0).wf = false := by decide +kernel
theorem test_wf_refuses_compact_jmpr_with_imm : (Instr.jmpr ic 2 4).wf = false := by decide +kernel
theorem test_wf_refuses_compact_load_off_w14 : (Instr.ldw ic 1 13 0).wf = false := by decide +kernel
theorem test_wf_refuses_compact_word_of_32_bits : (Instr.emulate ic 0x10000).wf = false := by decide +kernel

/-! ### One step each, the results worked by hand from the spec -/

/-- The state a command answers. -/
def nxt : Host.Outcome State Fault Refusal → State
  | .next t => t
  | _ => State.reset

/-- 3 × 5 + 2 × 4 of the halves, in the accumulator two cycles later (Tables 13.5 and 13.12). -/
theorem test_macd : (nxt (exec (.macd iw 0 4 5) (go [0, 0, 0, 0x00030002, 0x00050004]))).dec.land.map (fun l => l.val) = [23] := by
  decide +kernel

/-- RDACC adds 2^14 before the shift by 15 (the worked case of chapter 13). -/
theorem test_rdacc_rounds :
    (nxt (exec (.rdacc iw 1 0 15) { go [] with dec := { coreAt [] with acc0 := 0x4000 } })).dec.gpr.getD 1 0 = 1 := by decide +kernel
theorem test_rdacc_below_half :
    (nxt (exec (.rdacc iw 1 0 15) { go [7] with dec := { coreAt [] with acc0 := 0x3FFF } })).dec.gpr.getD 1 0 = 0 := by decide +kernel

/-- The map of the worked case of chapter 19: 2.100 bar of 4 is the code 31,744. -/
theorem test_loop_map :
    (State.loopMapResult { (up .loop).setFld fLOOPCTL_EN 1 with loop := { State.reset.loop with mapSrc := 0, lrv := 0, urv := 2147484 } }
      0 1127429 false).fld fLOOPSET_CODE = 31744 := by decide +kernel

/-- Word 2 of the worked case of chapter 23, MOV OSR, X, with X at 2,458. -/
theorem test_chorister_mov :
    ((nxt (exec (.chorStep 2 1 0 false) (eng { pc := 2, x := 2458 }
      (((up .cell).setFld fCHSTAT_RUNNING 4).setFld (fCHPROG_INSTR 66) 0xA0E1)))).che 2).osr = 2458 := by decide +kernel

/-- A SHA-256 of FIPS 180-4's first example. -/
theorem test_sha256_abc : beNat (sha256 [0x61, 0x62, 0x63]) =
    0xba7816bf8f01cfea414140de5dae2223b00361a396177a9cb410ff61f20015ad := by decide +kernel

/-- The AES-256 of FIPS 197, C.3. -/
theorem test_aes256_fips197 : beNat (aes256 ((List.range 32).map (fun i => BitVec.ofNat 8 i)) ((List.range 16).map
    (fun i => BitVec.ofNat 8 (17 * i)))) = 0x8ea2b7ca516745bfeafc49904b496089 := by decide +kernel

/-! ### What the hypotheses of the statements are met by -/

/-- A Cell whose caches hold nothing and whose first words of a line of SRAM were written. -/
def bare : State := { up .cell with mem := { State.reset.mem with cells := runAt 0x20000040 (List.replicate 32 7) } }

/-- The same with a modified line in Cantoris's cache. -/
def dirty : State := { bare with cant := { bare.cant with dc := [line 0x20000040] } }

theorem witness_LineRequests_clean :
    (bare.cacheUp .decani = true ∧ findLine (bare.lines .dec) (lineOf 0x2000005C) = none ∧
      (∀ d, d ≠ CacheId.dec → findLine (bare.lines d) (lineOf 0x2000005C) = none) ∧
      bare.mem.firstBad (lineOf 0x2000005C) 32 = none ∧ ((bare.lines .dec).filter (fun x => x.base / 32 % 32 = 2)).length < 4) := by
  refine ⟨by decide +kernel, by decide +kernel, ?_, by decide +kernel, by decide +kernel⟩
  intro d _; cases d <;> decide +kernel

theorem dirty_coherent : dirty.coherent := by
  intro c d base x y hcd hx hy
  cases c <;> cases d <;> simp_all [dirty, bare, up, State.lines, State.reset, Core.decaniReset, Core.off, findLine]

theorem witness_LineRequests_dirty :
    (dirty.cacheUp .decani = true ∧ findLine (dirty.lines .dec) (lineOf 0x2000005C) = none ∧ CacheId.cant ≠ cacheOf .decani ∧
      findLine (dirty.lines .cant) (lineOf 0x2000005C) = some (line 0x20000040) ∧ (line 0x20000040).st = .modified ∧ dirty.coherent ∧
      ((dirty.lines .dec).filter (fun x => x.base / 32 % 32 = 2)).length < 4) := by
  refine ⟨by decide +kernel, by decide +kernel, by decide +kernel, by decide +kernel, by decide +kernel, dirty_coherent, by decide +kernel⟩

theorem witness_LineTransfers_clean :
    (bare.st.running = false ∧ (∀ d, findLine (bare.lines d) (lineOf 0x2000005C) = none) ∧
      bare.mem.firstBad (0x2000005C / 4 * 4) 4 = none ∧ bare.mem.firstBad (lineOf 0x2000005C) 32 = none ∧
      bare.cacheUp .decani = true ∧ (bare.core .decani).ic.any (fun p => p.1 = lineOf 0x2000005C) = false ∧
      (0x2000005B < 0x2000005C / 4 * 4 ∨ 0x2000005C / 4 * 4 + 4 ≤ 0x2000005B)) := by
  refine ⟨by decide +kernel, ?_, by decide +kernel, by decide +kernel, by decide +kernel, by decide +kernel, by decide +kernel⟩
  intro d; cases d <;> decide +kernel

theorem witness_MemoryControl_pointer :
    (let s : State := ((up .cell).setFld (fSBWSIZE_SIZE 2) 4).setFld (fSBWWP_WP 2) 100
     (99 < 2 * s.winSize 2 ∧ (99 + 2 * s.winSize 2 - s.fld (fSBWRP_RP 2)) % (2 * s.winSize 2) ≤ s.winFilled 2) ∧
     (255 < 2 * s.winSize 2 ∧ s.winFilled 2 < (255 + 2 * s.winSize 2 - s.fld (fSBWRP_RP 2)) % (2 * s.winSize 2))) := by
  decide +kernel

/-- The invariant holds where a request for a line another cache has modified waits, and the step answers a next state. -/
theorem witness_BusInvariantKept :
    (State.front dirty (.readShared .decani 0x20000040)).busInv ∧
      ∃ t, step (State.front dirty (.readShared .decani 0x20000040)) = .next t := by
  refine ⟨⟨?_, by decide +kernel, by decide +kernel, by decide +kernel, dirty_coherent, by decide +kernel, by decide +kernel,
    by decide +kernel⟩, _, rfl⟩
  intro c hc
  have h : c = .readShared .decani 0x20000040 := by
    simpa [State.front, dirty, bare, up, State.reset] using hc
  subst h; rfl

/-- An engine takes a command when it is idle, and one sent while it runs is counted. -/
theorem witness_EnginesAndClaims_busy :
    (up .cell).on fSACENG_BUSY = false ∧ ((up .cell).setFld fSACENG_BUSY 1).on fSACENG_BUSY = true := by decide +kernel

/-- A signed message, its key and its signature. -/
def msgA : List Byte :=
  [0x23, 0x00, 0x00, 0x00, 0x00, 0x00, 0x00, 0x00, 0x00, 0x00, 0x00, 0x00, 0x00, 0x00, 0x00, 0x00] ++
    [0x00, 0x00, 0x00, 0x00, 0x00, 0x00, 0x00, 0x00, 0x00, 0x00, 0x02, 0x03, 0x00, 0x00, 0x00, 0x00] ++
    [0x80, 0x00, 0x00, 0x00, 0x00, 0x00, 0x00, 0x00, 0x00]
def keyA : List Byte :=
  [0x17, 0xef, 0xf2, 0x97, 0x2e, 0xff, 0xfa, 0x2b, 0x84, 0xbe, 0x8e, 0x8e, 0xb1, 0x6f, 0xe0, 0x25] ++
    [0xb0, 0x4e, 0xe3, 0x30, 0x39, 0x09, 0x6d, 0x63, 0x93, 0x6c, 0x53, 0x52, 0x95, 0xd8, 0x9a, 0xfd] ++
    [0x4a, 0x6d, 0x04, 0xb6, 0x18, 0x27, 0x2e, 0xcc, 0x0c, 0x39, 0x0c, 0x5f, 0x76, 0x19, 0xea, 0xba] ++
    [0x51, 0x34, 0x6d, 0x80, 0x2b, 0x57, 0xdf, 0x7b, 0x4e, 0xba, 0xd2, 0x11, 0xda, 0xfc, 0x6d, 0xd8]
def sigA : List Byte :=
  [0xa1, 0x6d, 0x9f, 0xfb, 0xa0, 0xee, 0xd1, 0x4d, 0xc0, 0x36, 0x3b, 0x64, 0x72, 0xf1, 0x45, 0xcf] ++
    [0xbb, 0xf4, 0x84, 0x3e, 0xf2, 0x21, 0x8c, 0x0c, 0x5b, 0x79, 0xc5, 0xd6, 0x73, 0x05, 0xe6, 0x3b] ++
    [0xa1, 0x6d, 0x9f, 0xfb, 0xa0, 0xee, 0xd1, 0x4d, 0xc0, 0x36, 0x3b, 0x64, 0x72, 0xf1, 0x45, 0xcf] ++
    [0xbb, 0xf4, 0x84, 0x3e, 0xf2, 0x21, 0x8c, 0x0c, 0x5b, 0x79, 0xc5, 0xd6, 0x73, 0x05, 0xe6, 0x3b]
/-- The descriptor that carries it. -/
def dscA : Desc := ds 0x23 [0, 2, 3, 0, 0, 0, 0, 128]
theorem verifyA : ecdsaVerify (sha256 msgA) keyA sigA = true := by decide +kernel
theorem goodA (m k g : List Byte) (hm : m = msgA) (hk : k = keyA) (hg : g = sigA) : ecdsaVerify (sha256 m) k g = true := by
  subst hm hk hg; exact verifyA

/-- A signed message, its key and its signature. -/
def msgB : List Byte :=
  [0x23, 0x00, 0x00, 0x00, 0x00, 0x00, 0x00, 0x00, 0x00, 0x00, 0x00, 0x00, 0x00, 0x00, 0x00, 0x00] ++
    [0x00, 0x00, 0x00, 0x00, 0x00, 0x00, 0x00, 0x00, 0x00, 0x00, 0x02, 0x02, 0x00, 0x80, 0x00, 0x00] ++
    [0x00, 0x00, 0x00, 0x00, 0x00, 0x00, 0x00, 0x00, 0x00]
def keyB : List Byte :=
  [0xcd, 0x05, 0x43, 0xde, 0xe6, 0xe1, 0xe8, 0xf8, 0x25, 0x63, 0x14, 0x14, 0x84, 0xcd, 0x49, 0x4a] ++
    [0x46, 0x8c, 0x1e, 0xd4, 0x89, 0xf3, 0x49, 0xad, 0x8d, 0x42, 0xd9, 0x5a, 0x28, 0x1d, 0xae, 0xee] ++
    [0xa5, 0xfd, 0xc6, 0xb4, 0xd2, 0x91, 0xe3, 0x51, 0x49, 0x9e, 0x77, 0x00, 0xc6, 0x2b, 0x18, 0x5d] ++
    [0xed, 0xd9, 0x39, 0x54, 0xf0, 0xa4, 0x42, 0xe8, 0xee, 0x52, 0xed, 0x5a, 0xe4, 0xc7, 0x4a, 0xb9]
def sigB : List Byte :=
  [0x7f, 0xb3, 0xfa, 0x6a, 0xa8, 0x7d, 0xd5, 0x9d, 0xdd, 0x52, 0xf4, 0x69, 0x1f, 0xf8, 0x54, 0x7d] ++
    [0xf8, 0x15, 0x96, 0x4b, 0xf4, 0x28, 0xe3, 0xfd, 0x98, 0xf6, 0x98, 0xfc, 0x2c, 0xbe, 0xc3, 0xe2] ++
    [0x7f, 0xb3, 0xfa, 0x6a, 0xa8, 0x7d, 0xd5, 0x9d, 0xdd, 0x52, 0xf4, 0x69, 0x1f, 0xf8, 0x54, 0x7d] ++
    [0xf8, 0x15, 0x96, 0x4b, 0xf4, 0x28, 0xe3, 0xfd, 0x98, 0xf6, 0x98, 0xfc, 0x2c, 0xbe, 0xc3, 0xe2]
/-- The descriptor that carries it. -/
def dscB : Desc := ds 0x23 [0, 2, 2, 0, 128, 0, 0, 0]
theorem verifyB : ecdsaVerify (sha256 msgB) keyB sigB = true := by decide +kernel
theorem goodB (m k g : List Byte) (hm : m = msgB) (hk : k = keyB) (hg : g = sigB) : ecdsaVerify (sha256 m) k g = true := by
  subst hm hk hg; exact verifyB

/-- A signed message, its key and its signature. -/
def msgC : List Byte :=
  [0x23, 0x00, 0x00, 0x00, 0x00, 0x00, 0x00, 0x00, 0x00, 0x01, 0x01, 0x01, 0x01, 0x01, 0x01, 0x01] ++
    [0x01, 0x01, 0x01, 0x01, 0x01, 0x01, 0x01, 0x01, 0x01, 0x00, 0x01, 0x01, 0x00, 0x00, 0x00, 0x00] ++
    [0x00, 0x00, 0x00, 0x00, 0x00, 0x00, 0x00, 0x00, 0x00, 0x6b, 0x17, 0xd1, 0xf2, 0xe1, 0x2c, 0x42] ++
    [0x47, 0xf8, 0xbc, 0xe6, 0xe5, 0x63, 0xa4, 0x40, 0xf2, 0x77, 0x03, 0x7d, 0x81, 0x2d, 0xeb, 0x33] ++
    [0xa0, 0xf4, 0xa1, 0x39, 0x45, 0xd8, 0x98, 0xc2, 0x96, 0x4f, 0xe3, 0x42, 0xe2, 0xfe, 0x1a, 0x7f] ++
    [0x9b, 0x8e, 0xe7, 0xeb, 0x4a, 0x7c, 0x0f, 0x9e, 0x16, 0x2b, 0xce, 0x33, 0x57, 0x6b, 0x31, 0x5e] ++
    [0xce, 0xcb, 0xb6, 0x40, 0x68, 0x37, 0xbf, 0x51, 0xf5]
def keyC : List Byte :=
  [0x73, 0xce, 0x62, 0xf8, 0x73, 0x0d, 0x20, 0xa3, 0x12, 0x3f, 0xd7, 0x76, 0x9b, 0xf7, 0x4e, 0x69] ++
    [0xf2, 0xb1, 0x14, 0x20, 0xd7, 0xf9, 0xdb, 0x32, 0x7b, 0x3d, 0x7c, 0xa6, 0x7b, 0xf0, 0xa2, 0xc7] ++
    [0x1b, 0x50, 0x1b, 0x76, 0x65, 0xf1, 0x0c, 0xbf, 0xfe, 0x7c, 0x01, 0x0e, 0x22, 0x29, 0x71, 0x27] ++
    [0x66, 0xf8, 0xfd, 0x42, 0xd1, 0xe2, 0x42, 0xd7, 0x20, 0x7c, 0x83, 0x58, 0x0a, 0xef, 0x7a, 0x12]
def sigC : List Byte :=
  [0x5d, 0x99, 0xbd, 0x15, 0xff, 0x48, 0x88, 0x5c, 0x88, 0x0d, 0xb2, 0x3f, 0xd8, 0x15, 0xa7, 0xf0] ++
    [0xa1, 0x05, 0x31, 0x1c, 0x49, 0x35, 0xc8, 0x86, 0x37, 0x5e, 0x30, 0xe7, 0x81, 0x39, 0xa6, 0xc7] ++
    [0x5d, 0x99, 0xbd, 0x15, 0xff, 0x48, 0x88, 0x5c, 0x88, 0x0d, 0xb2, 0x3f, 0xd8, 0x15, 0xa7, 0xf0] ++
    [0xa1, 0x05, 0x31, 0x1c, 0x49, 0x35, 0xc8, 0x86, 0x37, 0x5e, 0x30, 0xe7, 0x81, 0x39, 0xa6, 0xc7]
/-- The descriptor that carries it. -/
def dscC : Desc := ds 0x23 [0, 1, 1]
theorem verifyC : ecdsaVerify (sha256 msgC) keyC sigC = true := by decide +kernel
theorem goodC (m k g : List Byte) (hm : m = msgC) (hk : k = keyC) (hg : g = sigC) : ecdsaVerify (sha256 m) k g = true := by
  subst hm hk hg; exact verifyC

/-- A signed message, its key and its signature. -/
def msgD : List Byte :=
  [0x23, 0x00, 0x00, 0x00, 0x00, 0x00, 0x00, 0x00, 0x00, 0x00, 0x00, 0x00, 0x00, 0x00, 0x00, 0x00] ++
    [0x00, 0x00, 0x00, 0x00, 0x00, 0x00, 0x00, 0x00, 0x00, 0x00, 0x01, 0x02, 0x00, 0x00, 0x00, 0x00] ++
    [0x00, 0x00, 0x00, 0x00, 0x00, 0x00, 0x00, 0x00, 0x00, 0x6b, 0x17, 0xd1, 0xf2, 0xe1, 0x2c, 0x42] ++
    [0x47, 0xf8, 0xbc, 0xe6, 0xe5, 0x63, 0xa4, 0x40, 0xf2, 0x77, 0x03, 0x7d, 0x81, 0x2d, 0xeb, 0x33] ++
    [0xa0, 0xf4, 0xa1, 0x39, 0x45, 0xd8, 0x98, 0xc2, 0x96, 0x4f, 0xe3, 0x42, 0xe2, 0xfe, 0x1a, 0x7f] ++
    [0x9b, 0x8e, 0xe7, 0xeb, 0x4a, 0x7c, 0x0f, 0x9e, 0x16, 0x2b, 0xce, 0x33, 0x57, 0x6b, 0x31, 0x5e] ++
    [0xce, 0xcb, 0xb6, 0x40, 0x68, 0x37, 0xbf, 0x51, 0xf5]
def keyD : List Byte :=
  [0x4c, 0x5d, 0x97, 0x19, 0x22, 0x72, 0x29, 0xaf, 0x6d, 0xf1, 0x9c, 0xe9, 0x56, 0xcc, 0x17, 0x17] ++
    [0x09, 0x3e, 0xc6, 0xf3, 0xdd, 0x7e, 0x45, 0x70, 0xf0, 0x5d, 0x90, 0x91, 0x95, 0xe3, 0x94, 0x14] ++
    [0x69, 0x3d, 0x49, 0xc1, 0x7f, 0xbc, 0x4e, 0x3c, 0xe0, 0x6b, 0x3c, 0x67, 0xcd, 0xaa, 0x41, 0x38] ++
    [0xa9, 0xb8, 0x8e, 0x5d, 0x16, 0x9b, 0x82, 0x79, 0xbf, 0x66, 0x0d, 0xd9, 0x3c, 0xf6, 0x78, 0xd3]
def sigD : List Byte :=
  [0x05, 0x5b, 0x53, 0x38, 0xfd, 0xab, 0x84, 0xde, 0xa5, 0x9d, 0x31, 0xe4, 0xef, 0xa4, 0x9e, 0xa4] ++
    [0xdf, 0xab, 0x36, 0x35, 0xfe, 0x57, 0xbc, 0xb4, 0xce, 0xa7, 0xf1, 0xca, 0x06, 0xc4, 0x0e, 0x15] ++
    [0x05, 0x5b, 0x53, 0x38, 0xfd, 0xab, 0x84, 0xde, 0xa5, 0x9d, 0x31, 0xe4, 0xef, 0xa4, 0x9e, 0xa4] ++
    [0xdf, 0xab, 0x36, 0x35, 0xfe, 0x57, 0xbc, 0xb4, 0xce, 0xa7, 0xf1, 0xca, 0x06, 0xc4, 0x0e, 0x15]
/-- The descriptor that carries it. -/
def dscD : Desc := ds 0x23 [0, 1, 2]
theorem verifyD : ecdsaVerify (sha256 msgD) keyD sigD = true := by decide +kernel
theorem goodD (m k g : List Byte) (hm : m = msgD) (hk : k = keyD) (hg : g = sigD) : ecdsaVerify (sha256 m) k g = true := by
  subst hm hk hg; exact verifyD

/-- A signed message, its key and its signature. -/
def msgE : List Byte :=
  [0x23, 0x00, 0x00, 0x00, 0x00, 0x00, 0x00, 0x00, 0x00, 0x00, 0x00, 0x00, 0x00, 0x00, 0x00, 0x00] ++
    [0x00, 0x00, 0x00, 0x00, 0x00, 0x00, 0x00, 0x00, 0x00, 0x00, 0x01, 0x02, 0x00, 0x00, 0x00, 0x00] ++
    [0x00, 0x00, 0x00, 0x00, 0x00, 0x00, 0x00, 0x00, 0x00, 0x6b, 0x17, 0xd1, 0xf2, 0xe1, 0x2c, 0x42] ++
    [0x47, 0xf8, 0xbc, 0xe6, 0xe5, 0x63, 0xa4, 0x40, 0xf2, 0x77, 0x03, 0x7d, 0x81, 0x2d, 0xeb, 0x33] ++
    [0xa0, 0xf4, 0xa1, 0x39, 0x45, 0xd8, 0x98, 0xc2, 0x96, 0x4f, 0xe3, 0x42, 0xe2, 0xfe, 0x1a, 0x7f] ++
    [0x9b, 0x8e, 0xe7, 0xeb, 0x4a, 0x7c, 0x0f, 0x9e, 0x16, 0x2b, 0xce, 0x33, 0x57, 0x6b, 0x31, 0x5e] ++
    [0xce, 0xcb, 0xb6, 0x40, 0x68, 0x37, 0xbf, 0x51, 0xf4]
def keyE : List Byte :=
  [0xfc, 0xa6, 0x12, 0xb6, 0x48, 0x4e, 0xb8, 0x47, 0x0d, 0xbf, 0x3d, 0x5a, 0xc3, 0x78, 0xd8, 0xe1] ++
    [0x48, 0x4b, 0x39, 0x87, 0x9a, 0x72, 0x68, 0xfe, 0xf5, 0xa9, 0x64, 0x2f, 0x48, 0xd4, 0xac, 0x4a] ++
    [0x90, 0xa2, 0x6d, 0xc1, 0xe6, 0x0e, 0x83, 0xe6, 0x67, 0x61, 0x87, 0x29, 0xe0, 0x63, 0x1a, 0x48] ++
    [0xe1, 0x5c, 0x96, 0xa5, 0xa6, 0x78, 0xf6, 0xaa, 0xd4, 0x2d, 0x40, 0xc1, 0x98, 0xac, 0xe5, 0x54]
def sigE : List Byte :=
  [0x1c, 0xfe, 0x06, 0x53, 0xe7, 0x14, 0x54, 0x0d, 0x48, 0x7e, 0x0f, 0xa2, 0xe8, 0x83, 0x20, 0x95] ++
    [0x31, 0xf1, 0x93, 0x9a, 0xc1, 0xd7, 0xfa, 0x38, 0x1e, 0x81, 0xdb, 0xb0, 0x12, 0x94, 0x65, 0x50] ++
    [0x1c, 0xfe, 0x06, 0x53, 0xe7, 0x14, 0x54, 0x0d, 0x48, 0x7e, 0x0f, 0xa2, 0xe8, 0x83, 0x20, 0x95] ++
    [0x31, 0xf1, 0x93, 0x9a, 0xc1, 0xd7, 0xfa, 0x38, 0x1e, 0x81, 0xdb, 0xb0, 0x12, 0x94, 0x65, 0x50]
/-- The descriptor that carries it. -/
def dscE : Desc := ds 0x23 [0, 1, 2]
theorem verifyE : ecdsaVerify (sha256 msgE) keyE sigE = true := by decide +kernel
theorem goodE (m k g : List Byte) (hm : m = msgE) (hk : k = keyE) (hg : g = sigE) : ecdsaVerify (sha256 m) k g = true := by
  subst hm hk hg; exact verifyE

/-- A Cell with an open challenge, a staged payload and signature, and the OTP's keys: PRESENT, key 1, key 2, lifecycle, ceiling. -/
def sgn (c : Byte) (stage k1 k2 : List Byte) (present life ceil : Byte) : State :=
  { up .cell with
    mem := { State.reset.mem with
      otp := runAt 0 (List.replicate 8 0) ++ runAt 0x140 k1 ++ runAt 0x180 k2 ++ runAt 0x1C0 (List.replicate 64 0) ++
        runAt 0x300 [present, 0, life, ceil] },
    sac := { State.reset.sac with chal := some (List.replicate 16 c), stage := stage } }

/-- What the hypotheses about signed operations are met by. -/
def SignedHyps (s : State) (d : Desc) (payload : List Byte) : Prop :=
  s.ready d = true ∧ s.on fSACSTAT_HELD = false ∧ (∃ c, s.sac.chal = some c ∧ s.keyUsable (dsArg d 1) = true ∧
    ecdsaVerify (sha256 (leBytes 1 (dsOpcode d) ++ s.uidBytes ++ c ++ (d.bytes.drop 0x20).take 16 ++ payload)) (s.keyOf (dsArg d 1))
      ((padTo 128 s.sac.stage).drop 64) = true)

/-- The hypotheses of SignedOperations' clauses about a valid signature, clause by clause. -/
theorem witness_SignedOperations_valid :
    (let d : Desc := dscC
     let s : State := sgn 1 (([0x6b, 0x17, 0xd1, 0xf2, 0xe1, 0x2c, 0x42, 0x47, 0xf8, 0xbc, 0xe6, 0xe5, 0x63, 0xa4, 0x40, 0xf2] ++ [0x77, 0x03, 0x7d, 0x81, 0x2d, 0xeb, 0x33, 0xa0, 0xf4, 0xa1, 0x39, 0x45, 0xd8, 0x98, 0xc2, 0x96] ++ [0x4f, 0xe3, 0x42, 0xe2, 0xfe, 0x1a, 0x7f, 0x9b, 0x8e, 0xe7, 0xeb, 0x4a, 0x7c, 0x0f, 0x9e, 0x16] ++ [0x2b, 0xce, 0x33, 0x57, 0x6b, 0x31, 0x5e, 0xce, 0xcb, 0xb6, 0x40, 0x68, 0x37, 0xbf, 0x51, 0xf5]) ++ sigC) keyC (List.replicate 64 0) 2 1 0
     SignedHyps s d ((padTo 128 s.sac.stage).take 64) ∧
     dsArg d 2 ≤ dsArg d 1) ∧
    (let d : Desc := dscD
     let s : State := sgn 0 (([0x6b, 0x17, 0xd1, 0xf2, 0xe1, 0x2c, 0x42, 0x47, 0xf8, 0xbc, 0xe6, 0xe5, 0x63, 0xa4, 0x40, 0xf2] ++ [0x77, 0x03, 0x7d, 0x81, 0x2d, 0xeb, 0x33, 0xa0, 0xf4, 0xa1, 0x39, 0x45, 0xd8, 0x98, 0xc2, 0x96] ++ [0x4f, 0xe3, 0x42, 0xe2, 0xfe, 0x1a, 0x7f, 0x9b, 0x8e, 0xe7, 0xeb, 0x4a, 0x7c, 0x0f, 0x9e, 0x16] ++ [0x2b, 0xce, 0x33, 0x57, 0x6b, 0x31, 0x5e, 0xce, 0xcb, 0xb6, 0x40, 0x68, 0x37, 0xbf, 0x51, 0xf5]) ++ sigD) keyD (List.replicate 63 0 ++ [1]) 2 1 0
     SignedHyps s d ((padTo 128 s.sac.stage).take 64) ∧
     dsArg d 1 < dsArg d 2 ∧
     dsArg d 2 < 8 ∧
     (s.keyOf (dsArg d 2)).any (· != 0) = true) ∧
    (let d : Desc := dscE
     let s : State := sgn 0 (([0x6b, 0x17, 0xd1, 0xf2, 0xe1, 0x2c, 0x42, 0x47, 0xf8, 0xbc, 0xe6, 0xe5, 0x63, 0xa4, 0x40, 0xf2] ++ [0x77, 0x03, 0x7d, 0x81, 0x2d, 0xeb, 0x33, 0xa0, 0xf4, 0xa1, 0x39, 0x45, 0xd8, 0x98, 0xc2, 0x96] ++ [0x4f, 0xe3, 0x42, 0xe2, 0xfe, 0x1a, 0x7f, 0x9b, 0x8e, 0xe7, 0xeb, 0x4a, 0x7c, 0x0f, 0x9e, 0x16] ++ [0x2b, 0xce, 0x33, 0x57, 0x6b, 0x31, 0x5e, 0xce, 0xcb, 0xb6, 0x40, 0x68, 0x37, 0xbf, 0x51, 0xf4]) ++ sigE) keyE (List.replicate 64 0) 2 1 0
     SignedHyps s d ((padTo 128 s.sac.stage).take 64) ∧
     dsArg d 1 < dsArg d 2 ∧
     dsArg d 2 < 8 ∧
     (s.keyOf (dsArg d 2)).any (· != 0) = false ∧
     ecOnCurve (beNat (((padTo 128 s.sac.stage).take 64).take 32)) (beNat (((padTo 128 s.sac.stage).take 64).drop 32)) = false) ∧
    (let d : Desc := dscD
     let s : State := sgn 0 (([0x6b, 0x17, 0xd1, 0xf2, 0xe1, 0x2c, 0x42, 0x47, 0xf8, 0xbc, 0xe6, 0xe5, 0x63, 0xa4, 0x40, 0xf2] ++ [0x77, 0x03, 0x7d, 0x81, 0x2d, 0xeb, 0x33, 0xa0, 0xf4, 0xa1, 0x39, 0x45, 0xd8, 0x98, 0xc2, 0x96] ++ [0x4f, 0xe3, 0x42, 0xe2, 0xfe, 0x1a, 0x7f, 0x9b, 0x8e, 0xe7, 0xeb, 0x4a, 0x7c, 0x0f, 0x9e, 0x16] ++ [0x2b, 0xce, 0x33, 0x57, 0x6b, 0x31, 0x5e, 0xce, 0xcb, 0xb6, 0x40, 0x68, 0x37, 0xbf, 0x51, 0xf5]) ++ sigD) keyD (List.replicate 64 0) 2 1 0
     SignedHyps s d ((padTo 128 s.sac.stage).take 64) ∧
     dsArg d 1 < dsArg d 2 ∧
     dsArg d 2 < 8 ∧
     (s.keyOf (dsArg d 2)).any (· != 0) = false ∧
     ecOnCurve (beNat (((padTo 128 s.sac.stage).take 64).take 32)) (beNat (((padTo 128 s.sac.stage).take 64).drop 32)) = true) ∧
    (let d : Desc := dscB
     let s : State := sgn 0 (List.replicate 64 0 ++ sigB) (List.replicate 64 0) keyB 4 1 0
     SignedHyps s d [] ∧
     dsArg d 2 = dsArg d 1) ∧
    (let d : Desc := dscA
     let s : State := sgn 0 (List.replicate 64 0 ++ sigA) (List.replicate 64 0) keyA 4 1 0
     SignedHyps s d [] ∧
     dsArg d 2 ≠ dsArg d 1 ∧
     (s.mem.otpByte 0x300).getLsbD (dsArg d 2) = false) ∧
    (let d : Desc := dscA
     let s : State := sgn 0 (List.replicate 64 0 ++ sigA) (List.replicate 64 0) keyA 12 1 0
     SignedHyps s d [] ∧
     dsArg d 2 ≠ dsArg d 1 ∧
     dsArg d 2 < 8 ∧
     (s.mem.otpByte 0x300).getLsbD (dsArg d 2) = true ∧
     (∀ j < 2, j ≠ dsArg d 2 → s.keyUsable j = false)) ∧
    (let d : Desc := dscA
     let s : State := sgn 0 (List.replicate 64 0 ++ sigA) (List.replicate 64 0) keyA 13 1 0
     SignedHyps s d [] ∧
     dsArg d 2 ≠ dsArg d 1 ∧
     dsArg d 2 < 8 ∧
     (s.mem.otpByte 0x300).getLsbD (dsArg d 2) = true ∧
     s.keyUsable 0 = true) ∧
    (let d : Desc := dscA
     let s : State := sgn 0 (List.replicate 64 0 ++ sigA) (List.replicate 64 0) keyA 4 1 0
     SignedHyps s d [] ∧
     (dsArgs d 4 4).testBit 31 = true ∧
     claimable.contains 31 = false) ∧
    (let d : Desc := dscB
     let s : State := sgn 0 (List.replicate 64 0 ++ sigB) (List.replicate 64 0) keyB 4 1 0
     SignedHyps s d [] ∧
     (∀ j < 32, (dsArgs d 4 4).testBit j = true → s.claimRefused j = false) ∧
     s.sac.cuts = [] ∧
     s.sac.sysrst = none ∧
     s.slp.entering = none) ∧
    (let d : Desc := dscA
     let s : State := sgn 0 (List.replicate 64 0 ++ sigA) (List.replicate 64 0) keyA 4 3 0
     SignedHyps s d [] ∧
     s.mem.lifecycle = 3) ∧
    (let d : Desc := dscA
     let s : State := sgn 0 (List.replicate 64 0 ++ sigA) (List.replicate 64 0) keyA 4 1 1
     SignedHyps s d [] ∧
     s.mem.lifecycle ≠ 3 ∧
     dsArg d 2 = 3) ∧
    (let d : Desc := dscB
     let s : State := sgn 0 (List.replicate 64 0 ++ sigB) (List.replicate 64 0) keyB 4 1 0
     SignedHyps s d [] ∧
     s.mem.lifecycle ≠ 3 ∧
     dsArg d 2 ≤ 2 ∧
     s.mem.otpByte 0x303 = 0) ∧
    (let d : Desc := dscB
     let s : State := sgn 0 (List.replicate 64 0 ++ sigB) (List.replicate 64 0) keyB 4 1 1
     SignedHyps s d [] ∧
     s.mem.lifecycle ≠ 3 ∧
     s.mem.otpByte 0x303 = 1 ∧
     dsArg d 2 = 2) :=
  ⟨⟨⟨by decide +kernel, by decide +kernel, _, rfl, by decide +kernel,
      goodC _ _ _ (by decide +kernel) (by decide +kernel) (by decide +kernel)⟩, by decide +kernel⟩,
   ⟨⟨by decide +kernel, by decide +kernel, _, rfl, by decide +kernel,
      goodD _ _ _ (by decide +kernel) (by decide +kernel) (by decide +kernel)⟩, by decide +kernel⟩,
   ⟨⟨by decide +kernel, by decide +kernel, _, rfl, by decide +kernel,
      goodE _ _ _ (by decide +kernel) (by decide +kernel) (by decide +kernel)⟩, by decide +kernel⟩,
   ⟨⟨by decide +kernel, by decide +kernel, _, rfl, by decide +kernel,
      goodD _ _ _ (by decide +kernel) (by decide +kernel) (by decide +kernel)⟩, by decide +kernel⟩,
   ⟨⟨by decide +kernel, by decide +kernel, _, rfl, by decide +kernel,
      goodB _ _ _ (by decide +kernel) (by decide +kernel) (by decide +kernel)⟩, by decide +kernel⟩,
   ⟨⟨by decide +kernel, by decide +kernel, _, rfl, by decide +kernel,
      goodA _ _ _ (by decide +kernel) (by decide +kernel) (by decide +kernel)⟩, by decide +kernel⟩,
   ⟨⟨by decide +kernel, by decide +kernel, _, rfl, by decide +kernel,
      goodA _ _ _ (by decide +kernel) (by decide +kernel) (by decide +kernel)⟩, by decide +kernel⟩,
   ⟨⟨by decide +kernel, by decide +kernel, _, rfl, by decide +kernel,
      goodA _ _ _ (by decide +kernel) (by decide +kernel) (by decide +kernel)⟩, by decide +kernel⟩,
   ⟨⟨by decide +kernel, by decide +kernel, _, rfl, by decide +kernel,
      goodA _ _ _ (by decide +kernel) (by decide +kernel) (by decide +kernel)⟩, by decide +kernel⟩,
   ⟨⟨by decide +kernel, by decide +kernel, _, rfl, by decide +kernel,
      goodB _ _ _ (by decide +kernel) (by decide +kernel) (by decide +kernel)⟩, by decide +kernel⟩,
   ⟨⟨by decide +kernel, by decide +kernel, _, rfl, by decide +kernel,
      goodA _ _ _ (by decide +kernel) (by decide +kernel) (by decide +kernel)⟩, by decide +kernel⟩,
   ⟨⟨by decide +kernel, by decide +kernel, _, rfl, by decide +kernel,
      goodA _ _ _ (by decide +kernel) (by decide +kernel) (by decide +kernel)⟩, by decide +kernel⟩,
   ⟨⟨by decide +kernel, by decide +kernel, _, rfl, by decide +kernel,
      goodB _ _ _ (by decide +kernel) (by decide +kernel) (by decide +kernel)⟩, by decide +kernel⟩,
   ⟨⟨by decide +kernel, by decide +kernel, _, rfl, by decide +kernel,
      goodB _ _ _ (by decide +kernel) (by decide +kernel) (by decide +kernel)⟩, by decide +kernel⟩⟩

/-- What the hypotheses of ArithmeticInstructions are met by (RegisterInstructions), clause by clause. -/
theorem witness_RegisterInstructions :
    (let i : Issue := iw
     let s : State := go [0, 0x10000]
     s.issuesOn i = true) ∧
    (let i : Issue := iw
     let ws : Reg := 2
     let n : Nat := 15
     let s : State := go [0, 0x10000]
     s.issuesOn i = true ∧
     ((s.issued i).core i.core).w ws ≠ 0 ∧
     n < 32 ∧
     (((s.issued i).core i.core).w ws).getLsbD (31 - n) = true ∧
     (∀ m < n, (((s.issued i).core i.core).w ws).getLsbD (31 - m) = false)) ∧
    (let i : Issue := iw
     let ws : Reg := 3
     let s : State := go [0, 0x10000]
     s.issuesOn i = true ∧
     ((s.issued i).core i.core).w ws = 0) := by
  refine ⟨?_, ?_, ?_⟩ <;> decide +kernel

/-- What the hypotheses of ArithmeticInstructions are met by (ImmediateInstructions), clause by clause. -/
theorem witness_ImmediateInstructions :
    (let i : Issue := iw
     let s : State := go []
     s.issuesOn i = true) := by
  decide +kernel

/-- What the hypotheses of ArithmeticInstructions are met by (SaturatingInstructions), clause by clause. -/
theorem witness_SaturatingInstructions :
    (let i : Issue := iw
     let s : State := go []
     s.issuesOn i = true) := by
  decide +kernel

/-- What the hypotheses of MultiplyAndAccumulate are met by, clause by clause. -/
theorem witness_MultiplyAndAccumulate :
    (let i : Issue := ic
     let s : State := go []
     s.issuesOn i = true) := by
  decide +kernel

/-- What the hypotheses of Division are met by, clause by clause. -/
theorem witness_Division :
    (let i : Issue := iw
     let s : State := go []
     s.issuesOn i = true) := by
  decide +kernel

/-- What the hypotheses of GeneralRegisters are met by, clause by clause. -/
theorem witness_GeneralRegisters :
    (let k : Core := coreAt []
     k.gpr.length = 16 ∧
     k.sp.length = 4) ∧
    (let k : Core := coreAt []
     let j := 0
     k.gpr.length = 16 ∧
     k.sp.length = 4 ∧
     j ≠ spIx k.world k.sup) := by
  refine ⟨?_, ?_⟩ <;> decide +kernel

/-- What the hypotheses of BranchesCallsAndJumps are met by (Branches), clause by clause. -/
theorem witness_Branches :
    (let i : Issue := ic
     let s : State := go []
     s.issuesOn i = true) := by
  decide +kernel

/-- What the hypotheses of BranchesCallsAndJumps are met by (CallsAndJumps), clause by clause. -/
theorem witness_CallsAndJumps :
    (let i : Issue := iw
     let s : State := go [0x20000200, 0x20000201]
     s.issuesOn i = true) ∧
    (let i : Issue := iw
     let ws : Reg := 1
     let m : BitVec 17 := 0x1FFFE
     let s : State := go [0x20000200, 0x20000201]
     let k := (s.issued i).core i.core
     let t := k.w ws + m.signExtend 32
     s.issuesOn i = true ∧
     t.getLsbD 0 = false) ∧
    (let i : Issue := iw
     let m : BitVec 17 := 0x1FFFE
     let ws : Reg := 2
     let s : State := go [0x20000200, 0x20000201]
     let k := (s.issued i).core i.core
     let t := k.w ws + m.signExtend 32
     s.issuesOn i = true ∧
     t.getLsbD 0 = true) := by
  refine ⟨?_, ?_, ?_⟩ <;> decide +kernel

/-- What the hypotheses of HardwareLoopsAndBack are met by (HardwareLoops), clause by clause. -/
theorem witness_HardwareLoops :
    (let i : Issue := iw
     let s : State := go []
     s.issuesOn i = true ∧
     i.compact = false) ∧
    (let i : Issue := iw
     let e : BitVec 9 := 3
     let s : State := go []
     s.issuesOn i = true ∧
     i.compact = false ∧
     3 ≤ e.toNat) ∧
    (let i : Issue := iw
     let e : BitVec 9 := 2
     let s : State := go []
     s.issuesOn i = true ∧
     i.compact = false ∧
     e.toNat < 3) ∧
    (let i : Issue := iw
     let m : BitVec 8 := 7
     let s : State := go []
     s.issuesOn i = true ∧
     i.compact = false ∧
     m.toNat < 8) ∧
    (let i : Issue := iw
     let m : BitVec 8 := 8
     let s : State := go []
     s.issuesOn i = true ∧
     i.compact = false ∧
     8 ≤ m.toNat) := by
  refine ⟨?_, ?_, ?_, ?_, ?_⟩ <;> decide +kernel

/-- What the hypotheses of HardwareLoopsAndBack are met by (LoopBack), clause by clause. -/
theorem witness_LoopBack :
    (let i : Issue := iw
     let n : Nat := 1
     let s : State := { go [] with dec := { coreAt [] with dla := 2, dle := [0, 0x20000104, 0], dlc := [0, 2, 0] } }
     let k := (s.issued i).core i.core
     let next := k.pc + (if i.compact then 2 else 4)
     s.issues i = true ∧
     n < 3 ∧
     k.dla.testBit n = true ∧
     k.dle.getD n 0 = next ∧
     (∀ j < n, ¬ (k.dla.testBit j = true ∧ k.dle.getD j 0 = next))) ∧
    (let i : Issue := iw
     let n : Nat := 1
     let s : State := { go [] with dec := { coreAt [] with dla := 2, dle := [0, 0x20000104, 0], dlc := [0, 2, 0] } }
     let k := (s.issued i).core i.core
     let next := k.pc + (if i.compact then 2 else 4)
     let c := k.dlc.getD n 0
     s.issues i = true ∧
     n < 3 ∧
     k.dla.testBit n = true ∧
     k.dle.getD n 0 = next ∧
     (∀ j < n, ¬ (k.dla.testBit j = true ∧ k.dle.getD j 0 = next)) ∧
     1 < c.toNat) ∧
    (let i : Issue := iw
     let n : Nat := 1
     let s : State := { go [] with dec := { coreAt [] with dla := 2, dle := [0, 0x20000104, 0], dlc := [0, 1, 0] } }
     let k := (s.issued i).core i.core
     let next := k.pc + (if i.compact then 2 else 4)
     let c := k.dlc.getD n 0
     s.issues i = true ∧
     n < 3 ∧
     k.dla.testBit n = true ∧
     k.dle.getD n 0 = next ∧
     (∀ j < n, ¬ (k.dla.testBit j = true ∧ k.dle.getD j 0 = next)) ∧
     c.toNat ≤ 1 ∧
     (∀ j < 3, n < j → ¬ (k.dla.testBit j = true ∧ k.dle.getD j 0 = next))) := by
  refine ⟨?_, ?_, ?_⟩ <;> decide +kernel

/-- What the hypotheses of SystemCallsAndReturn are met by (CallsOfTheSystem), clause by clause. -/
theorem witness_CallsOfTheSystem :
    (let i : Issue := iw
     let s : State := go []
     s.issuesOn i = true) ∧
    (let i : Issue := iw
     let s : State := go []
     s.issuesOn i = true ∧
     i.core = .decani) ∧
    (let i : Issue := { iw with core := .cantoris }
     let s : State := go []
     let s : State := { s with cant := { coreAt [] with psr := 1 } }
     let s : State := s.setFld fCANTSTAT_STATE 3
     s.issuesOn i = true ∧
     i.core = .cantoris) ∧
    (let i : Issue := iw
     let s : State := go []
     let s : State := s.setFld fSACDBG_LEVEL 2
     let k := (s.issued i).core i.core
     let admits := match k.world with
       | .nave => decide (1 ≤ s.fld fSACDBG_LEVEL)
       | .sacristy => decide (2 ≤ s.fld fSACDBG_LEVEL)
     s.issuesOn i = true ∧
     admits = true) ∧
    (let i : Issue := iw
     let s : State := go []
     let k := (s.issued i).core i.core
     let admits := match k.world with
       | .nave => decide (1 ≤ s.fld fSACDBG_LEVEL)
       | .sacristy => decide (2 ≤ s.fld fSACDBG_LEVEL)
     s.issuesOn i = true ∧
     admits = false) := by
  refine ⟨?_, ?_, ?_, ?_, ?_⟩ <;> decide +kernel

/-- What the hypotheses of SpecialRegisters are met by, clause by clause. -/
theorem witness_SpecialRegisters :
    (let i : Issue := iw
     let s : State := go []
     s.issuesOn i = true) ∧
    (let i : Issue := iw
     let s : State := go []
     let k := (s.issued i).core i.core
     s.issuesOn i = true ∧
     k.sup = true) ∧
    (let i : Issue := iw
     let s : State := go []
     let s : State := { s with dec := { s.dec with psr := 0 } }
     let k := (s.issued i).core i.core
     s.issuesOn i = true ∧
     k.sup = false) := by
  refine ⟨?_, ?_, ?_⟩ <;> decide +kernel

/-- What the hypotheses of TrapsAndLockUp are met by (TrapEntry), clause by clause. -/
theorem witness_TrapEntry :
    (let c : CoreId := .decani
     let t : TrapIn := ⟨0x01, .sacristy, 0x20000100, 0, none, some 0x80000000, false, false⟩
     let s : State := { go [] with dec := { coreAt [] with sp := [0, 0, 0, 0x20000024] } }
     let k := (s.core c).landAll
     let sp := k.sp.getD (spIx t.world true) 0
     let a := sp - (if sp.getLsbD 2 then 36 else 32)
     k.world = t.world ∧
     k.sbuf = [] ∧
     inSram a.toNat 32 = true ∧
     (k.guard t.world true .w a.toNat).1 = true ∧
     sp.extractLsb' 0 2 = 0) := by
  decide +kernel

/-- What the hypotheses of TrapsAndLockUp are met by (LockUp), clause by clause. -/
theorem witness_LockUp :
    (let t : TrapIn := ⟨0x01, .sacristy, 0x20000100, 0, none, none, false, false⟩
     let s : State := { go [] with dec := { coreAt [] with sp := [0, 0, 0, 0x20000024], priv := rput (rput (coreAt []).priv rGCTL 2) (rSGPERM 0) 0 } }
     let k := s.dec.landAll
     let sp := k.sp.getD (spIx t.world true) 0
     let a := sp - (if sp.getLsbD 2 then 36 else 32)
     k.world = t.world ∧
     (k.guard t.world true .w a.toNat).1 = false) := by
  decide +kernel

/-- What the hypotheses of InterruptEntry are met by, clause by clause. -/
theorem witness_InterruptEntry :
    (let s : State := go []
     let s : State := { s with slp := { s.slp with st := .run } }
     s.slp.st = .run ∧
     s.running .decani = true ∧
     s.winHeld .decani = false) ∧
    (let n : Nat := 96
     let s : State := go []
     let s : State := { s with dec := (({ s.dec with latch := 2 ^ 96, psr := 5 }.setPfld (fINTEN_EN 3) 1).setPfld fINTCTL_GBITS 4) }
     let s : State := { s with slp := { s.slp with st := .run } }
     let s : State := { s with dec := { s.dec with notice := none } }
     s.slp.st = .run ∧
     s.running .decani = true ∧
     s.winHeld .decani = false ∧
     s.dec.notice = none ∧
     s.nextInt .decani = some n) ∧
    (let w := World.sacristy
     let a := 0x20000040
     let s : State := go []
     let s : State := { s with dec := { s.dec with notice := some (.sacristy, 0x20000040) } }
     let s : State := { s with slp := { s.slp with st := .run } }
     s.slp.st = .run ∧
     s.running .decani = true ∧
     s.winHeld .decani = false ∧
     s.dec.notice = some (w, a)) ∧
    (let s : State := go []
     let s : State := { s with slp := { s.slp with st := .run } }
     let s : State := { s with dec := { s.dec with notice := none } }
     s.slp.st = .run ∧
     s.running .decani = true ∧
     s.winHeld .decani = false ∧
     s.dec.notice = none ∧
     s.nextInt .decani = none) := by
  refine ⟨?_, ?_, ?_, ?_⟩ <;> decide +kernel

/-- What the hypotheses of LoadsAndStores are met by (LoadsFromCache), clause by clause. -/
theorem witness_LoadsFromCache :
    (let i : Issue := iw
     let s : State := { go [0x2000007C] with dec := { coreAt [0x2000007C] with dc := [line 0x20000060] } }
     s.issuesOn i = true) ∧
    (let i : Issue := iw
     let ws : Reg := 1
     let m : BitVec 18 := 3
     let s : State := { go [0x2000007C] with dec := { coreAt [0x2000007C] with dc := [line 0x20000060] } }
     let k := (s.issued i).core i.core
     let a := k.w ws + m.signExtend 32
     s.issuesOn i = true ∧
     s.hits i.core a.toNat 1 = true) ∧
    (let i : Issue := iw
     let ws : Reg := 1
     let m : BitVec 18 := 2
     let s : State := { go [0x2000007C] with dec := { coreAt [0x2000007C] with dc := [line 0x20000060] } }
     let k := (s.issued i).core i.core
     let a := k.w ws + m.signExtend 32
     s.issuesOn i = true ∧
     s.hits i.core a.toNat 2 = true ∧
     a.toNat % 2 = 0) ∧
    (let i : Issue := iw
     let ws : Reg := 1
     let m : BitVec 18 := 0
     let s : State := { go [0x2000007C] with dec := { coreAt [0x2000007C] with dc := [line 0x20000060] } }
     let k := (s.issued i).core i.core
     let a := k.w ws + m.signExtend 32
     s.issuesOn i = true ∧
     s.hits i.core a.toNat 4 = true ∧
     a.toNat % 4 = 0) ∧
    (let i : Issue := iw
     let ws : Reg := 1
     let wd : Reg := 2
     let s : State := { go [0x2000007C] with dec := { coreAt [0x2000007C] with dc := [line 0x20000060] } }
     let k := (s.issued i).core i.core
     s.issuesOn i = true ∧
     s.hits i.core (k.w ws).toNat 4 = true ∧
     (k.w ws).toNat % 4 = 0 ∧
     wd ≠ ws) ∧
    (let i : Issue := iw
     let ws : Reg := 1
     let s : State := { go [0x2000007C] with dec := { coreAt [0x2000007C] with dc := [line 0x20000060] } }
     let k := (s.issued i).core i.core
     s.issuesOn i = true ∧
     s.hits i.core (k.w ws).toNat 4 = true ∧
     (k.w ws).toNat % 4 = 0) := by
  refine ⟨?_, ?_, ?_, ?_, ?_, ?_⟩ <;> decide +kernel

/-- What the hypotheses of LoadsAndStores are met by (StoresToBuffer), clause by clause. -/
theorem witness_StoresToBuffer :
    (let i : Issue := iw
     let s : State := go [0x2007FFFC]
     s.issuesOn i = true) ∧
    (let i : Issue := iw
     let ws : Reg := 1
     let m : BitVec 18 := 3
     let s : State := go [0x2007FFFC]
     let k := (s.issued i).core i.core
     let a := (k.w ws + m.signExtend 32).toNat
     s.issuesOn i = true ∧
     s.takesStore i.core a 1 = true) ∧
    (let i : Issue := iw
     let ws : Reg := 1
     let m : BitVec 18 := 2
     let s : State := go [0x2007FFFC]
     let k := (s.issued i).core i.core
     let a := (k.w ws + m.signExtend 32).toNat
     s.issuesOn i = true ∧
     s.takesStore i.core a 2 = true ∧
     a % 2 = 0) ∧
    (let i : Issue := iw
     let ws : Reg := 1
     let m : BitVec 18 := 0
     let s : State := go [0x2007FFFC]
     let k := (s.issued i).core i.core
     let a := (k.w ws + m.signExtend 32).toNat
     s.issuesOn i = true ∧
     s.takesStore i.core a 4 = true ∧
     a % 4 = 0) ∧
    (let i : Issue := iw
     let ws : Reg := 1
     let s : State := go [0x2007FFFC]
     let k := (s.issued i).core i.core
     let b := (k.w ws).toNat
     s.issuesOn i = true ∧
     s.takesStore i.core b 4 = true ∧
     b % 4 = 0) := by
  refine ⟨?_, ?_, ?_, ?_, ?_⟩ <;> decide +kernel

/-- What the hypotheses of PushAndPop are met by, clause by clause. -/
theorem witness_PushAndPop :
    (let i : Issue := iw
     let s : State := { go [] with dec := { coreAt [] with sp := [0, 0, 0, 0x20000060], dc := [line 0x20000060] } }
     s.issuesOn i = true) ∧
    (let i : Issue := iw
     let m : BitVec 16 := 0x8003
     let s : State := { go [] with dec := { coreAt [] with sp := [0, 0, 0, 0x20000060], dc := [line 0x20000060] } }
     let k := (s.issued i).core i.core
     let rs := (List.finRange 16).filter (fun r => m.getLsbD r.val)
     let n := rs.length
     let low := k.w 14 - BitVec.ofNat 32 (4 * n)
     s.issuesOn i = true ∧
     m ≠ 0 ∧
     m.getLsbD 14 = false ∧
     s.takesStore i.core low.toNat (4 * n) = true) ∧
    (let i : Issue := iw
     let m : BitVec 16 := 0x8003
     let s : State := { go [] with dec := { coreAt [] with sp := [0, 0, 0, 0x20000060], dc := [line 0x20000060] } }
     let k := (s.issued i).core i.core
     let rs := (List.finRange 16).filter (fun r => m.getLsbD r.val)
     let n := rs.length
     s.issuesOn i = true ∧
     m ≠ 0 ∧
     m.getLsbD 14 = false ∧
     s.hits i.core (k.w 14).toNat (4 * n) = true ∧
     k.gpr.length = 16 ∧
     k.sp.length = 4) ∧
    (let i : Issue := iw
     let m : BitVec 16 := 0x4000
     let s : State := { go [] with dec := { coreAt [] with sp := [0, 0, 0, 0x20000060], dc := [line 0x20000060] } }
     s.issuesOn i = true ∧
     (m = 0 ∨ m.getLsbD 14 = true)) := by
  refine ⟨?_, ?_, ?_, ?_⟩ <;> decide +kernel

/-- What the hypotheses of StoreConditionalAndDrain are met by (StoreConditional), clause by clause. -/
theorem witness_StoreConditional :
    (let i : Issue := iw
     let ws : Reg := 1
     let s : State := { go [0x20000064] with dec := { coreAt [0x20000064] with dc := [line 0x20000060] } }
     let k := (s.issued i).core i.core
     let a := (k.w ws).toNat
     s.issuesOn i = true ∧
     s.takesStore i.core a 4 = true ∧
     (k.guard k.world k.sup .w a).1 = true ∧
     a % 4 = 0) ∧
    (let i : Issue := iw
     let ws : Reg := 1
     let s : State := { go [0x20000064] with dec := { coreAt [0x20000064] with dc := [line 0x20000060] } }
     let k := (s.issued i).core i.core
     let a := (k.w ws).toNat
     s.issuesOn i = true ∧
     s.takesStore i.core a 4 = true ∧
     (k.guard k.world k.sup .w a).1 = true ∧
     a % 4 = 0 ∧
     k.resv ≠ some (lineOf a)) ∧
    (let i : Issue := iw
     let ws : Reg := 1
     let x := line 0x20000060
     let s : State := { go [0x20000064] with dec := { coreAt [0x20000064] with dc := [line 0x20000060] } }
     let s : State := { s with dec := { s.dec with resv := some 0x20000060 } }
     let k := (s.issued i).core i.core
     let a := (k.w ws).toNat
     s.issuesOn i = true ∧
     s.takesStore i.core a 4 = true ∧
     (k.guard k.world k.sup .w a).1 = true ∧
     a % 4 = 0 ∧
     k.resv = some (lineOf a) ∧
     findLine k.dc (lineOf a) = some x ∧
     x.st ≠ .shared) := by
  refine ⟨?_, ?_, ?_⟩ <;> decide +kernel

/-- What the hypotheses of DataTraps are met by, clause by clause. -/
theorem witness_DataTraps :
    (let i : Issue := iw
     let s : State := go [0x20000041, 0xE0000000, 0x20000040]
     s.issuesOn i = true) ∧
    (let i : Issue := iw
     let m : BitVec 18 := 0
     let ws : Reg := 2
     let s : State := go [0x20000041, 0xE0000000, 0x20000040]
     let s : State := { s with dec := { s.dec with psr := 0 } }
     let k := (s.issued i).core i.core
     let a := k.w ws + m.signExtend 32
     s.issuesOn i = true ∧
     0xE0000000 ≤ a.toNat ∧
     a.toNat < 0xF0000000 ∧
     k.sup = false) ∧
    (let i : Issue := iw
     let ws : Reg := 1
     let m : BitVec 18 := 0
     let s : State := go [0x20000041, 0xE0000000, 0x20000040]
     let k := (s.issued i).core i.core
     let a := k.w ws + m.signExtend 32
     s.issuesOn i = true ∧
     a.toNat < 0xE0000000 ∧
     a.toNat % 4 ≠ 0) ∧
    (let i : Issue := iw
     let m : BitVec 18 := 0
     let ws : Reg := 3
     let s : State := go [0x20000041, 0xE0000000, 0x20000040]
     let s : State := { s with dec := { s.dec with priv := rput (rput (rput (rput s.dec.priv rGCTL 2) (rSGBASE 0) 0x20000100) (rSGLIM 0) 0x200001FC) (rSGPERM 0) 0x138 } }
     let k := (s.issued i).core i.core
     let a := k.w ws + m.signExtend 32
     let g := k.guard k.world k.sup .r a.toNat
     s.issuesOn i = true ∧
     a.toNat < 0xE0000000 ∧
     a.toNat % 4 = 0 ∧
     g.1 = false) := by
  refine ⟨?_, ?_, ?_, ?_⟩ <;> decide +kernel

/-- What the hypotheses of SystemCallsAndReturn are met by (ReturnFromTrap), clause by clause. -/
theorem witness_ReturnFromTrap :
    (let i : Issue := iw
     let s : State := { go [] with dec := { coreAt [] with sp := [0, 0x20000060, 0, 0x20000060], dc := [line 0x20000060] } }
     s.issues i = true) ∧
    (let i : Issue := iw
     let s : State := { go [] with dec := { coreAt [] with sp := [0, 0x20000060, 0, 0x20000060], dc := [line 0x20000060] } }
     let s : State := { s with dec := { s.dec with psr := 0 } }
     let k := (s.issued i).core i.core
     s.issues i = true ∧
     k.sup = false) ∧
    (let i : Issue := iw
     let s : State := { go [] with dec := { coreAt [] with sp := [0, 0x20000060, 0, 0x20000060], dc := [line 0x20000060] } }
     let s : State := { s with dec := { s.dec with psr := 1, dc := [{ line 0x20000060 with data := List.replicate 24 0 ++ [2] ++ List.replicate 7 0 }] } }
     let k := (s.issued i).core i.core
     let n := spIx k.world true
     let a := (k.sp.getD n 0).toNat
     let f := fun (j : Nat) => BitVec.ofNat 32 (leNat (s.cacheBytes i.core (a + 4 * j) 4))
     s.issues i = true ∧
     k.sup = true ∧
     s.hits i.core a 32 = true ∧
     k.world = .nave ∧
     (f 6).getLsbD 1 = true) ∧
    (let i : Issue := iw
     let s : State := { go [] with dec := { coreAt [] with sp := [0, 0x20000060, 0, 0x20000060], dc := [line 0x20000060] } }
     let k := (s.issued i).core i.core
     let n := spIx k.world true
     let a := (k.sp.getD n 0).toNat
     let f := fun (j : Nat) => BitVec.ofNat 32 (leNat (s.cacheBytes i.core (a + 4 * j) 4))
     s.issues i = true ∧
     k.sup = true ∧
     s.hits i.core a 32 = true ∧
     ((f 6).getLsbD 1 = true → k.world = .sacristy)) := by
  refine ⟨?_, ?_, ?_, ?_⟩ <;> decide +kernel

/-- What the hypotheses of FencesAndCaches are met by, clause by clause. -/
theorem witness_FencesAndCaches :
    (let i : Issue := iw
     let s : State := { go [0x20000064] with dec := { coreAt [0x20000064] with dc := [line 0x20000060] } }
     s.issuesOn i = true ∧
     (s.core i.core).sbuf = []) ∧
    (let i : Issue := iw
     let ws : Reg := 1
     let x := line 0x20000060
     let s : State := { go [0x20000064] with dec := { coreAt [0x20000064] with dc := [line 0x20000060] } }
     let k := (s.issued i).core i.core
     let base := lineOf (k.w ws).toNat
     s.issuesOn i = true ∧
     (s.core i.core).sbuf = [] ∧
     findLine k.dc base = some x ∧
     x.st = .modified) ∧
    (let i : Issue := iw
     let ws : Reg := 1
     let x := line 0
     let s : State := { go [0x20000064] with dec := { coreAt [0x20000064] with dc := [line 0x20000060] } }
     let s : State := { s with dec := { s.dec with dc := [] } }
     let k := (s.issued i).core i.core
     let base := lineOf (k.w ws).toNat
     s.issuesOn i = true ∧
     (s.core i.core).sbuf = [] ∧
     (∀ x, findLine k.dc base = some x → x.st ≠ .modified)) ∧
    (let i : Issue := iw
     let ws : Reg := 1
     let x := line 0x20000060
     let s : State := { go [0x20000064] with dec := { coreAt [0x20000064] with dc := [line 0x20000060] } }
     let k := (s.issued i).core i.core
     let base := lineOf (k.w ws).toNat
     s.issuesOn i = true ∧
     (s.core i.core).sbuf = [] ∧
     (k.guard k.world k.sup .w base).1 = true ∧
     findLine k.dc base = some x ∧
     x.st = .modified) ∧
    (let i : Issue := iw
     let ws : Reg := 1
     let x := { line 0x20000060 with st := .shared }
     let s : State := { go [0x20000064] with dec := { coreAt [0x20000064] with dc := [line 0x20000060] } }
     let s : State := { s with dec := { s.dec with dc := [x] } }
     let k := (s.issued i).core i.core
     let base := lineOf (k.w ws).toNat
     s.issuesOn i = true ∧
     (s.core i.core).sbuf = [] ∧
     (k.guard k.world k.sup .w base).1 = true ∧
     findLine k.dc base = some x ∧
     x.st ≠ .modified) ∧
    (let i : Issue := iw
     let ws : Reg := 1
     let s : State := { go [0x20000064] with dec := { coreAt [0x20000064] with dc := [line 0x20000060] } }
     let s : State := { s with dec := { s.dec with dc := [] } }
     let k := (s.issued i).core i.core
     let base := lineOf (k.w ws).toNat
     s.issuesOn i = true ∧
     (s.core i.core).sbuf = [] ∧
     (k.guard k.world k.sup .w base).1 = true ∧
     findLine k.dc base = none) := by
  refine ⟨?_, ?_, ?_, ?_, ?_, ?_⟩ <;> decide +kernel

/-- What the hypotheses of StoreConditionalAndDrain are met by (StoreDrain), clause by clause. -/
theorem witness_StoreDrain :
    (let e : SBuf := ⟨.sacristy, true, 0x20000064, false, 0x20000064, [1, 2]⟩
     let rest : List SBuf := []
     let c : CoreId := .decani
     let s : State := { go [] with dec := { coreAt [] with dc := [line 0x20000060], sbuf := [e] } }
     let k := s.core c
     s.cacheUp c = true ∧
     k.sbuf = e :: rest) ∧
    (let e : SBuf := ⟨.sacristy, true, 0x20000064, false, 0x20000064, [1, 2]⟩
     let rest : List SBuf := []
     let c : CoreId := .decani
     let x := line 0x20000060
     let s : State := { go [] with dec := { coreAt [] with dc := [line 0x20000060], sbuf := [e] } }
     let k := s.core c
     s.cacheUp c = true ∧
     k.sbuf = e :: rest ∧
     (k.guard e.world e.priv .w e.check).1 = true ∧
     inSram e.addr e.data.length = true ∧
     e.data ≠ [] ∧
     lineOf (e.addr + e.data.length - 1) = lineOf e.addr ∧
     findLine k.dc (lineOf e.addr) = some x ∧
     x.st ≠ .shared) ∧
    (let e : SBuf := ⟨.sacristy, true, 0x20000064, false, 0x20000064, [1, 2]⟩
     let rest : List SBuf := []
     let c : CoreId := .decani
     let s : State := { go [] with dec := { coreAt [] with dc := [line 0x20000060], sbuf := [e] } }
     let s : State := { s with dec := { s.dec with priv := rput s.dec.priv rGCTL 2 } }
     let k := s.core c
     s.cacheUp c = true ∧
     k.sbuf = e :: rest ∧
     (k.guard e.world e.priv .w e.check).1 = false ∧
     e.checked = false ∧
     k.notice = none) := by
  refine ⟨?_, ?_, ?_⟩ <;> decide +kernel

/-- What the hypotheses of TileInstructions are met by (TileArithmetic), clause by clause. -/
theorem witness_TileArithmetic :
    (let i : Issue := iw
     let s : State := { go [] with dec := ((coreAt []).setTile 1 (tile 2 16 1)).setTile 2 (tile 2 16 1) }
     s.issuesOn i = true) ∧
    (let i : Issue := iw
     let ta : Fin 8 := 1
     let r : Fin 16 := 1
     let c : Fin 16 := 15
     let fmt : Fin 3 := 1
     let s : State := { go [] with dec := ((coreAt []).setTile 1 (tile 2 16 1)).setTile 2 (tile 2 16 1) }
     let k := (s.issued i).core i.core
     let R := r.val + 1
     let C := c.val + 1
     let good := fun (j : Fin 8) => (k.tile j).use = true ∧ (k.tile j).rows = R ∧ (k.tile j).cols = C ∧ (k.tile j).fmt = fmt.val
     s.issuesOn i = true ∧
     good ta) ∧
    (let i : Issue := iw
     let ta : Fin 8 := 1
     let tb : Fin 8 := 2
     let r : Fin 16 := 1
     let c : Fin 16 := 15
     let fmt : Fin 3 := 1
     let s : State := { go [] with dec := ((coreAt []).setTile 1 (tile 2 16 1)).setTile 2 (tile 2 16 1) }
     let k := (s.issued i).core i.core
     let R := r.val + 1
     let C := c.val + 1
     let good := fun (j : Fin 8) => (k.tile j).use = true ∧ (k.tile j).rows = R ∧ (k.tile j).cols = C ∧ (k.tile j).fmt = fmt.val
     s.issuesOn i = true ∧
     good ta ∧
     good tb) := by
  refine ⟨?_, ?_, ?_⟩ <;> decide +kernel

/-- What the hypotheses of TileInstructions are met by (TileTrapAndRelease), clause by clause. -/
theorem witness_TileTrapAndRelease :
    (let i : Issue := iw
     let s : State := go []
     s.issuesOn i = true) ∧
    (let i : Issue := iw
     let ta : Fin 8 := 7
     let s : State := go []
     let k := (s.issued i).core i.core
     s.issuesOn i = true ∧
     (k.tile ta).use = false) ∧
    (let i : Issue := iw
     let m : BitVec 8 := 1
     let s : State := go []
     s.issuesOn i = true ∧
     m ≠ 0) ∧
    (let i : Issue := iw
     let m : BitVec 8 := 0
     let s : State := go []
     s.issuesOn i = true ∧
     m = 0) := by
  refine ⟨?_, ?_, ?_, ?_⟩ <;> decide +kernel

/-- What the hypotheses of Correlation are met by, clause by clause. -/
theorem witness_Correlation :
    (let i : Issue := iw
     let td : Fin 8 := 2
     let tp : Fin 4 := 0
     let tb : Fin 8 := 3
     let ws : Reg := 1
     let r : Fin 16 := 15
     let c : Fin 16 := 15
     let s : State := { go [3] with dec := (((coreAt [200]).setTile 0 (tile 16 16 0)).setTile 1 (tile 16 16 0)).setTile 3 (tile 16 16 0) }
     let k := (s.issued i).core i.core
     let w := (k.w ws).toNat
     let off := w % 512
     let m := (r.val + 1) * (c.val + 1)
     let d0 := k.tile (2 * tp.val)
     let d1 := k.tile (2 * tp.val + 1)
     let full := fun (t : Tile) => t.use = true ∧ t.rows = 16 ∧ t.cols = 16
     s.issuesOn i = true ∧
     td.val ≠ 2 * tp.val ∧
     td.val ≠ 2 * tp.val + 1 ∧
     td ≠ tb ∧
     full d0 ∧
     full d1 ∧
     d0.fmt = d1.fmt ∧
     (k.tile tb).use = true ∧
     (k.tile tb).rows = r.val + 1 ∧
     (k.tile tb).cols = c.val + 1 ∧
     (k.tile tb).fmt ≠ 1 ∧
     (k.w ws) &&& 0xF8F0FE00 = 0 ∧
     off + m + 14 ≤ 511) ∧
    (let i : Issue := iw
     let td : Fin 8 := 2
     let tp : Fin 4 := 0
     let tb : Fin 8 := 3
     let ws : Reg := 1
     let r : Fin 16 := 15
     let c : Fin 16 := 15
     let s : State := { go [3] with dec := (((coreAt [200]).setTile 0 (tile 16 16 0)).setTile 1 (tile 16 16 0)).setTile 3 (tile 16 16 0) }
     let k := (s.issued i).core i.core
     let w := (k.w ws).toNat
     let off := w % 512
     let q := w / 16777216 % 8
     let m := (r.val + 1) * (c.val + 1)
     let d0 := k.tile (2 * tp.val)
     let d1 := k.tile (2 * tp.val + 1)
     let full := fun (t : Tile) => t.use = true ∧ t.rows = 16 ∧ t.cols = 16
     let fits := fun (rows : Nat) => (k.tile td).use = true → (k.tile td).cols = 16 ∧ rows ≤ (k.tile td).rows ∧ (k.tile td).fmt = 0
     s.issuesOn i = true ∧
     td.val ≠ 2 * tp.val ∧
     td.val ≠ 2 * tp.val + 1 ∧
     td ≠ tb ∧
     full d0 ∧
     full d1 ∧
     d0.fmt = d1.fmt ∧
     (k.tile tb).use = true ∧
     (k.tile tb).rows = r.val + 1 ∧
     (k.tile tb).cols = c.val + 1 ∧
     (k.tile tb).fmt ≠ 1 ∧
     (k.w ws) &&& 0xF8F0FE00 = 0 ∧
     off + m + 14 ≤ 511 ∧
     fits (2 * q + 2)) ∧
    (let i : Issue := iw
     let td : Fin 8 := 2
     let tp : Fin 4 := 0
     let tb : Fin 8 := 3
     let ws : Reg := 1
     let r : Fin 16 := 15
     let c : Fin 16 := 15
     let s : State := { go [3] with dec := (((coreAt [200]).setTile 0 (tile 16 16 0)).setTile 1 (tile 16 16 0)).setTile 3 (tile 16 16 0) }
     let k := (s.issued i).core i.core
     let w := (k.w ws).toNat
     let off := w % 512
     let q := w / 16777216 % 8
     let m := (r.val + 1) * (c.val + 1)
     let d0 := k.tile (2 * tp.val)
     let d1 := k.tile (2 * tp.val + 1)
     let full := fun (t : Tile) => t.use = true ∧ t.rows = 16 ∧ t.cols = 16
     let fits := fun (rows : Nat) => (k.tile td).use = true → (k.tile td).cols = 16 ∧ rows ≤ (k.tile td).rows ∧ (k.tile td).fmt = 0
     s.issuesOn i = true ∧
     td.val ≠ 2 * tp.val ∧
     td.val ≠ 2 * tp.val + 1 ∧
     td ≠ tb ∧
     full d0 ∧
     full d1 ∧
     d0.fmt = d1.fmt ∧
     (k.tile tb).use = true ∧
     (k.tile tb).rows = r.val + 1 ∧
     (k.tile tb).cols = c.val + 1 ∧
     (k.tile tb).fmt ≠ 1 ∧
     (k.w ws) &&& 0xF8F0FE00 = 0 ∧
     off + m + 14 ≤ 511 ∧
     fits (q + 1)) := by
  refine ⟨?_, ?_, ?_⟩ <;> decide +kernel

/-- What the hypotheses of TileMemory are met by (TileLoads), clause by clause. -/
theorem witness_TileLoads :
    (let i : Issue := iw
     let s : State := { go [0x20000060, 4] with dec := { coreAt [0x20000060, 4] with dc := [line 0x20000060] } }
     s.issuesOn i = true) ∧
    (let i : Issue := iw
     let ws : Reg := 1
     let wt : Reg := 2
     let pack : Bool := false
     let r : Fin 16 := 7
     let c : Fin 16 := 1
     let s : State := { go [0x20000060, 4] with dec := { coreAt [0x20000060, 4] with dc := [line 0x20000060] } }
     let k := (s.issued i).core i.core
     let R := r.val + 1
     let C := c.val + 1
     let a := (k.w ws).toNat
     let stride := if pack then 2 * C else (k.w wt).toNat
     s.issuesOn i = true ∧
     a % 2 = 0 ∧
     stride % 2 = 0 ∧
     a + R * stride + 32 ≤ 2 ^ 32 ∧
     (∀ p ∈ rowParts a stride R (2 * C), s.hits i.core p.1 p.2 = true)) ∧
    (let i : Issue := iw
     let ws : Reg := 1
     let s : State := { go [0x20000060, 4] with dec := { coreAt [0x20000060, 4] with dc := [line 0x20000060] } }
     let s : State := { s with hl := { s.hl with winAsk := none } }
     let s : State := { s with hl := { s.hl with winAns := none } }
     let k := (s.issued i).core i.core
     let a := (k.w ws).toNat
     s.issuesOn i = true ∧
     a % 4 = 0 ∧
     (∀ p ∈ areaParts a 32, s.hits i.core p.1 p.2 = true) ∧
     s.cacheBytes i.core a 32 = List.replicate 32 0 ∧
     s.hl.winAsk = none ∧
     s.hl.winAns = none) := by
  refine ⟨?_, ?_, ?_⟩ <;> decide +kernel

/-- What the hypotheses of TileMemory are met by (TileStores), clause by clause. -/
theorem witness_TileStores :
    (let i : Issue := iw
     let s : State := { go [0x20000060, 4] with dec := (coreAt [0x20000060, 4]).setTile 0 (tile 1 16 0) }
     s.issuesOn i = true) ∧
    (let i : Issue := iw
     let ws : Reg := 1
     let wt : Reg := 2
     let pack : Bool := false
     let r : Fin 16 := 0
     let c : Fin 16 := 15
     let t : Fin 8 := 0
     let fmt : Fin 3 := 0
     let s : State := { go [0x20000060, 4] with dec := (coreAt [0x20000060, 4]).setTile 0 (tile 1 16 0) }
     let k := (s.issued i).core i.core
     let R := r.val + 1
     let C := c.val + 1
     let a := (k.w ws).toNat
     let stride := if pack then 2 * C else (k.w wt).toNat
     let good := (k.tile t).use = true ∧ (k.tile t).rows = R ∧ (k.tile t).cols = C ∧ (k.tile t).fmt = fmt.val ∧ (k.tile t).el.length = R * C
     s.issuesOn i = true ∧
     good ∧
     a % 2 = 0 ∧
     stride % 2 = 0 ∧
     (∀ j < R, s.takesStore i.core (a + j * stride) (2 * C) = true) ∧
     R = 1 ∧
     lineOf (a + 2 * C - 1) = lineOf a) ∧
    (let i : Issue := iw
     let ws : Reg := 1
     let wt : Reg := 2
     let pack : Bool := false
     let r : Fin 16 := 0
     let c : Fin 16 := 15
     let t : Fin 8 := 0
     let fmt : Fin 3 := 0
     let s : State := { go [0x20000060, 4] with dec := (coreAt [0x20000060, 4]).setTile 0 (tile 1 16 0) }
     let s : State := { s with st := { s.st with running := false } }
     let k := (s.issued i).core i.core
     let R := r.val + 1
     let C := c.val + 1
     let a := (k.w ws).toNat
     let stride := if pack then 2 * C else (k.w wt).toNat
     let good := (k.tile t).use = true ∧ (k.tile t).rows = R ∧ (k.tile t).cols = C ∧ (k.tile t).fmt = fmt.val ∧ (k.tile t).el.length = R * C
     s.issuesOn i = true ∧
     good ∧
     a % 2 = 0 ∧
     stride % 2 = 0 ∧
     (∀ j < R, inSram (a + j * stride) (2 * C) = true) ∧
     s.st.running = false) ∧
    (let i : Issue := iw
     let ws : Reg := 1
     let s : State := go [0x20000060, 4]
     let k := (s.issued i).core i.core
     let a := (k.w ws).toNat
     s.issuesOn i = true ∧
     a % 32 = 0 ∧
     s.takesStore i.core a 32 = true ∧
     (∀ j < 8, (k.tile j).use = false)) := by
  refine ⟨?_, ?_, ?_, ?_⟩ <;> decide +kernel

/-- What the hypotheses of CacheTransactions are met by (LineRequests), clause by clause. -/
theorem witness_LineRequests :
    (let c : CoreId := .decani
     let a : Nat := 0x20000044
     let s : State := up .cell
     s.cacheUp c = true ∧
     0x20000000 ≤ a ∧
     a < 0x20080000) ∧
    (let c : CoreId := .decani
     let a : Nat := 0x20000044
     let s : State := up .cell
     let own := cacheOf c
     let base := lineOf a
     s.cacheUp c = true ∧
     0x20000000 ≤ a ∧
     a < 0x20080000 ∧
     findLine (s.lines own) base = none) ∧
    (let c : CoreId := .decani
     let a : Nat := 0x20000044
     let x := { line 0x20000040 with st := .shared }
     let s : State := up .cell
     let s : State := { s with dec := { s.dec with dc := [x] } }
     let own := cacheOf c
     let base := lineOf a
     s.cacheUp c = true ∧
     0x20000000 ≤ a ∧
     a < 0x20080000 ∧
     findLine (s.lines own) base = some x ∧
     x.st = .shared) ∧
    (let c : CoreId := .decani
     let a : Nat := 0x20000044
     let s : State := up .cell
     let s : State := { s with role := .chapter }
     let s : State := { s with st := { s.st with running := false } }
     s.cacheUp c = true ∧
     0x20000000 ≤ a ∧
     a < 0x20080000 ∧
     s.role = .chapter ∧
     s.st.running = false) := by
  refine ⟨?_, ?_, ?_, ?_⟩ <;> decide +kernel

/-- What the hypotheses of CacheTransactions are met by (LineTransfers), clause by clause. -/
theorem witness_LineTransfers :
    (let a : Nat := 0x2007FFFC
     let s : State := up .cell
     let s : State := { s with st := { s.st with running := false } }
     s.st.running = false ∧
     0x20000000 ≤ a ∧
     a < 0x20080000) ∧
    (let a : Nat := 0x2007FFFC
     let j := 3
     let s : State := up .cell
     let s : State := { s with st := { s.st with running := false } }
     s.st.running = false ∧
     0x20000000 ≤ a ∧
     a < 0x20080000 ∧
     j < 4) ∧
    (let a : Nat := 0x2007FFFC
     let n : Fin 3 := 0
     let x := line 0x2007FFE0
     let s : State := up .cell
     let s : State := { s with dec := { s.dec with dc := [x] } }
     let s : State := { s with st := { s.st with running := false } }
     let base := lineOf a
     s.st.running = false ∧
     0x20000000 ≤ a ∧
     a < 0x20080000 ∧
     findLine (s.lines (agentCache n)) base = some x ∧
     x.st = .modified ∧
     x.data.length = 32) := by
  refine ⟨?_, ?_, ?_⟩ <;> decide +kernel

/-- What the hypotheses of StorageCells are met by (MemoryBytes), clause by clause. -/
theorem witness_MemoryBytes :
    (let m : Mem := { (State.reset.mem) with cells := [(4, 1), (5, 2)] }
     Memory.wf m = true) ∧
    (let m : Mem := { (State.reset.mem) with cells := [(4, 1), (5, 2)] }
     let bs : List Byte := [7, 8]
     let j := 1
     Memory.wf m = true ∧
     j < bs.length) ∧
    (let m : Mem := { (State.reset.mem) with cells := [(4, 1), (5, 2)] }
     let a : Nat := 4
     let bs : List Byte := [7, 8]
     let b := 6
     Memory.wf m = true ∧
     (b < a ∨ a + bs.length ≤ b)) := by
  refine ⟨?_, ?_, ?_⟩ <;> decide +kernel

/-- What the hypotheses of StorageCells are met by (RegisterFields), clause by clause. -/
theorem witness_RegisterFields :
    (let f : Fld := fCLKSEL_ROOT
     let g : Fld := fCLKSEL_CDIV
     f.lo + f.w ≤ 32 ∧
     g.lo + g.w ≤ 32) ∧
    (let f : Fld := fCLKSEL_ROOT
     let g : Fld := fCLKSEL_CDIV
     f.lo + f.w ≤ 32 ∧
     g.lo + g.w ≤ 32 ∧
     (f.addr ≠ g.addr ∨ f.lo + f.w ≤ g.lo ∨ g.lo + g.w ≤ f.lo)) ∧
    (let f : Fld := fCLKSEL_ROOT
     let g : Fld := fCLKSEL_CDIV
     let a := 0
     f.lo + f.w ≤ 32 ∧
     g.lo + g.w ≤ 32 ∧
     a ≠ f.addr) := by
  refine ⟨?_, ?_, ?_⟩ <;> decide +kernel

/-- What the hypotheses of MemoryAndInterruptControl are met by (MemoryControl), clause by clause. -/
theorem witness_MemoryControl :
    (let h : Fin 2 := 1
     let s : State := up .cell
     let s : State := s.setFld (fBUSY 1) 0
     s.on (fBUSY h.val) = false) ∧
    (let h : Fin 2 := 1
     let s : State := up .cell
     let s : State := s.setFld (fBUSY 1) 1
     s.on (fBUSY h.val) = true) ∧
    (let n : Fin 3 := 1
     let s : State := up .cell
     let s : State := s.setFld (fSBWSIZE_SIZE 1) 4
     s.on (fSBWCFG_EN n.val) = false ∧
     s.winFits n.val = true) ∧
    (let n : Fin 3 := 1
     let s : State := up .cell
     s.on (fSBWCFG_EN n.val) = false ∧
     s.winFits n.val = false) := by
  refine ⟨?_, ?_, ?_, ?_⟩ <;> decide +kernel

/-- What the hypotheses of MemoryAndInterruptControl are met by (ControllersAndGuard), clause by clause. -/
theorem witness_ControllersAndGuard :
    (let k : Fin 4 := 3
     let i : Fin 32 := 0
     let v : Word := 1
     let s : State := up .cell
     let s : State := { s with slp := { s.slp with st := .run } }
     let n := 32 * k.val + i.val
     s.worldOf .decani n = .nave ∧
     s.routeOf n = .decani ∧
     s.slp.st = .run ∧
     s.fld fCANTSTAT_STATE ≠ 4 ∧
     v = 1 <<< i.val) ∧
    (let k : Fin 4 := 0
     let i : Fin 32 := 8
     let v : Word := 0x100
     let s : State := up .cell
     let s : State := { s with slp := { s.slp with st := .run } }
     let n := 32 * k.val + i.val
     s.worldOf .decani n = .sacristy ∧
     v = 1 <<< i.val ∧
     s.slp.st = .run ∧
     s.fld fCANTSTAT_STATE ≠ 4) ∧
    (let m := 5
     let b := true
     let s : State := up .cell
     let s : State := { s with dec := { s.dec with heldRoute := [(5, true)] } }
     s.dec.heldRoute.find? (fun p => p.1 = m) = some (m, b) ∧
     m ≠ 8 ∧
     m ≠ 9 ∧
     m < 64 ∧
     s.routeOf m = .decani ∧
     b = true ∧
     s.dec.active.contains m = false ∧
     s.intPending .decani m = false) ∧
    (let s : State := up .cell
     let s : State := { s with dec := { s.dec with sbuf := [] } }
     s.dec.sbuf = []) := by
  refine ⟨?_, ?_, ?_, ?_⟩ <;> decide +kernel

/-- What the hypotheses of RegisterWrites are met by, clause by clause. -/
theorem witness_RegisterWrites :
    (let s : State := up .cell
     let s : State := { s with st := { s.st with running := false } }
     s.st.running = false) ∧
    (let v : Word := 0xF
     let s : State := up .cell
     let s : State := { s with st := { s.st with running := false } }
     let s : State := { s with sac := { s.sac with vDropped := 0 } }
     s.st.running = false ∧
     v.toNat ≠ (s.reg rMRSEGSAC).toNat ∧
     s.sac.vq.length < 15 ∧
     s.sac.vDropped = 0) := by
  refine ⟨?_, ?_⟩ <;> decide +kernel

/-- What the hypotheses of CurrentLoop are met by (LoopDescriptors), clause by clause. -/
theorem witness_LoopDescriptors :
    (let d : Desc := ds 0 []
     let s : State := up .loop
     let s : State := { s with role := .loop }
     let s : State := s.setFld fSACCLAIM_CLAIM 0
     s.ready d = true ∧
     s.role = .loop ∧
     s.fld fSACCLAIM_CLAIM = 0) ∧
    (let d : Desc := ds 0 []
     let s : State := up .loop
     let s : State := s.setFld fLOOPCTL_EN 1
     let s : State := { s with role := .loop }
     let s : State := s.setFld fSACCLAIM_CLAIM 0
     let s : State := s.setFld fLOOPCTL_EN 1
     let s : State := s.setFld fLOOPCTL_FAULT 0
     let s : State := { s with loop := { s.loop with srcBad := false } }
     let s : State := s.setFld fLOOPSTAT_MISMATCH 0
     let s : State := { s.setFld fCLKSTAT_FORCED 0 with loop := { s.loop with forced120 := false } }
     let s : State := { s with loop := { s.loop with calHold := none } }
     let calm := s.on fLOOPCTL_EN = true ∧ s.on fLOOPCTL_FAULT = false ∧ s.loop.srcBad = false ∧ s.on fLOOPSTAT_MISMATCH = false ∧
       s.loopForced = false
     s.ready d = true ∧
     s.role = .loop ∧
     s.fld fSACCLAIM_CLAIM = 0 ∧
     calm ∧
     s.loop.calHold = none) ∧
    (let d : Desc := ds 0 []
     let s : State := up .loop
     let s : State := { s with role := .loop }
     let s : State := s.setFld fSACCLAIM_CLAIM 0
     s.ready d = true ∧
     s.role = .loop ∧
     s.fld fSACCLAIM_CLAIM = 0 ∧
     s.loopForced = true) ∧
    (let d : Desc := ds 0 (args [(0, 1, 15), (2, 2, 4095)])
     let s : State := up .loop
     let s : State := { s with role := .loop }
     let s : State := s.setFld fSACCLAIM_CLAIM 0
     s.ready d = true ∧
     s.role = .loop ∧
     s.fld fSACCLAIM_CLAIM = 0 ∧
     dsArg d 0 < 16 ∧
     dsArgs d 2 2 < 4096) ∧
    (let d : Desc := ds 0 (args [(0, 1, 16)])
     let s : State := up .loop
     let s : State := { s with role := .loop }
     let s : State := s.setFld fSACCLAIM_CLAIM 0
     s.ready d = true ∧
     s.role = .loop ∧
     s.fld fSACCLAIM_CLAIM = 0 ∧
     16 ≤ dsArg d 0) ∧
    (let d : Desc := ds 0 (args [(0, 1, 8), (4, 4, 3)])
     let s : State := up .loop
     let s : State := { s with role := .loop }
     let s : State := s.setFld fSACCLAIM_CLAIM 0
     s.ready d = true ∧
     s.role = .loop ∧
     s.fld fSACCLAIM_CLAIM = 0 ∧
     dsArg d 0 = 8 ∧
     signed 32 (dsArgs d 4 4) ≠ signed 32 (dsArgs d 8 4) ∧
     s.cfgBusy = false) ∧
    (let d : Desc := ds 0 (args [(0, 1, 7)])
     let s : State := up .loop
     let s : State := { s with role := .loop }
     let s : State := s.setFld fSACCLAIM_CLAIM 0
     s.ready d = true ∧
     s.role = .loop ∧
     s.fld fSACCLAIM_CLAIM = 0 ∧
     dsArg d 0 = 7) ∧
    (let d : Desc := ds 0 []
     let s : State := up .loop
     let s : State := s.setFld fLOOPCTL_EN 1
     let s : State := { s with role := .loop }
     let s : State := s.setFld fSACCLAIM_CLAIM 0
     let s : State := s.setFld fLOOPCTL_EN 1
     let s : State := s.setFld fLOOPCTL_FAULT 0
     let s : State := { s with loop := { s.loop with srcBad := false } }
     let s : State := s.setFld fLOOPSTAT_MISMATCH 0
     let s : State := { s.setFld fCLKSTAT_FORCED 0 with loop := { s.loop with forced120 := false } }
     let calm := s.on fLOOPCTL_EN = true ∧ s.on fLOOPCTL_FAULT = false ∧ s.loop.srcBad = false ∧ s.on fLOOPSTAT_MISMATCH = false ∧
       s.loopForced = false
     s.ready d = true ∧
     s.role = .loop ∧
     s.fld fSACCLAIM_CLAIM = 0 ∧
     calm) ∧
    (let d : Desc := ds 0 []
     let s : State := up .loop
     let s : State := s.setFld fLOOPCTL_EN 1
     let s : State := { s with role := .loop }
     let s : State := s.setFld fSACCLAIM_CLAIM 0
     let s : State := s.setFld fLOOPCTL_EN 1
     let s : State := s.setFld fLOOPCTL_FAULT 0
     let s : State := { s with loop := { s.loop with srcBad := false } }
     let s : State := s.setFld fLOOPSTAT_MISMATCH 0
     let s : State := { s.setFld fCLKSTAT_FORCED 0 with loop := { s.loop with forced120 := false } }
     let calm := s.on fLOOPCTL_EN = true ∧ s.on fLOOPCTL_FAULT = false ∧ s.loop.srcBad = false ∧ s.on fLOOPSTAT_MISMATCH = false ∧
       s.loopForced = false
     s.ready d = true ∧
     s.role = .loop ∧
     s.fld fSACCLAIM_CLAIM = 0 ∧
     calm) ∧
    (let d : Desc := ds 0 (args [(4, 4, 4000000), (8, 4, 20000000)])
     let s : State := up .loop
     let s : State := s.setFld fLOOPCTL_EN 1
     let s : State := (s.setReg rLOOPCALG 0x8000).setReg rLOOPCALO 0
     let s : State := { s with role := .loop }
     let s : State := s.setFld fSACCLAIM_CLAIM 0
     let s : State := s.setFld fLOOPCTL_EN 1
     let s : State := s.setFld fLOOPCTL_FAULT 0
     let s : State := { s with loop := { s.loop with srcBad := false } }
     let s : State := s.setFld fLOOPSTAT_MISMATCH 0
     let s : State := { s.setFld fCLKSTAT_FORCED 0 with loop := { s.loop with forced120 := false } }
     let s : State := s.setFld fLOOPCALG_GAIN 32768
     let s : State := s.setFld fLOOPCALO_OFS 0
     let calm := s.on fLOOPCTL_EN = true ∧ s.on fLOOPCTL_FAULT = false ∧ s.loop.srcBad = false ∧ s.on fLOOPSTAT_MISMATCH = false ∧
       s.loopForced = false
     s.ready d = true ∧
     s.role = .loop ∧
     s.fld fSACCLAIM_CLAIM = 0 ∧
     calm ∧
     s.fld fLOOPCALG_GAIN = 32768 ∧
     s.fld fLOOPCALO_OFS = 0 ∧
     dsArgs d 4 4 = 4000000 ∧
     dsArgs d 8 4 = 20000000 ∧
     s.cfgBusy = false) ∧
    (let d : Desc := ds 0 []
     let s : State := up .loop
     let s : State := { s with role := .loop }
     let s : State := s.setFld fSACCLAIM_CLAIM 0
     s.ready d = true ∧
     s.role = .loop ∧
     s.fld fSACCLAIM_CLAIM = 0 ∧
     signed 32 (dsArgs d 8 4) ≤ signed 32 (dsArgs d 4 4)) := by
  refine ⟨?_, ?_, ?_, ?_, ?_, ?_, ?_, ?_, ?_, ?_, ?_⟩ <;> decide +kernel

/-- What the hypotheses of CurrentLoop are met by (LoopEvents), clause by clause. -/
theorem witness_LoopEvents :
    (let s : State := (up .loop).setFld fLOOPCTL_EN 1
     let s : State := { s with role := .loop }
     let s : State := { s.setFld fCLKSTAT_FORCED 0 with loop := { s.loop with forced120 := false } }
     let s : State := s.setFld fLOOPCTL_EN 1
     s.role = .loop ∧
     s.inSlice 48 49 = false ∧
     s.loopForced = false ∧
     s.on fLOOPCTL_EN = true) ∧
    (let s : State := (up .loop).setFld fLOOPCTL_EN 1
     let s : State := { s with role := .loop }
     let s : State := { s.setFld fCLKSTAT_FORCED 0 with loop := { s.loop with forced120 := false } }
     let s : State := s.setFld fLOOPCTL_EN 1
     let s : State := { s with loop := { s.loop with calHold := none } }
     let s : State := { s with loop := { s.loop with mapSrc := 0xFF } }
     s.role = .loop ∧
     s.inSlice 48 49 = false ∧
     s.loopForced = false ∧
     s.on fLOOPCTL_EN = true ∧
     s.loop.calHold = none ∧
     s.loop.mapSrc = 0xFF) ∧
    (let c := 500
     let s : State := (up .loop).setFld fLOOPCTL_EN 1
     let s : State := { s with role := .loop }
     let s : State := { s.setFld fCLKSTAT_FORCED 0 with loop := { s.loop with forced120 := false } }
     let s : State := s.setFld fLOOPCTL_EN 1
     let s : State := { s with loop := { s.loop with calHold := some c } }
     s.role = .loop ∧
     s.inSlice 48 49 = false ∧
     s.loopForced = false ∧
     s.on fLOOPCTL_EN = true ∧
     s.loop.calHold = some c ∧
     s.loopFaulted = false) ∧
    (let m : Nat := 65535
     let s : State := (up .loop).setFld fLOOPCTL_EN 1
     let s : State := s.setFld fLOOPNOW_CODE 65535
     let s : State := { s with role := .loop }
     let s : State := { s.setFld fCLKSTAT_FORCED 0 with loop := { s.loop with forced120 := false } }
     let s : State := s.setFld fLOOPCTL_EN 1
     s.role = .loop ∧
     s.inSlice 48 49 = false ∧
     s.loopForced = false ∧
     s.on fLOOPCTL_EN = true ∧
     m < 65536 ∧
     (m : Int) - s.fld fLOOPNOW_CODE = 0 ∧
     s.loop.okRun < 99) ∧
    (let m : Nat := 0
     let s : State := (up .loop).setFld fLOOPCTL_EN 1
     let s : State := s.setFld fLOOPNOW_CODE 20000
     let s : State := { s with role := .loop }
     let s : State := { s.setFld fCLKSTAT_FORCED 0 with loop := { s.loop with forced120 := false } }
     let s : State := s.setFld fLOOPCTL_EN 1
     let s : State := { s with loop := { s.loop with badRun := 9 } }
     let s : State := s.setFld fLOOPSTAT_MISMATCH 0
     s.role = .loop ∧
     s.inSlice 48 49 = false ∧
     s.loopForced = false ∧
     s.on fLOOPCTL_EN = true ∧
     m < 65536 ∧
     s.fld fLOOPNOW_CODE + 12800 < (s.fld fLOOPNOW_CODE - m) * 100 ∧
     s.loop.badRun = 9 ∧
     s.on fLOOPSTAT_MISMATCH = false) := by
  refine ⟨?_, ?_, ?_, ?_, ?_⟩ <;> decide +kernel

/-- What the hypotheses of FrontEnd are met by (FrontEndDescriptors), clause by clause. -/
theorem witness_FrontEndDescriptors :
    (let d : Desc := ds 0 []
     let s : State := up .cell
     let s : State := { s with role := .cell }
     let s : State := s.setFld fSACCLAIM_CLAIM 0
     let s : State := { s with sfe := { s.sfe with held := false } }
     let s : State := s.setFld fSFETH_ARM 0
     s.ready d = true ∧
     (s.role = .cell ∨ s.role = .loop) ∧
     s.fld fSACCLAIM_CLAIM = 0 ∧
     s.awake = true ∧
     s.sfe.held = false ∧
     s.on fSFETH_ARM = false) ∧
    (let d : Desc := ds 0 []
     let s : State := up .cell
     let s : State := { s with role := .cell }
     let s : State := s.setFld fSACCLAIM_CLAIM 0
     let s : State := { s with sfe := { s.sfe with held := false } }
     let s : State := s.setFld fSFETH_ARM 0
     let s : State := s.setFld fSFECTL_EN 1
     s.ready d = true ∧
     (s.role = .cell ∨ s.role = .loop) ∧
     s.fld fSACCLAIM_CLAIM = 0 ∧
     s.awake = true ∧
     s.sfe.held = false ∧
     s.on fSFETH_ARM = false ∧
     s.on fSFECTL_EN = true) ∧
    (let d : Desc := ds 0 []
     let s : State := up .cell
     let s : State := { s with role := .cell }
     let s : State := s.setFld fSACCLAIM_CLAIM 0
     let s : State := { s with sfe := { s.sfe with held := false } }
     let s : State := s.setFld fSFETH_ARM 0
     let s : State := s.setFld fSFECTL_EN 0
     let s : State := s.setFld fSFEEXC_EN 0
     s.ready d = true ∧
     (s.role = .cell ∨ s.role = .loop) ∧
     s.fld fSACCLAIM_CLAIM = 0 ∧
     s.awake = true ∧
     s.sfe.held = false ∧
     s.on fSFETH_ARM = false ∧
     s.on fSFECTL_EN = false ∧
     s.on fSFEEXC_EN = false) ∧
    (let d : Desc := ds 0 []
     let s : State := up .cell
     let s : State := { s with role := .cell }
     let s : State := s.setFld fSACCLAIM_CLAIM 0
     let s : State := { s with sfe := { s.sfe with held := false } }
     let s : State := s.setFld fSFETH_ARM 0
     let s : State := s.setFld fCLKSTAT_PLLLOCK 0
     s.ready d = true ∧
     (s.role = .cell ∨ s.role = .loop) ∧
     s.fld fSACCLAIM_CLAIM = 0 ∧
     s.awake = true ∧
     s.sfe.held = false ∧
     s.on fSFETH_ARM = false ∧
     s.on fCLKSTAT_PLLLOCK = false) ∧
    (let d : Desc := ds 0 (args [(6, 1, 0)])
     let s : State := up .cell
     let s : State := s.setFld fSFERATE_N 96
     let s : State := { s with role := .cell }
     let s : State := s.setFld fSACCLAIM_CLAIM 0
     let s : State := { s with sfe := { s.sfe with held := false } }
     let s : State := s.setFld fSFETH_ARM 0
     let s : State := s.setFld fCLKSTAT_PLLLOCK 1
     let s : State := { s with clk := { s.clk with spireHeld := false } }
     let s : State := s.setFld fSFECTL_EN 0
     let s : State := s.setFld fSFECTL_TRIG 0
     let s : State := s.setFld fSFEEXC_EN 0
     let s : State := { s with sfe := { s.sfe with vex := false } }
     let s : State := s.setFld fSFESTAT_SCANBUSY 0
     s.ready d = true ∧
     (s.role = .cell ∨ s.role = .loop) ∧
     s.fld fSACCLAIM_CLAIM = 0 ∧
     s.awake = true ∧
     s.sfe.held = false ∧
     s.on fSFETH_ARM = false ∧
     s.on fCLKSTAT_PLLLOCK = true ∧
     s.clk.spireHeld = false ∧
     s.on fSFECTL_EN = false ∧
     s.fld fSFECTL_TRIG = 0 ∧
     96 ≤ s.fld fSFERATE_N ∧
     s.on fSFEEXC_EN = false ∧
     s.sfe.vex = false ∧
     s.on fSFESTAT_SCANBUSY = false ∧
     dsArg d 6 = 0) ∧
    (let d : Desc := ds 0 []
     let s : State := up .cell
     let s : State := { s with role := .cell }
     let s : State := s.setFld fSACCLAIM_CLAIM 0
     let s : State := { s with sfe := { s.sfe with held := false } }
     let s : State := s.setFld fSFETH_ARM 0
     let s : State := s.setFld fSFECTL_EN 1
     s.ready d = true ∧
     (s.role = .cell ∨ s.role = .loop) ∧
     s.fld fSACCLAIM_CLAIM = 0 ∧
     s.awake = true ∧
     s.sfe.held = false ∧
     s.on fSFETH_ARM = false ∧
     s.on fSFECTL_EN = true) ∧
    (let d : Desc := ds 0 (args [(0, 1, 1), (1, 2, 1023), (3, 2, 1023)])
     let s : State := up .cell
     let s : State := { s with role := .cell }
     let s : State := s.setFld fSACCLAIM_CLAIM 0
     let s : State := { s with sfe := { s.sfe with held := false } }
     let s : State := s.setFld fSFETH_ARM 0
     let s : State := s.setFld fSFEEXC_EN 0
     let s : State := s.setFld fPWRCFG_EXC 0
     s.ready d = true ∧
     (s.role = .cell ∨ s.role = .loop) ∧
     s.fld fSACCLAIM_CLAIM = 0 ∧
     s.awake = true ∧
     s.sfe.held = false ∧
     s.on fSFETH_ARM = false ∧
     dsArg d 0 = 1 ∧
     dsArgs d 1 2 < 1024 ∧
     dsArgs d 3 2 < 1024 ∧
     s.on fSFEEXC_EN = false ∧
     s.fld fPWRCFG_EXC = 0) ∧
    (let d : Desc := ds 0 (args [(0, 1, 8)])
     let s : State := up .cell
     let s : State := { s with role := .cell }
     let s : State := s.setFld fSACCLAIM_CLAIM 0
     let s : State := { s with sfe := { s.sfe with held := false } }
     let s : State := s.setFld fSFETH_ARM 0
     s.ready d = true ∧
     (s.role = .cell ∨ s.role = .loop) ∧
     s.fld fSACCLAIM_CLAIM = 0 ∧
     s.awake = true ∧
     s.sfe.held = false ∧
     s.on fSFETH_ARM = false ∧
     8 ≤ dsArg d 0) ∧
    (let d : Desc := ds 0 []
     let s : State := up .cell
     let s : State := { s with role := .cell }
     let s : State := s.setFld fSACCLAIM_CLAIM 0
     let s : State := { s with sfe := { s.sfe with held := false } }
     let s : State := s.setFld fSFETH_ARM 0
     s.ready d = true ∧
     (s.role = .cell ∨ s.role = .loop) ∧
     s.fld fSACCLAIM_CLAIM = 0 ∧
     s.awake = true ∧
     s.sfe.held = false ∧
     s.on fSFETH_ARM = false ∧
     (∀ j < 7, (s.reg (rSFELAST j)).getLsbD 31 = false)) ∧
    (let d : Desc := ds 0 (args [(0, 1, 1)])
     let avg : List Int := ([5] : List Int)
     let s : State := up .cell
     let s : State := { s with role := .cell }
     let s : State := s.setFld fSACCLAIM_CLAIM 0
     let s : State := { s with sfe := { s.sfe with held := false } }
     let s : State := s.setFld fSFETH_ARM 0
     let s : State := s.setFld fCLKSTAT_PLLLOCK 1
     let s : State := s.setFld fSFECTL_EN 0
     s.ready d = true ∧
     (s.role = .cell ∨ s.role = .loop) ∧
     s.fld fSACCLAIM_CLAIM = 0 ∧
     s.awake = true ∧
     s.sfe.held = false ∧
     s.on fSFETH_ARM = false ∧
     s.on fCLKSTAT_PLLLOCK = true ∧
     s.on fSFECTL_EN = false ∧
     dsArg d 0 = 1 ∧
     avg = [5]) := by
  refine ⟨?_, ?_, ?_, ?_, ?_, ?_, ?_, ?_, ?_, ?_⟩ <;> decide +kernel

/-- What the hypotheses of FrontEnd are met by (FrontEndEvents), clause by clause. -/
theorem witness_FrontEndEvents :
    (let s : State := up .cell
     let s : State := { s with clk := { s.clk with spireHeld := false } }
     let s : State := s.setFld fCLKSTAT_PLLLOCK 1
     s.awake = true ∧
     s.clk.spireHeld = false ∧
     s.on fCLKSTAT_PLLLOCK = true) ∧
    (let s : State := up .cell
     let s : State := { s with clk := { s.clk with spireHeld := false } }
     let s : State := s.setFld fCLKSTAT_PLLLOCK 1
     let s : State := s.setFld fSFECTL_EN 1
     let s : State := { s with sfe := { s.sfe with held := false } }
     let s : State := { s with sfe := { s.sfe with vex := false } }
     let s : State := s.setFld fSFEEXC_EN 0
     let s : State := s.setFld fSFESTAT_SCANBUSY 0
     let s : State := s.setFld fSFECTL_TRIG 0
     let idle := s.on fSFECTL_EN = true ∧ s.sfe.held = false ∧ s.sfe.vex = false ∧ s.on fSFEEXC_EN = false ∧ s.on fSFESTAT_SCANBUSY = false
     s.awake = true ∧
     s.clk.spireHeld = false ∧
     s.on fCLKSTAT_PLLLOCK = true ∧
     idle ∧
     s.fld fSFECTL_TRIG = 0) ∧
    (let v : Word := 0x10000
     let s : State := up .cell
     let s : State := s.setFld fSFETL_TIME 0xFFFFFFFF
     let s : State := { s with clk := { s.clk with spireHeld := false } }
     let s : State := s.setFld fCLKSTAT_PLLLOCK 1
     let s : State := s.setFld fSFECTL_EN 1
     let s : State := { s with sfe := { s.sfe with held := false } }
     let s : State := { s with sfe := { s.sfe with vex := false } }
     let s : State := s.setFld fSFEEXC_EN 0
     let s : State := s.setFld fSFESTAT_SCANBUSY 0
     let s : State := s.setFld fSFECTL_TRIG 2
     let idle := s.on fSFECTL_EN = true ∧ s.sfe.held = false ∧ s.sfe.vex = false ∧ s.on fSFEEXC_EN = false ∧ s.on fSFESTAT_SCANBUSY = false
     let due := s.fld fSFETL_TIME + v.toNat % 65536 * 2 ^ 32
     s.awake = true ∧
     s.clk.spireHeld = false ∧
     s.on fCLKSTAT_PLLLOCK = true ∧
     idle ∧
     s.fld fSFECTL_TRIG = 2 ∧
     v.toNat / 65536 = 1 ∧
     past due s.now = false) ∧
    (let v : Word := 0x10000
     let s : State := up .cell
     let s : State := { s with clk := { s.clk with line := 2 ^ 40 } }
     let s : State := { s with clk := { s.clk with spireHeld := false } }
     let s : State := s.setFld fCLKSTAT_PLLLOCK 1
     let s : State := s.setFld fSFECTL_EN 1
     let s : State := { s with sfe := { s.sfe with held := false } }
     let s : State := { s with sfe := { s.sfe with vex := false } }
     let s : State := s.setFld fSFEEXC_EN 0
     let s : State := s.setFld fSFESTAT_SCANBUSY 0
     let s : State := s.setFld fSFECTL_TRIG 2
     let s : State := s.setFld fSFECTL_LATEDROP 1
     let idle := s.on fSFECTL_EN = true ∧ s.sfe.held = false ∧ s.sfe.vex = false ∧ s.on fSFEEXC_EN = false ∧ s.on fSFESTAT_SCANBUSY = false
     let due := s.fld fSFETL_TIME + v.toNat % 65536 * 2 ^ 32
     s.awake = true ∧
     s.clk.spireHeld = false ∧
     s.on fCLKSTAT_PLLLOCK = true ∧
     idle ∧
     s.fld fSFECTL_TRIG = 2 ∧
     v.toNat / 65536 = 1 ∧
     past due s.now = true ∧
     s.on fSFECTL_LATEDROP = true) ∧
    (let s : State := up .cell
     let s : State := { s with clk := { s.clk with spireHeld := false } }
     let s : State := s.setFld fCLKSTAT_PLLLOCK 1
     let s : State := s.setFld fSFECTL_EN 1
     let s : State := { s with sfe := { s.sfe with held := false } }
     let s : State := { s with sfe := { s.sfe with vex := false } }
     let s : State := s.setFld fSFEEXC_EN 0
     let s : State := s.setFld fSFESTAT_SCANBUSY 0
     let s : State := s.setFld fSFECTL_TRIG 2
     let s : State := s.setFld fSFETH_ARM 1
     let s : State := { s with sfe := { s.sfe with due := s.now } }
     let idle := s.on fSFECTL_EN = true ∧ s.sfe.held = false ∧ s.sfe.vex = false ∧ s.on fSFEEXC_EN = false ∧ s.on fSFESTAT_SCANBUSY = false
     s.awake = true ∧
     s.clk.spireHeld = false ∧
     s.on fCLKSTAT_PLLLOCK = true ∧
     idle ∧
     s.fld fSFECTL_TRIG = 2 ∧
     s.on fSFETH_ARM = true ∧
     s.sfe.due = s.now) ∧
    (let x : SfeSample := ⟨1000, false, false, false⟩
     let s : State := up .cell
     let s : State := { s with clk := { s.clk with spireHeld := false } }
     let s : State := s.setFld fCLKSTAT_PLLLOCK 1
     let s : State := s.setFld fSFECTL_EN 1
     let s : State := s.setFld fSFESTAT_RUN 1
     let s : State := s.setFld fSFESTAT_HELD 0
     let s : State := s.setFld fSFECTL_MODE 0
     let s : State := { s with sfe := { s.sfe with cfg := (s.reg (rSFESLOT 0)).toNat } }
     let s : State := s.setFld (fSBWCFG_EN 1) 0
     let s : State := { s with sfe := { s.sfe with susp := false } }
     let s : State := { s with sfe := { s.sfe with cond := 0 } }
     let s : State := { s with sfe := { s.sfe with settling := false } }
     let s : State := s.setFld fPWRSRC_VDDAOK 1
     let s : State := s.setFld (fSFEOFS_OFS 0) 0
     let s : State := { s with sfe := { s.sfe with cfg := 0 } }
     let s : State := { s with sfe := { s.sfe with unset := 0 } }
     s.awake = true ∧
     s.clk.spireHeld = false ∧
     s.on fCLKSTAT_PLLLOCK = true ∧
     s.on fSFECTL_EN = true ∧
     s.on fSFESTAT_RUN = true ∧
     s.on fSFESTAT_HELD = false ∧
     s.on fSFECTL_MODE = false ∧
     s.role ≠ .loop ∧
     s.sfe.cfg = (s.reg (rSFESLOT 0)).toNat ∧
     s.on (fSBWCFG_EN 1) = false ∧
     s.sfe.susp = false ∧
     s.sfe.cond = 0 ∧
     s.sfe.settling = false ∧
     s.on fPWRSRC_VDDAOK = true ∧
     x = ⟨1000, false, false, false⟩ ∧
     s.fld (fSFEOFS_OFS 0) = 0 ∧
     s.sfe.cfg = 0 ∧
     s.sfe.unset = 0) ∧
    (let x : SfeSample := ⟨1000, false, false, false⟩
     let s : State := up .cell
     let s : State := { s with sfe := { s.sfe with unset := 1 } }
     let s : State := { s with clk := { s.clk with spireHeld := false } }
     let s : State := s.setFld fCLKSTAT_PLLLOCK 1
     let s : State := s.setFld fSFECTL_EN 1
     let s : State := s.setFld fSFESTAT_RUN 1
     let s : State := s.setFld fSFESTAT_HELD 0
     let s : State := s.setFld fSFECTL_MODE 0
     let s : State := { s with sfe := { s.sfe with cfg := (s.reg (rSFESLOT 0)).toNat } }
     let s : State := s.setFld (fSBWCFG_EN 1) 0
     let s : State := { s with sfe := { s.sfe with susp := false } }
     let s : State := { s with sfe := { s.sfe with cond := 0 } }
     let s : State := { s with sfe := { s.sfe with settling := false } }
     let s : State := s.setFld fPWRSRC_VDDAOK 1
     let s : State := s.setFld (fSFEOFS_OFS 0) 0
     let s : State := { s with sfe := { s.sfe with cfg := 0 } }
     s.awake = true ∧
     s.clk.spireHeld = false ∧
     s.on fCLKSTAT_PLLLOCK = true ∧
     s.on fSFECTL_EN = true ∧
     s.on fSFESTAT_RUN = true ∧
     s.on fSFESTAT_HELD = false ∧
     s.on fSFECTL_MODE = false ∧
     s.role ≠ .loop ∧
     s.sfe.cfg = (s.reg (rSFESLOT 0)).toNat ∧
     s.on (fSBWCFG_EN 1) = false ∧
     s.sfe.susp = false ∧
     s.sfe.cond = 0 ∧
     s.sfe.settling = false ∧
     s.on fPWRSRC_VDDAOK = true ∧
     x = ⟨1000, false, false, false⟩ ∧
     s.fld (fSFEOFS_OFS 0) = 0 ∧
     s.sfe.cfg = 0 ∧
     0 < s.sfe.unset) ∧
    (let s : State := up .cell
     let s : State := { s with clk := { s.clk with spireHeld := false } }
     let s : State := s.setFld fCLKSTAT_PLLLOCK 1
     let s : State := { s with sfe := { s.sfe with vex := true } }
     let s : State := { s with sfe := { s.sfe with settling := true } }
     let s : State := { s with sfe := { s.sfe with held := false } }
     let s : State := { s with sfe := { s.sfe with desc := none } }
     s.awake = true ∧
     s.clk.spireHeld = false ∧
     s.on fCLKSTAT_PLLLOCK = true ∧
     s.sfe.vex = true ∧
     s.sfe.settling = true ∧
     s.sfe.held = false ∧
     s.sfe.desc = none) ∧
    (let d := ds 0x40 []
     let s : State := up .cell
     let s : State := { s with clk := { s.clk with spireHeld := false } }
     let s : State := s.setFld fCLKSTAT_PLLLOCK 1
     let s : State := { s with sfe := { s.sfe with vex := true } }
     let s : State := { s with sfe := { s.sfe with settling := true } }
     let s : State := { s with sfe := { s.sfe with held := false } }
     let s : State := { s with sfe := { s.sfe with desc := some d } }
     s.awake = true ∧
     s.clk.spireHeld = false ∧
     s.on fCLKSTAT_PLLLOCK = true ∧
     s.sfe.vex = true ∧
     s.sfe.settling = true ∧
     s.sfe.held = false ∧
     s.sfe.desc = some d) ∧
    (let i : Nat := 1023
     let e : Nat := 4095
     let s : State := up .cell
     let s : State := { s with clk := { s.clk with spireHeld := false } }
     let s : State := s.setFld fCLKSTAT_PLLLOCK 1
     let s : State := { s with sfe := { s.sfe with vex := true } }
     let s : State := { s with sfe := { s.sfe with settling := true } }
     let s : State := { s with sfe := { s.sfe with held := false } }
     s.awake = true ∧
     s.clk.spireHeld = false ∧
     s.on fCLKSTAT_PLLLOCK = true ∧
     s.sfe.vex = true ∧
     s.sfe.settling = true ∧
     s.sfe.held = false ∧
     i < 1024 ∧
     e < 4096) ∧
    (let s : State := up .cell
     let s : State := { s with clk := { s.clk with spireHeld := false } }
     let s : State := s.setFld fCLKSTAT_PLLLOCK 1
     let s : State := { s with sfe := { s.sfe with vex := true } }
     let s : State := { s with sfe := { s.sfe with desc := none } }
     s.awake = true ∧
     s.clk.spireHeld = false ∧
     s.on fCLKSTAT_PLLLOCK = true ∧
     s.sfe.vex = true ∧
     s.sfe.desc = none) ∧
    (let s : State := up .cell
     let s : State := { s with clk := { s.clk with spireHeld := false } }
     let s : State := s.setFld fCLKSTAT_PLLLOCK 1
     let s : State := s.setFld fSFEEXC_EN 1
     let s : State := s.setFld fSFEEXC_PULSE 1
     let s : State := { s with sfe := { s.sfe with vex := false } }
     let s : State := s.setFld fSFECTL_EN 1
     let s : State := s.setFld fSFETH_ARM 1
     let s : State := s.setFld fSFECTL_TRIG 2
     s.awake = true ∧
     s.clk.spireHeld = false ∧
     s.on fCLKSTAT_PLLLOCK = true ∧
     s.on fSFEEXC_EN = true ∧
     s.on fSFEEXC_PULSE = true ∧
     s.sfe.vex = false ∧
     s.on fSFECTL_EN = true ∧
     s.on fSFETH_ARM = true ∧
     s.fld fSFECTL_TRIG = 2) ∧
    (let s : State := up .cell
     let s : State := { s with clk := { s.clk with spireHeld := false } }
     let s : State := s.setFld fCLKSTAT_PLLLOCK 1
     let s : State := s.setFld fSFESTAT_RUN 1
     let s : State := s.setFld fSFESTAT_SCANBUSY 0
     s.awake = true ∧
     s.clk.spireHeld = false ∧
     s.on fCLKSTAT_PLLLOCK = true ∧
     s.on fSFESTAT_RUN = true ∧
     s.on fSFESTAT_SCANBUSY = false) := by
  refine ⟨?_, ?_, ?_, ?_, ?_, ?_, ?_, ?_, ?_, ?_, ?_, ?_, ?_⟩ <;> decide +kernel

/-- What the hypotheses of Boot are met by (BootEvents), clause by clause. -/
theorem witness_BootEvents :
    (let s : State := State.reset
     let s : State := { s with latched := true, pwr := { s.pwr with fed := true } }
     let s : State := { s with rst := { s.rst with hold := true } }
     let s : State := { s with rst := { s.rst with stopped := false } }
     let s : State := { s with latched := true }
     let s : State := { s with pwr := { s.pwr with fed := true } }
     let s : State := { s with slp := { s.slp with st := .run } }
     s.rst.hold = true ∧
     s.rst.stopped = false ∧
     s.latched = true ∧
     s.pwr.fed = true ∧
     s.slp.st = .run ∧
     s.rst.copyA.valid = false ∧
     s.rst.copyB.valid = false) ∧
    (let s : State := up .cell
     let s : State := { s with rst := { s.rst with stopped := true } }
     s.rst.stopped = true) ∧
    (let s : State := up .cell
     let s : State := { s with rst := { s.rst with booted := true } }
     let s : State := s.setFld fBOOTSTAT_GOOD 0
     s.rst.booted = true ∧
     s.rhocoUp = true ∧
     s.on fBOOTSTAT_GOOD = false) ∧
    (let s : State := up .cell
     let s : State := { s with role := .cell }
     let s : State := s.setFld fLJSTAT_PRESENT 1
     let s : State := { s with rst := { s.rst with booted := true } }
     let s : State := { s with rst := { s.rst with b7Window := true } }
     (s.role = .cell ∨ s.role = .loop) ∧
     s.on fLJSTAT_PRESENT = true ∧
     s.rhocoUp = true ∧
     s.rst.booted = true ∧
     s.rst.b7Window = true) ∧
    (let s : State := up .cell
     let s : State := s.setFld fBOOTSTAT_RECOV 1
     let s : State := { s with rst := { s.rst with hold := false } }
     s.on fBOOTSTAT_RECOV = true ∧
     s.rst.hold = false) ∧
    (let s : State := up .cell
     let s : State := s
     let s : State := s.setFld fBOOTSTAT_RECOV 0
     s.on fBOOTSTAT_RECOV = false) ∧
    (let g := 5
     let s : State := up .cell
     let s : State := { s with rst := { s.rst with hold := true } }
     let s : State := { s with pwr := { s.pwr with grantPend := some g } }
     let s : State := { s with rst := { s.rst with tokWait := none } }
     s.pwr.grantPend = some g ∧
     s.awake = true ∧
     s.rhocoUp = false ∧
     s.rst.tokWait = none) ∧
    (let g := 5
     let s : State := up .cell
     let s : State := { s with pwr := { s.pwr with grantPend := some g } }
     let s : State := { s with rst := { s.rst with autostart := none } }
     let s : State := { s with rst := { s.rst with tokWait := none } }
     s.pwr.grantPend = some g ∧
     s.awake = true ∧
     s.rst.autostart = none ∧
     s.rst.tokWait = none) := by
  refine ⟨?_, ?_, ?_, ?_, ?_, ?_, ?_, ?_⟩ <;> decide +kernel

/-- What the hypotheses of Boot are met by (BootDescriptors), clause by clause. -/
theorem witness_BootDescriptors :
    (let d : Desc := ds 0 []
     let s : State := up .cell
     s.ready d = true) ∧
    (let d : Desc := ds 0 []
     let k := 3
     let s : State := up .cell
     let s : State := { s with rst := { s.rst with marked := some 3 } }
     s.ready d = true ∧
     s.markedSlot = some k) ∧
    (let d : Desc := { ds 0 [] with path := .walk }
     let s : State := up .cell
     let s : State := { s with rst := { s.rst with resetDue := false } }
     s.ready d = true ∧
     d.path = .walk ∧
     s.role ≠ .chapter ∧
     s.earlierWaits d = false ∧
     s.rst.resetDue = false) ∧
    (let d : Desc := { ds 0 [] with path := .lane 3 }
     let s : State := up .cell
     let s : State := { s with role := .chapter }
     let s : State := { s with rst := { s.rst with resetDue := false } }
     s.ready d = true ∧
     s.role = .chapter ∧
     d.path ≠ .lectern ∧
     s.earlierWaits d = false ∧
     s.rst.resetDue = false) ∧
    (let d : Desc := ds 0 []
     let s : State := up .cell
     let s : State := { s with node := { s.node with inbox := [{ ds 0 [] with path := .walk }] } }
     s.ready d = true ∧
     s.earlierWaits d = true) := by
  refine ⟨?_, ?_, ?_, ?_, ?_⟩ <;> decide +kernel

/-- What the hypotheses of LineTime are met by, clause by clause. -/
theorem witness_LineTime :
    (let s : State := up .cell
     s.awake = true ∧
     s.clk.line < 2 ^ 48 ∧
     s.untimed = true) ∧
    (let s : State := up .cell
     let s : State := s.setFld fRTCSTAT_SETPEND 0
     let s : State := s.setFld fCLKSTAT_XTALOK 1
     let calm := s.on fRTCSTAT_SETPEND = false
     s.awake = true ∧
     s.clk.line < 2 ^ 48 ∧
     s.untimed = true ∧
     calm ∧
     s.on fCLKSTAT_XTALOK = true) ∧
    (let s : State := up .cell
     let s : State := s.setFld fRTCSTAT_SETPEND 0
     let s : State := s.setFld fCLKSTAT_XTALOK 0
     let s : State := s.setFld fCLKRCCAL_VALID 1
     let s : State := s.setFld fCLKRCCAL_COUNT 65536
     let s : State := { s with clk := { s.clk with hacc := 0 } }
     let calm := s.on fRTCSTAT_SETPEND = false
     s.awake = true ∧
     s.clk.line < 2 ^ 48 ∧
     s.untimed = true ∧
     calm ∧
     s.on fCLKSTAT_XTALOK = false ∧
     s.on fCLKRCCAL_VALID = true ∧
     s.fld fCLKRCCAL_COUNT = 65536 ∧
     s.clk.hacc = 0) ∧
    (let s : State := up .cell
     let s : State := s.setFld fRTCSTAT_SETPEND 0
     let s : State := s.setFld fCLKSTAT_XTALOK 0
     let s : State := s.setFld fCLKRCCAL_VALID 0
     let s : State := { s with clk := { s.clk with hacc := 0 } }
     let calm := s.on fRTCSTAT_SETPEND = false
     s.awake = true ∧
     s.clk.line < 2 ^ 48 ∧
     s.untimed = true ∧
     calm ∧
     s.on fCLKSTAT_XTALOK = false ∧
     s.on fCLKRCCAL_VALID = false ∧
     s.clk.hacc = 0) ∧
    (let s : State := up .cell
     let s : State := s.setFld fLPSTAT_TRACK 1
     s.awake = true ∧
     s.clk.line < 2 ^ 48 ∧
     s.untimed = true ∧
     s.on fLPSTAT_TRACK = true) ∧
    (let s : State := up .cell
     let s : State := s.setFld fLPSTAT_TRACK 0
     s.awake = true ∧
     s.clk.line < 2 ^ 48 ∧
     s.untimed = true ∧
     s.on fLPSTAT_TRACK = false) ∧
    (let s : State := up .cell
     let s : State := s.setFld fRTCSTAT_SETPEND 1
     let s : State := s.setFld fLPSTAT_TRACK 0
     s.awake = true ∧
     s.clk.line < 2 ^ 48 ∧
     s.untimed = true ∧
     s.on fRTCSTAT_SETPEND = true ∧
     s.on fLPSTAT_TRACK = false) ∧
    (let s : State := up .cell
     let s : State := s.setFld fRTCSTAT_SETPEND 1
     let s : State := s.setFld fLPSTAT_TRACK 1
     s.awake = true ∧
     s.clk.line < 2 ^ 48 ∧
     s.untimed = true ∧
     s.on fRTCSTAT_SETPEND = true ∧
     s.on fLPSTAT_TRACK = true) ∧
    (let s : State := up .cell
     let s : State := s.setFld fCLKSTAT_XTALOK 0
     s.awake = true ∧
     s.clk.line < 2 ^ 48 ∧
     s.untimed = true ∧
     s.on fCLKSTAT_XTALOK = false ∧
     s.role ≠ .chapter) ∧
    (let s : State := up .cell
     let s : State := s
     let s : State := s.setFld fCLKSTAT_XTALOK 0
     let s : State := { s with role := .chapter }
     let s : State := { s with rst := { s.rst with booted := true } }
     let s : State := { s with st := { s.st with running := false } }
     s.awake = true ∧
     s.clk.line < 2 ^ 48 ∧
     s.untimed = true ∧
     s.on fCLKSTAT_XTALOK = false ∧
     s.role = .chapter ∧
     s.rst.booted = true ∧
     s.rhocoUp = true ∧
     s.st.running = false) ∧
    (let s : State := up .cell
     let s : State := s.setFld fCLKSTAT_XTALOK 1
     s.awake = true ∧
     s.clk.line < 2 ^ 48 ∧
     s.untimed = true ∧
     s.on fCLKSTAT_XTALOK = true) ∧
    (let s : State := up .cell
     let s : State := s.setFld fCLKSTAT_XTALOK 0
     s.awake = true ∧
     s.clk.line < 2 ^ 48 ∧
     s.untimed = true ∧
     s.on fCLKSTAT_XTALOK = false) := by
  refine ⟨?_, ?_, ?_, ?_, ?_, ?_, ?_, ?_, ?_, ?_, ?_, ?_⟩ <;> decide +kernel

/-- What the hypotheses of Clocks are met by (ClockSources), clause by clause. -/
theorem witness_ClockSources :
    (let s : State := up .cell
     let s : State := { s with st := { s.st with running := false } }
     s.st.running = false) ∧
    (let s : State := up .cell
     let s : State := { s with st := { s.st with running := false } }
     let s : State := s.setFld fCLKCTL_HFEN 1
     let s : State := { s with clk := { s.clk with stopped := false } }
     s.st.running = false ∧
     s.on fCLKCTL_HFEN = true ∧
     s.clk.stopped = false) ∧
    (let s : State := up .cell
     let s : State := { s with st := { s.st with running := false } }
     let s : State := s.setFld fCLKSTAT_XTALOK 1
     s.st.running = false ∧
     s.on fCLKSTAT_XTALOK = true) ∧
    (let s : State := up .cell
     let s : State := { s with st := { s.st with running := false } }
     let s : State := s.setFld fCLKCTL_PLLEN 0
     let s : State := s.setFld fCLKCTL_HFEN 1
     let s : State := s.setFld fCLKSTAT_XTALOK 1
     s.st.running = false ∧
     s.on fCLKCTL_PLLEN = false ∧
     s.on fCLKCTL_HFEN = true ∧
     s.on fCLKSTAT_XTALOK = true) ∧
    (let s : State := up .cell
     let s : State := { s with st := { s.st with running := false } }
     let s : State := s.setFld fCLKCTL_PLLEN 0
     let s : State := s.setFld fCLKCTL_HFEN 1
     let s : State := s.setFld fCLKSTAT_XTALOK 0
     s.st.running = false ∧
     s.on fCLKCTL_PLLEN = false ∧
     s.on fCLKCTL_HFEN = true ∧
     s.on fCLKSTAT_XTALOK = false) ∧
    (let s : State := up .cell
     let s : State := { s with st := { s.st with running := false } }
     let s : State := s.setFld fCLKCTL_PLLEN 1
     let s : State := s.setFld fCLKSTAT_XTALOK 1
     let s : State := s.setFld fCLKSTAT_PLLLOCK 0
     let s : State := { s with clk := { s.clk with heldSel := none } }
     let s : State := s.setFld fSFESTAT_HELD 0
     let s : State := s.setFld fFONTSTAT_HELD 0
     s.st.running = false ∧
     s.on fCLKCTL_PLLEN = true ∧
     s.on fCLKSTAT_XTALOK = true ∧
     s.on fCLKSTAT_PLLLOCK = false ∧
     s.clk.heldSel = none ∧
     s.on fSFESTAT_HELD = false ∧
     s.on fFONTSTAT_HELD = false ∧
     s.role ≠ .chapter) ∧
    (let s : State := up .cell
     let s : State := { s with st := { s.st with running := false } }
     let s : State := s.setFld fCLKCTL_PLLEN 1
     let s : State := s.setFld fCLKSTAT_XTALOK 1
     let s : State := s.setFld fCLKSTAT_PLLLOCK 0
     let s : State := { s with clk := { s.clk with heldSel := none } }
     let s : State := s.setFld fSFESTAT_HELD 0
     let s : State := s.setFld fFONTSTAT_HELD 0
     let s : State := { s with role := .chapter }
     let s : State := { s with rst := { s.rst with booted := true } }
     let s : State := { s with scr := { s.scr with bells := [] } }
     s.st.running = false ∧
     s.on fCLKCTL_PLLEN = true ∧
     s.on fCLKSTAT_XTALOK = true ∧
     s.on fCLKSTAT_PLLLOCK = false ∧
     s.clk.heldSel = none ∧
     s.on fSFESTAT_HELD = false ∧
     s.on fFONTSTAT_HELD = false ∧
     s.role = .chapter ∧
     s.rst.booted = true ∧
     s.rhocoUp = true ∧
     s.scr.bells = []) ∧
    (let s : State := up .cell
     let s : State := { s with st := { s.st with running := false } }
     let s : State := s.setFld fCLKCTL_PLLEN 1
     let s : State := s.setFld fCLKCTL_HFEN 1
     let s : State := s.setFld fCLKSEL_ROOT 0
     let s : State := s.setFld fCLKSTAT_ROOTNOW 0
     let s : State := { s with clk := { s.clk with heldSel := none } }
     s.st.running = false ∧
     s.on fCLKCTL_PLLEN = true ∧
     s.on fCLKCTL_HFEN = true ∧
     s.on fCLKSEL_ROOT = false ∧
     s.on fCLKSTAT_ROOTNOW = false ∧
     s.clk.heldSel = none ∧
     s.spireOnly = false) ∧
    (let s : State := up .cell
     let s : State := { s with st := { s.st with running := false } }
     let s : State := s.setFld fCLKCTL_PLLEN 1
     let s : State := s.setFld fCLKSEL_ROOT 1
     s.st.running = false ∧
     s.on fCLKCTL_PLLEN = true ∧
     s.on fCLKSEL_ROOT = true) ∧
    (let s : State := up .cell
     let s : State := { s with st := { s.st with running := false } }
     let s : State := s.setFld fCLKSEL_ROOT 1
     let s : State := s.setFld fCLKSTAT_ROOTNOW 1
     let s : State := { s with clk := { s.clk with heldSel := none } }
     let s : State := s.setFld fCLKCTL_HFEN 1
     let s : State := s.setFld fCLKCTL_PLLEN 1
     s.st.running = false ∧
     s.on fCLKSEL_ROOT = true ∧
     s.on fCLKSTAT_ROOTNOW = true ∧
     s.clk.heldSel = none ∧
     s.on fCLKCTL_HFEN = true ∧
     s.on fCLKCTL_PLLEN = true) ∧
    (let s : State := up .cell
     let s : State := { s with st := { s.st with running := false } }
     let s : State := s.setFld fCLKSEL_ROOT 0
     let s : State := s.setFld fCLKCTL_HFEN 1
     s.st.running = false ∧
     s.on fCLKSEL_ROOT = false ∧
     s.on fCLKCTL_HFEN = true) ∧
    (let s : State := up .cell
     let s : State := { s with st := { s.st with running := false } }
     let s : State := s.setFld fCLKCTL_PLLEN 1
     s.st.running = false ∧
     s.on fCLKCTL_PLLEN = true) ∧
    (let v : Word := 1
     let s : State := up .cell
     let s : State := { s with st := { s.st with running := false } }
     let s : State := { s with clk := { s.clk with stopped := false } }
     let s : State := s.setFld fCLKSTAT_PLLLOCK 1
     let s : State := { s with chor := { s.chor with heldWr := [] } }
     let s : State := s.setFld fCHSTARTH_ARM 0
     s.st.running = false ∧
     v.toNat % 4 = 1 ∧
     s.clk.stopped = false ∧
     s.on fCLKSTAT_PLLLOCK = true ∧
     s.chor.heldWr = [] ∧
     s.on fCHSTARTH_ARM = false) ∧
    (let v : Word := 1
     let s : State := up .cell
     let s : State := { s with st := { s.st with running := false } }
     let s : State := { s with clk := { s.clk with stopped := false } }
     let s : State := s.setFld fCLKSTAT_PLLLOCK 0
     s.st.running = false ∧
     v.toNat % 4 = 1 ∧
     s.clk.stopped = false ∧
     s.on fCLKSTAT_PLLLOCK = false) ∧
    (let v : Word := 2
     let s : State := up .cell
     let s : State := { s with st := { s.st with running := false } }
     let s : State := { s with clk := { s.clk with stopped := false } }
     s.st.running = false ∧
     v.toNat % 4 = 2 ∧
     s.clk.stopped = false) ∧
    (let s : State := up .cell
     let s : State := { s with st := { s.st with running := false } }
     let s : State := { s with clk := { s.clk with stopped := true } }
     s.st.running = false ∧
     s.clk.stopped = true) ∧
    (let s : State := up .cell
     let s : State := { s with st := { s.st with running := false } }
     let s : State := { s with clk := { s.clk with heldSel := some 1 } }
     let s : State := { s with clk := { s.clk with stopped := false } }
     let s : State := s.setFld fCLKSTAT_PLLLOCK 1
     let s : State := s.setFld fCLKSTAT_ROOTNOW 1
     s.st.running = false ∧
     s.clk.heldSel = some 1 ∧
     s.clk.stopped = false ∧
     s.on fCLKSTAT_PLLLOCK = true ∧
     s.fld fCLKSTAT_ROOTNOW = 1) ∧
    (let s : State := up .cell
     let s : State := { s with st := { s.st with running := false } }
     let s : State := { s with clk := { s.clk with heldSel := none } }
     s.st.running = false ∧
     s.clk.heldSel = none) := by
  refine ⟨?_, ?_, ?_, ?_, ?_, ?_, ?_, ?_, ?_, ?_, ?_, ?_, ?_, ?_, ?_, ?_, ?_, ?_⟩ <;> decide +kernel

/-- What the hypotheses of Clocks are met by (ClockFailures), clause by clause. -/
theorem witness_ClockFailures :
    (let s : State := up .cell
     let s : State := { s with st := { s.st with running := false } }
     s.awake = true ∧
     s.st.running = false) ∧
    (let s : State := up .cell
     let s : State := { s with st := { s.st with running := false } }
     let s : State := s.setFld fCLKSTAT_XTALOK 1
     let s : State := s.setFld fCLKCTL_PLLEN 0
     s.awake = true ∧
     s.st.running = false ∧
     s.on fCLKSTAT_XTALOK = true ∧
     s.on fCLKCTL_PLLEN = false) ∧
    (let s : State := up .cell
     let s : State := { s with st := { s.st with running := false } }
     let s : State := s.setFld fCLKSTAT_PLLLOCK 1
     let s : State := s.setFld fCLKSEL_ROOT 1
     let s : State := s.setFld fCLKSTAT_HFOK 1
     let s : State := s.setFld fSFESTAT_RUN 0
     let s : State := s.setFld fFONTSTAT_RUN 0
     s.awake = true ∧
     s.st.running = false ∧
     s.on fCLKSTAT_PLLLOCK = true ∧
     s.on fCLKSEL_ROOT = true ∧
     s.on fCLKSTAT_HFOK = true ∧
     s.on fSFESTAT_RUN = false ∧
     s.on fFONTSTAT_RUN = false) ∧
    (let s : State := up .cell
     let s : State := { s with st := { s.st with running := false } }
     let s : State := s.setFld fCLKSTAT_HFOK 1
     let s : State := s.setFld fCLKSEL_ROOT 1
     s.awake = true ∧
     s.st.running = false ∧
     s.on fCLKSTAT_HFOK = true ∧
     s.on fCLKSEL_ROOT = true) ∧
    (let s : State := up .cell
     let s : State := { s with st := { s.st with running := false } }
     let s : State := s.setFld fCLKSTAT_HFOK 1
     let s : State := s.setFld fCLKSEL_ROOT 0
     s.awake = true ∧
     s.st.running = false ∧
     s.on fCLKSTAT_HFOK = true ∧
     s.on fCLKSEL_ROOT = false) ∧
    (let s : State := up .cell
     let s : State := { s with st := { s.st with running := false } }
     let s : State := s.setFld fCLKSTAT_FORCED 1
     let s : State := s.setFld fCLKSTAT_ROOTNOW 0
     let s : State := s.setFld fCLKSTAT_HFOK 1
     s.awake = true ∧
     s.st.running = false ∧
     s.on fCLKSTAT_FORCED = true ∧
     s.on fCLKSTAT_ROOTNOW = false ∧
     s.on fCLKSTAT_HFOK = true) ∧
    (let s : State := up .cell
     let s : State := { s with st := { s.st with running := false } }
     let s : State := s.setFld fCLKSTAT_FORCED 1
     let s : State := s.setFld fCLKSTAT_ROOTNOW 0
     let s : State := s.setFld fCLKSTAT_HFOK 0
     s.awake = true ∧
     s.st.running = false ∧
     s.on fCLKSTAT_FORCED = true ∧
     s.on fCLKSTAT_ROOTNOW = false ∧
     s.on fCLKSTAT_HFOK = false) ∧
    (let s : State := up .cell
     let s : State := { s with st := { s.st with running := false } }
     let s : State := { s with clk := { s.clk with failTimer := true } }
     let s : State := { s with rst := { s.rst with hold := false } }
     s.awake = true ∧
     s.st.running = false ∧
     s.clk.failTimer = true ∧
     s.rst.hold = false) ∧
    (let s : State := up .cell
     let s : State := { s with st := { s.st with running := false } }
     let s : State := { s with clk := { s.clk with failTimer := false } }
     s.awake = true ∧
     s.st.running = false ∧
     s.clk.failTimer = false) ∧
    (let d : Desc := ds 0 []
     let s : State := up .cell
     let s : State := { s with st := { s.st with running := false } }
     s.awake = true ∧
     s.st.running = false ∧
     s.ready d = true) := by
  refine ⟨?_, ?_, ?_, ?_, ?_, ?_, ?_, ?_, ?_, ?_⟩ <;> decide +kernel

/-- What the hypotheses of FieldInputsAndDescriptors are met by (FieldInputs), clause by clause. -/
theorem witness_FieldInputs :
    (let n : Nat := 3
     let s : State := up .cell
     let s : State := s.setFld fEVFSTAT_DROPPED 0
     s.blockOn 23 = true ∧
     n < 4 ∧
     s.fld fEVFSTAT_DROPPED = 0 ∧
     s.ring.evf.length < 64) ∧
    (let n : Nat := 3
     let s : State := up .cell
     let s : State := s.setFld fEVFSTAT_DROPPED 0
     let s : State := s.setFld fFISTAT_STATE 0
     let s : State := s.setFld fFICTL_EN 15
     let s : State := s.setFld fFISTAT_BREAK 0
     let s : State := s.setFld fFISTAT_REV 0
     let s : State := s.setFld fFICTL_EDGE 0xFF
     s.blockOn 23 = true ∧
     n < 4 ∧
     s.fld fEVFSTAT_DROPPED = 0 ∧
     s.ring.evf.length < 64 ∧
     s.fld fFISTAT_STATE = 0 ∧
     s.fld fFICTL_EN = 15 ∧
     s.fld fFISTAT_BREAK = 0 ∧
     s.fld fFISTAT_REV = 0 ∧
     s.fld fFICTL_EDGE = 0xFF ∧
     s.fld (fFICNT_COUNT n) < 2 ^ 32 - 1) ∧
    (let n : Nat := 3
     let s : State := up .cell
     let s : State := s.setFld fEVFSTAT_DROPPED 0
     let s : State := s.setFld fFICTL_EN 0
     s.blockOn 23 = true ∧
     n < 4 ∧
     s.fld fEVFSTAT_DROPPED = 0 ∧
     s.ring.evf.length < 64 ∧
     s.fld fFICTL_EN = 0) ∧
    (let n : Nat := 3
     let s : State := up .cell
     let s : State := (s.setFld fFICTL_EN 15).setFld fFICTL_BRKEN 15
     let s : State := s.setFld fEVFSTAT_DROPPED 0
     s.blockOn 23 = true ∧
     n < 4 ∧
     s.fld fEVFSTAT_DROPPED = 0 ∧
     s.ring.evf.length < 64 ∧
     (s.fld fFICTL_EN).testBit n = true ∧
     (s.fld fFICTL_BRKEN).testBit n = true ∧
     (s.fld fFISTAT_BREAK).testBit n = false) ∧
    (let n : Nat := 3
     let s : State := up .cell
     let s : State := s.setFld fFISTUCK_TMO 0xFFFFFFFF
     let s : State := (s.setFld fFICTL_EN 15).setFld fFICTL_BRKEN 15
     let s : State := s.setFld fEVFSTAT_DROPPED 0
     s.blockOn 23 = true ∧
     n < 4 ∧
     s.fld fEVFSTAT_DROPPED = 0 ∧
     s.ring.evf.length < 64 ∧
     (s.fld fFICTL_EN).testBit n = true ∧
     bitsOf (s.fld fFISTUCK_TMO) (8 * n) 8 ≠ 0) ∧
    (let n : Nat := 3
     let e := ⟨0, 0, 0, false, 0⟩
     let rest := []
     let s : State := up .cell
     let s : State := s.setFld fEVFSTAT_DROPPED 0
     let s : State := { s with ring := { s.ring with evf := e :: rest } }
     s.blockOn 23 = true ∧
     n < 4 ∧
     s.fld fEVFSTAT_DROPPED = 0 ∧
     s.ring.evf.length < 64 ∧
     s.ring.evf = e :: rest) := by
  refine ⟨?_, ?_, ?_, ?_, ?_, ?_⟩ <;> decide +kernel

/-- What the hypotheses of FieldOutputs are met by, clause by clause. -/
theorem witness_FieldOutputs :
    (let n : Nat := 1
     let u : Nat := 255
     let s : State := up .cell
     s.blockOn 23 = true ∧
     s.fio.latch < 4 ∧
     n < 2 ∧
     u < 256) ∧
    (let v : Word := putFld (putFld 0 fFOCTL_LEVEL 2) fFOCTL_ARM 2
     let n : Nat := 1
     let u : Nat := 255
     let s : State := up .cell
     let s : State := s.setFld fCLKSTAT_FORCED 0
     let s : State := { s with fio := { s.fio with latch := 0 } }
     s.blockOn 23 = true ∧
     s.fio.latch < 4 ∧
     n < 2 ∧
     u < 256 ∧
     fldOf v fFOCTL_LEVEL = 2 ^ n ∧
     fldOf v fFOCTL_ARM = 2 ^ n ∧
     s.on fCLKSTAT_FORCED = false ∧
     s.fio.latch = 0) ∧
    (let n : Nat := 1
     let u : Nat := 255
     let v : Word := 0
     let s : State := up .cell
     let s : State := s.setFld fCLKSTAT_FORCED 0
     s.blockOn 23 = true ∧
     s.fio.latch < 4 ∧
     n < 2 ∧
     u < 256 ∧
     fldOf v fFOCTL_ARM = 0 ∧
     s.on fCLKSTAT_FORCED = false) ∧
    (let n : Nat := 1
     let u : Nat := 255
     let s : State := up .cell
     let s : State := s.setFld fCLKSTAT_FORCED 1
     s.blockOn 23 = true ∧
     s.fio.latch < 4 ∧
     n < 2 ∧
     u < 256 ∧
     s.on fCLKSTAT_FORCED = true) ∧
    (let v : Word := putFld (putFld 0 fFOCTL_LEVEL 2) fFOCTL_ARM 2
     let n : Nat := 1
     let u : Nat := 255
     let s : State := up .cell
     s.blockOn 23 = true ∧
     s.fio.latch < 4 ∧
     n < 2 ∧
     u < 256 ∧
     v ≠ 0xF1E1) ∧
    (let n : Nat := 1
     let u : Nat := 255
     let s : State := up .cell
     let s : State := { s with fio := { s.fio with silent := false } }
     s.blockOn 23 = true ∧
     s.fio.latch < 4 ∧
     n < 2 ∧
     u < 256 ∧
     s.kaSends = true ∧
     s.fio.silent = false) ∧
    (let n : Nat := 1
     let u : Nat := 255
     let s : State := up .cell
     let s : State := { s with rst := { s.rst with hold := true } }
     s.blockOn 23 = true ∧
     s.fio.latch < 4 ∧
     n < 2 ∧
     u < 256 ∧
     s.kaSends = false) ∧
    (let n : Nat := 1
     let u : Nat := 255
     let s : State := up .cell
     let s : State := { s with fio := { s.fio with silent := false } }
     let s : State := { s with fio := { s.fio with ka := none } }
     let s : State := { s with fio := { s.fio with safe := 3 } }
     s.blockOn 23 = true ∧
     s.fio.latch < 4 ∧
     n < 2 ∧
     u < 256 ∧
     s.fio.silent = false ∧
     s.fio.ka = none ∧
     s.fio.safe = 3 ∧
     s.fio.safeLvl < 4) ∧
    (let n : Nat := 1
     let u : Nat := 255
     let s : State := up .cell
     let s : State := { s with fio := { s.fio with silent := false } }
     let s : State := { s with fio := { s.fio with ka := none } }
     let s : State := { s with fio := { s.fio with safe := 0 } }
     s.blockOn 23 = true ∧
     s.fio.latch < 4 ∧
     n < 2 ∧
     u < 256 ∧
     s.fio.silent = false ∧
     s.fio.ka = none ∧
     s.fio.safe = 0) ∧
    (let n : Nat := 1
     let u : Nat := 255
     let s : State := up .cell
     let s : State := { s with fio := { s.fio with silent := true } }
     let s : State := { s with fio := { s.fio with safed := 0 } }
     s.blockOn 23 = true ∧
     s.fio.latch < 4 ∧
     n < 2 ∧
     u < 256 ∧
     s.fio.silent = true ∧
     s.kaSends = true ∧
     s.fio.safed = 0) ∧
    (let n : Nat := 1
     let u : Nat := 255
     let s : State := up .cell
     let s : State := { s with fio := { s.fio with latch := 3, vok := true } }
     let s : State := s.setFld fFOCTL_RETRY 2
     let s : State := { s with fio := { s.fio with times := [[], []] } }
     s.blockOn 23 = true ∧
     s.fio.latch < 4 ∧
     n < 2 ∧
     u < 256 ∧
     s.fio.on.testBit n = true ∧
     (s.fld fFOCTL_RETRY).testBit n = true ∧
     s.fio.times = [[], []]) ∧
    (let n : Nat := 1
     let u : Nat := 255
     let s : State := up .cell
     let s : State := { s with fio := { s.fio with latch := 3, vok := true } }
     s.blockOn 23 = true ∧
     s.fio.latch < 4 ∧
     n < 2 ∧
     u < 256 ∧
     s.fio.on.testBit n = true ∧
     (s.fld fFOCTL_RETRY).testBit n = false) ∧
    (let n : Nat := 1
     let u : Nat := 255
     let s : State := up .cell
     let s : State := { s with fio := { s.fio with retry := 2 } }
     s.blockOn 23 = true ∧
     s.fio.latch < 4 ∧
     n < 2 ∧
     u < 256 ∧
     s.fio.retry.testBit n = true) ∧
    (let n : Nat := 1
     let u : Nat := 255
     let s : State := up .cell
     s.blockOn 23 = true ∧
     s.fio.latch < 4 ∧
     n < 2 ∧
     u < 256 ∧
     s.fio.therm.testBit n = false) ∧
    (let n : Nat := 1
     let u : Nat := 255
     let s : State := up .cell
     let s : State := { s with fio := { s.fio with therm := 2 } }
     s.blockOn 23 = true ∧
     s.fio.latch < 4 ∧
     n < 2 ∧
     u < 256 ∧
     s.fio.therm.testBit n = true) ∧
    (let n : Nat := 1
     let u : Nat := 255
     let s : State := up .cell
     let s : State := { s with fio := { s.fio with latch := 3, vok := true } }
     let s : State := { s with rst := { s.rst with hold := true } }
     s.blockOn 23 = true ∧
     s.fio.latch < 4 ∧
     n < 2 ∧
     u < 256 ∧
     s.fio.on.testBit n = true ∧
     s.rhocoUp = false) ∧
    (let n : Nat := 1
     let u : Nat := 255
     let s : State := up .cell
     let s : State := { s with fio := { s.fio with vok := true } }
     s.blockOn 23 = true ∧
     s.fio.latch < 4 ∧
     n < 2 ∧
     u < 256 ∧
     s.fio.vok = true) ∧
    (let n : Nat := 1
     let u : Nat := 255
     let s : State := up .cell
     let s : State := { s with fio := { s.fio with ov := false } }
     s.blockOn 23 = true ∧
     s.fio.latch < 4 ∧
     n < 2 ∧
     u < 256 ∧
     s.fio.ov = false) := by
  refine ⟨?_, ?_, ?_, ?_, ?_, ?_, ?_, ?_, ?_, ?_, ?_, ?_, ?_, ?_, ?_, ?_, ?_, ?_⟩ <;> decide +kernel

/-- What the hypotheses of FieldInputsAndDescriptors are met by (FieldDescriptors), clause by clause. -/
theorem witness_FieldDescriptors :
    (let d : Desc := ds 0 []
     let s : State := up .cell
     let s : State := s.setFld fSACCLAIM_CLAIM 0
     let s : State := s.setFld fCLKSTAT_FORCED 0
     s.ready d = true ∧
     s.role ≠ .loop ∧
     s.fld fSACCLAIM_CLAIM = 0 ∧
     s.on fCLKSTAT_FORCED = false) ∧
    (let d : Desc := ds 0 [0, 3]
     let s : State := up .cell
     let s : State := s.setFld fSACCLAIM_CLAIM 0
     let s : State := s.setFld fCLKSTAT_FORCED 0
     s.ready d = true ∧
     s.role ≠ .loop ∧
     s.fld fSACCLAIM_CLAIM = 0 ∧
     s.on fCLKSTAT_FORCED = false ∧
     dsArg d 1 % 4 = 3) ∧
    (let d : Desc := ds 0 [0xF]
     let s : State := up .cell
     let s : State := s.setFld fSACCLAIM_CLAIM 0
     let s : State := s.setFld fCLKSTAT_FORCED 0
     s.ready d = true ∧
     s.role ≠ .loop ∧
     s.fld fSACCLAIM_CLAIM = 0 ∧
     s.on fCLKSTAT_FORCED = false ∧
     dsArg d 0 % 16 = 15) := by
  refine ⟨?_, ?_, ?_⟩ <;> decide +kernel

/-- What the hypotheses of FontDescriptors are met by, clause by clause. -/
theorem witness_FontDescriptors :
    (let d : Desc := ds 0 []
     let s : State := up .cell
     let s : State := { s with role := .cell }
     let s : State := s.setFld fSACCLAIM_CLAIM 0
     s.ready d = true ∧
     s.role = .cell ∧
     s.fld fSACCLAIM_CLAIM = 0 ∧
     s.awake = true ∧
     s.cfgBusy = false) ∧
    (let d : Desc := ds 0 []
     let s : State := up .cell
     let s : State := { s with role := .cell }
     let s : State := s.setFld fSACCLAIM_CLAIM 0
     let s : State := s.setFld fFONTCTL_EN 1
     s.ready d = true ∧
     s.role = .cell ∧
     s.fld fSACCLAIM_CLAIM = 0 ∧
     s.awake = true ∧
     s.cfgBusy = false ∧
     s.on fFONTCTL_EN = true) ∧
    (let d : Desc := ds 0 []
     let s : State := up .cell
     let s : State := { s with role := .cell }
     let s : State := s.setFld fSACCLAIM_CLAIM 0
     let s : State := s.setFld fFONTCTL_EN 0
     let off := s.on fFONTCTL_EN = false
     s.ready d = true ∧
     s.role = .cell ∧
     s.fld fSACCLAIM_CLAIM = 0 ∧
     s.awake = true ∧
     s.cfgBusy = false ∧
     off ∧
     s.fontFlow = false) ∧
    (let d : Desc := ds 0 (args [(4, 4, 1), (8, 4, 2)])
     let s : State := up .cell
     let s : State := { s with role := .cell }
     let s : State := s.setFld fSACCLAIM_CLAIM 0
     let s : State := s.setFld fFONTCTL_EN 0
     let off := s.on fFONTCTL_EN = false
     s.ready d = true ∧
     s.role = .cell ∧
     s.fld fSACCLAIM_CLAIM = 0 ∧
     s.awake = true ∧
     s.cfgBusy = false ∧
     off ∧
     dsArgs d 4 4 ≠ 0 ∧
     dsArgs d 8 4 ≠ 0) ∧
    (let d : Desc := ds 0 (args [(4, 4, 0)])
     let s : State := up .cell
     let s : State := { s with role := .cell }
     let s : State := s.setFld fSACCLAIM_CLAIM 0
     s.ready d = true ∧
     s.role = .cell ∧
     s.fld fSACCLAIM_CLAIM = 0 ∧
     s.awake = true ∧
     s.cfgBusy = false ∧
     dsArgs d 4 4 = 0) ∧
    (let d : Desc := ds 0 []
     let s : State := up .cell
     let s : State := { s with role := .cell }
     let s : State := s.setFld fSACCLAIM_CLAIM 0
     let s : State := s.setFld fFONTTUNE_TUNED 0
     s.ready d = true ∧
     s.role = .cell ∧
     s.fld fSACCLAIM_CLAIM = 0 ∧
     s.awake = true ∧
     s.cfgBusy = false ∧
     s.on fFONTTUNE_TUNED = false) ∧
    (let d : Desc := ds 0 []
     let s : State := up .cell
     let s : State := { s with role := .cell }
     let s : State := s.setFld fSACCLAIM_CLAIM 0
     let s : State := s.setFld fFONTTUNE_TUNED 1
     let s : State := s.setFld fCLKSTAT_PLLLOCK 0
     s.ready d = true ∧
     s.role = .cell ∧
     s.fld fSACCLAIM_CLAIM = 0 ∧
     s.awake = true ∧
     s.cfgBusy = false ∧
     s.on fFONTTUNE_TUNED = true ∧
     s.on fCLKSTAT_PLLLOCK = false) ∧
    (let d : Desc := ds 0 [0, 0, 0, 0, 0, 0, 0xFE]
     let s : State := up .cell
     let s : State := { s with role := .cell }
     let s : State := s.setFld fSACCLAIM_CLAIM 0
     let s : State := s.setFld fFONTCTL_EN 0
     let s : State := s.setFld fFONTTUNE_TUNED 1
     let s : State := s.setFld fCLKSTAT_PLLLOCK 1
     let s : State := s.setFld fFONTCTL_FORCE 0
     let s : State := s.setFld fFONTTH_ARM 0
     let s : State := s.setFld fFONTPER_IDLE 1024
     let off := s.on fFONTCTL_EN = false
     s.ready d = true ∧
     s.role = .cell ∧
     s.fld fSACCLAIM_CLAIM = 0 ∧
     s.awake = true ∧
     s.cfgBusy = false ∧
     off ∧
     s.on fFONTTUNE_TUNED = true ∧
     s.on fCLKSTAT_PLLLOCK = true ∧
     s.on fFONTCTL_FORCE = false ∧
     s.on fFONTTH_ARM = false ∧
     s.fld fFONTPER_IDLE = 1024 ∧
     bitAt (dsArg d 6) 0 = false) ∧
    (let d : Desc := ds 0 []
     let s : State := up .cell
     let s : State := { s with role := .cell }
     let s : State := s.setFld fSACCLAIM_CLAIM 0
     let s : State := s.setFld fFONTCTL_EN 1
     let s : State := { s with font := { s.font with phase := 0 } }
     let s : State := s.setFld fFONTCTL_FORCE 0
     s.ready d = true ∧
     s.role = .cell ∧
     s.fld fSACCLAIM_CLAIM = 0 ∧
     s.awake = true ∧
     s.cfgBusy = false ∧
     s.on fFONTCTL_EN = true ∧
     s.font.phase = 0 ∧
     s.fontFlow = false ∧
     s.on fFONTCTL_FORCE = false) ∧
    (let d : Desc := ds 0 []
     let m : TuneIn := (⟨[], 0, 0, [], false, [], [], 49, 0, false⟩ : TuneIn)
     let s : State := up .cell
     let s : State := { s with role := .cell }
     let s : State := s.setFld fSACCLAIM_CLAIM 0
     let s : State := s.setFld fFONTCTL_EN 0
     let s : State := s.setFld fCLKSTAT_PLLLOCK 1
     let off := s.on fFONTCTL_EN = false
     s.ready d = true ∧
     s.role = .cell ∧
     s.fld fSACCLAIM_CLAIM = 0 ∧
     s.awake = true ∧
     s.cfgBusy = false ∧
     off ∧
     s.on fCLKSTAT_PLLLOCK = true ∧
     m.capU < 50) ∧
    (let d : Desc := ds 0 (args [(0, 2, 511)])
     let m : TuneIn := (⟨[1], 256, 0, [7], false, [], [], 3000, 3000, false⟩ : TuneIn)
     let s : State := up .cell
     let s : State := { s with role := .cell }
     let s : State := s.setFld fSACCLAIM_CLAIM 0
     let s : State := s.setFld fFONTCTL_EN 0
     let s : State := s.setFld fCLKSTAT_PLLLOCK 1
     let off := s.on fFONTCTL_EN = false
     s.ready d = true ∧
     s.role = .cell ∧
     s.fld fSACCLAIM_CLAIM = 0 ∧
     s.awake = true ∧
     s.cfgBusy = false ∧
     off ∧
     s.on fCLKSTAT_PLLLOCK = true ∧
     m.resistive = false ∧
     50 ≤ m.capU ∧
     m.capU ≤ 3000 ∧
     m.capD = m.capU ∧
     m.sums = [1] ∧
     m.pwrs = [7] ∧
     256 ≤ m.peak60 ∧
     m.invalid = false ∧
     dsArgs d 0 2 < 512) ∧
    (let d : Desc := ds 0 []
     let s : State := up .cell
     let s : State := { s with role := .cell }
     let s : State := s.setFld fSACCLAIM_CLAIM 0
     let s : State := s.setFld fFONTCTL_EN 0
     let s : State := s.setFld fCLKSTAT_PLLLOCK 1
     let off := s.on fFONTCTL_EN = false
     s.ready d = true ∧
     s.role = .cell ∧
     s.fld fSACCLAIM_CLAIM = 0 ∧
     s.awake = true ∧
     s.cfgBusy = false ∧
     off ∧
     s.on fCLKSTAT_PLLLOCK = true) ∧
    (let d : Desc := ds 0 []
     let s : State := up .cell
     let s : State := { s with role := .cell }
     let s : State := s.setFld fSACCLAIM_CLAIM 0
     let s : State := s.setFld fFONTCTL_EN 0
     let s : State := s.setFld fCLKSTAT_PLLLOCK 1
     let off := s.on fFONTCTL_EN = false
     s.ready d = true ∧
     s.role = .cell ∧
     s.fld fSACCLAIM_CLAIM = 0 ∧
     s.awake = true ∧
     s.cfgBusy = false ∧
     off ∧
     s.on fCLKSTAT_PLLLOCK = true) ∧
    (let d : Desc := ds 0 (args [(0, 1, 1)])
     let s : State := up .cell
     let s : State := { s with role := .cell }
     let s : State := s.setFld fSACCLAIM_CLAIM 0
     s.ready d = true ∧
     s.role = .cell ∧
     s.fld fSACCLAIM_CLAIM = 0 ∧
     s.awake = true ∧
     s.cfgBusy = false ∧
     dsArg d 0 < 2) ∧
    (let d : Desc := ds 0 (args [(0, 1, 2)])
     let s : State := up .cell
     let s : State := { s with role := .cell }
     let s : State := s.setFld fSACCLAIM_CLAIM 0
     s.ready d = true ∧
     s.role = .cell ∧
     s.fld fSACCLAIM_CLAIM = 0 ∧
     s.awake = true ∧
     s.cfgBusy = false ∧
     2 ≤ dsArg d 0) ∧
    (let d : Desc := ds 0 (args [(0, 1, 1), (1, 1, 30)])
     let s : State := up .cell
     let s : State := s.setFld fFONTTPL_BASE 2000
     let s : State := { s with role := .cell }
     let s : State := s.setFld fSACCLAIM_CLAIM 0
     let s : State := s.setFld fFONTCTL_EN 0
     let off := s.on fFONTCTL_EN = false
     s.ready d = true ∧
     s.role = .cell ∧
     s.fld fSACCLAIM_CLAIM = 0 ∧
     s.awake = true ∧
     s.cfgBusy = false ∧
     off ∧
     dsArg d 0 < 2 ∧
     dsArg d 1 < 31 ∧
     s.fld fFONTTPL_BASE ≤ 2000 ∧
     (∀ n < 3, s.winActive n = false)) := by
  refine ⟨?_, ?_, ?_, ?_, ?_, ?_, ?_, ?_, ?_, ?_, ?_, ?_, ?_, ?_, ?_, ?_⟩ <;> decide +kernel

/-- What the hypotheses of FontEvents are met by, clause by clause. -/
theorem witness_FontEvents :
    (let s : State := up .cell
     let s : State := { s with role := .cell }
     s.role = .cell ∧
     s.awake = true) ∧
    (let v : Word := 0x10001
     let s : State := up .cell
     let s : State := { s with role := .cell }
     let s : State := s.setFld fFONTCTL_EN 0
     s.role = .cell ∧
     s.awake = true ∧
     s.on fFONTCTL_EN = false ∧
     v.toNat / 65536 % 2 = 1) ∧
    (let v : Word := 0x10000
     let s : State := up .cell
     let s : State := s.setFld fFONTTL_TIME 9
     let s : State := { s with role := .cell }
     let s : State := s.setFld fFONTCTL_EN 1
     s.role = .cell ∧
     s.awake = true ∧
     s.on fFONTCTL_EN = true ∧
     v.toNat / 65536 % 2 = 1 ∧
     past (s.fld fFONTTL_TIME + v.toNat % 65536 * 2 ^ 32) s.now = false) ∧
    (let s : State := up .cell
     let s : State := { s with role := .cell }
     let s : State := { s with font := { s.font with due := none } }
     s.role = .cell ∧
     s.awake = true ∧
     s.font.due = none) ∧
    (let cu : Nat := 100
     let cd : Nat := 100
     let s : State := up .cell
     let s : State := s.setFld fFONTCAPW_CMAX 100
     let s : State := s.setFld fFONTCAPW_CMIN 100
     let s : State := { s with role := .cell }
     let s : State := { s with font := { s.font with due := some s.now } }
     let s : State := s.setFld fFONTSTAT_RUN 1
     let s : State := { s with font := { s.font with phase := 0 } }
     let s : State := s.setFld fCLKSTAT_PLLLOCK 1
     let s : State := { s with clk := { s.clk with spireHeld := false } }
     let s : State := { s with font := { s.font with fault := [0, 0] } }
     let s : State := { s with font := { s.font with badRun := [0, 0] } }
     let s : State := { s with font := { s.font with goodRun := [2, 2] } }
     s.role = .cell ∧
     s.awake = true ∧
     s.font.due = some s.now ∧
     s.on fFONTSTAT_RUN = true ∧
     s.font.phase = 0 ∧
     s.on fCLKSTAT_PLLLOCK = true ∧
     s.clk.spireHeld = false ∧
     s.font.fault = [0, 0] ∧
     s.font.badRun = [0, 0] ∧
     s.font.goodRun = [2, 2] ∧
     s.fld fFONTCAPW_CMIN ≤ cu ∧
     cu ≤ s.fld fFONTCAPW_CMAX ∧
     cd = cu) ∧
    (let s : State := up .cell
     let s : State := { s with rst := { s.rst with hold := true } }
     let s : State := { s with role := .cell }
     let s : State := { s with font := { s.font with due := some s.now } }
     let s : State := s.setFld fFONTSTAT_RUN 1
     let s : State := { s with font := { s.font with phase := 2 } }
     s.role = .cell ∧
     s.awake = true ∧
     s.font.due = some s.now ∧
     s.on fFONTSTAT_RUN = true ∧
     s.font.phase = 2 ∧
     s.rhocoUp = false) ∧
    (let s : State := up .cell
     let s : State := (s.setFld (fSBWCFG_EN 2) 1).setFld (fSBWSIZE_SIZE 2) 512
     let s : State := { s with role := .cell }
     let s : State := { s with font := { s.font with phase := 1 } }
     let s : State := s.setFld (fSBWCFG_EN 2) 1
     let s : State := s.setFld (fSBWDROP_DROPPED 2) 0
     let room := s.on (fSBWCFG_EN 2) = true ∧ s.fld (fSBWDROP_DROPPED 2) = 0 ∧ 2 * s.fontLen ≤ s.winFree 2
     s.role = .cell ∧
     s.awake = true ∧
     s.font.phase = 1 ∧
     room) ∧
    (let s : State := up .cell
     let s : State := s.setFld (fSBWDROP_DROPPED 2) 1
     let s : State := { s with role := .cell }
     let s : State := { s with font := { s.font with phase := 1 } }
     let s : State := s.setFld (fSBWCFG_EN 2) 0
     let none_ := s.on (fSBWCFG_EN 2) = false ∧ 0 < s.fld (fSBWDROP_DROPPED 2)
     s.role = .cell ∧
     s.awake = true ∧
     s.font.phase = 1 ∧
     none_) ∧
    (let s : State := up .cell
     let s : State := { s with rst := { s.rst with hold := true } }
     let s : State := { s with role := .cell }
     let s : State := { s with font := { s.font with phase := 1 } }
     s.role = .cell ∧
     s.awake = true ∧
     s.font.phase = 1 ∧
     s.rhocoUp = false) ∧
    (let s : State := up .cell
     let s : State := (s.setFld (fSBWCFG_EN 2) 1).setFld (fSBWSIZE_SIZE 2) 512
     let s : State := { s with role := .cell }
     let s : State := { s with font := { s.font with phase := 3 } }
     let s : State := s.setFld (fSBWCFG_EN 2) 1
     let s : State := s.setFld (fSBWDROP_DROPPED 2) 0
     let room := s.on (fSBWCFG_EN 2) = true ∧ s.fld (fSBWDROP_DROPPED 2) = 0 ∧ 2 * s.fontLen ≤ s.winFree 2
     s.role = .cell ∧
     s.awake = true ∧
     s.font.phase = 3 ∧
     room) ∧
    (let s : State := up .cell
     let s : State := (s.setFld (fSBWCFG_EN 2) 1).setFld (fSBWSIZE_SIZE 2) 512
     let s : State := { s with role := .cell }
     let s : State := { s with font := { s.font with phase := 6 } }
     let s : State := s.setFld (fSBWCFG_EN 2) 1
     let s : State := s.setFld (fSBWDROP_DROPPED 2) 0
     let room := s.on (fSBWCFG_EN 2) = true ∧ s.fld (fSBWDROP_DROPPED 2) = 0 ∧ 2 * s.fontLen ≤ s.winFree 2
     s.role = .cell ∧
     s.awake = true ∧
     s.font.phase = 6 ∧
     room) ∧
    (let s : State := up .cell
     let s : State := { s with role := .cell }
     let s : State := { s with font := { s.font with phase := 0 } }
     s.role = .cell ∧
     s.awake = true ∧
     s.font.phase = 0) ∧
    (let s : State := up .cell
     let s : State := s.setFld fFONTDET_THR 1
     let s : State := { s with role := .cell }
     let s : State := { s with font := { s.font with phase := 2 } }
     s.role = .cell ∧
     s.awake = true ∧
     s.font.phase = 2 ∧
     0 < s.fld fFONTDET_THR) ∧
    (let s : State := up .cell
     let s : State := { s with font := { s.font with up := { s.font.up with awaits := true } } }
     let s : State := { s with role := .cell }
     let s : State := { s with font := { s.font with phase := 3 } }
     s.role = .cell ∧
     s.awake = true ∧
     s.font.up.awaits = true ∧
     s.font.phase = 3) ∧
    (let s : State := up .cell
     let s : State := { s with rst := { s.rst with hold := true } }
     let s : State := { s with font := { s.font with up := { s.font.up with awaits := true } } }
     let s : State := { s with role := .cell }
     let s : State := { s with font := { s.font with phase := 5 } }
     s.role = .cell ∧
     s.awake = true ∧
     s.font.up.awaits = true ∧
     s.font.phase = 5 ∧
     s.rhocoUp = false) ∧
    (let s : State := up .cell
     let s : State := { s with role := .cell }
     let s : State := { s with font := { s.font with phase := 7 } }
     let s : State := { s with font := { s.font with nvalid := 0 } }
     let s : State := { s with font := { s.font with stopping := false } }
     let s : State := { s with font := { s.font with lastAt := none } }
     let s : State := s.setFld fFONTSTAT_EMPTY 0
     s.role = .cell ∧
     s.awake = true ∧
     s.font.phase = 7 ∧
     s.font.nvalid = 0 ∧
     s.font.stopping = false ∧
     s.font.lastAt = none ∧
     s.on fFONTSTAT_EMPTY = false) ∧
    (let s : State := up .cell
     let s : State := s.setFld fFONTGEOX_X 5
     let s : State := { s with role := .cell }
     let s : State := { s with font := { s.font with phase := 7 } }
     let s : State := { s with font := { s.font with nvalid := 1 } }
     let s : State := { s with font := { s.font with stopping := false } }
     let s : State := { s with font := { s.font with lastAt := none } }
     let s : State := s.setFld fFONTSTAT_EMPTY 0
     let s : State := s.setFld fSTRESP_METROBAD 0
     let s : State := { s with font := { s.font with sumDt2 := 0 } }
     let s : State := { s with font := { s.font with sumT2 := 200000000000 } }
     let s : State := s.setFld fFONTDT0_DT0 0
     let s : State := s.setFld fFONTT0_T0 0
     let s : State := s.setFld fFONTCTL_ADAPT 0
     s.role = .cell ∧
     s.awake = true ∧
     s.font.phase = 7 ∧
     s.font.nvalid = 1 ∧
     s.font.stopping = false ∧
     s.font.lastAt = none ∧
     s.on fFONTSTAT_EMPTY = false ∧
     s.on fSTRESP_METROBAD = false ∧
     s.font.sumDt2 = 0 ∧
     s.font.sumT2 = 200000000000 ∧
     s.fld fFONTDT0_DT0 = 0 ∧
     s.fld fFONTT0_T0 = 0 ∧
     s.fld fFONTGEOX_X ≠ 0 ∧
     s.on fFONTCTL_ADAPT = false) ∧
    (let s : State := up .cell
     let s : State := s.setFld fSACCLAIM_CLAIM (2 ^ 19)
     let s : State := { s with role := .cell }
     let s : State := s.setFld fFONTSEAL_PERIOD 1
     let s : State := s.setFld fFONTRESGAPMS_GAPMS 0
     let s : State := s.setFld fSACSTAT_HELD 0
     let s : State := s.setFld fSACSTAT_SEALDEAD 0
     let s : State := { s with sac := { s.sac with missed := 0 } }
     let s : State := { s with sac := { s.sac with seq := 5 } }
     let s : State := { s with sac := { s.sac with ack := 5 } }
     s.role = .cell ∧
     s.awake = true ∧
     s.claimed 19 = true ∧
     s.fld fFONTSEAL_PERIOD = 1 ∧
     s.now % 32768 = 0 ∧
     s.fld fFONTRESGAPMS_GAPMS = 0 ∧
     s.on fSACSTAT_HELD = false ∧
     s.on fSACSTAT_SEALDEAD = false ∧
     s.sac.missed = 0 ∧
     s.sac.seq = 5 ∧
     s.sac.ack = 5) ∧
    (let s : State := up .cell
     let s : State := { s with role := .cell }
     let s : State := s.setFld fFONTSEAL_PERIOD 0
     s.role = .cell ∧
     s.awake = true ∧
     s.fld fFONTSEAL_PERIOD = 0) := by
  refine ⟨?_, ?_, ?_, ?_, ?_, ?_, ?_, ?_, ?_, ?_, ?_, ?_, ?_, ?_, ?_, ?_, ?_, ?_, ?_⟩ <;> decide +kernel

/-- What the hypotheses of ChoristerRegistersAndDescriptors are met by (ChoristerRegisters), clause by clause. -/
theorem witness_ChoristerRegisters :
    (let n : Nat := 7
     let s : State := up .cell
     n < 8 ∧
     s.chor.eng.length = 8 ∧
     s.rootStopped = false) ∧
    (let v : Word := 0x80
     let n : Nat := 7
     let s : State := up .cell
     let s : State := s.setFld fCHSTAT_RUNNING 0
     let s : State := s.setFld fCHSTARTH_ARM 0
     n < 8 ∧
     s.chor.eng.length = 8 ∧
     s.rootStopped = false ∧
     s.fld fCHSTAT_RUNNING = 0 ∧
     s.on fCHSTARTH_ARM = false ∧
     v.toNat = 2 ^ n) ∧
    (let n : Nat := 7
     let s : State := up .cell
     let s : State := s.setFld fCHSTAT_RUNNING 128
     let s : State := { s with chor := { s.chor with touchEng := none } }
     n < 8 ∧
     s.chor.eng.length = 8 ∧
     s.rootStopped = false ∧
     s.fld fCHSTAT_RUNNING = 2 ^ n ∧
     s.chor.touchEng = none) ∧
    (let n : Nat := 7
     let s : State := up .cell
     let s : State := s.setFld fCHSTAT_RUNNING 0
     let s : State := s.setFld fCHCTL_EN 0
     n < 8 ∧
     s.chor.eng.length = 8 ∧
     s.rootStopped = false ∧
     s.fld fCHSTAT_RUNNING = 0 ∧
     s.fld fCHCTL_EN = 0) ∧
    (let n : Nat := 7
     let s : State := up .cell
     let s : State := s.setFld fCHSTAT_RUNNING 0
     let s : State := s.setFld fCHCTL_EN 0
     n < 8 ∧
     s.chor.eng.length = 8 ∧
     s.rootStopped = false ∧
     s.fld fCHSTAT_RUNNING = 0 ∧
     s.fld fCHCTL_EN = 0) ∧
    (let n : Nat := 7
     let v : Word := 0x10001
     let s : State := up .cell
     n < 8 ∧
     s.chor.eng.length = 8 ∧
     s.rootStopped = false ∧
     v.toNat / 2 ^ 16 % 2 = 1 ∧
     past (s.fld fCHSTARTL_TIME + v.toNat % 2 ^ 16 * 2 ^ 32) s.chor.act = false) ∧
    (let n : Nat := 7
     let s : State := up .cell
     let e := s.che n
     n < 8 ∧
     s.chor.eng.length = 8 ∧
     s.rootStopped = false ∧
     e.tx.length < s.txCap n) ∧
    (let n : Nat := 7
     let s : State := up .cell
     let s : State := eng { tx := [1, 2, 3, 4] } s
     let e := s.che n
     n < 8 ∧
     s.chor.eng.length = 8 ∧
     s.rootStopped = false ∧
     s.txCap n ≤ e.tx.length) ∧
    (let n : Nat := 7
     let x := 1
     let r := [2, 3, 4]
     let s : State := up .cell
     let s : State := eng { rx := [1, 2, 3, 4] } s
     let e := s.che n
     n < 8 ∧
     s.chor.eng.length = 8 ∧
     s.rootStopped = false ∧
     e.rx = x :: r) ∧
    (let n : Nat := 7
     let s : State := up .cell
     let e := s.che n
     n < 8 ∧
     s.chor.eng.length = 8 ∧
     s.rootStopped = false ∧
     e.rx = []) ∧
    (let n : Nat := 7
     let s : State := up .cell
     let e := s.che n
     n < 8 ∧
     s.chor.eng.length = 8 ∧
     s.rootStopped = false ∧
     e.inj = none) ∧
    (let n : Nat := 7
     let s : State := up .cell
     let s : State := eng { inj := some 5 } s
     let e := s.che n
     n < 8 ∧
     s.chor.eng.length = 8 ∧
     s.rootStopped = false ∧
     e.inj.isSome = true) ∧
    (let n : Nat := 7
     let s : State := up .cell
     let s : State := s.setFld fCHSTAT_RUNNING 0
     n < 8 ∧
     s.chor.eng.length = 8 ∧
     s.rootStopped = false ∧
     s.fld fCHSTAT_RUNNING = 0) ∧
    (let n : Nat := 7
     let v : Word := 0xFFFFFFF7
     let s : State := up .cell
     let s : State := s.setFld fCHSTAT_RUNNING 128
     let s : State := s.setFld (fCHPADOWN_OWN 0) 0xFFFFFFFF
     let s : State := s.setFld (fCHPADOWN_OWN 0) 0xFFFFFFFF
     n < 8 ∧
     s.chor.eng.length = 8 ∧
     s.rootStopped = false ∧
     s.fld fCHSTAT_RUNNING = 2 ^ n ∧
     s.fld (fCHPADOWN_OWN 0) = 0xFFFFFFFF ∧
     v.toNat = 0xFFFFFFF0 + n) := by
  refine ⟨?_, ?_, ?_, ?_, ?_, ?_, ?_, ?_, ?_, ?_, ?_, ?_, ?_, ?_⟩ <;> decide +kernel

/-- What the hypotheses of ChoristerSteps are met by, clause by clause. -/
theorem witness_ChoristerSteps :
    (let n : Nat := 7
     let g : Nat := 65535
     let s : State := ((up .cell).setFld fCHSTAT_RUNNING 128).setFld (fCHCFG_WRAPTOP 7) 31
     n < 8 ∧
     s.chor.eng.length = 8 ∧
     s.rootStopped = false ∧
     g < 2 ^ 16) ∧
    (let n : Nat := 7
     let g : Nat := 65535
     let w : Nat := 0xE03F
     let s : State := ((up .cell).setFld fCHSTAT_RUNNING 128).setFld (fCHCFG_WRAPTOP 7) 31
     let s : State := eng { pc := 30, tx := [9], acc := 65535 } s
     let s : State := s.setFld (fCHPROG_INSTR (32 * 7 + 30)) w
     let s : State := { s with chor := { s.chor with still := 0 } }
     let e := s.che n
     let due := s.fld fCHSTAT_RUNNING = 2 ^ n ∧ s.chDiv n ≤ e.acc + 256 ∧ e.delay = 0 ∧ e.inj = none ∧ e.stall = none ∧ e.susp = none ∧
       s.chor.still = 0 ∧ e.pc < 31 ∧ e.pc ≠ s.fld (fCHCFG_WRAPTOP n) ∧ s.chWord n e.pc = w
     n < 8 ∧
     s.chor.eng.length = 8 ∧
     s.rootStopped = false ∧
     g < 2 ^ 16 ∧
     due ∧
     0xE020 ≤ w ∧
     w ≤ 0xE03F) ∧
    (let n : Nat := 7
     let g : Nat := 65535
     let w : Nat := 31
     let s : State := ((up .cell).setFld fCHSTAT_RUNNING 128).setFld (fCHCFG_WRAPTOP 7) 31
     let s : State := eng { pc := 30, tx := [9], acc := 65535 } s
     let s : State := s.setFld (fCHPROG_INSTR (32 * 7 + 30)) w
     let s : State := { s with chor := { s.chor with still := 0 } }
     let e := s.che n
     let due := s.fld fCHSTAT_RUNNING = 2 ^ n ∧ s.chDiv n ≤ e.acc + 256 ∧ e.delay = 0 ∧ e.inj = none ∧ e.stall = none ∧ e.susp = none ∧
       s.chor.still = 0 ∧ e.pc < 31 ∧ e.pc ≠ s.fld (fCHCFG_WRAPTOP n) ∧ s.chWord n e.pc = w
     n < 8 ∧
     s.chor.eng.length = 8 ∧
     s.rootStopped = false ∧
     g < 2 ^ 16 ∧
     due ∧
     w < 32) ∧
    (let n : Nat := 7
     let g : Nat := 65535
     let w : Nat := 0x8080
     let x := 9
     let r := ([] : List Nat)
     let s : State := ((up .cell).setFld fCHSTAT_RUNNING 128).setFld (fCHCFG_WRAPTOP 7) 31
     let s : State := eng { pc := 30, tx := [9], acc := 65535 } s
     let s : State := s.setFld (fCHPROG_INSTR (32 * 7 + 30)) w
     let s : State := { s with chor := { s.chor with still := 0 } }
     let e := s.che n
     let due := s.fld fCHSTAT_RUNNING = 2 ^ n ∧ s.chDiv n ≤ e.acc + 256 ∧ e.delay = 0 ∧ e.inj = none ∧ e.stall = none ∧ e.susp = none ∧
       s.chor.still = 0 ∧ e.pc < 31 ∧ e.pc ≠ s.fld (fCHCFG_WRAPTOP n) ∧ s.chWord n e.pc = w
     n < 8 ∧
     s.chor.eng.length = 8 ∧
     s.rootStopped = false ∧
     g < 2 ^ 16 ∧
     due ∧
     w = 0x8080 ∧
     e.tx = x :: r) ∧
    (let n : Nat := 7
     let g : Nat := 65535
     let w : Nat := 0x8080
     let s : State := ((up .cell).setFld fCHSTAT_RUNNING 128).setFld (fCHCFG_WRAPTOP 7) 31
     let s : State := eng { pc := 30, tx := [9], acc := 65535 } s
     let s : State := s.setFld (fCHPROG_INSTR (32 * 7 + 30)) w
     let s : State := eng { pc := 30, acc := 65535 } s
     let s : State := { s with chor := { s.chor with still := 0 } }
     let e := s.che n
     let due := s.fld fCHSTAT_RUNNING = 2 ^ n ∧ s.chDiv n ≤ e.acc + 256 ∧ e.delay = 0 ∧ e.inj = none ∧ e.stall = none ∧ e.susp = none ∧
       s.chor.still = 0 ∧ e.pc < 31 ∧ e.pc ≠ s.fld (fCHCFG_WRAPTOP n) ∧ s.chWord n e.pc = w
     n < 8 ∧
     s.chor.eng.length = 8 ∧
     s.rootStopped = false ∧
     g < 2 ^ 16 ∧
     due ∧
     w = 0x8080 ∧
     e.tx = []) ∧
    (let n : Nat := 7
     let g : Nat := 65535
     let w : Nat := 0x8000
     let s : State := ((up .cell).setFld fCHSTAT_RUNNING 128).setFld (fCHCFG_WRAPTOP 7) 31
     let s : State := eng { pc := 30, tx := [9], acc := 65535 } s
     let s : State := s.setFld (fCHPROG_INSTR (32 * 7 + 30)) w
     let s : State := { s with chor := { s.chor with still := 0 } }
     let e := s.che n
     let due := s.fld fCHSTAT_RUNNING = 2 ^ n ∧ s.chDiv n ≤ e.acc + 256 ∧ e.delay = 0 ∧ e.inj = none ∧ e.stall = none ∧ e.susp = none ∧
       s.chor.still = 0 ∧ e.pc < 31 ∧ e.pc ≠ s.fld (fCHCFG_WRAPTOP n) ∧ s.chWord n e.pc = w
     n < 8 ∧
     s.chor.eng.length = 8 ∧
     s.rootStopped = false ∧
     g < 2 ^ 16 ∧
     due ∧
     w = 0x8000 ∧
     e.rx.length < s.rxCap n) ∧
    (let n : Nat := 7
     let g : Nat := 65535
     let w : Nat := 0xC003
     let s : State := ((up .cell).setFld fCHSTAT_RUNNING 128).setFld (fCHCFG_WRAPTOP 7) 31
     let s : State := eng { pc := 30, tx := [9], acc := 65535 } s
     let s : State := s.setFld (fCHPROG_INSTR (32 * 7 + 30)) w
     let s : State := { s with chor := { s.chor with still := 0 } }
     let e := s.che n
     let due := s.fld fCHSTAT_RUNNING = 2 ^ n ∧ s.chDiv n ≤ e.acc + 256 ∧ e.delay = 0 ∧ e.inj = none ∧ e.stall = none ∧ e.susp = none ∧
       s.chor.still = 0 ∧ e.pc < 31 ∧ e.pc ≠ s.fld (fCHCFG_WRAPTOP n) ∧ s.chWord n e.pc = w
     n < 8 ∧
     s.chor.eng.length = 8 ∧
     s.rootStopped = false ∧
     g < 2 ^ 16 ∧
     due ∧
     w = 0xC003) ∧
    (let n : Nat := 7
     let g : Nat := 65535
     let w : Nat := 0xFFFF
     let s : State := ((up .cell).setFld fCHSTAT_RUNNING 128).setFld (fCHCFG_WRAPTOP 7) 31
     let s : State := { s with rst := { s.rst with hold := true } }
     let s : State := eng { pc := 30, tx := [9], acc := 65535 } s
     let s : State := s.setFld (fCHPROG_INSTR (32 * 7 + 30)) w
     let s : State := { s with chor := { s.chor with still := 0 } }
     let s : State := { s with chor := { s.chor with touchEng := none } }
     let e := s.che n
     let due := s.fld fCHSTAT_RUNNING = 2 ^ n ∧ s.chDiv n ≤ e.acc + 256 ∧ e.delay = 0 ∧ e.inj = none ∧ e.stall = none ∧ e.susp = none ∧
       s.chor.still = 0 ∧ e.pc < 31 ∧ e.pc ≠ s.fld (fCHCFG_WRAPTOP n) ∧ s.chWord n e.pc = w
     n < 8 ∧
     s.chor.eng.length = 8 ∧
     s.rootStopped = false ∧
     g < 2 ^ 16 ∧
     due ∧
     w = 0xFFFF ∧
     s.chor.touchEng = none ∧
     s.rhocoUp = false) ∧
    (let n : Nat := 7
     let g : Nat := 65535
     let s : State := ((up .cell).setFld fCHSTAT_RUNNING 128).setFld (fCHCFG_WRAPTOP 7) 31
     let s : State := ((s.setFld fCHSTARTH_ARM 1).setFld fCHSTARTH_MASK 128).setFld fCHSTARTL_TIME 1
     let s : State := s.setFld fCHSTAT_RUNNING 0
     let s : State := { s with chor := { s.chor with still := 0 } }
     let s : State := s.setFld fCHSTARTH_ARM 1
     n < 8 ∧
     s.chor.eng.length = 8 ∧
     s.rootStopped = false ∧
     g < 2 ^ 16 ∧
     s.fld fCHSTAT_RUNNING = 0 ∧
     s.chor.still = 0 ∧
     s.on fCHSTARTH_ARM = true ∧
     s.fld fCHSTARTH_MASK = 2 ^ n ∧
     s.chor.act < 2 ^ 48 - 1 ∧
     s.fld fCHSTARTL_TIME + s.fld fCHSTARTH_TIME * 2 ^ 32 = s.chor.act + 1) ∧
    (let n : Nat := 7
     let g : Nat := 65535
     let s : State := ((up .cell).setFld fCHSTAT_RUNNING 128).setFld (fCHCFG_WRAPTOP 7) 31
     let s : State := s.setFld fCHSTARTH_ARM 0
     n < 8 ∧
     s.chor.eng.length = 8 ∧
     s.rootStopped = false ∧
     g < 2 ^ 16 ∧
     s.on fCHSTARTH_ARM = false) ∧
    (let n : Nat := 7
     let g : Nat := 65535
     let s : State := ((up .cell).setFld fCHSTAT_RUNNING 128).setFld (fCHCFG_WRAPTOP 7) 31
     let s : State := eng { stall := some ⟨0, 0, false, 0, 0, 0, 0⟩ } s
     let s : State := { s.setFld (fCHCNT_STALLTMO 7) 1 with rst := { s.rst with hold := true } }
     let s : State := s.setFld (fCHCNT_STALLTMO n) 1
     let e := s.che n
     n < 8 ∧
     s.chor.eng.length = 8 ∧
     s.rootStopped = false ∧
     g < 2 ^ 16 ∧
     e.stall.isSome = true ∧
     s.chRuns n = true ∧
     s.on (fCHCNT_STALLTMO n) = true ∧
     e.posted = false ∧
     s.rhocoUp = false) ∧
    (let n : Nat := 7
     let g : Nat := 65535
     let s : State := ((up .cell).setFld fCHSTAT_RUNNING 128).setFld (fCHCFG_WRAPTOP 7) 31
     let e := s.che n
     n < 8 ∧
     s.chor.eng.length = 8 ∧
     s.rootStopped = false ∧
     g < 2 ^ 16 ∧
     e.stall = none) := by
  refine ⟨?_, ?_, ?_, ?_, ?_, ?_, ?_, ?_, ?_, ?_, ?_, ?_⟩ <;> decide +kernel

/-- What the hypotheses of ChoristerRegistersAndDescriptors are met by (ChoristerDescriptors), clause by clause. -/
theorem witness_ChoristerDescriptors :
    (let d : Desc := ds 0 [7]
     let s : State := up .cell
     let s : State := s.setFld fSACCLAIM_CLAIM 0
     let s : State := s.setFld fCHSTAT_RUNNING 0
     let s : State := s.setFld fCHSTARTH_ARM 0
     s.ready d = true ∧
     s.fld fSACCLAIM_CLAIM = 0 ∧
     s.chor.eng.length = 8 ∧
     s.rootStopped = false ∧
     s.fld fCHSTAT_RUNNING = 0 ∧
     s.on fCHSTARTH_ARM = false ∧
     dsArg d 0 < 8) ∧
    (let d : Desc := ds 0 [7, 31, 1]
     let s : State := up .cell
     let s : State := s.setFld fSACCLAIM_CLAIM 0
     let s : State := s.setFld fCHSTAT_RUNNING 0
     let s : State := s.setFld fCHSTARTH_ARM 0
     let k := dsArg d 1
     s.ready d = true ∧
     s.fld fSACCLAIM_CLAIM = 0 ∧
     s.chor.eng.length = 8 ∧
     s.rootStopped = false ∧
     s.fld fCHSTAT_RUNNING = 0 ∧
     s.on fCHSTARTH_ARM = false ∧
     dsArg d 0 < 8 ∧
     k < 32 ∧
     dsArg d 2 = 1) ∧
    (let d : Desc := ds 0 [7, 31, 2]
     let s : State := up .cell
     let s : State := s.setFld fSACCLAIM_CLAIM 0
     let s : State := s.setFld fCHSTAT_RUNNING 0
     let s : State := s.setFld fCHSTARTH_ARM 0
     let k := dsArg d 1
     s.ready d = true ∧
     s.fld fSACCLAIM_CLAIM = 0 ∧
     s.chor.eng.length = 8 ∧
     s.rootStopped = false ∧
     s.fld fCHSTAT_RUNNING = 0 ∧
     s.on fCHSTARTH_ARM = false ∧
     dsArg d 0 < 8 ∧
     32 < k + dsArg d 2) ∧
    (let d : Desc := ds 0 [7]
     let s : State := up .cell
     let s : State := s.setFld fSACCLAIM_CLAIM 0
     let s : State := s.setFld fCHSTAT_RUNNING 0
     let s : State := s.setFld fCHSTARTH_ARM 0
     let k := dsArg d 1
     s.ready d = true ∧
     s.fld fSACCLAIM_CLAIM = 0 ∧
     s.chor.eng.length = 8 ∧
     s.rootStopped = false ∧
     s.fld fCHSTAT_RUNNING = 0 ∧
     s.on fCHSTARTH_ARM = false ∧
     dsArg d 0 < 8 ∧
     k = 0) ∧
    (let d : Desc := ds 0 [7]
     let s : State := up .cell
     let s : State := s.setFld fSACCLAIM_CLAIM 0
     let s : State := s.setFld fCHSTAT_RUNNING 0
     let s : State := s.setFld fCHSTARTH_ARM 0
     let s : State := s.setFld fCHCTL_EN 0
     s.ready d = true ∧
     s.fld fSACCLAIM_CLAIM = 0 ∧
     s.chor.eng.length = 8 ∧
     s.rootStopped = false ∧
     s.fld fCHSTAT_RUNNING = 0 ∧
     s.on fCHSTARTH_ARM = false ∧
     dsArg d 0 < 8 ∧
     s.fld fCHCTL_EN = 0) ∧
    (let d : Desc := ds 0 [7, 1]
     let s : State := up .cell
     let s : State := s.setFld fSACCLAIM_CLAIM 0
     let s : State := s.setFld fCHSTAT_RUNNING 0
     let s : State := s.setFld fCHSTARTH_ARM 0
     let n := dsArg d 0
     let e := s.che n
     let k := dsArg d 1
     s.ready d = true ∧
     s.fld fSACCLAIM_CLAIM = 0 ∧
     s.chor.eng.length = 8 ∧
     s.rootStopped = false ∧
     s.fld fCHSTAT_RUNNING = 0 ∧
     s.on fCHSTARTH_ARM = false ∧
     dsArg d 0 < 8 ∧
     k = 1 ∧
     e.tx = [] ∧
     s.fld (fCHCFG_JOIN n) = 0) ∧
    (let d : Desc := ds 0 [7, 1]
     let s : State := up .cell
     let s : State := eng { tx := [1, 2, 3, 4] } s
     let s : State := s.setFld fSACCLAIM_CLAIM 0
     let s : State := s.setFld fCHSTAT_RUNNING 0
     let s : State := s.setFld fCHSTARTH_ARM 0
     let n := dsArg d 0
     let e := s.che n
     let k := dsArg d 1
     s.ready d = true ∧
     s.fld fSACCLAIM_CLAIM = 0 ∧
     s.chor.eng.length = 8 ∧
     s.rootStopped = false ∧
     s.fld fCHSTAT_RUNNING = 0 ∧
     s.on fCHSTARTH_ARM = false ∧
     dsArg d 0 < 8 ∧
     k = 1 ∧
     e.tx.length = 4 ∧
     s.fld (fCHCFG_JOIN n) = 0) ∧
    (let d : Desc := ds 0 [7]
     let s : State := up .cell
     let s : State := s.setFld fSACCLAIM_CLAIM 0
     let s : State := s.setFld fCHSTAT_RUNNING 0
     let s : State := s.setFld fCHSTARTH_ARM 0
     let k := dsArg d 1
     s.ready d = true ∧
     s.fld fSACCLAIM_CLAIM = 0 ∧
     s.chor.eng.length = 8 ∧
     s.rootStopped = false ∧
     s.fld fCHSTAT_RUNNING = 0 ∧
     s.on fCHSTARTH_ARM = false ∧
     dsArg d 0 < 8 ∧
     k = 0) ∧
    (let d : Desc := ds 0 [7, 1]
     let x := 5
     let s : State := up .cell
     let s : State := eng { rx := [5] } s
     let s : State := s.setFld fSACCLAIM_CLAIM 0
     let s : State := s.setFld fCHSTAT_RUNNING 0
     let s : State := s.setFld fCHSTARTH_ARM 0
     let n := dsArg d 0
     let e := s.che n
     let k := dsArg d 1
     s.ready d = true ∧
     s.fld fSACCLAIM_CLAIM = 0 ∧
     s.chor.eng.length = 8 ∧
     s.rootStopped = false ∧
     s.fld fCHSTAT_RUNNING = 0 ∧
     s.on fCHSTARTH_ARM = false ∧
     dsArg d 0 < 8 ∧
     k = 1 ∧
     e.rx = [x]) ∧
    (let d : Desc := ds 0 [7, 0, 0xFF, 0xFF]
     let s : State := up .cell
     let s : State := s.setFld fSACCLAIM_CLAIM 0
     let s : State := s.setFld fCHSTAT_RUNNING 0
     let s : State := s.setFld fCHSTARTH_ARM 0
     s.ready d = true ∧
     s.fld fSACCLAIM_CLAIM = 0 ∧
     s.chor.eng.length = 8 ∧
     s.rootStopped = false ∧
     s.fld fCHSTAT_RUNNING = 0 ∧
     s.on fCHSTARTH_ARM = false ∧
     dsArg d 0 < 8 ∧
     chReserved (dsArgs d 2 2) = true) ∧
    (let d : Desc := ds 0 [7]
     let s : State := up .cell
     let s : State := s.setFld fSACCLAIM_CLAIM 0
     let s : State := s.setFld fCHSTAT_RUNNING 0
     let s : State := s.setFld fCHSTARTH_ARM 0
     let n := dsArg d 0
     let e := s.che n
     s.ready d = true ∧
     s.fld fSACCLAIM_CLAIM = 0 ∧
     s.chor.eng.length = 8 ∧
     s.rootStopped = false ∧
     s.fld fCHSTAT_RUNNING = 0 ∧
     s.on fCHSTARTH_ARM = false ∧
     dsArg d 0 < 8 ∧
     chReserved (dsArgs d 2 2) = false ∧
     e.inj = none) ∧
    (let d : Desc := ds 0 [7]
     let s : State := up .cell
     let s : State := s.setFld fSACCLAIM_CLAIM 0
     let s : State := s.setFld fCHSTAT_RUNNING 0
     let s : State := s.setFld fCHSTARTH_ARM 0
     let n := dsArg d 0
     let e := s.che n
     s.ready d = true ∧
     s.fld fSACCLAIM_CLAIM = 0 ∧
     s.chor.eng.length = 8 ∧
     s.rootStopped = false ∧
     s.fld fCHSTAT_RUNNING = 0 ∧
     s.on fCHSTARTH_ARM = false ∧
     dsArg d 0 < 8 ∧
     e.stall = none) := by
  refine ⟨?_, ?_, ?_, ?_, ?_, ?_, ?_, ?_, ?_, ?_, ?_, ?_⟩ <;> decide +kernel

/-- What the hypotheses of CantorisPower are met by, clause by clause. -/
theorem witness_CantorisPower :
    (let s : State := up .cell
     s.awake = true) ∧
    (let s : State := up .cell
     let s : State := s
     let s : State := s.setFld fCANTSTAT_STATE 0
     let s : State := s.setFld fCANTCTL_RUN 0
     let st := s.fld fCANTSTAT_STATE
     s.awake = true ∧
     st = 0 ∧
     s.on fCANTCTL_RUN = false) ∧
    (let s : State := up .cell
     let s : State := s.setFld fCANTSTAT_STATE 1
     let s : State := s.setFld fCANTSTAT_STATE 1
     let s : State := s.setFld fCANTCTL_RUN 0
     let st := s.fld fCANTSTAT_STATE
     s.awake = true ∧
     st = 1 ∧
     s.on fCANTCTL_RUN = false) ∧
    (let s : State := up .cell
     let st := s.fld fCANTSTAT_STATE
     s.awake = true ∧
     st ≠ 1) ∧
    (let s : State := up .cell
     let s : State := { s with cant := { s.cant with fresh := true } }
     let s : State := s.setFld fCANTSTAT_STATE 2
     let s : State := s.setFld fPWRTOK_GRANT 3
     let s : State := s.setFld fCANTSTAT_STATE 2
     let s : State := s.setFld fCANTCTL_PWR 1
     let s : State := { s with cant := { s.cant with fresh := true } }
     let s : State := { s with cant := { s.cant with waiting := false } }
     let st := s.fld fCANTSTAT_STATE
     s.awake = true ∧
     st = 2 ∧
     s.on fCANTCTL_PWR = true ∧
     s.cant.fresh = true ∧
     s.cant.waiting = false ∧
     s.tokensRefuse (s.needNow + 3) = false) ∧
    (let s : State := up .cell
     let s : State := s.setFld fCANTSTAT_STATE 2
     let s : State := s.setFld fPWRTOK_GRANT 3
     let s : State := s.setFld fCANTSTAT_STATE 2
     let s : State := s.setFld fCANTCTL_PWR 1
     let s : State := { s with cant := { s.cant with fresh := false } }
     let s : State := { s with cant := { s.cant with waiting := false } }
     let st := s.fld fCANTSTAT_STATE
     s.awake = true ∧
     st = 2 ∧
     s.on fCANTCTL_PWR = true ∧
     s.cant.fresh = false ∧
     s.cant.waiting = false ∧
     s.tokensRefuse (s.needNow + 3) = false) ∧
    (let s : State := up .cell
     let s : State := s.setFld fCANTSTAT_STATE 2
     let s : State := s.setFld fCANTSTAT_STATE 2
     let s : State := s.setFld fCANTCTL_PWR 1
     let st := s.fld fCANTSTAT_STATE
     s.awake = true ∧
     st = 2 ∧
     s.on fCANTCTL_PWR = true ∧
     s.tokensRefuse (s.needNow + 3) = true) ∧
    (let s : State := up .cell
     let s : State := s.setFld fCANTSTAT_STATE 3
     let s : State := s.setFld fCANTSTAT_STATE 3
     let s : State := s.setFld fCANTCTL_PWR 1
     let st := s.fld fCANTSTAT_STATE
     s.awake = true ∧
     st = 3 ∧
     s.on fCANTCTL_PWR = true) ∧
    (let s : State := up .cell
     let s : State := s.setFld fCANTSTAT_STATE 5
     let s : State := s.setFld fCANTCTL_RUN 0
     let s : State := { s with cant := { s.cant with sbuf := [] } }
     let s : State := { s with cant := { s.cant with dc := [] } }
     let st := s.fld fCANTSTAT_STATE
     s.awake = true ∧
     st ≠ 0 ∧
     s.on fCANTCTL_RUN = false ∧
     s.cant.sbuf = [] ∧
     s.cant.dc = []) ∧
    (let s : State := up .cell
     let s : State := s.setFld fCANTSTAT_STATE 5
     let s : State := s.setFld fCANTSTAT_STATE 5
     let s : State := s.setFld fCANTCTL_RUN 1
     let s : State := { s with pwr := { s.pwr with shedXcall := false } }
     let st := s.fld fCANTSTAT_STATE
     s.awake = true ∧
     st = 5 ∧
     s.on fCANTCTL_RUN = true ∧
     s.pwr.shedXcall = false ∧
     s.cant.gpr.length = 16) ∧
    (let s : State := up .cell
     let s : State := s.setFld fCANTSTAT_STATE 3
     let s : State := s.setFld fCANTSTAT_STATE 3
     let st := s.fld fCANTSTAT_STATE
     s.awake = true ∧
     st = 3) := by
  refine ⟨?_, ?_, ?_, ?_, ?_, ?_, ?_, ?_, ?_, ?_, ?_⟩ <;> decide +kernel

/-- What the hypotheses of SelfTest are met by (SelfTestSlices), clause by clause. -/
theorem witness_SelfTestSlices :
    (let s : State := up .cell
     let s : State := s.setFld (fWAKEALMH_ARM 2) 1
     let s : State := { s with st := { s.st with req := none } }
     let s : State := { s with st := { s.st with heldWr := [] } }
     s.on (fWAKEALMH_ARM 2) = true ∧
     s.st.req = none ∧
     s.st.heldWr = []) ∧
    (let n : Fin 64 := 63
     let s : State := up .cell
     let s : State := s.setFld (fWAKEALMH_ARM 2) 1
     let s : State := { s with st := { s.st with req := none } }
     let s : State := { s with st := { s.st with heldWr := [] } }
     let s : State := s.setFld fSTSTAT_BUSY 0
     s.on (fWAKEALMH_ARM 2) = true ∧
     s.st.req = none ∧
     s.st.heldWr = [] ∧
     s.on fSTSTAT_BUSY = false ∧
     s.sliceApplies n.val = true) ∧
    (let s : State := up .cell
     let s : State := s.setFld (fWAKEALMH_ARM 2) 1
     let s : State := { s with st := { s.st with req := none } }
     let s : State := { s with st := { s.st with heldWr := [] } }
     let s : State := s.setFld fSTSTAT_BUSY 1
     s.on (fWAKEALMH_ARM 2) = true ∧
     s.st.req = none ∧
     s.st.heldWr = [] ∧
     s.on fSTSTAT_BUSY = true) ∧
    (let n : Fin 64 := 63
     let s : State := up .cell
     let s : State := { s with st := { s.st with cur := some 63 } }
     let s : State := s.setFld (fWAKEALMH_ARM 2) 1
     let s : State := { s with st := { s.st with req := none } }
     let s : State := { s with st := { s.st with heldWr := [] } }
     let s : State := { s with st := { s.st with running := false } }
     let s : State := { s with st := { s.st with cur := some n.val } }
     let s : State := s.setFld fPWRSRC_VCOREOK 1
     let s : State := s.setFld fCLKSTAT_PLLLOCK 1
     let plain := n.val = 14 ∨ n.val = 29 ∨ n.val = 63
     let good := s.on fPWRSRC_VCOREOK = true ∧ s.on fCLKSTAT_PLLLOCK = true
     let waits := s.st.running = false ∧ s.st.cur = some n.val
     s.on (fWAKEALMH_ARM 2) = true ∧
     s.st.req = none ∧
     s.st.heldWr = [] ∧
     waits ∧
     plain ∧
     good) ∧
    (let n : Fin 64 := 63
     let s : State := up .cell
     let s : State := { s with st := { s.st with cur := some 63 } }
     let s : State := s.setFld (fWAKEALMH_ARM 2) 1
     let s : State := { s with st := { s.st with req := none } }
     let s : State := { s with st := { s.st with heldWr := [] } }
     let s : State := { s with st := { s.st with running := false } }
     let s : State := { s with st := { s.st with cur := some n.val } }
     let s : State := s.setFld fPWRSRC_VCOREOK 0
     let s : State := { s with st := { s.st with skips := 0 } }
     let plain := n.val = 14 ∨ n.val = 29 ∨ n.val = 63
     let waits := s.st.running = false ∧ s.st.cur = some n.val
     s.on (fWAKEALMH_ARM 2) = true ∧
     s.st.req = none ∧
     s.st.heldWr = [] ∧
     waits ∧
     plain ∧
     s.on fPWRSRC_VCOREOK = false ∧
     s.st.skips = 0) ∧
    (let s : State := up .cell
     let s : State := s.setFld (fWAKEALMH_ARM 2) 1
     let s : State := { s with st := { s.st with req := none } }
     let s : State := { s with st := { s.st with heldWr := [] } }
     let s : State := { s with st := { s.st with cur := none } }
     s.on (fWAKEALMH_ARM 2) = true ∧
     s.st.req = none ∧
     s.st.heldWr = [] ∧
     s.st.cur = none) ∧
    (let n : Fin 64 := 63
     let g : Word := 1
     let s : State := up .cell
     let s : State := { s with st := { s.st with cur := some 63, running := true }, mem := { s.mem with cells := [(0x3FFFC, 1), (0x3FFFD, 0), (0x3FFFE, 0), (0x3FFFF, 0)] } }
     let s : State := s.setFld (fWAKEALMH_ARM 2) 1
     let s : State := { s with st := { s.st with req := none } }
     let s : State := { s with st := { s.st with heldWr := [] } }
     let s : State := { s with st := { s.st with running := true } }
     let s : State := { s with st := { s.st with cur := some n.val } }
     let s : State := s.setFld fSTSTAT_RETRIES 0
     let plain := n.val = 14 ∨ n.val = 29 ∨ n.val = 63
     let runs := s.st.running = true ∧ s.st.cur = some n.val
     s.on (fWAKEALMH_ARM 2) = true ∧
     s.st.req = none ∧
     s.st.heldWr = [] ∧
     runs ∧
     plain ∧
     s.fld fSTSTAT_RETRIES = 0 ∧
     g.toNat = s.mem.word (0x3FF00 + 4 * n.val)) ∧
    (let n : Fin 64 := 63
     let g : Word := 0
     let s : State := up .cell
     let s : State := { s with st := { s.st with cur := some 63, running := true }, mem := { s.mem with cells := [(0x3FFFC, 1), (0x3FFFD, 0), (0x3FFFE, 0), (0x3FFFF, 0)] } }
     let s : State := s.setFld fSTSTAT_RETRIES 2
     let s : State := s.setFld (fWAKEALMH_ARM 2) 1
     let s : State := { s with st := { s.st with req := none } }
     let s : State := { s with st := { s.st with heldWr := [] } }
     let s : State := { s with st := { s.st with running := true } }
     let s : State := { s with st := { s.st with cur := some n.val } }
     let plain := n.val = 14 ∨ n.val = 29 ∨ n.val = 63
     let runs := s.st.running = true ∧ s.st.cur = some n.val
     s.on (fWAKEALMH_ARM 2) = true ∧
     s.st.req = none ∧
     s.st.heldWr = [] ∧
     runs ∧
     plain ∧
     s.fld fSTSTAT_RETRIES < 3 ∧
     g.toNat ≠ s.mem.word (0x3FF00 + 4 * n.val)) ∧
    (let n : Fin 64 := 63
     let g : Word := 0
     let s : State := up .cell
     let s : State := { s with st := { s.st with cur := some 63, running := true }, mem := { s.mem with cells := [(0x3FFFC, 1), (0x3FFFD, 0), (0x3FFFE, 0), (0x3FFFF, 0)] } }
     let s : State := { s with rst := { s.rst with hold := true } }
     let s : State := s.setFld (fWAKEALMH_ARM 2) 1
     let s : State := { s with st := { s.st with req := none } }
     let s : State := { s with st := { s.st with heldWr := [] } }
     let s : State := { s with st := { s.st with running := true } }
     let s : State := { s with st := { s.st with cur := some n.val } }
     let s : State := s.setFld fSTSTAT_RETRIES 3
     let runs := s.st.running = true ∧ s.st.cur = some n.val
     s.on (fWAKEALMH_ARM 2) = true ∧
     s.st.req = none ∧
     s.st.heldWr = [] ∧
     runs ∧
     n.val = 63 ∧
     s.fld fSTSTAT_RETRIES = 3 ∧
     g.toNat ≠ s.mem.word (0x3FF00 + 4 * 63) ∧
     s.rhocoUp = false) ∧
    (let n : Fin 64 := 63
     let s : State := up .cell
     let s : State := { s with st := { s.st with cur := some 63, running := true } }
     let s : State := s.setFld (fWAKEALMH_ARM 2) 1
     let s : State := { s with st := { s.st with req := none } }
     let s : State := { s with st := { s.st with heldWr := [] } }
     let s : State := { s with st := { s.st with running := true } }
     let s : State := { s with st := { s.st with cur := some n.val } }
     let s : State := s.setFld fPWRSRC_VCOREOK 1
     let s : State := s.setFld fCLKSTAT_PLLLOCK 1
     let plain := n.val = 14 ∨ n.val = 29 ∨ n.val = 63
     let good := s.on fPWRSRC_VCOREOK = true ∧ s.on fCLKSTAT_PLLLOCK = true
     let runs := s.st.running = true ∧ s.st.cur = some n.val
     s.on (fWAKEALMH_ARM 2) = true ∧
     s.st.req = none ∧
     s.st.heldWr = [] ∧
     runs ∧
     plain ∧
     good) ∧
    (let n : Fin 64 := 63
     let s : State := up .cell
     let s : State := { s with st := { s.st with cur := some 63, running := true } }
     let s : State := s.setFld (fWAKEALMH_ARM 2) 1
     let s : State := { s with st := { s.st with req := none } }
     let s : State := { s with st := { s.st with heldWr := [] } }
     let s : State := { s with st := { s.st with running := true } }
     let s : State := { s with st := { s.st with cur := some n.val } }
     let s : State := s.setFld fCLKSTAT_PLLLOCK 0
     let plain := n.val = 14 ∨ n.val = 29 ∨ n.val = 63
     let runs := s.st.running = true ∧ s.st.cur = some n.val
     s.on (fWAKEALMH_ARM 2) = true ∧
     s.st.req = none ∧
     s.st.heldWr = [] ∧
     runs ∧
     plain ∧
     s.on fCLKSTAT_PLLLOCK = false) ∧
    (let n : Fin 64 := 63
     let s : State := up .cell
     let s : State := { s with st := { s.st with cur := some 63 } }
     let s : State := s.setFld (fWAKEALMH_ARM 2) 1
     let s : State := { s with st := { s.st with req := none } }
     let s : State := { s with st := { s.st with heldWr := [] } }
     let s : State := { s with st := { s.st with running := false } }
     let s : State := { s with st := { s.st with cur := some n.val } }
     let s : State := { s with st := { s.st with skips := 0 } }
     let waits := s.st.running = false ∧ s.st.cur = some n.val
     s.on (fWAKEALMH_ARM 2) = true ∧
     s.st.req = none ∧
     s.st.heldWr = [] ∧
     waits ∧
     s.st.skips = 0) ∧
    (let s : State := up .cell
     let s : State := s.setFld (fWAKEALMH_ARM 2) 1
     let s : State := { s with st := { s.st with req := none } }
     let s : State := { s with st := { s.st with heldWr := [] } }
     let s : State := { s with rst := { s.rst with booted := true } }
     s.on (fWAKEALMH_ARM 2) = true ∧
     s.st.req = none ∧
     s.st.heldWr = [] ∧
     s.rhocoUp = true ∧
     s.rst.booted = true) := by
  refine ⟨?_, ?_, ?_, ?_, ?_, ?_, ?_, ?_, ?_, ?_, ?_, ?_, ?_⟩ <;> decide +kernel

/-- What the hypotheses of SelfTest are met by (SelfTestDescriptors), clause by clause. -/
theorem witness_SelfTestDescriptors :
    (let d : Desc := ds 0 []
     let s : State := up .cell
     s.ready d = true) ∧
    (let d : Desc := ds 0 (args [(0, 2, 3600)])
     let s : State := up .cell
     s.ready d = true ∧
     0 < dsArgs d 0 2 ∧
     dsArgs d 0 2 ≤ 3600 ∧
     s.cfgBusy = false) ∧
    (let d : Desc := ds 0 (args [(0, 2, 0)])
     let s : State := up .cell
     s.ready d = true ∧
     dsArgs d 0 2 = 0) ∧
    (let d : Desc := ds 0 (args [(0, 1, 63)])
     let s : State := up .cell
     let s : State := { s with st := { s.st with cur := none } }
     s.ready d = true ∧
     s.st.cur = none ∧
     dsArg d 0 < 64 ∧
     s.sliceApplies (dsArg d 0) = true) ∧
    (let d : Desc := ds 0 (args [(0, 1, 255)])
     let s : State := up .cell
     let s : State := { s with st := { s.st with cur := none } }
     s.ready d = true ∧
     s.st.cur = none ∧
     dsArg d 0 = 0xFF) ∧
    (let d : Desc := ds 0 [16]
     let s : State := up .cell
     let s : State := { s with st := { s.st with cur := none } }
     s.ready d = true ∧
     s.st.cur = none ∧
     dsArg d 0 < 64 ∧
     s.sliceApplies (dsArg d 0) = false) ∧
    (let d : Desc := ds 0 []
     let s : State := up .cell
     let s : State := { s with st := { s.st with cur := some 3 } }
     s.ready d = true ∧
     s.st.cur.isSome = true) := by
  refine ⟨?_, ?_, ?_, ?_, ?_, ?_, ?_⟩ <;> decide +kernel

/-- What the hypotheses of HostLink are met by (HostLinkResets), clause by clause. -/
theorem witness_HostLinkResets :
    (let s : State := up .chapter
     let s : State := { s with role := .chapter }
     let s : State := s.setFld fHLSTAT_LINKUP 1
     let s : State := { s with hl := { s.hl with winAsk := none } }
     s.role = .chapter ∧
     s.on fHLSTAT_LINKUP = true ∧
     s.hl.winAsk = none) := by
  decide +kernel

/-- What the hypotheses of HostLink are met by (HostLinkAccess), clause by clause. -/
theorem witness_HostLinkAccess :
    (let w : Nat := 0xFFFFFFFF
     let s : State := up .chapter
     let s : State := { s with hl := { s.hl with vecs := List.replicate 64 ⟨0, 0, false⟩ } }
     let s : State := { s with role := .chapter }
     let s : State := { s with scr := { s.scr with rings := [] } }
     let s : State := { s with scr := { s.scr with held := [] } }
     let s : State := { s with scr := { s.scr with recq := [] } }
     let s : State := { s with scr := { s.scr with fences := [] } }
     s.role = .chapter ∧
     s.scr.rings = [] ∧
     s.scr.held = [] ∧
     s.scr.recq = [] ∧
     s.scr.fences = [] ∧
     w < 2 ^ 32 ∧
     s.hl.vecs.length = 64) ∧
    (let w : Nat := 0xFFFFFFFF
     let s : State := up .chapter
     let s : State := { s with hl := { s.hl with vecs := List.replicate 64 ⟨0, 0, false⟩ } }
     let s : State := { s with role := .chapter }
     let s : State := { s with scr := { s.scr with rings := [] } }
     let s : State := { s with scr := { s.scr with held := [] } }
     let s : State := { s with scr := { s.scr with recq := [] } }
     let s : State := { s with scr := { s.scr with fences := [] } }
     let s : State := s.setFld fHLSTAT_LINKUP 0
     let s : State := { s with hl := { s.hl with perstLow := false } }
     let s : State := { s with hl := { s.hl with vphyGood := true } }
     let s : State := { s with hl := { s.hl with refLock := true } }
     let down := s.on fHLSTAT_LINKUP = false
     s.role = .chapter ∧
     s.scr.rings = [] ∧
     s.scr.held = [] ∧
     s.scr.recq = [] ∧
     s.scr.fences = [] ∧
     w < 2 ^ 32 ∧
     s.hl.vecs.length = 64 ∧
     down ∧
     s.hl.perstLow = false ∧
     s.hl.vphyGood = true ∧
     s.hl.refLock = true) ∧
    (let w : Nat := 0xFFFFFFFF
     let s : State := up .chapter
     let s : State := { s with hl := { s.hl with vecs := List.replicate 64 ⟨0, 0, false⟩ } }
     let s : State := { s with role := .chapter }
     let s : State := { s with scr := { s.scr with rings := [] } }
     let s : State := { s with scr := { s.scr with held := [] } }
     let s : State := { s with scr := { s.scr with recq := [] } }
     let s : State := { s with scr := { s.scr with fences := [] } }
     let s : State := { s with hl := { s.hl with vphyGood := false } }
     s.role = .chapter ∧
     s.scr.rings = [] ∧
     s.scr.held = [] ∧
     s.scr.recq = [] ∧
     s.scr.fences = [] ∧
     w < 2 ^ 32 ∧
     s.hl.vecs.length = 64 ∧
     s.hl.vphyGood = false) ∧
    (let w : Nat := 0xFFFFFFFF
     let s : State := up .chapter
     let s : State := { s with hl := { s.hl with vecs := List.replicate 64 ⟨0, 0, false⟩ } }
     let s : State := { s with role := .chapter }
     let s : State := { s with scr := { s.scr with rings := [] } }
     let s : State := { s with scr := { s.scr with held := [] } }
     let s : State := { s with scr := { s.scr with recq := [] } }
     let s : State := { s with scr := { s.scr with fences := [] } }
     let s : State := s.setFld fHLSTAT_LINKUP 0
     let s : State := { s with hl := { s.hl with perstLow := false } }
     let s : State := { s with hl := { s.hl with refLock := true } }
     let down := s.on fHLSTAT_LINKUP = false
     s.role = .chapter ∧
     s.scr.rings = [] ∧
     s.scr.held = [] ∧
     s.scr.recq = [] ∧
     s.scr.fences = [] ∧
     w < 2 ^ 32 ∧
     s.hl.vecs.length = 64 ∧
     down ∧
     s.hl.perstLow = false ∧
     s.hl.refLock = true) ∧
    (let w : Nat := 0xFFFFFFFF
     let s : State := up .chapter
     let s : State := { s with hl := { s.hl with vecs := List.replicate 64 ⟨0, 0, false⟩ } }
     let s : State := { s with role := .chapter }
     let s : State := { s with scr := { s.scr with rings := [] } }
     let s : State := { s with scr := { s.scr with held := [] } }
     let s : State := { s with scr := { s.scr with recq := [] } }
     let s : State := { s with scr := { s.scr with fences := [] } }
     let s : State := s.setFld fHLSTAT_LINKUP 1
     let up := s.on fHLSTAT_LINKUP = true
     s.role = .chapter ∧
     s.scr.rings = [] ∧
     s.scr.held = [] ∧
     s.scr.recq = [] ∧
     s.scr.fences = [] ∧
     w < 2 ^ 32 ∧
     s.hl.vecs.length = 64 ∧
     up) ∧
    (let w : Nat := 0xFFFFFFFF
     let s : State := up .chapter
     let s : State := { s with hl := { s.hl with vecs := List.replicate 64 ⟨0, 0, false⟩ } }
     let s : State := { s with role := .chapter }
     let s : State := { s with scr := { s.scr with rings := [] } }
     let s : State := { s with scr := { s.scr with held := [] } }
     let s : State := { s with scr := { s.scr with recq := [] } }
     let s : State := { s with scr := { s.scr with fences := [] } }
     let s : State := s.setFld fHLSTAT_LINKUP 1
     let up := s.on fHLSTAT_LINKUP = true
     s.role = .chapter ∧
     s.scr.rings = [] ∧
     s.scr.held = [] ∧
     s.scr.recq = [] ∧
     s.scr.fences = [] ∧
     w < 2 ^ 32 ∧
     s.hl.vecs.length = 64 ∧
     up) ∧
    (let w : Nat := 0xFFFFFFFF
     let s : State := up .chapter
     let s : State := { s with hl := { s.hl with vecs := List.replicate 64 ⟨0, 0, false⟩ } }
     let s : State := { s with role := .chapter }
     let s : State := { s with scr := { s.scr with rings := [] } }
     let s : State := { s with scr := { s.scr with held := [] } }
     let s : State := { s with scr := { s.scr with recq := [] } }
     let s : State := { s with scr := { s.scr with fences := [] } }
     let s : State := { s with hl := { s.hl with aer := [] } }
     s.role = .chapter ∧
     s.scr.rings = [] ∧
     s.scr.held = [] ∧
     s.scr.recq = [] ∧
     s.scr.fences = [] ∧
     w < 2 ^ 32 ∧
     s.hl.vecs.length = 64 ∧
     s.hl.aer = []) ∧
    (let w : Nat := 0xFFFFFFFF
     let s : State := up .chapter
     let s : State := { s with hl := { s.hl with vecs := List.replicate 64 ⟨0, 0, false⟩ } }
     let s : State := { s with hl := { s.hl with aer := [3] } }
     let s : State := { s with role := .chapter }
     let s : State := { s with scr := { s.scr with rings := [] } }
     let s : State := { s with scr := { s.scr with held := [] } }
     let s : State := { s with scr := { s.scr with recq := [] } }
     let s : State := { s with scr := { s.scr with fences := [] } }
     s.role = .chapter ∧
     s.scr.rings = [] ∧
     s.scr.held = [] ∧
     s.scr.recq = [] ∧
     s.scr.fences = [] ∧
     w < 2 ^ 32 ∧
     s.hl.vecs.length = 64 ∧
     s.hl.aer ≠ []) ∧
    (let w : Nat := 0xFFFFFFFF
     let s : State := up .chapter
     let s : State := { s with hl := { s.hl with vecs := List.replicate 64 ⟨0, 0, false⟩ } }
     let s : State := { s with role := .chapter }
     let s : State := { s with scr := { s.scr with rings := [] } }
     let s : State := { s with scr := { s.scr with held := [] } }
     let s : State := { s with scr := { s.scr with recq := [] } }
     let s : State := { s with scr := { s.scr with fences := [] } }
     let s : State := s.setFld fHLSTAT_LINKUP 1
     let up := s.on fHLSTAT_LINKUP = true
     s.role = .chapter ∧
     s.scr.rings = [] ∧
     s.scr.held = [] ∧
     s.scr.recq = [] ∧
     s.scr.fences = [] ∧
     w < 2 ^ 32 ∧
     s.hl.vecs.length = 64 ∧
     up) ∧
    (let w : Nat := 0xFFFFFFFF
     let s : State := up .chapter
     let s : State := { s with hl := { s.hl with vecs := List.replicate 64 ⟨0, 0, false⟩ } }
     let s : State := { s with role := .chapter }
     let s : State := { s with scr := { s.scr with rings := [] } }
     let s : State := { s with scr := { s.scr with held := [] } }
     let s : State := { s with scr := { s.scr with recq := [] } }
     let s : State := { s with scr := { s.scr with fences := [] } }
     let s : State := s.setFld fHLSTAT_LINKUP 1
     let s : State := { s with hl := { s.hl with pmeEn := true } }
     let s : State := { s with hl := { s.hl with pmeStatus := true } }
     let up := s.on fHLSTAT_LINKUP = true
     s.role = .chapter ∧
     s.scr.rings = [] ∧
     s.scr.held = [] ∧
     s.scr.recq = [] ∧
     s.scr.fences = [] ∧
     w < 2 ^ 32 ∧
     s.hl.vecs.length = 64 ∧
     up ∧
     s.hl.pmeEn = true ∧
     s.hl.pmeStatus = true) ∧
    (let w : Nat := 0xFFFFFFFF
     let s : State := up .chapter
     let s : State := { s with hl := { s.hl with vecs := List.replicate 64 ⟨0, 0, false⟩ } }
     let s : State := { s with role := .chapter }
     let s : State := { s with scr := { s.scr with rings := [] } }
     let s : State := { s with scr := { s.scr with held := [] } }
     let s : State := { s with scr := { s.scr with recq := [] } }
     let s : State := { s with scr := { s.scr with fences := [] } }
     let s : State := s.setFld fHLSTAT_LINKUP 1
     let s : State := s.setFld fHLCTL_CFGRDY 0
     let up := s.on fHLSTAT_LINKUP = true
     s.role = .chapter ∧
     s.scr.rings = [] ∧
     s.scr.held = [] ∧
     s.scr.recq = [] ∧
     s.scr.fences = [] ∧
     w < 2 ^ 32 ∧
     s.hl.vecs.length = 64 ∧
     up ∧
     s.on fHLCTL_CFGRDY = false) ∧
    (let w : Nat := 0xFFFFFFFF
     let s : State := up .chapter
     let s : State := { s with hl := { s.hl with vecs := List.replicate 64 ⟨0, 0, false⟩ } }
     let s : State := { s with role := .chapter }
     let s : State := { s with scr := { s.scr with rings := [] } }
     let s : State := { s with scr := { s.scr with held := [] } }
     let s : State := { s with scr := { s.scr with recq := [] } }
     let s : State := { s with scr := { s.scr with fences := [] } }
     let s : State := s.setFld fHLSTAT_LINKUP 1
     let s : State := s.setFld fHLCTL_CFGRDY 1
     let up := s.on fHLSTAT_LINKUP = true
     s.role = .chapter ∧
     s.scr.rings = [] ∧
     s.scr.held = [] ∧
     s.scr.recq = [] ∧
     s.scr.fences = [] ∧
     w < 2 ^ 32 ∧
     s.hl.vecs.length = 64 ∧
     up ∧
     s.on fHLCTL_CFGRDY = true) ∧
    (let w : Nat := 0xFFFFFFFF
     let s : State := up .chapter
     let s : State := { s with hl := { s.hl with vecs := List.replicate 64 ⟨0, 0, false⟩ } }
     let s : State := { s with role := .chapter }
     let s : State := { s with scr := { s.scr with rings := [] } }
     let s : State := { s with scr := { s.scr with held := [] } }
     let s : State := { s with scr := { s.scr with recq := [] } }
     let s : State := { s with scr := { s.scr with fences := [] } }
     let s : State := s.setFld fHLSTAT_LINKUP 1
     let s : State := s.setFld fHLCTL_CFGRDY 1
     let up := s.on fHLSTAT_LINKUP = true
     s.role = .chapter ∧
     s.scr.rings = [] ∧
     s.scr.held = [] ∧
     s.scr.recq = [] ∧
     s.scr.fences = [] ∧
     w < 2 ^ 32 ∧
     s.hl.vecs.length = 64 ∧
     up ∧
     s.on fHLCTL_CFGRDY = true) ∧
    (let w : Nat := 0xFFFFFFFF
     let s : State := up .chapter
     let s : State := { s with hl := { s.hl with vecs := List.replicate 64 ⟨0, 0, false⟩ } }
     let s : State := { s with role := .chapter }
     let s : State := { s with scr := { s.scr with rings := [] } }
     let s : State := { s with scr := { s.scr with held := [] } }
     let s : State := { s with scr := { s.scr with recq := [] } }
     let s : State := { s with scr := { s.scr with fences := [] } }
     let s : State := s.setFld fHLSTAT_LINKUP 1
     let up := s.on fHLSTAT_LINKUP = true
     s.role = .chapter ∧
     s.scr.rings = [] ∧
     s.scr.held = [] ∧
     s.scr.recq = [] ∧
     s.scr.fences = [] ∧
     w < 2 ^ 32 ∧
     s.hl.vecs.length = 64 ∧
     up) ∧
    (let w : Nat := 0xFFFFFFFF
     let s : State := up .chapter
     let s : State := { s with hl := { s.hl with vecs := List.replicate 64 ⟨0, 0, false⟩ } }
     let s : State := { s with role := .chapter }
     let s : State := { s with scr := { s.scr with rings := [] } }
     let s : State := { s with scr := { s.scr with held := [] } }
     let s : State := { s with scr := { s.scr with recq := [] } }
     let s : State := { s with scr := { s.scr with fences := [] } }
     let s : State := s.setFld fHLSTAT_LINKUP 1
     let up := s.on fHLSTAT_LINKUP = true
     s.role = .chapter ∧
     s.scr.rings = [] ∧
     s.scr.held = [] ∧
     s.scr.recq = [] ∧
     s.scr.fences = [] ∧
     w < 2 ^ 32 ∧
     s.hl.vecs.length = 64 ∧
     up) ∧
    (let w : Nat := 0xFFFFFFFF
     let s : State := up .chapter
     let s : State := { s with hl := { s.hl with vecs := List.replicate 64 ⟨0, 0, false⟩ } }
     let s : State := { s with role := .chapter }
     let s : State := { s with scr := { s.scr with rings := [] } }
     let s : State := { s with scr := { s.scr with held := [] } }
     let s : State := { s with scr := { s.scr with recq := [] } }
     let s : State := { s with scr := { s.scr with fences := [] } }
     let s : State := s.setFld fHLSTAT_LINKUP 1
     let up := s.on fHLSTAT_LINKUP = true
     s.role = .chapter ∧
     s.scr.rings = [] ∧
     s.scr.held = [] ∧
     s.scr.recq = [] ∧
     s.scr.fences = [] ∧
     w < 2 ^ 32 ∧
     s.hl.vecs.length = 64 ∧
     up) ∧
    (let w : Nat := 0xFFFFFFFF
     let s : State := up .chapter
     let s : State := { s with hl := { s.hl with vecs := List.replicate 64 ⟨0, 0, false⟩ } }
     let s : State := { s with role := .chapter }
     let s : State := { s with scr := { s.scr with rings := [] } }
     let s : State := { s with scr := { s.scr with held := [] } }
     let s : State := { s with scr := { s.scr with recq := [] } }
     let s : State := { s with scr := { s.scr with fences := [] } }
     let s : State := s.setFld fHLSTAT_LINKUP 1
     let up := s.on fHLSTAT_LINKUP = true
     s.role = .chapter ∧
     s.scr.rings = [] ∧
     s.scr.held = [] ∧
     s.scr.recq = [] ∧
     s.scr.fences = [] ∧
     w < 2 ^ 32 ∧
     s.hl.vecs.length = 64 ∧
     up) ∧
    (let w : Nat := 0xFFFFFFFF
     let v : Fin 64 := 63
     let s : State := up .chapter
     let s : State := { s with hl := { s.hl with vecs := List.replicate 64 ⟨0, 0, false⟩ } }
     let s : State := { s with hl := { s.hl with msixEn := true, bme := true } }
     let s : State := { s with role := .chapter }
     let s : State := { s with scr := { s.scr with rings := [] } }
     let s : State := { s with scr := { s.scr with held := [] } }
     let s : State := { s with scr := { s.scr with recq := [] } }
     let s : State := { s with scr := { s.scr with fences := [] } }
     let s : State := { s with hl := { s.hl with pba := [v.val] } }
     s.role = .chapter ∧
     s.scr.rings = [] ∧
     s.scr.held = [] ∧
     s.scr.recq = [] ∧
     s.scr.fences = [] ∧
     w < 2 ^ 32 ∧
     s.hl.vecs.length = 64 ∧
     s.hl.pba = [v.val] ∧
     s.vecReady v.val = true) ∧
    (let w : Nat := 0xFFFFFFFF
     let s : State := up .chapter
     let s : State := { s with hl := { s.hl with vecs := List.replicate 64 ⟨0, 0, false⟩ } }
     let s : State := { s with role := .chapter }
     let s : State := { s with scr := { s.scr with rings := [] } }
     let s : State := { s with scr := { s.scr with held := [] } }
     let s : State := { s with scr := { s.scr with recq := [] } }
     let s : State := { s with scr := { s.scr with fences := [] } }
     let s : State := { s with hl := { s.hl with pba := [] } }
     s.role = .chapter ∧
     s.scr.rings = [] ∧
     s.scr.held = [] ∧
     s.scr.recq = [] ∧
     s.scr.fences = [] ∧
     w < 2 ^ 32 ∧
     s.hl.vecs.length = 64 ∧
     s.hl.pba = []) ∧
    (let w : Nat := 0xFFFFFFFF
     let l : Nat := 4
     let s : State := up .chapter
     let s : State := { s with hl := { s.hl with vecs := List.replicate 64 ⟨0, 0, false⟩ } }
     let s : State := { s with role := .chapter }
     let s : State := { s with scr := { s.scr with rings := [] } }
     let s : State := { s with scr := { s.scr with held := [] } }
     let s : State := { s with scr := { s.scr with recq := [] } }
     let s : State := { s with scr := { s.scr with fences := [] } }
     let s : State := { s with hl := { s.hl with winAsk := some (.decani, l) } }
     let s : State := { s with hl := { s.hl with winAns := none } }
     s.role = .chapter ∧
     s.scr.rings = [] ∧
     s.scr.held = [] ∧
     s.scr.recq = [] ∧
     s.scr.fences = [] ∧
     w < 2 ^ 32 ∧
     s.hl.vecs.length = 64 ∧
     s.hl.winAsk = some (.decani, l) ∧
     s.hl.winAns = none) ∧
    (let w : Nat := 0xFFFFFFFF
     let l : Nat := 4
     let s : State := up .chapter
     let s : State := { s with hl := { s.hl with vecs := List.replicate 64 ⟨0, 0, false⟩ } }
     let s : State := { s with role := .chapter }
     let s : State := { s with scr := { s.scr with rings := [] } }
     let s : State := { s with scr := { s.scr with held := [] } }
     let s : State := { s with scr := { s.scr with recq := [] } }
     let s : State := { s with scr := { s.scr with fences := [] } }
     let s : State := { s with hl := { s.hl with winAsk := some (.decani, l) } }
     s.role = .chapter ∧
     s.scr.rings = [] ∧
     s.scr.held = [] ∧
     s.scr.recq = [] ∧
     s.scr.fences = [] ∧
     w < 2 ^ 32 ∧
     s.hl.vecs.length = 64 ∧
     s.hl.winAsk = some (.decani, l)) ∧
    (let w : Nat := 0xFFFFFFFF
     let s : State := up .chapter
     let s : State := { s with hl := { s.hl with vecs := List.replicate 64 ⟨0, 0, false⟩ } }
     let s : State := { s with role := .chapter }
     let s : State := { s with scr := { s.scr with rings := [] } }
     let s : State := { s with scr := { s.scr with held := [] } }
     let s : State := { s with scr := { s.scr with recq := [] } }
     let s : State := { s with scr := { s.scr with fences := [] } }
     let s : State := { s with hl := { s.hl with winAsk := none } }
     s.role = .chapter ∧
     s.scr.rings = [] ∧
     s.scr.held = [] ∧
     s.scr.recq = [] ∧
     s.scr.fences = [] ∧
     w < 2 ^ 32 ∧
     s.hl.vecs.length = 64 ∧
     s.hl.winAsk = none) := by
  refine ⟨?_, ?_, ?_, ?_, ?_, ?_, ?_, ?_, ?_, ?_, ?_, ?_, ?_, ?_, ?_, ?_, ?_, ?_, ?_, ?_, ?_, ?_⟩ <;> decide +kernel

/-- What the hypotheses of RhocoServices are met by, clause by clause. -/
theorem witness_RhocoServices :
    (let c : Caller := (⟨.decani, .sacristy, true⟩ : Caller)
     let s : State := { up .cell with dec := coreAt [], mem := { (up .cell).mem with otp := runAt 0x300 [1, 0] } }
     let s : State := s.setFld fBOOTSTAT_RECOV 0
     c.core = .decani ∧
     s.rhocoUp = true ∧
     s.on fBOOTSTAT_RECOV = false ∧
     s.dec.gpr.length = 16 ∧
     s.awake = true) ∧
    (let c : Caller := (⟨.decani, .sacristy, true⟩ : Caller)
     let s : State := { up .cell with dec := { coreAt [] with gpr := [5, 0, 9] ++ List.replicate 13 0 } }
     let s : State := s.setFld fBOOTSTAT_RECOV 0
     let g := fun n => (s.dec.gpr.getD n 0).toNat
     c.core = .decani ∧
     s.rhocoUp = true ∧
     s.on fBOOTSTAT_RECOV = false ∧
     s.dec.gpr.length = 16 ∧
     s.awake = true ∧
     inMram (g 0) (g 2) = false) ∧
    (let c : Caller := (⟨.decani, .sacristy, true⟩ : Caller)
     let s : State := { up .cell with dec := { coreAt [] with gpr := [0x10020000, 0x20000100, 4] ++ List.replicate 13 0 } }
     let s : State := s.setFld fBOOTSTAT_RECOV 0
     let s : State := { s with dec := { s.dec with dc := [] } }
     let s : State := { s with cant := { s.cant with dc := [] } }
     let s : State := { s with descCache := [] }
     let g := fun n => (s.dec.gpr.getD n 0).toNat
     c.core = .decani ∧
     s.rhocoUp = true ∧
     s.on fBOOTSTAT_RECOV = false ∧
     s.dec.gpr.length = 16 ∧
     s.awake = true ∧
     inMram (g 0) 4 = true ∧
     g 0 % 4 = 0 ∧
     g 2 = 4 ∧
     s.svMay c .w (g 0) 4 = true ∧
     s.svMay c .r (g 1) 4 = true ∧
     s.inRunningSlot (g 0) 4 = false ∧
     s.dec.dc = [] ∧
     s.cant.dc = [] ∧
     s.descCache = []) ∧
    (let c : Caller := (⟨.decani, .sacristy, true⟩ : Caller)
     let s : State := { up .cell with dec := coreAt [], mem := { (up .cell).mem with otp := runAt 0x300 [1, 0] } }
     let s : State := s.setFld fBOOTSTAT_RECOV 0
     let g := fun n => (s.dec.gpr.getD n 0).toNat
     c.core = .decani ∧
     s.rhocoUp = true ∧
     s.on fBOOTSTAT_RECOV = false ∧
     s.dec.gpr.length = 16 ∧
     s.awake = true ∧
     g 2 = 0) ∧
    (let c : Caller := (⟨.decani, .sacristy, true⟩ : Caller)
     let s : State := { up .cell with dec := { coreAt [] with gpr := [0x10020000, 0x20000100, 4] ++ List.replicate 13 0 } }
     let s : State := s.setFld fBOOTSTAT_RECOV 0
     let g := fun n => (s.dec.gpr.getD n 0).toNat
     c.core = .decani ∧
     s.rhocoUp = true ∧
     s.on fBOOTSTAT_RECOV = false ∧
     s.dec.gpr.length = 16 ∧
     s.awake = true ∧
     0 < g 2 ∧
     g 2 ≤ 64 ∧
     s.svMay c .r (g 1) (g 2) = true) ∧
    (let c : Caller := (⟨.decani, .sacristy, true⟩ : Caller)
     let s : State := { up .cell with dec := coreAt [], mem := { (up .cell).mem with otp := runAt 0x300 [1, 0] } }
     let s : State := s.setFld fBOOTSTAT_RECOV 0
     let s : State := s.setFld fCLKSTAT_PLLLOCK 0
     c.core = .decani ∧
     s.rhocoUp = true ∧
     s.on fBOOTSTAT_RECOV = false ∧
     s.dec.gpr.length = 16 ∧
     s.awake = true ∧
     s.on fCLKSTAT_PLLLOCK = false) ∧
    (let c : Caller := (⟨.decani, .sacristy, true⟩ : Caller)
     let s : State := { up .cell with dec := { coreAt [] with gpr := [1, 0x10000] ++ List.replicate 14 0 } }
     let s : State := s.setFld fBOOTSTAT_RECOV 0
     let g := fun n => (s.dec.gpr.getD n 0).toNat
     c.core = .decani ∧
     s.rhocoUp = true ∧
     s.on fBOOTSTAT_RECOV = false ∧
     s.dec.gpr.length = 16 ∧
     s.awake = true ∧
     2 ^ 16 ≤ g 1) ∧
    (let c : Caller := (⟨.decani, .sacristy, true⟩ : Caller)
     let s : State := { up .cell with dec := coreAt [], mem := { (up .cell).mem with otp := runAt 0x300 [1, 0] } }
     let s : State := s.setFld fBOOTSTAT_RECOV 0
     let g := fun n => (s.dec.gpr.getD n 0).toNat
     c.core = .decani ∧
     s.rhocoUp = true ∧
     s.on fBOOTSTAT_RECOV = false ∧
     s.dec.gpr.length = 16 ∧
     s.awake = true ∧
     g 1 < 2 ^ 16) ∧
    (let c : Caller := (⟨.decani, .sacristy, true⟩ : Caller)
     let s : State := { up .cell with dec := { coreAt [] with gpr := [1] ++ List.replicate 15 0 } }
     let g := fun n => (s.dec.gpr.getD n 0).toNat
     c.core = .decani ∧
     s.rhocoUp = true ∧
     s.on fBOOTSTAT_RECOV = false ∧
     s.dec.gpr.length = 16 ∧
     s.awake = true ∧
     g 0 = 1 ∧
     s.fld fWAKESRC_SRC = 0 ∧
     s.dec.deaf = true) ∧
    (let c : Caller := (⟨.decani, .sacristy, true⟩ : Caller)
     let s : State := { up .cell with dec := coreAt [], mem := { (up .cell).mem with otp := runAt 0x300 [1, 0] } }
     let s : State := s.setFld fBOOTSTAT_RECOV 0
     let s : State := { s with role := .crossing }
     let g := fun n => (s.dec.gpr.getD n 0).toNat
     c.core = .decani ∧
     s.rhocoUp = true ∧
     s.on fBOOTSTAT_RECOV = false ∧
     s.dec.gpr.length = 16 ∧
     s.awake = true ∧
     s.role = .crossing ∧
     g 0 ≤ 24) ∧
    (let c : Caller := (⟨.decani, .sacristy, true⟩ : Caller)
     let s : State := { up .cell with dec := { coreAt [] with gpr := [7] ++ List.replicate 15 0 } }
     let s : State := s.setFld fBOOTSTAT_RECOV 0
     let s : State := { s with role := .cell }
     let s : State := { s with node := { s.node with joined := true } }
     let s : State := { s with rst := { s.rst with tokWait := none } }
     let g := fun n => (s.dec.gpr.getD n 0).toNat
     c.core = .decani ∧
     s.rhocoUp = true ∧
     s.on fBOOTSTAT_RECOV = false ∧
     s.dec.gpr.length = 16 ∧
     s.awake = true ∧
     s.role = .cell ∧
     s.node.joined = true ∧
     g 0 ≤ 24 ∧
     g 0 ≠ s.fld fPWRTOK_GRANT ∧
     s.rst.tokWait = none) ∧
    (let c : Caller := (⟨.decani, .sacristy, true⟩ : Caller)
     let s : State := { up .cell with dec := { coreAt [] with gpr := [0x90000000] ++ List.replicate 15 0 } }
     let s : State := s.setFld fBOOTSTAT_RECOV 0
     let g := fun n => (s.dec.gpr.getD n 0).toNat
     c.core = .decani ∧
     s.rhocoUp = true ∧
     s.on fBOOTSTAT_RECOV = false ∧
     s.dec.gpr.length = 16 ∧
     s.awake = true ∧
     s.svMay c .r (g 0) 16 = false) ∧
    (let c : Caller := (⟨.decani, .sacristy, true⟩ : Caller)
     let s : State := { up .cell with dec := { coreAt [] with gpr := [0x20000100] ++ List.replicate 15 0 } }
     let s : State := s.setFld fBOOTSTAT_RECOV 0
     let g := fun n => (s.dec.gpr.getD n 0).toNat
     c.core = .decani ∧
     s.rhocoUp = true ∧
     s.on fBOOTSTAT_RECOV = false ∧
     s.dec.gpr.length = 16 ∧
     s.awake = true ∧
     s.role ≠ .chapter ∧
     s.svMay c .r (g 0) 16 = true) ∧
    (let c : Caller := (⟨.decani, .sacristy, true⟩ : Caller)
     let s : State := { up .cell with dec := coreAt [], mem := { (up .cell).mem with otp := runAt 0x300 [1, 0] } }
     let s : State := s.setFld fBOOTSTAT_RECOV 0
     let s : State := s.setFld fSACCLAIM_CLAIM 0
     c.core = .decani ∧
     s.rhocoUp = true ∧
     s.on fBOOTSTAT_RECOV = false ∧
     s.dec.gpr.length = 16 ∧
     s.awake = true ∧
     s.fld fSACCLAIM_CLAIM = 0) ∧
    (let c : Caller := (⟨.decani, .sacristy, true⟩ : Caller)
     let s : State := { up .cell with dec := coreAt [], mem := { (up .cell).mem with otp := runAt 0x300 [1, 0] } }
     let s : State := s.setFld fBOOTSTAT_RECOV 0
     let s : State := s.setFld fOFFSTAT_RUNNING 1
     let g := fun n => (s.dec.gpr.getD n 0).toNat
     c.core = .decani ∧
     s.rhocoUp = true ∧
     s.on fBOOTSTAT_RECOV = false ∧
     s.dec.gpr.length = 16 ∧
     s.awake = true ∧
     g 0 = 0 ∧
     s.on fOFFSTAT_RUNNING = true) ∧
    (let c : Caller := (⟨.decani, .sacristy, true⟩ : Caller)
     let s : State := { up .cell with dec := { coreAt [] with gpr := [0, 8] ++ List.replicate 14 0 } }
     let s : State := s.setFld fBOOTSTAT_RECOV 0
     let s : State := s.setFld fOFFSTAT_RUNNING 0
     let g := fun n => (s.dec.gpr.getD n 0).toNat
     c.core = .decani ∧
     s.rhocoUp = true ∧
     s.on fBOOTSTAT_RECOV = false ∧
     s.dec.gpr.length = 16 ∧
     s.awake = true ∧
     g 0 = 0 ∧
     s.on fOFFSTAT_RUNNING = false ∧
     8 ≤ g 1) ∧
    (let c : Caller := (⟨.decani, .sacristy, true⟩ : Caller)
     let s : State := withImage { (up .cell).setFld fPWRTOK_GRANT 24 with dec := { coreAt [] with gpr := [0, 7] ++ List.replicate 14 0 } }
     let s : State := s.setFld fBOOTSTAT_RECOV 0
     let s : State := s.setFld fOFFSTAT_RUNNING 0
     let g := fun n => (s.dec.gpr.getD n 0).toNat
     c.core = .decani ∧
     s.rhocoUp = true ∧
     s.on fBOOTSTAT_RECOV = false ∧
     s.dec.gpr.length = 16 ∧
     s.awake = true ∧
     g 0 = 0 ∧
     s.on fOFFSTAT_RUNNING = false ∧
     g 1 < 8 ∧
     s.imgCheck (g 1) = stOK ∧
     s.cantRefused = false) ∧
    (let c : Caller := (⟨.decani, .sacristy, true⟩ : Caller)
     let s : State := { up .cell with dec := { coreAt [] with gpr := [1] ++ List.replicate 15 0 } }
     let s : State := s.setFld fBOOTSTAT_RECOV 0
     let s : State := s.setFld fOFFSTAT_RUNNING 1
     let s : State := s.setFld fSACCLAIM_CLAIM 0
     let s : State := s.setFld fCANTSTAT_STATE 3
     let s : State := { s with cant := { s.cant with sbuf := [] } }
     let s : State := { s with cant := { s.cant with dc := [] } }
     let s : State := { s with rst := { s.rst with offDesc := none } }
     let g := fun n => (s.dec.gpr.getD n 0).toNat
     c.core = .decani ∧
     s.rhocoUp = true ∧
     s.on fBOOTSTAT_RECOV = false ∧
     s.dec.gpr.length = 16 ∧
     s.awake = true ∧
     g 0 = 1 ∧
     s.on fOFFSTAT_RUNNING = true ∧
     s.fld fSACCLAIM_CLAIM = 0 ∧
     s.fld fCANTSTAT_STATE = 3 ∧
     s.cant.sbuf = [] ∧
     s.cant.dc = [] ∧
     s.rst.offDesc = none) ∧
    (let c : Caller := (⟨.decani, .sacristy, true⟩ : Caller)
     let s : State := { up .cell with dec := { coreAt [] with gpr := [1] ++ List.replicate 15 0 } }
     let s : State := s.setFld fBOOTSTAT_RECOV 0
     let s : State := s.setFld fOFFSTAT_RUNNING 0
     let g := fun n => (s.dec.gpr.getD n 0).toNat
     c.core = .decani ∧
     s.rhocoUp = true ∧
     s.on fBOOTSTAT_RECOV = false ∧
     s.dec.gpr.length = 16 ∧
     s.awake = true ∧
     g 0 = 1 ∧
     s.on fOFFSTAT_RUNNING = false) ∧
    (let c : Caller := (⟨.decani, .sacristy, true⟩ : Caller)
     let s : State := { up .cell with dec := { coreAt [] with gpr := [2] ++ List.replicate 15 0 } }
     let s : State := s.setFld fBOOTSTAT_RECOV 0
     let g := fun n => (s.dec.gpr.getD n 0).toNat
     c.core = .decani ∧
     s.rhocoUp = true ∧
     s.on fBOOTSTAT_RECOV = false ∧
     s.dec.gpr.length = 16 ∧
     s.awake = true ∧
     g 0 = 2) ∧
    (let c : Caller := (⟨.decani, .sacristy, true⟩ : Caller)
     let s : State := { up .cell with dec := { coreAt [] with gpr := [3, 0x20000100] ++ List.replicate 14 0 } }
     let s : State := s.setFld fBOOTSTAT_RECOV 0
     let s : State := { s with rst := { s.rst with offDesc := none } }
     let g := fun n => (s.dec.gpr.getD n 0).toNat
     c.core = .decani ∧
     s.rhocoUp = true ∧
     s.on fBOOTSTAT_RECOV = false ∧
     s.dec.gpr.length = 16 ∧
     s.awake = true ∧
     g 0 = 3 ∧
     s.rst.offDesc = none) ∧
    (let c : Caller := (⟨.decani, .sacristy, true⟩ : Caller)
     let d := (⟨.walk, 0, 3, 0, [0xF0] ++ List.replicate 63 0⟩ : Desc)
     let s : State := { up .cell with dec := { coreAt [] with gpr := [3, 0x20000100] ++ List.replicate 14 0 } }
     let s : State := s.setFld fBOOTSTAT_RECOV 0
     let s : State := { s with rst := { s.rst with offDesc := some d } }
     let s : State := { s with role := .cell }
     let s : State := { s with node := { s.node with inbox := [d] } }
     let s : State := { s with scr := { s.scr with held := [] } }
     let g := fun n => (s.dec.gpr.getD n 0).toNat
     c.core = .decani ∧
     s.rhocoUp = true ∧
     s.on fBOOTSTAT_RECOV = false ∧
     s.dec.gpr.length = 16 ∧
     s.awake = true ∧
     g 0 = 3 ∧
     s.rst.offDesc = some d ∧
     s.role = .cell ∧
     d.path = .walk ∧
     s.node.inbox = [d] ∧
     s.scr.held = [] ∧
     s.svMay c .r (g 1) 16 = true) ∧
    (let c : Caller := (⟨.decani, .sacristy, true⟩ : Caller)
     let s : State := { up .cell with dec := coreAt [], mem := { (up .cell).mem with otp := runAt 0x300 [1, 0] } }
     let s : State := s.setFld fBOOTSTAT_RECOV 0
     let s : State := { s with rst := { s.rst with offDesc := none } }
     c.core = .decani ∧
     s.rhocoUp = true ∧
     s.on fBOOTSTAT_RECOV = false ∧
     s.dec.gpr.length = 16 ∧
     s.awake = true ∧
     s.rst.offDesc = none) ∧
    (let c : Caller := (⟨.decani, .sacristy, true⟩ : Caller)
     let d : Desc := (⟨.walk, 0, 3, 0, [0xF0] ++ List.replicate 63 0⟩ : Desc)
     let s : State := { up .cell with dec := coreAt [], mem := { (up .cell).mem with otp := runAt 0x300 [1, 0] } }
     let s : State := s.setFld fBOOTSTAT_RECOV 0
     let s : State := { s with rst := { s.rst with offDesc := some d } }
     let s : State := { s with role := .cell }
     let s : State := { s with node := { s.node with inbox := [d] } }
     let s : State := { s with scr := { s.scr with held := [] } }
     c.core = .decani ∧
     s.rhocoUp = true ∧
     s.on fBOOTSTAT_RECOV = false ∧
     s.dec.gpr.length = 16 ∧
     s.awake = true ∧
     s.rst.offDesc = some d ∧
     s.role = .cell ∧
     d.path = .walk ∧
     s.node.inbox = [d] ∧
     s.scr.held = []) := by
  refine ⟨?_, ?_, ?_, ?_, ?_, ?_, ?_, ?_, ?_, ?_, ?_, ?_, ?_, ?_, ?_, ?_, ?_, ?_, ?_, ?_, ?_, ?_, ?_, ?_⟩ <;> decide +kernel

/-- What the hypotheses of ImagesAndOffices are met by, clause by clause. -/
theorem witness_ImagesAndOffices :
    (let d : Desc := ds 0 []
     let s : State := { up .cell with mem := { (up .cell).mem with otp := runAt 0x300 [0, 0] } }
     s.ready d = true) ∧
    (let d : Desc := ds 0 []
     let s : State := { up .cell with mem := { (up .cell).mem with otp := runAt 0x300 [0, 0] } }
     s.ready d = true ∧
     s.role ≠ .chapter ∧
     imgLoadOk d = false) ∧
    (let d : Desc := (⟨.lectern, 0, 0, 0, [0x28] ++ List.replicate 20 0 ++ [1] ++ List.replicate 10 0 ++ [7] ++ List.replicate 31 0⟩ : Desc)
     let s : State := { up .cell with mem := { (up .cell).mem with otp := runAt 0x300 [0, 0] } }
     let s : State := s.setFld fOFFSTAT_RUNNING 1
     let k := dsByte d 0x14
     s.ready d = true ∧
     s.role ≠ .chapter ∧
     imgLoadOk d = true ∧
     s.on fOFFSTAT_RUNNING = true ∧
     s.fld fOFFSTAT_SLOT = k) ∧
    (let d : Desc := (⟨.lectern, 0, 0, 0, [0x28] ++ List.replicate 15 0 ++ [0xFC, 0xFF, 0, 0, 9, 4] ++ List.replicate 10 0 ++ [7, 6, 5, 4] ++ List.replicate 28 0⟩ : Desc)
     let s : State := { up .cell with mem := { (up .cell).mem with otp := runAt 0x300 [0, 0] } }
     let s : State := s.setFld fOFFSTAT_RUNNING 0
     let s : State := { s with dec := { s.dec with dc := [] } }
     let s : State := { s with cant := { s.cant with dc := [] } }
     let s : State := { s with descCache := [] }
     s.ready d = true ∧
     s.role ≠ .chapter ∧
     imgLoadOk d = true ∧
     s.on fOFFSTAT_RUNNING = false ∧
     dsByte d 0x15 = 4 ∧
     dsNat d 0x10 4 % 4 = 0 ∧
     s.dec.dc = [] ∧
     s.cant.dc = [] ∧
     s.descCache = []) ∧
    (let d : Desc := ds 0 []
     let s : State := { up .cell with mem := { (up .cell).mem with otp := runAt 0x300 [0, 0] } }
     let s : State := { s with role := .chapter }
     let s : State := { s with role := .chapter }
     s.ready d = true ∧
     s.role = .chapter) ∧
    (let d : Desc := ds 0 [9]
     let s : State := { up .cell with mem := { (up .cell).mem with otp := runAt 0x300 [0, 0] } }
     let s : State := { s with mem := { s.mem with cells := runAt (slotBase 9) [0, 0, 0, 0] } }
     let n := dsArg d 0
     s.ready d = true ∧
     s.role ≠ .chapter ∧
     n ≤ 9 ∧
     argsZeroFrom d 1 = true ∧
     s.imgCheck n ≠ stOK) ∧
    (let d : Desc := ds 0 [7]
     let s : State := withImage ((up .cell).setFld fPWRTOK_GRANT 24)
     let n := dsArg d 0
     s.ready d = true ∧
     s.role ≠ .chapter ∧
     n < 8 ∧
     argsZeroFrom d 1 = true ∧
     s.imgCheck n = stOK ∧
     s.cfgBusy = false) ∧
    (let d : Desc := ds 0 [10]
     let s : State := { up .cell with mem := { (up .cell).mem with otp := runAt 0x300 [0, 0] } }
     let n := dsArg d 0
     s.ready d = true ∧
     s.role ≠ .chapter ∧
     9 < n) ∧
    (let d : Desc := ds 0 (args [(4, 1, 0)])
     let s : State := { up .cell with mem := { (up .cell).mem with otp := runAt 0x300 [0, 0] } }
     let len := dsArg d 4
     s.ready d = true ∧
     s.cfgRole d = true ∧
     len = 0) ∧
    (let d : Desc := ds 0 (args [(0, 4, 16296), (4, 1, 24)])
     let s : State := { up .cell with mem := { (up .cell).mem with otp := runAt 0x300 [0, 0] } }
     let s : State := s.setFld fSACCLAIM_CLAIM 0
     let off := dsArgs d 0 4
     let len := dsArg d 4
     s.ready d = true ∧
     s.cfgRole d = true ∧
     0 < len ∧
     len ≤ 24 ∧
     off + len ≤ 16320 ∧
     s.fld fSACCLAIM_CLAIM = 0) ∧
    (let d : Desc := ds 0 (args [(0, 1, 0)])
     let s : State := { up .cell with mem := { (up .cell).mem with otp := runAt 0x300 [0, 0] } }
     let s : State := { s with rst := { s.rst with staging := true } }
     let s : State := s.setFld fSACCLAIM_CLAIM 0
     let n := dsArg d 0
     s.ready d = true ∧
     s.cfgRole d = true ∧
     n = 0 ∧
     s.rst.staging = true ∧
     s.fld fSACCLAIM_CLAIM = 0) ∧
    (let d : Desc := ds 0 (args [(0, 1, 0)])
     let s : State := { up .cell with mem := { (up .cell).mem with otp := runAt 0x300 [0, 0] } }
     let s : State := { s with rst := { s.rst with staging := false } }
     let n := dsArg d 0
     s.ready d = true ∧
     s.cfgRole d = true ∧
     n = 0 ∧
     s.rst.staging = false) ∧
    (let d : Desc := ds 0 [1]
     let s : State := { up .cell with mem := { (up .cell).mem with otp := runAt 0x300 [0, 0] } }
     let s : State := { s with rst := { s.rst with staging := true } }
     let n := dsArg d 0
     s.ready d = true ∧
     s.cfgRole d = true ∧
     n = 1 ∧
     s.rst.staging = true) ∧
    (let d : Desc := ds 0 []
     let s : State := { up .cell with mem := { (up .cell).mem with otp := runAt 0x300 [0, 0] } }
     let s : State := { s with rst := { s.rst with staging := true } }
     s.ready d = true ∧
     s.rst.staging = true) ∧
    (let d : Desc := ds 0 []
     let s : State := { up .cell with mem := { (up .cell).mem with otp := runAt 0x300 [0, 0] } }
     let s : State := { s with rst := { s.rst with staging := true } }
     s.ready d = true ∧
     s.rst.staging = true) ∧
    (let v := 5
     let d : Desc := ds 0 []
     let s : State := { up .cell with mem := { (up .cell).mem with otp := runAt 0x300 [0, 0] } }
     let s : State := { s with rst := { s.rst with pendingCfg := [(20, 5)], waitDesc := [(ds 0 [], stOK, 0)] } }
     let s : State := { s with rst := { s.rst with staging := false } }
     let s : State := { s with rst := { s.rst with pendingCfg := [(20, v)] } }
     let s : State := { s with rst := { s.rst with waitDesc := [(d, stOK, 0)] } }
     s.ready d = true ∧
     s.rst.staging = false ∧
     s.rst.pendingCfg = [(20, v)] ∧
     s.rst.waitDesc = [(d, stOK, 0)]) ∧
    (let d : Desc := ds 0 []
     let s : State := { up .cell with mem := { (up .cell).mem with otp := runAt 0x300 [0, 0] } }
     let s : State := { s with rst := { s.rst with staging := false } }
     let s : State := { s with rst := { s.rst with pendingCfg := [] } }
     let s : State := { s with rst := { s.rst with waitDesc := [] } }
     let loose := s.rst.pendingCfg = [] ∧ s.rst.waitDesc = []
     s.ready d = true ∧
     s.rst.staging = false ∧
     loose) ∧
    (let d : Desc := ds 0 []
     let s : State := { up .cell with mem := { (up .cell).mem with otp := runAt 0x300 [0, 0] } }
     let s : State := s.setFld fOFFSTAT_RUNNING 1
     s.ready d = true ∧
     s.role ≠ .loop ∧
     s.on fOFFSTAT_RUNNING = true) ∧
    (let d : Desc := ds 0 [8]
     let s : State := { up .cell with mem := { (up .cell).mem with otp := runAt 0x300 [0, 0] } }
     let s : State := s.setFld fOFFSTAT_RUNNING 0
     let n := dsArg d 0
     s.ready d = true ∧
     s.role ≠ .loop ∧
     s.on fOFFSTAT_RUNNING = false ∧
     8 ≤ n) ∧
    (let d : Desc := ds 0 []
     let s : State := { up .cell with mem := { (up .cell).mem with otp := runAt 0x300 [0, 0] } }
     let s : State := { s with role := .loop }
     s.ready d = true ∧
     s.role = .loop) ∧
    (let d : Desc := ds 0 [7]
     let s : State := withImage ((up .cell).setFld fPWRTOK_GRANT 24)
     let s : State := s.setFld fOFFSTAT_RUNNING 0
     let n := dsArg d 0
     s.ready d = true ∧
     s.role ≠ .loop ∧
     s.on fOFFSTAT_RUNNING = false ∧
     n < 8 ∧
     s.imgCheck n = stOK ∧
     s.cantRefused = false) ∧
    (let d : Desc := ds 0 []
     let s : State := { up .cell with mem := { (up .cell).mem with otp := runAt 0x300 [0, 0] } }
     let s : State := s.setFld fOFFSTAT_RUNNING 1
     let s : State := s.setFld fSACCLAIM_CLAIM 0
     let s : State := s.setFld fCANTSTAT_STATE 3
     let s : State := { s with cant := { s.cant with sbuf := [] } }
     let s : State := { s with cant := { s.cant with dc := [] } }
     let s : State := { s with rst := { s.rst with offDesc := none } }
     s.ready d = true ∧
     s.role ≠ .loop ∧
     s.on fOFFSTAT_RUNNING = true ∧
     s.fld fSACCLAIM_CLAIM = 0 ∧
     s.fld fCANTSTAT_STATE = 3 ∧
     s.cant.sbuf = [] ∧
     s.cant.dc = [] ∧
     s.rst.offDesc = none) ∧
    (let d : Desc := ds 0 []
     let s : State := { up .cell with mem := { (up .cell).mem with otp := runAt 0x300 [0, 0] } }
     let s : State := s.setFld fOFFSTAT_RUNNING 0
     s.ready d = true ∧
     s.role ≠ .loop ∧
     s.on fOFFSTAT_RUNNING = false) ∧
    (let d : Desc := ds 0 []
     let s : State := { up .cell with mem := { (up .cell).mem with otp := runAt 0x300 [0, 0] } }
     s.ready d = true ∧
     s.role ≠ .loop) := by
  refine ⟨?_, ?_, ?_, ?_, ?_, ?_, ?_, ?_, ?_, ?_, ?_, ?_, ?_, ?_, ?_, ?_, ?_, ?_, ?_, ?_, ?_, ?_, ?_, ?_⟩ <;> decide +kernel

/-- What the hypotheses of Scriptorium are met by, clause by clause. -/
theorem witness_Scriptorium :
    (let s : State := (up .chapter).setFld fHLSTAT_SCRRDY 1
     let s : State := { s with role := .chapter }
     let s : State := s.setFld fHLSTAT_SCRRDY 1
     s.role = .chapter ∧
     s.on fHLSTAT_SCRRDY = true) ∧
    (let data : List Byte := List.replicate 8 0xFF
     let s : State := (up .chapter).setFld fHLSTAT_SCRRDY 1
     let s : State := { s with role := .chapter }
     let s : State := s.setFld fHLSTAT_SCRRDY 1
     s.role = .chapter ∧
     s.on fHLSTAT_SCRRDY = true ∧
     data.length = 8) ∧
    (let s : State := (up .chapter).setFld fHLSTAT_SCRRDY 1
     let s : State := { s with role := .chapter }
     let s : State := s.setFld fHLSTAT_SCRRDY 1
     let s : State := { s with scr := { s.scr with rings := [] } }
     s.role = .chapter ∧
     s.on fHLSTAT_SCRRDY = true ∧
     s.scr.rings = []) ∧
    (let s : State := (up .chapter).setFld fHLSTAT_SCRRDY 1
     let s : State := s.setFld fSCRTBASEL_BASE 0x10
     let s : State := { s with role := .chapter }
     let s : State := s.setFld fHLSTAT_SCRRDY 1
     let s : State := { s with scr := { s.scr with rings := [] } }
     let s : State := { s with hl := { s.hl with half := none } }
     let s : State := s.setFld fSCSTAT_ENABLED 0
     let s : State := s.setFld fSCLANE_FENCED 0
     let s : State := { s with scr := { s.scr with fences := [] } }
     s.role = .chapter ∧
     s.on fHLSTAT_SCRRDY = true ∧
     s.scr.rings = [] ∧
     s.tableBase = 0x10000 ∧
     s.hl.half = none ∧
     s.fld fSCSTAT_ENABLED = 0 ∧
     s.fld fSCLANE_FENCED = 0 ∧
     s.scr.fences = []) ∧
    (let r : Ring := (⟨3, 0x20000, 0x30000, 3, 4, 0, false, 5, 0, 5, 0, 1, 0, 0, 5, [], 0, 0, 0⟩ : Ring)
     let s : State := (up .chapter).setFld fHLSTAT_SCRRDY 1
     let s : State := { s with scr := { s.scr with rings := [r] } }
     let s : State := { s with role := .chapter }
     let s : State := s.setFld fHLSTAT_SCRRDY 1
     let s : State := { s with scr := { s.scr with rings := [r] } }
     let s : State := { s with scr := { s.scr with held := [] } }
     let s : State := { s with scr := { s.scr with recq := [] } }
     let s : State := { s with scr := { s.scr with recDropped := 0 } }
     let s : State := { s with hl := { s.hl with half := none } }
     let s : State := s.setFld fHLSTAT_LINKUP 1
     let s : State := { s with hl := { s.hl with bme := true } }
     let s : State := s.setFld fHLSTAT_D3 0
     let s : State := { s with scr := { s.scr with failed := false } }
     let host := s.on fHLSTAT_LINKUP = true ∧ s.hl.bme = true ∧ s.on fHLSTAT_D3 = false
     let empty := s.scr.held = [] ∧ s.scr.recq = [] ∧ s.scr.recDropped = 0
     s.role = .chapter ∧
     s.on fHLSTAT_SCRRDY = true ∧
     s.scr.rings = [r] ∧
     r.n = 3 ∧
     r.kind = 3 ∧
     r.log2n = 4 ∧
     r.st = 1 ∧
     r.p = 5 ∧
     r.dhead = 5 ∧
     r.fetch = 5 ∧
     empty ∧
     s.hl.half = none ∧
     host ∧
     s.scr.failed = false) ∧
    (let r : Ring := (⟨3, 0x20000, 0x30000, 3, 4, 0, false, 6, 0, 5, 0, 1, 0, 0, 5, [], 0, 0, 0⟩ : Ring)
     let s : State := (up .chapter).setFld fHLSTAT_SCRRDY 1
     let s : State := { s with scr := { s.scr with rings := [r] } }
     let s : State := { s with role := .chapter }
     let s : State := s.setFld fHLSTAT_SCRRDY 1
     let s : State := { s with scr := { s.scr with rings := [r] } }
     let s : State := { s with scr := { s.scr with held := [] } }
     let s : State := { s with scr := { s.scr with recq := [] } }
     let s : State := { s with scr := { s.scr with recDropped := 0 } }
     let s : State := { s with hl := { s.hl with half := none } }
     let s : State := s.setFld fSCSTAT_ENABLED 1
     let empty := s.scr.held = [] ∧ s.scr.recq = [] ∧ s.scr.recDropped = 0
     s.role = .chapter ∧
     s.on fHLSTAT_SCRRDY = true ∧
     s.scr.rings = [r] ∧
     r.n = 3 ∧
     r.st = 1 ∧
     empty ∧
     s.hl.half = none ∧
     s.fld fSCSTAT_ENABLED = 1) ∧
    (let r : Ring := (⟨3, 0x20000, 0x30000, 3, 4, 0, false, 6, 0, 5, 0, 1, 0, 0, 5, [], 0, 0, 0⟩ : Ring)
     let data : List Byte := 0x50 :: List.replicate 63 0
     let s : State := (up .chapter).setFld fHLSTAT_SCRRDY 1
     let s : State := { s with scr := { s.scr with rings := [r] } }
     let s : State := s.setFld fTAGSTAT_FREE 1024
     let s : State := { s with role := .chapter }
     let s : State := s.setFld fHLSTAT_SCRRDY 1
     let s : State := { s with scr := { s.scr with rings := [r] } }
     let s : State := { s with scr := { s.scr with held := [] } }
     let s : State := { s with scr := { s.scr with recq := [] } }
     let s : State := { s with scr := { s.scr with recDropped := 0 } }
     let s : State := s.setFld fHLSTAT_LINKUP 1
     let s : State := { s with hl := { s.hl with bme := true } }
     let s : State := s.setFld fHLSTAT_D3 0
     let s : State := { s with scr := { s.scr with failed := false } }
     let s : State := s.setFld fTAGSTAT_FREE 1024
     let s : State := { s with node := { s.node with inbox := [] } }
     let host := s.on fHLSTAT_LINKUP = true ∧ s.hl.bme = true ∧ s.on fHLSTAT_D3 = false
     let empty := s.scr.held = [] ∧ s.scr.recq = [] ∧ s.scr.recDropped = 0
     s.role = .chapter ∧
     s.on fHLSTAT_SCRRDY = true ∧
     s.scr.rings = [r] ∧
     r.n = 3 ∧
     r.kind = 3 ∧
     r.log2n = 4 ∧
     r.st = 1 ∧
     r.p = 6 ∧
     r.fetch = 5 ∧
     empty ∧
     host ∧
     s.scr.failed = false ∧
     s.fld fTAGSTAT_FREE = 1024 ∧
     data.length = 64 ∧
     opAssigned (data.getD 0 0).toNat = true ∧
     s.node.inbox = []) ∧
    (let r : Ring := (⟨3, 0x20000, 0x30000, 3, 4, 0, false, 6, 0, 5, 0, 1, 0, 0, 5, [], 0, 0, 0⟩ : Ring)
     let s : State := (up .chapter).setFld fHLSTAT_SCRRDY 1
     let s : State := { s with scr := { s.scr with rings := [r] } }
     let s : State := { s with role := .chapter }
     let s : State := s.setFld fHLSTAT_SCRRDY 1
     let s : State := { s with scr := { s.scr with rings := [r] } }
     let s : State := s.setFld fHLSTAT_LINKUP 1
     let s : State := { s with hl := { s.hl with bme := true } }
     let s : State := s.setFld fHLSTAT_D3 0
     let s : State := { s with scr := { s.scr with failed := false } }
     let s : State := s.setFld fSCSTAT_ENABLED 1
     let s : State := { s with scr := { s.scr with recq := [] } }
     let s : State := { s with scr := { s.scr with recDropped := 0 } }
     let host := s.on fHLSTAT_LINKUP = true ∧ s.hl.bme = true ∧ s.on fHLSTAT_D3 = false
     s.role = .chapter ∧
     s.on fHLSTAT_SCRRDY = true ∧
     s.scr.rings = [r] ∧
     r.n = 3 ∧
     r.kind = 3 ∧
     r.st = 1 ∧
     r.p = 6 ∧
     r.fetch = 5 ∧
     host ∧
     s.scr.failed = false ∧
     s.fld fSCSTAT_ENABLED = 1 ∧
     s.scr.recq = [] ∧
     s.scr.recDropped = 0) ∧
    (let d : Desc := (⟨.lane 3, 3, 0, 0, [0x50, 2] ++ List.replicate 22 0 ++ [128] ++ List.replicate 39 0⟩ : Desc)
     let h : Held := (⟨0, 3, 0, 3, ⟨.lane 3, 3, 0, 0, [0x50, 2] ++ List.replicate 22 0 ++ [128] ++ List.replicate 39 0⟩, 4, 0, 0, []⟩ : Held)
     let s : State := (up .chapter).setFld fHLSTAT_SCRRDY 1
     let s : State := { s with scr := { s.scr with held := [h] } }
     let s : State := { s with role := .chapter }
     let s : State := s.setFld fHLSTAT_SCRRDY 1
     let s : State := { s with scr := { s.scr with held := [h] } }
     s.role = .chapter ∧
     s.on fHLSTAT_SCRRDY = true ∧
     s.scr.held = [h] ∧
     h.d = d ∧
     h.phase = 4 ∧
     dsResbuf d = true ∧
     dsFormOk d = true ∧
     dsReslen d = 128) ∧
    (let d : Desc := ds 0 []
     let s : State := (up .chapter).setFld fHLSTAT_SCRRDY 1
     let s : State := { s with role := .chapter }
     let s : State := s.setFld fHLSTAT_SCRRDY 1
     let s : State := { s with scr := { s.scr with held := [] } }
     s.role = .chapter ∧
     s.on fHLSTAT_SCRRDY = true ∧
     s.scr.held = [] ∧
     s.ready d = true) ∧
    (let r : Ring := (⟨14, 0x20000, 0x30000, 3, 4, 0, false, 6, 0, 5, 0, 1, 0, 0, 5, [], 64, 9, 2⟩ : Ring)
     let h : Held := (⟨0, 14, 5, 0, ds 0x50 [3], 5, 0, 0, []⟩ : Held)
     let s : State := (up .chapter).setFld fHLSTAT_SCRRDY 1
     let s : State := { s with scr := { s.scr with rings := [r] } }
     let s : State := { s with scr := { s.scr with held := [h] } }
     let s : State := { s with role := .chapter }
     let s : State := s.setFld fHLSTAT_SCRRDY 1
     let s : State := { s with scr := { s.scr with rings := [r] } }
     let s : State := { s with scr := { s.scr with held := [h] } }
     s.role = .chapter ∧
     s.on fHLSTAT_SCRRDY = true ∧
     s.scr.rings = [r] ∧
     r.n = 14 ∧
     r.st = 1 ∧
     s.scr.held = [h] ∧
     h.phase = 5 ∧
     h.ring = 14 ∧
     r.fill = 64 ∧
     dsArg h.d 0 = 3 ∧
     r.fillAge = 2) ∧
    (let r : Ring := (⟨14, 0x20000, 0x30000, 3, 4, 0, false, 6, 0, 5, 0, 1, 0, 0, 5, [], 64, 9, 3⟩ : Ring)
     let h : Held := (⟨0, 14, 5, 0, ds 0x50 [3], 5, 0, 0, []⟩ : Held)
     let s : State := (up .chapter).setFld fHLSTAT_SCRRDY 1
     let s : State := { s with scr := { s.scr with rings := [r] } }
     let s : State := { s with scr := { s.scr with held := [h] } }
     let s : State := { s with role := .chapter }
     let s : State := s.setFld fHLSTAT_SCRRDY 1
     let s : State := { s with scr := { s.scr with rings := [r] } }
     let s : State := { s with scr := { s.scr with held := [h] } }
     let s : State := s.setFld fHLSTAT_LINKUP 1
     let s : State := { s with hl := { s.hl with bme := true } }
     let s : State := s.setFld fHLSTAT_D3 0
     let host := s.on fHLSTAT_LINKUP = true ∧ s.hl.bme = true ∧ s.on fHLSTAT_D3 = false
     s.role = .chapter ∧
     s.on fHLSTAT_SCRRDY = true ∧
     s.scr.rings = [r] ∧
     r.n = 14 ∧
     r.st = 1 ∧
     r.log2n = 4 ∧
     r.ctail = 0 ∧
     r.ch = 0 ∧
     s.scr.held = [h] ∧
     h.phase = 5 ∧
     h.ring = 14 ∧
     h.slot = r.dhead ∧
     r.done = [] ∧
     r.fill = 64 ∧
     r.fillTime = 9 ∧
     dsArg h.d 0 = 3 ∧
     r.fillAge = 3 ∧
     host ∧
     r.signal = false) ∧
    (let s : State := (up .chapter).setFld fHLSTAT_SCRRDY 1
     let s : State := { s with role := .chapter }
     let s : State := s.setFld fHLSTAT_SCRRDY 1
     let s : State := s.setFld fSCLANE_FENCED 0
     let s : State := { s with scr := { s.scr with fences := [] } }
     let s : State := { s with scr := { s.scr with rings := [] } }
     let s : State := { s with scr := { s.scr with held := [] } }
     let s : State := { s with scr := { s.scr with recq := [] } }
     let s : State := { s with scr := { s.scr with recDropped := 0 } }
     let s : State := { s with drv := { s.drv with dn := [] } }
     let empty := s.scr.held = [] ∧ s.scr.recq = [] ∧ s.scr.recDropped = 0
     s.role = .chapter ∧
     s.on fHLSTAT_SCRRDY = true ∧
     s.fld fSCLANE_FENCED = 0 ∧
     s.scr.fences = [] ∧
     s.scr.rings = [] ∧
     empty ∧
     s.drv.dn = []) ∧
    (let k : Fin 8 := (7 : Fin 8)
     let s : State := (up .chapter).setFld fHLSTAT_SCRRDY 1
     let s : State := s.setFld fSCLANE_FENCED 127
     let s : State := { s with role := .chapter }
     let s : State := s.setFld fHLSTAT_SCRRDY 1
     let s : State := { s with scr := { s.scr with fences := [] } }
     let s : State := { s with scr := { s.scr with rings := [] } }
     let s : State := { s with scr := { s.scr with held := [] } }
     let s : State := { s with scr := { s.scr with recq := [] } }
     let s : State := { s with scr := { s.scr with recDropped := 0 } }
     let empty := s.scr.held = [] ∧ s.scr.recq = [] ∧ s.scr.recDropped = 0
     s.role = .chapter ∧
     s.on fHLSTAT_SCRRDY = true ∧
     s.fld fSCLANE_FENCED = 255 - 2 ^ k.val ∧
     s.scr.fences = [] ∧
     s.scr.rings = [] ∧
     empty) := by
  refine ⟨?_, ?_, ?_, ?_, ?_, ?_, ?_, ?_, ?_, ?_, ?_, ?_, ?_, ?_⟩ <;> decide +kernel

/-- What the hypotheses of DrivenWalk are met by (WalkDriveEvents), clause by clause. -/
theorem witness_WalkDriveEvents :
    (let s : State := up .chapter
     s.hasDrive = true) ∧
    (let s : State := up .chapter
     let s : State := { s with drv := { s.drv with testing := false } }
     s.hasDrive = true ∧
     s.drv.testing = false) ∧
    (let s : State := up .chapter
     let s : State := { s with drv := { s.drv with testing := true } }
     let s : State := { s with drv := { s.drv with powerDesc := none } }
     s.hasDrive = true ∧
     s.drv.testing = true ∧
     s.drv.powerDesc = none) ∧
    (let s : State := up .chapter
     let s : State := { s with drv := { s.drv with testing := true } }
     let s : State := { s with drv := { s.drv with powerDesc := none } }
     s.hasDrive = true ∧
     s.drv.testing = true ∧
     s.drv.powerDesc = none) ∧
    (let d : Desc := ds 0x6B []
     let s : State := up .chapter
     let s : State := { s with drv := { s.drv with powerDesc := some d } }
     let s : State := { s with drv := { s.drv with testing := true } }
     let s : State := { s with drv := { s.drv with powerDesc := some d } }
     s.hasDrive = true ∧
     s.drv.testing = true ∧
     s.drv.powerDesc = some d) ∧
    (let s : State := up .chapter
     let s : State := s.setFld fWDSTAT_STARTING 1
     s.hasDrive = true ∧
     s.on fWDSTAT_STARTING = true) ∧
    (let s : State := up .chapter
     let s : State := s.setFld fWDSTAT_STARTING 0
     s.hasDrive = true ∧
     s.on fWDSTAT_STARTING = false) ∧
    (let s : State := up .chapter
     let s : State := s.setFld fWDSTAT_STARTING 1
     s.hasDrive = true ∧
     s.on fWDSTAT_STARTING = true) ∧
    (let s : State := up .chapter
     let s : State := s.setFld fWDSTAT_ON 1
     let s : State := { s with drv := { s.drv with offTimes := [] } }
     let s : State := s.setFld fWDCTL_RETRY 1
     s.hasDrive = true ∧
     s.on fWDSTAT_ON = true ∧
     s.drv.offTimes = [] ∧
     s.on fWDCTL_RETRY = true) ∧
    (let s : State := up .chapter
     let s : State := s.setFld fWDSTAT_ON 1
     let s : State := { s with drv := { s.drv with offTimes := [] } }
     let s : State := s.setFld fWDCTL_RETRY 0
     s.hasDrive = true ∧
     s.on fWDSTAT_ON = true ∧
     s.drv.offTimes = [] ∧
     s.on fWDCTL_RETRY = false) ∧
    (let s : State := up .chapter
     let s : State := { s with drv := { s.drv with offTimes := [s.now, s.now, s.now] } }
     let s : State := s.setFld fWDSTAT_ON 1
     let s : State := { s with drv := { s.drv with offTimes := [s.now, s.now, s.now] } }
     s.hasDrive = true ∧
     s.on fWDSTAT_ON = true ∧
     s.drv.offTimes = [s.now, s.now, s.now] ∧
     s.now < 2 ^ 48) ∧
    (let s : State := up .chapter
     let s : State := s.setFld fWDSTAT_ON 0
     let s : State := s.setFld fWDSTAT_STARTING 0
     s.hasDrive = true ∧
     s.on fWDSTAT_ON = false ∧
     s.on fWDSTAT_STARTING = false) ∧
    (let s : State := up .chapter
     let s : State := (s.setFld fWDCTL_EN 1).setFld fWDSTAT_WSUPOK 1
     let s : State := { s with drv := { s.drv with retryDue := true } }
     let s : State := s.setFld fWDCTL_EN 1
     let s : State := s.setFld fWDSTAT_WSUPOK 1
     let s : State := { s with drv := { s.drv with ovWsup := false } }
     s.hasDrive = true ∧
     s.drv.retryDue = true ∧
     s.on fWDCTL_EN = true ∧
     s.on fWDSTAT_WSUPOK = true ∧
     s.drv.ovWsup = false ∧
     s.offLongEnough = true) ∧
    (let s : State := up .chapter
     let s : State := { s with drv := { s.drv with lastOff := some s.now } }
     s.hasDrive = true ∧
     s.offLongEnough = false) ∧
    (let s : State := up .chapter
     let s : State := s.setFld fWDSTAT_ON 1
     let s : State := s.setFld fWDSTAT_WSUPOK 1
     let s : State := { s with drv := { s.drv with powerDesc := none } }
     let busy := s.driveBusy = true
     s.hasDrive = true ∧
     s.on fWDSTAT_WSUPOK = true ∧
     busy ∧
     s.drv.powerDesc = none) ∧
    (let s : State := up .chapter
     let s : State := s.setFld fWDSTAT_WSUPOK 0
     s.hasDrive = true ∧
     s.on fWDSTAT_WSUPOK = false) ∧
    (let s : State := up .chapter
     let s : State := s.setFld fWDSTAT_ON 1
     let s : State := { s with drv := { s.drv with powerDesc := none } }
     let busy := s.driveBusy = true
     s.hasDrive = true ∧
     busy ∧
     s.drv.powerDesc = none) ∧
    (let s : State := up .chapter
     let s : State := (s.setFld fWDCTL_EN 1).setFld fWDSTAT_WSUPOK 1
     let s : State := { s with drv := { s.drv with ovWsup := true } }
     let s : State := s.setFld fWDCTL_EN 1
     let s : State := s.setFld fWDSTAT_WSUPOK 1
     let s : State := { s with role := .chapter }
     s.hasDrive = true ∧
     s.drv.ovWsup = true ∧
     s.on fWDCTL_EN = true ∧
     s.on fWDSTAT_WSUPOK = true ∧
     s.driveBusy = false ∧
     s.offLongEnough = true ∧
     (s.role = .chapter ∨ s.drvWalk ≠ 0)) ∧
    (let s : State := up .chapter
     let s : State := { s with drv := { s.drv with ovWsup := false } }
     s.hasDrive = true ∧
     s.drv.ovWsup = false) ∧
    (let n := 5
     let p := 3
     let s : State := up .chapter
     let s : State := { s with drv := { s.drv with quar := [(5, 0, 3)] } }
     let s : State := { s with drv := { s.drv with quar := [(n, 0, p)] } }
     let s : State := { s with drv := { s.drv with reqs := [] } }
     s.hasDrive = true ∧
     s.drv.quar = [(n, 0, p)] ∧
     s.drv.reqs = []) ∧
    (let n := 5
     let k := 3
     let p := 3
     let s : State := up .chapter
     let s : State := { s with drv := { s.drv with quar := [(5, 4, 3)] } }
     let s : State := { s with drv := { s.drv with quar := [(n, k + 1, p)] } }
     s.hasDrive = true ∧
     s.drv.quar = [(n, k + 1, p)]) := by
  refine ⟨?_, ?_, ?_, ?_, ?_, ?_, ?_, ?_, ?_, ?_, ?_, ?_, ?_, ?_, ?_, ?_, ?_, ?_, ?_, ?_, ?_⟩ <;> decide +kernel

/-- What the hypotheses of DrivenWalk are met by (WalkDescriptors), clause by clause. -/
theorem witness_WalkDescriptors :
    (let d : Desc := (⟨.lane 0, 3, 0, 0, [0x68] ++ List.replicate 63 0⟩ : Desc)
     let s : State := up .chapter
     s.ready d = true) ∧
    (let d : Desc := ds 0x68 []
     let s : State := up .chapter
     s.ready d = true ∧
     s.driverRing d = false) ∧
    (let d : Desc := (⟨.lane 0, 3, 0, 0, [0x68] ++ List.replicate 63 0⟩ : Desc)
     let walk : Nat := 0
     let ilim : Nat := 33
     let s : State := up .chapter
     let here := s.driverRing d = true ∧ walk = s.drvWalk ∧ walk < 16
     s.ready d = true ∧
     here ∧
     (ilim < 4 ∨ 32 < ilim)) ∧
    (let d : Desc := (⟨.lane 0, 3, 0, 0, [0x68] ++ List.replicate 63 0⟩ : Desc)
     let walk : Nat := 0
     let ilim : Nat := 32
     let s : State := up .chapter
     let s : State := s.setFld fWDSTAT_WSUPOK 0
     let here := s.driverRing d = true ∧ walk = s.drvWalk ∧ walk < 16
     let good := 4 ≤ ilim ∧ ilim ≤ 32
     s.ready d = true ∧
     here ∧
     good ∧
     s.on fWDSTAT_WSUPOK = false) ∧
    (let d : Desc := (⟨.lane 0, 3, 0, 0, [0x68] ++ List.replicate 63 0⟩ : Desc)
     let walk : Nat := 0
     let ilim : Nat := 4
     let s : State := up .chapter
     let s : State := s.setFld fWDSTAT_WSUPOK 1
     let s : State := { s with drv := { s.drv with ovWsup := false } }
     let s : State := { s with role := .chapter }
     let here := s.driverRing d = true ∧ walk = s.drvWalk ∧ walk < 16
     let good := 4 ≤ ilim ∧ ilim ≤ 32
     s.ready d = true ∧
     here ∧
     good ∧
     s.on fWDSTAT_WSUPOK = true ∧
     s.drv.ovWsup = false ∧
     s.driveBusy = false ∧
     s.offLongEnough = true ∧
     (s.role = .chapter ∨ s.drvWalk ≠ 0)) ∧
    (let d : Desc := (⟨.lane 0, 3, 0, 0, [0x68] ++ List.replicate 63 0⟩ : Desc)
     let walk : Nat := 0
     let ilim : Nat := 4
     let s : State := up .chapter
     let s : State := s.setFld fWDCTL_EN 1
     let s : State := { s with drv := { s.drv with powerDesc := none } }
     let here := s.driverRing d = true ∧ walk = s.drvWalk ∧ walk < 16
     let good := 4 ≤ ilim ∧ ilim ≤ 32
     s.ready d = true ∧
     here ∧
     good ∧
     s.on fWDCTL_EN = true ∧
     s.drv.powerDesc = none) ∧
    (let d : Desc := (⟨.lane 0, 3, 0, 0, [0x68] ++ List.replicate 63 0⟩ : Desc)
     let ilim : Nat := 4
     let walk : Nat := 15
     let s : State := up .chapter
     let s : State := { s with role := .chapter }
     let good := 4 ≤ ilim ∧ ilim ≤ 32
     let local_ := s.role = .chapter ∧ s.driverRing d = true
     s.ready d = true ∧
     local_ ∧
     0 < walk ∧
     walk < 16 ∧
     good ∧
     s.xing? walk = none) ∧
    (let d : Desc := (⟨.lane 0, 3, 0, 0, [0x68] ++ List.replicate 63 0⟩ : Desc)
     let walk : Nat := 0
     let s : State := up .chapter
     let here := s.driverRing d = true ∧ walk = s.drvWalk ∧ walk < 16
     s.ready d = true ∧
     here) ∧
    (let d : Desc := (⟨.lane 0, 3, 0, 0, [0x68] ++ List.replicate 63 0⟩ : Desc)
     let walk : Nat := 16
     let s : State := up .chapter
     s.ready d = true ∧
     s.driverRing d = true ∧
     15 < walk) ∧
    (let d : Desc := ds 0x68 []
     let s : State := up .chapter
     let s : State := { s with role := .cell }
     s.ready d = true ∧
     s.onWalk = true) ∧
    (let d : Desc := (⟨.lane 0, 3, 0, 0, [0x68] ++ List.replicate 63 0⟩ : Desc)
     let s : State := up .chapter
     s.ready d = true ∧
     s.onWalk = false) ∧
    (let d : Desc := (⟨.lane 0, 3, 0, 0, [0x68] ++ List.replicate 63 0⟩ : Desc)
     let addr : Nat := 4095
     let kind : Nat := 3
     let s : State := up .chapter
     let s : State := { s with role := .chapter }
     let local_ := s.role = .chapter ∧ s.driverRing d = true
     s.ready d = true ∧
     local_ ∧
     addr < 4096 ∧
     kind < 4) ∧
    (let d : Desc := (⟨.lane 0, 3, 0, 0, [0x68] ++ List.replicate 63 0⟩ : Desc)
     let s : State := up .chapter
     let s : State := { s with role := .chapter }
     let local_ := s.role = .chapter ∧ s.driverRing d = true
     s.ready d = true ∧
     local_) ∧
    (let d : Desc := (⟨.lane 0, 3, 0, 0, [0x68] ++ List.replicate 63 0⟩ : Desc)
     let addr : Nat := 4096
     let s : State := up .chapter
     let s : State := { s with role := .chapter }
     let local_ := s.role = .chapter ∧ s.driverRing d = true
     s.ready d = true ∧
     local_ ∧
     4095 < addr) ∧
    (let d : Desc := (⟨.walk, 0, 3, 0, [0x68] ++ List.replicate 63 0⟩ : Desc)
     let s : State := up .chapter
     let s : State := { s with role := .crossing }
     let s : State := { s with role := .crossing }
     s.ready d = true ∧
     s.role = .crossing ∧
     d.path = .walk) := by
  refine ⟨?_, ?_, ?_, ?_, ?_, ?_, ?_, ?_, ?_, ?_, ?_, ?_, ?_, ?_, ?_⟩ <;> decide +kernel

/-- What the hypotheses of Attachments are met by, clause by clause. -/
theorem witness_Attachments :
    (let s : State := up .cell
     s.awake = true) ∧
    (let s : State := up .cell
     let s : State := { s with node := { s.node with cuts := [] } }
     s.awake = true ∧
     s.onWalk = true ∧
     s.node.cuts = []) ∧
    (let s : State := up .cell
     let s : State := { s with node := { s.node with cuts := [s.now / 32768, s.now / 32768] } }
     let s : State := { s with node := { s.node with cuts := [s.now / 32768, s.now / 32768] } }
     s.awake = true ∧
     s.onWalk = true ∧
     s.node.cuts = [s.now / 32768, s.now / 32768]) ∧
    (let s : State := up .cell
     let s : State := { s with role := .chapter }
     s.awake = true ∧
     s.onWalk = false) ∧
    (let s : State := up .cell
     let s : State := s.setFld fPWRSRC_LINEOK 1
     let s : State := { s with rst := { s.rst with tokWait := none } }
     s.awake = true ∧
     s.onWalk = true ∧
     s.on fPWRSRC_LINEOK = true ∧
     s.rst.tokWait = none) ∧
    (let s : State := up .cell
     let s : State := s.setFld fLJSTAT_PRESENT 0
     s.awake = true ∧
     s.hasJack = true ∧
     s.on fLJSTAT_PRESENT = false) ∧
    (let s : State := up .cell
     let s : State := s.setFld fLJSTAT_PRESENT 1
     let s : State := s.setFld fBOOTSTAT_RECOV 0
     s.awake = true ∧
     s.hasJack = true ∧
     s.on fLJSTAT_PRESENT = true ∧
     s.on fBOOTSTAT_RECOV = false) ∧
    (let s : State := up .cell
     s.awake = true ∧
     s.hasJack = true) ∧
    (let s : State := up .cell
     let s : State := { s with role := .chapter }
     s.awake = true ∧
     s.hasJack = false) := by
  refine ⟨?_, ?_, ?_, ?_, ?_, ?_, ?_, ?_, ?_⟩ <;> decide +kernel

/-- What the hypotheses of PowerSourcesAndResets are met by (PowerSources), clause by clause. -/
theorem witness_PowerSources :
    (let s : State := up .cell
     let s : State := { s with rst := { s.rst with tokWait := none } }
     s.awake = true ∧
     s.rst.tokWait = none) ∧
    (let s : State := up .cell
     let s : State := s
     let s : State := { s with rst := { s.rst with tokWait := none } }
     let s : State := s.setFld fPWRSRC_LINEOK 0
     let line := s.on fPWRSRC_LINEOK
     s.awake = true ∧
     s.rst.tokWait = none ∧
     s.onWalk = true ∧
     line = false) ∧
    (let s : State := up .cell
     let s : State := s
     let s : State := s.setFld fPWRSRC_LINEOK 1
     let s : State := { s with rst := { s.rst with tokWait := none } }
     let line := s.on fPWRSRC_LINEOK
     s.awake = true ∧
     s.rst.tokWait = none ∧
     (s.onWalk = false ∨ line = true)) ∧
    (let s : State := up .cell
     let s : State := s.setFld fPWRSRC_LINEOK 1
     let s : State := { s with rst := { s.rst with tokWait := none } }
     let s : State := s.setFld fPWRSRC_LINEOK 1
     let line := s.on fPWRSRC_LINEOK
     s.awake = true ∧
     s.rst.tokWait = none ∧
     s.onWalk = true ∧
     line = true) ∧
    (let s : State := up .cell
     let s : State := s
     let s : State := { s with rst := { s.rst with tokWait := none } }
     let line := s.on fPWRSRC_LINEOK
     s.awake = true ∧
     s.rst.tokWait = none ∧
     (s.onWalk = false ∨ line = false)) ∧
    (let s : State := up .cell
     let s : State := s
     let s : State := { s with rst := { s.rst with tokWait := none } }
     let s : State := { s with role := .loop }
     let s : State := s.setFld fPWRSRC_LINEOK 0
     let line := s.on fPWRSRC_LINEOK
     s.awake = true ∧
     s.rst.tokWait = none ∧
     s.role = .loop ∧
     line = false) ∧
    (let s : State := up .cell
     let s : State := s.setFld fPWRSRC_LINEOK 1
     let s : State := { s with rst := { s.rst with tokWait := none } }
     let s : State := { s with role := .loop }
     let s : State := s.setFld fPWRSRC_LINEOK 1
     let s : State := { s with pwr := { s.pwr with fed := true } }
     let s : State := s.setFld fPWRSRC_SRC 0
     let s : State := s.setFld fPWRSRC_BAKOK 1
     let fed := s.pwr.fed = true
     let src := s.fld fPWRSRC_SRC
     let line := s.on fPWRSRC_LINEOK
     s.awake = true ∧
     s.rst.tokWait = none ∧
     s.role = .loop ∧
     line = true ∧
     fed ∧
     src = 0 ∧
     s.on fPWRSRC_BAKOK = true) ∧
    (let s : State := up .cell
     let s : State := s.setFld fPWRSRC_LINEOK 1
     let s : State := { s with rst := { s.rst with tokWait := none } }
     let s : State := { s with role := .loop }
     let s : State := s.setFld fPWRSRC_LINEOK 1
     let s : State := { s with pwr := { s.pwr with fed := true } }
     let s : State := s.setFld fPWRSRC_SRC 0
     let s : State := s.setFld fPWRSRC_BAKOK 0
     let fed := s.pwr.fed = true
     let src := s.fld fPWRSRC_SRC
     let line := s.on fPWRSRC_LINEOK
     s.awake = true ∧
     s.rst.tokWait = none ∧
     s.role = .loop ∧
     line = true ∧
     fed ∧
     src = 0 ∧
     s.on fPWRSRC_BAKOK = false) ∧
    (let s : State := up .cell
     let s : State := s
     let s : State := { s with rst := { s.rst with tokWait := none } }
     s.awake = true ∧
     s.rst.tokWait = none ∧
     s.role ≠ .loop) ∧
    (let s : State := up .cell
     let s : State := { s with rst := { s.rst with tokWait := none } }
     s.awake = true ∧
     s.rst.tokWait = none ∧
     s.role ≠ .chapter) ∧
    (let s : State := up .cell
     let s : State := { s with role := .chapter }
     let s : State := { s with rst := { s.rst with tokWait := none } }
     let s : State := { s with role := .chapter }
     s.awake = true ∧
     s.rst.tokWait = none ∧
     s.role = .chapter) ∧
    (let s : State := up .cell
     let s : State := { s with rst := { s.rst with tokWait := none } }
     let s : State := { s with pwr := { s.pwr with ovLine := true } }
     s.awake = true ∧
     s.rst.tokWait = none ∧
     s.pwr.ovLine = true) ∧
    (let s : State := up .cell
     let s : State := { s with rst := { s.rst with tokWait := none } }
     let s : State := { s with role := .cell }
     let s : State := { s with pwr := { s.pwr with fed := true } }
     let fed := s.pwr.fed = true
     s.awake = true ∧
     s.rst.tokWait = none ∧
     s.role = .cell ∧
     fed) ∧
    (let s : State := up .cell
     let s : State := { s with rst := { s.rst with tokWait := none } }
     let s : State := { s with role := .cell }
     let s : State := s.setFld fPWRSRC_CRESOK 1
     let s : State := { s with pwr := { s.pwr with fed := true } }
     let s : State := s.setFld fPWRSRC_SRC 0
     let s : State := s.setFld fPWRSRC_AUXOK 0
     let s : State := s.setFld fPWRSRC_BAKOK 1
     let fed := s.pwr.fed = true
     let src := s.fld fPWRSRC_SRC
     s.awake = true ∧
     s.rst.tokWait = none ∧
     s.role = .cell ∧
     s.on fPWRSRC_CRESOK = true ∧
     fed ∧
     src = 0 ∧
     s.on fPWRSRC_AUXOK = false ∧
     s.on fPWRSRC_BAKOK = true) ∧
    (let s : State := up .cell
     let s : State := { s with rst := { s.rst with tokWait := none } }
     let s : State := { s with role := .cell }
     let s : State := s.setFld fPWRSRC_CRESOK 1
     let s : State := { s with pwr := { s.pwr with fed := true } }
     let s : State := s.setFld fPWRSRC_SRC 0
     let s : State := s.setFld fPWRSRC_AUXOK 0
     let s : State := s.setFld fPWRSRC_BAKOK 0
     let fed := s.pwr.fed = true
     let src := s.fld fPWRSRC_SRC
     s.awake = true ∧
     s.rst.tokWait = none ∧
     s.role = .cell ∧
     s.on fPWRSRC_CRESOK = true ∧
     fed ∧
     src = 0 ∧
     s.on fPWRSRC_AUXOK = false ∧
     s.on fPWRSRC_BAKOK = false) ∧
    (let s : State := up .cell
     let s : State := s.setFld fPWRSRC_LINEOK 1
     let s : State := { s with rst := { s.rst with tokWait := none } }
     let s : State := { s with role := .cell }
     let s : State := s.setFld fPWRSRC_LINEOK 1
     let s : State := s.setFld fPWRSRC_CRESOK 0
     let line := s.on fPWRSRC_LINEOK
     s.awake = true ∧
     s.rst.tokWait = none ∧
     s.role = .cell ∧
     line = true ∧
     s.on fPWRSRC_CRESOK = false) ∧
    (let s : State := up .cell
     let s : State := { s with rst := { s.rst with tokWait := none } }
     let s : State := s.setFld fPWRSRC_CRESOK 1
     s.awake = true ∧
     s.rst.tokWait = none ∧
     s.on fPWRSRC_CRESOK = true) ∧
    (let s : State := up .cell
     let s : State := { s with role := .chapter }
     let s : State := { s with rst := { s.rst with tokWait := none } }
     let s : State := s.setFld fPWRSRC_AUXOK 0
     let s : State := { s with pwr := { s.pwr with fed := true } }
     let fed := s.pwr.fed = true
     s.awake = true ∧
     s.rst.tokWait = none ∧
     s.on fPWRSRC_AUXOK = false ∧
     fed) ∧
    (let s : State := up .cell
     let s : State := { s with rst := { s.rst with tokWait := none } }
     let s : State := s.setFld fPWRSRC_AUXOK 0
     let s : State := { s with pwr := { s.pwr with fed := false } }
     let s : State := { s with latched := true }
     let fed := s.pwr.fed = true
     s.awake = true ∧
     s.rst.tokWait = none ∧
     s.on fPWRSRC_AUXOK = false ∧
     s.pwr.fed = false ∧
     s.latched = true ∧
     s.role ≠ .loop) ∧
    (let s : State := up .cell
     let s : State := { s with rst := { s.rst with tokWait := none } }
     let s : State := s.setFld fPWRSRC_AUXOK 1
     let s : State := { s with pwr := { s.pwr with fed := true } }
     let s : State := s.setFld fPWRSRC_SRC 1
     let s : State := { s with role := .chapter }
     let fed := s.pwr.fed = true
     let src := s.fld fPWRSRC_SRC
     s.awake = true ∧
     s.rst.tokWait = none ∧
     s.on fPWRSRC_AUXOK = true ∧
     fed ∧
     src = 1 ∧
     s.role = .chapter) ∧
    (let s : State := up .cell
     let s : State := { s with rst := { s.rst with tokWait := none } }
     let s : State := s.setFld fPWRSRC_AUXOK 1
     let s : State := { s with pwr := { s.pwr with fed := true } }
     let s : State := s.setFld fPWRSRC_SRC 1
     let s : State := { s with role := .cell }
     let s : State := s.setFld fPWRSRC_CRESOK 1
     let fed := s.pwr.fed = true
     let src := s.fld fPWRSRC_SRC
     s.awake = true ∧
     s.rst.tokWait = none ∧
     s.on fPWRSRC_AUXOK = true ∧
     fed ∧
     src = 1 ∧
     s.role = .cell ∧
     s.on fPWRSRC_CRESOK = true) ∧
    (let s : State := up .cell
     let s : State := { s with rst := { s.rst with tokWait := none } }
     let s : State := { s with pwr := { s.pwr with fed := true } }
     let fed := s.pwr.fed = true
     s.awake = true ∧
     s.rst.tokWait = none ∧
     fed) ∧
    (let s : State := up .cell
     let s : State := (s.setFld fPWRSRC_BAKOK 1).setFld fPWRSRC_SRC 0
     let s : State := { s with rst := { s.rst with tokWait := none } }
     let s : State := s.setFld fPWRSRC_BAKOK 1
     let src := s.fld fPWRSRC_SRC
     s.awake = true ∧
     s.rst.tokWait = none ∧
     s.on fPWRSRC_BAKOK = true ∧
     src ≠ 2) ∧
    (let s : State := up .cell
     let s : State := { s with rst := { s.rst with tokWait := none } }
     let s : State := { s with pwr := { s.pwr with bakSeen := true } }
     s.awake = true ∧
     s.rst.tokWait = none ∧
     s.pwr.bakSeen = true) ∧
    (let s : State := up .cell
     let s : State := { s with rst := { s.rst with tokWait := none } }
     let s : State := { s with pwr := { s.pwr with bakSeen := false } }
     s.awake = true ∧
     s.rst.tokWait = none ∧
     s.pwr.bakSeen = false) ∧
    (let s : State := up .cell
     let s : State := { s with rst := { s.rst with tokWait := none } }
     let s : State := { s with role := .cell }
     let s : State := { s with pwr := { s.pwr with fed := true } }
     let s : State := s.setFld fPWRSRC_SRC 0
     let s : State := s.setFld fPWRSRC_AUXOK 1
     let fed := s.pwr.fed = true
     let src := s.fld fPWRSRC_SRC
     s.awake = true ∧
     s.rst.tokWait = none ∧
     s.role = .cell ∧
     fed ∧
     src = 0 ∧
     s.on fPWRSRC_AUXOK = true) ∧
    (let s : State := up .cell
     let s : State := { s with rst := { s.rst with tokWait := none } }
     let s : State := { s with pwr := { s.pwr with fed := false } }
     let fed := s.pwr.fed = true
     s.awake = true ∧
     s.rst.tokWait = none ∧
     s.pwr.fed = false) ∧
    (let s : State := up .cell
     let s : State := (s.setFld fFONTSTAT_RUN 1).setFld fFONTSTAT_FLOWCAD 1
     let s : State := { s with rst := { s.rst with tokWait := none } }
     let s : State := { s with role := .cell }
     let s : State := { s with pwr := { s.pwr with fed := true } }
     let s : State := s.setFld fPWRSRC_SRC 0
     let s : State := s.setFld fSACCLAIM_CLAIM 0
     let fed := s.pwr.fed = true
     let src := s.fld fPWRSRC_SRC
     s.awake = true ∧
     s.rst.tokWait = none ∧
     s.role = .cell ∧
     fed ∧
     src = 0 ∧
     s.shedActive 2 = true ∧
     s.shedActive 1 = false ∧
     s.fld fSACCLAIM_CLAIM = 0) ∧
    (let s : State := up .cell
     let s : State := { s with rst := { s.rst with tokWait := none } }
     s.awake = true ∧
     s.rst.tokWait = none ∧
     (∀ k < 6, s.shedActive k = false)) := by
  refine ⟨?_, ?_, ?_, ?_, ?_, ?_, ?_, ?_, ?_, ?_, ?_, ?_, ?_, ?_, ?_, ?_, ?_, ?_, ?_, ?_, ?_, ?_, ?_, ?_, ?_, ?_, ?_, ?_, ?_⟩ <;> decide +kernel

/-- What the hypotheses of PowerSourcesAndResets are met by (PowerResets), clause by clause. -/
theorem witness_PowerResets :
    (let s : State := up .cell
     let s : State := { s with latched := true }
     let s : State := { s with rst := { s.rst with hold := false } }
     s.latched = true ∧
     s.slp.st ≠ .off ∧
     s.rst.hold = false) ∧
    (let s : State := up .cell
     let s : State := { s with latched := true }
     let s : State := { s with rst := { s.rst with hold := false } }
     s.latched = true ∧
     s.slp.st ≠ .off ∧
     s.rst.hold = false) ∧
    (let s : State := up .cell
     let s : State := { s with slp := { s.slp with st := .off } }
     let s : State := { s with latched := true }
     let s : State := { s with slp := { s.slp with st := .off } }
     let s : State := { s with pwr := { s.pwr with fed := true } }
     s.latched = true ∧
     s.slp.st = .off ∧
     s.pwr.fed = true) ∧
    (let s : State := up .cell
     let s : State := { s with latched := false }
     let s : State := { s with latched := false }
     s.latched = false) ∧
    (let s : State := up .cell
     let s : State := { s with slp := { s.slp with st := .off } }
     let s : State := { s with slp := { s.slp with st := .off } }
     s.slp.st = .off) ∧
    (let s : State := up .cell
     let s : State := { s with latched := false }
     let s : State := { s with latched := false }
     let s : State := { s with pwr := { s.pwr with fed := true } }
     s.latched = false ∧
     s.pwr.fed = true) ∧
    (let s : State := up .cell
     let s : State := { s with latched := false }
     let s : State := { s with latched := false }
     let s : State := { s with pwr := { s.pwr with fed := true } }
     s.latched = false ∧
     s.pwr.fed = true) ∧
    (let s : State := up .cell
     let s : State := { s with latched := true }
     s.latched = true) ∧
    (let d : Desc := ds 0 []
     let s : State := up .cell
     s.ready d = true) ∧
    (let d : Desc := ds 0 [25]
     let s : State := up .cell
     s.ready d = true ∧
     24 < dsArg d 0) ∧
    (let d : Desc := ds 0 [3, 1]
     let s : State := up .cell
     let s : State := { s with role := .chapter }
     let s : State := { s with role := .chapter }
     s.ready d = true ∧
     (s.role = .chapter ∨ s.role = .crossing) ∧
     dsArg d 0 = 3 ∧
     dsArg d 1 = 1) ∧
    (let d : Desc := ds 0 [24, 1]
     let s : State := up .cell
     let s : State := { s with role := .cell }
     let s : State := s.setFld fSACCLAIM_CLAIM 0
     s.ready d = true ∧
     s.role = .cell ∧
     dsArg d 0 ≤ 24 ∧
     dsArg d 1 = 1 ∧
     argsZeroFrom d 2 = true ∧
     s.fld fSACCLAIM_CLAIM = 0 ∧
     s.awake = true) := by
  refine ⟨?_, ?_, ?_, ?_, ?_, ?_, ?_, ?_, ?_, ?_, ?_, ?_⟩ <;> decide +kernel

/-- What the hypotheses of Motion are met by (MotionDescriptors), clause by clause. -/
theorem witness_MotionDescriptors :
    (let d : Desc := ds 0 []
     let s : State := up .cell
     let s : State := s.setFld fSACCLAIM_CLAIM 0
     s.ready d = true ∧
     s.fld fSACCLAIM_CLAIM = 0 ∧
     s.awake = true) ∧
    (let d : Desc := ds 0 []
     let s : State := up .cell
     let s : State := { s with role := .chapter }
     let s : State := s.setFld fSACCLAIM_CLAIM 0
     let s : State := { s with role := .crossing }
     s.ready d = true ∧
     s.fld fSACCLAIM_CLAIM = 0 ∧
     s.awake = true ∧
     (s.role = .crossing ∨ s.role = .chapter)) ∧
    (let d : Desc := ds 0 []
     let s : State := up .cell
     let s : State := { s with mot := { s.mot with mode := 1 } }
     let s : State := s.setFld fSACCLAIM_CLAIM 0
     let s : State := { s with role := .cell }
     let s : State := s.setFld fMOTCTL_AEN 1
     let mems := s.role = .cell ∨ s.role = .loop
     s.ready d = true ∧
     s.fld fSACCLAIM_CLAIM = 0 ∧
     s.awake = true ∧
     mems ∧
     s.on fMOTCTL_AEN = true) ∧
    (let d : Desc := ds 0 []
     let s : State := up .cell
     let s : State := s.setFld fSACCLAIM_CLAIM 0
     let s : State := { s with role := .cell }
     let s : State := s.setFld fMOTCTL_AEN 0
     let s : State := s.setFld fMOTCTL_GEN 0
     let mems := s.role = .cell ∨ s.role = .loop
     let still := s.on fMOTCTL_AEN = false ∧ s.on fMOTCTL_GEN = false
     s.ready d = true ∧
     s.fld fSACCLAIM_CLAIM = 0 ∧
     s.awake = true ∧
     mems ∧
     still) ∧
    (let d : Desc := ds 0 (args [(0, 1, 4)])
     let s : State := up .cell
     let s : State := s.setFld fSACCLAIM_CLAIM 0
     let s : State := { s with role := .cell }
     let mems := s.role = .cell ∨ s.role = .loop
     s.ready d = true ∧
     s.fld fSACCLAIM_CLAIM = 0 ∧
     s.awake = true ∧
     mems ∧
     4 ≤ dsArg d 0) ∧
    (let d : Desc := ds 0 (args [(0, 1, 1)])
     let s : State := up .cell
     let s : State := { s with mot := { s.mot with mode := 2 } }
     let s : State := s.setFld fSACCLAIM_CLAIM 0
     let s : State := { s with role := .cell }
     let mems := s.role = .cell ∨ s.role = .loop
     s.ready d = true ∧
     s.fld fSACCLAIM_CLAIM = 0 ∧
     s.awake = true ∧
     mems ∧
     dsArg d 0 = 1 ∧
     s.motTooBig = false ∧
     2 ≤ s.mot.mode) ∧
    (let d : Desc := ds 0 (args [(0, 1, 2)])
     let s : State := up .cell
     let s : State := s.setFld fSACCLAIM_CLAIM 0
     let s : State := { s with role := .loop }
     s.ready d = true ∧
     s.fld fSACCLAIM_CLAIM = 0 ∧
     s.awake = true ∧
     s.role = .loop ∧
     dsArg d 0 = 2) ∧
    (let d : Desc := ds 0 (args [(0, 1, 2)])
     let s : State := up .cell
     let s : State := s.setFld fSACCLAIM_CLAIM 0
     let s : State := { s with role := .cell }
     let s : State := s.setFld fMOTCTL_GEN 0
     let s : State := { s with mot := { s.mot with mode := 0 } }
     s.ready d = true ∧
     s.fld fSACCLAIM_CLAIM = 0 ∧
     s.awake = true ∧
     s.role = .cell ∧
     dsArg d 0 = 2 ∧
     s.on fMOTCTL_GEN = false ∧
     s.motTooBig = false ∧
     s.mot.mode = 0 ∧
     s.tokensRefuse (s.needNow + 2) = true) ∧
    (let d : Desc := ds 0 (args [(0, 1, 1)])
     let s : State := up .cell
     let s : State := s.setFld fSACCLAIM_CLAIM 0
     let s : State := { s with role := .cell }
     let s : State := s.setFld fMOTCTL_AEN 0
     let s : State := s.setFld fMOTCTL_GEN 0
     let s : State := { s with mot := { s.mot with mode := 0 } }
     let mems := s.role = .cell ∨ s.role = .loop
     let still := s.on fMOTCTL_AEN = false ∧ s.on fMOTCTL_GEN = false
     let calm := s.tokensRefuse s.needNow = false ∧ s.fld fMOTCTL_ODR < 6 ∧ s.motTooBig = false
     s.ready d = true ∧
     s.fld fSACCLAIM_CLAIM = 0 ∧
     s.awake = true ∧
     mems ∧
     dsArg d 0 = 1 ∧
     still ∧
     calm ∧
     s.mot.mode = 0) ∧
    (let d : Desc := ds 0 []
     let s : State := up .cell
     let s : State := s.setFld fSACCLAIM_CLAIM 0
     let s : State := { s with role := .cell }
     let s : State := s.setFld fMOTCTL_AEN 1
     let s : State := s.setFld fMOTCTL_GEN 0
     let s : State := { s with mot := { s.mot with mode := 1 } }
     let mems := s.role = .cell ∨ s.role = .loop
     s.ready d = true ∧
     s.fld fSACCLAIM_CLAIM = 0 ∧
     s.awake = true ∧
     mems ∧
     s.on fMOTCTL_AEN = true ∧
     s.on fMOTCTL_GEN = false ∧
     s.mot.mode = 1) ∧
    (let d : Desc := ds 0 (args [(8, 4, 0)])
     let s : State := up .cell
     let s : State := s.setFld fSACCLAIM_CLAIM 0
     let s : State := { s with role := .cell }
     let mems := s.role = .cell ∨ s.role = .loop
     s.ready d = true ∧
     s.fld fSACCLAIM_CLAIM = 0 ∧
     s.awake = true ∧
     mems ∧
     dsArgs d 8 4 = 0) ∧
    (let d : Desc := ds 0 (args [(6, 1, 0), (8, 4, 1)])
     let s : State := up .cell
     let s : State := s.setFld fSACCLAIM_CLAIM 0
     let s : State := { s with role := .cell }
     let s : State := { s with mot := { s.mot with mode := 1 } }
     let mems := s.role = .cell ∨ s.role = .loop
     s.ready d = true ∧
     s.fld fSACCLAIM_CLAIM = 0 ∧
     s.awake = true ∧
     mems ∧
     dsArg d 6 = 0 ∧
     0 < dsArgs d 8 4 ∧
     dsArgs d 8 4 < 2 ^ 24 ∧
     s.motTooBig = false ∧
     s.mot.mode = 1) ∧
    (let d : Desc := ds 0 (args [(0, 6, 1), (8, 4, 0xFFFFFF)])
     let s : State := up .cell
     let s : State := s.setFld fSACCLAIM_CLAIM 0
     let s : State := { s with role := .cell }
     let s : State := s.setFld fMOTCTL_AEN 0
     let s : State := s.setFld fMOTCTL_GEN 0
     let s : State := { s with mot := { s.mot with mode := 0 } }
     let mems := s.role = .cell ∨ s.role = .loop
     let still := s.on fMOTCTL_AEN = false ∧ s.on fMOTCTL_GEN = false
     let calm := s.tokensRefuse s.needNow = false ∧ s.fld fMOTCTL_ODR < 6 ∧ s.motTooBig = false
     let when_ := dsArgs d 0 6
     s.ready d = true ∧
     s.fld fSACCLAIM_CLAIM = 0 ∧
     s.awake = true ∧
     mems ∧
     dsArg d 6 = 0 ∧
     0 < dsArgs d 8 4 ∧
     dsArgs d 8 4 < 2 ^ 24 ∧
     still ∧
     calm ∧
     s.mot.mode = 0 ∧
     past when_ s.now = false) ∧
    (let d : Desc := ds 0 (args [(6, 1, 2), (8, 4, 0xFFFFFF)])
     let s : State := up .cell
     let s : State := { s with clk := { s.clk with line := 1 } }
     let s : State := s.setFld fSACCLAIM_CLAIM 0
     let s : State := { s with role := .cell }
     let s : State := s.setFld fMOTCTL_AEN 0
     let s : State := s.setFld fMOTCTL_GEN 0
     let s : State := { s with mot := { s.mot with mode := 0 } }
     let mems := s.role = .cell ∨ s.role = .loop
     let still := s.on fMOTCTL_AEN = false ∧ s.on fMOTCTL_GEN = false
     let calm := s.tokensRefuse s.needNow = false ∧ s.fld fMOTCTL_ODR < 6 ∧ s.motTooBig = false
     let when_ := dsArgs d 0 6
     s.ready d = true ∧
     s.fld fSACCLAIM_CLAIM = 0 ∧
     s.awake = true ∧
     mems ∧
     dsArg d 6 = 2 ∧
     0 < dsArgs d 8 4 ∧
     dsArgs d 8 4 < 2 ^ 24 ∧
     still ∧
     calm ∧
     s.mot.mode = 0 ∧
     past when_ s.now = true) ∧
    (let d : Desc := ds 0 []
     let s : State := up .cell
     let s : State := { s with mot := { s.mot with mode := 3 } }
     let s : State := s.setFld fSACCLAIM_CLAIM 0
     let s : State := { s with role := .cell }
     let mems := s.role = .cell ∨ s.role = .loop
     s.ready d = true ∧
     s.fld fSACCLAIM_CLAIM = 0 ∧
     s.awake = true ∧
     mems ∧
     s.mot.mode ≠ 0) ∧
    (let d : Desc := ds 0 []
     let s : State := up .cell
     let s : State := s.setFld fSACCLAIM_CLAIM 0
     let s : State := { s with role := .cell }
     let s : State := s.setFld fMOTCTL_AEN 0
     let s : State := s.setFld fMOTCTL_GEN 0
     let s : State := { s with mot := { s.mot with mode := 0 } }
     let mems := s.role = .cell ∨ s.role = .loop
     let still := s.on fMOTCTL_AEN = false ∧ s.on fMOTCTL_GEN = false
     s.ready d = true ∧
     s.fld fSACCLAIM_CLAIM = 0 ∧
     s.awake = true ∧
     mems ∧
     still ∧
     s.mot.mode = 0) ∧
    (let d : Desc := ds 0 (args [(0, 1, 2)])
     let s : State := up .cell
     let s : State := s.setFld fSACCLAIM_CLAIM 0
     let s : State := { s with role := .cell }
     let mems := s.role = .cell ∨ s.role = .loop
     s.ready d = true ∧
     s.fld fSACCLAIM_CLAIM = 0 ∧
     s.awake = true ∧
     mems ∧
     2 ≤ dsArg d 0) ∧
    (let d : Desc := ds 0 (args [(0, 1, 0)])
     let s : State := up .cell
     let s : State := s.setFld fSACCLAIM_CLAIM 0
     let s : State := { s with role := .cell }
     let s : State := s.setFld fMOTCTL_AEN 0
     let s : State := s.setFld fMOTCTL_GEN 0
     let s : State := { s with mot := { s.mot with mode := 0 } }
     let mems := s.role = .cell ∨ s.role = .loop
     let still := s.on fMOTCTL_AEN = false ∧ s.on fMOTCTL_GEN = false
     s.ready d = true ∧
     s.fld fSACCLAIM_CLAIM = 0 ∧
     s.awake = true ∧
     mems ∧
     dsArg d 0 = 0 ∧
     still ∧
     s.mot.mode = 0) ∧
    (let d : Desc := ds 0 []
     let s : State := up .cell
     let s : State := s.setFld fSACCLAIM_CLAIM 0
     let s : State := { s with role := .cell }
     let mems := s.role = .cell ∨ s.role = .loop
     s.ready d = true ∧
     s.fld fSACCLAIM_CLAIM = 0 ∧
     s.awake = true ∧
     mems) ∧
    (let d : Desc := ds 0 []
     let s : State := up .cell
     let s : State := s.setFld fSACCLAIM_CLAIM 0
     let s : State := { s with role := .cell }
     let mems := s.role = .cell ∨ s.role = .loop
     s.ready d = true ∧
     s.fld fSACCLAIM_CLAIM = 0 ∧
     s.awake = true ∧
     mems) := by
  refine ⟨?_, ?_, ?_, ?_, ?_, ?_, ?_, ?_, ?_, ?_, ?_, ?_, ?_, ?_, ?_, ?_, ?_, ?_, ?_, ?_⟩ <;> decide +kernel

/-- What the hypotheses of Motion are met by (MotionEvents), clause by clause. -/
theorem witness_MotionEvents :
    (let s : State := up .cell
     let s : State := { s with role := .cell }
     s.role = .cell ∧
     s.awake = true) ∧
    (let v : Word := 1
     let s : State := up .cell
     let s : State := { s with role := .cell }
     let s : State := s.setFld fMOTCTL_AEN 1
     let s : State := s.setFld fMOTCTL_GEN 0
     let s : State := { s with mot := { s.mot with mode := 0 } }
     let s : State := s.setFld fMOTCAP_NCAP 0
     let on_ := s.on fMOTCTL_AEN = true ∧ s.on fMOTCTL_GEN = false
     s.role = .cell ∧
     s.awake = true ∧
     on_ ∧
     s.mot.mode = 0 ∧
     s.fld fMOTCAP_NCAP = 0 ∧
     v.toNat % 2 = 1) ∧
    (let v : Word := 0
     let s : State := up .cell
     let s : State := { s with role := .cell }
     s.role = .cell ∧
     s.awake = true ∧
     v.toNat % 2 = 0) ∧
    (let v : Word := 0x10005
     let s : State := up .cell
     let s : State := s.setFld fMOTCAP_NCAP 7
     let s : State := { s with role := .cell }
     let s : State := s.setFld fMOTCTL_AEN 1
     let s : State := s.setFld fMOTCTL_GEN 0
     let s : State := { s with mot := { s.mot with mode := 0 } }
     let on_ := s.on fMOTCTL_AEN = true ∧ s.on fMOTCTL_GEN = false
     s.role = .cell ∧
     s.awake = true ∧
     on_ ∧
     s.mot.mode = 0 ∧
     0 < s.fld fMOTCAP_NCAP ∧
     v.toNat / 2 ^ 16 % 2 = 1 ∧
     past (s.fld fMOTTL_TIME + v.toNat % 2 ^ 16 * 2 ^ 32) s.now = false) ∧
    (let v : Word := 0
     let s : State := up .cell
     let s : State := { s with role := .cell }
     let s : State := s.setFld fMOTCTL_AEN 1
     let s : State := s.setFld fMOTCTL_GEN 0
     let s : State := { s with mot := { s.mot with mode := 2 } }
     let on_ := s.on fMOTCTL_AEN = true ∧ s.on fMOTCTL_GEN = false
     s.role = .cell ∧
     s.awake = true ∧
     on_ ∧
     s.mot.mode = 2 ∧
     v.toNat / 2 ^ 16 % 2 = 0) ∧
    (let s : State := up .cell
     let s : State := { s with mot := { s.mot with t := 1000 } }
     let s : State := { s with role := .cell }
     let s : State := { s with mot := { s.mot with mode := 1 } }
     s.role = .cell ∧
     s.awake = true ∧
     s.mot.mode = 1 ∧
     s.blockOn 20 = true ∧
     reached (s.motInstant s.mot.n).1 s.now = false) ∧
    (let x : StrobeIn := ⟨(1, 2, 3), (4, 5, 6), (7, 8, 9), (10, 11, 12), false, false, false⟩
     let s : State := up .cell
     let s : State := { s with role := .cell }
     let s : State := { s with mot := { s.mot with mode := 1 } }
     let s : State := s.setFld fMOTCTL_AEN 1
     let s : State := s.setFld fMOTCTL_GEN 0
     let s : State := { s with mot := { s.mot with setA := true } }
     let s : State := s.setFld fMOTCTL_HPK 0
     let s : State := s.setFld fMOTCTL_LPK 0
     let s : State := { s with mot := { s.mot with lastA := [] } }
     let on_ := s.on fMOTCTL_AEN = true ∧ s.on fMOTCTL_GEN = false
     let ready := fun (t : Nat) => reached t s.now = true
     s.role = .cell ∧
     s.awake = true ∧
     s.mot.mode = 1 ∧
     on_ ∧
     s.mot.setA = true ∧
     x.accBad = false ∧
     axisSat x.acc = false ∧
     s.fld fMOTCTL_HPK = 0 ∧
     s.fld fMOTCTL_LPK = 0 ∧
     s.mot.lastA = [] ∧
     ready (s.motInstant s.mot.n).1 ∧
     s.inSlice 50 53 = false) ∧
    (let s : State := up .cell
     let s : State := { s with st := { s.st with running := true, cur := some 53 } }
     let s : State := { s with role := .cell }
     let s : State := { s with mot := { s.mot with mode := 1 } }
     let ready := fun (t : Nat) => reached t s.now = true
     s.role = .cell ∧
     s.awake = true ∧
     s.mot.mode = 1 ∧
     s.blockOn 20 = true ∧
     ready (s.motInstant s.mot.n).1 ∧
     s.inSlice 50 53 = true) ∧
    (let s : State := up .cell
     let s : State := { s with role := .cell }
     let s : State := { s with mot := { s.mot with mode := 3 } }
     let s : State := { s with mot := { s.mot with n := s.fld fMOTCAP_NCAP } }
     let s : State := { s with mot := { s.mot with fifo := [] } }
     let s : State := { s with mot := { s.mot with upload := false } }
     let ready := fun (t : Nat) => reached t s.now = true
     s.role = .cell ∧
     s.awake = true ∧
     s.mot.mode = 3 ∧
     s.mot.n = s.fld fMOTCAP_NCAP ∧
     ready (s.motInstant s.mot.n).1 ∧
     s.mot.fifo = [] ∧
     s.mot.upload = false) ∧
    (let s : State := up .cell
     let s : State := { s with role := .cell }
     let s : State := { s with mot := { s.mot with mode := 0 } }
     s.role = .cell ∧
     s.awake = true ∧
     s.mot.mode = 0) ∧
    (let s : State := up .cell
     let s : State := { s with role := .cell }
     let s : State := s.setFld fMOTSTAT_ARUN 1
     s.role = .cell ∧
     s.awake = true ∧
     s.on fMOTSTAT_ARUN = true) ∧
    (let s : State := up .cell
     let s : State := { s with role := .cell }
     let s : State := s.setFld fMOTSTAT_GRUN 1
     s.role = .cell ∧
     s.awake = true ∧
     s.on fMOTSTAT_GRUN = true) ∧
    (let s : State := up .cell
     let s : State := { s with role := .cell }
     let s : State := s.setFld fMOTSTAT_GRUN 0
     s.role = .cell ∧
     s.awake = true ∧
     s.on fMOTSTAT_GRUN = false) ∧
    (let s : State := up .cell
     let s : State := { s with role := .cell }
     let s : State := s.setFld fMOTSTAT_ARUN 1
     let s : State := { s with mot := { s.mot with setA := true } }
     let s : State := { s with mot := { s.mot with mode := 1 } }
     s.role = .cell ∧
     s.awake = true ∧
     s.on fMOTSTAT_ARUN = true ∧
     s.mot.setA = true ∧
     s.mot.mode = 1 ∧
     s.mot.tmoA < 7) ∧
    (let s : State := up .cell
     let s : State := { s with role := .cell }
     let s : State := s.setFld fMOTSTAT_ARUN 1
     let s : State := { s with mot := { s.mot with setA := true } }
     let s : State := { s with mot := { s.mot with mode := 1 } }
     let s : State := { s with mot := { s.mot with tmoA := 7 } }
     s.role = .cell ∧
     s.awake = true ∧
     s.on fMOTSTAT_ARUN = true ∧
     s.mot.setA = true ∧
     s.mot.mode = 1 ∧
     s.mot.tmoA = 7) ∧
    (let s : State := up .cell
     let s : State := { s with role := .cell }
     let s : State := { s with mot := { s.mot with mode := 4 } }
     let s : State := { s with mot := { s.mot with desc := none } }
     let s : State := s.setFld fMOTCTL_INCLK 0
     s.role = .cell ∧
     s.awake = true ∧
     s.mot.mode = 4 ∧
     s.mot.desc = none ∧
     s.fld fMOTCTL_INCLK = 0) ∧
    (let d : Desc := ds 0 []
     let s : State := up .cell
     let s : State := { s with role := .cell }
     let s : State := { s with mot := { s.mot with mode := 4 } }
     let s : State := { s with mot := { s.mot with desc := some d } }
     s.role = .cell ∧
     s.awake = true ∧
     s.mot.mode = 4 ∧
     s.mot.desc = some d) ∧
    (let s : State := up .cell
     let s : State := { s with role := .cell }
     s.role = .cell ∧
     s.awake = true ∧
     s.mot.mode ≠ 4) ∧
    (let s : State := up .cell
     let s : State := { s with role := .cell }
     s.role = .cell ∧
     s.awake = true ∧
     s.mot.mode ≠ 5) ∧
    (let s : State := up .cell
     let s : State := { s with role := .cell }
     let s : State := { s with mot := { s.mot with mode := 5 } }
     s.role = .cell ∧
     s.awake = true ∧
     s.mot.mode = 5 ∧
     s.mot.tries < 3) ∧
    (let d : Desc := ds 0 (args [(0, 1, 0)])
     let s : State := up .cell
     let s : State := { s with role := .cell }
     let s : State := { s with mot := { s.mot with mode := 5 } }
     let s : State := { s with mot := { s.mot with desc := some d } }
     s.role = .cell ∧
     s.awake = true ∧
     s.mot.mode = 5 ∧
     s.mot.desc = some d ∧
     dsArg d 0 = 0) ∧
    (let i : Nat := 0
     let d : Desc := ds 0 []
     let s : State := up .cell
     let s : State := { s with role := .cell }
     let s : State := { s with mot := { s.mot with mode := 5 } }
     let s : State := { s with mot := { s.mot with desc := some d } }
     s.role = .cell ∧
     s.awake = true ∧
     s.mot.mode = 5 ∧
     s.mot.desc = some d ∧
     i < 7) ∧
    (let s : State := up .cell
     let s : State := s.setFld fMOTSTAT_ARUN 1
     let s : State := { s with role := .cell }
     let s : State := s.setFld fMOTSTAT_ARUN 1
     let s : State := s.setFld fRGCTL_REN 0
     let s : State := s.setFld fKNCFG_EN 0
     s.role = .cell ∧
     s.awake = true ∧
     s.blockOn 21 = true ∧
     s.on fMOTSTAT_ARUN = true ∧
     s.fld fRGCTL_REN = 0 ∧
     s.on fKNCFG_EN = false) ∧
    (let s : State := up .cell
     let s : State := { s with role := .cell }
     let s : State := s.setFld fMOTSTAT_ARUN 0
     let s : State := s.setFld fMOTSTAT_WATCH 0
     s.role = .cell ∧
     s.awake = true ∧
     s.on fMOTSTAT_ARUN = false ∧
     s.on fMOTSTAT_WATCH = false) := by
  refine ⟨?_, ?_, ?_, ?_, ?_, ?_, ?_, ?_, ?_, ?_, ?_, ?_, ?_, ?_, ?_, ?_, ?_, ?_, ?_, ?_, ?_, ?_, ?_, ?_⟩ <;> decide +kernel

/-- What the hypotheses of NodeFrames are met by, clause by clause. -/
theorem witness_NodeFrames :
    (let rx : LineRx := ⟨3, 20⟩
     let s : State := up .cell
     let s : State := { s with rst := { s.rst with tokWait := none } }
     let heard := fun (t : State) => t.on fLASTAT_LOCK = true ∧ t.fld fLASTAT_RATE = rx.rate.val ∧ t.fld fLASTAT_SWING = rx.swing.toNat
     let node := fun (t : State) => heard t ∧ s.besidesAll { t with node := s.node }
     s.awake = true ∧
     s.node.seqRx.length = 4 ∧
     s.rst.tokWait = none) ∧
    (let f : Frame := ⟨0xE, []⟩
     let rx : LineRx := ⟨3, 20⟩
     let s : State := up .cell
     let s : State := { s with rst := { s.rst with tokWait := none } }
     let heard := fun (t : State) => t.on fLASTAT_LOCK = true ∧ t.fld fLASTAT_RATE = rx.rate.val ∧ t.fld fLASTAT_SWING = rx.swing.toNat
     let node := fun (t : State) => heard t ∧ s.besidesAll { t with node := s.node }
     s.awake = true ∧
     s.node.seqRx.length = 4 ∧
     s.rst.tokWait = none ∧
     s.onWalk = true ∧
     frameOk false false f = false) ∧
    (let rx : LineRx := ⟨3, 20⟩
     let s : State := up .cell
     let s : State := { s with role := .chapter }
     let s : State := { s with rst := { s.rst with tokWait := none } }
     let heard := fun (t : State) => t.on fLASTAT_LOCK = true ∧ t.fld fLASTAT_RATE = rx.rate.val ∧ t.fld fLASTAT_SWING = rx.swing.toNat
     let node := fun (t : State) => heard t ∧ s.besidesAll { t with node := s.node }
     s.awake = true ∧
     s.node.seqRx.length = 4 ∧
     s.rst.tokWait = none ∧
     s.onWalk = false) ∧
    (let rx : LineRx := ⟨3, 20⟩
     let s : State := up .cell
     let s : State := { s with rst := { s.rst with tokWait := none } }
     let heard := fun (t : State) => t.on fLASTAT_LOCK = true ∧ t.fld fLASTAT_RATE = rx.rate.val ∧ t.fld fLASTAT_SWING = rx.swing.toNat
     let node := fun (t : State) => heard t ∧ s.besidesAll { t with node := s.node }
     s.awake = true ∧
     s.node.seqRx.length = 4 ∧
     s.rst.tokWait = none ∧
     s.onWalk = true) ∧
    (let rx : LineRx := ⟨3, 20⟩
     let s : State := up .cell
     let s : State := { s with rst := { s.rst with tokWait := none } }
     let heard := fun (t : State) => t.on fLASTAT_LOCK = true ∧ t.fld fLASTAT_RATE = rx.rate.val ∧ t.fld fLASTAT_SWING = rx.swing.toNat
     let node := fun (t : State) => heard t ∧ s.besidesAll { t with node := s.node }
     s.awake = true ∧
     s.node.seqRx.length = 4 ∧
     s.rst.tokWait = none ∧
     s.onWalk = true) ∧
    (let rx : LineRx := ⟨3, 20⟩
     let f : Frame := fr 0 0xFFF 0 0 (List.replicate 12 0 ++ [1, 0, 0, 0])
     let s : State := up .cell
     let s : State := { s with rst := { s.rst with tokWait := none } }
     let s : State := { s with role := .cell }
     let s : State := { s with node := { s.node with joined := true } }
     let cell := s.role = .cell
     let comes := fun (n : Nat) => frameOk false false f = true ∧ frType f = n ∧ frWake f = false
     let heard := fun (t : State) => t.on fLASTAT_LOCK = true ∧ t.fld fLASTAT_RATE = rx.rate.val ∧ t.fld fLASTAT_SWING = rx.swing.toNat
     let node := fun (t : State) => heard t ∧ s.besidesAll { t with node := s.node }
     s.awake = true ∧
     s.node.seqRx.length = 4 ∧
     s.rst.tokWait = none ∧
     cell ∧
     comes 0 ∧
     payNat f 12 1 = 1 ∧
     s.node.joined = true ∧
     s.untimed = true) ∧
    (let rx : LineRx := ⟨3, 20⟩
     let f : Frame := fr 1 0xFFF 0 0 (leBytes 2 (271 + 512 * 3))
     let s : State := up .cell
     let s : State := { s with rst := { s.rst with tokWait := none } }
     let s : State := { s with role := .cell }
     let s : State := { s with node := { s.node with attn := true } }
     let cell := s.role = .cell
     let comes := fun (n : Nat) => frameOk false false f = true ∧ frType f = n ∧ frWake f = false
     let heard := fun (t : State) => t.on fLASTAT_LOCK = true ∧ t.fld fLASTAT_RATE = rx.rate.val ∧ t.fld fLASTAT_SWING = rx.swing.toNat
     let node := fun (t : State) => heard t ∧ s.besidesAll { t with node := s.node }
     s.awake = true ∧
     s.node.seqRx.length = 4 ∧
     s.rst.tokWait = none ∧
     cell ∧
     comes 1 ∧
     s.node.attn = true ∧
     f.payload.length = 2 ∧
     payNat f 0 2 = s.sweepIndex + 512 * 3) ∧
    (let rx : LineRx := ⟨3, 20⟩
     let f : Frame := fr 1 0xFFF 0 0 []
     let s : State := up .cell
     let s : State := { s with rst := { s.rst with tokWait := none } }
     let s : State := { s with role := .cell }
     let s : State := { s with node := { s.node with attn := false } }
     let cell := s.role = .cell
     let comes := fun (n : Nat) => frameOk false false f = true ∧ frType f = n ∧ frWake f = false
     let heard := fun (t : State) => t.on fLASTAT_LOCK = true ∧ t.fld fLASTAT_RATE = rx.rate.val ∧ t.fld fLASTAT_SWING = rx.swing.toNat
     let node := fun (t : State) => heard t ∧ s.besidesAll { t with node := s.node }
     s.awake = true ∧
     s.node.seqRx.length = 4 ∧
     s.rst.tokWait = none ∧
     cell ∧
     comes 1 ∧
     s.node.attn = false) ∧
    (let rx : LineRx := ⟨3, 20⟩
     let f : Frame := fr 2 5 0 1 (List.replicate 64 0)
     let s : State := up .cell
     let s : State := (s.setFld fLINEADDR_VALID 1).setFld fLINEADDR_CELLADDR 5
     let s : State := { s with rst := { s.rst with tokWait := none } }
     let s : State := { s with role := .cell }
     let s : State := { s with rst := { s.rst with booted := true } }
     let s : State := s.setFld fBOOTSTAT_RECOV 0
     let s : State := { s with rst := { s.rst with resetDue := false } }
     let s : State := { s with node := { s.node with inbox := [] } }
     let s : State := { s with node := { s.node with up := [] } }
     let s : State := { s with scr := { s.scr with held := [] } }
     let cell := s.role = .cell
     let comes := fun (n : Nat) => frameOk false false f = true ∧ frType f = n ∧ frWake f = false
     let heard := fun (t : State) => t.on fLASTAT_LOCK = true ∧ t.fld fLASTAT_RATE = rx.rate.val ∧ t.fld fLASTAT_SWING = rx.swing.toNat
     let node := fun (t : State) => heard t ∧ s.besidesAll { t with node := s.node }
     let seq := bitsOf f.hdr 32 8
     let last := s.node.seqRx.getD (frRing f) 0
     let takes := s.rst.booted = true ∧ s.on fBOOTSTAT_RECOV = false ∧ s.rst.resetDue = false
     let plain := bitAt f.hdr 53 = false ∧ frTok f = none
     s.awake = true ∧
     s.node.seqRx.length = 4 ∧
     s.rst.tokWait = none ∧
     cell ∧
     comes 2 ∧
     s.forMe f = true ∧
     takes ∧
     plain ∧
     s.node.inbox = [] ∧
     s.node.up = [] ∧
     last < 256 ∧
     seq = (last + 1) % 256 ∧
     opAssigned (f.payload.getD 0 0).toNat = true ∧
     s.scr.held = []) ∧
    (let rx : LineRx := ⟨3, 20⟩
     let f : Frame := fr 2 5 0 1 (List.replicate 64 0)
     let s : State := up .cell
     let s : State := (s.setFld fLINEADDR_VALID 1).setFld fLINEADDR_CELLADDR 5
     let s : State := { s with node := { s.node with seqRx := [1, 0, 0, 0] } }
     let s : State := { s with rst := { s.rst with tokWait := none } }
     let s : State := { s with role := .cell }
     let s : State := { s with rst := { s.rst with booted := true } }
     let s : State := s.setFld fBOOTSTAT_RECOV 0
     let s : State := { s with rst := { s.rst with resetDue := false } }
     let s : State := { s with node := { s.node with up := [] } }
     let cell := s.role = .cell
     let comes := fun (n : Nat) => frameOk false false f = true ∧ frType f = n ∧ frWake f = false
     let heard := fun (t : State) => t.on fLASTAT_LOCK = true ∧ t.fld fLASTAT_RATE = rx.rate.val ∧ t.fld fLASTAT_SWING = rx.swing.toNat
     let node := fun (t : State) => heard t ∧ s.besidesAll { t with node := s.node }
     let seq := bitsOf f.hdr 32 8
     let last := s.node.seqRx.getD (frRing f) 0
     let takes := s.rst.booted = true ∧ s.on fBOOTSTAT_RECOV = false ∧ s.rst.resetDue = false
     let plain := bitAt f.hdr 53 = false ∧ frTok f = none
     s.awake = true ∧
     s.node.seqRx.length = 4 ∧
     s.rst.tokWait = none ∧
     cell ∧
     comes 2 ∧
     s.forMe f = true ∧
     takes ∧
     plain ∧
     s.node.up = [] ∧
     seq = last ∧
     last < 256) ∧
    (let rx : LineRx := ⟨3, 20⟩
     let f : Frame := fr 2 6 0 1 (List.replicate 64 0)
     let s : State := up .cell
     let s : State := (s.setFld fLINEADDR_VALID 1).setFld fLINEADDR_CELLADDR 5
     let s : State := { s with rst := { s.rst with tokWait := none } }
     let s : State := { s with role := .cell }
     let cell := s.role = .cell
     let comes := fun (n : Nat) => frameOk false false f = true ∧ frType f = n ∧ frWake f = false
     let heard := fun (t : State) => t.on fLASTAT_LOCK = true ∧ t.fld fLASTAT_RATE = rx.rate.val ∧ t.fld fLASTAT_SWING = rx.swing.toNat
     let node := fun (t : State) => heard t ∧ s.besidesAll { t with node := s.node }
     s.awake = true ∧
     s.node.seqRx.length = 4 ∧
     s.rst.tokWait = none ∧
     cell ∧
     comes 2 ∧
     s.forMe f = false) ∧
    (let rx : LineRx := ⟨3, 20⟩
     let f : Frame := fr 2 0x305 0 1 (List.replicate 64 0)
     let s : State := up .cell
     let s : State := { (s.setFld fLINEADDR_ROLEADDR 3) with role := .crossing }
     let s : State := { s with rst := { s.rst with tokWait := none } }
     let s : State := { s with role := .crossing }
     let s : State := { s with drv := { s.drv with dnOpen := false } }
     let s : State := { s with drv := { s.drv with dn := [] } }
     let comes := fun (n : Nat) => frameOk false false f = true ∧ frType f = n ∧ frWake f = false
     let heard := fun (t : State) => t.on fLASTAT_LOCK = true ∧ t.fld fLASTAT_RATE = rx.rate.val ∧ t.fld fLASTAT_SWING = rx.swing.toNat
     let node := fun (t : State) => heard t ∧ s.besidesAll { t with node := s.node }
     s.awake = true ∧
     s.node.seqRx.length = 4 ∧
     s.rst.tokWait = none ∧
     s.role = .crossing ∧
     comes 2 ∧
     s.forRelay f = true ∧
     s.drv.dnOpen = false ∧
     s.drv.dn = []) ∧
    (let rx : LineRx := ⟨3, 20⟩
     let f : Frame := fr 3 5 0 0 []
     let s : State := up .cell
     let s : State := (s.setFld fLINEADDR_VALID 1).setFld fLINEADDR_CELLADDR 5
     let s : State := { s with rst := { s.rst with tokWait := none } }
     let s : State := { s with role := .cell }
     let s : State := { s with node := { s.node with joinSent := true } }
     let cell := s.role = .cell
     let comes := fun (n : Nat) => frameOk false false f = true ∧ frType f = n ∧ frWake f = false
     let heard := fun (t : State) => t.on fLASTAT_LOCK = true ∧ t.fld fLASTAT_RATE = rx.rate.val ∧ t.fld fLASTAT_SWING = rx.swing.toNat
     let node := fun (t : State) => heard t ∧ s.besidesAll { t with node := s.node }
     let plain := bitAt f.hdr 53 = false ∧ frTok f = none
     s.awake = true ∧
     s.node.seqRx.length = 4 ∧
     s.rst.tokWait = none ∧
     cell ∧
     comes 3 ∧
     s.forMe f = true ∧
     s.node.joinSent = true ∧
     plain) ∧
    (let rx : LineRx := ⟨3, 20⟩
     let f : Frame := ⟨3 + 2 ^ 8 * 5 + 2 ^ 61 + 2 ^ 56 * 9, []⟩
     let g : Nat := 9
     let s : State := up .cell
     let s : State := (s.setFld fLINEADDR_VALID 1).setFld fLINEADDR_CELLADDR 5
     let s : State := { s with rst := { s.rst with tokWait := none } }
     let s : State := { s with role := .cell }
     let s : State := { s with node := { s.node with joinSent := false } }
     let cell := s.role = .cell
     let comes := fun (n : Nat) => frameOk false false f = true ∧ frType f = n ∧ frWake f = false
     let heard := fun (t : State) => t.on fLASTAT_LOCK = true ∧ t.fld fLASTAT_RATE = rx.rate.val ∧ t.fld fLASTAT_SWING = rx.swing.toNat
     let node := fun (t : State) => heard t ∧ s.besidesAll { t with node := s.node }
     s.awake = true ∧
     s.node.seqRx.length = 4 ∧
     s.rst.tokWait = none ∧
     cell ∧
     comes 3 ∧
     s.forMe f = true ∧
     s.node.joinSent = false ∧
     frTok f = some g) ∧
    (let rx : LineRx := ⟨3, 20⟩
     let s : State := up .cell
     let s : State := { s with node := { s.node with beaconAge := some 0 } }
     let s : State := { s with mem := { s.mem with otp := runAt 0 [1, 0, 0, 0, 0, 0, 0, 0] } }
     let s : State := { s with rst := { s.rst with tokWait := none } }
     let s : State := { s with role := .cell }
     let f : Frame := fr 7 0xFFF 0 0 (leBytes 8 s.uid ++ [15])
     let cell := s.role = .cell
     let comes := fun (n : Nat) => frameOk false false f = true ∧ frType f = n ∧ frWake f = false
     let heard := fun (t : State) => t.on fLASTAT_LOCK = true ∧ t.fld fLASTAT_RATE = rx.rate.val ∧ t.fld fLASTAT_SWING = rx.swing.toNat
     let node := fun (t : State) => heard t ∧ s.besidesAll { t with node := s.node }
     s.awake = true ∧
     s.node.seqRx.length = 4 ∧
     s.rst.tokWait = none ∧
     cell ∧
     comes 7 ∧
     s.canSend = true ∧
     s.sweepIndex = 271 ∧
     payNat f 8 1 < 16 ∧
     s.uid / 16 ^ (16 - payNat f 8 1) = payNat f 0 8 / 16 ^ (16 - payNat f 8 1)) ∧
    (let rx : LineRx := ⟨3, 20⟩
     let s : State := up .cell
     let s : State := { s with node := { s.node with beaconAge := some 0 } }
     let s : State := (s.setFld fLINEADDR_VALID 1).setFld fLINEADDR_CELLADDR 5
     let s : State := { s with mem := { s.mem with otp := runAt 0 [1, 0, 0, 0, 0, 0, 0, 0] } }
     let s : State := { s with rst := { s.rst with tokWait := none } }
     let s : State := { s with role := .cell }
     let f : Frame := fr 7 0xFFF 0 0 (leBytes 8 s.uid ++ [15])
     let cell := s.role = .cell
     let comes := fun (n : Nat) => frameOk false false f = true ∧ frType f = n ∧ frWake f = false
     let heard := fun (t : State) => t.on fLASTAT_LOCK = true ∧ t.fld fLASTAT_RATE = rx.rate.val ∧ t.fld fLASTAT_SWING = rx.swing.toNat
     let node := fun (t : State) => heard t ∧ s.besidesAll { t with node := s.node }
     s.awake = true ∧
     s.node.seqRx.length = 4 ∧
     s.rst.tokWait = none ∧
     cell ∧
     comes 7 ∧
     s.sweepIndex ≠ 271) ∧
    (let rx : LineRx := ⟨3, 20⟩
     let s : State := up .cell
     let s : State := { s with mem := { s.mem with otp := runAt 0 [1, 0, 0, 0, 0, 0, 0, 0] } }
     let s : State := { s with rst := { s.rst with tokWait := none } }
     let s : State := { s with role := .cell }
     let s : State := { s with rst := { s.rst with booted := true } }
     let f : Frame := fr 8 0xFFF 0 0 (leBytes 8 s.uid ++ [0, 7, 0])
     let cell := s.role = .cell
     let comes := fun (n : Nat) => frameOk false false f = true ∧ frType f = n ∧ frWake f = false
     let heard := fun (t : State) => t.on fLASTAT_LOCK = true ∧ t.fld fLASTAT_RATE = rx.rate.val ∧ t.fld fLASTAT_SWING = rx.swing.toNat
     let node := fun (t : State) => heard t ∧ s.besidesAll { t with node := s.node }
     let mine := payNat f 0 8 = s.uid
     s.awake = true ∧
     s.node.seqRx.length = 4 ∧
     s.rst.tokWait = none ∧
     cell ∧
     comes 8 ∧
     mine ∧
     payNat f 8 1 = 0 ∧
     payNat f 10 1 = 0 ∧
     s.rst.booted = true ∧
     s.joining = false) ∧
    (let rx : LineRx := ⟨3, 20⟩
     let s : State := up .cell
     let s : State := { s with mem := { s.mem with otp := runAt 0 [1, 0, 0, 0, 0, 0, 0, 0] } }
     let s : State := { s with rst := { s.rst with tokWait := none } }
     let s : State := { s with role := .cell }
     let s : State := { s with rst := { s.rst with booted := true } }
     let f : Frame := fr 8 0xFFF 0 0 (leBytes 8 s.uid ++ [2, 7, 0])
     let cell := s.role = .cell
     let comes := fun (n : Nat) => frameOk false false f = true ∧ frType f = n ∧ frWake f = false
     let heard := fun (t : State) => t.on fLASTAT_LOCK = true ∧ t.fld fLASTAT_RATE = rx.rate.val ∧ t.fld fLASTAT_SWING = rx.swing.toNat
     let node := fun (t : State) => heard t ∧ s.besidesAll { t with node := s.node }
     let mine := payNat f 0 8 = s.uid
     s.awake = true ∧
     s.node.seqRx.length = 4 ∧
     s.rst.tokWait = none ∧
     cell ∧
     comes 8 ∧
     mine ∧
     payNat f 8 1 = 2 ∧
     s.rst.booted = true) ∧
    (let rx : LineRx := ⟨3, 20⟩
     let s : State := up .cell
     let s : State := { s with mem := { s.mem with otp := runAt 0 [1, 0, 0, 0, 0, 0, 0, 0] } }
     let s : State := { s with rst := { s.rst with tokWait := none } }
     let s : State := { s with role := .cell }
     let s : State := { s with rst := { s.rst with booted := true } }
     let f : Frame := fr 8 0xFFF 0 0 (leBytes 8 s.uid ++ [1, 7, 0])
     let cell := s.role = .cell
     let comes := fun (n : Nat) => frameOk false false f = true ∧ frType f = n ∧ frWake f = false
     let heard := fun (t : State) => t.on fLASTAT_LOCK = true ∧ t.fld fLASTAT_RATE = rx.rate.val ∧ t.fld fLASTAT_SWING = rx.swing.toNat
     let node := fun (t : State) => heard t ∧ s.besidesAll { t with node := s.node }
     let mine := payNat f 0 8 = s.uid
     s.awake = true ∧
     s.node.seqRx.length = 4 ∧
     s.rst.tokWait = none ∧
     cell ∧
     comes 8 ∧
     mine ∧
     payNat f 8 1 = 1 ∧
     s.rst.booted = true ∧
     s.joining = false) ∧
    (let rx : LineRx := ⟨3, 20⟩
     let s : State := up .cell
     let s : State := { s with mem := { s.mem with otp := runAt 0 [1, 0, 0, 0, 0, 0, 0, 0] } }
     let s : State := { s with rst := { s.rst with tokWait := none } }
     let s : State := { s with role := .cell }
     let f : Frame := fr 8 0xFFF 0 0 (leBytes 8 (s.uid + 1) ++ [1, 7, 0])
     let cell := s.role = .cell
     let comes := fun (n : Nat) => frameOk false false f = true ∧ frType f = n ∧ frWake f = false
     let heard := fun (t : State) => t.on fLASTAT_LOCK = true ∧ t.fld fLASTAT_RATE = rx.rate.val ∧ t.fld fLASTAT_SWING = rx.swing.toNat
     let node := fun (t : State) => heard t ∧ s.besidesAll { t with node := s.node }
     let mine := payNat f 0 8 = s.uid
     s.awake = true ∧
     s.node.seqRx.length = 4 ∧
     s.rst.tokWait = none ∧
     cell ∧
     comes 8 ∧
     ¬ mine ∧
     payNat f 8 1 < 2) ∧
    (let rx : LineRx := ⟨3, 20⟩
     let f : Frame := fr 10 5 0 0 []
     let s : State := up .cell
     let s : State := { (s.setFld fLINEADDR_VALID 1).setFld fLINEADDR_CELLADDR 5 with node := { s.node with beaconAge := some 0 } }
     let s : State := { s with rst := { s.rst with tokWait := none } }
     let s : State := { s with role := .cell }
     let cell := s.role = .cell
     let comes := fun (n : Nat) => frameOk false false f = true ∧ frType f = n ∧ frWake f = false
     let heard := fun (t : State) => t.on fLASTAT_LOCK = true ∧ t.fld fLASTAT_RATE = rx.rate.val ∧ t.fld fLASTAT_SWING = rx.swing.toNat
     let node := fun (t : State) => heard t ∧ s.besidesAll { t with node := s.node }
     s.awake = true ∧
     s.node.seqRx.length = 4 ∧
     s.rst.tokWait = none ∧
     cell ∧
     comes 10 ∧
     s.forMe f = true ∧
     s.canSend = true) ∧
    (let rx : LineRx := ⟨3, 20⟩
     let f : Frame := fr 11 5 0 0 [1, 0]
     let s : State := up .cell
     let s : State := { (s.setFld fLINEADDR_VALID 1).setFld fLINEADDR_CELLADDR 5 with node := { s.node with beaconAge := some 0 } }
     let s : State := { s with rst := { s.rst with tokWait := none } }
     let s : State := { s with role := .cell }
     let cell := s.role = .cell
     let comes := fun (n : Nat) => frameOk false false f = true ∧ frType f = n ∧ frWake f = false
     let heard := fun (t : State) => t.on fLASTAT_LOCK = true ∧ t.fld fLASTAT_RATE = rx.rate.val ∧ t.fld fLASTAT_SWING = rx.swing.toNat
     let node := fun (t : State) => heard t ∧ s.besidesAll { t with node := s.node }
     s.awake = true ∧
     s.node.seqRx.length = 4 ∧
     s.rst.tokWait = none ∧
     cell ∧
     comes 11 ∧
     s.forMe f = true) := by
  refine ⟨?_, ?_, ?_, ?_, ?_, ?_, ?_, ?_, ?_, ?_, ?_, ?_, ?_, ?_, ?_, ?_, ?_, ?_, ?_, ?_, ?_, ?_⟩ <;> decide +kernel

/-- What the hypotheses of NodeTimes are met by, clause by clause. -/
theorem witness_NodeTimes :
    (let s : State := up .cell
     let s : State := { s with rst := { s.rst with tokWait := none } }
     s.awake = true ∧
     s.rst.tokWait = none) ∧
    (let a : Nat := 0
     let s : State := up .cell
     let s : State := { s with rst := { s.rst with tokWait := none } }
     let s : State := { s with role := .cell }
     let s : State := { s with node := { s.node with beaconAge := some a } }
     let cell := s.role = .cell
     let node := fun (t : State) => s.besidesAll { t with node := s.node }
     s.awake = true ∧
     s.rst.tokWait = none ∧
     cell ∧
     s.node.beaconAge = some a) ∧
    (let s : State := up .cell
     let s : State := { (s.setFld fLINEADDR_VALID 1).setFld fLINEADDR_CELLADDR 5 with node := { s.node with beaconAge := some 0 } }
     let s : State := { s with node := { s.node with tokDue := true } }
     let s : State := { s with rst := { s.rst with tokWait := none } }
     let s : State := { s with role := .cell }
     let cell := s.role = .cell
     let want := s.wantsSlot = true
     s.awake = true ∧
     s.rst.tokWait = none ∧
     cell ∧
     s.drives = false ∧
     s.canSend = true ∧
     s.sweepIndex < 271 ∧
     want) ∧
    (let s : State := up .cell
     let s : State := { (s.setFld fLINEADDR_VALID 1).setFld fLINEADDR_CELLADDR 5 with node := { s.node with beaconAge := some 0 } }
     let s : State := { s with node := { s.node with inbox := [⟨.walk, 0, 3, 0, [0x77] ++ List.replicate 63 0⟩] } }
     let s : State := { s with rst := { s.rst with tokWait := none } }
     let s : State := { s with role := .cell }
     let cell := s.role = .cell
     s.awake = true ∧
     s.rst.tokWait = none ∧
     cell ∧
     s.drives = false ∧
     s.canSend = true ∧
     s.sweepIndex < 271 ∧
     s.wantsSlot = false ∧
     s.owes = true) ∧
    (let s : State := up .cell
     let s : State := { s with rst := { s.rst with tokWait := none } }
     let s : State := { s with role := .cell }
     let cell := s.role = .cell
     s.awake = true ∧
     s.rst.tokWait = none ∧
     cell ∧
     s.drives = false ∧
     s.canSend = false) ∧
    (let f : Frame := ⟨0xE, []⟩
     let x : Tx := ⟨fr 5 5 0 0 (List.replicate 16 0), none, 0⟩
     let s : State := up .cell
     let s : State := { (s.setFld fLINEADDR_VALID 1).setFld fLINEADDR_CELLADDR 5 with node := { s.node with beaconAge := some 0 } }
     let s : State := { s with rst := { s.rst with tokWait := none } }
     let s : State := { s with role := .cell }
     let s : State := { s with node := { s.node with slots := 1 } }
     let s : State := { s with node := { s.node with leaving := false } }
     let s : State := { s with node := { s.node with up := [x] } }
     let s : State := { s with node := { s.node with tokDue := false } }
     let cell := s.role = .cell
     let node := fun (t : State) => s.besidesAll { t with node := s.node }
     let sent := fun (n : Nat) => frameOk false true f = true ∧ frType f = n ∧ frRA f = true ∧ frAddr f = 0xFFF
     s.awake = true ∧
     s.rst.tokWait = none ∧
     cell ∧
     s.canSend = true ∧
     s.node.slots = 1 ∧
     s.node.leaving = false ∧
     s.joining = false ∧
     s.node.up = [x] ∧
     x.sent = none ∧
     frType x.f = 5 ∧
     s.node.tokDue = false) ∧
    (let s : State := up .cell
     let s : State := { s with rst := { s.rst with tokWait := none } }
     let s : State := { s with node := { s.node with slots := 0 } }
     let node := fun (t : State) => s.besidesAll { t with node := s.node }
     s.awake = true ∧
     s.rst.tokWait = none ∧
     s.node.slots = 0) ∧
    (let s : State := up .cell
     let s : State := { s with rst := { s.rst with tokWait := none } }
     s.awake = true ∧
     s.rst.tokWait = none ∧
     s.drives = false) ∧
    (let f : Frame := ⟨0xE, []⟩
     let a : Nat := 6
     let x : Tx := ⟨fr 5 5 0 0 (List.replicate 16 0), some 6, 0⟩
     let s : State := up .cell
     let s : State := { s with node := { s.node with up := [⟨fr 5 5 0 0 (List.replicate 16 0), some 6, 0⟩] } }
     let s : State := { s with rst := { s.rst with tokWait := none } }
     let s : State := { s with role := .cell }
     let s : State := { s with node := { s.node with up := [x] } }
     let cell := s.role = .cell
     let node := fun (t : State) => s.besidesAll { t with node := s.node }
     let sent := fun (n : Nat) => frameOk false true f = true ∧ frType f = n ∧ frRA f = true ∧ frAddr f = 0xFFF
     s.awake = true ∧
     s.rst.tokWait = none ∧
     cell ∧
     s.node.up = [x] ∧
     x.sent = some a ∧
     6 ≤ a) ∧
    (let s : State := up .cell
     let s : State := { s with rst := { s.rst with tokWait := none } }
     let s : State := { s with node := { s.node with up := [] } }
     let node := fun (t : State) => s.besidesAll { t with node := s.node }
     s.awake = true ∧
     s.rst.tokWait = none ∧
     s.node.up = []) ∧
    (let k : Nat := 0
     let s : State := up .cell
     let s : State := { s with rst := { s.rst with tokWait := none } }
     let s : State := { s with role := .cell }
     let s : State := { s with node := { s.node with beaconAge := some (k + 3) } }
     let cell := s.role = .cell
     let node := fun (t : State) => s.besidesAll { t with node := s.node }
     s.awake = true ∧
     s.rst.tokWait = none ∧
     cell ∧
     s.node.beaconAge = some (k + 3)) ∧
    (let s : State := up .cell
     let s : State := { s with rst := { s.rst with tokWait := none } }
     let s : State := { s with node := { s.node with beaconAge := some 2 } }
     let node := fun (t : State) => s.besidesAll { t with node := s.node }
     s.awake = true ∧
     s.rst.tokWait = none ∧
     s.node.beaconAge = some 2) ∧
    (let s : State := up .cell
     let s : State := { s with role := .chapter }
     let s : State := { s with rst := { s.rst with tokWait := none } }
     s.awake = true ∧
     s.rst.tokWait = none ∧
     s.hasJack = false) ∧
    (let s : State := up .cell
     let s : State := { s with rst := { s.rst with tokWait := none } }
     s.awake = true ∧
     s.rst.tokWait = none ∧
     s.hasJack = true) ∧
    (let f : Frame := ⟨0xE, []⟩
     let s : State := up .cell
     let s : State := s.setFld fLJSTAT_PRESENT 1
     let s : State := { s with rst := { s.rst with tokWait := none } }
     let s : State := s.setFld fLJSTAT_PRESENT 1
     let s : State := s.setFld fLJSTAT_OV 0
     let jack := s.hasJack = true ∧ s.on fLJSTAT_PRESENT = true ∧ s.on fLJSTAT_OV = false
     s.awake = true ∧
     s.rst.tokWait = none ∧
     jack ∧
     frameOk false true f = false) ∧
    (let f : Frame := fr 0x12 0xFFF 0 1 (List.replicate 64 0)
     let s : State := up .cell
     let s : State := s.setFld fLJSTAT_PRESENT 1
     let s : State := { s with node := { s.node with sessRx := [0, 0, 0, 0] } }
     let s : State := { s with rst := { s.rst with tokWait := none } }
     let s : State := s.setFld fLJSTAT_PRESENT 1
     let s : State := s.setFld fLJSTAT_OV 0
     let s : State := { s with role := .cell }
     let s : State := { s with rst := { s.rst with booted := true } }
     let s : State := { s with rst := { s.rst with resetDue := false } }
     let s : State := { s with node := { s.node with inbox := [] } }
     let s : State := { s with scr := { s.scr with held := [] } }
     let s : State := { s with node := { s.node with sessRx := [0, 0, 0, 0] } }
     let cell := s.role = .cell
     let node := fun (t : State) => s.besidesAll { t with node := s.node }
     let jack := s.hasJack = true ∧ s.on fLJSTAT_PRESENT = true ∧ s.on fLJSTAT_OV = false
     let sent := fun (n : Nat) => frameOk false true f = true ∧ frType f = n ∧ frRA f = true ∧ frAddr f = 0xFFF
     s.awake = true ∧
     s.rst.tokWait = none ∧
     jack ∧
     cell ∧
     sent 2 ∧
     s.rst.booted = true ∧
     s.rst.resetDue = false ∧
     s.node.inbox = [] ∧
     s.scr.held = [] ∧
     s.node.sessRx = [0, 0, 0, 0] ∧
     frRing f = 0 ∧
     bitsOf f.hdr 32 8 = 1 ∧
     opAssigned (f.payload.getD 0 0).toNat = true) ∧
    (let f : Frame := fr 0x1D 0xFFF 0 0 []
     let s : State := up .cell
     let s : State := s.setFld fLJSTAT_PRESENT 1
     let s : State := { s with rst := { s.rst with b7Window := true } }
     let s : State := { s with rst := { s.rst with tokWait := none } }
     let s : State := s.setFld fLJSTAT_PRESENT 1
     let s : State := s.setFld fLJSTAT_OV 0
     let s : State := { s with role := .cell }
     let s : State := { s with rst := { s.rst with booted := true } }
     let s : State := { s with rst := { s.rst with b7Window := true } }
     let cell := s.role = .cell
     let jack := s.hasJack = true ∧ s.on fLJSTAT_PRESENT = true ∧ s.on fLJSTAT_OV = false
     let sent := fun (n : Nat) => frameOk false true f = true ∧ frType f = n ∧ frRA f = true ∧ frAddr f = 0xFFF
     s.awake = true ∧
     s.rst.tokWait = none ∧
     jack ∧
     cell ∧
     sent 13 ∧
     s.rhocoUp = true ∧
     s.rst.booted = true ∧
     s.rst.b7Window = true) ∧
    (let s : State := up .cell
     let s : State := s.setFld fLJSTAT_PRESENT 1
     let s : State := { s with role := .loop, mem := { s.mem with otp := runAt 0 [1, 0, 0, 0, 0, 0, 0, 0] } }
     let s : State := { s with rst := { s.rst with tokWait := none } }
     let s : State := s.setFld fLJSTAT_PRESENT 1
     let s : State := s.setFld fLJSTAT_OV 0
     let s : State := { s with role := .loop }
     let s : State := { s with node := { s.node with up := [] } }
     let f : Frame := fr 0x18 0xFFF 0 0 (leBytes 8 s.uid ++ [0, 7, 0])
     let node := fun (t : State) => s.besidesAll { t with node := s.node }
     let jack := s.hasJack = true ∧ s.on fLJSTAT_PRESENT = true ∧ s.on fLJSTAT_OV = false
     let sent := fun (n : Nat) => frameOk false true f = true ∧ frType f = n ∧ frRA f = true ∧ frAddr f = 0xFFF
     s.awake = true ∧
     s.rst.tokWait = none ∧
     jack ∧
     s.role = .loop ∧
     sent 8 ∧
     payNat f 0 8 = s.uid ∧
     payNat f 8 1 = 0 ∧
     s.node.up = []) := by
  refine ⟨?_, ?_, ?_, ?_, ?_, ?_, ?_, ?_, ?_, ?_, ?_, ?_, ?_, ?_, ?_, ?_, ?_, ?_⟩ <;> decide +kernel

/-- What the hypotheses of LineDescriptors are met by, clause by clause. -/
theorem witness_LineDescriptors :
    (let d : Desc := (⟨.lane 0, 3, 0, 0, [0x70] ++ List.replicate 63 0⟩ : Desc)
     let s : State := (up .chapter).setFld fWDSTAT_ON 1
     let s : State := { s with drv := { s.drv with dnOpen := false } }
     s.ready d = true ∧
     s.drv.dnOpen = false) ∧
    (let d : Desc := ds 0x70 []
     let s : State := (up .chapter).setFld fWDSTAT_ON 1
     let s : State := { s with drv := { s.drv with dnOpen := false } }
     s.ready d = true ∧
     s.drv.dnOpen = false ∧
     s.driverRing d = false) ∧
    (let d : Desc := (⟨.lane 0, 3, 0, 0, [0x70] ++ List.replicate 63 0⟩ : Desc)
     let s : State := (up .chapter).setFld fWDSTAT_ON 1
     let s : State := s.setFld fWDSTAT_ON 0
     let s : State := { s with drv := { s.drv with dnOpen := false } }
     let here := s.driverRing d = true ∧ s.drvWalk < 16
     s.ready d = true ∧
     s.drv.dnOpen = false ∧
     here ∧
     s.drives = false) ∧
    (let d : Desc := (⟨.lane 0, 3, 0, 0, [0x70] ++ List.replicate 63 0⟩ : Desc)
     let s : State := (up .chapter).setFld fWDSTAT_ON 1
     let s : State := { s with drv := { s.drv with dnOpen := false } }
     let s : State := s.setFld fLPSTAT_ROLLING 1
     let here := s.driverRing d = true ∧ s.drvWalk < 16
     let on_ := s.drives = true
     s.ready d = true ∧
     s.drv.dnOpen = false ∧
     here ∧
     on_ ∧
     s.on fLPSTAT_ROLLING = true) ∧
    (let d : Desc := (⟨.lane 0, 3, 0, 0, [0x70] ++ List.replicate 63 0⟩ : Desc)
     let s : State := (up .chapter).setFld fWDSTAT_ON 1
     let s : State := { s with drv := { s.drv with dnOpen := false } }
     let s : State := s.setFld fLPSTAT_ROLLING 0
     let here := s.driverRing d = true ∧ s.drvWalk < 16
     let on_ := s.drives = true
     s.ready d = true ∧
     s.drv.dnOpen = false ∧
     here ∧
     on_ ∧
     s.on fLPSTAT_ROLLING = false) ∧
    (let d : Desc := (⟨.lane 0, 3, 0, 0, [0x70] ++ List.replicate 63 0⟩ : Desc)
     let uid : Nat := 2 ^ 64 - 1
     let pos : Nat := 255
     let s : State := (up .chapter).setFld fWDSTAT_ON 1
     let s : State := { s with drv := { s.drv with dnOpen := false } }
     let s : State := { s with drv := { s.drv with binds := [] } }
     let s : State := { s with drv := { s.drv with enr := [] } }
     let here := s.driverRing d = true ∧ s.drvWalk < 16
     s.ready d = true ∧
     s.drv.dnOpen = false ∧
     here ∧
     uid < 2 ^ 64 ∧
     pos < 256 ∧
     s.drv.binds = [] ∧
     s.drv.enr = []) ∧
    (let d : Desc := (⟨.lane 0, 3, 0, 0, [0x70] ++ List.replicate 63 0⟩ : Desc)
     let uid : Nat := 2 ^ 64 - 1
     let pos : Nat := 255
     let s : State := (up .chapter).setFld fWDSTAT_ON 1
     let s : State := { s with drv := { s.drv with binds := [(uid + 1, pos)] } }
     let s : State := { s with drv := { s.drv with dnOpen := false } }
     let s : State := { s with drv := { s.drv with binds := [(uid + 1, pos)] } }
     let here := s.driverRing d = true ∧ s.drvWalk < 16
     s.ready d = true ∧
     s.drv.dnOpen = false ∧
     here ∧
     uid < 2 ^ 64 ∧
     pos < 256 ∧
     s.drv.binds = [(uid + 1, pos)]) ∧
    (let d : Desc := (⟨.lane 0, 3, 0, 0, [0x70] ++ List.replicate 63 0⟩ : Desc)
     let pos : Nat := 255
     let s : State := (up .chapter).setFld fWDSTAT_ON 1
     let s : State := { s with drv := { s.drv with dnOpen := false } }
     let s : State := { s with drv := { s.drv with enr := [] } }
     let here := s.driverRing d = true ∧ s.drvWalk < 16
     s.ready d = true ∧
     s.drv.dnOpen = false ∧
     here ∧
     pos < 256 ∧
     s.drv.enr = []) ∧
    (let d : Desc := (⟨.lane 0, 3, 0, 0, [0x70] ++ List.replicate 63 0⟩ : Desc)
     let pos : Nat := 255
     let e : Enr := (⟨255, 5, false, false, 0, 0, 0, 0, 0, none, false, 0, 0⟩ : Enr)
     let s : State := (up .chapter).setFld fWDSTAT_ON 1
     let s : State := { s with drv := { s.drv with enr := [e], binds := [(e.uid, pos)] } }
     let s : State := { s with drv := { s.drv with dnOpen := false } }
     let s : State := { s with drv := { s.drv with enr := [e] } }
     let s : State := { s with drv := { s.drv with binds := [(e.uid, pos)] } }
     let here := s.driverRing d = true ∧ s.drvWalk < 16
     s.ready d = true ∧
     s.drv.dnOpen = false ∧
     here ∧
     pos < 256 ∧
     s.drv.enr = [e] ∧
     e.pos = pos ∧
     s.drv.binds = [(e.uid, pos)]) ∧
    (let d : Desc := (⟨.lane 0, 3, 0, 0, [0x70] ++ List.replicate 63 0⟩ : Desc)
     let n : Nat := 3
     let s : State := (up .chapter).setFld fWDSTAT_ON 1
     let s : State := { s with drv := { s.drv with dnOpen := false } }
     let here := s.driverRing d = true ∧ s.drvWalk < 16
     s.ready d = true ∧
     s.drv.dnOpen = false ∧
     here ∧
     n < 4) ∧
    (let d : Desc := (⟨.lane 0, 3, 0, 0, [0x70] ++ List.replicate 63 0⟩ : Desc)
     let n : Nat := 3
     let s : State := (up .chapter).setFld fWDSTAT_ON 1
     let s : State := { s with drv := { s.drv with dnOpen := false } }
     let here := s.driverRing d = true ∧ s.drvWalk < 16
     let on_ := s.drives = true
     s.ready d = true ∧
     s.drv.dnOpen = false ∧
     here ∧
     on_ ∧
     n < 4 ∧
     n ≠ s.drvRate) ∧
    (let d : Desc := (⟨.lane 0, 3, 0, 0, [0x70] ++ List.replicate 63 0⟩ : Desc)
     let pos : Nat := 255
     let e : Enr := (⟨255, 5, true, false, 0, 0, 0, 0, 0, none, false, 0, 0⟩ : Enr)
     let s : State := (up .chapter).setFld fWDSTAT_ON 1
     let s : State := { s with drv := { s.drv with enr := [e] } }
     let s : State := { s with drv := { s.drv with dnOpen := false } }
     let s : State := { s with drv := { s.drv with enr := [e] } }
     let here := s.driverRing d = true ∧ s.drvWalk < 16
     s.ready d = true ∧
     s.drv.dnOpen = false ∧
     here ∧
     pos < 256 ∧
     s.drv.enr = [e] ∧
     e.pos = pos ∧
     e.absent = true) ∧
    (let d : Desc := (⟨.lane 0, 3, 0, 0, [0x70] ++ List.replicate 63 0⟩ : Desc)
     let pos : Nat := 255
     let e : Enr := (⟨255, 5, false, false, 0, 0, 0, 0, 0, none, false, 0, 0⟩ : Enr)
     let s : State := (up .chapter).setFld fWDSTAT_ON 1
     let s : State := { s with drv := { s.drv with enr := [e] } }
     let s : State := { s with drv := { s.drv with dnOpen := false } }
     let s : State := { s with drv := { s.drv with enr := [e] } }
     let here := s.driverRing d = true ∧ s.drvWalk < 16
     s.ready d = true ∧
     s.drv.dnOpen = false ∧
     here ∧
     pos < 256 ∧
     s.drv.enr = [e] ∧
     e.pos = pos ∧
     e.absent = false) ∧
    (let d : Desc := (⟨.lane 0, 3, 0, 0, [0x70] ++ List.replicate 63 0⟩ : Desc)
     let told : Nat := 32768
     let tnew : Nat := 65536
     let s : State := (up .chapter).setFld fWDSTAT_ON 1
     let s : State := { s with drv := { s.drv with dnOpen := false } }
     let s : State := { s with role := .chapter }
     let chapter := s.role = .chapter ∧ s.driverRing d = true
     let grid := told % 32768 = 0 ∧ tnew % 32768 = 0 ∧ tnew < 2 ^ 48
     s.ready d = true ∧
     s.drv.dnOpen = false ∧
     chapter ∧
     grid ∧
     told < 2 ^ 48 ∧
     reached told s.now = false) ∧
    (let d : Desc := (⟨.lane 0, 3, 0, 0, [0x70] ++ List.replicate 63 0⟩ : Desc)
     let tnew : Nat := 65536
     let told : Nat := 0
     let s : State := (up .chapter).setFld fWDSTAT_ON 1
     let s : State := { s with drv := { s.drv with dnOpen := false } }
     let s : State := { s with role := .chapter }
     let chapter := s.role = .chapter ∧ s.driverRing d = true
     let grid := told % 32768 = 0 ∧ tnew % 32768 = 0 ∧ tnew < 2 ^ 48
     s.ready d = true ∧
     s.drv.dnOpen = false ∧
     chapter ∧
     grid ∧
     reached told s.now = true) ∧
    (let told : Nat := 32768
     let tnew : Nat := 65536
     let d : Desc := ds 0x70 []
     let s : State := (up .chapter).setFld fWDSTAT_ON 1
     let s : State := { s with drv := { s.drv with dnOpen := false } }
     let s : State := { s with role := .cell }
     let s : State := s.setFld fLPSTAT_TRACK 0
     let grid := told % 32768 = 0 ∧ tnew % 32768 = 0 ∧ tnew < 2 ^ 48
     s.ready d = true ∧
     s.drv.dnOpen = false ∧
     s.role = .cell ∧
     d.path = .lectern ∧
     grid ∧
     s.on fLPSTAT_TRACK = false) ∧
    (let told : Nat := 32768
     let tnew : Nat := 65536
     let d : Desc := ds 0x70 []
     let s : State := (up .chapter).setFld fWDSTAT_ON 1
     let s : State := { s with drv := { s.drv with dnOpen := false } }
     let s : State := { s with role := .cell }
     let s : State := s.setFld fLPSTAT_TRACK 1
     let grid := told % 32768 = 0 ∧ tnew % 32768 = 0 ∧ tnew < 2 ^ 48
     s.ready d = true ∧
     s.drv.dnOpen = false ∧
     s.role = .cell ∧
     d.path = .lectern ∧
     grid ∧
     s.on fLPSTAT_TRACK = true) ∧
    (let d : Desc := (⟨.lane 0, 3, 0, 0, [0x70] ++ List.replicate 63 0⟩ : Desc)
     let n : Nat := 16
     let s : State := (up .chapter).setFld fWDSTAT_ON 1
     let s : State := { s with drv := { s.drv with dnOpen := false } }
     let s : State := { s with role := .chapter }
     let chapter := s.role = .chapter ∧ s.driverRing d = true
     s.ready d = true ∧
     s.drv.dnOpen = false ∧
     chapter ∧
     15 < n) ∧
    (let d : Desc := (⟨.lane 0, 3, 0, 0, [0x70] ++ List.replicate 63 0⟩ : Desc)
     let n : Nat := 15
     let s : State := (up .chapter).setFld fWDSTAT_ON 1
     let s : State := { s with drv := { s.drv with dnOpen := false } }
     let s : State := { s with role := .chapter }
     let s : State := { s with drv := { s.drv with found := [] } }
     let s : State := { s with drv := { s.drv with xings := [] } }
     let chapter := s.role = .chapter ∧ s.driverRing d = true
     s.ready d = true ∧
     s.drv.dnOpen = false ∧
     chapter ∧
     n < 16 ∧
     s.drv.found = [] ∧
     s.drv.xings = []) ∧
    (let d : Desc := (⟨.lane 0, 3, 0, 0, [0x70] ++ List.replicate 63 0⟩ : Desc)
     let uid : Nat := 2 ^ 64 - 1
     let n : Nat := 15
     let s : State := (up .chapter).setFld fWDSTAT_ON 1
     let s : State := { s with drv := { s.drv with found := [uid], xings := [⟨n, uid + 1, 0, 0, false, false, 256, 0, 0⟩] } }
     let s : State := { s with drv := { s.drv with dnOpen := false } }
     let s : State := { s with role := .chapter }
     let s : State := { s with drv := { s.drv with found := [uid] } }
     let s : State := { s with drv := { s.drv with xings := [⟨n, uid + 1, 0, 0, false, false, 256, 0, 0⟩] } }
     let chapter := s.role = .chapter ∧ s.driverRing d = true
     s.ready d = true ∧
     s.drv.dnOpen = false ∧
     chapter ∧
     0 < n ∧
     n < 16 ∧
     uid < 2 ^ 64 ∧
     s.drv.found = [uid] ∧
     s.drv.xings = [⟨n, uid + 1, 0, 0, false, false, 256, 0, 0⟩]) ∧
    (let d : Desc := (⟨.lane 0, 3, 0, 0, [0x70] ++ List.replicate 63 0⟩ : Desc)
     let uid : Nat := 2 ^ 64 - 1
     let n : Nat := 15
     let s : State := (up .chapter).setFld fWDSTAT_ON 1
     let s : State := { s with drv := { s.drv with found := [uid] } }
     let s : State := { s with drv := { s.drv with dnOpen := false } }
     let s : State := { s with role := .chapter }
     let s : State := { s with drv := { s.drv with found := [uid] } }
     let s : State := { s with drv := { s.drv with xings := [] } }
     let s : State := { s with drv := { s.drv with dn := [] } }
     let chapter := s.role = .chapter ∧ s.driverRing d = true
     s.ready d = true ∧
     s.drv.dnOpen = false ∧
     chapter ∧
     n < 16 ∧
     uid < 2 ^ 64 ∧
     s.drv.found = [uid] ∧
     s.drv.xings = [] ∧
     s.drv.dn = []) := by
  refine ⟨?_, ?_, ?_, ?_, ?_, ?_, ?_, ?_, ?_, ?_, ?_, ?_, ?_, ?_, ?_, ?_, ?_, ?_, ?_, ?_, ?_⟩ <;> decide +kernel

/-- What the hypotheses of LineEvents are met by, clause by clause. -/
theorem witness_LineEvents :
    (let s : State := (up .chapter).setFld fWDSTAT_ON 1
     let s : State := { s with drv := { s.drv with dnOpen := false } }
     s.drives = true ∧
     s.drv.dnOpen = false) ∧
    (let s : State := (up .chapter).setFld fWDSTAT_ON 1
     let s : State := { s with drv := { s.drv with dnOpen := false } }
     let s : State := { s with drv := { s.drv with roll := none } }
     s.drives = true ∧
     s.drv.dnOpen = false ∧
     s.drv.roll = none) ∧
    (let s : State := (up .chapter).setFld fWDSTAT_ON 1
     let s : State := { s with drv := { s.drv with roll := some ⟨[], some (0, 0), 0⟩ } }
     let s : State := { s with drv := { s.drv with dnOpen := false } }
     let s : State := { s with drv := { s.drv with roll := some ⟨[], some (0, 0), 0⟩ } }
     s.drives = true ∧
     s.drv.dnOpen = false ∧
     s.drv.roll = some ⟨[], some (0, 0), 0⟩) ∧
    (let k : Nat := 15
     let s : State := (up .chapter).setFld fWDSTAT_ON 1
     let s : State := { s with drv := { s.drv with roll := some ⟨[(7, 3)], some (k * 16, 15), 0⟩ } }
     let s : State := { s with drv := { s.drv with dnOpen := false } }
     let s : State := { s with drv := { s.drv with roll := some ⟨[(7, 3)], some (k * 16, 15), 0⟩ } }
     let s : State := { s with drv := { s.drv with binds := [] } }
     let s : State := { s with drv := { s.drv with enr := [] } }
     let s : State := { s with drv := { s.drv with dn := [] } }
     s.drives = true ∧
     s.drv.dnOpen = false ∧
     s.drv.roll = some ⟨[(7, 3)], some (k * 16, 15), 0⟩ ∧
     s.drv.binds = [] ∧
     s.drv.enr = [] ∧
     s.drv.dn = []) ∧
    (let f : Frame := ⟨0xE, []⟩
     let s : State := (up .chapter).setFld fWDSTAT_ON 1
     let s : State := { s with drv := { s.drv with dnOpen := false } }
     s.drives = true ∧
     s.drv.dnOpen = false ∧
     frameOk true false f = false) ∧
    (let s : State := (up .chapter).setFld fWDSTAT_ON 1
     let s : State := { s with drv := { s.drv with binds := [(5, 3)] } }
     let s : State := { s with drv := { s.drv with dnOpen := false } }
     let s : State := { s with drv := { s.drv with conflicts := [] } }
     let s : State := { s with drv := { s.drv with binds := [(5, 3)] } }
     let s : State := { s with drv := { s.drv with enr := [] } }
     s.drives = true ∧
     s.drv.dnOpen = false ∧
     s.drv.conflicts = [] ∧
     s.drv.binds = [(5, 3)] ∧
     s.drv.enr = []) ∧
    (let m : WalkMon := ⟨0, 0, false⟩
     let s : State := (up .chapter).setFld fWDSTAT_ON 1
     let s : State := s.setFld fTAGSTAT_FREE 1024
     let s : State := { s with drv := { s.drv with dnOpen := false } }
     let s : State := { s with role := .chapter }
     let s : State := s.setFld fCLKSTAT_FORCED 0
     let s : State := { s with drv := { s.drv with granted := 0 } }
     let s : State := { s with drv := { s.drv with freed := 0 } }
     let s : State := { s with drv := { s.drv with enr := [] } }
     let s : State := { s with drv := { s.drv with xings := [] } }
     let s : State := { s with drv := { s.drv with quar := [] } }
     let s : State := { s with drv := { s.drv with reqs := [] } }
     let s : State := { s with drv := { s.drv with dn := [] } }
     let s : State := { s with drv := { s.drv with ackDue := [] } }
     let s : State := { s with drv := { s.drv with tokDue := [] } }
     let s : State := { s with drv := { s.drv with rateChg := none } }
     let s : State := { s with drv := { s.drv with rateWatch := none } }
     let s : State := { s with drv := { s.drv with timeStep := none } }
     let s : State := { s with drv := { s.drv with pendWalk := none } }
     let s : State := { s with drv := { s.drv with roll := none } }
     let s : State := s.setFld fTAGSTAT_FREE 1024
     let s : State := { s with scr := { s.scr with held := [] } }
     let s : State := { s with drv := { s.drv with syncOut := true } }
     let s : State := s.setFld fCLKSTAT_HOLDOVER 1
     let s : State := s.setFld fLPCTL_MUSTER 0
     let chapter := s.role = .chapter
     let mute := s.on fCLKSTAT_FORCED = false
     s.drives = true ∧
     s.drv.dnOpen = false ∧
     chapter ∧
     s.now % 32768 = 0 ∧
     m.babble = false ∧
     mute ∧
     s.drv.granted = 0 ∧
     s.drv.freed = 0 ∧
     s.drv.enr = [] ∧
     s.drv.xings = [] ∧
     s.drv.quar = [] ∧
     s.drv.reqs = [] ∧
     s.drv.dn = [] ∧
     s.drv.ackDue = [] ∧
     s.drv.tokDue = [] ∧
     s.drv.rateChg = none ∧
     s.drv.rateWatch = none ∧
     s.drv.timeStep = none ∧
     s.drv.pendWalk = none ∧
     s.drv.roll = none ∧
     s.fld fTAGSTAT_FREE = 1024 ∧
     s.scr.held = [] ∧
     s.drv.syncOut = true ∧
     s.on fCLKSTAT_HOLDOVER = true ∧
     s.on fLPCTL_MUSTER = false ∧
     m.iwalk.toNat < 16) ∧
    (let e : Enr := (⟨3, 5, false, false, 0, 0, 0, 0, 0, none, false, 0, 0⟩ : Enr)
     let s : State := (up .chapter).setFld fWDSTAT_ON 1
     let s : State := { s with drv := { s.drv with enr := [e] } }
     let s : State := { s with drv := { s.drv with dnOpen := false } }
     let s : State := { s with role := .chapter }
     let s : State := s.setFld fCLKSTAT_FORCED 0
     let s : State := { s with drv := { s.drv with roll := none } }
     let s : State := { s with drv := { s.drv with enr := [e] } }
     let s : State := { s with drv := { s.drv with xings := [] } }
     let s : State := { s with drv := { s.drv with muster := false } }
     let chapter := s.role = .chapter
     let mute := s.on fCLKSTAT_FORCED = false
     s.drives = true ∧
     s.drv.dnOpen = false ∧
     chapter ∧
     mute ∧
     s.drv.roll = none ∧
     s.drv.enr = [e] ∧
     s.drv.xings = [] ∧
     e.absent = false ∧
     e.more = false ∧
     e.pos = 3 ∧
     s.drv.muster = false ∧
     1 ≤ upSlots s.drvRate s.drvSwofs) ∧
    (let e : Enr := (⟨3, 5, false, false, 0, 0, 0, 0, 0, none, false, 0, 0⟩ : Enr)
     let s : State := (up .chapter).setFld fWDSTAT_ON 1
     let s : State := { s with drv := { s.drv with enr := [e] } }
     let s : State := { s with drv := { s.drv with slotsFor := [(3, 1)] } }
     let s : State := { s with drv := { s.drv with dnOpen := false } }
     let s : State := { s with role := .chapter }
     let s : State := { s with drv := { s.drv with slotsFor := [(3, 1)] } }
     let s : State := { s with drv := { s.drv with enr := [e] } }
     let s : State := { s with drv := { s.drv with rateWatch := none } }
     let chapter := s.role = .chapter
     s.drives = true ∧
     s.drv.dnOpen = false ∧
     chapter ∧
     s.drv.slotsFor = [(3, 1)] ∧
     s.drv.enr = [e] ∧
     e.pos = 3 ∧
     e.badSlots < 7 ∧
     s.drv.rateWatch = none) ∧
    (let e : Enr := (⟨3, 5, false, false, 0, 0, 7, 0, 0, none, false, 0, 0⟩ : Enr)
     let s : State := (up .chapter).setFld fWDSTAT_ON 1
     let s : State := { s with drv := { s.drv with slotsFor := [(3, 1)] } }
     let s : State := { s with drv := { s.drv with enr := [e] } }
     let s : State := { s with drv := { s.drv with dnOpen := false } }
     let s : State := { s with drv := { s.drv with slotsFor := [(3, 1)] } }
     let s : State := { s with drv := { s.drv with enr := [e] } }
     s.drives = true ∧
     s.drv.dnOpen = false ∧
     s.drv.slotsFor = [(3, 1)] ∧
     s.drv.enr = [e] ∧
     e.pos = 3 ∧
     e.badSlots = 7 ∧
     e.absent = false) ∧
    (let f : Frame := fr 9 3 0 0 (leBytes 8 77 ++ List.replicate 8 0)
     let s : State := (up .chapter).setFld fWDSTAT_ON 1
     let s : State := { s with drv := { s.drv with dnOpen := false } }
     let s : State := { s with role := .chapter }
     let s : State := { s with drv := { s.drv with enr := [] } }
     let comes := fun (n : Nat) => frameOk true false f = true ∧ frType f = n
     let chapter := s.role = .chapter
     s.drives = true ∧
     s.drv.dnOpen = false ∧
     chapter ∧
     comes 9 ∧
     frRA f = false ∧
     cellWalk (frAddr f) = 0 ∧
     s.drv.enr = [] ∧
     payNat f 12 1 = 0) ∧
    (let e : Enr := (⟨3, 5, false, false, 0, 0, 0, 0, 0, none, false, 0, 0⟩ : Enr)
     let h : Held := (⟨0, 12, 0, 3, ds 1 [], 2, 7, 0, []⟩ : Held)
     let r : Ring := (⟨12, 0x20000, 0x30000, 0, 4, 0, false, 1, 0, 0, 0, 1, 0, 0, 1, [], 0, 0, 0⟩ : Ring)
     let f : Frame := fr 4 3 0 1 (List.replicate 13 0 ++ [7, 0, 0])
     let s : State := (up .chapter).setFld fWDSTAT_ON 1
     let s : State := { s with drv := { s.drv with enr := [e] } }
     let s : State := { s with hl := { s.hl with bme := true } }
     let s : State := s.setFld fHLSTAT_LINKUP 1
     let s : State := { s with scr := { s.scr with held := [h] } }
     let s : State := { s with scr := { s.scr with rings := [r] } }
     let s : State := { s with drv := { s.drv with dnOpen := false } }
     let s : State := { s with role := .chapter }
     let s : State := { s with drv := { s.drv with enr := [e] } }
     let s : State := { s with scr := { s.scr with failed := false } }
     let s : State := { s with scr := { s.scr with held := [h] } }
     let s : State := { s with scr := { s.scr with rings := [r] } }
     let s : State := { s with scr := { s.scr with lost := [] } }
     let comes := fun (n : Nat) => frameOk true false f = true ∧ frType f = n
     let seq := bitsOf f.hdr 32 8
     let chapter := s.role = .chapter
     let host := s.hostReady = true ∧ s.scr.failed = false
     let known := frRA f = false ∧ cellWalk (frAddr f) = 0 ∧ s.drv.enr = [e] ∧ e.pos = frAddr f ∧ e.absent = false ∧ e.ranges = 0
     let plain := frTok f = none ∧ frWin f = none
     let next := seq = (mapAt s.drv.seqRx (frKey f) + 1) % 256 ∧ mapAt s.drv.seqRx (frKey f) < 256
     s.drives = true ∧
     s.drv.dnOpen = false ∧
     chapter ∧
     comes 4 ∧
     known ∧
     plain ∧
     next ∧
     host ∧
     s.scr.held = [h] ∧
     h.phase = 2 ∧
     ringKey h.ring = frKey f ∧
     h.seq = (f.payload.getD 13 0).toNat ∧
     s.scr.rings = [r] ∧
     r.n = h.ring ∧
     r.st = 1 ∧
     r.kind = 0 ∧
     r.log2n = 4 ∧
     r.ctail = 0 ∧
     r.ch = 0 ∧
     r.done = [] ∧
     r.dhead = h.slot ∧
     r.signal = false ∧
     (s.credit (frKey f)).staleSeq = [] ∧
     s.scr.lost = [] ∧
     dsOpcode h.d = 1) ∧
    (let e : Enr := (⟨3, 5, false, false, 0, 0, 0, 0, 0, none, false, 0, 0⟩ : Enr)
     let r : Ring := (⟨13, 0x20000, 0x30000, 1, 4, 0, false, 0, 0, 0, 0, 1, 0, 0, 0, [], 0, 0, 0⟩ : Ring)
     let f : Frame := fr 5 3 1 1 (List.replicate 16 0)
     let s : State := (up .chapter).setFld fWDSTAT_ON 1
     let s : State := { s with drv := { s.drv with enr := [e] } }
     let s : State := { s with hl := { s.hl with bme := true } }
     let s : State := s.setFld fHLSTAT_LINKUP 1
     let s : State := { s with scr := { s.scr with rings := [r] } }
     let s : State := { s with drv := { s.drv with dnOpen := false } }
     let s : State := { s with role := .chapter }
     let s : State := { s with drv := { s.drv with enr := [e] } }
     let s : State := { s with scr := { s.scr with failed := false } }
     let s : State := { s with scr := { s.scr with rings := [r] } }
     let comes := fun (n : Nat) => frameOk true false f = true ∧ frType f = n
     let seq := bitsOf f.hdr 32 8
     let chapter := s.role = .chapter
     let host := s.hostReady = true ∧ s.scr.failed = false
     let known := frRA f = false ∧ cellWalk (frAddr f) = 0 ∧ s.drv.enr = [e] ∧ e.pos = frAddr f ∧ e.absent = false ∧ e.ranges = 0
     let plain := frTok f = none ∧ frWin f = none
     let next := seq = (mapAt s.drv.seqRx (frKey f) + 1) % 256 ∧ mapAt s.drv.seqRx (frKey f) < 256
     s.drives = true ∧
     s.drv.dnOpen = false ∧
     chapter ∧
     comes 5 ∧
     known ∧
     plain ∧
     next ∧
     host ∧
     s.scr.rings = [r] ∧
     r.n = keyRing (frKey f) ∧
     r.st = 1 ∧
     r.kind = 1 ∧
     r.log2n = 4 ∧
     r.p = 0 ∧
     r.dhead = 0 ∧
     r.signal = false) ∧
    (let e : Enr := (⟨3, 5, false, false, 0, 0, 0, 0, 0, none, false, 0, 0⟩ : Enr)
     let f : Frame := fr 6 3 0 1 (List.replicate 64 7)
     let h : Held := (⟨0, 12, 0, 3, ⟨.lane 3, 12, 0, 0, [1, 2] ++ List.replicate 22 0 ++ [64] ++ List.replicate 39 0⟩, 2, 7, 0, []⟩ : Held)
     let s : State := (up .chapter).setFld fWDSTAT_ON 1
     let s : State := { s with drv := { s.drv with enr := [e] } }
     let s : State := { s with scr := { s.scr with held := [h] } }
     let s : State := { s with drv := { s.drv with dnOpen := false } }
     let s : State := { s with role := .chapter }
     let s : State := { s with drv := { s.drv with enr := [e] } }
     let s : State := { s with scr := { s.scr with held := [h] } }
     let s : State := { s with scr := { s.scr with lost := [] } }
     let s : State := { s with scr := { s.scr with credits := [] } }
     let s : State := { s with drv := { s.drv with fwd := [] } }
     let comes := fun (n : Nat) => frameOk true false f = true ∧ frType f = n
     let seq := bitsOf f.hdr 32 8
     let chapter := s.role = .chapter
     let known := frRA f = false ∧ cellWalk (frAddr f) = 0 ∧ s.drv.enr = [e] ∧ e.pos = frAddr f ∧ e.absent = false ∧ e.ranges = 0
     let plain := frTok f = none ∧ frWin f = none
     let next := seq = (mapAt s.drv.seqRx (frKey f) + 1) % 256 ∧ mapAt s.drv.seqRx (frKey f) < 256
     s.drives = true ∧
     s.drv.dnOpen = false ∧
     chapter ∧
     comes 6 ∧
     frRing f = 0 ∧
     known ∧
     plain ∧
     next ∧
     s.scr.held = [h] ∧
     h.phase = 2 ∧
     ringKey h.ring = frKey f ∧
     h.rlen = 0 ∧
     s.scr.lost = [] ∧
     s.scr.credits = [] ∧
     s.drv.fwd = [] ∧
     dsResbuf h.d = true ∧
     64 ≤ dsReslen h.d) ∧
    (let f : Frame := fr 0x1C 3 0 1 ([6] ++ List.replicate 15 0)
     let k : Nat := 5
     let s : State := (up .chapter).setFld fWDSTAT_ON 1
     let s : State := { s with drv := { s.drv with xings := [⟨3, 5, 0, 0, false, false, 256, 0, 0⟩] } }
     let s : State := { s with drv := { s.drv with xings := [⟨frAddr f, k, 0, 0, false, false, 256, 0, 0⟩] } }
     let s : State := { s with drv := { s.drv with dnOpen := false } }
     let s : State := { s with role := .chapter }
     let s : State := { s with drv := { s.drv with xings := [⟨frAddr f, k, 0, 0, false, false, 256, 0, 0⟩] } }
     let s : State := { s with drv := { s.drv with dn := [] } }
     let comes := fun (n : Nat) => frameOk true false f = true ∧ frType f = n
     let seq := bitsOf f.hdr 32 8
     let chapter := s.role = .chapter
     let next := seq = (mapAt s.drv.seqRx (frKey f) + 1) % 256 ∧ mapAt s.drv.seqRx (frKey f) < 256
     s.drives = true ∧
     s.drv.dnOpen = false ∧
     chapter ∧
     comes 12 ∧
     frRA f = true ∧
     s.drv.xings = [⟨frAddr f, k, 0, 0, false, false, 256, 0, 0⟩] ∧
     next ∧
     f.payload.length = 16 ∧
     leNat (f.payload.take 2) = 0x0006 ∧
     s.drv.dn = []) ∧
    (let e : Enr := (⟨3, 5, false, false, 0, 0, 0, 0, 0, none, false, 0, 0⟩ : Enr)
     let c : Credit := (⟨12, 0, 0, true, false, 0, []⟩ : Credit)
     let k : Nat := 15
     let f : Frame := ⟨3 + 2 ^ 8 * 3 + 2 ^ 53 + 2 ^ 48 * 15, []⟩
     let s : State := (up .chapter).setFld fWDSTAT_ON 1
     let s : State := { s with drv := { s.drv with enr := [e] } }
     let s : State := { s with scr := { s.scr with credits := [c] } }
     let s : State := { s with drv := { s.drv with dnOpen := false } }
     let s : State := { s with role := .chapter }
     let s : State := { s with drv := { s.drv with enr := [e] } }
     let s : State := { s with scr := { s.scr with credits := [c] } }
     let s : State := { s with scr := { s.scr with held := [] } }
     let s : State := { s with drv := { s.drv with fwd := [] } }
     let s : State := { s with drv := { s.drv with pendWalk := none } }
     let comes := fun (n : Nat) => frameOk true false f = true ∧ frType f = n
     let chapter := s.role = .chapter
     let known := frRA f = false ∧ cellWalk (frAddr f) = 0 ∧ s.drv.enr = [e] ∧ e.pos = frAddr f ∧ e.absent = false ∧ e.ranges = 0
     s.drives = true ∧
     s.drv.dnOpen = false ∧
     chapter ∧
     comes 3 ∧
     known ∧
     frTok f = none ∧
     frWin f = some k ∧
     s.scr.credits = [c] ∧
     c.ring = frKey f ∧
     c.known = true ∧
     s.scr.held = [] ∧
     s.drv.fwd = [] ∧
     s.drv.pendWalk = none) ∧
    (let d : Desc := ds 0 []
     let k : Nat := 15
     let a := 8
     let s : State := (up .chapter).setFld fWDSTAT_ON 1
     let s : State := { s with drv := { s.drv with pendWalk := some ⟨k, 2, d, a⟩ } }
     let s : State := { s with drv := { s.drv with dnOpen := false } }
     let s : State := { s with drv := { s.drv with pendWalk := some ⟨k, 2, d, a⟩ } }
     s.drives = true ∧
     s.drv.dnOpen = false ∧
     s.drv.pendWalk = some ⟨k, 2, d, a⟩ ∧
     8 ≤ a) ∧
    (let s : State := (up .chapter).setFld fWDSTAT_ON 1
     let s : State := { s with drv := { s.drv with dnOpen := false } }
     let s : State := { s with drv := { s.drv with pendWalk := none } }
     s.drives = true ∧
     s.drv.dnOpen = false ∧
     s.drv.pendWalk = none) ∧
    (let e : Enr := (⟨3, 5, false, false, 0, 0, 0, 0, 0, none, false, 1, 0⟩ : Enr)
     let s : State := (up .chapter).setFld fWDSTAT_ON 1
     let s : State := { s with drv := { s.drv with enr := [e] } }
     let s : State := { s with drv := { s.drv with dnOpen := false } }
     let s : State := { s with drv := { s.drv with enr := [e] } }
     let s : State := { s with drv := { s.drv with dn := [] } }
     s.drives = true ∧
     s.drv.dnOpen = false ∧
     s.drv.enr = [e] ∧
     e.pos = 3 ∧
     e.ranges = 1 ∧
     s.drv.dn = []) ∧
    (let e : Enr := (⟨3, 5, false, false, 0, 0, 0, 0, 0, none, false, 2, 0⟩ : Enr)
     let s : State := (up .chapter).setFld fWDSTAT_ON 1
     let s : State := { s with drv := { s.drv with enr := [e] } }
     let s : State := { s with drv := { s.drv with dnOpen := false } }
     let s : State := { s with drv := { s.drv with enr := [e] } }
     s.drives = true ∧
     s.drv.dnOpen = false ∧
     s.drv.enr = [e] ∧
     e.pos = 3 ∧
     e.ranges = 2) ∧
    (let f : Frame := fr 2 5 0 1 (List.replicate 64 0)
     let s : State := (up .chapter).setFld fWDSTAT_ON 1
     let s : State := { s with drv := { s.drv with dn := [⟨f, false, some 6, 1⟩] } }
     let s : State := { s with drv := { s.drv with dnOpen := false } }
     let s : State := { s with role := .chapter }
     let s : State := { s with drv := { s.drv with dn := [⟨f, false, some 6, 1⟩] } }
     let chapter := s.role = .chapter
     s.drives = true ∧
     s.drv.dnOpen = false ∧
     chapter ∧
     s.drv.dn = [⟨f, false, some 6, 1⟩] ∧
     frType f = 2) ∧
    (let s : State := (up .chapter).setFld fWDSTAT_ON 1
     let s : State := { s with drv := { s.drv with dnOpen := false } }
     let s : State := { s with role := .chapter }
     let s : State := { s with drv := { s.drv with dn := [] } }
     let chapter := s.role = .chapter
     s.drives = true ∧
     s.drv.dnOpen = false ∧
     chapter ∧
     s.drv.dn = []) := by
  refine ⟨?_, ?_, ?_, ?_, ?_, ?_, ?_, ?_, ?_, ?_, ?_, ?_, ?_, ?_, ?_, ?_, ?_, ?_, ?_, ?_, ?_, ?_⟩ <;> decide +kernel

/-- What the hypotheses of Sleep are met by, clause by clause. -/
theorem witness_Sleep :
    (let i : Issue := iw
     let s : State := go []
     let s : State := { s with dec := { s.dec with psr := 0 } }
     s.issuesOn i = true ∧
     (s.core i.core).sup = false) ∧
    (let i : Issue := iw
     let s : State := go []
     let s : State := s.setFld fWAKESRC_SRC 0
     let s : State := s.setFld fWAKESRC_SRC 0
     let dec := s.issuesOn i = true ∧ i.core = .decani ∧ s.dec.sup = true ∧ s.dec.deaf = true
     let none_ := s.fld fWAKESRC_SRC = 0
     dec ∧
     none_ ∧
     s.fld fPWRCTL_STATE ≤ 1) ∧
    (let i : Issue := iw
     let s : State := go []
     let s : State := s.setFld fWAKESRC_SRC 0
     let s : State := s.setFld fWAKEEN_ALL 8
     let s : State := s.setFld fWAKESRC_SRC 8
     let dec := s.issuesOn i = true ∧ i.core = .decani ∧ s.dec.sup = true ∧ s.dec.deaf = true
     dec ∧
     s.fld fWAKESRC_SRC = 8 ∧
     (s.fld fWAKEEN_ALL).testBit 3 = true) ∧
    (let i : Issue := iw
     let s : State := go []
     let s : State := s.setFld fWAKESRC_SRC 0
     let s : State := { s with role := .loop }
     let s : State := s.setFld fWAKESRC_SRC 0
     let s : State := s.setFld fPWRCTL_STATE 3
     let s : State := { s with role := .loop }
     let dec := s.issuesOn i = true ∧ i.core = .decani ∧ s.dec.sup = true ∧ s.dec.deaf = true
     let none_ := s.fld fWAKESRC_SRC = 0
     dec ∧
     none_ ∧
     s.fld fPWRCTL_STATE = 3 ∧
     s.role = .loop) ∧
    (let i : Issue := iw
     let s : State := go []
     let s : State := s.setFld fWAKESRC_SRC 0
     let s : State := s.setFld fFONTSTAT_RUN 1
     let s : State := s.setFld fWAKESRC_SRC 0
     let s : State := s.setFld fPWRCTL_STATE 2
     let s : State := { s with role := .cell }
     let dec := s.issuesOn i = true ∧ i.core = .decani ∧ s.dec.sup = true ∧ s.dec.deaf = true
     let none_ := s.fld fWAKESRC_SRC = 0
     dec ∧
     none_ ∧
     s.fld fPWRCTL_STATE = 2 ∧
     s.role = .cell ∧
     s.busyMask .cloister ≠ 0) ∧
    (let i : Issue := iw
     let s : State := go []
     let s : State := s.setFld fWAKESRC_SRC 0
     let s : State := s.setFld fWAKESRC_SRC 0
     let s : State := s.setFld fPWRCTL_STATE 2
     let s : State := { s with role := .cell }
     let s : State := s.setFld fSACCLAIM_CLAIM 0
     let s : State := { s with st := { s.st with running := false } }
     let s : State := { s with dec := { s.dec with dc := [] } }
     let s : State := { s with cant := { s.cant with dc := [] } }
     let s : State := { s with descCache := [] }
     let s : State := { s with cant := { s.cant with sbuf := [] } }
     let s : State := { s with dec := { s.dec with sbuf := [] } }
     let s : State := { s with mem := { s.mem with writing := [] } }
     let dec := s.issuesOn i = true ∧ i.core = .decani ∧ s.dec.sup = true ∧ s.dec.deaf = true
     let none_ := s.fld fWAKESRC_SRC = 0
     let quiet_ := s.fld fSACCLAIM_CLAIM = 0 ∧ s.st.running = false
     dec ∧
     none_ ∧
     s.fld fPWRCTL_STATE = 2 ∧
     s.role = .cell ∧
     s.busyMask .cloister = 0 ∧
     quiet_ ∧
     s.dec.dc = [] ∧
     s.cant.dc = [] ∧
     s.descCache = [] ∧
     s.cant.sbuf = [] ∧
     s.dec.sbuf = [] ∧
     s.mem.writing = []) ∧
    (let i : Issue := ⟨.cantoris, false, 0⟩
     let s : State := go []
     let s : State := { s.setFld fCANTSTAT_STATE 3 with cant := coreAt [] }
     s.issuesOn i = true ∧
     i.core = .cantoris ∧
     s.cant.sup = true ∧
     s.anyPending .cantoris = false) ∧
    (let i : Issue := iw
     let s : State := go []
     let s : State := { s with slp := { s.slp with deferred := some .cloister } }
     let s : State := { s with slp := { s.slp with st := .doze } }
     let s : State := s.setFld fSACCLAIM_CLAIM 0
     let s : State := { s with st := { s.st with running := false } }
     let s : State := { s with mem := { s.mem with writing := [] } }
     let s : State := { s with dec := { s.dec with sbuf := [] } }
     let s : State := { s with cant := { s.cant with sbuf := [] } }
     let dec := s.issuesOn i = true ∧ i.core = .decani ∧ s.dec.sup = true ∧ s.dec.deaf = true
     let quiet_ := s.fld fSACCLAIM_CLAIM = 0 ∧ s.st.running = false
     s.slp.deferred = some .cloister ∧
     s.slp.st = .doze ∧
     quiet_ ∧
     s.mem.writing = [] ∧
     s.dec.sbuf = [] ∧
     s.cant.sbuf = []) ∧
    (let s : State := go []
     let s : State := { s with slp := { s.slp with deferred := none } }
     s.slp.deferred = none) ∧
    (let s : State := go []
     let s : State := { s with st := { s.st with running := true } }
     let s : State := { s with slp := { s.slp with deferred := some .cloister } }
     let s : State := { s with st := { s.st with running := true } }
     s.slp.deferred = some .cloister ∧
     s.st.running = true) ∧
    (let n : Fin 3 := 1
     let s : State := go []
     let s : State := s.setFld (fWAKEALMH_ARM 1) 1
     let armed := s.fld (fWAKEALML_TIME n.val) + 2 ^ 32 * s.fld (fWAKEALMH_TIME n.val)
     n.val < 2 ∧
     s.awake = true ∧
     s.on (fWAKEALMH_ARM n.val) = true ∧
     reached armed s.now = true) ∧
    (let n : Fin 3 := 1
     let s : State := go []
     let s : State := { s.setFld (fWAKEALML_TIME 1) 9 with clk := { s.clk with line := 1 } }
     let armed := s.fld (fWAKEALML_TIME n.val) + 2 ^ 32 * s.fld (fWAKEALMH_TIME n.val)
     reached armed s.now = false) ∧
    (let n : Fin 3 := 1
     let s : State := go []
     s.on (fWAKEALMH_ARM n.val) = false) ∧
    (let s : State := go []
     let s : State := s.setFld fPADSTAT_VIOLOW 0
     let s : State := s.setFld fPADSTAT_VIOLOW 0
     let s : State := s.setFld fWAKECFG_GPEDGE 0xFF
     s.awake = true ∧
     s.on fPADSTAT_VIOLOW = false ∧
     s.fld fWAKECFG_GPEDGE = 0xFF) ∧
    (let s : State := go []
     let s : State := s.setFld fPADSTAT_VIOLOW 0
     let s : State := s.setFld fWAKECFG_GPEDGE 0
     s.on fPADSTAT_VIOLOW = false ∧
     s.fld fWAKECFG_GPEDGE = 0) ∧
    (let s : State := go []
     let s : State := s.setFld fPADSTAT_VIOLOW 1
     s.on fPADSTAT_VIOLOW = true) ∧
    (let d : Desc := ds 0 []
     let target : BitVec 3 := 5
     let s : State := go []
     s.ready d = true ∧
     (target = 0 ∨ 4 < target.toNat)) ∧
    (let d : Desc := ds 0 []
     let target : BitVec 3 := 4
     let s : State := go []
     let s : State := { s with role := .crossing }
     let s : State := { s with role := .crossing }
     s.ready d = true ∧
     s.role = .crossing ∧
     1 < target.toNat ∧
     target.toNat ≤ 4) ∧
    (let d : Desc := ds 0 []
     let target : BitVec 3 := 4
     let off : Nat := 7
     let s : State := go []
     let s : State := { s with role := .cell }
     s.ready d = true ∧
     s.role = .cell ∧
     0 < target.toNat ∧
     target.toNat ≤ 4 ∧
     off < 2 ^ 32) ∧
    (let d : Desc := ds 0 []
     let target : BitVec 3 := 4
     let s : State := go []
     let s : State := { s with role := .cell }
     s.ready d = true ∧
     s.role = .cell ∧
     0 < target.toNat ∧
     target.toNat ≤ 4 ∧
     s.cfgBusy = false) ∧
    (let d : Desc := ds 0 []
     let s : State := go []
     s.ready d = true) := by
  refine ⟨?_, ?_, ?_, ?_, ?_, ?_, ?_, ?_, ?_, ?_, ?_, ?_, ?_, ?_, ?_, ?_, ?_, ?_, ?_, ?_, ?_⟩ <;> decide +kernel

/-- What the hypotheses of SystemPadsAndTestPort are met by (SystemAndPads), clause by clause. -/
theorem witness_SystemAndPads :
    (let s : State := up .cell
     let s : State := { s with rst := { s.rst with hold := false } }
     let up := s.rst.hold = false
     up) ∧
    (let s : State := up .cell
     let s : State := { s with rst := { s.rst with hold := false } }
     let s : State := s.setFld fSACCLAIM_CLAIM 0
     let up := s.rst.hold = false
     up ∧
     s.fld fSACCLAIM_CLAIM = 0) ∧
    (let s : State := up .cell
     let s : State := s.setFld fWDTCFG_LOCK 1
     s.on fWDTCFG_LOCK = true) ∧
    (let v : Word := 0x55
     let s : State := up .cell
     let s : State := s.setFld fWDTCFG_LOCK 0
     s.on fWDTCFG_LOCK = false ∧
     v.toNat % 256 ≠ s.fld fWDTCFG_PERIOD) ∧
    (let v : Word := 1
     let s : State := up .cell
     let s : State := { s with rst := { s.rst with hold := false } }
     let up := s.rst.hold = false
     up ∧
     v ≠ 0xC0DE) ∧
    (let v : Word := 1
     v ≠ 0x5A5A) ∧
    (let s : State := up .cell
     let s : State := { s with rst := { s.rst with hold := false } }
     let s : State := s.setFld fWDTCFG_PERIOD 1
     let up := s.rst.hold = false
     up ∧
     s.wdtCounts = true ∧
     s.on fWDTCFG_PERIOD = true) ∧
    (let s : State := up .cell
     let s : State := s.setFld fWDTCFG_PERIOD 0
     s.on fWDTCFG_PERIOD = false) ∧
    (let s : State := up .cell
     let s : State := s.setFld fWDTCFG_PERIOD 1
     s.wdtCounts = true ∧
     s.on fWDTCFG_PERIOD = true) ∧
    (let s : State := up .cell
     let s : State := { s with rst := { s.rst with hold := false } }
     let s : State := s.setFld fBOOTSTAT_GOOD 0
     let up := s.rst.hold = false
     up ∧
     s.wdtCounts = true ∧
     s.on fBOOTSTAT_GOOD = false) ∧
    (let s : State := up .cell
     let s : State := { s with rst := { s.rst with stopped := true } }
     s.wdtCounts = false) ∧
    (let n : Fin 16 := 15
     let v : Word := 0
     let s : State := up .cell
     let s : State := { s with pads := { s.pads with held := [] } }
     fldOf v (fGPCFG_HOLD n.val) = 0 ∧
     s.pads.held = []) ∧
    (let n : Fin 16 := 15
     let v : Word := 0x100
     let s : State := up .cell
     let s : State := { s with pads := { s.pads with held := [] } }
     fldOf v (fGPCFG_HOLD n.val) = 1 ∧
     s.pads.held = []) := by
  refine ⟨?_, ?_, ?_, ?_, ?_, ?_, ?_, ?_, ?_, ?_, ?_, ?_, ?_⟩ <;> decide +kernel

/-- What the hypotheses of SystemPadsAndTestPort are met by (TestPort), clause by clause. -/
theorem witness_TestPort :
    (let s : State := up .cell
     s.fld fSACDBG_LEVEL < 2) ∧
    (let scan : List Bool := [true, false]
     let s : State := up .cell
     let s : State := { s.setFld fSACDBG_LEVEL 3 with slp := { s.slp with st := .run } }
     let s : State := { s with slp := { s.slp with st := .run } }
     let run := s.slp.st = .run
     let full := 2 ≤ s.fld fSACDBG_LEVEL
     run ∧
     full ∧
     scan ≠ []) ∧
    (let scan : List Bool := [true, false]
     let s : State := up .cell
     let s : State := { s.setFld fSACDBG_LEVEL 3 with slp := { s.slp with st := .run } }
     let s : State := { s with slp := { s.slp with st := .run } }
     let run := s.slp.st = .run
     let full := 2 ≤ s.fld fSACDBG_LEVEL
     run ∧
     full ∧
     scan ≠ []) ∧
    (let c : CoreId := .decani
     let s : State := up .cell
     let s : State := { s.setFld fSACDBG_LEVEL 3 with slp := { s.slp with st := .run } }
     let s : State := { s with slp := { s.slp with st := .run } }
     let run := s.slp.st = .run
     run ∧
     2 ≤ s.fld fSACDBG_LEVEL ∧
     s.debugAdmits c = true) ∧
    (let s : State := up .cell
     let s : State := { s.setFld fSACDBG_LEVEL 3 with slp := { s.slp with st := .run } }
     let s : State := { s with slp := { s.slp with st := .run } }
     let run := s.slp.st = .run
     run ∧
     s.debugAdmits .cantoris = true) ∧
    (let s : State := up .cell
     let s : State := { s.setFld fSACDBG_LEVEL 3 with slp := { s.slp with st := .run } }
     let s : State := { s with slp := { s.slp with st := .run } }
     let run := s.slp.st = .run
     run ∧
     s.debugAdmits .decani = true) ∧
    (let c : CoreId := .decani
     let s : State := up .cell
     let s : State := { s.setFld fSACDBG_LEVEL 3 with slp := { s.slp with st := .run } }
     let s : State := { s with dec := { s.dec with dbgHalt := true } }
     let s : State := { s with slp := { s.slp with st := .run } }
     let run := s.slp.st = .run
     run ∧
     s.debugAdmits c = true ∧
     (s.core c).dbgHalt = true) ∧
    (let s : State := up .cell
     let s : State := { s.setFld fSACDBG_LEVEL 3 with slp := { s.slp with st := .run } }
     let s : State := { s with slp := { s.slp with st := .run } }
     let s : State := s.setFld fSACDBG_LEVEL 0
     let run := s.slp.st = .run
     run ∧
     s.fld fSACDBG_LEVEL = 0) ∧
    (let a : Nat := 0x30001FFC
     let s : State := up .cell
     let s : State := { s.setFld fSACDBG_LEVEL 3 with slp := { s.slp with st := .run } }
     let s : State := { s with slp := { s.slp with st := .run } }
     let s : State := s.setFld fSACSTAT_HELD 0
     let s : State := { s with st := { s.st with running := false } }
     let s : State := { s with mem := { s.mem with badPar := [] } }
     let s : State := { s with dec := { s.dec with dc := [] } }
     let s : State := { s with cant := { s.cant with dc := [] } }
     let s : State := { s with descCache := [] }
     let run := s.slp.st = .run
     let full := 2 ≤ s.fld fSACDBG_LEVEL
     run ∧
     full ∧
     s.on fSACSTAT_HELD = false ∧
     s.st.running = false ∧
     0x30000000 ≤ a ∧
     a + 4 ≤ 0x30002000 ∧
     a % 4 = 0 ∧
     s.mem.badPar = [] ∧
     s.dec.dc = [] ∧
     s.cant.dc = [] ∧
     s.descCache = []) ∧
    (let a : Nat := 0x30001FFC
     let s : State := up .cell
     let s : State := { s.setFld fSACDBG_LEVEL 3 with slp := { s.slp with st := .run } }
     let s : State := { s with slp := { s.slp with st := .run } }
     let s : State := s.setFld fSACSTAT_HELD 0
     let s : State := { s with st := { s.st with running := false } }
     let s : State := { s with dec := { s.dec with dc := [] } }
     let s : State := { s with cant := { s.cant with dc := [] } }
     let s : State := { s with descCache := [] }
     let run := s.slp.st = .run
     let full := 2 ≤ s.fld fSACDBG_LEVEL
     run ∧
     full ∧
     s.on fSACSTAT_HELD = false ∧
     s.st.running = false ∧
     0x30000000 ≤ a ∧
     a + 4 ≤ 0x30002000 ∧
     a % 4 = 0 ∧
     s.dec.dc = [] ∧
     s.cant.dc = [] ∧
     s.descCache = []) ∧
    (let s : State := up .cell
     let s : State := { s with slp := { s.slp with st := .off } }
     let s : State := { s with slp := { s.slp with st := .off } }
     s.slp.st = .off) := by
  refine ⟨?_, ?_, ?_, ?_, ?_, ?_, ?_, ?_, ?_, ?_, ?_⟩ <;> decide +kernel

/-- What the hypotheses of RingerDescriptors are met by, clause by clause. -/
theorem witness_RingerDescriptors :
    (let d : Desc := ds 0 []
     let s : State := up .cell
     let s : State := s.setFld fSACCLAIM_CLAIM 0
     s.ready d = true ∧
     s.fld fSACCLAIM_CLAIM = 0 ∧
     s.ring.eng.length = 8 ∧
     s.touch.el.length = 4 ∧
     s.chor.eng.length = 8 ∧
     s.rootStopped = false) ∧
    (let d : Desc := ds 0 []
     let s : State := up .cell
     let s : State := { s with role := .chapter }
     let s : State := s.setFld fSACCLAIM_CLAIM 0
     let s : State := { s with role := .chapter }
     s.ready d = true ∧
     s.fld fSACCLAIM_CLAIM = 0 ∧
     s.ring.eng.length = 8 ∧
     s.touch.el.length = 4 ∧
     s.chor.eng.length = 8 ∧
     s.rootStopped = false ∧
     s.role = .chapter) ∧
    (let d : Desc := ds 0 []
     let s : State := up .cell
     let s : State := s.setFld fSACCLAIM_CLAIM 0
     let s : State := { s with role := .cell }
     let s : State := s.setFld fRGCTL_RUN 0
     let s : State := s.setFld fRGSTAT_RUNNING 0
     let mems := s.role = .cell ∨ s.role = .loop
     s.ready d = true ∧
     s.fld fSACCLAIM_CLAIM = 0 ∧
     s.ring.eng.length = 8 ∧
     s.touch.el.length = 4 ∧
     s.chor.eng.length = 8 ∧
     s.rootStopped = false ∧
     mems ∧
     s.fld fRGCTL_RUN = 0 ∧
     s.fld fRGSTAT_RUNNING = 0) ∧
    (let d : Desc := ds 0 (args [(0, 1, 7), (2, 1, 7)])
     let s : State := up .cell
     let s : State := s.setFld fSACCLAIM_CLAIM 0
     let s : State := { s with role := .cell }
     let mems := s.role = .cell ∨ s.role = .loop
     let n := dsArg d 0
     s.ready d = true ∧
     s.fld fSACCLAIM_CLAIM = 0 ∧
     s.ring.eng.length = 8 ∧
     s.touch.el.length = 4 ∧
     s.chor.eng.length = 8 ∧
     s.rootStopped = false ∧
     mems ∧
     (8 ≤ n ∨ dsArg d 2 = 0 ∨ 6 < dsArg d 2)) ∧
    (let d : Desc := ds 0 (args [(0, 1, 7), (1, 1, 30), (2, 1, 2)])
     let s : State := up .cell
     let s : State := s.setFld fSACCLAIM_CLAIM 0
     let s : State := { s with role := .cell }
     let mems := s.role = .cell ∨ s.role = .loop
     let n := dsArg d 0
     let off (e : Nat) : Prop := (s.fld fRGSTAT_RUNNING).testBit e = false
     s.ready d = true ∧
     s.fld fSACCLAIM_CLAIM = 0 ∧
     s.ring.eng.length = 8 ∧
     s.touch.el.length = 4 ∧
     s.chor.eng.length = 8 ∧
     s.rootStopped = false ∧
     mems ∧
     n < 8 ∧
     dsArg d 1 < 31 ∧
     dsArg d 2 = 2 ∧
     off n) ∧
    (let d : Desc := ds 0 (args [(0, 1, 7), (1, 1, 30), (2, 1, 2)])
     let s : State := up .cell
     let s : State := s.setFld fRGSTAT_RUNNING 128
     let s : State := s.setFld fSACCLAIM_CLAIM 0
     let s : State := { s with role := .cell }
     let mems := s.role = .cell ∨ s.role = .loop
     let n := dsArg d 0
     let off (e : Nat) : Prop := (s.fld fRGSTAT_RUNNING).testBit e = false
     s.ready d = true ∧
     s.fld fSACCLAIM_CLAIM = 0 ∧
     s.ring.eng.length = 8 ∧
     s.touch.el.length = 4 ∧
     s.chor.eng.length = 8 ∧
     s.rootStopped = false ∧
     mems ∧
     n < 8 ∧
     dsArg d 1 < 31 ∧
     dsArg d 2 = 2 ∧
     ¬ off n) ∧
    (let i : Nat := 7
     let d : Desc := ds 0 [128]
     let s : State := up .cell
     let s : State := s.setFld fSACCLAIM_CLAIM 0
     let s : State := { s with role := .cell }
     let s : State := s.setFld fRGCTL_RUN 0
     let s : State := s.setFld fRGSTAT_RUNNING 0
     let mems := s.role = .cell ∨ s.role = .loop
     let n := dsArg d 0
     s.ready d = true ∧
     s.fld fSACCLAIM_CLAIM = 0 ∧
     s.ring.eng.length = 8 ∧
     s.touch.el.length = 4 ∧
     s.chor.eng.length = 8 ∧
     s.rootStopped = false ∧
     mems ∧
     i < 8 ∧
     n = 2 ^ i ∧
     s.fld fRGCTL_RUN = 0 ∧
     s.fld fRGSTAT_RUNNING = 0) ∧
    (let i : Nat := 7
     let d : Desc := ds 0 [128]
     let s : State := up .cell
     let s : State := (s.setFld fRGCTL_RUN 128).setFld fRGSTAT_RUNNING 128
     let s : State := s.setFld fSACCLAIM_CLAIM 0
     let s : State := { s with role := .cell }
     let mems := s.role = .cell ∨ s.role = .loop
     let n := dsArg d 0
     s.ready d = true ∧
     s.fld fSACCLAIM_CLAIM = 0 ∧
     s.ring.eng.length = 8 ∧
     s.touch.el.length = 4 ∧
     s.chor.eng.length = 8 ∧
     s.rootStopped = false ∧
     mems ∧
     i < 8 ∧
     n = 2 ^ i ∧
     s.fld fRGCTL_RUN = n ∧
     s.fld fRGSTAT_RUNNING = n) ∧
    (let d : Desc := ds 0 (args [(0, 1, 8)])
     let s : State := up .cell
     let s : State := s.setFld fSACCLAIM_CLAIM 0
     let s : State := { s with role := .cell }
     let mems := s.role = .cell ∨ s.role = .loop
     let n := dsArg d 0
     s.ready d = true ∧
     s.fld fSACCLAIM_CLAIM = 0 ∧
     s.ring.eng.length = 8 ∧
     s.touch.el.length = 4 ∧
     s.chor.eng.length = 8 ∧
     s.rootStopped = false ∧
     mems ∧
     8 ≤ n) ∧
    (let d : Desc := ds 0 (args [(0, 1, 7), (2, 6, 5)])
     let s : State := up .cell
     let s : State := s.setFld fSACCLAIM_CLAIM 0
     let s : State := { s with role := .cell }
     let mems := s.role = .cell ∨ s.role = .loop
     let n := dsArg d 0
     let when_ := dsArgs d 2 6
     s.ready d = true ∧
     s.fld fSACCLAIM_CLAIM = 0 ∧
     s.ring.eng.length = 8 ∧
     s.touch.el.length = 4 ∧
     s.chor.eng.length = 8 ∧
     s.rootStopped = false ∧
     mems ∧
     n < 8 ∧
     past when_ s.now = false) ∧
    (let d : Desc := ds 0 (args [(0, 1, 7), (2, 6, 5)])
     let s : State := up .cell
     let s : State := { s.setFld fRGCTL_LATEDROP 128 with clk := { s.clk with line := 9 } }
     let s : State := s.setFld fSACCLAIM_CLAIM 0
     let s : State := { s with role := .cell }
     let mems := s.role = .cell ∨ s.role = .loop
     let n := dsArg d 0
     let when_ := dsArgs d 2 6
     s.ready d = true ∧
     s.fld fSACCLAIM_CLAIM = 0 ∧
     s.ring.eng.length = 8 ∧
     s.touch.el.length = 4 ∧
     s.chor.eng.length = 8 ∧
     s.rootStopped = false ∧
     mems ∧
     n < 8 ∧
     past when_ s.now = true ∧
     (s.fld fRGCTL_LATEDROP).testBit n = true) ∧
    (let d : Desc := ds 0 []
     let s : State := up .cell
     let s : State := s.setFld fSACCLAIM_CLAIM 0
     let s : State := { s with role := .cell }
     let mems := s.role = .cell ∨ s.role = .loop
     s.ready d = true ∧
     s.fld fSACCLAIM_CLAIM = 0 ∧
     s.ring.eng.length = 8 ∧
     s.touch.el.length = 4 ∧
     s.chor.eng.length = 8 ∧
     s.rootStopped = false ∧
     mems) ∧
    (let d : Desc := ds 0 []
     let s : State := up .cell
     let s : State := s.setFld fSACCLAIM_CLAIM 0
     let s : State := { s with role := .cell }
     let mems := s.role = .cell ∨ s.role = .loop
     s.ready d = true ∧
     s.fld fSACCLAIM_CLAIM = 0 ∧
     s.ring.eng.length = 8 ∧
     s.touch.el.length = 4 ∧
     s.chor.eng.length = 8 ∧
     s.rootStopped = false ∧
     mems ∧
     s.recogRate = none) ∧
    (let d : Desc := ds 0 []
     let x : Nat := 5
     let y : Nat := 6
     let z : Nat := 7
     let s : State := up .cell
     let s : State := { s.setFld fMOTSTAT_ARUN 1 with ring := { s.ring with tilt := some (5, 6, 7) } }
     let s : State := s.setFld fSACCLAIM_CLAIM 0
     let s : State := { s with role := .cell }
     let s : State := { s with ring := { s.ring with tilt := some ((x : Int), (y : Int), (z : Int)) } }
     let mems := s.role = .cell ∨ s.role = .loop
     s.ready d = true ∧
     s.fld fSACCLAIM_CLAIM = 0 ∧
     s.ring.eng.length = 8 ∧
     s.touch.el.length = 4 ∧
     s.chor.eng.length = 8 ∧
     s.rootStopped = false ∧
     mems ∧
     s.recogRate.isSome = true ∧
     s.ring.tilt = some ((x : Int), (y : Int), (z : Int)) ∧
     x < 2 ^ 31 ∧
     y < 2 ^ 31 ∧
     z < 2 ^ 31) ∧
    (let d : Desc := ds 0 (args [(2, 2, 9)])
     let s : State := up .cell
     let s : State := s.setFld fSACCLAIM_CLAIM 0
     let s : State := { s with role := .cell }
     let mems := s.role = .cell ∨ s.role = .loop
     s.ready d = true ∧
     s.fld fSACCLAIM_CLAIM = 0 ∧
     s.ring.eng.length = 8 ∧
     s.touch.el.length = 4 ∧
     s.chor.eng.length = 8 ∧
     s.rootStopped = false ∧
     mems ∧
     dsArgs d 2 2 % 1024 < 10) ∧
    (let d : Desc := ds 0 (args [(2, 2, 100)])
     let s : State := up .cell
     let s : State := { s with touch := { s.touch with on := true } }
     let s : State := s.setFld fSACCLAIM_CLAIM 0
     let s : State := { s with role := .cell }
     let s : State := { s with touch := { s.touch with on := true } }
     let mems := s.role = .cell ∨ s.role = .loop
     s.ready d = true ∧
     s.fld fSACCLAIM_CLAIM = 0 ∧
     s.ring.eng.length = 8 ∧
     s.touch.el.length = 4 ∧
     s.chor.eng.length = 8 ∧
     s.rootStopped = false ∧
     mems ∧
     dsArgs d 2 2 % 1024 = 100 ∧
     s.touch.on = true) ∧
    (let d : Desc := ds 0 (args [(2, 2, 100)])
     let s : State := up .cell
     let s : State := s.setFld fSACCLAIM_CLAIM 0
     let s : State := { s with role := .cell }
     let s : State := { s with touch := { s.touch with on := false } }
     let mems := s.role = .cell ∨ s.role = .loop
     s.ready d = true ∧
     s.fld fSACCLAIM_CLAIM = 0 ∧
     s.ring.eng.length = 8 ∧
     s.touch.el.length = 4 ∧
     s.chor.eng.length = 8 ∧
     s.rootStopped = false ∧
     mems ∧
     dsArgs d 2 2 % 1024 = 100 ∧
     s.touch.on = false) ∧
    (let d : Desc := ds 0 (args [(0, 1, 16)])
     let s : State := up .cell
     let s : State := s.setFld fSACCLAIM_CLAIM 0
     let s : State := { s with role := .cell }
     let mems := s.role = .cell ∨ s.role = .loop
     let n := dsArg d 0
     s.ready d = true ∧
     s.fld fSACCLAIM_CLAIM = 0 ∧
     s.ring.eng.length = 8 ∧
     s.touch.el.length = 4 ∧
     s.chor.eng.length = 8 ∧
     s.rootStopped = false ∧
     mems ∧
     16 ≤ n) ∧
    (let d : Desc := ds 0 [1]
     let s : State := up .cell
     let s : State := s.setFld fCHSTAT_RUNNING 255
     let s : State := s.setFld fSACCLAIM_CLAIM 0
     let s : State := { s with role := .cell }
     let s : State := { s with chor := { s.chor with touchEng := none } }
     let mems := s.role = .cell ∨ s.role = .loop
     let n := dsArg d 0
     s.ready d = true ∧
     s.fld fSACCLAIM_CLAIM = 0 ∧
     s.ring.eng.length = 8 ∧
     s.touch.el.length = 4 ∧
     s.chor.eng.length = 8 ∧
     s.rootStopped = false ∧
     mems ∧
     n = 1 ∧
     s.chRuns (s.fld fTCHCTL_ENG) = true ∧
     s.chor.touchEng = none) ∧
    (let d : Desc := ds 0 [1]
     let s : State := up .cell
     let s : State := s.setFld fTCHSTAT_FAULT 1
     let s : State := s.setFld fSACCLAIM_CLAIM 0
     let s : State := { s with role := .cell }
     let s : State := s.setFld fCHSTAT_RUNNING 0
     let mems := s.role = .cell ∨ s.role = .loop
     let n := dsArg d 0
     s.ready d = true ∧
     s.fld fSACCLAIM_CLAIM = 0 ∧
     s.ring.eng.length = 8 ∧
     s.touch.el.length = 4 ∧
     s.chor.eng.length = 8 ∧
     s.rootStopped = false ∧
     mems ∧
     n = 1 ∧
     s.fld fCHSTAT_RUNNING = 0 ∧
     s.fld fTCHSTAT_FAULT % 2 = 1) ∧
    (let d : Desc := ds 0 [1]
     let s : State := up .cell
     let s : State := s.setFld fSACCLAIM_CLAIM 0
     let s : State := { s with role := .cell }
     let s : State := s.setFld fCHSTAT_RUNNING 0
     let s : State := s.setFld fCHCTL_EN 0
     let s : State := s.setFld fCHSTARTH_ARM 0
     let s : State := s.setFld fTCHSTAT_FAULT 0
     let s : State := s.setFld fTCHCTL_EN 0
     let mems := s.role = .cell ∨ s.role = .loop
     let n := dsArg d 0
     s.ready d = true ∧
     s.fld fSACCLAIM_CLAIM = 0 ∧
     s.ring.eng.length = 8 ∧
     s.touch.el.length = 4 ∧
     s.chor.eng.length = 8 ∧
     s.rootStopped = false ∧
     mems ∧
     n = 1 ∧
     s.fld fCHSTAT_RUNNING = 0 ∧
     s.fld fCHCTL_EN = 0 ∧
     s.on fCHSTARTH_ARM = false ∧
     s.fld fTCHSTAT_FAULT = 0 ∧
     s.fld fTCHCTL_EN = 0) ∧
    (let d : Desc := ds 0 []
     let s : State := up .cell
     let s : State := { s with touch := { s.touch with on := true } }
     let s : State := s.setFld fSACCLAIM_CLAIM 0
     let s : State := { s with role := .cell }
     let s : State := { s with touch := { s.touch with on := true } }
     let s : State := { s with chor := { s.chor with touchEng := none } }
     let mems := s.role = .cell ∨ s.role = .loop
     s.ready d = true ∧
     s.fld fSACCLAIM_CLAIM = 0 ∧
     s.ring.eng.length = 8 ∧
     s.touch.el.length = 4 ∧
     s.chor.eng.length = 8 ∧
     s.rootStopped = false ∧
     mems ∧
     s.touch.on = true ∧
     s.chor.touchEng = none) ∧
    (let d : Desc := ds 0 [2]
     let s : State := up .cell
     let s : State := s.setFld fSACCLAIM_CLAIM 0
     let s : State := { s with role := .cell }
     let mems := s.role = .cell ∨ s.role = .loop
     let n := dsArg d 0
     s.ready d = true ∧
     s.fld fSACCLAIM_CLAIM = 0 ∧
     s.ring.eng.length = 8 ∧
     s.touch.el.length = 4 ∧
     s.chor.eng.length = 8 ∧
     s.rootStopped = false ∧
     mems ∧
     n = 2) ∧
    (let d : Desc := ds 0 []
     let s : State := up .cell
     let s : State := s.setFld fSACCLAIM_CLAIM 0
     let s : State := { s with role := .cell }
     let mems := s.role = .cell ∨ s.role = .loop
     s.ready d = true ∧
     s.fld fSACCLAIM_CLAIM = 0 ∧
     s.ring.eng.length = 8 ∧
     s.touch.el.length = 4 ∧
     s.chor.eng.length = 8 ∧
     s.rootStopped = false ∧
     mems) ∧
    (let d : Desc := ds 0 []
     let s : State := up .cell
     let s : State := s.setFld fSACCLAIM_CLAIM 0
     let s : State := { s with role := .cell }
     let mems := s.role = .cell ∨ s.role = .loop
     s.ready d = true ∧
     s.fld fSACCLAIM_CLAIM = 0 ∧
     s.ring.eng.length = 8 ∧
     s.touch.el.length = 4 ∧
     s.chor.eng.length = 8 ∧
     s.rootStopped = false ∧
     mems) := by
  refine ⟨?_, ?_, ?_, ?_, ?_, ?_, ?_, ?_, ?_, ?_, ?_, ?_, ?_, ?_, ?_, ?_, ?_, ?_, ?_, ?_, ?_, ?_, ?_, ?_, ?_⟩ <;> decide +kernel

/-- What the hypotheses of RingerEngines are met by, clause by clause. -/
theorem witness_RingerEngines :
    (let n : Nat := 7
     let imm : Nat := 65535
     let s : State := ((up .cell).setFld fRGSTAT_RUNNING 128).setFld (fRGPC_PC 7) 31
     let s : State := { s with slp := { s.slp with st := .run } }
     n < 8 ∧
     s.ring.eng.length = 8 ∧
     s.touch.el.length = 4 ∧
     s.slp.st = .run ∧
     imm < 2 ^ 16) ∧
    (let n : Nat := 7
     let imm : Nat := 65535
     let s : State := ((up .cell).setFld fRGSTAT_RUNNING 128).setFld (fRGPC_PC 7) 31
     let s : State := s.setFld fRGSTAT_RUNNING 0
     let s : State := { s with slp := { s.slp with st := .run } }
     n < 8 ∧
     s.ring.eng.length = 8 ∧
     s.touch.el.length = 4 ∧
     s.slp.st = .run ∧
     imm < 2 ^ 16 ∧
     s.ringRuns n = false) ∧
    (let n : Nat := 7
     let imm : Nat := 65535
     let s : State := ((up .cell).setFld fRGSTAT_RUNNING 128).setFld (fRGPC_PC 7) 31
     let s : State := s.setFld (fRGPROG_WORD 255) 0x40000000
     let s : State := { s with slp := { s.slp with st := .run } }
     n < 8 ∧
     s.ring.eng.length = 8 ∧
     s.touch.el.length = 4 ∧
     s.slp.st = .run ∧
     imm < 2 ^ 16 ∧
     rgOp (s.ringWord n) ≠ 0) ∧
    (let n : Nat := 7
     let imm : Nat := 65535
     let s : State := ((up .cell).setFld fRGSTAT_RUNNING 128).setFld (fRGPC_PC 7) 31
     let s : State := s.setFld (fRGPROG_WORD 255) 0
     let s : State := { s with slp := { s.slp with st := .run } }
     let e := s.eng n
     let atWord := fun (w : Nat) => s.ringRuns n = true ∧ s.ringWord n = w ∧ e.icount < 31
     n < 8 ∧
     s.ring.eng.length = 8 ∧
     s.touch.el.length = 4 ∧
     s.slp.st = .run ∧
     imm < 2 ^ 16 ∧
     atWord 0) ∧
    (let n : Nat := 7
     let imm : Nat := 65535
     let k : Nat := 63
     let s : State := ((up .cell).setFld fRGSTAT_RUNNING 128).setFld (fRGPC_PC 7) 31
     let s : State := s.setFld (fRGPROG_WORD 255) (2 ^ 27 + 63)
     let s : State := { s with slp := { s.slp with st := .run } }
     let e := s.eng n
     let atWord := fun (w : Nat) => s.ringRuns n = true ∧ s.ringWord n = w ∧ e.icount < 31
     n < 8 ∧
     s.ring.eng.length = 8 ∧
     s.touch.el.length = 4 ∧
     s.slp.st = .run ∧
     imm < 2 ^ 16 ∧
     k < 64 ∧
     atWord (2 ^ 27 + k) ∧
     e.pend &&& k = 0) ∧
    (let n : Nat := 7
     let imm : Nat := 65535
     let k : Nat := 63
     let s : State := ((up .cell).setFld fRGSTAT_RUNNING 128).setFld (fRGPC_PC 7) 31
     let s : State := s.setFld (fRGPROG_WORD 255) (2 ^ 27 + 63)
     let s : State := { s with ring := { s.ring with eng := List.replicate 8 { pend := 32 } } }
     let s : State := { s with slp := { s.slp with st := .run } }
     let e := s.eng n
     let atWord := fun (w : Nat) => s.ringRuns n = true ∧ s.ringWord n = w ∧ e.icount < 31
     n < 8 ∧
     s.ring.eng.length = 8 ∧
     s.touch.el.length = 4 ∧
     s.slp.st = .run ∧
     imm < 2 ^ 16 ∧
     k < 64 ∧
     atWord (2 ^ 27 + k) ∧
     e.pend &&& k ≠ 0) ∧
    (let n : Nat := 7
     let imm : Nat := 65535
     let k : Nat := 7
     let c : Nat := 4
     let s : State := ((up .cell).setFld fRGSTAT_RUNNING 128).setFld (fRGPC_PC 7) 31
     let s : State := s.setFld (fRGPROG_WORD 255) (2 * 2 ^ 27 + k * 2 ^ 24 + c * 2 ^ 21 + imm)
     let s : State := { s with slp := { s.slp with st := .run } }
     let e := s.eng n
     let atWord := fun (w : Nat) => s.ringRuns n = true ∧ s.ringWord n = w ∧ e.icount < 31
     n < 8 ∧
     s.ring.eng.length = 8 ∧
     s.touch.el.length = 4 ∧
     s.slp.st = .run ∧
     imm < 2 ^ 16 ∧
     k < 8 ∧
     c < 5 ∧
     atWord (2 * 2 ^ 27 + k * 2 ^ 24 + c * 2 ^ 21 + imm)) ∧
    (let n : Nat := 7
     let imm : Nat := 65535
     let a : Nat := 31
     let c : Nat := 2
     let s : State := ((up .cell).setFld fRGSTAT_RUNNING 128).setFld (fRGPC_PC 7) 31
     let s : State := s.setFld (fRGPROG_WORD 255) (3 * 2 ^ 27 + c * 2 ^ 21 + a * 2 ^ 16)
     let s : State := { s with slp := { s.slp with st := .run } }
     let e := s.eng n
     let atWord := fun (w : Nat) => s.ringRuns n = true ∧ s.ringWord n = w ∧ e.icount < 31
     n < 8 ∧
     s.ring.eng.length = 8 ∧
     s.touch.el.length = 4 ∧
     s.slp.st = .run ∧
     imm < 2 ^ 16 ∧
     c < 3 ∧
     a < 32 ∧
     atWord (3 * 2 ^ 27 + c * 2 ^ 21 + a * 2 ^ 16)) ∧
    (let n : Nat := 7
     let imm : Nat := 65535
     let c : Nat := 1
     let s : State := ((up .cell).setFld fRGSTAT_RUNNING 128).setFld (fRGPC_PC 7) 31
     let s : State := s.setFld (fRGPROG_WORD 255) (4 * 2 ^ 27 + c * 2 ^ 21 + imm)
     let s : State := { s with slp := { s.slp with st := .run } }
     let e := s.eng n
     let atWord := fun (w : Nat) => s.ringRuns n = true ∧ s.ringWord n = w ∧ e.icount < 31
     n < 8 ∧
     s.ring.eng.length = 8 ∧
     s.touch.el.length = 4 ∧
     s.slp.st = .run ∧
     imm < 2 ^ 16 ∧
     c < 2 ∧
     atWord (4 * 2 ^ 27 + c * 2 ^ 21 + imm)) ∧
    (let n : Nat := 7
     let imm : Nat := 65535
     let c : Nat := 1
     let s : State := ((up .cell).setFld fRGSTAT_RUNNING 128).setFld (fRGPC_PC 7) 31
     let s : State := s.setFld (fRGPROG_WORD 255) (5 * 2 ^ 27 + c * 2 ^ 21 + imm)
     let s : State := { s with slp := { s.slp with st := .run } }
     let e := s.eng n
     let atWord := fun (w : Nat) => s.ringRuns n = true ∧ s.ringWord n = w ∧ e.icount < 31
     n < 8 ∧
     s.ring.eng.length = 8 ∧
     s.touch.el.length = 4 ∧
     s.slp.st = .run ∧
     imm < 2 ^ 16 ∧
     c < 2 ∧
     atWord (5 * 2 ^ 27 + c * 2 ^ 21 + imm)) ∧
    (let n : Nat := 7
     let imm : Nat := 65535
     let k : Nat := 7
     let s : State := ((up .cell).setFld fRGSTAT_RUNNING 128).setFld (fRGPC_PC 7) 31
     let s : State := s.setFld (fRGPROG_WORD 255) (6 * 2 ^ 27 + k * 2 ^ 24 + imm)
     let s : State := { s with slp := { s.slp with st := .run } }
     let e := s.eng n
     let atWord := fun (w : Nat) => s.ringRuns n = true ∧ s.ringWord n = w ∧ e.icount < 31
     n < 8 ∧
     s.ring.eng.length = 8 ∧
     s.touch.el.length = 4 ∧
     s.slp.st = .run ∧
     imm < 2 ^ 16 ∧
     k < 8 ∧
     atWord (6 * 2 ^ 27 + k * 2 ^ 24 + imm)) ∧
    (let n : Nat := 7
     let imm : Nat := 65535
     let s : State := ((up .cell).setFld fRGSTAT_RUNNING 128).setFld (fRGPC_PC 7) 31
     let s : State := s.setFld (fRGPROG_WORD 255) (7 * 2 ^ 27)
     let s : State := s.setFld (fRGTL_TIME 7) 5
     let s : State := { s with slp := { s.slp with st := .run } }
     let e := s.eng n
     let atWord := fun (w : Nat) => s.ringRuns n = true ∧ s.ringWord n = w ∧ e.icount < 31
     let time := s.fld (fRGTL_TIME n) + s.fld (fRGTH_TIME n) * 2 ^ 32
     n < 8 ∧
     s.ring.eng.length = 8 ∧
     s.touch.el.length = 4 ∧
     s.slp.st = .run ∧
     imm < 2 ^ 16 ∧
     atWord (7 * 2 ^ 27) ∧
     past time s.now = false) ∧
    (let n : Nat := 7
     let imm : Nat := 65535
     let s : State := ((up .cell).setFld fRGSTAT_RUNNING 128).setFld (fRGPC_PC 7) 31
     let s : State := s.setFld (fRGPROG_WORD 255) (8 * 2 ^ 27)
     let s : State := { s with slp := { s.slp with st := .run } }
     let e := s.eng n
     let atWord := fun (w : Nat) => s.ringRuns n = true ∧ s.ringWord n = w ∧ e.icount < 31
     n < 8 ∧
     s.ring.eng.length = 8 ∧
     s.touch.el.length = 4 ∧
     s.slp.st = .run ∧
     imm < 2 ^ 16 ∧
     atWord (8 * 2 ^ 27)) ∧
    (let n : Nat := 7
     let imm : Nat := 65535
     let k : Nat := 255
     let s : State := ((up .cell).setFld fRGSTAT_RUNNING 128).setFld (fRGPC_PC 7) 31
     let s : State := s.setFld (fRGPROG_WORD 255) (9 * 2 ^ 27 + 255)
     let s : State := { s with slp := { s.slp with st := .run } }
     let s : State := { s with ring := { s.ring with evf := [] } }
     let s : State := s.setFld fEVFSTAT_DROPPED 0
     let e := s.eng n
     let atWord := fun (w : Nat) => s.ringRuns n = true ∧ s.ringWord n = w ∧ e.icount < 31
     n < 8 ∧
     s.ring.eng.length = 8 ∧
     s.touch.el.length = 4 ∧
     s.slp.st = .run ∧
     imm < 2 ^ 16 ∧
     k < 256 ∧
     s.ring.evf = [] ∧
     s.fld fEVFSTAT_DROPPED = 0 ∧
     atWord (9 * 2 ^ 27 + k)) ∧
    (let n : Nat := 7
     let imm : Nat := 65535
     let s : State := ((up .cell).setFld fRGSTAT_RUNNING 128).setFld (fRGPC_PC 7) 31
     let s : State := s.setFld (fRGPROG_WORD 255) (10 * 2 ^ 27)
     let s : State := { s with slp := { s.slp with st := .run } }
     let e := s.eng n
     let atWord := fun (w : Nat) => s.ringRuns n = true ∧ s.ringWord n = w ∧ e.icount < 31
     n < 8 ∧
     s.ring.eng.length = 8 ∧
     s.touch.el.length = 4 ∧
     s.slp.st = .run ∧
     imm < 2 ^ 16 ∧
     s.awake = true ∧
     atWord (10 * 2 ^ 27)) ∧
    (let n : Nat := 7
     let imm : Nat := 65535
     let k : Nat := 0
     let s : State := ((up .cell).setFld fRGSTAT_RUNNING 128).setFld (fRGPC_PC 7) 31
     let s : State := (s.setFld (fRGPROG_WORD 255) (11 * 2 ^ 27 + 1)).setFld fRGSTAT_RUNNING 129
     let s : State := { s with slp := { s.slp with st := .run } }
     let e := s.eng n
     let atWord := fun (w : Nat) => s.ringRuns n = true ∧ s.ringWord n = w ∧ e.icount < 31
     n < 8 ∧
     s.ring.eng.length = 8 ∧
     s.touch.el.length = 4 ∧
     s.slp.st = .run ∧
     imm < 2 ^ 16 ∧
     k < 8 ∧
     k ≠ n ∧
     (s.fld fRGSTAT_RUNNING).testBit k = true ∧
     (s.eng k).waiting = false ∧
     (s.eng k).pend = 0 ∧
     atWord (11 * 2 ^ 27 + 2 ^ k)) ∧
    (let n : Nat := 7
     let imm : Nat := 65535
     let s : State := ((up .cell).setFld fRGSTAT_RUNNING 128).setFld (fRGPC_PC 7) 31
     let s : State := s.setFld (fRGPROG_WORD 255) (8 * 2 ^ 27)
     let s : State := { s with ring := { s.ring with eng := List.replicate 8 { icount := 31 } } }
     let s : State := { s with slp := { s.slp with st := .run } }
     let e := s.eng n
     n < 8 ∧
     s.ring.eng.length = 8 ∧
     s.touch.el.length = 4 ∧
     s.slp.st = .run ∧
     imm < 2 ^ 16 ∧
     s.ringRuns n = true ∧
     32 ≤ e.icount + 1 ∧
     s.ringWord n = 8 * 2 ^ 27) ∧
    (let n : Nat := 7
     let imm : Nat := 65535
     let k : Nat := 5
     let s : State := ((up .cell).setFld fRGSTAT_RUNNING 128).setFld (fRGPC_PC 7) 31
     let s : State := { s with ring := { s.ring with eng := List.replicate 8 { waiting := true } } }
     let s : State := { s with slp := { s.slp with st := .run } }
     let e := s.eng n
     n < 8 ∧
     s.ring.eng.length = 8 ∧
     s.touch.el.length = 4 ∧
     s.slp.st = .run ∧
     imm < 2 ^ 16 ∧
     k < 6 ∧
     (s.fld fRGSTAT_RUNNING).testBit n = true ∧
     e.waiting = true ∧
     e.mask = 0 ∧
     e.pend = 0) ∧
    (let n : Nat := 7
     let imm : Nat := 65535
     let s : State := ((up .cell).setFld fRGSTAT_RUNNING 128).setFld (fRGPC_PC 7) 31
     let s : State := s.setFld fRGSTAT_RUNNING 0
     let s : State := { s with slp := { s.slp with st := .run } }
     n < 8 ∧
     s.ring.eng.length = 8 ∧
     s.touch.el.length = 4 ∧
     s.slp.st = .run ∧
     imm < 2 ^ 16 ∧
     (s.fld fRGSTAT_RUNNING).testBit n = false) ∧
    (let n : Nat := 7
     let k : Nat := 3
     let imm : Nat := 65535
     let a : Nat := 31
     let s : State := ((up .cell).setFld fRGSTAT_RUNNING 128).setFld (fRGPC_PC 7) 31
     let s : State := { s with ring := { s.ring with eng := List.replicate 8 { due := some 31 } }, clk := { s.clk with line := 40 } }
     let s : State := { s with slp := { s.slp with st := .run } }
     let e := s.eng n
     let due := (s.now + imm * 2 ^ k) % 2 ^ 48
     n < 8 ∧
     s.ring.eng.length = 8 ∧
     s.touch.el.length = 4 ∧
     s.slp.st = .run ∧
     imm < 2 ^ 16 ∧
     e.due = some a ∧
     reached a s.now = true ∧
     (s.fld fRGSTAT_RUNNING).testBit n = true ∧
     e.waiting = false ∧
     e.pend = 0) ∧
    (let n : Nat := 7
     let k : Nat := 3
     let imm : Nat := 65535
     let s : State := ((up .cell).setFld fRGSTAT_RUNNING 128).setFld (fRGPC_PC 7) 31
     let s : State := { s with slp := { s.slp with st := .run } }
     let e := s.eng n
     let due := (s.now + imm * 2 ^ k) % 2 ^ 48
     n < 8 ∧
     s.ring.eng.length = 8 ∧
     s.touch.el.length = 4 ∧
     s.slp.st = .run ∧
     imm < 2 ^ 16 ∧
     e.due = none) ∧
    (let n : Nat := 7
     let imm : Nat := 65535
     let s : State := ((up .cell).setFld fRGSTAT_RUNNING 128).setFld (fRGPC_PC 7) 31
     let s : State := { s with slp := { s.slp with st := .run } }
     let s : State := { s with touch := { s.touch with on := false } }
     n < 8 ∧
     s.ring.eng.length = 8 ∧
     s.touch.el.length = 4 ∧
     s.slp.st = .run ∧
     imm < 2 ^ 16 ∧
     s.touch.on = false) ∧
    (let n : Nat := 7
     let imm : Nat := 65535
     let c : Nat := 1
     let s : State := ((up .cell).setFld fRGSTAT_RUNNING 128).setFld (fRGPC_PC 7) 31
     let s : State := { s with touch := { s.touch with el := List.replicate 4 { cal := 1, sum := 7 * 65535 } } }
     let s : State := s.setFld fTCHLIM_MAX 65535
     let s : State := { s with touch := { s.touch with on := true } }
     let s : State := { s with slp := { s.slp with st := .run } }
     let s : State := { s with touch := { s.touch with on := true } }
     let s : State := s.setFld fTCHCTL_EN 1
     let s : State := s.setFld fTCHSTAT_FAULT 0
     let counter := if c = 0 then fRGC_C0 n else fRGC_C1 n
     let sum := (clampInt 0 65535 (s.fld counter + Sys2Proof.signed 16 imm)).toNat
     n < 8 ∧
     s.ring.eng.length = 8 ∧
     s.touch.el.length = 4 ∧
     s.slp.st = .run ∧
     imm < 2 ^ 16 ∧
     s.touch.on = true ∧
     s.fld fTCHCTL_EN = 1 ∧
     s.fld fTCHSTAT_FAULT = 0 ∧
     (s.tchEl 0).cal = 1 ∧
     (s.tchEl 0).sum = 7 * imm ∧
     s.fld fTCHLIM_MIN ≤ imm ∧
     imm ≤ s.fld fTCHLIM_MAX) ∧
    (let n : Nat := 7
     let imm : Nat := 5
     let s : State := ((up .cell).setFld fRGSTAT_RUNNING 128).setFld (fRGPC_PC 7) 31
     let s : State := s.setFld fTCHLIM_MAX 65535
     let s : State := { s with touch := { s.touch with on := true } }
     let s : State := s.setFld fTCHLIM_MIN 0
     let s : State := (s.setFld (fTCHBASE_BASE 0) 100).setFld fTCHCFG_THR 3
     let s : State := { s with slp := { s.slp with st := .run } }
     let s : State := { s with touch := { s.touch with on := true } }
     let s : State := s.setFld fTCHCTL_EN 1
     let s : State := s.setFld fTCHSTAT_FAULT 0
     let s : State := s.setFld fTCHCFG_DEB 1
     let s : State := s.setFld fTCHSTAT_TOUCHED 0
     n < 8 ∧
     s.ring.eng.length = 8 ∧
     s.touch.el.length = 4 ∧
     s.slp.st = .run ∧
     imm < 2 ^ 16 ∧
     s.awake = true ∧
     s.touch.on = true ∧
     s.fld fTCHCTL_EN = 1 ∧
     s.fld fTCHSTAT_FAULT = 0 ∧
     (s.tchEl 0).cal = 0 ∧
     s.fld fTCHCFG_DEB = 1 ∧
     s.fld fTCHSTAT_TOUCHED = 0 ∧
     s.fld fTCHLIM_MIN ≤ imm ∧
     imm ≤ s.fld fTCHLIM_MAX ∧
     imm + s.fld fTCHCFG_THR ≤ s.fld (fTCHBASE_BASE 0)) ∧
    (let n : Nat := 7
     let imm : Nat := 65535
     let s : State := ((up .cell).setFld fRGSTAT_RUNNING 128).setFld (fRGPC_PC 7) 31
     let s : State := s.setFld fTCHLIM_MAX 65535
     let s : State := { s with touch := { s.touch with on := true } }
     let s : State := { s with touch := { s.touch with el := List.replicate 4 { good := 2 } } }
     let s : State := { s with slp := { s.slp with st := .run } }
     let s : State := { s with touch := { s.touch with on := true } }
     let s : State := s.setFld fTCHCTL_EN 1
     let s : State := s.setFld fTCHSTAT_FAULT 1
     n < 8 ∧
     s.ring.eng.length = 8 ∧
     s.touch.el.length = 4 ∧
     s.slp.st = .run ∧
     imm < 2 ^ 16 ∧
     s.touch.on = true ∧
     s.fld fTCHCTL_EN = 1 ∧
     s.fld fTCHSTAT_FAULT = 1 ∧
     (s.tchEl 0).good = 2 ∧
     s.fld fTCHLIM_MIN ≤ imm ∧
     imm ≤ s.fld fTCHLIM_MAX) := by
  refine ⟨?_, ?_, ?_, ?_, ?_, ?_, ?_, ?_, ?_, ?_, ?_, ?_, ?_, ?_, ?_, ?_, ?_, ?_, ?_, ?_, ?_, ?_, ?_, ?_, ?_⟩ <;> decide +kernel

/-- What the hypotheses of EnginesAndClaims are met by, clause by clause. -/
theorem witness_EnginesAndClaims :
    (let src := 1
     let dst := 2
     let len := 3
     let k := 4
     let s : State := up .cell
     let s : State := { s with sac := { s.sac with eng := some ⟨1, src, dst, len, k⟩ } }
     let s : State := { s with sac := { s.sac with eng := some ⟨1, src, dst, len, k⟩ } }
     s.sac.eng = some ⟨1, src, dst, len, k⟩) ∧
    (let e := (⟨1, 2, 3, 4, 5⟩ : Eng)
     let s : State := up .cell
     let s : State := { s with sac := { s.sac with eng := some e } }
     let s : State := { s with sac := { s.sac with eng := some e } }
     s.sac.eng = some e) ∧
    (let s : State := up .cell
     let s : State := { s with sac := { s.sac with eng := none } }
     s.sac.eng = none) ∧
    (let a : BitVec 10 := 0x37F
     otpLocked a.toNat = true) ∧
    (let a : BitVec 10 := 0x33F
     otpLocked a.toNat = false) ∧
    (let v : Word := 0
     let s : State := up .cell
     let s : State := { s with role := .chapter }
     let s : State := { s with role := .chapter }
     let s : State := { s with sac := { s.sac with cuts := [] } }
     let s : State := { s with sac := { s.sac with sysrst := none } }
     let s : State := { s with slp := { s.slp with entering := none } }
     (∀ k < 32, v.toNat.testBit k = false) ∧
     s.role = .chapter ∧
     s.sac.cuts = [] ∧
     s.sac.sysrst = none ∧
     s.slp.entering = none) ∧
    (let v : Word := 0x80000000
     let k : Nat := 31
     let s : State := up .cell
     let s : State := { s with role := .chapter }
     let s : State := { s with role := .chapter }
     let s : State := { s with sac := { s.sac with cuts := [] } }
     let s : State := { s with sac := { s.sac with sysrst := none } }
     let s : State := { s with slp := { s.slp with entering := none } }
     k < 32 ∧
     v.toNat.testBit k = true ∧
     claimable.contains k = false ∧
     s.role = .chapter ∧
     s.sac.cuts = [] ∧
     s.sac.sysrst = none ∧
     s.slp.entering = none) ∧
    (let s : State := up .cell
     let s : State := { s with sac := { s.sac with vq := [] } }
     s.sac.vq = []) ∧
    (let e := List.replicate 16 (7 : Byte)
     let q := ([] : List (List Byte))
     let s : State := up .cell
     let s : State := { s with sac := { s.sac with vq := e :: q } }
     let s : State := { s with sac := { s.sac with vq := e :: q } }
     let s : State := { s with dec := { s.dec with dc := [] } }
     let s : State := { s with cant := { s.cant with dc := [] } }
     let s : State := { s with descCache := [] }
     s.sac.vq = e :: q ∧
     e.length = 16 ∧
     s.dec.dc = [] ∧
     s.cant.dc = [] ∧
     s.descCache = []) := by
  refine ⟨?_, ?_, ?_, ?_, ?_, ?_, ?_, ?_, ?_⟩ <;> decide +kernel

/-- What the hypotheses of SignedOperations are met by, clause by clause. -/
theorem witness_SignedOperations :
    (let d : Desc := ds 0x23 []
     let s : State := { up .cell with mem := { (up .cell).mem with otp := runAt 0 (List.replicate 8 0) ++ runAt 0x300 [2, 0, 1, 0] } }
     s.ready d = true) ∧
    (let d : Desc := ds 0x23 []
     let s : State := { up .cell with mem := { (up .cell).mem with otp := runAt 0 (List.replicate 8 0) ++ runAt 0x300 [2, 0, 1, 0] } }
     let s : State := s.setFld fSACSTAT_HELD 0
     let s : State := { s with sac := { s.sac with chal := none } }
     let free := s.on fSACSTAT_HELD = false
     s.ready d = true ∧
     free ∧
     s.sac.chal = none) ∧
    (let d : Desc := ds 0x23 []
     let s : State := { up .cell with mem := { (up .cell).mem with otp := runAt 0 (List.replicate 8 0) ++ runAt 0x300 [2, 0, 1, 0] } }
     let s : State := { s with sac := { s.sac with chal := some [] } }
     let s : State := s.setFld fSACSTAT_HELD 0
     let free := s.on fSACSTAT_HELD = false
     s.ready d = true ∧
     free ∧
     s.sac.chal ≠ none ∧
     s.keyUsable (dsArg d 1) = false) ∧
    (let d : Desc := ds 0x23 []
     let s : State := { up .cell with mem := { (up .cell).mem with otp := runAt 0 (List.replicate 8 0) ++ runAt 0x300 [2, 0, 1, 0] } }
     let s : State := s.setFld fSACSTAT_HELD 0
     let s : State := { s with sac := { s.sac with rngFail := true } }
     let free := s.on fSACSTAT_HELD = false
     s.ready d = true ∧
     free ∧
     s.sac.rngFail = true) ∧
    (let d : Desc := ds 0x23 []
     let s : State := { up .cell with mem := { (up .cell).mem with otp := runAt 0 (List.replicate 8 0) ++ runAt 0x300 [2, 0, 1, 0] } }
     let s : State := s.setFld fSACSTAT_HELD 0
     let s : State := { s with sac := { s.sac with rngFail := false } }
     let free := s.on fSACSTAT_HELD = false
     s.ready d = true ∧
     free ∧
     s.sac.rngFail = false) ∧
    (let d : Desc := ds 0x23 (args [(0, 1, 8)])
     let s : State := { up .cell with mem := { (up .cell).mem with otp := runAt 0 (List.replicate 8 0) ++ runAt 0x300 [2, 0, 1, 0] } }
     let s : State := s.setFld fSACSTAT_HELD 0
     let free := s.on fSACSTAT_HELD = false
     s.ready d = true ∧
     free ∧
     8 ≤ dsArg d 0) ∧
    (let d : Desc := (⟨.lectern, 0, 0, 0, [0x23] ++ List.replicate 63 0⟩ : Desc)
     let s : State := { up .cell with mem := { (up .cell).mem with otp := runAt 0 (List.replicate 8 0) ++ runAt 0x300 [2, 0, 1, 0] } }
     let s : State := { s with sac := { s.sac with stage := List.replicate 128 7 } }
     let s : State := s.setFld fSACSTAT_HELD 0
     let free := s.on fSACSTAT_HELD = false
     s.ready d = true ∧
     free ∧
     dsArg d 0 < 8 ∧
     s.sac.stage.length = 128 ∧
     d.bytes.length = 64) ∧
    (let d : Desc := ds 0x23 []
     let s : State := { up .cell with mem := { (up .cell).mem with otp := runAt 0 (List.replicate 8 0) ++ runAt 0x300 [2, 0, 1, 0] } }
     let s : State := s.setFld fSACSTAT_HELD 0
     let free := s.on fSACSTAT_HELD = false
     s.ready d = true ∧
     free) ∧
    (let d : Desc := ds 0x23 (args [(0, 2, 896)])
     let s : State := { up .cell with mem := { (up .cell).mem with otp := runAt 0 (List.replicate 8 0) ++ runAt 0x300 [2, 0, 1, 0] } }
     let s : State := { s with sac := { s.sac with seq := 896 } }
     let s : State := { s with role := .cell }
     let s : State := s.setFld fSACSTAT_HELD 0
     let free := s.on fSACSTAT_HELD = false
     s.ready d = true ∧
     (s.role = .cell ∨ s.role = .loop) ∧
     free ∧
     s.sac.seq ≤ 896 ∧
     s.sac.seq ≤ dsArgs d 0 4) ∧
    (let d : Desc := (⟨.lectern, 0, 0, 0, [0x23, 2] ++ List.replicate 22 0 ++ [64] ++ List.replicate 39 0⟩ : Desc)
     let s : State := { up .cell with mem := { (up .cell).mem with otp := runAt 0 (List.replicate 8 0) ++ runAt 0x300 [2, 0, 1, 0] } }
     let s : State := { s with sac := { s.sac with seq := 896 } }
     let s : State := { s with role := .cell }
     let s : State := s.setFld fSACSTAT_HELD 0
     let free := s.on fSACSTAT_HELD = false
     s.ready d = true ∧
     (s.role = .cell ∨ s.role = .loop) ∧
     free ∧
     s.sac.seq ≤ 896 ∧
     dsArgs d 0 4 < s.sac.seq ∧
     dsReslen d = 64) ∧
    (let d : Desc := ds 0x23 [6]
     let s : State := { up .cell with mem := { (up .cell).mem with otp := runAt 0 (List.replicate 8 0) ++ runAt 0x300 [2, 0, 1, 0] } }
     let s : State := { s with sac := { s.sac with seq := 5, ack := 3 } }
     let s : State := { s with role := .cell }
     let s : State := s.setFld fSACSTAT_HELD 0
     let free := s.on fSACSTAT_HELD = false
     s.ready d = true ∧
     (s.role = .cell ∨ s.role = .loop) ∧
     free ∧
     (s.sac.seq < dsArgs d 0 4 ∨ dsArgs d 0 4 < s.sac.ack)) ∧
    (let d : Desc := ds 0x23 [3]
     let s : State := { up .cell with mem := { (up .cell).mem with otp := runAt 0 (List.replicate 8 0) ++ runAt 0x300 [2, 0, 1, 0] } }
     let s : State := { s with sac := { s.sac with seq := 5, ack := 3 } }
     let s : State := { s with role := .cell }
     let s : State := s.setFld fSACSTAT_HELD 0
     let free := s.on fSACSTAT_HELD = false
     s.ready d = true ∧
     (s.role = .cell ∨ s.role = .loop) ∧
     free ∧
     dsArgs d 0 4 ≤ s.sac.seq ∧
     s.sac.ack ≤ dsArgs d 0 4) ∧
    (let d : Desc := ds 0x23 []
     let n := 9
     let s : State := { up .cell with mem := { (up .cell).mem with otp := runAt 0 (List.replicate 8 0) ++ runAt 0x300 [2, 0, 1, 0] } }
     let s : State := { s with role := .cell }
     let s : State := s.setFld fSACSTAT_HELD 0
     let free := s.on fSACSTAT_HELD = false
     s.ready d = true ∧
     (s.role = .cell ∨ s.role = .loop) ∧
     free ∧
     s.sac.seq ≤ n ∧
     n < 2 ^ 32) ∧
    (let d : Desc := ds 0x23 []
     let n := 0
     let s : State := { up .cell with sac := { (up .cell).sac with seq := 1 }, mem := sealed }
     let s : State := { s with role := .cell }
     let s : State := s.setFld fSACSTAT_HELD 0
     let free := s.on fSACSTAT_HELD = false
     s.ready d = true ∧
     (s.role = .cell ∨ s.role = .loop) ∧
     free ∧
     s.sealHeld n = true ∧
     s.sealGood n = true) ∧
    (let d : Desc := ds 0x23 []
     let s : State := { up .cell with mem := { (up .cell).mem with otp := runAt 0 (List.replicate 8 0) ++ runAt 0x300 [2, 0, 1, 0] } }
     let s : State := { s with sac := { s.sac with vlogN := 0 } }
     s.ready d = true ∧
     s.sac.vlogN = 0) ∧
    (let d : Desc := (⟨.lectern, 0, 0, 0, [0x23, 2] ++ List.replicate 22 0 ++ [16] ++ List.replicate 39 0⟩ : Desc)
     let s : State := { up .cell with mem := { (up .cell).mem with otp := runAt 0 (List.replicate 8 0) ++ runAt 0x300 [2, 0, 1, 0] } }
     let s : State := { s with sac := { s.sac with vlogN := 1 } }
     s.ready d = true ∧
     0 < s.sac.vlogN ∧
     dsReslen d = 16) := by
  refine ⟨?_, ?_, ?_, ?_, ?_, ?_, ?_, ?_, ?_, ?_, ?_, ?_, ?_, ?_, ?_, ?_⟩ <;> decide +kernel

/-- What the hypotheses of SacristyOpcodes are met by, clause by clause. -/
theorem witness_SacristyOpcodes :
    (let d : Desc := ds 0 []
     let s : State := up .cell
     let s : State := { s with role := .chapter }
     let s : State := { s with role := .chapter }
     s.ready d = true ∧
     (s.role = .chapter ∨ s.role = .crossing)) ∧
    (let d : Desc := ds 0 []
     let s : State := up .cell
     let s : State := s.setFld fSACSTAT_HELD 1
     s.ready d = true ∧
     s.on fSACSTAT_HELD = true) ∧
    (let d : Desc := ds 0 []
     let s : State := up .cell
     let s : State := s.setFld fSACSTAT_HELD 1
     let s : State := { s with role := .cell }
     s.ready d = true ∧
     s.on fSACSTAT_HELD = true ∧
     (s.role = .cell ∨ s.role = .loop)) ∧
    (let d : Desc := ds 0 []
     let s : State := up .cell
     let s : State := s.setFld fSACSTAT_HELD 1
     s.ready d = true ∧
     s.on fSACSTAT_HELD = true) ∧
    (let d : Desc := (⟨.walk, 0, 0, 0, [0x2F] ++ List.replicate 63 0⟩ : Desc)
     let s : State := up .cell
     let s : State := { s with node := { s.node with inbox := [⟨.walk, 0, 0, 0, [0x2F] ++ List.replicate 63 0⟩] } }
     let s : State := { s with rst := { s.rst with offDesc := none } }
     let s : State := { s with slp := { s.slp with entering := none } }
     let s : State := { s with rst := { s.rst with restoreDue := false } }
     0x2C ≤ dsOpcode d ∧
     dsOpcode d ≤ 0x2F ∧
     s.canRun d = true ∧
     s.waitingDescs = [d] ∧
     s.rst.offDesc = none ∧
     s.pending = [] ∧
     s.slp.entering = none ∧
     s.rst.restoreDue = false) := by
  refine ⟨?_, ?_, ?_, ?_, ?_⟩ <;> decide +kernel

/-- What the hypotheses of SacristyServices are met by, clause by clause. -/
theorem witness_SacristyServices :
    (let c : Caller := (⟨.decani, .sacristy, true⟩ : Caller)
     let s : State := { up .cell with dec := coreAt [] }
     let s : State := s.setFld fBOOTSTAT_RECOV 0
     c.core = .decani ∧
     s.rhocoUp = true ∧
     s.on fBOOTSTAT_RECOV = false ∧
     s.dec.gpr.length = 16) ∧
    (let c : Caller := (⟨.decani, .sacristy, true⟩ : Caller)
     let s : State := { up .cell with dec := coreAt [] }
     let s : State := s.setFld fSACSTAT_HELD 1
     let s : State := s.setFld fBOOTSTAT_RECOV 0
     let off := s.on fSACSTAT_HELD = true
     c.core = .decani ∧
     s.rhocoUp = true ∧
     s.on fBOOTSTAT_RECOV = false ∧
     s.dec.gpr.length = 16 ∧
     (off ∨ s.sac.rngFail = true)) ∧
    (let c : Caller := (⟨.decani, .sacristy, true⟩ : Caller)
     let s : State := { up .cell with dec := coreAt [] }
     let s : State := s.setFld fBOOTSTAT_RECOV 0
     let s : State := s.setFld fSACSTAT_HELD 0
     let s : State := { s with sac := { s.sac with rngFail := false } }
     let up := s.on fSACSTAT_HELD = false
     c.core = .decani ∧
     s.rhocoUp = true ∧
     s.on fBOOTSTAT_RECOV = false ∧
     s.dec.gpr.length = 16 ∧
     up ∧
     s.sac.rngFail = false) ∧
    (let c : Caller := (⟨.decani, .sacristy, true⟩ : Caller)
     let s : State := { up .cell with dec := { coreAt [] with gpr := [0x90000000, 4, 0x20000100] ++ List.replicate 13 0 } }
     let s : State := s.setFld fBOOTSTAT_RECOV 0
     let g := fun n => (s.dec.gpr.getD n 0).toNat
     let off := s.on fSACSTAT_HELD = true
     c.core = .decani ∧
     s.rhocoUp = true ∧
     s.on fBOOTSTAT_RECOV = false ∧
     s.dec.gpr.length = 16 ∧
     (off ∨ s.svMay c .r (g 0) (g 1) = false ∨ s.svMay c .w (g 2) 32 = false)) ∧
    (let c : Caller := (⟨.decani, .sacristy, true⟩ : Caller)
     let s : State := { up .cell with dec := { coreAt [] with gpr := [0x20000200, 4, 0x20000100] ++ List.replicate 13 0 } }
     let s : State := s.setFld fBOOTSTAT_RECOV 0
     let s : State := s.setFld fSACSTAT_HELD 0
     let s : State := { s with dec := { s.dec with dc := [] } }
     let s : State := { s with cant := { s.cant with dc := [] } }
     let s : State := { s with descCache := [] }
     let g := fun n => (s.dec.gpr.getD n 0).toNat
     let up := s.on fSACSTAT_HELD = false
     c.core = .decani ∧
     s.rhocoUp = true ∧
     s.on fBOOTSTAT_RECOV = false ∧
     s.dec.gpr.length = 16 ∧
     up ∧
     s.svMay c .r (g 0) (g 1) = true ∧
     s.svMay c .w (g 2) 32 = true ∧
     inSram (g 2) 32 = true ∧
     g 2 % 4 = 0 ∧
     s.dec.dc = [] ∧
     s.cant.dc = [] ∧
     s.descCache = []) ∧
    (let c : Caller := (⟨.decani, .sacristy, true⟩ : Caller)
     let s : State := { up .cell with dec := { coreAt [] with gpr := [0x20000200, 4, 8] ++ List.replicate 13 0 } }
     let s : State := s.setFld fBOOTSTAT_RECOV 0
     let g := fun n => (s.dec.gpr.getD n 0).toNat
     c.core = .decani ∧
     s.rhocoUp = true ∧
     s.on fBOOTSTAT_RECOV = false ∧
     s.dec.gpr.length = 16 ∧
     8 ≤ g 2) ∧
    (let c : Caller := (⟨.decani, .sacristy, true⟩ : Caller)
     let s : State := { up .cell with dec := { coreAt [] with gpr := [0x20000200, 0x90000000, 7] ++ List.replicate 13 0 } }
     let s : State := s.setFld fBOOTSTAT_RECOV 0
     let g := fun n => (s.dec.gpr.getD n 0).toNat
     let off := s.on fSACSTAT_HELD = true
     c.core = .decani ∧
     s.rhocoUp = true ∧
     s.on fBOOTSTAT_RECOV = false ∧
     s.dec.gpr.length = 16 ∧
     g 2 < 8 ∧
     (off ∨ s.svMay c .r (g 0) 32 = false ∨ s.svMay c .r (g 1) 64 = false)) ∧
    (let c : Caller := (⟨.decani, .sacristy, true⟩ : Caller)
     let s : State := { up .cell with dec := { coreAt [] with gpr := [0x20000200, 0x20000300, 7] ++ List.replicate 13 0 } }
     let s : State := s.setFld fBOOTSTAT_RECOV 0
     let s : State := s.setFld fSACSTAT_HELD 0
     let g := fun n => (s.dec.gpr.getD n 0).toNat
     let up := s.on fSACSTAT_HELD = false
     c.core = .decani ∧
     s.rhocoUp = true ∧
     s.on fBOOTSTAT_RECOV = false ∧
     s.dec.gpr.length = 16 ∧
     g 2 < 8 ∧
     up ∧
     s.svMay c .r (g 0) 32 = true ∧
     s.svMay c .r (g 1) 64 = true) := by
  refine ⟨?_, ?_, ?_, ?_, ?_, ?_, ?_, ?_⟩ <;> decide +kernel

/-- What the hypotheses of StepRunsTheCommand are met by, clause by clause. -/
theorem witness_StepRunsTheCommand :
    (let c : Instr := Instr.bootGood
     let rest : List Instr := ([.bootGood] : List Instr)
     let s : State := up .cell
     let s : State := { s with pending := .bootGood :: rest }
     s.pending = c :: rest) ∧
    (let s : State := up .cell
     let s : State := { s with slp := { s.slp with entering := none } }
     let s : State := { s with rst := { s.rst with restoreDue := false } }
     s.pending = [] ∧
     s.slp.entering = none ∧
     s.rst.restoreDue = false ∧
     s.quiet = true) := by
  refine ⟨?_, ?_⟩ <;> decide +kernel

/-- What the hypotheses of ResetValues are met by, clause by clause. -/
theorem witness_ResetValues :
    (let k := 31
     k < 32) := by
  decide +kernel

/-- What the hypotheses of Completions are met by, clause by clause. -/
theorem witness_Completions :
    (let d : Desc := (⟨.lectern, 0, 0, 0, [0, 4] ++ List.replicate 62 0⟩ : Desc)
     let s : State := up .cell
     s.readyBad d = true) ∧
    (let d : Desc := (⟨.lectern, 0, 0, 0, [0, 4] ++ List.replicate 62 0⟩ : Desc)
     let s : State := up .cell
     let s : State := { s with role := .cell }
     s.readyBad d = true ∧
     s.role = .cell) ∧
    (let d : Desc := (⟨.lane 3, 12, 0, 0, List.replicate 64 0⟩ : Desc)
     let s : State := up .cell
     let s : State := { s with role := .chapter }
     let s : State := { s with role := .chapter }
     s.quiet = true ∧
     s.canRun d = true ∧
     s.role = .chapter) ∧
    (let d : Desc := ds 0 []
     let s : State := up .cell
     let s : State := { s with rst := { s.rst with hold := true } }
     s.quiet = true ∧
     s.canRun d = false) ∧
    (let d : Desc := ds 0 []
     let st : Nat := 255
     let r : Nat := 2 ^ 32 - 1
     d.path = .lectern ∧
     st < 256 ∧
     r < 2 ^ 32 ∧
     d.bytes.length = 64 ∧
     d.seq < 256 ∧
     dsResbuf d = false) ∧
    (let st : Nat := 255
     let r : Nat := 2 ^ 32 - 1
     let res : List Byte := List.replicate 64 7
     let d : Desc := (⟨.lectern, 0, 0, 0, [0, 2] ++ List.replicate 22 0 ++ [64] ++ List.replicate 39 0⟩ : Desc)
     d.path = .lectern ∧
     st < 256 ∧
     r < 2 ^ 32 ∧
     d.bytes.length = 64 ∧
     d.seq < 256 ∧
     dsResbuf d = true ∧
     res ≠ [] ∧
     res.length ≤ 64 ∧
     res.length ≤ dsReslen d) ∧
    (let st : Nat := 255
     let r : Nat := 2 ^ 32 - 1
     let res : List Byte := List.replicate 64 7
     let d : Desc := (⟨.lectern, 0, 0, 0, [0, 2] ++ List.replicate 22 0 ++ [63] ++ List.replicate 39 0⟩ : Desc)
     d.path = .lectern ∧
     st < 256 ∧
     r < 2 ^ 32 ∧
     d.bytes.length = 64 ∧
     d.seq < 256 ∧
     dsResbuf d = true ∧
     0 < dsReslen d ∧
     dsReslen d ≤ 64 ∧
     dsReslen d < res.length) := by
  refine ⟨?_, ?_, ?_, ?_, ?_, ?_, ?_⟩ <;> decide +kernel

end Sys2Proof.Tests
end

section
/-! PROOF. Storage cells: what is written to a byte of memory or a register field reads back, and nothing else changes (R3, R4). -/

namespace Sys2Proof.Proofs

open Sys2Proof Sys2Proof.Machine

/-- `Fld.other` says of two fields that they lie in different registers or in different bits of one. -/
theorem other_iff (f g : Fld) : f.other g = true ↔ f.addr ≠ g.addr ∨ f.lo + f.w ≤ g.lo ∨ g.lo + g.w ≤ f.lo := by
  simp only [Fld.other, Fld.apart, Bool.or_eq_true, decide_eq_true_eq]

/-- Setting a field rewrites its own register only. -/
theorem reg_setFld_ne (s : State) (f : Fld) (v a : Nat) (h : a ≠ f.addr) : (s.setFld f v).reg a = s.reg a := by
  rw [State.setFld, State.reg_setReg, if_neg h.symm]

/-- Settles O22: bytes by induction on the bytes written (`Mem.byte_putBytes` and its frame), fields bit by bit (`State.fld_setFld` and
its frame). -/
theorem storageCells : Obligations.StorageCells := by
  unfold Obligations.StorageCells
  refine ⟨fun m a bs hwf => ⟨?canonical, ?readsBack, ?outside⟩, fun s f g v hf _ => ⟨?field, ?otherField, ?otherReg, ?rest⟩⟩
  case canonical => exact Memory.wf_putBytes m a bs hwf
  case readsBack => exact fun j hj => Mem.byte_putBytes m a j bs hj
  case outside => exact fun b hb => Mem.byte_putBytes_outside m a b bs hb
  case field => exact State.fld_setFld s f v hf
  case otherField => exact fun h => State.fld_setFld_other s f g v ((other_iff f g).mpr h)
  case otherReg => exact fun a ha => reg_setFld_ne s f v a ha
  case rest => exact ⟨State.setFld_mem s f v, State.setFld_dec s f v, State.setFld_cant s f v, State.setFld_out s f v⟩

end Sys2Proof.Proofs
end

section
/-! PROOF. The driver of a walk: what setting a field shows; what an event it posts (R239, R248), the frames it sends (R186, R189) and
the tokens it grants (R61, R149, R191) leave alone; and how it runs a descriptor (R180, R246). -/

namespace Sys2Proof.Proofs

open Sys2Proof Sys2Proof.Machine

/-! ### Fields read as bits, and counters -/

theorem fld_of_regs {s t : State} (h : t.regs = s.regs) (f : Fld) : t.fld f = s.fld f := by
  simp only [State.fld, State.reg, h]

theorem on_of_fld {s t : State} {f : Fld} (h : t.fld f = s.fld f) : t.on f = s.on f := by
  simp only [State.on, h]

theorem on_setFld_other (s : State) (f g : Fld) (v : Nat) (h : f.other g = true) : (s.setFld f v).on g = s.on g :=
  on_of_fld (State.fld_setFld_other s f g v h)

theorem on_setFld_b2n (s : State) (f : Fld) (b : Bool) (hw : 0 < f.w) (h : f.lo + f.w ≤ 32) : (s.setFld f (b2n b)).on f = b := by
  have h2 : 1 < 2 ^ f.w := Nat.one_lt_two_pow (by omega)
  cases b <;> simp [State.on, State.fld_setFld _ _ _ h, b2n, Nat.mod_eq_of_lt h2]

theorem on_setFld_one (s : State) (f : Fld) (hw : 0 < f.w) (h : f.lo + f.w ≤ 32) : (s.setFld f 1).on f = true :=
  on_setFld_b2n s f true hw h

theorem on_setFld_zero (s : State) (f : Fld) (hw : 0 < f.w) (h : f.lo + f.w ≤ 32) : (s.setFld f 0).on f = false :=
  on_setFld_b2n s f false hw h

theorem satAdd_le (cap v k : Nat) : satAdd cap v k ≤ cap := by
  unfold satAdd; split <;> omega

/-- A counter field holds its count, which saturates below the field's size. -/
theorem fld_count (s : State) (f : Fld) (h : f.lo + f.w ≤ 32) : (s.count f).fld f = satAdd (2 ^ f.w - 1) (s.fld f) 1 := by
  have hle := satAdd_le (2 ^ f.w - 1) (s.fld f) 1
  have hpos := Nat.two_pow_pos f.w
  rw [State.count, State.fld_setFld s f _ h, Nat.mod_eq_of_lt (by omega)]

/-! ### Events -/

/-- What posting an event record leaves alone. -/
structure EventFrame (s t : State) : Prop where
  regs : t.regs = s.regs
  clk : t.clk = s.clk
  drv : t.drv = s.drv
  besides : s.besides t

theorem EventFrame.refl (s : State) : EventFrame s s := ⟨rfl, rfl, rfl, s.besides_refl⟩

theorem EventFrame.trans {s t u : State} (h : EventFrame s t) (k : EventFrame t u) : EventFrame s u :=
  ⟨k.regs.trans h.regs, k.clk.trans h.clk, k.drv.trans h.drv, State.besides_trans h.besides k.besides⟩

theorem EventFrame.on {s t : State} (h : EventFrame s t) (f : Fld) : t.on f = s.on f := on_of_fld (fld_of_regs h.regs f)

theorem EventFrame.ite {s t u : State} {c : Prop} [Decidable c] (h : EventFrame s t) (k : EventFrame s u) :
    EventFrame s (if c then t else u) := by
  split
  · exact h
  · exact k

theorem emit_frame (s : State) (o : Out) : EventFrame s (s.emit o) := ⟨rfl, rfl, rfl, s.besides_refl⟩

theorem setScr_frame (s : State) (x : Scr) : EventFrame s { s with scr := x } := ⟨rfl, rfl, rfl, s.besides_refl⟩

theorem msixTrigger_frame (s : State) (v : Nat) : EventFrame s (s.msixTrigger v) := by
  unfold State.msixTrigger
  refine .ite ?send (.ite (.ite ?wake ?pme) ?pend)
  case wake | pme | pend => exact ⟨rfl, rfl, rfl, s.besides_refl⟩
  case send =>
    unfold State.msixSend
    split
    · exact emit_frame s _
    · exact .refl s

theorem signal_frame (s : State) (r : Ring) : EventFrame s (s.signal r) := .ite (msixTrigger_frame s r.vector) (.refl s)

theorem ringRecord_frame {s t : State} {n : Nat} {rec : List Byte} (h : s.ringRecord n rec = some t) : EventFrame s t := by
  unfold State.ringRecord at h
  split at h
  next r _ =>
    split at h
    · cases h
      exact (((emit_frame s _).trans (setScr_frame _ _)).trans (emit_frame _ _)).trans (signal_frame _ _)
    · cases h
  next => cases h

theorem drainRecords_frame (n : Nat) (s : State) : EventFrame s (s.drainRecords n) := by
  induction n generalizing s with
  | zero => exact .refl s
  | succ n ih =>
    unfold State.drainRecords
    split
    · exact .refl s
    · split
      next h => exact (setScr_frame s _).trans ((ringRecord_frame h).trans (ih _))
      next => exact .refl s

theorem postRecord_frame (s : State) (rec : List Byte) : EventFrame s (s.postRecord rec) := by
  unfold State.postRecord
  split
  next t h =>
    split at h
    · exact ringRecord_frame h
    · cases h
  next => exact (setScr_frame s _).trans (drainRecords_frame _ _)

/-- An event of the driver goes to ring 7 or into the reports and changes nothing else. -/
theorem driverEvent_frame (s : State) (code : Nat) (src : Option Nat) (data : List Byte) :
    EventFrame s (s.driverEvent code src data) := by
  unfold State.driverEvent
  exact .ite (postRecord_frame s _) ⟨rfl, rfl, rfl, s.besides_refl⟩

theorem walkEvent_frame (s : State) (code : Nat) : EventFrame s (s.walkEvent code) := driverEvent_frame s code none _

/-! ### Frames and tokens -/

/-- What sending frames and granting tokens leave alone. -/
structure SendFrame (s t : State) : Prop where
  regs : t.regs = s.regs
  clk : t.clk = s.clk
  testing : t.drv.testing = s.drv.testing
  powerDesc : t.drv.powerDesc = s.drv.powerDesc
  ovWsup : t.drv.ovWsup = s.drv.ovWsup
  lastOff : t.drv.lastOff = s.drv.lastOff
  besides : s.besides t

theorem SendFrame.refl (s : State) : SendFrame s s := ⟨rfl, rfl, rfl, rfl, rfl, rfl, s.besides_refl⟩

theorem SendFrame.trans {s t u : State} (h : SendFrame s t) (k : SendFrame t u) : SendFrame s u :=
  ⟨k.regs.trans h.regs, k.clk.trans h.clk, k.testing.trans h.testing, k.powerDesc.trans h.powerDesc, k.ovWsup.trans h.ovWsup,
    k.lastOff.trans h.lastOff, State.besides_trans h.besides k.besides⟩

theorem EventFrame.send {s t : State} (h : EventFrame s t) : SendFrame s t :=
  ⟨h.regs, h.clk, by rw [h.drv], by rw [h.drv], by rw [h.drv], by rw [h.drv], h.besides⟩

theorem SendFrame.ite {s t u : State} {c : Prop} [Decidable c] (h : SendFrame s t) (k : SendFrame s u) :
    SendFrame s (if c then t else u) := by
  split
  · exact h
  · exact k

/-- A fold of steps that each send frames sends frames. -/
theorem foldl_sendFrame {α : Type} (step : State → α → State) (h : ∀ s a, SendFrame s (step s a)) (l : List α) (s : State) :
    SendFrame s (l.foldl step s) := by
  induction l generalizing s with
  | nil => exact .refl s
  | cons a l ih => exact (h s a).trans (ih (step s a))

theorem dnPut_frame (s : State) (f : Frame) : SendFrame s (s.dnPut f) := ⟨rfl, rfl, rfl, rfl, rfl, rfl, s.besides_refl⟩

theorem dnSend_frame (s : State) (x : Dn) : SendFrame s (s.dnSend x) := by
  unfold State.dnSend
  dsimp only
  split <;> split <;> split <;> exact ⟨rfl, rfl, rfl, rfl, rfl, rfl, s.besides_refl⟩

theorem dnOwed_frame (s : State) : SendFrame s s.dnOwed := by
  unfold State.dnOwed
  dsimp only
  refine SendFrame.trans (t := { s with drv := { s.drv with ackDue := [], tokDue := [] } })
    ⟨rfl, rfl, rfl, rfl, rfl, rfl, s.besides_refl⟩ (.trans (foldl_sendFrame _ (fun u k => dnPut_frame u _) _ _)
      (foldl_sendFrame _ (fun u pos => ?_) _ _))
  split
  · exact dnPut_frame u _
  · exact .refl u

theorem dnDrain_frame (n : Nat) (s : State) : SendFrame s (s.dnDrain n) := by
  induction n generalizing s with
  | zero => exact .refl s
  | succ n ih =>
    unfold State.dnDrain
    split
    · split
      · exact (dnSend_frame s _).trans (ih _)
      · exact .refl s
    · exact .refl s

theorem dnFlush_frame (s : State) : SendFrame s s.dnFlush := by
  unfold State.dnFlush
  dsimp only
  split
  · exact (dnOwed_frame s).trans (dnDrain_frame _ _)
  · exact .refl s

theorem oweTok_frame (s : State) (pos : Nat) : SendFrame s (s.oweTok pos) := by
  unfold State.oweTok
  refine .trans ?_ (dnFlush_frame _)
  exact ⟨rfl, rfl, rfl, rfl, rfl, rfl, s.besides_refl⟩

theorem serveList_frame (l : List Nat) (s : State) : SendFrame s (s.serveList l) := by
  induction l generalizing s with
  | nil => exact .refl s
  | cons pos rest ih =>
    unfold State.serveList
    split
    · exact ih s
    · split
      · exact ih s
      · refine .trans (.ite ?kept (.trans ?kept (oweTok_frame _ pos))) (ih _)
        exact ⟨rfl, rfl, rfl, rfl, rfl, rfl, s.besides_refl⟩

/-- Where no request names an enrolled Cell nothing is granted. -/
theorem serveList_idle (l : List Nat) (s : State) (h : ∀ pos ∈ l, s.enr? pos = none) : s.serveList l = s := by
  induction l with
  | nil => rfl
  | cons pos rest ih =>
    rw [State.serveList, h pos (List.mem_cons_self ..)]
    exact ih (fun p hp => h p (List.mem_cons_of_mem pos hp))

/-! ### The book -/

/-- The book with its two notices and BOOKFLAG.DEFICIT brought up to date. -/
def noticed (s t : State) : State :=
  (t.setDrv (fun d => { d with overloadSeen := decide (s.budget < 0), deficitSeen := decide (0 < s.deficit) })).setFld
    fBOOKFLAG_DEFICIT (b2n (decide (0 < s.deficit)))

/-- A change of the book posts its events, brings the notices up to date and serves the requests. -/
theorem bookSync_cases (s : State) : ∃ t, EventFrame s t ∧ s.bookSync = (noticed s t).serve := by
  have event (t : State) (c : Bool) (code : Nat) (data : List Byte) :
      EventFrame t (if c = true then t.driverEvent code none data else t) :=
    .ite (driverEvent_frame t code none data) (.refl t)
  exact ⟨_, (event s _ _ _).trans (event _ _ _ _), rfl⟩

/-- With no request of an enrolled Cell the change ends there. -/
theorem bookSync_idle (s : State) (h : ∀ pos ∈ s.drv.reqs, s.enr? pos = none) :
    ∃ t, EventFrame s t ∧ s.bookSync = noticed s t := by
  obtain ⟨t, ht, he⟩ := bookSync_cases s
  refine ⟨t, ht, he.trans (serveList_idle _ _ ?_)⟩
  simpa only [noticed, State.enr?, State.setFld_drv, State.setDrv_drv, ht.drv] using h

/-- A change of the book writes no register but BOOKFLAG.DEFICIT and leaves the drive alone. -/
theorem bookSync_frame (s : State) : ∃ v, SendFrame (s.setFld fBOOKFLAG_DEFICIT v) s.bookSync := by
  obtain ⟨t, ht, he⟩ := bookSync_cases s
  refine ⟨b2n (decide (0 < s.deficit)), ?_⟩
  rw [he]
  refine .trans ?_ (serveList_frame _ _)
  have hs := ht.send
  exact ⟨by simp only [noticed, State.setFld, State.setReg, State.reg, State.setDrv_regs, ht.regs], hs.clk, hs.testing, hs.powerDesc,
    hs.ovWsup, hs.lastOff, hs.besides⟩

/-! ### Descriptors of a walk's driver -/

/-- A descriptor that is ready and whose action ends at once completes with what the action answers. -/
theorem runDesc_done {s t : State} {d : Desc} {act : State → DescRes} {st r : Nat} {bs : List Byte} (h : s.ready d = true)
    (hact : act s = ⟨t, st, r, bs, false⟩) : s.runDesc d true act = t.complete d st r bs := by
  rw [State.runDesc_ready h, hact]
  rfl

/-- One whose action keeps it waiting leaves what the action leaves. -/
theorem runDesc_waits {s t : State} {d : Desc} {act : State → DescRes} {st r : Nat} {bs : List Byte} (h : s.ready d = true)
    (hact : act s = ⟨t, st, r, bs, true⟩) : s.runDesc d true act = t := by
  rw [State.runDesc_ready h, hact]
  rfl

section
variable {s : State} {d : Desc} {walk : Nat} (h : s.ready d = true)
include h

theorem runDriver_notRole (hd : s.driverRing d = false) (act : State → DescRes) :
    s.runDriver d walk act = s.complete d stNOTROLE 0 [] := by
  rw [State.runDriver, hd, State.runDesc_role h]

theorem runDriver_beyond (hd : s.driverRing d = true) (hw : 15 < walk) (act : State → DescRes) :
    s.runDriver d walk act = s.complete d stINVALID 0 [] := by
  rw [State.runDriver, hd]
  exact runDesc_done h (if_pos hw)

/-- What the driver of a walk does with a descriptor of its own walk. -/
theorem runDriver_done {t : State} {act : State → DescRes} {st r : Nat} {bs : List Byte} (hd : s.driverRing d = true)
    (hw : walk = s.drvWalk) (hlt : walk < 16) (hact : act s = ⟨t, st, r, bs, false⟩) :
    s.runDriver d walk act = t.complete d st r bs := by
  rw [State.runDriver, hd]
  exact runDesc_done h (by rw [if_neg (by omega), if_pos hw, hact])

theorem runDriver_waits {t : State} {act : State → DescRes} {st r : Nat} {bs : List Byte} (hd : s.driverRing d = true)
    (hw : walk = s.drvWalk) (hlt : walk < 16) (hact : act s = ⟨t, st, r, bs, true⟩) : s.runDriver d walk act = t := by
  rw [State.runDriver, hd]
  exact runDesc_waits h (by rw [if_neg (by omega), if_pos hw, hact])

omit h in
/-- A walk whose Crossing the Chapter does not know is WALK_DOWN. -/
theorem forward_unknown (hx : s.xing? walk = none) : s.forward walk d = s.fail stWALKDOWN := by
  simp only [State.forward, hx]

omit h in
theorem drvWalk_chapter (hc : s.role = .chapter) : s.drvWalk = 0 := if_pos hc

theorem runDriver_unknown (hc : s.role = .chapter) (hd : s.driverRing d = true) (hpos : 0 < walk) (hlt : walk < 16)
    (hx : s.xing? walk = none) (act : State → DescRes) : s.runDriver d walk act = s.complete d stWALKDOWN 0 [] := by
  have hfar : walk ≠ s.drvWalk := by rw [drvWalk_chapter hc]; omega
  rw [State.runDriver, hd]
  exact runDesc_done h (by rw [if_neg (by omega), if_neg hfar, if_pos hc, forward_unknown hx]; rfl)

omit h in
/-- At the Chapter a descriptor of the Local ring is one of the driver's. -/
theorem runLocal_chapter (hc : s.role = .chapter) (act : State → DescRes) : s.runLocal d act = s.runDesc d (s.driverRing d) act := by
  simp only [State.runLocal, State.driverRing, hc, decide_true, Bool.true_and]
  cases d.path <;> rfl

theorem runLocal_done {t : State} {act : State → DescRes} {st r : Nat} {bs : List Byte} (hc : s.role = .chapter)
    (hd : s.driverRing d = true) (hact : act s = ⟨t, st, r, bs, false⟩) : s.runLocal d act = t.complete d st r bs := by
  rw [runLocal_chapter hc, hd, runDesc_done h hact]

theorem runLocal_waits {t : State} {act : State → DescRes} {st r : Nat} {bs : List Byte} (hc : s.role = .chapter)
    (hd : s.driverRing d = true) (hact : act s = ⟨t, st, r, bs, true⟩) : s.runLocal d act = t := by
  rw [runLocal_chapter hc, hd, runDesc_waits h hact]

end

end Sys2Proof.Proofs
end

section
/-! PROOF. The power of the driven walk (O42): a turn-off, a fresh book and a request to drive, and from them the driver's events and
descriptors (R23, R61, R148, R157, R158, R167, R171, R174, R175, R180). -/

namespace Sys2Proof.Proofs

open Sys2Proof Sys2Proof.Machine

/-! ### Drive off -/

/-- The walk is not driven, tested or searched any more, and 1 s without drive begins (R175). -/
def TurnedOff (s t : State) : Prop :=
  t.on fWDSTAT_ON = false ∧ t.on fWDSTAT_STARTING = false ∧ t.drv.testing = false ∧ t.drv.roll = none ∧
    t.on fLPSTAT_ROLLING = false ∧ t.drv.lastOff = some s.now ∧ s.besides t

/-- The fields a turn-off writes. -/
def offFields : List Fld := [fWDSTAT_ON, fWDSTAT_STARTING, fWDSTAT_LIMIT, fLPSTAT_ROLLING]

theorem driveOff_eq (s : State) : s.driveOff =
    ((s.sets [(fWDSTAT_ON, 0), (fWDSTAT_STARTING, 0), (fWDSTAT_LIMIT, 0)]).setFld fLPSTAT_ROLLING 0).setDrv (fun d => { d with
      roll := none, testing := false, lastOff := some s.now, dnOpen := false, babble := 0, stray := 0, slotsFor := [] }) := rfl

theorem fld_driveOff (s : State) (g : Fld) (h : offFields.all (fun f => f.other g) = true) : s.driveOff.fld g = s.fld g := by
  simp only [offFields, List.all_cons, List.all_nil, Bool.and_true, Bool.and_eq_true] at h
  obtain ⟨hon, hstart, hlimit, hroll⟩ := h
  rw [driveOff_eq, State.setDrv_fld, State.fld_setFld_other _ _ _ _ hroll, State.fld_sets_other]
  simp only [List.all_cons, List.all_nil, hon, hstart, hlimit, Bool.and_true]

theorem on_driveOff (s : State) (g : Fld) (h : offFields.all (fun f => f.other g) = true) : s.driveOff.on g = s.on g :=
  on_of_fld (fld_driveOff s g h)

theorem driveOff_turnedOff (s : State) : TurnedOff s s.driveOff := by
  have hstat (f : Fld) (h : fLPSTAT_ROLLING.other f = true) : s.driveOff.on f =
      (((s.setFld fWDSTAT_ON 0).setFld fWDSTAT_STARTING 0).setFld fWDSTAT_LIMIT 0).on f := by
    rw [driveOff_eq, State.setDrv_on, on_setFld_other _ _ _ _ h]
    rfl
  refine ⟨?on, ?starting, rfl, rfl, ?rolling, rfl, s.besides_refl⟩
  case on =>
    rw [hstat _ (by decide), on_setFld_other _ _ _ _ (by decide), on_setFld_other _ _ _ _ (by decide)]
    exact on_setFld_zero _ _ (by decide) (by decide)
  case starting =>
    rw [hstat _ (by decide), on_setFld_other _ _ _ _ (by decide)]
    exact on_setFld_zero _ _ (by decide) (by decide)
  case rolling =>
    rw [driveOff_eq, State.setDrv_on]
    exact on_setFld_zero _ _ (by decide) (by decide)

/-- A later write of a field apart from those of the turn-off leaves the walk turned off. -/
theorem TurnedOff.setFld {s t : State} (h : TurnedOff s t) (f : Fld) (v : Nat) (hf : offFields.all (fun g => f.other g) = true) :
    TurnedOff s (t.setFld f v) := by
  simp only [offFields, List.all_cons, List.all_nil, Bool.and_true, Bool.and_eq_true] at hf
  obtain ⟨fon, fstart, -, froll⟩ := hf
  obtain ⟨hon, hstart, htest, hroll, hrolling, hlast, hb⟩ := h
  exact ⟨(on_setFld_other t f _ v fon).trans hon, (on_setFld_other t f _ v fstart).trans hstart, htest, hroll,
    (on_setFld_other t f _ v froll).trans hrolling, hlast, hb⟩

theorem TurnedOff.event {s t u : State} (h : TurnedOff s t) (k : EventFrame t u) : TurnedOff s u := by
  obtain ⟨hon, hstart, htest, hroll, hrolling, hlast, hb⟩ := h
  exact ⟨(k.on _).trans hon, (k.on _).trans hstart, by rw [k.drv, htest], by rw [k.drv, hroll], (k.on _).trans hrolling,
    by rw [k.drv, hlast], State.besides_trans hb k.besides⟩

/-- A change of the driver's state beside what a turn-off sets leaves the walk turned off. -/
theorem TurnedOff.setDrv {s t : State} (h : TurnedOff s t) (g : Drv → Drv) (htest : (g t.drv).testing = t.drv.testing)
    (hroll : (g t.drv).roll = t.drv.roll) (hlast : (g t.drv).lastOff = t.drv.lastOff) : TurnedOff s (t.setDrv g) := by
  obtain ⟨hon, hstart, ht, hr, hrolling, hl, hb⟩ := h
  exact ⟨hon, hstart, htest.trans ht, hroll.trans hr, hrolling, hlast.trans hl, hb⟩

/-- A flag of WDFLAG lies apart from every field of another register. -/
theorem wdflag_other {f g : Fld} (hf : f.addr = rWDFLAG) (hg : g.addr ≠ rWDFLAG) : f.other g = true ∧ g.other f = true :=
  ⟨(other_iff f g).mpr (.inl (by rw [hf]; exact hg.symm)), (other_iff g f).mpr (.inl (by rw [hf]; exact hg))⟩

theorem wdflag_offFields {f : Fld} (hf : f.addr = rWDFLAG) : offFields.all (fun g => f.other g) = true :=
  have hne : ∀ g ∈ offFields, g.addr ≠ rWDFLAG := by decide
  List.all_eq_true.mpr (fun g hg => (wdflag_other hf (hne g hg)).1)

/-- A turn-off that a flag of WDFLAG reports and WDCNT.SHORTS counts (R174). -/
def countedOff (s : State) (f : Fld) : State := (s.driveOff.raise [f]).count fWDCNT_SHORTS

theorem countedOff_turnedOff (s : State) (f : Fld) (hf : f.addr = rWDFLAG) : TurnedOff s (countedOff s f) :=
  ((driveOff_turnedOff s).setFld f 1 (wdflag_offFields hf)).setFld fWDCNT_SHORTS _ (by decide)

theorem countedOff_flag (s : State) (f : Fld) (hf : f.addr = rWDFLAG) (hw : 0 < f.w) (hfit : f.lo + f.w ≤ 32) :
    (countedOff s f).on f = true :=
  (on_setFld_other _ fWDCNT_SHORTS f _ (wdflag_other hf (by decide)).2).trans (on_setFld_one s.driveOff f hw hfit)

theorem countedOff_shorts (s : State) (f : Fld) (hf : f.addr = rWDFLAG) :
    (countedOff s f).fld fWDCNT_SHORTS = satAdd (2 ^ fWDCNT_SHORTS.w - 1) (s.fld fWDCNT_SHORTS) 1 := by
  rw [countedOff, fld_count _ _ (by decide), State.raise_cons, State.raise_nil,
    State.fld_setFld_other _ _ _ _ (wdflag_other hf (by decide)).1, fld_driveOff _ _ (by decide)]

theorem countedOff_en (s : State) (f : Fld) (hf : f.addr = rWDFLAG) : (countedOff s f).fld fWDCTL_EN = s.fld fWDCTL_EN := by
  rw [countedOff, State.count, State.fld_setFld_other _ _ _ _ (by decide), State.raise_cons, State.raise_nil,
    State.fld_setFld_other _ _ _ _ (wdflag_other hf (by decide)).1, fld_driveOff _ _ (by decide)]

/-- The turn-offs of the last 60 s, this one among them. -/
def offsNow (s : State) : List Nat := s.now :: lastMinute s.now s.drv.offTimes

/-- What is kept of the turn-off for the next ones, and whether a restart follows. -/
def recordedOff (s : State) (f : Fld) : State :=
  (countedOff s f).setDrv (fun d => { d with
    offTimes := offsNow s, retryDue := s.on fWDCTL_RETRY && decide ((offsNow s).length < 4) })

theorem shortOff_eq (s : State) (f : Fld) : s.shortOff f =
    (if (offsNow s).length < 4 then recordedOff s f else (recordedOff s f).setFld fWDCTL_EN 0).walkEvent 0x0010 := by
  unfold State.shortOff recordedOff countedOff offsNow
  rfl

/-- What a turn-off for a short comes to (R174). -/
structure ShortOff (s : State) (f : Fld) (t : State) : Prop where
  off : TurnedOff s t
  flag : t.on f = true
  shorts : t.fld fWDCNT_SHORTS = satAdd (2 ^ fWDCNT_SHORTS.w - 1) (s.fld fWDCNT_SHORTS) 1
  retry : t.drv.retryDue = (s.on fWDCTL_RETRY && decide ((offsNow s).length < 4))
  en : t.fld fWDCTL_EN = if (offsNow s).length < 4 then s.fld fWDCTL_EN else 0

theorem shortOff_spec (s : State) (f : Fld) (hf : f.addr = rWDFLAG) (hw : 0 < f.w) (hfit : f.lo + f.w ≤ 32) :
    ShortOff s f (s.shortOff f) := by
  have hoff : TurnedOff s (recordedOff s f) := (countedOff_turnedOff s f hf).setDrv _ rfl rfl rfl
  have hflag : (recordedOff s f).on f = true := countedOff_flag s f hf hw hfit
  have hshorts := countedOff_shorts s f hf
  have hev := walkEvent_frame (if (offsNow s).length < 4 then recordedOff s f else (recordedOff s f).setFld fWDCTL_EN 0) 0x0010
  rw [← shortOff_eq] at hev
  by_cases hn : (offsNow s).length < 4
  case pos =>
    rw [if_pos hn] at hev
    refine ⟨hoff.event hev, (hev.on f).trans hflag, (fld_of_regs hev.regs _).trans hshorts, by rw [hev.drv]; rfl, ?_⟩
    rw [if_pos hn]
    exact (fld_of_regs hev.regs _).trans (countedOff_en s f hf)
  case neg =>
    rw [if_neg hn] at hev
    refine ⟨(hoff.setFld fWDCTL_EN 0 (by decide)).event hev, ?flag, ?shorts, by rw [hev.drv]; rfl, ?en⟩
    case flag => rw [hev.on, on_setFld_other _ _ _ _ (wdflag_other hf (by decide)).2, hflag]
    case shorts => rw [fld_of_regs hev.regs, State.fld_setFld_other _ _ _ _ (by decide)]; exact hshorts
    case en => rw [if_neg hn, fld_of_regs hev.regs, State.fld_setFld _ _ _ (by decide), Nat.zero_mod]

/-- With nothing turned off before, one turn-off is the first of 60 s. -/
theorem offsNow_first (s : State) (h : s.drv.offTimes = []) : (offsNow s).length < 4 := by
  simp [offsNow, h, lastMinute]

/-- Three turn-offs at this very time make it the fourth of 60 s. -/
theorem offsNow_fourth (s : State) (h : s.drv.offTimes = [s.now, s.now, s.now]) : ¬ (offsNow s).length < 4 := by
  simp [offsNow, h, lastMinute]

/-! ### The descriptor that waits for the contest test -/

theorem powerDone_none (s : State) (status : Nat) (h : s.drv.powerDesc = none) : s.powerDone status = s := by
  simp only [State.powerDone, h]

theorem powerDone_some (s : State) (d : Desc) (status : Nat) (h : s.drv.powerDesc = some d) :
    s.powerDone status = (s.setDrv (fun x => { x with powerDesc := none })).complete d status 0 [] := by
  simp only [State.powerDone, h]

/-! ### The driver's events -/

/-- `same` of the statement: the fields of a list read what they read. -/
def sameFields (s t : State) (l : List Fld) : Prop := l.all (fun f => t.fld f = s.fld f) = true

theorem sameFields_of {s t : State} {l : List Fld} (h : ∀ f ∈ l, t.fld f = s.fld f) : sameFields s t l := by
  simpa only [sameFields, List.all_eq_true, decide_eq_true_eq] using h

/-- The contest test reports the walk (R23): the state before the report, and the report's frame. -/
theorem contestTestEnd_reported (s : State) (h : s.drv.testing = true) : ∃ t,
    EventFrame (((s.setDrv (fun d => { d with testing := false })).setFld fROLESTAT_CONTESTED 1).setFld fWDFLAG_CONTEST 1) t ∧
      exec (.contestTestEnd true) s = .next (t.powerDone stCONTESTED) := by
  refine ⟨_, walkEvent_frame _ 0x0014, ?_⟩
  show execContestTestEnd true s = _
  simp only [execContestTestEnd, h, Bool.not_true, Bool.false_eq_true, if_false, if_true]
  rfl

theorem contestTestEnd_contested (s : State) (h : s.drv.testing = true) (hp : s.drv.powerDesc = none) : ∃ t,
    exec (.contestTestEnd true) s = .next t ∧ t.on fROLESTAT_CONTESTED = true ∧ t.on fWDFLAG_CONTEST = true ∧
      t.drv.testing = false ∧ sameFields s t [fWDSTAT_STARTING, fWDSTAT_ON] ∧ s.besides t := by
  obtain ⟨t, ht, he⟩ := contestTestEnd_reported s h
  have hpd : t.drv.powerDesc = none := by rw [ht.drv]; exact hp
  refine ⟨t, by rw [he, powerDone_none t _ hpd], ?contested, ?flag, by rw [ht.drv]; rfl, sameFields_of ?same, ht.besides⟩
  case contested =>
    exact (ht.on _).trans ((on_setFld_other _ _ _ _ (by decide)).trans (on_setFld_one _ _ (by decide) (by decide)))
  case flag => exact (ht.on _).trans (on_setFld_one _ _ (by decide) (by decide))
  case same =>
    intro f hf
    have apart : ∀ f ∈ [fWDSTAT_STARTING, fWDSTAT_ON], fWDFLAG_CONTEST.other f = true ∧ fROLESTAT_CONTESTED.other f = true := by
      decide
    rw [fld_of_regs ht.regs, State.fld_setFld_other _ _ _ _ (apart f hf).1, State.fld_setFld_other _ _ _ _ (apart f hf).2,
      State.setDrv_fld]

theorem contestTestEnd_contested_waiting (s : State) (d : Desc) (h : s.drv.testing = true) (hp : s.drv.powerDesc = some d) : ∃ t,
    exec (.contestTestEnd true) s = .next (t.complete d stCONTESTED 0 []) ∧ t.drv.powerDesc = none ∧ t.drv.testing = false ∧
      t.on fROLESTAT_CONTESTED = true ∧ s.besides t := by
  obtain ⟨t, ht, he⟩ := contestTestEnd_reported s h
  have hpd : t.drv.powerDesc = some d := by rw [ht.drv]; exact hp
  refine ⟨t.setDrv (fun x => { x with powerDesc := none }), by rw [he, powerDone_some t d _ hpd], rfl, ?testing, ?contested, ht.besides⟩
  case testing => rw [State.setDrv_drv, ht.drv]; rfl
  case contested =>
    exact (ht.on _).trans ((on_setFld_other _ _ _ _ (by decide)).trans (on_setFld_one _ _ (by decide) (by decide)))

theorem contestTestEnd_idle (s : State) (b : Bool) (h : s.drv.testing = false) : exec (.contestTestEnd b) s = .next s := by
  show execContestTestEnd b s = _
  simp only [execContestTestEnd, h, Bool.not_false, if_true]

theorem contestTestEnd_clear (s : State) (h : s.drv.testing = true) (hp : s.drv.powerDesc = none) :
    exec (.contestTestEnd false) s = .next ((s.setDrv (fun d => { d with testing := false })).setFld fWDSTAT_STARTING 1) := by
  show execContestTestEnd false s = _
  simp only [execContestTestEnd, h, Bool.not_true, Bool.false_eq_true, if_false]
  refine congrArg Host.Outcome.next (powerDone_none _ _ ?_)
  exact hp

/-- The driver's state with a book in which nothing is granted or in quarantine (R156). -/
def freshBook (d : Drv) : Drv :=
  { d with
    granted := 0, quar := [], freed := 0, reqs := [], tokDue := []
    noGrant := false, stray := 0, strayOk := 0
    enr := d.enr.map (fun (e : Enr) => { e with held := 0, wanted := none, silent := 0, badSlots := 0, missed := 0 })
    xings := d.xings.map (fun (x : Xing) => { x with silent := 0, badSlots := 0 }) }

theorem bookFresh_noticed (s : State) : ∃ t, EventFrame (s.setDrv freshBook) t ∧ s.bookFresh = noticed (s.setDrv freshBook) t :=
  bookSync_idle (s.setDrv freshBook) (by simp [freshBook])

theorem freshBook_enr (d : Drv) : (freshBook d).enr.all (fun e => e.held = 0) = true ∧
    (freshBook d).enr.map (fun e => e.uid) = d.enr.map (fun e => e.uid) := by
  simp [freshBook, Function.comp_def]

theorem walkDriveOn_starting (s : State) (h : s.on fWDSTAT_STARTING = true) : ∃ t, exec .walkDriveOn s = .next t ∧
    t.on fWDSTAT_ON = true ∧ t.on fWDSTAT_STARTING = false ∧ t.on fROLESTAT_CONTESTED = false ∧ t.drv.granted = 0 ∧
    t.drv.quar = [] ∧ t.drv.enr.all (fun e => e.held = 0) = true ∧ t.drv.enr.map (fun e => e.uid) = s.drv.enr.map (fun e => e.uid) ∧ s.besides t := by
  let w := ((s.setFld fWDSTAT_STARTING 0).setFld fWDSTAT_ON 1).setFld fROLESTAT_CONTESTED 0
  obtain ⟨t, ht, he⟩ := bookFresh_noticed w
  have hrun : exec .walkDriveOn s = .next w.bookFresh := by
    show execWalkDriveOn s = _
    rw [execWalkDriveOn, if_pos h]
    rfl
  have hon (f : Fld) (hf : fBOOKFLAG_DEFICIT.other f = true) : w.bookFresh.on f = w.on f := by
    rw [he, noticed, on_setFld_other _ _ _ _ hf, State.setDrv_on, ht.on, State.setDrv_on]
  have hdrv : w.bookFresh.drv.granted = 0 ∧ w.bookFresh.drv.quar = [] ∧ w.bookFresh.drv.enr = (freshBook s.drv).enr := by
    rw [he, noticed, State.setFld_drv, State.setDrv_drv, ht.drv]
    exact ⟨rfl, rfl, rfl⟩
  obtain ⟨hgranted, hquar, henr⟩ := hdrv
  refine ⟨w.bookFresh, hrun, ?on, ?starting, ?contested, hgranted, hquar, ?held, ?uid, by rw [he]; exact ht.besides⟩
  case on =>
    rw [hon _ (by decide), on_setFld_other _ _ _ _ (by decide)]
    exact on_setFld_one _ _ (by decide) (by decide)
  case starting =>
    rw [hon _ (by decide), on_setFld_other _ _ _ _ (by decide), on_setFld_other _ _ _ _ (by decide)]
    exact on_setFld_zero _ _ (by decide) (by decide)
  case contested =>
    rw [hon _ (by decide)]
    exact on_setFld_zero _ _ (by decide) (by decide)
  case held => rw [henr]; exact (freshBook_enr s.drv).1
  case uid => rw [henr]; exact (freshBook_enr s.drv).2

theorem walkStart_idle (s : State) (h : s.on fWDSTAT_STARTING = false) :
    exec .walkDriveOn s = .next s ∧ exec .walkStartfail s = .next s := by
  refine ⟨?on, ?fail⟩
  case on => show execWalkDriveOn s = _; simp [execWalkDriveOn, h]
  case fail => show execWalkStartfail s = _; simp [execWalkStartfail, h]

theorem walkStartfail_starting (s : State) (h : s.on fWDSTAT_STARTING = true) : ∃ t, exec .walkStartfail s = .next t ∧ TurnedOff s t ∧
    t.on fWDFLAG_STARTFAIL = true ∧ t.fld fWDCNT_SHORTS = satAdd (2 ^ fWDCNT_SHORTS.w - 1) (s.fld fWDCNT_SHORTS) 1 ∧
    t.drv.retryDue = s.drv.retryDue := by
  have hev := walkEvent_frame (countedOff s fWDFLAG_STARTFAIL) 0x0011
  refine ⟨(countedOff s fWDFLAG_STARTFAIL).walkEvent 0x0011, ?run, (countedOff_turnedOff s _ rfl).event hev,
    (hev.on _).trans (countedOff_flag s _ rfl (by decide) (by decide)), (fld_of_regs hev.regs _).trans (countedOff_shorts s _ rfl),
    by rw [hev.drv]; rfl⟩
  show execWalkStartfail s = _
  rw [execWalkStartfail, if_pos h]
  rfl

/-- A short and a hard trip turn off a drive that is on (R174). -/
theorem walkShort_on (s : State) (h : s.on fWDSTAT_ON = true) : exec .walkShort s = .next (s.shortOff fWDFLAG_SHORT) := by
  show execWalkShort s = _
  simp [execWalkShort, h]

theorem hardtrip_on (s : State) (h : s.on fWDSTAT_ON = true) : exec .hardtrip s = .next (s.shortOff fWDFLAG_HARDTRIP) := by
  show execHardtrip s = _
  simp [execHardtrip, h]

theorem short_idle (s : State) (h : s.on fWDSTAT_ON = false) (h' : s.on fWDSTAT_STARTING = false) :
    exec .walkShort s = .next s ∧ exec .hardtrip s = .next s := by
  refine ⟨?short, ?trip⟩
  case short => show execWalkShort s = _; simp [execWalkShort, h, h']
  case trip => show execHardtrip s = _; simp [execHardtrip, h, h']

theorem walkRetry_due (s : State) (hd : s.drv.retryDue = true) (he : s.on fWDCTL_EN = true) (hw : s.on fWDSTAT_WSUPOK = true)
    (ho : s.drv.ovWsup = false) (hl : s.offLongEnough = true) :
    exec .walkRetry s = .next { s with drv := { s.drv with retryDue := false, testing := true } } := by
  show execWalkRetry s = _
  rw [execWalkRetry, if_pos (by simp [hd, he, hw, ho, hl])]
  rfl

theorem walkRetry_early (s : State) (hl : s.offLongEnough = false) : exec .walkRetry s = .next s := by
  show execWalkRetry s = _
  simp [execWalkRetry, hl]

theorem wsupQualified_drive (s : State) (hd : s.hasDrive = true) : exec .wsupQualified s = .next (s.setFld fWDSTAT_WSUPOK 1) := by
  show execWsupQualified s = _
  simp [execWsupQualified, hd]

theorem wsupLost_busy (s : State) (hd : s.hasDrive = true) (hw : s.on fWDSTAT_WSUPOK = true) (hb : s.driveBusy = true)
    (hp : s.drv.powerDesc = none) : ∃ t, exec .wsupLost s = .next t ∧ TurnedOff s t ∧ t.on fWDSTAT_WSUPOK = false ∧
      t.on fWDFLAG_WSUPLOW = true ∧ sameFields s t [fWDCTL_EN] := by
  let u := (s.setFld fWDSTAT_WSUPOK 0).setFld fWDFLAG_WSUPLOW 1
  have hrun : exec .wsupLost s = .next u.driveOff := by
    show execWsupLost s = _
    simp only [execWsupLost, hd, hw, hb, Bool.and_self, if_true, State.raise_cons, State.raise_nil]
    exact congrArg Host.Outcome.next (powerDone_none u.driveOff _ hp)
  refine ⟨u.driveOff, hrun, driveOff_turnedOff u, ?wsupok, ?flag, sameFields_of ?same⟩
  case wsupok =>
    rw [on_driveOff _ _ (by decide), on_setFld_other _ _ _ _ (by decide)]
    exact on_setFld_zero _ _ (by decide) (by decide)
  case flag =>
    rw [on_driveOff _ _ (by decide)]
    exact on_setFld_one _ _ (by decide) (by decide)
  case same =>
    intro f hf
    obtain rfl := List.mem_singleton.mp hf
    rw [fld_driveOff _ _ (by decide), State.fld_setFld_other _ _ _ _ (by decide), State.fld_setFld_other _ _ _ _ (by decide)]

theorem wsupLost_idle (s : State) (hw : s.on fWDSTAT_WSUPOK = false) : exec .wsupLost s = .next s := by
  show execWsupLost s = _
  simp [execWsupLost, hw]

theorem wsupOvervoltage_busy (s : State) (hd : s.hasDrive = true) (hb : s.driveBusy = true) (hp : s.drv.powerDesc = none) : ∃ t,
    exec .wsupOvervoltage s = .next t ∧ TurnedOff s t ∧ t.on fWDFLAG_WSUPOV = true ∧ t.drv.ovWsup = true ∧
      sameFields s t [fWDCTL_EN, fWDSTAT_WSUPOK] := by
  let u := (s.setFld fWDFLAG_WSUPOV 1).setDrv (fun d => { d with ovWsup := true })
  have hrun : exec .wsupOvervoltage s = .next u.driveOff := by
    show execWsupOvervoltage s = _
    simp only [execWsupOvervoltage, hd, hb, if_true, State.raise_cons, State.raise_nil]
    exact congrArg Host.Outcome.next (powerDone_none u.driveOff _ hp)
  refine ⟨u.driveOff, hrun, driveOff_turnedOff u, ?flag, rfl, sameFields_of ?same⟩
  case flag =>
    rw [on_driveOff _ _ (by decide), State.setDrv_on]
    exact on_setFld_one _ _ (by decide) (by decide)
  case same =>
    intro f hf
    have apart : ∀ f ∈ [fWDCTL_EN, fWDSTAT_WSUPOK], offFields.all (fun g => g.other f) = true ∧ fWDFLAG_WSUPOV.other f = true := by
      decide
    rw [fld_driveOff _ _ (apart f hf).1, State.setDrv_fld, State.fld_setFld_other _ _ _ _ (apart f hf).2]

/-- A request to drive that nothing stands in the way of starts the contest test (R171). -/
theorem driveReq_starts (s : State) (hw : s.on fWDSTAT_WSUPOK = true) (ho : s.drv.ovWsup = false) (hb : s.driveBusy = false)
    (hl : s.offLongEnough = true) (hx : s.role = .chapter ∨ s.drvWalk ≠ 0) :
    s.driveReq = (true, (s.setFld fWDCTL_EN 1).setDrv (fun d => { d with testing := true, retryDue := false })) := by
  have hnx : (decide (s.role = .crossing) && decide (s.drvWalk = 0)) = false := by
    rcases hx with hx | hx <;> simp [hx]
  simp [State.driveReq, hw, ho, hb, hl, hnx]

theorem wsupOvRecover_resumes (s : State) (ho : s.drv.ovWsup = true) (he : s.on fWDCTL_EN = true) (hw : s.on fWDSTAT_WSUPOK = true)
    (hb : s.driveBusy = false) (hl : s.offLongEnough = true) (hx : s.role = .chapter ∨ s.drvWalk ≠ 0) : ∃ t,
    exec .wsupOvRecover s = .next t ∧ t.drv.ovWsup = false ∧ t.drv.testing = true ∧ s.besidesAll { t with drv := s.drv } := by
  have hreq := driveReq_starts (s.setDrv (fun d => { d with ovWsup := false })) hw rfl hb hl hx
  refine ⟨((s.setDrv (fun d => { d with ovWsup := false })).setFld fWDCTL_EN 1).setDrv
    (fun d => { d with testing := true, retryDue := false }), ?run, rfl, rfl, s.besidesAll_setFld fWDCTL_EN 1⟩
  show execWsupOvRecover s = _
  simp only [execWsupOvRecover, ho, he, hw, Bool.and_self, if_true, hreq]

theorem wsupOvRecover_idle (s : State) (ho : s.drv.ovWsup = false) : exec .wsupOvRecover s = .next s := by
  show execWsupOvRecover s = _
  simp [execWsupOvRecover, ho]

theorem rateChangeApply_drive (s : State) (hd : s.hasDrive = true) :
    exec .rateChangeApply s = .next (s.setFld fWDSTAT_RATENOW (s.fld fWDCTL_RATE)) := by
  show execRateChangeApply s = _
  simp [execRateChangeApply, hd]

theorem plainWrite_besidesAll (s : State) (a : Nat) (v : Word) : s.besidesAll (s.plainWrite a v) := by
  unfold State.plainWrite
  split
  · exact s.besidesAll_refl
  · exact s.besidesAll_setReg _ _

theorem parstatClr_cleared (s : State) : ∃ t, exec .parstatClr s = .next t ∧ t.fld fPARSTAT_CNT = 0 ∧ t.fld fPARADDR_ADDR = 0 ∧
    s.besidesAll t := by
  let w := s.plainWrite rPARSTAT 0x80
  refine ⟨w.sets [(fPARSTAT_CNT, 0), (fPARADDR_ADDR, 0)], ?run, ?cnt, ?addr,
    State.besidesAll_trans (plainWrite_besidesAll s _ _) (w.besidesAll_sets _)⟩
  case run => rfl
  case cnt =>
    rw [State.sets_cons, State.sets_cons, State.sets_nil, State.fld_setFld_other _ _ _ _ (by decide), State.fld_setFld _ _ _ (by decide),
      Nat.zero_mod]
  case addr => rw [State.sets_cons, State.sets_cons, State.sets_nil, State.fld_setFld _ _ _ (by decide), Nat.zero_mod]

theorem quarantineEnd_due (s : State) (n p : Nat) (hq : s.drv.quar = [(n, 0, p)]) (hr : s.drv.reqs = []) : ∃ t,
    exec .quarantineEnd s = .next t ∧ t.drv.quar = [] ∧ t.drv.granted = s.drv.granted ∧ t.drv.enr = s.drv.enr ∧ s.besides t := by
  let u := s.setDrv (fun d => { d with quar := d.quar.filter (fun p => p.2.1 != 0) })
  obtain ⟨t, ht, he⟩ := bookSync_idle u (by simp [u, hr])
  refine ⟨noticed u t, ?run, ?quar, ?granted, ?enr, ht.besides⟩
  case run =>
    show execQuarantineEnd s = _
    simp only [execQuarantineEnd, hq, List.any_cons, decide_true, Bool.true_or, if_true]
    exact congrArg Host.Outcome.next he
  case quar => rw [noticed, State.setFld_drv, State.setDrv_drv, ht.drv]; simp [u, hq]
  case granted => rw [noticed, State.setFld_drv, State.setDrv_drv, ht.drv]; rfl
  case enr => rw [noticed, State.setFld_drv, State.setDrv_drv, ht.drv]; rfl

theorem quarantineEnd_early (s : State) (n k p : Nat) (hq : s.drv.quar = [(n, k + 1, p)]) : exec .quarantineEnd s = .next s := by
  show execQuarantineEnd s = _
  simp [execQuarantineEnd, hq]

end Sys2Proof.Proofs
end

section
/-! PROOF. The descriptors of the driven walk (R158, R180), and O42. -/

namespace Sys2Proof.Proofs

open Sys2Proof Sys2Proof.Machine

/-! ### WALK_POWER -/

/-- The settings a WALK_POWER makes before it asks for the drive or turns it off. -/
def powerSet (s : State) (ilim : Nat) (retry babcut : Bool) : State :=
  s.sets [(fWDCTL_ILIM, ilim), (fWDCTL_RETRY, b2n retry), (fWDCTL_BABCUT, b2n babcut)]

theorem powerSet_eq (s : State) (ilim : Nat) (retry babcut : Bool) : powerSet s ilim retry babcut =
    ((s.setFld fWDCTL_ILIM ilim).setFld fWDCTL_RETRY (b2n retry)).setFld fWDCTL_BABCUT (b2n babcut) := rfl

theorem fld_powerSet (s : State) (ilim : Nat) (retry babcut : Bool) (g : Fld)
    (h : [fWDCTL_ILIM, fWDCTL_RETRY, fWDCTL_BABCUT].all (fun f => f.other g) = true) :
    (powerSet s ilim retry babcut).fld g = s.fld g := by
  simp only [List.all_cons, List.all_nil, Bool.and_true] at h
  refine State.fld_sets_other _ _ _ ?_
  simpa only [List.all_cons, List.all_nil, Bool.and_true] using h

theorem powerSet_ilim (s : State) (ilim : Nat) (retry babcut : Bool) (h : ilim ≤ 32) :
    (powerSet s ilim retry babcut).fld fWDCTL_ILIM = ilim := by
  rw [powerSet_eq, State.fld_setFld_other _ _ _ _ (by decide),
    State.fld_setFld_other _ _ _ _ (by decide), State.fld_setFld _ _ _ (by decide)]
  exact Nat.mod_eq_of_lt (lt_of_le_of_lt h (by decide))

theorem powerSet_retry (s : State) (ilim : Nat) (retry babcut : Bool) : (powerSet s ilim retry babcut).on fWDCTL_RETRY = retry := by
  rw [powerSet_eq, on_setFld_other _ _ _ _ (by decide)]
  exact on_setFld_b2n _ _ _ (by decide) (by decide)

theorem powerSet_babcut (s : State) (ilim : Nat) (retry babcut : Bool) : (powerSet s ilim retry babcut).on fWDCTL_BABCUT = babcut := by
  rw [powerSet_eq]
  exact on_setFld_b2n _ _ _ (by decide) (by decide)

theorem fld_bookSync (s : State) (g : Fld) (h : fBOOKFLAG_DEFICIT.other g = true) : s.bookSync.fld g = s.fld g := by
  obtain ⟨v, hv⟩ := bookSync_frame s
  rw [fld_of_regs hv.regs, State.fld_setFld_other _ _ _ _ h]

/-- What a change of the book leaves of the drive. -/
theorem bookSync_drive (s : State) : s.bookSync.clk = s.clk ∧ s.bookSync.drv.testing = s.drv.testing ∧
    s.bookSync.drv.powerDesc = s.drv.powerDesc ∧ s.bookSync.drv.ovWsup = s.drv.ovWsup ∧ s.bookSync.drv.lastOff = s.drv.lastOff ∧
    s.besides s.bookSync := by
  obtain ⟨v, hv⟩ := bookSync_frame s
  exact ⟨hv.clk, hv.testing, hv.powerDesc, hv.ovWsup, hv.lastOff, hv.besides⟩

theorem setDrv_besides (s : State) (g : Drv → Drv) : s.besides (s.setDrv g) := ⟨rfl, rfl, rfl, rfl, rfl, rfl⟩

theorem powerSet_bookSync_besides (s : State) (ilim : Nat) (retry babcut : Bool) :
    s.besides (powerSet s ilim retry babcut).bookSync :=
  have ⟨_, _, _, _, _, hbes⟩ := bookSync_drive (powerSet s ilim retry babcut)
  State.besides_trans (s.besidesAll_sets _).1 hbes

theorem driveBusy_congr {s t : State} (hon : t.on fWDSTAT_ON = s.on fWDSTAT_ON) (hst : t.on fWDSTAT_STARTING = s.on fWDSTAT_STARTING)
    (ht : t.drv.testing = s.drv.testing) : t.driveBusy = s.driveBusy := by
  simp only [State.driveBusy, hon, hst, ht]

theorem offLongEnough_congr {s t : State} (hc : t.clk = s.clk) (hl : t.drv.lastOff = s.drv.lastOff) :
    t.offLongEnough = s.offLongEnough := by
  rw [State.offLongEnough, State.offLongEnough, State.now, State.now, hc, hl]

theorem drvWalk_congr {s t : State} (hr : t.role = s.role) (ha : t.fld fLINEADDR_ROLEADDR = s.fld fLINEADDR_ROLEADDR) :
    t.drvWalk = s.drvWalk := by
  simp only [State.drvWalk, hr, ha]

/-- EN goes to 0 with no WALK_POWER waiting: the walk is not driven (R175). -/
theorem driveStop_stopped (s : State) (hp : s.drv.powerDesc = none) : s.driveStop.on fWDCTL_EN = false ∧
    s.driveStop.on fWDSTAT_ON = false ∧ s.driveStop.on fWDSTAT_STARTING = false ∧ s.driveStop.drv.testing = false ∧
    s.besides s.driveStop := by
  let u := (s.setFld fWDCTL_EN 0).setDrv (fun d => { d with retryDue := false })
  have hen : u.on fWDCTL_EN = false := on_setFld_zero _ _ (by decide) (by decide)
  have he : s.driveStop = if s.driveBusy then u.driveOff else u := by
    refine powerDone_none (if s.driveBusy then u.driveOff else u) stOK ?_
    split <;> exact hp
  rw [he]
  by_cases hb : s.driveBusy = true
  case pos =>
    rw [if_pos hb]
    obtain ⟨hon, hst, ht, -, -, -, hbes⟩ := driveOff_turnedOff u
    exact ⟨(on_driveOff u fWDCTL_EN (by decide)).trans hen, hon, hst, ht, hbes⟩
  case neg =>
    rw [if_neg hb]
    simp only [State.driveBusy, Bool.or_eq_true, not_or, Bool.not_eq_true] at hb
    obtain ⟨⟨hon, hst⟩, ht⟩ := hb
    have hkept (f : Fld) (hf : fWDCTL_EN.other f = true) : u.on f = s.on f := on_setFld_other s fWDCTL_EN f 0 hf
    exact ⟨hen, (hkept fWDSTAT_ON (by decide)).trans hon, (hkept fWDSTAT_STARTING (by decide)).trans hst, ht, s.besides_refl⟩

/-- What WALK_POWER answers to a request to drive: it waits for the contest test when that is to come. -/
def asked (d : Desc) (r : Bool × State) : DescRes :=
  if r.1 then ⟨r.2.setDrv (fun x => { x with powerDesc := some d }), stOK, 0, [], true⟩ else r.2.ok

theorem walkPower_on (s : State) (d : Desc) {ilim : Nat} (retry babcut : Bool) (hi : 4 ≤ ilim ∧ ilim ≤ 32)
    (hs : s.on fWDSTAT_WSUPOK = true) (ho : s.drv.ovWsup = false) :
    s.walkPower d true ilim retry babcut = asked d (powerSet s ilim retry babcut).bookSync.driveReq := by
  rw [State.walkPower, if_neg (by simp; omega), if_neg (by simp [hs, ho])]
  rfl

theorem walkPower_false (s : State) (d : Desc) {ilim : Nat} (retry babcut : Bool) (hi : 4 ≤ ilim ∧ ilim ≤ 32) :
    s.walkPower d false ilim retry babcut = (if (powerSet s ilim retry babcut).bookSync.on fWDCTL_EN
      then (powerSet s ilim retry babcut).bookSync.driveStop else (powerSet s ilim retry babcut).bookSync).ok := by
  rw [State.walkPower, if_neg (by simp; omega), if_neg (by simp)]
  rfl

/-- With its settings made, a request that nothing stands in the way of starts the contest test. -/
theorem driveReq_settings (s : State) (ilim : Nat) (retry babcut : Bool) (hs : s.on fWDSTAT_WSUPOK = true) (ho : s.drv.ovWsup = false)
    (hb : s.driveBusy = false) (hl : s.offLongEnough = true) (hx : s.role = .chapter ∨ s.drvWalk ≠ 0) :
    (powerSet s ilim retry babcut).bookSync.driveReq =
      (true, ((powerSet s ilim retry babcut).bookSync.setFld fWDCTL_EN 1).setDrv
        (fun d => { d with testing := true, retryDue := false })) := by
  obtain ⟨hclk, htest, -, hov, hlast, hbes⟩ := bookSync_drive (powerSet s ilim retry babcut)
  have hkept (f : Fld) (hdef : fBOOKFLAG_DEFICIT.other f = true)
      (hset : [fWDCTL_ILIM, fWDCTL_RETRY, fWDCTL_BABCUT].all (fun g => g.other f) = true) :
      (powerSet s ilim retry babcut).bookSync.fld f = s.fld f := by
    rw [fld_bookSync _ _ hdef, fld_powerSet _ _ _ _ _ hset]
  have hrole : (powerSet s ilim retry babcut).bookSync.role = s.role := hbes.1
  have hwalk := drvWalk_congr hrole (hkept fLINEADDR_ROLEADDR (by decide) (by decide))
  refine driveReq_starts _ ?supply (hov.trans ho) ?busy ((offLongEnough_congr hclk hlast).trans hl) (by rw [hrole, hwalk]; exact hx)
  case supply => rw [on_of_fld (hkept fWDSTAT_WSUPOK (by decide) (by decide)), hs]
  case busy =>
    rw [driveBusy_congr (on_of_fld (hkept fWDSTAT_ON (by decide) (by decide)))
      (on_of_fld (hkept fWDSTAT_STARTING (by decide) (by decide))) htest, hb]

/-- The state in which a WALK_POWER waits for the contest test. -/
def contestAsked (s : State) (d : Desc) (ilim : Nat) (retry babcut : Bool) : State :=
  (((powerSet s ilim retry babcut).bookSync.setFld fWDCTL_EN 1).setDrv (fun x => { x with testing := true, retryDue := false })).setDrv
    (fun x => { x with powerDesc := some d })

section
variable {s : State} {d : Desc} {walk ilim : Nat} {retry babcut : Bool} (h : s.ready d = true)
include h

theorem walkPower_notRole (en : Bool) (hd : s.driverRing d = false) :
    exec (.walkPower d walk en ilim retry babcut) s = .next (s.complete d stNOTROLE 0 []) := by
  show execWalkPower d walk en ilim retry babcut s = _
  rw [execWalkPower, if_neg (by simp [hd]), runDriver_notRole h hd]

theorem walkPower_limit (en : Bool) (hd : s.driverRing d = true) (hw : walk = s.drvWalk) (hlt : walk < 16)
    (hi : ilim < 4 ∨ 32 < ilim) : exec (.walkPower d walk en ilim retry babcut) s = .next (s.complete d stINVALID 0 []) := by
  show execWalkPower d walk en ilim retry babcut s = _
  have hbad : (decide (ilim < 4) || decide (32 < ilim)) = true := by simpa using hi
  unfold execWalkPower
  split
  · exact congrArg Host.Outcome.next (runDesc_done h rfl)
  · exact congrArg Host.Outcome.next (runDriver_done h hd hw hlt (if_pos hbad))

omit h in
/-- With a limit in range WALK_POWER goes to the driver of its walk. -/
theorem walkPower_run (en : Bool) (hi : 4 ≤ ilim ∧ ilim ≤ 32) : exec (.walkPower d walk en ilim retry babcut) s =
    .next (s.runDriver d walk (fun t => t.walkPower d en ilim retry babcut)) := by
  show execWalkPower d walk en ilim retry babcut s = _
  have hgood : (decide (ilim < 4) || decide (32 < ilim)) = false := by simp; omega
  rw [execWalkPower, if_neg (by simp [hgood])]

theorem walkPower_supplyLow (hd : s.driverRing d = true) (hw : walk = s.drvWalk) (hlt : walk < 16) (hi : 4 ≤ ilim ∧ ilim ≤ 32)
    (hs : s.on fWDSTAT_WSUPOK = false) : exec (.walkPower d walk true ilim retry babcut) s =
      .next ((s.raise [fWDFLAG_REFUSED]).complete d stSUPPLYLOW 0 []) := by
  rw [walkPower_run true hi]
  refine congrArg Host.Outcome.next (runDriver_done h hd hw hlt ?_)
  rw [State.walkPower, if_neg (by simp; omega), if_pos (by simp [hs])]
  rfl

theorem walkPower_asks (hd : s.driverRing d = true) (hw : walk = s.drvWalk) (hlt : walk < 16) (hi : 4 ≤ ilim ∧ ilim ≤ 32)
    (hs : s.on fWDSTAT_WSUPOK = true) (ho : s.drv.ovWsup = false) (hb : s.driveBusy = false) (hl : s.offLongEnough = true)
    (hx : s.role = .chapter ∨ s.drvWalk ≠ 0) : ∃ t, exec (.walkPower d walk true ilim retry babcut) s = .next t ∧
      t.drv.testing = true ∧ t.drv.powerDesc = some d ∧ t.on fWDCTL_EN = true ∧ t.fld fWDCTL_ILIM = ilim ∧
      t.on fWDCTL_RETRY = retry ∧ t.on fWDCTL_BABCUT = babcut ∧ s.besides t := by
  have hreq := driveReq_settings s ilim retry babcut hs ho hb hl hx
  have hact : s.walkPower d true ilim retry babcut = ⟨contestAsked s d ilim retry babcut, stOK, 0, [], true⟩ := by
    rw [walkPower_on s d retry babcut hi hs ho]
    exact congrArg (asked d) hreq
  have hset (f : Fld) (hf : fBOOKFLAG_DEFICIT.other f = true) (hen : fWDCTL_EN.other f = true) :
      (contestAsked s d ilim retry babcut).fld f = (powerSet s ilim retry babcut).fld f := by
    rw [contestAsked, State.setDrv_fld, State.setDrv_fld, State.fld_setFld_other _ _ _ _ hen, fld_bookSync _ _ hf]
  have hon : (contestAsked s d ilim retry babcut).on fWDCTL_EN = true := by
    rw [contestAsked, State.setDrv_on, State.setDrv_on]
    exact on_setFld_one _ _ (by decide) (by decide)
  have hbes : s.besides (contestAsked s d ilim retry babcut) :=
    State.besides_trans (powerSet_bookSync_besides s ilim retry babcut)
      (State.besides_trans (State.besidesAll_setFld _ fWDCTL_EN 1).1 (State.besides_trans (setDrv_besides _ _) (setDrv_besides _ _)))
  refine ⟨contestAsked s d ilim retry babcut, ?exec, rfl, rfl, hon, ?limit, ?again, ?cut, hbes⟩
  case exec => rw [walkPower_run true hi, runDriver_waits h hd hw hlt hact]
  case limit => rw [hset fWDCTL_ILIM (by decide) (by decide), powerSet_ilim s ilim _ _ hi.2]
  case again => rw [on_of_fld (hset fWDCTL_RETRY (by decide) (by decide)), powerSet_retry]
  case cut => rw [on_of_fld (hset fWDCTL_BABCUT (by decide) (by decide)), powerSet_babcut]

theorem walkPower_off (hd : s.driverRing d = true) (hw : walk = s.drvWalk) (hlt : walk < 16) (hi : 4 ≤ ilim ∧ ilim ≤ 32)
    (he : s.on fWDCTL_EN = true) (hp : s.drv.powerDesc = none) : ∃ t,
      exec (.walkPower d walk false ilim retry babcut) s = .next (t.complete d stOK 0 []) ∧ t.on fWDCTL_EN = false ∧
      t.on fWDSTAT_ON = false ∧ t.on fWDSTAT_STARTING = false ∧ t.drv.testing = false ∧ s.besides t := by
  let w := powerSet s ilim retry babcut
  obtain ⟨-, -, hpd, -, -, -⟩ := bookSync_drive w
  obtain ⟨hen, hon, hst, htest, hstop⟩ := driveStop_stopped w.bookSync (hpd.trans hp)
  have hEn : w.bookSync.on fWDCTL_EN = true := by
    rw [on_of_fld ((fld_bookSync w _ (by decide)).trans (fld_powerSet s ilim retry babcut _ (by decide))), he]
  have hact : s.walkPower d false ilim retry babcut = ⟨w.bookSync.driveStop, stOK, 0, [], false⟩ := by
    rw [walkPower_false s d retry babcut hi, if_pos hEn]
    rfl
  refine ⟨w.bookSync.driveStop, ?run, hen, hon, hst, htest, State.besides_trans (powerSet_bookSync_besides s ilim retry babcut) hstop⟩
  rw [walkPower_run false hi, runDriver_done h hd hw hlt hact]

/-! ### The queries -/

theorem walkQuery_notRole (hd : s.driverRing d = false) : exec (.walkQuery d walk) s = .next (s.complete d stNOTROLE 0 []) :=
  congrArg Host.Outcome.next (runDriver_notRole h hd _)

theorem unknownWalk_down (en : Bool) (hc : s.role = .chapter) (hd : s.driverRing d = true) (hpos : 0 < walk) (hlt : walk < 16)
    (hi : 4 ≤ ilim ∧ ilim ≤ 32) (hx : s.xing? walk = none) :
    exec (.walkPower d walk en ilim retry babcut) s = .next (s.complete d stWALKDOWN 0 []) ∧
      exec (.walkQuery d walk) s = .next (s.complete d stWALKDOWN 0 []) ∧
      exec (.booksQuery d (.walk walk)) s = .next (s.complete d stWALKDOWN 0 []) := by
  refine ⟨?power, congrArg Host.Outcome.next (runDriver_unknown h hc hd hpos hlt hx _), ?books⟩
  case power => rw [walkPower_run en hi, runDriver_unknown h hc hd hpos hlt hx]
  case books =>
    show execBooksQuery d (.walk walk) s = _
    rw [execBooksQuery, if_neg (by simp [hc])]
    refine congrArg Host.Outcome.next (runLocal_done h hc hd ?_)
    show (if 15 < walk then _ else if walk = 0 then _ else _) = _
    rw [if_neg (by omega), if_neg (by omega), forward_unknown hx]
    rfl

theorem walkQuery_answers (hd : s.driverRing d = true) (hw : walk = s.drvWalk) (hlt : walk < 16) :
    exec (.walkQuery d walk) s = .next (s.answers d [rWDCTL, rWDSTAT, rWDFLAG, rWDMON, rWDCNT]) :=
  congrArg Host.Outcome.next (runDriver_done h hd hw hlt rfl)

theorem walkQuery_beyond (hd : s.driverRing d = true) (hw : 15 < walk) :
    exec (.walkQuery d walk) s = .next (s.complete d stINVALID 0 []) :=
  congrArg Host.Outcome.next (runDriver_beyond h hd hw _)

theorem lineQuery_answers (hn : s.onWalk = true) : exec (.lineQuery d) s = .next (s.complete d stOK (s.reg rLASTAT).toNat
    (((([rLASTAT, rLAFLAG, rLACNT]).map (fun a => leBytes 4 (s.reg a).toNat)).flatten) ++ leBytes 4 (s.fld fPWRMON_VBRV))) := by
  show execLineQuery d s = _
  rw [execLineQuery, hn]
  exact congrArg Host.Outcome.next (runDesc_done h rfl)

theorem lineQuery_notRole (hn : s.onWalk = false) : exec (.lineQuery d) s = .next (s.complete d stNOTROLE 0 []) := by
  show execLineQuery d s = _
  rw [execLineQuery, hn, State.runDesc_role h]

theorem booksQuery_ring {addr kind : Nat} (hc : s.role = .chapter) (hd : s.driverRing d = true) (ha : addr < 4096) (hk : kind < 4) :
    exec (.booksQuery d (.ring addr kind)) s =
      .next (s.complete d stOK (s.credit (4 * addr + kind)).g (s.ringFigures (4 * addr + kind)).2) := by
  show execBooksQuery d (.ring addr kind) s = _
  rw [execBooksQuery, if_neg (by simp [hc])]
  exact congrArg Host.Outcome.next (runLocal_done h hc hd (if_neg (by simp; omega)))

theorem booksQuery_ring_beyond {addr kind : Nat} (hc : s.role = .chapter) (hd : s.driverRing d = true) (ha : 4095 < addr) :
    exec (.booksQuery d (.ring addr kind)) s = .next (s.complete d stINVALID 0 []) := by
  show execBooksQuery d (.ring addr kind) s = _
  rw [execBooksQuery, if_neg (by simp [hc])]
  exact congrArg Host.Outcome.next (runLocal_done h hc hd (if_pos (by simp [ha])))

theorem booksQuery_walkZero (hc : s.role = .chapter) (hd : s.driverRing d = true) : exec (.booksQuery d (.walk 0)) s =
    .next (s.complete d stOK (wrapInt 32 s.budget) (s.walkFigures s.budget s.drv.granted (s.drv.quar.map (·.1)).sum).2) := by
  show execBooksQuery d (.walk 0) s = _
  rw [execBooksQuery, if_neg (by simp [hc])]
  exact congrArg Host.Outcome.next (runLocal_done h hc hd rfl)

/-- A Crossing answers with a BOOKS_FIG record (R572). -/
theorem booksQuery_crossing (q : BookTarget) (hc : s.role = .crossing) (hp : d.path = .walk) :
    exec (.booksQuery d q) s = .next (s.booksFig.complete d stOK 0 []) := by
  show execBooksQuery d q s = _
  have hd : s.driverRing d = true := by simp only [State.driverRing, hc, hp]
  rw [execBooksQuery, if_pos hc, hd]
  exact congrArg Host.Outcome.next (runDesc_done h rfl)

end

/-- Settles O42, one lemma for each event and descriptor of the driven walk. -/
theorem drivenWalk : Obligations.DrivenWalk := by
  unfold Obligations.DrivenWalk
  refine ⟨fun s d hd => ?events, fun s d walk ilim addr kind en retry babcut h => ?descriptors⟩
  case events =>
    have hshort := shortOff_spec s fWDFLAG_SHORT rfl (by decide) (by decide)
    have htrip := shortOff_spec s fWDFLAG_HARDTRIP rfl (by decide) (by decide)
    refine ⟨fun ht b => contestTestEnd_idle s b ht, contestTestEnd_clear s, contestTestEnd_contested s,
      contestTestEnd_contested_waiting s d, walkDriveOn_starting s, walkStart_idle s, walkStartfail_starting s, ?restart, ?noRetry,
      ?fourth, short_idle s, walkRetry_due s, walkRetry_early s, wsupQualified_drive s hd, wsupLost_busy s hd, wsupLost_idle s,
      wsupOvervoltage_busy s hd, wsupOvRecover_resumes s, wsupOvRecover_idle s, rateChangeApply_drive s hd, parstatClr_cleared s,
      fun n p => quarantineEnd_due s n p, fun n k p => quarantineEnd_early s n k p⟩
    case restart =>
      intro hon hfirst hretry
      have hn := offsNow_first s hfirst
      refine ⟨_, walkShort_on s hon, hshort.off, hshort.flag, hshort.shorts, by simp [hshort.retry, hretry, hn], sameFields_of ?_⟩
      intro f hf
      obtain rfl := List.mem_singleton.mp hf
      rw [hshort.en, if_pos hn]
    case noRetry =>
      intro hon _ hretry
      exact ⟨_, walkShort_on s hon, hshort.off, hshort.flag, by simp [hshort.retry, hretry]⟩
    case fourth =>
      intro hon htimes _
      have hn := offsNow_fourth s htimes
      refine ⟨_, hardtrip_on s hon, htrip.off, htrip.flag, htrip.shorts, by simp [htrip.retry, hn], ?_⟩
      rw [State.on, htrip.en, if_neg hn]
      rfl
  case descriptors =>
    exact ⟨fun hd => ⟨walkPower_notRole h en hd, walkQuery_notRole h hd⟩,
      fun ⟨hd, hw, hlt⟩ hi => walkPower_limit h en hd hw hlt hi,
      fun ⟨hd, hw, hlt⟩ hi hs => walkPower_supplyLow h hd hw hlt hi hs,
      fun ⟨hd, hw, hlt⟩ hi hs ho hb hl hx => walkPower_asks h hd hw hlt hi hs ho hb hl hx,
      fun ⟨hd, hw, hlt⟩ hi he hp => walkPower_off h hd hw hlt hi he hp,
      fun ⟨hc, hd⟩ hpos hlt hi hx => unknownWalk_down h en hc hd hpos hlt hi hx,
      fun ⟨hd, hw, hlt⟩ => walkQuery_answers h hd hw hlt,
      fun hd hw => walkQuery_beyond h hd hw,
      lineQuery_answers h, lineQuery_notRole h,
      fun ⟨hc, hd⟩ ha hk => booksQuery_ring h hc hd ha hk,
      fun ⟨hc, hd⟩ => booksQuery_walkZero h hc hd,
      fun ⟨hc, hd⟩ ha => booksQuery_ring_beyond h hc hd ha,
      fun hc hp => booksQuery_crossing h (.walk walk) hc hp⟩

end Sys2Proof.Proofs
end

section
/-! PROOF. Enrolment and the descriptors of a walk's line (R21, R192, R193, R195, R197, R199, R200, R213), and O48. -/

namespace Sys2Proof.Proofs

open Sys2Proof Sys2Proof.Machine

/-! ### Addresses of the driven walk, and the closed downlink -/

theorem address_walk {pos : Nat} (w : Nat) (h : pos < 256) : (256 * w + pos) / 256 = w ∧ (256 * w + pos) % 256 = pos := by omega

/-- With no downlink period open a frame only joins the queue (R186). -/
theorem dnFlush_closed (s : State) (h : s.drv.dnOpen = false) : s.dnFlush = s := by
  simp [State.dnFlush, h]

theorem down_closed (s : State) (f : Frame) (h : s.drv.dnOpen = false) : s.down f = s.dnPut f := dnFlush_closed (s.dnPut f) h

theorem probeNext_closed (s : State) (h : s.drv.dnOpen = false) : s.probeNext = s := by
  unfold State.probeNext
  split
  · rfl
  · split
    · rw [if_neg (by simp [h])]
    · rfl

theorem rollStart_closed (s : State) (h : s.drv.dnOpen = false) :
    s.rollStart = (s.setDrv (fun d => { d with roll := some ⟨[(0, 0)], none, 0⟩ })).setFld fLPSTAT_ROLLING 1 :=
  probeNext_closed _ h

theorem enr?_nil (s : State) (pos : Nat) (h : s.drv.enr = []) : s.enr? pos = none := by
  rw [State.enr?, h]; rfl

theorem enr?_single (s : State) (e : Enr) (h : s.drv.enr = [e]) : s.enr? e.pos = some e := by
  simp [State.enr?, h]

section
variable {s : State} {d : Desc} (h : s.ready d = true)
include h

/-! ### Roll call -/

theorem rollCall_walkDown (hd : s.driverRing d = true) (hlt : s.drvWalk < 16) (hoff : s.drives = false) :
    exec (.rollCall d s.drvWalk) s = .next (s.complete d stWALKDOWN 0 []) :=
  congrArg Host.Outcome.next (runDriver_done h hd rfl hlt (by rw [hoff]; rfl))

theorem rollCall_busy (hd : s.driverRing d = true) (hlt : s.drvWalk < 16) (hon : s.drives = true) (hr : s.on fLPSTAT_ROLLING = true) :
    exec (.rollCall d s.drvWalk) s = .next (s.complete d stROLLBUSY 0 []) :=
  congrArg Host.Outcome.next (runDriver_done h hd rfl hlt (by rw [hon, hr]; rfl))

theorem rollCall_starts (hd : s.driverRing d = true) (hlt : s.drvWalk < 16) (hon : s.drives = true)
    (hr : s.on fLPSTAT_ROLLING = false) (hopen : s.drv.dnOpen = false) : ∃ t : State,
      exec (.rollCall d s.drvWalk) s = .next (t.complete d stOK 0 []) ∧ t.drv.roll = some ⟨[(0, 0)], none, 0⟩ ∧
      t.on fLPSTAT_ROLLING = true ∧ s.besidesAll { t with drv := s.drv } := by
  refine ⟨(s.setDrv (fun d => { d with roll := some ⟨[(0, 0)], none, 0⟩ })).setFld fLPSTAT_ROLLING 1, ?run, rfl,
    on_setFld_one _ _ (by decide) (by decide), s.besidesAll_setFld fLPSTAT_ROLLING 1⟩
  refine congrArg Host.Outcome.next (runDriver_done h hd rfl hlt ?_)
  rw [hon, hr, ← rollStart_closed s hopen]
  rfl

/-! ### Positions -/

theorem addrAssign_binds {uid pos : Nat} (hd : s.driverRing d = true) (hlt : s.drvWalk < 16) (hu : uid < 2 ^ 64) (hpos : pos < 256)
    (hb : s.drv.binds = []) (he : s.drv.enr = []) : exec (.addrAssign d uid (256 * s.drvWalk + pos)) s =
      .next ({ s with drv := { s.drv with binds := [(uid, pos)] } }.complete d stOK 0 []) := by
  obtain ⟨hdiv, hmod⟩ := address_walk s.drvWalk hpos
  refine congrArg Host.Outcome.next (runDriver_done h hd hdiv (hdiv.trans_lt hlt) ?_)
  rw [State.addrAssign, if_neg (by simp [hb, he]), Nat.mod_eq_of_lt hu, hmod, State.setDrv, hb]
  rfl

theorem addrAssign_inUse {uid pos : Nat} (hd : s.driverRing d = true) (hlt : s.drvWalk < 16) (hu : uid < 2 ^ 64) (hpos : pos < 256)
    (hb : s.drv.binds = [(uid + 1, pos)]) : exec (.addrAssign d uid (256 * s.drvWalk + pos)) s =
      .next (s.complete d stADDRINUSE 0 []) := by
  obtain ⟨hdiv, hmod⟩ := address_walk s.drvWalk hpos
  refine congrArg Host.Outcome.next (runDriver_done h hd hdiv (hdiv.trans_lt hlt) ?_)
  rw [State.addrAssign, if_pos]
  · rfl
  · rw [Nat.mod_eq_of_lt hu]; simp [hb, hmod]

theorem addrRelease_unknown {pos : Nat} (hd : s.driverRing d = true) (hlt : s.drvWalk < 16) (hpos : pos < 256) (he : s.drv.enr = []) :
    exec (.addrRelease d (256 * s.drvWalk + pos)) s = .next (s.complete d stNOTENROLLED 0 []) := by
  obtain ⟨hdiv, -⟩ := address_walk s.drvWalk hpos
  refine congrArg Host.Outcome.next (runDriver_done h hd hdiv (hdiv.trans_lt hlt) ?_)
  rw [State.addrRelease, enr?_nil s _ he]
  rfl

theorem lineRange_unknown {pos : Nat} (hd : s.driverRing d = true) (hlt : s.drvWalk < 16) (hpos : pos < 256) (he : s.drv.enr = []) :
    exec (.lineRange d (256 * s.drvWalk + pos)) s = .next (s.complete d stNOTENROLLED 0 []) := by
  obtain ⟨hdiv, -⟩ := address_walk s.drvWalk hpos
  refine congrArg Host.Outcome.next (runDriver_done h hd hdiv (hdiv.trans_lt hlt) ?_)
  rw [enr?_nil s _ he]
  rfl

omit h in
/-- The tokens of the one enrolled Cell go to quarantine (R148). -/
theorem quarantine_single (e : Enr) (he : s.drv.enr = [e]) : s.quarantine e.pos = s.setDrv (fun d => { d with
    enr := [{ e with held := 0, wanted := none }], granted := d.granted - e.held, quar := d.quar ++ [(e.held, 3, e.pos)]
    reqs := d.reqs.filter (· != e.pos) }) := by
  rw [State.quarantine, enr?_single s e he]
  simp only [State.setEnr, State.setDrv, he, List.map_cons, List.map_nil, if_true]

/-- The state in which the released Cell is told and its entry is gone, before the book is looked at. -/
def released (s : State) (e : Enr) : State :=
  ((s.quarantine e.pos).down (assignFrame e.uid 2 e.pos 0)).setDrv (fun d => { d with
    enr := d.enr.filter (fun x => x.pos != e.pos)
    binds := d.binds.filter (fun b => b.2 != e.pos) })

omit h in
theorem released_single (e : Enr) (he : s.drv.enr = [e]) (hb : s.drv.binds = [(e.uid, e.pos)]) (hopen : s.drv.dnOpen = false) :
    (released s e).drv.enr = [] ∧ (released s e).drv.binds = [] ∧
      (released s e).drv.quar = s.drv.quar ++ [(e.held, 3, e.pos)] ∧ (released s e).drv.granted = s.drv.granted - e.held ∧
      s.besides (released s e) := by
  have hq := quarantine_single e he
  have hclosed : (s.quarantine e.pos).drv.dnOpen = false := by rw [hq]; exact hopen
  rw [released, down_closed _ _ hclosed, hq]
  refine ⟨?entry, ?binding, rfl, rfl, rfl, rfl, rfl, rfl, rfl, rfl⟩
  case entry => simp [State.dnPut]
  case binding => simp [State.dnPut, hb]

theorem addrRelease_enrolled {pos : Nat} (e : Enr) (hd : s.driverRing d = true) (hlt : s.drvWalk < 16) (hpos : pos < 256)
    (he : s.drv.enr = [e]) (hep : e.pos = pos) (hb : s.drv.binds = [(e.uid, pos)]) (hopen : s.drv.dnOpen = false) : ∃ t : State,
      exec (.addrRelease d (256 * s.drvWalk + pos)) s = .next (t.complete d stOK 0 []) ∧ t.drv.enr = [] ∧ t.drv.binds = [] ∧
        t.drv.quar = s.drv.quar ++ [(e.held, 3, pos)] ∧ t.drv.granted = s.drv.granted - e.held ∧ s.besides t := by
  subst hep
  obtain ⟨hdiv, hmod⟩ := address_walk s.drvWalk hpos
  obtain ⟨hentry, hbinding, hquar, hgranted, hbes⟩ := released_single e he hb hopen
  obtain ⟨t, ht, hbook⟩ := bookSync_idle (released s e) (fun p _ => enr?_nil _ p hentry)
  refine ⟨(released s e).bookSync, ?run, ?_⟩
  case run =>
    refine congrArg Host.Outcome.next (runDriver_done h hd hdiv (hdiv.trans_lt hlt) ?_)
    rw [State.addrRelease, hmod, enr?_single s e he]
    rfl
  rw [hbook, noticed, State.setFld_drv, State.setDrv_drv, ht.drv]
  exact ⟨hentry, hbinding, hquar, hgranted, State.besides_trans hbes ht.besides⟩

/-! ### Rate and ranging -/

theorem lineSetup_invalid {rate system : Nat} (hd : s.driverRing d = true) (hlt : s.drvWalk < 16) :
    exec (.lineSetup d s.drvWalk rate 3 system) s = .next (s.complete d stINVALID 0 []) :=
  congrArg Host.Outcome.next (runDriver_done h hd rfl hlt (if_pos (by simp)))

theorem lineSetup_changes {rate system : Nat} (hd : s.driverRing d = true) (hlt : s.drvWalk < 16) (hon : s.drives = true)
    (hr : rate < 4) (hne : rate ≠ s.drvRate) : ∃ t : State,
      exec (.lineSetup d s.drvWalk rate 9 system) s = .next (t.complete d stOK 0 []) ∧ t.fld fLPCTL_SWOFS = 9 ∧
        t.drv.system = some (system % 2 ^ 32) ∧ t.drv.rateChg = some (rate, 4) ∧ t.drvRate = s.drvRate ∧
        s.besidesAll { t with drv := s.drv } := by
  refine ⟨((s.setFld fLPCTL_SWOFS 9).setDrv (fun x => { x with system := some (system % 2 ^ 32) })).setDrv
    (fun x => { x with rateChg := some (rate, 4), rateWatch := none }), ?run, ?swofs, rfl, rfl, ?rate, s.besidesAll_setFld fLPCTL_SWOFS 9⟩
  case run =>
    refine congrArg Host.Outcome.next (runDriver_done h hd rfl hlt ?_)
    rw [if_neg (by simp; omega), if_neg (by simp [hon])]
    exact congrArg State.ok (if_neg hne)
  case swofs =>
    rw [State.setDrv_fld, State.setDrv_fld, State.fld_setFld _ _ _ (by decide)]
    rfl
  case rate => exact State.fld_setFld_other s fLPCTL_SWOFS fWDSTAT_RATENOW 9 (by decide)

theorem lineRange_absent {pos : Nat} (e : Enr) (hd : s.driverRing d = true) (hlt : s.drvWalk < 16) (hpos : pos < 256)
    (he : s.drv.enr = [e]) (hep : e.pos = pos) (ha : e.absent = true) :
    exec (.lineRange d (256 * s.drvWalk + pos)) s = .next (s.complete d stABSENT 0 []) := by
  subst hep
  obtain ⟨hdiv, hmod⟩ := address_walk s.drvWalk hpos
  refine congrArg Host.Outcome.next (runDriver_done h hd hdiv (hdiv.trans_lt hlt) ?_)
  rw [hmod, enr?_single s e he]
  exact if_pos ha

theorem lineRange_starts {pos : Nat} (e : Enr) (hd : s.driverRing d = true) (hlt : s.drvWalk < 16) (hpos : pos < 256)
    (he : s.drv.enr = [e]) (hep : e.pos = pos) (ha : e.absent = false) : exec (.lineRange d (256 * s.drvWalk + pos)) s =
      .next ({ s with drv := { s.drv with enr := [{ e with ranges := 8, rsum := 0 }] } }.complete d stOK 0 []) := by
  subst hep
  obtain ⟨hdiv, hmod⟩ := address_walk s.drvWalk hpos
  refine congrArg Host.Outcome.next (runDriver_done h hd hdiv (hdiv.trans_lt hlt) ?_)
  have hset : s.setEnr { e with ranges := 8, rsum := 0 } =
      { s with drv := { s.drv with enr := [{ e with ranges := 8, rsum := 0 }] } } := by
    simp only [State.setEnr, he, List.map_cons, List.map_nil, if_true]
  rw [hmod, enr?_single s e he, ← hset]
  exact if_neg (by simp [ha])

/-! ### Time -/

theorem timeSet_steps {told tnew : Nat} (hc : s.role = .chapter) (hd : s.driverRing d = true) (ho : told % 32768 = 0)
    (hn : tnew % 32768 = 0) (hlt : tnew < 2 ^ 48) (hlo : told < 2 ^ 48) (hr : reached told s.now = false) :
    exec (.timeSet d told tnew) s =
      .next ({ s with drv := { s.drv with timeStep := some (told, tnew) } }.complete d stOK 0 []) := by
  show execTimeSet d told tnew s = _
  rw [execTimeSet, if_pos hc]
  refine congrArg Host.Outcome.next (runLocal_done h hc hd ?_)
  rw [if_neg (by simp [ho, hn, hr]), Nat.mod_eq_of_lt hlt, Nat.mod_eq_of_lt hlo]
  rfl

theorem timeSet_past {told tnew : Nat} (hc : s.role = .chapter) (hd : s.driverRing d = true) (hr : reached told s.now = true) :
    exec (.timeSet d told tnew) s = .next (s.complete d stINVALID 0 []) := by
  show execTimeSet d told tnew s = _
  rw [execTimeSet, if_pos hc]
  exact congrArg Host.Outcome.next (runLocal_done h hc hd (if_pos (by simp [hr])))

theorem timeSet_session {told tnew : Nat} (hc : s.role = .cell) (hp : d.path = .lectern) (ho : told % 32768 = 0)
    (hn : tnew % 32768 = 0) (hlt : tnew < 2 ^ 48) (htrack : s.on fLPSTAT_TRACK = false) : ∃ t : State,
      exec (.timeSet d told tnew) s = .next (t.complete d stOK 0 []) ∧ t.on fRTCSTAT_SETPEND = true ∧
        t.fld fRTCSETL_TIME + 2 ^ 32 * t.fld fRTCSETH_TIME = tnew ∧ s.besidesAll t := by
  let lo := s.setFld fRTCSETL_TIME (tnew % 2 ^ 32)
  let hi := lo.setFld fRTCSETH_TIME (tnew / 2 ^ 32 % 2 ^ 16)
  refine ⟨hi.setFld fRTCSTAT_SETPEND 1, ?run, on_setFld_one _ _ (by decide) (by decide), ?time, s.besidesAll_regs _⟩
  case run =>
    show execTimeSet d told tnew s = _
    rw [execTimeSet, if_neg (by simp [hc]), hp]
    refine congrArg Host.Outcome.next (runDesc_done h ?_)
    rw [if_neg (by simp [ho, hn]), if_neg (by simp [htrack])]
    rfl
  case time =>
    have hlow : (hi.setFld fRTCSTAT_SETPEND 1).fld fRTCSETL_TIME = tnew % 2 ^ 32 % 2 ^ 32 := by
      rw [State.fld_setFld_other _ _ _ _ (by decide), State.fld_setFld_other _ _ _ _ (by decide)]
      exact State.fld_setFld s fRTCSETL_TIME _ (by decide)
    have hhigh : (hi.setFld fRTCSTAT_SETPEND 1).fld fRTCSETH_TIME = tnew / 2 ^ 32 % 2 ^ 16 % 2 ^ 16 := by
      rw [State.fld_setFld_other _ _ _ _ (by decide)]
      exact State.fld_setFld lo fRTCSETH_TIME _ (by decide)
    rw [hlow, hhigh]
    omega

theorem timeSet_tracking {told tnew : Nat} (hc : s.role = .cell) (hp : d.path = .lectern) (ho : told % 32768 = 0)
    (hn : tnew % 32768 = 0) (htrack : s.on fLPSTAT_TRACK = true) :
    exec (.timeSet d told tnew) s = .next (s.complete d stBUSY 0 []) := by
  show execTimeSet d told tnew s = _
  rw [execTimeSet, if_neg (by simp [hc]), hp]
  refine congrArg Host.Outcome.next (runDesc_done h ?_)
  rw [if_neg (by simp [ho, hn]), if_pos htrack]
  rfl

theorem timeQuery_answers : exec (.timeQuery d) s = .next (s.complete d stOK (s.now % 2 ^ 32)
    (leBytes 8 s.now ++ ([rLPSTAT, rLPPROP, rLPTERR].map (fun a => leBytes 4 (s.reg a).toNat)).flatten)) :=
  congrArg Host.Outcome.next (runDesc_done h rfl)

/-! ### SET_WALK -/

section
variable (hc : s.role = .chapter) (hd : s.driverRing d = true)
include hc hd

theorem setWalk_invalid {uid n : Nat} (hn : 15 < n) : exec (.setWalk d uid n) s = .next (s.complete d stINVALID 0 []) :=
  congrArg Host.Outcome.next (runLocal_done h hc hd (if_pos hn))

theorem setWalk_unknown {uid n : Nat} (hn : n < 16) (hf : s.drv.found = []) (hx : s.drv.xings = []) :
    exec (.setWalk d uid n) s = .next (s.complete d stNOTENROLLED 0 []) := by
  refine congrArg Host.Outcome.next (runLocal_done h hc hd ?_)
  rw [if_neg (by omega), if_pos (by simp [State.foundXing, hf, hx])]
  rfl

theorem setWalk_inUse {uid n : Nat} (x : Xing) (hpos : 0 < n) (hn : n < 16) (hu : uid < 2 ^ 64) (hf : s.drv.found = [uid])
    (hx : s.drv.xings = [x]) (hxn : x.n = n) (hxu : x.uid = uid + 1) :
    exec (.setWalk d uid n) s = .next (s.complete d stWALKINUSE 0 []) := by
  refine congrArg Host.Outcome.next (runLocal_done h hc hd ?_)
  rw [Nat.mod_eq_of_lt hu, if_neg (by omega), if_neg (by simp [State.foundXing, hf]), if_pos (by simp [hx, hxn, hxu]; omega)]
  rfl

theorem setWalk_assigns {uid n : Nat} (hn : n < 16) (hu : uid < 2 ^ 64) (hf : s.drv.found = [uid]) (hx : s.drv.xings = [])
    (hdn : s.drv.dn = []) (hopen : s.drv.dnOpen = false) : ∃ t : State, exec (.setWalk d uid n) s = .next t ∧
      t.drv.pendWalk = some ⟨uid, n, d, 0⟩ ∧ t.drv.dn = [⟨assignFrame uid 0 n 1, false, none, 0⟩] ∧
      s.besidesAll { t with drv := s.drv } := by
  let u := s.setDrv (fun x => { x with pendWalk := some ⟨uid, n, d, 0⟩ })
  refine ⟨u.dnPut (assignFrame uid 0 n 1), ?run, rfl, ?queue, s.besidesAll_refl⟩
  case run =>
    refine congrArg Host.Outcome.next (runLocal_waits h hc hd (st := stOK) (r := 0) (bs := []) ?_)
    rw [Nat.mod_eq_of_lt hu, if_neg (by omega), if_neg (by simp [State.foundXing, hf]), if_neg (by simp [hx]), if_neg (by simp [hx]),
      ← down_closed u _ hopen]
  case queue =>
    show s.drv.dn ++ _ = _
    rw [hdn]
    rfl

end

end

/-- Settles O48, one lemma for each descriptor and answer. -/
theorem lineDescriptors : Obligations.LineDescriptors := by
  unfold Obligations.LineDescriptors
  intro s d uid pos n told tnew e h hopen
  exact ⟨fun hd => ⟨congrArg Host.Outcome.next (runDriver_notRole h hd _), congrArg Host.Outcome.next (runDriver_notRole h hd _),
      congrArg Host.Outcome.next (runDriver_notRole h hd _)⟩,
    fun ⟨hd, hlt⟩ => rollCall_walkDown h hd hlt,
    fun ⟨hd, hlt⟩ => rollCall_busy h hd hlt,
    fun ⟨hd, hlt⟩ hon hr => rollCall_starts h hd hlt hon hr hopen,
    fun ⟨hd, hlt⟩ => addrAssign_binds h hd hlt,
    fun ⟨hd, hlt⟩ => addrAssign_inUse h hd hlt,
    fun ⟨hd, hlt⟩ hpos he => ⟨addrRelease_unknown h hd hlt hpos he, lineRange_unknown h hd hlt hpos he⟩,
    fun ⟨hd, hlt⟩ hpos he hep hb => addrRelease_enrolled h e hd hlt hpos he hep hb hopen,
    fun ⟨hd, hlt⟩ _ => lineSetup_invalid h hd hlt,
    fun ⟨hd, hlt⟩ hon hn hne => lineSetup_changes h hd hlt hon hn hne,
    fun ⟨hd, hlt⟩ => lineRange_absent h e hd hlt,
    fun ⟨hd, hlt⟩ => lineRange_starts h e hd hlt,
    fun ⟨hc, hd⟩ ⟨ho, hn, hlt⟩ hlo hr => timeSet_steps h hc hd ho hn hlt hlo hr,
    fun ⟨hc, hd⟩ _ hr => timeSet_past h hc hd hr,
    fun hc hp ⟨ho, hn, hlt⟩ ht => timeSet_session h hc hp ho hn hlt ht,
    fun hc hp ⟨ho, hn, _⟩ ht => timeSet_tracking h hc hp ho hn ht,
    timeQuery_answers h,
    fun ⟨hc, hd⟩ hn => setWalk_invalid h hc hd hn,
    fun ⟨hc, hd⟩ hn hf hx => setWalk_unknown h hc hd hn hf hx,
    fun ⟨hc, hd⟩ hpos hn hu hf hx => setWalk_inUse h hc hd _ hpos hn hu hf hx rfl rfl,
    fun ⟨hc, hd⟩ hn hu hf hx hdn => setWalk_assigns h hc hd hn hu hf hx hdn hopen⟩

end Sys2Proof.Proofs
end

section
/-! PROOF. What a power flag, a change of the tokens and a lost line write (R58, R60, R67, R94), and the walk attachment and the Lectern
jack: O43 (R79, R169, R173, R177, R179, R202). -/

namespace Sys2Proof.Proofs

open Sys2Proof Sys2Proof.Machine

/-! ### Writes of fields -/

/-- From `s` to `t` registers alone change, and a field apart from those of `l` keeps its value. -/
structure Writes (l : List Fld) (s t : State) : Prop where
  regs : t = { s with regs := t.regs }
  kept : ∀ g, l.all (fun f => f.other g) = true → t.fld g = s.fld g

namespace Writes

variable {l : List Fld} {s t u : State}

theorem refl (l : List Fld) (s : State) : Writes l s s := ⟨rfl, fun _ _ => rfl⟩

theorem trans (h : Writes l s t) (k : Writes l t u) : Writes l s u := by
  refine ⟨?_, fun g hg => (k.kept g hg).trans (h.kept g hg)⟩
  rw [k.regs, h.regs]

theorem setFld {f : Fld} (h : Writes l s t) (hf : f ∈ l) (v : Nat) : Writes l s (t.setFld f v) :=
  h.trans ⟨rfl, fun g hg => State.fld_setFld_other t f g v (List.all_eq_true.mp hg f hf)⟩

theorem ite {c : Prop} [Decidable c] (h : Writes l s t) (k : Writes l s u) : Writes l s (if c then t else u) := by
  split
  · exact h
  · exact k

theorem on (h : Writes l s t) {g : Fld} (hg : l.all (fun f => f.other g) = true) : t.on g = s.on g := on_of_fld (h.kept g hg)

theorem besidesAll (h : Writes l s t) : s.besidesAll t := by
  rw [h.regs]
  exact s.besidesAll_regs _

end Writes

/-- A bit latched in a field joins those that were set. -/
theorem fld_setFld_latch (s : State) (f : Fld) {bit : Nat} (hb : bit < f.w) (h : f.lo + f.w ≤ 32) :
    (s.setFld f (s.fld f ||| 2 ^ bit)).fld f = s.fld f ||| 2 ^ bit := by
  rw [State.fld_setFld s f _ h]
  exact Nat.mod_eq_of_lt (Nat.or_lt_two_pow (fldOf_lt _ f) (Nat.pow_lt_pow_right (by decide) hb))

/-! ### Power flags and tokens -/

/-- While the part is awake a wake source writes WAKESRC alone (R79). -/
theorem wake_writes {l : List Fld} {s : State} (h : s.awake = true) (hl : fWAKESRC_SRC ∈ l) (bit : Nat) : Writes l s (s.wake bit) := by
  rw [State.wake_awake s bit h]
  exact (Writes.refl l s).setFld hl _

/-- A power flag writes itself and, where it wakes, WAKESRC (R94). -/
theorem pwrFlag_writes {l : List Fld} {s : State} (h : s.awake = true) {f : Fld} (hf : f ∈ l) (hl : fWAKESRC_SRC ∈ l) :
    Writes l s (s.pwrFlag f) := by
  have hset : Writes l s (s.setFld f 1) := (Writes.refl l s).setFld hf 1
  unfold State.pwrFlag
  exact .ite (.refl l s) (.ite (hset.trans (wake_writes (s := s.setFld f 1) h hl 6)) hset)

/-- A power flag that is raised reads 1. -/
theorem pwrFlag_on {s : State} (h : s.awake = true) {f : Fld} (hw : 0 < f.w) (hfit : f.lo + f.w ≤ 32)
    (hsrc : fWAKESRC_SRC.other f = true) : (s.pwrFlag f).on f = true := by
  have hset : (s.setFld f 1).on f = true := on_setFld_one s f hw hfit
  unfold State.pwrFlag
  dsimp only
  split
  case isTrue hon => exact hon
  case isFalse =>
    split
    · have hwake := wake_writes (l := [fWAKESRC_SRC]) (s := s.setFld f 1) h (List.mem_singleton_self _) 6
      exact (hwake.on (by simpa using hsrc)).trans hset
    · exact hset

/-- The fields a change of the tokens brings up to date. -/
def tokenFields : List Fld := [fPWRTOK_NEED, fPWRTOK_ALLOW, fPWRTOK_SHORT, fPWRFLAG_SHORT, fWAKESRC_SRC]

theorem retoken_writes {s : State} (h : s.awake = true) : Writes tokenFields s s.retoken := by
  have hsets (a b c : Nat) : Writes tokenFields s (((s.setFld fPWRTOK_NEED a).setFld fPWRTOK_ALLOW b).setFld fPWRTOK_SHORT c) :=
    (((Writes.refl _ s).setFld (by decide) a).setFld (by decide) b).setFld (by decide) c
  unfold State.retoken
  dsimp only
  refine .ite ((hsets _ _ _).trans (pwrFlag_writes ?awake (by decide) (by decide))) (hsets _ _ _)
  case awake => exact h

/-! ### The line is lost -/

/-- The line gone and its tokens with it, before ALLOW and the flags follow. -/
def lineCut (s : State) : State :=
  ({ s.setFld fPWRSRC_LINEOK 0 with pwr := { s.pwr with lineLost := true, grantPend := none } }.setFld fPWRTOK_GRANT 0).redraw

/-- The fields that follow a lost line: the tokens' and the flag. -/
def lostFields : List Fld := fPWRFLAG_LINELOSS :: tokenFields

theorem lineDown_eq {s : State} (h : s.awake = true) (hw : s.rst.tokWait = none) :
    s.lineDown = (lineCut s).retoken.pwrFlag fPWRFLAG_LINELOSS := by
  have hret := retoken_writes (s := lineCut s) h
  have hrst : (lineCut s).retoken.rst.tokWait = none := by rw [hret.regs]; exact hw
  have hfin : (lineCut s).retoken.tokFinish = (lineCut s).retoken := by rw [State.tokFinish, hrst]
  exact congrArg (fun t => t.pwrFlag fPWRFLAG_LINELOSS) hfin

theorem fld_lineCut (s : State) (g : Fld) (h : [fPWRSRC_LINEOK, fPWRTOK_GRANT].all (fun f => f.other g) = true) :
    (lineCut s).fld g = s.fld g := by
  simp only [List.all_cons, List.all_nil, Bool.and_true, Bool.and_eq_true] at h
  obtain ⟨hline, hgrant⟩ := h
  exact (State.fld_setFld_other (s.setFld fPWRSRC_LINEOK 0) _ _ _ hgrant).trans (State.fld_setFld_other s _ _ _ hline)

theorem lineCut_besidesAll (s : State) : s.besidesAll (lineCut s) := ⟨⟨rfl, rfl, rfl, rfl, rfl, rfl⟩, rfl, rfl, rfl, rfl, rfl, rfl⟩

/-- What a lost line comes to (R67). -/
structure LineDown (s t : State) : Prop where
  lineOk : t.on fPWRSRC_LINEOK = false
  grant : t.fld fPWRTOK_GRANT = 0
  flag : t.on fPWRFLAG_LINELOSS = true
  lost : t.pwr.lineLost = true
  kept : ∀ g, ([fPWRSRC_LINEOK, fPWRTOK_GRANT] ++ lostFields).all (fun f => f.other g) = true → t.fld g = s.fld g
  besidesAll : s.besidesAll t

theorem lineDown_spec {s : State} (h : s.awake = true) (hw : s.rst.tokWait = none) : LineDown s s.lineDown := by
  have hret : Writes lostFields (lineCut s) (lineCut s).retoken :=
    have hr := retoken_writes (s := lineCut s) h
    ⟨hr.regs, fun g hg => hr.kept g (by simp only [lostFields, List.all_cons, Bool.and_eq_true] at hg; exact hg.2)⟩
  have hawake : (lineCut s).retoken.awake = true := by rw [hret.regs]; exact h
  have hall := hret.trans (pwrFlag_writes hawake (f := fPWRFLAG_LINELOSS) (by decide) (by decide))
  rw [lineDown_eq h hw]
  refine ⟨?lineOk, ?grant, pwrFlag_on hawake (by decide) (by decide) (by decide), ?lost, ?kept, ?besidesAll⟩
  case lineOk =>
    rw [hall.on (by decide)]
    exact (on_setFld_other (s.setFld fPWRSRC_LINEOK 0) fPWRTOK_GRANT _ _ (by decide)).trans (on_setFld_zero s _ (by decide) (by decide))
  case grant =>
    rw [hall.kept _ (by decide)]
    exact State.fld_setFld (s.setFld fPWRSRC_LINEOK 0) fPWRTOK_GRANT 0 (by decide)
  case lost => rw [hall.regs]; rfl
  case kept =>
    intro g hg
    rw [List.all_append, Bool.and_eq_true] at hg
    rw [hall.kept g hg.2, fld_lineCut s g hg.1]
  case besidesAll => exact State.besidesAll_trans (lineCut_besidesAll s) hall.besidesAll

/-! ### The walk attachment -/

/-- The attachment with the modulator cut now (R177), before a lock-out. -/
def jabbered (s : State) (stuck : Bool) (cuts : List Nat) : State :=
  { (s.setFld (if stuck then fLAFLAG_STUCK else fLAFLAG_JABBER) 1).count fLACNT_JABCNT with
    node := { s.node with cuts := cuts, modCut := true } }

/-- The cuts of the last 16 superframes, this one among them. -/
def cutsNow (s : State) : List Nat := s.superframe :: s.node.cuts.filter (fun c => decide (s.superframe < c + 16))

theorem jabberCut_runs (s : State) (stuck : Bool) (hn : s.onWalk = true) : exec (.jabberCut stuck) s =
    .next (if 3 ≤ (cutsNow s).length then (jabbered s stuck (cutsNow s)).setFld fLASTAT_TXLOCKOUT 1
      else jabbered s stuck (cutsNow s)) := by
  show execJabberCut stuck s = _
  rw [execJabberCut, if_neg (by simp [hn])]
  rfl

theorem fld_jabbered (s : State) (stuck : Bool) (cuts : List Nat) (g : Fld) (h : fLACNT_JABCNT.other g = true) :
    (jabbered s stuck cuts).fld g = (s.setFld (if stuck then fLAFLAG_STUCK else fLAFLAG_JABBER) 1).fld g :=
  State.fld_setFld_other _ fLACNT_JABCNT g _ h

/-- Of the two flags of R177 the cause's is set. -/
theorem jabbered_flags (s : State) (stuck : Bool) (cuts : List Nat) :
    (jabbered s stuck cuts).on fLAFLAG_JABBER = (!stuck || s.on fLAFLAG_JABBER) ∧
      (jabbered s stuck cuts).on fLAFLAG_STUCK = (stuck || s.on fLAFLAG_STUCK) := by
  rw [on_of_fld (fld_jabbered s stuck cuts fLAFLAG_JABBER (by decide)), on_of_fld (fld_jabbered s stuck cuts fLAFLAG_STUCK (by decide))]
  cases stuck with
  | false => exact ⟨on_setFld_one s _ (by decide) (by decide), on_setFld_other s _ _ _ (by decide)⟩
  | true => exact ⟨on_setFld_other s _ _ _ (by decide), on_setFld_one s _ (by decide) (by decide)⟩

theorem jabbered_count (s : State) (stuck : Bool) (cuts : List Nat) : (jabbered s stuck cuts).fld fLACNT_JABCNT =
    satAdd (2 ^ fLACNT_JABCNT.w - 1) (s.fld fLACNT_JABCNT) 1 := by
  have hflag : (if stuck then fLAFLAG_STUCK else fLAFLAG_JABBER).other fLACNT_JABCNT = true := by cases stuck <;> decide
  rw [← State.fld_setFld_other s _ fLACNT_JABCNT 1 hflag]
  exact fld_count (s.setFld (if stuck then fLAFLAG_STUCK else fLAFLAG_JABBER) 1) fLACNT_JABCNT (by decide)

theorem jabbered_lockout (s : State) (stuck : Bool) (cuts : List Nat) :
    (jabbered s stuck cuts).on fLASTAT_TXLOCKOUT = s.on fLASTAT_TXLOCKOUT := by
  rw [on_of_fld (fld_jabbered s stuck cuts _ (by decide))]
  exact on_setFld_other s _ _ _ (by cases stuck <;> decide)

theorem jabberCut_first (s : State) (stuck : Bool) (hn : s.onWalk = true) (hc : s.node.cuts = []) : ∃ t : State,
    exec (.jabberCut stuck) s = .next t ∧ t.node.modCut = true ∧ t.node.cuts = [s.now / 32768] ∧
      t.on fLAFLAG_JABBER = (!stuck || s.on fLAFLAG_JABBER) ∧ t.on fLAFLAG_STUCK = (stuck || s.on fLAFLAG_STUCK) ∧
      t.fld fLACNT_JABCNT = satAdd (2 ^ fLACNT_JABCNT.w - 1) (s.fld fLACNT_JABCNT) 1 ∧ t.on fLASTAT_TXLOCKOUT = s.on fLASTAT_TXLOCKOUT ∧
      s.besidesAll { t with node := s.node } := by
  have hcuts : cutsNow s = [s.now / 32768] := by rw [cutsNow, hc]; rfl
  obtain ⟨hjabber, hstuck⟩ := jabbered_flags s stuck [s.now / 32768]
  refine ⟨jabbered s stuck [s.now / 32768], ?run, rfl, rfl, hjabber, hstuck, jabbered_count s stuck _, jabbered_lockout s stuck _,
    s.besidesAll_regs _⟩
  rw [jabberCut_runs s stuck hn, hcuts, if_neg (by simp)]

theorem jabberCut_third (s : State) (stuck : Bool) (hn : s.onWalk = true) (hc : s.node.cuts = [s.now / 32768, s.now / 32768]) :
    ∃ t : State, exec (.jabberCut stuck) s = .next t ∧ t.on fLASTAT_TXLOCKOUT = true ∧ s.besidesAll { t with node := s.node } := by
  have hlen : 3 ≤ (cutsNow s).length := by simp [cutsNow, hc, State.superframe]
  refine ⟨(jabbered s stuck (cutsNow s)).setFld fLASTAT_TXLOCKOUT 1, ?run, on_setFld_one _ _ (by decide) (by decide),
    s.besidesAll_regs _⟩
  rw [jabberCut_runs s stuck hn, if_pos hlen]

theorem attachment_absent (s : State) (stuck : Bool) (hn : s.onWalk = false) :
    exec (.jabberCut stuck) s = .next s ∧ exec .polchg s = .next s := by
  refine ⟨?jabber, ?polarity⟩
  case jabber => show execJabberCut stuck s = _; simp [execJabberCut, hn]
  case polarity => show execPolchg s = _; simp [execPolchg, hn]

/-- The polarity as sensed anew, with its flag (R173). -/
def repolarised (s : State) : State := (s.setFld fLASTAT_POL (1 - s.fld fLASTAT_POL)).setFld fLAFLAG_POLCHG 1

theorem polchg_lineDown (s : State) (h : s.awake = true) (hn : s.onWalk = true) (hl : s.on fPWRSRC_LINEOK = true)
    (hw : s.rst.tokWait = none) : ∃ t : State, exec .polchg s = .next t ∧ t.fld fLASTAT_POL = 1 - s.fld fLASTAT_POL ∧
      t.on fLAFLAG_POLCHG = true ∧ t.on fPWRSRC_LINEOK = false ∧ t.fld fPWRTOK_GRANT = 0 ∧ t.on fPWRFLAG_LINELOSS = true ∧
      t.pwr.lineLost = true ∧ s.besidesAll t := by
  obtain ⟨hline, hgrant, hflag, hlost, hkept, hbes⟩ := lineDown_spec (s := repolarised s) h hw
  refine ⟨(repolarised s).lineDown, ?run, ?pol, ?polchg, hline, hgrant, hflag, hlost,
    State.besidesAll_trans (s.besidesAll_regs _) hbes⟩
  case run =>
    show execPolchg s = _
    rw [execPolchg, if_pos (by simp [hn, hl])]
    rfl
  case pol =>
    rw [hkept _ (by decide), repolarised, State.fld_setFld_other _ _ _ _ (by decide), State.fld_setFld _ _ _ (by decide)]
    exact Nat.mod_eq_of_lt (Nat.lt_of_le_of_lt (Nat.sub_le _ _) (by decide))
  case polchg =>
    rw [on_of_fld (hkept _ (by decide))]
    exact on_setFld_one _ _ (by decide) (by decide)

/-! ### The Lectern jack -/

/-- The node with no session and nothing of the jack waiting. -/
def sessionless (n : Node) : Node :=
  { n with session := false, sessAddr := none, sessRx := [0, 0, 0, 0], inbox := n.inbox.filter (fun d => d.path != .lectern) }

/-- A session's end clears the node's session and, in Loop role, its address (R202). -/
theorem sessionEnd_eq (s : State) : s.sessionEnd =
    { (if s.role = .loop then (s.setFld fLINEADDR_CELLADDR 0).setFld fLINEADDR_VALID 0 else s) with node := sessionless s.node } := by
  unfold State.sessionEnd
  split <;> rfl

theorem fld_sessionEnd (s : State) (g : Fld) (h : fLINEADDR_CELLADDR.addr ≠ g.addr) : s.sessionEnd.fld g = s.fld g := by
  have hw : Writes [fLINEADDR_CELLADDR, fLINEADDR_VALID] s
      (if s.role = .loop then (s.setFld fLINEADDR_CELLADDR 0).setFld fLINEADDR_VALID 0 else s) :=
    .ite (((Writes.refl _ s).setFld (by decide) 0).setFld (by decide) 0) (.refl _ s)
  have hcell := (other_iff fLINEADDR_CELLADDR g).mpr (.inl h)
  have hvalid := (other_iff fLINEADDR_VALID g).mpr (.inl h)
  rw [sessionEnd_eq]
  exact hw.kept g (by simp [hcell, hvalid])

theorem sessionEnd_node (s : State) : s.sessionEnd.node = sessionless s.node := by rw [sessionEnd_eq]

theorem sessionEnd_besides (s : State) : s.besidesAll { s.sessionEnd with node := s.node } := by
  rw [sessionEnd_eq]
  split <;> exact s.besidesAll_regs _

theorem sessionEnd_loop (s : State) (h : s.role = .loop) : s.sessionEnd.on fLINEADDR_VALID = false := by
  rw [sessionEnd_eq, if_pos h]
  exact on_setFld_zero (s.setFld fLINEADDR_CELLADDR 0) fLINEADDR_VALID (by decide) (by decide)

theorem lecternDetect_plugged (s : State) (h : s.awake = true) (hj : s.hasJack = true) (hp : s.on fLJSTAT_PRESENT = false) : ∃ t : State,
    exec .lecternDetect s = .next t ∧ t.on fLJSTAT_PRESENT = true ∧ t.on fLJSTAT_PLUG = true ∧
      t.fld fWAKESRC_SRC = s.fld fWAKESRC_SRC ||| 32 ∧ s.besidesAll t := by
  let u := (s.setFld fLJSTAT_PRESENT 1).setFld fLJSTAT_PLUG 1
  have hst : s.slp.st ≠ .off := by
    simp only [State.awake, Bool.and_eq_true, decide_eq_true_eq] at h
    rw [h.1]
    decide
  have hwake : u.wake 5 = u.setFld fWAKESRC_SRC (u.fld fWAKESRC_SRC ||| 2 ^ 5) := State.wake_awake u 5 h
  have hsrc : u.fld fWAKESRC_SRC = s.fld fWAKESRC_SRC := by
    rw [State.fld_setFld_other _ _ _ _ (by decide), State.fld_setFld_other _ _ _ _ (by decide)]
  refine ⟨u.wake 5, ?run, ?present, ?plug, ?source, by rw [hwake]; exact s.besidesAll_regs _⟩
  case run =>
    show execLecternDetect s = _
    rw [execLecternDetect, if_pos (by simp [hj, hp]), State.wakeOff, if_neg hst]
    rfl
  case present =>
    rw [hwake, on_setFld_other _ _ _ _ (by decide), on_setFld_other _ _ _ _ (by decide)]
    exact on_setFld_one _ _ (by decide) (by decide)
  case plug =>
    rw [hwake, on_setFld_other _ _ _ _ (by decide)]
    exact on_setFld_one _ _ (by decide) (by decide)
  case source =>
    rw [hwake, fld_setFld_latch u fWAKESRC_SRC (by decide) (by decide), hsrc]
    rfl

theorem lecternRemove_ends (s : State) (hj : s.hasJack = true) (hp : s.on fLJSTAT_PRESENT = true) (hr : s.on fBOOTSTAT_RECOV = false) :
    ∃ t : State, exec .lecternRemove s = .next t ∧ t.on fLJSTAT_PRESENT = false ∧ t.on fLJSTAT_UNPLUG = true ∧ t.node.session = false ∧
      t.node.inbox = s.node.inbox.filter (fun d => d.path != .lectern) ∧ s.besidesAll { t with node := s.node } ∧
      (s.role = .loop → t.on fLINEADDR_VALID = false) := by
  let u := (s.setFld fLJSTAT_PRESENT 0).setFld fLJSTAT_UNPLUG 1
  have hnode := sessionEnd_node u
  refine ⟨u.sessionEnd, ?run, ?present, ?unplug, by rw [hnode]; rfl, by rw [hnode]; rfl,
    State.besidesAll_trans (s.besidesAll_regs _) (sessionEnd_besides u), sessionEnd_loop u⟩
  case run =>
    show execLecternRemove s = _
    rw [execLecternRemove, if_pos (by simp [hj, hp])]
    exact congrArg Host.Outcome.next (if_neg (by simp [hr]))
  case present =>
    rw [on_of_fld (fld_sessionEnd u _ (by decide)), on_setFld_other _ _ _ _ (by decide)]
    exact on_setFld_zero _ _ (by decide) (by decide)
  case unplug =>
    rw [on_of_fld (fld_sessionEnd u _ (by decide))]
    exact on_setFld_one _ _ (by decide) (by decide)

theorem ljbOvervoltage_ends (s : State) (hj : s.hasJack = true) : ∃ t : State, exec .ljbOvervoltage s = .next t ∧
    t.on fLJSTAT_OV = true ∧ t.on fLJSTAT_OVF = true ∧ t.node.session = false ∧ s.besidesAll { t with node := s.node } := by
  let u := (s.setFld fLJSTAT_OV 1).setFld fLJSTAT_OVF 1
  refine ⟨u.sessionEnd, ?run, ?ov, ?ovf, by rw [sessionEnd_node u]; rfl,
    State.besidesAll_trans (s.besidesAll_regs _) (sessionEnd_besides u)⟩
  case run =>
    show execLjbOvervoltage s = _
    rw [execLjbOvervoltage, if_pos hj]
    rfl
  case ov =>
    rw [on_of_fld (fld_sessionEnd u _ (by decide)), on_setFld_other _ _ _ _ (by decide)]
    exact on_setFld_one _ _ (by decide) (by decide)
  case ovf =>
    rw [on_of_fld (fld_sessionEnd u _ (by decide))]
    exact on_setFld_one _ _ (by decide) (by decide)

theorem jack_absent (s : State) (hj : s.hasJack = false) :
    exec .lecternDetect s = .next s ∧ exec .lecternRemove s = .next s ∧ exec .ljbOvervoltage s = .next s := by
  refine ⟨?detect, ?remove, ?overvoltage⟩
  case detect => show execLecternDetect s = _; simp [execLecternDetect, hj]
  case remove => show execLecternRemove s = _; simp [execLecternRemove, hj]
  case overvoltage => show execLjbOvervoltage s = _; simp [execLjbOvervoltage, hj]

/-- Settles O43, one lemma for each event of the attachment and of the jack. -/
theorem attachments : Obligations.Attachments := by
  unfold Obligations.Attachments
  intro s stuck h
  exact ⟨jabberCut_first s stuck, jabberCut_third s stuck, attachment_absent s stuck, polchg_lineDown s h, lecternDetect_plugged s h,
    lecternRemove_ends s, ljbOvervoltage_ends s, jack_absent s, rfl⟩

end Sys2Proof.Proofs
end

section
/-! PROOF. What SLEEP_POLICY writes of WAKEEN (R83, R94, Table 4.11), and the refutation of O50. -/

namespace Sys2Proof.Proofs

open Sys2Proof Sys2Proof.Machine

/-! ### Read-only fields -/

/-- The bits of a register that a write can change (R4). -/
def writeMask (r : RegSpec) : Nat := r.rw ||| r.srw ||| (r.w1c ||| r.srwW1c) ||| r.w1s

/-- A write leaves a field that lies outside the register's writable bits alone. -/
theorem fld_plainWrite_readOnly (s : State) (v : Word) {a : Nat} {r : RegSpec} {f : Fld} (hr : specOf a = some r) (hf : f.addr = a)
    (hro : ∀ j < f.w, (writeMask r).testBit (f.lo + j) = false) : (s.plainWrite a v).fld f = s.fld f := by
  simp only [State.plainWrite, hr, State.fld, hf, State.reg_setReg_same]
  apply Nat.eq_of_testBit_eq
  intro j
  rw [fldOf_bit, fldOf_bit]
  by_cases hj : j < f.w
  case neg => simp [hj]
  case pos =>
    have hmask := hro j hj
    simp only [writeMask, Nat.testBit_or, Bool.or_eq_false_iff] at hmask
    obtain ⟨⟨⟨hrw, hsrw⟩, hw1c, hsrwW1c⟩, hw1s⟩ := hmask
    simp only [BitVec.getLsbD_or, BitVec.getLsbD_and, BitVec.getLsbD_not, BitVec.getLsbD_ofNat, Nat.testBit_or, hrw, hsrw, hw1c,
      hsrwW1c, hw1s, Bool.or_false, Bool.and_false, Bool.not_false, Bool.and_true]
    cases hbit : (s.reg a).getLsbD (f.lo + j) with
    | false => rfl
    | true => simp [BitVec.lt_of_getLsbD hbit]

theorem specOf_wakeen : specOf rWAKEEN = some ⟨0x4000400C, 1, 0, 0x179F, 0, 0, 0, 0, 0, 0⟩ := by decide +kernel

theorem slpWrite_wakeen (s : State) (v : Word) : s.slpWrite rWAKEEN v = s.plainWrite rWAKEEN v := by
  rw [State.slpWrite, if_neg (by decide), if_neg (by decide), if_neg (by decide), if_neg (by decide)]

theorem slpWrite_wakeen_rst (s : State) (v : Word) : (s.slpWrite rWAKEEN v).rst = s.rst := by
  rw [slpWrite_wakeen, State.plainWrite, specOf_wakeen, State.setReg_rst]

/-- PWREV is always enabled: no write of WAKEEN changes it (Table 4.11). -/
theorem slpWrite_wakeen_pwrev (s : State) (v : Word) : (s.slpWrite rWAKEEN v).on fWAKEEN_PWREV = s.on fWAKEEN_PWREV := by
  rw [slpWrite_wakeen]
  exact on_of_fld (fld_plainWrite_readOnly s v specOf_wakeen rfl (by decide))

/-! ### Settings of the record -/

/-- Storing a setting leaves the registers alone (R132). -/
theorem cfgStore_regs (s : State) (item v : Nat) : (s.cfgStore item v).regs = s.regs := by
  unfold State.cfgStore State.cfgWriteNow
  split
  · rfl
  · dsimp only
    split <;> rfl

/-- A setting stored at once leaves nothing waiting. -/
theorem cfgStore_idle {s : State} (item v : Nat) (h : s.cfgBusy = false) : (s.cfgStore item v).cfgBusy = false := by
  have hput (t : State) (c : CfgCopy) : (t.putSpare c).cfgBusy = t.cfgBusy := by
    unfold State.putSpare State.cfgBusy
    dsimp only
    split <;> rfl
  have hswitch (body : List (Nat × Byte)) : (s.cfgSwitch body).cfgBusy = false := (hput s _).trans h
  rw [State.cfgStore, if_neg (by simp [h]), State.cfgWriteNow]
  dsimp only
  split <;> exact hswitch _

/-! ### SLEEP_POLICY -/

/-- The part with WAKEEN written and the policy taken, before both are stored (R83). -/
def policyTaken (s : State) (target : BitVec 3) (v : Word) : State :=
  { s.slpWrite rWAKEEN v with slp := { (s.slpWrite rWAKEEN v).slp with policy := target.toNat } }

theorem policyTaken_cfgBusy (s : State) (target : BitVec 3) (v : Word) : (policyTaken s target v).cfgBusy = s.cfgBusy := by
  simp only [State.cfgBusy, policyTaken, slpWrite_wakeen_rst]

/-- What SLEEP_POLICY leaves: the policy and WAKEEN taken, and both stored in the record (R83, R132). -/
def policyStored (s : State) (target : BitVec 3) (v : Word) : State :=
  ((policyTaken s target v).cfgStore itemPolicy target.toNat).cfgStore itemWakeen v.toNat

theorem policyStored_pwrev (s : State) (target : BitVec 3) (v : Word) :
    (policyStored s target v).on fWAKEEN_PWREV = s.on fWAKEEN_PWREV := by
  have hregs : (policyStored s target v).regs = (s.slpWrite rWAKEEN v).regs := by
    rw [policyStored, cfgStore_regs, cfgStore_regs, policyTaken]
  rw [on_of_fld (fld_of_regs hregs _), slpWrite_wakeen_pwrev]

/-- A Cell may use every state (Table 4.2). -/
theorem stateInRole_cell (v : Nat) : (targetOf v).all (stateInRole .cell) = true := by
  unfold targetOf
  split <;> rfl

theorem sleepPolicy_stores {s : State} {d : Desc} {target : BitVec 3} (v : Word) (h : s.ready d = true) (hc : s.role = .cell)
    (hpos : 0 < target.toNat) (hle : target.toNat ≤ 4) (hb : s.cfgBusy = false) :
    exec (.sleepPolicy d target v) s = .next ((policyStored s target v).complete d stOK 0 []) := by
  have hne : target ≠ 0 := by rintro rfl; exact absurd hpos (by decide)
  have hidle : (policyStored s target v).cfgBusy = false :=
    cfgStore_idle _ _ (cfgStore_idle _ _ ((policyTaken_cfgBusy s target v).trans hb))
  refine congrArg Host.Outcome.next (runDesc_done h ?_)
  have hinRange : ¬ (decide (target = 0) || decide (target.toNat > 4)) = true := by
    rw [decide_eq_false hne, decide_eq_false (by omega)]
    decide
  rw [if_neg hinRange, if_neg (by simp [hc, stateInRole_cell])]
  show (policyStored s target v).cfgDone d stOK 0 = _
  rw [State.cfgDone, if_neg (by simp [hidle])]

/-! ### The counterexample -/

/-- A Cell that has booted, its registers as reset leaves them: PWREV reads 1. -/
def bootedCell : State :=
  { State.reset with latched := true, rst := { State.reset.rst with hold := false, booted := true } }

/-- A SLEEP_POLICY from the walk. -/
def policyDesc : Desc := ⟨.walk, 0, 0, 0, 0x07 :: List.replicate 63 0⟩

theorem bootedCell_ready : bootedCell.ready policyDesc = true := by decide +kernel

theorem bootedCell_pwrev : bootedCell.on fWAKEEN_PWREV = true := by decide +kernel

/-- Refutes O50: its clause on SLEEP_POLICY makes WAKEEN.PWREV follow bit 6 of the WAKEEN it is given, but the bit is read-only and always 1
(Table 4.11). A Cell given the WAKEEN of the example of chapter 4, 0x15, completes OK with PWREV still 1. -/
theorem not_sleep : ¬ Obligations.Sleep := by
  unfold Obligations.Sleep
  intro h
  obtain ⟨-, -, -, -, -, -, -, -, -, -, -, -, -, -, -, -, -, -, -, -, policy, -⟩ :=
    h bootedCell ⟨.decani, false, 0⟩ policyDesc 0 0 0 1 false false 0 0x15
  obtain ⟨t, hrun, -, -, hpwrev, -, -⟩ := policy bootedCell_ready rfl (by decide) (by decide) rfl
  let u := policyStored bootedCell 1 0x15
  have hstores : exec (.sleepPolicy policyDesc 1 0x15) bootedCell = .next (u.complete policyDesc stOK 0 []) :=
    sleepPolicy_stores 0x15 bootedCell_ready rfl (by decide) (by decide) rfl
  have hsame : t.complete policyDesc stOK 0 [] = u.complete policyDesc stOK 0 [] := Host.Outcome.next.inj (hrun.symm.trans hstores)
  have hregs : t.regs = u.regs := by
    rw [← (State.complete_besides_node t policyDesc stOK 0 [] rfl).1, hsame, (State.complete_besides_node u policyDesc stOK 0 [] rfl).1]
  have hone : t.on fWAKEEN_PWREV = true := by
    rw [on_of_fld (fld_of_regs hregs _), policyStored_pwrev, bootedCell_pwrev]
  exact absurd (hone.symm.trans hpwrev) (by decide)

end Sys2Proof.Proofs
end

section
/-! PROOF. What the clocks' events share: plain writes of a register (R4), a frame for what happens beside the clocks, the safe state
(R112, R113) and a wake of CLKFAIL (R79, R111). -/

namespace Sys2Proof.Proofs

open Sys2Proof Sys2Proof.Machine

/-! ### Plain writes of a register -/

theorem setReg_eq_setFld (s : State) (a : Nat) (v : Word) : s.setReg a v = s.setFld (wholeReg a) v.toNat := by
  have hput (w : Word) : putFld w (wholeReg a) v.toNat = v := by
    apply BitVec.eq_of_getLsbD_eq
    intro j hj
    rw [putFld_bit, if_pos ⟨Nat.zero_le j, by simpa [wholeReg] using hj⟩]
    simp [wholeReg, hj, BitVec.testBit_toNat]
  rw [State.setFld, hput]
  rfl

theorem sets_writes (s : State) (q : List (Fld × Nat)) : Writes (q.map Prod.fst) s (s.sets q) :=
  ⟨State.sets_eq s q, fun g hg => State.fld_sets_other s q g (by simpa using hg)⟩

theorem Writes.mono {l m : List Fld} {s t : State} (h : Writes l s t) (hlm : l ⊆ m) : Writes m s t :=
  ⟨h.regs, fun g hg => h.kept g (List.all_eq_true.mpr fun f hf => List.all_eq_true.mp hg f (hlm hf))⟩

/-- A plain write changes its register alone. -/
theorem plainWrite_writes {l : List Fld} (s : State) {a : Nat} (v : Word) (hl : wholeReg a ∈ l) : Writes l s (s.plainWrite a v) := by
  unfold State.plainWrite
  split
  · exact .refl l s
  · dsimp only
    rw [setReg_eq_setFld]
    exact (Writes.refl l s).setFld hl _

/-- A plain write stores a field of read-write bits. -/
theorem fld_plainWrite_stored (s : State) (v : Word) {a : Nat} {r : RegSpec} {f : Fld} (hr : specOf a = some r) (hf : f.addr = a)
    (hrw : ∀ j < f.w, (r.rw ||| r.srw).testBit (f.lo + j) = true ∧ (r.w1c ||| r.srwW1c).testBit (f.lo + j) = false ∧
      r.w1s.testBit (f.lo + j) = false) : (s.plainWrite a v).fld f = fldOf v f := by
  simp only [State.plainWrite, hr, State.fld, hf, State.reg_setReg_same]
  apply Nat.eq_of_testBit_eq
  intro j
  rw [fldOf_bit, fldOf_bit]
  by_cases hj : j < f.w
  case neg => simp [hj]
  case pos =>
    obtain ⟨hstore, hclear, hset⟩ := hrw j hj
    by_cases hb : f.lo + j < 32
    · simp only [BitVec.getLsbD_or, BitVec.getLsbD_and, BitVec.getLsbD_not, BitVec.getLsbD_ofNat, hstore, hclear, hset, hb, decide_true,
        Bool.and_true, Bool.and_false, Bool.not_true, Bool.not_false, Bool.or_false, Bool.false_or]
    · rw [BitVec.getLsbD_of_ge _ _ (Nat.le_of_not_lt hb), BitVec.getLsbD_of_ge _ _ (Nat.le_of_not_lt hb)]

theorem Writes.raiseIf {l : List Fld} {s t : State} {f : Fld} {c : Prop} [Decidable c] (h : Writes l s t) (hf : f ∈ l) :
    Writes l s (if c then t.raise [f] else t) := .ite (h.setFld hf 1) h

theorem syncNow_writes {l : List Fld} (s : State) (hl : fLPSTAT_SYNC ∈ l) : Writes l s s.syncNow := (Writes.refl l s).setFld hl _

/-! ### What happens beside the clocks -/

theorem on_setClk (s : State) (c : Clk) (g : Fld) : ({ s with clk := c } : State).on g = s.on g := rfl

theorem setClk_slp (s : State) (c : Clk) : ({ s with clk := c } : State).slp = s.slp := rfl

theorem setClk_chor (s : State) (c : Clk) : ({ s with clk := c } : State).chor = s.chor := rfl

theorem besidesAll_setClk (s : State) (c : Clk) : s.besidesAll { s with clk := c } :=
  ⟨⟨rfl, rfl, rfl, rfl, rfl, rfl⟩, rfl, rfl, rfl, rfl, rfl, rfl⟩

/-- From `s` to `t` the clocks, the power state, the reset hold, the role and the queue stay, and so does a field apart
from those of `l`. -/
structure KeepsClocks (l : List Fld) (s t : State) : Prop where
  kept : ∀ g, l.all (fun f => f.other g) = true → t.fld g = s.fld g
  clk : t.clk = s.clk
  slp : t.slp = s.slp
  hold : t.rst.hold = s.rst.hold
  role : t.role = s.role
  pending : t.pending = s.pending

namespace KeepsClocks

variable {l m : List Fld} {s t u : State}

theorem refl (l : List Fld) (s : State) : KeepsClocks l s s := ⟨fun _ _ => rfl, rfl, rfl, rfl, rfl, rfl⟩

theorem trans (h : KeepsClocks l s t) (k : KeepsClocks l t u) : KeepsClocks l s u :=
  ⟨fun g hg => (k.kept g hg).trans (h.kept g hg), k.clk.trans h.clk, k.slp.trans h.slp, k.hold.trans h.hold, k.role.trans h.role,
    k.pending.trans h.pending⟩

theorem ofWrites (h : Writes l s t) : KeepsClocks l s t := by
  refine ⟨h.kept, ?_, ?_, ?_, ?_, ?_⟩ <;> rw [h.regs]

theorem mono (h : KeepsClocks l s t) (hlm : l ⊆ m) : KeepsClocks m s t :=
  ⟨fun g hg => h.kept g (List.all_eq_true.mpr fun f hf => List.all_eq_true.mp hg f (hlm hf)), h.clk, h.slp, h.hold, h.role, h.pending⟩

theorem ite {c : Prop} [Decidable c] (h : KeepsClocks l s t) (k : KeepsClocks l s u) : KeepsClocks l s (if c then t else u) := by
  split
  · exact h
  · exact k

theorem on (h : KeepsClocks l s t) {g : Fld} (hg : l.all (fun f => f.other g) = true) : t.on g = s.on g := on_of_fld (h.kept g hg)

theorem awake (h : KeepsClocks l s t) (hs : s.awake = true) : t.awake = true := by
  rw [State.awake, h.slp]
  exact hs

end KeepsClocks

/-- A loop event in Loop role goes into a log and up the line (R432). -/
theorem loopEvent_keeps (l : List Fld) {s : State} (hr : s.role ≠ .chapter) (code : Nat) (data : List Byte) :
    KeepsClocks l s (s.loopEvent code data) := by
  unfold State.loopEvent
  refine .ite ?_ ⟨fun _ _ => rfl, rfl, rfl, rfl, rfl, rfl⟩
  rw [State.event_node (s.logAppend 0 _).1 _ _ hr]
  exact ⟨fun _ _ => rfl, rfl, rfl, rfl, rfl, rfl⟩

/-- The fields in which the loop output shows its mode (R424). -/
def loopFields : List Fld := [fLOOPNOW_MODE, fLOOPNOW_CODE, fLOOPSTAT_FORCED, fLOOPFLAG_SATLO, fLOOPFLAG_SATHI, fLOOPFLAG_FORCED]

theorem loopSync_keeps (s : State) (cause : Option Nat) : KeepsClocks loopFields s (s.loopSync cause) := by
  unfold State.loopSync
  split
  case isTrue => exact .refl _ s
  case isFalse hrole =>
    have hloop : s.role = .loop := by simpa using hrole
    have hevent {t : State} (h : Writes loopFields s t) (code : Nat) (data : List Byte) :
        KeepsClocks loopFields s (t.loopEvent code data) := by
      have ht := KeepsClocks.ofWrites h
      exact ht.trans (loopEvent_keeps _ (by rw [ht.role, hloop]; decide) code data)
    dsimp only
    generalize (if decide (s.loopNow.1 = 3) && s.fld fLOOPNOW_MODE != 3 then some 5 else cause) = c
    cases c
    all_goals
      dsimp only
      refine .ite (hevent ?_ _ _) (.ofWrites ?_)
      all_goals
        refine .raiseIf (.raiseIf (.raiseIf ?_ (by decide)) (by decide)) (by decide)
        exact (sets_writes s _).mono (by simp [loopFields])

/-- The fields an abandoned shot of Font clears (R338). -/
def shotFields : List Fld := [fSBWRES_RESERVED 2, fSBWFILL_FILLED 2, fFILL 2, fFONTSTAT_SHOT]

theorem fontAbandon_keeps (s : State) : KeepsClocks shotFields s s.fontAbandon := by
  have hret : Writes shotFields s ((s.setFld (fSBWRES_RESERVED 2) 0).winSync 2) :=
    ((Writes.refl _ s).setFld (by decide) 0).trans ((sets_writes _ _).mono (by simp [shotFields]))
  have hidle (t : State) : KeepsClocks shotFields t t.fontIdle :=
    ⟨fun g hg => State.fld_setFld_other t _ g _ (List.all_eq_true.mp hg _ (by decide)), rfl, rfl, rfl, rfl, rfl⟩
  exact KeepsClocks.trans (.ite (.ofWrites hret) (.refl _ s)) (hidle _)

/-- The fields that show the output latch (R528). -/
def outputFields : List Fld := [fFOSTAT_LATCH, fFOSTAT_ON, fFOSTAT_HELD, fFOSTAT_SAFED, fFOSTAT_VFLDOK]

theorem foSync_writes (s : State) : Writes outputFields s s.foSync :=
  (sets_writes s _).mono (by simp [outputFields])

theorem foRelease_keeps (s : State) : KeepsClocks outputFields s s.foRelease := by
  have hlatch (f : Field → Field) : KeepsClocks outputFields s (s.fioSet f) := ⟨fun _ _ => rfl, rfl, rfl, rfl, rfl, rfl⟩
  exact .ite ((hlatch _).trans (.ofWrites (foSync_writes _))) (.refl _ s)

/-! ### The safe state -/

/-- The fields a forced safe state writes beside FORCED and REMAIN. -/
def quietFields : List Fld := shotFields ++ loopFields

/-- The safe state in the clocks' own registers (R112). -/
def forcedClocks (s : State) : State :=
  { s.sets [(fCLKSTAT_FORCED, 1), (fCLKSAFE_REMAIN, 128)] with clk := { s.clk with failTimer := true } }

theorem safeForce_keeps (s : State) : KeepsClocks quietFields (forcedClocks s) s.safeForce := by
  have hshot : KeepsClocks quietFields (forcedClocks s) (if (forcedClocks s).on fFONTSTAT_RUN then (forcedClocks s).fontAbandon else forcedClocks s) :=
    .ite ((fontAbandon_keeps _).mono (List.subset_append_left _ _)) (.refl _ _)
  exact hshot.trans ((loopSync_keeps _ none).mono (List.subset_append_right _ _))

theorem fld_forcedClocks (s : State) (g : Fld) (h : [fCLKSTAT_FORCED, fCLKSAFE_REMAIN].all (fun f => f.other g) = true) :
    (forcedClocks s).fld g = s.fld g :=
  State.fld_sets_other s [(fCLKSTAT_FORCED, 1), (fCLKSAFE_REMAIN, 128)] g (by simpa using h)

/-- A failure that forces the safe state and fires CLKFAIL (R112): what it shows and what it leaves. -/
structure SafeAlarm (s t : State) : Prop where
  forced : t.on fCLKSTAT_FORCED = true
  remain : t.fld fCLKSAFE_REMAIN = 128
  clk : t.clk = { s.clk with failTimer := true }
  told : (t.fld fWAKESRC_SRC).testBit 13 = true
  kept : ∀ g, ([fCLKSTAT_FORCED, fCLKSAFE_REMAIN, fWAKESRC_SRC] ++ quietFields).all (fun f => f.other g) = true → t.fld g = s.fld g

theorem SafeAlarm.on {s t : State} (h : SafeAlarm s t) {g : Fld}
    (hg : ([fCLKSTAT_FORCED, fCLKSAFE_REMAIN, fWAKESRC_SRC] ++ quietFields).all (fun f => f.other g) = true) : t.on g = s.on g :=
  on_of_fld (h.kept g hg)

/-- CLKFAIL is source 13: while the part is awake it latches in WAKESRC (R79, R111). -/
theorem wake_clkfail {s : State} (h : s.awake = true) : ((s.wake 13).fld fWAKESRC_SRC).testBit 13 = true := by
  rw [State.wake_awake s 13 h, fld_setFld_latch s _ (by decide) (by decide), Nat.testBit_or, Nat.testBit_two_pow_self, Bool.or_true]

theorem safeForce_alarm {s : State} (h : s.awake = true) : SafeAlarm s (s.safeForce.wake 13) := by
  have hforce := safeForce_keeps s
  have hawake : s.safeForce.awake = true := hforce.awake h
  have hwake := wake_writes (l := [fWAKESRC_SRC]) hawake (List.mem_singleton_self _) 13
  refine ⟨?forced, ?remain, ?clk, wake_clkfail hawake, ?kept⟩
  case forced =>
    rw [hwake.on (by decide), hforce.on (by decide)]
    exact (on_setFld_other (s.setFld fCLKSTAT_FORCED 1) _ _ _ (by decide)).trans (on_setFld_one s _ (by decide) (by decide))
  case remain =>
    rw [hwake.kept _ (by decide), hforce.kept _ (by decide)]
    exact State.fld_setFld (s.setFld fCLKSTAT_FORCED 1) fCLKSAFE_REMAIN 128 (by decide)
  case clk => rw [hwake.regs]; exact hforce.clk
  case kept =>
    intro g hg
    simp only [List.all_append, List.all_cons, List.all_nil, Bool.and_true, Bool.and_eq_true] at hg
    obtain ⟨⟨hf, hr, hw⟩, hq⟩ := hg
    rw [hwake.kept g (by simpa using hw), hforce.kept g hq, fld_forcedClocks s g (by simp [hf, hr])]

/-- A release lifts the safe state and stops the clock-fail timer (R113). -/
theorem safeLift_spec (s : State) : s.safeLift.on fCLKSTAT_FORCED = false ∧ s.safeLift.clk.failTimer = false := by
  have hrel := foRelease_keeps { s.sets [(fCLKSTAT_FORCED, 0), (fCLKSAFE_REMAIN, 0)] with clk := { s.clk with failTimer := false } }
  have hall := (hrel.mono (List.subset_append_left _ loopFields)).trans ((loopSync_keeps _ none).mono (List.subset_append_right _ _))
  have hoff : s.safeLift.clk = { s.clk with failTimer := false } := hall.clk
  refine ⟨(hall.on (by decide)).trans ?_, by rw [hoff]⟩
  exact (on_setFld_other (s.setFld fCLKSTAT_FORCED 0) fCLKSAFE_REMAIN _ _ (by decide)).trans (on_setFld_zero s _ (by decide) (by decide))

end Sys2Proof.Proofs
end

section
/-! PROOF. A write of CLKCTL (R99, R104). -/

namespace Sys2Proof.Proofs

open Sys2Proof Sys2Proof.Machine

/-! ### Writes of the Sacristy -/

theorem specOf_clkctl : specOf rCLKCTL = some ⟨0x40005000, 1, 0, 0x7, 0, 0, 0, 0, 0, 0⟩ := by decide +kernel

theorem specOf_clksel : specOf rCLKSEL = some ⟨0x40005004, 1, 0, 0x3, 0, 0, 0, 0, 0, 0⟩ := by decide +kernel

theorem specOf_clksafe : specOf rCLKSAFE = some ⟨0x40005014, 1, 0, 0, 0, 0, 0x1, 0, 0, 0⟩ := by decide +kernel

theorem specOf_rtcseth : specOf rRTCSETH = some ⟨0x40001010, 1, 0, 0, 0, 0, 0, 0xFFFF, 0, 0x80000000⟩ := by decide +kernel

/-- The access codes let the Sacristy write every register there is as it asks (R4). -/
theorem vet_sacristy (s : State) {a : Nat} {r : RegSpec} (v : Word) (hr : specOf a = some r) :
    s.vet .sacristy a v = ⟨s, v, false, false⟩ := by
  simp [State.vet, hr]

/-- A write of the Sacristy to block 5 acts at once while no self-test slice runs (R110). -/
theorem clkBus_sacristy {s : State} (hrun : s.st.running = false) {a : Nat} {r : RegSpec} (v : Word) (hr : specOf a = some r) :
    s.clkBus .sacristy a v = s.clkWrite a v := by
  have hheld : s.sliceHolds a v = false := by simp [State.sliceHolds, hrun]
  simp only [State.clkBus, hheld, Bool.false_eq_true, if_false, vet_sacristy s v hr]

theorem clkBus_ctl {s : State} (hrun : s.st.running = false) (v : Word) : s.clkBus .sacristy rCLKCTL v = s.clkWriteCtl v :=
  (clkBus_sacristy hrun v specOf_clkctl).trans (if_pos rfl)

theorem clkBus_sel {s : State} (hrun : s.st.running = false) (v : Word) : s.clkBus .sacristy rCLKSEL v = s.clkWriteSel v :=
  (clkBus_sacristy hrun v specOf_clksel).trans ((if_neg (by decide)).trans (if_pos rfl))

/-! ### CLKCTL -/

theorem fldOf_putFld_one (w : Word) (f : Fld) (hw : 0 < f.w) (h : f.lo + f.w ≤ 32) : fldOf (putFld w f 1) f = 1 := by
  rw [fldOf_putFld w f 1 h, Nat.mod_eq_of_lt (Nat.one_lt_two_pow (by omega))]

theorem fldOf_putFld_zero (w : Word) (f : Fld) (h : f.lo + f.w ≤ 32) : fldOf (putFld w f 0) f = 0 := by
  rw [fldOf_putFld w f 0 h, Nat.zero_mod]

/-- Whether a write of CLKCTL asks for a start of the PLL. -/
def startsPll (s : State) (v : Word) : Bool := !s.on fCLKCTL_PLLEN && fldOf v fCLKCTL_PLLEN = 1

/-- The fields a write of CLKCTL can change. -/
def ctlFields : List Fld := [wholeReg rCLKCTL, fCLKCTL_PLLEN, fCLKFLAG_REFUSED, fCLKSTAT_PLLLOCK, fLPSTAT_SYNC, fCLKSTAT_HFOK]

/-- What a write of CLKCTL that R104 lets pass comes to (R99). -/
structure CtlTaken (s : State) (v : Word) (t : State) : Prop where
  pllEn : t.on fCLKCTL_PLLEN = (fldOf v fCLKCTL_PLLEN != 0 && (!startsPll s v || s.on fCLKSTAT_XTALOK))
  refused : startsPll s v = true → s.on fCLKSTAT_XTALOK = false → t.on fCLKFLAG_REFUSED = true
  hfEn : t.on fCLKCTL_HFEN = (fldOf v fCLKCTL_HFEN != 0)
  lock : t.on fCLKCTL_PLLEN = false → t.on fCLKSTAT_PLLLOCK = false
  hfOk : t.on fCLKCTL_HFEN = false → t.on fCLKSTAT_HFOK = false
  pllRun : t.clk.pllRun = t.on fCLKCTL_PLLEN
  kept : ∀ g, ctlFields.all (fun f => f.other g) = true → t.fld g = s.fld g
  besidesAll : s.besidesAll t

/-- CLKCTL as written, with a start that the crystal does not allow taken back (R99). -/
def ctlWritten (s : State) (v : Word) : State :=
  if startsPll s v && !s.on fCLKSTAT_XTALOK then ((s.plainWrite rCLKCTL v).setFld fCLKCTL_PLLEN 0).spireRefused
  else s.plainWrite rCLKCTL v

/-- A PLL that is not enabled is not locked (R104). -/
def lockFollows (s : State) : State := if s.on fCLKCTL_PLLEN then s else (s.setFld fCLKSTAT_PLLLOCK 0).syncNow

/-- An HF RC that is not enabled is not ready (R104). -/
def hfOkFollows (s : State) : State := if s.on fCLKCTL_HFEN then s else s.setFld fCLKSTAT_HFOK 0

theorem ctlWritten_writes (s : State) (v : Word) : Writes [wholeReg rCLKCTL, fCLKCTL_PLLEN, fCLKFLAG_REFUSED] s (ctlWritten s v) :=
  have hplain := plainWrite_writes s v (a := rCLKCTL) (List.mem_cons_self ..)
  .ite ((hplain.setFld (by decide) 0).setFld (by decide) 1) hplain

theorem lockFollows_writes (s : State) : Writes [fCLKSTAT_PLLLOCK, fLPSTAT_SYNC] s (lockFollows s) :=
  .ite (.refl _ s) (((Writes.refl _ s).setFld (by decide) 0).trans (syncNow_writes _ (by decide)))

theorem hfOkFollows_writes (s : State) : Writes [fCLKSTAT_HFOK] s (hfOkFollows s) :=
  .ite (.refl _ s) ((Writes.refl _ s).setFld (by decide) 0)

/-- The enables of CLKCTL read as written. -/
theorem on_plainWrite_ctl (s : State) (v : Word) {f : Fld} (hf : f = fCLKCTL_PLLEN ∨ f = fCLKCTL_HFEN) :
    (s.plainWrite rCLKCTL v).on f = (fldOf v f != 0) := by
  have hfld : (s.plainWrite rCLKCTL v).fld f = fldOf v f :=
    fld_plainWrite_stored s v specOf_clkctl (by rcases hf with rfl | rfl <;> rfl) (by rcases hf with rfl | rfl <;> decide)
  rw [State.on, hfld]

theorem ctlWritten_pllEn (s : State) (v : Word) :
    (ctlWritten s v).on fCLKCTL_PLLEN = (fldOf v fCLKCTL_PLLEN != 0 && (!startsPll s v || s.on fCLKSTAT_XTALOK)) := by
  unfold ctlWritten
  split
  case isTrue h =>
    simp only [Bool.and_eq_true, Bool.not_eq_true'] at h
    rw [h.1, h.2]
    simp only [Bool.not_true, Bool.or_self, Bool.and_false]
    exact (on_setFld_other _ fCLKFLAG_REFUSED _ 1 (by decide)).trans (on_setFld_zero _ _ (by decide) (by decide))
  case isFalse h =>
    rw [on_plainWrite_ctl s v (.inl rfl)]
    cases hs : startsPll s v <;> cases hx : s.on fCLKSTAT_XTALOK <;> simp_all

theorem ctlWritten_hfEn (s : State) (v : Word) : (ctlWritten s v).on fCLKCTL_HFEN = (fldOf v fCLKCTL_HFEN != 0) := by
  rw [← on_plainWrite_ctl s v (.inr rfl)]
  have hback : Writes [fCLKCTL_PLLEN, fCLKFLAG_REFUSED] (s.plainWrite rCLKCTL v) (ctlWritten s v) :=
    .ite (((Writes.refl _ _).setFld (by decide) 0).setFld (by decide) 1) (.refl _ _)
  exact hback.on (by decide)

theorem lockFollows_lock {s : State} (h : s.on fCLKCTL_PLLEN = false) : (lockFollows s).on fCLKSTAT_PLLLOCK = false := by
  rw [lockFollows, if_neg (by simp [h]), (syncNow_writes (l := [fLPSTAT_SYNC]) _ (by decide)).on (by decide)]
  exact on_setFld_zero s _ (by decide) (by decide)

theorem hfOkFollows_hfOk {s : State} (h : s.on fCLKCTL_HFEN = false) : (hfOkFollows s).on fCLKSTAT_HFOK = false := by
  rw [hfOkFollows, if_neg (by simp [h])]
  exact on_setFld_zero s _ (by decide) (by decide)

/-- The PLL runs as PLLEN says (R99). -/
def pllFollows (s : State) : State := { s with clk := { s.clk with pllRun := s.on fCLKCTL_PLLEN } }

theorem clkWriteCtl_eq {s : State} {v : Word} (h : s.ctlRefused v = false) :
    s.clkWriteCtl v = pllFollows (hfOkFollows (lockFollows (ctlWritten s v))) := by
  unfold State.clkWriteCtl pllFollows hfOkFollows lockFollows ctlWritten startsPll
  exact if_neg (by simp [h])

theorem on_pllFollows (s : State) (g : Fld) : (pllFollows s).on g = s.on g := on_setClk s _ g

theorem clkWriteCtl_taken {s : State} {v : Word} (h : s.ctlRefused v = false) : CtlTaken s v (s.clkWriteCtl v) := by
  rw [clkWriteCtl_eq h]
  generalize ht : ctlWritten s v = t
  have hlock := lockFollows_writes t
  have hhf := hfOkFollows_writes (lockFollows t)
  have hafter : Writes [fCLKSTAT_PLLLOCK, fLPSTAT_SYNC, fCLKSTAT_HFOK] t (hfOkFollows (lockFollows t)) :=
    (hlock.mono (by decide)).trans (hhf.mono (by decide))
  have hall : Writes ctlFields s (hfOkFollows (lockFollows t)) :=
    ((ht ▸ ctlWritten_writes s v).mono (by decide)).trans (hafter.mono (by decide))
  have hpll : (hfOkFollows (lockFollows t)).on fCLKCTL_PLLEN = t.on fCLKCTL_PLLEN := hafter.on (by decide)
  have hhfEn : (hfOkFollows (lockFollows t)).on fCLKCTL_HFEN = t.on fCLKCTL_HFEN := hafter.on (by decide)
  refine ⟨?pllEn, ?refused, ?hfEn, ?lock, ?hfOk, (on_pllFollows _ _).symm, hall.kept,
    State.besidesAll_trans hall.besidesAll (besidesAll_setClk _ _)⟩
  all_goals simp only [on_pllFollows, hpll, hhfEn]
  case pllEn => rw [← ht, ctlWritten_pllEn]
  case refused =>
    intro hs hx
    rw [hafter.on (by decide), ← ht, ctlWritten, if_pos (by simp [hs, hx])]
    exact on_setFld_one _ _ (by decide) (by decide)
  case hfEn => rw [← ht, ctlWritten_hfEn]
  case lock => exact fun hoff => (hhf.on (by decide)).trans (lockFollows_lock hoff)
  case hfOk => exact fun hoff => hfOkFollows_hfOk ((hlock.on (by decide)).trans hoff)

/-- A write that keeps PLLEN and does not clear HFEN of a running HF RC is never refused (R104). -/
theorem ctlRefused_start (s : State) {v : Word} (hp : fldOf v fCLKCTL_PLLEN = 1)
    (hh : s.on fCLKCTL_HFEN = true → fldOf v fCLKCTL_HFEN ≠ 0) : s.ctlRefused v = false := by
  cases hon : s.on fCLKCTL_HFEN with
  | false => simp [State.ctlRefused, hp, hon]
  | true => simp [State.ctlRefused, hp, hh hon]

/-- CLKCTL with PLLEN put to a value. -/
def pllPut (s : State) (b : Nat) : Word := putFld (s.reg rCLKCTL) fCLKCTL_PLLEN b

theorem fldOf_pllPut_hfEn (s : State) (b : Nat) : fldOf (pllPut s b) fCLKCTL_HFEN = s.fld fCLKCTL_HFEN :=
  fldOf_putFld_apart _ _ _ _ (by decide)

theorem fldOf_pllPut_one (s : State) : fldOf (pllPut s 1) fCLKCTL_PLLEN = 1 := fldOf_putFld_one _ _ (by decide) (by decide)

/-- PLLEN written 1 is never refused under R104 and keeps HFEN. -/
theorem pllStart_taken (s : State) : CtlTaken s (pllPut s 1) (s.clkWriteCtl (pllPut s 1)) :=
  clkWriteCtl_taken (ctlRefused_start s (fldOf_pllPut_one s) (by
    rw [fldOf_pllPut_hfEn]
    exact fun h => by simpa [State.on] using h))

/-- With the crystal ready the PLL starts (R99). -/
theorem pllStart_pllEn {s : State} (hx : s.on fCLKSTAT_XTALOK = true) : (s.clkWriteCtl (pllPut s 1)).on fCLKCTL_PLLEN = true := by
  rw [(pllStart_taken s).pllEn, fldOf_pllPut_one, hx]
  simp

end Sys2Proof.Proofs
end

section
/-! PROOF. Line time, and O28 (R98, R106, R107). -/

namespace Sys2Proof.Proofs

open Sys2Proof Sys2Proof.Machine

/-! ### Ticks -/

/-- `Calm s`: no block waits for a time (`State.untimed`), by block. -/
structure Calm (s : State) : Prop where
  sfe : s.sfeArmed = false
  font : s.font.due = none
  motion : s.mot.mode = 0
  start : s.on fCHSTARTH_ARM = false
  ringer : ∀ n ∈ List.range 8, (s.eng n).due = none
  chorister : ∀ n ∈ List.range 8, (s.che n).stall = none

theorem calm_of_untimed {s : State} (h : s.untimed = true) : Calm s := by
  simp only [State.untimed, Bool.and_eq_true, Bool.not_eq_true', Option.isNone_iff_eq_none, decide_eq_true_eq, List.all_eq_true] at h
  obtain ⟨⟨⟨⟨hsfe, hfont⟩, hmotion⟩, hstart⟩, heng⟩ := h
  exact ⟨hsfe, hfont, hmotion, hstart, fun n hn => (heng n hn).1, fun n hn => (heng n hn).2⟩

/-- The fields in which a block that waits for a time shows it. -/
def timedFields : List Fld := [fSFETH_ARM, fSFECTL_EN, fSFECTL_TRIG, fCHSTARTH_ARM]

theorem Calm.of_writes {l : List Fld} {s t : State} (h : Calm s) (hw : Writes l s t)
    (hl : timedFields.all (fun g => l.all (fun f => f.other g)) = true) : Calm t := by
  simp only [timedFields, List.all_cons, List.all_nil, Bool.and_true, Bool.and_eq_true] at hl
  obtain ⟨harm, hen, htrig, hstart⟩ := hl
  have hsfe : t.sfeArmed = s.sfeArmed := by
    simp only [State.sfeArmed, State.trigGo, hw.on harm, hw.on hen, hw.kept _ htrig]
  refine ⟨hsfe.trans h.sfe, ?_, ?_, (hw.on hstart).trans h.start, ?_, ?_⟩
  · rw [hw.regs]; exact h.font
  · rw [hw.regs]; exact h.motion
  · rw [hw.regs]; exact h.ringer
  · rw [hw.regs]; exact h.chorister

/-- Where the clock stands does not matter. -/
theorem Calm.setClk {s : State} (h : Calm s) (c : Clk) : Calm { s with clk := c } :=
  ⟨h.sfe, h.font, h.motion, h.start, h.ringer, h.chorister⟩

theorem foldl_fixed_of_mem {α β : Type} {f : β → α → β} {b : β} {l : List α} (h : ∀ a ∈ l, f b a = b) : l.foldl f b = b := by
  induction l with
  | nil => rfl
  | cons a l ih =>
    rw [List.foldl_cons, h a (List.mem_cons_self ..)]
    exact ih fun x hx => h x (List.mem_cons_of_mem _ hx)

/-- With no engine stalled, no WAIT TIME is pending (R509). -/
theorem chTimeTests_calm {s : State} (h : ∀ n ∈ List.range 8, (s.che n).stall = none) : s.chTimeTests = s :=
  foldl_fixed_of_mem fun n hn => by rw [State.chTimeTest, h n hn]

/-- At a tick ACTCNT alone follows line time (R502). -/
theorem actTick_calm {s : State} (h : ∀ n ∈ List.range 8, (s.che n).stall = none) :
    ∃ act still, s.actTick = { s with chor := { s.chor with act := act, still := still } } := by
  unfold State.actTick
  dsimp only
  split
  · exact ⟨_, _, rfl⟩
  · split
    · exact ⟨_, _, chTimeTests_calm h⟩
    · exact ⟨_, _, rfl⟩

theorem tick1_calm {s : State} (h : Calm s) : ∃ act still, s.tick1 =
    { s with clk := { s.clk with line := (s.clk.line + 1) % 2 ^ 48 }, chor := { s.chor with act := act, still := still } } :=
  actTick_calm (s := { s with clk := { s.clk with line := (s.clk.line + 1) % 2 ^ 48 } }) h.chorister

/-- What a tick of line time leaves: one more, and the fraction as given (R106). -/
structure Ticked (s : State) (hacc : Nat) (t : State) : Prop where
  line : t.clk.line = (s.clk.line + 1) % 2 ^ 48
  hacc : t.clk.hacc = hacc
  besidesAll : s.besidesAll t

theorem tick1_ticked {s : State} (h : Calm s) (f : Nat) : Ticked s f ({ s with clk := { s.clk with hacc := f } } : State).tick1 := by
  obtain ⟨act, still, heq⟩ := tick1_calm (h.setClk { s.clk with hacc := f })
  rw [heq]
  exact ⟨rfl, rfl, ⟨rfl, rfl, rfl, rfl, rfl, rfl⟩, rfl, rfl, rfl, rfl, rfl, rfl⟩

/-! ### LINE_TIME_TICK -/

theorem awake_not_off {s : State} (h : s.awake = true) : s.slp.st ≠ .off := by
  simp only [State.awake, Bool.and_eq_true, decide_eq_true_eq] at h
  rw [h.1]
  decide

section
variable {s : State} (ha : s.awake = true) (hset : s.on fRTCSTAT_SETPEND = false)
include ha hset

theorem lineTimeTick_crystal (hx : s.on fCLKSTAT_XTALOK = true) : exec .lineTimeTick s = .next s.tick1 := by
  show execLineTimeTick s = _
  rw [execLineTimeTick, if_neg (awake_not_off ha), if_neg (by simp [hset]), if_pos hx]

theorem lineTimeTick_holdover (hx : s.on fCLKSTAT_XTALOK = false) : exec .lineTimeTick s = .next s.holdTick := by
  show execLineTimeTick s = _
  rw [execLineTimeTick, if_neg (awake_not_off ha), if_neg (by simp [hset]), if_neg (by simp [hx])]

end

/-- The fractional ticks of one LF RC cycle, in units of 1/8,192,000 (R106). -/
def holdStep (s : State) : Nat := if s.on fCLKRCCAL_VALID then s.fld fCLKRCCAL_COUNT * 125 else 8388608

theorem holdTick_eq (s : State) : s.holdTick =
    ({ s with clk := { s.clk with hacc := (s.clk.hacc + holdStep s) % 8192000 } } : State).ticks ((s.clk.hacc + holdStep s) / 8192000) := by
  unfold State.holdTick holdStep
  rfl

theorem ticks_zero (s : State) : s.ticks 0 = s := by rw [State.ticks, Nat.repeat]

theorem ticks_one (s : State) : s.ticks 1 = s.tick1 := by
  rw [State.ticks, Nat.repeat, Nat.repeat]

/-- A cycle in holdover that completes one tick leaves the rest in the accumulator. -/
theorem holdTick_one {s : State} {rest : Nat} (hacc : s.clk.hacc = 0) (hstep : holdStep s = 8192000 + rest) (hrest : rest < 8192000) :
    s.holdTick = ({ s with clk := { s.clk with hacc := rest } } : State).tick1 := by
  have hsum : s.clk.hacc + holdStep s = 8192000 + rest := by omega
  have hmod : (8192000 + rest) % 8192000 = rest := by omega
  have hdiv : (8192000 + rest) / 8192000 = 1 := by omega
  rw [holdTick_eq, hsum, hmod, hdiv, ticks_one]

/-! ### Sets of the RTC -/

/-- What setting the count to a time comes to (R107). -/
structure LineSet (s : State) (time : Nat) (t : State) : Prop where
  line : t.clk.line % 2 ^ 48 = time
  kept : ∀ g, fRTCFLAG_STEP.other g = true → t.fld g = s.fld g
  besidesAll : s.besidesAll t

/-- With no scheduled time to test, a step of line time moves ACTCNT alone (R410, R447, R469, R491, R502, R509). -/
theorem retests_calm {s : State} (h : Calm s) : ∃ act still, (((s.actStep.sfeRetest).fontRetest).motRetest).ringRetest =
    { s with chor := { s.chor with act := act, still := still } } := by
  let t : State := { s with chor := { s.chor with act := s.now * 750 % 2 ^ 48, still := 0 } }
  have hstart : t.on fCHSTARTH_ARM = false := h.start
  have hsfe : t.sfeArmed = false := h.sfe
  have hfont : t.font.due = none := h.font
  have hmotion : t.mot.mode = 0 := h.motion
  have hact : s.actStep = t := by
    show t.chTimeTests.chStartTest = t
    rw [chTimeTests_calm (s := t) h.chorister, State.chStartTest, if_neg (by simp [hstart])]
  refine ⟨_, _, show _ = t from ?_⟩
  rw [hact, State.sfeRetest, if_neg (by simp [hsfe]), State.fontRetest, hfont, State.motRetest, if_neg (by simp [hmotion]),
    if_neg (by simp [hmotion])]
  exact foldl_fixed_of_mem fun n hn => by rw [show (t.eng n).due = none from h.ringer n hn]

theorem setLine_calm {s : State} (h : Calm s) {time : Nat} (ht : time < 2 ^ 48) : LineSet s time (s.setLine time) := by
  have hmod : time % 2 ^ 48 % 2 ^ 48 = time := by omega
  unfold State.setLine
  dsimp only
  split
  case isTrue hd =>
    refine ⟨?_, fun _ _ => rfl, s.besidesAll_refl⟩
    rw [State.now] at hd
    omega
  case isFalse =>
    split
    case isTrue =>
      obtain ⟨act, still, heq⟩ := actTick_calm (s := { s with clk := { s.clk with line := time % 2 ^ 48 } }) h.chorister
      rw [heq]
      exact ⟨hmod, fun _ _ => rfl, ⟨rfl, rfl, rfl, rfl, rfl, rfl⟩, rfl, rfl, rfl, rfl, rfl, rfl⟩
    case isFalse =>
      have hflag := (h.setClk { s.clk with line := time % 2 ^ 48 }).of_writes
        ((Writes.refl [fRTCFLAG_STEP] _).setFld (List.mem_singleton_self _) 1) (by decide)
      obtain ⟨act, still, heq⟩ := retests_calm hflag
      refine ⟨?_, ?_, ?_⟩
      all_goals rw [show State.raise _ [fRTCFLAG_STEP] = State.setFld _ fRTCFLAG_STEP 1 from rfl, heq]
      · exact hmod
      · exact fun g hg => State.fld_setFld_other s _ g 1 hg
      · exact ⟨⟨rfl, rfl, rfl, rfl, rfl, rfl⟩, rfl, rfl, rfl, rfl, rfl, rfl⟩

/-- The time that a set waits to make. -/
def setTime (s : State) : Nat := s.fld fRTCSETL_TIME + 2 ^ 32 * s.fld fRTCSETH_TIME

theorem setTime_lt (s : State) : setTime s < 2 ^ 48 := by
  have hlow : s.fld fRTCSETL_TIME < 2 ^ 32 := fldOf_lt _ fRTCSETL_TIME
  have hhigh : s.fld fRTCSETH_TIME < 2 ^ 16 := fldOf_lt _ fRTCSETH_TIME
  unfold setTime
  omega

section
variable {s : State} (hset : s.on fRTCSTAT_SETPEND = true) (ha : s.awake = true)
include hset ha

theorem rtcSetApply_acts : exec .rtcSetApply s = .next s.rtcApply := by
  show execRtcSetApply s = _
  rw [execRtcSetApply, if_pos (by simp [hset, awake_not_off ha])]

theorem rtcSetApply_sets (hu : s.untimed = true) (htrack : s.on fLPSTAT_TRACK = false) : ∃ t : State, exec .rtcSetApply s = .next t ∧
    t.clk.line % 2 ^ 48 = s.fld fRTCSETL_TIME + 2 ^ 32 * s.fld fRTCSETH_TIME ∧ t.on fRTCSTAT_SETPEND = false ∧
    t.on fRTCSTAT_VALID = true ∧ t.on fRTCFLAG_SET = true ∧ s.besidesAll t := by
  let u := s.sets [(fRTCSTAT_SETPEND, 0), (fRTCSTAT_VALID, 1), (fRTCFLAG_SET, 1)]
  have hw : Writes [fRTCSTAT_SETPEND, fRTCSTAT_VALID, fRTCFLAG_SET] s u := (sets_writes s _).mono (by simp)
  obtain ⟨hline, hkept, hrest⟩ := setLine_calm ((calm_of_untimed hu).of_writes hw (by decide)) (setTime_lt s)
  refine ⟨u.setLine (setTime s), ?run, hline, ?pending, ?valid, ?set, State.besidesAll_trans hw.besidesAll hrest⟩
  case run =>
    rw [rtcSetApply_acts hset ha, State.rtcApply, if_neg (by simp [htrack])]
    rfl
  case pending =>
    rw [on_of_fld (hkept _ (by decide))]
    simp (disch := decide) only [u, State.sets_cons, State.sets_nil, on_setFld_other, on_setFld_zero]
  case valid =>
    rw [on_of_fld (hkept _ (by decide))]
    simp (disch := decide) only [u, State.sets_cons, State.sets_nil, on_setFld_other, on_setFld_one]
  case set =>
    rw [on_of_fld (hkept _ (by decide))]
    simp (disch := decide) only [u, State.sets_cons, State.sets_nil, on_setFld_one]

end

/-- A GO write of RTCSETH with the count's bits 47:32 (R107). -/
def goWord (h : BitVec 16) : Word := h.setWidth 32 ||| 0x80000000

theorem goWord_bit (h : BitVec 16) (j : Nat) : (goWord h).getLsbD j = (h.getLsbD j || decide (j = 31)) := by
  rw [goWord, show (0x80000000 : Word) = BitVec.twoPow 32 31 from rfl, BitVec.getLsbD_or, BitVec.getLsbD_setWidth, BitVec.getLsbD_twoPow]
  by_cases hj : j < 32
  case pos => simp [hj, eq_comm]
  case neg => simp only [hj, BitVec.getLsbD_of_ge h j (by omega), decide_false, show ¬ 31 = j by omega, show ¬ j = 31 by omega,
    Bool.and_false, Bool.or_false]

theorem goWord_go (h : BitVec 16) : fldOf (goWord h) fRTCSETH_GO = 1 := by
  apply Nat.eq_of_testBit_eq
  intro j
  rw [fldOf_bit, goWord_bit]
  cases j with
  | zero => simp [fRTCSETH_GO]
  | succ j => simp [fRTCSETH_GO, Nat.testBit_succ]

theorem goWord_time (h : BitVec 16) : fldOf (goWord h) fRTCSETH_TIME = h.toNat := by
  apply Nat.eq_of_testBit_eq
  intro j
  rw [fldOf_bit, goWord_bit, BitVec.testBit_toNat]
  by_cases hj : j < 16
  case pos => simp [fRTCSETH_TIME, hj, show ¬ j = 31 by omega]
  case neg => simp [fRTCSETH_TIME, hj, BitVec.getLsbD_of_ge h j (by omega)]

theorem rtcSetGo_writes (s : State) (h : BitVec 16) : exec (.rtcSetGo .sacristy h) s =
    .next (if s.on fLPSTAT_TRACK then s.raise [fRTCFLAG_SETREF] else (s.plainWrite rRTCSETH (goWord h)).setFld fRTCSTAT_SETPEND 1) := by
  show execRtcSetGo .sacristy h s = _
  rw [execRtcSetGo, vet_sacristy s _ specOf_rtcseth]
  exact congrArg _ (if_pos ⟨rfl, goWord_go h⟩)

theorem rtcSetGo_pends {s : State} (h : BitVec 16) (htrack : s.on fLPSTAT_TRACK = false) : ∃ t : State,
    exec (.rtcSetGo .sacristy h) s = .next t ∧ t.on fRTCSTAT_SETPEND = true ∧ t.fld fRTCSETH_TIME = h.toNat ∧
    t.fld fRTCSETL_TIME = s.fld fRTCSETL_TIME ∧ t.clk = s.clk ∧ s.besidesAll t := by
  have hw : Writes [wholeReg rRTCSETH, fRTCSTAT_SETPEND] s ((s.plainWrite rRTCSETH (goWord h)).setFld fRTCSTAT_SETPEND 1) :=
    (plainWrite_writes s _ (by decide)).setFld (by decide) 1
  refine ⟨_, (rtcSetGo_writes s h).trans (congrArg _ (if_neg (by simp [htrack]))), on_setFld_one _ _ (by decide) (by decide), ?time,
    hw.kept _ (by decide), by rw [hw.regs], hw.besidesAll⟩
  case time =>
    rw [State.fld_setFld_other _ _ _ _ (by decide), fld_plainWrite_stored s _ specOf_rtcseth rfl (by decide), goWord_time]

/-! ### The crystal -/

/-- The crystal ready: holdover ends with its fraction (R98, R106). -/
def crystalUp (s : State) : State :=
  { s.sets [(fCLKSTAT_XTALOK, 1), (fCLKSTAT_HOLDOVER, 0)] with clk := { s.clk with hacc := 0 } }

theorem crystalUp_on (s : State) : (crystalUp s).on fCLKSTAT_XTALOK = true ∧ (crystalUp s).on fCLKSTAT_HOLDOVER = false :=
  ⟨(on_setFld_other (s.setFld fCLKSTAT_XTALOK 1) _ _ _ (by decide)).trans (on_setFld_one s _ (by decide) (by decide)),
    on_setFld_zero (s.setFld fCLKSTAT_XTALOK 1) _ (by decide) (by decide)⟩

theorem crystalReady_up {s : State} (hx : s.on fCLKSTAT_XTALOK = false) (hr : s.role ≠ .chapter) :
    exec .crystalReady s = .next (crystalUp s) := by
  show execCrystalReady s = _
  rw [execCrystalReady, if_neg (by simp [hx])]
  exact congrArg _ (if_neg (by simp [hr]))

/-- In Chapter role Rhoco then starts the PLL (R99). -/
theorem crystalReady_chapter {s : State} (hx : s.on fCLKSTAT_XTALOK = false) (hc : s.role = .chapter) (hb : s.rst.booted = true)
    (hup : s.rhocoUp = true) (hrun : s.st.running = false) : ∃ t : State, exec .crystalReady s = .next t ∧
      t.on fCLKSTAT_XTALOK = true ∧ t.on fCLKSTAT_HOLDOVER = false ∧ t.on fCLKCTL_PLLEN = true ∧ s.besidesAll t := by
  let u := crystalUp s
  obtain ⟨hxu, hhu⟩ := crystalUp_on s
  have htaken := pllStart_taken u
  refine ⟨u.clkWriteCtl (pllPut u 1), ?run, (on_of_fld (htaken.kept _ (by decide))).trans hxu,
    (on_of_fld (htaken.kept _ (by decide))).trans hhu, pllStart_pllEn hxu, State.besidesAll_trans ?up htaken.besidesAll⟩
  case run =>
    have hrole : u.role = .chapter := hc
    have hbooted : u.rst.booted = true := hb
    have hrhoco : u.rhocoUp = true := hup
    show execCrystalReady s = _
    rw [execCrystalReady, if_neg (by simp [hx])]
    refine congrArg _ ((if_pos (show (u.role = .chapter && u.rst.booted && u.rhocoUp) = true by simp [hrole, hbooted, hrhoco])).trans ?_)
    exact clkBus_ctl (s := u) hrun _
  case up => exact State.besidesAll_trans (s.besidesAll_sets _) (besidesAll_setClk _ _)

/-- A crystal that is not ready 2 s after power-on has failed (R98, R112). -/
theorem crystalStartTimeout_fails {s : State} (ha : s.awake = true) (hx : s.on fCLKSTAT_XTALOK = false) : ∃ t : State,
    exec .crystalStartTimeout s = .next t ∧ t.on fCLKFLAG_XTALF = true ∧ t.on fCLKSTAT_FORCED = true ∧ t.fld fCLKSAFE_REMAIN = 128 ∧
      t.clk.failTimer = true ∧ (t.fld fWAKESRC_SRC).testBit 13 = true := by
  have halarm := safeForce_alarm (s := s.setFld fCLKFLAG_XTALF 1) ha
  refine ⟨(s.setFld fCLKFLAG_XTALF 1).safeForce.wake 13, ?run, (halarm.on (by decide)).trans (on_setFld_one s _ (by decide) (by decide)),
    halarm.forced, halarm.remain, by rw [halarm.clk], halarm.told⟩
  case run =>
    show execCrystalStartTimeout s = _
    rw [execCrystalStartTimeout, if_neg (by simp [hx])]
    rfl

/-- Settles O28: a tick from the tick rules (`tick1_ticked`, `holdTick_one`), a set from `rtcSetGo_writes` and `setLine_calm`, the crystal
from the write of CLKCTL and the safe state it brings. -/
theorem lineTime : Obligations.LineTime := by
  unfold Obligations.LineTime
  intro s h ha _ hu calm
  have hcalm := calm_of_untimed hu
  refine ⟨?crystal, ?counted, ?uncounted, ?refused, fun htrack => rtcSetGo_pends h htrack,
    fun hset htrack => rtcSetApply_sets hset ha hu htrack, ?late, fun hx hr => crystalReady_up hx hr,
    fun hx hc hb hup hrun => crystalReady_chapter hx hc hb hup hrun, ?ready, fun hx => crystalStartTimeout_fails ha hx⟩
  case crystal =>
    intro hset hx
    obtain ⟨hline, -, hrest⟩ := tick1_ticked hcalm s.clk.hacc
    exact ⟨s.tick1, lineTimeTick_crystal ha hset hx, hline, hrest⟩
  case counted =>
    intro hset hx hvalid hcount hacc
    obtain ⟨hline, hfrac, hrest⟩ := tick1_ticked hcalm 0
    refine ⟨_, (lineTimeTick_holdover ha hset hx).trans (congrArg _ (holdTick_one hacc ?_ (by decide))), hline, hfrac, hrest⟩
    rw [holdStep, if_pos hvalid, hcount]
  case uncounted =>
    intro hset hx hvalid hacc
    obtain ⟨hline, hfrac, hrest⟩ := tick1_ticked hcalm 196608
    refine ⟨_, (lineTimeTick_holdover ha hset hx).trans (congrArg _ (holdTick_one hacc ?_ (by decide))), hline, hfrac, hrest⟩
    rw [holdStep, if_neg (by simp [hvalid])]
  case refused => exact fun htrack => (rtcSetGo_writes s h).trans (congrArg _ (if_pos htrack))
  case late => exact fun hset htrack => (rtcSetApply_acts hset ha).trans (congrArg _ (if_pos htrack))
  case ready => exact fun hx => ⟨congrArg _ (if_pos hx), congrArg _ (if_pos hx)⟩

end Sys2Proof.Proofs
end

section
/-! PROOF. The clock sources and their switches (R97, R99, R102 to R104, R106, R110): the first part of O29. -/

namespace Sys2Proof.Proofs

open Sys2Proof Sys2Proof.Machine

theorem fld_ne_zero_of_on {s : State} {f : Fld} (h : s.on f = true) : s.fld f ≠ 0 := by simpa [State.on] using h

/-! ### Starts and stops of the PLL and the HF RC -/

theorem pllEnable_writes {s : State} (hrun : s.st.running = false) :
    exec (.pllEnable .sacristy) s = .next (s.clkWriteCtl (pllPut s 1)) := congrArg Host.Outcome.next (clkBus_ctl hrun _)

/-- PLLEN starts the PLL where the crystal runs (R99). -/
theorem pllEnable_starts {s : State} (hrun : s.st.running = false) (hhf : s.on fCLKCTL_HFEN = true) (hx : s.on fCLKSTAT_XTALOK = true) :
    ∃ t : State, exec (.pllEnable .sacristy) s = .next t ∧ t.on fCLKCTL_PLLEN = true ∧ t.clk.pllRun = true ∧
      t.on fCLKCTL_HFEN = true ∧ s.besidesAll t := by
  have htaken := pllStart_taken s
  have hpll := pllStart_pllEn hx
  refine ⟨_, pllEnable_writes hrun, hpll, htaken.pllRun.trans hpll, htaken.hfEn.trans ?_, htaken.besidesAll⟩
  simpa [fldOf_pllPut_hfEn] using fld_ne_zero_of_on hhf

/-- Without the crystal the start is refused (R99). -/
theorem pllEnable_refused {s : State} (hrun : s.st.running = false) (hoff : s.on fCLKCTL_PLLEN = false)
    (hx : s.on fCLKSTAT_XTALOK = false) : ∃ t : State, exec (.pllEnable .sacristy) s = .next t ∧ t.on fCLKCTL_PLLEN = false ∧
      t.on fCLKFLAG_REFUSED = true ∧ s.besidesAll t := by
  have htaken := pllStart_taken s
  have hstart : startsPll s (pllPut s 1) = true := by simp [startsPll, hoff, fldOf_pllPut_one]
  refine ⟨_, pllEnable_writes hrun, htaken.pllEn.trans ?_, htaken.refused hstart hx, htaken.besidesAll⟩
  simp [hstart, hx]

theorem pllDisable_writes {s : State} (hrun : s.st.running = false) :
    exec (.pllDisable .sacristy) s = .next (s.clkWriteCtl (pllPut s 0)) := congrArg Host.Outcome.next (clkBus_ctl hrun _)

theorem fldOf_pllPut_zero (s : State) : fldOf (pllPut s 0) fCLKCTL_PLLEN = 0 := fldOf_putFld_zero _ _ (by decide)

/-- A PLL that nothing uses stops (R104). -/
theorem pllDisable_stops {s : State} (hrun : s.st.running = false) (hhf : s.on fCLKCTL_HFEN = true) (hroot : s.on fCLKSEL_ROOT = false)
    (hnow : s.on fCLKSTAT_ROOTNOW = false) (hheld : s.clk.heldSel = none) (hspire : s.spireOnly = false) : ∃ t : State,
      exec (.pllDisable .sacristy) s = .next t ∧ t.on fCLKCTL_PLLEN = false ∧ t.on fCLKSTAT_PLLLOCK = false ∧ t.clk.pllRun = false ∧
        t.on fCLKCTL_HFEN = true ∧ s.besidesAll t := by
  have hv := fldOf_pllPut_zero s
  have hh := fldOf_pllPut_hfEn s 0
  have hfree : s.ctlRefused (pllPut s 0) = false := by
    simp [State.ctlRefused, hroot, hnow, hheld, hspire, hh, fld_ne_zero_of_on hhf]
  have htaken := clkWriteCtl_taken hfree
  have hoff : (s.clkWriteCtl (pllPut s 0)).on fCLKCTL_PLLEN = false := by rw [htaken.pllEn, hv]; rfl
  refine ⟨_, pllDisable_writes hrun, hoff, htaken.lock hoff, htaken.pllRun.trans hoff, htaken.hfEn.trans ?_, htaken.besidesAll⟩
  simpa [hh] using fld_ne_zero_of_on hhf

/-- A write of CLKCTL under R104 only sets REFUSED. -/
theorem clkWriteCtl_refused {s : State} {v : Word} (h : s.ctlRefused v = true) : s.clkWriteCtl v = s.raise [fCLKFLAG_REFUSED] := if_pos h

theorem pllDisable_refused {s : State} (hrun : s.st.running = false) (hon : s.on fCLKCTL_PLLEN = true) (hroot : s.on fCLKSEL_ROOT = true) :
    exec (.pllDisable .sacristy) s = .next (s.raise [fCLKFLAG_REFUSED]) := by
  have hin : s.ctlRefused (pllPut s 0) = true := by simp [State.ctlRefused, hon, hroot, fldOf_pllPut_zero]
  rw [pllDisable_writes hrun, clkWriteCtl_refused hin]

/-- CLKCTL with HFEN put to a value. -/
def hfPut (s : State) (b : Nat) : Word := putFld (s.reg rCLKCTL) fCLKCTL_HFEN b

theorem fldOf_hfPut_pllEn (s : State) (b : Nat) : fldOf (hfPut s b) fCLKCTL_PLLEN = s.fld fCLKCTL_PLLEN :=
  fldOf_putFld_apart _ _ _ _ (by decide)

theorem fldOf_hfPut_zero (s : State) : fldOf (hfPut s 0) fCLKCTL_HFEN = 0 := fldOf_putFld_zero _ _ (by decide)

theorem fldOf_hfPut_one (s : State) : fldOf (hfPut s 1) fCLKCTL_HFEN = 1 := fldOf_putFld_one _ _ (by decide) (by decide)

/-- A write of HFEN alone keeps an enabled PLL. -/
theorem hfWrite_pllEn {s t : State} {b : Nat} (h : CtlTaken s (hfPut s b) t) (hpll : s.on fCLKCTL_PLLEN = true) :
    t.on fCLKCTL_PLLEN = true := by
  rw [h.pllEn, fldOf_hfPut_pllEn]
  simp [startsPll, hpll, fld_ne_zero_of_on hpll]

theorem hfrcDisable_writes {s : State} (hrun : s.st.running = false) :
    exec (.hfrcDisable .sacristy) s = .next (s.clkWriteCtl (hfPut s 0)) := congrArg Host.Outcome.next (clkBus_ctl hrun _)

/-- An HF RC that nothing uses stops (R104). -/
theorem hfrcDisable_stops {s : State} (hrun : s.st.running = false) (hroot : s.on fCLKSEL_ROOT = true) (hnow : s.on fCLKSTAT_ROOTNOW = true)
    (hheld : s.clk.heldSel = none) (hpll : s.on fCLKCTL_PLLEN = true) : ∃ t : State, exec (.hfrcDisable .sacristy) s = .next t ∧
      t.on fCLKCTL_HFEN = false ∧ t.on fCLKSTAT_HFOK = false ∧ t.on fCLKCTL_PLLEN = true ∧ s.besidesAll t := by
  have hfree : s.ctlRefused (hfPut s 0) = false := by
    simp [State.ctlRefused, hroot, hnow, hheld, fldOf_hfPut_pllEn, fld_ne_zero_of_on hpll]
  have htaken := clkWriteCtl_taken hfree
  have hoff : (s.clkWriteCtl (hfPut s 0)).on fCLKCTL_HFEN = false := by rw [htaken.hfEn, fldOf_hfPut_zero]; rfl
  exact ⟨_, hfrcDisable_writes hrun, hoff, htaken.hfOk hoff, hfWrite_pllEn htaken hpll, htaken.besidesAll⟩

theorem hfrcDisable_refused {s : State} (hrun : s.st.running = false) (hroot : s.on fCLKSEL_ROOT = false) (hhf : s.on fCLKCTL_HFEN = true) :
    exec (.hfrcDisable .sacristy) s = .next (s.raise [fCLKFLAG_REFUSED]) := by
  have hin : s.ctlRefused (hfPut s 0) = true := by simp [State.ctlRefused, hhf, hroot, fldOf_hfPut_zero]
  rw [hfrcDisable_writes hrun, clkWriteCtl_refused hin]

theorem hfrcEnable_starts {s : State} (hrun : s.st.running = false) (hpll : s.on fCLKCTL_PLLEN = true) : ∃ t : State,
    exec (.hfrcEnable .sacristy) s = .next t ∧ t.on fCLKCTL_HFEN = true ∧ t.on fCLKCTL_PLLEN = true ∧ s.besidesAll t := by
  have hfree : s.ctlRefused (hfPut s 1) = false := by
    simp [State.ctlRefused, fldOf_hfPut_pllEn, fldOf_hfPut_one, fld_ne_zero_of_on hpll]
  have htaken := clkWriteCtl_taken hfree
  refine ⟨s.clkWriteCtl (hfPut s 1), congrArg Host.Outcome.next (clkBus_ctl hrun _), ?_, hfWrite_pllEn htaken hpll, htaken.besidesAll⟩
  rw [htaken.hfEn, fldOf_hfPut_one]
  rfl

/-! ### The lock of the PLL -/

/-- The PLL locked, the Spire's domains released (R99, R109). -/
def pllLocked (s : State) : State :=
  { (s.setFld fCLKSTAT_PLLLOCK 1).syncNow with clk := { (s.setFld fCLKSTAT_PLLLOCK 1).syncNow.clk with spireHeld := false } }

/-- What follows a lock: the selection that R90 restored, the front end and Font, the Scriptorium's start. -/
def lockTaken (t : State) : State :=
  let u := match t.clk.heldSel with
    | some sel => if t.clk.heldRestored then t.switchTo sel else t
    | none => t
  let v := u.sfeSpireBack.fontSpireBack
  if v.rst.booted && v.rhocoUp then v.scrStart else v

theorem execPllLock_eq (s : State) : execPllLock s =
    .next (if s.on fCLKCTL_PLLEN && s.on fCLKSTAT_XTALOK && !s.on fCLKSTAT_PLLLOCK then lockTaken (pllLocked s) else s) := by
  unfold execPllLock lockTaken pllLocked
  rfl

theorem lockTaken_free {t : State} (hheld : t.clk.heldSel = none) (hsfe : t.on fSFESTAT_HELD = false)
    (hfont : t.on fFONTSTAT_HELD = false) : lockTaken t = if t.rst.booted && t.rhocoUp then t.scrStart else t := by
  have hback : t.sfeSpireBack.fontSpireBack = t := by
    rw [State.sfeSpireBack, if_neg (by simp [hsfe]), State.fontSpireBack, if_neg (by simp [hfont])]
  simp only [lockTaken, hheld, hback]

theorem pllLocked_writes (s : State) : Writes [fCLKSTAT_PLLLOCK, fLPSTAT_SYNC] s (s.setFld fCLKSTAT_PLLLOCK 1).syncNow :=
  ((Writes.refl _ s).setFld (by decide) 1).trans (syncNow_writes _ (by decide))

theorem pllLocked_lock (s : State) : (pllLocked s).on fCLKSTAT_PLLLOCK = true :=
  (on_setFld_other (s.setFld fCLKSTAT_PLLLOCK 1) fLPSTAT_SYNC _ _ (by decide)).trans (on_setFld_one s _ (by decide) (by decide))

theorem on_pllLocked (s : State) {g : Fld} (hg : [fCLKSTAT_PLLLOCK, fLPSTAT_SYNC].all (fun f => f.other g) = true) :
    (pllLocked s).on g = s.on g := (pllLocked_writes s).on hg

theorem pllLocked_besidesAll (s : State) : s.besidesAll (pllLocked s) :=
  State.besidesAll_trans (pllLocked_writes s).besidesAll (besidesAll_setClk _ _)

section
variable {s : State} (hpll : s.on fCLKCTL_PLLEN = true) (hx : s.on fCLKSTAT_XTALOK = true) (hlock : s.on fCLKSTAT_PLLLOCK = false)
  (hheld : s.clk.heldSel = none) (hsfe : s.on fSFESTAT_HELD = false) (hfont : s.on fFONTSTAT_HELD = false)
include hpll hx hlock hheld hsfe hfont

/-- With no selection, no front end and no Font held, the lock is the lock and, once booted, the Scriptorium's start (R99, R138). -/
theorem pllLock_runs : exec .pllLock s =
    .next (if (pllLocked s).rst.booted && (pllLocked s).rhocoUp then (pllLocked s).scrStart else pllLocked s) := by
  show execPllLock s = _
  rw [execPllLock_eq, if_pos (by simp [hpll, hx, hlock]),
    lockTaken_free (t := pllLocked s) hheld ((on_pllLocked s (by decide)).trans hsfe) ((on_pllLocked s (by decide)).trans hfont)]

theorem pllLock_locks (hr : s.role ≠ .chapter) : ∃ t : State, exec .pllLock s = .next t ∧ t.on fCLKSTAT_PLLLOCK = true ∧
    t.clk.spireHeld = false ∧ t.on fCLKSEL_ROOT = s.on fCLKSEL_ROOT ∧ s.besidesAll t := by
  have hstart : (pllLocked s).scrStart = pllLocked s := if_neg (by simp [show (pllLocked s).role = s.role from rfl, hr])
  refine ⟨pllLocked s, ?_, pllLocked_lock s, rfl, on_pllLocked s (by decide), pllLocked_besidesAll s⟩
  rw [pllLock_runs hpll hx hlock hheld hsfe hfont, hstart, ite_self]

/-- In Chapter role Rhoco then starts the Scriptorium (R138). -/
theorem pllLock_scriptorium (hc : s.role = .chapter) (hb : s.rst.booted = true) (hup : s.rhocoUp = true) (hbells : s.scr.bells = []) :
    ∃ t : State, exec .pllLock s = .next t ∧ t.on fCLKSTAT_PLLLOCK = true ∧ t.on fHLSTAT_SCRRDY = true ∧ s.besidesAll t := by
  have hrun : exec .pllLock s = .next (pllLocked s).scrStart := by
    rw [pllLock_runs hpll hx hlock hheld hsfe hfont, if_pos]
    exact Bool.and_eq_true_iff.mpr ⟨hb, hup⟩
  have hrole : (pllLocked s).role = .chapter := hc
  have hnone : (pllLocked s).scr.bells = [] := hbells
  cases hrdy : (pllLocked s).on fHLSTAT_SCRRDY with
  | true =>
    have hstart : (pllLocked s).scrStart = pllLocked s := if_neg (by simp [hrdy])
    exact ⟨_, hrun.trans (congrArg _ hstart), pllLocked_lock s, hrdy, pllLocked_besidesAll s⟩
  | false =>
    have hscr : { (pllLocked s).scr with bells := [] } = (pllLocked s).scr := by rw [← hnone]
    have hstart : (pllLocked s).scrStart = (pllLocked s).setFld fHLSTAT_SCRRDY 1 := by
      rw [State.scrStart, if_pos (by simp [hrole, hrdy]), hscr, hnone]
      rfl
    refine ⟨_, hrun.trans (congrArg _ hstart), (on_setFld_other _ _ _ _ (by decide)).trans (pllLocked_lock s),
      on_setFld_one _ _ (by decide) (by decide), State.besidesAll_trans (pllLocked_besidesAll s) (State.besidesAll_setFld _ _ _)⟩

end

/-! ### CLKSEL -/

/-- What a switch writes: the selection, and that it is the one that runs (R103). -/
def switchSets (sel : Nat) : List (Fld × Nat) :=
  [(fCLKSEL_ROOT, sel), (fCLKSEL_CDIV, sel / 2), (fCLKSTAT_ROOTNOW, sel), (fCLKSTAT_CDIVNOW, sel / 2), (fCLKSTAT_SWPEND, 0)]

theorem switchSets_spire : switchSets 1 =
    [(fCLKSEL_ROOT, 1), (fCLKSEL_CDIV, 0), (fCLKSTAT_ROOTNOW, 1), (fCLKSTAT_CDIVNOW, 0), (fCLKSTAT_SWPEND, 0)] := rfl

/-- The root group on a selection (R103). -/
def switched (s : State) (sel : Nat) : State :=
  { s.sets (switchSets sel) with clk := { (s.sets (switchSets sel)).clk with heldSel := none, heldRestored := false } }

theorem on_switched (s : State) (sel : Nat) (g : Fld) : (switched s sel).on g = (s.sets (switchSets sel)).on g := on_setClk _ _ g

theorem switched_chor (s : State) (sel : Nat) : (switched s sel).chor = s.chor :=
  (setClk_chor (s.sets (switchSets sel)) _).trans (State.sets_chor s _)

/-- What a switch to the Spire undivided shows (R103). -/
theorem switched_spire (s : State) : (switched s 1).on fCLKSEL_ROOT = true ∧ (switched s 1).on fCLKSTAT_ROOTNOW = true ∧
    (switched s 1).on fCLKSTAT_CDIVNOW = false ∧ (switched s 1).on fCLKSTAT_SWPEND = false ∧ s.besidesAll (switched s 1) := by
  refine ⟨?_, ?_, ?_, ?_, State.besidesAll_trans (s.besidesAll_sets (switchSets 1)) (besidesAll_setClk _ _)⟩
  all_goals
    rw [on_switched, switchSets_spire]
    simp (disch := decide) only [State.sets_cons, State.sets_nil, on_setFld_other, on_setFld_zero, on_setFld_one]

/-- With no write of the Choristers held and no start armed, a restart of the root group moves nothing (R518). -/
theorem chRelease_calm {s : State} (hw : s.chor.heldWr = []) (ha : s.on fCHSTARTH_ARM = false) : s.chRelease = s := by
  have hsame : s.chSet (fun c => { c with heldWr := [] }) = s := by
    show { s with chor := { s.chor with heldWr := [] } } = s
    rw [← hw]
  rw [State.chRelease, hsame, hw, List.foldl_nil, State.chStartTest, if_neg (by simp [ha])]

theorem switchTo_eq (s : State) (sel : Nat) :
    s.switchTo sel = if s.fld fCLKSTAT_ROOTNOW != sel % 2 then (switched s sel).chRelease else switched s sel := by
  unfold State.switchTo switched
  rfl

/-- A write of CLKSEL while the root group runs and no slice (R103, R104). -/
theorem clkWriteSel_runs {s : State} (hrun : s.st.running = false) (hstop : s.clk.stopped = false) (v : Word) :
    s.clkWriteSel v = if s.selRefused (v.toNat % 4) then s.spireRefused else s.switchTo (v.toNat % 4) := by
  rw [State.clkWriteSel]
  exact if_neg (by simp [hrun, hstop])

theorem clkselWrite_writes {s : State} (hrun : s.st.running = false) (v : Word) :
    exec (.clkselWrite .sacristy v) s = .next (s.clkWriteSel v) := congrArg Host.Outcome.next (clkBus_sel hrun v)

/-- CLKSEL switches at once to a Spire that is locked (R103). -/
theorem clkselWrite_switches {s : State} {v : Word} (hrun : s.st.running = false) (hv : v.toNat % 4 = 1) (hstop : s.clk.stopped = false)
    (hlock : s.on fCLKSTAT_PLLLOCK = true) (hw : s.chor.heldWr = []) (ha : s.on fCHSTARTH_ARM = false) : ∃ t : State,
      exec (.clkselWrite .sacristy v) s = .next t ∧ t.on fCLKSEL_ROOT = true ∧ t.on fCLKSTAT_ROOTNOW = true ∧
        t.on fCLKSTAT_CDIVNOW = false ∧ t.on fCLKSTAT_SWPEND = false ∧ s.besidesAll t := by
  refine ⟨switched s 1, ?run, switched_spire s⟩
  have harm : (switched s 1).on fCHSTARTH_ARM = false := by
    rw [on_switched, on_of_fld (State.fld_sets_other s (switchSets 1) _ (by decide)), ha]
  rw [clkselWrite_writes hrun, clkWriteSel_runs hrun hstop, hv, if_neg (by simp [State.selRefused, hlock]), switchTo_eq,
    chRelease_calm ((congrArg Chor.heldWr (switched_chor s 1)).trans hw) harm, ite_self]

/-- A selection that R104 does not allow is refused. -/
theorem clkselWrite_refused {s : State} {v : Word} (hrun : s.st.running = false) (hstop : s.clk.stopped = false)
    (h : s.selRefused (v.toNat % 4) = true) : exec (.clkselWrite .sacristy v) s = .next (s.raise [fCLKFLAG_REFUSED]) := by
  rw [clkselWrite_writes hrun, clkWriteSel_runs hrun hstop, if_pos h]
  rfl

/-- The HF RC has no divided selection (R104). -/
theorem selRefused_divided (s : State) : s.selRefused 2 = true := by
  have hdiv : bitAt 2 1 = true := by decide
  rw [State.selRefused, hdiv]
  simp

/-- A held selection is dropped from its place before it acts (R110). -/
def unheld (s : State) : State :=
  { s.setFld fCLKSTAT_SWPEND 0 with clk := { s.clk with heldSel := none, heldRestored := false } }

/-- A held selection of the source that runs is taken up (R110). -/
theorem clkselHeldApply_takes {s : State} (hrun : s.st.running = false) (hheld : s.clk.heldSel = some 1) (hstop : s.clk.stopped = false)
    (hlock : s.on fCLKSTAT_PLLLOCK = true) (hnow : s.fld fCLKSTAT_ROOTNOW = 1) : ∃ t : State, exec .clkselHeldApply s = .next t ∧
      t.clk.heldSel = none ∧ t.on fCLKSEL_ROOT = true ∧ t.on fCLKSTAT_ROOTNOW = true ∧ t.on fCLKSTAT_SWPEND = false ∧
      s.besidesAll t := by
  obtain ⟨hroot, hrootNow, -, hpend, hrest⟩ := switched_spire (unheld s)
  have hnow' : (unheld s).fld fCLKSTAT_ROOTNOW = 1 := (State.fld_setFld_other s _ _ _ (by decide)).trans hnow
  have hlock' : (unheld s).on fCLKSTAT_PLLLOCK = true := (on_setFld_other s _ _ _ (by decide)).trans hlock
  refine ⟨switched (unheld s) 1, ?run, rfl, hroot, hrootNow, hpend, State.besidesAll_trans ?unheld hrest⟩
  case unheld => exact State.besidesAll_trans (State.besidesAll_setFld s _ _) (besidesAll_setClk _ _)
  case run =>
    show execClkselHeldApply s = _
    rw [execClkselHeldApply, hheld]
    dsimp only
    rw [if_neg (by simp [hstop, hrun, hlock])]
    show Host.Outcome.next ((unheld s).clkWriteSel (BitVec.ofNat 32 1)) = _
    rw [clkWriteSel_runs (s := unheld s) hrun hstop, show (BitVec.ofNat 32 1).toNat % 4 = 1 from rfl,
      if_neg (by simp [State.selRefused, hlock']), switchTo_eq, if_neg (by simp [hnow'])]

theorem clkselHeldApply_none {s : State} (h : s.clk.heldSel = none) : exec .clkselHeldApply s = .next s := by
  show execClkselHeldApply s = _
  rw [execClkselHeldApply, h]

/-! ### The oscillators -/

theorem hfrcReady_ready {s : State} (hhf : s.on fCLKCTL_HFEN = true) (hstop : s.clk.stopped = false) :
    exec .hfrcReady s = .next (s.setFld fCLKSTAT_HFOK 1) := by
  show execHfrcReady s = _
  rw [execHfrcReady, if_pos (by simp [hhf])]
  exact congrArg _ (if_neg (by simp [hstop]))

theorem calibration_ends (s : State) (n : BitVec 18) (whole : Bool) : exec (.calibrationWindowEnd n whole) s =
    .next (if whole && s.on fCLKSTAT_XTALOK then s.sets [(fCLKRCCAL_COUNT, n.toNat), (fCLKRCCAL_VALID, 1)] else s) := rfl

end Sys2Proof.Proofs
end

section
/-! PROOF. The monitors, the safe state and its end (R109, R111 to R113, R116, R118 to R123), and O29. -/

namespace Sys2Proof.Proofs

open Sys2Proof Sys2Proof.Machine

/-! ### Failures of the sources -/

/-- The crystal lost with no PLL running: holdover begins (R106). -/
def crystalDown (s : State) : State := (s.setFld fCLKFLAG_XTALF 1).sets [(fCLKSTAT_XTALOK, 0), (fCLKSTAT_HOLDOVER, 1)]

/-- The HF RC failed and flagged (R111). -/
def hfrcDown (s : State) : State := (s.setFld fCLKFLAG_HFF 1).setFld fCLKSTAT_HFOK 0

theorem hfrcDown_writes (s : State) : Writes [fCLKFLAG_HFF, fCLKSTAT_HFOK] s (hfrcDown s) :=
  ((Writes.refl _ s).setFld (by decide) 1).setFld (by decide) 0

theorem hfrcDown_flag (s : State) : (hfrcDown s).on fCLKFLAG_HFF = true :=
  (on_setFld_other (s.setFld fCLKFLAG_HFF 1) _ _ _ (by decide)).trans (on_setFld_one s _ (by decide) (by decide))

theorem hfrcDown_lost (s : State) : (hfrcDown s).on fCLKSTAT_HFOK = false :=
  on_setFld_zero (s.setFld fCLKFLAG_HFF 1) _ (by decide) (by decide)

theorem hfrcFail_runs {s : State} (hok : s.on fCLKSTAT_HFOK = true) : exec .hfrcFail s =
    .next ((if s.on fCLKSEL_ROOT then hfrcDown s else (hfrcDown s).safeForce).wake 13) := by
  show execHfrcFail s = _
  rw [execHfrcFail, if_neg (by simp [hok])]
  rfl

section
variable {s : State} (ha : s.awake = true)
include ha

/-- A failure of the HF RC beside the root group's source is flagged and told (R111). -/
theorem hfrcFail_unused (hok : s.on fCLKSTAT_HFOK = true) (hroot : s.on fCLKSEL_ROOT = true) : ∃ t : State, exec .hfrcFail s = .next t ∧
    t.on fCLKFLAG_HFF = true ∧ t.on fCLKSTAT_HFOK = false ∧ t.on fCLKSTAT_FORCED = s.on fCLKSTAT_FORCED ∧
    (t.fld fWAKESRC_SRC).testBit 13 = true ∧ s.besidesAll t := by
  have hwake := wake_writes (l := [fWAKESRC_SRC]) (s := hfrcDown s) ha (List.mem_singleton_self _) 13
  refine ⟨(hfrcDown s).wake 13, ?run, (hwake.on (by decide)).trans (hfrcDown_flag s), (hwake.on (by decide)).trans (hfrcDown_lost s),
    (hwake.on (by decide)).trans ((hfrcDown_writes s).on (by decide)), wake_clkfail (s := hfrcDown s) ha,
    State.besidesAll_trans (hfrcDown_writes s).besidesAll hwake.besidesAll⟩
  case run => rw [hfrcFail_runs hok, if_pos hroot]

/-- A failure of the HF RC that the root group uses forces the safe state (R112). -/
theorem hfrcFail_used (hok : s.on fCLKSTAT_HFOK = true) (hroot : s.on fCLKSEL_ROOT = false) : ∃ t : State, exec .hfrcFail s = .next t ∧
    t.on fCLKFLAG_HFF = true ∧ t.on fCLKSTAT_HFOK = false ∧ t.on fCLKSTAT_FORCED = true ∧ t.fld fCLKSAFE_REMAIN = 128 ∧
    t.clk.failTimer = true ∧ (t.fld fWAKESRC_SRC).testBit 13 = true := by
  have halarm := safeForce_alarm (s := hfrcDown s) ha
  refine ⟨(hfrcDown s).safeForce.wake 13, ?run, (halarm.on (by decide)).trans (hfrcDown_flag s),
    (halarm.on (by decide)).trans (hfrcDown_lost s), halarm.forced, halarm.remain, by rw [halarm.clk], halarm.told⟩
  case run => rw [hfrcFail_runs hok, if_neg (by simp [hroot])]

theorem lfrcFail_told : ∃ t : State, exec .lfrcFail s = .next t ∧ t.on fCLKFLAG_LFRCF = true ∧
    (t.fld fWAKESRC_SRC).testBit 13 = true ∧ s.besidesAll t := by
  let u := s.setFld fCLKFLAG_LFRCF 1
  have hwake : Writes [fWAKESRC_SRC] u (u.wake 13) := wake_writes (s := u) ha (List.mem_singleton_self _) 13
  refine ⟨u.wake 13, rfl, ?flag, wake_clkfail (s := u) ha, State.besidesAll_trans (State.besidesAll_setFld s _ _) hwake.besidesAll⟩
  case flag => rw [hwake.on (by decide), on_setFld_one _ _ (by decide) (by decide)]

theorem crystalFail_holdover (hx : s.on fCLKSTAT_XTALOK = true) (hpll : s.on fCLKCTL_PLLEN = false) : ∃ t : State,
    exec (.crystalFail 0) s = .next t ∧ t.on fCLKFLAG_XTALF = true ∧ t.on fCLKSTAT_XTALOK = false ∧ t.on fCLKSTAT_HOLDOVER = true ∧
      t.on fCLKSTAT_FORCED = true ∧ (t.fld fWAKESRC_SRC).testBit 13 = true := by
  have halarm := safeForce_alarm (s := crystalDown s) ha
  refine ⟨(crystalDown s).safeForce.wake 13, ?run, ?flag, ?lost, ?holdover, halarm.forced, halarm.told⟩
  case run =>
    show execCrystalFail 0 s = _
    rw [execCrystalFail, if_neg (by simp [hx])]
    dsimp only
    rw [if_neg (by simp [hpll]), ticks_zero]
    rfl
  all_goals
    rw [halarm.on (by decide), crystalDown]
    simp (disch := decide) only [State.sets_cons, State.sets_nil, on_setFld_other, on_setFld_zero, on_setFld_one]

end

/-! ### The loss of the Spire -/

section
variable {s : State}

/-- What a fall back to the HF RC writes (R109). -/
def fallbackSets : List (Fld × Nat) :=
  [(fCLKFLAG_FALLBACK, 1), (fCLKSEL_ROOT, 0), (fCLKSEL_CDIV, 0), (fCLKSTAT_ROOTNOW, 0), (fCLKSTAT_CDIVNOW, 0), (fCLKSTAT_SWPEND, 0)]

/-- The Spire not locked (R109). -/
def unlocked (s : State) : State := (s.setFld fCLKSTAT_PLLLOCK 0).syncNow

/-- The root group on the HF RC, the Spire's domains held (R109). -/
def fellBack (s : State) : State :=
  { (unlocked s).sets fallbackSets with
    clk := { (unlocked s).clk with heldSel := none, heldRestored := false, stopped := !s.on fCLKSTAT_HFOK, spireHeld := true } }

theorem unlocked_writes (s : State) : Writes [fCLKSTAT_PLLLOCK, fLPSTAT_SYNC] s (unlocked s) :=
  ((Writes.refl _ s).setFld (by decide) 0).trans (syncNow_writes _ (by decide))

theorem on_fellBack (s : State) (g : Fld) : (fellBack s).on g = ((unlocked s).sets fallbackSets).on g := on_setClk _ _ g

theorem fellBack_awake {s : State} (h : s.awake = true) : (fellBack s).awake = true := by
  have hslp : (fellBack s).slp = (unlocked s).slp := (setClk_slp ((unlocked s).sets fallbackSets) _).trans (State.sets_slp _ _)
  rw [State.awake, hslp]
  exact h

theorem on_fellBack_kept {g : Fld} (hg : (fCLKSTAT_PLLLOCK :: fLPSTAT_SYNC :: fallbackSets.map Prod.fst).all (fun f => f.other g) = true) :
    (fellBack s).on g = s.on g := by
  have hall := ((unlocked_writes s).mono (m := fCLKSTAT_PLLLOCK :: fLPSTAT_SYNC :: fallbackSets.map Prod.fst) (by decide)).trans
    ((sets_writes (unlocked s) fallbackSets).mono (by decide))
  rw [on_fellBack, hall.on hg]

/-- With the root group on the Spire, and neither the front end nor Font running, the root group falls back and the safe state is
forced (R109, R112). -/
theorem spireLost_root (hroot : s.on fCLKSEL_ROOT = true) (hsfe : s.on fSFESTAT_RUN = false) (hfont : s.on fFONTSTAT_RUN = false) :
    s.spireLost = (fellBack s).safeForce := by
  have hsfe' : (fellBack s).on fSFESTAT_RUN = false := (on_fellBack_kept (by decide)).trans hsfe
  have hfont' : (fellBack s).on fFONTSTAT_RUN = false := (on_fellBack_kept (by decide)).trans hfont
  have hlost : ((fellBack s).sfeSpireLost).fontSpireLost = fellBack s := by
    rw [State.sfeSpireLost, if_pos (by simp [hsfe']), State.fontSpireLost, if_pos (by simp [hfont'])]
  rw [← hlost]
  simp only [State.spireLost, hroot, Bool.true_or, Bool.not_true, Bool.false_eq_true, if_false, if_true]
  rfl

/-- A failure of the PLL that the root group runs on (R109, R111, R112). -/
theorem pllFail_fallsBack (ha : s.awake = true) (hlock : s.on fCLKSTAT_PLLLOCK = true) (hroot : s.on fCLKSEL_ROOT = true)
    (hok : s.on fCLKSTAT_HFOK = true) (hsfe : s.on fSFESTAT_RUN = false) (hfont : s.on fFONTSTAT_RUN = false) :
    ∃ t : State, exec .pllFail s = .next t ∧
      t.on fCLKFLAG_PLLF = true ∧ t.on fCLKSTAT_PLLLOCK = false ∧ t.on fCLKFLAG_FALLBACK = true ∧ t.on fCLKSEL_ROOT = false ∧
      t.on fCLKSTAT_ROOTNOW = false ∧ t.clk.stopped = false ∧ t.clk.spireHeld = true ∧ t.on fCLKSTAT_FORCED = true ∧
      (t.fld fWAKESRC_SRC).testBit 13 = true := by
  let u := s.setFld fCLKFLAG_PLLF 1
  have hkept {g : Fld} (hg : fCLKFLAG_PLLF.other g = true) : u.on g = s.on g := on_setFld_other s _ _ _ hg
  have halarm := safeForce_alarm (s := fellBack u) (fellBack_awake (s := u) ha)
  have hfall (g : Fld) (hg : ([fCLKSTAT_FORCED, fCLKSAFE_REMAIN, fWAKESRC_SRC] ++ quietFields).all (fun f => f.other g) = true) :
      ((fellBack u).safeForce.wake 13).on g = ((unlocked u).sets fallbackSets).on g := (halarm.on hg).trans (on_fellBack u g)
  refine ⟨(fellBack u).safeForce.wake 13, ?run, ?flag, ?lock, ?fallback, ?root, ?rootNow, ?stopped, ?held,
    halarm.forced, halarm.told⟩
  case run =>
    have hlost := spireLost_root (s := u) ((hkept (by decide)).trans hroot) ((hkept (by decide)).trans hsfe)
      ((hkept (by decide)).trans hfont)
    show execPllFail s = _
    rw [execPllFail, if_pos hlock, ← hlost]
    rfl
  case flag => rw [halarm.on (by decide), on_fellBack_kept (by decide), on_setFld_one s _ (by decide) (by decide)]
  case lock =>
    rw [hfall _ (by decide), (sets_writes _ fallbackSets).on (by decide)]
    exact (on_setFld_other (u.setFld fCLKSTAT_PLLLOCK 0) fLPSTAT_SYNC _ _ (by decide)).trans (on_setFld_zero u _ (by decide) (by decide))
  case held => rw [halarm.clk]; rfl
  case stopped =>
    rw [halarm.clk]
    show (!u.on fCLKSTAT_HFOK) = false
    rw [hkept (by decide), hok]
    rfl
  all_goals
    rw [hfall _ (by decide), fallbackSets]
    simp (disch := decide) only [State.sets_cons, State.sets_nil, on_setFld_other, on_setFld_zero, on_setFld_one]

end

/-! ### The end of the safe state -/

theorem clksafeRelease_writes {s : State} (hrun : s.st.running = false) : exec (.clksafeRelease .sacristy) s =
    .next (if s.on fCLKSTAT_FORCED && s.rootGood then s.safeLift else s) := by
  have hbus : s.clkBus .sacristy rCLKSAFE 1 = s.clkWrite rCLKSAFE 1 := clkBus_sacristy hrun 1 specOf_clksafe
  have hbit : fldOf 1 fCLKSAFE_RELEASE = 1 := by decide
  show execClksafeRelease .sacristy s = _
  rw [execClksafeRelease, hbus, State.clkWrite, if_neg (by decide), if_neg (by decide), if_pos rfl, hbit]
  rfl

theorem rootGood_hfrc {s : State} (hnow : s.on fCLKSTAT_ROOTNOW = false) : s.rootGood = s.on fCLKSTAT_HFOK := if_neg (by simp [hnow])

/-! ### The reset of the clock-fail timer -/

theorem fld_sets_last (s : State) (l m : List (Fld × Nat)) (f : Fld) (v : Nat) (hfit : f.lo + f.w ≤ 32)
    (hm : m.all (fun p => p.1.other f) = true) : (s.sets (l ++ (f, v) :: m)).fld f = v % 2 ^ f.w := by
  rw [State.sets, List.foldl_append, List.foldl_cons]
  exact (State.fld_sets_other _ m f hm).trans (State.fld_setFld _ f v hfit)

/-- A reset keeps the fields it is told to keep (R119). -/
theorem fld_regsReset_kept (s : State) (k m : List Fld) (f : Fld) (hfit : f.lo + f.w ≤ 32) (hm : m.all (fun g => g.other f) = true) :
    (s.regsReset (k ++ f :: m)).fld f = s.fld f := by
  rw [State.regsReset, copyFlds, List.map_append, List.map_cons, ← List.append_assoc,
    fld_sets_last _ _ _ f _ hfit (by rw [List.all_map]; exact hm)]
  exact Nat.mod_eq_of_lt (fldOf_lt _ f)

/-- The fields that follow the registers of a reset: the clock-fail timer, the debug level, the output latch, the loop and the tokens. -/
def afterFields : List Fld :=
  [fCLKSAFE_REMAIN, fSACDBG_LEVEL, fFOCTL_SAFE, fFOCTL_SAFELVL, fFOCTL_ARM] ++ outputFields ++ loopFields ++ tokenFields

theorem foReset_writes (s : State) : Writes afterFields s s.foReset :=
  ((sets_writes s _).mono (by simp [afterFields])).trans ((foSync_writes _).mono (by decide))

theorem afterReset_keeps {s : State} (ha : s.awake = true) : KeepsClocks afterFields s s.afterReset := by
  let t := if s.clk.failTimer then s.setFld fCLKSAFE_REMAIN 128 else s
  have htimer : Writes afterFields s t := .ite ((Writes.refl _ s).setFld (by decide) 128) (.refl _ s)
  have hlatch : KeepsClocks afterFields s (t.setFld fSACDBG_LEVEL (debugLevel t.mem.lifecycle false t.rst.stopped)).foReset :=
    .ofWrites ((htimer.setFld (by decide) _).trans (foReset_writes _))
  have hloop := hlatch.trans ((loopSync_keeps _ none).mono (by decide))
  exact hloop.trans (.ofWrites ((retoken_writes (hloop.awake ha)).mono (by decide)))

/-- A reset of watchdog scope: what keeps its value in the VAO set, and the hold that begins (R119, R133). -/
structure WatchdogReset (s t : State) : Prop where
  last : t.fld fRSTCAUSE_LAST = s.fld fRSTCAUSE_LAST
  hist : t.fld fRSTCAUSE_HIST = s.fld fRSTCAUSE_HIST
  hold : t.rst.hold = true
  role : t.role = s.role
  pending : t.pending = s.pending

theorem fld_logicReset (s : State) (g : Fld) : s.logicReset.fld g = s.fld g := rfl

theorem logicReset_hold (s : State) : s.logicReset.rst.hold = true := rfl

theorem logicReset_role (s : State) : s.logicReset.role = s.role := rfl

theorem logicReset_pending (s : State) : s.logicReset.pending = s.pending := rfl

theorem logicReset_awake (s : State) : s.logicReset.awake = true := rfl

theorem regsReset_role (s : State) (keep : List Fld) : (s.regsReset keep).role = s.role := by rw [State.regsReset, State.sets_role]

theorem regsReset_pending (s : State) (keep : List Fld) : (s.regsReset keep).pending = s.pending := by
  rw [State.regsReset, State.sets_pending]

theorem resetWatchdog_spec (s : State) : WatchdogReset s s.resetWatchdog := by
  let u := s.regsReset (vaoSet ++ liveSet ++ watchdogKept)
  have hafter : KeepsClocks afterFields u.logicReset u.logicReset.afterReset := afterReset_keeps (logicReset_awake u)
  refine ⟨?last, ?hist, hafter.hold.trans (logicReset_hold u), hafter.role.trans ((logicReset_role u).trans (regsReset_role s _)),
    hafter.pending.trans ((logicReset_pending u).trans (regsReset_pending s _))⟩
  case last =>
    refine (hafter.kept _ (by decide)).trans ((fld_logicReset u _).trans ?_)
    exact fld_regsReset_kept s [fROLESTAT_ROLE, fROLESTAT_UNSTABLE, fRSTCAUSE_HIST] _ fRSTCAUSE_LAST (by decide) (by decide)
  case hist =>
    refine (hafter.kept _ (by decide)).trans ((fld_logicReset u _).trans ?_)
    exact fld_regsReset_kept s [fROLESTAT_ROLE, fROLESTAT_UNSTABLE] _ fRSTCAUSE_HIST (by decide) (by decide)

/-- The cause of a reset of the clock-failure kind that meets no other (R123, R133). -/
def clockCause (s : State) : State := (s.setFld fRSTCAUSE_HIST (s.fld fRSTCAUSE_HIST ||| 2 ^ 5)).setFld fRSTCAUSE_LAST 5

theorem causeSet_clock {s : State} (h : s.rst.hold = false) : s.causeSet 5 = clockCause s := by
  rw [State.causeSet, if_neg (by decide), if_neg (by simp [h])]
  rfl

theorem countFail_writes (s : State) (k : Nat) : Writes [fBOOTSTAT_FAILS] s (s.countFail k) :=
  .ite ((Writes.refl _ s).setFld (by decide) _) (.refl _ s)

theorem resetAct_clock (s : State) : s.resetAct 5 = ((s.countFail 5).causeSet 5).resetWatchdog := by
  simp [State.resetAct, kindScope]

/-- The clock-fail timer ends in a reset of the clock-failure kind (R113). -/
theorem clockFailTimer_resets {s : State} (ht : s.clk.failTimer = true) (hh : s.rst.hold = false) : ∃ t : State,
    exec .clockFailTimerExpiry s = .next t ∧ t.fld fRSTCAUSE_LAST = 5 ∧ (t.fld fRSTCAUSE_HIST).testBit 5 = true ∧
      t.rst.hold = true ∧ t.role = s.role ∧ t.pending = s.pending := by
  let u := s.countFail 5
  have hcount : KeepsClocks [fBOOTSTAT_FAILS] s u := .ofWrites (countFail_writes s 5)
  obtain ⟨hlast, hhist, hhold, hrole, hpending⟩ := resetWatchdog_spec (u.causeSet 5)
  have hcause : u.causeSet 5 = clockCause u := causeSet_clock (hcount.hold.trans hh)
  have hrest : KeepsClocks [fRSTCAUSE_HIST, fRSTCAUSE_LAST] u (u.causeSet 5) := by
    rw [hcause]
    exact .ofWrites (((Writes.refl _ u).setFld (by decide) _).setFld (by decide) 5)
  refine ⟨(u.causeSet 5).resetWatchdog, ?run, hlast.trans ?last, ?hist, hhold, hrole.trans (hrest.role.trans hcount.role),
    hpending.trans (hrest.pending.trans hcount.pending)⟩
  case run =>
    rw [← resetAct_clock]
    exact congrArg Host.Outcome.next (if_pos ht)
  case last =>
    rw [hcause]
    exact State.fld_setFld _ fRSTCAUSE_LAST 5 (by decide)
  case hist =>
    rw [hhist, hcause, clockCause, State.fld_setFld_other _ _ _ _ (by decide), fld_setFld_latch u _ (by decide) (by decide), Nat.testBit_or,
      Nat.testBit_two_pow_self, Bool.or_true]

/-- The clock registers as one descriptor answers them (R116). -/
theorem clkQuery_answers {s : State} {d : Desc} (h : s.ready d = true) :
    exec (.clkQuery d) s = .next (s.answers d [rCLKSTAT, rCLKFLAG, rCLKRCCAL]) := congrArg Host.Outcome.next (runDesc_done h rfl)

/-! ### O29 -/

/-- Settles O29: the sources from the write of CLKCTL (`clkWriteCtl_taken`), the lock and the switch of the root group; the monitors from
what a forced safe state leaves (`safeForce_alarm`); the clock-fail timer from a reset of watchdog scope (`resetWatchdog_spec`). -/
theorem clocks : Obligations.Clocks := by
  unfold Obligations.Clocks
  refine ⟨fun s v n hrun => ⟨?hfReady, ?calibrated, ?cut, ?pllStart, ?pllRefused, ?lock, ?lockChapter, ?pllStop, ?pllInUse, ?hfStop,
    ?hfInUse, ?hfStart, ?switch, ?unlocked, ?noSource, ?held, ?heldApply, ?noneHeld⟩,
    fun s d ha hrun => ⟨?crystal, ?pll, ?hfUnused, ?hfUsed, lfrcFail_told ha, ?release, ?keepForced, ?timer, ?noTimer, ?query⟩⟩
  case hfReady => exact fun hhf hstop => hfrcReady_ready hhf hstop
  case calibrated => exact fun hx => (calibration_ends s n true).trans (congrArg _ (if_pos (by simp [hx])))
  case cut => exact (calibration_ends s n false).trans (congrArg _ (if_neg (by simp)))
  case pllStart => exact fun _ hhf hx => pllEnable_starts hrun hhf hx
  case pllRefused => exact fun hoff _ hx => pllEnable_refused hrun hoff hx
  case lock => exact fun hpll hx hlock hheld hsfe hfont hr => pllLock_locks hpll hx hlock hheld hsfe hfont hr
  case lockChapter =>
    exact fun hpll hx hlock hheld hsfe hfont hc hb hup hbells => pllLock_scriptorium hpll hx hlock hheld hsfe hfont hc hb hup hbells
  case pllStop => exact fun _ hhf hroot hnow hheld hspire => pllDisable_stops hrun hhf hroot hnow hheld hspire
  case pllInUse => exact fun hon hroot => pllDisable_refused hrun hon hroot
  case hfStop => exact fun hroot hnow hheld _ hpll => hfrcDisable_stops hrun hroot hnow hheld hpll
  case hfInUse => exact fun hroot hhf => hfrcDisable_refused hrun hroot hhf
  case hfStart => exact fun hpll => hfrcEnable_starts hrun hpll
  case switch => exact fun hv hstop hlock hw harm => clkselWrite_switches hrun hv hstop hlock hw harm
  case unlocked => exact fun hv hstop hlock => clkselWrite_refused hrun hstop (by simp [State.selRefused, hv, hlock])
  case noSource =>
    refine fun hv hstop => clkselWrite_refused hrun hstop ?_
    rw [hv]
    exact selRefused_divided s
  case held => exact fun hstop => (clkselWrite_writes hrun v).trans (congrArg _ (if_pos (by simp [hstop])))
  case heldApply => exact fun hheld hstop hlock hnow => clkselHeldApply_takes hrun hheld hstop hlock hnow
  case noneHeld => exact fun hheld => clkselHeldApply_none hheld
  case crystal => exact fun hx hpll => crystalFail_holdover ha hx hpll
  case pll => exact fun hlock hroot hok hsfe hfont => pllFail_fallsBack ha hlock hroot hok hsfe hfont
  case hfUnused => exact fun hok hroot => hfrcFail_unused ha hok hroot
  case hfUsed => exact fun hok hroot => hfrcFail_used ha hok hroot
  case release =>
    intro hforced hnow hok
    have hgood : (s.on fCLKSTAT_FORCED && s.rootGood) = true := by simp [hforced, rootGood_hfrc hnow, hok]
    exact ⟨s.safeLift, (clksafeRelease_writes hrun).trans (congrArg _ (if_pos hgood)), safeLift_spec s⟩
  case keepForced =>
    exact fun _ hnow hok => (clksafeRelease_writes hrun).trans (congrArg _ (if_neg (by simp [rootGood_hfrc hnow, hok])))
  case timer => exact fun ht hh => clockFailTimer_resets ht hh
  case noTimer => exact fun ht => congrArg Host.Outcome.next (if_neg (by simp [ht]))
  case query => exact fun hready => clkQuery_answers hready

end Sys2Proof.Proofs
end

section
/-! PROOF. MRAM_WRITE ends a reservation of Cantoris (R126, R361), and the refutation of O39. -/

namespace Sys2Proof.Proofs

open Sys2Proof Sys2Proof.Machine

/-! ### Rhoco's write of one word -/

/-- Rhoco writes an aligned word as one WriteUnique. -/
theorem rhocoWrite_word (s : State) {a : Nat} {bs : List Byte} (ha : a % 4 = 0) (hlen : bs.length = 4) :
    s.rhocoWrite a bs = s.writeUnique (some .dec) 0 a bs := by
  have hne : bs.isEmpty = false := by cases bs <;> simp_all
  rw [State.rhocoWrite, hlen, State.wordsWrite, if_neg (by simp [hne]), ha]
  simp only [Nat.sub_zero, List.take_of_length_le hlen.le, List.drop_of_length_le hlen.le]
  rfl

theorem setLines_dec_cant (s : State) (l : List CLine) : (s.setLines .dec l).cant = s.cant := rfl

theorem mramWrite_cant (s : State) (a : Nat) (bs : List Byte) : (s.mramWrite a bs).cant = s.cant := State.sets_cant _ _

/-- With nothing of it in its cache, a line that Decani invalidates elsewhere takes Cantoris's reservation alone (R361). -/
theorem invalidateOthers_cant (s : State) (base : Nat) (hcant : s.cant.dc = []) :
    (s.invalidateOthers (some .dec) base).cant = s.cant.unreserve base := by
  have hdrop : dropLine s.cant.dc base = s.cant.dc := by rw [hcant]; rfl
  show Core.unreserve { s.cant with dc := dropLine s.cant.dc base } base = _
  rw [hdrop]

/-- With nothing cached a WriteUnique of Decani leaves Cantoris all but its reservation of the line (R361). -/
theorem writeUnique_cant (s : State) (agent a : Nat) (bs : List Byte) (hcant : s.cant.dc = []) (hdesc : s.descCache = []) :
    (s.writeUnique (some .dec) agent a bs).cant = s.cant.unreserve (lineOf a) := by
  have hdirty : (s.homeStart agent a).dirtyElsewhere (some .dec) (lineOf a) = none := by
    simp [State.dirtyElsewhere, othersOf, State.lines, State.homeStart, hcant, hdesc, findLine]
  have hinv : ((s.homeStart agent a).invalidateOthers (some .dec) (lineOf a)).cant = s.cant.unreserve (lineOf a) :=
    invalidateOthers_cant _ _ hcant
  rw [← hinv]
  unfold State.writeUnique
  simp only [hdirty]
  split <;> split <;> simp only [mramWrite_cant, setLines_dec_cant]

/-! ### MRAM_WRITE -/

theorem svReturn_cant (s : State) {c : Caller} (r : SvcRes) (hc : c.core = .decani) : (s.svReturn c r).cant = r.st.cant := by
  rw [State.svReturn, hc]
  rfl

/-- On Decani a service runs while Rhoco does and is not in recovery (R126). -/
theorem svcall_decani {s : State} {c : Caller} (hc : c.core = .decani) (hup : s.rhocoUp = true) (hrec : s.on fBOOTSTAT_RECOV = false)
    (num : Nat) (act : State → SvcRes) : s.svcall c num act = s.svReturn c (act s) := by
  simp only [State.svcall, hc, hup, hrec, Bool.not_false, Bool.and_self, if_true]

theorem length_coherentBytes (s : State) (a n : Nat) : (s.coherentBytes a n).length = n := by
  simp [State.coherentBytes]

/-- A word that MRAM_WRITE writes from Decani ends Cantoris's reservation of its line. -/
theorem mramWrite_unreserves {s : State} {c : Caller} (hc : c.core = .decani) (hup : s.rhocoUp = true)
    (hrec : s.on fBOOTSTAT_RECOV = false) (hn : s.svArg c 2 = 4) (hin : inMram (s.svArg c 0) 4 = true) (hword : s.svArg c 0 % 4 = 0)
    (hw : s.svMay c .w (s.svArg c 0) 4 = true) (hr : s.svMay c .r (s.svArg c 1) 4 = true)
    (hslot : s.inRunningSlot (s.svArg c 0) 4 = false) (hcant : s.cant.dc = []) (hdesc : s.descCache = []) : ∃ t,
      exec (.mramWrite c) s = .next t ∧ t.cant = s.cant.unreserve (lineOf (s.svArg c 0)) := by
  refine ⟨_, rfl, ?_⟩
  rw [svcall_decani hc hup hrec, svReturn_cant _ _ hc]
  simp only [hn, hin, hw, hr, hslot, Bool.not_true, Bool.or_self, Bool.false_eq_true, if_false, State.sv]
  rw [rhocoWrite_word s hword (length_coherentBytes s _ 4), writeUnique_cant s 0 _ _ hcant hdesc]

/-! ### The counterexample -/

/-- A booted Cell whose Decani asks for one word to be written to the first office slot, while Cantoris runs and holds a
reservation of that line. -/
def reservedCell : State :=
  { bootedCell.sets [(fCANTCTL_PWR, 1), (fCANTCTL_RUN, 1), (fCANTSTAT_STATE, 3)] with
    dec := { bootedCell.dec with gpr := [0x10020000, 0x20000100, 4] ++ List.replicate 13 0 }
    cant := { bootedCell.cant with resv := some 0x10020000 } }

/-- The call comes from the Sacristy, in supervisor privilege. -/
def sacristyCaller : Caller := ⟨.decani, .sacristy, true⟩

theorem reservedCell_rhoco : reservedCell.rhocoUp = true ∧ reservedCell.on fBOOTSTAT_RECOV = false ∧ reservedCell.awake = true := by
  decide +kernel

/-- The call of `reservedCell` is one that MRAM_WRITE carries out. -/
theorem reservedCell_permitted : reservedCell.svMay sacristyCaller .w 0x10020000 4 = true ∧
    reservedCell.svMay sacristyCaller .r 0x20000100 4 = true ∧ reservedCell.inRunningSlot 0x10020000 4 = false := by
  decide +kernel

/-- Refutes O39: its clause on a word that MRAM_WRITE writes says that Cantoris stays as it is, with its reservation, but a write to a
reserved line by another agent ends the reservation (R361). In `reservedCell` Cantoris has reserved the line that is written; no
hypothesis of the clause speaks of reservations. -/
theorem not_rhocoServices : ¬ Obligations.RhocoServices := by
  unfold Obligations.RhocoServices
  intro h
  obtain ⟨hup, hrec, hawake⟩ := reservedCell_rhoco
  obtain ⟨hw, hr, hslot⟩ := reservedCell_permitted
  obtain ⟨-, -, hwrite, -⟩ := h reservedCell sacristyCaller [] rfl hup hrec (by decide) hawake
  obtain ⟨t, hrun, ⟨-, -, -, hcant, -⟩, -⟩ := hwrite (by decide) (by decide) (by decide) hw hr hslot rfl rfl rfl
  obtain ⟨u, hrun', hlost⟩ := mramWrite_unreserves (s := reservedCell) (c := sacristyCaller) rfl hup hrec rfl (by decide) (by decide)
    hw hr hslot rfl rfl
  obtain rfl : t = u := Host.Outcome.next.inj (hrun.symm.trans hrun')
  have hresv : reservedCell.cant.resv = none := by
    rw [← hcant, hlost]
    decide
  exact absurd hresv (by decide)

end Sys2Proof.Proofs
end

section
/-! PROOF. What a node does at the line's times (R186 to R189, R191, R204): superframes, the sweep, slots, frames sent again and
beacons missed. -/

namespace Sys2Proof.Proofs

open Sys2Proof Sys2Proof.Machine

/-! ### The node's frame -/

theorem cell_onWalk {s : State} (hc : s.role = .cell) : s.onWalk = true := by simp [State.onWalk, hc]

/-- LPSTAT.OWE is a register field of its own. -/
theorem oweSync_writes (s : State) : Writes [fLPSTAT_OWE] s s.oweSync := (Writes.refl _ s).setFld (List.mem_singleton_self _) _

/-- A change of the node followed by writes of registers leaves all else as it was. -/
theorem Writes.besidesNode {l : List Fld} {s t : State} {g : Node → Node} (h : Writes l (s.setNode g) t) :
    s.besidesAll { t with node := s.node } := by
  rw [h.regs]
  exact s.besidesAll_regs _

theorem Writes.node {l : List Fld} {s t : State} (h : Writes l s t) : t.node = s.node := by rw [h.regs]

/-! ### Superframes -/

/-- The node as a superframe starts: a beacon and what was sent are one superframe older, slots and attention are of the last (R186). -/
def agedNode (n : Node) : Node :=
  { n with
    beaconAge := n.beaconAge.map (fun a => a + 1), slots := 0, attn := false, bMuster := false
    up := n.up.map (fun (x : Tx) => { x with sent := x.sent.map (fun a => a + 1) }) }

/-- Whether the part still tracks the line (R194): a beacon came in the last 2 superframes. -/
def tracks (s : State) : Bool := s.node.beaconAge.any (fun a => decide (a ≤ 2))

/-- A Cell drives no walk: a superframe ages the node and brings LPSTAT up to date. -/
theorem superframeStart_runs (s : State) (m : WalkMon) (hc : s.role = .cell) : exec (.superframeStart m) s =
    .next ((((s.setNode agedNode).setFld fLPSTAT_TRACK (b2n (tracks (s.setNode agedNode)))).syncNow).oweSync) := by
  show execSuperframeStart m s = _
  rw [execSuperframeStart, if_pos (cell_onWalk hc)]
  have hdrive : (s.setNode agedNode).hasDrive = false := by rw [State.hasDrive, State.setNode_role, hc]; rfl
  exact congrArg (fun t : State => Host.Outcome.next t.oweSync)
    (if_neg fun h => Bool.false_ne_true (hdrive.symm.trans (Bool.and_eq_true_iff.mp h).1))

theorem superframeStart_ages (s : State) (m : WalkMon) (a : Nat) (hc : s.role = .cell) (hb : s.node.beaconAge = some a) : ∃ t : State,
    exec (.superframeStart m) s = .next t ∧ t.node.beaconAge = some (a + 1) ∧ t.node.slots = 0 ∧ t.node.attn = false ∧
      t.on fLPSTAT_TRACK = decide (a + 1 ≤ 2) ∧ s.besidesAll { t with node := s.node } := by
  let u := (s.setNode agedNode).setFld fLPSTAT_TRACK (b2n (tracks (s.setNode agedNode)))
  have hsync : Writes [fLPSTAT_SYNC, fLPSTAT_OWE] u u.syncNow.oweSync :=
    (syncNow_writes u (by simp)).trans ((oweSync_writes _).mono (by simp))
  have hall : Writes [fLPSTAT_TRACK, fLPSTAT_SYNC, fLPSTAT_OWE] (s.setNode agedNode) u.syncNow.oweSync :=
    ((Writes.refl _ _).setFld (by simp) _).trans (hsync.mono (by simp))
  have hage : (agedNode s.node).beaconAge = some (a + 1) := by rw [agedNode, hb]; rfl
  refine ⟨u.syncNow.oweSync, superframeStart_runs s m hc, ?age, ?slots, ?attn, ?track, hall.besidesNode⟩
  case age => rw [hall.node]; exact hage
  case slots | attn => rw [hall.node]; rfl
  case track =>
    rw [hsync.on (by decide), on_setFld_b2n _ _ _ (by decide) (by decide), tracks, State.setNode, hage]
    rfl

/-! ### The sweep -/

/-- With no walk of its own to drive a part takes part in the attached walk's sweep. -/
theorem attentionSweep_runs (s : State) (hc : s.role = .cell) (hd : s.nodeSweep.drives = false) :
    exec (.attentionSweep []) s = .next s.nodeSweep.oweSync := by
  show execAttentionSweep [] s = _
  simp only [execAttentionSweep, cell_onWalk hc, if_true, hd, Bool.false_eq_true, if_false]

/-- A part that may send, is no newcomer and has something to tell pulses at its index: ATTN where it wants a slot, else BUSY (R187). -/
theorem nodeSweep_pulse {s : State} (hs : s.canSend = true) (hi : s.sweepIndex < 271) (h : s.wantsSlot = true ∨ s.owes = true) :
    s.nodeSweep = (s.setNode (fun n => { n with attn := s.wantsSlot })).emit (.pulse .attached s.sweepIndex (!s.wantsSlot)) := by
  have hold : (decide (s.sweepIndex = 271) || s.wantsSlot) = s.wantsSlot := by simp; omega
  have hne : (s.sweepIndex != 271) = true := by simp; omega
  rw [State.nodeSweep, if_neg (by simp [hs])]
  simp only [hold, hne, Bool.and_true]
  exact if_pos (by rcases h with h | h <;> simp [h])

theorem attentionSweep_pulses (s : State) (hc : s.role = .cell) (hd : s.drives = false) (hs : s.canSend = true)
    (hi : s.sweepIndex < 271) (h : s.wantsSlot = true ∨ s.owes = true) : ∃ t : State, exec (.attentionSweep []) s = .next t ∧
      t.out = .pulse .attached s.sweepIndex (!s.wantsSlot) :: s.out ∧ t.node.attn = s.wantsSlot ∧ s.besides t := by
  have hpulse := nodeSweep_pulse hs hi h
  refine ⟨_, attentionSweep_runs s hc (by rw [hpulse]; exact hd), ?_⟩
  rw [hpulse]
  exact ⟨rfl, rfl, s.besides_refl⟩

theorem attentionSweep_silent (s : State) (hc : s.role = .cell) (hd : s.drives = false) (hs : s.canSend = false) : ∃ t : State,
    exec (.attentionSweep []) s = .next t ∧ t.node = s.node ∧ s.besidesAll t := by
  have hnone : s.nodeSweep = s := if_pos (by simp [hs])
  refine ⟨_, attentionSweep_runs s hc (by rw [hnone]; exact hd), ?_⟩
  rw [hnone]
  exact ⟨rfl, (oweSync_writes s).besidesAll⟩

/-! ### Slots -/

theorem uplinkSlot_attached (s : State) (i : Nat) (valid : Bool) (hs : s.canSend = true) (hn : s.node.slots ≠ 0) :
    exec (.uplinkSlot .attached i valid) s = .next ((s.setNode (fun n => { n with slots := n.slots - 1 })).sendOne).oweSync :=
  congrArg Host.Outcome.next (if_pos (by simp [hs, hn]))

theorem uplinkSlot_none (s : State) (i : Nat) (valid : Bool) (hn : s.node.slots = 0) :
    exec (.uplinkSlot .attached i valid) s = .next s := congrArg Host.Outcome.next (if_neg (by simp [hn]))

theorem uplinkSlot_notDriven (s : State) (i : Nat) (valid : Bool) (hd : s.drives = false) :
    exec (.uplinkSlot .driven i valid) s = .next s := congrArg Host.Outcome.next (if_neg (by simp [hd]))

/-- Of own frames a slot takes the first that waits, unless the part gives up its walk or must join (R188, R193). -/
theorem sendOne_frame {s : State} {x : Tx} (hl : s.node.leaving = false) (hj : s.joining = false)
    (hx : s.node.up.find? (fun x => x.sent.isNone) = some x) : s.sendOne = s.sendTx x := by
  rw [State.sendOne, if_neg (by simp [hl]), if_neg (by simp [hj]), hx]

/-- With no total of tokens to name, sending a frame changes what the node owes alone (R189). -/
theorem sendUp_sends {s : State} (f : Frame) (ht : s.node.tokDue = false) : ∃ g : Frame,
    (s.sendUp f).out = .frame .attached g :: s.out ∧ g.payload = f.payload ∧ (s.sendUp f).node.up = s.node.up ∧
      (s.sendUp f).node.slots = s.node.slots ∧ s.besides (s.sendUp f) := by
  have hno : s.sendUp f = _ := if_neg (by simp [ht])
  rw [hno]
  exact ⟨_, rfl, rfl, rfl, rfl, s.besides_refl⟩

/-- The node once a frame of its own has been taken for sending (R189). -/
def sentNode (x : Tx) (n : Node) : Node :=
  { n with
    up := n.up.map (fun (y : Tx) => if y = x then { y with sent := some 0, tries := y.tries + 1 } else y)
    joinSent := n.joinSent || frType x.f = 9, joinOwed := n.joinOwed && frType x.f != 9 }

/-- After a frame other than a COMPL no RESET can be due (R131). -/
theorem sendTx_event {s : State} {x : Tx} (htype : frType x.f = 5) : s.sendTx x = (s.setNode (sentNode x)).sendUp x.f :=
  if_neg (by rw [htype]; decide)

/-- An EVENT frame that is sent waits for its acknowledgement (R189). -/
theorem sendTx_sends {s : State} {x : Tx} (hup : s.node.up = [x]) (htype : frType x.f = 5) (ht : s.node.tokDue = false) : ∃ g : Frame,
    (s.sendTx x).out = .frame .attached g :: s.out ∧ g.payload = x.f.payload ∧
      (s.sendTx x).node.up = [{ x with sent := some 0, tries := x.tries + 1 }] ∧ (s.sendTx x).node.slots = s.node.slots ∧
      s.besides (s.sendTx x) := by
  have hmarked : (sentNode x s.node).up = [{ x with sent := some 0, tries := x.tries + 1 }] := by simp [sentNode, hup]
  obtain ⟨g, hout, hpay, hkept, hslots, hbes⟩ := sendUp_sends (s := s.setNode (sentNode x)) x.f ht
  rw [sendTx_event htype]
  exact ⟨g, hout, hpay, hkept.trans hmarked, hslots, hbes⟩

theorem uplinkSlot_sends (s : State) (x : Tx) (i : Nat) (valid : Bool) (hs : s.canSend = true) (hn : s.node.slots = 1)
    (hl : s.node.leaving = false) (hj : s.joining = false) (hup : s.node.up = [x]) (hx : x.sent = none) (htype : frType x.f = 5)
    (ht : s.node.tokDue = false) : ∃ (t : State) (g : Frame), exec (.uplinkSlot .attached i valid) s = .next t ∧
      t.out = .frame .attached g :: s.out ∧ g.payload = x.f.payload ∧ t.node.up = [{ x with sent := some 0, tries := x.tries + 1 }] ∧
      t.node.slots = 0 ∧ s.besides t := by
  let u := s.setNode (fun n => { n with slots := n.slots - 1 })
  have hone : u.sendOne = u.sendTx x := sendOne_frame hl hj (by simp [u, State.setNode, hup, hx])
  obtain ⟨g, hout, hpay, hsent, hslots, hbes⟩ := sendTx_sends (s := u) hup htype ht
  refine ⟨_, g, uplinkSlot_attached s i valid hs (by omega), ?_⟩
  rw [hone]
  exact ⟨hout, hpay, hsent, hslots.trans (by simp [u, State.setNode, hn]), hbes⟩

/-! ### Frames sent again -/

theorem resendAfter_le (ra : Bool) (addr : Nat) : resendAfter ra addr ≤ 6 := by
  unfold resendAfter
  split <;> decide

/-- A frame that is due again waits to be sent, and LPCNT counts it. -/
theorem resendTimeout_due (s : State) (x : Tx) (a : Nat) (hc : s.role = .cell) (hup : s.node.up = [x]) (hx : x.sent = some a)
    (ha : 6 ≤ a) : ∃ t : State, exec (.resendTimeout .attached) s = .next t ∧ t.node.up = [{ x with sent := none }] ∧
      t.fld fLPCNT_RESEND = satAdd (2 ^ fLPCNT_RESEND.w - 1) (s.fld fLPCNT_RESEND) 1 ∧ s.besidesAll { t with node := s.node } := by
  have hdue : resendAfter false (s.fld fLINEADDR_CELLADDR) ≤ a := (resendAfter_le _ _).trans ha
  let u := s.setNode (fun q => { q with up := [{ x with sent := none }] })
  have hrun : exec (.resendTimeout .attached) s = .next (u.count fLPCNT_RESEND).oweSync := by
    show execResendTimeout .attached s = _
    simp [execResendTimeout, hc, hup, hx, hdue, cell_onWalk hc, u, State.setNode, State.countBy, State.count]
  have hall : Writes [fLPCNT_RESEND, fLPSTAT_OWE] u (u.count fLPCNT_RESEND).oweSync :=
    ((Writes.refl _ u).setFld (by simp) _).trans ((oweSync_writes _).mono (by simp))
  refine ⟨_, hrun, congrArg Node.up hall.node, ?count, hall.besidesNode⟩
  rw [(oweSync_writes _).kept _ (by decide)]
  exact fld_count u fLPCNT_RESEND (by decide)

theorem resendTimeout_none (s : State) (hup : s.node.up = []) : exec (.resendTimeout .attached) s = .next s := by
  show execResendTimeout .attached s = _
  simp [execResendTimeout, hup]

/-! ### Beacons missed -/

/-- A change of GRANT with no TOKENS call waiting (R68): the fields it brings up to date. -/
theorem setGrant_writes {s : State} (h : s.awake = true) (hw : s.rst.tokWait = none) (n : Nat) :
    Writes tokenFields ((s.setFld fPWRTOK_GRANT (min 24 n)).redraw) (s.setGrant n) := by
  have hret := retoken_writes (s := (s.setFld fPWRTOK_GRANT (min 24 n)).redraw) h
  have hfin : s.setGrant n = ((s.setFld fPWRTOK_GRANT (min 24 n)).redraw).retoken := by
    have hrst : ((s.setFld fPWRTOK_GRANT (min 24 n)).redraw).retoken.rst.tokWait = none := by rw [hret.regs]; exact hw
    rw [State.setGrant, State.tokFinish, hrst]
  rw [hfin]
  exact hret

theorem fld_setGrant {s : State} (h : s.awake = true) (hw : s.rst.tokWait = none) (n : Nat) {g : Fld}
    (hg : tokenFields.all (fun f => f.other g) = true) : (s.setGrant n).fld g = (s.setFld fPWRTOK_GRANT (min 24 n)).fld g :=
  (setGrant_writes h hw n).kept g hg

theorem setGrant_besidesAll {s : State} (h : s.awake = true) (hw : s.rst.tokWait = none) (n : Nat) : s.besidesAll (s.setGrant n) :=
  have hredraw : s.besidesAll (s.setFld fPWRTOK_GRANT (min 24 n)).redraw :=
    ⟨⟨rfl, rfl, rfl, rfl, rfl, rfl⟩, rfl, rfl, rfl, rfl, rfl, rfl⟩
  State.besidesAll_trans hredraw (setGrant_writes h hw n).besidesAll

/-- The part with the beacons missed flagged and counted, before its tokens go (R204). -/
def beaconLost (s : State) : State := (s.raise [fLPFLAG_BMISS]).count fLPCNT_BMISS

theorem beaconLost_besidesAll (s : State) : s.besidesAll (beaconLost s) :=
  State.besidesAll_trans (State.besidesAll_raise s _) (State.besidesAll_count _ _)

/-- No grant waits, and the part asks its walk anew for what it wants. -/
def askedAgain (s : State) : State :=
  ({ s with pwr := { s.pwr with grantPend := none } }).setNode (fun n => { n with tokDue := n.tokDue || n.wanted != 0 })

theorem askedAgain_besides {s t : State} (h : s.besidesAll t) : s.besidesAll { (askedAgain t).oweSync with node := s.node } := by
  obtain ⟨hbes, hmem, hhl, hout, -, hdrv, hscr⟩ := h
  exact ⟨hbes, hmem, hhl, hout, rfl, hdrv, hscr⟩

theorem askedAgain_fld (s : State) (g : Fld) : (askedAgain s).fld g = s.fld g := rfl

theorem askedAgain_grantPend (s : State) : (askedAgain s).oweSync.pwr.grantPend = none := rfl

/-- Without beacons the tokens are gone and no grant waits; the part asks again for what it wants (R204). -/
theorem beaconMiss_runs (s : State) (hc : s.role = .cell) {k : Nat} (hb : s.node.beaconAge = some (k + 3)) :
    exec .beaconMiss s = .next (askedAgain ((beaconLost s).setGrant 0)).oweSync := by
  show execBeaconMiss s = _
  rw [execBeaconMiss, if_pos (by simp [cell_onWalk hc, hb])]
  rfl

theorem beaconMiss_lost (s : State) (k : Nat) (h : s.awake = true) (hw : s.rst.tokWait = none) (hc : s.role = .cell)
    (hb : s.node.beaconAge = some (k + 3)) : ∃ t : State, exec .beaconMiss s = .next t ∧ t.on fLPFLAG_BMISS = true ∧
      t.fld fLPCNT_BMISS = satAdd (2 ^ fLPCNT_BMISS.w - 1) (s.fld fLPCNT_BMISS) 1 ∧ t.fld fPWRTOK_GRANT = 0 ∧
      t.pwr.grantPend = none ∧ s.besidesAll { t with node := s.node } := by
  have hfld (g : Fld) (ho : fLPSTAT_OWE.other g = true) (ht : tokenFields.all (fun f => f.other g) = true) :
      (askedAgain ((beaconLost s).setGrant 0)).oweSync.fld g = ((beaconLost s).setFld fPWRTOK_GRANT 0).fld g := by
    rw [(oweSync_writes _).kept g (by simpa using ho), askedAgain_fld, fld_setGrant (s := beaconLost s) h hw 0 ht]
    rfl
  refine ⟨_, beaconMiss_runs s hc hb, ?flag, ?count, ?grant, askedAgain_grantPend _, ?besides⟩
  case flag =>
    rw [on_of_fld (hfld _ (by decide) (by decide)), on_setFld_other _ _ _ _ (by decide), beaconLost, State.count,
      on_setFld_other _ _ _ _ (by decide)]
    exact on_setFld_one s _ (by decide) (by decide)
  case count =>
    rw [hfld _ (by decide) (by decide), State.fld_setFld_other _ _ _ _ (by decide), beaconLost, fld_count _ _ (by decide)]
    exact congrArg (satAdd _ · 1) (State.fld_setFld_other s _ _ 1 (by decide))
  case grant => rw [hfld _ (by decide) (by decide), State.fld_setFld _ _ _ (by decide), Nat.zero_mod]
  case besides =>
    exact askedAgain_besides (State.besidesAll_trans (beaconLost_besidesAll s) (setGrant_besidesAll (s := beaconLost s) h hw 0))

theorem beaconMiss_early (s : State) (hb : s.node.beaconAge = some 2) : exec .beaconMiss s = .next s := by
  show execBeaconMiss s = _
  simp [execBeaconMiss, hb]

end Sys2Proof.Proofs
end

section
/-! PROOF. The Lectern session (R137, R184, R189, R202), and O47. -/

namespace Sys2Proof.Proofs

open Sys2Proof Sys2Proof.Machine

/-! ### Frames on the jack -/

/-- The type of a frame is the lowest four bits of its header (Table 9.1). -/
theorem frType_mkHdr {type : Nat} (h : type < 16) (ra wake more addr ring len seq ack b6 b7 : Nat) (p : List Byte) :
    frType ⟨mkHdr type ra wake more addr ring len seq ack b6 b7, p⟩ = type := by
  simp only [frType, bitsOf, mkHdr]
  omega

/-- The ACK of a frame of the jack is byte 5 of its header. -/
theorem frAck_mkHdr {type addr ring len seq ack : Nat} (ht : type < 16) (ha : addr < 4096) (hr : ring < 4) (hl : len < 256)
    (hs : seq < 256) (hk : ack < 256) (p : List Byte) : frAck ⟨mkHdr type 0 0 0 addr ring len seq ack 0 0, p⟩ = ack := by
  simp only [frAck, bitsOf, mkHdr]
  omega

/-- A jack that is there and may receive (R202). -/
structure JackOpen (s : State) : Prop where
  awake : s.awake = true
  jack : s.hasJack = true
  present : s.on fLJSTAT_PRESENT = true
  noOv : s.on fLJSTAT_OV = false

/-- A good frame of a type from the handheld (R184, R202). -/
structure FromHandheld (f : Frame) (type : Nat) : Prop where
  ok : frameOk false true f = true
  type : frType f = type
  ra : frRA f = true
  addr : frAddr f = 0xFFF

/-- The part with its session open. -/
def inSession (s : State) : State := s.setNode (fun n => { n with session := true })

theorem awake_notOff {s : State} (h : s.awake = true) : s.slp.st ≠ .off := by
  simp only [State.awake, Bool.and_eq_true, decide_eq_true_eq] at h
  rw [h.1]
  decide

/-- The part with its session open and the address that ASSIGN gives it for the session, before LINEADDR shows it (R202). -/
def sessionNamed (s : State) (addr : Nat) : State := s.setNode (fun n => { n with session := true, sessAddr := some addr })

/-- What the jack's receiver lets pass. -/
theorem JackOpen.receives {s : State} (h : JackOpen s) :
    (!s.hasJack || !s.on fLJSTAT_PRESENT || s.on fLJSTAT_OV || decide (s.slp.st = .off)) = false := by
  simp [h.jack, h.present, h.noOv, awake_notOff h.awake]

section
variable {s : State} {f : Frame} (h : JackOpen s)
include h

theorem lecternFrame_bad (hbad : frameOk false true f = false) : exec (.lecternFrame f) s = .next s.badFrame := by
  show execLecternFrame f s = _
  rw [execLecternFrame, if_neg (by rw [h.receives]; decide), if_pos (by simp [hbad])]

theorem lecternFrame_desc (hf : FromHandheld f 2) : exec (.lecternFrame f) s = .next ((inSession s).jackDesc f).jackAnswer := by
  show execLecternFrame f s = _
  rw [execLecternFrame, if_neg (by rw [h.receives]; decide), if_neg (by simp [hf.ok]), if_neg (by simp [hf.ra, hf.addr])]
  simp [hf.type, inSession]

theorem lecternFrame_recover (hf : FromHandheld f 13) : exec (.lecternFrame f) s = .next (inSession s).recoverIn.jackAnswer := by
  show execLecternFrame f s = _
  rw [execLecternFrame, if_neg (by rw [h.receives]; decide), if_neg (by simp [hf.ok]), if_neg (by simp [hf.ra, hf.addr])]
  simp [hf.type, inSession]

/-- In Loop role an ASSIGN NEW of the part's unique ID gives the session its address (R202). -/
theorem lecternFrame_assign (hl : s.role = .loop) (hf : FromHandheld f 8) (hu : payNat f 0 8 = s.uid) (hact : payNat f 8 1 = 0) :
    exec (.lecternFrame f) s =
      .next (((sessionNamed s (payNat f 9 1)).setFld fLINEADDR_CELLADDR (payNat f 9 1)).setFld fLINEADDR_VALID 1).jackAnswer := by
  show execLecternFrame f s = _
  rw [execLecternFrame, if_neg (by rw [h.receives]; decide), if_neg (by simp [hf.ok]), if_neg (by simp [hf.ra, hf.addr])]
  simp [hf.type, hl, hu, hact, sessionNamed, State.setNode, State.sets_cons, State.sets_nil]

end

/-! ### Answers in the session's windows -/

theorem jackAnswer_cell {s : State} (h : s.role = .cell) : s.jackAnswer = s := by
  rw [State.jackAnswer, if_neg (by rw [h]; decide)]

/-- With nothing queued a session of Loop role answers nothing. -/
theorem jackAnswer_idle {s : State} (h : s.node.up = []) : s.jackAnswer = s := by
  rw [State.jackAnswer, h]
  split
  next x hx => split at hx <;> cases hx
  next => rfl

/-! ### Descriptors from the handheld -/

/-- The part with the session's first descriptor in its inbox. -/
def firstAccepted (s : State) (f : Frame) : State :=
  s.setNode (fun n => { n with sessRx := n.sessRx.set 0 1, inbox := n.inbox ++ [⟨.lectern, 0, 1, 0, f.payload⟩] })

/-- A DESC of the first SEQ on a fresh ring is accepted and acknowledged (R189, R202). -/
theorem jackDesc_first {s : State} {f : Frame} (hb : s.rst.booted = true) (hr : s.rst.resetDue = false)
    (hrx : s.node.sessRx = [0, 0, 0, 0]) (hring : frRing f = 0) (hseq : bitsOf f.hdr 32 8 = 1) :
    s.jackDesc f = ((firstAccepted s f).jackSend 3 0 0 []).pump := by
  rw [State.jackDesc, if_neg (by simp [hb, hr]), hring, hseq, hrx]
  rfl

/-- With no other descriptor waiting, one of an assigned opcode is left for the command that runs it. -/
theorem firstAccepted_quiet {s : State} {f : Frame} (hin : s.node.inbox = []) (hheld : s.scr.held = [])
    (hop : opAssigned (f.payload.getD 0 0).toNat = true) : ((firstAccepted s f).jackSend 3 0 0 []).quiet = true := by
  have hwait : ((firstAccepted s f).jackSend 3 0 0 []).waitingDescs = [⟨.lectern, 0, 1, 0, f.payload⟩] := by
    simp [State.waitingDescs, State.jackSend, State.emit, firstAccepted, State.setNode, hin, hheld]
  rw [State.quiet, hwait]
  simpa [dsOpcode, dsByte] using hop

theorem lecternFrame_accepts {s : State} {f : Frame} (h : JackOpen s) (hc : s.role = .cell) (hf : FromHandheld f 2)
    (hb : s.rst.booted = true) (hr : s.rst.resetDue = false) (hin : s.node.inbox = []) (hheld : s.scr.held = [])
    (hrx : s.node.sessRx = [0, 0, 0, 0]) (hring : frRing f = 0) (hseq : bitsOf f.hdr 32 8 = 1)
    (hop : opAssigned (f.payload.getD 0 0).toNat = true) : ∃ (t : State) (g : Frame), exec (.lecternFrame f) s = .next t ∧
      t.node.session = true ∧ t.node.inbox = [⟨.lectern, 0, 1, 0, f.payload⟩] ∧ t.node.sessRx = [1, 0, 0, 0] ∧
      t.out = .frame .jack g :: s.out ∧ frType g = 3 ∧ frAck g = 1 ∧ s.besides t := by
  let u := firstAccepted (inSession s) f
  have hrun : exec (.lecternFrame f) s = .next (u.jackSend 3 0 0 []) := by
    rw [lecternFrame_desc h hf, jackDesc_first (s := inSession s) hb hr hrx hring hseq,
      State.pump_quiet _ (firstAccepted_quiet (s := inSession s) hin hheld hop), jackAnswer_cell (s := u.jackSend 3 0 0 []) hc]
  have hrx' : u.node.sessRx = [1, 0, 0, 0] := by simp [u, firstAccepted, inSession, State.setNode, hrx]
  have hsent : (u.jackSend 3 0 0 []).node = u.node := rfl
  refine ⟨u.jackSend 3 0 0 [], _, hrun, ?session, ?inbox, ?seq, rfl, frType_mkHdr (by decide) .., ?ack, ?besides⟩
  case session => rw [hsent]; rfl
  case seq => rw [hsent]; exact hrx'
  case besides => exact State.besides_trans (t := u) s.besides_refl (emit_frame u _).besides
  case inbox => simp [u, firstAccepted, inSession, State.setNode, State.jackSend, State.emit, hin]
  case ack =>
    rw [hrx']
    exact frAck_mkHdr (by decide) (fldOf_lt _ fLINEADDR_CELLADDR) (by decide) (by decide) (by decide) (by decide) _

/-! ### Recovery and the session's address -/

theorem recoverIn_recovers {s : State} (hj : s.hasJack = true) (hp : s.on fLJSTAT_PRESENT = true) (hup : s.rhocoUp = true)
    (hb : s.rst.booted = true) (hw : s.rst.b7Window = true) : s.recoverIn =
      { s.setFld fBOOTSTAT_RECOV 1 with rst := { s.rst with b7Window := false, autostart := none } } := by
  rw [State.recoverIn, if_pos (by simp [hj, hp, hup, hb, hw])]

theorem lecternFrame_recovers {s : State} {f : Frame} (h : JackOpen s) (hc : s.role = .cell) (hf : FromHandheld f 13)
    (hup : s.rhocoUp = true) (hb : s.rst.booted = true) (hw : s.rst.b7Window = true) : ∃ t : State,
      exec (.lecternFrame f) s = .next t ∧ t.on fBOOTSTAT_RECOV = true ∧ t.rst.autostart = none ∧ t.node.session = true ∧
      s.besidesAll { t with node := s.node } := by
  have hrec := recoverIn_recovers (s := inSession s) h.jack h.present hup hb hw
  refine ⟨(inSession s).recoverIn, ?run, ?_⟩
  case run => rw [lecternFrame_recover h hf, jackAnswer_cell (by rw [hrec]; exact hc)]
  rw [hrec]
  exact ⟨on_setFld_one (inSession s) _ (by decide) (by decide), rfl, rfl,
    ⟨rfl, rfl, rfl, rfl, rfl, rfl⟩, rfl, rfl, rfl, rfl, rfl, rfl⟩

theorem payNat_byte_lt (f : Frame) (off : Nat) : payNat f off 1 < 256 := by
  unfold payNat
  cases f.payload.drop off with
  | nil => decide
  | cons b bs => simpa [leNat] using b.isLt

theorem lecternFrame_assigns {s : State} {f : Frame} (h : JackOpen s) (hl : s.role = .loop) (hf : FromHandheld f 8)
    (hu : payNat f 0 8 = s.uid) (hact : payNat f 8 1 = 0) (hup : s.node.up = []) : ∃ t : State, exec (.lecternFrame f) s = .next t ∧
      t.fld fLINEADDR_CELLADDR = payNat f 9 1 ∧ t.on fLINEADDR_VALID = true ∧ t.node.sessAddr = some (payNat f 9 1) ∧
      s.besidesAll { t with node := s.node } := by
  let u := sessionNamed s (payNat f 9 1)
  let t := (u.setFld fLINEADDR_CELLADDR (payNat f 9 1)).setFld fLINEADDR_VALID 1
  have hwrites : Writes [fLINEADDR_CELLADDR, fLINEADDR_VALID] u t := ((Writes.refl _ u).setFld (by simp) _).setFld (by simp) _
  refine ⟨t, ?run, ?addr, ?valid, ?named, hwrites.besidesNode⟩
  case run => rw [lecternFrame_assign h hl hf hu hact, jackAnswer_idle (s := t) (by rw [hwrites.node]; exact hup)]
  case addr =>
    rw [State.fld_setFld_other _ _ _ _ (by decide), State.fld_setFld _ _ _ (by decide)]
    exact Nat.mod_eq_of_lt ((payNat_byte_lt f 9).trans (by decide))
  case valid => exact on_setFld_one _ _ (by decide) (by decide)
  case named => rw [hwrites.node]; rfl

/-! ### O47 -/

theorem jack_closed (s : State) (f : Frame) (rx : LineRx) (hj : s.hasJack = false) :
    exec (.lecternFrame f) s = .next s ∧ exec (.frameDiscarded .jack none rx) s = .next s :=
  ⟨congrArg Host.Outcome.next (if_pos (by simp [hj])), congrArg Host.Outcome.next (if_neg (by simp [hj]))⟩

theorem frameDiscarded_jack (s : State) (rx : LineRx) (hj : s.hasJack = true) :
    exec (.frameDiscarded .jack none rx) s = .next s.badFrame := congrArg Host.Outcome.next (if_pos hj)

/-- Settles O47, one lemma for each event of the line's times and each frame of the session. -/
theorem nodeTimes : Obligations.NodeTimes := by
  unfold Obligations.NodeTimes
  intro s f rx m x a k i valid h hw
  refine ⟨fun hc hb => superframeStart_ages s m a hc hb, ?attention, ?busy, fun hc hd hs => attentionSweep_silent s hc hd hs,
    fun _ hs hn hl hj hup hx htype ht => uplinkSlot_sends s x i valid hs hn hl hj hup hx htype ht, uplinkSlot_none s i valid,
    uplinkSlot_notDriven s i valid, rfl, resendTimeout_due s x a, resendTimeout_none s, beaconMiss_lost s k h hw, beaconMiss_early s,
    jack_closed s f rx, frameDiscarded_jack s rx, ?bad, ?desc, ?recover, ?assign⟩
  case attention =>
    intro hc hd hs hi hwant
    simpa [hwant] using attentionSweep_pulses s hc hd hs hi (.inl hwant)
  case busy =>
    intro hc hd hs hi hwant howes
    simpa [hwant] using attentionSweep_pulses s hc hd hs hi (.inr howes)
  case bad => exact fun ⟨hj, hp, ho⟩ hbad => lecternFrame_bad ⟨h, hj, hp, ho⟩ hbad
  case desc =>
    exact fun ⟨hj, hp, ho⟩ hc ⟨hok, ht, hra, ha⟩ hb hr hin hheld hrx hring hseq hop =>
      lecternFrame_accepts ⟨h, hj, hp, ho⟩ hc ⟨hok, ht, hra, ha⟩ hb hr hin hheld hrx hring hseq hop
  case recover =>
    exact fun ⟨hj, hp, ho⟩ hc ⟨hok, ht, hra, ha⟩ hup hb hwin =>
      lecternFrame_recovers ⟨h, hj, hp, ho⟩ hc ⟨hok, ht, hra, ha⟩ hup hb hwin
  case assign =>
    exact fun ⟨hj, hp, ho⟩ hl ⟨hok, ht, hra, ha⟩ hu hact hup =>
      lecternFrame_assigns ⟨h, hj, hp, ho⟩ hl ⟨hok, ht, hra, ha⟩ hu hact hup

end Sys2Proof.Proofs
end

section
/-! PROOF. The Scriptorium, and O41: doorbells (R218, R241, R242), fetches of slots (R244, R250), stream buffers (R240) and lane
fences (R251, R252). -/

namespace Sys2Proof.Proofs

open Sys2Proof Sys2Proof.Machine

/-! ### Rings -/

theorem ring?_only {s : State} {r : Ring} {n : Nat} (h : s.scr.rings = [r]) (hn : r.n = n) : s.ring? n = some r := by
  simp [State.ring?, h, hn]

theorem ring?_only_ne {s : State} {r : Ring} {n : Nat} (h : s.scr.rings = [r]) (hn : r.n ≠ n) : s.ring? n = none := by
  simp [State.ring?, h, hn]

theorem ring?_empty {s : State} (n : Nat) (h : s.scr.rings = []) : s.ring? n = none := by
  simp [State.ring?, h]

theorem ring?_setRing (s : State) (r : Ring) : (s.setRing r).ring? r.n = some r := by
  simp [State.ring?, State.setRing]

/-- A ring beside which no other is enabled becomes the only one. -/
theorem setRing_alone {s : State} {r : Ring} (h : ∀ x ∈ s.scr.rings, x.n = r.n) :
    s.setRing r = { s with scr := { s.scr with rings := [r] } } := by
  have hnone : s.scr.rings.filter (fun x => x.n != r.n) = [] := List.filter_eq_nil_iff.mpr fun x hx => by simp [h x hx]
  rw [State.setRing, hnone]

theorem rings_setRing_only {s : State} {r q : Ring} (h : s.scr.rings = [r]) (hn : r.n = q.n) : (s.setRing q).scr.rings = [q] := by
  rw [setRing_alone (by simp [h, hn])]

/-- With no completion waiting for room there is none to write again. -/
theorem retryHeld_none {s : State} (h : s.scr.held = []) : s.retryHeld = s := by
  simp [State.retryHeld, h]

theorem fld_setFld_le (s : State) (f : Fld) {v : Nat} (h : f.lo + f.w ≤ 32) (hv : v ≤ s.fld f) : (s.setFld f v).fld f = v := by
  rw [State.fld_setFld s f v h]
  exact Nat.mod_eq_of_lt (hv.trans_lt (fldOf_lt _ f))

/-- What the Scriptorium's commands leave alone: the role, the cores, memory, the line and the queue. -/
def Undisturbed (s t : State) : Prop :=
  t.role = s.role ∧ t.dec = s.dec ∧ t.cant = s.cant ∧ t.mem = s.mem ∧ t.node = s.node ∧ t.drv = s.drv ∧ t.pending = s.pending

theorem Undisturbed.trans {s t u : State} (h : Undisturbed s t) (k : Undisturbed t u) : Undisturbed s u := by
  obtain ⟨hrole, hdec, hcant, hmem, hnode, hdrv, hpending⟩ := h
  obtain ⟨krole, kdec, kcant, kmem, knode, kdrv, kpending⟩ := k
  exact ⟨krole.trans hrole, kdec.trans hdec, kcant.trans hcant, kmem.trans hmem, knode.trans hnode, kdrv.trans hdrv,
    kpending.trans hpending⟩

theorem undisturbed_setFld (s : State) (f : Fld) (v : Nat) : Undisturbed s (s.setFld f v) := ⟨rfl, rfl, rfl, rfl, rfl, rfl, rfl⟩

theorem undisturbed_setRing (s : State) (r : Ring) : Undisturbed s (s.setRing r) := ⟨rfl, rfl, rfl, rfl, rfl, rfl, rfl⟩

theorem undisturbed_writeCtx (s : State) (r : Ring) : Undisturbed s (s.writeCtx r) := ⟨rfl, rfl, rfl, rfl, rfl, rfl, rfl⟩

/-! ### Records with no Local event ring (R225) -/

theorem ringRecord_noRing {s : State} {n : Nat} (h : s.ring? n = none) (rec : List Byte) : s.ringRecord n rec = none := by
  rw [State.ringRecord, h]

theorem drainRecords_noRing {s : State} (h : s.ring? 7 = none) (n : Nat) : s.drainRecords n = s := by
  cases n with
  | zero => rfl
  | succ n =>
    unfold State.drainRecords
    split
    · rfl
    · rw [ringRecord_noRing (by exact h)]

/-- While ring 7 is not enabled an event of the Chapter goes into the record queue and nowhere else. -/
theorem event_queued {s : State} (hc : s.role = .chapter) (h : s.ring? 7 = none) (code : Nat) (data : List Byte) : ∃ q n f,
    s.event code data = { s with scr := { s.scr with recq := q, recDropped := n, recFirst := f } } := by
  rw [State.event, if_pos hc, State.postRecord, ringRecord_noRing h, ite_self]
  exact ⟨_, _, _, drainRecords_noRing (by exact h) _⟩

/-! ### Doorbells (R218, R241) -/

/-- The 16 bytes of a doorbell (Table 11.7). -/
def bellBytes (slot op idx cidx : Nat) : List Byte :=
  leBytes 2 idx ++ leBytes 2 cidx ++ leBytes 1 op ++ [0] ++ leBytes 2 slot ++ leBytes 8 0

theorem leNat_leBytes_two {v : Nat} (h : v < 65536) : leNat (leBytes 2 v) = v := by
  simp only [leBytes, leNat, BitVec.toNat_ofNat]
  omega

section
variable {s : State} {n slot idx cidx : Nat} (hslot : slot < 65536) (hidx : idx < 65536) (hcidx : cidx < 65536)
include hslot

theorem bell_misplaced (op : Nat) (ctx : Option (List Byte)) (hne : slot ≠ n) :
    s.bell n (bellBytes slot op idx cidx) ctx = s.raise [fSCFLAG_DBBAD] := by
  have hread : leNat (((bellBytes slot op idx cidx).drop 6).take 2) = slot := leNat_leBytes_two hslot
  simp [State.bell, hread, hne]

include hidx hcidx

/-- A doorbell in its own slot whose operation is listed does what the operation says. -/
theorem bell_acts {op : Nat} (ctx : Option (List Byte)) (hop : op = 1 ∨ op = 2 ∨ op = 3) :
    s.bell slot (bellBytes slot op idx cidx) ctx =
      if op = 1 then s.ringUpdate slot idx cidx
      else if op = 2 then
        (if s.tableBase = 0 then s else s.emit (.hostRead (s.tableBase + 32 * slot) 24)).ringEnable slot idx cidx ctx
      else s.ringDisable slot := by
  have hs : leNat (((bellBytes slot op idx cidx).drop 6).take 2) = slot := leNat_leBytes_two hslot
  have hi : leNat ((bellBytes slot op idx cidx).take 2) = idx := leNat_leBytes_two hidx
  have hci : leNat (((bellBytes slot op idx cidx).drop 2).take 2) = cidx := leNat_leBytes_two hcidx
  have hreserved : (bellBytes slot op idx cidx).getD 5 0 = 0 ∧ leNat ((bellBytes slot op idx cidx).drop 8) = 0 := ⟨rfl, rfl⟩
  have hcode : ((bellBytes slot op idx cidx).getD 4 0).toNat = op := by
    show (BitVec.ofNat 8 op).toNat = op
    rw [BitVec.toNat_ofNat]
    omega
  obtain ⟨hzero, htail⟩ := hreserved
  simp only [State.bell, hs, hi, hci, hzero, htail, hcode]
  exact if_neg (by simp; omega)

end

/-- The part with the half of a slot it had taken gone. -/
def halfGone (s : State) : State := { s with hl := { s.hl with half := none } }

/-- A whole slot written in one TLP rings its bell once the Scriptorium runs. -/
theorem doorbell_slot {s : State} {slot : Nat} {data : List Byte} (ctx : Option (List Byte)) (hc : s.role = .chapter)
    (hrdy : s.on fHLSTAT_SCRRDY = true) (hslot : slot < 16384) (hlen : data.length = 16) :
    exec (.doorbell (16 * slot) data ctx) s = .next ((halfGone s).bell slot data ctx) := by
  have hon : (halfGone s).on fHLSTAT_SCRRDY = true := hrdy
  show execDoorbell _ _ _ s = _
  rw [execDoorbell, if_neg (by simp [hc]; omega), if_pos (by simp [hlen]), Nat.mul_div_cancel_left _ (by decide)]
  exact congrArg Host.Outcome.next (if_pos hon)

theorem doorbell_unaligned {s : State} (hc : s.role = .chapter) :
    exec (.doorbell 3 [] none) s = .next ((halfGone s).raise [fHLFLAG_DBFMT]) := by
  show execDoorbell _ _ _ s = _
  rw [execDoorbell, if_neg (by simp [hc]), if_neg (by decide), if_neg (by decide)]
  cases hhalf : s.hl.half with
  | none => rfl
  | some half => exact congrArg Host.Outcome.next (if_neg (by simp))

theorem doorbell_half {s : State} {data : List Byte} (hc : s.role = .chapter) (hlen : data.length = 8) :
    exec (.doorbell 48 data none) s = .next { s with hl := { s.hl with half := some (48, data) } } := by
  show execDoorbell _ _ _ s = _
  rw [execDoorbell, if_neg (by simp [hc]), if_neg (by simp [hlen]), if_pos (by simp [hlen])]

/-! ### ENABLE, UPDATE and DISABLE (R242) -/

/-- A context that passes its checks enables a ring that is not kept yet, on its lane. -/
theorem ringEnable_enables {s : State} {n : Nat} {c : List Byte} (idx cidx : Nat) (h : s.ring? n = none) (hb : s.tableBase ≠ 0)
    (hok : ctxOk n c = true) (hn : n ≠ 7) :
    s.ringEnable n idx cidx (some c) = ((s.setRing (ctxRing n (s.laneOf n) idx cidx c)).writeCtx
      (ctxRing n (s.laneOf n) idx cidx c)).setFld fSCSTAT_ENABLED (s.fld fSCSTAT_ENABLED + 1) := by
  have hkind : (ringKind n).isNone = false := by
    simp only [ctxOk, Bool.and_eq_true, decide_eq_true_eq] at hok
    obtain ⟨⟨⟨hk, -⟩, -⟩, -⟩ := hok
    rw [hk]
    rfl
  simp [State.ringEnable, h, hkind, hb, hok, hn]

/-- An UPDATE within the ring takes both indices and asks for the next slot when none was asked for. -/
theorem ringUpdate_asks {s : State} {n idx cidx : Nat} {r : Ring} (h : s.ring? n = some r) (hk : r.kind ≠ 1) (hst : r.st = 1)
    (hfits : idx < 2 * r.size ∧ r.dist r.dhead idx ≤ r.size ∧ r.dist r.dhead r.p ≤ r.dist r.dhead idx) (hheld : s.scr.held = [])
    (hf : r.fetch = r.p) :
    s.ringUpdate n idx cidx = (s.setRing { r with p := idx, ch := cidx % (2 * r.size) }).askFetch n := by
  obtain ⟨hidx, hroom, hfwd⟩ := hfits
  have hcond : ¬ (2 * r.size ≤ idx ∨ r.size < r.dist r.dhead idx ∨ r.dist r.dhead idx < r.dist r.dhead r.p) := by omega
  have hretry (q : Ring) : (s.setRing q).retryHeld = s.setRing q := retryHeld_none hheld
  simp only [State.ringUpdate, h, hretry]
  rw [if_neg hk, if_neg (by simp [hst]), if_neg (by simpa [and_assoc] using hcond), if_pos hf]

theorem askFetch_asks {s : State} {n : Nat} {r : Ring} (h : s.ring? n = some r) (hst : r.st = 1) (hf : r.fetch ≠ r.p)
    (hhost : s.hostReady = true) (hlive : s.scr.failed = false) :
    s.askFetch n = s.emit (.hostRead (r.dbase + 64 * (r.fetch % r.size)) 64) := by
  simp [State.askFetch, h, hst, hf, hhost, hlive]

theorem askFetch_caughtUp {s : State} {n : Nat} {r : Ring} (h : s.ring? n = some r) (hf : r.fetch = r.p) : s.askFetch n = s := by
  simp [State.askFetch, h, hf]

/-- A draining ring of which nothing is held is gone. -/
theorem endDrain_ends {s : State} {n : Nat} {r : Ring} (h : s.ring? n = some r) (hst : r.st = 2) (hheld : s.scr.held = []) :
    s.endDrain n = (({ s with scr := { s.scr with rings := s.scr.rings.filter (fun x => x.n != n) } } : State).writeCtx
      { r with st := 0, err := 0 }).setFld fSCSTAT_ENABLED (s.fld fSCSTAT_ENABLED - 1) := by
  rw [State.endDrain, h]
  exact if_pos (by simp [hst, hheld])

/-- A ring of which nothing is held is disabled at once. -/
theorem ringDisable_disables {s : State} {n : Nat} {r : Ring} (h : s.ring? n = some r) (hst : r.st ≠ 3) (hheld : s.scr.held = []) :
    ∃ t : State, s.ringDisable n = t.setFld fSCSTAT_ENABLED (s.fld fSCSTAT_ENABLED - 1) ∧ t.regs = s.regs ∧
      t.scr.rings = s.scr.rings.filter (fun x => x.n != n) ∧ Undisturbed s t := by
  obtain rfl : r.n = n := by simpa using List.find?_some h
  let q : Ring := { r with st := 2, err := 0 }
  let u : State := (s.setRing q).writeCtx q
  have hrun : s.ringDisable r.n = u.endDrain r.n := by
    simp only [State.ringDisable, h, if_neg hst]
    rfl
  have hrings : u.scr.rings.filter (fun x => x.n != r.n) = s.scr.rings.filter (fun x => x.n != r.n) := by
    simp [u, State.writeCtx, State.setRing, q]
  exact ⟨_, hrun.trans (endDrain_ends (s := u) (ring?_setRing s q) rfl hheld), rfl, hrings, rfl, rfl, rfl, rfl, rfl, rfl, rfl⟩

/-! ### Fetches (R244, R250) -/

theorem descriptorFetch_noRing {s : State} {n : Nat} (bytes : Option (List Byte)) (h : s.ring? n = none) :
    exec (.descriptorFetch n bytes) s = .next s := by
  show execDescriptorFetch _ _ s = _
  rw [execDescriptorFetch, h]

/-- What a ring needs to take the answer of a fetch. -/
structure Fetching (s : State) (n : Nat) (r : Ring) : Prop where
  ring : s.ring? n = some r
  st : r.st = 1
  kind : r.kind = 3
  behind : r.fetch ≠ r.p
  host : s.hostReady = true
  live : s.scr.failed = false

theorem Fetching.acts {s : State} {n : Nat} {r : Ring} (h : Fetching s n r) :
    ¬ (r.st != 1 || r.kind = 1 || r.fetch = r.p || !s.hostReady || s.scr.failed) = true := by
  simp [h.st, h.kind, h.behind, h.host, h.live]

theorem descriptorFetch_fails {s : State} {n : Nat} {r : Ring} (h : Fetching s n r) :
    exec (.descriptorFetch n none) s = .next (s.haltRing r 1) := by
  show execDescriptorFetch n none s = _
  rw [execDescriptorFetch, h.ring]
  exact congrArg Host.Outcome.next (if_neg h.acts)

theorem descriptorFetch_fetches {s : State} {n : Nat} {r : Ring} {data : List Byte} (h : Fetching s n r) (hheld : s.scr.held = [])
    (htag : s.on fTAGSTAT_FREE = true) : exec (.descriptorFetch n (some data)) s = .next (s.fetched r data) := by
  show execDescriptorFetch n (some data) s = _
  rw [execDescriptorFetch, h.ring]
  exact congrArg Host.Outcome.next ((if_neg h.acts).trans (if_pos (by simp [hheld, htag])))

/-- An enabled ring that halts, the only one kept and not ring 7. -/
theorem haltRing_halts {s : State} {r : Ring} (err : Nat) (hc : s.role = .chapter) (hrings : s.scr.rings = [r]) (hn : r.n ≠ 7)
    (hst : r.st = 1) : (s.haltRing r err).scr.rings = [{ r with st := 3, err := err }] ∧ (s.haltRing r err).on fSCFLAG_HALT = true ∧
      (s.haltRing r err).fld fSCSTAT_ENABLED = s.fld fSCSTAT_ENABLED - 1 ∧ Undisturbed s (s.haltRing r err) := by
  let q : Ring := { r with st := 3, err := err }
  let t : State := (s.setRing q).writeCtx q
  let u : State := t.setFld fSCSTAT_ENABLED (s.fld fSCSTAT_ENABLED - 1)
  let v : State := u.raise [fSCFLAG_HALT]
  have hrun : s.haltRing r err = v.event 0x0003 (leBytes 2 r.n ++ leBytes 1 err) := by
    simp only [State.haltRing, if_pos (Or.inl hst : r.st = 1 ∨ r.st = 2)]
    rfl
  have hq : v.scr.rings = [q] := rings_setRing_only hrings rfl
  obtain ⟨rq, rn, rf, hev⟩ := event_queued (s := v) hc (ring?_only_ne hq hn) 0x0003 (leBytes 2 r.n ++ leBytes 1 err)
  rw [hrun, hev]
  refine ⟨hq, on_setFld_one u _ (by decide) (by decide), ?enabled, rfl, rfl, rfl, rfl, rfl, rfl, rfl⟩
  case enabled =>
    exact (State.fld_setFld_other u _ _ _ (by decide)).trans (fld_setFld_le t _ (by decide) (Nat.sub_le _ _))

/-- The slot of a Local ring that a fetch returned, as the Scriptorium holds it: with Rhoco, under tag 0. -/
def fetchedHeld (r : Ring) (data : List Byte) : Held :=
  ⟨0, r.n, r.fetch, r.lane, ⟨.lane r.lane, r.n, 0, r.fetch, data⟩, 1, 0, 0, []⟩

/-- The part with a fetched slot held, its tag taken and its ring one further on. -/
def slotTaken (s : State) (r : Ring) (data : List Byte) : State :=
  { (s.sets [(fTAGSTAT_FREE, s.fld fTAGSTAT_FREE - 1), (fSCTAG_FREE, s.fld fTAGSTAT_FREE - 1)]).setRing
      { r with fetch := r.next r.fetch } with
    scr := { (s.setRing { r with fetch := r.next r.fetch }).scr with held := [fetchedHeld r data] } }

/-- With nothing held the slot of a Local ring goes to Rhoco, which takes none of itself while its opcode is assigned. -/
theorem fetched_local {s : State} {r : Ring} {data : List Byte} (hk : r.kind = 3) (hheld : s.scr.held = [])
    (hop : opAssigned (data.getD 0 0).toNat = true) (hin : s.node.inbox = []) :
    s.fetched r data = (slotTaken s r data).askFetch r.n := by
  have htag : s.lowTag = 0 := by
    rw [State.lowTag, hheld, List.range_eq_range', List.range'_succ]
    rfl
  have hquiet : (slotTaken s r data).quiet = true := by
    have hwaits : (slotTaken s r data).waitingDescs = [(fetchedHeld r data).d] := by
      show _ ++ s.node.inbox = _
      rw [hin]
      rfl
    simpa [State.quiet, hwaits, fetchedHeld, dsOpcode, dsByte] using hop
  rw [← State.pump_quiet _ hquiet]
  simp only [State.fetched, hk, htag, State.refuseAtOnce, startPhase]
  simp [slotTaken, fetchedHeld, hheld, hk, State.setRing]

/-! ### Stream buffers (R240) -/

theorem streamBuf_posts {s : State} {h : Held} (hheld : s.scr.held = [h]) (hp : h.phase = 4) (hres : dsResbuf h.d = true)
    (hform : dsFormOk h.d = true) (hlen : dsReslen h.d = 128) :
    exec (.streamBuf h.d) s = .next { s with scr := { s.scr with held := [{ h with phase := 5 }] } } := by
  show execStreamBuf _ s = _
  simp [execStreamBuf, hheld, hp, hres, hform, hlen, State.setHeld]

theorem streamBuf_elsewhere {s : State} {d : Desc} (hheld : s.scr.held = []) (hready : s.ready d = true) :
    exec (.streamBuf d) s = .next (s.complete d stINVALID 0 []) := by
  show execStreamBuf _ s = _
  simp only [execStreamBuf, hheld, List.find?_nil]
  exact congrArg Host.Outcome.next (runDesc_done hready rfl)

/-- A flush acts on the buffer posted on the ring, once it is partly filled and its time has passed. -/
theorem streamFlush_eq {s : State} {n : Nat} {r : Ring} {h : Held} (hring : s.ring? n = some r) (hheld : s.scr.held = [h])
    (hp : h.phase = 5) (hn : h.ring = n) : exec (.streamFlush n) s = .next (
    if dsArg h.d 0 != 0 && r.fill != 0 && dsArg h.d 0 ≤ r.fillAge then
      (s.setRing { r with fill := 0, fillAge := 0, fillTime := 0 }).finishHeld h (ownEntry h stOK r.fillTime r.fill)
    else s) := by
  have hlast : (s.scr.held.filter (fun x => x.phase = 5 && x.ring = n)).getLast? = some h := by simp [hheld, hp, hn]
  show execStreamFlush _ s = _
  rw [execStreamFlush, hring, hlast]

/-- The completion of the ring's oldest slot moves CTAIL and DHEAD on by one. -/
def oldestDone (r : Ring) : Ring := { r with ctail := r.next r.ctail, dhead := r.next r.dhead }

theorem advance_oldest {r : Ring} (hdone : r.done = []) :
    Ring.advance 2 { r with ctail := r.next r.ctail, done := [r.dhead] } = oldestDone r := by
  simp [Ring.advance, oldestDone, Ring.next, Ring.size, hdone]

/-- The only descriptor held, the oldest of its ring, completes where there is room: its entry is written and nothing is held. -/
theorem finishHeld_oldest {s : State} {h : Held} {r : Ring} (entry : List Byte) (hring : s.ring? h.ring = some r)
    (hheld : s.scr.held = [h]) (hslot : h.slot = r.dhead) (hdone : r.done = []) (hhost : s.hostReady = true)
    (hroom : r.dist r.ch r.ctail < r.size) (hsig : r.signal = false) (hst : r.st ≠ 2) : ∃ t : State,
    s.finishHeld h entry = t.freeTag ∧ t.scr.held = [] ∧ t.scr.rings = (s.setRing (oldestDone r)).scr.rings ∧
      (.hostWrite (r.cbase + 16 * (r.ctail % r.size)) entry) ∈ t.out ∧ Undisturbed s t := by
  have hn : r.n = h.ring := by simpa using List.find?_some hring
  let s0 : State := { s with scr := { s.scr with held := [] } }
  let q := oldestDone r
  let t : State := ((s0.emit (.hostWrite (r.cbase + 16 * (r.ctail % r.size)) entry)).setRing q).writeCtx q
  have hwrite : s0.writeEntry h.ring h.slot entry = (true, t.freeTag) := by
    have hring0 : s0.ring? h.ring = some r := hring
    have hhost0 : s0.hostReady = true := hhost
    have hquiet (u : State) : u.signal q = u := if_neg (by simp [q, oldestDone, hsig])
    simp only [State.writeEntry, hring0, hhost0, hroom, decide_true, Bool.and_self, if_true, hdone, hslot, List.length_nil]
    rw [advance_oldest hdone, hquiet]
  have hend : t.freeTag.endDrain h.ring = t.freeTag := by
    have hq : t.freeTag.ring? h.ring = some q := by rw [← hn]; exact ring?_setRing _ q
    rw [State.endDrain, hq]
    exact if_neg (by simp [q, oldestDone, hst])
  refine ⟨t, ?run, rfl, rfl, ?entry, rfl, rfl, rfl, rfl, rfl, rfl, rfl⟩
  case run =>
    have hnone : s.scr.held.filter (fun x => x.tag != h.tag) = [] := by simp [hheld]
    simp only [State.finishHeld, hnone]
    rw [hwrite]
    exact hend
  case entry => simp [t, State.writeCtx, State.setRing, State.emit]

/-! ### Lane fences (R251, R252) -/

theorem laneFenced_settled {s : State} (hf : s.scr.fences = []) (k : Nat) : s.laneFenced k = (s.fld fSCLANE_FENCED).testBit k := by
  simp [State.laneFenced, hf]

theorem liveLanes_settled {s : State} (hf : s.scr.fences = []) :
    s.liveLanes = (List.range 8).filter (fun k => !(s.fld fSCLANE_FENCED).testBit k) := by
  simp only [State.liveLanes, laneFenced_settled hf]

theorem laneOf_own {s : State} (h0 : s.fld fSCLANE_FENCED = 0) (hf : s.scr.fences = []) (n : Nat) : s.laneOf n = n % 8 := by
  simp [State.laneOf, laneFenced_settled hf, h0]

theorem dnSend_scr (s : State) (x : Dn) : (s.dnSend x).scr = s.scr := by
  unfold State.dnSend
  dsimp only
  split <;> split <;> split <;> rfl

theorem dnOwed_scr (s : State) : s.dnOwed.scr = s.scr := by
  have fold {α : Type} (step : State → α → State) (hstep : ∀ u a, (step u a).scr = u.scr) (l : List α) (u : State) :
      (l.foldl step u).scr = u.scr :=
    List.foldlRecOn (motive := fun v => v.scr = u.scr) l step rfl fun v hv a _ => (hstep v a).trans hv
  unfold State.dnOwed
  dsimp only
  rw [fold, fold]
  · exact fun _ _ => rfl
  · intro u pos
    split <;> rfl

theorem dnDrain_scr (n : Nat) (s : State) : (s.dnDrain n).scr = s.scr := by
  induction n generalizing s with
  | zero => rfl
  | succ n ih =>
    unfold State.dnDrain
    split
    · split
      · rw [ih, dnSend_scr]
      · rfl
    · rfl

/-- Sending what waits on the downlink leaves the Scriptorium alone. -/
theorem dnFlush_scr (s : State) : s.dnFlush.scr = s.scr := by
  unfold State.dnFlush
  split
  · exact (dnDrain_scr _ _).trans (dnOwed_scr s)
  · rfl

/-- A fence with no LANE_LOST completion to wait for is done: the lane is fenced, its cause shown and LANE_RETIRED posted (R251). -/
theorem fencesDone_single {s : State} {k : Nat} {data : List Byte} (hf : s.scr.fences = [(k, data, [])]) (hc : data.getD 1 0 = 2) :
    s.fencesDone = ((({ s with scr := { s.scr with fences := [] } } : State).sets
      [(fSCLANE_FENCED, s.fld fSCLANE_FENCED ||| 2 ^ k), (fSCLANE_CAUSE, s.fld fSCLANE_CAUSE ||| 2 ^ k)]).raise
        [fSCFLAG_LANERET]).event 0x0001 data := by
  simp only [State.fencesDone, hf, List.all_nil, List.filter_cons, List.filter_nil, Bool.not_true, if_true, Bool.false_eq_true, if_false,
    List.foldl_cons, List.foldl_nil, hc]
  rfl

/-- The record of a lane that a self-test slice fenced with nothing held (R251). -/
def fenceData (k : Nat) : List Byte := leBytes 1 k ++ leBytes 1 2 ++ leBytes 2 0 ++ leBytes 2 0

theorem fenceLane_idle {s : State} (k : Nat) (hf : s.scr.fences = []) (hrings : s.scr.rings = []) (hheld : s.scr.held = []) :
    s.fenceLane k 2 = (({ s with scr := { s.scr with fences := [(k, fenceData k, [])] } } : State).dnFlush).fencesDone := by
  simp [State.fenceLane, hf, hrings, hheld, fenceData]

/-- A failed self-test slice of a whole lane fences it, unless no other lane is left. -/
theorem laneFence_selfTest {s : State} (k : Fin 8) (hc : s.role = .chapter) (hwhole : s.laneFenced k.val = false) :
    exec (.laneFence k true) s = .next (if s.liveLanes.length = 1 then s.scrFail 2 else s.fenceLane k.val 2) := by
  show execLaneFence k true s = _
  simp [execLaneFence, State.laneFault, hc, hwhole]

/-- A failed self-test slice of the first lane fences it; with nothing held it is retired at once. -/
theorem laneFence_retires {s : State} (k : Fin 8) (hc : s.role = .chapter) (h0 : s.fld fSCLANE_FENCED = 0) (hf : s.scr.fences = [])
    (hrings : s.scr.rings = []) (hheld : s.scr.held = []) : ∃ t : State, exec (.laneFence k true) s = .next t ∧
      t.fld fSCLANE_FENCED = 2 ^ k.val ∧ t.fld fSCLANE_CAUSE = s.fld fSCLANE_CAUSE ||| 2 ^ k.val ∧ t.on fSCFLAG_LANERET = true ∧
      t.scr.fences = [] := by
  let fenced : State := { s with scr := { s.scr with fences := [(k.val, fenceData k.val, [])] } }
  let t : State := { fenced.dnFlush with scr := { fenced.dnFlush.scr with fences := [] } }
  let u : State := t.setFld fSCLANE_FENCED (t.fld fSCLANE_FENCED ||| 2 ^ k.val)
  let v : State := u.setFld fSCLANE_CAUSE (t.fld fSCLANE_CAUSE ||| 2 ^ k.val)
  let w : State := v.raise [fSCFLAG_LANERET]
  have hscr : fenced.dnFlush.scr = fenced.scr := dnFlush_scr fenced
  have hsent : SendFrame fenced fenced.dnFlush := dnFlush_frame fenced
  have hrun : exec (.laneFence k true) s = .next (w.event 0x0001 (fenceData k.val)) := by
    have hlive : s.liveLanes.length ≠ 1 := by
      rw [liveLanes_settled hf, h0]
      decide
    have hwhole : s.laneFenced k.val = false := by rw [laneFenced_settled hf, h0, Nat.zero_testBit]
    rw [laneFence_selfTest k hc hwhole, if_neg hlive, fenceLane_idle _ hf hrings hheld, fencesDone_single (by rw [hscr]) rfl]
    rfl
  have hrole : w.role = .chapter := hsent.besides.1.trans hc
  have hnone : w.scr.rings = [] := by
    show fenced.dnFlush.scr.rings = []
    rw [hscr]
    exact hrings
  obtain ⟨q, n, f, hev⟩ := event_queued hrole (ring?_empty 7 hnone) 0x0001 (fenceData k.val)
  have hkept (f : Fld) : t.fld f = s.fld f := fld_of_regs hsent.regs f
  refine ⟨_, hrun, ?_⟩
  rw [hev]
  refine ⟨?fenced, ?cause, on_setFld_one v _ (by decide) (by decide), rfl⟩
  case fenced =>
    calc w.fld fSCLANE_FENCED = v.fld fSCLANE_FENCED := State.fld_setFld_other v _ _ _ (by decide)
      _ = u.fld fSCLANE_FENCED := State.fld_setFld_other u _ _ _ (by decide)
      _ = t.fld fSCLANE_FENCED ||| 2 ^ k.val := fld_setFld_latch t _ k.isLt (by decide)
      _ = 2 ^ k.val := by rw [hkept, h0, Nat.zero_or]
  case cause =>
    have hu : t.fld fSCLANE_CAUSE = u.fld fSCLANE_CAUSE := (State.fld_setFld_other t _ _ _ (by decide)).symm
    calc w.fld fSCLANE_CAUSE = v.fld fSCLANE_CAUSE := State.fld_setFld_other v _ _ _ (by decide)
      _ = (u.setFld fSCLANE_CAUSE (u.fld fSCLANE_CAUSE ||| 2 ^ k.val)).fld fSCLANE_CAUSE := by rw [← hu]
      _ = u.fld fSCLANE_CAUSE ||| 2 ^ k.val := fld_setFld_latch u _ k.isLt (by decide)
      _ = s.fld fSCLANE_CAUSE ||| 2 ^ k.val := by rw [← hu, hkept]

/-- A fault of the last live lane stops the Scriptorium (R252). -/
theorem laneFence_last {s : State} (k : Fin 8) (hc : s.role = .chapter) (hlast : s.fld fSCLANE_FENCED = 255 - 2 ^ k.val)
    (hf : s.scr.fences = []) (hrings : s.scr.rings = []) (hheld : s.scr.held = []) : ∃ t : State,
      exec (.laneFence k true) s = .next t ∧ t.scr.failed = true ∧ t.on fSCSTAT_FAILED = true ∧ t.on fSCFLAG_SCRFAIL = true ∧
      Undisturbed s t := by
  have hone : ∀ j : Fin 8, (255 - 2 ^ j.val).testBit j.val = false ∧
      ((List.range 8).filter (fun i => !(255 - 2 ^ j.val).testBit i)).length = 1 := by decide
  let t : State := { s with scr := { s.scr with failed := true } }.setFld fSCSTAT_FAILED 1
  let u : State := t.raise [fSCFLAG_SCRFAIL]
  have hrun : exec (.laneFence k true) s = .next (u.event 0x0002 (leBytes 1 2)) := by
    have hlive : s.liveLanes.length = 1 := by
      rw [liveLanes_settled hf, hlast]
      exact (hone k).2
    have hwhole : s.laneFenced k.val = false := by
      rw [laneFenced_settled hf, hlast]
      exact (hone k).1
    have hfail : s.scrFail 2 = u.event 0x0002 (leBytes 1 2) := by simp [State.scrFail, hheld, u, t]
    rw [laneFence_selfTest k hc hwhole, if_pos hlive, hfail]
  obtain ⟨q, n, f, hev⟩ := event_queued (s := u) hc (ring?_empty 7 hrings) 0x0002 (leBytes 1 2)
  refine ⟨_, hrun, ?_⟩
  rw [hev]
  refine ⟨rfl, ?failed, on_setFld_one t _ (by decide) (by decide), rfl, rfl, rfl, rfl, rfl, rfl, rfl⟩
  case failed => exact (on_setFld_other t _ _ _ (by decide)).trans (on_setFld_one _ _ (by decide) (by decide))

/-! ### O41 -/

/-- The context that the ENABLE of O41 reads (Table 11.2): a Local ring of 16 slots at 0x40000, its entries at 0x80000. -/
def localCtx : List Byte := leBytes 8 0x40000 ++ leBytes 8 0x80000 ++ [3, 4, 0, 0] ++ leBytes 4 0

/-- The ring it enables at indices 5 and 7, on lane 3. -/
def localRing : Ring := ⟨3, 0x40000, 0x80000, 3, 4, 0, false, 5, 7, 5, 7, 1, 0, 3, 5, [], 0, 0, 0⟩

theorem ctxRing_localCtx : ctxRing 3 3 5 7 localCtx = localRing := by decide

theorem localCtx_ok : ctxOk 3 localCtx = true := by decide

section
variable {s : State} (hc : s.role = .chapter) (hrdy : s.on fHLSTAT_SCRRDY = true)
include hc hrdy

/-- A doorbell of ring 3 written in one TLP. -/
theorem doorbell_ring3 (slot op idx cidx : Nat) (ctx : Option (List Byte)) :
    exec (.doorbell 48 (bellBytes slot op idx cidx) ctx) s = .next ((halfGone s).bell 3 (bellBytes slot op idx cidx) ctx) :=
  doorbell_slot (slot := 3) ctx hc hrdy (by decide) rfl

theorem doorbell_updateOff (hrings : s.scr.rings = []) : exec (.doorbell 48 (bellBytes 3 1 5 0) none) s =
    .next ((halfGone s).raise [fSCFLAG_DBOFF]) := by
  rw [doorbell_ring3 hc hrdy, bell_acts (by decide) (by decide) (by decide) _ (.inl rfl), if_pos rfl, State.ringUpdate,
    ring?_empty 3 (by exact hrings)]

theorem doorbell_misplaced : exec (.doorbell 48 (bellBytes 4 1 5 0) none) s = .next ((halfGone s).raise [fSCFLAG_DBBAD]) := by
  rw [doorbell_ring3 hc hrdy, bell_misplaced (by decide) _ _ (by decide)]

theorem doorbell_enables (hrings : s.scr.rings = []) (hb : s.tableBase = 0x10000) (hen : s.fld fSCSTAT_ENABLED = 0)
    (h0 : s.fld fSCLANE_FENCED = 0) (hf : s.scr.fences = []) : ∃ t : State,
      exec (.doorbell 48 (bellBytes 3 2 5 7) (some localCtx)) s = .next t ∧ t.scr.rings = [localRing] ∧ t.fld fSCSTAT_ENABLED = 1 ∧
      t.out = .hostWrite 0x10078 (leBytes 2 5 ++ leBytes 2 7 ++ [1, 0, 0, 0]) :: .hostRead 0x10060 24 :: s.out ∧ Undisturbed s t := by
  let u : State := (halfGone s).emit (.hostRead 0x10060 24)
  let v : State := (u.setRing localRing).writeCtx localRing
  have hbase : (halfGone s).tableBase = 0x10000 := hb
  have hasked : u.tableBase = 0x10000 := hb
  have hring : ctxRing 3 (u.laneOf 3) 5 7 localCtx = localRing := by
    rw [laneOf_own (s := u) h0 hf]
    exact ctxRing_localCtx
  have hnone : ∀ x ∈ u.scr.rings, x.n = localRing.n := by
    have : u.scr.rings = [] := hrings
    simp [this]
  refine ⟨v.setFld fSCSTAT_ENABLED (u.fld fSCSTAT_ENABLED + 1), ?run, ?rings, ?enabled, ?out,
    (undisturbed_setRing u localRing).trans ((undisturbed_writeCtx _ _).trans (undisturbed_setFld _ _ _))⟩
  case run =>
    rw [doorbell_ring3 hc hrdy, bell_acts (by decide) (by decide) (by decide) _ (.inr (.inl rfl)), if_neg (by decide), if_pos rfl,
      hbase, if_neg (by decide)]
    show Host.Outcome.next (u.ringEnable 3 5 7 (some localCtx)) = _
    rw [ringEnable_enables 5 7 (ring?_empty 3 (by exact hrings)) (by simp [hasked]) localCtx_ok (by decide),
      hring]
  case rings =>
    show (u.setRing localRing).scr.rings = _
    rw [setRing_alone hnone]
  case enabled =>
    rw [State.fld_setFld _ _ _ (by decide), show u.fld fSCSTAT_ENABLED = 0 from hen]
    rfl
  case out =>
    have hctx : u.tableBase + 32 * localRing.n + 0x18 = 0x10078 := by simp [hasked, localRing]
    show Out.hostWrite (u.tableBase + 32 * localRing.n + 0x18) _ :: u.out = _
    rw [hctx]
    rfl

end

theorem hostReady_of {s : State} (h : s.on fHLSTAT_LINKUP = true ∧ s.hl.bme = true ∧ s.on fHLSTAT_D3 = false) : s.hostReady = true := by
  obtain ⟨hup, hbme, hd3⟩ := h
  simp [State.hostReady, hup, hbme, hd3]

section
variable {s : State} {r : Ring} (hc : s.role = .chapter) (hrdy : s.on fHLSTAT_SCRRDY = true) (hrings : s.scr.rings = [r])
  (hn : r.n = 3) (hst : r.st = 1)
include hc hrdy hrings hn hst

theorem doorbell_updates (hk : r.kind = 3) (hl : r.log2n = 4) (hp : r.p = 5) (hd : r.dhead = 5) (hfetch : r.fetch = 5)
    (hheld : s.scr.held = []) (hhost : s.hostReady = true) (hlive : s.scr.failed = false) : ∃ t : State,
      exec (.doorbell 48 (bellBytes 3 1 7 2) none) s = .next t ∧ t.scr.rings = [{ r with p := 7, ch := 2 }] ∧
      t.out = .hostRead (r.dbase + 64 * 5) 64 :: s.out ∧ Undisturbed s t := by
  let u : State := (halfGone s).setRing { r with p := 7, ch := 2 }
  have hsize : r.size = 16 := by simp [Ring.size, hl]
  have hring : (halfGone s).ring? 3 = some r := ring?_only hrings hn
  have hnew : u.ring? 3 = some { r with p := 7, ch := 2 } := by rw [← hn]; exact ring?_setRing (halfGone s) { r with p := 7, ch := 2 }
  refine ⟨u.emit (.hostRead (r.dbase + 64 * 5) 64), ?run, rings_setRing_only hrings rfl, rfl, rfl, rfl, rfl, rfl, rfl, rfl, rfl⟩
  case run =>
    rw [doorbell_ring3 hc hrdy, bell_acts (by decide) (by decide) (by decide) _ (.inl rfl), if_pos rfl,
      ringUpdate_asks hring (by simp [hk]) hst (by simp [Ring.dist, hsize, hd, hp]) hheld (hfetch.trans hp.symm), hsize,
      askFetch_asks hnew hst (by simp [hfetch]) hhost hlive]
    simp [Ring.size, hl, hfetch, u]

theorem doorbell_disables (hheld : s.scr.held = []) (hen : s.fld fSCSTAT_ENABLED = 1) : ∃ t : State,
    exec (.doorbell 48 (bellBytes 3 3 0 0) none) s = .next t ∧ t.scr.rings = [] ∧ t.fld fSCSTAT_ENABLED = 0 ∧ Undisturbed s t := by
  obtain ⟨t, hrun, hregs, hleft, hquiet⟩ := ringDisable_disables (s := halfGone s) (n := 3) (ring?_only hrings hn) (by simp [hst]) hheld
  refine ⟨t.setFld fSCSTAT_ENABLED 0, ?run, ?rings, ?enabled, hquiet⟩
  case run =>
    rw [doorbell_ring3 hc hrdy, bell_acts (by decide) (by decide) (by decide) _ (.inr (.inr rfl)), if_neg (by decide),
      if_neg (by decide), hrun, show (halfGone s).fld fSCSTAT_ENABLED = 1 from hen]
  case rings =>
    have : (halfGone s).scr.rings = [r] := hrings
    simp [hleft, this, hn]
  case enabled => exact fld_setFld_le t _ (by decide) (Nat.zero_le _)

end

section
variable {s : State} {r : Ring} (hrings : s.scr.rings = [r]) (hn : r.n = 3) (hk : r.kind = 3) (hst : r.st = 1) (hp : r.p = 6)
  (hfetch : r.fetch = 5) (hhost : s.hostReady = true) (hlive : s.scr.failed = false)
include hrings hn hk hst hp hfetch hhost hlive

theorem fetching_ring3 : Fetching s 3 r := ⟨ring?_only hrings hn, hst, hk, by simp [hfetch, hp], hhost, hlive⟩

theorem descriptorFetch_takes {data : List Byte} (hl : r.log2n = 4) (hheld : s.scr.held = []) (htag : s.fld fTAGSTAT_FREE = 1024)
    (hop : opAssigned (data.getD 0 0).toNat = true) (hin : s.node.inbox = []) : ∃ t : State,
      exec (.descriptorFetch 3 (some data)) s = .next t ∧ t.scr.rings = [{ r with fetch := 6 }] ∧ t.fld fTAGSTAT_FREE = 1023 ∧
      t.fld fSCTAG_FREE = 1023 ∧ t.scr.held = [⟨0, 3, 5, r.lane, ⟨.lane r.lane, 3, 0, 5, data⟩, 1, 0, 0, []⟩] ∧ Undisturbed s t := by
  have hnext : r.next r.fetch = 6 := by simp [Ring.next, Ring.size, hl, hfetch]
  have hfree : s.on fTAGSTAT_FREE = true := by simp [State.on, htag]
  have hasked : (slotTaken s r data).askFetch r.n = slotTaken s r data :=
    askFetch_caughtUp (ring?_setRing _ { r with fetch := r.next r.fetch }) (by simp [hnext, hp])
  refine ⟨slotTaken s r data, ?run, ?rings, ?free, ?mirror, ?held, rfl, rfl, rfl, rfl, rfl, rfl, rfl⟩
  case run =>
    rw [descriptorFetch_fetches (fetching_ring3 hrings hn hk hst hp hfetch hhost hlive) hheld hfree, fetched_local hk hheld hop hin, hasked]
  case rings =>
    rw [← hnext]
    exact rings_setRing_only hrings rfl
  case free =>
    show ((s.setFld fTAGSTAT_FREE (s.fld fTAGSTAT_FREE - 1)).setFld fSCTAG_FREE (s.fld fTAGSTAT_FREE - 1)).fld fTAGSTAT_FREE = _
    rw [State.fld_setFld_other _ _ _ _ (by decide), fld_setFld_le _ _ (by decide) (Nat.sub_le _ _), htag]
  case mirror =>
    show ((s.setFld fTAGSTAT_FREE (s.fld fTAGSTAT_FREE - 1)).setFld fSCTAG_FREE (s.fld fTAGSTAT_FREE - 1)).fld fSCTAG_FREE = _
    rw [State.fld_setFld _ _ _ (by decide), htag]
    rfl
  case held =>
    show [fetchedHeld r data] = _
    rw [fetchedHeld, hn, hfetch]

theorem descriptorFetch_halts (hc : s.role = .chapter) (hen : s.fld fSCSTAT_ENABLED = 1) : ∃ t : State,
    exec (.descriptorFetch 3 none) s = .next t ∧ t.scr.rings = [{ r with st := 3, err := 1 }] ∧ t.on fSCFLAG_HALT = true ∧
      t.fld fSCSTAT_ENABLED = 0 ∧ Undisturbed s t := by
  obtain ⟨hleft, hflag, hcount, hquiet⟩ := haltRing_halts 1 hc hrings (by simp [hn]) hst
  exact ⟨_, descriptorFetch_fails (fetching_ring3 hrings hn hk hst hp hfetch hhost hlive), hleft, hflag, by rw [hcount, hen], hquiet⟩

end

section
variable {s : State} {r : Ring} {h : Held} (hrings : s.scr.rings = [r]) (hn : r.n = 14) (hheld : s.scr.held = [h])
  (hp : h.phase = 5) (hring : h.ring = 14) (harg : dsArg h.d 0 = 3)
include hrings hn hheld hp hring harg

theorem streamFlush_early (hage : r.fillAge = 2) : exec (.streamFlush 14) s = .next s := by
  rw [streamFlush_eq (ring?_only hrings hn) hheld hp hring, if_neg (by simp [harg, hage])]

theorem streamFlush_completes (hst : r.st = 1) (hfill : r.fill = 64) (hl : r.log2n = 4) (htail : r.ctail = 0) (hch : r.ch = 0)
    (hslot : h.slot = r.dhead) (hdone : r.done = []) (htime : r.fillTime = 9) (hage : r.fillAge = 3) (hhost : s.hostReady = true)
    (hsig : r.signal = false) : ∃ t : State, exec (.streamFlush 14) s = .next t ∧ t.scr.held = [] ∧
      t.scr.rings.map (fun q => (q.fill, q.ctail, q.dhead)) = [(0, 1, (r.dhead + 1) % 32)] ∧
      .hostWrite r.cbase (leBytes 8 (dsCookie h.d) ++ leBytes 4 9 ++ [0] ++ leBytes 1 h.seq ++ leBytes 2 64) ∈ t.out ∧
      Undisturbed s t := by
  let q : Ring := { r with fill := 0, fillAge := 0, fillTime := 0 }
  have hnew : (s.setRing q).ring? h.ring = some q := by rw [hring, ← hn]; exact ring?_setRing s q
  obtain ⟨t, hrun, hnone, hleft, hentry, hquiet⟩ := finishHeld_oldest (s := s.setRing q) (ownEntry h stOK 9 64) hnew hheld hslot hdone
    hhost (by simp [q, Ring.dist, Ring.size, hl, htail, hch]) hsig (by simp [q, hst])
  refine ⟨t.freeTag, ?run, hnone, ?rings, ?entry, hquiet⟩
  case run => rw [streamFlush_eq (ring?_only hrings hn) hheld hp hring, if_pos (by simp [harg, hage, hfill]), htime, hfill, hrun]
  case rings =>
    have halone : (s.setRing q).scr.rings = [q] := rings_setRing_only hrings rfl
    have hlast : t.freeTag.scr.rings = [oldestDone q] := hleft.trans (rings_setRing_only halone rfl)
    rw [hlast]
    simp [oldestDone, q, Ring.next, Ring.size, hl, htail]
  case entry =>
    rw [htail] at hentry
    exact hentry

end

/-- Settles O41, one lemma for each clause. -/
theorem scriptorium : Obligations.Scriptorium := by
  unfold Obligations.Scriptorium
  intro s d r h k data hc hrdy bell host empty quiet
  refine ⟨doorbell_unaligned hc, doorbell_half hc, doorbell_updateOff hc hrdy, doorbell_misplaced hc hrdy, ?enables, ?updates, ?disables,
    descriptorFetch_noRing none rfl, ?takes, ?halts, ?posts, streamBuf_elsewhere, ?early, ?flush, ?retires, ?last⟩
  case enables => exact fun hrings hb _ hen h0 hf => doorbell_enables hc hrdy hrings hb hen h0 hf
  case updates =>
    exact fun hrings hn hk hl hst hp hd hfetch ⟨hheld, _, _⟩ _ hhost hlive =>
      doorbell_updates hc hrdy hrings hn hst hk hl hp hd hfetch hheld (hostReady_of hhost) hlive
  case disables => exact fun hrings hn hst ⟨hheld, _, _⟩ _ hen => doorbell_disables hc hrdy hrings hn hst hheld hen
  case takes =>
    exact fun hrings hn hk hl hst hp hfetch ⟨hheld, _, _⟩ hhost hlive htag _ hop hin =>
      descriptorFetch_takes hrings hn hk hst hp hfetch (hostReady_of hhost) hlive hl hheld htag hop hin
  case halts =>
    exact fun hrings hn hk hst hp hfetch hhost hlive hen _ _ =>
      descriptorFetch_halts hrings hn hk hst hp hfetch (hostReady_of hhost) hlive hc hen
  case posts => rintro hheld rfl hp hres hform hlen; exact streamBuf_posts hheld hp hres hform hlen
  case early => exact fun hrings hn _ hheld hp hring _ harg hage => streamFlush_early hrings hn hheld hp hring harg hage
  case flush =>
    exact fun hrings hn hst hl htail hch hheld hp hring hslot hdone hfill htime harg hage hhost hsig =>
      streamFlush_completes hrings hn hheld hp hring harg hst hfill hl htail hch hslot hdone htime hage (hostReady_of hhost) hsig
  case retires => exact fun h0 hf hrings ⟨hheld, _, _⟩ _ => laneFence_retires k hc h0 hf hrings hheld
  case last => exact fun hlast hf hrings ⟨hheld, _, _⟩ => laneFence_last k hc hlast hf hrings hheld

end Sys2Proof.Proofs
end

section
/-! PROOF. The ends of an instruction that traps (R261, R278, R303), and the interrupts and data traps that rest on them: O10, O14. -/

namespace Sys2Proof.Proofs

open Sys2Proof Sys2Proof.Machine

/-! ### Instructions that trap -/

theorem issued_world (s : State) (i : Issue) : ((s.issued i).core i.core).world = (s.core i.core).world := by
  rw [State.core_issued]; rfl

theorem issued_sup (s : State) (i : Issue) : ((s.issued i).core i.core).sup = (s.core i.core).sup := by
  rw [State.core_issued]; rfl

theorem issued_pc (s : State) (i : Issue) : ((s.issued i).core i.core).pc = (s.core i.core).pc := by
  rw [State.core_issued]

/-- An instruction that raises a trap has taken its cycles and does not retire. -/
theorem instr_traps {s : State} {i : Issue} (h : s.issues i = true) (cycles : Core → Nat) {body : State → State × After}
    {code info : Nat} {addr inst : Option Word} (hbody : body (s.issued i) = (s.issued i, .trap code info addr inst)) :
    s.instr i cycles body = s.trapped i (cycles ((s.issued i).core i.core)) (s.trapIn i code info addr inst) := by
  rw [State.instr_issues h]
  simp only [hbody, State.finish, State.issued_setCore, State.core_setCore, State.trapped, State.trapIn, issued_pc]
  rw [← issued_world s i]
  rfl

/-- An instruction of no cycle that retires into a trap of its own: the return address is the next one. -/
theorem instr_calls {s : State} {i : Issue} (h : s.issuesOn i = true) {body : State → State × After} {code info : Nat} {w : World}
    {inst : Word} (hbody : body (s.issued i) = (s.issued i, .call code w info inst)) :
    s.instr i (fun _ => 0) body =
      (s.retired i 0 id).trap i.core ⟨code, w, ((s.issued i).core i.core).pc + issueLen i, info, none, some inst, false, false⟩ := by
  have hloops := State.issues_lpend (State.issuesOn_issues h)
  have hends := Core.straight_at (State.issuesOn_straight h)
  rw [State.instr_issues (State.issuesOn_issues h)]
  simp only [hbody, State.finish]
  rw [State.retire_straight]
  · simp only [State.retired, State.core_setCore, State.setCore_setCore, State.issued_setCore, id]
  · simpa [State.core_issued] using hloops
  · simpa [State.core_issued] using hends

/-! ### Interrupts -/

/-- In RUN a pending interrupt wakes nothing of Decani (R79). -/
theorem wakeOnInt_decani_run {s : State} (h : s.slp.st = .run) : s.wakeOnInt .decani = s := by
  simp [State.wakeOnInt, h]

/-- A core in RUN at its boundary takes the NOTICE that waits, else the source the controller chooses (R264, R278). -/
theorem exec_interruptEntry_run {s : State} (hst : s.slp.st = .run) (hrun : s.running .decani = true) (hwin : s.winHeld .decani = false) :
    exec (.interruptEntry .decani none) s = .next (if s.dec.notice.isSome then s.takeNotice .decani
      else ((s.nextInt .decani).map (s.takeInt .decani)).getD s) := by
  change execInterruptEntry .decani none s = _
  cases hnext : s.nextInt .decani <;> simp [execInterruptEntry, wakeOnInt_decani_run hst, hrun, hwin, hnext, State.core]

/-- Settles O10: in RUN the boundary is one of three cases, a NOTICE, a source, or neither. -/
theorem interruptEntry : Obligations.InterruptEntry := by
  unfold Obligations.InterruptEntry
  intro s n hst hrun hwin
  rw [exec_interruptEntry_run hst hrun hwin]
  refine ⟨?source, ?notice, ?neither⟩
  case source =>
    intro hnotice hnext
    rw [hnotice, hnext]
    rfl
  case notice =>
    intro w a hnotice
    have htake : s.takeNotice .decani = (s.setCore .decani { s.dec with notice := none }).trap .decani
        ⟨0x09, w, s.dec.pc, 0, some (BitVec.ofNat 32 a), none, false, true⟩ := by
      simp only [State.takeNotice, State.core, hnotice]
    rw [hnotice, ← htake]
    rfl
  case neither =>
    intro hnotice hnext
    rw [hnotice, hnext]
    rfl

/-! ### Loads and stores that may not be made -/

theorem privSpace_of_range {a : Nat} (h : 0xE0000000 ≤ a) (h' : a < 0xF0000000) : privSpace a = true := by
  simp [privSpace, h, h']

theorem privSpace_below {a : Nat} (h : a < 0xE0000000) : privSpace a = false := by
  simp [privSpace, h]

theorem refused_cyc (k : Core) (region : Nat) (write imprecise : Bool) : (k.refused region write imprecise).cyc = k.cyc := by
  simp only [Core.refused, Core.setPfld]

theorem refused_psr (k : Core) (region : Nat) (write imprecise : Bool) : (k.refused region write imprecise).psr = k.psr := by
  simp only [Core.refused, Core.setPfld]

theorem refused_pc (k : Core) (region : Nat) (write imprecise : Bool) : (k.refused region write imprecise).pc = k.pc := by
  simp only [Core.refused, Core.setPfld]

section

variable {s : State} {i : Issue} {word : Word} {n : Nat} {addr : Core → Word} {a : Word}

/-- User code that loads or stores from 0xE0000000 up takes PRIV before anything else (R257, R278). -/
theorem load_priv (h : s.issues i = true) (ha : addr ((s.issued i).core i.core) = a) (hspace : privSpace a.toNat = true)
    (hsup : ((s.issued i).core i.core).sup = false) (fin : Core → Nat → Core) :
    s.instrLoad i word n addr fin = s.trapped i 1 (s.trapIn i 0x02 0 none (some word)) :=
  instr_traps h _ (by simp [ha, hspace, hsup, privTrap])

theorem store_priv (h : s.issues i = true) (ha : addr ((s.issued i).core i.core) = a) (hspace : privSpace a.toNat = true)
    (hsup : ((s.issued i).core i.core).sup = false) (wt : Reg) (fin : Core → Core) :
    s.instrStore i word n addr wt fin = s.trapped i 1 (s.trapIn i 0x02 0 none (some word)) :=
  instr_traps h _ (by simp [ha, hspace, hsup, privTrap])

/-- A misaligned address takes DALIGN before the guard is asked (R278). -/
theorem load_misaligned (h : s.issues i = true) (ha : addr ((s.issued i).core i.core) = a) (hspace : privSpace a.toNat = false)
    (halign : a.toNat % n ≠ 0) (fin : Core → Nat → Core) :
    s.instrLoad i word n addr fin = s.trapped i 1 (s.trapIn i 0x06 0 (some a) (some word)) :=
  instr_traps h _ (by simp [ha, hspace, halign, dalign])

theorem store_misaligned (h : s.issues i = true) (ha : addr ((s.issued i).core i.core) = a) (hspace : privSpace a.toNat = false)
    (halign : a.toNat % n ≠ 0) (wt : Reg) (fin : Core → Core) :
    s.instrStore i word n addr wt fin = s.trapped i 1 (s.trapIn i 0x06 0 (some a) (some word)) :=
  instr_traps h _ (by simp [ha, hspace, halign, dalign])

/-- A load that the guard refuses is recorded in GSTAT and GCNT and takes DGUARD with its address (R366, R278). -/
theorem load_unguarded {k : Core} (hk : (s.issued i).core i.core = k) (h : s.issues i = true) (ha : addr k = a)
    (hspace : privSpace a.toNat = false) (halign : a.toNat % n = 0) (hguard : (k.guard k.world k.sup .r a.toNat).1 = false)
    (fin : Core → Nat → Core) :
    s.instrLoad i word n addr fin =
      (s.setCore i.core { k.refused (k.guard k.world k.sup .r a.toNat).2 false false with cyc := k.cyc + 1 }).trap i.core
        ⟨0x07, k.world, k.pc, 0, some a, some word, false, false⟩ := by
  rw [State.instrLoad, State.instr_issues h]
  simp only [hk, ha, hspace, halign, State.loadAt, hguard, Bool.false_and, Bool.false_eq_true, if_false, bne_self_eq_false, Bool.not_false,
    if_true, Got.after, State.finish, State.core_setCore, State.setCore_setCore, State.issued_setCore, refused_cyc]
  simp only [Core.world, refused_psr]
  rfl

end

/-- Settles O14, one lemma for each trap of a load and of a store. -/
theorem dataTraps : Obligations.DataTraps := by
  unfold Obligations.DataTraps
  intro s i wd ws m hissues
  have h := State.issuesOn_issues hissues
  refine ⟨fun hlo hhi hsup => ?priv, fun hlo halign => ?misaligned, fun hlo halign hguard => ?unguarded⟩
  case priv =>
    have hspace := privSpace_of_range hlo hhi
    exact ⟨⟨_, congrArg Host.Outcome.next (load_priv h rfl hspace hsup _)⟩, ⟨_, congrArg Host.Outcome.next (store_priv h rfl hspace hsup _ _)⟩⟩
  case misaligned =>
    have hspace := privSpace_below hlo
    exact ⟨⟨_, congrArg Host.Outcome.next (load_misaligned h rfl hspace halign _)⟩,
      ⟨_, congrArg Host.Outcome.next (store_misaligned h rfl hspace halign _ _)⟩⟩
  case unguarded =>
    have hload := load_unguarded (addr := memAddr ws m) (n := 4) (word := wordLS i 3 0x0F wd ws m) rfl h rfl (privSpace_below hlo) halign
      hguard (fun k v => k.setW wd (BitVec.ofNat 32 v))
    exact ⟨_, congrArg Host.Outcome.next hload⟩

end Sys2Proof.Proofs
end

section
/-! PROOF. Trap entry and lock-up: O9 (R260, R261, R279, R298). -/

namespace Sys2Proof.Proofs

open Sys2Proof Sys2Proof.Machine

/-! ### Where the frame goes -/

/-- Bit 2 of w14, as the trap tests it. -/
theorem bitAt_toNat (sp : Word) : bitAt sp.toNat 2 = sp.getLsbD 2 := rfl

theorem toNat_frameSize (pad : Bool) : (if pad then 36 else 32 : Word).toNat = if pad then 36 else 32 := by
  cases pad <;> rfl

/-- The address of the frame is w14 less the frame and its padding (R261). -/
theorem frameAddr_eq (sp : Word) (pad : Bool) :
    BitVec.ofNat 32 (sp.toNat + 2 ^ 32 - (if pad then 36 else 32)) = sp - (if pad then 36 else 32) := by
  have hlt := sp.isLt
  apply BitVec.eq_of_toNat_eq
  rw [BitVec.toNat_ofNat, BitVec.toNat_sub, toNat_frameSize]
  split <;> omega

/-- The copies of w14 keep their bits [1:0] at 0, which changes no multiple of 4 (Table 12.1). -/
theorem and_wordMask {w : Word} (h : w.toNat % 4 = 0) : w &&& 0xFFFFFFFC = w := by
  have hmask : ∀ j < 32, (0xFFFFFFFC : Word).getLsbD j = decide (2 ≤ j) := by decide
  apply BitVec.eq_of_getLsbD_eq
  intro j hj
  rw [BitVec.getLsbD_and, hmask j hj]
  by_cases hlow : 2 ≤ j
  · simp [hlow]
  · have hzero : w.toNat.testBit j = false := by
      have hmod : (w.toNat % 2 ^ 2).testBit j = false := by rw [show w.toNat % 2 ^ 2 = 0 from h]; exact Nat.zero_testBit j
      rwa [Nat.testBit_mod_two_pow, decide_eq_true (by omega), Bool.true_and] at hmod
    rw [← BitVec.testBit_toNat, hzero, Bool.false_and]

/-- The frame lies at a multiple of 4 where w14 was one. -/
theorem frameAddr_aligned {sp : Word} (h : sp.extractLsb' 0 2 = 0) :
    (sp - (if sp.getLsbD 2 then 36 else 32)).toNat % 4 = 0 := by
  have hsp : sp.toNat % 4 = 0 := by simpa using congrArg BitVec.toNat h
  rw [BitVec.toNat_sub, toNat_frameSize]
  split <;> omega

theorem frameBytes_length (k : Core) (t : TrapIn) (pad : Bool) : (frameBytes k t pad).length = 32 := rfl

/-- Every part of a store to SRAM passes the bus. -/
theorem busCheck_parts (s : State) (c : CoreId) (w : World) (q : List (Nat × List Byte))
    (h : ∀ p ∈ q, 0x20000000 ≤ p.1 ∧ p.1 < 0x20080000) :
    q.foldl (fun (r : Bool × State) p =>
      let x := r.2.busCheck (.core c) w true p.1 (leNat (p.2.take 4))
      (r.1 && x.1, x.2)) (true, s) = (true, s) := by
  induction q with
  | nil => rfl
  | cons p q ih =>
    obtain ⟨hlo, hhi⟩ := h p List.mem_cons_self
    simp only [List.foldl_cons, State.busCheck_sram s _ w true p.1 _ hlo hhi, Bool.and_self]
    exact ih fun x hx => h x (List.mem_cons_of_mem p hx)

/-- A frame that the guard permits in SRAM enters an empty store buffer, already checked (R363). -/
theorem storeFrame_buffered {s : State} {c : CoreId} {w : World} {a : Nat} {bs : List Byte} (hlen : bs.length = 32)
    (hsram : inSram a 32 = true) (hguard : ((s.core c).guard w true .w a).1 = true) (hbuf : (s.core c).sbuf = []) :
    s.storeFrame c w a bs = (true, s.setCore c { s.core c with sbuf := [⟨w, true, a, true, a, bs⟩] }) := by
  simp only [inSram, Bool.and_eq_true, decide_eq_true_eq] at hsram
  obtain ⟨hlo, hhi⟩ := hsram
  have hparts : ∀ p ∈ lineParts 3 a bs, 0x20000000 ≤ p.1 ∧ p.1 < 0x20080000 := by
    intro p hp
    have := lineParts_within 3 a bs p hp
    omega
  have hcost : (⟨w, true, a, true, a, bs⟩ : SBuf).cost ≤ 4 := by
    simp only [SBuf.cost, hlen]
    omega
  simp only [State.storeFrame, hguard, Bool.not_true, Bool.false_eq_true, if_false, busCheck_parts s c w _ hparts,
    region_sram hlo (by omega : a < 0x20080000), Region.type, State.bufferStore_empty s c _ hbuf hcost]

/-- A frame that the guard refuses is not stored (R279, R366). -/
theorem storeFrame_refused {s : State} {c : CoreId} {w : World} {a : Nat} (bs : List Byte)
    (hguard : ((s.core c).guard w true .w a).1 = false) :
    s.storeFrame c w a bs = (false, s.setCore c ((s.core c).refused ((s.core c).guard w true .w a).2 true false)) := by
  simp only [State.storeFrame, hguard, Bool.not_false, if_true]

/-! ### The trap -/

/-- A frame that is not stored locks Decani up where it stands (R279). -/
theorem trap_refused (s : State) (t : TrapIn) {k : Core} {sp a : Word} (hk : s.dec.landAll = k) (hworld : k.world = t.world)
    (hsp : k.sp.getD (spIx t.world true) 0 = sp) (ha : sp - (if sp.getLsbD 2 then 36 else 32) = a)
    (hguard : (k.guard t.world true .w a.toNat).1 = false) :
    s.trap .decani t = { s with dec := { k.refused (k.guard t.world true .w a.toNat).2 true false with lockup := true } } := by
  have hframe (bs : List Byte) := storeFrame_refused (s := s.setCore .decani k) (c := .decani) (w := t.world) bs
    (by rwa [State.core_setCore])
  simp only [State.core_setCore] at hframe
  simp only [State.trap, State.core_setCore, show s.core .decani = s.dec from rfl, hk, hworld, hsp, bitAt_toNat, frameAddr_eq, ha, hframe, if_true,
    Bool.false_eq_true, if_false, State.lockUp]
  rfl

/-- A core that has taken a trap with its frame at `a` (R260, R261, R298). -/
def entered (k : Core) (t : TrapIn) (pad : Bool) (a : Word) : Core :=
  { k with
    sp := k.sp.set (spIx t.world true) a
    sbuf := [⟨t.world, true, a.toNat, true, a.toNat, frameBytes k t pad⟩]
    psr := (k.psr &&& 0xFFFFE3FC) ||| (if t.world = .sacristy then 3 else 1)
    pc := k.vbase.getD t.world.ix 0 + BitVec.ofNat 32 (16 * t.code)
    trapaddr := (match t.addr with
      | some v => k.trapaddr.set t.world.ix v
      | none => k.trapaddr)
    trapinst := (match t.inst with
      | some v => k.trapinst.set t.world.ix v
      | none => k.trapinst)
    resv := none, dls := k.ls, dle := k.le, dlc := k.lc, dla := 0, lpend := [], waiting := false }

/-- Trap entry in the running world, the frame in the store buffer (R261). -/
theorem trap_entered (s : State) (c : CoreId) (t : TrapIn) {k : Core} {sp a : Word} (hk : (s.core c).landAll = k)
    (hsp : k.sp.getD (spIx t.world true) 0 = sp) (ha : sp - (if sp.getLsbD 2 then 36 else 32) = a) (hworld : k.world = t.world)
    (hbuf : k.sbuf = []) (hsram : inSram a.toNat 32 = true) (hguard : (k.guard t.world true .w a.toNat).1 = true)
    (haligned : a.toNat % 4 = 0) : s.trap c t = s.setCore c (entered k t (sp.getLsbD 2) a) := by
  have hframe := storeFrame_buffered (s := s.setCore c k) (c := c) (frameBytes_length k t (sp.getLsbD 2)) hsram
    (by rwa [State.core_setCore]) (by rwa [State.core_setCore])
  simp only [State.core_setCore, State.setCore_setCore] at hframe
  simp only [State.trap, State.core_setCore, State.setCore_setCore, hk, hworld, hsp, bitAt_toNat, frameAddr_eq, ha, hframe, if_true, Core.setSp,
    BitVec.ofNat_toNat, BitVec.setWidth_eq, and_wordMask haligned]
  rfl

/-- Settles O9: the frame enters the buffer (`trap_entered`) or is refused (`trap_refused`). -/
theorem trapsAndLockUp : Obligations.TrapsAndLockUp := by
  unfold Obligations.TrapsAndLockUp
  refine ⟨fun s c t hworld hbuf hsram hguard haligned => ?entry, fun s t hworld hguard => ?lockUp⟩
  case entry => exact trap_entered s c t rfl rfl rfl hworld hbuf hsram hguard (frameAddr_aligned haligned)
  case lockUp =>
    rw [trap_refused s t rfl hworld rfl rfl hguard]
    simp only [refused_psr, refused_pc, State.running, State.core, Bool.not_true, Bool.false_and, and_self]

end Sys2Proof.Proofs
end

section
/-! PROOF. Loads that the data cache serves, and the return from a trap (R262, R298, R301, R353). -/

namespace Sys2Proof.Proofs

open Sys2Proof Sys2Proof.Machine

/-! ### Runs of cached bytes -/

theorem cacheBytes_length (s : State) (c : CoreId) (a n : Nat) : (s.cacheBytes c a n).length = n := by
  simp [State.cacheBytes]

theorem cacheBytes_append (s : State) (c : CoreId) (a m n : Nat) :
    s.cacheBytes c a m ++ s.cacheBytes c (a + m) n = s.cacheBytes c a (m + n) := by
  simp [State.cacheBytes, List.range_add, Nat.add_assoc]

/-- The bytes of a part of a run. -/
theorem cacheBytes_drop_take (s : State) (c : CoreId) (a : Nat) {j m n : Nat} (h : j + m ≤ n) :
    ((s.cacheBytes c a n).drop j).take m = s.cacheBytes c (a + j) m := by
  obtain ⟨r, rfl⟩ := Nat.exists_eq_add_of_le h
  rw [← cacheBytes_append s c a (j + m) r, ← cacheBytes_append s c a j m, List.append_assoc]
  rw [List.drop_left' (cacheBytes_length s c a j), List.take_left' (cacheBytes_length s c (a + j) m)]

/-- With no store buffered nothing is forwarded to a load (R358). -/
theorem forward_nil {k : Core} (h : k.sbuf = []) (a : Nat) : k.forward a = none := by
  simp [Core.forward, h]

/-- Bytes of one line that is in the cache whole are read from it. -/
theorem cachedRead_hit {s : State} {c : CoreId} {a n : Nat} (hline : a % 32 + n ≤ 32) (hn : 0 < n)
    (hcached : ∀ j < n, s.cached c (a + j) = true) : s.cachedRead (cacheOf c) a n = (true, s.cacheBytes c a n, s) := by
  have hsame : ∀ j < n, lineOf (a + j) = lineOf a := by
    intro j hj
    simp only [lineOf]
    omega
  cases hfind : findLine (s.lines (cacheOf c)) (lineOf a) with
  | none =>
    have h0 := hcached 0 hn
    simp [State.cached, hfind] at h0
  | some x =>
    have h0 := hcached 0 hn
    simp only [State.cached, Nat.add_zero, hfind, Bool.and_eq_true, Bool.not_eq_true', List.isEmpty_iff, decide_eq_true_eq] at h0
    obtain ⟨⟨htag, hbad⟩, hlen⟩ := h0
    have hbase : lineOf a ≤ a := Nat.div_mul_le_self a 32
    have hoff : a - lineOf a = a % 32 := by simp only [lineOf]; omega
    have hbytes : (x.data.drop (a - lineOf a)).take n = s.cacheBytes c a n := by
      apply List.ext_getElem
      · simp only [List.length_take, List.length_drop, cacheBytes_length, hlen, hoff]
        omega
      · intro j hj _
        have hjn : j < n := by simp only [List.length_take] at hj; omega
        have hidx : a + j - lineOf a = a - lineOf a + j := by omega
        have hin : a - lineOf a + j < x.data.length := by omega
        simp only [State.cacheBytes, List.getElem_map, List.getElem_range, State.cacheByte, hsame j hjn, hfind, hidx, List.getElem_take,
          List.getElem_drop, List.getD_eq_getElem?_getD, List.getElem?_eq_getElem hin, Option.getD_some]
    simp only [State.cachedRead, hfind, htag, hbad, List.contains_nil, Bool.false_and, Bool.false_or,
      Bool.false_eq_true, if_false, hbytes]
    simp

/-- A run of one line of SRAM that is in the cache is read from it, memory and the rest left alone (R353). -/
theorem memRun_hit {s : State} {c : CoreId} (w : World) {a n : Nat} (hlo : 0x20000000 ≤ a) (hhi : a < 0x20080000)
    (hbuf : (s.core c).sbuf = []) (hline : a % 32 + n ≤ 32) (hn : 0 < n) (hcached : ∀ j < n, s.cached c (a + j) = true) :
    s.memRun c w a n = (true, s.cacheBytes c a n, s) := by
  have hnone : ((List.range n).map (fun _ => (none : Option Byte))).all Option.isSome = false := by
    obtain ⟨m, rfl⟩ := Nat.exists_eq_succ_of_ne_zero (Nat.pos_iff_ne_zero.mp hn)
    simp [List.range_succ]
  have hzip : (List.zip ((List.range n).map (fun _ => (none : Option Byte))) (s.cacheBytes c a n)).map (fun p => p.1.getD p.2) =
      s.cacheBytes c a n := by
    apply List.ext_getElem
    · simp [cacheBytes_length]
    · intro j _ _
      simp
  simp only [State.memRun, State.busCheck_sram s _ w false a 0 hlo hhi, forward_nil hbuf, hnone, region_sram hlo hhi, Region.type,
    cachedRead_hit hline hn hcached, hzip, Bool.not_true, Bool.false_eq_true, if_false]

/-- The cut of a run at the end of its first line. -/
theorem lineRuns_succ (f a : Nat) {n : Nat} (hn : 0 < n) :
    lineRuns (f + 1) a n = (a, min (32 - a % 32) n) :: lineRuns f (a + (32 - a % 32)) (n - (32 - a % 32)) := by
  simp [lineRuns, lineParts, Nat.ne_of_gt hn]

theorem cacheBytes_lineCut (s : State) (c : CoreId) (a room n : Nat) :
    s.cacheBytes c a (min room n) ++ s.cacheBytes c (a + room) (n - room) = s.cacheBytes c a n := by
  rcases Nat.le_total n room with hle | hle
  · rw [Nat.min_eq_right hle, Nat.sub_eq_zero_of_le hle]
    exact List.append_nil _
  · rw [Nat.min_eq_left hle, cacheBytes_append, Nat.add_sub_cancel' hle]

/-- A load cut at line boundaries reads the bytes of its lines from the cache. -/
theorem memRuns_hit {s : State} {c : CoreId} (w : World) {f a n : Nat} (hf : n < f) (hlo : 0x20000000 ≤ a) (hhi : a + n ≤ 0x20080000)
    (hbuf : (s.core c).sbuf = []) (hcached : ∀ j < n, s.cached c (a + j) = true) :
    s.memRuns c w (lineRuns f a n) = (none, s.cacheBytes c a n, s) := by
  induction f generalizing a n with
  | zero => omega
  | succ f ih =>
    rcases Nat.eq_zero_or_pos n with rfl | hn
    · rfl
    · have hfirst := memRun_hit (s := s) w hlo (by omega) hbuf (n := min (32 - a % 32) n) (by omega) (by omega)
        fun j hj => hcached j (by omega)
      have hrest := ih (a := a + (32 - a % 32)) (n := n - (32 - a % 32)) (by omega) (by omega) (by omega) fun j hj => by
        rw [Nat.add_assoc]
        exact hcached _ (by omega)
      rw [lineRuns_succ f a hn, State.memRuns, hfirst]
      dsimp only
      rw [hrest, if_pos rfl, cacheBytes_lineCut]

/-- A load that its core's data cache serves (R353): the bytes, and nothing else changes. -/
theorem loadAt_hit {s : State} {c : CoreId} {a n : Nat} (h : s.hits c a n = true) (hn : 0 < n) :
    s.loadAt c (s.core c).world (s.core c).sup a n = (.ok (s.cacheBytes c a n), s) := by
  simp only [State.hits, inSram, Bool.and_eq_true, Bool.not_eq_true', decide_eq_true_eq, List.isEmpty_iff, List.all_eq_true,
    List.mem_range] at h
  obtain ⟨⟨⟨⟨⟨hlo, hhi⟩, hguard⟩, hwaits⟩, hbuf⟩, hcached⟩ := h
  have hspace : privSpace a = false := privSpace_below (by omega)
  simp only [State.loadAt, hspace, hguard, hwaits, region_sram hlo (by omega : a < 0x20080000), Region.type,
    memRuns_hit _ (Nat.lt_succ_self n) hlo hhi hbuf hcached, Bool.false_and, Bool.not_true, Bool.false_eq_true, if_false,
    Option.isSome_none]

end Sys2Proof.Proofs
end

section
/-! PROOF. SVC, WCALL, BREAK, the reserved encodings and RETT: O7 (R258, R262, R274, R280, R303). -/

namespace Sys2Proof.Proofs

open Sys2Proof Sys2Proof.Machine

/-! ### Issue, registers and the cache -/

theorem sets_setCore (s : State) (c : CoreId) (k : Core) (l : List (Fld × Nat)) : (s.setCore c k).sets l = (s.sets l).setCore c k := by
  induction l generalizing s with
  | nil => rfl
  | cons p l ih =>
    have hfld : (s.setCore c k).setFld p.1 p.2 = (s.setFld p.1 p.2).setCore c k := by cases c <;> rfl
    rw [State.sets_cons, State.sets_cons, hfld, ih]

theorem core_sets (s : State) (c : CoreId) (l : List (Fld × Nat)) : (s.sets l).core c = s.core c := by
  cases c
  · exact State.sets_dec s l
  · exact State.sets_cant s l

theorem sets_issued (s : State) (i : Issue) (l : List (Fld × Nat)) : (s.issued i).sets l = (s.sets l).issued i := by
  simp only [State.issued, sets_setCore, core_sets]

theorem lines_issued (s : State) (i : Issue) (x : CacheId) : (s.issued i).lines x = s.lines x := by
  obtain ⟨c, _, _⟩ := i
  cases c <;> cases x <;> rfl

theorem inSlice_issued (s : State) (i : Issue) : (s.issued i).inSlice = s.inSlice := by
  funext lo hi
  simp only [State.inSlice, State.issued, State.setCore_st]

theorem accessWaits_issued (s : State) (i : Issue) (a : Nat) : (s.issued i).accessWaits a = s.accessWaits a := by
  unfold State.accessWaits
  rw [inSlice_issued]

theorem cacheBytes_issued (s : State) (i : Issue) (c : CoreId) (a n : Nat) : (s.issued i).cacheBytes c a n = s.cacheBytes c a n := by
  simp only [State.cacheBytes, State.cacheByte, lines_issued]

theorem hits_issued (s : State) (i : Issue) (a n : Nat) : (s.issued i).hits i.core a n = s.hits i.core a n := by
  simp only [State.hits, State.cached, accessWaits_issued, lines_issued, issued_world, issued_sup]
  rw [State.core_issued]
  rfl

/-! ### Instructions that go on -/

/-- An instruction of no cycle that only writes registers of the part. -/
theorem instr_sets {s : State} {i : Issue} (h : s.issuesOn i = true) {body : State → State × After} {l : List (Fld × Nat)}
    (hbody : body (s.issued i) = ((s.issued i).sets l, .seq)) : s.instr i (fun _ => 0) body = (s.sets l).retired i 0 id := by
  have hloops := State.issues_lpend (State.issuesOn_issues h)
  have hends := Core.straight_at (State.issuesOn_straight h)
  rw [State.instr_issues (State.issuesOn_issues h)]
  simp only [hbody, sets_issued, State.finish]
  rw [State.retire_straight]
  · simp only [State.retired, State.core_setCore, State.setCore_setCore, State.issued_setCore, State.core_issued, core_sets, id]
  · simpa [State.core_issued, core_sets] using hloops
  · simpa [State.core_issued, core_sets] using hends

/-- An instruction that changes its own core and jumps. -/
theorem instr_jumps {s : State} {i : Issue} (h : s.issues i = true) (cycles : Core → Nat) {body : State → State × After} {t : Word}
    {f : Core → Core} (hbody : body (s.issued i) = ((s.issued i).setCore i.core (f ((s.issued i).core i.core)), .jump t))
    (hloops : (f ((s.issued i).core i.core)).lpend = []) : s.instr i cycles body = s.jumped i (cycles ((s.issued i).core i.core)) t f := by
  have hjump := State.instrCore_jump h cycles (fun k => (f k, .jump t)) f t rfl hloops
  rw [State.instrCore, State.instr_issues h] at hjump
  rw [← hjump, State.instr_issues h]
  simp only [hbody]

/-! ### SVC of Cantoris -/

/-- What Cantoris in XCALL shows Decani (R274). -/
def xcallFields (k : Core) (svc : Nat) : List (Fld × Nat) :=
  [(fCANTSTAT_STATE, 5), (fCANTXCTL_SVC, svc), (fCANTXARG_ARG 0, (k.gpr.getD 0 0).toNat), (fCANTXARG_ARG 1, (k.gpr.getD 1 0).toNat),
    (fCANTXARG_ARG 2, (k.gpr.getD 2 0).toNat), (fCANTXARG_ARG 3, (k.gpr.getD 3 0).toNat)]

theorem xcall_run {s : State} (h : s.slp.st = .run) (svc : Nat) : s.xcall svc = s.sets (xcallFields s.cant svc) := by
  rw [State.xcall, wakeOnInt_decani_run (by rw [State.sets_slp]; exact h)]
  rfl

theorem svc_cantoris {s : State} {i : Issue} (h : s.issuesOn i = true) (hc : i.core = .cantoris) (hrun : s.slp.st = .run) (m : BitVec 8) :
    exec (.svc i m) s = .next ((s.sets (xcallFields ((s.issued i).core i.core) m.toNat)).retired i 0 id) := by
  have hslp : (s.issued i).slp.st = .run := by rw [State.issued, State.setCore_slp]; exact hrun
  have hcant : (s.issued i).cant = (s.issued i).core i.core := by rw [hc]; rfl
  refine congrArg Host.Outcome.next (instr_sets h ?_)
  simp only [hc]
  rw [xcall_run hslp, hcant, hc]

/-! ### SVC and WCALL of Decani, BREAK, and the reserved encodings -/

theorem svc_decani {s : State} {i : Issue} (h : s.issuesOn i = true) (hc : i.core = .decani) (m : BitVec 8) :
    exec (.svc i m) s = .next ((s.retired i 0 id).trap .decani ⟨0x0A, ((s.issued i).core i.core).world,
      ((s.issued i).core i.core).pc + issueLen i, m.toNat, none, some (wordRY 0 0 0 m.toNat), false, false⟩) := by
  rw [← hc]
  exact congrArg Host.Outcome.next (instr_calls h (by simp only [hc]))

theorem wcall_decani {s : State} {i : Issue} (h : s.issuesOn i = true) (hc : i.core = .decani) (m : BitVec 8) :
    exec (.wcall i m) s = .next ((s.retired i 0 id).trap .decani ⟨0x0D, .sacristy,
      ((s.issued i).core i.core).pc + issueLen i, m.toNat, none, some (wordRY 0 0 2 m.toNat), false, false⟩) := by
  rw [← hc]
  exact congrArg Host.Outcome.next (instr_calls h (by simp only [hc]))

theorem wcall_cantoris {s : State} {i : Issue} (h : s.issues i = true) (hc : i.core = .cantoris) (m : BitVec 8) :
    exec (.wcall i m) s = .next (s.trapped i 0 (s.trapIn i 0x02 0 none (some (wordRY 0 0 2 m.toNat)))) :=
  congrArg Host.Outcome.next (instr_traps h _ (by simp only [hc, privTrap]))

/-- Whether the debug level admits the core an instruction finds (Table 17.7). -/
theorem debugAdmits_issued (s : State) (i : Issue) : (s.issued i).debugAdmits i.core =
    match ((s.issued i).core i.core).world with
    | .nave => decide (1 ≤ s.fld fSACDBG_LEVEL)
    | .sacristy => decide (2 ≤ s.fld fSACDBG_LEVEL) := by
  have hfld : (s.issued i).fld fSACDBG_LEVEL = s.fld fSACDBG_LEVEL := by rw [State.issued, State.setCore_fld]
  rw [State.debugAdmits, hfld] <;> rfl

/-- BREAK where the debug level admits the core halts it before it acts (R393). -/
theorem brk_halts {s : State} {i : Issue} (h : s.issues i = true) (hadmits : (s.issued i).debugAdmits i.core = true) (m : BitVec 8) :
    exec (.brk i m) s = .next (s.setCore i.core { (s.issued i).core i.core with dbgHalt := true }) := by
  refine congrArg Host.Outcome.next ?_
  rw [State.instr_issues h]
  simp only [hadmits, if_true, State.finish, State.core_setCore, State.setCore_setCore, State.issued_setCore, Nat.add_zero]

theorem brk_traps {s : State} {i : Issue} (h : s.issuesOn i = true) (hadmits : (s.issued i).debugAdmits i.core = false) (m : BitVec 8) :
    exec (.brk i m) s = .next ((s.retired i 0 id).trap i.core ⟨0x0B, ((s.issued i).core i.core).world,
      ((s.issued i).core i.core).pc + issueLen i, 0, none, some (wordRY 0 0 1 m.toNat), false, false⟩) :=
  congrArg Host.Outcome.next (instr_calls h (by simp only [hadmits, Bool.false_eq_true, if_false]))

/-! ### RETT -/

/-- The core that takes a frame's words back (R262, R298, R301). -/
def restored (n : Nat) (f : Nat → Word) (k : Core) : Core :=
  { k with
    sp := k.sp.set n ((k.sp.getD n 0 + (if (f 7).getLsbD 10 then 36 else 32)) &&& 0xFFFFFFFC)
    gpr := ((((k.gpr.set 0 (f 0)).set 1 (f 1)).set 2 (f 2)).set 3 (f 3)).set 15 (f 4)
    psr := f 6 &&& 0x1F07, dla := ((f 6 &&& 0x1F07).extractLsb' 10 3).toNat, lpend := [], resv := none
    active := if (f 7).getLsbD 8 then k.active.drop 1 else k.active }

theorem restore_eq {k : Core} (hloops : k.lpend = []) (n : Nat) (bs : List Byte) : k.restore n bs = restored n (frameWord bs) k := by
  simp only [Core.restore, Core.setSp, hloops, List.filter_nil, psrLA, fldOf]
  rfl

/-- The words of a frame in the cache. -/
def cacheWord (s : State) (c : CoreId) (a j : Nat) : Word := BitVec.ofNat 32 (leNat (s.cacheBytes c (a + 4 * j) 4))

theorem frameWord_cached (s : State) (c : CoreId) (a : Nat) {j : Nat} (hj : j < 8) :
    frameWord (s.cacheBytes c a 32) j = cacheWord s c a j := by
  rw [frameWord, cacheBytes_drop_take s c a (by omega : 4 * j + 4 ≤ 32)]
  rfl

/-- Only the eight words of a frame are taken back. -/
theorem restored_congr {n : Nat} {f g : Nat → Word} (h : ∀ j < 8, f j = g j) (k : Core) : restored n f k = restored n g k := by
  simp only [restored, h 0 (by decide), h 1 (by decide), h 2 (by decide), h 3 (by decide), h 4 (by decide), h 6 (by decide),
    h 7 (by decide)]

section

variable {s : State} {i : Issue} {n : Nat} {a : Word}

theorem rett_user (h : s.issues i = true) (hsup : ((s.issued i).core i.core).sup = false) :
    exec (.rett i) s = .next (s.trapped i 6 (s.trapIn i 0x02 0 none (some (wordRY 0 0 3 0)))) := by
  refine congrArg Host.Outcome.next (instr_traps h _ ?_)
  simp only [hsup, Bool.not_false, if_true, privTrap]

/-- RETT reads its frame out of the cache. -/
theorem rett_load (hsup : ((s.issued i).core i.core).sup = true) (hits : s.hits i.core a.toNat 32 = true) :
    (s.issued i).loadAt i.core ((s.issued i).core i.core).world true a.toNat 32 = (.ok (s.cacheBytes i.core a.toNat 32), s.issued i) := by
  have hload := loadAt_hit (s := s.issued i) (c := i.core) (by rwa [hits_issued]) (by decide)
  rwa [hsup, cacheBytes_issued] at hload

theorem rett_sacristyFrame (h : s.issues i = true) (hsup : ((s.issued i).core i.core).sup = true)
    (ha : ((s.issued i).core i.core).sp.getD (spIx ((s.issued i).core i.core).world true) 0 = a) (hits : s.hits i.core a.toNat 32 = true)
    (hnave : ((s.issued i).core i.core).world = .nave) (hframe : (cacheWord s i.core a.toNat 6).getLsbD 1 = true) :
    exec (.rett i) s = .next (s.trapped i 6 (s.trapIn i 0x02 0 none (some (wordRY 0 0 3 0)))) := by
  have htarget : psrWorld (frameWord (s.cacheBytes i.core a.toNat 32) 6) = .sacristy := by
    rw [frameWord_cached s _ _ (by decide), psrWorld, if_pos hframe]
  refine congrArg Host.Outcome.next (instr_traps h _ ?_)
  simp only [hsup, ha, rett_load hsup hits, Bool.not_true, Bool.false_eq_true, if_false, if_pos (And.intro hnave htarget), privTrap]

theorem rett_restores (h : s.issues i = true) (hsup : ((s.issued i).core i.core).sup = true)
    (hn : spIx ((s.issued i).core i.core).world true = n) (ha : ((s.issued i).core i.core).sp.getD n 0 = a)
    (hits : s.hits i.core a.toNat 32 = true)
    (hframe : (cacheWord s i.core a.toNat 6).getLsbD 1 = true → ((s.issued i).core i.core).world = .sacristy) :
    exec (.rett i) s = .next (s.jumped i 6 (cacheWord s i.core a.toNat 5) (restored n (cacheWord s i.core a.toNat))) := by
  have hloops : ((s.issued i).core i.core).lpend = [] := by rw [State.core_issued]; exact State.issues_lpend h
  have hbuf : ((s.issued i).core i.core).sbuf = [] := by
    rw [← hits_issued] at hits
    simp only [State.hits, Bool.and_eq_true, List.isEmpty_iff] at hits
    obtain ⟨⟨_, hbuf⟩, _⟩ := hits
    exact hbuf
  have hallowed : ¬ (((s.issued i).core i.core).world = .nave ∧ psrWorld (frameWord (s.cacheBytes i.core a.toNat 32) 6) = .sacristy) := by
    rintro ⟨hnave, htarget⟩
    rw [frameWord_cached s _ _ (by decide), psrWorld] at htarget
    split at htarget
    case isTrue hbit => rw [hframe hbit] at hnave; exact absurd hnave (by decide)
    case isFalse => exact absurd htarget (by decide)
  refine congrArg Host.Outcome.next (instr_jumps h _ ?body rfl)
  case body =>
    simp only [hsup, hn, ha, rett_load hsup hits, Bool.not_true, Bool.false_eq_true, if_false, hallowed, State.drainAll_nil _ _ hbuf, ite_self,
      restore_eq hloops, frameWord_cached s i.core a.toNat (by decide : 5 < 8),
      restored_congr fun j hj => frameWord_cached s i.core a.toNat hj]

end

/-- Settles O7, one lemma for each instruction and core. -/
theorem systemCallsAndReturn : Obligations.SystemCallsAndReturn := by
  unfold Obligations.SystemCallsAndReturn
  refine ⟨fun s i m word hissues => ⟨?decani, ?cantoris, ?halts, ?traps, ?reserved⟩, fun s i h => ⟨?user, ?refused, ?returns⟩⟩
  case decani => exact fun hc => ⟨⟨_, svc_decani hissues hc m⟩, ⟨_, wcall_decani hissues hc m⟩⟩
  case cantoris => exact fun hc => ⟨fun hrun => svc_cantoris hissues hc hrun m, ⟨_, wcall_cantoris (State.issuesOn_issues hissues) hc m⟩⟩
  case halts => exact fun hadmits => brk_halts (State.issuesOn_issues hissues) ((debugAdmits_issued s i).trans hadmits) m
  case traps => exact fun hadmits => ⟨_, brk_traps hissues ((debugAdmits_issued s i).trans hadmits) m⟩
  case reserved => exact congrArg Host.Outcome.next (instr_traps (State.issuesOn_issues hissues) _ rfl)
  case user => exact fun hsup => ⟨_, rett_user h hsup⟩
  case refused => exact fun hsup hits hnave hframe => ⟨_, rett_sacristyFrame h hsup rfl hits hnave hframe⟩
  case returns => exact fun hsup hits hframe => rett_restores h hsup rfl rfl hits hframe

end Sys2Proof.Proofs
end

section
/-! PROOF. Cantoris's power and run: O36 (R271, R272, R274). -/

namespace Sys2Proof.Proofs

open Sys2Proof Sys2Proof.Machine

/-! ### Writes of block 7 -/

theorem specOf_cantctl : specOf rCANTCTL = some ⟨0x40007000, 1, 0, 0x3, 0, 0, 0, 0, 0, 0⟩ := by decide +kernel

theorem specOf_cantxctl : specOf rCANTXCTL = some ⟨0x40007010, 1, 0, 0, 0, 0, 0x100, 0, 0, 0⟩ := by decide +kernel

theorem ccBus_ctl (s : State) (v : Word) : s.ccBus .sacristy rCANTCTL v = s.cantWriteCtl v := by
  rw [State.ccBus, vet_sacristy s v specOf_cantctl]
  exact if_pos rfl

/-- DONE with no shed waiting for it (R274). -/
theorem ccBus_done {s : State} (h : s.pwr.shedXcall = false ∨ s.fld fCANTSTAT_STATE ≠ 5) :
    s.ccBus .sacristy rCANTXCTL 0x100 = s.cantDone := by
  have hno : (s.pwr.shedXcall && decide (s.fld fCANTSTAT_STATE = 5)) = false := by
    rcases h with h | h <;> simp [h]
  rw [State.ccBus, vet_sacristy s _ specOf_cantxctl]
  change State.ccWrite s rCANTXCTL 0x100 = _
  rw [State.ccWrite, if_neg (by decide), if_pos rfl, if_pos (by decide)]
  simp only [hno, Bool.false_eq_true, if_false]

/-- A field of one bit that is set is 1. -/
theorem fld_eq_one {s : State} {f : Fld} (hw : f.w = 1) (h : s.on f = true) : s.fld f = 1 := by
  have hlt : s.fld f < 2 ^ f.w := fldOf_lt (s.reg f.addr) f
  rw [hw] at hlt
  simp only [State.on, bne_iff_ne, ne_eq] at h
  omega

theorem fld_eq_zero {s : State} {f : Fld} (h : s.on f = false) : s.fld f = 0 := by
  simpa [State.on] using h

/-! ### A write of CANTCTL, case by case (R271, R272) -/

section

variable {s : State} {v : Word}

theorem cantWriteCtl_powers (hst : s.fld fCANTSTAT_STATE = 0) (hpwr : fldOf v fCANTCTL_PWR = 1) (hrun : fldOf v fCANTCTL_RUN = 0) :
    s.cantWriteCtl v = ({ (s.plainWrite rCANTCTL v).setFld fCANTSTAT_STATE 1 with cant := Core.off } : State).retoken := by
  simp [State.cantWriteCtl, hst, hpwr, hrun]

theorem cantWriteCtl_runs (hst : s.fld fCANTSTAT_STATE = 2) (hpwr : fldOf v fCANTCTL_PWR = 1) (hrun : fldOf v fCANTCTL_RUN = 1)
    (htokens : s.tokensRefuse (s.needNow + 3) = false) : s.cantWriteCtl v = (s.plainWrite rCANTCTL v).cantGo.retoken := by
  simp [State.cantWriteCtl, State.cantRefused, hst, hpwr, hrun, htokens]

theorem cantWriteCtl_refused (hst : s.fld fCANTSTAT_STATE = 2) (hpwr : fldOf v fCANTCTL_PWR = 1) (hrun : fldOf v fCANTCTL_RUN = 1)
    (htokens : s.tokensRefuse (s.needNow + 3) = true) : s.cantWriteCtl v = s.tokenRefused := by
  simp [State.cantWriteCtl, State.cantRefused, hst, hpwr, hrun, htokens]

theorem cantWriteCtl_stops (hst : s.fld fCANTSTAT_STATE = 3) (hpwr : fldOf v fCANTCTL_PWR = 1) (hrun : fldOf v fCANTCTL_RUN = 0) :
    s.cantWriteCtl v = ((s.plainWrite rCANTCTL v).setFld fCANTSTAT_STATE 2).retoken := by
  simp [State.cantWriteCtl, hst, hpwr, hrun]

theorem cantWriteCtl_unpowers (hst : s.fld fCANTSTAT_STATE ≠ 0) (hpwr : fldOf v fCANTCTL_PWR = 0) (hrun : fldOf v fCANTCTL_RUN = 0) :
    s.cantWriteCtl v = (s.plainWrite rCANTCTL v).cantOff.retoken := by
  simp [State.cantWriteCtl, hst, hpwr, hrun]

end

/-! ### What a write of CANTCTL leaves -/

/-- What the commands of Cantoris leave alone. -/
def cantBesides (s t : State) : Prop := t.role = s.role ∧ t.dec = s.dec ∧ t.mem = s.mem ∧ t.pending = s.pending

theorem cantBesides_of_writes {l : List Fld} {s t : State} (h : Writes l s t) : cantBesides s t ∧ t.cant = s.cant := by
  rw [h.regs]
  exact ⟨⟨rfl, rfl, rfl, rfl⟩, rfl⟩

theorem plainWrite_cantctl_eq (s : State) (v : Word) : s.plainWrite rCANTCTL v = { s with regs := (s.plainWrite rCANTCTL v).regs } :=
  (plainWrite_writes (l := [wholeReg rCANTCTL]) s v (List.mem_singleton_self _)).regs

theorem reg_plainWrite_cantctl (s : State) (v : Word) {a : Nat} (ha : a ≠ rCANTCTL) : (s.plainWrite rCANTCTL v).reg a = s.reg a := by
  simp only [State.plainWrite, specOf_cantctl, State.reg_setReg, if_neg ha.symm]

/-- CANTCTL written with `v`: Cantoris comes to state `n` as the core `k`. -/
structure CantWritten (s : State) (v : Word) (n : Nat) (k : Core) (t : State) : Prop where
  state : t.fld fCANTSTAT_STATE = n
  pwr : t.fld fCANTCTL_PWR = fldOf v fCANTCTL_PWR
  run : t.fld fCANTCTL_RUN = fldOf v fCANTCTL_RUN
  cant : t.cant = k
  rest : cantBesides s t

/-- What CANTCTL and CANTSTAT hold stays while the tokens are counted again (R58). -/
theorem written_retoken {s u : State} {v : Word} {n : Nat} {k : Core} (h : s.awake = true) (hn : n < 8)
    (hregs : u.regs = ((s.plainWrite rCANTCTL v).setFld fCANTSTAT_STATE n).regs) (hslp : u.slp = s.slp) (hcant : u.cant = k)
    (hrest : cantBesides s u) : CantWritten s v n k u.retoken := by
  have hawake : u.awake = true := by rw [State.awake, hslp]; exact h
  have htokens := retoken_writes hawake
  obtain ⟨⟨hrole, hdec, hmem, hpending⟩, hkept⟩ := cantBesides_of_writes htokens
  obtain ⟨urole, udec, umem, upending⟩ := hrest
  have hstored {f : Fld} (hf : f.addr = rCANTCTL) (hbits : ∀ j < f.w, (3 : Nat).testBit (f.lo + j) = true)
      (htok : tokenFields.all (fun g => g.other f) = true) (hst : fCANTSTAT_STATE.other f = true) : u.retoken.fld f = fldOf v f := by
    rw [htokens.kept f htok, fld_of_regs hregs f, State.fld_setFld_other _ _ _ _ hst]
    exact fld_plainWrite_stored s v specOf_cantctl hf fun j hj => ⟨hbits j hj, Nat.zero_testBit _, Nat.zero_testBit _⟩
  refine ⟨?state, hstored rfl (by decide) (by decide) (by decide), hstored rfl (by decide) (by decide) (by decide), hkept.trans hcant,
    hrole.trans urole, hdec.trans udec, hmem.trans umem, hpending.trans upending⟩
  case state =>
    rw [htokens.kept _ (by decide), fld_of_regs hregs, State.fld_setFld _ _ _ (by decide)]
    exact Nat.mod_eq_of_lt hn

section

variable {s : State} {v : Word}

/-- Power on (R271): POWERING, with no state. -/
theorem cantWriteCtl_powering (h : s.awake = true) (hst : s.fld fCANTSTAT_STATE = 0) (hpwr : fldOf v fCANTCTL_PWR = 1)
    (hrun : fldOf v fCANTCTL_RUN = 0) : CantWritten s v 1 Core.off (s.cantWriteCtl v) := by
  rw [cantWriteCtl_powers hst hpwr hrun]
  refine written_retoken h (by decide) rfl ?slp rfl ?rest
  case slp => rw [plainWrite_cantctl_eq]; rfl
  case rest => rw [plainWrite_cantctl_eq]; exact ⟨rfl, rfl, rfl, rfl⟩

/-- The core that Cantoris goes on with (R271): from CANTENTRY the first time after POWERING. -/
def startedCore (s : State) : Core :=
  if s.cant.fresh then
    { s.cant with
      fresh := false, psr := 1, pc := s.reg rCANTENTRY &&& 0xFFFFFFFE
      vbase := s.cant.vbase.set 0 (s.reg rCANTVBASE &&& 0xFFFFFFE0) }
  else s.cant

theorem startedCore_waiting (s : State) : (startedCore s).waiting = s.cant.waiting := by
  unfold startedCore
  split <;> rfl

theorem cantGo_eq (hwait : s.cant.waiting = false) : s.cantGo = ({ s with cant := startedCore s } : State).setFld fCANTSTAT_STATE 3 := by
  have hcore := (startedCore_waiting s).trans hwait
  change ({ s with cant := startedCore s } : State).setFld fCANTSTAT_STATE (if (startedCore s).waiting then 4 else 3) = _
  rw [hcore]
  rfl

theorem startedCore_plainWrite (s : State) (v : Word) : startedCore (s.plainWrite rCANTCTL v) = startedCore s := by
  rw [startedCore, reg_plainWrite_cantctl s v (by decide), reg_plainWrite_cantctl s v (by decide), plainWrite_cantctl_eq]
  rfl

/-- A start with tokens enough (R271, R272). -/
theorem cantWriteCtl_starts (h : s.awake = true) (hst : s.fld fCANTSTAT_STATE = 2) (hpwr : fldOf v fCANTCTL_PWR = 1)
    (hrun : fldOf v fCANTCTL_RUN = 1) (htokens : s.tokensRefuse (s.needNow + 3) = false) (hwait : s.cant.waiting = false) :
    CantWritten s v 3 (startedCore s) (s.cantWriteCtl v) := by
  have hwait' : (s.plainWrite rCANTCTL v).cant.waiting = false := by rw [plainWrite_cantctl_eq]; exact hwait
  rw [cantWriteCtl_runs hst hpwr hrun htokens, cantGo_eq hwait', startedCore_plainWrite]
  refine written_retoken h (by decide) rfl ?slp rfl ?rest
  case slp => rw [plainWrite_cantctl_eq]; rfl
  case rest => rw [plainWrite_cantctl_eq]; exact ⟨rfl, rfl, rfl, rfl⟩

/-- A start that the tokens refuse is flagged and changes nothing else (R60). -/
theorem tokenRefused_spec (h : s.awake = true) :
    s.tokenRefused.on fPWRFLAG_REFUSED = true ∧ Writes [fPWRFLAG_REFUSED, fWAKESRC_SRC] s s.tokenRefused :=
  ⟨pwrFlag_on h (by decide) (by decide) (by decide), pwrFlag_writes h (by decide) (by decide)⟩

/-- RUN = 0 (R271): STOPPED, the state kept. -/
theorem cantWriteCtl_stopped (h : s.awake = true) (hst : s.fld fCANTSTAT_STATE = 3) (hpwr : fldOf v fCANTCTL_PWR = 1)
    (hrun : fldOf v fCANTCTL_RUN = 0) : CantWritten s v 2 s.cant (s.cantWriteCtl v) := by
  rw [cantWriteCtl_stops hst hpwr hrun]
  refine written_retoken h (by decide) rfl ?slp ?cant ?rest
  case slp => rw [plainWrite_cantctl_eq]; rfl
  case cant => rw [plainWrite_cantctl_eq]; rfl
  case rest => rw [plainWrite_cantctl_eq]; exact ⟨rfl, rfl, rfl, rfl⟩

/-- Nothing buffered and nothing cached: power is lost with nothing written back (R271). -/
theorem cantOff_eq (hbuf : s.cant.sbuf = []) (hcache : s.cant.dc = []) :
    s.cantOff = { s.setFld fCANTSTAT_STATE 0 with
      cant := Core.off
      hl := { s.hl with
        winAsk := s.hl.winAsk.filter (fun p => p.1 = .decani)
        winAns := s.hl.winAns.filter (fun p => p.1 = .decani) } } := by
  have hflush : s.flushCache .cant = s := by
    rw [State.flushCache, show s.lines .cant = [] from hcache]
    rfl
  rw [State.cantOff, State.drainAll_nil s .cantoris hbuf, hflush]

/-- Power off (R271): OFF, the state gone. -/
theorem cantWriteCtl_off (h : s.awake = true) (hst : s.fld fCANTSTAT_STATE ≠ 0) (hpwr : fldOf v fCANTCTL_PWR = 0)
    (hrun : fldOf v fCANTCTL_RUN = 0) (hbuf : s.cant.sbuf = []) (hcache : s.cant.dc = []) :
    CantWritten s v 0 Core.off (s.cantWriteCtl v) := by
  have hcant : (s.plainWrite rCANTCTL v).cant = s.cant := by rw [plainWrite_cantctl_eq]
  rw [cantWriteCtl_unpowers hst hpwr hrun, cantOff_eq (by rwa [hcant]) (by rwa [hcant])]
  refine written_retoken h (by decide) rfl ?slp rfl ?rest
  case slp => rw [plainWrite_cantctl_eq]; rfl
  case rest => rw [plainWrite_cantctl_eq]; exact ⟨rfl, rfl, rfl, rfl⟩

end

/-! ### The end of POWERING, and DONE -/

/-- Cantoris with the results of its SVC in w0 to w3 (R274). -/
def answeredCore (s : State) : Core :=
  { s.cant with
    gpr := (((s.cant.gpr.set 0 (s.reg (rCANTXRES 0))).set 1 (s.reg (rCANTXRES 1))).set 2 (s.reg (rCANTXRES 2))).set 3 (s.reg (rCANTXRES 3)) }

theorem answeredCore_result {s : State} (hlen : s.cant.gpr.length = 16) {n : Nat} (hn : n < 4) :
    (answeredCore s).gpr.getD n 0 = s.reg (rCANTXRES n) := by
  simp only [answeredCore, List.getD_eq_getElem?_getD, List.getElem?_set, List.length_set, hlen]
  interval_cases n <;> rfl

theorem answeredCore_kept (s : State) {n : Nat} (hn : 4 ≤ n) : (answeredCore s).gpr.getD n 0 = s.cant.gpr.getD n 0 := by
  simp only [answeredCore, List.getD_eq_getElem?_getD]
  rw [List.getElem?_set_ne (by omega), List.getElem?_set_ne (by omega), List.getElem?_set_ne (by omega), List.getElem?_set_ne (by omega)]

theorem cantDone_runs {s : State} (hst : s.fld fCANTSTAT_STATE = 5) (hrun : s.on fCANTCTL_RUN = true) :
    s.cantDone = ({ s with cant := answeredCore s } : State).setFld fCANTSTAT_STATE 3 := by
  rw [State.cantDone, if_pos hst]
  exact if_pos hrun

theorem cantDone_idle {s : State} (hst : s.fld fCANTSTAT_STATE ≠ 5) : s.cantDone = s := if_neg hst

theorem exec_cantorisPowered_stopped {s : State} (hst : s.fld fCANTSTAT_STATE = 1) (hrun : s.on fCANTCTL_RUN = false) :
    exec .cantorisPowered s = .next (({ s with cant := { s.coreAfterReset Core.off with
      fresh := true
      sp := (List.range 4).map (fun i => BitVec.ofNat 32 (Config.free (s.free + 16 + i)) &&& 0xFFFFFFFC) } } : State).used 20
        |>.setFld fCANTSTAT_STATE 2) := by
  refine congrArg Host.Outcome.next ?_
  rw [if_pos hst, State.cantPowered, hrun]
  rfl

/-! ### O36 -/

/-- A write that is to change PWR asks for RUN as it is. -/
theorem run_of_putPwr (s : State) (b : Nat) : fldOf (putFld (s.reg rCANTCTL) fCANTCTL_PWR b) fCANTCTL_RUN = s.fld fCANTCTL_RUN :=
  fldOf_putFld_apart (s.reg rCANTCTL) fCANTCTL_PWR fCANTCTL_RUN b (by decide)

/-- A write that is to change RUN asks for PWR as it is. -/
theorem pwr_of_putRun (s : State) (b : Nat) : fldOf (putFld (s.reg rCANTCTL) fCANTCTL_RUN b) fCANTCTL_PWR = s.fld fCANTCTL_PWR :=
  fldOf_putFld_apart (s.reg rCANTCTL) fCANTCTL_RUN fCANTCTL_PWR b (by decide)

/-- Settles O36: each command is a write of CANTCTL (`CantWritten`), the end of POWERING, or DONE. -/
theorem cantorisPower : Obligations.CantorisPower := by
  unfold Obligations.CantorisPower
  intro s h
  have hwrite (v : Word) : Host.Outcome.next (s.ccBus .sacristy rCANTCTL v) = (.next (s.cantWriteCtl v) : Host.Outcome State Fault Refusal) :=
    congrArg Host.Outcome.next (ccBus_ctl s v)
  have hpwrOne : fldOf (putFld (s.reg rCANTCTL) fCANTCTL_PWR 1) fCANTCTL_PWR = 1 := fldOf_putFld_one _ _ (by decide) (by decide)
  have hpwrZero : fldOf (putFld (s.reg rCANTCTL) fCANTCTL_PWR 0) fCANTCTL_PWR = 0 := fldOf_putFld_zero _ _ (by decide)
  have hrunOne : fldOf (putFld (s.reg rCANTCTL) fCANTCTL_RUN 1) fCANTCTL_RUN = 1 := fldOf_putFld_one _ _ (by decide) (by decide)
  have hrunZero : fldOf (putFld (s.reg rCANTCTL) fCANTCTL_RUN 0) fCANTCTL_RUN = 0 := fldOf_putFld_zero _ _ (by decide)
  have hrunKept (b : Nat) (hrun : s.on fCANTCTL_RUN = false) : fldOf (putFld (s.reg rCANTCTL) fCANTCTL_PWR b) fCANTCTL_RUN = 0 :=
    (run_of_putPwr s b).trans (fld_eq_zero hrun)
  have hpwrKept (b : Nat) (hpwr : s.on fCANTCTL_PWR = true) : fldOf (putFld (s.reg rCANTCTL) fCANTCTL_RUN b) fCANTCTL_PWR = 1 :=
    (pwr_of_putRun s b).trans (fld_eq_one rfl hpwr)
  refine ⟨?powerOn, ?powered, ?unpowered, ?starts, ?resumes, ?refused, ?stops, ?powerOff, ?done, ?idle⟩
  case powerOn =>
    intro hst hrun
    obtain ⟨hstate, hpwr, _, hcant, hrest⟩ := cantWriteCtl_powering h hst hpwrOne (hrunKept 1 hrun)
    exact ⟨_, hwrite _, hstate, by simp [State.on, hpwr, hpwrOne], hcant, hrest⟩
  case powered =>
    intro hst hrun
    exact ⟨_, exec_cantorisPowered_stopped hst hrun, State.fld_setFld _ _ _ (by decide), rfl, rfl, rfl, rfl, rfl, rfl, rfl, rfl⟩
  case unpowered => exact fun hst => congrArg Host.Outcome.next (if_neg hst)
  case starts =>
    intro hst hpwr hfresh hwait htokens
    obtain ⟨hstate, _, _, hcant, hrest⟩ := cantWriteCtl_starts h hst (hpwrKept 1 hpwr) hrunOne htokens hwait
    rw [startedCore, if_pos hfresh] at hcant
    refine ⟨_, hwrite _, hstate, ?_, ?_, ?_, ?_, hrest⟩ <;> rw [hcant]
  case resumes =>
    intro hst hpwr hfresh hwait htokens
    obtain ⟨hstate, _, _, hcant, hrest⟩ := cantWriteCtl_starts h hst (hpwrKept 1 hpwr) hrunOne htokens hwait
    rw [startedCore, if_neg (by simp [hfresh])] at hcant
    exact ⟨_, hwrite _, hstate, hcant, hrest⟩
  case refused =>
    intro hst hpwr htokens
    obtain ⟨hflag, hwrites⟩ := tokenRefused_spec h
    obtain ⟨hrest, hcant⟩ := cantBesides_of_writes hwrites
    have hact := cantWriteCtl_refused hst (hpwrKept 1 hpwr) hrunOne htokens
    exact ⟨_, (hwrite _).trans (congrArg Host.Outcome.next hact), hflag, (hwrites.kept _ (by decide)).trans hst, hcant, hrest⟩
  case stops =>
    intro hst hpwr
    obtain ⟨hstate, _, hrun, hcant, hrest⟩ := cantWriteCtl_stopped h hst (hpwrKept 0 hpwr) hrunZero
    exact ⟨_, hwrite _, hstate, by simp [State.on, hrun, hrunZero], hcant, hrest⟩
  case powerOff =>
    intro hst hrun hbuf hcache
    obtain ⟨hstate, hpwr, _, hcant, hrest⟩ := cantWriteCtl_off h hst hpwrZero (hrunKept 0 hrun) hbuf hcache
    exact ⟨_, hwrite _, hstate, by simp [State.on, hpwr, hpwrZero], hcant, hrest⟩
  case done =>
    intro hst hrun hshed hlen
    have hact := (ccBus_done (Or.inl hshed)).trans (cantDone_runs hst hrun)
    exact ⟨_, congrArg Host.Outcome.next hact, State.fld_setFld _ _ _ (by decide), fun n hn => answeredCore_result hlen hn,
      fun n _ hn => answeredCore_kept s hn, rfl, rfl, rfl, rfl, rfl⟩
  case idle =>
    intro hst
    have hne : s.fld fCANTSTAT_STATE ≠ 5 := by
      rw [show s.fld fCANTSTAT_STATE = 3 from hst]
      decide
    exact congrArg Host.Outcome.next ((ccBus_done (Or.inr hne)).trans (cantDone_idle hne))

end Sys2Proof.Proofs
end

section
/-! PROOF. What power-on reset leaves: O59 (R258, R281, R400). -/

namespace Sys2Proof.Proofs

open Sys2Proof Sys2Proof.Machine

/-- Every source of Decani's controller is at the lowest level after power-on reset (R281). -/
theorem reset_intpri (k : Nat) (h : k < 32) : rget State.reset.dec.priv (rINTPRI k) = 0xFFFFFFFF := by
  revert k
  decide +kernel

/-- Settles O59, group by group of the statement. -/
theorem resetValues : Obligations.ResetValues := by
  unfold Obligations.ResetValues
  refine ⟨?decani, reset_intpri, ?controller, ?resets, ?clocks, ?sacristy, ?cantoris, ?power, rfl, rfl⟩
  case decani => decide
  case controller => decide +kernel
  case resets => decide +kernel
  case clocks => decide +kernel
  case sacristy => decide +kernel
  case cantoris => decide +kernel
  case power => decide +kernel

end Sys2Proof.Proofs
end

section
/-! PROOF. Instructions that change their own core and go on in sequence, and the arithmetic of Tables 13.4 and 13.5: O1, O3
(R285, R291, R293). -/

namespace Sys2Proof.Proofs

open Sys2Proof Sys2Proof.Machine

/-! ### Instructions that go on in sequence -/

/-- The core an instruction finds. -/
abbrev found (s : State) (i : Issue) : Core := (s.issued i).core i.core

/-- What a change of a core leaves of its hardware loops: all that decides where it goes on (R295). -/
def SameLoops (k q : Core) : Prop := q.lpend = k.lpend ∧ q.dla = k.dla ∧ q.dle = k.dle

theorem found_lpend {s : State} {i : Issue} (h : s.issues i = true) : (found s i).lpend = [] := by
  rw [found, State.core_issued]
  exact State.issues_lpend h

theorem found_straight {s : State} {i : Issue} (h : s.issuesOn i = true) {n : Nat} (hn : n < 3) :
    ((found s i).dla.testBit n && (found s i).dle.getD n 0 = (found s i).pc + issueLen i) = false := by
  rw [found, State.core_issued]
  exact Core.straight_at (State.issuesOn_straight h) n hn

/-- An instruction that changes its own core and goes on in sequence. -/
theorem exec_retires {s : State} {i : Issue} {ins : Instr} (h : s.issuesOn i = true) {cycles : Core → Nat} {n : Nat}
    {body : Core → Core × After} {f : Core → Core} (hexec : exec ins s = .next (s.instrCore i cycles body))
    (hcycles : cycles (found s i) = n) (hbody : body (found s i) = (f (found s i), .seq)) (hloops : ∀ k, SameLoops k (f k)) :
    exec ins s = .next (s.retired i n f) := by
  rw [hexec, ← hcycles, State.instrCore_issuesOn h cycles body f (fun k hk => by rw [hk]; exact hbody) hloops]

/-- An instruction that goes on in sequence where no loop write waits and no loop ends there. -/
theorem instr_goesOn {s u : State} {i : Issue} (h : s.issues i = true) (cycles : Core → Nat) {body : State → State × After}
    (hbody : body (s.issued i) = (u, .seq)) (hlpend : (u.core i.core).lpend = [])
    (hends : ∀ n, n < 3 → ((u.core i.core).dla.testBit n && (u.core i.core).dle.getD n 0 = (found s i).pc + issueLen i) = false) :
    s.instr i cycles body = u.setCore i.core
      { u.core i.core with cyc := (u.core i.core).cyc + cycles (found s i), pc := (found s i).pc + issueLen i } := by
  rw [State.instr_issues h]
  simp only [hbody, State.finish]
  rw [State.retire_straight]
  · simp only [State.core_setCore, State.setCore_setCore]
  · rwa [State.core_setCore]
  · simpa only [State.core_setCore] using hends

/-- An instruction that leaves the part as `t` has it and its own core as `f` makes it of the core it finds, its loops alone. -/
theorem instr_retiresIn {s t : State} {i : Issue} (h : s.issuesOn i = true) (hcore : t.core i.core = s.core i.core) (cycles : Core → Nat)
    {body : State → State × After} {f : Core → Core}
    (hbody : body (s.issued i) = (t.setCore i.core (f (found s i)), .seq)) (hloops : SameLoops (found s i) (f (found s i))) :
    s.instr i cycles body = t.retired i (cycles (found s i)) f := by
  obtain ⟨hlpend, hdla, hdle⟩ := hloops
  have hissues := State.issuesOn_issues h
  have hfound : found t i = found s i := by rw [found, found, State.core_issued, State.core_issued, hcore]
  rw [instr_goesOn hissues cycles hbody]
  · rw [State.core_setCore, State.setCore_setCore, ← hfound]
    rfl
  · rw [State.core_setCore, hlpend, found_lpend hissues]
  · intro n hn
    rw [State.core_setCore, hdla, hdle]
    exact found_straight h hn

theorem instr_retires {s : State} {i : Issue} (h : s.issuesOn i = true) (cycles : Core → Nat) {body : State → State × After}
    {f : Core → Core} (hbody : body (s.issued i) = ((s.issued i).setCore i.core (f (found s i)), .seq))
    (hloops : SameLoops (found s i) (f (found s i))) : s.instr i cycles body = s.retired i (cycles (found s i)) f :=
  instr_retiresIn h rfl cycles (hbody.trans (by rw [State.issued_setCore])) hloops

/-- An instruction whose whole effect is the value of one general register. -/
theorem exec_writes {s : State} {i : Issue} {ins : Instr} (h : s.issuesOn i = true) {wd : Reg} {v v' : Core → Word}
    (hexec : exec ins s = .next (s.instrReg i wd v)) (hv : v (found s i) = v' (found s i)) :
    exec ins s = .next (s.retired i 1 (fun k => k.setW wd (v' k))) :=
  exec_retires h hexec rfl (by rw [hv]) fun k => Core.setW_loops k wd (v' k)

/-! ### Words -/

theorem toNat_low5 (w : Word) : w.toNat % 32 = (w.extractLsb' 0 5).toNat := by simp

theorem boolWord_slt (a b : Word) : boolWord (a.slt b) = if a.toInt < b.toInt then 1 else 0 := by
  simp [boolWord, BitVec.slt_iff_toInt_lt]

theorem boolWord_ult (a b : Word) : boolWord (a.ult b) = if a.toNat < b.toNat then 1 else 0 := by
  simp [boolWord, BitVec.ult]

theorem min_signed (a b : Word) : (if a.slt b then a else b) = BitVec.ofInt 32 (min a.toInt b.toInt) := by
  rw [min_def_lt, apply_ite (BitVec.ofInt 32)]
  simp only [BitVec.slt_iff_toInt_lt, BitVec.ofInt_toInt]

theorem max_signed (a b : Word) : (if a.slt b then b else a) = BitVec.ofInt 32 (max a.toInt b.toInt) := by
  rw [max_def_lt, apply_ite (BitVec.ofInt 32)]
  simp only [BitVec.slt_iff_toInt_lt, BitVec.ofInt_toInt]

theorem min_unsigned (a b : Word) : (if a.ult b then a else b) = BitVec.ofNat 32 (min a.toNat b.toNat) := by
  rw [min_def_lt, apply_ite (BitVec.ofNat 32)]
  simp only [BitVec.ult, decide_eq_true_eq, BitVec.ofNat_toNat, BitVec.setWidth_eq]

theorem max_unsigned (a b : Word) : (if a.ult b then b else a) = BitVec.ofNat 32 (max a.toNat b.toNat) := by
  rw [max_def_lt, apply_ite (BitVec.ofNat 32)]
  simp only [BitVec.ult, decide_eq_true_eq, BitVec.ofNat_toNat, BitVec.setWidth_eq]

/-- An immediate shifted into the high bits. -/
theorem shifted_imm21 (v : BitVec 21) : v.setWidth 32 <<< 11 = v ++ (0 : BitVec 11) := by
  apply BitVec.eq_of_getLsbD_eq
  intro j hj
  simp only [BitVec.getLsbD_shiftLeft, BitVec.getLsbD_setWidth, BitVec.getLsbD_append]
  by_cases hlow : j < 11
  · simp [hlow]
  · simp [hlow, hj, show j - 11 < 32 by omega]

theorem toNat_append_add {m n : Nat} (x : BitVec m) (y : BitVec n) : (x ++ y).toNat = x.toNat * 2 ^ n + y.toNat := by
  rw [BitVec.toNat_append, ← Nat.shiftLeft_add_eq_or_of_lt y.isLt, Nat.shiftLeft_eq]

theorem revBytes_eq (w : Word) :
    revBytes w = w.extractLsb' 0 8 ++ w.extractLsb' 8 8 ++ w.extractLsb' 16 8 ++ w.extractLsb' 24 8 := by
  apply BitVec.eq_of_toNat_eq
  simp only [revBytes, leBytes, List.reverse_cons, List.reverse_nil, List.nil_append, List.cons_append, leNat, toNat_append_add,
    BitVec.toNat_ofNat, BitVec.extractLsb'_toNat, Nat.shiftRight_eq_div_pow, Nat.div_div_eq_div_mul, Nat.reducePow, Nat.reduceMul]
  omega

/-- The leading zeros of a word end at its highest 1. -/
theorem clz_eq {w : Word} {n : Nat} (hn : n < 32) (hone : w.getLsbD (31 - n) = true) (hzero : ∀ m < n, w.getLsbD (31 - m) = false) :
    clz w = n := by
  have hfind : (List.range 32).find? (fun i => w.getLsbD (31 - i)) = some n := by
    rw [List.find?_range_eq_some]
    exact ⟨hone, List.mem_range.mpr hn, fun m hm => by rw [hzero m hm]; rfl⟩
  rw [clz, hfind, Option.getD_some]

theorem clz_zero : clz 0 = 32 := by decide

/-! ### Saturation -/

/-- A register written with a signed value held to 32 bits, SAT set where that changed it (R293). -/
def saturated (wd : Reg) (k : Core) (x : Int) : Core :=
  if x < -2147483648 then { k.setW wd 0x80000000 with psr := (k.setW wd 0x80000000).psr ||| 0x100 }
  else if 2147483647 < x then { k.setW wd 0x7FFFFFFF with psr := (k.setW wd 0x7FFFFFFF).psr ||| 0x100 }
  else k.setW wd (BitVec.ofInt 32 x)

theorem sat32_low {x : Int} (h : x < -2147483648) : sat32 x = (0x80000000, true) := by
  have hne : x ≠ -2147483648 := by omega
  simp [sat32, clampInt, h, hne.symm]

theorem sat32_high {x : Int} (h : 2147483647 < x) : sat32 x = (0x7FFFFFFF, true) := by
  have hlow : ¬ x < -2147483648 := by omega
  have hne : x ≠ 2147483647 := by omega
  simp [sat32, clampInt, h, hlow, hne.symm]

theorem sat32_exact {x : Int} (hlow : ¬ x < -2147483648) (hhigh : ¬ 2147483647 < x) : sat32 x = (BitVec.ofInt 32 x, false) := by
  simp [sat32, clampInt, hlow, hhigh]

theorem sat_sat32 (wd : Reg) (k : Core) (x : Int) : (k.setW wd (sat32 x).1).sat (sat32 x).2 = saturated wd k x := by
  unfold saturated
  split
  case isTrue hlow => rw [sat32_low hlow]; rfl
  case isFalse hlow =>
    split
    case isTrue hhigh => rw [sat32_high hhigh]; rfl
    case isFalse hhigh => rw [sat32_exact hlow hhigh]; rfl

theorem saturated_loops (wd : Reg) (k : Core) (x : Int) : SameLoops k (saturated wd k x) := by
  unfold saturated
  split
  · exact Core.setW_loops k wd _
  · split <;> exact Core.setW_loops k wd _

theorem exec_saturates {s : State} {i : Issue} {ins : Instr} (h : s.issuesOn i = true) {wd : Reg} {x x' : Core → Int}
    (hexec : exec ins s = .next (s.instrCore i (fun _ => 1) (fun k => ((k.setW wd (sat32 (x k)).1).sat (sat32 (x k)).2, .seq))))
    (hx : x (found s i) = x' (found s i)) : exec ins s = .next (s.retired i 1 (fun k => saturated wd k (x' k))) :=
  exec_retires h hexec rfl (by rw [sat_sat32, hx]) fun k => saturated_loops wd k (x' k)

/-- Settles O1: an instruction of one register from the word it computes, a saturating one from `sat_sat32`. -/
theorem arithmeticInstructions : Obligations.ArithmeticInstructions := by
  unfold Obligations.ArithmeticInstructions
  refine ⟨fun s i wd ws wt sh h => ⟨?add, ?sub, ?and, ?or, ?xor, ?sll, ?srl, ?sra, ?slli, ?srli, ?srai, ?rori, ?cmplt, ?cmpltu,
    ?min, ?max, ?minu, ?maxu, ?rev, ?clz, ?clzZero⟩, fun s i wd ws m v h => ⟨?addi, ?andi, ?ori, ?xori, ?cmplti, ?cmpltiu, ?ldhi, ?ldi, ?lapc⟩,
    fun s i wd ws wt n sh h => ⟨?adds, ?subs, ?abs, ?rdacc⟩⟩
  case sll | srl | sra => exact exec_writes h rfl (by rw [toNat_low5])
  case cmplt => exact exec_writes h rfl (boolWord_slt _ _)
  case cmpltu | cmpltiu => exact exec_writes h rfl (boolWord_ult _ _)
  case cmplti => exact exec_writes h rfl ((boolWord_slt _ _).trans (by rw [imm18, BitVec.toInt_signExtend_of_le (by decide)]))
  case min => exact exec_writes h rfl (min_signed _ _)
  case max => exact exec_writes h rfl (max_signed _ _)
  case minu => exact exec_writes h rfl (min_unsigned _ _)
  case maxu => exact exec_writes h rfl (max_unsigned _ _)
  case rev => exact exec_writes h rfl (revBytes_eq _)
  case clz => exact fun n _ hn hone hzero => exec_writes h rfl (congrArg (BitVec.ofNat 32) (clz_eq hn hone hzero))
  case clzZero => exact fun hzero => exec_writes h rfl (by rw [hzero, clz_zero]; rfl)
  case ldhi => exact exec_writes h rfl (shifted_imm21 v)
  case lapc => exact exec_writes h rfl (by rw [shifted_imm21])
  case adds | subs => exact exec_saturates h rfl rfl
  case abs => exact exec_saturates h rfl (Int.natCast_natAbs _)
  case rdacc => exact exec_saturates h rfl rfl
  all_goals exact exec_writes h rfl rfl

/-! ### O3 -/

theorem exec_divides {s : State} {i : Issue} {ins : Instr} (h : s.issuesOn i = true) {wd : Reg} {v v' : Core → Word}
    (hexec : exec ins s = .next (s.instrDiv i wd v)) (hv : v (found s i) = v' (found s i)) :
    exec ins s = .next (s.retired i 16 (fun k => k.setW wd (v' k))) :=
  exec_retires h hexec rfl (by rw [hv]) fun k => Core.setW_loops k wd (v' k)

/-- The most negative dividend over −1 overflows to itself. -/
theorem divS_eq (a b : Word) : divS a b =
    if b = 0 then 0xFFFFFFFF else if a = 0x80000000 ∧ b = 0xFFFFFFFF then 0x80000000 else a.sdiv b := by
  unfold divS
  split
  case isTrue => rfl
  case isFalse =>
    split
    case isTrue hover => rw [hover.1, hover.2]; decide
    case isFalse =>
      apply BitVec.eq_of_toInt_eq
      rw [BitVec.toInt_sdiv, BitVec.toInt_ofInt]

theorem divU_eq (a b : Word) : divU a b = if b = 0 then 0xFFFFFFFF else a / b := by
  unfold divU
  split
  case isTrue => rfl
  case isFalse => rw [← BitVec.toNat_udiv, BitVec.ofNat_toNat, BitVec.setWidth_eq]

theorem remS_eq (a b : Word) : remS a b =
    if b = 0 then a else if a = 0x80000000 ∧ b = 0xFFFFFFFF then 0 else a.srem b := by
  unfold remS
  split
  case isTrue => rfl
  case isFalse =>
    split
    case isTrue hover => rw [hover.1, hover.2]; decide
    case isFalse => rw [← BitVec.toInt_srem, BitVec.ofInt_toInt]

theorem remU_eq (a b : Word) : remU a b = if b = 0 then a else a % b := by
  unfold remU
  split
  case isTrue => rfl
  case isFalse => rw [← BitVec.toNat_umod, BitVec.ofNat_toNat, BitVec.setWidth_eq]

/-- Settles O3: each result is the table's on every operand (`divS_eq`, `divU_eq`, `remS_eq`, `remU_eq`). -/
theorem division : Obligations.Division := by
  unfold Obligations.Division
  exact fun s i wd ws wt h => ⟨exec_divides h rfl (divS_eq _ _), exec_divides h rfl (divU_eq _ _), exec_divides h rfl (remS_eq _ _),
    exec_divides h rfl (remU_eq _ _)⟩

end Sys2Proof.Proofs
end

section
/-! PROOF. MFS and MTS: O8 (R257, R292, R293, R304). -/

namespace Sys2Proof.Proofs

open Sys2Proof Sys2Proof.Machine

/-! ### Loop writes that wait -/

/-- One instruction later the loop writes that have more than one to wait wait one less, and none takes over (R297, R304). -/
def counted (k : Core) : Core := { k with lpend := k.lpend.map (fun p => { p with wait := p.wait - 1 }) }

theorem tickLoops_counted {k : Core} (h : ∀ p ∈ k.lpend, 1 < p.wait) : k.tickLoops = counted k := by
  have hwaits : ∀ p ∈ (counted k).lpend, p.wait ≠ 0 := by
    intro p hp
    obtain ⟨q, hq, rfl⟩ := List.mem_map.mp hp
    have := h q hq
    show q.wait - 1 ≠ 0
    omega
  have hnone : (counted k).lpend.filter (fun p => p.wait = 0) = [] := List.filter_eq_nil_iff.mpr (by simpa using hwaits)
  have hall : (counted k).lpend.filter (fun p => p.wait != 0) = (counted k).lpend := List.filter_eq_self.mpr (by simpa using hwaits)
  show ((counted k).lpend.filter (fun p => p.wait = 0)).foldl Core.applyPend
    { k with lpend := (counted k).lpend.filter (fun p => p.wait != 0) } = counted k
  rw [hnone, hall]
  rfl

/-- An instruction that changes its own core and leaves loop writes to wait goes on in sequence where no loop ended before it. -/
theorem instr_counts {s : State} {i : Issue} (h : s.issuesOn i = true) (cycles : Core → Nat) {body : State → State × After} {q : Core}
    (hbody : body (s.issued i) = ((s.issued i).setCore i.core q, .seq)) (hwaits : ∀ p ∈ q.lpend, 1 < p.wait)
    (hdla : q.dla = (found s i).dla) (hdle : q.dle = (found s i).dle) :
    s.instr i cycles body = s.setCore i.core
      { counted q with cyc := q.cyc + cycles (found s i), pc := (found s i).pc + issueLen i } := by
  have hback := Core.loopBack_straight (counted { q with cyc := q.cyc + cycles (found s i) }) ((found s i).pc + issueLen i) (by
    intro n hn
    show (q.dla.testBit n && q.dle.getD n 0 = _) = false
    rw [hdla, hdle]
    exact found_straight h hn)
  rw [State.instr_issues (State.issuesOn_issues h)]
  simp only [hbody, State.finish, State.retire, State.core_setCore, State.setCore_setCore, State.issued_setCore]
  rw [tickLoops_counted (by exact hwaits), hback]
  rfl

/-- The LA bits that MTS to PSR writes wait to govern (R297, R304). -/
theorem setPsr_waits {k : Core} (h : k.lpend = []) (v : Word) : ∀ p ∈ (k.setPsr v).lpend, 1 < p.wait := by
  simp [Core.setPsr, Core.pendLoop, List.range, List.range.loop, h]

section

variable {s : State} {i : Issue} {n : BitVec 8}

/-! ### Registers that may be reached -/

/-- MFS of a listed register that the running context may read. -/
theorem mfs_reads (h : s.issuesOn i = true) (wd : Reg) {v : Core → Word} (hlisted : sregListed n.toNat = true)
    (hmay : (sregSup n.toNat && !(found s i).sup) = false) (hvbases : n ≠ 0x31) (hv : (found s i).sreg i.core n.toNat = v (found s i)) :
    exec (.mfs i wd n) s = .next (s.retired i 1 (fun c => c.setW wd (v c))) := by
  refine congrArg Host.Outcome.next (instr_retires h (fun _ => 1) ?body (Core.setW_loops _ _ _))
  case body =>
    simp only [hlisted, hmay, hvbases, hv, Bool.not_true, Bool.false_eq_true, if_false, false_and]

/-- A register that every context reads. -/
theorem mfs_user (h : s.issuesOn i = true) (wd : Reg) {v : Core → Word} (hlisted : sregListed n.toNat = true)
    (hsup : sregSup n.toNat = false) (hv : (found s i).sreg i.core n.toNat = v (found s i)) :
    exec (.mfs i wd n) s = .next (s.retired i 1 (fun c => c.setW wd (v c))) :=
  mfs_reads h wd hlisted (by rw [hsup, Bool.false_and]) (by rintro rfl; exact absurd hsup (by decide)) hv

/-- MTS to a listed register that the running context may write, and that is none of its loops. -/
theorem mts_writes (h : s.issuesOn i = true) (ws : Reg) {f : Core → Core} (hlisted : sregListed n.toNat = true)
    (hmay : ((sregSup n.toNat || n = 0) && !(found s i).sup) = false) (hvbases : n ≠ 0x31)
    (hf : (found s i).setSreg n.toNat ((found s i).w ws) = f (found s i)) (hloops : SameLoops (found s i) (f (found s i))) :
    exec (.mts i n ws) s = .next (s.retired i 1 f) := by
  refine congrArg Host.Outcome.next (instr_retires h (fun _ => 1) ?body hloops)
  case body =>
    simp only [hlisted, hmay, hvbases, hf, Bool.not_true, Bool.false_eq_true, if_false, false_and]

/-- MTS to PSR by a supervisor (R293). -/
theorem mts_psr (h : s.issuesOn i = true) (hsup : (found s i).sup = true) (ws : Reg) : exec (.mts i 0x00 ws) s = .next
    (s.setCore i.core { counted ((found s i).setPsr ((found s i).w ws)) with
      cyc := (found s i).cyc + 1, pc := (found s i).pc + issueLen i }) := by
  have hvbases : ¬ ((0 : BitVec 8) = 0x31 ∧ (found s i).world = .nave) := fun h0 => absurd h0.1 (by decide)
  refine congrArg Host.Outcome.next (instr_counts h (fun _ => 1) (q := (found s i).setPsr ((found s i).w ws)) ?body
    (setPsr_waits (found_lpend (State.issuesOn_issues h)) _) rfl rfl)
  case body =>
    simp only [hsup, hvbases, show sregListed (0 : BitVec 8).toNat = true from rfl, Bool.not_true, Bool.and_false, Bool.false_eq_true,
      if_false]
    rfl

/-! ### Registers that may not be reached -/

theorem mfs_unlisted (h : s.issues i = true) (wd : Reg) (hlisted : sregListed n.toNat = false) :
    exec (.mfs i wd n) s = .next (s.trapped i 1 (s.trapIn i 0x01 0 none (some (wordRY wd 0 5 n.toNat)))) :=
  congrArg Host.Outcome.next (instr_traps h _ (by simp only [hlisted, Bool.not_false, if_true, emulate]))

theorem mts_unlisted (h : s.issues i = true) (ws : Reg) (hlisted : sregListed n.toNat = false) :
    exec (.mts i n ws) s = .next (s.trapped i 1 (s.trapIn i 0x01 0 none (some (wordRY 0 ws 6 n.toNat)))) :=
  congrArg Host.Outcome.next (instr_traps h _ (by simp only [hlisted, Bool.not_false, if_true, emulate]))

theorem mfs_priv (h : s.issues i = true) (wd : Reg) (hlisted : sregListed n.toNat = true)
    (hmay : (sregSup n.toNat && !(found s i).sup) = true) :
    exec (.mfs i wd n) s = .next (s.trapped i 1 (s.trapIn i 0x02 0 none (some (wordRY wd 0 5 n.toNat)))) :=
  congrArg Host.Outcome.next (instr_traps h _ (by
    simp only [hlisted, hmay, Bool.not_true, Bool.false_eq_true, if_false, if_true, privTrap]))

theorem mts_priv (h : s.issues i = true) (ws : Reg) (hlisted : sregListed n.toNat = true)
    (hmay : ((sregSup n.toNat || n = 0) && !(found s i).sup) = true) :
    exec (.mts i n ws) s = .next (s.trapped i 1 (s.trapIn i 0x02 0 none (some (wordRY 0 ws 6 n.toNat)))) :=
  congrArg Host.Outcome.next (instr_traps h _ (by
    simp only [hlisted, hmay, Bool.not_true, Bool.false_eq_true, if_false, if_true, privTrap]))

end

/-- Settles O8: a register that may be reached from `mfs_reads` and `mts_writes`, PSR from `mts_psr`, the others from their traps. -/
theorem specialRegisters : Obligations.SpecialRegisters := by
  unfold Obligations.SpecialRegisters
  intro s i wd ws hissues
  have h := State.issuesOn_issues hissues
  refine ⟨?psr, ?mlo, ?mhi, ?acc0, ?lc0, ?tcause, fun hsup => ⟨?mfsVbase, ?mtsVbase, ?mtsTrapaddr, ?mtsPsr⟩,
    fun hsup => ⟨?mfsPriv, ?mtsPriv⟩, ?mtsFlags, ⟨_, mfs_unlisted h wd rfl⟩, ⟨_, mts_unlisted h ws rfl⟩⟩
  case psr | mlo | mhi | acc0 | lc0 | tcause => exact mfs_user hissues wd rfl rfl rfl
  case mfsVbase => exact mfs_reads hissues wd rfl (by rw [found, hsup]; rfl) (by decide) rfl
  case mtsVbase => exact mts_writes hissues ws rfl (by rw [found, hsup]; rfl) (by decide) rfl ⟨rfl, rfl, rfl⟩
  case mtsTrapaddr => exact mts_writes hissues ws rfl (by rw [found, hsup]; rfl) (by decide) rfl ⟨rfl, rfl, rfl⟩
  case mtsPsr =>
    refine ⟨_, mts_psr hissues hsup ws, ?_⟩
    simp only [State.core_setCore, State.setCore_mem, State.setCore_regs, and_true]
    exact ⟨rfl, rfl, rfl⟩
  case mfsPriv => exact ⟨_, mfs_priv h wd rfl (by rw [found, hsup]; rfl)⟩
  case mtsPriv => exact ⟨_, mts_priv h ws rfl (by rw [found, hsup]; rfl)⟩
  case mtsFlags => exact mts_writes hissues ws rfl rfl (by decide) rfl ⟨rfl, rfl, rfl⟩

end Sys2Proof.Proofs
end

section
/-! PROOF. Multiplies and accumulates: O2 (R287, R288, R290). -/

namespace Sys2Proof.Proofs

open Sys2Proof Sys2Proof.Machine

/-! ### Signed readings -/

theorem signed_eq_toInt {n : Nat} (hn : 0 < n) (v : Nat) : signed n v = (BitVec.ofNat n v).toInt := by
  have hpow : 2 ^ n = 2 * 2 ^ (n - 1) := by rw [← Nat.pow_succ']; congr 1; omega
  rw [BitVec.toInt_eq_toNat_cond, BitVec.toNat_ofNat, signed]
  split <;> split <;> omega

theorem wrapInt_eq_toNat (n : Nat) (x : Int) : wrapInt n x = (BitVec.ofInt n x).toNat := (BitVec.toNat_ofInt x).symm

theorem signed16_low (w : Word) : signed 16 w.toNat = (w.extractLsb' 0 16).toInt := signed_eq_toInt (by decide) _

theorem signed16_high (w : Word) : signed 16 (w.toNat / 65536) = (w.extractLsb' 16 16).toInt := by
  rw [signed_eq_toInt (by decide), BitVec.extractLsb', Nat.shiftRight_eq_div_pow]

/-- An accumulator holds what lies in its range (R290). -/
theorem signed48_wrapInt (x : Int) : x = signed 48 (wrapInt 48 x) ↔ -(2 : Int) ^ 47 ≤ x ∧ x < 2 ^ 47 := by
  simp only [signed, wrapInt]
  omega

/-! ### What is on its way -/

/-- With nothing on its way a write is the only one. -/
theorem pushLand_nil {k : Core} (h : k.land = []) (l : Landing) : k.pushLand l = { k with land := [l] } := by
  simp [Core.pushLand, h]

/-- With nothing on its way the value written last is the accumulator (R288). -/
theorem accChain_landed {k : Core} (h : k.land = []) (n : Fin 2) : k.accChain n = k.accLanded n := by
  simp [Core.accChain, h]

theorem found_land {s : State} {i : Issue} (h : s.issues i = true) : (found s i).land = [] := by
  simp only [State.issues, Bool.and_eq_true, List.isEmpty_iff] at h
  obtain ⟨⟨⟨⟨⟨⟨⟨⟨⟨-, -⟩, hland⟩, -⟩, -⟩, -⟩, -⟩, -⟩, -⟩, -⟩ := h
  exact hland

/-- With nothing on its way a value of 48 bits goes to its accumulator alone. -/
theorem accLand_nil {k : Core} (h : k.land = []) (n : Fin 2) (v latency : Nat) :
    k.accLand n v latency = { k with land := [⟨accReg n, v % 2 ^ 48, k.cyc + latency⟩] } := pushLand_nil h _

theorem wrapInt_mod (n : Nat) (x : Int) : wrapInt n x % 2 ^ n = wrapInt n x := by
  rw [wrapInt_eq_toNat, BitVec.toNat_mod_cancel]

/-- An accumulator's new value on its way, AOV set where its 48 bits do not hold it (R290). -/
def accumulated (n : Fin 2) (x : Int) (c : Core) : Core :=
  { c with land := [⟨accReg n, wrapInt 48 x, c.cyc + 2⟩]
           psr := if -(2 : Int) ^ 47 ≤ x ∧ x < 2 ^ 47 then c.psr else c.psr ||| 0x200 }

theorem accumulate_eq {k : Core} (h : k.land = []) (n : Fin 2) {x y : Int} (hy : signed 48 (k.accLanded n) + x = y) :
    k.accumulate n x = accumulated n y k := by
  simp only [Core.accumulate, accChain_landed h, hy, accLand_nil h, wrapInt_mod, Core.aov, ne_eq, signed48_wrapInt, decide_eq_true_eq,
    accumulated]
  by_cases hin : -(2 : Int) ^ 47 ≤ y ∧ y < 2 ^ 47
  · rw [if_neg (not_not.mpr hin), if_pos hin]
  · rw [if_pos hin, if_neg hin]

/-- The two words of a product on their way (R287). -/
def multiplied (p : BitVec 64) (c : Core) : Core :=
  { c with land := [⟨.mlo, (p.extractLsb' 0 32).toNat, c.cyc + 3⟩, ⟨.mhi, (p.extractLsb' 32 32).toNat, c.cyc + 3⟩] }

theorem mulLand_eq {k : Core} (h : k.land = []) {v : Nat} {p : BitVec 64} (hp : BitVec.ofNat 64 v = p) : k.mulLand v = multiplied p k := by
  subst hp
  have hlow : v % 2 ^ 32 = ((BitVec.ofNat 64 v).extractLsb' 0 32).toNat := by simp
  have hhigh : v / 2 ^ 32 % 2 ^ 32 = ((BitVec.ofNat 64 v).extractLsb' 32 32).toNat := by
    simp only [BitVec.extractLsb'_toNat, BitVec.toNat_ofNat, Nat.shiftRight_eq_div_pow]
    omega
  rw [Core.mulLand, pushLand_nil h, hlow, hhigh, multiplied]
  simp [Core.pushLand]

/-- The signed product of two words, as 64 bits (R287). -/
theorem signedProduct (a b : Word) : BitVec.ofNat 64 (wrapInt 64 (a.toInt * b.toInt)) = a.signExtend 64 * b.signExtend 64 := by
  rw [wrapInt_eq_toNat, BitVec.ofNat_toNat, BitVec.setWidth_eq, BitVec.ofInt_mul]
  rfl

theorem unsignedProduct (a b : Word) : BitVec.ofNat 64 (a.toNat * b.toNat) = a.setWidth 64 * b.setWidth 64 := by
  rw [BitVec.ofNat_mul, BitVec.ofNat_toNat, BitVec.ofNat_toNat]

/-! ### The high half of an accumulator (Table 13.8) -/

theorem accHigh_read (acc : Nat) :
    BitVec.ofInt 32 (signed 16 (acc / 2 ^ 32)) = ((BitVec.ofNat 48 acc).extractLsb' 32 16).signExtend 32 := by
  have hbits : BitVec.ofNat 16 (acc / 2 ^ 32) = (BitVec.ofNat 48 acc).extractLsb' 32 16 := by
    apply BitVec.eq_of_toNat_eq
    simp only [BitVec.extractLsb'_toNat, BitVec.toNat_ofNat, Nat.shiftRight_eq_div_pow]
    omega
  rw [signed_eq_toInt (by decide), hbits]
  rfl

theorem accHigh_write (acc : Nat) (v : Word) : (acc % 2 ^ 32 + v.toNat % 2 ^ 16 * 2 ^ 32) % 2 ^ 48 =
    (v.extractLsb' 0 16 ++ (BitVec.ofNat 48 acc).extractLsb' 0 32).toNat := by
  simp only [toNat_append_add, BitVec.extractLsb'_toNat, BitVec.toNat_ofNat, Nat.shiftRight_eq_div_pow]
  omega

section

variable {s : State} {i : Issue} {ins : Instr} (h : s.issuesOn i = true)
include h

theorem exec_accumulates (n : Fin 2) {v : Core → Int} {x : Int}
    (hexec : exec ins s = .next (s.instrCore i (fun _ => 1) (fun k => (k.accumulate n (v k), .seq))))
    (hx : signed 48 ((found s i).accLanded n) + v (found s i) = x) : exec ins s = .next (s.retired i 1 (accumulated n x)) :=
  exec_retires h hexec rfl (by rw [accumulate_eq (found_land (State.issuesOn_issues h)) n hx]) fun _ => ⟨rfl, rfl, rfl⟩

theorem exec_loadsAcc (n : Fin 2) {v : Core → Nat} {x : Nat}
    (hexec : exec ins s = .next (s.instrCore i (fun _ => 1) (fun k => (k.accLand n (v k) 2, .seq)))) (hx : v (found s i) % 2 ^ 48 = x) :
    exec ins s = .next (s.retired i 1 (fun c => { c with land := [⟨accReg n, x, c.cyc + 2⟩] })) :=
  exec_retires h hexec rfl (by rw [accLand_nil (found_land (State.issuesOn_issues h)), hx]) fun _ => ⟨rfl, rfl, rfl⟩

theorem exec_multiplies {v : Core → Nat} {p : BitVec 64}
    (hexec : exec ins s = .next (s.instrCore i (fun _ => 1) (fun k => (k.mulLand (v k), .seq))))
    (hp : BitVec.ofNat 64 (v (found s i)) = p) : exec ins s = .next (s.retired i 1 (multiplied p)) :=
  exec_retires h hexec rfl (by rw [mulLand_eq (found_land (State.issuesOn_issues h)) hp]) fun _ => ⟨rfl, rfl, rfl⟩

end

theorem mulLow_eq (a b : Word) : mulLow a b = (a.extractLsb' 0 16).toInt * (b.extractLsb' 0 16).toInt := by
  rw [mulLow, signed16_low, signed16_low]

theorem mulHigh_eq (a b : Word) : mulHigh a b = (a.extractLsb' 16 16).toInt * (b.extractLsb' 16 16).toInt := by
  rw [mulHigh, signed16_high, signed16_high]

/-- Settles O2: with nothing in flight an accumulate works on its accumulator (`accumulate_eq`), a product goes to MLO and MHI
(`mulLand_eq`), and MFS and MTS reach the high half (`accHigh_read`, `accHigh_write`). -/
theorem multiplyAndAccumulate : Obligations.MultiplyAndAccumulate := by
  unfold Obligations.MultiplyAndAccumulate
  intro s i n wd ws wt hissues
  have hland := found_land (State.issuesOn_issues hissues)
  refine ⟨?macs, ?macd, ?msubs, ?msubd, ?accclr, ?wracc, ?mfs, ?mts, ?mul, ?mulu⟩
  case macs => exact exec_accumulates hissues n rfl (by rw [mulLow_eq]; rfl)
  case macd => exact exec_accumulates hissues n rfl (by rw [mulLow_eq, mulHigh_eq]; rfl)
  case msubs => exact exec_accumulates hissues n rfl (by rw [mulLow_eq]; rfl)
  case msubd => exact exec_accumulates hissues n rfl (by rw [mulLow_eq, mulHigh_eq]; rfl)
  case accclr => exact exec_loadsAcc hissues n rfl rfl
  case wracc => exact exec_loadsAcc hissues n rfl (wrapInt_mod 48 _)
  case mul => exact exec_multiplies hissues rfl (signedProduct _ _)
  case mulu => exact exec_multiplies hissues rfl (unsignedProduct _ _)
  case mfs =>
    obtain rfl | rfl : n = 0 ∨ n = 1 := by omega
    · exact mfs_user hissues wd rfl rfl (accHigh_read _)
    · exact mfs_user hissues wd rfl rfl (accHigh_read _)
  case mts =>
    have hset (n : Fin 2) (v : Word) : (found s i).accLand n ((found s i).accChain n % 2 ^ 32 + v.toNat % 2 ^ 16 * 2 ^ 32) 1 =
        { found s i with land := [⟨accReg n,
          (v.extractLsb' 0 16 ++ (BitVec.ofNat 48 ((found s i).accLanded n)).extractLsb' 0 32).toNat, (found s i).cyc + 1⟩] } := by
      rw [accLand_nil hland, accChain_landed hland, accHigh_write]
    obtain rfl | rfl : n = 0 ∨ n = 1 := by omega
    · exact mts_writes hissues ws rfl rfl (by decide) (hset 0 _) ⟨rfl, rfl, rfl⟩
    · exact mts_writes hissues ws rfl rfl (by decide) (hset 1 _) ⟨rfl, rfl, rfl⟩

end Sys2Proof.Proofs
end

section
/-! PROOF. Branches, calls and jumps: O5 (R282, R284, Table 13.7). -/

namespace Sys2Proof.Proofs

open Sys2Proof Sys2Proof.Machine

section

variable {s : State} {i : Issue} {ins : Instr}

/-- A jump that changes its own core and none of its loops. -/
theorem exec_jumps (h : s.issues i = true) {cycles : Core → Nat} {n : Nat} {body : Core → Core × After} {f : Core → Core}
    {t : Word} (hexec : exec ins s = .next (s.instrCore i cycles body)) (hcycles : cycles (found s i) = n)
    (hbody : body (found s i) = (f (found s i), .jump t))
    (hloops : SameLoops (found s i) (f (found s i))) : exec ins s = .next (s.jumped i n t f) := by
  rw [hexec, ← hcycles, State.instrCore_jump h cycles body f t hbody (hloops.1.trans (found_lpend h))]

/-- A conditional branch where its condition holds and where it does not (Table 13.7). -/
theorem exec_branches (h : s.issuesOn i = true) {off : BitVec 15} {cond : Core → Bool} {c : Prop} [Decidable c]
    (hexec : exec ins s = .next (s.instrBranch i off cond)) (hcond : cond (found s i) = decide c) : exec ins s =
      .next (if c then s.jumped i 3 ((found s i).pc + (off.signExtend 32 <<< 1)) id else s.retired i 1 id) := by
  by_cases hc : c
  case pos =>
    have htaken : cond (found s i) = true := by rw [hcond, decide_eq_true hc]
    rw [if_pos hc]
    exact exec_jumps (State.issuesOn_issues h) hexec (if_pos htaken) (by rw [htaken]; rfl) ⟨rfl, rfl, rfl⟩
  case neg =>
    have hpassed : cond (found s i) = false := by rw [hcond, decide_eq_false hc]
    rw [if_neg hc]
    exact exec_retires h hexec (if_neg (ne_true_of_eq_false hpassed)) (by rw [hpassed]; rfl) fun _ => ⟨rfl, rfl, rfl⟩

/-- An instruction of its own core that traps. -/
theorem exec_traps (h : s.issues i = true) {n : Nat} {body : Core → Core × After} {code info : Nat} {addr inst : Option Word}
    (hexec : exec ins s = .next (s.instrCore i (fun _ => n) body)) (hbody : body (found s i) = (found s i, .trap code info addr inst)) :
    exec ins s = .next (s.trapped i n (s.trapIn i code info addr inst)) := by
  rw [hexec, State.instrCore, instr_traps h]
  simp only [hbody, State.setCore_core]

end

theorem bne_eq_decide (a b : Word) : (a != b) = decide (a ≠ b) := by
  rw [decide_not, ← beq_eq_decide, bne]

theorem not_slt (a b : Word) : (!a.slt b) = decide (b.toInt ≤ a.toInt) := by
  rw [BitVec.slt, ← decide_not, decide_eq_decide, not_lt]

theorem not_ult (a b : Word) : (!a.ult b) = decide (b.toNat ≤ a.toNat) := by
  rw [BitVec.ult, ← decide_not, decide_eq_decide, not_lt]

theorem regJump_even {t : Word} (h : t.getLsbD 0 = false) : regJump t = .jump t := by
  rw [regJump, h]
  rfl

theorem regJump_odd {t : Word} (h : t.getLsbD 0 = true) : regJump t = .trap 0x03 0 (some t) none := by
  rw [regJump, h]
  rfl

/-- Settles O5: a branch by its condition, a register jump by the parity of its target. -/
theorem branchesCallsAndJumps : Obligations.BranchesCallsAndJumps := by
  unfold Obligations.BranchesCallsAndJumps
  refine ⟨fun s i ws wt off h => ⟨?beq, ?bne, ?blt, ?bge, ?bltu, ?bgeu, ?beqz, ?bnez⟩,
    fun s i wd ws off m hissues => ?jumps⟩
  case beq | beqz => exact exec_branches h rfl rfl
  case bne | bnez => exact exec_branches h rfl (bne_eq_decide _ _)
  case blt | bltu => exact exec_branches h rfl rfl
  case bge => exact exec_branches h rfl (not_slt _ _)
  case bgeu => exact exec_branches h rfl (not_ult _ _)
  case jumps =>
    have h := State.issuesOn_issues hissues
    refine ⟨exec_jumps h rfl rfl rfl (Core.setW_loops _ _ _), exec_jumps h rfl rfl rfl ⟨rfl, rfl, rfl⟩, fun heven => ⟨?callr, ?jmpr⟩,
      fun hodd => ⟨?callrOdd, ?jmprOdd⟩⟩
    case callr => exact exec_jumps h rfl rfl (by simp only [found, regJump_even heven, heven]; rfl) (Core.setW_loops _ _ _)
    case jmpr => exact exec_jumps h rfl rfl (by rw [regJump_even heven]; rfl) ⟨rfl, rfl, rfl⟩
    case callrOdd => exact exec_traps h rfl (by simp only [found, regJump_odd hodd, hodd, if_true])
    case jmprOdd => exact exec_traps h rfl (by rw [regJump_odd hodd])

end Sys2Proof.Proofs
end

section
/-! PROOF. Hardware loops: O6 (R294, R295). -/

namespace Sys2Proof.Proofs

open Sys2Proof Sys2Proof.Machine

/-! ### One bit of a number -/

theorem testBit_around {n low : Nat} (high : Nat) (b : Bool) (hlow : low < 2 ^ n) (j : Nat) :
    (2 ^ n * (2 * high + b2n b) + low).testBit j = if j < n then low.testBit j else if j = n then b else high.testBit (j - n - 1) := by
  rw [Nat.testBit_two_pow_mul_add _ hlow]
  by_cases hlt : j < n
  · rw [if_pos hlt, if_pos hlt]
  · rw [if_neg hlt, if_neg hlt]
    by_cases heq : j = n
    · subst heq
      rw [if_pos rfl, Nat.sub_self, Nat.testBit_zero]
      cases b <;> simp [b2n]
    · rw [if_neg heq, show j - n = j - n - 1 + 1 by omega, Nat.testBit_succ]
      cases b <;> simp [b2n, Nat.mul_add_div]

theorem eq_around (v n : Nat) : v = 2 ^ n * (2 * (v / 2 ^ (n + 1)) + b2n (v.testBit n)) + v % 2 ^ n := by
  have hbit : b2n (v.testBit n) = v / 2 ^ n % 2 := by
    rw [Nat.testBit_eq_decide_div_mod_eq]
    rcases Nat.mod_two_eq_zero_or_one (v / 2 ^ n) with h | h <;> simp [h, b2n]
  rw [hbit, Nat.pow_succ, ← Nat.div_div_eq_div_mul, Nat.div_add_mod, Nat.div_add_mod]

theorem bitTo_around {v n high low : Nat} (h : v = 2 ^ n * (2 * high + b2n (v.testBit n)) + low) (b : Bool) :
    bitTo v n b = 2 ^ n * (2 * high + b2n b) + low := by
  unfold bitTo
  generalize v.testBit n = old at h ⊢
  cases old <;> cases b <;> simp only [b2n, Nat.mul_add, if_true, if_false, Bool.false_eq_true, Nat.mul_one, Nat.mul_zero] at h ⊢ <;>
    omega

/-- A number with one bit replaced has that bit, and of the others what it had. -/
theorem testBit_bitTo (v n j : Nat) (b : Bool) : (bitTo v n b).testBit j = if j = n then b else v.testBit j := by
  have hlow : v % 2 ^ n < 2 ^ n := Nat.mod_lt _ (Nat.two_pow_pos n)
  have hv := eq_around v n
  have hold := testBit_around (v / 2 ^ (n + 1)) (v.testBit n) hlow j
  rw [← hv] at hold
  rw [bitTo_around hv, testBit_around _ _ hlow]
  by_cases heq : j = n
  · rw [if_neg (by omega), if_pos heq, if_pos heq]
  · rw [hold, if_neg heq, if_neg heq, if_neg heq]

/-! ### Where loops end -/

/-- A level of a core ends at an address: it is active and its LE is there (R295). -/
abbrev endsAt (k : Core) (n : Nat) (a : Word) : Bool := k.dla.testBit n && k.dle.getD n 0 = a

theorem loopLevels_skip {k : Core} {a : Word} (l r : List Nat) (h : ∀ n ∈ l, endsAt k n a = false) :
    Core.loopLevels (l ++ r) k a = Core.loopLevels r k a := by
  induction l with
  | nil => rfl
  | cons n l ih =>
    have hn := h n List.mem_cons_self
    rw [List.cons_append, Core.loopLevels, if_neg (ne_true_of_eq_false hn), ih fun j hj => h j (List.mem_cons_of_mem n hj)]

theorem loopLevels_none {k : Core} {a : Word} (l : List Nat) (h : ∀ n ∈ l, endsAt k n a = false) :
    Core.loopLevels l k a = (k, a, false) := by
  have hskip := loopLevels_skip l [] h
  rwa [List.append_nil] at hskip

/-- The three levels in order, the ones below a level first (R295). -/
theorem levels_split {n : Nat} (hn : n < 3) : ∃ r, [0, 1, 2] = List.range n ++ n :: r ∧ ∀ j ∈ r, n < j ∧ j < 3 := by
  obtain rfl | rfl | rfl : n = 0 ∨ n = 1 ∨ n = 2 := by omega
  · exact ⟨[1, 2], rfl, by decide⟩
  · exact ⟨[2], rfl, by decide⟩
  · exact ⟨[], rfl, by decide⟩

/-- A level's count where nothing waits to write it. -/
def recount (n : Nat) (c : Word) (k : Core) : Core := { k with dlc := k.dlc.set n c, lc := k.lc.set n c }

theorem countTo_eq {k : Core} (h : k.lpend = []) (n : Nat) (c : Word) : k.countTo n c = recount n c k := by
  simp [Core.countTo, Core.pends, h, recount]

/-- The last pass of a level (R295). -/
def ended (n : Nat) (k : Core) : Core :=
  { k with dlc := k.dlc.set n 0, lc := k.lc.set n 0
           dla := bitTo k.dla n false, psr := BitVec.ofNat 32 (bitTo k.psr.toNat (10 + n) false) }

theorem endLoop_eq {k : Core} (h : k.lpend = []) (n : Nat) : k.endLoop n = ended n k := by
  simp [Core.endLoop, countTo_eq h, recount, Core.pends, h, ended]

/-- Above 1 the count of the innermost level that ends goes down and its body starts again (R295). -/
theorem loopBack_again {k : Core} {a : Word} {n : Nat} (hn : n < 3) (hlpend : k.lpend = []) (hends : endsAt k n a = true)
    (hlower : ∀ j < n, endsAt k j a = false) {c : Word} (hc : k.dlc.getD n 0 = c) (hcount : 1 < c.toNat) :
    k.loopBack a = (recount n (c - 1) k, k.dls.getD n 0, true) := by
  subst hc
  obtain ⟨r, hlevels, -⟩ := levels_split hn
  rw [Core.loopBack, hlevels, loopLevels_skip _ _ fun j hj => hlower j (List.mem_range.mp hj), Core.loopLevels, if_pos hends,
    if_pos hcount, countTo_eq hlpend]

/-- At its last pass the level ends, and with no level above ending there execution goes on (R295). -/
theorem loopBack_last {k : Core} {a : Word} {n : Nat} (hn : n < 3) (hlpend : k.lpend = []) (hends : endsAt k n a = true)
    (hlower : ∀ j < n, endsAt k j a = false) (hupper : ∀ j < 3, n < j → endsAt k j a = false)
    (hcount : (k.dlc.getD n 0).toNat ≤ 1) : k.loopBack a = (ended n k, a, true) := by
  obtain ⟨r, hlevels, hr⟩ := levels_split hn
  have hnone : Core.loopLevels r (ended n k) a = (ended n k, a, false) := loopLevels_none r fun j hj => by
    obtain ⟨hlt, hlt'⟩ := hr j hj
    rw [← hupper j hlt' hlt, endsAt, ended, testBit_bitTo, if_neg (by omega)]
  rw [Core.loopBack, hlevels, loopLevels_skip _ _ fun j hj => hlower j (List.mem_range.mp hj), Core.loopLevels, if_pos hends,
    if_neg (by omega), endLoop_eq hlpend, hnone]

/-! ### Retirement where loops decide -/

/-- The cycles an instruction takes. -/
def spent (n : Nat) (k : Core) : Core := { k with cyc := k.cyc + n }

/-- Retirement goes on where the loops send it. -/
theorem retire_back {s : State} {c : CoreId} {i : Issue} {old t : Word} {q : Core} {back : Bool} (hlpend : (s.core c).lpend = [])
    (hback : (s.core c).loopBack (old + issueLen i) = (q, t, back)) : s.retire c i old none false = s.setCore c { q with pc := t } := by
  simp only [State.retire, Core.tickLoops_nil _ hlpend, hback]

/-- Where no loop ends, an instruction that skips goes on at its target. -/
theorem retire_skips {s : State} {c : CoreId} {i : Issue} {old t : Word} (hlpend : (s.core c).lpend = [])
    (hends : ∀ j < 3, endsAt (s.core c) j (old + issueLen i) = false) :
    s.retire c i old (some t) true = s.setCore c { s.core c with pc := t } := by
  simp only [State.retire, Core.tickLoops_nil _ hlpend, Core.loopBack_straight _ _ hends, Bool.false_eq_true, if_false]

section

variable {s : State} {i : Issue} {ins : Instr} {n : Nat} {body : Core → Core × After} {f g : Core → Core} {t : Word}

/-- An instruction of its own core takes its cycles and ends. -/
theorem exec_finishes {a : After} (h : s.issues i = true) (hexec : exec ins s = .next (s.instrCore i (fun _ => n) body))
    (hbody : body (found s i) = (f (found s i), a)) :
    exec ins s = .next ((s.setCore i.core (spent n (f (found s i)))).finish i.core i (found s i).pc a) := by
  rw [hexec, State.instrCore, State.instr_issues h]
  simp only [hbody, State.core_setCore, State.setCore_setCore, State.issued_setCore]
  rfl

/-- An instruction of its own core that goes where the loops send it. -/
theorem exec_loopsBack {back : Bool} (h : s.issues i = true) (hexec : exec ins s = .next (s.instrCore i (fun _ => n) body))
    (hbody : body (found s i) = (f (found s i), .seq)) (hlpend : (f (found s i)).lpend = [])
    (hback : (spent n (f (found s i))).loopBack ((found s i).pc + issueLen i) = (spent n (g (found s i)), t, back)) :
    exec ins s = .next (s.jumped i n t g) := by
  rw [exec_finishes h hexec hbody, State.finish,
    retire_back (q := spent n (g (found s i))) (t := t) (back := back) (by rwa [State.core_setCore]) (by rwa [State.core_setCore]),
    State.setCore_setCore]
  rfl

/-- One that goes on behind the loop it does not run. -/
theorem exec_skips (h : s.issues i = true) (hexec : exec ins s = .next (s.instrCore i (fun _ => n) body))
    (hbody : body (found s i) = (f (found s i), .skip t)) (hlpend : (f (found s i)).lpend = [])
    (hends : ∀ j < 3, endsAt (f (found s i)) j ((found s i).pc + issueLen i) = false) : exec ins s = .next (s.jumped i n t f) := by
  rw [exec_finishes h hexec hbody, State.finish, retire_skips (by rwa [State.core_setCore]) (by rwa [State.core_setCore]),
    State.core_setCore, State.setCore_setCore]
  rfl

/-- An instruction that writes loops and goes on in sequence, where none ends. -/
theorem exec_goesOn (h : s.issues i = true) (hexec : exec ins s = .next (s.instrCore i (fun _ => n) body))
    (hbody : body (found s i) = (f (found s i), .seq)) (hlpend : (f (found s i)).lpend = [])
    (hends : ∀ j < 3, endsAt (f (found s i)) j ((found s i).pc + issueLen i) = false) : exec ins s = .next (s.retired i n f) :=
  exec_loopsBack h hexec hbody hlpend (Core.loopBack_straight _ _ hends)

end

/-! ### Loops set up and cleared -/

/-- A level with its registers written and on or off. -/
def levelSet (n : Nat) (ls le lc : Word) (on : Bool) (k : Core) : Core :=
  { k with ls := k.ls.set n ls, le := k.le.set n le, lc := k.lc.set n lc
           dls := k.dls.set n ls, dle := k.dle.set n le, dlc := k.dlc.set n lc
           dla := bitTo k.dla n on, psr := BitVec.ofNat 32 (bitTo k.psr.toNat (10 + n) on) }

theorem setLoop_eq {k : Core} (h : k.lpend = []) (n : Nat) (ls le lc : Word) (on : Bool) :
    k.setLoop n ls le lc on = levelSet n ls le lc on k := by
  simp [Core.setLoop, levelSet, h]

/-- A level that is off, or ends elsewhere, adds no end at an address. -/
theorem levelSet_endsAt {k : Core} {a : Word} {n : Nat} {ls le lc : Word} {on : Bool} (hk : ∀ j < 3, endsAt k j a = false)
    (hon : on = true → le ≠ a ∧ a ≠ 0) : ∀ j < 3, endsAt (levelSet n ls le lc on k) j a = false := by
  intro j hj
  rw [endsAt, levelSet, testBit_bitTo]
  by_cases heq : j = n
  case pos =>
    subst heq
    cases on
    case false => rw [if_pos rfl, Bool.false_and]
    case true =>
      obtain ⟨hle, hzero⟩ := hon rfl
      have hne : (k.dle.set j le).getD j 0 ≠ a := by
        rw [List.getD_eq_getElem?_getD, List.getElem?_set_self']
        cases k.dle[j]?
        · exact hzero.symm
        · exact hle
      rw [decide_eq_false hne, Bool.and_false]
  case neg =>
    rw [if_neg heq, List.getD_eq_getElem?_getD, List.getElem?_set_ne (Ne.symm heq), ← List.getD_eq_getElem?_getD]
    exact hk j hj

/-! ### LOOP, LOOPI and LCLR -/

/-- Instructions lie below 0x40000000 (Table 15.1). -/
theorem codeSpace_lt {a : Nat} (h : codeSpace a = true) : a < 0x40000000 := by
  by_contra hge
  unfold codeSpace region at h
  rw [if_neg (by omega), if_neg (by omega), if_neg (by omega), if_neg (by omega), if_neg (by omega), if_neg (by omega)] at h
  split_ifs at h

theorem found_pc_lt {s : State} {i : Issue} (h : s.issues i = true) : (found s i).pc.toNat < 0x40000000 := by
  simp only [State.issues, Bool.and_eq_true] at h
  exact codeSpace_lt h.2

/-- Where LOOP or LOOPI with END9 `e` ends its body. -/
def loopEnd (k : Core) (e : BitVec 9) : Word := k.pc + (e.setWidth 32 <<< 1)

theorem toNat_end9 (e : BitVec 9) : (e.setWidth 32 <<< 1).toNat = 2 * e.toNat := by
  simp only [BitVec.toNat_shiftLeft, BitVec.toNat_setWidth, Nat.shiftLeft_eq]
  omega

theorem loopSetup_eq {k : Core} (h : k.lpend = []) (n : Nat) (e : BitVec 9) (v : Word) : k.loopSetup n e.toNat v =
    (levelSet n (k.pc + 4) (loopEnd k e) v (v != 0) k, if v != 0 then .seq else .skip (loopEnd k e)) := by
  have hoffset : BitVec.ofNat 32 (2 * e.toNat) = e.setWidth 32 <<< 1 := by
    apply BitVec.eq_of_toNat_eq
    rw [toNat_end9, BitVec.toNat_ofNat, Nat.mod_eq_of_lt (by omega)]
  simp only [Core.loopSetup, hoffset, setLoop_eq h, loopEnd]

/-- LOOP and LOOPI set their level up, with a count of 0 off (R294). -/
theorem exec_setsUp {s : State} {i : Issue} {ins : Instr} {body : Core → Core × After} {n : Nat} {e : BitVec 9} {v : Word}
    (h : s.issuesOn i = true) (hfull : i.compact = false) (he : 3 ≤ e.toNat)
    (hexec : exec ins s = .next (s.instrCore i (fun _ => 2) body)) (hbody : body (found s i) = (found s i).loopSetup n e.toNat v) :
    exec ins s = .next (if v = 0 then s.jumped i 2 (loopEnd (found s i) e)
        (levelSet n ((found s i).pc + 4) (loopEnd (found s i) e) 0 false)
      else s.retired i 2 (levelSet n ((found s i).pc + 4) (loopEnd (found s i) e) v true)) := by
  have hissues := State.issuesOn_issues h
  have hlpend := found_lpend hissues
  have hpc := found_pc_lt hissues
  have hlen : issueLen i = 4 := by rw [issueLen, hfull]; rfl
  have hahead : loopEnd (found s i) e ≠ (found s i).pc + issueLen i := by
    rw [loopEnd, hlen]
    intro heq
    have hdist : 2 * e.toNat = 4 := by rw [← toNat_end9, add_left_cancel heq]; rfl
    omega
  have hzero : (found s i).pc + issueLen i ≠ 0 := by
    intro heq
    have hsum := congrArg BitVec.toNat heq
    rw [hlen, BitVec.toNat_add, show (4 : Word).toNat = 4 from rfl, Nat.mod_eq_of_lt (by omega)] at hsum
    exact absurd hsum (by simp)
  rw [loopSetup_eq hlpend] at hbody
  by_cases hv : v = 0
  · subst hv
    rw [if_pos rfl]
    exact exec_skips hissues hexec hbody hlpend (levelSet_endsAt (fun j hj => found_straight h hj) nofun)
  · rw [if_neg hv]
    rw [bne_iff_ne.mpr hv, if_pos rfl] at hbody
    exact exec_goesOn hissues hexec hbody hlpend (levelSet_endsAt (fun j hj => found_straight h hj) fun _ => ⟨hahead, hzero⟩)

/-- A level that LCLR's mask names goes off, its count 0 (Table 13.7). -/
def cleared (m : BitVec 8) (n : Nat) (k : Core) : Core :=
  if m.getLsbD n then levelSet n (k.ls.getD n 0) (k.le.getD n 0) 0 false k else k

theorem loopClear_eq {k : Core} (h : k.lpend = []) (m : BitVec 8) (n : Nat) :
    (if m.getLsbD n then k.loopClear n else k) = cleared m n k := by
  rw [Core.loopClear, setLoop_eq h, cleared]

theorem cleared_lpend (m : BitVec 8) (n : Nat) (k : Core) : (cleared m n k).lpend = k.lpend := by
  unfold cleared
  split <;> rfl

theorem cleared_endsAt {k : Core} {a : Word} (hk : ∀ j < 3, endsAt k j a = false) (m : BitVec 8) (n : Nat) :
    ∀ j < 3, endsAt (cleared m n k) j a = false := by
  unfold cleared
  split
  · exact levelSet_endsAt hk nofun
  · exact hk

theorem loopsClear_eq {k : Core} (h : k.lpend = []) (m : BitVec 8) :
    (List.range 3).foldl (fun q n => if m.getLsbD n then q.loopClear n else q) k = cleared m 2 (cleared m 1 (cleared m 0 k)) := by
  show (List.foldl (fun q n => if m.getLsbD n then q.loopClear n else q) k [0, 1, 2]) = _
  simp only [List.foldl_cons, List.foldl_nil, loopClear_eq, h, cleared_lpend]

/-- LCLR clears the levels of its mask (Table 13.7). -/
theorem lclr_clears {s : State} {i : Issue} (h : s.issuesOn i = true) {m : BitVec 8} (hm : m.toNat < 8) :
    exec (.lclr i m) s = .next (s.retired i 1 (fun k => cleared m 2 (cleared m 1 (cleared m 0 k)))) := by
  have hissues := State.issuesOn_issues h
  have hlpend := found_lpend hissues
  refine exec_goesOn hissues rfl ?body ?lpend ?ends
  case body => rw [if_neg (by omega), loopsClear_eq hlpend]
  case lpend => rw [cleared_lpend, cleared_lpend, cleared_lpend, hlpend]
  case ends => exact cleared_endsAt (cleared_endsAt (cleared_endsAt (fun j hj => found_straight h hj) m 0) m 1) m 2

/-! ### The end of a body -/

theorem endsAt_false {k : Core} {n : Nat} {a : Word} (h : ¬ (k.dla.testBit n = true ∧ k.dle.getD n 0 = a)) : endsAt k n a = false := by
  rw [Bool.eq_false_iff, endsAt, Ne, Bool.and_eq_true, decide_eq_true_eq]
  exact h

theorem endsAt_true {k : Core} {n : Nat} {a : Word} (hon : k.dla.testBit n = true) (hle : k.dle.getD n 0 = a) : endsAt k n a = true := by
  rw [endsAt, hon, hle, decide_eq_true rfl, Bool.and_self]

theorem setW_counts (k : Core) (r : Reg) (v : Word) : (k.setW r v).dlc = k.dlc ∧ (k.setW r v).dls = k.dls := by
  unfold Core.setW Core.setSp
  split <;> exact ⟨rfl, rfl⟩

/-- A register written at the end of a body leaves its loops to decide as before. -/
theorem setW_endsAt (k : Core) (r : Reg) (v : Word) (j : Nat) (a : Word) : endsAt (k.setW r v) j a = endsAt k j a := by
  obtain ⟨-, hdla, hdle⟩ := Core.setW_loops k r v
  rw [endsAt, hdla, hdle]

section

variable {s : State} {i : Issue} {ins : Instr} {n : Nat} {wd : Reg} {v : Core → Word} (h : s.issues i = true) (hn : n < 3)
  (hexec : exec ins s = .next (s.instrReg i wd v)) (hends : endsAt (found s i) n ((found s i).pc + issueLen i) = true)
  (hlower : ∀ j < n, endsAt (found s i) j ((found s i).pc + issueLen i) = false)
include h hn hexec hends hlower

/-- An instruction of one register at the end of a body that has passes left goes on at LS (R295). -/
theorem exec_loopsAgain {c : Word} (hc : (found s i).dlc.getD n 0 = c) (hcount : 1 < c.toNat) :
    exec ins s = .next (s.jumped i 1 ((found s i).dls.getD n 0) (fun k => recount n (c - 1) (k.setW wd (v k)))) := by
  obtain ⟨hlpend, -, -⟩ := Core.setW_loops (found s i) wd (v (found s i))
  obtain ⟨hdlc, hdls⟩ := setW_counts (found s i) wd (v (found s i))
  have hback := loopBack_again (k := spent 1 ((found s i).setW wd (v (found s i))))
    hn (hlpend.trans (found_lpend h)) ((setW_endsAt _ _ _ _ _).trans hends) (fun j hj => (setW_endsAt _ _ _ _ _).trans (hlower j hj))
    (c := c) ((congrArg (fun l => l.getD n 0) hdlc).trans hc) hcount
  rw [← hdls]
  exact exec_loopsBack (f := fun k => k.setW wd (v k)) h hexec rfl (hlpend.trans (found_lpend h)) hback

/-- At the last pass it goes on in sequence, the level off (R295). -/
theorem exec_loopEnds (hupper : ∀ j < 3, n < j → endsAt (found s i) j ((found s i).pc + issueLen i) = false)
    (hcount : ((found s i).dlc.getD n 0).toNat ≤ 1) :
    exec ins s = .next (s.jumped i 1 ((found s i).pc + issueLen i) (fun k => ended n (k.setW wd (v k)))) := by
  obtain ⟨hlpend, -, -⟩ := Core.setW_loops (found s i) wd (v (found s i))
  obtain ⟨hdlc, -⟩ := setW_counts (found s i) wd (v (found s i))
  have hback := loopBack_last (k := spent 1 ((found s i).setW wd (v (found s i))))
    hn (hlpend.trans (found_lpend h)) ((setW_endsAt _ _ _ _ _).trans hends) (fun j hj => (setW_endsAt _ _ _ _ _).trans (hlower j hj))
    (fun j hj hnj => (setW_endsAt _ _ _ _ _).trans (hupper j hj hnj)) (by rwa [← hdlc] at hcount)
  exact exec_loopsBack (f := fun k => k.setW wd (v k)) h hexec rfl (hlpend.trans (found_lpend h)) hback

end

/-- Settles O6: LOOP and LOOPI by `exec_setsUp`, LCLR by `lclr_clears`, and the end of a body by `exec_loopsAgain` and
`exec_loopEnds`. -/
theorem hardwareLoopsAndBack : Obligations.HardwareLoopsAndBack := by
  unfold Obligations.HardwareLoopsAndBack
  refine ⟨fun s i n ws e cnt m hissues hfull => ⟨?setUp, ?reserved, ?clears, ?badMask⟩,
    fun s i wd ws wt n h hn => ?back⟩
  case setUp =>
    exact fun he => ⟨exec_setsUp hissues hfull he rfl (if_neg (by omega)), exec_setsUp hissues hfull he rfl (if_neg (by omega))⟩
  case reserved =>
    have h := State.issuesOn_issues hissues
    exact fun he => ⟨⟨_, exec_traps h rfl (if_pos he)⟩, ⟨_, exec_traps h rfl (if_pos he)⟩⟩
  case clears => exact fun hm => lclr_clears hissues hm
  case badMask => exact fun hm => ⟨_, exec_traps (State.issuesOn_issues hissues) rfl (if_pos hm)⟩
  case back =>
    intro k next c sum hon hle hlower
    have hends := endsAt_true hon hle
    have hbelow := fun j hj => endsAt_false (hlower j hj)
    refine ⟨fun hcount => exec_loopsAgain h hn rfl hends hbelow rfl hcount, fun hcount hupper => ?_⟩
    exact exec_loopEnds h hn rfl hends hbelow (fun j hj hnj => endsAt_false (hupper j hj hnj)) hcount

end Sys2Proof.Proofs
end

section
/-! PROOF. STX, the drain of a store buffer, fences and cache instructions: O13, O15 (R300, R301, R353, R358, R360, R361, R366). -/

namespace Sys2Proof.Proofs

open Sys2Proof Sys2Proof.Machine

/-! ### A core's own cache -/

theorem lines_cacheOf (s : State) (c : CoreId) : s.lines (cacheOf c) = (s.core c).dc := by
  cases c <;> rfl

theorem setLines_cacheOf (s : State) (c : CoreId) (l : List CLine) :
    s.setLines (cacheOf c) l = s.setCore c { s.core c with dc := l } := by
  cases c <;> rfl

theorem unreserve_eq (k : Core) (base : Nat) : k.unreserve base = { k with resv := if k.resv = some base then none else k.resv } := by
  unfold Core.unreserve
  split <;> rfl

theorem unreserveOwn_cacheOf (s : State) (c : CoreId) (base : Nat) :
    s.unreserveOwn (cacheOf c) base = s.setCore c ((s.core c).unreserve base) := by
  cases c <;> rfl

/-! ### A store into an owned line -/

/-- A line with bytes stored into it: modified, their parity good (R353, R370). -/
def storedLine (x : CLine) (a : Nat) (bs : List Byte) : CLine :=
  { x with
    st := .modified
    data := spliceBytes x.data (a - lineOf a) bs
    bad := x.bad.filter (fun j => decide (j < a - lineOf a) || decide (a - lineOf a + bs.length ≤ j)) }

/-- A line that the core owns already is not asked for (R358). -/
theorem own_owned {s : State} {c : CoreId} {base : Nat} {x : CLine} (hfind : findLine (s.core c).dc base = some x)
    (hst : x.st ≠ .shared) : s.own (cacheOf c) base = s := by
  rw [State.own, lines_cacheOf, hfind]
  exact if_neg hst

theorem storeLine_cached {s : State} {c : CoreId} {a : Nat} {x : CLine} (hfind : findLine (s.core c).dc (lineOf a) = some x)
    (bs : List Byte) : s.storeLine (cacheOf c) a bs =
      s.setCore c { s.core c with dc := putLine (s.core c).dc (storedLine x a bs) } := by
  simp only [State.storeLine, lines_cacheOf, hfind, setLines_cacheOf, storedLine]

/-- A core that has stored bytes into a line of its cache; its reservation of the line is gone (R361). -/
def coreStored (x : CLine) (a : Nat) (bs : List Byte) (k : Core) : Core :=
  { k with resv := if k.resv = some (lineOf a) then none else k.resv, dc := putLine k.dc (storedLine x a bs) }

/-- A part of a store to SRAM, in a line its core owns, goes into the line and nowhere else (R353, R358). -/
theorem putPart_owned {s : State} {c : CoreId} {a : Nat} {x : CLine} (w : World) (hlo : 0x20000000 ≤ a) (hhi : a < 0x20080000)
    (hfind : findLine (s.core c).dc (lineOf a) = some x) (hst : x.st ≠ .shared) (bs : List Byte) :
    s.putPart c w a bs = (true, s.setCore c (coreStored x a bs (s.core c))) := by
  have hunreserve : (if c = .decani then { s with dec := s.dec.unreserve (lineOf a) } else { s with cant := s.cant.unreserve (lineOf a) }) =
      s.setCore c ((s.core c).unreserve (lineOf a)) := by cases c <;> rfl
  simp only [State.putPart, State.busCheck_sram s _ w true a _ hlo hhi, region_sram hlo hhi, Region.type, if_true, own_owned hfind hst,
    hunreserve]
  rw [storeLine_cached (by rw [State.core_setCore, unreserve_eq]; exact hfind), State.setCore_setCore, State.core_setCore, unreserve_eq]
  rfl

theorem takesStore_iff (s : State) (c : CoreId) (a n : Nat) : s.takesStore c a n = true ↔
    (0x20000000 ≤ a ∧ a + n ≤ 0x20080000) ∧ s.accessWaits a = false ∧ (s.core c).sbuf = [] := by
  simp only [State.takesStore, inSram, Bool.and_eq_true, Bool.not_eq_true', decide_eq_true_eq, List.isEmpty_iff, and_assoc]

/-! ### STX -/

section

variable {s : State} {i : Issue} {ws : Reg} {a : Nat} (h : s.issuesOn i = true) (ha : ((found s i).w ws).toNat = a)
  (htakes : s.takesStore i.core a 4 = true) (hguard : ((found s i).guard (found s i).world (found s i).sup .w a).1 = true)
  (halign : a % 4 = 0)
include h ha htakes hguard halign

/-- STX without the reservation of its line stores nothing (R301). -/
theorem stx_unreserved (wd wt : Reg) (hresv : (found s i).resv ≠ some (lineOf a)) :
    exec (.stx i wd wt ws) s = .next (s.retired i 2 (fun k => { k with resv := none }.setW wd 1)) := by
  obtain ⟨⟨hlo, hhi⟩, hwaits, hbuf⟩ := (takesStore_iff s i.core a 4).mp htakes
  have hbuf' : (found s i).sbuf = [] := by rw [found, State.core_issued]; exact hbuf
  refine congrArg Host.Outcome.next (instr_retires h (fun _ => 2) ?body (Core.setW_loops _ _ _))
  case body =>
    simp only [ha, privSpace_below (by omega : a < 0xE0000000), halign, hguard, accessWaits_issued, hwaits, State.drainAll_nil _ _ hbuf',
      hresv, Bool.false_and, Bool.false_eq_true, if_false, Bool.not_true, bne_self_eq_false, decide_false]

/-- STX with the reservation of its line held and the line in the core's cache stores its word there (R301, R361). -/
theorem stx_reserved (wd wt : Reg) {x : CLine} (hresv : (found s i).resv = some (lineOf a))
    (hfind : findLine (found s i).dc (lineOf a) = some x) (hst : x.st ≠ .shared) :
    exec (.stx i wd wt ws) s = .next (s.retired i 2 (fun k =>
      { k with resv := none, dc := putLine k.dc (storedLine x a (leBytes 4 ((found s i).w wt).toNat)) }.setW wd 0)) := by
  obtain ⟨⟨hlo, hhi⟩, hwaits, hbuf⟩ := (takesStore_iff s i.core a 4).mp htakes
  have hbuf' : (found s i).sbuf = [] := by rw [found, State.core_issued]; exact hbuf
  refine congrArg Host.Outcome.next (instr_retires h (fun _ => 2) ?body (Core.setW_loops _ _ _))
  case body =>
    simp only [ha, privSpace_below (by omega : a < 0xE0000000), halign, hguard, accessWaits_issued, hwaits, State.drainAll_nil _ _ hbuf',
      hresv, Bool.false_and, Bool.false_eq_true, if_false, Bool.not_true, bne_self_eq_false, decide_true,
      region_sram hlo (by omega : a < 0x20080000), Region.type, Bool.true_or, Bool.and_self, if_true, State.putReserved,
      putPart_owned _ hlo (by omega) hfind hst, State.core_setCore, State.setCore_setCore]
    rfl

end

/-! ### STORE_DRAIN -/

theorem guard_sbuf (k : Core) (l : List SBuf) (w : World) (sup : Bool) (p : Perm) (a : Nat) :
    Core.guard { k with sbuf := l } w sup p a = k.guard w sup p a := rfl

/-- A refusal is recorded in the guard's registers, and the first raises NOTICE (R366). -/
theorem refused_raiseNotice {k : Core} (h : k.notice = none) (region : Nat) (w : World) (a : Nat) : ∃ p,
    (k.refused region true true).raiseNotice w a = { k with priv := p, notice := some (w, a) } := by
  refine ⟨(k.refused region true true).priv, ?_⟩
  simp only [Core.raiseNotice, Core.refused, Core.setPfld, h]

theorem storeDrain_takes {s : State} {c : CoreId} {e : SBuf} {rest : List SBuf} (hup : s.cacheUp c = true)
    (hbuf : (s.core c).sbuf = e :: rest) :
    exec (.storeDrain c) s = .next ((s.setCore c { s.core c with sbuf := rest }).drainEntry c e) := by
  refine congrArg Host.Outcome.next ?_
  rw [if_pos hup, State.drainOne, hbuf]

/-- A store within one line is one part. -/
theorem lineParts_one (f : Nat) {a : Nat} {bs : List Byte} (hne : bs ≠ []) (hline : lineOf (a + bs.length - 1) = lineOf a) :
    lineParts (f + 2) a bs = [(a, bs)] := by
  have hpos : 0 < bs.length := List.length_pos_iff.mpr hne
  have hroom : bs.length ≤ 32 - a % 32 := by
    simp only [lineOf] at hline
    omega
  simp [lineParts, hne, List.take_of_length_le hroom, List.drop_of_length_le hroom]

section

variable {s : State} {c : CoreId} {e : SBuf} {rest : List SBuf} (hup : s.cacheUp c = true) (hbuf : (s.core c).sbuf = e :: rest)
include hup hbuf

/-- A store that the guard permits drains into the line its core owns (R353, R358, R366). -/
theorem storeDrain_stores {x : CLine} (hguard : ((s.core c).guard e.world e.priv .w e.check).1 = true)
    (hsram : inSram e.addr e.data.length = true) (hne : e.data ≠ [])
    (hline : lineOf (e.addr + e.data.length - 1) = lineOf e.addr) (hfind : findLine (s.core c).dc (lineOf e.addr) = some x)
    (hst : x.st ≠ .shared) :
    exec (.storeDrain c) s = .next (s.setCore c (coreStored x e.addr e.data { s.core c with sbuf := rest })) := by
  simp only [inSram, Bool.and_eq_true, decide_eq_true_eq] at hsram
  obtain ⟨hlo, hhi⟩ := hsram
  have hpos : 0 < e.data.length := List.length_pos_iff.mpr hne
  have hput := putPart_owned (s := s.setCore c { s.core c with sbuf := rest }) (c := c) e.world hlo (by omega)
    (by rw [State.core_setCore]; exact hfind) hst e.data
  rw [storeDrain_takes hup hbuf, State.drainEntry]
  simp only [State.core_setCore, guard_sbuf, hguard, Bool.or_true, if_true, lineParts_one 2 hne hline, State.putParts, hput, Bool.and_self,
    State.setCore_setCore]

/-- A store that the guard refuses is not stored in any byte: only its registers record it, and NOTICE waits (R366). -/
theorem storeDrain_refused (hguard : ((s.core c).guard e.world e.priv .w e.check).1 = false) (hchecked : e.checked = false)
    (hnotice : (s.core c).notice = none) : ∃ p, exec (.storeDrain c) s = .next (s.setCore c
      { s.core c with sbuf := rest, priv := p, notice := some (e.world, e.check) }) := by
  obtain ⟨p, hraised⟩ := refused_raiseNotice (k := { s.core c with sbuf := rest }) hnotice
    ((s.core c).guard e.world e.priv .w e.check).2 e.world e.check
  refine ⟨p, ?_⟩
  rw [storeDrain_takes hup hbuf, State.drainEntry]
  simp only [State.core_setCore, guard_sbuf, hguard, hchecked, Bool.or_self, Bool.false_eq_true, if_false, State.setCore_setCore]
  exact congrArg (fun k => Host.Outcome.next (s.setCore c k)) hraised

end

/-- Settles O13: STX by `stx_reserved` and `stx_unreserved`, the drain by `storeDrain_stores` and `storeDrain_refused`. -/
theorem storeConditionalAndDrain : Obligations.StoreConditionalAndDrain := by
  unfold Obligations.StoreConditionalAndDrain
  refine ⟨fun s i wd wt ws h => ?stx, fun s c e rest => ?drain⟩
  case stx =>
    intro k a htakes hguard halign
    exact ⟨fun hresv => stx_unreserved h rfl htakes hguard halign wd wt hresv,
      fun x hresv hfind hst => stx_reserved h rfl htakes hguard halign wd wt hresv hfind hst⟩
  case drain =>
    intro k hup hbuf
    refine ⟨fun x hguard hsram hne hline hfind hst => storeDrain_stores hup hbuf hguard hsram hne hline hfind hst,
      fun hguard hchecked hnotice => ?_⟩
    obtain ⟨p, hexec⟩ := storeDrain_refused hup hbuf hguard hchecked hnotice
    refine ⟨_, hexec, ?_⟩
    simp only [k, State.core_setCore, State.setCore_mem, State.setCore_regs, and_self]

/-! ### Fences and cache instructions -/

/-- The part after a line's WriteBack to its home (Table 16.3). -/
def writtenBack (s : State) (c : CacheId) (base : Nat) (x : CLine) : State := (s.homeStart c.num base).lineToMemory x

theorem writtenBack_core (s : State) (c : CacheId) (base : Nat) (x : CLine) (d : CoreId) :
    (writtenBack s c base x).core d = s.core d := by
  cases d <;> rfl

theorem writtenBack_setCore (s : State) (d : CoreId) (k : Core) (c : CacheId) (base : Nat) (x : CLine) :
    writtenBack (s.setCore d k) c base x = (writtenBack s c base x).setCore d k := by
  cases d <;> rfl

theorem writtenBack_issued (s : State) (i : Issue) (c : CacheId) (base : Nat) (x : CLine) (k : Core) :
    (writtenBack (s.issued i) c base x).setCore i.core k = (writtenBack s c base x).setCore i.core k := by
  rw [State.issued, writtenBack_setCore, State.setCore_setCore]

theorem drainLine_nil {s : State} {c : CoreId} (h : (s.core c).sbuf = []) (base : Nat) : s.drainLine c base = s := by
  rw [State.drainLine, h]
  rfl

/-- DCCLEAN of a modified line (R360). -/
theorem cleanLine_modified {s : State} {c : CoreId} {base : Nat} {x : CLine} (hfind : findLine (s.core c).dc base = some x)
    (hst : x.st = .modified) : s.cleanLine (cacheOf c) base = (writtenBack s (cacheOf c) base x).setCore c
      { s.core c with dc := putLine (s.core c).dc { x with st := .exclusive } } := by
  simp only [State.cleanLine, lines_cacheOf, hfind, hst, if_true, setLines_cacheOf]
  rw [← writtenBack, writtenBack_core]

theorem cleanLine_other {s : State} {c : CoreId} {base : Nat} (h : ∀ x, findLine (s.core c).dc base = some x → x.st ≠ .modified) :
    s.cleanLine (cacheOf c) base = s := by
  rw [State.cleanLine, lines_cacheOf]
  split
  case h_1 x hfind => exact if_neg (h x hfind)
  case h_2 => rfl

/-- A core whose cache has let a line go, and with it its reservation (R361, R370). -/
def lineGone (base : Nat) (k : Core) : Core :=
  { k with dc := dropLine k.dc base, resv := if k.resv = some base then none else k.resv }

/-- A line that leaves a core's cache, written back where it is modified. -/
theorem writeBackOut_found {s : State} {c : CoreId} {base : Nat} {x : CLine} (hfind : findLine (s.core c).dc base = some x) :
    s.writeBackOut (cacheOf c) base =
      (if x.st = .modified then writtenBack s (cacheOf c) base x else s).setCore c (lineGone base (s.core c)) := by
  simp only [State.writeBackOut, lines_cacheOf, hfind, setLines_cacheOf, unreserveOwn_cacheOf, State.core_setCore, State.setCore_setCore,
    unreserve_eq]
  split
  case isTrue => exact writtenBack_setCore s c _ _ base x
  case isFalse => rfl

theorem writeBackOut_none {s : State} {c : CoreId} {base : Nat} (hfind : findLine (s.core c).dc base = none) :
    s.writeBackOut (cacheOf c) base = s := by
  rw [State.writeBackOut, lines_cacheOf, hfind]

section

variable {s : State} {i : Issue} {ws : Reg} {base : Nat} (h : s.issuesOn i = true) (hbuf : (found s i).sbuf = [])
  (hbase : lineOf ((found s i).w ws).toNat = base)
include h hbuf

/-- FENCE with nothing buffered only passes (R360). -/
theorem fence_empty : exec (.fence i) s = .next (s.retired i 1 id) := by
  have hretires := instr_retires h (fun k => 1 + k.sbuf.length) (body := fun t => (t.drainAll i.core, .seq)) (f := id)
    (by rw [State.drainAll_nil _ _ hbuf, id, State.setCore_core]) ⟨rfl, rfl, rfl⟩
  rw [hbuf] at hretires
  exact congrArg Host.Outcome.next hretires

include hbase

/-- DCCLEAN writes a modified line back and keeps it (R360). -/
theorem dcclean_modified {x : CLine} (hfind : findLine (found s i).dc base = some x) (hst : x.st = .modified) :
    exec (.dcclean i ws) s = .next ((writtenBack s (cacheOf i.core) base x).retired i 2 (fun k =>
      { k with dc := putLine k.dc { x with st := .exclusive } })) := by
  refine congrArg Host.Outcome.next (instr_retiresIn h (writtenBack_core _ _ _ _ _) (fun _ => 2) ?body ⟨rfl, rfl, rfl⟩)
  case body =>
    simp only [hbase, drainLine_nil hbuf, cleanLine_modified hfind hst]
    rw [writtenBack_issued]

theorem dcclean_other (hst : ∀ x, findLine (found s i).dc base = some x → x.st ≠ .modified) :
    exec (.dcclean i ws) s = .next (s.retired i 2 id) := by
  refine congrArg Host.Outcome.next (instr_retires h (fun _ => 2) ?body ⟨rfl, rfl, rfl⟩)
  case body => simp only [hbase, drainLine_nil hbuf, cleanLine_other hst, id, State.setCore_core]

variable (hguard : ((found s i).guard (found s i).world (found s i).sup .w base).1 = true)
include hguard

/-- DCCINV lets the line go, a modified one written back first (R360). -/
theorem dccinv_found {x : CLine} (hfind : findLine (found s i).dc base = some x) :
    exec (.dccinv i ws) s = .next
      ((if x.st = .modified then writtenBack s (cacheOf i.core) base x else s).retired i 2 (lineGone base)) := by
  refine congrArg Host.Outcome.next (instr_retiresIn h ?core (fun _ => 2) ?body ⟨rfl, rfl, rfl⟩)
  case core =>
    split
    · exact writtenBack_core _ _ _ _ _
    · rfl
  case body =>
    simp only [hbase, hguard, Bool.not_true, Bool.false_eq_true, if_false, drainLine_nil hbuf, writeBackOut_found hfind]
    split
    · rw [writtenBack_issued]
    · rw [State.issued_setCore]

theorem dccinv_none (hfind : findLine (found s i).dc base = none) : exec (.dccinv i ws) s = .next (s.retired i 2 id) := by
  refine congrArg Host.Outcome.next (instr_retires h (fun _ => 2) ?body ⟨rfl, rfl, rfl⟩)
  case body =>
    simp only [hbase, hguard, Bool.not_true, Bool.false_eq_true, if_false, drainLine_nil hbuf, writeBackOut_none hfind, id,
      State.setCore_core]

end

/-- Settles O15: with nothing buffered each instruction is its cache operation alone. -/
theorem fencesAndCaches : Obligations.FencesAndCaches := by
  unfold Obligations.FencesAndCaches
  intro s i ws h hempty
  have hbuf : (found s i).sbuf = [] := by rw [found, State.core_issued]; exact hempty
  refine ⟨fence_empty h hbuf, ?isync, ?icinv,
    fun x hfind hst => dcclean_modified h hbuf rfl hfind hst, fun hst => dcclean_other h hbuf rfl hst,
    fun hguard => ⟨fun x hfind hst => ?modified, fun x hfind hst => ?clean, fun hfind => dccinv_none h hbuf rfl hguard hfind⟩⟩
  case isync => exact exec_retires h rfl rfl rfl fun _ => ⟨rfl, rfl, rfl⟩
  case icinv =>
    exact exec_retires h rfl rfl rfl fun _ => ⟨rfl, rfl, rfl⟩
  case modified =>
    have hinv := dccinv_found h hbuf rfl hguard hfind
    rwa [if_pos hst] at hinv
  case clean =>
    have hinv := dccinv_found h hbuf rfl hguard hfind
    rwa [if_neg hst] at hinv

end Sys2Proof.Proofs
end

section
/-! PROOF. The elementwise tile instructions, the TILE trap and TREL: O16 (R308, R309, R312, R313, R316, Table 14.4). -/

namespace Sys2Proof.Proofs

open Sys2Proof Sys2Proof.Machine

theorem retired_congr {s : State} {i : Issue} {n : Nat} {f g : Core → Core} (h : f (found s i) = g (found s i)) :
    s.retired i n f = s.retired i n g := by
  simp only [State.retired, h]

/-! ### The checks of the sources -/

/-- A live tile of a shape and a format: what R308 asks of a source. -/
def TileFits (k : Core) (n rows cols fmt : Nat) : Prop :=
  (k.tile n).use = true ∧ (k.tile n).rows = rows ∧ (k.tile n).cols = cols ∧ (k.tile n).fmt = fmt

theorem checkSources_fit {k : Core} {ts : List Nat} {rows cols fmt : Nat} (h : ∀ n ∈ ts, TileFits k n rows cols fmt) :
    k.checkSources ts rows cols fmt = none := by
  have hpass : ∀ p : Nat → Bool, (∀ n, TileFits k n rows cols fmt → p n = false) →
      ((List.range 8).filter (fun n => ts.contains n)).find? p = none := by
    intro p hp
    rw [List.find?_eq_none]
    intro n hn
    have hmem : n ∈ ts := List.contains_iff_mem.mp (List.mem_filter.mp hn).2
    simp [hp n (h n hmem)]
  simp only [Core.checkSources]
  rw [hpass _ fun n ⟨huse, _⟩ => by simp [huse], hpass _ fun n ⟨_, hrows, hcols, _⟩ => by simp [hrows, hcols],
    hpass _ fun n ⟨_, _, _, hfmt⟩ => by simp [hfmt]]

/-- A dead source is found first (R309). -/
theorem checkSources_dead {k : Core} {n : Fin 8} (h : (k.tile n).use = false) (rows cols fmt : Nat) :
    k.checkSources [n.val] rows cols fmt = some (1, some n.val) := by
  have honly : ∀ n : Fin 8, (List.range 8).filter (fun m => [n.val].contains m) = [n.val] := by decide
  simp only [Core.checkSources, honly, List.find?_cons, h, Bool.not_false]

section

variable {s : State} {i : Issue} (h : s.issuesOn i = true) (cycles : Nat) (word : Word) {chk : Core → TileFail} {eff : Core → Core}
include h

/-- A tile instruction whose checks pass retires with its effect. -/
theorem instrTile_retires (hchk : chk (found s i) = none) (hloops : SameLoops (found s i) (eff (found s i))) :
    s.instrTile i cycles word chk eff = s.retired i cycles eff :=
  instr_retires h (fun _ => cycles) (by simp only [hchk]) hloops

/-- A tile instruction whose check fails with a tile raises TILE: TCAUSE names both, and no tile changes (R309). -/
theorem instrTile_traps {cause tile : Nat} (hchk : chk (found s i) = some (cause, some tile)) :
    s.instrTile i cycles word chk eff =
      (s.setCore i.core { found s i with tcause := BitVec.ofNat 32 (cause + 16 * tile), cyc := (found s i).cyc + cycles }).trap i.core
        ⟨0x0C, (found s i).world, (found s i).pc, 0, none, some word, false, false⟩ := by
  rw [State.instrTile, State.instr_issues (State.issuesOn_issues h)]
  simp only [hchk, State.tileTrap, Option.isSome_some, if_true, State.finish, State.core_setCore, State.setCore_setCore,
    State.issued_setCore]
  rfl

end

/-! ### Values and formats (Table 14.1) -/

/-- The range of a format. -/
def elLow (fmt : Nat) : Int := if fmt = 1 then 0 else -32768
def elHigh (fmt : Nat) : Int := if fmt = 1 then 65535 else 32767

theorem clampInt_eq {lo hi : Int} (h : lo ≤ hi) (x : Int) : clampInt lo hi x = max lo (min hi x) := by
  unfold clampInt
  split
  · omega
  · split <;> omega

theorem elSat_eq (fmt : Nat) (x : Int) :
    elSat fmt x = ((BitVec.ofInt 16 (max (elLow fmt) (min (elHigh fmt) x))).toNat, decide (x < elLow fmt ∨ elHigh fmt < x)) := by
  have hclamp : (if fmt = 1 then clampInt 0 65535 x else clampInt (-32768) 32767 x) = max (elLow fmt) (min (elHigh fmt) x) := by
    unfold elLow elHigh
    split <;> exact clampInt_eq (by decide) x
  have hrange : elLow fmt ≤ elHigh fmt := by
    unfold elLow elHigh
    split <;> decide
  have hclamped : max (elLow fmt) (min (elHigh fmt) x) ≠ x ↔ x < elLow fmt ∨ elHigh fmt < x := by omega
  simp only [elSat, hclamp, wrapInt_eq_toNat, hclamped]

theorem elVal_eq (fmt v : Nat) : elVal fmt v = if fmt = 1 then ((v : Int) % 65536) else (BitVec.ofNat 16 v).toInt := by
  rw [elVal, signed_eq_toInt (by decide), Int.natCast_mod]
  rfl

/-- An element of a tile, read under a format. -/
def elemAs (k : Core) (fmt n e : Nat) : Int :=
  if fmt = 1 then (((k.tile n).el.getD e 0 : Nat) : Int) % 65536 else (BitVec.ofNat 16 ((k.tile n).el.getD e 0)).toInt

theorem el_eq {k : Core} {n fmt : Nat} (h : (k.tile n).fmt = fmt) (e : Nat) : k.el n e = elemAs k fmt n e := by
  rw [Core.el, h, elVal_eq, elemAs]

theorem elMul_eq (fmt : Nat) (x y : Int) : elMul fmt x y = if fmt = 2 then (x * y + 16384) / 32768 else x * y := by
  norm_num [elMul]

/-! ### Elementwise functions -/

/-- A core whose tile has taken values held to the range of its format, SAT set where that changed one (R313). -/
def tileTakes (td rows cols fmt : Nat) (v : Nat → Int) (k : Core) : Core :=
  let q := k.setTile td ⟨true, rows, cols, fmt,
    (List.range (rows * cols)).map (fun e => (BitVec.ofInt 16 (max (elLow fmt) (min (elHigh fmt) (v e)))).toNat)⟩
  if (List.range (rows * cols)).any (fun e => decide (v e < elLow fmt ∨ elHigh fmt < v e)) then { q with psr := q.psr ||| 0x100 } else q

theorem sameLoops_sat {k q : Core} (h : SameLoops k q) (b : Bool) : SameLoops k (q.sat b) := by
  unfold Core.sat
  split <;> exact h

theorem sameLoops_setTile (k : Core) (n : Nat) (t : Tile) : SameLoops k (k.setTile n t) := ⟨rfl, rfl, rfl⟩

/-- An elementwise function of sources that pass their checks. -/
theorem instrTA_retires {s : State} {i : Issue} (h : s.issuesOn i = true) (word : Word) {td : Nat} {srcs : List Nat} {r c : Fin 16}
    {fmt : Nat} {f : Core → Nat → Int} {v : Nat → Int} (hsrcs : ∀ n ∈ srcs, TileFits (found s i) n (r.val + 1) (c.val + 1) fmt)
    (hv : ∀ e, f (found s i) e = v e) :
    s.instrTA i word td srcs r c fmt f =
      s.retired i (max 1 (((r.val + 1) * (c.val + 1) + 15) / 16)) (tileTakes td (r.val + 1) (c.val + 1) fmt v) := by
  rw [State.instrTA]
  refine (instrTile_retires h _ word (checkSources_fit hsrcs) ?loops).trans (retired_congr ?takes)
  case loops => exact sameLoops_sat (sameLoops_setTile _ _ _) _
  case takes =>
    simp only [elSat_eq, hv, List.map_map, List.any_map, Function.comp_def]
    rfl

/-- An elementwise function of a dead source raises TILE with cause 1 (R309). -/
theorem instrTA_traps {s : State} {i : Issue} (h : s.issuesOn i = true) (word : Word) (td : Nat) {ta : Fin 8} (r c : Fin 16) (fmt : Nat)
    (f : Core → Nat → Int) (hdead : ((found s i).tile ta).use = false) :
    s.instrTA i word td [ta.val] r c fmt f =
      (s.setCore i.core { found s i with
        tcause := BitVec.ofNat 32 (1 + 16 * ta.val), cyc := (found s i).cyc + taCycles (r.val + 1) (c.val + 1) }).trap i.core
        ⟨0x0C, (found s i).world, (found s i).pc, 0, none, some word, false, false⟩ := by
  rw [State.instrTA]
  exact instrTile_traps h _ word (checkSources_dead hdead _ _ _)

/-! ### TREL -/

/-- Setting, of the first `n` places of a list, those that `p` marks. -/
theorem getElem?_foldl_set {α : Type} (p : Nat → Bool) (x : α) (l : List α) (n j : Nat) :
    ((List.range n).foldl (fun q i => if p i then q.set i x else q) l)[j]? = l[j]?.map (fun y => if j < n ∧ p j then x else y) := by
  induction n with
  | zero => simp
  | succ n ih =>
    rw [List.range_succ, List.foldl_append, List.foldl_cons, List.foldl_nil]
    by_cases hj : j = n
    · subst hj
      cases hp : p j <;> simp [List.getElem?_set', ih, hp, Function.const_def]
    · have hlt : j < n + 1 ↔ j < n := by omega
      split
      case isTrue => simp only [List.getElem?_set_ne (Ne.symm hj), ih, hlt]
      case isFalse => simp only [ih, hlt]

/-- TREL makes the tiles of its mask dead (R316). -/
theorem releases (m : BitVec 8) (k : Core) :
    (List.range 8).foldl (fun q n => if m.getLsbD n then q.setTile n Tile.dead else q) k =
      { k with tiles := k.tiles.mapIdx (fun n t => if m.getLsbD n then Tile.dead else t) } := by
  have htiles : ∀ (ts : List Tile) (n : Nat),
      (if m.getLsbD n then ({ k with tiles := ts } : Core).setTile n Tile.dead else { k with tiles := ts }) =
        { k with tiles := if m.getLsbD n then ts.set n Tile.dead else ts } := fun ts n => by
    split <;> rfl
  have hbits : ∀ j, (j < 8 ∧ m.getLsbD j = true) ↔ m.getLsbD j = true := fun j =>
    and_iff_right_of_imp BitVec.lt_of_getLsbD
  rw [List.foldl_hom (fun ts => ({ k with tiles := ts } : Core)) (init := k.tiles) htiles]
  refine congrArg (fun ts => ({ k with tiles := ts } : Core)) (List.ext_getElem? fun j => ?_)
  simp only [getElem?_foldl_set, hbits, List.getElem?_mapIdx]

/-- Settles O16: an elementwise function by `instrTA_retires`, a dead source by `instrTile_traps`, TREL by `releases`. -/
theorem tileInstructions : Obligations.TileInstructions := by
  unfold Obligations.TileInstructions
  refine ⟨fun s i td ta tb r c fmt h => ?_, fun s i td ta r c fmt m h => ⟨fun hdead => ?dead, fun hm => ?trel, fun hm => ?reserved⟩⟩
  · intro k R C good v lo hi out
    have hone : good ta → ∀ n ∈ [ta.val], TileFits (found s i) n R C fmt.val := fun ha => List.forall_mem_singleton.mpr ha
    have htwo : good ta → good tb → ∀ n ∈ [ta.val, tb.val], TileFits (found s i) n R C fmt.val := fun ha hb =>
      List.forall_mem_cons.mpr ⟨ha, List.forall_mem_singleton.mpr hb⟩
    have hel : ∀ j, good j → ∀ e, (found s i).el j e = v j e := fun j ⟨_, _, _, hfmt⟩ e => el_eq hfmt e
    have hout : ∀ {word : Word} {srcs : List Nat} {f : Core → Nat → Int} {g : Nat → Int},
        (∀ n ∈ srcs, TileFits (found s i) n R C fmt.val) → (∀ e, f (found s i) e = g e) →
        s.instrTA i word td srcs r c fmt f = out g := instrTA_retires h _
    refine ⟨?zero, fun ha => ⟨?mov, ?abs, ?sra, ?trn⟩, fun ha hb => ⟨?add, ?sub, ?mul, ?min, ?max⟩⟩
    case zero => exact congrArg Host.Outcome.next (hout (by simp) fun _ => rfl)
    case mov => exact congrArg Host.Outcome.next (hout (hone ha) (hel ta ha))
    case abs =>
      exact congrArg Host.Outcome.next (hout (hone ha) fun e => by rw [hel ta ha, Int.natCast_natAbs])
    case sra => exact congrArg Host.Outcome.next (hout (hone ha) fun e => by rw [hel ta ha])
    case trn =>
      exact congrArg Host.Outcome.next (instrTile_retires h _ _ (checkSources_fit (hone ha)) (sameLoops_setTile _ _ _))
    case add => exact congrArg Host.Outcome.next (hout (htwo ha hb) fun e => by rw [hel ta ha, hel tb hb])
    case sub => exact congrArg Host.Outcome.next (hout (htwo ha hb) fun e => by rw [hel ta ha, hel tb hb])
    case mul => exact congrArg Host.Outcome.next (hout (htwo ha hb) fun e => by rw [elMul_eq, hel ta ha, hel tb hb])
    case min => exact congrArg Host.Outcome.next (hout (htwo ha hb) fun e => by rw [hel ta ha, hel tb hb])
    case max => exact congrArg Host.Outcome.next (hout (htwo ha hb) fun e => by rw [hel ta ha, hel tb hb])
  case dead => exact ⟨_, _, congrArg Host.Outcome.next (instrTA_traps h _ _ _ _ _ _ hdead)⟩
  case trel =>
    refine exec_retires h rfl rfl ?_ fun _ => ⟨rfl, rfl, rfl⟩
    rw [if_neg hm, releases]
  case reserved =>
    exact ⟨_, congrArg Host.Outcome.next (instr_traps (State.issuesOn_issues h) _ (by
      simp only [if_pos hm, State.setCore_core]; rfl))⟩

end Sys2Proof.Proofs
end

section
/-! PROOF. Correlation and filter: O17 (R314, R315). -/

namespace Sys2Proof.Proofs

open Sys2Proof Sys2Proof.Machine

/-! ### The checks of R315 -/

/-- A destination that is dead, or an S16 tile of 16 columns with room for the rows. -/
def HasRoom (t : Tile) (rows : Nat) : Prop := t.use = true → t.cols = 16 ∧ rows ≤ t.rows ∧ t.fmt = 0

theorem checkCorr_passes {k : Core} {td tp tb rows cols need fmt : Nat} {a : CorrArg} (hd0 : TileFits k (2 * tp) 16 16 fmt)
    (hd1 : TileFits k (2 * tp + 1) 16 16 fmt) (huse : (k.tile tb).use = true) (hrows : (k.tile tb).rows = rows)
    (hcols : (k.tile tb).cols = cols) (hsigned : (k.tile tb).fmt ≠ 1) (hclean : a.clean = true)
    (hrange : a.off + rows * cols + 14 ≤ 511) (hroom : HasRoom (k.tile td) need) : k.checkCorr td tp tb rows cols a need = none := by
  obtain ⟨huse0, hrows0, hcols0, hfmt0⟩ := hd0
  obtain ⟨huse1, hrows1, hcols1, hfmt1⟩ := hd1
  have hsize : ¬ ((k.tile td).use = true ∧ ((k.tile td).cols ≠ 16 ∨ (k.tile td).rows < need)) := by
    rintro ⟨huse, hbad⟩
    obtain ⟨hcols, hrows, -⟩ := hroom huse
    omega
  have hformat : ¬ ((k.tile td).use = true ∧ (k.tile td).fmt ≠ 0) := by
    rintro ⟨huse, hbad⟩
    obtain ⟨-, -, hfmt⟩ := hroom huse
    exact hbad hfmt
  simp [Core.checkCorr, huse0, huse1, hrows0, hrows1, hcols0, hcols1, hfmt0, hfmt1, huse, hrows, hcols, hsigned, hclean,
    Nat.not_lt.mpr hrange, hsize, hformat]

/-! ### The sums of R314 -/

/-- Sample `n` of the data pair, both tiles of the format of the first. -/
def pairSample (d0 d1 : Tile) (n : Nat) : Int :=
  let v := if n < 256 then d0.el.getD n 0 else d1.el.getD (n - 256) 0
  if d0.fmt = 1 then ((v : Int) % 65536) else (BitVec.ofNat 16 v).toInt

theorem corrX_eq {k : Core} {tp : Nat} (hfmt : (k.tile (2 * tp)).fmt = (k.tile (2 * tp + 1)).fmt) (n : Nat) :
    k.corrX tp n = pairSample (k.tile (2 * tp)) (k.tile (2 * tp + 1)) n := by
  rw [Core.corrX, Core.el, Core.el, ← hfmt, elVal_eq, elVal_eq, pairSample]
  split <;> rfl

/-- Result `j`: the sum over a template of `m` elements, rounded and shifted. -/
def corrResult (t d0 d1 : Tile) (m off sh j : Nat) : Int :=
  (((List.range m).map (fun e => (BitVec.ofNat 16 (t.el.getD e 0)).toInt * pairSample d0 d1 (off + j + e))).sum
    + (if sh = 0 then 0 else 2 ^ (sh - 1))) / 2 ^ sh

theorem corrShift_corrSum {k : Core} {tp : Nat} (hfmt : (k.tile (2 * tp)).fmt = (k.tile (2 * tp + 1)).fmt) (tb m off sh j : Nat) :
    corrShift (k.corrSum tp tb off m j) sh = corrResult (k.tile tb) (k.tile (2 * tp)) (k.tile (2 * tp + 1)) m off sh j := by
  simp only [corrShift, Core.corrSum, corrX_eq hfmt, signed_eq_toInt (by decide : 0 < 16), corrResult]

theorem corrArg_eq (w : Word) :
    corrArg w = ⟨w.toNat % 512, w.toNat / 65536 % 16, w.toNat / 16777216 % 8, decide (w &&& 0xF8F0FE00 = 0)⟩ := by
  simp only [corrArg, bitsOf, Nat.shiftRight_eq_div_pow, Nat.reducePow]

/-! ### Saturated results -/

/-- A value held to the range of `n` bits signed. -/
def clampBits (n : Nat) (z : Int) : Int := max (-(2 ^ (n - 1) : Int)) (min (2 ^ (n - 1) - 1) z)

theorem sat32_eq (x : Int) : sat32 x = (BitVec.ofInt 32 (clampBits 32 x), decide (x ≠ clampBits 32 x)) := by
  have hclamp : clampInt (-(2 ^ 31 : Nat)) ((2 ^ 31 : Nat) - 1) x = clampBits 32 x := clampInt_eq (by decide) x
  rw [sat32, hclamp]
  simp only [ne_comm]

theorem elSat_signed (x : Int) : elSat 0 x = ((BitVec.ofInt 16 (clampBits 16 x)).toNat, decide (x ≠ clampBits 16 x)) := by
  have hclamp : clampInt (-32768) 32767 x = clampBits 16 x := clampInt_eq (by decide) x
  simp only [elSat, hclamp, wrapInt_eq_toNat, ne_comm]
  rfl

/-- Results held to `n` bits: SAT is set where that changed one. -/
def flagged (n : Nat) (y : Nat → Int) (k : Core) : Core :=
  if (List.range 16).any (fun j => decide (y j ≠ clampBits n (y j))) then { k with psr := k.psr ||| 0x100 } else k

/-- The elements of two rows that 16 results of 32 bits fill, low half first. -/
def wideElements (y : Nat → Int) : List Nat :=
  ((List.range 16).map (fun j =>
    [(BitVec.ofInt 32 (clampBits 32 (y j))).toNat % 65536, (BitVec.ofInt 32 (clampBits 32 (y j))).toNat / 65536])).flatten

/-- The elements of the row that 16 results of 16 bits fill. -/
def narrowElements (y : Nat → Int) : List Nat := (List.range 16).map (fun j => (BitVec.ofInt 16 (clampBits 16 (y j))).toNat)

/-- A core whose destination has taken 16 results: as words in rows 2q and 2q + 1, or as elements in row q. -/
def corrTakes (wide : Bool) (td q : Nat) (y : Nat → Int) (k : Core) : Core :=
  if wide then flagged 32 y (k.setTile td (corrDest (k.tile td) (2 * q + 2) (32 * q) (wideElements y)))
  else flagged 16 y (k.setTile td (corrDest (k.tile td) (q + 1) (16 * q) (narrowElements y)))

/-! ### TXC and TFIR -/

/-- A core whose data pair, template and argument a TXC or TFIR of this shape may use (R315). -/
structure Correlates (k : Core) (tp : Fin 4) (tb : Fin 8) (w : Word) (rows cols : Nat) : Prop where
  data0 : TileFits k (2 * tp.val) 16 16 (k.tile (2 * tp.val)).fmt
  data1 : TileFits k (2 * tp.val + 1) 16 16 (k.tile (2 * tp.val)).fmt
  live : (k.tile tb).use = true
  tmplRows : (k.tile tb).rows = rows
  tmplCols : (k.tile tb).cols = cols
  signed : (k.tile tb).fmt ≠ 1
  clean : w &&& 0xF8F0FE00 = 0
  inRange : w.toNat % 512 + rows * cols + 14 ≤ 511

theorem Correlates.fmt {k : Core} {tp : Fin 4} {tb : Fin 8} {w : Word} {rows cols : Nat} (h : Correlates k tp tb w rows cols) :
    (k.tile (2 * tp.val)).fmt = (k.tile (2 * tp.val + 1)).fmt := by
  obtain ⟨-, -, -, hfmt⟩ := h.data1
  exact hfmt.symm

/-- The results that a core's tiles give (R314). -/
def results (k : Core) (tp : Fin 4) (tb : Fin 8) (w : Word) (m : Nat) : Nat → Int :=
  corrResult (k.tile tb) (k.tile (2 * tp.val)) (k.tile (2 * tp.val + 1)) m (w.toNat % 512) (w.toNat / 65536 % 16)

section

variable {s : State} {i : Issue} {td : Fin 8} {tp : Fin 4} {tb : Fin 8} {ws : Reg} {w : Word} {r c : Fin 16} {m q : Nat}
  (h : s.issuesOn i = true) (hw : (found s i).w ws = w) (hm : (r.val + 1) * (c.val + 1) = m) (hq : w.toNat / 16777216 % 8 = q)
  (happart : ¬ (td.val = 2 * tp.val ∨ td.val = 2 * tp.val + 1 ∨ td.val = tb.val))
  (huses : Correlates (found s i) tp tb w (r.val + 1) (c.val + 1))
include huses

theorem checkCorr_uses {need : Nat} (hroom : HasRoom ((found s i).tile td) need) :
    (found s i).checkCorr td tp tb (r.val + 1) (c.val + 1) (corrArg w) need = none := by
  refine checkCorr_passes huses.data0 huses.data1 huses.live huses.tmplRows huses.tmplCols huses.signed ?clean ?range hroom
  case clean => rw [corrArg_eq]; exact decide_eq_true huses.clean
  case range => rw [corrArg_eq]; exact huses.inRange

include h hw hm hq happart

/-- TXC (`wide`) and TFIR retire with their results in the destination. -/
theorem instrCorr_retires (wide : Bool) (hroom : HasRoom ((found s i).tile td) (if wide then 2 * q + 2 else q + 1)) :
    s.instrCorr i wide td tp tb ws r c =
      s.retired i (1 + (m + 3) / 4) (corrTakes wide td q (results (found s i) tp tb w m)) := by
  subst hm hq
  rw [State.instrCorr, if_neg happart]
  refine (instrTile_retires h _ _ ?chk ?loops).trans (retired_congr ?takes)
  case chk =>
    simp only [hw]
    refine checkCorr_uses huses ?_
    rwa [corrArg_eq]
  case loops =>
    cases wide <;> exact sameLoops_sat (sameLoops_setTile _ _ _) _
  case takes =>
    cases wide <;>
      simp only [hw, if_true, Bool.false_eq_true, if_false, corrArg_eq, corrShift_corrSum huses.fmt, List.map_map, List.any_map,
        Function.comp_def, sat32_eq, elSat_signed] <;> rfl

end

/-- Settles O17: both instructions by `instrCorr_retires`. -/
theorem correlation : Obligations.Correlation := by
  unfold Obligations.Correlation
  intro s i td tp tb ws r c h k w off sh q m d0 d1 full x y fits clamp flag hne0 hne1 hne hfull0 hfull1 hfmt hlive hrows hcols hsigned
    hclean hrange
  have happart : ¬ (td.val = 2 * tp.val ∨ td.val = 2 * tp.val + 1 ∨ td.val = tb.val) := by
    rintro (h0 | h1 | hb)
    · exact hne0 h0
    · exact hne1 h1
    · exact hne (Fin.ext hb)
  obtain ⟨huse0, hrows0, hcols0⟩ := hfull0
  obtain ⟨huse1, hrows1, hcols1⟩ := hfull1
  have huses : Correlates (found s i) tp tb (k.w ws) (r.val + 1) (c.val + 1) :=
    ⟨⟨huse0, hrows0, hcols0, rfl⟩, ⟨huse1, hrows1, hcols1, hfmt.symm⟩, hlive, hrows, hcols, hsigned, hclean, by omega⟩
  exact ⟨fun hroom => congrArg Host.Outcome.next (instrCorr_retires h rfl rfl rfl happart huses true hroom),
    fun hroom => congrArg Host.Outcome.next (instrCorr_retires h rfl rfl rfl happart huses false hroom)⟩

end Sys2Proof.Proofs
end

section
/-! PROOF. What the traffic of the caches and store buffers leaves a program: its registers, tiles and loops (R351 to R361, R366). -/

namespace Sys2Proof.Proofs

open Sys2Proof Sys2Proof.Machine

/-- A core without what the traffic of memory may change of it: its data cache, store buffer, reservation, guard registers and NOTICE. -/
def bare (k : Core) : Core := { k with resv := none, sbuf := [], dc := [], priv := [], notice := none }

/-- What a program sees and what its next access waits for: both cores, bare, and the self-test. -/
def programs (s : State) : Core × Core × SelfTest := (bare s.dec, bare s.cant, s.st)

theorem programs_core {s t : State} (h : programs t = programs s) (c : CoreId) : bare (t.core c) = bare (s.core c) := by
  cases c
  · exact congrArg (·.1) h
  · exact congrArg (·.2.1) h

theorem programs_st {s t : State} (h : programs t = programs s) : t.st = s.st := congrArg (·.2.2) h

theorem programs_setCore {s : State} {c : CoreId} {k : Core} (h : bare k = bare (s.core c)) : programs (s.setCore c k) = programs s := by
  cases c
  · exact congrArg (fun q => (q, bare s.cant, s.st)) h
  · exact congrArg (fun q => (bare s.dec, q, s.st)) h

/-- A bare core keeps its loops, and what a program sees. -/
theorem sameLoops_bare {k q : Core} (h : bare q = bare k) : SameLoops k q :=
  ⟨show (bare q).lpend = (bare k).lpend by rw [h], show (bare q).dla = (bare k).dla by rw [h],
    show (bare q).dle = (bare k).dle by rw [h]⟩

theorem seen_bare {k q : Core} (h : bare q = bare k) :
    q.tiles = k.tiles ∧ q.psr = k.psr ∧ q.cyc = k.cyc ∧ q.gpr = k.gpr ∧ q.sp = k.sp :=
  ⟨show (bare q).tiles = (bare k).tiles by rw [h], show (bare q).psr = (bare k).psr by rw [h], show (bare q).cyc = (bare k).cyc by rw [h],
    show (bare q).gpr = (bare k).gpr by rw [h], show (bare q).sp = (bare k).sp by rw [h]⟩

/-! ### Cores -/

@[simp] theorem bare_unreserve (k : Core) (base : Nat) : bare (k.unreserve base) = bare k := by
  rw [unreserve_eq]
  rfl

@[simp] theorem bare_setPfld (k : Core) (f : Fld) (v : Nat) : bare (k.setPfld f v) = bare k := rfl

@[simp] theorem bare_refused (k : Core) (region : Nat) (write imprecise : Bool) : bare (k.refused region write imprecise) = bare k := by
  simp only [Core.refused, bare_setPfld]

@[simp] theorem bare_raiseNotice (k : Core) (w : World) (a : Nat) : bare (k.raiseNotice w a) = bare k := by
  unfold Core.raiseNotice
  split <;> rfl

/-! ### Registers, memory and lines -/

@[simp] theorem programs_setFld (s : State) (f : Fld) (v : Nat) : programs (s.setFld f v) = programs s := rfl

@[simp] theorem programs_sets (s : State) (l : List (Fld × Nat)) : programs (s.sets l) = programs s := by
  rw [State.sets_eq]
  rfl

@[simp] theorem programs_raise (s : State) (l : List Fld) : programs (s.raise l) = programs s := by
  rw [State.raise_eq]
  rfl

@[simp] theorem programs_count (s : State) (f : Fld) : programs (s.count f) = programs s := rfl

@[simp] theorem programs_countBy (s : State) (f : Fld) (n : Nat) : programs (s.countBy f n) = programs s := rfl

@[simp] theorem programs_used (s : State) (n : Nat) : programs (s.used n) = programs s := rfl

@[simp] theorem programs_mem (s : State) (m : Mem) : programs { s with mem := m } = programs s := rfl

@[simp] theorem programs_setLines (s : State) (c : CacheId) (l : List CLine) : programs (s.setLines c l) = programs s := by
  cases c <;> rfl

@[simp] theorem programs_unreserveOwn (s : State) (c : CacheId) (base : Nat) : programs (s.unreserveOwn c base) = programs s := by
  cases c <;> simp [programs, State.unreserveOwn]

@[simp] theorem programs_unreserveOthers (s : State) (me : Option CacheId) (base : Nat) :
    programs (s.unreserveOthers me base) = programs s := by
  unfold programs State.unreserveOthers
  simp [apply_ite bare]

@[simp] theorem programs_homeStart (s : State) (agent a : Nat) : programs (s.homeStart agent a) = programs s := rfl

@[simp] theorem programs_lineToMemory (s : State) (x : CLine) : programs (s.lineToMemory x) = programs s := rfl

@[simp] theorem programs_mramErr (s : State) (a : Nat) : programs (s.mramErr a) = programs s := by
  unfold State.mramErr
  split <;> rfl

@[simp] theorem programs_violate (s : State) (kind block a data : Nat) : programs (s.violate kind block a data) = programs s := by
  unfold State.violate
  split
  · exact programs_raise _ _
  · rfl

/-! ### Transactions of the caches -/

@[simp] theorem programs_writeBackOut (s : State) (c : CacheId) (base : Nat) : programs (s.writeBackOut c base) = programs s := by
  unfold State.writeBackOut
  split
  · split <;> simp
  · rfl

@[simp] theorem programs_makeRoom (s : State) (c : CacheId) (base : Nat) : programs (s.makeRoom c base) = programs s := by
  unfold State.makeRoom
  dsimp only
  split
  · rfl
  · split <;> simp

@[simp] theorem programs_parityError (s : State) (a : Nat) : programs (s.parityError a) = programs s := by
  unfold State.parityError
  split <;> simp

@[simp] theorem programs_homeRead (s : State) (a n : Nat) : programs (s.homeRead a n).2.2 = programs s := by
  unfold State.homeRead
  split
  · dsimp only
    split
    · simp
    · split <;> simp
  · rfl
  · split <;> simp

@[simp] theorem programs_lineData (s : State) (me : Option CacheId) (base : Nat) (forStore : Bool) :
    programs (s.lineData me base forStore).2.2.2 = programs s := by
  unfold State.lineData
  split
  · rfl
  · split <;> simp

@[simp] theorem programs_invalidateOthers (s : State) (me : Option CacheId) (base : Nat) :
    programs (s.invalidateOthers me base) = programs s := by
  have hdrop : ∀ (l : List CacheId) (t : State),
      programs (l.foldl (fun t c => t.setLines c (dropLine (t.lines c) base)) t) = programs t := by
    intro l
    induction l with
    | nil => exact fun t => rfl
    | cons c l ih => exact fun t => (ih _).trans (programs_setLines _ _ _)
  rw [State.invalidateOthers, programs_unreserveOthers, hdrop]

@[simp] theorem programs_readUnique (s : State) (c : CacheId) (base : Nat) : programs (s.readUnique c base) = programs s := by
  simp [State.readUnique]

@[simp] theorem programs_upgrade (s : State) (c : CacheId) (base : Nat) : programs (s.upgrade c base) = programs s := by
  unfold State.upgrade
  split <;> simp

@[simp] theorem programs_own (s : State) (c : CacheId) (base : Nat) : programs (s.own c base) = programs s := by
  unfold State.own
  split
  · split <;> simp
  · simp

@[simp] theorem programs_storeLine (s : State) (c : CacheId) (a : Nat) (bs : List Byte) : programs (s.storeLine c a bs) = programs s := by
  unfold State.storeLine
  dsimp only
  split <;> simp

@[simp] theorem programs_mramWrite (s : State) (a : Nat) (bs : List Byte) : programs (s.mramWrite a bs) = programs s := by
  exact (programs_mem ((s.mramDone (mramHalf a)).sets _) _).trans ((programs_sets _ _).trans rfl)

/-- WriteUnique's first part: a dirty copy elsewhere is merged into memory. -/
def dirtyMerged (s : State) (me : Option CacheId) (base : Nat) : State :=
  match s.dirtyElsewhere me base with
  | some x => s.lineToMemory x
  | none => s

/-- WriteUnique's third part: the storing core's own copy takes the bytes. -/
def copyTakes (s : State) (me : Option CacheId) (a : Nat) (bs : List Byte) : State :=
  match me with
  | some c =>
    match findLine (s.lines c) (lineOf a) with
    | some x => s.setLines c (putLine (s.lines c) { x with data := spliceBytes x.data (a - lineOf a) bs })
    | none => s
  | none => s

@[simp] theorem programs_dirtyMerged (s : State) (me : Option CacheId) (base : Nat) : programs (dirtyMerged s me base) = programs s := by
  unfold dirtyMerged
  split <;> rfl

@[simp] theorem programs_copyTakes (s : State) (me : Option CacheId) (a : Nat) (bs : List Byte) :
    programs (copyTakes s me a bs) = programs s := by
  unfold copyTakes
  split
  · split <;> simp
  · rfl

@[simp] theorem programs_writeUnique (s : State) (me : Option CacheId) (agent a : Nat) (bs : List Byte) :
    programs (s.writeUnique me agent a bs) = programs s := by
  have hcopies : programs (copyTakes ((dirtyMerged (s.homeStart agent a) me (lineOf a)).invalidateOthers me (lineOf a)) me a bs) =
      programs s := by simp
  unfold State.writeUnique
  dsimp only
  split
  · exact (programs_mramWrite _ a bs).trans hcopies
  · exact hcopies

/-! ### Stores -/

@[simp] theorem programs_busCheck (s : State) (ag : Agent) (w : World) (write : Bool) (a data : Nat) :
    programs (s.busCheck ag w write a data).2 = programs s := by
  unfold State.busCheck
  split
  · rfl
  · rfl
  · rfl
  · split
    · rfl
    · split
      · rfl
      · exact programs_violate _ _ _ _ _
  · split
    · simp
    · rfl
  · split
    · simp
    · rfl
  · rfl

@[simp] theorem programs_putPart (s : State) (c : CoreId) (w : World) (a : Nat) (bs : List Byte) :
    programs (s.putPart c w a bs).2 = programs s := by
  have hunreserve : ∀ t : State, (if c = .decani then { t with dec := t.dec.unreserve (lineOf a) }
      else { t with cant := t.cant.unreserve (lineOf a) }) = t.setCore c ((t.core c).unreserve (lineOf a)) := by
    intro t
    cases c <;> rfl
  have hcheck := programs_busCheck s (.core c) w true a (leNat (bs.take 4))
  unfold State.putPart
  dsimp only
  split
  · split
    · simp only [hunreserve, programs_storeLine, programs_setCore (bare_unreserve _ _), programs_own, hcheck]
    · simp only [hunreserve, programs_writeUnique, programs_setCore (bare_unreserve _ _), hcheck]
    · exact hcheck
    · exact hcheck
  · exact hcheck

@[simp] theorem programs_putParts (s : State) (c : CoreId) (w : World) (l : List (Nat × List Byte)) :
    programs (s.putParts c w l).2 = programs s := by
  induction l generalizing s with
  | nil => rfl
  | cons p l ih => simp only [State.putParts, ih, programs_putPart]

@[simp] theorem programs_drainEntry (s : State) (c : CoreId) (e : SBuf) : programs (s.drainEntry c e) = programs s := by
  unfold State.drainEntry
  dsimp only
  split
  · split
    · simp
    · rw [programs_setCore (by simp), programs_putParts]
  · exact programs_setCore ((bare_raiseNotice _ _ _).trans (bare_refused _ _ _ _))

@[simp] theorem programs_drainOne (s : State) (c : CoreId) : programs (s.drainOne c) = programs s := by
  unfold State.drainOne
  split
  · rfl
  · rw [programs_drainEntry]
    exact programs_setCore rfl

/-- A store that finds no room waits for older ones to drain, and then waits itself (R358). -/
@[simp] theorem programs_bufferStore (s : State) (c : CoreId) (e : SBuf) : programs (s.bufferStore c e) = programs s := by
  have hdrain : ∀ (p : State → Bool) (l : List Nat) (t : State),
      programs (l.foldl (fun t _ => if p t then t else t.drainOne c) t) = programs t := by
    intro p l
    induction l with
    | nil => exact fun t => rfl
    | cons n l ih =>
      intro t
      rw [List.foldl_cons, ih]
      split
      · rfl
      · exact programs_drainOne t c
  refine (programs_setCore ?_).trans (hdrain _ _ _)
  rfl

end Sys2Proof.Proofs
end

section
/-! PROOF. Tiles and memory: O18 (R310, R311, R317, R358). -/

namespace Sys2Proof.Proofs

open Sys2Proof Sys2Proof.Machine

/-! ### Runs cut at lines -/

/-- Every part of a cut run has bytes and lies in the run. -/
theorem lineRuns_within {f a n : Nat} : ∀ p ∈ lineRuns f a n, 0 < p.2 ∧ a ≤ p.1 ∧ p.1 + p.2 ≤ a + n := by
  induction f generalizing a n with
  | zero => intro p hp; simp [lineRuns, lineParts] at hp
  | succ f ih =>
    intro p hp
    rcases Nat.eq_zero_or_pos n with rfl | hn
    · simp [lineRuns, lineParts] at hp
    · rw [lineRuns_succ f a hn, List.mem_cons] at hp
      rcases hp with rfl | hp
      · dsimp only
        omega
      · obtain ⟨hpos, hlo, hhi⟩ := ih p hp
        omega

/-- Below 2 ^ 32 no part of a run wraps. -/
theorem lineRuns_mod {f a n : Nat} (h : a + n ≤ 2 ^ 32) : (lineRuns f a n).map (fun p => (p.1 % 2 ^ 32, p.2)) = lineRuns f a n := by
  refine (List.map_congr_left (g := id) fun p hp => ?_).trans (List.map_id _)
  obtain ⟨hpos, -, hhi⟩ := lineRuns_within p hp
  rw [Nat.mod_eq_of_lt (by omega), id]

theorem areaParts_eq {a n : Nat} (hn : 0 < n) (h : a + n ≤ 2 ^ 32) : areaParts a n = lineRuns 131 a n := by
  rw [areaParts, Nat.mod_eq_of_lt (by omega), lineRuns_mod h]

theorem areaParts_zero (a : Nat) : areaParts a 0 = [] := by simp [areaParts, lineRuns, lineParts]

theorem rowParts_eq {a stride rows bytes : Nat} (hbytes : 0 < bytes) (h : ∀ j < rows, a + j * stride + bytes ≤ 2 ^ 32) :
    rowParts a stride rows bytes = ((List.range rows).map (fun j => lineRuns 3 (a + j * stride) bytes)).flatten := by
  rw [rowParts]
  refine congrArg List.flatten (List.map_congr_left fun j hj => ?_)
  have hrow := h j (List.mem_range.mp hj)
  rw [Nat.mod_eq_of_lt (by omega), lineRuns_mod hrow]

/-- The bytes of a run's parts are the run's. -/
theorem lineRuns_cacheBytes (s : State) (c : CoreId) {f a n : Nat} (hf : a % 32 + n ≤ 32 * f) :
    ((lineRuns f a n).map (fun p => s.cacheBytes c p.1 p.2)).flatten = s.cacheBytes c a n := by
  induction f generalizing a n with
  | zero => rw [Nat.eq_zero_of_not_pos (by omega : ¬ 0 < n)]; rfl
  | succ f ih =>
    rcases Nat.eq_zero_or_pos n with rfl | hn
    · rfl
    · rw [lineRuns_succ f a hn, List.map_cons, List.flatten_cons, ih (by omega), cacheBytes_lineCut]

/-! ### Elements -/

theorem elements_append {xs : List Byte} (h : xs.length % 2 = 0) (ys : List Byte) : elements (xs ++ ys) = elements xs ++ elements ys := by
  induction xs using elements.induct with
  | case1 a b rest ih =>
    have hrest : rest.length % 2 = 0 := by
      simp only [List.length_cons] at h
      omega
    simp only [List.cons_append, elements, ih hrest]
  | case2 xs hshort =>
    rcases xs with _ | ⟨a, _ | ⟨b, rest⟩⟩
    · rfl
    · exact absurd h (by simp)
    · exact absurd rfl (hshort a b rest)

theorem elements_pair {xs : List Byte} (h : xs.length = 2) : elements xs = [leNat xs] := by
  obtain ⟨a, b, rfl⟩ := List.length_eq_two.mp h
  simp [elements, leNat]

/-- The elements of a run of a row. -/
theorem elements_cacheBytes (s : State) (c : CoreId) (a n : Nat) :
    elements (s.cacheBytes c a (2 * n)) = (List.range n).map (fun e => leNat (s.cacheBytes c (a + 2 * e) 2)) := by
  induction n with
  | zero => rfl
  | succ n ih =>
    rw [Nat.mul_succ, ← cacheBytes_append, elements_append (by rw [cacheBytes_length]; omega), ih,
      elements_pair (cacheBytes_length s c _ 2), List.range_succ, List.map_append, List.map_cons, List.map_nil]

/-- Rows of `cols` values one after the other are the values in row-major order. -/
theorem flatten_rows {α : Type} (g : Nat → Nat → α) (rows : Nat) {cols : Nat} (hcols : 0 < cols) :
    ((List.range rows).map (fun j => (List.range cols).map (g j))).flatten =
      (List.range (rows * cols)).map (fun e => g (e / cols) (e % cols)) := by
  induction rows with
  | zero => simp
  | succ rows ih =>
    rw [List.range_succ, List.map_append, List.flatten_append, ih, Nat.succ_mul, List.range_add, List.map_append, List.map_map]
    refine congrArg (_ ++ ·) ?_
    simp only [List.map_cons, List.map_nil, List.flatten_cons, List.flatten_nil, List.append_nil]
    refine List.map_congr_left fun e he => ?_
    have hlt := List.mem_range.mp he
    simp only [Function.comp_apply]
    rw [Nat.mul_add_mod', Nat.mod_eq_of_lt hlt, Nat.mul_comm, Nat.mul_add_div hcols, Nat.div_eq_of_lt hlt, Nat.add_zero]

/-- The elements of a list of rows. -/
theorem elements_flatten {α : Type} (l : List α) (f : α → List Byte) (h : ∀ x ∈ l, (f x).length % 2 = 0) :
    elements (l.map f).flatten = (l.map (fun x => elements (f x))).flatten := by
  induction l with
  | nil => rfl
  | cons x l ih =>
    rw [List.map_cons, List.flatten_cons, elements_append (h x (List.mem_cons_self ..)), ih fun y hy => h y (List.mem_cons_of_mem _ hy),
      List.map_cons, List.flatten_cons]

/-- The elements of a tile's rows in the cache, row by row. -/
theorem elements_rowParts (s : State) (c : CoreId) {a stride rows cols : Nat} (hcols : 0 < cols) (hline : cols ≤ 16)
    (h : ∀ j < rows, a + j * stride + 2 * cols ≤ 2 ^ 32) :
    elements ((rowParts a stride rows (2 * cols)).map (fun p => s.cacheBytes c p.1 p.2)).flatten =
      (List.range (rows * cols)).map (fun e => leNat (s.cacheBytes c (a + e / cols * stride + 2 * (e % cols)) 2)) := by
  have hrows : ((rowParts a stride rows (2 * cols)).map (fun p => s.cacheBytes c p.1 p.2)).flatten =
      ((List.range rows).map (fun j => s.cacheBytes c (a + j * stride) (2 * cols))).flatten := by
    rw [rowParts_eq (by omega) h, List.map_flatten, List.map_map, List.flatten_flatten, List.map_map]
    refine congrArg List.flatten (List.map_congr_left fun j _ => ?_)
    exact lineRuns_cacheBytes s c (by omega)
  rw [hrows, elements_flatten _ _ fun j _ => by rw [cacheBytes_length]; omega]
  simp only [elements_cacheBytes]
  exact flatten_rows (fun j e => leNat (s.cacheBytes c (a + j * stride + 2 * e) 2)) rows hcols

/-! ### Loads out of the data cache -/

theorem hits_range {s : State} {c : CoreId} {a n : Nat} (h : s.hits c a n = true) : 0x20000000 ≤ a ∧ a + n ≤ 0x20080000 := by
  simp only [State.hits, inSram, Bool.and_eq_true, decide_eq_true_eq] at h
  obtain ⟨⟨⟨⟨hrange, -⟩, -⟩, -⟩, -⟩ := h
  exact hrange

theorem inWindow_sram (s : State) {p : Nat × Nat} (hlo : 0x20000000 ≤ p.1) (hhi : p.1 < 0x20080000) : s.inWindow p = false := by
  simp [State.inWindow, region_sram hlo hhi]

section

variable {s : State} {c : CoreId} {ps : List (Nat × Nat)} (h : ∀ p ∈ ps, s.hits c p.1 p.2 = true ∧ 0 < p.2)
include h

theorem hits_inWindow : ∀ p ∈ ps, s.inWindow p = false := by
  intro p hp
  obtain ⟨hhits, hpos⟩ := h p hp
  obtain ⟨hlo, hhi⟩ := hits_range hhits
  exact inWindow_sram s hlo (by omega)

theorem tileSeq_hits :
    s.tileSeq c (s.core c).world (s.core c).sup ps [] = ((.ok (ps.map (fun p => s.cacheBytes c p.1 p.2)).flatten, 0), s) := by
  induction ps with
  | nil => rfl
  | cons p ps ih =>
    obtain ⟨hhits, hpos⟩ := h p (List.mem_cons_self ..)
    have hrest := ih fun q hq => h q (List.mem_cons_of_mem _ hq)
    simp only [State.tileSeq, hits_inWindow h p (List.mem_cons_self ..), Bool.false_eq_true, if_false, loadAt_hit hhits hpos, hrest,
      List.map_cons, List.flatten_cons]

/-- Parts that the data cache serves are read from it, and nothing else changes (R311, R353). -/
theorem tileLoads_hits (base : Nat) :
    s.tileLoads c (s.core c).world (s.core c).sup base ps = ((.ok (ps.map (fun p => s.cacheBytes c p.1 p.2)).flatten, 0), s) := by
  have hnone : ps.filter s.inWindow = [] := by
    rw [List.filter_eq_nil_iff]
    intro p hp
    rw [hits_inWindow h p hp]
    decide
  rw [State.tileLoads, hnone]
  exact tileSeq_hits h

end

/-! ### Where the parts of an access lie -/

theorem areaParts_first {a n : Nat} (ha : a < 2 ^ 32) (hn : 0 < n) : ∃ m, 0 < m ∧ (a, m) ∈ areaParts a n := by
  refine ⟨min (32 - a % 32) n, by omega, ?_⟩
  rw [areaParts, Nat.mod_eq_of_lt ha, lineRuns_succ 130 a hn, List.map_cons, Nat.mod_eq_of_lt ha]
  exact List.mem_cons_self ..

theorem rowParts_first {a stride rows bytes : Nat} (ha : a < 2 ^ 32) (hrows : 0 < rows) (hbytes : 0 < bytes) :
    ∃ m, 0 < m ∧ (a, m) ∈ rowParts a stride rows bytes := by
  refine ⟨min (32 - a % 32) bytes, by omega, ?_⟩
  rw [rowParts, List.mem_flatten]
  refine ⟨_, List.mem_map.mpr ⟨0, List.mem_range.mpr hrows, rfl⟩, ?_⟩
  rw [Nat.zero_mul, Nat.add_zero, Nat.mod_eq_of_lt ha, lineRuns_succ 2 a hbytes, List.map_cons, Nat.mod_eq_of_lt ha]
  exact List.mem_cons_self ..

theorem rowParts_within {a stride rows bytes : Nat} (hbytes : 0 < bytes) (h : ∀ j < rows, a + j * stride + bytes ≤ 2 ^ 32) :
    ∀ p ∈ rowParts a stride rows bytes, 0 < p.2 ∧ ∃ j < rows, a + j * stride ≤ p.1 ∧ p.1 + p.2 ≤ a + j * stride + bytes := by
  intro p hp
  rw [rowParts_eq hbytes h, List.mem_flatten] at hp
  obtain ⟨l, hl, hp⟩ := hp
  obtain ⟨j, hj, rfl⟩ := List.mem_map.mp hl
  obtain ⟨hpos, hin⟩ := lineRuns_within p hp
  exact ⟨hpos, j, List.mem_range.mp hj, hin⟩

theorem lsb_even {w : Word} (h : w.toNat % 2 = 0) : w.getLsbD 0 = false := by
  rw [← BitVec.testBit_toNat, Nat.testBit_zero, h]
  rfl

/-- An even address and stride misalign no element (R311). -/
theorem tmAlign_even (s : State) {base : Word} {stride : Nat} (hbase : base.toNat % 2 = 0) (hstride : stride % 2 = 0) (rows : Nat) :
    s.tmAlign base stride rows = none := by
  rw [State.tmAlign, lsb_even hbase, if_neg (by decide), if_pos hstride]

/-! ### Post-increment -/

theorem postInc_loops (k : Core) (ws : Reg) (inc : Bool) (n : Nat) : SameLoops k (k.postInc ws inc n) := by
  unfold Core.postInc
  split
  · exact Core.setW_loops k ws _
  · exact ⟨rfl, rfl, rfl⟩

theorem setW_keeps (k : Core) (ws : Reg) (v : Word) :
    (k.setW ws v).tiles = k.tiles ∧ (k.setW ws v).psr = k.psr ∧ (k.setW ws v).cyc = k.cyc := by
  unfold Core.setW Core.setSp
  split <;> exact ⟨rfl, rfl, rfl⟩

theorem postInc_keeps (k : Core) (ws : Reg) (inc : Bool) (n : Nat) :
    (k.postInc ws inc n).tiles = k.tiles ∧ (k.postInc ws inc n).psr = k.psr ∧ (k.postInc ws inc n).cyc = k.cyc := by
  unfold Core.postInc
  split
  · exact setW_keeps k ws _
  · exact ⟨rfl, rfl, rfl⟩

theorem postInc_cyc (k : Core) (ws : Reg) (inc : Bool) (n : Nat) : (k.postInc ws inc n).cyc = k.cyc := by
  obtain ⟨-, -, hcyc⟩ := postInc_keeps k ws inc n
  exact hcyc

theorem setW_withCyc (k : Core) (ws : Reg) (v : Word) (n : Nat) : { k with cyc := n }.setW ws v = { k.setW ws v with cyc := n } := by
  unfold Core.setW
  split <;> rfl

theorem postInc_withCyc (k : Core) (ws : Reg) (inc : Bool) (m n : Nat) :
    { k with cyc := n }.postInc ws inc m = { k.postInc ws inc m with cyc := n } := by
  unfold Core.postInc
  split
  · exact setW_withCyc k ws _ n
  · rfl

/-! ### TLD and TRESTORE -/

/-- A core that has loaded a tile out of its cache. -/
def tileLoaded (s : State) (c : CoreId) (t : Fin 8) (rows cols : Nat) (fmt : Fin 3) (a stride : Nat) (k : Core) : Core :=
  k.setTile t ⟨true, rows, cols, fmt.val,
    (List.range (rows * cols)).map (fun e => leNat (s.cacheBytes c (a + e / cols * stride + 2 * (e % cols)) 2))⟩

/-- A header of zeros is valid and describes no live tile (R317). -/
theorem restoreRest_dead (u : State) (c : CoreId) (ws : Reg) (inc : Bool) (base : Nat) (word : Word)
    {load : List (Nat × Nat) → (Got × Nat) × State} (hload : load [] = ((.ok [], 0), u)) :
    u.restoreRest c ws inc base word (List.replicate 32 0) load =
      (u.setCore c ({ u.core c with
        tiles := List.replicate 8 Tile.dead, cyc := (u.core c).cyc + 1 + (areaParts base 32).length }.postInc ws inc 32), .seq) := by
  have hvalid : (List.range 8).find? (fun n => headBad (headWord (List.replicate 32 0) n)) = none := by decide
  have htiles : headTiles (List.replicate 32 0) = List.replicate 8 Tile.dead := by decide
  have hlen : tilesLen (List.replicate 8 Tile.dead) = 0 := by decide
  have hfill : fillTiles (List.replicate 8 Tile.dead) [] = List.replicate 8 Tile.dead := by decide
  simp only [State.restoreRest, hvalid, htiles, hlen, areaParts_zero, hload, State.restoreTiles, hfill, linesTouched, Nat.add_zero]

/-- Cycles that the instruction's own action has counted. -/
theorem retired_counted (s : State) (i : Issue) {f : Core → Core} (n : Nat) (hcyc : (f (found s i)).cyc = (found s i).cyc) :
    s.retired i 0 (fun k => { f k with cyc := k.cyc + n }) = s.retired i n f := by
  simp only [State.retired, hcyc, Nat.add_zero]

section

variable {s : State} {i : Issue} {ws : Reg} {a : Nat} (h : s.issuesOn i = true) (ha : ((found s i).w ws).toNat = a)
include h ha

theorem tld_hits {wt : Reg} {pack : Bool} {r c : Fin 16} {stride : Nat} (hstride : tmStride (found s i) wt pack (c.val + 1) = stride)
    (heven : a % 2 = 0) (hstrideEven : stride % 2 = 0) (hend : a + (r.val + 1) * stride + 32 ≤ 2 ^ 32)
    (hhits : ∀ p ∈ rowParts a stride (r.val + 1) (2 * (c.val + 1)), s.hits i.core p.1 p.2 = true)
    (t : Fin 8) (fmt : Fin 3) (inc : Bool) :
    exec (.tld i t ws wt pack r c fmt inc) s =
      .next (s.retired i (1 + (rowParts a stride (r.val + 1) (2 * (c.val + 1))).length) (fun k =>
        (tileLoaded s i.core t (r.val + 1) (c.val + 1) fmt a stride k).postInc ws inc ((r.val + 1) * stride))) := by
  have hrows : ∀ j < r.val + 1, a + j * stride + 2 * (c.val + 1) ≤ 2 ^ 32 := by
    intro j hj
    have := Nat.mul_le_mul_right stride (Nat.le_of_lt hj)
    omega
  obtain ⟨n, hn, hfirst⟩ := rowParts_first (a := a) (stride := stride) (by omega) (Nat.succ_pos r.val) (by omega : 0 < 2 * (c.val + 1))
  obtain ⟨hlo, hhi⟩ := hits_range (hhits _ hfirst)
  have hloads := tileLoads_hits (s := s.issued i) (c := i.core) (ps := rowParts a stride (r.val + 1) (2 * (c.val + 1)))
    (fun p hp => ⟨by rw [hits_issued]; exact hhits p hp, (rowParts_within (by omega) hrows p hp).1⟩) a
  have hels := elements_rowParts s i.core (Nat.succ_pos c.val) (by omega : c.val + 1 ≤ 16) hrows
  subst ha hstride
  refine congrArg Host.Outcome.next (instr_retires h
    (fun k => 1 + (rowParts (k.w ws).toNat (tmStride k wt pack (c.val + 1)) (r.val + 1) (2 * (c.val + 1))).length) ?body ?loops)
  case body =>
    simp only [privSpace_below (by omega : ((found s i).w ws).toNat < 0xE0000000), Bool.false_and, Bool.false_eq_true, if_false,
      tmAlign_even _ heven hstrideEven, hloads, cacheBytes_issued, hels]
    rfl
  case loops => exact postInc_loops _ ws inc _

/-- TRESTORE of a header of zeros out of the cache leaves every tile dead. -/
theorem trestore_dead (halign : a % 4 = 0) (hhits : ∀ p ∈ areaParts a 32, s.hits i.core p.1 p.2 = true)
    (hzero : s.cacheBytes i.core a 32 = List.replicate 32 0) (hask : s.hl.winAsk = none) (hans : s.hl.winAns = none) (inc : Bool) :
    exec (.trestore i ws inc) s = .next (s.retired i (1 + (areaParts a 32).length) (fun k =>
      { k with tiles := List.replicate 8 Tile.dead }.postInc ws inc 32)) := by
  have hword : a < 2 ^ 32 := ha ▸ ((found s i).w ws).isLt
  obtain ⟨n, hn, hfirst⟩ := areaParts_first hword (by decide : 0 < 32)
  obtain ⟨hlo, hhi⟩ := hits_range (hhits _ hfirst)
  dsimp only at hlo hhi
  have hparts := areaParts_eq (a := a) (by decide : 0 < 32) (by omega)
  have hbytes : ((areaParts a 32).map (fun p => s.cacheBytes i.core p.1 p.2)).flatten = List.replicate 32 0 := by
    rw [hparts, lineRuns_cacheBytes s i.core (by omega), hzero]
  have hloads := tileLoads_hits (s := s.issued i) (c := i.core) (ps := areaParts a 32) (fun p hp =>
    ⟨by rw [hits_issued]; exact hhits p hp, (lineRuns_within p (hparts ▸ hp)).1⟩) a
  simp only [cacheBytes_issued, hbytes] at hloads
  have hdead := restoreRest_dead (s.issued i) i.core ws inc a (wordTM 0 ws 0 false 0 0 0 3 inc)
    (load := fun ps => (s.issued i).tileLoads i.core ((found s i).world) ((found s i).sup) (a + 32) ps) rfl
  refine congrArg Host.Outcome.next ((instr_retires h (fun _ => 0) (f := fun k => { k with
    tiles := List.replicate 8 Tile.dead, cyc := k.cyc + 1 + (areaParts a 32).length }.postInc ws inc 32) ?body ?loops).trans ?cycles)
  case body =>
    have hhl : (s.issued i).hl = s.hl := by rw [State.issued, State.setCore_hl]
    simp only [ha, privSpace_below (by omega : a < 0xE0000000), Bool.false_and, Bool.false_eq_true, if_false, halign, bne_self_eq_false,
      hhl, hask, hans, Option.any_none, hloads, hdead]
  case loops => exact postInc_loops _ ws inc _
  case cycles =>
    refine Eq.trans (retired_congr ?_) (retired_counted s i (1 + (areaParts a 32).length) (postInc_cyc _ ws inc 32))
    rw [Nat.add_assoc]
    exact postInc_withCyc { found s i with tiles := List.replicate 8 Tile.dead } ws inc 32 _

end

/-! ### Stores of tiles -/

/-- A store to SRAM that waits for no self-test slice enters the store buffer (R358). -/
theorem storeAt_sram {s : State} {a : Nat} (hlo : 0x20000000 ≤ a) (hhi : a < 0x20080000) (hwaits : s.accessWaits a = false) (c : CoreId)
    (w : World) (sup : Bool) (bs : List Byte) : s.storeAt c w sup a bs = (.ok [], s.bufferStore c ⟨w, sup, a, false, a, bs⟩) := by
  simp only [State.storeAt, privSpace_below (by omega : a < 0xE0000000), Bool.false_and, Bool.false_eq_true, if_false,
    region_sram hlo hhi, Region.type, hwaits]

/-- While no self-test runs no access waits. -/
theorem accessWaits_idle {s : State} (h : s.st.running = false) {a : Nat} (hlo : 0x20000000 ≤ a) (hhi : a < 0x20080000) :
    s.accessWaits a = false := by
  simp [State.accessWaits, State.inSlice, h, region_sram hlo hhi]

/-- Parts in SRAM are stored, whatever the buffer has to drain for them; programs see nothing of it. -/
theorem tileStores_sram {ps : List (Nat × Nat)} (hps : ∀ p ∈ ps, 0x20000000 ≤ p.1 ∧ p.1 < 0x20080000) (c : CoreId) (w : World)
    (sup : Bool) {s : State} (hidle : s.st.running = false) (bs : List Byte) :
    ∃ u, s.tileStores c w sup ps bs = ((.ok [], 0), u) ∧ programs u = programs s := by
  induction ps generalizing s bs with
  | nil => exact ⟨s, rfl, rfl⟩
  | cons p ps ih =>
    obtain ⟨hlo, hhi⟩ := hps p (List.mem_cons_self ..)
    have hbuffered := programs_bufferStore s c ⟨w, sup, p.1, false, p.1, bs.take p.2⟩
    obtain ⟨u, hstores, hu⟩ := ih (fun q hq => hps q (List.mem_cons_of_mem _ hq))
      (s := s.bufferStore c ⟨w, sup, p.1, false, p.1, bs.take p.2⟩) (by rw [programs_st hbuffered]; exact hidle) (bs.drop p.2)
    refine ⟨u, ?_, hu.trans hbuffered⟩
    rw [State.tileStores, storeAt_sram hlo hhi (accessWaits_idle hidle hlo hhi)]
    exact hstores

/-- One part that the empty buffer takes. -/
theorem tileStores_one {s : State} {c : CoreId} {a n : Nat} (htakes : s.takesStore c a n = true) (hn : 0 < n) (hroom : n ≤ 32) (w : World)
    (sup : Bool) {bs : List Byte} (hbs : bs.length = n) : s.tileStores c w sup [(a, n)] bs =
      ((.ok [], 0), s.setCore c { s.core c with sbuf := [⟨w, sup, a, false, a, bs⟩] }) := by
  obtain ⟨⟨hlo, hhi⟩, hwaits, hbuf⟩ := (takesStore_iff s c a n).mp htakes
  have hcost : SBuf.cost ⟨w, sup, a, false, a, bs⟩ ≤ 4 := by
    simp only [SBuf.cost, hbs]
    omega
  rw [State.tileStores, storeAt_sram hlo (by omega) hwaits, List.take_of_length_le (Nat.le_of_eq hbs),
    State.bufferStore_empty s c _ hbuf hcost]
  rfl

theorem takesStore_issued (s : State) (i : Issue) (a n : Nat) : (s.issued i).takesStore i.core a n = s.takesStore i.core a n := by
  simp only [State.takesStore, accessWaits_issued]
  rw [State.core_issued]

theorem lineRuns_one {f a n : Nat} (hn : 0 < n) (hline : lineOf (a + n - 1) = lineOf a) : lineRuns (f + 2) a n = [(a, n)] := by
  rw [lineRuns, lineParts_one f (by simpa using Nat.ne_of_gt hn) (by rw [List.length_replicate]; exact hline)]
  simp

theorem leBytes_length (n v : Nat) : (leBytes n v).length = n := by
  induction n generalizing v with
  | zero => rfl
  | succ n ih => rw [leBytes, List.length_cons, ih]

theorem elBytes_length (l : List Nat) : (elBytes l).length = 2 * l.length := by
  induction l with
  | nil => rfl
  | cons v l ih =>
    rw [elBytes] at ih ⊢
    rw [List.map_cons, List.flatten_cons, List.length_append, ih, leBytes_length, List.length_cons]
    omega

section

variable {s : State} {i : Issue} {ws wt : Reg} {pack : Bool} {r c : Fin 16} {fmt : Fin 3} {t : Fin 8} {a stride : Nat}
  (h : s.issuesOn i = true) (ha : ((found s i).w ws).toNat = a) (hstride : tmStride (found s i) wt pack (c.val + 1) = stride)
  (htile : TileFits (found s i) t (r.val + 1) (c.val + 1) fmt) (heven : a % 2 = 0) (hstrideEven : stride % 2 = 0)
include h ha hstride htile heven hstrideEven

/-- TST of a tile whose parts are stored goes on in sequence (R310, R311). -/
theorem tst_stored {u : State} (hlow : a < 0xE0000000)
    (hstores : (s.issued i).tileStores i.core (found s i).world (found s i).sup (rowParts a stride (r.val + 1) (2 * (c.val + 1)))
      (elBytes ((found s i).tile t).el) = ((.ok [], 0), u))
    (hkeeps : SameLoops (found s i) (u.core i.core)) (inc : Bool) : exec (.tst i t ws wt pack r c fmt inc) s =
    .next (u.setCore i.core { (u.core i.core).postInc ws inc ((r.val + 1) * stride) with
      cyc := (u.core i.core).cyc + (1 + (rowParts a stride (r.val + 1) (2 * (c.val + 1))).length)
      pc := (found s i).pc + issueLen i }) := by
  subst ha hstride
  have hissues := State.issuesOn_issues h
  obtain ⟨hlpend, hdla, hdle⟩ := hkeeps
  obtain ⟨hlpend', hdla', hdle'⟩ :=
    postInc_loops (u.core i.core) ws inc ((r.val + 1) * tmStride (found s i) wt pack (c.val + 1))
  have hsrc : (found s i).checkSources [t.val] (r.val + 1) (c.val + 1) fmt = none :=
    checkSources_fit (List.forall_mem_singleton.mpr htile)
  refine congrArg Host.Outcome.next ((instr_goesOn hissues
    (fun k => 1 + (rowParts (k.w ws).toNat (tmStride k wt pack (c.val + 1)) (r.val + 1) (2 * (c.val + 1))).length)
    (u := u.setCore i.core ((u.core i.core).postInc ws inc ((r.val + 1) * tmStride (found s i) wt pack (c.val + 1))))
    ?body ?lpend ?ends).trans ?_)
  case body =>
    simp only [privSpace_below hlow, Bool.false_and, Bool.false_eq_true, if_false, hsrc, tmAlign_even _ heven hstrideEven, hstores]
  case lpend => rw [State.core_setCore, hlpend', hlpend, found_lpend hissues]
  case ends =>
    intro n hn
    rw [State.core_setCore, hdla', hdle', hdla, hdle]
    exact found_straight h hn
  · rw [State.core_setCore, State.setCore_setCore, postInc_cyc]

/-- TST of one row within one line, into an empty buffer. -/
theorem tst_oneLine (hlen : ((found s i).tile t).el.length = c.val + 1)
    (htakes : s.takesStore i.core a (2 * (c.val + 1)) = true) (hrow : r.val + 1 = 1)
    (hline : lineOf (a + 2 * (c.val + 1) - 1) = lineOf a) (inc : Bool) :
    exec (.tst i t ws wt pack r c fmt inc) s = .next (s.retired i 2 (fun k =>
      (k.stored a (elBytes ((found s i).tile t).el)).postInc ws inc ((r.val + 1) * stride))) := by
  obtain ⟨⟨hlo, hhi⟩, -, -⟩ := (takesStore_iff s i.core a _).mp htakes
  have hparts : rowParts a stride (r.val + 1) (2 * (c.val + 1)) = [(a, 2 * (c.val + 1))] := by
    rw [hrow, rowParts_eq (by omega) (by intro j hj; rw [Nat.lt_one_iff.mp hj]; omega)]
    simp [lineRuns_one (f := 1) (by omega : 0 < 2 * (c.val + 1)) hline]
  have hstores := tileStores_one (s := s.issued i) (c := i.core) (by rw [takesStore_issued]; exact htakes) (by omega) (by omega)
    (found s i).world (found s i).sup (bs := elBytes ((found s i).tile t).el) (by rw [elBytes_length, hlen])
  rw [tst_stored h ha hstride htile heven hstrideEven (by omega) (by rw [hparts]; exact hstores)
    (by rw [State.core_setCore]; exact ⟨rfl, rfl, rfl⟩) inc, hparts]
  simp only [State.core_setCore, State.setCore_setCore, State.issued_setCore, State.retired, postInc_cyc]
  rfl

/-- TST of any number of lines completes: programs see only the next address, the cycles and the post-increment. -/
theorem tst_sram (hsram : ∀ j < r.val + 1, inSram (a + j * stride) (2 * (c.val + 1)) = true) (hidle : s.st.running = false) (inc : Bool) :
    ∃ v, programs v = programs (s.issued i) ∧ exec (.tst i t ws wt pack r c fmt inc) s =
      .next (v.setCore i.core { (v.core i.core).postInc ws inc ((r.val + 1) * stride) with
        cyc := (v.core i.core).cyc + (1 + (rowParts a stride (r.val + 1) (2 * (c.val + 1))).length)
        pc := (found s i).pc + issueLen i }) := by
  simp only [inSram, Bool.and_eq_true, decide_eq_true_eq] at hsram
  have hparts : ∀ p ∈ rowParts a stride (r.val + 1) (2 * (c.val + 1)), 0x20000000 ≤ p.1 ∧ p.1 < 0x20080000 := by
    intro p hp
    obtain ⟨hpos, j, hj, hlo, hhi⟩ := rowParts_within (by omega) (fun j hj => by have := hsram j hj; omega) p hp
    have := hsram j hj
    omega
  have hlow : a < 0xE0000000 := by
    have := hsram 0 (Nat.succ_pos _)
    omega
  obtain ⟨v, hstores, hv⟩ := tileStores_sram hparts i.core (found s i).world (found s i).sup (s := s.issued i)
    (by rw [State.issued, State.setCore_st]; exact hidle) (elBytes ((found s i).tile t).el)
  exact ⟨v, hv, tst_stored h ha hstride htile heven hstrideEven hlow hstores
    (sameLoops_bare (programs_core hv i.core)) inc⟩

end

/-! ### TSAVE -/

/-- The save area of a core with no live tile is a header of zeros (R317). -/
theorem saveArea_dead {k : Core} (h : ∀ j < 8, (k.tile j).use = false) (s : State) : s.saveArea k = List.replicate 32 0 := by
  have hheader : (List.range 8).map (fun n => leBytes 4 (tshape (k.tile n))) = (List.range 8).map (fun _ => leBytes 4 0) :=
    List.map_congr_left fun n hn => by rw [tshape, h n (List.mem_range.mp hn)]; rfl
  have hdata : (List.range 8).map (fun n =>
      let t := k.tile n
      if t.use then (elBytes t.el ++ freeBytes (s.free + 2 * n) 2).take (areaBytes t.el.length) else []) =
        (List.range 8).map (fun _ => []) :=
    List.map_congr_left fun n hn => by simp only [h n (List.mem_range.mp hn), Bool.false_eq_true, if_false]
  rw [State.saveArea, hheader, hdata]
  decide

theorem used_core (s : State) (n : Nat) (c : CoreId) : (s.used n).core c = s.core c := by
  cases c <;> rfl

theorem used_issued (s : State) (n : Nat) (i : Issue) (k : Core) :
    ((s.issued i).used n).setCore i.core k = (s.used n).setCore i.core k := by
  obtain ⟨c, _, _⟩ := i
  cases c <;> rfl

theorem used_inSlice (s : State) (n : Nat) : (s.used n).inSlice = s.inSlice := by
  funext lo hi
  simp only [State.inSlice, State.used]

theorem used_accessWaits (s : State) (n a : Nat) : (s.used n).accessWaits a = s.accessWaits a := by
  unfold State.accessWaits
  rw [used_inSlice]

theorem used_takesStore (s : State) (n : Nat) (c : CoreId) (a m : Nat) : (s.used n).takesStore c a m = s.takesStore c a m := by
  simp only [State.takesStore, used_accessWaits, used_core]

theorem tsave_dead {s : State} {i : Issue} {ws : Reg} {a : Nat} (h : s.issuesOn i = true) (ha : ((found s i).w ws).toNat = a)
    (halign : a % 32 = 0) (htakes : s.takesStore i.core a 32 = true) (hdead : ∀ j < 8, ((found s i).tile j).use = false) (inc : Bool) :
    exec (.tsave i ws inc) s = .next ((s.used 16).retired i 2 (fun k => (k.stored a (List.replicate 32 0)).postInc ws inc 32)) := by
  subst ha
  obtain ⟨⟨hlo, hhi⟩, -, -⟩ := (takesStore_iff s i.core _ 32).mp htakes
  have hparts : areaParts ((found s i).w ws).toNat 32 = [(((found s i).w ws).toNat, 32)] := by
    rw [areaParts_eq (by decide) (by omega)]
    exact lineRuns_one (f := 129) (by decide) (by simp only [lineOf]; omega)
  have hsave : saveParts ((found s i).w ws).toNat 32 = [(((found s i).w ws).toNat, 32)] := by
    rw [saveParts, hparts, areaParts_zero, List.append_nil]
  have hused : ((s.issued i).used 16).takesStore i.core ((found s i).w ws).toNat 32 = true := by
    rw [used_takesStore, takesStore_issued]
    exact htakes
  have hstores := tileStores_one hused (by decide) (by decide) (found s i).world (found s i).sup (bs := List.replicate 32 0) rfl
  refine congrArg Host.Outcome.next ((instr_retiresIn h (used_core s 16 i.core)
    (fun k => 1 + linesTouched (k.w ws).toNat (s.saveArea k).length)
    (f := fun k => (k.stored ((found s i).w ws).toNat (List.replicate 32 0)).postInc ws inc 32) ?body ?loops).trans ?cycles)
  case body =>
    simp only [privSpace_below (by omega : ((found s i).w ws).toNat < 0xE0000000), Bool.false_and, Bool.false_eq_true, if_false,
      (by omega : ((found s i).w ws).toNat % 4 = 0), bne_self_eq_false, saveArea_dead hdead, List.length_replicate, hsave, hstores,
      State.core_setCore, State.setCore_setCore, used_core, used_issued]
    rfl
  case loops => exact postInc_loops _ ws inc 32
  case cycles => rw [saveArea_dead hdead, List.length_replicate, linesTouched, hparts]; rfl

/-- Settles O18: TLD and TRESTORE by `tld_hits` and `trestore_dead`, TST by `tst_oneLine` and `tst_sram`, TSAVE by `tsave_dead`. -/
theorem tileMemory : Obligations.TileMemory := by
  unfold Obligations.TileMemory
  refine ⟨fun s i t ws wt pack r c fmt inc h => ?loads, fun s i t ws wt pack r c fmt inc h => ?stores⟩
  case loads =>
    intro k R C a stride
    refine ⟨fun heven hstrideEven hend hhits => ?tld, fun halign hhits hzero hask hans => ?trestore⟩
    case tld => exact tld_hits h rfl rfl heven hstrideEven hend hhits t fmt inc
    case trestore => exact trestore_dead h rfl halign hhits hzero hask hans inc
  case stores =>
    intro k R C a stride bytes good parts move
    refine ⟨fun hgood heven hstrideEven htakes hrow hline => ?one, fun hgood heven hstrideEven hsram hidle => ?many,
      fun halign htakes hdead => ?tsave⟩
    case one =>
      obtain ⟨huse, hrows, hcols, hfmt, hlen⟩ := hgood
      have hfirst : s.takesStore i.core a (2 * C) = true := by simpa using htakes 0 (Nat.succ_pos _)
      refine tst_oneLine h rfl rfl ⟨huse, hrows, hcols, hfmt⟩ heven hstrideEven ?_ hfirst hrow hline inc
      rw [hlen, hrow, Nat.one_mul]
    case many =>
      obtain ⟨huse, hrows, hcols, hfmt, -⟩ := hgood
      obtain ⟨v, hv, hexec⟩ := tst_sram h rfl rfl ⟨huse, hrows, hcols, hfmt⟩ heven hstrideEven hsram hidle inc
      obtain ⟨htiles, hpsr, hcyc, hgpr, hsp⟩ := seen_bare (programs_core hv i.core)
      refine ⟨_, hexec, ?_⟩
      rw [State.core_setCore]
      obtain ⟨htiles', hpsr', -⟩ := postInc_keeps (v.core i.core) ws inc (R * stride)
      refine ⟨rfl, htiles'.trans htiles, hpsr'.trans hpsr, ?cyc, ?regs⟩
      case cyc =>
        dsimp only
        rw [hcyc, ← Nat.add_assoc]
        rfl
      case regs =>
        rintro rfl
        exact ⟨hgpr, hsp⟩
    case tsave => exact tsave_dead h rfl halign htakes hdead inc

end Sys2Proof.Proofs
end

section
/-! PROOF. Memory control, block 14 (R330, R349, R353), and what the access codes record of a write they vet (R4, R379, R395). -/

namespace Sys2Proof.Proofs

open Sys2Proof Sys2Proof.Machine

/-! ### Violations and held cuts -/

/-- The fields in which a refused write or a held cut shows. -/
def vetFields : List Fld := [fSACFLAG_VLDROP, fSACDEFER_DEFER, fSACDEFER_RST]

/-- From `s` to `t` the Sacristy's records may change with the fields that show them, and nothing else that a program sees. -/
structure Recorded (s t : State) : Prop where
  kept : ∀ g, vetFields.all (fun f => f.other g) = true → t.fld g = s.fld g
  slp : t.slp = s.slp
  besidesAll : s.besidesAll t

namespace Recorded

variable {s t u : State}

theorem refl (s : State) : Recorded s s := ⟨fun _ _ => rfl, rfl, s.besidesAll_refl⟩

theorem trans (h : Recorded s t) (k : Recorded t u) : Recorded s u :=
  ⟨fun g hg => (k.kept g hg).trans (h.kept g hg), k.slp.trans h.slp, State.besidesAll_trans h.besidesAll k.besidesAll⟩

theorem ite {c : Prop} [Decidable c] (h : Recorded s t) (k : Recorded s u) : Recorded s (if c then t else u) := by
  split
  · exact h
  · exact k

theorem ofWrites (h : Writes vetFields s t) : Recorded s t := ⟨h.kept, by rw [h.regs], h.besidesAll⟩

theorem setSac (s : State) (x : Sac) : Recorded s { s with sac := x } :=
  ⟨fun _ _ => rfl, rfl, ⟨rfl, rfl, rfl, rfl, rfl, rfl⟩, rfl, rfl, rfl, rfl, rfl, rfl⟩

theorem dec (h : Recorded s t) : t.dec = s.dec := by
  obtain ⟨⟨-, hdec, -⟩, -⟩ := h.besidesAll
  exact hdec

theorem cant (h : Recorded s t) : t.cant = s.cant := by
  obtain ⟨⟨-, -, hcant, -⟩, -⟩ := h.besidesAll
  exact hcant

theorem mem (h : Recorded s t) : t.mem = s.mem := by
  obtain ⟨-, hmem, -⟩ := h.besidesAll
  exact hmem

end Recorded

theorem violate_recorded (s : State) (kind block a data : Nat) : Recorded s (s.violate kind block a data) := by
  unfold State.violate
  exact .ite ((Recorded.setSac s _).trans (.ofWrites ((Writes.refl _ _).setFld (by decide) 1))) (.setSac s _)

theorem deferSync_recorded (s : State) : Recorded s s.deferSync := .ofWrites ((sets_writes s _).mono (by simp [vetFields]))

theorem holdCuts_recorded (s : State) (a : Nat) (v : Word) : Recorded s (s.holdCuts a v).1 := by
  unfold State.holdCuts
  dsimp only
  split
  · exact (Recorded.setSac s _).trans (deferSync_recorded _)
  · exact ((Recorded.setSac s _).trans (violate_recorded _ _ _ _ _)).trans (deferSync_recorded _)

/-- Vetting a write records what it refuses or holds, and does nothing else (R4, R379). -/
theorem vet_recorded (s : State) (w : World) (a : Nat) (v : Word) : Recorded s (s.vet w a v).st := by
  unfold State.vet
  split
  · exact .refl s
  · dsimp only
    split
    · exact .refl s
    · exact Recorded.trans (.ite (violate_recorded s _ _ _ _) (.refl s)) (holdCuts_recorded _ _ _)

/-! ### MRSEGSAC -/

theorem specOf_mrsegsac : specOf rMRSEGSAC = some ⟨0x4000E014, 1, 0, 0, 0, 0, 0, 0xFFFFFFFF, 0, 0⟩ := by decide +kernel

theorem unreserveOwn_regs (s : State) (c : CacheId) (base : Nat) : (s.unreserveOwn c base).regs = s.regs := by
  cases c <;> rfl

theorem setLines_regs (s : State) (c : CacheId) (l : List CLine) : (s.setLines c l).regs = s.regs := by
  cases c <;> rfl

theorem dropMram_regs (s : State) : s.dropMram.regs = s.regs := by
  unfold State.dropMram
  dsimp only
  rw [setLines_regs, setLines_regs]
  refine List.foldlRecOn (motive := fun t : State => t.regs = s.regs) _ _ rfl fun t ht c _ => ?_
  exact List.foldlRecOn (motive := fun u : State => u.regs = s.regs) _ _ ht fun u hu x _ => (unreserveOwn_regs u c x.base).trans hu

/-- Neither core's cache holds an MRAM line afterwards (R353). -/
theorem dropMram_lines (s : State) :
    (∀ x ∈ s.dropMram.dec.dc, region x.base ≠ .mram) ∧ (∀ x ∈ s.dropMram.cant.dc, region x.base ≠ .mram) := by
  have hkept (l : List CLine) : ∀ x ∈ l.filter (fun x => !decide (region x.base = .mram)), region x.base ≠ .mram := by
    intro x hx
    simpa using (List.mem_filter.mp hx).2
  exact ⟨hkept _, hkept _⟩

/-- A field of a whole register reads as the register. -/
theorem fldOf_whole (v : Word) {f : Fld} (hlo : f.lo = 0) (hw : f.w = 32) : fldOf v f = v.toNat := by
  rw [fldOf, BitVec.extractLsb'_toNat, hlo, hw, Nat.shiftRight_zero, Nat.mod_eq_of_lt v.isLt]

/-- MRSEGSAC written by the Sacristy: it takes the value, and the MRAM lines leave the caches (R353). -/
theorem mrsegWrite_sacristy (s : State) (v : Word) : ∃ t, exec (.mrsegWrite .sacristy false v) s = .next t ∧
    t.fld fMRSEGSAC_SAC = v.toNat ∧ (∀ x ∈ t.dec.dc, region x.base ≠ .mram) ∧ (∀ x ∈ t.cant.dc, region x.base ≠ .mram) := by
  have hexec : exec (.mrsegWrite .sacristy false v) s = .next (s.plainWrite rMRSEGSAC v).dropMram := by
    change Host.Outcome.next (s.memBus .sacristy rMRSEGSAC v) = _
    rw [State.memBus, vet_sacristy s v specOf_mrsegsac]
    rfl
  refine ⟨_, hexec, ?value, dropMram_lines _⟩
  rw [fld_of_regs (dropMram_regs _), fld_plainWrite_stored s v specOf_mrsegsac rfl (by decide)]
  exact fldOf_whole v rfl rfl

/-- A Nave write of MRSEGSAC does not act (R353). -/
theorem mrsegWrite_nave (s : State) (v : Word) : ∃ t, exec (.mrsegWrite .nave false v) s = .next t ∧
    t.fld fMRSEGSAC_SAC = s.fld fMRSEGSAC_SAC ∧ t.dec = s.dec ∧ t.mem = s.mem := by
  have hvet := vet_recorded s .nave rMRSEGSAC v
  exact ⟨_, rfl, hvet.kept _ (by decide), hvet.dec, hvet.mem⟩

/-! ### MRERRADDR and the halves of MRAM -/

/-- Any write of MRERRADDR clears it (R349). -/
theorem mrerraddrClear_clears (s : State) (w : World) : ∃ t, exec (.mrerraddrClear w) s = .next t ∧
    t.fld fMRERRADDR_ADDR = 0 ∧ t.mem = s.mem ∧ t.dec = s.dec ∧ t.cant = s.cant := by
  have hvet := vet_recorded s w rMRERRADDR 0
  have hexec : exec (.mrerraddrClear w) s = .next ((s.vet w rMRERRADDR 0).st.setFld fMRERRADDR_ADDR 0) :=
    congrArg Host.Outcome.next (if_neg fun ⟨_, h⟩ => absurd h (by decide))
  exact ⟨_, hexec, State.fld_setFld _ _ _ (by decide), hvet.mem, hvet.dec, hvet.cant⟩

theorem mramPowerDown_idle {s : State} {h : Fin 2} (hbusy : s.on (fBUSY h.val) = false) :
    exec (.mramPowerDown h) s = .next (s.setFld (fUP h.val) 0) :=
  congrArg Host.Outcome.next (if_neg (by simp [hbusy]))

theorem mramPowerDown_busy {s : State} {h : Fin 2} (hbusy : s.on (fBUSY h.val) = true) : exec (.mramPowerDown h) s = .next s :=
  congrArg Host.Outcome.next (if_pos hbusy)

end Sys2Proof.Proofs
end

section
/-! PROOF. The windows of the sample buffer: SBWnCFG and SBWnRP written (R337, R343, R347). -/

namespace Sys2Proof.Proofs

open Sys2Proof Sys2Proof.Machine

/-! ### The registers of a window -/

theorem specOf_sbwcfg (n : Fin 3) : specOf (rSBWCFG n.val) = some ⟨0x4000F000, 3, 32, 0x1FFEFFE1, 0, 0, 0, 0, 0, 0⟩ := by
  revert n
  decide +kernel

theorem specOf_sbwrp (n : Fin 3) : specOf (rSBWRP n.val) = some ⟨0x4000F00C, 3, 32, 0x3FFFF, 0, 0, 0, 0, 0, 0⟩ := by
  revert n
  decide +kernel

/-- A register within the 32 bytes from SBWnCFG belongs to window n. -/
theorem window_index (n : Fin 3) {o : Nat} (ho : o < 32) : (rSBWCFG n.val + o - rSBWCFG 0) / 0x20 = n.val := by
  simp only [rSBWCFG]
  omega

theorem sbBus_cfg (s : State) (n : Fin 3) (v : Word) : s.sbBus .sacristy (rSBWCFG n.val) v = s.winCfg n.val v := by
  have hn : (rSBWCFG n.val - rSBWCFG 0) / 0x20 = n.val := window_index n (o := 0) (by decide)
  simp only [State.sbBus, vet_sacristy s v (specOf_sbwcfg n), State.sbWrite, hn, if_neg (Nat.not_le_of_lt n.isLt), if_true]

theorem sbBus_rp (s : State) (n : Fin 3) (v : Word) : s.sbBus .sacristy (rSBWRP n.val) v = s.winRp n.val v := by
  have ha : rSBWRP n.val = rSBWCFG n.val + 12 := by
    simp only [rSBWRP, rSBWCFG]
    omega
  have hn : (rSBWRP n.val - rSBWCFG 0) / 0x20 = n.val := by rw [ha, window_index n (by decide)]
  have hcfg : rSBWRP n.val ≠ rSBWCFG n.val := by omega
  have hsize : rSBWRP n.val ≠ rSBWSIZE n.val := by
    simp only [rSBWRP, rSBWSIZE]
    omega
  simp only [State.sbBus, vet_sacristy s v (specOf_sbwrp n), State.sbWrite, hn, if_neg (Nat.not_le_of_lt n.isLt), if_neg hcfg, if_neg hsize,
    if_true]

/-- The fields that follow a window's pointers (Table 15.9). -/
def fillFields (n : Nat) : List Fld := [fSBWFILL_FILLED n, fFILL n]

theorem winSync_writes (s : State) (n : Nat) : Writes (fillFields n) s (s.winSync n) :=
  (sets_writes s _).mono (by simp [fillFields])

/-! ### EN written -/

/-- SBWnCFG written with EN changed alone. -/
def enWritten (s : State) (n b : Nat) : State := s.plainWrite (rSBWCFG n) (putFld (s.reg (rSBWCFG n)) (fSBWCFG_EN n) b)

theorem enWritten_writes (s : State) (n b : Nat) : Writes [wholeReg (rSBWCFG n)] s (enWritten s n b) :=
  plainWrite_writes s _ (List.mem_singleton_self _)

theorem enWritten_en (s : State) (n : Fin 3) (b : Bool) : (enWritten s n.val (b2n b)).on (fSBWCFG_EN n.val) = b := by
  have hstored : (enWritten s n.val (b2n b)).fld (fSBWCFG_EN n.val) = b2n b % 2 ^ 1 := by
    rw [enWritten, fld_plainWrite_stored s _ (specOf_sbwcfg n) rfl (by simp only [fSBWCFG_EN]; decide)]
    exact fldOf_putFld _ _ _ (by simp [fSBWCFG_EN])
  rw [State.on, hstored]
  cases b <;> rfl

/-- A field of another register does not follow a window's SBWnCFG. -/
theorem cfg_other {n : Nat} {g : Fld} (h : g.addr ≠ rSBWCFG n) : [wholeReg (rSBWCFG n)].all (fun f => f.other g) = true := by
  simp [Fld.other, wholeReg, h.symm]

theorem rSBWCFG_ne {m n : Nat} (h : m ≠ n) : rSBWCFG m ≠ rSBWCFG n := by
  simp only [rSBWCFG]
  omega

theorem enWritten_base (s : State) (n : Fin 3) (b m : Nat) : (enWritten s n.val b).fld (fSBWCFG_BASE m) = s.fld (fSBWCFG_BASE m) := by
  by_cases hm : m = n.val
  · subst hm
    rw [enWritten, fld_plainWrite_stored s _ (specOf_sbwcfg n) rfl (by simp only [fSBWCFG_BASE]; decide)]
    exact fldOf_putFld_apart _ _ _ _ (by simp [Fld.apart, fSBWCFG_EN, fSBWCFG_BASE])
  · exact (enWritten_writes s n.val b).kept _ (cfg_other (rSBWCFG_ne hm))

/-- Whether a window may be enabled does not turn on its own EN (R347). -/
theorem enWritten_winFits (s : State) (n : Fin 3) (b : Nat) : (enWritten s n.val b).winFits n.val = s.winFits n.val := by
  have hwrites := enWritten_writes s n.val b
  have hbase (m : Nat) : (enWritten s n.val b).winBase m = s.winBase m := congrArg (· * 32) (enWritten_base s n b m)
  have hsize (m : Nat) : (enWritten s n.val b).winSize m = s.winSize m :=
    congrArg (· * 32) (hwrites.kept (fSBWSIZE_SIZE m) (cfg_other (by simp only [fSBWSIZE_SIZE, rSBWSIZE, rSBWCFG]; omega)))
  have hclear (m : Nat) (p : Bool) : (decide (m = n.val) || !(enWritten s n.val b).on (fSBWCFG_EN m) || p) =
      (decide (m = n.val) || !s.on (fSBWCFG_EN m) || p) := by
    by_cases hm : m = n.val
    · simp [hm]
    · rw [hwrites.on (cfg_other (rSBWCFG_ne hm))]
  simp only [State.winFits, hbase, hsize, Bool.or_assoc] at hclear ⊢
  simp only [hclear]

/-- A field put back as it reads leaves the word as it is. -/
theorem putFld_fldOf (w : Word) (f : Fld) : putFld w f (fldOf w f) = w := by
  apply BitVec.eq_of_getLsbD_eq
  intro j hj
  rw [putFld_bit]
  split
  case isTrue hin => rw [fldOf_bit, Nat.add_sub_cancel' hin.1]; simp [hj, show j - f.lo < f.w by omega]
  case isFalse => rfl

/-- SBWnCFG written with EN changed alone is a plain write, with what an enabled or disabled window then shows (R343, R347). -/
theorem winCfg_en (s : State) (n : Fin 3) (b : Nat) : s.winCfg n.val (putFld (s.reg (rSBWCFG n.val)) (fSBWCFG_EN n.val) b) =
    if (enWritten s n.val b).on (fSBWCFG_EN n.val) && !s.on (fSBWCFG_EN n.val) then
      if s.winFits n.val then ((enWritten s n.val b).sets [(fSBWWP_WP n.val, 0), (fSBWRP_RP n.val, 0)]).winSync n.val
      else ((enWritten s n.val b).setFld (fSBWCFG_EN n.val) 0).raise [fSBFLAG_CFGERR]
    else (enWritten s n.val b).winSync n.val := by
  have hbase : fldOf (putFld (s.reg (rSBWCFG n.val)) (fSBWCFG_EN n.val) b) (fSBWCFG_BASE n.val) = s.fld (fSBWCFG_BASE n.val) :=
    fldOf_putFld_apart _ _ _ _ (by simp [Fld.apart, fSBWCFG_EN, fSBWCFG_BASE])
  have hput : putFld (putFld (s.reg (rSBWCFG n.val)) (fSBWCFG_EN n.val) b) (fSBWCFG_BASE n.val) (s.fld (fSBWCFG_BASE n.val)) =
      putFld (s.reg (rSBWCFG n.val)) (fSBWCFG_EN n.val) b := by
    rw [← hbase, putFld_fldOf]
  rw [State.winCfg, hbase, hput, bne_self_eq_false, Bool.and_false, if_neg Bool.false_ne_true, ite_self, ← enWritten,
    enWritten_winFits]

/-- What a command on a window may read afterwards does not follow FILLED and FILLn. -/
theorem fillFields_other (n : Fin 3) : ∀ g ∈ [fSBWCFG_EN n.val, fSBWWP_WP n.val, fSBWRP_RP n.val, fSBWDROP_DROPPED n.val],
    (fillFields n.val).all (fun f => f.other g) = true := by
  revert n
  decide

/-- A window with its pointers back at 0 (R343). -/
def emptied (s : State) (n : Nat) : State := (s.setFld (fSBWWP_WP n) 0).setFld (fSBWRP_RP n) 0

theorem emptied_writes (s : State) (n : Nat) : Writes [fSBWWP_WP n, fSBWRP_RP n] s (emptied s n) :=
  ((Writes.refl _ s).setFld (by simp) 0).setFld (by simp) 0

theorem emptied_wp (s : State) (n : Fin 3) : (emptied s n.val).fld (fSBWWP_WP n.val) = 0 := by
  rw [emptied, State.fld_setFld_other _ _ _ _ (by decide +revert), State.fld_setFld _ _ _ (by simp [fSBWWP_WP]), Nat.zero_mod]

theorem emptied_rp (s : State) (n : Nat) : (emptied s n).fld (fSBWRP_RP n) = 0 := by
  rw [emptied, State.fld_setFld _ _ _ (by simp [fSBWRP_RP]), Nat.zero_mod]

theorem pointers_other (n : Fin 3) : ∀ g ∈ [fSBWCFG_EN n.val, fSBWDROP_DROPPED n.val],
    [fSBWWP_WP n.val, fSBWRP_RP n.val].all (fun f => f.other g) = true := by
  revert n
  decide

theorem cfgerr_other (n : Fin 3) : fSBFLAG_CFGERR.other (fSBWCFG_EN n.val) = true := by
  revert n
  decide

theorem rSBWDROP_ne (n : Nat) : rSBWDROP n ≠ rSBWCFG n := by
  simp only [rSBWDROP, rSBWCFG]
  omega

/-! ### The commands -/

/-- An enable that fits empties the window and keeps SBWnDROP (R343). -/
theorem windowEnable_enables {s : State} {n : Fin 3} (hoff : s.on (fSBWCFG_EN n.val) = false) (hfits : s.winFits n.val = true) :
    ∃ t, exec (.windowEnable .sacristy n) s = .next t ∧ t.on (fSBWCFG_EN n.val) = true ∧ t.fld (fSBWWP_WP n.val) = 0 ∧
      t.fld (fSBWRP_RP n.val) = 0 ∧ t.fld (fSBWDROP_DROPPED n.val) = s.fld (fSBWDROP_DROPPED n.val) ∧ t.mem = s.mem := by
  have hen : (enWritten s n.val 1).on (fSBWCFG_EN n.val) = true := enWritten_en s n true
  have hexec : exec (.windowEnable .sacristy n) s = .next ((emptied (enWritten s n.val 1) n.val).winSync n.val) := by
    refine congrArg Host.Outcome.next ((sbBus_cfg s n _).trans ((winCfg_en s n 1).trans ?_))
    rw [if_pos (by simp [hen, hoff]), if_pos hfits]
    rfl
  have hwritten := enWritten_writes s n.val 1
  have hempty := emptied_writes (enWritten s n.val 1) n.val
  have hsync := winSync_writes (emptied (enWritten s n.val 1) n.val) n.val
  have hfill := fillFields_other n
  have hptr := pointers_other n
  refine ⟨_, hexec, ?en, ?wp, ?rp, ?dropped, ?mem⟩
  case en => exact (hsync.on (hfill _ (by simp))).trans ((hempty.on (hptr _ (by simp))).trans hen)
  case wp => exact (hsync.kept _ (hfill _ (by simp))).trans (emptied_wp _ n)
  case rp => exact (hsync.kept _ (hfill _ (by simp))).trans (emptied_rp _ n.val)
  case dropped =>
    exact ((hsync.kept _ (hfill _ (by simp))).trans (hempty.kept _ (hptr _ (by simp)))).trans
      (hwritten.kept _ (cfg_other (rSBWDROP_ne n.val)))
  case mem => rw [hsync.regs, hempty.regs, hwritten.regs]

/-- An enable that does not fit sets CFGERR and leaves the window disabled (R347). -/
theorem windowEnable_refused {s : State} {n : Fin 3} (hoff : s.on (fSBWCFG_EN n.val) = false) (hfits : s.winFits n.val = false) :
    ∃ t, exec (.windowEnable .sacristy n) s = .next t ∧ t.on (fSBWCFG_EN n.val) = false ∧ t.on fSBFLAG_CFGERR = true ∧
      t.mem = s.mem := by
  have hen : (enWritten s n.val 1).on (fSBWCFG_EN n.val) = true := enWritten_en s n true
  have hexec : exec (.windowEnable .sacristy n) s =
      .next (((enWritten s n.val 1).setFld (fSBWCFG_EN n.val) 0).setFld fSBFLAG_CFGERR 1) := by
    refine congrArg Host.Outcome.next ((sbBus_cfg s n _).trans ((winCfg_en s n 1).trans ?_))
    rw [if_pos (by simp [hen, hoff]), if_neg (by simp [hfits])]
    rfl
  refine ⟨_, hexec, ?en, on_setFld_one _ _ (by decide) (by decide), ?mem⟩
  case en =>
    rw [on_setFld_other _ _ _ _ (cfgerr_other n)]
    exact on_setFld_zero _ _ (by simp [fSBWCFG_EN]) (by simp [fSBWCFG_EN])
  case mem => rw [State.setFld_mem, State.setFld_mem, (enWritten_writes s n.val 1).regs]

theorem windowDisable_disables (s : State) (n : Fin 3) : ∃ t, exec (.windowDisable .sacristy n) s = .next t ∧
    t.on (fSBWCFG_EN n.val) = false ∧ t.mem = s.mem := by
  have hen : (enWritten s n.val 0).on (fSBWCFG_EN n.val) = false := enWritten_en s n false
  have hexec : exec (.windowDisable .sacristy n) s = .next ((enWritten s n.val 0).winSync n.val) := by
    refine congrArg Host.Outcome.next ((sbBus_cfg s n _).trans ((winCfg_en s n 0).trans ?_))
    rw [if_neg (by simp [hen])]
  have hsync := winSync_writes (enWritten s n.val 0) n.val
  refine ⟨_, hexec, (hsync.on (fillFields_other n _ (by simp))).trans hen, ?mem⟩
  rw [hsync.regs, (enWritten_writes s n.val 0).regs]

/-- A read pointer between RP and WP is taken (R343). -/
theorem sbwRpWrite_takes {s : State} {n : Fin 3} {v : Word} (hlt : fldOf v (fSBWRP_RP n.val) < 2 * s.winSize n.val)
    (hbetween : (fldOf v (fSBWRP_RP n.val) + 2 * s.winSize n.val - s.fld (fSBWRP_RP n.val)) % (2 * s.winSize n.val) ≤
      s.winFilled n.val) :
    ∃ t, exec (.sbwRpWrite .sacristy n v) s = .next t ∧ t.fld (fSBWRP_RP n.val) = fldOf v (fSBWRP_RP n.val) ∧ t.mem = s.mem := by
  have hexec : exec (.sbwRpWrite .sacristy n v) s =
      .next ((s.setFld (fSBWRP_RP n.val) (fldOf v (fSBWRP_RP n.val))).winSync n.val) :=
    congrArg Host.Outcome.next ((sbBus_rp s n v).trans (if_pos (by simp [hlt, hbetween])))
  have hsync := winSync_writes (s.setFld (fSBWRP_RP n.val) (fldOf v (fSBWRP_RP n.val))) n.val
  refine ⟨_, hexec, ?rp, by rw [hsync.regs]; rfl⟩
  rw [hsync.kept _ (fillFields_other n _ (by simp)), State.fld_setFld _ _ _ (by simp [fSBWRP_RP]), Nat.mod_eq_of_lt (fldOf_lt _ _)]

/-- One beyond WP is ignored with RPBAD (R343). -/
theorem sbwRpWrite_ignores {s : State} {n : Fin 3} {v : Word}
    (hbeyond : s.winFilled n.val <
      (fldOf v (fSBWRP_RP n.val) + 2 * s.winSize n.val - s.fld (fSBWRP_RP n.val)) % (2 * s.winSize n.val)) :
    exec (.sbwRpWrite .sacristy n v) s = .next (s.setFld fSBFLAG_RPBAD 1) :=
  congrArg Host.Outcome.next ((sbBus_rp s n v).trans (if_neg (by simp [Nat.not_le_of_lt hbeyond])))

end Sys2Proof.Proofs
end

section
/-! PROOF. The interrupt controller and the guard (R263, R266, R278, R367), and O23. -/

namespace Sys2Proof.Proofs

open Sys2Proof Sys2Proof.Machine

/-! ### Words of sources -/

/-- A number summed of the powers of two that `p` names has their bits. -/
theorem sum_powers (p : Nat → Bool) (n : Nat) : ((List.range n).map (fun i => if p i then 2 ^ i else 0)).sum < 2 ^ n ∧
    ∀ j, ((List.range n).map (fun i => if p i then 2 ^ i else 0)).sum.testBit j = (decide (j < n) && p j) := by
  induction n with
  | zero => simp
  | succ n ih =>
    obtain ⟨hlt, hbits⟩ := ih
    rw [List.range_succ, List.map_append, List.sum_append, List.map_singleton, List.sum_singleton]
    generalize ((List.range n).map (fun i => if p i then 2 ^ i else 0)).sum = low at hlt hbits
    have hsum : low + (if p n then 2 ^ n else 0) = 2 ^ n * (2 * 0 + b2n (p n)) + low := by
      cases p n <;> simp [b2n, Nat.add_comm]
    have hpow : 2 ^ (n + 1) = 2 * 2 ^ n := Nat.pow_succ'
    refine ⟨by split <;> omega, fun j => ?_⟩
    rw [hsum, testBit_around 0 (p n) hlt, hbits]
    rcases Nat.lt_trichotomy j n with h | rfl | h
    · simp [h, Nat.lt_succ_of_lt h]
    · simp
    · simp [show ¬ j < n by omega, show ¬ j = n by omega, show ¬ j < n + 1 by omega]

theorem srcMask_bit (p : Nat → Bool) (k : Nat) {i : Nat} (hi : i < 32) : (srcMask p k).getLsbD i = p (32 * k + i) := by
  obtain ⟨-, hbits⟩ := sum_powers (fun i => p (32 * k + i)) 32
  rw [srcMask, intWord, BitVec.getLsbD_ofNat, hbits]
  simp [hi]

/-- A word that names source i of its 32 and no other. -/
def Names (v : Word) (i : Nat) : Prop := ∀ j, v.getLsbD j = decide (j = i)

theorem names_one {i : Nat} (hi : i < 32) : Names ((1 <<< i : Nat) : Word) i := by
  intro j
  rw [BitVec.natCast_eq_ofNat, BitVec.getLsbD_ofNat, Nat.one_shiftLeft, Nat.testBit_two_pow]
  by_cases h : j = i
  · simp [h, hi]
  · simp [h, Ne.symm h]

section

variable {v : Word} {i : Nat} (hv : Names v i)

include hv

/-- A mask with the source's bit lets the word through. -/
theorem Names.and_set {m : Word} (hm : m.getLsbD i = true) : v &&& m = v := by
  apply BitVec.eq_of_getLsbD_eq
  intro j _
  rw [BitVec.getLsbD_and, hv j]
  by_cases h : j = i <;> simp [h, hm]

/-- A mask without it lets nothing through. -/
theorem Names.and_clear {m : Word} (hm : m.getLsbD i = false) : v &&& m = 0 := by
  apply BitVec.eq_of_getLsbD_eq
  intro j _
  rw [BitVec.getLsbD_and, hv j]
  by_cases h : j = i <;> simp [h, hm]

theorem Names.ne_zero : v ≠ 0 := by
  rintro rfl
  simpa using hv i

end

/-! ### Latches -/

/-- A fold in which one element alone acts is that element's step. -/
theorem foldl_only {α β : Type} {f : β → α → β} {a : α} {l : List α} (hnodup : l.Nodup) (ha : a ∈ l)
    (hf : ∀ b, ∀ x ≠ a, f b x = b) (b : β) : l.foldl f b = f b a := by
  obtain ⟨l₁, l₂, rfl⟩ := List.append_of_mem ha
  obtain ⟨hrest, hfirst⟩ : a ∉ l₂ ∧ a ∉ l₁ := by
    rw [List.nodup_middle, List.nodup_cons, List.mem_append, not_or] at hnodup
    exact ⟨hnodup.1.2, hnodup.1.1⟩
  rw [List.foldl_append, List.foldl_cons, foldl_fixed_of_mem fun x hx => hf b x (ne_of_mem_of_not_mem hx hfirst)]
  exact foldl_fixed_of_mem fun x hx => hf _ x (ne_of_mem_of_not_mem hx hrest)

theorem latchWord_none (s : State) (k : Nat) (b : Bool) : s.latchWord k 0 b = s :=
  foldl_fixed_of_mem fun i _ => by simp

theorem latchWord_one (s : State) (k : Nat) {v : Word} {i : Nat} (hv : Names v i) (hi : i < 32) (b : Bool) :
    s.latchWord k v b = s.latchBit (32 * k + i) b := by
  refine (foldl_only (a := i) List.nodup_range (List.mem_range.mpr hi) ?others s).trans ?one
  case others => exact fun t j hj => by simp [hv j, hj]
  case one => simp [hv i]

/-- A source routed to Decani has its latch there (R263). -/
theorem latchBit_decani {s : State} {n : Nat} (hroute : s.routeOf n = .decani) (b : Bool) :
    s.latchBit n b = { s with dec := { s.dec with latch := bitTo s.dec.latch n b } } := by
  rw [State.latchBit, hroute]
  rfl

/-- Where Cantoris does not wait, an interrupt ends no wait of it (R271). -/
theorem wakeOnInt_cantoris {s : State} (h : s.fld fCANTSTAT_STATE ≠ 4) : s.wakeOnInt .cantoris = s := by
  simp [State.wakeOnInt, h]

section

variable {s : State} {k i : Nat} {v : Word} (hi : i < 32) (hv : Names v i)

include hi hv

/-- A Nave write for a Nave source acts on it (R266). -/
theorem srcWrite_nave (hworld : s.worldOf .decani (32 * k + i) = .nave) (a : Nat) :
    (v &&& (s.srcWrite .decani .nave k 0 v a).1) = v ∧ (s.srcWrite .decani .nave k 0 v a).2 = s := by
  have hbit : (srcMask (fun n => s.worldOf .decani n = .sacristy) k).getLsbD i = false := by
    rw [srcMask_bit _ k hi, hworld]
    rfl
  refine ⟨hv.and_set ?_, if_pos ?_⟩
  · rw [State.srcWrite, if_pos rfl, BitVec.getLsbD_not, hbit, decide_eq_true hi]
    rfl
  · simp [hv.and_clear hbit]

/-- A Nave write for a Sacristy source acts on nothing and is a violation (R266). -/
theorem srcWrite_sacristy (hworld : s.worldOf .decani (32 * k + i) = .sacristy) (a : Nat) :
    (v &&& (s.srcWrite .decani .nave k 0 v a).1) = 0 ∧ (s.srcWrite .decani .nave k 0 v a).2 = s.violate 5 0 a v.toNat := by
  have hbit : (srcMask (fun n => s.worldOf .decani n = .sacristy) k).getLsbD i = true := by
    rw [srcMask_bit _ k hi, hworld]
    rfl
  refine ⟨hv.and_clear ?_, if_neg ?_⟩
  · simp [State.srcWrite, hbit]
  · simpa [hv.and_set hbit] using hv.ne_zero

variable (hk : k < 4)

include hk

theorem intset_sets (hworld : s.worldOf .decani (32 * k + i) = .nave) (hroute : s.routeOf (32 * k + i) = .decani)
    (hrun : s.slp.st = .run) (hcant : s.fld fCANTSTAT_STATE ≠ 4) : exec (.intset .decani .nave k v) s =
      .next { s with dec := { s.dec with latch := bitTo s.dec.latch (32 * k + i) true } } := by
  obtain ⟨hmask, hstate⟩ := srcWrite_nave hi hv hworld (rINTSET k)
  refine congrArg Host.Outcome.next ((if_pos hk).trans ?_)
  rw [State.intSet, hmask, hstate, latchWord_one s k hv hi, latchBit_decani hroute, wakeOnInt_decani_run (by exact hrun),
    wakeOnInt_cantoris (by exact hcant)]

theorem intclr_clears (hworld : s.worldOf .decani (32 * k + i) = .nave) (hroute : s.routeOf (32 * k + i) = .decani) :
    exec (.intclr .decani .nave k v) s = .next { s with dec := { s.dec with latch := bitTo s.dec.latch (32 * k + i) false } } := by
  obtain ⟨hmask, hstate⟩ := srcWrite_nave hi hv hworld (rINTCLR k)
  refine congrArg Host.Outcome.next ((if_pos hk).trans ?_)
  rw [State.intClr, hmask, hstate, latchWord_one s k hv hi, latchBit_decani hroute]

/-- INTSET from Nave for a Sacristy source is a violation alone (R266). -/
theorem intset_violates (hworld : s.worldOf .decani (32 * k + i) = .sacristy)
    (hrun : s.slp.st = .run) (hcant : s.fld fCANTSTAT_STATE ≠ 4) :
    exec (.intset .decani .nave k v) s = .next (s.violate 5 0 (rINTSET k) v.toNat) := by
  obtain ⟨hmask, hstate⟩ := srcWrite_sacristy hi hv hworld (rINTSET k)
  have hrec := violate_recorded s 5 0 (rINTSET k) v.toNat
  refine congrArg Host.Outcome.next ((if_pos hk).trans ?_)
  rw [State.intSet, hmask, hstate, latchWord_none, wakeOnInt_decani_run (by rw [hrec.slp, hrun]),
    wakeOnInt_cantoris (by rwa [hrec.kept _ (by decide)])]

end

/-! ### Fields of a core's controller and guard -/

theorem pfld_setPfld (k : Core) (f : Fld) (v : Nat) (h : f.lo + f.w ≤ 32) : (k.setPfld f v).pfld f = v % 2 ^ f.w := by
  simp only [Core.pfld, Core.setPfld, rget_rput, if_true]
  exact fldOf_putFld _ f v h

/-- A field that the mask covers takes the word's. -/
theorem pfld_privBits (k : Core) {a : Nat} {f : Fld} {m : Word} (v : Word) (hf : f.addr = a)
    (hm : ∀ j < f.w, m.getLsbD (f.lo + j) = true) : (k.privBits a m v).pfld f = fldOf v f := by
  simp only [Core.pfld, Core.privBits, hf, rget_rput, if_true]
  apply Nat.eq_of_testBit_eq
  intro j
  rw [fldOf_bit, fldOf_bit]
  by_cases hj : j < f.w
  · simp [hm j hj]
  · simp [hj]

/-- A write that its mask keeps out changes no field. -/
theorem pfld_privBits_none (k : Core) (a : Nat) (v : Word) (f : Fld) : (k.privBits a 0 v).pfld f = k.pfld f := by
  simp only [Core.pfld, Core.privBits, rget_rput]
  split
  case isTrue h =>
    subst h
    rw [show ~~~(0 : Word) = BitVec.allOnes 32 from rfl, BitVec.and_allOnes, show (0 : Word) = 0#32 from rfl, BitVec.and_zero,
      BitVec.or_zero]
  case isFalse => rfl

/-- A field's value is the word's from its lowest bit on. -/
theorem fldOf_eq_div (v : Word) (f : Fld) : fldOf v f = v.toNat / 2 ^ f.lo % 2 ^ f.w := by
  rw [fldOf, BitVec.extractLsb'_toNat, Nat.shiftRight_eq_div_pow]

/-! ### Routes (R278) -/

/-- A source's bit of INTROUTE written alone. -/
theorem pbit_setPfld (k : Core) (n : Nat) (b : Bool) : (k.setPfld (fINTROUTE_ROUTE (n / 32))
    (bitTo (k.pfld (fINTROUTE_ROUTE (n / 32))) (n % 32) b)).pbit fINTROUTE_ROUTE n = b := by
  rw [Core.pbit, pfld_setPfld _ _ _ (by simp [fINTROUTE_ROUTE]), Nat.testBit_mod_two_pow, testBit_bitTo]
  simp [fINTROUTE_ROUTE, Nat.mod_lt]

/-- A held route to Cantoris acts once its source is neither active nor pending (R278). -/
theorem introuteApply_routes {s : State} {m : Nat} (hheld : s.dec.heldRoute.find? (fun p => p.1 = m) = some (m, true)) (h8 : m ≠ 8)
    (h9 : m ≠ 9) (hlt : m < 64) (hroute : s.routeOf m = .decani) (hactive : s.dec.active.contains m = false)
    (hpending : s.intPending .decani m = false) : ∃ t, exec (.introuteApply m) s = .next t ∧ t.routeOf m = .cantoris ∧
      (∀ p ∈ t.dec.heldRoute, p.1 ≠ m) ∧ t.dec.latch = s.dec.latch ∧ t.mem = s.mem := by
  have hfree : ¬ (m = 8 ∨ m = 9 ∨ m = 64 ∨ m = 65 ∨ m = 66) := by omega
  have hexec : exec (.introuteApply m) s = .next (s.routeBit m true) := by
    change execIntrouteApply m s = _
    rw [execIntrouteApply, hheld]
  have hbit : s.routeBit m true = { s with dec := { s.dec.setPfld (fINTROUTE_ROUTE (m / 32))
      (bitTo (s.dec.pfld (fINTROUTE_ROUTE (m / 32))) (m % 32) true) with heldRoute := s.dec.heldRoute.filter (fun p => p.1 != m) } } := by
    rw [State.routeBit, if_neg hfree, hroute]
    dsimp only
    rw [if_neg (by simp), if_neg (by simp only [State.core, hactive, hpending]; decide)]
  refine ⟨_, hexec.trans (congrArg _ hbit), ?route, ?held, rfl, rfl⟩
  case route =>
    rw [State.routeOf, if_neg (by omega), if_neg (by omega)]
    exact if_pos (pbit_setPfld s.dec m true)
  case held =>
    intro p hp
    simpa using (List.mem_filter.mp hp).2

/-! ### INTCTL and the guard -/

/-- GBITS acts with the write (R264, R278). -/
theorem gbitsWrite_governs (s : State) (v : Word) : ∃ t, exec (.gbitsWrite .decani .nave none v) s = .next t ∧
    t.dec.pfld fINTCTL_GBITS = v.toNat % 8 ∧ t.dec.gbits = Min.min 4 (v.toNat % 8) ∧
      t.dec.active = s.dec.active ∧ t.regs = s.regs := by
  have hbits : (s.dec.privBits rINTCTL 7 v).pfld fINTCTL_GBITS = v.toNat % 8 := by
    rw [pfld_privBits s.dec (a := rINTCTL) (m := 7) v rfl (by decide), fldOf_eq_div]
    exact congrArg (· % 8) (Nat.div_one _)
  have hexec : exec (.gbitsWrite .decani .nave none v) s = .next (s.setCore .decani (s.dec.privBits rINTCTL 7 v)) := rfl
  exact ⟨_, hexec, hbits, congrArg (Min.min 4) hbits, rfl, rfl⟩

theorem specOf_gbase : specOf (rGBASE 0) = some ⟨0xE0001000, 16, 16, 0xFFFFFFFC, 0, 0, 0, 0, 0, 0⟩ := by decide +kernel

/-- With nothing buffered a Nave write of the first guard base stores the base and does nothing else (R367). -/
theorem guardWrite_base {s : State} (hbuf : s.dec.sbuf = []) (v : Word) : ∃ t, exec (.guardWrite .decani .nave false 0 v) s = .next t ∧
    t.dec.pfld (fGBASE_BASE 0) = v.toNat / 4 ∧ t.dec.gpr = s.dec.gpr ∧ t.dec.pc = s.dec.pc ∧ t.mem = s.mem ∧ t.cant = s.cant := by
  have hstore : s.guardWrite .decani .nave (rGBASE 0) v =
      s.setCore .decani ((s.dec.privBits (rGBASE 0) 0xFFFFFFFC v).privBits (rGBASE 0) 0 0) := by
    rw [State.guardWrite, specOf_gbase]
    simp [State.core]
  have hexec : exec (.guardWrite .decani .nave false 0 v) s =
      .next (s.setCore .decani ((s.dec.privBits (rGBASE 0) 0xFFFFFFFC v).privBits (rGBASE 0) 0 0)) := by
    rw [← hstore]
    change Host.Outcome.next ((s.drainAll .decani).guardWrite .decani .nave (rGBASE 0) v) = _
    rw [State.drainAll_nil s .decani hbuf]
  refine ⟨_, hexec, ?base, rfl, rfl, rfl, rfl⟩
  have hlt := v.isLt
  change (((s.dec.privBits (rGBASE 0) 0xFFFFFFFC v).privBits (rGBASE 0) 0 0).pfld (fGBASE_BASE 0)) = _
  rw [pfld_privBits_none, pfld_privBits s.dec (a := rGBASE 0) (m := 0xFFFFFFFC) v rfl (by decide), fldOf_eq_div]
  simp only [fGBASE_BASE]
  omega

/-- Settles O23, one lemma for each clause. -/
theorem memoryAndInterruptControl : Obligations.MemoryAndInterruptControl := by
  unfold Obligations.MemoryAndInterruptControl
  refine ⟨fun s h n w v => ⟨rfl, mramPowerDown_idle, mramPowerDown_busy, mrsegWrite_sacristy s v, mrsegWrite_nave s v,
    mrerraddrClear_clears s w, windowEnable_enables, windowEnable_refused, windowDisable_disables s n, ?readPointer⟩,
    fun s k i v => ⟨?latches, ?sacristySource, ?heldRoute, gbitsWrite_governs s v, fun hbuf => guardWrite_base hbuf v⟩⟩
  case readPointer => exact ⟨sbwRpWrite_takes, fun _ => sbwRpWrite_ignores⟩
  case latches =>
    rintro hworld hroute hrun hcant rfl
    exact ⟨intset_sets i.isLt (names_one i.isLt) k.isLt hworld hroute hrun hcant,
      intclr_clears i.isLt (names_one i.isLt) k.isLt hworld hroute⟩
  case sacristySource =>
    rintro hworld rfl hrun hcant
    have hrec := violate_recorded s 5 0 (rINTSET k.val) ((1 <<< i.val : Nat) : Word).toNat
    exact ⟨_, intset_violates i.isLt (names_one i.isLt) k.isLt hworld hrun hcant, hrec.dec, hrec.cant, rfl⟩
  case heldRoute =>
    rintro m b hheld h8 h9 hlt hroute rfl hactive hpending
    exact introuteApply_routes hheld h8 h9 hlt hroute hactive hpending

end Sys2Proof.Proofs
end

section
/-! PROOF. What the caches hold, and what the operations of their traffic leave of it (R353, R354, R356, R361). -/

namespace Sys2Proof.Proofs

open Sys2Proof Sys2Proof.Machine

/-! ### Lists of lines -/

theorem findLine_base {l : List CLine} {base : Nat} {x : CLine} (h : findLine l base = some x) : x.base = base := by
  simpa using List.find?_some h

theorem findLine_cons (x : CLine) (l : List CLine) (b : Nat) :
    findLine (x :: l) b = if x.base = b then some x else findLine l b := by
  unfold findLine
  by_cases h : x.base = b <;> simp [h]

theorem findLine_dropLine (l : List CLine) (base b : Nat) : findLine (dropLine l base) b = if b = base then none else findLine l b := by
  induction l with
  | nil => simp [findLine, dropLine]
  | cons x l ih =>
    rw [dropLine] at ih
    by_cases hx : x.base = base
    · rw [dropLine, List.filter_cons_of_neg (by simp [hx]), ih, findLine_cons]
      grind
    · rw [dropLine, List.filter_cons_of_pos (by simp [hx]), findLine_cons, findLine_cons, ih]
      grind

theorem findLine_putLine (l : List CLine) (x : CLine) (b : Nat) :
    findLine (putLine l x) b = if b = x.base then some x else findLine l b := by
  have h := findLine_dropLine l x.base b
  rw [dropLine] at h
  rw [putLine, findLine_cons, h]
  grind

/-! ### What a cache holds of a line -/

/-- What a cache holds of a line. -/
abbrev held (s : State) (d : CacheId) (b : Nat) : Option CLine := findLine (s.lines d) b

theorem lines_setLines (s : State) (c : CacheId) (l : List CLine) (d : CacheId) :
    (s.setLines c l).lines d = if d = c then l else s.lines d := by
  cases c <;> cases d <;> rfl

theorem held_setLines (s : State) (c : CacheId) (l : List CLine) (d : CacheId) (b : Nat) :
    held (s.setLines c l) d b = if d = c then findLine l b else held s d b := by
  rw [held, lines_setLines, apply_ite (findLine · b)]

theorem held_putLine (s : State) (c : CacheId) (x : CLine) (d : CacheId) (b : Nat) :
    held (s.setLines c (putLine (s.lines c) x)) d b = if d = c ∧ b = x.base then some x else held s d b := by
  rw [held_setLines, findLine_putLine]
  grind

theorem held_dropLine (s : State) (c : CacheId) (base : Nat) (d : CacheId) (b : Nat) :
    held (s.setLines c (dropLine (s.lines c) base)) d b = if d = c ∧ b = base then none else held s d b := by
  rw [held_setLines, findLine_dropLine]
  grind

/-- No cache but `c` holds the line. -/
def Sole (s : State) (c : CacheId) (base : Nat) : Prop := ∀ d, d ≠ c → held s d base = none

/-! ### Traffic -/

/-- What the traffic of the caches has no part in: the commands that wait, sleep, resets, the descriptors that wait and the cores' shape. -/
def aside (s : State) : List Instr × Slp × Rst × List Desc × Bool × Bool :=
  (s.pending, s.slp, s.rst, s.waitingDescs, s.dec.shaped, s.cant.shaped)

/-- What every operation of the caches' traffic keeps: what it has no part in, and memory's canonical form. -/
structure Traffic (s t : State) : Prop where
  aside : aside t = aside s
  wf : Memory.wf s.mem = true → Memory.wf t.mem = true

/-- Traffic that leaves every cache what it holds. -/
structure Still (s t : State) : Prop extends Traffic s t where
  lines : t.lines = s.lines

namespace Traffic

variable {s t u : State}

theorem refl (s : State) : Traffic s s := ⟨rfl, id⟩

theorem trans (h : Traffic s t) (k : Traffic t u) : Traffic s u := ⟨k.aside.trans h.aside, k.wf ∘ h.wf⟩

theorem setLines (s : State) (c : CacheId) (l : List CLine) : Traffic s (s.setLines c l) := by
  cases c <;> exact ⟨rfl, id⟩

end Traffic

namespace Still

variable {s t u : State}

theorem refl (s : State) : Still s s := ⟨.refl s, rfl⟩

theorem trans (h : Still s t) (k : Still t u) : Still s u := ⟨h.toTraffic.trans k.toTraffic, k.lines.trans h.lines⟩

theorem held (h : Still s t) (d : CacheId) (b : Nat) : held t d b = held s d b := by rw [Proofs.held, h.lines]

theorem sole (h : Still s t) {c : CacheId} {base : Nat} (hs : Sole s c base) : Sole t c base :=
  fun d hd => (h.held d base).trans (hs d hd)

theorem regs (s : State) (r : RegFile) : Still s { s with regs := r } := ⟨⟨rfl, id⟩, by funext d; cases d <;> rfl⟩

theorem setFld (s : State) (f : Fld) (v : Nat) : Still s (s.setFld f v) := regs s _

theorem sets (s : State) (l : List (Fld × Nat)) : Still s (s.sets l) := by
  rw [State.sets_eq]
  exact regs s _

theorem raise (s : State) (l : List Fld) : Still s (s.raise l) := by
  rw [State.raise_eq]
  exact regs s _

theorem used (s : State) (n : Nat) : Still s (s.used n) := ⟨⟨rfl, id⟩, by funext d; cases d <;> rfl⟩

theorem emit (s : State) (o : Out) : Still s (s.emit o) := ⟨⟨rfl, id⟩, by funext d; cases d <;> rfl⟩

theorem setSac (s : State) (x : Sac) : Still s { s with sac := x } := ⟨⟨rfl, id⟩, by funext d; cases d <;> rfl⟩

theorem setMem (s : State) {m : Mem} (h : Memory.wf s.mem = true → Memory.wf m = true) : Still s { s with mem := m } :=
  ⟨⟨rfl, h⟩, by funext d; cases d <;> rfl⟩

/-- A core that keeps its cache and its shape. -/
theorem setCore {c : CoreId} {k : Core} (hdc : k.dc = (s.core c).dc) (hshape : k.shaped = (s.core c).shaped) : Still s (s.setCore c k) := by
  refine ⟨⟨?_, by rw [State.setCore_mem]; exact id⟩, ?_⟩
  · cases c
    · exact congrArg (fun b => (s.pending, s.slp, s.rst, s.waitingDescs, b, s.cant.shaped)) hshape
    · exact congrArg (fun b => (s.pending, s.slp, s.rst, s.waitingDescs, s.dec.shaped, b)) hshape
  · funext d
    cases c
    · cases d
      · exact hdc
      · rfl
      · rfl
    · cases d
      · rfl
      · exact hdc
      · rfl

end Still

/-! ### Operations that leave every cache what it holds -/

theorem homeStart_still (s : State) (agent a : Nat) : Still s (s.homeStart agent a) := .setFld s _ _

theorem lineToMemory_still (s : State) (x : CLine) : Still s (s.lineToMemory x) :=
  .setMem s fun h => Memory.wf_markBad _ _ _ (Memory.wf_putBytes _ _ _ h)

theorem unreserve_shaped (k : Core) (base : Nat) : (k.unreserve base).shaped = k.shaped := by
  rw [unreserve_eq]
  rfl

theorem unreserve_dc (k : Core) (base : Nat) : (k.unreserve base).dc = k.dc := by
  rw [unreserve_eq]

theorem unreserve_still (s : State) (c : CoreId) (base : Nat) : Still s (s.setCore c ((s.core c).unreserve base)) :=
  .setCore (unreserve_dc _ _) (unreserve_shaped _ _)

theorem unreserveOwn_still (s : State) (c : CacheId) (base : Nat) : Still s (s.unreserveOwn c base) := by
  cases c
  · exact unreserve_still s .decani base
  · exact unreserve_still s .cantoris base
  · exact .refl s

theorem unreserveOthers_still (s : State) (me : Option CacheId) (base : Nat) : Still s (s.unreserveOthers me base) := by
  have hstep : ∀ (p : Prop) [Decidable p] (c : CoreId) (t : State),
      Still t (t.setCore c (if p then t.core c else (t.core c).unreserve base)) := by
    intro p _ c t
    split
    · rw [State.setCore_core]
      exact .refl t
    · exact unreserve_still t c base
  exact (hstep _ .decani s).trans (hstep (me = some .cant) .cantoris _)

theorem mramErr_still (s : State) (a : Nat) : Still s (s.mramErr a) := by
  unfold State.mramErr
  split
  · exact .setFld s _ _
  · exact .refl s

theorem violate_still (s : State) (kind block a data : Nat) : Still s (s.violate kind block a data) := by
  unfold State.violate
  dsimp only
  split
  · exact (Still.setSac s _).trans (.raise _ _)
  · exact .setSac s _

theorem busCheck_still (s : State) (ag : Agent) (w : World) (write : Bool) (a data : Nat) :
    Still s (s.busCheck ag w write a data).2 := by
  unfold State.busCheck
  split
  case h_4 =>
    split
    · exact .refl s
    · split
      · exact .refl s
      · exact violate_still s _ _ _ _
  case h_5 =>
    split
    · exact ((mramErr_still s a).trans (.raise _ _)).trans (violate_still _ _ _ _ _)
    · exact .refl s
  case h_6 =>
    split
    · exact .raise s _
    · exact .refl s
  all_goals exact .refl s

theorem parityError_still (s : State) (a : Nat) : Still s (s.parityError a) := by
  unfold State.parityError
  dsimp only
  split
  · exact ((Still.setFld s _ _).trans (.raise _ _)).trans (.setFld _ _ _)
  · exact (Still.raise s _).trans (.setFld _ _ _)

theorem homeRead_still (s : State) (a n : Nat) : Still s (s.homeRead a n).2.2 := by
  unfold State.homeRead
  split
  case h_1 =>
    dsimp only
    have hup := Still.setFld s (fUP (mramHalf a)) 1
    split
    · exact ((hup.trans (mramErr_still _ _)).trans (.raise _ _)).trans (.setFld _ _ _)
    · split
      · exact hup
      · exact (hup.trans (.raise _ _)).trans (.setFld _ _ _)
  case h_2 => exact .refl s
  case h_3 =>
    split
    · exact parityError_still s _
    · exact .refl s

theorem lineData_still (s : State) (me : Option CacheId) (base : Nat) (forStore : Bool) : Still s (s.lineData me base forStore).2.2.2 := by
  unfold State.lineData
  split
  · exact .refl s
  · split
    · exact .refl s
    · exact homeRead_still s _ _

theorem readOnce_still (s : State) (agent a n : Nat) : Still s (s.readOnce agent a n).2.2 := by
  unfold State.readOnce
  dsimp only
  split
  · exact homeStart_still s _ _
  · exact (homeStart_still s _ _).trans (homeRead_still _ _ _)

theorem fetchLine_still (s : State) (c : CoreId) (base : Nat) : Still s (s.fetchLine c base).2 := by
  have hfill : ∀ (t : State) (l : List (Nat × List Byte)), Still t (t.setCore c { t.core c with ic := l }) :=
    fun t l => .setCore rfl rfl
  have hcheck := busCheck_still s (.core c) (s.core c).world false base 0
  unfold State.fetchLine
  dsimp only
  split
  · exact .refl s
  · split
    · exact hcheck
    · split
      · rw [if_pos rfl]
        exact hcheck.trans (hfill _ _)
      · have hread := hcheck.trans (homeRead_still _ base 32)
        split
        · exact hread.trans (hfill _ _)
        · exact hread

theorem mramDone_still (s : State) (h : Nat) : Still s (s.mramDone h) := (Still.setFld s _ _).trans (.setMem _ id)

theorem mramWrite_still (s : State) (a : Nat) (bs : List Byte) : Still s (s.mramWrite a bs) :=
  ((mramDone_still s _).trans (.sets _ _)).trans (.setMem _ fun h => Memory.wf_putBytes _ a bs (by rwa [State.sets_mem] at h))

theorem dirtyMerged_still (s : State) (me : Option CacheId) (base : Nat) : Still s (dirtyMerged s me base) := by
  unfold dirtyMerged
  split
  · exact lineToMemory_still s _
  · exact .refl s

/-! ### Transactions, line by line -/

theorem mem_othersOf (me : Option CacheId) (d : CacheId) : d ∈ othersOf me ↔ some d ≠ me := by
  cases d <;> simp [othersOf]

theorem writeBackOut_traffic (s : State) (c : CacheId) (base : Nat) : Traffic s (s.writeBackOut c base) := by
  unfold State.writeBackOut
  split
  case h_1 x hx =>
    have hgone := (Traffic.setLines s c (dropLine (s.lines c) base)).trans (unreserveOwn_still _ c base).toTraffic
    dsimp only
    split
    · exact hgone.trans ((homeStart_still _ c.num base).trans (lineToMemory_still _ x)).toTraffic
    · exact hgone
  case h_2 => exact .refl s

theorem held_writeBackOut (s : State) (c : CacheId) (base : Nat) (d : CacheId) (b : Nat) :
    held (s.writeBackOut c base) d b = if d = c ∧ b = base then none else held s d b := by
  unfold State.writeBackOut
  split
  case h_1 x hx =>
    have hown := unreserveOwn_still (s.setLines c (dropLine (s.lines c) base)) c base
    dsimp only
    split
    · rw [((homeStart_still _ c.num base).trans (lineToMemory_still _ x)).held, hown.held, held_dropLine]
    · rw [hown.held, held_dropLine]
  case h_2 hx =>
    split
    case isTrue h => rw [h.1, h.2, held, hx]
    case isFalse => rfl

theorem makeRoom_traffic (s : State) (c : CacheId) (base : Nat) : Traffic s (s.makeRoom c base) := by
  unfold State.makeRoom
  dsimp only
  split
  · exact .refl s
  · split
    · exact (Still.used s 1).toTraffic.trans (writeBackOut_traffic _ _ _)
    · exact .refl s

/-- Making room lets a line go, or none. -/
theorem held_makeRoom (s : State) (c : CacheId) (base : Nat) {d : CacheId} {b : Nat} {x : CLine}
    (h : held (s.makeRoom c base) d b = some x) : held s d b = some x := by
  unfold State.makeRoom at h
  dsimp only at h
  split at h
  · exact h
  · split at h
    · rw [held_writeBackOut, (Still.used s 1).held] at h
      split at h
      · exact absurd h nofun
      · exact h
    · exact h

theorem makeRoom_roomy (s : State) (c : CacheId) (base : Nat)
    (h : ((s.lines c).filter (fun x => x.base / 32 % 32 = base / 32 % 32)).length < 4) : s.makeRoom c base = s := by
  unfold State.makeRoom
  simp [h]

theorem setLines_mem (s : State) (c : CacheId) (l : List CLine) : (s.setLines c l).mem = s.mem := by
  cases c <;> rfl

theorem unreserveOwn_mem (s : State) (c : CacheId) (base : Nat) : (s.unreserveOwn c base).mem = s.mem := by
  cases c <;> rfl

/-- What a fold over the caches drops of a line. -/
theorem dropFold (base : Nat) (l : List CacheId) (s : State) :
    let t := l.foldl (fun t c => t.setLines c (dropLine (t.lines c) base)) s
    Traffic s t ∧ t.mem = s.mem ∧ ∀ d b, held t d b = if d ∈ l ∧ b = base then none else held s d b := by
  induction l generalizing s with
  | nil => exact ⟨.refl s, rfl, fun d b => by simp⟩
  | cons c l ih =>
    obtain ⟨htraffic, hmem, hheld⟩ := ih (s.setLines c (dropLine (s.lines c) base))
    refine ⟨(Traffic.setLines s c _).trans htraffic, hmem.trans (setLines_mem s c _), fun d b => ?_⟩
    rw [List.foldl_cons, hheld, held_dropLine]
    grind

theorem invalidateOthers_traffic (s : State) (me : Option CacheId) (base : Nat) : Traffic s (s.invalidateOthers me base) := by
  obtain ⟨htraffic, -, -⟩ := dropFold base (othersOf me) s
  exact htraffic.trans (unreserveOthers_still _ me base).toTraffic

theorem invalidateOthers_mem (s : State) (me : Option CacheId) (base : Nat) : (s.invalidateOthers me base).mem = s.mem := by
  obtain ⟨-, hmem, -⟩ := dropFold base (othersOf me) s
  exact hmem

theorem held_invalidateOthers (s : State) (me : Option CacheId) (base : Nat) (d : CacheId) (b : Nat) :
    held (s.invalidateOthers me base) d b = if some d ≠ me ∧ b = base then none else held s d b := by
  obtain ⟨-, -, hheld⟩ := dropFold base (othersOf me) s
  rw [State.invalidateOthers, (unreserveOthers_still _ me base).held, hheld]
  simp only [mem_othersOf]

/-- A line with its state shared. -/
def asShared (x : CLine) : CLine := { x with st := .shared }

/-- What shareOthers does to one cache. -/
def shareIn (base : Nat) (s : State) (c : CacheId) : State :=
  match findLine (s.lines c) base with
  | some x => s.setLines c (putLine (s.lines c) (asShared x))
  | none => s

theorem shareIn_traffic (base : Nat) (s : State) (c : CacheId) : Traffic s (shareIn base s c) := by
  unfold shareIn
  split
  · exact .setLines s c _
  · exact .refl s

theorem shareIn_mem (base : Nat) (s : State) (c : CacheId) : (shareIn base s c).mem = s.mem := by
  unfold shareIn
  split
  · exact setLines_mem s c _
  · rfl

theorem held_shareIn (base : Nat) (s : State) (c d : CacheId) (b : Nat) :
    held (shareIn base s c) d b = if d = c ∧ b = base then (held s d b).map asShared else held s d b := by
  unfold shareIn
  split
  case h_1 x hx =>
    have hbase : x.base = base := findLine_base hx
    rw [held_putLine, show (asShared x).base = base from hbase]
    split
    case isTrue h => rw [h.1, h.2, held, hx, Option.map_some]
    case isFalse => rfl
  case h_2 hx =>
    split
    case isTrue h => rw [h.1, h.2, held, hx, Option.map_none]
    case isFalse => rfl

theorem shareOthers_eq (s : State) (me : Option CacheId) (base : Nat) :
    s.shareOthers me base = (othersOf me).foldl (shareIn base) s := rfl

/-- The lines a fold over the caches shares; sharing a line twice is sharing it once. -/
theorem shareFold (base : Nat) (l : List CacheId) (s : State) : Traffic s (l.foldl (shareIn base) s) ∧
    (l.foldl (shareIn base) s).mem = s.mem ∧
    ∀ d b, held (l.foldl (shareIn base) s) d b = if d ∈ l ∧ b = base then (held s d b).map asShared else held s d b := by
  induction l generalizing s with
  | nil => exact ⟨.refl s, rfl, fun d b => by simp⟩
  | cons c l ih =>
    obtain ⟨htraffic, hmem, hheld⟩ := ih (shareIn base s c)
    refine ⟨(shareIn_traffic base s c).trans htraffic, hmem.trans (shareIn_mem base s c), fun d b => ?_⟩
    have htwice : asShared ∘ asShared = asShared := rfl
    rw [List.foldl_cons, hheld, held_shareIn]
    grind [Option.map_map]

theorem shareOthers_traffic (s : State) (me : Option CacheId) (base : Nat) : Traffic s (s.shareOthers me base) := by
  obtain ⟨htraffic, -, -⟩ := shareFold base (othersOf me) s
  exact htraffic

theorem shareOthers_mem (s : State) (me : Option CacheId) (base : Nat) : (s.shareOthers me base).mem = s.mem := by
  obtain ⟨-, hmem, -⟩ := shareFold base (othersOf me) s
  exact hmem

theorem held_shareOthers (s : State) (me : Option CacheId) (base : Nat) (d : CacheId) (b : Nat) :
    held (s.shareOthers me base) d b = if some d ≠ me ∧ b = base then (held s d b).map asShared else held s d b := by
  obtain ⟨-, -, hheld⟩ := shareFold base (othersOf me) s
  rw [shareOthers_eq, hheld]
  simp only [mem_othersOf]

/-- With the line given to one cache and taken from every other. -/
def given (s : State) (c : CacheId) (x : CLine) : State :=
  let t := s.invalidateOthers (some c) x.base
  t.setLines c (putLine (t.lines c) x)

theorem given_traffic (s : State) (c : CacheId) (x : CLine) : Traffic s (given s c x) :=
  (invalidateOthers_traffic s _ _).trans (.setLines _ c _)

theorem held_given (s : State) (c : CacheId) (x : CLine) (d : CacheId) (b : Nat) :
    held (given s c x) d b = if b = x.base then if d = c then some x else none else held s d b := by
  rw [given, held_putLine, held_invalidateOthers]
  grind

theorem given_mem (s : State) (c : CacheId) (x : CLine) : (given s c x).mem = s.mem := by
  rw [given, setLines_mem, invalidateOthers_mem]

/-- With the line given to one cache and shared in every other. -/
def givenShared (s : State) (c : CacheId) (x : CLine) : State :=
  let t := s.shareOthers (some c) x.base
  t.setLines c (putLine (t.lines c) x)

theorem givenShared_traffic (s : State) (c : CacheId) (x : CLine) : Traffic s (givenShared s c x) :=
  (shareOthers_traffic s _ _).trans (.setLines _ c _)

theorem held_givenShared (s : State) (c : CacheId) (x : CLine) (d : CacheId) (b : Nat) :
    held (givenShared s c x) d b = if b = x.base then if d = c then some x else (held s d b).map asShared else held s d b := by
  rw [givenShared, held_putLine, held_shareOthers]
  grind

theorem givenShared_mem (s : State) (c : CacheId) (x : CLine) : (givenShared s c x).mem = s.mem := by
  rw [givenShared, setLines_mem, shareOthers_mem]

theorem heldElsewhere_iff (s : State) (c : CacheId) (base : Nat) :
    s.heldElsewhere (some c) base = false ↔ Sole s c base := by
  simp only [State.heldElsewhere, List.any_eq_false, mem_othersOf, Sole, ne_eq, Option.some.injEq, Option.not_isSome_iff_eq_none]

/-- ReadUnique gives the line to the requester: in M where another cache had it so, else in E (Table 16.3). -/
theorem readUnique_eq (s : State) (c : CacheId) (base : Nat) :
    let u := (s.makeRoom c base).homeStart c.num base
    let d := u.lineData (some c) base true
    s.readUnique c base = given d.2.2.2 c
      ⟨base, if (u.dirtyElsewhere (some c) base).isSome then .modified else .exclusive,
        (d.2.2.2.invalidateOthers (some c) base).homeWorld base, d.2.1, d.2.2.1, false⟩ := rfl

theorem upgrade_held {s : State} {c : CacheId} {base : Nat} {x : CLine} (h : held s c base = some x) :
    s.upgrade c base = given (s.homeStart c.num base) c { x with st := .exclusive } := by
  have hbase : x.base = base := findLine_base h
  subst hbase
  simp only [State.upgrade, h]
  rfl

theorem upgrade_missing {s : State} {c : CacheId} {base : Nat} (h : held s c base = none) : s.upgrade c base = s.readUnique c base := by
  simp only [State.upgrade, h]

theorem makeUnique_eq (s : State) (c : CacheId) (base : Nat) (data : List Byte) :
    let u := (s.makeRoom c base).homeStart c.num base
    s.makeUnique c base data = given u c ⟨base, .modified, (u.invalidateOthers (some c) base).homeWorld base, data, [], false⟩ := rfl

/-- ReadShared, once its data is there: in S where another cache holds the line, else in E (Table 16.3). -/
theorem readShared_eq (s : State) (c : CacheId) (base : Nat) :
    let u := (s.makeRoom c base).homeStart c.num base
    let d := u.lineData (some c) base false
    let t := dirtyMerged d.2.2.2 (some c) base
    s.readShared c base = if d.1 then
      (true, givenShared t c ⟨base, if t.heldElsewhere (some c) base then .shared else .exclusive,
        (t.shareOthers (some c) base).homeWorld base, d.2.1, d.2.2.1, false⟩)
    else (false, d.2.2.2) := rfl

/-- WriteUnique's parts: the dirty copy merged, the other copies gone, the own copy written, and the bytes at the home. -/
theorem writeUnique_eq (s : State) (me : Option CacheId) (agent a : Nat) (bs : List Byte) :
    let u := copyTakes ((dirtyMerged (s.homeStart agent a) me (lineOf a)).invalidateOthers me (lineOf a)) me a bs
    s.writeUnique me agent a bs = if region a = .mram then u.mramWrite a bs else { u with mem := u.mem.putBytes a bs } := by
  unfold State.writeUnique
  dsimp only
  split
  case h_1 h =>
    rw [if_pos h]
    rfl
  case h_2 h =>
    rw [if_neg h]
    rfl

theorem copyTakes_traffic (s : State) (me : Option CacheId) (a : Nat) (bs : List Byte) : Traffic s (copyTakes s me a bs) := by
  unfold copyTakes
  split
  · split
    · exact .setLines s _ _
    · exact .refl s
  · exact .refl s

/-- The copy that takes the bytes keeps its state. -/
theorem held_copyTakes (s : State) (me : Option CacheId) (a : Nat) (bs : List Byte) {d : CacheId} {b : Nat} {x : CLine}
    (h : held (copyTakes s me a bs) d b = some x) : ∃ y, held s d b = some y ∧ x.st = y.st := by
  unfold copyTakes at h
  split at h
  case h_1 c =>
    split at h
    case h_1 y hy =>
      rw [held_putLine] at h
      split at h
      case isTrue hat =>
        obtain ⟨rfl, hb⟩ := hat
        have hbase : y.base = lineOf a := findLine_base hy
        obtain rfl := Option.some.inj h
        exact ⟨y, by rw [hb, hbase]; exact hy, rfl⟩
      case isFalse => exact ⟨x, h, rfl⟩
    case h_2 => exact ⟨x, h, rfl⟩
  case h_2 => exact ⟨x, h, rfl⟩

end Sys2Proof.Proofs
end

section
/-! PROOF. The caches keep one writer per line: O19 and O20 (R354, Table 16.3). -/

namespace Sys2Proof.Proofs

open Sys2Proof Sys2Proof.Machine

/-! ### One writer -/

/-- Lines that go, or keep their state, leave one writer. -/
theorem coherent_of_states {s t : State} (hs : s.coherent)
    (h : ∀ d b x, held t d b = some x → ∃ y, held s d b = some y ∧ x.st = y.st) : t.coherent := by
  intro c d base x y hcd hx hy
  obtain ⟨x', hx', hstx⟩ := h c base x hx
  obtain ⟨y', hy', hsty⟩ := h d base y hy
  obtain ⟨hsx, hsy⟩ := hs c d base x' y' hcd hx' hy'
  exact ⟨hstx.trans hsx, hsty.trans hsy⟩

/-- A line in one cache alone has one writer, and so has every line that stays as it was. -/
theorem coherent_of_sole {s t : State} {c : CacheId} {base : Nat} (hs : s.coherent) (hsole : Sole t c base)
    (hrest : ∀ d b, b ≠ base → held t d b = held s d b) : t.coherent := by
  intro d e b x y hde hx hy
  by_cases hb : b = base
  · subst hb
    exfalso
    by_cases hd : d = c
    · have hnone := hsole e (by rw [← hd]; exact hde.symm)
      rw [held, hy] at hnone
      exact nomatch hnone
    · have hnone := hsole d hd
      rw [held, hx] at hnone
      exact nomatch hnone
  · exact hs d e b x y hde ((hrest d b hb).symm.trans hx) ((hrest e b hb).symm.trans hy)

/-- Where a cache holds a line otherwise than shared, no other holds it. -/
theorem sole_of_coherent {s : State} {c : CacheId} {base : Nat} {x : CLine} (hs : s.coherent) (hx : held s c base = some x)
    (hst : x.st ≠ .shared) : Sole s c base := by
  intro d hd
  cases hy : held s d base with
  | none => rfl
  | some y => exact absurd (hs c d base x y hd.symm hx hy).1 hst

/-- What every transaction keeps: one writer per line, memory's canonical form, and what it has no part in. -/
structure Keeps (s t : State) : Prop extends Traffic s t where
  coherent : s.coherent → t.coherent

namespace Keeps

variable {s t u : State}

theorem refl (s : State) : Keeps s s := ⟨.refl s, id⟩

theorem trans (h : Keeps s t) (k : Keeps t u) : Keeps s u := ⟨h.toTraffic.trans k.toTraffic, k.coherent ∘ h.coherent⟩

theorem ite {p : Prop} [Decidable p] (h : Keeps s t) (k : Keeps s u) : Keeps s (if p then t else u) := by
  split
  · exact h
  · exact k

end Keeps

theorem Still.keeps {s t : State} (h : Still s t) : Keeps s t :=
  ⟨h.toTraffic, fun hs => coherent_of_states hs fun d b x hx => ⟨x, (h.held d b).symm.trans hx, rfl⟩⟩

/-! ### The transactions (Table 16.3) -/

theorem writeBackOut_keeps (s : State) (c : CacheId) (base : Nat) : Keeps s (s.writeBackOut c base) := by
  refine ⟨writeBackOut_traffic s c base, fun hs => coherent_of_states hs fun d b x hx => ?_⟩
  rw [held_writeBackOut] at hx
  split at hx
  · exact nomatch hx
  · exact ⟨x, hx, rfl⟩

theorem makeRoom_keeps (s : State) (c : CacheId) (base : Nat) : Keeps s (s.makeRoom c base) :=
  ⟨makeRoom_traffic s c base, fun hs => coherent_of_states hs fun _ _ x hx => ⟨x, held_makeRoom s c base hx, rfl⟩⟩

theorem invalidateOthers_keeps (s : State) (me : Option CacheId) (base : Nat) : Keeps s (s.invalidateOthers me base) := by
  refine ⟨invalidateOthers_traffic s me base, fun hs => coherent_of_states hs fun d b x hx => ?_⟩
  rw [held_invalidateOthers] at hx
  split at hx
  · exact nomatch hx
  · exact ⟨x, hx, rfl⟩

theorem sole_given (s : State) (c : CacheId) (x : CLine) : Sole (given s c x) c x.base := by
  intro d hd
  rw [held_given, if_pos rfl, if_neg hd]

theorem given_keeps (s : State) (c : CacheId) (x : CLine) : Keeps s (given s c x) :=
  ⟨given_traffic s c x, fun hs => coherent_of_sole hs (sole_given s c x) fun d b hb => by rw [held_given, if_neg hb]⟩

/-- A line given in S, or one that no other cache holds. -/
theorem givenShared_keeps {s : State} {c : CacheId} {x : CLine} (h : x.st = .shared ∨ Sole s c x.base) :
    Keeps s (givenShared s c x) := by
  refine ⟨givenShared_traffic s c x, fun hs => ?_⟩
  have hrest : ∀ d b, b ≠ x.base → held (givenShared s c x) d b = held s d b := fun d b hb => by rw [held_givenShared, if_neg hb]
  rcases h with hshared | hsole
  case inl =>
    have hline : ∀ d y, held (givenShared s c x) d x.base = some y → y.st = .shared := by
      intro d y hy
      rw [held_givenShared, if_pos rfl] at hy
      split at hy
      · rw [← Option.some.inj hy]
        exact hshared
      · obtain ⟨z, -, rfl⟩ := Option.map_eq_some_iff.mp hy
        rfl
    intro d e b y z hde hy hz
    by_cases hb : b = x.base
    · subst hb
      exact ⟨hline d y hy, hline e z hz⟩
    · exact hs d e b y z hde ((hrest d b hb).symm.trans hy) ((hrest e b hb).symm.trans hz)
  case inr =>
    refine coherent_of_sole (c := c) hs (fun d hd => ?_) hrest
    rw [held_givenShared, if_pos rfl, if_neg hd, hsole d hd, Option.map_none]

theorem asked_keeps (s : State) (c : CacheId) (base : Nat) : Keeps s ((s.makeRoom c base).homeStart c.num base) :=
  (makeRoom_keeps s c base).trans (homeStart_still _ _ _).keeps

theorem readShared_keeps (s : State) (c : CacheId) (base : Nat) : Keeps s (s.readShared c base).2 := by
  have hdata := (asked_keeps s c base).trans (lineData_still _ (some c) base false).keeps
  rw [readShared_eq]
  split
  · refine (hdata.trans (dirtyMerged_still _ (some c) base).keeps).trans (givenShared_keeps ?_)
    dsimp only
    split
    case isTrue => exact .inl rfl
    case isFalse h => exact .inr ((heldElsewhere_iff _ c base).mp (Bool.not_eq_true _ ▸ h))
  · exact hdata

theorem readUnique_keeps (s : State) (c : CacheId) (base : Nat) : Keeps s (s.readUnique c base) := by
  rw [readUnique_eq]
  exact ((asked_keeps s c base).trans (lineData_still _ (some c) base true).keeps).trans (given_keeps _ c _)

theorem sole_readUnique (s : State) (c : CacheId) (base : Nat) : Sole (s.readUnique c base) c base := by
  rw [readUnique_eq]
  exact sole_given _ c _

theorem upgrade_keeps (s : State) (c : CacheId) (base : Nat) : Keeps s (s.upgrade c base) := by
  cases h : held s c base with
  | none =>
    rw [upgrade_missing h]
    exact readUnique_keeps s c base
  | some x =>
    rw [upgrade_held h]
    exact (homeStart_still s _ _).keeps.trans (given_keeps _ c _)

theorem sole_upgrade (s : State) (c : CacheId) (base : Nat) : Sole (s.upgrade c base) c base := by
  cases h : held s c base with
  | none =>
    rw [upgrade_missing h]
    exact sole_readUnique s c base
  | some x =>
    rw [upgrade_held h, ← findLine_base h]
    exact sole_given _ c { x with st := .exclusive }

theorem makeUnique_keeps (s : State) (c : CacheId) (base : Nat) (data : List Byte) : Keeps s (s.makeUnique c base data) := by
  rw [makeUnique_eq]
  exact (asked_keeps s c base).trans (given_keeps _ c _)

theorem copyTakes_keeps (s : State) (me : Option CacheId) (a : Nat) (bs : List Byte) : Keeps s (copyTakes s me a bs) :=
  ⟨copyTakes_traffic s me a bs, fun hs => coherent_of_states hs fun _ _ _ hx => held_copyTakes s me a bs hx⟩

theorem writeUnique_keeps (s : State) (me : Option CacheId) (agent a : Nat) (bs : List Byte) : Keeps s (s.writeUnique me agent a bs) := by
  have hcopies := (((homeStart_still s agent a).trans (dirtyMerged_still _ me (lineOf a))).keeps.trans
    (invalidateOthers_keeps _ me (lineOf a))).trans (copyTakes_keeps _ me a bs)
  rw [writeUnique_eq]
  exact .ite (hcopies.trans (mramWrite_still _ a bs).keeps)
    (hcopies.trans (Still.setMem _ (Memory.wf_putBytes _ a bs)).keeps)

/-! ### Stores that drain (R358) -/

theorem own_keeps (s : State) (c : CacheId) (base : Nat) : Keeps s (s.own c base) := by
  unfold State.own
  split
  · exact .ite (upgrade_keeps s c base) (.refl s)
  · exact readUnique_keeps s c base

/-- After a core owns a line no other cache holds it. -/
theorem sole_own {s : State} (hs : s.coherent) (c : CacheId) (base : Nat) : Sole (s.own c base) c base := by
  unfold State.own
  split
  case h_1 x hx =>
    split
    case isTrue => exact sole_upgrade s c base
    case isFalse hst => exact sole_of_coherent hs hx hst
  case h_2 => exact sole_readUnique s c base

theorem storeLine_traffic (s : State) (c : CacheId) (a : Nat) (bs : List Byte) : Traffic s (s.storeLine c a bs) := by
  unfold State.storeLine
  dsimp only
  split
  · exact .setLines s c _
  · exact .refl s

theorem held_storeLine (s : State) (c : CacheId) (a : Nat) (bs : List Byte) {d : CacheId} {b : Nat} (h : d ≠ c ∨ b ≠ lineOf a) :
    held (s.storeLine c a bs) d b = held s d b := by
  unfold State.storeLine
  dsimp only
  split
  case h_1 x hx =>
    have hbase := findLine_base hx
    rw [held_putLine]
    grind
  case h_2 => rfl

/-- Bytes go into a line that no other cache holds. -/
theorem storeLine_coherent {s : State} {c : CacheId} {a : Nat} (hs : s.coherent) (hsole : Sole s c (lineOf a)) (bs : List Byte) :
    (s.storeLine c a bs).coherent :=
  coherent_of_sole hs (fun d hd => (held_storeLine s c a bs (.inl hd)).trans (hsole d hd)) fun _ _ hb => held_storeLine s c a bs (.inr hb)

theorem unreserve_ite (s : State) (c : CoreId) (base : Nat) : (if c = .decani then { s with dec := s.dec.unreserve base }
    else { s with cant := s.cant.unreserve base }) = s.setCore c ((s.core c).unreserve base) := by
  cases c <;> rfl

theorem putPart_keeps (s : State) (c : CoreId) (w : World) (a : Nat) (bs : List Byte) : Keeps s (s.putPart c w a bs).2 := by
  have hcheck := (busCheck_still s (.core c) w true a (leNat (bs.take 4))).keeps
  unfold State.putPart
  dsimp only
  split
  · refine hcheck.trans ?_
    generalize (s.busCheck (.core c) w true a (leNat (bs.take 4))).2 = t
    split
    case h_1 =>
      have hstill := unreserve_still (t.own (cacheOf c) (lineOf a)) c (lineOf a)
      have hown := (own_keeps t (cacheOf c) (lineOf a)).trans hstill.keeps
      rw [unreserve_ite]
      exact ⟨hown.toTraffic.trans (storeLine_traffic _ _ a bs), fun ht =>
        storeLine_coherent (hown.coherent ht) (hstill.sole (sole_own ht _ _)) bs⟩
    case h_2 =>
      rw [unreserve_ite]
      dsimp only
      exact (unreserve_still t c (lineOf a)).keeps.trans (writeUnique_keeps _ _ _ _ _)
    case h_3 => exact (Still.setMem t (Memory.wf_putBytes _ a bs)).keeps
    case h_4 => exact .refl t
  · exact hcheck

theorem putParts_keeps (c : CoreId) (w : World) (l : List (Nat × List Byte)) (s : State) : Keeps s (s.putParts c w l).2 := by
  induction l generalizing s with
  | nil => exact .refl s
  | cons p l ih => exact (putPart_keeps s c w p.1 p.2).trans (ih _)

/-- A NOTICE and the guard's records leave a core its cache and its shape. -/
theorem noticed_still (s : State) (c : CoreId) {q : Core} (hbare : bare q = bare (s.core c)) (hdc : q.dc = (s.core c).dc) :
    Still s (s.setCore c q) := by
  exact .setCore hdc (congrArg Core.shaped hbare : (bare q).shaped = (bare _).shaped)

theorem setPfld_dc (k : Core) (f : Fld) (v : Nat) : (k.setPfld f v).dc = k.dc := rfl

theorem refused_dc (k : Core) (region : Nat) (write imprecise : Bool) : (k.refused region write imprecise).dc = k.dc := by
  simp only [Core.refused, setPfld_dc]

theorem raiseNotice_dc (k : Core) (w : World) (a : Nat) : (k.raiseNotice w a).dc = k.dc := by
  unfold Core.raiseNotice
  split <;> rfl

theorem drainEntry_keeps (s : State) (c : CoreId) (e : SBuf) : Keeps s (s.drainEntry c e) := by
  have hparts := putParts_keeps c e.world (lineParts 4 e.addr e.data) s
  unfold State.drainEntry
  dsimp only
  split
  · split
    · exact hparts
    · exact hparts.trans (noticed_still _ c ((bare_setPfld _ _ _).trans (bare_raiseNotice _ _ _))
        ((setPfld_dc _ _ _).trans (raiseNotice_dc _ _ _))).keeps
  · exact (noticed_still s c ((bare_raiseNotice _ _ _).trans (bare_refused _ _ _ _))
      ((raiseNotice_dc _ _ _).trans (refused_dc _ _ _ _))).keeps

theorem drainOne_keeps (s : State) (c : CoreId) : Keeps s (s.drainOne c) := by
  unfold State.drainOne
  split
  case h_1 => exact .refl s
  case h_2 e rest hbuf =>
    have htaken : Still s (s.setCore c { s.core c with sbuf := rest }) := .setCore rfl rfl
    exact htaken.keeps.trans (drainEntry_keeps _ c e)

/-! ### The commands -/

theorem execReadShared_keeps (s : State) (c : CoreId) (a : Nat) : ∃ t, exec (.readShared c a) s = .next t ∧ Keeps s t := by
  have hcheck := (busCheck_still s (.core c) (s.core c).world false a 0).keeps
  exact ⟨_, rfl, .ite (.refl s) (.ite (.ite (hcheck.trans (readShared_keeps _ _ _)) hcheck) (.refl s))⟩

theorem execReadUnique_keeps (s : State) (c : CoreId) (a : Nat) : ∃ t, exec (.readUnique c a) s = .next t ∧ Keeps s t := by
  have hcheck := (busCheck_still s (.core c) (s.core c).world true a 0).keeps
  exact ⟨_, rfl, .ite (.refl s) (.ite (.ite (hcheck.trans (readUnique_keeps _ _ _)) hcheck) (.refl s))⟩

theorem execUpgrade_keeps (s : State) (c : CoreId) (a : Nat) : ∃ t, exec (.upgrade c a) s = .next t ∧ Keeps s t := by
  have hcheck := (busCheck_still s (.core c) (s.core c).world true a 0).keeps
  refine ⟨_, rfl, .ite (.refl s) (.ite (.ite hcheck ?_) (.refl s))⟩
  split
  · exact .ite (hcheck.trans (upgrade_keeps _ _ _)) hcheck
  · exact hcheck.trans (readUnique_keeps _ _ _)

theorem execMakeUnique_keeps (s : State) (j : Fin 512) (data : List Byte) : ∃ t, exec (.makeUnique j data) s = .next t ∧ Keeps s t :=
  ⟨_, rfl, .ite (.refl s) (makeUnique_keeps s _ _ _)⟩

theorem execReadOnce_keeps (s : State) (by_ : Option CoreId) (a : Nat) : ∃ t, exec (.readOnce by_ a) s = .next t ∧ Keeps s t := by
  have hcheck := (busCheck_still s .debug .nave false (a / 4 * 4) 0).keeps
  refine ⟨_, rfl, .ite (.refl s) ?_⟩
  split
  case h_1 c => exact .ite (fetchLine_still s c _).keeps (.refl s)
  case h_2 =>
    have hread := hcheck.trans (readOnce_still _ 3 (a / 4 * 4) 4).keeps
    exact .ite (.ite hcheck (.ite (hread.trans (Still.emit _ _).keeps) hread)) (.refl s)

theorem execWriteUnique_keeps (s : State) (by_ : Option CoreId) (a : Nat) (v : Word) :
    ∃ t, exec (.writeUnique by_ a v) s = .next t ∧ Keeps s t := by
  have hcheck := (busCheck_still s .debug .nave true (a / 4 * 4) v.toNat).keeps
  refine ⟨_, rfl, .ite (.refl s) ?_⟩
  split
  case h_1 c => exact .ite (putPart_keeps s c _ _ _) (.refl s)
  case h_2 => exact .ite (.ite (hcheck.trans (writeUnique_keeps _ _ _ _ _)) hcheck) (.refl s)

theorem execWriteBack_keeps (s : State) (n : Fin 3) (a : Nat) : ∃ t, exec (.writeBack n a) s = .next t ∧ Keeps s t := by
  refine ⟨_, rfl, .ite (.refl s) ?_⟩
  split
  · exact .ite (writeBackOut_keeps s _ _) (.refl s)
  · exact .refl s

/-- Every command of the caches goes on and keeps one writer per line. -/
theorem busCommand_keeps {c : Instr} (h : busCommand c = true) (s : State) : ∃ t, exec c s = .next t ∧ Keeps s t := by
  unfold busCommand at h
  split at h
  case h_1 c a => exact execReadShared_keeps s c a
  case h_2 c a => exact execReadUnique_keeps s c a
  case h_3 c a => exact execUpgrade_keeps s c a
  case h_4 j data => exact execMakeUnique_keeps s j data
  case h_5 c a => exact execReadOnce_keeps s c a
  case h_6 c a v => exact execWriteUnique_keeps s c a v
  case h_7 n a => exact execWriteBack_keeps s n a
  case h_8 c => exact ⟨_, rfl, .ite (drainOne_keeps s c) (.refl s)⟩
  case h_9 k => exact ⟨_, rfl, (mramDone_still s k.val).keeps⟩
  case h_10 k => exact ⟨_, rfl, .ite (.refl s) (Still.setFld s _ _).keeps⟩
  case h_11 => exact absurd h Bool.false_ne_true

/-! ### The invariant -/

/-- Settles O19: the caches hold nothing at reset. -/
theorem busInvariantAtReset : Obligations.BusInvariantAtReset := by
  unfold Obligations.BusInvariantAtReset
  have hempty : ∀ c b, held State.reset c b = none := by
    intro c b
    cases c <;> rfl
  have hcoherent : State.reset.coherent := fun c _ base x _ _ hx _ => nomatch (hempty c base).symm.trans hx
  exact ⟨fun _ hc => absurd hc List.not_mem_nil, rfl, rfl, rfl, hcoherent, Memory.wf_reset, rfl, rfl⟩

/-- With nothing waiting, and nothing to do of itself, the part stays as it is (Log 1). -/
theorem idle_still {s : State} (hslp : s.slp.entering = none) (hrst : s.rst.restoreDue = false) (hwaits : s.waitingDescs = []) :
    s.idle = s := by
  have hE6 : s.passE6 = s := by rw [State.passE6, hslp]
  have hcrypt : s.restoreAfterCrypt = s := by rw [State.restoreAfterCrypt, hrst, Bool.false_and, if_neg Bool.false_ne_true]
  rw [State.idle, hE6, hcrypt, State.pump_quiet s (by rw [State.quiet, hwaits, List.all_nil])]

/-- The invariant follows what a transaction keeps. -/
theorem busInv_of_keeps {s t : State} (hs : s.busInv) (h : Keeps s t) : t.busInv := by
  obtain ⟨hpending, hslp, hrst, hwaits, hcoherent, hwf, hdec, hcant⟩ := hs
  have haside := h.aside
  simp only [aside, Prod.mk.injEq] at haside
  obtain ⟨hp, hl, hr, hw, hd, hc⟩ := haside
  exact ⟨by rwa [hp], by rwa [hl], by rwa [hr], by rwa [hw], h.coherent hcoherent, h.wf hwf, hd.trans hdec, hc.trans hcant⟩

/-- A command taken off the queue. -/
theorem busInv_rest {s : State} {c : Instr} {rest : List Instr} (hs : s.busInv) (h : s.pending = c :: rest) :
    busCommand c = true ∧ { s with pending := rest }.busInv := by
  obtain ⟨hpending, hslp, hrst, hwaits, hcoherent, hwf, hdec, hcant⟩ := hs
  rw [h, List.forall_mem_cons] at hpending
  obtain ⟨hfirst, hrest⟩ := hpending
  have hlines : ({ s with pending := rest } : State).lines = s.lines := by funext d; cases d <;> rfl
  refine ⟨hfirst, hrest, hslp, hrst, hwaits, ?_, hwf, hdec, hcant⟩
  rw [State.coherent, hlines]
  exact hcoherent

/-- Settles O20: with nothing waiting the part stays as it is; else the first command is one of the caches' and keeps the invariant. -/
theorem busInvariantKept : Obligations.BusInvariantKept := by
  unfold Obligations.BusInvariantKept
  intro s t hs hstep
  unfold step at hstep
  split at hstep
  case h_1 =>
    obtain ⟨-, hslp, hrst, hwaits, -⟩ := id hs
    rw [idle_still hslp hrst hwaits] at hstep
    rwa [← Host.Outcome.next.inj hstep]
  case h_2 c rest hpending =>
    obtain ⟨hcommand, hrest⟩ := busInv_rest hs hpending
    obtain ⟨u, hexec, hkeeps⟩ := busCommand_keeps hcommand { s with pending := rest }
    rw [hexec] at hstep
    rw [← Host.Outcome.next.inj hstep]
    exact busInv_of_keeps hrest hkeeps

end Sys2Proof.Proofs
end

section
/-! PROOF. Loads that the data cache serves and stores that enter the store buffer: O11 (R353, R358, Table 13.6). -/

namespace Sys2Proof.Proofs

open Sys2Proof Sys2Proof.Machine

/-! ### Loads -/

/-- The low bits of a number, sign-extended, are its signed reading. -/
theorem ofInt_signed {n : Nat} (hn : 0 < n) (v : Nat) : BitVec.ofInt 32 (signed n v) = (BitVec.ofNat n v).signExtend 32 := by
  rw [signed_eq_toInt hn]
  rfl

theorem hits_sbuf {s : State} {c : CoreId} {a n : Nat} (h : s.hits c a n = true) : (s.core c).sbuf = [] := by
  simp only [State.hits, Bool.and_eq_true, List.isEmpty_iff] at h
  obtain ⟨⟨-, hbuf⟩, -⟩ := h
  exact hbuf

section

variable {s : State} {i : Issue} {a : Word} {n : Nat} (h : s.issuesOn i = true) (hn : 0 < n)
  (hhits : s.hits i.core a.toNat n = true) (halign : a.toNat % n = 0)
include h hn hhits halign

/-- An aligned load that the data cache serves puts the bytes of its address to use, and that is all (R353). -/
theorem load_hits {word : Word} {addr : Core → Word} {fin : Core → Nat → Core} (ha : addr (found s i) = a)
    (hloops : ∀ k v, SameLoops k (fin k v)) :
    s.instrLoad i word n addr fin = s.retired i 1 (fun k => fin k (leNat (s.cacheBytes i.core a.toNat n))) := by
  obtain ⟨-, hhi⟩ := hits_range hhits
  have hload := loadAt_hit (s := s.issued i) (by rwa [hits_issued]) hn
  refine instr_retires h (fun _ => 1) ?body (hloops _ _)
  case body =>
    simp only [ha, privSpace_below (by omega : a.toNat < 0xE0000000), halign, hload, cacheBytes_issued, Bool.false_and,
      Bool.false_eq_true, if_false, bne_self_eq_false]

/-- A load of a register. -/
theorem load_register {word : Word} {addr : Core → Word} {wd : Reg} {v : Nat → Word} (ha : addr (found s i) = a) :
    s.instrLoad i word n addr (fun k x => k.setW wd (v x)) =
      s.retired i 1 (fun k => k.setW wd (v (leNat (s.cacheBytes i.core a.toNat n)))) :=
  load_hits h hn hhits halign ha fun k _ => Core.setW_loops k wd _

end

theorem setW_setW_loops (k : Core) (wd ws : Reg) (v w : Word) : SameLoops k ((k.setW wd v).setW ws w) := by
  obtain ⟨hlpend, hdla, hdle⟩ := Core.setW_loops k wd v
  obtain ⟨hlpend', hdla', hdle'⟩ := Core.setW_loops (k.setW wd v) ws w
  exact ⟨hlpend'.trans hlpend, hdla'.trans hdla, hdle'.trans hdle⟩

section

variable {s : State} {i : Issue} {wd ws : Reg} {a : Word} (h : s.issuesOn i = true) (ha : (found s i).w ws = a)
  (hhits : s.hits i.core a.toNat 4 = true) (halign : a.toNat % 4 = 0)
include h ha hhits halign

/-- LDWP loads from its base and moves the base on (Table 13.6). -/
theorem ldwp_hits (hne : wd ≠ ws) (m : BitVec 18) : exec (.ldwp i wd ws m) s = .next (s.retired i 1 (fun k =>
    (k.setW wd (BitVec.ofNat 32 (leNat (s.cacheBytes i.core a.toNat 4)))).setW ws (k.w ws + m.signExtend 32))) := by
  refine congrArg Host.Outcome.next ((if_neg hne).trans ?_)
  exact load_hits h (by decide) hhits halign ha fun k v => setW_setW_loops k wd ws (BitVec.ofNat 32 v) (k.w ws + m.signExtend 32)

/-- LDX loads a word of SRAM and reserves its line (R301, R361). -/
theorem ldx_hits : exec (.ldx i wd ws) s = .next (s.retired i 1 (fun k =>
    { k.setW wd (BitVec.ofNat 32 (leNat (s.cacheBytes i.core a.toNat 4))) with resv := some (lineOf a.toNat) })) := by
  obtain ⟨hlo, hhi⟩ := hits_range hhits
  have hload := loadAt_hit (s := s.issued i) (by rwa [hits_issued]) (by decide : 0 < 4)
  have hbuf : (found s i).sbuf = [] := by
    rw [found, State.core_issued]
    exact hits_sbuf hhits
  refine congrArg Host.Outcome.next (instr_retires h (fun _ => 1) ?body (Core.setW_loops (found s i) wd _))
  case body =>
    simp only [ha, privSpace_below (by omega : a.toNat < 0xE0000000), halign, State.drainAll_nil _ _ hbuf, hload, cacheBytes_issued,
      region_sram hlo (by omega : a.toNat < 0x20080000), Region.type, true_or, if_true, Bool.false_and, Bool.false_eq_true, if_false,
      bne_self_eq_false]

end

/-! ### Stores -/

/-- An aligned store to SRAM enters the empty store buffer, and that is all (R353, R358). -/
theorem store_enters {s : State} {i : Issue} {a : Word} {n : Nat} (h : s.issuesOn i = true) (hn : 0 < n) (hfour : n ≤ 4)
    (htakes : s.takesStore i.core a.toNat n = true) (halign : a.toNat % n = 0) {word : Word} {addr : Core → Word} {wt : Reg}
    {fin : Core → Core} (ha : addr (found s i) = a) (hloops : ∀ k, SameLoops k (fin k)) :
    s.instrStore i word n addr wt fin = s.retired i 1 (fun k => fin (k.stored a.toNat (leBytes n (k.w wt).toNat))) := by
  obtain ⟨⟨hlo, hhi⟩, hwaits, hbuf⟩ := (takesStore_iff s i.core a.toNat n).mp htakes
  have hbuf' : (found s i).sbuf = [] := by
    rw [found, State.core_issued]
    exact hbuf
  have hcost : SBuf.cost ⟨(found s i).world, (found s i).sup, a.toNat, false, a.toNat, leBytes n ((found s i).w wt).toNat⟩ ≤ 4 := by
    simp only [SBuf.cost, leBytes_length]
    omega
  refine instr_retires h (fun _ => 1) ?body (hloops _)
  case body =>
    simp only [ha, privSpace_below (by omega : a.toNat < 0xE0000000), halign,
      storeAt_sram hlo (by omega : a.toNat < 0x20080000) (by rwa [accessWaits_issued] : (s.issued i).accessWaits a.toNat = false),
      State.bufferStore_empty _ _ _ hbuf' hcost, State.core_setCore, State.setCore_setCore, Bool.false_and, Bool.false_eq_true, if_false,
      bne_self_eq_false]
    rfl

/-- Settles O11: a load by `load_hits`, LDX by its reservation besides, a store by `store_enters`. -/
theorem loadsAndStores : Obligations.LoadsAndStores := by
  unfold Obligations.LoadsAndStores
  refine ⟨fun s i wd ws m h => ?loads, fun s i wt ws m h => ?stores⟩
  case loads =>
    intro k a num
    refine ⟨fun hhits => ⟨?ldb, ?ldbu⟩, fun hhits halign => ⟨?ldh, ?ldhu⟩, fun hhits halign => ?ldw,
      fun hhits halign hne => ldwp_hits (a := k.w ws) h rfl hhits halign hne m,
      fun hhits halign => ldx_hits (a := k.w ws) h rfl hhits halign⟩
    case ldb =>
      rw [← ofInt_signed (by decide)]
      exact congrArg Host.Outcome.next (load_register (v := fun x => BitVec.ofInt 32 (signed 8 x)) h (by decide) hhits (Nat.mod_one _) rfl)
    case ldbu => exact congrArg Host.Outcome.next (load_register (v := BitVec.ofNat 32) h (by decide) hhits (Nat.mod_one _) rfl)
    case ldh =>
      rw [← ofInt_signed (by decide)]
      exact congrArg Host.Outcome.next (load_register (v := fun x => BitVec.ofInt 32 (signed 16 x)) h (by decide) hhits halign rfl)
    case ldhu => exact congrArg Host.Outcome.next (load_register (v := BitVec.ofNat 32) h (by decide) hhits halign rfl)
    case ldw => exact congrArg Host.Outcome.next (load_register (v := BitVec.ofNat 32) h (by decide) hhits halign rfl)
  case stores =>
    intro k a b
    refine ⟨fun htakes => ?stb, fun htakes halign => ?sth, fun htakes halign => ?stw, fun htakes halign => ?stwp⟩
    case stb =>
      exact congrArg Host.Outcome.next (store_enters h (by decide) (by decide) htakes (Nat.mod_one _) rfl fun _ => ⟨rfl, rfl, rfl⟩)
    case sth => exact congrArg Host.Outcome.next (store_enters h (by decide) (by decide) htakes halign rfl fun _ => ⟨rfl, rfl, rfl⟩)
    case stw => exact congrArg Host.Outcome.next (store_enters h (by decide) (by decide) htakes halign rfl fun _ => ⟨rfl, rfl, rfl⟩)
    case stwp =>
      exact congrArg Host.Outcome.next (store_enters (fin := fun k => k.setW ws (k.w ws + m.signExtend 32)) h (by decide) (by decide) htakes
        halign rfl fun k => Core.setW_loops k ws _)

end Sys2Proof.Proofs
end

section
/-! PROOF. The transactions of the caches on lines of SRAM: O21 (R354, R356, Table 16.3). -/

namespace Sys2Proof.Proofs

open Sys2Proof Sys2Proof.Machine

/-! ### Lines of SRAM and their home -/

theorem lineOf_sram {a : Nat} (hlo : 0x20000000 ≤ a) (hhi : a < 0x20080000) : 0x20000000 ≤ lineOf a ∧ lineOf a < 0x20080000 := by
  simp only [lineOf]
  omega

theorem wordAt_sram {a : Nat} (hlo : 0x20000000 ≤ a) (hhi : a < 0x20080000) : 0x20000000 ≤ a / 4 * 4 ∧ a / 4 * 4 < 0x20080000 := by
  omega

theorem lineOf_wordAt (a : Nat) : lineOf (a / 4 * 4) = lineOf a := by
  simp only [lineOf]
  omega

section

variable {b : Nat} (hlo : 0x20000000 ≤ b) (hhi : b < 0x20080000)
include hlo hhi

theorem homeStart_sram (s : State) (agent : Nat) : s.homeStart agent b = s.setFld fCOHPTR_SRAMPTR ((agent + 1) % 4) := by
  rw [State.homeStart, homePtr, region_sram hlo hhi]

theorem homeWorld_sram (s : State) : s.homeWorld b = .nave := by
  rw [State.homeWorld, region_sram hlo hhi]

theorem homeRead_sram {s : State} {n : Nat} (hgood : s.mem.firstBad b n = none) : s.homeRead b n = (true, s.mem.bytes b n, s) := by
  rw [State.homeRead, region_sram hlo hhi]
  simp only [hgood]

end

theorem inSlice_idle {s : State} (h : s.st.running = false) (lo hi : Nat) : s.inSlice lo hi = false := by
  rw [State.inSlice, h, Bool.false_and]

/-! ### The other caches -/

theorem Still.dirtyElsewhere {s t : State} (h : Still s t) (me : Option CacheId) (base : Nat) :
    t.dirtyElsewhere me base = s.dirtyElsewhere me base := by
  rw [State.dirtyElsewhere, h.lines, ← State.dirtyElsewhere]

theorem dirtyElsewhere_none {s : State} {me : Option CacheId} {base : Nat} (h : ∀ d, some d ≠ me → held s d base = none) :
    s.dirtyElsewhere me base = none := by
  rw [State.dirtyElsewhere, List.findSome?_eq_none_iff]
  intro d hd
  simp only [h d ((mem_othersOf me d).mp hd), Option.filter_none]

theorem dirtyElsewhere_sole {s : State} {c : CacheId} {base : Nat} (h : Sole s c base) : s.dirtyElsewhere (some c) base = none :=
  dirtyElsewhere_none fun d hd => h d (by simpa using hd)

/-- The one holder of a modified line is found. -/
theorem dirtyElsewhere_some {s : State} (hs : s.coherent) {me : Option CacheId} {base : Nat} {d : CacheId} {x : CLine}
    (hd : some d ≠ me) (hx : held s d base = some x) (hst : x.st = .modified) : s.dirtyElsewhere me base = some x := by
  have hsole := sole_of_coherent hs hx (by rw [hst]; nofun)
  have hfilter : (held s d base).filter (fun x => x.st = .modified) = some x := by simp [hx, hst]
  cases hfound : s.dirtyElsewhere me base with
  | none =>
    rw [State.dirtyElsewhere, List.findSome?_eq_none_iff] at hfound
    exact absurd (hfilter.symm.trans (hfound d ((mem_othersOf me d).mpr hd))) nofun
  | some y =>
    obtain ⟨e, -, hy⟩ := List.exists_of_findSome?_eq_some hfound
    by_cases he : e = d
    · rw [← hfilter, ← hy, he]
    · simp only [hsole e he, Option.filter_none] at hy
      exact nomatch hy

theorem dirtyMerged_none {s : State} {me : Option CacheId} {base : Nat} (h : s.dirtyElsewhere me base = none) :
    dirtyMerged s me base = s := by
  rw [dirtyMerged, h]

theorem dirtyMerged_some {s : State} {me : Option CacheId} {base : Nat} {x : CLine} (h : s.dirtyElsewhere me base = some x) :
    dirtyMerged s me base = s.lineToMemory x := by
  rw [dirtyMerged, h]

/-- With no other holder there is nothing to share. -/
theorem shareOthers_sole {s : State} {c : CacheId} {base : Nat} (h : Sole s c base) : s.shareOthers (some c) base = s := by
  rw [shareOthers_eq]
  refine foldl_fixed_of_mem fun d hd => ?_
  rw [mem_othersOf] at hd
  simp only [shareIn, h d (by simpa using hd)]

theorem lineData_dirty {s : State} {me : Option CacheId} {base : Nat} {x : CLine} (h : s.dirtyElsewhere me base = some x)
    (forStore : Bool) : s.lineData me base forStore = (true, x.data, x.bad, s) := by
  rw [State.lineData, h]

theorem lineData_home {s : State} {me : Option CacheId} {base : Nat} (hlo : 0x20000000 ≤ base) (hhi : base < 0x20080000)
    (h : s.dirtyElsewhere me base = none) (hgood : s.mem.firstBad base 32 = none) :
    s.lineData me base false = (true, s.mem.bytes base 32, [], s) := by
  simp only [State.lineData, h, Bool.false_and, Bool.false_eq_true, if_false, homeRead_sram hlo hhi hgood]

theorem lineData_store {s : State} {me : Option CacheId} {base : Nat} (hlo : 0x20000000 ≤ base) (hhi : base < 0x20080000)
    (h : s.dirtyElsewhere me base = none) : (s.lineData me base true).2.1 = s.mem.bytes base 32 := by
  have hparity : parityKept base = true := by simp [parityKept, hlo, hhi]
  simp only [State.lineData, h, hparity, Bool.and_self, if_true]

/-! ### Requests of a core -/

section

variable {s : State} {c : CoreId} {a : Nat} (hup : s.cacheUp c = true) (hlo : 0x20000000 ≤ a) (hhi : a < 0x20080000)
include hup hlo hhi

theorem exec_readShared_sram (hmiss : held s (cacheOf c) (lineOf a) = none) :
    exec (.readShared c a) s = .next (s.readShared (cacheOf c) (lineOf a)).2 := by
  refine congrArg Host.Outcome.next ?_
  simp [hup, region_sram hlo hhi, Region.type, State.busCheck_sram s _ _ _ a _ hlo hhi, hmiss]

theorem exec_readUnique_sram (hmiss : held s (cacheOf c) (lineOf a) = none) :
    exec (.readUnique c a) s = .next (s.readUnique (cacheOf c) (lineOf a)) := by
  refine congrArg Host.Outcome.next ?_
  simp [hup, region_sram hlo hhi, Region.type, State.busCheck_sram s _ _ _ a _ hlo hhi, hmiss]

theorem exec_upgrade_sram {x : CLine} (hx : held s (cacheOf c) (lineOf a) = some x) (hst : x.st = .shared) :
    exec (.upgrade c a) s = .next (s.upgrade (cacheOf c) (lineOf a)) := by
  refine congrArg Host.Outcome.next ?_
  simp [hup, region_sram hlo hhi, Region.type, State.busCheck_sram s _ _ _ a _ hlo hhi, hx, hst]

/-- ReadShared of a line that no cache holds: the requester holds it in E, from memory. -/
theorem readShared_clean (hmiss : held s (cacheOf c) (lineOf a) = none) (hsole : Sole s (cacheOf c) (lineOf a))
    (hgood : s.mem.firstBad (lineOf a) 32 = none)
    (hroom : ((s.lines (cacheOf c)).filter (fun x => x.base / 32 % 32 = lineOf a / 32 % 32)).length < 4) :
    exec (.readShared c a) s = .next ((s.setFld fCOHPTR_SRAMPTR (((cacheOf c).num + 1) % 4)).setLines (cacheOf c)
      (putLine (s.lines (cacheOf c)) ⟨lineOf a, .exclusive, .nave, s.mem.bytes (lineOf a) 32, [], false⟩)) := by
  obtain ⟨hblo, hbhi⟩ := lineOf_sram hlo hhi
  have hstill := Still.setFld s fCOHPTR_SRAMPTR (((cacheOf c).num + 1) % 4)
  have hasked := hstill.sole hsole
  have hdirty := dirtyElsewhere_sole hasked
  rw [exec_readShared_sram hup hlo hhi hmiss, readShared_eq, makeRoom_roomy _ _ _ hroom, homeStart_sram hblo hbhi]
  simp only [lineData_home hblo hbhi hdirty hgood, dirtyMerged_none hdirty, (heldElsewhere_iff _ _ _).mpr hasked, givenShared,
    shareOthers_sole hasked, homeWorld_sram hblo hbhi, hstill.lines, if_true, Bool.false_eq_true, if_false]
  rfl

/-- ReadShared of a line that another cache has modified: both share it, and its data goes to memory. -/
theorem readShared_dirty {d : CacheId} {x : CLine} (hmiss : held s (cacheOf c) (lineOf a) = none) (hd : d ≠ cacheOf c)
    (hx : held s d (lineOf a) = some x) (hst : x.st = .modified) (hs : s.coherent)
    (hroom : ((s.lines (cacheOf c)).filter (fun x => x.base / 32 % 32 = lineOf a / 32 % 32)).length < 4) :
    ∃ t : State, exec (.readShared c a) s = .next t ∧
      held t (cacheOf c) (lineOf a) = some ⟨lineOf a, .shared, .nave, x.data, x.bad, false⟩ ∧
      held t d (lineOf a) = some (asShared x) ∧ t.mem = (s.mem.putBytes (lineOf a) x.data).markBad (lineOf a) x.bad := by
  obtain ⟨hblo, hbhi⟩ := lineOf_sram hlo hhi
  have hbase : x.base = lineOf a := findLine_base hx
  have hstill := Still.setFld s fCOHPTR_SRAMPTR (((cacheOf c).num + 1) % 4)
  have hmerged := hstill.trans (lineToMemory_still _ x)
  have hdirty := (hstill.dirtyElsewhere _ _).trans (dirtyElsewhere_some hs (by simpa using hd : some d ≠ some (cacheOf c)) hx hst)
  have hothers : ∀ u : State, Still s u → u.heldElsewhere (some (cacheOf c)) (lineOf a) = true := by
    intro u hu
    refine Bool.not_eq_false _ ▸ fun hnone => ?_
    have hgone := (heldElsewhere_iff _ _ _).mp hnone d hd
    rw [hu.held, hx] at hgone
    exact nomatch hgone
  rw [exec_readShared_sram hup hlo hhi hmiss, readShared_eq, makeRoom_roomy _ _ _ hroom, homeStart_sram hblo hbhi]
  simp only [lineData_dirty hdirty, dirtyMerged_some hdirty, hothers _ hmerged, homeWorld_sram hblo hbhi, if_true]
  refine ⟨_, rfl, ?_, ?_, ?_⟩
  · rw [held_givenShared, if_pos rfl, if_pos rfl]
  · rw [held_givenShared, if_pos rfl, if_neg hd, hmerged.held, hx, Option.map_some]
  · rw [givenShared_mem, ← hbase]
    rfl

/-- ReadUnique: the requester alone holds the line, not shared; with room for it, its data is the modified holder's, else memory's. -/
theorem readUnique_owns (hmiss : held s (cacheOf c) (lineOf a) = none) : ∃ t x, exec (.readUnique c a) s = .next t ∧
    held t (cacheOf c) (lineOf a) = some x ∧ x.st ≠ .shared ∧ Sole t (cacheOf c) (lineOf a) ∧
    (((s.lines (cacheOf c)).filter (fun x => x.base / 32 % 32 = lineOf a / 32 % 32)).length < 4 →
      x.data = ((s.dirtyElsewhere (some (cacheOf c)) (lineOf a)).map CLine.data).getD (s.mem.bytes (lineOf a) 32)) := by
  obtain ⟨hblo, hbhi⟩ := lineOf_sram hlo hhi
  have hsole := sole_readUnique s (cacheOf c) (lineOf a)
  rw [exec_readUnique_sram hup hlo hhi hmiss]
  rw [readUnique_eq] at hsole ⊢
  refine ⟨_, _, rfl, by rw [held_given, if_pos rfl, if_pos rfl], ?state, hsole, fun hroom => ?data⟩
  case state =>
    dsimp only
    split <;> nofun
  case data =>
    have hstill := homeStart_still s (cacheOf c).num (lineOf a)
    dsimp only
    rw [makeRoom_roomy _ _ _ hroom, ← hstill.dirtyElsewhere]
    cases hdirty : (s.homeStart (cacheOf c).num (lineOf a)).dirtyElsewhere (some (cacheOf c)) (lineOf a) with
    | some y => rw [lineData_dirty hdirty]; rfl
    | none => rw [lineData_store hblo hbhi hdirty]; rfl

/-- Upgrade: the copy becomes E, and no other cache holds the line. -/
theorem upgrade_owns {x : CLine} (hx : held s (cacheOf c) (lineOf a) = some x) (hst : x.st = .shared) :
    ∃ t : State, exec (.upgrade c a) s = .next t ∧ held t (cacheOf c) (lineOf a) = some { x with st := .exclusive } ∧
      Sole t (cacheOf c) (lineOf a) ∧ t.mem = s.mem := by
  have hbase : lineOf a = x.base := (findLine_base hx).symm
  refine ⟨_, exec_upgrade_sram hup hlo hhi hx hst, ?_, sole_upgrade s _ _, ?_⟩
  · rw [upgrade_held hx, held_given, if_pos hbase, if_pos rfl]
  · rw [upgrade_held hx, given_mem]
    rfl

end

/-- MakeUnique: the Scriptorium's cache holds the line with the data given, and no core does. -/
theorem makeUnique_owns {s : State} (hrole : s.role = .chapter) (hidle : s.st.running = false) {j : Nat} (hj : j < 512)
    (data : List Byte) : let base := 0x2007C000 + 32 * j
    exec (.makeUnique ⟨j, hj⟩ data) s = .next (s.makeUnique .desc base (padTo 32 data)) ∧
    (s.makeUnique .desc base (padTo 32 data)).mem = s.mem ∧
    held (s.makeUnique .desc base (padTo 32 data)) .desc base = some ⟨base, .modified, .nave, padTo 32 data, [], false⟩ ∧
    Sole (s.makeUnique .desc base (padTo 32 data)) .desc base := by
  intro base
  have hroom : s.makeRoom .desc base = s := by simp [State.makeRoom]
  refine ⟨congrArg Host.Outcome.next ?exec, ?_⟩
  case exec => exact if_neg (by rw [hrole, inSlice_idle hidle]; decide)
  rw [makeUnique_eq, hroom]
  refine ⟨given_mem _ _ _, ?_, sole_given _ _ _⟩
  rw [held_given, if_pos rfl, if_pos rfl, homeWorld_sram (by omega) (by omega)]

/-! ### Requesters without a cache, and write-backs -/

/-- A byte of a number. -/
theorem leBytes_getElem (n v j : Nat) (h : j < (leBytes n v).length) : (leBytes n v)[j] = BitVec.ofNat 8 (v / 2 ^ (8 * j)) := by
  induction n generalizing v j with
  | zero => exact absurd h (Nat.not_lt_zero j)
  | succ n ih =>
    cases j with
    | zero => simp [leBytes]
    | succ j =>
      have hpow : 2 ^ (8 * (j + 1)) = 256 * 2 ^ (8 * j) := by ring
      simp only [leBytes, List.getElem_cons_succ, ih, Nat.div_div_eq_div_mul, hpow]

/-- A byte of a word. -/
theorem leBytes_word (v : Word) (j : Nat) (h : j < (leBytes 4 v.toNat).length) :
    (leBytes 4 v.toNat)[j] = v.extractLsb' (8 * j) 8 := by
  rw [leBytes_getElem, BitVec.extractLsb', Nat.shiftRight_eq_div_pow]

section

variable {s : State} {a : Nat} (hidle : s.st.running = false) (hlo : 0x20000000 ≤ a) (hhi : a < 0x20080000)
include hidle hlo hhi

/-- ReadOnce of a word that no cache holds answers memory's (R354). -/
theorem readOnce_word (hclean : ∀ d, held s d (lineOf a) = none) (hgood : s.mem.firstBad (a / 4 * 4) 4 = none) :
    exec (.readOnce none a) s =
      .next ((s.setFld fCOHPTR_SRAMPTR 0).emit (.reply (a / 4 * 4) (s.mem.bytes (a / 4 * 4) 4))) := by
  obtain ⟨hwlo, hwhi⟩ := wordAt_sram hlo hhi
  have hstill := Still.setFld s fCOHPTR_SRAMPTR 0
  have hdirty : (s.setFld fCOHPTR_SRAMPTR 0).dirtyElsewhere none (lineOf a) = none :=
    (hstill.dirtyElsewhere _ _).trans (dirtyElsewhere_none fun d _ => hclean d)
  have hread := homeRead_sram hwlo hwhi (s := s.setFld fCOHPTR_SRAMPTR 0) (n := 4) hgood
  refine congrArg Host.Outcome.next ?_
  simp [inSlice_idle hidle, region_sram hlo hhi, Region.type, State.busCheck_sram s _ _ _ _ _ hwlo hwhi, State.readOnce,
    homeStart_sram hwlo hwhi, lineOf_wordAt, hdirty, hread]

/-- ReadOnce for a core's instruction cache fills the line from memory (R351, R354). -/
theorem readOnce_fill {c : CoreId} (hclean : ∀ d, held s d (lineOf a) = none) (hgood : s.mem.firstBad (lineOf a) 32 = none)
    (hup : s.cacheUp c = true) (hmiss : (s.core c).ic.any (fun p => p.1 = lineOf a) = false) :
    exec (.readOnce (some c) a) s = .next (s.setCore c { s.core c with
      ic := ((lineOf a, s.mem.bytes (lineOf a) 32) :: (s.core c).ic).take 256 }) := by
  obtain ⟨hblo, hbhi⟩ := lineOf_sram hlo hhi
  have hdirty := dirtyElsewhere_none (me := none) fun d _ => hclean d
  refine congrArg Host.Outcome.next ?_
  simp only [inSlice_idle hidle, hup, region_sram hlo hhi, Region.type, State.fetchLine, hmiss, State.busCheck_sram s _ _ _ _ _ hblo hbhi,
    hdirty, homeRead_sram hblo hbhi hgood, Bool.false_eq_true, if_false, decide_true, Bool.true_or, Bool.and_self, Bool.not_true, if_true]

/-- WriteUnique without a cache puts the word into memory, and no cache keeps the line (R354). -/
theorem writeUnique_stores (v : Word) : ∃ t : State, exec (.writeUnique none a v) s = .next t ∧ (∀ d, held t d (lineOf a) = none) ∧
    (∀ j < 4, t.mem.byte (a / 4 * 4 + j) = v.extractLsb' (8 * j) 8) ∧
    ((∀ d, held s d (lineOf a) = none) → ∀ b, (b < a / 4 * 4 ∨ a / 4 * 4 + 4 ≤ b) → t.mem.byte b = s.mem.byte b) := by
  obtain ⟨hwlo, hwhi⟩ := wordAt_sram hlo hhi
  have hexec : exec (.writeUnique none a v) s = .next (s.writeUnique none 3 (a / 4 * 4) (leBytes 4 v.toNat)) := by
    refine congrArg Host.Outcome.next ?_
    simp [inSlice_idle hidle, region_sram hlo hhi, Region.type, State.busCheck_sram s _ _ _ _ _ hwlo hwhi]
  have hnotMram : region (a / 4 * 4) ≠ .mram := by
    rw [region_sram hwlo hwhi]
    nofun
  refine ⟨_, hexec, ?_⟩
  rw [writeUnique_eq, if_neg hnotMram, lineOf_wordAt]
  refine ⟨fun d => ?gone, fun j hj => ?stored, fun hclean b hb => ?frame⟩
  case gone =>
    refine ((Still.setMem _ (Memory.wf_putBytes _ _ _)).held d (lineOf a)).trans ?_
    exact (held_invalidateOthers _ none (lineOf a) d (lineOf a)).trans (if_pos ⟨nofun, rfl⟩)
  case stored =>
    have hj' : j < (leBytes 4 v.toNat).length := by rwa [leBytes_length]
    exact (Mem.byte_putBytes _ _ j _ hj').trans (leBytes_word v j hj')
  case frame =>
    refine (Mem.byte_putBytes_outside _ _ b _ (by rwa [leBytes_length])).trans ?_
    have hdirty : (s.homeStart 3 (a / 4 * 4)).dirtyElsewhere none (lineOf a) = none :=
      ((homeStart_still s _ _).dirtyElsewhere _ _).trans (dirtyElsewhere_none fun d _ => hclean d)
    rw [dirtyMerged_none hdirty]
    exact congrArg (Mem.byte · b) (invalidateOthers_mem _ none (lineOf a))

end

theorem writeBackOut_mem {s : State} {c : CacheId} {base : Nat} {x : CLine} (hx : held s c base = some x) (hst : x.st = .modified) :
    (s.writeBackOut c base).mem = (s.mem.putBytes base x.data).markBad base x.bad := by
  have hbase : x.base = base := findLine_base hx
  subst hbase
  simp only [State.writeBackOut, hx, hst, if_true, State.lineToMemory, State.homeStart, State.setFld_mem, unreserveOwn_mem, setLines_mem]

/-- WriteBack puts a modified line into memory, and its cache is without it (R354). -/
theorem writeBack_stores {s : State} {a : Nat} {n : Fin 3} (hidle : s.st.running = false) {x : CLine}
    (hx : held s (agentCache n) (lineOf a) = some x) (hst : x.st = .modified) (hlen : x.data.length = 32) :
    ∃ t : State, exec (.writeBack n a) s = .next t ∧ held t (agentCache n) (lineOf a) = none ∧
      (∀ j < 32, t.mem.byte (lineOf a + j) = x.data.getD j 0) ∧
      (∀ b, (b < lineOf a ∨ lineOf a + 32 ≤ b) → t.mem.byte b = s.mem.byte b) := by
  have hexec : exec (.writeBack n a) s = .next (s.writeBackOut (agentCache n) (lineOf a)) := by
    refine congrArg Host.Outcome.next ?_
    simp only [inSlice_idle hidle, hx, hst, Bool.false_eq_true, if_false, if_true]
  refine ⟨_, hexec, by rw [held_writeBackOut, if_pos ⟨rfl, rfl⟩], fun j hj => ?line, fun b hb => ?frame⟩
  case line =>
    rw [writeBackOut_mem hx hst, List.getD_eq_getElem _ _ (by omega)]
    exact Mem.byte_putBytes s.mem (lineOf a) j x.data (by omega)
  case frame =>
    rw [writeBackOut_mem hx hst]
    exact Mem.byte_putBytes_outside s.mem (lineOf a) b x.data (by omega)

/-- Settles O21, one lemma for each transaction. -/
theorem cacheTransactions : Obligations.CacheTransactions := by
  unfold Obligations.CacheTransactions
  refine ⟨fun s c a hup hlo hhi => ?requests, fun s a v n c hidle hlo hhi => ?transfers⟩
  case requests =>
    intro own base others
    refine ⟨fun hmiss hothers hgood hroom => readShared_clean hup hlo hhi hmiss hothers hgood hroom,
      fun d x hmiss hd hx hst hs hroom => readShared_dirty hup hlo hhi hmiss hd hx hst hs hroom, fun hmiss => ?readUnique,
      fun x hx hst => upgrade_owns hup hlo hhi hx hst, fun j data hrole hidle => ?makeUnique⟩
    case readUnique =>
      obtain ⟨t, x, hexec, hx, hst, hsole, hdata⟩ := readUnique_owns hup hlo hhi hmiss
      refine ⟨t, x, hexec, hx, hst, hsole, fun hroom => (hdata hroom).trans ?_⟩
      cases s.dirtyElsewhere (some own) base <;> rfl
    case makeUnique =>
      obtain ⟨hexec, hmem, hx, hsole⟩ := makeUnique_owns hrole hidle j.isLt data
      exact ⟨_, hexec, hmem, hx, hsole .dec nofun, hsole .cant nofun⟩
  case transfers =>
    intro base w clean
    exact ⟨readOnce_word hidle hlo hhi, readOnce_fill hidle hlo hhi, writeUnique_stores hidle hlo hhi v,
      fun x hx hst hlen => writeBack_stores hidle hx hst hlen⟩

end Sys2Proof.Proofs
end

section
/-! PROOF. What a step runs, and the register file: O58 (R1, Log 1) and O4 (Table 12.1). -/

namespace Sys2Proof.Proofs

open Sys2Proof Sys2Proof.Machine

theorem step_cons {s : State} {c : Instr} {rest : List Instr} (h : s.pending = c :: rest) :
    step s = exec c { s with pending := rest } := by
  rw [step, h]

/-- With no sleep entry under way and nothing to restore, the block of itself only takes descriptors (Log 1). -/
theorem idle_pump {s : State} (hslp : s.slp.entering = none) (hrst : s.rst.restoreDue = false) : s.idle = s.pump := by
  have hE6 : s.passE6 = s := by rw [State.passE6, hslp]
  have hcrypt : s.restoreAfterCrypt = s := by rw [State.restoreAfterCrypt, hrst, Bool.false_and, if_neg Bool.false_ne_true]
  rw [State.idle, hE6, hcrypt]

/-- Settles O58. -/
theorem stepRunsTheCommand : Obligations.StepRunsTheCommand := by
  unfold Obligations.StepRunsTheCommand
  refine ⟨fun s c => step_cons rfl, fun s c rest => step_cons, fun s hpending hslp hrst hquiet => ?_⟩
  rw [step, hpending]
  exact congrArg Host.Outcome.next ((idle_pump hslp hrst).trans (State.pump_quiet s hquiet))

/-! ### The register file -/

/-- The index of a copy of w14 is one of four. -/
theorem spIx_lt (w : World) (sup : Bool) : spIx w sup < 4 := by
  cases w <;> cases sup <;> decide

theorem setW_sp (k : Core) (v : Word) : k.setW 14 v = k.setSp (spIx k.world k.sup) v := if_pos rfl

theorem setW_gpr (k : Core) {r : Reg} (h : r ≠ 14) (v : Word) : k.setW r v = { k with gpr := k.gpr.set r.val v } := if_neg h

theorem w_sp (k : Core) : k.w 14 = k.sp.getD (spIx k.world k.sup) 0 := if_pos rfl

theorem w_gpr (k : Core) {r : Reg} (h : r ≠ 14) : k.w r = k.gpr.getD r.val 0 := if_neg h

/-- A write of w14 is seen there with bits [1:0] zero. -/
theorem w_setW_sp {k : Core} (hsp : k.sp.length = 4) (v : Word) : (k.setW 14 v).w 14 = v &&& 0xFFFFFFFC := by
  have hlt : spIx k.world k.sup < k.sp.length := hsp ▸ spIx_lt k.world k.sup
  rw [setW_sp, w_sp]
  change (k.sp.set (spIx k.world k.sup) (v &&& 0xFFFFFFFC)).getD (spIx k.world k.sup) 0 = _
  simp [hlt]

/-- A write of another register is seen there. -/
theorem w_setW_gpr {k : Core} (hgpr : k.gpr.length = 16) {r : Reg} (h : r ≠ 14) (v : Word) : (k.setW r v).w r = v := by
  have hlt : r.val < k.gpr.length := by rw [hgpr]; exact r.isLt
  rw [w_gpr _ h, setW_gpr k h]
  simp [hlt]

/-- A write is seen in no other register. -/
theorem w_setW_other (k : Core) {r q : Reg} (h : q ≠ r) (v : Word) : (k.setW r v).w q = k.w q := by
  by_cases hr : r = 14
  · subst hr
    rw [w_gpr _ h, w_gpr _ h, setW_sp, Core.setSp]
  · rw [setW_gpr k hr]
    by_cases hq : q = 14
    · subst hq
      rw [w_sp, w_sp]
      rfl
    · have hne : r.val ≠ q.val := fun e => h (Fin.ext e.symm)
      rw [w_gpr _ hq, w_gpr _ hq]
      simp [List.getD_eq_getElem?_getD, List.getElem?_set_ne hne]

/-- Settles O4: what a write of w14 and of another register leaves. -/
theorem generalRegisters : Obligations.GeneralRegisters := by
  unfold Obligations.GeneralRegisters
  intro k r q v hgpr hsp
  refine ⟨?seen, ?rest⟩
  case seen =>
    by_cases hq : q = r
    · subst hq
      by_cases h14 : q = 14
      · subst h14
        rw [if_pos rfl, if_pos rfl, w_setW_sp hsp]
      · rw [if_pos rfl, if_neg h14, w_setW_gpr hgpr h14]
    · rw [if_neg hq, w_setW_other k hq]
  case rest =>
    by_cases h14 : r = 14
    · subst h14
      rw [setW_sp]
      refine ⟨rfl, rfl, rfl, rfl, hgpr, by simpa [Core.setSp] using hsp, fun j hj => ?_⟩
      exact List.getElem?_set_ne hj.symm
    · rw [setW_gpr k h14]
      exact ⟨rfl, rfl, rfl, rfl, by simpa using hgpr, hsp, fun j _ => rfl⟩

end Sys2Proof.Proofs
end

section
/-! PROOF. Rhoco's writes end a reservation of Cantoris (R361): the refutations of O54 (VLOG_POP) and of O57 (SHA256). -/

namespace Sys2Proof.Proofs

open Sys2Proof Sys2Proof.Machine

/-! ### VLOG_POP -/

/-- An entry of the violation log. -/
def vlogEntry : List Byte := List.replicate 16 0

/-- A booted Cell with one violation to log, whose Cantoris has reserved the line of the log's first place. -/
def reservedLog : State :=
  { bootedCell with
    sac := { bootedCell.sac with vq := [vlogEntry] }
    cant := { bootedCell.cant with resv := some 0x10011000 } }

/-- Rhoco's write of the entry ends the reservation. -/
theorem vlogPop_unreserves : ∃ t, exec .vlogPop reservedLog = .next t ∧ t.cant.resv = none :=
  ⟨_, rfl, by decide +kernel⟩

/-- Refutes O54: its clause on VLOG_POP says that Cantoris stays as it is, with its reservation, but Rhoco's write of the entry into the
ring ends a reservation of its line (R361), of which no hypothesis of the clause speaks. -/
theorem not_enginesAndClaims : ¬ Obligations.EnginesAndClaims := by
  unfold Obligations.EnginesAndClaims
  intro h
  obtain ⟨-, -, -, -, -, -, -, -, -, -, -, -, -, -, hpop⟩ := h reservedLog 0
  obtain ⟨t, hrun, -, -, -, -, -, -, hcant, -⟩ := hpop vlogEntry [] rfl rfl rfl rfl rfl
  obtain ⟨u, hrun', hlost⟩ := vlogPop_unreserves
  obtain rfl : t = u := Host.Outcome.next.inj (hrun.symm.trans hrun')
  rw [hcant] at hlost
  exact absurd hlost (by decide)

/-! ### SHA256 -/

/-- The Cell of O39's refutation, whose Decani asks for the digest of no byte at the start of a line of SRAM that Cantoris has reserved. -/
def reservedDigest : State :=
  { reservedCell with
    dec := { reservedCell.dec with gpr := [0x20000100, 0, 0x20000200] ++ List.replicate 13 0 }
    cant := { reservedCell.cant with resv := some 0x20000200 } }

theorem reservedDigest_rhoco : reservedDigest.rhocoUp = true ∧ reservedDigest.on fBOOTSTAT_RECOV = false ∧
    reservedDigest.on fSACSTAT_HELD = false := by
  decide +kernel

theorem reservedDigest_permitted : reservedDigest.svMay sacristyCaller .r 0x20000100 0 = true ∧
    reservedDigest.svMay sacristyCaller .w 0x20000200 32 = true := by
  decide +kernel

/-- The digest's write ends the reservation. -/
theorem sha256_unreserves : ∃ t, exec (.sha256 sacristyCaller) reservedDigest = .next t ∧ t.cant.resv = none :=
  ⟨_, rfl, by decide +kernel⟩

/-- Refutes O57: its clause on SHA256 says that Cantoris stays as it is, with its reservation, but Rhoco's write of the digest ends a
reservation of its line (R361), of which no hypothesis of the clause speaks. -/
theorem not_sacristyServices : ¬ Obligations.SacristyServices := by
  unfold Obligations.SacristyServices
  intro h
  obtain ⟨hup, hrec, hfree⟩ := reservedDigest_rhoco
  obtain ⟨hr, hw⟩ := reservedDigest_permitted
  obtain ⟨-, -, -, -, hdigest, -⟩ := h reservedDigest sacristyCaller rfl hup hrec (by decide)
  obtain ⟨t, hrun, ⟨-, -, -, hcant, -⟩, -⟩ := hdigest hfree hr hw (by decide) (by decide) rfl rfl rfl
  obtain ⟨u, hrun', hlost⟩ := sha256_unreserves
  obtain rfl : t = u := Host.Outcome.next.inj (hrun.symm.trans hrun')
  rw [hcant] at hlost
  exact absurd hlost (by decide)

end Sys2Proof.Proofs
end

section
/-! PROOF. A claim change is sealed by a write of Rhoco, IMAGE_LOAD's bytes are another: each ends a reservation of Cantoris (R361).
The refutations of O55 and O40. -/

namespace Sys2Proof.Proofs

open Sys2Proof Sys2Proof.Machine

/-- A descriptor from the walk completes with nothing of Cantoris. -/
theorem complete_walk_cant (s : State) {d : Desc} (h : d.path = .walk) (st r : Nat) (bs : List Byte) : (s.complete d st r bs).cant = s.cant := by
  have hqueue : ∀ (l : List (List Byte)) (t : State), (l.foldl (fun t c => t.queueUp 0x6 d.ring c) t).cant = t.cant := by
    intro l
    induction l with
    | nil => intro t; rfl
    | cons c l ih => intro t; exact ih (t.queueUp 0x6 d.ring c)
  unfold State.complete State.sendEntry
  simp only [h]
  exact hqueue _ _

/-! ### CLAIM_SET -/

/-- CLAIM_SET of Cantoris's block alone, signed under key slot 2. -/
def claimDesc : Desc := ⟨.walk, 0, 0, 0, [0x25] ++ List.replicate 32 0 ++ [2, 0, 0, 0x80] ++ List.replicate 27 0⟩

/-- The challenge that is outstanding. -/
def claimChallenge : List Byte := List.replicate 16 0

/-- What the signature is over: the opcode, the unique ID, the challenge and the first 16 bytes of ARGS (R382). -/
def claimMessage : List Byte := leBytes 1 0x25 ++ List.replicate 8 0 ++ claimChallenge ++ (claimDesc.bytes.drop 0x20).take 16 ++ []

/-- The public key of the private key 1: the base point (R382). -/
def claimKey : List Byte := beBytes 32 ecGx ++ beBytes 32 ecGy

/-- The signature of `claimMessage` with the private key 1 and the per-signature number 1. -/
def claimSignature : List Byte :=
  beBytes 32 ecGx ++ beBytes 32 0xe3bea27860c433c61fd5bf72b4fb6652c111296b1a9e71b901c604fc28fedd0d

/-- A run of bytes from an OTP address. -/
def otpRun (a : Nat) (bs : List Byte) : List (Nat × Byte) := (List.range bs.length).zipWith (fun i b => (a + i, b)) bs

/-- A booted Cell with the challenge and the signature in place, the public key of 1 in slot 2, and no ring entry sealed yet, whose
Cantoris has reserved the line of the record's first entry. -/
def reservedSeal : State :=
  { bootedCell with
    mem := { bootedCell.mem with
      otp := otpRun 0 (List.replicate 8 0) ++ otpRun 0x180 (claimKey) ++ otpRun 0x300 [4, 0, 1, 0] }
    sac := { bootedCell.sac with chal := some claimChallenge, stage := List.replicate 64 0 ++ claimSignature }
    cant := { bootedCell.cant with resv := some 0x10012000 } }

theorem claimSignature_verifies : ecdsaVerify (sha256 claimMessage) claimKey claimSignature = true := by decide +kernel

theorem reservedSeal_ready : reservedSeal.ready claimDesc = true ∧ reservedSeal.on fSACSTAT_HELD = false ∧
    reservedSeal.keyUsable (dsArg claimDesc 1) = true ∧ dsArgs claimDesc 4 4 = 0x80 := by
  decide +kernel

theorem reservedSeal_message : leBytes 1 (dsOpcode claimDesc) ++ reservedSeal.uidBytes ++ claimChallenge ++
    (claimDesc.bytes.drop 0x20).take 16 ++ [] = claimMessage := by decide +kernel

theorem reservedSeal_key : reservedSeal.keyOf (dsArg claimDesc 1) = claimKey := by decide +kernel

theorem reservedSeal_signature : (padTo 128 reservedSeal.sac.stage).drop 64 = claimSignature := by decide +kernel

/-- The signature of the descriptor verifies in `reservedSeal`. -/
theorem reservedSeal_signed : ecdsaVerify (sha256 (leBytes 1 (dsOpcode claimDesc) ++ reservedSeal.uidBytes ++ claimChallenge ++
    (claimDesc.bytes.drop 0x20).take 16 ++ [])) (reservedSeal.keyOf (dsArg claimDesc 1)) ((padTo 128 reservedSeal.sac.stage).drop 64) = true := by
  rw [reservedSeal_message, reservedSeal_key, reservedSeal_signature, claimSignature_verifies]

/-- A signed operation whose signature verifies acts, its challenge and staging buffer gone (R382). -/
theorem signed_verified {s : State} {d : Desc} {c payload : List Byte} (hc : s.sac.chal = some c) (hkey : s.keyUsable (dsArg d 1) = true)
    (hsig : ecdsaVerify (sha256 (leBytes 1 (dsOpcode d) ++ s.uidBytes ++ c ++ (d.bytes.drop 0x20).take 16 ++ payload))
      (s.keyOf (dsArg d 1)) ((padTo 128 s.sac.stage).drop 64) = true) (act : State → DescRes) :
    s.signed d payload act = act { s with sac := { s.sac with chal := none, stage := [] } } := by
  simp only [State.signed, State.signedDigest, hc, hkey, hsig, Bool.and_self, if_true]

/-- The state a CLAIM_SET that is accepted works on: its challenge and staging buffer are gone, and the list is kept (R381, R382). -/
def claimTaken (s : State) (l : Nat) : State := { s with sac := { s.sac with chal := none, stage := [], claims := l } }

/-- A CLAIM_SET whose signature verifies, of blocks that may be claimed, writes the claims (R381). -/
theorem claimSet_accepted {s : State} {d : Desc} {c : List Byte} (h : s.ready d = true) (hfree : s.on fSACSTAT_HELD = false)
    (hc : s.sac.chal = some c) (hkey : s.keyUsable (dsArg d 1) = true)
    (hsig : ecdsaVerify (sha256 (leBytes 1 (dsOpcode d) ++ s.uidBytes ++ c ++ (d.bytes.drop 0x20).take 16 ++ []))
      (s.keyOf (dsArg d 1)) ((padTo 128 s.sac.stage).drop 64) = true)
    (hok : ∀ k < 32, (dsArgs d 4 4).testBit k = true → s.claimRefused k = false) :
    exec (.claimSet d) s = .next (((claimTaken s (dsArgs d 4 4)).claimWrite (dsArgs d 4 4)).complete d stOK 0 []) := by
  refine congrArg Host.Outcome.next (runDesc_done h ?_)
  have hany : ((List.range 32).any fun k => (dsArgs d 4 4).testBit k && s.claimRefused k) = false := by
    simp only [List.any_eq_false, List.mem_range, Bool.and_eq_true, not_and, Bool.not_eq_true]
    exact hok
  show (if s.on fSACSTAT_HELD then _ else s.signed d [] _) = _
  rw [if_neg (by simp [hfree]), signed_verified hc hkey hsig]
  exact if_neg (Bool.eq_false_iff.mp hany)

/-- The claim change's entry ends the reservation. -/
theorem claimWrite_unreserves : ((claimTaken reservedSeal 0x80).claimWrite 0x80).cant.resv = none := by decide +kernel

theorem reservedSeal_claimable : ∀ k < 32, Nat.testBit 0x80 k = true → reservedSeal.claimRefused k = false := by decide +kernel

/-- Refutes O55: its clause on an accepted CLAIM_SET says that Cantoris stays as it is, with its reservation. In Cell and Loop roles the
claim change is appended to the sealed record (R391), and the write of the entry ends a reservation of its line (R361), of which no
hypothesis of the clause speaks. -/
theorem not_signedOperations : ¬ Obligations.SignedOperations := by
  unfold Obligations.SignedOperations
  intro h
  obtain ⟨hready, hfree, hkey, hlist⟩ := reservedSeal_ready
  obtain ⟨-, -, -, -, -, -, -, -, -, -, -, hset, -⟩ := h reservedSeal claimDesc hready
  have hok : ∀ k < 32, (dsArgs claimDesc 4 4).testBit k = true → reservedSeal.claimRefused k = false := by
    rw [hlist]
    exact reservedSeal_claimable
  obtain ⟨t, hrun, -, -, -, -, -, -, hcant, -⟩ := hset claimChallenge hfree rfl ⟨hkey, reservedSeal_signed⟩ hok rfl rfl rfl
  have hdone := hrun.symm.trans (claimSet_accepted hready hfree rfl hkey reservedSeal_signed hok)
  have hlost := congrArg (·.cant.resv) (Host.Outcome.next.inj hdone)
  rw [hlist] at hlost
  simp only [complete_walk_cant _ (rfl : claimDesc.path = .walk), hcant, claimWrite_unreserves] at hlost
  exact absurd hlost (by decide)

/-! ### IMAGE_LOAD -/

/-- IMAGE_LOAD of the first word of slot 0. -/
def imageDesc : Desc := ⟨.walk, 0, 0, 0, [0x28] ++ List.replicate 20 0 ++ [4] ++ List.replicate 42 0⟩

theorem imageDesc_runs : reservedCell.ready imageDesc = true ∧ imgLoadOk imageDesc = true ∧ reservedCell.on fOFFSTAT_RUNNING = false := by
  decide +kernel

/-- The write of the word ends the reservation. -/
theorem imageLoad_unreserves : ∃ t, exec (.imageLoad imageDesc) reservedCell = .next t ∧ t.cant.resv = none :=
  ⟨_, rfl, by decide +kernel⟩

/-- Refutes O40: its clause on IMAGE_LOAD says that Cantoris stays as it is, with its reservation, but Rhoco's write into the slot ends
a reservation of its line (R361), of which no hypothesis of the clause speaks. -/
theorem not_imagesAndOffices : ¬ Obligations.ImagesAndOffices := by
  unfold Obligations.ImagesAndOffices
  intro h
  obtain ⟨hready, hform, hstopped⟩ := imageDesc_runs
  obtain ⟨-, -, hload, -⟩ := h reservedCell imageDesc [] hready
  obtain ⟨t, hrun, -, -, -, hcant, -⟩ := hload (by decide) hform hstopped (by decide) (by decide) rfl rfl rfl
  obtain ⟨u, hrun', hlost⟩ := imageLoad_unreserves
  have hsame := congrArg State.cant (Host.Outcome.next.inj (hrun.symm.trans hrun'))
  rw [complete_walk_cant _ rfl, hcant] at hsame
  rw [← hsame] at hlost
  exact absurd hlost (by decide)

end Sys2Proof.Proofs
end

section
/-! PROOF. The opcodes of the Sacristy by role and while it is held (R397), and O56. -/

namespace Sys2Proof.Proofs

open Sys2Proof Sys2Proof.Machine

/-- In Chapter and Crossing roles there is no sealed record (R389). -/
theorem sealRole_none {s : State} (hr : s.role = .chapter ∨ s.role = .crossing) : s.sealRole = false := by
  rcases hr with h | h <;> simp [State.sealRole, h]

theorem sealRole_some {s : State} (hr : s.role = .cell ∨ s.role = .loop) : s.sealRole = true := by
  rcases hr with h | h <;> simp [State.sealRole, h]

/-- Outside the roles of its opcode a descriptor of the Sacristy completes NOT_IN_ROLE (R397). -/
theorem sacDesc_role {s : State} {d : Desc} (h : s.ready d = true) (act : State → DescRes) :
    s.sacDesc d false act = s.complete d stNOTROLE 0 [] := State.runDesc_role h _

/-- While the Sacristy is held its opcodes complete SACRISTY_HELD (R397). -/
theorem sacDesc_held {s : State} {d : Desc} (h : s.ready d = true) (hheld : s.on fSACSTAT_HELD = true) (act : State → DescRes) :
    s.sacDesc d true act = s.complete d 0x44 0 [] := runDesc_done h (if_pos hheld)

theorem opcode_unassigned : ∀ n < 0x30, 0x2C ≤ n → opAssigned n = false ∧ opOffice n = false := by decide

/-- A descriptor of an unassigned opcode that waits alone is taken and completes UNKNOWN_OPCODE. -/
theorem pump_unassigned {s : State} {d : Desc} (hlo : 0x2C ≤ dsOpcode d) (hhi : dsOpcode d ≤ 0x2F) (hrun : s.canRun d = true)
    (hwait : s.waitingDescs = [d]) (hoffice : s.rst.offDesc = none) : s.pump = s.complete d stUNKNOWN 0 [] := by
  obtain ⟨hnone, hother⟩ := opcode_unassigned _ (by omega) hlo
  have hready : s.otherReady d = true := by simp [State.otherReady, hnone, hrun, hoffice, hother]
  have htake : s.takeOther d = s.complete d stUNKNOWN 0 [] := if_pos (by simp [hother])
  have hfind : s.waitingDescs.find? (fun e => s.otherReady e) = some d := by simp [hwait, hready]
  have hlen : s.waitingDescs.length = 1 := by rw [hwait]; rfl
  rw [State.pump, hlen, State.takeOthers]
  simp only [hfind, htake, State.takeOthers]

/-- Settles O56: the seal opcodes by role, every opcode while the Sacristy is held, and the unassigned opcodes. -/
theorem sacristyOpcodes : Obligations.SacristyOpcodes := by
  unfold Obligations.SacristyOpcodes
  refine ⟨fun s d first last readback hready => ⟨?role, ?held, ?heldSeal, ?reads⟩, ?unassigned⟩
  case role =>
    intro hr
    have hnone : ∀ act, s.sacDesc d s.sealRole act = s.complete d stNOTROLE 0 [] := fun act => sealRole_none hr ▸ sacDesc_role hready act
    exact ⟨congrArg _ (hnone _), congrArg _ (hnone _), congrArg _ (hnone _)⟩
  case held =>
    intro hheld
    have hgives := sacDesc_held hready hheld
    exact ⟨congrArg _ (hgives _), congrArg _ (hgives _), congrArg _ (hgives _), congrArg _ (hgives _), congrArg _ (hgives _),
      congrArg _ (hgives _), congrArg _ (hgives _)⟩
  case heldSeal =>
    intro hheld hr
    have hgives : ∀ act, s.sacDesc d s.sealRole act = s.complete d 0x44 0 [] := fun act => sealRole_some hr ▸ sacDesc_held hready hheld act
    exact ⟨congrArg _ (hgives _), congrArg _ (hgives _), congrArg _ (hgives _)⟩
  case reads =>
    intro hheld
    exact ⟨⟨_, _, congrArg Host.Outcome.next (runDesc_done hready rfl)⟩, ⟨_, congrArg Host.Outcome.next (runDesc_done hready rfl)⟩⟩
  case unassigned =>
    intro s d hlo hhi hrun hwait hoffice hpending hslp hrst
    rw [step, hpending]
    exact congrArg Host.Outcome.next ((idle_pump hslp hrst).trans (pump_unassigned hlo hhi hrun hwait hoffice))

end Sys2Proof.Proofs
end

section
/-! PROOF. PUSHM and POPM (Table 13.6): O12. -/

namespace Sys2Proof.Proofs

open Sys2Proof Sys2Proof.Machine

/-! ### The registers of a mask -/

theorem maskRegs_length (m : BitVec 16) : (maskRegs m).length ≤ 16 :=
  (List.length_filter_le _ _).trans (by simp)

theorem maskRegs_mem {m : BitVec 16} {r : Reg} : r ∈ maskRegs m ↔ m.getLsbD r.val = true := by
  simp [maskRegs]

theorem maskRegs_nodup (m : BitVec 16) : (maskRegs m).Nodup := (List.nodup_finRange 16).filter _

/-- A mask that is not reserved leaves w14 out. -/
theorem maskRegs_ne_sp {m : BitVec 16} (h : m.getLsbD 14 = false) {r : Reg} (hr : r ∈ maskRegs m) : r ≠ 14 := by
  rintro rfl
  exact Bool.false_ne_true (h.symm.trans (maskRegs_mem.mp hr))

/-- A mask that is not 0 names a register. -/
theorem maskRegs_pos {m : BitVec 16} (h : m ≠ 0) : 0 < (maskRegs m).length := by
  by_contra hzero
  refine h (BitVec.eq_of_getLsbD_eq fun j hj => ?_)
  have hnone : maskRegs m = [] := List.eq_nil_of_length_eq_zero (by omega)
  have hnot : (⟨j, hj⟩ : Reg) ∉ maskRegs m := by simp [hnone]
  simpa [maskRegs_mem] using hnot

theorem maskBad_false {m : BitVec 16} (hne : m ≠ 0) (h : m.getLsbD 14 = false) : maskBad m = false := by
  rw [maskBad, h, decide_eq_false hne, Bool.or_self]

theorem maskBad_true {m : BitVec 16} (h : m = 0 ∨ m.getLsbD 14 = true) : maskBad m = true := by
  rcases h with rfl | h
  · rfl
  · rw [maskBad, h, Bool.or_true]

theorem maskCycles_good {m : BitVec 16} (h : maskBad m = false) : (if maskBad m then 0 else maskCycles m) = maskCycles m := by
  rw [h]
  rfl

/-! ### PUSHM -/

theorem flatten_words_length (k : Core) (rs : List Reg) : ((rs.map (fun r => wordBytes (k.w r))).flatten).length = 4 * rs.length := by
  induction rs with
  | nil => rfl
  | cons r rs ih =>
    rw [List.map_cons, List.flatten_cons, List.length_append, ih, List.length_cons, wordBytes, leBytes_length]
    omega

/-- The core with its registers of a mask buffered for the stack and w14 at the lowest of them. -/
def pushed (m : BitVec 16) (low : Word) (k : Core) : Core :=
  (k.stored low.toNat (((maskRegs m).map (fun r => wordBytes (k.w r))).flatten)).setW 14 low

theorem pushed_loops (m : BitVec 16) (low : Word) (k : Core) : SameLoops k (pushed m low k) := ⟨rfl, rfl, rfl⟩

/-- PUSHM of a mask that is not reserved, into an empty store buffer. -/
theorem pushm_enters {s : State} {i : Issue} {m : BitVec 16} {low : Word} (h : s.issuesOn i = true) (hbad : maskBad m = false)
    (hlow : (found s i).w 14 - BitVec.ofNat 32 (4 * (maskRegs m).length) = low) (hpos : 0 < (maskRegs m).length)
    (htakes : s.takesStore i.core low.toNat (4 * (maskRegs m).length) = true) :
    exec (.pushm i m) s = .next (s.retired i (maskCycles m) (pushed m low)) := by
  have hlen := maskRegs_length m
  obtain ⟨⟨hlo, hhi⟩, hwaits, hbuf⟩ := (takesStore_iff s i.core low.toNat _).mp htakes
  have hbuf' : (found s i).sbuf = [] := by
    rw [found, State.core_issued]
    exact hbuf
  have hcost : SBuf.cost ⟨(found s i).world, (found s i).sup, low.toNat, false, low.toNat,
      ((maskRegs m).map (fun r => wordBytes ((found s i).w r))).flatten⟩ ≤ 4 := by
    simp only [SBuf.cost, flatten_words_length]
    omega
  rw [← maskCycles_good hbad]
  refine congrArg Host.Outcome.next (instr_retires h (fun _ => if maskBad m then 0 else maskCycles m) ?body (pushed_loops m low _))
  case body =>
    simp only [hbad, hlow, Bool.false_eq_true, if_false,
      storeAt_sram hlo (by omega : low.toNat < 0x20080000) (by rwa [accessWaits_issued] : (s.issued i).accessWaits low.toNat = false),
      State.bufferStore_empty _ _ _ hbuf' hcost, State.core_setCore, State.setCore_setCore]
    rfl

/-! ### POPM -/

/-- Loading registers other than w14 changes general registers alone. -/
theorem setWords_gpr {rs : List Reg} (hsp : ∀ r ∈ rs, r ≠ 14) (k : Core) (bs : List Byte) :
    ∃ g, k.setWords rs bs = { k with gpr := g } ∧ g.length = k.gpr.length := by
  induction rs generalizing k bs with
  | nil => exact ⟨k.gpr, rfl, rfl⟩
  | cons r rs ih =>
    obtain ⟨g, hset, hlen⟩ := ih (fun q hq => hsp q (List.mem_cons_of_mem _ hq)) (k.setW r (BitVec.ofNat 32 (leNat (bs.take 4)))) (bs.drop 4)
    rw [setW_gpr k (hsp r (List.mem_cons_self ..))] at hset hlen
    exact ⟨g, by rw [Core.setWords, setW_gpr k (hsp r (List.mem_cons_self ..)), hset], by simpa using hlen⟩

theorem w_setWords_other {rs : List Reg} {r : Reg} (hr : r ∉ rs) (k : Core) (bs : List Byte) : (k.setWords rs bs).w r = k.w r := by
  induction rs generalizing k bs with
  | nil => rfl
  | cons q rs ih =>
    obtain ⟨hne, hrest⟩ := (by simpa using hr : r ≠ q ∧ r ∉ rs)
    rw [Core.setWords, ih hrest, w_setW_other k hne]

/-- The register at a place of the list holds the word at that place of the bytes. -/
theorem w_setWords_get {rs : List Reg} (hsp : ∀ r ∈ rs, r ≠ 14) (hnodup : rs.Nodup) {k : Core} (hgpr : k.gpr.length = 16) (bs : List Byte)
    {j : Nat} (hj : j < rs.length) : (k.setWords rs bs).w rs[j] = BitVec.ofNat 32 (leNat ((bs.drop (4 * j)).take 4)) := by
  induction rs generalizing k bs j with
  | nil => exact absurd hj (Nat.not_lt_zero j)
  | cons r rs ih =>
    obtain ⟨hfresh, hrest⟩ := List.nodup_cons.mp hnodup
    have hr := hsp r (List.mem_cons_self ..)
    cases j with
    | zero => rw [List.getElem_cons_zero, Core.setWords, w_setWords_other hfresh, w_setW_gpr hgpr hr, Nat.mul_zero, List.drop_zero]
    | succ j =>
      rw [List.getElem_cons_succ, Core.setWords, ih (fun q hq => hsp q (List.mem_cons_of_mem _ hq)) hrest (by simpa [setW_gpr k hr] using hgpr),
        List.drop_drop, Nat.mul_succ, Nat.add_comm]

/-- The core with the registers of a mask loaded from bytes and w14 above them. -/
def popped (m : BitVec 16) (bs : List Byte) (high : Word) (k : Core) : Core := (k.setWords (maskRegs m) bs).setW 14 high

/-- POPM of a mask that is not reserved, out of the data cache. -/
theorem popm_hits {s : State} {i : Issue} {m : BitVec 16} (h : s.issuesOn i = true) (hbad : maskBad m = false)
    (hsp : ∀ r ∈ maskRegs m, r ≠ 14) (hpos : 0 < (maskRegs m).length)
    (hhits : s.hits i.core ((found s i).w 14).toNat (4 * (maskRegs m).length) = true) :
    exec (.popm i m) s = .next (s.retired i (maskCycles m) (popped m
      (s.cacheBytes i.core ((found s i).w 14).toNat (4 * (maskRegs m).length))
      ((found s i).w 14 + BitVec.ofNat 32 (4 * (maskRegs m).length)))) := by
  have hload := loadAt_hit (s := s.issued i) (by rwa [hits_issued]) (by omega)
  rw [← maskCycles_good hbad]
  refine congrArg Host.Outcome.next (instr_retires h (fun _ => if maskBad m then 0 else maskCycles m) ?body ?loops)
  case body =>
    simp only [hbad, Bool.false_eq_true, if_false, hload, cacheBytes_issued]
    rfl
  case loops =>
    obtain ⟨g, hset, -⟩ := setWords_gpr hsp (found s i) (s.cacheBytes i.core ((found s i).w 14).toNat (4 * (maskRegs m).length))
    rw [popped, hset]
    exact ⟨rfl, rfl, rfl⟩

theorem popped_w14 {m : BitVec 16} (hsp : ∀ r ∈ maskRegs m, r ≠ 14) (bs : List Byte) (high : Word) {k : Core} (hlen : k.sp.length = 4) :
    (popped m bs high k).w 14 = high &&& 0xFFFFFFFC := by
  obtain ⟨g, hset, -⟩ := setWords_gpr hsp k bs
  rw [popped, hset]
  exact w_setW_sp hlen high

theorem popped_get {m : BitVec 16} (hsp : ∀ r ∈ maskRegs m, r ≠ 14) (bs : List Byte) (high : Word) {k : Core} (hgpr : k.gpr.length = 16)
    {j : Nat} (hj : j < (maskRegs m).length) :
    (popped m bs high k).w (maskRegs m)[j] = BitVec.ofNat 32 (leNat ((bs.drop (4 * j)).take 4)) := by
  rw [popped, w_setW_other _ (hsp _ (List.getElem_mem hj)), w_setWords_get hsp (maskRegs_nodup m) hgpr]

theorem popped_other {m : BitVec 16} (bs : List Byte) (high : Word) (k : Core) {r : Reg} (hr : r ∉ maskRegs m) (h14 : r ≠ 14) :
    (popped m bs high k).w r = k.w r := by
  rw [popped, w_setW_other _ h14, w_setWords_other hr]

theorem popped_keeps {m : BitVec 16} (hsp : ∀ r ∈ maskRegs m, r ≠ 14) (bs : List Byte) (high : Word) (k : Core) :
    (popped m bs high k).psr = k.psr ∧ (popped m bs high k).sbuf = k.sbuf ∧ (popped m bs high k).dc = k.dc := by
  obtain ⟨g, hset, -⟩ := setWords_gpr hsp k bs
  rw [popped, hset]
  exact ⟨rfl, rfl, rfl⟩

/-! ### Reserved masks -/

/-- A reserved encoding of no cycle. -/
theorem instr_emulates {s : State} {i : Issue} (h : s.issues i = true) {cycles : Core → Nat} (hcycles : cycles (found s i) = 0)
    {body : State → State × After} {x : Word} (hbody : body (s.issued i) = (s.issued i, emulate x)) :
    s.instr i cycles body = s.trapped i 0 (s.trapIn i 0x01 0 none (some x)) := by
  rw [instr_traps h cycles hbody, hcycles]

/-- A mask of 0 or with bit 14 is reserved, in PUSHM and in POPM. -/
theorem reservedMask_traps {s : State} {i : Issue} {m : BitVec 16} (h : s.issuesOn i = true) (hbad : maskBad m = true) :
    (∃ x, exec (.pushm i m) s = .next (s.trapped i 0 (s.trapIn i 0x01 0 none (some x)))) ∧
    (∃ x, exec (.popm i m) s = .next (s.trapped i 0 (s.trapIn i 0x01 0 none (some x)))) :=
  ⟨⟨_, congrArg Host.Outcome.next (instr_emulates (State.issuesOn_issues h) (if_pos hbad) (if_pos hbad))⟩,
    ⟨_, congrArg Host.Outcome.next (instr_emulates (State.issuesOn_issues h) (if_pos hbad) (if_pos hbad))⟩⟩

/-- Settles O12: PUSHM enters the store buffer, POPM reads the data cache, and a reserved mask traps. -/
theorem pushAndPop : Obligations.PushAndPop := by
  unfold Obligations.PushAndPop
  intro s i m h k rs n low
  refine ⟨fun hne hsp htakes => ?push, fun hne hsp hhits hgpr hlen => ?pop, fun hbad => reservedMask_traps h (maskBad_true hbad)⟩
  case push => exact pushm_enters h (maskBad_false hne hsp) rfl (maskRegs_pos hne) htakes
  case pop =>
    have hnosp : ∀ r ∈ maskRegs m, r ≠ 14 := fun r => maskRegs_ne_sp hsp
    refine ⟨_, popm_hits h (maskBad_false hne hsp) hnosp (maskRegs_pos hne) hhits, ?_⟩
    obtain ⟨hpsr, hsbuf, hdc⟩ := popped_keeps hnosp (s.cacheBytes i.core (k.w 14).toNat (4 * n)) (k.w 14 + BitVec.ofNat 32 (4 * n)) k
    simp only [State.retired, State.core_setCore, State.setCore_mem, State.setCore_regs]
    refine ⟨fun j hj _ => ?_, popped_w14 hnosp _ _ hlen, fun r hr h14 => popped_other _ _ k hr h14, rfl, hpsr, trivial, trivial, hsbuf, hdc⟩
    rw [← cacheBytes_drop_take s i.core _ (by omega : 4 * j + 4 ≤ 4 * n)]
    exact popped_get hnosp _ _ hgpr hj

end Sys2Proof.Proofs
end

section
/-! PROOF. CHCTL_CLKSYNC writes back the RESTART bits that the register holds (R510, R514): the refutation of O34. -/

namespace Sys2Proof.Proofs

open Sys2Proof Sys2Proof.Machine

/-- A booted Cell whose CHCTL holds RESTART of engine 0, and whose engine 0 stands at PC 5. -/
def restartHeld : State :=
  { bootedCell.setFld fCHCTL_RESTART 1 with
    chor := { bootedCell.chor with eng := { bootedCell.che 0 with pc := 5 } :: bootedCell.chor.eng.tail } }

/-- It has its eight engines, none of which runs or is to run, and its root group runs. -/
theorem restartHeld_still : restartHeld.chor.eng.length = 8 ∧ restartHeld.rootStopped = false ∧
    restartHeld.fld fCHSTAT_RUNNING = 0 ∧ restartHeld.fld fCHCTL_EN = 0 ∧ (restartHeld.che 0).pc = 5 := by
  decide +kernel

/-- CLKSYNC of engine 0 alone takes its PC to 0. -/
theorem chctlClksync_restarts : ∃ t, exec (.chctlClksync .sacristy 1) restartHeld = .next t ∧ (t.che 0).pc = 0 :=
  ⟨_, rfl, by decide +kernel⟩

/-- Refutes O34: its clause on CLKSYNC says that the engine keeps its PC, but the write of CHCTL restarts the engines whose RESTART bits
the register holds, and no hypothesis says that it holds none. -/
theorem not_choristerRegistersAndDescriptors : ¬ Obligations.ChoristerRegistersAndDescriptors := by
  unfold Obligations.ChoristerRegistersAndDescriptors
  intro h
  obtain ⟨heng, hroot, hrun, hen, hpc⟩ := restartHeld_still
  obtain ⟨-, -, -, hsync, -⟩ := h.1 restartHeld 0 0 (by decide) heng hroot
  obtain ⟨t, ht, -, hkept, -⟩ := hsync hrun hen
  obtain ⟨u, hu, hlost⟩ := chctlClksync_restarts
  obtain rfl : t = u := Host.Outcome.next.inj (ht.symm.trans hu)
  rw [hlost, hpc] at hkept
  exact absurd hkept (by decide)

end Sys2Proof.Proofs
end

section
/-! PROOF. A refused debug access is queued for the violation log and not yet written into it (R393, R395): the refutation of O51. -/

namespace Sys2Proof.Proofs

open Sys2Proof Sys2Proof.Machine

/-- A violation waits in its queue: the log in MRAM counts no entry more. -/
theorem violate_vlogN (s : State) (kind block addr data : Nat) : (s.violate kind block addr data).sac.vlogN = s.sac.vlogN := by
  unfold State.violate
  split <;> rfl

/-- A booted Cell is awake and closed to the debug port. -/
theorem bootedCell_closed : bootedCell.slp.st = .run ∧ bootedCell.fld fSACDBG_LEVEL = 0 := by
  decide +kernel

/-- The read that the closed level does not vet. -/
theorem debugAccess_refused (s : State) (c : CoreId) (a : Nat) (hrun : s.slp.st = .run) (hlevel : s.fld fSACDBG_LEVEL = 0) :
    exec (.debugAccess c (.read .nave a)) s =
      .next (({ s with tap := { s.tap with ir := 3 } } : State).debugRefused (a / 4 * 4) 0) := by
  have hclosed : State.debugWorld { s with tap := { s.tap with ir := 3 } } .nave = false := by
    change decide (1 ≤ s.fld fSACDBG_LEVEL) = false
    simp [hlevel]
  change execDebugAccess c (.read .nave a) s = _
  simp [execDebugAccess, hrun, hclosed]

/-- Refutes O51: its clause on a refused access says that the log counts one entry more, but the access only joins the queue; VLOG_POP
writes the entry and counts it. -/
theorem not_systemPadsAndTestPort : ¬ Obligations.SystemPadsAndTestPort := by
  unfold Obligations.SystemPadsAndTestPort
  intro h
  obtain ⟨hrun, hlevel⟩ := bootedCell_closed
  obtain ⟨-, -, -, -, -, -, -, -, -, hread, -⟩ := h.2 bootedCell 0 [] 0 0 .decani
  obtain ⟨t, ht, -, -, hcount, -⟩ := hread hrun hlevel
  obtain rfl := Host.Outcome.next.inj (ht.symm.trans (debugAccess_refused _ _ _ hrun hlevel))
  rw [State.debugRefused, violate_vlogN] at hcount
  exact absurd hcount (by simp)

end Sys2Proof.Proofs
end

section
/-! PROOF. A register write leaves the bits that no field covers (R4): the refutation of O52. -/

namespace Sys2Proof.Proofs

open Sys2Proof Sys2Proof.Machine

/-- A completion that goes up the walk changes no register. -/
theorem complete_walk_regs (s : State) {d : Desc} (h : d.path = .walk) (st r : Nat) (bs : List Byte) :
    (s.complete d st r bs).regs = s.regs := by
  have hqueue : ∀ (l : List (List Byte)) (t : State), (l.foldl (fun t c => t.queueUp 0x6 d.ring c) t).regs = t.regs := by
    intro l
    induction l with
    | nil => intro t; rfl
    | cons c l ih => intro t; exact ih (t.queueUp 0x6 d.ring c)
  unfold State.complete State.sendEntry
  simp only [h]
  exact hqueue _ _

/-- RING_SETUP from the walk with ARGS of zeros. -/
def ringSetupDesc : Desc := ⟨.walk, 0, 0, 0, [0x68] ++ List.replicate 63 0⟩

/-- A booted Cell whose STEPCFG holds a bit above its two fields. -/
def bitAboveStep : State := bootedCell.setReg rSTEPCFG 0x10000

theorem bitAboveStep_ready : bitAboveStep.ready ringSetupDesc = true ∧ bitAboveStep.fld fSACCLAIM_CLAIM = 0 ∧
    bitAboveStep.ring.eng.length = 8 ∧ bitAboveStep.touch.el.length = 4 ∧ bitAboveStep.chor.eng.length = 8 ∧
    bitAboveStep.rootStopped = false ∧ bitAboveStep.fld fRGCTL_RUN = 0 ∧ bitAboveStep.fld fRGSTAT_RUNNING = 0 := by
  decide +kernel

/-- The set-up leaves the bit as it was. -/
theorem ringSetup_keepsBit : ∃ t, exec (.ringSetup ringSetupDesc) bitAboveStep = .next t ∧ t.reg rSTEPCFG = 0x10000 :=
  ⟨_, rfl, by decide +kernel⟩

/-- Refutes O52: its clause on RING_SETUP says that STEPCFG then holds what the descriptor gives and nothing else, but a write leaves
the bits above its fields as they stand, and no hypothesis says that they are 0. -/
theorem not_ringerDescriptors : ¬ Obligations.RingerDescriptors := by
  unfold Obligations.RingerDescriptors
  intro h
  obtain ⟨hready, hclaim, hring, htouch, hchor, hroot, hrun, hrunning⟩ := bitAboveStep_ready
  obtain ⟨-, hsetup, -⟩ := h bitAboveStep ringSetupDesc 0 hready hclaim hring htouch hchor hroot
  obtain ⟨t, ht, -, -, -, -, hstep, -⟩ := hsetup (Or.inl rfl) hrun hrunning
  obtain ⟨u, hu, hkept⟩ := ringSetup_keepsBit
  obtain rfl : t.complete ringSetupDesc stOK 0 [] = u := Host.Outcome.next.inj (ht.symm.trans hu)
  rw [State.reg, complete_walk_regs _ rfl, ← State.reg, hstep] at hkept
  exact absurd hkept (by decide)

end Sys2Proof.Proofs
end

section
/-! PROOF. What leaves the rest of the part alone while it writes some fields; and the Ringer engines' state: their words, their engines,
and how one goes on after an instruction (R488, R490). -/

namespace Sys2Proof.Proofs

open Sys2Proof Sys2Proof.Machine

/-! ### Fields apart -/

/-- From `s` to `t` a field apart from those of `l` keeps its value, and the part beside its blocks' own state is left alone. -/
structure Within (l : List Fld) (s t : State) : Prop where
  kept : ∀ g, l.all (fun f => f.other g) = true → t.fld g = s.fld g
  besidesAll : s.besidesAll t

namespace Within

variable {l : List Fld} {s t u : State}

theorem ofWrites (h : Writes l s t) : Within l s t := ⟨h.kept, h.besidesAll⟩

theorem refl (l : List Fld) (s : State) : Within l s s := ofWrites (.refl l s)

theorem trans (h : Within l s t) (k : Within l t u) : Within l s u :=
  ⟨fun g hg => (k.kept g hg).trans (h.kept g hg), State.besidesAll_trans h.besidesAll k.besidesAll⟩

theorem setFld {f : Fld} (h : Within l s t) (hf : f ∈ l) (v : Nat) : Within l s (t.setFld f v) :=
  h.trans (ofWrites ((Writes.refl l t).setFld hf v))

theorem on (h : Within l s t) {g : Fld} (hg : l.all (fun f => f.other g) = true) : t.on g = s.on g := on_of_fld (h.kept g hg)

theorem mono {m : List Fld} (h : Within l s t) (hlm : ∀ f ∈ l, f ∈ m) : Within m s t :=
  ⟨fun g hg => h.kept g (List.all_eq_true.mpr fun f hf => List.all_eq_true.mp hg f (hlm f hf)), h.besidesAll⟩

theorem sets (h : Within l s t) (p : List (Fld × Nat)) (hp : ∀ q ∈ p, q.1 ∈ l) : Within l s (t.sets p) := by
  induction p generalizing t with
  | nil => exact h
  | cons q p ih =>
    exact ih (h.setFld (hp q (List.mem_cons_self ..)) q.2) (fun r hr => hp r (List.mem_cons_of_mem _ hr))

theorem raise {f : Fld} (h : Within l s t) (hf : f ∈ l) : Within l s (t.raise [f]) := h.setFld hf 1

/-- The recognisers' and Ringers' own state is beside the rest. -/
theorem rgSet (h : Within l s t) (f : Ringers → Ringers) : Within l s (t.rgSet f) :=
  h.trans ⟨fun _ _ => rfl, ⟨rfl, rfl, rfl, rfl, rfl, rfl⟩, rfl, rfl, rfl, rfl, rfl, rfl⟩

theorem setRing (h : Within l s t) (r : Ringers) : Within l s { t with ring := r } := h.rgSet fun _ => r

theorem setEng (h : Within l s t) (n : Nat) (e : Engine) : Within l s (t.setEng n e) := h.rgSet _

theorem ite {c : Prop} [Decidable c] (h : Within l s t) (k : Within l s u) : Within l s (if c then t else u) := by
  split
  · exact h
  · exact k

end Within

theorem other_of_mem {l : List Fld} {f g : Fld} (h : l.all (fun x => f.other x) = true) (hg : g ∈ l) : f.other g = true :=
  List.all_eq_true.mp h g hg

/-- A field of eight bits in which one bit is set or cleared reads that bit so. -/
theorem testBit_setFld_bitTo (s : State) (f : Fld) {n : Nat} (hn : n < f.w) (hfit : f.lo + f.w ≤ 32) (b : Bool) :
    ((s.setFld f (bitTo (s.fld f) n b)).fld f).testBit n = b := by
  rw [State.fld_setFld _ _ _ hfit, Nat.testBit_mod_two_pow, testBit_bitTo]
  simp [hn]

/-! ### Engines -/

theorem setEng_length (s : State) (n : Nat) (e : Engine) : (s.setEng n e).ring.eng.length = s.ring.eng.length :=
  List.length_set

theorem eng_setEng {s : State} {n : Nat} (h : n < s.ring.eng.length) (e : Engine) : (s.setEng n e).eng n = e := by
  simp [State.eng, State.setEng, State.rgSet, List.getD_eq_getElem?_getD, h]

theorem eng_setEng_ne (s : State) {n k : Nat} (h : n ≠ k) (e : Engine) : (s.setEng n e).eng k = s.eng k := by
  simp [State.eng, State.setEng, State.rgSet, List.getD_eq_getElem?_getD, h]

theorem setEng_fld (s : State) (n : Nat) (e : Engine) (g : Fld) : (s.setEng n e).fld g = s.fld g := rfl

theorem setFld_eng (s : State) (f : Fld) (v n : Nat) : (s.setFld f v).eng n = s.eng n := rfl

/-- The fields of an engine that its instructions write beside its PC. -/
def engineFields (n : Nat) : List Fld :=
  [fRGPC_F n, fRGC_C0 n, fRGC_C1 n, fRGTH_ARM n, fRGTH_LATE n, fRGLATE_LATE n, fRGEMIT_IMM n, fRGMISS_MISS n]

/-- The fields of block 21 that no engine has to itself and that an instruction may write or keep. -/
def sharedFields : List Fld :=
  [fRGSTAT_RUNNING, fRGSTAT_WAITING, fRGCTL_RUN, fEVFSTAT_COUNT, fEVFSTAT_DROPPED, fRGFLAG_EVDROP, fRGFLAG_RUNAWAY, fRGFLAG_WAKE,
    fRGFLAG_LATE, fRGFLAG_TRIGMISS, fWAKESRC_SRC]

theorem pc_apart : ∀ n < 8, (engineFields n ++ sharedFields).all (fun g => (fRGPC_PC n).other g) = true := by decide +kernel

theorem engine_apart : ∀ n < 8, (engineFields n).all (fun f => (fRGPC_PC n :: sharedFields).all (fun g => f.other g)) = true := by
  decide +kernel

theorem pc_other {n : Nat} (hn : n < 8) {g : Fld} (hg : g ∈ engineFields n ++ sharedFields) : (fRGPC_PC n).other g = true :=
  other_of_mem (pc_apart n hn) hg

/-- An engine's own fields lie apart from those it shares and from its PC. -/
theorem engine_other {n : Nat} (hn : n < 8) {f g : Fld} (hf : f ∈ engineFields n) (hg : g ∈ fRGPC_PC n :: sharedFields) :
    f.other g = true :=
  other_of_mem (List.all_eq_true.mp (engine_apart n hn) f hf) hg

/-! ### Words (R490) -/

/-- A word from its fields. -/
def rgEncode (op src cmp addr imm : Nat) : Nat := op * 2 ^ 27 + src * 2 ^ 24 + cmp * 2 ^ 21 + addr * 2 ^ 16 + imm

/-- What the fields of a word read. -/
structure RgFields (w op src cmp addr imm : Nat) : Prop where
  op : rgOp w = op
  src : rgSrc w = src
  cmp : rgCmp w = cmp
  addr : rgAddr w = addr
  imm : rgImm w = imm

theorem rgFields_encode {op src cmp addr imm : Nat} (hop : op < 32) (hsrc : src < 8) (hcmp : cmp < 8) (haddr : addr < 32)
    (himm : imm < 2 ^ 16) : RgFields (rgEncode op src cmp addr imm) op src cmp addr imm := by
  constructor <;> simp only [rgEncode, rgOp, rgSrc, rgCmp, rgAddr, rgImm, bitsOf, Nat.shiftRight_eq_div_pow] <;> omega

/-! ### Running one instruction -/

/-- An engine that runs and is at a word of this OP executes it. -/
theorem ringOp_runs {s : State} {n w op : Nat} (hr : s.ringRuns n = true) (hw : s.ringWord n = w) (hv : rgValid w = true)
    (hop : rgOp w = op) (act : State → Nat → State) : s.ringOp op n act = act s w := by
  simp [State.ringOp, hr, hw, hv, hop]

theorem ringOp_stopped {s : State} {n : Nat} (hr : s.ringRuns n = false) (op : Nat) (act : State → Nat → State) :
    s.ringOp op n act = s := by
  simp [State.ringOp, hr]

/-- An instruction that lets the engine go on: its PC, its instruction counted, and the rest left alone. -/
def Goes (s : State) (n : Nat) (t : State) (p : Nat) : Prop :=
  t.fld (fRGPC_PC n) = p % 32 ∧ (t.eng n).icount = (s.eng n).icount + 1 ∧ t.fld fRGSTAT_RUNNING = s.fld fRGSTAT_RUNNING ∧ s.besidesAll t

/-- An engine and its state after the work of an instruction and before it goes on. -/
structure Ready (s : State) (n : Nat) (u : State) : Prop where
  index : n < 8
  engines : u.ring.eng.length = 8
  icount : (u.eng n).icount = (s.eng n).icount
  few : (s.eng n).icount < 31
  running : u.fld fRGSTAT_RUNNING = s.fld fRGSTAT_RUNNING
  besidesAll : s.besidesAll u

variable {s u : State} {n p : Nat}

theorem ringGo_eq (h : Ready s n u) (p : Nat) :
    u.ringGo n p = (u.setFld (fRGPC_PC n) (p % 32)).setEng n { u.eng n with icount := (u.eng n).icount + 1 } := by
  obtain ⟨-, -, hic, hfew, -, -⟩ := h
  exact if_neg (by omega)

theorem fld_ringGo (h : Ready s n u) {g : Fld} (hg : g ∈ engineFields n ++ sharedFields) : (u.ringGo n p).fld g = u.fld g := by
  rw [ringGo_eq h, setEng_fld, State.fld_setFld_other _ _ _ _ (pc_other h.index hg)]

theorem eng_ringGo (h : Ready s n u) : (u.ringGo n p).eng n = { u.eng n with icount := (u.eng n).icount + 1 } := by
  rw [ringGo_eq h, eng_setEng (by simpa [h.engines] using h.index)]

theorem goes_ringGo (h : Ready s n u) : Goes s n (u.ringGo n p) p := by
  refine ⟨?pc, ?icount, ?running, ?rest⟩
  case pc =>
    rw [ringGo_eq h, setEng_fld, State.fld_setFld _ _ _ (by simp [fRGPC_PC])]
    exact Nat.mod_mod _ _
  case icount => rw [eng_ringGo h]; exact congrArg (· + 1) h.icount
  case running => rw [fld_ringGo h (by simp [sharedFields]), h.running]
  case rest =>
    rw [ringGo_eq h]
    exact State.besidesAll_trans h.besidesAll (((Within.refl [fRGPC_PC n] u).setFld (List.mem_singleton_self _) _).setEng n _).besidesAll

/-- What an instruction writes of its engine's own fields before it goes on leaves the engine ready. -/
theorem ready_of_within (hn : n < 8) (hlen : u.ring.eng.length = 8) (hic : (u.eng n).icount = (s.eng n).icount)
    (hfew : (s.eng n).icount < 31) (h : Within (engineFields n) s u) : Ready s n u :=
  ⟨hn, hlen, hic, hfew, h.kept _ (List.all_eq_true.mpr fun _ hf => engine_other hn hf (by simp [sharedFields])), h.besidesAll⟩

theorem pc_of_within (hn : n < 8) (h : Within (engineFields n) s u) : u.fld (fRGPC_PC n) = s.fld (fRGPC_PC n) :=
  h.kept _ (List.all_eq_true.mpr fun _ hf => engine_other hn hf (by simp))

end Sys2Proof.Proofs
end

section
/-! PROOF. What each instruction of a Ringer engine does (R490), its triggers and its timer (R489, R491). -/

namespace Sys2Proof.Proofs

open Sys2Proof Sys2Proof.Machine

/-- An engine is at a word and is not about to run away. -/
structure AtWord (s : State) (n w : Nat) : Prop where
  index : n < 8
  engines : s.ring.eng.length = 8
  runs : s.ringRuns n = true
  word : s.ringWord n = w
  few : (s.eng n).icount < 31

variable {s : State} {n w : Nat}

theorem ready_refl (h : AtWord s n w) : Ready s n s := ⟨h.index, h.engines, rfl, h.few, rfl, s.besidesAll_refl⟩

theorem ready_setFld (h : AtWord s n w) {f : Fld} (hf : f ∈ engineFields n) (v : Nat) : Ready s n (s.setFld f v) :=
  ready_of_within h.index h.engines rfl h.few ((Within.refl _ s).setFld hf v)

theorem ringNext_eq (u : State) (n : Nat) : u.ringNext n = u.ringGo n (u.fld (fRGPC_PC n) + 1) := rfl

/-- After a write of one of its own fields it goes on to the next word, and the field reads what was put there. -/
theorem ringNext_setFld (h : AtWord s n w) {f : Fld} (hf : f ∈ engineFields n) (v : Nat) :
    Goes s n ((s.setFld f v).ringNext n) (s.fld (fRGPC_PC n) + 1) ∧
      ∀ g ∈ engineFields n, ((s.setFld f v).ringNext n).fld g = (s.setFld f v).fld g := by
  have hr := ready_setFld h hf v
  have hpc := pc_of_within h.index ((Within.refl _ s).setFld hf v)
  rw [ringNext_eq, hpc]
  exact ⟨goes_ringGo hr, fun g hg => fld_ringGo hr (List.mem_append_left _ hg)⟩

/-! ### HALT and WAIT -/

theorem ringStop_eq (s : State) (n : Nat) : s.ringStop n =
    (((s.setFld fRGCTL_RUN (bitTo (s.fld fRGCTL_RUN) n false)).setFld fRGSTAT_RUNNING (bitTo (s.fld fRGSTAT_RUNNING) n false)).setFld
      fRGSTAT_WAITING (bitTo (s.fld fRGSTAT_WAITING) n false)).setEng n { s.eng n with waiting := false } := rfl

/-- The fields that a stop of an engine writes. -/
def stopFields : List Fld := [fRGCTL_RUN, fRGSTAT_RUNNING, fRGSTAT_WAITING]

theorem ringStop_within (s : State) (n : Nat) : Within stopFields s (s.ringStop n) :=
  ((Within.refl _ s).sets _ (by simp [stopFields])).setEng _ _

theorem ringStop_running (s : State) {n : Nat} (hn : n < 8) : ((s.ringStop n).fld fRGSTAT_RUNNING).testBit n = false := by
  rw [ringStop_eq, setEng_fld, State.fld_setFld_other _ _ _ _ (by decide), ← State.fld_setFld_other s fRGCTL_RUN fRGSTAT_RUNNING _ (by decide)]
  exact testBit_setFld_bitTo _ _ hn (by decide) false

theorem ringStop_run (s : State) {n : Nat} (hn : n < 8) : ((s.ringStop n).fld fRGCTL_RUN).testBit n = false := by
  rw [ringStop_eq, setEng_fld, State.fld_setFld_other _ _ _ _ (by decide), State.fld_setFld_other _ _ _ _ (by decide)]
  exact testBit_setFld_bitTo _ _ hn (by decide) false

theorem stop_other_pc : ∀ n < 8, stopFields.all (fun f => f.other (fRGPC_PC n)) = true := by decide +kernel

theorem ringerHalt_runs (h : AtWord s n 0) : ∃ t, exec (.ringerHalt n) s = .next t ∧ (t.fld fRGSTAT_RUNNING).testBit n = false ∧
    (t.fld fRGCTL_RUN).testBit n = false ∧ t.fld (fRGPC_PC n) = s.fld (fRGPC_PC n) ∧ s.besidesAll t :=
  ⟨s.ringStop n, congrArg Host.Outcome.next (ringOp_runs h.runs h.word (by decide) (by decide) _), ringStop_running s h.index,
    ringStop_run s h.index, (ringStop_within s n).kept _ (stop_other_pc n h.index), (ringStop_within s n).besidesAll⟩

theorem ringerHalt_other (h : rgOp (s.ringWord n) ≠ 0) : exec (.ringerHalt n) s = .next s := by
  refine congrArg Host.Outcome.next ?_
  simp [State.ringOp, h]

/-- WAIT's word with its mask. -/
structure IsWait (w k : Nat) : Prop where
  op : rgOp w = 1
  mask : rgImm w = k
  valid : rgValid w = true

theorem isWait {k : Nat} (hk : k < 64) : IsWait (2 ^ 27 + k) k := by
  generalize hword : 2 ^ 27 + k = w
  obtain ⟨hop, hsrc, hcmp, haddr, himm⟩ : RgFields w 1 0 0 0 k := by
    rw [← hword]
    simpa [rgEncode] using rgFields_encode (op := 1) (src := 0) (cmp := 0) (addr := 0) (imm := k) (by decide) (by decide) (by decide)
      (by decide) (by omega)
  refine ⟨hop, himm, ?_⟩
  simp only [rgValid, hop, hsrc, hcmp, haddr, himm]
  simpa using hk

theorem ringerWait_eq {k : Nat} (hw : IsWait w k) (h : AtWord s n w) : exec (.ringerWait n) s = .next (s.rgWait n w) :=
  congrArg Host.Outcome.next (ringOp_runs h.runs h.word hw.valid hw.op _)

/-- The engine's PC at the next word. -/
def nextPc (s : State) (n : Nat) : State := s.setFld (fRGPC_PC n) ((s.fld (fRGPC_PC n) + 1) % 32)

theorem fld_nextPc (s : State) (n : Nat) : (nextPc s n).fld (fRGPC_PC n) = (s.fld (fRGPC_PC n) + 1) % 32 :=
  (State.fld_setFld _ _ _ (by simp [fRGPC_PC])).trans (Nat.mod_mod _ _)

/-- The engine marked as waiting there. -/
def markedWaiting (s : State) (n : Nat) : State :=
  (nextPc s n).setFld fRGSTAT_WAITING (bitTo ((nextPc s n).fld fRGSTAT_WAITING) n true)

theorem markedWaiting_within (s : State) (n : Nat) : Within [fRGPC_PC n, fRGSTAT_WAITING] s (markedWaiting s n) :=
  ((Within.refl _ s).setFld (by simp) _).setFld (by simp) _

theorem waiting_other_pc : ∀ n < 8, fRGSTAT_WAITING.other (fRGPC_PC n) = true := by decide +kernel

theorem ringerWait_waits {k : Nat} (hw : IsWait w k) (h : AtWord s n w) (hp : (s.eng n).pend &&& k = 0) :
    ∃ t, exec (.ringerWait n) s = .next t ∧ t.eng n = { s.eng n with waiting := true, mask := k, icount := 0 } ∧
      (t.fld fRGSTAT_WAITING).testBit n = true ∧ t.fld (fRGPC_PC n) = (s.fld (fRGPC_PC n) + 1) % 32 ∧ s.besidesAll t := by
  have hlen : n < s.ring.eng.length := by simpa [h.engines] using h.index
  have hwait : s.rgWait n w = (markedWaiting s n).setEng n { s.eng n with waiting := true, mask := k, icount := 0 } := by
    simp [State.rgWait, hw.mask, hp, markedWaiting, nextPc]
  have hlen' : n < (markedWaiting s n).ring.eng.length := hlen
  refine ⟨_, (ringerWait_eq hw h).trans (congrArg _ hwait), eng_setEng hlen' _, ?waiting, ?pc, ?rest⟩
  case waiting =>
    rw [setEng_fld, markedWaiting]
    exact testBit_setFld_bitTo _ _ h.index (by decide) true
  case pc => rw [setEng_fld, markedWaiting, State.fld_setFld_other _ _ _ _ (waiting_other_pc n h.index), fld_nextPc]
  case rest => exact ((markedWaiting_within s n).setEng _ _).besidesAll

theorem ringerWait_goes {k : Nat} (hw : IsWait w k) (h : AtWord s n w) (hp : (s.eng n).pend &&& k ≠ 0) :
    ∃ t, exec (.ringerWait n) s = .next t ∧ t.eng n = { s.eng n with
      mask := k, pend := (s.eng n).pend ^^^ ((s.eng n).pend &&& k), trig := (s.eng n).pend &&& k, icount := 0 } ∧
      t.fld (fRGPC_PC n) = (s.fld (fRGPC_PC n) + 1) % 32 ∧ s.besidesAll t := by
  have hlen : n < s.ring.eng.length := by simpa [h.engines] using h.index
  have hwait : s.rgWait n w = (nextPc s n).setEng n { s.eng n with
      mask := k, pend := (s.eng n).pend ^^^ ((s.eng n).pend &&& k), trig := (s.eng n).pend &&& k, icount := 0 } := by
    simp [State.rgWait, hw.mask, hp, nextPc]
  exact ⟨_, (ringerWait_eq hw h).trans (congrArg _ hwait), eng_setEng (s := nextPc s n) hlen _, fld_nextPc s n,
    (((Within.refl [fRGPC_PC n] s).setFld (by simp) _).setEng _ _).besidesAll⟩

/-! ### TEST and BR -/

/-- What a comparison of TEST says. -/
def rgCompare (v : Int) (imm c : Nat) : Bool :=
  [decide (Sys2Proof.signed 16 imm < v), decide (v < Sys2Proof.signed 16 imm), decide (Sys2Proof.signed 16 imm ≤ (v.natAbs : Int)),
      decide (v = Sys2Proof.signed 16 imm), (wrapInt 16 v &&& imm) != 0].getD c false

theorem ringerTest_runs {k c imm : Nat} (hk : k < 8) (hc : c < 5) (hi : imm < 2 ^ 16)
    (h : AtWord s n (2 * 2 ^ 27 + k * 2 ^ 24 + c * 2 ^ 21 + imm)) : ∃ t, exec (.ringerTest n) s = .next t ∧
      t.fld (fRGPC_F n) = b2n (rgCompare (s.ringVal n k) imm c) ∧ Goes s n t (s.fld (fRGPC_PC n) + 1) := by
  generalize hword : 2 * 2 ^ 27 + k * 2 ^ 24 + c * 2 ^ 21 + imm = w at h
  have hf : RgFields w 2 k c 0 imm := by
    rw [← hword]
    simpa [rgEncode] using rgFields_encode (op := 2) (src := k) (cmp := c) (addr := 0) (imm := imm) (by decide) hk (by omega) (by decide) hi
  have hv : rgValid w = true := by
    simp only [rgValid, hf.op, hf.cmp, hf.addr]
    simpa using hc
  have htest : s.rgTest n w = (s.setFld (fRGPC_F n) (b2n (rgCompare (s.ringVal n k) imm c))).ringNext n := by
    simp only [State.rgTest, hf.src, hf.cmp, hf.imm]
    interval_cases c <;> rfl
  obtain ⟨hgo, hflds⟩ := ringNext_setFld h (f := fRGPC_F n) (by simp [engineFields]) (b2n (rgCompare (s.ringVal n k) imm c))
  refine ⟨_, (congrArg Host.Outcome.next (ringOp_runs h.runs h.word hv hf.op _)).trans (congrArg _ htest), ?_, hgo⟩
  rw [hflds _ (by simp [engineFields]), State.fld_setFld _ _ _ (by simp [fRGPC_F])]
  exact Nat.mod_eq_of_lt (by unfold b2n; split <;> simp [fRGPC_F])

theorem ringerBr_runs {c a : Nat} (hc : c < 3) (ha : a < 32) (h : AtWord s n (3 * 2 ^ 27 + c * 2 ^ 21 + a * 2 ^ 16)) :
    ∃ t, exec (.ringerBr n) s = .next t ∧
      Goes s n t (if c = 2 ∨ c = s.fld (fRGPC_F n) then a else s.fld (fRGPC_PC n) + 1) ∧ t.fld (fRGPC_F n) = s.fld (fRGPC_F n) := by
  generalize hword : 3 * 2 ^ 27 + c * 2 ^ 21 + a * 2 ^ 16 = w at h
  have hf : RgFields w 3 0 c a 0 := by
    rw [← hword]
    simpa [rgEncode] using rgFields_encode (op := 3) (src := 0) (cmp := c) (addr := a) (imm := 0) (by decide) (by decide) (by omega) ha
      (by decide)
  have hv : rgValid w = true := by
    simp only [rgValid, hf.op, hf.src, hf.cmp, hf.imm]
    simpa using hc
  have hbr : s.rgBr n w = s.ringGo n (if c = 2 ∨ c = s.fld (fRGPC_F n) then a else s.fld (fRGPC_PC n) + 1) := by
    simp only [State.rgBr, hf.cmp, hf.addr]
    split <;> rfl
  exact ⟨_, (congrArg Host.Outcome.next (ringOp_runs h.runs h.word hv hf.op _)).trans (congrArg _ hbr), goes_ringGo (ready_refl h),
    fld_ringGo (ready_refl h) (by simp [engineFields])⟩

/-! ### The counters -/

/-- The counter that CMP names. -/
def counterOf (n c : Nat) : Fld := if c = 0 then fRGC_C0 n else fRGC_C1 n

theorem counterOf_mem (n c : Nat) : counterOf n c ∈ engineFields n := by
  unfold counterOf
  split <;> simp [engineFields]

theorem counterOf_size (n c : Nat) : (counterOf n c).lo + (counterOf n c).w ≤ 32 ∧ (counterOf n c).w = 16 := by
  unfold counterOf
  split <;> simp [fRGC_C0, fRGC_C1]

theorem counterOf_flag {n : Nat} (hn : n < 8) (c : Nat) : (counterOf n c).other (fRGPC_F n) = true ∧
    (fRGPC_F n).other (counterOf n c) = true := by
  unfold counterOf
  split <;> revert n <;> decide

theorem fld_setCounter (s : State) (n c : Nat) {v : Nat} (hv : v < 2 ^ 16) : (s.setFld (counterOf n c) v).fld (counterOf n c) = v := by
  obtain ⟨hfit, hw⟩ := counterOf_size n c
  rw [State.fld_setFld _ _ _ hfit, hw]
  exact Nat.mod_eq_of_lt hv

theorem ringerSetc_runs {c imm : Nat} (hc : c < 2) (hi : imm < 2 ^ 16) (h : AtWord s n (4 * 2 ^ 27 + c * 2 ^ 21 + imm)) :
    ∃ t, exec (.ringerSetc n) s = .next t ∧ t.fld (counterOf n c) = imm ∧ t.fld (fRGPC_F n) = s.fld (fRGPC_F n) ∧
      Goes s n t (s.fld (fRGPC_PC n) + 1) := by
  generalize hword : 4 * 2 ^ 27 + c * 2 ^ 21 + imm = w at h
  have hf : RgFields w 4 0 c 0 imm := by
    rw [← hword]
    simpa [rgEncode] using rgFields_encode (op := 4) (src := 0) (cmp := c) (addr := 0) (imm := imm) (by decide) (by decide) (by omega)
      (by decide) hi
  have hv : rgValid w = true := by
    simp only [rgValid, hf.op, hf.src, hf.cmp, hf.addr]
    simpa using hc
  have hset : s.rgSetc n w = (s.setFld (counterOf n c) imm).ringNext n := by
    simp only [State.rgSetc, rgCounter, hf.cmp, hf.imm, counterOf]
  obtain ⟨hgo, hflds⟩ := ringNext_setFld h (counterOf_mem n c) imm
  refine ⟨_, (congrArg Host.Outcome.next (ringOp_runs h.runs h.word hv hf.op _)).trans (congrArg _ hset), ?_, ?_, hgo⟩
  · rw [hflds _ (counterOf_mem n c), fld_setCounter s n c hi]
  · rw [hflds _ (by simp [engineFields]), State.fld_setFld_other _ _ _ _ (counterOf_flag h.index c).1]

/-- A counter's next value under ADDC. -/
def counterSum (s : State) (n c imm : Nat) : Nat := (clampInt 0 65535 (s.fld (counterOf n c) + Sys2Proof.signed 16 imm)).toNat

theorem counterSum_lt (s : State) (n c imm : Nat) : counterSum s n c imm < 2 ^ 16 := by
  unfold counterSum clampInt
  split
  · decide
  · split <;> omega

/-- The state of ADDC before the engine goes on. -/
def rgCounted (s : State) (n c imm : Nat) : State :=
  (s.setFld (counterOf n c) (counterSum s n c imm)).setFld (fRGPC_F n) (b2n (decide (counterSum s n c imm = 0)))

theorem rgCounted_within (s : State) (n c imm : Nat) : Within (engineFields n) s (rgCounted s n c imm) :=
  ((Within.refl _ s).setFld (counterOf_mem n c) _).setFld (by simp [engineFields]) _

theorem ringerAddc_runs {c imm : Nat} (hc : c < 2) (hi : imm < 2 ^ 16) (h : AtWord s n (5 * 2 ^ 27 + c * 2 ^ 21 + imm)) :
    ∃ t, exec (.ringerAddc n) s = .next t ∧ t.fld (counterOf n c) = counterSum s n c imm ∧
      t.fld (fRGPC_F n) = b2n (decide (counterSum s n c imm = 0)) ∧ Goes s n t (s.fld (fRGPC_PC n) + 1) := by
  generalize hword : 5 * 2 ^ 27 + c * 2 ^ 21 + imm = w at h
  have hf : RgFields w 5 0 c 0 imm := by
    rw [← hword]
    simpa [rgEncode] using rgFields_encode (op := 5) (src := 0) (cmp := c) (addr := 0) (imm := imm) (by decide) (by decide) (by omega)
      (by decide) hi
  have hv : rgValid w = true := by
    simp only [rgValid, hf.op, hf.src, hf.cmp, hf.addr]
    simpa using hc
  have hadd : s.rgAddc n w = (rgCounted s n c imm).ringNext n := by
    have hsum : (clampInt 0 65535 (s.fld (if c = 0 then fRGC_C0 n else fRGC_C1 n) + Sys2Proof.signed 16 imm)).toNat = counterSum s n c imm := rfl
    simp only [State.rgAddc, rgCounter, hf.cmp, hf.imm, hsum, rgCounted]
    by_cases hz : counterSum s n c imm = 0 <;> simp [hz, b2n, counterOf]
  have hin := rgCounted_within s n c imm
  have hr : Ready s n (rgCounted s n c imm) := ready_of_within h.index h.engines rfl h.few hin
  have hgo := goes_ringGo (p := (rgCounted s n c imm).fld (fRGPC_PC n) + 1) hr
  rw [pc_of_within h.index hin] at hgo
  rw [ringNext_eq, pc_of_within h.index hin] at hadd
  refine ⟨_, (congrArg Host.Outcome.next (ringOp_runs h.runs h.word hv hf.op _)).trans (congrArg _ hadd), ?_, ?_, hgo⟩
  · rw [fld_ringGo hr (List.mem_append_left _ (counterOf_mem n c)), rgCounted,
      State.fld_setFld_other _ _ _ _ (counterOf_flag h.index c).2, fld_setCounter s n c (counterSum_lt s n c imm)]
  · rw [fld_ringGo hr (by simp [engineFields]), rgCounted, State.fld_setFld _ _ _ (by simp [fRGPC_F])]
    exact Nat.mod_eq_of_lt (by unfold b2n; split <;> simp [fRGPC_F])

end Sys2Proof.Proofs
end

section
/-! PROOF. A Ringer engine's timer, events, signals and faults (R489 to R491). -/

namespace Sys2Proof.Proofs

open Sys2Proof Sys2Proof.Machine

variable {s : State} {n w : Nat}

/-! ### The timer (R491) -/

/-- An engine's timer armed for a time, before the engine goes on. -/
def timerArmed (s : State) (n time : Nat) : State :=
  ((s.setFld (fRGTH_LATE n) 0).setFld (fRGTH_ARM n) 1).setEng n { s.eng n with due := some time }

theorem ringArm_ahead {time : Nat} (h : past time s.now = false) : s.ringArm n time = (false, timerArmed s n time) := by
  unfold State.ringArm
  rw [if_neg (by simp [h])]
  rfl

theorem timerArmed_within (s : State) (n time : Nat) : Within (engineFields n) s (timerArmed s n time) :=
  (((Within.refl _ s).setFld (by simp [engineFields]) _).setFld (by simp [engineFields]) _).setEng _ _

theorem timerArmed_ready (h : AtWord s n w) (time : Nat) : Ready s n (timerArmed s n time) := by
  have hlen : n < ((s.setFld (fRGTH_LATE n) 0).setFld (fRGTH_ARM n) 1).ring.eng.length := by simpa [h.engines] using h.index
  refine ready_of_within h.index ((setEng_length _ _ _).trans h.engines) ?_ h.few (timerArmed_within s n time)
  rw [timerArmed, eng_setEng hlen]

theorem arm_other_late : ∀ n < 8, (fRGTH_ARM n).other (fRGTH_LATE n) = true := by decide +kernel

/-- With its timer armed the engine goes on, the timer set for its time and not late. -/
theorem timerArmed_next (h : AtWord s n w) (time : Nat) :
    (((timerArmed s n time).ringNext n).eng n).due = some time ∧ ((timerArmed s n time).ringNext n).on (fRGTH_ARM n) = true ∧
      ((timerArmed s n time).ringNext n).on (fRGTH_LATE n) = false ∧ Goes s n ((timerArmed s n time).ringNext n) (s.fld (fRGPC_PC n) + 1) := by
  have hr := timerArmed_ready h time
  have hlen : n < ((s.setFld (fRGTH_LATE n) 0).setFld (fRGTH_ARM n) 1).ring.eng.length := by simpa [h.engines] using h.index
  have hgo := goes_ringGo (p := s.fld (fRGPC_PC n) + 1) hr
  rw [ringNext_eq, pc_of_within h.index (timerArmed_within s n time)]
  refine ⟨?due, ?arm, ?late, hgo⟩
  case due => rw [eng_ringGo hr, timerArmed, eng_setEng hlen]
  case arm =>
    rw [on_of_fld (fld_ringGo hr (by simp [engineFields])), timerArmed, on_of_fld (setEng_fld _ _ _ _)]
    exact on_setFld_one _ _ (by simp [fRGTH_ARM]) (by simp [fRGTH_ARM])
  case late =>
    rw [on_of_fld (fld_ringGo hr (by simp [engineFields])), timerArmed, on_of_fld (setEng_fld _ _ _ _),
      on_setFld_other _ _ _ _ (arm_other_late n h.index)]
    exact on_setFld_zero _ _ (by simp [fRGTH_LATE]) (by simp [fRGTH_LATE])

/-- A time less than half of line time's range ahead is not past. -/
theorem past_ahead (s : State) {d : Nat} (h : d < 2 ^ 47) : past ((s.now + d) % 2 ^ 48) s.now = false := by
  have hnow : s.now < 2 ^ 48 := Nat.mod_lt _ (by decide)
  simp only [past, decide_eq_false_iff_not, Nat.not_le]
  omega

theorem ringerTrel_runs {k imm : Nat} (hk : k < 8) (hi : imm < 2 ^ 16) (h : AtWord s n (6 * 2 ^ 27 + k * 2 ^ 24 + imm)) :
    ∃ t, exec (.ringerTrel n) s = .next t ∧ (t.eng n).due = some ((s.now + imm * 2 ^ k) % 2 ^ 48) ∧ t.on (fRGTH_ARM n) = true ∧
      t.on (fRGTH_LATE n) = false ∧ Goes s n t (s.fld (fRGPC_PC n) + 1) := by
  generalize hword : 6 * 2 ^ 27 + k * 2 ^ 24 + imm = w at h
  have hf : RgFields w 6 k 0 0 imm := by
    rw [← hword]
    simpa [rgEncode] using rgFields_encode (op := 6) (src := k) (cmp := 0) (addr := 0) (imm := imm) (by decide) hk (by decide) (by decide) hi
  have hv : rgValid w = true := by
    simp only [rgValid, hf.op, hf.cmp, hf.addr]
    decide
  have hfar : imm * 2 ^ k < 2 ^ 47 := by
    have hpow : 2 ^ k ≤ 2 ^ 7 := Nat.pow_le_pow_right (by decide) (by omega)
    have := Nat.mul_le_mul hi.le hpow
    omega
  have hrel : s.rgTrel n w = (timerArmed s n ((s.now + imm * 2 ^ k) % 2 ^ 48)).ringNext n := by
    rw [State.rgTrel, hf.imm, hf.src, ringArm_ahead (past_ahead s hfar)]
  exact ⟨_, (congrArg Host.Outcome.next (ringOp_runs h.runs h.word hv hf.op _)).trans (congrArg _ hrel), timerArmed_next h _⟩

theorem ringerTabs_runs (h : AtWord s n (7 * 2 ^ 27))
    (hp : past (s.fld (fRGTL_TIME n) + s.fld (fRGTH_TIME n) * 2 ^ 32) s.now = false) : ∃ t, exec (.ringerTabs n) s = .next t ∧
      (t.eng n).due = some (s.fld (fRGTL_TIME n) + s.fld (fRGTH_TIME n) * 2 ^ 32) ∧ t.on (fRGTH_ARM n) = true ∧
      t.on (fRGTH_LATE n) = false ∧ Goes s n t (s.fld (fRGPC_PC n) + 1) := by
  have habs : s.rgTabs n = (timerArmed s n (s.fld (fRGTL_TIME n) + s.fld (fRGTH_TIME n) * 2 ^ 32)).ringNext n := by
    rw [State.rgTabs, ringArm_ahead hp]
  exact ⟨_, (congrArg Host.Outcome.next (ringOp_runs h.runs h.word (by decide) (by decide) _)).trans (congrArg _ habs), timerArmed_next h _⟩

theorem ringDisarm_within (s : State) (n : Nat) : Within (engineFields n) s (s.ringDisarm n) :=
  ((Within.refl _ s).setFld (by simp [engineFields]) _).setEng _ _

theorem eng_ringDisarm (hn : n < s.ring.eng.length) : (s.ringDisarm n).eng n = { s.eng n with due := none } :=
  eng_setEng (s := s.setFld (fRGTH_ARM n) 0) hn _

theorem on_ringDisarm (s : State) (n : Nat) : (s.ringDisarm n).on (fRGTH_ARM n) = false := by
  rw [State.ringDisarm, on_of_fld (setEng_fld _ _ _ _)]
  exact on_setFld_zero _ _ (by simp [fRGTH_ARM]) (by simp [fRGTH_ARM])

theorem ringDisarm_ready (h : AtWord s n w) : Ready s n (s.ringDisarm n) := by
  have hlen : n < s.ring.eng.length := by simpa [h.engines] using h.index
  refine ready_of_within h.index ((setEng_length _ _ _).trans h.engines) ?_ h.few (ringDisarm_within s n)
  rw [eng_ringDisarm hlen]

theorem ringerToff_runs (h : AtWord s n (8 * 2 ^ 27)) : ∃ t, exec (.ringerToff n) s = .next t ∧ (t.eng n).due = none ∧
    t.on (fRGTH_ARM n) = false ∧ Goes s n t (s.fld (fRGPC_PC n) + 1) := by
  have hr := ringDisarm_ready h
  have hlen : n < s.ring.eng.length := by simpa [h.engines] using h.index
  have hgo := goes_ringGo (p := s.fld (fRGPC_PC n) + 1) hr
  refine ⟨(s.ringDisarm n).ringGo n (s.fld (fRGPC_PC n) + 1), ?run, ?due, ?arm, hgo⟩
  case run =>
    refine (congrArg Host.Outcome.next (ringOp_runs h.runs h.word (by decide) (by decide) _)).trans (congrArg _ ?_)
    rw [State.rgToff, ringNext_eq, pc_of_within h.index (ringDisarm_within s n)]
  case due => rw [eng_ringGo hr, eng_ringDisarm hlen]
  case arm => rw [on_of_fld (fld_ringGo hr (by simp [engineFields])), on_ringDisarm]

/-! ### EMIT and WAKE -/

/-- An entry into an empty FIFO with nothing dropped. -/
theorem evPush_empty (hq : s.ring.evf = []) (hd : s.fld fEVFSTAT_DROPPED = 0) (src unit code data : Nat) :
    s.evPush src unit code data =
      ((s.rgSet fun r => { r with
          evf := [⟨s.now % 2 ^ 32, s.now / 2 ^ 32 + (src + 16 * unit + 256 * (code % 256)) * 2 ^ 16, data % 2 ^ 32, false, data / 2 ^ 32⟩]
          evFirst := 0 }).setFld fEVFSTAT_DROPPED 0).setFld fEVFSTAT_COUNT 1 := by
  simp [State.evPush, dropPush, hq, hd, State.evfSync, State.rgSet]

theorem isEmit {k : Nat} (hk : k < 256) : RgFields (9 * 2 ^ 27 + k) 9 0 0 0 k := by
  have h := rgFields_encode (op := 9) (src := 0) (cmp := 0) (addr := 0) (imm := k) (by decide) (by decide) (by decide) (by decide)
    (by omega)
  simpa [rgEncode] using h

/-- The fields that EMIT writes. -/
def emitFields (n : Nat) : List Fld := [fEVFSTAT_DROPPED, fEVFSTAT_COUNT, fRGEMIT_IMM n]

theorem emit_apart : ∀ n < 8, (emitFields n).all (fun f => f.other fRGSTAT_RUNNING && f.other (fRGPC_PC n)) = true ∧
    (fRGEMIT_IMM n).other fEVFSTAT_COUNT = true := by decide +kernel

/-- An event of EMIT in the FIFO, before the engine goes on. -/
def emitted (s : State) (n k : Nat) : State :=
  (s.evPush 1 n (0x10 + n) (s.fld (fRGC_C1 n) * 2 ^ 16 + s.fld (fRGC_C0 n))).setFld (fRGEMIT_IMM n) k

theorem emitted_within (hq : s.ring.evf = []) (hd : s.fld fEVFSTAT_DROPPED = 0) (k : Nat) :
    Within (emitFields n) s (emitted s n k) := by
  rw [emitted, evPush_empty hq hd]
  exact ((((Within.refl _ s).rgSet _).setFld (by simp [emitFields]) _).setFld (by simp [emitFields]) _).setFld (by simp [emitFields]) _

theorem emitted_ready (h : AtWord s n w) (hq : s.ring.evf = []) (hd : s.fld fEVFSTAT_DROPPED = 0) (k : Nat) :
    Ready s n (emitted s n k) ∧ (emitted s n k).fld (fRGPC_PC n) = s.fld (fRGPC_PC n) := by
  have hin := emitted_within (n := n) hq hd k
  have hring : (emitted s n k).ring.eng = s.ring.eng := by rw [emitted, evPush_empty hq hd]; rfl
  have heng : (emitted s n k).eng n = s.eng n := by rw [State.eng, hring, ← State.eng]
  have hall := List.all_eq_true.mp (emit_apart n h.index).1
  refine ⟨⟨h.index, by rw [hring, h.engines], by rw [heng], h.few, ?_, hin.besidesAll⟩, ?_⟩
  · exact hin.kept _ (List.all_eq_true.mpr fun f hf => (Bool.and_eq_true _ _ ▸ hall f hf).1)
  · exact hin.kept _ (List.all_eq_true.mpr fun f hf => (Bool.and_eq_true _ _ ▸ hall f hf).2)

theorem emitted_entry (hn : n < 8) (hq : s.ring.evf = []) (hd : s.fld fEVFSTAT_DROPPED = 0) {k : Nat} (hk : k < 256) :
    (emitted s n k).ring.evf.map (fun x => (x.w0, x.w1 % 2 ^ 16, x.w2)) =
        [(s.now % 2 ^ 32, s.now / 2 ^ 32, s.fld (fRGC_C1 n) * 2 ^ 16 + s.fld (fRGC_C0 n))] ∧
      (emitted s n k).fld fEVFSTAT_COUNT = 1 ∧ (emitted s n k).fld (fRGEMIT_IMM n) = k := by
  have hnow : s.now < 2 ^ 48 := Nat.mod_lt _ (by decide)
  have h0 : s.fld (fRGC_C0 n) < 2 ^ 16 := fldOf_lt _ _
  have h1 : s.fld (fRGC_C1 n) < 2 ^ 16 := fldOf_lt _ _
  rw [emitted, evPush_empty hq hd]
  refine ⟨?_, ?_, ?_⟩
  · simp only [State.setFld_ring, State.rgSet, List.map_cons, List.map_nil, List.cons.injEq, Prod.mk.injEq, and_true, true_and]
    omega
  · rw [State.fld_setFld_other _ _ _ _ (emit_apart n hn).2, State.fld_setFld _ _ _ (by decide)]
    decide
  · rw [State.fld_setFld _ _ _ (by simp [fRGEMIT_IMM])]
    exact Nat.mod_eq_of_lt hk

theorem ringerEmit_runs {k : Nat} (hk : k < 256) (hq : s.ring.evf = []) (hd : s.fld fEVFSTAT_DROPPED = 0)
    (hf : RgFields w 9 0 0 0 k)
    (h : AtWord s n w) : ∃ t, exec (.ringerEmit n) s = .next t ∧
      t.ring.evf.map (fun x => (x.w0, x.w1 % 2 ^ 16, x.w2)) =
        [(s.now % 2 ^ 32, s.now / 2 ^ 32, s.fld (fRGC_C1 n) * 2 ^ 16 + s.fld (fRGC_C0 n))] ∧
      t.fld fEVFSTAT_COUNT = 1 ∧ t.fld (fRGEMIT_IMM n) = k ∧ Goes s n t (s.fld (fRGPC_PC n) + 1) := by
  have hv : rgValid w = true := by
    simp only [rgValid, hf.op, hf.cmp, hf.addr, hf.imm]
    simpa using hk
  have hemit : s.rgEmit n w = (emitted s n k).ringNext n := by
    simp only [State.rgEmit, hf.src, hf.imm, emitted, Nat.mod_eq_of_lt hk, show ¬ 4 ≤ 0 by decide, if_false]
  obtain ⟨hr, hpc⟩ := emitted_ready h hq hd k
  obtain ⟨hentry, hcount, himm⟩ := emitted_entry h.index hq hd hk
  rw [ringNext_eq, hpc] at hemit
  refine ⟨_, (congrArg Host.Outcome.next (ringOp_runs h.runs h.word hv hf.op _)).trans (congrArg _ hemit), ?_, ?_, ?_, goes_ringGo hr⟩
  · rw [ringGo_eq hr]; exact hentry
  · rw [fld_ringGo hr (by simp [sharedFields]), hcount]
  · rw [fld_ringGo hr (by simp [engineFields]), himm]

theorem wake_other : ∀ n < 8, [fRGFLAG_WAKE, fWAKESRC_SRC].all (fun f => f.other (fRGPC_PC n) && f.other fRGSTAT_RUNNING) = true := by
  decide +kernel

/-- Writes of fields apart from the PC and RUNNING after the engine has gone on. -/
theorem Goes.within {t u : State} {p : Nat} {l : List Fld} (h : Goes s n t p) (k : Writes l t u)
    (hl : l.all (fun f => f.other (fRGPC_PC n) && f.other fRGSTAT_RUNNING) = true) : Goes s n u p := by
  obtain ⟨hpc, hic, hrun, hrest⟩ := h
  have hall := List.all_eq_true.mp hl
  refine ⟨?_, ?_, ?_, State.besidesAll_trans hrest k.besidesAll⟩
  · exact (k.kept _ (List.all_eq_true.mpr fun f hf => (Bool.and_eq_true _ _ ▸ hall f hf).1)).trans hpc
  · rw [k.regs]; exact hic
  · exact (k.kept _ (List.all_eq_true.mpr fun f hf => (Bool.and_eq_true _ _ ▸ hall f hf).2)).trans hrun

theorem ringerWake_runs (ha : s.awake = true) (h : AtWord s n (10 * 2 ^ 27)) : ∃ t, exec (.ringerWake n) s = .next t ∧
    t.on fRGFLAG_WAKE = true ∧ (t.fld fWAKESRC_SRC).testBit 4 = true ∧ Goes s n t (s.fld (fRGPC_PC n) + 1) := by
  have hr := ready_refl h
  have hgo := goes_ringGo (p := s.fld (fRGPC_PC n) + 1) hr
  generalize hu : s.ringGo n (s.fld (fRGPC_PC n) + 1) = u at hgo
  have hawake : (u.setFld fRGFLAG_WAKE 1).awake = true := by rw [← hu, ringGo_eq hr]; exact ha
  have hwake : s.rgWake n = (u.setFld fRGFLAG_WAKE 1).setFld fWAKESRC_SRC ((u.setFld fRGFLAG_WAKE 1).fld fWAKESRC_SRC ||| 2 ^ 4) := by
    rw [State.rgWake, ringNext_eq, hu, State.raise_cons, State.raise_nil, State.wake_awake _ _ hawake]
  refine ⟨_, (congrArg Host.Outcome.next (ringOp_runs h.runs h.word (by decide) (by decide) _)).trans (congrArg _ hwake), ?_, ?_, ?_⟩
  · rw [on_setFld_other _ _ _ _ (by decide)]
    exact on_setFld_one _ _ (by decide) (by decide)
  · rw [fld_setFld_latch _ _ (by decide) (by decide), Nat.testBit_or, Nat.testBit_two_pow_self, Bool.or_true]
  · exact hgo.within (((Writes.refl [fRGFLAG_WAKE, fWAKESRC_SRC] u).setFld (by decide) 1).setFld (by decide) _) (wake_other n h.index)

/-! ### SIGNAL -/

theorem bits6_zero : bits6 0 = 0 := by decide

/-- A first trigger of an engine that runs and does not wait is pending. -/
theorem ringTrig_pends {k trigs : Nat} (hr : (s.fld fRGSTAT_RUNNING).testBit k = true) (hw : (s.eng k).waiting = false)
    (hp : (s.eng k).pend = 0) : s.ringTrig k trigs = s.setEng k { s.eng k with pend := trigs } := by
  simp [State.ringTrig, hr, hw, hp, bits6_zero]

theorem foldl_one {α : Type} (f : α → Nat → α) (p : Nat → Bool) (a : α) {k : Nat} :
    ∀ l : List Nat, l.Nodup → k ∈ l → (∀ j ∈ l, p j = decide (j = k)) → l.foldl (fun t j => if p j then f t j else t) a = f a k := by
  intro l
  induction l generalizing a with
  | nil => intro _ hk; exact absurd hk (List.not_mem_nil)
  | cons j l ih =>
    intro hnd hk hp
    obtain ⟨hj, hnd⟩ := List.nodup_cons.mp hnd
    rw [List.foldl_cons, hp j (List.mem_cons_self ..)]
    by_cases hjk : j = k
    · subst hjk
      have hrest : ∀ (m : List Nat) (b : α), (∀ i ∈ m, p i = false) → m.foldl (fun t i => if p i then f t i else t) b = b := by
        intro m
        induction m with
        | nil => intro b _; rfl
        | cons i m ihm =>
          intro b hm
          rw [List.foldl_cons, hm i (List.mem_cons_self ..)]
          exact ihm b fun x hx => hm x (List.mem_cons_of_mem _ hx)
      rw [hrest l _ fun i hi => ?_]
      · simp
      · rw [hp i (List.mem_cons_of_mem _ hi), decide_eq_false]
        rintro rfl
        exact hj hi
    · simp only [hjk, decide_false, Bool.false_eq_true, if_false]
      exact ih a hnd ((List.mem_cons.mp hk).resolve_left (Ne.symm hjk)) fun i hi => hp i (List.mem_cons_of_mem _ hi)

theorem isSignal {k : Nat} (hk : k < 8) : RgFields (11 * 2 ^ 27 + 2 ^ k) 11 0 0 0 (2 ^ k) := by
  have hpow : 2 ^ k < 2 ^ 8 := Nat.pow_lt_pow_right (by decide) hk
  have h := rgFields_encode (op := 11) (src := 0) (cmp := 0) (addr := 0) (imm := 2 ^ k) (by decide) (by decide) (by decide) (by decide)
    (by omega)
  simpa [rgEncode] using h

theorem ringerSignal_runs {k : Nat} (hk : k < 8) (hkn : k ≠ n) (hr : (s.fld fRGSTAT_RUNNING).testBit k = true)
    (hw : (s.eng k).waiting = false) (hp : (s.eng k).pend = 0) (hf : RgFields w 11 0 0 0 (2 ^ k))
    (h : AtWord s n w) :
    ∃ t, exec (.ringerSignal n) s = .next t ∧ t.eng k = { s.eng k with pend := 32 } ∧ Goes s n t (s.fld (fRGPC_PC n) + 1) := by
  have hpow : 2 ^ k < 2 ^ 8 := Nat.pow_lt_pow_right (by decide) hk
  have hv : rgValid w = true := by
    simp only [rgValid, hf.op, hf.src, hf.cmp, hf.addr, hf.imm]
    simpa using hpow
  have hready := ready_refl h
  have hgo := goes_ringGo (p := s.fld (fRGPC_PC n) + 1) hready
  have heng : (s.ringGo n (s.fld (fRGPC_PC n) + 1)).eng k = s.eng k := by
    rw [ringGo_eq hready, eng_setEng_ne _ (Ne.symm hkn), setFld_eng]
  have hlen : k < (s.ringGo n (s.fld (fRGPC_PC n) + 1)).ring.eng.length := by
    rw [ringGo_eq hready, setEng_length, State.setFld_ring, h.engines]
    exact hk
  have hrun : ((s.ringGo n (s.fld (fRGPC_PC n) + 1)).fld fRGSTAT_RUNNING).testBit k = true := by rw [hgo.2.2.1, hr]
  generalize hu : s.ringGo n (s.fld (fRGPC_PC n) + 1) = u at *
  have hsig : s.rgSignal n w = u.setEng k { s.eng k with pend := 32 } := by
    have hone := foldl_one (fun t j => t.ringTrig j 0x20) (fun j => (2 ^ k).testBit j) u (k := k) (List.range 8) List.nodup_range
      (List.mem_range.mpr hk) (fun j _ => by rw [Nat.testBit_two_pow]; simp [eq_comm])
    rw [State.rgSignal, hf.imm, ringNext_eq, hu, hone, ringTrig_pends hrun (by rw [heng, hw]) (by rw [heng, hp]), heng]
  refine ⟨_, (congrArg Host.Outcome.next (ringOp_runs h.runs h.word hv hf.op _)).trans (congrArg _ hsig), eng_setEng hlen _, ?_⟩
  obtain ⟨hpc, hic, hrunning, hrest⟩ := hgo
  exact ⟨hpc, by rw [eng_setEng_ne _ hkn, hic], hrunning, State.besidesAll_trans hrest ((Within.refl [] u).setEng k _).besidesAll⟩

end Sys2Proof.Proofs
end

section
/-! PROOF. Triggers and faults of Ringer engines (R488, R489), and touch: calibration, a press and a retry (R493, R494, R498). O53. -/

namespace Sys2Proof.Proofs

open Sys2Proof Sys2Proof.Machine

variable {s : State} {n : Nat}

/-! ### Runaway (R488) -/

/-- The fields that an entry of the FIFO writes. -/
def evFields : List Fld := [fEVFSTAT_DROPPED, fEVFSTAT_COUNT, fRGFLAG_EVDROP]

theorem evPush_within (s : State) (src unit code data : Nat) : Within evFields s (s.evPush src unit code data) := by
  unfold State.evPush
  dsimp only
  have hentry (r : Ringers) (v w : Nat) : Within evFields s (({ s with ring := r } : State).setFld fEVFSTAT_DROPPED v |>.setFld
      fEVFSTAT_COUNT w) :=
    (((Within.refl evFields s).setRing r).setFld (by simp [evFields]) v).setFld (by simp [evFields]) w
  exact .ite ((hentry _ _ _).raise (by simp [evFields])) (hentry _ _ _)

theorem ringFault_runaway (s : State) {n : Nat} (hn : n < 8) :
    ((s.ringFault n 1).fld fRGSTAT_RUNNING).testBit n = false ∧ (s.ringFault n 1).on fRGFLAG_RUNAWAY = true := by
  have hpush := evPush_within ((s.ringStop n).raise [fRGFLAG_RUNAWAY]) 1 n 0x18 (n + 256 * 1 + 65536 * s.fld (fRGPC_PC n))
  have hfault : s.ringFault n 1 = ((s.ringStop n).raise [fRGFLAG_RUNAWAY]).evPush 1 n 0x18 (n + 256 * 1 + 65536 * s.fld (fRGPC_PC n)) := rfl
  rw [hfault]
  refine ⟨?_, ?_⟩
  · rw [hpush.kept _ (by decide), State.fld_raise_other _ _ _ (by decide), ringStop_running s hn]
  · rw [hpush.on (by decide), State.raise_cons, State.raise_nil]
    exact on_setFld_one _ _ (by decide) (by decide)

theorem ringerToff_runaway (hn : n < 8) (hlen : s.ring.eng.length = 8) (hr : s.ringRuns n = true) (hic : 32 ≤ (s.eng n).icount + 1)
    (hw : s.ringWord n = 8 * 2 ^ 27) : ∃ t, exec (.ringerToff n) s = .next t ∧ (t.fld fRGSTAT_RUNNING).testBit n = false ∧
      t.on fRGFLAG_RUNAWAY = true := by
  have heng : ((s.ringDisarm n).eng n).icount = (s.eng n).icount := by rw [eng_ringDisarm (by omega)]
  have htoff : s.rgToff n = (((s.ringDisarm n).setFld (fRGPC_PC n) (((s.ringDisarm n).fld (fRGPC_PC n) + 1) % 32)).setEng n
      { (s.ringDisarm n).eng n with icount := ((s.ringDisarm n).eng n).icount + 1 }).ringFault n 1 := by
    rw [State.rgToff, ringNext_eq]
    exact if_pos (by omega)
  exact ⟨_, (congrArg Host.Outcome.next (ringOp_runs hr hw (by decide) (by decide) _)).trans (congrArg _ htoff), ringFault_runaway _ hn⟩

/-! ### Triggers and the timer's expiry (R489) -/

theorem ringRun_waiting {k : Nat} (h : (s.eng n).waiting = true) : State.ringRun k s n = s := by
  cases k with
  | zero => rfl
  | succ k => simp [State.ringRun, State.ringRuns, h]

theorem ringRun_stopped {k : Nat} (h : (s.fld fRGSTAT_RUNNING).testBit n = false) : State.ringRun k s n = s := by
  cases k with
  | zero => rfl
  | succ k => simp [State.ringRun, State.ringRuns, h]

theorem ringTrig_stopped (h : (s.fld fRGSTAT_RUNNING).testBit n = false) (trigs : Nat) : s.ringTrig n trigs = s := by
  simp [State.ringTrig, h]

theorem ringerTrigger_stopped (k : Nat) (h : (s.fld fRGSTAT_RUNNING).testBit n = false) : exec (.ringerTrigger n k) s = .next s := by
  refine congrArg Host.Outcome.next ?_
  rw [ringTrig_stopped h, ringRun_stopped h, ite_self]

/-- A trigger that a waiting engine does not wait for is pending. -/
theorem ringTrig_masked {trigs : Nat} (hr : (s.fld fRGSTAT_RUNNING).testBit n = true) (hm : (s.eng n).mask = 0) (hp : (s.eng n).pend = 0) :
    s.ringTrig n trigs = s.setEng n { s.eng n with pend := trigs } := by
  simp [State.ringTrig, hr, hm, hp, bits6_zero]

theorem ringerTrigger_pends {k : Nat} (hn : n < 8) (hlen : s.ring.eng.length = 8) (hk : k < 6)
    (hr : (s.fld fRGSTAT_RUNNING).testBit n = true) (hw : (s.eng n).waiting = true) (hm : (s.eng n).mask = 0) (hp : (s.eng n).pend = 0) :
    exec (.ringerTrigger n k) s = .next (s.setEng n { s.eng n with pend := 2 ^ k }) := by
  refine congrArg Host.Outcome.next ?_
  have hwait : ((s.setEng n { s.eng n with pend := 2 ^ k }).eng n).waiting = true := by rw [eng_setEng (by omega)]; exact hw
  rw [if_pos ⟨hn, hk⟩, ringTrig_masked hr hm hp, ringRun_waiting hwait]

theorem arm_other_running : ∀ n < 8, (fRGTH_ARM n).other fRGSTAT_RUNNING = true := by decide +kernel

theorem ringerTimerExpiry_due {a : Nat} (hn : n < 8) (hlen : s.ring.eng.length = 8) (hd : (s.eng n).due = some a)
    (ha : reached a s.now = true) (hr : (s.fld fRGSTAT_RUNNING).testBit n = true) (hw : (s.eng n).waiting = false)
    (hp : (s.eng n).pend = 0) : ∃ t, exec (.ringerTimerExpiry n) s = .next t ∧ t.eng n = { s.eng n with due := none, pend := 4 } ∧
      t.on (fRGTH_ARM n) = false ∧ s.besidesAll t := by
  have heng : (s.ringDisarm n).eng n = { s.eng n with due := none } := eng_ringDisarm (by omega)
  have hrun : ((s.ringDisarm n).fld fRGSTAT_RUNNING).testBit n = true := by
    rw [State.ringDisarm, setEng_fld, State.fld_setFld_other _ _ _ _ (arm_other_running n hn), hr]
  have hlen' : n < (s.ringDisarm n).ring.eng.length := by rw [State.ringDisarm, setEng_length, State.setFld_ring, hlen]; exact hn
  have hexp : exec (.ringerTimerExpiry n) s = .next ((s.ringDisarm n).setEng n { s.eng n with due := none, pend := 4 }) := by
    show execRingerTimerExpiry n s = _
    simp only [execRingerTimerExpiry, hd]
    rw [if_pos ⟨hn, ha⟩, ringTrig_pends hrun (by rw [heng]; exact hw) (by rw [heng]; exact hp), heng]
  refine ⟨_, hexp, eng_setEng hlen' _, ?_, ((ringDisarm_within s n).setEng _ _).besidesAll⟩
  rw [on_of_fld (setEng_fld _ _ _ _), on_ringDisarm]

theorem ringerTimerExpiry_off (hd : (s.eng n).due = none) : exec (.ringerTimerExpiry n) s = .next s := by
  show execRingerTimerExpiry n s = _
  simp only [execRingerTimerExpiry, hd]

/-! ### Touch (R493, R494, R498) -/

theorem tchEl_setTchEl (h : n < s.touch.el.length) (x : Electrode) : (s.setTchEl n x).tchEl n = x := by
  simp [State.tchEl, State.setTchEl, List.getD_eq_getElem?_getD, h]

theorem Within.setTchEl {l : List Fld} {t : State} (h : Within l s t) (e : Nat) (x : Electrode) : Within l s (t.setTchEl e x) :=
  h.trans ⟨fun _ _ => rfl, ⟨rfl, rfl, rfl, rfl, rfl, rfl⟩, rfl, rfl, rfl, rfl, rfl, rfl⟩

theorem touch_off (h : s.touch.on = false) : exec (.touchMeasurement []) s = .next s ∧ exec (.touchRetry 0 none) s = .next s := by
  constructor
  · show execTouchMeasurement [] s = _
    simp [execTouchMeasurement, h]
  · show execTouchRetry 0 none s = _
    simp [execTouchRetry, h]

/-- One electrode on and none faulted: a round of measurements is its measurement. -/
theorem touchMeasurement_one {imm : Nat} {t : State} (hrun : s.slp.st = .run) (hon : s.touch.on = true) (hen : s.fld fTCHCTL_EN = 1)
    (hf : s.fld fTCHSTAT_FAULT = 0) (ht : s.tchMeasure 0 (some imm) = t) (hent : t.fld fTCHCTL_EN = 1) :
    exec (.touchMeasurement [some imm]) s = .next t := by
  show execTouchMeasurement [some imm] s = _
  have h1 : (1 : Nat).testBit 1 = false := by decide
  have h2 : (1 : Nat).testBit 2 = false := by decide
  have h3 : (1 : Nat).testBit 3 = false := by decide
  simp [execTouchMeasurement, hon, hrun, show List.range 4 = [0, 1, 2, 3] from rfl, hen, hf, ht, hent, h1, h2, h3]

theorem tchCause_good {s : State} {imm : Nat} (hmin : s.fld fTCHLIM_MIN ≤ imm) (hmax : imm ≤ s.fld fTCHLIM_MAX) :
    s.tchCause (some imm) = none := by
  simp only [State.tchCause]
  rw [if_neg (by omega), if_neg (by omega)]

/-- The count of an electrode shown. -/
def rawShown (s : State) (imm : Nat) : State := s.setFld (fTCHRAW_COUNT 0) imm

theorem tchMeasure_good {imm : Nat} (hi : imm < 2 ^ 16) (hmin : s.fld fTCHLIM_MIN ≤ imm) (hmax : imm ≤ s.fld fTCHLIM_MAX) :
    s.tchMeasure 0 (some imm) = (rawShown s imm).tchGood 0 imm := by
  have hm : min 65535 imm = imm := by omega
  simp only [State.tchMeasure, tchCause_good hmin hmax, Option.getD_some, hm, rawShown]

theorem fld_rawShown (s : State) {imm : Nat} (hi : imm < 2 ^ 16) : (rawShown s imm).fld (fTCHRAW_COUNT 0) = imm := by
  rw [rawShown, State.fld_setFld _ _ _ (by decide)]
  exact Nat.mod_eq_of_lt hi

theorem openQuot_eight (v : Nat) : (openQuot (7 * (v : Int) + v) 8).toNat = v := by
  have h : 7 * (v : Int) + v = 8 * v := by omega
  rw [openQuot, if_pos (by omega)]
  omega

/-- The last of the eight measurements of a calibration gives the base. -/
theorem touch_calibrates {imm : Nat} (hi : imm < 2 ^ 16) (hel : s.touch.el.length = 4) (hrun : s.slp.st = .run) (hon : s.touch.on = true)
    (hen : s.fld fTCHCTL_EN = 1) (hf : s.fld fTCHSTAT_FAULT = 0) (hcal : (s.tchEl 0).cal = 1) (hsum : (s.tchEl 0).sum = 7 * imm)
    (hmin : s.fld fTCHLIM_MIN ≤ imm) (hmax : imm ≤ s.fld fTCHLIM_MAX) : ∃ t, exec (.touchMeasurement [some imm]) s = .next t ∧
      t.fld (fTCHBASE_BASE 0) = imm ∧ t.fld (fTCHRAW_COUNT 0) = imm ∧ (t.fld fTCHSTAT_CALIB).testBit 0 = false ∧ (t.tchEl 0).cal = 0 ∧
      s.besidesAll t := by
  generalize hu : (rawShown s imm).setFld (fTCHBASE_BASE 0) imm = u
  have hin : Within [fTCHRAW_COUNT 0, fTCHBASE_BASE 0] s u := by
    rw [← hu]
    exact ((Within.refl _ s).setFld (by simp) _).setFld (by simp) _
  have hcalib : u.fld fTCHSTAT_CALIB = (rawShown s imm).fld fTCHSTAT_CALIB := by rw [← hu, State.fld_setFld_other _ _ _ _ (by decide)]
  have hgood : (rawShown s imm).tchGood 0 imm = (u.setFld fTCHSTAT_CALIB (bitTo (u.fld fTCHSTAT_CALIB) 0 false)).setTchEl 0 {} := by
    have hc : ((rawShown s imm).tchEl 0).cal = 1 := hcal
    have hs : ((rawShown s imm).tchEl 0).sum = 7 * imm := hsum
    rw [hcalib, ← hu]
    simp [State.tchGood, hc, hs, openQuot_eight, State.sets_cons, State.sets_nil]
  have hall := ((hin.mono (m := [fTCHRAW_COUNT 0, fTCHBASE_BASE 0, fTCHSTAT_CALIB]) (by simp)).setFld (f := fTCHSTAT_CALIB) (by simp)
    (bitTo (u.fld fTCHSTAT_CALIB) 0 false)).setTchEl 0 {}
  have htouch : u.touch.el.length = 4 := by rw [← hu]; exact hel
  refine ⟨_, touchMeasurement_one hrun hon hen hf ((tchMeasure_good hi hmin hmax).trans hgood) ((hall.kept _ (by decide)).trans hen),
    ?base, ?raw, ?calib, ?cal, hall.besidesAll⟩
  case base =>
    refine (State.fld_setFld_other u _ _ _ (by decide)).trans ?_
    rw [← hu, State.fld_setFld _ _ _ (by decide)]
    exact Nat.mod_eq_of_lt hi
  case raw =>
    refine (State.fld_setFld_other u _ _ _ (by decide)).trans ?_
    rw [← hu, State.fld_setFld_other _ _ _ _ (by decide), fld_rawShown s hi]
  case calib => exact testBit_setFld_bitTo u _ (by decide) (by decide) false
  case cal =>
    rw [tchEl_setTchEl]
    rw [State.setFld_touch, htouch]
    decide

/-- The fields that a touch event writes: the FIFO's, the engines' misses and what waits shows, and the wake source. -/
def touchEventFields : List Fld :=
  evFields ++ [fRGSTAT_WAITING, fRGFLAG_TRIGMISS, fWAKESRC_SRC] ++ (List.range 8).map fRGMISS_MISS

theorem ringTrig_within (s : State) {k : Nat} (hk : k < 8) (trigs : Nat) : Within touchEventFields s (s.ringTrig k trigs) := by
  have hmiss : fRGMISS_MISS k ∈ touchEventFields :=
    List.mem_append_right _ (List.mem_map_of_mem (List.mem_range.mpr hk))
  have hlost : Within touchEventFields s (if bits6 (trigs &&& (s.eng k).pend) = 0 then s
      else (s.countBy (fRGMISS_MISS k) (bits6 (trigs &&& (s.eng k).pend))).raise [fRGFLAG_TRIGMISS]) :=
    .ite (.refl _ s) (((Within.refl _ s).setFld hmiss _).raise (by simp [touchEventFields]))
  unfold State.ringTrig
  dsimp only
  refine .ite (.refl _ s) (.ite ?_ (hlost.setEng _ _))
  exact (hlost.setFld (f := fRGSTAT_WAITING) (by simp [touchEventFields]) _).setEng _ _

theorem ringTrig_slp (s : State) (k trigs : Nat) : (s.ringTrig k trigs).slp = s.slp ∧ (s.ringTrig k trigs).rst = s.rst := by
  unfold State.ringTrig
  dsimp only
  split
  · exact ⟨rfl, rfl⟩
  · split <;> split <;> exact ⟨rfl, rfl⟩

theorem ringTrigAll_spec (s : State) (trigs : Nat) :
    Within touchEventFields s (s.ringTrigAll trigs) ∧ (s.ringTrigAll trigs).slp = s.slp := by
  have hfold : ∀ (l : List Nat) (t : State), (∀ k ∈ l, k < 8) → Within touchEventFields s t → t.slp = s.slp →
      Within touchEventFields s (l.foldl (fun t k => t.ringTrig k trigs) t) ∧ (l.foldl (fun t k => t.ringTrig k trigs) t).slp = s.slp := by
    intro l
    induction l with
    | nil => exact fun t _ ht hslp => ⟨ht, hslp⟩
    | cons k l ih =>
      intro t hl ht hslp
      exact ih _ (fun j hj => hl j (List.mem_cons_of_mem _ hj)) (ht.trans (ringTrig_within t (hl k (List.mem_cons_self ..)) trigs))
        ((ringTrig_slp t k trigs).1.trans hslp)
  unfold State.ringTrigAll
  split
  · exact ⟨.refl _ s, rfl⟩
  · exact hfold _ s (fun k hk => List.mem_range.mp hk) (.refl _ s) rfl

theorem evPush_slp (s : State) (src unit code data : Nat) : (s.evPush src unit code data).slp = s.slp := by
  unfold State.evPush
  dsimp only
  split <;> rfl

/-- A touch event while the part is awake: the wake source is latched, and only the event's fields are written. -/
theorem tchEvent_spec (ha : s.awake = true) (k e v : Nat) :
    Within touchEventFields s (s.tchEvent k e v) ∧ ((s.tchEvent k e v).fld fWAKESRC_SRC).testBit 12 = true := by
  have hpush : Within touchEventFields s (s.evPush 2 e (0x20 + k) (e + 256 * (v % 65536))) :=
    (evPush_within s _ _ _ _).mono (fun f hf => List.mem_append_left _ (List.mem_append_left _ hf))
  have hslp := evPush_slp s 2 e (0x20 + k) (e + 256 * (v % 65536))
  have hcode := hpush.rgSet fun r => { r with lastCode := 0x20 + k }
  obtain ⟨htrig, hslp'⟩ := ringTrigAll_spec ((s.evPush 2 e (0x20 + k) (e + 256 * (v % 65536))).rgSet fun r => { r with lastCode := 0x20 + k })
    0x10
  have hall := hcode.trans htrig
  generalize hu : ((s.evPush 2 e (0x20 + k) (e + 256 * (v % 65536))).rgSet fun r => { r with lastCode := 0x20 + k }).ringTrigAll 0x10 = u at *
  have hawake : u.awake = true := by rw [State.awake, hslp', State.rgSet_slp, hslp]; exact ha
  have hevent : s.tchEvent k e v = u.setFld fWAKESRC_SRC (u.fld fWAKESRC_SRC ||| 2 ^ 12) := by
    rw [← State.wake_awake u 12 hawake, ← hu]
    rfl
  rw [hevent]
  refine ⟨hall.setFld (by simp [touchEventFields]) _, ?_⟩
  rw [fld_setFld_latch _ _ (by decide) (by decide), Nat.testBit_or, Nat.testBit_two_pow_self, Bool.or_true]

/-- The state of a press before its event. -/
def pressed (s : State) (imm : Nat) (x : Electrode) : State :=
  (((rawShown s imm).setTchEl 0 x).setFld fTCHSTAT_TOUCHED 1).setFld fTCHFLAG_DOWN 1

theorem pressed_within (s : State) (imm : Nat) (x : Electrode) :
    Within [fTCHRAW_COUNT 0, fTCHSTAT_TOUCHED, fTCHFLAG_DOWN] s (pressed s imm x) :=
  (((((Within.refl _ s).setFld (f := fTCHRAW_COUNT 0) (by simp) imm).setTchEl 0 x).setFld (f := fTCHSTAT_TOUCHED) (by simp) 1).setFld
    (by simp) 1)

/-- A count that falls by the threshold at once, with DEB = 1, is a press. -/
theorem tchGood_presses {imm : Nat} (hcal : (s.tchEl 0).cal = 0) (hdeb : s.fld fTCHCFG_DEB = 1) (htouched : s.fld fTCHSTAT_TOUCHED = 0)
    (hthr : imm + s.fld fTCHCFG_THR ≤ s.fld (fTCHBASE_BASE 0)) :
    ∃ x v, (rawShown s imm).tchGood 0 imm = (pressed s imm x).tchEvent 0 0 v := by
  have hc : ((rawShown s imm).tchEl 0).cal = 0 := hcal
  have hd : (rawShown s imm).fld fTCHCFG_DEB = 1 := (State.fld_setFld_other s _ _ _ (by decide)).trans hdeb
  have ht : (rawShown s imm).fld fTCHSTAT_TOUCHED = 0 := (State.fld_setFld_other s _ _ _ (by decide)).trans htouched
  have hr : (rawShown s imm).fld fTCHCFG_THR = s.fld fTCHCFG_THR := State.fld_setFld_other s _ _ _ (by decide)
  have hb : (rawShown s imm).fld (fTCHBASE_BASE 0) = s.fld (fTCHBASE_BASE 0) := State.fld_setFld_other s _ _ _ (by decide)
  have hdelta : ((s.fld fTCHCFG_THR : Nat) : Int) ≤ (s.fld (fTCHBASE_BASE 0) : Int) - imm := by omega
  have hone : bitTo 0 0 true = 1 := by decide
  simp only [State.tchGood, hc, hd, ht, hr, hb, hdelta, Nat.lt_irrefl, if_false, if_true, Nat.zero_testBit, Bool.not_false, Bool.true_and,
    Nat.max_self, Nat.le_add_left, decide_true, hone, State.raise_cons, State.raise_nil]
  exact ⟨_, _, rfl⟩

theorem touch_presses {imm : Nat} (hi : imm < 2 ^ 16) (ha : s.awake = true) (hon : s.touch.on = true)
    (hen : s.fld fTCHCTL_EN = 1) (hf : s.fld fTCHSTAT_FAULT = 0) (hcal : (s.tchEl 0).cal = 0) (hdeb : s.fld fTCHCFG_DEB = 1)
    (htouched : s.fld fTCHSTAT_TOUCHED = 0) (hmin : s.fld fTCHLIM_MIN ≤ imm) (hmax : imm ≤ s.fld fTCHLIM_MAX)
    (hthr : imm + s.fld fTCHCFG_THR ≤ s.fld (fTCHBASE_BASE 0)) : ∃ t, exec (.touchMeasurement [some imm]) s = .next t ∧
      t.fld fTCHSTAT_TOUCHED = 1 ∧ t.on fTCHFLAG_DOWN = true ∧ t.fld (fTCHBASE_BASE 0) = s.fld (fTCHBASE_BASE 0) ∧
      (t.fld fWAKESRC_SRC).testBit 12 = true ∧ s.besidesAll t := by
  have hrun : s.slp.st = .run := by
    simp only [State.awake, Bool.and_eq_true, decide_eq_true_eq] at ha
    exact ha.1
  obtain ⟨x, v, hgood⟩ := tchGood_presses hcal hdeb htouched hthr
  have hpress := pressed_within s imm x
  obtain ⟨hevent, hwake⟩ := tchEvent_spec (s := pressed s imm x) ha 0 0 v
  refine ⟨_, touchMeasurement_one hrun hon hen hf ((tchMeasure_good hi hmin hmax).trans hgood) ?en, ?touched, ?down, ?base, hwake,
    State.besidesAll_trans hpress.besidesAll hevent.besidesAll⟩
  case en => rw [hevent.kept _ (by decide), hpress.kept _ (by decide), hen]
  case touched =>
    rw [hevent.kept _ (by decide), pressed, State.fld_setFld_other _ _ _ _ (by decide), State.fld_setFld _ _ _ (by decide)]
    decide
  case down =>
    rw [hevent.on (by decide), pressed]
    exact on_setFld_one _ _ (by decide) (by decide)
  case base => rw [hevent.kept _ (by decide), hpress.kept _ (by decide)]

/-- The third good measurement of a faulted electrode clears the fault and begins a calibration. -/
theorem touch_retries {imm : Nat} (hi : imm < 2 ^ 16) (hel : s.touch.el.length = 4) (hon : s.touch.on = true)
    (hen : s.fld fTCHCTL_EN = 1) (hf : s.fld fTCHSTAT_FAULT = 1) (hgood : (s.tchEl 0).good = 2) (hmin : s.fld fTCHLIM_MIN ≤ imm)
    (hmax : imm ≤ s.fld fTCHLIM_MAX) : ∃ t, exec (.touchRetry 0 (some imm)) s = .next t ∧ t.fld fTCHSTAT_FAULT = 0 ∧
      (t.fld fTCHSTAT_CALIB).testBit 0 = true ∧ (t.tchEl 0).cal = 8 ∧ s.besidesAll t := by
  have hm : min 65535 imm = imm := by omega
  have hraw : (rawShown s imm).fld fTCHSTAT_FAULT = 1 := (State.fld_setFld_other s _ _ _ (by decide)).trans hf
  have hg : ((rawShown s imm).tchEl 0).good = 2 := hgood
  have hin : Within [fTCHRAW_COUNT 0, fTCHSTAT_FAULT] s (((rawShown s imm).setFld fTCHSTAT_FAULT 0).setTchEl 0 {}) :=
    ((((Within.refl _ s).setFld (f := fTCHRAW_COUNT 0) (by simp) imm).setFld (f := fTCHSTAT_FAULT) (by simp) 0).setTchEl 0 {})
  have hfault : (((rawShown s imm).setFld fTCHSTAT_FAULT 0).setTchEl 0 {}).fld fTCHSTAT_FAULT = 0 := by
    refine (State.fld_setFld (rawShown s imm) fTCHSTAT_FAULT 0 (by decide)).trans ?_
    decide
  have hlen : (((rawShown s imm).setFld fTCHSTAT_FAULT 0).setTchEl 0 {}).touch.el.length = 4 := (List.length_set ..).trans hel
  generalize hu : ((rawShown s imm).setFld fTCHSTAT_FAULT 0).setTchEl 0 {} = u at *
  have hretry : exec (.touchRetry 0 (some imm)) s = .next (u.tchCal 0) := by
    show execTouchRetry 0 (some imm) s = _
    have hone : (1 : Nat).testBit 0 = true := by decide
    have hzero : bitTo 1 0 false = 0 := by decide
    rw [rawShown] at hraw hg
    rw [← hu, rawShown]
    simp [execTouchRetry, hon, hf, hen, hone, hm, tchCause_good hmin hmax, hraw, hg, hzero]
  refine ⟨_, hretry, ?fault, ?calib, ?cal, ?rest⟩
  case fault => exact (State.fld_setFld_other u fTCHSTAT_CALIB fTCHSTAT_FAULT _ (by decide)).trans hfault
  case calib => exact testBit_setFld_bitTo u fTCHSTAT_CALIB (by decide) (by decide) true
  case cal =>
    have hlen' : 0 < (u.setFld fTCHSTAT_CALIB (bitTo (u.fld fTCHSTAT_CALIB) 0 true)).touch.el.length := by
      rw [State.setFld_touch, hlen]
      decide
    rw [State.tchCal, tchEl_setTchEl hlen']
  case rest => exact State.besidesAll_trans hin.besidesAll (((Within.refl [fTCHSTAT_CALIB] u).setFld (by simp) _).setTchEl _ _).besidesAll

/-- Settles O53, by the lemma on each instruction, trigger and measurement. -/
theorem ringerEngines : Obligations.RingerEngines := by
  unfold Obligations.RingerEngines
  intro s n k imm c a hn hlen hel hslp hi e pc fl atWord goes v holds counter sum due time
  have at_ {w : Nat} (h : atWord w) : AtWord s n w := ⟨hn, hlen, h.1, h.2.1, h.2.2⟩
  refine ⟨fun h => ⟨?_, ?_, ?_⟩, ringerHalt_other, fun h => ringerHalt_runs (at_ h), fun hk h => ringerWait_waits (isWait hk) (at_ h),
    fun hk h => ringerWait_goes (isWait hk) (at_ h), fun hk hc h => ringerTest_runs hk hc hi (at_ h),
    fun hc ha h => ringerBr_runs hc ha (at_ h), fun hc h => ringerSetc_runs hc hi (at_ h), fun hc h => ringerAddc_runs hc hi (at_ h),
    fun hk h => ringerTrel_runs hk hi (at_ h), fun h => ringerTabs_runs (at_ h), fun h => ringerToff_runs (at_ h),
    fun hk hq hd h => ringerEmit_runs hk hq hd (isEmit hk) (at_ h), fun hawake h => ringerWake_runs hawake (at_ h),
    fun hk hkn hr hw hp h => ringerSignal_runs hk hkn hr hw hp (isSignal hk) (at_ h), fun hr hic hw => ringerToff_runaway hn hlen hr hic hw,
    fun hk => ringerTrigger_pends hn hlen hk, ringerTrigger_stopped k, ringerTimerExpiry_due hn hlen, ringerTimerExpiry_off, touch_off,
    fun hon hen hf => touch_calibrates hi hel hslp hon hen hf, fun hawake => touch_presses hi hawake, touch_retries hi hel⟩
  all_goals exact congrArg Host.Outcome.next (ringOp_stopped h _ _)

end Sys2Proof.Proofs
end

section
/-! PROOF. A Chorister's state and registers, the edges that pass, and the completion of an instruction (R500 to R505). -/

namespace Sys2Proof.Proofs

open Sys2Proof Sys2Proof.Machine

variable {s t u : State} {n : Nat}

/-! ### One engine -/

theorem Within.setChor {l : List Fld} (h : Within l s t) (c : Chor) : Within l s { t with chor := c } :=
  h.trans ⟨fun _ _ => rfl, ⟨rfl, rfl, rfl, rfl, rfl, rfl⟩, rfl, rfl, rfl, rfl, rfl, rfl⟩

theorem Within.setPads {l : List Fld} (h : Within l s t) (p : Pads) : Within l s { t with pads := p } :=
  h.trans ⟨fun _ _ => rfl, ⟨rfl, rfl, rfl, rfl, rfl, rfl⟩, rfl, rfl, rfl, rfl, rfl, rfl⟩

/-- The registers that show an engine (Table 23.5). -/
def cheFields (n : Nat) : List Fld :=
  [fCHSTAT_STALLED, fCHSTAT_SUSPENDED, fCHSTAT_INJPEND, fCHSTALL_PC n, fCHSTALL_OCNT n, fCHSTALL_PART n, fCHSTALL_KIND n, fCHSTALL_SUSP n,
    fCHXY_X n, fCHXY_Y n, fCHLEVEL_TXN n, fCHLEVEL_RXN n]

/-- What a change of engines leaves alone: fields apart from `l`, ACTCNT, the pads and whether touch has an engine. -/
structure ChFrame (l : List Fld) (s t : State) : Prop where
  within : Within l s t
  act : t.chor.act = s.chor.act
  pads : t.pads = s.pads
  engines : t.chor.eng.length = s.chor.eng.length
  touchEng : t.chor.touchEng = s.chor.touchEng
  rhocoUp : t.rhocoUp = s.rhocoUp

theorem ChFrame.refl (l : List Fld) (s : State) : ChFrame l s s := ⟨.refl l s, rfl, rfl, rfl, rfl, rfl⟩

theorem ChFrame.trans {l : List Fld} (h : ChFrame l s t) (k : ChFrame l t u) : ChFrame l s u :=
  ⟨h.within.trans k.within, k.act.trans h.act, k.pads.trans h.pads, k.engines.trans h.engines, k.touchEng.trans h.touchEng,
    k.rhocoUp.trans h.rhocoUp⟩

theorem ChFrame.setFld {l : List Fld} (h : ChFrame l s t) {f : Fld} (hf : f ∈ l) (v : Nat) : ChFrame l s (t.setFld f v) :=
  h.trans ⟨(Within.refl l t).setFld hf v, rfl, rfl, rfl, rfl, rfl⟩

theorem ChFrame.mono {l m : List Fld} (h : ChFrame l s t) (hlm : ∀ f ∈ l, f ∈ m) : ChFrame m s t :=
  ⟨h.within.mono hlm, h.act, h.pads, h.engines, h.touchEng, h.rhocoUp⟩

theorem sets_frame {l : List Fld} (p : List (Fld × Nat)) (hp : ∀ q ∈ p, q.1 ∈ l) (s : State) : ChFrame l s (s.sets p) := by
  induction p generalizing s with
  | nil => exact .refl l s
  | cons q p ih =>
    exact ((ChFrame.refl l s).setFld (hp q (List.mem_cons_self ..)) q.2).trans (ih (fun r hr => hp r (List.mem_cons_of_mem _ hr)) _)

theorem setChe_frame (s : State) (n : Nat) (e : ChEng) : ChFrame (cheFields n) s (s.setChe n e) := by
  have hchor : ChFrame (cheFields n) s (s.chSet (fun c => { c with eng := c.eng.set n e })) :=
    ⟨(Within.refl _ s).setChor _, rfl, rfl, List.length_set .., rfl, rfl⟩
  exact hchor.trans (sets_frame _ (by simp [cheFields]) _)

theorem che_setChe (hn : n < s.chor.eng.length) (e : ChEng) : (s.setChe n e).che n = e := by
  unfold State.setChe State.che
  dsimp only
  rw [State.sets_eq]
  simp [State.chSet, List.getD_eq_getElem?_getD, hn]

theorem che_cheSet (hn : n < s.chor.eng.length) (f : ChEng → ChEng) : (s.cheSet n f).che n = f (s.che n) := che_setChe hn _

/-- The engine's bit of STALLED shows whether it stalls. -/
theorem stalled_setChe (hn : n < 8) (s : State) (e : ChEng) : ((s.setChe n e).fld fCHSTAT_STALLED).testBit n = e.stall.isSome := by
  have hother : ∀ n < 8, (cheFields n).tail.all (fun f => f.other fCHSTAT_STALLED) = true := by decide +kernel
  have hall := hother n hn
  simp only [cheFields, List.tail_cons, List.all_cons, List.all_nil, Bool.and_true, Bool.and_eq_true] at hall
  unfold State.setChe
  dsimp only
  rw [State.sets_cons, State.fld_sets_other _ _ _ (by simp only [List.all_cons, List.all_nil, Bool.and_true, Bool.and_eq_true]; exact hall)]
  exact testBit_setFld_bitTo _ fCHSTAT_STALLED hn (by decide) _

/-! ### What the engines' registers leave alone -/

/-- The fields of block 22 that an engine's step reads and its state does not show. -/
def chorConfig (n : Nat) : List Fld :=
  [fCHSTAT_RUNNING, fCHCTL_EN, fCHIRQ_FLAG, fCHSTARTH_ARM, fCHSTARTH_MASK, fCHSTARTL_TIME, fCHSTARTH_TIME, fCHDIV_INT n, fCHDIV_FRAC n,
    fCHCFG_WRAPTOP n, fCHCFG_WRAPBOT n, fCHCFG_JOIN n, fCHFLAG_BADOP n, fCHFLAG_STALLTMO n, fCHCNT_STALLTMO n]

theorem che_apart : ∀ m < 8, ∀ n < 8, (cheFields m).all (fun f => (chorConfig n).all (fun g => f.other g)) = true := by decide +kernel

theorem che_other {m : Nat} (hm : m < 8) (hn : n < 8) {g : Fld} (hg : g ∈ chorConfig n) : (cheFields m).all (fun f => f.other g) = true :=
  List.all_eq_true.mpr fun f hf => other_of_mem (List.all_eq_true.mp (che_apart m hm n hn) f hf) hg

theorem other_prog {f : Fld} (h : f.addr < 0x40016800) (k : Nat) : f.other (fCHPROG_INSTR k) = true := by
  have haddr : f.addr ≠ (fCHPROG_INSTR k).addr := by
    simp only [fCHPROG_INSTR, rCHPROG]
    omega
  simp [Fld.other, haddr]

theorem che_below : ∀ n < 8, (cheFields n).all (fun f => decide (f.addr < 0x40016800)) = true := by decide +kernel

theorem che_prog (hn : n < 8) (k : Nat) : (cheFields n).all (fun f => f.other (fCHPROG_INSTR k)) = true :=
  List.all_eq_true.mpr fun f hf => other_prog (of_decide_eq_true (List.all_eq_true.mp (che_below n hn) f hf)) k

section
variable (h : ChFrame (cheFields n) s t)
include h

theorem ChFrame.config (hn : n < 8) {m : Nat} (hm : m < 8) {g : Fld} (hg : g ∈ chorConfig m) : t.fld g = s.fld g :=
  h.within.kept g (che_other hn hm hg)

theorem ChFrame.div (hn : n < 8) : t.chDiv n = s.chDiv n := by
  rw [State.chDiv, State.chDiv, h.config hn hn (g := fCHDIV_INT n) (by simp [chorConfig]),
    h.config hn hn (g := fCHDIV_FRAC n) (by simp [chorConfig])]

theorem ChFrame.word (hn : n < 8) (pc : Nat) : t.chWord n pc = s.chWord n pc := h.within.kept _ (che_prog hn _)

theorem ChFrame.next (hn : n < 8) (pc : Nat) : t.chNext n pc = s.chNext n pc := by
  rw [State.chNext, State.chNext, h.config hn hn (g := fCHCFG_WRAPTOP n) (by simp [chorConfig]),
    h.config hn hn (g := fCHCFG_WRAPBOT n) (by simp [chorConfig])]

end

/-! ### Folds over the engines -/

theorem foldl_none {α : Type} {f : α → Nat → α} {p : α → Nat → Bool} {a : α} :
    ∀ l : List Nat, (∀ j ∈ l, p a j = false) → l.foldl (fun t j => if p t j then f t j else t) a = a := by
  intro l
  induction l with
  | nil => intro _; rfl
  | cons j l ih =>
    intro hp
    rw [List.foldl_cons, hp j (List.mem_cons_self ..)]
    exact ih fun i hi => hp i (List.mem_cons_of_mem _ hi)

/-- A fold whose test holds at one element alone, before and after that element's step, is that step. -/
theorem foldl_single {α : Type} {f : α → Nat → α} {p : α → Nat → Bool} {a : α} {k : Nat} :
    ∀ l : List Nat, l.Nodup → k ∈ l → (∀ j ∈ l, p a j = decide (j = k)) → (∀ j ∈ l, j ≠ k → p (f a k) j = false) →
      l.foldl (fun t j => if p t j then f t j else t) a = f a k := by
  intro l
  induction l with
  | nil => intro _ hk; exact absurd hk List.not_mem_nil
  | cons j l ih =>
    intro hnd hk hp hq
    obtain ⟨hj, hnd⟩ := List.nodup_cons.mp hnd
    rw [List.foldl_cons, hp j (List.mem_cons_self ..)]
    by_cases hjk : j = k
    · subst hjk
      simp only [decide_true, if_true]
      exact foldl_none l fun i hi => hq i (List.mem_cons_of_mem _ hi) fun h => hj (h ▸ hi)
    · simp only [hjk, decide_false, Bool.false_eq_true, if_false]
      exact ih hnd ((List.mem_cons.mp hk).resolve_left (Ne.symm hjk)) (fun i hi => hp i (List.mem_cons_of_mem _ hi))
        fun i hi => hq i (List.mem_cons_of_mem _ hi)

/-! ### Edges (R501, R502) -/

theorem chRuns_one (h : s.fld fCHSTAT_RUNNING = 2 ^ n) (j : Nat) : s.chRuns j = decide (j = n) := by
  rw [State.chRuns, h, Nat.testBit_two_pow]
  simp [eq_comm]

theorem chPassed_plain (h : (s.che n).stall = none) (k : Nat) : s.chPassed k n = s.cheSet n (fun e => { e with acc := e.acc + 256 * k }) := by
  simp only [State.chPassed, h]

/-- One edge with an engine alone running, and nothing that stands still. -/
theorem actEdges_one (hn : n < 8) (hr : s.fld fCHSTAT_RUNNING = 2 ^ n) (hst : (s.che n).stall = none) (hstill : s.chor.still = 0) :
    s.actEdges 1 = (s.cheSet n (fun e => { e with acc := e.acc + 256 * 1 })).chSet
      (fun c => { c with act := (c.act + 1) % 2 ^ 48, still := c.still - 0 }) := by
  have hfold : (List.range 8).foldl (fun t j => if t.chRuns j then t.chPassed 1 j else t) s = s.chPassed 1 n := by
    refine foldl_single _ List.nodup_range (List.mem_range.mpr hn) (fun j _ => chRuns_one hr j)
      fun j _ hjk => (chRuns_one ?_ j).trans (decide_eq_false hjk)
    rw [chPassed_plain hst]
    exact ((setChe_frame s n _).config hn hn (by simp [chorConfig])).trans hr
  simp only [State.actEdges, hstill, Nat.min_zero, Nat.sub_zero, if_true]
  rw [hfold, chPassed_plain hst]

end Sys2Proof.Proofs
end

section
/-! PROOF. A Chorister that is due executes one instruction (R505 to R507), stalls, is stopped by a reserved encoding, starts at its time
(R510), and tells of a stall that lasts (R519). O35. -/

namespace Sys2Proof.Proofs

open Sys2Proof Sys2Proof.Machine

variable {s t u v : State} {n g w : Nat}

/-! ### An engine that is due -/

/-- An engine alone runs, and its divider lets it execute the word at its PC on the next edge. -/
structure Due (s : State) (n w : Nat) : Prop where
  index : n < 8
  engines : s.chor.eng.length = 8
  turns : s.rootStopped = false
  running : s.fld fCHSTAT_RUNNING = 2 ^ n
  div : s.chDiv n ≤ (s.che n).acc + 256
  delay : (s.che n).delay = 0
  inj : (s.che n).inj = none
  stall : (s.che n).stall = none
  susp : (s.che n).susp = none
  still : s.chor.still = 0
  pc : (s.che n).pc < 31
  top : (s.che n).pc ≠ s.fld (fCHCFG_WRAPTOP n)
  word : s.chWord n (s.che n).pc = w

/-- The state in which the engine's step begins: the pads sampled, the counter advanced, the divider restarted. -/
structure Edged (s : State) (n g : Nat) (v : State) : Prop where
  within : Within (cheFields n) s v
  che : ∃ a, v.che n = { s.che n with acc := a }
  act : v.chor.act = (s.chor.act + 1) % 2 ^ 48
  level : v.pads.level = g
  engines : v.chor.eng.length = s.chor.eng.length
  touchEng : v.chor.touchEng = s.chor.touchEng
  rhocoUp : v.rhocoUp = s.rhocoUp

/-- What the step of an engine shows of the rest: ACTCNT one on, the pads sampled, the engine alone running. -/
def Stepped (s : State) (n g : Nat) (t : State) : Prop :=
  t.chor.act = (s.chor.act + 1) % 2 ^ 48 ∧ t.pads.level = g ∧ t.fld fCHSTAT_RUNNING = 2 ^ n ∧ s.besidesAll t

theorem Edged.trans {l : List Fld} (h : Edged s n g v) (k : ChFrame l v t) (hr : v.fld fCHSTAT_RUNNING = 2 ^ n)
    (hl : l.all (fun f => f.other fCHSTAT_RUNNING) = true) : Stepped s n g t :=
  ⟨k.act.trans h.act, (congrArg Pads.level k.pads).trans h.level, (k.within.kept _ hl).trans hr,
    State.besidesAll_trans h.within.besidesAll k.within.besidesAll⟩

/-- The pads and the comparator sampled. -/
def sampled (s : State) (g : Nat) : State :=
  ({ s with pads := { s.pads with level := g % 2 ^ 16 } } : State).chSet (fun c => { c with tcmp := false })

theorem sampled_act (s : State) (g : Nat) : (sampled s g).chor.act = s.chor.act := rfl
theorem sampled_level (s : State) (g : Nat) : (sampled s g).pads.level = g % 2 ^ 16 := rfl
theorem sampled_div (s : State) (g n : Nat) : (sampled s g).chDiv n = s.chDiv n := rfl
theorem sampled_rest (s : State) (g : Nat) : (sampled s g).chor.eng = s.chor.eng ∧ (sampled s g).chor.touchEng = s.chor.touchEng ∧
    (sampled s g).rhocoUp = s.rhocoUp := ⟨rfl, rfl, rfl⟩

/-- A step of a running engine whose divider is due. -/
theorem chorStep_eq (hn : n < 8) (hroot : s.rootStopped = false) {x : State} (hx : (sampled s g).actEdges 1 = x)
    (hrun : x.chRuns n = true) (hdue : ¬ (x.che n).acc < x.chDiv n) :
    exec (.chorStep n 1 g false) s = .next ((x.setChe n { x.che n with acc := (x.che n).acc - x.chDiv n }).chStepRun n) := by
  subst hx
  show execChorStep n 1 g false s = _
  unfold execChorStep
  rw [if_neg (by simp [hroot]; omega)]
  exact congrArg Host.Outcome.next ((if_pos hrun).trans (if_neg hdue))

/-- The state after one edge: the counter one on, the engine's divider too, and the rest as sampled. -/
structure EdgePassed (s : State) (n g : Nat) (x : State) : Prop where
  within : Within (cheFields n) s x
  che : x.che n = { s.che n with acc := (s.che n).acc + 256 * 1 }
  act : x.chor.act = (s.chor.act + 1) % 2 ^ 48
  level : x.pads.level = g
  engines : x.chor.eng.length = s.chor.eng.length
  touchEng : x.chor.touchEng = s.chor.touchEng
  rhocoUp : x.rhocoUp = s.rhocoUp
  div : x.chDiv n = s.chDiv n

/-- The counter one edge on. -/
def edgeOn (u : State) : State := u.chSet (fun c => { c with act := (c.act + 1) % 2 ^ 48, still := c.still - 0 })

theorem edgeOn_act (u : State) : (edgeOn u).chor.act = (u.chor.act + 1) % 2 ^ 48 := rfl
theorem edgeOn_eng (u : State) : (edgeOn u).chor.eng = u.chor.eng := rfl
theorem edgeOn_touchEng (u : State) : (edgeOn u).chor.touchEng = u.chor.touchEng := rfl
theorem edgeOn_rest (u : State) : (edgeOn u).pads = u.pads ∧ (edgeOn u).rhocoUp = u.rhocoUp ∧ (edgeOn u).regs = u.regs := ⟨rfl, rfl, rfl⟩

theorem edgePassed (h : Due s n w) (hg : g < 2 ^ 16) : EdgePassed s n g ((sampled s g).actEdges 1) := by
  have hn := h.index
  obtain ⟨heng, htouch, hup⟩ := sampled_rest s g
  have hlen : n < (sampled s g).chor.eng.length := by rw [heng, h.engines]; exact hn
  have hche := che_cheSet hlen (fun e => { e with acc := e.acc + 256 * 1 })
  have hframe : ChFrame (cheFields n) (sampled s g) ((sampled s g).cheSet n (fun e => { e with acc := e.acc + 256 * 1 })) :=
    setChe_frame _ n _
  have hedge : (sampled s g).actEdges 1 = edgeOn ((sampled s g).cheSet n (fun e => { e with acc := e.acc + 256 * 1 })) :=
    actEdges_one hn h.running h.stall h.still
  rw [hedge]
  generalize (sampled s g).cheSet n (fun e => { e with acc := e.acc + 256 * 1 }) = u at hche hframe
  have hin : Within (cheFields n) s (sampled s g) := ((Within.refl _ s).setPads _).setChor _
  obtain ⟨hpads, hrh, hregs⟩ := edgeOn_rest u
  refine ⟨?_, ?_, ?_, ?_, ?_, ?_, ?_, ?_⟩
  · exact (hin.trans hframe.within).setChor _
  · rw [State.che, edgeOn_eng]
    exact hche
  · rw [edgeOn_act, hframe.act, sampled_act]
  · rw [hpads, hframe.pads, sampled_level, Nat.mod_eq_of_lt hg]
  · rw [edgeOn_eng, hframe.engines, heng]
  · rw [edgeOn_touchEng, hframe.touchEng, htouch]
  · rw [hrh, hframe.rhocoUp, hup]
  · rw [State.chDiv, fld_of_regs hregs, fld_of_regs hregs, ← State.chDiv, hframe.div hn, sampled_div]

theorem chorStep_due (h : Due s n w) (hg : g < 2 ^ 16) :
    ∃ v, Edged s n g v ∧ exec (.chorStep n 1 g false) s = .next (v.chStepRun n) := by
  obtain ⟨hin, hche, hact, hlevel, hlen, htouch, hup, hdiv⟩ := edgePassed h hg
  generalize hx : (sampled s g).actEdges 1 = x at *
  have hn := h.index
  have hrun : x.chRuns n = true := by
    rw [chRuns_one ((hin.kept _ (che_other hn hn (by simp [chorConfig]))).trans h.running), decide_eq_true rfl]
  have hdue : ¬ (x.che n).acc < x.chDiv n := by
    have := h.div
    rw [hche, hdiv]
    dsimp only
    omega
  have hlast := setChe_frame x n { x.che n with acc := (x.che n).acc - x.chDiv n }
  have hcheLast := che_setChe (s := x) (n := n) (by rw [hlen, h.engines]; exact hn) { x.che n with acc := (x.che n).acc - x.chDiv n }
  refine ⟨_, ⟨hin.trans hlast.within, ⟨(x.che n).acc - x.chDiv n, ?_⟩, hlast.act.trans hact, ?_, hlast.engines.trans hlen, hlast.touchEng.trans htouch,
    hlast.rhocoUp.trans hup⟩, chorStep_eq hn h.turns hx hrun hdue⟩
  · rw [hcheLast, hche]
  · rw [hlast.pads, hlevel]

/-! ### One instruction -/

section
variable (h : Due s n w) (hv : Edged s n g v)
include h hv

theorem Edged.length : n < v.chor.eng.length := by rw [hv.engines, h.engines]; exact h.index

theorem Edged.running : v.fld fCHSTAT_RUNNING = 2 ^ n :=
  (hv.within.kept _ (che_other h.index h.index (by simp [chorConfig]))).trans h.running

theorem Edged.word : v.chWord n (v.che n).pc = w := by
  obtain ⟨a, hche⟩ := hv.che
  rw [hche, ← h.word]
  exact hv.within.kept _ (che_prog h.index _)

theorem Edged.next : v.chNext n (s.che n).pc = (s.che n).pc + 1 := by
  have htop : v.fld (fCHCFG_WRAPTOP n) = s.fld (fCHCFG_WRAPTOP n) :=
    hv.within.kept _ (che_other h.index h.index (by simp [chorConfig]))
  have hpc := h.pc
  rw [State.chNext, htop, if_neg h.top]
  omega

/-- The instruction at the PC is run when its word is no reserved encoding. -/
theorem Edged.runs (hw : chReserved w = false) : v.chStepRun n = v.chRunOne n ⟨w, (s.che n).pc, false, 0, 0, 0, 0⟩ := by
  have hword := hv.word h
  obtain ⟨a, hche⟩ := hv.che
  have hpc : (v.che n).pc = (s.che n).pc := by rw [hche]
  rw [hpc] at hword
  simp only [State.chStepRun, hche, h.delay, h.inj, h.stall, h.susp, hword, hw, Nat.lt_irrefl, if_false, Bool.false_eq_true]

/-- A reserved encoding is told and stops it. -/
theorem Edged.stops (hw : chReserved w = true) : v.chStepRun n = (v.chFault n).chStop n := by
  have hword := hv.word h
  obtain ⟨a, hche⟩ := hv.che
  have hpc : (v.che n).pc = (s.che n).pc := by rw [hche]
  rw [hpc] at hword
  simp only [State.chStepRun, hche, h.delay, h.inj, h.stall, h.susp, hword, hw, Nat.lt_irrefl, if_false, if_true]

end

/-- An instruction that completes: its PC goes on unless it wrote it, and its delay begins. -/
theorem chRunOne_done {c : ChStall} {b : Bool} (hx : v.chExec n c = { st := u, wrotePc := b }) (hc : c.inj = false) :
    v.chRunOne n c = u.setChe n { u.che n with
      stall := none, delay := chDly c.word, posted := false, pc := if b then (u.che n).pc else v.chNext n (u.che n).pc } := by
  cases b <;> simp [State.chRunOne, hx, State.chDone, hc]

theorem chRunOne_stalls {c x : ChStall} (hx : v.chExec n c = { st := u, stall := some x }) :
    v.chRunOne n c = u.cheSet n (fun e => { e with stall := some x }) := by
  simp only [State.chRunOne, hx]

/-- What an instruction that goes on leaves of its engine: `e` with the next PC. -/
theorem step_done (h : Due s n w) (hg : g < 2 ^ 16) {l : List Fld} (hl : l.all (fun f => f.other fCHSTAT_RUNNING) = true)
    (hcl : ∀ f ∈ cheFields n, f ∈ l) (hw : chReserved w = false) (e : ChEng)
    (hx : ∀ v, Edged s n g v → ∃ u a, v.chExec n ⟨w, (s.che n).pc, false, 0, 0, 0, 0⟩ = { st := u } ∧ ChFrame l v u ∧
      u.che n = { e with pc := (s.che n).pc, acc := a }) :
    ∃ t, exec (.chorStep n 1 g false) s = .next t ∧ Stepped s n g t ∧
      ∃ a, t.che n = { e with pc := (s.che n).pc + 1, acc := a, stall := none, delay := chDly w, posted := false } := by
  obtain ⟨v, hv, hstep⟩ := chorStep_due h hg
  obtain ⟨u, a, hexec, hframe, hche⟩ := hx v hv
  have hlen : n < u.chor.eng.length := by rw [hframe.engines]; exact hv.length h
  refine ⟨_, hstep.trans (congrArg _ ((hv.runs h hw).trans (chRunOne_done hexec rfl))), ?_, a, ?_⟩
  · exact hv.trans (hframe.trans ((setChe_frame u n _).mono hcl)) (hv.running h) hl
  · rw [che_setChe hlen, hche]
    simp only [Bool.false_eq_true, if_false, hv.next h]

/-! ### SET, JMP, PULL, PUSH and IRQ -/

theorem setX_reserved (hlo : 0xE020 ≤ w) (hhi : w ≤ 0xE03F) : chReserved w = false ∧ chOp w = 7 ∧ chHi w = 1 ∧ chLo w = w % 32 := by
  have hop : chOp w = 7 := by simp only [chOp, bitsOf, Nat.shiftRight_eq_div_pow]; omega
  have hh : chHi w = 1 := by simp only [chHi, bitsOf, Nat.shiftRight_eq_div_pow]; omega
  refine ⟨?_, hop, hh, ?_⟩
  · simp [chReserved, hop, hh]
  · simp [chLo, bitsOf]

/-- What a step shows when it went on to the next word. -/
def Ran (s : State) (n g : Nat) (t : State) : Prop := Stepped s n g t ∧ (t.che n).pc = (s.che n).pc + 1 ∧ (t.che n).stall = none

theorem chorStep_setX (h : Due s n w) (hg : g < 2 ^ 16) (hlo : 0xE020 ≤ w) (hhi : w ≤ 0xE03F) :
    ∃ t, exec (.chorStep n 1 g false) s = .next t ∧ Ran s n g t ∧ (t.che n).x = w % 32 ∧ (t.che n).y = (s.che n).y ∧
      (t.che n).tx = (s.che n).tx ∧ (t.che n).rx = (s.che n).rx := by
  obtain ⟨hres, hop, hhi', hlow⟩ := setX_reserved hlo hhi
  obtain ⟨t, ht, hst, a, hche⟩ := step_done h hg (l := cheFields n) (che_other h.index h.index (by simp [chorConfig])) (fun _ hf => hf) hres
    { s.che n with x := w % 32 } fun v hv => by
      obtain ⟨a, hche⟩ := hv.che
      refine ⟨v.setChe n { v.che n with x := w % 32 }, a, ?_, setChe_frame v n _, ?_⟩
      · simp [State.chExec, hop, State.chSetOp, hhi', hlow]
      · rw [che_setChe (hv.length h), hche]
  exact ⟨t, ht, ⟨hst, by rw [hche], by rw [hche]⟩, by rw [hche], by rw [hche], by rw [hche], by rw [hche]⟩

theorem jmp_fields (hw : w < 32) : chReserved w = false ∧ chOp w = 0 ∧ chHi w = 0 ∧ chLo w = w := by
  have hop : chOp w = 0 := by simp only [chOp, bitsOf, Nat.shiftRight_eq_div_pow]; omega
  have hh : chHi w = 0 := by simp only [chHi, bitsOf, Nat.shiftRight_eq_div_pow]; omega
  refine ⟨?_, hop, hh, ?_⟩
  · simp [chReserved, hop]
  · simp only [chLo, bitsOf, Nat.shiftRight_eq_div_pow]; omega

theorem chorStep_jmp (h : Due s n w) (hg : g < 2 ^ 16) (hw : w < 32) :
    ∃ t, exec (.chorStep n 1 g false) s = .next t ∧ Stepped s n g t ∧ (t.che n).pc = w ∧ (t.che n).x = (s.che n).x := by
  obtain ⟨hres, hop, hhi, hlo⟩ := jmp_fields hw
  obtain ⟨v, hv, hstep⟩ := chorStep_due h hg
  obtain ⟨a, hche⟩ := hv.che
  have hlen := hv.length h
  have hframe := setChe_frame v n { v.che n with pc := w }
  have hexec : v.chExec n ⟨w, (s.che n).pc, false, 0, 0, 0, 0⟩ = { st := v.setChe n { v.che n with pc := w }, wrotePc := true } := by
    simp [State.chExec, hop, State.chJmp, hhi, hlo]
  refine ⟨_, hstep.trans (congrArg _ ((hv.runs h hres).trans (chRunOne_done hexec rfl))), ?_, ?_, ?_⟩
  · exact hv.trans (hframe.trans (setChe_frame _ n _)) (hv.running h) (che_other h.index h.index (by simp [chorConfig]))
  · rw [che_setChe (by rw [hframe.engines]; exact hlen), che_setChe hlen]
    rfl
  · rw [che_setChe (by rw [hframe.engines]; exact hlen), che_setChe hlen, hche]

theorem chorStep_pull (h : Due s n 0x8080) (hg : g < 2 ^ 16) {x : Nat} {r : List Nat} (htx : (s.che n).tx = x :: r) :
    ∃ t, exec (.chorStep n 1 g false) s = .next t ∧ Ran s n g t ∧ (t.che n).osr = x ∧ (t.che n).ocnt = 0 ∧ (t.che n).tx = r := by
  obtain ⟨t, ht, hst, a, hche⟩ := step_done h hg (l := cheFields n) (che_other h.index h.index (by simp [chorConfig])) (fun _ hf => hf)
    (by decide) { s.che n with osr := x, ocnt := 0, tx := r } fun v hv => by
      obtain ⟨a, hche⟩ := hv.che
      have hvtx : (v.che n).tx = x :: r := by rw [hche]; exact htx
      refine ⟨v.setChe n { v.che n with osr := x, ocnt := 0, tx := r }, a, ?_, setChe_frame v n _, ?_⟩
      · simp [State.chExec, show chOp 0x8080 = 4 by decide, State.chPushPull, show bitAt 0x8080 7 = true by decide,
          show bitAt 0x8080 6 = false by decide, hvtx]
      · rw [che_setChe (hv.length h), hche]
  exact ⟨t, ht, ⟨hst, by rw [hche], by rw [hche]⟩, by rw [hche], by rw [hche], by rw [hche]⟩

theorem chorStep_pullStalls (h : Due s n 0x8080) (hg : g < 2 ^ 16) (htx : (s.che n).tx = []) :
    ∃ t, exec (.chorStep n 1 g false) s = .next t ∧ Stepped s n g t ∧ (t.che n).pc = (s.che n).pc ∧
      (t.che n).stall.map (fun c => c.kind) = some 1 ∧ (t.fld fCHSTAT_STALLED).testBit n = true := by
  obtain ⟨v, hv, hstep⟩ := chorStep_due h hg
  obtain ⟨a, hche⟩ := hv.che
  have hlen := hv.length h
  have hvtx : (v.che n).tx = [] := by rw [hche]; exact htx
  have hexec : v.chExec n ⟨0x8080, (s.che n).pc, false, 0, 0, 0, 0⟩ = { st := v, stall := some ⟨0x8080, (s.che n).pc, false, 0, 0, 0, 1⟩ } := by
    simp [State.chExec, show chOp 0x8080 = 4 by decide, State.chPushPull, show bitAt 0x8080 7 = true by decide,
      show bitAt 0x8080 6 = false by decide, hvtx, ChStall.at]
  have hrun := (hv.runs h (by decide)).trans (chRunOne_stalls hexec)
  rw [State.cheSet] at hrun
  refine ⟨_, hstep.trans (congrArg _ hrun), ?_, ?_, ?_, ?_⟩
  · exact hv.trans (setChe_frame v n _) (hv.running h) (che_other h.index h.index (by simp [chorConfig]))
  · rw [che_setChe hlen, hche]
  · rw [che_setChe hlen]
    rfl
  · exact stalled_setChe h.index v _

theorem chorStep_push (h : Due s n 0x8000) (hg : g < 2 ^ 16) (hrx : (s.che n).rx.length < s.rxCap n) :
    ∃ t, exec (.chorStep n 1 g false) s = .next t ∧ Ran s n g t ∧ (t.che n).rx = (s.che n).rx ++ [(s.che n).isr] ∧ (t.che n).isr = 0 ∧
      (t.che n).icnt = 0 := by
  obtain ⟨t, ht, hst, a, hche⟩ := step_done h hg (l := cheFields n) (che_other h.index h.index (by simp [chorConfig])) (fun _ hf => hf)
    (by decide) { s.che n with rx := (s.che n).rx ++ [(s.che n).isr], isr := 0, icnt := 0 } fun v hv => by
      obtain ⟨a, hche⟩ := hv.che
      have hcap : v.rxCap n = s.rxCap n := by
        rw [State.rxCap, State.rxCap, hv.within.kept _ (che_other h.index h.index (g := fCHCFG_JOIN n) (by simp [chorConfig]))]
      have hroom : (v.che n).rx.length < v.rxCap n := by rw [hche, hcap]; exact hrx
      refine ⟨v.setChe n { v.che n with rx := (v.che n).rx ++ [(v.che n).isr], isr := 0, icnt := 0 }, a, ?_, setChe_frame v n _, ?_⟩
      · simp [State.chExec, show chOp 0x8000 = 4 by decide, State.chPushPull, show bitAt 0x8000 7 = false by decide,
          show bitAt 0x8000 6 = false by decide, hroom]
      · rw [che_setChe (hv.length h), hche]
  exact ⟨t, ht, ⟨hst, by rw [hche], by rw [hche]⟩, by rw [hche], by rw [hche], by rw [hche]⟩

theorem chorStep_irq (h : Due s n 0xC003) (hg : g < 2 ^ 16) :
    ∃ t, exec (.chorStep n 1 g false) s = .next t ∧ Ran s n g t ∧ (t.fld fCHIRQ_FLAG).testBit 3 = true := by
  obtain ⟨v, hv, hstep⟩ := chorStep_due h hg
  obtain ⟨a, hche⟩ := hv.che
  generalize hu : v.setFld fCHIRQ_FLAG (bitTo (v.fld fCHIRQ_FLAG) 3 true) = u
  have hflag : (u.fld fCHIRQ_FLAG).testBit 3 = true := by
    rw [← hu]
    exact testBit_setFld_bitTo _ _ (by decide) (by decide) true
  have huche : u.che n = { s.che n with acc := a } := by rw [← hu, ← hche]; rfl
  have hframe : ChFrame (fCHIRQ_FLAG :: cheFields n) v u := by rw [← hu]; exact (ChFrame.refl _ v).setFld (by simp) _
  have hlen : n < u.chor.eng.length := by rw [hframe.engines]; exact hv.length h
  have hexec : v.chExec n ⟨0xC003, (s.che n).pc, false, 0, 0, 0, 0⟩ = { st := u } := by
    simp [State.chExec, show chOp 0xC003 = 6 by decide, State.chIrq, show bitsOf 0xC003 0 3 = 3 by decide,
      show bitAt 0xC003 5 = false by decide, show bitAt 0xC003 6 = false by decide, hu]
  have hlast := setChe_frame u n { u.che n with
    stall := none, delay := chDly 0xC003, posted := false, pc := v.chNext n (u.che n).pc }
  refine ⟨_, hstep.trans (congrArg _ ((hv.runs h (by decide)).trans (chRunOne_done hexec rfl))), ⟨?_, ?_, ?_⟩, ?_⟩
  · refine hv.trans (hframe.trans (hlast.mono (fun _ hf => List.mem_cons_of_mem _ hf))) (hv.running h) ?_
    rw [List.all_cons, che_other h.index h.index (g := fCHSTAT_RUNNING) (by simp [chorConfig]), Bool.and_true]
    decide
  · rw [che_setChe hlen, huche]
    simp only [Bool.false_eq_true, if_false]
    exact hv.next h
  · rw [che_setChe hlen]
  · rw [(setChe_frame u n _).config h.index h.index (by simp [chorConfig])]
    exact hflag

end Sys2Proof.Proofs
end

section
/-! PROOF. A Chorister stopped by a reserved encoding (R507), one that starts at its time (R510), and a stall that lasts (R519). O35. -/

namespace Sys2Proof.Proofs

open Sys2Proof Sys2Proof.Machine

variable {s t u v : State} {n g w : Nat}

theorem flagEvent_stopped (h : s.rhocoUp = false) (f : Fld) (code : Nat) (data : List Byte) : s.flagEvent f code data = s.setFld f 1 := by
  simp [State.flagEvent, h]

/-! ### A reserved encoding -/

theorem touchLost_none (h : s.chor.touchEng = none) (n : Nat) : s.touchLost n = s := by
  simp [State.touchLost, h]

/-- A running engine as it is stopped. -/
def chHalted (s : State) (n : Nat) : State := s.cheSet n (fun e => { e with stall := none, susp := none, delay := 0, posted := false })

theorem chHalted_frame (s : State) (n : Nat) : ChFrame (cheFields n) s (chHalted s n) := by
  rw [chHalted, State.cheSet]
  exact setChe_frame s n _

theorem setFld_che (s : State) (f : Fld) (v n : Nat) : (s.setFld f v).che n = s.che n := by
  rw [State.che, State.setFld_chor, ← State.che]

theorem chStop_running (hr : s.chRuns n = true) (ht : s.chor.touchEng = none) :
    s.chStop n = ((chHalted s n).setFld fCHCTL_EN (bitTo ((chHalted s n).fld fCHCTL_EN) n false)).setFld fCHSTAT_RUNNING
      (bitTo ((chHalted s n).fld fCHSTAT_RUNNING) n false) := by
  have htouch : (((chHalted s n).setFld fCHCTL_EN (bitTo ((chHalted s n).fld fCHCTL_EN) n false)).setFld fCHSTAT_RUNNING
      (bitTo ((chHalted s n).fld fCHSTAT_RUNNING) n false)).chor.touchEng = none := by
    rw [State.setFld_chor, State.setFld_chor, (chHalted_frame s n).touchEng, ht]
  rw [← touchLost_none htouch n]
  unfold State.chStop
  rw [hr]
  rfl

theorem bitTo_two_pow (n : Nat) : bitTo (2 ^ n) n false = 0 := by
  simp [bitTo]

theorem badop_apart : ∀ n < 8, (fCHFLAG_BADOP n :: [fCHCTL_EN, fCHSTAT_RUNNING]).all (fun f => f.other fCHSTAT_RUNNING || decide (f = fCHSTAT_RUNNING)) = true ∧
    (fCHFLAG_BADOP n).other fCHSTAT_RUNNING = true ∧ fCHCTL_EN.other (fCHFLAG_BADOP n) = true ∧
    fCHSTAT_RUNNING.other (fCHFLAG_BADOP n) = true := by decide +kernel

theorem chorStep_badop (h : Due s n 0xFFFF) (hg : g < 2 ^ 16) (ht : s.chor.touchEng = none) (hup : s.rhocoUp = false) :
    ∃ t, exec (.chorStep n 1 g false) s = .next t ∧ t.on (fCHFLAG_BADOP n) = true ∧ t.fld fCHSTAT_RUNNING = 0 ∧
      (t.che n).pc = (s.che n).pc ∧ s.besidesAll t := by
  obtain ⟨v, hv, hstep⟩ := chorStep_due h hg
  have hn := h.index
  obtain ⟨-, hbr, hen, hrb⟩ := badop_apart n hn
  obtain ⟨a, hche⟩ := hv.che
  have hlen := hv.length h
  generalize hu : v.setFld (fCHFLAG_BADOP n) 1 = u
  have hfault : v.chFault n = u := by
    rw [State.chFault, flagEvent_stopped (hv.rhocoUp.trans hup), hu]
  have hurun : u.fld fCHSTAT_RUNNING = 2 ^ n := by rw [← hu, State.fld_setFld_other _ _ _ _ hbr, hv.running h]
  have huon : u.on (fCHFLAG_BADOP n) = true := by
    rw [← hu]
    exact on_setFld_one _ _ (by simp [fCHFLAG_BADOP]) (by simp [fCHFLAG_BADOP])
  have hutouch : u.chor.touchEng = none := by rw [← hu, State.setFld_chor, hv.touchEng, ht]
  have hulen : n < u.chor.eng.length := by rw [← hu, State.setFld_chor]; exact hlen
  have hupc : (u.che n).pc = (s.che n).pc := by
    rw [← hu, setFld_che, hche]
  have huin : s.besidesAll u := by
    rw [← hu]
    exact State.besidesAll_trans hv.within.besidesAll (v.besidesAll_setFld _ _)
  have hframe : ChFrame (cheFields n) u (chHalted u n) := chHalted_frame u n
  have hruns : u.chRuns n = true := by rw [chRuns_one hurun, decide_eq_true rfl]
  have hstop := (hv.stops h (by decide)).trans ((congrArg (fun t => State.chStop t n) hfault).trans (chStop_running hruns hutouch))
  refine ⟨_, hstep.trans (congrArg _ hstop), ?_, ?_, ?_, ?_⟩
  · rw [on_setFld_other _ _ _ _ hrb, on_setFld_other _ _ _ _ hen, on_of_fld (hframe.config hn hn (by simp [chorConfig])), huon]
  · rw [hframe.config hn hn (g := fCHSTAT_RUNNING) (by simp [chorConfig]), hurun, bitTo_two_pow, State.fld_setFld _ _ _ (by decide),
      Nat.zero_mod]
  · have hhalt : (chHalted u n).che n = { u.che n with stall := none, susp := none, delay := 0, posted := false } := by
      rw [chHalted, che_cheSet hulen]
    rw [setFld_che, setFld_che, hhalt]
    exact hupc
  · exact State.besidesAll_trans huin (State.besidesAll_trans hframe.within.besidesAll
      (State.besidesAll_trans (State.besidesAll_setFld _ _ _) (State.besidesAll_setFld _ _ _)))

/-! ### An armed start (R510) -/

theorem armedStart_off (h : s.on fCHSTARTH_ARM = false) : exec (.armedStart 1) s = .next s := by
  show execArmedStart 1 s = _
  simp [execArmedStart, h]

/-- With no engine running an edge is the counter's alone. -/
theorem actEdges_idle (hr : s.fld fCHSTAT_RUNNING = 0) (hstill : s.chor.still = 0) : s.actEdges 1 = edgeOn s := by
  have hfold : (List.range 8).foldl (fun t j => if t.chRuns j then t.chPassed 1 j else t) s = s :=
    foldl_none _ fun j _ => by simp [State.chRuns, hr]
  simp only [State.actEdges, hstill, Nat.min_zero, Nat.sub_zero, if_true]
  rw [hfold]
  rfl

/-- An engine as it starts on this edge. -/
def chStarted (s : State) (n : Nat) : State := s.cheSet n (fun e => { e with acc := s.chDiv n, delay := 0, posted := false })

theorem chStarted_frame (s : State) (n : Nat) : ChFrame (cheFields n) s (chStarted s n) := by
  rw [chStarted, State.cheSet]
  exact setChe_frame s n _

theorem chStart_now (hr : s.chRuns n = false) : s.chStart n true =
    ((chStarted s n).setFld fCHCTL_EN (bitTo ((chStarted s n).fld fCHCTL_EN) n true)).setFld fCHSTAT_RUNNING
      (bitTo ((chStarted s n).fld fCHSTAT_RUNNING) n true) := by
  unfold State.chStart
  rw [hr]
  rfl

theorem bitTo_zero (n : Nat) : bitTo 0 n true = 2 ^ n := by
  simp [bitTo]

/-- The fields that a start at its time writes beside the engine's own. -/
def startFields (n : Nat) : List Fld := fCHSTARTH_ARM :: fCHCTL_EN :: fCHSTAT_RUNNING :: cheFields n

theorem armedStart_due (hn : n < 8) (hlen : s.chor.eng.length = 8) (hr : s.fld fCHSTAT_RUNNING = 0) (hstill : s.chor.still = 0)
    (harm : s.on fCHSTARTH_ARM = true) (hmask : s.fld fCHSTARTH_MASK = 2 ^ n) (hact : s.chor.act < 2 ^ 48 - 1)
    (htime : s.fld fCHSTARTL_TIME + s.fld fCHSTARTH_TIME * 2 ^ 32 = s.chor.act + 1) : ∃ t, exec (.armedStart 1) s = .next t ∧
      t.fld fCHSTAT_RUNNING = 2 ^ n ∧ t.on fCHSTARTH_ARM = false ∧ t.chor.act = s.chor.act + 1 ∧ (t.che n).acc = s.chDiv n ∧
      s.besidesAll t := by
  have hnext : (edgeOn s).chor.act = s.chor.act + 1 := by
    rw [edgeOn_act]
    exact Nat.mod_eq_of_lt (by omega)
  have hin : Within (startFields n) s (edgeOn s) := (Within.refl _ s).setChor _
  obtain ⟨-, -, hregs⟩ := edgeOn_rest s
  generalize hu : (edgeOn s).setFld fCHSTARTH_ARM 0 = u
  have hurun : u.fld fCHSTAT_RUNNING = 0 := by rw [← hu, State.fld_setFld_other _ _ _ _ (by decide), fld_of_regs hregs, hr]
  have huarm : u.on fCHSTARTH_ARM = false := by rw [← hu]; exact on_setFld_zero _ _ (by decide) (by decide)
  have huin : Within (startFields n) s u := by rw [← hu]; exact hin.setFld (by simp [startFields]) _
  have hulen : n < u.chor.eng.length := by rw [← hu, State.setFld_chor, edgeOn_eng, hlen]; exact hn
  have huact : u.chor.act = s.chor.act + 1 := by rw [← hu, State.setFld_chor, hnext]
  have hudiv : u.chDiv n = s.chDiv n := by
    have hapart : ∀ n < 8, fCHSTARTH_ARM.other (fCHDIV_INT n) = true ∧ fCHSTARTH_ARM.other (fCHDIV_FRAC n) = true := by decide +kernel
    obtain ⟨hi, hf⟩ := hapart n hn
    rw [State.chDiv, State.chDiv, ← hu, State.fld_setFld_other _ _ _ _ hi, State.fld_setFld_other _ _ _ _ hf, fld_of_regs hregs,
      fld_of_regs hregs]
  have hidle : u.chRuns n = false := by simp [State.chRuns, hurun]
  have hstart := chStart_now hidle
  have hframe := chStarted_frame u n
  have hche : (chStarted u n).che n = { u.che n with acc := u.chDiv n, delay := 0, posted := false } := by
    rw [chStarted, che_cheSet hulen]
  have hsrun : (chStarted u n).fld fCHSTAT_RUNNING = 0 := (hframe.config hn hn (by simp [chorConfig])).trans hurun
  have hfold : (List.range 8).foldl (fun x j => if (2 ^ n).testBit j then x.chStart j true else x) u = u.chStart n true :=
    foldl_single _ List.nodup_range (List.mem_range.mpr hn) (fun j _ => by rw [Nat.testBit_two_pow]; simp [eq_comm])
      fun j _ hjk => by rw [Nat.testBit_two_pow]; simp [hjk.symm]
  have hexec : exec (.armedStart 1) s = .next (u.chStart n true) := by
    show execArmedStart 1 s = _
    have hmask' : (edgeOn s).fld fCHSTARTH_MASK = 2 ^ n := by rw [fld_of_regs hregs, hmask]
    unfold execArmedStart
    simp only [harm, actEdges_idle hr hstill, hnext, htime, Bool.not_true, Bool.false_eq_true, if_false, if_true, State.chArmedStart, hmask',
      hu, hfold]
  refine ⟨_, hexec.trans (congrArg _ hstart), ?_, ?_, ?_, ?_, ?_⟩
  · rw [hsrun, bitTo_zero, State.fld_setFld _ _ _ (by decide)]
    exact Nat.mod_eq_of_lt (Nat.pow_lt_pow_right (by decide) hn)
  · rw [on_setFld_other _ _ _ _ (by decide), on_setFld_other _ _ _ _ (by decide),
      on_of_fld (hframe.config hn hn (by simp [chorConfig])), huarm]
  · rw [State.setFld_chor, State.setFld_chor, hframe.act, huact]
  · rw [State.che, State.setFld_chor, State.setFld_chor, ← State.che, hche]
    exact hudiv
  · exact State.besidesAll_trans huin.besidesAll (State.besidesAll_trans hframe.within.besidesAll
      (State.besidesAll_trans (State.besidesAll_setFld _ _ _) (State.besidesAll_setFld _ _ _)))

/-! ### A stall that lasts (R519) -/

theorem stallTimeout_none (h : (s.che n).stall = none) : exec (.chorStallTimeout n) s = .next s := by
  show execChorStallTimeout n s = _
  simp only [execChorStallTimeout, h]

theorem stallTimeout_told (hn : n < 8) (hlen : s.chor.eng.length = 8) (hst : (s.che n).stall.isSome = true) (hr : s.chRuns n = true)
    (hon : s.on (fCHCNT_STALLTMO n) = true) (hp : (s.che n).posted = false) (hup : s.rhocoUp = false) : ∃ t,
      exec (.chorStallTimeout n) s = .next t ∧ t.on (fCHFLAG_STALLTMO n) = true ∧ (t.che n).posted = true ∧
      (t.che n).pc = (s.che n).pc ∧ s.besidesAll t := by
  obtain ⟨x, hx⟩ := Option.isSome_iff_exists.mp hst
  have hframe : ChFrame (cheFields n) s (s.cheSet n (fun e => { e with posted := true })) := setChe_frame s n _
  have hche := che_cheSet (s := s) (n := n) (by omega) (fun e => { e with posted := true })
  generalize hu : s.cheSet n (fun e => { e with posted := true }) = u at hframe hche
  have hexec : exec (.chorStallTimeout n) s = .next (u.setFld (fCHFLAG_STALLTMO n) 1) := by
    show execChorStallTimeout n s = _
    simp only [execChorStallTimeout, hx, hr, hon, hp, hu, Bool.not_false, Bool.and_self, if_true,
      flagEvent_stopped (hframe.rhocoUp.trans hup)]
  refine ⟨_, hexec, on_setFld_one _ _ (by simp [fCHFLAG_STALLTMO]) (by simp [fCHFLAG_STALLTMO]), ?_, ?_, ?_⟩
  · rw [setFld_che, hche]
  · rw [setFld_che, hche]
  · exact State.besidesAll_trans hframe.within.besidesAll (State.besidesAll_setFld _ _ _)

/-- Settles O35, by the lemma on each instruction and event. -/
theorem choristerSteps : Obligations.ChoristerSteps := by
  unfold Obligations.ChoristerSteps
  intro s n g w hn hlen hroot hg e due on_ ran
  have due_ (h : due) : Due s n w := by
    obtain ⟨hr, hdiv, hdelay, hinj, hstall, hsusp, hstill, hpc, htop, hword⟩ := h
    exact ⟨hn, hlen, hroot, hr, hdiv, hdelay, hinj, hstall, hsusp, hstill, hpc, htop, hword⟩
  refine ⟨fun h hlo hhi => chorStep_setX (due_ h) hg hlo hhi, fun h hw => chorStep_jmp (due_ h) hg hw, ?_, ?_, ?_, ?_, ?_,
    armedStart_due hn hlen, armedStart_off, stallTimeout_told hn hlen, stallTimeout_none⟩
  · exact fun h hw x r htx => chorStep_pull (hw ▸ due_ h) hg htx
  · exact fun h hw htx => chorStep_pullStalls (hw ▸ due_ h) hg htx
  · exact fun h hw hrx => chorStep_push (hw ▸ due_ h) hg hrx
  · exact fun h hw => chorStep_irq (hw ▸ due_ h) hg
  · exact fun h hw ht hup => chorStep_badop (hw ▸ due_ h) hg ht hup

end Sys2Proof.Proofs
end

section
/-! PROOF. A self-test slice waits, starts, is compared, skipped or abandoned (R538 to R549), and its descriptors (R550). O37. -/

namespace Sys2Proof.Proofs

open Sys2Proof Sys2Proof.Machine

variable {s t : State} {n : Nat}

theorem Within.setSt {l : List Fld} (h : Within l s t) (x : SelfTest) : Within l s { t with st := x } :=
  h.trans ⟨fun _ _ => rfl, ⟨rfl, rfl, rfl, rfl, rfl, rfl⟩, rfl, rfl, rfl, rfl, rfl, rfl⟩

/-- The alarm of the pace is armed and no descriptor waits for the slice. -/
structure Unwatched (s : State) : Prop where
  armed : s.on (fWAKEALMH_ARM 2) = true
  req : s.st.req = none

theorem Unwatched.within {l : List Fld} (h : Unwatched s) (k : Within l s t) (hl : l.all (fun f => f.other (fWAKEALMH_ARM 2)) = true)
    (hreq : t.st.req = s.st.req) : Unwatched t := ⟨(k.on hl).trans h.armed, hreq.trans h.req⟩

/-! ### The end of a slice -/

/-- No slice is under way. -/
def StIdle (t : State) : Prop := t.on fSTSTAT_BUSY = false ∧ t.st.cur = none ∧ t.st.running = false

/-- What the end of a slice nobody waits for leaves. -/
structure SliceEnded (s t : State) : Prop where
  idle : StIdle t
  within : Within [fSTSTAT_BUSY, fSTSTAT_PHASE] s t
  skips : t.st.skips = s.st.skips

theorem sliceEnd_spec (h : Unwatched s) (status : Nat) (fail : Bool) : SliceEnded s (s.sliceEnd status fail) := by
  generalize hx : ({ s.st with
    cur := none
    running := false
    fails := s.st.fails + b2n (fail && s.st.req.isSome)
    worst := stWorst s.st.worst status } : SelfTest) = x
  have hreq : x.req = none := by rw [← hx]; exact h.req
  have hskips : x.skips = s.st.skips := by rw [← hx]
  have hidle : x.cur = none ∧ x.running = false := by rw [← hx]; exact ⟨rfl, rfl⟩
  generalize hu : ({ (s.setFld fSTSTAT_BUSY 0).setFld fSTSTAT_PHASE 0 with st := x } : State) = u
  have hin : Within [fSTSTAT_BUSY, fSTSTAT_PHASE] s u := by
    rw [← hu]
    exact (((Within.refl _ s).setFld (by simp) 0).setFld (by simp) 0).setSt x
  have harm : u.on (fWAKEALMH_ARM 2) = true := (hin.on (by decide)).trans h.armed
  have hst : u.st = x := by rw [← hu]
  have hend : s.sliceEnd status fail = u := by
    have hbase : (s.sets [(fSTSTAT_BUSY, 0), (fSTSTAT_PHASE, 0)]).stSet (fun y => { y with
        cur := none, running := false, fails := y.fails + b2n (fail && y.req.isSome), worst := stWorst y.worst status }) = u := by
      rw [← hu, ← hx]
      rfl
    unfold State.sliceEnd
    simp only [hbase, harm, Bool.not_true, Bool.and_false, Bool.false_eq_true, if_false, hst, hreq]
  have hbusy : u.on fSTSTAT_BUSY = false := by
    rw [← hu]
    exact (on_setFld_other (s.setFld fSTSTAT_BUSY 0) _ _ _ (by decide)).trans (on_setFld_zero _ _ (by decide) (by decide))
  rw [hend]
  exact ⟨⟨hbusy, by rw [hst]; exact hidle.1, by rw [hst]; exact hidle.2⟩, hin, by rw [hst, hskips]⟩

/-! ### A slice that is skipped (R541 to R544) -/

/-- The fields that a skip writes. -/
def skipFields : List Fld := [fSTSTAT_LAST, fSTSTAT_SKIPWHY, fSTFLAG_SKIP]

/-- A skip shown, with self-test's own state as it then is. -/
def skipShown (s : State) (cause : Nat) (x : SelfTest) : State :=
  { ((s.setFld fSTSTAT_LAST 3).setFld fSTSTAT_SKIPWHY cause).setFld fSTFLAG_SKIP 1 with st := x }

theorem skipShown_within (s : State) (cause : Nat) (x : SelfTest) : Within skipFields s (skipShown s cause x) :=
  ((((Within.refl _ s).setFld (by simp [skipFields]) 3).setFld (by simp [skipFields]) cause).setFld (by simp [skipFields]) 1).setSt x

theorem skipShown_fields (s : State) {cause : Nat} (hc : cause < 8) (x : SelfTest) : (skipShown s cause x).fld fSTSTAT_LAST = 3 ∧
    (skipShown s cause x).fld fSTSTAT_SKIPWHY = cause ∧ (skipShown s cause x).on fSTFLAG_SKIP = true := by
  refine ⟨?_, ?_, ?_⟩
  · refine (State.fld_setFld_other ((s.setFld fSTSTAT_LAST 3).setFld fSTSTAT_SKIPWHY cause) _ _ _ (by decide)).trans ?_
    rw [State.fld_setFld_other _ _ _ _ (by decide), State.fld_setFld _ _ _ (by decide)]
    decide
  · refine (State.fld_setFld_other ((s.setFld fSTSTAT_LAST 3).setFld fSTSTAT_SKIPWHY cause) _ _ _ (by decide)).trans ?_
    rw [State.fld_setFld _ _ _ (by decide)]
    exact Nat.mod_eq_of_lt hc
  · exact on_setFld_one ((s.setFld fSTSTAT_LAST 3).setFld fSTSTAT_SKIPWHY cause) _ (by decide) (by decide)

theorem skipShown_st (s : State) (cause : Nat) (x : SelfTest) : (skipShown s cause x).st = x := rfl

theorem skipShown_stSet (s : State) (cause : Nat) (x : SelfTest) (f : SelfTest → SelfTest) :
    (skipShown s cause x).stSet f = skipShown s cause (f x) := rfl

theorem tally_kept (x : SelfTest) (n k : Nat) : (x.tally n k).skips = x.skips ∧ (x.tally n k).byPace = x.byPace ∧
    (x.tally n k).req = x.req ∧ (x.tally n k).cur = x.cur := ⟨rfl, rfl, rfl, rfl⟩

/-- With no skips before it a skip is shown and ends the slice. -/
theorem sliceSkip_eq (hskips : s.st.skips = 0) (n cause : Nat) :
    ∃ x : SelfTest, x.req = s.st.req ∧ s.sliceSkip n cause =
      (skipShown s cause x).sliceEnd (if cause = 3 ∨ cause = 4 then 0x7E else 0x7C) false := by
  have hshown (k : Nat) : (s.sets [(fSTSTAT_LAST, 3), (fSTSTAT_SKIPWHY, cause), (fSTFLAG_SKIP, 1)]).stTally n k =
      skipShown s cause (s.st.tally n k) := rfl
  obtain ⟨hs, hp, -, -⟩ := tally_kept s.st n 3
  by_cases hagain : s.on fSTSTAT_RETRIES = true
  · refine ⟨{ s.st.tally n 4 with skips := 0 }, rfl, ?_⟩
    simp only [State.sliceSkip, hagain, if_true, hshown, skipShown_stSet]
  · have hnot : s.on fSTSTAT_RETRIES = false := by simpa using hagain
    by_cases hpace : s.st.byPace = true
    · refine ⟨{ s.st.tally n 3 with skips := (s.st.tally n 3).skips + 1 }, rfl, ?_⟩
      simp only [State.sliceSkip, hnot, Bool.false_eq_true, if_false, hshown, skipShown_st, hp, hpace, if_true, hs, hskips,
        OfNat.zero_ne_ofNat, skipShown_stSet]
    · refine ⟨s.st.tally n 3, rfl, ?_⟩
      simp only [State.sliceSkip, hnot, Bool.false_eq_true, if_false, hshown, skipShown_st, hp, hpace]

theorem sliceSkip_spec (h : Unwatched s) (hskips : s.st.skips = 0) (n : Nat) {cause : Nat} (hc : cause < 8) :
    (s.sliceSkip n cause).fld fSTSTAT_LAST = 3 ∧ (s.sliceSkip n cause).fld fSTSTAT_SKIPWHY = cause ∧
      (s.sliceSkip n cause).on fSTFLAG_SKIP = true ∧ StIdle (s.sliceSkip n cause) ∧ s.besidesAll (s.sliceSkip n cause) := by
  obtain ⟨x, hreq, heq⟩ := sliceSkip_eq hskips n cause
  have hin := skipShown_within s cause x
  obtain ⟨hlast, hwhy, hflag⟩ := skipShown_fields s hc x
  have hend := sliceEnd_spec (h.within hin (by decide) hreq) (if cause = 3 ∨ cause = 4 then 0x7E else 0x7C) false
  rw [heq]
  exact ⟨(hend.within.kept _ (by decide)).trans hlast, (hend.within.kept _ (by decide)).trans hwhy, (hend.within.on (by decide)).trans hflag,
    hend.idle, State.besidesAll_trans hin.besidesAll hend.within.besidesAll⟩

/-! ### GO and the start (R540, R542, R549) -/

/-- Slices that are applicable in every role, that wait for nothing and need no quiescing. -/
def Plain (n : Nat) : Prop := n = 14 ∨ n = 29 ∨ n = 63

theorem plain_applies (h : Plain n) (s : State) : s.sliceApplies n = true ∧ s.sliceWaits n = false ∧ s.sliceQuiesce n = s := by
  obtain rfl | rfl | rfl := h <;> exact ⟨rfl, rfl, rfl⟩

theorem plain_refused (h : Plain n) (s : State) : s.sliceRefused n =
    if !s.on fPWRSRC_VCOREOK then some 1 else if !s.on fCLKSTAT_PLLLOCK then some 2 else none := by
  obtain rfl | rfl | rfl := h <;> simp [State.sliceRefused]

theorem specOf_stctl : ∃ r, specOf rSTCTL = some r := Option.isSome_iff_exists.mp (by decide +kernel)

theorem stctl_word (n : Fin 64) : fldOf (BitVec.ofNat 32 (1 + 256 * n.val)) fSTCTL_GO = 1 ∧
    fldOf (BitVec.ofNat 32 (1 + 256 * n.val)) fSTCTL_SLICE = n.val := by
  revert n
  decide +kernel

theorem plainWrite_kept {a : Nat} {g : Fld} (h : g.addr ≠ a) (s : State) (v : Word) : (s.plainWrite a v).fld g = s.fld g := by
  refine (plainWrite_writes (l := [wholeReg a]) s v (List.mem_singleton_self _)).kept g ?_
  have : (wholeReg a).addr ≠ g.addr := fun e => h e.symm
  simp [Fld.other, this]

/-- A slice that waits, on a state whose other fields are as in `s`. -/
theorem sliceWait_spec (t : State) (n : Nat) (byPace : Bool) : (t.sliceWait n byPace).on fSTSTAT_BUSY = true ∧
    (t.sliceWait n byPace).fld fSTSTAT_PHASE = 0 ∧ (t.sliceWait n byPace).st = { t.st with cur := some n, running := false, byPace := byPace } ∧
    t.besidesAll (t.sliceWait n byPace) := by
  have heq : t.sliceWait n byPace = ({ ((t.setFld fSTSTAT_BUSY 1).setFld fSTSTAT_PHASE 0).setFld fSTSTAT_RETRIES 0 with
      st := { t.st with cur := some n, running := false, byPace := byPace } } : State) := rfl
  have hin : Within [fSTSTAT_BUSY, fSTSTAT_PHASE, fSTSTAT_RETRIES] t (t.sliceWait n byPace) := by
    rw [heq]
    exact ((((Within.refl _ t).setFld (by simp) 1).setFld (by simp) 0).setFld (by simp) 0).setSt _
  refine ⟨?_, ?_, by rw [heq], hin.besidesAll⟩
  · rw [heq]
    refine (on_setFld_other ((t.setFld fSTSTAT_BUSY 1).setFld fSTSTAT_PHASE 0) _ _ _ (by decide)).trans ?_
    rw [on_setFld_other _ _ _ _ (by decide)]
    exact on_setFld_one _ _ (by decide) (by decide)
  · rw [heq]
    refine (State.fld_setFld_other ((t.setFld fSTSTAT_BUSY 1).setFld fSTSTAT_PHASE 0) _ _ _ (by decide)).trans ?_
    rw [State.fld_setFld _ _ _ (by decide), Nat.zero_mod]

theorem stctlGo_eq (n : Fin 64) : exec (.stctlGo .sacristy n) s = .next (s.stWrite rSTCTL (BitVec.ofNat 32 (1 + 256 * n.val))) := by
  obtain ⟨r, hr⟩ := specOf_stctl
  show execStctlGo .sacristy n s = _
  rw [execStctlGo]
  simp only [vet_sacristy s _ hr]

theorem plainWrite_st (s : State) (a : Nat) (v : Word) : (s.plainWrite a v).st = s.st := by
  unfold State.plainWrite
  split <;> rfl

theorem stctlGo_waits {n : Fin 64} (hb : s.on fSTSTAT_BUSY = false) (ha : s.sliceApplies n.val = true) : ∃ t,
    exec (.stctlGo .sacristy n) s = .next t ∧ t.on fSTSTAT_BUSY = true ∧ t.fld fSTSTAT_PHASE = 0 ∧ t.st.cur = some n.val ∧
      t.st.running = false ∧ s.besidesAll t := by
  obtain ⟨hgo, hslice⟩ := stctl_word n
  obtain ⟨hbusy, hphase, hst, hrest⟩ := sliceWait_spec (s.plainWrite rSTCTL (BitVec.ofNat 32 (1 + 256 * n.val))) n.val false
  have hwrite : s.stWrite rSTCTL (BitVec.ofNat 32 (1 + 256 * n.val)) =
      (s.plainWrite rSTCTL (BitVec.ofNat 32 (1 + 256 * n.val))).sliceWait n.val false := by
    simp [State.stWrite, hgo, hslice, hb, ha]
  exact ⟨_, (stctlGo_eq n).trans (congrArg _ hwrite), hbusy, hphase, by rw [hst], by rw [hst],
    State.besidesAll_trans (plainWrite_besidesAll s _ _) hrest⟩

theorem stctlGo_ignored {n : Fin 64} (hb : s.on fSTSTAT_BUSY = true) : ∃ t, exec (.stctlGo .sacristy n) s = .next t ∧ t.st = s.st ∧
    s.besidesAll t := by
  have heq : s.stWrite rSTCTL (BitVec.ofNat 32 (1 + 256 * n.val)) = s.plainWrite rSTCTL (BitVec.ofNat 32 (1 + 256 * n.val)) := by
    simp [State.stWrite, hb]
  exact ⟨_, (stctlGo_eq n).trans (congrArg _ heq), plainWrite_st s _ _, plainWrite_besidesAll s _ _⟩

theorem no_slice (h : s.st.cur = none) (g : Word) : exec .sliceStart s = .next s ∧ exec .sliceWaitTimeout s = .next s ∧
    exec (.sliceCompare g false) s = .next s ∧ exec (.sliceAbandon false) s = .next s := by
  refine ⟨?_, ?_, ?_, ?_⟩
  · show execSliceStart s = _
    rw [execSliceStart, h]
    cases s.st.running <;> rfl
  · show execSliceWaitTimeout s = _
    rw [execSliceWaitTimeout, h]
    cases s.st.running <;> rfl
  · show execSliceCompare g false s = _
    rw [execSliceCompare, h]
    cases s.st.running <;> rfl
  · show execSliceAbandon false s = _
    rw [execSliceAbandon, h]
    cases s.st.running <;> rfl

/-- A slice that has been counted and runs. -/
def sliceRunning (s : State) (x : SelfTest) : State := { s.setFld fSTSTAT_PHASE 3 with st := x }

theorem sliceStart_runs (hp : Plain n) (hr : s.st.running = false) (hc : s.st.cur = some n) (hv : s.on fPWRSRC_VCOREOK = true)
    (hl : s.on fCLKSTAT_PLLLOCK = true) : ∃ t, exec .sliceStart s = .next t ∧ t.st.running = true ∧ t.fld fSTSTAT_PHASE = 3 ∧
      t.st.cur = some n ∧ s.besidesAll t := by
  obtain ⟨happ, hwait, -⟩ := plain_applies hp s
  have hquiesce (u : State) : u.sliceQuiesce n = u := (plain_applies hp u).2.2
  have hrefused : s.sliceRefused n = none := by rw [plain_refused hp, hv, hl]; rfl
  have hrun (x : SelfTest) (hx : x.cur = some n ∧ x.running = true) (he : exec .sliceStart s = .next (sliceRunning s x)) :
      ∃ t, exec .sliceStart s = .next t ∧ t.st.running = true ∧ t.fld fSTSTAT_PHASE = 3 ∧ t.st.cur = some n ∧ s.besidesAll t := by
    refine ⟨_, he, hx.2, ?_, hx.1, (((Within.refl [fSTSTAT_PHASE] s).setFld (by simp) 3).setSt x).besidesAll⟩
    refine (State.fld_setFld s fSTSTAT_PHASE 3 (by decide)).trans ?_
    decide
  have hstart : exec .sliceStart s = .next (((if s.on fSTSTAT_RETRIES then s else s.stTally n 0).setFld fSTSTAT_PHASE 3).stSet
      (fun x => { x with running := true })) := by
    show execSliceStart s = _
    simp only [execSliceStart, hr, hc, happ, hwait, hrefused, hquiesce, Bool.not_true, Bool.false_eq_true, if_false]
  by_cases hretry : s.on fSTSTAT_RETRIES = true
  · refine hrun { s.st with running := true } ⟨hc, rfl⟩ (hstart.trans ?_)
    rw [if_pos hretry]
    rfl
  · refine hrun { s.st.tally n 0 with running := true } ⟨hc, rfl⟩ (hstart.trans ?_)
    rw [if_neg hretry]
    rfl

theorem sliceStart_skips (h : Unwatched s) (hp : Plain n) (hr : s.st.running = false) (hc : s.st.cur = some n)
    (hv : s.on fPWRSRC_VCOREOK = false) (hskips : s.st.skips = 0) : ∃ t, exec .sliceStart s = .next t ∧ t.fld fSTSTAT_LAST = 3 ∧
      t.fld fSTSTAT_SKIPWHY = 1 ∧ t.on fSTFLAG_SKIP = true ∧ StIdle t ∧ s.besidesAll t := by
  obtain ⟨happ, hwait, -⟩ := plain_applies hp s
  have hrefused : s.sliceRefused n = some 1 := by rw [plain_refused hp, hv]; rfl
  have hstart : exec .sliceStart s = .next (s.sliceSkip n 1) := by
    show execSliceStart s = _
    simp only [execSliceStart, hr, hc, happ, hwait, hrefused, Bool.not_true, Bool.false_eq_true, if_false]
  exact ⟨_, hstart, sliceSkip_spec h hskips n (by decide)⟩

theorem sliceWaitTimeout_skips (h : Unwatched s) (hr : s.st.running = false) (hc : s.st.cur = some n) (hskips : s.st.skips = 0) :
    ∃ t, exec .sliceWaitTimeout s = .next t ∧ t.fld fSTSTAT_LAST = 3 ∧ t.fld fSTSTAT_SKIPWHY = 3 ∧ StIdle t ∧ s.besidesAll t := by
  have htimeout : exec .sliceWaitTimeout s = .next (s.sliceSkip n 3) := by
    show execSliceWaitTimeout s = _
    simp only [execSliceWaitTimeout, hr, hc]
  obtain ⟨hlast, hwhy, -, hidle, hrest⟩ := sliceSkip_spec h hskips n (cause := 3) (by decide)
  exact ⟨_, htimeout, hlast, hwhy, hidle, hrest⟩

end Sys2Proof.Proofs
end

section
/-! PROOF. The signature of a self-test slice compared, a slice abandoned, the counts copied (R542 to R548), and the descriptors (R550).
O37. -/

namespace Sys2Proof.Proofs

open Sys2Proof Sys2Proof.Machine

variable {s t : State} {n : Nat}

/-! ### Restoring -/

/-- Self-test's own state after the restore of a slice with no write held for it. -/
def SelfTest.restored (x : SelfTest) : SelfTest := { x with running := false, heldWr := [] }

theorem sliceRestore_plain (hp : Plain n) (hh : s.st.heldWr = []) : s.sliceRestore n false = { s with st := SelfTest.restored s.st } := by
  have hrange : (decide (36 ≤ n) && decide (n ≤ 41)) = false := by obtain rfl | rfl | rfl := hp <;> rfl
  simp only [State.sliceRestore, Bool.false_and, Bool.false_eq_true, if_false, hrange, hh, List.foldl_nil]
  rfl

/-- A slice with its signature shown and its region resumed. -/
def compared (s : State) (sig n : Nat) : State :=
  { (s.setFld fSTSIG_SIG sig).setFld fSTEXP_EXP (s.mem.word (0x3FF00 + 4 * n)) with st := SelfTest.restored s.st }

theorem compared_within (s : State) (sig n : Nat) : Within [fSTSIG_SIG, fSTEXP_EXP] s (compared s sig n) :=
  (((Within.refl _ s).setFld (by simp) sig).setFld (by simp) _).setSt _

theorem compared_st (s : State) (sig n : Nat) : (compared s sig n).st = SelfTest.restored s.st := rfl

theorem compared_sig (s : State) {sig : Nat} (n : Nat) (h : sig < 2 ^ 32) : (compared s sig n).fld fSTSIG_SIG = sig := by
  refine (State.fld_setFld_other (s.setFld fSTSIG_SIG sig) _ _ _ (by decide)).trans ?_
  rw [State.fld_setFld _ _ _ (by decide)]
  exact Nat.mod_eq_of_lt h

theorem compare_restore (hp : Plain n) (hh : s.st.heldWr = []) (sig : Nat) :
    ((s.setFld fSTSIG_SIG sig).setFld fSTEXP_EXP (s.mem.word (0x3FF00 + 4 * n))).sliceRestore n false = compared s sig n :=
  sliceRestore_plain hp hh

/-! ### The cursor -/

theorem cursorOn_eq (s : State) : ∃ x : SelfTest, x.req = s.st.req ∧ s.cursorOn = { s with st := x } := by
  unfold State.cursorOn
  split
  · exact ⟨{ s.st with cursor := (s.st.cursor + 1) % 64, skips := 0 }, rfl, rfl⟩
  · exact ⟨s.st, rfl, rfl⟩

/-- The end of a slice after the cursor has gone on. -/
theorem cursorOn_sliceEnd (h : Unwatched s) (status : Nat) (fail : Bool) :
    StIdle (s.cursorOn.sliceEnd status fail) ∧ Within [fSTSTAT_BUSY, fSTSTAT_PHASE] s (s.cursorOn.sliceEnd status fail) := by
  obtain ⟨x, hreq, heq⟩ := cursorOn_eq s
  have hin : Within [fSTSTAT_BUSY, fSTSTAT_PHASE] s { s with st := x } := (Within.refl _ s).setSt x
  have hend := sliceEnd_spec (h.within hin (by decide) hreq) status fail
  rw [heq]
  exact ⟨hend.idle, hin.trans hend.within⟩

/-! ### The signature compared (R544) -/

section
variable {g : Word} (hr : s.st.running = true) (hc : s.st.cur = some n) (hp : Plain n) (hh : s.st.heldWr = [])
include hr hc hp hh

theorem sliceCompare_passes (h : Unwatched s) (hz : s.fld fSTSTAT_RETRIES = 0) (hg : g.toNat = s.mem.word (0x3FF00 + 4 * n)) : ∃ t,
    exec (.sliceCompare g false) s = .next t ∧ t.fld fSTSTAT_LAST = 1 ∧ t.on fSTFLAG_PASS = true ∧ t.fld fSTSIG_SIG = g.toNat ∧ StIdle t ∧
      s.besidesAll t := by
  have hcomp := compared_within s g.toNat n
  generalize hu : ((compared s g.toNat n).setFld fSTSTAT_LAST 1).setFld fSTFLAG_PASS 1 = u
  have hin : Within [fSTSIG_SIG, fSTEXP_EXP, fSTSTAT_LAST, fSTFLAG_PASS] s u := by
    rw [← hu]
    exact ((hcomp.mono (by simp)).setFld (by simp) 1).setFld (by simp) 1
  have hst : u.st = SelfTest.restored s.st := by rw [← hu, State.setFld_st, State.setFld_st, compared_st]
  obtain ⟨hidle, hend⟩ := cursorOn_sliceEnd (h.within hin (by decide) (by rw [hst]; rfl)) 0 false
  have hexec : exec (.sliceCompare g false) s = .next (u.cursorOn.sliceEnd 0 false) := by
    show execSliceCompare g false s = _
    simp only [execSliceCompare, hr, hc, hz, State.sets_cons, State.sets_nil, compare_restore hp hh, if_pos hg, hu, if_true]
  refine ⟨_, hexec, ?_, ?_, ?_, hidle, State.besidesAll_trans hin.besidesAll hend.besidesAll⟩
  · rw [hend.kept _ (by decide), ← hu, State.fld_setFld_other _ _ _ _ (by decide), State.fld_setFld _ _ _ (by decide)]
    decide
  · rw [hend.on (by decide), ← hu]
    exact on_setFld_one _ _ (by decide) (by decide)
  · rw [hend.kept _ (by decide), ← hu, State.fld_setFld_other _ _ _ _ (by decide), State.fld_setFld_other _ _ _ _ (by decide),
      compared_sig s n g.isLt]

theorem sliceCompare_retries (hz : s.fld fSTSTAT_RETRIES < 3) (hg : g.toNat ≠ s.mem.word (0x3FF00 + 4 * n)) : ∃ t,
    exec (.sliceCompare g false) s = .next t ∧ t.fld fSTSTAT_RETRIES = s.fld fSTSTAT_RETRIES + 1 ∧ t.fld fSTSTAT_PHASE = 0 ∧
      t.st.cur = some n ∧ t.st.running = false ∧ s.besidesAll t := by
  have hcomp := compared_within s g.toNat n
  have hexec : exec (.sliceCompare g false) s =
      .next (((compared s g.toNat n).setFld fSTSTAT_RETRIES (s.fld fSTSTAT_RETRIES + 1)).setFld fSTSTAT_PHASE 0) := by
    show execSliceCompare g false s = _
    simp only [execSliceCompare, hr, hc, compare_restore hp hh, hg, hz, if_false, if_true, State.sets_cons, State.sets_nil]
  refine ⟨_, hexec, ?_, ?_, ?_, ?_, ?_⟩
  · rw [State.fld_setFld_other _ _ _ _ (by decide), State.fld_setFld _ _ _ (by decide)]
    exact Nat.mod_eq_of_lt (by show _ < 4; omega)
  · rw [State.fld_setFld _ _ _ (by decide), Nat.zero_mod]
  · rw [State.setFld_st, State.setFld_st, compared_st]
    exact hc
  · rw [State.setFld_st, State.setFld_st, compared_st]
    rfl
  · exact State.besidesAll_trans hcomp.besidesAll (State.besidesAll_trans (State.besidesAll_setFld _ _ _) (State.besidesAll_setFld _ _ _))

end

theorem stEvent_stopped (h : s.rhocoUp = false) (code : Nat) (data : List Byte) : s.stEvent code data = s := by
  simp [State.stEvent, h]

/-- Slice 63 confirmed bad, before its end. -/
def confirmed (s : State) (sig : Nat) : State :=
  (((((compared s sig 63).setFld fSTSTAT_LAST 2).setFld fSTFLAG_CONFIRMED 1).stTally 63 1).stCopy).setFld fSTRESP_CTRLBAD 1

theorem stCopy_kept (s : State) : s.stCopy.st.req = s.st.req ∧ s.stCopy.regs = s.regs ∧ s.stCopy.rhocoUp = s.rhocoUp := ⟨rfl, rfl, rfl⟩

theorem stTally_kept (s : State) (n k : Nat) :
    (s.stTally n k).st.req = s.st.req ∧ (s.stTally n k).regs = s.regs ∧ (s.stTally n k).rhocoUp = s.rhocoUp := ⟨rfl, rfl, rfl⟩

theorem setFld_rhocoUp (s : State) (f : Fld) (v : Nat) : (s.setFld f v).rhocoUp = s.rhocoUp := rfl

theorem compared_rhocoUp (s : State) (sig n : Nat) : (compared s sig n).rhocoUp = s.rhocoUp := by
  have hst (u : State) (x : SelfTest) : ({ u with st := x } : State).rhocoUp = u.rhocoUp := rfl
  rw [compared, hst, setFld_rhocoUp, setFld_rhocoUp]

theorem confirmed_st (s : State) (sig : Nat) : (confirmed s sig).st.req = s.st.req := by
  rw [confirmed, State.setFld_st, (stCopy_kept _).1, (stTally_kept _ _ _).1, State.setFld_st, State.setFld_st, compared_st]
  rfl

theorem confirmed_rhocoUp (s : State) (sig : Nat) : (confirmed s sig).rhocoUp = s.rhocoUp := by
  rw [confirmed, setFld_rhocoUp, (stCopy_kept _).2.2, (stTally_kept _ _ _).2.2, setFld_rhocoUp, setFld_rhocoUp, compared_rhocoUp]

theorem stCopy_besides (s : State) : s.besides s.stCopy := ⟨rfl, rfl, rfl, rfl, rfl, rfl⟩

theorem confirmed_besides (s : State) (sig : Nat) : s.besides (confirmed s sig) := by
  have hfirst : s.besidesAll (((compared s sig 63).setFld fSTSTAT_LAST 2).setFld fSTFLAG_CONFIRMED 1) :=
    State.besidesAll_trans (compared_within s sig 63).besidesAll
      (State.besidesAll_trans (State.besidesAll_setFld _ _ _) (State.besidesAll_setFld _ _ _))
  have htally (u : State) : u.besides (u.stTally 63 1) := (((Within.refl [] u).setSt _).besidesAll).1
  exact State.besides_trans hfirst.1 (State.besides_trans (htally _) (State.besides_trans (stCopy_besides _) (State.besidesAll_setFld _ _ _).1))

theorem confirmed_fields (s : State) (sig : Nat) : (confirmed s sig).fld fSTSTAT_LAST = 2 ∧ (confirmed s sig).on fSTFLAG_CONFIRMED = true ∧
    (confirmed s sig).on fSTRESP_CTRLBAD = true ∧ (confirmed s sig).on (fWAKEALMH_ARM 2) = s.on (fWAKEALMH_ARM 2) := by
  generalize hu : ((compared s sig 63).setFld fSTSTAT_LAST 2).setFld fSTFLAG_CONFIRMED 1 = u
  have hregs : (u.stTally 63 1).stCopy.regs = u.regs := (stCopy_kept _).2.1
  rw [confirmed, hu]
  refine ⟨?_, ?_, on_setFld_one _ _ (by decide) (by decide), ?_⟩
  · rw [State.fld_setFld_other _ _ _ _ (by decide), fld_of_regs hregs, ← hu, State.fld_setFld_other _ _ _ _ (by decide),
      State.fld_setFld _ _ _ (by decide)]
    decide
  · rw [on_setFld_other _ _ _ _ (by decide), on_of_fld (fld_of_regs hregs _), ← hu]
    exact on_setFld_one _ _ (by decide) (by decide)
  · rw [on_setFld_other _ _ _ _ (by decide), on_of_fld (fld_of_regs hregs _), ← hu, on_setFld_other _ _ _ _ (by decide),
      on_setFld_other _ _ _ _ (by decide), (compared_within s sig 63).on (by decide)]

theorem sliceCompare_confirms {g : Word} (h : Unwatched s) (hr : s.st.running = true) (hc : s.st.cur = some 63) (hh : s.st.heldWr = [])
    (hz : s.fld fSTSTAT_RETRIES = 3) (hg : g.toNat ≠ s.mem.word (0x3FF00 + 4 * 63)) (hup : s.rhocoUp = false) : ∃ t,
      exec (.sliceCompare g false) s = .next t ∧ t.fld fSTSTAT_LAST = 2 ∧ t.on fSTFLAG_CONFIRMED = true ∧ t.on fSTRESP_CTRLBAD = true ∧
      StIdle t ∧ s.besides t := by
  obtain ⟨hlast, hflag, hresp, harm⟩ := confirmed_fields s g.toNat
  have hexec : exec (.sliceCompare g false) s = .next ((confirmed s g.toNat).cursorOn.sliceEnd 0x7D true) := by
    have hresp : (((((compared s g.toNat 63).setFld fSTSTAT_LAST 2).setFld fSTFLAG_CONFIRMED 1).stTally 63 1).stCopy).sliceRespond 63 =
        confirmed s g.toNat := rfl
    show execSliceCompare g false s = _
    simp only [execSliceCompare, hr, hc, compare_restore (n := 63) (by simp [Plain]) hh, hg, hz, Nat.lt_irrefl, if_false, State.sets_cons,
      State.sets_nil, hresp, stEvent_stopped ((confirmed_rhocoUp s g.toNat).trans hup)]
  obtain ⟨hidle, hend⟩ := cursorOn_sliceEnd (s := confirmed s g.toNat) ⟨harm.trans h.armed, (confirmed_st s _).trans h.req⟩ 0x7D true
  exact ⟨_, hexec, (hend.kept _ (by decide)).trans hlast, (hend.on (by decide)).trans hflag, (hend.on (by decide)).trans hresp, hidle,
    State.besides_trans (confirmed_besides s _) hend.besidesAll.1⟩

/-! ### Abandoned (R542) and the counts copied (R546) -/

theorem sliceAbandon_good (hp : Plain n) (hr : s.st.running = true) (hc : s.st.cur = some n) (hv : s.on fPWRSRC_VCOREOK = true)
    (hl : s.on fCLKSTAT_PLLLOCK = true) : exec (.sliceAbandon false) s = .next s := by
  show execSliceAbandon false s = _
  simp only [execSliceAbandon, hr, hc, hv, hl, (plain_applies hp s).1, Bool.and_self, if_true]

/-- A slice abandoned, with its counts, before its end. -/
def abandoned (s : State) (n : Nat) : State :=
  { (s.setFld fSTSTAT_LAST 3).setFld fSTFLAG_ABANDON 1 with st := { (SelfTest.restored s.st).tally n 4 with skips := 0 } }

theorem abandoned_within (s : State) (n : Nat) : Within [fSTSTAT_LAST, fSTFLAG_ABANDON] s (abandoned s n) :=
  (((Within.refl _ s).setFld (by simp) 3).setFld (by simp) 1).setSt _

theorem sliceAbandon_ends (h : Unwatched s) (hp : Plain n) (hr : s.st.running = true) (hc : s.st.cur = some n) (hh : s.st.heldWr = [])
    (hl : s.on fCLKSTAT_PLLLOCK = false) : ∃ t, exec (.sliceAbandon false) s = .next t ∧ t.fld fSTSTAT_LAST = 3 ∧
      t.on fSTFLAG_ABANDON = true ∧ t.st.skips = 0 ∧ StIdle t ∧ s.besidesAll t := by
  have hin := abandoned_within s n
  have hexec : exec (.sliceAbandon false) s = .next ((abandoned s n).sliceEnd 0x7C false) := by
    show execSliceAbandon false s = _
    simp only [execSliceAbandon, hr, hc, hl, Bool.and_false, Bool.false_and, Bool.false_eq_true, if_false, sliceRestore_plain hp hh]
    rfl
  have hend := sliceEnd_spec (s := abandoned s n) (h.within hin (by decide) rfl) 0x7C false
  refine ⟨_, hexec, ?_, ?_, hend.skips, hend.idle, State.besidesAll_trans hin.besidesAll hend.within.besidesAll⟩
  · rw [hend.within.kept _ (by decide)]
    refine (State.fld_setFld_other (s.setFld fSTSTAT_LAST 3) _ _ _ (by decide)).trans ?_
    rw [State.fld_setFld _ _ _ (by decide)]
    decide
  · rw [hend.within.on (by decide)]
    exact on_setFld_one (s.setFld fSTSTAT_LAST 3) _ (by decide) (by decide)

theorem stCountCopy_copies (hup : s.rhocoUp = true) (hb : s.rst.booted = true) : ∃ t, exec .stCountCopy s = .next t ∧
    t.st.copied = s.st.counts ∧ t.st.counts = s.st.counts ∧ t.regs = s.regs ∧ s.besides t := by
  refine ⟨s.stCopy, ?_, rfl, rfl, rfl, rfl, rfl, rfl, rfl, rfl, rfl⟩
  show execStCountCopy s = _
  simp only [execStCountCopy, hup, hb, Bool.and_self, if_true]

/-! ### Descriptors (R550) -/

/-- Storing a setting leaves self-test's own state and what is beside the blocks alone. -/
theorem cfgStore_beside (t : State) (hb : t.cfgBusy = false) (item v : Nat) : (t.cfgStore item v).st = t.st ∧ t.besides (t.cfgStore item v) := by
  rw [State.cfgStore, if_neg (by simp [hb]), State.cfgWriteNow]
  dsimp only
  split <;> exact ⟨rfl, rfl, rfl, rfl, rfl, rfl, rfl⟩

section
variable {d : Desc} (h : s.ready d = true)
include h

theorem stQuery_answers : exec (.stQuery d) s = .next (s.complete d stOK (s.reg rSTRESP).toNat
    (leBytes 4 (s.reg rSTSTAT).toNat ++ leBytes 4 (s.reg rSTRESP).toNat ++ leBytes 4 s.st.cursor)) :=
  congrArg Host.Outcome.next (runDesc_done h rfl)

theorem stResults_answers :
    exec (.stResults d) s = .next (s.complete d stOK 0 (((List.range 64).map s.st.countBytes).flatten)) :=
  congrArg Host.Outcome.next (runDesc_done h rfl)

theorem stClear_clears : exec (.stClear d) s = .next (({ s with st := { s.st with counts := [] } }).complete d stOK 0 []) :=
  congrArg Host.Outcome.next (runDesc_done h rfl)

theorem stPace_zero (hp : dsArgs d 0 2 = 0) : exec (.stPace d) s = .next (s.complete d stINVALID 0 []) := by
  refine congrArg Host.Outcome.next (runDesc_done h ?_)
  simp only [hp]
  rfl

theorem stPace_stores (hlo : 0 < dsArgs d 0 2) (hhi : dsArgs d 0 2 ≤ 3600) (hb : s.cfgBusy = false) : ∃ t,
    exec (.stPace d) s = .next (t.complete d stOK 0 []) ∧ t.st.pace = dsArgs d 0 2 ∧ t.regs = s.regs ∧ s.besides t := by
  generalize hu : s.stSet (fun x => { x with pace := dsArgs d 0 2 }) = u
  have hub : u.cfgBusy = false := by rw [← hu]; exact hb
  have hurest : s.besides u := by rw [← hu]; exact ⟨rfl, rfl, rfl, rfl, rfl, rfl⟩
  obtain ⟨hst, hbes⟩ := cfgStore_beside u hub itemPace (dsArgs d 0 2)
  have hdone : (u.cfgStore itemPace (dsArgs d 0 2)).cfgDone d stOK 0 = ⟨u.cfgStore itemPace (dsArgs d 0 2), stOK, 0, [], false⟩ := by
    rw [State.cfgDone, if_neg (by simp [cfgStore_idle _ _ hub])]
  refine ⟨_, congrArg Host.Outcome.next (runDesc_done h (t := u.cfgStore itemPace (dsArgs d 0 2)) ?_), ?_, ?_, State.besides_trans hurest hbes⟩
  · rw [if_neg (by simp; omega), hu]
    exact hdone
  · rw [hst, ← hu]
    rfl
  · rw [cfgStore_regs, ← hu]
    rfl

/-- A slice, or the first of several, that begins to wait for ST_RUN. -/
def runWaits (s : State) (d : Desc) (k : Nat) (ks : List Nat) : State :=
  (s.stSet (fun x => { x with req := some d, todo := ks, fails := 0, worst := 0 })).sliceWait k false

theorem stRun_waits {k : Nat} {ks : List Nat} (hc : s.st.cur = none)
    (hl : (if dsArg d 0 = 0xFF then (List.range 64).filter s.sliceApplies
      else if dsArg d 0 < 64 && s.sliceApplies (dsArg d 0) then [dsArg d 0] else []) = k :: ks) :
    exec (.stRun d) s = .next (runWaits s d k ks) ∧ (runWaits s d k ks).st.req = some d ∧ (runWaits s d k ks).st.cur = some k ∧
      (runWaits s d k ks).on fSTSTAT_BUSY = true ∧ (runWaits s d k ks).st.todo = ks ∧ s.besidesAll (runWaits s d k ks) := by
  obtain ⟨hbusy, -, hst, hrest⟩ := sliceWait_spec (s.stSet (fun x => { x with req := some d, todo := ks, fails := 0, worst := 0 })) k false
  have hreq : s.besidesAll (s.stSet (fun x => { x with req := some d, todo := ks, fails := 0, worst := 0 })) :=
    ((Within.refl [] s).setSt _).besidesAll
  refine ⟨congrArg Host.Outcome.next (runDesc_waits h (st := stOK) (r := 0) (bs := []) ?_), ?_, ?_, hbusy, ?_, State.besidesAll_trans hreq hrest⟩
  · simp only [hc, Option.isSome_none, Bool.false_eq_true, if_false, hl]
    rfl
  · rw [runWaits, hst]
    rfl
  · rw [runWaits, hst]
  · rw [runWaits, hst]
    rfl

theorem stRun_notRole (hc : s.st.cur = none) (hn : dsArg d 0 < 64) (ha : s.sliceApplies (dsArg d 0) = false) :
    exec (.stRun d) s = .next (s.complete d stNOTROLE 0 []) := by
  refine congrArg Host.Outcome.next (runDesc_done h ?_)
  have hne : dsArg d 0 ≠ 0xFF := by omega
  simp only [hc, Option.isSome_none, Bool.false_eq_true, if_false, hne, ha, Bool.and_false]
  rfl

theorem stRun_busy (hc : s.st.cur.isSome = true) : exec (.stRun d) s = .next (s.complete d stBUSY 0 []) := by
  refine congrArg Host.Outcome.next (runDesc_done h ?_)
  simp only [hc, if_true]
  rfl

end

theorem slices_first (s : State) : ∃ ks, (List.range 64).filter s.sliceApplies = 0 :: ks := by
  have h : s.sliceApplies 0 = true := rfl
  exact ⟨((List.range 64).tail).filter s.sliceApplies, by
    rw [show List.range 64 = 0 :: (List.range 64).tail from rfl, List.filter_cons_of_pos h]
    rfl⟩

/-- Settles O37, by the lemma on each event of a slice and on each descriptor. -/
theorem selfTest : Obligations.SelfTest := by
  unfold Obligations.SelfTest
  refine ⟨?_, ?_⟩
  · intro s n g harm hreq hheld plain good waits runs idle
    have h : Unwatched s := ⟨harm, hreq⟩
    refine ⟨stctlGo_waits, stctlGo_ignored, fun hw hp hg => sliceStart_runs hp hw.1 hw.2 hg.1 hg.2,
      fun hw hp hv hs => sliceStart_skips h hp hw.1 hw.2 hv hs, fun hc => no_slice hc g,
      fun hr hp hz hg => sliceCompare_passes hr.1 hr.2 hp hheld h hz hg, fun hr hp hz hg => sliceCompare_retries hr.1 hr.2 hp hheld hz hg,
      fun hr hn hz hg hup => sliceCompare_confirms h hr.1 (hn ▸ hr.2) hheld hz hg hup, fun hr hp hg => sliceAbandon_good hp hr.1 hr.2 hg.1 hg.2,
      fun hr hp hl => sliceAbandon_ends h hp hr.1 hr.2 hheld hl, fun hw hs => sliceWaitTimeout_skips h hw.1 hw.2 hs, stCountCopy_copies⟩
  · intro s d h
    refine ⟨stQuery_answers h, stPace_stores h, stPace_zero h, fun hc hn ha => ?_, fun hc hn => ?_, stRun_notRole h, stRun_busy h,
      stResults_answers h, stClear_clears h⟩
    · have hne : dsArg d 0 ≠ 0xFF := by omega
      obtain ⟨hx, hr, hcur, hb, ht, hrest⟩ := stRun_waits h (k := dsArg d 0) (ks := []) hc (by simp [hne, hn, ha])
      exact ⟨_, hx, hr, hcur, hb, ht, hrest⟩
    · obtain ⟨ks, hks⟩ := slices_first s
      obtain ⟨hx, hr, hcur, -, -, hrest⟩ := stRun_waits h hc ((if_pos hn).trans hks)
      exact ⟨_, hx, hr, hcur, hrest⟩

end Sys2Proof.Proofs
end

section
/-! PROOF. A role latched while the part wakes from CLOISTER (R60, R86, R94): the refutation of O44. -/

namespace Sys2Proof.Proofs

open Sys2Proof Sys2Proof.Machine

/-- A part in CLOISTER whose role is not latched yet, fed and with no tokens, whose gyroscope runs and whose PWRFLAG bits all fire PWREV. -/
def cloistered : State :=
  { ((bootedCell.setReg rLOOPCALG 0).setReg rLOOPCALO 0).sets [(fMOTSTAT_GRUN, 1), (fPWRIE_IE, 0x7FF)] with
    latched := false, pwr := { bootedCell.pwr with fed := true }, slp := { bootedCell.slp with st := .cloister } }

theorem cloistered_fed : cloistered.latched = false ∧ cloistered.pwr.fed = true ∧ cloistered.mem.lost = [] := by decide +kernel

/-- Its role latched, the part is short of tokens, wakes, and loses the sample buffer. -/
theorem roleLatch_wakes : ∃ t, exec (.roleLatch .cell) cloistered = .next t ∧ t.mem.lost ≠ [] := ⟨_, rfl, by decide +kernel⟩

/-- Refutes O44: its clause on ROLE_LATCH says that memory stays as it is, but the latch recomputes the tokens, their shortage fires PWREV,
and a part in CLOISTER then wakes with its sample buffer lost; no hypothesis says that the part is in RUN. -/
theorem not_powerSourcesAndResets : ¬ Obligations.PowerSourcesAndResets := by
  unfold Obligations.PowerSourcesAndResets
  intro h
  obtain ⟨hlatched, hfed, hlost⟩ := cloistered_fed
  obtain ⟨-, -, -, -, -, -, hrole, -⟩ := h.2 cloistered .cell policyDesc
  obtain ⟨t, ht, -, -, -, -, -, -, hmem, -⟩ := hrole hlatched hfed
  obtain ⟨u, hu, hlose⟩ := roleLatch_wakes
  obtain rfl : t = u := Host.Outcome.next.inj (ht.symm.trans hu)
  exact hlose (by rw [hmem, hlost])

end Sys2Proof.Proofs
end

section
/-! PROOF. What posting an event leaves alone, whichever way it goes; the rules of the output latch. -/

namespace Sys2Proof.Proofs

open Sys2Proof Sys2Proof.Machine

variable {s t u : State}

/-! ### A record that is posted -/

/-- A posted record changes the line, the host link, what is sent and the wake pin, and nothing else. -/
def Posted (s t : State) : Prop := t = { s with node := t.node, scr := t.scr, hl := t.hl, out := t.out, pads := t.pads }

theorem Posted.refl (s : State) : Posted s s := rfl

theorem Posted.trans (h : Posted s t) (k : Posted t u) : Posted s u := by
  rw [Posted, k, h]

theorem Posted.ite {c : Prop} [Decidable c] (h : Posted s t) (k : Posted s u) : Posted s (if c then t else u) := by
  split
  · exact h
  · exact k

theorem Posted.regs (h : Posted s t) : t.regs = s.regs := by rw [h]

theorem Posted.fld (h : Posted s t) (g : Fld) : t.fld g = s.fld g := fld_of_regs h.regs g

theorem Posted.on (h : Posted s t) (g : Fld) : t.on g = s.on g := on_of_fld (h.fld g)

theorem Posted.fio (h : Posted s t) : t.fio = s.fio := by rw [h]

theorem Posted.besides (h : Posted s t) : s.besides t := by
  rw [h]
  exact s.besides_refl

theorem emit_posted (s : State) (o : Out) : Posted s (s.emit o) := rfl

theorem setScr_posted (s : State) (x : Scr) : Posted s { s with scr := x } := rfl

theorem msixTrigger_posted (s : State) (v : Nat) : Posted s (s.msixTrigger v) := by
  unfold State.msixTrigger
  refine .ite ?send (.ite (.ite ?wake ?pme) ?pend)
  case wake | pme | pend => rfl
  case send =>
    unfold State.msixSend
    split
    · exact emit_posted s _
    · exact .refl s

theorem ringRecord_posted {n : Nat} {rec : List Byte} (h : s.ringRecord n rec = some t) : Posted s t := by
  unfold State.ringRecord at h
  split at h
  next r _ =>
    split at h
    · cases h
      exact (((emit_posted s _).trans (setScr_posted _ _)).trans (emit_posted _ _)).trans (.ite (msixTrigger_posted _ _) (.refl _))
    · cases h
  next => cases h

theorem drainRecords_posted (n : Nat) (s : State) : Posted s (s.drainRecords n) := by
  induction n generalizing s with
  | zero => exact .refl s
  | succ n ih =>
    unfold State.drainRecords
    split
    · exact .refl s
    · split
      next h => exact (setScr_posted s _).trans ((ringRecord_posted h).trans (ih _))
      next => exact .refl s

theorem postRecord_posted (s : State) (rec : List Byte) : Posted s (s.postRecord rec) := by
  unfold State.postRecord
  split
  next t h =>
    split at h
    · exact ringRecord_posted h
    · cases h
  next => exact (setScr_posted s _).trans (drainRecords_posted _ _)

theorem queueUp_posted (s : State) (type ring : Nat) (payload : List Byte) : Posted s (s.queueUp type ring payload) := rfl

theorem event_posted (s : State) (code : Nat) (data : List Byte) : Posted s (s.event code data) :=
  .ite (postRecord_posted s _) (queueUp_posted s _ _ _)

/-- An event that is told by Rhoco or stays in its flag. -/
theorem flagEvent_posted (s : State) (f : Fld) (code : Nat) (data : List Byte) :
    Posted (if s.rhocoUp then s else s.setFld f 1) (s.flagEvent f code data) := by
  unfold State.flagEvent
  split
  · exact event_posted s code data
  · exact .refl _

theorem flagEvent_fld {f g : Fld} (h : f.other g = true) (s : State) (code : Nat) (data : List Byte) :
    (s.flagEvent f code data).fld g = s.fld g := by
  rw [(flagEvent_posted s f code data).fld]
  split
  · rfl
  · exact State.fld_setFld_other s f g 1 h

theorem flagEvent_fio (s : State) (f : Fld) (code : Nat) (data : List Byte) : (s.flagEvent f code data).fio = s.fio := by
  rw [(flagEvent_posted s f code data).fio]
  split
  · rfl
  · rfl

theorem flagEvent_kept (s : State) (f : Fld) (code : Nat) (data : List Byte) : s.besides (s.flagEvent f code data) := by
  refine State.besides_trans ?_ (flagEvent_posted s f code data).besides
  split
  · exact s.besides_refl
  · exact (State.besidesAll_setFld s f 1).1

/-! ### The output latch -/

theorem foSync_fio (s : State) : s.foSync.fio = s.fio := by
  rw [(foSync_writes s).regs]

theorem foSync_fld {g : Fld} (h : outputFields.all (fun f => f.other g) = true) (s : State) : s.foSync.fld g = s.fld g :=
  (foSync_writes s).kept g h

theorem foSync_besidesAll (s : State) : s.besidesAll s.foSync := (foSync_writes s).besidesAll

theorem foSync_latch (h : s.fio.latch < 4) : s.foSync.fld fFOSTAT_LATCH = s.fio.latch := by
  unfold State.foSync
  simp only [State.sets_cons, State.sets_nil]
  rw [State.fld_setFld_other _ _ _ _ (by decide), State.fld_setFld_other _ _ _ _ (by decide), State.fld_setFld_other _ _ _ _ (by decide),
    State.fld_setFld_other _ _ _ _ (by decide), State.fld_setFld _ _ _ (by decide)]
  exact Nat.mod_eq_of_lt h

theorem foSync_vfldok (s : State) : s.foSync.on fFOSTAT_VFLDOK = s.fio.vok := by
  unfold State.foSync
  simp only [State.sets_cons, State.sets_nil]
  exact on_setFld_b2n _ _ _ (by decide) (by decide)

theorem fioSet_fio (s : State) (f : Field → Field) : (s.fioSet f).fio = f s.fio := rfl

theorem fioSet_besidesAll (s : State) (f : Field → Field) : s.besidesAll (s.fioSet f) :=
  ⟨s.besides_refl, rfl, rfl, rfl, rfl, rfl, rfl⟩

/-- A change of the latch, with FOSTAT brought up to date. -/
theorem moved_fio (s : State) (f : Field → Field) : (s.fioSet f).foSync.fio = f s.fio := foSync_fio _

theorem moved_fld {g : Fld} (h : outputFields.all (fun f => f.other g) = true) (s : State) (f : Field → Field) :
    (s.fioSet f).foSync.fld g = s.fld g := foSync_fld h _

theorem moved_besidesAll (s : State) (f : Field → Field) : s.besidesAll (s.fioSet f).foSync :=
  State.besidesAll_trans (fioSet_besidesAll s f) (foSync_besidesAll _)

/-- An input or output value of the monitors, the latch and its status, then the event: what OUT_SHORT, OUT_THERM and VFLD's events share. -/
theorem told_spec (s : State) (m k : Fld) (v : Nat) (f : Field → Field) (code out : Nat) (hm : m.lo + m.w ≤ 32) (hv : v < 2 ^ m.w)
    (hs : outputFields.all (fun x => x.other m) = true) (hk : k.other m = true) :
    (((s.setFld m v).fioSet f).foSync.foEvent k code out v).fio = f s.fio ∧
    (((s.setFld m v).fioSet f).foSync.foEvent k code out v).fld m = v ∧ s.besides (((s.setFld m v).fioSet f).foSync.foEvent k code out v) := by
  refine ⟨?fio, ?fld, ?rest⟩
  case fio => rw [State.foEvent, flagEvent_fio, moved_fio, State.setFld_fio]
  case fld => rw [State.foEvent, flagEvent_fld hk, moved_fld hs, State.fld_setFld _ _ _ hm, Nat.mod_eq_of_lt hv]
  case rest =>
    exact State.besides_trans (State.besidesAll_trans (State.besidesAll_setFld _ _ _) (moved_besidesAll _ _)).1 (flagEvent_kept _ _ _ _)

/-- Bits taken out of a two-bit value read 0. -/
theorem testBit_sub_and {x : Nat} (hx : x < 4) {y n : Nat} (hn : n < 2) (hy : y.testBit n = true) : (x - (x &&& y)).testBit n = false := by
  have hand : x &&& y = x &&& (y % 4) := by
    have hx3 : x = x &&& (2 ^ 2 - 1) := by rw [Nat.and_two_pow_sub_one_eq_mod, Nat.mod_eq_of_lt hx]
    have hy3 : y % 4 = y &&& (2 ^ 2 - 1) := (Nat.and_two_pow_sub_one_eq_mod y 2).symm
    rw [hy3, Nat.and_comm y, ← Nat.and_assoc, ← hx3]
  have hsmall : ∀ x < 4, ∀ y < 4, ∀ n < 2, y.testBit n = true → (x - (x &&& y)).testBit n = false := by decide
  rw [hand]
  refine hsmall x hx (y % 4) (Nat.mod_lt _ (by decide)) n hn ?_
  rw [show (4 : Nat) = 2 ^ 2 from rfl, Nat.testBit_mod_two_pow, hy]
  simp [hn]

theorem foi_spec : ∀ n < 2, (fFOI n).lo + (fFOI n).w ≤ 32 ∧ 256 ≤ 2 ^ (fFOI n).w ∧ outputFields.all (fun x => x.other (fFOI n)) = true ∧
    (∀ lo < 5, (fFO lo n).other (fFOI n) = true) := by decide

end Sys2Proof.Proofs
end

section
/-! PROOF. The field outputs (R526 to R533): the writes of FOCTL, the keepalives, the faults and the supply. -/

namespace Sys2Proof.Proofs

open Sys2Proof Sys2Proof.Machine

variable {s t : State} {n u : Nat} {v : Word}

theorem testBit_bitTo_self (x n : Nat) (b : Bool) : (bitTo x n b).testBit n = b := by
  rw [testBit_bitTo, if_pos rfl]

/-! ### Writes of FOCTL and FOKICK -/

/-- What FOCTL passes to the latch. -/
def passed (arm lvl safe safeLvl : Nat) (f : Field) : Field :=
  { f with
    safe := safe, safeLvl := safeLvl
    latch := f.latch - (f.latch &&& arm) + (lvl &&& arm), safed := f.safed - (f.safed &&& arm)
    short := f.short - (f.short &&& (lvl &&& arm)), retry := f.retry - (f.retry &&& arm) }

theorem foApply_eq (s : State) :
    s.foApply = (s.fioSet (passed (s.fld fFOCTL_ARM) (s.fld fFOCTL_LEVEL) (s.fld fFOCTL_SAFE) (s.fld fFOCTL_SAFELVL))).foSync := rfl

theorem specOf_foctl : specOf rFOCTL = some ⟨0x40017040, 1, 0, 0x1333333, 0, 0, 0, 0, 0, 0⟩ := by decide +kernel

theorem specOf_fokick : ∃ r, specOf rFOKICK = some r := Option.isSome_iff_exists.mp (by decide +kernel)

theorem foctl_stored (s : State) (v : Word) {f : Fld}
    (hf : f ∈ [fFOCTL_LEVEL, fFOCTL_ARM, fFOCTL_SAFE, fFOCTL_SAFELVL]) : (s.plainWrite rFOCTL v).fld f = fldOf v f := by
  have hbits : ∀ f ∈ [fFOCTL_LEVEL, fFOCTL_ARM, fFOCTL_SAFE, fFOCTL_SAFELVL], f.addr = rFOCTL ∧
      ∀ j < f.w, (0x1333333 : Nat).testBit (f.lo + j) = true := by decide
  obtain ⟨haddr, hbit⟩ := hbits f hf
  exact fld_plainWrite_stored s v specOf_foctl haddr fun j hj => ⟨hbit j hj, Nat.zero_testBit _, Nat.zero_testBit _⟩

theorem plainWrite_fio (s : State) (a : Nat) (v : Word) : (s.plainWrite a v).fio = s.fio := by
  rw [(plainWrite_writes (l := [wholeReg a]) s v (List.mem_singleton_self _)).regs]

theorem foctlWrite_goes (s : State) (v : Word) : exec (.foctlWrite .sacristy v) s = .next (s.foWriteCtl v) := by
  refine congrArg Host.Outcome.next ?_
  rw [vet_sacristy s v specOf_foctl, State.fiWrite, if_pos rfl]

/-- FOCTL written with the safe state not forced. -/
theorem foWriteCtl_passed (v : Word) (h : s.on fCLKSTAT_FORCED = false) :
    (s.foWriteCtl v).fio = passed (fldOf v fFOCTL_ARM) (fldOf v fFOCTL_LEVEL) (fldOf v fFOCTL_SAFE) (fldOf v fFOCTL_SAFELVL) s.fio ∧
    (∀ g ∈ [fFOCTL_LEVEL, fFOCTL_ARM], (s.foWriteCtl v).fld g = fldOf v g) ∧
    ((s.foWriteCtl v).fio.latch < 4 → (s.foWriteCtl v).fld fFOSTAT_LATCH = (s.foWriteCtl v).fio.latch) ∧ s.besidesAll (s.foWriteCtl v) := by
  have hforced : (s.plainWrite rFOCTL v).on fCLKSTAT_FORCED = false := by
    rw [on_of_fld (plainWrite_kept (by decide) s v), h]
  have heq : s.foWriteCtl v = (s.plainWrite rFOCTL v).foApply := by
    rw [State.foWriteCtl, hforced, if_neg Bool.false_ne_true]
  have hfio : (s.foWriteCtl v).fio =
      passed (fldOf v fFOCTL_ARM) (fldOf v fFOCTL_LEVEL) (fldOf v fFOCTL_SAFE) (fldOf v fFOCTL_SAFELVL) s.fio := by
    rw [heq, foApply_eq, moved_fio, plainWrite_fio, foctl_stored s v (by simp), foctl_stored s v (by simp), foctl_stored s v (by simp),
      foctl_stored s v (by simp)]
  have hout : ∀ g ∈ [fFOCTL_LEVEL, fFOCTL_ARM], outputFields.all (fun f => f.other g) = true := by decide
  have hmem : ∀ g ∈ [fFOCTL_LEVEL, fFOCTL_ARM], g ∈ [fFOCTL_LEVEL, fFOCTL_ARM, fFOCTL_SAFE, fFOCTL_SAFELVL] := by decide
  refine ⟨hfio, fun g hg => ?_, fun hlt => ?_, ?_⟩
  · rw [heq, foApply_eq, moved_fld (hout g hg), foctl_stored s v (hmem g hg)]
  · rw [heq, foApply_eq] at hlt ⊢
    rw [foSync_fio] at hlt ⊢
    exact foSync_latch hlt
  · rw [heq]
    exact State.besidesAll_trans (plainWrite_besidesAll s rFOCTL v) (moved_besidesAll _ _)

theorem foctlWrite_forced (v : Word) (h : s.on fCLKSTAT_FORCED = true) : ∃ t, exec (.foctlWrite .sacristy v) s = .next t ∧ t.fio = s.fio ∧
    t.fld fFOCTL_LEVEL = fldOf v fFOCTL_LEVEL ∧ s.besidesAll t := by
  have hforced : (s.plainWrite rFOCTL v).on fCLKSTAT_FORCED = true := by
    rw [on_of_fld (plainWrite_kept (by decide) s v), h]
  have heq : s.foWriteCtl v = (s.plainWrite rFOCTL v).foSync := by
    rw [State.foWriteCtl, hforced, if_pos rfl]
  refine ⟨_, foctlWrite_goes s v, ?_, ?_, ?_⟩
  · rw [heq, foSync_fio, plainWrite_fio]
  · rw [heq, foSync_fld (by decide), foctl_stored s v (by simp)]
  · rw [heq]
    exact State.besidesAll_trans (plainWrite_besidesAll s rFOCTL v) (foSync_besidesAll _)

theorem foctlWrite_armed (h : s.on fCLKSTAT_FORCED = false) (hn : n < 2) (hl : s.fio.latch = 0) (hlvl : fldOf v fFOCTL_LEVEL = 2 ^ n)
    (harm : fldOf v fFOCTL_ARM = 2 ^ n) : ∃ t, exec (.foctlWrite .sacristy v) s = .next t ∧ t.fio.latch = 2 ^ n ∧
      t.fld fFOSTAT_LATCH = 2 ^ n ∧ t.fld fFOCTL_ARM = 2 ^ n ∧ t.fio.safe = fldOf v fFOCTL_SAFE ∧ s.besidesAll t := by
  obtain ⟨hfio, hkept, hstat, hrest⟩ := foWriteCtl_passed v h
  have hlatch : (s.foWriteCtl v).fio.latch = 2 ^ n := by
    rw [hfio, passed, hlvl, harm, hl]
    simp
  have hsmall : 2 ^ n < 4 := Nat.pow_lt_pow_right (by decide) hn
  refine ⟨_, foctlWrite_goes s v, hlatch, ?_, ?_, ?_, hrest⟩
  · rw [hstat (hlatch ▸ hsmall), hlatch]
  · rw [hkept _ (by simp), harm]
  · rw [hfio]
    rfl

theorem foctlWrite_unarmed (h : s.on fCLKSTAT_FORCED = false) (harm : fldOf v fFOCTL_ARM = 0) :
    ∃ t, exec (.foctlWrite .sacristy v) s = .next t ∧ t.fio.latch = s.fio.latch ∧ t.fld fFOCTL_LEVEL = fldOf v fFOCTL_LEVEL ∧ s.besidesAll t := by
  obtain ⟨hfio, hkept, -, hrest⟩ := foWriteCtl_passed v h
  refine ⟨_, foctlWrite_goes s v, ?_, hkept _ (by simp), hrest⟩
  rw [hfio, passed, harm]
  simp

theorem fokick_goes (s : State) (v : Word) : exec (.fokick .sacristy v) s =
    .next (if v = 0xF1E1 then s.fioSet (fun f => { f with kick := some s.now }) else s) := by
  obtain ⟨r, hr⟩ := specOf_fokick
  refine congrArg Host.Outcome.next ?_
  rw [vet_sacristy s v hr, State.fiWrite, if_neg (by decide), if_pos rfl]

theorem fokick_right (s : State) : ∃ t, exec (.fokick .sacristy 0xF1E1) s = .next t ∧ t.fio.kick = some s.now ∧ t.fio.latch = s.fio.latch ∧
    t.regs = s.regs ∧ s.besidesAll t :=
  ⟨_, (fokick_goes s _).trans (congrArg _ (if_pos rfl)), rfl, rfl, rfl, fioSet_besidesAll s _⟩

theorem fokick_wrong (s : State) (hv : v ≠ 0xF1E1) : exec (.fokick .sacristy v) s = .next s := by
  rw [fokick_goes, if_neg hv]

/-! ### Keepalives -/

theorem keepalive_sends (hb : s.blockOn 23 = true) (h : s.kaSends = true) (hs : s.fio.silent = false) :
    exec .keepalive s = .next { s with fio := { s.fio with ka := some s.now } } := by
  refine congrArg Host.Outcome.next ?_
  rw [hb, h, hs]
  rfl

theorem keepalive_stopped (h : s.kaSends = false) : exec .keepalive s = .next s := by
  refine congrArg Host.Outcome.next ?_
  rw [h]
  simp

/-- The latch as silence leaves it (R530). -/
def silenced (f : Field) : Field :=
  { f with
    silent := true, safed := f.safed ||| f.safe
    latch := f.latch - (f.latch &&& f.safe) + (f.safeLvl &&& f.safe) }

theorem logicSilent_goes (hs : s.fio.silent = false) (hk : s.fio.ka = none) :
    exec .logicSilent s = .next (s.fioSet silenced).foSync := by
  refine congrArg Host.Outcome.next ?_
  rw [hs, hk]
  rfl

theorem logicSilent_safe (hl : s.fio.latch < 4) (hs : s.fio.silent = false) (hk : s.fio.ka = none) (h : s.fio.safe = 3)
    (hlvl : s.fio.safeLvl < 4) : ∃ t, exec .logicSilent s = .next t ∧ t.fio.latch = s.fio.safeLvl ∧ t.fio.silent = true ∧
      t.fld fFOSTAT_LATCH = s.fio.safeLvl ∧ s.besidesAll t := by
  have hmask : ∀ x < 4, x &&& 3 = x := by decide
  have hlatch : (silenced s.fio).latch = s.fio.safeLvl := by
    rw [silenced, h, hmask _ hl, hmask _ hlvl]
    simp
  refine ⟨_, logicSilent_goes hs hk, ?_, ?_, ?_, moved_besidesAll s _⟩
  · rw [moved_fio, hlatch]
  · rw [moved_fio, silenced]
  · rw [foSync_latch (by rw [fioSet_fio, hlatch]; exact hlvl), fioSet_fio, hlatch]

theorem logicSilent_keeps (hs : s.fio.silent = false) (hk : s.fio.ka = none) (h : s.fio.safe = 0) :
    ∃ t, exec .logicSilent s = .next t ∧ t.fio.latch = s.fio.latch ∧ t.fio.silent = true ∧ s.besidesAll t := by
  refine ⟨_, logicSilent_goes hs hk, ?_, ?_, moved_besidesAll s _⟩
  · rw [moved_fio, silenced, h]
    simp
  · rw [moved_fio, silenced]

/-- The logic is heard again, before any output is told (R530). -/
def heardAgain (s : State) : State :=
  (((s.fioSet (fun f => { f with silent := false, ka := some s.now })).setFld fFOCTL_ARM 0).raise [fFOFLAG_SILENT]).foSync

theorem keepaliveReturn_unsafed (hs : s.fio.silent = true) (hk : s.kaSends = true) (h : s.fio.safed = 0) :
    ∃ t, exec .keepaliveReturn s = .next t ∧ t.fio.silent = false ∧ t.fio.latch = s.fio.latch ∧ t.fld fFOCTL_ARM = 0 ∧
      t.on fFOFLAG_SILENT = true ∧ s.besidesAll t := by
  have hfio : (heardAgain s).fio = { s.fio with silent := false, ka := some s.now } := by
    rw [heardAgain, foSync_fio, State.raise_cons, State.raise_nil, State.setFld_fio, State.setFld_fio, fioSet_fio]
  have hgo : exec .keepaliveReturn s = .next (heardAgain s) := by
    have hfold : (List.range 2).foldl (fun u n => if u.fio.safed.testBit n then u.foEvent fFOFLAG_SAFED 0x0813 n (u.fld (fFOI n)) else u)
        (heardAgain s) = heardAgain s := by
      refine foldl_none _ fun n _ => ?_
      rw [hfio, h, Nat.zero_testBit]
    refine congrArg Host.Outcome.next ?_
    rw [hs, hk]
    exact hfold
  refine ⟨_, hgo, by rw [hfio], by rw [hfio], ?_, ?_, ?_⟩
  · rw [heardAgain, foSync_fld (by decide), State.raise_cons, State.raise_nil, State.fld_setFld_other _ _ _ _ (by decide),
      State.fld_setFld _ _ _ (by decide), Nat.zero_mod]
  · rw [heardAgain, on_of_fld (foSync_fld (by decide) _), State.raise_cons, State.raise_nil]
    exact on_setFld_one _ _ (by decide) (by decide)
  · exact State.besidesAll_trans (State.besidesAll_trans (State.besidesAll_trans (fioSet_besidesAll s _) (State.besidesAll_setFld _ _ _))
      (State.besidesAll_raise _ _)) (foSync_besidesAll _)

/-! ### Shorts, heat and open loads -/

/-- The latch after a turn-off for a short (R533). -/
def shorted (n : Nat) (again : Bool) (times : List Nat) (f : Field) : Field :=
  { f with
    latch := bitTo f.latch n false, short := bitTo f.short n true, retry := bitTo f.retry n again
    times := f.times.set n times }

theorem outShort_goes (hn : n < 2) (hon : s.fio.on.testBit n = true) (u : Nat) : ∃ times again,
    exec (.outShort n u) s =
      .next (((s.setFld (fFOI n) u).fioSet (shorted n again times)).foSync.foEvent (fFO 0 n) 0x0810 n u) ∧
    again = ((s.fld fFOCTL_RETRY).testBit n && decide (times.length < 4)) ∧ (s.fio.times = [[], []] → times.length = 1) := by
  refine ⟨s.now :: (s.fio.times.getD n []).filter (fun t => decide ((s.now + 2 ^ 48 - t) % 2 ^ 48 < 60 * 32768)), _,
    congrArg Host.Outcome.next ?_, rfl, ?_⟩
  · rw [hon, decide_eq_false (by omega)]
    rfl
  · intro h
    have hnone : ([[], []] : List (List Nat)).getD n [] = [] := by
      obtain rfl | rfl : n = 0 ∨ n = 1 := by omega
      · rfl
      · rfl
    rw [h, hnone]
    rfl

theorem outShort_retries (hn : n < 2) (hu : u < 256) (hon : s.fio.on.testBit n = true) (hr : (s.fld fFOCTL_RETRY).testBit n = true)
    (ht : s.fio.times = [[], []]) : ∃ t, exec (.outShort n u) s = .next t ∧ t.fio.latch.testBit n = false ∧ t.fio.short.testBit n = true ∧
      t.fio.retry.testBit n = true ∧ t.fld (fFOI n) = u ∧ s.besides t := by
  obtain ⟨times, again, hgo, hagain, hlen⟩ := outShort_goes hn hon u
  obtain ⟨hfit, hwide, hstat, hflag⟩ := foi_spec n hn
  obtain ⟨hfio, hmon, hrest⟩ := told_spec s (fFOI n) (fFO 0 n) u (shorted n again times) 0x0810 n hfit (by omega) hstat (hflag 0 (by decide))
  rw [hr, hlen ht] at hagain
  refine ⟨_, hgo, ?_, ?_, ?_, hmon, hrest⟩
  · rw [hfio, shorted]; exact testBit_bitTo_self _ _ _
  · rw [hfio, shorted]; exact testBit_bitTo_self _ _ _
  · rw [hfio, shorted, hagain]; exact testBit_bitTo_self _ _ _

theorem outShort_stays (hn : n < 2) (hu : u < 256) (hon : s.fio.on.testBit n = true) (hr : (s.fld fFOCTL_RETRY).testBit n = false) :
    ∃ t, exec (.outShort n u) s = .next t ∧ t.fio.latch.testBit n = false ∧ t.fio.retry.testBit n = false ∧ s.besides t := by
  obtain ⟨times, again, hgo, hagain, -⟩ := outShort_goes hn hon u
  obtain ⟨hfit, hwide, hstat, hflag⟩ := foi_spec n hn
  obtain ⟨hfio, -, hrest⟩ := told_spec s (fFOI n) (fFO 0 n) u (shorted n again times) 0x0810 n hfit (by omega) hstat (hflag 0 (by decide))
  rw [hr] at hagain
  refine ⟨_, hgo, ?_, ?_, hrest⟩
  · rw [hfio, shorted]; exact testBit_bitTo_self _ _ _
  · rw [hfio, shorted, hagain]; exact testBit_bitTo_self _ _ _

/-- The latch after a retry (R533). -/
def retried (n : Nat) (f : Field) : Field :=
  { f with latch := bitTo f.latch n true, short := bitTo f.short n false, retry := bitTo f.retry n false }

theorem outRetry_goes (hn : n < 2) (h : s.fio.retry.testBit n = true) : ∃ t, exec (.outRetry n) s = .next t ∧ t.fio.latch.testBit n = true ∧
    t.fio.short.testBit n = false ∧ t.fio.retry.testBit n = false ∧ s.besidesAll t := by
  have hgo : exec (.outRetry n) s = .next (s.fioSet (retried n)).foSync := by
    refine congrArg Host.Outcome.next ?_
    rw [h, decide_eq_false (by omega)]
    rfl
  refine ⟨_, hgo, ?_, ?_, ?_, moved_besidesAll s _⟩ <;> (rw [moved_fio, retried]; exact testBit_bitTo_self _ _ _)

/-- An output that gets too hot or has cooled (R532). -/
def thermTo (n : Nat) (hot : Bool) (f : Field) : Field := { f with therm := bitTo f.therm n hot }

theorem outTherm_hot (hl : s.fio.latch < 4) (hn : n < 2) (hu : u < 256) (h : s.fio.therm.testBit n = false) :
    ∃ t, exec (.outTherm n true u) s = .next t ∧ t.fio.therm.testBit n = true ∧ t.fio.on.testBit n = false ∧ t.fio.latch = s.fio.latch ∧
      t.fld (fFOI n) = u ∧ s.besides t := by
  have hgo : exec (.outTherm n true u) s =
      .next (((s.setFld (fFOI n) u).fioSet (thermTo n true)).foSync.foEvent (fFO 2 n) 0x0811 n u) := by
    refine congrArg Host.Outcome.next ?_
    rw [h, decide_eq_false (by omega)]
    rfl
  obtain ⟨hfit, hwide, hstat, hflag⟩ := foi_spec n hn
  obtain ⟨hfio, hmon, hrest⟩ := told_spec s (fFOI n) (fFO 2 n) u (thermTo n true) 0x0811 n hfit (by omega) hstat (hflag 2 (by decide))
  have hbit : (bitTo s.fio.therm n true).testBit n = true := testBit_bitTo_self _ _ _
  refine ⟨_, hgo, ?_, ?_, ?_, hmon, hrest⟩
  · rw [hfio]; exact hbit
  · rw [hfio, Field.on]
    split
    · exact testBit_sub_and hl hn hbit
    · exact Nat.zero_testBit n
  · rw [hfio, thermTo]

theorem outTherm_cool (hn : n < 2) (u : Nat) (h : s.fio.therm.testBit n = true) : ∃ t, exec (.outTherm n false u) s = .next t ∧
    t.fio.therm.testBit n = false ∧ t.fio.latch = s.fio.latch ∧ s.besidesAll t := by
  have hgo : exec (.outTherm n false u) s = .next ((s.setFld (fFOI n) u).fioSet (thermTo n false)).foSync := by
    refine congrArg Host.Outcome.next ?_
    rw [h, decide_eq_false (by omega)]
    rfl
  refine ⟨_, hgo, ?_, ?_, State.besidesAll_trans (State.besidesAll_setFld _ _ _) (moved_besidesAll _ _)⟩
  · rw [moved_fio, thermTo]; exact testBit_bitTo_self _ _ _
  · rw [moved_fio, thermTo, State.setFld_fio]

theorem outOpen_flagged (hn : n < 2) (hu : u < 256) (hon : s.fio.on.testBit n = true) (hup : s.rhocoUp = false) :
    ∃ t, exec (.outOpen n u) s = .next t ∧ t.on (fFO 4 n) = true ∧ t.fio = s.fio ∧ t.fld (fFOI n) = u ∧ s.besidesAll t := by
  have hgo : exec (.outOpen n u) s = .next ((s.setFld (fFOI n) u).setFld (fFO 4 n) 1) := by
    refine congrArg Host.Outcome.next ?_
    rw [hon, decide_eq_false (by omega)]
    exact flagEvent_stopped ((setFld_rhocoUp _ _ _).trans hup) _ _ _
  obtain ⟨hfit, hwide, -, hflag⟩ := foi_spec n hn
  refine ⟨_, hgo, on_setFld_one _ _ (by simp [fFO]) (by simp only [fFO]; omega), rfl, ?_,
    State.besidesAll_trans (State.besidesAll_setFld _ _ _) (State.besidesAll_setFld _ _ _)⟩
  rw [State.fld_setFld_other _ _ _ _ (hflag 4 (by decide)), State.fld_setFld _ _ _ hfit, Nat.mod_eq_of_lt (by omega)]

/-! ### The supply of the outputs -/

/-- The latch when VFLD qualifies (R526). -/
def qualified (absent : Bool) (f : Field) : Field :=
  if absent then { f with latch := 0, safe := 0, safeLvl := 0, safed := 0, short := 0, therm := 0, retry := 0, vok := true }
  else { f with vok := true }

theorem vfld_moved (s : State) (f : Field → Field) (hu : u < 256) : ((s.setFld fFVMON_VFLD u).fioSet f).foSync.fio = f s.fio ∧
    ((s.setFld fFVMON_VFLD u).fioSet f).foSync.fld fFVMON_VFLD = u ∧ s.besidesAll ((s.setFld fFVMON_VFLD u).fioSet f).foSync := by
  refine ⟨?_, ?_, State.besidesAll_trans (State.besidesAll_setFld _ _ _) (moved_besidesAll _ _)⟩
  · rw [moved_fio, State.setFld_fio]
  · rw [moved_fld (by decide), State.fld_setFld _ _ _ (by decide)]
    exact Nat.mod_eq_of_lt (Nat.lt_of_lt_of_le hu (by decide))

theorem vfldQualified_absent (s : State) (hu : u < 256) : ∃ t, exec (.vfldQualified true u) s = .next t ∧ t.fio.latch = 0 ∧ t.fio.vok = true ∧
    t.fld fFVMON_VFLD = u ∧ t.on fFOSTAT_VFLDOK = true ∧ s.besidesAll t := by
  obtain ⟨hfio, hmon, hrest⟩ := vfld_moved s (qualified true) hu
  refine ⟨_, rfl, congrArg Field.latch hfio, congrArg Field.vok hfio, hmon, ?_, hrest⟩
  exact foSync_vfldok _

theorem vfldQualified_present (s : State) (hu : u < 256) : ∃ t, exec (.vfldQualified false u) s = .next t ∧ t.fio.latch = s.fio.latch ∧
    t.fio.vok = true ∧ s.besidesAll t := by
  obtain ⟨hfio, -, hrest⟩ := vfld_moved s (qualified false) hu
  exact ⟨_, rfl, (congrArg Field.latch hfio :), (congrArg Field.vok hfio :), hrest⟩

theorem vfldLost_goes (hu : u < 256) (h : s.fio.vok = true) : ∃ t, exec (.vfldLost u) s = .next t ∧ t.fio.vok = false ∧ t.fio.on = 0 ∧
    t.fio.latch = s.fio.latch ∧ t.fld fFVMON_VFLD = u ∧ s.besides t := by
  obtain ⟨hfio, hmon, hrest⟩ := told_spec s fFVMON_VFLD fFOFLAG_VFLDLOW u (fun f => { f with vok := false }) 0x0814 0xFF (by decide)
    (Nat.lt_of_lt_of_le hu (by decide)) (by decide) (by decide)
  refine ⟨_, congrArg Host.Outcome.next (if_neg (by simp [h])), ?_, ?_, ?_, hmon, hrest⟩ <;> rw [hfio]
  rfl

theorem vfldOvervoltage_goes (hu : u < 256) (h : s.fio.ov = false) : ∃ t, exec (.vfldOvervoltage u) s = .next t ∧ t.fio.ov = true ∧
    t.fio.on = 0 ∧ t.fio.latch = s.fio.latch ∧ t.fld fFVMON_VFLD = u ∧ s.besides t := by
  obtain ⟨hfio, hmon, hrest⟩ := told_spec s fFVMON_VFLD fFOFLAG_VFLDOV u (fun f => { f with ov := true }) 0x0814 0xFF (by decide)
    (Nat.lt_of_lt_of_le hu (by decide)) (by decide) (by decide)
  refine ⟨_, congrArg Host.Outcome.next (if_neg (by simp [h])), ?_, ?_, ?_, hmon, hrest⟩ <;> rw [hfio]
  simp [Field.on]

theorem vfldOvRecover_goes (s : State) (hu : u < 256) : ∃ t, exec (.vfldOvRecover u) s = .next t ∧ t.fio.ov = false ∧
    t.fio.latch = s.fio.latch ∧ t.fld fFVMON_VFLD = u ∧ s.besidesAll t := by
  obtain ⟨hfio, hmon, hrest⟩ := vfld_moved s (fun f => { f with ov := false }) hu
  exact ⟨_, rfl, (congrArg Field.ov hfio :), (congrArg Field.latch hfio :), hmon, hrest⟩

/-- Settles O31: each event of the outputs is a change of the latch, FOSTAT brought up to date, and at most one event told. -/
theorem fieldOutputs : Obligations.FieldOutputs := by
  unfold Obligations.FieldOutputs
  intro s v n u hb hl hn hu
  exact ⟨fun hlvl harm hf h0 => foctlWrite_armed hf hn h0 hlvl harm, fun harm hf => foctlWrite_unarmed hf harm, foctlWrite_forced v,
    fokick_right s, fokick_wrong s, keepalive_sends hb, keepalive_stopped, logicSilent_safe hl, logicSilent_keeps, keepaliveReturn_unsafed,
    outShort_retries hn hu, outShort_stays hn hu, outRetry_goes hn, outTherm_hot hl hn hu, outTherm_cool hn u, outOpen_flagged hn hu,
    vfldQualified_absent s hu, vfldQualified_present s hu, vfldLost_goes hu, vfldOvervoltage_goes hu, vfldOvRecover_goes s hu⟩

end Sys2Proof.Proofs
end

section
/-! PROOF. A descriptor's writes in the Nave while no block is claimed (R4, R379): every write acts at once. -/

namespace Sys2Proof.Proofs

open Sys2Proof Sys2Proof.Machine

variable {s t u : State} {a n : Nat}

/-- A register without bits that only the Sacristy may write (R6). -/
def openReg (a : Nat) : Bool :=
  match specOf a with
  | some r => decide (r.srw = 0) && decide (r.srwW1c = 0) && decide (r.srwWo = 0)
  | none => false

theorem claimed_none (hc : s.fld fSACCLAIM_CLAIM = 0) (k : Nat) : s.claimed k = false := by
  rw [State.claimed, hc, Nat.zero_testBit]

theorem claimSrw_none (hc : s.fld fSACCLAIM_CLAIM = 0) (a : Nat) : s.claimSrw a = 0 := by
  unfold State.claimSrw
  simp only [claimed_none hc, Bool.false_and, Bool.or_self, Bool.false_eq_true, if_false, Bool.not_false, if_true, ite_self]

theorem holdCuts_none (hc : s.fld fSACCLAIM_CLAIM = 0) (a : Nat) (v : Word) : s.holdCuts a v = (s.deferSync, v, false) := by
  unfold State.holdCuts
  simp only [hc, Nat.and_zero, ne_eq, not_true, and_false, if_false, List.foldl_fixed, if_true]

theorem vet_open (hc : s.fld fSACCLAIM_CLAIM = 0) (ha : openReg a = true) (v : Word) :
    s.vet .nave a v = ⟨s.deferSync, v, false, false⟩ := by
  unfold openReg at ha
  split at ha
  next r hr =>
    simp only [Bool.and_eq_true, decide_eq_true_eq] at ha
    obtain ⟨⟨hsrw, hw1c⟩, hwo⟩ := ha
    simp only [State.vet, hr, hsrw, hw1c, hwo, claimSrw_none hc, Nat.and_zero, Nat.or_zero, bne_self_eq_false, Bool.or_self, if_false,
      reduceCtorEq, Bool.false_eq_true, holdCuts_none hc]
    have hall : ~~~BitVec.ofNat 32 0 = BitVec.allOnes 32 := by decide
    rw [hall, BitVec.and_allOnes, BitVec.and_zero, BitVec.or_zero, BitVec.and_allOnes]
  next => cases ha

theorem setup_nil (s : State) (wr : State → Nat → Word → State) : s.setup wr [] = ⟨s, stOK, 0, [], false⟩ := rfl

theorem setup_cons (hc : s.fld fSACCLAIM_CLAIM = 0) (ha : openReg a = true) (wr : State → Nat → Word → State) (n : Nat)
    (ps : List (Nat × Nat)) : s.setup wr ((a, n) :: ps) = (wr s.deferSync a (BitVec.ofNat 32 n)).setup wr ps := by
  simp only [State.setup, State.naveWrites, vet_open hc ha, Bool.false_or]

theorem deferSync_fld {g : Fld} (h : vetFields.all (fun f => f.other g) = true) (s : State) : s.deferSync.fld g = s.fld g :=
  (deferSync_recorded s).kept g h

theorem deferSync_writes (s : State) : Writes vetFields s s.deferSync := (sets_writes s _).mono (by simp [vetFields])

theorem deferSync_fio (s : State) : s.deferSync.fio = s.fio := by
  rw [(deferSync_writes s).regs]

theorem deferSync_besidesAll (s : State) : s.besidesAll s.deferSync := (deferSync_recorded s).besidesAll

/-- A plain write in the Nave, after the cuts' record is brought up to date. -/
theorem navePlain_kept {g : Fld} (hg : g.addr ≠ a) (h : vetFields.all (fun f => f.other g) = true) (s : State) (v : Word) :
    (s.deferSync.plainWrite a v).fld g = s.fld g := by
  rw [plainWrite_kept hg, deferSync_fld h]

end Sys2Proof.Proofs
end

section
/-! PROOF. The field inputs and their entries in the event FIFO (R486, R487, R524, R525, R532). -/

namespace Sys2Proof.Proofs

open Sys2Proof Sys2Proof.Machine

variable {s t : State} {n x : Nat}

/-! ### An entry of the FIFO -/

/-- The FIFO with room takes an entry. -/
theorem evPush_room (hq : s.ring.evf.length < 64) (hd : s.fld fEVFSTAT_DROPPED = 0) (src unit code data : Nat) :
    s.evPush src unit code data =
      ((s.rgSet fun r => { r with
          evf := s.ring.evf ++
            [⟨s.now % 2 ^ 32, s.now / 2 ^ 32 + (src + 16 * unit + 256 * (code % 256)) * 2 ^ 16, data % 2 ^ 32, false, data / 2 ^ 32⟩]
          evFirst := 0 }).setFld fEVFSTAT_DROPPED 0).setFld fEVFSTAT_COUNT (s.ring.evf.length + 1) := by
  simp [State.evPush, dropPush, hd, State.evfSync, State.rgSet, Nat.not_le.mpr hq]

/-- The entry of a field input (Table 24.4). -/
def inputEntry (s : State) (n code v : Nat) : Evf := ⟨s.now % 2 ^ 32, s.now / 2 ^ 32 + (3 + 16 * n + 256 * code) * 2 ^ 16, v, false, 0⟩

theorem evPush_input (hq : s.ring.evf.length < 64) (hd : s.fld fEVFSTAT_DROPPED = 0) {code v : Nat} (hc : code < 256) (hv : v < 2 ^ 32) :
    (s.evPush 3 n code v).ring.evf = s.ring.evf ++ [inputEntry s n code v] ∧
      (s.evPush 3 n code v).fld fEVFSTAT_COUNT = s.ring.evf.length + 1 := by
  rw [evPush_room hq hd]
  refine ⟨?_, ?_⟩
  · rw [State.setFld_ring, State.setFld_ring, State.rgSet, inputEntry, Nat.mod_eq_of_lt hc, Nat.mod_eq_of_lt hv, Nat.div_eq_of_lt hv]
  · rw [State.fld_setFld _ _ _ (by decide)]
    exact Nat.mod_eq_of_lt (Nat.lt_of_le_of_lt (Nat.succ_le_of_lt hq) (by decide))

theorem setFld_now (s : State) (f : Fld) (v : Nat) : (s.setFld f v).now = s.now := rfl

theorem inputEntry_now (h : t.now = s.now) (n code v : Nat) : inputEntry t n code v = inputEntry s n code v := by
  rw [inputEntry, h, inputEntry]

theorem count_lt (s : State) (n : Nat) : s.fld (fFICNT_COUNT n) < 2 ^ 32 := fldOf_lt _ (fFICNT_COUNT n)

theorem other_comm {f g : Fld} (h : f.other g = true) : g.other f = true := by
  simp only [Fld.other, Fld.apart, Bool.or_eq_true, decide_eq_true_eq] at h ⊢
  rcases h with h | h | h
  · exact .inl (Ne.symm h)
  · exact .inr (.inr h)
  · exact .inr (.inl h)

/-- The fields an event of an input reads or writes beside its flag and its counter. -/
def inputFields : List Fld :=
  [fFISTAT_STATE, fFISTAT_BREAK, fFISTAT_OV, fFISTAT_REV, fFICTL_EN, fFICTL_EDGE, fEVFSTAT_DROPPED, fEVFSTAT_COUNT, fRGFLAG_EVDROP]

/-- The lowest bits of the input flags (Table 24.1). -/
def flagLows : List Nat := [0, 4, 8, 12, 16]

theorem flag_other : ∀ n < 4, ∀ lo ∈ flagLows, ∀ g ∈ fFICNT_COUNT n :: inputFields, (fFI lo n).other g = true := by decide +kernel

theorem flag_fits : ∀ n < 4, ∀ lo ∈ flagLows, 0 < (fFI lo n).w ∧ (fFI lo n).lo + (fFI lo n).w ≤ 32 := by decide +kernel

theorem count_other : ∀ n < 4, ∀ g ∈ inputFields, (fFICNT_COUNT n).other g = true := by decide +kernel

/-- The FIFO's fields are apart from an input's flag. -/
theorem evFields_flag (hn : n < 4) {lo : Nat} (hlo : lo ∈ flagLows) : evFields.all (fun f => f.other (fFI lo n)) = true := by
  have hsub : ∀ f ∈ evFields, f ∈ inputFields := by decide
  exact List.all_eq_true.mpr fun f hf => other_comm (flag_other n hn lo hlo f (List.mem_cons_of_mem _ (hsub f hf)))

theorem evFields_count (hn : n < 4) : evFields.all (fun f => f.other (fFICNT_COUNT n)) = true := by
  have hsub : ∀ f ∈ evFields, f ∈ inputFields := by decide
  exact List.all_eq_true.mpr fun f hf => other_comm (count_other n hn f (hsub f hf))

/-- An input's flag is set and its entry made. -/
theorem flagPush_spec (hq : s.ring.evf.length < 64) (hd : s.fld fEVFSTAT_DROPPED = 0) (hn : n < 4) {lo code : Nat}
    (hlo : lo ∈ flagLows) (hc : code < 256) :
    let t := (s.raise [fFI lo n]).evPush 3 n code (s.fld (fFICNT_COUNT n))
    t.on (fFI lo n) = true ∧ t.ring.evf = s.ring.evf ++ [inputEntry s n code (s.fld (fFICNT_COUNT n))] ∧
      t.fld fEVFSTAT_COUNT = s.ring.evf.length + 1 ∧ Within (fFI lo n :: evFields) s t := by
  obtain ⟨hpos, hfit⟩ := flag_fits n hn lo hlo
  simp only [State.raise_cons, State.raise_nil]
  have hdrop : (s.setFld (fFI lo n) 1).fld fEVFSTAT_DROPPED = 0 := by
    rw [State.fld_setFld_other _ _ _ _ (flag_other n hn lo hlo _ (by simp [inputFields])), hd]
  obtain ⟨hevf, hcount⟩ := evPush_input (s := s.setFld (fFI lo n) 1) (n := n) hq hdrop hc (count_lt s n)
  have hpush := evPush_within (s.setFld (fFI lo n) 1) 3 n code (s.fld (fFICNT_COUNT n))
  refine ⟨?_, hevf, hcount, ?_⟩
  · rw [on_of_fld (hpush.kept _ (evFields_flag hn hlo))]
    exact on_setFld_one _ _ hpos hfit
  · exact ((Within.refl _ s).setFld (List.mem_cons_self ..) 1).trans (hpush.mono (List.subset_cons_self _ _))

/-- What FISTAT reads is kept by the flag and the entry. -/
theorem stat_kept (hn : n < 4) {lo : Nat} (hlo : lo ∈ flagLows) {g : Fld}
    (hg : g ∈ [fFISTAT_STATE, fFISTAT_BREAK, fFISTAT_OV, fFISTAT_REV, fFICTL_EN, fFICTL_EDGE]) :
    (fFI lo n :: evFields).all (fun f => f.other g) = true := by
  have hev : ∀ g ∈ [fFISTAT_STATE, fFISTAT_BREAK, fFISTAT_OV, fFISTAT_REV, fFICTL_EN, fFICTL_EDGE],
      evFields.all (fun f => f.other g) = true ∧ g ∈ inputFields := by decide
  obtain ⟨hother, hmem⟩ := hev g hg
  rw [List.all_cons, hother, flag_other n hn lo hlo g (List.mem_cons_of_mem _ hmem)]
  rfl

/-! ### Edges -/

/-- A rise of input n before its flag: its state and its counter (R525). -/
def risen (s : State) (n : Nat) : State :=
  (s.setFld fFISTAT_STATE (bitTo (s.fld fFISTAT_STATE) n true)).setFld (fFICNT_COUNT n) (s.fld (fFICNT_COUNT n) + 1)

theorem risen_kept (hn : n < 4) {g : Fld} (hg : g ∈ inputFields) (hne : fFISTAT_STATE.other g = true) : (risen s n).fld g = s.fld g := by
  rw [risen, State.fld_setFld_other _ _ _ _ (count_other n hn g hg), State.fld_setFld_other _ _ _ _ hne]

theorem risen_count (hc : s.fld (fFICNT_COUNT n) < 2 ^ 32 - 1) : (risen s n).fld (fFICNT_COUNT n) = s.fld (fFICNT_COUNT n) + 1 := by
  rw [risen, State.fld_setFld _ _ _ (by simp [fFICNT_COUNT])]
  exact Nat.mod_eq_of_lt (Nat.lt_of_lt_of_le (Nat.succ_lt_succ hc) (by simp [fFICNT_COUNT]))

theorem risen_state (hn : n < 4) (h0 : s.fld fFISTAT_STATE = 0) : (risen s n).fld fFISTAT_STATE = 2 ^ n := by
  rw [risen, State.fld_setFld_other _ _ _ _ (count_other n hn _ (by simp [inputFields])), State.fld_setFld _ _ _ (by decide), h0, bitTo_zero]
  exact Nat.mod_eq_of_lt (Nat.pow_lt_pow_right (by decide) hn)

/-- The four inputs with both edges selected. -/
theorem edge_selected : ∀ n < 4, (bitsOf 0xFF (2 * n) 2).testBit 0 = true := by decide

theorem fieldEdge_rise (hn : n < 4) (hedge : s.fld fFICTL_EDGE = 0xFF) : s.fieldEdge n true =
    ((risen s n).raise [fFI 0 n]).evPush 3 n 0 (((risen s n).raise [fFI 0 n]).fld (fFICNT_COUNT n)) := by
  have hstate : fFISTAT_STATE.other (fFICNT_COUNT n) = true := other_comm (count_other n hn _ (by simp [inputFields]))
  have heq : (s.setFld fFISTAT_STATE (bitTo (s.fld fFISTAT_STATE) n true)).setFld (fFICNT_COUNT n)
      ((s.setFld fFISTAT_STATE (bitTo (s.fld fFISTAT_STATE) n true)).fld (fFICNT_COUNT n) + 1) = risen s n := by
    rw [State.fld_setFld_other _ _ _ _ hstate, risen]
  have hsel : ((risen s n).raise [fFI 0 n]).fld fFICTL_EDGE = 0xFF := by
    rw [State.raise_cons, State.raise_nil, State.fld_setFld_other _ _ _ _ (flag_other n hn 0 (by decide) _ (by simp [inputFields])),
      risen_kept hn (by simp [inputFields]) (by decide), hedge]
  simp only [State.fieldEdge, if_true, heq, hsel, edge_selected n hn, Bool.true_and, Bool.true_or, b2n, Bool.not_true, Bool.false_eq_true,
    if_false]

/-- Whether an input that is on and neither in break nor reversed has changed (R525). -/
def inputMoves (x : Nat) (t : State) (j : Nat) : Bool :=
  ((t.fld fFICTL_EN).testBit j && !(t.fld fFISTAT_BREAK).testBit j && !(t.fld fFISTAT_REV).testBit j) &&
    (t.fld fFISTAT_STATE).testBit j != x.testBit j

theorem fieldInputEdge_rise (hb : s.blockOn 23 = true) (hn : n < 4) (hd : s.fld fEVFSTAT_DROPPED = 0) (hq : s.ring.evf.length < 64)
    (h0 : s.fld fFISTAT_STATE = 0) (hen : s.fld fFICTL_EN = 15) (hbrk : s.fld fFISTAT_BREAK = 0) (hrev : s.fld fFISTAT_REV = 0)
    (hedge : s.fld fFICTL_EDGE = 0xFF) (hc : s.fld (fFICNT_COUNT n) < 2 ^ 32 - 1) :
    ∃ t, exec (.fieldInputEdge (2 ^ n)) s = .next t ∧ t.fld fFISTAT_STATE = 2 ^ n ∧ t.fld (fFICNT_COUNT n) = s.fld (fFICNT_COUNT n) + 1 ∧
      t.on (fFI 0 n) = true ∧ t.ring.evf = s.ring.evf ++ [inputEntry s n 0 (s.fld (fFICNT_COUNT n) + 1)] ∧
      t.fld fEVFSTAT_COUNT = s.ring.evf.length + 1 ∧ s.besidesAll t := by
  have hlow : (0 : Nat) ∈ flagLows := by decide
  have hcount : ((risen s n).raise [fFI 0 n]).fld (fFICNT_COUNT n) = (risen s n).fld (fFICNT_COUNT n) := by
    rw [State.raise_cons, State.raise_nil, State.fld_setFld_other _ _ _ _ (flag_other n hn 0 hlow _ (List.mem_cons_self ..))]
  have hdrop : (risen s n).fld fEVFSTAT_DROPPED = 0 := by rw [risen_kept hn (by simp [inputFields]) (by decide), hd]
  obtain ⟨hflag, hevf, hlen, hin⟩ := flagPush_spec (s := risen s n) (n := n) hq hdrop hn hlow (show 0 < 256 by decide)
  have hrise := fieldEdge_rise hn hedge
  rw [hcount] at hrise
  rw [← hrise] at hflag hevf hlen hin
  have hstate : (s.fieldEdge n true).fld fFISTAT_STATE = 2 ^ n := by
    rw [hin.kept _ (stat_kept hn hlow (by simp)), risen_state hn h0]
  have hkept {g : Fld} (hg : g ∈ [fFICTL_EN, fFISTAT_BREAK, fFISTAT_REV]) : (s.fieldEdge n true).fld g = s.fld g := by
    have hmem : ∀ g ∈ [fFICTL_EN, fFISTAT_BREAK, fFISTAT_REV], g ∈ [fFISTAT_STATE, fFISTAT_BREAK, fFISTAT_OV, fFISTAT_REV, fFICTL_EN, fFICTL_EDGE] ∧
        g ∈ inputFields ∧ fFISTAT_STATE.other g = true := by decide
    obtain ⟨hstat, hinput, hne⟩ := hmem g hg
    rw [hin.kept _ (stat_kept hn hlow hstat), risen_kept hn hinput hne]
  have hbit : ∀ j < 4, (15 : Nat).testBit j = true := by decide
  have hpow (j : Nat) : (2 ^ n).testBit j = decide (j = n) := by rw [Nat.testBit_two_pow]; exact decide_eq_decide.mpr eq_comm
  have hgo : exec (.fieldInputEdge (2 ^ n)) s = .next (s.fieldEdge n true) := by
    refine congrArg Host.Outcome.next ?_
    rw [hb, Bool.not_true, if_neg Bool.false_ne_true]
    have hself : (2 ^ n).testBit n = true := by rw [hpow, decide_eq_true rfl]
    have hsingle := foldl_single (f := fun t j => t.fieldEdge j ((2 ^ n).testBit j)) (k := n) (a := s) (p := inputMoves (2 ^ n))
      (List.range 4) List.nodup_range (List.mem_range.mpr hn)
      (fun j hj => by
        rw [inputMoves, hen, hbrk, hrev, h0, hbit j (List.mem_range.mp hj), hpow]
        simp)
      (fun j hj hjn => by
        rw [hself, inputMoves, hkept (by simp), hkept (by simp), hkept (by simp), hen, hbrk, hrev, hstate, hbit j (List.mem_range.mp hj), hpow]
        simp)
    rw [hself] at hsingle
    exact hsingle
  refine ⟨_, hgo, hstate, ?_, hflag, ?_, hlen, ?_⟩
  · rw [hin.kept _ ?_, risen_count hc]
    rw [List.all_cons, evFields_count hn, flag_other n hn 0 hlow _ (List.mem_cons_self ..)]
    rfl
  · rw [hevf, risen_count hc, inputEntry_now (t := risen s n) (s := s) rfl]
    rfl
  · exact State.besidesAll_trans (State.besidesAll_trans (State.besidesAll_setFld _ _ _) (State.besidesAll_setFld _ _ _)) hin.besidesAll

end Sys2Proof.Proofs
end

section
/-! PROOF. Breaks, stuck inputs, voltages out of range and reads of the FIFO (R486, R532); the field descriptors (R534). -/

namespace Sys2Proof.Proofs

open Sys2Proof Sys2Proof.Machine

variable {s t : State} {n x : Nat} {d : Desc}

theorem fieldInputEdge_off (hen : s.fld fFICTL_EN = 0) (x : Nat) : exec (.fieldInputEdge x) s = .next s := by
  refine congrArg Host.Outcome.next ?_
  split
  · rfl
  · refine foldl_none (p := inputMoves x) _ fun j _ => ?_
    rw [inputMoves, hen, Nat.zero_testBit]
    rfl

/-- An input whose wire broke, before its flag (R532). -/
def broken (s : State) (n : Nat) : State :=
  (s.setFld fFISTAT_BREAK (bitTo (s.fld fFISTAT_BREAK) n true)).setFld fFISTAT_STATE (bitTo (s.fld fFISTAT_STATE) n false)

theorem broken_bits (hn : n < 4) : ((broken s n).fld fFISTAT_BREAK).testBit n = true ∧ ((broken s n).fld fFISTAT_STATE).testBit n = false := by
  have hother : (s.setFld fFISTAT_BREAK (bitTo (s.fld fFISTAT_BREAK) n true)).fld fFISTAT_STATE = s.fld fFISTAT_STATE :=
    State.fld_setFld_other _ _ _ _ (by decide)
  refine ⟨?_, ?_⟩
  · rw [broken, State.fld_setFld_other _ _ _ _ (by decide)]
    exact testBit_setFld_bitTo s fFISTAT_BREAK hn (by decide) true
  · rw [broken, ← hother]
    exact testBit_setFld_bitTo _ fFISTAT_STATE hn (by decide) false

theorem inBreak_flagged (hb : s.blockOn 23 = true) (hn : n < 4) (hd : s.fld fEVFSTAT_DROPPED = 0) (hq : s.ring.evf.length < 64)
    (hen : (s.fld fFICTL_EN).testBit n = true) (hbk : (s.fld fFICTL_BRKEN).testBit n = true)
    (hbrk : (s.fld fFISTAT_BREAK).testBit n = false) :
    ∃ t, exec (.inBreak n) s = .next t ∧ (t.fld fFISTAT_BREAK).testBit n = true ∧ (t.fld fFISTAT_STATE).testBit n = false ∧
      t.on (fFI 4 n) = true ∧ t.ring.evf = s.ring.evf ++ [inputEntry s n 2 (s.fld (fFICNT_COUNT n))] ∧ s.besidesAll t := by
  have hlow : (4 : Nat) ∈ flagLows := by decide
  have hkept {g : Fld} (h1 : fFISTAT_BREAK.other g = true) (h2 : fFISTAT_STATE.other g = true) : (broken s n).fld g = s.fld g := by
    rw [broken, State.fld_setFld_other _ _ _ _ h2, State.fld_setFld_other _ _ _ _ h1]
  have hcount : (broken s n).fld (fFICNT_COUNT n) = s.fld (fFICNT_COUNT n) :=
    hkept (other_comm (count_other n hn _ (by simp [inputFields]))) (other_comm (count_other n hn _ (by simp [inputFields])))
  obtain ⟨hflag, hevf, -, hin⟩ :=
    flagPush_spec (s := broken s n) (n := n) hq (by rw [hkept (by decide) (by decide), hd]) hn hlow (show 2 < 256 by decide)
  have hraise : ((broken s n).raise [fFI 4 n]).fld (fFICNT_COUNT n) = (broken s n).fld (fFICNT_COUNT n) := by
    rw [State.raise_cons, State.raise_nil, State.fld_setFld_other _ _ _ _ (flag_other n hn 4 hlow _ (List.mem_cons_self ..))]
  have hgo : exec (.inBreak n) s = .next (((broken s n).raise [fFI 4 n]).evPush 3 n 2 ((broken s n).fld (fFICNT_COUNT n))) := by
    refine congrArg Host.Outcome.next ?_
    rw [decide_eq_false (by omega), hb, hen, hbk, hbrk]
    simp only [State.sets_cons, State.sets_nil, Bool.not_true, Bool.or_self, Bool.false_eq_true, if_false]
    rw [← broken]
  obtain ⟨hbit, hstate⟩ := broken_bits (s := s) hn
  refine ⟨_, hgo, ?_, ?_, hflag, ?_, ?_⟩
  · rw [hin.kept _ (stat_kept hn hlow (by simp)), hbit]
  · rw [hin.kept _ (stat_kept hn hlow (by simp)), hstate]
  · rw [hevf, hcount, inputEntry_now (t := broken s n) (s := s) rfl]
    rfl
  · exact State.besidesAll_trans (State.besidesAll_trans (State.besidesAll_setFld _ _ _) (State.besidesAll_setFld _ _ _)) hin.besidesAll

theorem inBreakClear_goes (s : State) (hn : n < 4) : ∃ t, exec (.inBreakClear n) s = .next t ∧ (t.fld fFISTAT_BREAK).testBit n = false ∧
    t.ring = s.ring ∧ s.besidesAll t :=
  ⟨_, congrArg Host.Outcome.next (if_pos hn), testBit_setFld_bitTo s fFISTAT_BREAK hn (by decide) false, State.setFld_ring _ _ _,
    State.besidesAll_setFld _ _ _⟩

theorem inStuck_flagged (hb : s.blockOn 23 = true) (hn : n < 4) (hd : s.fld fEVFSTAT_DROPPED = 0) (hq : s.ring.evf.length < 64)
    (hen : (s.fld fFICTL_EN).testBit n = true) (ht : bitsOf (s.fld fFISTUCK_TMO) (8 * n) 8 ≠ 0) :
    ∃ t, exec (.inStuck n) s = .next t ∧ t.on (fFI 12 n) = true ∧
      t.ring.evf = s.ring.evf ++ [inputEntry s n 3 (s.fld (fFICNT_COUNT n))] ∧ t.fld fFISTAT_STATE = s.fld fFISTAT_STATE ∧ s.besidesAll t := by
  obtain ⟨hflag, hevf, -, hin⟩ := flagPush_spec (s := s) (n := n) hq hd hn (show (12 : Nat) ∈ flagLows by decide) (show 3 < 256 by decide)
  have hgo : exec (.inStuck n) s = .next ((s.raise [fFI 12 n]).evPush 3 n 3 (s.fld (fFICNT_COUNT n))) := by
    refine congrArg Host.Outcome.next (if_neg ?_)
    rw [decide_eq_false (by omega), hb, hen, decide_eq_false ht]
    exact Bool.false_ne_true
  exact ⟨_, hgo, hflag, hevf, hin.kept _ (stat_kept hn (by decide) (by simp)), hin.besidesAll⟩

/-! ### Voltages out of range -/

/-- An input's range is told, before its flags (R532). -/
def ranged (s : State) (n : Nat) (ov rev : Bool) : State :=
  (s.setFld fFISTAT_OV (bitTo (s.fld fFISTAT_OV) n ov)).setFld fFISTAT_REV (bitTo (s.fld fFISTAT_REV) n rev)

theorem ranged_bits (hn : n < 4) (ov rev : Bool) : ((ranged s n ov rev).fld fFISTAT_OV).testBit n = ov ∧
    ((ranged s n ov rev).fld fFISTAT_REV).testBit n = rev := by
  have hother : (s.setFld fFISTAT_OV (bitTo (s.fld fFISTAT_OV) n ov)).fld fFISTAT_REV = s.fld fFISTAT_REV :=
    State.fld_setFld_other _ _ _ _ (by decide)
  refine ⟨?_, ?_⟩
  · rw [ranged, State.fld_setFld_other _ _ _ _ (by decide)]
    exact testBit_setFld_bitTo s fFISTAT_OV hn (by decide) ov
  · rw [ranged, ← hother]
    exact testBit_setFld_bitTo _ fFISTAT_REV hn (by decide) rev

theorem ranged_besidesAll (s : State) (n : Nat) (ov rev : Bool) : s.besidesAll (ranged s n ov rev) :=
  State.besidesAll_trans (State.besidesAll_setFld _ _ _) (State.besidesAll_setFld _ _ _)

theorem inOvervoltage_bad (hb : s.blockOn 23 = true) (hn : n < 4) : ∃ t, exec (.inOvervoltage n true true) s = .next t ∧
    (t.fld fFISTAT_OV).testBit n = true ∧ (t.fld fFISTAT_REV).testBit n = true ∧ t.on (fFI 8 n) = true ∧ t.on (fFI 16 n) = true ∧
    (t.fld fFISTAT_STATE).testBit n = false ∧ s.besidesAll t := by
  have h8 : (8 : Nat) ∈ flagLows := by decide
  have h16 : (16 : Nat) ∈ flagLows := by decide
  have hflags : (fFI 16 n).other (fFI 8 n) = true := by
    have hall : ∀ n < 4, (fFI 16 n).other (fFI 8 n) = true := by decide
    exact hall n hn
  have hover {lo : Nat} (hlo : lo ∈ flagLows) : fFISTAT_STATE.other (fFI lo n) = true :=
    other_comm (flag_other n hn lo hlo _ (by simp [inputFields]))
  let u := ((ranged s n true true).setFld (fFI 8 n) 1).setFld (fFI 16 n) 1
  have hstate : u.fld fFISTAT_STATE = ((ranged s n true true).setFld (fFI 8 n) 1).fld fFISTAT_STATE :=
    State.fld_setFld_other _ _ _ _ (flag_other n hn 16 h16 _ (by simp [inputFields]))
  have hgo : exec (.inOvervoltage n true true) s =
      .next (u.setFld fFISTAT_STATE (bitTo (((ranged s n true true).setFld (fFI 8 n) 1).fld fFISTAT_STATE) n false)) := by
    refine congrArg Host.Outcome.next ?_
    rw [decide_eq_false (by omega), hb]
    rfl
  have hkept {g : Fld} (hg : g ∈ [fFISTAT_OV, fFISTAT_REV]) : (u.setFld fFISTAT_STATE
      (bitTo (((ranged s n true true).setFld (fFI 8 n) 1).fld fFISTAT_STATE) n false)).fld g = (ranged s n true true).fld g := by
    have hmem : ∀ g ∈ [fFISTAT_OV, fFISTAT_REV], fFISTAT_STATE.other g = true ∧ g ∈ inputFields := by decide
    obtain ⟨hother, hin⟩ := hmem g hg
    rw [State.fld_setFld_other _ _ _ _ hother, State.fld_setFld_other _ _ _ _ (flag_other n hn 16 h16 _ (List.mem_cons_of_mem _ hin)),
      State.fld_setFld_other _ _ _ _ (flag_other n hn 8 h8 _ (List.mem_cons_of_mem _ hin))]
  obtain ⟨hov, hrev⟩ := ranged_bits (s := s) hn true true
  obtain ⟨hpos8, hfit8⟩ := flag_fits n hn 8 h8
  obtain ⟨hpos16, hfit16⟩ := flag_fits n hn 16 h16
  refine ⟨_, hgo, ?_, ?_, ?_, ?_, ?_, ?_⟩
  · rw [hkept (by simp), hov]
  · rw [hkept (by simp), hrev]
  · rw [on_setFld_other _ _ _ _ (hover h8), on_setFld_other _ _ _ _ hflags]
    exact on_setFld_one _ _ hpos8 hfit8
  · rw [on_setFld_other _ _ _ _ (hover h16)]
    exact on_setFld_one _ _ hpos16 hfit16
  · rw [← hstate]
    exact testBit_setFld_bitTo u fFISTAT_STATE hn (by decide) false
  · exact State.besidesAll_trans (ranged_besidesAll s n true true) (State.besidesAll_trans (State.besidesAll_setFld _ _ _)
      (State.besidesAll_trans (State.besidesAll_setFld _ _ _) (State.besidesAll_setFld _ _ _)))

theorem inOvervoltage_back (hb : s.blockOn 23 = true) (hn : n < 4) : ∃ t, exec (.inOvervoltage n false false) s = .next t ∧
    (t.fld fFISTAT_OV).testBit n = false ∧ (t.fld fFISTAT_REV).testBit n = false ∧ t.reg rFIFLAG = s.reg rFIFLAG ∧ s.besidesAll t := by
  have hgo : exec (.inOvervoltage n false false) s = .next (ranged s n false false) := by
    refine congrArg Host.Outcome.next ?_
    rw [decide_eq_false (by omega), hb]
    rfl
  obtain ⟨hov, hrev⟩ := ranged_bits (s := s) hn false false
  refine ⟨_, hgo, hov, hrev, ?_, ranged_besidesAll s n false false⟩
  rw [ranged, reg_setFld_ne _ _ _ _ (by decide), reg_setFld_ne _ _ _ _ (by decide)]

theorem evf2Read_takes (hq : s.ring.evf.length < 64) {e : Evf} {rest : List Evf} (h : s.ring.evf = e :: rest) :
    ∃ t, exec (.evf2Read false) s = .next t ∧ t.ring.evf = rest ∧ t.fld fEVFSTAT_COUNT = rest.length ∧
      t.out = .reply (rEVF 2) (leBytes 4 e.w2) :: s.out ∧ t.mem = s.mem ∧ s.besides t := by
  have hgo : exec (.evf2Read false) s = .next (((s.rgSet fun r => { r with evf := rest }).setFld fEVFSTAT_COUNT rest.length).emit
      (.reply (rEVF 2) (leBytes 4 e.w2))) := by
    refine congrArg Host.Outcome.next ?_
    rw [h]
    rfl
  have hlen : rest.length < 128 := by
    rw [h, List.length_cons] at hq
    omega
  refine ⟨_, hgo, rfl, ?_, rfl, rfl, ⟨rfl, rfl, rfl, rfl, rfl, rfl⟩⟩
  rw [fld_of_regs (emit_posted _ _).regs, State.fld_setFld _ _ _ (by decide)]
  exact Nat.mod_eq_of_lt hlen

end Sys2Proof.Proofs
end

section
/-! PROOF. The field descriptors (Table 24.4, R534). -/

namespace Sys2Proof.Proofs

open Sys2Proof Sys2Proof.Machine

variable {s t : State} {n x : Nat} {d : Desc}

/-- A little-endian number fits its bytes. -/
theorem leNat_lt (bs : List Byte) : leNat bs < 256 ^ bs.length := by
  induction bs with
  | nil => exact Nat.one_pos
  | cons b bs ih =>
    have hb : b.toNat < 256 := b.isLt
    rw [leNat, List.length_cons, Nat.pow_succ]
    omega

theorem dsArgs_lt (d : Desc) (off n : Nat) : dsArgs d off n < 256 ^ n :=
  (leNat_lt _).trans_le (Nat.pow_le_pow_right (by decide) (List.length_take_le _ _))

theorem fieldRegs_open : ∀ a ∈ [rFICTL, rFISTUCK, rFOCTL, rFICNT 0, rFICNT 1, rFICNT 2, rFICNT 3], openReg a = true := by decide +kernel

theorem specOf_fictl : specOf rFICTL = some ⟨0x40017000, 1, 0, 0xFFFFFFF, 0, 0, 0, 0, 0, 0⟩ := by decide +kernel

theorem specOf_fistuck : specOf rFISTUCK = some ⟨0x40017010, 1, 0, 0xFFFFFFFF, 0, 0, 0, 0, 0, 0⟩ := by decide +kernel

theorem specOf_ficnt (n : Fin 4) : specOf (rFICNT n.val) = some ⟨0x40017020, 4, 4, 0xFFFFFFFF, 0, 0, 0, 0, 0, 0⟩ := by
  revert n
  decide +kernel

/-- The fields of the Nave's records and of the state are apart from block 23's configuration. -/
def fioConfig : List Fld := [fFICTL_EN, fFISTUCK_TMO, fFOCTL_LEVEL, fFOCTL_ARM, fSACCLAIM_CLAIM, fCLKSTAT_FORCED]

theorem deferSync_config {g : Fld} (hg : g ∈ fioConfig) (s : State) : s.deferSync.fld g = s.fld g := by
  have hall : ∀ g ∈ fioConfig, vetFields.all (fun f => f.other g) = true := by decide
  exact deferSync_fld (hall g hg) s

/-- A write of FICTL clears the states and breaks of the inputs it turns off. -/
theorem fiWrite_fictl (s : State) (v : Word) : ∃ st brk, s.fiWrite rFICTL v = ((s.plainWrite rFICTL v).setFld fFISTAT_STATE st).setFld fFISTAT_BREAK brk :=
  ⟨_, _, rfl⟩

theorem fictl_written (s : State) (v : Word) : (s.fiWrite rFICTL v).fld fFICTL_EN = fldOf v fFICTL_EN ∧
    (∀ g ∈ fioConfig, g.addr ≠ rFICTL → (s.fiWrite rFICTL v).fld g = s.fld g) ∧ s.besidesAll (s.fiWrite rFICTL v) := by
  obtain ⟨st, brk, heq⟩ := fiWrite_fictl s v
  have hall : ∀ g ∈ fioConfig, fFISTAT_STATE.other g = true ∧ fFISTAT_BREAK.other g = true := by decide
  have hkept {g : Fld} (hg : g ∈ fioConfig) : (s.fiWrite rFICTL v).fld g = (s.plainWrite rFICTL v).fld g := by
    obtain ⟨hstate, hbreak⟩ := hall g hg
    rw [heq, State.fld_setFld_other _ _ _ _ hbreak, State.fld_setFld_other _ _ _ _ hstate]
  refine ⟨?_, fun g hg hne => ?_, ?_⟩
  · rw [hkept (by simp [fioConfig])]
    exact fld_plainWrite_stored s v specOf_fictl rfl (by decide)
  · rw [hkept hg, plainWrite_kept hne]
  · rw [heq]
    exact State.besidesAll_trans (plainWrite_besidesAll s rFICTL v)
      (State.besidesAll_trans (State.besidesAll_setFld _ _ _) (State.besidesAll_setFld _ _ _))

theorem fistuck_written (s : State) (v : Word) : s.fiWrite rFISTUCK v = s.plainWrite rFISTUCK v := by
  rw [State.fiWrite, if_neg (by decide), if_neg (by decide), if_neg (by decide)]

theorem foctl_written (s : State) (v : Word) : s.fiWrite rFOCTL v = s.foWriteCtl v := by
  rw [State.fiWrite, if_pos rfl]

theorem foctl_kept (v : Word) {g : Fld} (hg : g ∈ [fFICTL_EN, fFISTUCK_TMO]) (h : s.on fCLKSTAT_FORCED = false) :
    (s.foWriteCtl v).fld g = s.fld g := by
  have hall : ∀ g ∈ [fFICTL_EN, fFISTUCK_TMO], g.addr ≠ rFOCTL ∧ outputFields.all (fun f => f.other g) = true := by decide
  obtain ⟨hne, hout⟩ := hall g hg
  have hforced : (s.plainWrite rFOCTL v).on fCLKSTAT_FORCED = false := by
    rw [on_of_fld (plainWrite_kept (by decide) s v), h]
  rw [State.foWriteCtl, hforced, if_neg Bool.false_ne_true, foApply_eq, moved_fld hout, plainWrite_kept hne]

/-- A word whose low byte is another's reads the other's LEVEL and ARM. -/
theorem lowByte_kept (y : Nat) (r : Word) {g : Fld} (hg : g ∈ [fFOCTL_LEVEL, fFOCTL_ARM]) :
    fldOf (BitVec.ofNat 32 (y / 256 * 256 + r.toNat % 256)) g = fldOf r g := by
  have hfit : ∀ g ∈ [fFOCTL_LEVEL, fFOCTL_ARM], g.lo + g.w ≤ 8 := by decide
  have h8 := hfit g hg
  apply Nat.eq_of_testBit_eq
  intro j
  rw [fldOf_bit, fldOf_bit]
  by_cases hj : j < g.w
  case neg => simp [hj]
  case pos =>
    have hlow : g.lo + j < 8 := by omega
    have hlow32 : g.lo + j < 32 := by omega
    have hbit : (y / 256 * 256 + r.toNat % 256).testBit (g.lo + j) = r.toNat.testBit (g.lo + j) := by
      rw [show (256 : Nat) = 2 ^ 8 from rfl, Nat.mul_comm, Nat.testBit_two_pow_mul_add _ (Nat.mod_lt _ (by decide)), if_pos hlow,
        Nat.testBit_mod_two_pow]
      simp [hlow]
    simp only [hj, decide_true, Bool.true_and, BitVec.getLsbD_ofNat, hlow32, hbit]
    rfl

theorem fieldSetup_stores (hr : s.ready d = true) (hrole : s.role ≠ .loop) (hc : s.fld fSACCLAIM_CLAIM = 0) (hf : s.on fCLKSTAT_FORCED = false) :
    ∃ t, exec (.fieldSetup d) s = .next (t.complete d stOK 0 []) ∧ t.fld fFICTL_EN = dsArgs d 0 4 % 16 ∧
      t.fld fFISTUCK_TMO = dsArgs d 4 4 ∧ t.fld fFOCTL_LEVEL = s.fld fFOCTL_LEVEL ∧ t.fld fFOCTL_ARM = s.fld fFOCTL_ARM ∧ s.besidesAll t := by
  have hopen (a : Nat) (ha : a ∈ [rFICTL, rFISTUCK, rFOCTL]) : openReg a = true :=
    fieldRegs_open a (by simp only [List.mem_cons, List.not_mem_nil, or_false] at ha ⊢; tauto)
  -- the three registers one after the other
  obtain ⟨u, hu⟩ : ∃ u, u = s.deferSync.fiWrite rFICTL (BitVec.ofNat 32 (dsArgs d 0 4)) := ⟨_, rfl⟩
  obtain ⟨w, hw⟩ : ∃ w, w = u.deferSync.plainWrite rFISTUCK (BitVec.ofNat 32 (dsArgs d 4 4)) := ⟨_, rfl⟩
  obtain ⟨v, hv⟩ : ∃ v, v = BitVec.ofNat 32 (dsArgs d 8 4 / 256 * 256 + (s.reg rFOCTL).toNat % 256) := ⟨_, rfl⟩
  obtain ⟨hen, hukept, hurest⟩ := fictl_written s.deferSync (BitVec.ofNat 32 (dsArgs d 0 4))
  rw [← hu] at hen hukept hurest
  have hufld {g : Fld} (hg : g ∈ fioConfig) (hne : g.addr ≠ rFICTL) : u.fld g = s.fld g := by
    rw [hukept g hg hne, deferSync_config hg]
  have hwfld {g : Fld} (hg : g ∈ fioConfig) (hne : g.addr ≠ rFISTUCK) : w.fld g = u.fld g := by
    rw [hw, plainWrite_kept hne, deferSync_config hg]
  have huclaim : u.fld fSACCLAIM_CLAIM = 0 := by rw [hufld (by simp [fioConfig]) (by decide), hc]
  have hwclaim : w.fld fSACCLAIM_CLAIM = 0 := by rw [hwfld (by simp [fioConfig]) (by decide), huclaim]
  have hforced : w.deferSync.on fCLKSTAT_FORCED = false := by
    rw [on_of_fld (deferSync_config (by simp [fioConfig]) w), on_of_fld (hwfld (by simp [fioConfig]) (by decide)),
      on_of_fld (hufld (by simp [fioConfig]) (by decide)), hf]
  obtain ⟨-, hstored, -, hrest⟩ := foWriteCtl_passed (s := w.deferSync) v hforced
  have hact : s.setup State.fiWrite [(rFICTL, dsArgs d 0 4), (rFISTUCK, dsArgs d 4 4),
      (rFOCTL, dsArgs d 8 4 / 256 * 256 + (s.reg rFOCTL).toNat % 256)] = ⟨w.deferSync.foWriteCtl v, stOK, 0, [], false⟩ := by
    rw [setup_cons hc (hopen _ (by simp)), ← hu, setup_cons huclaim (hopen _ (by simp)), fistuck_written, ← hw,
      setup_cons hwclaim (hopen _ (by simp)), setup_nil, foctl_written, ← hv]
  have hin : s.fioRole = true := by simp [State.fioRole, hrole]
  refine ⟨_, congrArg Host.Outcome.next ((congrArg (fun b => s.runDesc d b _) hin).trans (runDesc_done hr hact)), ?_, ?_, ?_, ?_, ?_⟩
  · rw [foctl_kept v (by simp) hforced, deferSync_config (by simp [fioConfig]), hwfld (by simp [fioConfig]) (by decide), hen]
    have hfld : ∀ y, fldOf (BitVec.ofNat 32 y) fFICTL_EN = y % 16 := fun y => by
      rw [fldOf, BitVec.extractLsb'_toNat, BitVec.toNat_ofNat]
      simp only [fFICTL_EN, Nat.shiftRight_zero]
      omega
    exact hfld _
  · rw [foctl_kept v (by simp) hforced, deferSync_config (by simp [fioConfig]), hw,
      fld_plainWrite_stored _ _ specOf_fistuck rfl (by decide), fldOf_whole _ rfl rfl, BitVec.toNat_ofNat]
    exact Nat.mod_eq_of_lt (dsArgs_lt d 4 4)
  · rw [hstored _ (by simp), hv]
    exact lowByte_kept _ _ (by simp)
  · rw [hstored _ (by simp), hv]
    exact lowByte_kept _ _ (by simp)
  · have hsd : s.besidesAll u := State.besidesAll_trans (deferSync_besidesAll s) hurest
    have huw : u.besidesAll w := by
      rw [hw]
      exact State.besidesAll_trans (deferSync_besidesAll u) (plainWrite_besidesAll _ _ _)
    exact State.besidesAll_trans (State.besidesAll_trans hsd huw) (State.besidesAll_trans (deferSync_besidesAll w) hrest)

/-! ### Levels -/

/-- FOCTL with the levels and the armed outputs of FIELD_OUT. -/
def outWord (s : State) (d : Desc) : Word := putFld (putFld (s.reg rFOCTL) fFOCTL_LEVEL (dsArg d 0 % 4)) fFOCTL_ARM 3

theorem outWord_fields (s : State) (d : Desc) : fldOf (outWord s d) fFOCTL_ARM = 3 ∧ fldOf (outWord s d) fFOCTL_LEVEL = dsArg d 0 % 4 := by
  refine ⟨fldOf_putFld _ _ _ (by decide), ?_⟩
  rw [outWord, fldOf_putFld_apart _ _ _ _ (by decide), fldOf_putFld _ _ _ (by decide)]
  exact Nat.mod_mod _ _

/-- The status of FIELD_OUT with both outputs armed (R534). -/
def outStatus (f : Field) (lvl : Nat) : Nat :=
  if !f.vok then 0x79 else if (3 &&& (f.short - (f.short &&& lvl) ||| f.therm)) = 0 then stOK else 0x78

theorem fieldOut_stores (hr : s.ready d = true) (hrole : s.role ≠ .loop) (hc : s.fld fSACCLAIM_CLAIM = 0) (hf : s.on fCLKSTAT_FORCED = false)
    (harm : dsArg d 1 % 4 = 3) : ∃ t, exec (.fieldOut d) s = .next (t.complete d (outStatus s.fio (dsArg d 0 % 4)) 0 []) ∧
      t.fld fFOCTL_LEVEL = dsArg d 0 % 4 ∧ (s.fio.latch < 4 → t.fio.latch = dsArg d 0 % 4) ∧ s.besidesAll t := by
  obtain ⟨hwarm, hwlvl⟩ := outWord_fields s d
  have hforced : s.deferSync.on fCLKSTAT_FORCED = false := by rw [on_of_fld (deferSync_config (by simp [fioConfig]) s), hf]
  obtain ⟨hfio, hstored, -, hrest⟩ := foWriteCtl_passed (s := s.deferSync) (outWord s d) hforced
  obtain ⟨u, hu⟩ : ∃ u, u = s.deferSync.foWriteCtl (outWord s d) := ⟨_, rfl⟩
  rw [← hu, hwarm, hwlvl, deferSync_fio] at hfio
  rw [← hu] at hstored hrest
  have hmask : ∀ x < 4, x &&& 3 = x := by decide
  have hlvl : dsArg d 0 % 4 &&& 3 = dsArg d 0 % 4 := hmask _ (Nat.mod_lt _ (by decide))
  have hsetup : s.setup State.fiWrite [(rFOCTL, (outWord s d).toNat)] = ⟨u, stOK, 0, [], false⟩ := by
    rw [setup_cons hc (fieldRegs_open _ (by simp)), setup_nil, foctl_written, BitVec.ofNat_toNat, BitVec.setWidth_eq, ← hu]
  have hshort : u.fio.short ||| u.fio.therm = s.fio.short - (s.fio.short &&& dsArg d 0 % 4) ||| s.fio.therm := by
    rw [hfio, passed, hlvl]
  have hvok : u.fio.vok = s.fio.vok := by rw [hfio, passed]
  have hin : s.fioRole = true := by simp [State.fioRole, hrole]
  have hgo : exec (.fieldOut d) s = .next (u.complete d (outStatus s.fio (dsArg d 0 % 4)) 0 []) := by
    refine congrArg Host.Outcome.next ((congrArg (fun b => s.runDesc d b _) hin).trans (runDesc_done hr ?_))
    simp only [harm]
    rw [← outWord, hsetup]
    simp only [bne_self_eq_false, Bool.false_eq_true, if_false, hshort, hvok, outStatus]
    by_cases hv : s.fio.vok = true
    · simp only [hv, Bool.not_true, Bool.false_eq_true, if_false]
      by_cases h0 : (3 &&& (s.fio.short - (s.fio.short &&& dsArg d 0 % 4) ||| s.fio.therm)) = 0
      · rw [h0]
        rfl
      · rw [if_pos (bne_iff_ne.mpr h0), if_neg h0]
    · simp only [Bool.not_eq_true] at hv
      simp only [hv, Bool.not_false, if_true]
  refine ⟨u, hgo, ?_, fun hl => ?_, State.besidesAll_trans (deferSync_besidesAll s) hrest⟩
  · rw [hstored _ (by simp), hwlvl]
  · rw [hfio, passed, hlvl, hmask _ hl, Nat.sub_self, Nat.zero_add]

/-! ### Reads and counters -/

theorem ficnts_eq (s : State) : s.ficnts = ((List.range 4).map (fun n => leBytes 4 (s.reg (rFICNT n)).toNat)).flatten := by
  have hcnt (n : Nat) : s.fld (fFICNT_COUNT n) = (s.reg (rFICNT n)).toNat := fldOf_whole _ rfl rfl
  rw [State.ficnts]
  simp only [hcnt]

theorem fieldRead_answers (hr : s.ready d = true) (hrole : s.role ≠ .loop) : exec (.fieldRead d) s =
    .next (s.complete d stOK (s.reg rFISTAT).toNat (((List.range 4).map (fun n => leBytes 4 (s.reg (rFICNT n)).toNat)).flatten)) := by
  have hin : s.fioRole = true := by simp [State.fioRole, hrole]
  rw [← ficnts_eq]
  exact congrArg Host.Outcome.next ((congrArg (fun b => s.runDesc d b _) hin).trans (runDesc_done hr rfl))

theorem fieldQuery_answers (hr : s.ready d = true) (hrole : s.role ≠ .loop) : exec (.fieldQuery d) s = .next (s.complete d stOK 0
    (([rFISTAT, rFIFLAG, rFOSTAT, rFOFLAG, rFOMON, rFVMON].map (fun a => leBytes 4 (s.reg a).toNat)).flatten)) := by
  have hin : s.fioRole = true := by simp [State.fioRole, hrole]
  exact congrArg Host.Outcome.next ((congrArg (fun b => s.runDesc d b _) hin).trans (runDesc_done hr rfl))

/-- A counter cleared by a write in the Nave. -/
def cntClear (s : State) (n : Nat) : State := s.deferSync.plainWrite (rFICNT n) 0

theorem cntClear_besidesAll (s : State) (n : Nat) : s.besidesAll (cntClear s n) :=
  State.besidesAll_trans (deferSync_besidesAll s) (plainWrite_besidesAll _ _ _)

theorem cntClear_self (s : State) (n : Fin 4) : (cntClear s n.val).fld (fFICNT_COUNT n.val) = 0 := by
  have h32 : ∀ j < 32, (0xFFFFFFFF : Nat).testBit (0 + j) = true := by decide
  rw [cntClear, fld_plainWrite_stored _ _ (specOf_ficnt n) rfl
    fun j hj => ⟨h32 j hj, Nat.zero_testBit _, Nat.zero_testBit _⟩, fldOf_whole _ rfl rfl]
  rfl

theorem cntClear_kept {g : Fld} (hg : vetFields.all (fun f => f.other g) = true) (hne : g.addr ≠ rFICNT n) (s : State) :
    (cntClear s n).fld g = s.fld g := navePlain_kept hne hg s 0

/-- The four counters cleared in order. -/
def cntsCleared (s : State) : State := cntClear (cntClear (cntClear (cntClear s 0) 1) 2) 3

theorem cntsCleared_reg (s : State) : ∀ n < 4, (cntsCleared s).reg (rFICNT n) = 0 := by
  have hother : ∀ n < 4, vetFields.all (fun f => f.other (fFICNT_COUNT n)) = true ∧
      ∀ m < 4, m ≠ n → (fFICNT_COUNT n).addr ≠ rFICNT m := by decide
  have hzero (t : State) (n : Fin 4) (m : Nat) (hm : m < 4) (ht : t.fld (fFICNT_COUNT n.val) = 0) :
      (cntClear t m).fld (fFICNT_COUNT n.val) = 0 := by
    by_cases h : m = n.val
    · rw [h]
      exact cntClear_self t n
    · obtain ⟨hvet, hne⟩ := hother n.val n.isLt
      rw [cntClear_kept hvet (hne m hm h), ht]
  intro n hn
  have hfld : (cntsCleared s).fld (fFICNT_COUNT n) = 0 := by
    obtain rfl | rfl | rfl | rfl : n = 0 ∨ n = 1 ∨ n = 2 ∨ n = 3 := by omega
    · exact hzero _ 0 3 (by decide) (hzero _ 0 2 (by decide) (hzero _ 0 1 (by decide) (cntClear_self s 0)))
    · exact hzero _ 1 3 (by decide) (hzero _ 1 2 (by decide) (cntClear_self _ 1))
    · exact hzero _ 2 3 (by decide) (cntClear_self _ 2)
    · exact cntClear_self _ 3
  apply BitVec.eq_of_toNat_eq
  rw [← fldOf_whole ((cntsCleared s).reg (rFICNT n)) (f := fFICNT_COUNT n) rfl rfl]
  exact hfld

theorem ficnt_written (s : State) {n : Nat} (hn : n < 4) (v : Word) : s.fiWrite (rFICNT n) v = s.plainWrite (rFICNT n) v := by
  have hne : ∀ n < 4, rFICNT n ≠ rFOCTL ∧ rFICNT n ≠ rFOKICK ∧ rFICNT n ≠ rFICTL := by decide
  obtain ⟨h1, h2, h3⟩ := hne n hn
  rw [State.fiWrite, if_neg h1, if_neg h2, if_neg h3]

theorem fieldCount_clears (hr : s.ready d = true) (hrole : s.role ≠ .loop) (hc : s.fld fSACCLAIM_CLAIM = 0) (hall : dsArg d 0 % 16 = 15) :
    ∃ t, exec (.fieldCount d) s = .next (t.complete d stOK (s.reg rFISTAT).toNat
      (((List.range 4).map (fun n => leBytes 4 (s.reg (rFICNT n)).toNat)).flatten)) ∧ (∀ n < 4, t.reg (rFICNT n) = 0) ∧ s.besidesAll t := by
  have hin : s.fioRole = true := by simp [State.fioRole, hrole]
  have hbits (n : Nat) (hn : n < 4) : (dsArg d 0).testBit n = true := by
    have hlow : (dsArg d 0 % 2 ^ 4).testBit n = true := by
      rw [show dsArg d 0 % 2 ^ 4 = 15 from hall]
      have h15 : ∀ n < 4, (15 : Nat).testBit n = true := by decide
      exact h15 n hn
    rw [Nat.testBit_mod_two_pow] at hlow
    exact ((Bool.and_eq_true _ _).mp hlow).2
  have hlist : ((List.range 4).filter (fun n => (dsArg d 0).testBit n)).map (fun n => (rFICNT n, 0)) =
      [(rFICNT 0, 0), (rFICNT 1, 0), (rFICNT 2, 0), (rFICNT 3, 0)] := by
    rw [List.filter_eq_self.mpr fun n hn => hbits n (List.mem_range.mp hn)]
    rfl
  have hclaim (t : State) (n : Nat) (hn : n < 4) (ht : t.fld fSACCLAIM_CLAIM = 0) : (cntClear t n).fld fSACCLAIM_CLAIM = 0 := by
    have hne : ∀ n < 4, fSACCLAIM_CLAIM.addr ≠ rFICNT n := by decide
    rw [cntClear_kept (by decide) (hne n hn), ht]
  have hwrite (t : State) (n : Nat) (hn : n < 4) : t.deferSync.fiWrite (rFICNT n) (BitVec.ofNat 32 0) = cntClear t n := by
    rw [ficnt_written _ hn]
    rfl
  have h0 := hclaim s 0 (by decide) hc
  have h1 := hclaim _ 1 (by decide) h0
  have h2 := hclaim _ 2 (by decide) h1
  have hsetup : s.setup State.fiWrite [(rFICNT 0, 0), (rFICNT 1, 0), (rFICNT 2, 0), (rFICNT 3, 0)] =
      ⟨cntsCleared s, stOK, 0, [], false⟩ := by
    rw [setup_cons hc (fieldRegs_open _ (by simp)), hwrite _ 0 (by decide), setup_cons h0 (fieldRegs_open _ (by simp)),
      hwrite _ 1 (by decide), setup_cons h1 (fieldRegs_open _ (by simp)), hwrite _ 2 (by decide),
      setup_cons h2 (fieldRegs_open _ (by simp)), hwrite _ 3 (by decide), setup_nil]
    rfl
  refine ⟨cntsCleared s, ?_, cntsCleared_reg s, ?_⟩
  · rw [← ficnts_eq]
    refine congrArg Host.Outcome.next ((congrArg (fun b => s.runDesc d b _) hin).trans (runDesc_done hr ?_))
    rw [hlist, hsetup]
  · exact State.besidesAll_trans (State.besidesAll_trans (cntClear_besidesAll s 0) (cntClear_besidesAll _ 1))
      (State.besidesAll_trans (cntClear_besidesAll _ 2) (cntClear_besidesAll _ 3))

/-- Settles O30: each event of an input by its flag and its entry (`flagPush_spec`), each descriptor by its writes in the Nave (`setup_cons`). -/
theorem fieldInputsAndDescriptors : Obligations.FieldInputsAndDescriptors := by
  unfold Obligations.FieldInputsAndDescriptors
  refine ⟨fun s n x hb hn hd hq => ?_, fun s d hr hrole hc hf => ?_⟩
  · exact ⟨fieldInputEdge_rise hb hn hd hq, fun hen => fieldInputEdge_off hen x, inBreak_flagged hb hn hd hq, inBreakClear_goes s hn,
      inStuck_flagged hb hn hd hq, inOvervoltage_bad hb hn, inOvervoltage_back hb hn, fun _ _ => evf2Read_takes hq⟩
  · exact ⟨fieldSetup_stores hr hrole hc hf, fieldOut_stores hr hrole hc hf, fieldRead_answers hr hrole, fieldCount_clears hr hrole hc,
      fieldQuery_answers hr hrole⟩

end Sys2Proof.Proofs
end

section
/-! PROOF. The loop output: what LOOPNOW shows and which writes reach it (R424). -/

namespace Sys2Proof.Proofs

open Sys2Proof Sys2Proof.Machine

variable {s t u : State} {v : Word}

/-! ### LOOPNOW -/

/-- What logging and telling an event leaves alone. -/
structure Logged (s t : State) : Prop where
  regs : t.regs = s.regs
  loop : t.loop = s.loop
  cfgBusy : t.cfgBusy = s.cfgBusy
  besides : s.besides t

theorem loopEvent_logged (hr : s.role ≠ .chapter) (code : Nat) (data : List Byte) : Logged s (s.loopEvent code data) := by
  have hlog (r : List Byte) : Logged s (s.logAppend 0 r).1 := ⟨rfl, rfl, rfl, s.besides_refl⟩
  unfold State.loopEvent
  dsimp only
  split
  · rw [State.event_node (s.logAppend 0 _).1 _ _ hr]
    exact ⟨rfl, rfl, rfl, s.besides_refl⟩
  · exact hlog _

/-- The loop output as `t` shows what `s` makes of it. -/
structure Shows (s t : State) : Prop where
  kept : ∀ g, loopFields.all (fun f => f.other g) = true → t.fld g = s.fld g
  mode : t.fld fLOOPNOW_MODE = s.loopNow.1
  code : t.fld fLOOPNOW_CODE = s.loopNow.2 % 2 ^ 16
  loop : t.loop = s.loop
  cfgBusy : t.cfgBusy = s.cfgBusy
  besides : s.besides t

theorem loopNow_mode (s : State) : s.loopNow.1 < 4 := by
  unfold State.loopNow
  repeat' split
  all_goals simp

theorem raiseIf_fld {f g : Fld} (h : f.other g = true) (c : Prop) [Decidable c] (t : State) : (if c then t.raise [f] else t).fld g = t.fld g := by
  split
  · rw [State.raise_cons, State.raise_nil, State.fld_setFld_other _ _ _ _ h]
  · rfl

theorem Shows.logged (h : Shows s t) (k : Logged t u) : Shows s u :=
  ⟨fun g hg => (fld_of_regs k.regs g).trans (h.kept g hg), (fld_of_regs k.regs _).trans h.mode, (fld_of_regs k.regs _).trans h.code,
    k.loop.trans h.loop, k.cfgBusy.trans h.cfgBusy, State.besides_trans h.besides k.besides⟩

theorem Shows.ite {c : Prop} [Decidable c] (h : Shows s t) (k : Shows s u) : Shows s (if c then t else u) := by
  split
  · exact h
  · exact k

/-- LOOPNOW and FORCED stored, before any flag (R424). -/
theorem shown_sets (s : State) : Shows s (s.sets [(fLOOPNOW_MODE, s.loopNow.1), (fLOOPNOW_CODE, s.loopNow.2), (fLOOPSTAT_FORCED, b2n s.loopForced)]) := by
  have hw : Writes loopFields s (s.sets [(fLOOPNOW_MODE, s.loopNow.1), (fLOOPNOW_CODE, s.loopNow.2), (fLOOPSTAT_FORCED, b2n s.loopForced)]) :=
    (sets_writes s _).mono (by simp [loopFields])
  refine ⟨hw.kept, ?_, ?_, ?_, ?_, hw.besidesAll.1⟩
  · simp only [State.sets_cons, State.sets_nil]
    rw [State.fld_setFld_other _ _ _ _ (by decide), State.fld_setFld_other _ _ _ _ (by decide), State.fld_setFld _ _ _ (by decide)]
    exact Nat.mod_eq_of_lt (loopNow_mode s)
  · simp only [State.sets_cons, State.sets_nil]
    rw [State.fld_setFld_other _ _ _ _ (by decide), State.fld_setFld _ _ _ (by decide)]
    rfl
  · rw [hw.regs]
  · rw [hw.regs]
    rfl

/-- A flag of the loop set on the way. -/
theorem Shows.raiseIf (h : Shows s t) {f : Fld} (hf : f ∈ [fLOOPFLAG_SATLO, fLOOPFLAG_SATHI, fLOOPFLAG_FORCED]) (c : Prop) [Decidable c] :
    Shows s (if c then t.raise [f] else t) := by
  have hall : ∀ f ∈ [fLOOPFLAG_SATLO, fLOOPFLAG_SATHI, fLOOPFLAG_FORCED], f.other fLOOPNOW_MODE = true ∧ f.other fLOOPNOW_CODE = true ∧
      f ∈ loopFields := by decide
  obtain ⟨hmode, hcode, hmem⟩ := hall f hf
  refine ⟨fun g hg => ?_, ?_, ?_, ?_, ?_, ?_⟩
  · rw [raiseIf_fld (List.all_eq_true.mp hg f hmem), h.kept g hg]
  · rw [raiseIf_fld hmode, h.mode]
  · rw [raiseIf_fld hcode, h.code]
  · split
    · exact h.loop
    · exact h.loop
  · split
    · exact h.cfgBusy
    · exact h.cfgBusy
  · split
    · exact State.besides_trans h.besides (State.besidesAll_raise t [f]).1
    · exact h.besides

theorem loopSync_shows (hr : s.role = .loop) (cause : Option Nat) : Shows s (s.loopSync cause) := by
  have hevent {t : State} (h : Shows s t) (code : Nat) (data : List Byte) : Shows s (t.loopEvent code data) := by
    obtain ⟨hrole, -⟩ := h.besides
    exact h.logged (loopEvent_logged (by rw [hrole, hr]; decide) code data)
  unfold State.loopSync
  rw [hr, if_neg (by decide)]
  dsimp only
  generalize (if decide (s.loopNow.1 = 3) && s.fld fLOOPNOW_MODE != 3 then some 5 else cause) = c
  cases c
  all_goals
    dsimp only
    refine .ite (hevent ?_ _ _) ?_
    all_goals exact (((shown_sets s).raiseIf (by decide) _).raiseIf (by decide) _).raiseIf (by decide) _

theorem loopNow_forced (h : s.loopForced = true) : s.loopNow = (3, 8960) := by
  rw [State.loopNow, if_pos h]

theorem loopNow_held (hf : s.loopForced = false) (he : s.on fLOOPCTL_EN = true) {c : Nat} (hc : s.loop.calHold = some c) : s.loopNow = (1, c) := by
  rw [State.loopNow, hf, he, hc]
  rfl

theorem loopNow_normal (hf : s.loopForced = false) (he : s.on fLOOPCTL_EN = true) (hc : s.loop.calHold = none) (h : s.loopFaulted = false) :
    s.loopNow = (1, max 9728 (min 52480 (s.fld fLOOPSET_CODE))) := by
  rw [State.loopNow, hf, he, hc, h]
  rfl

theorem loopNow_faulted (hf : s.loopForced = false) (he : s.on fLOOPCTL_EN = true) (hc : s.loop.calHold = none) (h : s.loopFaulted = true) :
    s.loopNow = (2, if s.on fLOOPCTL_FDIR then 55040 else 8960) := by
  rw [State.loopNow, hf, he, hc, h]
  rfl

end Sys2Proof.Proofs
end

section
/-! PROOF. The loop descriptors (R430 to R432) and the loop's own events (R424, R427, R431, R434): O25. -/

namespace Sys2Proof.Proofs

open Sys2Proof Sys2Proof.Machine

variable {s t u : State} {v : Word} {d : Desc} {a m : Nat}

/-! ### Writes of block 18 -/

theorem loopRegs_open : ∀ a ∈ [rLOOPSET, rLOOPTMO, rLOOPCTL, rLOOPCALG, rLOOPCALO], openReg a = true := by decide +kernel

theorem specOf_loopctl : specOf rLOOPCTL = some ⟨0x40012000, 1, 0, 0xF, 0, 0, 0, 0, 0, 0⟩ := by decide +kernel

theorem specOf_loopset : specOf rLOOPSET = some ⟨0x40012004, 1, 0, 0xFFFF, 0, 0, 0, 0, 0, 0⟩ := by decide +kernel

theorem specOf_looptmo : specOf rLOOPTMO = some ⟨0x40012008, 1, 0, 0xFFF, 0, 0, 0, 0, 0, 0⟩ := by decide +kernel

theorem specOf_loopcalg : specOf rLOOPCALG = some ⟨0x40012020, 1, 0, 0xFFFF, 0, 0, 0, 0, 0, 0⟩ := by decide +kernel

theorem specOf_loopcalo : specOf rLOOPCALO = some ⟨0x40012024, 1, 0, 0xFFFF, 0, 0, 0, 0, 0, 0⟩ := by decide +kernel

/-- What a write changes of the loop's own state. -/
def loopAfter (a : Nat) (v : Word) (l : LoopOut) : LoopOut :=
  if a = rLOOPCTL ∧ fldOf v fLOOPCTL_EN = 1 then { l with forced120 := false } else if a = rLOOPSET then { l with late := false } else l

/-- A write of the Nave to block 18 before LOOPNOW follows it. -/
def loopTaken (s : State) (a : Nat) (v : Word) : State :=
  { s.deferSync.plainWrite a v with loop := loopAfter a v s.loop }

theorem plainWrite_loop (s : State) (a : Nat) (v : Word) : (s.plainWrite a v).loop = s.loop := by
  rw [(plainWrite_writes (l := [wholeReg a]) s v (List.mem_singleton_self _)).regs]

theorem deferSync_loop (s : State) : s.deferSync.loop = s.loop := by
  rw [(deferSync_writes s).regs]

theorem loopWrite_taken (s : State) (a : Nat) (v : Word) : s.deferSync.loopWrite a v = (loopTaken s a v).loopSync none := by
  have hloop : (s.deferSync.plainWrite a v).loop = s.loop := by rw [plainWrite_loop, deferSync_loop]
  rw [State.loopWrite, loopTaken, loopAfter, ← hloop]
  congr 1
  dsimp only
  split
  · rfl
  · split
    · rfl
    · rfl

theorem loopTaken_other (hctl : a ≠ rLOOPCTL) (hset : a ≠ rLOOPSET) (s : State) (v : Word) : (loopTaken s a v).loop = s.loop := by
  rw [loopTaken, loopAfter, if_neg (fun h => hctl h.1), if_neg hset]

/-- The fields that a write of another register of block 18 leaves. -/
theorem loopTaken_fld {g : Fld} (hne : g.addr ≠ a) (hg : vetFields.all (fun f => f.other g) = true) (s : State) (v : Word) :
    (loopTaken s a v).fld g = s.fld g := navePlain_kept hne hg s v

theorem loopTaken_stored {r : RegSpec} {g : Fld} (hr : specOf a = some r) (hg : g.addr = a)
    (hrw : ∀ j < g.w, (r.rw ||| r.srw).testBit (g.lo + j) = true ∧ (r.w1c ||| r.srwW1c).testBit (g.lo + j) = false ∧
      r.w1s.testBit (g.lo + j) = false) (s : State) (v : Word) : (loopTaken s a v).fld g = fldOf v g :=
  fld_plainWrite_stored _ v hr hg hrw

theorem loopTaken_besides (s : State) (a : Nat) (v : Word) : s.besides (loopTaken s a v) := by
  refine State.besides_trans (State.besidesAll_trans (deferSync_besidesAll s) (plainWrite_besidesAll _ a v)).1 ?_
  exact ⟨rfl, rfl, rfl, rfl, rfl, rfl⟩

theorem loopTaken_cfgBusy (s : State) (a : Nat) (v : Word) : (loopTaken s a v).cfgBusy = s.cfgBusy := by
  have hrst : (s.deferSync.plainWrite a v).rst = s.rst := by
    rw [(plainWrite_writes (l := [wholeReg a]) s.deferSync v (List.mem_singleton_self _)).regs, (deferSync_writes s).regs]
  have hrst' : (loopTaken s a v).rst = s.rst := hrst
  rw [State.cfgBusy, hrst', ← State.cfgBusy]

theorem loopWrite_shows (hr : s.role = .loop) (a : Nat) (v : Word) : Shows (loopTaken s a v) (s.deferSync.loopWrite a v) := by
  rw [loopWrite_taken]
  obtain ⟨hrole, -⟩ := loopTaken_besides s a v
  exact loopSync_shows (hrole.trans hr) none

/-- The fields that R424 and the descriptors read, apart from what LOOPNOW shows and what vetting records. -/
def loopConfig : List Fld :=
  [fLOOPCTL_EN, fLOOPCTL_FAULT, fLOOPCTL_FDIR, fLOOPCTL_MMFAULT, ⟨0x40012000, 0, 4⟩, fLOOPSET_CODE, fLOOPTMO_TMO, fLOOPCALG_GAIN, fLOOPCALO_OFS,
    fLOOPSTAT_MISMATCH, fCLKSTAT_FORCED, fSACCLAIM_CLAIM, fLOOPFLAG_TMO, fLOOPFLAG_MISMATCH, fLOOPFLAG_CALDONE, fLOOPMEAS_MEAS]

theorem loopConfig_apart : ∀ g ∈ loopConfig, loopFields.all (fun f => f.other g) = true ∧ vetFields.all (fun f => f.other g) = true := by decide

theorem Shows.config (h : Shows s t) {g : Fld} (hg : g ∈ loopConfig) : t.fld g = s.fld g := h.kept g (loopConfig_apart g hg).1

theorem Shows.configOn (h : Shows s t) {g : Fld} (hg : g ∈ loopConfig) : t.on g = s.on g := on_of_fld (h.config hg)

theorem taken_config {g : Fld} (hg : g ∈ loopConfig) (hne : g.addr ≠ a) (s : State) (v : Word) : (loopTaken s a v).fld g = s.fld g :=
  loopTaken_fld hne (loopConfig_apart g hg).2 s v

/-- A write that reaches block 18, in the state the next write finds. -/
theorem loopWrite_config (hr : s.role = .loop) {g : Fld} (hg : g ∈ loopConfig) (hne : g.addr ≠ a) (v : Word) :
    (s.deferSync.loopWrite a v).fld g = s.fld g := by
  rw [(loopWrite_shows hr a v).config hg, taken_config hg hne]

theorem loopWrite_besides (hr : s.role = .loop) (a : Nat) (v : Word) : s.besides (s.deferSync.loopWrite a v) :=
  State.besides_trans (loopTaken_besides s a v) (loopWrite_shows hr a v).besides

theorem fldOf_ofNat_low {x : Nat} {f : Fld} (hlo : f.lo = 0) (hx : x < 2 ^ f.w) (hw : f.w ≤ 32) : fldOf (BitVec.ofNat 32 x) f = x := by
  have hx32 : x < 2 ^ 32 := hx.trans_le (Nat.pow_le_pow_right (by decide) hw)
  rw [fldOf, BitVec.extractLsb'_toNat, BitVec.toNat_ofNat, hlo, Nat.shiftRight_zero, Nat.mod_eq_of_lt hx32, Nat.mod_eq_of_lt hx]

/-! ### The set point -/

section
variable (h : s.ready d = true) (hr : s.role = .loop) (hc : s.fld fSACCLAIM_CLAIM = 0)
include h hr hc

/-- LOOP_SET writes LOOPSET and answers FORCED where LOOPNOW shows the forced mode. -/
theorem loopSet_goes : ∃ t, exec (.loopSet d) s = .next (t.complete d (if t.fld fLOOPNOW_MODE = 3 then 0x50 else stOK) 0 []) ∧
    Shows (loopTaken s rLOOPSET (BitVec.ofNat 32 (dsArgs d 0 2))) t := by
  refine ⟨_, ?_, loopWrite_shows hr rLOOPSET (BitVec.ofNat 32 (dsArgs d 0 2))⟩
  refine congrArg Host.Outcome.next ((congrArg (fun b => s.runDesc d b _) (decide_eq_true hr)).trans (runDesc_done h ?_))
  rw [setup_cons hc (loopRegs_open _ (by simp)), setup_nil]
  dsimp only
  split
  next hmode =>
    rw [if_pos (of_decide_eq_true ((Bool.and_eq_true _ _).mp hmode).2)]
  next hmode =>
    rw [if_neg]
    intro h3
    exact hmode (by rw [h3]; rfl)

omit h hr hc in
theorem setTaken_code (s : State) (d : Desc) :
    (loopTaken s rLOOPSET (BitVec.ofNat 32 (dsArgs d 0 2))).fld fLOOPSET_CODE = dsArgs d 0 2 := by
  rw [loopTaken_stored specOf_loopset rfl (by decide)]
  exact fldOf_ofNat_low rfl (dsArgs_lt d 0 2) (by decide)

omit h hr hc in
theorem setTaken_forced (s : State) (v : Word) : (loopTaken s rLOOPSET v).loopForced = s.loopForced := by
  rw [State.loopForced, on_of_fld (taken_config (by simp [loopConfig]) (by decide) s v)]
  rfl

theorem loopSet_normal (hen : s.on fLOOPCTL_EN = true) (hfault : s.on fLOOPCTL_FAULT = false) (hsrc : s.loop.srcBad = false)
    (hmis : s.on fLOOPSTAT_MISMATCH = false) (hf : s.loopForced = false) (hhold : s.loop.calHold = none) :
    ∃ t, exec (.loopSet d) s = .next (t.complete d stOK 0 []) ∧ t.fld fLOOPSET_CODE = dsArgs d 0 2 ∧ t.fld fLOOPNOW_MODE = 1 ∧
      t.fld fLOOPNOW_CODE = Max.max 9728 (Min.min 52480 (dsArgs d 0 2)) ∧ s.besides t := by
  obtain ⟨t, hgo, ht⟩ := loopSet_goes h hr hc
  generalize hw : loopTaken s rLOOPSET (BitVec.ofNat 32 (dsArgs d 0 2)) = w at ht
  have hon {g : Fld} (hg : g ∈ loopConfig) (hne : g.addr ≠ rLOOPSET) : w.on g = s.on g := by rw [← hw]; exact on_of_fld (taken_config hg hne s _)
  have hloop : w.loop = { s.loop with late := false } := by rw [← hw]; rfl
  have hcode : w.fld fLOOPSET_CODE = dsArgs d 0 2 := by rw [← hw, setTaken_code]
  have hnow : w.loopNow = (1, max 9728 (min 52480 (dsArgs d 0 2))) := by
    rw [← hcode]
    refine loopNow_normal ?_ ?_ ?_ ?_
    · rw [← hw, setTaken_forced, hf]
    · rw [hon (by simp [loopConfig]) (by decide), hen]
    · rw [hloop, hhold]
    · rw [State.loopFaulted, hon (by simp [loopConfig]) (by decide), hon (by simp [loopConfig]) (by decide), hloop, hfault, hsrc, hmis]
      rfl
  have hmode : t.fld fLOOPNOW_MODE = 1 := by rw [ht.mode, hnow]
  rw [hmode, if_neg (by decide)] at hgo
  refine ⟨t, hgo, ?_, hmode, ?_, ?_⟩
  · rw [ht.config (by simp [loopConfig]), hcode]
  · rw [ht.code, hnow]
    exact Nat.mod_eq_of_lt (Nat.lt_of_le_of_lt (Nat.max_le.mpr ⟨by decide, Nat.min_le_left _ _⟩) (show 52480 < 2 ^ 16 by decide))
  · exact State.besides_trans (hw ▸ loopTaken_besides s _ _) ht.besides

theorem loopSet_forced (hf : s.loopForced = true) : ∃ t, exec (.loopSet d) s = .next (t.complete d 0x50 0 []) ∧
    t.fld fLOOPSET_CODE = dsArgs d 0 2 ∧ t.fld fLOOPNOW_MODE = 3 ∧ t.fld fLOOPNOW_CODE = 8960 ∧ s.besides t := by
  obtain ⟨t, hgo, ht⟩ := loopSet_goes h hr hc
  have hnow := loopNow_forced ((setTaken_forced s (BitVec.ofNat 32 (dsArgs d 0 2))).trans hf)
  have hmode : t.fld fLOOPNOW_MODE = 3 := by rw [ht.mode, hnow]
  rw [hmode, if_pos rfl] at hgo
  refine ⟨t, hgo, ?_, hmode, ?_, State.besides_trans (loopTaken_besides s _ _) ht.besides⟩
  · rw [ht.config (by simp [loopConfig]), setTaken_code]
  · rw [ht.code, hnow]
    rfl

/-! ### The mode -/

theorem loopMode_stores (h0 : dsArg d 0 < 16) (h2 : dsArgs d 2 2 < 4096) : ∃ t, exec (.loopMode d) s = .next (t.complete d stOK 0 []) ∧
    (t.reg rLOOPCTL).toNat % 16 = dsArg d 0 ∧ t.fld fLOOPTMO_TMO = dsArgs d 2 2 ∧ t.fld fLOOPSET_CODE = s.fld fLOOPSET_CODE ∧ s.besides t := by
  obtain ⟨u, hu⟩ : ∃ u, u = s.deferSync.loopWrite rLOOPTMO (BitVec.ofNat 32 (dsArgs d 2 2)) := ⟨_, rfl⟩
  have hus : s.besides u := hu ▸ loopWrite_besides hr _ _
  have hur : u.role = .loop := by
    obtain ⟨hrole, -⟩ := hus
    rw [hrole, hr]
  have huconf {g : Fld} (hg : g ∈ loopConfig) (hne : g.addr ≠ rLOOPTMO) : u.fld g = s.fld g := hu ▸ loopWrite_config hr hg hne _
  have hutmo : u.fld fLOOPTMO_TMO = dsArgs d 2 2 := by
    rw [hu, (loopWrite_shows hr _ _).config (by simp [loopConfig]), loopTaken_stored specOf_looptmo rfl (by decide)]
    exact fldOf_ofNat_low rfl h2 (by decide)
  have huc : u.fld fSACCLAIM_CLAIM = 0 := by rw [huconf (by simp [loopConfig]) (by decide), hc]
  have hact : (if 16 ≤ dsArg d 0 ∨ 4096 ≤ dsArgs d 2 2 then s.fail stINVALID
      else s.setup State.loopWrite [(rLOOPTMO, dsArgs d 2 2), (rLOOPCTL, dsArg d 0)]) =
      ⟨u.deferSync.loopWrite rLOOPCTL (BitVec.ofNat 32 (dsArg d 0)), stOK, 0, [], false⟩ := by
    rw [if_neg (by omega), setup_cons hc (loopRegs_open _ (by simp)), ← hu, setup_cons huc (loopRegs_open _ (by simp)), setup_nil]
  refine ⟨_, congrArg Host.Outcome.next ((congrArg (fun b => s.runDesc d b _) (decide_eq_true hr)).trans (runDesc_done h hact)), ?_, ?_, ?_, ?_⟩
  · have hlow : (u.deferSync.loopWrite rLOOPCTL (BitVec.ofNat 32 (dsArg d 0))).fld ⟨0x40012000, 0, 4⟩ = dsArg d 0 := by
      rw [(loopWrite_shows hur _ _).config (by simp [loopConfig]), loopTaken_stored specOf_loopctl rfl (by decide)]
      exact fldOf_ofNat_low rfl h0 (by decide)
    rw [State.fld, fldOf, BitVec.extractLsb'_toNat] at hlow
    exact hlow
  · rw [loopWrite_config hur (by simp [loopConfig]) (by decide), hutmo]
  · rw [loopWrite_config hur (by simp [loopConfig]) (by decide), huconf (by simp [loopConfig]) (by decide)]
  · exact State.besides_trans hus (loopWrite_besides hur _ _)

omit hc in
theorem loopMode_invalid (h0 : 16 ≤ dsArg d 0) : exec (.loopMode d) s = .next (s.complete d stINVALID 0 []) :=
  congrArg Host.Outcome.next ((congrArg (fun b => s.runDesc d b _) (decide_eq_true hr)).trans (runDesc_done h (if_pos (.inl h0))))

/-! ### The map -/

/-- The map as LOOP_MAP stores it. -/
def mapped (s : State) (d : Desc) : State :=
  { s with loop := { s.loop with mapSrc := 8, lrv := dsInt32 d 4, urv := dsInt32 d 8, srcBad := false, calHold := none } }

omit h hr hc in
/-- Settings stored at once change no register, no state of the loop and nothing beside. -/
theorem cfgStore_logged (t : State) (hb : t.cfgBusy = false) (item v : Nat) : Logged t (t.cfgStore item v) := by
  obtain ⟨-, hbeside⟩ := cfgStore_beside t hb item v
  refine ⟨cfgStore_regs t item v, ?_, (cfgStore_idle item v hb).trans hb.symm, hbeside⟩
  rw [State.cfgStore, if_neg (by simp [hb]), State.cfgWriteNow]
  dsimp only
  split <;> rfl

theorem loopMap_stores (h0 : dsArg d 0 = 8) (hne : signed 32 (dsArgs d 4 4) ≠ signed 32 (dsArgs d 8 4)) (hb : s.cfgBusy = false) :
    ∃ t, exec (.loopMap d) s = .next (t.complete d stOK 0 []) ∧ t.loop.mapSrc = 8 ∧ t.loop.lrv = signed 32 (dsArgs d 4 4) ∧
      t.loop.urv = signed 32 (dsArgs d 8 4) ∧ t.loop.calHold = none ∧ s.besides t := by
  obtain ⟨u, hu⟩ : ∃ u, u = (mapped s d).loopSync none := ⟨_, rfl⟩
  have hshow : Shows (mapped s d) u := hu ▸ loopSync_shows (s := mapped s d) hr none
  have hub : u.cfgBusy = false := hshow.cfgBusy.trans hb
  have h1 := cfgStore_logged u hub 1 8
  have hb1 := h1.cfgBusy.trans hub
  have h2 := cfgStore_logged (u.cfgStore 1 8) hb1 2 (dsArgs d 4 4)
  have hb2 := h2.cfgBusy.trans hb1
  have h3 := cfgStore_logged ((u.cfgStore 1 8).cfgStore 2 (dsArgs d 4 4)) hb2 3 (dsArgs d 8 4)
  have hb3 := h3.cfgBusy.trans hb2
  obtain ⟨w, hw⟩ : ∃ w, w = ((u.cfgStore 1 8).cfgStore 2 (dsArgs d 4 4)).cfgStore 3 (dsArgs d 8 4) := ⟨_, rfl⟩
  rw [← hw] at h3 hb3
  have hloop : w.loop = (mapped s d).loop := by rw [h3.loop, h2.loop, h1.loop, hshow.loop]
  have hgo : exec (.loopMap d) s = .next (w.complete d stOK 0 []) := by
    refine congrArg Host.Outcome.next ((congrArg (fun b => s.runDesc d b _) (decide_eq_true hr)).trans (runDesc_done h ?_))
    have hvalid : dsInt32 d 4 ≠ dsInt32 d 8 := hne
    simp only [h0]
    rw [if_neg (by simp [hvalid]), claimed_none hc, if_neg Bool.false_ne_true]
    change (((((mapped s d).loopSync none).cfgStore 1 8).cfgStore 2 (dsArgs d 4 4)).cfgStore 3 (dsArgs d 8 4)).cfgDone d stOK 0 = _
    rw [← hu, ← hw, State.cfgDone, if_neg (by simp [hb3])]
  refine ⟨w, hgo, ?_, ?_, ?_, ?_, ?_⟩
  · rw [hloop]; rfl
  · rw [hloop]; rfl
  · rw [hloop]; rfl
  · rw [hloop]; rfl
  · have hmap : s.besides (mapped s d) := ⟨rfl, rfl, rfl, rfl, rfl, rfl⟩
    exact State.besides_trans (State.besides_trans hmap hshow.besides) (State.besides_trans h1.besides (State.besides_trans h2.besides h3.besides))

omit hc in
theorem loopMap_invalid (h0 : dsArg d 0 = 7) : exec (.loopMap d) s = .next (s.complete d stINVALID 0 []) := by
  refine congrArg Host.Outcome.next ((congrArg (fun b => s.runDesc d b _) (decide_eq_true hr)).trans (runDesc_done h ?_))
  simp only [h0]
  exact if_pos (by simp)

/-! ### Calibration -/

/-- A calibration step that holds a code. -/
def heldAt (s : State) (code : Nat) : State := { s with loop := { s.loop with calHold := some code } }

omit hc in
theorem loopCalStep_holds (hen : s.on fLOOPCTL_EN = true) (hf : s.loopForced = false) {code : Nat} (hcode : code < 2 ^ 16) :
    ∃ t, s.loopCalStep d code = t.complete d stOK 0 [] ∧ t.loop.calHold = some code ∧ t.fld fLOOPNOW_CODE = code ∧ s.besides t := by
  have hshow : Shows (heldAt s code) ((heldAt s code).loopSync none) := loopSync_shows (s := heldAt s code) hr none
  have hnow : (heldAt s code).loopNow = (1, code) := loopNow_held (s := heldAt s code) hf hen rfl
  have hmode : ((heldAt s code).loopSync none).fld fLOOPNOW_MODE = 1 := by rw [hshow.mode, hnow]
  refine ⟨(heldAt s code).loopSync none, ?_, ?_, ?_, ?_⟩
  · rw [State.loopCalStep, decide_eq_true hr]
    refine runDesc_done h ?_
    change (if ((heldAt s code).loopSync none).fld fLOOPNOW_MODE = 3 then ((heldAt s code).loopSync none).fail 0x50 else
      ((heldAt s code).loopSync none).ok) = _
    rw [hmode, if_neg (by decide)]
    rfl
  · rw [hshow.loop]
    rfl
  · rw [hshow.code, hnow]
    exact Nat.mod_eq_of_lt hcode
  · have hheld : s.besides (heldAt s code) := ⟨rfl, rfl, rfl, rfl, rfl, rfl⟩
    exact State.besides_trans hheld hshow.besides

omit h hr hc in
/-- A right pair of currents leaves gain 1 and offset 0 (R431). -/
theorem loopCalc_right (hg : s.fld fLOOPCALG_GAIN = 32768) (ho : s.fld fLOOPCALO_OFS = 0) :
    s.loopCalc 4000000 20000000 = some (32768, 0) := by
  simp only [State.loopCalc, hg, ho]
  decide +kernel

omit h hr hc in
theorem loopNow_unforced (hf : s.loopForced = false) : s.loopNow.1 ≠ 3 := by
  rw [State.loopNow, hf, if_neg Bool.false_ne_true]
  repeat' split
  all_goals simp

/-- The end of a calibration, before its settings are stored. -/
def calibrated (u : State) : State := (u.raise [fLOOPFLAG_CALDONE]).loopHoldEnd

theorem loopCalCompute_keeps (hf : s.loopForced = false) (hg : s.fld fLOOPCALG_GAIN = 32768) (ho : s.fld fLOOPCALO_OFS = 0)
    (h4 : dsArgs d 4 4 = 4000000) (h8 : dsArgs d 8 4 = 20000000) (hb : s.cfgBusy = false) :
    ∃ t, exec (.loopCalCompute d) s = .next (t.complete d stOK 0 []) ∧ t.fld fLOOPCALG_GAIN = 32768 ∧ t.fld fLOOPCALO_OFS = 0 ∧
      t.on fLOOPFLAG_CALDONE = true ∧ t.loop.calHold = none ∧ s.besides t := by
  have hcalc : s.loopCalc (dsInt32 d 4) (dsInt32 d 8) = some (32768, 0) := by
    have hi4 : dsInt32 d 4 = 4000000 := by rw [dsInt32, h4]; decide
    have hi8 : dsInt32 d 8 = 20000000 := by rw [dsInt32, h8]; decide
    rw [hi4, hi8, loopCalc_right hg ho]
  -- gain, then offset
  obtain ⟨u, hu⟩ : ∃ u, u = s.deferSync.loopWrite rLOOPCALG (BitVec.ofNat 32 32768) := ⟨_, rfl⟩
  have hushow : Shows (loopTaken s rLOOPCALG (BitVec.ofNat 32 32768)) u := hu ▸ loopWrite_shows hr _ _
  have hus : s.besides u := hu ▸ loopWrite_besides hr _ _
  have hur : u.role = .loop := by
    obtain ⟨hrole, -⟩ := hus
    rw [hrole, hr]
  have huconf {g : Fld} (hg : g ∈ loopConfig) (hne : g.addr ≠ rLOOPCALG) : u.fld g = s.fld g := hu ▸ loopWrite_config hr hg hne _
  have huc : u.fld fSACCLAIM_CLAIM = 0 := by rw [huconf (by simp [loopConfig]) (by decide), hc]
  have hugain : u.fld fLOOPCALG_GAIN = 32768 := by
    rw [hushow.config (by simp [loopConfig]), loopTaken_stored specOf_loopcalg rfl (by decide)]
    exact fldOf_ofNat_low rfl (by decide) (by decide)
  obtain ⟨w, hw⟩ : ∃ w, w = u.deferSync.loopWrite rLOOPCALO (BitVec.ofNat 32 0) := ⟨_, rfl⟩
  have hwshow : Shows (loopTaken u rLOOPCALO (BitVec.ofNat 32 0)) w := hw ▸ loopWrite_shows hur _ _
  have hws : u.besides w := hw ▸ loopWrite_besides hur _ _
  have hwr : w.role = .loop := by
    obtain ⟨hrole, -⟩ := hws
    rw [hrole, hur]
  have hwconf {g : Fld} (hg : g ∈ loopConfig) (hne : g.addr ≠ rLOOPCALO) : w.fld g = u.fld g := hw ▸ loopWrite_config hur hg hne _
  have hwofs : w.fld fLOOPCALO_OFS = 0 := by
    rw [hwshow.config (by simp [loopConfig]), loopTaken_stored specOf_loopcalo rfl (by decide)]
    exact fldOf_ofNat_low rfl (by decide) (by decide)
  have hwgain : w.fld fLOOPCALG_GAIN = 32768 := by rw [hwconf (by simp [loopConfig]) (by decide), hugain]
  have hwloop : w.loop = s.loop := by
    rw [hwshow.loop, loopTaken_other (by decide) (by decide), hushow.loop, loopTaken_other (by decide) (by decide)]
  -- the end of the calibration
  obtain ⟨x, hx⟩ : ∃ x, x = (calibrated w).loopSync none := ⟨_, rfl⟩
  have hxshow : Shows (calibrated w) x := hx ▸ loopSync_shows (s := calibrated w) hwr none
  have hcal {g : Fld} (hg : fLOOPFLAG_CALDONE.other g = true) : (calibrated w).fld g = w.fld g :=
    State.fld_setFld_other w fLOOPFLAG_CALDONE g 1 hg
  have hforced : (calibrated w).loopForced = false := by
    have hon : (calibrated w).on fCLKSTAT_FORCED = s.on fCLKSTAT_FORCED := by
      rw [on_of_fld (hcal (by decide)), on_of_fld (hwconf (by simp [loopConfig]) (by decide)),
        on_of_fld (huconf (by simp [loopConfig]) (by decide))]
    have hloop : (calibrated w).loop = { s.loop with calHold := none } := by rw [← hwloop]; rfl
    rw [State.loopForced, hon, hloop, ← hf]
    rfl
  have hmode : x.fld fLOOPNOW_MODE ≠ 3 := by
    rw [hxshow.mode]
    exact loopNow_unforced hforced
  have hxb : x.cfgBusy = false := by
    have hcalb : (calibrated w).cfgBusy = w.cfgBusy := rfl
    rw [hxshow.cfgBusy, hcalb, hwshow.cfgBusy, loopTaken_cfgBusy, hushow.cfgBusy, loopTaken_cfgBusy, hb]
  have h1 := cfgStore_logged x hxb 4 32768
  have hb1 := h1.cfgBusy.trans hxb
  have h2 := cfgStore_logged (x.cfgStore 4 32768) hb1 5 0
  have hb2 := h2.cfgBusy.trans hb1
  obtain ⟨y, hy⟩ : ∃ y, y = (x.cfgStore 4 32768).cfgStore 5 0 := ⟨_, rfl⟩
  rw [← hy] at h2 hb2
  have hyfld (g : Fld) : y.fld g = x.fld g := fld_of_regs (h2.regs.trans h1.regs) g
  have hgo : exec (.loopCalCompute d) s = .next (y.complete d stOK 0 []) := by
    refine congrArg Host.Outcome.next ((congrArg (fun b => s.runDesc d b _) (decide_eq_true hr)).trans (runDesc_done h ?_))
    simp only [hcalc]
    rw [setup_cons hc (loopRegs_open _ (by simp)), ← hu, setup_cons huc (loopRegs_open _ (by simp)), ← hw, setup_nil]
    dsimp only
    rw [bne_self_eq_false, if_neg Bool.false_ne_true, ← calibrated, ← hx, ← hy, hyfld, if_neg hmode, State.cfgDone, if_neg (by simp [hb2])]
  refine ⟨y, hgo, ?_, ?_, ?_, ?_, ?_⟩
  · rw [hyfld, hxshow.config (by simp [loopConfig]), hcal (by decide), hwgain]
  · rw [hyfld, hxshow.config (by simp [loopConfig]), hcal (by decide), hwofs]
  · rw [on_of_fld (hyfld _), hxshow.configOn (by simp [loopConfig])]
    exact on_setFld_one w _ (by decide) (by decide)
  · rw [h2.loop, h1.loop, hxshow.loop]
    rfl
  · have hcalbes : w.besides (calibrated w) := ⟨rfl, rfl, rfl, rfl, rfl, rfl⟩
    exact State.besides_trans (State.besides_trans hus hws) (State.besides_trans hcalbes (State.besides_trans hxshow.besides
      (State.besides_trans h1.besides h2.besides)))

omit hc in
theorem loopCalCompute_range (hi : signed 32 (dsArgs d 8 4) ≤ signed 32 (dsArgs d 4 4)) :
    exec (.loopCalCompute d) s = .next (s.complete d 0x51 0 []) := by
  refine congrArg Host.Outcome.next ((congrArg (fun b => s.runDesc d b _) (decide_eq_true hr)).trans (runDesc_done h ?_))
  have hnone : s.loopCalc (dsInt32 d 4) (dsInt32 d 8) = none := if_pos hi
  rw [hnone]
  rfl

omit hc in
theorem loopQuery_answers : exec (.loopQuery d) s = .next (s.answers d [rLOOPNOW, rLOOPMEAS, rLOOPSTAT, rLOOPFLAG]) :=
  congrArg Host.Outcome.next ((congrArg (fun b => s.runDesc d b _) (decide_eq_true hr)).trans (runDesc_done h rfl))

end

end Sys2Proof.Proofs
end

section
/-! PROOF. The loop's own events (R424, R427, R431, R434), and O25. -/

namespace Sys2Proof.Proofs

open Sys2Proof Sys2Proof.Machine

variable {s t : State} {m : Nat}

section
variable (hr : s.role = .loop) (hslice : s.inSlice 48 49 = false) (hf : s.loopForced = false) (hen : s.on fLOOPCTL_EN = true)

/-- No set point came in time. -/
def lateLoop (s : State) : State := { s.raise [fLOOPFLAG_TMO] with loop := { s.loop with late := true } }

include hr hslice hf hen in
theorem loopUpdateTimeout_faults (hhold : s.loop.calHold = none) (hmap : s.loop.mapSrc = 0xFF) :
    ∃ t, exec .loopUpdateTimeout s = .next t ∧ t.on fLOOPFLAG_TMO = true ∧ t.loop.late = true ∧ t.fld fLOOPNOW_MODE = 2 ∧
      t.fld fLOOPNOW_CODE = (if s.on fLOOPCTL_FDIR then 55040 else 8960) ∧ s.besides t := by
  have hfld {g : Fld} (hg : fLOOPFLAG_TMO.other g = true) : (lateLoop s).fld g = s.fld g := State.fld_setFld_other s _ g 1 hg
  have hshow : Shows (lateLoop s) ((lateLoop s).loopSync (some 2)) := loopSync_shows (s := lateLoop s) hr _
  have hforced : (lateLoop s).loopForced = false := by
    rw [State.loopForced, on_of_fld (hfld (by decide))]
    exact hf
  have hfault : (lateLoop s).loopFaulted = true := by
    have hlate : (lateLoop s).loop.late = true := rfl
    rw [State.loopFaulted, hlate]
    simp
  have hnow := loopNow_faulted hforced ((on_of_fld (hfld (by decide))).trans hen) (show (lateLoop s).loop.calHold = none from hhold) hfault
  rw [on_of_fld (hfld (g := fLOOPCTL_FDIR) (by decide))] at hnow
  have hgo : exec .loopUpdateTimeout s = .next ((lateLoop s).loopSync (some 2)) := by
    refine congrArg Host.Outcome.next ?_
    rw [if_neg (by simp [hr, hhold, hslice]), if_pos hmap]
    rfl
  refine ⟨_, hgo, ?_, ?_, ?_, ?_, ?_⟩
  · rw [hshow.configOn (by simp [loopConfig])]
    exact on_setFld_one s _ (by decide) (by decide)
  · rw [hshow.loop]
    rfl
  · rw [hshow.mode, hnow]
  · rw [hshow.code, hnow]
    split <;> rfl
  · have hlate : s.besides (lateLoop s) := ⟨rfl, rfl, rfl, rfl, rfl, rfl⟩
    exact State.besides_trans hlate hshow.besides

include hr hf hen in
theorem loopCalHoldExpiry_ends {c : Nat} (hhold : s.loop.calHold = some c) (hfault : s.loopFaulted = false) :
    ∃ t, exec .loopCalHoldExpiry s = .next t ∧ t.loop.calHold = none ∧
      t.fld fLOOPNOW_CODE = Max.max 9728 (Min.min 52480 (s.fld fLOOPSET_CODE)) ∧ s.besides t := by
  have hshow : Shows s.loopHoldEnd (s.loopHoldEnd.loopSync none) := loopSync_shows (s := s.loopHoldEnd) hr none
  have hnow : s.loopHoldEnd.loopNow = (1, max 9728 (min 52480 (s.fld fLOOPSET_CODE))) :=
    loopNow_normal (s := s.loopHoldEnd) hf hen rfl hfault
  have hgo : exec .loopCalHoldExpiry s = .next (s.loopHoldEnd.loopSync none) := by
    refine congrArg Host.Outcome.next (if_pos ?_)
    rw [hhold]
    rfl
  refine ⟨_, hgo, ?_, ?_, ?_⟩
  · rw [hshow.loop]
    rfl
  · rw [hshow.code, hnow]
    exact Nat.mod_eq_of_lt (Nat.lt_of_le_of_lt (Nat.max_le.mpr ⟨by decide, Nat.min_le_left _ _⟩) (show 52480 < 2 ^ 16 by decide))
  · have hend : s.besides s.loopHoldEnd := ⟨rfl, rfl, rfl, rfl, rfl, rfl⟩
    exact State.besides_trans hend hshow.besides

/-- A reading of the loop current. -/
def measured (s : State) (m : Nat) : State := s.setFld fLOOPMEAS_MEAS m

theorem measured_eq (s : State) (m : Nat) : s.setFld fLOOPMEAS_MEAS m = measured s m := rfl

theorem measured_meas (hm : m < 65536) : (measured s m).fld fLOOPMEAS_MEAS = m := by
  rw [measured, State.fld_setFld _ _ _ (by decide)]
  exact Nat.mod_eq_of_lt hm

theorem measured_now (s : State) (m : Nat) : (measured s m).fld fLOOPNOW_CODE = s.fld fLOOPNOW_CODE :=
  State.fld_setFld_other _ _ _ _ (by decide)

/-- The distance of a reading from the set current. -/
def offBy (set m : Nat) : Nat := if m < set then set - m else m - set

include hr hslice in
/-- A reading is judged against LOOPNOW (R434). -/
theorem loopReadback_judged (hm : m < 65536) : exec (.loopReadback m) s = .next
    (if decide (offBy (s.fld fLOOPNOW_CODE) m * 100 ≤ s.fld fLOOPNOW_CODE + 12800) then
      let n := min 100 (s.loop.okRun + 1)
      let t := { measured s m with loop := { s.loop with okRun := n, badRun := 0 } }
      if n = 100 && t.on fLOOPSTAT_MISMATCH then (t.setFld fLOOPSTAT_MISMATCH 0).loopSync none else t
    else
      let n := min 10 (s.loop.badRun + 1)
      let t := { measured s m with loop := { s.loop with badRun := n, okRun := 0 } }
      if n = 10 && !t.on fLOOPSTAT_MISMATCH then ((t.setFld fLOOPSTAT_MISMATCH 1).raise [fLOOPFLAG_MISMATCH]).loopSync (some 3) else t) := by
  refine congrArg Host.Outcome.next ?_
  rw [if_neg (by simp [hr, hslice])]
  simp only [measured_eq, measured_meas hm, measured_now]
  rfl

include hr hslice in
theorem loopReadback_good (hm : m < 65536) (heq : (m : Int) - s.fld fLOOPNOW_CODE = 0) (hok : s.loop.okRun < 99) :
    ∃ t, exec (.loopReadback m) s = .next t ∧ t.fld fLOOPMEAS_MEAS = m ∧ t.loop.badRun = 0 ∧ t.loop.okRun = s.loop.okRun + 1 ∧
      s.besidesAll t := by
  have hset : m = s.fld fLOOPNOW_CODE := by omega
  have hoff : offBy (s.fld fLOOPNOW_CODE) m = 0 := by
    rw [offBy, ← hset]
    simp
  have hrun : min 100 (s.loop.okRun + 1) = s.loop.okRun + 1 := Nat.min_eq_right (by omega)
  refine ⟨{ measured s m with loop := { s.loop with okRun := s.loop.okRun + 1, badRun := 0 } }, ?_, measured_meas hm, rfl, rfl, ?_⟩
  · rw [loopReadback_judged hr hslice hm, hoff, if_pos (by simp)]
    dsimp only
    rw [hrun, if_neg]
    have hne : s.loop.okRun + 1 ≠ 100 := by omega
    simp [hne]
  · exact ⟨⟨rfl, rfl, rfl, rfl, rfl, rfl⟩, rfl, rfl, rfl, rfl, rfl, rfl⟩

/-- The tenth reading outside the limits. -/
def mismatched (s : State) (m : Nat) : State :=
  (({ measured s m with loop := { s.loop with badRun := 10, okRun := 0 } } : State).setFld fLOOPSTAT_MISMATCH 1).raise [fLOOPFLAG_MISMATCH]

include hr hslice in
theorem loopReadback_mismatch (hm : m < 65536) (hfar : s.fld fLOOPNOW_CODE + 12800 < (s.fld fLOOPNOW_CODE - m) * 100)
    (hbad : s.loop.badRun = 9) (hmis : s.on fLOOPSTAT_MISMATCH = false) :
    ∃ t, exec (.loopReadback m) s = .next t ∧ t.on fLOOPSTAT_MISMATCH = true ∧ t.on fLOOPFLAG_MISMATCH = true ∧ s.besides t := by
  have hoff : offBy (s.fld fLOOPNOW_CODE) m = s.fld fLOOPNOW_CODE - m := by
    rw [offBy, if_pos (by omega)]
  have hkept : (measured s m).on fLOOPSTAT_MISMATCH = false := by
    rw [measured, on_setFld_other _ _ _ _ (by decide), hmis]
  have hshow : Shows (mismatched s m) ((mismatched s m).loopSync (some 3)) := loopSync_shows (s := mismatched s m) hr _
  have hgo : exec (.loopReadback m) s = .next ((mismatched s m).loopSync (some 3)) := by
    rw [loopReadback_judged hr hslice hm, hoff, decide_eq_false (by omega), if_neg Bool.false_ne_true]
    dsimp only
    have hon : ({ measured s m with loop := { s.loop with badRun := min 10 (s.loop.badRun + 1), okRun := 0 } } : State).on fLOOPSTAT_MISMATCH =
        false := hkept
    rw [hon, hbad]
    rfl
  refine ⟨_, hgo, ?_, ?_, ?_⟩
  · rw [hshow.configOn (by simp [loopConfig]), mismatched, State.raise_cons, State.raise_nil, on_setFld_other _ _ _ _ (by decide)]
    exact on_setFld_one _ _ (by decide) (by decide)
  · rw [hshow.configOn (by simp [loopConfig]), mismatched, State.raise_cons, State.raise_nil]
    exact on_setFld_one _ _ (by decide) (by decide)
  · have hfirst : s.besides (mismatched s m) := ⟨rfl, rfl, rfl, rfl, rfl, rfl⟩
    exact State.besides_trans hfirst hshow.besides

end

/-- Settles O25: each descriptor and event brings LOOPNOW up to date with R424 (`loopSync_shows`). -/
theorem currentLoop : Obligations.CurrentLoop := by
  unfold Obligations.CurrentLoop
  refine ⟨fun s d h hr hc => ?_, fun s m hr hslice hf hen => ?_⟩
  · exact ⟨fun ⟨hen, hfault, hsrc, hmis, hf⟩ => loopSet_normal h hr hc hen hfault hsrc hmis hf, loopSet_forced h hr hc,
      loopMode_stores h hr hc, loopMode_invalid h hr, loopMap_stores h hr hc, loopMap_invalid h hr,
      fun ⟨hen, _, _, _, hf⟩ => by
        obtain ⟨t, hstep, ht⟩ := loopCalStep_holds h hr hen hf (code := 10240) (by decide)
        exact ⟨t, congrArg Host.Outcome.next hstep, ht⟩,
      fun ⟨hen, _, _, _, hf⟩ => by
        obtain ⟨t, hstep, ht⟩ := loopCalStep_holds h hr hen hf (code := 51200) (by decide)
        exact ⟨t, congrArg Host.Outcome.next hstep, ht⟩,
      fun ⟨_, _, _, _, hf⟩ => loopCalCompute_keeps h hr hc hf, loopCalCompute_range h hr, loopQuery_answers h hr⟩
  · exact ⟨loopUpdateTimeout_faults hr hslice hf hen, fun c => loopCalHoldExpiry_ends hr hf hen, loopReadback_good hr hslice,
      loopReadback_mismatch hr hslice⟩

end Sys2Proof.Proofs
end

section
/-! PROOF. A seal entry appended to a ring with room (R389 to R391). -/

namespace Sys2Proof.Proofs

open Sys2Proof Sys2Proof.Machine

variable {s : State}

/-! ### What Rhoco's own writes leave the Sacristy -/

theorem setLines_sac (s : State) (c : CacheId) (l : List CLine) : (s.setLines c l).sac = s.sac := by
  cases c <;> rfl

theorem invalidateOthers_sac (s : State) (me : Option CacheId) (base : Nat) : (s.invalidateOthers me base).sac = s.sac :=
  List.foldlRecOn (motive := fun t : State => t.sac = s.sac) (othersOf me) (fun t c => t.setLines c (dropLine (t.lines c) base)) rfl
    fun t ht c _ => (setLines_sac t c _).trans ht

theorem dirtyMerged_sac (s : State) (me : Option CacheId) (base : Nat) : (dirtyMerged s me base).sac = s.sac := by
  unfold dirtyMerged
  split <;> rfl

theorem copyTakes_sac (s : State) (me : Option CacheId) (a : Nat) (bs : List Byte) : (copyTakes s me a bs).sac = s.sac := by
  unfold copyTakes
  split
  · split
    · exact setLines_sac s _ _
    · rfl
  · rfl

theorem mramWrite_sac (s : State) (a : Nat) (bs : List Byte) : (s.mramWrite a bs).sac = s.sac := rfl

theorem writeUnique_sac (s : State) (me : Option CacheId) (agent a : Nat) (bs : List Byte) : (s.writeUnique me agent a bs).sac = s.sac := by
  have hcopies : (copyTakes ((dirtyMerged (s.homeStart agent a) me (lineOf a)).invalidateOthers me (lineOf a)) me a bs).sac = s.sac := by
    rw [copyTakes_sac, invalidateOthers_sac, dirtyMerged_sac]
    rfl
  rw [writeUnique_eq]
  split
  · rw [mramWrite_sac, hcopies]
  · exact hcopies

theorem wordsWrite_sac (n : Nat) : ∀ (s : State) (a : Nat) (bs : List Byte), (s.wordsWrite n a bs).sac = s.sac := by
  induction n with
  | zero => exact fun _ _ _ => rfl
  | succ n ih =>
    intro s a bs
    rw [State.wordsWrite]
    split
    · rfl
    · dsimp only
      rw [ih, writeUnique_sac]

theorem rhocoWrite_sac (s : State) (a : Nat) (bs : List Byte) : (s.rhocoWrite a bs).sac = s.sac := wordsWrite_sac _ s a bs

/-! ### The append -/

/-- An entry that does not bring the ring near full. -/
theorem sealPut_sac (ch kind : Nat) (rd : List Byte) (h : (s.sac.seq + 1 + 2 ^ 32 - s.sac.ack) % 2 ^ 32 ≠ 768) :
    (s.sealPut ch kind rd).sac = { s.sac with
      seq := (s.sac.seq + 1) % 2 ^ 32, lastTag := (s.sealEntry s.sac.seq ch kind rd).drop 48, copyB := !s.sac.copyB, valid := true } := by
  simp only [State.sealPut, if_neg h, rhocoWrite_sac]

/-- An append in Cell role that nothing holds, with room and nothing missed. -/
theorem sealAppend_put (ch kind : Nat) (rd : List Byte) (hr : s.role = .cell) (hh : s.on fSACSTAT_HELD = false)
    (hd : s.on fSACSTAT_SEALDEAD = false) (hf : s.sealFull = false) (hm : s.sac.missed = 0) : s.sealAppend ch kind rd = s.sealPut ch kind rd := by
  simp [State.sealAppend, hr, hh, hd, hf, hm]

end Sys2Proof.Proofs
end

section
/-! PROOF. Font's ticks and shots (R438 to R440, R447, R457). -/

namespace Sys2Proof.Proofs

open Sys2Proof Sys2Proof.Machine

variable {s t u : State} {v : Word} {cu cd : Nat}

/-! ### Font beside the rest -/

theorem fontSet_besidesAll (s : State) (f : Font → Font) : s.besidesAll (s.fontSet f) :=
  ⟨s.besides_refl, rfl, rfl, rfl, rfl, rfl, rfl⟩

theorem Within.fontSet {l : List Fld} (h : Within l s t) (f : Font → Font) : Within l s (t.fontSet f) :=
  h.trans ⟨fun _ _ => rfl, fontSet_besidesAll t f⟩

theorem plainWrite_font (s : State) (a : Nat) (v : Word) : (s.plainWrite a v).font = s.font := by
  rw [(plainWrite_writes (l := [wholeReg a]) s v (List.mem_singleton_self _)).regs]

theorem plainWrite_clk (s : State) (a : Nat) (v : Word) : (s.plainWrite a v).clk = s.clk := by
  rw [(plainWrite_writes (l := [wholeReg a]) s v (List.mem_singleton_self _)).regs]

theorem now_of_clk (h : t.clk = s.clk) : t.now = s.now := by
  rw [State.now, h, State.now]

theorem setFld_font (s : State) (f : Fld) (v : Nat) : (s.setFld f v).font = s.font := rfl

/-! ### An armed start -/

theorem specOf_fontth : specOf rFONTTH = some ⟨0x40013044, 1, 0, 0x1FFFF, 0, 0, 0, 0, 0, 0⟩ := by decide +kernel

theorem fontth_stored (s : State) (v : Word) : (s.plainWrite rFONTTH v).fld fFONTTH_TIME = v.toNat % 65536 ∧
    (s.plainWrite rFONTTH v).on fFONTTH_ARM = decide (v.toNat / 65536 % 2 = 1) := by
  refine ⟨?_, ?_⟩
  · rw [fld_plainWrite_stored s v specOf_fontth rfl (by decide), fldOf, BitVec.extractLsb'_toNat]
    rfl
  · rw [State.on, fld_plainWrite_stored s v specOf_fontth rfl (by decide), fldOf, BitVec.extractLsb'_toNat]
    simp only [fFONTTH_ARM, Nat.shiftRight_eq_div_pow]
    have h2 : v.toNat / 65536 % 2 = 0 ∨ v.toNat / 65536 % 2 = 1 := by omega
    rcases h2 with h | h
    · simp [h]
    · simp [h]

/-- FONTTH written with ARM. -/
theorem fontArm_goes (s : State) (h : v.toNat / 65536 % 2 = 1) : exec (.fontArm .sacristy v) s = .next
    (if (s.plainWrite rFONTTH v).on fFONTCTL_EN then
      (s.plainWrite rFONTTH v).fontArm (s.fld fFONTTL_TIME + v.toNat % 65536 * 2 ^ 32)
    else (s.plainWrite rFONTTH v).setFld fFONTTH_LATE 0) := by
  obtain ⟨htime, harm⟩ := fontth_stored s v
  rw [decide_eq_true h] at harm
  have htl : (s.plainWrite rFONTTH v).fld fFONTTL_TIME = s.fld fFONTTL_TIME := plainWrite_kept (by decide) s v
  refine congrArg Host.Outcome.next ?_
  have hfixed : fontFixed rFONTTH = false := by decide
  rw [vet_sacristy s v specOf_fontth, State.fontWrite, if_neg (by decide), hfixed, Bool.false_and, if_neg Bool.false_ne_true,
    if_neg (by decide), if_pos rfl]
  simp only [harm, htime, htl, Bool.true_and, if_true]

theorem fontArm_waits (hen : s.on fFONTCTL_EN = false) (h : v.toNat / 65536 % 2 = 1) : ∃ t, exec (.fontArm .sacristy v) s = .next t ∧
    t.on fFONTTH_ARM = true ∧ t.fld fFONTTH_TIME = v.toNat % 65536 ∧ t.on fFONTTH_LATE = false ∧ t.font = s.font ∧ s.besidesAll t := by
  obtain ⟨htime, harm⟩ := fontth_stored s v
  have hoff : (s.plainWrite rFONTTH v).on fFONTCTL_EN = false := by rw [on_of_fld (plainWrite_kept (by decide) s v), hen]
  refine ⟨_, (fontArm_goes s h).trans (by rw [hoff, if_neg Bool.false_ne_true]), ?_, ?_, ?_, ?_, ?_⟩
  · rw [on_setFld_other _ _ _ _ (by decide), harm, decide_eq_true h]
  · rw [State.fld_setFld_other _ _ _ _ (by decide), htime]
  · exact on_setFld_zero _ _ (by decide) (by decide)
  · rw [setFld_font, plainWrite_font]
  · exact State.besidesAll_trans (plainWrite_besidesAll s rFONTTH v) (State.besidesAll_setFld _ _ _)

theorem fontArm_future (hen : s.on fFONTCTL_EN = true) (h : v.toNat / 65536 % 2 = 1)
    (hp : past (s.fld fFONTTL_TIME + v.toNat % 65536 * 2 ^ 32) s.now = false) : ∃ t, exec (.fontArm .sacristy v) s = .next t ∧
      t.font.due = some (s.fld fFONTTL_TIME + v.toNat % 65536 * 2 ^ 32) ∧ t.on fFONTTH_LATE = false ∧ s.besidesAll t := by
  have hon : (s.plainWrite rFONTTH v).on fFONTCTL_EN = true := by rw [on_of_fld (plainWrite_kept (by decide) s v), hen]
  have harm := fontArm_goes s h
  generalize s.fld fFONTTL_TIME + v.toNat % 65536 * 2 ^ 32 = due at hp harm
  have hnow : (s.plainWrite rFONTTH v).now = s.now := now_of_clk (plainWrite_clk s _ v)
  have hgo : (s.plainWrite rFONTTH v).fontArm due = ((s.plainWrite rFONTTH v).setFld fFONTTH_LATE 0).fontSet (fun x => { x with due := some due }) := by
    unfold State.fontArm
    have hpast : past due ((s.plainWrite rFONTTH v).setFld fFONTTH_LATE 0).now = false := by rw [setFld_now, hnow, hp]
    dsimp only
    rw [hpast, if_neg Bool.false_ne_true]
  refine ⟨_, harm.trans (by rw [hon, if_pos rfl, hgo]), ?_, ?_, ?_⟩
  · rw [State.fontSet_font]
  · rw [State.fontSet_on]
    exact on_setFld_zero _ _ (by decide) (by decide)
  · exact State.besidesAll_trans (State.besidesAll_trans (plainWrite_besidesAll s rFONTTH v) (State.besidesAll_setFld _ _ _))
      (fontSet_besidesAll _ _)

/-! ### Ticks -/

/-- Both ports measured. -/
def probed (s : State) (cu cd : Nat) : State := (s.setFld fFONTIMP_CAPU cu).setFld fFONTIMP_CAPD cd

/-- The finding on a port (Table 20.6): 0 is in range. -/
def portKind (s : State) (c : Nat) (resistive : Bool) : Nat :=
  if resistive || decide (s.fld fFONTCAPW_CMAX < c) then 2 else if c < s.fld fFONTCAPW_CMIN then 1 else 0

/-- One port's finding applied to its runs and its fault. -/
def portStep (t : State) (p c kind : Nat) : State :=
  let q := portCheck (t.font.badRun.getD p 0) (t.font.goodRun.getD p 0) (t.font.fault.getD p 0) kind
  let was := t.font.fault.getD p 0
  let t := t.fontSet (fun x => { x with
    badRun := x.badRun.set p q.1, goodRun := x.goodRun.set p q.2.1, fault := x.fault.set p q.2.2 })
  if q.2.2 != 0 && was = 0 then
    t.flagEvent (if q.2.2 = 1 then fFONTFLAG_ABSENT else fFONTFLAG_SHORT) 0x0402
      (leBytes 1 p ++ leBytes 1 (q.2.2 - 1) ++ leBytes 2 c)
  else t

/-- The port status as the faults leave it. -/
def portsShown (t : State) : State :=
  (t.setFld fFONTSTAT_ABSENT (b2n (t.font.fault.contains 1))).setFld fFONTSTAT_SHORT (b2n (t.font.fault.contains 2))

theorem fontPorts_eq (s : State) (cu cd : Nat) (ru rd : Bool) : s.fontPorts cu cd ru rd =
    portsShown (portStep (portStep (probed s cu cd) 0 cu (portKind (probed s cu cd) cu ru)) 1 cd (portKind (probed s cu cd) cd rd)) := rfl

theorem fontSet_self {f : Font → Font} (h : f s.font = s.font) : s.fontSet f = s := by
  rw [State.fontSet, h]

/-- A good check of a port whose runs and fault are those of a good port changes nothing. -/
theorem portStep_good {p : Nat} (hp : p < 2) (hfault : t.font.fault = [0, 0]) (hbad : t.font.badRun = [0, 0]) (hgood : t.font.goodRun = [2, 2])
    (c : Nat) : portStep t p c 0 = t := by
  have hcheck : ∀ p < 2, portCheck ([0, 0].getD p 0) ([2, 2].getD p 0) ([0, 0].getD p 0) 0 = (0, 2, 0) := by decide
  have hset : ∀ p < 2, ([0, 0] : List Nat).set p 0 = [0, 0] ∧ ([2, 2] : List Nat).set p 2 = [2, 2] := by decide
  obtain ⟨hzero, htwo⟩ := hset p hp
  unfold portStep
  simp only [hfault, hbad, hgood, hcheck p hp, bne_self_eq_false, Bool.false_and, Bool.false_eq_true, if_false]
  refine fontSet_self ?_
  have hbads : t.font.badRun.set p 0 = t.font.badRun := by rw [hbad, hzero]
  have hgoods : t.font.goodRun.set p 2 = t.font.goodRun := by rw [hgood, htwo]
  have hfaults : t.font.fault.set p 0 = t.font.fault := by rw [hfault, hzero]
  simp only [hbads, hgoods, hfaults]

theorem fontPorts_good (hfault : s.font.fault = [0, 0]) (hbad : s.font.badRun = [0, 0]) (hgood : s.font.goodRun = [2, 2])
    (hlo : s.fld fFONTCAPW_CMIN ≤ cu) (hhi : cu ≤ s.fld fFONTCAPW_CMAX) :
    s.fontPorts cu cu false false = ((probed s cu cu).setFld fFONTSTAT_ABSENT 0).setFld fFONTSTAT_SHORT 0 := by
  have hmin : (probed s cu cu).fld fFONTCAPW_CMIN = s.fld fFONTCAPW_CMIN := by
    rw [probed, State.fld_setFld_other _ _ _ _ (by decide), State.fld_setFld_other _ _ _ _ (by decide)]
  have hmax : (probed s cu cu).fld fFONTCAPW_CMAX = s.fld fFONTCAPW_CMAX := by
    rw [probed, State.fld_setFld_other _ _ _ _ (by decide), State.fld_setFld_other _ _ _ _ (by decide)]
  have hkind : portKind (probed s cu cu) cu false = 0 := by
    rw [portKind, hmin, hmax, decide_eq_false (Nat.not_lt.mpr hhi), if_neg (by simp), if_neg (Nat.not_lt.mpr hlo)]
  have hfont : (probed s cu cu).font = s.font := rfl
  have hgood (p : Nat) (hp : p < 2) : portStep (probed s cu cu) p cu 0 = probed s cu cu :=
    portStep_good hp (hfont ▸ hfault) (hfont ▸ hbad) (hfont ▸ hgood) cu
  rw [fontPorts_eq, hkind, hgood 0 (by decide), hgood 1 (by decide), portsShown, hfont, hfault]
  rfl

/-- A time that is now is not past. -/
theorem past_now (s : State) : past s.now s.now = false := by
  have hlt : s.now < 2 ^ 48 := Nat.mod_lt _ (by decide)
  rw [past]
  exact decide_eq_false (by omega)

/-- The next tick set as a tick falls due on time (R447). -/
def nextDue (s : State) : State := s.fontSet fun x => { x with
  due := some ((s.now + 1 * s.fontPeriod s.fontFlow) % 2 ^ 48), lastDue := (s.now + (1 - 1) * s.fontPeriod s.fontFlow) % 2 ^ 48 }

/-- A tick that is due now, with the last one ended or not. -/
theorem fontTick_due (hdue : s.font.due = some s.now) (hrun : s.on fFONTSTAT_RUN = true) (cu cd : Nat) :
    exec (.fontTick cu cd false false) s = .next
      (if (nextDue s).font.phase != 0 then ((nextDue s).raise [fFONTFLAG_OVERRUN]).fontMiss 1 4 (some fFONTFLAG_OVERRUN)
      else if (nextDue s).spireRefuses || (nextDue s).clk.spireHeld then ((nextDue s).raise [fFONTFLAG_HELD]).fontMiss 1 1 (some fFONTFLAG_HELD)
      else
        let t := (nextDue s).fontPorts cu cd false false
        if t.font.fault.any (· != 0) then t.fontMiss 1 2 none
        else
          let m := 2 * min 4 (t.fld fFONTCTL_MED) + 1
          let p := t.fld fFONTCTL_PAIRS + 1
          t.fontSet (fun x => { x with
            phase := 1, pair := 0, pairs := if t.role = .loop then min 4 p else p, med := m, hist := x.hist.take m,
            nvalid := 0, sumDt2 := 0, sumT2 := 0, weak := false })) := by
  refine congrArg Host.Outcome.next ?_
  rw [hdue]
  have hmiss (t : State) (f : Option Fld) : t.fontMiss (1 - 1) 4 f = t := rfl
  simp only [hrun, past_now, decide_true, Bool.true_or, Bool.not_true, Bool.or_self, Bool.false_eq_true, if_false, Bool.false_and, hmiss]
  rfl

/-- A tick that begins its pairs in Cell role (R440 F1). -/
def pairsBegun (w : State) : State :=
  w.fontSet fun x => { x with
    phase := 1, pair := 0, pairs := w.fld fFONTCTL_PAIRS + 1, med := 2 * min 4 (w.fld fFONTCTL_MED) + 1
    hist := x.hist.take (2 * min 4 (w.fld fFONTCTL_MED) + 1), nvalid := 0, sumDt2 := 0, sumT2 := 0, weak := false }

theorem fontTick_charges (hdue : s.font.due = some s.now) (hrun : s.on fFONTSTAT_RUN = true) (hphase : s.font.phase = 0)
    (hpll : s.on fCLKSTAT_PLLLOCK = true) (hheld : s.clk.spireHeld = false) (hr : s.role = .cell) (hfault : s.font.fault = [0, 0])
    (hbad : s.font.badRun = [0, 0]) (hgood : s.font.goodRun = [2, 2]) (hlo : s.fld fFONTCAPW_CMIN ≤ cu) (hhi : cu ≤ s.fld fFONTCAPW_CMAX)
    (hcd : cd = cu) : ∃ t, exec (.fontTick cu cd false false) s = .next t ∧ t.font.phase = 1 ∧ t.font.pair = 0 ∧
      t.font.due = some ((s.now + s.fontPeriod s.fontFlow) % 2 ^ 48) ∧ t.font.pairs = s.fld fFONTCTL_PAIRS + 1 ∧ t.fld fFONTIMP_CAPU = cu ∧
      t.on fFONTSTAT_ABSENT = false ∧ t.on fFONTSTAT_SHORT = false ∧ s.besidesAll t := by
  subst hcd
  have hports := fontPorts_good (s := nextDue s) (cu := cd) hfault hbad hgood hlo hhi
  obtain ⟨w, hw⟩ : ∃ w, w = ((probed (nextDue s) cd cd).setFld fFONTSTAT_ABSENT 0).setFld fFONTSTAT_SHORT 0 := ⟨_, rfl⟩
  rw [← hw] at hports
  have hwfont : w.font = (nextDue s).font := by rw [hw]; rfl
  have hwrole : w.role = .cell := by rw [hw]; exact hr
  have hwpairs : w.fld fFONTCTL_PAIRS = s.fld fFONTCTL_PAIRS := by
    rw [hw, State.fld_setFld_other _ _ _ _ (by decide), State.fld_setFld_other _ _ _ _ (by decide), probed,
      State.fld_setFld_other _ _ _ _ (by decide), State.fld_setFld_other _ _ _ _ (by decide), nextDue, State.fontSet_fld]
  have hspire : (nextDue s).spireRefuses = false := by
    rw [State.spireRefuses, nextDue, State.fontSet_on, hpll]
    rfl
  have hnophase : (nextDue s).font.phase = 0 := hphase
  have hnohold : (nextDue s).clk.spireHeld = false := hheld
  have hnofault : w.font.fault.any (· != 0) = false := by
    rw [hwfont]
    change s.font.fault.any (· != 0) = false
    rw [hfault]
    rfl
  refine ⟨pairsBegun w, (fontTick_due hdue hrun cd cd).trans ?_, ?_⟩
  · rw [hnophase, hspire, hnohold, hports]
    simp only [bne_self_eq_false, Bool.or_self, Bool.false_eq_true, if_false, hnofault, hwrole, reduceCtorEq, pairsBegun]
  · rw [pairsBegun]
    refine ⟨rfl, rfl, ?_, ?_, ?_, ?_, ?_, ?_⟩
    · rw [State.fontSet_font, hwfont, nextDue, State.fontSet_font, Nat.one_mul]
    · rw [State.fontSet_font, hwpairs]
    · rw [State.fontSet_fld, hw, State.fld_setFld_other _ _ _ _ (by decide), State.fld_setFld_other _ _ _ _ (by decide), probed,
        State.fld_setFld_other _ _ _ _ (by decide), State.fld_setFld _ _ _ (by decide)]
      exact Nat.mod_eq_of_lt (hhi.trans_lt (fldOf_lt _ fFONTCAPW_CMAX))
    · rw [State.fontSet_on, hw, on_setFld_other _ _ _ _ (by decide)]
      exact on_setFld_zero _ _ (by decide) (by decide)
    · rw [State.fontSet_on, hw]
      exact on_setFld_zero _ _ (by decide) (by decide)
    · have hprobe : s.besidesAll (probed (nextDue s) cd cd) := State.besidesAll_trans (fontSet_besidesAll s _)
        (State.besidesAll_trans (State.besidesAll_setFld _ _ _) (State.besidesAll_setFld _ _ _))
      refine State.besidesAll_trans ?_ (fontSet_besidesAll w _)
      rw [hw]
      exact State.besidesAll_trans hprobe (State.besidesAll_trans (State.besidesAll_setFld _ _ _) (State.besidesAll_setFld _ _ _))

theorem Posted.font (h : Posted s t) : t.font = s.font := by rw [h]

theorem Posted.rhocoUp (h : Posted s t) : t.rhocoUp = s.rhocoUp := by
  rw [h]
  rfl

/-- The cause of a missed tick kept for the next GAP (R450). -/
def causeKept (t : State) (cause : Nat) : State := t.fontSet fun x => { x with causes := x.causes ||| 2 ^ cause }

/-- A missed tick that is told while Rhoco is not up. -/
theorem fontMiss_stopped (hup : t.rhocoUp = false) (cause : Nat) (f : Fld) :
    (t.fontMiss 1 cause (some f)).regs = t.regs ∧ (t.fontMiss 1 cause (some f)).font = { t.font with causes := t.font.causes ||| 2 ^ cause } ∧
      t.besides (t.fontMiss 1 cause (some f)) := by
  obtain ⟨u, hu⟩ : ∃ u, u = (causeKept t cause).event 0x0404 (leBytes 1 (2 ^ cause) ++ leBytes 2 1) := ⟨_, rfl⟩
  have hpost : Posted (causeKept t cause) u := hu ▸ event_posted _ _ _
  have hkept : (causeKept t cause).rhocoUp = false := hup
  have heq : t.fontMiss 1 cause (some f) = u := by
    rw [State.fontMiss, if_neg (by decide)]
    change (if ((causeKept t cause).event _ _).rhocoUp then _ else (causeKept t cause).event _ _) = u
    rw [← hu, hpost.rhocoUp, hkept, if_neg Bool.false_ne_true]
  rw [heq]
  exact ⟨hpost.regs, hpost.font, State.besides_trans (fontSet_besidesAll t _).1 hpost.besides⟩

theorem fontTick_overruns (hdue : s.font.due = some s.now) (hrun : s.on fFONTSTAT_RUN = true) (hphase : s.font.phase = 2)
    (hup : s.rhocoUp = false) (cu cd : Nat) : ∃ t, exec (.fontTick cu cd false false) s = .next t ∧ t.on fFONTFLAG_OVERRUN = true ∧
      t.font.phase = 2 ∧ s.besides t := by
  have hnophase : (nextDue s).font.phase = 2 := hphase
  obtain ⟨hregs, hfont, hrest⟩ := fontMiss_stopped (show ((nextDue s).raise [fFONTFLAG_OVERRUN]).rhocoUp = false from hup) 4 fFONTFLAG_OVERRUN
  refine ⟨_, (fontTick_due hdue hrun cu cd).trans (congrArg _ (if_pos (by rw [hnophase]; rfl))), ?_, ?_, ?_⟩
  · rw [on_of_fld (fld_of_regs hregs _)]
    exact on_setFld_one _ _ (by decide) (by decide)
  · rw [hfont]
    exact hphase
  · exact State.besides_trans (State.besidesAll_trans (fontSet_besidesAll s _) (State.besidesAll_raise _ _)).1 hrest

theorem fontTick_none (hdue : s.font.due = none) (cu cd : Nat) : exec (.fontTick cu cd false false) s = .next s := by
  refine congrArg Host.Outcome.next ?_
  rw [hdue]

theorem vbstlow_misses (hphase : s.font.phase = 1) (hup : s.rhocoUp = false) : ∃ t, exec .vbstlow s = .next t ∧
    t.font.phase = 0 ∧ t.on fFONTFLAG_VBSTLOW = true ∧ t.on fFONTSTAT_SHOT = false ∧ s.besides t := by
  obtain ⟨hregs, -, hrest⟩ := fontMiss_stopped (show (s.raise [fFONTFLAG_VBSTLOW]).rhocoUp = false from hup) 4 fFONTFLAG_VBSTLOW
  refine ⟨_, congrArg Host.Outcome.next (if_pos hphase), rfl, ?_, ?_, ?_⟩
  · rw [State.fontIdle, State.fontSet_on, on_setFld_other _ _ _ _ (by decide), on_of_fld (fld_of_regs hregs _)]
    exact on_setFld_one _ _ (by decide) (by decide)
  · rw [State.fontIdle, State.fontSet_on]
    exact on_setFld_zero _ _ (by decide) (by decide)
  · exact State.besides_trans (State.besides_trans (State.besidesAll_raise _ _).1 hrest)
      (State.besidesAll_trans (State.besidesAll_setFld _ _ _) (fontSet_besidesAll _ _)).1

end Sys2Proof.Proofs
end

section
/-! PROOF. Font's shots and captures (R338, R438 to R443). -/

namespace Sys2Proof.Proofs

open Sys2Proof Sys2Proof.Machine

variable {s t u : State}

/-! ### Shots -/

theorem fontLen_le (s : State) : s.fontLen ≤ 2048 := Nat.max_le.mpr ⟨by decide, Nat.min_le_left _ _⟩

theorem fontLen_ge (s : State) : 16 ≤ s.fontLen := Nat.le_max_left _ _

/-- A capture reserved in window 2 (R338), and the shot. -/
def shotFired (s : State) : State :=
  ((s.setFld (fSBWRES_RESERVED 2) (2 * s.fontLen)).winSync 2).setFld fFONTSTAT_SHOT 1

theorem shotFired_font (s : State) : (shotFired s).font = s.font := by
  rw [shotFired, setFld_font, (winSync_writes _ 2).regs]
  rfl

theorem shotFired_spec (s : State) : (shotFired s).on fFONTSTAT_SHOT = true ∧ (shotFired s).fld (fSBWRES_RESERVED 2) = 2 * s.fontLen ∧
    s.besidesAll (shotFired s) := by
  refine ⟨on_setFld_one _ _ (by decide) (by decide), ?_, ?_⟩
  · rw [shotFired, State.fld_setFld_other _ _ _ _ (by decide), (winSync_writes _ 2).kept _ (by decide), State.fld_setFld _ _ _ (by decide)]
    exact Nat.mod_eq_of_lt (Nat.lt_of_le_of_lt (Nat.mul_le_mul_left 2 (fontLen_le s)) (by decide))
  · exact State.besidesAll_trans (State.besidesAll_trans (State.besidesAll_setFld _ _ _) (winSync_writes _ 2).besidesAll)
      (State.besidesAll_setFld _ _ _)

/-- Window 2 takes the capture. -/
theorem winReserve_room (hen : s.on (fSBWCFG_EN 2) = true) (hdrop : s.fld (fSBWDROP_DROPPED 2) = 0) (hroom : 2 * s.fontLen ≤ s.winFree 2) :
    s.winReserve 2 (2 * s.fontLen) = (true, (s.setFld (fSBWRES_RESERVED 2) (2 * s.fontLen)).winSync 2) := by
  unfold State.winReserve
  simp only [hen, hdrop, bne_self_eq_false, Bool.false_eq_true, if_false, Nat.add_zero, hroom, decide_true, Bool.and_self, if_true]

/-- Window 2 is not enabled and has dropped before. -/
theorem winReserve_none (hen : s.on (fSBWCFG_EN 2) = false) : s.winReserve 2 (2 * s.fontLen) = (false, s.winDrop 2 (2 * s.fontLen / 4)) := by
  unfold State.winReserve
  simp only [hen, Bool.false_and, Bool.false_eq_true, if_false]

/-- A drop of words with others dropped before. -/
theorem winDrop_more {k : Nat} (hdrop : 0 < s.fld (fSBWDROP_DROPPED 2)) (hk : k ≠ 0) :
    s.winDrop 2 k = (s.countBy (fSBWDROP_DROPPED 2) k).setFld (fDROP 2) 1 := by
  unfold State.winDrop
  simp only [Nat.pos_iff_ne_zero.mp hdrop, hk, if_false]

section
variable (hen : s.on (fSBWCFG_EN 2) = true) (hdrop : s.fld (fSBWDROP_DROPPED 2) = 0) (hroom : 2 * s.fontLen ≤ s.winFree 2)
include hen hdrop hroom

/-- An upstream shot that has room. -/
theorem fireShot_up (hphase : s.font.phase ≠ 3) : s.fireShot = (shotFired s).fontSet (fun x => { x with phase := 2, up := {}, dn := {} }) := by
  unfold State.fireShot
  simp only [winReserve_room hen hdrop hroom, if_true, hphase, if_false, shotFired]

/-- A downstream shot that has room. -/
theorem fireShot_down (hphase : s.font.phase = 3) : s.fireShot = (shotFired s).fontSet (fun x => { x with phase := 4, dn := {} }) := by
  unfold State.fireShot
  simp only [winReserve_room hen hdrop hroom, if_true, hphase, shotFired]

theorem vbstReady_fires (hphase : s.font.phase = 1) : ∃ t, exec .vbstReady s = .next t ∧ t.font.phase = 2 ∧ t.on fFONTSTAT_SHOT = true ∧
    t.fld (fSBWRES_RESERVED 2) = 2 * s.fontLen ∧ s.besidesAll t := by
  obtain ⟨hshot, hres, hrest⟩ := shotFired_spec s
  refine ⟨_, congrArg Host.Outcome.next ((if_pos hphase).trans (fireShot_up hen hdrop hroom (by omega))), rfl, ?_, ?_, ?_⟩
  · rw [State.fontSet_on, hshot]
  · rw [State.fontSet_fld, hres]
  · exact State.besidesAll_trans hrest (fontSet_besidesAll _ _)

theorem fontShot_down (hphase : s.font.phase = 3) : ∃ t, exec .fontShot s = .next t ∧ t.font.phase = 4 ∧ t.on fFONTSTAT_SHOT = true ∧
    t.fld (fSBWRES_RESERVED 2) = 2 * s.fontLen ∧ t.font.up = s.font.up ∧ s.besidesAll t := by
  obtain ⟨hshot, hres, hrest⟩ := shotFired_spec s
  have hgo : exec .fontShot s = .next ((shotFired s).fontSet (fun x => { x with phase := 4, dn := {} })) := by
    refine congrArg Host.Outcome.next ((if_pos hphase).trans ?_)
    rw [fireShot_down hen hdrop hroom hphase]
    rfl
  refine ⟨_, hgo, rfl, ?_, ?_, ?_, ?_⟩
  · rw [State.fontSet_on, hshot]
  · rw [State.fontSet_fld, hres]
  · rw [State.fontSet_font, shotFired_font]
  · exact State.besidesAll_trans hrest (fontSet_besidesAll _ _)

theorem fontShot_up (hphase : s.font.phase = 6) : ∃ t, exec .fontShot s = .next t ∧ t.font.phase = 2 ∧ s.besidesAll t := by
  obtain ⟨-, -, hrest⟩ := shotFired_spec s
  refine ⟨_, congrArg Host.Outcome.next (((if_neg (by omega)).trans (if_pos hphase)).trans (fireShot_up hen hdrop hroom (by omega))), rfl, ?_⟩
  exact State.besidesAll_trans hrest (fontSet_besidesAll _ _)

end

theorem vbstReady_drops (hen : s.on (fSBWCFG_EN 2) = false) (hdrop : 0 < s.fld (fSBWDROP_DROPPED 2)) (hphase : s.font.phase = 1) :
    ∃ t, exec .vbstReady s = .next t ∧ t.font.phase = 3 ∧ t.font.up.cause = 1 ∧ t.font.up.ok = false ∧ t.on (fDROP 2) = true ∧
      s.besidesAll t := by
  have hlen := fontLen_ge s
  have hgo : exec .vbstReady s = .next (((s.countBy (fSBWDROP_DROPPED 2) (2 * s.fontLen / 4)).setFld (fDROP 2) 1).fontSet
      (fun x => { x with phase := 3, up := { cause := 1 }, dn := {} })) := by
    refine congrArg Host.Outcome.next ((if_pos hphase).trans ?_)
    unfold State.fireShot
    have hup : s.font.phase ≠ 3 := by omega
    simp only [winReserve_none hen, winDrop_more hdrop (by omega : 2 * s.fontLen / 4 ≠ 0), Bool.false_eq_true, if_false, hup]
  refine ⟨_, hgo, rfl, rfl, rfl, ?_, ?_⟩
  · rw [State.fontSet_on]
    exact on_setFld_one _ _ (by decide) (by decide)
  · exact State.besidesAll_trans (State.besidesAll_trans (State.besidesAll_setFld _ _ _) (State.besidesAll_setFld _ _ _)) (fontSet_besidesAll _ _)

theorem fontShot_idle (hphase : s.font.phase = 0) : exec .fontShot s = .next s ∧ exec (.fontCaptureEnd [] 0) s = .next s := by
  refine ⟨congrArg Host.Outcome.next ?_, congrArg Host.Outcome.next ?_⟩
  · rw [if_neg (by omega), if_neg (by omega), if_neg (by omega)]
  · rw [hphase]
    rfl

/-! ### A capture with no echo -/

/-- What storing words in a window leaves alone. -/
structure Stored (s t : State) : Prop where
  kept : ∀ g, (fSBWWP_WP 2).other g = true → t.fld g = s.fld g
  font : t.font = s.font
  besides : s.besides t

theorem winStore_stored (s : State) (w tag : Nat) : Stored s (s.winStore 2 w tag) :=
  ⟨fun g hg => State.fld_setFld_other _ _ g _ hg, rfl, ⟨rfl, rfl, rfl, rfl, rfl, rfl⟩⟩

theorem Stored.trans (h : Stored s t) (k : Stored t u) : Stored s u :=
  ⟨fun g hg => (k.kept g hg).trans (h.kept g hg), k.font.trans h.font, State.besides_trans h.besides k.besides⟩

theorem winStores_stored (ws : List Nat) (s : State) : Stored s (ws.foldl (fun t w => t.winStore 2 w 0) s) :=
  List.foldlRecOn (motive := fun t : State => Stored s t) ws _ ⟨fun _ _ => rfl, rfl, s.besides_refl⟩
    fun t ht w _ => ht.trans (winStore_stored t w 0)

/-- A capture's words stored, its reservation given back and the shot over. -/
def shotEnded (s : State) (ws : List Nat) : State := (s.winEnd 2 ws).setFld fFONTSTAT_SHOT 0

theorem shotEnded_spec (s : State) (ws : List Nat) : (shotEnded s ws).on fFONTSTAT_SHOT = false ∧
    (shotEnded s ws).fld (fSBWRES_RESERVED 2) = 0 ∧ (shotEnded s ws).fld fFONTDET_THR = s.fld fFONTDET_THR ∧ (shotEnded s ws).font = s.font ∧
    s.besides (shotEnded s ws) := by
  have hstored := winStores_stored ws s
  obtain ⟨w, hw⟩ : ∃ w, w = ws.foldl (fun t x => t.winStore 2 x 0) s := ⟨_, rfl⟩
  have hsync := winSync_writes (w.setFld (fSBWRES_RESERVED 2) 0) 2
  rw [shotEnded, State.winEnd, ← hw]
  rw [← hw] at hstored
  refine ⟨on_setFld_zero _ _ (by decide) (by decide), ?_, ?_, ?_, ?_⟩
  · rw [State.fld_setFld_other _ _ _ _ (by decide), hsync.kept _ (by decide), State.fld_setFld _ _ _ (by decide), Nat.zero_mod]
  · rw [State.fld_setFld_other _ _ _ _ (by decide), hsync.kept _ (by decide), State.fld_setFld_other _ _ _ _ (by decide),
      hstored.kept _ (by decide)]
  · rw [setFld_font, hsync.regs]
    exact hstored.font
  · exact State.besides_trans hstored.besides (State.besidesAll_trans (State.besidesAll_trans (State.besidesAll_setFld _ _ _)
      hsync.besidesAll) (State.besidesAll_setFld _ _ _)).1

/-- The measurement of a capture in which no sample reaches the threshold (R439). -/
theorem fontMeasure_silent (x : List Int) (dst ofs : Nat) (hsat : x.any (fun v => v ≤ -2048 || 2047 ≤ v) = false)
    (hthr : nThr x (t.fld fFONTDET_THR) = none) : t.fontMeasure false x dst ofs =
      ({ cause := 2, peak := peakOf x },
        (t.sets [(fFONTSHOT_NTHR, 0), (fFONTSHOT_PWR, 0), (fFONTSHOT2_PEAK, peakOf x), (fFONTSHOT2_SAT, 0)]).raise [fFONTFLAG_NOECHO]) := by
  unfold State.fontMeasure
  simp only [hsat, hthr]
  rfl

/-- A capture of silence. -/
theorem silence (n thr : Nat) (hthr : 0 < thr) : ((List.replicate n (0 : Int)).map (clampInt (-2048) 2047)).take n = List.replicate n 0 ∧
    (List.replicate n (0 : Int)).any (fun v => v ≤ -2048 || 2047 ≤ v) = false ∧ nThr (List.replicate n 0) thr = none := by
  refine ⟨?_, ?_, ?_⟩
  · rw [List.map_replicate, List.take_replicate, Nat.min_self]
    rfl
  · rw [List.any_replicate]
    simp
  · rw [nThr, List.findIdx?_eq_none_iff]
    intro v hv
    rw [List.eq_of_mem_replicate hv]
    exact decide_eq_false (by omega)

/-- A capture with no echo, measured. -/
def silentShot (s : State) (ws : List Nat) (peak : Nat) : State :=
  ((shotEnded s ws).sets [(fFONTSHOT_NTHR, 0), (fFONTSHOT_PWR, 0), (fFONTSHOT2_PEAK, peak), (fFONTSHOT2_SAT, 0)]).raise [fFONTFLAG_NOECHO]

theorem silentShot_within (s : State) (ws : List Nat) (peak : Nat) :
    Within [fFONTSHOT_NTHR, fFONTSHOT_PWR, fFONTSHOT2_PEAK, fFONTSHOT2_SAT, fFONTFLAG_NOECHO] (shotEnded s ws) (silentShot s ws peak) :=
  ((Within.refl _ _).sets _ (by simp)).raise (by simp)

theorem fontPairTry_early (h : s.font.phase ≠ 5) : s.fontPairTry = s := by
  rw [State.fontPairTry, if_neg (by simp [h])]

theorem fontCaptureEnd_silent (hphase : s.font.phase = 2) (hthr : 0 < s.fld fFONTDET_THR) :
    ∃ t, exec (.fontCaptureEnd (List.replicate s.fontLen 0) 0) s = .next t ∧ t.font.phase = 3 ∧ t.font.up.cause = 2 ∧ t.font.up.ok = false ∧
      t.on fFONTFLAG_NOECHO = true ∧ t.fld (fSBWRES_RESERVED 2) = 0 ∧ t.on fFONTSTAT_SHOT = false ∧ s.besides t := by
  obtain ⟨hmap, hsat, hnone⟩ := silence s.fontLen (s.fld fFONTDET_THR) hthr
  obtain ⟨ws, hws⟩ : ∃ ws, ws = sampleWords ((List.replicate s.fontLen (0 : Int)).length + 1) (List.replicate s.fontLen 0) := ⟨_, rfl⟩
  obtain ⟨hshot, hres, hkept, -, hrest⟩ := shotEnded_spec s ws
  obtain ⟨pk, hpk⟩ : ∃ pk, pk = peakOf (List.replicate s.fontLen 0) := ⟨_, rfl⟩
  have hin := silentShot_within s ws pk
  have hgo : exec (.fontCaptureEnd (List.replicate s.fontLen 0) 0) s =
      .next ((silentShot s ws pk).fontSet (fun f => { f with up := { cause := 2, peak := pk }, phase := 3 })) := by
    refine congrArg Host.Outcome.next ?_
    have hup : ¬ s.font.phase = 4 := by omega
    rw [if_neg (by rw [hphase]; decide), hmap]
    dsimp only
    rw [← hws, ← shotEnded, decide_eq_false hup, fontMeasure_silent _ _ _ hsat (hkept ▸ hnone), ← hpk, ← silentShot]
    simp only [hup, if_false]
    exact fontPairTry_early (show 3 ≠ 5 by decide)
  refine ⟨_, hgo, rfl, rfl, rfl, ?_, ?_, ?_, ?_⟩
  · rw [State.fontSet_on]
    exact on_setFld_one _ _ (by decide) (by decide)
  · rw [State.fontSet_fld, hin.kept _ (by decide), hres]
  · rw [State.fontSet_on, hin.on (by decide), hshot]
  · exact State.besides_trans hrest (State.besidesAll_trans hin.besidesAll (fontSet_besidesAll _ _)).1

/-! ### Offloaded answers (R443) -/

/-- A judged shot awaits nothing, and its flags and counts are beside the rest. -/
theorem judgeShot_spec (s : State) (x : FShot) (y : List Int) : (s.judgeShot x y).1.awaits = false ∧ (s.judgeShot x y).2.font = s.font ∧
    s.besidesAll (s.judgeShot x y).2 := by
  unfold State.judgeShot
  dsimp only
  split
  · exact ⟨rfl, rfl, State.besidesAll_raise _ _⟩
  · split
    · exact ⟨rfl, rfl, State.besidesAll_raise _ _⟩
    · refine ⟨rfl, ?_, ?_⟩
      · split
        · rfl
        · rfl
      · split
        · exact State.besidesAll_setFld _ _ _
        · exact s.besidesAll_refl

theorem fontOffloadDone_judges (haw : s.font.up.awaits = true) (hphase : s.font.phase = 3) : ∃ t, exec .fontOffloadDone s = .next t ∧
    t.font.up.awaits = false ∧ t.font.phase = 3 ∧ s.besidesAll t := by
  obtain ⟨haw', hfont, hrest⟩ := judgeShot_spec s s.font.up (s.offloadY s.font.up.dst)
  obtain ⟨r, hr⟩ : ∃ r, r = s.judgeShot s.font.up (s.offloadY s.font.up.dst) := ⟨_, rfl⟩
  rw [← hr] at haw' hfont hrest
  have hgo : exec .fontOffloadDone s = .next (r.2.fontSet (fun x => { x with up := r.1 })) := by
    refine congrArg Host.Outcome.next ((if_pos haw).trans ?_)
    rw [← hr]
    refine fontPairTry_early ?_
    rw [State.fontSet_font, hfont, hphase]
    decide
  refine ⟨_, hgo, haw', ?_, State.besidesAll_trans hrest (fontSet_besidesAll _ _)⟩
  rw [State.fontSet_font, hfont, hphase]

/-- A shot whose answer did not come. -/
def unanswered (x : FShot) : FShot := if x.awaits then { x with ok := false, cause := 6, awaits := false } else x

theorem fontOffloadTimeout_fails (haw : s.font.up.awaits = true) (hphase : s.font.phase = 5) (hup : s.rhocoUp = false) :
    ∃ t, exec .fontOffloadTimeout s = .next t ∧ t.font.up.awaits = false ∧ t.font.up.ok = false ∧ t.font.up.cause = 6 ∧
      t.on fFONTFLAG_OFFTMO = true ∧ s.besidesAll t := by
  obtain ⟨u, hu⟩ : ∃ u, u = (s.raise [fFONTFLAG_OFFTMO]).count fFONTCNT_OFFTMO := ⟨_, rfl⟩
  have hufont : u.font = s.font := by rw [hu]; rfl
  have huup : u.rhocoUp = false := by rw [hu]; exact hup
  have hgo : exec .fontOffloadTimeout s = .next (u.fontSet fun x => { x with up := unanswered x.up, dn := unanswered x.dn }) := by
    refine congrArg Host.Outcome.next ((if_pos (by simp [haw, hphase])).trans ?_)
    rw [← hu]
    have hsame (f : Font → Font) : (u.fontSet f).rhocoUp = false := huup
    rw [State.fontPairTry, hsame, Bool.and_false, Bool.false_and, Bool.false_and, if_neg Bool.false_ne_true]
    rfl
  have hlost : (unanswered u.font.up).awaits = false ∧ (unanswered u.font.up).ok = false ∧ (unanswered u.font.up).cause = 6 := by
    rw [hufont, unanswered, if_pos haw]
    exact ⟨rfl, rfl, rfl⟩
  obtain ⟨hawaits, hok, hcause⟩ := hlost
  refine ⟨_, hgo, hawaits, hok, hcause, ?_, ?_⟩
  · rw [State.fontSet_on, hu, State.count, on_setFld_other _ _ _ _ (by decide)]
    exact on_setFld_one _ _ (by decide) (by decide)
  · rw [hu]
    exact State.besidesAll_trans (State.besidesAll_trans (State.besidesAll_raise _ _) (State.besidesAll_setFld _ _ _)) (fontSet_besidesAll _ _)

end Sys2Proof.Proofs
end

section
/-! PROOF. The result of a tick and its seal (R445, R446, R449, R450), and O33. -/

namespace Sys2Proof.Proofs

open Sys2Proof Sys2Proof.Machine

variable {s t u : State}

/-! ### A result -/

/-- The fields of a result's status. -/
def statFields : List Fld := [fFONTRESSTAT_VALID, fFONTRESSTAT_EMPTY, fFONTRESSTAT_WEAK, fFONTRESSTAT_NVALID, fFONTRESCOUNT_COUNT]

/-- A result's status stored (R445). -/
def statStored (s : State) (valid empty : Bool) (n : Nat) : State :=
  s.sets [(fFONTRESSTAT_VALID, b2n valid), (fFONTRESSTAT_EMPTY, b2n empty),
    (fFONTRESSTAT_WEAK, b2n s.font.weak), (fFONTRESSTAT_NVALID, n), (fFONTRESCOUNT_COUNT, s.fld fFONTRESCOUNT_COUNT + 1)]

theorem statStored_within (s : State) (valid empty : Bool) (n : Nat) : Within statFields s (statStored s valid empty n) :=
  (Within.refl _ s).sets _ (by simp [statFields])

theorem statStored_font (s : State) (valid empty : Bool) (n : Nat) : (statStored s valid empty n).font = s.font := by
  rw [statStored, State.sets_eq]

theorem statStored_spec (s : State) (valid empty : Bool) (n : Nat) : (statStored s valid empty n).on fFONTRESSTAT_VALID = valid ∧
    (statStored s valid empty n).fld fFONTRESCOUNT_COUNT = (s.fld fFONTRESCOUNT_COUNT + 1) % 2 ^ 32 := by
  simp only [statStored, State.sets_cons, State.sets_nil]
  refine ⟨?_, ?_⟩
  · rw [on_setFld_other _ _ _ _ (by decide), on_setFld_other _ _ _ _ (by decide), on_setFld_other _ _ _ _ (by decide),
      on_setFld_other _ _ _ _ (by decide)]
    exact on_setFld_b2n _ _ _ (by decide) (by decide)
  · rw [State.fld_setFld _ _ _ (by decide)]
    rfl

/-- The first result of a run in Cell role that no source is full of, before the cadence follows it. -/
def resultKept (s : State) (at_ : Nat) (valid : Bool) : State :=
  s.fontSet (fun x => { x with phase := 0, lastAt := some at_, lastOk := valid })

theorem loopMapResult_cell (hr : t.role = .cell) (src : Nat) (x : Int) (bad : Bool) : t.loopMapResult src x bad = t := by
  rw [State.loopMapResult, hr]
  rfl

section
variable (hr : s.role = .cell) (hphase : s.font.phase = 7) (hstop : s.font.stopping = false) (hlast : s.font.lastAt = none)
  (hempty : s.on fFONTSTAT_EMPTY = false)
include hr hphase hstop hlast hempty

theorem fontResult_invalid (hn : s.font.nvalid = 0) : ∃ t, exec .fontResult s = .next t ∧ t.font.phase = 0 ∧
    t.on fFONTRESSTAT_VALID = false ∧ t.fld fFONTRESFLOW_FLOW = s.fld fFONTRESFLOW_FLOW ∧
    t.fld fFONTRESCOUNT_COUNT = (s.fld fFONTRESCOUNT_COUNT + 1) % 2 ^ 32 ∧ t.font.lastAt = some s.now ∧ s.besidesAll t := by
  obtain ⟨u, hu⟩ : ∃ u, u = s.setFld fFONTRESFLOW_FLOW (s.fld fFONTRESFLOW_FLOW) := ⟨_, rfl⟩
  have hufont : u.font = s.font := by rw [hu]; rfl
  have huflow : u.fld fFONTRESFLOW_FLOW = s.fld fFONTRESFLOW_FLOW := by
    rw [hu, State.fld_setFld _ _ _ (by decide)]
    exact Nat.mod_eq_of_lt (fldOf_lt _ fFONTRESFLOW_FLOW)
  have hucount : u.fld fFONTRESCOUNT_COUNT = s.fld fFONTRESCOUNT_COUNT := by rw [hu, State.fld_setFld_other _ _ _ _ (by decide)]
  obtain ⟨w, hw⟩ : ∃ w, w = statStored u false false 0 := ⟨_, rfl⟩
  have hwin : Within statFields u w := hw ▸ statStored_within u false false 0
  have hwfont : w.font = s.font := by rw [hw, statStored_font, hufont]
  have hwnow : w.now = s.now := by rw [hw, hu, statStored, State.sets_eq]; rfl
  have hwrole : w.role = .cell := by
    obtain ⟨⟨hrole, -⟩, -⟩ := hwin.besidesAll
    rw [hrole, hu]
    exact hr
  obtain ⟨hvalid, hcount⟩ := statStored_spec u false false 0
  rw [← hw] at hvalid hcount
  have hgo : exec .fontResult s = .next ((resultKept w s.now false).fontSet (fun x => { x with lowRun := 0 })) := by
    refine congrArg Host.Outcome.next ?_
    rw [if_neg (by rw [hphase]; decide)]
    simp only [hn, hempty, Nat.lt_irrefl, decide_false, Bool.false_and, if_true, if_false, Bool.false_eq_true, ← hu]
    rw [← statStored, ← hw]
    simp only [hwfont, hlast]
    rw [← resultKept, hwnow, loopMapResult_cell (t := resultKept w s.now false) hwrole]
    have hon : (((resultKept w s.now false).fontSet (fun x => { x with lowRun := 0 })).font).stopping = false := by
      change w.font.stopping = false
      rw [hwfont, hstop]
    rw [hon, if_neg Bool.false_ne_true]
  refine ⟨_, hgo, rfl, hvalid, ?_, ?_, rfl, ?_⟩
  · exact (hwin.kept fFONTRESFLOW_FLOW (by decide)).trans huflow
  · exact hcount.trans (by rw [hucount])
  · refine State.besidesAll_trans ?_ (State.besidesAll_trans (fontSet_besidesAll _ _) (fontSet_besidesAll _ _))
    exact State.besidesAll_trans (hu ▸ State.besidesAll_setFld _ _ _) hwin.besidesAll

end

/-! ### A flow of 0 -/

theorem roundDiv_zero {b : Int} (hb : b ≠ 0) : roundDiv 0 b = 0 := by
  have hhalf {d : Int} (hd : 0 < d) : (2 * 0 + d) / (2 * d) = 0 := Int.ediv_eq_zero_of_lt (by omega) (by omega)
  unfold roundDiv
  by_cases h : b < 0
  · simp only [h, if_true, Int.neg_zero, le_refl]
    exact hhalf (by omega)
  · simp only [h, if_false, le_refl, if_true]
    exact hhalf (by omega)

/-- Equal times of 100 µs each way are no flow (R446). -/
theorem fontFlowOf_still (hdt0 : s.fld fFONTDT0_DT0 = 0) (ht0 : s.fld fFONTT0_T0 = 0) (hx : s.fld fFONTGEOX_X ≠ 0) :
    ∃ sound, s.fontFlowOf 0 200000000000 = (0, 0, 100000000, sound) := by
  have hdt : roundDiv 0 2 - signed 32 0 = 0 := by decide
  have ht : (200000000000 : Int) - 2 * ((0 : Nat) : Int) * 1000 = 200000000000 := by decide
  have hmean : roundDiv 200000000000 2000 = 100000000 := by decide +kernel
  have hden : (65536 : Int) * 100000000000000000000 * 2 * (s.fld fFONTGEOX_X : Int) * 200000000000 * 200000000000 ≠ 0 := by omega
  refine ⟨(s.fontFlowOf 0 200000000000).2.2.2, ?_⟩
  unfold State.fontFlowOf
  simp only [hdt0, ht0, hdt, ht, hmean, Int.add_zero, Int.sub_zero, Int.mul_zero, Int.zero_mul, hden, if_false, roundDiv_zero hden]

/-- The fields of a flow. -/
def flowFields : List Fld := [fFONTRESFLOW_FLOW, fFONTRESDT_DT, fFONTRESTMEAN_TMEAN, fFONTRESSOUND_SOUND]

/-- A flow of 0 stored. -/
def stillStored (s : State) (sound : Nat) : State :=
  (s.sets [(fFONTRESFLOW_FLOW, 0), (fFONTRESDT_DT, 0), (fFONTRESTMEAN_TMEAN, 100000000), (fFONTRESSOUND_SOUND, sound)]).used 1

theorem stillStored_spec (s : State) (sound : Nat) : (stillStored s sound).fld fFONTRESFLOW_FLOW = 0 ∧ (stillStored s sound).fld fFONTRESDT_DT = 0 ∧
    (stillStored s sound).fld fFONTRESTMEAN_TMEAN = 100000000 ∧ s.besidesAll (stillStored s sound) := by
  have hin : Within flowFields s (s.sets [(fFONTRESFLOW_FLOW, 0), (fFONTRESDT_DT, 0), (fFONTRESTMEAN_TMEAN, 100000000),
      (fFONTRESSOUND_SOUND, sound)]) := (Within.refl _ s).sets _ (by simp [flowFields])
  have hused (t : State) : t.besidesAll (t.used 1) := ⟨t.besides_refl, rfl, rfl, rfl, rfl, rfl, rfl⟩
  have hfld (g : Fld) : (stillStored s sound).fld g = (s.sets [(fFONTRESFLOW_FLOW, 0), (fFONTRESDT_DT, 0), (fFONTRESTMEAN_TMEAN, 100000000),
      (fFONTRESSOUND_SOUND, sound)]).fld g := rfl
  refine ⟨?_, ?_, ?_, State.besidesAll_trans hin.besidesAll (hused _)⟩
  all_goals rw [hfld]; simp only [State.sets_cons, State.sets_nil]
  · rw [State.fld_setFld_other _ _ _ _ (by decide), State.fld_setFld_other _ _ _ _ (by decide), State.fld_setFld_other _ _ _ _ (by decide),
      State.fld_setFld _ _ _ (by decide), Nat.zero_mod]
  · rw [State.fld_setFld_other _ _ _ _ (by decide), State.fld_setFld_other _ _ _ _ (by decide), State.fld_setFld _ _ _ (by decide), Nat.zero_mod]
  · rw [State.fld_setFld_other _ _ _ _ (by decide), State.fld_setFld _ _ _ (by decide)]
    rfl

theorem fontAdapt_off (hr : t.role = .cell) (had : t.on fFONTCTL_ADAPT = false) (flow : Int) : t.fontAdapt flow = t := by
  rw [State.fontAdapt, hr, had]
  rfl

theorem fontResult_still (hr : s.role = .cell) (hphase : s.font.phase = 7) (hn : s.font.nvalid = 1) (hstop : s.font.stopping = false)
    (hlast : s.font.lastAt = none) (hempty : s.on fFONTSTAT_EMPTY = false) (hmetro : s.on fSTRESP_METROBAD = false)
    (hdt : s.font.sumDt2 = 0) (ht : s.font.sumT2 = 200000000000) (hdt0 : s.fld fFONTDT0_DT0 = 0) (ht0 : s.fld fFONTT0_T0 = 0)
    (hx : s.fld fFONTGEOX_X ≠ 0) (had : s.on fFONTCTL_ADAPT = false) : ∃ t, exec .fontResult s = .next t ∧
      t.on fFONTRESSTAT_VALID = true ∧ t.fld fFONTRESFLOW_FLOW = 0 ∧ t.fld fFONTRESDT_DT = 0 ∧ t.fld fFONTRESTMEAN_TMEAN = 100000000 ∧
      t.font.lastOk = true ∧ s.besidesAll t := by
  obtain ⟨sound, hflow⟩ := fontFlowOf_still hdt0 ht0 hx
  have hfit0 : s.fit32 0 = 0 := by
    rw [State.fit32, if_pos (by decide)]
    decide
  have hfitT : s.fit32 100000000 = 100000000 := by
    rw [State.fit32, if_pos (by decide)]
    decide
  have hdiv0 : roundDiv 0 ((1 : Nat) : Int) = 0 := by decide
  have hdivT : roundDiv 200000000000 ((1 : Nat) : Int) = 200000000000 := by decide +kernel
  obtain ⟨u, hu⟩ : ∃ u, u = stillStored s (s.fit32 sound) := ⟨_, rfl⟩
  obtain ⟨hf, hd, hT, hrest⟩ := stillStored_spec s (s.fit32 sound)
  rw [← hu] at hf hd hT hrest
  have hufont : u.font = s.font := by rw [hu, stillStored, State.sets_eq]; rfl
  have hunow : u.now = s.now := by rw [hu, stillStored, State.sets_eq]; rfl
  have huad : u.on fFONTCTL_ADAPT = false := by
    have hkept : u.fld fFONTCTL_ADAPT = s.fld fFONTCTL_ADAPT := by
      rw [hu]
      exact ((Within.refl flowFields s).sets _ (by simp [flowFields])).kept fFONTCTL_ADAPT (by decide)
    rw [on_of_fld hkept, had]
  obtain ⟨w, hw⟩ : ∃ w, w = statStored u true false 1 := ⟨_, rfl⟩
  have hwin : Within statFields u w := hw ▸ statStored_within u true false 1
  have hwfont : w.font = s.font := by rw [hw, statStored_font, hufont]
  have hwnow : w.now = s.now := by
    rw [← hunow, hw, statStored, State.sets_eq]
    rfl
  have hwrole : w.role = .cell := by
    obtain ⟨⟨hrole, -⟩, -⟩ := hwin.besidesAll
    obtain ⟨⟨hrole', -⟩, -⟩ := hrest
    rw [hrole, hrole', hr]
  have hwad : w.on fFONTCTL_ADAPT = false := by rw [hwin.on (by decide), huad]
  obtain ⟨hvalid, -⟩ := statStored_spec u true false 1
  rw [← hw] at hvalid
  have hgo : exec .fontResult s = .next (resultKept w s.now true) := by
    refine congrArg Host.Outcome.next ?_
    rw [if_neg (by rw [hphase]; decide)]
    simp only [hn, hempty, hmetro, hdt, ht, hdiv0, hdivT, hflow, hfit0, hfitT, Nat.one_ne_zero, if_false, Bool.false_eq_true, Nat.lt_one_iff,
      decide_true, Bool.not_false, Bool.and_self]
    rw [← stillStored, ← hu, ← statStored, ← hw]
    simp only [hwfont, hlast]
    rw [← resultKept, hwnow, loopMapResult_cell (t := resultKept w s.now true) hwrole]
    simp only [if_true]
    rw [fontAdapt_off (t := resultKept w s.now true) hwrole hwad]
    have hon : (resultKept w s.now true).font.stopping = false := by
      change w.font.stopping = false
      rw [hwfont, hstop]
    rw [hon, if_neg Bool.false_ne_true]
  refine ⟨_, hgo, hvalid, ?_, ?_, ?_, rfl, ?_⟩
  · exact (hwin.kept fFONTRESFLOW_FLOW (by decide)).trans hf
  · exact (hwin.kept fFONTRESDT_DT (by decide)).trans hd
  · exact (hwin.kept fFONTRESTMEAN_TMEAN (by decide)).trans hT
  · exact State.besidesAll_trans (State.besidesAll_trans hrest hwin.besidesAll) (fontSet_besidesAll _ _)

/-! ### The seal -/

theorem fontSeal_appends (hr : s.role = .cell) (hc : s.claimed 19 = true) (hp : s.fld fFONTSEAL_PERIOD = 1) (hnow : s.now % 32768 = 0)
    (hgap : s.fld fFONTRESGAPMS_GAPMS = 0) (hh : s.on fSACSTAT_HELD = false) (hd : s.on fSACSTAT_SEALDEAD = false) (hm : s.sac.missed = 0)
    (hseq : s.sac.seq = 5) (hack : s.sac.ack = 5) : ∃ t, exec .fontSeal s = .next t ∧ t.sac.seq = 6 ∧ t.sac.ack = 5 ∧
      t.sac.lastTag = (s.sealEntry 5 19 1 s.fontReading).drop 48 ∧ t.sac.valid = true := by
  have hfull : s.sealFull = false := by
    rw [State.sealFull, hseq, hack]
    decide
  have hgo : exec .fontSeal s = .next (s.sealPut 19 1 s.fontReading) := by
    refine congrArg Host.Outcome.next ?_
    have hmin : min 3600 1 = 1 := by decide
    simp only [hp, hmin, hc, Nat.one_mul, hnow, Nat.one_ne_zero, decide_false, Bool.not_true, Bool.or_self, bne_self_eq_false,
      Bool.false_eq_true, if_false, hgap, if_true]
    exact sealAppend_put 19 1 s.fontReading hr hh hd hfull hm
  have hsac := sealPut_sac 19 1 s.fontReading (by rw [hseq, hack]; decide : (s.sac.seq + 1 + 2 ^ 32 - s.sac.ack) % 2 ^ 32 ≠ 768)
  rw [hseq] at hsac
  refine ⟨_, hgo, ?_, ?_, ?_, ?_⟩
  · rw [hsac]
    exact (by decide : (5 + 1) % 2 ^ 32 = 6)
  · rw [hsac, hack]
  · rw [hsac]
  · rw [hsac]

theorem fontSeal_off (hp : s.fld fFONTSEAL_PERIOD = 0) : exec .fontSeal s = .next s := by
  refine congrArg Host.Outcome.next ?_
  rw [hp]
  rfl

/-- Settles O33, one lemma for each event. -/
theorem fontEvents : Obligations.FontEvents := by
  unfold Obligations.FontEvents
  intro s v cu cd hr _
  exact ⟨fontArm_waits, fontArm_future, fun h => fontTick_none h cu cd,
    fun hdue hrun hphase hpll hheld hfault hbad hgood hlo hhi => fontTick_charges hdue hrun hphase hpll hheld hr hfault hbad hgood hlo hhi,
    fun hdue hrun hphase hup => fontTick_overruns hdue hrun hphase hup cu cd,
    fun hphase ⟨hen, hdrop, hroom⟩ => vbstReady_fires hen hdrop hroom hphase, fun hphase ⟨hen, hdrop⟩ => vbstReady_drops hen hdrop hphase,
    vbstlow_misses, fun hphase ⟨hen, hdrop, hroom⟩ => fontShot_down hen hdrop hroom hphase,
    fun hphase ⟨hen, hdrop, hroom⟩ => fontShot_up hen hdrop hroom hphase, fontShot_idle, fontCaptureEnd_silent, fontOffloadDone_judges,
    fontOffloadTimeout_fails, fun hphase hn hstop hlast hempty => fontResult_invalid hr hphase hstop hlast hempty hn,
    fontResult_still hr, fontSeal_appends hr, fontSeal_off⟩

end Sys2Proof.Proofs
end

section
/-! PROOF. Motion sensing: what switching the sensors on and off leaves, and writes of MOTCTL (R462, R472, R476). -/

namespace Sys2Proof.Proofs

open Sys2Proof Sys2Proof.Machine

variable {l : List Fld} {s t u : State} {v : Word}

/-! ### Beside motion -/

/-- From `s` to `t` a field apart from those of `l` keeps its value, and only registers, the recognisers and motion's own state change. -/
structure Moved (l : List Fld) (s t : State) : Prop where
  kept : ∀ g, l.all (fun f => f.other g) = true → t.fld g = s.fld g
  rest : t = { s with regs := t.regs, ring := t.ring, mot := t.mot }

namespace Moved

theorem ofWrites (h : Writes l s t) : Moved l s t := ⟨h.kept, by rw [h.regs]⟩

theorem refl (l : List Fld) (s : State) : Moved l s s := ofWrites (.refl l s)

theorem trans (h : Moved l s t) (k : Moved l t u) : Moved l s u := by
  refine ⟨fun g hg => (k.kept g hg).trans (h.kept g hg), ?_⟩
  rw [k.rest, h.rest]

theorem setFld {f : Fld} (h : Moved l s t) (hf : f ∈ l) (n : Nat) : Moved l s (t.setFld f n) :=
  h.trans (ofWrites ((Writes.refl l t).setFld hf n))

theorem sets (h : Moved l s t) (p : List (Fld × Nat)) (hp : ∀ q ∈ p, q.1 ∈ l) : Moved l s (t.sets p) :=
  h.trans (ofWrites ((sets_writes t p).mono (by
    intro f hf
    obtain ⟨q, hq, rfl⟩ := List.mem_map.mp hf
    exact hp q hq)))

theorem raise {f : Fld} (h : Moved l s t) (hf : f ∈ l) : Moved l s (t.raise [f]) := h.setFld hf 1

theorem motSet (h : Moved l s t) (f : Motion → Motion) : Moved l s (t.motSet f) := h.trans ⟨fun _ _ => rfl, rfl⟩

theorem rgSet (h : Moved l s t) (f : Ringers → Ringers) : Moved l s (t.rgSet f) := h.trans ⟨fun _ _ => rfl, rfl⟩

theorem ite {c : Prop} [Decidable c] (h : Moved l s t) (k : Moved l s u) : Moved l s (if c then t else u) := by
  split
  · exact h
  · exact k

theorem mono {m : List Fld} (h : Moved l s t) (hlm : ∀ f ∈ l, f ∈ m) : Moved m s t :=
  ⟨fun g hg => h.kept g (List.all_eq_true.mpr fun f hf => List.all_eq_true.mp hg f (hlm f hf)), h.rest⟩

theorem on (h : Moved l s t) {g : Fld} (hg : l.all (fun f => f.other g) = true) : t.on g = s.on g := on_of_fld (h.kept g hg)

theorem slp (h : Moved l s t) : t.slp = s.slp := by rw [h.rest]

theorem awake (h : Moved l s t) (ha : s.awake = true) : t.awake = true := by
  rw [State.awake, h.slp]
  exact ha

theorem role (h : Moved l s t) : t.role = s.role := by rw [h.rest]

theorem clk (h : Moved l s t) : t.clk = s.clk := by rw [h.rest]

theorem now (h : Moved l s t) : t.now = s.now := now_of_clk h.clk

theorem node (h : Moved l s t) : t.node = s.node := by rw [h.rest]

theorem besidesAll (h : Moved l s t) : s.besidesAll t := by
  rw [h.rest]
  exact ⟨⟨rfl, rfl, rfl, rfl, rfl, rfl⟩, rfl, rfl, rfl, rfl, rfl, rfl⟩

end Moved

/-! ### The watch and the tokens follow -/

/-- The fields that the watch, the recognisers' rate and the tokens are shown in. -/
def motTailFields : List Fld := [fMOTSTAT_WATCH, fRGSTAT_RATELOW, fRGFLAG_RATE] ++ tokenFields

theorem recogSync_moved (s : State) : Moved motTailFields s s.recogSync := by
  have hrate : Moved motTailFields s (if s.recogRate = s.ring.rate then s else s.recogRestart.rgSet (fun x => { x with rate := s.recogRate })) :=
    .ite (.refl _ s) (((Moved.refl _ s).rgSet _).rgSet _)
  have hlow := fun n => hrate.setFld (by decide : fRGSTAT_RATELOW ∈ motTailFields) n
  unfold State.recogSync
  exact .ite (hlow _) ((hlow _).raise (by decide))

theorem recogSync_mot (s : State) : s.recogSync.mot = s.mot := by
  have hrate : (if s.recogRate = s.ring.rate then s else s.recogRestart.rgSet (fun x => { x with rate := s.recogRate })).mot = s.mot := by
    split <;> rfl
  have hshown (c : Prop) [Decidable c] (t : State) (n : Nat) :
      (if c then t.setFld fRGSTAT_RATELOW n else (t.setFld fRGSTAT_RATELOW n).raise [fRGFLAG_RATE]).mot = t.mot := by
    split <;> rfl
  unfold State.recogSync
  exact (hshown _ _ _).trans hrate

theorem motWatch_moved (s : State) : Moved motTailFields s s.motWatch :=
  ((Moved.refl _ s).setFld (by decide) _).trans (recogSync_moved _)

theorem motWatch_mot (s : State) : s.motWatch.mot = s.mot := recogSync_mot _

theorem retoken_moved (h : s.awake = true) : Moved motTailFields s s.retoken :=
  (Moved.ofWrites (retoken_writes h)).mono (by decide)

theorem motTail_moved (h : s.awake = true) : Moved motTailFields s s.motWatch.retoken :=
  (motWatch_moved s).trans (retoken_moved ((motWatch_moved s).awake h))

theorem motTail_mot (h : s.awake = true) : s.motWatch.retoken.mot = s.mot := by
  rw [(retoken_writes ((motWatch_moved s).awake h)).regs]
  exact motWatch_mot s

/-! ### Sensors on and off (R462) -/

/-- The fields that starting and stopping sensors change. -/
def motFields : List Fld :=
  [fMOTCTL_AEN, fMOTSTAT_ARUN, fMOTCTL_GEN, fMOTSTAT_GRUN, fMOTSTAT_ARMED, fMOTSTAT_CAPRUN, fMOTTH_ARM] ++ motTailFields

theorem motTail_motFields (h : s.awake = true) : Moved motFields s s.motWatch.retoken :=
  (motTail_moved h).mono (fun _ hf => List.mem_append_right _ hf)

/-- The accelerometer starts. -/
def accelOn (s : State) : State :=
  (s.sets [(fMOTCTL_AEN, 1), (fMOTSTAT_ARUN, 1)]).motSet (fun m => { m with setA := false, lastA := [], runA := [0, 0, 0], tmoA := 0 })

/-- The accelerometer stops, and with it what records. -/
def accelOff (s : State) : State :=
  let t := (s.sets [(fMOTCTL_AEN, 0), (fMOTSTAT_ARUN, 0)]).motSet (fun m => { m with setA := false })
  if 1 ≤ t.mot.mode ∧ t.mot.mode ≤ 3 then t.motEnd else t

/-- The gyroscope stops, and what records where it was alone. -/
def gyroOff (s : State) : State :=
  let t := (s.sets [(fMOTCTL_GEN, 0), (fMOTSTAT_GRUN, 0)]).motSet (fun m => { m with setG := false })
  if !t.on fMOTCTL_AEN && 1 ≤ t.mot.mode && t.mot.mode ≤ 3 then t.motEnd else t

theorem motEnable_keeps (hg : s.on fMOTCTL_GEN = false) {a : Bool} (ha : s.on fMOTCTL_AEN = a) : s.motEnable a false = s.motWatch.retoken := by
  cases a <;> simp [State.motEnable, ha, hg]

theorem motEnable_starts (ha : s.on fMOTCTL_AEN = false) (hg : s.on fMOTCTL_GEN = false) (hodr : s.fld fMOTCTL_ODR < 6) :
    s.motEnable true false = (accelOn s).motWatch.retoken := by
  have hk : decide (5 < s.motK) = false := decide_eq_false (by rw [State.motK]; omega)
  have hcost : s.tokensRefuse (s.needNow + b2n false) = false := by simp [State.tokensRefuse, b2n]
  simp only [State.motEnable, ha, hg, hk, hcost, Bool.false_and, Bool.not_false, Bool.and_self, Bool.and_false, Bool.false_eq_true, if_false, if_true,
    Bool.not_true]
  rfl

theorem motEnable_stops (s : State) : s.motEnable false false =
    (let t := if s.on fMOTCTL_AEN then accelOff s else s
    if s.on fMOTCTL_GEN then gyroOff t else t).motWatch.retoken := by
  simp only [State.motEnable, Bool.false_and, Bool.not_false, Bool.true_and, Bool.false_eq_true, if_false]
  rfl

theorem motEnd_moved (s : State) : Moved motFields s s.motEnd :=
  ((Moved.refl _ s).sets _ (by decide)).motSet _

theorem accelOff_moved (s : State) : Moved motFields s (accelOff s) := by
  have h := ((Moved.refl motFields s).sets [(fMOTCTL_AEN, 0), (fMOTSTAT_ARUN, 0)] (by decide)).motSet (fun m => { m with setA := false })
  unfold accelOff
  exact .ite (h.trans (motEnd_moved _)) h

theorem gyroOff_moved (s : State) : Moved motFields s (gyroOff s) := by
  have h := ((Moved.refl motFields s).sets [(fMOTCTL_GEN, 0), (fMOTSTAT_GRUN, 0)] (by decide)).motSet (fun m => { m with setG := false })
  unfold gyroOff
  exact .ite (h.trans (motEnd_moved _)) h

theorem accelOff_gen (s : State) : (accelOff s).on fMOTCTL_GEN = s.on fMOTCTL_GEN := by
  have h := ((Moved.refl [fMOTCTL_AEN, fMOTSTAT_ARUN, fMOTSTAT_ARMED, fMOTSTAT_CAPRUN, fMOTTH_ARM] s).sets
    [(fMOTCTL_AEN, 0), (fMOTSTAT_ARUN, 0)] (by decide)).motSet (fun m => { m with setA := false })
  unfold accelOff
  exact (Moved.ite ((h.sets _ (by decide)).motSet _) h).on (by decide)

/-- What stopping the sensors leaves. -/
structure Stopped (s t : State) : Prop where
  moved : Moved motFields s t
  aen : t.on fMOTCTL_AEN = false
  gen : t.on fMOTCTL_GEN = false
  mode : s.mot.mode = 0 → t.mot.mode = 0

theorem accelOff_spec (s : State) : (accelOff s).on fMOTCTL_AEN = false ∧ (accelOff s).on fMOTSTAT_ARUN = false ∧
    ((accelOff s).mot.mode = if 1 ≤ s.mot.mode ∧ s.mot.mode ≤ 3 then 0 else s.mot.mode) := by
  obtain ⟨u, hu⟩ : ∃ u, u = (s.sets [(fMOTCTL_AEN, 0), (fMOTSTAT_ARUN, 0)]).motSet (fun m => { m with setA := false }) := ⟨_, rfl⟩
  have haen : u.on fMOTCTL_AEN = false := by
    rw [hu, State.motSet_on, State.sets_cons, State.sets_cons, State.sets_nil, on_setFld_other _ _ _ _ (by decide), on_setFld_zero _ _ (by decide) (by decide)]
  have harun : u.on fMOTSTAT_ARUN = false := by
    rw [hu, State.motSet_on, State.sets_cons, State.sets_cons, State.sets_nil, on_setFld_zero _ _ (by decide) (by decide)]
  have hmode : u.mot.mode = s.mot.mode := by
    rw [hu]
    rfl
  have hoff : accelOff s = if 1 ≤ u.mot.mode ∧ u.mot.mode ≤ 3 then u.motEnd else u := by
    rw [hu]
    rfl
  have hend : Moved [fMOTSTAT_ARMED, fMOTSTAT_CAPRUN, fMOTTH_ARM] u u.motEnd := ((Moved.refl _ u).sets _ (by decide)).motSet _
  rw [hoff, hmode]
  split
  · exact ⟨(hend.on (by decide)).trans haen, (hend.on (by decide)).trans harun, rfl⟩
  · exact ⟨haen, harun, hmode⟩

theorem gyroOff_spec (s : State) : (gyroOff s).on fMOTCTL_GEN = false ∧ (gyroOff s).on fMOTCTL_AEN = s.on fMOTCTL_AEN ∧
    (s.mot.mode = 0 → (gyroOff s).mot.mode = 0) := by
  obtain ⟨u, hu⟩ : ∃ u, u = (s.sets [(fMOTCTL_GEN, 0), (fMOTSTAT_GRUN, 0)]).motSet (fun m => { m with setG := false }) := ⟨_, rfl⟩
  have hgen : u.on fMOTCTL_GEN = false := by
    rw [hu, State.motSet_on, State.sets_cons, State.sets_cons, State.sets_nil, on_setFld_other _ _ _ _ (by decide), on_setFld_zero _ _ (by decide) (by decide)]
  have haen : u.on fMOTCTL_AEN = s.on fMOTCTL_AEN := by
    rw [hu, State.motSet_on, State.sets_cons, State.sets_cons, State.sets_nil, on_setFld_other _ _ _ _ (by decide), on_setFld_other _ _ _ _ (by decide)]
  have hmode : u.mot.mode = s.mot.mode := by
    rw [hu]
    rfl
  have hoff : gyroOff s = if !u.on fMOTCTL_AEN && 1 ≤ u.mot.mode && u.mot.mode ≤ 3 then u.motEnd else u := by
    rw [hu]
    rfl
  have hend : Moved [fMOTSTAT_ARMED, fMOTSTAT_CAPRUN, fMOTTH_ARM] u u.motEnd := ((Moved.refl _ u).sets _ (by decide)).motSet _
  rw [hoff]
  split
  · exact ⟨(hend.on (by decide)).trans hgen, (hend.on (by decide)).trans haen, fun _ => rfl⟩
  · exact ⟨hgen, haen, fun h => hmode.trans h⟩

theorem motTail_stopped (h : s.awake = true) (ha : s.on fMOTCTL_AEN = false) (hg : s.on fMOTCTL_GEN = false) :
    Stopped s s.motWatch.retoken :=
  ⟨motTail_motFields h, ((motTail_moved h).on (by decide)).trans ha, ((motTail_moved h).on (by decide)).trans hg,
    fun hm => by rw [motTail_mot h, hm]⟩

theorem Stopped.after (k : Stopped t u) (h : Moved motFields s t) (hm : s.mot.mode = 0 → t.mot.mode = 0) : Stopped s u :=
  ⟨h.trans k.moved, k.aen, k.gen, fun h0 => k.mode (hm h0)⟩

theorem motEnable_stopped (h : s.awake = true) : Stopped s (s.motEnable false false) := by
  obtain ⟨t, ht⟩ : ∃ t, t = if s.on fMOTCTL_AEN then accelOff s else s := ⟨_, rfl⟩
  have hin : Moved motFields s t := ht ▸ .ite (accelOff_moved s) (.refl _ s)
  obtain ⟨haen, -, hmode⟩ := accelOff_spec s
  have htaen : t.on fMOTCTL_AEN = false := by
    rw [ht]
    split
    · exact haen
    · rename_i hoff
      exact Bool.eq_false_iff.mpr hoff
  have htmode : s.mot.mode = 0 → t.mot.mode = 0 := by
    intro h0
    rw [ht]
    split
    · rw [hmode, if_neg (by omega), h0]
    · exact h0
  rw [motEnable_stops, ← ht]
  have hgen : t.on fMOTCTL_GEN = s.on fMOTCTL_GEN := by
    rw [ht]
    split
    · exact accelOff_gen s
    · rfl
  dsimp only
  rw [← hgen]
  split
  · obtain ⟨hg, ha, hm⟩ := gyroOff_spec t
    have hg2 := gyroOff_moved t
    exact (motTail_stopped ((hin.trans hg2).awake h) (ha.trans htaen) hg).after (hin.trans hg2) fun h0 => hm (htmode h0)
  · rename_i hoff
    exact (motTail_stopped (hin.awake h) htaen (Bool.eq_false_iff.mpr hoff)).after hin htmode

/-- A stream that ends with its accelerometer. -/
theorem motEnable_ends (h : s.awake = true) (ha : s.on fMOTCTL_AEN = true) (hg : s.on fMOTCTL_GEN = false) (hm : s.mot.mode = 1) :
    (s.motEnable false false).on fMOTSTAT_ARUN = false ∧ (s.motEnable false false).mot.mode = 0 := by
  obtain ⟨-, harun, hmode⟩ := accelOff_spec s
  have hin := (accelOff_moved s).awake h
  have heq : s.motEnable false false = (accelOff s).motWatch.retoken := by simp only [motEnable_stops, ha, hg, if_true, Bool.false_eq_true, if_false]
  rw [heq]
  refine ⟨((motTail_moved hin).on (by decide)).trans harun, ?_⟩
  rw [motTail_mot hin, hmode, hm]
  rfl

/-- What starting the accelerometer alone leaves. -/
structure Started (s t : State) : Prop where
  moved : Moved motFields s t
  aen : t.on fMOTCTL_AEN = true
  arun : t.on fMOTSTAT_ARUN = true
  gen : t.on fMOTCTL_GEN = false
  mot : t.mot = { s.mot with setA := false, lastA := [], runA := [0, 0, 0], tmoA := 0 }

theorem motEnable_started (h : s.awake = true) (ha : s.on fMOTCTL_AEN = false) (hg : s.on fMOTCTL_GEN = false)
    (hodr : s.fld fMOTCTL_ODR < 6) : Started s (s.motEnable true false) := by
  have hin : Moved motFields s (accelOn s) := ((Moved.refl _ s).sets _ (by decide)).motSet _
  have htail := motTail_moved (hin.awake h)
  rw [motEnable_starts ha hg hodr]
  refine ⟨hin.trans (motTail_motFields (hin.awake h)), (htail.on (by decide)).trans ?_, (htail.on (by decide)).trans ?_,
    (htail.on (by decide)).trans ?_, motTail_mot (hin.awake h)⟩
  · rw [accelOn, State.motSet_on, State.sets_cons, State.sets_cons, State.sets_nil, on_setFld_other _ _ _ _ (by decide), on_setFld_one _ _ (by decide) (by decide)]
  · rw [accelOn, State.motSet_on, State.sets_cons, State.sets_cons, State.sets_nil, on_setFld_one _ _ (by decide) (by decide)]
  · rw [accelOn, State.motSet_on, State.sets_cons, State.sets_cons, State.sets_nil, on_setFld_other _ _ _ _ (by decide), on_setFld_other _ _ _ _ (by decide), hg]

/-! ### Writes of MOTCTL (R472, R476) -/

theorem specOf_motctl : specOf rMOTCTL = some ⟨0x40014000, 1, 0, 0xF773F7F, 0, 0, 0, 0, 0, 0⟩ := by decide +kernel

theorem specOf_motcap : specOf rMOTCAP = some ⟨0x40014004, 1, 0, 0xFFFFFF, 0, 0, 0, 0, 0, 0⟩ := by decide +kernel

theorem specOf_mottl : specOf rMOTTL = some ⟨0x40014008, 1, 0, 0xFFFFFFFF, 0, 0, 0, 0, 0, 0⟩ := by decide +kernel

theorem specOf_motth : specOf rMOTTH = some ⟨0x4001400C, 1, 0, 0x1FFFF, 0, 0, 0, 0, 0, 0⟩ := by decide +kernel

/-- What a write of MOTCTL asks for: in Loop role no gyroscope field. -/
def ctlAsked (s : State) (v : Word) : Word := if s.role = .loop then putFld (putFld v fMOTCTL_GEN 0) fMOTCTL_GFS 0 else v

/-- MOTCTL stored with the enables as they were, and CFGBUSY where fields are fixed. -/
def ctlStored (s : State) (v : Word) : State :=
  let old := s.reg rMOTCTL
  let busy := s.on fMOTCTL_AEN && motFixed.any (fun f => fldOf (ctlAsked s v) f != fldOf old f)
  let w := if s.on fMOTCTL_AEN then motFixed.foldl (fun x f => putFld x f (fldOf old f)) (ctlAsked s v) else ctlAsked s v
  let w := putFld (putFld w fMOTCTL_AEN (fldOf old fMOTCTL_AEN)) fMOTCTL_GEN (fldOf old fMOTCTL_GEN)
  if busy then (s.plainWrite rMOTCTL w).raise [fMOTFLAG_CFGBUSY] else s.plainWrite rMOTCTL w

theorem motWriteCtl_eq (s : State) (v : Word) : s.motWriteCtl v =
    (ctlStored s v).motEnable (fldOf (ctlAsked s v) fMOTCTL_AEN = 1) (fldOf (ctlAsked s v) fMOTCTL_GEN = 1) := rfl

theorem ctlStored_writes (s : State) (v : Word) : Writes [wholeReg rMOTCTL, fMOTFLAG_CFGBUSY] s (ctlStored s v) := by
  unfold ctlStored
  exact .ite ((plainWrite_writes s _ (by simp)).setFld (by simp) 1) (plainWrite_writes s _ (by simp))

theorem ctlStored_mot (s : State) (v : Word) : (ctlStored s v).mot = s.mot := by rw [(ctlStored_writes s v).regs]

/-- A write of MOTCTL itself leaves the enables to the sensors' start and stop. -/
theorem ctlStored_enables (s : State) (v : Word) : (ctlStored s v).on fMOTCTL_AEN = s.on fMOTCTL_AEN ∧
    (ctlStored s v).on fMOTCTL_GEN = s.on fMOTCTL_GEN := by
  have haen (x : Word) (n : Nat) : fldOf (putFld (putFld x fMOTCTL_AEN (fldOf (s.reg rMOTCTL) fMOTCTL_AEN)) fMOTCTL_GEN n) fMOTCTL_AEN =
      s.fld fMOTCTL_AEN := by
    rw [fldOf_putFld_apart _ _ _ _ (by decide), fldOf_putFld _ _ _ (by decide), Nat.mod_eq_of_lt (fldOf_lt _ _)]
    rfl
  have hgen (x : Word) : fldOf (putFld x fMOTCTL_GEN (fldOf (s.reg rMOTCTL) fMOTCTL_GEN)) fMOTCTL_GEN = s.fld fMOTCTL_GEN := by
    rw [fldOf_putFld _ _ _ (by decide), Nat.mod_eq_of_lt (fldOf_lt _ _)]
    rfl
  have hbusy (c : Prop) [Decidable c] (t : State) (g : Fld) (hg : fMOTFLAG_CFGBUSY.other g = true) :
      (if c then t.raise [fMOTFLAG_CFGBUSY] else t).on g = t.on g := on_of_fld (raiseIf_fld hg c t)
  unfold ctlStored
  refine ⟨(hbusy _ _ _ (by decide)).trans (on_of_fld ?_), (hbusy _ _ _ (by decide)).trans (on_of_fld ?_)⟩
  · exact (fld_plainWrite_stored s _ specOf_motctl rfl (by decide)).trans (haen _ _)
  · exact (fld_plainWrite_stored s _ specOf_motctl rfl (by decide)).trans (hgen _)

/-- With the accelerometer off every other field is stored. -/
theorem ctlStored_stored (ha : s.on fMOTCTL_AEN = false) (v : Word) {g : Fld} (haddr : g.addr = rMOTCTL) (hA : fMOTCTL_AEN.apart g = true)
    (hG : fMOTCTL_GEN.apart g = true) (hrw : ∀ j < g.w, (0xF773F7F ||| 0).testBit (g.lo + j) = true ∧ (0 ||| 0).testBit (g.lo + j) = false ∧
      Nat.testBit 0 (g.lo + j) = false) : (ctlStored s v).fld g = fldOf (ctlAsked s v) g := by
  unfold ctlStored
  simp only [ha, Bool.false_and, Bool.false_eq_true, if_false]
  rw [fld_plainWrite_stored s _ specOf_motctl haddr hrw, fldOf_putFld_apart _ _ _ _ hG, fldOf_putFld_apart _ _ _ _ hA]

/-! ### Several writes -/

theorem naveWrites_cons (hc : s.fld fSACCLAIM_CLAIM = 0) {a : Nat} (ha : openReg a = true) (wr : State → Nat → Word → State) (n : Nat)
    (ps : List (Nat × Nat)) : s.naveWrites wr ((a, n) :: ps) = (wr s.deferSync a (BitVec.ofNat 32 n)).naveWrites wr ps := by
  simp only [State.naveWrites, vet_open hc ha, Bool.false_or]

theorem naveWrites_nil (s : State) (wr : State → Nat → Word → State) : s.naveWrites wr [] = (s, false, false) := rfl

theorem motRegs_open : ∀ a ∈ [rMOTCTL, rMOTCAP, rMOTGO, rMOTTL, rMOTTH], openReg a = true := by decide +kernel

end Sys2Proof.Proofs
end

section
/-! PROOF. The descriptors of motion: set-up, stop, the inclinometer and the self-test (Table 21.4). -/

namespace Sys2Proof.Proofs

open Sys2Proof Sys2Proof.Machine

variable {s t u : State} {v : Word} {d : Desc}

/-- Neither sensor is enabled. -/
def MotStill (s : State) : Prop := s.on fMOTCTL_AEN = false ∧ s.on fMOTCTL_GEN = false

theorem motRole_of (h : s.role = .cell ∨ s.role = .loop) : s.motRole = true := by
  rcases h with h | h <;> simp [State.motRole, h]

theorem fld_zero_of_off {f : Fld} (hw : f.w = 1) (h : s.on f = false) : s.fld f = 0 := by
  have hlt : s.fld f < 2 ^ f.w := fldOf_lt _ f
  rw [hw] at hlt
  have hne : s.fld f ≠ 1 := fun h1 => by simp [State.on, h1] at h
  omega

/-! ### One write of MOTCTL in the Nave -/

/-- The fields such a write can change besides the sensors' own. -/
def ctlMotFields : List Fld := [wholeReg rMOTCTL, fMOTFLAG_CFGBUSY] ++ vetFields ++ motFields

theorem deferSync_moved (s : State) : Moved ctlMotFields s s.deferSync := (Moved.ofWrites (deferSync_writes s)).mono fun f hf => by simp [ctlMotFields, hf]

theorem deferSync_mot (s : State) : s.deferSync.mot = s.mot := by rw [(deferSync_writes s).regs]

theorem ctlStored_moved (s : State) (v : Word) : Moved ctlMotFields s (ctlStored s v) :=
  (Moved.ofWrites (ctlStored_writes s v)).mono (by simp [ctlMotFields])

theorem Moved.ctl (h : Moved motFields s t) : Moved ctlMotFields s t := h.mono (fun _ hf => List.mem_append_right _ hf)

theorem ctlAsked_fld {g : Fld} (hG : fMOTCTL_GEN.apart g = true) (hF : fMOTCTL_GFS.apart g = true) (s : State) (v : Word) :
    fldOf (ctlAsked s v) g = fldOf v g := by
  unfold ctlAsked
  split
  · rw [fldOf_putFld_apart _ _ _ _ hF, fldOf_putFld_apart _ _ _ _ hG]
  · rfl

theorem ctlAsked_gen (h : fldOf v fMOTCTL_GEN = 0) (s : State) : fldOf (ctlAsked s v) fMOTCTL_GEN = 0 := by
  unfold ctlAsked
  split
  · rw [fldOf_putFld_apart _ _ _ _ (by decide), fldOf_putFld_zero _ _ (by decide)]
  · exact h

/-- MOTCTL as a descriptor writes it, before the sensors follow. -/
def ctlTaken (s : State) (v : Word) : State := ctlStored s.deferSync v

theorem ctlTaken_moved (s : State) (v : Word) : Moved ctlMotFields s (ctlTaken s v) := (deferSync_moved s).trans (ctlStored_moved _ v)

theorem ctlTaken_mot (s : State) (v : Word) : (ctlTaken s v).mot = s.mot := (ctlStored_mot _ v).trans (deferSync_mot s)

theorem ctlTaken_enables (s : State) (v : Word) : (ctlTaken s v).on fMOTCTL_AEN = s.on fMOTCTL_AEN ∧
    (ctlTaken s v).on fMOTCTL_GEN = s.on fMOTCTL_GEN :=
  ⟨(ctlStored_enables _ v).1.trans (on_of_fld (deferSync_fld (by decide) s)),
    (ctlStored_enables _ v).2.trans (on_of_fld (deferSync_fld (by decide) s))⟩

theorem ctlTaken_stored (hs : MotStill s) (v : Word) {g : Fld} (haddr : g.addr = rMOTCTL) (hA : fMOTCTL_AEN.apart g = true)
    (hG : fMOTCTL_GEN.apart g = true) (hrw : ∀ j < g.w, (0xF773F7F ||| 0).testBit (g.lo + j) = true ∧ (0 ||| 0).testBit (g.lo + j) = false ∧
      Nat.testBit 0 (g.lo + j) = false) : (ctlTaken s v).fld g = fldOf (ctlAsked s v) g := by
  have hrole : ctlAsked s.deferSync v = ctlAsked s v := by
    rw [ctlAsked, (deferSync_moved s).role]
    rfl
  rw [ctlTaken, ctlStored_stored ((on_of_fld (deferSync_fld (by decide) s)).trans hs.1) v haddr hA hG hrw, hrole]

/-- MOTCTL written without the gyroscope. -/
theorem motctl_written (hg : fldOf v fMOTCTL_GEN = 0) {n : Nat} (ha : fldOf v fMOTCTL_AEN = n) (s : State) :
    s.deferSync.motWrite rMOTCTL v = (ctlTaken s v).motEnable (decide (n = 1)) false := by
  have hoff : decide (0 = 1) = false := by decide
  rw [State.motWrite, if_pos rfl, motWriteCtl_eq, ctlAsked_gen hg, ctlAsked_fld (by decide) (by decide), ha, hoff, ctlTaken]

theorem motctl_idle (haw : s.awake = true) (hs : MotStill s) (hg : fldOf v fMOTCTL_GEN = 0) (ha : fldOf v fMOTCTL_AEN = 0) :
    s.deferSync.motWrite rMOTCTL v = (ctlTaken s v).motWatch.retoken ∧ Moved motTailFields (ctlTaken s v) (ctlTaken s v).motWatch.retoken ∧
      (ctlTaken s v).motWatch.retoken.mot = s.mot := by
  have htaw := (ctlTaken_moved s v).awake haw
  obtain ⟨hA, hG⟩ := ctlTaken_enables s v
  exact ⟨(motctl_written hg ha s).trans (motEnable_keeps (hG.trans hs.2) (hA.trans hs.1)), motTail_moved htaw,
    (motTail_mot htaw).trans (ctlTaken_mot s v)⟩

/-! ### Descriptors that fail -/

section

variable (hr : s.ready d = true)
include hr

theorem motion_notRole (h : s.role = .crossing ∨ s.role = .chapter) : exec (.motionSetup d) s = .next (s.complete d stNOTROLE 0 []) ∧
    exec (.motionStart d) s = .next (s.complete d stNOTROLE 0 []) ∧ exec (.motionRead d) s = .next (s.complete d stNOTROLE 0 []) := by
  have hrole : s.motRole = false := by rcases h with h | h <;> simp [State.motRole, h]
  have hno (act : State → DescRes) : s.runDesc d s.motRole act = s.complete d stNOTROLE 0 [] := by
    rw [hrole, State.runDesc_role hr]
  exact ⟨congrArg _ (hno _), congrArg _ (hno _), congrArg _ (hno _)⟩

variable (hm : s.role = .cell ∨ s.role = .loop)
include hm

/-- A motion descriptor whose action ends at once. -/
theorem motion_done {act : State → DescRes} {st r : Nat} {bs : List Byte} (hact : act s = ⟨t, st, r, bs, false⟩) :
    s.runDesc d s.motRole act = t.complete d st r bs := by
  rw [motRole_of hm]
  exact runDesc_done hr hact

theorem motion_waits {act : State → DescRes} {st r : Nat} {bs : List Byte} (hact : act s = ⟨t, st, r, bs, true⟩) :
    s.runDesc d s.motRole act = t := by
  rw [motRole_of hm]
  exact runDesc_waits hr hact

theorem motionSetup_busy (ha : s.on fMOTCTL_AEN = true) :
    exec (.motionSetup d) s = .next ((s.raise [fMOTFLAG_CFGBUSY]).complete d stBUSY 0 []) :=
  congrArg Host.Outcome.next (motion_done hr hm (if_pos ha))

theorem motionStart_invalid (h : 4 ≤ dsArg d 0) : exec (.motionStart d) s = .next (s.complete d stINVALID 0 []) :=
  congrArg Host.Outcome.next (motion_done hr hm (if_pos h))

theorem motionCapture_empty (h : dsArgs d 8 4 = 0) : exec (.motionCapture d) s = .next (s.complete d stINVALID 0 []) :=
  congrArg Host.Outcome.next (motion_done hr hm (if_pos (Or.inr (Or.inl h))))

theorem motionIncl_busy (h : s.mot.mode ≠ 0) : exec (.motionIncl d) s = .next (s.complete d stBUSY 0 []) :=
  congrArg Host.Outcome.next (motion_done hr hm (if_pos (by simp [h])))

theorem motionSelftest_invalid (h : 2 ≤ dsArg d 0) : exec (.motionSelftest d) s = .next (s.complete d stINVALID 0 []) :=
  congrArg Host.Outcome.next (motion_done hr hm (if_pos h))

theorem motionSelftest_waits (h : dsArg d 0 = 0) (hs : MotStill s) (hmode : s.mot.mode = 0) : exec (.motionSelftest d) s =
    .next { s with mot := { s.mot with mode := 5, desc := some d, tries := 0 } } := by
  obtain ⟨ha, hg⟩ := hs
  refine congrArg Host.Outcome.next (motion_waits (st := stOK) (r := 0) (bs := []) hr hm ?_)
  simp only [h, hmode, ha, hg, Nat.zero_ne_one, decide_false, Bool.and_false, bne_self_eq_false, Bool.or_self, Bool.false_eq_true, if_false,
    (by decide : ¬ 2 ≤ 0)]
  rfl

theorem motionRead_answers : exec (.motionRead d) s = .next (s.complete d stOK 0
    (((([rMOTLASTA 0, rMOTLASTA 1, rMOTLASTG 0, rMOTLASTG 1]).map (fun a => leBytes 4 (s.reg a).toNat)).flatten))) :=
  congrArg Host.Outcome.next (motion_done hr hm rfl)

theorem motionQuery_answers : exec (.motionQuery d) s = .next (s.complete d stOK 0
    (((([rMOTSTAT, rMOTFLAG, rMOTLATE, rMOTMISS]).map (fun a => leBytes 4 (s.reg a).toNat)).flatten))) :=
  congrArg Host.Outcome.next (motion_done hr hm rfl)

/-- A start of one sensor that finds a capture under way. -/
theorem motionStart_busy (h : dsArg d 0 = 1) (hbig : s.motTooBig = false) (hmode : 2 ≤ s.mot.mode) :
    exec (.motionStart d) s = .next (s.complete d stBUSY 0 []) := by
  refine congrArg Host.Outcome.next (motion_done hr hm ?_)
  have hgen : bitAt 1 1 = false := by decide
  simp only [h, hgen, hbig, hmode, (by decide : ¬ 4 ≤ 1), Bool.and_false, Bool.false_eq_true, if_false, if_true]
  rfl

theorem motionCapture_busy (h6 : dsArg d 6 = 0) (h0 : 0 < dsArgs d 8 4) (h24 : dsArgs d 8 4 < 2 ^ 24) (hbig : s.motTooBig = false)
    (hmode : s.mot.mode = 1) : exec (.motionCapture d) s = .next (s.complete d stBUSY 0 []) := by
  refine congrArg Host.Outcome.next (motion_done hr hm ?_)
  have hgen : bitAt 0 0 = false := by decide
  have hok : ¬ (8 ≤ 0 ∨ dsArgs d 8 4 = 0 ∨ 2 ^ 24 ≤ dsArgs d 8 4) := by omega
  have hne : (s.mot.mode != 0) = true := by simp [hmode]
  simp only [h6, hok, hgen, hbig, hne, Bool.and_false, Bool.false_eq_true, if_false, if_true]
  rfl

end

theorem motionStart_loopGyro (hr : s.ready d = true) (hl : s.role = .loop) (h : dsArg d 0 = 2) :
    exec (.motionStart d) s = .next (s.complete d stNOTROLE 0 []) := by
  refine congrArg Host.Outcome.next (motion_done hr (.inr hl) ?_)
  have hgen : bitAt 2 1 = true := by decide
  simp only [h, hgen, hl, (by decide : ¬ 4 ≤ 2), decide_true, Bool.and_self, if_false, if_true]
  rfl

theorem motionStart_refused (hr : s.ready d = true) (hcell : s.role = .cell) (h : dsArg d 0 = 2) (hg : s.on fMOTCTL_GEN = false)
    (hbig : s.motTooBig = false) (hmode : s.mot.mode = 0) (htok : s.tokensRefuse (s.needNow + 2) = true) :
    exec (.motionStart d) s = .next (s.tokenRefused.complete d stTOKENS 0 []) := by
  refine congrArg Host.Outcome.next (motion_done hr (.inl hcell) ?_)
  have haen : bitAt 2 0 = false := by decide
  have hgen : bitAt 2 1 = true := by decide
  simp only [h, haen, hgen, hg, hcell, hbig, hmode, htok, (by decide : ¬ 4 ≤ 2), (by decide : ¬ 2 ≤ 0), decide_false, Bool.false_and, Bool.not_false, Bool.and_self,
    Bool.false_eq_true, if_false, if_true, reduceCtorEq, Nat.add_zero]
  rfl

end Sys2Proof.Proofs
end

section
/-! PROOF. The descriptors of motion that write its registers: set-up, start, stop, a capture and the inclinometer (R463, R468, R469, R471). -/

namespace Sys2Proof.Proofs

open Sys2Proof Sys2Proof.Machine

variable {s t u : State} {v : Word} {d : Desc}

theorem motctl_open : openReg rMOTCTL = true := motRegs_open _ (by simp)

theorem enables_of_still (h : MotStill s) : fldOf (s.reg rMOTCTL) fMOTCTL_AEN = 0 ∧ fldOf (s.reg rMOTCTL) fMOTCTL_GEN = 0 :=
  ⟨fld_zero_of_off rfl h.1, fld_zero_of_off rfl h.2⟩

theorem motTail_ctl (h : Moved motTailFields s t) : Moved ctlMotFields s t :=
  h.mono fun f hf => by simp [ctlMotFields, motFields, hf]

/-! ### Set-up -/

/-- The word a set-up writes: the operand's, with the enables as they are. -/
def setupWord (s : State) (d : Desc) : Word := BitVec.ofNat 32 (dsArgs d 0 4 / 4 * 4 + (s.reg rMOTCTL).toNat % 4)

theorem setupWord_high (s : State) (d : Desc) {g : Fld} (hlo : 2 ≤ g.lo) : fldOf (setupWord s d) g = dsArgs d 0 4 / 2 ^ g.lo % 2 ^ g.w := by
  have hlt : dsArgs d 0 4 < 256 ^ 4 := dsArgs_lt d 0 4
  have hsplit : 2 ^ g.lo = 4 * 2 ^ (g.lo - 2) := by
    rw [show (4 : Nat) = 2 ^ 2 by decide, ← Nat.pow_add, Nat.add_sub_cancel' hlo]
  have hdiv : (dsArgs d 0 4 / 4 * 4 + (s.reg rMOTCTL).toNat % 4) / 4 = dsArgs d 0 4 / 4 := by omega
  have hmod : (dsArgs d 0 4 / 4 * 4 + (s.reg rMOTCTL).toNat % 4) % 2 ^ 32 = dsArgs d 0 4 / 4 * 4 + (s.reg rMOTCTL).toNat % 4 :=
    Nat.mod_eq_of_lt (by omega)
  rw [fldOf_eq_div, setupWord, BitVec.toNat_ofNat, hmod, hsplit, ← Nat.div_div_eq_div_mul, ← Nat.div_div_eq_div_mul, hdiv]

theorem setupWord_enables (h : MotStill s) (d : Desc) : fldOf (setupWord s d) fMOTCTL_AEN = 0 ∧ fldOf (setupWord s d) fMOTCTL_GEN = 0 := by
  obtain ⟨ha, hg⟩ := enables_of_still h
  rw [fldOf_eq_div] at ha hg
  have ha' : (s.reg rMOTCTL).toNat / 1 % 2 = 0 := ha
  have hg' : (s.reg rMOTCTL).toNat / 2 % 2 = 0 := hg
  have hmod : (setupWord s d).toNat = (dsArgs d 0 4 / 4 * 4 + (s.reg rMOTCTL).toNat % 4) % 4294967296 := BitVec.toNat_ofNat _ _
  rw [fldOf_eq_div, fldOf_eq_div, hmod]
  exact ⟨(by omega : (dsArgs d 0 4 / 4 * 4 + (s.reg rMOTCTL).toNat % 4) % 4294967296 / 1 % 2 = 0),
    (by omega : (dsArgs d 0 4 / 4 * 4 + (s.reg rMOTCTL).toNat % 4) % 4294967296 / 2 % 2 = 0)⟩

section

variable (hr : s.ready d = true) (hc : s.fld fSACCLAIM_CLAIM = 0) (haw : s.awake = true)
include hr hc haw

theorem motionSetup_stores (hm : s.role = .cell ∨ s.role = .loop) (hs : MotStill s) : ∃ t, exec (.motionSetup d) s = .next (t.complete d stOK 0 []) ∧
    t.fld fMOTCTL_ODR = dsArgs d 0 4 / 8 % 16 ∧ t.fld fMOTCTL_AFS = dsArgs d 0 4 / 256 % 4 ∧ t.fld fMOTCTL_HPK = dsArgs d 0 4 / 2 ^ 16 % 8 ∧
    t.fld fMOTCTL_INCLK = dsArgs d 0 4 / 2 ^ 24 % 16 ∧ t.on fMOTCTL_AEN = false ∧ t.on fMOTCTL_GEN = false ∧
    (s.role = .cell → t.fld fMOTCTL_GFS = dsArgs d 0 4 / 1024 % 8) ∧ (s.role = .loop → t.fld fMOTCTL_GFS = 0) ∧ s.besidesAll t := by
  obtain ⟨ha, hg⟩ := setupWord_enables hs d
  obtain ⟨hgo, htail, -⟩ := motctl_idle haw hs hg ha
  obtain ⟨hA, hG⟩ := ctlTaken_enables s (setupWord s d)
  have hstored {g : Fld} (haddr : g.addr = rMOTCTL) (hgA : fMOTCTL_AEN.apart g = true) (hgG : fMOTCTL_GEN.apart g = true)
      (hrw : ∀ j < g.w, (0xF773F7F ||| 0).testBit (g.lo + j) = true ∧ (0 ||| 0).testBit (g.lo + j) = false ∧ Nat.testBit 0 (g.lo + j) = false)
      (hapart : motTailFields.all (fun f => f.other g) = true) :
      (ctlTaken s (setupWord s d)).motWatch.retoken.fld g = fldOf (ctlAsked s (setupWord s d)) g :=
    (htail.kept g hapart).trans (ctlTaken_stored hs _ haddr hgA hgG hrw)
  have hset : s.setup State.motWrite [(rMOTCTL, dsArgs d 0 4 / 4 * 4 + (s.reg rMOTCTL).toNat % 4)] =
      ⟨(ctlTaken s (setupWord s d)).motWatch.retoken, stOK, 0, [], false⟩ := by
    rw [setup_cons hc motctl_open, ← setupWord, hgo, setup_nil]
  refine ⟨_, congrArg Host.Outcome.next (motion_done hr hm ((if_neg (Bool.eq_false_iff.mp hs.1)).trans hset)), ?_, ?_, ?_, ?_, ?_, ?_, ?_, ?_, ?_⟩
  · rw [hstored rfl (by decide) (by decide) (by decide) (by decide), ctlAsked_fld (by decide) (by decide), setupWord_high _ _ (by decide)]
    rfl
  · rw [hstored rfl (by decide) (by decide) (by decide) (by decide), ctlAsked_fld (by decide) (by decide), setupWord_high _ _ (by decide)]
    rfl
  · rw [hstored rfl (by decide) (by decide) (by decide) (by decide), ctlAsked_fld (by decide) (by decide), setupWord_high _ _ (by decide)]
    rfl
  · rw [hstored rfl (by decide) (by decide) (by decide) (by decide), ctlAsked_fld (by decide) (by decide), setupWord_high _ _ (by decide)]
    rfl
  · rw [htail.on (by decide), hA, hs.1]
  · rw [htail.on (by decide), hG, hs.2]
  · intro hcell
    rw [hstored rfl (by decide) (by decide) (by decide) (by decide), ctlAsked, hcell, if_neg (by simp), setupWord_high _ _ (by decide)]
    rfl
  · intro hloop
    rw [hstored rfl (by decide) (by decide) (by decide) (by decide), ctlAsked, hloop, if_pos rfl, fldOf_putFld_zero _ _ (by decide)]
  · exact State.besidesAll_trans (ctlTaken_moved s _).besidesAll htail.besidesAll

/-! ### The inclinometer -/

theorem motionIncl_waits (hm : s.role = .cell ∨ s.role = .loop) (hs : MotStill s) (hmode : s.mot.mode = 0) : ∃ t, exec (.motionIncl d) s = .next t ∧
    t.mot.mode = 4 ∧ t.mot.desc = some d ∧ t.fld fMOTCTL_INCLK = min 12 (dsArg d 0) ∧ t.on fMOTSTAT_INCLBAD = false ∧ s.besidesAll t := by
  obtain ⟨w, hw⟩ : ∃ w, w = putFld (s.reg rMOTCTL) fMOTCTL_INCLK (min 12 (dsArg d 0)) := ⟨_, rfl⟩
  obtain ⟨ha0, hg0⟩ := enables_of_still hs
  have hof : BitVec.ofNat 32 w.toNat = w := by simp
  have ha : fldOf w fMOTCTL_AEN = 0 := by rw [hw, fldOf_putFld_apart _ _ _ _ (by decide), ha0]
  have hg : fldOf w fMOTCTL_GEN = 0 := by rw [hw, fldOf_putFld_apart _ _ _ _ (by decide), hg0]
  have hk : fldOf w fMOTCTL_INCLK = min 12 (dsArg d 0) := by
    rw [hw, fldOf_putFld _ _ _ (by decide)]
    exact Nat.mod_eq_of_lt (by simp only [fMOTCTL_INCLK]; omega)
  obtain ⟨hgo, htail, -⟩ := motctl_idle haw hs hg ha
  have hwrites : s.naveWrites State.motWrite [(rMOTCTL, w.toNat)] = ((ctlTaken s w).motWatch.retoken, false, false) := by
    rw [naveWrites_cons hc motctl_open, hof, hgo, naveWrites_nil]
  obtain ⟨t, ht⟩ : ∃ t, t = (ctlTaken s w).motWatch.retoken := ⟨_, rfl⟩
  rw [← ht] at htail hwrites
  have hin : Moved ctlMotFields s t := (ctlTaken_moved s w).trans (motTail_ctl htail)
  refine ⟨(t.setFld fMOTSTAT_INCLBAD 0).motSet (fun m => { m with mode := 4, desc := some d }), congrArg Host.Outcome.next
    (motion_waits (st := stOK) (r := 0) (bs := []) hr hm ?_), rfl, rfl, ?_, ?_, ?_⟩
  · simp only [hmode, hs.1, hs.2, bne_self_eq_false, Bool.or_self, Bool.false_eq_true, if_false, ← hw, hwrites]
  · rw [State.motSet_fld, State.fld_setFld_other _ _ _ _ (by decide), htail.kept _ (by decide),
      ctlTaken_stored hs _ rfl (by decide) (by decide) (by decide), ctlAsked_fld (by decide) (by decide), hk]
  · rw [State.motSet_on, on_setFld_zero _ _ (by decide) (by decide)]
  · exact State.besidesAll_trans hin.besidesAll (((Moved.refl [fMOTSTAT_INCLBAD] t).setFld (by simp) 0).motSet _).besidesAll

/-! ### Start and stop -/

/-- The word that sets the enables. -/
def enWord (s : State) (aen gen : Bool) : Word := putFld (putFld (s.reg rMOTCTL) fMOTCTL_AEN (b2n aen)) fMOTCTL_GEN (b2n gen)

omit hr hc haw in
theorem enWord_fields (s : State) (aen gen : Bool) : fldOf (enWord s aen gen) fMOTCTL_AEN = b2n aen ∧ fldOf (enWord s aen gen) fMOTCTL_GEN = b2n gen ∧
    fldOf (enWord s aen gen) fMOTCTL_ODR = s.fld fMOTCTL_ODR := by
  have hb (b : Bool) : b2n b % 2 ^ 1 = b2n b := by cases b <;> rfl
  refine ⟨?_, ?_, ?_⟩
  · rw [enWord, fldOf_putFld_apart _ _ _ _ (by decide), fldOf_putFld _ _ _ (by decide)]
    exact hb aen
  · rw [enWord, fldOf_putFld _ _ _ (by decide)]
    exact hb gen
  · rw [enWord, fldOf_putFld_apart _ _ _ _ (by decide), fldOf_putFld_apart _ _ _ _ (by decide)]
    rfl

omit hr haw in
theorem motEnWrite_eq (aen : Bool) : s.motEnWrite aen false = ⟨(ctlTaken s (enWord s aen false)).motEnable aen false, stOK, 0, [], false⟩ := by
  obtain ⟨ha, hg, -⟩ := enWord_fields s aen false
  have hof : BitVec.ofNat 32 (enWord s aen false).toNat = enWord s aen false := by simp
  have hb : decide (b2n aen = 1) = aen := by cases aen <;> rfl
  have hset : s.motEnWrite aen false = s.setup State.motWrite [(rMOTCTL, (enWord s aen false).toNat)] := rfl
  rw [hset, setup_cons hc motctl_open, hof, motctl_written hg ha, hb, setup_nil]

theorem motionStop_ends (hm : s.role = .cell ∨ s.role = .loop) (ha : s.on fMOTCTL_AEN = true) (hg : s.on fMOTCTL_GEN = false) (hmode : s.mot.mode = 1) :
    ∃ t, exec (.motionStop d) s = .next (t.complete d stOK 0 []) ∧ t.on fMOTCTL_AEN = false ∧ t.on fMOTSTAT_ARUN = false ∧ t.mot.mode = 0 ∧
      s.besidesAll t := by
  obtain ⟨u, hu⟩ : ∃ u, u = ctlTaken s (enWord s false false) := ⟨_, rfl⟩
  have hin : Moved ctlMotFields s u := hu ▸ ctlTaken_moved s _
  obtain ⟨hA, hG⟩ := ctlTaken_enables s (enWord s false false)
  have hmot : u.mot = s.mot := by rw [hu, ctlTaken_mot]
  rw [← hu] at hA hG
  have hstop := motEnable_stopped (hin.awake haw)
  obtain ⟨harun, hend⟩ := motEnable_ends (hin.awake haw) (hA.trans ha) (hG.trans hg) (by rw [hmot, hmode])
  refine ⟨_, congrArg Host.Outcome.next (motion_done hr hm ((motEnWrite_eq hc false).trans (by rw [← hu]))), hstop.aen, harun, hend, ?_⟩
  exact State.besidesAll_trans hin.besidesAll hstop.moved.besidesAll

omit hr hc haw in
theorem motGo_anchors (hmode : s.mot.mode = 0) (hn : s.fld fMOTCAP_NCAP = 0) (ha : s.on fMOTCTL_AEN = true) :
    s.motGo = s.motAnchor 1 s.now s.clk.frac 0 := by
  simp [State.motGo, hmode, hn, ha]

/-- The fields a start of the grid changes. -/
def anchorFields : List Fld := [fMOTMISS_MISSED, fMOTSTAT_SHED, fMOTSTAT_SPIRE]

omit hr hc haw in
theorem motAnchor_moved (s : State) (mode t frac n : Nat) : Moved anchorFields s (s.motAnchor mode t frac n) :=
  ((Moved.refl _ s).sets _ (by simp [anchorFields])).motSet _

omit hr hc haw in
theorem motAnchor_missed (s : State) (mode t frac n : Nat) : (s.motAnchor mode t frac n).fld fMOTMISS_MISSED = 0 := by
  rw [State.motAnchor, State.motSet_fld, State.sets_cons, State.sets_cons, State.sets_cons, State.sets_nil,
    State.fld_setFld_other _ fMOTSTAT_SPIRE _ _ (by decide), State.fld_setFld_other _ _ _ _ (by decide), State.fld_setFld _ _ _ (by decide),
    Nat.zero_mod]

omit hr in
/-- A descriptor's start of the accelerometer, before its stream. -/
theorem motEnWrite_starts (hs : MotStill s) (hodr : s.fld fMOTCTL_ODR < 6) : ∃ u, s.motEnWrite true false = ⟨u, stOK, 0, [], false⟩ ∧
    Moved ctlMotFields s u ∧ u.on fMOTCTL_AEN = true ∧ u.on fMOTSTAT_ARUN = true ∧ u.on fMOTCTL_GEN = false ∧ u.mot.mode = s.mot.mode := by
  obtain ⟨-, -, hO⟩ := enWord_fields s true false
  obtain ⟨hA, hG⟩ := ctlTaken_enables s (enWord s true false)
  have hin := ctlTaken_moved s (enWord s true false)
  have hodr' : (ctlTaken s (enWord s true false)).fld fMOTCTL_ODR < 6 := by
    rw [ctlTaken_stored hs _ rfl (by decide) (by decide) (by decide), ctlAsked_fld (by decide) (by decide), hO]
    exact hodr
  obtain ⟨hmoved, haen, harun, hgen, hmot⟩ := motEnable_started (hin.awake haw) (hA.trans hs.1) (hG.trans hs.2) hodr'
  exact ⟨_, motEnWrite_eq hc true, hin.trans hmoved.ctl, haen, harun, hgen, by rw [hmot, ctlTaken_mot]⟩

end

end Sys2Proof.Proofs
end

section
/-! PROOF. A stream's start and a capture as descriptors ask for them (R463, R468, R469). -/

namespace Sys2Proof.Proofs

open Sys2Proof Sys2Proof.Machine

variable {s t u : State} {v : Word} {d : Desc} {a : Nat}

/-! ### Writes that only store -/

/-- The fields a plain write of a register of block 20 in the Nave changes. -/
def storeFields (a : Nat) : List Fld := wholeReg a :: vetFields

theorem plainWrite_mot (s : State) (a : Nat) (v : Word) : (s.plainWrite a v).mot = s.mot := by
  rw [(plainWrite_writes (l := [wholeReg a]) s v (by simp)).regs]

theorem navePlain_moved (s : State) (a : Nat) (v : Word) : Moved (storeFields a) s (s.deferSync.plainWrite a v) :=
  (Moved.ofWrites ((deferSync_writes s).mono fun f hf => by simp [storeFields, hf])).trans
    (Moved.ofWrites (plainWrite_writes _ v (by simp [storeFields])))

theorem navePlain_mot (s : State) (a : Nat) (v : Word) : (s.deferSync.plainWrite a v).mot = s.mot :=
  (plainWrite_mot _ a v).trans (deferSync_mot s)

theorem motcap_stored (s : State) (v : Word) : (s.plainWrite rMOTCAP v).fld fMOTCAP_NCAP = v.toNat % 2 ^ 24 := by
  rw [fld_plainWrite_stored s v specOf_motcap rfl (by decide), fldOf_eq_div]
  exact congrArg (· % 2 ^ 24) (Nat.div_one _)

theorem mottl_stored (s : State) (v : Word) : (s.plainWrite rMOTTL v).fld fMOTTL_TIME = v.toNat := by
  rw [fld_plainWrite_stored s v specOf_mottl rfl (by decide), fldOf_eq_div]
  exact (Nat.mod_eq_of_lt (Nat.lt_of_le_of_lt (Nat.div_le_self _ _) v.isLt)).trans (Nat.div_one _)

theorem motth_stored (s : State) (v : Word) : (s.plainWrite rMOTTH v).fld fMOTTH_TIME = v.toNat % 2 ^ 16 := by
  rw [fld_plainWrite_stored s v specOf_motth rfl (by decide), fldOf_eq_div]
  exact congrArg (· % 2 ^ 16) (Nat.div_one _)

theorem motcap_written (s : State) (v : Word) : s.motWrite rMOTCAP v = s.plainWrite rMOTCAP v := by
  rw [State.motWrite, if_neg (by decide), if_neg (by decide), if_neg (by decide)]

theorem mottl_written (s : State) (v : Word) : s.motWrite rMOTTL v = s.plainWrite rMOTTL v := by
  rw [State.motWrite, if_neg (by decide), if_neg (by decide), if_neg (by decide)]

theorem motgo_written (h : fldOf v fMOTGO_GO = 1) (s : State) : s.motWrite rMOTGO v = s.motGo := by
  rw [State.motWrite, if_neg (by decide), if_pos rfl, if_pos h]

/-! ### A stream -/

/-- NCAP cleared and GO written, once the accelerometer runs. -/
theorem streamWrites (hc : u.fld fSACCLAIM_CLAIM = 0) (hmode : u.mot.mode = 0) (ha : u.on fMOTCTL_AEN = true) :
    ∃ w, Moved (storeFields rMOTCAP) u w ∧ w.fld fMOTCAP_NCAP = 0 ∧
      u.naveWrites State.motWrite [(rMOTCAP, 0), (rMOTGO, 1)] = (w.motAnchor 1 u.now u.clk.frac 0, false, false) := by
  obtain ⟨x, hx⟩ : ∃ x, x = u.deferSync.plainWrite rMOTCAP (BitVec.ofNat 32 0) := ⟨_, rfl⟩
  have hux : Moved (storeFields rMOTCAP) u x := hx ▸ navePlain_moved _ _ _
  have huw : Moved (storeFields rMOTCAP) u x.deferSync :=
    hux.trans (Moved.ofWrites ((deferSync_writes x).mono fun f hf => by simp [storeFields, hf]))
  have hmot : x.deferSync.mot = u.mot := by rw [deferSync_mot, hx, navePlain_mot]
  have hcap : x.deferSync.fld fMOTCAP_NCAP = 0 := by
    rw [deferSync_fld (by decide), hx, motcap_stored]
    rfl
  refine ⟨x.deferSync, huw, hcap, ?_⟩
  have haen : x.deferSync.on fMOTCTL_AEN = true := (huw.on (by decide)).trans ha
  rw [naveWrites_cons hc (motRegs_open _ (by simp)), motcap_written, ← hx,
    naveWrites_cons ((hux.kept _ (by decide)).trans hc) (motRegs_open _ (by simp)),
    motgo_written (by decide), naveWrites_nil, motGo_anchors (by rw [hmot, hmode]) hcap haen, huw.now, huw.clk]

theorem motionStart_starts (hr : s.ready d = true) (hc : s.fld fSACCLAIM_CLAIM = 0) (haw : s.awake = true)
    (hm : s.role = .cell ∨ s.role = .loop) (h : dsArg d 0 = 1) (hs : MotStill s) (htok : s.tokensRefuse s.needNow = false)
    (hodr : s.fld fMOTCTL_ODR < 6) (hbig : s.motTooBig = false) (hmode : s.mot.mode = 0) :
    ∃ t, exec (.motionStart d) s = .next (t.complete d stOK 0 []) ∧
      t.on fMOTCTL_AEN = true ∧ t.on fMOTSTAT_ARUN = true ∧ t.on fMOTCTL_GEN = false ∧ t.fld fMOTCAP_NCAP = 0 ∧ t.fld fMOTMISS_MISSED = 0 ∧
      t.mot.mode = 1 ∧ t.mot.t = s.now ∧ t.mot.tFrac = s.clk.frac ∧ t.mot.n = 0 ∧ s.besidesAll t := by
  obtain ⟨u, hen, hin, haen, harun, hgen, hum⟩ := motEnWrite_starts hc haw hs hodr
  obtain ⟨w, huw, hcap, hgo⟩ := streamWrites (u := u) ((hin.kept _ (by decide)).trans hc) (hum.trans hmode) haen
  have hwt : Moved anchorFields w (w.motAnchor 1 u.now u.clk.frac 0) := motAnchor_moved w 1 _ _ 0
  have hmiss := motAnchor_missed w 1 u.now u.clk.frac 0
  have hmot : (w.motAnchor 1 u.now u.clk.frac 0).mot.mode = 1 ∧ (w.motAnchor 1 u.now u.clk.frac 0).mot.t = u.now ∧
      (w.motAnchor 1 u.now u.clk.frac 0).mot.tFrac = u.clk.frac ∧ (w.motAnchor 1 u.now u.clk.frac 0).mot.n = 0 := ⟨rfl, rfl, rfl, rfl⟩
  obtain ⟨t, ht⟩ : ∃ t, t = w.motAnchor 1 u.now u.clk.frac 0 := ⟨_, rfl⟩
  rw [← ht] at hwt hmiss hmot hgo
  obtain ⟨hmode1, htime, hfrac, hn⟩ := hmot
  have hact : exec (.motionStart d) s = .next (t.complete d stOK 0 []) := by
    have hk : decide (5 < s.motK) = false := decide_eq_false (by rw [State.motK]; omega)
    have ha1 : bitAt 1 0 = true := by decide
    have hg1 : bitAt 1 1 = false := by decide
    have h2 : ¬ 2 ≤ s.mot.mode := by omega
    refine congrArg Host.Outcome.next (motion_done hr hm ?_)
    simp only [h, ha1, hg1, hbig, h2, hk, (by decide : ¬ 4 ≤ 1), hs.2, Bool.and_false, Bool.false_and, Bool.true_or, Bool.false_or,
      Bool.false_eq_true, if_false, Nat.add_zero, htok, hen, hgo]
  refine ⟨t, hact, ?_, ?_, ?_, (hwt.kept _ (by decide)).trans hcap, hmiss, hmode1, htime.trans hin.now, ?_, hn, ?_⟩
  · rw [hwt.on (by decide), huw.on (by decide), haen]
  · rw [hwt.on (by decide), huw.on (by decide), harun]
  · rw [hwt.on (by decide), huw.on (by decide), hgen]
  · rw [hfrac, hin.clk]
  · exact State.besidesAll_trans hin.besidesAll (State.besidesAll_trans huw.besidesAll hwt.besidesAll)

/-! ### Arming a capture -/

/-- A write of MOTTH with ARM, with nothing under way and a length given. -/
theorem motth_arms (hv : v.toNat / 2 ^ 16 % 2 = 1) (hmode : s.mot.mode = 0) (hn : s.fld fMOTCAP_NCAP ≠ 0) :
    s.motWrite rMOTTH v = (s.plainWrite rMOTTH v).motArm (s.fld fMOTTL_TIME + v.toNat % 2 ^ 16 * 2 ^ 32) false := by
  have harm : fldOf v fMOTTH_ARM = 1 := (fldOf_eq_div v _).trans hv
  have hm : ((s.plainWrite rMOTTH v).mot.mode != 0) = false := by rw [plainWrite_mot, hmode]; rfl
  have hcap : (s.plainWrite rMOTTH v).fld fMOTCAP_NCAP ≠ 0 := by rw [plainWrite_kept (by decide)]; exact hn
  have htl : (s.plainWrite rMOTTH v).fld fMOTTL_TIME = s.fld fMOTTL_TIME := plainWrite_kept (by decide) s v
  rw [State.motWrite, if_neg (by decide), if_neg (by decide), if_pos rfl]
  simp only [harm, hm, hcap, motth_stored, htl, Nat.one_ne_zero, if_false, Bool.false_eq_true]

/-- The capture armed at a time, once the sensors run. -/
def armedAt (s : State) (time : Nat) : State := (s.motAnchor 2 (time % 2 ^ 48) 0 0).sets [(fMOTSTAT_ARMED, 1), (fMOTTH_ARM, 1)]

theorem motArm_armed (hg : s.on fMOTCTL_GEN = false) {x : State} (hx : x = (s.setFld fMOTTH_LATE 0).motEnable true false)
    (ha : x.on fMOTCTL_AEN = true) (time : Nat) : s.motArm time false =
      if past (armedAt x time).mot.t (armedAt x time).now then (armedAt x time).motLate else armedAt x time := by
  have hg' : (s.setFld fMOTTH_LATE 0).on fMOTCTL_GEN = false := (on_setFld_other _ _ _ _ (by decide)).trans hg
  unfold State.motArm
  simp only [hg', Bool.or_self, ← hx, ha, Bool.not_true, Bool.false_eq_true, if_false]
  rfl

/-- The fields an armed capture changes. -/
def armFields : List Fld := [fMOTSTAT_ARMED, fMOTTH_ARM] ++ anchorFields

theorem armedAt_spec (s : State) (time : Nat) : Moved armFields s (armedAt s time) ∧ (armedAt s time).mot.mode = 2 ∧
    (armedAt s time).mot.t = time % 2 ^ 48 ∧ (armedAt s time).mot.n = 0 ∧ (armedAt s time).on fMOTSTAT_ARMED = true ∧
    (armedAt s time).on fMOTTH_ARM = true := by
  refine ⟨((motAnchor_moved s 2 _ 0 0).mono fun f hf => by simp [armFields, hf]).sets _ (by simp [armFields]), rfl, rfl, rfl, ?_, ?_⟩
  · rw [armedAt, State.sets_cons, State.sets_cons, State.sets_nil, on_setFld_other _ _ _ _ (by decide), on_setFld_one _ _ (by decide) (by decide)]
  · rw [armedAt, State.sets_cons, State.sets_cons, State.sets_nil, on_setFld_one _ _ (by decide) (by decide)]

/-! ### A flag of motion -/

theorem motFlag_posted (s : State) (f : Fld) (code : Nat) (data : List Byte) :
    Posted (if s.on f then s else s.setFld f 1) (s.motFlag f code data) := by
  unfold State.motFlag
  dsimp only
  split
  · exact .refl s
  · exact .ite (event_posted _ _ _) (.refl _)

theorem motFlag_on (s : State) {f : Fld} (hw : 0 < f.w) (hfit : f.lo + f.w ≤ 32) (code : Nat) (data : List Byte) :
    (s.motFlag f code data).on f = true := by
  rw [(motFlag_posted s f code data).on]
  split
  case isTrue h => exact h
  case isFalse => exact on_setFld_one s f hw hfit

theorem motFlag_fld (s : State) {f g : Fld} (h : f.other g = true) (code : Nat) (data : List Byte) : (s.motFlag f code data).fld g = s.fld g := by
  rw [(motFlag_posted s f code data).fld]
  split
  · rfl
  · exact State.fld_setFld_other _ _ _ _ h

theorem Posted.mot (h : Posted s t) : t.mot = s.mot := by rw [h]

theorem Posted.slp (h : Posted s t) : t.slp = s.slp := by rw [h]

theorem Posted.awake (h : Posted s t) (ha : s.awake = true) : t.awake = true := by
  rw [State.awake, h.slp]
  exact ha

theorem motFlag_mot (s : State) (f : Fld) (code : Nat) (data : List Byte) : (s.motFlag f code data).mot = s.mot := by
  rw [(motFlag_posted s f code data).mot]
  split <;> rfl

theorem motFlag_awake (h : s.awake = true) (f : Fld) (code : Nat) (data : List Byte) : (s.motFlag f code data).awake = true := by
  refine (motFlag_posted s f code data).awake ?_
  split
  · exact h
  · exact h

theorem motFlag_besides (s : State) (f : Fld) (code : Nat) (data : List Byte) : s.besides (s.motFlag f code data) := by
  refine State.besides_trans ?_ (motFlag_posted s f code data).besides
  split
  · exact s.besides_refl
  · exact (s.besidesAll_setFld f 1).1

end Sys2Proof.Proofs
end

section
/-! PROOF. A capture as its descriptor asks for it (R468, R469). -/

namespace Sys2Proof.Proofs

open Sys2Proof Sys2Proof.Machine

variable {s t u : State} {v w : Word} {d : Desc} {n time : Nat}

/-- The fields the writes of a capture change. -/
def capFields : List Fld := [wholeReg rMOTCAP, wholeReg rMOTTL, wholeReg rMOTTH] ++ ctlMotFields

theorem capPlain_moved {a : Nat} (ha : wholeReg a ∈ capFields) (s : State) (v : Word) : Moved capFields s (s.deferSync.plainWrite a v) :=
  (navePlain_moved s a v).mono fun f hf => by
    rcases List.mem_cons.mp hf with rfl | hf
    · exact ha
    · simp [capFields, ctlMotFields, hf]

/-- The registers of a capture as they stand when it is armed. -/
structure CaptureSet (s : State) (w : Word) (n : Nat) (y : State) : Prop where
  moved : Moved capFields s y
  mot : y.mot = s.mot
  still : MotStill y
  odr : y.fld fMOTCTL_ODR = s.fld fMOTCTL_ODR
  ncap : y.fld fMOTCAP_NCAP = n
  drop : y.fld fMOTCTL_LATEDROP = fldOf w fMOTCTL_LATEDROP

theorem captureWrites (hc : s.fld fSACCLAIM_CLAIM = 0) (haw : s.awake = true) (hs : MotStill s) (hmode : s.mot.mode = 0)
    (ha : fldOf w fMOTCTL_AEN = 0) (hg : fldOf w fMOTCTL_GEN = 0) (hodr : fldOf w fMOTCTL_ODR = s.fld fMOTCTL_ODR)
    (h0 : 0 < n) (h24 : n < 2 ^ 24) (ht : time < 2 ^ 48) : ∃ y, CaptureSet s w n y ∧
      s.naveWrites State.motWrite [(rMOTCAP, n), (rMOTCTL, w.toNat), (rMOTTL, time % 2 ^ 32), (rMOTTH, time / 2 ^ 32 + 2 ^ 16)] =
        (y.motArm time false, false, false) := by
  obtain ⟨x1, hx1⟩ : ∃ x, x = s.deferSync.plainWrite rMOTCAP (BitVec.ofNat 32 n) := ⟨_, rfl⟩
  have h1 : Moved capFields s x1 := hx1 ▸ capPlain_moved (by simp [capFields]) _ _
  have h1s : Moved (storeFields rMOTCAP) s x1 := hx1 ▸ navePlain_moved _ _ _
  have hs1 : MotStill x1 := ⟨(h1s.on (by decide)).trans hs.1, (h1s.on (by decide)).trans hs.2⟩
  have hcap1 : x1.fld fMOTCAP_NCAP = n := by
    rw [hx1, motcap_stored, BitVec.toNat_ofNat]
    omega
  have hmot1 : x1.mot = s.mot := by rw [hx1, navePlain_mot]
  obtain ⟨hgo, htail, hmot2⟩ := motctl_idle (v := w) (h1.awake haw) hs1 hg ha
  obtain ⟨hA2, hG2⟩ := ctlTaken_enables x1 w
  have hodr2 := ctlTaken_stored hs1 w (g := fMOTCTL_ODR) rfl (by decide) (by decide) (by decide)
  have hdrop2 := ctlTaken_stored hs1 w (g := fMOTCTL_LATEDROP) rfl (by decide) (by decide) (by decide)
  rw [ctlAsked_fld (by decide) (by decide)] at hodr2 hdrop2
  obtain ⟨x2, hx2⟩ : ∃ x, x = (ctlTaken x1 w).motWatch.retoken := ⟨_, rfl⟩
  rw [← hx2] at hgo htail hmot2
  have h12 : Moved ctlMotFields x1 x2 := (ctlTaken_moved x1 w).trans (motTail_ctl htail)
  have h2 : Moved capFields s x2 := h1.trans (h12.mono fun f hf => by simp [capFields, hf])
  obtain ⟨x3, hx3⟩ : ∃ x, x = x2.deferSync.plainWrite rMOTTL (BitVec.ofNat 32 (time % 2 ^ 32)) := ⟨_, rfl⟩
  have h23 : Moved (storeFields rMOTTL) x2 x3 := hx3 ▸ navePlain_moved _ _ _
  have h3 : Moved capFields s x3 := h2.trans (hx3 ▸ capPlain_moved (by simp [capFields]) _ _)
  have hmot3 : x3.mot = s.mot := by rw [hx3, navePlain_mot, hmot2, hmot1]
  have htl3 : x3.fld fMOTTL_TIME = time % 2 ^ 32 := by
    rw [hx3, mottl_stored, BitVec.toNat_ofNat]
    exact Nat.mod_eq_of_lt (Nat.mod_lt _ (by decide))
  obtain ⟨v4, hv4⟩ : ∃ v, v = BitVec.ofNat 32 (time / 2 ^ 32 + 2 ^ 16) := ⟨_, rfl⟩
  have hv : v4.toNat = time / 2 ^ 32 + 2 ^ 16 := by
    rw [hv4, BitVec.toNat_ofNat]
    omega
  have hd3 : Moved vetFields x3 x3.deferSync := Moved.ofWrites (deferSync_writes x3)
  have hy : Moved (storeFields rMOTTH) x3 (x3.deferSync.plainWrite rMOTTH v4) := navePlain_moved _ _ _
  have h24' : Moved capFields x3 (x3.deferSync.plainWrite rMOTTH v4) := capPlain_moved (by simp [capFields]) _ _
  have hncap3 : x3.fld fMOTCAP_NCAP = n := by rw [h23.kept _ (by decide), h12.kept _ (by decide), hcap1]
  refine ⟨x3.deferSync.plainWrite rMOTTH v4, ⟨h3.trans h24', (navePlain_mot _ _ _).trans hmot3, ⟨?_, ?_⟩, ?_, ?_, ?_⟩, ?_⟩
  · rw [hy.on (by decide), h23.on (by decide), htail.on (by decide), hA2, hs1.1]
  · rw [hy.on (by decide), h23.on (by decide), htail.on (by decide), hG2, hs1.2]
  · rw [hy.kept _ (by decide), h23.kept _ (by decide), htail.kept _ (by decide), hodr2, hodr]
  · rw [hy.kept _ (by decide), hncap3]
  · rw [hy.kept _ (by decide), h23.kept _ (by decide), htail.kept _ (by decide), hdrop2]
  · have hof : BitVec.ofNat 32 w.toNat = w := by simp
    have hopen (a : Nat) (h : a ∈ [rMOTCTL, rMOTCAP, rMOTGO, rMOTTL, rMOTTH]) := motRegs_open a h
    have harms := motth_arms (s := x3.deferSync) (v := v4) (by rw [hv]; omega) (by rw [deferSync_mot, hmot3, hmode])
      (by rw [hd3.kept _ (by decide), hncap3]; omega)
    have htime : x3.deferSync.fld fMOTTL_TIME + v4.toNat % 2 ^ 16 * 2 ^ 32 = time := by
      rw [hd3.kept _ (by decide), htl3, hv]
      omega
    rw [naveWrites_cons hc (hopen _ (by simp)), motcap_written, ← hx1,
      naveWrites_cons ((h1.kept _ (by decide)).trans hc) (hopen _ (by simp)), hof, hgo,
      naveWrites_cons ((h2.kept _ (by decide)).trans hc) (hopen _ (by simp)), mottl_written, ← hx3,
      naveWrites_cons ((h3.kept _ (by decide)).trans hc) (hopen _ (by simp)), ← hv4, harms, htime, naveWrites_nil]

/-- A capture armed with the sensors off: they start, and its time is tested. -/
theorem motArm_starts (haw : s.awake = true) (hs : MotStill s) (hodr : s.fld fMOTCTL_ODR < 6) (ht : time < 2 ^ 48) :
    ∃ z, s.motArm time false = (if past time s.now then z.motLate else z) ∧ Moved (fMOTTH_LATE :: motFields ++ armFields) s z ∧
      z.mot.mode = 2 ∧ z.mot.t = time ∧ z.mot.n = 0 ∧ z.on fMOTSTAT_ARMED = true ∧ z.on fMOTCTL_AEN = true ∧ z.on fMOTTH_LATE = false := by
  have hlate : Moved [fMOTTH_LATE] s (s.setFld fMOTTH_LATE 0) := (Moved.refl _ s).setFld (by simp) 0
  obtain ⟨hmoved, haen, -, -, -⟩ := motEnable_started (s := s.setFld fMOTTH_LATE 0) haw ((hlate.on (by decide)).trans hs.1)
    ((hlate.on (by decide)).trans hs.2) (by rw [hlate.kept _ (by decide)]; exact hodr)
  obtain ⟨x, hx⟩ : ∃ x, x = (s.setFld fMOTTH_LATE 0).motEnable true false := ⟨_, rfl⟩
  rw [← hx] at hmoved haen
  obtain ⟨hz, hmode, htime, hn, harmed, -⟩ := armedAt_spec x time
  have hall : Moved (fMOTTH_LATE :: motFields ++ armFields) s (armedAt x time) :=
    ((hlate.mono (by simp)).trans (hmoved.mono fun f hf => by simp [hf])).trans (hz.mono fun f hf => by simp [hf])
  rw [Nat.mod_eq_of_lt ht] at htime
  refine ⟨armedAt x time, ?_, hall, hmode, htime, hn, harmed, (hz.on (by decide)).trans haen, ?_⟩
  · rw [motArm_armed hs.2 hx haen, htime, hall.now]
  · rw [hz.on (by decide), hmoved.on (by decide), on_setFld_zero _ _ (by decide) (by decide)]

/-- A late capture that is to be dropped. -/
theorem motLate_drops (haw : s.awake = true) (hdrop : s.on fMOTCTL_LATEDROP = true) :
    s.motLate.mot.mode = 0 ∧ s.motLate.on fMOTTH_LATE = true ∧ s.motLate.on fMOTFLAG_LATE = true ∧ s.motLate.on fMOTCTL_AEN = false := by
  obtain ⟨e, he⟩ : ∃ e, e = lateness s.mot.t s.now := ⟨_, rfl⟩
  obtain ⟨x, hx⟩ : ∃ x, x = (s.setFld fMOTTH_LATE 1).setFld fMOTLATE_LATE e := ⟨_, rfl⟩
  obtain ⟨y, hy⟩ : ∃ y, y = x.motFlag fMOTFLAG_LATE 0x0502 (leBytes 4 e) := ⟨_, rfl⟩
  have hxaw : x.awake = true := hx ▸ haw
  have hlate : y.on fMOTTH_LATE = true := by
    rw [hy, on_of_fld (motFlag_fld x (by decide) _ _), hx, on_setFld_other _ _ _ _ (by decide), on_setFld_one _ _ (by decide) (by decide)]
  have hflag : y.on fMOTFLAG_LATE = true := hy ▸ motFlag_on x (by decide) (by decide) _ _
  have hdrop' : y.on fMOTCTL_LATEDROP = true := by
    rw [hy, on_of_fld (motFlag_fld x (by decide) _ _), hx, on_setFld_other _ _ _ _ (by decide), on_setFld_other _ _ _ _ (by decide), hdrop]
  have heq : s.motLate = y.motEnd.motEnable false false := by
    have hflagged : (s.sets [(fMOTTH_LATE, 1), (fMOTLATE_LATE, e)]).motFlag fMOTFLAG_LATE 0x0502 (leBytes 4 e) = y := by
      rw [hy, hx]
      rfl
    unfold State.motLate
    simp only [← he, hflagged, hdrop', if_true]
  have hyaw : y.awake = true := hy ▸ motFlag_awake hxaw _ _ _
  obtain ⟨hmoved, haen, -, hmode⟩ := motEnable_stopped ((motEnd_moved y).awake hyaw)
  rw [heq]
  exact ⟨hmode rfl, (hmoved.on (by decide)).trans (((motEnd_moved y).on (by decide)).trans hlate),
    (hmoved.on (by decide)).trans (((motEnd_moved y).on (by decide)).trans hflag), haen⟩

section

variable (hr : s.ready d = true) (hc : s.fld fSACCLAIM_CLAIM = 0) (haw : s.awake = true) (hm : s.role = .cell ∨ s.role = .loop)
  (h0 : 0 < dsArgs d 8 4) (h24 : dsArgs d 8 4 < 2 ^ 24) (hs : MotStill s) (htok : s.tokensRefuse s.needNow = false)
  (hodr : s.fld fMOTCTL_ODR < 6) (hbig : s.motTooBig = false) (hmode : s.mot.mode = 0)
include hr hc haw hm h0 h24 hs htok hodr hbig hmode

/-- MOTION_CAPTURE without the gyroscope up to its writes. -/
theorem motionCapture_goes {b : Nat} (h6 : dsArg d 6 = b) (hb : b < 4) (hb0 : bitAt b 0 = false) : ∃ y,
    CaptureSet s (putFld (s.reg rMOTCTL) fMOTCTL_LATEDROP (b2n (bitAt b 1))) (dsArgs d 8 4) y ∧
    exec (.motionCapture d) s = .next (s.runDesc d s.motRole fun _ =>
      let u := (y.motArm (dsArgs d 0 6) false).motSet (fun m => { m with upload := false })
      if u.mot.mode = 0 && u.on fMOTTH_LATE then u.fail 0x4A else u.ok) := by
  obtain ⟨w, hw⟩ : ∃ w, w = putFld (s.reg rMOTCTL) fMOTCTL_LATEDROP (b2n (bitAt b 1)) := ⟨_, rfl⟩
  obtain ⟨ha0, hg0⟩ := enables_of_still hs
  have ht : dsArgs d 0 6 < 2 ^ 48 := dsArgs_lt d 0 6
  obtain ⟨y, hy, hgo⟩ := captureWrites (w := w) (n := dsArgs d 8 4) (time := dsArgs d 0 6) hc haw hs hmode
    (by rw [hw, fldOf_putFld_apart _ _ _ _ (by decide), ha0]) (by rw [hw, fldOf_putFld_apart _ _ _ _ (by decide), hg0])
    (by rw [hw, fldOf_putFld_apart _ _ _ _ (by decide)]; rfl) h0 h24 ht
  refine ⟨y, hw ▸ hy, congrArg Host.Outcome.next ?_⟩
  have hk : decide (5 < s.motK) = false := decide_eq_false (by rw [State.motK]; omega)
  have hok : ¬ (8 ≤ b ∨ dsArgs d 8 4 = 0 ∨ 2 ^ 24 ≤ dsArgs d 8 4) := by omega
  have hne : (s.mot.mode != 0) = false := by simp [hmode]
  have hb2 : bitAt b 2 = false := Nat.testBit_lt_two_pow hb
  have hact : ∀ (f g : State → DescRes), f s = g s → s.runDesc d s.motRole f = s.runDesc d s.motRole g := by
    intro f g hfg
    rw [motRole_of hm, State.runDesc_ready hr, State.runDesc_ready hr, hfg]
  refine hact _ _ ?_
  simp only [h6, hok, hb0, hb2, hbig, hne, hk, htok, Bool.and_false, Bool.false_and, Bool.false_eq_true, if_false, Nat.add_zero, ← hw, hgo]

theorem motionCapture_arms (h6 : dsArg d 6 = 0) (hp : past (dsArgs d 0 6) s.now = false) : ∃ t : State,
    exec (.motionCapture d) s = .next (t.complete d stOK 0 []) ∧ t.mot.mode = 2 ∧ t.mot.t = dsArgs d 0 6 ∧ t.mot.n = 0 ∧
      t.fld fMOTCAP_NCAP = dsArgs d 8 4 ∧ t.on fMOTSTAT_ARMED = true ∧ t.on fMOTCTL_AEN = true ∧ t.on fMOTTH_LATE = false ∧ s.besidesAll t := by
  obtain ⟨y, hy, hgo⟩ := motionCapture_goes hr hc haw hm h0 h24 hs htok hodr hbig hmode h6 (by decide) (by decide)
  have ht : dsArgs d 0 6 < 2 ^ 48 := dsArgs_lt d 0 6
  obtain ⟨z, harm, hyz, hzm, hzt, hzn, hzarmed, hzaen, hzlate⟩ := motArm_starts (hy.moved.awake haw) hy.still (by rw [hy.odr]; exact hodr) ht
  have hup : Moved armFields z (z.motSet (fun m => { m with upload := false })) := (Moved.refl _ z).motSet _
  rw [hy.moved.now, hp, if_neg Bool.false_ne_true] at harm
  refine ⟨z.motSet (fun m => { m with upload := false }), hgo.trans (congrArg Host.Outcome.next (motion_done hr hm ?_)), hzm, hzt, hzn, ?_, hzarmed,
    hzaen, hzlate, ?_⟩
  · have hne : ¬ ((z.motSet (fun m => { m with upload := false })).mot.mode = 0) := by
      rw [State.motSet_mot]
      exact ne_of_eq_of_ne hzm (by decide)
    simp only [harm, hne, decide_false, Bool.false_and, Bool.false_eq_true, if_false]
    rfl
  · rw [State.motSet_fld, hyz.kept _ (by decide), hy.ncap]
  · exact State.besidesAll_trans hy.moved.besidesAll (State.besidesAll_trans hyz.besidesAll hup.besidesAll)

theorem motionCapture_drops (h6 : dsArg d 6 = 2) (hp : past (dsArgs d 0 6) s.now = true) : ∃ t : State,
    exec (.motionCapture d) s = .next (t.complete d 0x4A 0 []) ∧ t.mot.mode = 0 ∧ t.on fMOTTH_LATE = true ∧ t.on fMOTFLAG_LATE = true ∧
      t.on fMOTCTL_AEN = false := by
  obtain ⟨y, hy, hgo⟩ := motionCapture_goes hr hc haw hm h0 h24 hs htok hodr hbig hmode h6 (by decide) (by decide)
  have ht : dsArgs d 0 6 < 2 ^ 48 := dsArgs_lt d 0 6
  obtain ⟨z, harm, hyz, -⟩ := motArm_starts (hy.moved.awake haw) hy.still (by rw [hy.odr]; exact hodr) ht
  rw [hy.moved.now, hp, if_pos rfl] at harm
  have hdrop : z.on fMOTCTL_LATEDROP = true := by
    have hone : bitAt 2 1 = true := by decide
    rw [hyz.on (by decide), State.on, hy.drop, hone, fldOf_putFld _ _ _ (by decide)]
    rfl
  obtain ⟨hmode0, hlate, hflag, haen⟩ := motLate_drops (hyz.awake (hy.moved.awake haw)) hdrop
  refine ⟨z.motLate.motSet (fun m => { m with upload := false }), hgo.trans (congrArg Host.Outcome.next (motion_done hr hm ?_)), hmode0, hlate, hflag,
    haen⟩
  simp only [harm, State.motSet_mot, State.motSet_on, hmode0, hlate, decide_true, Bool.and_self, if_true]
  rfl

end

end Sys2Proof.Proofs
end

section
/-! PROOF. The strobe: what feeding the recognisers and storing records leave alone, and one grid instant (R463 to R468). -/

namespace Sys2Proof.Proofs

open Sys2Proof Sys2Proof.Machine

variable {s t u : State} {k n : Nat}

/-! ### The recognisers -/

/-- The fields that samples change through the recognisers and engines. -/
def feltFields : List Fld := touchEventFields ++ [fSTEPCNT_COUNT]

/-- What the recognisers do with a sample leaves motion alone. -/
structure Felt (s t : State) : Prop where
  within : Within feltFields s t
  mot : t.mot = s.mot

namespace Felt

theorem refl (s : State) : Felt s s := ⟨.refl _ s, rfl⟩

theorem trans (h : Felt s t) (k : Felt t u) : Felt s u := ⟨h.within.trans k.within, k.mot.trans h.mot⟩

theorem rgSet (h : Felt s t) (f : Ringers → Ringers) : Felt s (t.rgSet f) := ⟨h.within.rgSet f, h.mot⟩

theorem ite {c : Prop} [Decidable c] (h : Felt s t) (k : Felt s u) : Felt s (if c then t else u) := by
  split
  · exact h
  · exact k

theorem fst {b : Bool} (h : Felt s t) : Felt s (t, b).1 := h

/-- A step of a recogniser that may raise its event. -/
theorem iteFst {c : Prop} [Decidable c] {x y : State × Bool} (h : Felt s x.1) (k : Felt s y.1) : Felt s (if c then x else y).1 := by
  split
  · exact h
  · exact k

end Felt

theorem evPush_felt (s : State) (src unit code data : Nat) : Felt s (s.evPush src unit code data) := by
  refine ⟨(evPush_within s src unit code data).mono fun f hf => by simp [feltFields, touchEventFields, hf], ?_⟩
  unfold State.evPush
  dsimp only
  split <;> rfl

theorem recogEvent_felt (s : State) (k data : Nat) : Felt s (s.recogEvent k data) := (evPush_felt s 0 k k data).rgSet _

theorem ringTrig_mot (s : State) (k trigs : Nat) : (s.ringTrig k trigs).mot = s.mot := by
  unfold State.ringTrig
  dsimp only
  split
  · rfl
  · split <;> split <;> rfl

theorem ringTrigAll_felt (s : State) (trigs : Nat) : Felt s (s.ringTrigAll trigs) := by
  refine ⟨(ringTrigAll_spec s trigs).1.mono fun f hf => by simp [feltFields, hf], ?_⟩
  unfold State.ringTrigAll
  split
  · rfl
  · exact List.foldlRecOn (motive := fun t : State => t.mot = s.mot) _ _ rfl fun t ht k _ => (ringTrig_mot t k trigs).trans ht

theorem stepSample_felt (s : State) (k afs : Nat) : Felt s (s.stepSample k afs).1 := by
  unfold State.stepSample
  dsimp only
  refine .iteFst (.refl s) (.iteFst (.refl s) (.iteFst (.fst ((Felt.refl s).rgSet _)) (.iteFst (.fst ?_) (.fst ?_))))
  · refine Felt.trans ?_ (recogEvent_felt _ 2 _)
    exact Felt.rgSet ⟨((((Within.refl feltFields s).rgSet _).rgSet _).setFld (by simp [feltFields]) _), rfl⟩ _
  · exact ⟨((((Within.refl feltFields s).rgSet _).rgSet _).setFld (by simp [feltFields]) _), rfl⟩

theorem fallSample_felt (s : State) (k afs : Nat) (x y z : Int) : Felt s (s.fallSample k afs x y z).1 := by
  unfold State.fallSample
  dsimp only
  exact .iteFst (.refl s) (.iteFst (.fst ((Felt.refl s).rgSet _)) (.iteFst (.fst ((((Felt.refl s).rgSet _).rgSet _).trans (recogEvent_felt _ _ _)))
    (.fst ((Felt.refl s).rgSet _))))

theorem settleSample_felt (s : State) (k afs : Nat) (x y z : Int) : Felt s (s.settleSample k afs x y z).1 := by
  unfold State.settleSample
  dsimp only
  exact .iteFst (.refl s) (.iteFst (.refl s) (.iteFst (.fst ((Felt.refl s).rgSet _)) (.iteFst (.refl s)
    (.iteFst (.fst (((Felt.refl s).rgSet _).trans (recogEvent_felt _ _ _))) (.fst ((Felt.refl s).rgSet _))))))

theorem tiltSample_felt (s : State) (k afs : Nat) (x y z : Int) : Felt s (s.tiltSample k afs x y z).1 := by
  unfold State.tiltSample
  dsimp only
  exact .iteFst (.refl s) (.iteFst (.fst ((((Felt.refl s).rgSet _).rgSet _).trans (recogEvent_felt _ _ _))) (.fst ((Felt.refl s).rgSet _)))

theorem accSample_felt (s : State) (x y z : Int) (bad : Bool) : Felt s (s.accSample x y z bad) := by
  unfold State.accSample
  split
  · exact (Felt.refl s).rgSet _
  · split
    · exact .refl s
    · exact (((((Felt.refl s).rgSet _).trans (stepSample_felt _ _ _)).trans (fallSample_felt _ _ _ _ _ _)).trans
        (settleSample_felt _ _ _ _ _ _)).trans ((tiltSample_felt _ _ _ _ _ _).trans (ringTrigAll_felt _ _))

/-! ### Records -/

/-- The fields that storing a record changes. -/
def recFields : List Fld := [fSBWWP_WP 0, fSBWDROP_DROPPED 0, fDROP 0] ++ fillFields 0

/-- Storing records leaves the grid, the samples taken and the rest of the part alone. -/
structure Recording (s t : State) : Prop where
  kept : ∀ g, recFields.all (fun f => f.other g) = true → t.fld g = s.fld g
  n : t.mot.n = s.mot.n
  recorded : t.mot.recorded = s.mot.recorded
  setA : t.mot.setA = s.mot.setA
  lastA : t.mot.lastA = s.mot.lastA
  besides : s.besides t

namespace Recording

theorem refl (s : State) : Recording s s := ⟨fun _ _ => rfl, rfl, rfl, rfl, rfl, s.besides_refl⟩

theorem trans (h : Recording s t) (k : Recording t u) : Recording s u :=
  ⟨fun g hg => (k.kept g hg).trans (h.kept g hg), k.n.trans h.n, k.recorded.trans h.recorded, k.setA.trans h.setA, k.lastA.trans h.lastA,
    State.besides_trans h.besides k.besides⟩

theorem on (h : Recording s t) {g : Fld} (hg : recFields.all (fun f => f.other g) = true) : t.on g = s.on g := on_of_fld (h.kept g hg)

theorem ite {c : Prop} [Decidable c] (h : Recording s t) (k : Recording s u) : Recording s (if c then t else u) := by
  split
  · exact h
  · exact k

theorem ofWrites (h : Writes recFields s t) : Recording s t := by
  have hm : t.mot = s.mot := by rw [h.regs]
  exact ⟨h.kept, by rw [hm], by rw [hm], by rw [hm], by rw [hm], h.besidesAll.1⟩

/-- A part of motion's own state that the grid does not rest on. -/
theorem motSet (h : Recording s t) {f : Motion → Motion} (hn : (f t.mot).n = t.mot.n) (hr : (f t.mot).recorded = t.mot.recorded)
    (ha : (f t.mot).setA = t.mot.setA) (hl : (f t.mot).lastA = t.mot.lastA) : Recording s (t.motSet f) :=
  h.trans ⟨fun _ _ => rfl, hn, hr, ha, hl, ⟨rfl, rfl, rfl, rfl, rfl, rfl⟩⟩

theorem posted (h : Recording s t) (k : Posted t u) : Recording s u := by
  have hm : u.mot = t.mot := k.mot
  exact h.trans ⟨fun g _ => k.fld g, by rw [hm], by rw [hm], by rw [hm], by rw [hm], k.besides⟩

end Recording

theorem winSync_recording (s : State) : Recording s (s.winSync 0) := .ofWrites ((winSync_writes s 0).mono fun f hf => by simp [recFields, hf])

theorem winStore_recording (s : State) (w tag : Nat) : Recording s (s.winStore 0 w tag) :=
  ⟨fun g hg => State.fld_setFld_other _ _ g _ (List.all_eq_true.mp hg _ (by simp [recFields])), rfl, rfl, rfl, rfl, ⟨rfl, rfl, rfl, rfl, rfl, rfl⟩⟩

theorem setField_recording (s : State) {f : Fld} (hf : f ∈ recFields) (n : Nat) : Recording s (s.setFld f n) :=
  .ofWrites ((Writes.refl recFields s).setFld hf n)

theorem winMarker_recording (s : State) (k : Nat) : Recording s (s.winMarker 0 k) :=
  (winStore_recording s _ _).trans (setField_recording _ (by simp [recFields]) _)

theorem winDrop_recording (s : State) (k : Nat) : Recording s (s.winDrop 0 k) := by
  have hgap : Recording s (if s.fld (fSBWDROP_DROPPED 0) = 0 then
      { s with mem := { s.mem with gapFirst := s.mem.gapFirst.set 0 (s.now % 2 ^ 16) } } else s) :=
    .ite ⟨fun _ _ => rfl, rfl, rfl, rfl, rfl, ⟨rfl, rfl, rfl, rfl, rfl, rfl⟩⟩ (.refl s)
  unfold State.winDrop
  exact .ite (.refl s) ((hgap.trans (setField_recording _ (by simp [recFields]) _)).trans (setField_recording _ (by simp [recFields]) _))

theorem motStore_recording (s : State) (r : Nat × Nat) : Recording s (s.motStore r) := by
  unfold State.motStore
  dsimp only
  refine .ite ((winDrop_recording s 2).motSet rfl rfl rfl rfl) ?_
  exact (((Recording.ite (winMarker_recording s 0) (.refl s)).trans (winStore_recording _ _ _)).trans (winStore_recording _ _ _)).trans
    (winSync_recording _)

theorem motDrain_recording (s : State) : Recording s s.motDrain := by
  unfold State.motDrain
  refine .ite (.refl s) ?_
  exact List.foldlRecOn (motive := fun t : State => Recording s t) _ _ ((Recording.refl s).motSet rfl rfl rfl rfl)
    fun t ht r _ => ht.trans (motStore_recording t r)

theorem motPut_recording (s : State) (r : Nat × Nat) : Recording s (s.motPut r) := by
  have hd := motDrain_recording s
  unfold State.motPut
  exact .ite (.ite (hd.motSet rfl rfl rfl rfl) ((hd.trans (winDrop_recording _ 2)).motSet rfl rfl rfl rfl)) (hd.trans (motStore_recording _ r))

theorem motTime_recording (s : State) (n : Nat) : Recording s (s.motTime n) := by
  unfold State.motTime
  exact .ite (((Recording.refl s).motSet rfl rfl rfl rfl).trans (motPut_recording _ _)) (.refl s)

theorem motUpload_recording (n : Nat) (all : Bool) (s : State) : Recording s (State.motUpload n all s) := by
  induction n generalizing s with
  | zero => exact .refl s
  | succ n ih =>
    unfold State.motUpload
    refine .ite (.refl s) ?_
    exact (((Recording.refl s).posted (queueUp_posted s _ _ _)).motSet rfl rfl rfl rfl).trans (ih _)

theorem motSend_recording (s : State) (all : Bool) : Recording s (s.motSend all) := motUpload_recording _ _ s

end Sys2Proof.Proofs
end

section
/-! PROOF. Motion's events: starts, strobes, captures and their ends (R463 to R472, R477). -/

namespace Sys2Proof.Proofs

open Sys2Proof Sys2Proof.Machine

variable {s t u : State} {v : Word} {x : StrobeIn} {n : Nat}

/-! ### Starts -/

theorem specOf_motgo : specOf rMOTGO = some ⟨0x40014010, 1, 0, 0, 0, 0, 1, 0, 0, 0⟩ := by decide +kernel

theorem motgo_starts (ha : s.on fMOTCTL_AEN = true) (hmode : s.mot.mode = 0) (hn : s.fld fMOTCAP_NCAP = 0) (hv : v.toNat % 2 = 1) :
    ∃ t, exec (.motgo .sacristy v) s = .next t ∧ t.mot.mode = 1 ∧ t.mot.t = s.now ∧ t.mot.n = 0 ∧ t.fld fMOTMISS_MISSED = 0 ∧ s.besidesAll t := by
  have hgo : fldOf v fMOTGO_GO = 1 := (fldOf_eq_div v _).trans ((congrArg (· % 2) (Nat.div_one _)).trans hv)
  refine ⟨s.motAnchor 1 s.now s.clk.frac 0, congrArg Host.Outcome.next ?_, rfl, rfl, rfl, motAnchor_missed _ _ _ _ _, (motAnchor_moved _ _ _ _ _).besidesAll⟩
  rw [vet_sacristy s v specOf_motgo, motgo_written hgo, motGo_anchors hmode hn ha]

theorem motgo_nothing (hv : v.toNat % 2 = 0) : exec (.motgo .sacristy v) s = .next s := by
  have hgo : fldOf v fMOTGO_GO = 0 := (fldOf_eq_div v _).trans ((congrArg (· % 2) (Nat.div_one _)).trans hv)
  refine congrArg Host.Outcome.next ?_
  rw [vet_sacristy s v specOf_motgo, State.motWrite, if_neg (by decide), if_pos rfl, if_neg (by rw [hgo]; decide)]

theorem motionArm_arms (haw : s.awake = true) (ha : s.on fMOTCTL_AEN = true) (hg : s.on fMOTCTL_GEN = false) (hmode : s.mot.mode = 0)
    (hn : 0 < s.fld fMOTCAP_NCAP) (hv : v.toNat / 2 ^ 16 % 2 = 1)
    (hp : past (s.fld fMOTTL_TIME + v.toNat % 2 ^ 16 * 2 ^ 32) s.now = false) : ∃ t, exec (.motionArm .sacristy v) s = .next t ∧
      t.mot.mode = 2 ∧ t.mot.t = s.fld fMOTTL_TIME + v.toNat % 2 ^ 16 * 2 ^ 32 ∧ t.on fMOTSTAT_ARMED = true ∧ t.on fMOTTH_ARM = true ∧
        s.besidesAll t := by
  have htl : s.fld fMOTTL_TIME < 2 ^ 32 := fldOf_lt _ fMOTTL_TIME
  have hth : v.toNat % 2 ^ 16 < 2 ^ 16 := Nat.mod_lt _ (by decide)
  have hgo : exec (.motionArm .sacristy v) s = .next ((s.plainWrite rMOTTH v).motArm (s.fld fMOTTL_TIME + v.toNat % 2 ^ 16 * 2 ^ 32) false) := by
    refine congrArg Host.Outcome.next ?_
    rw [vet_sacristy s v specOf_motth, motth_arms hv hmode (by omega)]
  have hlt : s.fld fMOTTL_TIME + v.toNat % 2 ^ 16 * 2 ^ 32 < 2 ^ 48 := by omega
  generalize s.fld fMOTTL_TIME + v.toNat % 2 ^ 16 * 2 ^ 32 = time at hp hgo hlt ⊢
  have hy : Moved [wholeReg rMOTTH] s (s.plainWrite rMOTTH v) := .ofWrites (plainWrite_writes s v (by simp))
  have hlate : Moved [wholeReg rMOTTH, fMOTTH_LATE] s ((s.plainWrite rMOTTH v).setFld fMOTTH_LATE 0) :=
    (hy.mono (by simp)).setFld (by simp) 0
  obtain ⟨w, hw⟩ : ∃ w, w = (s.plainWrite rMOTTH v).setFld fMOTTH_LATE 0 := ⟨_, rfl⟩
  rw [← hw] at hlate
  have hkeep : w.motEnable true false = w.motWatch.retoken := motEnable_keeps ((hlate.on (by decide)).trans hg) ((hlate.on (by decide)).trans ha)
  have htail := motTail_moved (hlate.awake haw)
  obtain ⟨hz, hzm, hzt, -, hzarmed, hzarm⟩ := armedAt_spec w.motWatch.retoken time
  rw [Nat.mod_eq_of_lt hlt] at hzt
  have hnow : (armedAt w.motWatch.retoken time).now = s.now := by rw [hz.now, htail.now, hlate.now]
  refine ⟨armedAt w.motWatch.retoken time, hgo.trans (congrArg Host.Outcome.next ?_), hzm, hzt, hzarmed, hzarm, ?_⟩
  · rw [motArm_armed ((hy.on (by decide)).trans hg) (hkeep.symm.trans (by rw [hw])) ((htail.on (by decide)).trans ((hlate.on (by decide)).trans ha)), hzt,
      hnow, hp, if_neg Bool.false_ne_true]
  · exact State.besidesAll_trans hlate.besidesAll (State.besidesAll_trans htail.besidesAll hz.besidesAll)

theorem motionArm_disarms (hmode : s.mot.mode = 2) (hv : v.toNat / 2 ^ 16 % 2 = 0) : ∃ t, exec (.motionArm .sacristy v) s = .next t ∧
    t.mot.mode = 0 ∧ t.on fMOTSTAT_ARMED = false ∧ s.besidesAll t := by
  have harm : fldOf v fMOTTH_ARM = 0 := (fldOf_eq_div v _).trans hv
  have hm : (s.plainWrite rMOTTH v).mot.mode = 2 := by rw [plainWrite_mot, hmode]
  refine ⟨(s.plainWrite rMOTTH v).motEnd, congrArg Host.Outcome.next ?_, rfl, ?_, ?_⟩
  · rw [vet_sacristy s v specOf_motth, State.motWrite, if_neg (by decide), if_neg (by decide), if_pos rfl]
    simp only [harm, hm, if_true]
  · rw [State.motEnd, State.motSet_on, State.sets_cons, State.sets_cons, State.sets_cons, State.sets_nil, on_setFld_other _ _ _ _ (by decide),
      on_setFld_other _ _ _ _ (by decide), on_setFld_zero _ _ (by decide) (by decide)]
  · exact State.besidesAll_trans (plainWrite_besidesAll s _ v) (motEnd_moved _).besidesAll

/-! ### Strobes -/

theorem run_of_awake (h : s.awake = true) : s.slp.st = .run := by
  simp only [State.awake, Bool.and_eq_true, decide_eq_true_eq] at h
  exact h.1

theorem blockOn_motion (hr : s.role = .cell) : s.blockOn 20 = true := by
  simp only [State.blockOn, blockCap, State.has, hr]
  decide

/-- A strobe of a stream, the part awake. -/
theorem motionStrobe_goes (haw : s.awake = true) (hr : s.role = .cell) (hmode : s.mot.mode = 1) (x : StrobeIn) : exec (.motionStrobe x) s = .next
    (if !reached (s.motInstant s.mot.n).1 s.now then s
    else if s.inSlice 50 53 then (s.motMiss 1).motSet (fun m => { m with timeOwed := true, n := m.n + 1 })
    else s.motInstantRun x) := by
  refine congrArg Host.Outcome.next ?_
  simp [run_of_awake haw, blockOn_motion hr, hmode]

theorem motionStrobe_early (haw : s.awake = true) (hr : s.role = .cell) (hmode : s.mot.mode = 1)
    (h : reached (s.motInstant s.mot.n).1 s.now = false) : exec (.motionStrobe x) s = .next s := by
  rw [motionStrobe_goes haw hr hmode, h]
  rfl

theorem motMiss_one (s : State) : s.motMiss 1 = s.setFld fMOTMISS_MISSED (satAdd 0xFFFF (s.fld fMOTMISS_MISSED) 1) := rfl

theorem satAdd_lt (c k : Nat) : satAdd 0xFFFF c k < 2 ^ 16 := by
  unfold satAdd
  split <;> omega

theorem missed_counted (s : State) : (s.motMiss 1).fld fMOTMISS_MISSED = satAdd 0xFFFF (s.fld fMOTMISS_MISSED) 1 := by
  rw [motMiss_one, State.fld_setFld _ _ _ (by decide)]
  exact Nat.mod_eq_of_lt (satAdd_lt _ _)

theorem motionStrobe_slice (haw : s.awake = true) (hr : s.role = .cell) (hmode : s.mot.mode = 1)
    (h : reached (s.motInstant s.mot.n).1 s.now = true) (hsl : s.inSlice 50 53 = true) : ∃ t, exec (.motionStrobe x) s = .next t ∧
      t.mot.n = s.mot.n + 1 ∧ t.mot.timeOwed = true ∧ t.fld fMOTMISS_MISSED = satAdd 0xFFFF (s.fld fMOTMISS_MISSED) 1 ∧ s.besidesAll t := by
  refine ⟨(s.motMiss 1).motSet (fun m => { m with timeOwed := true, n := m.n + 1 }), ?_, rfl, rfl, missed_counted s, ?_⟩
  · rw [motionStrobe_goes haw hr hmode, h, hsl]
    rfl
  · exact ((((Moved.refl [fMOTMISS_MISSED] s).setFld (by simp) _).motSet _).besidesAll : s.besidesAll ((s.motMiss 1).motSet _))

/-! ### One grid instant -/

theorem motAccel_clean (hl : s.mot.lastA = []) (hH : s.fld fMOTCTL_HPK = 0) (hL : s.fld fMOTCTL_LPK = 0) (hsat : axisSat x.acc = false) (n : Nat) :
    s.motAccel n x = ((((s.motSet (fun m => { m with lastA := [x.acc.1, x.acc.2.1, x.acc.2.2], runA := [1, 1, 1] })).setFld (fMOTLASTA_WORD 0)
      (sampleRecord 1 n x.acc false false).1).setFld (fMOTLASTA_WORD 1) (sampleRecord 1 n x.acc false false).2).motPut
        (sampleRecord 1 n x.acc false false), false) := by
  have hruns : stuckRuns s.mot.lastA s.mot.runA [x.acc.1, x.acc.2.1, x.acc.2.2] = [1, 1, 1] := by
    have hrange : List.range 3 = [0, 1, 2] := rfl
    simp [hl, stuckRuns, hrange]
  have hany : [1, 1, 1].any (fun r => decide (1024 ≤ r)) = false := by decide
  simp only [State.motAccel, hruns, hany, Bool.and_false, State.motSet_fld, hH, hL, and_self, if_true, hsat, Bool.false_eq_true, if_false, Bool.or_self]
  rfl

theorem wrapInt_lt (w : Nat) (i : Int) : wrapInt w i < 2 ^ w := by
  have hpos : (0 : Int) < ((2 ^ w : Nat) : Int) := by exact_mod_cast Nat.two_pow_pos w
  have hlt := Int.emod_lt_of_pos i hpos
  have hge := Int.emod_nonneg i (Int.ne_of_gt hpos)
  rw [wrapInt]
  omega

theorem sampleRecord_lt (n : Nat) (a : Int × Int × Int) : (sampleRecord 1 n a false false).1 < 2 ^ 32 ∧ (sampleRecord 1 n a false false).2 < 2 ^ 32 := by
  have h (i : Int) : wrapInt 16 (clampInt (-32768) 32767 i) < 2 ^ 16 := wrapInt_lt 16 _
  have hx := h a.1
  have hy := h a.2.1
  have hz := h a.2.2
  simp only [sampleRecord, b2n, Bool.false_eq_true, if_false]
  omega

/-- What every instant brings up to date before its samples. -/
theorem instantStart_moved (hg : s.on fMOTCTL_GEN = false) (x : StrobeIn) : ∃ u, Moved [fMOTFLAG_TIMING, fMOTSTAT_SPIRE] s u ∧
    u.mot.n = s.mot.n ∧ u.mot.recorded = s.mot.recorded ∧ u.mot.setA = s.mot.setA ∧ u.mot.lastA = s.mot.lastA ∧
    (s.on fMOTCTL_AEN = true → s.mot.setA = true → x.accBad = false → s.motInstantRun x =
      (let r := (u.motTime s.mot.n).motAccel s.mot.n x
      let t := (r.1.motSet (fun m => { m with n := s.mot.n + 1, recorded := m.recorded + 1, tmoA := 0, tmoG := m.tmoG })).motSend false
      if t.mot.setA then t.accSample x.acc.1 x.acc.2.1 x.acc.2.2 r.2 else t)) := by
  obtain ⟨p, hp⟩ : ∃ p, p = if s.mot.spire = s.on fCLKSTAT_PLLLOCK then s
      else (s.sets [(fMOTFLAG_TIMING, 1), (fMOTSTAT_SPIRE, b2n (s.on fCLKSTAT_PLLLOCK))]).motSet (fun m => { m with
        spire := s.on fCLKSTAT_PLLLOCK, timeOwed := true }) := ⟨_, rfl⟩
  have hpin : Moved [fMOTFLAG_TIMING, fMOTSTAT_SPIRE] s p := hp ▸ .ite (.refl _ s) (((Moved.refl _ s).sets _ (by simp)).motSet _)
  have hpm : p.mot.n = s.mot.n ∧ p.mot.recorded = s.mot.recorded ∧ p.mot.setA = s.mot.setA ∧ p.mot.lastA = s.mot.lastA := by
    rw [hp]
    split <;> exact ⟨rfl, rfl, rfl, rfl⟩
  obtain ⟨u, hu⟩ : ∃ u, u = if s.mot.n % 1024 = 0 then p.motSet (fun m => { m with hot := x.hot }) else p := ⟨_, rfl⟩
  have huin : Moved [fMOTFLAG_TIMING, fMOTSTAT_SPIRE] p u := hu ▸ .ite ((Moved.refl _ p).motSet _) (.refl _ p)
  have hum : u.mot.n = p.mot.n ∧ u.mot.recorded = p.mot.recorded ∧ u.mot.setA = p.mot.setA ∧ u.mot.lastA = p.mot.lastA := by
    rw [hu]
    split <;> exact ⟨rfl, rfl, rfl, rfl⟩
  obtain ⟨pn, pr, ps, pl⟩ := hpm
  obtain ⟨un, ur, us, ul⟩ := hum
  have hall := hpin.trans huin
  refine ⟨u, hall, un.trans pn, ur.trans pr, us.trans ps, ul.trans pl, fun haen hset hbad => ?_⟩
  have huA : u.on fMOTCTL_AEN = true := (hall.on (by decide)).trans haen
  have huG : u.on fMOTCTL_GEN = false := (hall.on (by decide)).trans hg
  have huS : u.mot.setA = true := (us.trans ps).trans hset
  unfold State.motInstantRun
  simp only [← hp, ← hu, huA, huG, huS, hbad, Bool.and_false, Bool.false_and, Bool.true_and, Bool.not_true, Bool.not_false, Bool.or_self, Bool.or_false,
    Bool.false_eq_true, if_false, if_true]
  rfl

theorem motionStrobe_records (haw : s.awake = true) (hr : s.role = .cell) (hmode : s.mot.mode = 1) (ha : s.on fMOTCTL_AEN = true)
    (hg : s.on fMOTCTL_GEN = false) (hset : s.mot.setA = true) (hbad : x.accBad = false) (hsat : axisSat x.acc = false)
    (hH : s.fld fMOTCTL_HPK = 0) (hL : s.fld fMOTCTL_LPK = 0) (hl : s.mot.lastA = []) (h : reached (s.motInstant s.mot.n).1 s.now = true)
    (hsl : s.inSlice 50 53 = false) : ∃ t, exec (.motionStrobe x) s = .next t ∧
      t.mot.n = s.mot.n + 1 ∧ t.fld (fMOTLASTA_WORD 0) = (sampleRecord 1 s.mot.n x.acc false false).1 ∧
      t.fld (fMOTLASTA_WORD 1) = (sampleRecord 1 s.mot.n x.acc false false).2 ∧ t.mot.recorded = s.mot.recorded + 1 ∧
      t.fld fMOTMISS_MISSED = s.fld fMOTMISS_MISSED ∧ s.besides t := by
  obtain ⟨u, hu, -, hur, hus, hul, hrun⟩ := instantStart_moved hg x
  obtain ⟨p, hp⟩ : ∃ p, p = u.motTime s.mot.n := ⟨_, rfl⟩
  have hup : Recording u p := hp ▸ motTime_recording u _
  obtain ⟨h1, h2⟩ := sampleRecord_lt s.mot.n x.acc
  have hclean := motAccel_clean (s := p) (x := x) (hup.lastA.trans (hul.trans hl))
    (by rw [hup.kept _ (by decide), hu.kept _ (by decide), hH]) (by rw [hup.kept _ (by decide), hu.kept _ (by decide), hL]) hsat s.mot.n
  generalize sampleRecord 1 s.mot.n x.acc false false = r at h1 h2 hclean ⊢
  obtain ⟨q, hq⟩ : ∃ q, q = p.motSet (fun m => { m with lastA := [x.acc.1, x.acc.2.1, x.acc.2.2], runA := [1, 1, 1] }) := ⟨_, rfl⟩
  have hqin : Moved [] p q := hq ▸ (Moved.refl _ p).motSet _
  have hqm : q.mot.recorded = p.mot.recorded ∧ q.mot.setA = p.mot.setA := by rw [hq]; exact ⟨rfl, rfl⟩
  rw [← hq] at hclean
  obtain ⟨w, hw⟩ : ∃ w, w = (q.setFld (fMOTLASTA_WORD 0) r.1).setFld (fMOTLASTA_WORD 1) r.2 := ⟨_, rfl⟩
  have hwin : Moved [fMOTLASTA_WORD 0, fMOTLASTA_WORD 1] q w := hw ▸ ((Moved.refl _ q).setFld (by simp) _).setFld (by simp) _
  have hwm : w.mot = q.mot := by rw [hw]; rfl
  have hw0 : w.fld (fMOTLASTA_WORD 0) = r.1 := by
    rw [hw, State.fld_setFld_other _ _ _ _ (by decide), State.fld_setFld _ _ _ (by decide)]
    exact Nat.mod_eq_of_lt h1
  have hw1 : w.fld (fMOTLASTA_WORD 1) = r.2 := by
    rw [hw, State.fld_setFld _ _ _ (by decide)]
    exact Nat.mod_eq_of_lt h2
  rw [← hw] at hclean
  have hput := motPut_recording w r
  obtain ⟨y, hy⟩ : ∃ y, y = (w.motPut r).motSet (fun m => { m with n := s.mot.n + 1, recorded := m.recorded + 1, tmoA := 0, tmoG := m.tmoG }) :=
    ⟨_, rfl⟩
  have hyin : Moved [] (w.motPut r) y := hy ▸ (Moved.refl _ _).motSet _
  have hym : y.mot.n = s.mot.n + 1 ∧ y.mot.recorded = (w.motPut r).mot.recorded + 1 ∧ y.mot.setA = (w.motPut r).mot.setA := by
    rw [hy]
    exact ⟨rfl, rfl, rfl⟩
  obtain ⟨yn, yr, ys⟩ := hym
  have hsend := motSend_recording y false
  have hsetA : (y.motSend false).mot.setA = true := by
    rw [hsend.setA, ys, hput.setA, hwm, hqm.2, hup.setA, hus, hset]
  have hfelt := accSample_felt (y.motSend false) x.acc.1 x.acc.2.1 x.acc.2.2 false
  refine ⟨(y.motSend false).accSample x.acc.1 x.acc.2.1 x.acc.2.2 false, ?_, ?_, ?_, ?_, ?_, ?_, ?_⟩
  · rw [motionStrobe_goes haw hr hmode, h, hsl, hrun ha hset hbad, ← hp, hclean]
    simp only [← hy, hsetA, Bool.not_true, Bool.false_eq_true, if_false, if_true]
  · rw [hfelt.mot, hsend.n, yn]
  · rw [hfelt.within.kept _ (by decide), hsend.kept _ (by decide), hyin.kept _ (by decide), hput.kept _ (by decide), hw0]
  · rw [hfelt.within.kept _ (by decide), hsend.kept _ (by decide), hyin.kept _ (by decide), hput.kept _ (by decide), hw1]
  · rw [hfelt.mot, hsend.recorded, yr, hput.recorded, hwm, hqm.1, hup.recorded, hur]
  · rw [hfelt.within.kept _ (by decide), hsend.kept _ (by decide), hyin.kept _ (by decide), hput.kept _ (by decide), hwin.kept _ (by decide),
      hqin.kept _ (by decide), hup.kept _ (by decide), hu.kept _ (by decide)]
  · exact State.besides_trans hu.besidesAll.1 (State.besides_trans hup.besides (State.besides_trans hqin.besidesAll.1 (State.besides_trans
      hwin.besidesAll.1 (State.besides_trans hput.besides (State.besides_trans hyin.besidesAll.1 (State.besides_trans hsend.besides
        hfelt.within.besidesAll.1))))))

end Sys2Proof.Proofs
end

section
/-! PROOF. The ends of captures, of the inclinometer and of the self-test, missed data and shocks (R468, R471, R477 to R479, R482). O45. -/

namespace Sys2Proof.Proofs

open Sys2Proof Sys2Proof.Machine

variable {s t u : State} {d : Desc} {a b c e : Int} {i j k : Nat}

/-! ### The end of a capture -/

theorem motUpload_none (n : Nat) (all : Bool) (h : s.mot.upload = false) : State.motUpload n all s = s := by
  cases n with
  | zero => rfl
  | succ n =>
    unfold State.motUpload
    simp [h]

theorem motDrain_empty (h : s.mot.fifo = []) : Moved [] s s.motDrain ∧ s.motDrain.mot.upload = s.mot.upload := by
  unfold State.motDrain
  split
  · exact ⟨.refl _ s, rfl⟩
  · simp only [h, List.foldl_nil]
    exact ⟨(Moved.refl _ s).motSet _, rfl⟩

theorem motCaptured_ends (haw : s.awake = true) (hfifo : s.mot.fifo = []) (hup : s.mot.upload = false) :
    s.motCaptured.mot.mode = 0 ∧ s.motCaptured.on fMOTCTL_AEN = false ∧ s.motCaptured.on fMOTCTL_GEN = false ∧
      s.motCaptured.on fMOTFLAG_CAPDONE = true ∧ s.besides s.motCaptured := by
  obtain ⟨hdrain, hdup⟩ := motDrain_empty hfifo
  have hsend : s.motDrain.motSend true = s.motDrain := motUpload_none _ _ (hdup.trans hup)
  obtain ⟨w, hw⟩ : ∃ w, w = s.motDrain.motEnd := ⟨_, rfl⟩
  have hwin : Moved motFields s w := (hdrain.mono (by simp)).trans (hw ▸ motEnd_moved _)
  have hw0 : w.mot.mode = 0 := by rw [hw]; rfl
  obtain ⟨hmoved, haen, hgen, hmode⟩ := motEnable_stopped (hwin.awake haw)
  obtain ⟨y, hy⟩ : ∃ y, y = (w.motEnable false false).setFld fMOTFLAG_CAPDONE 1 := ⟨_, rfl⟩
  have hyon : y.on fMOTFLAG_CAPDONE = true := hy ▸ on_setFld_one _ _ (by decide) (by decide)
  have hyin : Moved [fMOTFLAG_CAPDONE] (w.motEnable false false) y := hy ▸ (Moved.refl _ _).setFld (by simp) 1
  have hym : y.mot = (w.motEnable false false).mot := by rw [hy]; rfl
  have hpost : Posted y s.motCaptured := by
    unfold State.motCaptured
    simp only [hsend, ← hw, ← hy]
    exact .ite (event_posted _ _ _) (.refl _)
  refine ⟨?_, ?_, ?_, ?_, ?_⟩
  · rw [hpost.mot, hym, hmode hw0]
  · rw [hpost.on, hyin.on (by decide), haen]
  · rw [hpost.on, hyin.on (by decide), hgen]
  · rw [hpost.on, hyon]
  · exact State.besides_trans hwin.besidesAll.1 (State.besides_trans hmoved.besidesAll.1 (State.besides_trans hyin.besidesAll.1 hpost.besides))

theorem captureEnd_ends (haw : s.awake = true) (hmode : s.mot.mode = 3) (hn : s.mot.n = s.fld fMOTCAP_NCAP)
    (h : reached (s.motInstant s.mot.n).1 s.now = true) (hfifo : s.mot.fifo = []) (hup : s.mot.upload = false) : ∃ t, exec .captureEnd s = .next t ∧
      t.mot.mode = 0 ∧ t.on fMOTCTL_AEN = false ∧ t.on fMOTCTL_GEN = false ∧ t.on fMOTFLAG_CAPDONE = true ∧ s.besides t := by
  refine ⟨s.motCaptured, congrArg Host.Outcome.next ?_, motCaptured_ends haw hfifo hup⟩
  have hdue : (s.mot.mode = 2 ∨ s.mot.mode = 3) ∧ reached (s.motInstant (s.fld fMOTCAP_NCAP)).1 s.now = true := ⟨.inr hmode, hn ▸ h⟩
  have hnone : s.motMiss (s.fld fMOTCAP_NCAP - s.mot.n) = s := by
    rw [hn, Nat.sub_self]
    rfl
  rw [if_pos hdue, hnone]

theorem captureEnd_idle (hmode : s.mot.mode = 0) : exec .captureEnd s = .next s :=
  congrArg Host.Outcome.next (if_neg (by omega))

/-! ### Sensors that settle, and data that do not come -/

theorem sensorSettled_accel (h : s.on fMOTSTAT_ARUN = true) :
    exec (.sensorSettled false) s = .next { s with mot := { s.mot with setA := true } } := congrArg Host.Outcome.next (if_pos h)

theorem sensorSettled_gyro (h : s.on fMOTSTAT_GRUN = true) :
    exec (.sensorSettled true) s = .next { s with mot := { s.mot with setG := true } } := congrArg Host.Outcome.next (if_pos h)

theorem gyro_absent (h : s.on fMOTSTAT_GRUN = false) : exec (.sensorSettled true) s = .next s ∧ exec (.motionDataTimeout true) s = .next s := by
  refine ⟨congrArg Host.Outcome.next (if_neg (Bool.eq_false_iff.mp h)), congrArg Host.Outcome.next ?_⟩
  simp [h]

/-- A missed instant of the accelerometer. -/
def dataMissed (s : State) : State := ((s.motFault fMOTFLAG_TMO).motMiss 1).recogRestart.motSet (fun m => { m with
  n := m.n + 1, timeOwed := true, tmoA := m.tmoA + 1 })

theorem dataMissed_spec (s : State) : (dataMissed s).on fMOTFLAG_TMO = true ∧
    (dataMissed s).mot = { s.mot with n := s.mot.n + 1, timeOwed := true, tmoA := s.mot.tmoA + 1 } ∧
    (dataMissed s).fld fMOTMISS_MISSED = satAdd 0xFFFF (s.fld fMOTMISS_MISSED) 1 ∧ s.besides (dataMissed s) := by
  obtain ⟨w, hw⟩ : ∃ w, w = s.motFault fMOTFLAG_TMO := ⟨_, rfl⟩
  have hon : w.on fMOTFLAG_TMO = true := hw ▸ motFlag_on s (by decide) (by decide) _ _
  have hmiss : w.fld fMOTMISS_MISSED = s.fld fMOTMISS_MISSED := hw ▸ motFlag_fld s (by decide) _ _
  have hmot : w.mot = s.mot := hw ▸ motFlag_mot s _ _ _
  have hb : s.besides w := hw ▸ motFlag_besides s _ _ _
  have hrest : Moved [fMOTMISS_MISSED] (w.motMiss 1) (dataMissed s) := by
    rw [dataMissed, ← hw]
    exact ((Moved.refl _ _).rgSet _).motSet _
  have hcount : Moved [fMOTMISS_MISSED] w (w.motMiss 1) := (Moved.refl _ w).setFld (by simp) _
  have hall := hcount.trans hrest
  refine ⟨(hall.on (by decide)).trans hon, ?_, ?_, State.besides_trans hb hall.besidesAll.1⟩
  · rw [← hmot, dataMissed, ← hw]
    rfl
  · rw [← hmiss, dataMissed, ← hw]
    exact missed_counted w

theorem motionDataTimeout_goes (h : s.on fMOTSTAT_ARUN = true) (hset : s.mot.setA = true) (hmode : s.mot.mode = 1) :
    exec (.motionDataTimeout false) s = .next (if 8 ≤ (dataMissed s).mot.tmoA then
      (dataMissed s).motSet (fun m => { m with setA := false, tmoA := 0 }) else dataMissed s) := by
  refine congrArg Host.Outcome.next ?_
  simp only [h, hset, hmode, decide_true, Bool.true_or, Bool.and_self, Bool.false_eq_true, if_false, if_true]
  rfl

theorem motionDataTimeout_misses (h : s.on fMOTSTAT_ARUN = true) (hset : s.mot.setA = true) (hmode : s.mot.mode = 1) (ht : s.mot.tmoA < 7) :
    ∃ t, exec (.motionDataTimeout false) s = .next t ∧ t.on fMOTFLAG_TMO = true ∧ t.mot.n = s.mot.n + 1 ∧ t.mot.tmoA = s.mot.tmoA + 1 ∧
      t.mot.setA = true ∧ t.fld fMOTMISS_MISSED = satAdd 0xFFFF (s.fld fMOTMISS_MISSED) 1 ∧ s.besides t := by
  obtain ⟨hon, hmot, hmiss, hb⟩ := dataMissed_spec s
  refine ⟨dataMissed s, (motionDataTimeout_goes h hset hmode).trans (congrArg _ (if_neg ?_)), hon, ?_, ?_, ?_, hmiss, hb⟩
  · rw [hmot]
    exact Nat.not_le.mpr (Nat.succ_lt_succ ht)
  · rw [hmot]
  · rw [hmot]
  · rw [hmot]
    exact hset

theorem motionDataTimeout_restarts (h : s.on fMOTSTAT_ARUN = true) (hset : s.mot.setA = true) (hmode : s.mot.mode = 1) (ht : s.mot.tmoA = 7) :
    ∃ t, exec (.motionDataTimeout false) s = .next t ∧ t.mot.setA = false ∧ t.mot.tmoA = 0 ∧ s.besides t := by
  obtain ⟨-, hmot, -, hb⟩ := dataMissed_spec s
  refine ⟨(dataMissed s).motSet (fun m => { m with setA := false, tmoA := 0 }), (motionDataTimeout_goes h hset hmode).trans
    (congrArg _ (if_pos ?_)), rfl, rfl, State.besides_trans hb (((Moved.refl [] _).motSet _).besidesAll.1)⟩
  rw [hmot]
  exact Nat.le_of_eq (congrArg (· + 1) ht).symm

/-! ### The inclinometer -/

theorem openQuot_mul (x : Int) (n : Nat) (hn : 0 < n) : openQuot ((n : Int) * x) n = x := by
  have h0 : (n : Int) ≠ 0 := by exact_mod_cast hn.ne'
  rw [openQuot, if_pos (Int.mul_emod_right _ _), Int.mul_ediv_cancel_left _ h0]

theorem inclDone_means (hmode : s.mot.mode = 4) (hd : s.mot.desc = none) (hk : s.fld fMOTCTL_INCLK = 0) : ∃ t,
    exec (.inclDone (16 * a) (16 * b) (16 * c) e false) s = .next t ∧ t.fld (fMOTINC_MEAN 0) = wrapInt 32 (256 * a) ∧
      t.fld (fMOTINC_MEAN 1) = wrapInt 32 (256 * b) ∧ t.fld (fMOTINC_MEAN 2) = wrapInt 32 (256 * c) ∧ t.fld fMOTTEMP_TEMP = wrapInt 16 e ∧
      t.on fMOTFLAG_INCLDONE = true ∧ t.mot.mode = 0 ∧ s.besidesAll t := by
  have hmean (x : Int) : openQuot (16 * x * 256) (2 ^ (min 12 0 + 4)) = 256 * x := by
    have h16 : (16 * x * 256 : Int) = ((2 ^ (min 12 0 + 4) : Nat) : Int) * (256 * x) := by
      norm_num
      ring
    rw [h16, openQuot_mul _ _ (by decide)]
  obtain ⟨w, hw⟩ : ∃ w, w = s.motSet (fun m => { m with mode := 0, desc := none }) := ⟨_, rfl⟩
  obtain ⟨t, ht⟩ : ∃ t, t = ((((w.setFld (fMOTINC_MEAN 0) (wrapInt 32 (256 * a))).setFld (fMOTINC_MEAN 1) (wrapInt 32 (256 * b))).setFld
      (fMOTINC_MEAN 2) (wrapInt 32 (256 * c))).setFld fMOTTEMP_TEMP (wrapInt 16 e)).setFld fMOTFLAG_INCLDONE 1 := ⟨_, rfl⟩
  have hin : Moved [fMOTINC_MEAN 0, fMOTINC_MEAN 1, fMOTINC_MEAN 2, fMOTTEMP_TEMP, fMOTFLAG_INCLDONE] s t := by
    rw [ht, hw]
    exact ((((((Moved.refl _ s).motSet _).setFld (by simp) _).setFld (by simp) _).setFld (by simp) _).setFld (by simp) _).setFld (by simp) _
  refine ⟨t, congrArg Host.Outcome.next ?_, ?_, ?_, ?_, ?_, ?_, ?_, hin.besidesAll⟩
  · have hne : (s.mot.mode != 4) = false := by simp [hmode]
    simp only [hne, hd, hk, hmean, Bool.false_eq_true, if_false, ht, hw]
    rfl
  · rw [ht, State.fld_setFld_other _ _ _ _ (by decide), State.fld_setFld_other _ _ _ _ (by decide), State.fld_setFld_other _ _ _ _ (by decide),
      State.fld_setFld_other _ _ _ _ (by decide), State.fld_setFld _ _ _ (by decide)]
    exact Nat.mod_eq_of_lt (wrapInt_lt 32 _)
  · rw [ht, State.fld_setFld_other _ _ _ _ (by decide), State.fld_setFld_other _ _ _ _ (by decide), State.fld_setFld_other _ _ _ _ (by decide),
      State.fld_setFld _ _ _ (by decide)]
    exact Nat.mod_eq_of_lt (wrapInt_lt 32 _)
  · rw [ht, State.fld_setFld_other _ _ _ _ (by decide), State.fld_setFld_other _ _ _ _ (by decide), State.fld_setFld _ _ _ (by decide)]
    exact Nat.mod_eq_of_lt (wrapInt_lt 32 _)
  · rw [ht, State.fld_setFld_other _ _ _ _ (by decide), State.fld_setFld _ _ _ (by decide)]
    exact Nat.mod_eq_of_lt (wrapInt_lt 16 _)
  · rw [ht, on_setFld_one _ _ (by decide) (by decide)]
  · rw [ht, hw]
    rfl

theorem inclDone_bad (hmode : s.mot.mode = 4) (hd : s.mot.desc = some d) : ∃ t : State, exec (.inclDone a b c e true) s = .next (t.complete d stOK
    (t.fld fMOTTEMP_TEMP) (((List.range 3).map (fun n => leBytes 4 (t.fld (fMOTINC_MEAN n)))).flatten)) ∧ t.on fMOTSTAT_INCLBAD = true ∧
      t.mot.mode = 0 ∧ t.mot.desc = none ∧ (∀ n < 3, t.fld (fMOTINC_MEAN n) = s.fld (fMOTINC_MEAN n)) ∧ s.besidesAll t := by
  obtain ⟨t, ht⟩ : ∃ t, t = ((s.motSet (fun m => { m with mode := 0, desc := none })).setFld fMOTSTAT_INCLBAD 1).setFld fMOTFLAG_INCLDONE 1 := ⟨_, rfl⟩
  have hin : Moved [fMOTSTAT_INCLBAD, fMOTFLAG_INCLDONE] s t := by
    rw [ht]
    exact (((Moved.refl _ s).motSet _).setFld (by simp) _).setFld (by simp) _
  have hm : t.mot = { s.mot with mode := 0, desc := none } := by rw [ht]; rfl
  refine ⟨t, congrArg Host.Outcome.next ?_, ?_, by rw [hm], by rw [hm], fun n hn => hin.kept _ ?_, hin.besidesAll⟩
  · have hne : (s.mot.mode != 4) = false := by simp [hmode]
    simp only [hne, hd, Bool.false_eq_true, if_false, if_true, ht]
    rfl
  · rw [ht, on_setFld_other _ _ _ _ (by decide), on_setFld_one _ _ (by decide) (by decide)]
  · have hall : ∀ n < 3, [fMOTSTAT_INCLBAD, fMOTFLAG_INCLDONE].all (fun f => f.other (fMOTINC_MEAN n)) = true := by decide
    exact hall n hn

theorem inclDone_idle (hmode : s.mot.mode ≠ 4) : exec (.inclDone a b c e true) s = .next s :=
  congrArg Host.Outcome.next (if_pos (by simp [hmode]))

/-! ### The self-test -/

theorem motionSelftestDone_idle (hmode : s.mot.mode ≠ 5) : exec (.motionSelftestDone i j true) s = .next s :=
  congrArg Host.Outcome.next (if_pos (by simp [hmode]))

theorem motionSelftestDone_repeats (hmode : s.mot.mode = 5) (ht : s.mot.tries < 3) : exec (.motionSelftestDone i j true) s =
    .next { s with mot := { s.mot with tries := s.mot.tries + 1 } } :=
  congrArg Host.Outcome.next ((if_neg (by simp [hmode])).trans (if_pos (by simp [ht])))

/-- The results of a self-test stored, and the test over. -/
def selftestStored (s : State) (i g : Nat) : State :=
  (((s.motSet (fun m => { m with mode := 0, desc := none })).setFld fMOTFLAG_STDONE 1).setFld fMOTSTRES_APASS i).setFld fMOTSTRES_GPASS g

theorem selftestStored_spec (s : State) {i : Nat} (hi : i < 8) (g : Nat) :
    Moved [fMOTFLAG_STDONE, fMOTSTRES_APASS, fMOTSTRES_GPASS] s (selftestStored s i g) ∧ (selftestStored s i g).fld fMOTSTRES_APASS = i ∧
      (selftestStored s i g).fld fMOTSTRES_GPASS = g % 8 ∧ (selftestStored s i g).on fMOTFLAG_STDONE = true ∧
      (selftestStored s i g).mot = { s.mot with mode := 0, desc := none } := by
  refine ⟨((((Moved.refl _ s).motSet _).setFld (by simp) _).setFld (by simp) _).setFld (by simp) _, ?_, ?_, ?_, rfl⟩
  · rw [selftestStored, State.fld_setFld_other _ _ _ _ (by decide), State.fld_setFld _ _ _ (by decide)]
    exact Nat.mod_eq_of_lt hi
  · rw [selftestStored, State.fld_setFld _ _ _ (by decide)]
    rfl
  · rw [selftestStored, on_setFld_other _ _ _ _ (by decide), on_setFld_other _ _ _ _ (by decide), on_setFld_one _ _ (by decide) (by decide)]

/-- The host told of a self-test that ended. -/
theorem selftest_told (t : State) : Posted t (if t.rhocoUp then t.event 0x0503 (leBytes 1 (t.reg rMOTSTRES).toNat) else t) :=
  .ite (event_posted _ _ _) (.refl t)

theorem motionSelftestDone_passes (hmode : s.mot.mode = 5) (hd : s.mot.desc = some d) (h0 : dsArg d 0 = 0) : ∃ t : State,
    exec (.motionSelftestDone 7 j false) s = .next (t.complete d stOK 0 []) ∧ t.fld fMOTSTRES_APASS = 7 ∧ t.fld fMOTSTRES_GPASS = 0 ∧
      t.on fMOTFLAG_STDONE = true ∧ t.mot.mode = 0 ∧ t.mot.desc = none ∧ s.besides t := by
  obtain ⟨hin, ha, hg, hdone, hmot⟩ := selftestStored_spec s (i := 7) (by decide) 0
  have htold := selftest_told (selftestStored s 7 0)
  obtain ⟨w, hw⟩ : ∃ w, w = selftestStored s 7 0 := ⟨_, rfl⟩
  have hw' : (((s.motSet (fun m => { m with mode := 0, desc := none })).raise [fMOTFLAG_STDONE]).sets
      [(fMOTSTRES_APASS, 7 % 8), (fMOTSTRES_GPASS, 0)]) = w := hw.symm
  rw [← hw] at hin ha hg hdone hmot htold
  refine ⟨_, congrArg Host.Outcome.next ?_, (htold.fld _).trans ha, (htold.fld _).trans hg, (htold.on _).trans hdone, by rw [htold.mot, hmot],
    by rw [htold.mot, hmot], State.besides_trans hin.besidesAll.1 htold.besides⟩
  have hne : (s.mot.mode != 5) = false := by simp [hmode]
  have hpass : (7 % 8 != 7) = false := by decide
  simp only [hne, hd, h0, Nat.zero_ne_one, decide_false, hpass, Bool.false_and, Bool.not_false, Bool.true_and, Bool.or_self, Bool.false_eq_true,
    if_false, hw']

theorem motionSelftestDone_fails (hmode : s.mot.mode = 5) (hd : s.mot.desc = some d) (hi : i < 7) : ∃ t : State,
    exec (.motionSelftestDone i j false) s = .next (t.complete d 0x60 0 []) ∧ t.fld fMOTSTRES_APASS = i ∧ t.on fMOTFLAG_STDONE = true ∧
      t.on fMOTFLAG_STFAIL = true ∧ t.mot.mode = 0 ∧ s.besides t := by
  obtain ⟨g, hgy⟩ : ∃ g, g = if decide (dsArg d 0 = 1) then j % 8 else 0 := ⟨_, rfl⟩
  obtain ⟨hin, ha, -, hdone, hmot⟩ := selftestStored_spec s (i := i) (by omega) g
  obtain ⟨w, hw⟩ : ∃ w, w = selftestStored s i g := ⟨_, rfl⟩
  have hmod : i % 8 = i := Nat.mod_eq_of_lt (by omega)
  have hw' : (((s.motSet (fun m => { m with mode := 0, desc := none })).raise [fMOTFLAG_STDONE]).sets
      [(fMOTSTRES_APASS, i), (fMOTSTRES_GPASS, g)]) = w := hw.symm
  rw [← hw] at hin ha hdone hmot
  obtain ⟨y, hy⟩ : ∃ y, y = w.raise [fMOTFLAG_STFAIL] := ⟨_, rfl⟩
  have hyin : Moved [fMOTFLAG_STFAIL] w y := hy ▸ (Moved.refl _ w).raise (by simp)
  have hyon : y.on fMOTFLAG_STFAIL = true := hy ▸ on_setFld_one w _ (by decide) (by decide)
  have hym : y.mot = w.mot := by rw [hy]; rfl
  have htold := selftest_told y
  refine ⟨_, congrArg Host.Outcome.next ?_, (htold.fld _).trans ((hyin.kept _ (by decide)).trans ha), (htold.on _).trans ((hyin.on (by decide)).trans hdone),
    (htold.on _).trans hyon, by rw [htold.mot, hym, hmot], State.besides_trans hin.besidesAll.1 (State.besides_trans hyin.besidesAll.1 htold.besides)⟩
  have hne : (s.mot.mode != 5) = false := by simp [hmode]
  have hbad : (i != 7) = true := by
    have : i ≠ 7 := by omega
    simp [this]
  simp only [hne, hd, hmod, hbad, Bool.false_and, Bool.not_false, Bool.true_and, Bool.true_or, Bool.false_eq_true, if_false, if_true, ← hgy, hw', ← hy]

/-! ### Shocks -/

theorem shockSample_shows (haw : s.awake = true) (hon : s.blockOn 21 = true) (hrun : s.on fMOTSTAT_ARUN = true) (hren : s.fld fRGCTL_REN = 0)
    (hkn : s.on fKNCFG_EN = false) : ∃ t, exec (.shockSample i j k) s = .next t ∧ t.fld fRGSHOCK_X = min 255 i ∧ t.fld fRGSHOCK_Y = min 255 j ∧
      t.fld fRGSHOCK_Z = min 255 k ∧ t.mot = s.mot ∧ s.besidesAll t := by
  have hst := run_of_awake haw
  obtain ⟨w, hw⟩ : ∃ w, w = (((s.knSet (fun q => { q with n := q.n + 1 })).setFld fRGSHOCK_X (min 255 i)).setFld fRGSHOCK_Y (min 255 j)).setFld
      fRGSHOCK_Z (min 255 k) := ⟨_, rfl⟩
  have hwin : Within [fRGSHOCK_X, fRGSHOCK_Y, fRGSHOCK_Z] s w := by
    rw [hw]
    exact ((((Within.refl _ s).rgSet _).setFld (by simp) _).setFld (by simp) _).setFld (by simp) _
  have hwm : w.mot = s.mot := by rw [hw]; rfl
  have hmod (x : Nat) : min 255 x % 2 ^ 8 = min 255 x := Nat.mod_eq_of_lt (by omega)
  have hX : w.fld fRGSHOCK_X = min 255 i := by
    rw [hw, State.fld_setFld_other _ _ _ _ (by decide), State.fld_setFld_other _ _ _ _ (by decide), State.fld_setFld _ _ _ (by decide)]
    exact hmod i
  have hY : w.fld fRGSHOCK_Y = min 255 j := by
    rw [hw, State.fld_setFld_other _ _ _ _ (by decide), State.fld_setFld _ _ _ (by decide)]
    exact hmod j
  have hZ : w.fld fRGSHOCK_Z = min 255 k := by
    rw [hw, State.fld_setFld _ _ _ (by decide)]
    exact hmod k
  have htap (v : Nat) : w.tapSample v = (w, false) := by
    have hoff (n : Nat) : w.recogOn n = false := by rw [State.recogOn, hwin.kept _ (by decide), hren, Nat.zero_testBit]
    simp [State.tapSample, hoff]
  have hknock (v : Nat) : w.knSample v = (w.knSet (fun q => { n := q.n }), false) := by
    simp [State.knSample, hwin.on (by decide : [fRGSHOCK_X, fRGSHOCK_Y, fRGSHOCK_Z].all (fun f => f.other fKNCFG_EN) = true), hkn]
  have hrate : s.recogRate.isNone = false := by simp [State.recogRate, hrun]
  obtain ⟨y, hy⟩ : ∃ y, y = w.knSet (fun q => { n := q.n }) := ⟨_, rfl⟩
  have hyf : Felt w y := hy ▸ (Felt.refl w).rgSet _
  have hw' : (s.knSet (fun q => { q with n := q.n + 1 })).sets [(fRGSHOCK_X, min 255 i), (fRGSHOCK_Y, min 255 j), (fRGSHOCK_Z, min 255 k)] = w := hw.symm
  have hgo : ∃ m, exec (.shockSample i j k) s = .next (y.ringTrigAll m) := by
    have hslp : (s.knSet (fun q => { q with n := q.n + 1 })).slp.st = .run := hst
    refine ⟨2 * b2n (decide (w.fld fTAPCFG_THR ≤ shockAxis (w.fld fTAPCFG_AXIS) (min 255 i) (min 255 j) (min 255 k))) + 8 * b2n false,
      congrArg Host.Outcome.next ?_⟩
    simp only [hrate, hst, hslp, hon, hw', htap, hknock, ← hy, reduceCtorEq, decide_false, Bool.false_and, Bool.not_false, Bool.not_true, Bool.and_true,
      Bool.or_self, Bool.false_eq_true, if_false]
  obtain ⟨m, hgo⟩ := hgo
  have hfelt := hyf.trans (ringTrigAll_felt y m)
  refine ⟨_, hgo, ?_, ?_, ?_, hfelt.mot.trans hwm, State.besidesAll_trans hwin.besidesAll hfelt.within.besidesAll⟩
  · rw [hfelt.within.kept _ (by decide), hX]
  · rw [hfelt.within.kept _ (by decide), hY]
  · rw [hfelt.within.kept _ (by decide), hZ]

theorem shockSample_idle (haw : s.awake = true) (hrun : s.on fMOTSTAT_ARUN = false) (hw : s.on fMOTSTAT_WATCH = false) :
    exec (.shockSample i j k) s = .next s := by
  refine congrArg Host.Outcome.next (if_pos ?_)
  simp [State.recogRate, hrun, hw, run_of_awake haw]

/-- Settles O45, one lemma for each descriptor and each event. -/
theorem motion : Obligations.Motion := by
  unfold Obligations.Motion
  refine ⟨fun s d hr hc haw => ?_, fun s v x a b c e i j k d hr haw => ?_⟩
  · exact ⟨motion_notRole hr, motionSetup_busy hr, motionSetup_stores hr hc haw, motionStart_invalid hr, motionStart_busy hr,
      motionStart_loopGyro hr, motionStart_refused hr,
      fun hm h1 hs ⟨htok, hodr, hbig⟩ hmode => motionStart_starts hr hc haw hm h1 hs htok hodr hbig hmode, motionStop_ends hr hc haw,
      motionCapture_empty hr, motionCapture_busy hr,
      fun hm h6 h0 h24 hs ⟨htok, hodr, hbig⟩ hmode hp => motionCapture_arms hr hc haw hm h0 h24 hs htok hodr hbig hmode h6 hp,
      fun hm h6 h0 h24 hs ⟨htok, hodr, hbig⟩ hmode hp => motionCapture_drops hr hc haw hm h0 h24 hs htok hodr hbig hmode h6 hp,
      motionIncl_busy hr, motionIncl_waits hr hc haw, motionSelftest_invalid hr, fun hm h0 hs hmode => motionSelftest_waits hr hm h0 hs hmode,
      motionRead_answers hr, motionQuery_answers hr⟩
  · exact ⟨fun ⟨ha, _⟩ hmode hn hv => motgo_starts ha hmode hn hv, motgo_nothing,
      fun ⟨ha, hg⟩ hmode hn hv hp => motionArm_arms haw ha hg hmode hn hv hp, fun _ hmode hv => motionArm_disarms hmode hv,
      fun hmode _ h => motionStrobe_early haw hr hmode h,
      fun hmode ⟨ha, hg⟩ hset hbad hsat hH hL hl h hsl => motionStrobe_records haw hr hmode ha hg hset hbad hsat hH hL hl h hsl,
      fun hmode _ h hsl => motionStrobe_slice haw hr hmode h hsl, captureEnd_ends haw, captureEnd_idle, sensorSettled_accel, sensorSettled_gyro,
      gyro_absent, motionDataTimeout_misses, motionDataTimeout_restarts, inclDone_means, inclDone_bad, inclDone_idle, motionSelftestDone_idle,
      motionSelftestDone_repeats, motionSelftestDone_passes, motionSelftestDone_fails, shockSample_shows haw,
      fun harun hwatch => shockSample_idle haw harun hwatch⟩

end Sys2Proof.Proofs
end

section
/-! PROOF. The sensor front end: its state, writes of its registers and starts that act now (R402, R409, R417). -/

namespace Sys2Proof.Proofs

open Sys2Proof Sys2Proof.Machine

variable {l : List Fld} {s t u : State} {v : Word} {n m : Nat}

/-! ### Beside the front end -/

/-- From `s` to `t` a field apart from those of `l` keeps its value, and only registers and the front end's own state change. -/
structure Front (l : List Fld) (s t : State) : Prop where
  kept : ∀ g, l.all (fun f => f.other g) = true → t.fld g = s.fld g
  rest : t = { s with regs := t.regs, sfe := t.sfe }

namespace Front

theorem ofWrites (h : Writes l s t) : Front l s t := ⟨h.kept, by rw [h.regs]⟩

theorem refl (l : List Fld) (s : State) : Front l s s := ofWrites (.refl l s)

theorem trans (h : Front l s t) (k : Front l t u) : Front l s u := by
  refine ⟨fun g hg => (k.kept g hg).trans (h.kept g hg), ?_⟩
  rw [k.rest, h.rest]

theorem setFld {f : Fld} (h : Front l s t) (hf : f ∈ l) (n : Nat) : Front l s (t.setFld f n) :=
  h.trans (ofWrites ((Writes.refl l t).setFld hf n))

theorem raise {f : Fld} (h : Front l s t) (hf : f ∈ l) : Front l s (t.raise [f]) := h.setFld hf 1

theorem sfeSet (h : Front l s t) (f : Sfe → Sfe) : Front l s (t.sfeSet f) := h.trans ⟨fun _ _ => rfl, rfl⟩

theorem ite {c : Prop} [Decidable c] (h : Front l s t) (k : Front l s u) : Front l s (if c then t else u) := by
  split
  · exact h
  · exact k

theorem mono {m : List Fld} (h : Front l s t) (hlm : ∀ f ∈ l, f ∈ m) : Front m s t :=
  ⟨fun g hg => h.kept g (List.all_eq_true.mpr fun f hf => List.all_eq_true.mp hg f (hlm f hf)), h.rest⟩

theorem on (h : Front l s t) {g : Fld} (hg : l.all (fun f => f.other g) = true) : t.on g = s.on g := on_of_fld (h.kept g hg)

theorem awake (h : Front l s t) (ha : s.awake = true) : t.awake = true := by
  rw [h.rest]
  exact ha

theorem role (h : Front l s t) : t.role = s.role := by rw [h.rest]

theorem clk (h : Front l s t) : t.clk = s.clk := by rw [h.rest]

theorem now (h : Front l s t) : t.now = s.now := now_of_clk h.clk

theorem node (h : Front l s t) : t.node = s.node := by rw [h.rest]

theorem besidesAll (h : Front l s t) : s.besidesAll t := by
  rw [h.rest]
  exact ⟨⟨rfl, rfl, rfl, rfl, rfl, rfl⟩, rfl, rfl, rfl, rfl, rfl, rfl⟩

end Front

theorem plainWrite_sfe (s : State) (a : Nat) (v : Word) : (s.plainWrite a v).sfe = s.sfe := by
  rw [(plainWrite_writes (l := [wholeReg a]) s v (by simp)).regs]

theorem deferSync_sfe (s : State) : s.deferSync.sfe = s.sfe := by rw [(deferSync_writes s).regs]

theorem retoken_sfe (h : s.awake = true) : s.retoken.sfe = s.sfe := by rw [(retoken_writes h).regs]

theorem frontPlain (s : State) (a : Nat) (v : Word) : Front (storeFields a) s (s.deferSync.plainWrite a v) :=
  (Front.ofWrites ((deferSync_writes s).mono fun f hf => by simp [storeFields, hf])).trans
    (Front.ofWrites (plainWrite_writes _ v (by simp [storeFields])))

/-! ### Starts (R409, R417) -/

/-- Nothing under way: the front end on, no excitation, no scan. -/
structure SfeIdle (s : State) : Prop where
  en : s.on fSFECTL_EN = true
  vex : s.sfe.vex = false
  exc : s.on fSFEEXC_EN = false
  scan : s.on fSFESTAT_SCANBUSY = false

/-- The fields that a start changes. -/
def beginFields : List Fld := [fSFESTAT_RUN, fSFESTAT_SCANBUSY, fSFESTAT_HELD, fSFESTAT_RANGE]

theorem sfeStart_begins (h : SfeIdle s) (hpll : s.on fCLKSTAT_PLLLOCK = true) (hsp : s.clk.spireHeld = false) : s.sfeStart = s.sfeBegin := by
  obtain ⟨hen, hvex, hexc, hscan⟩ := h
  simp [State.sfeStart, State.spireRefuses, hen, hvex, hexc, hscan, hpll, hsp]

theorem sfeBegin_spec (s : State) : Front beginFields s s.sfeBegin ∧ s.sfeBegin.on fSFESTAT_RUN = true ∧ s.sfeBegin.sfe.slot = 0 ∧
    s.sfeBegin.sfe.timeOwed = true ∧ s.sfeBegin.sfe.cfg = (s.reg (rSFESLOT 0)).toNat := by
  obtain ⟨w, hw⟩ : ∃ w, w = ((s.setFld fSFESTAT_RUN 1).setFld fSFESTAT_SCANBUSY (b2n (s.on fSFECTL_MODE))).setFld fSFESTAT_HELD 0 := ⟨_, rfl⟩
  have hwin : Front beginFields s w := by
    rw [hw]
    exact (((Front.refl _ s).setFld (by simp [beginFields]) _).setFld (by simp [beginFields]) _).setFld (by simp [beginFields]) _
  have hrun : w.on fSFESTAT_RUN = true := by
    rw [hw, on_setFld_other _ _ _ _ (by decide), on_setFld_other _ _ _ _ (by decide), on_setFld_one _ _ (by decide) (by decide)]
  obtain ⟨y, hy⟩ : ∃ y, y = w.sfeRestart.sfeSet (fun x => { x with
    slot := 0, cfg := s.slotCfg 0, again := false, timeOwed := true, sinceTime := 0, susp := false, held := false }) := ⟨_, rfl⟩
  have hyin : Front [] w y := hy ▸ ((Front.refl _ w).sfeSet _).sfeSet _
  have hbegin : s.sfeBegin = y.setFld fSFESTAT_RANGE (y.slotRange 0 (s.slotCfg 0)) := by
    rw [hy, hw]
    rfl
  have hsfe : s.sfeBegin.sfe = y.sfe := by rw [hbegin]; rfl
  have hys : y.sfe.slot = 0 ∧ y.sfe.timeOwed = true ∧ y.sfe.cfg = (s.reg (rSFESLOT 0)).toNat := by
    rw [hy]
    exact ⟨rfl, rfl, rfl⟩
  rw [hsfe, hbegin]
  exact ⟨(hwin.trans (hyin.mono (by simp))).setFld (by simp [beginFields]) _,
    (on_setFld_other _ _ _ _ (by decide)).trans ((hyin.on (by decide)).trans hrun), hys⟩

/-! ### Registers that only store -/

theorem specOf_sfectl : specOf rSFECTL = some ⟨0x40011000, 1, 0, 0xFF01FF, 0, 0, 0, 0, 0, 0⟩ := by decide +kernel

theorem specOf_sferate : specOf rSFERATE = some ⟨0x40011004, 1, 0, 0x33FFF, 0, 0, 0, 0, 0, 0⟩ := by decide +kernel

theorem specOf_sfeper : specOf rSFEPER = some ⟨0x40011008, 1, 0, 0xFFFFFFFF, 0, 0, 0, 0, 0, 0⟩ := by decide +kernel

theorem specOf_sfeth : specOf rSFETH = some ⟨0x40011010, 1, 0, 0x1FFFF, 0, 0, 0, 0, 0, 0⟩ := by decide +kernel

theorem specOf_sfego : specOf rSFEGO = some ⟨0x40011014, 1, 0, 0, 0, 0, 1, 0, 0, 0⟩ := by decide +kernel

theorem specOf_sfeexc : specOf rSFEEXC = some ⟨0x40011024, 1, 0, 0x3FF3FF7, 0, 0, 0, 0, 0, 0⟩ := by decide +kernel

theorem specOf_sfeslot (n : Fin 7) : specOf (rSFESLOT n.val) = some ⟨0x40011040, 7, 4, 0x7F37, 0, 0, 0, 0, 0, 0⟩ := by
  revert n
  decide +kernel

theorem specOf_sfeofs : specOf (rSFEOFS 0) = some ⟨0x40011080, 8, 4, 0xFFFFFF, 0, 0, 0, 0, 0, 0⟩ := by decide +kernel

theorem sfeRegs_open : ∀ a ∈ [rSFECTL, rSFERATE, rSFEPER, rSFEEXC, rSFEGO, rSFETL, rSFETH, rSFEOFS 0], openReg a = true := by decide +kernel

theorem sfeSlots_open : ∀ n < 7, openReg (rSFESLOT n) = true := by decide +kernel

/-- A slot written in the Nave. -/
def sfeSlotTaken (s : State) (n : Nat) (v : Word) : State :=
  (s.deferSync.plainWrite (rSFESLOT n) v).sfeSet (fun x => { x with range := x.range.set ((rSFESLOT n - rSFESLOT 0) / 4) none })

theorem sfeslot_written (hn : n < 7) (v : Word) : s.deferSync.sfeWrite (rSFESLOT n) v = sfeSlotTaken s n v := by
  have h1 : rSFESLOT n ≠ rSFECTL := by simp only [rSFESLOT, rSFECTL]; omega
  have h2 : rSFESLOT n ≠ rSFEEXC := by simp only [rSFESLOT, rSFEEXC]; omega
  have h3 : rSFESLOT n ≠ rSFERATE := by simp only [rSFESLOT, rSFERATE]; omega
  have h4 : rSFESLOT n ≠ rSFEGO := by simp only [rSFESLOT, rSFEGO]; omega
  have h5 : rSFESLOT n ≠ rSFETH := by simp only [rSFESLOT, rSFETH]; omega
  have h6 : rSFESLOT 0 ≤ rSFESLOT n ∧ rSFESLOT n ≤ rSFESLOT 6 := by simp only [rSFESLOT]; omega
  rw [State.sfeWrite, if_neg h1, if_neg h2, if_neg h3, if_neg h4, if_neg h5, if_pos h6, sfeSlotTaken]

theorem sfeSlotTaken_front (s : State) (n : Nat) (v : Word) : Front (storeFields (rSFESLOT n)) s (sfeSlotTaken s n v) :=
  (frontPlain s _ v).sfeSet _

theorem sfeSlotTaken_input (hn : n < 7) (s : State) (v : Word) : (sfeSlotTaken s n v).fld (fSFESLOT_INP n) = v.toNat % 8 := by
  rw [sfeSlotTaken, State.sfeSet_fld, fld_plainWrite_stored _ v (specOf_sfeslot ⟨n, hn⟩) rfl (by
    have h : ∀ j < 3, (0x7F37 ||| 0 : Nat).testBit (0 + j) = true ∧ (0 ||| 0 : Nat).testBit (0 + j) = false ∧ Nat.testBit 0 (0 + j) = false := by decide
    exact h), fldOf_eq_div]
  exact congrArg (· % 8) (Nat.div_one _)

/-- The slots of a list written in the Nave: each keeps its own input, and a field of another register stays. -/
theorem slots_written (f : Nat → Nat) (ns : List Nat) (hns : ∀ n ∈ ns, n < 7) (hnd : ns.Nodup) (s : State) (hc : s.fld fSACCLAIM_CLAIM = 0) :
    ∃ t, s.setup State.sfeWrite (ns.map fun n => (rSFESLOT n, f n)) = ⟨t, stOK, 0, [], false⟩ ∧ s.besidesAll t ∧
      (∀ g : Fld, (∀ n ∈ ns, g.addr ≠ rSFESLOT n) → vetFields.all (fun f => f.other g) = true → t.fld g = s.fld g) ∧
      ∀ n ∈ ns, t.fld (fSFESLOT_INP n) = f n % 8 := by
  induction ns generalizing s with
  | nil => exact ⟨s, rfl, s.besidesAll_refl, fun _ _ _ => rfl, fun n hn => absurd hn List.not_mem_nil⟩
  | cons m ns ih =>
    have hm : m < 7 := hns m (List.mem_cons_self ..)
    have hin := sfeSlotTaken_front s m (BitVec.ofNat 32 (f m))
    have hother (g : Fld) (hg : g.addr ≠ rSFESLOT m) (hv : vetFields.all (fun f => f.other g) = true) :
        (sfeSlotTaken s m (BitVec.ofNat 32 (f m))).fld g = s.fld g := by
      refine hin.kept g ?_
      have hne : (wholeReg (rSFESLOT m)).addr ≠ g.addr := Ne.symm hg
      rw [storeFields, List.all_cons, hv, Bool.and_true, Fld.other, decide_eq_true hne, Bool.true_or]
    obtain ⟨hnot, hnd'⟩ := List.nodup_cons.mp hnd
    obtain ⟨t, hgo, hb, hkept, hstored⟩ := ih (fun k hk => hns k (List.mem_cons_of_mem _ hk)) hnd' (sfeSlotTaken s m (BitVec.ofNat 32 (f m)))
      ((hother _ (by simp only [fSACCLAIM_CLAIM, rSFESLOT]; omega) (by decide)).trans hc)
    refine ⟨t, ?_, State.besidesAll_trans hin.besidesAll hb, fun g hg hv => ?_, fun k hk => ?_⟩
    · rw [List.map_cons, setup_cons hc (sfeSlots_open m hm), sfeslot_written hm, hgo]
    · exact (hkept g (fun k hk => hg k (List.mem_cons_of_mem _ hk)) hv).trans (hother g (hg m (List.mem_cons_self ..)) hv)
    · rcases List.mem_cons.mp hk with rfl | hk
      · have happart : ∀ j ∈ ns, (fSFESLOT_INP k).addr ≠ rSFESLOT j := by
          intro j hj heq
          have hkj : k = j := by
            simp only [fSFESLOT_INP, rSFESLOT] at heq
            omega
          exact hnot (hkj ▸ hj)
        have hvet : ∀ k < 7, vetFields.all (fun f => f.other (fSFESLOT_INP k)) = true := by decide
        rw [hkept _ happart (hvet k hm), sfeSlotTaken_input hm, BitVec.toNat_ofNat]
        omega
      · exact hstored k hk

end Sys2Proof.Proofs
end

section
/-! PROOF. The descriptors of the sensor front end (R405, R416, Table 18.8). -/

namespace Sys2Proof.Proofs

open Sys2Proof Sys2Proof.Machine

variable {s t u : State} {v : Word} {d : Desc}

/-! ### Writes of SFECTL -/

/-- SFECTL stored; an armed start goes with a periodic trigger. -/
def sfectlStored (s : State) (v : Word) : State :=
  if fldOf (s.reg rSFECTL) fSFECTL_TRIG = 1 && (s.plainWrite rSFECTL v).fld fSFECTL_TRIG != 1 then (s.plainWrite rSFECTL v).setFld fSFETH_ARM 0
  else s.plainWrite rSFECTL v

/-- The fields a stored SFECTL changes. -/
def sfectlFields : List Fld := [wholeReg rSFECTL, fSFETH_ARM]

theorem sfectlStored_writes (s : State) (v : Word) : Writes sfectlFields s (sfectlStored s v) := by
  have hp : Writes sfectlFields s (s.plainWrite rSFECTL v) := plainWrite_writes s v (by simp [sfectlFields])
  unfold sfectlStored
  exact .ite (hp.setFld (by simp [sfectlFields]) 0) hp

theorem sfectlStored_fld (s : State) (v : Word) {g : Fld} (ha : g.addr = rSFECTL) (hg : fSFETH_ARM.other g = true)
    (hrw : ∀ j < g.w, (0xFF01FF ||| 0).testBit (g.lo + j) = true ∧ (0 ||| 0).testBit (g.lo + j) = false ∧ Nat.testBit 0 (g.lo + j) = false) :
    (sfectlStored s v).fld g = fldOf v g := by
  have hs : (s.plainWrite rSFECTL v).fld g = fldOf v g := fld_plainWrite_stored s v specOf_sfectl ha hrw
  unfold sfectlStored
  split
  · rw [State.fld_setFld_other _ _ _ _ hg, hs]
  · exact hs

theorem sfectlStored_sfe (s : State) (v : Word) : (sfectlStored s v).sfe = s.sfe := by rw [(sfectlStored_writes s v).regs]

theorem sfectl_off (he : s.on fSFECTL_EN = false) (hv : fldOf v fSFECTL_EN = 0) : s.sfeWrite rSFECTL v = sfectlStored s v := by
  have hw : s.sfeWrite rSFECTL v = s.sfeWriteCtl v := by rw [State.sfeWrite, if_pos rfl]
  rw [hw]
  unfold State.sfeWriteCtl
  simp only [he, hv, Bool.false_and, Bool.false_eq_true, if_false, if_true]
  rfl

/-- The costs do not rest on a slow front end's enable. -/
theorem needNow_slow (h : 96 ≤ s.fld fSFERATE_N) : (s.setFld fSFECTL_EN 0).needNow = s.needNow := by
  have hf (g : Fld) (hg : fSFECTL_EN.other g = true) : (s.setFld fSFECTL_EN 0).fld g = s.fld g := State.fld_setFld_other _ _ _ _ hg
  have ho (g : Fld) (hg : fSFECTL_EN.other g = true) : (s.setFld fSFECTL_EN 0).on g = s.on g := on_setFld_other _ _ _ _ hg
  have hslow (r : Nat) : sfeFast r (s.fld fSFERATE_N) = false := by simp [sfeFast, h]
  have hrole : (s.setFld fSFECTL_EN 0).role = s.role := rfl
  have hcant : (s.setFld fSFECTL_EN 0).cantRuns = s.cantRuns := by
    simp only [State.cantRuns, hf fCANTSTAT_STATE (by decide)]
  simp only [State.needNow, hf fMOTSTAT_GRUN (by decide), ho fFONTSTAT_RUN (by decide), ho fFONTSTAT_FLOWCAD (by decide), ho fFONTCTL_LEVEL (by decide),
    hcant, hrole, ho fSFEEXC_EN (by decide), hf fPWRCFG_EXC (by decide), hf fSFERATE_N (by decide), hslow, Bool.and_false, ho fMOTSTAT_ARUN (by decide),
    hf fMOTCTL_ODR (by decide)]

/-- The costs do not rest on the excitation's enable where it costs nothing. -/
theorem needNow_freeExc (h : s.fld fPWRCFG_EXC = 0) : (s.setFld fSFEEXC_EN 0).needNow = s.needNow := by
  have hf (g : Fld) (hg : fSFEEXC_EN.other g = true) : (s.setFld fSFEEXC_EN 0).fld g = s.fld g := State.fld_setFld_other _ _ _ _ hg
  have ho (g : Fld) (hg : fSFEEXC_EN.other g = true) : (s.setFld fSFEEXC_EN 0).on g = s.on g := on_setFld_other _ _ _ _ hg
  have hrole : (s.setFld fSFEEXC_EN 0).role = s.role := rfl
  have hcant : (s.setFld fSFEEXC_EN 0).cantRuns = s.cantRuns := by
    simp only [State.cantRuns, hf fCANTSTAT_STATE (by decide)]
  simp only [State.needNow, hf fMOTSTAT_GRUN (by decide), ho fFONTSTAT_RUN (by decide), ho fFONTSTAT_FLOWCAD (by decide), ho fFONTCTL_LEVEL (by decide),
    hcant, hrole, hf fPWRCFG_EXC (by decide), h, ite_self, ho fSFECTL_EN (by decide), hf fSFECTL_REJ (by decide), hf fSFERATE_N (by decide),
    ho fMOTSTAT_ARUN (by decide), hf fMOTCTL_ODR (by decide)]

theorem tokensRefuse_same (s : State) : s.tokensRefuse s.needNow = false := by simp [State.tokensRefuse]

/-- The front end turned on at a rate that costs nothing (R60, R102). -/
theorem sfectl_on (he : s.on fSFECTL_EN = false) (hv : fldOf v fSFECTL_EN = 1) (hpll : s.on fCLKSTAT_PLLLOCK = true) (hn : 96 ≤ s.fld fSFERATE_N) :
    s.sfeWrite rSFECTL v = ((sfectlStored s v).sfeSet (fun x => { x with
      range := List.replicate 7 none, opens := List.replicate 7 0, held := false })).retoken := by
  have hw : s.sfeWrite rSFECTL v = s.sfeWriteCtl v := by rw [State.sfeWrite, if_pos rfl]
  obtain ⟨w, hsw⟩ : ∃ w, w = sfectlStored s v := ⟨_, rfl⟩
  have hin := sfectlStored_writes s v
  rw [← hsw] at hin
  have hfree : (w.setFld fSFECTL_EN 0).tokensRefuse w.needNow = false := by
    rw [← needNow_slow (s := w) (by rw [hin.kept _ (by decide)]; exact hn), tokensRefuse_same]
  have hlock : s.spireRefuses = false := by simp [State.spireRefuses, hpll]
  rw [hw, ← hsw]
  unfold State.sfeWriteCtl
  have hsw' : (if (fldOf (s.reg rSFECTL) fSFECTL_TRIG = 1 && (s.plainWrite rSFECTL v).fld fSFECTL_TRIG != 1) = true
    then (s.plainWrite rSFECTL v).setFld fSFETH_ARM 0 else s.plainWrite rSFECTL v) = w := hsw.symm
  simp only [he, hv, Bool.false_and, Bool.false_eq_true, if_false, Nat.one_ne_zero, hlock, hsw', hfree]

/-- The front end turned off. -/
theorem sfectl_stops (he : s.on fSFECTL_EN = true) (hv : fldOf v fSFECTL_EN = 0) : ∃ w x, Front [fSFEFLAG_CFGBUSY] s w ∧ fldOf x fSFECTL_EN = 0 ∧
    s.sfeWrite rSFECTL v = (sfectlStored w x).sfeHalt.retoken := by
  have hw : s.sfeWrite rSFECTL v = s.sfeWriteCtl v := by rw [State.sfeWrite, if_pos rfl]
  obtain ⟨b, hb⟩ : ∃ b, b = ((s.reg rSFECTL ^^^ v) &&& (0x1EE : Word) != 0) := ⟨_, rfl⟩
  obtain ⟨w, hsw⟩ : ∃ w, w = if b = true then s.raise [fSFEFLAG_CFGBUSY] else s := ⟨_, rfl⟩
  have hwin : Front [fSFEFLAG_CFGBUSY] s w := hsw ▸ .ite ((Front.refl _ s).raise (by simp)) (.refl _ s)
  obtain ⟨x, hx⟩ : ∃ x, x = (v &&& ~~~(0x1EE : Word)) ||| (s.reg rSFECTL &&& 0x1EE) := ⟨_, rfl⟩
  have hx0 : fldOf x fSFECTL_EN = 0 := by
    rw [← hv]
    apply Nat.eq_of_testBit_eq
    intro j
    rw [fldOf_bit, fldOf_bit]
    by_cases hj : j < fSFECTL_EN.w
    · have hj0 : j = 0 := by simp only [fSFECTL_EN] at hj; omega
      subst hj0
      simp [hx, fSFECTL_EN]
    · simp [hj]
  have hreg : w.reg rSFECTL = s.reg rSFECTL := by
    rw [hsw]
    split
    · rw [State.raise_cons, State.raise_nil, State.setFld, State.reg_setReg, if_neg (by decide)]
    · rfl
  have hstored : (if (fldOf (s.reg rSFECTL) fSFECTL_TRIG = 1 && (w.plainWrite rSFECTL x).fld fSFECTL_TRIG != 1) = true
      then (w.plainWrite rSFECTL x).setFld fSFETH_ARM 0 else w.plainWrite rSFECTL x) = sfectlStored w x := by rw [sfectlStored, hreg]
  refine ⟨w, x, hwin, hx0, ?_⟩
  rw [hw]
  unfold State.sfeWriteCtl
  simp only [he, Bool.true_and, ← hb, if_true, ← hsw, ← hx, hx0, hstored]

end Sys2Proof.Proofs
end

section
/-! PROOF. The descriptors of the sensor front end (R405, R416, Table 18.8). -/

namespace Sys2Proof.Proofs

open Sys2Proof Sys2Proof.Machine

variable {s t u : State} {v : Word} {d : Desc}

theorem sfeRole_of (h : s.role = .cell ∨ s.role = .loop) : s.sfeRole = true := by
  rcases h with h | h <;> simp [State.sfeRole, h]

/-- The low 17 of a word: its bits 0 and 4. -/
theorem and_seventeen (x : Nat) : x &&& 17 = x % 2 + 16 * (x / 16 % 2) := by
  have hsmall : ∀ r < 32, r &&& 17 = r % 2 + 16 * (r / 16 % 2) := by decide
  have hle : x &&& 17 ≤ 17 := Nat.and_le_right
  have hmod : (x &&& 17) % 2 ^ 5 = x % 2 ^ 5 &&& 17 % 2 ^ 5 := Nat.and_mod_two_pow ..
  have hcase : x % 32 &&& 17 = x % 32 % 2 + 16 * (x % 32 / 16 % 2) := hsmall _ (Nat.mod_lt _ (by decide))
  have hx : x &&& 17 = x % 32 &&& 17 := by
    rw [← Nat.mod_eq_of_lt (by omega : x &&& 17 < 2 ^ 5), hmod]
    rfl
  rw [hx, hcase]
  omega

/-- SFECTL as SFE_START writes it: EN set and LATEDROP clear. -/
def startWord (s : State) : Word := BitVec.ofNat 32 ((s.reg rSFECTL).toNat - ((s.reg rSFECTL).toNat &&& 0x11) + 1 + 0)

theorem startWord_fields (s : State) : fldOf (startWord s) fSFECTL_EN = 1 ∧ fldOf (startWord s) fSFECTL_TRIG = s.fld fSFECTL_TRIG := by
  have hlt : (s.reg rSFECTL).toNat < 4294967296 := (s.reg rSFECTL).isLt
  have htrig : s.fld fSFECTL_TRIG = (s.reg rSFECTL).toNat / 4 % 4 := fldOf_eq_div _ fSFECTL_TRIG
  have hval : (startWord s).toNat = ((s.reg rSFECTL).toNat - ((s.reg rSFECTL).toNat &&& 17) + 1 + 0) % 4294967296 := BitVec.toNat_ofNat _ _
  rw [and_seventeen] at hval
  rw [fldOf_eq_div, fldOf_eq_div, htrig]
  generalize (s.reg rSFECTL).toNat = x at hlt hval ⊢
  exact ⟨(by omega : (startWord s).toNat / 1 % 2 = 1), (by omega : (startWord s).toNat / 4 % 4 = x / 4 % 4)⟩

section

variable (hr : s.ready d = true) (hm : s.role = .cell ∨ s.role = .loop)
include hr hm

/-- A front end descriptor whose action ends at once. -/
theorem sfe_done {act : State → DescRes} {st r : Nat} {bs : List Byte} (hact : act s = ⟨t, st, r, bs, false⟩) :
    s.runDesc d s.sfeRole act = t.complete d st r bs := by
  rw [sfeRole_of hm]
  exact runDesc_done hr hact

theorem sfe_waits {act : State → DescRes} {st r : Nat} {bs : List Byte} (hact : act s = ⟨t, st, r, bs, true⟩) :
    s.runDesc d s.sfeRole act = t := by
  rw [sfeRole_of hm]
  exact runDesc_waits hr hact

theorem sfeSetup_busy (he : s.on fSFECTL_EN = true) : exec (.sfeSetup d) s = .next (s.complete d stBUSY 0 []) :=
  congrArg Host.Outcome.next (sfe_done hr hm (if_pos he))

theorem sfeExc_invalid (h : 8 ≤ dsArg d 0) : exec (.sfeExc d) s = .next (s.complete d stINVALID 0 []) :=
  congrArg Host.Outcome.next (sfe_done hr hm (if_pos (Or.inl h)))

theorem sfeQuery_answers : exec (.sfeQuery d) s = .next (s.answers d [rSFESTAT, rSFEFLAG, rSFEMON, rSFELATE]) :=
  congrArg Host.Outcome.next (sfe_done hr hm rfl)

theorem sfeStart_clock (hheld : s.sfe.held = false) (harm : s.on fSFETH_ARM = false) (hpll : s.on fCLKSTAT_PLLLOCK = false) : ∃ t,
    exec (.sfeStart d) s = .next (t.complete d stCLOCK 0 []) ∧ t.on fCLKFLAG_REFUSED = true ∧ t.sfe = s.sfe ∧ s.besidesAll t := by
  refine ⟨s.setFld fCLKFLAG_REFUSED 1, congrArg Host.Outcome.next (sfe_done hr hm ?_), on_setFld_one _ _ (by decide) (by decide), rfl,
    s.besidesAll_setFld _ _⟩
  simp only [hheld, harm, State.spireRefuses, hpll, Bool.or_self, Bool.false_eq_true, if_false, Bool.not_false, if_true]
  rfl

theorem sfeRead_answers (h : ∀ j < 7, (s.reg (rSFELAST j)).getLsbD 31 = false) :
    exec (.sfeRead d) s = .next (s.complete d stOK (s.reg (rSFELAST 0)).toNat
      (((List.range 7).map (fun j => leBytes 4 (s.reg (rSFELAST j)).toNat)).flatten ++ leBytes 4 (s.reg rSFESCANCNT).toNat
        ++ List.replicate 4 0)) := by
  have hlasts : (((List.range 7).map rSFELAST ++ [rSFESCANCNT]).map (fun a => leBytes 4 (s.reg a).toNat)).flatten =
      ((List.range 7).map (fun j => leBytes 4 (s.reg (rSFELAST j)).toNat)).flatten ++ leBytes 4 (s.reg rSFESCANCNT).toNat := by
    rw [List.map_append, List.flatten_append, List.map_map]
    simp only [Function.comp_def, List.map_cons, List.map_nil, List.flatten_cons, List.flatten_nil, List.append_nil]
  have hlen : (((List.range 7).map (fun j => leBytes 4 (s.reg (rSFELAST j)).toNat)).flatten ++ leBytes 4 (s.reg rSFESCANCNT).toNat).length = 32 := by
    have hrange : List.range 7 = [0, 1, 2, 3, 4, 5, 6] := rfl
    simp only [hrange, List.map_cons, List.map_nil, List.flatten_cons, List.flatten_nil, List.append_nil, List.length_append, leBytes_length]
  have hany (n : Nat) (hn : n ≤ 7) : (List.range n).any (fun i => (s.reg (rSFELAST i)).getLsbD 31) = false := by
    rw [List.any_eq_false]
    intro i hi
    rw [h i (Nat.lt_of_lt_of_le (List.mem_range.mp hi) hn)]
    exact Bool.false_ne_true
  have hsel : (if dsResbuf d then 7 else 1) ≤ 7 := by split <;> decide
  have hpad (bs : List Byte) (hbs : bs.length = 32) : padTo 36 bs = bs ++ List.replicate 4 0 := by
    rw [padTo, List.take_of_length_le (by omega), hbs]
  refine congrArg Host.Outcome.next (sfe_done hr hm ?_)
  simp only [State.query, hlasts, hany _ hsel, hpad _ hlen, Bool.false_eq_true, if_false]
  rfl

variable (hc : s.fld fSACCLAIM_CLAIM = 0)
include hc

theorem sfeCal_takes (hpll : s.on fCLKSTAT_PLLLOCK = true) (he : s.on fSFECTL_EN = false) (h1 : dsArg d 0 = 1) : ∃ t,
    exec (.sfeCal d [5]) s = .next (t.complete d stOK 1 []) ∧ t.fld (fSFEOFS_OFS 0) = 5 ∧ t.on fSFEFLAG_CALDONE = true ∧ s.besidesAll t := by
  obtain ⟨w, hw⟩ : ∃ w, w = s.deferSync.plainWrite (rSFEOFS 0) (BitVec.ofNat 32 5) := ⟨_, rfl⟩
  have hwin : Front (storeFields (rSFEOFS 0)) s w := hw ▸ frontPlain s _ _
  have hofs : w.fld (fSFEOFS_OFS 0) = 5 := by
    rw [hw, fld_plainWrite_stored _ _ specOf_sfeofs rfl (by decide)]
    decide
  have hset : s.setup State.sfeWrite [(rSFEOFS 0, 5)] = ⟨w, stOK, 0, [], false⟩ := by
    rw [setup_cons hc (sfeRegs_open _ (by simp)), State.sfeWrite, if_neg (by decide), if_neg (by decide), if_neg (by decide), if_neg (by decide),
      if_neg (by decide), if_neg (by decide), if_neg (by decide), ← hw, setup_nil]
  refine ⟨w.setFld fSFEFLAG_CALDONE 1, congrArg Host.Outcome.next (sfe_done hr hm ?_), ?_, on_setFld_one _ _ (by decide) (by decide), ?_⟩
  · have hasked : (List.range 8).filter (fun k => bitAt 1 k) = [0] := by decide
    have hgood : [0].filter (fun k : Nat => decide ((([5] : List Int).getD k 0).natAbs * 25000 ≤ 2 ^ (23 + k))) = [0] := by decide
    have hword : ([0] : List Nat).map (fun k => (rSFEOFS k, wrapInt 24 (([5] : List Int).getD k 0))) = [(rSFEOFS 0, 5)] := by decide
    have hsum : (([0] : List Nat).map (2 ^ ·)).sum = 1 := by decide
    simp only [he, State.spireRefuses, hpll, h1, hasked, hgood, hword, hset, hsum, bne_self_eq_false, Bool.not_true, Bool.false_eq_true, if_false,
      if_true]
    rfl
  · rw [State.fld_setFld_other _ _ _ _ (by decide), hofs]
  · exact State.besidesAll_trans hwin.besidesAll (State.besidesAll_setFld _ _ _)

theorem sfeSetup_stores (he : s.on fSFECTL_EN = false) (hx : s.on fSFEEXC_EN = false) : ∃ t, exec (.sfeSetup d) s = .next (t.complete d stOK 0 []) ∧
    t.fld fSFEPER_PER = dsArgs d 8 4 ∧ t.fld fSFERATE_N = dsArgs d 4 4 % 16384 ∧ t.on fSFECTL_EN = false ∧
    t.fld fSFECTL_NSLOT = dsArgs d 0 4 / 32 % 8 ∧ t.fld (fSFESLOT_INP 2) = dsArgs d 20 2 % 2 ^ (fSFESLOT_INP 2).w ∧ s.besidesAll t := by
  have hv0 : dsArgs d 0 4 < 256 ^ 4 := dsArgs_lt d 0 4
  have hv4 : dsArgs d 4 4 < 256 ^ 4 := dsArgs_lt d 4 4
  have hv8 : dsArgs d 8 4 < 256 ^ 4 := dsArgs_lt d 8 4
  have hv12 : dsArgs d 12 4 < 256 ^ 4 := dsArgs_lt d 12 4
  -- SFECTL
  obtain ⟨v1, hv1⟩ : ∃ v, v = BitVec.ofNat 32 (dsArgs d 0 4 / 2 * 2) := ⟨_, rfl⟩
  have hn1 : v1.toNat = dsArgs d 0 4 / 2 * 2 := by rw [hv1, BitVec.toNat_ofNat]; omega
  have he1 : fldOf v1 fSFECTL_EN = 0 := by
    rw [fldOf_eq_div, hn1]
    exact (by omega : dsArgs d 0 4 / 2 * 2 / 1 % 2 = 0)
  have hs1 : fldOf v1 fSFECTL_NSLOT = dsArgs d 0 4 / 32 % 8 := by
    rw [fldOf_eq_div, hn1]
    exact (by omega : dsArgs d 0 4 / 2 * 2 / 32 % 8 = dsArgs d 0 4 / 32 % 8)
  obtain ⟨t1, ht1⟩ : ∃ t, t = sfectlStored s.deferSync v1 := ⟨_, rfl⟩
  have hin1 : Writes (sfectlFields ++ vetFields) s t1 := ht1 ▸ ((deferSync_writes s).mono (by simp)).trans ((sfectlStored_writes _ v1).mono (by simp_all))
  have hgo1 : s.deferSync.sfeWrite rSFECTL v1 = t1 := ht1 ▸ sfectl_off ((on_of_fld (deferSync_fld (by decide) s)).trans he) he1
  have hen1 : t1.fld fSFECTL_EN = 0 := by rw [ht1, sfectlStored_fld _ _ rfl (by decide) (by decide), he1]
  have hns1 : t1.fld fSFECTL_NSLOT = dsArgs d 0 4 / 32 % 8 := by rw [ht1, sfectlStored_fld _ _ rfl (by decide) (by decide), hs1]
  -- SFERATE
  obtain ⟨v2, hv2⟩ : ∃ v, v = BitVec.ofNat 32 (dsArgs d 4 4) := ⟨_, rfl⟩
  obtain ⟨t2, ht2⟩ : ∃ t, t = t1.deferSync.plainWrite rSFERATE v2 := ⟨_, rfl⟩
  have hin2 : Front (storeFields rSFERATE) t1 t2 := ht2 ▸ frontPlain t1 _ _
  have hoff1 : t1.on fSFECTL_EN = false := by simp [State.on, hen1]
  have hgo2 : t1.deferSync.sfeWrite rSFERATE v2 = t2 := by
    rw [State.sfeWrite, if_neg (by decide), if_neg (by decide), if_pos rfl, on_of_fld (deferSync_fld (by decide) t1), hoff1,
      if_neg Bool.false_ne_true, ht2]
  have hr2 : t2.fld fSFERATE_N = dsArgs d 4 4 % 16384 := by
    rw [ht2, fld_plainWrite_stored _ _ specOf_sferate rfl (by decide), fldOf_eq_div, hv2, BitVec.toNat_ofNat]
    exact (by omega : dsArgs d 4 4 % 4294967296 / 1 % 16384 = dsArgs d 4 4 % 16384)
  -- SFEPER
  obtain ⟨v3, hv3⟩ : ∃ v, v = BitVec.ofNat 32 (dsArgs d 8 4) := ⟨_, rfl⟩
  obtain ⟨t3, ht3⟩ : ∃ t, t = t2.deferSync.plainWrite rSFEPER v3 := ⟨_, rfl⟩
  have hin3 : Front (storeFields rSFEPER) t2 t3 := ht3 ▸ frontPlain t2 _ _
  have hgo3 : t2.deferSync.sfeWrite rSFEPER v3 = t3 := by
    rw [State.sfeWrite, if_neg (by decide), if_neg (by decide), if_neg (by decide), if_neg (by decide), if_neg (by decide), if_neg (by decide),
      if_neg (by decide), ht3]
  have hp3 : t3.fld fSFEPER_PER = dsArgs d 8 4 := by
    rw [ht3, fld_plainWrite_stored _ _ specOf_sfeper rfl (by decide), fldOf_eq_div, hv3, BitVec.toNat_ofNat]
    exact (by omega : dsArgs d 8 4 % 4294967296 / 1 % 4294967296 = dsArgs d 8 4)
  -- SFEEXC
  obtain ⟨v4, hv4'⟩ : ∃ v, v = BitVec.ofNat 32 (dsArgs d 12 4 / 2 * 2 + s.fld fSFEEXC_EN) := ⟨_, rfl⟩
  have hx4 : fldOf v4 fSFEEXC_EN = 0 := by
    rw [fldOf_eq_div, hv4', BitVec.toNat_ofNat, fld_zero_of_off rfl hx]
    exact (by omega : (dsArgs d 12 4 / 2 * 2 + 0) % 4294967296 / 1 % 2 = 0)
  obtain ⟨t4, ht4⟩ : ∃ t, t = t3.deferSync.plainWrite rSFEEXC v4 := ⟨_, rfl⟩
  have hin4 : Front (storeFields rSFEEXC) t3 t4 := ht4 ▸ frontPlain t3 _ _
  have hx3 : t3.on fSFEEXC_EN = false := by rw [hin3.on (by decide), hin2.on (by decide), hin1.on (by decide), hx]
  have hgo4 : t3.deferSync.sfeWrite rSFEEXC v4 = t4 := by
    have hwant : t4.on fSFEEXC_EN = false := by
      rw [ht4, State.on, fld_plainWrite_stored _ _ specOf_sfeexc rfl (by decide), hx4]
      rfl
    have hen : t3.deferSync.on fSFEEXC_EN = false := (on_of_fld (deferSync_fld (by decide) t3)).trans hx3
    rw [State.sfeWrite, if_neg (by decide), if_pos rfl]
    unfold State.sfeWriteExc
    simp only [← ht4, hwant, hen, Bool.and_false, Bool.false_and, Bool.false_eq_true, if_false]
  -- The slots
  have hc1 : t1.fld fSACCLAIM_CLAIM = 0 := (hin1.kept _ (by decide)).trans hc
  have hc2 : t2.fld fSACCLAIM_CLAIM = 0 := (hin2.kept _ (by decide)).trans hc1
  have hc3 : t3.fld fSACCLAIM_CLAIM = 0 := (hin3.kept _ (by decide)).trans hc2
  have hc4 : t4.fld fSACCLAIM_CLAIM = 0 := (hin4.kept _ (by decide)).trans hc3
  obtain ⟨t, hgo, hb, hkept, hinp⟩ := slots_written (fun n => dsArgs d (16 + 2 * n) 2) (List.range 7) (fun n hn => List.mem_range.mp hn)
    List.nodup_range t4 hc4
  have hset : s.setup State.sfeWrite ([(rSFECTL, dsArgs d 0 4 / 2 * 2), (rSFERATE, dsArgs d 4 4), (rSFEPER, dsArgs d 8 4),
        (rSFEEXC, dsArgs d 12 4 / 2 * 2 + s.fld fSFEEXC_EN)] ++ (List.range 7).map (fun n => (rSFESLOT n, dsArgs d (16 + 2 * n) 2))) =
      ⟨t, stOK, 0, [], false⟩ := by
    rw [List.cons_append, List.cons_append, List.cons_append, List.cons_append, List.nil_append,
      setup_cons hc (sfeRegs_open _ (by simp)), ← hv1, hgo1, setup_cons hc1 (sfeRegs_open _ (by simp)), ← hv2, hgo2,
      setup_cons hc2 (sfeRegs_open _ (by simp)), ← hv3, hgo3, setup_cons hc3 (sfeRegs_open _ (by simp)), ← hv4', hgo4, hgo]
  have haddr {a : Nat} (h : a < 0x40011040) : ∀ n ∈ List.range 7, a ≠ rSFESLOT n := by
    intro n _
    simp only [rSFESLOT]
    omega
  refine ⟨t, congrArg Host.Outcome.next (sfe_done hr hm ((if_neg (Bool.eq_false_iff.mp he)).trans hset)), ?_, ?_, ?_, ?_, ?_, ?_⟩
  · rw [hkept _ (haddr (by decide)) (by decide), hin4.kept _ (by decide), hp3]
  · rw [hkept _ (haddr (by decide)) (by decide), hin4.kept _ (by decide), hin3.kept _ (by decide), hr2]
  · rw [on_of_fld (hkept _ (haddr (by decide)) (by decide)), hin4.on (by decide), hin3.on (by decide), hin2.on (by decide), hoff1]
  · rw [hkept _ (haddr (by decide)) (by decide), hin4.kept _ (by decide), hin3.kept _ (by decide), hin2.kept _ (by decide), hns1]
  · exact hinp 2 (by decide)
  · exact State.besidesAll_trans hin1.besidesAll (State.besidesAll_trans hin2.besidesAll (State.besidesAll_trans hin3.besidesAll
      (State.besidesAll_trans hin4.besidesAll hb)))

end

end Sys2Proof.Proofs
end

section
/-! PROOF. SFE_START, SFE_STOP and SFE_EXC (R402, R403, R409, R417). -/

namespace Sys2Proof.Proofs

open Sys2Proof Sys2Proof.Machine

variable {s t u : State} {v : Word} {d : Desc}

/-- The fields that tokens show, as the front end's. -/
theorem retoken_front (h : s.awake = true) : Front tokenFields s s.retoken := .ofWrites (retoken_writes h)

theorem sfeHalt_front (s : State) : Front [fSFESTAT_RUN, fSFESTAT_SCANBUSY, fSFESTAT_EXCON] s s.sfeHalt := by
  have h := (((Front.refl [fSFESTAT_RUN, fSFESTAT_SCANBUSY, fSFESTAT_EXCON] s).setFld (f := fSFESTAT_RUN) (by simp) 0).setFld
    (f := fSFESTAT_SCANBUSY) (by simp) 0).sfeSet (fun x => { x with held := false, again := false })
  unfold State.sfeHalt
  exact .ite ((h.sfeSet _).setFld (by simp) _) h

theorem sfeHalt_stops (s : State) : s.sfeHalt.on fSFESTAT_RUN = false ∧ s.sfeHalt.on fSFESTAT_SCANBUSY = false := by
  obtain ⟨w, hw⟩ : ∃ w, w = ((s.setFld fSFESTAT_RUN 0).setFld fSFESTAT_SCANBUSY 0).sfeSet (fun x => { x with held := false, again := false }) := ⟨_, rfl⟩
  have hrun : w.on fSFESTAT_RUN = false := by
    rw [hw, State.sfeSet_on, on_setFld_other _ _ _ _ (by decide), on_setFld_zero _ _ (by decide) (by decide)]
  have hscan : w.on fSFESTAT_SCANBUSY = false := by
    rw [hw, State.sfeSet_on, on_setFld_zero _ _ (by decide) (by decide)]
  have hoff : Front [fSFESTAT_EXCON] w w.vexOff := ((Front.refl _ w).sfeSet _).setFld (by simp) _
  have hhalt : s.sfeHalt = if w.on fSFEEXC_PULSE then w.vexOff else w := by
    rw [hw]
    rfl
  rw [hhalt]
  split
  · exact ⟨(hoff.on (by decide)).trans hrun, (hoff.on (by decide)).trans hscan⟩
  · exact ⟨hrun, hscan⟩

section

variable (hr : s.ready d = true) (hm : s.role = .cell ∨ s.role = .loop) (hc : s.fld fSACCLAIM_CLAIM = 0) (haw : s.awake = true)
include hr hm hc haw

theorem sfeStop_stops (he : s.on fSFECTL_EN = true) : ∃ t, exec (.sfeStop d) s = .next (t.complete d stOK 0 []) ∧ t.on fSFECTL_EN = false ∧
    t.on fSFESTAT_RUN = false ∧ t.on fSFESTAT_SCANBUSY = false ∧ s.besides t := by
  obtain ⟨v, hv⟩ : ∃ v, v = BitVec.ofNat 32 ((s.reg rSFECTL).toNat / 2 * 2) := ⟨_, rfl⟩
  have hv0 : fldOf v fSFECTL_EN = 0 := by
    have hlt : (s.reg rSFECTL).toNat < 4294967296 := (s.reg rSFECTL).isLt
    rw [fldOf_eq_div, hv, BitVec.toNat_ofNat]
    exact (by omega : (s.reg rSFECTL).toNat / 2 * 2 % 4294967296 / 1 % 2 = 0)
  obtain ⟨w, x, hw, hx, hgo⟩ := sfectl_stops (s := s.deferSync) (v := v) ((on_of_fld (deferSync_fld (by decide) s)).trans he) hv0
  obtain ⟨y, hy⟩ : ∃ y, y = sfectlStored w x := ⟨_, rfl⟩
  have hyin : Front sfectlFields w y := hy ▸ .ofWrites (sfectlStored_writes w x)
  have hyen : y.fld fSFECTL_EN = 0 := by rw [hy, sfectlStored_fld _ _ rfl (by decide) (by decide), hx]
  rw [← hy] at hgo
  have hh := sfeHalt_front y
  obtain ⟨hrun, hscan⟩ := sfeHalt_stops y
  have hsd : Front vetFields s s.deferSync := .ofWrites (deferSync_writes s)
  have hret := retoken_front (hh.awake (hyin.awake (hw.awake (hsd.awake haw))))
  have hset : s.setup State.sfeWrite [(rSFECTL, (s.reg rSFECTL).toNat / 2 * 2)] = ⟨y.sfeHalt.retoken, stOK, 0, [], false⟩ := by
    rw [setup_cons hc (sfeRegs_open _ (by simp)), ← hv, hgo, setup_nil]
  refine ⟨_, congrArg Host.Outcome.next (sfe_done hr hm hset), ?_, (hret.on (by decide)).trans hrun, (hret.on (by decide)).trans hscan, ?_⟩
  · rw [hret.on (by decide), hh.on (by decide), State.on, hyen]
    rfl
  · exact (State.besidesAll_trans hsd.besidesAll (State.besidesAll_trans hw.besidesAll (State.besidesAll_trans hyin.besidesAll
      (State.besidesAll_trans hh.besidesAll hret.besidesAll)))).1

omit hr hm in
/-- EN written by SFE_START at a rate that costs nothing. -/
theorem startWrites (hpll : s.on fCLKSTAT_PLLLOCK = true) (he : s.on fSFECTL_EN = false) (hn : 96 ≤ s.fld fSFERATE_N) : ∃ t,
    s.setup State.sfeWrite [(rSFECTL, (s.reg rSFECTL).toNat - ((s.reg rSFECTL).toNat &&& 0x11) + 1 + 0)] = ⟨t, stOK, 0, [], false⟩ ∧
    Front (sfectlFields ++ vetFields ++ tokenFields) s t ∧ t.on fSFECTL_EN = true ∧ t.fld fSFECTL_TRIG = s.fld fSFECTL_TRIG ∧ t.sfe.vex = s.sfe.vex := by
  obtain ⟨hEN, hTRIG⟩ := startWord_fields s
  have hsd : Front vetFields s s.deferSync := .ofWrites (deferSync_writes s)
  have hgo := sfectl_on (s := s.deferSync) (v := startWord s) ((hsd.on (by decide)).trans he) hEN ((hsd.on (by decide)).trans hpll)
    (by rw [hsd.kept _ (by decide)]; exact hn)
  obtain ⟨y, hy⟩ : ∃ y, y = (sfectlStored s.deferSync (startWord s)).sfeSet (fun x => { x with
      range := List.replicate 7 none, opens := List.replicate 7 0, held := false }) := ⟨_, rfl⟩
  have hyin : Front sfectlFields s.deferSync y := hy ▸ (Front.ofWrites (sfectlStored_writes _ _)).sfeSet _
  have hyen : y.fld fSFECTL_EN = 1 := by rw [hy, State.sfeSet_fld, sfectlStored_fld _ _ rfl (by decide) (by decide), hEN]
  have hytrig : y.fld fSFECTL_TRIG = s.fld fSFECTL_TRIG := by rw [hy, State.sfeSet_fld, sfectlStored_fld _ _ rfl (by decide) (by decide), hTRIG]
  have hyvex : y.sfe.vex = s.sfe.vex := by
    rw [hy, State.sfeSet_sfe]
    exact (congrArg Sfe.vex (sfectlStored_sfe _ _)).trans (congrArg Sfe.vex (deferSync_sfe s))
  have hyaw : y.awake = true := hyin.awake (hsd.awake haw)
  have hret := retoken_front hyaw
  refine ⟨y.retoken, ?_, (hsd.mono fun f hf => by simp [hf]).trans ((hyin.mono fun f hf => by simp [hf]).trans (hret.mono fun f hf => by simp [hf])), ?_, ?_, ?_⟩
  · rw [setup_cons hc (sfeRegs_open _ (by simp)), ← startWord, hgo, ← hy, setup_nil]
  · rw [hret.on (by decide), State.on, hyen]
    rfl
  · rw [hret.kept _ (by decide), hytrig]
  · rw [retoken_sfe hyaw, hyvex]

theorem sfeStart_runs (hheld : s.sfe.held = false) (harm : s.on fSFETH_ARM = false) (hpll : s.on fCLKSTAT_PLLLOCK = true)
    (hsp : s.clk.spireHeld = false) (he : s.on fSFECTL_EN = false) (htrig : s.fld fSFECTL_TRIG = 0) (hn : 96 ≤ s.fld fSFERATE_N)
    (hx : s.on fSFEEXC_EN = false) (hvex : s.sfe.vex = false) (hscan : s.on fSFESTAT_SCANBUSY = false) (h6 : dsArg d 6 = 0) : ∃ t,
    exec (.sfeStart d) s = .next (t.complete d stOK 0 []) ∧ t.on fSFECTL_EN = true ∧ t.on fSFESTAT_RUN = true ∧ t.sfe.slot = 0 ∧
      t.sfe.timeOwed = true ∧ t.sfe.cfg = (s.reg (rSFESLOT 0)).toNat ∧ s.besides t := by
  obtain ⟨t, hset, hin, hen, htr, hv⟩ := startWrites hc haw hpll he hn
  have htd : Front vetFields t t.deferSync := .ofWrites (deferSync_writes t)
  obtain ⟨u, hu⟩ : ∃ u, u = t.deferSync := ⟨_, rfl⟩
  rw [← hu] at htd
  have husfe : u.sfe = t.sfe := hu ▸ deferSync_sfe t
  have hidle : SfeIdle u := ⟨(htd.on (by decide)).trans hen, by rw [husfe, hv, hvex], by rw [htd.on (by decide), hin.on (by decide), hx],
    by rw [htd.on (by decide), hin.on (by decide), hscan]⟩
  have hgo : u.sfeWrite rSFEGO (BitVec.ofNat 32 1) = u.sfeBegin := by
    have hone : fldOf (BitVec.ofNat 32 1) fSFEGO_GO = 1 := by decide
    have hgo0 : u.trigGo = true := by rw [State.trigGo, htd.kept _ (by decide), htr, htrig]; rfl
    rw [State.sfeWrite, if_neg (by decide), if_neg (by decide), if_neg (by decide), if_pos rfl, hone, hgo0]
    exact (if_pos rfl).trans (sfeStart_begins hidle (by rw [htd.on (by decide), hin.on (by decide), hpll]) (by rw [htd.clk, hin.clk, hsp]))
  obtain ⟨hb, hrun, hslot, howed, hcfg⟩ := sfeBegin_spec u
  have hset2 : t.setup State.sfeWrite [(rSFEGO, 1)] = ⟨u.sfeBegin, stOK, 0, [], false⟩ := by
    rw [setup_cons ((hin.kept _ (by decide)).trans hc) (sfeRegs_open _ (by simp)), ← hu, hgo, setup_nil]
  have hreg : u.reg (rSFESLOT 0) = s.reg (rSFESLOT 0) := by
    have hwhole : u.fld (wholeReg (rSFESLOT 0)) = s.fld (wholeReg (rSFESLOT 0)) := by rw [htd.kept _ (by decide), hin.kept _ (by decide)]
    rw [State.fld, State.fld, fldOf_whole (f := wholeReg (rSFESLOT 0)) _ rfl rfl, fldOf_whole (f := wholeReg (rSFESLOT 0)) _ rfl rfl] at hwhole
    exact BitVec.eq_of_toNat_eq hwhole
  refine ⟨u.sfeBegin, congrArg Host.Outcome.next (sfe_done hr hm ?_), ?_, hrun, hslot, howed, by rw [hcfg, hreg], ?_⟩
  · have hb0 : bitAt 0 0 = false := by decide
    have hb1 : bitAt 0 1 = false := by decide
    have hspire : s.spireRefuses = false := by simp [State.spireRefuses, hpll]
    simp only [h6, hb0, hb1, hheld, harm, hspire, Bool.or_self, Bool.false_eq_true, if_false, hset, bne_self_eq_false, hen, Bool.not_true, hset2]
  · rw [hb.on (by decide), hidle.en]
  · exact (State.besidesAll_trans hin.besidesAll (State.besidesAll_trans htd.besidesAll hb.besidesAll)).1

theorem sfeExc_turnsOn (h0 : dsArg d 0 = 1) (hlo : dsArgs d 1 2 < 1024) (hhi : dsArgs d 3 2 < 1024) (hx : s.on fSFEEXC_EN = false)
    (hcost : s.fld fPWRCFG_EXC = 0) : ∃ t, exec (.sfeExc d) s = .next t ∧ t.sfe.vex = true ∧ t.sfe.settling = true ∧ t.sfe.desc = some d ∧
      t.on fSFEEXC_EN = true ∧ t.fld fSFEEXC_WINLO = dsArgs d 1 2 ∧ t.fld fSFEEXC_WINHI = dsArgs d 3 2 ∧ t.node = s.node ∧ s.besides t := by
  obtain ⟨v, hv⟩ : ∃ v, v = BitVec.ofNat 32 (1 + dsArgs d 1 2 * 2 ^ 4 + dsArgs d 3 2 * 2 ^ 16) := ⟨_, rfl⟩
  have hn : v.toNat = 1 + dsArgs d 1 2 * 2 ^ 4 + dsArgs d 3 2 * 2 ^ 16 := by
    rw [hv, BitVec.toNat_ofNat]
    omega
  obtain ⟨y, hy⟩ : ∃ y, y = s.deferSync.plainWrite rSFEEXC v := ⟨_, rfl⟩
  have hyin : Front (storeFields rSFEEXC) s y := hy ▸ frontPlain s _ _
  have hstored {g : Fld} (ha : g.addr = rSFEEXC) (hrw : ∀ j < g.w, (0x3FF3FF7 ||| 0).testBit (g.lo + j) = true ∧
      (0 ||| 0).testBit (g.lo + j) = false ∧ Nat.testBit 0 (g.lo + j) = false) : y.fld g = v.toNat / 2 ^ g.lo % 2 ^ g.w := by
    rw [hy, fld_plainWrite_stored _ _ specOf_sfeexc ha hrw, fldOf_eq_div]
  have hen : y.fld fSFEEXC_EN = 1 := by
    rw [hstored rfl (by decide), hn]
    exact (by omega : (1 + dsArgs d 1 2 * 16 + dsArgs d 3 2 * 65536) / 1 % 2 = 1)
  have hpulse : y.fld fSFEEXC_PULSE = 0 := by
    rw [hstored rfl (by decide), hn]
    exact (by omega : (1 + dsArgs d 1 2 * 16 + dsArgs d 3 2 * 65536) / 4 % 2 = 0)
  have hwlo : y.fld fSFEEXC_WINLO = dsArgs d 1 2 := by
    rw [hstored rfl (by decide), hn]
    exact (by omega : (1 + dsArgs d 1 2 * 16 + dsArgs d 3 2 * 65536) / 16 % 1024 = dsArgs d 1 2)
  have hwhi : y.fld fSFEEXC_WINHI = dsArgs d 3 2 := by
    rw [hstored rfl (by decide), hn]
    exact (by omega : (1 + dsArgs d 1 2 * 16 + dsArgs d 3 2 * 65536) / 65536 % 1024 = dsArgs d 3 2)
  have hyon : y.on fSFEEXC_EN = true := by rw [State.on, hen]; rfl
  have hyp : y.on fSFEEXC_PULSE = false := by rw [State.on, hpulse]; rfl
  have hfree : (y.setFld fSFEEXC_EN 0).tokensRefuse y.needNow = false := by
    rw [← needNow_freeExc (s := y) (by rw [hyin.kept _ (by decide), hcost]), tokensRefuse_same]
  have hvin : Front [] y y.vexOn := (Front.refl _ y).sfeSet _
  have haw' : y.vexOn.awake = true := hvin.awake (hyin.awake haw)
  have hret := retoken_front haw'
  have hgo : s.deferSync.sfeWrite rSFEEXC v = y.vexOn.retoken := by
    have hoff : s.deferSync.on fSFEEXC_EN = false := (on_of_fld (deferSync_fld (by decide) s)).trans hx
    rw [State.sfeWrite, if_neg (by decide), if_pos rfl]
    unfold State.sfeWriteExc
    simp only [← hy, hoff, hyon, hyp, hfree, Bool.not_false, Bool.and_self, Bool.false_eq_true, if_false, if_true]
  have hset : s.setup State.sfeWrite [(rSFEEXC, 1 + dsArgs d 1 2 * 2 ^ 4 + dsArgs d 3 2 * 2 ^ 16)] = ⟨y.vexOn.retoken, stOK, 0, [], false⟩ := by
    rw [setup_cons hc (sfeRegs_open _ (by simp)), ← hv, hgo, setup_nil]
  have hsfe : y.vexOn.retoken.sfe = y.vexOn.sfe := retoken_sfe haw'
  have hvs : y.vexOn.retoken.sfe.vex = true ∧ y.vexOn.retoken.sfe.settling = true := by
    rw [hsfe]
    exact ⟨rfl, rfl⟩
  have hon : y.vexOn.retoken.on fSFEEXC_EN = true := by rw [hret.on (by decide), hvin.on (by decide), hyon]
  obtain ⟨z, hz⟩ : ∃ z, z = y.vexOn.retoken := ⟨_, rfl⟩
  rw [← hz] at hret hset hvs hon
  obtain ⟨hzv, hzs⟩ := hvs
  have hzin : Front [] z (z.sfeSet fun x => { x with desc := some d }) := (Front.refl _ z).sfeSet _
  refine ⟨z.sfeSet (fun x => { x with desc := some d }), congrArg Host.Outcome.next (sfe_waits (st := stOK) (r := 0) (bs := []) hr hm ?_),
    hzv, hzs, rfl, hon, ?_, ?_, ?_, ?_⟩
  · have hb0 : bitAt 1 0 = true := by decide
    have hok : ¬ (8 ≤ 1 ∨ 1024 ≤ dsArgs d 1 2 ∨ 1024 ≤ dsArgs d 3 2) := by omega
    simp only [h0, hok, hb0, hset, hon, hzv, hzs, bne_self_eq_false, Bool.not_true, Bool.and_false, Bool.and_self, Bool.false_eq_true, if_false, if_true]
  · rw [hzin.kept _ (by decide), hret.kept _ (by decide), hvin.kept _ (by decide), hwlo]
  · rw [hzin.kept _ (by decide), hret.kept _ (by decide), hvin.kept _ (by decide), hwhi]
  · rw [hzin.node, hret.node, hvin.node, hyin.node]
  · exact (State.besidesAll_trans hyin.besidesAll (State.besidesAll_trans hvin.besidesAll (State.besidesAll_trans hret.besidesAll hzin.besidesAll))).1

end

end Sys2Proof.Proofs
end

section
/-! PROOF. The front end's events: starts, outputs, excitation and a filter without output (R403 to R410, R417 to R419). O26. -/

namespace Sys2Proof.Proofs

open Sys2Proof Sys2Proof.Machine

variable {s t u : State} {v : Word} {d : Desc} {x : SfeSample}

/-! ### A completion -/

/-- A completion changes the line, the host link, what is sent and the registers that show it, and nothing else. -/
def Answered (s t : State) : Prop := t = { s with regs := t.regs, node := t.node, scr := t.scr, hl := t.hl, out := t.out, pads := t.pads }

theorem Answered.trans (h : Answered s t) (k : Answered t u) : Answered s u := by
  rw [Answered, k, h]

theorem Answered.ofPosted (h : Posted s t) : Answered s t := by
  rw [h]
  rfl

theorem writeEntry_answered (s : State) (n slot : Nat) (entry : List Byte) : Answered s (s.writeEntry n slot entry).2 := by
  unfold State.writeEntry
  split
  next r _ =>
    split
    · have hsignal (x : State) (q : Ring) : Posted x (x.signal q) := .ite (msixTrigger_posted x _) (.refl x)
      exact (Answered.trans (t := ((s.emit (.hostWrite (r.cbase + 16 * (r.ctail % r.size)) entry)).setRing _).writeCtx _) rfl
        (.ofPosted (hsignal _ _))).trans rfl
    · rfl
  next => rfl

theorem endDrain_answered (s : State) (n : Nat) : Answered s (s.endDrain n) := by
  unfold State.endDrain
  split
  · dsimp only
    split <;> rfl
  · rfl

theorem finishHeld_answered (s : State) (h : Held) (entry : List Byte) : Answered s (s.finishHeld h entry) := by
  have hfree : Answered s { s with scr := { s.scr with held := s.scr.held.filter (fun x => x.tag != h.tag) } } := rfl
  unfold State.finishHeld
  dsimp only
  split
  · exact (hfree.trans (writeEntry_answered _ _ _ _)).trans (endDrain_answered _ _)
  · rfl

theorem sendEntry_answered (s : State) (d : Desc) (sent entry : List Byte) : Answered s (s.sendEntry d sent entry) := by
  have hsent {β : Type} (f : State → β → State) (hf : ∀ x c, Answered x (f x c)) (l : List β) : Answered s (l.foldl f s) :=
    List.foldlRecOn (motive := fun t : State => Answered s t) l f rfl fun t ht c _ => ht.trans (hf t c)
  unfold State.sendEntry
  split
  · dsimp only
    have hemit : Answered s (if sent.isEmpty then s else s.emit (.hostWrite (dsResaddr d) sent)) := by split <;> rfl
    split
    · exact hemit.trans (finishHeld_answered _ _ _)
    · exact hemit
  · exact (hsent (fun x c => x.queueUp 0x6 d.ring c) (fun _ _ => rfl) _).trans rfl
  · exact (hsent (fun (x : State) (c : List Byte) => x.emit (Out.frame .jack ⟨mkHdr 0x6 0 0 0 (s.fld fLINEADDR_CELLADDR) d.ring c.length d.seq d.seq 0 0, c⟩))
      (fun _ _ => rfl) _).trans rfl

theorem complete_sfe (s : State) (d : Desc) (st r : Nat) (bs : List Byte) : (s.complete d st r bs).sfe = s.sfe := by
  have h : Answered s (s.complete d st r bs) := sendEntry_answered s d _ _
  rw [h]

/-! ### Flags -/

theorem Posted.sfe (h : Posted s t) : t.sfe = s.sfe := by rw [h]

theorem flagEvent_sfe (s : State) (f : Fld) (code : Nat) (data : List Byte) : (s.flagEvent f code data).sfe = s.sfe := by
  rw [(flagEvent_posted s f code data).sfe]
  split <;> rfl

theorem flagEvent_besides (s : State) (f : Fld) (code : Nat) (data : List Byte) : s.besides (s.flagEvent f code data) := by
  refine State.besides_trans ?_ (flagEvent_posted s f code data).besides
  split
  · exact s.besides_refl
  · exact (s.besidesAll_setFld f 1).1

theorem sfeMiss_eq (s : State) (b : Nat) : s.sfeMiss 1 (some b) = (s.sfeSet (fun y => { y with missed := y.missed + 1, causes := y.causes ||| 2 ^ (b - 7) })).flagEvent
    (fSFE b) 0x0202 (leBytes 1 b ++ leBytes 4 1) := rfl

/-! ### Starts -/

theorem sfego_starts (hpll : s.on fCLKSTAT_PLLLOCK = true) (hsp : s.clk.spireHeld = false) (h : SfeIdle s) (htrig : s.fld fSFECTL_TRIG = 0) : ∃ t,
    exec (.sfego .sacristy 1) s = .next t ∧ t.on fSFESTAT_RUN = true ∧ t.sfe.slot = 0 ∧ t.sfe.timeOwed = true ∧ s.besidesAll t := by
  obtain ⟨hb, hrun, hslot, howed, -⟩ := sfeBegin_spec s
  refine ⟨s.sfeBegin, congrArg Host.Outcome.next ?_, hrun, hslot, howed, hb.besidesAll⟩
  have hone : fldOf 1 fSFEGO_GO = 1 := by decide
  have hgo : s.trigGo = true := by rw [State.trigGo, htrig]; rfl
  rw [vet_sacristy s 1 specOf_sfego, State.sfeWrite, if_neg (by decide), if_neg (by decide), if_neg (by decide), if_pos rfl, hone, hgo]
  exact (if_pos rfl).trans (sfeStart_begins h hpll hsp)

theorem sfeth_stored (s : State) (v : Word) : (s.plainWrite rSFETH v).fld fSFETH_TIME = v.toNat % 65536 ∧
    (s.plainWrite rSFETH v).fld fSFETH_ARM = v.toNat / 65536 % 2 := by
  refine ⟨?_, ?_⟩
  · rw [fld_plainWrite_stored s v specOf_sfeth rfl (by decide), fldOf_eq_div]
    exact congrArg (· % 65536) (Nat.div_one _)
  · rw [fld_plainWrite_stored s v specOf_sfeth rfl (by decide), fldOf_eq_div]
    rfl

/-- SFETH written with ARM. -/
def sfeArmedAt (s : State) (v : Word) : State :=
  ((s.plainWrite rSFETH v).setFld fSFETH_LATE 0).sfeSet (fun y => { y with due := s.fld fSFETL_TIME + v.toNat % 65536 * 2 ^ 32 })

theorem sfeArmedAt_missed (s : State) (v : Word) : (sfeArmedAt s v).sfe.missed = s.sfe.missed := by
  have hsfe : (sfeArmedAt s v).sfe = { (s.plainWrite rSFETH v).sfe with due := s.fld fSFETL_TIME + v.toNat % 65536 * 2 ^ 32 } := rfl
  rw [hsfe, plainWrite_sfe]

theorem sfeArmedAt_front (s : State) (v : Word) : Front [wholeReg rSFETH, fSFETH_LATE] s (sfeArmedAt s v) :=
  ((Front.ofWrites (plainWrite_writes s v (by simp))).setFld (by simp) 0).sfeSet _

/-- The start an arming leaves, before the test for a past time. -/
theorem sfeArm_goes (he : s.on fSFECTL_EN = true) (htrig : s.fld fSFECTL_TRIG = 2) (hv : v.toNat / 65536 = 1) :
    (sfeArmedAt s v).on fSFETH_ARM = true ∧ (sfeArmedAt s v).fld fSFECTL_TRIG = 2 ∧
    exec (.sfeArm .sacristy v) s = .next (if past (s.fld fSFETL_TIME + v.toNat % 65536 * 2 ^ 32) s.now then (sfeArmedAt s v).sfePast
      else sfeArmedAt s v) := by
  obtain ⟨htime, harm⟩ := sfeth_stored s v
  have hin := sfeArmedAt_front s v
  have hon : (s.plainWrite rSFETH v).on fSFETH_ARM = true := by rw [State.on, harm, hv]; rfl
  have hon' : (sfeArmedAt s v).on fSFETH_ARM = true := by
    rw [sfeArmedAt, State.sfeSet_on, on_setFld_other _ _ _ _ (by decide), hon]
  have hen : (sfeArmedAt s v).on fSFECTL_EN = true := (hin.on (by decide)).trans he
  have htr : (sfeArmedAt s v).fld fSFECTL_TRIG = 2 := (hin.kept _ (by decide)).trans htrig
  have htl : (s.plainWrite rSFETH v).fld fSFETL_TIME = s.fld fSFETL_TIME := plainWrite_kept (by decide) s v
  have harmed : (sfeArmedAt s v).sfeArmed = true := by
    rw [State.sfeArmed, hon', hen, State.trigGo, htr]
    rfl
  refine ⟨hon', htr, congrArg Host.Outcome.next ?_⟩
  have hdue : (sfeArmedAt s v).sfe.due = s.fld fSFETL_TIME + v.toNat % 65536 * 2 ^ 32 := rfl
  have hretest : (sfeArmedAt s v).sfeRetest = if past (s.fld fSFETL_TIME + v.toNat % 65536 * 2 ^ 32) s.now then (sfeArmedAt s v).sfePast
      else sfeArmedAt s v := by
    rw [State.sfeRetest, harmed, hdue, hin.now, Bool.true_and]
  rw [vet_sacristy s v specOf_sfeth, State.sfeWrite, if_neg (by decide), if_neg (by decide), if_neg (by decide), if_neg (by decide), if_pos rfl,
    ← hretest]
  simp only [hon, htime, htl, if_true]
  rfl

theorem sfeArm_waits (he : s.on fSFECTL_EN = true) (htrig : s.fld fSFECTL_TRIG = 2) (hv : v.toNat / 65536 = 1)
    (hp : past (s.fld fSFETL_TIME + v.toNat % 65536 * 2 ^ 32) s.now = false) : ∃ t, exec (.sfeArm .sacristy v) s = .next t ∧
      t.on fSFETH_ARM = true ∧ t.on fSFETH_LATE = false ∧ t.sfe.due = s.fld fSFETL_TIME + v.toNat % 65536 * 2 ^ 32 ∧ s.besidesAll t := by
  obtain ⟨hon, -, hgo⟩ := sfeArm_goes he htrig hv
  refine ⟨sfeArmedAt s v, hgo.trans (by rw [hp, if_neg Bool.false_ne_true]), hon, ?_, rfl, (sfeArmedAt_front s v).besidesAll⟩
  rw [sfeArmedAt, State.sfeSet_on, on_setFld_zero _ _ (by decide) (by decide)]

/-- A single start whose time is past and that is to be dropped. -/
theorem sfePast_drops (htrig : s.fld fSFECTL_TRIG = 2) (hdrop : s.on fSFECTL_LATEDROP = true) (hdue : s.sfe.due < 2 ^ 48) :
    s.sfePast.on fSFETH_ARM = false ∧ s.sfePast.on fSFETH_LATE = true ∧ s.sfePast.fld fSFELATE_LATE = lateness s.sfe.due s.now ∧
      s.sfePast.on fSFESTAT_RUN = s.on fSFESTAT_RUN ∧ s.sfePast.sfe.missed = s.sfe.missed + 1 ∧ s.besides s.sfePast := by
  have hd : min (2 ^ 32 - 1) ((s.now + 2 ^ 48 - s.sfe.due) % 2 ^ 48) = lateness s.sfe.due s.now := by
    rw [lateness, Nat.mod_eq_of_lt hdue]
  have hlt : lateness s.sfe.due s.now < 2 ^ 32 := by
    have hle : lateness s.sfe.due s.now ≤ 2 ^ 32 - 1 := Nat.min_le_left _ _
    omega
  obtain ⟨e, he⟩ : ∃ e, e = lateness s.sfe.due s.now := ⟨_, rfl⟩
  rw [← he] at hd hlt
  obtain ⟨w, hw⟩ : ∃ w, w = (s.setFld fSFETH_LATE 1).setFld fSFELATE_LATE e := ⟨_, rfl⟩
  have hwin : Front [fSFETH_LATE, fSFELATE_LATE] s w := hw ▸ ((Front.refl _ s).setFld (by simp) 1).setFld (by simp) _
  have hwl : w.on fSFETH_LATE = true := by
    rw [hw, on_setFld_other _ _ _ _ (by decide), on_setFld_one _ _ (by decide) (by decide)]
  have hwe : w.fld fSFELATE_LATE = e := by
    rw [hw, State.fld_setFld _ _ _ (by decide)]
    exact Nat.mod_eq_of_lt hlt
  have hws : w.sfe = s.sfe := by rw [hw]; rfl
  obtain ⟨y, hy⟩ : ∃ y, y = w.flagEvent (fSFE 8) 0x0203 (leBytes 4 e) := ⟨_, rfl⟩
  have hyf {g : Fld} (hg : (fSFE 8).other g = true) : y.fld g = w.fld g := hy ▸ flagEvent_fld hg w _ _
  have hys : y.sfe = s.sfe := (hy ▸ flagEvent_sfe w _ _ _).trans hws
  have hyb : w.besides y := hy ▸ flagEvent_besides w _ _ _
  have hlate : s.sfeLate s.sfe.due = y := by
    rw [hy, hw, ← hd]
    rfl
  obtain ⟨z, hz⟩ : ∃ z, z = (y.setFld fSFETH_ARM 0).sfeSet (fun q => { q with missed := q.missed + 1, causes := q.causes ||| 2 ^ (8 - 7) }) := ⟨_, rfl⟩
  have hzin : Front [fSFETH_ARM] y z := hz ▸ ((Front.refl _ y).setFld (by simp) 0).sfeSet _
  have hza : z.on fSFETH_ARM = false := by
    rw [hz, State.sfeSet_on, on_setFld_zero _ _ (by decide) (by decide)]
  have hzm : z.sfe.missed = s.sfe.missed + 1 := by
    rw [← hys, hz]
    rfl
  have hpast : s.sfePast = z.flagEvent (fSFE 8) 0x0202 (leBytes 1 8 ++ leBytes 4 1) := by
    have htr : y.fld fSFECTL_TRIG = 2 := by rw [hyf (by decide), hwin.kept _ (by decide), htrig]
    have hdr : y.on fSFECTL_LATEDROP = true := by rw [on_of_fld (hyf (by decide)), hwin.on (by decide), hdrop]
    have hnot : y.trigPeriodic = false := by rw [State.trigPeriodic, htr]; rfl
    have hmiss : (y.setFld fSFETH_ARM 0).sfeMiss 1 (some 8) = z.flagEvent (fSFE 8) 0x0202 (leBytes 1 8 ++ leBytes 4 1) := by
      rw [sfeMiss_eq, hz]
    unfold State.sfePast
    simp only [hlate, hnot, hdr, Bool.not_true, Bool.false_eq_true, if_false, hmiss]
  have hlast {g : Fld} (hg : (fSFE 8).other g = true) : s.sfePast.fld g = z.fld g := by rw [hpast, flagEvent_fld hg]
  refine ⟨?_, ?_, ?_, ?_, ?_, ?_⟩
  · rw [on_of_fld (hlast (by decide)), hza]
  · rw [on_of_fld (hlast (by decide)), hzin.on (by decide), on_of_fld (hyf (by decide)), hwl]
  · rw [hlast (by decide), hzin.kept _ (by decide), hyf (by decide), hwe, he]
  · rw [on_of_fld (hlast (by decide)), hzin.on (by decide), on_of_fld (hyf (by decide)), hwin.on (by decide)]
  · rw [hpast, flagEvent_sfe, hzm]
  · rw [hpast]
    exact State.besides_trans hwin.besidesAll.1 (State.besides_trans hyb (State.besides_trans hzin.besidesAll.1 (flagEvent_besides _ _ _ _)))

theorem sfeArm_drops (he : s.on fSFECTL_EN = true) (htrig : s.fld fSFECTL_TRIG = 2) (hv : v.toNat / 65536 = 1)
    (hp : past (s.fld fSFETL_TIME + v.toNat % 65536 * 2 ^ 32) s.now = true) (hdrop : s.on fSFECTL_LATEDROP = true) : ∃ t,
      exec (.sfeArm .sacristy v) s = .next t ∧ t.on fSFETH_ARM = false ∧ t.on fSFETH_LATE = true ∧
        t.fld fSFELATE_LATE = lateness (s.fld fSFETL_TIME + v.toNat % 65536 * 2 ^ 32) s.now ∧ t.on fSFESTAT_RUN = s.on fSFESTAT_RUN ∧
        t.sfe.missed = s.sfe.missed + 1 ∧ s.besides t := by
  obtain ⟨-, htr, hgo⟩ := sfeArm_goes he htrig hv
  have hin := sfeArmedAt_front s v
  have htl : s.fld fSFETL_TIME < 2 ^ 32 := fldOf_lt _ fSFETL_TIME
  have hdue : (sfeArmedAt s v).sfe.due = s.fld fSFETL_TIME + v.toNat % 65536 * 2 ^ 32 := rfl
  obtain ⟨harm, hlate, hby, hrun, hmiss, hb⟩ := sfePast_drops (s := sfeArmedAt s v) htr ((hin.on (by decide)).trans hdrop) (by rw [hdue]; omega)
  refine ⟨_, hgo.trans (by rw [hp, if_pos rfl]), harm, hlate, ?_, hrun.trans (hin.on (by decide)), ?_, State.besides_trans hin.besidesAll.1 hb⟩
  · rw [hby, hdue, hin.now]
  · rw [hmiss, sfeArmedAt_missed]

theorem sfeStartDue_starts (hpll : s.on fCLKSTAT_PLLLOCK = true) (hsp : s.clk.spireHeld = false) (h : SfeIdle s) (htrig : s.fld fSFECTL_TRIG = 2)
    (harm : s.on fSFETH_ARM = true) (hdue : s.sfe.due = s.now) : ∃ t, exec .sfeStartDue s = .next t ∧
      t.on fSFETH_ARM = false ∧ t.on fSFESTAT_RUN = true ∧ s.besidesAll t := by
  have hin : Front [fSFETH_ARM] s (s.setFld fSFETH_ARM 0) := (Front.refl _ s).setFld (by simp) 0
  have hidle : SfeIdle (s.setFld fSFETH_ARM 0) := ⟨(hin.on (by decide)).trans h.en, h.vex, (hin.on (by decide)).trans h.exc,
    (hin.on (by decide)).trans h.scan⟩
  obtain ⟨hb, hrun, -⟩ := sfeBegin_spec (s.setFld fSFETH_ARM 0)
  have harmed : s.sfeArmed = true := by
    rw [State.sfeArmed, harm, h.en, State.trigGo, htrig]
    rfl
  have hnot : s.trigPeriodic = false := by rw [State.trigPeriodic, htrig]; rfl
  refine ⟨(s.setFld fSFETH_ARM 0).sfeBegin, congrArg Host.Outcome.next ?_, ?_, hrun, State.besidesAll_trans hin.besidesAll hb.besidesAll⟩
  · simp only [harmed, hdue, hnot, Bool.not_true, Bool.false_eq_true, if_false, if_true]
    exact sfeStart_begins hidle ((hin.on (by decide)).trans hpll) hsp
  · rw [hb.on (by decide), on_setFld_zero _ _ (by decide) (by decide)]

/-! ### Excitation -/

theorem excSettled_shows (hvex : s.sfe.vex = true) (hset : s.sfe.settling = true) (hheld : s.sfe.held = false) (hd : s.sfe.desc = none) : ∃ t,
    exec (.excSettled true) s = .next t ∧ t.on fSFESTAT_EXCON = true ∧ t.sfe.settling = false ∧ s.besidesAll t := by
  have hin : Front [fSFESTAT_EXCON] s ((s.setFld fSFESTAT_EXCON 1).sfeSet (fun y => { y with settling := false, relevel := false })) :=
    ((Front.refl _ s).setFld (by simp) 1).sfeSet _
  refine ⟨(s.setFld fSFESTAT_EXCON 1).sfeSet (fun y => { y with settling := false, relevel := false }), congrArg Host.Outcome.next ?_, ?_, rfl, hin.besidesAll⟩
  · simp only [hvex, hset, Bool.not_true, Bool.or_self, Bool.false_eq_true, if_false, if_true, State.sfeSet_sfe, State.setFld_sfe, hd, hheld,
      Bool.false_and]
  · rw [State.sfeSet_on, on_setFld_one _ _ (by decide) (by decide)]

theorem excSettled_completes (hvex : s.sfe.vex = true) (hset : s.sfe.settling = true) (hheld : s.sfe.held = false) (hd : s.sfe.desc = some d) : ∃ t : State,
    exec (.excSettled true) s = .next (t.complete d stOK 0 []) ∧ t.on fSFESTAT_EXCON = true ∧ t.sfe.settling = false ∧ t.sfe.desc = none := by
  obtain ⟨t, ht⟩ : ∃ t, t = ((s.setFld fSFESTAT_EXCON 1).sfeSet (fun y => { y with settling := false, relevel := false })).sfeSet
      (fun y => { y with desc := none }) := ⟨_, rfl⟩
  have hts : t.sfe.settling = false ∧ t.sfe.desc = none ∧ t.sfe.held = s.sfe.held := by
    rw [ht]
    exact ⟨rfl, rfl, rfl⟩
  obtain ⟨hts, htd, hth⟩ := hts
  have hheld' : (t.complete d stOK 0 []).sfe.held = false := by rw [complete_sfe, hth, hheld]
  refine ⟨t, congrArg Host.Outcome.next ?_, ?_, hts, htd⟩
  · simp only [hvex, hset, Bool.not_true, Bool.or_self, Bool.false_eq_true, if_false, if_true, State.sfeSet_sfe, State.setFld_sfe, hd, ← ht, hheld',
      Bool.false_and]
  · rw [ht, State.sfeSet_on, State.sfeSet_on, on_setFld_one _ _ (by decide) (by decide)]

theorem excMonitor_settling (hvex : s.sfe.vex = true) (hset : s.sfe.settling = true) (i e : Nat) :
    exec (.excMonitor i e) s = .next (s.sets [(fSFEMON_IEXC, i), (fSFEMON_VEXS, e)]) := by
  refine congrArg Host.Outcome.next ?_
  have hs : (s.sets [(fSFEMON_IEXC, i), (fSFEMON_VEXS, e)]).sfe.settling = true := hset
  simp only [hvex, hs, Bool.not_true, Bool.false_eq_true, if_false, if_true]

theorem excCurrentLimit_stops (haw : s.awake = true) (hvex : s.sfe.vex = true) (hd : s.sfe.desc = none) : ∃ t, exec .excCurrentLimit s = .next t ∧
    t.on fSFEEXC_EN = false ∧ t.sfe.vex = false ∧ t.on fSFESTAT_EXCON = false ∧ s.besides t := by
  obtain ⟨w, hw⟩ : ∃ w, w = (s.setFld fSFEEXC_EN 0).vexOff.sfeSet (fun y => { y with susp := true }) := ⟨_, rfl⟩
  have hwin : Front [fSFEEXC_EN, fSFESTAT_EXCON] s w := by
    rw [hw]
    exact ((((Front.refl _ s).setFld (f := fSFEEXC_EN) (by simp) 0).sfeSet _).setFld (f := fSFESTAT_EXCON) (by simp) 0).sfeSet _
  have hwe : w.on fSFEEXC_EN = false := by
    rw [hw, State.sfeSet_on, State.vexOff, on_setFld_other _ _ _ _ (by decide), State.sfeSet_on, on_setFld_zero _ _ (by decide) (by decide)]
  have hwx : w.on fSFESTAT_EXCON = false := by
    rw [hw, State.sfeSet_on, State.vexOff, on_setFld_zero _ _ (by decide) (by decide)]
  have hws : w.sfe.vex = false ∧ w.sfe.desc = s.sfe.desc := by
    rw [hw]
    exact ⟨rfl, rfl⟩
  have hret := retoken_front (hwin.awake haw)
  have hrs := retoken_sfe (hwin.awake haw)
  obtain ⟨y, hy⟩ : ∃ y, y = w.retoken.flagEvent (fSFE 3) 0x0201 (leBytes 1 3 ++ leBytes 2 (w.retoken.fld fSFEMON_IEXC)) := ⟨_, rfl⟩
  have hexc : w.retoken.sfeExc 3 = y := hy.symm
  have hyf {g : Fld} (hg : (fSFE 3).other g = true) : y.fld g = w.retoken.fld g := hy ▸ flagEvent_fld hg _ _ _
  have hys : y.sfe = w.sfe := (hy ▸ flagEvent_sfe w.retoken _ _ _).trans hrs
  have hyb : w.retoken.besides y := hy ▸ flagEvent_besides _ _ _ _
  have hyd : y.sfe.desc = none := by rw [hys, hws.2, hd]
  refine ⟨y, congrArg Host.Outcome.next ?_, ?_, ?_, ?_, ?_⟩
  · simp only [hvex, Bool.not_true, Bool.false_eq_true, if_false, ← hw, hexc, hyd]
  · rw [on_of_fld (hyf (by decide)), hret.on (by decide), hwe]
  · rw [hys, hws.1]
  · rw [on_of_fld (hyf (by decide)), hret.on (by decide), hwx]
  · exact State.besides_trans hwin.besidesAll.1 (State.besides_trans hret.besidesAll.1 hyb)

theorem excPulseOn_drives (hx : s.on fSFEEXC_EN = true) (hpl : s.on fSFEEXC_PULSE = true) (hvex : s.sfe.vex = false) (he : s.on fSFECTL_EN = true)
    (harm : s.on fSFETH_ARM = true) (htrig : s.fld fSFECTL_TRIG = 2) : exec .excPulseOn s = .next { s with sfe := { s.sfe with
      vex := true, settling := true, relevel := false, loRun := 0, hiRun := 0 } } := by
  refine congrArg Host.Outcome.next ?_
  have harmed : s.sfeArmed = true := by
    rw [State.sfeArmed, harm, he, State.trigGo, htrig]
    rfl
  rw [hx, hpl, hvex, harmed]
  rfl

/-! ### No output -/

theorem convtmo_restarts (hrun : s.on fSFESTAT_RUN = true) (hscan : s.on fSFESTAT_SCANBUSY = false) : ∃ t, exec .convtmo s = .next t ∧
    t.sfe.timeOwed = true ∧ t.sfe.unset = (if s.on fSFECTL_REJ then 0 else 3) ∧ t.on fSFESTAT_RUN = true ∧ s.besides t := by
  obtain ⟨w, hw⟩ : ∃ w, w = s.sfeRestart.sfeSet (fun y => { y with timeOwed := true }) := ⟨_, rfl⟩
  have hwin : Front [] s w := hw ▸ ((Front.refl _ s).sfeSet _).sfeSet _
  have hws : w.sfe.timeOwed = true ∧ w.sfe.unset = (if s.on fSFECTL_REJ then 0 else 3) := by
    rw [hw]
    exact ⟨rfl, rfl⟩
  have hwscan : w.on fSFESTAT_SCANBUSY = false := (hwin.on (by decide)).trans hscan
  refine ⟨w.flagEvent fSFEFLAG_CONVTMO 0x0202 (leBytes 1 9 ++ leBytes 4 0), congrArg Host.Outcome.next ?_, ?_, ?_, ?_, ?_⟩
  · simp only [hrun, Bool.not_true, Bool.false_eq_true, if_false, ← hw, hwscan]
  · rw [flagEvent_sfe, hws.1]
  · rw [flagEvent_sfe, hws.2]
  · rw [on_of_fld (flagEvent_fld (by decide) _ _ _), hwin.on (by decide), hrun]
  · exact State.besides_trans hwin.besidesAll.1 (flagEvent_besides _ _ _ _)

/-! ### Outputs -/

theorem sfeStore_front (h : s.on (fSBWCFG_EN 1) = false) (w : Nat) : Front [] s (s.sfeStore w) ∧ (s.sfeStore w).sfe.unset = s.sfe.unset := by
  obtain ⟨p, hp⟩ : ∃ p, p = s.sfeSet (fun y => { y with
      timeOwed := false, sinceTime := 0, scanTime := if s.on fSFECTL_MODE then s.sfeTimeWord else y.scanTime }) := ⟨_, rfl⟩
  have hpin : Front [] s p := hp ▸ (Front.refl _ s).sfeSet _
  have hpu : p.sfe.unset = s.sfe.unset := by rw [hp]; rfl
  have hpw : p.on (fSBWCFG_EN 1) = false := (hpin.on (by decide)).trans h
  have hone (x : State) (hx : Front [] s x) (hu : x.sfe.unset = s.sfe.unset) :
      Front [] s (x.sfeSet (fun y => { y with sinceTime := y.sinceTime + 1 })) ∧
        (x.sfeSet (fun y => { y with sinceTime := y.sinceTime + 1 })).sfe.unset = s.sfe.unset := ⟨hx.sfeSet _, hu⟩
  have hoff (x : State) (hx : Front [] s x) : (x.sfeSet (fun y => { y with sinceTime := y.sinceTime + 1 })).on (fSBWCFG_EN 1) = false :=
    (hx.on (by decide)).trans h
  unfold State.sfeStore
  simp only [← hp, hpw, Bool.false_eq_true, if_false]
  split
  · rw [hoff p hpin, if_neg Bool.false_ne_true]
    exact hone p hpin hpu
  · rw [hoff s (.refl _ s), if_neg Bool.false_ne_true]
    exact hone s (.refl _ s) rfl

/-- CONT converting slot 0 at range 0 with nothing amiss. -/
structure SfeCalm (s : State) : Prop where
  en : s.on fSFECTL_EN = true
  run : s.on fSFESTAT_RUN = true
  held : s.on fSFESTAT_HELD = false
  cont : s.on fSFECTL_MODE = false
  role : s.role ≠ .loop
  slot : s.sfe.cfg = (s.reg (rSFESLOT 0)).toNat
  susp : s.sfe.susp = false
  cond : s.sfe.cond = 0
  set : s.sfe.settling = false
  vdda : s.on fPWRSRC_VDDAOK = true
  ofs : s.fld (fSFEOFS_OFS 0) = 0
  zero : s.sfe.cfg = 0

/-- The state after an output of CONT that calls for no other range. -/
def contTaken (u : State) : State := (u.sfeSet (fun y => { y with unset := y.unset - 1, susp := false })).sfeSet (fun y => { y with upCount := 0, upMin := 7 })

theorem contTaken_front (u : State) : Front [] u (contTaken u) := ((Front.refl _ u).sfeSet _).sfeSet _

theorem loopMapResult_noLoop (h : s.role ≠ .loop) (src : Nat) (y : Int) (bad : Bool) : s.loopMapResult src y bad = s := by
  rw [State.loopMapResult, if_pos]
  simp [h]

/-- An output of 1000 stored: settled it becomes the last word, else it is marked. -/
def contStored (s : State) : Bool → State
  | true => ((s.sfeSet (fun y => { y with opens := y.opens.set s.sfe.slot (min 2 0) })).sfeStore 1000).setFld (fSFELAST_WORD 0) 1000
  | false => s.sfeStore (1000 + 2 ^ 30)

theorem sfeOutput_goes (h : SfeCalm s) {b : Bool} (hb : decide (s.sfe.unset = 0) = b) (hw : s.on (fSBWCFG_EN 1) = false) :
    exec (.sfeOutput ⟨1000, false, false, false⟩) s = .next (contTaken (contStored s b)) := by
  obtain ⟨hen, hrun, hheld, hmode, hrole, hslot, hsusp, hcond, hset, hvdda, hofs, hzero⟩ := h
  have hcfg : (0 != s.slotCfg 0) = false := by rw [State.slotCfg, ← hslot, hzero]; rfl
  have hzeros (f : Fld) : cfgFld 0 f = 0 := by simp [cfgFld, bitsOf]
  have hrange (n : Nat) : s.slotRange n 0 = 0 := by simp [State.slotRange, hzeros]
  have hcode : clampInt (-sfeF) (sfeF - 1) (1000 - signed 24 0) = 1000 := by decide
  have hword : sfeWord 1000 0 0 false false = 1000 ∧ sfeWord 1000 0 0 true false = 1000 + 2 ^ 30 := by decide
  have hsus : s.sfeSusp false false = false := by simp [State.sfeSusp, hsusp, hcond, hvdda, hset]
  have hovl : decide ((1000 : Int) = sfeF - 1) = false ∧ decide ((1000 : Int) = -sfeF) = false := by decide
  have h01 : ¬ (0 = 1) ∧ ¬ (0 = 4) ∧ ¬ (2 ≤ 0) := by decide
  have hrole' : (((s.sfeSet (fun y => { y with opens := y.opens.set s.sfe.slot (min 2 0) })).sfeStore 1000).setFld (fSFELAST_WORD 0) 1000).role ≠ .loop := by
    have hin : Front [] s (s.sfeSet (fun y => { y with opens := y.opens.set s.sfe.slot (min 2 0) })) := (Front.refl _ s).sfeSet _
    have hr := (sfeStore_front ((hin.on (by decide)).trans hw) 1000).1.role
    exact fun hl => hrole (hr.symm.trans hl)
  refine congrArg Host.Outcome.next ?_
  simp only [hen, hrun, hheld, hmode, hzero, hcfg, hzeros, hrange, hofs, hcode, hsus, hb, hovl.1, hovl.2, h01.1, h01.2.1, h01.2.2, Bool.not_true,
    Bool.not_false, Bool.or_self, Bool.false_or, Bool.and_false, Bool.false_and, Bool.and_self, Bool.false_eq_true, if_false, decide_false]
  cases b
  case false =>
    simp only [Bool.false_eq_true, if_false, Bool.not_false, hword.2, hvdda, if_true]
    rfl
  case true =>
    simp only [if_true, State.sfeSet_on, hvdda, Bool.not_true, hword.1, loopMapResult_noLoop hrole']
    rfl

theorem sfeOutput_settled (h : SfeCalm s) (hw : s.on (fSBWCFG_EN 1) = false) (hun : s.sfe.unset = 0) : ∃ t,
    exec (.sfeOutput ⟨1000, false, false, false⟩) s = .next t ∧ t.fld (fSFELAST_WORD 0) = 1000 ∧ s.besidesAll t := by
  obtain ⟨u, hu⟩ : ∃ u, u = s.sfeSet (fun y => { y with opens := y.opens.set s.sfe.slot (min 2 0) }) := ⟨_, rfl⟩
  have hin : Front [] s u := hu ▸ (Front.refl _ s).sfeSet _
  obtain ⟨hstore, -⟩ := sfeStore_front ((hin.on (by decide)).trans hw) 1000
  have hstored : contStored s true = (u.sfeStore 1000).setFld (fSFELAST_WORD 0) 1000 := by rw [hu]; rfl
  refine ⟨contTaken (contStored s true), sfeOutput_goes h (decide_eq_true hun) hw, ?_, ?_⟩
  · rw [(contTaken_front _).kept _ (by decide), hstored, State.fld_setFld _ _ _ (by decide)]
    rfl
  · rw [hstored]
    exact State.besidesAll_trans hin.besidesAll (State.besidesAll_trans hstore.besidesAll (State.besidesAll_trans (State.besidesAll_setFld _ _ _)
      (contTaken_front _).besidesAll))

theorem sfeOutput_unsettled (h : SfeCalm s) (hw : s.on (fSBWCFG_EN 1) = false) (hun : 0 < s.sfe.unset) : ∃ t,
    exec (.sfeOutput ⟨1000, false, false, false⟩) s = .next t ∧ t.fld (fSFELAST_WORD 0) = s.fld (fSFELAST_WORD 0) ∧
      t.sfe.unset = s.sfe.unset - 1 ∧ s.besidesAll t := by
  obtain ⟨hstore, hunset⟩ := sfeStore_front hw (1000 + 2 ^ 30)
  obtain ⟨y, hy⟩ : ∃ y, y = s.sfeStore (1000 + 2 ^ 30) := ⟨_, rfl⟩
  have hstored : contStored s false = y := hy.symm
  rw [← hy] at hstore hunset
  refine ⟨contTaken y, hstored ▸ sfeOutput_goes h (decide_eq_false (by omega)) hw, ?_, ?_, State.besidesAll_trans hstore.besidesAll
    (contTaken_front y).besidesAll⟩
  · rw [(contTaken_front y).kept _ (by decide), hstore.kept _ (by decide)]
  · rw [← hunset]
    rfl

/-- Settles O26, one lemma for each descriptor and each event. -/
theorem frontEnd : Obligations.FrontEnd := by
  unfold Obligations.FrontEnd
  refine ⟨fun s d avg hr hm hc haw hheld harm => ?_, fun s v x i e haw hsp hpll => ?_⟩
  · exact ⟨sfeSetup_busy hr hm, sfeSetup_stores hr hm hc, sfeStart_clock hr hm hheld harm,
      fun hpll hsp he htrig hn hx hvex hscan h6 => sfeStart_runs hr hm hc haw hheld harm hpll hsp he htrig hn hx hvex hscan h6,
      sfeStop_stops hr hm hc haw, sfeExc_turnsOn hr hm hc haw, sfeExc_invalid hr hm, sfeRead_answers hr hm,
      fun hpll he h1 havg => havg ▸ sfeCal_takes hr hm hc hpll he h1, sfeQuery_answers hr hm⟩
  · refine ⟨fun ⟨he, _, hvex, hx, hscan⟩ htrig => sfego_starts hpll hsp ⟨he, hvex, hx, hscan⟩ htrig, fun ⟨he, _⟩ htrig hv => ?_,
      fun ⟨he, _, hvex, hx, hscan⟩ htrig harm hdue => sfeStartDue_starts hpll hsp ⟨he, hvex, hx, hscan⟩ htrig harm hdue,
      fun he hrun hheld hmode hrole hslot hw hsusp hcond hset hvdda hx hofs hzero => ?_, fun hvex hset hheld => ?_,
      excCurrentLimit_stops haw, excPulseOn_drives, convtmo_restarts⟩
    · exact ⟨sfeArm_waits he htrig hv, sfeArm_drops he htrig hv⟩
    · have hcalm : SfeCalm s := ⟨he, hrun, hheld, hmode, hrole, hslot, hsusp, hcond, hset, hvdda, hofs, hzero⟩
      exact hx ▸ ⟨sfeOutput_settled hcalm hw, sfeOutput_unsettled hcalm hw⟩
    · exact ⟨excSettled_shows hvex hset hheld, fun d hd => excSettled_completes hvex hset hheld hd, fun _ _ => excMonitor_settling hvex hset i e⟩

end Sys2Proof.Proofs
end

section
/-! PROOF. A host-link reset (R222 to R224): what it leaves of the link, the Scriptorium, the tags and the causes. O38. -/

namespace Sys2Proof.Proofs

open Sys2Proof Sys2Proof.Machine

variable {s t u : State}

/-! ### A block back at its Reset column -/

theorem rget_cons_ne (r : RegFile) {p : Nat × Word} {a : Nat} (h : p.1 ≠ a) : rget (p :: r) a = rget r a := by
  obtain ⟨k, w⟩ := p
  rw [rget, if_neg h]

theorem rget_append_absent (r q : RegFile) (a : Nat) (h : ∀ p ∈ q, p.1 ≠ a) : rget (r ++ q) a = rget r a := by
  induction r with
  | nil =>
    induction q with
    | nil => rfl
    | cons p q ih =>
      rw [List.nil_append, rget_cons_ne _ (h p (List.mem_cons_self ..))]
      exact ih fun x hx => h x (List.mem_cons_of_mem _ hx)
  | cons p r ih => rw [List.cons_append, rget, rget, ih]

theorem rget_absent_append (r q : RegFile) (a : Nat) (h : ∀ p ∈ r, p.1 ≠ a) : rget (r ++ q) a = rget q a := by
  induction r with
  | nil => rfl
  | cons p r ih =>
    rw [List.cons_append, rget_cons_ne _ (h p (List.mem_cons_self ..))]
    exact ih fun x hx => h x (List.mem_cons_of_mem _ hx)

theorem rget_filter_kept (r : RegFile) (p : Nat × Word → Bool) (a : Nat) (h : ∀ w, p (a, w) = true) : rget (r.filter p) a = rget r a := by
  induction r with
  | nil => rfl
  | cons x r ih =>
    obtain ⟨k, w⟩ := x
    by_cases hk : k = a
    case pos =>
      subst hk
      rw [List.filter_cons_of_pos (h w), rget, rget, if_pos rfl, if_pos rfl]
    case neg =>
      rw [rget, if_neg hk, ← ih, List.filter_cons]
      split
      · rw [rget, if_neg hk]
      · rfl

/-- A reset of one address range leaves the registers outside it. -/
theorem rget_rreset_outside (r : RegFile) {lo hi a : Nat} (vals : List (Nat × Word)) (hlh : lo ≤ hi) (h : a < lo ∨ hi ≤ a) :
    rget (rreset r lo hi vals) a = rget r a := by
  have hvals : ∀ p ∈ vals.filter (fun p => lo ≤ p.1 && p.1 < hi), p.1 ≠ a := fun p hp => by
    have hin := (List.mem_filter.mp hp).2
    simp only [Bool.and_eq_true, decide_eq_true_eq] at hin
    omega
  obtain hlow | hhigh := h
  · have habove : ∀ p ∈ r.filter (fun p => hi ≤ p.1), p.1 ≠ a := fun p hp => by
      have := of_decide_eq_true (List.mem_filter.mp hp).2
      omega
    rw [rreset, rget_append_absent _ _ _ habove, rget_append_absent _ _ _ hvals, rget_filter_kept _ _ _ fun w => decide_eq_true hlow]
  · have hbelow : ∀ p ∈ r.filter (fun p => p.1 < lo), p.1 ≠ a := fun p hp => by
      have := of_decide_eq_true (List.mem_filter.mp hp).2
      omega
    rw [rreset, List.append_assoc, rget_absent_append _ _ _ hbelow, rget_absent_append _ _ _ hvals,
      rget_filter_kept _ _ _ fun w => decide_eq_true hhigh]

theorem fld_resetBlock_outside (s : State) {k : Nat} {f : Fld} (h : f.addr < blockBase k ∨ blockBase (k + 1) ≤ f.addr) :
    (s.resetBlock k).fld f = s.fld f :=
  congrArg (fldOf · f) (rget_rreset_outside s.regs resetRegs (by simp only [blockBase]; omega) h)

/-! ### The stages of a host-link reset -/

/-- The part with the Scriptorium empty and the link's configuration gone, before a register is touched. -/
def linkEmptied (s : State) : State :=
  { s with
    scr := s.scrReset
    drv := { s.drv with fwd := [], pendWalk := none, powerDesc := none }
    descCache := []
    hl := { perstLow := s.hl.perstLow, vphyGood := s.hl.vphyGood, refLock := s.hl.refLock, winAns := s.hl.winAns } }

/-- The fields a host-link reset writes outside the Scriptorium's Reset column, up to the link's own state. -/
def linkFields : List Fld := [fSCLANE_FENCED, fSCLANE_CAUSE, fTAGSTAT_FREE, fTAGSTAT_RELEASING, fSCTAG_FREE, wholeReg rHLSTAT,
  wholeReg rHLFLAG, wholeReg rHLWERR, fHLSTAT_REFOK, fHLSTAT_SCRRDY]

/-- The registers after a host-link reset, with the link's own state and the flags yet to be set. -/
def linkRegsReset (s : State) : State :=
  let t := ((linkEmptied s).resetBlock 13).sets (copyFlds s.regs [fSCLANE_FENCED, fSCLANE_CAUSE])
  let t := t.sets [(fTAGSTAT_FREE, 1024), (fTAGSTAT_RELEASING, 0), (fSCTAG_FREE, 1024)]
  let t := (t.setReg rHLSTAT 0).setReg rHLFLAG 0
  (t.setReg rHLWERR 0).sets [(fHLSTAT_REFOK, b2n s.hl.refLock), (fHLSTAT_SCRRDY, b2n (s.on fHLSTAT_SCRRDY))]

theorem linkRegsReset_writes (s : State) : Writes linkFields ((linkEmptied s).resetBlock 13) (linkRegsReset s) := by
  have hput {l : List Fld} {v w : State} (h : Writes l v w) (p : List (Fld × Nat)) (hp : p.map Prod.fst ⊆ l) : Writes l v (w.sets p) :=
    h.trans ((sets_writes w p).mono hp)
  unfold linkRegsReset
  simp only [setReg_eq_setFld]
  refine hput (((Writes.setFld (Writes.setFld (hput (hput (.refl _ _) _ ?lane) _ ?tags) ?stat _) ?flag _).setFld ?werr _)) _ ?link
  all_goals simp [copyFlds, linkFields]

theorem fld_linkRegsReset_free (s : State) : (linkRegsReset s).fld fTAGSTAT_FREE = 1024 := by
  unfold linkRegsReset
  simp only [setReg_eq_setFld, State.sets_cons, State.sets_nil]
  rw [State.fld_setFld_other _ _ _ _ (by decide), State.fld_setFld_other _ _ _ _ (by decide), State.fld_setFld_other _ _ _ _ (by decide),
    State.fld_setFld_other _ _ _ _ (by decide), State.fld_setFld_other _ _ _ _ (by decide), State.fld_setFld_other _ _ _ _ (by decide),
    State.fld_setFld_other _ _ _ _ (by decide), State.fld_setFld _ _ _ (by decide)]
  rfl

theorem on_linkRegsReset_d3 (s : State) : (linkRegsReset s).on fHLSTAT_D3 = false := by
  have hzero : ∀ v : State, (v.setReg rHLSTAT 0).fld fHLSTAT_D3 = 0 := fun v => by
    rw [State.fld, show fHLSTAT_D3.addr = rHLSTAT from rfl, State.reg_setReg_same]
    decide
  unfold linkRegsReset
  simp only [State.sets_cons, State.sets_nil]
  rw [on_setFld_other _ _ _ _ (by decide), on_setFld_other _ _ _ _ (by decide), setReg_eq_setFld, on_setFld_other _ _ _ _ (by decide),
    setReg_eq_setFld, on_setFld_other _ _ _ _ (by decide), State.on, hzero]
  rfl

theorem on_linkRegsReset_linkup (s : State) : (linkRegsReset s).on fHLSTAT_LINKUP = false := by
  have hzero : ∀ v : State, (v.setReg rHLSTAT 0).fld fHLSTAT_LINKUP = 0 := fun v => by
    rw [State.fld, show fHLSTAT_LINKUP.addr = rHLSTAT from rfl, State.reg_setReg_same]
    decide
  unfold linkRegsReset
  simp only [State.sets_cons, State.sets_nil]
  rw [on_setFld_other _ _ _ _ (by decide), on_setFld_other _ _ _ _ (by decide), setReg_eq_setFld, on_setFld_other _ _ _ _ (by decide),
    setReg_eq_setFld, on_setFld_other _ _ _ _ (by decide), State.on, hzero]
  rfl

theorem fld_linkRegsReset_refok (s : State) : (linkRegsReset s).fld fHLSTAT_REFOK = b2n s.hl.refLock := by
  unfold linkRegsReset
  simp only [State.sets_cons, State.sets_nil]
  rw [State.fld_setFld_other _ _ _ _ (by decide), State.fld_setFld _ _ _ (by decide)]
  cases s.hl.refLock <;> rfl

theorem on_linkRegsReset_cfgrdy (s : State) : (linkRegsReset s).on fHLCTL_CFGRDY = s.on fHLCTL_CFGRDY :=
  ((linkRegsReset_writes s).on (by decide)).trans (on_of_fld (fld_resetBlock_outside _ (by decide)))

/-- The link's own state: down with its flag and its count, or as it was. -/
def linkFate (s t : State) (down : Bool) : State :=
  if s.on fHLSTAT_LINKUP && down then (t.raise [fHLFLAG_LINKDOWN]).count fHLCNT_LINKDN
  else t.sets [(fHLSTAT_LINKUP, b2n (s.on fHLSTAT_LINKUP)), (fHLSTAT_GEN2, s.fld fHLSTAT_GEN2)]

theorem linkFate_writes (s t : State) (down : Bool) :
    Writes [fHLFLAG_LINKDOWN, fHLCNT_LINKDN, fHLSTAT_LINKUP, fHLSTAT_GEN2] t (linkFate s t down) := by
  refine .ite (((Writes.refl _ t).setFld ?flag 1).setFld ?count _) (((Writes.refl _ t).setFld ?up _).setFld ?gen _)
  all_goals simp

/-- The flag of the reset and kind 9 in HIST. -/
def linkCaused (t : State) (f : Fld) : State := (t.raise [f]).causeSet 9

/-- Kind 9 has no scope of its own, so the last cause stays. -/
theorem causeSet_link (s : State) : s.causeSet 9 = s.setFld fRSTCAUSE_HIST (s.fld fRSTCAUSE_HIST ||| 2 ^ 9) := rfl

theorem linkCaused_writes (t : State) (f : Fld) : Writes [f, fRSTCAUSE_HIST] t (linkCaused t f) := by
  rw [linkCaused, causeSet_link]
  exact ((Writes.refl _ t).setFld (by simp) 1).setFld (by simp) _

/-- A host-link reset with no core's read on the link. -/
theorem hlReset_unasked (h : s.hl.winAsk = none) (f : Fld) (down : Bool) :
    s.hlReset [f] down = linkCaused (linkFate s (linkRegsReset s) down) f := by
  unfold State.hlReset
  rw [h]
  rfl

/-! ### What a host-link reset leaves -/

/-- What every host-link reset has in common. -/
def LinkReset (s t : State) : Prop :=
  t.scr.rings = [] ∧ t.scr.held = [] ∧ t.hl.bme = false ∧ t.hl.msixEn = false ∧ t.hl.vecs = [] ∧
    t.fld fTAGSTAT_FREE = 1024 ∧ t.on fHLSTAT_D3 = false ∧ t.on fHLCTL_CFGRDY = s.on fHLCTL_CFGRDY ∧ (t.fld fRSTCAUSE_HIST).testBit 9 = true ∧
    t.role = s.role ∧ t.dec = s.dec ∧ t.cant = s.cant ∧ t.mem = s.mem ∧ t.node = s.node ∧ t.out = s.out ∧ t.pending = s.pending

/-- The flags of the host link, by which a reset is told. -/
def hostFlags : List Fld := [fHLFLAG_PERST, fHLFLAG_HOTRST, fHLFLAG_FLR, fHLFLAG_LINKDOWN, fHLFLAG_REFLOST]

/-- What the end of a host-link reset writes. -/
def fateFields (f : Fld) : List Fld := [fHLFLAG_LINKDOWN, fHLCNT_LINKDN, fHLSTAT_LINKUP, fHLSTAT_GEN2, f, fRSTCAUSE_HIST]

section
variable {f : Fld} (h : s.hl.winAsk = none) (hf : f ∈ hostFlags) (down : Bool)
include h

theorem hlReset_writes : Writes (fateFields f) (linkRegsReset s) (s.hlReset [f] down) := by
  rw [hlReset_unasked h]
  exact ((linkFate_writes s _ down).mono (by simp [fateFields])).trans ((linkCaused_writes _ f).mono (by simp [fateFields]))

theorem hlReset_regs : s.hlReset [f] down = { linkEmptied s with regs := (s.hlReset [f] down).regs } := by
  have hblock : (linkEmptied s).resetBlock 13 = { linkEmptied s with regs := ((linkEmptied s).resetBlock 13).regs } := rfl
  rw [(hlReset_writes h down).regs, (linkRegsReset_writes s).regs, hblock]

theorem testBit_hlReset_hist : ((s.hlReset [f] down).fld fRSTCAUSE_HIST).testBit 9 = true := by
  rw [hlReset_unasked h, linkCaused, causeSet_link, fld_setFld_latch _ _ (by decide) (by decide), Nat.testBit_or, Nat.testBit_two_pow_self, Bool.or_true]

theorem hlReset_hl : (s.hlReset [f] down).hl = (linkEmptied s).hl := by rw [hlReset_regs h]

include hf

theorem on_hlReset_flag : (s.hlReset [f] down).on f = true := by
  have hflag : f.addr = rHLFLAG ∧ 0 < f.w ∧ f.lo + f.w ≤ 32 := (by decide : ∀ f ∈ hostFlags, f.addr = rHLFLAG ∧ 0 < f.w ∧ f.lo + f.w ≤ 32) f hf
  obtain ⟨haddr, hw, hlo⟩ := hflag
  rw [hlReset_unasked h, linkCaused, causeSet_link, on_setFld_other _ _ _ _ (by simp [Fld.other, haddr, rHLFLAG, fRSTCAUSE_HIST]), State.raise_cons,
    State.raise_nil, on_setFld_one _ _ hw hlo]

omit h in
theorem fateFields_apart {g : Fld} (hg : ((hostFlags ++ [fHLCNT_LINKDN, fHLSTAT_LINKUP, fHLSTAT_GEN2, fRSTCAUSE_HIST]).all (·.other g)) = true) :
    (fateFields f).all (fun x => x.other g) = true := by
  rw [List.all_eq_true] at hg ⊢
  intro x hx
  refine hg x ?_
  simp only [fateFields, List.mem_cons, List.not_mem_nil, or_false] at hx
  obtain rfl | rfl | rfl | rfl | rfl | rfl := hx
  case inr.inr.inr.inr.inl => exact List.mem_append_left _ hf
  all_goals simp [hostFlags]

theorem hlReset_linkReset : LinkReset s (s.hlReset [f] down) := by
  have hw := hlReset_writes (f := f) h down
  have hr := hlReset_regs (f := f) h down
  refine ⟨by rw [hr]; rfl, by rw [hr]; rfl, by rw [hr]; rfl, by rw [hr]; rfl, by rw [hr]; rfl, ?free, ?d3, ?ready, testBit_hlReset_hist h down,
    by rw [hr]; rfl, by rw [hr]; rfl, by rw [hr]; rfl, by rw [hr]; rfl, by rw [hr]; rfl, by rw [hr]; rfl, by rw [hr]; rfl⟩
  case free => exact (hw.kept _ (fateFields_apart hf (by decide))).trans (fld_linkRegsReset_free s)
  case d3 => exact (hw.on (fateFields_apart hf (by decide))).trans (on_linkRegsReset_d3 s)
  case ready => exact (hw.on (fateFields_apart hf (by decide))).trans (on_linkRegsReset_cfgrdy s)

theorem on_hlReset_refok : (s.hlReset [f] down).fld fHLSTAT_REFOK = b2n s.hl.refLock :=
  ((hlReset_writes h down).kept _ (fateFields_apart hf (by decide))).trans (fld_linkRegsReset_refok s)

/-- The link is up afterwards if it was and did not leave DL_Active. -/
theorem on_hlReset_linkup (hup : s.on fHLSTAT_LINKUP = true) : (s.hlReset [f] down).on fHLSTAT_LINKUP = !down := by
  have hother : ([f, fRSTCAUSE_HIST].all fun x => x.other fHLSTAT_LINKUP) = true :=
    (by decide : ∀ f ∈ hostFlags, ([f, fRSTCAUSE_HIST].all fun x => x.other fHLSTAT_LINKUP) = true) f hf
  rw [hlReset_unasked h, (linkCaused_writes _ f).on hother, linkFate, hup]
  cases down with
  | true =>
    rw [Bool.and_self, if_pos rfl, State.count, on_setFld_other _ _ _ _ (by decide), State.raise_cons, State.raise_nil,
      on_setFld_other _ _ _ _ (by decide), on_linkRegsReset_linkup]
    rfl
  | false =>
    rw [Bool.and_false, if_neg Bool.false_ne_true, State.sets_cons, State.sets_cons, State.sets_nil]
    exact (on_setFld_other _ fHLSTAT_GEN2 fHLSTAT_LINKUP _ (by decide)).trans (on_setFld_one _ fHLSTAT_LINKUP (by decide) (by decide))

end

end Sys2Proof.Proofs
end

section
/-! PROOF. What the host does over the link and the link's own events (R214 to R221, R227 to R230, R254). O38. -/

namespace Sys2Proof.Proofs

open Sys2Proof Sys2Proof.Machine

variable {s t u : State} {w l : Nat} {v : Fin 64}

/-! ### Resets by name -/

section
variable (hc : s.role = .chapter) (hup : s.on fHLSTAT_LINKUP = true) (hask : s.hl.winAsk = none)
include hc hask

theorem perst_resets (hup : s.on fHLSTAT_LINKUP = true) : ∃ t : State, exec .perst s = .next t ∧ LinkReset s t ∧
    t.on fHLSTAT_LINKUP = false ∧ t.on fHLFLAG_PERST = true ∧ t.hl.perstLow = true := by
  let u : State := s.setHl (fun h => { h with perstLow := true })
  have hu : u.hl.winAsk = none := hask
  have hf : fHLFLAG_PERST ∈ hostFlags := by simp [hostFlags]
  refine ⟨u.hlReset [fHLFLAG_PERST] true, ?_, hlReset_linkReset hu hf true, on_hlReset_linkup hu hf true hup, on_hlReset_flag hu hf true, ?_⟩
  · show execPerst s = _
    rw [execPerst, if_pos hc]
  · rw [hlReset_hl hu]
    rfl

include hup

theorem hotReset_resets : ∃ t : State, exec .hotReset s = .next t ∧ LinkReset s t ∧ t.on fHLSTAT_LINKUP = false ∧
    t.on fHLFLAG_HOTRST = true := by
  have hf : fHLFLAG_HOTRST ∈ hostFlags := by simp [hostFlags]
  refine ⟨s.hlReset [fHLFLAG_HOTRST] true, ?_, hlReset_linkReset hask hf true, on_hlReset_linkup hask hf true hup, on_hlReset_flag hask hf true⟩
  show execHotReset s = _
  simp [execHotReset, hc, hup]

theorem functionLevelReset_resets : ∃ t : State, exec .functionLevelReset s = .next t ∧ LinkReset s t ∧ t.on fHLSTAT_LINKUP = true ∧
    t.on fHLFLAG_FLR = true := by
  have hf : fHLFLAG_FLR ∈ hostFlags := by simp [hostFlags]
  refine ⟨s.hlReset [fHLFLAG_FLR] false, ?_, hlReset_linkReset hask hf false, on_hlReset_linkup hask hf false hup, on_hlReset_flag hask hf false⟩
  show execFunctionLevelReset s = _
  simp [execFunctionLevelReset, hc, hup]

theorem dlDown_resets : ∃ t : State, exec .dlDown s = .next t ∧ LinkReset s t ∧ t.on fHLSTAT_LINKUP = false ∧
    t.on fHLFLAG_LINKDOWN = true := by
  have hf : fHLFLAG_LINKDOWN ∈ hostFlags := by simp [hostFlags]
  refine ⟨s.hlReset [fHLFLAG_LINKDOWN] true, ?_, hlReset_linkReset hask hf true, on_hlReset_linkup hask hf true hup, on_hlReset_flag hask hf true⟩
  show execDlDown s = _
  simp [execDlDown, hc, hup]

theorem refclkLoss_resets : ∃ t : State, exec .refclkLoss s = .next t ∧ LinkReset s t ∧ t.on fHLSTAT_LINKUP = false ∧
    t.on fHLFLAG_REFLOST = true ∧ t.on fHLSTAT_REFOK = false ∧ t.hl.refLock = false := by
  obtain ⟨u, hu⟩ : ∃ u, u = s.setHl (fun h => { h with refLock := false }) := ⟨_, rfl⟩
  have huask : u.hl.winAsk = none := by rw [hu]; exact hask
  have huup : u.on fHLSTAT_LINKUP = true := by rw [hu]; exact hup
  have hf : fHLFLAG_REFLOST ∈ hostFlags := by simp [hostFlags]
  have hlock : u.hl.refLock = false := by rw [hu]; rfl
  have hreset : LinkReset s (u.hlReset [fHLFLAG_REFLOST] true) := by
    have h := hlReset_linkReset huask hf true
    rw [hu] at h ⊢
    exact h
  refine ⟨u.hlReset [fHLFLAG_REFLOST] true, ?_, hreset, on_hlReset_linkup huask hf true huup, on_hlReset_flag huask hf true, ?_, ?_⟩
  · show execRefclkLoss s = _
    rw [execRefclkLoss, ← hu]
    simp [hc, hup]
  · rw [State.on, on_hlReset_refok huask hf true, hlock]
    rfl
  · rw [hlReset_hl huask]
    exact hlock

theorem vphyLost_resets : ∃ t : State, exec .vphyLost s = .next t ∧ LinkReset s t ∧ t.on fHLSTAT_LINKUP = false ∧ t.hl.vphyGood = false := by
  obtain ⟨u, hu⟩ : ∃ u, u = s.setHl (fun h => { h with vphyGood := false }) := ⟨_, rfl⟩
  have huask : u.hl.winAsk = none := by rw [hu]; exact hask
  have huup : u.on fHLSTAT_LINKUP = true := by rw [hu]; exact hup
  have hf : fHLFLAG_LINKDOWN ∈ hostFlags := by simp [hostFlags]
  have hreset : LinkReset s (u.hlReset [fHLFLAG_LINKDOWN] true) := by
    have h := hlReset_linkReset huask hf true
    rw [hu] at h ⊢
    exact h
  refine ⟨u.hlReset [fHLFLAG_LINKDOWN] true, ?_, hreset, on_hlReset_linkup huask hf true huup, ?_⟩
  · show execVphyLost s = _
    rw [execVphyLost, ← hu]
    simp [hc, hup]
  · rw [hlReset_hl huask, hu]
    rfl

end

/-! ### With no ring enabled nothing waits for the link -/

/-- Nothing of the Scriptorium waits: no ring, completion, record or fence. -/
structure ScrIdle (s : State) : Prop where
  rings : s.scr.rings = []
  held : s.scr.held = []
  recq : s.scr.recq = []
  fences : s.scr.fences = []

theorem fencesDone_none (h : s.scr.fences = []) : s.fencesDone = s := by
  have hnone : s.fencesDone = { s with scr := { s.scr with fences := [] } } := by simp [State.fencesDone, h]
  rw [hnone, ← h]

/-- With nothing waiting the Scriptorium has nothing to go on with. -/
theorem hostResume_idle (h : ScrIdle s) : s.hostResume = s := by
  unfold State.hostResume
  split
  · rw [retryHeld_none h.held]
    simp only [h.recq, List.length_nil, State.drainRecords, fencesDone_none h.fences, h.rings, List.map_nil, List.foldl_nil]
  · rfl

theorem besides_setHl (s : State) (g : Hl → Hl) : s.besides (s.setHl g) := ⟨rfl, rfl, rfl, rfl, rfl, rfl⟩

theorem sets_besides (s : State) (p : List (Fld × Nat)) : s.besides (s.sets p) := (sets_writes s p).besidesAll.1

/-! ### The link's own events -/

section
variable (hc : s.role = .chapter)
include hc

theorem refclkLock_locks : ∃ t : State, exec .refclkLock s = .next t ∧ t.on fHLSTAT_REFOK = true ∧ t.hl.refLock = true ∧ s.besides t := by
  refine ⟨(s.setHl (fun h => { h with refLock := true })).setFld fHLSTAT_REFOK 1, ?_, on_setFld_one _ _ (by decide) (by decide), rfl,
    ⟨rfl, rfl, rfl, rfl, rfl, rfl⟩⟩
  show execRefclkLock s = _
  rw [execRefclkLock, if_pos hc]

theorem linkUp_reachesL0 (h : ScrIdle s) (hdown : s.on fHLSTAT_LINKUP = false) (hp : s.hl.perstLow = false) (hv : s.hl.vphyGood = true)
    (hr : s.hl.refLock = true) : ∃ t : State, exec (.linkUp true) s = .next t ∧ t.on fHLSTAT_LINKUP = true ∧ t.on fHLSTAT_GEN2 = true ∧
      t.fld fHLSTAT_LPM = 0 ∧ t.hl = s.hl ∧ s.besides t := by
  obtain ⟨t, ht⟩ : ∃ t, t = s.sets [(fHLSTAT_LINKUP, 1), (fHLSTAT_GEN2, b2n true), (fHLSTAT_LPM, 0)] := ⟨_, rfl⟩
  have hidle : ScrIdle t := by
    subst ht
    exact ⟨h.rings, h.held, h.recq, h.fences⟩
  refine ⟨t, ?_, ?_, ?_, ?_, by rw [ht, State.sets_hl], by rw [ht]; exact sets_besides s _⟩
  · show execLinkUp true s = _
    rw [execLinkUp, ← ht, hostResume_idle hidle]
    simp [State.canTrain, hc, hdown, hp, hv, hr]
  all_goals rw [ht, State.sets_cons, State.sets_cons, State.sets_cons, State.sets_nil]
  · rw [on_setFld_other _ _ _ _ (by decide), on_setFld_other _ _ _ _ (by decide)]
    exact on_setFld_one _ fHLSTAT_LINKUP (by decide) (by decide)
  · rw [on_setFld_other _ _ _ _ (by decide)]
    exact on_setFld_one _ fHLSTAT_GEN2 (by decide) (by decide)
  · exact State.fld_setFld _ fHLSTAT_LPM 0 (by decide)

theorem linkError_keepsFirst (l : Nat) : ∃ t : State, exec (.linkError true l) s = .next t ∧ t.on fHLFLAG_AERUNC = true ∧
    (s.hl.aer = [] → t.hl.aer = [l]) ∧ (s.hl.aer ≠ [] → t.hl.aer = s.hl.aer) ∧ s.besides t := by
  refine ⟨(s.setHl (fun h => { h with aer := if h.aer.isEmpty then [l] else h.aer })).setFld fHLFLAG_AERUNC 1, ?_,
    on_setFld_one _ _ (by decide) (by decide), fun h => ?_, fun h => ?_, ⟨rfl, rfl, rfl, rfl, rfl, rfl⟩⟩
  · show execLinkError true l s = _
    rw [execLinkError, if_pos hc]
    rfl
  · exact if_pos (List.isEmpty_iff.mpr h)
  · exact if_neg (mt List.isEmpty_iff.mp h)

/-! ### Over a link that is up -/

section
variable (hup : s.on fHLSTAT_LINKUP = true)
include hup

theorem pmeTurnOff_signals (he : s.hl.pmeEn = true) (hs : s.hl.pmeStatus = true) : ∃ t : State, exec .pmeTurnOff s = .next t ∧
    t.fld fHLSTAT_LPM = 3 ∧ t.pads.pwakeLow = true ∧ t.hl.readyL23 = true ∧ s.besides t := by
  obtain ⟨t, ht⟩ : ∃ t, t = (s.setFld fHLSTAT_LPM 3).setHl (fun h => { h with readyL23 := true }) := ⟨_, rfl⟩
  refine ⟨{ t with pads := { t.pads with pwakeLow := true } }, ?_, ?_, rfl, by rw [ht]; rfl, ?_⟩
  · show execPmeTurnOff s = _
    simp only [execPmeTurnOff, ← ht]
    simp [hc, hup, he, hs]
  · rw [ht]
    exact State.fld_setFld s fHLSTAT_LPM 3 (by decide)
  · rw [ht]
    exact ⟨rfl, rfl, rfl, rfl, rfl, rfl⟩

/-! ### Configuration space -/

theorem configRequest_ready (hrdy : s.on fHLCTL_CFGRDY = true) (q : CfgReq) : exec (.configRequest q) s = .next (s.cfgAct q) := by
  show execConfigRequest q s = _
  simp [execConfigRequest, hc, hup, hrdy]

theorem configRequest_notReady (hrdy : s.on fHLCTL_CFGRDY = false) (q : CfgReq) : exec (.configRequest q) s = .next (s.emit .cfgRetry) := by
  show execConfigRequest q s = _
  simp [execConfigRequest, hc, hup, hrdy]

theorem configRequest_command (h : ScrIdle s) (hrdy : s.on fHLCTL_CFGRDY = true) : ∃ t : State,
    exec (.configRequest (.command true true)) s = .next t ∧ t.hl.bme = true ∧ t.regs = s.regs ∧ t.out = s.out ∧ s.besides t := by
  obtain ⟨t, ht⟩ : ∃ t, t = s.setHl (fun h => { h with cfg := rput h.cfg 1 (if true = true then 2 else 0), bme := true }) := ⟨_, rfl⟩
  have hidle : ScrIdle t := by
    subst ht
    exact ⟨h.rings, h.held, h.recq, h.fences⟩
  refine ⟨t, ?_, by rw [ht]; rfl, by rw [ht]; rfl, by rw [ht]; rfl, by rw [ht]; exact besides_setHl s _⟩
  rw [configRequest_ready hc hup hrdy, State.cfgAct, ← ht, hostResume_idle hidle]

/-! ### BAR0 -/

theorem bar0Read_word {off : Nat} (ha : off % 4 = 0) (hb : off + 4 ≤ 0x10000) :
    exec (.bar0Access off 4 none) s = .next (s.emit (.reply off (leBytes 4 (s.bar0Read off)))) := by
  show execBar0Access off 4 none s = _
  simp only [execBar0Access, hc, hup, ha]
  simp [show ¬0x10000 < off + 4 by omega]

theorem bar0Read_refused {off len : Nat} (h : off % 4 ≠ 0 ∨ (len ≠ 4 ∧ len ≠ 8)) :
    exec (.bar0Access off len none) s = .next (s.emit .unsupported) := by
  show execBar0Access off len none s = _
  simp only [execBar0Access, hc, hup]
  rw [if_neg (by simp), if_pos]
  obtain h | ⟨h4, h8⟩ := h
  · simp [h]
  · simp [h4, h8]

omit hc hup in
theorem leNat_leBytes_four (hw : w < 2 ^ 32) : leNat (leBytes 4 w) = w := by
  simp only [leBytes, leNat, BitVec.toNat_ofNat]
  omega

theorem bar0Write_word {off : Nat} (ha : off % 4 = 0) (hb : off + 4 ≤ 0x10000) (hw : w < 2 ^ 32) :
    exec (.bar0Access off 4 (some (leBytes 4 w))) s = .next (s.bar0Write off w) := by
  have hlen : (leBytes 4 w).length = 4 := rfl
  have htake : ((leBytes 4 w).drop (4 * 0)).take 4 = leBytes 4 w := rfl
  have hone : List.range (4 / 4) = [0] := rfl
  show execBar0Access off 4 (some (leBytes 4 w)) s = _
  simp only [execBar0Access, hlen, hone, List.foldl_cons, List.foldl_nil, htake, leNat_leBytes_four hw, Nat.mul_zero, Nat.add_zero]
  rw [if_neg (by simp [hc, hup]), if_neg (by simp [ha, show ¬0x10000 < off + 4 by omega])]

end

end

/-! ### The MSI-X table -/

theorem vecAt_vecPut (s : State) (v : Fin 64) (e : Vec) : (s.vecPut v.val e).vecAt v.val = e := by
  simp [State.vecAt, State.vecPut, State.setHl, List.getD_eq_getElem?_getD]

theorem bar0Write_addrLow (s : State) (v : Fin 64) (w : Nat) : s.bar0Write (0xE000 + 16 * v.val) w =
    s.vecPut v.val { s.vecAt v.val with addr := (s.vecAt v.val).addr / 2 ^ 32 * 2 ^ 32 + w % 2 ^ 32 } := by
  have hv := v.isLt
  have hn : (0xE000 + 16 * v.val - 0xE000) / 16 = v.val := by omega
  have hmod : (0xE000 + 16 * v.val) % 16 = 0 := by omega
  simp only [State.bar0Write, hn, hmod]
  rw [if_neg (by omega), if_pos (by omega)]

/-- A vector that can be sent is in the table. -/
theorem msixSend_ready (h : s.vecReady v.val = true) (t : State) (ht : t.hl.vecs = s.hl.vecs) :
    t.msixSend v.val = t.emit (.msix (s.vecAt v.val).addr (s.vecAt v.val).data) := by
  unfold State.msixSend
  rw [ht, State.vecAt, List.getD_eq_getElem?_getD]
  unfold State.vecReady at h
  cases hv : s.hl.vecs[v.val]? with
  | some e => rfl
  | none =>
    rw [hv] at h
    simp at h

theorem msixRelease_sends (hp : s.hl.pba = [v.val]) (h : s.vecReady v.val = true) : ∃ t : State, exec (.msixRelease v) s = .next t ∧
    t.hl.pba = [] ∧ t.out = .msix (s.vecAt v.val).addr (s.vecAt v.val).data :: s.out ∧ t.regs = s.regs ∧ s.besides t := by
  obtain ⟨t, ht⟩ : ∃ t, t = s.setHl (fun h => { h with pba := h.pba.filter (· != v.val) }) := ⟨_, rfl⟩
  refine ⟨t.emit (.msix (s.vecAt v.val).addr (s.vecAt v.val).data), ?_, ?_, by rw [ht]; rfl, by rw [ht]; rfl,
    by rw [ht]; exact ⟨rfl, rfl, rfl, rfl, rfl, rfl⟩⟩
  · show execMsixRelease v s = _
    rw [execMsixRelease, ← ht, msixSend_ready h t (by rw [ht]; rfl), if_pos (by simp [hp, h])]
  · rw [ht]
    show s.hl.pba.filter (· != v.val) = []
    simp [hp]

theorem msixRelease_none (hp : s.hl.pba = []) : exec (.msixRelease v) s = .next s := by
  show execMsixRelease v s = _
  simp [execMsixRelease, hp]

/-! ### A core's read of the window -/

theorem windowReadDone_answers {bs : List Byte} (hask : s.hl.winAsk = some (.decani, l)) (hans : s.hl.winAns = none) :
    exec (.windowReadDone (some bs)) s = .next { s with hl := { s.hl with winAsk := none, winAns := some (.decani, l, some bs) } } := by
  show execWindowReadDone (some bs) s = _
  simp only [execWindowReadDone, hask, hans]
  rfl

theorem windowReadDone_fails (hask : s.hl.winAsk = some (.decani, l)) : ∃ t : State, exec (.windowReadDone none) s = .next t ∧
    t.hl.winAns = some (.decani, l, none) ∧ t.on fHLFLAG_WINERR = true ∧ t.fld fHLWERR_OFFSET = l % 0x10000000 ∧
    t.on fHLWERR_WRITE = false ∧ s.besides t := by
  obtain ⟨u, hu⟩ : ∃ u, u = s.setHl (fun h => { h with winAsk := none, winAns := some (.decani, l, none) }) := ⟨_, rfl⟩
  refine ⟨u.sets [(fHLFLAG_WINERR, 1), (fHLWERR_OFFSET, l % 0x10000000), (fHLWERR_WRITE, b2n false)], ?_, ?_, ?_, ?_, ?_, ?_⟩
  · show execWindowReadDone none s = _
    simp only [execWindowReadDone, hask]
    rw [hu]
    rfl
  · rw [State.sets_hl, hu]
    rfl
  · rw [State.sets_cons, State.sets_cons, State.sets_cons, State.sets_nil, on_setFld_other _ _ _ _ (by decide)]
    exact (on_setFld_other _ fHLWERR_OFFSET fHLFLAG_WINERR _ (by decide)).trans (on_setFld_one _ fHLFLAG_WINERR (by decide) (by decide))
  · rw [State.sets_cons, State.sets_cons, State.sets_cons, State.sets_nil, State.fld_setFld_other _ _ _ _ (by decide)]
    refine (State.fld_setFld _ fHLWERR_OFFSET _ (by decide)).trans (Nat.mod_eq_of_lt ?_)
    exact Nat.mod_lt _ (by decide)
  · rw [State.sets_cons, State.sets_cons, State.sets_cons, State.sets_nil]
    exact on_setFld_zero _ fHLWERR_WRITE (by decide) (by decide)
  · refine State.besides_trans (t := u) ?_ (sets_besides u _)
    rw [hu]
    exact besides_setHl s _

theorem windowReadDone_unasked (h : s.hl.winAsk = none) : exec (.windowReadDone none) s = .next s := by
  show execWindowReadDone none s = _
  simp only [execWindowReadDone, h]

/-! ### The statement -/

/-- Settles O38: a host-link reset is the emptied Scriptorium, its block's Reset column and a fixed list of fields written after it; with nothing
waiting in the Scriptorium each of the link's events and accesses is the one write it names. -/
theorem hostLink : Obligations.HostLink := by
  unfold Obligations.HostLink
  refine ⟨fun s hc hup hask => ?resets, fun s v w l bs hc hrings hheld hrecq hfences hw _ => ?events⟩
  case resets =>
    exact ⟨perst_resets hc hask hup, hotReset_resets hc hup hask, functionLevelReset_resets hc hup hask, dlDown_resets hc hup hask,
      refclkLoss_resets hc hup hask, vphyLost_resets hc hup hask⟩
  case events =>
    have hidle : ScrIdle s := ⟨hrings, hheld, hrecq, hfences⟩
    have hv := v.isLt
    refine ⟨?rise, refclkLock_locks hc, ?vphy, fun hd hp hg hr => linkUp_reachesL0 hc hidle hd hp hg hr, fun hg => ?held, fun hd hp hr => ?train,
      fun hup => ?retrain, fun hup => ?l1, linkError_keepsFirst hc l, fun hup => ?d3, fun hup he hs => pmeTurnOff_signals hc hup he hs,
      fun hup hrdy => configRequest_notReady hc hup hrdy _, fun hup hrdy => ?header, fun hup hrdy => configRequest_command hc hup hidle hrdy,
      fun hup => ⟨bar0Read_refused hc hup (.inl (by decide)), bar0Read_refused hc hup (.inr (by decide))⟩, fun hup => ?scriptorium,
      fun hup => ?vector, fun hup => ?base, fun hp hr => msixRelease_sends hp hr, fun hp => msixRelease_none hp,
      fun hask hans => windowReadDone_answers hask hans, fun hask => windowReadDone_fails hask, fun hask => windowReadDone_unasked hask⟩
    case rise =>
      show execPerstRise s = _
      rw [execPerstRise, if_pos hc]
      rfl
    case vphy =>
      show execVphyGood s = _
      rw [execVphyGood, if_pos hc]
      rfl
    case held =>
      show execLinkUp true s = _
      simp [execLinkUp, State.canTrain, hg]
    case train =>
      show execTrainfail s = _
      simp [execTrainfail, hc, hp, hr, hd]
    case retrain =>
      show execLinkRetrain s = _
      simp [execLinkRetrain, hc, hup]
    case l1 =>
      show execLinkL1 2 s = _
      simp [execLinkL1, hc, hup]
    case d3 =>
      show execD3hotEntry s = _
      simp [execD3hotEntry, State.d3Enter, hc, hup]
    case header =>
      exact ⟨(s.emit (.cfgReply 0x74201F5C)).used 1, configRequest_ready hc hup hrdy _, rfl, rfl, rfl, ⟨rfl, rfl, rfl, rfl, rfl, rfl⟩⟩
    case scriptorium =>
      rw [bar0Read_word hc hup (by decide) (by decide)]
      rfl
    case vector =>
      refine ⟨_, bar0Write_word hc hup (by omega) (by omega) hw, ?_⟩
      rw [bar0Write_addrLow, vecAt_vecPut]
      refine ⟨?_, rfl, rfl, rfl, rfl, besides_setHl s _⟩
      show ((s.vecAt v.val).addr / 2 ^ 32 * 2 ^ 32 + w % 2 ^ 32) % 2 ^ 32 = w
      omega
    case base =>
      have hwrite : s.bar0Write (0x1000 + (rSCRTBASEL - 0x4000D000)) w = s.setFld fSCRTBASEL_BASE (w / 2 ^ 12) := rfl
      refine ⟨_, bar0Write_word hc hup (by decide) (by decide) hw, ?_⟩
      rw [hwrite]
      refine ⟨?_, rfl, rfl, ⟨rfl, rfl, rfl, rfl, rfl, rfl⟩⟩
      rw [State.fld_setFld _ _ _ (by decide)]
      exact Nat.mod_eq_of_lt (by simp only [fSCRTBASEL_BASE]; omega)

end Sys2Proof.Proofs
end

section
/-! PROOF. What leaves boot's own state alone: the hold, whether the part has booted, the copies of the record, CFGDEF and RUN. O27. -/

namespace Sys2Proof.Proofs

open Sys2Proof Sys2Proof.Machine

/-- From `s` to `t` no reset begins or ends, the record's copies and CFGDEF stay, and a part in RUN stays in RUN. -/
structure BootStays (s t : State) : Prop where
  hold : t.rst.hold = s.rst.hold
  booted : t.rst.booted = s.rst.booted
  copyA : t.rst.copyA = s.rst.copyA
  copyB : t.rst.copyB = s.rst.copyB
  cfgdef : t.fld fBOOTSTAT_CFGDEF = s.fld fBOOTSTAT_CFGDEF
  run : s.slp.st = .run → t.slp.st = .run

namespace BootStays

variable {s t u : State} {c : Prop} [Decidable c]

theorem refl (s : State) : BootStays s s := ⟨rfl, rfl, rfl, rfl, rfl, id⟩

theorem trans (h : BootStays s t) (k : BootStays t u) : BootStays s u :=
  ⟨k.hold.trans h.hold, k.booted.trans h.booted, k.copyA.trans h.copyA, k.copyB.trans h.copyB, k.cfgdef.trans h.cfgdef, k.run ∘ h.run⟩

theorem ite (h : BootStays s t) (k : BootStays s u) : BootStays s (if c then t else u) := by
  split
  · exact h
  · exact k

theorem foldl {α : Type} {g : State → α → State} (h : ∀ t a, BootStays t (g t a)) (l : List α) (s : State) : BootStays s (l.foldl g s) := by
  induction l generalizing s with
  | nil => exact .refl s
  | cons a l ih => exact (h s a).trans (ih _)

/-- Traffic of the caches has no part in resets and sleep. -/
theorem ofTraffic (h : Traffic s t) (hf : t.fld fBOOTSTAT_CFGDEF = s.fld fBOOTSTAT_CFGDEF) : BootStays s t := by
  have haside := h.aside
  simp only [aside, Prod.mk.injEq] at haside
  obtain ⟨-, hslp, hrst, -⟩ := haside
  exact ⟨by rw [hrst], by rw [hrst], by rw [hrst], by rw [hrst], hf, fun hr => hslp ▸ hr⟩

theorem ofWrites {l : List Fld} (h : Writes l s t) (hl : l.all (fun f => f.other fBOOTSTAT_CFGDEF) = true) : BootStays s t := by
  refine ⟨?_, ?_, ?_, ?_, h.kept _ hl, ?_⟩
  all_goals rw [h.regs]
  exact id

theorem setFld (s : State) {f : Fld} (hf : f.other fBOOTSTAT_CFGDEF = true) (v : Nat) : BootStays s (s.setFld f v) :=
  ofWrites ((Writes.refl [f] s).setFld (List.mem_singleton_self f) v) (by simp [hf])

theorem sets (s : State) (l : List (Fld × Nat)) (hl : l.all (fun p => p.1.other fBOOTSTAT_CFGDEF) = true) : BootStays s (s.sets l) :=
  ofWrites (sets_writes s l) (by rw [List.all_map]; exact hl)

theorem raise (s : State) {f : Fld} (hf : f.other fBOOTSTAT_CFGDEF = true) : BootStays s (s.raise [f]) := setFld s hf 1

theorem plainWrite (s : State) {a : Nat} (v : Word) (ha : (wholeReg a).other fBOOTSTAT_CFGDEF = true) : BootStays s (s.plainWrite a v) :=
  ofWrites (plainWrite_writes (l := [wholeReg a]) s v (List.mem_singleton_self _)) (by simp [ha])

end BootStays

section
variable (s : State)

/-! ### Events -/

theorem setNode_stays (x : Node) : BootStays s { s with node := x } := ⟨rfl, rfl, rfl, rfl, rfl, id⟩

theorem setSac_stays (x : Sac) : BootStays s { s with sac := x } := ⟨rfl, rfl, rfl, rfl, rfl, id⟩

theorem setMem_stays (m : Mem) : BootStays s { s with mem := m } := ⟨rfl, rfl, rfl, rfl, rfl, id⟩

theorem setCore_stays (c : CoreId) (k : Core) : BootStays s (s.setCore c k) := by
  cases c <;> exact ⟨rfl, rfl, rfl, rfl, rfl, id⟩

theorem used_stays (n : Nat) : BootStays s (s.used n) := ⟨rfl, rfl, rfl, rfl, rfl, id⟩

theorem event_stays (code : Nat) (data : List Byte) : BootStays s (s.event code data) := by
  have h := event_posted s code data
  rw [Posted] at h
  rw [h]
  exact ⟨rfl, rfl, rfl, rfl, rfl, id⟩

/-! ### Waking and tokens -/

theorem padHold_other (n : Nat) : (fGPCFG_HOLD n).other fBOOTSTAT_CFGDEF = true := by
  simp [Fld.other, Fld.apart, fGPCFG_HOLD, fBOOTSTAT_CFGDEF]

/-- The fields that an abandoned sleep entry puts back (R86). -/
theorem abandonEntry_stays : BootStays s s.abandonEntry := by
  unfold State.abandonEntry
  dsimp only
  generalize hq : ([(fCLKCTL_PLLEN, s.slp.savedPllen), (fCLKSTAT_HFOK, 1), (fSLPSTAT_ABORTED, 1),
    (fCLKSTAT_SWPEND, b2n (decide (s.slp.savedSel % 2 = 1))), (fCLKSEL_ROOT, s.slp.savedSel % 2),
    (fCLKSEL_CDIV, s.slp.savedSel / 2 % 2)] ++ s.slp.savedHold.map (fun n => (fGPCFG_HOLD n, 0)) : List (Fld × Nat)) = q
  have hother : q.all (fun p => p.1.other fBOOTSTAT_CFGDEF) = true := by
    rw [← hq, List.all_append, List.all_map]
    simp only [List.all_cons, List.all_nil, Bool.and_eq_true, List.all_eq_true]
    exact ⟨by decide, fun n _ => padHold_other n⟩
  have hsets := BootStays.sets s q hother
  generalize s.sets q = t at hsets
  exact ⟨hsets.hold, hsets.booted, hsets.copyA, hsets.copyB, hsets.cfgdef, fun _ => rfl⟩

theorem wakeNow_stays (hr : s.slp.st = .run) : BootStays s s.wakeNow := by
  unfold State.wakeNow
  split
  · exact abandonEntry_stays s
  · rw [hr]
    exact .refl s

theorem wake_stays (hr : s.slp.st = .run) (bit : Nat) : BootStays s (s.wake bit) := by
  have hset : BootStays s (s.setFld fWAKESRC_SRC (s.fld fWAKESRC_SRC ||| 2 ^ bit)) := .setFld s (by decide) _
  unfold State.wake
  exact .ite (.refl s) (.ite (hset.trans (wakeNow_stays _ (hset.run hr))) hset)

theorem pwrFlag_stays (hr : s.slp.st = .run) {f : Fld} (hf : f.other fBOOTSTAT_CFGDEF = true) : BootStays s (s.pwrFlag f) := by
  have hset : BootStays s (s.setFld f 1) := .setFld s hf 1
  unfold State.pwrFlag
  exact .ite (.refl s) (.ite (hset.trans (wake_stays _ (hset.run hr) 6)) hset)

theorem retoken_stays (hr : s.slp.st = .run) : BootStays s s.retoken := by
  unfold State.retoken
  dsimp only
  have hsets := BootStays.sets s [(fPWRTOK_NEED, s.needNow), (fPWRTOK_ALLOW, s.allowNow), (fPWRTOK_SHORT, b2n (decide (s.allowNow < s.needNow)))]
    (by simp only [List.all_cons, List.all_nil]; decide)
  exact .ite (hsets.trans (pwrFlag_stays _ (hsets.run hr) (by decide))) hsets

theorem tokenRefused_stays (hr : s.slp.st = .run) : BootStays s s.tokenRefused := pwrFlag_stays s hr (by decide)

/-! ### The home of a line, and parity -/

theorem homePtr_other (a : Nat) : (homePtr a).other fBOOTSTAT_CFGDEF = true := by
  unfold homePtr
  split <;> decide

theorem homeStart_stays (agent a : Nat) : BootStays s (s.homeStart agent a) := .setFld s (homePtr_other a) _

theorem mramErr_stays (a : Nat) : BootStays s (s.mramErr a) := .ite (.setFld s (by decide) _) (.refl s)

theorem violate_stays (kind block a data : Nat) : BootStays s (s.violate kind block a data) := by
  unfold State.violate
  dsimp only
  exact .ite ((setSac_stays s _).trans (.raise _ (by decide))) (setSac_stays s _)

theorem busCheck_stays (ag : Agent) (w : World) (write : Bool) (a data : Nat) : BootStays s (s.busCheck ag w write a data).2 := by
  refine .ofTraffic (busCheck_still s ag w write a data).toTraffic ?_
  have hviolate (t : State) (k b x y : Nat) : (t.violate k b x y).fld fBOOTSTAT_CFGDEF = t.fld fBOOTSTAT_CFGDEF :=
    (violate_stays t k b x y).cfgdef
  unfold State.busCheck
  split
  case h_4 =>
    split
    · rfl
    · split
      · rfl
      · exact hviolate s _ _ _ _
  case h_5 =>
    split
    · exact (((mramErr_stays s a).trans (.raise _ (by decide))).trans (violate_stays _ _ _ _ _)).cfgdef
    · rfl
  case h_6 =>
    split
    · exact (BootStays.raise s (by decide)).cfgdef
    · rfl
  all_goals rfl

theorem parFlag_other (a : Nat) : (parFlag a).other fBOOTSTAT_CFGDEF = true := by
  unfold parFlag
  split <;> decide

theorem half_other (h : Nat) : (fUP h).other fBOOTSTAT_CFGDEF = true ∧ (fBUSY h).other fBOOTSTAT_CFGDEF = true := by
  unfold fUP fBUSY
  split <;> decide

theorem parityError_stays (a : Nat) : BootStays s (s.parityError a) := by
  have hfirst : BootStays s (if s.fld fPARSTAT_CNT = 0 then s.setFld fPARADDR_ADDR (a / 4 * 4) else s) :=
    .ite (.setFld s (by decide) _) (.refl s)
  unfold State.parityError
  exact (hfirst.trans (.raise _ (parFlag_other a))).trans (.setFld _ (by decide) _)

theorem homeRead_stays (a n : Nat) : BootStays s (s.homeRead a n).2.2 := by
  have hup : BootStays s (s.setFld (fUP (mramHalf a)) 1) := .setFld s (half_other _).1 1
  unfold State.homeRead
  split
  case h_1 =>
    dsimp only
    split
    · exact ((hup.trans (mramErr_stays _ _)).trans (.raise _ (by decide))).trans (.setFld _ (by decide) _)
    · exact .ite hup ((hup.trans (.raise _ (by decide))).trans (.setFld _ (by decide) _))
  case h_2 => exact .refl s
  case h_3 =>
    split
    · exact parityError_stays s _
    · exact .refl s

theorem lineData_stays (me : Option CacheId) (base : Nat) (forStore : Bool) : BootStays s (s.lineData me base forStore).2.2.2 := by
  unfold State.lineData
  split
  · exact .refl s
  · split
    · exact .refl s
    · exact homeRead_stays s _ _

theorem mramWrite_stays (a : Nat) (bs : List Byte) : BootStays s (s.mramWrite a bs) := by
  obtain ⟨hup, hbusy⟩ := half_other (mramHalf a)
  have hdone : BootStays s (s.mramDone (mramHalf a)) := (BootStays.setFld s hbusy 0).trans (setMem_stays _ _)
  exact (hdone.trans (.sets _ _ (by simp [hup, hbusy]))).trans (setMem_stays _ _)

/-! ### Transactions of the caches -/

theorem setLines_stays (c : CacheId) (l : List CLine) : BootStays s (s.setLines c l) := by
  cases c <;> exact ⟨rfl, rfl, rfl, rfl, rfl, id⟩

theorem unreserveOwn_stays (c : CacheId) (base : Nat) : BootStays s (s.unreserveOwn c base) := by
  cases c <;> exact ⟨rfl, rfl, rfl, rfl, rfl, id⟩

theorem lineToMemory_stays (x : CLine) : BootStays s (s.lineToMemory x) := setMem_stays s _

theorem writeBackOut_stays (c : CacheId) (base : Nat) : BootStays s (s.writeBackOut c base) := by
  unfold State.writeBackOut
  split
  · have hgone := (setLines_stays s c (dropLine (s.lines c) base)).trans (unreserveOwn_stays _ c base)
    exact .ite ((hgone.trans (homeStart_stays _ c.num base)).trans (lineToMemory_stays _ _)) hgone
  · exact .refl s

theorem makeRoom_stays (c : CacheId) (base : Nat) : BootStays s (s.makeRoom c base) := by
  unfold State.makeRoom
  refine .ite (.refl s) ?_
  split
  · exact (used_stays s 1).trans (writeBackOut_stays _ _ _)
  · exact .refl s

theorem invalidateOthers_stays (me : Option CacheId) (base : Nat) : BootStays s (s.invalidateOthers me base) :=
  (BootStays.foldl (fun t c => setLines_stays t c _) (othersOf me) s).trans ⟨rfl, rfl, rfl, rfl, rfl, id⟩

theorem given_stays (c : CacheId) (x : CLine) : BootStays s (given s c x) :=
  (invalidateOthers_stays s _ _).trans (setLines_stays _ _ _)

theorem readUnique_stays (c : CacheId) (base : Nat) : BootStays s (s.readUnique c base) := by
  rw [readUnique_eq]
  exact (((makeRoom_stays s c base).trans (homeStart_stays _ _ _)).trans (lineData_stays _ _ _ _)).trans (given_stays _ _ _)

theorem upgrade_stays (c : CacheId) (base : Nat) : BootStays s (s.upgrade c base) := by
  cases h : held s c base with
  | none =>
    rw [upgrade_missing h]
    exact readUnique_stays s c base
  | some x =>
    rw [upgrade_held h]
    exact (homeStart_stays s _ _).trans (given_stays _ _ _)

theorem own_stays (c : CacheId) (base : Nat) : BootStays s (s.own c base) := by
  unfold State.own
  split
  · exact .ite (upgrade_stays s c base) (.refl s)
  · exact readUnique_stays s c base

theorem dirtyMerged_stays (me : Option CacheId) (base : Nat) : BootStays s (dirtyMerged s me base) := by
  unfold dirtyMerged
  split
  · exact lineToMemory_stays s _
  · exact .refl s

theorem copyTakes_stays (me : Option CacheId) (a : Nat) (bs : List Byte) : BootStays s (copyTakes s me a bs) := by
  unfold copyTakes
  split
  · split
    · exact setLines_stays s _ _
    · exact .refl s
  · exact .refl s

theorem writeUnique_stays (me : Option CacheId) (agent a : Nat) (bs : List Byte) : BootStays s (s.writeUnique me agent a bs) := by
  have hcopies := (((homeStart_stays s agent a).trans (dirtyMerged_stays _ me (lineOf a))).trans
    (invalidateOthers_stays _ me (lineOf a))).trans (copyTakes_stays _ me a bs)
  rw [writeUnique_eq]
  exact .ite (hcopies.trans (mramWrite_stays _ a bs)) (hcopies.trans (setMem_stays _ _))

theorem storeLine_stays (c : CacheId) (a : Nat) (bs : List Byte) : BootStays s (s.storeLine c a bs) := by
  unfold State.storeLine
  dsimp only
  split
  · exact setLines_stays s c _
  · exact .refl s

theorem wordsWrite_stays (n : Nat) (a : Nat) (bs : List Byte) : BootStays s (s.wordsWrite n a bs) := by
  induction n generalizing s a bs with
  | zero => exact .refl s
  | succ n ih =>
    rw [State.wordsWrite]
    exact .ite (.refl s) ((writeUnique_stays s _ _ _ _).trans (ih _ _ _))

theorem rhocoWrite_stays (a : Nat) (bs : List Byte) : BootStays s (s.rhocoWrite a bs) := wordsWrite_stays s _ a bs

/-! ### Stores that drain -/

theorem putPart_stays (c : CoreId) (w : World) (a : Nat) (bs : List Byte) : BootStays s (s.putPart c w a bs).2 := by
  have hcheck := busCheck_stays s (.core c) w true a (leNat (bs.take 4))
  unfold State.putPart
  dsimp only
  split
  · refine hcheck.trans ?_
    generalize (s.busCheck (.core c) w true a (leNat (bs.take 4))).2 = t
    split
    case h_1 =>
      rw [unreserve_ite]
      exact ((own_stays t _ _).trans (setCore_stays _ _ _)).trans (storeLine_stays _ _ _ _)
    case h_2 =>
      rw [unreserve_ite]
      dsimp only
      exact (setCore_stays t _ _).trans (writeUnique_stays _ _ _ _ _)
    case h_3 => exact setMem_stays t _
    case h_4 => exact .refl t
  · exact hcheck

theorem putParts_stays (c : CoreId) (w : World) (l : List (Nat × List Byte)) (s : State) : BootStays s (s.putParts c w l).2 := by
  induction l generalizing s with
  | nil => exact .refl s
  | cons p l ih => exact (putPart_stays s c w p.1 p.2).trans (ih _)

theorem drainEntry_stays (c : CoreId) (e : SBuf) : BootStays s (s.drainEntry c e) := by
  have hparts := putParts_stays c e.world (lineParts 4 e.addr e.data) s
  unfold State.drainEntry
  exact .ite (.ite hparts (hparts.trans (setCore_stays _ _ _))) (setCore_stays s _ _)

theorem drainOne_stays (c : CoreId) : BootStays s (s.drainOne c) := by
  unfold State.drainOne
  split
  · exact .refl s
  · exact (setCore_stays s _ _).trans (drainEntry_stays _ _ _)

theorem drainAll_stays (c : CoreId) : BootStays s (s.drainAll c) := .foldl (fun t _ => drainOne_stays t c) _ s

theorem flushCache_stays (c : CacheId) : BootStays s (s.flushCache c) := .foldl (fun t (x : CLine) => writeBackOut_stays t c x.base) _ s

/-! ### Cantoris as an office starts -/

theorem cantOff_stays : BootStays s s.cantOff := by
  have h := ((drainAll_stays s .cantoris).trans (flushCache_stays _ .cant)).trans (.setFld _ (f := fCANTSTAT_STATE) (by decide) 0)
  exact ⟨h.hold, h.booted, h.copyA, h.copyB, h.cfgdef, h.run⟩

theorem cantGo_stays : BootStays s s.cantGo := (setCore_stays s .cantoris _).trans (.setFld _ (by decide) _)

theorem cantWriteCtl_stays (hr : s.slp.st = .run) (v : Word) : BootStays s (s.cantWriteCtl v) := by
  have hput : BootStays s (s.plainWrite rCANTCTL v) := .plainWrite s v (by decide)
  unfold State.cantWriteCtl
  refine .ite (tokenRefused_stays s hr) ?_
  generalize s.plainWrite rCANTCTL v = t at hput
  have hend : ∀ u, BootStays t u → BootStays s u.retoken := fun u h =>
    (hput.trans h).trans (retoken_stays _ ((hput.trans h).run hr))
  exact hend _ (.ite (cantOff_stays t) (.ite ((BootStays.setFld t (f := fCANTSTAT_STATE) (by decide) 1).trans (setCore_stays _ .cantoris _))
    (.ite (cantGo_stays t) (.ite (.setFld t (f := fCANTSTAT_STATE) (by decide) 2) (.refl t)))))

theorem cantPowered_stays (hr : s.slp.st = .run) : BootStays s s.cantPowered := by
  unfold State.cantPowered
  dsimp only
  generalize hk : ({ s.coreAfterReset Core.off with
      fresh := true
      sp := (List.range 4).map (fun i => BitVec.ofNat 32 (Config.free (s.free + 16 + i)) &&& 0xFFFFFFFC) } : Core) = k
  have hon : BootStays s (({ s with cant := k }.used 20).setFld fCANTSTAT_STATE 2) :=
    ((setCore_stays s .cantoris k).trans (used_stays _ 20)).trans (.setFld _ (by decide) 2)
  have hgo := hon.trans (cantGo_stays _)
  exact .ite hon (.ite (hon.trans (tokenRefused_stays _ (hon.run hr))) (hgo.trans (retoken_stays _ (hgo.run hr))))

theorem guardWrite_stays (c : CoreId) (w : World) (a : Nat) (v : Word) : BootStays s (s.guardWrite c w a v) := by
  unfold State.guardWrite
  dsimp only
  split
  · exact .refl s
  · exact .ite (.refl s) ((BootStays.ite (violate_stays s _ _ _ _) (.refl s)).trans (setCore_stays _ _ _))

theorem cantGuardWrite_stays (w : World) (o : Nat) (v : Word) : BootStays s (s.cantGuardWrite w o v) := by
  unfold State.cantGuardWrite
  exact (drainAll_stays s _).trans (guardWrite_stays _ _ _ _ _)

theorem ccWrite_stays (hr : s.slp.st = .run) (v : Word) : BootStays s (s.ccWrite rCANTCTL v) := by
  rw [State.ccWrite, if_pos rfl]
  exact cantWriteCtl_stays s hr v

theorem imgCopy_stays (k : Nat) : BootStays s (s.imgCopy k) := by
  unfold State.imgCopy
  exact rhocoWrite_stays s _ _

/-- Cantoris with an office's image in place and its entry registers written. -/
def officeLoaded (s : State) (k : Nat) : State := (s.imgCopy k).sets [(fCANTENTRY_ALL, s.imgEntry k), (fCANTVBASE_ALL, s.imgLoad k)]

/-- Cantoris powered, with its guard regions written. -/
def officePowered (s : State) (regions : List (Nat × Word)) : State :=
  let t := s.ccWrite rCANTCTL (putFld (s.reg rCANTCTL) fCANTCTL_PWR 1)
  let t := if t.fld fCANTSTAT_STATE = 1 then t.cantPowered else t
  regions.foldl (fun u p => u.cantGuardWrite .nave p.1 p.2) t

/-- Cantoris running, with the slot shown. -/
def officeRuns (s : State) (k : Nat) : State :=
  (s.ccWrite rCANTCTL (putFld (s.reg rCANTCTL) fCANTCTL_RUN 1)).sets [(fOFFSTAT_SLOT, k), (fOFFSTAT_RUNNING, 1)]

/-- The version that runs, recorded. -/
def officeRecorded (s : State) (v : Nat) : State := { s with rst := { s.rst with runVer := (1, v) :: s.rst.runVer.filter (fun p => p.1 != 1) } }

theorem officeGo_eq (k : Nat) (regions : List (Nat × Word)) :
    s.officeGo k regions = officeRecorded (officeRuns (officePowered (officeLoaded s k) regions) k) (s.imgVersion k) := rfl

theorem officeRecorded_stays (v : Nat) : BootStays s (officeRecorded s v) := ⟨rfl, rfl, rfl, rfl, rfl, id⟩

theorem officeLoaded_stays (k : Nat) : BootStays s (officeLoaded s k) :=
  (imgCopy_stays s k).trans (.sets _ _ (by simp only [List.all_cons, List.all_nil]; decide))

theorem officePowered_stays (hr : s.slp.st = .run) (regions : List (Nat × Word)) : BootStays s (officePowered s regions) := by
  have hpwr := ccWrite_stays s hr (putFld (s.reg rCANTCTL) fCANTCTL_PWR 1)
  unfold officePowered
  dsimp only
  generalize s.ccWrite rCANTCTL (putFld (s.reg rCANTCTL) fCANTCTL_PWR 1) = t at hpwr
  exact (hpwr.trans (.ite (cantPowered_stays t (hpwr.run hr)) (.refl t))).trans
    (.foldl (fun u (p : Nat × Word) => cantGuardWrite_stays u .nave p.1 p.2) _ _)

theorem officeRuns_stays (hr : s.slp.st = .run) (k : Nat) : BootStays s (officeRuns s k) :=
  (ccWrite_stays s hr _).trans (.sets _ _ (by simp only [List.all_cons, List.all_nil]; decide))

theorem officeGo_stays (hr : s.slp.st = .run) (k : Nat) (regions : List (Nat × Word)) : BootStays s (s.officeGo k regions) := by
  have hloaded := officeLoaded_stays s k
  have hpowered := hloaded.trans (officePowered_stays _ (hloaded.run hr) regions)
  rw [officeGo_eq]
  exact (hpowered.trans (officeRuns_stays _ (hpowered.run hr) k)).trans (officeRecorded_stays _ _)

theorem officeStart_stays (hr : s.slp.st = .run) (k : Nat) (regions : List (Nat × Word)) : BootStays s (s.officeStart k regions).2 := by
  unfold State.officeStart
  dsimp only
  split
  · exact .refl s
  · split
    · exact .refl s
    · split
      · exact .refl s
      · split
        · exact tokenRefused_stays s hr
        · exact officeGo_stays s hr k regions

theorem autoTry_stays (hr : s.slp.st = .run) : BootStays s s.autoTry := by
  unfold State.autoTry
  split
  next => exact .refl s
  next k regions _ =>
    obtain ⟨u, hu⟩ : ∃ u, u = { s with rst := { s.rst with autostart := none } } := ⟨_, rfl⟩
    have hready : BootStays s u := by
      rw [hu]
      exact ⟨rfl, rfl, rfl, rfl, rfl, id⟩
    dsimp only
    rw [← hu]
    exact .ite (.refl s) (hready.trans (officeStart_stays u (hready.run hr) k regions))

end

end Sys2Proof.Proofs
end

section
/-! PROOF. Boot with no valid copy of the record, from B6 to B9 (R124, R128, R138). O27. -/

namespace Sys2Proof.Proofs

open Sys2Proof Sys2Proof.Machine

variable {s t : State}

/-! ### With no valid copy nothing is restored -/

/-- Neither copy of the record is valid. -/
structure NoRecord (s : State) : Prop where
  copyA : s.rst.copyA.valid = false
  copyB : s.rst.copyB.valid = false

theorem BootStays.noRecord (h : BootStays s t) (hn : NoRecord s) : NoRecord t := ⟨by rw [h.copyA, hn.copyA], by rw [h.copyB, hn.copyB]⟩

theorem NoRecord.cfgValid (h : NoRecord s) : s.cfgValid = false := by rw [State.cfgValid, h.copyA, h.copyB, Bool.or_self]

theorem NoRecord.recorded (h : NoRecord s) (a : Nat) : s.recorded a = none := by rw [State.recorded, if_neg (by simp [h.cfgValid])]

theorem NoRecord.restoreReg (h : NoRecord s) (a : Nat) : s.restoreReg a = s := by rw [State.restoreReg, h.recorded]

theorem NoRecord.restoreRegs (h : NoRecord s) (l : List Nat) : s.restoreRegs l = s := by
  rw [State.restoreRegs]
  induction l with
  | nil => rfl
  | cons a l ih => rw [List.foldl_cons, h.restoreReg, ih]

/-! ### B6: the Sacristy -/

section
variable (s : State)

theorem sealPut_stays (ch kind : Nat) (rd : List Byte) : BootStays s (s.sealPut ch kind rd) := by
  unfold State.sealPut
  dsimp only
  have hput := rhocoWrite_stays s (sealSlot s.sac.seq) (s.sealEntry s.sac.seq ch kind rd)
  generalize s.rhocoWrite (sealSlot s.sac.seq) (s.sealEntry s.sac.seq ch kind rd) = t at hput
  have hdone := hput.trans ((setMem_stays t (t.mem.lose (if t.sac.copyB then 0x10010000 else 0x10010100) 0x100)).trans
    (setSac_stays _ { t.sac with
      seq := (s.sac.seq + 1) % 2 ^ 32, lastTag := (s.sealEntry s.sac.seq ch kind rd).drop 48, copyB := !t.sac.copyB, valid := true }))
  exact .ite (hdone.trans (event_stays _ _ _)) hdone

theorem sealMiss_stays : BootStays s s.sealMiss := by
  have hcount := setSac_stays s { s.sac with missed := s.sac.missed + 1 }
  unfold State.sealMiss
  exact .ite (hcount.trans (event_stays _ _ _)) hcount

theorem sealAppend_stays (ch kind : Nat) (rd : List Byte) : BootStays s (s.sealAppend ch kind rd) := by
  have hput := sealPut_stays s ch 2 (leBytes 4 s.sac.missed)
  unfold State.sealAppend
  dsimp only
  generalize s.sealPut ch 2 (leBytes 4 s.sac.missed) = t at hput
  have hgap := hput.trans (setSac_stays t { t.sac with missed := 0 })
  generalize ({ t with sac := { t.sac with missed := 0 } } : State) = u at hgap
  refine .ite (.refl s) (.ite (.setFld s (by decide) _) (.ite (.refl s) (.ite (sealMiss_stays s) (.ite (sealPut_stays s _ _ _) ?_))))
  exact .ite (hgap.trans (sealMiss_stays _)) (hgap.trans (sealPut_stays _ _ _ _))

/-- An EPOCH bit burnt and a new chain begun (R390). -/
def chainBegun (s : State) : State :=
  { s with
    mem := s.mem.otpSet (0x304 + s.otpEpoch / 8) (BitVec.ofNat 8 (2 ^ (s.otpEpoch % 8)))
    sac := { s.sac with
      seq := s.sealNext, ack := s.sealNext, missed := 0, lastTag := freeBytes s.free 16, restarts := s.sac.restarts + 1, epoch := s.otpEpoch + 1 } }

theorem sealRestart_eq : s.sealRestart = if 96 ≤ s.otpEpoch then s.setFld fSACSTAT_SEALDEAD 1 else
    (((chainBegun s).used 16).sealAppend 16 4 (freeBytes (s.free + 16) 36)).used 36 := rfl

theorem chainBegun_stays : BootStays s (chainBegun s) := ⟨rfl, rfl, rfl, rfl, rfl, id⟩

theorem sealRestart_stays : BootStays s s.sealRestart := by
  rw [sealRestart_eq]
  exact .ite (.setFld s (by decide) 1) ((((chainBegun_stays s).trans (used_stays _ _)).trans (sealAppend_stays _ _ _ _)).trans (used_stays _ _))

theorem bootSacristy_stays : BootStays s s.bootSacristy := by
  have hseg := BootStays.sets s [(fMRSEGSAC_SAC, 2), (fMRSEGNRO_NRO, 0xFFFD)] (by decide)
  unfold State.bootSacristy
  dsimp only
  generalize s.sets [(fMRSEGSAC_SAC, 2), (fMRSEGNRO_NRO, 0xFFFD)] = t at hseg
  have hrestart := hseg.trans (sealRestart_stays t)
  exact .ite hseg (.ite (hseg.trans (setSac_stays t _)) (.ite hrestart (hrestart.trans (event_stays _ _ _))))

theorem wdtReload_stays : BootStays s s.wdtReload := by
  have h : BootStays s (s.setFld fWDTCNT_REMAIN (1024 * s.fld fWDTCFG_PERIOD)) := .setFld s (by decide) _
  exact ⟨h.hold, h.booted, h.copyA, h.copyB, h.cfgdef, h.run⟩

end

/-! ### B7: the record -/

/-- With no valid copy CFGDEF sets (R128). -/
theorem cfgChoose_default (h : NoRecord s) : s.cfgChoose = ({ s with rst := { s.rst with useB := false } }).setFld fBOOTSTAT_CFGDEF 1 := by
  simp only [State.cfgChoose, h.copyA, h.copyB, Bool.false_and, Bool.or_self, Bool.not_false]
  rfl

/-- Boot from B7 on, with CFGDEF set. -/
structure Defaulted (s t : State) : Prop where
  hold : t.rst.hold = s.rst.hold
  none : NoRecord t
  cfgdef : t.on fBOOTSTAT_CFGDEF = true
  run : s.slp.st = .run → t.slp.st = .run

theorem Defaulted.stays {u : State} (h : Defaulted s t) (k : BootStays t u) : Defaulted s u :=
  ⟨k.hold.trans h.hold, k.noRecord h.none, (on_of_fld k.cfgdef).trans h.cfgdef, k.run ∘ h.run⟩

theorem bootRecord_defaults (h : NoRecord s) : Defaulted s s.bootRecord := by
  have hfirst : Defaulted s s.cfgChoose := by
    rw [cfgChoose_default h]
    exact ⟨rfl, ⟨h.copyA, h.copyB⟩, on_setFld_one _ _ (by decide) (by decide), id⟩
  unfold State.bootRecord
  dsimp only
  generalize s.cfgChoose = t at hfirst
  rw [hfirst.none.recorded]
  dsimp only
  have hsafe := hfirst.stays (.setFld t (f := fBOOTSTAT_SAFE) (by decide) (b2n (decide (3 ≤ t.fld fBOOTSTAT_FAILS))))
  generalize t.setFld fBOOTSTAT_SAFE (b2n (decide (3 ≤ t.fld fBOOTSTAT_FAILS))) = u at hsafe
  have hrecov := hsafe.stays (.setFld u (f := fBOOTSTAT_RECOV) (by decide) 1)
  split
  · generalize u.setFld fBOOTSTAT_RECOV 1 = v at hrecov
    exact hrecov.stays ⟨rfl, rfl, rfl, rfl, rfl, id⟩
  · exact hsafe.stays ⟨rfl, rfl, rfl, rfl, rfl, id⟩

/-! ### B8: images -/

/-- Without a record no patch slot is marked. -/
theorem NoRecord.bootPatch (h : NoRecord s) (k : Nat) : s.bootPatch k = s := by
  rw [State.bootPatch, if_neg (by simp [h.cfgValid])]

theorem bootSlot_stays (s : State) : BootStays s s.bootSlot.2 := by
  have hfail : BootStays s (s.setFld fBOOTSTAT_IMGFAIL 1) := .setFld s (by decide) 1
  unfold State.bootSlot
  split
  · exact .refl s
  · split
    · exact .refl s
    · dsimp only
      split
      · exact hfail
      · exact hfail

theorem bootImages_stays (h : NoRecord s) (regions : List (Nat × Word)) : BootStays s (s.bootImages regions) := by
  have hslot := bootSlot_stays s
  unfold State.bootImages
  dsimp only
  rw [h.bootPatch, h.bootPatch]
  generalize s.bootSlot = r at hslot
  refine .ite (.refl s) ?_
  split
  · exact .ite (hslot.trans ⟨rfl, rfl, rfl, rfl, rfl, id⟩) hslot
  · exact hslot

/-! ### B9 -/

section
variable (s : State)

theorem foSync_stays : BootStays s s.foSync := .sets s _ (by simp only [List.all_cons, List.all_nil]; decide)

theorem fioSet_stays (g : Field → Field) : BootStays s (s.fioSet g) := ⟨rfl, rfl, rfl, rfl, rfl, id⟩

theorem foWriteCtl_stays (v : Word) : BootStays s (s.foWriteCtl v) := by
  have hput : BootStays s (s.plainWrite rFOCTL v) := .plainWrite s v (by decide)
  unfold State.foWriteCtl
  dsimp only
  generalize s.plainWrite rFOCTL v = t at hput
  refine hput.trans (.ite (foSync_stays t) ?_)
  unfold State.foApply
  exact (fioSet_stays t _).trans (foSync_stays _)

/-- A write of FOCTL by the Sacristy reaches the field outputs. -/
theorem regWrite_foctl (v : Word) : s.regWrite .sacristy rFOCTL v = s.foWriteCtl v := by
  have hblock : blockOf rFOCTL = 23 := by decide
  have hwrite : s.fiWrite rFOCTL v = s.foWriteCtl v := if_pos rfl
  simp only [State.regWrite, hblock, vet_sacristy s v specOf_foctl, hwrite]

theorem armAt_stays {n : Nat} (hn : n < 3) (time : Nat) : BootStays s (s.armAt n time) := by
  have haddr : rWAKEALML n ≠ fBOOTSTAT_CFGDEF.addr ∧ rWAKEALMH n ≠ fBOOTSTAT_CFGDEF.addr := by
    simp only [rWAKEALML, rWAKEALMH, fBOOTSTAT_CFGDEF]
    omega
  obtain ⟨hlow, hhigh⟩ := haddr
  have hother (f : Fld) (h : f.addr ≠ fBOOTSTAT_CFGDEF.addr) : f.other fBOOTSTAT_CFGDEF = true := by simp [Fld.other, h]
  have htime : BootStays s (s.setFld (fWAKEALML_TIME n) (time % 2 ^ 32)) := .setFld s (hother _ hlow) _
  unfold State.armAt
  generalize s.setFld (fWAKEALML_TIME n) (time % 2 ^ 32) = t at htime
  have hput := htime.trans (.plainWrite t (a := rWAKEALMH n) (BitVec.ofNat 32 (time / 2 ^ 32 % 2 ^ 16 + 2 ^ 16))
    (hother _ hhigh))
  unfold State.alarmWrite
  dsimp only
  generalize t.plainWrite (rWAKEALMH n) (BitVec.ofNat 32 (time / 2 ^ 32 % 2 ^ 16 + 2 ^ 16)) = u at hput
  exact .ite (hput.trans (.setFld u (hother _ hhigh) _)) hput

theorem driveReq_stays : BootStays s s.driveReq.2 := by
  have hen : BootStays s (s.setFld fWDCTL_EN 1) := .setFld s (by decide) 1
  unfold State.driveReq
  split
  · exact .raise s (by decide)
  · split
    · exact .refl s
    · dsimp only
      split
      · exact hen
      · split
        · exact hen.trans ⟨rfl, rfl, rfl, rfl, rfl, id⟩
        · exact hen.trans ⟨rfl, rfl, rfl, rfl, rfl, id⟩

theorem clkWriteCtl_stays (v : Word) : BootStays s (s.clkWriteCtl v) := by
  cases h : s.ctlRefused v with
  | true =>
    rw [clkWriteCtl_refused h]
    exact .raise s (by decide)
  | false =>
    rw [clkWriteCtl_eq h]
    exact (((BootStays.ofWrites (ctlWritten_writes s v) (by decide)).trans (.ofWrites (lockFollows_writes _) (by decide))).trans
      (.ofWrites (hfOkFollows_writes _) (by decide))).trans ⟨rfl, rfl, rfl, rfl, rfl, id⟩

theorem clkBus_ctl_stays (v : Word) : BootStays s (s.clkBus .sacristy rCLKCTL v) := by
  have hwrite : s.clkWrite rCLKCTL v = s.clkWriteCtl v := if_pos rfl
  unfold State.clkBus
  dsimp only
  rw [vet_sacristy s v specOf_clkctl]
  dsimp only
  rw [hwrite]
  exact .ite ⟨rfl, rfl, rfl, rfl, rfl, id⟩ (clkWriteCtl_stays s v)

theorem restoreInts_stays (h : NoRecord s) : BootStays s s.restoreInts := by
  unfold State.restoreInts
  rw [List.foldl_fixed' (a := s)]
  · exact (used_stays s 2).trans (setCore_stays _ .decani _)
  · exact fun a => by rw [h.recorded]

/-- With CFGDEF set no stored address is taken (R128). -/
theorem loadAddr_default (h : s.on fBOOTSTAT_CFGDEF = true) : s.loadAddr = s := if_pos h

theorem restoreLoop_none (h : NoRecord s) : s.restoreLoop = s := by
  rw [State.restoreLoop, if_pos (by simp [h.cfgValid])]

theorem restoreTemplates_none (h : NoRecord s) : s.restoreTemplates = s := by
  rw [State.restoreTemplates, if_pos (by simp [h.cfgValid])]

theorem restoreChoir_none (h : NoRecord s) : s.restoreChoir = s := by
  simp only [State.restoreChoir, h.restoreRegs, ite_self]

theorem restoreField_stays (h : NoRecord s) : BootStays s s.restoreField := by
  unfold State.restoreField
  dsimp only
  rw [h.restoreRegs, h.recorded]
  dsimp only
  rw [regWrite_foctl]
  exact .ite (.refl s) (foWriteCtl_stays s _)

theorem bootClaims_stays : BootStays s s.bootClaims := .setFld s (by decide) _

theorem bootPace_stays : BootStays s s.bootPace := by
  have hst (g : SelfTest → SelfTest) : BootStays s (s.stSet g) := ⟨rfl, rfl, rfl, rfl, rfl, id⟩
  unfold State.bootPace
  dsimp only
  exact (hst _).trans (armAt_stays _ (n := 2) (by decide) _)

theorem bootDrive_stays (h : NoRecord s) : BootStays s s.bootDrive := by
  unfold State.bootDrive
  split
  · rw [h.restoreReg]
    exact .ite (driveReq_stays s) (.refl s)
  · rw [h.restoreReg, h.restoreReg]
    exact .refl s
  · exact .refl s

theorem bootHost_stays (h : NoRecord s) : BootStays s s.bootHost := by
  have hrdy : BootStays s (s.setFld fHLCTL_CFGRDY 1) := .setFld s (by decide) 1
  unfold State.bootHost
  dsimp only
  rw [h.restoreReg]
  exact .ite (.refl s) (.ite (hrdy.trans (clkBus_ctl_stays _ _)) hrdy)

end

/-- The blocks at B9, before the part has booted. -/
def blocksRestored (s : State) : State :=
  let t := (s.restoreRegs padSleepRegs).loadAddr
  let t := (t.restoreInts).restoreLoop
  let t := if t.blockOn 19 then (t.restoreRegs fontRegs).restoreTemplates else t
  ((t.restoreChoir).restoreField).bootClaims

/-- The part has booted. -/
def bootMarked (s : State) : State := { s with rst := { s.rst with booted := true } }

/-- The duties of a part that has booted. -/
def dutiesBegun (s : State) : State := ((((s.bootPace).bootDrive).bootHost).retoken).autoTry

/-- An AUTOSTART office that still waits asks for its tokens. -/
def tokensAsked (s : State) : State :=
  match s.rst.autostart with
  | some _ => if s.role = .cell then s.wantTokens (min 24 (s.needNow + 3)) else s
  | none => s

theorem bootReady_eq (s : State) : s.bootReady = tokensAsked (dutiesBegun (bootMarked (blocksRestored s))) := by
  unfold State.bootReady dutiesBegun bootMarked blocksRestored
  dsimp only
  generalize ((((((s.restoreRegs padSleepRegs).loadAddr).restoreInts).restoreLoop))) = t
  generalize (if t.blockOn 19 then (t.restoreRegs fontRegs).restoreTemplates else t) = t
  generalize ((t.restoreChoir).restoreField).bootClaims = t
  generalize ({ t with rst := { t.rst with booted := true } } : State) = t
  rfl

theorem blocksRestored_stays (hn : NoRecord s) (hd : s.on fBOOTSTAT_CFGDEF = true) : BootStays s (blocksRestored s) := by
  have hints := restoreInts_stays s hn
  have hn' := hints.noRecord hn
  unfold blocksRestored
  dsimp only
  rw [hn.restoreRegs, loadAddr_default s hd, restoreLoop_none _ hn', hn'.restoreRegs, restoreTemplates_none _ hn', ite_self,
    restoreChoir_none _ hn']
  exact (hints.trans (restoreField_stays _ hn')).trans (bootClaims_stays _)

theorem dutiesBegun_stays (hn : NoRecord s) (hr : s.slp.st = .run) : BootStays s (dutiesBegun s) := by
  have hpace := bootPace_stays s
  have hdrive := hpace.trans (bootDrive_stays _ (hpace.noRecord hn))
  have hhost := hdrive.trans (bootHost_stays _ (hdrive.noRecord hn))
  have htokens := hhost.trans (retoken_stays _ (hhost.run hr))
  exact htokens.trans (autoTry_stays _ (htokens.run hr))

theorem tokensAsked_stays (s : State) : BootStays s (tokensAsked s) := by
  unfold tokensAsked
  split
  · exact .ite (setNode_stays s _) (.refl s)
  · exact .refl s

/-- B9 with no valid copy of the record ends with the part booted. -/
theorem bootReady_boots (hn : NoRecord s) (hd : s.on fBOOTSTAT_CFGDEF = true) (hr : s.slp.st = .run) :
    s.bootReady.rst.hold = s.rst.hold ∧ s.bootReady.rst.booted = true ∧ s.bootReady.on fBOOTSTAT_CFGDEF = true := by
  have hblocks := blocksRestored_stays hn hd
  have hdef : (blocksRestored s).on fBOOTSTAT_CFGDEF = true := (on_of_fld hblocks.cfgdef).trans hd
  have hafter : BootStays (bootMarked (blocksRestored s)) s.bootReady := by
    rw [bootReady_eq]
    obtain ⟨ha, hb⟩ := hblocks.noRecord hn
    have hmarked : NoRecord (bootMarked (blocksRestored s)) := ⟨ha, hb⟩
    have hrun : (bootMarked (blocksRestored s)).slp.st = .run := hblocks.run hr
    exact (dutiesBegun_stays hmarked hrun).trans (tokensAsked_stays _)
  exact ⟨hafter.hold.trans hblocks.hold, hafter.booted, (on_of_fld hafter.cfgdef).trans hdef⟩

/-! ### The end of a reset's hold -/

/-- The hold ended, with the supplies of Rhoco's boot shown. -/
def holdEnded (s : State) : State :=
  ({ s with rst := { s.rst with hold := false, lrwd := lrPeriod } }).sets
    [(fCLKSTAT_HFOK, 1), (fPWRSRC_VCOREOK, 1), (fPWRSRC_VDDAOK, 1), (fWDTCFG_PERIOD, 64)]

theorem resetVectorEntry_boots (regions : List (Nat × Word)) (hh : s.rst.hold = true) (hs : s.rst.stopped = false) (hl : s.latched = true)
    (hf : s.pwr.fed = true) (hr : s.slp.st = .run) (ha : s.rst.copyA.valid = false) (hb : s.rst.copyB.valid = false) : ∃ t : State,
      exec (.resetVectorEntry regions) s = .next t ∧ t.rst.hold = false ∧ t.rst.booted = true ∧ t.on fBOOTSTAT_CFGDEF = true := by
  have hended : (holdEnded s).rst.hold = false ∧ NoRecord (holdEnded s) ∧ (holdEnded s).slp.st = .run := by
    refine ⟨?_, ⟨?_, ?_⟩, ?_⟩
    all_goals rw [holdEnded, State.sets_eq]
    exacts [ha, hb, hr]
  obtain ⟨hhold, hnone, hrun⟩ := hended
  have hb6 := (wdtReload_stays (holdEnded s)).trans (bootSacristy_stays _)
  have hb7 := bootRecord_defaults (hb6.noRecord hnone)
  have hb8 := hb7.stays (bootImages_stays hb7.none regions)
  obtain ⟨hkept, hbooted, hdef⟩ := bootReady_boots hb8.none hb8.cfgdef (hb8.run (hb6.run hrun))
  refine ⟨_, ?_, hkept.trans (hb8.hold.trans (hb6.hold.trans hhold)), hbooted, hdef⟩
  show execResetVectorEntry regions s = _
  rw [execResetVectorEntry, if_neg (by simp [hh, hs, hl, hf, hr])]
  rfl

theorem resetVectorEntry_stopped (regions : List (Nat × Word)) (h : s.rst.stopped = true) : exec (.resetVectorEntry regions) s = .next s := by
  show execResetVectorEntry regions s = _
  rw [execResetVectorEntry, if_pos (by simp [h])]

end Sys2Proof.Proofs
end

section
/-! PROOF. After boot: the good mark, recovery, grants that wait, and the descriptors that reach no block (R22, R68, R131, R134, R137, R153).
O27. -/

namespace Sys2Proof.Proofs

open Sys2Proof Sys2Proof.Machine

variable {s t : State} {d : Desc}

/-! ### The good mark -/

theorem cells_otpSet (m : Mem) (o : Nat) (b : Byte) : (m.otpSet o b).cells = m.cells := rfl

theorem cells_otpCount (m : Mem) (o bytes n : Nat) : (m.otpCount o bytes n).cells = m.cells := by
  unfold Mem.otpCount
  refine List.foldlRecOn (motive := fun q : Mem => q.cells = m.cells) _ _ rfl fun q hq i _ => ?_
  split
  · exact (cells_otpSet q _ _).trans hq
  · exact hq

/-- The version counters raised to the images that run (R384). -/
theorem bootGood_marks (hb : s.rst.booted = true) (hup : s.rhocoUp = true) (hg : s.on fBOOTSTAT_GOOD = false) : ∃ t : State,
    exec .bootGood s = .next t ∧ t.on fBOOTSTAT_GOOD = true ∧ t.fld fBOOTSTAT_FAILS = 0 ∧ t.rst.b7Window = false ∧
      t.mem.cells = s.mem.cells ∧ s.besides t := by
  obtain ⟨m, hm⟩ : ∃ m, m = s.rst.runVer.foldl (fun (m : Mem) p => if p.1 = 1 then m.otpCount 0x310 32 p.2 else m.otpCount 0x330 16 p.2) s.mem :=
    ⟨_, rfl⟩
  obtain ⟨u, hu⟩ : ∃ u, u = s.sets [(fBOOTSTAT_GOOD, 1), (fBOOTSTAT_FAILS, 0)] := ⟨_, rfl⟩
  refine ⟨{ u with mem := m, rst := { u.rst with b7Window := false } }, ?_, ?_, ?_, rfl, ?_, ?_⟩
  · show execBootGood s = _
    rw [execBootGood, if_pos (by simp [hb, hup, hg]), ← hu, ← hm]
  · show u.on fBOOTSTAT_GOOD = true
    rw [hu, State.sets_cons, State.sets_cons, State.sets_nil]
    exact (on_setFld_other _ fBOOTSTAT_FAILS fBOOTSTAT_GOOD _ (by decide)).trans (on_setFld_one _ fBOOTSTAT_GOOD (by decide) (by decide))
  · show u.fld fBOOTSTAT_FAILS = 0
    rw [hu, State.sets_cons, State.sets_cons, State.sets_nil]
    exact State.fld_setFld _ fBOOTSTAT_FAILS 0 (by decide)
  · show m.cells = s.mem.cells
    rw [hm]
    refine List.foldlRecOn (motive := fun q : Mem => q.cells = s.mem.cells) _ _ rfl fun q hq p _ => ?_
    split
    · exact (cells_otpCount q _ _ _).trans hq
    · exact (cells_otpCount q _ _ _).trans hq
  · have h := sets_besides s [(fBOOTSTAT_GOOD, 1), (fBOOTSTAT_FAILS, 0)]
    rw [← hu] at h
    exact h

/-! ### Recovery -/

theorem recover_recovers (hr : s.role = .cell ∨ s.role = .loop) (hp : s.on fLJSTAT_PRESENT = true) (hup : s.rhocoUp = true)
    (hb : s.rst.booted = true) (hw : s.rst.b7Window = true) : ∃ t : State, exec .recover s = .next t ∧ t.on fBOOTSTAT_RECOV = true ∧
      t.rst.b7Window = false ∧ t.rst.autostart = none ∧ s.besidesAll t := by
  have hj : s.hasJack = true := by
    rcases hr with hr | hr <;> simp [State.hasJack, hr]
  refine ⟨{ s.setFld fBOOTSTAT_RECOV 1 with rst := { s.rst with b7Window := false, autostart := none } },
    congrArg Host.Outcome.next (recoverIn_recovers hj hp hup hb hw), on_setFld_one s fBOOTSTAT_RECOV (by decide) (by decide), rfl, rfl, ?_⟩
  exact ⟨⟨rfl, rfl, rfl, rfl, rfl, rfl⟩, rfl, rfl, rfl, rfl, rfl, rfl⟩

section
variable (s : State)

theorem logAppend_stays (n : Nat) (rec : List Byte) : BootStays s (s.logAppend n rec).1 := ⟨rfl, rfl, rfl, rfl, rfl, id⟩

theorem loopEvent_stays (code : Nat) (data : List Byte) : BootStays s (s.loopEvent code data) := by
  have h := logAppend_stays s 0 (s.mkRecord code s.srcField data)
  unfold State.loopEvent
  exact .ite (h.trans (event_stays _ _ _)) h

/-- The loop brought up to date, with no fault to tell. -/
theorem loopSync_stays : BootStays s (s.loopSync none) := by
  have hflag (t : State) {c : Prop} [Decidable c] {f : Fld} (hf : f.other fBOOTSTAT_CFGDEF = true) :
      BootStays t (if c then t.raise [f] else t) := .ite (.raise t hf) (.refl t)
  have hsets (a b c : Nat) : BootStays s (s.sets [(fLOOPNOW_MODE, a), (fLOOPNOW_CODE, b), (fLOOPSTAT_FORCED, c)]) :=
    .sets s _ (by simp only [List.all_cons, List.all_nil]; decide)
  unfold State.loopSync
  refine .ite (.refl s) ?_
  dsimp only
  generalize (if (decide (s.loopNow.1 = 3) && s.fld fLOOPNOW_MODE != 3) = true then some 5 else none) = cause
  cases cause
  all_goals
    dsimp only
    refine .ite (.trans ?_ (loopEvent_stays _ _ _)) ?_
    all_goals
      exact (((hsets _ _ _).trans (hflag _ (f := fLOOPFLAG_SATLO) (by decide))).trans (hflag _ (f := fLOOPFLAG_SATHI) (by decide))).trans
        (hflag _ (f := fLOOPFLAG_FORCED) (by decide))

/-- A reset of watchdog scope leaves the part not booted. -/
theorem resetWatchdog_booted : s.resetWatchdog.rst.booted = false := by
  obtain ⟨u, hu⟩ : ∃ u, u = (s.regsReset (vaoSet ++ liveSet ++ watchdogKept)).logicReset := ⟨_, rfl⟩
  have hfresh : u.rst.booted = false := by rw [hu]; rfl
  have hrun : u.slp.st = .run := by rw [hu]; rfl
  have hafter : BootStays u u.afterReset := by
    have htimer : BootStays u (if u.clk.failTimer then u.setFld fCLKSAFE_REMAIN 128 else u) := .ite (.setFld u (by decide) _) (.refl u)
    unfold State.afterReset
    dsimp only
    generalize (if u.clk.failTimer then u.setFld fCLKSAFE_REMAIN 128 else u) = t at htimer
    have hlatch := (htimer.trans (.setFld t (f := fSACDBG_LEVEL) (by decide) (debugLevel t.mem.lifecycle false t.rst.stopped))).trans
      (.ofWrites (foReset_writes _) (by decide))
    have hloop := hlatch.trans (loopSync_stays _)
    exact hloop.trans (retoken_stays _ (hloop.run hrun))
  rw [State.resetWatchdog, ← hu, hafter.booted, hfresh]

end

/-- The cause of a software reset that meets no other (R123). -/
def softwareCause (s : State) : State := (s.setFld fRSTCAUSE_HIST (s.fld fRSTCAUSE_HIST ||| 2 ^ 6)).setFld fRSTCAUSE_LAST 6

theorem causeSet_software (h : s.rst.hold = false) : s.causeSet 6 = softwareCause s := by
  rw [State.causeSet, if_neg (by decide), if_neg (by simp [h])]
  rfl

theorem resetAct_software (s : State) : s.resetAct 6 = (s.causeSet 6).resetWatchdog := by
  simp [State.resetAct, kindScope, State.countFail]

theorem recoveryTimeout_resets (hr : s.on fBOOTSTAT_RECOV = true) (hh : s.rst.hold = false) : ∃ t : State,
    exec .recoveryTimeout s = .next t ∧ t.fld fRSTCAUSE_LAST = 6 ∧ (t.fld fRSTCAUSE_HIST).testBit 6 = true ∧ t.rst.hold = true ∧
      t.rst.booted = false ∧ t.role = s.role ∧ t.pending = s.pending := by
  obtain ⟨hlast, hhist, hhold, hrole, hpending⟩ := resetWatchdog_spec (softwareCause s)
  refine ⟨(softwareCause s).resetWatchdog, ?run, hlast.trans ?last, ?hist, hhold, resetWatchdog_booted _, hrole, hpending⟩
  case run =>
    show execRecoveryTimeout s = _
    rw [execRecoveryTimeout, if_pos hr, resetAct_software, causeSet_software hh]
  case last => exact State.fld_setFld _ fRSTCAUSE_LAST 6 (by decide)
  case hist =>
    rw [hhist, softwareCause, State.fld_setFld_other _ _ _ _ (by decide), fld_setFld_latch _ _ (by decide) (by decide), Nat.testBit_or,
      Nat.testBit_two_pow_self, Bool.or_true]

theorem recoveryTimeout_none (h : s.on fBOOTSTAT_RECOV = false) : exec .recoveryTimeout s = .next s := by
  show execRecoveryTimeout s = _
  rw [execRecoveryTimeout, if_neg (by simp [h])]

/-! ### A grant that waits -/

theorem fontCost_le (role : Role) (run flow level : Bool) : fontCost role run flow level ≤ 3 := by
  have hb : b2n level ≤ 1 := by cases level <;> decide
  unfold fontCost
  split
  · omega
  · split
    · omega
    · split <;> omega

theorem needNow_lt (s : State) : s.needNow < 32 := by
  have hg : s.fld fMOTSTAT_GRUN < 2 := fldOf_lt _ fMOTSTAT_GRUN
  have he : s.fld fPWRCFG_EXC < 16 := fldOf_lt _ fPWRCFG_EXC
  have hb : ∀ b, b2n b ≤ 1 := by decide
  have hf := fontCost_le s.role (s.on fFONTSTAT_RUN) (s.on fFONTSTAT_FLOWCAD) (s.on fFONTCTL_LEVEL)
  have hc := hb s.cantRuns
  have hs := hb (s.on fSFECTL_EN && sfeFast (s.fld fSFECTL_REJ) (s.fld fSFERATE_N))
  have ha := hb (s.on fMOTSTAT_ARUN && decide (6 ≤ s.fld fMOTCTL_ODR))
  unfold State.needNow
  split <;> omega

theorem allowNow_lt (s : State) : s.allowNow < 32 := by
  have hg : s.fld fPWRTOK_GRANT < 32 := fldOf_lt _ fPWRTOK_GRANT
  have hb : s.fld fPWRCFG_BAKALLOW < 32 := fldOf_lt _ fPWRCFG_BAKALLOW
  unfold State.allowNow
  split
  · split <;> omega
  · decide
  · omega

/-- What the costs of everything active are read from. -/
def costFields : List Fld := [fMOTSTAT_GRUN, fFONTSTAT_RUN, fFONTSTAT_FLOWCAD, fFONTCTL_LEVEL, fCANTSTAT_STATE, fSFEEXC_EN, fPWRCFG_EXC,
  fSFECTL_EN, fSFECTL_REJ, fSFERATE_N, fMOTSTAT_ARUN, fMOTCTL_ODR, fPWRSRC_SRC, fPWRTOK_GRANT, fPWRCFG_BAKALLOW]

theorem needNow_kept (hr : t.role = s.role) (h : ∀ f ∈ costFields, t.fld f = s.fld f) : t.needNow = s.needNow ∧ t.allowNow = s.allowNow := by
  simp only [costFields, List.forall_mem_cons] at h
  obtain ⟨h1, h2, h3, h4, h5, h6, h7, h8, h9, h10, h11, h12, h13, h14, h15, -⟩ := h
  constructor
  · simp only [State.needNow, State.cantRuns, hr, h1, on_of_fld h2, on_of_fld h3, on_of_fld h4, h5, on_of_fld h6, h7, on_of_fld h8, h9, h10,
      on_of_fld h11, h12]
  · simp only [State.allowNow, hr, h13, h14, h15]

/-- ALLOW and NEED show what they are after the tokens are brought up to date (R58). -/
theorem retoken_shows (h : s.awake = true) :
    s.retoken.fld fPWRTOK_ALLOW = s.retoken.allowNow ∧ s.retoken.fld fPWRTOK_NEED = s.retoken.needNow := by
  have hw := retoken_writes h
  have hcost : s.retoken.needNow = s.needNow ∧ s.retoken.allowNow = s.allowNow :=
    needNow_kept (by rw [hw.regs]) fun f hf => hw.kept f ((by decide : ∀ f ∈ costFields, tokenFields.all (fun g => g.other f) = true) f hf)
  obtain ⟨hneed, hallow⟩ := hcost
  obtain ⟨u, hu⟩ : ∃ u, u = s.sets [(fPWRTOK_NEED, s.needNow), (fPWRTOK_ALLOW, s.allowNow), (fPWRTOK_SHORT, b2n (decide (s.allowNow < s.needNow)))] :=
    ⟨_, rfl⟩
  have hawake : u.awake = true := by
    rw [hu, State.sets_eq]
    exact h
  have hflag : Writes [fPWRFLAG_SHORT, fWAKESRC_SRC] u s.retoken := by
    unfold State.retoken
    dsimp only
    rw [← hu]
    exact .ite (pwrFlag_writes hawake (by simp) (by simp)) (.refl _ u)
  rw [hneed, hallow, hflag.kept _ (by decide), hflag.kept _ (by decide), hu, State.sets_cons, State.sets_cons, State.sets_cons, State.sets_nil]
  dsimp only
  rw [State.fld_setFld_other _ fPWRTOK_SHORT _ _ (by decide), State.fld_setFld _ fPWRTOK_ALLOW _ (by decide),
    State.fld_setFld_other _ fPWRTOK_SHORT _ _ (by decide), State.fld_setFld_other _ fPWRTOK_ALLOW _ _ (by decide),
    State.fld_setFld _ fPWRTOK_NEED _ (by decide)]
  exact ⟨Nat.mod_eq_of_lt (allowNow_lt s), Nat.mod_eq_of_lt (needNow_lt s)⟩

section
variable {g : Nat} (hp : s.pwr.grantPend = some g) (ha : s.awake = true) (hw : s.rst.tokWait = none)
include hp ha hw

/-- With no office that waits for tokens, a grant that waited is set and gone. -/
theorem grantApply_sets (hoff : s.rhocoUp = false ∨ s.rst.autostart = none) : ∃ t : State, exec .grantApply s = .next t ∧
    t.fld fPWRTOK_GRANT = min 24 g ∧ t.fld fPWRTOK_ALLOW = t.allowNow ∧ t.fld fPWRTOK_NEED = t.needNow ∧ t.pwr.grantPend = none ∧
      s.besidesAll t := by
  obtain ⟨u, hu⟩ : ∃ u, u = ({ s with pwr := { s.pwr with grantPend := none } } : State) := ⟨_, rfl⟩
  have hua : u.awake = true := by rw [hu]; exact ha
  have huw : u.rst.tokWait = none := by rw [hu]; exact hw
  obtain ⟨x, hx⟩ : ∃ x, x = (u.setFld fPWRTOK_GRANT (min 24 g)).redraw := ⟨_, rfl⟩
  have hxa : x.awake = true := by rw [hx]; exact hua
  have hset : u.setGrant g = x.retoken := by
    have hrst : x.retoken.rst.tokWait = none := by
      rw [(retoken_writes hxa).regs, hx]
      exact huw
    rw [State.setGrant, ← hx, State.tokFinish, hrst]
  have hgrant : (u.setGrant g).fld fPWRTOK_GRANT = min 24 g := by
    rw [fld_setGrant hua huw g (by decide), State.fld_setFld _ _ _ (by decide)]
    exact Nat.mod_eq_of_lt ((Nat.min_le_left _ _).trans_lt (by decide))
  have hrest : (u.setGrant g).rst = s.rst ∧ (u.setGrant g).slp = s.slp ∧ (u.setGrant g).dec = s.dec ∧ (u.setGrant g).pwr.grantPend = none := by
    rw [hset, (retoken_writes hxa).regs, hx, hu]
    exact ⟨rfl, rfl, rfl, rfl⟩
  obtain ⟨hrst, hslp, hdec, hpend⟩ := hrest
  have hshows := retoken_shows hxa
  rw [← hset] at hshows
  obtain ⟨hallow, hneed⟩ := hshows
  have hbesides : s.besidesAll (u.setGrant g) := by
    refine State.besidesAll_trans ?_ (setGrant_besidesAll hua huw g)
    rw [hu]
    exact ⟨⟨rfl, rfl, rfl, rfl, rfl, rfl⟩, rfl, rfl, rfl, rfl, rfl, rfl⟩
  refine ⟨u.setGrant g, ?_, hgrant, hallow, hneed, hpend, hbesides⟩
  have hrun : exec .grantApply s = .next (if (u.setGrant g).rhocoUp then (u.setGrant g).autoTry else u.setGrant g) := by
    show execGrantApply s = _
    simp only [execGrantApply, hp, hu]
  rw [hrun]
  obtain hdown | hnone := hoff
  · rw [if_neg (by simpa [State.rhocoUp, hrst, hslp, hdec] using hdown)]
  · rw [State.autoTry, hrst, hnone, ite_self]

end

/-! ### Descriptors -/

theorem pump_of_ready (h : s.ready d = true) : s.pump = s := by
  simp only [State.ready, Bool.and_eq_true] at h
  exact State.pump_quiet s h.1.1

/-- RESET behind nothing that was received earlier (R131). -/
theorem reset_runs (h : s.ready d = true) (he : s.earlierWaits d = false) (hr : s.rst.resetDue = false) (hl : d.path ≠ .lectern) :
    exec (.reset d) s = .next (s.runDesc d (s.role != .chapter) fun t =>
      ⟨{ t with rst := { t.rst with resetDue := true } }, stOK, t.lastSeqs d, [], false⟩) := by
  show execReset d s = _
  simp only [execReset, pump_of_ready h, he, hr, Bool.or_self, Bool.false_eq_true, if_false, if_neg hl]

/-- Settles O27: with no valid record nothing is restored, so each stage of boot leaves the hold ended and CFGDEF set; a reset of watchdog scope
keeps its cause; the tokens are shown as they are after a grant; and each descriptor is its action and its completion. -/
theorem boot : Obligations.Boot := by
  unfold Obligations.Boot
  refine ⟨fun s regions => ⟨fun hh hs hl hf hr ha hb => resetVectorEntry_boots regions hh hs hl hf hr ha hb,
    fun hs => resetVectorEntry_stopped regions hs, fun hb hup hg => bootGood_marks hb hup hg,
    fun hr hp hup hb hw => recover_recovers hr hp hup hb hw, fun hr hh => recoveryTimeout_resets hr hh, fun hr => recoveryTimeout_none hr,
    fun g hp ha hup hw => ?grant, fun g hp ha hauto hw => ?tokens⟩, fun s d h => ⟨?nop, ?identify, fun k hk => ?query,
    fun hpath hrole he hr => ?reset, fun hrole hpath he hr => ?role, fun he => ?behind⟩⟩
  case grant =>
    obtain ⟨t, hrun, hgrant, -, -, hpend, hbesides⟩ := grantApply_sets hp ha hw (.inl hup)
    exact ⟨t, hrun, hgrant, hpend, hbesides⟩
  case tokens =>
    obtain ⟨t, hrun, hgrant, hallow, hneed, -, hbesides⟩ := grantApply_sets hp ha hw (.inr hauto)
    exact ⟨t, hrun, hgrant, hallow, hneed, hbesides⟩
  case nop => exact congrArg Host.Outcome.next (runDesc_done h rfl)
  case identify => exact congrArg Host.Outcome.next (runDesc_done h rfl)
  case query =>
    have hversion : s.activeVersion = s.imgVersion k := by rw [State.activeVersion, hk]
    refine congrArg Host.Outcome.next (runDesc_done h ?_)
    dsimp only
    rw [hversion]
  case reset =>
    rw [reset_runs h he hr (by simp [hpath]), show (s.role != .chapter) = true by simpa using hrole]
    exact congrArg Host.Outcome.next (runDesc_done h rfl)
  case role =>
    rw [reset_runs h he hr hpath, show (s.role != .chapter) = false by simpa using hrole]
    exact congrArg Host.Outcome.next (State.runDesc_role h _)
  case behind =>
    show execReset d s = _
    simp only [execReset, pump_of_ready h, he, Bool.true_or, if_true]

end Sys2Proof.Proofs
end

section
/-! PROOF. Frames that come down to a node: the receiver's note, the checks, and grants, probes and assignments (R164, R184, R188, R192, R193,
R195, R201, R206). O46. -/

namespace Sys2Proof.Proofs

open Sys2Proof Sys2Proof.Machine

variable {s t u : State} {f : Frame} {rx : LineRx}

/-! ### What the receiver tells -/

/-- The fields in which the receiver tells of a frame. -/
def rxFields : List Fld := [fLASTAT_RATE, fLASTAT_LOCK, fLASTAT_SWING, fLAFLAG_RATECHG, fLAFLAG_SWINGLOW]

theorem rxNote_writes (s : State) (rx : LineRx) : Writes rxFields s (s.rxNote rx) := by
  have hsets := (sets_writes s [(fLASTAT_RATE, rx.rate.val), (fLASTAT_LOCK, 1), (fLASTAT_SWING, rx.swing.toNat)]).mono (m := rxFields) (by simp [rxFields])
  exact Writes.raiseIf (.raiseIf hsets (by simp [rxFields])) (by simp [rxFields])

/-- What a node that hears a frame keeps, whatever the frame does to the node's own state. -/
structure Heard (s : State) (rx : LineRx) (t : State) : Prop where
  lock : t.on fLASTAT_LOCK = true
  rate : t.fld fLASTAT_RATE = rx.rate.val
  swing : t.fld fLASTAT_SWING = rx.swing.toNat
  rest : s.besidesAll { t with node := s.node }

/-- Whether writes of some fields leave what the receiver tells. -/
def tellsRx (l : List Fld) : Bool := l.all (fun f => f.other fLASTAT_LOCK) && l.all (fun f => f.other fLASTAT_RATE) && l.all (fun f => f.other fLASTAT_SWING)

theorem besidesNode_trans (h : s.besidesAll { u with node := s.node }) (k : u.besidesAll { t with node := u.node }) :
    s.besidesAll { t with node := s.node } := by
  obtain ⟨⟨hrole, hdec, hcant, htap, hcache, hpending⟩, hmem, hhl, hout, -, hdrv, hscr⟩ := h
  obtain ⟨⟨krole, kdec, kcant, ktap, kcache, kpending⟩, kmem, khl, kout, -, kdrv, kscr⟩ := k
  exact ⟨⟨krole.trans hrole, kdec.trans hdec, kcant.trans hcant, ktap.trans htap, kcache.trans hcache, kpending.trans hpending⟩, kmem.trans hmem,
    khl.trans hhl, kout.trans hout, rfl, kdrv.trans hdrv, kscr.trans hscr⟩

namespace Heard

theorem kept {l : List Fld} (h : Heard s rx u) (hk : ∀ g, l.all (fun f => f.other g) = true → t.fld g = u.fld g) (hl : tellsRx l = true)
    (hrest : u.besidesAll { t with node := u.node }) : Heard s rx t := by
  simp only [tellsRx, Bool.and_eq_true] at hl
  obtain ⟨⟨hlock, hrate⟩, hswing⟩ := hl
  exact ⟨(on_of_fld (hk _ hlock)).trans h.lock, (hk _ hrate).trans h.rate, (hk _ hswing).trans h.swing, besidesNode_trans h.rest hrest⟩

theorem writes {l : List Fld} (h : Heard s rx u) {g : Node → Node} (hw : Writes l (u.setNode g) t) (hl : tellsRx l = true) : Heard s rx t :=
  h.kept hw.kept hl hw.besidesNode

theorem setNode (h : Heard s rx u) (g : Node → Node) : Heard s rx (u.setNode g) := ⟨h.lock, h.rate, h.swing, h.rest⟩

theorem oweSync (h : Heard s rx u) : Heard s rx u.oweSync := h.writes (g := id) (oweSync_writes u) (by decide)

end Heard

theorem rxNote_heard (s : State) (rx : LineRx) : Heard s rx (s.rxNote rx) := by
  obtain ⟨u, hu⟩ : ∃ u, u = s.sets [(fLASTAT_RATE, rx.rate.val), (fLASTAT_LOCK, 1), (fLASTAT_SWING, rx.swing.toNat)] := ⟨_, rfl⟩
  have hflags : Writes [fLAFLAG_RATECHG, fLAFLAG_SWINGLOW] u (s.rxNote rx) := by
    unfold State.rxNote
    dsimp only
    rw [← hu]
    exact Writes.raiseIf (.raiseIf (.refl _ u) (by simp)) (by simp)
  have hswing := rx.swing.isLt
  have hrate := rx.rate.isLt
  refine ⟨?_, ?_, ?_, (rxNote_writes s rx).besidesNode (g := id)⟩
  · rw [hflags.on (by decide), hu, State.sets_cons, State.sets_cons, State.sets_cons, State.sets_nil]
    exact (on_setFld_other _ fLASTAT_SWING fLASTAT_LOCK _ (by decide)).trans (on_setFld_one _ fLASTAT_LOCK (by decide) (by decide))
  · rw [hflags.kept _ (by decide), hu, State.sets_cons, State.sets_cons, State.sets_cons, State.sets_nil]
    dsimp only
    rw [State.fld_setFld_other _ fLASTAT_SWING _ _ (by decide), State.fld_setFld_other _ fLASTAT_LOCK _ _ (by decide),
      State.fld_setFld _ fLASTAT_RATE _ (by decide)]
    exact Nat.mod_eq_of_lt hrate
  · rw [hflags.kept _ (by decide), hu, State.sets_cons, State.sets_cons, State.sets_cons, State.sets_nil]
    exact (State.fld_setFld _ fLASTAT_SWING _ (by decide)).trans (Nat.mod_eq_of_lt hswing)

/-! ### The checks of R184 -/

/-- A good frame of a type that wakes nothing. -/
structure Comes (f : Frame) (type : Nat) : Prop where
  ok : frameOk false false f = true
  type : frType f = type
  wake : frWake f = false

theorem fromHead_comes {type : Nat} (hw : s.onWalk = true) (ha : s.awake = true) (hf : Comes f type) (act : State → State) :
    s.fromHead type f rx act = (act (s.rxNote rx)).oweSync := by
  simp [State.fromHead, hw, awake_notOff ha, hf.ok, hf.type, hf.wake]

theorem fromHead_bad (type : Nat) (hw : s.onWalk = true) (ha : s.awake = true) (hf : frameOk false false f = false) (act : State → State) :
    s.fromHead type f rx act = (s.rxNote rx).badFrame := by
  simp [State.fromHead, hw, awake_notOff ha, hf]

theorem fromHead_elsewhere (type : Nat) (hw : s.onWalk = false) (act : State → State) : s.fromHead type f rx act = s := by
  simp [State.fromHead, hw]

theorem frameDiscarded_attached (hw : s.onWalk = true) (ha : s.awake = true) :
    exec (.frameDiscarded .attached none rx) s = .next ((s.rxNote rx).badFrame) := by
  show execFrameDiscarded .attached none rx s = _
  simp [execFrameDiscarded, hw, awake_notOff ha]

theorem badFrame_counted (s : State) (rx : LineRx) : Heard s rx (s.rxNote rx).badFrame ∧
    (s.rxNote rx).badFrame.fld fLPCNT_CRCERR = satAdd (2 ^ fLPCNT_CRCERR.w - 1) (s.fld fLPCNT_CRCERR) 1 ∧ s.besidesAll (s.rxNote rx).badFrame := by
  have hcount : Writes [fLPCNT_CRCERR] (s.rxNote rx) (s.rxNote rx).badFrame := (Writes.refl _ _).setFld (by simp) _
  refine ⟨(rxNote_heard s rx).writes (g := id) hcount (by decide), ?_, State.besidesAll_trans (rxNote_writes s rx).besidesAll hcount.besidesAll⟩
  rw [State.badFrame, fld_count _ _ (by decide), (rxNote_writes s rx).kept _ (by decide)]

/-! ### What the note leaves as it was -/

theorem rxNote_node (s : State) (rx : LineRx) : (s.rxNote rx).node = s.node := (rxNote_writes s rx).node

theorem rxNote_role (s : State) (rx : LineRx) : (s.rxNote rx).role = s.role := by rw [(rxNote_writes s rx).regs]

theorem rxNote_rst (s : State) (rx : LineRx) : (s.rxNote rx).rst = s.rst := by rw [(rxNote_writes s rx).regs]

theorem rxNote_uid (s : State) (rx : LineRx) : (s.rxNote rx).uid = s.uid := by
  rw [(rxNote_writes s rx).regs]
  rfl

theorem rxNote_awake (ha : s.awake = true) (rx : LineRx) : (s.rxNote rx).awake = true := by
  rw [(rxNote_writes s rx).regs]
  exact ha

theorem rxNote_joining (s : State) (rx : LineRx) : (s.rxNote rx).joining = s.joining := by rw [State.joining, rxNote_node, State.joining]

theorem rxNote_sweepIndex (s : State) (rx : LineRx) : (s.rxNote rx).sweepIndex = s.sweepIndex := by
  have hw := rxNote_writes s rx
  simp only [State.sweepIndex, rxNote_role, rxNote_joining, hw.kept fLINEADDR_ROLEADDR (by decide), hw.kept fLINEADDR_CELLADDR (by decide),
    hw.on (g := fLINEADDR_VALID) (by decide)]

theorem rxNote_forMe (s : State) (rx : LineRx) (f : Frame) : (s.rxNote rx).forMe f = s.forMe f := by
  have hw := rxNote_writes s rx
  simp only [State.forMe, rxNote_role, rxNote_joining, hw.kept fLINEADDR_ROLEADDR (by decide), hw.kept fLINEADDR_CELLADDR (by decide),
    hw.on (g := fLINEADDR_VALID) (by decide), hw.on (g := fLINEADDR_ROLEADDR) (by decide)]

theorem rxNote_forRelay (s : State) (rx : LineRx) (f : Frame) : (s.rxNote rx).forRelay f = s.forRelay f := by
  have hw := rxNote_writes s rx
  simp only [State.forRelay, rxNote_role, hw.kept fLINEADDR_ROLEADDR (by decide), hw.on (g := fLINEADDR_ROLEADDR) (by decide)]

theorem rxNote_canSend (s : State) (rx : LineRx) : (s.rxNote rx).canSend = s.canSend := by
  have hw := rxNote_writes s rx
  have hup : (s.rxNote rx).rhocoUp = s.rhocoUp := by
    rw [hw.regs]
    rfl
  simp only [State.canSend, State.onWalk, rxNote_role, rxNote_node, rxNote_rst, hup, hw.on (g := fBOOTSTAT_RECOV) (by decide),
    hw.on (g := fLASTAT_TXLOCKOUT) (by decide), hw.on (g := fCLKSTAT_FORCED) (by decide)]

theorem cell_notRelay (hc : s.role = .cell) (f : Frame) : s.forRelay f = false := by
  rw [State.forRelay, hc]
  rfl

/-! ### A frame that does nothing to the part -/

/-- The note alone, with what the line is owed. -/
theorem note_only (s : State) (rx : LineRx) : (s.rxNote rx).oweSync.node = s.node ∧ Heard s rx (s.rxNote rx).oweSync ∧
    s.besidesAll { (s.rxNote rx).oweSync with node := s.node } :=
  ⟨(oweSync_writes _).node.trans (rxNote_node s rx), (rxNote_heard s rx).oweSync, (rxNote_heard s rx).oweSync.rest⟩

section
variable (hc : s.role = .cell) (ha : s.awake = true)
include hc ha

/-! ### Grants, probes and ranging -/

theorem grant_unasked (hf : Comes f 1) (hattn : s.node.attn = false) : exec (.grant f rx) s = .next (s.rxNote rx).oweSync := by
  refine congrArg Host.Outcome.next ((fromHead_comes (cell_onWalk hc) ha hf _).trans ?_)
  rw [rxNote_node, hattn]
  rfl

omit ha in
/-- A cell's index in the sweep is its position or the newcomers' 271. -/
theorem sweepIndex_lt : s.sweepIndex < 512 := by
  unfold State.sweepIndex
  rw [hc]
  dsimp only
  split <;> omega

/-- A grant that names the part once gives it the slots of its entry. -/
theorem grant_gives (hf : Comes f 1) (hattn : s.node.attn = true) (hlen : f.payload.length = 2) (hentry : payNat f 0 2 = s.sweepIndex + 512 * 3) :
    exec (.grant f rx) s = .next (((s.rxNote rx).setNode fun n => { n with slots := 4, attn := false }).oweSync) := by
  have hlt := sweepIndex_lt hc
  have hmod : (s.sweepIndex + 512 * 3) % 512 = s.sweepIndex := by omega
  have hdiv : (s.sweepIndex + 512 * 3) / 4096 = 0 := by omega
  have hslots : (s.sweepIndex + 512 * 3) / 512 % 8 = 3 := by omega
  refine congrArg Host.Outcome.next ((fromHead_comes (cell_onWalk hc) ha hf _).trans ?_)
  rw [rxNote_node, hattn, if_pos rfl, hlen, rxNote_sweepIndex]
  have hone : List.range (2 / 2) = [0] := rfl
  simp only [hone, List.map_cons, List.map_nil, Nat.mul_zero, hentry, hmod, hdiv, hslots, decide_true, Bool.and_self, if_true, List.sum_cons,
    List.sum_nil, Nat.reduceAdd]

theorem probe_matches (hf : Comes f 7) (hs : s.canSend = true) (hi : s.sweepIndex = 271) (hd : payNat f 8 1 < 16)
    (hm : s.uid / 16 ^ (16 - payNat f 8 1) = payNat f 0 8 / 16 ^ (16 - payNat f 8 1)) :
    exec (.probe f rx) s = .next (((s.rxNote rx).emit (.probePulse (s.uid / 16 ^ (15 - payNat f 8 1) % 16))).oweSync) := by
  refine congrArg Host.Outcome.next ((fromHead_comes (cell_onWalk hc) ha hf _).trans ?_)
  dsimp only
  rw [if_pos (by simp [rxNote_canSend, rxNote_sweepIndex, rxNote_uid, hs, hi, hd, hm]), rxNote_uid]

theorem probe_silent (hf : Comes f 7) (hi : s.sweepIndex ≠ 271) : exec (.probe f rx) s = .next (s.rxNote rx).oweSync := by
  refine congrArg Host.Outcome.next ((fromHead_comes (cell_onWalk hc) ha hf _).trans ?_)
  dsimp only
  rw [if_neg (by simp [rxNote_sweepIndex, hi])]

theorem range_pulses (hf : Comes f 10) (hm : s.forMe f = true) (hs : s.canSend = true) :
    exec (.range (.heard f rx)) s = .next (((s.rxNote rx).emit .rangePulse).oweSync) := by
  refine congrArg Host.Outcome.next ((fromHead_comes (cell_onWalk hc) ha hf _).trans ?_)
  rw [if_pos (by simp [rxNote_forMe, rxNote_canSend, hm, hs])]

omit hc ha in
/-- A pulse goes out and nothing else changes. -/
theorem pulse_only (s : State) (rx : LineRx) (o : Out) : let t := ((s.rxNote rx).emit o).oweSync
    t.out = o :: s.out ∧ t.node = s.node ∧ (t.on fLASTAT_LOCK = true ∧ t.fld fLASTAT_RATE = rx.rate.val ∧ t.fld fLASTAT_SWING = rx.swing.toNat) ∧
      s.besides t := by
  have howe := oweSync_writes ((s.rxNote rx).emit o)
  have hnote := rxNote_heard s rx
  have hout : (s.rxNote rx).out = s.out := by rw [(rxNote_writes s rx).regs]
  refine ⟨?_, howe.node.trans (rxNote_node s rx), ⟨(howe.on (by decide)).trans hnote.lock, (howe.kept _ (by decide)).trans hnote.rate,
    (howe.kept _ (by decide)).trans hnote.swing⟩, ?_⟩
  · rw [howe.regs]
    exact congrArg (o :: ·) hout
  · exact State.besides_trans (State.besides_trans (rxNote_writes s rx).besidesAll.1 (emit_frame _ o).besides) howe.besidesAll.1

/-! ### Times -/

omit hc ha in
theorem payNat_lt (f : Frame) (off n : Nat) : payNat f off n < 256 ^ n :=
  (leNat_lt _).trans_le (Nat.pow_le_pow_right (by decide) (List.length_take_le _ _))

theorem timeFrame_stores (hf : Comes f 11) (hm : s.forMe f = true) : ∃ t : State, exec (.timeFrame f rx) s = .next t ∧
    t.fld fLPPROP_PROP = payNat f 0 2 ∧ t.on fLPPROP_VALID = true ∧ 0 ∈ t.node.ackDue ∧ Heard s rx t := by
  obtain ⟨v, hv⟩ : ∃ v, v = (s.rxNote rx).sets [(fLPPROP_PROP, payNat f 0 2), (fLPPROP_VALID, 1)] := ⟨_, rfl⟩
  obtain ⟨w, hw⟩ : ∃ w, w = v.syncNow.setNode fun n => { n with ackDue := if n.ackDue.contains 0 then n.ackDue else n.ackDue ++ [0] } := ⟨_, rfl⟩
  have hsync : Writes [fLPSTAT_SYNC] v v.syncNow := syncNow_writes v (by simp)
  have hprop : w.fld fLPPROP_PROP = v.fld fLPPROP_PROP ∧ w.on fLPPROP_VALID = v.on fLPPROP_VALID := by
    rw [hw]
    exact ⟨hsync.kept _ (by decide), hsync.on (by decide)⟩
  obtain ⟨hprop, hvalid⟩ := hprop
  have hlt : payNat f 0 2 < 2 ^ 16 := payNat_lt f 0 2
  refine ⟨w.oweSync, ?_, ?_, ?_, ?_, ?_⟩
  · refine congrArg Host.Outcome.next ((fromHead_comes (cell_onWalk hc) ha hf _).trans ?_)
    rw [rxNote_forMe, hm, if_pos rfl, hw, hv]
  · rw [(oweSync_writes w).kept _ (by decide), hprop, hv, State.sets_cons, State.sets_cons, State.sets_nil]
    dsimp only
    rw [State.fld_setFld_other _ fLPPROP_VALID _ _ (by decide), State.fld_setFld _ fLPPROP_PROP _ (by decide)]
    exact Nat.mod_eq_of_lt hlt
  · rw [(oweSync_writes w).on (by decide), hvalid, hv, State.sets_cons, State.sets_cons, State.sets_nil]
    exact on_setFld_one _ fLPPROP_VALID (by decide) (by decide)
  · rw [(oweSync_writes w).node, hw]
    show 0 ∈ (if v.syncNow.node.ackDue.contains 0 then v.syncNow.node.ackDue else v.syncNow.node.ackDue ++ [0])
    split
    next h => simpa using h
    next => simp
  · refine Heard.oweSync ?_
    have hset := (sets_writes (s.rxNote rx) [(fLPPROP_PROP, payNat f 0 2), (fLPPROP_VALID, 1)]).mono (m := [fLPPROP_PROP, fLPPROP_VALID, fLPSTAT_SYNC])
      (by simp)
    rw [← hv] at hset
    rw [hw]
    exact ((rxNote_heard s rx).writes (g := id) (hset.trans (hsync.mono (by simp))) (by decide)).setNode _

end

end Sys2Proof.Proofs
end

section
/-! PROOF. Descriptors, acknowledgements, assignments and beacons at a node, and the statement (R189, R191, R193, R194, R198, R201, R206). O46. -/

namespace Sys2Proof.Proofs

open Sys2Proof Sys2Proof.Machine

variable {s t u : State} {f : Frame} {rx : LineRx}

/-! ### What a header tells -/

/-- The node with the frames that a header acknowledges gone, and its window request owed (R189, R190). -/
def headTaken (f : Frame) (n : Node) : Node :=
  let n := { n with up := n.up.filter (fun x =>
    !(x.sent.isSome && frType x.f != 9 && frRing x.f = frRing f && acked (frAck f) (bitsOf x.f.hdr 32 8))) }
  if bitAt f.hdr 53 then { n with winDue := if n.winDue.contains (frRing f) then n.winDue else n.winDue ++ [frRing f] } else n

/-- What is taken of a header leaves what came down before. -/
theorem headTaken_keeps (f : Frame) (n : Node) : (headTaken f n).inbox = n.inbox ∧ (headTaken f n).seqRx = n.seqRx ∧
    (headTaken f n).joined = n.joined ∧ (headTaken f n).joinSent = n.joinSent ∧ (headTaken f n).joinOwed = n.joinOwed := by
  unfold headTaken
  split <;> exact ⟨rfl, rfl, rfl, rfl, rfl⟩

theorem headTaken_setNode (s : State) (f : Frame) :
    (let t := s.setNode (fun n => { n with up := n.up.filter (fun x =>
        !(x.sent.isSome && frType x.f != 9 && frRing x.f = frRing f && acked (frAck f) (bitsOf x.f.hdr 32 8))) })
     if bitAt f.hdr 53 then
      t.setNode (fun n => { n with winDue := if n.winDue.contains (frRing f) then n.winDue else n.winDue ++ [frRing f] }) else t) =
      s.setNode (headTaken f) := by
  unfold headTaken State.setNode
  dsimp only
  split <;> rfl

theorem downHeader_plain (s : State) (ht : frTok f = none) : s.downHeader f = s.setNode (headTaken f) := by
  rw [← headTaken_setNode]
  unfold State.downHeader
  rw [ht]

/-- The part with a new total of tokens that waits to be applied (R191). -/
def grantTold (s : State) (g : Nat) : State := { s with pwr := { s.pwr with grantPend := some g } }

theorem downHeader_tokens {g : Nat} (hc : s.role = .cell) (ht : frTok f = some g) : ∃ c : Bool, s.downHeader f =
    (if c then (grantTold (s.setNode (headTaken f)) g).raise [fLPFLAG_REVOKED] else grantTold (s.setNode (headTaken f)) g) := by
  have hrole : (s.setNode (headTaken f)).role = .cell := hc
  refine ⟨decide (g < (s.setNode (headTaken f)).fld fPWRTOK_GRANT) &&
    decide ((s.setNode (headTaken f)).fld fPWRTOK_GRANT ≤ (s.setNode (headTaken f)).node.wanted), ?_⟩
  have htaken := headTaken_setNode s f
  unfold State.downHeader
  dsimp only at htaken ⊢
  rw [htaken, ht]
  dsimp only
  rw [if_pos hrole]
  rfl

/-! ### Descriptors -/

/-- An acknowledgement owed on a ring. -/
def owed (r : Nat) (n : Node) : Node := { n with ackDue := if n.ackDue.contains r then n.ackDue else n.ackDue ++ [r] }

theorem mem_owed (r : Nat) (n : Node) : r ∈ (owed r n).ackDue := by
  show r ∈ (if n.ackDue.contains r then n.ackDue else n.ackDue ++ [r])
  split
  next h => simpa using h
  next => simp

/-- The descriptor that a DESC frame brings. -/
def lineDesc (f : Frame) : Desc := ⟨.walk, frRing f, bitsOf f.hdr 32 8, 0, f.payload⟩

/-- The node with a descriptor accepted. -/
def descTaken (f : Frame) (n : Node) : Node :=
  { n with seqRx := n.seqRx.set (frRing f) (bitsOf f.hdr 32 8), inbox := n.inbox ++ [lineDesc f] }

/-- Whether the part takes descriptors of the line. -/
structure Takes (s : State) : Prop where
  booted : s.rst.booted = true
  well : s.on fBOOTSTAT_RECOV = false
  undue : s.rst.resetDue = false

theorem Takes.writes {l : List Fld} (h : Takes s) (hw : Writes l s t) (hl : l.all (fun f => f.other fBOOTSTAT_RECOV) = true) : Takes t :=
  ⟨by rw [hw.regs]; exact h.booted, (hw.on hl).trans h.well, by rw [hw.regs]; exact h.undue⟩

theorem frRing_lt (f : Frame) : frRing f < 4 := Nat.mod_lt _ (by decide)

theorem windowOf_pos (r : Nat) : 0 < windowOf r := Nat.two_pow_pos _

/-- The node after a descriptor in order, and after a repeat. -/
def nodeAccepts (f : Frame) (n : Node) : Node := owed (frRing f) (descTaken f (headTaken f n))

def nodeRepeats (f : Frame) (n : Node) : Node := owed (frRing f) (headTaken f n)

section
variable (h : Takes s) (ht : frTok f = none) (hlast : s.node.seqRx.getD (frRing f) 0 < 256)
include h ht hlast

theorem descIn_accepts (hin : s.node.inbox = []) (hheld : s.scr.held = [])
    (hseq : bitsOf f.hdr 32 8 = (s.node.seqRx.getD (frRing f) 0 + 1) % 256) (hop : opAssigned (f.payload.getD 0 0).toNat = true) :
    s.descIn f false = s.setNode (nodeAccepts f) := by
  obtain ⟨hbox, hrx, -⟩ := headTaken_keeps f s.node
  have hcase : seqCase (s.node.seqRx.getD (frRing f) 0) (bitsOf f.hdr 32 8) = .accept := by
    rw [hseq, seqCase, if_pos (by omega)]
  have hnode : (s.setNode (headTaken f)).node = headTaken f s.node := rfl
  have hwell : (s.setNode (headTaken f)).on fBOOTSTAT_RECOV = false := h.well
  have hquiet : (s.setNode (nodeAccepts f)).quiet = true := by
    have hwait : (s.setNode (nodeAccepts f)).waitingDescs = [lineDesc f] := by
      have hnew : (s.setNode (nodeAccepts f)).node.inbox = (headTaken f s.node).inbox ++ [lineDesc f] := rfl
      have hscr : (s.setNode (nodeAccepts f)).scr = s.scr := rfl
      rw [State.waitingDescs, hnew, hscr, hbox, hin, hheld]
      rfl
    rw [State.quiet, hwait]
    simpa [dsOpcode, dsByte, lineDesc] using hop
  unfold State.descIn
  rw [downHeader_plain s ht]
  dsimp only
  rw [if_neg (by simp [hwell, h.booted, h.undue]), hnode, hrx,
    hcase, hbox, hin]
  dsimp only
  rw [if_neg (by simpa using (windowOf_pos (frRing f)).ne'), if_neg Bool.false_ne_true]
  exact State.pump_quiet _ hquiet

omit hlast in
theorem descIn_again (hseq : bitsOf f.hdr 32 8 = s.node.seqRx.getD (frRing f) 0) : s.descIn f false = s.setNode (nodeRepeats f) := by
  obtain ⟨-, hrx, -⟩ := headTaken_keeps f s.node
  have hcase : seqCase (s.node.seqRx.getD (frRing f) 0) (bitsOf f.hdr 32 8) = .again := by
    rw [hseq, seqCase, if_neg (by omega), if_pos (by omega)]
  have hnode : (s.setNode (headTaken f)).node = headTaken f s.node := rfl
  have hwell : (s.setNode (headTaken f)).on fBOOTSTAT_RECOV = false := h.well
  unfold State.descIn
  rw [downHeader_plain s ht]
  dsimp only
  rw [if_neg (by simp [hwell, h.booted, h.undue]), hnode, hrx,
    hcase]
  rfl

end

section
variable (hc : s.role = .cell) (ha : s.awake = true)
include hc ha

omit hc in
/-- The part awake and told of the frame by its wake source. -/
theorem rxWake_writes (rx : LineRx) : Writes (fWAKESRC_SRC :: rxFields) s ((s.rxNote rx).wake 3) :=
  ((rxNote_writes s rx).mono (List.subset_cons_self _ _)).trans (wake_writes (rxNote_awake ha rx) (List.mem_cons_self ..) 3)

omit hc in
theorem rxWake_heard (rx : LineRx) : Heard s rx ((s.rxNote rx).wake 3) :=
  (rxNote_heard s rx).writes (g := id) (wake_writes (l := [fWAKESRC_SRC]) (rxNote_awake ha rx) (by simp) 3) (by decide)

omit hc in
theorem rxWake_source (rx : LineRx) : (((s.rxNote rx).wake 3).fld fWAKESRC_SRC).testBit 3 = true := by
  rw [State.wake_awake _ 3 (rxNote_awake ha rx), fld_setFld_latch _ _ (by decide) (by decide), Nat.testBit_or, Nat.testBit_two_pow_self,
    Bool.or_true]

/-- A DESC for the part wakes it and goes to its line command path. -/
theorem desc_mine (hf : Comes f 2) (hm : s.forMe f = true) :
    exec (.desc f rx false) s = .next ((((s.rxNote rx).wake 3).descIn f false).oweSync) := by
  refine congrArg Host.Outcome.next ((fromHead_comes (cell_onWalk hc) ha hf _).trans ?_)
  rw [rxNote_forRelay, cell_notRelay hc, rxNote_forMe, hm, if_neg Bool.false_ne_true, if_pos rfl, rxNote_role, if_pos hc]

theorem desc_notMine (hf : Comes f 2) (hm : s.forMe f = false) : exec (.desc f rx false) s = .next (s.rxNote rx).oweSync := by
  refine congrArg Host.Outcome.next ((fromHead_comes (cell_onWalk hc) ha hf _).trans ?_)
  rw [rxNote_forRelay, cell_notRelay hc, rxNote_forMe, hm, if_neg Bool.false_ne_true, if_neg Bool.false_ne_true]

theorem desc_accepts (hf : Comes f 2) (hm : s.forMe f = true) (htakes : Takes s) (ht : frTok f = none) (hin : s.node.inbox = [])
    (hlen : s.node.seqRx.length = 4) (hlast : s.node.seqRx.getD (frRing f) 0 < 256)
    (hseq : bitsOf f.hdr 32 8 = (s.node.seqRx.getD (frRing f) 0 + 1) % 256) (hop : opAssigned (f.payload.getD 0 0).toNat = true)
    (hheld : s.scr.held = []) : ∃ t : State, exec (.desc f rx false) s = .next t ∧ t.node.inbox = [lineDesc f] ∧
      t.node.seqRx.getD (frRing f) 0 = bitsOf f.hdr 32 8 ∧ frRing f ∈ t.node.ackDue ∧ (t.fld fWAKESRC_SRC).testBit 3 = true ∧ Heard s rx t := by
  obtain ⟨w, hw⟩ : ∃ w, w = (s.rxNote rx).wake 3 := ⟨_, rfl⟩
  have hwrites : Writes (fWAKESRC_SRC :: rxFields) s w := hw ▸ rxWake_writes ha rx
  have hnode : w.node = s.node := hwrites.node
  have hscr : w.scr = s.scr := by rw [hwrites.regs]
  obtain ⟨hbox, hrx, -⟩ := headTaken_keeps f s.node
  have hrun : w.descIn f false = w.setNode (nodeAccepts f) :=
    descIn_accepts (htakes.writes hwrites (by decide)) ht (by rw [hnode]; exact hlast) (by rw [hnode, hin]) (by rw [hscr, hheld])
      (by rw [hnode]; exact hseq) hop
  have howe := oweSync_writes (w.setNode (nodeAccepts f))
  have hafter : (w.setNode (nodeAccepts f)).oweSync.node = nodeAccepts f s.node := howe.node.trans (congrArg (nodeAccepts f) hnode)
  refine ⟨(w.setNode (nodeAccepts f)).oweSync, ?run, ?inbox, ?seq, ?ack, ?wake, ?heard⟩
  case run => rw [desc_mine hc ha hf hm, ← hw, hrun]
  case inbox =>
    rw [hafter]
    show (headTaken f s.node).inbox ++ [lineDesc f] = _
    rw [hbox, hin, List.nil_append]
  case seq =>
    rw [hafter]
    show ((headTaken f s.node).seqRx.set (frRing f) (bitsOf f.hdr 32 8)).getD (frRing f) 0 = _
    have hlt := frRing_lt f
    simp [hrx, List.getD_eq_getElem?_getD, hlen, hlt]
  case ack =>
    rw [hafter]
    exact mem_owed _ _
  case wake =>
    rw [howe.kept _ (by decide)]
    show (w.fld fWAKESRC_SRC).testBit 3 = true
    rw [hw]
    exact rxWake_source ha rx
  case heard => exact ((hw ▸ rxWake_heard ha rx : Heard s rx w).setNode _).oweSync

theorem desc_repeats (hf : Comes f 2) (hm : s.forMe f = true) (htakes : Takes s) (ht : frTok f = none)
    (hseq : bitsOf f.hdr 32 8 = s.node.seqRx.getD (frRing f) 0) : ∃ t : State,
      exec (.desc f rx false) s = .next t ∧ t.node.inbox = s.node.inbox ∧ t.node.seqRx = s.node.seqRx ∧ frRing f ∈ t.node.ackDue ∧
        Heard s rx t := by
  obtain ⟨w, hw⟩ : ∃ w, w = (s.rxNote rx).wake 3 := ⟨_, rfl⟩
  have hwrites : Writes (fWAKESRC_SRC :: rxFields) s w := hw ▸ rxWake_writes ha rx
  have hnode : w.node = s.node := hwrites.node
  obtain ⟨hbox, hrx, -⟩ := headTaken_keeps f s.node
  have hrun : w.descIn f false = w.setNode (nodeRepeats f) :=
    descIn_again (htakes.writes hwrites (by decide)) ht (by rw [hnode]; exact hseq)
  have hafter : (w.setNode (nodeRepeats f)).oweSync.node = nodeRepeats f s.node :=
    (oweSync_writes _).node.trans (congrArg (nodeRepeats f) hnode)
  refine ⟨(w.setNode (nodeRepeats f)).oweSync, ?run, ?inbox, ?seq, ?ack, ((hw ▸ rxWake_heard ha rx : Heard s rx w).setNode _).oweSync⟩
  case run => rw [desc_mine hc ha hf hm, ← hw, hrun]
  case inbox => rw [hafter]; exact hbox
  case seq => rw [hafter]; exact hrx
  case ack => rw [hafter]; exact mem_owed _ _

/-! ### Acknowledgements -/

theorem ackf_mine (hf : Comes f 3) (hm : s.forMe f = true) : exec (.ackf .attached f rx) s =
    .next ((((if s.node.joinSent then (s.rxNote rx).joinDone else s.rxNote rx).wake 3).downHeader f).oweSync) := by
  have hrole : (if s.node.joinSent then (s.rxNote rx).joinDone else s.rxNote rx).role = .cell := by
    split
    · exact (rxNote_role s rx).trans hc
    · exact (rxNote_role s rx).trans hc
  refine congrArg Host.Outcome.next ((fromHead_comes (cell_onWalk hc) ha hf _).trans ?_)
  dsimp only
  rw [rxNote_forRelay, cell_notRelay hc, rxNote_forMe, hm, if_neg Bool.false_ne_true, if_pos rfl, rxNote_node, if_pos hrole]

theorem ackf_joins (hf : Comes f 3) (hm : s.forMe f = true) (hsent : s.node.joinSent = true) (ht : frTok f = none) : ∃ t : State,
    exec (.ackf .attached f rx) s = .next t ∧ t.on fLINEADDR_VALID = true ∧ t.node.joined = true ∧ t.node.joinSent = false ∧
      t.node.joinOwed = false ∧ Heard s rx t := by
  obtain ⟨v, hv⟩ : ∃ v, v = (s.rxNote rx).joinDone := ⟨_, rfl⟩
  have hset : v.on fLINEADDR_VALID = true := by rw [hv]; exact on_setFld_one _ fLINEADDR_VALID (by decide) (by decide)
  have hawake : v.awake = true := by rw [hv]; exact rxNote_awake ha rx
  have hheard : Heard s rx v := by
    rw [hv]
    exact (rxNote_heard s rx).writes ((Writes.refl [fLINEADDR_VALID] _).setFld (by simp) 1) (by decide)
  have hflags : v.node.joined = true ∧ v.node.joinSent = false ∧ v.node.joinOwed = false := by rw [hv]; exact ⟨rfl, rfl, rfl⟩
  obtain ⟨hjoined, hjsent, hjowed⟩ := hflags
  have hwake : Writes [fWAKESRC_SRC] v (v.wake 3) := wake_writes hawake (by simp) 3
  have howe := oweSync_writes ((v.wake 3).setNode (headTaken f))
  have hafter : ((v.wake 3).setNode (headTaken f)).oweSync.node = headTaken f v.node := howe.node.trans (congrArg (headTaken f) hwake.node)
  obtain ⟨-, -, kjoined, kjsent, kjowed⟩ := headTaken_keeps f v.node
  refine ⟨((v.wake 3).setNode (headTaken f)).oweSync, ?run, ?valid, by rw [hafter, kjoined, hjoined], by rw [hafter, kjsent, hjsent],
    by rw [hafter, kjowed, hjowed], ((hheard.writes (g := id) hwake (by decide)).setNode _).oweSync⟩
  case run => rw [ackf_mine hc ha hf hm, hsent, if_pos rfl, ← hv, downHeader_plain _ ht]
  case valid => exact (howe.on (by decide)).trans ((hwake.on (by decide)).trans hset)

theorem ackf_grants {g : Nat} (hf : Comes f 3) (hm : s.forMe f = true) (hsent : s.node.joinSent = false) (ht : frTok f = some g) : ∃ t : State,
    exec (.ackf .attached f rx) s = .next t ∧ t.pwr.grantPend = some g ∧ t.fld fPWRTOK_GRANT = s.fld fPWRTOK_GRANT ∧ Heard s rx t := by
  obtain ⟨w, hw⟩ : ∃ w, w = (s.rxNote rx).wake 3 := ⟨_, rfl⟩
  have hwrites : Writes (fWAKESRC_SRC :: rxFields) s w := hw ▸ rxWake_writes ha rx
  have hrole : w.role = .cell := by rw [hwrites.regs]; exact hc
  obtain ⟨c, hrun⟩ := downHeader_tokens hrole ht
  obtain ⟨x, hx⟩ : ∃ x, x = grantTold (w.setNode (headTaken f)) g := ⟨_, rfl⟩
  have hheard : Heard s rx x := by
    have h := (hw ▸ rxWake_heard ha rx : Heard s rx w)
    rw [hx]
    exact ⟨h.lock, h.rate, h.swing, h.rest⟩
  have hflag : Writes [fLPFLAG_REVOKED, fLPSTAT_OWE] x (w.downHeader f).oweSync := by
    rw [hrun, ← hx]
    exact (Writes.raiseIf (.refl _ x) (by simp)).trans ((oweSync_writes _).mono (by simp))
  refine ⟨(w.downHeader f).oweSync, ?run, ?pend, ?grant, hheard.writes (g := id) hflag (by decide)⟩
  case run => rw [ackf_mine hc ha hf hm, hsent, if_neg Bool.false_ne_true, hw]
  case pend => rw [hflag.regs, hx]; rfl
  case grant =>
    rw [hflag.kept _ (by decide), hx]
    exact hwrites.kept _ (by decide)

/-! ### Assignment -/

omit hc ha in
/-- A JOIN owed that waits already or not: the SEQ counters restart and the JOIN waits first (R193, R206). -/
theorem joinOwe_owes (h : s.joining = false) : ∃ g : Node → Node, s.joinOwe = s.setNode g ∧
    ∀ n, (g n).stAddr = n.stAddr ∧ (g n).stWalk = n.stWalk ∧ (g n).joinOwed = true ∧ (g n).joined = false ∧ (g n).seqRx = [0, 0, 0, 0] ∧
      (g n).up.any (fun x => frType x.f = 9) = true := by
  have htype : frType s.joinFrame = 9 := frType_mkHdr (by decide) ..
  refine ⟨_, if_neg (by simp [h]), fun n => ⟨rfl, rfl, rfl, rfl, rfl, ?_⟩⟩
  rw [List.any_cons]
  simp [htype]

theorem assign_acts (hf : Comes f 8) (hb : s.rst.booted = true) (hu : payNat f 0 8 = s.uid) : exec (.assign f rx) s =
    .next ((if payNat f 8 1 = 2 then (s.rxNote rx).addrClear else if payNat f 8 1 = 1 then (s.rxNote rx).rejoin
      else if payNat f 8 1 = 0 then (if bitAt (payNat f 10 1) 0 then s.rxNote rx else (s.rxNote rx).cellAssign (payNat f 9 1))
      else s.rxNote rx).oweSync) := by
  refine congrArg Host.Outcome.next ((fromHead_comes (cell_onWalk hc) ha hf _).trans ?_)
  simp only [rxNote_rst, hb, rxNote_uid, hu, rxNote_role, hc]
  simp

theorem assign_names (hf : Comes f 8) (hu : payNat f 0 8 = s.uid) (hact : payNat f 8 1 = 0) (hrole : payNat f 10 1 = 0)
    (hb : s.rst.booted = true) (hj : s.joining = false) : ∃ t : State, exec (.assign f rx) s = .next t ∧
      t.fld fLINEADDR_CELLADDR = (256 * s.node.bWalk + payNat f 9 1) % 4096 ∧ t.on fLINEADDR_VALID = false ∧
        t.node.stAddr = some (256 * s.node.bWalk + payNat f 9 1) ∧ t.node.stWalk = some s.node.bWalk ∧ t.node.joinOwed = true ∧
        t.node.joined = false ∧ t.node.seqRx = [0, 0, 0, 0] ∧ t.joining = true ∧ Heard s rx t := by
  obtain ⟨r, hr⟩ : ∃ r, r = s.rxNote rx := ⟨_, rfl⟩
  have hnode : r.node = s.node := hr ▸ rxNote_node s rx
  have hheard : Heard s rx r := hr ▸ rxNote_heard s rx
  obtain ⟨v, hv⟩ : ∃ v, v = r.sets [(fLINEADDR_CELLADDR, 256 * r.node.bWalk + payNat f 9 1), (fLINEADDR_VALID, 0), (fLPSYSID_SYSTEM, r.node.bSys)] :=
    ⟨_, rfl⟩
  have hvw : Writes [fLINEADDR_CELLADDR, fLINEADDR_VALID, fLPSYSID_SYSTEM] r v := hv ▸ (sets_writes r _).mono (by simp)
  obtain ⟨w, hw⟩ : ∃ w, w = v.setNode (fun q => { q with
    stAddr := some (256 * r.node.bWalk + payNat f 9 1), stWalk := some r.node.bWalk, stSystem := r.node.bSys }) := ⟨_, rfl⟩
  have hwj : w.joining = false := by
    rw [hw]
    show v.node.up.any (fun x => frType x.f = 9) = false
    rw [hvw.node, hnode]
    exact hj
  obtain ⟨g, howes, hfacts⟩ := joinOwe_owes hwj
  obtain ⟨kaddr, kwalk, kowed, kjoined, kseq, kup⟩ := hfacts w.node
  have howe := oweSync_writes (w.setNode g)
  have hafter : (w.setNode g).oweSync.node = g w.node := howe.node
  refine ⟨(w.setNode g).oweSync, ?run, ?addr, ?valid, ?stored, ?walk, by rw [hafter, kowed], by rw [hafter, kjoined], by rw [hafter, kseq],
    by rw [State.joining, hafter]; exact kup, ?heard⟩
  case run =>
    rw [assign_acts hc ha hf hb hu, hact, hrole, ← hr]
    rw [if_neg (by decide), if_neg (by decide), if_pos rfl, if_neg (by decide), State.cellAssign, ← hv, ← hw, howes]
  case addr =>
    rw [howe.kept _ (by decide)]
    show w.fld fLINEADDR_CELLADDR = _
    rw [hw]
    show v.fld fLINEADDR_CELLADDR = _
    rw [hv, State.sets_cons, State.sets_cons, State.sets_cons, State.sets_nil, hnode]
    dsimp only
    rw [State.fld_setFld_other _ fLPSYSID_SYSTEM _ _ (by decide), State.fld_setFld_other _ fLINEADDR_VALID _ _ (by decide)]
    exact State.fld_setFld _ fLINEADDR_CELLADDR _ (by decide)
  case valid =>
    rw [howe.on (by decide)]
    show w.on fLINEADDR_VALID = false
    rw [hw]
    show v.on fLINEADDR_VALID = false
    rw [hv, State.sets_cons, State.sets_cons, State.sets_cons, State.sets_nil]
    exact (on_setFld_other _ fLPSYSID_SYSTEM _ _ (by decide)).trans (on_setFld_zero _ fLINEADDR_VALID (by decide) (by decide))
  case stored => rw [hafter, kaddr, hw, hnode]; rfl
  case walk => rw [hafter, kwalk, hw, hnode]; rfl
  case heard =>
    refine (Heard.setNode ?_ g).oweSync
    rw [hw]
    exact (hheard.writes (g := id) hvw (by decide)).setNode _

theorem assign_clears (hf : Comes f 8) (hu : payNat f 0 8 = s.uid) (hact : payNat f 8 1 = 2) (hb : s.rst.booted = true) : ∃ t : State,
    exec (.assign f rx) s = .next t ∧ t.on fLINEADDR_VALID = false ∧ t.node.stAddr = none ∧ t.node.joined = false ∧
      t.on fLPFLAG_ADDRCLR = true ∧ Heard s rx t := by
  obtain ⟨w, hw⟩ : ∃ w, w = (s.rxNote rx).addrClear := ⟨_, rfl⟩
  have howe := oweSync_writes w
  refine ⟨w.oweSync, ?run, ?valid, ?stored, ?joined, ?flag, ?heard⟩
  case run => rw [assign_acts hc ha hf hb hu, if_pos hact, hw]
  case valid =>
    rw [howe.on (by decide), hw]
    exact on_setFld_zero _ fLINEADDR_VALID (by decide) (by decide)
  case stored | joined => rw [howe.node, hw]; rfl
  case flag =>
    rw [howe.on (by decide), hw]
    exact (on_setFld_other _ fLINEADDR_VALID fLPFLAG_ADDRCLR _ (by decide)).trans (on_setFld_one _ fLPFLAG_ADDRCLR (by decide) (by decide))
  case heard =>
    refine Heard.oweSync ?_
    rw [hw]
    exact (rxNote_heard s rx).writes (l := [fLPFLAG_ADDRCLR, fLINEADDR_VALID]) (((Writes.refl _ _).setFld (by simp) 1).setFld (by simp) 0) (by decide)

/-- An ASSIGN for another part does nothing. -/
theorem assign_notMine (hf : Comes f 8) (hu : payNat f 0 8 ≠ s.uid) (hact : payNat f 8 1 < 2) :
    exec (.assign f rx) s = .next (s.rxNote rx).oweSync := by
  refine congrArg Host.Outcome.next ((fromHead_comes (cell_onWalk hc) ha hf _).trans ?_)
  have hne : (payNat f 0 8 != (s.rxNote rx).uid) = true := by rw [rxNote_uid]; simpa using hu
  dsimp only
  rw [hne, if_neg (show ¬payNat f 8 1 = 2 by omega), if_pos rfl, ite_self]

theorem assign_rejoins (hf : Comes f 8) (hu : payNat f 0 8 = s.uid) (hact : payNat f 8 1 = 1) (hb : s.rst.booted = true)
    (hj : s.joining = false) (hwait : s.rst.tokWait = none) : ∃ t : State, exec (.assign f rx) s = .next t ∧ t.fld fPWRTOK_GRANT = 0 ∧
      t.node.joinOwed = true ∧ t.joining = true ∧ Heard s rx t := by
  obtain ⟨r, hr⟩ : ∃ r, r = s.rxNote rx := ⟨_, rfl⟩
  have hra : r.awake = true := hr ▸ rxNote_awake ha rx
  have hrw : r.rst.tokWait = none := by rw [hr, rxNote_rst]; exact hwait
  have hnode : r.node = s.node := hr ▸ rxNote_node s rx
  have hheard : Heard s rx r := hr ▸ rxNote_heard s rx
  obtain ⟨v, hv⟩ : ∃ v, v = r.setGrant 0 := ⟨_, rfl⟩
  have hrest : r.besidesAll v := hv ▸ setGrant_besidesAll hra hrw 0
  have hvnode : v.node = r.node := by
    obtain ⟨-, -, -, -, hn, -⟩ := hrest
    exact hn
  have hkept : ∀ g, (fPWRTOK_GRANT :: tokenFields).all (fun f => f.other g) = true → v.fld g = r.fld g := by
    intro g hg
    rw [List.all_cons, Bool.and_eq_true] at hg
    rw [hv, fld_setGrant hra hrw 0 hg.2, State.fld_setFld_other _ _ _ _ hg.1]
  have hgrant : v.fld fPWRTOK_GRANT = 0 := by
    rw [hv, fld_setGrant hra hrw 0 (by decide)]
    exact State.fld_setFld _ fPWRTOK_GRANT _ (by decide)
  have hvheard : Heard s rx v := hheard.kept hkept (by decide) (by rw [← hvnode]; exact hrest)
  obtain ⟨w, hw⟩ : ∃ w, w = ({ v with pwr := { v.pwr with grantPend := none } } : State) := ⟨_, rfl⟩
  have hwheard : Heard s rx w := by rw [hw]; exact ⟨hvheard.lock, hvheard.rate, hvheard.swing, hvheard.rest⟩
  have hwj : w.joining = false := by
    rw [hw]
    show v.node.up.any (fun x => frType x.f = 9) = false
    rw [hvnode, hnode]
    exact hj
  obtain ⟨g, howes, hfacts⟩ := joinOwe_owes hwj
  obtain ⟨-, -, kowed, -, -, kup⟩ := hfacts w.node
  have howe := oweSync_writes (w.setNode g)
  refine ⟨(w.setNode g).oweSync, ?run, ?grant, by rw [howe.node]; exact kowed, by rw [State.joining, howe.node]; exact kup,
    (hwheard.setNode g).oweSync⟩
  case run =>
    rw [assign_acts hc ha hf hb hu, hact, ← hr, if_neg (by decide), if_pos rfl, State.rejoin, ← hv, ← hw, howes]
  case grant =>
    rw [howe.kept _ (by decide)]
    show w.fld fPWRTOK_GRANT = 0
    rw [hw]
    exact hgrant

end

end Sys2Proof.Proofs
end

section
/-! PROOF. Frames that come down to a node: the beacon, the relay at a Crossing, and the statement (R194, R198). O46. -/

namespace Sys2Proof.Proofs

open Sys2Proof Sys2Proof.Machine

variable {s t : State} {f : Frame} {rx : LineRx}

/-! ### The relay at a Crossing -/

/-- The frame that a Crossing relays waits in its queue while no downlink period is open. -/
theorem desc_relayed (hr : s.role = .crossing) (ha : s.awake = true) (hf : Comes f 2) (hm : s.forRelay f = true) (hclosed : s.drv.dnOpen = false)
    (hdn : s.drv.dn = []) : ∃ t : State, exec (.desc f rx false) s = .next t ∧ t.drv.dn = [⟨f, true, none, 0⟩] ∧ t.node = s.node ∧
      s.besidesAll { t with drv := s.drv } := by
  have hwalk : s.onWalk = true := by rw [State.onWalk, hr]; rfl
  obtain ⟨r, hrx⟩ : ∃ r, r = s.rxNote rx := ⟨_, rfl⟩
  have hnote : Writes rxFields s r := hrx ▸ rxNote_writes s rx
  have hdrv : r.drv = s.drv := by rw [hnote.regs]
  obtain ⟨v, hv⟩ : ∃ v, v = r.setDrv fun d => { d with dn := d.dn ++ [⟨f, true, none, 0⟩] } := ⟨_, rfl⟩
  have hvopen : v.drv.dnOpen = false := by
    rw [hv]
    exact (congrArg Drv.dnOpen hdrv).trans hclosed
  have hrelay : r.relayDown f = v := by
    rw [State.relayDown, hdrv, hdn, if_pos (by decide), ← hv, State.dnFlush, if_neg (by simp [hvopen])]
  have howe := oweSync_writes v
  obtain ⟨⟨hrole, hdec, hcant, htap, hcache, hpending⟩, hmem, hhl, hout, hnode, -, hscr⟩ := howe.besidesAll
  obtain ⟨⟨krole, kdec, kcant, ktap, kcache, kpending⟩, kmem, khl, kout, knode, -, kscr⟩ := hnote.besidesAll
  have hvr : v.role = r.role ∧ v.dec = r.dec ∧ v.cant = r.cant ∧ v.tap = r.tap ∧ v.descCache = r.descCache ∧ v.pending = r.pending ∧
      v.mem = r.mem ∧ v.hl = r.hl ∧ v.out = r.out ∧ v.node = r.node ∧ v.scr = r.scr := by
    rw [hv]
    exact ⟨rfl, rfl, rfl, rfl, rfl, rfl, rfl, rfl, rfl, rfl, rfl⟩
  obtain ⟨vrole, vdec, vcant, vtap, vcache, vpending, vmem, vhl, vout, vnode, vscr⟩ := hvr
  refine ⟨v.oweSync, ?run, ?queue, hnode.trans (vnode.trans knode),
    ⟨hrole.trans (vrole.trans krole), hdec.trans (vdec.trans kdec), hcant.trans (vcant.trans kcant), htap.trans (vtap.trans ktap),
      hcache.trans (vcache.trans kcache), hpending.trans (vpending.trans kpending)⟩, hmem.trans (vmem.trans kmem), hhl.trans (vhl.trans khl),
    hout.trans (vout.trans kout), hnode.trans (vnode.trans knode), rfl, hscr.trans (vscr.trans kscr)⟩
  case run =>
    refine congrArg Host.Outcome.next ((fromHead_comes hwalk ha hf _).trans ?_)
    rw [rxNote_forRelay, hm, if_pos rfl, ← hrx, hrelay]
  case queue =>
    rw [howe.regs, hv]
    show r.drv.dn ++ _ = _
    rw [hdrv, hdn, List.nil_append]

/-! ### The beacon -/

/-- The node at a beacon of flags SYNC alone (R194). -/
def beaconNode (f : Frame) (n : Node) : Node :=
  { n with
    beaconAge := some 0, slots := 0, attn := false, modCut := false
    bWalk := payNat f 6 1 % 16, bSys := payNat f 8 4, bSync := true, bMuster := bitAt (payNat f 6 1) 6 }

/-- What a beacon writes before line time is set. -/
def beaconShown (f : Frame) (p q : BitVec 16) (s : State) : State :=
  (s.setNode (beaconNode f)).sets [(fLPSTAT_TRACK, 1), (fLPSTAT_HOLD, 0), (fLPTERR_PHASE, p.toNat), (fLPTERR_RATE, q.toNat), (fRTCSTAT_VALID, 1)]

/-- The fraction of a tick that stands with the root group locked. -/
def fracSet (x : Nat) (s : State) : State := { s with clk := { s.clk with frac := if s.on fCLKSTAT_PLLLOCK then x else 0 } }

def beaconAt (s : State) (f : Frame) (rx : LineRx) : Nat := payNat f 0 6 * 6000 + s.detection rx.rate.val

/-- A beacon with SYNC and neither HOLD nor STEP. -/
theorem beaconIn_plain (hflags : payNat f 12 1 = 1) (p q : BitVec 16) : s.beaconIn f rx p q =
    (fracSet (beaconAt s f rx % 6000) ((beaconShown f p q s).setLine (beaconAt s f rx / 6000))).syncNow.belong (payNat f 6 1 % 16) (payNat f 8 4) := by
  have hsync : bitAt 1 0 = true := rfl
  have hhold : bitAt 1 1 = false := rfl
  have hstep : bitAt 1 2 = false := rfl
  unfold State.beaconIn
  rw [hflags]
  simp only [hsync, hhold, hstep, Bool.false_eq_true, if_false, Bool.false_and, Bool.not_false, Bool.and_true]
  rfl

theorem setLine_mod (s : State) (x : Nat) : s.setLine x = s.setLine (x % 2 ^ 48) := by
  have hlt : s.now < 2 ^ 48 := Nat.mod_lt _ (by decide)
  have hd : (x + 2 ^ 48 - s.now) % 2 ^ 48 = (x % 2 ^ 48 + 2 ^ 48 - s.now) % 2 ^ 48 := by omega
  rw [State.setLine, State.setLine, hd, Nat.mod_mod]

theorem belong_joined (hj : s.node.joined = true) (w y : Nat) : s.belong w y = s := by rw [State.belong, if_pos (by simp [hj])]

theorem rxNote_detection (s : State) (rx : LineRx) (r : Nat) : (s.rxNote rx).detection r = s.detection r := by
  have hw := rxNote_writes s rx
  rw [State.detection, State.detection, hw.on (g := fLPPROP_VALID) (by decide), hw.kept fLPPROP_PROP (by decide)]

/-- What a beacon shows in its fields. -/
theorem beaconShown_fields (f : Frame) (p q : BitVec 16) (s : State) : let t := beaconShown f p q s
    t.on fLPSTAT_TRACK = true ∧ t.on fLPSTAT_HOLD = false ∧ t.on fRTCSTAT_VALID = true ∧ t.fld fLPTERR_PHASE = p.toNat ∧
      t.fld fLPTERR_RATE = q.toNat := by
  dsimp only [beaconShown]
  generalize s.setNode (beaconNode f) = u
  rw [State.sets_cons, State.sets_cons, State.sets_cons, State.sets_cons, State.sets_cons, State.sets_nil]
  dsimp only
  refine ⟨?track, ?hold, on_setFld_one _ fRTCSTAT_VALID (by decide) (by decide), ?phase, ?rate⟩
  case track =>
    rw [on_setFld_other _ fRTCSTAT_VALID fLPSTAT_TRACK _ (by decide), on_setFld_other _ fLPTERR_RATE fLPSTAT_TRACK _ (by decide),
      on_setFld_other _ fLPTERR_PHASE fLPSTAT_TRACK _ (by decide), on_setFld_other _ fLPSTAT_HOLD fLPSTAT_TRACK _ (by decide)]
    exact on_setFld_one _ fLPSTAT_TRACK (by decide) (by decide)
  case hold =>
    rw [on_setFld_other _ fRTCSTAT_VALID fLPSTAT_HOLD _ (by decide), on_setFld_other _ fLPTERR_RATE fLPSTAT_HOLD _ (by decide),
      on_setFld_other _ fLPTERR_PHASE fLPSTAT_HOLD _ (by decide)]
    exact on_setFld_zero _ fLPSTAT_HOLD (by decide) (by decide)
  case phase =>
    rw [State.fld_setFld_other _ fRTCSTAT_VALID _ _ (by decide), State.fld_setFld_other _ fLPTERR_RATE _ _ (by decide),
      State.fld_setFld _ fLPTERR_PHASE _ (by decide)]
    exact Nat.mod_eq_of_lt p.isLt
  case rate =>
    rw [State.fld_setFld_other _ fRTCSTAT_VALID _ _ (by decide), State.fld_setFld _ fLPTERR_RATE _ (by decide)]
    exact Nat.mod_eq_of_lt q.isLt

/-- What a beacon leaves: line time at its detection, the node's view of the walk, and what it shows. -/
structure Beaconed (s : State) (f : Frame) (rx : LineRx) (p q : BitVec 16) (t : State) : Prop where
  line : t.clk.line % 2 ^ 48 = (payNat f 0 6 + s.detection rx.rate.val / 6000) % 2 ^ 48
  node : t.node = beaconNode f s.node
  track : t.on fLPSTAT_TRACK = true
  hold : t.on fLPSTAT_HOLD = false
  valid : t.on fRTCSTAT_VALID = true
  phase : t.fld fLPTERR_PHASE = p.toNat
  rate : t.fld fLPTERR_RATE = q.toNat
  heard : Heard s rx t

theorem beacon_taken (hc : s.role = .cell) (ha : s.awake = true) (hf : Comes f 0) (hflags : payNat f 12 1 = 1) (hj : s.node.joined = true)
    (hu : s.untimed = true) (p q : BitVec 16) : ∃ t : State, exec (.beacon f rx p q) s = .next t ∧ Beaconed s f rx p q t := by
  obtain ⟨r, hr⟩ : ∃ r, r = s.rxNote rx := ⟨_, rfl⟩
  have hnote : Writes rxFields s r := hr ▸ rxNote_writes s rx
  have hheard : Heard s rx r := hr ▸ rxNote_heard s rx
  have hat : beaconAt r f rx / 6000 = payNat f 0 6 + s.detection rx.rate.val / 6000 := by
    rw [beaconAt, hr, rxNote_detection]
    omega
  obtain ⟨b, hb⟩ : ∃ b, b = beaconShown f p q r := ⟨_, rfl⟩
  have hbw : Writes [fLPSTAT_TRACK, fLPSTAT_HOLD, fLPTERR_PHASE, fLPTERR_RATE, fRTCSTAT_VALID] (r.setNode (beaconNode f)) b :=
    hb ▸ (sets_writes _ _).mono (by simp)
  have hbnode : b.node = beaconNode f s.node := hbw.node.trans (congrArg (beaconNode f) hnote.node)
  have hbheard : Heard s rx b := hheard.writes hbw (by decide)
  have hrcalm : Calm r := (calm_of_untimed hu).of_writes hnote (by decide)
  have hbcalm : Calm b :=
    Calm.of_writes (s := r.setNode (beaconNode f)) ⟨hrcalm.sfe, hrcalm.font, hrcalm.motion, hrcalm.start, hrcalm.ringer, hrcalm.chorister⟩ hbw
      (by decide)
  obtain ⟨c, hcl⟩ : ∃ c, c = b.setLine (beaconAt r f rx / 6000) := ⟨_, rfl⟩
  obtain ⟨hline, hkept, hrest⟩ : LineSet b ((payNat f 0 6 + s.detection rx.rate.val / 6000) % 2 ^ 48) c := by
    rw [hcl, setLine_mod, hat]
    exact setLine_calm hbcalm (Nat.mod_lt _ (by decide))
  obtain ⟨-, -, -, -, hcnode, -, -⟩ := id hrest
  have hcheard : Heard s rx c := hbheard.kept (l := [fRTCFLAG_STEP]) (fun g hg => hkept g (by simpa using hg)) (by decide)
    (by rw [← hcnode]; exact hrest)
  obtain ⟨d, hd⟩ : ∃ d, d = fracSet (beaconAt r f rx % 6000) c := ⟨_, rfl⟩
  have hdkept : d.clk.line = c.clk.line ∧ d.node = c.node ∧ (∀ g, d.fld g = c.fld g) ∧ c.besidesAll d := by
    rw [hd]
    exact ⟨rfl, rfl, fun _ => rfl, ⟨rfl, rfl, rfl, rfl, rfl, rfl⟩, rfl, rfl, rfl, rfl, rfl, rfl⟩
  obtain ⟨hdline, hdnode, hdfld, hdrest⟩ := hdkept
  have hdheard : Heard s rx d := hcheard.kept (l := []) (fun g _ => hdfld g) (by decide) (by rw [← hdnode]; exact hdrest)
  have hend : Writes [fLPSTAT_SYNC, fLPSTAT_OWE] d d.syncNow.oweSync :=
    ((syncNow_writes d (List.mem_singleton_self _)).mono (by simp)).trans ((oweSync_writes _).mono (by simp))
  have hsnode : d.syncNow.node = beaconNode f s.node := (syncNow_writes d (List.mem_singleton_self _)).node.trans (hdnode.trans (hcnode.trans hbnode))
  have hfld : ∀ g, [fLPSTAT_SYNC, fLPSTAT_OWE, fRTCFLAG_STEP].all (fun f => f.other g) = true → d.syncNow.oweSync.fld g = b.fld g := by
    intro g hg
    simp only [List.all_cons, List.all_nil, Bool.and_true, Bool.and_eq_true] at hg
    obtain ⟨hsync, howe, hstep⟩ := hg
    rw [hend.kept g (by simp [hsync, howe]), hdfld, hkept g hstep]
  obtain ⟨htrack, hhold, hvalid, hphase, hrate⟩ := hb ▸ beaconShown_fields f p q r
  refine ⟨d.syncNow.oweSync, ?run, ?line, (oweSync_writes _).node.trans hsnode, (on_of_fld (hfld _ (by decide))).trans htrack,
    (on_of_fld (hfld _ (by decide))).trans hhold, (on_of_fld (hfld _ (by decide))).trans hvalid, (hfld _ (by decide)).trans hphase,
    (hfld _ (by decide)).trans hrate, hdheard.writes (g := id) hend (by decide)⟩
  case run =>
    refine congrArg Host.Outcome.next ((fromHead_comes (cell_onWalk hc) ha hf _).trans ?_)
    have hsj : d.syncNow.node.joined = true := by rw [hsnode]; exact hj
    rw [← hr, beaconIn_plain hflags, ← hb, ← hcl, ← hd, belong_joined hsj]
  case line =>
    rw [hend.regs]
    exact (congrArg (· % 2 ^ 48) hdline).trans hline

/-! ### The statement -/

/-- Settles O46: the receiver's note (`rxNote_heard`) and the checks of R184 (`fromHead_bad`, `fromHead_comes`) first, then what each type of frame
does to the node. -/
theorem nodeFrames : Obligations.NodeFrames := by
  unfold Obligations.NodeFrames
  intro s f rx p q g ha hlen hwait cell comes heard node seq last takes plain mine
  have hnode : ∀ {t : State}, Heard s rx t → node t := fun h => ⟨⟨h.lock, h.rate, h.swing⟩, h.rest⟩
  have hcomes : ∀ {n : Nat}, comes n → Comes f n := fun ⟨hok, htype, hwake⟩ => ⟨hok, htype, hwake⟩
  have htakes : takes → Takes s := fun ⟨hbooted, hwell, hundue⟩ => ⟨hbooted, hwell, hundue⟩
  obtain ⟨hquiet, hquietHeard, -⟩ := note_only s rx
  refine ⟨?bad, ?elsewhere, ?discarded, ?counted, ?beacon, ?grant, ?unasked, ?desc, ?again, ?other, ?relay, ?join, ?tokens, rfl, ?probe, ?silent,
    ?assign, ?clear, ?rejoin, ?notMine, ?range, ?time⟩
  case bad =>
    intro hw hf
    have hbad := fun n act => congrArg (Host.Outcome.next (φ := Fault) (ρ := Refusal)) (fromHead_bad (rx := rx) n hw ha hf act)
    exact ⟨hbad 0 _, hbad 1 _, hbad 2 _, hbad 3 _, hbad 7 _, hbad 8 _, hbad 10 _, hbad 11 _⟩
  case elsewhere =>
    intro hw
    exact ⟨congrArg Host.Outcome.next (fromHead_elsewhere 0 hw _), congrArg Host.Outcome.next (fromHead_elsewhere 2 hw _)⟩
  case discarded => exact fun hw => frameDiscarded_attached hw ha
  case counted =>
    intro hw
    obtain ⟨hh, hcount, hrest⟩ := badFrame_counted s rx
    exact ⟨_, (frameDiscarded_attached hw ha).symm, ⟨hh.lock, hh.rate, hh.swing⟩, hcount, hrest⟩
  case beacon =>
    intro hc hf hflags hj hu
    obtain ⟨t, hrun, h⟩ := beacon_taken hc ha (hcomes hf) hflags hj hu p q
    exact ⟨t, hrun, h.line, by rw [h.node]; rfl, by rw [h.node]; rfl, by rw [h.node]; rfl, by rw [h.node]; rfl, h.track, h.hold, h.valid, h.phase,
      h.rate, hnode h.heard⟩
  case grant =>
    intro hc hf hattn hpay hentry
    refine ⟨_, grant_gives hc ha (hcomes hf) hattn hpay hentry, ?_, ?_, hnode ((rxNote_heard s rx).setNode _).oweSync⟩
    all_goals rw [(oweSync_writes _).node]; rfl
  case unasked => exact fun hc hf hattn => ⟨_, grant_unasked hc ha (hcomes hf) hattn, hquiet, hnode hquietHeard⟩
  case desc =>
    intro hc hf hm htk ⟨_, htok⟩ hin _ hlast hseq hop hheld
    obtain ⟨t, hrun, hbox, hrx, hack, hwake, hh⟩ := desc_accepts hc ha (hcomes hf) hm (htakes htk) htok hin hlen hlast hseq hop hheld
    exact ⟨t, hrun, hbox, hrx, hack, hwake, hnode hh⟩
  case again =>
    intro hc hf hm htk ⟨_, htok⟩ _ hseq _
    obtain ⟨t, hrun, hbox, hrx, hack, hh⟩ := desc_repeats hc ha (hcomes hf) hm (htakes htk) htok hseq
    exact ⟨t, hrun, hbox, hrx, hack, hnode hh⟩
  case other => exact fun hc hf hm => ⟨_, desc_notMine hc ha (hcomes hf) hm, hquiet, hnode hquietHeard⟩
  case relay => exact fun hr hf hm hclosed hdn => desc_relayed hr ha (hcomes hf) hm hclosed hdn
  case join =>
    intro hc hf hm hsent ⟨_, htok⟩
    obtain ⟨t, hrun, hvalid, hjoined, hjsent, hjowed, hh⟩ := ackf_joins hc ha (hcomes hf) hm hsent htok
    exact ⟨t, hrun, hvalid, hjoined, hjsent, hjowed, hnode hh⟩
  case tokens =>
    intro hc hf hm hsent htok
    obtain ⟨t, hrun, hpend, hgrant, hh⟩ := ackf_grants hc ha (hcomes hf) hm hsent htok
    exact ⟨t, hrun, hpend, hgrant, hnode hh⟩
  case probe => exact fun hc hf hs hi hd hm => ⟨_, probe_matches hc ha (hcomes hf) hs hi hd hm, pulse_only s rx _⟩
  case silent => exact fun hc hf hi => ⟨_, probe_silent hc ha (hcomes hf) hi, hquiet, hnode hquietHeard⟩
  case assign =>
    intro hc hf hu hact hrole hb hj
    obtain ⟨t, hrun, haddr, hvalid, hst, hwalk, howed, hjoined, hseq, hjoining, hh⟩ := assign_names hc ha (hcomes hf) hu hact hrole hb hj
    exact ⟨t, hrun, haddr, hvalid, hst, hwalk, howed, hjoined, hseq, hjoining, hnode hh⟩
  case clear =>
    intro hc hf hu hact hb
    obtain ⟨t, hrun, hvalid, hst, hjoined, hflag, hh⟩ := assign_clears hc ha (hcomes hf) hu hact hb
    exact ⟨t, hrun, hvalid, hst, hjoined, hflag, hnode hh⟩
  case rejoin =>
    intro hc hf hu hact hb hj
    obtain ⟨t, hrun, hgrant, howed, hjoining, hh⟩ := assign_rejoins hc ha (hcomes hf) hu hact hb hj hwait
    exact ⟨t, hrun, hgrant, howed, hjoining, hnode hh⟩
  case notMine => exact fun hc hf hu hact => ⟨_, assign_notMine hc ha (hcomes hf) hu hact, hquiet, hnode hquietHeard⟩
  case range => exact fun hc hf hm hs => ⟨_, range_pulses hc ha (hcomes hf) hm hs, pulse_only s rx _⟩
  case time =>
    intro hc hf hm
    obtain ⟨t, hrun, hprop, hvalid, hack, hh⟩ := timeFrame_stores hc ha (hcomes hf) hm
    exact ⟨t, hrun, hprop, hvalid, hack, hnode hh⟩

end Sys2Proof.Proofs
end

section
/-! PROOF. The driver's side of the line with no downlink period open: what waits on a ring is queued, the header of an uplink frame and the SEQ it
carries, and a book in balance (R61, R146, R186, R189 to R191). O49. -/

namespace Sys2Proof.Proofs

open Sys2Proof Sys2Proof.Machine

variable {s t u : State} {f : Frame} {e : Enr}

/-! ### What the line's events move -/

/-- The line, the host's rings and what is sent out, with the registers that show them, move, and nothing else. -/
def LineMoves (s t : State) : Prop :=
  t = { s with regs := t.regs, node := t.node, drv := t.drv, scr := t.scr, hl := t.hl, out := t.out, pads := t.pads }

theorem LineMoves.trans (h : LineMoves s t) (k : LineMoves t u) : LineMoves s u := by
  rw [LineMoves, k, h]

theorem LineMoves.ofPosted (h : Posted s t) : LineMoves s t := by
  rw [h]
  rfl

theorem LineMoves.ofAnswered (h : Answered s t) : LineMoves s t := by
  rw [h]
  rfl

/-- The role, the cores, memory and the queue of commands stand. -/
theorem LineMoves.stands (h : LineMoves s t) : t.role = s.role ∧ t.dec = s.dec ∧ t.cant = s.cant ∧ t.mem = s.mem ∧ t.pending = s.pending := by
  rw [h]
  exact ⟨rfl, rfl, rfl, rfl, rfl⟩

theorem driverEvent_posted (s : State) (code : Nat) (src : Option Nat) (data : List Byte) : Posted s (s.driverEvent code src data) :=
  .ite (postRecord_posted s _) rfl

/-! ### A map with an entry put -/

theorem mapAt_mapPut (l : List (Nat × Nat)) (k v : Nat) : mapAt (mapPut l k v) k = v := by simp [mapAt, mapPut]

/-! ### Credits and what waits on a ring -/

theorem credit_ring (s : State) (k : Nat) : (s.credit k).ring = k := by
  unfold State.credit
  cases hfind : s.scr.credits.find? (fun c => c.ring = k) with
  | none => rfl
  | some c => simpa using List.find?_some hfind

theorem credit_setCredit (s : State) (c : Credit) (k : Nat) : (s.setCredit c).credit k = if c.ring = k then c else s.credit k := by
  unfold State.setCredit State.credit
  split
  next h => simp [h]
  next h =>
    have hne (x : Credit) : (!decide (x.ring = c.ring) && decide (x.ring = k)) = decide (x.ring = k) := by
      by_cases hx : x.ring = k
      · simp [hx, Ne.symm h]
      · simp [hx]
    simp [h, List.find?_filter, hne]

/-- Sending what waits on a ring with no downlink period open: frames are queued, credits and marks move, and every window stays. -/
structure Queues (s t : State) : Prop where
  eq : t = { s with
    scr := { s.scr with credits := t.scr.credits, held := t.scr.held },
    drv := { s.drv with dn := t.drv.dn, seqTx := t.drv.seqTx, fwd := t.drv.fwd } }
  window : ∀ k, (t.credit k).g = (s.credit k).g
  held : t.scr.held.length = s.scr.held.length

namespace Queues

theorem refl (s : State) : Queues s s := ⟨rfl, fun _ => rfl, rfl⟩

theorem trans (h : Queues s t) (k : Queues t u) : Queues s u := by
  refine ⟨?_, fun n => (k.window n).trans (h.window n), k.held.trans h.held⟩
  rw [k.eq, h.eq]

theorem moves (h : Queues s t) : LineMoves s t := by
  rw [h.eq]
  rfl

theorem rings (h : Queues s t) : t.scr.rings = s.scr.rings := by rw [h.eq]

theorem out (h : Queues s t) : t.out = s.out := by rw [h.eq]

theorem closed (h : Queues s t) : t.drv.dnOpen = s.drv.dnOpen := by rw [h.eq]

theorem enr (h : Queues s t) : t.drv.enr = s.drv.enr := by rw [h.eq]

theorem role (h : Queues s t) : t.role = s.role := by rw [h.eq]

end Queues

theorem setCredit_queues (s : State) {c : Credit} (hg : c.g = (s.credit c.ring).g) : Queues s (s.setCredit c) := by
  refine ⟨rfl, fun k => ?_, rfl⟩
  rw [credit_setCredit]
  split
  next h => rw [hg, h]
  next => rfl

theorem dnPut_queues (s : State) (f : Frame) : Queues s (s.dnPut f) := ⟨rfl, fun _ => rfl, rfl⟩

theorem down_queues (h : s.drv.dnOpen = false) (f : Frame) : Queues s (s.down f) := by
  rw [down_closed s f h]
  exact dnPut_queues s f

theorem dnDesc_queues (h : s.drv.dnOpen = false) (ra : Bool) (addr : Nat) (bytes : List Byte) : Queues s (s.dnDesc ra addr bytes).2 := by
  obtain ⟨l, hl⟩ : ∃ l, l = mapPut s.drv.seqTx (lineKey ra addr 0) ((mapAt s.drv.seqTx (lineKey ra addr 0) + 1) % 256) := ⟨_, rfl⟩
  have hseq : Queues s (s.setDrv fun d => { d with seqTx := l }) := ⟨rfl, fun _ => rfl, rfl⟩
  unfold State.dnDesc
  dsimp only
  rw [← hl]
  exact hseq.trans (down_queues (s := s.setDrv fun d => { d with seqTx := l }) h _)

theorem setHeld_queues (s : State) (h : Held) : Queues s (s.setHeld h) := ⟨rfl, fun _ => rfl, List.length_map ..⟩

theorem fwdSent_queues (s : State) (f : Fwd) (n : Nat) : Queues s (s.fwdSent f n) := ⟨rfl, fun _ => rfl, rfl⟩

theorem sendWaiting_queues (n ring : Nat) (s : State) (h : s.drv.dnOpen = false) : Queues s (s.sendWaiting n ring) := by
  induction n generalizing s with
  | zero => exact .refl s
  | succ n ih =>
    have hbook (c : Credit) (hc : c.ring = ringKey ring) (hg : c.g = (s.credit (ringKey ring)).g) : Queues s (s.setCredit c) :=
      setCredit_queues s (by rw [hc, hg])
    have hgo (t : State) (ht : Queues s t) : Queues s (t.sendWaiting n ring) := ht.trans (ih t (ht.closed.trans h))
    unfold State.sendWaiting
    dsimp only
    split
    · exact .refl s
    · split
      · split
        · exact .refl s
        · have hasks := hbook { s.credit (ringKey ring) with asked := true } (credit_ring ..) rfl
          exact hasks.trans (down_queues (hasks.closed.trans h) _)
      · split
        · have htook := hbook { s.credit (ringKey ring) with c := (s.credit (ringKey ring)).c + 1 } (credit_ring ..) rfl
          have hopen := htook.closed.trans h
          split
          · exact hgo _ ((htook.trans (dnDesc_queues hopen _ _ _)).trans (setHeld_queues _ _))
          · exact hgo _ ((htook.trans (dnDesc_queues hopen _ _ _)).trans (fwdSent_queues _ _ _))
          · exact .refl s
        · exact .refl s

theorem trySend_queues (h : s.drv.dnOpen = false) (ring : Nat) : Queues s (s.trySend ring) := sendWaiting_queues _ _ s h

theorem settle_queues (h : s.drv.dnOpen = false) (k : Nat) : Queues s (s.settle k) :=
  (setCredit_queues s (c := { s.credit k with c := (s.credit k).c - 1 }) (congrArg (fun n => (s.credit n).g) (credit_ring s k).symm)).trans
    (trySend_queues (s := s.setCredit _) h _)

/-- The window that a peer announces stands on its ring. -/
theorem takeWindow_window (h : s.drv.dnOpen = false) (k g : Nat) : ((s.takeWindow k g).credit k).g = g ∧
    (s.takeWindow k g).drv.enr = s.drv.enr ∧ LineMoves s (s.takeWindow k g) := by
  obtain ⟨c, hc⟩ : ∃ c, c = (if (s.credit k).known then { s.credit k with g := g }
    else { s.credit k with g := g, c := (s.credit k).stale, known := true, asked := false }) := ⟨_, rfl⟩
  have hfacts : c.ring = k ∧ c.g = g := by
    rw [hc]
    split
    · exact ⟨credit_ring s k, rfl⟩
    · exact ⟨credit_ring s k, rfl⟩
  obtain ⟨hring, hg⟩ := hfacts
  have hsend : Queues (s.setCredit c) (s.takeWindow k g) := by
    rw [State.takeWindow, ← hc]
    exact trySend_queues (s := s.setCredit c) h _
  refine ⟨?_, hsend.enr, LineMoves.trans (t := s.setCredit c) rfl hsend.moves⟩
  rw [hsend.window, credit_setCredit, if_pos hring, hg]

/-- With nothing held or forwarded a known window is only stored. -/
theorem takeWindow_stores {k g : Nat} (hk : (s.credit k).known = true) (hheld : s.scr.held = []) (hfwd : s.drv.fwd = []) :
    s.takeWindow k g = s.setCredit { s.credit k with g := g } := by
  rw [State.takeWindow, if_pos hk, State.trySend]
  have hlen : (s.setCredit { s.credit k with g := g }).scr.held.length + (s.setCredit { s.credit k with g := g }).drv.fwd.length = 0 := by
    simp [State.setCredit, hheld, hfwd]
  rw [hlen]
  rfl

/-! ### Uplink frames at the Chapter -/

/-- A good frame of a type that comes up. -/
structure Rises (f : Frame) (type : Nat) : Prop where
  ok : frameOk true false f = true
  type : frType f = type

theorem fromWalk_rises {type : Nat} (hd : s.drives = true) (hf : Rises f type) (act : State → State) : s.fromWalk type f act = act s := by
  simp [State.fromWalk, hd, hf.ok, hf.type]

theorem fromWalk_bad (type : Nat) (hd : s.drives = true) (hf : frameOk true false f = false) (act : State → State) :
    s.fromWalk type f act = s.badFrame := by
  simp [State.fromWalk, hd, hf]

/-- The sender of a frame is the only Cell enrolled, is there, and is not being ranged. -/
structure Sender (s : State) (f : Frame) (e : Enr) : Prop where
  cell : frRA f = false
  walk : cellWalk (frAddr f) = 0
  enr : s.drv.enr = [e]
  pos : e.pos = frAddr f
  present : e.absent = false
  ranged : e.ranges = 0

section
variable (hc : s.role = .chapter)
include hc

omit hc in
theorem Sender.position (h : Sender s f e) : frAddr f % 256 = e.pos := by
  have hwalk : frAddr f / 256 = 0 := h.walk
  rw [h.pos]
  omega

theorem Sender.known (h : Sender s f e) : s.upKnown f = true := by
  rw [State.upKnown, h.cell, if_neg Bool.false_ne_true, drvWalk_chapter hc, if_pos h.walk, h.position, enr?_single s e h.enr]
  simp [h.present]

/-- What the header of its frame tells of a Cell that neither asks for tokens nor is ranged: MORE, and what it acknowledges. -/
def headerHeard (s : State) (f : Frame) (e : Enr) : State :=
  (s.setDrv fun d => { d with enr := [{ e with more := frMore f, asked := false }] }).dnAcked (frKey f) (frAck f)

theorem upHeader_heard (h : Sender s f e) (htok : frTok f = none) : s.upHeader f = match frWin f with
    | some g => (headerHeard s f e).takeWindow (frKey f) g
    | none => headerHeard s f e := by
  have hon : s.onEnr (frAddr f % 256) (fun e => { e with more := frMore f, asked := e.ranges != 0 && e.asked }) =
      s.setDrv fun d => { d with enr := [{ e with more := frMore f, asked := false }] } := by
    simp [State.onEnr, State.setDrv, h.enr, h.position, h.ranged]
  have hrole : (s.setDrv fun d => { d with enr := [{ e with more := frMore f, asked := false }] }).role = .chapter := hc
  unfold State.upHeader
  rw [h.cell, drvWalk_chapter hc, h.walk, htok]
  simp only [Bool.not_false, decide_true, Bool.and_self, if_true, Bool.false_eq_true, if_false]
  rw [hon, if_pos hrole]
  cases frWin f <;> rfl

end

/-- What an accepted frame leaves once `u` holds what it brought. -/
structure Acked (f : Frame) (u t : State) : Prop where
  seq : mapAt t.drv.seqRx (frKey f) = bitsOf f.hdr 32 8
  due : frKey f ∈ t.drv.ackDue
  scr : t.scr = u.scr
  out : t.out = u.out
  moves : LineMoves u t

theorem oweAck_closed (h : s.drv.dnOpen = false) (k : Nat) : s.oweAck k = s.setDrv fun d => { d with
    ackDue := if d.ackDue.contains k then d.ackDue else k :: d.ackDue } := dnFlush_closed _ h

theorem mem_oweAck (h : s.drv.dnOpen = false) (k : Nat) : k ∈ (s.oweAck k).drv.ackDue := by
  rw [oweAck_closed h]
  show k ∈ if s.drv.ackDue.contains k then s.drv.ackDue else k :: s.drv.ackDue
  split
  next h => simpa using h
  next => exact List.mem_cons_self ..

/-- The acknowledgement that is owed once the frame's SEQ is stored. -/
theorem oweAck_acked {w : State} (h : w.drv.dnOpen = false) (hseq : mapAt w.drv.seqRx (frKey f) = bitsOf f.hdr 32 8) (hscr : w.scr = u.scr)
    (hout : w.out = u.out) (hmoves : LineMoves u w) : Acked f u (w.oweAck (frKey f)) := by
  refine ⟨?seq, mem_oweAck h _, ?scr, ?out, hmoves.trans ?moves⟩
  all_goals rw [oweAck_closed h]
  case seq => exact hseq
  case scr => exact hscr
  case out => exact hout
  case moves => rfl

/-- A frame in SEQ order at the Chapter is taken where its action takes it, and acknowledged. -/
theorem upFrame_accepts {act : State → Bool × State} (ht : s.upHeader f = t) (hc : t.role = .chapter)
    (hnext : bitsOf f.hdr 32 8 = (mapAt t.drv.seqRx (frKey f) + 1) % 256) (hlast : mapAt t.drv.seqRx (frKey f) < 256)
    (hact : act t = (true, u)) (hopen : u.drv.dnOpen = false) : Acked f u (s.upFrame f act) := by
  have hcase : seqCase (mapAt t.drv.seqRx (frKey f)) (bitsOf f.hdr 32 8) = .accept := by
    rw [hnext, seqCase, if_pos (by omega)]
  have hput : mapAt (mapPut u.drv.seqRx (frKey f) (bitsOf f.hdr 32 8)) (frKey f) = bitsOf f.hdr 32 8 := mapAt_mapPut _ _ _
  unfold State.upFrame
  dsimp only
  rw [ht, hc, if_neg (by decide), hcase, hact]
  dsimp only
  rw [if_pos rfl]
  split
  · exact oweAck_acked hopen hput rfl rfl rfl
  · exact oweAck_acked hopen hput rfl rfl rfl

/-! ### Books -/

/-- Where no Cell that a request names wants tokens nothing is granted. -/
theorem serveList_unasked (l : List Nat) (s : State) (h : ∀ pos e, s.enr? pos = some e → e.wanted = none) : s.serveList l = s := by
  induction l with
  | nil => rfl
  | cons pos rest ih =>
    unfold State.serveList
    split
    next => exact ih
    next e he =>
      rw [h pos e he]
      exact ih

theorem bookSync_unasked (h : ∀ pos e, s.enr? pos = some e → e.wanted = none) : ∃ t, Posted s t ∧ s.bookSync = noticed s t := by
  have hevent (t : State) (c : Bool) (code : Nat) (data : List Byte) : Posted t (if c = true then t.driverEvent code none data else t) :=
    .ite (driverEvent_posted t code none data) (.refl t)
  obtain ⟨t, ht, hsync⟩ : ∃ t, Posted s t ∧ s.bookSync = (noticed s t).serve := ⟨_, (hevent s _ _ _).trans (hevent _ _ _ _), rfl⟩
  refine ⟨t, ht, hsync.trans (serveList_unasked _ _ fun pos e he => h pos e ?_)⟩
  rw [State.enr?, ← he, State.enr?, noticed, State.setFld_drv, State.setDrv_drv, ht]

/-- A book in balance posts nothing. -/
theorem bookSync_balanced (hbudget : 0 ≤ s.budget) (hdeficit : s.deficit = 0) (hreqs : s.drv.reqs = []) :
    s.bookSync = (s.setDrv fun d => { d with overloadSeen := false, deficitSeen := false }).setFld fBOOKFLAG_DEFICIT 0 := by
  have hover : decide (s.budget < 0) = false := by simpa using hbudget
  have hshort : decide (0 < s.deficit) = false := by simp [hdeficit]
  have hserve (t : State) (ht : t.drv.reqs = []) : t.serve = t := by rw [State.serve, ht]; rfl
  unfold State.bookSync
  dsimp only
  rw [hover, hshort]
  exact hserve _ hreqs

end Sys2Proof.Proofs
end

section
/-! PROOF. Frames that come up to the Chapter: completions, records, stream bytes, reports, acknowledgements and JOIN (R189 to R193, R236, R237,
R239, R572). O49. -/

namespace Sys2Proof.Proofs

open Sys2Proof Sys2Proof.Machine

variable {s t u : State} {f : Frame} {e : Enr} {h : Held} {r : Ring}

/-! ### The header of a Cell's frame -/

section
variable (hc : s.role = .chapter) (hs : Sender s f e) (htok : frTok f = none)
include hc hs htok

/-- The frame of a known Cell goes to its type's action, once its header is heard. -/
theorem upFrame_heard {act : State → Bool × State} (hwin : frWin f = none) (hd : s.drv.dnOpen = false)
    (hnext : bitsOf f.hdr 32 8 = (mapAt s.drv.seqRx (frKey f) + 1) % 256) (hlast : mapAt s.drv.seqRx (frKey f) < 256)
    (hact : act (headerHeard s f e) = (true, u)) (hu : u.drv.dnOpen = s.drv.dnOpen) : Acked f u (s.upFrame f act) := by
  have hheader : s.upHeader f = headerHeard s f e := by rw [upHeader_heard hc hs htok, hwin]
  exact upFrame_accepts hheader hc hnext hlast hact (hu.trans hd)

end

theorem headerHeard_moves (s : State) (f : Frame) (e : Enr) : LineMoves s (headerHeard s f e) := rfl

/-! ### Completions -/

/-- A completion of the only descriptor held ends it where its ring has room. -/
theorem takeCompl_finishes {k : Nat} {entry : List Byte} (hstale : (s.credit k).staleSeq = []) (hlost : s.scr.lost = [])
    (hheld : s.scr.held = [h]) (hp : h.phase = 2) (hk : ringKey h.ring = k) (hseq : h.seq = (entry.getD 13 0).toNat)
    (hroom : s.entryRoom h.ring = true) (hop : dsOpcode h.d = 1) :
    s.takeCompl k entry = (true, ((s.finishHeld h entry).unsend k h.seq).settle k) := by
  have hfind : s.scr.held.find? (fun x => x.phase = 2 && ringKey x.ring = k && x.seq = h.seq) = some h := by simp [hheld, hp, hk]
  unfold State.takeCompl
  dsimp only
  rw [← hseq, hstale, hlost, hfind]
  simp [hroom, hop]

theorem entryRoom_empty (hring : s.ring? r.n = some r) (hhost : s.hostReady = true) (ht : r.ctail = 0) (hch : r.ch = 0) :
    s.entryRoom r.n = true := by
  have hdist : r.dist r.ch r.ctail < r.size := by
    have hpos : 0 < r.size := Nat.two_pow_pos _
    rw [hch, ht, Ring.dist, Nat.zero_add, Nat.sub_zero, Nat.mod_self]
    exact hpos
  rw [State.entryRoom, hring]
  simp [hhost, hdist]

/-- What an accepted completion leaves. -/
structure Completed (s : State) (r : Ring) (entry : List Byte) (t : State) : Prop where
  held : t.scr.held = []
  tail : t.scr.rings.map (fun q => q.ctail) = [1]
  written : .hostWrite r.cbase entry ∈ t.out
  closed : t.drv.dnOpen = s.drv.dnOpen
  moves : LineMoves s t

theorem takeCompl_completes {entry : List Byte} (hd : s.drv.dnOpen = false) (hheld : s.scr.held = [h]) (hrings : s.scr.rings = [r])
    (hn : r.n = h.ring) (hst : r.st = 1) (hlog : r.log2n = 4) (ht : r.ctail = 0) (hch : r.ch = 0) (hdone : r.done = []) (hslot : r.dhead = h.slot)
    (hsig : r.signal = false) (hhost : s.hostReady = true) (k : Nat) :
    Completed s r entry (((s.finishHeld h entry).unsend k h.seq).settle k) := by
  have hring : s.ring? r.n = some r := ring?_only hrings rfl
  have hroom : r.dist r.ch r.ctail < r.size := by rw [hch, ht, Ring.dist, Ring.size, hlog]; decide
  obtain ⟨v, hfinish, hvheld, hvrings, hvout, -, -, -, -, -, hvdrv, -⟩ :=
    finishHeld_oldest entry (hn ▸ hring) hheld hslot.symm hdone hhost hroom hsig (by rw [hst]; decide)
  have hmoves : LineMoves s v.freeTag := hfinish ▸ .ofAnswered (finishHeld_answered s h entry)
  obtain ⟨w, hw⟩ : ∃ w, w = v.freeTag.unsend k h.seq := ⟨_, rfl⟩
  have hwfacts : w.scr = v.scr ∧ w.out = v.out ∧ w.drv.dnOpen = s.drv.dnOpen ∧ LineMoves v.freeTag w := by
    rw [hw]
    exact ⟨rfl, rfl, (congrArg Drv.dnOpen hvdrv : v.drv.dnOpen = s.drv.dnOpen), rfl⟩
  obtain ⟨hwscr, hwout, hwopen, hwmoves⟩ := hwfacts
  have hq : Queues w (w.settle k) := settle_queues (hwopen.trans hd) k
  rw [hfinish, ← hw]
  refine ⟨?held, ?tail, ?written, hq.closed.trans hwopen, (hmoves.trans hwmoves).trans hq.moves⟩
  case held => exact List.eq_nil_of_length_eq_zero (by rw [hq.held, hwscr, hvheld]; rfl)
  case tail =>
    rw [hq.rings, hwscr, hvrings, rings_setRing_only hrings (show r.n = (oldestDone r).n from rfl)]
    show [r.next r.ctail] = [1]
    rw [ht, Ring.next, Ring.size, hlog]
    rfl
  case written =>
    rw [hq.out, hwout]
    rwa [ht, Nat.zero_mod, Nat.mul_zero, Nat.add_zero] at hvout

/-! ### Records -/

/-- What a record written into an Event ring leaves. -/
structure RecordWritten (s : State) (r : Ring) (rec : List Byte) (t : State) : Prop where
  head : t.scr.rings.map (fun q => q.dhead) = [1]
  written : .hostWrite r.dbase rec ∈ t.out
  posted : Posted s t
  closed : t.drv = s.drv

theorem ringRecord_writes {rec : List Byte} (hrings : s.scr.rings = [r]) (hst : r.st = 1) (hk : r.kind = 1) (hlog : r.log2n = 4) (hp : r.p = 0)
    (hhead : r.dhead = 0) (hsig : r.signal = false) (hhost : s.hostReady = true) :
    ∃ t, s.ringRecord r.n rec = some t ∧ RecordWritten s r rec t := by
  have hring : s.ring? r.n = some r := ring?_only hrings rfl
  have hroom : r.dist r.p r.dhead < r.size := by rw [hp, hhead, Ring.dist, Ring.size, hlog]; decide
  obtain ⟨q, hq⟩ : ∃ q, q = ({ r with dhead := r.next r.dhead } : Ring) := ⟨_, rfl⟩
  have hqfacts : q.n = r.n ∧ q.signal = false ∧ q.dhead = 1 := by
    rw [hq]
    refine ⟨rfl, hsig, ?_⟩
    show r.next r.dhead = 1
    rw [hhead, Ring.next, Ring.size, hlog]
    rfl
  obtain ⟨hqn, hqsig, hqhead⟩ := hqfacts
  have hrun : s.ringRecord r.n rec = some (((s.emit (.hostWrite (r.dbase + 16 * (r.dhead % r.size)) rec)).setRing q).writeCtx q) := by
    rw [State.ringRecord, hring]
    dsimp only
    rw [← hq, if_pos (by simp [hst, hk, hhost, hroom]), State.signal, if_neg (by simp [hqsig])]
  refine ⟨_, hrun, ?head, ?written, ringRecord_posted hrun, rfl⟩
  case head =>
    show ((s.emit _).setRing q).scr.rings.map _ = _
    rw [rings_setRing_only (s := s.emit (.hostWrite (r.dbase + 16 * (r.dhead % r.size)) rec)) hrings hqn.symm]
    exact congrArg (fun n => [n]) hqhead
  case written =>
    have haddr : r.dbase + 16 * (r.dhead % r.size) = r.dbase := by rw [hhead, Nat.zero_mod, Nat.mul_zero, Nat.add_zero]
    rw [haddr]
    exact List.mem_cons_of_mem _ (List.mem_cons_self ..)

/-! ### Stream bytes -/

theorem credit_none (hcr : s.scr.credits = []) (k : Nat) : (s.credit k).staleSeq = [] := by simp [State.credit, hcr]

/-- Result bytes go to the only descriptor of the ring, where its buffer has room. -/
theorem resultIn_only {k : Nat} {bs : List Byte} (hheld : s.scr.held = [h]) (hp : h.phase = 2) (hk : ringKey h.ring = k) (hlen : h.rlen = 0)
    (hlost : s.scr.lost = []) (hcr : s.scr.credits = []) (hfwd : s.drv.fwd = []) (hbuf : dsResbuf h.d = true) (hroom : bs.length ≤ dsReslen h.d)
    (hbs : bs ≠ []) : s.resultIn k bs = (s.emit (.hostWrite (dsResaddr h.d) bs)).setHeld { h with rlen := bs.length } := by
  have hold : s.oldestSeq k = some h.seq := by simp [State.oldestSeq, hheld, hp, hk, hlost, credit_none hcr, hfwd]
  have hfind : s.scr.held.find? (fun x => x.phase = 2 && ringKey x.ring = k && x.seq = h.seq) = some h := by simp [hheld, hp, hk]
  have htake : bs.take (dsReslen h.d) = bs := List.take_of_length_le hroom
  have hbytes : s.resultBytes h.d h.rlen bs = s.emit (.hostWrite (dsResaddr h.d) bs) := by
    rw [State.resultBytes, hlen, hbuf, if_pos rfl, Nat.sub_zero, htake, if_neg (by simpa using hbs), Nat.add_zero]
  rw [State.resultIn, hold]
  dsimp only
  rw [hfind]
  dsimp only
  rw [hbytes, hlen, Nat.zero_add]

theorem rises_stream (hf : Rises f 6) : 1 ≤ f.payload.length ∧ f.payload.length ≤ 64 := by
  have hok := hf.ok
  simp only [frameOk, hf.type, lenOk, Bool.and_eq_true, decide_eq_true_eq] at hok
  obtain ⟨⟨⟨-, hlen⟩, hlo, hhi⟩, -⟩ := hok
  rw [← hlen]
  exact ⟨hlo, hhi⟩

/-! ### Reports -/

/-- A report of the only Crossing known reaches its records once its header is heard. -/
theorem upHeader_crossing (hc : s.role = .chapter) (hra : frRA f = true) (hd : s.drv.dnOpen = false) :
    s.upHeader f = (s.onXing (frAddr f) fun x => { x with more := frMore f, relay := min 256 (x.relay + frRelcred f) }).dnAcked (frKey f) (frAck f) := by
  obtain ⟨v, hv⟩ : ∃ v, v = s.onXing (frAddr f) fun x => { x with more := frMore f, relay := min 256 (x.relay + frRelcred f) } := ⟨_, rfl⟩
  have hfacts : v.role = .chapter ∧ (v.dnAcked (frKey f) (frAck f)).drv.dnOpen = false := by
    rw [hv]
    exact ⟨hc, hd⟩
  obtain ⟨hrole, hclosed⟩ := hfacts
  unfold State.upHeader
  rw [hra]
  simp only [Bool.not_true, Bool.false_and, Bool.false_eq_true, if_false, if_true]
  rw [← hv, if_pos hrole, dnFlush_closed _ hclosed]

theorem records_one {bs : List Byte} (h : bs.length = 16) : records 4 bs = [bs] := by
  have hne : bs.isEmpty = false := by
    cases bs with
    | nil => cases h
    | cons => rfl
  have htake : bs.take 16 = bs := List.take_of_length_le h.le
  have hdrop : bs.drop 16 = [] := List.drop_eq_nil_of_le h.le
  rw [records, hne, if_neg Bool.false_ne_true, htake, hdrop, records]
  rfl

/-- A record that only the host needs is posted. -/
theorem takeRecord_posts {n : Nat} {rec : List Byte} (h : leNat (rec.take 2) = 0x0006) : s.takeRecord n rec = s.postRecord rec := by
  unfold State.takeRecord
  dsimp only
  rw [h]
  rfl

/-! ### JOIN -/

/-- A Cell that holds and asks for nothing is answered with no tokens. -/
theorem tokenAsk_nothing (he : s.drv.enr = [e]) (hheld : e.held = 0) (hd : s.drv.dnOpen = false) : ∃ t, s.tokenAsk e.pos 0 = t ∧
    t.drv.enr = [{ e with wanted := none }] ∧ t.drv.dnOpen = false ∧ LineMoves s t := by
  have hset : (s.setEnr { e with held := 0, wanted := none }).drv.enr = [{ e with wanted := none }] := by
    simp [State.setEnr, he, ← hheld]
  unfold State.tokenAsk
  rw [enr?_single s e he]
  dsimp only
  rw [if_pos (Nat.zero_le _)]
  obtain ⟨v, hv⟩ : ∃ v, v = (s.setEnr { e with held := 0, wanted := none }).setDrv fun d =>
    { d with freed := d.freed + (e.held - 0), reqs := d.reqs.filter (· != e.pos) } := ⟨_, rfl⟩
  have hvfacts : v.drv.enr = [{ e with wanted := none }] ∧ v.drv.dnOpen = false ∧ LineMoves s v := by
    rw [hv]
    exact ⟨hset, hd, rfl⟩
  obtain ⟨hvenr, hvopen, hvmoves⟩ := hvfacts
  rw [← hv]
  refine ⟨_, dnFlush_closed _ hvopen, hvenr, hvopen, hvmoves.trans rfl⟩

/-- The entry of a Cell that joins (R193). -/
def joined (f : Frame) : Enr := ⟨frAddr f, payNat f 0 8, false, true, 0, 0, 0, 0, 0, none, frMore f, 8, 0⟩

/-- A newcomer's JOIN enrols it. -/
theorem joinCell_enrols (hpos : frAddr f % 256 = frAddr f) (he : s.drv.enr = []) (hd : s.drv.dnOpen = false) (hw : payNat f 12 1 = 0) :
    (s.joinCell f).drv.enr = [joined f] ∧ (s.joinCell f).drv.dnOpen = false ∧ LineMoves s (s.joinCell f) := by
  obtain ⟨v, hv⟩ : ∃ v, v = ((s.setDrv fun d => { d with
      enr := d.enr.filter (fun x => x.uid != payNat f 0 8) ++ [joined f]
      binds := d.binds.filter (fun b => b.1 != payNat f 0 8)
      conflicts := d.conflicts.filter (fun p => p.1 != frAddr f) }).seqRestart false (frAddr f)).dnPut (ackFrame (lineKey false (frAddr f) 0) 0 0) :=
    ⟨_, rfl⟩
  have hvfacts : v.drv.enr = [joined f] ∧ v.drv.dnOpen = false ∧ LineMoves s v := by
    rw [hv]
    refine ⟨?_, hd, rfl⟩
    show s.drv.enr.filter (fun x => x.uid != payNat f 0 8) ++ [joined f] = [joined f]
    rw [he]
    rfl
  obtain ⟨hvenr, hvopen, hvmoves⟩ := hvfacts
  obtain ⟨w, hwv⟩ : ∃ w, w = v.driverEvent 0x0021 (some (frAddr f)) (leBytes 6 (payNat f 0 8)) := ⟨_, rfl⟩
  have hposted : Posted v w := hwv ▸ driverEvent_posted v _ _ _
  have hwdrv : w.drv = v.drv := by rw [hposted]
  have hwenr : w.drv.enr = [joined f] := by rw [hwdrv, hvenr]
  obtain ⟨x, hx, hbook⟩ := bookSync_unasked (s := w) (by
    intro pos e hfind
    have hmem := List.mem_of_find?_eq_some hfind
    rw [hwenr, List.mem_singleton] at hmem
    rw [hmem]
    rfl)
  have hxdrv : x.drv = w.drv := by rw [hx]
  have hbenr : w.bookSync.drv.enr = [joined f] := by
    rw [hbook]
    show x.drv.enr = _
    rw [hxdrv, hwenr]
  have hbopen : w.bookSync.drv.dnOpen = false := by
    rw [hbook]
    show x.drv.dnOpen = _
    rw [hxdrv, hwdrv, hvopen]
  have hbmoves : LineMoves w w.bookSync := by
    rw [hbook]
    exact (LineMoves.ofPosted hx).trans rfl
  obtain ⟨t, hask, htenr, htopen, htmoves⟩ := tokenAsk_nothing (e := joined f) hbenr rfl hbopen
  have hrun : s.joinCell f = t := by
    unfold State.joinCell
    dsimp only
    rw [enr?_nil s _ he]
    dsimp only
    rw [hpos]
    show (((_ : State).dnFlush.driverEvent 0x0021 _ _).bookSync).tokenAsk _ _ = t
    rw [hw, ← hask, hwv, ← dnFlush_closed v hvopen, hv]
    rfl
  rw [hrun]
  exact ⟨htenr, htopen, ((hvmoves.trans (.ofPosted hposted)).trans hbmoves).trans htmoves⟩

end Sys2Proof.Proofs
end

section
/-! PROOF. What comes up a driven walk: the windows of roll call, frames to the host's rings, ranging, and what is sent again (R184, R189 to R195,
R201, R205, R236, R237, R239, R572). O49. -/

namespace Sys2Proof.Proofs

open Sys2Proof Sys2Proof.Machine

variable {s t : State} {f : Frame} {e : Enr} {h : Held} {r : Ring} {rx : LineRx} {k : Nat}

/-! ### Probe windows (R192, R193) -/

/-- A roll call that has prefixes left goes on. -/
theorem rollEnd_left {x : Roll} (hr : s.drv.roll = some x) (hx : x.stack ≠ []) : s.rollEnd = s := by
  rw [State.rollEnd, hr]
  exact if_pos (by simp [hx])

theorem probeWindowEnd_none (answers xing : BitVec 16) (hr : s.drv.roll = none) : exec (.probeWindowEnd answers xing) s = .next s := by
  show execProbeWindowEnd answers xing s = _
  rw [execProbeWindowEnd, hr]

/-- The answers 0 and 15 to the empty prefix are its two extensions. -/
theorem probeWindowEnd_extends (hr : s.drv.roll = some ⟨[], some (0, 0), 0⟩) (hd : s.drv.dnOpen = false) :
    exec (.probeWindowEnd 0x8001#16 0#16) s =
      .next (s.setDrv fun d => { d with roll := some ⟨[(0, 1), (15 * 16 ^ 15, 1)], none, 0⟩ }) := by
  have hanswers : (List.range 16).reverse.filter (fun v => (0x8001#16).getLsbD v) = [15, 0] := by decide
  obtain ⟨u, hu⟩ : ∃ u, u = s.setDrv fun d => { d with roll := some ⟨[(0, 1), (15 * 16 ^ 15, 1)], none, 0⟩ } := ⟨_, rfl⟩
  have hfacts : u.drv.dnOpen = false ∧ u.drv.roll = some ⟨[(0, 1), (15 * 16 ^ 15, 1)], none, 0⟩ := by
    rw [hu]
    exact ⟨hd, rfl⟩
  obtain ⟨hopen, hroll⟩ := hfacts
  have hgo : u.probeNext.rollEnd = u := by rw [probeNext_closed u hopen, rollEnd_left hroll (by simp)]
  show execProbeWindowEnd _ _ s = _
  rw [execProbeWindowEnd, hr]
  dsimp only
  rw [hanswers, if_neg (by decide), ← hu, ← hgo, hu]
  rfl

/-- Position 0 is the lowest free where there is no Cell and no binding. -/
theorem freePos_first (he : s.drv.enr = []) (hb : s.drv.binds = []) : s.freePos = 0 := by
  have hrange : List.range 256 = 0 :: (List.range 255).map Nat.succ := List.range_succ_eq_map
  rw [State.freePos, hrange, List.find?_cons_of_pos (by simp [he, hb])]
  rfl

theorem assign_first (uid : Nat) (he : s.drv.enr = []) (hb : s.drv.binds = []) (hd : s.drv.dnOpen = false) : s.assign uid false =
    (s.setDrv fun d => { d with
      binds := [(uid, 0)], roll := d.roll.map fun (q : Roll) => { q with found := q.found + 1 } }).dnPut (assignFrame uid 0 0 0) := by
  have hbound : s.boundPos uid = none := by simp [State.boundPos, he, hb]
  have hset : (s.setDrv fun d => { d with
      binds := (uid, 0) :: d.binds.filter (fun b => b.1 != uid), roll := d.roll.map fun (q : Roll) => { q with found := q.found + 1 } }) =
      s.setDrv fun d => { d with binds := [(uid, 0)], roll := d.roll.map fun (q : Roll) => { q with found := q.found + 1 } } := by
    simp [State.setDrv, hb]
  unfold State.assign
  rw [hbound, freePos_first he hb, if_neg Bool.false_ne_true]
  dsimp only [Option.getD_none]
  rw [hset]
  exact down_closed _ _ hd

/-- An answer at depth 15 is a whole unique ID, which is assigned. -/
theorem probeWindowEnd_assigns (hr : s.drv.roll = some ⟨[(7, 3)], some (k * 16, 15), 0⟩) (hb : s.drv.binds = []) (he : s.drv.enr = [])
    (hd : s.drv.dnOpen = false) : ∃ t : State, exec (.probeWindowEnd 4#16 0#16) s = .next t ∧ t.drv.roll = some ⟨[(7, 3)], none, 1⟩ ∧
      t.drv.binds = [(k * 16 + 2, 0)] ∧ t.drv.dn = s.drv.dn ++ [⟨assignFrame (k * 16 + 2) 0 0 0, false, none, 0⟩] ∧
      s.besidesAll { t with drv := s.drv } := by
  have hanswers : (List.range 16).reverse.filter (fun v => (4#16).getLsbD v) = [2] := by decide
  have hcell : ((0#16).getLsbD 2 && decide (s.role = .chapter)) = false := rfl
  have huid : nibble (k * 16) 15 2 = k * 16 + 2 := rfl
  obtain ⟨u, hu⟩ : ∃ u, u = s.setDrv fun d => { d with roll := some ⟨[(7, 3)], none, 0⟩ } := ⟨_, rfl⟩
  have hufacts : u.drv.enr = [] ∧ u.drv.binds = [] ∧ u.drv.dnOpen = false ∧ u.role = s.role := by
    rw [hu]
    exact ⟨he, hb, hd, rfl⟩
  obtain ⟨huenr, hubinds, huopen, hurole⟩ := hufacts
  obtain ⟨v, hv⟩ : ∃ v, v = u.assign (k * 16 + 2) false := ⟨_, rfl⟩
  have hvfacts : v.drv.dnOpen = false ∧ v.drv.roll = some ⟨[(7, 3)], none, 1⟩ ∧ v.drv.binds = [(k * 16 + 2, 0)] ∧
      v.drv.dn = s.drv.dn ++ [⟨assignFrame (k * 16 + 2) 0 0 0, false, none, 0⟩] ∧ s.besidesAll { v with drv := s.drv } := by
    rw [hv, assign_first _ huenr hubinds huopen, hu]
    exact ⟨hd, rfl, rfl, rfl, s.besidesAll_refl⟩
  obtain ⟨hvopen, hvroll, hvrest⟩ := hvfacts
  refine ⟨v, ?run, hvroll, hvrest⟩
  have hgo : v.probeNext.rollEnd = v := by rw [probeNext_closed v hvopen, rollEnd_left hvroll (by simp)]
  show execProbeWindowEnd _ _ s = _
  rw [execProbeWindowEnd, hr]
  dsimp only
  rw [hanswers, if_pos rfl, List.foldl_cons, List.foldl_nil, ← hu, hurole, hcell, huid, ← hv, hgo]

/-! ### A frame that fails, where a JOIN is expected (R184, R201) -/

theorem frameDiscarded_conflict (hdr : s.drives = true) (hcf : s.drv.conflicts = []) (hb : s.drv.binds = [(5, 3)]) (he : s.drv.enr = []) :
    exec (.frameDiscarded .driven (some 3) rx) s = .next (s.badFrame.setDrv fun d => { d with conflicts := [(3, 1)] }) := by
  obtain ⟨u, hu⟩ : ∃ u, u = s.badFrame := ⟨_, rfl⟩
  have hdrv : u.drv = s.drv := hu ▸ rfl
  have hput : (u.setDrv fun d => { d with conflicts := mapPut d.conflicts 3 1 }) = u.setDrv fun d => { d with conflicts := [(3, 1)] } := by
    simp [State.setDrv, hdrv, hcf, mapPut]
  have hbad : u.driverBad 3 = u.setDrv fun d => { d with conflicts := [(3, 1)] } := by
    have hcount : mapAt u.drv.conflicts 3 + 1 = 1 := by rw [hdrv, hcf]; rfl
    unfold State.driverBad
    rw [hcount, if_pos (by simp [hdrv, hb, he])]
    dsimp only
    rw [if_neg (by decide), hput]
  show execFrameDiscarded .driven (some 3) rx s = _
  rw [execFrameDiscarded]
  dsimp only
  rw [if_pos hdr, ← hu, hbad]

/-! ### Frames to the host's rings -/

section
variable (hc : s.role = .chapter) (hdr : s.drives = true) (hd : s.drv.dnOpen = false)
include hc hdr hd

omit hd in
/-- A record from a known sender is taken where its ring takes it. -/
theorem eventFrame_upFrame (hf : Rises f 5) (hs : Sender s f e) : ∃ act : State → Bool × State, exec (.eventFrame f) s = .next (s.upFrame f act) ∧
    ∀ u v, u.ringRecord (keyRing (frKey f)) f.payload = some v → act u = (true, v) :=
  ⟨_, (congrArg Host.Outcome.next (fromWalk_rises hdr hf _)).trans (congrArg Host.Outcome.next (if_pos (hs.known hc))),
    fun u v h => by rw [h]⟩

section
variable (hs : Sender s f e) (htok : frTok f = none) (hwin : frWin f = none)
  (hnext : bitsOf f.hdr 32 8 = (mapAt s.drv.seqRx (frKey f) + 1) % 256) (hlast : mapAt s.drv.seqRx (frKey f) < 256)
include hs htok hwin hnext hlast

theorem eventFrame_records (hf : Rises f 5) (hhost : s.hostReady = true) (hrings : s.scr.rings = [r]) (hn : r.n = keyRing (frKey f)) (hst : r.st = 1)
    (hkind : r.kind = 1) (hlog : r.log2n = 4) (hp : r.p = 0) (hhead : r.dhead = 0) (hsig : r.signal = false) : ∃ t : State,
      exec (.eventFrame f) s = .next t ∧ t.scr.rings.map (fun q => q.dhead) = [1] ∧ .hostWrite r.dbase f.payload ∈ t.out ∧
        mapAt t.drv.seqRx (frKey f) = bitsOf f.hdr 32 8 ∧ LineMoves s t := by
  obtain ⟨w, hw⟩ : ∃ w, w = headerHeard s f e := ⟨_, rfl⟩
  have hwmoves : LineMoves s w := hw ▸ headerHeard_moves s f e
  have hwfacts : w.scr.rings = [r] ∧ w.hostReady = true ∧ w.drv.dnOpen = s.drv.dnOpen := by
    rw [hw]
    exact ⟨hrings, hhost, rfl⟩
  obtain ⟨hwrings, hwhost, hwopen⟩ := hwfacts
  obtain ⟨v, hrec, hv⟩ := ringRecord_writes (rec := f.payload) hwrings hst hkind hlog hp hhead hsig hwhost
  obtain ⟨act, hrun, hact⟩ := eventFrame_upFrame hc hdr hf hs
  have hack := upFrame_heard hc hs htok hwin hd hnext hlast (hact _ v (by rw [← hw, ← hn, hrec])) ((congrArg Drv.dnOpen hv.closed).trans hwopen)
  exact ⟨_, hrun, by rw [hack.scr, hv.head], by rw [hack.out]; exact hv.written, hack.seq, (hwmoves.trans (.ofPosted hv.posted)).trans hack.moves⟩

theorem compl_completes (hf : Rises f 4) (hhost : s.hostReady = true) (hheld : s.scr.held = [h]) (hp : h.phase = 2)
    (hk : ringKey h.ring = frKey f) (hseq : h.seq = (f.payload.getD 13 0).toNat) (hrings : s.scr.rings = [r]) (hn : r.n = h.ring) (hst : r.st = 1)
    (hlog : r.log2n = 4) (ht : r.ctail = 0) (hch : r.ch = 0) (hdone : r.done = []) (hslot : r.dhead = h.slot) (hsig : r.signal = false)
    (hstale : (s.credit (frKey f)).staleSeq = []) (hlost : s.scr.lost = []) (hop : dsOpcode h.d = 1) : ∃ t : State,
      exec (.compl f) s = .next t ∧ t.scr.held = [] ∧ mapAt t.drv.seqRx (frKey f) = bitsOf f.hdr 32 8 ∧
        t.scr.rings.map (fun q => q.ctail) = [1] ∧ .hostWrite r.cbase f.payload ∈ t.out ∧ LineMoves s t := by
  obtain ⟨w, hw⟩ : ∃ w, w = headerHeard s f e := ⟨_, rfl⟩
  have hwmoves : LineMoves s w := hw ▸ headerHeard_moves s f e
  have hwfacts : w.scr = s.scr ∧ w.hostReady = true ∧ w.drv.dnOpen = s.drv.dnOpen ∧ (w.credit (frKey f)).staleSeq = [] := by
    rw [hw]
    exact ⟨rfl, hhost, rfl, hstale⟩
  obtain ⟨hwscr, hwhost, hwopen, hwstale⟩ := hwfacts
  have hwrings : w.scr.rings = [r] := hwscr ▸ hrings
  have hwheld : w.scr.held = [h] := hwscr ▸ hheld
  have hroom : w.entryRoom h.ring = true := hn ▸ entryRoom_empty (ring?_only hwrings rfl) hwhost ht hch
  have hend := takeCompl_completes (entry := f.payload) (hwopen.trans hd) hwheld hwrings hn hst hlog ht hch hdone hslot hsig hwhost (frKey f)
  have hack := upFrame_heard hc hs htok hwin hd hnext hlast
    (act := fun u => u.takeCompl (frKey f) f.payload)
    (by rw [← hw]; exact takeCompl_finishes hwstale (by rw [hwscr]; exact hlost) hwheld hp hk hseq hroom hop) (hend.closed.trans hwopen)
  refine ⟨_, (congrArg Host.Outcome.next (fromWalk_rises hdr hf _)).trans (congrArg Host.Outcome.next (if_pos (hs.known hc))), ?_⟩
  exact ⟨by rw [hack.scr, hend.held], hack.seq, by rw [hack.scr, hend.tail], by rw [hack.out]; exact hend.written,
    (hwmoves.trans hend.moves).trans hack.moves⟩

theorem streamFrame_writes (hf : Rises f 6) (hring : frRing f = 0) (hheld : s.scr.held = [h]) (hp : h.phase = 2) (hk : ringKey h.ring = frKey f)
    (hlen : h.rlen = 0) (hlost : s.scr.lost = []) (hcr : s.scr.credits = []) (hfwd : s.drv.fwd = []) (hbuf : dsResbuf h.d = true)
    (hroom : 64 ≤ dsReslen h.d) : ∃ t : State, exec (.streamFrame f) s = .next t ∧ t.out = .hostWrite (dsResaddr h.d) f.payload :: s.out ∧
      t.scr.held.map (fun x => x.rlen) = [f.payload.length] ∧ LineMoves s t := by
  obtain ⟨hlo, hhi⟩ := rises_stream hf
  obtain ⟨w, hw⟩ : ∃ w, w = headerHeard s f e := ⟨_, rfl⟩
  have hwmoves : LineMoves s w := hw ▸ headerHeard_moves s f e
  have hwfacts : w.scr = s.scr ∧ w.drv.dnOpen = s.drv.dnOpen ∧ w.drv.fwd = [] ∧ w.out = s.out := by
    rw [hw]
    exact ⟨rfl, rfl, hfwd, rfl⟩
  obtain ⟨hwscr, hwopen, hwfwd, hwout⟩ := hwfacts
  obtain ⟨v, hv⟩ : ∃ v, v = (w.emit (.hostWrite (dsResaddr h.d) f.payload)).setHeld { h with rlen := f.payload.length } := ⟨_, rfl⟩
  have hresult : w.resultIn (frKey f) f.payload = v := by
    rw [hv]
    exact resultIn_only (by rw [hwscr, hheld]) hp hk hlen (by rw [hwscr, hlost]) (by rw [hwscr, hcr]) hwfwd hbuf (hhi.trans hroom)
      (List.ne_nil_of_length_pos hlo)
  have hvfacts : v.out = .hostWrite (dsResaddr h.d) f.payload :: s.out ∧ v.scr.held.map (fun x => x.rlen) = [f.payload.length] ∧
      v.drv.dnOpen = w.drv.dnOpen ∧ LineMoves w v := by
    rw [hv]
    refine ⟨congrArg (_ :: ·) hwout, ?_, rfl, rfl⟩
    show (w.scr.held.map fun x => if x.tag = h.tag then { h with rlen := f.payload.length } else x).map _ = _
    rw [hwscr, hheld]
    simp
  obtain ⟨hvout, hvheld, hvopen, hvmoves⟩ := hvfacts
  have hack := upFrame_heard (u := v) hc hs htok hwin hd hnext hlast
    (act := fun u => if frRing f = 2 then u.streamIn (u.scr.held.length + 1) (keyRing (frKey f)) f.payload
      else (true, u.resultIn (frKey f) f.payload)) (by rw [← hw, if_neg (by rw [hring]; decide), hresult]) (hvopen.trans hwopen)
  refine ⟨_, (congrArg Host.Outcome.next (fromWalk_rises hdr hf _)).trans (congrArg Host.Outcome.next (if_pos (hs.known hc))), ?_⟩
  exact ⟨by rw [hack.out, hvout], by rw [hack.scr, hvheld], (hwmoves.trans hvmoves).trans hack.moves⟩

end

omit hd in
/-- The header of an ACKF with a window: the window is stored. -/
theorem ackf_window {c : Credit} (hf : Rises f 3) (hs : Sender s f e) (htok : frTok f = none) (hwin : frWin f = some k) (hcr : s.scr.credits = [c])
    (hring : c.ring = frKey f) (hknown : c.known = true) (hheld : s.scr.held = []) (hfwd : s.drv.fwd = []) (hpend : s.drv.pendWalk = none) :
    ∃ t : State, exec (.ackf .driven f rx) s = .next t ∧ (t.credit (frKey f)).g = k ∧ (t.credit (frKey f)).c = c.c ∧ LineMoves s t := by
  obtain ⟨w, hw⟩ : ∃ w, w = headerHeard s f e := ⟨_, rfl⟩
  have hwmoves : LineMoves s w := hw ▸ headerHeard_moves s f e
  have hwfacts : w.scr = s.scr ∧ w.drv.fwd = [] ∧ w.drv.pendWalk = none ∧ w.role = .chapter := by
    rw [hw]
    exact ⟨rfl, hfwd, hpend, hc⟩
  obtain ⟨hwscr, hwfwd, hwpend, hwrole⟩ := hwfacts
  have hbook : w.credit (frKey f) = c := by simp [State.credit, hwscr, hcr, hring]
  have hheader : s.upHeader f = w.setCredit { c with g := k } := by
    rw [upHeader_heard hc hs htok, hwin]
    dsimp only
    rw [← hw, takeWindow_stores (by rw [hbook, hknown]) (by rw [hwscr, hheld]) hwfwd, hbook]
  obtain ⟨v, hv⟩ : ∃ v, v = w.setCredit { c with g := k } := ⟨_, rfl⟩
  have hvfacts : v.role = .chapter ∧ v.drv.pendWalk = none ∧ v.credit (frKey f) = { c with g := k } ∧ LineMoves w v := by
    rw [hv]
    exact ⟨hwrole, hwpend, by rw [credit_setCredit, if_pos hring], rfl⟩
  obtain ⟨hvrole, hvpend, hvbook, hvmoves⟩ := hvfacts
  refine ⟨v, (congrArg Host.Outcome.next (fromWalk_rises hdr hf _)).trans ?_, by rw [hvbook], by rw [hvbook], hwmoves.trans hvmoves⟩
  unfold State.ackfUp
  rw [if_pos (hs.known hc), hheader, ← hv]
  dsimp only
  rw [if_neg (by simp [hvrole]), hvpend]

/-- A report of the only Crossing known is posted and acknowledged. -/
theorem report_posts {x : Xing} (hf : Rises f 12) (hra : frRA f = true) (hx : s.drv.xings = [x]) (hxn : x.n = frAddr f) (hxa : x.absent = false)
    (hnext : bitsOf f.hdr 32 8 = (mapAt s.drv.seqRx (frKey f) + 1) % 256) (hlast : mapAt s.drv.seqRx (frKey f) < 256)
    (hlen : f.payload.length = 16) (hcode : leNat (f.payload.take 2) = 0x0006) : ∃ t : State, exec (.report f) s = .next t ∧
      mapAt t.drv.seqRx (frKey f) = bitsOf f.hdr 32 8 ∧ frKey f ∈ t.drv.ackDue ∧ LineMoves s t := by
  have hknown : s.upKnown f = true := by
    rw [State.upKnown, hra, if_pos rfl, hc]
    simp [State.xing?, hx, hxn, hxa]
  obtain ⟨w, hw⟩ : ∃ w, w = (s.onXing (frAddr f) fun x => { x with more := frMore f, relay := min 256 (x.relay + frRelcred f) }).dnAcked
    (frKey f) (frAck f) := ⟨_, rfl⟩
  have hwfacts : w.role = .chapter ∧ w.drv.seqRx = s.drv.seqRx ∧ w.drv.dnOpen = false ∧ LineMoves s w := by
    rw [hw]
    exact ⟨hc, rfl, hd, rfl⟩
  obtain ⟨hwrole, hwseq, hwopen, hwmoves⟩ := hwfacts
  have hposted := postRecord_posted w f.payload
  have hact : (true, (records 4 f.payload).foldl (fun v r => v.takeRecord (frAddr f) r) w) = (true, w.postRecord f.payload) := by
    rw [records_one hlen, List.foldl_cons, List.foldl_nil, takeRecord_posts hcode]
  have hack := upFrame_accepts (act := fun u => (true, (records 4 f.payload).foldl (fun v r => v.takeRecord (frAddr f) r) u))
    ((upHeader_crossing hc hra hd).trans hw.symm) hwrole (by rw [hwseq]; exact hnext) (by rw [hwseq]; exact hlast) hact
    (by rw [hposted]; exact hwopen)
  refine ⟨_, (congrArg Host.Outcome.next (fromWalk_rises hdr hf _)).trans (congrArg Host.Outcome.next (if_pos ?_)), hack.seq, hack.due,
    (hwmoves.trans (.ofPosted hposted)).trans hack.moves⟩
  simp [hc, hra, hknown]

/-- A JOIN of a newcomer on walk 0 enrols it, with the window it announces. -/
theorem join_enrols (hf : Rises f 9) (hra : frRA f = false) (hw : cellWalk (frAddr f) = 0) (he : s.drv.enr = []) (hwant : payNat f 12 1 = 0) :
    ∃ t : State, exec (.join f) s = .next t ∧ t.drv.enr = [joined f] ∧ (t.credit (4 * frAddr f)).g = payNat f 8 1 ∧ LineMoves s t := by
  have hpos : frAddr f % 256 = frAddr f := by
    have hdiv : frAddr f / 256 = 0 := hw
    omega
  obtain ⟨henr, hopen, hmoves⟩ := joinCell_enrols hpos he hd hwant
  obtain ⟨u, hu⟩ : ∃ u, u = s.joinCell f := ⟨_, rfl⟩
  rw [← hu] at henr hopen hmoves
  have hurole : u.role = .chapter := hmoves.stands.1.trans hc
  have hkey : lineKey (frRA f) (frAddr f) 0 = 4 * frAddr f := by rw [hra]; rfl
  obtain ⟨hg, hkept, hwmoves⟩ := takeWindow_window hopen (4 * frAddr f) (payNat f 8 1)
  refine ⟨u.takeWindow (4 * frAddr f) (payNat f 8 1), (congrArg Host.Outcome.next (fromWalk_rises hdr hf _)).trans ?_, hkept.trans henr, hg,
    hmoves.trans hwmoves⟩
  dsimp only
  rw [if_neg (by simp [hra]), if_pos (by rw [hw, drvWalk_chapter hc]), enr?_nil s _ he, ← hu]
  rw [if_neg (by simp), if_pos hurole, State.joinWindows, hkey]

end

/-! ### SET_WALK that is not confirmed (R21) -/

theorem setWalkTimeout_ends {d : Desc} {n age : Nat} (hp : s.drv.pendWalk = some ⟨k, n, d, age⟩) (ha : 8 ≤ age) : exec .setWalkTimeout s =
    .next ({ s with drv := { s.drv with pendWalk := none } }.complete d stABSENT 0 []) := by
  show execSetWalkTimeout s = _
  rw [execSetWalkTimeout, hp]
  dsimp only
  rw [if_pos ha, State.walkDone, hp]
  rfl

theorem setWalkTimeout_none (hp : s.drv.pendWalk = none) : exec .setWalkTimeout s = .next s := by
  show execSetWalkTimeout s = _
  rw [execSetWalkTimeout, hp]

/-! ### Ranging (R195) -/

section
variable (hdr : s.drives = true) (he : s.drv.enr = [e]) (hp : e.pos = 3)
include hdr he hp

theorem range_measures {n : Nat} (hn : e.ranges = n) (h0 : n ≠ 0) : exec (.range (.measured 3 k)) s = .next (
    if n = 1 then (s.setDrv fun d => { d with enr := [{ e with ranges := n - 1, rsum := e.rsum + rangeTwoP s.drvRate k }] }).down
      ⟨mkHdr 0xB 0 0 0 (s.addrOf 3) 0 2 0 0 0 0, leBytes 2 (propOf (e.rsum + rangeTwoP s.drvRate k))⟩
    else s.setDrv fun d => { d with enr := [{ e with ranges := n - 1, rsum := e.rsum + rangeTwoP s.drvRate k }] }) := by
  have hfind : s.enr? 3 = some e := hp ▸ enr?_single s e he
  have hset : s.setEnr { e with ranges := n - 1, rsum := e.rsum + rangeTwoP s.drvRate k } =
      s.setDrv fun d => { d with enr := [{ e with ranges := n - 1, rsum := e.rsum + rangeTwoP s.drvRate k }] } := by
    simp [State.setEnr, State.setDrv, he]
  show execRange (.measured 3 k) s = _
  rw [execRange]
  rw [if_pos hdr, State.ranged]
  dsimp only
  rw [if_pos (by decide), hfind]
  dsimp only
  rw [hn, if_neg h0, hset]

/-- The eighth measurement sends the mean. -/
theorem range_ends (hn : e.ranges = 1) (hdn : s.drv.dn = []) (hd : s.drv.dnOpen = false) : ∃ t : State,
    exec (.range (.measured 3 k)) s = .next t ∧ t.drv.enr = [{ e with ranges := 0, rsum := e.rsum + rangeTwoP s.drvRate k }] ∧
      t.drv.dn = [⟨⟨mkHdr 0xB 0 0 0 (s.addrOf 3) 0 2 0 0 0 0, leBytes 2 (propOf (e.rsum + rangeTwoP s.drvRate k))⟩, false, none, 0⟩] ∧
      s.besidesAll { t with drv := s.drv } := by
  refine ⟨_, (range_measures hdr he hp hn (by decide)).trans (congrArg Host.Outcome.next ((if_pos rfl).trans (down_closed _ _ hd))), rfl, ?_,
    s.besidesAll_refl⟩
  show s.drv.dn ++ _ = _
  rw [hdn, List.nil_append]

theorem range_sums (hn : e.ranges = 2) : exec (.range (.measured 3 k)) s =
    .next { s with drv := { s.drv with enr := [{ e with ranges := 1, rsum := e.rsum + rangeTwoP s.drvRate k }] } } :=
  (range_measures hdr he hp hn (by decide)).trans (congrArg Host.Outcome.next (if_neg (by decide)))

end

/-! ### Frames sent again (R189) -/

theorem resendDriver_none (hc : s.role = .chapter) (hdn : s.drv.dn = []) (hd : s.drv.dnOpen = false) :
    exec (.resendTimeout .driven) s = .next s := by
  show execResendTimeout .driven s = _
  rw [execResendTimeout, if_pos hc, State.resendDriver, hdn, List.filter_nil, List.foldl_nil, dnFlush_closed s hd]

/-- A DESC sent once and not acknowledged for 6 superframes waits to be sent again. -/
theorem resendDriver_again (hc : s.role = .chapter) (hdn : s.drv.dn = [⟨f, false, some 6, 1⟩]) (hf : frType f = 2) (hd : s.drv.dnOpen = false) :
    exec (.resendTimeout .driven) s = .next ((s.setDrv fun d => { d with dn := [⟨f, false, none, 1⟩] }).count fLPCNT_RESEND) := by
  obtain ⟨x, hx⟩ : ∃ x : Dn, x = ⟨f, false, some 6, 1⟩ := ⟨_, rfl⟩
  have hdue : s.drv.dn.filter (fun x => frType x.f = 2 && !x.relay && x.age.any fun a => decide (resendAfter (frRA x.f) (frAddr x.f) ≤ a)) = [x] := by
    simp [hdn, hx, hf, resendAfter_le]
  have hagain : (s.setDrv fun d => { d with dn := d.dn.map fun (y : Dn) => if y = x then { y with age := none } else y }) =
      s.setDrv fun d => { d with dn := [⟨f, false, none, 1⟩] } := by
    simp [State.setDrv, hdn, hx]
  have hsend : s.resendDn x = (s.setDrv fun d => { d with dn := [⟨f, false, none, 1⟩] }).count fLPCNT_RESEND := by
    have htries : x.tries = 1 := hx ▸ rfl
    rw [State.resendDn, if_neg (by rw [htries]; decide), hagain]
  show execResendTimeout .driven s = _
  rw [execResendTimeout, if_pos hc, State.resendDriver, hdue, List.foldl_cons, List.foldl_nil, hsend]
  exact congrArg Host.Outcome.next (dnFlush_closed _ hd)

end Sys2Proof.Proofs
end

section
/-! PROOF. The superframe, the sweep and the slots of a driven walk (R148, R154, R176, R178, R186 to R188, R205, R206, R208), and O49. -/

namespace Sys2Proof.Proofs

open Sys2Proof Sys2Proof.Machine

variable {s t u : State} {e : Enr} {m : WalkMon}

theorem chapter_notWalk (hc : s.role = .chapter) : s.onWalk = false := by
  rw [State.onWalk, hc]
  rfl

/-! ### The superframe of an idle walk (R186) -/

/-- A driver with nothing to do but its beacon. -/
structure IdleDrv (d : Drv) : Prop where
  granted : d.granted = 0
  freed : d.freed = 0
  enr : d.enr = []
  xings : d.xings = []
  quar : d.quar = []
  reqs : d.reqs = []
  dn : d.dn = []
  ackDue : d.ackDue = []
  tokDue : d.tokDue = []
  rateChg : d.rateChg = none
  rateWatch : d.rateWatch = none
  timeStep : d.timeStep = none
  pendWalk : d.pendWalk = none
  roll : d.roll = none
  syncOut : d.syncOut = true

/-- The fields that a superframe of an idle walk writes. -/
def idleFields : List Fld := [fWDMON_IWALK, fWDMON_VWALK, fBOOKFLAG_DEFICIT]

/-- A part of a superframe on an idle walk: its books and checks move, and nothing else. -/
structure Idles (s t : State) : Prop where
  drv : IdleDrv t.drv
  beacons : t.drv.beacons = s.drv.beacons
  system : t.drv.system = s.drv.system
  eq : t = { s with regs := t.regs, drv := t.drv }

namespace Idles

theorem refl (h : IdleDrv s.drv) : Idles s s := ⟨h, rfl, rfl, rfl⟩

theorem trans (h : Idles s t) (k : Idles t u) : Idles s u := by
  refine ⟨k.drv, k.beacons.trans h.beacons, k.system.trans h.system, ?_⟩
  rw [k.eq, h.eq]

end Idles

/-- A walk with nobody on it has its whole budget. -/
theorem idle_balance (hc : s.role = .chapter) (h : IdleDrv s.drv) : 0 ≤ s.budget ∧ s.deficit = 0 := by
  have hnone : s.enrolled = 0 := by rw [State.enrolled, if_pos hc, h.enr, h.xings]; rfl
  have hwalk : 40 ≤ s.iWalk := by
    unfold State.iWalk
    dsimp only
    split
    · decide
    · split <;> omega
  have hbudget : 0 ≤ s.budget := by
    rw [State.budget, hnone]
    omega
  refine ⟨hbudget, ?_⟩
  rw [State.deficit, h.granted, h.quar]
  simp only [List.map_nil, List.sum_nil]
  omega

theorem tokenTurn_idles (hc : s.role = .chapter) (h : IdleDrv s.drv) : Idles s s.tokenTurn ∧
    ∀ g, fBOOKFLAG_DEFICIT.other g = true → s.tokenTurn.fld g = s.fld g := by
  obtain ⟨u, hu⟩ : ∃ u, u = s.setDrv fun d => { d with
    granted := d.granted - d.freed, freed := 0, quar := d.quar.map fun (p : Nat × Nat × Nat) => (p.1, p.2.1 - 1, p.2.2) } := ⟨_, rfl⟩
  have hdrv : IdleDrv u.drv := by
    rw [hu]
    exact { h with
      granted := by show s.drv.granted - s.drv.freed = 0; rw [h.granted, h.freed]
      freed := rfl
      quar := by show s.drv.quar.map _ = []; rw [h.quar]; rfl }
  have hufacts : u.role = .chapter ∧ Idles s u ∧ ∀ g, u.fld g = s.fld g := by
    refine ⟨hu ▸ hc, ⟨hdrv, ?_, ?_, ?_⟩, fun g => ?_⟩
    all_goals rw [hu]; rfl
  obtain ⟨hurole, hidles, hfld⟩ := hufacts
  obtain ⟨hbudget, hdeficit⟩ := idle_balance hurole hdrv
  have hturn : s.tokenTurn = (u.setDrv fun d => { d with overloadSeen := false, deficitSeen := false }).setFld fBOOKFLAG_DEFICIT 0 := by
    rw [State.tokenTurn, ← hu]
    exact bookSync_balanced hbudget hdeficit hdrv.reqs
  rw [hturn]
  refine ⟨hidles.trans ⟨{ hdrv with }, rfl, rfl, rfl⟩, fun g hg => ?_⟩
  rw [State.fld_setFld_other _ _ _ _ hg]
  exact hfld g

theorem rateTurn_idle (h : IdleDrv s.drv) : s.rateTurn = s := by
  unfold State.rateTurn
  dsimp only
  rw [h.rateChg]
  dsimp only
  rw [h.rateWatch]

theorem strayCheck_idles (h : IdleDrv s.drv) (hlow : s.fld fWDMON_IWALK < 16) : Idles s s.strayCheck ∧ s.strayCheck.regs = s.regs := by
  have hserve (t : State) (ht : Idles s t ∧ t.regs = s.regs) : Idles s t.serve ∧ t.serve.regs = s.regs := by
    obtain ⟨hidles, -⟩ := id ht
    rwa [State.serve, hidles.drv.reqs]
  have hcalm : decide (3 * s.enrolled + 2 * s.drv.granted + 32 < 2 * s.fld fWDMON_IWALK) = false := by
    rw [decide_eq_false_iff_not]
    omega
  unfold State.strayCheck
  dsimp only
  rw [hcalm, if_neg Bool.false_ne_true]
  split
  · exact hserve _ ⟨⟨{ h with }, rfl, rfl, rfl⟩, rfl⟩
  · exact ⟨⟨{ h with }, rfl, rfl, rfl⟩, rfl⟩

/-- The books are right: the audit does nothing. -/
theorem audit_right (h : IdleDrv s.drv) (hfree : s.fld fTAGSTAT_FREE = 1024) (hheld : s.scr.held = []) : s.audit = s := by
  have hsum : s.drv.granted = s.tokenSum := by simp [State.tokenSum, h.granted, h.enr, h.freed]
  unfold State.audit
  dsimp only
  rw [if_pos hsum, hfree, hheld]
  exact if_neg (by simp)

theorem holdTurn_held (h : IdleDrv s.drv) (hhold : s.on fCLKSTAT_HOLDOVER = true) : s.holdTurn = s.setDrv fun d => { d with syncOut := true } := by
  unfold State.holdTurn
  dsimp only
  rw [hhold, Bool.true_or, h.syncOut]
  exact if_neg (by simp)

/-- What a superframe begins with on an idle walk, up to the beacon. -/
def checked (s : State) (m : WalkMon) : State :=
  (((((((s.sets [(fWDMON_IWALK, m.iwalk.toNat), (fWDMON_VWALK, m.vwalk.toNat)]).tokenTurn).babbleCheck m.babble).rateTurn).strayCheck).audit).holdTurn)

/-- The beacon's state with the downlink period open. -/
def opened (s : State) : State := s.setDrv fun d => { d with
  beacons := s.drv.beacons + 1, muster := s.on fLPCTL_MUSTER && (s.drv.beacons + 1) % 64 = 0
  dnOpen := true, dnRoom := downBits s.drvRate s.drvSwofs, probes := 0, slotsFor := []
  dn := d.dn.map (fun (x : Dn) => { x with age := x.age.map (· + 1) }) }

section
variable (hc : s.role = .chapter) (h : IdleDrv s.drv)
include hc h

theorem checked_idles (hbabble : m.babble = false) (hfree : s.fld fTAGSTAT_FREE = 1024) (hheld : s.scr.held = [])
    (hhold : s.on fCLKSTAT_HOLDOVER = true) (hlow : m.iwalk.toNat < 16) : Idles s (checked s m) ∧
      (∀ g, idleFields.all (fun f => f.other g) = true → (checked s m).fld g = s.fld g) ∧
      (checked s m).fld fWDMON_IWALK = m.iwalk.toNat ∧ (checked s m).fld fWDMON_VWALK = m.vwalk.toNat := by
  obtain ⟨a, ha⟩ : ∃ a, a = s.sets [(fWDMON_IWALK, m.iwalk.toNat), (fWDMON_VWALK, m.vwalk.toNat)] := ⟨_, rfl⟩
  have haw : Writes [fWDMON_IWALK, fWDMON_VWALK] s a := ha ▸ (sets_writes s _).mono (by simp)
  have hai : a.fld fWDMON_IWALK = m.iwalk.toNat := by
    rw [ha, State.sets_cons, State.sets_cons, State.sets_nil]
    dsimp only
    rw [State.fld_setFld_other _ fWDMON_VWALK _ _ (by decide), State.fld_setFld _ fWDMON_IWALK _ (by decide)]
    exact Nat.mod_eq_of_lt m.iwalk.isLt
  have hav : a.fld fWDMON_VWALK = m.vwalk.toNat := by
    rw [ha, State.sets_cons, State.sets_cons, State.sets_nil]
    dsimp only
    rw [State.fld_setFld _ fWDMON_VWALK _ (by decide)]
    exact Nat.mod_eq_of_lt m.vwalk.isLt
  have hadrv : a.drv = s.drv := by rw [haw.regs]
  have haidles : Idles s a := by
    refine ⟨hadrv ▸ h, by rw [hadrv], by rw [hadrv], ?_⟩
    rw [haw.regs]
  obtain ⟨hbidles, hbfld⟩ := tokenTurn_idles (s := a) (by rw [haw.regs]; exact hc) haidles.drv
  obtain ⟨b, hb⟩ : ∃ b, b = a.tokenTurn := ⟨_, rfl⟩
  rw [← hb] at hbidles hbfld
  obtain ⟨c, hcb⟩ : ∃ c, c = b.setDrv fun d => { d with babble := 0 } := ⟨_, rfl⟩
  have hcidles : Idles b c := hcb ▸ ⟨{ hbidles.drv with }, rfl, rfl, rfl⟩
  have hcfld : ∀ g, c.fld g = b.fld g := fun g => hcb ▸ rfl
  have hall : ∀ g, idleFields.all (fun f => f.other g) = true → c.fld g = s.fld g := by
    intro g hg
    simp only [idleFields, List.all_cons, List.all_nil, Bool.and_true, Bool.and_eq_true] at hg
    obtain ⟨hi, hv, hdef⟩ := hg
    rw [hcfld, hbfld g hdef, haw.kept g (by simp [hi, hv])]
  have hcid : Idles s c := (haidles.trans hbidles).trans hcidles
  have hci : c.fld fWDMON_IWALK = m.iwalk.toNat := (hcfld _).trans ((hbfld _ (by decide)).trans hai)
  have hcv : c.fld fWDMON_VWALK = m.vwalk.toNat := (hcfld _).trans ((hbfld _ (by decide)).trans hav)
  obtain ⟨hdidles, hdregs⟩ := strayCheck_idles hcid.drv (by rw [hci]; exact hlow)
  obtain ⟨d, hd⟩ : ∃ d, d = c.strayCheck := ⟨_, rfl⟩
  rw [← hd] at hdidles hdregs
  have hdfld : ∀ g, d.fld g = c.fld g := fun g => fld_of_regs hdregs g
  have hdheld : d.scr.held = [] := by rw [hdidles.eq]; show c.scr.held = []; rw [hcid.eq]; exact hheld
  have hdall : ∀ g, idleFields.all (fun f => f.other g) = true → d.fld g = s.fld g := fun g hg => (hdfld g).trans (hall g hg)
  have hrun : checked s m = d.setDrv fun x => { x with syncOut := true } := by
    have hstill : b.babbleCheck m.babble = c := by rw [hbabble, hcb]; rfl
    rw [checked, ← ha, ← hb, hstill, rateTurn_idle hcid.drv, ← hd,
      audit_right hdidles.drv ((hdall _ (by decide)).trans hfree) hdheld,
      holdTurn_held hdidles.drv ((on_of_fld (hdall _ (by decide))).trans hhold)]
  rw [hrun]
  exact ⟨(hcid.trans hdidles).trans ⟨{ hdidles.drv with syncOut := rfl }, rfl, rfl, rfl⟩, hdall, (hdfld _).trans hci, (hdfld _).trans hcv⟩

end

theorem owing_nothing {d : Drv} (ha : d.ackDue = []) (ht : d.tokDue = []) : { d with ackDue := [], tokDue := [] } = d := by
  cases d
  cases ha
  cases ht
  rfl

/-- With nothing to send the open period sends nothing. -/
theorem dnFlush_nothing (h : IdleDrv s.drv) : s.dnFlush = s := by
  have howed : s.dnOwed = s := by
    unfold State.dnOwed
    dsimp only
    rw [owing_nothing h.ackDue h.tokDue, h.ackDue, h.tokDue]
    rfl
  unfold State.dnFlush
  split
  · dsimp only
    rw [howed, h.dn]
    rfl
  · rfl

theorem rangeFrames_none (h : IdleDrv s.drv) : s.rangeFrames = s := by
  unfold State.rangeFrames
  rw [h.enr]
  dsimp only [List.filter_nil, List.foldl_nil]
  rw [h.xings]
  rfl

theorem owedFrames_none (h : IdleDrv s.drv) : s.owedFrames = s := by
  unfold State.owedFrames
  rw [h.quar]
  dsimp only [List.filter_nil, List.foldl_nil]
  rw [h.pendWalk]

theorem probeNext_idle (h : IdleDrv s.drv) : s.probeNext = s := by rw [State.probeNext, h.roll]

/-- The fields that the Chapter's beacon shows. -/
def beaconFields : List Fld := [fCLKSTAT_XTALOK, fCLKSTAT_HOLDOVER, fCLKSTAT_PLLLOCK, fWDSTAT_RATENOW, fLPCTL_SWOFS]

/-- The Chapter's beacon tells of its clock and of the driver's figures alone. -/
theorem beaconFrame_same (hs : s.role = .chapter) (ht : t.role = .chapter) (hfld : ∀ g ∈ beaconFields, t.fld g = s.fld g) (huid : t.uid = s.uid)
    (hrate : t.drv.rateChg = s.drv.rateChg) (hsystem : t.drv.system = s.drv.system) (hmuster : t.drv.muster = s.drv.muster) (time : Nat)
    (step : Bool) : t.beaconFrame time step = s.beaconFrame time step := by
  simp only [beaconFields, List.forall_mem_cons, List.not_mem_nil, false_imp_iff, implies_true, and_true] at hfld
  obtain ⟨hxtal, hhold, hpll, hrates, hswofs⟩ := hfld
  simp only [State.beaconFrame, State.drvWalk, State.drvRate, State.drvSwofs, hs, ht, if_true, on_of_fld hxtal, on_of_fld hhold, on_of_fld hpll, hrates,
    hswofs, huid, hrate, hsystem, hmuster]

/-- The beacon sent at a time with nothing to step. -/
def beaconed (time : Nat) (s : State) : State :=
  ((opened s).emit (.frame .driven ((opened s).beaconFrame time false))).setDrv fun d => { d with rateChg := d.rateChg.map fun p => (p.1, p.2 - 1) }

theorem beaconed_idle (h : IdleDrv s.drv) (time : Nat) : IdleDrv (beaconed time s).drv :=
  { h with
    dn := by show s.drv.dn.map _ = []; rw [h.dn]; rfl
    rateChg := by show s.drv.rateChg.map _ = none; rw [h.rateChg]; rfl }

/-- A superframe of an idle walk is its checks and its beacon. -/
theorem driverStart_idle {c : State} (hcheck : checked s m = c) (h : IdleDrv c.drv)
    (hb : (((s.sets [(fWDMON_IWALK, m.iwalk.toNat), (fWDMON_VWALK, m.vwalk.toNat)]).tokenTurn).babbleCheck m.babble).drives = true)
    (hforced : c.on fCLKSTAT_FORCED = false) (hnow : c.now % 32768 = 0) : s.driverStart m = (beaconed c.now c).streamAge := by
  have hbase : c.now / 32768 * 32768 = c.now := by omega
  have hidle := beaconed_idle h c.now
  have hquiet : ((((beaconed c.now c).owedFrames).rangeFrames).dnFlush).streamAge.probeNext = (beaconed c.now c).streamAge := by
    have haged : IdleDrv (beaconed c.now c).streamAge.drv := hidle
    rw [owedFrames_none hidle, rangeFrames_none hidle, dnFlush_nothing hidle, probeNext_idle haged]
  unfold State.driverStart
  extract_lets a b c₁ d n base step opn sent counted u stepped flushed
  rw [if_neg (by simpa using hb)]
  have hd : d = c := hcheck
  have hbased : base = c.now := by rw [← hbase, ← hd]
  have hstep : step = none := by
    show (match d.drv.timeStep with
      | some (told, tnew) => if told = base then some tnew else none
      | none => none) = none
    rw [hd, h.timeStep]
  have hopn : opn = opened c := by
    rw [← hd]
    rfl
  have hcounted : counted = beaconed c.now c := by
    have hon : opn.on fCLKSTAT_FORCED = false := by rw [hopn]; exact hforced
    have hsent : sent = opn.emit (.frame .driven (opn.beaconFrame c.now false)) := by
      show (if opn.on fCLKSTAT_FORCED = true then opn
        else opn.emit (.frame .driven (opn.beaconFrame (step.getD base) step.isSome))) = _
      rw [hon, hstep, hbased]
      rfl
    show (sent.setDrv fun d => { d with rateChg := d.rateChg.map fun p => (p.1, p.2 - 1) }) = _
    rw [hsent, hopn, beaconed]
  have hstepped : stepped = beaconed c.now c := by
    rw [← hcounted]
    simp only [stepped, hstep]
  rw [← hquiet, ← hstepped]

/-- What a superframe leaves on an idle walk. -/
structure Beacons (s : State) (m : WalkMon) (t : State) : Prop where
  iwalk : t.fld fWDMON_IWALK = m.iwalk.toNat
  vwalk : t.fld fWDMON_VWALK = m.vwalk.toNat
  beacons : t.drv.beacons = s.drv.beacons + 1
  opened : t.drv.dnOpen = true
  room : t.drv.dnRoom = downBits s.drvRate s.drvSwofs
  sent : t.out = .frame .driven (t.beaconFrame s.now false) :: s.out
  moves : LineMoves s t

theorem superframeStart_beacons (hc : s.role = .chapter) (h : IdleDrv s.drv) (hdr : s.drives = true) (hnow : s.now % 32768 = 0)
    (hbabble : m.babble = false) (hforced : s.on fCLKSTAT_FORCED = false) (hfree : s.fld fTAGSTAT_FREE = 1024) (hheld : s.scr.held = [])
    (hhold : s.on fCLKSTAT_HOLDOVER = true) (hlow : m.iwalk.toNat < 16) :
    ∃ t : State, exec (.superframeStart m) s = .next t ∧ Beacons s m t := by
  obtain ⟨hidles, hfld, hiwalk, hvwalk⟩ := checked_idles hc h hbabble hfree hheld hhold hlow
  obtain ⟨c, hcheck⟩ : ∃ c, checked s m = c := ⟨_, rfl⟩
  rw [hcheck] at hidles hfld hiwalk hvwalk
  have hcrole : c.role = .chapter := by rw [hidles.eq]; exact hc
  have hcnow : c.now = s.now := by rw [hidles.eq]; rfl
  have hcout : c.out = s.out := by rw [hidles.eq]
  have hcmoves : LineMoves s c := by rw [hidles.eq]; rfl
  obtain ⟨w, hw⟩ : ∃ w, w = beaconed c.now c := ⟨_, rfl⟩
  have hwidle : IdleDrv w.drv := hw ▸ beaconed_idle hidles.drv _
  have hwfacts : w.regs = c.regs ∧ w.drv.beacons = s.drv.beacons + 1 ∧ w.drv.dnOpen = true ∧ w.drv.dnRoom = downBits c.drvRate c.drvSwofs ∧
      w.out = .frame .driven ((opened c).beaconFrame c.now false) :: s.out ∧ LineMoves c w ∧ w.drv.system = (opened c).drv.system ∧
        w.drv.muster = (opened c).drv.muster ∧ w.uid = (opened c).uid := by
    rw [hw]
    exact ⟨rfl, congrArg (· + 1) hidles.beacons, rfl, rfl, congrArg (_ :: ·) hcout, rfl, rfl, rfl, rfl⟩
  obtain ⟨hwregs, hwbeacons, hwopen, hwroom, hwout, hwmoves, hwsystem, hwmuster, hwuid⟩ := hwfacts
  obtain ⟨x, hx⟩ : ∃ x, x = w.streamAge := ⟨_, rfl⟩
  have hxfacts : x.regs = w.regs ∧ x.drv = w.drv ∧ x.out = w.out ∧ LineMoves w x ∧ x.uid = w.uid := by
    rw [hx]
    exact ⟨rfl, rfl, rfl, rfl, rfl⟩
  obtain ⟨hxregs, hxdrv, hxout, hxmoves, hxuid⟩ := hxfacts
  have howe := oweSync_writes x
  have hdrv : x.oweSync.drv = w.drv := by rw [howe.regs, hxdrv]
  have hkept : ∀ g, [fLPSTAT_OWE].all (fun f => f.other g) = true → x.oweSync.fld g = c.fld g := fun g hg =>
    (howe.kept g hg).trans (fld_of_regs (hxregs.trans hwregs) g)
  have hmoves : LineMoves s x.oweSync := by
    have hlast : LineMoves x x.oweSync := by
      rw [howe.regs]
      rfl
    exact ((hcmoves.trans hwmoves).trans hxmoves).trans hlast
  refine ⟨x.oweSync, ?run, (hkept _ (by decide)).trans hiwalk, (hkept _ (by decide)).trans hvwalk, by rw [hdrv, hwbeacons], by rw [hdrv, hwopen],
    ?room, ?sent, hmoves⟩
  case run =>
    have hturn := tokenTurn_idles (s := s.sets [(fWDMON_IWALK, m.iwalk.toNat), (fWDMON_VWALK, m.vwalk.toNat)]) hc h
    have hon : (((s.sets [(fWDMON_IWALK, m.iwalk.toNat), (fWDMON_VWALK, m.vwalk.toNat)]).tokenTurn).babbleCheck m.babble).drives = true := by
      rw [hbabble]
      show ((s.sets [(fWDMON_IWALK, m.iwalk.toNat), (fWDMON_VWALK, m.vwalk.toNat)]).tokenTurn).on fWDSTAT_ON = true
      rw [on_of_fld (hturn.2 _ (by decide)), ((sets_writes s _).mono (m := [fWDMON_IWALK, fWDMON_VWALK]) (by simp)).on (by decide)]
      exact hdr
    have hdrive : s.hasDrive = true := by rw [State.hasDrive, hc]; rfl
    have hstart := driverStart_idle hcheck hidles.drv hon ((on_of_fld (hfld _ (by decide))).trans hforced) (hcnow ▸ hnow)
    show execSuperframeStart m s = _
    rw [execSuperframeStart, chapter_notWalk hc, if_neg Bool.false_ne_true]
    dsimp only
    rw [hdrive, if_pos (by simp [hnow]), hstart, hx, hw]
  case room =>
    have hrate : c.drvRate = s.drvRate := hfld fWDSTAT_RATENOW (by decide)
    have hswofs : c.drvSwofs = s.drvSwofs := hfld fLPCTL_SWOFS (by decide)
    rw [hdrv, hwroom, hrate, hswofs]
  case sent =>
    have hout : x.oweSync.out = x.out := by rw [howe.regs]
    have huid : x.oweSync.uid = x.uid := by rw [howe.regs]; rfl
    have hrole : x.oweSync.role = .chapter := hmoves.stands.1.trans hc
    have hrate : x.oweSync.drv.rateChg = (opened c).drv.rateChg := by
      rw [hdrv, hwidle.rateChg]
      exact hidles.drv.rateChg.symm
    have hshown : ∀ g ∈ beaconFields, x.oweSync.fld g = (opened c).fld g := by
      have hother : ∀ g ∈ beaconFields, [fLPSTAT_OWE].all (fun f => f.other g) = true := by decide
      exact fun g hg => hkept g (hother g hg)
    have hopened : (opened c).role = .chapter := hcrole
    rw [hout, hxout, hwout, hcnow, beaconFrame_same hopened hrole hshown (by rw [huid, hxuid, hwuid]) hrate (by rw [hdrv, hwsystem])
      (by rw [hdrv, hwmuster])]

end Sys2Proof.Proofs
end

section
/-! PROOF. The sweep and the slots of a driven walk, a Cell that is declared absent (R152, R187, R188, R205, R206), and O49. -/

namespace Sys2Proof.Proofs

open Sys2Proof Sys2Proof.Machine

variable {s t u : State} {e : Enr}

/-! ### The sweep (R187, R188) -/

theorem sweepCell_pulsed (he : s.drv.enr = [e]) (ha : e.absent = false) :
    s.sweepCell true e = s.setDrv fun d => { d with enr := [{ e with silent := 0, missed := 0 }] } := by
  have hset : s.setEnr { e with silent := 0, missed := 0 } = s.setDrv fun d => { d with enr := [{ e with silent := 0, missed := 0 }] } := by
    simp [State.setEnr, State.setDrv, he]
  unfold State.sweepCell
  rw [if_neg (by simp [ha])]
  dsimp only
  rw [Bool.true_or, if_pos rfl, if_pos rfl, if_neg (by decide), if_neg (by simp)]
  exact hset

/-- With index 3 the only one that raised ATTN, it gets the first slot. -/
theorem grantList_one (hc : s.role = .chapter) (he : s.drv.enr = [e]) (hx : s.drv.xings = []) (ha : e.absent = false) (hm : e.more = false)
    (hslots : 1 ≤ upSlots s.drvRate s.drvSwofs) : s.grantList [3] = [(3, 1)] := by
  have hasked : (List.range 256).filter (fun i => [3].contains i && !s.drv.enr.any (fun e => e.pos = i && e.absent)) = [3] := by
    have hone : (List.range 256).filter (fun i => [3].contains i) = [3] := by decide
    simpa [he, ha] using hone
  have hmore : (List.range 256).filter (fun i => s.drv.enr.any (fun e => e.pos = i && e.more && !e.absent)) = [] := by simp [he, hm]
  have horder (last : Nat) : rrOrder last [3] = [3] := by
    unfold rrOrder
    by_cases hlast : last < 3 <;> simp [hlast]
    all_goals omega
  have hpass : (List.range 32).map (fun _ => ([] : List (Nat × Nat))) = List.replicate 32 [] := by simp
  have hroom : 1 ≤ min 1000 (upSlots s.drvRate s.drvSwofs) := by omega
  unfold State.grantList
  rw [if_neg (show ¬s.role = .crossing by rw [hc]; decide)]
  dsimp only
  rw [hx, hasked, hmore, horder, rrOrder]
  simp only [List.filter_nil, List.map_nil, List.nil_append, List.map_cons, hpass, List.flatten_replicate_nil, List.append_nil, layOut]
  rw [if_neg (by simp; omega), Nat.min_eq_left hroom]

/-- What the sweep leaves. -/
structure Swept (s : State) (e : Enr) (t : State) : Prop where
  slots : t.drv.slotsFor = [(3, 1)]
  closed : t.drv.dnOpen = false
  quiet : t.drv.quietLast = true
  enr : t.drv.enr = [{ e with silent := 0, missed := 0 }]
  out : t.out = .frame .driven (bcast 1 0 [3, 0]) :: s.out
  moves : LineMoves s t

theorem driverSweep_grants (hc : s.role = .chapter) (hforced : s.on fCLKSTAT_FORCED = false) (hroll : s.drv.roll = none) (he : s.drv.enr = [e])
    (hx : s.drv.xings = []) (ha : e.absent = false) (hm : e.more = false) (hp : e.pos = 3) (hslots : 1 ≤ upSlots s.drvRate s.drvSwofs) :
    Swept s e (s.driverSweep [(3, true)]) := by
  obtain ⟨v, hv⟩ : ∃ v, v = s.setDrv fun d => { d with
    dnOpen := false, enr := [{ e with silent := 0, missed := 0 }], quietLast := true, muster := false } := ⟨_, rfl⟩
  have hvfacts : v.drv.enr = [{ e with silent := 0, missed := 0 }] ∧ v.drv.xings = [] ∧ v.drv.roll = none ∧ v.role = .chapter ∧
      v.on fCLKSTAT_FORCED = false ∧ upSlots v.drvRate v.drvSwofs = upSlots s.drvRate s.drvSwofs := by
    rw [hv]
    exact ⟨rfl, hx, hroll, hc, hforced, rfl⟩
  obtain ⟨hvenr, hvx, hvroll, hvrole, hvforced, hvslots⟩ := hvfacts
  have hgrant : v.grantList [3] = [(3, 1)] := grantList_one hvrole hvenr hvx ha hm (by rw [hvslots]; exact hslots)
  have hrollEnd : v.rollEnd = v := by rw [State.rollEnd, hvroll]
  have hrun : s.driverSweep [(3, true)] = (v.setDrv fun d => { d with slotsFor := [(3, 1)], rr1 := 3, rr3 := 3 }).emit
      (.frame .driven (bcast 1 0 [3, 0])) := by
    unfold State.driverSweep
    extract_lets a on b c new d x g cells z
    have hb : b = s.setDrv fun d => { d with dnOpen := false, enr := [{ e with silent := 0, missed := 0 }] } := by
      have hpulsed : on e.pos = true := by simp [on, hp]
      have haenr : a.drv.enr = [e] := he
      show a.drv.enr.foldl (fun (u : State) e => u.sweepCell (on e.pos) e) a = _
      rw [haenr, List.foldl_cons, List.foldl_nil, hpulsed, sweepCell_pulsed haenr ha]
      rfl
    have hcb : c = b := by
      have hbx : b.drv.xings = [] := by rw [hb]; exact hx
      simp only [c, hbx, List.foldl_nil, ite_self]
    have hnew : new = false := rfl
    have hd : d = v := by
      simp only [d, hnew, hcb, hb, hv, Bool.false_eq_true, if_false]
      rfl
    have hxv : x = v := by
      simp only [x, hnew, hd, Bool.false_and, Bool.false_eq_true, if_false, hrollEnd]
    have hg : g = [(3, 1)] := by
      show x.grantList [3] = _
      rw [hxv, hgrant]
    have hz : z = v.setDrv fun d => { d with slotsFor := [(3, 1)], rr1 := 3, rr3 := 3 } := by
      simp only [z, cells, hg, hxv]
      rfl
    have hzforced : z.on fCLKSTAT_FORCED = false := by rw [hz]; exact hvforced
    rw [if_neg (by simp [hzforced]), hz, hg]
    rfl
  rw [hrun]
  refine ⟨rfl, ?_, ?_, hvenr, ?_, ?_⟩
  all_goals rw [hv]; rfl

theorem attentionSweep_grants (hc : s.role = .chapter) (hdr : s.drives = true) (hforced : s.on fCLKSTAT_FORCED = false) (hroll : s.drv.roll = none)
    (he : s.drv.enr = [e]) (hx : s.drv.xings = []) (ha : e.absent = false) (hm : e.more = false) (hp : e.pos = 3)
    (hslots : 1 ≤ upSlots s.drvRate s.drvSwofs) : ∃ t : State, exec (.attentionSweep [(3, true)]) s = .next t ∧ Swept s e t := by
  obtain ⟨v, hv⟩ : ∃ v, v = s.driverSweep [(3, true)] := ⟨_, rfl⟩
  have hswept : Swept s e v := hv ▸ driverSweep_grants hc hforced hroll he hx ha hm hp hslots
  have howe := oweSync_writes v
  have hdrv : v.oweSync.drv = v.drv := by rw [howe.regs]
  have hout : v.oweSync.out = v.out := by rw [howe.regs]
  have hlast : LineMoves v v.oweSync := by
    rw [howe.regs]
    rfl
  refine ⟨v.oweSync, ?run, by rw [hdrv, hswept.slots], by rw [hdrv, hswept.closed], by rw [hdrv, hswept.quiet], by rw [hdrv, hswept.enr],
    by rw [hout, hswept.out], hswept.moves.trans hlast⟩
  show execAttentionSweep _ s = _
  rw [execAttentionSweep, chapter_notWalk hc, if_neg Bool.false_ne_true]
  dsimp only
  rw [if_pos hdr, ← hv]

/-! ### Slots (R188, R205) -/

/-- A slot of the only Cell has passed without a valid frame. -/
def slotMissed (s : State) (e : Enr) : State := s.setDrv fun d => { d with
  slotsFor := [], enr := [{ e with badSlots := e.badSlots + 1 }]
  rateWatch := d.rateWatch.map fun w => if w.1 = 0 then w else (w.1, w.2.1 + 1, w.2.2 + b2n (!false)) }

theorem uplinkSlot_missed (hdr : s.drives = true) (hslots : s.drv.slotsFor = [(3, 1)]) (he : s.drv.enr = [e]) (hp : e.pos = 3) :
    exec (.uplinkSlot .driven 3 false) s =
      .next (if 8 ≤ e.badSlots + 1 then (slotMissed s e).cellAbsent 3 1 else slotMissed s e) := by
  obtain ⟨t, ht⟩ : ∃ t, t = s.setDrv fun d => { d with
    slotsFor := [], rateWatch := d.rateWatch.map fun w => if w.1 = 0 then w else (w.1, w.2.1 + 1, w.2.2 + b2n (!false)) } := ⟨_, rfl⟩
  have htenr : t.drv.enr = [e] := by
    rw [ht]
    exact he
  have hset : t.setEnr { e with badSlots := e.badSlots + 1 } = slotMissed s e := by
    rw [slotMissed, ht]
    simp [State.setEnr, State.setDrv, he]
  have hfind : t.enr? 3 = some e := hp ▸ enr?_single t e htenr
  have hslot : s.driverSlot 3 false = if 8 ≤ e.badSlots + 1 then (slotMissed s e).cellAbsent 3 1 else slotMissed s e := by
    have hpass : s.drv.slotsFor.find? (fun p => p.1 = 3 && p.2 != 0) = some (3, 1) := by rw [hslots]; rfl
    have herase : s.drv.slotsFor.erase (3, 1) = [] := by rw [hslots]; rfl
    unfold State.driverSlot
    rw [hpass]
    dsimp -zeta only
    extract_lets u
    have hu : u = t := by
      rw [ht]
      simp only [u, State.setDrv, herase, if_true, List.append_nil]
    have hfound : u.enr? 3 = some e := hu ▸ hfind
    rw [if_pos (by decide), hfound]
    dsimp only
    rw [hu, if_neg Bool.false_ne_true, hset]
  show execUplinkSlot .driven 3 false s = _
  rw [execUplinkSlot, if_pos hdr, hslot]

/-! ### A Cell declared absent (R152, R205, R206) -/

/-- The fields that tell of the tags and the rings enabled. -/
def heldFields : List Fld := [fTAGSTAT_FREE, fSCTAG_FREE, fSCSTAT_ENABLED]

theorem freeTag_writes (s : State) : Writes heldFields s s.freeTag := (sets_writes s _).mono (by simp [heldFields])

section
variable {g : Fld} (hg : heldFields.all (fun f => f.other g) = true)
include hg

theorem writeEntry_fld (s : State) (n slot : Nat) (entry : List Byte) : (s.writeEntry n slot entry).2.fld g = s.fld g := by
  unfold State.writeEntry
  split
  next r _ =>
    split
    · dsimp only
      rw [(freeTag_writes _).kept g hg, fld_of_regs (signal_frame _ _).regs]
      rfl
    · rfl
  next => rfl

theorem endDrain_fld (s : State) (n : Nat) : (s.endDrain n).fld g = s.fld g := by
  unfold State.endDrain
  split
  · dsimp only
    split
    · have hother : fSCSTAT_ENABLED.other g = true := by
        simp only [heldFields, List.all_cons, List.all_nil, Bool.and_true, Bool.and_eq_true] at hg
        exact hg.2.2
      rw [State.fld_setFld_other _ _ _ _ hother]
      rfl
    · rfl
  · rfl

theorem finishHeld_fld (s : State) (h : Held) (entry : List Byte) : (s.finishHeld h entry).fld g = s.fld g := by
  unfold State.finishHeld
  dsimp only
  split
  · rw [endDrain_fld hg, writeEntry_fld hg]
    rfl
  · rfl

end

/-- What settling an absent Cell's descriptors leaves of the driver and of the flags (R152). -/
theorem settleAbsent_keeps (s : State) (addr : Nat) : (s.settleAbsent false addr).drv.enr = s.drv.enr ∧
    (s.settleAbsent false addr).drv.quar = s.drv.quar ∧ (s.settleAbsent false addr).drv.reqs = s.drv.reqs ∧
    (s.settleAbsent false addr).on fLPFLAG_ABSENT = s.on fLPFLAG_ABSENT := by
  have hclosed (l : List Held) : Answered s (l.foldl (fun t h => t.closeHeld h stABSENT) s) ∧
      (l.foldl (fun t h => t.closeHeld h stABSENT) s).fld fLPFLAG_ABSENT = s.fld fLPFLAG_ABSENT :=
    List.foldlRecOn (motive := fun t : State => Answered s t ∧ t.fld fLPFLAG_ABSENT = s.fld fLPFLAG_ABSENT) l _ ⟨rfl, rfl⟩
      fun t ht h _ => ⟨ht.1.trans (finishHeld_answered t h _), (finishHeld_fld (by decide) t h _).trans ht.2⟩
  unfold State.settleAbsent
  dsimp only
  obtain ⟨ha, hf⟩ := hclosed ((s.scr.held.filter fun h => (h.phase = 0 || h.phase = 2) && ofPeer false addr (ringKey h.ring) && h.ring != 3).reverse)
  obtain ⟨u, hu⟩ : ∃ u, u = (s.scr.held.filter fun h => (h.phase = 0 || h.phase = 2) && ofPeer false addr (ringKey h.ring) && h.ring != 3).reverse.foldl
    (fun t h => t.closeHeld h stABSENT) s := ⟨_, rfl⟩
  rw [← hu] at ha hf ⊢
  have hudrv : u.drv = s.drv := by rw [ha]
  have hdead : u.drv.fwd.filter (fun (f : Fwd) => false && f.n = addr) = [] := by simp
  rw [hdead, List.foldl_nil]
  show u.drv.enr = _ ∧ u.drv.quar = _ ∧ u.drv.reqs = _ ∧ u.on fLPFLAG_ABSENT = _
  exact ⟨by rw [hudrv], by rw [hudrv], by rw [hudrv], on_of_fld hf⟩

/-- The only Cell, at position 3, is declared absent: its tokens go to quarantine. -/
theorem cellAbsent_only (reason : Nat) (he : s.drv.enr = [e]) (hp : e.pos = 3) (ha : e.absent = false) :
    (s.cellAbsent 3 reason).drv.enr.all (fun x => x.absent) = true ∧ (s.cellAbsent 3 reason).on fLPFLAG_ABSENT = true ∧
      (s.cellAbsent 3 reason).drv.quar = s.drv.quar ++ [(e.held, 3, 3)] := by
  obtain ⟨e', he'⟩ : ∃ e', e' = ({ e with absent := true, descs := 0, asked := false, silent := 0, badSlots := 0, ranges := 0, more := false } : Enr) :=
    ⟨_, rfl⟩
  have hefacts : e'.absent = true ∧ e'.pos = 3 ∧ e'.held = e.held ∧ e'.pos = e.pos := by
    rw [he']
    exact ⟨rfl, hp, rfl, rfl⟩
  obtain ⟨habsent, hpos, hheld, hsame⟩ := hefacts
  have henr : (s.setEnr e').drv.enr = [e'] := by simp [State.setEnr, he, hsame]
  obtain ⟨q, hq⟩ : ∃ q, q = (s.setEnr e').quarantine 3 := ⟨_, rfl⟩
  have hquar := quarantine_single (s := s.setEnr e') e' henr
  rw [hpos, ← hq] at hquar
  have hqfacts : q.drv.enr.all (fun x => x.absent) = true ∧ (∀ x ∈ q.drv.enr, x.pos = 3) ∧ q.drv.quar = s.drv.quar ++ [(e.held, 3, 3)] ∧
      ∀ p ∈ q.drv.reqs, p ≠ 3 := by
    rw [hquar]
    refine ⟨?_, ?_, ?_, ?_⟩
    · simp [State.setDrv, habsent]
    · simp [State.setDrv]
    · rw [← hheld]
      rfl
    · simp [State.setDrv]
  obtain ⟨hqabsent, hqpos, hqquar, hqreqs⟩ := hqfacts
  obtain ⟨w, hw⟩ : ∃ w, w = (q.raise [fLPFLAG_ABSENT]).driverEvent 0x0020 (some (s.addrOf 3)) (leBytes 1 reason) := ⟨_, rfl⟩
  have hposted : Posted (q.raise [fLPFLAG_ABSENT]) w := hw ▸ driverEvent_posted _ _ _ _
  have hwdrv : w.drv = q.drv := by rw [hposted]; rfl
  have hwflag : w.on fLPFLAG_ABSENT = true := (hposted.on _).trans (on_setFld_one q fLPFLAG_ABSENT (by decide) (by decide))
  obtain ⟨x, hx⟩ : ∃ x, x = if w.role = .chapter then w.settleAbsent false (s.addrOf 3) else w := ⟨_, rfl⟩
  have hxfacts : x.drv.enr = q.drv.enr ∧ x.drv.quar = q.drv.quar ∧ x.drv.reqs = q.drv.reqs ∧ x.on fLPFLAG_ABSENT = true := by
    obtain ⟨kenr, kquar, kreqs, kflag⟩ := settleAbsent_keeps w (s.addrOf 3)
    rw [hx]
    split
    · exact ⟨by rw [kenr, hwdrv], by rw [kquar, hwdrv], by rw [kreqs, hwdrv], kflag.trans hwflag⟩
    · exact ⟨by rw [hwdrv], by rw [hwdrv], by rw [hwdrv], hwflag⟩
  obtain ⟨hxenr, hxquar, hxreqs, hxflag⟩ := hxfacts
  have hunasked : ∀ p ∈ x.drv.reqs, x.enr? p = none := by
    intro p hpr
    rw [State.enr?, List.find?_eq_none]
    intro y hy
    rw [hxenr] at hy
    rw [hqpos y hy]
    simpa using (hqreqs p (hxreqs ▸ hpr)).symm
  obtain ⟨z, hz, hbook⟩ := bookSync_idle x hunasked
  have hrun : s.cellAbsent 3 reason = noticed x z := by
    have hfind : s.enr? 3 = some e := hp ▸ enr?_single s e he
    unfold State.cellAbsent
    rw [hfind]
    dsimp only
    rw [if_neg (by simp [ha]), ← hbook, hx, hw, hq, he']
  have hdrv : (noticed x z).drv.enr = q.drv.enr ∧ (noticed x z).drv.quar = q.drv.quar := by
    rw [noticed, State.setFld_drv, State.setDrv_drv, hz.drv]
    exact ⟨hxenr, hxquar⟩
  have hflag : (noticed x z).on fLPFLAG_ABSENT = true := by
    rw [noticed, on_setFld_other _ _ _ _ (by decide)]
    exact (hz.on _).trans hxflag
  rw [hrun, hdrv.1, hdrv.2]
  exact ⟨hqabsent, hflag, hqquar⟩

theorem uplinkSlot_absent (hdr : s.drives = true) (hslots : s.drv.slotsFor = [(3, 1)]) (he : s.drv.enr = [e]) (hp : e.pos = 3)
    (hbad : e.badSlots = 7) (ha : e.absent = false) : ∃ t : State, exec (.uplinkSlot .driven 3 false) s = .next t ∧
      t.drv.enr.all (fun x => x.absent) = true ∧ t.on fLPFLAG_ABSENT = true ∧ t.drv.quar = s.drv.quar ++ [(e.held, 3, 3)] :=
  ⟨_, (uplinkSlot_missed hdr hslots he hp).trans (congrArg Host.Outcome.next (if_pos (by omega))),
    cellAbsent_only (s := slotMissed s e) (e := { e with badSlots := e.badSlots + 1 }) 1 rfl hp ha⟩

/-! ### The statement -/

/-- Settles O49: the windows of roll call, the superframe, the sweep and the slots, and each frame that comes up (`upFrame_accepts`), with no downlink
period open (`dnFlush_closed`). -/
theorem lineEvents : Obligations.LineEvents := by
  unfold Obligations.LineEvents
  intro s d f rx m e h r c k hdr hd comes seq chapter rest mute host known plain next
  have hrest : ∀ {t : State}, LineMoves s t → rest t := fun ht => ht.stands
  have hrises : ∀ {n : Nat}, comes n → Rises f n := fun ⟨hok, htype⟩ => ⟨hok, htype⟩
  have hsender : known → Sender s f e := fun ⟨hcell, hwalk, henr, hpos, hpresent, hranged⟩ => ⟨hcell, hwalk, henr, hpos, hpresent, hranged⟩
  refine ⟨fun hr => probeWindowEnd_none _ _ hr, ?narrows, fun hr hb he hdn => ?assigns, ?bad, ?conflict, ?beacon, ?sweep, ?slot, ?absent, ?join, ?compl,
    ?record, ?stream, ?report, ?window, fun a hp ha => setWalkTimeout_ends hp ha, setWalkTimeout_none, ?ranged, ?ranging, ?resend,
    fun hc hdn => resendDriver_none hc hdn hd, rfl⟩
  case narrows => exact fun hr => ⟨_, probeWindowEnd_extends hr hd, rfl, s.besidesAll_refl⟩
  case assigns =>
    obtain ⟨t, hrun, hroll, hbinds, hqueue, hall⟩ := probeWindowEnd_assigns hr hb he hd
    exact ⟨t, hrun, hroll, hbinds, by rw [hqueue, hdn, List.nil_append], hall⟩
  case bad =>
    intro hf
    have hbad := fun n act => congrArg (Host.Outcome.next (φ := Fault) (ρ := Refusal)) (fromWalk_bad n hdr hf act)
    exact ⟨hbad 4 _, hbad 5 _, hbad 6 _, hbad 12 _, hbad 9 _, hbad 3 _⟩
  case conflict =>
    intro hcf hb he
    exact ⟨_, frameDiscarded_conflict hdr hcf hb he, rfl, fld_count s fLPCNT_CRCERR (by decide), s.besidesAll_setFld fLPCNT_CRCERR _⟩
  case beacon =>
    intro hc hnow hbabble hforced hgranted hfreed henr hxings hquar hreqs hdn hack htok hrate hwatch hstep hpend hroll hfree hheld hsync hhold _ hlow
    obtain ⟨t, hrun, ht⟩ := superframeStart_beacons hc ⟨hgranted, hfreed, henr, hxings, hquar, hreqs, hdn, hack, htok, hrate, hwatch, hstep, hpend,
      hroll, hsync⟩ hdr hnow hbabble hforced hfree hheld hhold hlow
    exact ⟨t, hrun, ht.iwalk, ht.vwalk, ht.beacons, ht.opened, ht.room, ht.sent, hrest ht.moves⟩
  case sweep =>
    intro hc hforced hroll he hx ha hm hp _ hslots
    obtain ⟨t, hrun, ht⟩ := attentionSweep_grants hc hdr hforced hroll he hx ha hm hp hslots
    exact ⟨t, hrun, ht.slots, ht.closed, ht.quiet, ht.enr, ht.out, hrest ht.moves⟩
  case slot =>
    intro _ hslots he hp hbad _
    exact ⟨slotMissed s e, (uplinkSlot_missed hdr hslots he hp).trans (congrArg Host.Outcome.next (if_neg (by omega))), rfl, rfl,
      hrest (t := slotMissed s e) rfl⟩
  case absent => exact fun hslots he hp hbad ha => uplinkSlot_absent hdr hslots he hp hbad ha
  case join =>
    intro hc hf hra hw he hwant
    obtain ⟨t, hrun, henr, hg, hmoves⟩ := join_enrols hc hdr hd (hrises hf) hra hw he hwant
    exact ⟨t, hrun, by rw [henr]; rfl, hg, hrest hmoves⟩
  case compl =>
    intro hc hf hkn ⟨htok, hwin⟩ ⟨hnext, hlast⟩ ⟨hhost, _⟩ hheld hp hk hseq hrings hn hst _ hlog ht hch hdone hslot hsig hstale hlost hop
    obtain ⟨t, hrun, hend, hput, htail, hout, hmoves⟩ := compl_completes hc hdr hd (hsender hkn) htok hwin hnext hlast (hrises hf) hhost hheld hp hk
      hseq hrings hn hst hlog ht hch hdone hslot hsig hstale hlost hop
    exact ⟨t, hrun, hend, hput, htail, hout, hrest hmoves⟩
  case record =>
    intro hc hf hkn ⟨htok, hwin⟩ ⟨hnext, hlast⟩ ⟨hhost, _⟩ hrings hn hst hkind hlog hp hhead hsig
    obtain ⟨t, hrun, hdhead, hout, hput, hmoves⟩ := eventFrame_records hc hdr hd (hsender hkn) htok hwin hnext hlast (hrises hf) hhost hrings hn hst
      hkind hlog hp hhead hsig
    exact ⟨t, hrun, hdhead, hout, hput, hrest hmoves⟩
  case stream =>
    intro hc hf hring hkn ⟨htok, hwin⟩ ⟨hnext, hlast⟩ hheld hp hk hlen hlost hcr hfwd hbuf hroom
    obtain ⟨t, hrun, hout, hrlen, hmoves⟩ := streamFrame_writes hc hdr hd (hsender hkn) htok hwin hnext hlast (hrises hf) hring hheld hp hk hlen hlost
      hcr hfwd hbuf hroom
    exact ⟨t, hrun, hout, hrlen, hrest hmoves⟩
  case report =>
    intro hc hf hra hx ⟨hnext, hlast⟩ hlen hcode _
    obtain ⟨t, hrun, hput, hdue, hmoves⟩ := report_posts hc hdr hd (hrises hf) hra hx rfl rfl hnext hlast hlen hcode
    exact ⟨t, hrun, hput, hdue, hrest hmoves⟩
  case window =>
    intro hc hf hkn htok hwin hcr hring hknown hheld hfwd hpend
    obtain ⟨t, hrun, hg, hcount, hmoves⟩ := ackf_window (rx := rx) hc hdr (hrises hf) (hsender hkn) htok hwin hcr hring hknown hheld hfwd hpend
    exact ⟨t, hrun, hg, hcount, hrest hmoves⟩
  case ranged => exact fun he hp hn hdn => range_ends hdr he hp hn hdn hd
  case ranging => exact fun he hp hn => range_sums hdr he hp hn
  case resend =>
    intro hc hdn hf
    exact ⟨_, resendDriver_again hc hdn hf hd, rfl, fld_count _ fLPCNT_RESEND (by decide), s.besidesAll_setFld fLPCNT_RESEND _⟩

end Sys2Proof.Proofs
end
